-- ==== Sys2Proof/Word.lean ====
section
/-! DEFINITION. The word types of the model and their plainest arithmetic.  Registers, stamps and identifiers that the
spec counts with are kept as Nat below their width; bytes, and the words of a Tumbler core, are bit vectors. -/
namespace Sys2Proof

/-- One byte of any memory of the part. -/
abbrev Byte := BitVec 8

/-- A Tumbler core's 32-bit register (spec/08_tumbler_dsp.md R212). -/
abbrev Word32 := BitVec 32

/-- A Tumbler core's 40-bit accumulator (spec/08_tumbler_dsp.md R212). -/
abbrev Acc40 := BitVec 40

end Sys2Proof
end

