-- ==== Sys2Proof/Syntax.lean ====
section
/-! DEFINITION. The commands of the block: one constructor of `Instr` per row of spec/opcode_table.json, with its operands.
A command that the host posts on a command ring carries the whole entry (`Cmd`, spec/03_host_commands.md R76). -/
namespace Sys2Proof

/-- A PCIe function (spec/03_host_commands.md R71): the physical function, or the virtual function of Ring r. -/
inductive Fn
  | pf
  | vf (r : Nat)
  deriving DecidableEq, Repr

/-- The path of an always-on request (R93): the PCIe configuration mailbox, or SMBus to a 7-bit address. -/
inductive MbxPath
  | config
  | smbus (addr : Nat)
  deriving DecidableEq, Repr

/-- A command entry (R76) without its opcode, which the constructor gives, and the function that posted it. -/
structure Cmd where
  fn : Fn
  flags : Nat
  tag : Nat
  effectStamp : Nat
  target : Nat
  reserved : Nat
  args : List Byte
  deriving DecidableEq, Repr

/-- The parameters of a sequence (spec/10_codec_tiles_decode.md R256 to R259): of an H.264 SPS, an AV1 sequence header, a VP8 key frame header.
Profile (AV1 seq_profile, H.264 profile_idc, VP8 version) and whether it is a constrained one; level; size; depth; chroma_format_idc;
interlaced coding; max_num_ref_frames; the VUI's max_dec_frame_buffering and num_reorder_frames, none where bitstream_restriction_flag is 0;
use of an unsupported tool; the colour description (primaries, transfer characteristics, full range), none where there is none; the visible
rectangle. -/
structure SeqSyn where
  profile : Nat
  constrained : Bool
  level : Nat
  width : Nat
  height : Nat
  depth : Nat
  chroma : Nat
  interlaced : Bool
  maxRefs : Nat
  restrict : Option (Nat × Nat)
  tool : Bool
  colour : Option (Nat × Nat × Bool)
  vis : List Nat
  deriving DecidableEq, Repr

/-- A syntax error of a picture (R271): whether its headers are in error; the 16×16 unit in raster order at which decoding stops; the first unit
of the next slice (H.264); the tile's units, left, top, right, bottom, the last two beyond it (AV1); the token partition and the number of
partitions (VP8). -/
structure PicErr where
  whole : Bool
  at_ : Nat
  next : Nat
  rect : List Nat
  part : Nat
  parts : Nat
  deriving DecidableEq, Repr

/-- What the bits of one coded picture say under its codec's specification (spec/10_codec_tiles_decode.md R256 to R259, R270 to R272): the
sequence parameters and the PPSs (number, SPS number, use of an unsupported tool) that come with it; the PPS it names; an AV1 frame's own
size and visible rectangle; use of an unsupported tool; spatial and temporal layer; kind (0 other, 1 key, 2 switch); reference slots, the
primary first; those of them that the H.264 process finds empty or non-existing; the order hints that an AV1 header signals for slots, and its
own; slots that hold the picture afterwards and slots emptied; whether it is shown; the slot an AV1 header shows again; H.264's order
count, memory_management_control_operation 5 and no_output_of_prior_pics_flag; syntax errors; the first unit that the data before the
first gap of an incomplete frame does not give. -/
structure PicSyn where
  seqs : List (Nat × SeqSyn)
  ppss : List (Nat × Nat × Bool)
  pps : Nat
  width : Nat
  height : Nat
  vis : List Nat
  tool : Bool
  sid : Nat
  tid : Nat
  kind : Nat
  refs : List Nat
  missing : List Nat
  hints : List (Nat × Nat)
  hint : Nat
  refresh : List Nat
  drop : List Nat
  shown : Bool
  again : Option Nat
  poc : Nat
  mmco5 : Bool
  noOutput : Bool
  errors : List PicErr
  gap : Nat
  deriving DecidableEq, Repr

/-- What coding one picture yields (spec/11_encode_rate_control.md R285, R291, R292, R295): header bits, the bits each row takes coded
normally and coded as a forced row, the bits that close the picture, the sizes in bytes of the NAL units or OBUs before the coded
picture, the mean row quantiser, AV1's base qindex. -/
structure EncOut where
  header : Nat
  rows : List Nat
  forced : List Nat
  closing : Nat
  units : List Nat
  qp : Nat
  base : Nat
  deriving DecidableEq, Repr


/-- A work item as the Ringmaster's tables give it (R234): kernel, whether the subject is an Act, the subject, the block stamp, the stage
of R27's audio path (0 decode, 1 mix and encode, 2 packetise and transmit), Ring, barrier, ordinal, the four pointers; and the Bay the work
is placed on (R35).  The descriptor's deadline and window follow from the stage, its priority from the binding. -/
structure ItemDesc where
  kernel : Nat
  act : Bool
  subject : Nat
  stamp : Nat
  stage : Nat
  ring : Nat
  barrier : Nat
  ordinal : Nat
  ptrs : List Nat
  bay : Nat
  deriving DecidableEq, Repr

/-- A framing operation in pass 2 (R54): its tag, and whether the bytes that the pass reads fail the check that they passed before. -/
structure Pass2 where
  tag : Nat
  hit : Bool
  deriving DecidableEq, Repr

/-- What a TDM slave counts in consecutive blocks on the pins wired as BCLK and as FSYNC (R202; log entry 186). -/
structure ClockCounts where
  port : Nat
  bclk : List Nat
  fsync : List Nat
  deriving DecidableEq, Repr

/-- A pop of a ready queue: which of the entries that it may take (R240), and whether a push of the same cycle follows (R244; log entry
106). -/
structure Pick where
  entry : Nat
  same : Bool
  deriving DecidableEq, Repr

/-- The commands. -/
inductive Instr
  /-- BLOCK_START, R25: The block clock issues a block-start message with the new 48-bit stamp, and every domain takes it as its block boundary. -/
  | blockStart (items : List ItemDesc)
  /-- TELEMETRY_SNAPSHOT, R466: A snapshot falls due and the Ringmaster writes the counters of the previous block into the next ring slot. -/
  | telemetrySnapshot (fn : Fn)
  /-- RTCP_REPORT_SEND, R363: A leg's compound RTCP report falls due and is built and queued in class 1. -/
  | rtcpReportSend (leg : Nat)
  /-- STAMP_FLOOR_WRITE, R382: Every 65,536 blocks the Ringmaster writes a stamp floor to the Ledger. -/
  | stampFloorWrite
  /-- DDR_RETRAIN_PAUSE, R376: A channel's retraining pause falls due and runs at the first free moment of its block. -/
  | ddrRetrainPause (ch : Nat) (ns : Nat)
  /-- PTP_PPS, R101: PTP_PPS_OUT pulses for 1 µs at each PTP second. -/
  | ptpPps
  /-- COMMAND_FETCH, R79: The device fetches a command from the SQ once it has reserved a CQ entry for it. -/
  | commandFetch (fn : Fn)
  /-- NOP, R83: The NOP query completes at once. -/
  | nop (c : Cmd)
  /-- IDENTIFY, R83: IDENTIFY returns GLB_ID, the issuing Ring and the PF bit. -/
  | identify (c : Cmd)
  /-- RING_STATUS, R464: RING_STATUS returns a Ring's active legs, admitted Acts, generation, armed deltas and rollback_ok. -/
  | ringStatus (c : Cmd)
  /-- LOP_QUERY, R88: LOP_QUERY reports the state of a long operation. -/
  | lopQuery (c : Cmd)
  /-- LOP_SUSPEND, R88: LOP_SUSPEND asks a long operation to halt at its next safe point. -/
  | lopSuspend (c : Cmd)
  /-- LOP_RESUME, R88: LOP_RESUME continues a suspended long operation or withdraws a pending suspend. -/
  | lopResume (c : Cmd)
  /-- LOP_CANCEL, R88: LOP_CANCEL ends a long operation at once or at its next safe point. -/
  | lopCancel (c : Cmd)
  /-- FRAMING_LOAD, R58: FRAMING_LOAD supplies a FULL image from host memory while in NO_IMAGE. -/
  | framingLoad (c : Cmd)
  /-- FRAMING_DELTA, R59: FRAMING_DELTA starts a long operation that verifies and arms a delta image. -/
  | framingDelta (c : Cmd)
  /-- FRAMING_ROLLBACK, R66: FRAMING_ROLLBACK arms a restore of one scope to its contents before the last delta. -/
  | framingRollback (c : Cmd)
  /-- FRAMING_DEQUEUE, R61: A queued framing operation leaves QUEUED once staging space and the limit of four allow. -/
  | framingDequeue (fn : Fn) (tag : Nat)
  /-- FRAMING_FETCH_CHUNK, R65: A 64 KiB chunk of the image arrives in staging. -/
  | framingFetchChunk (fn : Fn) (tag : Nat)
  /-- FRAMING_SIGN_DONE, R53: Header checks, signature, digests and key unwrap of an image complete. -/
  | framingSignDone (fn : Fn) (tag : Nat)
  /-- FRAMING_PASS1_TIMBER, R54: Verify-only pass 1 of one encrypted timber completes. -/
  | framingPass1Timber (fn : Fn) (tag : Nat)
  /-- FRAMING_PASS2_TIMBER, R54: Streaming decrypt pass 2 of one encrypted timber completes, zero-filling staging on a mismatch. -/
  | framingPass2Timber (fn : Fn) (tag : Pass2)
  /-- FRAMING_CHECK_DONE, R56: The consistency checks complete and a delta becomes ready and ARMED. -/
  | framingCheckDone (fn : Fn) (tag : Nat)
  /-- ACT_ADMIT, R87: ACT_ADMIT admits an Act with a template and charges its AU. -/
  | actAdmit (c : Cmd)
  /-- ACT_RELEASE, R87: ACT_RELEASE releases an Act whose legs are all FREE. -/
  | actRelease (c : Cmd)
  /-- LEG_ADMIT, R86: LEG_ADMIT admits a leg into an Act and charges its declared use. -/
  | legAdmit (c : Cmd)
  /-- LEG_START, R86: LEG_START makes a keyed leg ACTIVE and ramps its audio in. -/
  | legStart (c : Cmd)
  /-- LEG_ROUTE, R86: LEG_ROUTE moves a leg to another Act of its Ring with a cross-ramp. -/
  | legRoute (c : Cmd)
  /-- LEG_RELEASE, R86: LEG_RELEASE frees an admitted leg or starts draining an active one. -/
  | legRelease (c : Cmd)
  /-- LEG_DRAIN_END, R86: A DRAINING leg's ramp ends and its items complete, so it becomes FREE and its command completes. -/
  | legDrainEnd (leg : Nat)
  /-- STREAM_ADMIT, R107: STREAM_ADMIT admits a stream context with its jitter ring and parameters. -/
  | streamAdmit (c : Cmd)
  /-- STREAM_RELEASE, R107: STREAM_RELEASE frees a stream context at its boundary. -/
  | streamRelease (c : Cmd)
  /-- KEY_BIND, R126: KEY_BIND binds or unbinds a key slot to a stream context. -/
  | keyBind (c : Cmd)
  /-- REKEY_GRACE_END, R127: An ingress context's previous slot reference ends when the grace interval expires. -/
  | rekeyGraceEnd (stream : Nat)
  /-- CANVAS_ADMIT, R326: CANVAS_ADMIT admits a canvas and reserves its surfaces and layout areas. -/
  | canvasAdmit (c : Cmd)
  /-- CANVAS_RELEASE, R329: CANVAS_RELEASE stops a canvas and returns its charge. -/
  | canvasRelease (c : Cmd)
  /-- ENCODE_ADMIT, R281: ENCODE_ADMIT opens or modifies an encode session of a canvas. -/
  | encodeAdmit (c : Cmd)
  /-- ENCODE_RELEASE, R281: ENCODE_RELEASE stops an encode session at its boundary. -/
  | encodeRelease (c : Cmd)
  /-- AUD_SAFE_LOAD, R170: AUD_SAFE_LOAD fetches an Act's parameter set into the inactive bank and swaps banks at the boundary. -/
  | audSafeLoad (c : Cmd)
  /-- LAYOUT_SET, R330: LAYOUT_SET fetches a canvas layout and applies it at its boundary. -/
  | layoutSet (c : Cmd)
  /-- KEYPIC_REQUEST, R294: KEYPIC_REQUEST asks an encode for a key or switch picture. -/
  | keypicRequest (c : Cmd)
  /-- SHAPER_SET, R355: SHAPER_SET sets a leg's shaper, path, payload type or CNAME. -/
  | shaperSet (c : Cmd)
  /-- REWIND_MARK, R320: REWIND_MARK sets or clears a mark on an egress rewind ring. -/
  | rewindMark (c : Cmd)
  /-- REWIND_EXPORT, R321: REWIND_EXPORT starts copying rewind-ring entries to host memory. -/
  | rewindExport (c : Cmd)
  /-- REWIND_EXPORT_CHUNK, R321: A 64 KiB part of a rewind export is written to the host. -/
  | rewindExportChunk (fn : Fn) (tag : Nat)
  /-- CAPTURE, R470: CAPTURE starts recording an Act's ingress and egress to a host ring. -/
  | capture (c : Cmd)
  /-- REPLAY, R471: REPLAY starts running an Act from a capture and comparing its egress. -/
  | replay (c : Cmd)
  /-- TELEMETRY_SET, R465: TELEMETRY_SET configures or stops a function's snapshot stream. -/
  | telemetrySet (c : Cmd)
  /-- KEY_ZEROISE, R140: KEY_ZEROISE zeroises all slots of a Ring or of the device. -/
  | keyZeroise (c : Cmd)
  /-- ZEROISE_ACK, R139: The key store acknowledges a zeroisation request. -/
  | zeroiseAck
  /-- BAY_QUARANTINE, R410: BAY_QUARANTINE takes a Bay out of service with an unplanned re-home. -/
  | bayQuarantine (c : Cmd)
  /-- BAY_WARM_RESET, R410: BAY_WARM_RESET resets the units of a quarantined Bay. -/
  | bayWarmReset (c : Cmd)
  /-- BAY_SELFTEST, R417: BAY_SELFTEST drains a Bay if needed and runs the selected test segments. -/
  | baySelftest (c : Cmd)
  /-- BAY_RETURN, R410: BAY_RETURN returns a tested quarantined Bay to service. -/
  | bayReturn (c : Cmd)
  /-- BAY_DRAIN_COMPLETE, R410: A DRAINING Bay has no item, session or canvas left and enters SELFTEST. -/
  | bayDrainComplete (bay : Nat)
  /-- SELFTEST_SEGMENT_DONE, R419: A self-test segment finishes, passing or failing units. -/
  | selftestSegmentDone (bay : Nat) (seg : Nat) (failed : List Nat)
  /-- TILE_FW_SWAP, R276: TILE_FW_SWAP starts fetching, verifying and loading tile firmware. -/
  | tileFwSwap (c : Cmd)
  /-- FW_SWAP_PHASE_DONE, R277: A phase of a tile firmware swap completes, including the load of one tile. -/
  | fwSwapPhaseDone (fn : Fn) (tag : Nat) (ok : Bool)
  /-- CASCADE_JOIN, R449: CASCADE_JOIN starts the HELLO handshake with the expected members. -/
  | cascadeJoin (c : Cmd)
  /-- CASCADE_LEAVE, R450: CASCADE_LEAVE sends LEAVE to every member with a leave stamp. -/
  | cascadeLeave (c : Cmd)
  /-- FAULTLOG_READ, R420: FAULTLOG_READ writes fault-log entries to host memory. -/
  | faultlogRead (c : Cmd)
  /-- MBX_IDENTITY, R93: The mailbox or SMBus IDENTITY operation returns part, serial and image identity. -/
  | mbxIdentity (p : MbxPath) (seq : Nat) (pec : Bool)
  /-- MBX_STATUS, R93: The mailbox STATUS operation returns stamp, framing state, Bay states and temperature. -/
  | mbxStatus (p : MbxPath) (seq : Nat) (pec : Bool)
  /-- MBX_FAULTLOG_READ, R93: The mailbox FAULTLOG_READ operation returns one fault-log entry. -/
  | mbxFaultlogRead (p : MbxPath) (seq : Nat) (pec : Bool) (index : Nat)
  /-- MBX_KEY_ZEROISE, R93: The mailbox KEY_ZEROISE operation zeroises all slots or one Ring's. -/
  | mbxKeyZeroise (p : MbxPath) (seq : Nat) (pec : Bool) (ringArg : Nat)
  /-- MBX_BAY_QUARANTINE, R93: The SMBus or mailbox BAY_QUARANTINE operation quarantines a Bay. -/
  | mbxBayQuarantine (p : MbxPath) (seq : Nat) (pec : Bool) (bay : Nat)
  /-- MBX_BAY_WARM_RESET, R93: The mailbox BAY_WARM_RESET operation resets a quarantined Bay. -/
  | mbxBayWarmReset (p : MbxPath) (seq : Nat) (pec : Bool) (bay : Nat)
  /-- WDT_KICK, R93: The WDT_KICK operation restarts the watchdog. -/
  | wdtKick (p : MbxPath) (seq : Nat) (pec : Bool)
  /-- SMBUS_RESPONSE_READ, R94: An SMBus block read with command 0x11 returns the mailbox response. -/
  | smbusResponseRead
  /-- SMBUS_BUS_RECOVERY, R487: SMBus lines held low too long are released and the interface reset. -/
  | smbusBusRecovery
  /-- CMD_SQ_TAIL_WRITE, R80: A write of the SQ tail doorbell adds commands or halts intake with BAD_TAIL. -/
  | cmdSqTailWrite (fn : Fn) (v : Nat)
  /-- CMD_CQ_HEAD_WRITE, R78: A write of the CQ head retires entries and result slots, or is ignored and sets bad_head. -/
  | cmdCqHeadWrite (fn : Fn) (v : Nat)
  /-- CMD_RESULT_ACK, R84: A write of CMD_RESULT_ACK retires a ready result slot. -/
  | cmdResultAck (fn : Fn) (v : Nat)
  /-- CMD_ENABLE, R78: Setting or clearing CMD_CTRL.enable starts or stops a function's rings, or is refused. -/
  | cmdEnable (fn : Fn) (v : Nat)
  /-- SQ_HALTED_CLEAR, R80: Clearing sq_halted resumes command intake at the head. -/
  | sqHaltedClear (fn : Fn)
  /-- CQ_HALTED_CLEAR, R80: Clearing cq_halted rewrites the held completion entry. -/
  | cqHaltedClear (fn : Fn)
  /-- INT_EVQ_HEAD_WRITE, R78: A write of an event ring's host head retires entries or is ignored. -/
  | intEvqHeadWrite (fn : Fn) (q : Nat) (v : Nat)
  /-- EVENT_DELIVER, R90: The device drains an event queue entry into the host ring when the ring has room. -/
  | eventDeliver (fn : Fn) (q : Nat) (pick : Nat)
  /-- REG64_HALF_READ, R75: A 32-bit read of half a 64-bit register loads or uses the read latch. -/
  | reg64HalfRead (fn : Fn) (off : Nat)
  /-- REG64_HALF_WRITE, R75: A 32-bit write of half a 64-bit register stages the low half or completes the value. -/
  | reg64HalfWrite (fn : Fn) (off : Nat) (v : Nat)
  /-- REGISTER_WRITE, R491: A write to a register without a row of its own sets its fields, keeping out-of-range values unchanged. -/
  | registerWrite (fn : Fn) (off : Nat) (wide : Bool) (v : Nat)
  /-- FUNCTION_LEVEL_RESET, R72: A PCIe function-level reset disables a function's rings and resets its host-interface registers. -/
  | functionLevelReset (fn : Fn)
  /-- PCIE_LINK_DOWN, R72: The PCIe link goes down; media continues and DMA to the host pauses. -/
  | pcieLinkDown
  /-- FRAME_RECEIVE, R99: An Ethernet frame is received, timestamped, steered and classified. -/
  | frameReceive (link : Nat) (frame : List Byte) (fcsOk : Bool) (sec : Nat) (ns : Nat) (eng : Nat)
  /-- CIPHER_VERDICT, R128: A cipher engine's tag verdict for an ingress packet commits or zero-fills it. -/
  | cipherVerdict (hold : Nat)
  /-- VIDEO_FRAME_TIMEOUT, R113: An incomplete video frame is released INCOMPLETE when its 2 × delay expires. -/
  | videoFrameTimeout (stream : Nat) (seq : Nat)
  /-- BUFFER_RESIZE_EFFECT, R115: A staged circular-buffer length takes effect when the write pointer passes offset 0. -/
  | bufferResizeEffect (kind : Nat) (id : Nat)
  /-- ING_JR_RESIZE, R115: A write of ING_JR_RESIZE with go stages a jitter-ring length change. -/
  | ingJrResize (v : Nat)
  /-- ING_EXC_HEAD_WRITE, R78: A write of an exception ring's host head retires slots or is ignored. -/
  | ingExcHeadWrite (fn : Fn) (v : Nat)
  /-- ETH_LINK_ENABLE, R97: Setting ETH_LINK_CFG.enable starts receive equalisation and ACQUIRE. -/
  | ethLinkEnable (link : Nat)
  /-- ETH_LINK_DISABLE, R97: Clearing ETH_LINK_CFG.enable puts the link in DISABLED. -/
  | ethLinkDisable (link : Nat)
  /-- LINK_SIGNAL_DETECT, R97: Signal is detected on every lane and the link enters TRAIN. -/
  | linkSignalDetect (link : Nat)
  /-- LINK_ACQUIRE_TIMEOUT, R97: No signal for 200 blocks is counted and ACQUIRE continues. -/
  | linkAcquireTimeout (link : Nat)
  /-- LINK_TRAIN_DONE, R97: Auto-negotiation and link training complete and the link enters LOCK. -/
  | linkTrainDone (link : Nat)
  /-- LINK_TRAIN_TIMEOUT, R97: Training not complete within 1,000 blocks returns the link to ACQUIRE. -/
  | linkTrainTimeout (link : Nat)
  /-- LINK_LOCK, R97: Block and alignment-marker lock on every lane records polarity and reversal. -/
  | linkLock (link : Nat) (polInv : Nat) (reversed : Bool)
  /-- LINK_LOCK_TIMEOUT, R97: No lock within 200 blocks returns the link to ACQUIRE. -/
  | linkLockTimeout (link : Nat)
  /-- FEC_CODEWORD_LOCK, R97: Codeword lock brings the link UP and queues LINK_UP. -/
  | fecCodewordLock (link : Nat)
  /-- LINK_FAULT, R97: A local or remote fault or loss of lock for 2 blocks takes the link down. -/
  | linkFault (link : Nat) (cause : Nat)
  /-- LINK_DEGRADE_DETECT, R97: Uncorrected codewords above threshold for 2,000 blocks set degraded. -/
  | linkDegradeDetect (link : Nat) (n : Nat)
  /-- PTP_TIME_SET, R101: A write of ETH_PTP_SEC sets PTP time and time_valid. -/
  | ptpTimeSet (v : Nat)
  /-- PTP_NS_READ, R101: A read of ETH_PTP_NS latches ETH_PTP_SEC. -/
  | ptpNsRead
  /-- PTP_STEP, R101: A write of ETH_PTP_STEP steps PTP time and moves the block clock's phase target. -/
  | ptpStep (v : Nat)
  /-- KEY_LOAD, R124: A go with op 1 checks and loads staged key material into a slot. -/
  | keyLoad (fn : Fn)
  /-- KEY_ERASE, R124: A go with op 2 erases a slot. -/
  | keyErase (fn : Fn)
  /-- KEY_ABORT, R123: A go with op 0 discards the staging area. -/
  | keyAbort (fn : Fn)
  /-- KEY_LOAD_DATA_WRITE, R123: A write of a KEY_LOAD_DATA word stages key material and sets its written bit. -/
  | keyLoadDataWrite (fn : Fn) (n : Nat) (v : Nat)
  /-- KEY_OP_COMPLETE, R123: A key load or erase completes and sets result and KCV. -/
  | keyOpComplete
  /-- KEY_SLOT_ERROR, R142: A parity or ECC error in a slot empties it and clears its references. -/
  | keySlotError (slot : Nat)
  /-- SCA_CFG_WRITE, R137: A write of CIPH_SCA_CFG changes the measures or is refused while keys are valid. -/
  | scaCfgWrite (v : Nat)
  /-- ENTROPY_HEALTH_FAIL, R138: An entropy health test fails and RNG_FAIL is queued. -/
  | entropyHealthFail
  /-- SRC_SELECT_FILTER, R189: A staged op 1 arms a preset or bank selection for an Act. -/
  | srcSelectFilter (fn : Fn)
  /-- SRC_BIND_SLOT, R198: A staged op 2 arms a TDM slot binding for a leg. -/
  | srcBindSlot (fn : Fn)
  /-- SRC_UNBIND_SLOT, R198: A staged op 3 arms removal of a leg's TDM slot binding. -/
  | srcUnbindSlot (fn : Fn)
  /-- SRC_BANK_COEF_WRITE, R187: A write of SRC_BANK_COEF loads the next coefficient of a stopped bank. -/
  | srcBankCoefWrite (v : Nat)
  /-- SRC_BANK_COMMIT, R188: A bank commit checks the tables and makes the bank READY or EMPTY. -/
  | srcBankCommit
  /-- SRC_BANK_ABORT, R187: A bank abort clears a loading bank. -/
  | srcBankAbort
  /-- SRC_BANK_CLEAR, R187: A bank clear empties a READY or EMPTY bank. -/
  | srcBankClear
  /-- TDM_FRAME, R196: A TDM frame is received and transmitted, with slave-mode slips dropped or repeated. -/
  | tdmFrame (port : Nat) (slots : List Nat)
  /-- TDM_CLOCK_LOSS, R196: A slave port with no BCLK for one block enters WAIT_CLK. -/
  | tdmClockLoss (port : Nat)
  /-- TDM_DMA_REQUEST, R200: A TDM port requests a one-frame DMA transfer. -/
  | tdmDmaRequest (port : Nat) (tx : Bool)
  /-- PERIPH_WITHDRAW, R398: A peripheral withdraws its DMA request after the burst began. -/
  | periphWithdraw (port : Nat) (tx : Bool) (consumed : Nat)
  /-- TDM_PIN_SHORT, R201: Sixteen driven cycles read back opposite mark a driven pin shorted. -/
  | tdmPinShort (port : Nat) (pin : Nat) (high : Bool)
  /-- TDM_PIN_TEST, R201: An input pin without transition for a block is tested with pull pulses. -/
  | tdmPinTest (port : Nat) (pin : Nat) (up : Bool) (down : Bool)
  /-- TDM_PIN_RETEST, R201: A faulted pin is retested every 2,000 blocks and cleared when it passes. -/
  | tdmPinRetest (port : Nat) (pin : Nat) (pass : Bool)
  /-- TDM_AUTO_SWAP, R202: A slave port detects swapped BCLK and FSYNC for 2 blocks and exchanges them. -/
  | tdmAutoSwap (port : ClockCounts)
  /-- TDM_DUP_TAKEOVER, R203: A parity error in the active serialiser hands over to the other. -/
  | tdmDupTakeover (port : Nat)
  /-- DEBUG_ENABLE, R229: Setting or clearing debug_en moves a core's duty to or from its cluster spare. -/
  | debugEnable (core : Nat) (v : Nat)
  /-- DEBUG_HALT_REQUEST, R228: A halt write raises a debug interrupt at the next boundary. -/
  | debugHaltRequest (core : Nat)
  /-- DEBUG_STEP, R228: A step write runs one instruction from HALTED. -/
  | debugStep (core : Nat)
  /-- DEBUG_RESUME, R228: A resume write leaves HALTED. -/
  | debugResume (core : Nat)
  /-- DEBUG_INTERRUPT, R228: A breakpoint register match enters the debug handler. -/
  | debugInterrupt (core : Nat)
  /-- CORE_HW_FAULT, R227: An uncorrectable core memory or register fault ends the item and moves the duty to the spare. -/
  | coreHwFault (core : Nat) (cause : Nat)
  /-- TMB_NOP, R214: The NOP instruction does nothing. -/
  | tmbNop (core : Nat)
  /-- ADD, R214: ADD adds two registers. -/
  | tmbAdd (core : Nat) (sat : Bool) (d : Nat) (a : Nat) (b : Nat)
  /-- SUB, R214: SUB subtracts two registers. -/
  | tmbSub (core : Nat) (sat : Bool) (d : Nat) (a : Nat) (b : Nat)
  /-- AND, R214: AND forms the bitwise and. -/
  | tmbAnd (core : Nat) (d : Nat) (a : Nat) (b : Nat)
  /-- OR, R214: OR forms the bitwise or. -/
  | tmbOr (core : Nat) (d : Nat) (a : Nat) (b : Nat)
  /-- XOR, R214: XOR forms the bitwise exclusive or. -/
  | tmbXor (core : Nat) (d : Nat) (a : Nat) (b : Nat)
  /-- SHL, R214: SHL shifts left by sh. -/
  | tmbShl (core : Nat) (sat : Bool) (d : Nat) (a : Nat) (sh : Nat)
  /-- SHR, R214: SHR shifts right arithmetically by sh. -/
  | tmbShr (core : Nat) (d : Nat) (a : Nat) (sh : Nat)
  /-- SHRL, R214: SHRL shifts right logically by sh. -/
  | tmbShrl (core : Nat) (d : Nat) (a : Nat) (sh : Nat)
  /-- SHLV, R214: SHLV shifts left by a register. -/
  | tmbShlv (core : Nat) (sat : Bool) (d : Nat) (a : Nat) (b : Nat)
  /-- SHRV, R214: SHRV shifts right arithmetically by a register. -/
  | tmbShrv (core : Nat) (d : Nat) (a : Nat) (b : Nat)
  /-- MIN, R214: MIN takes the signed minimum. -/
  | tmbMin (core : Nat) (d : Nat) (a : Nat) (b : Nat)
  /-- MAX, R214: MAX takes the signed maximum. -/
  | tmbMax (core : Nat) (d : Nat) (a : Nat) (b : Nat)
  /-- ABS, R214: ABS takes the absolute value. -/
  | tmbAbs (core : Nat) (sat : Bool) (d : Nat) (a : Nat)
  /-- NEG, R214: NEG negates. -/
  | tmbNeg (core : Nat) (sat : Bool) (d : Nat) (a : Nat)
  /-- MULLO, R214: MULLO takes the low 32 bits of a 32 × 32 product. -/
  | tmbMullo (core : Nat) (sat : Bool) (d : Nat) (a : Nat) (b : Nat)
  /-- CLZ, R214: CLZ counts leading zeros. -/
  | tmbClz (core : Nat) (d : Nat) (a : Nat)
  /-- SEXT16, R214: SEXT16 sign-extends the low halfword. -/
  | tmbSext16 (core : Nat) (d : Nat) (a : Nat)
  /-- PACK, R214: PACK joins two halfwords. -/
  | tmbPack (core : Nat) (d : Nat) (a : Nat) (b : Nat)
  /-- CMPLT, R214: CMPLT compares signed less-than. -/
  | tmbCmplt (core : Nat) (d : Nat) (a : Nat) (b : Nat)
  /-- CMPEQ, R214: CMPEQ compares equal. -/
  | tmbCmpeq (core : Nat) (d : Nat) (a : Nat) (b : Nat)
  /-- CMPLTU, R214: CMPLTU compares unsigned less-than. -/
  | tmbCmpltu (core : Nat) (d : Nat) (a : Nat) (b : Nat)
  /-- RDA, R214: RDA reads an accumulator with shift and optional rounding. -/
  | tmbRda (core : Nat) (sat : Bool) (d : Nat) (acc : Nat) (rnd : Bool) (sh : Nat)
  /-- RDAH, R214: RDAH reads accumulator bits 39:32 sign-extended. -/
  | tmbRdah (core : Nat) (d : Nat) (acc : Nat)
  /-- WRA, R214: WRA writes an accumulator. -/
  | tmbWra (core : Nat) (sat : Bool) (acc : Nat) (a : Nat) (sh : Nat)
  /-- ADDA, R214: ADDA adds a shifted register to an accumulator. -/
  | tmbAdda (core : Nat) (sat : Bool) (acc : Nat) (a : Nat) (sh : Nat)
  /-- SUBA, R214: SUBA subtracts a shifted register from an accumulator. -/
  | tmbSuba (core : Nat) (sat : Bool) (acc : Nat) (a : Nat) (sh : Nat)
  /-- CLRA, R214: CLRA clears an accumulator. -/
  | tmbClra (core : Nat) (acc : Nat)
  /-- SAT24, R214: SAT24 clamps to 24 bits. -/
  | tmbSat24 (core : Nat) (d : Nat) (a : Nat)
  /-- ADDI, R214: ADDI adds an immediate. -/
  | tmbAddi (core : Nat) (sat : Bool) (d : Nat) (src : Nat) (imm : Nat)
  /-- ANDI, R214: ANDI ands an immediate. -/
  | tmbAndi (core : Nat) (d : Nat) (src : Nat) (imm : Nat)
  /-- ORI, R214: ORI ors an immediate. -/
  | tmbOri (core : Nat) (d : Nat) (src : Nat) (imm : Nat)
  /-- XORI, R214: XORI exclusive-ors an immediate. -/
  | tmbXori (core : Nat) (d : Nat) (src : Nat) (imm : Nat)
  /-- MOVI, R214: MOVI loads a sign-extended immediate. -/
  | tmbMovi (core : Nat) (d : Nat) (imm : Nat)
  /-- MOVHI, R214: MOVHI loads an immediate into the high halfword. -/
  | tmbMovhi (core : Nat) (d : Nat) (imm : Nat)
  /-- CMPLTI, R214: CMPLTI compares less-than an immediate. -/
  | tmbCmplti (core : Nat) (d : Nat) (src : Nat) (imm : Nat)
  /-- CMPEQI, R214: CMPEQI compares equal to an immediate. -/
  | tmbCmpeqi (core : Nat) (d : Nat) (src : Nat) (imm : Nat)
  /-- LDW, R214: LDW loads a word from X or Y. -/
  | tmbLdw (core : Nat) (d : Nat) (y : Bool) (post : Bool) (p : Nat) (imm : Nat)
  /-- LDH, R214: LDH loads a signed halfword. -/
  | tmbLdh (core : Nat) (d : Nat) (y : Bool) (post : Bool) (p : Nat) (imm : Nat)
  /-- LDHU, R214: LDHU loads an unsigned halfword. -/
  | tmbLdhu (core : Nat) (d : Nat) (y : Bool) (post : Bool) (p : Nat) (imm : Nat)
  /-- STW, R214: STW stores a word. -/
  | tmbStw (core : Nat) (d : Nat) (y : Bool) (post : Bool) (p : Nat) (imm : Nat)
  /-- STH, R214: STH stores a halfword. -/
  | tmbSth (core : Nat) (d : Nat) (y : Bool) (post : Bool) (p : Nat) (imm : Nat)
  /-- BEQZ, R214: BEQZ branches when a register is zero. -/
  | tmbBeqz (core : Nat) (r : Nat) (imm : Nat)
  /-- BNEZ, R214: BNEZ branches when a register is non-zero. -/
  | tmbBnez (core : Nat) (r : Nat) (imm : Nat)
  /-- BLTZ, R214: BLTZ branches when a register is negative. -/
  | tmbBltz (core : Nat) (r : Nat) (imm : Nat)
  /-- BGEZ, R214: BGEZ branches when a register is non-negative. -/
  | tmbBgez (core : Nat) (r : Nat) (imm : Nat)
  /-- BR, R214: BR branches unconditionally. -/
  | tmbBr (core : Nat) (imm : Nat)
  /-- BLC, R220: BLC decrements the loop counter, branches and rotates the register base. -/
  | tmbBlc (core : Nat) (imm : Nat)
  /-- CALL, R214: CALL saves the link address and branches. -/
  | tmbCall (core : Nat) (imm : Nat)
  /-- RET, R214: RET returns to the link address. -/
  | tmbRet (core : Nat)
  /-- MTC, R217: MTC writes a control register. -/
  | tmbMtc (core : Nat) (creg : Nat) (reg : Nat)
  /-- MFC, R214: MFC reads a control register. -/
  | tmbMfc (core : Nat) (creg : Nat) (reg : Nat)
  /-- XRD, R221: XRD starts a transfer from the Truss into local memory. -/
  | tmbXrd (core : Nat) (p : Nat)
  /-- XWR, R221: XWR starts a transfer from local memory to the Truss. -/
  | tmbXwr (core : Nat) (p : Nat)
  /-- TRANSFER_COMPLETE, R222: An outstanding transfer completes and releases stalled accesses. -/
  | transferComplete (core : Nat) (n : Nat)
  /-- WAITX, R214: WAITX stalls until few enough transfers are outstanding. -/
  | tmbWaitx (core : Nat) (n : Nat)
  /-- END, R224: END stops issue and completes the item OK or FAILED. -/
  | tmbEnd (core : Nat)
  /-- RETI, R228: RETI returns from a debug interrupt. -/
  | tmbReti (core : Nat)
  /-- BKPT, R228: BKPT raises a debug interrupt in DEBUG state. -/
  | tmbBkpt (core : Nat) (code : Nat)
  /-- FAULT, R227: FAULT ends the item with KFAULT. -/
  | tmbFault (core : Nat) (code : Nat)
  /-- MAC, R215: MAC multiplies and accumulates with parallel loads. -/
  | tmbMac (core : Nat) (acc : Nat) (sat : Bool) (a : Nat) (b : Nat) (xd : Nat) (xp : Nat) (xm : Bool) (yd : Nat) (yp : Nat) (ym : Bool)
  /-- MSU, R215: MSU multiplies and subtracts with parallel loads. -/
  | tmbMsu (core : Nat) (acc : Nat) (sat : Bool) (a : Nat) (b : Nat) (xd : Nat) (xp : Nat) (xm : Bool) (yd : Nat) (yp : Nat) (ym : Bool)
  /-- MPY, R215: MPY multiplies into an accumulator with parallel loads. -/
  | tmbMpy (core : Nat) (acc : Nat) (sat : Bool) (a : Nat) (b : Nat) (xd : Nat) (xp : Nat) (xm : Bool) (yd : Nat) (yp : Nat) (ym : Bool)
  /-- LDP, R215: LDP performs parallel loads only. -/
  | tmbLdp (core : Nat) (xd : Nat) (xp : Nat) (xm : Bool) (yd : Nat) (yp : Nat) (ym : Bool)
  /-- CORE_PREFETCH, R240: A cluster fills an empty prefetch slot from its ready queue. -/
  | corePrefetch (core : Nat) (pick : Pick)
  /-- ITEM_HANDLE_RETRY, R235: An item that found no free handle is created in a later cycle. -/
  | itemHandleRetry
  /-- DEADLINE_MISS, R239: An item not counted by the end of its deadline block is stopped and missed. -/
  | deadlineMiss (handle : Nat)
  /-- ITEM_HUNG, R239: An item running too many cycles is HUNG and re-run. -/
  | itemHung (core : Nat)
  /-- BARRIER_CLOSE, R242: A barrier's count completes, its status block is written and consumer items are created. -/
  | barrierClose (barrier : Nat) (items : List ItemDesc)
  /-- SHADOW_COMPARE, R248: An original and its shadow copy have ended and their writes are compared. -/
  | shadowCompare (handle : Nat)
  /-- SHADOW_ABANDON, R249: A comparison not decided by sample offset 22 of the deadline block is abandoned. -/
  | shadowAbandon (handle : Nat)
  /-- QUEUE_SPILL_REPUSH, R245: A handle held in the spill register is pushed again when the queue has room. -/
  | queueSpillRepush (cl : Nat)
  /-- QUEUE_ECC_RESCAN, R246: An uncorrectable queue entry is discarded and the cluster's QUEUED handles are pushed again. -/
  | queueEccRescan (q : Nat) (pick : Nat)
  /-- DECODE_PICTURE_START, R254: A decode engine starts the ready picture with the earliest deadline. -/
  | decodePictureStart (tile : Nat) (p : PicSyn)
  /-- DECODE_PICTURE_COMPLETE, R274: A decoded picture's planks, sidecar and checkpoint are written and it is counted. -/
  | decodePictureComplete (tile : Nat)
  /-- DECODE_PICTURE_MISSED, R274: A picture not complete by the end of its window is missed. -/
  | decodePictureMissed (stream : Nat) (p : PicSyn)
  /-- TILE_HW_FAULT, R275: A tile hardware fault moves the tile's duty to the Bay spare. -/
  | tileHwFault (tile : Nat)
  /-- ENCODE_PICTURE_START, R284: An encode engine starts the ready picture with the earliest window end. -/
  | encodePictureStart (tile : Nat)
  /-- ENCODE_PICTURE_COMPLETE, R297: An encoded picture's bits, reconstruction and checkpoint are written. -/
  | encodePictureComplete (tile : Nat) (o : EncOut)
  /-- REPEAT_PICTURE, R296: A repeat picture is sent when the input slot is unwritten or the encode missed its window. -/
  | repeatPicture (enc : Nat) (bytes : Nat)
  /-- CANVAS_TICK, R327: A canvas tick falls due and its picture becomes ready for composition. -/
  | canvasTick (canvas : Nat)
  /-- COMPOSITION_COMPLETE, R346: A composition ends and the output checker computes its region CRCs. -/
  | compositionComplete (comp : Nat) (crcs : List (Nat × Nat))
  /-- COMPOSITION_MISSED, R349: A composition not complete by its window end is never used. -/
  | compositionMissed (canvas : Nat)
  /-- DP_FRAME_START, R352: At each DisplayPort frame start the output takes the newest complete surface. -/
  | dpFrameStart
  /-- DP_CTRL_WRITE, R352: A write of DP_CTRL selects mode, canvas, timing and pattern, or sets refused. -/
  | dpCtrlWrite (v : Nat)
  /-- DP_HPD_HIGH, R351: HPD stable high for 200 blocks starts link training. -/
  | dpHpdHigh (caps : Nat)
  /-- DP_TRAIN_PASS, R351: Training passes and the link is UP. -/
  | dpTrainPass (polInv : Nat)
  /-- DP_TRAIN_STEP_FAIL, R351: A training step fails and training retries lower or ends FAILED. -/
  | dpTrainStepFail
  /-- DP_RETRY_TIMER, R351: A FAILED link retries training after 2,000 blocks. -/
  | dpRetryTimer
  /-- DP_HPD_IRQ, R351: An HPD IRQ reporting loss of lock retrains the link. -/
  | dpHpdIrq
  /-- DP_HPD_LOW, R351: HPD low for 4 blocks takes the link DOWN. -/
  | dpHpdLow
  /-- RECEIVER_NACK, R319: A receiver's NACK is processed and a qualifying packet is retransmitted by RTX. -/
  | receiverNack (leg : Nat)
  /-- UPSTREAM_NACK, R316: A generic NACK for a missing ingress sequence number is sent upstream. -/
  | upstreamNack (stream : Nat)
  /-- FIR_ESCALATION, R316: A pending switch that waited 2,000 blocks without a key picture sends a FIR. -/
  | firEscalation (leg : Nat)
  /-- FALLBACK_OPEN_RETRY, R314: A refused transcode fallback is tried again every 2,000 blocks. -/
  | fallbackOpenRetry (leg : Nat)
  /-- FWD_SUBSCRIBE, R302: A staged op 1 arms a subscription of a receiving leg to a source. -/
  | fwdSubscribe (fn : Fn)
  /-- FWD_UNSUBSCRIBE, R302: A staged op 2 arms removal of a leg's subscription. -/
  | fwdUnsubscribe (fn : Fn)
  /-- FWD_SET_LEG_CAP, R302: A staged op 3 arms a leg rate cap. -/
  | fwdSetLegCap (fn : Fn)
  /-- FWD_RW_RESIZE, R322: A write of FWD_RW_RESIZE with go stages a rewind-ring length change. -/
  | fwdRwResize (fn : Fn) (v : Nat)
  /-- TRANSMIT_WINDOW, R361: A link's window opens when its transmit barrier closes and frames are served by priority and DRR. -/
  | transmitWindow (link : Nat)
  /-- HTX_FRAME_SUBMIT, R364: A write of EGR_HTX_TAIL hands host frames to the egress scheduler. -/
  | htxFrameSubmit (fn : Fn) (v : Nat)
  /-- SCHEDULER_TAKEOVER, R365: A faulted egress scheduler instance is replaced by its standby. -/
  | schedulerTakeover (link : Nat)
  /-- DDR_ECC_CORRECTED, R373: A corrected DRAM error is counted, possibly marking a device suspect. -/
  | ddrEccCorrected (ch : Nat) (sub : Nat) (dev : Nat) (row : Nat)
  /-- DDR_ECC_UNCORRECTABLE, R373: An uncorrectable DRAM line is returned poisoned and written back with a poison code. -/
  | ddrEccUncorrectable (ch : Nat) (line : Nat) (both : Bool) (jr : List (Nat × Nat)) (rw : List (Nat × Nat))
  /-- DDR_CA_PARITY_ALERT, R377: An RCD parity alert stops the controller and replays its buffered commands. -/
  | ddrCaParityAlert (ch : Nat) (same : Bool)
  /-- DDR_CHANNEL_LOSS, R378: The Safety Net declares a channel LOST. -/
  | ddrChannelLoss (ch : Nat) (cause : Nat) (jr : List (Nat × Nat)) (rw : List (Nat × Nat))
  /-- LEDGER_ECC, R384: An uncorrectable Ledger word invalidates its record and queues LDG_ECC. -/
  | ledgerEcc (addr : Nat) (copy : Nat)
  /-- DMA_CH_ADD, R390: A write of DMA_CH_ADD adds descriptors to a channel's count. -/
  | dmaChAdd (fn : Fn) (c : Nat) (v : Nat)
  /-- DMA_DESCRIPTOR_COMPLETE, R391: A DMA descriptor completes and is rewritten in place with own clear. -/
  | dmaDescriptorComplete (c : Nat)
  /-- DMA_FENCE_COMPLETE, R394: A FENCE's read returns after earlier writes arrived and it completes FENCED. -/
  | dmaFenceComplete (c : Nat)
  /-- DMA_STOP, R399: A stop write halts a channel at the next descriptor boundary. -/
  | dmaStop (c : Nat)
  /-- DMA_ABORT, R399: An abort write ends the descriptor in progress at the next line boundary. -/
  | dmaAbort (c : Nat) (done : Nat)
  /-- DMA_RESUME, R391: A resume write lets a HALTED channel continue with the next descriptor. -/
  | dmaResume (c : Nat)
  /-- DMA_ENABLE, R399: Writing enable starts a channel or resumes a stopped one at its head. -/
  | dmaEnable (c : Nat) (on : Bool)
  /-- DMA_TAKEOVER, R400: The standby DMA instance takes over and resumes descriptors from their checkpoints. -/
  | dmaTakeover
  /-- BAY_HEARTBEAT_MISS, R407: Two consecutive missing Bay heartbeats declare the Bay lost. -/
  | bayHeartbeatMiss (bay : Nat)
  /-- BAY_LOSS_DECLARED, R407: A Bay is declared lost on heartbeat, PLL, power-good or mesh parity failure. -/
  | bayLossDeclared (bay : Nat) (cause : Nat)
  /-- LOCKSTEP_MISMATCH, R408: A Ringmaster lockstep mismatch stops both cores and rolls back to the checkpoint. -/
  | lockstepMismatch (same : Bool)
  /-- RM_SELFTEST_DONE, R408: After three failing rollbacks the cores' ROM self-tests end in single mode or lockstep. -/
  | rmSelftestDone (pass0 : Bool) (pass1 : Bool)
  /-- HELLO, R449: A received HELLO is checked and answered with JOIN_ACK. -/
  | casHello (payload : List Byte)
  /-- JOIN_ACK, R449: A received JOIN_ACK advances or fails the join. -/
  | casJoinAck (payload : List Byte)
  /-- LEAVE, R450: A received LEAVE drops the sender from its leave stamp. -/
  | casLeave (payload : List Byte)
  /-- AUDIO, R451: A received AUDIO message delivers a member's partials and level entries. -/
  | casAudio (payload : List Byte)
  /-- VIDEO, R455: A received VIDEO message delivers a released packet of a wanted bridge stream. -/
  | casVideo (payload : List Byte)
  /-- VIDEO_REQ, R455: A received VIDEO_REQ wants, stops or asks for a key picture of a bridge stream. -/
  | casVideoReq (payload : List Byte)
  /-- HELLO_RESEND, R449: A HELLO is sent to each expected peer every 20 blocks. -/
  | helloResend
  /-- JOIN_TIMEOUT, R449: A join without every acknowledgement after 2,000 blocks fails TIMEOUT. -/
  | joinTimeout
  /-- MEMBER_LOSS, R456: A member with no AUDIO stream for 4 stamps is declared LOST. -/
  | memberLoss (m : Nat)
  /-- CAS_MAP_ACT, R453: A staged op 1 maps a local Act into the bridge. -/
  | casMapAct
  /-- CAS_UNMAP_ACT, R453: A staged op 2 unmaps a local Act. -/
  | casUnmapAct
  /-- CAS_SET_SEAT, R453: A staged op 3 sets a leg's seat. -/
  | casSetSeat
  /-- CAS_REMOTE_SOURCE, R455: A staged op 4 sets a receiving leg's source to a remote seat. -/
  | casRemoteSource
  /-- CAS_KEY_LOAD, R448: A cascade key load fills KR1 unless it is valid. -/
  | casKeyLoad
  /-- CAS_KEY_ERASE, R448: A cascade key erase empties KR1. -/
  | casKeyErase
  /-- CAS_KEY_ABORT, R448: A cascade key abort discards the staged key. -/
  | casKeyAbort
  /-- TRACE_ENABLE, R467: Enabling the trace buffer accepts a base in a kind-9 region or sets refused. -/
  | traceEnable
  /-- FRM_SIGNER_REVOKE, R70: A revoked write permanently revokes an image-key slot or is refused. -/
  | frmSignerRevoke (v : Nat)
  /-- BOOT_START, R437: PWR_GOOD and SYS_RST_N high for 10 ms start the ROM self-test. -/
  | bootStart
  /-- ROM_SELFTEST_DONE, R437: The control cores' ROM self-test ends and firmware is read, or boot stops in ROM_FAIL. -/
  | romSelftestDone (pass0 : Bool) (pass1 : Bool)
  /-- FW_VERIFY_DONE, R437: A firmware slot is verified and firmware starts, or both fail. -/
  | fwVerifyDone
  /-- LEDGER_READ_DONE, R437: The Ledger headers are read, the boot count advanced and tables loaded. -/
  | ledgerReadDone
  /-- IMAGE_LOAD_DONE, R57: A framing image slot passes or both fail into NO_IMAGE. -/
  | imageLoadDone
  /-- CLOCKS_LOCKED, R437: The PLLs lock to the clock plan. -/
  | clocksLocked (a : Bool) (b : Bool)
  /-- DRAM_TRAIN_DONE, R368: DRAM training ends and the granule table is built, or the plan does not fit. -/
  | dramTrainDone (chans : List Nat)
  /-- BAYS_UP_DONE, R437: Each Bay is brought up and checked with segments 0 and 7. -/
  | baysUpDone (failed : List Nat)
  /-- PORTS_STARTED, R437: Ethernet, PCIe BARs, TDM and DisplayPort are started and the device waits for the first block. -/
  | portsStarted (ms : Nat)
  /-- STOPPED_RELEASE, R437: A STOPPED device returns to ROM once power, reset and temperature allow. -/
  | stoppedRelease
  /-- SUPPLY_SAG, R428: A supply sag stops the main domains and zeroises keys. -/
  | supplySag (rails : Nat)
  /-- SAVE_COMPLETE, R429: The hold-up save and stamp floor are written and the device is STOPPED. -/
  | saveComplete
  /-- RAIL_WARN, R425: A rail below nominal − 4% sets its warn bit. -/
  | railWarn (rails : Nat)
  /-- KEEPER_RESET, R434: KEEP_RST_N low or brown-out resets the whole device, keeper included. -/
  | keeperReset
  /-- SYS_RESET, R434: SYS_RST_N low resets the main domains and Ringmaster with a save. -/
  | sysReset
  /-- PCIE_PERST, R434: PCIE_PERST_N resets the host interface only. -/
  | pciePerst
  /-- THERMAL_WARN, R440: A sensor at or above warn sets its warn bit. -/
  | thermalWarn (sensor : Nat) (temp : Nat)
  /-- THERMAL_CLEAR, R440: Every sensor falls below warn − hyst. -/
  | thermalClear
  /-- THERMAL_TRIP, R440: A sensor at 115 °C starts the stop sequence with last_stop 4. -/
  | thermalTrip (sensor : Nat) (temp : Nat)
  /-- REFCLK_LOSS, R433: A lost reference puts PLLs in holdover and fails over to the other reference. -/
  | refclkLoss (ref : Nat)
  /-- REFCLK_REVERT, R433: A revert write switches back to the primary reference once it has been good for 2,000 blocks. -/
  | refclkRevert (good : Bool)
  /-- HOLDUP_TEST_PERIODIC, R427: The capacitor test runs at the first block and every 7,200,000 blocks. -/
  | holdupTestPeriodic (sense : Int) (v0 : Int) (v10 : Int) (v1000 : Int)
  /-- HOLDUP_TEST_REQUEST, R427: A write of PWR_HOLDUP_CTRL.test runs the capacitor test. -/
  | holdupTestRequest (sense : Int) (v0 : Int) (v10 : Int) (v1000 : Int)
  /-- HOLDUP_DISABLE, R427: Writing disable disarms hold-up. -/
  | holdupDisable (on : Bool)
  /-- HOLDUP_SENSE_TIMEOUT, R427: After 20 s a capacitor still below 3.10 V is classed SHORT or LOW. -/
  | holdupSenseTimeout (sense : Int)
  /-- HOLDUP_REVERSE_DETECT, R427: VKEEP_SNS at or below −0.20 V classes the capacitor REVERSED. -/
  | holdupReverseDetect (sense : Int)
  /-- WATCHDOG_EXPIRY, R435: The watchdog expires, logs, restarts and may reset the device. -/
  | watchdogExpiry
  /-- PWR_WDT_KICK, R435: A write of PWR_WDT_KICK restarts the watchdog. -/
  | pwrWdtKick
  /-- SPI_ERASE, R439: An SPI erase of one 64 KiB sector. -/
  | spiErase
  /-- SPI_PROGRAM, R439: An SPI program of one 256-byte page from PWR_SPI_BUF. -/
  | spiProgram
  /-- SPI_READ, R439: An SPI read of one page into PWR_SPI_BUF. -/
  | spiRead
  /-- SPI_VERIFY_FW, R439: A verify of a firmware slot reports its reason code. -/
  | spiVerifyFw
  /-- SPI_VERIFY_IMAGE, R439: A verify of an image slot runs steps 1 to 5 of the image checks. -/
  | spiVerifyImage
  /-- SPI_OP_DONE, R439: An SPI operation completes and sets its result. -/
  | spiOpDone (err : Bool)
  /-- PTP_LOCK_CHANGE, R101: The block clock's phase error crosses 1 µs, so ETH_PTP_STATUS.locked changes and PTP_LOCKED or PTP_UNLOCKED is queued. -/
  | ptpLockChange
  /-- UNIT_FAILED, R410: A unit of a Bay that has no spare (compositor, classifier, cipher engine, fixed audio unit, forwarding unit or rate conversion engine) fails, and the Bay is treated as lost. -/
  | unitFailed (bay : Nat) (unit : Nat)
  /-- PCIE_LINK_UP, R72: The PCIe link comes back up and DMA to the host resumes. -/
  | pcieLinkUp
  /-- TDM_CLOCK_RESTORED, R196: BCLK returns on a slave TDM port in WAIT_CLK, and the port resumes RUN. -/
  | tdmClockRestored (port : Nat)
  /-- VIDEO_REQ_STOP, R455: A member sends VIDEO_REQ stop for a bridge stream when neither want condition has held for 2,000 blocks. -/
  | videoReqStop (stream : Nat)
  /-- AUD_LEG_METER_READ, R180: A read of AUD_LEG_METER latches AUD_LEG_HOLD from the same block. -/
  | audLegMeterRead (fn : Fn)
  deriving DecidableEq, Repr

end Sys2Proof
end

