-- ==== Sys2Proof/Decode.lean ====
section
/-! DEFINITION. The command that a word spells by the bits of spec/opcode_table.json; and the 32-bit words of the Tumbler's instructions
(spec/08_tumbler_dsp.md R213 to R216): decoding, total on words, and encoding.  An instruction's command names its core beside the
instruction. -/
namespace Sys2Proof

/-- The command of a word of `nbits` bits: none, since the table gives no row any bits. -/
def decodeTableWord (_nbits _w : Nat) : Option Instr := none

/-! ## The four formats (R213) -/

/-- Bits [lo+n-1:lo] of a word. -/
def field (w lo n : Nat) : Nat := w / 2 ^ lo % 2 ^ n

/-- A one-bit field's value. -/
def flag (b : Bool) : Nat := if b then 1 else 0

/-- The ALU format: op [29:24], S [23], dst [22:18], srcA [17:13], srcB [12:8], sh [7:2]. -/
def aluWord (op : Nat) (s : Bool) (d a b sh : Nat) : Nat :=
  op * 2 ^ 24 + flag s * 2 ^ 23 + d * 2 ^ 18 + a * 2 ^ 13 + b * 2 ^ 8 + sh * 2 ^ 2

/-- The immediate format: op [29:25], S [24], dst [23:19], src [18:14], imm [13:0]; MOVHI's immediate takes [15:0]. -/
def immWord (op : Nat) (s : Bool) (d src imm : Nat) : Nat :=
  2 ^ 30 + op * 2 ^ 25 + flag s * 2 ^ 24 + d * 2 ^ 19 + src * 2 ^ 14 + imm

/-- The control format: op [29:24], creg [23:18], reg [17:13], the rest [12:0]. -/
def ctlWord (op creg reg low : Nat) : Nat := 2 ^ 31 + op * 2 ^ 24 + creg * 2 ^ 18 + reg * 2 ^ 13 + low

/-- The MAC format: mop [29:28], acc [27], S [26], srcA [25:21], srcB [20:16], xdst [15:11], xp [10:9], xmod [8], ydst [7:3], yp [2:1],
ymod [0]. -/
def macWord (mop acc : Nat) (s : Bool) (a b xd xp : Nat) (xm : Bool) (yd yp : Nat) (ym : Bool) : Nat :=
  3 * 2 ^ 30 + mop * 2 ^ 28 + acc * 2 ^ 27 + flag s * 2 ^ 26 + a * 2 ^ 21 + b * 2 ^ 16 + xd * 2 ^ 11 + xp * 2 ^ 9 + flag xm * 2 ^ 8
    + yd * 2 ^ 3 + yp * 2 + flag ym

/-- The src field of a load or store: the memory, post-modification, Pn (R214). -/
def memSrc (y post : Bool) (p : Nat) : Nat := flag y * 16 + flag post * 8 + p

/-! ## Decoding (R214)

Each decoder reads the fields of its format and refuses a word whose unused fields are not 0. -/

/-- The ALU format. `core` is the core that issues. -/
def decodeAlu (core w : Nat) : Option Instr :=
  let s := field w 23 1 = 1
  let d := field w 18 5
  let a := field w 13 5
  let b := field w 8 5
  let sh := field w 2 6
  -- what an operation leaves unused: S, dst, srcA, srcB, sh
  let rrr := field w 23 1 = 0 ∧ sh = 0
  let rr := field w 23 1 = 0 ∧ b = 0 ∧ sh = 0
  if field w 0 2 ≠ 0 then none
  else match field w 24 6 with
    | 0x00 => if field w 2 22 = 0 then some (.tmbNop core) else none
    | 0x01 => if sh = 0 then some (.tmbAdd core s d a b) else none
    | 0x02 => if sh = 0 then some (.tmbSub core s d a b) else none
    | 0x03 => if rrr then some (.tmbAnd core d a b) else none
    | 0x04 => if rrr then some (.tmbOr core d a b) else none
    | 0x05 => if rrr then some (.tmbXor core d a b) else none
    | 0x06 => if b = 0 then some (.tmbShl core s d a sh) else none
    | 0x07 => if field w 23 1 = 0 ∧ b = 0 then some (.tmbShr core d a sh) else none
    | 0x08 => if field w 23 1 = 0 ∧ b = 0 then some (.tmbShrl core d a sh) else none
    | 0x09 => if sh = 0 then some (.tmbShlv core s d a b) else none
    | 0x0A => if rrr then some (.tmbShrv core d a b) else none
    | 0x0B => if rrr then some (.tmbMin core d a b) else none
    | 0x0C => if rrr then some (.tmbMax core d a b) else none
    | 0x0D => if b = 0 ∧ sh = 0 then some (.tmbAbs core s d a) else none
    | 0x0E => if b = 0 ∧ sh = 0 then some (.tmbNeg core s d a) else none
    | 0x0F => if sh = 0 then some (.tmbMullo core s d a b) else none
    | 0x10 => if rr then some (.tmbClz core d a) else none
    | 0x11 => if rr then some (.tmbSext16 core d a) else none
    | 0x12 => if rrr then some (.tmbPack core d a b) else none
    | 0x13 => if rrr then some (.tmbCmplt core d a b) else none
    | 0x14 => if rrr then some (.tmbCmpeq core d a b) else none
    | 0x15 => if rrr then some (.tmbCmpltu core d a b) else none
    | 0x16 => if a < 2 ∧ b < 2 ∧ sh < 40 then some (.tmbRda core s d a (b = 1) sh) else none
    | 0x17 => if rr ∧ a < 2 then some (.tmbRdah core d a) else none
    | 0x18 => if d < 2 ∧ b = 0 then some (.tmbWra core s d a sh) else none
    | 0x19 => if d < 2 ∧ b = 0 then some (.tmbAdda core s d a sh) else none
    | 0x1A => if d < 2 ∧ b = 0 then some (.tmbSuba core s d a sh) else none
    | 0x1B => if rr ∧ a = 0 ∧ d < 2 then some (.tmbClra core d) else none
    | 0x1C => if rr then some (.tmbSat24 core d a) else none
    | _ => none

/-- The immediate format. -/
def decodeImm (core w : Nat) : Option Instr :=
  let s := field w 24 1 = 1
  let d := field w 19 5
  let src := field w 14 5
  let imm := field w 0 14
  let y := field w 18 1 = 1
  let post := field w 17 1 = 1
  let p := field w 14 3
  let plain := field w 24 1 = 0
  let one := field w 24 1 = 0 ∧ src = 0
  let none_ := field w 24 1 = 0 ∧ src = 0 ∧ d = 0
  match field w 25 5 with
  | 0x00 => some (.tmbAddi core s d src imm)
  | 0x01 => if plain then some (.tmbAndi core d src imm) else none
  | 0x02 => if plain then some (.tmbOri core d src imm) else none
  | 0x03 => if plain then some (.tmbXori core d src imm) else none
  | 0x04 => if one then some (.tmbMovi core d imm) else none
  | 0x05 => if plain ∧ field w 16 3 = 0 then some (.tmbMovhi core d (field w 0 16)) else none
  | 0x06 => if plain then some (.tmbCmplti core d src imm) else none
  | 0x07 => if plain then some (.tmbCmpeqi core d src imm) else none
  | 0x08 => if plain then some (.tmbLdw core d y post p imm) else none
  | 0x09 => if plain then some (.tmbLdh core d y post p imm) else none
  | 0x0A => if plain then some (.tmbLdhu core d y post p imm) else none
  | 0x0B => if plain then some (.tmbStw core d y post p imm) else none
  | 0x0C => if plain then some (.tmbSth core d y post p imm) else none
  | 0x10 => if one then some (.tmbBeqz core d imm) else none
  | 0x11 => if one then some (.tmbBnez core d imm) else none
  | 0x12 => if one then some (.tmbBltz core d imm) else none
  | 0x13 => if one then some (.tmbBgez core d imm) else none
  | 0x14 => if none_ then some (.tmbBr core imm) else none
  | 0x15 => if none_ then some (.tmbBlc core imm) else none
  | 0x16 => if none_ then some (.tmbCall core imm) else none
  | 0x17 => if none_ ∧ imm = 0 then some (.tmbRet core) else none
  | _ => none

/-- The control registers of R216. -/
def cregOk (n : Nat) : Bool := decide (n ≤ 0x2A) || (decide (0x30 ≤ n) && decide (n ≤ 0x37))

/-- The control format. -/
def decodeCtl (core w : Nat) : Option Instr :=
  let creg := field w 18 6
  let reg := field w 13 5
  match field w 24 6 with
  | 0x00 => if cregOk creg ∧ field w 0 13 = 0 then some (.tmbMtc core creg reg) else none
  | 0x01 => if cregOk creg ∧ field w 0 13 = 0 then some (.tmbMfc core creg reg) else none
  | 0x02 => if field w 3 21 = 0 then some (.tmbXrd core (field w 0 3)) else none
  | 0x03 => if field w 3 21 = 0 then some (.tmbXwr core (field w 0 3)) else none
  | 0x04 => if field w 4 20 = 0 then some (.tmbWaitx core (field w 0 4)) else none
  | 0x05 => if field w 0 24 = 0 then some (.tmbEnd core) else none
  | 0x06 => if field w 0 24 = 0 then some (.tmbReti core) else none
  | 0x07 => if field w 13 11 = 0 then some (.tmbBkpt core (field w 0 13)) else none
  | 0x08 => if field w 13 11 = 0 then some (.tmbFault core (field w 0 13)) else none
  | _ => none

/-- The MAC format. -/
def decodeMac (core w : Nat) : Option Instr :=
  let acc := field w 27 1
  let s := field w 26 1 = 1
  let a := field w 21 5
  let b := field w 16 5
  let xd := field w 11 5
  let xp := field w 9 2
  let xm := field w 8 1 = 1
  let yd := field w 3 5
  let yp := field w 1 2
  let ym := field w 0 1 = 1
  match field w 28 2 with
  | 0 => some (.tmbMac core acc s a b xd xp xm yd yp ym)
  | 1 => some (.tmbMsu core acc s a b xd xp xm yd yp ym)
  | 2 => some (.tmbMpy core acc s a b xd xp xm yd yp ym)
  | _ => if field w 16 12 = 0 then some (.tmbLdp core xd xp xm yd yp ym) else none

/-- The instruction of a 32-bit word, as core `core` issues it: none for a word that faults with ILLEGAL (R214). -/
def tmbDecode (core w : Nat) : Option Instr :=
  match field w 30 2 with
  | 0 => decodeAlu core w
  | 1 => decodeImm core w
  | 2 => decodeCtl core w
  | _ => decodeMac core w

/-- Whether a word is an instruction. -/
def tmbLegal (w : Nat) : Bool := (tmbDecode 0 w).isSome

/-! ## Encoding -/

/-- The word of an instruction's command; none for the other commands. -/
def tmbEncode (i : Instr) : Option Nat :=
  match i with
  | .tmbNop _ => some (aluWord 0x00 false 0 0 0 0)
  | .tmbAdd _ s d a b => some (aluWord 0x01 s d a b 0)
  | .tmbSub _ s d a b => some (aluWord 0x02 s d a b 0)
  | .tmbAnd _ d a b => some (aluWord 0x03 false d a b 0)
  | .tmbOr _ d a b => some (aluWord 0x04 false d a b 0)
  | .tmbXor _ d a b => some (aluWord 0x05 false d a b 0)
  | .tmbShl _ s d a sh => some (aluWord 0x06 s d a 0 sh)
  | .tmbShr _ d a sh => some (aluWord 0x07 false d a 0 sh)
  | .tmbShrl _ d a sh => some (aluWord 0x08 false d a 0 sh)
  | .tmbShlv _ s d a b => some (aluWord 0x09 s d a b 0)
  | .tmbShrv _ d a b => some (aluWord 0x0A false d a b 0)
  | .tmbMin _ d a b => some (aluWord 0x0B false d a b 0)
  | .tmbMax _ d a b => some (aluWord 0x0C false d a b 0)
  | .tmbAbs _ s d a => some (aluWord 0x0D s d a 0 0)
  | .tmbNeg _ s d a => some (aluWord 0x0E s d a 0 0)
  | .tmbMullo _ s d a b => some (aluWord 0x0F s d a b 0)
  | .tmbClz _ d a => some (aluWord 0x10 false d a 0 0)
  | .tmbSext16 _ d a => some (aluWord 0x11 false d a 0 0)
  | .tmbPack _ d a b => some (aluWord 0x12 false d a b 0)
  | .tmbCmplt _ d a b => some (aluWord 0x13 false d a b 0)
  | .tmbCmpeq _ d a b => some (aluWord 0x14 false d a b 0)
  | .tmbCmpltu _ d a b => some (aluWord 0x15 false d a b 0)
  | .tmbRda _ s d acc rnd sh => some (aluWord 0x16 s d acc (flag rnd) sh)
  | .tmbRdah _ d acc => some (aluWord 0x17 false d acc 0 0)
  | .tmbWra _ s acc a sh => some (aluWord 0x18 s acc a 0 sh)
  | .tmbAdda _ s acc a sh => some (aluWord 0x19 s acc a 0 sh)
  | .tmbSuba _ s acc a sh => some (aluWord 0x1A s acc a 0 sh)
  | .tmbClra _ acc => some (aluWord 0x1B false acc 0 0 0)
  | .tmbSat24 _ d a => some (aluWord 0x1C false d a 0 0)
  | .tmbAddi _ s d src imm => some (immWord 0x00 s d src imm)
  | .tmbAndi _ d src imm => some (immWord 0x01 false d src imm)
  | .tmbOri _ d src imm => some (immWord 0x02 false d src imm)
  | .tmbXori _ d src imm => some (immWord 0x03 false d src imm)
  | .tmbMovi _ d imm => some (immWord 0x04 false d 0 imm)
  | .tmbMovhi _ d imm => some (immWord 0x05 false d 0 imm)
  | .tmbCmplti _ d src imm => some (immWord 0x06 false d src imm)
  | .tmbCmpeqi _ d src imm => some (immWord 0x07 false d src imm)
  | .tmbLdw _ d y post p imm => some (immWord 0x08 false d (memSrc y post p) imm)
  | .tmbLdh _ d y post p imm => some (immWord 0x09 false d (memSrc y post p) imm)
  | .tmbLdhu _ d y post p imm => some (immWord 0x0A false d (memSrc y post p) imm)
  | .tmbStw _ d y post p imm => some (immWord 0x0B false d (memSrc y post p) imm)
  | .tmbSth _ d y post p imm => some (immWord 0x0C false d (memSrc y post p) imm)
  | .tmbBeqz _ r imm => some (immWord 0x10 false r 0 imm)
  | .tmbBnez _ r imm => some (immWord 0x11 false r 0 imm)
  | .tmbBltz _ r imm => some (immWord 0x12 false r 0 imm)
  | .tmbBgez _ r imm => some (immWord 0x13 false r 0 imm)
  | .tmbBr _ imm => some (immWord 0x14 false 0 0 imm)
  | .tmbBlc _ imm => some (immWord 0x15 false 0 0 imm)
  | .tmbCall _ imm => some (immWord 0x16 false 0 0 imm)
  | .tmbRet _ => some (immWord 0x17 false 0 0 0)
  | .tmbMtc _ creg reg => some (ctlWord 0x00 creg reg 0)
  | .tmbMfc _ creg reg => some (ctlWord 0x01 creg reg 0)
  | .tmbXrd _ p => some (ctlWord 0x02 0 0 p)
  | .tmbXwr _ p => some (ctlWord 0x03 0 0 p)
  | .tmbWaitx _ n => some (ctlWord 0x04 0 0 n)
  | .tmbEnd _ => some (ctlWord 0x05 0 0 0)
  | .tmbReti _ => some (ctlWord 0x06 0 0 0)
  | .tmbBkpt _ code => some (ctlWord 0x07 0 0 code)
  | .tmbFault _ code => some (ctlWord 0x08 0 0 code)
  | .tmbMac _ acc s a b xd xp xm yd yp ym => some (macWord 0 acc s a b xd xp xm yd yp ym)
  | .tmbMsu _ acc s a b xd xp xm yd yp ym => some (macWord 1 acc s a b xd xp xm yd yp ym)
  | .tmbMpy _ acc s a b xd xp xm yd yp ym => some (macWord 2 acc s a b xd xp xm yd yp ym)
  | .tmbLdp _ xd xp xm yd yp ym => some (macWord 3 0 false 0 0 xd xp xm yd yp ym)
  | _ => none

end Sys2Proof
end

