-- ==== Sys2Proof/Config.lean ====
section
/-! DEFINITION. What the spec leaves open: each is a constant without a body, so that nothing can be proved of its value.
A step applies one to a counter of State (`State.free`) or to the operands the value depends on. -/
namespace Sys2Proof

/-- The FEC that fec_sel 0 selects in 8×25G mode, as LINK_UP reports it (R95 lists three and R97 calls one the mode's default
without naming it; log entry 21). -/
opaque Config.fecDefault25G : Nat

/-- The fields of an egress IPv4 header that the spec gives no value: type of service, and identification with flags and fragment
offset 0 (R355; log entry 22).  The argument is the number of the free value. -/
opaque Config.ipv4Tos : Nat → Nat
opaque Config.ipv4Id : Nat → Nat
/-- Traffic class and flow label of an egress IPv6 header (R355; log entry 22). -/
opaque Config.ipv6Class : Nat → Nat

/-- What R71 does not give of the configuration space: the vendor's identifier, the revision, the pointer to the next extended capability
(log entry 165). -/
opaque Config.pcieVendor : Nat
opaque Config.pcieRevision : Nat
opaque Config.pcieNext : Nat

/-- The Opus and G.722 kernels (R144, R153): sample `i` that decoding a payload gives, from the codec code, the decoder's state and
the payload, and the state it leaves.  The spec names the standards and gives no samples (log entry 25). -/
opaque Config.decSample : Nat → Nat → List Nat → Nat → Int
opaque Config.decNext : Nat → Nat → List Nat → Nat

/-- Concealment (R168): sample `i` of the concealed Opus frame number `run`, from the codec code and the decoder's state; the state the decoder
of any codec is left in (log entry 26). -/
opaque Config.concealSample : Nat → Nat → Nat → Nat → Int
opaque Config.concealNext : Nat → Nat → Nat → Nat

/-- The pitch period, in samples, that G.711 and G.722 concealment finds in the last decoded samples (R168 repeats the last one and does
not say how it is found; log entry 26). -/
opaque Config.pitchPeriod : Nat → List Int → Nat

/-- The Opus and G.722 encoders (R153, R164): the payload of a frame from the encode's setting (codec, rate, flags, complexity), the
encoder's state and the samples; the state it leaves.  An empty payload is a frame that discontinuous transmission does not send
(log entry 25). -/
opaque Config.encPayload : List Nat → Nat → List Int → List Nat
opaque Config.encNext : List Nat → Nat → List Int → Nat

/-- The RTP timestamp at which an egress audio context starts (R164 says that header fields are rewritten and names no value; log
entry 27). -/
opaque Config.audioTs0 : Nat → Nat

/-- What a TDM port drives in a bound transmit slot when it has no frame to send (R196 names none; log entry 29). -/
opaque Config.tdmIdle : Nat → Nat

/-- The first PictureID and TL0PICIDX that a leg's VP8 egress carries (R315 says that they are consecutive and names no start; log
entry 31). -/
opaque Config.vp8Pic0 : Nat → Nat
opaque Config.vp8Tl0 : Nat → Nat

/-- Decoded pictures (R256 names the codec specifications and gives no samples): what a picture is, from the codec, the decoder's state,
the references and the coded bytes; the state it leaves; the motion vector of an 8×8 block (column, row) in eighths of a luma sample, none
where the block is not inter; sample (plane, x, y) of a picture (log entry 32). -/
opaque Config.vidPicture : Nat → Nat → List (List Nat) → List Nat → Nat
opaque Config.vidNext : Nat → Nat → List Nat → Nat
opaque Config.vidMotion : Nat → Nat → List (List Nat) → List Nat → Nat → Nat → Option (Int × Int)

/-- The form of a stored plank (R269 leaves mode 0's coding and the choice of the mode to the device): from the surface's serial key and the
plank's index its mode and sectors, and the bytes of its slot that the rule does not give (log entry 187). -/
opaque Config.plankForm : List Nat → Nat → Nat × Nat
opaque Config.plankByte : List Nat → Nat → Nat
opaque Config.picSample : Nat → Nat → Nat → Nat → Nat

/-- An encoded picture (R285 names the coding tools and gives no bits): byte `i` of its units and what its reconstruction is, from the
encode's settings, regions and vectors, the composed picture's description and the numbers of the references (log entry 33). -/
opaque Config.encByte : List Nat → List Nat → List Nat → Nat → Nat
opaque Config.encRecon : List Nat → List Nat → List Nat → Nat

/-- What the motion search's costs leave open (R287 names them alone): λ at a quantiser, the bits of a vector with its predictor, SATD of a block's
256 differences, the codec's interpolation of a reconstruction at a place in eighths of a sample (log entry 188). -/
opaque Config.encLambda : Nat → Nat → Nat
opaque Config.vectorBits : Nat → Int × Int → Int × Int → Nat
opaque Config.satd : List Int → Nat
opaque Config.interpolate : Nat → Nat → Int → Int → Int

/-- The header extension elements (identifier place in R107's list, bytes) that describe an encoded picture's packet: AV1 dependency
descriptor, H.264 frame marking.  Arguments: codec, temporal layers, key, temporal id, picture number, first and last packet (log entry
33). -/
opaque Config.encMark : List Nat → List Nat

/-- What the fallback's encode takes where R314 names no value: profile, level, temporal layers, key interval, buffer, QP limits, packet
size (log entry 34). -/
opaque Config.fallbackEnc : Nat → Nat

/-- The Bay in service (its place among them) that a rewritten steering bucket is given (R16, R413 name none; log entry 36).  Arguments: the
number of the free value, the bucket. -/
opaque Config.steerTo : Nat → Nat → Nat

/-- The handle that a new work item's search begins at (R235 names none; log entry 41). -/
opaque Config.handleFrom : Nat → Nat

/-- The place of a barrier's status block in the critical-table region (R242 names none; log entry 42). -/
opaque Config.barrierPlace : Nat → Nat

/-- CYC as a debug handler reads it: stall cycles count there, and they depend on timing (R216; log entry 43). -/
opaque Config.cycles : Nat → Nat

/-- Byte `i` of a received frame's destination beyond what a withdrawn burst moved (R398 says that it holds no defined value; log entry
44).  The first argument is the number of the free value. -/
opaque Config.dmaBeyond : Nat → Nat → Nat

/-- Byte `i` of what an aborted or failed SPI erase or program leaves (R430 calls the sector's contents undefined; log entry 45).  The
first argument is the number of the free value. -/
opaque Config.spiLeft : Nat → Nat → Nat

/-- The capacitance, in units of 100 µF, that the capacitor test reports where V10 − V1000 is not above 0 (R427's quotient has no value
there; log entry 46). -/
opaque Config.capOpen : Nat → Nat

/-- By how much a counter of happenings inside the part rises in one block: errors corrected (R209, R243, the counters of tiles,
compositors, links and the Ledger), codewords of a link, bytes between a DRAM channel and the part.  The spec says what they count and not
when it happens (log entry 151).  Arguments: the number of the free value drawn since reset, the block since then, the counter's address. -/
opaque Config.openCount : Nat → Nat → Nat → Nat

/-- Byte of a header record or save bank as the Ledger's read window shows it (R380, R381, R463 give contents and no places; log entry
47).  Arguments: the record's sequence number, the Ledger address. -/
opaque Config.ledgerByte : Nat → Nat → Nat

/-- The bridge streams of a seat on another member (R455 names a bridge stream by its owner's context and gives no message that tells
whose seat it is; log entry 48).  Arguments: member, seat. -/
opaque Config.seatStreams : Nat → Nat → List Nat

/-- The codec and the header extension identifiers of a bridge stream (no message carries them; log entry 48). -/
opaque Config.bridgeCodec : Nat → Nat
opaque Config.bridgeExt : Nat → Nat → Nat

/-- The grade fuse (GLB_ID): 0 ZQ1640-HC, 1 ZQ1640-HX, as the part was ordered (R12). -/
opaque Config.grade : Nat

/-- SMB_ADDR_SEL as the board straps it (R94; log entry 164). -/
opaque Config.smbStrap : Nat

/-- The part's serial number (R93). -/
opaque Config.serial : Nat

/-- The cause code and the severity of the fault-log entry of an SMBus recovery, of which R487 states the class alone (log entry 54). -/
opaque Config.wiringLog : Nat → Nat

/-- The bytes that a descriptor has moved when an abort written to DMA_CH_CTRL meets it, which R399 leaves to the moment (log entry 55). -/
opaque Config.abortDone : Nat → Nat

end Sys2Proof
end

