-- ==== Sys2Proof/Machine/Bits.lean ====
section
/-! DEFINITION. Bit fields, sign extension, byte order, modular stamps and rounding: the arithmetic every chapter shares. -/
namespace Sys2Proof.Machine

/-- Bits [lo+w-1:lo] of `n`. -/
def bits (n lo w : Nat) : Nat := n / 2 ^ lo % 2 ^ w

/-- Bit `i` of `n`. -/
def bit (n i : Nat) : Bool := n / 2 ^ i % 2 = 1

/-- `n` with bits [lo+w-1:lo] replaced by the low `w` bits of `v`. -/
def putBits (n lo w v : Nat) : Nat := n - bits n lo w * 2 ^ lo + v % 2 ^ w * 2 ^ lo

/-- How many of the low 32 bits of `n` are set. -/
def popCount (n : Nat) : Nat := ((List.range 32).filter fun i => bit n i).length

/-- 1 for true. -/
def b2n (b : Bool) : Nat := if b then 1 else 0

/-- `v` placed at bit `lo`. -/
def at_ (v lo : Nat) : Nat := v * 2 ^ lo

/-- The `w`-bit word `n` read as two's complement. -/
def toS (w n : Nat) : Int := if n % 2 ^ w < 2 ^ (w - 1) then (n % 2 ^ w : Nat) else (n % 2 ^ w : Nat) - (2 ^ w : Nat)

/-- `i` wrapped to a `w`-bit word. -/
def ofS (w : Nat) (i : Int) : Nat := (i % (2 ^ w : Nat)).toNat

/-- `i` held to the range of a signed `w`-bit number. -/
def satS (w : Nat) (i : Int) : Int :=
  if i < -(2 ^ (w - 1) : Nat) then -(2 ^ (w - 1) : Nat)
  else if (2 ^ (w - 1) : Nat) - 1 < i then (2 ^ (w - 1) : Nat) - 1 else i

/-- `i` held to [lo, hi]. -/
def clampI (lo hi i : Int) : Int := if i < lo then lo else if hi < i then hi else i

/-- `n` held to [lo, hi]. -/
def clampN (lo hi n : Nat) : Nat := if n < lo then lo else if hi < n then hi else n

/-- ⌊i / 2^k⌋: an arithmetic right shift. -/
def asr (i : Int) (k : Nat) : Int := i.fdiv (2 ^ k : Nat)

/-- ⌊(i + 2^(k-1)) / 2^k⌋, and `i` itself for k = 0: a right shift that rounds half up. -/
def rshr (i : Int) (k : Nat) : Int := if k = 0 then i else (i + (2 ^ (k - 1) : Nat)).fdiv (2 ^ k : Nat)

/-- ⌈a / b⌉. -/
def ceilDiv (a b : Nat) : Nat := (a + b - 1) / b

/-- The value of little-endian bytes. -/
def leNat (l : List Byte) : Nat :=
  match l with
  | [] => 0
  | b :: r => b.toNat + 256 * leNat r

/-- `k` bytes of `n`, least significant first. -/
def leBytes (k n : Nat) : List Byte :=
  match k with
  | 0 => []
  | k + 1 => BitVec.ofNat 8 n :: leBytes k (n / 256)

/-- The value of big-endian bytes. -/
def beNat (l : List Byte) : Nat := l.foldl (fun a b => a * 256 + b.toNat) 0

/-- `k` bytes of `n`, most significant first. -/
def beBytes (k n : Nat) : List Byte := (leBytes k n).reverse

/-- `k` bytes of `l` from offset `o`; bytes past the end read 0. -/
def slice (l : List Byte) (o k : Nat) : List Byte :=
  let p := (l.drop o).take k
  p ++ List.replicate (k - p.length) 0

/-- The little-endian field of `k` bytes of `l` at offset `o`. -/
def le (l : List Byte) (o k : Nat) : Nat := leNat (slice l o k)

/-- Every byte is 0. -/
def allZero (l : List Byte) : Bool := l.all fun b => b = 0

/-- Block stamps are counted modulo 2^48 (spec/00_scope.md R7). -/
def stampMod : Nat := 2 ^ 48

/-- `a + n` blocks (R7). -/
def stampAdd (a n : Nat) : Nat := (a + n) % stampMod

/-- `a - b` in blocks, modulo 2^48 (R7). -/
def stampSub (a b : Nat) : Nat := (a + stampMod - b % stampMod) % stampMod

/-- `a` is later than `b`: less than half the circle ahead of it (R7 gives the modulus; the half is log entry 9). -/
def stampAfter (a b : Nat) : Bool := decide (stampSub a b ≠ 0) && decide (stampSub a b < 2 ^ 47)

/-- `a` is `b` or later. -/
def stampGe (a b : Nat) : Bool := decide (stampSub a b < 2 ^ 47)

/-- The sample stamp of a block stamp and a sample offset (spec/00_scope.md R8). -/
def sampleStamp (stamp offset : Nat) : Nat := stamp * 24 + offset

/-- Floor of the square root by halving, `k` bits of answer. -/
def isqrtAux (k n acc : Nat) : Nat :=
  match k with
  | 0 => acc
  | k + 1 => if (acc + 2 ^ k) * (acc + 2 ^ k) ≤ n then isqrtAux k n (acc + 2 ^ k) else isqrtAux k n acc

/-- ⌊√n⌋ for n < 2^(2k). -/
def isqrt (k n : Nat) : Nat := isqrtAux k n 0

/-- Index of the least element of a list of keys, the first on a tie. -/
def argMin (l : List (Nat × Int)) : Option Nat :=
  (l.foldl (fun b p => match b with
    | none => some p
    | some q => if p.2 < q.2 then some p else some q) none).map (·.1)

/-- Index of the greatest element, the first on a tie. -/
def argMax (l : List (Nat × Int)) : Option Nat := argMin (l.map fun p => (p.1, -p.2))

/-- Insertion by a rank: before the first element that does not rank ahead of it. -/
def insertBy {α : Type} (lt : α → α → Bool) (a : α) (l : List α) : List α :=
  match l with
  | [] => [a]
  | b :: r => if lt a b then a :: b :: r else b :: insertBy lt a r

/-- Insertion sort, stable. -/
def sortBy {α : Type} (lt : α → α → Bool) (l : List α) : List α := l.foldl (fun acc a => insertBy lt a acc) []

/-- Elements in place `i` replaced, the list unchanged where there is no such place. -/
def setAt {α : Type} (l : List α) (i : Nat) (a : α) : List α :=
  match l, i with
  | [], _ => []
  | _ :: r, 0 => a :: r
  | b :: r, i + 1 => b :: setAt r i a

/-- `l` extended with `d` to length `n`. -/
def padTo {α : Type} (d : α) (n : Nat) (l : List α) : List α := l ++ List.replicate (n - l.length) d

end Sys2Proof.Machine
end

