-- ==== Sys2Proof/Machine/Crypto.lean ====
section
/-! DEFINITION. The published algorithms the spec names: AES (FIPS 197), AES key wrap (RFC 3394), AES-GCM (SP 800-38D),
SHA-384 (FIPS 180-4), ECDSA P-384 (FIPS 186-5) and CRC-32C.  Everything is on Nat and byte lists, so that it evaluates. -/
namespace Sys2Proof.Machine

/-! ## AES -/

/-- Multiplication by x in GF(2^8) with AES's polynomial. -/
def gfX (a : Nat) : Nat := if a < 128 then 2 * a else Nat.xor (2 * a) 0x11B

/-- Multiplication in GF(2^8), `k` bits of `b` left. -/
def gfMulAux (k a b acc : Nat) : Nat :=
  match k with
  | 0 => acc
  | k + 1 => gfMulAux k (gfX a) (b / 2) (if b % 2 = 1 then Nat.xor acc a else acc)

def gfMul (a b : Nat) : Nat := gfMulAux 8 a b 0

/-- a^254, the inverse in GF(2^8), 0 for 0. -/
def gfInv (a : Nat) : Nat :=
  let a2 := gfMul a a
  let a4 := gfMul a2 a2
  let a8 := gfMul a4 a4
  let a16 := gfMul a8 a8
  let a32 := gfMul a16 a16
  let a64 := gfMul a32 a32
  let a128 := gfMul a64 a64
  gfMul (gfMul (gfMul a2 a4) (gfMul a8 a16)) (gfMul (gfMul a32 a64) a128)

/-- Rotation left of a byte. -/
def rotl8 (a k : Nat) : Nat := (a * 2 ^ k + a / 2 ^ (8 - k)) % 256

/-- AES's substitution of a byte. -/
def aesSub (a : Nat) : Nat :=
  let i := gfInv a
  Nat.xor 0x63 (Nat.xor i (Nat.xor (rotl8 i 1) (Nat.xor (rotl8 i 2) (Nat.xor (rotl8 i 3) (rotl8 i 4)))))

/-- The inverse substitution. -/
def aesSubInv (a : Nat) : Nat := gfInv (Nat.xor 0x05 (Nat.xor (rotl8 a 1) (Nat.xor (rotl8 a 3) (rotl8 a 6))))

/-- Element-wise exclusive or, as long as the shorter list. -/
def xorL (a b : List Nat) : List Nat := a.zipWith Nat.xor b

/-- Key expansion, words newest first: `i` is the number of the next word, `nk` the key's words. -/
def aesExpand (fuel nk i rcon : Nat) (w : List (List Nat)) : List (List Nat) :=
  match fuel with
  | 0 => w
  | fuel + 1 =>
    let prev := w.headD []
    let old := w.getD (nk - 1) []
    let t := if i % nk = 0 then
        match (prev.map aesSub) with
        | a :: r => xorL (r ++ [a]) [rcon, 0, 0, 0]
        | [] => []
      else if nk > 6 && i % nk = 4 then prev.map aesSub else prev
    aesExpand fuel nk (i + 1) (if i % nk = 0 then gfX rcon else rcon) (xorL old t :: w)

/-- A list cut into groups of `n`, at most `fuel` groups. -/
def groups {α : Type} (fuel n : Nat) (l : List α) : List (List α) :=
  match fuel with
  | 0 => []
  | fuel + 1 => if l.isEmpty then [] else l.take n :: groups fuel n (l.drop n)

/-- The round keys of a 16, 24 or 32-byte key, first round first. -/
def aesRoundKeys (key : List Nat) : List (List Nat) :=
  let nk := key.length / 4
  let w := aesExpand (4 * (nk + 7) - nk) nk nk 1 (groups nk 4 key).reverse
  (groups (nk + 7) 4 w.reverse).map (·.flatten)

/-- Row shift: byte (row r, column c) comes from column c + r. -/
def aesShift (s : List Nat) : List Nat :=
  (List.range 16).map fun i => s.getD ((i + 4 * (i % 4)) % 16) 0

def aesShiftInv (s : List Nat) : List Nat :=
  (List.range 16).map fun i => s.getD ((i + 16 - 4 * (i % 4)) % 16) 0

/-- Column mix with the four coefficients of the first row. -/
def aesMix (m0 m1 m2 m3 : Nat) (s : List Nat) : List Nat :=
  (List.range 16).map fun i =>
    let c := i / 4 * 4
    let g := fun k => s.getD (c + (i % 4 + k) % 4) 0
    Nat.xor (Nat.xor (gfMul m0 (g 0)) (gfMul m1 (g 1))) (Nat.xor (gfMul m2 (g 2)) (gfMul m3 (g 3)))

/-- The rounds after the first key addition. -/
def aesRounds (s : List Nat) (ks : List (List Nat)) : List Nat :=
  match ks with
  | [] => s
  | [k] => xorL (aesShift (s.map aesSub)) k
  | k :: r => aesRounds (xorL (aesMix 2 3 1 1 (aesShift (s.map aesSub))) k) r

/-- The cipher on one 16-byte block. -/
def aesEnc (key blk : List Nat) : List Nat :=
  match aesRoundKeys key with
  | [] => []
  | k :: r => aesRounds (xorL blk k) r

def aesRoundsInv (s : List Nat) (ks : List (List Nat)) : List Nat :=
  match ks with
  | [] => s
  | [k] => xorL (aesShiftInv s |>.map aesSubInv) k
  | k :: r => aesRoundsInv (aesMix 14 11 13 9 (xorL (aesShiftInv s |>.map aesSubInv) k)) r

/-- The inverse cipher on one block. -/
def aesDec (key blk : List Nat) : List Nat :=
  match (aesRoundKeys key).reverse with
  | [] => []
  | k :: r => aesRoundsInv (xorL blk k) r

/-! ## AES key wrap -/

/-- One pass of the unwrap over the registers, `t` counting down. -/
def kwStep (key : List Nat) (n fuel t : Nat) (a : List Nat) (r : List (List Nat)) : List Nat × List (List Nat) :=
  match fuel with
  | 0 => (a, r)
  | fuel + 1 =>
    let i := (t - 1) % n
    let tb := (beBytes 8 t).map (·.toNat)
    let b := aesDec key (xorL a tb ++ r.getD i [])
    kwStep key n fuel (t - 1) (b.take 8) (setAt r i (b.drop 8))

/-- RFC 3394 unwrap: the key, where the integrity value is right. -/
def aesUnwrap (kek wrapped : List Nat) : Option (List Nat) :=
  let n := wrapped.length / 8 - 1
  let g := groups (n + 1) 8 wrapped
  let (a, r) := kwStep kek n (6 * n) (6 * n) (g.headD []) (g.drop 1)
  if a = List.replicate 8 0xA6 then some r.flatten else none

/-! ## AES-GCM -/

/-- Multiplication in GF(2^128) in GCM's bit order, `k` bits of `x` (most significant first) left. -/
def ghMulAux (k x v z : Nat) : Nat :=
  match k with
  | 0 => z
  | k + 1 =>
    ghMulAux k x (if v % 2 = 1 then Nat.xor (v / 2) (0xE1 * 2 ^ 120) else v / 2) (if bit x k then Nat.xor z v else z)

def ghMul (x h : Nat) : Nat := ghMulAux 128 x h 0

/-- The value of big-endian bytes given as Nat. -/
def beVal (l : List Nat) : Nat := l.foldl (fun a b => a * 256 + b) 0

/-- GHASH of data given as bytes, each part padded to whole blocks. -/
def ghash (h : Nat) (acc : Nat) (data : List Nat) : Nat :=
  (groups (data.length / 16 + 1) 16 data).foldl (fun y b => ghMul (Nat.xor y (beVal (padTo 0 16 b))) h) acc

/-- The 32-bit big-endian counter block. -/
def ctrBlock (iv : List Nat) (c : Nat) : List Nat := iv ++ (beBytes 4 c).map (·.toNat)

/-- Counter mode over the groups of a text, counter starting at `c`. -/
def gcmCtr (key iv : List Nat) (c : Nat) (gs : List (List Nat)) : List Nat :=
  match gs with
  | [] => []
  | g :: r => xorL g (aesEnc key (ctrBlock iv c)) ++ gcmCtr key iv (c + 1) r

/-- The GCM tag of a ciphertext with a 96-bit IV. -/
def gcmTag (key iv aad ct : List Nat) : List Nat :=
  let h := beVal (aesEnc key (List.replicate 16 0))
  let y := ghash h (ghash h 0 aad) ct
  let y := ghMul (Nat.xor y (aad.length * 8 * 2 ^ 64 + ct.length * 8)) h
  xorL ((beBytes 16 y).map (·.toNat)) (aesEnc key (ctrBlock iv 1))

/-- The GCM plaintext of a ciphertext. -/
def gcmPlain (key iv ct : List Nat) : List Nat := gcmCtr key iv 2 (groups (ct.length / 16 + 1) 16 ct)

/-! ## SHA-384 -/

def w64 : Nat := 2 ^ 64

/-- Round constants (FIPS 180-4): the first 64 bits of the fractions of the cube roots of the first 80 primes. -/
def shaK : List Nat :=
  [0x428A2F98D728AE22, 0x7137449123EF65CD, 0xB5C0FBCFEC4D3B2F, 0xE9B5DBA58189DBBC, 0x3956C25BF348B538,
   0x59F111F1B605D019, 0x923F82A4AF194F9B, 0xAB1C5ED5DA6D8118, 0xD807AA98A3030242, 0x12835B0145706FBE,
   0x243185BE4EE4B28C, 0x550C7DC3D5FFB4E2, 0x72BE5D74F27B896F, 0x80DEB1FE3B1696B1, 0x9BDC06A725C71235,
   0xC19BF174CF692694, 0xE49B69C19EF14AD2, 0xEFBE4786384F25E3, 0x0FC19DC68B8CD5B5, 0x240CA1CC77AC9C65] ++
  [0x2DE92C6F592B0275, 0x4A7484AA6EA6E483, 0x5CB0A9DCBD41FBD4, 0x76F988DA831153B5, 0x983E5152EE66DFAB,
   0xA831C66D2DB43210, 0xB00327C898FB213F, 0xBF597FC7BEEF0EE4, 0xC6E00BF33DA88FC2, 0xD5A79147930AA725,
   0x06CA6351E003826F, 0x142929670A0E6E70, 0x27B70A8546D22FFC, 0x2E1B21385C26C926, 0x4D2C6DFC5AC42AED,
   0x53380D139D95B3DF, 0x650A73548BAF63DE, 0x766A0ABB3C77B2A8, 0x81C2C92E47EDAEE6, 0x92722C851482353B] ++
  [0xA2BFE8A14CF10364, 0xA81A664BBC423001, 0xC24B8B70D0F89791, 0xC76C51A30654BE30, 0xD192E819D6EF5218,
   0xD69906245565A910, 0xF40E35855771202A, 0x106AA07032BBD1B8, 0x19A4C116B8D2D0C8, 0x1E376C085141AB53,
   0x2748774CDF8EEB99, 0x34B0BCB5E19B48A8, 0x391C0CB3C5C95A63, 0x4ED8AA4AE3418ACB, 0x5B9CCA4F7763E373,
   0x682E6FF3D6B2B8A3, 0x748F82EE5DEFB2FC, 0x78A5636F43172F60, 0x84C87814A1F0AB72, 0x8CC702081A6439EC] ++
  [0x90BEFFFA23631E28, 0xA4506CEBDE82BDE9, 0xBEF9A3F7B2C67915, 0xC67178F2E372532B, 0xCA273ECEEA26619C,
   0xD186B8C721C0C207, 0xEADA7DD6CDE0EB1E, 0xF57D4F7FEE6ED178, 0x06F067AA72176FBA, 0x0A637DC5A2C898A6,
   0x113F9804BEF90DAE, 0x1B710B35131C471B, 0x28DB77F523047D84, 0x32CAAB7B40C72493, 0x3C9EBE0A15C9BEBC,
   0x431D67C49C100D4C, 0x4CC5D4BECB3E42B6, 0x597F299CFC657E2A, 0x5FCB6FAB3AD6FAEC, 0x6C44198C4A475817]

/-- SHA-384's initial value: the fractions of the square roots of the ninth to sixteenth primes. -/
def shaH : List Nat :=
  [0xCBBB9D5DC1059ED8, 0x629A292A367CD507, 0x9159015A3070DD17, 0x152FECD8F70E5939, 0x67332667FFC00B31,
   0x8EB44A8768581511, 0xDB0C2E0D64F98FA7, 0x47B5481DBEFA4FA4]

def rotr64 (a k : Nat) : Nat := a / 2 ^ k + a * 2 ^ (64 - k) % w64

def shaS (a i j k : Nat) : Nat := Nat.xor (rotr64 a i) (Nat.xor (rotr64 a j) (rotr64 a k))

def shaT (a i j k : Nat) : Nat := Nat.xor (rotr64 a i) (Nat.xor (rotr64 a j) (a / 2 ^ k))

/-- The message schedule, newest first. -/
def shaSched (fuel : Nat) (w : List Nat) : List Nat :=
  match fuel with
  | 0 => w
  | fuel + 1 =>
    let g := fun i => w.getD (i - 1) 0
    shaSched fuel (((shaT (g 2) 19 61 6) + g 7 + (shaT (g 15) 1 8 7) + g 16) % w64 :: w)

/-- One round on the eight working words. -/
def shaRound (v : List Nat) (kw : Nat) : List Nat :=
  match v with
  | [a, b, c, d, e, f, g, h] =>
    let ch := Nat.xor (Nat.land e f) (Nat.land (w64 - 1 - e) g)
    let t1 := h + shaS e 14 18 41 + ch + kw
    let maj := Nat.xor (Nat.land a b) (Nat.xor (Nat.land a c) (Nat.land b c))
    [(t1 + shaS a 28 34 39 + maj) % w64, a, b, c, (d + t1) % w64, e, f, g]
  | _ => v

/-- The compression of one 128-byte block. -/
def shaBlock (h : List Nat) (blk : List Byte) : List Nat :=
  let w := (groups 16 8 blk).map beNat
  let ws := (shaSched 64 w.reverse).reverse
  let v := (ws.zipWith (· + ·) shaK).foldl shaRound h
  h.zipWith (fun a b => (a + b) % w64) v

/-- SHA-384 of a byte string (FIPS 180-4). -/
def sha384 (m : List Byte) : List Byte :=
  let z := (240 - m.length % 128 - 1) % 128
  let p := m ++ [0x80#8] ++ List.replicate ((z + 128 - 0) % 128) 0 ++ beBytes 16 (m.length * 8)
  let h := (groups (p.length / 128) 128 p).foldl shaBlock shaH
  ((h.take 6).map (beBytes 8)).flatten

/-! ## ECDSA P-384 -/

def p384 : Nat := 2 ^ 384 - 2 ^ 128 - 2 ^ 96 + 2 ^ 32 - 1
def n384 : Nat :=
  (2 ^ 192 - 1) * 2 ^ 192 + 0xC7634D81F4372DDF581A0DB248B0A77AECEC196ACCC52973
def b384 : Nat := 0xB3312FA7E23EE7E4988E056BE3F82D19181D9C6EFE8141120314088F5013875AC656398D8A2ED19D2A85C8EDD3EC2AEF
def gx384 : Nat := 0xAA87CA22BE8B05378EB1C71EF320AD746E1D3B628BA79B9859F741E082542A385502F25DBF55296C3A545E3872760AB7
def gy384 : Nat := 0x3617DE4A96262C6F5D9E98BF9292DC29F8F41DBD289A147CE9DA3113B5F0B8C00A60B1CE1D7E819D7A431D7C90EA0E5F

/-- a^e mod m, `k` bits of the exponent left. -/
def powModAux (k a e m acc : Nat) : Nat :=
  match k with
  | 0 => acc
  | k + 1 => powModAux k (a * a % m) (e / 2) m (if e % 2 = 1 then acc * a % m else acc)

/-- The inverse modulo a prime below 2^384. -/
def invMod (a m : Nat) : Nat := powModAux 384 a (m - 2) m 1

/-- Addition on the curve; none is the point at infinity. -/
def ecAdd (a b : Option (Nat × Nat)) : Option (Nat × Nat) :=
  match a, b with
  | none, q => q
  | p, none => p
  | some (x1, y1), some (x2, y2) =>
    if x1 = x2 && (y1 + y2) % p384 = 0 then none
    else
      let l := if x1 = x2 then (3 * x1 * x1 + p384 - 3) * invMod (2 * y1) p384 % p384
        else (y2 + p384 - y1) * invMod ((x2 + p384 - x1) % p384) p384 % p384
      let x3 := (l * l + 2 * p384 - x1 - x2) % p384
      some (x3, (l * (x1 + p384 - x3) + p384 - y1) % p384)

/-- k times a point, bit by bit from the least. -/
def ecMulAux (fuel k : Nat) (p acc : Option (Nat × Nat)) : Option (Nat × Nat) :=
  match fuel with
  | 0 => acc
  | fuel + 1 => ecMulAux fuel (k / 2) (ecAdd p p) (if k % 2 = 1 then ecAdd acc p else acc)

/-- ECDSA verification of a SHA-384 digest (as a number) under a public key. -/
def ecdsaVerify (e r s qx qy : Nat) : Bool :=
  if r = 0 || s = 0 || n384 ≤ r || n384 ≤ s || p384 ≤ qx || p384 ≤ qy ||
      qy * qy % p384 != (qx * qx * qx + (p384 - 3) * qx + b384) % p384 then false
  else
    let w := invMod s n384
    let u1 := e * w % n384
    let u2 := r * w % n384
    match ecAdd (ecMulAux 384 u1 (some (gx384, gy384)) none) (ecMulAux 384 u2 (some (qx, qy)) none) with
    | none => false
    | some (x, _) => x % n384 = r

/-! ## CRC-32C -/

/-- Eight steps of the reflected Castagnoli polynomial. -/
def crcBits (k c : Nat) : Nat :=
  match k with
  | 0 => c
  | k + 1 => crcBits k (if c % 2 = 1 then Nat.xor (c / 2) 0x82F63B78 else c / 2)

/-- CRC-32C of bytes from a running value, without the final inversion. -/
def crc32cRun (c : Nat) (l : List Byte) : Nat := l.foldl (fun c b => crcBits 8 (Nat.xor c b.toNat)) c

/-- CRC-32C: initial value all ones, reflected, final inversion. -/
def crc32c (l : List Byte) : Nat := Nat.xor (crc32cRun 0xFFFFFFFF l) 0xFFFFFFFF

end Sys2Proof.Machine
end

