-- ==== Sys2Proof/Machine/EvCodes.lean ====
section
/-! DEFINITION. The event codes of the chapters' event tables (R91) and the severity that R490 gives each.  Two codes take
their severity from their detail (BAY_STATE, HOLDUP_STATE). -/
namespace Sys2Proof.Machine

/-- Event CMD_SQ_HALTED. -/
def EV_CMD_SQ_HALTED : Nat := 0x1
/-- Event CMD_CQ_HALTED. -/
def EV_CMD_CQ_HALTED : Nat := 0x2
/-- Event LOP_STATE. -/
def EV_LOP_STATE : Nat := 0x3
/-- Event COMMAND_ORPHANED. -/
def EV_COMMAND_ORPHANED : Nat := 0x4
/-- Event DETERMINISM_LOST. -/
def EV_DETERMINISM_LOST : Nat := 0x100
/-- Event ISOLATION_BLOCK. -/
def EV_ISOLATION_BLOCK : Nat := 0x101
/-- Event FRAMING_APPLIED. -/
def EV_FRAMING_APPLIED : Nat := 0x200
/-- Event FRAMING_FAILED. -/
def EV_FRAMING_FAILED : Nat := 0x201
/-- Event LINK_UP. -/
def EV_LINK_UP : Nat := 0x300
/-- Event LINK_DOWN. -/
def EV_LINK_DOWN : Nat := 0x301
/-- Event LINK_DEGRADED. -/
def EV_LINK_DEGRADED : Nat := 0x302
/-- Event POLICED. -/
def EV_POLICED : Nat := 0x303
/-- Event JR_OVERFLOW. -/
def EV_JR_OVERFLOW : Nat := 0x304
/-- Event JR_RESIZED. -/
def EV_JR_RESIZED : Nat := 0x305
/-- Event PTP_LOCKED. -/
def EV_PTP_LOCKED : Nat := 0x306
/-- Event PTP_UNLOCKED. -/
def EV_PTP_UNLOCKED : Nat := 0x307
/-- Event REANCHOR. -/
def EV_REANCHOR : Nat := 0x308
/-- Event SSRC_BOUND. -/
def EV_SSRC_BOUND : Nat := 0x309
/-- Event AUTH_FAIL. -/
def EV_AUTH_FAIL : Nat := 0x400
/-- Event KEY_ZEROISED. -/
def EV_KEY_ZEROISED : Nat := 0x401
/-- Event KEY_EXHAUST. -/
def EV_KEY_EXHAUST : Nat := 0x402
/-- Event SCA_REFUSED. -/
def EV_SCA_REFUSED : Nat := 0x403
/-- Event RNG_FAIL. -/
def EV_RNG_FAIL : Nat := 0x404
/-- Event LEVEL_UNTRUSTED. -/
def EV_LEVEL_UNTRUSTED : Nat := 0x500
/-- Event CONCEAL_START. -/
def EV_CONCEAL_START : Nat := 0x501
/-- Event CONCEAL_END. -/
def EV_CONCEAL_END : Nat := 0x502
/-- Event CLIPPING. -/
def EV_CLIPPING : Nat := 0x503
/-- Event TOPN_CHANGE. -/
def EV_TOPN_CHANGE : Nat := 0x504
/-- Event AUDIO_OVERCAP. -/
def EV_AUDIO_OVERCAP : Nat := 0x505
/-- Event TDM_PIN_FAULT. -/
def EV_TDM_PIN_FAULT : Nat := 0x600
/-- Event TDM_PIN_CLEAR. -/
def EV_TDM_PIN_CLEAR : Nat := 0x601
/-- Event TDM_SWAPPED. -/
def EV_TDM_SWAPPED : Nat := 0x602
/-- Event TDM_SLIP. -/
def EV_TDM_SLIP : Nat := 0x603
/-- Event TDM_CLOCK_LOST. -/
def EV_TDM_CLOCK_LOST : Nat := 0x604
/-- Event SRC_STAGE_DONE. -/
def EV_SRC_STAGE_DONE : Nat := 0x605
/-- Event TDM_DUP_TAKEOVER. -/
def EV_TDM_DUP_TAKEOVER : Nat := 0x606
/-- Event KERNEL_FAULT. -/
def EV_KERNEL_FAULT : Nat := 0x700
/-- Event CORE_FAULT. -/
def EV_CORE_FAULT : Nat := 0x701
/-- Event DEBUG_HALT. -/
def EV_DEBUG_HALT : Nat := 0x702
/-- Event DEBUG_REFUSED. -/
def EV_DEBUG_REFUSED : Nat := 0x703
/-- Event ITEM_MISSED. -/
def EV_ITEM_MISSED : Nat := 0x720
/-- Event ITEM_HUNG. -/
def EV_ITEM_HUNG : Nat := 0x721
/-- Event SHADOW_MISMATCH. -/
def EV_SHADOW_MISMATCH : Nat := 0x722
/-- Event QUEUE_ECC. -/
def EV_QUEUE_ECC : Nat := 0x723
/-- Event QUEUE_FULL. -/
def EV_QUEUE_FULL : Nat := 0x724
/-- Event DECODE_ERROR. -/
def EV_DECODE_ERROR : Nat := 0x800
/-- Event MISSING_REF. -/
def EV_MISSING_REF : Nat := 0x801
/-- Event TAINT_CLEAR. -/
def EV_TAINT_CLEAR : Nat := 0x802
/-- Event STREAM_UNSUPPORTED. -/
def EV_STREAM_UNSUPPORTED : Nat := 0x803
/-- Event POOL_STALL. -/
def EV_POOL_STALL : Nat := 0x804
/-- Event TILE_TAKEOVER. -/
def EV_TILE_TAKEOVER : Nat := 0x805
/-- Event FW_APPLIED. -/
def EV_FW_APPLIED : Nat := 0x806
/-- Event PICTURE_MISSED. -/
def EV_PICTURE_MISSED : Nat := 0x807
/-- Event ENC_TAIL_CLAMPED. -/
def EV_ENC_TAIL_CLAMPED : Nat := 0x880
/-- Event ENC_KEY_DEFERRED. -/
def EV_ENC_KEY_DEFERRED : Nat := 0x881
/-- Event ENC_PICTURE_MISSED. -/
def EV_ENC_PICTURE_MISSED : Nat := 0x882
/-- Event ENC_KEY_SENT. -/
def EV_ENC_KEY_SENT : Nat := 0x883
/-- Event FWD_STAGE_DONE. -/
def EV_FWD_STAGE_DONE : Nat := 0x900
/-- Event LAYER_SWITCH. -/
def EV_LAYER_SWITCH : Nat := 0x901
/-- Event FWD_PAUSED. -/
def EV_FWD_PAUSED : Nat := 0x902
/-- Event FWD_FALLBACK_REFUSED. -/
def EV_FWD_FALLBACK_REFUSED : Nat := 0x903
/-- Event RWND_MARK_LOST. -/
def EV_RWND_MARK_LOST : Nat := 0x904
/-- Event SOURCE_CHANGE. -/
def EV_SOURCE_CHANGE : Nat := 0x905
/-- Event SIG_MISMATCH. -/
def EV_SIG_MISMATCH : Nat := 0xa00
/-- Event CANVAS_MISSED. -/
def EV_CANVAS_MISSED : Nat := 0xa01
/-- Event CANVAS_REHOMED. -/
def EV_CANVAS_REHOMED : Nat := 0xa02
/-- Event CANVAS_SUSPENDED. -/
def EV_CANVAS_SUSPENDED : Nat := 0xa03
/-- Event CANVAS_RESUMED. -/
def EV_CANVAS_RESUMED : Nat := 0xa04
/-- Event MARQUEE_APPLIED. -/
def EV_MARQUEE_APPLIED : Nat := 0xa05
/-- Event DP_LINK_UP. -/
def EV_DP_LINK_UP : Nat := 0xa06
/-- Event DP_LINK_DOWN. -/
def EV_DP_LINK_DOWN : Nat := 0xa07
/-- Event EGRESS_DROP. -/
def EV_EGRESS_DROP : Nat := 0xb00
/-- Event HTX_DENIED. -/
def EV_HTX_DENIED : Nat := 0xb01
/-- Event LINK_CARRY. -/
def EV_LINK_CARRY : Nat := 0xb02
/-- Event SCHED_TAKEOVER. -/
def EV_SCHED_TAKEOVER : Nat := 0xb03
/-- Event DDR_UNCORR. -/
def EV_DDR_UNCORR : Nat := 0xc00
/-- Event DDR_DEVICE_SUSPECT. -/
def EV_DDR_DEVICE_SUSPECT : Nat := 0xc01
/-- Event DDR_CHANNEL_LOST. -/
def EV_DDR_CHANNEL_LOST : Nat := 0xc02
/-- Event DDR_MIRROR_DEGRADED. -/
def EV_DDR_MIRROR_DEGRADED : Nat := 0xc03
/-- Event DDR_MIRROR_RESTORED. -/
def EV_DDR_MIRROR_RESTORED : Nat := 0xc04
/-- Event DDR_REMAP_DONE. -/
def EV_DDR_REMAP_DONE : Nat := 0xc05
/-- Event LDG_LOG_WRAP. -/
def EV_LDG_LOG_WRAP : Nat := 0xc06
/-- Event LDG_ECC. -/
def EV_LDG_ECC : Nat := 0xc07
/-- Event LDG_WEAR. -/
def EV_LDG_WEAR : Nat := 0xc08
/-- Event DMA_HALTED. -/
def EV_DMA_HALTED : Nat := 0xd00
/-- Event DMA_TAKEOVER. -/
def EV_DMA_TAKEOVER : Nat := 0xd01
/-- Event BAY_STATE. -/
def EV_BAY_STATE : Nat := 0xe00
/-- Event LEG_REHOMED. -/
def EV_LEG_REHOMED : Nat := 0xe01
/-- Event UNIT_SUSPECT. -/
def EV_UNIT_SUSPECT : Nat := 0xe02
/-- Event UNIT_RETIRED. -/
def EV_UNIT_RETIRED : Nat := 0xe03
/-- Event SPARE_TAKEOVER. -/
def EV_SPARE_TAKEOVER : Nat := 0xe04
/-- Event RECOVERY_DONE. -/
def EV_RECOVERY_DONE : Nat := 0xe05
/-- Event RESERVE_EXPOSED. -/
def EV_RESERVE_EXPOSED : Nat := 0xe06
/-- Event COVERAGE_RESTORED. -/
def EV_COVERAGE_RESTORED : Nat := 0xe07
/-- Event RM_ROLLBACK. -/
def EV_RM_ROLLBACK : Nat := 0xe08
/-- Event RM_SINGLE. -/
def EV_RM_SINGLE : Nat := 0xe09
/-- Event THERMAL_WARN. -/
def EV_THERMAL_WARN : Nat := 0xf00
/-- Event THERMAL_CLEAR. -/
def EV_THERMAL_CLEAR : Nat := 0xf01
/-- Event REFCLK_FAILOVER. -/
def EV_REFCLK_FAILOVER : Nat := 0xf02
/-- Event REFCLK_LOST. -/
def EV_REFCLK_LOST : Nat := 0xf03
/-- Event HOLDUP_STATE. -/
def EV_HOLDUP_STATE : Nat := 0xf04
/-- Event WDT_EXPIRED. -/
def EV_WDT_EXPIRED : Nat := 0xf05
/-- Event BOOT_COMPLETE. -/
def EV_BOOT_COMPLETE : Nat := 0xf06
/-- Event RAIL_WARN. -/
def EV_RAIL_WARN : Nat := 0xf07
/-- Event MEMBER_JOINED. -/
def EV_MEMBER_JOINED : Nat := 0x1000
/-- Event MEMBER_LEFT. -/
def EV_MEMBER_LEFT : Nat := 0x1001
/-- Event MEMBER_LOST. -/
def EV_MEMBER_LOST : Nat := 0x1002
/-- Event CAS_AUTH_FAIL. -/
def EV_CAS_AUTH_FAIL : Nat := 0x1003
/-- Event CAS_CONFIG_MISMATCH. -/
def EV_CAS_CONFIG_MISMATCH : Nat := 0x1004
/-- Event CAS_SEAT_DUP. -/
def EV_CAS_SEAT_DUP : Nat := 0x1005
/-- Event CAS_LATE. -/
def EV_CAS_LATE : Nat := 0x1006
/-- Event TEL_DROPPED. -/
def EV_TEL_DROPPED : Nat := 0x1100
/-- Event TRACE_WRAP. -/
def EV_TRACE_WRAP : Nat := 0x1101
/-- Event CAPTURE_GAP. -/
def EV_CAPTURE_GAP : Nat := 0x1102
/-- Event REPLAY_MISMATCH. -/
def EV_REPLAY_MISMATCH : Nat := 0x1103
/-- Event REPLAY_DIVERGED. -/
def EV_REPLAY_DIVERGED : Nat := 0x1104

/-- Codes of severity 3 (R490). -/
def sev3 : List Nat :=
  [0x404, 0x723, 0xc02, 0xe06, 0xe09, 0xf03, 0x1002]

/-- Codes of severity 2 (R490). -/
def sev2 : List Nat :=
  [0x1, 0x2, 0x100, 0x101, 0x301, 0x302, 0x303, 0x304, 0x307, 0x400, 0x402, 0x501, 0x503, 0x505, 0x600, 0x603] ++
  [0x604, 0x700, 0x701, 0x720, 0x721, 0x722, 0x724, 0x800, 0x801, 0x803, 0x804, 0x807, 0x880, 0x882, 0x902, 0x903] ++
  [0x904, 0xa00, 0xa01, 0xa03, 0xb00, 0xb01, 0xb02, 0xc00, 0xc01, 0xc03, 0xc07, 0xc08, 0xd00, 0xe02, 0xe03, 0xf00] ++
  [0xf02, 0xf05, 0xf07, 0x1003, 0x1004, 0x1005, 0x1006, 0x1100, 0x1102, 0x1103, 0x1104]

/-- Codes of severity 1 (R490). -/
def sev1 : List Nat :=
  [0x4, 0x201, 0x308, 0x401, 0x403, 0x500, 0x602, 0x606, 0x702, 0x703, 0x805, 0x881, 0xa02, 0xa07, 0xb03, 0xc05] ++
  [0xc06, 0xd01, 0xe01, 0xe04, 0xe08, 0x1001, 0x1101]

/-- The severity of an event (R490): BAY_STATE is critical where its new state is LOST (1 in FLT_BAY_STATUS's encoding) and a
notice otherwise; HOLDUP_STATE is info with armed set in its detail and degraded with armed clear. -/
def severity (code detail : Nat) : Nat :=
  if code = EV_BAY_STATE then (if detail / 16 % 8 = 1 then 3 else 1)
  else if code = EV_HOLDUP_STATE then (if detail / 8 % 2 = 1 then 0 else 2)
  else if sev3.contains code then 3 else if sev2.contains code then 2 else if sev1.contains code then 1 else 0

end Sys2Proof.Machine
end

