-- ==== Sys2Proof/Machine/Tbl.lean ====
section
/-! DEFINITION. Sparse tables: a list of key and value pairs with strictly rising keys.  Every indexed group of state
(registers, counters, legs, acts, streams, slots, memories) is one of these. -/
namespace Sys2Proof.Machine

/-- A sparse table, keys strictly rising. -/
abbrev Tbl (α : Type) := List (Nat × α)

/-- The entry of key `k`, where there is one. -/
def tfind {α : Type} (t : Tbl α) (k : Nat) : Option α :=
  match t with
  | [] => none
  | (j, v) :: r => if j = k then some v else tfind r k

/-- The entry of key `k`, or `d`. -/
def tget {α : Type} (d : α) (t : Tbl α) (k : Nat) : α :=
  match t with
  | [] => d
  | (j, v) :: r => if j = k then v else tget d r k

/-- The table with key `k` holding `v`. -/
def tset {α : Type} (t : Tbl α) (k : Nat) (v : α) : Tbl α :=
  match t with
  | [] => [(k, v)]
  | (j, w) :: r => if k < j then (k, v) :: (j, w) :: r else if k = j then (k, v) :: r else (j, w) :: tset r k v

/-- The table without key `k`. -/
def terase {α : Type} (t : Tbl α) (k : Nat) : Tbl α :=
  match t with
  | [] => []
  | (j, w) :: r => if j = k then terase r k else (j, w) :: terase r k

/-- The table with the entry of `k` (or `d`, where there is none) changed by `f`. -/
def tmod {α : Type} (d : α) (t : Tbl α) (k : Nat) (f : α → α) : Tbl α := tset t k (f (tget d t k))

/-- The table with the entry of `k` changed by `f`, or unchanged where there is none. -/
def tupd {α : Type} (t : Tbl α) (k : Nat) (f : α → α) : Tbl α :=
  match tfind t k with
  | none => t
  | some v => tset t k (f v)

/-- The table without the keys from `lo` up to, not including, `hi`. -/
def teraseRange {α : Type} (t : Tbl α) (lo hi : Nat) : Tbl α := t.filter fun p => p.1 < lo || hi ≤ p.1

/-- Every entry changed by `f`. -/
def tmap {α : Type} (t : Tbl α) (f : Nat → α → α) : Tbl α := t.map fun p => (p.1, f p.1 p.2)

/-- The keys of a table, rising. -/
def tkeys {α : Type} (t : Tbl α) : List Nat := t.map (·.1)

/-- The keys whose entry meets `p`, rising. -/
def tkeysWhere {α : Type} (t : Tbl α) (p : Nat → α → Bool) : List Nat := (t.filter fun e => p e.1 e.2).map (·.1)

/-- Keys strictly rising. -/
def tsorted {α : Type} (t : Tbl α) : Bool :=
  match t with
  | [] => true
  | [_] => true
  | (j, _) :: (k, w) :: r => decide (j < k) && tsorted ((k, w) :: r)

end Sys2Proof.Machine
end

