-- ==== Sys2Proof/Machine/HostTypes.lean ====
section
/-! DEFINITION. The pieces of state of the host interface (spec/03_host_commands.md), of the clocks and of the memories. -/
namespace Sys2Proof.Machine

/-- The memories of the part and of the host, each a canonical list of cells (`Memory.wf`, Ops.lean), and what the host side
answers.  `hostFail` are host address ranges [base, end) whose accesses end in a PCIe error, `linkUp` the PCIe link (R72),
`poison` the device lines of 64 bytes that hold a poison code (R373). -/
structure Mem where
  host : List Host.Cell
  dram : List Host.Cell
  ledger : List Host.Cell
  spi : List Host.Cell
  hostFail : List (Nat × Nat)
  linkUp : Bool
  poison : List Nat
  deriving DecidableEq, Repr

/-- The clocks: the block stamp and the sample offset (R7, R8), PTP time at the start of the block in units of 2^-16 ns, the held
nanoseconds of a write of ETH_PTP_NS and the latched seconds of a read of it (R101), and whether the first block has begun (R437). -/
structure Clk where
  stamp : Nat
  offset : Nat
  ptp : Nat
  heldNs : Nat
  latchSec : Nat
  running : Bool
  deriving DecidableEq, Repr

/-- An event as its unit raises it (R90): code, stamp, offset, unit, ring, subject kind and identifier, detail. -/
structure Ev where
  code : Nat
  stamp : Nat
  offset : Nat
  unit : Nat
  ring : Option Nat
  kind : Nat
  subj : Nat
  detail : Nat
  deriving DecidableEq, Repr

/-- An entry of an event queue: the event, its severity (R490), its sequence number (R90) and the offset it was written at (R115). -/
structure EvEntry where
  ev : Ev
  sev : Nat
  seq : Nat
  pos : Nat
  deriving DecidableEq, Repr

/-- An on-chip event queue (R90): entries in push order, the next sequence number, whether the next entry delivered carries
OVERFLOW, the depth in force, a staged depth, the internal write pointer, whether an entry has been written since the queue was made,
and whether a staged depth is due: the pointer has passed offset 0 since it was staged (R115). -/
structure EvQueue where
  items : List EvEntry
  seq : Nat
  ovf : Bool
  depth : Nat
  staged : Option Nat
  wptr : Nat
  used : Bool
  due : Bool
  deriving DecidableEq, Repr

/-- The event queue of R90 before any image sizes it; its sequence numbers begin at 0 (log entry 167). -/
def EvQueue.init : EvQueue := ⟨[], 0, false, 1024, none, 0, false, false⟩

/-- A completion entry (R77), without the phase and the SQ head, which are added when it is written. -/
structure Compl where
  tag : Nat
  opcode : Nat
  status : Nat
  reason : Nat
  late : Bool
  already : Bool
  final : Bool
  lopState : Nat
  lateness : Nat
  effect : Nat
  result : Nat
  deriving DecidableEq, Repr

/-- A completion waiting to be written to its CQ: the entry, the result slot it fills and whether it ends a long operation. -/
structure Posted where
  c : Compl
  slot : Option Nat
  lop : Bool
  deriving DecidableEq, Repr

/-- A claimed result slot (R84): its contents once ready, and the CQ index of its entry. -/
structure Slot where
  ready : Option (List Byte)
  index : Option Nat
  deriving DecidableEq, Repr

/-- A fetched command not yet completed (R79): its opcode, its entry, the table it names as fetched when it was processed (none where that
failed; R170, R288, R330), whether it claimed its result slot, whether it has reached its effect boundary and with which effect stamp and lateness, and whether a function-level reset left it to complete
unseen (R72). -/
structure Flight where
  opcode : Nat
  cmd : Cmd
  data : Option (List Byte)
  slot : Option Nat
  effective : Bool
  effect : Nat
  late : Bool
  lateness : Nat
  orphan : Bool
  deriving DecidableEq, Repr

/-- The states of a long operation (R77, R88). -/
inductive LopSt
  | queued | running | suspending | suspended | cancelling | done | failed | cancelled
  deriving DecidableEq, Repr

/-- A long operation's record (R88): its command, its state, whether it has started, whether its function was reset (R72),
the CQ index of its final completion once written, its final reason. -/
structure Lop where
  fn : Fn
  tag : Nat
  opcode : Nat
  cmd : Cmd
  slot : Option Nat
  st : LopSt
  started : Bool
  orphan : Bool
  index : Option Nat
  reason : Nat
  arrival : Nat
  deriving DecidableEq, Repr

/-- An MSI-X table entry: address, data, vector control; and its pending bit. -/
structure Msix where
  addr : Nat
  data : Nat
  mask : Bool
  pending : Bool
  deriving DecidableEq, Repr

/-- The mailbox (R94): the 16 bytes of MBX_REQ, the response while done, and the SMBus side's response. -/
structure Mbx where
  req : List Byte
  rsp : List Byte
  smb : List Byte
  deriving DecidableEq, Repr

/-- The host interface's state beside its registers. -/
structure Hif where
  flight : List Flight
  lops : Tbl Lop
  lopCount : Nat
  slots : Tbl Slot
  cqWait : Tbl (List Posted)
  evq : Tbl EvQueue
  msix : Tbl Msix
  mbx : Mbx
  latch : Tbl (Nat × Nat)
  stage : Tbl (Nat × Nat)
  readData : Nat
  rate : Tbl Nat
  last : Tbl Compl
  deriving DecidableEq, Repr

/-- A TDM frame on a port's pins (R195, R202), its cycles counted from the frame's start: the cycles in which DX is driven with their levels,
in the order of the cycles, most significant bit of a slot first; of a master the cycle in which FSYNC is active and its level then, and
whether its two clock outputs are exchanged. -/
structure TdmWave where
  dx : List (Nat × Bool)
  pulse : Option (Nat × Bool)
  swapped : Bool
  deriving DecidableEq, Repr

/-- What the part shows to the outside, newest first: MSI-X messages, frames on a wire, pulses, TDM frames, DisplayPort frames (of a canvas: the tick of
the picture shown, none for the border alone; of a pattern, with what the status page shows),
SMBus responses, stop and start of the part. -/
inductive Output
  | msix (fn vector : Nat)
  | frame (link : Nat) (bytes : List Byte)
  | pps (sec : Nat)
  | tdm (port : Nat) (slots : Tbl Nat) (wave : TdmWave)
  | dp (canvas : Nat) (tick : Option Nat)
  | diag (pattern : Nat) (page : List Nat)
  | smbus (bytes : List Byte)
  | capture (fn : Nat) (bytes : List Byte)
  deriving DecidableEq, Repr

end Sys2Proof.Machine
end

