-- ==== Sys2Proof/Machine/AudTypes.lean ====
section
/-! DEFINITION. The state of Calliope and of the rate conversion chain with its TDM ports (spec/06_calliope_audio.md,
07_rate_conversion_tdm.md): parameter banks, selection, per-leg chains, encodes, converters, custom banks, ports. -/
namespace Sys2Proof.Machine

/-- An Act header (R172). -/
structure ActHdr where
  topN : Nat
  hyst : Nat
  hold : Nat
  gate : Nat
  period : Nat
  tol : Nat
  strikes : Nat
  flags : Nat
  deriving DecidableEq, Repr

/-- A leg record (R173). -/
structure LegRec where
  pinned : Bool
  hpf : Nat
  gain : Nat
  gainRamp : Nat
  encFlags : Nat
  encCx : Nat
  peakHold : Nat
  encRate : Nat
  peakDecay : Nat
  deriving DecidableEq, Repr

/-- A parameter bank (R169). -/
structure Bank where
  hdr : ActHdr
  recs : Tbl LegRec
  deriving DecidableEq, Repr

/-- A member of the selected set S, or a leg removed from it that still fades: the leg, the block it joined (`since`), the block its
fade-in began (none: it waits for its first packet), the block its fade-out began (R157). -/
structure Spk where
  leg : Nat
  since : Nat
  fin : Option Nat
  out : Option Nat
  deriving DecidableEq, Repr

/-- A converter (R182): the inputs of its reach, newest first, and the inputs taken and outputs made since its restart. -/
structure Conv where
  hist : List Int
  nIn : Nat
  nOut : Nat
  deriving DecidableEq, Repr

/-- An encode (R164, R165): codec (16 + format for TDM slots of 8 kHz, 32 for those of 48 kHz), settings, the leg it is individual to or
none for a common mix, the anchor block, the encoder's state token, its egress converter, the samples gathered for the frame in
progress, the legs it serves. -/
structure AudEnc where
  codec : Nat
  rate : Nat
  flags : Nat
  cx : Nat
  leg : Option Nat
  anchor : Nat
  state : Nat
  conv : Conv
  buf : List Int
  legs : List Nat
  deriving DecidableEq, Repr

/-- An Act's audio (R156, R169, R171): the two banks, the active one, the generation, the block at which the banks last swapped, S and
the entering legs (leg, entry block), the legs that fade out after
their removal from S, the swap, the filter selection in force (R189: none for the template's preset), the samples
clipped since the last CLIPPING, the encodes, the local partial mix of the last closed block. -/
structure ActAud where
  bankA : Bank
  bankB : Bank
  active : Nat
  gen : Nat
  swapAt : Option Nat
  spk : List Spk
  entering : List (Nat × Nat)
  gone : List Spk
  swapActive : Bool
  swapEntry : Nat
  select : Option Nat
  clipped : Nat
  encs : List AudEnc
  partials : List Int
  deriving DecidableEq, Repr

/-- A ramp of R149 between a signal and zero, or between two signals: the block it begins at, its length in samples, its direction
(true: in from zero). -/
structure Ramp where
  start : Nat
  len : Nat
  up : Bool
  deriving DecidableEq, Repr

/-- A verification window (R159, R160): packets seen, frames compared, mismatches. -/
structure Window where
  pkts : Nat
  compared : Nat
  bad : Nat
  deriving DecidableEq, Repr

/-- A leg's audio chain: filter states and the setting they belong to (R147); the target gain, the gain its ramp began from, the steps
done and the length (R148 to R150); meters (R151, R152); the decoder (state token, whether it starts afresh at its next packet), its
decoded samples by block at the codec's rate, its ingress converter; the expected release block, the last duration, concealed frames
in a run, the samples of the last decoded packet of a codec whose concealment repeats them, whether a normal frame has been decoded, blocks concealed, concealments since the last CONCEAL_START, the blocks whose
samples are concealed (R168); last release, claimed and measured levels, strikes and mark (R155, R160, R161), whether the 3 AU are
charged; the window open; sum of squares and count of the samples of the last blocks of a TDM leg (R155); ramps of start and
release (R176); the cross-ramp with its old Act (R175); the old Act that still serves the egress up to a packet boundary (R176); the
route ramp's charge (Ring, Bay, last block). -/
structure LegAud where
  x1 : Int
  x2 : Int
  y1 : Int
  y2 : Int
  hpf : Nat
  gain : Nat
  gFrom : Nat
  gPos : Nat
  gLen : Nat
  rms : Int
  peak : Int
  held : Int
  count : Nat
  dec : Nat
  fresh : Bool
  slots : Tbl (List Int)
  conv : Conv
  expect : Option Nat
  lastDur : Nat
  concealRun : Nat
  normal : Bool
  concealBlocks : Nat
  conceals : Nat
  conc : List Nat
  lastRel : Option Nat
  claimed : Option Nat
  measured : Option Nat
  strikes : Nat
  untrusted : Bool
  overCap : Bool
  charged : Bool
  window : Option Window
  sums : List (Nat × Nat)
  ramps : List Ramp
  cross : Option (Nat × Ramp)
  hold : Option (Nat × Nat)
  routeCharge : Option (Nat × Nat × Nat)
  hist : List Int
  deriving DecidableEq, Repr

/-- Calliope's state: Acts, legs. -/
structure Aud where
  acts : Tbl ActAud
  legs : Tbl LegAud
  deriving DecidableEq, Repr

/-- A custom bank (R186, R187): its SRC_BANK_CFG word, state (0 EMPTY, 1 LOADING, 2 READY), the rate and delay its tables were
committed with, its coefficients and their count, the last result. -/
structure SrcBank where
  cfg : Nat
  st : Nat
  rate : Nat
  delay : Nat
  coefs : List Int
  count : Nat
  result : Nat
  deriving DecidableEq, Repr

/-- A staged change (R190, R302, R453): its operation, target, argument words, its stamp, the bytes of its staged registers. -/
structure Staged where
  op : Nat
  target : Nat
  args : List Nat
  stamp : Nat
  bytes : List Byte
  deriving DecidableEq, Repr

/-- A slot binding of a leg (R198): port, receive and transmit slots, format, and the block it took effect. -/
structure TdmBind where
  port : Nat
  rx : Nat
  tx : Nat
  format : Nat
  since : Nat
  deriving DecidableEq, Repr

/-- A TDM port (R194 to R203): the frames received in this block and the last one received before them, by slot; the frames to send in
this block and those of the next, each the driven slots with their values; frames of this block counted, frames beyond what a block
takes; drops and repeats since the last TDM_SLIP; whether a parity error waits for the next frame boundary; a DMA request running
(receive, transmit); whether a slave's BCLK runs; whether a complete frame waits for its DMA request, the frames that DMA has brought to the
transmit FIFO (R200); the block in which each faulted pin was last tested (R201). -/
structure TdmPort where
  rx : List (List Nat)
  last : List Nat
  txNow : List (Tbl Nat)
  txNext : List (Tbl Nat)
  frames : Nat
  slips : Nat
  takeover : Bool
  reqRx : Bool
  reqTx : Bool
  clk : Bool
  ready : Bool
  fifo : List (List Nat)
  tested : Tbl Nat
  deriving DecidableEq, Repr

/-- Rate conversion and TDM: banks, changes armed by function, bindings by leg, ports. -/
structure Src where
  banks : Tbl SrcBank
  staged : Tbl Staged
  binds : Tbl TdmBind
  ports : Tbl TdmPort
  deriving DecidableEq, Repr

end Sys2Proof.Machine
end

