-- ==== Sys2Proof/Machine/CtlTypes.lean ====
section
/-! DEFINITION. Acts, legs, stream contexts, key slots and ingress state (spec/03_host_commands.md, 04_packet_ingress.md,
05_cipher_keys.md). -/
namespace Sys2Proof.Machine

/-- A route template entry (R47). -/
structure Template where
  id : Nat
  kind : Nat
  topN : Nat
  ramp : Nat
  preset : Nat
  hpf : Nat
  vcodec : Nat
  maxLayers : Nat
  deriving DecidableEq, Repr

/-- The seven budgets of R32 in their order: AU, decode, encode, composition, ingress, SRTP, work items. -/
abbrev Charge := List Nat

/-- An admitted Act (R87): Ring, the template contents it was admitted with, its size, the Bay it is placed on, its charge. -/
structure Act where
  ring : Nat
  tpl : Template
  maxLegs : Nat
  bay : Nat
  charge : Charge
  deriving DecidableEq, Repr

/-- The states of an admitted leg (R86); a leg without an entry is FREE. -/
inductive LegSt
  | admitted | active | draining
  deriving DecidableEq, Repr

/-- A leg (R85, R86, R108): its state, Ring, Act and declaration, the Bay it is placed on, its charge, the Turnstile levels,
the blocks its ramps began and end, and whether a re-home left it unplaced (R413). -/
structure Leg where
  st : LegSt
  ring : Nat
  act : Nat
  acodec : Nat
  vcodec : Nat
  width : Nat
  height : Nat
  fps : Nat
  role : Nat
  pktRate : Nat
  srtpRate : Nat
  bay : Nat
  charge : Charge
  byteLvl : Nat
  pktLvl : Nat
  started : Nat
  drainEnd : Nat
  unplaced : Bool
  degraded : Bool
  prevByte : Nat
  prevPkt : Nat
  deriving DecidableEq, Repr

/-- An entry of a jitter ring (R111): extended sequence number (counted from 65536: see `SeqState`), RTP timestamp, arrival, release stamp
where it is known, the INCOMPLETE flag, the marker, whether it has been released, the packet as plaintext, the receive timestamp (R98);
the LATE and DUP flags, the payload length, whether an RTX packet brought it (R113).  What sets LATE and DUP, no rule says: log entry 178. -/
structure JrEntry where
  seq : Nat
  ts : Nat
  arrival : Nat
  release : Option Nat
  incomplete : Bool
  marker : Bool
  released : Bool
  packet : List Byte
  sec : Nat
  ns : Nat
  late : Bool
  dup : Bool
  len : Nat
  rtx : Bool
  deriving DecidableEq, Repr

/-- Sequence validation of RFC 3550 A.1 as R111 changes it: the highest number, its cycles, the sequence number that would
confirm a jump, the highest extended number written.  Cycles begin at 65536, so that a packet from before the first wrap has a number
of its own below the first packet's; numbers are shown without it. -/
structure SeqState where
  started : Bool
  maxSeq : Nat
  cycles : Nat
  badSeq : Option Nat
  top : Option Nat
  deriving DecidableEq, Repr

/-- An SRTP index state (R119, R128): the highest index committed, the window of the 128 below it (bit i: highest − i). -/
structure IdxState where
  any : Bool
  high : Nat
  window : Nat
  deriving DecidableEq, Repr

/-- What RFC 3550 keeps of a received stream for its report blocks (R363): whether any packet came, the first extended number,
packets received, the values at the last report, the interarrival jitter in sixteenths, the last transit; the last SR's NTP middle
bits and arrival stamp. -/
structure RxStat where
  any : Bool
  base : Nat
  count : Nat
  expPrior : Nat
  cntPrior : Nat
  jitter : Nat
  transit : Int
  lsr : Nat
  lsrAt : Option Nat
  deriving DecidableEq, Repr

/-- A stream context (R107): the arguments it was admitted with; its keys (R126, R127); its index states; its jitter ring and
its release state (R113). -/
structure Stream where
  leg : Nat
  dir : Nat
  media : Nat
  ssrc : Nat
  known : Bool
  tdm : Bool
  ringLog2 : Nat
  delay : Nat
  rtxOf : Nat
  mid : List Byte
  rid : List Byte
  clock : Nat
  ext : List Nat
  key : Option Nat
  prev : Option (Nat × Nat)
  bound : Bool
  keyFrom : Nat
  roc : Nat
  srtp : IdxState
  srtcp : IdxState
  seq : SeqState
  anchor : Option (Nat × Nat)
  lateRun : Nat
  wantAnchor : Bool
  lastRel : Option Nat
  lastFrameRel : Nat
  jr : Tbl JrEntry
  staged : Option Nat
  due : Bool
  lastTs : Nat
  rx : RxStat
  sinceFail : Nat
  relAt : Nat
  relPrev : Option Nat
  former : Option Nat
  win : IdxState
  deriving DecidableEq, Repr

/-- A frame on its way through ingress (R98, R99): its bytes, arrival stamp and sample offset, receive timestamp, link, the Bay it
is steered to. -/
structure Frame where
  bytes : List Byte
  arrival : Nat
  offset : Nat
  sec : Nat
  ns : Nat
  link : Nat
  bay : Nat
  deriving DecidableEq, Repr

/-- A frame past the Turnstile, waiting for its cipher verdict (R128): the context, the leg, whether it is RTCP, whether it is to
bind its SSRC (R104), the UDP payload, the frame, the engine, whether its engine has answered (R131). -/
structure Held where
  id : Nat
  stream : Nat
  leg : Nat
  rtcp : Bool
  bind : Bool
  payload : List Byte
  frame : Frame
  eng : Nat
  answered : Bool
  deriving DecidableEq, Repr

/-- A key slot (R120): valid, profile, generation, KCV, master key and salt, and the session keys and salts derived. -/
structure KeySlot where
  valid : Bool
  profile : Nat
  gen : Nat
  kcv : Nat
  key : List Nat
  salt : List Nat
  session : List (List Nat)
  deriving DecidableEq, Repr

/-- A request of a function that the key store has not answered (R123, R125): op, slot, profile, and the staged words as they stood at
its go. -/
structure KeyReq where
  op : Nat
  slot : Nat
  profile : Nat
  words : Tbl Nat
  deriving DecidableEq, Repr

/-- The key-load staging of a function (R123): the data words written, and a request in progress. -/
structure KeyStage where
  words : Tbl Nat
  req : Option KeyReq
  res : Nat
  deriving DecidableEq, Repr

/-- The key store: slots, staging, the private registers KR0 and KR1 (R134), a zeroisation waiting for its acknowledge, test
of the staged cascade key. -/
structure Keys where
  slots : Tbl KeySlot
  stage : Tbl KeyStage
  queue : List Fn
  kr0 : Tbl (List Nat)
  kr1 : List Nat
  zreq : Bool
  deriving DecidableEq, Repr

/-- An exception frame that waits for the PCIe link: its function's ring, its reason, its leg, the frame. -/
structure ExcWait where
  fn : Fn
  reason : Nat
  leg : Option Nat
  frame : Frame
  deriving DecidableEq, Repr

/-- Acts, legs and stream contexts, and the ingress state: frames held for their verdict, frames waiting in the replay store,
exception frames charged to the PF's rate in this block, exception frames that wait for the PCIe link (R72), frames policed since the last report by leg, and the charges of R29
by Ring, Bay and budget. -/
structure Ctl where
  acts : Tbl Act
  legs : Tbl Leg
  streams : Tbl Stream
  held : List Held
  nextHeld : Nat
  pfExc : Nat
  excWait : List ExcWait
  policed : Tbl Nat
  used : Tbl Nat
  deriving DecidableEq, Repr

end Sys2Proof.Machine
end

