-- ==== Sys2Proof/Machine/CasTypes.lean ====
section
/-! DEFINITION. The state of the cascade (spec/19_abajor_cascade.md). -/
namespace Sys2Proof.Machine

/-- A level entry (R451): seat, level, whether eligible, whether in S on the sender's view, whether pinned. -/
structure LevEntry where
  seat : Nat
  level : Nat
  elig : Bool
  inS : Bool
  pinned : Bool
  deriving DecidableEq, Repr

/-- A record of an AUDIO message (R451): bridge Act, cfg_digest, device partial, level entries. -/
structure CasRec where
  act : Nat
  digest : Nat
  part : List Int
  levels : List LevEntry
  deriving DecidableEq, Repr

/-- What has arrived of a member's AUDIO stream for one stamp: its records, whether its last message has come. -/
structure CasIn where
  recs : List CasRec
  ended : Bool
  deriving DecidableEq, Repr

/-- A local block of a mapped Act kept until its combine (R452): each own contribution, the legs that have an individual mix, the Act's
own record, the own legs' level entries, whether another member's level entries of the block were lost. -/
structure CasOwn where
  parts : Tbl (List Int)
  ids : List Nat
  own : CasRec
  legs : Tbl LevEntry
  lost : Bool
  deriving DecidableEq, Repr

/-- A join in progress (R449): its operation's function and tag, the expected members, the block it began, the block of the last HELLO,
accepted stamps by member, the start stamp once agreed; membership as it was before. -/
structure CasJoin where
  fn : Fn
  tag : Nat
  mask : Nat
  began : Nat
  hello : Option Nat
  acks : Tbl Nat
  start : Option Nat
  was : Tbl Nat
  deriving DecidableEq, Repr

/-- A received AUDIO stream's and a peer's bookkeeping: streams by stamp, the last stamp whose stream ended, consecutive stamps missed,
messages seen of each type (type × 65,536 + sequence number), late records and failures since their last events, the leave stamp a
LEAVE named, the Acts it sent records for at the last stamp. -/
structure CasPeer where
  ins : Tbl CasIn
  last : Option Nat
  missed : Nat
  seen : List Nat
  late : Nat
  fails : Nat
  leave : Option Nat
  acts : List Nat
  deriving DecidableEq, Repr

/-- The cascade: start stamps of members whose membership is agreed; peers; the join in progress, the leave in progress (function, tag,
stamp); bridge Acts by local Act; seats of legs; own blocks of mapped Acts by Act and stamp; remote sources by leg (seat); sequence
numbers of messages sent by destination and type; frames waiting for their links; bridge streams this member wants, with the block since
which no condition holds; bridge streams others want of it by member; received bridge streams as stream contexts; key words staged. -/
structure Cas where
  members : Tbl Nat
  peers : Tbl CasPeer
  join : Option CasJoin
  leave : Option (Fn × Nat × Nat)
  acts : Tbl Nat
  seats : Tbl Nat
  own : Tbl (Tbl CasOwn)
  remote : Tbl Nat
  seqs : Tbl Nat
  tx : List (Nat × List Byte)
  wants : Tbl (Option Nat)
  wanted : Tbl (List Nat)
  streams : Tbl Stream
  words : Tbl Nat
  deriving DecidableEq, Repr

end Sys2Proof.Machine
end

