-- ==== Sys2Proof/Machine/DdrTypes.lean ====
section
/-! DEFINITION. The state of the DRAM controllers, the Ledger's records and the DMA channels (spec/15_dram_ledger.md, 16_dma.md). -/
namespace Sys2Proof.Machine

/-- A lost channel (R378): which, the free reserve of each survivor in stripes when it was lost, whether its stripes are remapped. -/
structure ChLoss where
  ch : Nat
  reserve : Tbl Nat
  done : Bool
  deriving DecidableEq, Repr

/-- A mirrored region being copied (R378): its place in the plan, the channel that takes the copy, the next granule. -/
structure MirCopy where
  region : Nat
  ch : Nat
  next : Nat
  deriving DecidableEq, Repr

/-- Data of an Act lost with a channel (R379): the Act; kind 0 a jitter-ring entry, 1 a rewind-ring entry, 2 a reference; the stream; the
place; the release stamp of a jitter-ring entry where it is known. -/
structure Owed where
  act : Nat
  kind : Nat
  id : Nat
  key : Nat
  release : Option Nat
  deriving DecidableEq, Repr

/-- The DRAM controllers: populated channels that trained; lost channels, first lost first; lines written since the loss of a channel
that their stripes lay on; channels that hold a whole copy of a mirrored region, by its place in the plan; copies under way; rows with
corrected errors by device, with the block of the last; lines with uncorrectable errors by channel, with the block; consecutive alerts of
one command by channel; declarations of loss that are due (channel, cause); the scrubber's next line by channel; lost data not yet
rewritten or released. -/
structure Ddr where
  pop : List Nat
  losses : List ChLoss
  fresh : List Nat
  mirrors : Tbl (List Nat)
  copies : List MirCopy
  rows : Tbl (Tbl Nat)
  lines : Tbl (Tbl Nat)
  alerts : Tbl Nat
  due : List (Nat × Nat)
  scrub : Tbl Nat
  owed : List Owed
  deriving DecidableEq, Repr

/-- A header record of the Ledger (R380): sequence number, whether its CRC holds, boot count, image identity and its two fields, last
generation of each scope, stamp floor, last stop, counters of saves and unsaved sags, writes of its words. -/
structure LdgHdr where
  seq : Nat
  ok : Bool
  boots : Nat
  ident : List Byte
  version : Nat
  build : Nat
  gens : Tbl Nat
  floor : Option Nat
  lastStop : Nat
  saves : Nat
  unsaved : Nat
  tripped : Nat
  writes : Nat
  deriving DecidableEq, Repr

/-- A save bank of the Ledger (R381, R429): sequence number, whether its CRC holds, stamp, last generation of each scope, last stop,
firmware and image slot, whether it holds the tables (a sag before RUN saves only the first part), Leg and Act table headers as the
admitted objects' identifiers, the saved counters, writes of its words. -/
structure LdgSave where
  seq : Nat
  ok : Bool
  stamp : Nat
  gens : Tbl Nat
  lastStop : Nat
  fwSlot : Nat
  imgSlot : Nat
  full : Bool
  legs : List Nat
  acts : List Nat
  cnt : Tbl Nat
  writes : Nat
  deriving DecidableEq, Repr

/-- The Ledger's records: header records A and B, save banks A and B; words of the fault log and of the retired-unit table that are
uncorrectable, by Ledger address. -/
structure Ldg where
  hdrA : LdgHdr
  hdrB : LdgHdr
  bankA : LdgSave
  bankB : LdgSave
  bad : List Nat
  deriving DecidableEq, Repr

/-- A descriptor in progress (R389): ctrl, length, src, dst, cookie; withdrawals so far; bytes that a transmit has consumed. -/
structure DmaDesc where
  ctrl : Nat
  length : Nat
  src : Nat
  dst : Nat
  cookie : Nat
  withdrawals : Nat
  consumed : Nat
  deriving DecidableEq, Repr

/-- The DMA engine: the descriptor in progress by channel; the channels whose stop waits for the end of their descriptor; the active
instance (R400). -/
structure Dma where
  cur : Tbl DmaDesc
  stopping : List Nat
  active : Nat
  deriving DecidableEq, Repr

end Sys2Proof.Machine
end

