-- ==== Sys2Proof/Machine/EgrTypes.lean ====
section
/-! DEFINITION. The state of egress shaping and scheduling and of the rewind rings (spec/14_egress_scheduling.md, R318 to R322). -/
namespace Sys2Proof.Machine

/-- A leg's shaper settings (R355 op 0). -/
structure Shaper where
  queue : Nat
  maxWait : Nat
  rate : Nat
  burst : Nat
  quantum : Nat
  wmax : Nat
  rtcp : Nat
  flags : Nat
  deriving DecidableEq, Repr

/-- A leg's egress path (R355 op 1). -/
structure Path where
  link : Nat
  loc : Nat
  flags : Nat
  tci : Nat
  port : Nat
  addr : List Byte
  mac : List Byte
  deriving DecidableEq, Repr

/-- A frame on its way out.  `cls` is its class (R358: 0 RTCP and host frames, 1 audio, 2 video, 3 RTX), `stream` the egress context
that protects it, `body` the RTP payload or the RTCP compound, `ext` the RTP header extension with its four-byte header, `made` the
block it is produced for, `wire` its bytes from the destination MAC once built and `rtp` the unprotected packet; a host frame has the
address of its slot and whether a timestamp is asked for; `tw` is its transport-wide sequence number; `sr` and `rr` count the
reports a compound holds. -/
structure EgrItem where
  cls : Nat
  stream : Option Nat
  ts : Nat
  marker : Bool
  ext : List Nat
  body : List Nat
  made : Nat
  wire : Option (List Byte)
  rtp : List Nat
  link : Nat
  slot : Option (Nat × Bool)
  tw : Option Nat
  sr : Nat
  rr : Nat
  deriving DecidableEq, Repr

/-- A frame sent (R309, R310): its block, class, RTP bytes and transport-wide sequence number. -/
structure SentRec where
  block : Nat
  cls : Nat
  bytes : Nat
  tw : Option Nat
  deriving DecidableEq, Repr

/-- A leg's egress state: settings, path, CNAME, bucket level (R357), the window's credit and its value at the window's start,
whether it has sent in this window, DC (R359), waiting frames in order of arrival, drops since the last EGRESS_DROP, the last block of
an RTCP report, the frames sent in the last 400 blocks, the next transport-wide number. -/
structure EgrLeg where
  sh : Shaper
  path : Option Path
  cname : List Byte
  lv : Int
  credit : Nat
  c0 : Nat
  sent : Bool
  dc : Nat
  q : List EgrItem
  drops : Nat
  rtcpAt : Option Nat
  log : List SentRec
  twNext : Nat
  deriving DecidableEq, Repr

/-- An egress context's sending state (R315, R363): payload type, packets numbered so far, SRTCP index, packets and octets sent, the
timestamp and block of the last packet, whether a packet has been sent since the last SR, the SRs sent (middle bits of their NTP time,
transmit block), whether KEY_EXHAUST was queued for SRTP and for SRTCP. -/
structure EgrStr where
  pt : Nat
  count : Nat
  rtcpIdx : Nat
  pkts : Nat
  octets : Nat
  lastTs : Nat
  lastB : Nat
  sinceSr : Bool
  srs : List (Nat × Nat)
  warned : Bool
  warnedRtcp : Bool
  deriving DecidableEq, Repr

/-- An entry of a rewind ring (R318). -/
structure RwEntry where
  seq : Nat
  block : Nat
  packet : List Nat
  count : Nat
  last : Option Nat
  deriving DecidableEq, Repr

/-- A rewind ring (R318 to R322): length, staged length, whether the write pointer has passed offset 0 since, the newest number, the
entries by index, the marks, the RWND_MARK_LOST bit. -/
structure Rewind where
  log2 : Nat
  staged : Option Nat
  due : Bool
  top : Option Nat
  ents : Tbl RwEntry
  marks : Tbl Nat
  lost : Bool
  deriving DecidableEq, Repr

/-- A rewind export under way (R321): the next number and the last, bytes used, records written, the first number. -/
structure Exp where
  next : Nat
  last : Nat
  used : Nat
  count : Nat
  first : Nat
  deriving DecidableEq, Repr

/-- A PF host frame without a leg (R364): link, bytes, slot address, whether a timestamp is asked for. -/
structure PfFrame where
  link : Nat
  bytes : List Byte
  slot : Nat
  stamp : Bool
  deriving DecidableEq, Repr

/-- Egress: legs, contexts, rewind rings, round positions by link and queue, PF frames waiting and their number by link in this block,
carried frames by link since the last LINK_CARRY, links whose scheduler is to change over (R365) and whose standby is active, rewind
exports by operation. -/
structure Egr where
  legs : Tbl EgrLeg
  strs : Tbl EgrStr
  rings : Tbl Rewind
  pos : Tbl Nat
  pf : List PfFrame
  pfCount : Tbl Nat
  carried : Tbl Nat
  standby : Tbl Bool
  exps : Tbl Exp
  deriving DecidableEq, Repr

end Sys2Proof.Machine
end

