-- ==== Sys2Proof/Machine/Fld.lean ====
section
/-! DEFINITION. Register addresses and the shape of a register field.  An address is a byte offset in PF BAR0; the BAR0 of
VF r is laid above it (`vfBase`), so that every function's copy of a register has a home of its own. -/
namespace Sys2Proof.Machine

/-- Where VF r's BAR0 stands among the model's register addresses (spec/03_host_commands.md R74; the placing is the model's). -/
def vfBase (r : Nat) : Nat := (r + 1) * 2 ^ 32

/-- A function's number: 0 for the PF, r + 1 for Ring r (the "function" of R492). -/
def fnNum (fn : Fn) : Nat :=
  match fn with
  | .pf => 0
  | .vf r => r + 1

/-- The base of a block that the PF holds at `p` and a VF at `v`. -/
def fnBase (fn : Fn) (p v : Nat) : Nat :=
  match fn with
  | .pf => p
  | .vf r => vfBase r + v

/-- Command block (R73, R74). -/
def cmdBase (fn : Fn) : Nat := fnBase fn 0x10000 0x0
/-- Event queue block q; a VF has one (R74, R94). -/
def evqBase (fn : Fn) (q : Nat) : Nat :=
  match fn with
  | .pf => 0x30000 + 0x40 * q
  | .vf r => vfBase r + 0x1800
/-- Exception ring registers (R117). -/
def excBase (fn : Fn) : Nat := fnBase fn 0x140208 0x3100
/-- Key-load registers (R123, R143). -/
def keyBase (fn : Fn) : Nat := fnBase fn 0x80000 0x3200
/-- Calliope query registers (R180). -/
def audBase (fn : Fn) : Nat := fnBase fn 0x200000 0x3400
/-- Rate conversion staging registers (R204). -/
def srcBase (fn : Fn) : Nat := fnBase fn 0x240000 0x3500
/-- Decode session query registers (R279). -/
def sessBase (fn : Fn) : Nat := fnBase fn 0x501000 0x3610
/-- Encode session query registers (R299). -/
def encBase (fn : Fn) : Nat := fnBase fn 0x501040 0x3640
/-- Forwarder registers (R325). -/
def fwdBase (fn : Fn) : Nat := fnBase fn 0x620000 0x3700
/-- Canvas query registers (R354). -/
def cmpBase (fn : Fn) : Nat := fnBase fn 0x648000 0x3800
/-- Host transmit ring registers (R367). -/
def htxBase (fn : Fn) : Nat := fnBase fn 0x181010 0x3900
/-- Egress leg query registers (R367). -/
def egrBase (fn : Fn) : Nat := fnBase fn 0x182000 0x3940
/-- Per-function observability block (R473). -/
def obsBase (fn : Fn) : Nat := fnBase fn 0x840200 0x3B00
/-- Object counter space (R461). -/
def cselBase (fn : Fn) : Nat := fnBase fn 0x850000 0x10000
/-- Block of a Tumbler core, numbered as R22 numbers cores (R233). -/
def coreBase (core : Nat) : Nat := 0x301000 + 0x10000 * (core / 17) + 0x100 * (core % 17)
/-- Where a function's PCIe configuration space stands among the places that a register access names (the placing is the model's). -/
def cfgAddr : Nat := 2 ^ 40
/-- MBX_CTRL stands in PCIe configuration space (R94). -/
def mbxAddr : Nat := cfgAddr + 0x808

/-- One register field: the address of its register, its lowest bit, its width, its reset value. -/
structure Fld where
  addr : Nat
  lo : Nat
  w : Nat
  rst : Nat
  deriving DecidableEq, Repr

/-- The key of a field in the register table. -/
def fkey (f : Fld) : Nat := f.addr * 64 + f.lo

/-- Field types of R10 that the register tables use. -/
inductive FTy
  | ro | rw | wo | w1c | w1s
  deriving DecidableEq, Repr

/-- A field in a register's descriptor: its place, type, reset value, and the range of values it takes (R491). -/
structure FDesc where
  lo : Nat
  w : Nat
  ty : FTy
  rst : Nat
  min : Nat
  max : Nat
  deriving DecidableEq, Repr

/-- A register: its name, its PF offset, its VF offset where each VF has a copy, two strides and counts, whether it is 64
bits wide, its fields. -/
structure RegDesc where
  name : String
  base : Nat
  vf : Option Nat
  s1 : Nat
  c1 : Nat
  s2 : Nat
  c2 : Nat
  wide : Bool
  fields : List FDesc
  deriving DecidableEq, Repr

end Sys2Proof.Machine
end

