-- ==== Sys2Proof/Machine/FltTypes.lean ====
section
/-! DEFINITION. The state of the Safety Net (spec/17_safety_net.md). -/
namespace Sys2Proof.Machine

/-- A move of planned work off a Bay under test (R418): what (0 leg, 1 decode session, 2 encode, 3 canvas, 4 steering bucket), which one,
where it went. -/
structure Drained where
  kind : Nat
  id : Nat
  bay : Nat
  deriving DecidableEq, Repr

/-- The self-test that is live (R410, R417): Bay, segment mask (0 every segment), function and tag of its operation, whether the Bay was
quarantined before; whether its drain is over; whether its Bay is restored and only its end is left; segments passed and failed; the next segment; the block its Bay began to drain. -/
structure SelfTest where
  bay : Nat
  mask : Nat
  fn : Fn
  tag : Nat
  fromQ : Bool
  drained : Bool
  restored : Bool
  passed : Nat
  failed : Nat
  next : Nat
  since : Nat
  deriving DecidableEq, Repr

/-- The Safety Net: the boot count, units retired in order, the block of each unit's last suspect report, recoveries in progress (log
index, block), the drained-work list, the live self-test, lockstep rollbacks at one point and in this block, cores of the Ringmaster that
failed their self-test. -/
structure Flt where
  boots : Nat
  retired : List Nat
  suspects : Tbl Nat
  recov : List (Nat × Nat)
  drained : List Drained
  test : Option SelfTest
  rolls : Nat
  rollsBlock : Nat
  rmFailed : List Nat
  deriving DecidableEq, Repr

end Sys2Proof.Machine
end

