-- ==== Sys2Proof/Machine/FrmTypes.lean ====
section
/-! DEFINITION. The pieces of state of the framing image (spec/02_framing_image.md): the timbers in force, those kept for a
rollback, framing operations, one-time-programmable keys. -/
namespace Sys2Proof.Machine

/-- A timber in force (R38, R39): type, scope (0 device, 1 Ring), ring, instance, plain body. -/
structure Timber where
  type : Nat
  scope : Nat
  ring : Nat
  inst : Nat
  body : List Byte
  deriving DecidableEq, Repr

/-- The phases of a framing operation (R65). -/
inductive FrmPhase
  | fetch | sign | pass1 | pass2 | check | armed
  deriving DecidableEq, Repr

/-- A framing operation: 0 load, 1 delta, 2 rollback; its scope (16 the device); where the image lies; its phase; the image as
far as it is fetched; what it needs of staging (R61); the next timber of a pass; plain bodies by timber
index; activation stamp, base generation; once armed, the boundary it is ordered by and its place among the armed (R61). -/
structure FrmOp where
  kind : Nat
  scope : Nat
  addr : Nat
  length : Nat
  space : Nat
  phase : FrmPhase
  img : List Byte
  need : Nat
  next : Nat
  plain : Tbl (List Byte)
  act : Nat
  base : Nat
  due : Nat
  seq : Nat
  deriving DecidableEq, Repr

/-- The framing state: timbers in force; per scope (16 the device) the timbers before its last delta; operations by the key of
their long operation; steering buckets the Ringmaster rewrote (R16); image-key hashes and the image-wrap key in one-time
storage (R51, R52); structures that an activation replaced, each with its boundary, the oldest first, for the items of stamps before it
(R62, R232). -/
structure Frm where
  timbers : List Timber
  prev : Tbl (List Timber)
  ops : Tbl FrmOp
  steer : Tbl Nat
  keyHash : Tbl (List Byte)
  wrapKey : List Nat
  past : List (Nat × List Timber)
  deriving DecidableEq, Repr

end Sys2Proof.Machine
end

