-- ==== Sys2Proof/Machine/FwdTypes.lean ====
section
/-! DEFINITION. The state of the forwarder and the Line Adapter (spec/12_layer_forwarding.md). -/
namespace Sys2Proof.Machine

/-- An AV1 dependency template: layer, decode target indications (0 not present, 1 discardable, 2 switch, 3 required), frame
differences. -/
structure Av1Tpl where
  sid : Nat
  tid : Nat
  dtis : List Nat
  fdiffs : List Nat
  deriving DecidableEq, Repr

/-- An AV1 template dependency structure: identifier offset, decode targets, templates, chains, its bits as received, the size of each spatial
layer where it gives sizes. -/
structure Av1Struct where
  offset : Nat
  dts : Nat
  tpls : List Av1Tpl
  chains : Nat
  bits : List Bool
  sizes : List (Nat × Nat)
  deriving DecidableEq, Repr

/-- A frame of a source stream (R305): index in the track, its unit (RTP timestamp), picture or frame number, layer, whether it is a key
picture, a spatial or temporal up-switch, depended on by none; lost, broken, of unknown layer; the decode targets it switches to; the
frames it depends on. -/
structure FrRec where
  idx : Nat
  ts : Nat
  num : Nat
  sid : Nat
  tid : Nat
  key : Bool
  upS : Bool
  upT : Bool
  disc : Bool
  lost : Bool
  broken : Bool
  any : Bool
  sw : List Nat
  deps : List Nat
  deriving DecidableEq, Repr

/-- A released frame's place in the measured rates (R310). -/
structure RateRec where
  block : Nat
  sid : Nat
  tid : Nat
  bytes : Nat
  deriving DecidableEq, Repr

/-- A source stream's forwarding state: frames, newest first; the next index; the AV1 structure in force; whether the last sequence
parameter set allows gaps in frame_num; rates; the block of the last PLI (R273); the last number released; requests for missing numbers
(count, block) (R316). -/
structure Track where
  frames : List FrRec
  next : Nat
  av1 : Option Av1Struct
  gaps : Bool
  rates : List RateRec
  pliAt : Option Nat
  lastSeq : Option Nat
  miss : Tbl (Nat × Nat)
  deriving DecidableEq, Repr

/-- A subscription (R302). -/
structure Sub where
  source : Nat
  maxS : Nat
  maxT : Nat
  transcode : Bool
  canvas : Nat
  deriving DecidableEq, Repr

/-- A pending choice (R312): source leg, layers, the block it became pending. -/
structure Pend where
  src : Nat
  s : Nat
  t : Nat
  since : Nat
  deriving DecidableEq, Repr

/-- The current choice: ingress context forwarded, layers. -/
structure Cur where
  ctx : Nat
  s : Nat
  t : Nat
  deriving DecidableEq, Repr

/-- Feedback of a leg waiting for its Line Adapter run (R308): fraction lost with the round trip it gives, missing numbers of an egress context, caps
in kb/s, a transport-wide report (sequence number and receive time in 250 µs of each packet received). -/
inductive Feedback
  | loss (l : Nat) (rtt : Option Nat)
  | nack (id : Nat) (qs : List Nat)
  | tmmbr (kbps : Nat)
  | remb (kbps : Nat)
  | twcc (got : List (Nat × Int))
  deriving DecidableEq, Repr

/-- The rewriting state of a receiving leg (R315): timestamp offset, last timestamp and its release block, VP8 picture and TL0PICIDX
counters, the offset and last value of each number that keeps its differences (picture or frame number, TL0PICIDX, KEYIDX), the
context they belong to, whether the next frame is the first after a switch. -/
structure Rewrite where
  off : Nat
  lastOut : Option (Nat × Nat)
  pic8 : Nat
  tl8 : Nat
  picOff : Nat
  picLast : Nat
  tlOff : Nat
  tlLast : Nat
  keyOff : Nat
  keyLast : Nat
  ctx : Option Nat
  switched : Bool
  deriving DecidableEq, Repr

/-- The transcode fallback of a leg (R314): not open, open with the block it opened and whether the egress has changed to it, or refused
at a block. -/
inductive Fallback
  | none
  | openAt (b : Nat) (active : Bool)
  | refused (b : Nat)
  deriving DecidableEq, Repr

/-- A receiving leg's forwarding state: subscription, leg cap, TMMBR, REMB with the block it ends; A, G and the run's counters (R309);
Rr; packets reported received (send block, bytes); feedback waiting with its arrival; NACK loss (block, numbers); last receiver report;
rtt; the source in use, the current and pending choice; the run of a computed choice (R312); the last computed choice; frames forwarded
(context, index); rewriting; RTX credit and the NACKs waiting (arrival, context, number); last accepted key request (R317); paused blocks since the last event;
fallback and how long a forwardable layer has been the choice; last FIR of the leg as a source and the FIR sequence number. -/
structure FwdLeg where
  sub : Option Sub
  cap : Nat
  tmmbr : Option Nat
  remb : Option (Nat × Nat)
  a : Nat
  g : Int
  overrun : Nat
  under : Bool
  hold : Nat
  rr : Nat
  recvd : List (Nat × Nat)
  fb : List (Nat × Feedback)
  nacked : List (Nat × Nat)
  rrAt : Option Nat
  rtt : Option Nat
  src : Option Nat
  cur : Option Cur
  pend : Option Pend
  run : Option (Nat × Nat × Nat)
  comp : Option (Nat × Nat)
  sent : List (Nat × Nat)
  rw : Rewrite
  credit : Nat
  nacks : List (Nat × Nat × Nat)
  reqAt : Option Nat
  paused : Nat
  fall : Fallback
  fallRun : Nat
  firAt : Option Nat
  firSeq : Nat
  broken : Bool
  deriving DecidableEq, Repr

/-- The forwarder: source streams, receiving legs. -/
structure FwdState where
  tracks : Tbl Track
  legs : Tbl FwdLeg
  deriving DecidableEq, Repr

end Sys2Proof.Machine
end

