-- ==== Sys2Proof/Machine/ObsTypes.lean ====
section
/-! DEFINITION. The state of observation (spec/20_observability.md): captures, replays, telemetry streams. -/
namespace Sys2Proof.Machine

/-- A capture (R470) of a function: the tag of its operation, the Act, what it records (bit 0 ingress, bit 1 egress), the host buffer and
its log2 size, its first block and the first it leaves out; whether it records now, whether its HEADER is written, the first block a
suspend has missed; the records of the current block. -/
structure Cap where
  tag : Nat
  act : Nat
  what : Nat
  addr : Nat
  log2 : Nat
  start : Nat
  stop : Nat
  on : Bool
  begun : Bool
  gap : Option Nat
  buf : List Byte
  count : Nat
  deriving DecidableEq, Repr

/-- A record of a capture as a replay reads it. -/
structure CapRec where
  kind : Nat
  id : Nat
  stamp : Nat
  offset : Nat
  sec : Nat
  ns : Nat
  link : Nat
  body : List Byte
  deriving DecidableEq, Repr

/-- A replay (R471) of a function: the tag of its operation, the Act, the capture's place and length; whether it has started, Δ, the
records not yet used; whether comparison has stopped, payloads compared, mismatches. -/
structure Rep where
  tag : Nat
  act : Nat
  addr : Nat
  length : Nat
  started : Bool
  delta : Nat
  recs : List CapRec
  stopped : Bool
  compared : Nat
  bad : Nat
  deriving DecidableEq, Repr

/-- A telemetry stream (R465, R466) of a function: its settings, the sequence number of the next snapshot, snapshots dropped since the
last one written and since the last event; the snapshot being written (its block). -/
structure Tel where
  addr : Nat
  size : Nat
  slots : Nat
  mask : Nat
  period : Nat
  phase : Nat
  seq : Nat
  dropped : Nat
  unreported : Nat
  deriving DecidableEq, Repr

/-- Observation: captures, replays and telemetry streams by function. -/
structure Obs where
  caps : Tbl Cap
  reps : Tbl Rep
  tels : Tbl Tel
  deriving DecidableEq, Repr

end Sys2Proof.Machine
end

