-- ==== Sys2Proof/Machine/PwrTypes.lean ====
section
/-! DEFINITION. The state of the keeper: power, hold-up, clocks, reset, boot, SPI NOR (spec/18_power_clocks_boot.md). -/
namespace Sys2Proof.Machine

/-- The keeper's state: the cause of the last stop in last_stop's code, none where the Ledger's header says it; the save that a stop in
progress will write, none where it saves nothing; whether SYS_RST_N has pulsed since the stop;
whether every sensor is below warn − hyst; the core of the Ringmaster that booted alone; whether ROM_FAIL holds a fault-log entry; the
block of the last periodic capacitor test; whether a revert waits for its boundary; watchdog expiries since the last kick, the timeout in
force; the SPI operation in progress (operation, address); the milliseconds from PWR_GOOD to the ports' start; the image slot in effect; SMB_ADDR_SEL as KEEP_RST_N's rise sampled it. -/
structure Pwr where
  stop : Option Nat
  save : Option LdgSave
  pulsed : Bool
  cool : Bool
  single : Option Nat
  held : Bool
  tested : Option Nat
  revert : Bool
  kicks : Nat
  wdt : Nat
  spi : Option (Nat × Nat)
  ms : Nat
  imgSlot : Nat
  strap : Nat
  deriving DecidableEq, Repr

end Sys2Proof.Machine
end

