-- ==== Sys2Proof/Machine/TmbTypes.lean ====
section
/-! DEFINITION. The pieces of state of the Tumbler cores and of the Carousel (spec/08_tumbler_dsp.md, 09_carousel.md). -/
namespace Sys2Proof.Machine

/-- A register write in flight (R217): the issue slot from which an instruction sees it, where it goes (0 to 31 a physical G register, 32
and 33 an accumulator as readers outside the MAC format see it, 34 the register mapping of R206, 64 + n control register n), its value. -/
structure PendW where
  due : Nat
  tgt : Nat
  val : Nat
  deriving DecidableEq, Repr

/-- An outstanding transfer (R221, R222): the item it belongs to; whether it reads (XRD), and then whether it is a copy of the image's
initial data (R207), whose bytes it holds; the address of its instruction; Y or X memory, local address, length; the Truss address; the
bytes that an XWR took from its source. -/
structure Xfer where
  handle : Nat
  read : Bool
  init : Bool
  pc : Nat
  ymem : Bool
  laddr : Nat
  len : Nat
  truss : Nat
  data : List Byte
  deriving DecidableEq, Repr

/-- A core (R205): physical registers G0 to G31; the accumulators as the MAC format sees them (`a0`, `a1`) and as other readers do (`r0`,
`r1`); control registers by their number of R216; the mapping of R206; X and Y memory by word, a word not listed having its written flag
clear; the kernels' code in program memory, the latest dispatched first (R231); the program counter, and in a delay slot where the
program goes on; writes in flight; issue slots of the item; transfers; the item it runs and the one in its prefetch slot; a step or halt
wanted, and a breakpoint to be passed (R228). -/
structure Core where
  g : Tbl Word32
  a0 : Acc40
  a1 : Acc40
  r0 : Acc40
  r1 : Acc40
  cr : Tbl Nat
  rb : Nat
  x : Tbl Word32
  y : Tbl Word32
  code : List (List Byte)
  pc : Nat
  slot : Option Nat
  pend : List PendW
  issued : Nat
  xfers : List Xfer
  item : Option Nat
  pre : Option Nat
  step : Bool
  halt : Bool
  skip : Bool
  deriving DecidableEq, Repr

/-- The states of a work item (R236); `ended` is a RUNNING item whose END has issued and whose writes are not all committed (R224). -/
inductive ItemSt
  | held
  | queued (cl : Nat)
  | prefetched (core : Nat)
  | running (core : Nat)
  | ended (core : Nat)
  | compare (core : Nat)
  deriving DecidableEq, Repr

/-- A work item (R234 to R249): its descriptor; RERUN; whether it is selected for shadow re-execution; the item it is a copy of, if any,
whether it is the third run that decides between the two before it (R248), and whether it is a debug copy and of which core; its state and the core that ran it before; the binding in force for its stamp (clusters,
max_cycles, priority, kernel image); the bytes its transfers wrote; whether it ended, and with which status. -/
structure Item where
  d : ItemDesc
  rerun : Bool
  sel : Bool
  copyOf : Option Nat
  third : Bool
  dbg : Option Nat
  st : ItemSt
  ran : Option Nat
  cluster : Option Nat
  clusters : Nat
  maxCycles : Nat
  prio : Nat
  image : List Byte
  writes : List (Nat × List Byte)
  status : Nat
  deriving DecidableEq, Repr

/-- Whether an item has ended. -/
def Item.ended (i : Item) : Bool :=
  match i.st with
  | .ended _ => true
  | .compare _ => true
  | _ => false

/-- A barrier (R242): expected, counted and missed totals, the missing ordinals, closed, determinism lost. -/
structure Barrier where
  expected : Nat
  counted : Nat
  missed : Nat
  missing : List Nat
  closed : Bool
  det : Bool
  deriving DecidableEq, Repr

/-- An entry of a ready queue: the handle, its priority and the offset it was written at (R115). -/
structure RqEntry where
  h : Nat
  prio : Nat
  pos : Nat
  deriving DecidableEq, Repr

/-- A cluster's ready queue (R243 to R247): entries in push order, the spill register, spills since the last QUEUE_FULL, capacity,
staged capacity, write pointer, whether an entry has been written, whether the staged capacity is due (R115), whether a pop has been made
in the cycle of the push to come (R244). -/
structure RQueue where
  q : List RqEntry
  spill : List (Nat × Nat)
  spills : Nat
  cap : Nat
  staged : Option Nat
  wptr : Nat
  used : Bool
  due : Bool
  popped : Bool
  deriving DecidableEq, Repr

/-- An item that found no free handle (R235): its descriptor; for a copy, the item it is to copy, whether it is the third run (R248), and
for a debug copy the core. -/
structure HandleWait where
  d : ItemDesc
  copyOf : Option Nat
  third : Bool
  dbg : Option Nat
  deriving DecidableEq, Repr

/-- The Tumbler and the Carousel: cores by global number; items by handle; items that wait for a handle; barriers; ready queues; the
shadow counter and the greatest number of handles in this block by Bay; cores under the test of R406; by queue, the corrected words
counted when CRSL_QECC_STATUS.corr was last cleared. -/
structure Crsl where
  cores : Tbl Core
  items : Tbl Item
  waits : List HandleWait
  barriers : Tbl Barrier
  queues : Tbl RQueue
  shadow : Tbl Nat
  peak : Tbl Nat
  testing : List Nat
  corrAt : Tbl Nat
  deriving DecidableEq, Repr

end Sys2Proof.Machine
end

