-- ==== Sys2Proof/Machine/VidTypes.lean ====
section
/-! DEFINITION. The state of decoding, encoding and composition (spec/10_codec_tiles_decode.md, 11_encode_rate_control.md,
13_big_top_composition.md). -/
namespace Sys2Proof.Machine

/-- What a picture's samples are: mid-grey; those that `Config.picSample` gives for a number; those of `rest` but for one 16×16 unit, copied
from `src`, a picture of `sw` by `sh`, at a distance of whole luma samples (R271). -/
inductive Content
  | grey
  | coded (n : Nat)
  | patch (ux uy : Nat) (mx my : Int) (sw sh : Nat) (src rest : Content)
  deriving DecidableEq, Repr

/-- A picture as a reference: its size and its samples. -/
structure Shot where
  width : Nat
  height : Nat
  content : Content
  deriving DecidableEq, Repr

/-- A decoded picture: the fields of its Plank header (R268), what its samples are; the frame number that its dependency descriptor gave and the
order hint of an AV1 picture. -/
structure Pic where
  width : Nat
  height : Nat
  depth : Nat
  colour : Nat
  stream : Nat
  sid : Nat
  tid : Nat
  flags : Nat
  ts : Nat
  release : Nat
  serial : Nat
  vis : List Nat
  content : Content
  no : Option Nat
  hint : Nat
  deriving DecidableEq, Repr

/-- A released picture waiting for its engine: release stamp, RTP timestamp, layer where the stream describes it, whether it is
incomplete, its payload bytes; the VP8 picture ID (and whether it has 15 bits) or AV1 frame number that it carries, the frame numbers that its
dependency descriptor names; of one that starts again after a fault the block in which it first started, and whether it has met a missing
reference. -/
structure Wait where
  release : Nat
  ts : Nat
  sid : Nat
  tid : Nat
  incomplete : Bool
  data : List Nat
  no : Option Nat
  wide : Bool
  deps : List Nat
  began : Option Nat
  noted : Bool
  deriving DecidableEq, Repr

/-- A picture on its engine: what it was, what its bits say, its sequence's parameters, its buffer, its references with substitutes, whether
a reference was substituted, tainted or concealed, whether one was substituted, the block in which it started. -/
structure Work where
  w : Wait
  p : PicSyn
  seq : SeqSyn
  buf : Nat
  refs : List Shot
  taint : Bool
  miss : Bool
  start : Nat
  deriving DecidableEq, Repr

/-- A picture put out (R259, R266): its release stamp, the release stamp of the picture whose decoding put it out, its buffer, its place in
output order. -/
structure OutPic where
  release : Nat
  at_ : Nat
  buf : Nat
  serial : Nat
  deriving DecidableEq, Repr

/-- The parameter set store (R258): sequence parameters by SPS number (AV1, VP8: 0), PPSs (SPS number, use of an unsupported tool). -/
structure ParamSets where
  seqs : Tbl SeqSyn
  ppss : Tbl (Nat × Bool)
  deriving DecidableEq, Repr

/-- A session's 4 KiB context (R274): state and last unsupported reason; parameter sets; operating point and the one wanted, the key picture met
last (release stamp, RTP timestamp); reference slots, H.264 pictures waiting for output, pictures put out, serials, the decoder's own state;
the VP8 picture ID seen last, whether one was missed since the last key picture; the most recent correctly decoded picture of each layer; the
PLI timer; the rate counter. -/
structure Ckpt where
  st : Nat
  reason : Nat
  ps : ParamSets
  sid : Nat
  tid : Nat
  want : Nat × Nat
  keyAt : Option (Nat × Nat)
  slots : Tbl (Option Nat)
  bump : List (Nat × Nat × Nat)
  outs : List OutPic
  serial : Nat
  outSerial : Nat
  dec : Nat
  lastNo : Option Nat
  gap : Bool
  good : Tbl Shot
  pli : Option Nat
  acc : List (Nat × Nat)
  deriving DecidableEq, Repr

/-- A decode session (R260): state (1 NO_PS, 2 RUN, 3 TAINTED, 4 UNSUPPORTED); Ring, tile, charge in pixel/s and the Bay charged; codec,
declared dimensions and rate; window d; pool settings; buffers with what they hold and where they lie; the session area; consumers
(canvases); operating point; pictures waiting; the picture on the engine; reference slots (none: a missing reference); H.264 pictures
waiting for output (order count, buffer, release); pictures put out; holds (buffer, last block); the most recent correctly decoded picture
of each layer; accepted pictures (layer, release); serials; last unsupported reason; concealed units and stalls since their last events; the
decoder's own state between pictures, as the number `Config.vidNext` gives; release stamp and flags of the OUT picture of the last closed
block; the parameter set store; the operating point wanted and the last key picture met; the last VP8 picture ID, whether one was missed;
buffers that could not be read, let go after the current picture; release stamps of pictures whose place the picture before them keeps; the
checkpoint. -/
structure Sess where
  st : Nat
  ring : Nat
  bay : Nat
  tile : Nat
  px : Nat
  codec : Nat
  maxW : Nat
  maxH : Nat
  fps : Nat
  d : Nat
  dpb : Nat
  hold : Nat
  bufs : List (Option Pic)
  bases : List Nat
  area : Nat
  users : List Nat
  sid : Nat
  tid : Nat
  queue : List Wait
  work : Option Work
  slots : Tbl (Option Nat)
  bump : List (Nat × Nat × Nat)
  outs : List OutPic
  holds : List (Nat × Nat)
  good : Tbl Shot
  acc : List (Nat × Nat)
  serial : Nat
  outSerial : Nat
  reason : Nat
  units : Nat
  stalls : Nat
  dec : Nat
  lastOut : Option (Nat × Nat)
  ps : ParamSets
  want : Nat × Nat
  keyAt : Option (Nat × Nat)
  lastNo : Option Nat
  gap : Bool
  lost : List Nat
  froze : List Nat
  ckpt : Ckpt
  deriving DecidableEq, Repr

/-- An allocated extent of a Ring's region kind (R264): place, size, the block after which it is free where its owner has let it go. -/
structure Ext where
  ring : Nat
  kind : Nat
  base : Nat
  size : Nat
  until_ : Option Nat
  deriving DecidableEq, Repr

/-- A layer entry of a layout (R331). -/
structure Layer where
  kind : Nat
  visible : Bool
  galpha : Nat
  curve : Nat
  stream : Nat
  crop : List Nat
  dx : Int
  dy : Int
  dw : Nat
  dh : Nat
  gfx : Nat
  gw : Nat
  gh : Nat
  fill : List Nat
  deriving DecidableEq, Repr

/-- A signature region (R331): rectangle, expected CRC, enable, learn. -/
structure SigRegion where
  x : Nat
  y : Nat
  w : Nat
  h : Nat
  crc : Nat
  enable : Bool
  learn : Bool
  deriving DecidableEq, Repr

/-- A layout: layers, regions, curve sets of three channels of 33 points, the whole table's bytes. -/
structure Layout where
  layers : List Layer
  regions : List SigRegion
  curves : List (List (List Nat))
  table : List Byte
  deriving DecidableEq, Repr

/-- A Marquee asset in force on a canvas (R50): place, size, RGBA bytes. -/
structure Asset where
  id : Nat
  visible : Bool
  x : Nat
  y : Nat
  w : Nat
  h : Nat
  mask : List Byte
  rgba : List Byte
  deriving DecidableEq, Repr

/-- A picture being composed or composed (R335, R348): its tick, number, size, colour and background; its layout with the picture each
stream layer reads; the Marquee asset; whether a layer degrades it, whether a layer shows its fill; what stands in for it (0 itself, 1 the
last-good surface, 2 the safe surface); which of the canvas's surfaces holds it; the generation of its layout. -/
structure CPic where
  tick : Nat
  k : Nat
  width : Nat
  height : Nat
  colour : Nat
  bg : List Nat
  layout : Layout
  pics : List (Option Pic)
  asset : Option Asset
  degraded : Bool
  fill : Bool
  sub : Nat
  surf : Nat
  gen : Nat
  deriving DecidableEq, Repr

/-- A canvas (R326): Ring, size, rate, colour, fallback policy, dp_allowed, background, layout area; the block of its tick 0 and the
number of its next tick; the compositor that serves it, whether it is suspended; the leg it is the fallback of; layout and its generation,
where its surfaces and layout areas lie; the pictures being composed, pictures composed and not yet used up; last-good and safe pictures;
learnt values, by layout generation × 16 + region, and last CRCs; last mismatch; which layout area is idle; whether the last tick due was missed; whether it has been
released and is kept for its last pictures (R329). -/
structure Canvas where
  ring : Nat
  width : Nat
  height : Nat
  fps : Nat
  colour : Nat
  policy : Nat
  dp : Bool
  bg : List Nat
  area64 : Nat
  start : Nat
  k : Nat
  comp : Nat
  suspended : Bool
  fallback : Option Nat
  gen : Nat
  layout : Layout
  bases : List Nat
  ready : List CPic
  done : List CPic
  good : Option CPic
  safe : Option CPic
  learnt : Tbl Nat
  crcs : List Nat
  sigFail : Bool
  areaB : Bool
  stale : Bool
  ends : Bool
  deriving DecidableEq, Repr

/-- The arguments of an encode (R280). -/
structure EncCfg where
  codec : Nat
  profile : Nat
  depth : Nat
  cbr : Bool
  adapt : Bool
  level : Nat
  tlayers : Nat
  keyInt : Nat
  maxRate : Nat
  target : Nat
  buffer : Nat
  minQp : Nat
  maxQp : Nat
  pktMax : Nat
  deriving DecidableEq, Repr

/-- An entry of an encode's ROI table (R288). -/
structure Roi where
  x : Nat
  y : Nat
  w : Nat
  h : Nat
  delta : Int
  valid : Bool
  deriving DecidableEq, Repr

/-- The last picture of an encode (VCT_ENC_LAST). -/
structure EncLast where
  bits : Nat
  key : Bool
  switch : Bool
  clamped : Bool
  repeated : Bool
  filler : Bool
  tid : Nat
  rows : Nat
  qp : Nat
  deriving DecidableEq, Repr

/-- A picture of an encode: its tick, whether it is on the engine, whether it has been started, what was chosen for it at its start: kind (0
inter, 1 key, 2 switch), temporal id, target, room; the requests it serves and the last requested picture before it. -/
structure EncPic where
  tick : Nat
  on : Bool
  begun : Bool
  kind : Nat
  tid : Nat
  target : Int
  room : Nat
  served : List (Nat × Bool)
  was : Option Nat
  deriving DecidableEq, Repr

/-- An encode session (R280 to R297): Ring, the Bay charged, tile, charge in pixel/s; settings in force and those waiting (the block they
apply from, whether the ROI table changes with them); ROI tables; E_before; pictures so far, pictures since the last key picture;
requests waiting (block, key), the tick of the last requested picture, whether a key picture is deferred and how many in a row; pictures
waiting; extents; the block it stops at; the Line Adapter's rate and the block it was made; last picture; clamped pictures since the last
event; the reconstructions that later pictures may refer to, as numbers: the newest of each temporal id, newest first, and of the last key
picture; the vectors of the last picture's 16×16 blocks; the block the session opened. -/
structure Enc where
  ring : Nat
  bay : Nat
  tile : Nat
  px : Nat
  cfg : EncCfg
  next : List (Nat × EncCfg × Option (List Roi))
  roi : List Roi
  e : Nat
  count : Nat
  since : Nat
  reqs : List (Nat × Bool)
  lastReq : Option Nat
  deferred : Nat
  pics : List EncPic
  bases : List Nat
  stop : Option Nat
  adaptRate : List (Nat × Nat)
  last : EncLast
  sent : Bool
  clamps : Nat
  refs : List (Nat × Nat)
  gold : Nat
  motion : List (Int × Int)
  start : Nat
  deriving DecidableEq, Repr

/-- What a tile's engines worked on last, for context switches: stream, encode. -/
structure TileRun where
  dec : Option Nat
  enc : Option Nat
  deriving DecidableEq, Repr

/-- The DisplayPort link: lanes and rate tried, the best both ends have, the block it failed, DP_CTRL as it takes effect at the next
frame, what is shown (canvas, tick, surface), the pictures the canvas had composed then. -/
structure Dp where
  lanes : Nat
  rate : Nat
  maxLanes : Nat
  maxRate : Nat
  failed : Nat
  mode : Nat
  canvas : Nat
  timing : Nat
  hz50 : Bool
  pattern : Nat
  shown : Option (Nat × Nat × Nat)
  seen : Nat
  deriving DecidableEq, Repr

/-- A tile firmware swap (R277), by the key of its long operation: phase (0 FETCH, 1 VERIFY, 2 LOAD, 3 ARMED), the package fetched, its
version, the next tile to load. -/
structure FwOp where
  phase : Nat
  img : List Byte
  version : Nat
  next : Nat
  deriving DecidableEq, Repr

/-- The video units: decode sessions by stream context, encodes, canvases, pool extents, tiles, DisplayPort, firmware swaps. -/
structure Vid where
  sess : Tbl Sess
  encs : Tbl Enc
  canvas : Tbl Canvas
  exts : List Ext
  tiles : Tbl TileRun
  dp : Dp
  fw : Tbl FwOp
  deriving DecidableEq, Repr

end Sys2Proof.Machine
end

