-- ==== Sys2Proof/Machine/State.lean ====
section
/-! DEFINITION. The state of the part: its clocks, memories, registers, counters, the host interface and the state of each
unit, what it has shown to the outside, the free-value counter and the queue of waiting commands; and the state after reset. -/
namespace Sys2Proof.Machine

/-- What the query registers show (R180, R325, R354, R367): the units' state at the last closed block boundary; and the number of the free
value that open counters count by, with the boundaries they have counted (log entry 151). -/
structure Shown where
  ctl : Ctl
  aud : Aud
  egr : Egr
  fwd : FwdState
  vid : Vid
  draw : Nat
  blocks : Nat
  deriving DecidableEq, Repr

/-- The state.  Registers and counters are sparse tables: a register field that is not listed reads its reset value, a
counter that is not listed reads 0.  `cntSh` holds the counters as the host sees them (R460), `shown` the units'
state as the query registers show it. -/
structure State where
  clk : Clk
  mem : Mem
  regs : Tbl Nat
  cnt : Tbl Nat
  cntSh : Tbl Nat
  hif : Hif
  frm : Frm
  ctl : Ctl
  key : Keys
  aud : Aud
  egr : Egr
  src : Src
  fwd : FwdState
  vid : Vid
  flt : Flt
  obs : Obs
  crsl : Crsl
  ddr : Ddr
  ldg : Ldg
  dma : Dma
  pwr : Pwr
  cas : Cas
  shown : Shown
  out : List Output
  free : Nat
  pending : List Instr
  deriving DecidableEq, Repr

/-- Reasons a step can stop with a fault. No meaning of this model faults: the spec gives every command an effect. -/
inductive Fault
  /-- Raised by no meaning: the constructor is there because the type may not be empty for the host's reports. Safe. -/
  | never
  deriving DecidableEq, Repr

/-- Reasons a step can refuse. -/
inductive Refusal
  /-- The command of this mnemonic has no meaning yet. Raised by arms of exec not yet written. Safe. -/
  | notModelled (mnemonic : String)
  deriving DecidableEq, Repr

/-- A header record and a save bank that nothing has written: their CRC does not hold. -/
def LdgHdr.none : LdgHdr := ⟨0, false, 0, [], 0, 0, [], Option.none, 0, 0, 0, 0, 0⟩
def LdgSave.none : LdgSave := ⟨0, false, 0, [], 0, 0, 0, false, [], [], [], 0⟩

/-- The state right after power is applied and reset released: every register at its table's reset value, memories empty. -/
def State.reset : State where
  clk := ⟨0, 0, 0, 0, 0, false⟩
  mem := ⟨[], [], [], [], [], true, []⟩
  regs := []
  cnt := []
  cntSh := []
  hif := ⟨[], [], 0, [], [], [], [], ⟨List.replicate 16 0, [], []⟩, [], [], 0, [], []⟩
  frm := ⟨[], [], [], [], [], [], []⟩
  ctl := ⟨[], [], [], [], 0, 0, [], [], []⟩
  key := ⟨[], [], [], [], [], false⟩
  aud := ⟨[], []⟩
  egr := ⟨[], [], [], [], [], [], [], [], []⟩
  src := ⟨[], [], [], []⟩
  fwd := ⟨[], []⟩
  vid := ⟨[], [], [], [], [], ⟨0, 0, 0, 0, 0, 1, 0, 1, false, 3, none, 0⟩, []⟩
  flt := ⟨0, [], [], [], [], none, 0, 0, []⟩
  obs := ⟨[], [], []⟩
  crsl := ⟨[], [], [], [], [], [], [], [], []⟩
  ddr := ⟨[], [], [], [], [], [], [], [], [], [], []⟩
  ldg := ⟨LdgHdr.none, LdgHdr.none, LdgSave.none, LdgSave.none, []⟩
  dma := ⟨[], [], 0⟩
  pwr := ⟨none, none, false, true, none, false, none, false, 0, 1000, none, 0, 0, 0⟩
  cas := ⟨[], [], none, none, [], [], [], [], [], [], [], [], [], []⟩
  shown := ⟨⟨[], [], [], [], 0, 0, [], [], []⟩, ⟨[], []⟩, ⟨[], [], [], [], [], [], [], [], []⟩, ⟨[], []⟩,
    ⟨[], [], [], [], [], ⟨0, 0, 0, 0, 0, 1, 0, 1, false, 3, none, 0⟩, []⟩, 0, 0⟩
  out := []
  free := 0
  pending := []

end Sys2Proof.Machine
end

