-- ==== Sys2Proof/Machine/Mem.lean ====
section
/-! DEFINITION. The named operations over the memories: host memory, device DRAM, the Ledger and the SPI NOR. -/
namespace Sys2Proof.Machine

/-- What a byte that nothing has written reads as: 0 in every memory (log entry 2). -/
def Memory.unlisted : Byte := 0

/-- The canonical form of a memory: addresses strictly rising, no cell equal to what an unlisted address reads as. -/
def Memory.wf (m : List Host.Cell) : Bool := tsorted m && m.all fun c => c.2 != Memory.unlisted

/-- One byte read. -/
def Memory.read (m : List Host.Cell) (a : Nat) : Byte := tget Memory.unlisted m a

/-- One byte written; the canonical form is kept. -/
def Memory.write (m : List Host.Cell) (a : Nat) (b : Byte) : List Host.Cell :=
  if b = Memory.unlisted then terase m a else tset m a b

/-- `n` bytes read from address `a` up. -/
def Memory.readN (m : List Host.Cell) (a n : Nat) : List Byte := (List.range n).map fun i => Memory.read m (a + i)

/-- Bytes written from address `a` up. -/
def Memory.writeN (m : List Host.Cell) (a : Nat) (l : List Byte) : List Host.Cell :=
  match l with
  | [] => m
  | b :: r => Memory.writeN (Memory.write m a b) (a + 1) r

/-- A block of bytes written at once from address `a` up: what writeN leaves, in one pass. -/
def Memory.writeRun (m : List Host.Cell) (a : Nat) (l : List Byte) : List Host.Cell :=
  (m.filter fun c => decide (c.1 < a)) ++
    (((List.range l.length).map fun i => a + i).zip l).filter (fun c => c.2 != Memory.unlisted) ++
    m.filter fun c => decide (a + l.length ≤ c.1)

/-- A little-endian number read. -/
def Memory.readLe (m : List Host.Cell) (a n : Nat) : Nat := leNat (Memory.readN m a n)

/-- Whether `n` host bytes at `a` can be reached: the link is up and no failing range meets them. -/
def hostOk (a n : Nat) (s : State) : Bool :=
  s.mem.linkUp && s.mem.hostFail.all fun r => decide (a + n ≤ r.1) || decide (r.2 ≤ a)

/-- Host bytes read. -/
def hostRead (a n : Nat) (s : State) : List Byte := Memory.readN s.mem.host a n

/-- Host bytes written. -/
def hostWrite (a : Nat) (l : List Byte) (s : State) : State :=
  { s with mem := { s.mem with host := Memory.writeN s.mem.host a l } }

/-- Device DRAM bytes read. -/
def dramRead (a n : Nat) (s : State) : List Byte := Memory.readN s.mem.dram a n

/-- The lines of `n` device bytes at `a` that are written whole hold a poison code no longer, and are written again where their stripes were
lost (R373, R378). -/
def linesWritten (a n : Nat) (s : State) : State :=
  let lo := (a + 63) / 64
  let hi := (a + n) / 64
  let keep := fun (q : Nat) => decide (q < lo) || decide (hi ≤ q)
  let s := { s with mem := { s.mem with poison := s.mem.poison.filter keep } }
  if s.ddr.losses.isEmpty then s
  else { s with ddr := { s.ddr with fresh := s.ddr.fresh.filter keep ++ (List.range (hi - lo)).map fun i => lo + i } }

/-- Device DRAM bytes written. -/
def dramWrite (a : Nat) (l : List Byte) (s : State) : State :=
  linesWritten a l.length { s with mem := { s.mem with dram := Memory.writeN s.mem.dram a l } }

/-- A block of device DRAM written at once. -/
def dramWriteRun (a : Nat) (l : List Byte) (s : State) : State :=
  linesWritten a l.length { s with mem := { s.mem with dram := Memory.writeRun s.mem.dram a l } }

/-- Ledger bytes read. -/
def ledgerRead (a n : Nat) (s : State) : List Byte := Memory.readN s.mem.ledger a n

/-- Ledger bytes written. -/
def ledgerWrite (a : Nat) (l : List Byte) (s : State) : State :=
  { s with mem := { s.mem with ledger := Memory.writeN s.mem.ledger a l } }

/-- SPI NOR bytes read; an erased byte is 0xFF, which the model keeps as the complement in its cells. -/
def spiRead (a n : Nat) (s : State) : List Byte := (Memory.readN s.mem.spi a n).map fun b => ~~~b

/-- SPI NOR bytes set. -/
def spiWrite (a : Nat) (l : List Byte) (s : State) : State :=
  { s with mem := { s.mem with spi := Memory.writeN s.mem.spi a (l.map fun b => ~~~b) } }

end Sys2Proof.Machine
end

