-- ==== Sys2Proof/Machine/Regs.lean ====
section
/-! DEFINITION. Every register field the spec's register tables give, one `Fld` each: where it stands, its width and its
reset value.  `R.<REGISTER>_<field>` is the field; its docstring names the table's rule.  After them the descriptor table of
all registers, by which a plain access finds the fields of an offset (R9, R10, R491). -/
namespace Sys2Proof.Machine

/-- FRM_STATUS.state, R70. -/
def R.FRM_STATUS_state : Fld := ⟨0x40000, 0, 3, 0⟩
/-- FRM_STATUS.boot_slot, R70. -/
def R.FRM_STATUS_boot_slot : Fld := ⟨0x40000, 3, 1, 0⟩
/-- FRM_STATUS.fallback, R70. -/
def R.FRM_STATUS_fallback : Fld := ⟨0x40000, 4, 1, 0⟩
/-- FRM_STATUS.retired_override, R70. -/
def R.FRM_STATUS_retired_override : Fld := ⟨0x40000, 5, 1, 0⟩
/-- FRM_STATUS.armed, R70. -/
def R.FRM_STATUS_armed : Fld := ⟨0x40000, 16, 8, 0⟩
/-- FRM_IMAGE_VER.image_version, R70. -/
def R.FRM_IMAGE_VER_image_version : Fld := ⟨0x40004, 0, 32, 0⟩
/-- FRM_BOOT_INFO.slot_a_code, R70. -/
def R.FRM_BOOT_INFO_slot_a_code : Fld := ⟨0x40008, 0, 8, 0⟩
/-- FRM_BOOT_INFO.slot_b_code, R70. -/
def R.FRM_BOOT_INFO_slot_b_code : Fld := ⟨0x40008, 8, 8, 0⟩
/-- FRM_ERR.code, R70. -/
def R.FRM_ERR_code : Fld := ⟨0x4000c, 0, 8, 0⟩
/-- FRM_ERR.timber, R70. -/
def R.FRM_ERR_timber : Fld := ⟨0x4000c, 8, 8, 0⟩
/-- FRM_ERR.ring, R70. -/
def R.FRM_ERR_ring : Fld := ⟨0x4000c, 16, 4, 0⟩
/-- FRM_ERR.ring_valid, R70. -/
def R.FRM_ERR_ring_valid : Fld := ⟨0x4000c, 20, 1, 0⟩
/-- FRM_ERR.valid, R70. -/
def R.FRM_ERR_valid : Fld := ⟨0x4000c, 31, 1, 0⟩
/-- FRM_APPLY_STAMP.stamp, R70. -/
def R.FRM_APPLY_STAMP_stamp : Fld := ⟨0x40010, 0, 48, 0⟩
/-- FRM_DEV_GEN.generation, R70. -/
def R.FRM_DEV_GEN_generation : Fld := ⟨0x40018, 0, 24, 0⟩
/-- FRM_DEV_GEN.armed, R70. -/
def R.FRM_DEV_GEN_armed : Fld := ⟨0x40018, 24, 3, 0⟩
/-- FRM_DEV_GEN.rollback_ok, R70. -/
def R.FRM_DEV_GEN_rollback_ok : Fld := ⟨0x40018, 27, 1, 0⟩
/-- FRM_DIGEST.digest, R70. -/
def R.FRM_DIGEST_digest (n : Nat) : Fld := ⟨0x40040 + 4 * n, 0, 32, 0⟩
/-- FRM_RING_GEN.generation, R70. -/
def R.FRM_RING_GEN_generation (r : Nat) : Fld := ⟨0x40100 + 4 * r, 0, 24, 0⟩
/-- FRM_RING_GEN.armed, R70. -/
def R.FRM_RING_GEN_armed (r : Nat) : Fld := ⟨0x40100 + 4 * r, 24, 3, 0⟩
/-- FRM_RING_GEN.rollback_ok, R70. -/
def R.FRM_RING_GEN_rollback_ok (r : Nat) : Fld := ⟨0x40100 + 4 * r, 27, 1, 0⟩
/-- FRM_RING_GEN.defined, R70. -/
def R.FRM_RING_GEN_defined (r : Nat) : Fld := ⟨0x40100 + 4 * r, 28, 1, 0⟩
/-- FRM_SIGNER.provisioned, R70. -/
def R.FRM_SIGNER_provisioned : Fld := ⟨0x40200, 0, 4, 0⟩
/-- FRM_SIGNER.revoked, R70. -/
def R.FRM_SIGNER_revoked : Fld := ⟨0x40200, 4, 4, 0⟩
/-- FRM_SIGNER.active_slot, R70. -/
def R.FRM_SIGNER_active_slot : Fld := ⟨0x40200, 8, 2, 0⟩
/-- MBX_CTRL.go, R94. -/
def R.MBX_CTRL_go : Fld := ⟨mbxAddr, 0, 1, 0⟩
/-- MBX_CTRL.busy, R94. -/
def R.MBX_CTRL_busy : Fld := ⟨mbxAddr, 1, 1, 0⟩
/-- MBX_CTRL.done, R94. -/
def R.MBX_CTRL_done : Fld := ⟨mbxAddr, 2, 1, 0⟩
/-- MBX_CTRL.collision, R94. -/
def R.MBX_CTRL_collision : Fld := ⟨mbxAddr, 3, 1, 0⟩
/-- GLB_ID.part, R94. -/
def R.GLB_ID_part : Fld := ⟨0x0, 0, 16, 5696⟩
/-- GLB_ID.grade, R94. -/
def R.GLB_ID_grade : Fld := ⟨0x0, 16, 4, 0⟩
/-- GLB_ID.stepping, R94. -/
def R.GLB_ID_stepping : Fld := ⟨0x0, 20, 8, 177⟩
/-- GLB_BLOCK_STAMP.stamp, R94. -/
def R.GLB_BLOCK_STAMP_stamp : Fld := ⟨0x8, 0, 48, 0⟩
/-- GLB_BLOCK_STAMP.offset, R94. -/
def R.GLB_BLOCK_STAMP_offset : Fld := ⟨0x8, 48, 5, 0⟩
/-- GLB_AON_CFG.smb_ctl, R94. -/
def R.GLB_AON_CFG_smb_ctl : Fld := ⟨0x10, 0, 1, 0⟩
/-- GLB_AON_CFG.wdt_en, R94. -/
def R.GLB_AON_CFG_wdt_en : Fld := ⟨0x10, 1, 1, 0⟩
/-- CMD_SQ_BASE.base, R94. -/
def R.CMD_SQ_BASE_base (fn : Fn) : Fld := ⟨cmdBase fn + 0, 12, 52, 0⟩
/-- CMD_CQ_BASE.base, R94. -/
def R.CMD_CQ_BASE_base (fn : Fn) : Fld := ⟨cmdBase fn + 8, 12, 52, 0⟩
/-- CMD_RING_SIZE.sq_log2, R94. -/
def R.CMD_RING_SIZE_sq_log2 (fn : Fn) : Fld := ⟨cmdBase fn + 16, 0, 4, 6⟩
/-- CMD_RING_SIZE.cq_log2, R94. -/
def R.CMD_RING_SIZE_cq_log2 (fn : Fn) : Fld := ⟨cmdBase fn + 16, 8, 4, 6⟩
/-- CMD_CTRL.enable, R94. -/
def R.CMD_CTRL_enable (fn : Fn) : Fld := ⟨cmdBase fn + 20, 0, 1, 0⟩
/-- CMD_STATUS.running, R94. -/
def R.CMD_STATUS_running (fn : Fn) : Fld := ⟨cmdBase fn + 24, 0, 1, 0⟩
/-- CMD_STATUS.sq_halted, R94. -/
def R.CMD_STATUS_sq_halted (fn : Fn) : Fld := ⟨cmdBase fn + 24, 1, 1, 0⟩
/-- CMD_STATUS.cq_halted, R94. -/
def R.CMD_STATUS_cq_halted (fn : Fn) : Fld := ⟨cmdBase fn + 24, 2, 1, 0⟩
/-- CMD_STATUS.enable_refused, R94. -/
def R.CMD_STATUS_enable_refused (fn : Fn) : Fld := ⟨cmdBase fn + 24, 3, 1, 0⟩
/-- CMD_STATUS.halt_cause, R94. -/
def R.CMD_STATUS_halt_cause (fn : Fn) : Fld := ⟨cmdBase fn + 24, 4, 4, 0⟩
/-- CMD_STATUS.in_flight, R94. -/
def R.CMD_STATUS_in_flight (fn : Fn) : Fld := ⟨cmdBase fn + 24, 8, 9, 0⟩
/-- CMD_STATUS.long_ops, R94. -/
def R.CMD_STATUS_long_ops (fn : Fn) : Fld := ⟨cmdBase fn + 24, 17, 4, 0⟩
/-- CMD_STATUS.bad_head, R94. -/
def R.CMD_STATUS_bad_head (fn : Fn) : Fld := ⟨cmdBase fn + 24, 21, 1, 0⟩
/-- CMD_SQ_TAIL.tail, R94. -/
def R.CMD_SQ_TAIL_tail (fn : Fn) : Fld := ⟨cmdBase fn + 28, 0, 12, 0⟩
/-- CMD_SQ_HEAD.head, R94. -/
def R.CMD_SQ_HEAD_head (fn : Fn) : Fld := ⟨cmdBase fn + 32, 0, 12, 0⟩
/-- CMD_CQ_HEAD.head, R94. -/
def R.CMD_CQ_HEAD_head (fn : Fn) : Fld := ⟨cmdBase fn + 36, 0, 12, 0⟩
/-- CMD_CQ_TAIL.tail, R94. -/
def R.CMD_CQ_TAIL_tail (fn : Fn) : Fld := ⟨cmdBase fn + 40, 0, 12, 0⟩
/-- CMD_CQ_TAIL.phase, R94. -/
def R.CMD_CQ_TAIL_phase (fn : Fn) : Fld := ⟨cmdBase fn + 40, 16, 1, 0⟩
/-- CMD_RESULT_ACK.slot, R94. -/
def R.CMD_RESULT_ACK_slot (fn : Fn) : Fld := ⟨cmdBase fn + 44, 0, 6, 0⟩
/-- INT_EVQ_BASE.base, R94. -/
def R.INT_EVQ_BASE_base (fn : Fn) (q : Nat) : Fld := ⟨evqBase fn q + 0, 12, 52, 0⟩
/-- INT_EVQ_CFG.log2, R94. -/
def R.INT_EVQ_CFG_log2 (fn : Fn) (q : Nat) : Fld := ⟨evqBase fn q + 8, 0, 4, 6⟩
/-- INT_EVQ_CFG.enable, R94. -/
def R.INT_EVQ_CFG_enable (fn : Fn) (q : Nat) : Fld := ⟨evqBase fn q + 8, 4, 1, 0⟩
/-- INT_EVQ_CFG.thresh, R94. -/
def R.INT_EVQ_CFG_thresh (fn : Fn) (q : Nat) : Fld := ⟨evqBase fn q + 8, 16, 16, 0⟩
/-- INT_EVQ_HEAD.head, R94. -/
def R.INT_EVQ_HEAD_head (fn : Fn) (q : Nat) : Fld := ⟨evqBase fn q + 12, 0, 14, 0⟩
/-- INT_EVQ_TAIL.tail, R94. -/
def R.INT_EVQ_TAIL_tail (fn : Fn) (q : Nat) : Fld := ⟨evqBase fn q + 16, 0, 14, 0⟩
/-- INT_EVQ_TAIL.phase, R94. -/
def R.INT_EVQ_TAIL_phase (fn : Fn) (q : Nat) : Fld := ⟨evqBase fn q + 16, 16, 1, 0⟩
/-- INT_EVQ_STATUS.depth, R94. -/
def R.INT_EVQ_STATUS_depth (fn : Fn) (q : Nat) : Fld := ⟨evqBase fn q + 20, 0, 16, 0⟩
/-- INT_EVQ_STATUS.overflow, R94. -/
def R.INT_EVQ_STATUS_overflow (fn : Fn) (q : Nat) : Fld := ⟨evqBase fn q + 20, 16, 1, 0⟩
/-- INT_EVQ_ROUTE.queue, R94. -/
def R.INT_EVQ_ROUTE_queue (n : Nat) : Fld := ⟨0x38000 + 4 * n, 0, 4, 0⟩
/-- ETH_MODE.eth_mode, R117. -/
def R.ETH_MODE_eth_mode : Fld := ⟨0x100000, 0, 2, 0⟩
/-- ETH_LINK_CFG.enable, R117. -/
def R.ETH_LINK_CFG_enable (link : Nat) : Fld := ⟨0x101000 + 512 * link, 0, 1, 1⟩
/-- ETH_LINK_CFG.an_enable, R117. -/
def R.ETH_LINK_CFG_an_enable (link : Nat) : Fld := ⟨0x101000 + 512 * link, 1, 1, 0⟩
/-- ETH_LINK_CFG.fec_sel, R117. -/
def R.ETH_LINK_CFG_fec_sel (link : Nat) : Fld := ⟨0x101000 + 512 * link, 2, 2, 0⟩
/-- ETH_LINK_CFG.ser_thresh, R117. -/
def R.ETH_LINK_CFG_ser_thresh (link : Nat) : Fld := ⟨0x101000 + 512 * link, 16, 16, 16⟩
/-- ETH_LINK_STATUS.state, R117. -/
def R.ETH_LINK_STATUS_state (link : Nat) : Fld := ⟨0x101004 + 512 * link, 0, 3, 0⟩
/-- ETH_LINK_STATUS.degraded, R117. -/
def R.ETH_LINK_STATUS_degraded (link : Nat) : Fld := ⟨0x101004 + 512 * link, 3, 1, 0⟩
/-- ETH_LINK_STATUS.reversed, R117. -/
def R.ETH_LINK_STATUS_reversed (link : Nat) : Fld := ⟨0x101004 + 512 * link, 4, 1, 0⟩
/-- ETH_LINK_STATUS.pol_inv, R117. -/
def R.ETH_LINK_STATUS_pol_inv (link : Nat) : Fld := ⟨0x101004 + 512 * link, 5, 8, 0⟩
/-- ETH_LINK_STATUS.remote_fault, R117. -/
def R.ETH_LINK_STATUS_remote_fault (link : Nat) : Fld := ⟨0x101004 + 512 * link, 13, 1, 0⟩
/-- ETH_PTP_CFG.pps_en, R117. -/
def R.ETH_PTP_CFG_pps_en : Fld := ⟨0x103000, 0, 1, 0⟩
/-- ETH_PTP_NS.ns, R117. -/
def R.ETH_PTP_NS_ns : Fld := ⟨0x103004, 0, 30, 0⟩
/-- ETH_PTP_SEC.sec, R117. -/
def R.ETH_PTP_SEC_sec : Fld := ⟨0x103008, 0, 48, 0⟩
/-- ETH_PTP_STEP.step, R117. -/
def R.ETH_PTP_STEP_step : Fld := ⟨0x103010, 0, 64, 0⟩
/-- ETH_PTP_FREQ.freq, R117. -/
def R.ETH_PTP_FREQ_freq : Fld := ⟨0x103018, 0, 32, 0⟩
/-- ETH_PTP_STATUS.locked, R117. -/
def R.ETH_PTP_STATUS_locked : Fld := ⟨0x10301c, 0, 1, 0⟩
/-- ETH_PTP_STATUS.time_valid, R117. -/
def R.ETH_PTP_STATUS_time_valid : Fld := ⟨0x10301c, 1, 1, 0⟩
/-- ETH_PTP_STAMP_OFFSET.diff, R117. -/
def R.ETH_PTP_STAMP_OFFSET_diff : Fld := ⟨0x103020, 0, 64, 0⟩
/-- ETH_PTP_PHASE.phase, R117. -/
def R.ETH_PTP_PHASE_phase : Fld := ⟨0x103028, 0, 32, 0⟩
/-- ING_LOCAL_ADDR0.addr, R117. -/
def R.ING_LOCAL_ADDR0_addr (n : Nat) : Fld := ⟨0x140000 + 32 * n, 0, 32, 0⟩
/-- ING_LOCAL_ADDR1.addr, R117. -/
def R.ING_LOCAL_ADDR1_addr (n : Nat) : Fld := ⟨0x140004 + 32 * n, 0, 32, 0⟩
/-- ING_LOCAL_ADDR2.addr, R117. -/
def R.ING_LOCAL_ADDR2_addr (n : Nat) : Fld := ⟨0x140008 + 32 * n, 0, 32, 0⟩
/-- ING_LOCAL_ADDR3.addr, R117. -/
def R.ING_LOCAL_ADDR3_addr (n : Nat) : Fld := ⟨0x14000c + 32 * n, 0, 32, 0⟩
/-- ING_LOCAL.valid, R117. -/
def R.ING_LOCAL_valid (n : Nat) : Fld := ⟨0x140010 + 32 * n, 0, 1, 0⟩
/-- ING_LOCAL.port_base, R117. -/
def R.ING_LOCAL_port_base (n : Nat) : Fld := ⟨0x140010 + 32 * n, 16, 16, 0⟩
/-- ING_TS_CFG.burst_blocks, R117. -/
def R.ING_TS_CFG_burst_blocks : Fld := ⟨0x140200, 0, 8, 64⟩
/-- ING_EXC_BASE.base, R117. -/
def R.ING_EXC_BASE_base (fn : Fn) : Fld := ⟨excBase fn + 0, 12, 52, 0⟩
/-- ING_EXC_CFG.log2, R117. -/
def R.ING_EXC_CFG_log2 (fn : Fn) : Fld := ⟨excBase fn + 8, 0, 4, 6⟩
/-- ING_EXC_CFG.slot_log2, R117. -/
def R.ING_EXC_CFG_slot_log2 (fn : Fn) : Fld := ⟨excBase fn + 8, 4, 4, 11⟩
/-- ING_EXC_CFG.enable, R117. -/
def R.ING_EXC_CFG_enable (fn : Fn) : Fld := ⟨excBase fn + 8, 8, 1, 0⟩
/-- ING_EXC_HEAD.head, R117. -/
def R.ING_EXC_HEAD_head (fn : Fn) : Fld := ⟨excBase fn + 12, 0, 12, 0⟩
/-- ING_EXC_TAIL.tail, R117. -/
def R.ING_EXC_TAIL_tail (fn : Fn) : Fld := ⟨excBase fn + 16, 0, 12, 0⟩
/-- ING_EXC_TAIL.phase, R117. -/
def R.ING_EXC_TAIL_phase (fn : Fn) : Fld := ⟨excBase fn + 16, 16, 1, 0⟩
/-- ING_EXC_RATE.rate, R117. -/
def R.ING_EXC_RATE_rate : Fld := ⟨0x14021c, 0, 16, 256⟩
/-- ING_JR_RESIZE.stream, R117. -/
def R.ING_JR_RESIZE_stream : Fld := ⟨0x140220, 0, 16, 0⟩
/-- ING_JR_RESIZE.log2, R117. -/
def R.ING_JR_RESIZE_log2 : Fld := ⟨0x140220, 16, 4, 0⟩
/-- ING_JR_RESIZE.go, R117. -/
def R.ING_JR_RESIZE_go : Fld := ⟨0x140220, 31, 1, 0⟩
/-- ING_STEER.bays, R117. -/
def R.ING_STEER_bays (n : Nat) : Fld := ⟨0x141000 + 4 * n, 0, 32, 0⟩
/-- KEY_LOAD_CTRL.go, R143. -/
def R.KEY_LOAD_CTRL_go (fn : Fn) : Fld := ⟨keyBase fn + 0, 0, 1, 0⟩
/-- KEY_LOAD_CTRL.op, R143. -/
def R.KEY_LOAD_CTRL_op (fn : Fn) : Fld := ⟨keyBase fn + 0, 1, 2, 0⟩
/-- KEY_LOAD_SLOT.slot, R143. -/
def R.KEY_LOAD_SLOT_slot (fn : Fn) : Fld := ⟨keyBase fn + 4, 0, 16, 0⟩
/-- KEY_LOAD_SLOT.profile, R143. -/
def R.KEY_LOAD_SLOT_profile (fn : Fn) : Fld := ⟨keyBase fn + 4, 16, 8, 0⟩
/-- KEY_LOAD_STATUS.busy, R143. -/
def R.KEY_LOAD_STATUS_busy (fn : Fn) : Fld := ⟨keyBase fn + 8, 0, 1, 0⟩
/-- KEY_LOAD_STATUS.collision, R143. -/
def R.KEY_LOAD_STATUS_collision (fn : Fn) : Fld := ⟨keyBase fn + 8, 1, 1, 0⟩
/-- KEY_LOAD_STATUS.result, R143. -/
def R.KEY_LOAD_STATUS_result (fn : Fn) : Fld := ⟨keyBase fn + 8, 4, 4, 15⟩
/-- KEY_LOAD_STATUS.written, R143. -/
def R.KEY_LOAD_STATUS_written (fn : Fn) : Fld := ⟨keyBase fn + 8, 8, 12, 0⟩
/-- KEY_LOAD_KCV.kcv, R143. -/
def R.KEY_LOAD_KCV_kcv (fn : Fn) : Fld := ⟨keyBase fn + 12, 0, 24, 0⟩
/-- KEY_LOAD_DATA.data, R143. -/
def R.KEY_LOAD_DATA_data (fn : Fn) (n : Nat) : Fld := ⟨keyBase fn + 16 + 4 * n, 0, 32, 0⟩
/-- KEY_SLOT_QSEL.slot, R143. -/
def R.KEY_SLOT_QSEL_slot (fn : Fn) : Fld := ⟨keyBase fn + 256, 0, 16, 0⟩
/-- KEY_SLOT_QSEL.owned, R143. -/
def R.KEY_SLOT_QSEL_owned (fn : Fn) : Fld := ⟨keyBase fn + 256, 16, 1, 0⟩
/-- KEY_SLOT_QINFO.valid, R143. -/
def R.KEY_SLOT_QINFO_valid (fn : Fn) : Fld := ⟨keyBase fn + 260, 0, 1, 0⟩
/-- KEY_SLOT_QINFO.bound, R143. -/
def R.KEY_SLOT_QINFO_bound (fn : Fn) : Fld := ⟨keyBase fn + 260, 1, 1, 0⟩
/-- KEY_SLOT_QINFO.profile, R143. -/
def R.KEY_SLOT_QINFO_profile (fn : Fn) : Fld := ⟨keyBase fn + 260, 8, 8, 0⟩
/-- KEY_SLOT_QINFO.generation, R143. -/
def R.KEY_SLOT_QINFO_generation (fn : Fn) : Fld := ⟨keyBase fn + 260, 16, 16, 0⟩
/-- KEY_SLOT_QKCV.kcv, R143. -/
def R.KEY_SLOT_QKCV_kcv (fn : Fn) : Fld := ⟨keyBase fn + 264, 0, 24, 0⟩
/-- KEY_COUNT_VALID.count, R143. -/
def R.KEY_COUNT_VALID_count : Fld := ⟨0x80200, 0, 17, 0⟩
/-- KEY_ZEROISE_STATUS.cause, R143. -/
def R.KEY_ZEROISE_STATUS_cause : Fld := ⟨0x80204, 0, 4, 0⟩
/-- KEY_ZEROISE_STATUS.ring, R143. -/
def R.KEY_ZEROISE_STATUS_ring : Fld := ⟨0x80204, 4, 4, 0⟩
/-- CIPH_SCA_CFG.dummy_en, R143. -/
def R.CIPH_SCA_CFG_dummy_en : Fld := ⟨0xc0000, 0, 1, 1⟩
/-- CIPH_SCA_CFG.shuffle_en, R143. -/
def R.CIPH_SCA_CFG_shuffle_en : Fld := ⟨0xc0000, 1, 1, 1⟩
/-- CIPH_RNG_STATUS.healthy, R143. -/
def R.CIPH_RNG_STATUS_healthy : Fld := ⟨0xc0004, 0, 1, 0⟩
/-- CIPH_RNG_STATUS.fail, R143. -/
def R.CIPH_RNG_STATUS_fail : Fld := ⟨0xc0004, 1, 1, 0⟩
/-- CIPH_ENG_STATUS.state, R143. -/
def R.CIPH_ENG_STATUS_state (e : Nat) : Fld := ⟨0xc1000 + 256 * e, 0, 2, 0⟩
/-- CIPH_ENG_STATUS.hold_bytes, R143. -/
def R.CIPH_ENG_STATUS_hold_bytes (e : Nat) : Fld := ⟨0xc1000 + 256 * e, 16, 14, 0⟩
/-- AUD_ACT_SEL.act, R180. -/
def R.AUD_ACT_SEL_act (fn : Fn) : Fld := ⟨audBase fn + 0, 0, 12, 0⟩
/-- AUD_ACT_SEL.owned, R180. -/
def R.AUD_ACT_SEL_owned (fn : Fn) : Fld := ⟨audBase fn + 0, 16, 1, 0⟩
/-- AUD_ACT_STATUS.bank, R180. -/
def R.AUD_ACT_STATUS_bank (fn : Fn) : Fld := ⟨audBase fn + 4, 0, 1, 0⟩
/-- AUD_ACT_STATUS.forward, R180. -/
def R.AUD_ACT_STATUS_forward (fn : Fn) : Fld := ⟨audBase fn + 4, 1, 1, 0⟩
/-- AUD_ACT_STATUS.top_n, R180. -/
def R.AUD_ACT_STATUS_top_n (fn : Fn) : Fld := ⟨audBase fn + 4, 2, 4, 0⟩
/-- AUD_ACT_STATUS.selected, R180. -/
def R.AUD_ACT_STATUS_selected (fn : Fn) : Fld := ⟨audBase fn + 4, 6, 4, 0⟩
/-- AUD_ACT_STATUS.swap_active, R180. -/
def R.AUD_ACT_STATUS_swap_active (fn : Fn) : Fld := ⟨audBase fn + 4, 10, 1, 0⟩
/-- AUD_ACT_STATUS.param_gen, R180. -/
def R.AUD_ACT_STATUS_param_gen (fn : Fn) : Fld := ⟨audBase fn + 4, 16, 16, 0⟩
/-- AUD_ACT_SPK.leg, R180. -/
def R.AUD_ACT_SPK_leg (fn : Fn) (n : Nat) : Fld := ⟨audBase fn + 16 + 4 * n, 0, 14, 0⟩
/-- AUD_ACT_SPK.valid, R180. -/
def R.AUD_ACT_SPK_valid (fn : Fn) (n : Nat) : Fld := ⟨audBase fn + 16 + 4 * n, 14, 1, 0⟩
/-- AUD_ACT_SPK.fading, R180. -/
def R.AUD_ACT_SPK_fading (fn : Fn) (n : Nat) : Fld := ⟨audBase fn + 16 + 4 * n, 15, 1, 0⟩
/-- AUD_ACT_SPK.level, R180. -/
def R.AUD_ACT_SPK_level (fn : Fn) (n : Nat) : Fld := ⟨audBase fn + 16 + 4 * n, 16, 7, 0⟩
/-- AUD_ACT_SPK.pinned, R180. -/
def R.AUD_ACT_SPK_pinned (fn : Fn) (n : Nat) : Fld := ⟨audBase fn + 16 + 4 * n, 23, 1, 0⟩
/-- AUD_LEG_SEL.leg, R180. -/
def R.AUD_LEG_SEL_leg (fn : Fn) : Fld := ⟨audBase fn + 64, 0, 14, 0⟩
/-- AUD_LEG_SEL.owned, R180. -/
def R.AUD_LEG_SEL_owned (fn : Fn) : Fld := ⟨audBase fn + 64, 16, 1, 0⟩
/-- AUD_LEG_STATUS.selected, R180. -/
def R.AUD_LEG_STATUS_selected (fn : Fn) : Fld := ⟨audBase fn + 68, 0, 1, 0⟩
/-- AUD_LEG_STATUS.entering, R180. -/
def R.AUD_LEG_STATUS_entering (fn : Fn) : Fld := ⟨audBase fn + 68, 1, 1, 0⟩
/-- AUD_LEG_STATUS.fading, R180. -/
def R.AUD_LEG_STATUS_fading (fn : Fn) : Fld := ⟨audBase fn + 68, 2, 1, 0⟩
/-- AUD_LEG_STATUS.untrusted, R180. -/
def R.AUD_LEG_STATUS_untrusted (fn : Fn) : Fld := ⟨audBase fn + 68, 3, 1, 0⟩
/-- AUD_LEG_STATUS.concealing, R180. -/
def R.AUD_LEG_STATUS_concealing (fn : Fn) : Fld := ⟨audBase fn + 68, 4, 1, 0⟩
/-- AUD_LEG_STATUS.forwarded, R180. -/
def R.AUD_LEG_STATUS_forwarded (fn : Fn) : Fld := ⟨audBase fn + 68, 5, 1, 0⟩
/-- AUD_LEG_STATUS.verifying, R180. -/
def R.AUD_LEG_STATUS_verifying (fn : Fn) : Fld := ⟨audBase fn + 68, 6, 1, 0⟩
/-- AUD_LEG_STATUS.claimed, R180. -/
def R.AUD_LEG_STATUS_claimed (fn : Fn) : Fld := ⟨audBase fn + 68, 7, 7, 0⟩
/-- AUD_LEG_STATUS.measured, R180. -/
def R.AUD_LEG_STATUS_measured (fn : Fn) : Fld := ⟨audBase fn + 68, 14, 7, 0⟩
/-- AUD_LEG_STATUS.strikes, R180. -/
def R.AUD_LEG_STATUS_strikes (fn : Fn) : Fld := ⟨audBase fn + 68, 21, 4, 0⟩
/-- AUD_LEG_METER.rms, R180. -/
def R.AUD_LEG_METER_rms (fn : Fn) : Fld := ⟨audBase fn + 72, 0, 16, 32768⟩
/-- AUD_LEG_METER.peak, R180. -/
def R.AUD_LEG_METER_peak (fn : Fn) : Fld := ⟨audBase fn + 72, 16, 16, 32768⟩
/-- AUD_LEG_HOLD.held, R180. -/
def R.AUD_LEG_HOLD_held (fn : Fn) : Fld := ⟨audBase fn + 76, 0, 16, 32768⟩
/-- AUD_UNIT_STATUS.state, R180. -/
def R.AUD_UNIT_STATUS_state (bay : Nat) : Fld := ⟨0x202000 + 256 * bay, 0, 2, 0⟩
/-- AUD_UNIT_STATUS.legs, R180. -/
def R.AUD_UNIT_STATUS_legs (bay : Nat) : Fld := ⟨0x202000 + 256 * bay, 16, 14, 0⟩
/-- SRC_STAGE_OP.op, R204. -/
def R.SRC_STAGE_OP_op (fn : Fn) : Fld := ⟨srcBase fn + 0, 0, 2, 0⟩
/-- SRC_STAGE_OP.target, R204. -/
def R.SRC_STAGE_OP_target (fn : Fn) : Fld := ⟨srcBase fn + 0, 2, 14, 0⟩
/-- SRC_STAGE_ARG.select, R204. -/
def R.SRC_STAGE_ARG_select (fn : Fn) : Fld := ⟨srcBase fn + 4, 0, 8, 0⟩
/-- SRC_STAGE_ARG.port, R204. -/
def R.SRC_STAGE_ARG_port (fn : Fn) : Fld := ⟨srcBase fn + 4, 8, 2, 0⟩
/-- SRC_STAGE_ARG.rx_slot, R204. -/
def R.SRC_STAGE_ARG_rx_slot (fn : Fn) : Fld := ⟨srcBase fn + 4, 10, 7, 0⟩
/-- SRC_STAGE_ARG.tx_slot, R204. -/
def R.SRC_STAGE_ARG_tx_slot (fn : Fn) : Fld := ⟨srcBase fn + 4, 17, 7, 0⟩
/-- SRC_STAGE_ARG.format, R204. -/
def R.SRC_STAGE_ARG_format (fn : Fn) : Fld := ⟨srcBase fn + 4, 24, 2, 0⟩
/-- SRC_STAGE_STAMP.stamp, R204. -/
def R.SRC_STAGE_STAMP_stamp (fn : Fn) : Fld := ⟨srcBase fn + 8, 0, 48, 0⟩
/-- SRC_STAGE_CTRL.go, R204. -/
def R.SRC_STAGE_CTRL_go (fn : Fn) : Fld := ⟨srcBase fn + 16, 0, 1, 0⟩
/-- SRC_STAGE_STATUS.armed, R204. -/
def R.SRC_STAGE_STATUS_armed (fn : Fn) : Fld := ⟨srcBase fn + 20, 0, 1, 0⟩
/-- SRC_STAGE_STATUS.collision, R204. -/
def R.SRC_STAGE_STATUS_collision (fn : Fn) : Fld := ⟨srcBase fn + 20, 1, 1, 0⟩
/-- SRC_STAGE_STATUS.late, R204. -/
def R.SRC_STAGE_STATUS_late (fn : Fn) : Fld := ⟨srcBase fn + 20, 2, 1, 0⟩
/-- SRC_STAGE_STATUS.result, R204. -/
def R.SRC_STAGE_STATUS_result (fn : Fn) : Fld := ⟨srcBase fn + 20, 4, 4, 15⟩
/-- SRC_STAGE_STATUS.lateness, R204. -/
def R.SRC_STAGE_STATUS_lateness (fn : Fn) : Fld := ⟨srcBase fn + 20, 8, 24, 0⟩
/-- SRC_STAGE_EFFECT.stamp, R204. -/
def R.SRC_STAGE_EFFECT_stamp (fn : Fn) : Fld := ⟨srcBase fn + 24, 0, 48, 0⟩
/-- SRC_BANK_SEL.bank, R204. -/
def R.SRC_BANK_SEL_bank : Fld := ⟨0x240100, 0, 3, 0⟩
/-- SRC_BANK_CFG.rate, R204. -/
def R.SRC_BANK_CFG_rate : Fld := ⟨0x240104, 0, 2, 0⟩
/-- SRC_BANK_CFG.delay, R204. -/
def R.SRC_BANK_CFG_delay : Fld := ⟨0x240104, 4, 8, 0⟩
/-- SRC_BANK_CFG.rings, R204. -/
def R.SRC_BANK_CFG_rings : Fld := ⟨0x240104, 16, 16, 0⟩
/-- SRC_BANK_COEF.coef, R204. -/
def R.SRC_BANK_COEF_coef : Fld := ⟨0x240108, 0, 25, 0⟩
/-- SRC_BANK_CTRL.go, R204. -/
def R.SRC_BANK_CTRL_go : Fld := ⟨0x24010c, 0, 1, 0⟩
/-- SRC_BANK_CTRL.op, R204. -/
def R.SRC_BANK_CTRL_op : Fld := ⟨0x24010c, 1, 2, 0⟩
/-- SRC_BANK_STATUS.state, R204. -/
def R.SRC_BANK_STATUS_state : Fld := ⟨0x240110, 0, 2, 0⟩
/-- SRC_BANK_STATUS.count, R204. -/
def R.SRC_BANK_STATUS_count : Fld := ⟨0x240110, 2, 10, 0⟩
/-- SRC_BANK_STATUS.result, R204. -/
def R.SRC_BANK_STATUS_result : Fld := ⟨0x240110, 12, 4, 15⟩
/-- SRC_BANK_STATUS.acts, R204. -/
def R.SRC_BANK_STATUS_acts : Fld := ⟨0x240110, 16, 12, 0⟩
/-- SRC_TDM_CFG.enable, R204. -/
def R.SRC_TDM_CFG_enable (p : Nat) : Fld := ⟨0x241000 + 256 * p, 0, 1, 0⟩
/-- SRC_TDM_CFG.master, R204. -/
def R.SRC_TDM_CFG_master (p : Nat) : Fld := ⟨0x241000 + 256 * p, 1, 1, 1⟩
/-- SRC_TDM_CFG.fs_delay, R204. -/
def R.SRC_TDM_CFG_fs_delay (p : Nat) : Fld := ⟨0x241000 + 256 * p, 2, 1, 1⟩
/-- SRC_TDM_CFG.fs_pol, R204. -/
def R.SRC_TDM_CFG_fs_pol (p : Nat) : Fld := ⟨0x241000 + 256 * p, 3, 1, 0⟩
/-- SRC_TDM_CFG.swap_out, R204. -/
def R.SRC_TDM_CFG_swap_out (p : Nat) : Fld := ⟨0x241000 + 256 * p, 4, 1, 0⟩
/-- SRC_TDM_CFG.auto_swap, R204. -/
def R.SRC_TDM_CFG_auto_swap (p : Nat) : Fld := ⟨0x241000 + 256 * p, 5, 1, 1⟩
/-- SRC_TDM_CFG.rx_dma, R204. -/
def R.SRC_TDM_CFG_rx_dma (p : Nat) : Fld := ⟨0x241000 + 256 * p, 8, 5, 0⟩
/-- SRC_TDM_CFG.tx_dma, R204. -/
def R.SRC_TDM_CFG_tx_dma (p : Nat) : Fld := ⟨0x241000 + 256 * p, 16, 5, 0⟩
/-- SRC_TDM_STATUS.state, R204. -/
def R.SRC_TDM_STATUS_state (p : Nat) : Fld := ⟨0x241004 + 256 * p, 0, 3, 0⟩
/-- SRC_TDM_STATUS.swapped, R204. -/
def R.SRC_TDM_STATUS_swapped (p : Nat) : Fld := ⟨0x241004 + 256 * p, 3, 1, 0⟩
/-- SRC_TDM_STATUS.dup_active, R204. -/
def R.SRC_TDM_STATUS_dup_active (p : Nat) : Fld := ⟨0x241004 + 256 * p, 4, 1, 0⟩
/-- SRC_TDM_STATUS.pin_bclk, R204. -/
def R.SRC_TDM_STATUS_pin_bclk (p : Nat) : Fld := ⟨0x241004 + 256 * p, 8, 2, 0⟩
/-- SRC_TDM_STATUS.pin_fsync, R204. -/
def R.SRC_TDM_STATUS_pin_fsync (p : Nat) : Fld := ⟨0x241004 + 256 * p, 10, 2, 0⟩
/-- SRC_TDM_STATUS.pin_dx, R204. -/
def R.SRC_TDM_STATUS_pin_dx (p : Nat) : Fld := ⟨0x241004 + 256 * p, 12, 2, 0⟩
/-- SRC_TDM_STATUS.pin_dr, R204. -/
def R.SRC_TDM_STATUS_pin_dr (p : Nat) : Fld := ⟨0x241004 + 256 * p, 14, 2, 0⟩
/-- SRC_TDM_CLKCNT.bclk, R204. -/
def R.SRC_TDM_CLKCNT_bclk (p : Nat) : Fld := ⟨0x241008 + 256 * p, 0, 16, 0⟩
/-- SRC_TDM_CLKCNT.fsync, R204. -/
def R.SRC_TDM_CLKCNT_fsync (p : Nat) : Fld := ⟨0x241008 + 256 * p, 16, 8, 0⟩
/-- SRC_TDM_OWN.owner, R204. -/
def R.SRC_TDM_OWN_owner (p : Nat) (k : Nat) : Fld := ⟨0x242000 + 128 * p + 4 * k, 0, 32, 4294967295⟩
/-- TMB_CL_STATUS.spare, R233. -/
def R.TMB_CL_STATUS_spare (cl : Nat) : Fld := ⟨0x300000 + 65536 * cl, 0, 5, 0⟩
/-- TMB_CL_STATUS.spare_busy, R233. -/
def R.TMB_CL_STATUS_spare_busy (cl : Nat) : Fld := ⟨0x300000 + 65536 * cl, 5, 1, 0⟩
/-- TMB_CL_STATUS.store_kib, R233. -/
def R.TMB_CL_STATUS_store_kib (cl : Nat) : Fld := ⟨0x300000 + 65536 * cl, 16, 16, 0⟩
/-- TMB_CORE_STATUS.state, R233. -/
def R.TMB_CORE_STATUS_state (core : Nat) : Fld := ⟨coreBase core + 0, 0, 3, 0⟩
/-- TMB_CORE_STATUS.refused, R233. -/
def R.TMB_CORE_STATUS_refused (core : Nat) : Fld := ⟨coreBase core + 0, 3, 1, 0⟩
/-- TMB_CORE_STATUS.kernel_id, R233. -/
def R.TMB_CORE_STATUS_kernel_id (core : Nat) : Fld := ⟨coreBase core + 0, 8, 8, 0⟩
/-- TMB_CORE_CTRL.debug_en, R233. -/
def R.TMB_CORE_CTRL_debug_en (core : Nat) : Fld := ⟨coreBase core + 4, 0, 1, 0⟩
/-- TMB_CORE_CTRL.halt, R233. -/
def R.TMB_CORE_CTRL_halt (core : Nat) : Fld := ⟨coreBase core + 4, 1, 1, 0⟩
/-- TMB_CORE_CTRL.step, R233. -/
def R.TMB_CORE_CTRL_step (core : Nat) : Fld := ⟨coreBase core + 4, 2, 1, 0⟩
/-- TMB_CORE_CTRL.resume, R233. -/
def R.TMB_CORE_CTRL_resume (core : Nat) : Fld := ⟨coreBase core + 4, 3, 1, 0⟩
/-- TMB_CORE_CTRL.dbg_kernel, R233. -/
def R.TMB_CORE_CTRL_dbg_kernel (core : Nat) : Fld := ⟨coreBase core + 4, 8, 8, 0⟩
/-- TMB_CORE_FAULT.cause, R233. -/
def R.TMB_CORE_FAULT_cause (core : Nat) : Fld := ⟨coreBase core + 8, 0, 8, 0⟩
/-- TMB_CORE_FAULT.epc, R233. -/
def R.TMB_CORE_FAULT_epc (core : Nat) : Fld := ⟨coreBase core + 8, 8, 12, 0⟩
/-- TMB_CORE_FAULT.kernel_id, R233. -/
def R.TMB_CORE_FAULT_kernel_id (core : Nat) : Fld := ⟨coreBase core + 8, 20, 8, 0⟩
/-- TMB_CORE_FAULT.valid, R233. -/
def R.TMB_CORE_FAULT_valid (core : Nat) : Fld := ⟨coreBase core + 8, 31, 1, 0⟩
/-- TMB_DBG_BP.pc, R233. -/
def R.TMB_DBG_BP_pc (core : Nat) (n : Nat) : Fld := ⟨coreBase core + 16 + 4 * n, 0, 12, 0⟩
/-- TMB_DBG_BP.enable, R233. -/
def R.TMB_DBG_BP_enable (core : Nat) (n : Nat) : Fld := ⟨coreBase core + 16 + 4 * n, 12, 1, 0⟩
/-- TMB_DBG_SEL.space, R233. -/
def R.TMB_DBG_SEL_space (core : Nat) : Fld := ⟨coreBase core + 24, 0, 2, 0⟩
/-- TMB_DBG_SEL.index, R233. -/
def R.TMB_DBG_SEL_index (core : Nat) : Fld := ⟨coreBase core + 24, 2, 14, 0⟩
/-- TMB_DBG_DATA.data, R233. -/
def R.TMB_DBG_DATA_data (core : Nat) : Fld := ⟨coreBase core + 28, 0, 32, 0⟩
/-- CRSL_STATUS.in_flight, R251. -/
def R.CRSL_STATUS_in_flight : Fld := ⟨0x280000, 0, 18, 0⟩
/-- CRSL_STATUS.shadow_log2, R251. -/
def R.CRSL_STATUS_shadow_log2 : Fld := ⟨0x280000, 24, 4, 0⟩
/-- CRSL_BAY_FLIGHT.in_flight, R251. -/
def R.CRSL_BAY_FLIGHT_in_flight (bay : Nat) : Fld := ⟨0x280010 + 4 * bay, 0, 16, 0⟩
/-- CRSL_BAY_FLIGHT.peak, R251. -/
def R.CRSL_BAY_FLIGHT_peak (bay : Nat) : Fld := ⟨0x280010 + 4 * bay, 16, 16, 0⟩
/-- CRSL_QDEPTH.depth, R251. -/
def R.CRSL_QDEPTH_depth (cl : Nat) : Fld := ⟨0x290000 + 256 * cl, 0, 16, 0⟩
/-- CRSL_QDEPTH.full, R251. -/
def R.CRSL_QDEPTH_full (cl : Nat) : Fld := ⟨0x290000 + 256 * cl, 16, 1, 0⟩
/-- CRSL_QDEPTH.spill, R251. -/
def R.CRSL_QDEPTH_spill (cl : Nat) : Fld := ⟨0x290000 + 256 * cl, 17, 1, 0⟩
/-- CRSL_QCAP.capacity, R251. -/
def R.CRSL_QCAP_capacity (cl : Nat) : Fld := ⟨0x290004 + 256 * cl, 0, 16, 0⟩
/-- CRSL_QCAP.staged, R251. -/
def R.CRSL_QCAP_staged (cl : Nat) : Fld := ⟨0x290004 + 256 * cl, 16, 16, 0⟩
/-- CRSL_QTHRESH.level, R251. -/
def R.CRSL_QTHRESH_level (cl : Nat) : Fld := ⟨0x290008 + 256 * cl, 0, 16, 0⟩
/-- CRSL_QTHRESH.crossed, R251. -/
def R.CRSL_QTHRESH_crossed (cl : Nat) : Fld := ⟨0x290008 + 256 * cl, 16, 1, 0⟩
/-- CRSL_QECC_STATUS.corr, R251. -/
def R.CRSL_QECC_STATUS_corr (q : Nat) : Fld := ⟨0x2a0010 + 32 * q, 0, 1, 0⟩
/-- CRSL_QECC_STATUS.uncorr, R251. -/
def R.CRSL_QECC_STATUS_uncorr (q : Nat) : Fld := ⟨0x2a0010 + 32 * q, 1, 1, 0⟩
/-- VCT_TILE_STATUS.state, R279. -/
def R.VCT_TILE_STATUS_state (tile : Nat) : Fld := ⟨0x500000 + 16384 * tile, 0, 3, 0⟩
/-- VCT_TILE_STATUS.dec_busy, R279. -/
def R.VCT_TILE_STATUS_dec_busy (tile : Nat) : Fld := ⟨0x500000 + 16384 * tile, 3, 1, 0⟩
/-- VCT_TILE_STATUS.enc_busy, R279. -/
def R.VCT_TILE_STATUS_enc_busy (tile : Nat) : Fld := ⟨0x500000 + 16384 * tile, 4, 1, 0⟩
/-- VCT_TILE_STATUS.dec_sessions, R279. -/
def R.VCT_TILE_STATUS_dec_sessions (tile : Nat) : Fld := ⟨0x500000 + 16384 * tile, 8, 8, 0⟩
/-- VCT_TILE_STATUS.enc_sessions, R279. -/
def R.VCT_TILE_STATUS_enc_sessions (tile : Nat) : Fld := ⟨0x500000 + 16384 * tile, 16, 8, 0⟩
/-- VCT_TILE_STATUS.fw_bank, R279. -/
def R.VCT_TILE_STATUS_fw_bank (tile : Nat) : Fld := ⟨0x500000 + 16384 * tile, 24, 1, 0⟩
/-- VCT_TILE_DUTY.duty_of, R279. -/
def R.VCT_TILE_DUTY_duty_of (tile : Nat) : Fld := ⟨0x500004 + 16384 * tile, 0, 7, tile⟩
/-- VCT_TILE_DUTY.valid, R279. -/
def R.VCT_TILE_DUTY_valid (tile : Nat) : Fld := ⟨0x500004 + 16384 * tile, 7, 1, 0⟩
/-- VCT_TILE_LOAD.dec_load, R279. -/
def R.VCT_TILE_LOAD_dec_load (tile : Nat) : Fld := ⟨0x500008 + 16384 * tile, 0, 10, 0⟩
/-- VCT_TILE_LOAD.enc_load, R279. -/
def R.VCT_TILE_LOAD_enc_load (tile : Nat) : Fld := ⟨0x500008 + 16384 * tile, 16, 10, 0⟩
/-- VCT_TILE_FW_ACTIVE.version, R279. -/
def R.VCT_TILE_FW_ACTIVE_version (tile : Nat) : Fld := ⟨0x50000c + 16384 * tile, 0, 32, 0⟩
/-- VCT_TILE_FW_STANDBY.version, R279. -/
def R.VCT_TILE_FW_STANDBY_version (tile : Nat) : Fld := ⟨0x500010 + 16384 * tile, 0, 32, 0⟩
/-- VCT_RING_POOL.h264_dpb, R279. -/
def R.VCT_RING_POOL_h264_dpb (r : Nat) : Fld := ⟨0x501100 + 4 * r, 0, 4, 4⟩
/-- VCT_RING_POOL.hold, R279. -/
def R.VCT_RING_POOL_hold (r : Nat) : Fld := ⟨0x501100 + 4 * r, 4, 2, 2⟩
/-- VCT_SESS_SEL.stream, R279. -/
def R.VCT_SESS_SEL_stream (fn : Fn) : Fld := ⟨sessBase fn + 0, 0, 16, 0⟩
/-- VCT_SESS_SEL.owned, R279. -/
def R.VCT_SESS_SEL_owned (fn : Fn) : Fld := ⟨sessBase fn + 0, 16, 1, 0⟩
/-- VCT_SESS_STATUS.state, R279. -/
def R.VCT_SESS_STATUS_state (fn : Fn) : Fld := ⟨sessBase fn + 4, 0, 3, 0⟩
/-- VCT_SESS_STATUS.tile, R279. -/
def R.VCT_SESS_STATUS_tile (fn : Fn) : Fld := ⟨sessBase fn + 4, 3, 7, 0⟩
/-- VCT_SESS_STATUS.spatial, R279. -/
def R.VCT_SESS_STATUS_spatial (fn : Fn) : Fld := ⟨sessBase fn + 4, 10, 4, 0⟩
/-- VCT_SESS_STATUS.temporal, R279. -/
def R.VCT_SESS_STATUS_temporal (fn : Fn) : Fld := ⟨sessBase fn + 4, 14, 3, 0⟩
/-- VCT_SESS_STATUS.reason, R279. -/
def R.VCT_SESS_STATUS_reason (fn : Fn) : Fld := ⟨sessBase fn + 4, 17, 8, 0⟩
/-- VCT_SESS_POOL.frames, R279. -/
def R.VCT_SESS_POOL_frames (fn : Fn) : Fld := ⟨sessBase fn + 8, 0, 5, 0⟩
/-- VCT_SESS_POOL.in_use, R279. -/
def R.VCT_SESS_POOL_in_use (fn : Fn) : Fld := ⟨sessBase fn + 8, 8, 5, 0⟩
/-- VCT_SESS_POOL.ref, R279. -/
def R.VCT_SESS_POOL_ref (fn : Fn) : Fld := ⟨sessBase fn + 8, 16, 5, 0⟩
/-- VCT_SESS_POOL.held, R279. -/
def R.VCT_SESS_POOL_held (fn : Fn) : Fld := ⟨sessBase fn + 8, 24, 5, 0⟩
/-- VCT_SESS_OUT.release, R279. -/
def R.VCT_SESS_OUT_release (fn : Fn) : Fld := ⟨sessBase fn + 16, 0, 48, 0⟩
/-- VCT_SESS_OUT.flags, R279. -/
def R.VCT_SESS_OUT_flags (fn : Fn) : Fld := ⟨sessBase fn + 16, 48, 8, 0⟩
/-- VCT_ENC_SEL.encode, R299. -/
def R.VCT_ENC_SEL_encode (fn : Fn) : Fld := ⟨encBase fn + 0, 0, 10, 0⟩
/-- VCT_ENC_SEL.owned, R299. -/
def R.VCT_ENC_SEL_owned (fn : Fn) : Fld := ⟨encBase fn + 0, 16, 1, 0⟩
/-- VCT_ENC_STATUS.state, R299. -/
def R.VCT_ENC_STATUS_state (fn : Fn) : Fld := ⟨encBase fn + 4, 0, 2, 0⟩
/-- VCT_ENC_STATUS.tile, R299. -/
def R.VCT_ENC_STATUS_tile (fn : Fn) : Fld := ⟨encBase fn + 4, 2, 7, 0⟩
/-- VCT_ENC_STATUS.key_pending, R299. -/
def R.VCT_ENC_STATUS_key_pending (fn : Fn) : Fld := ⟨encBase fn + 4, 9, 1, 0⟩
/-- VCT_ENC_STATUS.deferred, R299. -/
def R.VCT_ENC_STATUS_deferred (fn : Fn) : Fld := ⟨encBase fn + 4, 10, 1, 0⟩
/-- VCT_ENC_STATUS.tpos, R299. -/
def R.VCT_ENC_STATUS_tpos (fn : Fn) : Fld := ⟨encBase fn + 4, 11, 2, 0⟩
/-- VCT_ENC_STATUS.adapt, R299. -/
def R.VCT_ENC_STATUS_adapt (fn : Fn) : Fld := ⟨encBase fn + 4, 13, 1, 0⟩
/-- VCT_ENC_MODEL.e_before, R299. -/
def R.VCT_ENC_MODEL_e_before (fn : Fn) : Fld := ⟨encBase fn + 8, 0, 32, 0⟩
/-- VCT_ENC_MODEL.bm, R299. -/
def R.VCT_ENC_MODEL_bm (fn : Fn) : Fld := ⟨encBase fn + 8, 32, 32, 0⟩
/-- VCT_ENC_LAST.bits, R299. -/
def R.VCT_ENC_LAST_bits (fn : Fn) : Fld := ⟨encBase fn + 16, 0, 32, 0⟩
/-- VCT_ENC_LAST.key, R299. -/
def R.VCT_ENC_LAST_key (fn : Fn) : Fld := ⟨encBase fn + 16, 32, 1, 0⟩
/-- VCT_ENC_LAST.switch, R299. -/
def R.VCT_ENC_LAST_switch (fn : Fn) : Fld := ⟨encBase fn + 16, 33, 1, 0⟩
/-- VCT_ENC_LAST.tail_clamped, R299. -/
def R.VCT_ENC_LAST_tail_clamped (fn : Fn) : Fld := ⟨encBase fn + 16, 34, 1, 0⟩
/-- VCT_ENC_LAST.repeated, R299. -/
def R.VCT_ENC_LAST_repeated (fn : Fn) : Fld := ⟨encBase fn + 16, 35, 1, 0⟩
/-- VCT_ENC_LAST.filler, R299. -/
def R.VCT_ENC_LAST_filler (fn : Fn) : Fld := ⟨encBase fn + 16, 36, 1, 0⟩
/-- VCT_ENC_LAST.tid, R299. -/
def R.VCT_ENC_LAST_tid (fn : Fn) : Fld := ⟨encBase fn + 16, 37, 2, 0⟩
/-- VCT_ENC_LAST.forced_rows, R299. -/
def R.VCT_ENC_LAST_forced_rows (fn : Fn) : Fld := ⟨encBase fn + 16, 40, 8, 0⟩
/-- VCT_ENC_LAST.avg_qp, R299. -/
def R.VCT_ENC_LAST_avg_qp (fn : Fn) : Fld := ⟨encBase fn + 16, 48, 8, 0⟩
/-- VCT_ENC_RATE.rate, R299. -/
def R.VCT_ENC_RATE_rate (fn : Fn) : Fld := ⟨encBase fn + 24, 0, 32, 0⟩
/-- FWD_STAGE_OP.op, R325. -/
def R.FWD_STAGE_OP_op (fn : Fn) : Fld := ⟨fwdBase fn + 0, 0, 3, 0⟩
/-- FWD_STAGE_OP.target, R325. -/
def R.FWD_STAGE_OP_target (fn : Fn) : Fld := ⟨fwdBase fn + 0, 16, 14, 0⟩
/-- FWD_STAGE_ARG0.source, R325. -/
def R.FWD_STAGE_ARG0_source (fn : Fn) : Fld := ⟨fwdBase fn + 4, 0, 14, 0⟩
/-- FWD_STAGE_ARG0.max_spatial, R325. -/
def R.FWD_STAGE_ARG0_max_spatial (fn : Fn) : Fld := ⟨fwdBase fn + 4, 14, 2, 0⟩
/-- FWD_STAGE_ARG0.max_temporal, R325. -/
def R.FWD_STAGE_ARG0_max_temporal (fn : Fn) : Fld := ⟨fwdBase fn + 4, 16, 2, 0⟩
/-- FWD_STAGE_ARG0.transcode_ok, R325. -/
def R.FWD_STAGE_ARG0_transcode_ok (fn : Fn) : Fld := ⟨fwdBase fn + 4, 18, 1, 0⟩
/-- FWD_STAGE_ARG0.canvas, R325. -/
def R.FWD_STAGE_ARG0_canvas (fn : Fn) : Fld := ⟨fwdBase fn + 4, 24, 8, 0⟩
/-- FWD_STAGE_ARG1.cap, R325. -/
def R.FWD_STAGE_ARG1_cap (fn : Fn) : Fld := ⟨fwdBase fn + 8, 0, 32, 0⟩
/-- FWD_STAGE_STAMP.stamp, R325. -/
def R.FWD_STAGE_STAMP_stamp (fn : Fn) : Fld := ⟨fwdBase fn + 16, 0, 48, 0⟩
/-- FWD_STAGE_CTRL.go, R325. -/
def R.FWD_STAGE_CTRL_go (fn : Fn) : Fld := ⟨fwdBase fn + 24, 0, 1, 0⟩
/-- FWD_STAGE_STATUS.armed, R325. -/
def R.FWD_STAGE_STATUS_armed (fn : Fn) : Fld := ⟨fwdBase fn + 28, 0, 1, 0⟩
/-- FWD_STAGE_STATUS.collision, R325. -/
def R.FWD_STAGE_STATUS_collision (fn : Fn) : Fld := ⟨fwdBase fn + 28, 1, 1, 0⟩
/-- FWD_STAGE_STATUS.late, R325. -/
def R.FWD_STAGE_STATUS_late (fn : Fn) : Fld := ⟨fwdBase fn + 28, 2, 1, 0⟩
/-- FWD_STAGE_STATUS.result, R325. -/
def R.FWD_STAGE_STATUS_result (fn : Fn) : Fld := ⟨fwdBase fn + 28, 4, 4, 15⟩
/-- FWD_STAGE_STATUS.lateness, R325. -/
def R.FWD_STAGE_STATUS_lateness (fn : Fn) : Fld := ⟨fwdBase fn + 28, 8, 24, 0⟩
/-- FWD_STAGE_EFFECT.stamp, R325. -/
def R.FWD_STAGE_EFFECT_stamp (fn : Fn) : Fld := ⟨fwdBase fn + 32, 0, 48, 0⟩
/-- FWD_LEG_SEL.leg, R325. -/
def R.FWD_LEG_SEL_leg (fn : Fn) : Fld := ⟨fwdBase fn + 64, 0, 14, 0⟩
/-- FWD_LEG_SEL.owned, R325. -/
def R.FWD_LEG_SEL_owned (fn : Fn) : Fld := ⟨fwdBase fn + 64, 16, 1, 0⟩
/-- FWD_LEG_STATUS.source, R325. -/
def R.FWD_LEG_STATUS_source (fn : Fn) : Fld := ⟨fwdBase fn + 68, 0, 14, 0⟩
/-- FWD_LEG_STATUS.cur_s, R325. -/
def R.FWD_LEG_STATUS_cur_s (fn : Fn) : Fld := ⟨fwdBase fn + 68, 14, 2, 0⟩
/-- FWD_LEG_STATUS.cur_t, R325. -/
def R.FWD_LEG_STATUS_cur_t (fn : Fn) : Fld := ⟨fwdBase fn + 68, 16, 2, 0⟩
/-- FWD_LEG_STATUS.pend_s, R325. -/
def R.FWD_LEG_STATUS_pend_s (fn : Fn) : Fld := ⟨fwdBase fn + 68, 18, 2, 0⟩
/-- FWD_LEG_STATUS.pend_t, R325. -/
def R.FWD_LEG_STATUS_pend_t (fn : Fn) : Fld := ⟨fwdBase fn + 68, 20, 2, 0⟩
/-- FWD_LEG_STATUS.pending, R325. -/
def R.FWD_LEG_STATUS_pending (fn : Fn) : Fld := ⟨fwdBase fn + 68, 22, 1, 0⟩
/-- FWD_LEG_STATUS.paused, R325. -/
def R.FWD_LEG_STATUS_paused (fn : Fn) : Fld := ⟨fwdBase fn + 68, 23, 1, 0⟩
/-- FWD_LEG_STATUS.fallback, R325. -/
def R.FWD_LEG_STATUS_fallback (fn : Fn) : Fld := ⟨fwdBase fn + 68, 24, 1, 0⟩
/-- FWD_LEG_STATUS.broken, R325. -/
def R.FWD_LEG_STATUS_broken (fn : Fn) : Fld := ⟨fwdBase fn + 68, 25, 1, 0⟩
/-- FWD_LEG_EST.a, R325. -/
def R.FWD_LEG_EST_a (fn : Fn) : Fld := ⟨fwdBase fn + 72, 0, 32, 0⟩
/-- FWD_LEG_EST.cap, R325. -/
def R.FWD_LEG_EST_cap (fn : Fn) : Fld := ⟨fwdBase fn + 72, 32, 32, 0⟩
/-- FWD_LEG_RATE.rr, R325. -/
def R.FWD_LEG_RATE_rr (fn : Fn) : Fld := ⟨fwdBase fn + 80, 0, 32, 0⟩
/-- FWD_LEG_RATE.v, R325. -/
def R.FWD_LEG_RATE_v (fn : Fn) : Fld := ⟨fwdBase fn + 80, 32, 32, 0⟩
/-- FWD_RW_SEL.stream, R325. -/
def R.FWD_RW_SEL_stream (fn : Fn) : Fld := ⟨fwdBase fn + 96, 0, 16, 0⟩
/-- FWD_RW_SEL.owned, R325. -/
def R.FWD_RW_SEL_owned (fn : Fn) : Fld := ⟨fwdBase fn + 96, 16, 1, 0⟩
/-- FWD_RW_STATUS.log2, R325. -/
def R.FWD_RW_STATUS_log2 (fn : Fn) : Fld := ⟨fwdBase fn + 100, 0, 4, 0⟩
/-- FWD_RW_STATUS.staged, R325. -/
def R.FWD_RW_STATUS_staged (fn : Fn) : Fld := ⟨fwdBase fn + 100, 4, 4, 0⟩
/-- FWD_RW_STATUS.valid, R325. -/
def R.FWD_RW_STATUS_valid (fn : Fn) : Fld := ⟨fwdBase fn + 100, 8, 4, 0⟩
/-- FWD_RW_STATUS.rwnd_mark_lost, R325. -/
def R.FWD_RW_STATUS_rwnd_mark_lost (fn : Fn) : Fld := ⟨fwdBase fn + 100, 12, 1, 0⟩
/-- FWD_RW_WPTR.seq, R325. -/
def R.FWD_RW_WPTR_seq (fn : Fn) : Fld := ⟨fwdBase fn + 104, 0, 32, 0⟩
/-- FWD_RW_RESIZE.stream, R325. -/
def R.FWD_RW_RESIZE_stream (fn : Fn) : Fld := ⟨fwdBase fn + 128, 0, 16, 0⟩
/-- FWD_RW_RESIZE.log2, R325. -/
def R.FWD_RW_RESIZE_log2 (fn : Fn) : Fld := ⟨fwdBase fn + 128, 16, 4, 0⟩
/-- FWD_RW_RESIZE.go, R325. -/
def R.FWD_RW_RESIZE_go (fn : Fn) : Fld := ⟨fwdBase fn + 128, 31, 1, 0⟩
/-- FWD_RW_MARK.seq, R325. -/
def R.FWD_RW_MARK_seq (fn : Fn) (m : Nat) : Fld := ⟨fwdBase fn + 112 + 4 * m, 0, 32, 0⟩
/-- FWD_LA_CFG.start_kbps, R325. -/
def R.FWD_LA_CFG_start_kbps (r : Nat) : Fld := ⟨0x621000 + 16 * r, 0, 16, 1000⟩
/-- FWD_LA_CFG.up_hold, R325. -/
def R.FWD_LA_CFG_up_hold (r : Nat) : Fld := ⟨0x621000 + 16 * r, 16, 8, 40⟩
/-- FWD_LA_THR.delay_thr, R325. -/
def R.FWD_LA_THR_delay_thr (r : Nat) : Fld := ⟨0x621004 + 16 * r, 0, 16, 5000⟩
/-- FWD_UNIT_STATUS.state, R325. -/
def R.FWD_UNIT_STATUS_state (bay : Nat) : Fld := ⟨0x623000 + 256 * bay, 0, 2, 0⟩
/-- FWD_UNIT_STATUS.legs, R325. -/
def R.FWD_UNIT_STATUS_legs (bay : Nat) : Fld := ⟨0x623000 + 256 * bay, 16, 14, 0⟩
/-- CMP_STATUS.state, R354. -/
def R.CMP_STATUS_state (k : Nat) : Fld := ⟨0x640000 + 65536 * k, 0, 2, 0⟩
/-- CMP_STATUS.busy, R354. -/
def R.CMP_STATUS_busy (k : Nat) : Fld := ⟨0x640000 + 65536 * k, 2, 1, 0⟩
/-- CMP_STATUS.canvases, R354. -/
def R.CMP_STATUS_canvases (k : Nat) : Fld := ⟨0x640000 + 65536 * k, 16, 9, 0⟩
/-- CMP_LOAD.load, R354. -/
def R.CMP_LOAD_load (k : Nat) : Fld := ⟨0x640004 + 65536 * k, 0, 11, 0⟩
/-- CMP_CV_SEL.canvas, R354. -/
def R.CMP_CV_SEL_canvas (fn : Fn) : Fld := ⟨cmpBase fn + 0, 0, 8, 0⟩
/-- CMP_CV_SEL.owned, R354. -/
def R.CMP_CV_SEL_owned (fn : Fn) : Fld := ⟨cmpBase fn + 0, 16, 1, 0⟩
/-- CMP_CV_STATUS.state, R354. -/
def R.CMP_CV_STATUS_state (fn : Fn) : Fld := ⟨cmpBase fn + 4, 0, 2, 0⟩
/-- CMP_CV_STATUS.compositor, R354. -/
def R.CMP_CV_STATUS_compositor (fn : Fn) : Fld := ⟨cmpBase fn + 4, 2, 2, 0⟩
/-- CMP_CV_STATUS.fallback_canvas, R354. -/
def R.CMP_CV_STATUS_fallback_canvas (fn : Fn) : Fld := ⟨cmpBase fn + 4, 4, 1, 0⟩
/-- CMP_CV_STATUS.dp_shown, R354. -/
def R.CMP_CV_STATUS_dp_shown (fn : Fn) : Fld := ⟨cmpBase fn + 4, 5, 1, 0⟩
/-- CMP_CV_STATUS.policy, R354. -/
def R.CMP_CV_STATUS_policy (fn : Fn) : Fld := ⟨cmpBase fn + 4, 6, 2, 0⟩
/-- CMP_CV_STATUS.sig_fail, R354. -/
def R.CMP_CV_STATUS_sig_fail (fn : Fn) : Fld := ⟨cmpBase fn + 4, 8, 1, 0⟩
/-- CMP_CV_STATUS.marquee, R354. -/
def R.CMP_CV_STATUS_marquee (fn : Fn) : Fld := ⟨cmpBase fn + 4, 9, 1, 0⟩
/-- CMP_CV_STATUS.layers, R354. -/
def R.CMP_CV_STATUS_layers (fn : Fn) : Fld := ⟨cmpBase fn + 4, 10, 6, 0⟩
/-- CMP_CV_STATUS.layout_gen, R354. -/
def R.CMP_CV_STATUS_layout_gen (fn : Fn) : Fld := ⟨cmpBase fn + 4, 16, 16, 0⟩
/-- CMP_CV_TICK.stamp, R354. -/
def R.CMP_CV_TICK_stamp (fn : Fn) : Fld := ⟨cmpBase fn + 8, 0, 48, 0⟩
/-- CMP_CV_SIG.computed, R354. -/
def R.CMP_CV_SIG_computed (fn : Fn) (n : Nat) : Fld := ⟨cmpBase fn + 16 + 8 * n, 0, 32, 0⟩
/-- CMP_CV_SIG.expected, R354. -/
def R.CMP_CV_SIG_expected (fn : Fn) (n : Nat) : Fld := ⟨cmpBase fn + 16 + 8 * n, 32, 32, 0⟩
/-- DP_CTRL.mode, R354. -/
def R.DP_CTRL_mode : Fld := ⟨0x680000, 0, 2, 1⟩
/-- DP_CTRL.canvas, R354. -/
def R.DP_CTRL_canvas : Fld := ⟨0x680000, 2, 8, 0⟩
/-- DP_CTRL.timing, R354. -/
def R.DP_CTRL_timing : Fld := ⟨0x680000, 10, 2, 1⟩
/-- DP_CTRL.rate, R354. -/
def R.DP_CTRL_rate : Fld := ⟨0x680000, 12, 1, 0⟩
/-- DP_CTRL.pattern, R354. -/
def R.DP_CTRL_pattern : Fld := ⟨0x680000, 13, 3, 3⟩
/-- DP_STATUS.state, R354. -/
def R.DP_STATUS_state : Fld := ⟨0x680004, 0, 3, 0⟩
/-- DP_STATUS.hpd, R354. -/
def R.DP_STATUS_hpd : Fld := ⟨0x680004, 3, 1, 0⟩
/-- DP_STATUS.lanes, R354. -/
def R.DP_STATUS_lanes : Fld := ⟨0x680004, 4, 2, 0⟩
/-- DP_STATUS.rate, R354. -/
def R.DP_STATUS_rate : Fld := ⟨0x680004, 6, 2, 0⟩
/-- DP_STATUS.pol_inv, R354. -/
def R.DP_STATUS_pol_inv : Fld := ⟨0x680004, 8, 4, 0⟩
/-- DP_STATUS.forced_diag, R354. -/
def R.DP_STATUS_forced_diag : Fld := ⟨0x680004, 12, 1, 1⟩
/-- DP_STATUS.refused, R354. -/
def R.DP_STATUS_refused : Fld := ⟨0x680004, 13, 1, 0⟩
/-- EGR_LINK_CFG.overhead, R367. -/
def R.EGR_LINK_CFG_overhead (link : Nat) : Fld := ⟨0x180000 + 256 * link, 0, 8, 24⟩
/-- EGR_LINK_MAC.mac, R367. -/
def R.EGR_LINK_MAC_mac (link : Nat) : Fld := ⟨0x180008 + 256 * link, 0, 48, 0⟩
/-- EGR_NTP_BASE.seconds, R367. -/
def R.EGR_NTP_BASE_seconds : Fld := ⟨0x181000, 0, 32, 0⟩
/-- EGR_HTX_RATE.rate, R367. -/
def R.EGR_HTX_RATE_rate : Fld := ⟨0x181008, 0, 16, 64⟩
/-- EGR_HTX_BASE.base, R367. -/
def R.EGR_HTX_BASE_base (fn : Fn) : Fld := ⟨htxBase fn + 0, 12, 52, 0⟩
/-- EGR_HTX_CFG.log2, R367. -/
def R.EGR_HTX_CFG_log2 (fn : Fn) : Fld := ⟨htxBase fn + 8, 0, 4, 6⟩
/-- EGR_HTX_CFG.slot_log2, R367. -/
def R.EGR_HTX_CFG_slot_log2 (fn : Fn) : Fld := ⟨htxBase fn + 8, 4, 4, 11⟩
/-- EGR_HTX_CFG.enable, R367. -/
def R.EGR_HTX_CFG_enable (fn : Fn) : Fld := ⟨htxBase fn + 8, 8, 1, 0⟩
/-- EGR_HTX_TAIL.tail, R367. -/
def R.EGR_HTX_TAIL_tail (fn : Fn) : Fld := ⟨htxBase fn + 12, 0, 12, 0⟩
/-- EGR_HTX_TAIL.head, R367. -/
def R.EGR_HTX_TAIL_head (fn : Fn) : Fld := ⟨htxBase fn + 12, 16, 12, 0⟩
/-- EGR_LEG_SEL.leg, R367. -/
def R.EGR_LEG_SEL_leg (fn : Fn) : Fld := ⟨egrBase fn + 0, 0, 14, 0⟩
/-- EGR_LEG_SEL.owned, R367. -/
def R.EGR_LEG_SEL_owned (fn : Fn) : Fld := ⟨egrBase fn + 0, 16, 1, 0⟩
/-- EGR_LEG_STATUS.queue, R367. -/
def R.EGR_LEG_STATUS_queue (fn : Fn) : Fld := ⟨egrBase fn + 4, 0, 2, 0⟩
/-- EGR_LEG_STATUS.path, R367. -/
def R.EGR_LEG_STATUS_path (fn : Fn) : Fld := ⟨egrBase fn + 4, 2, 1, 0⟩
/-- EGR_LEG_STATUS.waiting, R367. -/
def R.EGR_LEG_STATUS_waiting (fn : Fn) : Fld := ⟨egrBase fn + 4, 3, 10, 0⟩
/-- EGR_LEG_STATUS.deficit, R367. -/
def R.EGR_LEG_STATUS_deficit (fn : Fn) : Fld := ⟨egrBase fn + 4, 13, 1, 0⟩
/-- EGR_LEG_LEVEL.lv, R367. -/
def R.EGR_LEG_LEVEL_lv (fn : Fn) : Fld := ⟨egrBase fn + 8, 0, 64, 0⟩
/-- EGR_LEG_DC.dc, R367. -/
def R.EGR_LEG_DC_dc (fn : Fn) : Fld := ⟨egrBase fn + 16, 0, 32, 0⟩
/-- EGR_LEG_WMAX.wmax, R367. -/
def R.EGR_LEG_WMAX_wmax (fn : Fn) : Fld := ⟨egrBase fn + 20, 0, 32, 0⟩
/-- DDR_CH_STATUS.state, R386. -/
def R.DDR_CH_STATUS_state (ch : Nat) : Fld := ⟨0x6c0000 + 16384 * ch, 0, 3, 0⟩
/-- DDR_CH_STATUS.gib, R386. -/
def R.DDR_CH_STATUS_gib (ch : Nat) : Fld := ⟨0x6c0000 + 16384 * ch, 8, 6, 0⟩
/-- DDR_CH_STATUS.rate, R386. -/
def R.DDR_CH_STATUS_rate (ch : Nat) : Fld := ⟨0x6c0000 + 16384 * ch, 14, 2, 0⟩
/-- DDR_CH_STATUS.device_suspect, R386. -/
def R.DDR_CH_STATUS_device_suspect (ch : Nat) : Fld := ⟨0x6c0000 + 16384 * ch, 16, 1, 0⟩
/-- DDR_CH_CFG.idle, R386. -/
def R.DDR_CH_CFG_idle (ch : Nat) : Fld := ⟨0x6c0004 + 16384 * ch, 0, 8, 24⟩
/-- DDR_CH_CFG.scrub_lines, R386. -/
def R.DDR_CH_CFG_scrub_lines (ch : Nat) : Fld := ⟨0x6c0004 + 16384 * ch, 8, 4, 4⟩
/-- DDR_CH_RETRAIN.stamp, R386. -/
def R.DDR_CH_RETRAIN_stamp (ch : Nat) : Fld := ⟨0x6c0008 + 16384 * ch, 0, 48, 0⟩
/-- DDR_CH_RETRAIN.ns, R386. -/
def R.DDR_CH_RETRAIN_ns (ch : Nat) : Fld := ⟨0x6c0008 + 16384 * ch, 48, 10, 0⟩
/-- DDR_CH_REMAP.remapped, R386. -/
def R.DDR_CH_REMAP_remapped (ch : Nat) : Fld := ⟨0x6c0010 + 16384 * ch, 0, 32, 0⟩
/-- DDR_CH_REMAP.poisoned, R386. -/
def R.DDR_CH_REMAP_poisoned (ch : Nat) : Fld := ⟨0x6c0010 + 16384 * ch, 32, 32, 0⟩
/-- LDG_STATUS.healthy, R387. -/
def R.LDG_STATUS_healthy : Fld := ⟨0x7c0000, 0, 1, 0⟩
/-- LDG_STATUS.bank_a_valid, R387. -/
def R.LDG_STATUS_bank_a_valid : Fld := ⟨0x7c0000, 1, 1, 0⟩
/-- LDG_STATUS.bank_b_valid, R387. -/
def R.LDG_STATUS_bank_b_valid : Fld := ⟨0x7c0000, 2, 1, 0⟩
/-- LDG_STATUS.latest, R387. -/
def R.LDG_STATUS_latest : Fld := ⟨0x7c0000, 3, 1, 0⟩
/-- LDG_STATUS.saved_last_off, R387. -/
def R.LDG_STATUS_saved_last_off : Fld := ⟨0x7c0000, 4, 1, 0⟩
/-- LDG_STATUS.wear_warn, R387. -/
def R.LDG_STATUS_wear_warn : Fld := ⟨0x7c0000, 5, 1, 0⟩
/-- LDG_LOG_NEXT.next, R387. -/
def R.LDG_LOG_NEXT_next : Fld := ⟨0x7c0004, 0, 32, 0⟩
/-- LDG_LOG_OLDEST.oldest, R387. -/
def R.LDG_LOG_OLDEST_oldest : Fld := ⟨0x7c0008, 0, 32, 0⟩
/-- LDG_SAVE_STAMP.stamp, R387. -/
def R.LDG_SAVE_STAMP_stamp : Fld := ⟨0x7c0010, 0, 48, 0⟩
/-- LDG_STAMP_FLOOR.stamp, R387. -/
def R.LDG_STAMP_FLOOR_stamp : Fld := ⟨0x7c0018, 0, 48, 0⟩
/-- LDG_WIN_SEL.page, R387. -/
def R.LDG_WIN_SEL_page : Fld := ⟨0x7c0020, 0, 13, 0⟩
/-- DMA_CH_CFG.owner, R402. -/
def R.DMA_CH_CFG_owner (c : Nat) : Fld := ⟨0x700000 + 256 * c, 0, 8, 255⟩
/-- DMA_CH_CFG.ring_dev, R402. -/
def R.DMA_CH_CFG_ring_dev (c : Nat) : Fld := ⟨0x700000 + 256 * c, 8, 1, 0⟩
/-- DMA_CH_CFG.ring_log2, R402. -/
def R.DMA_CH_CFG_ring_log2 (c : Nat) : Fld := ⟨0x700000 + 256 * c, 12, 4, 6⟩
/-- DMA_CH_CFG.periph, R402. -/
def R.DMA_CH_CFG_periph (c : Nat) : Fld := ⟨0x700000 + 256 * c, 16, 5, 31⟩
/-- DMA_CH_BASE.base, R402. -/
def R.DMA_CH_BASE_base (c : Nat) : Fld := ⟨0x700008 + 256 * c, 12, 52, 0⟩
/-- DMA_CH_CTRL.enable, R402. -/
def R.DMA_CH_CTRL_enable (c : Nat) : Fld := ⟨0x700010 + 256 * c, 0, 1, 0⟩
/-- DMA_CH_CTRL.stop, R402. -/
def R.DMA_CH_CTRL_stop (c : Nat) : Fld := ⟨0x700010 + 256 * c, 1, 1, 0⟩
/-- DMA_CH_CTRL.abort, R402. -/
def R.DMA_CH_CTRL_abort (c : Nat) : Fld := ⟨0x700010 + 256 * c, 2, 1, 0⟩
/-- DMA_CH_CTRL.resume, R402. -/
def R.DMA_CH_CTRL_resume (c : Nat) : Fld := ⟨0x700010 + 256 * c, 3, 1, 0⟩
/-- DMA_CH_COUNT.count, R402. -/
def R.DMA_CH_COUNT_count (c : Nat) : Fld := ⟨0x700014 + 256 * c, 0, 16, 0⟩
/-- DMA_CH_ADD.add, R402. -/
def R.DMA_CH_ADD_add (c : Nat) : Fld := ⟨0x700018 + 256 * c, 0, 16, 0⟩
/-- DMA_CH_STATUS.state, R402. -/
def R.DMA_CH_STATUS_state (c : Nat) : Fld := ⟨0x70001c + 256 * c, 0, 3, 0⟩
/-- DMA_CH_STATUS.cfg_err, R402. -/
def R.DMA_CH_STATUS_cfg_err (c : Nat) : Fld := ⟨0x70001c + 256 * c, 3, 1, 0⟩
/-- DMA_CH_STATUS.code, R402. -/
def R.DMA_CH_STATUS_code (c : Nat) : Fld := ⟨0x70001c + 256 * c, 4, 4, 0⟩
/-- DMA_CH_STATUS.end_of_count, R402. -/
def R.DMA_CH_STATUS_end_of_count (c : Nat) : Fld := ⟨0x70001c + 256 * c, 8, 1, 0⟩
/-- DMA_CH_STATUS.add_overflow, R402. -/
def R.DMA_CH_STATUS_add_overflow (c : Nat) : Fld := ⟨0x70001c + 256 * c, 9, 1, 0⟩
/-- DMA_CH_STATUS.head, R402. -/
def R.DMA_CH_STATUS_head (c : Nat) : Fld := ⟨0x70001c + 256 * c, 16, 12, 0⟩
/-- FLT_STATUS.state, R422. -/
def R.FLT_STATUS_state : Fld := ⟨0x740000, 0, 2, 0⟩
/-- FLT_STATUS.bay_out, R422. -/
def R.FLT_STATUS_bay_out : Fld := ⟨0x740000, 4, 4, 0⟩
/-- FLT_STATUS.cover, R422. -/
def R.FLT_STATUS_cover : Fld := ⟨0x740000, 8, 7, 127⟩
/-- FLT_CFG.suspect_test, R422. -/
def R.FLT_CFG_suspect_test : Fld := ⟨0x740004, 0, 1, 1⟩
/-- FLT_BAY_STATUS.state, R422. -/
def R.FLT_BAY_STATUS_state (bay : Nat) : Fld := ⟨0x740010 + 4 * bay, 0, 3, 0⟩
/-- FLT_BAY_STATUS.tested, R422. -/
def R.FLT_BAY_STATUS_tested (bay : Nat) : Fld := ⟨0x740010 + 4 * bay, 3, 1, 0⟩
/-- FLT_BAY_STATUS.failed, R422. -/
def R.FLT_BAY_STATUS_failed (bay : Nat) : Fld := ⟨0x740010 + 4 * bay, 8, 8, 0⟩
/-- FLT_RM_STATUS.single, R422. -/
def R.FLT_RM_STATUS_single : Fld := ⟨0x740020, 0, 1, 0⟩
/-- FLT_RM_STATUS.core, R422. -/
def R.FLT_RM_STATUS_core : Fld := ⟨0x740020, 1, 1, 0⟩
/-- FLT_HEADROOM.headroom, R422. -/
def R.FLT_HEADROOM_headroom (n : Nat) : Fld := ⟨0x740040 + 4 * n, 0, 32, 0⟩
/-- PWR_STATUS.phase, R442. -/
def R.PWR_STATUS_phase : Fld := ⟨0x780000, 0, 4, 0⟩
/-- PWR_STATUS.last_stop, R442. -/
def R.PWR_STATUS_last_stop : Fld := ⟨0x780000, 4, 4, 0⟩
/-- PWR_BOOT_MS.ms, R442. -/
def R.PWR_BOOT_MS_ms : Fld := ⟨0x780004, 0, 16, 0⟩
/-- PWR_BOOT_FW.slot_a, R442. -/
def R.PWR_BOOT_FW_slot_a : Fld := ⟨0x780008, 0, 8, 0⟩
/-- PWR_BOOT_FW.slot_b, R442. -/
def R.PWR_BOOT_FW_slot_b : Fld := ⟨0x780008, 8, 8, 0⟩
/-- PWR_BOOT_FW.slot, R442. -/
def R.PWR_BOOT_FW_slot : Fld := ⟨0x780008, 16, 1, 0⟩
/-- PWR_RAIL.warn, R442. -/
def R.PWR_RAIL_warn : Fld := ⟨0x78000c, 0, 7, 0⟩
/-- PWR_RAIL.tripped, R442. -/
def R.PWR_RAIL_tripped : Fld := ⟨0x78000c, 8, 7, 0⟩
/-- PWR_HOLDUP_STATUS.state, R442. -/
def R.PWR_HOLDUP_STATUS_state : Fld := ⟨0x780010, 0, 3, 0⟩
/-- PWR_HOLDUP_STATUS.armed, R442. -/
def R.PWR_HOLDUP_STATUS_armed : Fld := ⟨0x780010, 3, 1, 0⟩
/-- PWR_HOLDUP_STATUS.sense, R442. -/
def R.PWR_HOLDUP_STATUS_sense : Fld := ⟨0x780010, 16, 16, 0⟩
/-- PWR_HOLDUP_MEAS.c, R442. -/
def R.PWR_HOLDUP_MEAS_c : Fld := ⟨0x780014, 0, 16, 0⟩
/-- PWR_HOLDUP_MEAS.esr, R442. -/
def R.PWR_HOLDUP_MEAS_esr : Fld := ⟨0x780014, 16, 16, 0⟩
/-- PWR_HOLDUP_CTRL.test, R442. -/
def R.PWR_HOLDUP_CTRL_test : Fld := ⟨0x780018, 0, 1, 0⟩
/-- PWR_HOLDUP_CTRL.disable, R442. -/
def R.PWR_HOLDUP_CTRL_disable : Fld := ⟨0x780018, 1, 1, 0⟩
/-- PWR_CLK_STATUS.ref, R442. -/
def R.PWR_CLK_STATUS_ref : Fld := ⟨0x780020, 0, 1, 0⟩
/-- PWR_CLK_STATUS.a_good, R442. -/
def R.PWR_CLK_STATUS_a_good : Fld := ⟨0x780020, 1, 1, 0⟩
/-- PWR_CLK_STATUS.b_good, R442. -/
def R.PWR_CLK_STATUS_b_good : Fld := ⟨0x780020, 2, 1, 0⟩
/-- PWR_CLK_STATUS.holdover, R442. -/
def R.PWR_CLK_STATUS_holdover : Fld := ⟨0x780020, 3, 1, 0⟩
/-- PWR_CLK_STATUS.keeper_osc, R442. -/
def R.PWR_CLK_STATUS_keeper_osc : Fld := ⟨0x780020, 4, 1, 1⟩
/-- PWR_CLK_CTRL.revert, R442. -/
def R.PWR_CLK_CTRL_revert : Fld := ⟨0x780024, 0, 1, 0⟩
/-- PWR_THERM_CFG.warn, R442. -/
def R.PWR_THERM_CFG_warn : Fld := ⟨0x78002c, 0, 8, 100⟩
/-- PWR_THERM_CFG.hyst, R442. -/
def R.PWR_THERM_CFG_hyst : Fld := ⟨0x78002c, 8, 4, 5⟩
/-- PWR_THERM.temp, R442. -/
def R.PWR_THERM_temp (n : Nat) : Fld := ⟨0x780030 + 4 * n, 0, 16, 0⟩
/-- PWR_THERM.warn, R442. -/
def R.PWR_THERM_warn (n : Nat) : Fld := ⟨0x780030 + 4 * n, 16, 1, 0⟩
/-- PWR_WDT_CFG.timeout, R442. -/
def R.PWR_WDT_CFG_timeout : Fld := ⟨0x780050, 0, 16, 1000⟩
/-- PWR_WDT_CFG.action, R442. -/
def R.PWR_WDT_CFG_action : Fld := ⟨0x780050, 16, 1, 0⟩
/-- PWR_WDT_KICK.kick, R442. -/
def R.PWR_WDT_KICK_kick : Fld := ⟨0x780054, 0, 1, 0⟩
/-- PWR_SPI_ADDR.addr, R442. -/
def R.PWR_SPI_ADDR_addr : Fld := ⟨0x780100, 0, 32, 0⟩
/-- PWR_SPI_CTRL.go, R442. -/
def R.PWR_SPI_CTRL_go : Fld := ⟨0x780104, 0, 1, 0⟩
/-- PWR_SPI_CTRL.op, R442. -/
def R.PWR_SPI_CTRL_op : Fld := ⟨0x780104, 1, 3, 0⟩
/-- PWR_SPI_STATUS.busy, R442. -/
def R.PWR_SPI_STATUS_busy : Fld := ⟨0x780108, 0, 1, 0⟩
/-- PWR_SPI_STATUS.collision, R442. -/
def R.PWR_SPI_STATUS_collision : Fld := ⟨0x780108, 1, 1, 0⟩
/-- PWR_SPI_STATUS.result, R442. -/
def R.PWR_SPI_STATUS_result : Fld := ⟨0x780108, 4, 4, 15⟩
/-- PWR_SPI_STATUS.reason, R442. -/
def R.PWR_SPI_STATUS_reason : Fld := ⟨0x780108, 8, 8, 0⟩
/-- PWR_SPI_BUF.word, R442. -/
def R.PWR_SPI_BUF_word (n : Nat) : Fld := ⟨0x781000 + 4 * n, 0, 32, 0⟩
/-- CAS_CFG.member, R458. -/
def R.CAS_CFG_member : Fld := ⟨0x800000, 0, 4, 0⟩
/-- CAS_CFG.local, R458. -/
def R.CAS_CFG_local : Fld := ⟨0x800000, 4, 4, 0⟩
/-- CAS_CFG.exch_blocks, R458. -/
def R.CAS_CFG_exch_blocks : Fld := ⟨0x800000, 8, 3, 2⟩
/-- CAS_CFG.udp_port, R458. -/
def R.CAS_CFG_udp_port : Fld := ⟨0x800000, 16, 16, 43936⟩
/-- CAS_STATUS.state, R458. -/
def R.CAS_STATUS_state : Fld := ⟨0x800004, 0, 2, 0⟩
/-- CAS_STATUS.members, R458. -/
def R.CAS_STATUS_members : Fld := ⟨0x800004, 16, 16, 0⟩
/-- CAS_KEY_CTRL.go, R458. -/
def R.CAS_KEY_CTRL_go : Fld := ⟨0x800010, 0, 1, 0⟩
/-- CAS_KEY_CTRL.op, R458. -/
def R.CAS_KEY_CTRL_op : Fld := ⟨0x800010, 1, 2, 0⟩
/-- CAS_KEY_STATUS.kcv, R458. -/
def R.CAS_KEY_STATUS_kcv : Fld := ⟨0x800014, 0, 24, 0⟩
/-- CAS_KEY_STATUS.valid, R458. -/
def R.CAS_KEY_STATUS_valid : Fld := ⟨0x800014, 24, 1, 0⟩
/-- CAS_KEY_STATUS.busy, R458. -/
def R.CAS_KEY_STATUS_busy : Fld := ⟨0x800014, 25, 1, 0⟩
/-- CAS_KEY_DATA.data, R458. -/
def R.CAS_KEY_DATA_data (n : Nat) : Fld := ⟨0x800020 + 4 * n, 0, 32, 0⟩
/-- CAS_STAGE_OP.op, R458. -/
def R.CAS_STAGE_OP_op : Fld := ⟨0x800100, 0, 3, 0⟩
/-- CAS_STAGE_OP.target, R458. -/
def R.CAS_STAGE_OP_target : Fld := ⟨0x800100, 16, 14, 0⟩
/-- CAS_STAGE_ARG.arg, R458. -/
def R.CAS_STAGE_ARG_arg : Fld := ⟨0x800104, 0, 16, 0⟩
/-- CAS_STAGE_STAMP.stamp, R458. -/
def R.CAS_STAGE_STAMP_stamp : Fld := ⟨0x800108, 0, 48, 0⟩
/-- CAS_STAGE_CTRL.go, R458. -/
def R.CAS_STAGE_CTRL_go : Fld := ⟨0x800110, 0, 1, 0⟩
/-- CAS_STAGE_STATUS.armed, R458. -/
def R.CAS_STAGE_STATUS_armed : Fld := ⟨0x800114, 0, 1, 0⟩
/-- CAS_STAGE_STATUS.collision, R458. -/
def R.CAS_STAGE_STATUS_collision : Fld := ⟨0x800114, 1, 1, 0⟩
/-- CAS_STAGE_STATUS.late, R458. -/
def R.CAS_STAGE_STATUS_late : Fld := ⟨0x800114, 2, 1, 0⟩
/-- CAS_STAGE_STATUS.result, R458. -/
def R.CAS_STAGE_STATUS_result : Fld := ⟨0x800114, 4, 4, 15⟩
/-- CAS_STAGE_STATUS.lateness, R458. -/
def R.CAS_STAGE_STATUS_lateness : Fld := ⟨0x800114, 8, 24, 0⟩
/-- CAS_PEER_ADDR0.addr, R458. -/
def R.CAS_PEER_ADDR0_addr (m : Nat) : Fld := ⟨0x801000 + 64 * m, 0, 32, 0⟩
/-- CAS_PEER_ADDR1.addr, R458. -/
def R.CAS_PEER_ADDR1_addr (m : Nat) : Fld := ⟨0x801004 + 64 * m, 0, 32, 0⟩
/-- CAS_PEER_ADDR2.addr, R458. -/
def R.CAS_PEER_ADDR2_addr (m : Nat) : Fld := ⟨0x801008 + 64 * m, 0, 32, 0⟩
/-- CAS_PEER_ADDR3.addr, R458. -/
def R.CAS_PEER_ADDR3_addr (m : Nat) : Fld := ⟨0x80100c + 64 * m, 0, 32, 0⟩
/-- CAS_PEER_CFG.valid, R458. -/
def R.CAS_PEER_CFG_valid (m : Nat) : Fld := ⟨0x801010 + 64 * m, 0, 1, 0⟩
/-- CAS_PEER_CFG.link_a, R458. -/
def R.CAS_PEER_CFG_link_a (m : Nat) : Fld := ⟨0x801010 + 64 * m, 1, 3, 0⟩
/-- CAS_PEER_CFG.link_b, R458. -/
def R.CAS_PEER_CFG_link_b (m : Nat) : Fld := ⟨0x801010 + 64 * m, 4, 3, 0⟩
/-- CAS_PEER_CFG.link_b_used, R458. -/
def R.CAS_PEER_CFG_link_b_used (m : Nat) : Fld := ⟨0x801010 + 64 * m, 7, 1, 0⟩
/-- CAS_PEER_MAC.mac, R458. -/
def R.CAS_PEER_MAC_mac (m : Nat) : Fld := ⟨0x801018 + 64 * m, 0, 48, 0⟩
/-- OBS_TRACE_BASE.base, R473. -/
def R.OBS_TRACE_BASE_base : Fld := ⟨0x840000, 12, 52, 0⟩
/-- OBS_TRACE_CFG.n, R473. -/
def R.OBS_TRACE_CFG_n : Fld := ⟨0x840008, 0, 5, 16⟩
/-- OBS_TRACE_CFG.enable, R473. -/
def R.OBS_TRACE_CFG_enable : Fld := ⟨0x840008, 5, 1, 0⟩
/-- OBS_TRACE_CFG.stop, R473. -/
def R.OBS_TRACE_CFG_stop : Fld := ⟨0x840008, 6, 1, 0⟩
/-- OBS_TRACE_CFG.freeze, R473. -/
def R.OBS_TRACE_CFG_freeze : Fld := ⟨0x840008, 7, 1, 0⟩
/-- OBS_TRACE_CFG.refused, R473. -/
def R.OBS_TRACE_CFG_refused : Fld := ⟨0x840008, 8, 1, 0⟩
/-- OBS_TRACE_NEXT.next, R473. -/
def R.OBS_TRACE_NEXT_next : Fld := ⟨0x84000c, 0, 32, 0⟩
/-- OBS_TRACE_MASK.mask, R473. -/
def R.OBS_TRACE_MASK_mask : Fld := ⟨0x840010, 0, 18, 262143⟩
/-- OBS_TEL_HEAD.head, R473. -/
def R.OBS_TEL_HEAD_head (fn : Fn) : Fld := ⟨obsBase fn + 0, 0, 8, 0⟩
/-- OBS_TEL_HEAD.next, R473. -/
def R.OBS_TEL_HEAD_next (fn : Fn) : Fld := ⟨obsBase fn + 0, 16, 8, 0⟩
/-- OBS_TEL_HEAD.phase, R473. -/
def R.OBS_TEL_HEAD_phase (fn : Fn) : Fld := ⟨obsBase fn + 0, 24, 1, 0⟩
/-- OBS_CAP_HEAD.head, R473. -/
def R.OBS_CAP_HEAD_head (fn : Fn) : Fld := ⟨obsBase fn + 8, 0, 35, 0⟩
/-- OBS_CAP_TAIL.tail, R473. -/
def R.OBS_CAP_TAIL_tail (fn : Fn) : Fld := ⟨obsBase fn + 16, 0, 35, 0⟩
/-- OBS_CSEL.id, R461. -/
def R.OBS_CSEL_id (fn : Fn) (k : Nat) : Fld := ⟨cselBase fn + 0 + 4 * k, 0, 16, 0⟩
/-- OBS_CSEL.owned, R461. -/
def R.OBS_CSEL_owned (fn : Fn) (k : Nat) : Fld := ⟨cselBase fn + 0 + 4 * k, 16, 1, 0⟩

/-- Registers, part 0. -/
def regTable0 : List RegDesc := [
  ⟨"FRM_STATUS", 0x40000, none, 0, 1, 0, 1, false, [⟨0, 3, .ro, 0, 0, 7⟩, ⟨3, 1, .ro, 0, 0, 1⟩, ⟨4, 1, .ro, 0, 0, 1⟩, ⟨5, 1, .ro, 0, 0, 1⟩, ⟨16, 8, .ro, 0, 0, 255⟩]⟩,
  ⟨"FRM_IMAGE_VER", 0x40004, none, 0, 1, 0, 1, false, [⟨0, 32, .ro, 0, 0, 4294967295⟩]⟩,
  ⟨"FRM_BOOT_INFO", 0x40008, none, 0, 1, 0, 1, false, [⟨0, 8, .ro, 0, 0, 255⟩, ⟨8, 8, .ro, 0, 0, 255⟩]⟩,
  ⟨"FRM_ERR", 0x4000c, none, 0, 1, 0, 1, false, [⟨0, 8, .ro, 0, 0, 255⟩, ⟨8, 8, .ro, 0, 0, 255⟩, ⟨16, 4, .ro, 0, 0, 15⟩, ⟨20, 1, .ro, 0, 0, 1⟩, ⟨31, 1, .w1c, 0, 0, 1⟩]⟩,
  ⟨"FRM_APPLY_STAMP", 0x40010, none, 0, 1, 0, 1, true, [⟨0, 48, .ro, 0, 0, 2 ^ 48 - 1⟩]⟩,
  ⟨"FRM_DEV_GEN", 0x40018, none, 0, 1, 0, 1, false, [⟨0, 24, .ro, 0, 0, 16777215⟩, ⟨24, 3, .ro, 0, 0, 7⟩, ⟨27, 1, .ro, 0, 0, 1⟩]⟩,
  ⟨"FRM_DIGEST", 0x40040, none, 4, 12, 0, 1, false, [⟨0, 32, .ro, 0, 0, 4294967295⟩]⟩,
  ⟨"FRM_RING_GEN", 0x40100, none, 4, 16, 0, 1, false, [⟨0, 24, .ro, 0, 0, 16777215⟩, ⟨24, 3, .ro, 0, 0, 7⟩, ⟨27, 1, .ro, 0, 0, 1⟩, ⟨28, 1, .ro, 0, 0, 1⟩]⟩,
  ⟨"FRM_SIGNER", 0x40200, none, 0, 1, 0, 1, false, [⟨0, 4, .ro, 0, 0, 15⟩, ⟨4, 4, .w1s, 0, 0, 15⟩, ⟨8, 2, .ro, 0, 0, 3⟩]⟩,
  ⟨"MBX_CTRL", 0x10000000808, none, 0, 1, 0, 1, false, [⟨0, 1, .w1s, 0, 0, 1⟩, ⟨1, 1, .ro, 0, 0, 1⟩, ⟨2, 1, .w1c, 0, 0, 1⟩, ⟨3, 1, .w1c, 0, 0, 1⟩]⟩,
  ⟨"GLB_ID", 0x0, none, 0, 1, 0, 1, false, [⟨0, 16, .ro, 5696, 0, 65535⟩, ⟨16, 4, .ro, 0, 0, 15⟩, ⟨20, 8, .ro, 177, 0, 255⟩]⟩,
  ⟨"GLB_BLOCK_STAMP", 0x8, none, 0, 1, 0, 1, true, [⟨0, 48, .ro, 0, 0, 2 ^ 48 - 1⟩, ⟨48, 5, .ro, 0, 0, 31⟩]⟩,
  ⟨"GLB_AON_CFG", 0x10, none, 0, 1, 0, 1, false, [⟨0, 1, .rw, 0, 0, 1⟩, ⟨1, 1, .rw, 0, 0, 1⟩]⟩,
  ⟨"CMD_SQ_BASE", 0x10000, some 0x0, 0, 1, 0, 1, true, [⟨12, 52, .rw, 0, 0, 2 ^ 52 - 1⟩]⟩,
  ⟨"CMD_CQ_BASE", 0x10008, some 0x8, 0, 1, 0, 1, true, [⟨12, 52, .rw, 0, 0, 2 ^ 52 - 1⟩]⟩,
  ⟨"CMD_RING_SIZE", 0x10010, some 0x10, 0, 1, 0, 1, false, [⟨0, 4, .rw, 6, 6, 12⟩, ⟨8, 4, .rw, 6, 6, 12⟩]⟩,
  ⟨"CMD_CTRL", 0x10014, some 0x14, 0, 1, 0, 1, false, [⟨0, 1, .rw, 0, 0, 1⟩]⟩,
  ⟨"CMD_STATUS", 0x10018, some 0x18, 0, 1, 0, 1, false, [⟨0, 1, .ro, 0, 0, 1⟩, ⟨1, 1, .w1c, 0, 0, 1⟩, ⟨2, 1, .w1c, 0, 0, 1⟩, ⟨3, 1, .w1c, 0, 0, 1⟩, ⟨4, 4, .ro, 0, 0, 15⟩, ⟨8, 9, .ro, 0, 0, 511⟩, ⟨17, 4, .ro, 0, 0, 15⟩, ⟨21, 1, .w1c, 0, 0, 1⟩]⟩,
  ⟨"CMD_SQ_TAIL", 0x1001c, some 0x1c, 0, 1, 0, 1, false, [⟨0, 12, .rw, 0, 0, 4095⟩]⟩,
  ⟨"CMD_SQ_HEAD", 0x10020, some 0x20, 0, 1, 0, 1, false, [⟨0, 12, .ro, 0, 0, 4095⟩]⟩]

/-- Registers, part 1. -/
def regTable1 : List RegDesc := [
  ⟨"CMD_CQ_HEAD", 0x10024, some 0x24, 0, 1, 0, 1, false, [⟨0, 12, .rw, 0, 0, 4095⟩]⟩,
  ⟨"CMD_CQ_TAIL", 0x10028, some 0x28, 0, 1, 0, 1, false, [⟨0, 12, .ro, 0, 0, 4095⟩, ⟨16, 1, .ro, 0, 0, 1⟩]⟩,
  ⟨"CMD_RESULT_ACK", 0x1002c, some 0x2c, 0, 1, 0, 1, false, [⟨0, 6, .wo, 0, 0, 63⟩]⟩,
  ⟨"INT_EVQ_BASE", 0x30000, some 6144, 64, 16, 0, 1, true, [⟨12, 52, .rw, 0, 0, 2 ^ 52 - 1⟩]⟩,
  ⟨"INT_EVQ_CFG", 0x30008, some 6152, 64, 16, 0, 1, false, [⟨0, 4, .rw, 6, 6, 14⟩, ⟨4, 1, .rw, 0, 0, 1⟩, ⟨16, 16, .rw, 0, 0, 65535⟩]⟩,
  ⟨"INT_EVQ_HEAD", 0x3000c, some 6156, 64, 16, 0, 1, false, [⟨0, 14, .rw, 0, 0, 16383⟩]⟩,
  ⟨"INT_EVQ_TAIL", 0x30010, some 6160, 64, 16, 0, 1, false, [⟨0, 14, .ro, 0, 0, 16383⟩, ⟨16, 1, .ro, 0, 0, 1⟩]⟩,
  ⟨"INT_EVQ_STATUS", 0x30014, some 6164, 64, 16, 0, 1, false, [⟨0, 16, .ro, 0, 0, 65535⟩, ⟨16, 1, .w1c, 0, 0, 1⟩]⟩,
  ⟨"INT_EVQ_ROUTE", 0x38000, none, 4, 18, 0, 1, false, [⟨0, 4, .rw, 0, 0, 15⟩]⟩,
  ⟨"ETH_MODE", 0x100000, none, 0, 1, 0, 1, false, [⟨0, 2, .ro, 0, 0, 3⟩]⟩,
  ⟨"ETH_LINK_CFG", 0x101000, none, 512, 8, 0, 1, false, [⟨0, 1, .rw, 1, 0, 1⟩, ⟨1, 1, .rw, 0, 0, 1⟩, ⟨2, 2, .rw, 0, 0, 3⟩, ⟨16, 16, .rw, 16, 0, 65535⟩]⟩,
  ⟨"ETH_LINK_STATUS", 0x101004, none, 512, 8, 0, 1, false, [⟨0, 3, .ro, 0, 0, 7⟩, ⟨3, 1, .w1c, 0, 0, 1⟩, ⟨4, 1, .ro, 0, 0, 1⟩, ⟨5, 8, .ro, 0, 0, 255⟩, ⟨13, 1, .ro, 0, 0, 1⟩]⟩,
  ⟨"ETH_PTP_CFG", 0x103000, none, 0, 1, 0, 1, false, [⟨0, 1, .rw, 0, 0, 1⟩]⟩,
  ⟨"ETH_PTP_NS", 0x103004, none, 0, 1, 0, 1, false, [⟨0, 30, .rw, 0, 0, 1073741823⟩]⟩,
  ⟨"ETH_PTP_SEC", 0x103008, none, 0, 1, 0, 1, true, [⟨0, 48, .rw, 0, 0, 2 ^ 48 - 1⟩]⟩,
  ⟨"ETH_PTP_STEP", 0x103010, none, 0, 1, 0, 1, true, [⟨0, 64, .wo, 0, 0, 2 ^ 64 - 1⟩]⟩,
  ⟨"ETH_PTP_FREQ", 0x103018, none, 0, 1, 0, 1, false, [⟨0, 32, .rw, 0, 0, 4294967295⟩]⟩,
  ⟨"ETH_PTP_STATUS", 0x10301c, none, 0, 1, 0, 1, false, [⟨0, 1, .ro, 0, 0, 1⟩, ⟨1, 1, .ro, 0, 0, 1⟩]⟩,
  ⟨"ETH_PTP_STAMP_OFFSET", 0x103020, none, 0, 1, 0, 1, true, [⟨0, 64, .ro, 0, 0, 2 ^ 64 - 1⟩]⟩,
  ⟨"ETH_PTP_PHASE", 0x103028, none, 0, 1, 0, 1, false, [⟨0, 32, .ro, 0, 0, 4294967295⟩]⟩]

/-- Registers, part 2. -/
def regTable2 : List RegDesc := [
  ⟨"ING_LOCAL_ADDR0", 0x140000, none, 32, 16, 0, 1, false, [⟨0, 32, .rw, 0, 0, 4294967295⟩]⟩,
  ⟨"ING_LOCAL_ADDR1", 0x140004, none, 32, 16, 0, 1, false, [⟨0, 32, .rw, 0, 0, 4294967295⟩]⟩,
  ⟨"ING_LOCAL_ADDR2", 0x140008, none, 32, 16, 0, 1, false, [⟨0, 32, .rw, 0, 0, 4294967295⟩]⟩,
  ⟨"ING_LOCAL_ADDR3", 0x14000c, none, 32, 16, 0, 1, false, [⟨0, 32, .rw, 0, 0, 4294967295⟩]⟩,
  ⟨"ING_LOCAL", 0x140010, none, 32, 16, 0, 1, false, [⟨0, 1, .rw, 0, 0, 1⟩, ⟨16, 16, .rw, 0, 0, 65535⟩]⟩,
  ⟨"ING_TS_CFG", 0x140200, none, 0, 1, 0, 1, false, [⟨0, 8, .rw, 64, 1, 255⟩]⟩,
  ⟨"ING_EXC_BASE", 0x140208, some 0x3100, 0, 1, 0, 1, true, [⟨12, 52, .rw, 0, 0, 2 ^ 52 - 1⟩]⟩,
  ⟨"ING_EXC_CFG", 0x140210, some 0x3108, 0, 1, 0, 1, false, [⟨0, 4, .rw, 6, 6, 12⟩, ⟨4, 4, .rw, 11, 11, 14⟩, ⟨8, 1, .rw, 0, 0, 1⟩]⟩,
  ⟨"ING_EXC_HEAD", 0x140214, some 0x310c, 0, 1, 0, 1, false, [⟨0, 12, .rw, 0, 0, 4095⟩]⟩,
  ⟨"ING_EXC_TAIL", 0x140218, some 0x3110, 0, 1, 0, 1, false, [⟨0, 12, .ro, 0, 0, 4095⟩, ⟨16, 1, .ro, 0, 0, 1⟩]⟩,
  ⟨"ING_EXC_RATE", 0x14021c, none, 0, 1, 0, 1, false, [⟨0, 16, .rw, 256, 0, 65535⟩]⟩,
  ⟨"ING_JR_RESIZE", 0x140220, none, 0, 1, 0, 1, false, [⟨0, 16, .wo, 0, 0, 65535⟩, ⟨16, 4, .wo, 0, 0, 15⟩, ⟨31, 1, .wo, 0, 0, 1⟩]⟩,
  ⟨"ING_STEER", 0x141000, none, 4, 256, 0, 1, false, [⟨0, 32, .ro, 0, 0, 4294967295⟩]⟩,
  ⟨"KEY_LOAD_CTRL", 0x80000, some 0x3200, 0, 1, 0, 1, false, [⟨0, 1, .wo, 0, 0, 1⟩, ⟨1, 2, .wo, 0, 0, 3⟩]⟩,
  ⟨"KEY_LOAD_SLOT", 0x80004, some 0x3204, 0, 1, 0, 1, false, [⟨0, 16, .rw, 0, 0, 65535⟩, ⟨16, 8, .rw, 0, 0, 255⟩]⟩,
  ⟨"KEY_LOAD_STATUS", 0x80008, some 0x3208, 0, 1, 0, 1, false, [⟨0, 1, .ro, 0, 0, 1⟩, ⟨1, 1, .w1c, 0, 0, 1⟩, ⟨4, 4, .ro, 15, 0, 15⟩, ⟨8, 12, .ro, 0, 0, 4095⟩]⟩,
  ⟨"KEY_LOAD_KCV", 0x8000c, some 0x320c, 0, 1, 0, 1, false, [⟨0, 24, .ro, 0, 0, 16777215⟩]⟩,
  ⟨"KEY_LOAD_DATA", 0x80010, some 0x3210, 4, 12, 0, 1, false, [⟨0, 32, .wo, 0, 0, 4294967295⟩]⟩,
  ⟨"KEY_SLOT_QSEL", 0x80100, some 0x3300, 0, 1, 0, 1, false, [⟨0, 16, .rw, 0, 0, 65535⟩, ⟨16, 1, .ro, 0, 0, 1⟩]⟩,
  ⟨"KEY_SLOT_QINFO", 0x80104, some 0x3304, 0, 1, 0, 1, false, [⟨0, 1, .ro, 0, 0, 1⟩, ⟨1, 1, .ro, 0, 0, 1⟩, ⟨8, 8, .ro, 0, 0, 255⟩, ⟨16, 16, .ro, 0, 0, 65535⟩]⟩]

/-- Registers, part 3. -/
def regTable3 : List RegDesc := [
  ⟨"KEY_SLOT_QKCV", 0x80108, some 0x3308, 0, 1, 0, 1, false, [⟨0, 24, .ro, 0, 0, 16777215⟩]⟩,
  ⟨"KEY_COUNT_VALID", 0x80200, none, 0, 1, 0, 1, false, [⟨0, 17, .ro, 0, 0, 131071⟩]⟩,
  ⟨"KEY_ZEROISE_STATUS", 0x80204, none, 0, 1, 0, 1, false, [⟨0, 4, .ro, 0, 0, 15⟩, ⟨4, 4, .ro, 0, 0, 15⟩]⟩,
  ⟨"CIPH_SCA_CFG", 0xc0000, none, 0, 1, 0, 1, false, [⟨0, 1, .rw, 1, 0, 1⟩, ⟨1, 1, .rw, 1, 0, 1⟩]⟩,
  ⟨"CIPH_RNG_STATUS", 0xc0004, none, 0, 1, 0, 1, false, [⟨0, 1, .ro, 0, 0, 1⟩, ⟨1, 1, .w1c, 0, 0, 1⟩]⟩,
  ⟨"CIPH_ENG_STATUS", 0xc1000, none, 256, 8, 0, 1, false, [⟨0, 2, .ro, 0, 0, 3⟩, ⟨16, 14, .ro, 0, 0, 16383⟩]⟩,
  ⟨"AUD_ACT_SEL", 0x200000, some 0x3400, 0, 1, 0, 1, false, [⟨0, 12, .rw, 0, 0, 4095⟩, ⟨16, 1, .ro, 0, 0, 1⟩]⟩,
  ⟨"AUD_ACT_STATUS", 0x200004, some 0x3404, 0, 1, 0, 1, false, [⟨0, 1, .ro, 0, 0, 1⟩, ⟨1, 1, .ro, 0, 0, 1⟩, ⟨2, 4, .ro, 0, 0, 15⟩, ⟨6, 4, .ro, 0, 0, 15⟩, ⟨10, 1, .ro, 0, 0, 1⟩, ⟨16, 16, .ro, 0, 0, 65535⟩]⟩,
  ⟨"AUD_ACT_SPK", 0x200010, some 0x3410, 4, 8, 0, 1, false, [⟨0, 14, .ro, 0, 0, 16383⟩, ⟨14, 1, .ro, 0, 0, 1⟩, ⟨15, 1, .ro, 0, 0, 1⟩, ⟨16, 7, .ro, 0, 0, 127⟩, ⟨23, 1, .ro, 0, 0, 1⟩]⟩,
  ⟨"AUD_LEG_SEL", 0x200040, some 0x3440, 0, 1, 0, 1, false, [⟨0, 14, .rw, 0, 0, 16383⟩, ⟨16, 1, .ro, 0, 0, 1⟩]⟩,
  ⟨"AUD_LEG_STATUS", 0x200044, some 0x3444, 0, 1, 0, 1, false, [⟨0, 1, .ro, 0, 0, 1⟩, ⟨1, 1, .ro, 0, 0, 1⟩, ⟨2, 1, .ro, 0, 0, 1⟩, ⟨3, 1, .ro, 0, 0, 1⟩, ⟨4, 1, .ro, 0, 0, 1⟩, ⟨5, 1, .ro, 0, 0, 1⟩, ⟨6, 1, .ro, 0, 0, 1⟩, ⟨7, 7, .ro, 0, 0, 127⟩, ⟨14, 7, .ro, 0, 0, 127⟩, ⟨21, 4, .ro, 0, 0, 15⟩]⟩,
  ⟨"AUD_LEG_METER", 0x200048, some 0x3448, 0, 1, 0, 1, false, [⟨0, 16, .ro, 32768, 0, 65535⟩, ⟨16, 16, .ro, 32768, 0, 65535⟩]⟩,
  ⟨"AUD_LEG_HOLD", 0x20004c, some 0x344c, 0, 1, 0, 1, false, [⟨0, 16, .ro, 32768, 0, 65535⟩]⟩,
  ⟨"AUD_UNIT_STATUS", 0x202000, none, 256, 4, 0, 1, false, [⟨0, 2, .ro, 0, 0, 3⟩, ⟨16, 14, .ro, 0, 0, 16383⟩]⟩,
  ⟨"SRC_STAGE_OP", 0x240000, some 0x3500, 0, 1, 0, 1, false, [⟨0, 2, .rw, 0, 0, 3⟩, ⟨2, 14, .rw, 0, 0, 16383⟩]⟩,
  ⟨"SRC_STAGE_ARG", 0x240004, some 0x3504, 0, 1, 0, 1, false, [⟨0, 8, .rw, 0, 0, 255⟩, ⟨8, 2, .rw, 0, 0, 3⟩, ⟨10, 7, .rw, 0, 0, 127⟩, ⟨17, 7, .rw, 0, 0, 127⟩, ⟨24, 2, .rw, 0, 0, 3⟩]⟩,
  ⟨"SRC_STAGE_STAMP", 0x240008, some 0x3508, 0, 1, 0, 1, true, [⟨0, 48, .rw, 0, 0, 2 ^ 48 - 1⟩]⟩,
  ⟨"SRC_STAGE_CTRL", 0x240010, some 0x3510, 0, 1, 0, 1, false, [⟨0, 1, .wo, 0, 0, 1⟩]⟩,
  ⟨"SRC_STAGE_STATUS", 0x240014, some 0x3514, 0, 1, 0, 1, false, [⟨0, 1, .ro, 0, 0, 1⟩, ⟨1, 1, .w1c, 0, 0, 1⟩, ⟨2, 1, .ro, 0, 0, 1⟩, ⟨4, 4, .ro, 15, 0, 15⟩, ⟨8, 24, .ro, 0, 0, 16777215⟩]⟩,
  ⟨"SRC_STAGE_EFFECT", 0x240018, some 0x3518, 0, 1, 0, 1, true, [⟨0, 48, .ro, 0, 0, 2 ^ 48 - 1⟩]⟩]

/-- Registers, part 4. -/
def regTable4 : List RegDesc := [
  ⟨"SRC_BANK_SEL", 0x240100, none, 0, 1, 0, 1, false, [⟨0, 3, .rw, 0, 0, 7⟩]⟩,
  ⟨"SRC_BANK_CFG", 0x240104, none, 0, 1, 0, 1, false, [⟨0, 2, .rw, 0, 0, 3⟩, ⟨4, 8, .rw, 0, 0, 255⟩, ⟨16, 16, .rw, 0, 0, 65535⟩]⟩,
  ⟨"SRC_BANK_COEF", 0x240108, none, 0, 1, 0, 1, false, [⟨0, 25, .wo, 0, 0, 33554431⟩]⟩,
  ⟨"SRC_BANK_CTRL", 0x24010c, none, 0, 1, 0, 1, false, [⟨0, 1, .wo, 0, 0, 1⟩, ⟨1, 2, .wo, 0, 0, 3⟩]⟩,
  ⟨"SRC_BANK_STATUS", 0x240110, none, 0, 1, 0, 1, false, [⟨0, 2, .ro, 0, 0, 3⟩, ⟨2, 10, .ro, 0, 0, 1023⟩, ⟨12, 4, .ro, 15, 0, 15⟩, ⟨16, 12, .ro, 0, 0, 4095⟩]⟩,
  ⟨"SRC_TDM_CFG", 0x241000, none, 256, 4, 0, 1, false, [⟨0, 1, .rw, 0, 0, 1⟩, ⟨1, 1, .rw, 1, 0, 1⟩, ⟨2, 1, .rw, 1, 0, 1⟩, ⟨3, 1, .rw, 0, 0, 1⟩, ⟨4, 1, .rw, 0, 0, 1⟩, ⟨5, 1, .rw, 1, 0, 1⟩, ⟨8, 5, .rw, 0, 0, 31⟩, ⟨16, 5, .rw, 0, 0, 31⟩]⟩,
  ⟨"SRC_TDM_STATUS", 0x241004, none, 256, 4, 0, 1, false, [⟨0, 3, .ro, 0, 0, 7⟩, ⟨3, 1, .ro, 0, 0, 1⟩, ⟨4, 1, .ro, 0, 0, 1⟩, ⟨8, 2, .ro, 0, 0, 3⟩, ⟨10, 2, .ro, 0, 0, 3⟩, ⟨12, 2, .ro, 0, 0, 3⟩, ⟨14, 2, .ro, 0, 0, 3⟩]⟩,
  ⟨"SRC_TDM_CLKCNT", 0x241008, none, 256, 4, 0, 1, false, [⟨0, 16, .ro, 0, 0, 65535⟩, ⟨16, 8, .ro, 0, 0, 255⟩]⟩,
  ⟨"SRC_TDM_OWN", 0x242000, none, 128, 4, 4, 32, false, [⟨0, 32, .rw, 4294967295, 0, 4294967295⟩]⟩,
  ⟨"TMB_CL_STATUS", 0x300000, none, 65536, 32, 0, 1, false, [⟨0, 5, .ro, 0, 0, 31⟩, ⟨5, 1, .ro, 0, 0, 1⟩, ⟨16, 16, .ro, 0, 0, 65535⟩]⟩,
  ⟨"TMB_CORE_STATUS", 0x301000, none, 65536, 32, 256, 17, false, [⟨0, 3, .ro, 0, 0, 7⟩, ⟨3, 1, .w1c, 0, 0, 1⟩, ⟨8, 8, .ro, 0, 0, 255⟩]⟩,
  ⟨"TMB_CORE_CTRL", 0x301004, none, 65536, 32, 256, 17, false, [⟨0, 1, .rw, 0, 0, 1⟩, ⟨1, 1, .w1s, 0, 0, 1⟩, ⟨2, 1, .w1s, 0, 0, 1⟩, ⟨3, 1, .w1s, 0, 0, 1⟩, ⟨8, 8, .rw, 0, 0, 255⟩]⟩,
  ⟨"TMB_CORE_FAULT", 0x301008, none, 65536, 32, 256, 17, false, [⟨0, 8, .ro, 0, 0, 255⟩, ⟨8, 12, .ro, 0, 0, 4095⟩, ⟨20, 8, .ro, 0, 0, 255⟩, ⟨31, 1, .w1c, 0, 0, 1⟩]⟩,
  ⟨"TMB_DBG_BP", 0x301010, none, 65536, 32, 256, 17, false, [⟨0, 12, .rw, 0, 0, 4095⟩, ⟨12, 1, .rw, 0, 0, 1⟩]⟩,
  ⟨"TMB_DBG_BP", 0x301014, none, 65536, 32, 256, 17, false, [⟨0, 12, .rw, 0, 0, 4095⟩, ⟨12, 1, .rw, 0, 0, 1⟩]⟩,
  ⟨"TMB_DBG_SEL", 0x301018, none, 65536, 32, 256, 17, false, [⟨0, 2, .rw, 0, 0, 3⟩, ⟨2, 14, .rw, 0, 0, 16383⟩]⟩,
  ⟨"TMB_DBG_DATA", 0x30101c, none, 65536, 32, 256, 17, false, [⟨0, 32, .rw, 0, 0, 4294967295⟩]⟩,
  ⟨"CRSL_STATUS", 0x280000, none, 0, 1, 0, 1, false, [⟨0, 18, .ro, 0, 0, 262143⟩, ⟨24, 4, .ro, 0, 0, 15⟩]⟩,
  ⟨"CRSL_BAY_FLIGHT", 0x280010, none, 4, 4, 0, 1, false, [⟨0, 16, .ro, 0, 0, 65535⟩, ⟨16, 16, .ro, 0, 0, 65535⟩]⟩,
  ⟨"CRSL_QDEPTH", 0x290000, none, 256, 32, 0, 1, false, [⟨0, 16, .ro, 0, 0, 65535⟩, ⟨16, 1, .ro, 0, 0, 1⟩, ⟨17, 1, .ro, 0, 0, 1⟩]⟩]

/-- Registers, part 5. -/
def regTable5 : List RegDesc := [
  ⟨"CRSL_QCAP", 0x290004, none, 256, 32, 0, 1, false, [⟨0, 16, .ro, 0, 0, 65535⟩, ⟨16, 16, .ro, 0, 0, 65535⟩]⟩,
  ⟨"CRSL_QTHRESH", 0x290008, none, 256, 32, 0, 1, false, [⟨0, 16, .rw, 0, 0, 65535⟩, ⟨16, 1, .w1c, 0, 0, 1⟩]⟩,
  ⟨"CRSL_QECC_STATUS", 0x2a0010, none, 32, 64, 0, 1, false, [⟨0, 1, .w1c, 0, 0, 1⟩, ⟨1, 1, .w1c, 0, 0, 1⟩]⟩,
  ⟨"VCT_TILE_STATUS", 0x500000, none, 16384, 68, 0, 1, false, [⟨0, 3, .ro, 0, 0, 7⟩, ⟨3, 1, .ro, 0, 0, 1⟩, ⟨4, 1, .ro, 0, 0, 1⟩, ⟨8, 8, .ro, 0, 0, 255⟩, ⟨16, 8, .ro, 0, 0, 255⟩, ⟨24, 1, .ro, 0, 0, 1⟩]⟩,
  ⟨"VCT_TILE_DUTY", 0x500004, none, 16384, 68, 0, 1, false, [⟨0, 7, .ro, 0, 0, 127⟩, ⟨7, 1, .ro, 0, 0, 1⟩]⟩,
  ⟨"VCT_TILE_LOAD", 0x500008, none, 16384, 68, 0, 1, false, [⟨0, 10, .ro, 0, 0, 1023⟩, ⟨16, 10, .ro, 0, 0, 1023⟩]⟩,
  ⟨"VCT_TILE_FW_ACTIVE", 0x50000c, none, 16384, 68, 0, 1, false, [⟨0, 32, .ro, 0, 0, 4294967295⟩]⟩,
  ⟨"VCT_TILE_FW_STANDBY", 0x500010, none, 16384, 68, 0, 1, false, [⟨0, 32, .ro, 0, 0, 4294967295⟩]⟩,
  ⟨"VCT_RING_POOL", 0x501100, none, 4, 16, 0, 1, false, [⟨0, 4, .rw, 4, 1, 13⟩, ⟨4, 2, .rw, 2, 1, 3⟩]⟩,
  ⟨"VCT_SESS_SEL", 0x501000, some 0x3610, 0, 1, 0, 1, false, [⟨0, 16, .rw, 0, 0, 65535⟩, ⟨16, 1, .ro, 0, 0, 1⟩]⟩,
  ⟨"VCT_SESS_STATUS", 0x501004, some 0x3614, 0, 1, 0, 1, false, [⟨0, 3, .ro, 0, 0, 7⟩, ⟨3, 7, .ro, 0, 0, 127⟩, ⟨10, 4, .ro, 0, 0, 15⟩, ⟨14, 3, .ro, 0, 0, 7⟩, ⟨17, 8, .ro, 0, 0, 255⟩]⟩,
  ⟨"VCT_SESS_POOL", 0x501008, some 0x3618, 0, 1, 0, 1, false, [⟨0, 5, .ro, 0, 0, 31⟩, ⟨8, 5, .ro, 0, 0, 31⟩, ⟨16, 5, .ro, 0, 0, 31⟩, ⟨24, 5, .ro, 0, 0, 31⟩]⟩,
  ⟨"VCT_SESS_OUT", 0x501010, some 0x3620, 0, 1, 0, 1, true, [⟨0, 48, .ro, 0, 0, 2 ^ 48 - 1⟩, ⟨48, 8, .ro, 0, 0, 255⟩]⟩,
  ⟨"VCT_ENC_SEL", 0x501040, some 0x3640, 0, 1, 0, 1, false, [⟨0, 10, .rw, 0, 0, 1023⟩, ⟨16, 1, .ro, 0, 0, 1⟩]⟩,
  ⟨"VCT_ENC_STATUS", 0x501044, some 0x3644, 0, 1, 0, 1, false, [⟨0, 2, .ro, 0, 0, 3⟩, ⟨2, 7, .ro, 0, 0, 127⟩, ⟨9, 1, .ro, 0, 0, 1⟩, ⟨10, 1, .ro, 0, 0, 1⟩, ⟨11, 2, .ro, 0, 0, 3⟩, ⟨13, 1, .ro, 0, 0, 1⟩]⟩,
  ⟨"VCT_ENC_MODEL", 0x501048, some 0x3648, 0, 1, 0, 1, true, [⟨0, 32, .ro, 0, 0, 4294967295⟩, ⟨32, 32, .ro, 0, 0, 4294967295⟩]⟩,
  ⟨"VCT_ENC_LAST", 0x501050, some 0x3650, 0, 1, 0, 1, true, [⟨0, 32, .ro, 0, 0, 4294967295⟩, ⟨32, 1, .ro, 0, 0, 1⟩, ⟨33, 1, .ro, 0, 0, 1⟩, ⟨34, 1, .ro, 0, 0, 1⟩, ⟨35, 1, .ro, 0, 0, 1⟩, ⟨36, 1, .ro, 0, 0, 1⟩, ⟨37, 2, .ro, 0, 0, 3⟩, ⟨40, 8, .ro, 0, 0, 255⟩, ⟨48, 8, .ro, 0, 0, 255⟩]⟩,
  ⟨"VCT_ENC_RATE", 0x501058, some 0x3658, 0, 1, 0, 1, false, [⟨0, 32, .ro, 0, 0, 4294967295⟩]⟩,
  ⟨"FWD_STAGE_OP", 0x620000, some 0x3700, 0, 1, 0, 1, false, [⟨0, 3, .rw, 0, 0, 7⟩, ⟨16, 14, .rw, 0, 0, 16383⟩]⟩,
  ⟨"FWD_STAGE_ARG0", 0x620004, some 0x3704, 0, 1, 0, 1, false, [⟨0, 14, .rw, 0, 0, 16383⟩, ⟨14, 2, .rw, 0, 0, 2⟩, ⟨16, 2, .rw, 0, 0, 2⟩, ⟨18, 1, .rw, 0, 0, 1⟩, ⟨24, 8, .rw, 0, 0, 255⟩]⟩]

/-- Registers, part 6. -/
def regTable6 : List RegDesc := [
  ⟨"FWD_STAGE_ARG1", 0x620008, some 0x3708, 0, 1, 0, 1, false, [⟨0, 32, .rw, 0, 0, 4294967295⟩]⟩,
  ⟨"FWD_STAGE_STAMP", 0x620010, some 0x3710, 0, 1, 0, 1, true, [⟨0, 48, .rw, 0, 0, 2 ^ 48 - 1⟩]⟩,
  ⟨"FWD_STAGE_CTRL", 0x620018, some 0x3718, 0, 1, 0, 1, false, [⟨0, 1, .wo, 0, 0, 1⟩]⟩,
  ⟨"FWD_STAGE_STATUS", 0x62001c, some 0x371c, 0, 1, 0, 1, false, [⟨0, 1, .ro, 0, 0, 1⟩, ⟨1, 1, .w1c, 0, 0, 1⟩, ⟨2, 1, .ro, 0, 0, 1⟩, ⟨4, 4, .ro, 15, 0, 15⟩, ⟨8, 24, .ro, 0, 0, 16777215⟩]⟩,
  ⟨"FWD_STAGE_EFFECT", 0x620020, some 0x3720, 0, 1, 0, 1, true, [⟨0, 48, .ro, 0, 0, 2 ^ 48 - 1⟩]⟩,
  ⟨"FWD_LEG_SEL", 0x620040, some 0x3740, 0, 1, 0, 1, false, [⟨0, 14, .rw, 0, 0, 16383⟩, ⟨16, 1, .ro, 0, 0, 1⟩]⟩,
  ⟨"FWD_LEG_STATUS", 0x620044, some 0x3744, 0, 1, 0, 1, false, [⟨0, 14, .ro, 0, 0, 16383⟩, ⟨14, 2, .ro, 0, 0, 3⟩, ⟨16, 2, .ro, 0, 0, 3⟩, ⟨18, 2, .ro, 0, 0, 3⟩, ⟨20, 2, .ro, 0, 0, 3⟩, ⟨22, 1, .ro, 0, 0, 1⟩, ⟨23, 1, .ro, 0, 0, 1⟩, ⟨24, 1, .ro, 0, 0, 1⟩, ⟨25, 1, .ro, 0, 0, 1⟩]⟩,
  ⟨"FWD_LEG_EST", 0x620048, some 0x3748, 0, 1, 0, 1, true, [⟨0, 32, .ro, 0, 0, 4294967295⟩, ⟨32, 32, .ro, 0, 0, 4294967295⟩]⟩,
  ⟨"FWD_LEG_RATE", 0x620050, some 0x3750, 0, 1, 0, 1, true, [⟨0, 32, .ro, 0, 0, 4294967295⟩, ⟨32, 32, .ro, 0, 0, 4294967295⟩]⟩,
  ⟨"FWD_RW_SEL", 0x620060, some 0x3760, 0, 1, 0, 1, false, [⟨0, 16, .rw, 0, 0, 65535⟩, ⟨16, 1, .ro, 0, 0, 1⟩]⟩,
  ⟨"FWD_RW_STATUS", 0x620064, some 0x3764, 0, 1, 0, 1, false, [⟨0, 4, .ro, 0, 0, 15⟩, ⟨4, 4, .ro, 0, 0, 15⟩, ⟨8, 4, .ro, 0, 0, 15⟩, ⟨12, 1, .w1c, 0, 0, 1⟩]⟩,
  ⟨"FWD_RW_WPTR", 0x620068, some 0x3768, 0, 1, 0, 1, false, [⟨0, 32, .ro, 0, 0, 4294967295⟩]⟩,
  ⟨"FWD_RW_RESIZE", 0x620080, some 0x3780, 0, 1, 0, 1, false, [⟨0, 16, .wo, 0, 0, 65535⟩, ⟨16, 4, .wo, 0, 0, 15⟩, ⟨31, 1, .wo, 0, 0, 1⟩]⟩,
  ⟨"FWD_RW_MARK", 0x620070, some 0x3770, 4, 4, 0, 1, false, [⟨0, 32, .ro, 0, 0, 4294967295⟩]⟩,
  ⟨"FWD_LA_CFG", 0x621000, none, 16, 16, 0, 1, false, [⟨0, 16, .rw, 1000, 64, 65535⟩, ⟨16, 8, .rw, 40, 1, 255⟩]⟩,
  ⟨"FWD_LA_THR", 0x621004, none, 16, 16, 0, 1, false, [⟨0, 16, .rw, 5000, 500, 50000⟩]⟩,
  ⟨"FWD_UNIT_STATUS", 0x623000, none, 256, 4, 0, 1, false, [⟨0, 2, .ro, 0, 0, 3⟩, ⟨16, 14, .ro, 0, 0, 16383⟩]⟩,
  ⟨"CMP_STATUS", 0x640000, none, 65536, 4, 0, 1, false, [⟨0, 2, .ro, 0, 0, 3⟩, ⟨2, 1, .ro, 0, 0, 1⟩, ⟨16, 9, .ro, 0, 0, 511⟩]⟩,
  ⟨"CMP_LOAD", 0x640004, none, 65536, 4, 0, 1, false, [⟨0, 11, .ro, 0, 0, 2047⟩]⟩,
  ⟨"CMP_CV_SEL", 0x648000, some 0x3800, 0, 1, 0, 1, false, [⟨0, 8, .rw, 0, 0, 255⟩, ⟨16, 1, .ro, 0, 0, 1⟩]⟩]

/-- Registers, part 7. -/
def regTable7 : List RegDesc := [
  ⟨"CMP_CV_STATUS", 0x648004, some 0x3804, 0, 1, 0, 1, false, [⟨0, 2, .ro, 0, 0, 3⟩, ⟨2, 2, .ro, 0, 0, 3⟩, ⟨4, 1, .ro, 0, 0, 1⟩, ⟨5, 1, .ro, 0, 0, 1⟩, ⟨6, 2, .ro, 0, 0, 3⟩, ⟨8, 1, .ro, 0, 0, 1⟩, ⟨9, 1, .ro, 0, 0, 1⟩, ⟨10, 6, .ro, 0, 0, 63⟩, ⟨16, 16, .ro, 0, 0, 65535⟩]⟩,
  ⟨"CMP_CV_TICK", 0x648008, some 0x3808, 0, 1, 0, 1, true, [⟨0, 48, .ro, 0, 0, 2 ^ 48 - 1⟩]⟩,
  ⟨"CMP_CV_SIG", 0x648010, some 0x3810, 8, 9, 0, 1, true, [⟨0, 32, .ro, 0, 0, 4294967295⟩, ⟨32, 32, .ro, 0, 0, 4294967295⟩]⟩,
  ⟨"DP_CTRL", 0x680000, none, 0, 1, 0, 1, false, [⟨0, 2, .rw, 1, 0, 2⟩, ⟨2, 8, .rw, 0, 0, 255⟩, ⟨10, 2, .rw, 1, 0, 2⟩, ⟨12, 1, .rw, 0, 0, 1⟩, ⟨13, 3, .rw, 3, 0, 4⟩]⟩,
  ⟨"DP_STATUS", 0x680004, none, 0, 1, 0, 1, false, [⟨0, 3, .ro, 0, 0, 7⟩, ⟨3, 1, .ro, 0, 0, 1⟩, ⟨4, 2, .ro, 0, 0, 3⟩, ⟨6, 2, .ro, 0, 0, 3⟩, ⟨8, 4, .ro, 0, 0, 15⟩, ⟨12, 1, .ro, 1, 0, 1⟩, ⟨13, 1, .w1c, 0, 0, 1⟩]⟩,
  ⟨"EGR_LINK_CFG", 0x180000, none, 256, 8, 0, 1, false, [⟨0, 8, .rw, 24, 0, 255⟩]⟩,
  ⟨"EGR_LINK_MAC", 0x180008, none, 256, 8, 0, 1, true, [⟨0, 48, .rw, 0, 0, 2 ^ 48 - 1⟩]⟩,
  ⟨"EGR_NTP_BASE", 0x181000, none, 0, 1, 0, 1, true, [⟨0, 32, .rw, 0, 0, 4294967295⟩]⟩,
  ⟨"EGR_HTX_RATE", 0x181008, none, 0, 1, 0, 1, false, [⟨0, 16, .rw, 64, 0, 65535⟩]⟩,
  ⟨"EGR_HTX_BASE", 0x181010, some 0x3900, 0, 1, 0, 1, true, [⟨12, 52, .rw, 0, 0, 2 ^ 52 - 1⟩]⟩,
  ⟨"EGR_HTX_CFG", 0x181018, some 0x3908, 0, 1, 0, 1, false, [⟨0, 4, .rw, 6, 6, 12⟩, ⟨4, 4, .rw, 11, 11, 14⟩, ⟨8, 1, .rw, 0, 0, 1⟩]⟩,
  ⟨"EGR_HTX_TAIL", 0x18101c, some 0x390c, 0, 1, 0, 1, false, [⟨0, 12, .rw, 0, 0, 4095⟩, ⟨16, 12, .ro, 0, 0, 4095⟩]⟩,
  ⟨"EGR_LEG_SEL", 0x182000, some 0x3940, 0, 1, 0, 1, false, [⟨0, 14, .rw, 0, 0, 16383⟩, ⟨16, 1, .ro, 0, 0, 1⟩]⟩,
  ⟨"EGR_LEG_STATUS", 0x182004, some 0x3944, 0, 1, 0, 1, false, [⟨0, 2, .ro, 0, 0, 3⟩, ⟨2, 1, .ro, 0, 0, 1⟩, ⟨3, 10, .ro, 0, 0, 1023⟩, ⟨13, 1, .ro, 0, 0, 1⟩]⟩,
  ⟨"EGR_LEG_LEVEL", 0x182008, some 0x3948, 0, 1, 0, 1, true, [⟨0, 64, .ro, 0, 0, 2 ^ 64 - 1⟩]⟩,
  ⟨"EGR_LEG_DC", 0x182010, some 0x3950, 0, 1, 0, 1, false, [⟨0, 32, .ro, 0, 0, 4294967295⟩]⟩,
  ⟨"EGR_LEG_WMAX", 0x182014, some 0x3954, 0, 1, 0, 1, false, [⟨0, 32, .ro, 0, 0, 4294967295⟩]⟩,
  ⟨"DDR_CH_STATUS", 0x6c0000, none, 16384, 12, 0, 1, false, [⟨0, 3, .ro, 0, 0, 7⟩, ⟨8, 6, .ro, 0, 0, 63⟩, ⟨14, 2, .ro, 0, 0, 3⟩, ⟨16, 1, .w1c, 0, 0, 1⟩]⟩,
  ⟨"DDR_CH_CFG", 0x6c0004, none, 16384, 12, 0, 1, false, [⟨0, 8, .rw, 24, 0, 255⟩, ⟨8, 4, .rw, 4, 1, 15⟩]⟩,
  ⟨"DDR_CH_RETRAIN", 0x6c0008, none, 16384, 12, 0, 1, true, [⟨0, 48, .ro, 0, 0, 2 ^ 48 - 1⟩, ⟨48, 10, .ro, 0, 0, 1023⟩]⟩]

/-- Registers, part 8. -/
def regTable8 : List RegDesc := [
  ⟨"DDR_CH_REMAP", 0x6c0010, none, 16384, 12, 0, 1, true, [⟨0, 32, .ro, 0, 0, 4294967295⟩, ⟨32, 32, .ro, 0, 0, 4294967295⟩]⟩,
  ⟨"LDG_STATUS", 0x7c0000, none, 0, 1, 0, 1, false, [⟨0, 1, .ro, 0, 0, 1⟩, ⟨1, 1, .ro, 0, 0, 1⟩, ⟨2, 1, .ro, 0, 0, 1⟩, ⟨3, 1, .ro, 0, 0, 1⟩, ⟨4, 1, .ro, 0, 0, 1⟩, ⟨5, 1, .ro, 0, 0, 1⟩]⟩,
  ⟨"LDG_LOG_NEXT", 0x7c0004, none, 0, 1, 0, 1, false, [⟨0, 32, .ro, 0, 0, 4294967295⟩]⟩,
  ⟨"LDG_LOG_OLDEST", 0x7c0008, none, 0, 1, 0, 1, false, [⟨0, 32, .ro, 0, 0, 4294967295⟩]⟩,
  ⟨"LDG_SAVE_STAMP", 0x7c0010, none, 0, 1, 0, 1, true, [⟨0, 48, .ro, 0, 0, 2 ^ 48 - 1⟩]⟩,
  ⟨"LDG_STAMP_FLOOR", 0x7c0018, none, 0, 1, 0, 1, true, [⟨0, 48, .ro, 0, 0, 2 ^ 48 - 1⟩]⟩,
  ⟨"LDG_WIN_SEL", 0x7c0020, none, 0, 1, 0, 1, false, [⟨0, 13, .rw, 0, 0, 8191⟩]⟩,
  ⟨"DMA_CH_CFG", 0x700000, none, 256, 32, 0, 1, false, [⟨0, 8, .rw, 255, 0, 255⟩, ⟨8, 1, .rw, 0, 0, 1⟩, ⟨12, 4, .rw, 6, 6, 12⟩, ⟨16, 5, .rw, 31, 0, 31⟩]⟩,
  ⟨"DMA_CH_BASE", 0x700008, none, 256, 32, 0, 1, true, [⟨12, 52, .rw, 0, 0, 2 ^ 52 - 1⟩]⟩,
  ⟨"DMA_CH_CTRL", 0x700010, none, 256, 32, 0, 1, false, [⟨0, 1, .rw, 0, 0, 1⟩, ⟨1, 1, .w1s, 0, 0, 1⟩, ⟨2, 1, .w1s, 0, 0, 1⟩, ⟨3, 1, .w1s, 0, 0, 1⟩]⟩,
  ⟨"DMA_CH_COUNT", 0x700014, none, 256, 32, 0, 1, false, [⟨0, 16, .ro, 0, 0, 65535⟩]⟩,
  ⟨"DMA_CH_ADD", 0x700018, none, 256, 32, 0, 1, false, [⟨0, 16, .wo, 0, 0, 65535⟩]⟩,
  ⟨"DMA_CH_STATUS", 0x70001c, none, 256, 32, 0, 1, false, [⟨0, 3, .ro, 0, 0, 7⟩, ⟨3, 1, .ro, 0, 0, 1⟩, ⟨4, 4, .ro, 0, 0, 15⟩, ⟨8, 1, .w1c, 0, 0, 1⟩, ⟨9, 1, .w1c, 0, 0, 1⟩, ⟨16, 12, .ro, 0, 0, 4095⟩]⟩,
  ⟨"FLT_STATUS", 0x740000, none, 0, 1, 0, 1, false, [⟨0, 2, .ro, 0, 0, 3⟩, ⟨4, 4, .ro, 0, 0, 15⟩, ⟨8, 7, .ro, 127, 0, 127⟩]⟩,
  ⟨"FLT_CFG", 0x740004, none, 0, 1, 0, 1, false, [⟨0, 1, .rw, 1, 0, 1⟩]⟩,
  ⟨"FLT_BAY_STATUS", 0x740010, none, 4, 4, 0, 1, false, [⟨0, 3, .ro, 0, 0, 7⟩, ⟨3, 1, .ro, 0, 0, 1⟩, ⟨8, 8, .ro, 0, 0, 255⟩]⟩,
  ⟨"FLT_RM_STATUS", 0x740020, none, 0, 1, 0, 1, false, [⟨0, 1, .ro, 0, 0, 1⟩, ⟨1, 1, .ro, 0, 0, 1⟩]⟩,
  ⟨"FLT_HEADROOM", 0x740040, none, 4, 7, 0, 1, false, [⟨0, 32, .ro, 0, 0, 4294967295⟩]⟩,
  ⟨"PWR_STATUS", 0x780000, none, 0, 1, 0, 1, false, [⟨0, 4, .ro, 0, 0, 15⟩, ⟨4, 4, .ro, 0, 0, 15⟩]⟩,
  ⟨"PWR_BOOT_MS", 0x780004, none, 0, 1, 0, 1, false, [⟨0, 16, .ro, 0, 0, 65535⟩]⟩]

/-- Registers, part 9. -/
def regTable9 : List RegDesc := [
  ⟨"PWR_BOOT_FW", 0x780008, none, 0, 1, 0, 1, false, [⟨0, 8, .ro, 0, 0, 255⟩, ⟨8, 8, .ro, 0, 0, 255⟩, ⟨16, 1, .ro, 0, 0, 1⟩]⟩,
  ⟨"PWR_RAIL", 0x78000c, none, 0, 1, 0, 1, false, [⟨0, 7, .w1c, 0, 0, 127⟩, ⟨8, 7, .ro, 0, 0, 127⟩]⟩,
  ⟨"PWR_HOLDUP_STATUS", 0x780010, none, 0, 1, 0, 1, false, [⟨0, 3, .ro, 0, 0, 7⟩, ⟨3, 1, .ro, 0, 0, 1⟩, ⟨16, 16, .ro, 0, 0, 65535⟩]⟩,
  ⟨"PWR_HOLDUP_MEAS", 0x780014, none, 0, 1, 0, 1, false, [⟨0, 16, .ro, 0, 0, 65535⟩, ⟨16, 16, .ro, 0, 0, 65535⟩]⟩,
  ⟨"PWR_HOLDUP_CTRL", 0x780018, none, 0, 1, 0, 1, false, [⟨0, 1, .w1s, 0, 0, 1⟩, ⟨1, 1, .rw, 0, 0, 1⟩]⟩,
  ⟨"PWR_CLK_STATUS", 0x780020, none, 0, 1, 0, 1, false, [⟨0, 1, .ro, 0, 0, 1⟩, ⟨1, 1, .ro, 0, 0, 1⟩, ⟨2, 1, .ro, 0, 0, 1⟩, ⟨3, 1, .ro, 0, 0, 1⟩, ⟨4, 1, .ro, 1, 0, 1⟩]⟩,
  ⟨"PWR_CLK_CTRL", 0x780024, none, 0, 1, 0, 1, false, [⟨0, 1, .w1s, 0, 0, 1⟩]⟩,
  ⟨"PWR_THERM_CFG", 0x78002c, none, 0, 1, 0, 1, false, [⟨0, 8, .rw, 100, 70, 105⟩, ⟨8, 4, .rw, 5, 1, 15⟩]⟩,
  ⟨"PWR_THERM", 0x780030, none, 4, 8, 0, 1, false, [⟨0, 16, .ro, 0, 0, 65535⟩, ⟨16, 1, .ro, 0, 0, 1⟩]⟩,
  ⟨"PWR_WDT_CFG", 0x780050, none, 0, 1, 0, 1, false, [⟨0, 16, .rw, 1000, 1, 65535⟩, ⟨16, 1, .rw, 0, 0, 1⟩]⟩,
  ⟨"PWR_WDT_KICK", 0x780054, none, 0, 1, 0, 1, false, [⟨0, 1, .wo, 0, 0, 1⟩]⟩,
  ⟨"PWR_SPI_ADDR", 0x780100, none, 0, 1, 0, 1, false, [⟨0, 32, .rw, 0, 0, 4294967295⟩]⟩,
  ⟨"PWR_SPI_CTRL", 0x780104, none, 0, 1, 0, 1, false, [⟨0, 1, .wo, 0, 0, 1⟩, ⟨1, 3, .wo, 0, 0, 7⟩]⟩,
  ⟨"PWR_SPI_STATUS", 0x780108, none, 0, 1, 0, 1, false, [⟨0, 1, .ro, 0, 0, 1⟩, ⟨1, 1, .w1c, 0, 0, 1⟩, ⟨4, 4, .ro, 15, 0, 15⟩, ⟨8, 8, .ro, 0, 0, 255⟩]⟩,
  ⟨"PWR_SPI_BUF", 0x781000, none, 4, 64, 0, 1, false, [⟨0, 32, .rw, 0, 0, 4294967295⟩]⟩,
  ⟨"CAS_CFG", 0x800000, none, 0, 1, 0, 1, false, [⟨0, 4, .rw, 0, 0, 15⟩, ⟨4, 4, .rw, 0, 0, 15⟩, ⟨8, 3, .rw, 2, 1, 4⟩, ⟨16, 16, .rw, 43936, 0, 65535⟩]⟩,
  ⟨"CAS_STATUS", 0x800004, none, 0, 1, 0, 1, false, [⟨0, 2, .ro, 0, 0, 3⟩, ⟨16, 16, .ro, 0, 0, 65535⟩]⟩,
  ⟨"CAS_KEY_CTRL", 0x800010, none, 0, 1, 0, 1, false, [⟨0, 1, .wo, 0, 0, 1⟩, ⟨1, 2, .wo, 0, 0, 3⟩]⟩,
  ⟨"CAS_KEY_STATUS", 0x800014, none, 0, 1, 0, 1, false, [⟨0, 24, .ro, 0, 0, 16777215⟩, ⟨24, 1, .ro, 0, 0, 1⟩, ⟨25, 1, .ro, 0, 0, 1⟩]⟩,
  ⟨"CAS_KEY_DATA", 0x800020, none, 4, 8, 0, 1, false, [⟨0, 32, .wo, 0, 0, 4294967295⟩]⟩]

/-- Registers, part 10. -/
def regTable10 : List RegDesc := [
  ⟨"CAS_STAGE_OP", 0x800100, none, 0, 1, 0, 1, false, [⟨0, 3, .rw, 0, 0, 7⟩, ⟨16, 14, .rw, 0, 0, 16383⟩]⟩,
  ⟨"CAS_STAGE_ARG", 0x800104, none, 0, 1, 0, 1, false, [⟨0, 16, .rw, 0, 0, 65535⟩]⟩,
  ⟨"CAS_STAGE_STAMP", 0x800108, none, 0, 1, 0, 1, true, [⟨0, 48, .rw, 0, 0, 2 ^ 48 - 1⟩]⟩,
  ⟨"CAS_STAGE_CTRL", 0x800110, none, 0, 1, 0, 1, false, [⟨0, 1, .wo, 0, 0, 1⟩]⟩,
  ⟨"CAS_STAGE_STATUS", 0x800114, none, 0, 1, 0, 1, false, [⟨0, 1, .ro, 0, 0, 1⟩, ⟨1, 1, .w1c, 0, 0, 1⟩, ⟨2, 1, .ro, 0, 0, 1⟩, ⟨4, 4, .ro, 15, 0, 15⟩, ⟨8, 24, .ro, 0, 0, 16777215⟩]⟩,
  ⟨"CAS_PEER_ADDR0", 0x801000, none, 64, 16, 0, 1, false, [⟨0, 32, .rw, 0, 0, 4294967295⟩]⟩,
  ⟨"CAS_PEER_ADDR1", 0x801004, none, 64, 16, 0, 1, false, [⟨0, 32, .rw, 0, 0, 4294967295⟩]⟩,
  ⟨"CAS_PEER_ADDR2", 0x801008, none, 64, 16, 0, 1, false, [⟨0, 32, .rw, 0, 0, 4294967295⟩]⟩,
  ⟨"CAS_PEER_ADDR3", 0x80100c, none, 64, 16, 0, 1, false, [⟨0, 32, .rw, 0, 0, 4294967295⟩]⟩,
  ⟨"CAS_PEER_CFG", 0x801010, none, 64, 16, 0, 1, false, [⟨0, 1, .rw, 0, 0, 1⟩, ⟨1, 3, .rw, 0, 0, 7⟩, ⟨4, 3, .rw, 0, 0, 7⟩, ⟨7, 1, .rw, 0, 0, 1⟩]⟩,
  ⟨"CAS_PEER_MAC", 0x801018, none, 64, 16, 0, 1, true, [⟨0, 48, .rw, 0, 0, 2 ^ 48 - 1⟩]⟩,
  ⟨"OBS_TRACE_BASE", 0x840000, none, 0, 1, 0, 1, true, [⟨12, 52, .rw, 0, 0, 2 ^ 52 - 1⟩]⟩,
  ⟨"OBS_TRACE_CFG", 0x840008, none, 0, 1, 0, 1, false, [⟨0, 5, .rw, 16, 10, 20⟩, ⟨5, 1, .rw, 0, 0, 1⟩, ⟨6, 1, .rw, 0, 0, 1⟩, ⟨7, 1, .rw, 0, 0, 1⟩, ⟨8, 1, .w1c, 0, 0, 1⟩]⟩,
  ⟨"OBS_TRACE_NEXT", 0x84000c, none, 0, 1, 0, 1, false, [⟨0, 32, .ro, 0, 0, 4294967295⟩]⟩,
  ⟨"OBS_TRACE_MASK", 0x840010, none, 0, 1, 0, 1, false, [⟨0, 18, .rw, 262143, 0, 262143⟩]⟩,
  ⟨"OBS_TEL_HEAD", 0x840200, some 0x3b00, 0, 1, 0, 1, false, [⟨0, 8, .rw, 0, 0, 255⟩, ⟨16, 8, .ro, 0, 0, 255⟩, ⟨24, 1, .ro, 0, 0, 1⟩]⟩,
  ⟨"OBS_CAP_HEAD", 0x840208, some 0x3b08, 0, 1, 0, 1, true, [⟨0, 35, .rw, 0, 0, 2 ^ 35 - 1⟩]⟩,
  ⟨"OBS_CAP_TAIL", 0x840210, some 0x3b10, 0, 1, 0, 1, true, [⟨0, 35, .ro, 0, 0, 2 ^ 35 - 1⟩]⟩,
  ⟨"OBS_CSEL", 0x850000, some 0x10000, 4, 6, 0, 1, false, [⟨0, 16, .rw, 0, 0, 65535⟩, ⟨16, 1, .ro, 0, 0, 1⟩]⟩]

/-- Every register of the spec's tables. -/
def regTable : List RegDesc :=
  regTable0 ++ regTable1 ++ regTable2 ++ regTable3 ++ regTable4 ++ regTable5 ++ regTable6 ++ regTable7 ++ regTable8 ++ regTable9 ++ regTable10

end Sys2Proof.Machine
end

