-- ==== Sys2Proof/Machine/Ops.lean ====
section
/-! DEFINITION. The named operations over registers, counters, events, MSI-X vectors and the trace buffer. -/
namespace Sys2Proof.Machine

/-! ## Registers -/

/-- The value of a register field. -/
def fget (f : Fld) (s : State) : Nat := tget f.rst s.regs (fkey f)

/-- A register field set; the value is held to the field's width. -/
def fset (f : Fld) (v : Nat) (s : State) : State := { s with regs := tset s.regs (fkey f) (v % 2 ^ f.w) }

/-- A one-bit field as a truth value. -/
def fon (f : Fld) (s : State) : Bool := fget f s != 0

/-- A register field put back to its reset value. -/
def freset (f : Fld) (s : State) : State := fset f f.rst s

/-- Every register between two addresses put back to its reset value. -/
def resetRange (lo hi : Nat) (s : State) : State := { s with regs := teraseRange s.regs (lo * 64) (hi * 64) }

/-! ## Counters -/

/-- The largest value of a 64-bit counter. -/
def cntMax : Nat := 2 ^ 64 - 1

/-- A counter as it stands. -/
def cget (a : Nat) (s : State) : Nat := tget 0 s.cnt a

/-- A counter raised by `n`. -/
def cadd (a n : Nat) (s : State) : State := { s with cnt := tset s.cnt a (min cntMax (cget a s + n)) }

/-- A counter raised by one. -/
def cinc (a : Nat) (s : State) : State := cadd a 1 s

/-- The object kinds of the counter windows (R461): 0 leg, 1 stream, 2 Act, 3 encode, 4 canvas, 5 Ring. -/
def objCnt (kind id off : Nat) : Nat := 2 ^ 44 + (kind * 2 ^ 20 + id) * 512 + off

def legCnt (leg off : Nat) : Nat := objCnt 0 leg off
def strCnt (stream off : Nat) : Nat := objCnt 1 stream off
def actCnt (act off : Nat) : Nat := objCnt 2 act off
def encCnt (enc off : Nat) : Nat := objCnt 3 enc off
def cvCnt (canvas off : Nat) : Nat := objCnt 4 canvas off
def ringCnt (r off : Nat) : Nat := objCnt 5 r off

/-! ## Free values -/

/-- The number of the next free value, and the state after taking it. -/
def takeFree (s : State) : Nat × State := (s.free, { s with free := s.free + 1 })

/-! ## Rates of reports -/

/-- Whether a report of this key may be made in this block under "at most one in n blocks"; if so the block is noted. -/
def rateOk (key n : Nat) (s : State) : Bool × State :=
  match tfind s.hif.rate key with
  | some b =>
    if stampSub s.clk.stamp b < n then (false, s)
    else (true, { s with hif := { s.hif with rate := tset s.hif.rate key s.clk.stamp } })
  | none => (true, { s with hif := { s.hif with rate := tset s.hif.rate key s.clk.stamp } })

/-- The key of an event code's rate limit for one object. -/
def rateKey (code obj : Nat) : Nat := code * 2 ^ 32 + obj

/-! ## MSI-X (R71, R92) -/

/-- The place of a function's vector in the MSI-X tables. -/
def msixKey (fn : Fn) (v : Nat) : Nat := fnNum fn * 2048 + v

/-- An entry no one has written: masked, as PCI Express resets it (log entry 6). -/
def Msix.init : Msix := ⟨0, 0, true, false⟩

/-- A vector signalled: sent when it is unmasked, held pending otherwise. -/
def signal (fn : Fn) (v : Nat) (s : State) : State :=
  let e := tget Msix.init s.hif.msix (msixKey fn v)
  if e.mask then
    { s with hif := { s.hif with msix := tset s.hif.msix (msixKey fn v) { e with pending := true } } }
  else { s with out := .msix (fnNum fn) v :: s.out }

/-! ## Events (R90) -/

/-- Key of PF event queue q, and of Ring r's queue. -/
def evqPf (q : Nat) : Nat := q
def evqVf (r : Nat) : Nat := 16 + r

/-- The function and queue number of a queue key. -/
def evqFn (k : Nat) : Fn := if k < 16 then .pf else .vf (k - 16)
def evqNo (k : Nat) : Nat := if k < 16 then k else 0

/-- The delivery and threshold vectors of a queue (R92). -/
def evqVec (k : Nat) : Nat := if k < 16 then 1 + k else 1
def evqThreshVec (k : Nat) : Nat := if k < 16 then 17 + k else 2

/-- The queue `k`. -/
def evqGet (k : Nat) (s : State) : EvQueue := tget EvQueue.init s.hif.evq k

/-- The queue `k` replaced, its on-chip depth shown. -/
def evqPut (k : Nat) (q : EvQueue) (s : State) : State :=
  fset (R.INT_EVQ_STATUS_depth (evqFn k) (evqNo k)) q.items.length
    { s with hif := { s.hif with evq := tset s.hif.evq k q } }

/-- An event meeting a full queue: discarded and counted, and the next entry delivered carries OVERFLOW. -/
def evqLose (k n : Nat) (s : State) : State :=
  fset (R.INT_EVQ_STATUS_overflow (evqFn k) (evqNo k)) 1
    (cadd (evqBase (evqFn k) (evqNo k) + 0x18) n (evqPut k { evqGet k s with ovf := true } s))

/-- A staged depth that is due taken (R90, R115): unread entries at or beyond a smaller depth are discarded. -/
def evqResize (k : Nat) (s : State) : State :=
  let q := evqGet k s
  match q.staged with
  | none => s
  | some d =>
    if q.due then
      let kept := q.items.filter fun e => decide (e.pos < d)
      let lost := q.items.length - kept.length
      let s := evqPut k { q with items := kept, depth := d, staged := none, due := false } s
      if lost = 0 then s else evqLose k lost s
    else s

/-- A depth staged: it takes effect when the write pointer next passes offset 0, at once where no entry has been written (R115). -/
def evqStage (k d : Nat) (s : State) : State :=
  let q := evqGet k s
  if d = q.depth && q.staged.isNone then s else evqResize k (evqPut k { q with staged := some d, due := !q.used } s)

/-- An event pushed to queue `k`. -/
def evqPush (k : Nat) (e : Ev) (s : State) : State :=
  let q := evqGet k s
  if q.depth ≤ q.items.length then evqLose k 1 s
  else
    let n := q.items.length + 1
    let th := fget (R.INT_EVQ_CFG_thresh (evqFn k) (evqNo k)) s
    let w := (q.wptr + 1) % q.depth
    let s := evqPut k { q with items := q.items ++ [⟨e, severity e.code e.detail, q.seq, q.wptr⟩],
                               seq := (q.seq + 1) % 2 ^ 32, wptr := w, used := true, due := decide (w = 0) } s
    let s := evqResize k s
    if th = n then signal (evqFn k) (evqThreshVec k) s else s

/-- An event pushed to the PF queue that INT_EVQ_ROUTE selects for its code range. -/
def pushPf (e : Ev) (s : State) : State := evqPush (evqPf (fget (R.INT_EVQ_ROUTE_queue (e.code / 256)) s)) e s

/-! ## The trace buffer (R467 to R469) -/

/-- A trace record's 32 bytes. -/
def traceBytes (idx : Nat) (flags : Nat) (e : Ev) : List Byte :=
  leBytes 4 idx ++ leBytes 2 e.code ++ leBytes 1 (e.ring.getD 0xFF) ++ leBytes 1 flags
    ++ leBytes 8 (e.stamp + e.offset * 2 ^ 48) ++ leBytes 2 e.unit ++ leBytes 1 e.kind ++ leBytes 1 0
    ++ leBytes 4 e.subj ++ leBytes 8 e.detail

/-- A record added to the trace: nothing while the buffer is off; discarded and counted under freeze, or under stop when the
buffer is full; otherwise written over the oldest where the buffer is full, which is counted and reported (R469). -/
def traceAdd (flags : Nat) (e : Ev) (s : State) : State :=
  if !fon R.OBS_TRACE_CFG_enable s then s
  else
    let idx := fget R.OBS_TRACE_NEXT_next s
    let n := fget R.OBS_TRACE_CFG_n s
    let full := decide (2 ^ n ≤ idx)
    if fon R.OBS_TRACE_CFG_freeze s || (full && fon R.OBS_TRACE_CFG_stop s) then cinc 0x840110 s
    else
      let s := dramWrite (fget R.OBS_TRACE_BASE_base s * 4096 + idx % 2 ^ n * 32) (traceBytes idx flags e) s
      let s := cinc 0x840100 (fset R.OBS_TRACE_NEXT_next (idx + 1) s)
      if full then
        let s := cinc 0x840108 s
        if idx = 2 ^ n then
          pushPf ⟨EV_TRACE_WRAP, s.clk.stamp, s.clk.offset, 0, none, 0, 0, idx + 1 - 2 ^ n⟩ s
        else s
      else s

/-- An event raised: traced where its code range is enabled, pushed to its Ring's queue and to the PF's (R90, R468).
ISOLATION_BLOCK and COMMAND_ORPHANED go to the PF only. -/
def raise (e : Ev) (s : State) : State :=
  let s := if bit (fget R.OBS_TRACE_MASK_mask s) (e.code / 256) then traceAdd 0 e s else s
  let s := match e.ring with
    | none => s
    | some r => if e.code = EV_ISOLATION_BLOCK || e.code = EV_COMMAND_ORPHANED then s else evqPush (evqVf r) e s
  pushPf e s

/-- An event raised to the PF alone, whatever its Ring. -/
def raisePf (e : Ev) (s : State) : State :=
  let s := if bit (fget R.OBS_TRACE_MASK_mask s) (e.code / 256) then traceAdd 0 e s else s
  pushPf e s

/-- An event queued to the function `fn` alone: its VF's queue, or the PF queue of its code range (R190, R302). -/
def raiseIssuer (fn : Fn) (e : Ev) (s : State) : State :=
  let s := if bit (fget R.OBS_TRACE_MASK_mask s) (e.code / 256) then traceAdd 0 e s else s
  match fn with
  | .pf => pushPf e s
  | .vf r => evqPush (evqVf r) e s

/-- An event of this block and offset. -/
def ev (code unit : Nat) (ring : Option Nat) (kind subj detail : Nat) (s : State) : Ev :=
  ⟨code, s.clk.stamp, s.clk.offset, unit, ring, kind, subj, detail⟩

/-- An event about a unit (R24), to the PF. -/
def raiseUnit (code unit detail : Nat) (s : State) : State := raise (ev code unit none 0 0 detail s) s

/-- An event about an object of Ring `r`. -/
def raiseObj (code r kind subj detail : Nat) (s : State) : State := raise (ev code 0 (some r) kind subj detail s) s

/-! ## Captures and replays (R470, R471) -/

/-- A record of a capture: its 32-byte header, its body padded with zeros to a multiple of 8. -/
def capBytes (r : CapRec) : List Byte :=
  leBytes 2 r.body.length ++ leBytes 1 r.kind ++ leBytes 1 0 ++ leBytes 2 r.id ++ leBytes 2 0 ++ leBytes 8 (r.stamp + r.offset * 2 ^ 48)
    ++ leBytes 6 r.sec ++ leBytes 4 r.ns ++ leBytes 1 r.link ++ List.replicate 5 0 ++ padTo 0 ((r.body.length + 7) / 8 * 8) r.body

/-- Whether a capture takes records of a kind. -/
def Cap.takes (c : Cap) (kind : Nat) : Bool :=
  c.on && (if kind ≤ 4 then bit c.what 0 else if kind = 5 then bit c.what 1 else true)

/-- A record of an Act's media or events added to its captures. -/
def capNote (act : Nat) (r : CapRec) (s : State) : State :=
  if s.obs.caps.isEmpty then s
  else { s with obs := { s.obs with caps := s.obs.caps.map fun (p : Nat × Cap) =>
    (p.1, if p.2.act = act && p.2.takes r.kind then { p.2 with buf := p.2.buf ++ capBytes r, count := p.2.count + 1 } else p.2) } }

/-- The replay that runs an Act. -/
def repOf (act : Nat) (s : State) : Option (Nat × Rep) := s.obs.reps.find? fun p => decide (p.2.act = act) && p.2.started

/-- A replay's state replaced. -/
def repPut (k : Nat) (r : Rep) (s : State) : State := { s with obs := { s.obs with reps := tset s.obs.reps k r } }

/-- The block of an Act on its own time base: the device's, less the Δ of a replay. -/
def actStamp (act b : Nat) (s : State) : Nat :=
  match repOf act s with
  | some (_, r) => stampSub b r.delta
  | none => b

/-- A record removed from a list where one is met that `f` finds. -/
def dropRec (f : CapRec → Bool) (l : List CapRec) : List CapRec :=
  match l with
  | [] => []
  | r :: t => if f r then t else r :: dropRec f t

/-- The Act that a subject belongs to: itself, a leg's, a stream's. -/
def subjAct (kind subj : Nat) (s : State) : Option Nat :=
  match kind with
  | 1 => (tfind s.ctl.legs subj).map (·.act)
  | 2 => some subj
  | 3 => ((tfind s.ctl.streams subj).bind fun st => tfind s.ctl.legs st.leg).map (·.act)
  | _ => none

/-- Whether a CONFIG record concerns an Act: the Act, its legs and streams, its scopes. -/
def configOf (act : Nat) (e : Ev) (s : State) : Bool :=
  if e.code = 0x1180 || e.code = 0x1183 then
    e.ring.isNone || decide (e.ring = (tfind s.ctl.acts act).map (·.ring))
  else decide (subjAct e.kind e.subj s = some act)

/-- A CONFIG record seen by captures, and matched against a replay's (R470, R471). -/
def configNote (e : Ev) (s : State) : State :=
  let body := traceBytes 0 1 e
  let s := { s with obs := { s.obs with caps := s.obs.caps.map fun (p : Nat × Cap) =>
    (p.1, if p.2.takes 6 && configOf p.2.act e s then
      { p.2 with buf := p.2.buf ++ capBytes ⟨6, 0, e.stamp, e.offset, 0, 0, 0, body⟩, count := p.2.count + 1 } else p.2) } }
  { s with obs := { s.obs with reps := s.obs.reps.map fun (p : Nat × Rep) =>
    (p.1, if p.2.started && configOf p.2.act e s then
      { p.2 with recs := dropRec (fun r => decide (r.kind = 6) && decide (r.stamp = stampSub e.stamp p.2.delta) &&
        decide (le r.body 4 2 = e.code) && decide (le r.body 28 4 = e.detail / 2 ^ 32 % 2 ^ 32)) p.2.recs } else p.2) } }

/-- A CONFIG record of the trace (R468): written whatever the mask says. -/
def traceConfig (code : Nat) (ring : Option Nat) (kind subj stamp detail : Nat) (s : State) : State :=
  let e : Ev := ⟨code, stamp, s.clk.offset, 0, ring, kind, subj, detail⟩
  traceAdd 1 e (if s.obs.caps.isEmpty && s.obs.reps.isEmpty then s else configNote e s)

/-! ## Unit identifiers (R24) -/

def unitId (cls idx : Nat) : Nat := cls * 2048 + idx
def unitBay (b : Nat) : Nat := unitId 1 b
def unitTile (t : Nat) : Nat := unitId 2 t
def unitCluster (c : Nat) : Nat := unitId 3 c
def unitCore (c : Nat) : Nat := unitId 4 c
def unitCmp (b : Nat) : Nat := unitId 5 b
def unitPipe (b : Nat) : Nat := unitId 6 b
def unitCipher (e : Nat) : Nat := unitId 7 e
def unitDdr (c : Nat) : Nat := unitId 8 c
def unitEth (p : Nat) : Nat := unitId 9 p
def unitTdm (p : Nat) : Nat := unitId 10 p
def unitDma (c : Nat) : Nat := unitId 11 c
def unitMesh (c : Nat) : Nat := unitId 12 c
def unitRm : Nat := unitId 13 0

/-! ## The idle step -/

/-- What a step does where no command waits (log entry 1): one tick of the 48 kHz sample clock, up to the last offset of the block;
the next block begins by the command BLOCK_START. -/
def idle (s : State) : State :=
  if s.clk.offset < 23 then { s with clk := { s.clk with offset := s.clk.offset + 1 } } else s

end Sys2Proof.Machine
end

