-- ==== Sys2Proof/Machine/HostOps.lean ====
section
/-! DEFINITION. Completion rings, result slots and long operations (spec/03_host_commands.md R76 to R89): the operations every
host command shares. -/
namespace Sys2Proof.Machine

/-! ## Arguments (R76) -/

/-- The little-endian argument of `n` bytes at entry offset `o` (R76: args begin at 0x18). -/
def carg (c : Cmd) (o n : Nat) : Nat := le c.args (o - 0x18) n

/-- The argument bytes at entry offset `o`. -/
def cargs (c : Cmd) (o n : Nat) : List Byte := slice c.args (o - 0x18) n

/-- The argument bytes from entry offset `o` to the end are 0. -/
def czero (c : Cmd) (o : Nat) : Bool := allZero (c.args.drop (o - 0x18))

def within (lo hi v : Nat) : Bool := decide (lo ≤ v) && decide (v ≤ hi)

/-! ## Status codes (R82) -/
def stOk : Nat := 0
def stBadOpcode : Nat := 1
def stBadArg : Nat := 2
def stBadId : Nat := 3
def stNotOwned : Nat := 4
def stNoRing : Nat := 5
def stCapacity : Nat := 6
def stNotReady : Nat := 7
def stBadState : Nat := 8
def stBusy : Nat := 9
def stDenied : Nat := 10
def stFailed : Nat := 11
def stCancelled : Nat := 12
def stSlotBusy : Nat := 13
def stNoOp : Nat := 14

/-- The outcome of a command: status, reason, result. -/
structure Rsp where
  status : Nat
  reason : Nat
  result : Nat
  deriving DecidableEq, Repr

def rspOk : Rsp := ⟨stOk, 0, 0⟩
def rspRes (r : Nat) : Rsp := ⟨stOk, 0, r⟩
def rspErr (st : Nat) : Rsp := ⟨st, 0, 0⟩
def rspFail (st reason : Nat) : Rsp := ⟨st, reason, 0⟩

/-- The number that completions and operation records give a long operation's state (R77). -/
def LopSt.code (l : LopSt) : Nat :=
  match l with
  | .queued => 0 | .running => 1 | .suspending => 2 | .suspended => 3
  | .cancelling => 4 | .done => 5 | .failed => 6 | .cancelled => 7

/-- A terminal state. -/
def LopSt.terminal (l : LopSt) : Bool :=
  match l with
  | .done => true | .failed => true | .cancelled => true
  | _ => false

/-- A completion entry with its defaults. -/
def complOf (tag opcode : Nat) (r : Rsp) : Compl :=
  ⟨tag, opcode, r.status, r.reason, false, false, false, 0, 0, 0, r.result⟩

/-- The 32 bytes of a completion entry (R77). -/
def complBytes (c : Compl) (sqHead phase : Nat) : List Byte :=
  leBytes 4 c.tag ++ leBytes 2 c.opcode ++ leBytes 1 c.status ++ leBytes 1 c.reason ++ leBytes 2 sqHead
    ++ leBytes 2 (phase + 2 * b2n c.late + 4 * b2n c.already + 8 * b2n c.final + 16 * c.lopState)
    ++ leBytes 4 (if c.late then c.lateness else 0) ++ leBytes 8 c.effect ++ leBytes 8 c.result

/-- The key of result slot `n` of a function. -/
def slotKey (fn : Fn) (n : Nat) : Nat := fnNum fn * 64 + n

/-- The key of a long operation. -/
def lopKey (fn : Fn) (tag : Nat) : Nat := fnNum fn * 2 ^ 32 + tag

/-- The Ring of a function, none for the PF. -/
def fnRing (fn : Fn) : Option Nat :=
  match fn with
  | .pf => none
  | .vf r => some r

def sqSize (fn : Fn) (s : State) : Nat := 2 ^ fget (R.CMD_RING_SIZE_sq_log2 fn) s
def cqSize (fn : Fn) (s : State) : Nat := 2 ^ fget (R.CMD_RING_SIZE_cq_log2 fn) s

/-- Whether the ring rule of R78 leaves room: the entry after the one to be written is not the one at the host head, `extra`
more entries being already promised. -/
def ringRoom (head tail size extra : Nat) : Bool := decide ((tail + size - head) % size + extra + 1 < size)

/-- Whether a value written to a host head register is taken (R78): below the ring size, and in ring order between the current
head and the device tail, both included. -/
def headTaken (head tail size v : Nat) : Bool :=
  decide (v < size) && decide ((v + size - head) % size ≤ (tail + size - head) % size)

/-! ## Halts and completions (R77, R80, R84) -/

/-- The vector of a halted ring (R92). -/
def haltVec (fn : Fn) : Nat :=
  match fn with
  | .pf => 33
  | .vf _ => 3

/-- Intake halted with a cause (R80). -/
def haltSq (fn : Fn) (cause : Nat) (s : State) : State :=
  let s := fset (R.CMD_STATUS_halt_cause fn) cause (fset (R.CMD_STATUS_sq_halted fn) 1 (fset (R.CMD_STATUS_running fn) 0 s))
  let s := cinc (cmdBase fn + 0x48) s
  let s := raise (ev EV_CMD_SQ_HALTED 0 (fnRing fn) 0 0 (cause + fget (R.CMD_SQ_HEAD_head fn) s * 65536) s) s
  signal fn (haltVec fn) s

/-- The CQ halted (R80). -/
def haltCq (fn : Fn) (s : State) : State :=
  let s := fset (R.CMD_STATUS_halt_cause fn) 3 (fset (R.CMD_STATUS_cq_halted fn) 1 s)
  let s := cinc (cmdBase fn + 0x48) s
  let s := raise (ev EV_CMD_CQ_HALTED 0 (fnRing fn) 0 0 (3 + fget (R.CMD_CQ_TAIL_tail fn) s * 65536) s) s
  signal fn (haltVec fn) s

/-- One completion written to the CQ (R77, R78, R84, R92): its bytes, the result slot, the vector, the tail. -/
def cqWrite (fn : Fn) (p : Posted) (s : State) : State :=
  let tail := fget (R.CMD_CQ_TAIL_tail fn) s
  let phase := fget (R.CMD_CQ_TAIL_phase fn) s
  let sqh := fget (R.CMD_SQ_HEAD_head fn) s
  let wasEmpty := decide (fget (R.CMD_CQ_HEAD_head fn) s = tail)
  let s := hostWrite (fget (R.CMD_CQ_BASE_base fn) s * 4096 + 32 * tail) (complBytes p.c sqh phase) s
  let s := match p.slot with
    | none => s
    | some n => { s with hif := { s.hif with
        slots := tset s.hif.slots (slotKey fn n) ⟨some (complBytes p.c sqh 0), some tail⟩ } }
  let s := if p.lop then
      { s with hif := { s.hif with lops := tupd s.hif.lops (lopKey fn p.c.tag) fun l => { l with index := some tail } } }
    else s
  let wrap := decide (tail + 1 = cqSize fn s)
  let s := fset (R.CMD_CQ_TAIL_tail fn) (if wrap then 0 else tail + 1) s
  let s := if wrap then fset (R.CMD_CQ_TAIL_phase fn) (1 - phase) s else s
  let s := fset (R.CMD_STATUS_in_flight fn) (fget (R.CMD_STATUS_in_flight fn) s - 1) (cinc (cmdBase fn + 0x40) s)
  if wasEmpty then signal fn 0 s else s

/-- The waiting completions of a function written in order, until one ends in a PCIe error (R80) or none is left. -/
def cqFlushList (fn : Fn) (l : List Posted) (s : State) : State :=
  match l with
  | [] => { s with hif := { s.hif with cqWait := terase s.hif.cqWait (fnNum fn) } }
  | p :: r =>
    if fon (R.CMD_STATUS_cq_halted fn) s || !s.mem.linkUp then
      { s with hif := { s.hif with cqWait := tset s.hif.cqWait (fnNum fn) (p :: r) } }
    else if hostOk (fget (R.CMD_CQ_BASE_base fn) s * 4096 + 32 * fget (R.CMD_CQ_TAIL_tail fn) s) 32 s then
      cqFlushList fn r (cqWrite fn p s)
    else haltCq fn { s with hif := { s.hif with cqWait := tset s.hif.cqWait (fnNum fn) (p :: r) } }

/-- The waiting completions of a function written. -/
def cqFlush (fn : Fn) (s : State) : State := cqFlushList fn (tget [] s.hif.cqWait (fnNum fn)) s

/-- A completion posted: noted as the function's latest, and written to its CQ where the function's rings are enabled. -/
def post (fn : Fn) (p : Posted) (s : State) : State :=
  let s := { s with hif := { s.hif with last := tset s.hif.last (fnNum fn) p.c } }
  if fon (R.CMD_CTRL_enable fn) s then
    cqFlush fn { s with hif := { s.hif with
      cqWait := tset s.hif.cqWait (fnNum fn) (tget [] s.hif.cqWait (fnNum fn) ++ [p]) } }
  else s

/-- A NOT_OWNED completion of a VF is counted in its Ring's foreign-reference counter (R19). -/
def countForeign (fn : Fn) (status : Nat) (s : State) : State :=
  match fn with
  | .pf => s
  | .vf r => if status = stNotOwned then cinc (ringCnt r 0) s else s

/-- A command ended: its completion posted, or COMMAND_ORPHANED raised where a function-level reset left it (R72). -/
def flightEnd (f : Flight) (r : Rsp) (s : State) : State :=
  let s := countForeign f.cmd.fn r.status s
  if f.orphan then
    raisePf (ev EV_COMMAND_ORPHANED 0 (fnRing f.cmd.fn) 5 f.cmd.tag
      (f.opcode + r.status * 2 ^ 16 + r.reason * 2 ^ 24 + fnNum f.cmd.fn * 2 ^ 32) s) s
  else
    post f.cmd.fn ⟨{ complOf f.cmd.tag f.opcode r with late := f.late, lateness := f.lateness, effect := f.effect }, f.slot,
      false⟩ s

/-- A query or always-on command ended. -/
def queryEnd (opcode : Nat) (c : Cmd) (slot : Option Nat) (cp : Compl) (s : State) : State :=
  let s := countForeign c.fn cp.status s
  post c.fn ⟨{ cp with tag := c.tag, opcode := opcode }, slot, false⟩ s

/-! ## Long operations (R88) -/

/-- Live operations of a function: those not terminal (R79, R88). A terminal one keeps its record, and its tag, until its final completion
is retired. -/
def lopLive (fn : Fn) (s : State) : Nat := (s.hif.lops.filter fun p => decide (p.2.fn = fn) && !p.2.st.terminal).length

/-- CMD_STATUS.long_ops brought up to date. -/
def lopSync (fn : Fn) (s : State) : State := fset (R.CMD_STATUS_long_ops fn) (lopLive fn s) s

/-- The LOP_STATE event of an operation (R88, R492). -/
def lopEvent (l : Lop) (s : State) : State :=
  let e := ev EV_LOP_STATE 0 (fnRing l.fn) 5 l.tag
    (l.st.code + l.opcode * 2 ^ 16 + l.reason * 2 ^ 32 + fnNum l.fn * 2 ^ 40) s
  if l.orphan then raisePf e s else raise e s

/-- An operation's record replaced. -/
def lopPut (l : Lop) (s : State) : State :=
  { s with hif := { s.hif with lops := tset s.hif.lops (lopKey l.fn l.tag) l } }

/-- An operation's record. -/
def lopFind (fn : Fn) (tag : Nat) (s : State) : Option Lop := tfind s.hif.lops (lopKey fn tag)

/-- An operation moved to a state that is not terminal; SUSPENDED is reported (R88). -/
def lopMove (fn : Fn) (tag : Nat) (st : LopSt) (s : State) : State :=
  match lopFind fn tag s with
  | none => s
  | some l =>
    let l := { l with st := st }
    let s := lopPut l s
    if st = .suspended then lopEvent l s else s

/-- An operation ended: its final completion posted with LONG_FINAL and its terminal state, LOP_STATE raised. A record whose
function was reset, or whose function has no enabled CQ, is freed at once (R72; log entry 12). -/
def lopEnd (fn : Fn) (tag : Nat) (st : LopSt) (status reason result : Nat) (late : Bool) (lateness effect : Nat)
    (s : State) : State :=
  match lopFind fn tag s with
  | none => s
  | some l =>
    let l := { l with st := st, reason := reason }
    let s := lopPut l s
    let s := if l.orphan then s
      else post fn ⟨⟨tag, l.opcode, status, reason, late, false, true, st.code, lateness, effect, result⟩, l.slot, true⟩ s
    let s := lopEvent l s
    lopSync fn (if l.orphan || !fon (R.CMD_CTRL_enable fn) s then
      { s with hif := { s.hif with lops := terase s.hif.lops (lopKey fn tag) } }
    else s)

/-- A long command taken (R88): BUSY where eight operations are live or the tag is in use, else a record in QUEUED. -/
def lopStart (opcode : Nat) (c : Cmd) (slot : Option Nat) (s : State) : State :=
  if 8 ≤ lopLive c.fn s || (lopFind c.fn c.tag s).isSome then
    queryEnd opcode c slot (complOf c.tag opcode (rspErr stBusy)) s
  else
    let l : Lop := ⟨c.fn, c.tag, opcode, c, slot, .queued, false, false, none, 0, s.hif.lopCount⟩
    lopSync c.fn (lopPut l { s with hif := { s.hif with lopCount := s.hif.lopCount + 1 } })

/-- An operation's first phase begun. -/
def lopBegin (fn : Fn) (tag : Nat) (s : State) : State :=
  match lopFind fn tag s with
  | none => s
  | some l => if l.st = .queued then lopPut { l with st := .running, started := true } s else s

/-- Whether the operation may work on: RUNNING, or with a suspend or cancel still pending. -/
def lopActive (l : Lop) : Bool :=
  match l.st with
  | .running => true | .suspending => true | .cancelling => true
  | _ => false

end Sys2Proof.Machine
end

