-- ==== Sys2Proof/Machine/Frm.lean ====
section
/-! DEFINITION. What the framing image in force says (spec/02_framing_image.md): accessors over the timbers, ownership of
identifiers (R17, R19, R42), and the admission arithmetic of R29 to R35. -/
namespace Sys2Proof.Machine

/-! ## Timbers -/

def tyBay : Nat := 1
def tyRing : Nat := 2
def tyQueue : Nat := 3
def tyClock : Nat := 4
def tyMem : Nat := 5
def tyRoute : Nat := 6
def tyBind : Nat := 7
def tyPolicy : Nat := 8
def tyMarquee : Nat := 9
def tyKernel : Nat := 10
def tyWrap : Nat := 0xE0
def tySig : Nat := 0xF0

/-- The body of the timber of a type, scope, ring and instance in a list of timbers; empty where there is none. -/
def bodyIn (l : List Timber) (ty scope ring inst : Nat) : List Byte :=
  match l.find? fun t => decide (t.type = ty) && decide (t.scope = scope) && decide (t.ring = ring) && decide (t.inst = inst) with
  | some t => t.body
  | none => []

/-- A device-scope body. -/
def devBody (l : List Timber) (ty : Nat) : List Byte := bodyIn l ty 0 0xFF 0
/-- A Ring-scope body. -/
def ringBody (l : List Timber) (ty r : Nat) : List Byte := bodyIn l ty 1 r 0

/-- An image is in force (R58, R70). -/
def imgActive (s : State) : Bool := decide (fget R.FRM_STATUS_state s = 2)

/-! ## Ring definitions (R42) -/

/-- A Ring is defined: it has a definition timber with flags bit 0 set. -/
def ringDefinedIn (l : List Timber) (r : Nat) : Bool :=
  let b := ringBody l tyRing r
  !b.isEmpty && bit (le b 1 1) 0

def ringDefined (r : Nat) (s : State) : Bool := imgActive s && ringDefinedIn s.frm.timbers r

/-- The first identifier and the count of a Ring's range: kinds 0 legs, 1 Acts, 2 streams, 3 keys. -/
def rangeIn (l : List Timber) (kind r : Nat) : Nat × Nat :=
  let b := ringBody l tyRing r
  match kind with
  | 0 => (le b 4 2, le b 6 2)
  | 1 => (le b 8 2, le b 10 2)
  | 2 => (le b 12 4, le b 16 4)
  | _ => (le b 20 4, le b 24 4)

/-- Whether Ring `r`'s range of a kind holds `id`. -/
def inRange (l : List Timber) (kind r id : Nat) : Bool :=
  ringDefinedIn l r && decide ((rangeIn l kind r).1 ≤ id) && decide (id < (rangeIn l kind r).1 + (rangeIn l kind r).2)

/-- Whether Ring `r` owns canvas `c`. -/
def inCanvas (l : List Timber) (r c : Nat) : Bool := ringDefinedIn l r && bit (le (ringBody l tyRing r) 0x1C 32) c

/-- The Ring whose range of a kind (4: canvases) holds `id`. -/
def ringOf (kind id : Nat) (s : State) : Option Nat :=
  (List.range 16).find? fun r =>
    if kind = 4 then inCanvas s.frm.timbers r id else inRange s.frm.timbers kind r id

/-- The Ring of an object that lies in no Ring's range: none that has a share, so that nothing of it is admitted (R19, R35). -/
def noRing : Nat := 16

/-- Whether a function may name an object (R19): the PF any, a VF its Ring's. -/
def owns (fn : Fn) (kind id : Nat) (s : State) : Bool :=
  match fn with
  | .pf => true
  | .vf r => decide (ringOf kind id s = some r)

/-- Ring `r`'s share of budget `k` on a Bay, in the timber's unit (R42). -/
def shareIn (l : List Timber) (r bay k : Nat) : Nat :=
  if ringDefinedIn l r then le (ringBody l tyRing r) (0x40 + 32 * bay + 4 * k) 4 else 0

/-- SHA-384 of the Ring's key. -/
def ringKeyHash (r : Nat) (s : State) : List Byte := slice (ringBody s.frm.timbers tyRing r) 0xC0 48

/-! ## Policy, clock plan, queue sizes -/

/-- The reserve byte of a budget (R49). -/
def reserveIn (l : List Timber) (k : Nat) : Nat := le (devBody l tyPolicy) k 1
def shadowLog2 (s : State) : Nat := le (devBody s.frm.timbers tyPolicy) 8 1
def fallbackDefault (s : State) : Nat := le (devBody s.frm.timbers tyPolicy) 9 1
def telemetryPeriod (s : State) : Nat := le (devBody s.frm.timbers tyPolicy) 12 4

def planEthMode (s : State) : Nat := le (devBody s.frm.timbers tyClock) 0 1
def planRefclk (s : State) : Nat := le (devBody s.frm.timbers tyClock) 1 1
def planPtpMode (s : State) : Nat := le (devBody s.frm.timbers tyClock) 2 1
def planPtpPort (s : State) : Nat := le (devBody s.frm.timbers tyClock) 3 1
def planTdmMode (p : Nat) (s : State) : Nat := le (devBody s.frm.timbers tyClock) (4 + p) 1
def planDpEnable (s : State) : Nat := le (devBody s.frm.timbers tyClock) 8 1
def planDpBpc (s : State) : Nat := le (devBody s.frm.timbers tyClock) 9 1
def planDdrRate (s : State) : Nat := le (devBody s.frm.timbers tyClock) 12 4

/-- A queue's depth in a queue-sizes body: class and index (R44). -/
def depthIn (b : List Byte) (cls idx : Nat) : Option Nat :=
  ((List.range (b.length / 8)).find? fun i =>
    decide (le b (8 * i) 1 = cls) && decide (le b (8 * i + 2) 2 = idx)).map fun i => le b (8 * i + 4) 4

/-- A ready queue's depth where the structure gives none (log entry 40). -/
def readyDefault : Nat := 4096

/-- The depth of a queue in force. -/
def queueDepth (cls idx : Nat) (s : State) : Option Nat :=
  if cls < 3 then depthIn (devBody s.frm.timbers tyQueue) cls idx
  else depthIn (ringBody s.frm.timbers tyQueue idx) cls idx

/-! ## Memory plan (R46) -/

/-- A region of the memory plan. -/
structure Region where
  base : Nat
  size : Nat
  owner : Nat
  kind : Nat
  page : Nat
  mirror : Nat
  chanA : Nat
  chanB : Nat
  deriving DecidableEq, Repr

def regionAt (b : List Byte) (i : Nat) : Region :=
  let o := 32 + 32 * i
  ⟨le b o 8, le b (o + 8) 8, le b (o + 16) 1, le b (o + 17) 1, le b (o + 18) 1, le b (o + 19) 1, le b (o + 20) 1, le b (o + 21) 1⟩

/-- The regions of a memory plan body. -/
def regionsIn (b : List Byte) : List Region := (List.range (le b 2 2)).map (regionAt b)

def regions (s : State) : List Region := regionsIn (devBody s.frm.timbers tyMem)

/-- Bytes of DRAM that a plan populates. -/
def dramBytesIn (b : List Byte) : Nat :=
  ((List.range 12).map fun c => if bit (le b 0 2) c then le b (4 + c) 1 else 0).foldl (· + ·) 0 * 2 ^ 30

/-- The region that holds all of [a, a + n). -/
def regionOf (a n : Nat) (s : State) : Option Region :=
  (regions s).find? fun g => decide (g.base ≤ a) && decide (a + n ≤ g.base + g.size)

/-- The regions of an owner and kind, in plan order. -/
def regionsOf (owner kind : Nat) (s : State) : List Region :=
  (regions s).filter fun g => decide (g.owner = owner) && decide (g.kind = kind)

/-- The staging region's bytes (R55): the kind-8 region, or 32 MiB of the Truss cache before one is in force. -/
def stagingSize (s : State) : Nat :=
  match (regions s).find? fun g => decide (g.kind = 8) with
  | some g => g.size
  | none => 32 * 2 ^ 20

/-! ## Route templates and bindings -/

def templateAt (b : List Byte) (i : Nat) : Template :=
  let o := 32 * i
  ⟨le b o 2, le b (o + 2) 1, le b (o + 3) 1, le b (o + 4) 4, le b (o + 8) 1, le b (o + 9) 1, le b (o + 10) 1, le b (o + 11) 1⟩

/-- The template of a number in Ring `r`'s route templates. -/
def template (r id : Nat) (s : State) : Option Template :=
  let b := ringBody s.frm.timbers tyRoute r
  ((List.range (b.length / 32)).map (templateAt b)).find? fun t => decide (t.id = id)

/-- Kinds 0, 2, 3 and 4 make a mixing Act (R33, R47). -/
def Template.mixing (t : Template) : Bool := decide (t.kind ≠ 1)

/-- A kernel binding (R48). -/
structure Binding where
  kernel : Nat
  ring : Nat
  image : Nat
  clusters : Nat
  maxCycles : Nat
  prio : Nat
  scope : Nat
  deriving DecidableEq, Repr

def bindingAt (scope : Nat) (b : List Byte) (i : Nat) : Binding :=
  let o := 16 * i
  ⟨le b o 1, le b (o + 1) 1, le b (o + 2) 2, le b (o + 4) 4, le b (o + 8) 4, le b (o + 12) 1, scope⟩

def bindingsIn (scope : Nat) (b : List Byte) : List Binding := (List.range (b.length / 16)).map (bindingAt scope b)

/-- Every binding of a structure: the device's, then each Ring's; a Ring binding's scope is its Ring, the device's 16. -/
def bindingsOf (l : List Timber) : List Binding :=
  bindingsIn 16 (devBody l tyBind) ++ ((List.range 16).map fun r => bindingsIn r (ringBody l tyBind r)).flatten

/-- Every binding in force. -/
def bindings (s : State) : List Binding := bindingsOf s.frm.timbers

/-! ## Bay allotment (R40) and steering (R16) -/

def bayState (l : List Timber) (b : Nat) : Nat := le (devBody l tyBay) (32 * b + 1) 1
def tileService (b : Nat) (s : State) : Nat := le (devBody s.frm.timbers tyBay) (32 * b + 4) 4
def tileSpare (b : Nat) (s : State) : Nat := le (devBody s.frm.timbers tyBay) (32 * b + 8) 4
def coreSpare (cl : Nat) (s : State) : Nat := le (devBody s.frm.timbers tyBay) (32 * (cl / 8) + 12 + cl % 8) 1

/-- The units of a Bay that the image places in service (R40): its compositor (0), classifier (1), cipher engines (2, 3). -/
def unitEnable (l : List Timber) (b : Nat) : Nat := le (devBody l tyBay) (32 * b + 20) 4
def unitIn (b u : Nat) (s : State) : Bool := bit (unitEnable s.frm.timbers b) u

/-- The Bay of a steering bucket in the image. -/
def steerImage (l : List Timber) (k : Nat) : Nat := bits (le (devBody l tyBay) (128 + k / 4) 1) (2 * (k % 4)) 2

/-- The Bay of a steering bucket now. -/
def steerBay (k : Nat) (s : State) : Nat := (tfind s.frm.steer k).getD (steerImage s.frm.timbers k)

/-- A Bay is in service (FLT_BAY_STATUS, R410). -/
def bayIn (b : Nat) (s : State) : Bool := decide (b < 4) && decide (fget (R.FLT_BAY_STATUS_state b) s = 0)

/-- Address of counter `o` of cipher engine `e`. -/
def ciphCnt (e o : Nat) : Nat := 0xC1040 + 0x100 * e + o

/-- The cipher engine of a Bay that takes a request: the one asked for, or its neighbour where the image places only that in service
(R40). -/
def engineFor (bay pick : Nat) (s : State) : Nat :=
  let u := pick % 2
  2 * bay + (if unitIn bay (2 + u) s || !unitIn bay (3 - u) s then u else 1 - u)

/-- The engine whose Ringmaster port takes the next request: the first in service (which one, no rule says: log entry 161). -/
def ringEngine (s : State) : Nat := ((List.range 8).find? fun e => bayIn (e / 2) s && unitIn (e / 2) (2 + e % 2) s).getD 0

/-- A verify-only request served (R134), a tag-mode request served (R135). -/
def verifyOnly (s : State) : State := cinc (ciphCnt (ringEngine s) 0x30) s
def tagServed (s : State) : State := cinc (ciphCnt (ringEngine s) 0x38) s

/-! ## Framing operations that meet a fault (R68) -/

/-- The FETCH of every operation that is in it begun again: its DMA path was lost. -/
def fetchRestart (s : State) : State :=
  { s with frm := { s.frm with ops := tmap s.frm.ops fun _ (o : FrmOp) => if o.phase = .fetch then { o with img := [] } else o } }

/-- The pass of every operation that is in one begun again where the Bay that goes out holds the engine it uses (log entry 161). -/
def passRestart (bay : Nat) (s : State) : State :=
  if ringEngine s / 2 ≠ bay then s
  else { s with frm := { s.frm with ops := tmap s.frm.ops fun _ (o : FrmOp) =>
    if o.phase = .pass1 then { o with next := 0 } else if o.phase = .pass2 then { o with next := 0, plain := [] } else o } }

/-! ## Budgets and charges (R29 to R35) -/

/-- How many base units one unit of a budget's share holds: pixels in a Mpixel, packets in a kpacket, kilobits in a Mb. -/
def budgetScale (k : Nat) : Nat :=
  match k with
  | 1 => 1000000 | 2 => 1000000 | 3 => 1000000 | 4 => 1000 | 5 => 1000
  | _ => 1

/-- A Bay's whole budget at 6400 MT/s (R32), in the share's unit. -/
def bayBudget (k : Nat) : Nat :=
  match k with
  | 0 => 40960 | 1 => 8000 | 2 => 4000 | 3 => 1000 | 4 => 37500 | 5 => 100000
  | _ => 32768

/-- The share of a Bay's budget that its units in service give, as a numerator and denominator: R32's figures are for all units in service
(log entry 160).  Decode and encode go with the tiles, composition, ingress and SRTP with the compositor, classifier and cipher engines. -/
def unitShare (l : List Timber) (b k : Nat) : Nat × Nat :=
  let u := unitEnable l b
  match k with
  | 1 => (popCount (le (devBody l tyBay) (32 * b + 4) 4), 16)
  | 2 => (popCount (le (devBody l tyBay) (32 * b + 4) 4), 16)
  | 3 => (u % 2, 1)
  | 4 => (bits u 1 1, 1)
  | 5 => (bits u 2 1 + bits u 3 1, 2)
  | _ => (1, 1)

/-- A Bay's budget in a structure: what its units give (R32), decode, encode and composition at the plan's DRAM rate, rounding down
(R369). -/
def budgetIn (l : List Timber) (b k : Nat) : Nat :=
  let r := le (devBody l tyClock) 12 4
  let n := bayBudget k * (unitShare l b k).1 / (unitShare l b k).2
  if 1 ≤ k && k ≤ 3 && 0 < r && r < 6400 then n * r / 6400 else n

/-- A Bay's budget under the structure in force. -/
def bayBudgetAt (b k : Nat) (s : State) : Nat := budgetIn s.frm.timbers b k

def noCharge : Charge := [0, 0, 0, 0, 0, 0, 0]

/-- A charge of one budget alone. -/
def chargeOf (k n : Nat) : Charge := setAt noCharge k n

def chargeAdd (a b : Charge) : Charge := a.zipWith (· + ·) b
def chargeSub (a b : Charge) : Charge := a.zipWith (· - ·) b

/-- The key of a Ring's use of a budget on a Bay. -/
def useKey (r bay k : Nat) : Nat := (r * 4 + bay) * 8 + k

/-- A Ring's charged use of a budget on a Bay, in base units. -/
def used (r bay k : Nat) (s : State) : Nat := tget 0 s.ctl.used (useKey r bay k)

/-- A Bay's charged use of a budget, over all Rings. -/
def bayUsed (bay k : Nat) (s : State) : Nat := ((List.range 16).map fun r => used r bay k s).foldl (· + ·) 0

/-- The charge table with each budget of a Ring on a Bay changed by `f`. -/
def useMap (r bay : Nat) (c : Charge) (f : Nat → Nat → Nat) (t : Tbl Nat) : Tbl Nat :=
  (List.range 7).foldl (fun t k => tset t (useKey r bay k) (f (tget 0 t (useKey r bay k)) (c.getD k 0))) t

/-- A charge made against a Ring and a Bay; Bay 4 stands for none (R413). -/
def chargeUp (r bay : Nat) (c : Charge) (s : State) : State :=
  if 4 ≤ bay then s else { s with ctl := { s.ctl with used := useMap r bay c (· + ·) s.ctl.used } }

/-- A charge returned. -/
def chargeDown (r bay : Nat) (c : Charge) (s : State) : State :=
  if 4 ≤ bay then s else { s with ctl := { s.ctl with used := useMap r bay c (· - ·) s.ctl.used } }

/-- Whether a charge fits a Ring's uncharged share on a Bay and the Bay's budget less the reserve (R29, R34, R35). -/
def fits (r bay : Nat) (c : Charge) (s : State) : Bool :=
  bayIn bay s && (List.range 7).all fun k =>
    let n := c.getD k 0
    let share := shareIn s.frm.timbers r bay k * budgetScale k
    decide (n = 0) || (decide (0 < share) && decide (used r bay k s + n ≤ share) &&
      decide (256 * (bayUsed bay k s + n) ≤ bayBudgetAt bay k s * budgetScale k * (256 - reserveIn s.frm.timbers k)))

/-- The score of an eligible Bay (R35): the least uncharged fraction of the charged budgets, in units of 1/65,536. -/
def bayScore (r bay : Nat) (c : Charge) (s : State) : Nat :=
  ((List.range 7).filter fun k => decide (c.getD k 0 ≠ 0)).foldl
    (fun m k =>
      let share := shareIn s.frm.timbers r bay k * budgetScale k
      min m ((share - used r bay k s) * 65536 / share)) 65536

/-- The placement of R35: the eligible Bay with the greatest score, the lowest number on a tie. -/
def place (r : Nat) (c : Charge) (s : State) : Option Nat :=
  argMax (((List.range 4).filter fun b => fits r b c s).map fun b => (b, (bayScore r b c s : Int)))

/-- Whether a charge fits a Bay's whole uncharged capacity, reserve included (R413). -/
def fitsWhole (bay : Nat) (c : Charge) (s : State) : Bool :=
  bayIn bay s && (List.range 7).all fun k =>
    decide (c.getD k 0 = 0) || decide (bayUsed bay k s + c.getD k 0 ≤ bayBudgetAt bay k s * budgetScale k)

/-- The placement of a re-home (R413): by each Bay's whole uncharged capacity. -/
def placeWhole (c : Charge) (s : State) : Option Nat :=
  argMax (((List.range 4).filter fun b => fitsWhole b c s).map fun b =>
    (b, (((List.range 7).filter fun k => decide (c.getD k 0 ≠ 0)).foldl (fun m k =>
      min m ((bayBudgetAt b k s * budgetScale k - bayUsed b k s) * 65536 / (bayBudgetAt b k s * budgetScale k))) 65536 : Int)))

/-- An entry of the drained-work list forgotten (R418): the object is gone, or home. -/
def drainForget (kind id : Nat) (s : State) : State :=
  { s with flt := { s.flt with drained := s.flt.drained.filter fun e => !(decide (e.kind = kind) && decide (e.id = id)) } }

/-! ## Reports of R3 and R5 -/

/-- Whether block `b` carries on a run of failing blocks whose last is `last`: it is that block or the next. -/
def runsOn (b : Nat) (last : Option Nat) : Bool :=
  match last with
  | some n => decide (stampSub b n ≤ 1)
  | none => false

/-- DETERMINISM_LOST of an Act with a cause (1 POLICED, 2 OVERFLOW, 3 OVER_CAPACITY, 4 RESERVE_EXCEEDED) for block `b`: queued once for a run
of contiguous failing blocks of one cause, with the first one's stamp, and counted for the Act and the Ring (R3, R462, R468; log entry
14). -/
def determinismLostAt (act cause b : Nat) (s : State) : State :=
  match tfind s.ctl.acts act with
  | none => s
  | some a =>
    let k := rateKey EV_DETERMINISM_LOST (act * 8 + cause)
    let last := tfind s.hif.rate k
    let s := { s with hif := { s.hif with rate := tset s.hif.rate k (last.elim b fun n => if stampAfter n b then n else b) } }
    if runsOn b last then s
    else
      let off := if b = s.clk.stamp then s.clk.offset else 0
      let s := capNote act ⟨7, 0, b, off, 0, 0, 0, leBytes 4 act ++ leBytes 8 cause⟩ s
      let s := match repOf act s with
        | some (k, r) => repPut k { r with stopped := true } s
        | none => s
      raise ⟨EV_DETERMINISM_LOST, b, off, 0, some a.ring, 2, act, cause⟩ (cinc (ringCnt a.ring 0x10) (cinc (actCnt act 0x18) s))

/-- DETERMINISM_LOST for the block that runs. -/
def determinismLost (act cause : Nat) (s : State) : State := determinismLostAt act cause s.clk.stamp s

/-- A leg's block degraded (R5): counted once a block for the leg and its Ring. -/
def degraded (leg : Nat) (s : State) : State :=
  match tfind s.ctl.legs leg with
  | none => s
  | some l =>
    if l.degraded then s
    else cinc (ringCnt l.ring 8) (cinc (legCnt leg 0x108)
      { s with ctl := { s.ctl with legs := tset s.ctl.legs leg { l with degraded := true } } })

end Sys2Proof.Machine
end

