-- ==== Sys2Proof/Machine/KeyOps.lean ====
section
/-! DEFINITION. The key store (spec/05_cipher_keys.md): slots, references, zeroisation, loading, binding. -/
namespace Sys2Proof.Machine

/-! ## Slots -/

/-- An empty slot that has never been loaded (R120). -/
def KeySlot.empty : KeySlot := ⟨false, 0, 0, 0, [], [], []⟩

def keySlot (n : Nat) (s : State) : KeySlot := tget KeySlot.empty s.key.slots n

def keySlotPut (n : Nat) (k : KeySlot) (s : State) : State := { s with key := { s.key with slots := tset s.key.slots n k } }

/-- A slot is VALID or BOUND. -/
def keyValid (n : Nat) (s : State) : Bool := (keySlot n s).valid

/-- A context references a slot, as current or previous key. -/
def Stream.uses (st : Stream) (n : Nat) : Bool :=
  decide (st.key = some n) || (match st.prev with | some p => decide (p.1 = n) | none => false)

/-- The slot's bound attribute: some context references it (R120). -/
def keyBound (n : Nat) (s : State) : Bool := s.ctl.streams.any fun p => p.2.uses n

/-- Valid slots (KEY_COUNT_VALID). -/
def keyCount (s : State) : Nat := (s.key.slots.filter fun p => p.2.valid).length

/-- KEY_COUNT_VALID brought up to date. -/
def keySync (s : State) : State := fset R.KEY_COUNT_VALID_count (keyCount s) s

/-- The master key and salt lengths of a profile (R118), none for a profile not supported. -/
def profileLens (p : Nat) : Option (Nat × Nat) :=
  if p = 1 then some (16, 14) else if p = 7 then some (16, 12) else if p = 8 then some (32, 12) else none

/-- The bytes of a profile's authentication tag (R118). -/
def tagLen (p : Nat) : Nat := if p = 1 then 10 else 16

/-- The key check value: the first three bytes of the cipher of a zero block (R121). -/
def kcvOf (key : List Nat) : Nat := beVal ((aesEnc key (List.replicate 16 0)).take 3)

/-- One session key or salt by RFC 3711's derivation at rate 0, from the master salt left-aligned in 14 bytes (R119). -/
def srtpDerive (key salt : List Nat) (label len : Nat) : List Nat :=
  let x := padTo 0 14 salt
  let iv := setAt x 7 (Nat.xor (x.getD 7 0) label)
  (((List.range (len / 16 + 1)).map fun i => aesEnc key (iv ++ [i / 256, i % 256])).flatten).take len

/-- The six session keys and salts (R120): SRTP encryption, authentication, salt, then SRTCP's. -/
def sessionKeys (profile : Nat) (key salt : List Nat) : List (List Nat) :=
  let n := key.length
  let a := if profile = 1 then 20 else 0
  let sl := if profile = 1 then 14 else 12
  [srtpDerive key salt 0 n, srtpDerive key salt 1 a, srtpDerive key salt 2 sl,
   srtpDerive key salt 3 n, srtpDerive key salt 4 a, srtpDerive key salt 5 sl]

/-- A slot emptied: every content overwritten with zeros, its generation kept (R120, R122). -/
def keyEmpty (n : Nat) (s : State) : State := keySync (keySlotPut n { KeySlot.empty with gen := (keySlot n s).gen } s)

/-- Every reference of the contexts to a slot cleared; rollover counter and index stay (R140). -/
def keyUnref (n : Nat) (s : State) : State :=
  { s with ctl := { s.ctl with streams := tmap s.ctl.streams fun _ st =>
      { st with key := if st.key = some n then none else st.key,
                former := if st.former = some n then none else st.former,
                prev := match st.prev with
                  | some p => if p.1 = n then none else some p
                  | none => none } } }

/-! ## Staging (R123) -/

def KeyStage.empty : KeyStage := ⟨[], none, 15⟩

def keyStage (fn : Fn) (s : State) : KeyStage := tget KeyStage.empty s.key.stage (fnNum fn)

def keyStagePut (fn : Fn) (k : KeyStage) (s : State) : State :=
  { s with key := { s.key with stage := tset s.key.stage (fnNum fn) k } }

/-- The staging area overwritten with zeros and its written mask cleared. -/
def keyDiscard (fn : Fn) (s : State) : State :=
  fset (R.KEY_LOAD_STATUS_written fn) 0 (keyStagePut fn { keyStage fn s with words := [] } s)

/-- The functions of the part, the PF first. -/
def allFns : List Fn := .pf :: (List.range 16).map fun r => .vf r

/-- The result codes of KEY_LOAD_STATUS: 0 OK, 1 NOT_OWNED, 2 BAD_PROFILE, 3 SLOT_VALID, 4 BOUND, 5 INCOMPLETE, 6 BAD_KEY, 7
ZEROISED, 15 NONE. -/
def krOk : Nat := 0
def krNotOwned : Nat := 1
def krBadProfile : Nat := 2
def krSlotValid : Nat := 3
def krBound : Nat := 4
def krIncomplete : Nat := 5
def krBadKey : Nat := 6
def krZeroised : Nat := 7

/-- The staged bytes of words `i` up to `j`, byte 0 of a word in its bits [7:0]. -/
def stageBytes (k : KeyReq) (i j : Nat) : List Nat :=
  ((List.range (j - i)).map fun w => (leBytes 4 (tget 0 k.words (i + w))).map (·.toNat)).flatten

/-- The checks of a load in R124's order: the result, OK where all pass. -/
def keyLoadCheck (fn : Fn) (k : KeyReq) (slot profile : Nat) (s : State) : Nat :=
  if !owns fn 3 slot s then krNotOwned
  else match profileLens profile with
    | none => krBadProfile
    | some (kl, sl) =>
      if k.words.length < 12 then krIncomplete
      else if !((stageBytes k 0 8).drop kl).all (· = 0) || !((stageBytes k 8 12).drop sl).all (· = 0) then krBadKey
      else if keyValid slot s then krSlotValid
      else krOk

/-- The checks of an erase: ownership, then a bound slot is refused (R122, R124). -/
def keyEraseCheck (fn : Fn) (slot : Nat) (s : State) : Nat :=
  if !owns fn 3 slot s then krNotOwned else if keyBound slot s then krBound else krOk

/-- A go of KEY_LOAD_CTRL: ignored with collision while the function is busy (R125); otherwise the request is taken with the words as they
stand, and the staging discarded (R123). -/
def keyGo (fn : Fn) (op : Nat) (s : State) : State :=
  if fon (R.KEY_LOAD_STATUS_busy fn) s then fset (R.KEY_LOAD_STATUS_collision fn) 1 s
  else
    let k := keyStage fn s
    let q : KeyReq := ⟨op, fget (R.KEY_LOAD_SLOT_slot fn) s, fget (R.KEY_LOAD_SLOT_profile fn) s, k.words⟩
    let s := keyDiscard fn s
    if op = 0 then s
    else
      let s := keyStagePut fn { keyStage fn s with req := some q } s
      fset (R.KEY_LOAD_STATUS_busy fn) 1 { s with key := { s.key with queue := s.key.queue ++ [fn] } }

/-- A request's end: busy clear, the result shown, refusals counted (R123, R143). -/
def keyDone (fn : Fn) (res kcv : Nat) (s : State) : State :=
  let s := keyStagePut fn { keyStage fn s with req := none } s
  let s := fset (R.KEY_LOAD_STATUS_busy fn) 0 (fset (R.KEY_LOAD_STATUS_result fn) res s)
  let s := fset (R.KEY_LOAD_KCV_kcv fn) kcv s
  if res = krOk then s else cinc 0x80308 s

/-- The request at the head of the key store's queue completed (R122, R124, R125). -/
def keyComplete (s : State) : State :=
  match s.key.queue with
  | [] => s
  | fn :: rest =>
    let s := { s with key := { s.key with queue := rest } }
    match (keyStage fn s).req with
    | none => s
    | some k =>
      let slot := k.slot
      let profile := k.profile
      if k.op = 1 then
        let res := keyLoadCheck fn k slot profile s
        if res = krOk then
          let lens := (profileLens profile).getD (16, 14)
          let key := (stageBytes k 0 8).take lens.1
          let salt := (stageBytes k 8 12).take lens.2
          let s := fset R.CIPH_SCA_CFG_dummy_en 1 (fset R.CIPH_SCA_CFG_shuffle_en 1 s)
          let s := keySync (keySlotPut slot
            ⟨true, profile, ((keySlot slot s).gen + 1) % 65536, kcvOf key, key, salt, sessionKeys profile key salt⟩ s)
          keyDone fn krOk (kcvOf key) (cinc 0x80300 s)
        else keyDone fn res 0 s
      else
        let res := keyEraseCheck fn slot s
        if res = krOk then keyDone fn krOk 0 (if keyValid slot s then keyEmpty slot s else s) else keyDone fn res 0 s

/-! ## Zeroisation (R139, R140) -/

/-- The scope of a zeroisation: the device, or one Ring. -/
inductive ZScope
  | device
  | ring (r : Nat)
  deriving DecidableEq, Repr

/-- Whether a slot is in scope. -/
def inScope (sc : ZScope) (n : Nat) (s : State) : Bool :=
  match sc with
  | .device => true
  | .ring r => inRange s.frm.timbers 3 r n

/-- Slots of a scope overwritten with zeros and their references cleared. -/
def zeroSlots (sc : ZScope) (s : State) : State :=
  let ks := (tkeys s.key.slots).filter fun n => inScope sc n s
  keySync (ks.foldl (fun s n => keyUnref n (keyEmpty n s)) s)

/-- Every staging area discarded, and a load in progress into a slot of the scope ended ZEROISED (R125, R139, R448). -/
def zeroStages (sc : ZScope) (s : State) : State :=
  let s := { s with cas := { s.cas with words := [] } }
  allFns.foldl (fun s fn =>
    let s := keyDiscard fn s
    match (keyStage fn s).req with
    | some k =>
      if k.op = 1 && inScope sc k.slot s then
        keyDone fn krZeroised 0 { s with key := { s.key with queue := s.key.queue.filter fun f => f != fn } }
      else s
    | none => s) s

/-- KR1, the cascade key, and CAS_KEY_STATUS with it (R448). -/
def kr1Put (k : List Nat) (s : State) : State :=
  fset R.CAS_KEY_STATUS_valid (b2n (!k.isEmpty)) (fset R.CAS_KEY_STATUS_kcv (if k.isEmpty then 0 else kcvOf k)
    { s with key := { s.key with kr1 := k } })

/-- Zeroisation of a scope with its cause (KEY_ZEROISE_STATUS): slots, private registers (whole device), staging; the event to
the PF and to every Ring in scope; the acknowledge is then awaited (ZEROISE_ACK). -/
def zeroise (sc : ZScope) (cause : Nat) (s : State) : State :=
  let s := zeroStages sc (zeroSlots sc s)
  let s := match sc with
    | .device => kr1Put [] { s with key := { s.key with kr0 := [] } }
    | .ring _ => s
  let s := cinc 0x80310 (fset R.KEY_ZEROISE_STATUS_cause cause s)
  let s := { s with key := { s.key with zreq := true } }
  match sc with
  | .ring r =>
    raise (ev EV_KEY_ZEROISED 0 (some r) 0 0 (1 + cause * 16) s) (fset R.KEY_ZEROISE_STATUS_ring r s)
  | .device =>
    let e := ev EV_KEY_ZEROISED 0 none 0 0 (cause * 16) s
    let s := raise e s
    (List.range 16).foldl (fun s r => if ringDefinedIn s.frm.timbers r then evqPush (evqVf r) e s else s) s

/-! ## Binding (R126, R127) -/

/-- The reason a bind fails: 4 TDM, 1 NO_KEY, 2 DIRECTION, 3 SSRC_REUSE in that order, 0 where none holds. -/
def bindReason (id slot : Nat) (st : Stream) (s : State) : Nat :=
  if st.tdm then 4
  else if !keyValid slot s then 1
  else if s.ctl.streams.any fun p => p.2.uses slot && decide (p.2.dir ≠ st.dir) then 2
  else if decide (st.dir = 1) && s.ctl.streams.any fun p =>
      decide (p.1 ≠ id) && decide (p.2.dir = 1) && p.2.uses slot && decide (p.2.ssrc = st.ssrc) then 3
  else 0

/-- A context with a slot bound at block `b`: the rollover counter is taken at the first bind only; an ingress context's former
slot stays as the previous one for the grace blocks. -/
def bindStream (slot roc grace b : Nat) (st : Stream) : Stream :=
  let prev := match st.dir, st.key with
    | 0, some k => if 0 < grace then some (k, stampAdd b grace) else none
    | _, _ => none
  { st with
    key := some slot
    prev := prev
    former := st.key
    bound := true
    keyFrom := b
    roc := if st.bound then st.roc else roc }

/-- A context without keys. -/
def unbindStream (st : Stream) : Stream := { st with key := none, prev := none, former := none }

end Sys2Proof.Machine
end

