-- ==== Sys2Proof/Machine/Srtp.lean ====
section
/-! DEFINITION. SRTP and SRTCP protection (spec/05_cipher_keys.md R118, R119): the three profiles over a slot's session keys, the
index estimate and the replay window (R128).  Packets are lists of bytes given as Nat. -/
namespace Sys2Proof.Machine

/-! ## HMAC-SHA-1 -/

def w32 : Nat := 2 ^ 32
def rotl32 (a k : Nat) : Nat := a * 2 ^ k % w32 + a / 2 ^ (32 - k)

/-- The message schedule, newest first. -/
def sha1Sched (fuel : Nat) (w : List Nat) : List Nat :=
  match fuel with
  | 0 => w
  | f + 1 => sha1Sched f
      (rotl32 (Nat.xor (w.getD 2 0) (Nat.xor (w.getD 7 0) (Nat.xor (w.getD 13 0) (w.getD 15 0)))) 1 :: w)

/-- One round: the five working words, the round number, the schedule word. -/
def sha1Round (v : List Nat) (t w : Nat) : List Nat :=
  match v with
  | [a, b, c, d, e] =>
    let nb := w32 - 1 - b
    let fk := if t < 20 then (Nat.lor (Nat.land b c) (Nat.land nb d), 0x5A827999)
      else if t < 40 then (Nat.xor b (Nat.xor c d), 0x6ED9EBA1)
      else if t < 60 then (Nat.lor (Nat.land b c) (Nat.lor (Nat.land b d) (Nat.land c d)), 0x8F1BBCDC)
      else (Nat.xor b (Nat.xor c d), 0xCA62C1D6)
    [(rotl32 a 5 + fk.1 + e + fk.2 + w) % w32, a, rotl32 b 30, c, d]
  | _ => v

def sha1Block (h blk : List Nat) : List Nat :=
  let w := (sha1Sched 64 ((groups 16 4 blk).map beVal).reverse).reverse
  let v := (w.zip (List.range 80)).foldl (fun v p => sha1Round v p.2 p.1) h
  h.zipWith (fun a b => (a + b) % w32) v

/-- `k` big-endian bytes of `n`, as Nat. -/
def beNats (k n : Nat) : List Nat := (beBytes k n).map (·.toNat)

/-- SHA-1 (FIPS 180-4). -/
def sha1 (m : List Nat) : List Nat :=
  let z := (119 - m.length % 64) % 64
  let p := m ++ [0x80] ++ List.replicate z 0 ++ beNats 8 (8 * m.length)
  let h := (groups (p.length / 64 + 1) 64 p).foldl sha1Block [0x67452301, 0xEFCDAB89, 0x98BADCFE, 0x10325476, 0xC3D2E1F0]
  (h.map (beNats 4)).flatten

/-- HMAC-SHA-1 with a key of at most 64 bytes. -/
def hmacSha1 (key m : List Nat) : List Nat :=
  let k := padTo 0 64 key
  sha1 (k.map (Nat.xor 0x5C) ++ sha1 (k.map (Nat.xor 0x36) ++ m))

/-! ## Packets -/

/-- Big-endian field of a Nat-byte packet. -/
def bev (l : List Nat) (o k : Nat) : Nat := beVal ((l.drop o).take k)

/-- The length of an RTP header with its CSRC list and extension; none where the packet is too short for it. -/
def rtpHdrLen (p : List Nat) : Option Nat :=
  let n := 12 + 4 * (p.getD 0 0 % 16)
  if p.length < n then none
  else if bit (p.getD 0 0) 4 then
    let m := n + 4 + 4 * bev p (n + 2) 2
    if p.length < n + 4 || p.length < m then none else some m
  else some n

/-- AES in counter mode from a 16-byte initial value whose low 16 bits count blocks (RFC 3711 4.1.1). -/
def cmXor (key : List Nat) (iv : Nat) (gs : List (List Nat)) (i : Nat) : List Nat :=
  match gs with
  | [] => []
  | g :: r => xorL g (aesEnc key (beNats 16 (iv + i))) ++ cmXor key iv r (i + 1)

/-- A session key or salt of a slot: 0 to 2 SRTP's encryption key, authentication key and salt, 3 to 5 SRTCP's. -/
def sess (k : KeySlot) (i : Nat) : List Nat := k.session.getD i []

/-- The text enciphered or deciphered by profile 0x01. -/
def cmText (k : KeySlot) (b ssrc index : Nat) (t : List Nat) : List Nat :=
  let iv := Nat.xor (Nat.xor (beVal (sess k (b + 2)) * 2 ^ 16) (ssrc * 2 ^ 64)) (index * 2 ^ 16)
  cmXor (sess k b) iv (groups (t.length / 16 + 1) 16 t) 0

/-- The 96-bit IV of RFC 7714: for SRTP the rollover counter and sequence number, for SRTCP the index. -/
def gcmIv (k : KeySlot) (b ssrc index : Nat) : List Nat :=
  xorL ([0, 0] ++ beNats 4 ssrc ++ (if b = 0 then beNats 6 index else [0, 0] ++ beNats 4 index)) (sess k (b + 2))

/-- An SRTP packet of an RTP packet at an index (R132). -/
def srtpProtect (k : KeySlot) (index : Nat) (p : List Nat) : List Nat :=
  let h := (rtpHdrLen p).getD 12
  let hd := p.take h
  let ssrc := bev p 8 4
  if k.profile = 1 then
    let m := hd ++ cmText k 0 ssrc index (p.drop h)
    m ++ (hmacSha1 (sess k 1) (m ++ beNats 4 (index / 65536))).take 10
  else
    let ct := gcmPlain (sess k 0) (gcmIv k 0 ssrc index) (p.drop h)
    hd ++ ct ++ gcmTag (sess k 0) (gcmIv k 0 ssrc index) hd ct

/-- The RTP packet of an SRTP packet, where its tag verifies (R128). -/
def srtpOpen (k : KeySlot) (index : Nat) (p : List Nat) : Option (List Nat) :=
  let tl := tagLen k.profile
  let body := p.take (p.length - tl)
  let tag := p.drop (p.length - tl)
  if p.length < 12 + tl then none
  else match rtpHdrLen body with
    | none => none
    | some h =>
      let ssrc := bev p 8 4
      let hd := body.take h
      let ct := body.drop h
      if k.profile = 1 then
        if (hmacSha1 (sess k 1) (body ++ beNats 4 (index / 65536))).take 10 = tag then
          some (hd ++ cmText k 0 ssrc index ct) else none
      else if gcmTag (sess k 0) (gcmIv k 0 ssrc index) hd ct = tag then
        some (hd ++ gcmPlain (sess k 0) (gcmIv k 0 ssrc index) ct) else none

/-- An SRTCP packet of an RTCP compound; the E flag is always set (R119). -/
def srtcpProtect (k : KeySlot) (index : Nat) (p : List Nat) : List Nat :=
  let hd := p.take 8
  let ssrc := bev p 4 4
  let ew := beNats 4 (index + 2 ^ 31)
  if k.profile = 1 then
    let m := hd ++ cmText k 3 ssrc index (p.drop 8) ++ ew
    m ++ (hmacSha1 (sess k 4) m).take 10
  else
    let ct := gcmPlain (sess k 3) (gcmIv k 3 ssrc index) (p.drop 8)
    hd ++ ct ++ gcmTag (sess k 3) (gcmIv k 3 ssrc index) (hd ++ ew) ct ++ ew

/-- The word of an SRTCP packet that carries the E flag and the index. -/
def srtcpWord (k : KeySlot) (p : List Nat) : Nat :=
  if k.profile = 1 then bev p (p.length - 14) 4 else bev p (p.length - 4) 4

/-- The RTCP compound of an SRTCP packet, where its tag verifies; E = 0 and E = 1 are both taken (R119). -/
def srtcpOpen (k : KeySlot) (p : List Nat) : Option (List Nat) :=
  if p.length < 8 + 4 + tagLen k.profile then none
  else
    let w := srtcpWord k p
    let e := bit w 31
    let index := w % 2 ^ 31
    let ssrc := bev p 4 4
    if k.profile = 1 then
      let m := p.take (p.length - 10)
      let body := p.take (p.length - 14)
      if (hmacSha1 (sess k 4) m).take 10 = p.drop (p.length - 10) then
        some (if e then body.take 8 ++ cmText k 3 ssrc index (body.drop 8) else body)
      else none
    else
      let ew := beNats 4 w
      let body := p.take (p.length - 20)
      let tag := (p.drop (p.length - 20)).take 16
      let iv := gcmIv k 3 ssrc index
      if e then
        if gcmTag (sess k 3) iv (body.take 8 ++ ew) (body.drop 8) = tag then
          some (body.take 8 ++ gcmPlain (sess k 3) iv (body.drop 8)) else none
      else if gcmTag (sess k 3) iv (body ++ ew) [] = tag then some body else none

/-! ## Index and window (R119, R128) -/

/-- The index of a sequence number by RFC 3711 3.3.1, from the highest committed index or, before any, the initial rollover
counter; none where it would leave 0 to 2^48 − 1. -/
def srtpIndex (x : IdxState) (roc seq : Nat) : Option Nat :=
  if !x.any then some (roc * 65536 + seq)
  else
    let sl := x.high % 65536
    let r := x.high / 65536
    if sl < 32768 then
      if 32768 < (seq : Int) - sl then (if r = 0 then none else some ((r - 1) * 65536 + seq)) else some (r * 65536 + seq)
    else if seq + 32768 < sl then (if r + 1 < 2 ^ 32 then some ((r + 1) * 65536 + seq) else none)
    else some (r * 65536 + seq)

/-- Whether an index passes the replay check: above the highest, or in the window of 128 and not marked. -/
def idxOk (x : IdxState) (i : Nat) : Bool :=
  !x.any || decide (x.high < i) || (decide (x.high < i + 128) && !bit x.window (x.high - i))

/-- An index committed. -/
def idxCommit (x : IdxState) (i : Nat) : IdxState :=
  if !x.any then ⟨true, i, 1⟩
  else if x.high < i then ⟨true, i, (if i < x.high + 128 then x.window * 2 ^ (i - x.high) % 2 ^ 128 else 0) + 1⟩
  else if bit x.window (x.high - i) then x
  else ⟨true, x.high, x.window + 2 ^ (x.high - i)⟩

end Sys2Proof.Machine
end

