-- ==== Sys2Proof/Machine/Ingress.lean ====
section
/-! DEFINITION. Packet ingress (spec/04_packet_ingress.md): parsing and classification (R102, R103), policing (R108 to R110), the
exception path (R106), sequence validation and jitter rings (R111 to R115). -/
namespace Sys2Proof.Machine

/-! ## Bytes -/

/-- The big-endian field of `k` bytes at offset `o`; bytes past the end read 0. -/
def be (l : List Byte) (o k : Nat) : Nat := beNat (slice l o k)

/-- One byte. -/
def b8 (l : List Byte) (o : Nat) : Nat := (l.getD o 0).toNat

def toNats (l : List Byte) : List Nat := l.map (·.toNat)
def ofNats (l : List Nat) : List Byte := l.map fun n => BitVec.ofNat 8 n

/-- The ones' complement sum of a byte string, in 16-bit words, an odd last byte padded with 0. -/
def onesSum (l : List Byte) : Nat :=
  let t := ((groups (l.length / 2 + 1) 2 l).map fun w => be w 0 2).foldl (· + ·) 0
  let t := t % 65536 + t / 65536
  t % 65536 + t / 65536

/-! ## Parsing (R102) -/

/-- What a frame turns out to be before its destination is looked up. -/
inductive FrameKind
  | bad | nonIp | frag | otherIp | ptp | udp
  deriving DecidableEq, Repr

/-- A parsed frame: the fields of the steering hash (R16; addresses as 16 bytes) and the UDP payload. -/
structure Parsed where
  kind : FrameKind
  src : List Byte
  dst : List Byte
  proto : Nat
  sport : Nat
  dport : Nat
  payload : List Byte
  deriving DecidableEq, Repr

def Parsed.none (k : FrameKind) : Parsed := ⟨k, List.replicate 16 0, List.replicate 16 0, 0, 0, 0, []⟩

/-- An IPv4 address in IPv4-mapped form. -/
def v4Mapped (a : List Byte) : List Byte := List.replicate 10 0 ++ [0xFF, 0xFF] ++ a

/-- The UDP part: length, checksum (a zero checksum is taken in IPv4 and refused in IPv6). -/
def parseUdp (v6 : Bool) (p : Parsed) (l4 : List Byte) : Parsed :=
  let n := be l4 4 2
  let pseudo := p.src ++ p.dst ++ leBytes 1 0 ++ [17] ++ beBytes 2 n
  let p := { p with sport := be l4 0 2, dport := be l4 2 2 }
  if l4.length < 8 || n < 8 || l4.length < n then { p with kind := .bad }
  else
    let ok := if be l4 6 2 = 0 then !v6
      else decide (onesSum ((if v6 then pseudo else (pseudo.drop 12).take 4 ++ pseudo.drop 28) ++ l4.take n) = 0xFFFF)
    if ok then { p with kind := .udp, payload := (l4.take n).drop 8 } else { p with kind := .bad }

/-- The ports of an IP fragment's first piece, for the steering hash. -/
def withPorts (first : Bool) (l4 : List Byte) (p : Parsed) : Parsed :=
  if p.proto = 17 && first && decide (4 ≤ l4.length) then { p with sport := be l4 0 2, dport := be l4 2 2 } else p

/-- An IPv4 packet. -/
def parseV4 (b : List Byte) : Parsed :=
  let ihl := b8 b 0 % 16 * 4
  let tot := be b 2 2
  let fr := be b 6 2 % 0x4000
  let p : Parsed := ⟨.otherIp, v4Mapped (slice b 12 4), v4Mapped (slice b 16 4), b8 b 9, 0, 0, []⟩
  let l4 := (b.take tot).drop ihl
  if b.length < 20 || b8 b 0 / 16 ≠ 4 then Parsed.none .bad
  else if ihl < 20 || tot < ihl || b.length < tot || onesSum (b.take ihl) ≠ 0xFFFF then { p with kind := .bad }
  else if fr ≠ 0 then withPorts (fr % 0x2000 = 0) l4 { p with kind := .frag }
  else if p.proto = 17 then parseUdp false p l4
  else p

/-- Skips IPv6 extension headers of the kinds R102 names, at most `fuel` of them: the next header and the offset behind them. -/
def skipExt (fuel nh pos : Nat) (b : List Byte) (fin : Nat) : Nat × Nat :=
  match fuel with
  | 0 => (nh, pos)
  | f + 1 =>
    if (nh = 0 || nh = 43 || nh = 60) && decide (pos + 2 ≤ fin) then
      skipExt f (b8 b pos) (pos + (b8 b (pos + 1) + 1) * 8) b fin
    else (nh, pos)

/-- An IPv6 packet. -/
def parseV6 (b : List Byte) : Parsed :=
  let fin := 40 + be b 4 2
  let h := skipExt 2 (b8 b 6) 40 b fin
  let p : Parsed := ⟨.otherIp, slice b 8 16, slice b 24 16, h.1, 0, 0, []⟩
  if b.length < 40 || b8 b 0 / 16 ≠ 6 then Parsed.none .bad
  else if b.length < fin || fin < h.2 then { p with kind := .bad }
  else if h.1 = 44 then { p with kind := .frag }
  else if h.1 = 17 then parseUdp true p ((b.take fin).drop h.2)
  else p

/-- A frame: at most an 802.1ad or 802.1Q tag pair is skipped (R102). -/
def parseFrame (f : List Byte) : Parsed :=
  let t := be f 12 2
  let o := if t = 0x88A8 && be f 16 2 = 0x8100 then 20 else if t = 0x8100 then 16 else 12
  let ty := be f o 2
  let b := f.drop (o + 2)
  if ty = 0x0800 then parseV4 b
  else if ty = 0x86DD then parseV6 b
  else if ty = 0x88F7 then Parsed.none .ptp
  else Parsed.none .nonIp

/-- The steering bucket: bits [11:0] of CRC-32C over the 37 bytes of ING_STEER's table. -/
def steerBucket (p : Parsed) : Nat :=
  crc32c (p.src ++ p.dst ++ leBytes 1 p.proto ++ beBytes 2 p.sport ++ beBytes 2 p.dport) % 4096

/-- Local address n, first byte in the low bits of its first word. -/
def localAddr (n : Nat) (s : State) : List Byte :=
  leBytes 4 (fget (R.ING_LOCAL_ADDR0_addr n) s) ++ leBytes 4 (fget (R.ING_LOCAL_ADDR1_addr n) s)
    ++ leBytes 4 (fget (R.ING_LOCAL_ADDR2_addr n) s) ++ leBytes 4 (fget (R.ING_LOCAL_ADDR3_addr n) s)

/-- The leg of a UDP frame: from the lowest local address that it fits (R102). -/
def localLeg (p : Parsed) (s : State) : Option Nat :=
  ((List.range 16).find? fun n =>
    fon (R.ING_LOCAL_valid n) s && decide (fget (R.ING_LOCAL_port_base n) s ≤ 49152) && decide (localAddr n s = p.dst) &&
      decide (fget (R.ING_LOCAL_port_base n) s ≤ p.dport) && decide (p.dport ≤ fget (R.ING_LOCAL_port_base n) s + 16383)).map
    fun n => p.dport - fget (R.ING_LOCAL_port_base n) s

/-! ## Links (R95) -/

/-- The links of an eth_mode. -/
def linkCount (mode : Nat) : Nat :=
  match mode with
  | 0 => 4 | 1 => 2 | 2 => 1
  | _ => 8

/-- The port of a link. -/
def linkPort (link : Nat) (s : State) : Nat := if fget R.ETH_MODE_eth_mode s = 3 then link / 2 else link

/-- Lanes of a link. -/
def linkLanes (mode : Nat) : Nat :=
  match mode with
  | 0 => 2 | 1 => 4 | 2 => 8
  | _ => 1

def linkUp (link : Nat) (s : State) : Bool := decide (fget (R.ETH_LINK_STATUS_state link) s = 5)

/-- Address of link counter `o`, of pipeline counter `o`. -/
def ethCnt (link o : Nat) : Nat := 0x101040 + 0x200 * link + o
def ingCnt (bay o : Nat) : Nat := 0x142000 + 0x100 * bay + o

/-! ## Turnstile (R108, R109) -/

def byteDepth (l : Leg) (s : State) : Nat := max 155648 (l.srtpRate * fget R.ING_TS_CFG_burst_blocks s)
def pktDepth (l : Leg) (s : State) : Nat := max 8000 (l.pktRate * fget R.ING_TS_CFG_burst_blocks s)

/-- A leg with both buckets refilled for a block; the levels before stay for frames of the block before (R99). -/
def Leg.refill (l : Leg) (s : State) : Leg :=
  { l with prevByte := l.byteLvl, prevPkt := l.pktLvl, byteLvl := min (byteDepth l s) (l.byteLvl + l.srtpRate), pktLvl := min (pktDepth l s) (l.pktLvl + l.pktRate) }

/-- Every leg's buckets refilled. -/
def refillAll (s : State) : State :=
  { s with ctl := { s.ctl with legs := tmap s.ctl.legs fun _ l => l.refill s, pfExc := 0 } }

/-- The report of a policed frame of a leg: counters, R3, and POLICED at most once in 2,000 blocks with the count since the last
(R109). -/
def policed (leg bytes : Nat) (l : Leg) (s : State) : State :=
  let s := determinismLost l.act 1 (cadd (legCnt leg 8) bytes (cinc (legCnt leg 0) s))
  let n := tget 0 s.ctl.policed leg + 1
  match rateOk (rateKey EV_POLICED leg) 2000 s with
  | (true, s) =>
    raiseObj EV_POLICED l.ring 1 leg n { s with ctl := { s.ctl with policed := terase s.ctl.policed leg } }
  | (false, s) => { s with ctl := { s.ctl with policed := tset s.ctl.policed leg n } }

/-- A leg's buckets as they stood before the current block's refill, where the frame arrived before this block and no frame of this block has
been charged yet (R99, R109). -/
def Leg.asOf (l : Leg) (arrival : Nat) (s : State) : Option Leg :=
  let l0 : Leg := { l with byteLvl := l.prevByte, pktLvl := l.prevPkt }
  if stampAfter s.clk.stamp arrival && decide (l0.refill s = l) then some l0 else none

/-- A frame of an arrival stamp charged to its leg: true where it is admitted.  A charge stays whatever becomes of the frame after the
Turnstile (R110; log entry 175). -/
def charge (leg plen flen arrival : Nat) (s : State) : Bool × State :=
  match tfind s.ctl.legs leg with
  | none => (false, s)
  | some l =>
    let early := l.asOf arrival s
    let x := early.getD l
    if 16 * plen ≤ x.byteLvl && 2000 ≤ x.pktLvl then
      let x := { x with byteLvl := x.byteLvl - 16 * plen, pktLvl := x.pktLvl - 2000 }
      (true, { s with ctl := { s.ctl with legs := tset s.ctl.legs leg (if early.isSome then x.refill s else x) } })
    else (false, policed leg flen l s)

/-! ## The exception path (R106) -/

/-- The 32-byte header of an exception slot. -/
def excHeader (len reason phase : Nat) (trunc : Bool) (leg : Option Nat) (f : Frame) : List Byte :=
  leBytes 2 len ++ leBytes 1 reason ++ leBytes 1 (phase + 2 * b2n trunc) ++ leBytes 2 (leg.getD 0xFFFF) ++ leBytes 1 f.link
    ++ [0] ++ leBytes 8 (f.arrival + f.offset * 2 ^ 48) ++ leBytes 6 f.sec ++ leBytes 4 f.ns ++ List.replicate 6 0

/-- An exception frame written to a function's exception ring, or dropped and counted: the ring is off or full, or the host does not
answer. -/
def excWrite (fn : Fn) (reason : Nat) (leg : Option Nat) (f : Frame) (s : State) : State :=
  let tail := fget (R.ING_EXC_TAIL_tail fn) s
  let phase := fget (R.ING_EXC_TAIL_phase fn) s
  let size := 2 ^ fget (R.ING_EXC_CFG_log2 fn) s
  let slot := 2 ^ fget (R.ING_EXC_CFG_slot_log2 fn) s
  let a := fget (R.ING_EXC_BASE_base fn) s * 4096 + tail * slot
  if !fon (R.ING_EXC_CFG_enable fn) s || !ringRoom (fget (R.ING_EXC_HEAD_head fn) s) tail size 0 || !hostOk a slot s then
    cinc (ingCnt f.bay 0x18) s
  else
    let body := f.bytes.take (slot - 32)
    let s := hostWrite a (excHeader body.length reason phase (decide (slot - 32 < f.bytes.length)) leg f ++ body) s
    let wrap := decide (tail + 1 = size)
    let s := fset (R.ING_EXC_TAIL_tail fn) (if wrap then 0 else tail + 1) s
    cinc (ingCnt f.bay 0x10) (if wrap then fset (R.ING_EXC_TAIL_phase fn) (1 - phase) s else s)

/-- An exception frame delivered: dropped where the PF's rate in this block is used up, held while the PCIe link is down (R72; how many such
frames wait, no rule says: log entry 163), else written. -/
def excDeliver (fn : Fn) (reason : Nat) (leg : Option Nat) (f : Frame) (s : State) : State :=
  let full := decide (fn = .pf) && decide (fget R.ING_EXC_RATE_rate s ≤ s.ctl.pfExc)
  let s := if fn = .pf then { s with ctl := { s.ctl with pfExc := s.ctl.pfExc + 1 } } else s
  if full then cinc (ingCnt f.bay 0x18) s
  else if !s.mem.linkUp then { s with ctl := { s.ctl with excWait := s.ctl.excWait ++ [⟨fn, reason, leg, f⟩] } }
  else excWrite fn reason leg f s

/-- The exception frames that waited for the PCIe link written. -/
def excFlush (s : State) : State :=
  s.ctl.excWait.foldl (fun s x => excWrite x.fn x.reason x.leg x.frame s) { s with ctl := { s.ctl with excWait := [] } }

/-- An exception of reason 1 to 4 of a leg by the leg's state (R103). -/
def excLeg (reason leg : Nat) (f : Frame) (plen : Nat) (s : State) : State :=
  match tfind s.ctl.legs leg with
  | none => excDeliver .pf reason (some leg) f s
  | some l =>
    if l.st = .draining then cinc (legCnt leg 0x10) s
    else match charge leg plen f.bytes.length f.arrival s with
      | (true, s) => excDeliver (.vf l.ring) reason (some leg) f s
      | (false, s) => s

/-! ## RTP headers (R105) -/

/-- The elements of an RFC 8285 header extension: identifiers with their bytes, one-byte or two-byte form. -/
def extElems (fuel : Nat) (one : Bool) (l : List Byte) : List (Nat × List Byte) :=
  match fuel, l with
  | 0, _ => []
  | _, [] => []
  | f + 1, b :: r =>
    if b = 0 then extElems f one r
    else if one then
      if b.toNat / 16 = 15 then [] else (b.toNat / 16, r.take (b.toNat % 16 + 1)) :: extElems f one (r.drop (b.toNat % 16 + 1))
    else match r with
      | [] => []
      | n :: r => (b.toNat, r.take n.toNat) :: extElems f one (r.drop n.toNat)

/-- The profile word of an RTP packet's header extension, where it has one. -/
def extProfile (p : List Byte) : Option Nat := if bit (b8 p 0) 4 then some (be p (12 + 4 * (b8 p 0 % 16)) 2) else none

/-- The header extension elements of an RTP packet. -/
def rtpExt (p : List Byte) : List (Nat × List Byte) :=
  let o := 12 + 4 * (b8 p 0 % 16)
  match extProfile p with
  | none => []
  | some pr =>
    let body := slice p (o + 4) (4 * be p (o + 2) 2)
    if pr = 0xBEDE then extElems body.length true body
    else if pr / 16 = 0x100 then extElems body.length false body
    else []

/-- The element a context negotiated under name `i` of R107: 0 audio level, 1 MID, 2 RID, 3 repaired RID, 4 transport-wide sequence
number, 5 dependency descriptor, 6 frame marking. -/
def extOf (st : Stream) (i : Nat) (p : List Byte) : Option (List Byte) :=
  let id := st.ext.getD i 0
  if id = 0 then none else ((rtpExt p).find? fun e => decide (e.1 = id)).map (·.2)

/-- Cryptex's profile words (RFC 9335). -/
def isCryptex (p : List Byte) : Bool := extProfile p = some 0xC0DE || extProfile p = some 0xC2DE

/-- An RTP packet's payload, its padding removed. -/
def rtpPayload (p : List Byte) : List Byte :=
  let h := (rtpHdrLen (toNats p)).getD 12
  let pad := if bit (b8 p 0) 5 then b8 p (p.length - 1) else 0
  (p.take (p.length - pad)).drop h

/-- Trailing zero bytes removed. -/
def trimZeros (l : List Byte) : List Byte := (l.reverse.dropWhile fun b => b = 0).reverse

/-- The ingress context of a leg with an SSRC. -/
def findSsrc (leg ssrc : Nat) (s : State) : Option Nat :=
  (s.ctl.streams.find? fun p => decide (p.2.leg = leg) && decide (p.2.dir = 0) && p.2.known && decide (p.2.ssrc = ssrc)).map (·.1)

/-- Whether an unbound context's MID and RID match a packet's; an RTX context compares its RID with the repaired RID (R104). -/
def midMatch (st : Stream) (p : List Byte) : Bool :=
  let want := fun (l : List Byte) (i : Nat) =>
    decide (trimZeros l = trimZeros ((extOf st i p).getD []))
  !(allZero st.mid && allZero st.rid) && want st.mid 1 && want st.rid (if st.media = 2 then 3 else 2)

/-- The contexts that R104 would bind a packet's SSRC to. -/
def midCandidates (leg : Nat) (p : List Byte) (s : State) : List Nat :=
  tkeysWhere s.ctl.streams fun _ st => decide (st.leg = leg) && decide (st.dir = 0) && !st.known && midMatch st p

/-! ## Sequence validation (R111) -/

/-- What RFC 3550 A.1 with R111's changes makes of a 16-bit number: the extended number where the packet is valid, and the state
that a valid packet leaves when it is committed, an invalid one at once. -/
def seqExtend (x : SeqState) (seq : Nat) : Option Nat × SeqState :=
  if !x.started then (some (65536 + seq), { x with started := true, maxSeq := seq, cycles := 65536 })
  else
    let d := (seq + 65536 - x.maxSeq) % 65536
    if d < 3000 then
      let c := if seq < x.maxSeq then x.cycles + 65536 else x.cycles
      (some (c + seq), { x with maxSeq := seq, cycles := c })
    else if d ≤ 65536 - 100 then
      if x.badSeq = some seq then
        let b := match x.top with
          | none => 65536
          | some t => t + 1
        let e := b + (seq + 65536 - b % 65536) % 65536
        (some e, { x with cycles := e - seq, maxSeq := seq, badSeq := none })
      else (none, { x with badSeq := some ((seq + 1) % 65536) })
    else if x.maxSeq < seq then (some (x.cycles + seq - 65536), x)
    else (some (x.cycles + seq), x)

/-- Samples of the stream's clock in a block. -/
def clockPerBlock (c : Nat) : Nat :=
  match c with
  | 0 => 4 | 1 => 24
  | _ => 45

/-- Bytes of a jitter-ring entry. -/
def entryBytes (media : Nat) : Nat := if media = 0 then 512 else 2048

/-- The log2 length of a context's jitter ring: its argument, or its Ring's default (R44 class 4), or 2^8 where the image gives none
(log entry 20). -/
def jrLog2 (ring arg : Nat) (s : State) : Nat :=
  if arg ≠ 0 then arg else
    match queueDepth 4 ring s with
    | some d => Nat.log2 d
    | none => 8

/-- A context replaced. -/
def streamPut (id : Nat) (st : Stream) (s : State) : State :=
  { s with ctl := { s.ctl with streams := tset s.ctl.streams id st } }

/-- The Ring of a stream: its leg's. -/
def streamRing (st : Stream) (s : State) : Nat :=
  match tfind s.ctl.legs st.leg with
  | some l => l.ring
  | none => 0

/-- The Act of a stream's leg. -/
def streamAct (st : Stream) (s : State) : Nat :=
  match tfind s.ctl.legs st.leg with
  | some l => l.act
  | none => 0

/-! ## Resizing (R115) -/

/-- The ring of a context at a new length: unreleased entries at or beyond a smaller end are discarded, the others keep their
sequence numbers' places. -/
def jrAt (jr : Tbl JrEntry) (n : Nat) : Tbl JrEntry × Nat :=
  let gone := jr.filter fun p => decide (2 ^ n ≤ p.1) && !p.2.released
  let kept := jr.filter fun p => decide (p.1 < 2 ^ n)
  (kept.foldl (fun t p => tset t (p.2.seq % 2 ^ n) p.2) [], gone.length)

/-- A staged length taken (R115): RESIZE_DROP and R3 for what is discarded, JR_RESIZED. -/
def jrResize (id : Nat) (s : State) : State :=
  match tfind s.ctl.streams id with
  | none => s
  | some st =>
    match st.staged with
    | none => s
    | some n =>
      let j := jrAt st.jr n
      let s := streamPut id { st with jr := j.1, ringLog2 := n, staged := none, due := false } s
      let s := raiseObj EV_JR_RESIZED (streamRing st s) 3 id (n + j.2 * 2 ^ 32) s
      if j.2 = 0 then s else determinismLost (streamAct st s) 2 (cadd (strCnt id 0x20) j.2 s)

/-- A resize that the write pointer has already reached is taken before the ring is next used. -/
def jrSettle (id : Nat) (s : State) : State :=
  match tfind s.ctl.streams id with
  | some st => if st.due then jrResize id s else s
  | none => s

/-- A length staged: at once where nothing has been written since the ring was created. -/
def jrStage (id n : Nat) (s : State) : State :=
  match tfind s.ctl.streams id with
  | none => s
  | some st =>
    let s := streamPut id { st with staged := some n } s
    if st.seq.top = none then jrResize id s else s

/-! ## Jitter rings (R111 to R114) -/

/-- The entry put in its place and the write pointer moved; a pass of offset 0 makes a staged length due (R115). -/
def jrPut (e : JrEntry) (st : Stream) : Stream :=
  let n := 2 ^ st.ringLog2
  let pass := match st.seq.top with
    | none => true
    | some t => decide (t / n < e.seq / n)
  { st with
    jr := tset st.jr (e.seq % n) e
    due := st.due || (pass && st.staged.isSome)
    lastTs := e.ts
    lateRun := 0
    seq := { st.seq with top := some (max (st.seq.top.getD 0) e.seq) } }

/-- Whether the ring still holds a sequence number (R114: DUP). -/
def jrHas (st : Stream) (seq : Nat) : Bool :=
  match tfind st.jr (seq % 2 ^ st.ringLog2) with
  | some e => decide (e.seq = seq)
  | none => false

/-- The last released entry as it was in a packet's arrival block (R99). -/
def relAsOf (st : Stream) (arrival : Nat) : Option Nat := if stampAfter st.relAt arrival then st.relPrev else st.lastRel

/-- Whether a number is older than the last released entry (R114: LATE). -/
def isOld (last : Option Nat) (seq : Nat) : Bool :=
  match last with
  | some r => decide (seq < r)
  | none => false

/-- Whether a number's place holds an entry of another number that is not reusable yet for a packet of an arrival stamp: unreleased, or its
release stamp's block, whose barrier closes when it ends, has not passed (R114: JR_OVERFLOW). -/
def jrFull (st : Stream) (seq arrival : Nat) : Bool :=
  match tfind st.jr (seq % 2 ^ st.ringLog2) with
  | some e => !e.released || (match e.release with
    | some r => !stampAfter arrival r
    | none => true)
  | none => false

/-- A duplicate counted; the entry that is held shows it. -/
def jrDup (id seq : Nat) (st : Stream) (s : State) : State :=
  let k := seq % 2 ^ st.ringLog2
  let st := match tfind st.jr k with
    | some e => { st with jr := tset st.jr k { e with dup := true } }
    | none => st
  cinc (strCnt id 0x10) (streamPut id st s)

/-- Whether a write to a jitter ring comes too late: the block two after the packet's arrival has begun (R112). -/
def writeLate (arrival : Nat) (s : State) : Bool := stampGe s.clk.stamp (stampAdd arrival 2)

/-- A write that missed R112's bound: the entry is lost, and the Act reported with RESERVE_EXCEEDED. -/
def jrMissed (id : Nat) (st : Stream) (s : State) : State := determinismLost (streamAct st s) 4 (cinc (strCnt id 0x28) s)

/-- JR_OVERFLOW's report (R114). -/
def jrOverflow (id seq : Nat) (st : Stream) (s : State) : State :=
  raiseObj EV_JR_OVERFLOW (streamRing st s) 3 id ((seq + 2 ^ 32 - 65536) % 2 ^ 32)
    (determinismLost (streamAct st s) 2 (cinc (strCnt id 0x18) s))

/-- The distance of two RTP timestamps, in either direction. -/
def tsDist (a b : Nat) : Nat :=
  let d := (a + 2 ^ 32 - b % 2 ^ 32) % 2 ^ 32
  min d (2 ^ 32 - d)

/-- A verified audio packet placed (R113, R114).  `e` has no release stamp yet. -/
def jrAudio (id : Nat) (e : JrEntry) (st : Stream) (s : State) : State :=
  let c := clockPerBlock st.clock
  if jrHas st e.seq then jrDup id e.seq st s
  else if isOld (relAsOf st e.arrival) e.seq then cinc (strCnt id 0x08) s
  else
    let jump := st.anchor.isSome && decide (2000 * c < tsDist e.ts st.lastTs)
    let fresh := st.anchor.isNone || st.wantAnchor || jump
    let anchor := if fresh then (stampAdd e.arrival st.delay, e.ts) else st.anchor.getD (0, 0)
    let rel := stampAdd anchor.1 ((e.ts + 2 ^ 32 - anchor.2) % 2 ^ 32 / c)
    if !fresh && !stampAfter rel (stampAdd e.arrival 1) then
      let want := st.wantAnchor || decide (8 ≤ st.lateRun + 1)
      cinc (strCnt id 0x08) (streamPut id { st with lateRun := st.lateRun + 1, wantAnchor := want } s)
    else if jrFull st e.seq e.arrival then jrOverflow id e.seq st s
    else if writeLate e.arrival s then jrMissed id st s
    else
      let re := fresh && st.anchor.isSome
      let s := streamPut id (jrPut { e with release := some rel } { st with anchor := some anchor, wantAnchor := false }) s
      if re then
        raiseObj EV_REANCHOR (streamRing st s) 3 id (b2n (!st.wantAnchor) + rel * 65536) (cinc (strCnt id 0x30) s)
      else s

/-- The unreleased entries of a ring in sequence order. -/
def jrWaiting (st : Stream) : List JrEntry :=
  sortBy (fun a b => decide (a.seq < b.seq)) ((st.jr.filter fun p => !p.2.released).map (·.2))

/-- The first video frame waiting: the entries of the lowest number's timestamp. -/
def frameFirst (st : Stream) : List JrEntry :=
  match jrWaiting st with
  | [] => []
  | e :: r => (e :: r).filter fun x => decide (x.ts = e.ts)

/-- A frame's packets are all present: consecutive from the previous frame's end to its marker packet (R113). -/
def frameComplete (st : Stream) (f : List JrEntry) : Bool :=
  match f with
  | [] => false
  | e :: _ =>
    let n := f.length
    (f.getLast?.map (·.marker)).getD false &&
      (f.zip (List.range n)).all (fun p => decide (p.1.seq = e.seq + p.2)) &&
      (match st.lastRel with
       | none => true
       | some r => decide (e.seq = r + 1))

/-- The stamp at which the first waiting frame is released: the completing packet's arrival + delay, or, while it is incomplete, its
first packet's arrival + 2 × delay; a frame that RTX helped to complete not before that either; never before the frame that precedes it
(R113). -/
def frameDue (st : Stream) (f : List JrEntry) : Nat :=
  let latest := f.foldl (fun a e => if stampAfter e.arrival a then e.arrival else a) ((f.head?.map (·.arrival)).getD 0)
  let first := f.foldl (fun a e => if stampAfter a e.arrival then e.arrival else a) ((f.head?.map (·.arrival)).getD 0)
  let whole := stampAdd latest st.delay
  let limit := stampAdd first (2 * st.delay)
  let d := if frameComplete st f && !((f.any fun e => e.rtx) && stampAfter limit whole) then whole else limit
  if stampAfter st.lastFrameRel d && st.lastRel.isSome then st.lastFrameRel else d

/-- The first waiting frame released at a stamp, flagged INCOMPLETE where it is. -/
def frameRelease (b : Nat) (st : Stream) (f : List JrEntry) : Stream :=
  let inc := !frameComplete st f
  let put := fun (t : Tbl JrEntry) (e : JrEntry) =>
    tset t (e.seq % 2 ^ st.ringLog2) { e with release := some b, incomplete := inc, released := true }
  { st with
    jr := f.foldl put st.jr
    relAt := b
    relPrev := if st.relAt = b then st.relPrev else st.lastRel
    lastRel := some (f.foldl (fun (a : Nat) e => max a e.seq) (st.lastRel.getD 0))
    lastFrameRel := b }

/-- The frames of a video context that are due at block `b`, complete or timed out, in order, released (R113, R114). -/
def framesDue (fuel b : Nat) (st : Stream) : Stream :=
  match fuel with
  | 0 => st
  | n + 1 =>
    let f := frameFirst st
    if f.isEmpty || stampAfter (frameDue st f) b then st
    else framesDue n b (frameRelease b st f)

/-- The entries of an audio context whose release stamp is `b` made visible (R114). -/
def audioDue (b : Nat) (st : Stream) : Stream :=
  let due := st.jr.filter fun p => decide (p.2.release = some b) && !p.2.released
  if due.isEmpty then st
  else
    let last := due.foldl (fun (a : Nat) p => max a p.2.seq) (st.lastRel.getD 0)
    { st with
      jr := due.foldl (fun t p => tset t p.1 { p.2 with released := true }) st.jr
      relAt := b
      relPrev := if st.relAt = b then st.relPrev else st.lastRel
      lastRel := some last }

/-- JITTER_RING_RELEASE: every entry with release stamp `b` becomes visible, in every context, a frame whose 2 × delay ends INCOMPLETE
(R113, R114). -/
def releaseAll (b : Nat) (s : State) : State :=
  let f := fun (_ : Nat) (st : Stream) =>
    if st.dir ≠ 0 then st
    else if st.media = 0 then audioDue b st
    else framesDue (st.jr.length + 1) b st
  { s with ctl := { s.ctl with streams := tmap s.ctl.streams f } }

/-- The entries of a context released at `b`, in sequence order. -/
def releasedAt (b : Nat) (st : Stream) : List JrEntry :=
  sortBy (fun a c => decide (a.seq < c.seq))
    ((st.jr.filter fun p => p.2.released && decide (p.2.release = some b)).map (·.2))

/-- A verified video packet placed in a primary context's ring (R113, R114).  A frame already released takes no more packets, whatever
their arrival (log entry 176). -/
def jrVideo (id : Nat) (e : JrEntry) (st : Stream) (s : State) : State :=
  if jrHas st e.seq then jrDup id e.seq st s
  else if isOld st.lastRel e.seq then cinc (strCnt id 0x08) s
  else if jrFull st e.seq e.arrival then jrOverflow id e.seq st s
  else if writeLate e.arrival s then jrMissed id st s
  else streamPut id (jrPut e st) s

/-- A 16-bit number extended to lie nearest to a context's write pointer: the place of an RTX packet's original number (R113). -/
def nearTop (top : Option Nat) (seq : Nat) : Nat :=
  match top with
  | none => seq
  | some t =>
    let d := (seq + 65536 - t % 65536) % 65536
    if d < 32768 then t + d else if 65536 ≤ t + d then t + d - 65536 else t + d

/-! ## Frames (R96 to R103) -/

/-- Bytes a port's replay store holds: the frames of its links that wait for a verdict or for their delivery to the host (R116). -/
def replayUsed (port : Nat) (s : State) : Nat :=
  (((s.ctl.held.map (·.frame)) ++ (s.ctl.excWait.map (·.frame))).filter fun f => decide (linkPort f.link s = port)).foldl
    (fun n f => n + f.bytes.length) 0

/-- The packets held for an engine, in the order in which it took them, that its hold buffer of 9,728 bytes has room for (R129). -/
def holdFit (room : Nat) (hs : List Held) : List Held :=
  match hs with
  | [] => []
  | h :: r => if h.payload.length ≤ room then h :: holdFit (room - h.payload.length) r else []

/-- The packets in an engine's hold buffer. -/
def holdIn (e : Nat) (s : State) : List Held :=
  holdFit 9728 (sortBy (fun a b => decide (a.id < b.id)) (s.ctl.held.filter fun h => decide (h.eng = e)))

/-- hold_bytes of every engine brought up to date. -/
def holdSync (s : State) : State :=
  (List.range 8).foldl (fun s e =>
    fset (R.CIPH_ENG_STATUS_hold_bytes e) ((holdIn e s).foldl (fun n h => n + h.payload.length) 0) s) s

/-- The order of arrival (R99): receive timestamp, port, link. -/
def arrivedBefore (a b : Frame) (s : State) : Bool :=
  let key := fun (f : Frame) => ((f.sec * 1000000000 + f.ns) * 8 + linkPort f.link s) * 8 + f.link
  decide (key a < key b)

/-- A packet put among those held, in arrival order. -/
def heldAdd (h : Held) (hs : List Held) (s : State) : List Held :=
  (hs.filter fun x => !arrivedBefore h.frame x.frame s) ++ h :: hs.filter fun x => arrivedBefore h.frame x.frame s

/-- A frame handed to a cipher engine and held for its verdict (R128); a request longer than the hold buffer is refused (R129). -/
def hold (stream leg : Nat) (rtcp bind : Bool) (payload : List Byte) (f : Frame) (eng : Nat) (s : State) : State :=
  let e := engineFor f.bay eng s
  if 9728 < payload.length then cinc (ciphCnt e 0x20) s
  else
    let h : Held := ⟨s.ctl.nextHeld, stream, leg, rtcp, bind, payload, f, e, false⟩
    holdSync { s with ctl := { s.ctl with held := heldAdd h s.ctl.held s, nextHeld := s.ctl.nextHeld + 1 } }

/-- The sequence number of an RTP packet is invalid for its context (R111): counted in SEQ_JUMP, the state moved; none where it is
valid. -/
def seqRefused (id seq : Nat) (s : State) : Option State :=
  match tfind s.ctl.streams id with
  | none => none
  | some st =>
    match seqExtend st.seq seq with
    | (none, x) => some (cinc (strCnt id 0xE8) (streamPut id { st with seq := x } s))
    | (some _, _) => none

/-- A policed RTP packet of an ACTIVE leg taken on to its engine (R104, R105, R111, R128). -/
def rtpIn (leg : Nat) (p : List Byte) (f : Frame) (eng : Nat) (l : Leg) (s : State) : State :=
  let go := fun (id : Nat) (bind : Bool) =>
    if s.ctl.held.any fun h => decide (h.stream = id) then hold id leg false bind p f eng s
    else match seqRefused id (be p 2 2) s with
      | some s => s
      | none => hold id leg false bind p f eng s
  if (rtpHdrLen (toNats p)).isNone then excDeliver (.vf l.ring) 4 (some leg) f s
  else if isCryptex p then cinc (legCnt leg 0x18) s
  else match findSsrc leg (be p 8 4) s with
    | some id => go id false
    | none =>
      match midCandidates leg p s with
      | [id] => go id true
      | _ => excDeliver (.vf l.ring) 3 (some leg) f s

/-- A media frame's UDP payload dispatched (R103). -/
def mediaIn (leg : Nat) (p : List Byte) (f : Frame) (eng : Nat) (s : State) : State :=
  let b0 := b8 p 0
  let n := p.length
  let v2 := decide (b0 / 64 = 2) && decide (8 ≤ n)
  let isRtcp := v2 && decide (192 ≤ b8 p 1) && decide (b8 p 1 ≤ 223)
  let isRtp := v2 && !isRtcp && decide (12 ≤ n)
  if n = 0 then excLeg 4 leg f 0 s
  else if b0 < 4 then excLeg 1 leg f n s
  else if 20 ≤ b0 && b0 < 64 then excLeg 2 leg f n s
  else if !isRtcp && !isRtp then excLeg 4 leg f n s
  else
    let s := cinc (ingCnt f.bay (if isRtcp then 8 else 0)) s
    match tfind s.ctl.legs leg with
    | none => cinc (legCnt leg 0x10) s
    | some l =>
      if l.st ≠ .active || (repOf l.act s).isSome then cinc (legCnt leg 0x10) s
      else match charge leg n f.bytes.length f.arrival s with
        | (false, s) => s
        | (true, s) =>
          if isRtcp then
            match findSsrc leg (be p 4 4) s with
            | some id => hold id leg true false p f eng s
            | none => excDeliver (.vf l.ring) 3 (some leg) f s
          else rtpIn leg p f eng l s

/-- A frame past its port (R98 to R103): steered, classified, dispatched. -/
def classify (f : Frame) (p : Parsed) (eng : Nat) (s : State) : State :=
  match p.kind with
  | .bad => cinc (ingCnt f.bay 0x20) s
  | .nonIp => excDeliver .pf 6 none f s
  | .frag => excDeliver .pf 7 none f s
  | .ptp => excDeliver .pf 8 none f s
  | .otherIp => excDeliver .pf 5 none f s
  | .udp =>
    match localLeg p s with
    | some leg => mediaIn leg p.payload f eng s
    | none => excDeliver .pf (if p.dport = 319 || p.dport = 320 then 8 else 5) none f s

/-- Whether a frame is addressed to the cascade's address and port (R443). -/
def casAddressed (p : Parsed) (s : State) : Bool :=
  let n := fget R.CAS_CFG_local s
  decide (p.kind = .udp) && fon (R.ING_LOCAL_valid n) s && decide (localAddr n s = p.dst) && decide (p.dport = fget R.CAS_CFG_udp_port s)

/-- The FCS, which a frame's bytes leave out; R96's shortest frame and the received bytes count it (log entry 56). -/
def fcsLen : Nat := 4

/-- A PAUSE or priority flow control frame: MAC control with the opcode of either. -/
def isPause (bytes : List Byte) : Bool :=
  decide (be bytes 12 2 = 0x8808) && (decide (be bytes 14 2 = 0x0001) || decide (be bytes 14 2 = 0x0101))

/-- The arrival stamp and sample offset of a receive timestamp (R8, R99): those of the block in which PTP time was at it.  A timestamp more
than two blocks before this block's start, or after its end, is none of this run of PTP time: the current block's (log entry 176). -/
def arrivalOf (sec ns : Nat) (s : State) : Nat × Nat :=
  let t := sec * 1000000000 + ns
  let start := s.clk.ptp / 65536
  let k := (start - t + 499999) / 500000
  if start ≤ t then (s.clk.stamp, if t < start + 500000 then (t - start) * 24 / 500000 else s.clk.offset)
  else if 2 < k then (s.clk.stamp, s.clk.offset)
  else (stampSub s.clk.stamp k, (t + k * 500000 - start) * 24 / 500000)

/-- A frame that meets a full replay store (R116): its leg's Act, where it has one, lost input. -/
def replayDrop (bay : Nat) (p : Parsed) (s : State) : State :=
  let s := cinc (ingCnt bay 0x28) s
  match (if p.kind = .udp then localLeg p s else none).bind fun n => tfind s.ctl.legs n with
  | some l => determinismLost l.act 2 s
  | none => s

/-- A frame past its port: UP, its checksum right, its length in range, no pause frame. -/
def frameGood (link : Nat) (bytes : List Byte) (fcsOk : Bool) (s : State) : Bool :=
  linkUp link s && fcsOk && decide (bytes.length ≤ 9728) && decide (64 ≤ bytes.length + fcsLen) && !isPause bytes

/-- A frame received on a link that is UP (R96, R98, R99; the order of R96's discards: log entry 172), held in its port's replay store
(R116); one for the cascade goes to its unit before it is classified. -/
def frameIn (link : Nat) (bytes : List Byte) (fcsOk : Bool) (sec ns eng : Nat) (s : State) : State :=
  if !linkUp link s then s
  else if !fcsOk then cinc (ethCnt link 0x10) s
  else if 9728 < bytes.length then cinc (ethCnt link 0x18) s
  else if bytes.length + fcsLen < 64 then cinc (ethCnt link 0x20) s
  else if isPause bytes then cinc (ethCnt link 0x38) s
  else
    let s := cadd (ethCnt link 8) (bytes.length + fcsLen) (cinc (ethCnt link 0) s)
    let p := parseFrame bytes
    let at_ := arrivalOf sec ns s
    let bay := steerBay (steerBucket p) s
    if casAddressed p s then s
    else if 1572864 < replayUsed (linkPort link s) s + bytes.length then replayDrop bay p s
    else classify ⟨bytes, at_.1, at_.2, sec, ns, link, bay⟩ p eng s

end Sys2Proof.Machine
end

