-- ==== Sys2Proof/Machine/EthRows.lean ====
section
/-! DEFINITION. The commands of the Ethernet links, of PTP time and of packet ingress, but for the cipher's verdict
(spec/04_packet_ingress.md). -/
namespace Sys2Proof.Machine

abbrev Out := Host.Outcome State Fault Refusal

/-! ## Links (R97) -/

/-- A link moved to a state of ETH_LINK_STATUS. -/
def linkTo (link st : Nat) (s : State) : State := fset (R.ETH_LINK_STATUS_state link) st s

/-- A link in state `a` moved on by `f`; in any other state the event cannot happen and nothing changes. -/
def linkIn (link a : Nat) (f : State → State) (s : State) : State :=
  if fget (R.ETH_LINK_STATUS_state link) s = a then f s else s

/-- The FEC a link uses, as LINK_UP reports it: 0 none, 1 RS(544,514), 2 RS(528,514), 3 BASE-R. -/
def linkFec (link : Nat) (s : State) : Nat :=
  if fget R.ETH_MODE_eth_mode s ≠ 3 then 1
  else match fget (R.ETH_LINK_CFG_fec_sel link) s with
    | 1 => 2 | 2 => 3 | 3 => 0
    | _ => Config.fecDefault25G % 4

/-- A link's exit from UP, or a timeout of its ACQUIRE, counted. -/
def linkDownCount (link : Nat) (s : State) : State := cinc (ethCnt link 0x40) s

/-- A link put out of service. -/
def linkDisable (link : Nat) (s : State) : State :=
  let s := fset (R.ETH_LINK_CFG_enable link) 0 s
  linkTo link 0 (if linkUp link s then linkDownCount link s else s)

/-- A link enabled: one that exists in the port mode starts to acquire. -/
def linkEnable (link : Nat) (s : State) : State :=
  let s := fset (R.ETH_LINK_CFG_enable link) 1 s
  if link < linkCount (fget R.ETH_MODE_eth_mode s) then linkIn link 0 (linkTo link 1) s else s

/-- The link's unit: its port. -/
def linkUnit (link : Nat) (s : State) : Nat := unitEth (linkPort link s)

def execEthLinkEnable (link : Nat) (s : State) : Out := .next (linkEnable link s)

def execEthLinkDisable (link : Nat) (s : State) : Out := .next (linkDisable link s)

def execLinkSignalDetect (link : Nat) (s : State) : Out := .next (linkIn link 1 (linkTo link 2) s)

def execLinkAcquireTimeout (link : Nat) (s : State) : Out := .next (linkIn link 1 (linkDownCount link) s)

def execLinkTrainDone (link : Nat) (s : State) : Out := .next (linkIn link 2 (linkTo link 3) s)

def execLinkTrainTimeout (link : Nat) (s : State) : Out := .next (linkIn link 2 (linkTo link 1) s)

/-- Lock on every lane: polarity per lane of the link and lane order are recorded. -/
def execLinkLock (link polInv : Nat) (reversed : Bool) (s : State) : Out :=
  .next (linkIn link 3 (fun s =>
    fset (R.ETH_LINK_STATUS_pol_inv link) (polInv % 2 ^ linkLanes (fget R.ETH_MODE_eth_mode s))
      (fset (R.ETH_LINK_STATUS_reversed link) (b2n reversed) (linkTo link 4 s))) s)

def execLinkLockTimeout (link : Nat) (s : State) : Out := .next (linkIn link 3 (linkTo link 1) s)

/-- Codeword lock: the link is UP, and LINK_UP says with which FEC, lane order and polarities (R492). -/
def execFecCodewordLock (link : Nat) (s : State) : Out :=
  .next (linkIn link 4 (fun s =>
    let s := fset (R.ETH_LINK_STATUS_remote_fault link) 0 (linkTo link 5 s)
    raiseUnit EV_LINK_UP (linkUnit link s) (link % 8 + linkFec link s * 16 + fget (R.ETH_LINK_STATUS_reversed link) s * 64
      + fget (R.ETH_LINK_STATUS_pol_inv link) s * 256) s) s)

/-- A fault of a link that is UP: cause 0 local fault, 1 remote fault, 2 loss of lock. -/
def execLinkFault (link cause : Nat) (s : State) : Out :=
  .next (linkIn link 5 (fun s =>
    let s := fset (R.ETH_LINK_STATUS_remote_fault link) (b2n (decide (cause = 1))) (linkTo link 1 (linkDownCount link s))
    raiseUnit EV_LINK_DOWN (linkUnit link s) (link % 8 + cause % 4 * 16) s) s)

/-- Uncorrected codewords above ser_thresh in each of 2,000 blocks, `n` in the last. -/
def execLinkDegradeDetect (link n : Nat) (s : State) : Out :=
  .next (linkIn link 5 (fun s =>
    if fget (R.ETH_LINK_CFG_ser_thresh link) s < n then
      raiseUnit EV_LINK_DEGRADED (linkUnit link s) (link % 8 + n * 2 ^ 32) (fset (R.ETH_LINK_STATUS_degraded link) 1 s)
    else s) s)

/-! ## PTP time (R98, R100, R101) -/

/-- Nanoseconds of PTP time now: those at the start of the block, and those of the samples since. -/
def ptpNs (s : State) : Nat := s.clk.ptp / 65536 + s.clk.offset * 500000 / 24

/-- Whether the block clock follows PTP time: in ptp_mode 1, once PTP time is valid (R100, R101; log entry 58). -/
def ptpFollows (s : State) : Bool := decide (planPtpMode s = 1) && fon R.ETH_PTP_STATUS_time_valid s

/-- The signed distance in nanoseconds from the nearest 500,000 ns boundary of PTP time to the block's start. -/
def ptpPhase (s : State) : Int :=
  let d := s.clk.ptp / 65536 % 500000
  if d ≤ 250000 then d else d - 500000

/-- The PTP-derived stamp at the block's start: seconds × 2,000 + ⌊nanoseconds / 500,000⌋ (R100; log entry 179). -/
def ptpStamp (s : State) : Nat := s.clk.ptp / 65536 / 500000

/-- The readings of PTP time brought up to date; unless the block clock follows it they stay. -/
def ptpSync (s : State) : State :=
  if ptpFollows s then
    fset R.ETH_PTP_PHASE_phase (ofS 32 (ptpPhase s))
      (fset R.ETH_PTP_STAMP_OFFSET_diff (ofS 64 ((ptpStamp s : Int) - s.clk.stamp)) s)
  else s

/-- PTP time at the next block's start: a block clock that follows it shortens or lengthens the block by at most 25 ns toward the PTP boundary
(R101); the counter runs faster or slower by ETH_PTP_FREQ, in units of 2^-16 ppb. -/
def ptpAdvance (s : State) : State :=
  let len : Int := 500000 - (if ptpFollows s then clampI (-25) 25 (ptpPhase s) else 0)
  let adj := (len * toS 32 (fget R.ETH_PTP_FREQ_freq s)).fdiv 1000000000
  { s with clk := { s.clk with ptp := ((s.clk.ptp : Int) + len * 65536 + adj).toNat } }

/-- A write of ETH_PTP_SEC sets seconds and the held nanoseconds at once, and time_valid. -/
def execPtpTimeSet (v : Nat) (s : State) : Out :=
  let ns := v % 2 ^ 48 * 1000000000 + s.clk.heldNs
  let s := { s with clk := { s.clk with ptp := (ns - s.clk.offset * 500000 / 24) * 65536 } }
  .next (ptpSync (fset R.ETH_PTP_STATUS_time_valid 1 s))

/-- A read of ETH_PTP_NS latches the seconds. -/
def execPtpNsRead (s : State) : Out :=
  let t := ptpNs s
  .next { s with
    clk := { s.clk with latchSec := t / 1000000000 % 2 ^ 48 }
    hif := { s.hif with readData := t % 1000000000 } }

/-- A step of PTP time by signed nanoseconds: the block clock's target moves, its stamps do not. -/
def execPtpStep (v : Nat) (s : State) : Out :=
  .next (ptpSync { s with clk := { s.clk with ptp := ((s.clk.ptp : Int) + toS 64 v * 65536).toNat } })

/-- A PTP second: PTP_PPS_OUT pulses where pps_en drives it. -/
def execPtpPps (s : State) : Out :=
  .next (if fon R.ETH_PTP_CFG_pps_en s then { s with out := .pps (ptpNs s / 1000000000) :: s.out } else s)

/-- The phase error crosses 1 µs: locked changes and is reported; where it has not crossed, nothing changes. -/
def execPtpLockChange (s : State) : Out :=
  let lock := ptpFollows s && decide ((ptpPhase s).natAbs < 1000)
  .next (if fon R.ETH_PTP_STATUS_locked s = lock then s
    else
      let s := fset R.ETH_PTP_STATUS_locked (b2n lock) s
      raiseUnit (if lock then EV_PTP_LOCKED else EV_PTP_UNLOCKED) 0 (ofS 32 (ptpPhase s)) s)

/-! ## Ingress -/

/-- The frame of extended sequence number `seq`, the first that waits, has reached its first arrival + 2 × delay: it is released INCOMPLETE,
and the frames behind it that waited for it follow (R113).  A block's start releases the frames that are due (R114), so that a frame is
left for this only where its stamp is this block's or earlier and the block's start did not release it. -/
def execVideoFrameTimeout (stream seq : Nat) (s : State) : Out :=
  .next (match tfind s.ctl.streams stream with
    | none => s
    | some st =>
      if decide (st.media = 1) && (frameFirst st).any fun e => decide (e.seq = 65536 + seq) then
        streamPut stream (framesDue (st.jr.length + 1) s.clk.stamp st) s
      else s)

/-- A write of ING_JR_RESIZE: with go, a length from 6 to 14 is staged for an admitted ingress context (R115). -/
def execIngJrResize (v : Nat) (s : State) : Out :=
  let id := bits v 0 16
  let n := bits v 16 4
  .next (match tfind s.ctl.streams id with
    | none => s
    | some st => if bit v 31 && 6 ≤ n && n ≤ 14 && st.dir = 0 then jrStage id n s else s)

/-- A write of an exception ring's host head: taken by the rule of R78, or ignored. -/
def execIngExcHeadWrite (fn : Fn) (v : Nat) (s : State) : Out :=
  let h := v % 4096
  .next (if headTaken (fget (R.ING_EXC_HEAD_head fn) s) (fget (R.ING_EXC_TAIL_tail fn) s) (2 ^ fget (R.ING_EXC_CFG_log2 fn) s) h
    then fset (R.ING_EXC_HEAD_head fn) h s else s)

end Sys2Proof.Machine
end

