-- ==== Sys2Proof/Machine/Egr.lean ====
section
/-! DEFINITION. Egress shaping and scheduling (spec/14_egress_scheduling.md) and the rewind rings' writes (R318, R320): queues,
packetising and protection, the window, RTCP compounds. -/
namespace Sys2Proof.Machine

/-! ## Tables -/

/-- The defaults at LEG_ADMIT (R355). -/
def Shaper.dflt : Shaper := ⟨0, 40, 0, 64, 1536, 0, 2000, 0⟩

def hexDigit (n : Nat) : Byte := BitVec.ofNat 8 (if n < 10 then 48 + n else 87 + n)

/-- "zq" and the leg as four lower-case hex digits. -/
def defaultCname (leg : Nat) : List Byte :=
  [122, 113, hexDigit (leg / 4096 % 16), hexDigit (leg / 256 % 16), hexDigit (leg / 16 % 16), hexDigit (leg % 16)]

def EgrStr.init : EgrStr := ⟨0, 0, 0, 0, 0, 0, 0, false, [], false, false⟩

def egrStr (id : Nat) (s : State) : EgrStr := tget EgrStr.init s.egr.strs id

def egrStrPut (id : Nat) (e : EgrStr) (s : State) : State := { s with egr := { s.egr with strs := tset s.egr.strs id e } }

def egrLegPut (leg : Nat) (e : EgrLeg) (s : State) : State := { s with egr := { s.egr with legs := tset s.egr.legs leg e } }

/-- The rate in force: 0 takes the declared SRTP rate. -/
def shRate (sh : Shaper) (l : Leg) : Nat := if sh.rate = 0 then l.srtpRate else sh.rate
def shDepth (sh : Shaper) (l : Leg) : Nat := max 155648 (shRate sh l * sh.burst)
def shWmax (sh : Shaper) (l : Leg) : Nat := if sh.wmax = 0 then max 1600 (4 * ceilDiv (shRate sh l) 16) else sh.wmax

/-- A leg's egress state at LEG_ADMIT: no path, the bucket full (log entry 23). -/
def egrAdmit (leg : Nat) (l : Leg) (s : State) : State :=
  egrLegPut leg ⟨Shaper.dflt, none, defaultCname leg, shDepth Shaper.dflt l, 0, 0, false, 0, [], 0, none, [], 0⟩ s

/-- A freed leg's egress state gone, its waiting frames with it. -/
def egrFree (leg : Nat) (s : State) : State := { s with egr := { s.egr with legs := terase s.egr.legs leg } }

/-- The egress contexts of a leg of one media kind (0 audio, 1 video, 2 RTX), ascending. -/
def egrContexts (leg media : Nat) (s : State) : List Nat :=
  tkeysWhere s.ctl.streams fun _ st => decide (st.leg = leg) && decide (st.dir = 1) && decide (st.media = media)

/-- Every egress context of a leg, ascending. -/
def egrAll (leg : Nat) (s : State) : List Nat := tkeysWhere s.ctl.streams fun _ st => decide (st.leg = leg) && decide (st.dir = 1)

/-! ## Frames handed to a leg's queue -/

/-- A frame put at the end of its leg's waiting frames. -/
def egrPush (leg : Nat) (i : EgrItem) (s : State) : State :=
  match tfind s.egr.legs leg with
  | none => s
  | some e => egrLegPut leg { e with q := e.q ++ [i] } s

/-- An RTP payload of a media kind produced for block `b`; a leg without an egress context of the kind sends nothing. -/
def egrMedia (leg media ts : Nat) (marker : Bool) (ext body : List Nat) (tw : Option Nat) (b : Nat) (s : State) : State :=
  match egrContexts leg media s with
  | [] => s
  | id :: _ => egrPush leg ⟨media + 1, some id, ts % 2 ^ 32, marker, ext, body, b, none, [], 0, none, tw, 0, 0⟩ s

/-! ## Rewind rings (R318, R320) -/

/-- RWND_MARK_LOST of a mark: set in the ring's status, queued, counted. -/
def markLost (id m seq : Nat) (s : State) : State :=
  match tfind s.ctl.streams id with
  | none => s
  | some st => cinc 0x622018 (raiseObj EV_RWND_MARK_LOST (streamRing st s) 3 id (m + seq * 2 ^ 32) s)

/-- A packet as sent written to its context's rewind ring; marks whose entry it overwrites are lost. -/
def rwWrite (id seq b : Nat) (p : List Nat) (s : State) : State :=
  match tfind s.egr.rings id with
  | none => s
  | some r =>
    let n := 2 ^ r.log2
    let lapsed := r.marks.filter fun m => decide (m.2 % n = seq % n) && decide (m.2 < seq)
    let pass := match r.top with
      | none => true
      | some t => decide (t / n < seq / n)
    let r' : Rewind := { r with
      ents := tset r.ents (seq % n) ⟨seq, b, p, 0, none⟩
      top := some seq
      due := r.due || (pass && r.staged.isSome)
      marks := r.marks.filter fun m => !(decide (m.2 % n = seq % n) && decide (m.2 < seq))
      lost := r.lost || !lapsed.isEmpty }
    lapsed.foldl (fun s m => markLost id m.1 m.2 s) { s with egr := { s.egr with rings := tset s.egr.rings id r' } }

/-- A staged ring length taken (R115, R322): entries beyond a smaller end are discarded, counted in RESIZE_DROP, and their marks overtaken. -/
def rwResize (id : Nat) (s : State) : State :=
  match tfind s.egr.rings id with
  | none => s
  | some r =>
    match r.staged with
    | none => s
    | some n =>
      let gone := (r.ents.filter fun p => decide (2 ^ n ≤ p.1)).map fun p => p.2.seq
      let kept := (r.ents.filter fun p => decide (p.1 < 2 ^ n)).foldl (fun t p => tset t (p.2.seq % 2 ^ n) p.2) []
      let lapsed := r.marks.filter fun m => gone.contains m.2
      let r' : Rewind := { r with
        log2 := n
        staged := none
        due := false
        ents := kept
        marks := r.marks.filter fun m => !gone.contains m.2
        lost := r.lost || !lapsed.isEmpty }
      let s := { s with egr := { s.egr with rings := tset s.egr.rings id r' } }
      lapsed.foldl (fun s m => markLost id m.1 m.2 s) (if gone.isEmpty then s else cadd (strCnt id 0x20) gone.length s)

/-- A resize whose moment has come taken before the ring is next written. -/
def rwSettle (id : Nat) (s : State) : State :=
  match tfind s.egr.rings id with
  | some r => if r.due then rwResize id s else s
  | none => s

/-! ## Building a frame (R132, R315, R355) -/

/-- Ones' complement checksum of a header. -/
def checksum (l : List Byte) : Nat := 0xFFFF - onesSum l

/-- The UDP datagram and IP packet of a payload from an address and port to a path's destination (R355); none where the addresses are of
different IP versions. `k` numbers the free header fields. -/
def ipOf (src : List Byte) (sport k : Nat) (p : Path) (data : List Byte) : Option (List Byte × Nat) :=
  let v4 := decide (src.take 12 = List.replicate 10 0 ++ [0xFF, 0xFF])
  let d4 := decide (p.addr.take 12 = List.replicate 10 0 ++ [0xFF, 0xFF])
  if v4 != d4 then none
  else
    let n := 8 + data.length
    let ports := beBytes 2 sport ++ beBytes 2 p.port ++ beBytes 2 n
    let ps := (if v4 then src.drop 12 ++ p.addr.drop 12 else src ++ p.addr) ++ beBytes 2 17 ++ beBytes 2 n
    let c := checksum (ps ++ ports ++ [0, 0] ++ data)
    let udp := ports ++ beBytes 2 (if c = 0 then 0xFFFF else c) ++ data
    if v4 then
      let h1 := [0x45] ++ beBytes 1 (Config.ipv4Tos k) ++ beBytes 2 (20 + n) ++ beBytes 4 (Config.ipv4Id k % 0x40000000) ++ [64, 17]
      let h2 := src.drop 12 ++ p.addr.drop 12
      some (h1 ++ beBytes 2 (checksum (h1 ++ [0, 0] ++ h2)) ++ h2 ++ udp, 0x0800)
    else
      some (beBytes 4 (6 * 2 ^ 28 + Config.ipv6Class k % 2 ^ 28) ++ beBytes 2 n ++ [17, 64] ++ src ++ p.addr ++ udp, 0x86DD)

/-- A leg's packet from the local address of its path; none where that is not valid. -/
def ipPacket (leg k : Nat) (p : Path) (data : List Byte) (s : State) : Option (List Byte × Nat) :=
  if fon (R.ING_LOCAL_valid p.loc) s then ipOf (localAddr p.loc s) (fget (R.ING_LOCAL_port_base p.loc) s + leg) k p data else none

/-- An IP packet in its Ethernet frame, from the destination MAC, padded to 60 bytes. -/
def etherOf (p : Path) (ip : List Byte × Nat) (s : State) : List Byte :=
  padTo 0 60 (p.mac ++ leBytes 6 (fget (R.EGR_LINK_MAC_mac p.link) s)
    ++ (if bit p.flags 0 then beBytes 2 0x8100 ++ beBytes 2 p.tci else []) ++ beBytes 2 ip.2 ++ ip.1)

/-- A leg's frame on the wire. -/
def wireOf (leg k : Nat) (p : Path) (data : List Byte) (s : State) : Option (List Byte) :=
  (ipPacket leg k p data s).map fun ip => etherOf p ip s

/-- A dropped frame of a leg: counted by its reason, the block degraded, EGRESS_DROP at most once per leg in 2,000 blocks (R362). -/
def egrDrop (leg reason : Nat) (s : State) : State :=
  let o := match reason with
    | 1 => some 0xD0 | 2 => some 0xD8 | 3 => some 0xE0
    | _ => none
  let s := match o with
    | some o => cinc (legCnt leg o) s
    | none => s
  let s := degraded leg s
  match tfind s.egr.legs leg, tfind s.ctl.legs leg with
  | some e, some l =>
    match rateOk (rateKey EV_EGRESS_DROP leg) 2000 s with
    | (true, s) => raiseObj EV_EGRESS_DROP l.ring 1 leg (reason + (e.drops + 1) * 2 ^ 32) (egrLegPut leg { e with drops := 0 } s)
    | (false, s) => egrLegPut leg { e with drops := e.drops + 1 } s
  | _, _ => s

/-- KEY_EXHAUST of a context, once for each index (R132). -/
def keyExhaust (id : Nat) (st : Stream) (s : State) : State := raiseObj EV_KEY_EXHAUST (streamRing st s) 3 id 0 s

/-- The 48-bit index of a context's packet number `n`: the initial rollover counter and, in the low 16 bits, the SSRC's at the start. -/
def egrIndex (st : Stream) (n : Nat) : Nat := st.roc * 65536 + st.ssrc % 65536 + n

/-- A packet with no valid key, or past its index: counted and dropped (R132). -/
def egrNoKey (leg id bay : Nat) (expired : Bool) (s : State) : State :=
  egrDrop leg 4 (if expired then cinc (strCnt id 0x50) s else cinc (strCnt id 0x48) (cinc (ciphCnt (engineFor bay 0 s) 0x28) s))

/-- A payload that a replay produces compared with its record (R471). -/
def repEgress (act id : Nat) (rtp : List Byte) (k : Nat) (r : Rep) (s : State) : State :=
  let st := stampSub s.clk.stamp r.delta
  let hit := fun (x : CapRec) => decide (x.kind = 5) && decide (x.id = id) && decide (x.stamp = st)
  let ok := match r.recs.find? hit with
    | some x => decide (x.body = rtp)
    | none => false
  if r.stopped then repPut k { r with recs := dropRec hit r.recs } s
  else
    let s := repPut k { r with
      recs := dropRec hit r.recs
      compared := r.compared + 1
      bad := r.bad + b2n (!ok) } s
    if ok then s
    else
      let s := cinc 0x840130 s
      if r.bad = 0 then raiseObj EV_REPLAY_MISMATCH ((tfind s.ctl.acts act).elim 0 Act.ring) 2 act st s else s

/-- A waiting media item built: numbered, written to its rewind ring, protected, addressed; none where it is dropped. -/
def buildRtp (leg id : Nat) (st : Stream) (i : EgrItem) (l : Leg) (e : EgrLeg) (s : State) : Option EgrItem × State :=
  let x := egrStr id s
  let index := egrIndex st x.count
  let s := rwSettle id s
  let hd := [0x80 + (if i.ext.isEmpty then 0 else 16), b2n i.marker * 128 + x.pt % 128] ++ beNats 2 (index % 65536) ++ beNats 4 i.ts
    ++ beNats 4 st.ssrc ++ i.ext
  let rtp := hd ++ i.body
  let s := if st.media = 2 then s else rwWrite id (index % 2 ^ 32) s.clk.stamp rtp s
  let warn := decide (2 ^ 48 - 2 ^ 20 ≤ index) && !x.warned
  let s := egrStrPut id { x with count := x.count + 1, warned := x.warned || warn } s
  let s := if warn then keyExhaust id st s else s
  let s := capNote l.act ⟨5, id, s.clk.stamp, s.clk.offset, 0, 0, 0, ofNats rtp⟩ s
  match repOf l.act s with
  | some (k, r) => (none, repEgress l.act id (ofNats rtp) k r s)
  | none =>
  match e.path with
  | none => (none, egrDrop leg 3 s)
  | some p =>
    match st.key with
    | none => (none, egrNoKey leg id l.bay false s)
    | some slot =>
      if 2 ^ 48 ≤ index then (none, egrNoKey leg id l.bay true s)
      else if !keyValid slot s then (none, egrNoKey leg id l.bay false s)
      else
        let (k, s) := takeFree s
        match wireOf leg k p (ofNats (srtpProtect (keySlot slot s) index rtp)) s with
        | none => (none, egrDrop leg 3 s)
        | some w => (some { i with wire := some w, rtp := rtp, link := p.link }, cinc (ciphCnt (engineFor l.bay 0 s) 8) s)

/-- A waiting RTCP compound built: protected under its context's SRTCP key. -/
def buildRtcp (leg : Nat) (i : EgrItem) (l : Leg) (e : EgrLeg) (s : State) : Option EgrItem × State :=
  if (repOf l.act s).isSome then (none, s) else
  match e.path, i.stream with
  | none, _ => (none, egrDrop leg 3 s)
  | some _, none => (none, egrDrop leg 4 s)
  | some p, some id =>
    match tfind s.ctl.streams id with
    | none => (none, egrDrop leg 4 s)
    | some st =>
      let x := egrStr id s
      let warn := decide (2 ^ 31 - 2 ^ 20 ≤ x.rtcpIdx) && !x.warnedRtcp
      let s := egrStrPut id { x with rtcpIdx := x.rtcpIdx + 1, warnedRtcp := x.warnedRtcp || warn } s
      let s := if warn then keyExhaust id st s else s
      match st.key with
      | none => (none, egrNoKey leg id l.bay false s)
      | some slot =>
        if 2 ^ 31 ≤ x.rtcpIdx then (none, egrNoKey leg id l.bay true s)
        else if !keyValid slot s then (none, egrNoKey leg id l.bay false s)
        else
          let (k, s) := takeFree s
          match wireOf leg k p (ofNats (srtcpProtect (keySlot slot s) x.rtcpIdx i.body)) s with
          | none => (none, egrDrop leg 3 s)
          | some w => (some { i with wire := some w, link := p.link }, cinc (ciphCnt (engineFor l.bay 0 s) 8) s)

/-- An item built; one whose context is gone is discarded. -/
def buildItem (leg : Nat) (i : EgrItem) (l : Leg) (e : EgrLeg) (s : State) : Option EgrItem × State :=
  if i.wire.isSome then (some i, s)
  else if i.cls = 0 then buildRtcp leg i l e s
  else match i.stream with
    | none => (none, s)
    | some id =>
      match tfind s.ctl.streams id with
      | none => (none, s)
      | some st => buildRtp leg id st i l e s

/-- The items of a leg produced for block `b` or before built in order; a leg that already holds 512 built frames drops the next
(R362); a frame produced before b − max_wait is stale. -/
def buildItems (leg b : Nat) (l : Leg) (e : EgrLeg) (items : List EgrItem) (acc : List EgrItem) (s : State) : List EgrItem × State :=
  match items with
  | [] => (acc, s)
  | i :: r =>
    if stampAfter i.made b then buildItems leg b l e r (acc ++ [i]) s
    else
      let fresh := i.wire.isNone
      match buildItem leg i l e s with
      | (none, s) => buildItems leg b l e r acc s
      | (some i, s) =>
        if fresh && decide (512 ≤ (acc.filter fun a => a.wire.isSome).length) then buildItems leg b l e r acc (egrDrop leg 2 s)
        else if stampAfter b (stampAdd i.made e.sh.maxWait) then buildItems leg b l e r acc (egrDrop leg 1 s)
        else buildItems leg b l e r (acc ++ [i]) s

/-- A leg's waiting frames made ready for the window of block `b`. -/
def buildLeg (b leg : Nat) (s : State) : State :=
  match tfind s.egr.legs leg, tfind s.ctl.legs leg with
  | some e, some l =>
    let r := buildItems leg b l e e.q [] s
    match tfind r.2.egr.legs leg with
    | some e => egrLegPut leg { e with q := r.1 } r.2
    | none => r.2
  | _, _ => s

/-! ## The window (R356 to R361) -/

/-- A frame's counted length on a link (R356). -/
def countedLen (link n : Nat) (s : State) : Nat :=
  let x : Int := n + toS 8 (fget (R.EGR_LINK_CFG_overhead link) s)
  if x < 1 then 1 else x.toNat

def itemLen (i : EgrItem) (s : State) : Nat := countedLen i.link (i.wire.getD []).length s

/-- The head frame of a leg (R358): the first waiting built frame by class, then by order. -/
def egrHead (e : EgrLeg) : Option EgrItem :=
  (List.range 4).findSome? fun c => e.q.find? fun i => decide (i.cls = c) && i.wire.isSome

/-- Whether a head frame may be sent in this window (R358). -/
def egrSendable (e : EgrLeg) (wmax x : Nat) : Bool :=
  decide (x ≤ e.credit) || (decide (wmax < x) && !e.sent && decide (e.c0 = wmax))

/-- A list without the first element equal to `i`. -/
def dropFirst (i : EgrItem) (l : List EgrItem) : List EgrItem :=
  match l with
  | [] => []
  | a :: r => if a = i then r else a :: dropFirst i r

/-- The done bit and, where asked for, the transmit timestamp written to a host frame's slot (R364). -/
def htxDone (slot : Option (Nat × Bool)) (s : State) : State :=
  match slot with
  | none => s
  | some (a, ts) =>
    let f := (hostRead (a + 2) 1 s).getD 0 0
    let s := hostWrite (a + 2) [f ||| 0x80] s
    if ts then hostWrite (a + 16) (leBytes 6 (ptpNs s / 1000000000) ++ leBytes 4 (ptpNs s % 1000000000)) s else s

/-- A frame sent: credit, level, counters, the sending state of its context, the wire. -/
def egrSend (leg link b : Nat) (i : EgrItem) (e : EgrLeg) (s : State) : State :=
  let x := itemLen i s
  let rec1 : SentRec := ⟨b, i.cls, i.rtp.length, i.tw⟩
  let e' := { e with
    credit := if x ≤ e.credit then e.credit - x else 0
    sent := true
    lv := e.lv - 16 * x
    dc := e.dc - x
    q := dropFirst i e.q
    log := e.log.filter (fun r => stampGe (stampAdd r.block 400) b) ++ [rec1] }
  let s := egrLegPut leg e' s
  let s := cadd (legCnt leg 0xC8) x (cinc (legCnt leg 0xC0) s)
  let s := cadd (0x180048 + 0x100 * link) x (cinc (0x180040 + 0x100 * link) s)
  let s := cadd (legCnt leg 0xF8) i.sr (cadd (legCnt leg 0x100) i.rr s)
  let s := match i.slot with
    | some _ => htxDone i.slot (cinc (0x180058 + 0x100 * link) s)
    | none => s
  let s := match i.stream with
    | none => s
    | some id =>
      if i.cls = 0 then s
      else
        let y := egrStr id s
        cadd (strCnt id 0xE0) i.rtp.length (cinc (strCnt id 0xD8)
          (egrStrPut id { y with pkts := y.pkts + 1, octets := y.octets + i.body.length, lastTs := i.ts, lastB := b, sinceSr := true } s))
  { s with out := .frame link (i.wire.getD []) :: s.out }

/-- A leg's visit in a round: head frames sent while each is sendable and its counted length is at most DC.  Answers the remaining
capacity (none where the window has ended), whether the leg stays in the rounds, whether it sent, and the state. -/
def egrVisit (fuel leg link b : Nat) (cap : Nat) (sent : Bool) (s : State) : Option Nat × Bool × Bool × State :=
  match fuel with
  | 0 => (some cap, false, sent, s)
  | f + 1 =>
    match tfind s.egr.legs leg, tfind s.ctl.legs leg with
    | some e, some l =>
      match egrHead e with
      | none => (some cap, false, sent, egrLegPut leg { e with dc := 0 } s)
      | some i =>
        let x := itemLen i s
        if i.link ≠ link || !egrSendable e (shWmax e.sh l) x then (some cap, false, sent, egrLegPut leg { e with dc := 0 } s)
        else if e.dc < x then (some cap, true, sent, s)
        else if cap < x then (none, true, sent, s)
        else egrVisit f leg link b (cap - x) true (egrSend leg link b i e s)
    | _, _ => (some cap, false, sent, s)

/-- A round over legs in their order.  Answers the capacity, those that stay, the state. -/
def egrRound (legs : List Nat) (link queue b cap : Nat) (stay : List Nat) (s : State) : Option Nat × List Nat × State :=
  match legs with
  | [] => (some cap, stay, s)
  | n :: r =>
    let s := match tfind s.egr.legs n with
      | some e => egrLegPut n { e with dc := e.dc + e.sh.quantum } s
      | none => s
    match egrVisit 513 n link b cap false s with
    | (c, keep, sent, s) =>
      let s := if sent then { s with egr := { s.egr with pos := tset s.egr.pos (link * 4 + queue) n } } else s
      match c with
      | none => (none, stay, s)
      | some cap => egrRound r link queue b cap (if keep then stay ++ [n] else stay) s

/-- Legs in ascending order, starting after the position kept (R359). -/
def roundOrder (legs : List Nat) (pos : Option Nat) : List Nat :=
  match pos with
  | none => legs
  | some p => (legs.filter fun n => decide (p < n)) ++ legs.filter fun n => decide (n ≤ p)

/-- Rounds of a queue until no leg stays or the window ends. -/
def egrRounds (fuel : Nat) (legs : List Nat) (link queue b cap : Nat) (s : State) : Option Nat × State :=
  match fuel, legs with
  | 0, _ => (some cap, s)
  | _, [] => (some cap, s)
  | f + 1, l =>
    match egrRound (roundOrder l (tfind s.egr.pos (link * 4 + queue))) link queue b cap [] s with
    | (none, _, s) => (none, s)
    | (some cap, stay, s) => egrRounds f (sortBy (fun a c => decide (a < c)) stay) link queue b cap s

/-- The legs of a queue whose head frame goes to the link and is sendable; any other leg of the queue has DC 0. -/
def egrLive (link queue : Nat) (s : State) : List Nat × State :=
  (tkeys s.egr.legs).foldl (fun a n =>
    match tfind a.2.egr.legs n, tfind a.2.ctl.legs n with
    | some e, some l =>
      if e.sh.queue ≠ queue then a
      else match egrHead e with
        | none => (a.1, egrLegPut n { e with dc := 0 } a.2)
        | some i =>
          if i.link ≠ link then a
          else if egrSendable e (shWmax e.sh l) (itemLen i a.2) then (a.1 ++ [n], a.2)
          else (a.1, egrLegPut n { e with dc := 0 } a.2)
    | _, _ => a) ([], s)

/-- The queues served in strict priority, 3 first. -/
def egrQueues (qs : List Nat) (link b cap : Nat) (s : State) : Option Nat × State :=
  match qs with
  | [] => (some cap, s)
  | q :: r =>
    let l := egrLive link q s
    match egrRounds 200000 l.1 link q b cap l.2 with
    | (none, s) => (none, s)
    | (some cap, s) => egrQueues r link b cap s

/-- Counted bytes a link carries in one window (R360): 62,500 for each Gb/s of its rate. -/
def linkCap (s : State) : Nat :=
  62500 * (match fget R.ETH_MODE_eth_mode s with
    | 0 => 100 | 1 => 200 | 2 => 400
    | _ => 25)

/-- The frames a closed window leaves behind counted, and LINK_CARRY at most once per link in 2,000 blocks. -/
def egrCarry (link : Nat) (s : State) : State :=
  let n := (s.egr.legs.map fun p => (p.2.q.filter fun i => i.wire.isSome && decide (i.link = link)).length).foldl (· + ·) 0
    + (s.egr.pf.filter fun p => decide (p.link = link)).length + (s.cas.tx.filter fun p => decide (p.1 = link)).length
  let s := cadd (0x180050 + 0x100 * link) n s
  let c := tget 0 s.egr.carried link + n
  match rateOk (rateKey EV_LINK_CARRY link) 2000 s with
  | (true, s) =>
    raiseUnit EV_LINK_CARRY (linkUnit link s) (link + c * 2 ^ 32) { s with egr := { s.egr with carried := tset s.egr.carried link 0 } }
  | (false, s) => { s with egr := { s.egr with carried := tset s.egr.carried link c } }

/-- PF frames without a leg sent ahead of queue 3, as far as the link's capacity goes (R364). -/
def egrPf (l : List PfFrame) (link cap : Nat) (s : State) : Option Nat × State :=
  match l with
  | [] => (some cap, s)
  | p :: r =>
    if p.link ≠ link then egrPf r link cap s
    else
      let x := countedLen link p.bytes.length s
      if cap < x then (none, s)
      else
        let s := { s with egr := { s.egr with pf := s.egr.pf.filter fun q => q != p }, out := .frame link p.bytes :: s.out }
        let s := cadd (0x180048 + 0x100 * link) x (cinc (0x180040 + 0x100 * link) (cinc (0x180058 + 0x100 * link) s))
        egrPf r link (cap - x) (htxDone (some (p.slot, p.stamp)) s)

/-- Cascade frames sent at the head of queue 3, as far as the link's capacity goes (R443). -/
def egrCas (l : List (Nat × List Byte)) (link cap : Nat) (s : State) : Option Nat × State :=
  match l with
  | [] => (some cap, s)
  | p :: r =>
    if p.1 ≠ link then egrCas r link cap s
    else
      let x := countedLen link p.2.length s
      if cap < x then (none, s)
      else
        let s := cadd (0x180048 + 0x100 * link) x (cinc (0x180040 + 0x100 * link) s)
        egrCas r link (cap - x) { s with
          cas := { s.cas with tx := s.cas.tx.erase p }
          out := .frame link p.2 :: s.out }

/-- The window of the current block on a link (R358 to R362).  A link that is not UP sends nothing: its frames wait and age. -/
def window (link : Nat) (s : State) : State :=
  let b := s.clk.stamp
  let mine := (s.egr.legs.filter fun p => match p.2.path with
    | some q => decide (q.link = link) || p.2.q.any fun i => decide (i.link = link)
    | none => true).map (·.1)
  let s := mine.foldl (fun s n => buildLeg b n s) s
  let s := if !linkUp link s then s
    else match egrPf s.egr.pf link (linkCap s) s with
      | (none, s) => egrCarry link s
      | (some cap, s) =>
        match egrCas s.cas.tx link cap s with
        | (none, s) => egrCarry link s
        | (some cap, s) =>
          match egrQueues [3, 2, 1, 0] link b cap s with
          | (none, s) => egrCarry link s
          | (some _, s) => s
  mine.foldl (fun s n =>
    match tfind s.egr.legs n with
    | some e => if (e.q.any fun i => i.wire.isSome && decide (i.link = link)) then cinc (legCnt n 0xF0) s else s
    | none => s) s

/-- SHAPER_REFILL: every leg's bucket refilled and its window credit set (R357); a block in deficit is counted (R358). -/
def shaperRefill (s : State) : State :=
  (tkeys s.egr.legs).foldl (fun s n =>
    match tfind s.egr.legs n, tfind s.ctl.legs n with
    | some e, some l =>
      let lv : Int := min (shDepth e.sh l : Int) (e.lv + shRate e.sh l)
      let c := if lv ≤ 0 then 0 else min (lv.toNat / 16) (shWmax e.sh l)
      let s := egrLegPut n { e with lv := lv, credit := c, c0 := c, sent := false } s
      if lv ≤ 0 then cinc (legCnt n 0xE8) s else s
    | _, _ => s) { s with egr := { s.egr with pfCount := [] } }

/-! ## RTCP compounds (R363) -/

/-- NTP seconds and fraction of block `b`. -/
def ntpSec (b : Nat) (s : State) : Nat := (fget R.EGR_NTP_BASE_seconds s + b / 2000) % 2 ^ 32
def ntpFrac (b : Nat) : Nat := b % 2000 * 2147483 + b % 2000 * 648 / 1000

/-- The middle 32 bits of block `b`'s NTP time. -/
def ntpMid (b : Nat) (s : State) : Nat := ntpSec b s % 65536 * 65536 + ntpFrac b / 65536

/-- An RTCP packet: version 2, the count or format, the type, the length in words less one, the body. -/
def rtcpPacket (count type : Nat) (body : List Nat) : List Nat :=
  [0x80 + count, type] ++ beNats 2 (body.length / 4) ++ body

/-- A report block of RFC 3550 for an ingress context, and the context with the interval's counts moved on. -/
def reportBlock (st : Stream) (b : Nat) : List Nat × Stream :=
  let x := st.rx
  let high := st.seq.cycles + st.seq.maxSeq
  let expd := if x.any then high + 1 - x.base else 0
  let lost : Int := (expd : Int) - x.count
  let ei : Int := (expd : Int) - x.expPrior
  let li : Int := ei - ((x.count : Int) - x.cntPrior)
  let frac := if ei ≤ 0 || li ≤ 0 then 0 else (li * 256 / ei).toNat % 256
  let dlsr := match x.lsrAt with
    | some a => stampSub b a * 65536 / 2000
    | none => 0
  (beNats 4 st.ssrc ++ [frac] ++ beNats 3 (ofS 24 (clampI (-0x800000) 0x7FFFFF lost)) ++ beNats 4 ((high + 2 ^ 32 - 65536) % 2 ^ 32)
    ++ beNats 4 (x.jitter / 16 % 2 ^ 32) ++ beNats 4 x.lsr ++ beNats 4 (dlsr % 2 ^ 32),
   { st with rx := { x with expPrior := expd, cntPrior := x.count } })

/-- The report blocks of a leg's known ingress contexts, at most 31. -/
def reportBlocks (leg b : Nat) (s : State) : List (List Nat) × State :=
  let ids := (tkeysWhere s.ctl.streams fun _ st => decide (st.leg = leg) && decide (st.dir = 0) && st.known).take 31
  ids.foldl (fun a id =>
    match tfind a.2.ctl.streams id with
    | some st => let r := reportBlock st b; (a.1 ++ [r.1], streamPut id r.2 a.2)
    | none => a) ([], s)

/-- The SDES packet with a leg's CNAME for an SSRC. -/
def sdes (ssrc : Nat) (cname : List Byte) : List Nat :=
  let item := beNats 4 ssrc ++ [1, cname.length] ++ toNats cname ++ [0]
  rtcpPacket 1 202 (padTo 0 (ceilDiv item.length 4 * 4) item)

/-- The SR of an egress context at block `b` with report blocks. -/
def srPacket (id b : Nat) (st : Stream) (blocks : List (List Nat)) (s : State) : List Nat :=
  let x := egrStr id s
  let ts := (x.lastTs + clockPerBlock st.clock * stampSub b x.lastB) % 2 ^ 32
  rtcpPacket blocks.length 200 (beNats 4 st.ssrc ++ beNats 4 (ntpSec b s) ++ beNats 4 (ntpFrac b) ++ beNats 4 ts
    ++ beNats 4 (x.pkts % 2 ^ 32) ++ beNats 4 (x.octets % 2 ^ 32) ++ blocks.flatten)

/-- The SSRC of a leg's first egress context, 1 where it has none, and the context. -/
def legSsrc (leg : Nat) (s : State) : Nat × Option Nat :=
  match egrAll leg s with
  | [] => (1, none)
  | id :: _ => ((match tfind s.ctl.streams id with
    | some st => st.ssrc
    | none => 1), some id)

/-- An RTCP compound queued in class 1 of a leg for block `b`. -/
def egrRtcp (leg : Nat) (stream : Option Nat) (body : List Nat) (sr rr b : Nat) (s : State) : State :=
  egrPush leg ⟨0, stream, 0, false, [], body, b, none, [], 0, none, none, sr, rr⟩ s

/-- The compound report of a leg at the current block (R363). -/
def rtcpReport (leg : Nat) (e : EgrLeg) (s : State) : State :=
  let b := s.clk.stamp
  let s := egrLegPut leg { e with rtcpAt := some b } s
  let rb := reportBlocks leg b s
  let s := rb.2
  let senders := (egrAll leg s).filter fun id => (egrStr id s).sinceSr
  match senders with
  | [] =>
    let w := legSsrc leg s
    egrRtcp leg w.2 (rtcpPacket rb.1.length 201 (beNats 4 w.1 ++ rb.1.flatten) ++ sdes w.1 e.cname) 0 1 b s
  | first :: _ =>
    let srs := senders.map fun id => match tfind s.ctl.streams id with
      | some st => srPacket id b st (if id = first then rb.1 else []) s
      | none => []
    let ssrc := match tfind s.ctl.streams first with
      | some st => st.ssrc
      | none => 1
    let s := senders.foldl (fun s id =>
      egrStrPut id { egrStr id s with sinceSr := false, srs := (egrStr id s).srs ++ [(ntpMid b s, b)] } s) s
    egrRtcp leg (some first) (srs.flatten ++ sdes ssrc e.cname) senders.length 0 b s

/-- Feedback of other chapters sent in block `b`: after an RR, or alone with rsize set (R363). -/
def rtcpFeedback (leg : Nat) (fb : List Nat) (b : Nat) (s : State) : State :=
  match tfind s.egr.legs leg with
  | none => s
  | some e =>
    let w := legSsrc leg s
    if bit e.sh.flags 0 then egrRtcp leg w.2 fb 0 0 b s
    else egrRtcp leg w.2 (rtcpPacket 0 201 (beNats 4 w.1) ++ fb) 0 1 b s

/-- A transport-layer or payload-specific feedback packet: format, type, sender and media SSRC, FCI. -/
def fbPacket (fmt type sender media : Nat) (fci : List Nat) : List Nat := rtcpPacket fmt type (beNats 4 sender ++ beNats 4 media ++ fci)

end Sys2Proof.Machine
end

