-- ==== Sys2Proof/Machine/Fault.lean ====
section
/-! DEFINITION. The fault log (R383, R420), retirement and suspicion of units (R380, R406), the Safety Net's own state (R411). -/
namespace Sys2Proof.Machine

/-- Entries the fault log holds. -/
def faultLogSize : Nat := 131072

/-- The Ledger address of a fault-log index. -/
def faultLogAddr (i : Nat) : Nat := 0x20000 + 64 * (i % faultLogSize)

/-- A fault to be logged: unit, class, action, cause, replacement, units affected, detail, Ring, severity, second detail (R420). -/
structure FaultRec where
  unit : Nat
  cls : Nat
  action : Nat
  cause : Nat
  repl : Nat
  affected : Nat
  detail : Nat
  ring : Nat
  sev : Nat
  detail2 : Nat
  deriving DecidableEq, Repr

/-- The 64 bytes of a fault-log entry. -/
def faultBytes (i : Nat) (f : FaultRec) (s : State) : List Byte :=
  let b := leBytes 4 i ++ leBytes 2 f.unit ++ leBytes 1 f.cls ++ leBytes 1 f.action ++ leBytes 8 (s.clk.stamp + s.clk.offset * 2 ^ 48)
    ++ leBytes 2 f.cause ++ leBytes 2 f.repl ++ leBytes 4 f.affected ++ leBytes 8 f.detail ++ leBytes 4 s.flt.boots ++ leBytes 1 f.ring
    ++ leBytes 1 f.sev ++ leBytes 2 0 ++ leBytes 8 f.detail2 ++ List.replicate 12 0
  b ++ leBytes 4 (crc32c b)

/-- An entry written to the fault log: its index, and the state. -/
def faultLog (f : FaultRec) (s : State) : Nat × State :=
  let i := fget R.LDG_LOG_NEXT_next s
  let old := fget R.LDG_LOG_OLDEST_oldest s
  let full := decide (faultLogSize ≤ i - old)
  let s := { s with ldg := { s.ldg with bad := s.ldg.bad.filter fun w => decide (w ≠ faultLogAddr i / 64) } }
  let s := ledgerWrite (faultLogAddr i) (faultBytes i f s) (cinc 0x7C0100 (fset R.LDG_LOG_NEXT_next (i + 1) s))
  if !full then (i, s)
  else
    let s := cinc 0x7C0118 (fset R.LDG_LOG_OLDEST_oldest (old + 1) s)
    match rateOk (rateKey EV_LDG_LOG_WRAP 0) 2000 s with
    | (true, s) => (i, raiseUnit EV_LDG_LOG_WRAP 0 old s)
    | (false, s) => (i, s)

/-! ## The Ledger's records (R380 to R384) -/

/-- The newest header record whose CRC holds: true for A. -/
def hdrNewest (s : State) : Option Bool :=
  match s.ldg.hdrA.ok, s.ldg.hdrB.ok with
  | true, true => some (decide (s.ldg.hdrB.seq < s.ldg.hdrA.seq))
  | true, false => some true
  | false, true => some false
  | false, false => none

/-- The header in force, or one with nothing. -/
def hdrNow (s : State) : LdgHdr :=
  match hdrNewest s with
  | some true => s.ldg.hdrA
  | some false => s.ldg.hdrB
  | none => LdgHdr.none

/-- The newest save bank whose CRC holds: true for A. -/
def bankNewest (s : State) : Option Bool :=
  match s.ldg.bankA.ok, s.ldg.bankB.ok with
  | true, true => some (decide (s.ldg.bankB.seq < s.ldg.bankA.seq))
  | true, false => some true
  | false, true => some false
  | false, false => none

def bankNow (s : State) : LdgSave :=
  match bankNewest s with
  | some true => s.ldg.bankA
  | some false => s.ldg.bankB
  | none => LdgSave.none

/-- The Ledger's registers brought up to date. -/
def ldgSync (s : State) : State :=
  let s := fset R.LDG_STATUS_healthy (b2n (hdrNewest s).isSome) s
  let s := fset R.LDG_STATUS_bank_a_valid (b2n s.ldg.bankA.ok) (fset R.LDG_STATUS_bank_b_valid (b2n s.ldg.bankB.ok) s)
  let s := fset R.LDG_STATUS_latest (b2n (decide (bankNewest s = some false))) s
  fset R.LDG_SAVE_STAMP_stamp (bankNow s).stamp (fset R.LDG_STAMP_FLOOR_stamp ((hdrNow s).floor.getD 0) s)

/-- A word's writes: beyond 10^9 the wear warning (R384). -/
def wearCheck (writes addr : Nat) (s : State) : State :=
  if writes ≤ 1000000000 || fon R.LDG_STATUS_wear_warn s then s
  else raiseUnit EV_LDG_WEAR unitRm addr (fset R.LDG_STATUS_wear_warn 1 s)

/-- A header record written over the copy that does not hold the newest (R381); `f` changes its contents. -/
def hdrWrite (f : LdgHdr → LdgHdr) (s : State) : State :=
  let h := hdrNow s
  let toA := decide (hdrNewest s ≠ some true)
  let w := (if toA then s.ldg.hdrA.writes else s.ldg.hdrB.writes) + 1
  let h' := { f h with
    seq := (h.seq + 1) % 2 ^ 32
    ok := true
    writes := w }
  let s := cinc 0x7C0100 { s with ldg := if toA then { s.ldg with hdrA := h' } else { s.ldg with hdrB := h' } }
  wearCheck w 0 (ldgSync s)

/-! ## Retired and suspect units -/

/-- A unit retired: the Ledger's table, the counter, UNIT_RETIRED with its replacement. -/
def unitRetire (unit repl : Nat) (s : State) : State :=
  if s.flt.retired.contains unit then s
  else
    let s := ledgerWrite (0x10000 + 2 * s.flt.retired.length) (leBytes 2 unit) (cinc 0x7C0100 s)
    let s := { s with flt := { s.flt with retired := s.flt.retired ++ [unit] } }
    raiseUnit EV_UNIT_RETIRED unit (unit + repl * 65536) (cinc 0x740130 s)

/-- A spare's takeover counted and reported. -/
def spareTakeover (unit spare : Nat) (s : State) : State :=
  raiseUnit EV_SPARE_TAKEOVER unit (unit + spare * 65536) (cinc 0x740108 s)

/-- A suspect report of a unit (source 1 shadow, 2 signature, 3 ECC rate): reported and counted; whether it is the second within 2,000,000
blocks. -/
def suspectReport (unit source : Nat) (s : State) : Bool × State :=
  let again := match tfind s.flt.suspects unit with
    | some b => decide (stampSub s.clk.stamp b < 2000000)
    | none => false
  let s := { s with flt := { s.flt with suspects := tset s.flt.suspects unit s.clk.stamp } }
  (again, raiseUnit EV_UNIT_SUSPECT unit (unit + source * 65536) (cinc 0x740128 s))

/-! ## The Safety Net as a whole (R411) -/

/-- Bays in service. -/
def baysIn (s : State) : List Nat := (List.range 4).filter fun b => bayIn b s

/-- A Bay's uncharged capacity in a budget, never below 0, in base units. -/
def bayFree (b k : Nat) (s : State) : Nat := bayBudgetAt b k s * budgetScale k - bayUsed b k s

/-- Whether a budget is covered. -/
def covered (k : Nat) (s : State) : Bool :=
  decide (((baysIn s).map fun b => bayUsed b k s).foldl max 0 ≤ ((baysIn s).map fun b => bayFree b k s).foldl (· + ·) 0)

/-- The budgets that are not covered, as a mask. -/
def uncovered (s : State) : Nat := ((List.range 7).filter fun k => !covered k s).foldl (fun m k => m + 2 ^ k) 0

/-- Coverage and headroom registers brought up to date. -/
def coverSync (s : State) : State :=
  let s := fset R.FLT_STATUS_cover (127 - uncovered s) s
  let s := fset R.FLT_STATUS_bay_out (((List.range 4).filter fun b => !bayIn b s).foldl (fun m b => m + 2 ^ b) 0) s
  (List.range 7).foldl (fun s k =>
    fset (R.FLT_HEADROOM_headroom k) (((baysIn s).map fun b => bayFree b k s).foldl (· + ·) 0 / budgetScale k) s) s

/-- A fault declared: its log entry written before the recovery starts; the Safety Net is RECOVERING. -/
def faultDeclare (f : FaultRec) (s : State) : Nat × State :=
  let r := faultLog f s
  (r.1, fset R.FLT_STATUS_state 1 { r.2 with flt := { r.2.flt with recov := r.2.flt.recov ++ [(r.1, s.clk.stamp)] } })

/-- Recoveries over at a boundary: RECOVERY_DONE for each, then NORMAL or EXPOSED; coverage evaluated. -/
def coverageCheck (s : State) : State :=
  let s := coverSync s
  let done := s.flt.recov
  let s := done.foldl (fun s p =>
    raiseUnit EV_RECOVERY_DONE 0 (p.1 + min 65535 (stampSub s.clk.stamp p.2) * 2 ^ 32) s) { s with flt := { s.flt with recov := [] } }
  let bad := uncovered s
  if fget R.FLT_STATUS_state s = 1 then
    if bad = 0 then fset R.FLT_STATUS_state 0 s
    else fset R.FLT_STATUS_state 2 (raiseUnit EV_RESERVE_EXPOSED 0 bad s)
  else if fget R.FLT_STATUS_state s = 2 && bad = 0 then fset R.FLT_STATUS_state 0 (raiseUnit EV_COVERAGE_RESTORED 0 0 s)
  else s

end Sys2Proof.Machine
end

