-- ==== Sys2Proof/Machine/EgrRows.lean ====
section
/-! DEFINITION. The commands of egress (spec/14_egress_scheduling.md): the window, RTCP reports, host transmit, the standby scheduler,
and what SHAPER_SET does at its boundary. -/
namespace Sys2Proof.Machine

/-! ## SHAPER_SET (R355) -/

/-- Op 0: the settings where every field is in range. -/
def shaperArgs (c : Cmd) (l : Leg) : Option Shaper :=
  let sh : Shaper := ⟨carg c 0x19 1, carg c 0x1A 2, carg c 0x1C 4, carg c 0x20 2, carg c 0x22 2, carg c 0x24 4, carg c 0x28 2, carg c 0x2A 1⟩
  if within 0 3 sh.queue && within 1 400 sh.maxWait && (sh.rate = 0 || within 64 l.srtpRate sh.rate) && within 1 2000 sh.burst
    && within 64 65535 sh.quantum && (sh.wmax = 0 || within 64 (shDepth sh l / 16) sh.wmax) && within 100 10000 sh.rtcp
    && within 0 1 sh.flags && czero c 0x2B then some sh else none

/-- Op 1: the path where every field is in range. -/
def pathArgs (c : Cmd) (s : State) : Option Path :=
  let p : Path := ⟨carg c 0x19 1, carg c 0x1A 1, carg c 0x1B 1, carg c 0x1C 2, carg c 0x1E 2, cargs c 0x20 16, cargs c 0x30 6⟩
  let v4 := fun (a : List Byte) => decide (a.take 12 = List.replicate 10 0 ++ [0xFF, 0xFF])
  if decide (p.link < linkCount (fget R.ETH_MODE_eth_mode s)) && within 0 15 p.loc && within 0 1 p.flags
    && (bit p.flags 0 || p.tci = 0) && v4 p.addr == v4 (localAddr p.loc s) && czero c 0x36 then some p else none

/-- SHAPER_SET at its boundary. -/
def applyShaperSet (c : Cmd) (_b : Nat) (s : State) : State × Option Rsp :=
  let leg := c.target
  if 16384 ≤ leg then (s, some (rspErr stBadId))
  else if !owns c.fn 0 leg s then (s, some (rspErr stNotOwned))
  else match tfind s.ctl.legs leg, tfind s.egr.legs leg with
    | some l, some e =>
      let bad : State × Option Rsp := (s, some (rspFail stBadArg 2))
      match carg c 0x18 1 with
      | 0 =>
        match shaperArgs c l with
        | some sh => (egrLegPut leg { e with sh := sh } s, some rspOk)
        | none => bad
      | 1 =>
        match pathArgs c s with
        | some p => (egrLegPut leg { e with path := some p } s, some rspOk)
        | none => bad
      | 2 =>
        let id := carg c 0x1A 2
        let pt := carg c 0x1C 1
        match tfind s.ctl.streams id with
        | some st =>
          if st.leg = leg && st.dir = 1 && pt < 128 && !(within 64 95 pt) && carg c 0x19 1 = 0 && czero c 0x1D then
            (egrStrPut id { egrStr id s with pt := pt } s, some rspOk)
          else bad
        | none => bad
      | 3 =>
        let n := carg c 0x19 1
        if within 1 32 n && czero c (0x1A + n) then (egrLegPut leg { e with cname := cargs c 0x1A n } s, some rspOk) else bad
      | _ => bad
    | _, _ => (s, some (rspErr stBadState))

/-! ## Windows and reports -/

/-- The window of the current block opens on a link (R361). -/
def execTransmitWindow (link : Nat) (s : State) : Out :=
  .next (if link < linkCount (fget R.ETH_MODE_eth_mode s) then window link s else s)

/-- A leg's compound report falls due: the leg is ACTIVE with a path, its block has come, and none was made in it (R363). -/
def execRtcpReportSend (leg : Nat) (s : State) : Out :=
  .next (match tfind s.egr.legs leg, tfind s.ctl.legs leg with
    | some e, some l =>
      if l.st = .active && e.path.isSome && s.clk.stamp % e.sh.rtcp = leg % e.sh.rtcp && e.rtcpAt ≠ some s.clk.stamp then
        rtcpReport leg e s
      else s
    | _, _ => s)

/-- The standby scheduler of a link takes over (R365): its checkpoint holds what the active one held, so that waiting frames stay. -/
def execSchedulerTakeover (link : Nat) (s : State) : Out :=
  let s := (faultDeclare ⟨linkUnit link s, 2, 2, 0, 0, 0, link % 8, 0xFF, severity EV_SCHED_TAKEOVER 0, 0⟩ s).2
  .next (raiseUnit EV_SCHED_TAKEOVER (linkUnit link s) (link % 8)
    { s with egr := { s.egr with standby := tset s.egr.standby link (!tget false s.egr.standby link) } })

/-! ## Host transmit (R364) -/

/-- A host frame's source is its leg's: the local address of the path and port_base + leg. -/
def htxSource (leg : Nat) (p : Path) (frame : List Byte) (s : State) : Bool :=
  let f := parseFrame frame
  decide (f.kind = .udp) && decide (f.src = localAddr p.loc s) && decide (f.sport = fget (R.ING_LOCAL_port_base p.loc) s + leg)

/-- HTX_DENIED of a function: reported to the PF, counted as a drop of the leg where the function owns it. -/
def htxDenied (fn : Fn) (leg : Nat) (s : State) : State :=
  let s := if owns fn 0 leg s then egrDrop leg 5 s else s
  raisePf (ev EV_HTX_DENIED 0 (fnRing fn) 0 0 (fnNum fn) s) s

/-- One slot taken. -/
def htxTake (fn : Fn) (a : Nat) (size : Nat) (s : State) : State :=
  let h := hostRead a 32 s
  let n := min (le h 0 2) (size - 32)
  let ts := bit (le h 2 1) 0
  let link := le h 3 1 % 8
  let leg := le h 4 2
  let frame := hostRead (a + 32) n s
  if leg = 0xFFFF then
    match fn with
    | .vf _ => htxDenied fn leg s
    | .pf =>
      let k := tget 0 s.egr.pfCount link
      if fget R.EGR_HTX_RATE_rate s ≤ k then raisePf (ev EV_EGRESS_DROP 0 none 0 0 (6 + 2 ^ 32) s) s
      else { s with egr := { s.egr with
               pf := s.egr.pf ++ [⟨link, frame, a, ts⟩]
               pfCount := tset s.egr.pfCount link (k + 1) } }
  else
    match tfind s.egr.legs leg with
    | none => htxDenied fn leg s
    | some e =>
      match e.path with
      | none => htxDenied fn leg s
      | some p =>
        if !owns fn 0 leg s || !htxSource leg p frame s then htxDenied fn leg s
        else if 512 ≤ (e.q.filter fun i => i.wire.isSome).length then egrDrop leg 2 s
        else egrPush leg ⟨0, none, 0, false, [], [], s.clk.stamp, some frame, [], link, some (a, ts), none, 0, 0⟩ s

/-- Slots taken from the head up to the tail. -/
def htxDrain (fuel : Nat) (fn : Fn) (s : State) : State :=
  match fuel with
  | 0 => s
  | f + 1 =>
    let head := fget (R.EGR_HTX_TAIL_head fn) s
    let n := 2 ^ fget (R.EGR_HTX_CFG_log2 fn) s
    let size := 2 ^ fget (R.EGR_HTX_CFG_slot_log2 fn) s
    let a := fget (R.EGR_HTX_BASE_base fn) s * 4096 + head * size
    if head = fget (R.EGR_HTX_TAIL_tail fn) s || !hostOk a size s then s
    else htxDrain f fn (fset (R.EGR_HTX_TAIL_head fn) ((head + 1) % n) (htxTake fn a size s))

/-- EGR_HTX_CFG written: an enable takes the slots up to the tail. -/
def htxCfgWrite (fn : Fn) (write : State → State) (s : State) : State :=
  let t := write s
  if !fon (R.EGR_HTX_CFG_enable fn) s && fon (R.EGR_HTX_CFG_enable fn) t then htxDrain 4096 fn t else t

/-- A write of EGR_HTX_TAIL hands frames over where the ring is enabled; a tail beyond the ring is ignored. -/
def execHtxFrameSubmit (fn : Fn) (v : Nat) (s : State) : Out :=
  let t := v % 4096
  .next (if 2 ^ fget (R.EGR_HTX_CFG_log2 fn) s ≤ t then s
    else
      let s := fset (R.EGR_HTX_TAIL_tail fn) t s
      if fon (R.EGR_HTX_CFG_enable fn) s then htxDrain 4096 fn s else s)

end Sys2Proof.Machine
end

