-- ==== Sys2Proof/Machine/F64.lean ====
section
/-! DEFINITION. IEEE 754 binary64 arithmetic with round-to-nearest, as the filter and scaler tables use it (R185, R339): a number is
`m × 2^e`.  No table leaves the normal range, so that overflow and subnormal numbers do not arise. -/
namespace Sys2Proof.Machine

/-- A binary64 number. -/
structure F64 where
  m : Int
  e : Int
  deriving DecidableEq, Repr

/-- `a / d` as a 53-bit integer and its exponent, rounded to nearest, ties to even, for a and d above 0. -/
def f64Pos (a d : Nat) : Nat × Int :=
  let k : Int := (Nat.log2 a : Int) - Nat.log2 d - 53
  let num := fun (k : Int) => if k < 0 then a * 2 ^ (-k).toNat else a
  let den := fun (k : Int) => if k < 0 then d else d * 2 ^ k.toNat
  let k := if num k / den k < 2 ^ 53 then k else k + 1
  let q := num k / den k
  let r := num k % den k
  let q := if den k < 2 * r || (2 * r = den k && q % 2 = 1) then q + 1 else q
  (q, k)

/-- `n / d × 2^e` rounded. -/
def f64Rnd (n : Int) (d : Nat) (e : Int) : F64 :=
  if n = 0 then ⟨0, 0⟩
  else
    let p := f64Pos n.natAbs d
    ⟨if n < 0 then -(p.1 : Int) else p.1, p.2 + e⟩

/-- The nearest number to an integer, to a fraction. -/
def f64OfInt (n : Int) : F64 := f64Rnd n 1 0
def f64OfRat (n : Int) (d : Nat) : F64 := f64Rnd n d 0

def F64.mul (a b : F64) : F64 := f64Rnd (a.m * b.m) 1 (a.e + b.e)

def F64.add (a b : F64) : F64 :=
  let e := min a.e b.e
  f64Rnd (a.m * (2 ^ (a.e - e).toNat : Nat) + b.m * (2 ^ (b.e - e).toNat : Nat)) 1 e

def F64.neg (a : F64) : F64 := ⟨-a.m, a.e⟩
def F64.sub (a b : F64) : F64 := a.add b.neg

def F64.div (a b : F64) : F64 :=
  if b.m = 0 then ⟨0, 0⟩ else f64Rnd (if b.m < 0 then -a.m else a.m) b.m.natAbs (a.e - b.e)

/-- The square root of a number that is not negative, correctly rounded: an integer root with guard bits and a sticky bit. -/
def F64.sqrt (a : F64) : F64 :=
  if a.m ≤ 0 then ⟨0, 0⟩
  else
    let odd := a.e % 2 = 1
    let n := a.m.natAbs * 2 ^ (if odd then 121 else 120)
    let e : Int := (if odd then a.e - 1 else a.e) - 120
    let r := isqrt 90 n
    f64Rnd (2 * r + (if r * r = n then 0 else 1) : Nat) 1 (e / 2 - 1)

/-- The absolute value. -/
def F64.abs (a : F64) : F64 := ⟨a.m.natAbs, a.e⟩

/-- `a < b`. -/
def F64.lt (a b : F64) : Bool :=
  let e := min a.e b.e
  decide (a.m * (2 ^ (a.e - e).toNat : Nat) < b.m * (2 ^ (b.e - e).toNat : Nat))

/-- The nearest integer, halves away from zero. -/
def F64.roundAway (a : F64) : Int :=
  let n := a.m.natAbs
  let q := if 0 ≤ a.e then n * 2 ^ a.e.toNat else (2 * n + 2 ^ (-a.e).toNat) / (2 * 2 ^ (-a.e).toNat)
  if a.m < 0 then -(q : Int) else q

/-- Bits of the fixed point that π and sine are formed in. -/
def fxBits : Nat := 320

/-- The arctangent of 1 / n in fixed point. -/
def fxAtan (fuel k n pow acc : Nat) (neg : Bool) : Nat :=
  match fuel with
  | 0 => acc
  | f + 1 =>
    let t := pow / (2 * k + 1)
    fxAtan f (k + 1) n (pow / (n * n)) (if neg then acc - t else acc + t) (!neg)

/-- π in fixed point by Machin's formula. -/
def fxPi : Nat := 16 * fxAtan 80 0 5 (2 ^ fxBits / 5) 0 false - 4 * fxAtan 30 0 239 (2 ^ fxBits / 239) 0 false

/-- The binary64 number nearest to π. -/
def f64Pi : F64 := f64Rnd fxPi 1 (-(fxBits : Int))

/-- Sine's series in fixed point: the sum of the terms from the one of x^(2k+1). -/
def fxSin (fuel k : Nat) (x2 term acc : Int) : Int :=
  match fuel with
  | 0 => acc
  | f + 1 => fxSin f (k + 1) x2 (-(term * x2 / (2 ^ fxBits : Nat)) / ((2 * k + 2) * (2 * k + 3) : Nat)) (acc + term)

/-- The sine of a number, correctly rounded: reduced by the nearest multiple of 2π in fixed point. -/
def F64.sin (a : F64) : F64 :=
  let x : Int := if -(fxBits : Int) ≤ a.e then a.m * (2 ^ (a.e + fxBits).toNat : Nat) else 0
  let two : Int := 2 * fxPi
  let r := x - (x + fxPi) / two * two
  f64Rnd (fxSin 60 0 (r * r / (2 ^ fxBits : Nat)) r 0) 1 (-(fxBits : Int))

end Sys2Proof.Machine
end

