-- ==== Sys2Proof/Machine/Src.lean ====
section
/-! DEFINITION. The rate conversion chain (spec/07_rate_conversion_tdm.md R181 to R193): tables, converters, custom banks. -/
namespace Sys2Proof.Machine

/-! ## Rates (R181) and presets (R184, R185) -/

/-- The rate of a rate code in Hz. -/
def srcRate (code : Nat) : Nat :=
  match code with
  | 0 => 8000 | 1 => 16000 | 2 => 24000 | 3 => 32000
  | _ => 44100

/-- The high rate F. -/
def srcF (code : Nat) : Nat :=
  match code with
  | 3 => 96000 | 4 => 7056000
  | _ => 48000

/-- P and Q of a conversion to 48 kHz; from 48 kHz they change places. -/
def srcPQ (code : Nat) : Nat × Nat :=
  match code with
  | 0 => (6, 1) | 1 => (3, 1) | 2 => (2, 1) | 3 => (3, 2)
  | _ => (160, 147)

def srcP (code : Nat) (egress : Bool) : Nat := if egress then (srcPQ code).2 else (srcPQ code).1
def srcQ (code : Nat) (egress : Bool) : Nat := if egress then (srcPQ code).1 else (srcPQ code).2

/-- D of a preset. -/
def presetD (p : Nat) : Nat :=
  match p with
  | 0 => 8 | 1 => 24
  | _ => 64

/-- β of a preset, as R184's table lists it (log entry 24). -/
def presetBeta (p : Nat) : F64 :=
  f64OfRat (match p with
    | 0 => 675526 | 1 => 895926
    | _ => 1116326) 100000

/-- N = 2 × D × H + 1. -/
def srcN (d code : Nat) : Nat := 2 * d * (srcF code / 48000) + 1

/-- The series of i0 from term j on. -/
def i0Sum (fuel j : Nat) (t2 t sum : F64) : F64 :=
  match fuel with
  | 0 => sum
  | f + 1 =>
    let t := (t.mul t2).div (f64OfInt (j * j : Nat))
    i0Sum f (j + 1) t2 t (sum.add t)

/-- i0(v) by R185. -/
def i0 (v : F64) : F64 :=
  let h := v.div (f64OfInt 2)
  i0Sum 40 1 (h.mul h) (f64OfInt 1) (f64OfInt 1)

/-- h[k] of R185. -/
def presetH (beta ib : F64) (code n k : Nat) : F64 :=
  let c := (n - 1) / 2
  let d : Int := (k : Int) - c
  let u := f64OfRat d c
  let w := (i0 (beta.mul ((f64OfInt 1).sub (u.mul u)).sqrt)).div ib
  let z := (f64OfInt (srcRate code * d)).div (f64OfInt (srcF code))
  let pz := f64Pi.mul z
  w.mul (if k = c then f64OfInt 1 else pz.sin.div pz)

/-- The taps of a phase: index and h. -/
def phaseTaps (p : Nat) (h : List (Nat × F64)) (ph : Nat) : List (Nat × F64) := h.filter fun t => decide (t.1 % p = ph)

/-- The coefficients of one phase: rounded, the remainder on the tap of the largest |h|, the lowest on a tie. -/
def phaseCoefs (taps : List (Nat × F64)) : List (Nat × Int) :=
  let sum := taps.foldl (fun a t => a.add t.2) ⟨0, 0⟩
  let a := taps.map fun t => (t.1, (((f64OfInt 8388608).mul t.2).div sum).roundAway)
  let total := a.foldl (fun x t => x + t.2) (0 : Int)
  let best := (taps.foldl (fun (b : Option (Nat × F64)) t => match b with
    | none => some t
    | some q => if q.2.abs.lt t.2.abs then some t else b) none).map (·.1)
  a.map fun t => if some t.1 = best then (t.1, t.2 + (8388608 - total)) else t

/-- The integer table of a preset, rate and direction (R185). -/
def presetTable (preset code : Nat) (egress : Bool) : List Int :=
  let n := srcN (presetD preset) code
  let beta := presetBeta preset
  let ib := i0 beta
  let h := (List.range n).map fun k => (k, presetH beta ib code n k)
  let p := srcP code egress
  let a := ((List.range p).map fun ph => phaseCoefs (phaseTaps p h ph)).flatten
  (sortBy (fun x y => decide (x.1 < y.1)) a).map (·.2)

/-! ## Converters (R182, R191, R192) -/

def Conv.init : Conv := ⟨[], 0, 0⟩

/-- The sum of an output: taps `k`, `k + P`, … with the inputs from the newest one it reads backwards. -/
def convSum (fuel k p : Nat) (a : List Int) (x : List Int) (acc : Int) : Int :=
  match fuel, x with
  | 0, _ => acc
  | _, [] => acc
  | f + 1, v :: r =>
    match a.drop k with
    | [] => acc
    | c :: _ => convSum f (k + p) p a r (acc + c * v)

/-- One output of a converter whose inputs reach far enough: its value, whether it is SETTLING, whether it saturated. -/
def convOut (a : List Int) (p q : Nat) (c : Conv) : Int × Bool × Bool :=
  let t := c.nOut * q
  if t < a.length - 1 then (0, true, false)
  else
    let newest := t / p
    let y := asr (convSum (a.length + 1) (t % p) p a (c.hist.drop (c.nIn - 1 - newest)) 0 + 2 ^ 22) 23
    let v := satS 24 y
    (v, false, decide (v ≠ y))

/-- Outputs made while the inputs reach. -/
def convDrain (fuel : Nat) (a : List Int) (p q : Nat) (c : Conv) (acc : List (Int × Bool × Bool)) : List (Int × Bool × Bool) × Conv :=
  match fuel with
  | 0 => (acc, c)
  | f + 1 =>
    if c.nOut * q / p < c.nIn then convDrain f a p q { c with nOut := c.nOut + 1 } (acc ++ [convOut a p q c])
    else (acc, { c with hist := c.hist.take (a.length / p + 2) })

/-- Inputs pushed into a converter with a table: its outputs and its state. -/
def convPush (a : List Int) (p q : Nat) (x : List Int) (c : Conv) : List (Int × Bool × Bool) × Conv :=
  convDrain (x.length * p / q + 64) a p q { c with hist := x.reverse ++ c.hist, nIn := c.nIn + x.length } []

/-! ## Banks and selection (R186 to R189) -/

def SrcBank.init : SrcBank := ⟨0, 0, 0, 0, [], 0, 15⟩

def srcBank (n : Nat) (s : State) : SrcBank := tget SrcBank.init s.src.banks n

/-- Acts that select a bank. -/
def bankActs (n : Nat) (s : State) : Nat := (s.aud.acts.filter fun p => decide (p.2.select = some (8 + n))).length

/-- The state of a bank as it shows: a READY bank that an Act selects is IN_USE. -/
def bankState (n : Nat) (s : State) : Nat := if (srcBank n s).st = 2 && bankActs n s ≠ 0 then 3 else (srcBank n s).st

/-- SRC_BANK_CFG and SRC_BANK_STATUS brought up to date for the bank SRC_BANK_SEL names. -/
def bankSync (s : State) : State :=
  let n := fget R.SRC_BANK_SEL_bank s
  let b := srcBank n s
  let s := fset R.SRC_BANK_CFG_rate (bits b.cfg 0 2) (fset R.SRC_BANK_CFG_delay (bits b.cfg 4 8)
    (fset R.SRC_BANK_CFG_rings (bits b.cfg 16 16) s))
  fset R.SRC_BANK_STATUS_state (bankState n s) (fset R.SRC_BANK_STATUS_count b.count
    (fset R.SRC_BANK_STATUS_result b.result (fset R.SRC_BANK_STATUS_acts (bankActs n s) s)))

def bankPut (n : Nat) (b : SrcBank) (s : State) : State :=
  bankSync { s with src := { s.src with banks := tset s.src.banks n b } }

/-- The taps of each phase of a table sum to 2^23 (R183). -/
def sumsOk (p : Nat) (a : List Int) : Bool :=
  (List.range p).all fun ph =>
    decide ((((a.zip (List.range a.length)).filter fun t => decide (t.2 % p = ph)).map (·.1)).foldl (· + ·) 0 = 8388608)

/-- The table, P and Q that convert a stream of an Act at a rate: the template's preset, a selected preset, or a selected bank for the
bank's rate (R189). -/
def srcTable (act code : Nat) (egress : Bool) (s : State) : List Int :=
  let tpl := match tfind s.ctl.acts act with
    | some a => a.tpl.preset
    | none => 0
  match (tfind s.aud.acts act).bind (·.select) with
  | none => presetTable tpl code egress
  | some n =>
    if n < 3 then presetTable n code egress
    else
      let b := srcBank (n - 8) s
      if b.rate = code && b.st = 2 then
        let k := srcN b.delay code
        if egress then (b.coefs.drop k).take k else b.coefs.take k
      else presetTable tpl code egress

/-- D of what converts a stream of an Act at a rate. -/
def srcDelay (act code : Nat) (s : State) : Nat := (srcTable act code false s).length / (2 * (srcF code / 48000))

end Sys2Proof.Machine
end

