-- ==== Sys2Proof/Machine/Audio.lean ====
section
/-! DEFINITION. The sample arithmetic of Calliope (spec/06_calliope_audio.md R146 to R153, R160; spec/07 R197): filter, gain, ramps,
meters, G.711. -/
namespace Sys2Proof.Machine

/-! ## Filter (R146, R147) -/

/-- b0, a1 and a2 of a filter setting. -/
def hpfCoef (n : Nat) : Int × Int × Int :=
  match n with
  | 1 => (267938988, -535877057, 267443437)
  | 2 => (267443437, -534883209, 266455085)
  | 3 => (266455085, -532895559, 264489324)
  | _ => (264734248, -529417460, 261084074)

/-- The filter's states put to zero. -/
def hpfZero (l : LegAud) : LegAud := { l with x1 := 0, x2 := 0, y1 := 0, y2 := 0 }

/-- One sample through the filter: h[n] and the leg after it.  Setting 0 is bypass. -/
def hpfStep (x : Int) (l : LegAud) : Int × LegAud :=
  if l.hpf = 0 then (x, l)
  else
    let c := hpfCoef l.hpf
    let d := x - 2 * l.x1 + l.x2
    let acc := c.1 * (d * 256) - c.2.1 * l.y1 - c.2.2 * l.y2
    let y := clampI (-(2 ^ 33)) (2 ^ 33 - 1) (asr (acc + 2 ^ 27) 28)
    (asr (y + 128) 8, { l with x2 := l.x1, x1 := x, y2 := l.y1, y1 := y })

/-! ## Ramps and gain (R148 to R150) -/

/-- r_k of a ramp from `a` to `v` over `n` samples: `a` before its first sample, `v` from sample n on. -/
def rampVal (a v : Int) (k : Int) (n : Nat) : Int :=
  if (n : Int) ≤ k then v else if k ≤ 0 then a else a + ((v - a) * k).tdiv n

/-- The position of sample `i` of block `b` in a ramp; 0 before its block. -/
def rampPos (r : Ramp) (b i : Nat) : Int := if stampGe b r.start then 24 * (stampSub b r.start : Int) + i + 1 else 0

/-- A signal sample under a ramp between it and zero. -/
def rampSig (r : Ramp) (b i : Nat) (v : Int) : Int :=
  if r.up then rampVal 0 v (rampPos r b i) r.len else rampVal v 0 (rampPos r b i) r.len

/-- Whether a ramp still runs at some sample of block `b`. -/
def rampRuns (r : Ramp) (b : Nat) : Bool := stampGe b r.start && decide (24 * stampSub b r.start < r.len)

/-- The gain at a leg's present position. -/
def gainNow (l : LegAud) : Int := rampVal l.gFrom l.gain l.gPos l.gLen

/-- A gain target taken: a new ramp from the gain reached (R150). -/
def gainTarget (g len : Nat) (l : LegAud) : LegAud :=
  if g = l.gain then l else { l with gFrom := (gainNow l).toNat, gain := g, gPos := 0, gLen := len }

/-- c[n] of R148. -/
def gainStage (h g : Int) : Int := asr (h * g + 2 ^ 19) 20

/-- Samples, each with whether it is SETTLING, through filter and gain: h, c, and the leg after them; a SETTLING sample contributes 0
(R192). -/
def chain (xs : List (Int × Bool)) (l : LegAud) : List Int × List Int × LegAud :=
  xs.foldl (fun a x =>
    let f := hpfStep x.1 a.2.2
    let l := { f.2 with gPos := f.2.gPos + 1 }
    (a.1 ++ [f.1], a.2.1 ++ [if x.2 then 0 else gainStage f.1 (gainNow l)], l)) ([], [], l)

/-! ## Meters (R151, R152, R160) -/

/-- The greatest r in [lo, lo + 2^k) that meets a falling condition, found by halving; `lo` where none does. -/
def findMax (k : Nat) (lo : Int) (ok : Int → Bool) : Int :=
  match k with
  | 0 => lo
  | k + 1 => if ok (lo + 2 ^ k) then findMax k (lo + 2 ^ k) ok else findMax k lo ok

/-- 10^e × d ≤ n for an exponent of either sign. -/
def tenLe (e : Int) (d n : Nat) : Bool :=
  if 0 ≤ e then decide (10 ^ e.toNat * d ≤ n) else decide (d ≤ n * 10 ^ (-e).toNat)

/-- ⌊m × log10(a / b) + 1/2⌋ held to 16 bits, exactly: r with 10^(2r − 1) ≤ (a / b)^(2m). -/
def rlog (m a b : Nat) : Int :=
  if a = 0 then -32768 else findMax 16 (-32768) fun r => tenLe (2 * r - 1) (b ^ (2 * m)) (a ^ (2 * m))

def sumSq (l : List Int) : Nat := (l.map fun v => (v * v).toNat).foldl (· + ·) 0

def meterRms (h : List Int) : Int := rlog 2560 (sumSq h) (24 * 2 ^ 46)
def meterPeak (h : List Int) : Int := rlog 5120 (h.foldl (fun m v => max m v.natAbs) 0) (2 ^ 23)

/-- The held peak after a block (R152). -/
def heldPeak (peak : Int) (hold decay : Nat) (l : LegAud) : LegAud :=
  if l.held ≤ peak then { l with held := peak, count := hold }
  else if 0 < l.count then { l with count := l.count - 1 }
  else { l with held := max (max peak (l.held - decay)) (-32768) }

/-- M of R160 for a sum of squares of `n` samples: the greatest m in [0, 127] with 10^(2m − 1) × s^20 ≤ (n × 2^46)^20. -/
def levelOf (s n : Nat) : Nat :=
  if s = 0 then 127
  else (findMax 7 0 fun m => tenLe (2 * m - 1) (s ^ 20) ((n * 2 ^ 46) ^ 20)).toNat

/-! ## G.711 (R153, R197) -/

def ulawDecode (b : Nat) : Int :=
  let u := 255 - b % 256
  let mag := ((u % 16 * 8 + 0x84) * 2 ^ (u / 16 % 8) - 0x84) / 4 * 1024
  if 128 ≤ u then -(mag : Int) else mag

/-- The first segment whose end holds a magnitude; ends are 2^(i + `k`) − 1. -/
def g711Seg (k v : Nat) : Nat := ((List.range 8).find? fun i => decide (v < 2 ^ (i + k))).getD 8

def ulawEncode (x : Int) : Nat :=
  let v := asr x 10
  let mask := if v < 0 then 0x7F else 0xFF
  let m := min v.natAbs 8159 + 0x21
  let seg := g711Seg 6 m
  Nat.xor (if 8 ≤ seg then 0x7F else seg * 16 + m / 2 ^ (seg + 1) % 16) mask

def alawDecode (b : Nat) : Int :=
  let a := Nat.xor (b % 256) 0x55
  let seg := a / 16 % 8
  let t := a % 16 * 16
  let m := (if seg = 0 then t + 8 else (t + 0x108) * 2 ^ (seg - 1)) / 8 * 2048
  if 128 ≤ a then m else -(m : Int)

def alawEncode (x : Int) : Nat :=
  let v := asr x 11
  let mask := if v < 0 then 0x55 else 0xD5
  let m := if v < 0 then (-v - 1).toNat else v.toNat
  let seg := g711Seg 5 m
  Nat.xor (if 8 ≤ seg then 0x7F else seg * 16 + (if seg < 2 then m / 2 else m / 2 ^ seg) % 16) mask

/-! ## TDM slot formats (R197) -/

/-- A received slot value to 24 bits; `mode` is the port's tdm_mode. -/
def tdmDecode (mode format v : Nat) : Int :=
  if mode = 2 then toS 24 (v / 256)
  else match format with
    | 1 => ulawDecode (v / 256)
    | 2 => alawDecode (v / 256)
    | _ => toS 16 v * 256

/-- A sample to the slot value to send. -/
def tdmEncode (mode format : Nat) (x : Int) : Nat :=
  if mode = 2 then ofS 24 x * 256
  else match format with
    | 1 => ulawEncode x * 256
    | 2 => alawEncode x * 256
    | _ => ofS 16 (satS 16 (asr (x + 128) 8))

/-! ## Codecs (R153, R154) -/

/-- Egress frame length in blocks, of a TDM converter group too (R165). -/
def frameBlocks (codec : Nat) : Nat :=
  match codec with
  | 1 => 40 | 2 => 40 | 3 => 40 | 4 => 20 | 5 => 40 | 6 => 80 | 7 => 120
  | _ => 1

/-- The rate code a codec passes through the chain with; none at 48 kHz.  Codes 16 and up are TDM formats at 8 kHz, 32 and up at
48 kHz. -/
def codecRate (codec : Nat) : Option Nat :=
  if codec = 1 || codec = 2 || (16 ≤ codec && codec < 32) then some 0 else if codec = 3 then some 1 else none

/-- Samples of a block at a codec's rate. -/
def codecSamples (codec : Nat) : Nat :=
  match codecRate codec with
  | some 0 => 4
  | some _ => 8
  | none => 24

/-- An Opus frame's duration in units of 2.5 ms (RFC 6716): from the configuration of its TOC byte. -/
def opusFrame (cfg : Nat) : Nat :=
  if cfg < 12 then [4, 8, 16, 24].getD (cfg % 4) 4
  else if cfg < 16 then [4, 8].getD (cfg % 2) 4
  else [1, 2, 4, 8].getD (cfg % 4) 1

/-- Frames in an Opus packet. -/
def opusFrames (p : List Nat) : Nat :=
  match p with
  | [] => 0
  | t :: r =>
    match t % 4 with
    | 0 => 1
    | 3 => r.headD 0 % 64
    | _ => 2

/-- A packet's duration in blocks, where it is a whole number of them and at most 60 ms (R154). -/
def packetBlocks (codec : Nat) (p : List Nat) : Option Nat :=
  let d := if 4 ≤ codec then 5 * opusFrame (p.headD 0 / 8) * opusFrames p
    else if p.length % 4 = 0 then p.length / 4 else 0
  if 1 ≤ d && d ≤ 120 then some d else none

/-- The samples that decoding a payload of `d` blocks gives, and the decoder's next state. -/
def decodeFrame (codec st d : Nat) (p : List Nat) : List Int × Nat :=
  (if codec = 1 then p.map ulawDecode
   else if codec = 2 then p.map alawDecode
   else (List.range (d * codecSamples codec)).map fun i => satS 24 (Config.decSample codec st p i),
   Config.decNext codec st p)

/-- Sample `j` of a G.711 or G.722 concealment, counted from its first frame's start: the last pitch period of the samples before it
repeated, under a linear fade to zero over 60 ms of `n` samples a block (R168; the fade's steps are R149's). -/
def concealPitch (codec n : Nat) (hist : List Int) (j : Nat) : Int :=
  let p := 1 + Config.pitchPeriod codec hist % hist.length
  if hist.isEmpty then 0 else rampVal (hist.getD (hist.length - p + j % p) 0) 0 (j + 1 : Nat) (120 * n)

/-- The samples of the concealed frame of `d` blocks that comes `run` frames after a concealment's start. -/
def concealFrame (codec st run d : Nat) (hist : List Int) : List Int × Nat :=
  let n := codecSamples codec
  ((List.range (d * n)).map fun i =>
    if 4 ≤ codec then satS 24 (Config.concealSample codec st run i) else concealPitch codec n hist (run * d * n + i),
   Config.concealNext codec st run)

/-- The payload of an encoded frame and the encoder's next state. -/
def encodeFrame (e : AudEnc) (x : List Int) : List Nat × Nat :=
  let k := [e.codec, e.rate, e.flags, e.cx]
  (if e.codec = 1 then x.map ulawEncode
   else if e.codec = 2 then x.map alawEncode
   else (Config.encPayload k e.state x).map fun v => v % 256,
   Config.encNext k e.state x)

end Sys2Proof.Machine
end

