-- ==== Sys2Proof/Machine/CasNet.lean ====
section
/-! DEFINITION. The cascade's members, mapped Acts and messages sent (spec/19_abajor_cascade.md R443 to R447, R452, R454). -/
namespace Sys2Proof.Machine

/-! ## Members -/

def CasPeer.init : CasPeer := ⟨[], none, 0, [], 0, 0, none, []⟩
def casPeer (m : Nat) (s : State) : CasPeer := tget CasPeer.init s.cas.peers m
def casPeerPut (m : Nat) (p : CasPeer) (s : State) : State := { s with cas := { s.cas with peers := tset s.cas.peers m p } }

/-- x of R452, and the part's own member index. -/
def casX (s : State) : Nat := fget R.CAS_CFG_exch_blocks s
def casMe (s : State) : Nat := fget R.CAS_CFG_member s

/-- Whether another member is in force at a stamp: from its start stamp to the leave stamp of its LEAVE or of this part's own. -/
def inForce (m t : Nat) (s : State) : Bool :=
  (match tfind s.cas.members m with
   | some a => stampGe t a
   | none => false) &&
  (match (casPeer m s).leave with
   | some w => !stampGe t w
   | none => true) &&
  (match s.cas.leave with
   | some (_, _, w) => !stampGe t w
   | none => true)

/-- The other members in force at a stamp, ascending. -/
def casOthers (t : Nat) (s : State) : List Nat := (tkeys s.cas.members).filter fun m => inForce m t s

/-- CAS_STATUS brought up to date for block `b` (R458): a part that no other member is in force with is ALONE. -/
def casSync (b : Nat) (s : State) : State :=
  let l := casOthers b s
  let st := if s.cas.join.isSome then 1 else if s.cas.leave.isSome then 3 else if l.isEmpty then 0 else 2
  let m := if l.isEmpty then 0 else (l.foldl (fun a n => a + 2 ^ n) 0) + (if l.contains (casMe s) then 0 else 2 ^ casMe s)
  fset R.CAS_STATUS_members m (fset R.CAS_STATUS_state st s)

/-! ## Mapped Acts (R452, R453) -/

/-- The bridge Act of a local Act; none where it is not mapped. -/
def casAct (act : Nat) (s : State) : Option Nat := tfind s.cas.acts act

/-- The block whose samples are combined in the close of block `b`: x earlier for a mapped Act. -/
def actBlock (act b : Nat) (s : State) : Nat := if (casAct act s).isSome then stampSub b (casX s) else b

/-- A leg's seat: its number where none was set. -/
def seatOf (leg : Nat) (s : State) : Nat := tget leg s.cas.seats leg

/-- The identifier that stands for a seat of another member among an Act's speakers and sources: above every leg number. -/
def farId (m seat : Nat) : Nat := 0x10000 * (m + 1) + seat % 0x10000
def isFar (n : Nat) : Bool := decide (0x10000 ≤ n)
def farMember (n : Nat) : Nat := n / 0x10000 - 1
def farSeat (n : Nat) : Nat := n % 0x10000

/-- The record that a member's stream of a stamp holds for a bridge Act; records of one Act are joined. -/
def farRec (m t bridge : Nat) (s : State) : Option CasRec :=
  match tfind (casPeer m s).ins t with
  | none => none
  | some i => (i.recs.filter fun r => decide (r.act = bridge)).foldl (fun (a : Option CasRec) r =>
      match a with
      | none => some r
      | some q => some { q with part := q.part.zipWith (· + ·) r.part, levels := q.levels ++ r.levels }) none

/-- A mapped Act's own block. -/
def casOwn (act t : Nat) (s : State) : Option CasOwn := tfind (tget [] s.cas.own act) t
def casOwnPut (act t : Nat) (o : CasOwn) (s : State) : State :=
  { s with cas := { s.cas with own := tset s.cas.own act (tset (tget [] s.cas.own act) t o) } }

/-- The level entry of a speaker of a mapped Act at a stamp (R451). -/
def levEntry (act n t : Nat) (s : State) : Option LevEntry :=
  if isFar n then
    ((casAct act s).bind fun g => farRec (farMember n) t g s).bind fun r => r.levels.find? fun e => decide (e.seat = farSeat n)
  else (casOwn act t s).bind fun o => tfind o.legs n

/-- The other members' speakers of a bridge Act at a stamp. -/
def farIds (act t : Nat) (s : State) : List Nat :=
  match casAct act s with
  | none => []
  | some g => ((casOthers t s).map fun m => match farRec m t g s with
      | some r => r.levels.map fun e => farId m e.seat
      | none => []).flatten

/-- A member's level set or partial of a stamp is lost for a bridge Act (R454): no record of it has come, from a member that sent
records for the Act before. -/
def farLost (m t bridge : Nat) (s : State) : Bool := (farRec m t bridge s).isNone && (casPeer m s).acts.contains bridge

/-! ## Messages sent (R444 to R447) -/

/-- The header of a message (R445). -/
def casHeader (typ from_ dest flags subject seq stamp len : Nat) : List Byte :=
  leBytes 1 1 ++ leBytes 1 typ ++ leBytes 1 (from_ + dest * 16) ++ leBytes 1 flags ++ leBytes 2 subject ++ leBytes 2 seq
    ++ leBytes 6 stamp ++ leBytes 2 len

/-- The tag of a control message (R447), made in a cipher engine's tag mode (R135). -/
def casTag (key : List Nat) (head body : List Byte) : List Byte :=
  ofNats (gcmTag key (toNats (slice head 2 12)) (toNats (head ++ body)) [])

/-- A peer's address, first byte in the low bits of its first word. -/
def peerAddr (m : Nat) (s : State) : List Byte :=
  leBytes 4 (fget (R.CAS_PEER_ADDR0_addr m) s) ++ leBytes 4 (fget (R.CAS_PEER_ADDR1_addr m) s)
    ++ leBytes 4 (fget (R.CAS_PEER_ADDR2_addr m) s) ++ leBytes 4 (fget (R.CAS_PEER_ADDR3_addr m) s)

/-- A message's frame put in the queue of a link. -/
def casFrame (m link : Nat) (data : List Byte) (s : State) : State :=
  let loc := fget R.CAS_CFG_local s
  let port := fget R.CAS_CFG_udp_port s
  let p : Path := ⟨link, loc, 0, 0, port, peerAddr m s, leBytes 6 (fget (R.CAS_PEER_MAC_mac m) s)⟩
  let (k, s) := takeFree s
  match (if fon (R.ING_LOCAL_valid loc) s then ipOf (localAddr loc s) port k p data else none) with
  | none => s
  | some ip => { s with cas := { s.cas with tx := s.cas.tx ++ [(link, etherOf p ip s)] } }

/-- A message sent to a member on link_a and, where it is used, on link_b.  Control messages carry a tag under KR1, one request for each
copy (R135), and cannot be sent without it. -/
def casSend (m typ subject stamp : Nat) (more : Bool) (body : List Byte) (s : State) : State :=
  let control := decide (typ < 0x10)
  if !fon (R.CAS_PEER_CFG_valid m) s || (control && s.key.kr1.isEmpty) then s
  else
    let k := m * 256 + typ
    let seq := tget 0 s.cas.seqs k
    let s := { s with cas := { s.cas with seqs := tset s.cas.seqs k ((seq + 1) % 65536) } }
    let msg := fun (copy : Nat) =>
      let h := casHeader typ (casMe s) m (b2n control + b2n more * 2 + copy * 4) subject seq stamp (body.length + if control then 16 else 0)
      h ++ body ++ (if control then casTag s.key.kr1 h body else [])
    let copy := fun (n link : Nat) (s : State) => casFrame m link (msg n) (if control then tagServed s else s)
    let s := copy 0 (fget (R.CAS_PEER_CFG_link_a m) s) s
    if fon (R.CAS_PEER_CFG_link_b_used m) s then copy 1 (fget (R.CAS_PEER_CFG_link_b m) s) s else s

/-- A request for a bridge stream sent to its owner (R455): 0 want, 1 stop, 2 PLI, 3 FIR. -/
def casRequest (num req : Nat) (s : State) : State :=
  casSend (num / 4096 % 16) 0x21 num s.clk.stamp false (leBytes 1 req ++ [0, 0, 0]) s

/-! ## Bridge streams received (R455) -/

/-- The identifier of a bridge stream among contexts: above every context number. -/
def farCtx (num : Nat) : Nat := 0x20000 + num % 0x10000
def isFarCtx (id : Nat) : Bool := decide (0x20000 ≤ id)

/-- A bridge stream as an ingress video context, before anything is received of it. -/
def farStream (num : Nat) : Stream :=
  ⟨0x10000, 0, 1, 0, true, false, 8, 2, 0, [], [], 0, (List.range 7).map fun i => Config.bridgeExt num i % 256, none, none, false, 0, 0,
    ⟨false, 0, 0⟩, ⟨false, 0, 0⟩, ⟨false, 0, 0, none, none⟩, none, 0, false, none, 0, [], none, false, 0,
    ⟨false, 0, 0, 0, 0, 0, 0, 0, none⟩, 0, 0, none, none, ⟨false, 0, 0⟩⟩

/-- A context that is forwarded: a local one or a bridge stream. -/
def fwdStream (id : Nat) (s : State) : Option Stream :=
  if isFarCtx id then tfind s.cas.streams (id - 0x20000) else tfind s.ctl.streams id

end Sys2Proof.Machine
end

