-- ==== Sys2Proof/Machine/AudSel.lean ====
section
/-! DEFINITION. Calliope's parameter banks, levels and top-N selection (spec/06_calliope_audio.md R155 to R158, R169 to R173). -/
namespace Sys2Proof.Machine

/-! ## Tables -/

/-- The Act header defaults (R172). -/
def ActHdr.dflt (t : Template) : ActHdr := ⟨t.topN, 6, 400, 60, 16, 10, 2, 0⟩

/-- The leg record defaults (R173). -/
def LegRec.dflt (t : Template) (codec : Nat) : LegRec :=
  ⟨false, t.hpf, 0x100000, 480, 0, 5, 2000, if 4 ≤ codec then 32000 else 0, 3⟩

def Template.zero : Template := ⟨0, 0, 1, 24, 0, 0, 0, 0⟩
def Bank.empty : Bank := ⟨ActHdr.dflt Template.zero, []⟩
def ActAud.init : ActAud := ⟨Bank.empty, Bank.empty, 0, 0, none, [], [], [], false, 0, none, 0, [], []⟩
def LegAud.init : LegAud :=
  ⟨0, 0, 0, 0, 0, 0x100000, 0x100000, 0, 0, -32768, -32768, -32768, 0, 0, false, [], Conv.init, none, 0, 0, false, 0, 0, [], none,
    none, none, 0, false, false, false, none, [], [], none, none, none, []⟩

def actAud (a : Nat) (s : State) : ActAud := tget ActAud.init s.aud.acts a
def actAudPut (a : Nat) (x : ActAud) (s : State) : State := { s with aud := { s.aud with acts := tset s.aud.acts a x } }
def legAud (n : Nat) (s : State) : LegAud := tget LegAud.init s.aud.legs n
def legAudPut (n : Nat) (x : LegAud) (s : State) : State := { s with aud := { s.aud with legs := tset s.aud.legs n x } }

/-- An Act's active bank, and the Act's audio with it replaced. -/
def ActAud.bank (x : ActAud) : Bank := if x.active = 0 then x.bankA else x.bankB
def ActAud.setBank (b : Bank) (x : ActAud) : ActAud := if x.active = 0 then { x with bankA := b } else { x with bankB := b }

/-- Both banks changed (R169, R171). -/
def ActAud.both (f : Bank → Bank) (x : ActAud) : ActAud := { x with bankA := f x.bankA, bankB := f x.bankB }

def Bank.put (n : Nat) (r : LegRec) (b : Bank) : Bank := { b with recs := tset b.recs n r }
def Bank.drop (n : Nat) (b : Bank) : Bank := { b with recs := terase b.recs n }

/-- A leg's record in its Act's active bank. -/
def legRec (act leg : Nat) (s : State) : LegRec := tget (LegRec.dflt Template.zero 0) (actAud act s).bank.recs leg

def actHdr (act : Nat) (s : State) : ActHdr := (actAud act s).bank.hdr

/-- The template an Act was admitted with. -/
def actTpl (act : Nat) (s : State) : Template :=
  match tfind s.ctl.acts act with
  | some a => a.tpl
  | none => Template.zero

/-- The Act's ramp_samples, and blocks of a ramp. -/
def actRamp (act : Nat) (s : State) : Nat := (actTpl act s).ramp
def rampBlocks (r : Nat) : Nat := ceilDiv r 24

/-- The legs of an Act, ascending. -/
def actLegs (act : Nat) (s : State) : List Nat := tkeysWhere s.ctl.legs fun _ l => decide (l.act = act)

/-- The slot binding of a leg: its audio comes from a TDM slot (R198). -/
def tdmBind (leg : Nat) (s : State) : Option TdmBind := tfind s.src.binds leg

/-- Whether a leg has a tdm_source stream. -/
def isTdm (leg : Nat) (s : State) : Bool := s.ctl.streams.any fun p => decide (p.2.leg = leg) && p.2.tdm

/-! ## Levels (R155) -/

/-- A leg's level at block `b`. -/
def level (leg b : Nat) (s : State) : Nat :=
  let x := legAud leg s
  if isTdm leg s then levelOf ((x.sums.map (·.1)).foldl (· + ·) 0) ((x.sums.map (·.2)).foldl (· + ·) 0)
  else
    let heard := match x.lastRel with
      | some r => decide (stampSub b r < 200)
      | none => false
    if !heard then 127 else (if x.untrusted then x.measured else x.claimed).getD 127

/-- A leg may be a candidate in its Act: ACTIVE, role 0, its target gain not 0, its level at most the gate, pinned or not (R155; log entry
28). -/
def eligible (act leg b : Nat) (s : State) : Bool :=
  match tfind s.ctl.legs leg with
  | none => false
  | some l =>
    let r := legRec act leg s
    decide (l.act = act) && decide (l.st = .active) && decide (l.role = 0) && decide (r.gain ≠ 0) &&
      decide (level leg b s ≤ (actHdr act s).gate)

/-! ## What a selection item reads (R156, R452) -/

/-- The entry of a speaker that the selection item stamped `b` of a mapped Act uses: that of stamp b − x. -/
def selEntry (act n b : Nat) (s : State) : Option LevEntry := levEntry act n (actBlock act b s) s

/-- A speaker's level as selection reads it: the leg's own, or that of its entry for a mapped Act. -/
def selLevel (act n b : Nat) (s : State) : Nat :=
  if (casAct act s).isNone then level n b s else ((selEntry act n b s).map (·.level)).getD 127

def selPinned (act n b : Nat) (s : State) : Bool :=
  if (casAct act s).isNone then (legRec act n s).pinned else ((selEntry act n b s).map (·.pinned)).getD false

def selEligible (act n b : Nat) (s : State) : Bool :=
  if (casAct act s).isNone then eligible act n b s else ((selEntry act n b s).map (·.elig)).getD false

/-- What orders speakers of one level: the leg, or the seat and then the member for a mapped Act. -/
def selKey (act n : Nat) (s : State) : Nat :=
  if (casAct act s).isNone then n
  else if isFar n then farSeat n * 16 + farMember n else seatOf n s * 16 + casMe s

/-- (level, leg) of one speaker before another's. -/
def selLt (act b : Nat) (s : State) (p q : Nat) : Bool :=
  decide (selLevel act p b s < selLevel act q b s) ||
    (decide (selLevel act p b s = selLevel act q b s) && decide (selKey act p s < selKey act q s))

/-- The order of candidates: pinned before others, then level, then leg (R156, R158). -/
def candLt (act b : Nat) (s : State) (p q : Nat) : Bool :=
  let kp := selPinned act p b s
  let kq := selPinned act q b s
  if kp != kq then kp else selLt act b s p q

/-- The speakers that may be candidates: the Act's legs, and the seats of other members for a mapped Act. -/
def selIds (act b : Nat) (s : State) : List Nat :=
  actLegs act s ++ if (casAct act s).isSome then farIds act (actBlock act b s) s else []

/-- Whether a speaker may stay in S: an ACTIVE leg of the Act of role 0; for a mapped Act one that has a level entry, or whose member's
entries are lost (R156's first line, R454, R456). -/
def selStays (act n b : Nat) (s : State) : Bool :=
  match casAct act s with
  | none => (match tfind s.ctl.legs n with
    | some l => decide (l.act = act) && decide (l.st = .active) && decide (l.role = 0)
    | none => false)
  | some g =>
    let t := actBlock act b s
    (selEntry act n b s).isSome || (isFar n && inForce (farMember n) t s && farLost (farMember n) t g s)
      || (!isFar n && (casOwn act t s).isNone)

/-! ## TOPN_CHANGE (R172, R179) -/

/-- TOPN_CHANGE for legs of this part that joined and left S, paired in order; none where the header's flag is clear. -/
def topnChange (act : Nat) (joined left : List Nat) (s : State) : State :=
  match tfind s.ctl.acts act with
  | none => s
  | some a =>
    let joined := joined.filter fun n => !isFar n
    let left := left.filter fun n => !isFar n
    if !bit (actHdr act s).flags 0 then s
    else (List.range (max joined.length left.length)).foldl (fun s i =>
      raiseObj EV_TOPN_CHANGE a.ring 2 act (joined.getD i 0x3FFF + left.getD i 0x3FFF * 65536) s) s

/-! ## The selection item (R156 to R158) -/

/-- A leg that is decoded afresh from its next packet. -/
def legFresh (leg : Nat) (s : State) : State :=
  if isFar leg then s else legAudPut leg { legAud leg s with fresh := true, window := none } s

/-- enter(c, e) where e is the current block: the leg joins S. -/
def selJoin (act leg since : Nat) (s : State) : State :=
  let x := actAud act s
  legFresh leg (actAudPut act { x with
    spk := sortBy (fun p q => decide (p.leg < q.leg)) (x.spk ++ [⟨leg, since, none, none⟩])
    entering := x.entering.filter fun e => decide (e.1 ≠ leg) } s)

/-- Every leg removed from S that R156's first line names: one released, routed away or of another role; it fades out from `b`, its
place free at once.  A leg that has not begun its fade-in has nothing to fade; one routed away from a mapped Act fades already. -/
def selPurge (act b : Nat) (s : State) : State :=
  let x := actAud act s
  let out := x.spk.filter fun p => !selStays act p.leg b s
  let fade := (out.filter fun p => p.fin.isSome && !(x.gone.any fun g => decide (g.leg = p.leg))).map fun p =>
    { p with out := some (p.out.getD b) }
  topnChange act [] (out.map (·.leg)) (actAudPut act { x with
    spk := x.spk.filter fun p => selStays act p.leg b s
    entering := x.entering.filter fun e => selStays act e.1 b s
    gone := x.gone ++ fade } s)

/-- Members whose fade-out has ended leave, entering legs whose block has come join, ended fades of removed legs are forgotten. -/
def selAdvance (act b : Nat) (s : State) : State :=
  let x := actAud act s
  let n := rampBlocks (actRamp act s)
  let ended := fun (p : Spk) => match p.out with
    | some w => stampGe b (stampAdd w n)
    | none => false
  let left := (x.spk.filter ended).map (·.leg)
  let joins := x.entering.filter fun e => stampGe b e.2
  let s := actAudPut act { x with spk := x.spk.filter fun p => !ended p, gone := x.gone.filter fun p => !ended p } s
  let s := joins.foldl (fun s e => selJoin act e.1 e.2 s) s
  topnChange act (joins.map (·.1)) left s

/-- A member's fade-out begun at `b` (R157). -/
def selFade (act leg b : Nat) (s : State) : State :=
  let x := actAud act s
  actAudPut act { x with spk := x.spk.map fun p => if p.leg = leg && p.out.isNone then { p with out := some b } else p } s

/-- The member to be replaced: not pinned, not fading, of the greatest (level, leg). -/
def selVictim (act b : Nat) (s : State) : Option Spk :=
  ((actAud act s).spk.filter fun p => p.out.isNone && !selPinned act p.leg b s).foldl (fun w p =>
    match w with
    | none => some p
    | some q => if selLt act b s q.leg p.leg then some p else some q) none

/-- The candidates of R156 taken in order. -/
def selCands (act b : Nat) (cs : List Nat) (s : State) : State :=
  match cs with
  | [] => s
  | c :: r =>
    let x := actAud act s
    let h := actHdr act s
    if x.spk.length + x.entering.length < h.topN then selCands act b r (topnChange act [c] [] (selJoin act c b s))
    else if x.swapActive then s
    else match selVictim act b s with
      | none => s
      | some w =>
        if selLevel act c b s + h.hyst ≤ selLevel act w.leg b s && h.hold ≤ stampSub b w.since then
          let entry := stampAdd b (rampBlocks (actRamp act s))
          let s := selFade act w.leg b s
          let x := actAud act s
          cinc 0x201008 (cinc (actCnt act 8) (actAudPut act { x with
            entering := x.entering ++ [(c, entry)], swapActive := true, swapEntry := entry } s))
        else s

/-- The selection item of a mixing Act for block `b`. -/
def selRun (act b : Nat) (s : State) : State :=
  if !(actTpl act s).mixing then s
  else
    let s := selPurge act b (selAdvance act b s)
    let x := actAud act s
    let s := if x.swapActive && stampGe b x.swapEntry then actAudPut act { x with swapActive := false } s else s
    let x := actAud act s
    let cs := (selIds act b s).filter fun n =>
      selEligible act n b s && !(x.spk.any fun p => decide (p.leg = n)) && !(x.entering.any fun e => decide (e.1 = n))
    let s := selCands act b (sortBy (candLt act b s) cs) s
    (actAud act s).spk.foldl (fun s p => if isFar p.leg then s else cinc (legCnt p.leg 0x38) s) s

/-- top_n lowered (R158): of the members and the entering legs those beyond the new N by (level, leg), pinned ones first, fade out
at `b` together; an entering leg is dropped. -/
def selLower (act b n : Nat) (s : State) : State :=
  let x := actAud act s
  let live := (x.spk.filter fun p => p.out.isNone).map (·.leg) ++ x.entering.map (·.1)
  let beyond := (sortBy (candLt act b s) live).drop n
  beyond.foldl (fun s m =>
    let x := actAud act s
    if x.entering.any fun e => decide (e.1 = m) then
      actAudPut act { x with entering := x.entering.filter fun e => decide (e.1 ≠ m) } s
    else selFade act m b s) s

/-- The Act whose mix a leg's contribution still fades out of after its removal there, other than its own (R157, R175). -/
def fadingAct (leg own : Nat) (s : State) : Option Nat :=
  (s.aud.acts.find? fun p => decide (p.1 ≠ own) && p.2.gone.any fun m => decide (m.leg = leg)).map (·.1)

/-- Whether a leg's packets are decoded in block `b`: it is untrusted, a member of its Act's S, or fades out somewhere. -/
def decoding (leg : Nat) (s : State) : Bool :=
  (legAud leg s).untrusted || s.aud.acts.any fun p =>
    (p.2.spk.any fun m => decide (m.leg = leg)) || p.2.gone.any fun m => decide (m.leg = leg)

/-! ## Concealment's report (R168) -/

/-- A concealment begun: CONCEAL_START after at least one normal frame, at most once per leg in 2,000 blocks. -/
def concealStart (leg : Nat) (l : Leg) (s : State) : State :=
  let x := legAud leg s
  let k := x.conceals + 1
  if !x.normal then s
  else match rateOk (rateKey EV_CONCEAL_START leg) 2000 s with
    | (true, s) => raiseObj EV_CONCEAL_START l.ring 1 leg k (legAudPut leg { x with conceals := 0 } s)
    | (false, s) => legAudPut leg { x with conceals := k } s

/-- A leg's block whose decode item was missed (R28, R161, R177): its contribution is one concealed block, which is counted; after three
concealed frames it is zeros.  A block without a slot contributes nothing anyway. -/
def legMissed (leg b : Nat) (s : State) : State :=
  match tfind s.ctl.legs leg with
  | none => s
  | some l =>
    let x := legAud leg s
    if isTdm leg s || !decoding leg s || (tfind x.slots b).isNone || x.conc.contains b then s
    else
      let n := codecSamples l.acodec
      let xs := if x.concealRun < 3 then (concealFrame l.acodec x.dec x.concealRun 1 x.hist).1 else List.replicate n 0
      let s := legAudPut leg { x with
        slots := tset x.slots b xs
        concealRun := x.concealRun + 1
        concealBlocks := x.concealBlocks + 1 } s
      cinc (legCnt leg 0x30) (if x.concealRun = 0 then concealStart leg l s else s)

end Sys2Proof.Machine
end

