-- ==== Sys2Proof/Machine/BitRead.lean ====
section
/-! DEFINITION. Bit strings read from the front: fixed-length and variable-length codes of the video formats. -/
namespace Sys2Proof.Machine

/-- A bit string, the first bit first. -/
abbrev BitS := List Bool

/-- The bits of a byte, most significant first. -/
def byteBits (b : Nat) : BitS := (List.range 8).map fun i => bit b (7 - i)

/-- The bits of a byte string. -/
def toBits (l : List Nat) : BitS := (l.map byteBits).flatten

/-- The number a bit string spells. -/
def bitsNat (l : BitS) : Nat := l.foldl (fun a b => 2 * a + b2n b) 0

/-- `w` bits of a number, most significant first. -/
def natBits (w n : Nat) : BitS := (List.range w).map fun i => bit n (w - 1 - i)

/-- A bit string as bytes, the last padded with zeros. -/
def ofBits (fuel : Nat) (l : BitS) : List Nat :=
  match fuel with
  | 0 => []
  | f + 1 => if l.isEmpty then [] else bitsNat (padTo false 8 (l.take 8)) :: ofBits f (l.drop 8)

/-- A reader: a value and the rest, none where the bits run out. -/
abbrev Rd (α : Type) := Option (α × BitS)

/-- `f(n)`: n bits. -/
def rd (n : Nat) (l : BitS) : Rd Nat := if l.length < n then none else some (bitsNat (l.take n), l.drop n)

/-- `ue(v)`: an unsigned Exp-Golomb code. -/
def rdUe (l : BitS) : Rd Nat :=
  let z := (l.takeWhile fun b => !b).length
  if l.length < 2 * z + 1 then none
  else some (bitsNat ((l.drop (z + 1)).take z) + 2 ^ z - 1, l.drop (2 * z + 1))

/-- `se(v)`: a signed Exp-Golomb code. -/
def rdSe (l : BitS) : Rd Int :=
  (rdUe l).map fun r => ((if r.1 % 2 = 1 then ((r.1 + 1) / 2 : Nat) else -((r.1 / 2 : Nat) : Int)), r.2)

/-- `ns(n)`: a non-symmetric code of a value below n. -/
def rdNs (n : Nat) (l : BitS) : Rd Nat :=
  let w := Nat.log2 n + 1
  let m := 2 ^ w - n
  match rd (w - 1) l with
  | none => none
  | some (v, l) => if v < m then some (v, l) else (rd 1 l).map fun r => (2 * v - m + r.1, r.2)

/-- `n` values read one after another. -/
def rdMany {α : Type} (n : Nat) (f : BitS → Rd α) (l : BitS) : Rd (List α) :=
  match n with
  | 0 => some ([], l)
  | k + 1 => match f l with
    | none => none
    | some (a, l) => (rdMany k f l).map fun r => (a :: r.1, r.2)

/-- Emulation-prevention bytes removed from a NAL unit: 3 after two zeros. -/
def unescape (l : List Nat) : List Nat :=
  (l.foldl (fun (a : List Nat × Nat) b =>
    if a.2 = 2 && b = 3 then (a.1, 0) else (b :: a.1, if b = 0 then min 2 (a.2 + 1) else 0)) (([] : List Nat), 0)).1.reverse

/-- A scaling list of `n` entries passed over. -/
def skipScaling (n : Nat) (last next : Int) (l : BitS) : Option BitS :=
  match n with
  | 0 => some l
  | k + 1 =>
    if next = 0 then skipScaling k last next l
    else match rdSe l with
      | none => none
      | some (d, l) =>
        let nx := (last + d + 256) % 256
        skipScaling k (if nx = 0 then last else nx) nx l

/-- Scaling lists from number `i` on, each present or not. -/
def skipLists (k i : Nat) (l : BitS) : Option BitS :=
  match k with
  | 0 => some l
  | k + 1 => match rd 1 l with
    | none => none
    | some (p, l) =>
      match if p = 1 then skipScaling (if i < 6 then 16 else 64) 8 8 l else some l with
      | none => none
      | some l => skipLists k (i + 1) l

/-- Profiles of H.264 whose sequence parameter set carries the chroma format. -/
def highProfile (p : Nat) : Bool := [100, 110, 122, 244, 44, 83, 86, 118, 128, 138, 139, 134, 135].contains p

/-- The chroma part of a sequence parameter set: chroma_format_idc, bit depths of luma and chroma, and the rest. -/
def spsChroma (profile : Nat) (l : BitS) : Option ((Nat × Nat × Nat) × BitS) :=
  if !highProfile profile then some ((1, 8, 8), l)
  else do
    let (c, l) ← rdUe l
    let (_, l) ← if c = 3 then rd 1 l else some (0, l)
    let (y, l) ← rdUe l
    let (u, l) ← rdUe l
    let (_, l) ← rd 1 l
    let (m, l) ← rd 1 l
    let l ← if m = 1 then skipLists (if c = 3 then 12 else 8) 0 l else some l
    some ((c, y + 8, u + 8), l)

/-- The picture-order part passed over. -/
def spsPoc (l : BitS) : Option BitS := do
  let (t, l) ← rdUe l
  if t = 0 then (rdUe l).map (·.2)
  else if t = 1 then do
    let (_, l) ← rd 1 l
    let (_, l) ← rdSe l
    let (_, l) ← rdSe l
    let (n, l) ← rdUe l
    (rdMany n rdSe l).map (·.2)
  else some l

/-- What the model reads of an H.264 sequence parameter set (ITU-T H.264 7.3.2.1.1). -/
structure Sps where
  profile : Nat
  constraints : Nat
  level : Nat
  chroma : Nat
  depthY : Nat
  depthC : Nat
  refs : Nat
  gaps : Bool
  mbsW : Nat
  mapH : Nat
  frameOnly : Bool
  deriving DecidableEq, Repr

/-- A sequence parameter set's fields from its payload after the NAL header. -/
def readSps (p : List Nat) : Option Sps := do
  let (profile, l) ← rd 8 (toBits (unescape p))
  let (cons, l) ← rd 8 l
  let (level, l) ← rd 8 l
  let (_, l) ← rdUe l
  let (c, l) ← spsChroma profile l
  let (_, l) ← rdUe l
  let l ← spsPoc l
  let (refs, l) ← rdUe l
  let (gaps, l) ← rd 1 l
  let (w, l) ← rdUe l
  let (h, l) ← rdUe l
  let (f, _) ← rd 1 l
  some ⟨profile, cons, level, c.1, c.2.1, c.2.2, refs, decide (gaps = 1), w + 1, h + 1, decide (f = 1)⟩

end Sys2Proof.Machine
end

