-- ==== Sys2Proof/Machine/Desc.lean ====
section
/-! DEFINITION. The scalability descriptors that the forwarder reads (spec/12_layer_forwarding.md R301, R305): VP8 (RFC 7741), VP9
(RFC 9628), the AV1 dependency descriptor, frame marking (RFC 9626). -/
namespace Sys2Proof.Machine

/-- What one packet says of its frame: the frame's first packet, its last, layer, key, spatial and temporal up-switch, whether no frame
depends on it; its picture or frame number; the numbers it depends on, of its own spatial layer or, in AV1, of any; dependence on the
lower spatial layer; the codec's own flag (VP8 Y, VP9 F, H.264 B); decode targets it switches to; a template structure it carries. -/
structure PkDesc where
  first : Bool
  last : Bool
  sid : Nat
  tid : Nat
  key : Bool
  upS : Bool
  upT : Bool
  disc : Bool
  num : Nat
  refs : List Nat
  lower : Bool
  flag : Bool
  sw : List Nat
  av1 : Option Av1Struct
  deriving DecidableEq, Repr

def PkDesc.none : PkDesc := ⟨false, false, 0, 0, false, false, false, false, 0, [], false, false, [], Option.none⟩

/-! ## VP8 (RFC 7741) -/

/-- A VP8 payload descriptor: length in bytes, S with PID 0, PictureID, TL0PICIDX, TID and Y where present, KEYIDX. -/
structure Vp8Desc where
  len : Nat
  start : Bool
  pic : Option Nat
  tl0 : Option Nat
  tid : Option (Nat × Bool)
  keyIdx : Option Nat
  deriving DecidableEq, Repr

def vp8Desc (p : List Nat) : Vp8Desc :=
  let b0 := p.getD 0 0
  let s := bit b0 4 && decide (b0 % 8 = 0)
  if !bit b0 7 then ⟨1, s, none, none, none, none⟩
  else
    let x := p.getD 1 0
    let o := 2
    let wide := bit (p.getD o 0) 7
    let pic := if !bit x 7 then none else some (if wide then p.getD o 0 % 128 * 256 + p.getD (o + 1) 0 else p.getD o 0)
    let o := if !bit x 7 then o else if wide then o + 2 else o + 1
    let tl0 := if bit x 6 then some (p.getD o 0) else none
    let o := if bit x 6 then o + 1 else o
    let tk := p.getD o 0
    let has := bit x 5 || bit x 4
    ⟨if has then o + 1 else o, s, pic, tl0, if bit x 5 then some (tk / 64, bit tk 5) else none, if bit x 4 then some (tk % 32) else none⟩

/-- A VP8 packet: without T and K the stream is temporal layer 0 throughout (R301). -/
def vp8Packet (p : List Nat) (marker : Bool) : PkDesc :=
  let d := vp8Desc p
  let key := d.start && !bit (p.getD d.len 0) 0
  let tk := d.tid.isSome && d.keyIdx.isSome
  let tid := if tk then (d.tid.map (·.1)).getD 0 else 0
  let y := tk && ((d.tid.map (·.2)).getD false)
  { PkDesc.none with
    first := d.start
    last := marker
    tid := tid
    key := key
    upT := y || key
    num := d.pic.getD 0
    flag := y }

/-! ## VP9 (RFC 9628) -/

/-- A VP9 payload descriptor: offsets of the PictureID and of TL0PICIDX, the PictureID and whether it has 15 bits, P, L's fields, F, B,
E, P_DIFF, length up to the scalability structure. -/
structure Vp9Desc where
  pic : Option Nat
  wide : Bool
  p : Bool
  f : Bool
  b : Bool
  e : Bool
  v : Bool
  tid : Nat
  u : Bool
  sid : Nat
  d : Bool
  tl0 : Option Nat
  diffs : List Nat
  deriving DecidableEq, Repr

/-- Up to three P_DIFF bytes, each with a flag that another follows. -/
def vp9Diffs (n : Nat) (l : List Nat) : List Nat :=
  match n, l with
  | 0, _ => []
  | _, [] => []
  | k + 1, b :: r => b / 2 :: (if b % 2 = 1 then vp9Diffs k r else [])

def vp9Desc (l : List Nat) : Vp9Desc :=
  let b0 := l.getD 0 0
  let wide := bit b0 7 && bit (l.getD 1 0) 7
  let pic := if !bit b0 7 then none else some (if wide then l.getD 1 0 % 128 * 256 + l.getD 2 0 else l.getD 1 0)
  let o := if !bit b0 7 then 1 else if wide then 3 else 2
  let lay := l.getD o 0
  let hasL := bit b0 5
  let flex := bit b0 4
  let tl0 := if hasL && !flex then some (l.getD (o + 1) 0) else none
  let o := if hasL then (if flex then o + 1 else o + 2) else o
  ⟨pic, wide, bit b0 6, flex, bit b0 3, bit b0 2, bit b0 1, if hasL then lay / 32 else 0, hasL && bit lay 4,
    if hasL then lay / 2 % 8 else 0, hasL && bit lay 0, tl0, if flex && bit b0 6 then vp9Diffs 3 (l.drop o) else []⟩

def vp9Packet (l : List Nat) : PkDesc :=
  let d := vp9Desc l
  let m := if d.wide then 32768 else 128
  let n := d.pic.getD 0
  { PkDesc.none with
    first := d.b
    last := d.e
    sid := d.sid
    tid := d.tid
    key := !d.p && decide (d.sid = 0)
    upS := !d.p
    upT := d.u || (!d.p && decide (d.sid = 0))
    num := n
    refs := d.diffs.map fun x => (n + m - x) % m
    lower := d.d
    flag := d.f }

/-! ## The AV1 dependency descriptor -/

/-- Template layers: each with its spatial and temporal layer, until the end code. -/
def av1Layers (fuel s t : Nat) (l : BitS) : Rd (List (Nat × Nat)) :=
  match fuel with
  | 0 => none
  | f + 1 => match rd 2 l with
    | none => none
    | some (c, l) =>
      if c = 3 then some ([(s, t)], l)
      else
        let n := if c = 0 then (s, t) else if c = 1 then (s, t + 1) else (s + 1, 0)
        (av1Layers f n.1 n.2 l).map fun r => ((s, t) :: r.1, r.2)

/-- Frame differences of a template: 4-bit values, each announced by a flag. -/
def av1Fdiffs (fuel : Nat) (l : BitS) : Rd (List Nat) :=
  match fuel with
  | 0 => none
  | f + 1 => match rd 1 l with
    | none => none
    | some (0, l) => some ([], l)
    | some (_, l) => match rd 4 l with
      | none => none
      | some (d, l) => (av1Fdiffs f l).map fun r => ((d + 1) :: r.1, r.2)

/-- Custom frame differences: a size in nibbles before each. -/
def av1Custom (fuel : Nat) (l : BitS) : Rd (List Nat) :=
  match fuel with
  | 0 => none
  | f + 1 => match rd 2 l with
    | none => none
    | some (0, l) => some ([], l)
    | some (n, l) => match rd (4 * n) l with
      | none => none
      | some (d, l) => (av1Custom f l).map fun r => ((d + 1) :: r.1, r.2)

/-- The chains passed over: their count. -/
def av1Chains (dts tpls : Nat) (l : BitS) : Rd Nat :=
  match rdNs (dts + 1) l with
  | none => none
  | some (0, l) => some (0, l)
  | some (n, l) => match rdMany dts (rdNs n) l with
    | none => none
    | some (_, l) => (rdMany (tpls * n) (rd 4) l).map fun r => (n, r.2)

/-- A template dependency structure. -/
def av1Structure (l0 : BitS) : Rd Av1Struct :=
  match rd 6 l0 with
  | none => none
  | some (off, l) => match rd 5 l with
    | none => none
    | some (d, l) => match av1Layers 64 0 0 l with
      | none => none
      | some (lay, l) =>
        let dts := d + 1
        match rdMany lay.length (rdMany dts (rd 2)) l with
        | none => none
        | some (dti, l) => match rdMany lay.length (av1Fdiffs 64) l with
          | none => none
          | some (fd, l) => match av1Chains dts lay.length l with
            | none => none
            | some (ch, l) => match rd 1 l with
              | none => none
              | some (res, l) =>
                let maxS := lay.foldl (fun m p => max m p.1) 0
                match if res = 1 then rdMany (2 * (maxS + 1)) (rd 16) l else some ([], l) with
                | none => none
                | some (res, l) =>
                  let sizes := (List.range (res.length / 2)).map fun i => (res.getD (2 * i) 0 + 1, res.getD (2 * i + 1) 0 + 1)
                  let tpls := (lay.zip (dti.zip fd)).map fun p => (⟨p.1.1, p.1.2, p.2.1, p.2.2⟩ : Av1Tpl)
                  some (⟨off, dts, tpls, ch, l0.take (l0.length - l.length), sizes⟩, l)

/-- A dependency descriptor: start and end of frame, template, frame number, structure where carried, active targets where carried, the
custom parts as flags and bits. -/
structure Dd where
  first : Bool
  last : Bool
  tpl : Nat
  num : Nat
  ext : Bool
  struct : Option Av1Struct
  active : Option Nat
  customDti : Bool
  customFd : Bool
  customCh : Bool
  tail : BitS
  deriving DecidableEq, Repr

/-- A descriptor read with the structure in force before it. -/
def ddRead (p : List Nat) (cur : Option Av1Struct) : Option Dd :=
  let l := toBits p
  let m := bitsNat (l.take 24)
  let d : Dd := ⟨bit m 23, bit m 22, bits m 16 6, m % 65536, false, none, none, false, false, false, []⟩
  if p.length < 3 then none
  else if p.length = 3 then some d
  else
    let x := l.drop 24
    let fl := bitsNat (x.take 5)
    let x := x.drop 5
    let st := if bit fl 4 then (av1Structure x).map fun r => (some r.1, r.2) else some (none, x)
    match st with
    | none => none
    | some (s, x) =>
      let dts := match s, cur with
        | some s, _ => s.dts
        | none, some c => c.dts
        | none, none => 0
      match if bit fl 3 then (rd dts x).map fun r => (some r.1, r.2) else some (none, x) with
      | none => none
      | some (a, x) => some { d with ext := true, struct := s, active := a, customDti := bit fl 2, customFd := bit fl 1,
                                     customCh := bit fl 0, tail := x }

/-- The frame dependency definition of a descriptor under a structure: layer, indications, differences. -/
def ddDefinition (d : Dd) (s : Av1Struct) : Option Av1Tpl :=
  match s.tpls[(d.tpl + 64 - s.offset) % 64]? with
  | none => none
  | some t =>
    match if d.customDti then (rdMany s.dts (rd 2) d.tail) else some (t.dtis, d.tail) with
    | none => none
    | some (dtis, x) =>
      match if d.customFd then (av1Custom 64 x).map (·.1) else some t.fdiffs with
      | none => none
      | some fd => some ⟨t.sid, t.tid, dtis, fd⟩

/-- The spatial and temporal layer of a decode target: the greatest of the templates it uses. -/
def dtLayer (s : Av1Struct) (d : Nat) : Nat × Nat :=
  s.tpls.foldl (fun m t => if t.dtis.getD d 0 = 0 then m else (max m.1 t.sid, max m.2 t.tid)) (0, 0)

/-- The decode targets of a choice, as a mask. -/
def dtMask (s : Av1Struct) (cs ct : Nat) : Nat :=
  (List.range s.dts).foldl (fun m d => let l := dtLayer s d; if l.1 ≤ cs && l.2 ≤ ct then m + 2 ^ d else m) 0

/-- An AV1 packet from its dependency descriptor; none while no structure has been received (R301). -/
def av1Packet (dd : List Nat) (cur : Option Av1Struct) : Option PkDesc :=
  match ddRead dd cur with
  | none => none
  | some d =>
    match if d.struct.isSome then d.struct else cur with
    | none => none
    | some s =>
      match ddDefinition d s with
      | none => none
      | some t =>
        some { PkDesc.none with
          first := d.first
          last := d.last
          sid := t.sid
          tid := t.tid
          key := d.struct.isSome
          upS := t.dtis.contains 2
          upT := t.dtis.contains 2
          num := d.num
          refs := t.fdiffs.map fun x => (d.num + 65536 - x % 65536) % 65536
          sw := (List.range s.dts).filter fun i => decide (t.dtis.getD i 0 = 2)
          av1 := d.struct }

/-! ## Frame marking (RFC 9626) for H.264 -/

/-- An H.264 packet from its frame-marking element: S E I D B TID, TL0PICIDX in the long form. -/
def h264Packet (fm : List Nat) : PkDesc :=
  let b := fm.getD 0 0
  let long := decide (3 ≤ fm.length)
  let tid := if long then b % 8 else 0
  { PkDesc.none with
    first := bit b 7
    last := bit b 6
    tid := tid
    key := bit b 5 && decide (tid = 0)
    upT := (long && bit b 3) || bit b 5
    disc := bit b 4
    flag := long && bit b 3 }

/-- The NAL units of an H.264 RTP payload that a single-NAL packet or a STAP-A holds (RFC 6184). -/
def stapNals (fuel : Nat) (l : List Nat) : List (List Nat) :=
  match fuel with
  | 0 => []
  | f + 1 => if l.length < 3 then [] else
    let n := l.getD 0 0 * 256 + l.getD 1 0
    (l.drop 2).take n :: stapNals f (l.drop (2 + n))

def h264Nals (p : List Nat) : List (List Nat) :=
  if p.headD 0 % 32 = 24 then stapNals p.length (p.drop 1) else if p.headD 0 % 32 < 24 then [p] else []

/-- The sequence parameter set that a payload carries. -/
def h264Sps (p : List Nat) : Option Sps := ((h264Nals p).find? fun n => decide (n.headD 0 % 32 = 7)).bind fun n => readSps (n.drop 1)

/-! ## One packet of any codec -/

/-- A packet's description under its stream's extension identifiers, its codec and the structure in force. -/
def packetDesc (codec : Nat) (st : Stream) (av1 : Option Av1Struct) (p : List Byte) : Option PkDesc :=
  let body := toNats (rtpPayload p)
  let marker := bit (b8 p 1) 7
  match codec with
  | 1 => (extOf st 6 p).map fun e => h264Packet (toNats e)
  | 2 => some (vp8Packet body marker)
  | 3 => some (vp9Packet body)
  | 4 => (extOf st 5 p).bind fun e => av1Packet (toNats e) av1
  | _ => none

end Sys2Proof.Machine
end

