-- ==== Sys2Proof/Machine/FwdTrack.lean ====
section
/-! DEFINITION. Dependency tracking, measured rates and requests upstream (spec/12_layer_forwarding.md R305, R306, R310, R316; spec/10
R273). -/
namespace Sys2Proof.Machine

/-! ## Tables -/

def Track.init : Track := ⟨[], 0, none, false, [], none, none, []⟩
def track (id : Nat) (s : State) : Track := tget Track.init s.fwd.tracks id
def trackPut (id : Nat) (t : Track) (s : State) : State := { s with fwd := { s.fwd with tracks := tset s.fwd.tracks id t } }

def Rewrite.init (leg : Nat) : Rewrite := ⟨0, none, Config.vp8Pic0 leg, Config.vp8Tl0 leg, 0, 0, 0, 0, 0, 0, none, false⟩
def FwdLeg.init (leg : Nat) : FwdLeg :=
  ⟨none, 0, none, none, 0, 0, 0, false, 0, 0, [], [], [], none, none, none, none, none, none, none, [], Rewrite.init leg, 0, [], none, 0,
    .none, 0, none, 0, false⟩
def fwdLeg (n : Nat) (s : State) : FwdLeg := tget (FwdLeg.init n) s.fwd.legs n
def fwdLegPut (n : Nat) (x : FwdLeg) (s : State) : State := { s with fwd := { s.fwd with legs := tset s.fwd.legs n x } }

/-- The ingress video contexts of a source leg, ascending, at most three (R301); the bridge streams of another member's seat. -/
def srcCtxs (leg : Nat) (s : State) : List Nat :=
  if isFar leg then ((Config.seatStreams (farMember leg) (farSeat leg)).map farCtx).take 3
  else (tkeysWhere s.ctl.streams fun _ st => decide (st.leg = leg) && decide (st.dir = 0) && decide (st.media = 1)).take 3

/-- Whether a source leg sends simulcast: more than one ingress video context. -/
def simulcast (leg : Nat) (s : State) : Bool := decide (1 < (srcCtxs leg s).length)

/-! ## Requests upstream (R273, R316) -/

/-- A PLI requested for a stream at block `b`, sent in block b + 1 where none was sent at a request in the last 400 blocks; counted at
the stream counters `sent` and `held`. -/
def pliRequest (id b sent held : Nat) (s : State) : State :=
  match tfind s.ctl.streams id with
  | none => s
  | some st =>
    let t := track id s
    let ok := match t.pliAt with
      | some a => decide (400 ≤ stampSub b a)
      | none => true
    if !ok then cinc (strCnt id held) s
    else
      let s := cinc (strCnt id sent) (trackPut id { t with pliAt := some b } s)
      rtcpFeedback st.leg (fbPacket 1 206 (legSsrc st.leg s).1 st.ssrc []) (stampAdd b 1) s

/-- A PLI of the forwarder; one for a bridge stream goes to its owner (R455). -/
def fwdPli (id b : Nat) (s : State) : State :=
  if isFarCtx id then casRequest (id - 0x20000) 2 s else pliRequest id b 0xB0 0xB8 s

/-- A FIR for a stream's source leg at block `b`: at most one per source leg in 2,000 blocks; its sequence number rises. -/
def fwdFir (id b : Nat) (s : State) : State :=
  if isFarCtx id then casRequest (id - 0x20000) 3 s else
  match tfind s.ctl.streams id with
  | none => s
  | some st =>
    let x := fwdLeg st.leg s
    let ok := match x.firAt with
      | some a => decide (2000 ≤ stampSub b a)
      | none => true
    if !ok then cinc (strCnt id 0xC8) s
    else
      let s := cinc (strCnt id 0xC0) (fwdLegPut st.leg { x with firAt := some b, firSeq := (x.firSeq + 1) % 256 } s)
      rtcpFeedback st.leg (fbPacket 4 206 (legSsrc st.leg s).1 0 (beNats 4 st.ssrc ++ [x.firSeq, 0, 0, 0])) (stampAdd b 1) s

/-- Missing numbers below the write pointer: not released, not in the ring, a later one having arrived before block `b`. -/
def missingSeqs (b : Nat) (st : Stream) : List Nat :=
  let seen := (jrWaiting st).filter fun e => stampAfter b e.arrival
  match st.lastRel, seen.getLast? with
  | some r, some e => ((List.range (e.seq - r)).map fun i => r + 1 + i).filter fun q => decide (q < e.seq) && !jrHas st q
  | _, _ => []

/-- The generic NACK for the missing numbers of a video context with an RTX context that may be requested at block `b`: each at most
twice, 20 blocks apart, before the release of its frame. -/
def upstreamNack (id b : Nat) (s : State) : State :=
  match tfind s.ctl.streams id with
  | none => s
  | some st =>
    let t := track id s
    let rtx := s.ctl.streams.any fun p => decide (p.2.dir = 0) && decide (p.2.media = 2) && decide (p.2.rtxOf = id)
    let first := frameFirst st
    let soon := !first.isEmpty && stampAfter (frameDue st first) b
    let ask := (missingSeqs b st).filter fun q =>
      let m := tget (0, 0) t.miss q
      decide (m.1 = 0) || (decide (m.1 < 2) && decide (20 ≤ stampSub b m.2))
    if st.media ≠ 1 || !rtx || !soon || ask.isEmpty then s
    else
      let miss := ask.foldl (fun (m : Tbl (Nat × Nat)) q => tset m q ((tget (0, 0) m q).1 + 1, b))
        (t.miss.filter fun p => decide ((st.lastRel.getD 0) < p.1))
      let s := cinc (strCnt id 0xD0) (trackPut id { t with miss := miss } s)
      rtcpFeedback st.leg (fbPacket 1 205 (legSsrc st.leg s).1 st.ssrc ((ask.map fun q => beNats 2 (q % 65536) ++ [0, 0]).flatten)) b s

/-! ## Frames (R305, R306) -/

/-- The newest frame of a track that meets a condition. -/
def newest (fs : List FrRec) (p : FrRec → Bool) : Option FrRec := fs.find? p

/-- The preceding frame of a temporal layer that other frames may depend on; a frame of unknown layer stands for any. -/
def preceding (fs : List FrRec) (sid tid : Nat) : Option FrRec :=
  newest fs fun f => f.any || (decide (f.sid = sid) && decide (f.tid = tid) && !f.disc)

/-- What a frame depends on: the frames found, and whether one it names is not held. -/
def frameDeps (codec : Nat) (d : PkDesc) (ts : Nat) (fs : List FrRec) : List FrRec × Bool :=
  let need := fun (o : Option FrRec) => match o with
    | some f => ([f], false)
    | none => ([], true)
  let opt := fun (o : Option FrRec) => match o with
    | some f => ([f], false)
    | none => ([], false)
  let join := fun (l : List (List FrRec × Bool)) => ((l.map (·.1)).flatten, l.any (·.2))
  match codec with
  | 4 => if d.key then ([], false) else join (d.refs.map fun n => need (newest fs fun f => decide (f.num = n)))
  | 3 =>
    let low := if d.lower then [need (newest fs fun f => decide (f.ts = ts) && decide (f.sid + 1 = d.sid))] else []
    let own := if d.upS then []
      else if d.flag then d.refs.map fun n => need (newest fs fun f => decide (f.num = n) && decide (f.sid = d.sid))
      else [need (newest fs fun f => f.any || (decide (f.sid = d.sid) && (if d.upT then decide (f.tid = 0) else decide (f.tid ≤ d.tid))))]
    join (low ++ own)
  | 2 =>
    if d.key then ([], false)
    else join (need (preceding fs 0 0) :: (if d.flag || d.tid = 0 then [] else [opt (preceding fs 0 d.tid)]))
  | _ =>
    if d.key then ([], false)
    else join (need (preceding fs 0 0) ::
      (if d.flag then [] else (List.range d.tid).map fun i => opt (preceding fs 0 (i + 1))))

/-- A frame taken into a track: lost where its unit is incomplete, broken where it depends on a lost or broken frame or one not held. -/
def trackAdd (codec ts : Nat) (incomplete : Bool) (d : PkDesc) (t : Track) : FrRec × Track :=
  let deps := frameDeps codec d ts t.frames
  let f : FrRec := ⟨t.next, ts, d.num, d.sid, d.tid, d.key, d.upS, d.upT, d.disc, incomplete,
    deps.2 || deps.1.any fun x => x.lost || x.broken, false, d.sw, deps.1.map (·.idx)⟩
  (f, { t with frames := (f :: t.frames).take 256, next := t.next + 1 })

/-- A frame never seen, of unknown layer (R306). -/
def trackGap (ts : Nat) (t : Track) : Track :=
  let f : FrRec := ⟨t.next, ts, 2 ^ 32, 0, 0, false, false, false, false, true, false, true, [], []⟩
  { t with frames := (f :: t.frames).take 256, next := t.next + 1 }

/-- The packets of a unit with their descriptions, a structure they carry taken as it comes. -/
def unitDescs (codec : Nat) (st : Stream) (es : List JrEntry) (av1 : Option Av1Struct) : List (JrEntry × PkDesc) × Option Av1Struct :=
  es.foldl (fun a e =>
    match packetDesc codec st a.2 e.packet with
    | none => (if codec = 4 then a.1 else a.1 ++ [(e, PkDesc.none)], a.2)
    | some d => (a.1 ++ [(e, d)], if d.av1.isSome then d.av1 else a.2)) ([], av1)

/-- A unit's packets split into its layer frames; H.264 and VP8 units hold one. -/
def splitFrames (codec : Nat) (l : List (JrEntry × PkDesc)) : List (PkDesc × List JrEntry) :=
  (l.foldl (fun (a : List (PkDesc × List JrEntry)) p =>
    match a with
    | [] => [(p.2, [p.1])]
    | (d, es) :: r =>
      if 3 ≤ codec && (p.2.first || p.2.sid ≠ d.sid) then (p.2, [p.1]) :: (d, es) :: r else (d, es ++ [p.1]) :: r) []).reverse

/-- Whether a frame that was never seen precedes a unit: a gap in VP8's PictureID, or in the sequence numbers before a unit whose first
packet begins a frame. -/
def unitGap (codec : Nat) (e : JrEntry) (d : PkDesc) (t : Track) : Bool :=
  let seqGap := match t.lastSeq with
    | some q => decide (e.seq ≠ q + 1)
    | none => false
  match codec with
  | 2 => (match newest t.frames fun f => !f.any with
    | some f => decide (d.num ≠ (f.num + 1) % 32768) && decide (d.num ≠ (f.num + 1) % 128)
    | none => false)
  | 4 => false
  | _ => seqGap && d.first

/-- A released unit taken into its track: its frames with their packets. -/
def trackUnit (codec : Nat) (st : Stream) (b : Nat) (es : List JrEntry) (t : Track) : List (FrRec × List JrEntry) × Track :=
  match es with
  | [] => ([], t)
  | e0 :: _ =>
    let ds := unitDescs codec st es t.av1
    let t := { t with
      av1 := ds.2
      gaps := if codec = 1 then es.foldl (fun g e => match h264Sps (toNats (rtpPayload e.packet)) with
        | some x => x.gaps
        | none => g) t.gaps else t.gaps }
    let gap := match ds.1 with
      | [] => false
      | p :: _ => unitGap codec p.1 p.2 t
    let t := if gap then trackGap e0.ts t else t
    let r := (splitFrames codec ds.1).foldl (fun (a : List (FrRec × List JrEntry) × Track) p =>
      let q := trackAdd codec e0.ts (es.any (·.incomplete)) p.1 a.2
      let bytes := (p.2.map fun e => e.packet.length).foldl (· + ·) 0
      (a.1 ++ [(q.1, p.2)], { q.2 with rates := ⟨b, p.1.sid, p.1.tid, bytes⟩ :: q.2.rates })) (([] : List (FrRec × List JrEntry)), t)
    (r.1, { r.2 with
      lastSeq := es.getLast?.map (·.seq)
      rates := r.2.rates.filter fun x => decide (stampSub b x.block < 400) })

/-- The units of a list of released entries: runs of one timestamp. -/
def unitsOf (fuel : Nat) (es : List JrEntry) : List (List JrEntry) :=
  match fuel, es with
  | 0, _ => []
  | _, [] => []
  | f + 1, e :: r =>
    (e :: r.takeWhile fun x => decide (x.ts = e.ts)) :: unitsOf f (r.dropWhile fun x => decide (x.ts = e.ts))

/-- A released unit: its context, its frames with their packets. -/
abbrev Unit_ := Nat × List (FrRec × List JrEntry)

/-- The video released at `b` tracked, bridge streams after local ones: the units by context, and a PLI for each source in use that has a broken frame (R316). -/
def trackBlock (b : Nat) (s : State) : List Unit_ × State :=
  ((tkeysWhere s.ctl.streams fun _ st => decide (st.dir = 0) && decide (st.media = 1)) ++ (tkeys s.cas.streams).map farCtx).foldl (fun a id =>
    match fwdStream id a.2 with
    | none => a
    | some st =>
      let es := releasedAt b st
      if es.isEmpty then a
      else
        let codec := if isFarCtx id then 1 + Config.bridgeCodec (id - 0x20000) % 4 else match tfind a.2.ctl.legs st.leg with
          | some l => l.vcodec
          | none => 0
        let r := (unitsOf (es.length + 1) es).foldl (fun (x : List Unit_ × Track) u =>
          let q := trackUnit codec st b u x.2
          (x.1 ++ [(id, q.1)], q.2)) (([] : List Unit_), track id a.2)
        let s := trackPut id r.2 a.2
        let broken := r.1.any fun u => u.2.any fun f => f.1.broken
        let used := s.fwd.legs.any fun p =>
          if isFarCtx id then (match p.2.src with
            | some q => (srcCtxs q s).contains id
            | none => false)
          else decide (p.2.src = some st.leg)
        (a.1 ++ r.1, if broken && used then fwdPli id b s else s)) ([], s)

/-! ## Measured rates (R310) -/

/-- Lr(s, t) of a source leg in kb/s, from the releases of the last 400 blocks. -/
def layerRate (leg sp tp b : Nat) (s : State) : Nat :=
  let cs := srcCtxs leg s
  let recs := if 1 < cs.length then
      (match cs[sp]? with
       | some c => (track c s).rates.filter fun r => decide (r.tid ≤ tp)
       | none => [])
    else (cs.map fun c => (track c s).rates.filter fun r => decide (r.sid ≤ sp) && decide (r.tid ≤ tp)).flatten
  ((recs.filter fun r => decide (stampSub b r.block < 400)).map (·.bytes)).foldl (· + ·) 0 * 8 / 200

/-- Whether a layer has released a frame in the last 400 blocks. -/
def layerAlive (leg sp tp b : Nat) (s : State) : Bool :=
  let cs := srcCtxs leg s
  if 1 < cs.length then
    match cs[sp]? with
    | some c => (track c s).rates.any fun r => decide (r.tid = tp) && decide (stampSub b r.block < 400)
    | none => false
  else cs.any fun c => (track c s).rates.any fun r => decide (r.sid = sp) && decide (r.tid = tp) && decide (stampSub b r.block < 400)

end Sys2Proof.Machine
end

