-- ==== Sys2Proof/Machine/Fwd.lean ====
section
/-! DEFINITION. The Line Adapter, layer choice, switching and rewriting (spec/12_layer_forwarding.md R302 to R317). -/
namespace Sys2Proof.Machine

/-! ## The Line Adapter (R308, R309) -/

/-- The least of the caps in force. -/
def fwdCap (n b : Nat) (s : State) : Nat :=
  let x := fwdLeg n s
  let rate := match tfind s.ctl.legs n with
    | some l => l.srtpRate
    | none => 0
  let c := match x.tmmbr with
    | some v => min rate v
    | none => rate
  let c := match x.remb with
    | some (v, fin) => if stampAfter fin b then min c v else c
    | none => c
  if x.cap = 0 then c else min c x.cap

/-- LEG_START's estimate. -/
def fwdLegStart (n b : Nat) (s : State) : State :=
  let ring := match tfind s.ctl.legs n with
    | some l => l.ring
    | none => 0
  let x := fwdLeg n s
  fwdLegPut n { x with a := min (fwdCap n b s) (fget (R.FWD_LA_CFG_start_kbps ring) s), hold := b } s

/-- The frame that carried a transport-wide number: its transmit block and bytes. -/
def sentTw (n tw : Nat) (s : State) : Option SentRec :=
  match tfind s.egr.legs n with
  | none => none
  | some e => e.log.reverse.find? fun r => decide (r.tw = some tw)

/-- The gradient d_f of a transport-wide report, and the packets it reports as (send block, bytes). -/
def twccGradient (n : Nat) (got : List (Nat × Int)) (s : State) : Int × List (Nat × Nat) :=
  let l := got.filterMap fun p => (sentTw n p.1 s).map fun r => (r, p.2)
  let d := match l, l.getLast? with
    | f :: _, some g => 250 * (g.2 - f.2) - 500 * ((g.1.block : Int) - f.1.block)
    | _, _ => 0
  (d, l.map fun p => (p.1.block, p.1.bytes))

/-- Rr from the packets reported received whose send times lie in the last 200 blocks. -/
def rateRecv (b : Nat) (l : List (Nat × Nat)) : Nat :=
  8 * ((l.filter fun p => decide (stampSub b p.1 < 200)).map (·.2)).foldl (· + ·) 0 / 100

/-- One transport-wide report in the run for block `b`. -/
def laTwcc (n b thr : Nat) (got : List (Nat × Int)) (s : State) : State :=
  let x := fwdLeg n s
  let d := twccGradient n got s
  let recvd := (x.recvd ++ d.2).filter fun p => decide (stampSub b p.1 < 200)
  let rr := rateRecv b recvd
  let g := x.g - asr x.g 3 + d.1
  let overrun := if 8 * (thr : Int) ≤ g then x.overrun + 1 else 0
  let x := { x with recvd := recvd, rr := rr, g := g, under := decide (g ≤ -(8 * (thr : Int))) }
  fwdLegPut n (if 2 ≤ overrun then { x with a := max 64 (rr * 217 / 256), hold := stampAdd b 200, overrun := 0 }
    else { x with overrun := overrun }) s

/-- One loss report in the run for block `b`. -/
def laLoss (n b l : Nat) (s : State) : State :=
  let x := fwdLeg n s
  if 25 < l then fwdLegPut n { x with a := max 64 (x.a - x.a * l / 512), hold := stampAdd b 200 } s
  else if 5 ≤ l then
    fwdLegPut n { x with hold := if stampAfter (stampAdd b 20) x.hold then stampAdd b 20 else x.hold } s
  else s

/-- The loss that NACKs show where the leg has sent no receiver report for 200 blocks: of the packets sent in the last 200 blocks. -/
def nackLoss (n b : Nat) (s : State) : Option Nat :=
  let x := fwdLeg n s
  let quiet := match x.rrAt with
    | some a => decide (200 ≤ stampSub b a)
    | none => true
  let nacked := ((x.nacked.filter fun p => decide (stampSub b p.1 < 200)).map (·.2)).foldl (· + ·) 0
  let sent := match tfind s.egr.legs n with
    | some e => (e.log.filter fun r => decide (r.cls = 2) && decide (stampSub b r.block < 200)).length
    | none => 0
  if quiet && 0 < sent then some (min 255 (256 * nacked / sent)) else none

/-- What the caps' messages and the round trip of receiver reports do, and the loss reports in order. -/
def laOther (n b : Nat) (p : Nat × Feedback) (s : State) : State :=
  let x := fwdLeg n s
  match p.2 with
  | .loss l rtt => laLoss n b l (fwdLegPut n { x with rrAt := some p.1, rtt := if rtt.isSome then rtt else x.rtt } s)
  | .nack id qs =>
    let s := fwdLegPut n { x with
      nacked := (x.nacked ++ [(p.1, qs.length)]).filter fun q => decide (stampSub b q.1 < 200)
      nacks := x.nacks ++ qs.map fun q => (p.1, id, q) } s
    (match nackLoss n b s with
     | some l => laLoss n b l s
     | none => s)
  | .tmmbr v =>
    let s := fwdLegPut n { x with tmmbr := some v } s
    let w := legSsrc n s
    rtcpFeedback n (fbPacket 4 205 w.1 0 (beNats 4 w.1 ++ beNats 4 (v * 512))) (stampAdd b 1) s
  | .remb v => fwdLegPut n { x with remb := some (v, stampAdd p.1 2000) } s
  | .twcc _ => s

/-- The Line Adapter's run of a leg for block `b`: feedback with arrival stamps up to b − 2. -/
def laRun (n b : Nat) (l : Leg) (s : State) : State :=
  let x := fwdLeg n s
  let due := x.fb.filter fun p => stampGe b (stampAdd p.1 2)
  let s := fwdLegPut n { x with fb := x.fb.filter fun p => !stampGe b (stampAdd p.1 2) } s
  let thr := fget (R.FWD_LA_THR_delay_thr l.ring) s
  let s := due.foldl (fun s p => match p.2 with
    | .twcc got => laTwcc n b thr got s
    | _ => s) s
  let s := due.foldl (fun s p => laOther n b p s) s
  let x := fwdLeg n s
  let a := if stampGe b x.hold && !x.under && actStamp l.act b s % 20 = 0 then x.a + max (x.a / 1024) 8 else x.a
  let a := min a (fwdCap n b s)
  fwdLegPut n { x with a := a, credit := min 16384 (x.credit + a / 128), rr := rateRecv b x.recvd } s

/-- V of R310. -/
def fwdBudget (n b : Nat) (s : State) : Nat :=
  let a := (fwdLeg n s).a
  let aud := match tfind s.egr.legs n with
    | some e => ((e.log.filter fun r => decide (r.cls = 1) && decide (stampSub b r.block < 400)).map (·.bytes)).foldl (· + ·) 0 * 8 / 200
    | none => 0
  a - aud - a / 8

/-! ## Choice (R303, R311) -/

/-- The source that stands for a seat: the lowest member in force whose level entries name it, this part's own leg first (R455). -/
def seatSource (act b seat : Nat) (s : State) : Option Nat :=
  ((selIds act b s).filter fun n => decide ((if isFar n then farSeat n else seatOf n s) = seat)).head?

/-- The source leg a subscription names in block `b`: itself, a seat's, or the member of S with the lowest (level, leg) but the receiving
leg; the previous source where there is none. -/
def fwdWanted (n b : Nat) (sub : Sub) (l : Leg) (s : State) : Option Nat :=
  match tfind s.cas.remote n with
  | some seat =>
    (match seatSource l.act b seat s with
     | some m => some m
     | none => (fwdLeg n s).src)
  | none =>
    if sub.source ≠ 0x3FFF then some sub.source
    else
      let ms := ((actAud l.act s).spk.map (·.leg)).filter fun m => decide (m ≠ n)
      match sortBy (selLt l.act b s) ms with
      | m :: _ => some m
      | [] => (fwdLeg n s).src

/-- Whether a source can be forwarded to a leg as it is (R304, R311): equal codecs, and the template's where it names one; an Act of kind
4 forwards nothing. -/
def codecMatched (src : Nat) (l : Leg) (s : State) : Bool :=
  if isFar src then
    let t := actTpl l.act s
    decide (t.kind ≠ 4) && (match (Config.seatStreams (farMember src) (farSeat src)).head? with
      | some k =>
        let v := 1 + Config.bridgeCodec (k % 0x10000) % 4
        decide (v = l.vcodec) && (decide (t.vcodec = 0) || decide (t.vcodec = v))
      | none => false)
  else match tfind s.ctl.legs src with
  | none => false
  | some k =>
    let t := actTpl l.act s
    decide (k.vcodec = l.vcodec) && (decide (t.vcodec = 0) || decide (t.vcodec = k.vcodec)) && decide (t.kind ≠ 4)

/-- The pairs (s, t), greatest s first, then greatest t. -/
def layerPairs : List (Nat × Nat) := [(2, 2), (2, 1), (2, 0), (1, 2), (1, 1), (1, 0), (0, 2), (0, 1), (0, 0)]

/-- The computed choice for a source (R311). -/
def computeChoice (n src b : Nat) (sub : Sub) (l : Leg) (s : State) : Option (Nat × Nat) :=
  let t := actTpl l.act s
  let layers := if t.maxLayers = 0 then 3 else t.maxLayers
  if !codecMatched src l s then none
  else layerPairs.find? fun p =>
    decide (p.1 ≤ min sub.maxS (layers - 1)) && decide (p.2 ≤ sub.maxT) && decide (layerRate src p.1 p.2 b s ≤ fwdBudget n b s)
      && layerAlive src p.1 p.2 b s

/-- A choice above another, by s and then t. -/
def choiceGt (p q : Nat × Nat) : Bool := decide (q.1 < p.1) || (decide (p.1 = q.1) && decide (q.2 < p.2))

/-- The code of a choice in LAYER_SWITCH. -/
def choiceCode (p : Option (Nat × Nat)) : Nat :=
  match p with
  | some (a, t) => a + 4 * t
  | none => 15

/-- LAYER_SWITCH of a leg (R324). -/
def layerSwitch (n : Nat) (old new : Option (Nat × Nat)) (fallback : Bool) (s : State) : State :=
  match tfind s.ctl.legs n with
  | none => s
  | some l =>
    raiseObj EV_LAYER_SWITCH l.ring 1 n (choiceCode old + choiceCode new * 16 + b2n fallback * 256) (cinc (legCnt n 0x90) s)

/-- The context that a choice of a source takes its frames from. -/
def choiceCtx (src sp : Nat) (s : State) : Option Nat :=
  if simulcast src s then (srcCtxs src s)[sp]? else (srcCtxs src s).head?

def Cur.layers (c : Cur) : Nat × Nat := (c.s, c.t)

/-- Whether a pending choice waits for a key picture (R312): of a source change or a leg without a choice, and of any spatial change of a
simulcast source. -/
def needsKey (x : FwdLeg) (p : Pend) (s : State) : Bool :=
  match x.cur with
  | none => true
  | some c => decide (x.src ≠ some p.src) || (simulcast p.src s && decide (p.s ≠ c.s))

/-- A choice made pending; the key picture it needs is requested once (R316). -/
def pendSet (n b src : Nat) (c : Nat × Nat) (s : State) : State :=
  let x := fwdLeg n s
  let p : Pend := ⟨src, c.1, c.2, b⟩
  match x.pend with
  | some q => if q.src = p.src && q.s = p.s && q.t = p.t then s else go x p s
  | none => go x p s
where
  go (x : FwdLeg) (p : Pend) (s : State) : State :=
    let s := fwdLegPut n { x with pend := some p } s
    if needsKey x p s then
      match choiceCtx src p.s s with
      | some c => fwdPli c b s
      | none => s
    else s

/-- The pending choice of block `b` (R312, R313): a choice below the current one at once, one above after up_hold blocks, NONE at once,
another source at once. -/
def chooseLeg (n b : Nat) (l : Leg) (s : State) : State :=
  let x := fwdLeg n s
  match x.sub with
  | none => s
  | some sub =>
    match fwdWanted n b sub l s with
    | none => s
    | some src =>
      let comp := computeChoice n src b sub l s
      let run := match comp, x.run with
        | some c, some (p, q, k) => if c = (p, q) then some (p, q, k + 1) else some (c.1, c.2, 1)
        | some c, none => some (c.1, c.2, 1)
        | none, _ => none
      let s := fwdLegPut n { x with run := run, comp := comp } s
      let x := fwdLeg n s
      match comp with
      | none =>
        let old := x.cur.map Cur.layers
        let s := fwdLegPut n { x with cur := none, pend := none, src := if x.cur.isNone then x.src else some src } s
        if old.isSome then layerSwitch n old none false s else s
      | some c =>
        let held := match run with
          | some (_, _, k) => decide (fget (R.FWD_LA_CFG_up_hold l.ring) s ≤ k)
          | none => false
        match x.cur with
        | none => if x.src ≠ some src || held then pendSet n b src c s else s
        | some cur =>
          if x.src ≠ some src then pendSet n b src c s
          else if c = cur.layers then fwdLegPut n { x with pend := none } s
          else if choiceGt cur.layers c then pendSet n b src c s
          else if held then pendSet n b src c s
          else s

/-! ## Switching (R312) -/

/-- Whether an AV1 frame is a switch for the decode targets of a choice; other formats go by the frame's own up-switch mark. -/
def switchFor (codec : Nat) (t : Track) (f : FrRec) (spatial : Bool) (c : Nat × Nat) : Bool :=
  if codec = 4 then
    match t.av1 with
    | some st => f.sw.any fun d => decide (dtLayer st d = c)
    | none => false
  else if spatial then f.upS else f.upT

/-- The choice that takes effect at a released frame of a context, where the pending one does (R312). -/
def switchAt (codec ctx : Nat) (f : FrRec) (x : FwdLeg) (p : Pend) (s : State) : Option (Nat × Nat) :=
  if f.lost || f.broken then none
  else
    let c := (p.s, p.t)
    let sim := simulcast p.src s
    if choiceCtx p.src p.s s ≠ some ctx then none
    else match x.cur with
      | none =>
        let deps := f.deps.all fun d => x.sent.contains (ctx, d)
        if f.key then some c
        else if x.src = some p.src && !sim && decide (f.sid = p.s) && switchFor codec (track ctx s) f true c && deps then some c else none
      | some cur =>
        if x.src ≠ some p.src then (if f.key then some c else none)
        else if sim then
          if p.s ≠ cur.s then (if f.key then some c else none)
          else if cur.t < p.t then (if f.key || (f.tid ≤ p.t && switchFor codec (track ctx s) f false c) then some c else none)
          else some c
        else if cur.s < p.s then
          if f.key || (decide (f.sid = p.s) && switchFor codec (track ctx s) f true c) then
            some (if f.key || decide (codec = 4) || decide (p.t ≤ cur.t) || (decide (f.tid ≤ p.t) && f.upT) then c else (p.s, cur.t))
          else none
        else if p.s < cur.s then
          (if f.sid = 0 then some (p.s, min cur.t p.t) else none)
        else if cur.t < p.t then (if f.key || (f.tid ≤ p.t && switchFor codec (track ctx s) f false c) then some c else none)
        else some c

/-- A switch taken: the new choice, the source change reported, the pending choice kept only where a part of it still waits. -/
def switchTake (n ctx : Nat) (c : Nat × Nat) (p : Pend) (s : State) : State :=
  let x := fwdLeg n s
  let old := x.cur.map Cur.layers
  let change := decide (x.src ≠ some p.src)
  let s := fwdLegPut n { x with
    cur := some ⟨ctx, c.1, c.2⟩
    src := some p.src
    pend := if c = (p.s, p.t) then none else some p
    broken := false
    rw := { x.rw with switched := true } } s
  let s := layerSwitch n old (some c) false s
  match tfind s.ctl.legs n with
  | some l => if change then raiseObj EV_SOURCE_CHANGE l.ring 1 n (p.src % 0x4000) s else s
  | none => s

/-- Whether a frame lies within a leg's choice: its layer, and, while a simulcast source waits to go down, temporal layer 0; where a
stream's frame_num may not have gaps only frames that no other depends on are left out (R311, R312, R315). -/
def inChoice (codec : Nat) (x : FwdLeg) (cur : Cur) (f : FrRec) (s : State) : Bool :=
  let sim := match x.src with
    | some q => simulcast q s
    | none => false
  let down := sim && match x.pend with
    | some p => decide (x.src = some p.src) && decide (p.s < cur.s)
    | none => false
  let t := if down then 0 else cur.t
  let fits := decide (f.tid ≤ t) || (codec = 1 && !(track cur.ctx s).gaps && !f.disc)
  decide (f.tid ≤ 2) && decide (f.sid ≤ 2) && (sim || decide (f.sid ≤ cur.s)) && fits

/-! ## Rewriting (R315) -/

/-- RFC 8285 header extension bytes of the elements: the one-byte form where it can hold them. -/
def extBytes (l : List (Nat × List Nat)) : List Nat :=
  if l.isEmpty then []
  else
    let one := l.all fun p => decide (p.1 ≤ 14) && decide (1 ≤ p.2.length) && decide (p.2.length ≤ 16)
    let body := (l.map fun p => if one then (p.1 * 16 + (p.2.length - 1)) :: p.2 else p.1 :: p.2.length :: p.2).flatten
    let n := ceilDiv body.length 4
    (if one then [0xBE, 0xDE] else [0x10, 0x00]) ++ beNats 2 n ++ padTo 0 (4 * n) body

/-- A dependency descriptor as sent: its frame number, the structure where it is attached, the decode targets of the choice. -/
def ddWrite (d : Dd) (num : Nat) (attach : Option Av1Struct) (mask dts : Nat) : List Nat :=
  let st := if d.struct.isSome then d.struct else attach
  let act := st.isSome || d.active.isSome
  let head := [d.first, d.last] ++ natBits 6 d.tpl ++ natBits 16 num
  if !d.ext && st.isNone then ofBits 3 head
  else
    let body := head ++ [st.isSome, act, d.customDti, d.customFd, d.customCh]
      ++ (match st with
          | some x => x.bits
          | none => [])
      ++ (if act then natBits dts mask else []) ++ d.tail
    ofBits (body.length / 8 + 1) body

/-- The header extension of a forwarded packet for its egress context. -/
def rewriteExt (st out : Stream) (x : FwdLeg) (cur : Cur) (first : Bool) (tw : Nat) (tr : Track) (p : List Byte) : List Nat :=
  let el := fun (i : Nat) (v : Option (List Nat)) => match v with
    | some l => if out.ext.getD i 0 = 0 then [] else [(out.ext.getD i 0, l)]
    | none => []
  let carry := fun (i : Nat) => (extOf st i p).map toNats
  let mid := toNats (trimZeros out.mid)
  let dd := (carry 5).bind fun b => (ddRead b tr.av1).map fun d =>
    match tr.av1 with
    | none => b
    | some a => ddWrite d ((d.num + x.rw.picOff) % 65536) (if first then some a else none) (dtMask a cur.s cur.t) a.dts
  let fm := (carry 6).map fun b => if 3 ≤ b.length then setAt b 2 ((b.getD 2 0 + x.rw.tlOff) % 256) else b
  extBytes (el 0 (carry 0) ++ el 1 (if mid.isEmpty then none else some mid) ++ el 4 (some (beNats 2 (tw % 65536))) ++ el 5 dd ++ el 6 fm)

/-- A VP8 payload as sent: the descriptor with a PictureID of 15 bits, TL0PICIDX and KEYIDX rewritten. -/
def vp8Rewrite (p : List Nat) (r : Rewrite) : List Nat :=
  let d := vp8Desc p
  let b0 := p.headD 0
  let x := (if bit b0 7 then p.getD 1 0 else 0) % 128
  [putBits b0 7 1 1, x + 128] ++ [128 + r.pic8 / 256 % 128, r.pic8 % 256]
    ++ (if d.tl0.isSome then [r.tl8 % 256] else [])
    ++ (match d.tid, d.keyIdx with
        | none, none => []
        | t, k =>
          let tb := match t with
            | some (v, y) => v * 64 + b2n y * 32
            | none => 0
          [tb + (match k with
            | some v => (v + r.keyOff) % 32
            | none => 0)])
    ++ p.drop d.len

/-- A VP9 payload as sent: PictureID and TL0PICIDX moved by their offsets. -/
def vp9Rewrite (p : List Nat) (r : Rewrite) : List Nat :=
  let d := vp9Desc p
  let n := (d.pic.getD 0 + r.picOff) % (if d.wide then 32768 else 128)
  let p := if d.pic.isNone then p else if d.wide then setAt (setAt p 1 (128 + n / 256)) 2 (n % 256) else setAt p 1 n
  match d.tl0 with
  | none => p
  | some t =>
    let o := (if d.pic.isNone then 1 else if d.wide then 3 else 2) + 1
    setAt p o ((t + r.tlOff) % 256)

/-- The numbers a packet carries that keep their differences: picture or frame number, TL0PICIDX, KEYIDX. -/
def packetNums (codec : Nat) (st : Stream) (p : List Byte) : Nat × Nat × Nat :=
  let body := toNats (rtpPayload p)
  match codec with
  | 1 => (0, (((extOf st 6 p).map toNats).getD []).getD 2 0, 0)
  | 2 => (0, 0, (vp8Desc body).keyIdx.getD 0)
  | 3 => ((vp9Desc body).pic.getD 0, (vp9Desc body).tl0.getD 0, 0)
  | _ => ((((extOf st 5 p).map toNats).bind fun d => (ddRead d none).map (·.num)).getD (bitsNat ((toBits (((extOf st 5 p).map toNats).getD [])).drop 8 |>.take 16)), 0, 0)

/-- The rewriting state at a unit's first packet: the timestamp offset and, where another context begins, the number offsets (R315). -/
def rewriteUnit (codec b ctx ts : Nat) (nums : Nat × Nat × Nat) (r : Rewrite) : Rewrite :=
  if r.ctx = some ctx then r
  else
    let off := match r.lastOut with
      | none => (45 * b + 2 ^ 32 - ts) % 2 ^ 32
      | some (o, bl) => (o + 45 * stampSub b bl + 2 ^ 32 - ts) % 2 ^ 32
    let m := if codec = 3 then 32768 else 65536
    if r.lastOut.isNone then { r with off := off, ctx := some ctx, picOff := 0, tlOff := 0, keyOff := 0 }
    else { r with
      off := off
      ctx := some ctx
      picOff := (r.picLast + 1 + m - nums.1 % m) % m
      tlOff := (r.tlLast + 1 + 256 - nums.2.1 % 256) % 256
      keyOff := (r.keyLast + 1 + 32 - nums.2.2 % 32) % 32 }

/-- One packet of a frame sent to a leg: rewritten and queued for block b + 1. -/
def sendPacket (n id codec b : Nat) (st out : Stream) (f : FrRec) (first marker : Bool) (cur : Cur) (e : JrEntry) (s : State) : State :=
  let x := fwdLeg n s
  let nums := packetNums codec st e.packet
  let tw := ((tfind s.egr.legs n).map EgrLeg.twNext).getD 0
  let named := decide (out.ext.getD 4 0 ≠ 0)
  let ext := rewriteExt st out x cur (first && x.rw.switched) tw (track id s) e.packet
  let body := toNats (rtpPayload e.packet)
  let body := if codec = 2 then vp8Rewrite body x.rw else if codec = 3 then vp9Rewrite body x.rw else body
  let m := if codec = 3 then 32768 else 65536
  let r := { x.rw with
    switched := x.rw.switched && !first
    picLast := (nums.1 + x.rw.picOff) % m
    tlLast := (nums.2.1 + x.rw.tlOff) % 256
    keyLast := (nums.2.2 + x.rw.keyOff) % 32
    lastOut := some ((e.ts + x.rw.off) % 2 ^ 32, b) }
  let s := fwdLegPut n { x with rw := r } s
  let s := match tfind s.egr.legs n with
    | some g => if named then egrLegPut n { g with twNext := tw + 1 } s else s
    | none => s
  let s := cadd (legCnt n 0x80) e.packet.length s
  let _ := f
  egrMedia n 1 (e.ts + x.rw.off) marker ext body (if named then some (tw % 65536) else none) (stampAdd b 1) s

/-- A unit of a context offered to a leg: each frame may take a pending switch, and is sent where it lies within the choice and all it
depends on was sent (R306, R307).  Answers the frames to send with their packets. -/
def offerFrames (n ctx codec : Nat) (fs : List (FrRec × List JrEntry)) (s : State) : List (FrRec × List JrEntry) × State :=
  fs.foldl (fun a p =>
    let f := p.1
    let s := a.2
    let x := fwdLeg n s
    let s := match x.pend with
      | none => s
      | some q => match switchAt codec ctx f x q s with
        | some c => switchTake n ctx c q s
        | none => s
    let x := fwdLeg n s
    match x.cur with
    | none => (a.1, s)
    | some cur =>
      if cur.ctx ≠ ctx || !inChoice codec x cur f s || f.lost then (a.1, s)
      else if f.broken then (a.1, cinc (legCnt n 0x98) (fwdLegPut n { x with broken := true } s))
      else if f.deps.all fun d => x.sent.contains (ctx, d) then
        (a.1 ++ [p], fwdLegPut n { x with sent := ((ctx, f.idx) :: x.sent).take 768, broken := false } s)
      else (a.1, s)) (([] : List (FrRec × List JrEntry)), s)

/-- The packets of the frames of a unit, each with its frame and whether it is the frame's first. -/
def flatPackets (fs : List (FrRec × List JrEntry)) : List (FrRec × Bool × JrEntry) :=
  (fs.map fun p => (p.2.zip (List.range p.2.length)).map fun e => (p.1, decide (e.2 = 0), e.1)).flatten

/-- A unit sent to a leg. -/
def sendUnit (n id codec b : Nat) (st out : Stream) (fs : List (FrRec × List JrEntry)) (s : State) : State :=
  let ps := flatPackets fs
  match ps with
  | [] => s
  | p0 :: _ =>
    let x := fwdLeg n s
    match x.cur with
    | none => s
    | some cur =>
      let r := rewriteUnit codec (actStamp (streamAct out s) b s) id p0.2.2.ts (packetNums codec st p0.2.2.packet) x.rw
      let r := if codec = 2 then { r with
          pic8 := (r.pic8 + 1) % 32768
          tl8 := if p0.1.tid = 0 then (r.tl8 + 1) % 256 else r.tl8 } else r
      let s := cinc 0x622000 (cinc (legCnt n 0x78) (fwdLegPut n { x with rw := r } s))
      (ps.zip (List.range ps.length)).foldl (fun s p =>
        sendPacket n id codec b st out p.1.1 p.1.2.1 (decide (p.2 + 1 = ps.length)) cur p.1.2.2 s) s

/-- Everything released at `b` offered to a receiving leg. -/
def forwardLeg (n b : Nat) (units : List Unit_) (l : Leg) (s : State) : State :=
  match egrContexts n 1 s with
  | [] => s
  | oid :: _ =>
    units.foldl (fun s u =>
      match fwdStream u.1 s, tfind s.ctl.streams oid with
      | some st, some out =>
        let r := offerFrames n u.1 l.vcodec u.2 s
        sendUnit n u.1 l.vcodec b st out r.1 r.2
      | _, _ => s) s

/-- A paused leg's block (R313): counted, degraded, FWD_PAUSED at most once in 2,000 blocks. -/
def pausedLeg (n : Nat) (l : Leg) (s : State) : State :=
  let x := fwdLeg n s
  let served := match x.fall with
    | .openAt _ _ => true
    | _ => false
  if x.sub.isNone || x.cur.isSome || served then s
  else
    let s := degraded n (cinc (legCnt n 0x88) s)
    let k := x.paused + 1
    match rateOk (rateKey EV_FWD_PAUSED n) 2000 s with
    | (true, s) => raiseObj EV_FWD_PAUSED l.ring 1 n k (fwdLegPut n { x with paused := 0 } s)
    | (false, s) => fwdLegPut n { x with paused := k } s

/-- The legs that the Line Adapter runs for: ACTIVE with an egress video context (R308). -/
def fwdLegs (s : State) : List Nat :=
  tkeysWhere s.ctl.legs fun n l => decide (l.st = .active) && !(egrContexts n 1 s).isEmpty

/-! ## RTX (R319) -/

/-- The extended number of a rewind ring that a 16-bit number names. -/
def rwExtend (r : Rewind) (q : Nat) : Nat := nearTop r.top q

/-- One number of a receiver's NACK of an egress context: retransmitted where it qualifies, within the leg's credit. -/
def rtxOne (n b id q : Nat) (s : State) : State :=
  let x := fwdLeg n s
  let ignored := cinc (legCnt n 0xB0) s
  match (egrContexts n 2 s).find? fun r => (match tfind s.ctl.streams r with
    | some st => decide (st.rtxOf = id)
    | none => false) with
  | some rid =>
    match tfind s.egr.rings id with
    | some r =>
      let e := rwExtend r q
      match tfind r.ents (e % 2 ^ r.log2) with
      | none => ignored
      | some w =>
        let wait := max (x.rtt.getD 10) 10
        let recent := match w.last with
          | some a => decide (stampSub b a < wait)
          | none => false
        if w.seq ≠ e || 3 ≤ w.count || recent then ignored
        else if x.credit < w.packet.length then cinc (legCnt n 0xA8) s
        else
          let hl := (rtpHdrLen w.packet).getD 12
          let s := fwdLegPut n { x with credit := x.credit - w.packet.length } s
          let s := { s with egr := { s.egr with rings := tset s.egr.rings id { r with
            ents := tset r.ents (e % 2 ^ r.log2) { w with count := w.count + 1, last := some b } } } }
          let s := cinc 0x622008 (cinc (legCnt n 0xA0) s)
          egrPush n ⟨3, some rid, beVal ((w.packet.drop 4).take 4), decide (128 ≤ w.packet.getD 1 0), [], beNats 2 (q % 65536) ++ w.packet.drop hl,
            stampAdd b 1, none, [], 0, none, none, 0, 0⟩ s
    | none => ignored
  | none => ignored

/-- The numbers of a leg's NACKs that are due at block `b`. -/
def rtxRun (n b : Nat) (s : State) : State :=
  let x := fwdLeg n s
  let due := x.nacks.filter fun p => stampGe b (stampAdd p.1 2)
  let s := fwdLegPut n { x with nacks := x.nacks.filter fun p => !stampGe b (stampAdd p.1 2) } s
  due.foldl (fun s p => rtxOne n b p.2.1 p.2.2 s) s

end Sys2Proof.Machine
end

