-- ==== Sys2Proof/Machine/Dec.lean ====
section
/-! DEFINITION. The reference pool, Plank surfaces and decode sessions (spec/10_codec_tiles_decode.md R252 to R274). -/
namespace Sys2Proof.Machine

/-! ## Plank surfaces (R264, R268) -/

def roundUp (n g : Nat) : Nat := ceilDiv n g * g

/-- The pool's granule. -/
def granule : Nat := 65536

def plankCols (w : Nat) : Nat := ceilDiv w 64
def plankRows (h : Nat) : Nat := ceilDiv h 4
def planks (w h : Nat) : Nat := plankCols w * plankRows h
def dataOffset (w h : Nat) : Nat := roundUp (0x100 + 2 * planks w h) 4096

/-- A surface's bytes, rounded up to a granule. -/
def surfaceSize (w h : Nat) : Nat := roundUp (dataOffset w h + 512 * planks w h) granule

/-- A decode buffer's bytes: surface and sidecar. -/
def bufferSize (w h : Nat) : Nat := surfaceSize w h + roundUp (16384 + 8 * (ceilDiv w 8 * ceilDiv h 8)) granule

/-- The 64 header bytes of a Plank surface with the four of its place in output order. -/
def plankHeader (p : Pic) (outSerial : List Byte) : List Byte :=
  let v := fun (i : Nat) => p.vis.getD i 0
  leBytes 4 0x4B4E4C50 ++ leBytes 2 0x0100 ++ leBytes 2 p.width ++ leBytes 2 p.height ++ leBytes 1 p.depth ++ leBytes 1 p.colour
    ++ leBytes 2 (plankCols p.width) ++ leBytes 2 (plankRows p.height) ++ leBytes 4 0x100 ++ leBytes 4 (dataOffset p.width p.height)
    ++ leBytes 2 p.stream ++ leBytes 1 (p.sid % 16 + p.tid % 16 * 16) ++ leBytes 1 p.flags ++ leBytes 4 p.ts ++ leBytes 8 p.release
    ++ leBytes 4 p.serial ++ outSerial ++ leBytes 2 (v 0) ++ leBytes 2 (v 1) ++ leBytes 2 (v 2) ++ leBytes 2 (v 3) ++ leBytes 8 0

/-- Flags of a Plank header. -/
def picKey : Nat := 1
def picTainted : Nat := 2
def picConcealed : Nat := 4
def picSwitch : Nat := 8
def picMono : Nat := 16

def Pic.degraded (p : Pic) : Bool := bit p.flags 1 || bit p.flags 2

/-- A component of a concealment vector on a plane: chroma takes half, truncated toward zero (R271). -/
def vecOn (plane : Nat) (v : Int) : Int := if plane = 0 then v else v.tdiv 2

/-- A place held within a plane of a picture of `n` luma samples across or down. -/
def withinPlane (plane n : Nat) (v : Int) : Nat := (clampI 0 (((if plane = 0 then n else ceilDiv n 2) : Nat) - 1 : Int) v).toNat

/-- Sample (x, y) of a plane: 0 luma, 1 Cb, 2 Cr. -/
def Content.at_ (depth plane x y : Nat) (c : Content) : Nat :=
  match c with
  | .grey => 2 ^ (depth - 1)
  | .coded n => Config.picSample n plane x y % 2 ^ depth
  | .patch ux uy mx my sw sh src rest =>
    let u := if plane = 0 then 16 else 8
    if x / u = ux && y / u = uy then
      src.at_ depth plane (withinPlane plane sw (x + vecOn plane mx)) (withinPlane plane sh (y + vecOn plane my))
    else rest.at_ depth plane x y

/-- A picture's samples as a list that tells them apart. -/
def Content.key (c : Content) : List Nat :=
  match c with
  | .grey => [0]
  | .coded n => [1, n]
  | .patch ux uy mx my sw sh src rest => [2, ux, uy, (mx + 2 ^ 16).toNat, (my + 2 ^ 16).toNat, sw, sh] ++ src.key ++ rest.key

/-- One sample of a picture; a MONO picture's chroma is the middle value; a place outside the picture replicates its edge (R269). -/
def picAt (p : Pic) (plane : Nat) (x y : Int) : Nat :=
  if plane ≠ 0 && bit p.flags 4 then 2 ^ (p.depth - 1)
  else p.content.at_ p.depth plane (withinPlane plane p.width x) (withinPlane plane p.height y)

/-! ## Planks (R268, R269) -/

/-- The 384 samples of plank `i` of a picture `w` wide: luma rows 0 to 3, Cb rows 0 and 1, Cr rows 0 and 1. -/
def plankSamples (w : Nat) (at_ : Nat → Int → Int → Nat) (i : Nat) : List Nat :=
  let x := i % plankCols w
  let y := i / plankCols w
  ((List.range 256).map fun k => at_ 0 ((64 * x + k % 64 : Nat) : Int) ((4 * y + k / 64 : Nat) : Int)) ++
    (([1, 2] : List Nat).map fun plane => (List.range 64).map fun k => at_ plane ((32 * x + k % 32 : Nat) : Int) ((2 * y + k / 32 : Nat) : Int)).flatten

/-- Whether a plank holds one value in each component. -/
def plankSolid (l : List Nat) : Bool :=
  ((l.take 256).all fun v => decide (v = l.getD 0 0)) && (((l.drop 256).take 64).all fun v => decide (v = l.getD 256 0))
    && (l.drop 320).all fun v => decide (v = l.getD 320 0)

/-- The sectors of a raw plank. -/
def rawSectors (depth : Nat) : Nat := if depth = 8 then 12 else 15

/-- Mode and sectors of a plank: raw, solid where it holds one value in each component, else coded in 1 to raw − 1 sectors. -/
def plankForm (depth : Nat) (key : List Nat) (i : Nat) (l : List Nat) : Nat × Nat :=
  let f := Config.plankForm key i
  if f.1 % 3 = 1 then (1, rawSectors depth)
  else if f.1 % 3 = 2 && plankSolid l then (2, 1)
  else (0, 1 + f.2 % (rawSectors depth - 1))

/-- The bytes of samples in a raw plank: one each at 8 bits, else ten bits each in a little-endian string. -/
def rawBytes (depth : Nat) (l : List Nat) : List Byte :=
  if depth = 8 then l.map fun v => BitVec.ofNat 8 v
  else (List.range 96).map (fun q => leBytes 5 (l.getD (4 * q) 0 + l.getD (4 * q + 1) 0 * 2 ^ 10 + l.getD (4 * q + 2) 0 * 2 ^ 20
    + l.getD (4 * q + 3) 0 * 2 ^ 30)) |>.flatten

/-- The 512 bytes of a slot: what its mode gives, then bytes that the rule leaves open. -/
def plankSlot (depth : Nat) (key : List Nat) (i : Nat) (l : List Nat) : List Byte :=
  let known := match (plankForm depth key i l).1 with
    | 1 => rawBytes depth l
    | 2 => leBytes 2 (l.getD 0 0) ++ leBytes 2 (l.getD 256 0) ++ leBytes 2 (l.getD 320 0)
    | _ => []
  known ++ (List.range (512 - known.length)).map fun k => BitVec.ofNat 8 (Config.plankByte key (512 * i + known.length + k))

/-- An entry of the plank header table. -/
def plankEntry (depth : Nat) (key : List Nat) (i : Nat) (l : List Nat) : List Byte :=
  let f := plankForm depth key i l
  leBytes 2 (f.2 + 32 * f.1)

/-- A surface written at `base`: header area, plank header table, slots. -/
def surfaceWrite (base w h depth : Nat) (head : List Byte) (key : List Nat) (at_ : Nat → Int → Int → Nat) (s : State) : State :=
  let ps := (List.range (planks w h)).map fun i => (i, plankSamples w at_ i)
  let s := dramWriteRun base (padTo 0 0x100 head ++ (ps.map fun p => plankEntry depth key p.1 p.2).flatten) s
  dramWriteRun (base + dataOffset w h) ((ps.map fun p => plankSlot depth key p.1 p.2).flatten) s

/-! ## The pool (R264) -/

/-- Whether an extent meets [a, a + n). -/
def Ext.meets (e : Ext) (a n : Nat) : Bool := decide (e.base < a + n) && decide (a < e.base + e.size)

/-- The lowest address at which `n` bytes fit in a Ring's regions of a kind. -/
def poolFit (r kind n : Nat) (s : State) : Option Nat :=
  let cands := (regionsOf r kind s).map fun g =>
    ((g.base :: (s.vid.exts.map fun e => e.base + e.size)).filter fun a =>
      decide (g.base ≤ a) && decide (a + n ≤ g.base + g.size) && !s.vid.exts.any fun e => e.meets a n)
  cands.flatten.foldl (fun m a => match m with
    | none => some a
    | some b => if a < b then some a else some b) none

/-- `n` bytes reserved. -/
def poolTake (r kind n : Nat) (s : State) : Option (Nat × State) :=
  match poolFit r kind n s with
  | none => none
  | some a => some (a, { s with vid := { s.vid with exts := s.vid.exts ++ [⟨r, kind, a, n, none⟩] } })

/-- `k` areas of `n` bytes each reserved, one after another. -/
def poolTakeN (k r kind n : Nat) (s : State) : Option (List Nat × State) :=
  match k with
  | 0 => some ([], s)
  | k + 1 => match poolTake r kind n s with
    | none => none
    | some (a, s) => match poolTakeN k r kind n s with
      | none => none
      | some (l, s) => some (a :: l, s)

/-- An extent let go: free at once, or after the last block of its holds. -/
def poolFree (base : Nat) (held : Option Nat) (s : State) : State :=
  match held with
  | none => { s with vid := { s.vid with exts := s.vid.exts.filter fun e => decide (e.base ≠ base) } }
  | some b => { s with vid := { s.vid with exts := s.vid.exts.map fun e => if e.base = base then { e with until_ := some b } else e } }

/-- Extents whose holds have ended before block `b` are free. -/
def poolExpire (b : Nat) (s : State) : State :=
  { s with vid := { s.vid with exts := s.vid.exts.filter fun e => match e.until_ with
    | some u => !stampAfter b u
    | none => true } }

/-! ## Tiles -/

/-- The tile of a session that no tile serves. -/
def noTile : Nat := 127

def tileBay (t : Nat) : Nat := t / 17
def bayTiles (b : Nat) : List Nat := (List.range 17).map fun i => 17 * b + i

/-- Pixels per second placed on a tile's decode engine, on its encode engine. -/
def decLoad (t : Nat) (s : State) : Nat := ((s.vid.sess.filter fun p => decide (p.2.tile = t)).map fun p => p.2.px).foldl (· + ·) 0
def encLoad (t : Nat) (s : State) : Nat := ((s.vid.encs.filter fun p => decide (p.2.tile = t)).map fun p => p.2.px).foldl (· + ·) 0

/-- A tile's status and load registers brought up to date; a session without a tile has tile 127. -/
def tileSync (t : Nat) (s : State) : State :=
  if 68 ≤ t then s else
  let ds := s.vid.sess.filter fun p => decide (p.2.tile = t)
  let es := s.vid.encs.filter fun p => decide (p.2.tile = t)
  let s := fset (R.VCT_TILE_STATUS_dec_sessions t) ds.length (fset (R.VCT_TILE_STATUS_enc_sessions t) es.length s)
  let s := fset (R.VCT_TILE_STATUS_dec_busy t) (b2n (ds.any fun p => p.2.work.isSome)) s
  let s := fset (R.VCT_TILE_STATUS_enc_busy t) (b2n (es.any fun p => p.2.pics.any (·.on))) s
  fset (R.VCT_TILE_LOAD_dec_load t) (ceilDiv (decLoad t s) 1000000) (fset (R.VCT_TILE_LOAD_enc_load t) (ceilDiv (encLoad t s) 1000000) s)

def tileIn (t : Nat) (s : State) : Bool := decide (fget (R.VCT_TILE_STATUS_state t) s = 0)

/-- The decode engine of a Bay for a session of `px` pixel/s: the most uncharged capacity, the lowest tile on a tie (R255). -/
def decEngine (bay px : Nat) (s : State) : Option Nat :=
  argMax (((bayTiles bay).filter fun t => tileIn t s && decide (decLoad t s + px ≤ 500000000)).map fun t => (t, -(decLoad t s : Int)))

/-- The leg's Bay, then the others in ascending order. -/
def bayOrder (bay : Nat) : List Nat := bay :: (List.range 4).filter fun b => decide (b ≠ bay)

/-- Placement of a session (R255): Bay and tile. -/
def decPlace (r bay px : Nat) (s : State) : Option (Nat × Nat) :=
  (bayOrder bay).findSome? fun b => if fits r b (chargeOf 1 px) s then (decEngine b px s).map fun t => (b, t) else none

/-! ## Sessions (R260) -/

def sessPut (id : Nat) (x : Sess) (s : State) : State := { s with vid := { s.vid with sess := tset s.vid.sess id x } }

/-- A PLI of the decoder (R273). -/
def decPli (id b : Nat) (s : State) : State := pliRequest id b 0x80 0x88 s

/-- The function whose pool settings a Ring's sessions take. -/
def poolDpb (r : Nat) (s : State) : Nat := fget (R.VCT_RING_POOL_h264_dpb r) s
def poolHold (r : Nat) (s : State) : Nat := fget (R.VCT_RING_POOL_hold r) s

/-- Frame buffers of a session (R264). -/
def frameBufs (codec dpb hold : Nat) : Nat := (if codec = 4 then 8 else if codec = 2 then 3 else dpb) + 1 + hold

/-- The declared dimensions as the window and the buffers take them: rounded up to 16 for H.264. -/
def codedDim (codec n : Nat) : Nat := if codec = 1 then roundUp n 16 else n

/-- The window d (R254). -/
def decWindow (codec w h : Nat) : Nat := max 1 (ceilDiv (codedDim codec w * codedDim codec h) 250000)

/-- The context of a session as its checkpoint takes it (R274), the PLI timer `pli` with it. -/
def Sess.context (pli : Option Nat) (x : Sess) : Ckpt :=
  ⟨x.st, x.reason, x.ps, x.sid, x.tid, x.want, x.keyAt, x.slots, x.bump, x.outs, x.serial, x.outSerial, x.dec, x.lastNo, x.gap, x.good, pli,
    x.acc⟩

/-- A session's context taken from its checkpoint (R253, R275). -/
def Sess.load (x : Sess) : Sess :=
  let c := x.ckpt
  { x with
    st := c.st
    reason := c.reason
    ps := c.ps
    sid := c.sid
    tid := c.tid
    want := c.want
    keyAt := c.keyAt
    slots := c.slots
    bump := c.bump
    outs := c.outs
    serial := c.serial
    outSerial := c.outSerial
    dec := c.dec
    lastNo := c.lastNo
    gap := c.gap
    good := c.good
    acc := c.acc }

/-- A stream's PLI timer. -/
def pliTimer (id : Nat) (s : State) : Option Nat := (track id s).pliAt

/-- A tile's counter raised; a session without an engine has none. -/
def tileAdd (t off n : Nat) (s : State) : State := if t < 68 then cadd (0x500000 + 0x4000 * t + off) n s else s

/-- A session whose context is also its checkpoint. -/
def sessMark (id : Nat) (x : Sess) (s : State) : State := sessPut id { x with ckpt := x.context (pliTimer id s) } s

/-- A picture of a session over: its context written to its checkpoint (R274). -/
def sessSave (id : Nat) (x : Sess) (s : State) : State := tileAdd x.tile 0x68 1 (sessMark id x s)

/-- A session whose context has been taken from its checkpoint: a PLI sent since stays sent. -/
def sessLoad (id : Nat) (x : Sess) (s : State) : State :=
  let s := sessPut id x.load s
  match pliTimer id s with
  | some _ => s
  | none => trackPut id { track id s with pliAt := x.ckpt.pli } s

/-- The operating point that an AV1 stream's description gives a session: the highest spatial layer within the declared dimensions, all temporal
layers (R261); none where the stream gives no layer sizes. -/
def pointOf (w h : Nat) (a : Option Av1Struct) : Option (Nat × Nat) :=
  match a with
  | none => none
  | some t =>
    if t.sizes.isEmpty then none
    else some (((List.range t.sizes.length).filter fun i => match t.sizes[i]? with
        | some z => decide (z.1 ≤ w) && decide (z.2 ≤ h)
        | none => false).getLast?.getD 0, t.tpls.foldl (fun m q => max m q.tid) 0)

/-- A session opened for its first consumer at block `b`: charged, placed, its pool area reserved, a PLI requested; or CAPACITY's reason. A VP9
stream has none (R256). -/
def sessOpen (id user b : Nat) (s : State) : Except Nat State :=
  match tfind s.ctl.streams id with
  | none => .error 0
  | some st =>
    match tfind s.ctl.legs st.leg with
    | none => .error 0
    | some l =>
      let px := l.width * l.height * l.fps
      match if l.vcodec = 1 || l.vcodec = 2 || l.vcodec = 4 then decPlace l.ring l.bay px s else none with
      | none => .error 0
      | some (bay, tile) =>
        let dpb := poolDpb l.ring s
        let hold := poolHold l.ring s
        let f := frameBufs l.vcodec dpb hold
        match poolTakeN f l.ring 3 (bufferSize (codedDim l.vcodec l.width) (codedDim l.vcodec l.height)) s with
        | none => .error 1
        | some (bases, s) => match poolTake l.ring 3 granule s with
          | none => .error 1
          | some (area, s) =>
            let p := if l.vcodec = 4 then (pointOf l.width l.height (track id s).av1).getD (0, 7) else (0, 7)
            let c : Ckpt := ⟨1, 0, ⟨[], []⟩, p.1, p.2, p, none, [], [], [], 0, 0, 0, none, false, [], none, []⟩
            let x : Sess := ⟨1, l.ring, bay, tile, px, l.vcodec, l.width, l.height, l.fps, decWindow l.vcodec l.width l.height, dpb, hold,
              List.replicate f none, bases, area, [user], p.1, p.2, [], none, [], [], [], [], [], [], 0, 0, 0, 0, 0, 0, none, ⟨[], []⟩, p, none,
              none, false, [], [], c⟩
            .ok (decPli id b (tileSync tile (chargeUp l.ring bay (chargeOf 1 px) (sessPut id x s))))

/-- A consumer of a stream's decoded pictures. -/
def sessUse (id user b : Nat) (s : State) : Except Nat State :=
  match tfind s.vid.sess id with
  | some x => .ok (sessPut id { x with users := if x.users.contains user then x.users else x.users ++ [user] } s)
  | none => sessOpen id user b s

/-- A session closed: its charge returned, its buffers free as their holds end. -/
def sessClose (id : Nat) (x : Sess) (s : State) : State :=
  let s := drainForget 1 id { s with vid := { s.vid with sess := terase s.vid.sess id } }
  let s := tileSync x.tile (chargeDown x.ring x.bay (chargeOf 1 x.px) s)
  let s := (x.bases.zip (List.range x.bases.length)).foldl (fun s p =>
    let h := (x.holds.filter fun q => decide (q.1 = p.2)).map (·.2)
    poolFree p.1 (h.foldl (fun m b => match m with
      | none => some b
      | some a => if stampAfter b a then some b else some a) none) s) s
  poolFree x.area none s

/-- A consumer let go; the last one closes the session. -/
def sessDrop (id user : Nat) (s : State) : State :=
  match tfind s.vid.sess id with
  | none => s
  | some x =>
    let u := x.users.filter fun n => decide (n ≠ user)
    if u.isEmpty then sessClose id x s else sessPut id { x with users := u } s

/-! ## Buffers and marks (R265, R266) -/

/-- Whether a buffer carries a mark or a hold. -/
def Sess.marked (x : Sess) (i : Nat) : Bool :=
  (x.work.map (·.buf)) = some i || x.slots.any (fun p => decide (p.2 = some i)) || x.bump.any (fun q => decide (q.2.1 = i))
    || x.outs.any (fun o => decide (o.buf = i)) || x.holds.any fun h => decide (h.1 = i)

/-- The lowest free buffer. -/
def Sess.freeBuf (x : Sess) : Option Nat := (List.range x.bufs.length).find? fun i => !x.marked i

/-- The OUT picture for block `t` (R266): the last in output order whose release stamp b has b + d ≤ t, of those that a picture so old has put
out (marks change only at points fixed by release stamps, R265). -/
def Sess.outAt (x : Sess) (t : Nat) : Option OutPic :=
  (x.outs.filter fun o => stampGe t (stampAdd o.release x.d) && stampGe t (stampAdd o.at_ x.d)).getLast?

/-- The picture that a canvas tick at `t` reads. -/
def Sess.outPic (x : Sess) (t : Nat) : Option Pic := (x.outAt t).bind fun o => (x.bufs.getD o.buf none)

/-- Marks as of stamp `b`: pictures put out before the OUT picture of block `b` are OUT no more; holds whose last block is over have ended. -/
def Sess.marksAt (x : Sess) (b : Nat) : Sess :=
  { x with
    outs := match x.outAt b with
      | some o => x.outs.filter fun p => decide (o.serial ≤ p.serial)
      | none => x.outs
    holds := x.holds.filter fun h => !stampAfter b h.2 }

/-- The block whose marks a session still needs at block `b`: the release stamp of its oldest waiting picture, by which its buffers are judged
free (R265). -/
def Sess.judged (x : Sess) (b : Nat) : Nat :=
  match x.queue.head? with
  | some w => if stampAfter b w.release then w.release else b
  | none => b

/-- Whether the session's output in block `t` is frozen: it has no engine or decodes nothing, or a picture after the OUT picture was missed or not
decoded (R262, R265, R273 to R275). -/
def Sess.frozen (x : Sess) (t : Nat) : Bool :=
  match x.outAt t with
  | none => false
  | some o => decide (x.tile = noTile) || decide (x.st = 4) ||
      x.froze.any fun f => stampGe t (stampAdd f x.d) && stampAfter f o.release

/-- A session at block `b`: the OUT picture of the block before noted, marks that end. -/
def Sess.settle (x : Sess) (b : Nat) : Sess :=
  let y := x.marksAt (x.judged b)
  { y with
    lastOut := match x.outAt (stampSub b 1) with
      | some o => some (o.release, ((x.bufs.getD o.buf none).map (·.flags)).getD 0)
      | none => none
    froze := match x.outAt b with
      | some o => x.froze.filter fun f => stampAfter f o.release
      | none => []
    acc := x.acc.filter fun a => decide (stampSub b a.2 < 4000) }

/-- A layer frame of a unit released at `b` as a waiting picture. -/
def waitOf (codec b ts : Nat) (part : Bool) (d : PkDesc) (named : Bool) (es : List JrEntry) : Wait :=
  let first := (es.head?.map fun e => toNats (rtpPayload e.packet)).getD []
  let v := vp8Desc first
  ⟨b, ts, d.sid, d.tid, part, (es.map fun e => toNats (rtpPayload e.packet)).flatten,
    if codec = 2 then v.pic else if codec = 4 && named then some d.num else none, codec = 2 && bit (first.getD 2 0) 7, d.refs, none, false⟩

/-- The pictures of a stream released at `b` join its session's queue, one for each layer frame. -/
def sessQueue (b id : Nat) (s : State) : State :=
  match tfind s.vid.sess id, tfind s.ctl.streams id with
  | some x, some st =>
    let es := releasedAt b st
    let ws := ((unitsOf (es.length + 1) es).map fun u =>
      let fs := splitFrames x.codec (unitDescs x.codec st u (track id s).av1).1
      let ts := (u.head?.map (·.ts)).getD 0
      let part := u.any (·.incomplete)
      if fs.isEmpty then [waitOf x.codec b ts part PkDesc.none false u]
      else fs.map fun f => waitOf x.codec b ts part f.1 true f.2).flatten
    sessPut id { x with queue := x.queue ++ ws } s
  | _, _ => s

/-- The sessions at block `b`: marks that end, pictures released. -/
def sessBlock (b : Nat) (s : State) : State :=
  let s := poolExpire b s
  (tkeys s.vid.sess).foldl (fun s id => match tfind s.vid.sess id with
    | some x => sessQueue b id (sessPut id (x.settle b) s)
    | none => s) s

/-! ## Parameter sets and supported pictures (R256 to R258) -/

/-- The parameter sets that come with a picture taken into the store: SPS 0 to 3 and PPS 0 to 15 for H.264, one sequence header otherwise. -/
def Sess.takeSets (x : Sess) (p : PicSyn) : Sess :=
  let top := if x.codec = 1 then 4 else 1
  { x with ps := ⟨p.seqs.foldl (fun t q => if q.1 < top then tset t q.1 q.2 else t) x.ps.seqs,
      p.ppss.foldl (fun t q => if q.1 < 16 then tset t q.1 (q.2.1, q.2.2) else t) x.ps.ppss⟩ }

/-- The parameters of a picture's sequence, none where they are not all held. -/
def Sess.seqOf (x : Sess) (p : PicSyn) : Option SeqSyn :=
  if x.codec = 1 then (tfind x.ps.ppss p.pps).bind fun q => tfind x.ps.seqs q.1 else tfind x.ps.seqs 0

/-- Whether a picture names parameter sets that the store has no place for. -/
def Sess.psBad (x : Sess) (p : PicSyn) : Bool :=
  decide (x.codec = 1) && (decide (15 < p.pps) || (tfind x.ps.ppss p.pps).any fun q => decide (3 < q.1))

/-- A picture's coded size: an AV1 frame's own, else its sequence's. -/
def picSize (codec : Nat) (p : PicSyn) (q : SeqSyn) : Nat × Nat := if codec = 4 then (p.width, p.height) else (q.width, q.height)

/-- The DPB size of an H.264 sequence; num_reorder_frames. -/
def seqDpb (q : SeqSyn) : Nat := match q.restrict with
  | some r => r.1
  | none => max q.maxRefs 1
def seqReorder (q : SeqSyn) : Nat := match q.restrict with
  | some r => r.2
  | none => 0

/-- The reason a picture is unsupported (R278), 0 where none is. -/
def picReason (x : Sess) (p : PicSyn) (q : SeqSyn) : Nat :=
  let z := picSize x.codec p q
  let prof := match x.codec with
    | 1 => (decide (q.profile = 66) && q.constrained) || decide (q.profile = 77) || decide (q.profile = 100)
    | 2 => decide (q.profile ≤ 3)
    | _ => decide (q.profile = 0)
  let lvl := match x.codec with
    | 1 => decide (q.level ≤ 51)
    | 2 => true
    | _ => decide (q.level ≤ 13)
  let size := decide (z.1 ≤ 4096) && decide (z.2 ≤ 2304) && decide (z.1 * z.2 ≤ 8912896) && decide (16 ≤ z.1) && decide (16 ≤ z.2)
  if !prof then 1
  else if !lvl then 2
  else if !size then 3
  else if q.depth ≠ 8 && !(x.codec = 4 && q.depth = 10) then 4
  else if q.chroma ≠ 1 && !(q.chroma = 0 && x.codec ≠ 2) then 5
  else if x.codec = 1 && q.interlaced then 6
  else if x.codec = 1 && x.dpb < seqDpb q then 7
  else if q.tool || p.tool || (x.codec = 1 && (tfind x.ps.ppss p.pps).any (·.2)) then 9
  else if x.maxW < z.1 || x.maxH < z.2 then 10
  else 0

/-- The colour byte of a Plank header (R259, R268): BT.709, SDR, limited range where no description is present. -/
def picColour (q : SeqSyn) : Nat :=
  match q.colour with
  | none => 0
  | some (prim, tc, full) => b2n (decide (prim = 9)) + (if tc = 16 then 2 else if tc = 18 then 4 else 0) + 8 * b2n full

/-! ## Starting a picture (R254, R261 to R265, R271, R272) -/

/-- Whether `a` is an earlier stamp than `b`. -/
def stampLt (a b : Nat) : Bool := stampAfter b a

/-- The session whose head picture an engine starts next: the earliest deadline block, the lower stream on a tie. -/
def nextDecode (tile : Nat) (s : State) : Option Nat :=
  let l := (s.vid.sess.filter fun p => decide (p.2.tile = tile) && p.2.work.isNone).filterMap fun p =>
    p.2.queue.head?.map fun w => (p.1, stampAdd w.release (p.2.d - 1))
  (l.foldl (fun m p => match m with
    | none => some p
    | some q => if stampLt p.2 q.2 then some p else some q) none).map (·.1)

/-- Whether the window of a picture is over: block b + d − 1 has ended. -/
def Sess.late (x : Sess) (w : Wait) (t : Nat) : Bool := stampGe t (stampAdd w.release x.d)

/-- A picture not decoded: what it would have held is missing, and the output stays. -/
def Sess.lose (x : Sess) (w : Wait) (p : PicSyn) : Sess :=
  { x with
    slots := p.refresh.foldl (fun t i => tset t i none) (p.drop.foldl (fun t i => terase t i) x.slots)
    froze := if p.shown || p.again.isSome then x.froze ++ [w.release] else x.froze }

/-- What a slot's buffer holds. -/
def Sess.slotPic (x : Sess) (i : Nat) : Option Pic := ((tfind x.slots i).join).bind fun b => x.bufs.getD b none

/-- Whether a picture's dependency descriptor names a frame that no slot holds. -/
def Sess.depLost (x : Sess) (w : Wait) : Bool :=
  w.no.isSome && w.deps.any fun n => !((tkeys x.slots).any fun i => (x.slotPic i).any fun q => decide (q.no = some n))

/-- Whether a filled slot is a missing reference of a picture (R272): an H.264 entry that its process finds empty or non-existing; any after a gap in
VP8's picture IDs; an AV1 slot that stands for a frame lost, as the dependency descriptor shows, or whose order hint differs. -/
def Sess.slotBad (x : Sess) (w : Wait) (p : PicSyn) (i : Nat) : Bool :=
  match x.codec with
  | 1 => p.missing.contains i
  | 2 => x.gap
  | _ =>
    let q := x.slotPic i
    (x.depLost w && !(q.bind (·.no)).any fun n => w.deps.contains n) ||
      match (p.hints.find? fun h => decide (h.1 = i)).map (·.2) with
      | some h => q.map (·.hint) != some h
      | none => false

/-- A reference of a picture: its buffer where it is held, readable and not missing. -/
def Sess.ref (x : Sess) (w : Wait) (p : PicSyn) (i : Nat) : Option Nat :=
  match (tfind x.slots i).join with
  | none => none
  | some b => if x.lost.contains b || x.slotBad w p i then none else some b

/-- What stands in for a missing reference of a layer: the most recent correctly decoded picture of it, else mid-grey. -/
def Sess.substitute (x : Sess) (sid : Nat) : Shot := tget ⟨x.maxW, x.maxH, .grey⟩ x.good sid

/-- A picture as a reference. -/
def Pic.shot (p : Pic) : Shot := ⟨p.width, p.height, p.content⟩

/-- A reference's samples, the substitute's for a missing one. -/
def Sess.refShot (x : Sess) (w : Wait) (p : PicSyn) (i : Nat) : Shot :=
  match (x.ref w p i).bind fun b => x.bufs.getD b none with
  | some q => q.shot
  | none => x.substitute p.sid

/-- A stalled picture: counted, POOL_STALL at most once per stream in 2,000 blocks with the stalls since the last (R265). -/
def poolStall (id : Nat) (x : Sess) (s : State) : State :=
  let s := cinc (strCnt id 0xA0) s
  match rateOk (rateKey EV_POOL_STALL id) 2000 s with
  | (true, s) => raiseObj EV_POOL_STALL x.ring 3 id (x.stalls + 1) (sessSave id { x with stalls := 0 } s)
  | (false, s) => sessSave id { x with stalls := x.stalls + 1 } s

/-- The dependent frames of a stream no longer sent to any leg (R272, R306). -/
def trackBreak (id ts sid tid : Nat) (s : State) : State :=
  let t := track id s
  trackPut id { t with frames := t.frames.map fun f =>
    if f.ts = ts && f.sid = sid && f.tid = tid then { f with broken := true } else f } s

/-- A picture that meets a missing reference: counted, MISSING_REF, a PLI requested with the block `start` of its decode start, the forwarder
told (R272, R273). -/
def missingRef (id : Nat) (x : Sess) (w : Wait) (sid start : Nat) (s : State) : State :=
  let s := cinc (strCnt id 0x78) s
  let s := raiseObj EV_MISSING_REF x.ring 3 id (w.release + 2 ^ 48 * b2n (tfind x.good sid).isNone) s
  trackBreak id w.ts w.sid w.tid (decPli id start s)

/-- A picture taken by its engine: its references, its buffer, which is free by the marks of its release stamp (R265). -/
def decodeGo (id : Nat) (x0 : Sess) (w : Wait) (p : PicSyn) (q : SeqSyn) (s : State) : State :=
  let x := x0.marksAt w.release
  let b := w.began.getD s.clk.stamp
  let miss := p.refs.any fun i => (x.ref w p i).isNone
  let taint := miss || p.refs.any fun i => match x.ref w p i with
    | some k => ((x.bufs.getD k none).map Pic.degraded).getD false
    | none => false
  let s := if miss && !w.noted then missingRef id x w p.sid b s else s
  let buf := match p.again with
    | some i => x.ref w p i
    | none => x.freeBuf
  match buf with
  | none => if p.again.isSome then sessSave id (x.lose w p) s else poolStall id (x.lose w p) s
  | some k =>
    sessPut id { x with
      work := some ⟨w, p, q, k, p.refs.map fun i => x.refShot w p i, taint, miss || w.noted, b⟩
      acc := x.acc ++ [(p.sid, w.release)] } s

/-- The operating point at a picture (R261): the point wanted is what the stream describes, else the highest layer met whose pictures are
within the declared dimensions; it takes effect at a key picture of that layer's unit or a switch picture of that layer, a change of the temporal
layer alone at once. -/
def Sess.aim (x : Sess) (a : Option Av1Struct) (w : Wait) (p : PicSyn) : Sess :=
  if x.codec ≠ 4 then x
  else
    let fits := decide (p.width ≤ x.maxW) && decide (p.height ≤ x.maxH)
    let unit := decide (x.keyAt = some (w.release, w.ts))
    let want := match pointOf x.maxW x.maxH a with
      | some q => q
      | none =>
        if x.want.1 < p.sid && fits && (decide (p.kind ≠ 0) || unit) then (p.sid, x.want.2)
        else if p.sid = x.want.1 && 0 < p.sid && !fits then (p.sid - 1, x.want.2)
        else x.want
    let turn := (decide (p.kind = 1) && decide (p.sid ≤ want.1)) || (decide (p.kind = 2) && decide (p.sid = want.1))
      || (unit && decide (p.sid = want.1))
    { x with
      want := want
      tid := want.2
      sid := if turn then want.1 else x.sid
      keyAt := if p.kind = 1 then some (w.release, w.ts) else x.keyAt }

/-- The picture ID of a VP8 picture noted: a gap makes every buffer a missing reference until a key picture (R272). -/
def Sess.noteId (x : Sess) (w : Wait) : Sess :=
  if x.codec ≠ 2 then x
  else
    let m := if w.wide then 32768 else 128
    let jump := match x.lastNo, w.no with
      | some a, some n => decide (n ≠ (a + 1) % m)
      | _, _ => false
    { x with
      gap := x.gap || jump
      lastNo := w.no.or x.lastNo }

/-- The head picture of a session started: what keeps it from being decoded, in order. -/
def decodeStart (id : Nat) (x0 : Sess) (w : Wait) (p : PicSyn) (s : State) : State :=
  let b := w.began.getD s.clk.stamp
  let x := ((({ x0 with queue := x0.queue.drop 1 } : Sess).takeSets p).aim (track id s).av1 w p).noteId w
  let near := (x.acc.filter fun a => decide (a.1 = p.sid) && decide (stampSub w.release a.2 < 2000)).length
  let bad := fun (r : Nat) (s : State) =>
    let s' := sessSave id { x.lose w p with st := 4, reason := r } s
    if x.st = 4 then s' else decPli id b (raiseObj EV_STREAM_UNSUPPORTED x.ring 3 id r s')
  if x.sid < p.sid || x.tid < p.tid then sessSave id x s
  else if x.fps ≤ near then
    determinismLost ((tfind s.ctl.streams id).elim 0 fun st => streamAct st s) 3 (cinc (strCnt id 0x98) (sessSave id (x.lose w p) s))
  else if x.psBad p then bad 8 s
  else match x.seqOf p with
    | none => decPli id b (cinc (strCnt id 0x90) (sessSave id (x.lose w p) s))
    | some q =>
      if picReason x p q ≠ 0 then bad (picReason x p q) s
      else if x.st = 4 && p.kind ≠ 1 then sessSave id (x.lose w p) s
      else decodeGo id x w p q s

/-! ## Completing a picture (R259, R262, R265, R270, R274) -/

/-- A picture put out by the decoding of a picture of stamp `at_`. -/
def Sess.put (x : Sess) (buf release at_ : Nat) : Sess :=
  { x with outs := x.outs ++ [⟨release, at_, buf, x.outSerial⟩], outSerial := x.outSerial + 1 }

/-- H.264's bumping: the waiting picture of the lowest order count put out. -/
def Sess.bumpOne (x : Sess) (at_ : Nat) : Sess :=
  match argMin (x.bump.map fun q => (q.2.1, (q.1 : Int))) with
  | none => x
  | some b => ({ x with bump := x.bump.filter fun q => decide (q.2.1 ≠ b) } : Sess).put b
      (((x.bump.find? fun q => decide (q.2.1 = b)).map (·.2.2)).getD at_) at_

/-- Bumping until at most `n` pictures wait. -/
def Sess.bumpTo (fuel n : Nat) (x : Sess) (at_ : Nat) : Sess :=
  match fuel with
  | 0 => x
  | f + 1 => if x.bump.length ≤ n then x else Sess.bumpTo f n (x.bumpOne at_) at_

/-- Frame stores in use: waiting for output or marked for reference. -/
def Sess.fullness (x : Sess) : Nat :=
  ((List.range x.bufs.length).filter fun i => x.slots.any (fun p => decide (p.2 = some i)) || x.bump.any fun q => decide (q.2.1 = i)).length

/-- Bumping until a frame store is empty. -/
def Sess.bumpRoom (fuel dpb : Nat) (x : Sess) (at_ : Nat) : Sess :=
  match fuel with
  | 0 => x
  | f + 1 => if x.fullness < dpb || x.bump.isEmpty then x else Sess.bumpRoom f dpb (x.bumpOne at_) at_

/-- The codec's reference process and output for a completed picture. A key picture empties every slot that it does not refresh; an IDR or
operation 5 empties the H.264 DPB, put out first unless no_output_of_prior_pics_flag is set. -/
def Sess.retire (x : Sess) (k : Work) : Sess :=
  let p := k.p
  let clear := decide (p.kind = 1) || (decide (x.codec = 1) && p.mmco5)
  let x := { x with
    slots := if clear then [] else p.drop.foldl (fun t i => terase t i) x.slots
    gap := x.gap && decide (p.kind ≠ 1) }
  let fill := fun (x : Sess) => { x with slots := p.refresh.foldl (fun t i => tset t i (some k.buf)) x.slots }
  if x.codec = 1 then
    let x := if !clear then x else if p.noOutput && p.kind = 1 then { x with bump := [] } else Sess.bumpTo 16 0 x k.w.release
    if p.refresh.isEmpty && seqDpb k.seq ≤ x.fullness && x.bump.all fun q => decide (p.poc < q.1) then
      (if p.shown then x.put k.buf k.w.release k.w.release else x)
    else
      let x := fill (Sess.bumpRoom 16 (max 1 (seqDpb k.seq)) x k.w.release)
      let x := if p.shown then { x with bump := x.bump ++ [(p.poc, k.buf, k.w.release)] } else x
      Sess.bumpTo 16 (seqReorder k.seq) x k.w.release
  else
    let x := fill x
    if p.shown || p.again.isSome then x.put k.buf k.w.release k.w.release else x

/-- A picture decoded clean (R270). -/
def Work.clean (k : Work) : Bool := k.p.kind ≠ 0 && k.p.errors.isEmpty && (k.p.kind = 1 || !k.taint)

/-! ### Concealment (R271) -/

/-- The 16×16 units of a picture across and down. -/
def unitCols (w : Nat) : Nat := ceilDiv w 16

/-- Whether unit `u` of a picture `cols` units across is concealed for a syntax error: up to the next slice; the rest of the tile; the rest of the
partition's rows; the whole picture where its headers are in error. -/
def errCovers (e : PicErr) (codec cols u : Nat) : Bool :=
  e.whole || (decide (e.at_ ≤ u) && match codec with
    | 1 => decide (u < e.next)
    | 2 => decide (u / cols % e.parts = e.part)
    | _ => decide (e.rect.getD 0 0 ≤ u % cols) && decide (u % cols < e.rect.getD 2 0) && decide (e.rect.getD 1 0 ≤ u / cols)
        && decide (u / cols < e.rect.getD 3 0))

/-- The units of a picture that are concealed, in raster order: those its errors cost, and of an incomplete frame all from the first gap on. -/
def Work.concealed (codec : Nat) (k : Work) : List Nat :=
  let z := picSize codec k.p k.seq
  let cols := unitCols z.1
  (List.range (cols * ceilDiv z.2 16)).filter fun u =>
    k.p.errors.any (fun e => errCovers e codec cols u) || (k.w.incomplete && decide (k.p.gap ≤ u))

/-- The vector of a concealed unit in whole luma samples: of the unit above, else of the unit to the left, where it was decoded without error and is
inter; `mv` gives the vector of an 8×8 block in eighths. -/
def concealVec (cols : Nat) (bad : List Nat) (mv : Nat → Nat → Option (Int × Int)) (u : Nat) : Int × Int :=
  let x := u % cols
  let y := u / cols
  let above := if 0 < y && !bad.contains (u - cols) then mv (2 * x) (2 * y - 1) else none
  let left := if 0 < x && !bad.contains (u - 1) then mv (2 * x - 1) (2 * y) else none
  match above.or left with
  | some v => (v.1.tdiv 8, v.2.tdiv 8)
  | none => (0, 0)

/-- A completed picture's samples: as decoded, its concealed units copied from the primary reference, or co-located from the most recent correctly
decoded picture of the layer where it is a key picture or has no primary reference. -/
def Work.content (k : Work) (x : Sess) : Content :=
  let keys := k.refs.map fun r => r.content.key
  let bad := k.concealed x.codec
  let cols := unitCols (picSize x.codec k.p k.seq).1
  let mv := Config.vidMotion x.codec x.dec keys k.w.data
  let prime := if k.p.kind = 1 || (k.p.refs.headD 0 |> fun i => (x.ref k.w k.p i).isNone) then none else k.refs.head?
  bad.foldl (fun c u =>
    match prime with
    | some r => let v := concealVec cols bad mv u; .patch (u % cols) (u / cols) v.1 v.2 r.width r.height r.content c
    | none => let r := x.substitute k.p.sid; .patch (u % cols) (u / cols) 0 0 r.width r.height r.content c)
    (.coded (Config.vidPicture x.codec x.dec keys k.w.data))

/-- What is now in the buffer of a completed picture. -/
def Work.pic (k : Work) (id : Nat) (x : Sess) : Pic :=
  let p := k.p
  let z := picSize x.codec p k.seq
  let conc := !(k.concealed x.codec).isEmpty
  let vis := if x.codec = 1 then k.seq.vis else if x.codec = 4 then p.vis else [0, 0, z.1, z.2]
  ⟨z.1, z.2, k.seq.depth, picColour k.seq, id, p.sid, p.tid,
    b2n (decide (p.kind = 1)) * picKey + b2n (k.taint && !k.clean) * picTainted + b2n conc * picConcealed
      + b2n (decide (p.kind = 2)) * picSwitch + b2n (decide (k.seq.chroma = 0)) * picMono,
    k.w.ts, k.w.release, x.serial, vis, k.content x, if x.codec = 4 then k.w.no else none, p.hint⟩

/-- Concealed units of a picture counted; DECODE_ERROR at most once per stream in 2,000 blocks with the units since the last. -/
def decError (id n tile : Nat) (s : State) : State :=
  if n = 0 then s
  else
    let s := cadd (strCnt id 0x68) n (cinc (strCnt id 0x60) (tileAdd tile 0x60 n s))
    match tfind s.vid.sess id with
    | none => s
    | some x =>
      match rateOk (rateKey EV_DECODE_ERROR id) 2000 s with
      | (true, s) => raiseObj EV_DECODE_ERROR x.ring 3 id (x.units + n) (sessPut id { x with units := 0 } s)
      | (false, s) => sessPut id { x with units := x.units + n } s

/-- Buffers that could not be read let go (R267): their marks are cleared. -/
def Sess.forget (x : Sess) : Sess :=
  let gone := fun (i : Nat) => x.lost.contains i
  { x with
    slots := tmap x.slots fun _ o => if o.any gone then none else o
    bump := x.bump.filter fun q => !gone q.2.1
    outs := x.outs.filter fun o => !gone o.buf
    bufs := (x.bufs.zip (List.range x.bufs.length)).map fun p => if gone p.2 then none else p.1
    lost := [] }

/-- The pictures that a session has put out since `n` pictures: their places in output order written into their headers. -/
def outSerials (x : Sess) (n : Nat) (s : State) : State :=
  (x.outs.filter fun o => decide (n ≤ o.serial)).foldl (fun s o => dramWrite (x.bases.getD o.buf 0 + 0x2C) (leBytes 4 o.serial) s) s

/-- The bytes of an output serial that a picture not put out does not have yet. -/
def noSerial (p : Pic) : List Byte := (List.range 4).map fun k => BitVec.ofNat 8 (Config.plankByte p.content.key (2 ^ 32 + k))

/-- The picture on a session's engine completes: planks, sidecar and checkpoint are written. -/
def decodeComplete (id : Nat) (x : Sess) (k : Work) (s : State) : State :=
  let again := k.p.again.isSome
  let pic := k.pic id x
  let taint := bit pic.flags 1
  let conc := bit pic.flags 2
  let units := (k.concealed x.codec).length
  let x1 := ({ x with work := none } : Sess)
  let x1 := if again then x1 else { x1 with
    bufs := setAt x1.bufs k.buf (some pic)
    serial := x1.serial + 1
    dec := Config.vidNext x.codec x.dec k.w.data
    good := if taint || conc then x1.good else tset x1.good k.p.sid pic.shot }
  let x2 := (x1.retire k).forget
  let st := if taint || conc then 3 else if x.st = 3 then (if k.clean then 2 else 3) else 2
  let s := if again then s
    else surfaceWrite (x.bases.getD k.buf 0) pic.width pic.height pic.depth (plankHeader pic (noSerial pic)) pic.content.key (picAt pic) s
  let s := outSerials x2 x.outSerial (sessPut id { x2 with st := st } s)
  let s := tileAdd x.tile 0x58 k.p.errors.length (tileAdd x.tile 0x48 (pic.width * pic.height) (tileAdd x.tile 0x40 1 s))
  let s := cinc (strCnt id 0x58) s
  let s := if taint then cinc (strCnt id 0x70) s else s
  let s := decError id units x.tile s
  let s := if x.st = 3 && st = 2 then raiseObj EV_TAINT_CLEAR x.ring 3 id k.w.release s else s
  let s := if conc then decPli id k.start s else s
  let s := match tfind s.vid.sess id with
    | some y => sessSave id y s
    | none => s
  tileSync x.tile s

/-- A picture missed (R274): its buffer free, the output unchanged, PICTURE_MISSED. -/
def decodeMissed (id : Nat) (x : Sess) (w : Wait) (p : PicSyn) (s : State) : State :=
  let s := sessSave id (x.lose w p).forget s
  let s := tileAdd x.tile 0x70 1 (cinc (strCnt id 0xA8) s)
  let s := determinismLost ((tfind s.ctl.streams id).elim 0 fun st => streamAct st s) 4 s
  tileSync x.tile (raiseObj EV_PICTURE_MISSED x.ring 3 id w.release s)

end Sys2Proof.Machine
end

