-- ==== Sys2Proof/Machine/Pixel.lean ====
section
/-! DEFINITION. The pixel path of a compositor (spec/13_big_top_composition.md R335 to R342, R344, R346): every sample of a composed
picture as a function of what it is composed from. -/
namespace Sys2Proof.Machine

/-! ## Colour conversion (R337) -/

/-- The integer coefficients of a colour space. -/
structure ColourK where
  yr : Int
  yg : Int
  yb : Int
  cbr : Int
  cbg : Int
  cbb : Int
  crr : Int
  crg : Int
  crb : Int
  dy : Int
  drcr : Int
  dbcb : Int
  dgcb : Int
  dgcr : Int
  deriving DecidableEq, Repr

/-- The coefficients of BT.2020 or BT.709, each the rounding of a binary64 value. -/
def colourK (bt2020 : Bool) : ColourK :=
  let kr := if bt2020 then f64OfRat 2627 10000 else f64OfRat 2126 10000
  let kb := if bt2020 then f64OfRat 593 10000 else f64OfRat 722 10000
  let one := f64OfInt 1
  let two := f64OfInt 2
  let kg := (one.sub kr).sub kb
  let n := f64OfInt 65535
  let fwd := fun (k : F64) (m : Int) => ((((f64OfInt 16777216).mul k).mul (f64OfInt m)).div n).roundAway
  let cb := two.mul (one.sub kb)
  let cr := two.mul (one.sub kr)
  let half := one.div two
  let back := fun (k : F64) (m : Int) => ((((f64OfInt 65536).mul k).mul n).div (f64OfInt m)).roundAway
  ⟨fwd kr 876, fwd kg 876, fwd kb 876,
   fwd (kr.div cb).neg 896, fwd (kg.div cb).neg 896, fwd half 896,
   fwd half 896, fwd (kg.div cr).neg 896, fwd (kb.div cr).neg 896,
   back one 876, back cr 896, back cb 896,
   back (((two.mul kb).mul (one.sub kb)).div kg) 896, back (((two.mul kr).mul (one.sub kr)).div kg) 896⟩

/-- A pixel in R′, G′, B′. -/
abbrev Rgb := Int × Int × Int

def yOf (k : ColourK) (p : Rgb) : Int :=
  clampI 4 1019 (64 + asr (k.yr * p.1 + k.yg * p.2.1 + k.yb * p.2.2 + 2 ^ 23) 24)

/-- Cb and Cr of a cell from the sums over its four pixels. -/
def cbOf (k : ColourK) (p : Rgb) : Int :=
  clampI 4 1019 (512 + asr (k.cbr * p.1 + k.cbg * p.2.1 + k.cbb * p.2.2 + 2 ^ 25) 26)
def crOf (k : ColourK) (p : Rgb) : Int :=
  clampI 4 1019 (512 + asr (k.crr * p.1 + k.crg * p.2.1 + k.crb * p.2.2 + 2 ^ 25) 26)

def rgbOf (k : ColourK) (y cb cr : Int) : Rgb :=
  let f := fun (x : Int) => clampI 0 65535 (asr (x + 2 ^ 15) 16)
  (f ((y - 64) * k.dy + (cr - 512) * k.drcr), f ((y - 64) * k.dy - (cb - 512) * k.dgcb - (cr - 512) * k.dgcr),
    f ((y - 64) * k.dy + (cb - 512) * k.dbcb))

def rgbSum (l : List Rgb) : Rgb := l.foldl (fun a p => (a.1 + p.1, a.2.1 + p.2.1, a.2.2 + p.2.2)) (0, 0, 0)

/-! ## Scaling (R338 to R340) -/

/-- sinc in binary64, 1 at 0. -/
def f64Sinc (x : F64) : F64 := if x.m = 0 then f64OfInt 1 else let p := f64Pi.mul x; p.sin.div p

/-- The h[k] of a phase. -/
def scaleH (taps o src dst p : Nat) : List F64 :=
  let fc := if src ≤ dst then f64OfInt 1 else f64OfRat dst src
  (List.range taps).map fun (k : Nat) =>
    let x := (f64OfInt ((k : Int) - o)).sub (f64OfRat p 64)
    (fc.mul (f64Sinc (fc.mul x))).mul (f64Sinc (x.div (f64OfInt (o + 1 : Nat))))

/-- The coefficients of a phase: rounded, the remainder on the tap of the largest |h|, the lowest on a tie. -/
def scaleCoefs (taps o src dst p : Nat) : List Int :=
  let h := scaleH taps o src dst p
  let sum := h.foldl F64.add ⟨0, 0⟩
  let c := h.map fun x => (((f64OfInt 16384).mul x).div sum).roundAway
  let rest := 16384 - c.foldl (· + ·) 0
  let best := ((List.range taps).foldl (fun (b : Option (Nat × F64)) k => match b with
    | none => some (k, h.getD k ⟨0, 0⟩)
    | some q => if q.2.abs.lt (h.getD k ⟨0, 0⟩).abs then some (k, h.getD k ⟨0, 0⟩) else b) none).map (·.1)
  (List.range taps).map fun k => if best = some k then c.getD k 0 + rest else c.getD k 0

/-- The source position of output sample `i`, with 16 fractional bits. -/
def scalePos (src dst i : Nat) : Int := (((2 * i + 1 : Nat) * src - dst : Int) * 32768).fdiv dst

def posInt (p : Int) : Int := asr p 16
def posPhase (p : Int) : Nat := (asr p 10 % 64).toNat

/-- A weighted sum. -/
def dot (c : List Int) (f : Nat → Int) : Int := ((List.range c.length).map fun k => c.getD k 0 * f k).foldl (· + ·) 0

/-- One scaled sample: `src x y` is the source in the crop, already clamped to it. -/
def scaleAt (sw sh dw dh : Nat) (src : Int → Int → Int) (i j : Nat) : Int :=
  let px := scalePos sw dw i
  let py := scalePos sh dh j
  let ch := scaleCoefs 8 3 sw dw (posPhase px)
  let cv := scaleCoefs 6 2 sh dh (posPhase py)
  let hs := fun (y : Int) =>
    clampI (-(2 ^ 20)) (2 ^ 20 - 1) (asr (dot ch (fun k => src (posInt px - 3 + k) y) + 32) 6)
  clampI 4 1019 (asr (dot cv (fun k => hs (posInt py - 2 + k)) + 2 ^ 21) 22)

/-! ## Stream layers (R336, R341) -/

/-- The crop of a layer in a picture: the whole visible rectangle for w 0, else clamped to it. -/
def cropRect (l : Layer) (p : Pic) : Nat × Nat × Nat × Nat :=
  let v := fun (i : Nat) => p.vis.getD i 0
  let c := fun (i : Nat) => l.crop.getD i 0
  if c 2 = 0 then (v 0, v 1, v 2, v 3)
  else
    let x := min (c 0) (v 2 - 2)
    let y := min (c 1) (v 3 - 2)
    (v 0 + x, v 1 + y, min (c 2) (v 2 - x), min (c 3) (v 3 - y))

/-- A stream layer's scaled sample in plane coordinates of its destination. -/
def streamScaled (l : Layer) (p : Pic) (plane i j : Nat) : Int :=
  let r := cropRect l p
  let h := if plane = 0 then 1 else 2
  let sw := max 1 (r.2.2.1 / h)
  let sh := max 1 (r.2.2.2 / h)
  let src := fun (x y : Int) =>
    let v := picAt p plane ((r.1 / h : Nat) + clampI 0 ((sw : Int) - 1) x) ((r.2.1 / h : Nat) + clampI 0 ((sh : Int) - 1) y)
    ((if p.depth = 8 then 4 * v else v : Nat) : Int)
  scaleAt sw sh (l.dw / h) (l.dh / h) src i j

/-- A tone curve's channel applied to a component. -/
def curveAt (pts : List Nat) (u : Int) : Int :=
  let i := (asr u 11).toNat
  let f := u % 2048
  let a : Int := (pts.getD i 0 : Nat)
  let b : Int := (pts.getD (i + 1) 0 : Nat)
  a + asr ((b - a) * f + 1024) 11

/-- The primaries' matrices of R341, rows R′, G′, B′. -/
def primMatrix (from2020 : Bool) : List (List Int) :=
  if from2020 then [[27204, -9627, -1193], [-2041, 18561, -136], [-298, -1648, 18330]]
  else [[10280, 5395, 709], [1132, 15065, 187], [269, 1442, 14673]]

def matRow (m : List Int) (p : Rgb) : Int :=
  clampI 0 65535 (asr (m.getD 0 0 * p.1 + m.getD 1 0 * p.2.1 + m.getD 2 0 * p.2.2 + 8192) 14)

/-- The tone-map stage on one pixel, as R′G′B′ in the canvas's primaries. -/
def tonePixel (c : CPic) (l : Layer) (p : Pic) (i j : Nat) : Rgb :=
  let src := bit p.colour 0
  let v := rgbOf (colourK src) (streamScaled l p 0 i j) (streamScaled l p 1 (i / 2) (j / 2)) (streamScaled l p 2 (i / 2) (j / 2))
  let v := match if l.curve = 0xFF then none else c.layout.curves[l.curve]? with
    | some k => (curveAt (k.getD 0 []) v.1, curveAt (k.getD 1 []) v.2.1, curveAt (k.getD 2 []) v.2.2)
    | none => v
  if src = bit c.colour 0 then v
  else
    let m := primMatrix src
    (matRow (m.getD 0 []) v, matRow (m.getD 1 []) v, matRow (m.getD 2 []) v)

/-- A stream layer's sample after the tone-map stage. -/
def streamSample (c : CPic) (l : Layer) (p : Pic) (plane i j : Nat) : Int :=
  if l.curve = 0xFF && bit p.colour 0 = bit c.colour 0 then streamScaled l p plane i j
  else
    let k := colourK (bit c.colour 0)
    if plane = 0 then yOf k (tonePixel c l p i j)
    else
      let s := rgbSum [tonePixel c l p (2 * i) (2 * j), tonePixel c l p (2 * i + 1) (2 * j), tonePixel c l p (2 * i) (2 * j + 1),
        tonePixel c l p (2 * i + 1) (2 * j + 1)]
      if plane = 1 then cbOf k s else crOf k s

/-! ## Graphics (R331, R337, R344) -/

/-- A pixel of an RGBA image in canvas coordinates: R′G′B′ and alpha, none outside it. -/
def gfxPixel (rgba : List Byte) (gx gy : Int) (w h : Nat) (x y : Int) : Option (Rgb × Nat) :=
  if x < gx || y < gy || gx + w ≤ x || gy + h ≤ y then none
  else
    let o := 4 * (((y - gy).toNat) * w + (x - gx).toNat)
    let v := fun (i : Nat) => (257 * (rgba.getD (o + i) 0).toNat : Int)
    some ((v 0, v 1, v 2), (rgba.getD (o + 3) 0).toNat)

/-- The four pixels of a chroma cell. -/
def cellPixels (rgba : List Byte) (gx gy : Int) (w h : Nat) (x y : Nat) : List (Option (Rgb × Nat)) :=
  [(0, 0), (1, 0), (0, 1), (1, 1)].map fun (d : Nat × Nat) => gfxPixel rgba gx gy w h (2 * x + d.1 : Nat) (2 * y + d.2 : Nat)

/-- A graphic's sample and per-pixel alpha at a place of a canvas plane. -/
def gfxSample (k : ColourK) (rgba : List Byte) (gx gy : Int) (w h plane x y : Nat) : Option (Int × Nat) :=
  if plane = 0 then (gfxPixel rgba gx gy w h x y).map fun p => (yOf k p.1, p.2)
  else
    let l := cellPixels rgba gx gy w h x y
    if l.all (·.isNone) then none
    else
      let px := l.map fun o => o.getD ((0, 0, 0), 0)
      let s := rgbSum (px.map (·.1))
      some (if plane = 1 then cbOf k s else crOf k s, ((px.map (·.2)).foldl (· + ·) 0 + 2) / 4)

/-! ## Blending (R342) -/

def blend (galpha pa : Nat) (s d : Int) : Int :=
  let t := galpha * pa + 128
  let a := (t + t / 256) / 256
  let a := a + a / 128
  asr (s * a + d * (256 - a) + 128) 8

/-- A layer's sample and alpha at a place of a canvas plane; none where it does not cover it. -/
def layerSample (c : CPic) (l : Layer) (pic : Option Pic) (plane x y : Nat) : Option (Int × Nat) :=
  if !l.visible then none
  else if l.kind = 2 then
    gfxSample (colourK (bit c.colour 0)) ((c.layout.table.drop l.gfx).take (4 * l.gw * l.gh)) l.dx l.dy l.gw l.gh plane x y
  else if l.kind = 1 then
    let h : Int := if plane = 0 then 1 else 2
    let i := (x : Int) - l.dx / h
    let j := (y : Int) - l.dy / h
    if i < 0 || j < 0 || (l.dw : Int) / h ≤ i || (l.dh : Int) / h ≤ j then none
    else match pic with
      | some p => some (streamSample c l p plane i.toNat j.toNat, 255)
      | none => some ((l.fill.getD plane 0 : Nat), 255)
  else none

/-- A composed sample below the Marquee. -/
def belowMarquee (c : CPic) (plane x y : Nat) : Int :=
  (c.layout.layers.zip c.pics).foldl (fun d p => match layerSample c p.1 p.2 plane x y with
    | some (s, pa) => blend p.1.galpha pa s d
    | none => d) (c.bg.getD plane 0 : Nat)

/-- A sample of a composed picture: the background, the layers from 0 up, the Marquee (R335). -/
def compSample (c : CPic) (plane x y : Nat) : Int :=
  let d := belowMarquee c plane x y
  match c.asset with
  | none => d
  | some a =>
    match gfxSample (colourK (bit c.colour 0)) a.rgba a.x a.y a.w a.h plane x y with
    | some (s, pa) => blend 255 pa s d
    | none => d

/-! ## Signatures (R346) -/

def sampleBytes (v : Int) : List Byte := leBytes 2 v.toNat

/-- The samples of a rectangle of one plane, row by row. -/
def planeBytes (c : CPic) (plane x y w h : Nat) : List Byte :=
  ((List.range h).map fun j => ((List.range w).map fun i => sampleBytes (compSample c plane (x + i) (y + j))).flatten).flatten

/-- The CRC-32C of a region of a composed picture. -/
def regionCrc (c : CPic) (g : SigRegion) : Nat :=
  crc32c (planeBytes c 0 g.x g.y g.w g.h ++ planeBytes c 1 (g.x / 2) (g.y / 2) (g.w / 2) (g.h / 2)
    ++ planeBytes c 2 (g.x / 2) (g.y / 2) (g.w / 2) (g.h / 2))

/-- The opaque luma places and chroma cells of an asset within a canvas, in raster order. -/
def assetLuma (c : CPic) (a : Asset) : List (Nat × Nat) :=
  ((List.range c.height).map fun y => (List.range c.width).map fun x => (x, y)).flatten.filter fun p =>
    (gfxPixel a.rgba a.x a.y a.w a.h p.1 p.2).any fun q => decide (q.2 = 255)

def assetCells (c : CPic) (a : Asset) : List (Nat × Nat) :=
  ((List.range (c.height / 2)).map fun y => (List.range (c.width / 2)).map fun x => (x, y)).flatten.filter fun p =>
    (cellPixels a.rgba a.x a.y a.w a.h p.1 p.2).all fun o => o.any fun q => decide (q.2 = 255)

/-- Region 8 of a picture: the CRC over its Marquee asset's opaque samples, from the composed picture or from the converted copy; none
where the asset has no such samples. -/
def marqueeCrc (composed : Bool) (c : CPic) : Option Nat :=
  match c.asset with
  | none => none
  | some a =>
    let k := colourK (bit c.colour 0)
    let at_ := fun (plane : Nat) (p : Nat × Nat) =>
      if composed then compSample c plane p.1 p.2
      else ((gfxSample k a.rgba a.x a.y a.w a.h plane p.1 p.2).map (·.1)).getD 0
    let ls := assetLuma c a
    let cs := assetCells c a
    if ls.isEmpty && cs.isEmpty then none
    else some (crc32c ((ls.map fun p => sampleBytes (at_ 0 p)).flatten ++ (cs.map fun p => sampleBytes (at_ 1 p)).flatten
      ++ (cs.map fun p => sampleBytes (at_ 2 p)).flatten))

end Sys2Proof.Machine
end

