-- ==== Sys2Proof/Machine/Canvas.lean ====
section
/-! DEFINITION. Canvases, layouts, ticks, the output checker (spec/13_big_top_composition.md R326 to R349). -/
namespace Sys2Proof.Machine

/-! ## Tables and times -/

def canvasPut (id : Nat) (x : Canvas) (s : State) : State := { s with vid := { s.vid with canvas := tset s.vid.canvas id x } }

def canvasHome (id : Nat) : Nat := id / 64

/-- c, the blocks of a composition (R327); e, those of an encode (R284). -/
def compBlocks (w h : Nat) : Nat := ceilDiv (w * h) 500000
def encBlocks (w h : Nat) : Nat := max 1 (ceilDiv (w * h) 125000)

def Canvas.px (x : Canvas) : Nat := x.width * x.height * x.fps

/-- The block of tick `k`. -/
def Canvas.tick (x : Canvas) (k : Nat) : Nat := stampAdd x.start (ceilDiv (2000 * k) x.fps)

/-- The windows of a tick schedule over four periods of 2,000 blocks: start, end, pixels. -/
def tickWindows (a f off len px : Nat) : List (Nat × Nat × Nat) :=
  (List.range (4 * f)).map fun k => let t := a % 2000 + ceilDiv (2000 * k) f + off; (t, t + len, px)

/-- Whether every interval's windows fit: of L blocks, `rate` × L pixels. The schedules repeat every 2,000 blocks, so that intervals of
up to 2,000 blocks from one period suffice. -/
def feasible (rate : Nat) (ws : List (Nat × Nat × Nat)) : Bool :=
  (ws.filter fun p => decide (2000 ≤ p.1) && decide (p.1 < 4000)).all fun p =>
    (ws.filter fun q => decide (p.1 < q.2.1) && decide (q.2.1 ≤ p.1 + 2000)).all fun q =>
      decide (((ws.filter fun r => decide (p.1 ≤ r.1) && decide (r.2.1 ≤ q.2.1)).map (·.2.2)).foldl (· + ·) 0 ≤ rate * (q.2.1 - p.1))

def Canvas.windows (x : Canvas) : List (Nat × Nat × Nat) :=
  tickWindows x.start x.fps 0 (compBlocks x.width x.height) (x.width * x.height)

/-- An admitted canvas: a released one may still stand in the table for its last pictures. -/
def liveCanvas (id : Nat) (s : State) : Option Canvas := (tfind s.vid.canvas id).filter fun x => !x.ends

/-- The canvases a compositor serves. -/
def compCanvases (k : Nat) (s : State) : List (Nat × Canvas) :=
  s.vid.canvas.filter fun p => decide (p.2.comp = k) && !p.2.suspended && !p.2.ends

/-- A compositor's registers brought up to date. -/
def compSync (k : Nat) (s : State) : State :=
  let l := compCanvases k s
  let s := fset (R.CMP_STATUS_canvases k) l.length s
  let s := fset (R.CMP_STATUS_busy k) (b2n (s.vid.canvas.any fun p => decide (p.2.comp = k) && !p.2.ready.isEmpty)) s
  fset (R.CMP_LOAD_load k) (ceilDiv ((l.map fun p => p.2.px).foldl (· + ·) 0) 1000000) s

/-! ## Traces of commands (R468) -/

/-- COMMAND_APPLIED: the opcode, and the CRC of the arguments and of what was fetched. -/
def traceCommand (opcode : Nat) (ring : Option Nat) (kind subj b : Nat) (bytes : List Byte) (s : State) : State :=
  traceConfig 0x1181 ring kind subj b (opcode + crc32c bytes * 2 ^ 32) s

/-! ## The Marquee (R50, R344) -/

/-- A Marquee timber's body as an asset. -/
def assetOf (b : List Byte) : Asset :=
  let w := le b 8 2
  let h := le b 10 2
  ⟨le b 0 2, bit (le b 2 2) 0, le b 4 2, le b 6 2, w, h, slice b 12 32, (b.drop 64).take (4 * w * h)⟩

/-- The assets in force. -/
def assets (s : State) : List Asset := (s.frm.timbers.filter fun t => decide (t.type = tyMarquee)).map fun t => assetOf t.body

/-- The visible asset that names a canvas. -/
def assetFor (canvas : Nat) (s : State) : Option Asset :=
  (assets s).find? fun a => a.visible && bit (le a.mask (canvas / 8) 1) (canvas % 8)

/-! ## Admission (R326, R328) -/

def emptyLayout : Layout := ⟨[], [], [], []⟩

/-- A canvas's output surfaces. -/
def outSurfaces (w h f : Nat) : Nat := ceilDiv ((compBlocks w h + encBlocks w h + 1) * f) 2000 + 1

/-- A composed picture's description, for what is made of it. -/
def cpicCode (c : CPic) : List Nat :=
  [c.width, c.height, c.colour] ++ c.bg ++ toNats c.layout.table ++ [c.layout.layers.length, c.layout.curves.length]
    ++ (c.pics.map fun p => match p with
        | some q => let k := q.content.key; k.length :: q.width :: q.height :: q.depth :: q.colour :: k
        | none => [0]).flatten
    ++ (match c.asset with
        | some a => [1, a.x, a.y, a.w, a.h] ++ toNats a.rgba
        | none => [0])

/-- The Plank header of a composed picture (R328). -/
def compHeader (c : CPic) : List Byte :=
  plankHeader ⟨c.width, c.height, 10, c.colour, 0xFFFF, 0, 0, if c.degraded then picTainted else 0, 45 * c.tick % 2 ^ 32, c.tick, c.k,
    [0, 0, c.width, c.height], .grey, none, 0⟩ (leBytes 4 c.k)

/-- A composed picture written as a 10-bit Plank surface. -/
def compWrite (base : Nat) (c : CPic) (s : State) : State :=
  surfaceWrite base c.width c.height 10 (compHeader c) (cpicCode c)
    (fun plane x y => (compSample c plane (withinPlane plane c.width x) (withinPlane plane c.height y)).toNat) s

/-- The surfaces that composed pictures go to in turn: output surfaces, last-good, and DisplayPort's (R328); the safe surface follows them. -/
def Canvas.turns (x : Canvas) : Nat := outSurfaces x.width x.height x.fps + 1 + b2n x.dp

/-- The safe surface of a canvas: the background with the Marquee. -/
def safePic (id : Nat) (x : Canvas) (s : State) : CPic :=
  ⟨0, 0, x.width, x.height, x.colour, x.bg, emptyLayout, [], assetFor id s, false, false, 2, x.turns, x.gen⟩

/-- A canvas with its safe surface as it now is (R347). -/
def safeKeep (id : Nat) (x : Canvas) (s : State) : State :=
  let c := safePic id x s
  compWrite (x.bases.getD x.turns 0) c (canvasPut id { x with safe := some c } s)

/-- A released canvas whose last picture is used up is gone, its surfaces free. -/
def canvasGone (id : Nat) (x : Canvas) (s : State) : State :=
  x.bases.foldl (fun s a => poolFree a none s) { s with vid := { s.vid with canvas := terase s.vid.canvas id } }

/-- A number taken for a new canvas: what a released one and its stopped encodes still had in progress ends. -/
def canvasTaken (id : Nat) (s : State) : State :=
  match tfind s.vid.canvas id with
  | none => s
  | some x =>
    let es := s.vid.encs.filter fun p => decide (p.1 % 256 = id)
    let s := es.foldl (fun s p => p.2.bases.foldl (fun s a => poolFree a none s)
      { s with vid := { s.vid with encs := terase s.vid.encs p.1 } }) s
    canvasGone id x s

/-- A canvas admitted at boundary `b`, or CAPACITY's reason. -/
def canvasOpen (id ring w h f colour policy : Nat) (dp : Bool) (bg : List Nat) (area64 : Nat) (fallback : Option Nat) (b : Nat)
    (s : State) : Except Nat State :=
  let home := canvasHome id
  let s := canvasTaken id s
  let x : Canvas := ⟨ring, w, h, f, colour, policy, dp, bg, area64, b, 0, home, false, fallback, 0, emptyLayout, [],
    [], [], none, none, [], [], false, false, false, false⟩
  if !fits ring home (chargeOf 3 x.px) s then .error 0
  else if !feasible 500000 ((x :: (compCanvases home s).map (·.2)).map Canvas.windows).flatten then .error 0
  else match poolTakeN (outSurfaces w h f + 2 + b2n dp) ring 4 (surfaceSize w h) s with
    | none => .error 1
    | some (surf, s) => match poolTakeN 2 ring 4 (area64 * granule) s with
      | none => .error 1
      | some (areas, s) =>
        .ok (compSync home (chargeUp ring home (chargeOf 3 x.px) (safeKeep id { x with bases := surf ++ areas } s)))

/-- CANVAS_ADMIT at boundary `b` (R326). -/
def applyCanvasAdmit (c : Cmd) (b : Nat) (s : State) : State × Option Rsp :=
  let id := c.target
  let w := carg c 0x18 2
  let h := carg c 0x1A 2
  let f := carg c 0x1C 1
  let col := carg c 0x1D 1
  let pol := carg c 0x1E 1
  let bg := [carg c 0x20 2, carg c 0x22 2, carg c 0x24 2]
  let area := carg c 0x26 1
  if 256 ≤ id then (s, some (rspErr stBadId))
  else if !owns c.fn 4 id s then (s, some (rspErr stNotOwned))
  else if (liveCanvas id s).isSome then (s, some (rspErr stBadState))
  else if !(within 64 3840 w && within 64 2160 h && w % 8 = 0 && h % 8 = 0 && within 1 60 f && 90000 % f = 0 && col < 8
          && col / 2 ≠ 3 && (pol ≤ 2 || pol = 0xFF) && carg c 0x1F 1 ≤ 1 && (bg.all fun v => decide (v < 1024)) && within 1 64 area
          && czero c 0x27) then (s, some (rspFail stBadArg 2))
  else match canvasOpen id ((ringOf 4 id s).getD noRing) w h f col (if pol = 0xFF then fallbackDefault s else pol) (carg c 0x1F 1 = 1) bg area none b s with
    | .error n => (s, some (rspFail stCapacity n))
    | .ok s => (s, some rspOk)

/-! ## Release (R329) -/

/-- The streams a layout's layers show. -/
def Layout.streams (l : Layout) : List Nat := ((l.layers.filter fun y => decide (y.kind = 1)).map (·.stream)).eraseDups

/-- The ticks a canvas's pictures are still needed for: an encode's waiting picture, the DisplayPort scan. -/
def tickNeeded (id t : Nat) (s : State) : Bool :=
  s.vid.encs.any (fun p => decide (p.1 % 256 = id) && p.2.pics.any fun q => decide (q.tick = t)) ||
    decide (s.vid.dp.shown.map (fun p => (p.1, p.2.1)) = some (id, t))

/-- Composed pictures no longer needed dropped, their surfaces free; the newest is kept while the canvas is admitted. -/
def canvasTrim (id : Nat) (s : State) : State :=
  match tfind s.vid.canvas id with
  | none => s
  | some x =>
    let newest := (x.done.getLast?.map (·.tick)).getD 0
    let done := x.done.filter fun c => (decide (c.tick = newest) && !x.ends) || tickNeeded id c.tick s
    if x.ends && x.ready.isEmpty && done.isEmpty && !(s.vid.encs.any fun p => decide (p.1 % 256 = id) && !p.2.pics.isEmpty) then
      canvasGone id x s
    else canvasPut id { x with done := done } s

/-- A canvas released at its boundary: its layers' sessions let go, its charge returned, DisplayPort's scan of it ended; the pictures of its
ticks before it are still composed and encoded. -/
def canvasClose (id : Nat) (x : Canvas) (s : State) : State :=
  let s := x.layout.streams.foldl (fun s n => sessDrop n id s) (drainForget 3 id (canvasPut id { x with
    ends := true
    fallback := none } s))
  let s := if x.suspended then s else chargeDown x.ring x.comp (chargeOf 3 x.px) s
  let s := if s.vid.dp.shown.map (·.1) = some id then { s with vid := { s.vid with dp := { s.vid.dp with shown := none } } } else s
  compSync x.comp (canvasTrim id s)

/-- The open encodes of a canvas. -/
def canvasEncs (id : Nat) (s : State) : List (Nat × Enc) :=
  s.vid.encs.filter fun p => decide (p.1 % 256 = id) && p.2.stop.isNone

def applyCanvasRelease (c : Cmd) (_b : Nat) (s : State) : State × Option Rsp :=
  let id := c.target
  if 256 ≤ id then (s, some (rspErr stBadId))
  else if !owns c.fn 4 id s then (s, some (rspErr stNotOwned))
  else match liveCanvas id s with
    | none => (s, some (rspErr stBadState))
    | some x =>
      if !czero c 0x18 then (s, some (rspErr stBadArg))
      else if !(canvasEncs id s).isEmpty || x.fallback.isSome then (s, some (rspErr stBadState))
      else (canvasClose id x s, some rspOk)

/-! ## Layouts (R330 to R333) -/

def layerOf (b : List Byte) : Layer :=
  ⟨le b 0 1, bit (le b 1 1) 0, le b 2 1, le b 3 1, le b 4 2, [le b 8 2, le b 10 2, le b 12 2, le b 14 2],
    toS 16 (le b 0x10 2), toS 16 (le b 0x12 2), le b 0x14 2, le b 0x16 2, le b 0x18 4, le b 0x1C 2, le b 0x1E 2,
    [le b 0x20 2, le b 0x22 2, le b 0x24 2]⟩

def regionOfBytes (b : List Byte) : SigRegion :=
  ⟨le b 0 2, le b 2 2, le b 4 2, le b 6 2, le b 8 4, bit (le b 12 1) 0, bit (le b 12 1) 1⟩

def curveOf (b : List Byte) : List (List Nat) := [0, 66, 132].map fun o => (List.range 33).map fun i => le b (o + 2 * i) 2

/-- A layout's table read: the counts are those of the command. -/
def layoutOf (t : List Byte) (nl nr nc : Nat) : Layout :=
  ⟨(List.range nl).map fun i => layerOf (slice t (48 * i) 48), (List.range nr).map fun i => regionOfBytes (slice t (48 * nl + 16 * i) 16),
    (List.range nc).map fun i => curveOf (slice t (48 * nl + 16 * nr + 256 * i) 256), t⟩

def even (n : Nat) : Bool := decide (n % 2 = 0)

/-- A layer entry's fields are in range and its reserved bytes 0. -/
def layerOk (t : List Byte) (b : List Byte) : Bool :=
  let l := layerOf b
  let common := l.kind ≤ 2 && le b 1 1 ≤ 1 && (l.curve ≤ 3 || l.curve = 0xFF) && le b 6 2 = 0 && allZero (b.drop 0x26)
    && l.fill.all fun v => decide (v < 1024)
  let k := match l.kind with
    | 1 => (l.crop.all even) && decide (l.dx % 2 = 0) && decide (l.dy % 2 = 0) && even l.dw && even l.dh && 2 ≤ l.dw && 2 ≤ l.dh
    | 2 => l.stream = 0 && l.gfx % 4 = 0 && within 1 3840 l.gw && within 1 2160 l.gh && l.gfx + 4 * l.gw * l.gh ≤ t.length
    | _ => l.stream = 0
  common && k

def sigOk (b : List Byte) : Bool :=
  let g := regionOfBytes b
  even g.x && even g.y && even g.w && even g.h && le b 12 1 ≤ 3 && allZero (slice b 13 3)

/-- The checks of R332 on a fetched table, but for the sessions: 0 where all pass, else status and reason. -/
def layoutCheck (x : Canvas) (t : List Byte) (nl nr nc : Nat) (s : State) : Option Rsp :=
  let l := layoutOf t nl nr nc
  let gfx := ((l.layers.filter fun y => decide (y.kind = 2)).map fun y => (y.gfx, 4 * y.gw * y.gh)).eraseDups
  let size := 48 * nl + 16 * nr + 256 * nc + (gfx.map (·.2)).foldl (· + ·) 0
  let leg := fun (n : Nat) => (tfind s.ctl.streams n).bind fun st =>
    if st.dir = 0 && st.media = 1 then tfind s.ctl.legs st.leg else none
  let tones : Layer → Bool := fun y => match (tfind s.vid.sess y.stream).bind fun v => v.outPic s.clk.stamp with
    | some p => decide (bits p.colour 1 2 = bits x.colour 1 2) || decide (y.curve < nc)
    | none => true
  if t.length ≠ size then some (rspFail stBadArg 4)
  else if !((List.range nl).all fun i => layerOk t (slice t (48 * i) 48)) || !((List.range nr).all fun i => sigOk (slice t (48 * nl + 16 * i) 16))
      || !((List.range nc).all fun i => allZero (slice t (48 * nl + 16 * nr + 256 * i + 198) 58)) then some (rspFail stBadArg 2)
  else if !l.streams.all fun n => match leg n with
      | some g => decide (g.ring = x.ring)
      | none => false then some (rspErr stNotOwned)
  else if !l.streams.all fun n => match leg n with
      | some g => g.vcodec = 1 || g.vcodec = 2 || g.vcodec = 4
      | none => false then some (rspFail stBadArg 3)
  else if !(l.layers.filter fun y => decide (y.kind = 1)).all tones then some (rspFail stBadArg 8)
  else none

/-- Sessions for a list of streams, or the reason the first that does not fit gives. -/
def sessUseAll (ns : List Nat) (user b : Nat) (s : State) : Except Nat State :=
  ns.foldl (fun r n => match r with
    | .ok s => sessUse n user b s
    | .error e => .error e) (.ok s)

/-- A layout put in force: its streams' sessions opened, those no longer used let go. -/
def canvasLayout (id : Nat) (x : Canvas) (l : Layout) (b : Nat) (s : State) : Except Nat State :=
  match sessUseAll l.streams id b s with
  | .error e => .error e
  | .ok s =>
    let s := (x.layout.streams.filter fun n => !l.streams.contains n).foldl (fun s n => sessDrop n id s) s
    .ok (canvasPut id { x with
      layout := l
      gen := (x.gen + 1) % 65536
      learnt := x.learnt.filter fun p => x.ready.any fun c => decide (c.gen = p.1 / 16)
      crcs := List.replicate 9 0
      sigFail := false
      areaB := !x.areaB } s)

/-- LAYOUT_SET at boundary `b`: the fetched table `d` in the idle layout area, checked, put in force (R330 to R333). -/
def applyLayoutSet (c : Cmd) (d : Option (List Byte)) (b : Nat) (s : State) : State × Option Rsp :=
  let id := c.target
  let a := carg c 0x18 8
  let n := carg c 0x20 4
  let nl := carg c 0x24 1
  let nr := carg c 0x25 1
  let nc := carg c 0x26 1
  if 256 ≤ id then (s, some (rspErr stBadId))
  else if !owns c.fn 4 id s then (s, some (rspErr stNotOwned))
  else match liveCanvas id s with
    | none => (s, some (rspErr stBadState))
    | some x =>
      if a % 64 ≠ 0 || 32 < nl || 8 < nr || 4 < nc || !czero c 0x27 then (s, some (rspFail stBadArg 2))
      else if x.area64 * granule < n then (s, some (rspFail stBadArg 4))
      else match d with
      | none => (s, some (rspFail stFailed 5))
      | some t =>
        match layoutCheck x t nl nr nc s with
        | some r => (s, some r)
        | none =>
          let area := x.bases.getD (x.bases.length - (if x.areaB then 2 else 1)) 0
          match canvasLayout id x (layoutOf t nl nr nc) b s with
          | .error e => (s, some (rspFail stCapacity e))
          | .ok s =>
            let s := dramWrite area t s
            (s, some (rspRes ((x.gen + 1) % 65536)))

/-! ## Ticks (R327, R336, R349) -/

/-- A picture of a canvas begun at its tick: the OUT pictures and the layout and Marquee of its block. -/
def cpicAt (id : Nat) (x : Canvas) (t : Nat) (s : State) : CPic :=
  let pics := x.layout.layers.map fun l => if l.kind = 1 then (tfind s.vid.sess l.stream).bind fun v => v.outPic t else none
  let shown := (x.layout.layers.zip pics).filter fun p => decide (p.1.kind = 1) && p.1.visible
  let fill := shown.any fun p => p.2.isNone
  ⟨t, x.k, x.width, x.height, x.colour, x.bg, x.layout, pics, assetFor id s, fill || shown.any fun p => p.2.any Pic.degraded, fill, 0, 0, x.gen⟩

/-- The holds that a composition takes of its sessions' OUT pictures, to the end of its last block. -/
def holdPics (x : Canvas) (t : Nat) (s : State) : State :=
  let last := stampAdd t (compBlocks x.width x.height - 1)
  x.layout.streams.foldl (fun s n => match tfind s.vid.sess n with
    | none => s
    | some v => match v.outAt t with
      | none => s
      | some o => sessPut n { v with holds := v.holds ++ [(o.buf, last)] } s) s

/-- The picture of a tick joins the queue of each open encode of the canvas whose session opened at or before it. -/
def tickEncs (id t : Nat) (s : State) : State :=
  (s.vid.encs.filter fun p => decide (p.1 % 256 = id)).foldl (fun s p =>
    let stopped := match p.2.stop with
      | some b => stampGe t b
      | none => false
    if stopped || !stampGe t p.2.start then s
    else { s with vid := { s.vid with encs := tset s.vid.encs p.1 { p.2 with pics := p.2.pics ++ [⟨t, false, false, 0, 0, 0, 0, [], none⟩] } } }) s

/-- A canvas's tick (R327): nothing before its block. A suspended canvas composes nothing; its encodes have no input. -/
def canvasTick (id : Nat) (s : State) : State :=
  match liveCanvas id s with
  | none => s
  | some x =>
    let t := x.tick x.k
    if !stampGe s.clk.stamp t then s
    else
      let s := tickEncs id t s
      if x.suspended then canvasPut id { x with k := x.k + 1 } s
      else compSync x.comp (holdPics x t (canvasPut id { x with k := x.k + 1, ready := x.ready ++ [cpicAt id x t s] } s))

/-! ## Completion and the checker (R343, R346, R347) -/

/-- The composition a compositor completes: the ready tick with the earliest window end, the lower canvas on a tie. -/
def nextComp (k : Nat) (s : State) : Option Nat :=
  let l := (s.vid.canvas.filter fun p => decide (p.2.comp = k)).filterMap fun p => p.2.ready.head?.map fun c => (p.1, stampAdd c.tick (compBlocks p.2.width p.2.height))
  (l.foldl (fun m p => match m with
    | none => some p
    | some q => if stampLt p.2 q.2 then some p else some q) none).map (·.1)

/-- Computed and expected CRC of region `i` of a picture: a disabled region has none. -/
def regionCheck (x : Canvas) (c : CPic) (crcs : List (Nat × Nat)) (i : Nat) (g : SigRegion) : Option (Nat × Nat) :=
  if !g.enable then none
  else
    let v := (tfind crcs i).getD (regionCrc c g)
    some (v, if g.learn then (tfind x.learnt (c.gen * 16 + i)).getD v else g.crc)

/-- The regions of a picture with a computed and an expected value. -/
def regionChecks (x : Canvas) (c : CPic) (crcs : List (Nat × Nat)) : List (Nat × Nat × Nat) :=
  ((List.range c.layout.regions.length).filterMap fun i => match c.layout.regions[i]? with
    | none => none
    | some g => (regionCheck x c crcs i g).map fun p => (i, p.1, p.2)) ++
  (match marqueeCrc true c, marqueeCrc false c with
   | some v, some e => [(8, (tfind crcs 8).getD v, e)]
   | _, _ => [])

/-- The legs an encode's packets go to: the one whose fallback it is. -/
def encLeg (enc : Nat) (s : State) : Option Nat := if enc < 256 then (tfind s.vid.canvas enc).bind (·.fallback) else none

/-- The picture that consumers use under a policy (R347), by pointer: the composed one, the last-good one, or the safe one where there is none or
the policy says so; it keeps the tick. -/
def standIn (pol : Nat) (x : Canvas) (own : CPic) : CPic :=
  let of := fun (o : Option CPic) (n : Nat) => o.map fun g => { g with
    tick := own.tick
    k := own.k
    degraded := true
    sub := n }
  match pol with
  | 0 => own
  | 1 => ((of x.good 1).orElse fun _ => of x.safe 2).getD own
  | _ => (of x.safe 2).getD own

/-- A composed picture checked and handed to its consumers. -/
def compDone (id : Nat) (x : Canvas) (c : CPic) (crcs : List (Nat × Nat)) (s : State) : State :=
  let checks := regionChecks x c crcs
  let bad := checks.filter fun p => decide (p.2.1 ≠ p.2.2)
  let pol := if bad.isEmpty then 0 else if x.policy = 0 && bad.any fun p => decide (p.1 = 8) then 1 else x.policy
  let used := x.done.map (·.surf) ++ (x.good.map (·.surf)).toList
  let at_ := ((List.range x.turns).find? fun i => !used.contains i).getD 0
  let own := { c with
    degraded := c.degraded || decide (pol ≠ 0)
    surf := at_ }
  let c' := standIn pol x own
  let s := canvasPut id { x with
    ready := x.ready.drop 1
    done := x.done ++ [c']
    good := if bad.isEmpty then some c' else x.good
    learnt := checks.foldl (fun l p =>
      let k := c.gen * 16 + p.1
      if p.1 < 8 && (tfind l k).isNone then tset l k p.2.1 else l) (x.learnt.filter fun p => decide (c.gen = p.1 / 16 ∨ x.gen = p.1 / 16))
    crcs := (List.range 9).map fun i => ((checks.find? fun p => decide (p.1 = i)).map (·.2.1)).getD 0
    sigFail := !bad.isEmpty
    stale := false } s
  let s := compWrite (x.bases.getD at_ 0) own s
  let k := 0x640040 + 0x10000 * x.comp
  let s := cadd (k + 8) (c.width * c.height) (cinc k (cinc (cvCnt id 0) s))
  let s := if c'.degraded then cinc (cvCnt id 0x10) s else s
  let s := if c.fill then cinc (cvCnt id 0x18) s else s
  let s := match bad with
    | [] => s
    | p :: _ =>
      let s := cinc (k + 0x18) (cinc (cvCnt id 0x20) s)
      let s := match pol with
        | 1 => cinc (cvCnt id 0x28) s
        | 2 => cinc (cvCnt id 0x30) s
        | _ => s
      let s := raiseObj EV_SIG_MISMATCH x.ring 4 id (p.1 + pol * 16 + p.2.1 * 2 ^ 32) s
      (suspectReport (unitCmp x.comp) 2 s).2
  let s := match x.fallback with
    | some leg => if c'.degraded then degraded leg s else s
    | none => s
  canvasTrim id (compSync x.comp s)

/-- A composition not complete at the end of its window (R349). -/
def compMissed (id : Nat) (x : Canvas) (c : CPic) (s : State) : State :=
  let s := canvasPut id { x with
    ready := x.ready.drop 1
    stale := true } s
  let s := cinc (0x640050 + 0x10000 * x.comp) (cinc (cvCnt id 8) s)
  let s := match x.fallback with
    | some leg => degraded leg s
    | none => s
  canvasTrim id (compSync x.comp (raiseObj EV_CANVAS_MISSED x.ring 4 id c.tick s))

/-! ## Blocks that show a degraded picture (R5, R273, R343) -/

/-- Whether what a canvas shows in block `b` is degraded: its picture is; the canvas is suspended or its last tick was missed; a visible layer's
session is frozen. -/
def shownBad (x : Canvas) (b : Nat) (s : State) : Bool :=
  match x.done.getLast? with
  | none => false
  | some c => c.degraded || x.suspended || x.stale || c.layout.layers.any fun l =>
      decide (l.kind = 1) && l.visible && (tfind s.vid.sess l.stream).any fun v => v.frozen b

/-- The legs that receive a canvas's degraded picture in block `b`. -/
def shownBlock (b : Nat) (s : State) : State :=
  s.vid.canvas.foldl (fun s p => match p.2.fallback with
    | none => s
    | some leg => match (fwdLeg leg s).fall with
      | .openAt _ true => if shownBad p.2 b s then degraded leg s else s
      | _ => s) s

/-! ## Re-homing and resuming (R349) -/

/-- The compositor for a canvas that has lost its own: the most uncharged composition capacity, reserve included, where it stays
feasible; the lowest Bay on a tie. -/
def compPlace (x : Canvas) (s : State) : Option Nat :=
  argMax (((List.range 4).filter fun b => bayIn b s && decide (x.px ≤ bayFree b 3 s) &&
    feasible 500000 ((x :: (compCanvases b s).map (·.2)).map Canvas.windows).flatten).map fun b => (b, (bayFree b 3 s : Int)))

/-- A canvas that has no compositor: the Act of the leg that receives it is reported (R349, R411). -/
def canvasUnserved (x : Canvas) (s : State) : State :=
  match x.fallback.bind fun n => tfind s.ctl.legs n with
  | some l => determinismLost l.act 4 s
  | none => s

/-- A canvas put on a compositor. -/
def canvasOn (id b : Nat) (x : Canvas) (s : State) : State :=
  compSync b (chargeUp x.ring b (chargeOf 3 x.px) (canvasPut id { x with comp := b, suspended := false } s))

/-- A canvas taken from its compositor and placed again, or suspended. `miss` says that the tick in progress is missed. -/
def canvasMove (miss : Bool) (id : Nat) (s : State) : State :=
  match tfind s.vid.canvas id with
  | none => s
  | some x =>
    let old := x.comp
    let s := if miss then x.ready.foldl (fun s c => match tfind s.vid.canvas id with
      | some y => compMissed id y c s
      | none => s) s else s
    match liveCanvas id s with
    | none => s
    | some x =>
      let s := compSync old (chargeDown x.ring old (chargeOf 3 x.px) (canvasPut id { x with suspended := true } s))
      match compPlace x s with
      | some b => raiseObj EV_CANVAS_REHOMED x.ring 4 id (id + b * 256) (canvasOn id b x s)
      | none => canvasUnserved x (raiseObj EV_CANVAS_SUSPENDED x.ring 4 id id s)

/-- Suspended canvases that fit resume, in canvas order; the others are reported. -/
def canvasResume (s : State) : State :=
  (tkeysWhere s.vid.canvas fun _ x => x.suspended && !x.ends).foldl (fun s id => match tfind s.vid.canvas id with
    | none => s
    | some x => match compPlace x s with
      | some b => raiseObj EV_CANVAS_RESUMED x.ring 4 id id (canvasOn id b x s)
      | none => canvasUnserved x s) s

end Sys2Proof.Machine
end

