-- ==== Sys2Proof/Machine/Motion.lean ====
section
/-! DEFINITION. The encoder's motion search (spec/11_encode_rate_control.md R287). Vectors stand in eighths of a luma sample. -/
namespace Sys2Proof.Machine

/-- A vector. -/
abbrev Vec := Int × Int

/-! ## Planes -/

/-- A luma plane: width, height, samples row by row. -/
structure Plane where
  w : Nat
  h : Nat
  px : Array Nat

/-- A plane from its samples. -/
def planeOf (w h : Nat) (f : Nat → Nat → Nat) : Plane := ⟨w, h, ((List.range (w * h)).map fun k => f (k % w) (k / w)).toArray⟩

/-- A sample, with the edges replicated outwards. -/
def Plane.at_ (p : Plane) (x y : Int) : Nat :=
  p.px.getD ((clampI 0 ((p.h : Int) - 1) y).toNat * p.w + (clampI 0 ((p.w : Int) - 1) x).toNat) 0

/-- The plane of half the size: 2×2 box averages with rounding. -/
def Plane.half (p : Plane) : Plane :=
  planeOf (p.w / 2) (p.h / 2) fun x y =>
    (p.at_ (2 * x : Nat) (2 * y : Nat) + p.at_ (2 * x + 1 : Nat) (2 * y : Nat) + p.at_ (2 * x : Nat) (2 * y + 1 : Nat)
      + p.at_ (2 * x + 1 : Nat) (2 * y + 1 : Nat) + 2) / 4

/-! ## Costs -/

/-- The sum of absolute differences of an n×n block at (x, y) and the block of the reference at a distance of whole samples of its plane. -/
def sad (src ref : Plane) (x y n : Nat) (v : Vec) : Nat :=
  (List.range (n * n)).foldl (fun a k =>
    let i : Int := (x + k % n : Nat)
    let j : Int := (y + k / n : Nat)
    a + ((src.at_ i j : Int) - (ref.at_ (i + v.1) (j + v.2) : Int)).natAbs) 0

/-- The cheapest `k` of a list of candidates, an earlier one first on a tie. -/
def bestOf (k : Nat) (l : List (Vec × Nat)) : List Vec :=
  (l.foldl (fun (m : List (Vec × Nat)) c => ((m.takeWhile fun d => decide (d.2 ≤ c.2)) ++ c :: m.dropWhile fun d => decide (d.2 ≤ c.2)).take k)
    []).map (·.1)

/-- The positions of a window of ±rx by ±ry around a vector, row by row, `step` apart. -/
def windowAt (c : Vec) (rx ry : Nat) (step : Int) : List Vec :=
  ((List.range (2 * ry + 1)).map fun (j : Nat) => (List.range (2 * rx + 1)).map fun (i : Nat) =>
    ((c.1 + step * ((i : Int) - rx), c.2 + step * ((j : Int) - ry)) : Vec)).flatten

/-! ## Clamps -/

/-- H.264's vertical vector range of a level in luma samples (its Table A-1). -/
def h264VertRange (level : Nat) : Nat := if level ≤ 10 then 64 else if level ≤ 20 then 128 else if level ≤ 30 then 256 else 512

/-- A vector of the 16×16 block at (x, y) held so that every referenced sample lies within the picture extended by 64 samples; for H.264 also
within the level's vertical range. -/
def clampVec (c : EncCfg) (w h x y : Nat) (v : Vec) : Vec :=
  let lim := fun (n p : Nat) (d : Int) => clampI (-(8 * (64 + p : Nat) : Int)) (8 * ((n : Int) + 48 - p)) d
  let dy := lim h y v.2
  (lim w x v.1, if c.codec = 0 then clampI (-(8 * h264VertRange c.level : Nat)) (8 * h264VertRange c.level - 2 : Nat) dy else dy)

/-! ## One block -/

/-- What a search works on: the picture and a reference at full, half and quarter size; the reference's samples by number; the settings, the base
qindex and the quantiser that λ goes by. -/
structure Search where
  s1 : Plane
  s2 : Plane
  s4 : Plane
  r1 : Plane
  r2 : Plane
  r4 : Plane
  ref : Nat
  cfg : EncCfg
  base : Nat
  qp : Nat

/-- λ times the bits of a vector. -/
def Search.rateCost (k : Search) (v pred : Vec) : Nat := Config.encLambda k.cfg.codec k.qp * Config.vectorBits k.cfg.codec v pred

/-- SATD of the block at (x, y) at a vector: against the codec's interpolation of the reference. -/
def Search.satd (k : Search) (x y : Nat) (v : Vec) : Nat :=
  Config.satd ((List.range 256).map fun i =>
    (k.s1.at_ (x + i % 16 : Nat) (y + i / 16 : Nat) : Int) -
      Config.interpolate k.cfg.codec k.ref (8 * (x + i % 16 : Nat) + v.1) (8 * (y + i / 16 : Nat) + v.2))

/-- The vector of the 16×16 block at (x, y): `prev` is the co-located vector of the previous picture, `med` the median spatial predictor. -/
def Search.block (k : Search) (x y : Nat) (prev med : Vec) : Vec :=
  let cl := clampVec k.cfg k.s1.w k.s1.h x y
  let at_ := fun (u : Int) (v : Vec) => let q := cl (u * v.1, u * v.2); ((q.1.tdiv u, q.2.tdiv u) : Vec)
  let zero := windowAt (0, 0) 64 32 1
  let near := (windowAt (prev.1.tdiv 32, prev.2.tdiv 32) 64 32 1).filter fun v => decide (64 < v.1.natAbs) || decide (32 < v.2.natAbs)
  let l16 := bestOf 3 ((zero ++ near).map fun v => let v := at_ 32 v; (v, sad k.s4 k.r4 (x / 4) (y / 4) 4 v))
  let c4 := (l16.map fun v => ((2 * v.1, 2 * v.2) : Vec)) ++ [(med.1.tdiv 16, med.2.tdiv 16)]
  let l4 := bestOf 2 (((c4.map fun v => windowAt v 4 4 1).flatten).map fun v =>
    let v := at_ 16 v; (v, sad k.s2 k.r2 (x / 2) (y / 2) 8 v + k.rateCost (16 * v.1, 16 * v.2) med))
  let l1 := bestOf 1 (((l4.map fun v => windowAt (2 * v.1, 2 * v.2) 2 2 1).flatten).map fun v =>
    let v := at_ 8 v; (v, sad k.s1 k.r1 x y 16 v + k.rateCost (8 * v.1, 8 * v.2) med))
  let full : Vec := l1.headD (0, 0)
  let fine := fun (c : Vec) (r : Nat) (step : Int) =>
    (bestOf 1 ((windowAt c r r step).map fun v => let v := cl v; (v, k.satd x y v + k.rateCost v med))).headD c
  let q := fine (8 * full.1, 8 * full.2) 3 2
  if k.cfg.codec = 1 && k.base ≤ 128 then fine q 1 1 else q

/-! ## A picture -/

/-- The middle one of three numbers. -/
def median3 (a b c : Int) : Int := max (min a b) (min (max a b) c)

/-- The median spatial predictor of block `n` of a picture `cols` blocks across, from the vectors before it in raster order: of the left, the upper
and the upper right (else the upper left) block; one that is absent stands for zero, the left one alone where there is no row above. -/
def medianPred (cols : Nat) (got : Array Vec) (n : Nat) : Vec :=
  let x := n % cols
  let left := if x = 0 then (0, 0) else got.getD (n - 1) (0, 0)
  if n < cols then left
  else
    let up := got.getD (n - cols) (0, 0)
    let corner := if x + 1 < cols then got.getD (n - cols + 1) (0, 0) else if x = 0 then (0, 0) else got.getD (n - cols - 1) (0, 0)
    (median3 left.1 up.1 corner.1, median3 left.2 up.2 corner.2)

/-- The vectors of a picture's 16×16 blocks in raster order; `prev` those of the previous picture. -/
def Search.run (k : Search) (prev : List Vec) : List Vec :=
  let cols := ceilDiv k.s1.w 16
  let old := prev.toArray
  ((List.range (cols * ceilDiv k.s1.h 16)).foldl (fun (got : Array Vec) n =>
    got.push (k.block (16 * (n % cols)) (16 * (n / cols)) (old.getD n (0, 0)) (medianPred cols got n))) #[]).toList

/-- A composed picture's luma sample at an encode's depth (R285). -/
def encSample (depth : Nat) (c : CPic) (x y : Nat) : Nat :=
  let v := (compSample c 0 x y).toNat
  if depth = 8 then min ((v + 2) / 4) 255 else v

/-- The search of a composed picture against the reconstruction of number `ref`. -/
def searchOf (cfg : EncCfg) (base qp : Nat) (c : CPic) (ref : Nat) : Search :=
  let s1 := planeOf c.width c.height (encSample cfg.depth c)
  let r1 := planeOf c.width c.height fun x y => (Content.coded ref).at_ cfg.depth 0 x y
  ⟨s1, s1.half, s1.half.half, r1, r1.half, r1.half.half, ref, cfg, base, qp⟩

/-- A vector as two numbers. -/
def vecCode (v : Vec) : List Nat := [(v.1 + 2 ^ 16).toNat, (v.2 + 2 ^ 16).toNat]

end Sys2Proof.Machine
end

