-- ==== Sys2Proof/Machine/Enc.lean ====
section
/-! DEFINITION. Encode sessions, the receiver buffer model, rate control and output (spec/11_encode_rate_control.md). -/
namespace Sys2Proof.Machine

/-! ## The model's constants (R289 to R291) -/

/-- R, Bsig, D and Bm of a session. -/
def EncCfg.rate (c : EncCfg) : Nat := 64 * c.maxRate
def EncCfg.bsig (c : EncCfg) : Nat := 1024 * c.buffer
def EncCfg.delay (c : EncCfg) : Nat := 90000 * c.bsig / c.rate
def EncCfg.bm (c : EncCfg) : Nat := c.delay * c.rate / 90000

/-- The steering rate as admitted: max_rate with CBR. -/
def EncCfg.steer (c : EncCfg) : Nat := if c.cbr then c.rate else 64 * c.target

/-- The bits that picture `k` drains. -/
def EncCfg.drain (c : EncCfg) (f k : Nat) : Nat := (k + 1) * c.rate / f - k * c.rate / f

/-- P, the rows of a picture; its columns. -/
def encRows (codec h : Nat) : Nat := if codec = 0 then ceilDiv h 16 else ceilDiv h 64
def encCols (codec w : Nat) : Nat := if codec = 0 then ceilDiv w 16 else ceilDiv w 64

/-- The bits of a forced row. -/
def skipRow (codec w : Nat) : Nat := (if codec = 0 then 2 else 4) * encCols codec w
def flatRow (codec w : Nat) : Nat := (if codec = 0 then 6 else 16) * encCols codec w

/-- M_skip and M_flat. -/
def mSkip (codec w h : Nat) : Nat := 512 + encRows codec h * skipRow codec w + 512
def mFlat (codec w h : Nat) : Nat := 2048 + encRows codec h * flatRow codec w + 512

/-! ## Levels (R281 check 6; the tables of the codec specifications, log entry 35) -/

/-- H.264 Table A-1: macroblocks per second, frame size in macroblocks, bit rate and buffer in units of cpbBrNalFactor. -/
def h264Level (l : Nat) : Option (Nat × Nat × Nat × Nat) :=
  match l with
  | 10 => some (1485, 99, 64, 175)
  | 11 => some (3000, 396, 192, 500)
  | 12 => some (6000, 396, 384, 1000)
  | 13 => some (11880, 396, 768, 2000)
  | 20 => some (11880, 396, 2000, 2000)
  | 21 => some (19800, 792, 4000, 4000)
  | 22 => some (20250, 1620, 4000, 4000)
  | 30 => some (40500, 1620, 10000, 10000)
  | 31 => some (108000, 3600, 14000, 14000)
  | 32 => some (216000, 5120, 20000, 20000)
  | 40 => some (245760, 8192, 20000, 25000)
  | 41 => some (245760, 8192, 50000, 62500)
  | 42 => some (522240, 8704, 50000, 62500)
  | 50 => some (589824, 22080, 135000, 135000)
  | 51 => some (983040, 36864, 240000, 240000)
  | _ => none

/-- AV1's level table, Main tier: picture size, width, height, display rate, bits per second. -/
def av1Level (l : Nat) : Option (Nat × Nat × Nat × Nat × Nat) :=
  match l with
  | 0 => some (147456, 2048, 1152, 4423680, 1500000)
  | 1 => some (278784, 2816, 1584, 8363520, 3000000)
  | 4 => some (665856, 4352, 2448, 19975680, 6000000)
  | 5 => some (1065024, 5504, 3096, 31950720, 10000000)
  | 8 => some (2359296, 6144, 3456, 70778880, 12000000)
  | 9 => some (2359296, 6144, 3456, 141557760, 20000000)
  | 12 => some (8912896, 8192, 4352, 267386880, 30000000)
  | 13 => some (8912896, 8192, 4352, 534773760, 40000000)
  | _ => none

/-- Size, rate and buffer within the level. -/
def levelOk (c : EncCfg) (w h f : Nat) : Bool :=
  if c.codec = 0 then
    match h264Level c.level with
    | none => false
    | some (mbps, fs, br, cpb) =>
      let mw := ceilDiv w 16
      let mh := ceilDiv h 16
      let k := if c.profile = 2 then 1500 else 1200
      decide (mw * mh ≤ fs) && decide (mw * mw ≤ 8 * fs) && decide (mh * mh ≤ 8 * fs) && decide (mw * mh * f ≤ mbps)
        && decide (c.rate ≤ br * k) && decide (c.bsig ≤ cpb * k) && decide (w ≤ 4096) && decide (h ≤ 2304)
  else
    match av1Level c.level with
    | none => false
    | some (size, mw, mh, disp, bps) =>
      decide (w * h ≤ size) && decide (w ≤ mw) && decide (h ≤ mh) && decide (w * h * f ≤ disp) && decide (c.rate ≤ bps)
        && decide (c.bsig ≤ bps)

/-! ## Placement (R283) -/

/-- The encode windows of a canvas's schedule. -/
def Canvas.encWindows (x : Canvas) : List (Nat × Nat × Nat) :=
  tickWindows x.start x.fps (compBlocks x.width x.height) (encBlocks x.width x.height) (x.width * x.height)

/-- The encode windows of the sessions on an engine. -/
def engineWindows (t : Nat) (s : State) : List (Nat × Nat × Nat) :=
  ((s.vid.encs.filter fun p => decide (p.2.tile = t) && p.2.stop.isNone).filterMap fun p =>
    (tfind s.vid.canvas (p.1 % 256)).map Canvas.encWindows).flatten

/-- The encode engine of a Bay for a session of a canvas. -/
def encEngine (bay : Nat) (x : Canvas) (s : State) : Option Nat :=
  argMax (((bayTiles bay).filter fun t => tileIn t s && decide (encLoad t s + x.px ≤ 250000000) &&
    feasible 125000 (x.encWindows ++ engineWindows t s)).map fun t => (t, -(encLoad t s : Int)))

def encPlace (x : Canvas) (s : State) : Option (Nat × Nat) :=
  (bayOrder x.comp).findSome? fun b =>
    if fits x.ring b (chargeOf 2 x.px) s then (encEngine b x s).map fun t => (b, t) else none

/-! ## Admission (R280 to R282, R288) -/

def encPut (id : Nat) (x : Enc) (s : State) : State := { s with vid := { s.vid with encs := tset s.vid.encs id x } }

/-- Reconstruction buffers and the bytes of each (R282). -/
def reconCount (codec : Nat) : Nat := if codec = 0 then 2 else 3
def reconSize (w h : Nat) : Nat :=
  surfaceSize w h + roundUp (16384 + 8 * (ceilDiv w 8 * ceilDiv h 8) + ceilDiv w 2 * ceilDiv h 2 + ceilDiv w 4 * ceilDiv h 4) granule

def EncLast.init : EncLast := ⟨0, false, false, false, false, false, 0, 0, 0⟩

/-- A session opened at boundary `b`, or CAPACITY's reason. -/
def encOpen (id : Nat) (cfg : EncCfg) (roi : List Roi) (x : Canvas) (b : Nat) (s : State) : Except Nat State :=
  match encPlace x s with
  | none => .error 0
  | some (bay, tile) =>
    match poolTakeN (reconCount cfg.codec) x.ring 3 (reconSize x.width x.height) s with
    | none => .error 1
    | some (bases, s) => match poolTake x.ring 3 granule s with
      | none => .error 1
      | some (area, s) =>
        let e : Enc := ⟨x.ring, bay, tile, x.px, cfg, [], roi, 0, 0, 0, [(stampSub b 1, true)], none, 0, [], bases ++ [area], none, [], EncLast.init, false, 0, [], 0, [], b⟩
        .ok (tileSync tile (chargeUp x.ring bay (chargeOf 2 x.px) (encPut id e s)))

/-- The arguments of ENCODE_ADMIT. -/
def encArgs (c : Cmd) : EncCfg :=
  let fl := carg c 0x1B 1
  let cbr := bit fl 1
  ⟨carg c 0x18 1, carg c 0x19 1, carg c 0x1A 1, cbr, bit fl 4, carg c 0x1C 1, carg c 0x1D 1, carg c 0x1E 2, carg c 0x20 4,
    if cbr then carg c 0x20 4 else carg c 0x24 4, carg c 0x28 2, carg c 0x2A 1, carg c 0x2B 1, carg c 0x2C 2⟩

/-- Field ranges of ENCODE_ADMIT. -/
def encRange (c : Cmd) : Bool :=
  let a := encArgs c
  let qp := if a.codec = 0 then decide (a.maxQp ≤ 51) else decide (1 ≤ a.minQp)
  a.codec ≤ 1 && a.profile ≤ (if a.codec = 0 then 2 else 0) && (a.depth = 8 || (a.depth = 10 && a.codec = 1)) && carg c 0x1B 1 < 32
    && (if a.codec = 0 then within 10 51 a.level else decide (a.level ≤ 13)) && within 1 3 a.tlayers && 1 ≤ a.maxRate
    && carg c 0x24 4 ≤ a.maxRate && qp && a.minQp ≤ a.maxQp && within 256 1400 a.pktMax && carg c 0x2E 2 = 0 && carg c 0x38 8 = 0
    && carg c 0x30 8 % 64 = 0

/-- A MODIFY keeps what R281's check 4 names. -/
def encFixed (a b : EncCfg) : Bool :=
  decide ((a.codec, a.profile, a.depth, a.level, a.tlayers) = (b.codec, b.profile, b.depth, b.level, b.tlayers))
    && decide ((a.maxRate, a.buffer, a.cbr, a.pktMax) = (b.maxRate, b.buffer, b.cbr, b.pktMax))

def roiOf (b : List Byte) : Roi := ⟨le b 0 2, le b 2 2, le b 4 2, le b 6 2, toS 8 (le b 8 1), bit (le b 9 1) 0⟩

/-- A ROI entry's ranges. -/
def roiOk (b : List Byte) : Bool := decide ((roiOf b).delta.natAbs ≤ 15) && decide (le b 9 1 ≤ 1) && allZero (slice b 10 6)

/-- The model checks of R281's order 7. -/
def modelOk (a : EncCfg) (w h f : Nat) : Bool :=
  decide (mSkip a.codec w h ≤ a.rate / f) && decide (mFlat a.codec w h ≤ a.bm) && decide (2 * ceilDiv a.rate f ≤ a.bm)

/-- ENCODE_ADMIT at boundary `b` (R281); `d` is the ROI table as fetched (R288). -/
def applyEncodeAdmit (c : Cmd) (d : Option (List Byte)) (b : Nat) (s : State) : State × Option Rsp :=
  let id := c.target
  let a := encArgs c
  let fl := carg c 0x1B 1
  let bad := fun (n : Nat) => (s, some (rspFail stBadArg n))
  if 1024 ≤ id then (s, some (rspErr stBadId))
  else if !owns c.fn 4 (id % 256) s then (s, some (rspErr stNotOwned))
  else match liveCanvas (id % 256) s with
    | none => (s, some (rspErr stBadState))
    | some x =>
      let cur := (tfind s.vid.encs id)
      let live := cur.any fun e => e.stop.isNone
      if (bit fl 0) != live || (!bit fl 0 && cur.isSome) then (s, some (rspErr stBadState))
      else if !encRange c then bad 2
      else if bit fl 0 && !(cur.any fun e => encFixed e.cfg a) then bad 5
      else if 90000 % x.fps ≠ 0 then bad 6
      else if !bit fl 0 && (250000000 < x.px || !levelOk a x.width x.height x.fps) then bad 3
      else if !bit fl 0 && !modelOk a x.width x.height x.fps then bad 4
      else match d with
      | none => (s, some (rspFail stFailed 7))
      | some t =>
        let es := (List.range (t.length / 16)).map fun i => slice t (16 * i) 16
        let roi := if bit fl 3 then some [] else if bit fl 2 then some (es.map roiOf) else none
        if !es.all roiOk then bad 2
        else match cur with
          | some e => (encPut id { e with next := e.next ++ [(b, a, roi)] } s, some rspOk)
          | none => match encOpen id a (roi.getD []) x b s with
            | .error n => (s, some (rspFail stCapacity n))
            | .ok s =>
              let s := (List.range 10).foldl (fun s i => { s with cnt := terase s.cnt (encCnt id (8 * i)) }) s
              (s, some rspOk)

/-- A stopped session whose pictures are all sent is gone; its buffers are free. -/
def encFinish (id : Nat) (s : State) : State :=
  match tfind s.vid.encs id with
  | none => s
  | some e =>
    if e.stop.isSome && e.pics.isEmpty then
      tileSync e.tile (e.bases.foldl (fun s a => poolFree a none s) (drainForget 2 id { s with vid := { s.vid with encs := terase s.vid.encs id } }))
    else s

/-- A session stopped at boundary `b`: its charge returned. -/
def encStop (id b : Nat) (e : Enc) (s : State) : State :=
  let s := chargeDown e.ring e.bay (chargeOf 2 e.px) (encPut id { e with stop := some b, px := 0 } s)
  encFinish id (tileSync e.tile s)

def applyEncodeRelease (c : Cmd) (b : Nat) (s : State) : State × Option Rsp :=
  let id := c.target
  if 1024 ≤ id then (s, some (rspErr stBadId))
  else if !owns c.fn 4 (id % 256) s then (s, some (rspErr stNotOwned))
  else match tfind s.vid.encs id with
    | none => (s, some (rspErr stBadState))
    | some e =>
      if e.stop.isSome then (s, some (rspErr stBadState))
      else if !czero c 0x18 then (s, some (rspErr stBadArg))
      else (encStop id b e s, some rspOk)

/-! ## Key requests (R294) -/

/-- The first canvas tick at or after block `b`, of those around the next one. -/
def tickFrom (x : Canvas) (b : Nat) : Nat := (((List.range 3).map fun i => x.tick (x.k - 1 + i)).find? fun t => stampGe t b).getD b

/-- A request made in block `q`; one that the 400-block gap keeps from the first picture it could have is counted. -/
def keyRequest (id q : Nat) (key : Bool) (s : State) : State :=
  match tfind s.vid.encs id with
  | none => s
  | some e =>
    let first := match tfind s.vid.canvas (id % 256) with
      | some x => tickFrom x (stampAdd q 1)
      | none => stampAdd q 1
    let held := match e.lastReq with
      | some t => stampAfter (stampAdd t 400) first
      | none => false
    let s := encPut id { e with reqs := e.reqs ++ [(q, key)] } s
    if held then cinc (encCnt id 0x38) s else s

def applyKeypicRequest (c : Cmd) (b : Nat) (s : State) : State × Option Rsp :=
  let id := c.target
  if 1024 ≤ id then (s, some (rspErr stBadId))
  else if !owns c.fn 4 (id % 256) s then (s, some (rspErr stNotOwned))
  else match tfind s.vid.encs id with
    | none => (s, some (rspErr stBadState))
    | some e =>
      if 1 < carg c 0x18 1 || !czero c 0x19 then (s, some (rspErr stBadArg))
      else if e.stop.isSome then (s, some (rspErr stBadState))
      else (keyRequest id b (carg c 0x18 1 = 1) s, some rspOk)

/-! ## Starting a picture (R284, R286, R291, R293) -/

/-- The temporal id at a place of the pattern. -/
def temporalId (t n : Nat) : Nat :=
  match t with
  | 1 => 0
  | 2 => n % 2
  | _ => [0, 2, 1, 2].getD (n % 4) 0

/-- The weights of R291: w of a temporal id, and w̄. -/
def temporalWeight (t id : Nat) : Nat :=
  match t with
  | 1 => 1
  | 2 => if id = 0 then 4 else 2
  | _ => if id = 0 then 6 else if id = 1 then 4 else 3
def meanWeight (t : Nat) : Nat := if t = 1 then 1 else if t = 2 then 3 else 4

/-- The session whose head picture an engine starts next: composed, the earliest window end, the lower encode id on a tie. -/
def nextEncode (tile : Nat) (s : State) : Option Nat :=
  let l := (s.vid.encs.filter fun p => decide (p.2.tile = tile)).filterMap fun p =>
    match p.2.pics, tfind s.vid.canvas (p.1 % 256) with
    | q :: _, some x =>
      if !q.on && x.done.any fun c => decide (c.tick = q.tick) then
        some (p.1, stampAdd q.tick (compBlocks x.width x.height + encBlocks x.width x.height))
      else none
    | _, _ => none
  (l.foldl (fun m p => match m with
    | none => some p
    | some q => if stampLt p.2 q.2 then some p else some q) none).map (·.1)

/-- The settings in force for a picture of tick `t`: changes made at or before it. -/
def Enc.settle (e : Enc) (t : Nat) : Enc :=
  e.next.foldl (fun e n => if stampGe t n.1 then { e with cfg := n.2.1, roi := n.2.2.getD e.roi, next := e.next.drop 1 } else e) e

/-- The steering rate for a picture of tick `t` (R281, R291). -/
def Enc.steer (e : Enc) (t : Nat) : Nat :=
  match e.cfg.adapt, e.adaptRate.find? fun p => stampGe t (stampAdd p.1 1) with
  | true, some p => min e.cfg.steer p.2
  | _, _ => e.cfg.steer

/-- An estimate of block `b` noted, newest first: of the older ones those stay that a picture of tick `t` or later may go by. -/
def Enc.estimate (e : Enc) (b r t : Nat) : Enc :=
  let old := fun (p : Nat × Nat) => stampGe t (stampAdd p.1 1)
  let l := (b, r) :: e.adaptRate
  { e with adaptRate := l.takeWhile (fun p => !old p) ++ (l.find? old).toList }

/-- The requests that a picture of tick `t` serves. -/
def Enc.served (e : Enc) (t : Nat) : List (Nat × Bool) :=
  let gap := match e.lastReq with
    | some a => stampGe t (stampAdd a 400)
    | none => true
  if gap then e.reqs.filter fun r => stampGe t (stampAdd r.1 1) else []

/-- The kind of picture due: 1 key, 2 switch, 0 inter. -/
def Enc.kindDue (e : Enc) (t : Nat) : Nat :=
  let req := e.served t
  if (e.cfg.keyInt ≠ 0 && e.cfg.keyInt ≤ e.since) || req.any (·.2) || (!req.isEmpty && e.cfg.codec = 1) then 1
  else if req.isEmpty then 0 else 2

/-- The target of a picture (R291). -/
def encTarget (e : Enc) (x : Canvas) (kind tid t : Nat) : Int :=
  let c := e.cfg
  let room : Int := (c.bm : Int) - e.e
  let cn := room - 512
  let rt := e.steer t
  if kind = 0 then
    let w := temporalWeight c.tlayers tid
    let aim : Int := (rt * w / (x.fps * meanWeight c.tlayers) : Nat) + (((c.bm / 4 : Nat) : Int) - e.e).fdiv 8
    min (max aim (mSkip c.codec x.width x.height)) cn
  else max (min (8 * (rt / x.fps) : Nat) ((3 * cn).fdiv 4)) (mFlat c.codec x.width x.height)

/-- The head picture of a session started on its engine; one started again after a fault keeps what was chosen for it (R297). -/
def encodeStart (id : Nat) (e0 : Enc) (x : Canvas) (q : EncPic) (s : State) : State :=
  if q.begun then encPut id { e0 with pics := { q with on := true } :: e0.pics.drop 1 } s
  else
  let e := e0.settle q.tick
  let due := e.kindDue q.tick
  let room := e.cfg.bm - e.e
  let defer := due ≠ 0 && room < mFlat e.cfg.codec x.width x.height
  let kind := if defer then 0 else due
  let tid := if kind = 1 then 0 else temporalId e.cfg.tlayers e.since
  let target := if defer then (mSkip e.cfg.codec x.width x.height : Int) else encTarget e x kind tid q.tick
  let served := if kind = 0 then [] else e.served q.tick
  let e1 : Enc := { e with
    pics := ⟨q.tick, true, true, kind, tid, target, room, served, e.lastReq⟩ :: e.pics.drop 1
    deferred := if defer then e.deferred + 1 else 0
    reqs := e.reqs.filter fun r => !served.contains r
    lastReq := if served.isEmpty then e.lastReq else some q.tick }
  let s := encPut id e1 s
  if defer then raiseObj EV_ENC_KEY_DEFERRED e.ring 4 (id % 256) e1.deferred (cinc (encCnt id 0x30) s) else s

/-! ## Rows and the ceiling (R288, R292) -/

/-- The bits after each row and the forced rows: a row that breaks the ceiling is discarded, and it and every later row are forced. -/
def rowRun (rows forced : List Nat) (left sRow ceil u : Nat) (clamped : Bool) (n : Nat) : Nat × Nat :=
  match left with
  | 0 => (u, n)
  | k + 1 =>
    let r := rows.headD 0
    let f := min sRow (forced.headD sRow)
    if !clamped && decide (u + r + k * sRow ≤ ceil) then rowRun (rows.drop 1) (forced.drop 1) k sRow ceil (u + r) false n
    else rowRun (rows.drop 1) (forced.drop 1) k sRow ceil (u + f) true (n + 1)

/-- The ROI entry of a block: the lowest-numbered valid region that its rectangle meets. -/
def roiAt (l : List Roi) (x y size : Nat) : Int :=
  match l.find? fun r => r.valid && decide (r.x < x + size) && decide (x < r.x + r.w) && decide (r.y < y + size) && decide (y < r.y + r.h) with
  | some r => r.delta
  | none => 0

/-- A block's quantiser from its row's: the delta of its region, clamped (R288). -/
def blockQp (c : EncCfg) (roi : List Roi) (rowQp x y : Nat) : Nat :=
  let d := roiAt roi x y (if c.codec = 0 then 16 else 64)
  (clampI c.minQp c.maxQp ((rowQp : Int) + (if c.codec = 0 then d else 4 * d))).toNat

/-! ## Output (R295) -/

/-- The fragments of a payload. -/
def fragments (fuel n : Nat) (l : List Nat) : List (List Nat) :=
  match fuel with
  | 0 => []
  | f + 1 => if l.isEmpty then [] else l.take n :: fragments f n (l.drop n)

/-- The RTP payloads of one NAL unit (RFC 6184): a single NAL unit packet, or FU-A fragments. -/
def nalPackets (pktMax : Nat) (nal : List Nat) : List (List Nat) :=
  if nal.length ≤ pktMax then [nal]
  else
    let h := nal.headD 0
    let fs := fragments nal.length (pktMax - 2) (nal.drop 1)
    (fs.zip (List.range fs.length)).map fun p =>
      [h / 32 * 32 + 28, 128 * b2n (decide (p.2 = 0)) + 64 * b2n (decide (p.2 + 1 = fs.length)) + h % 32] ++ p.1

/-- The RTP payloads of one OBU element (the AV1 payload format): an aggregation header with one element each. -/
def obuPackets (pktMax : Nat) (first : Bool) (obu : List Nat) : List (List Nat) :=
  let fs := fragments obu.length (pktMax - 1) obu
  (fs.zip (List.range fs.length)).map fun p =>
    [128 * b2n (decide (0 < p.2)) + 64 * b2n (decide (p.2 + 1 < fs.length)) + 16 + 8 * b2n (first && decide (p.2 = 0))] ++ p.1

/-- The settings of an encode as a list. -/
def EncCfg.code (c : EncCfg) : List Nat :=
  [c.codec, c.profile, c.depth, b2n c.cbr, c.level, c.tlayers, c.maxRate, c.buffer, c.minQp, c.maxQp]

/-- The units of a picture: sizes in bytes to bytes. -/
def unitBytes (sizes : List Nat) (cfg code refs : List Nat) : List (List Nat) :=
  (sizes.foldl (fun (a : List (List Nat) × Nat) n =>
    (a.1 ++ [(List.range n).map fun i => Config.encByte cfg code refs (a.2 + i) % 256], a.2 + n)) (([] : List (List Nat)), 0)).1

/-- The header extension of an encoded packet for its egress context. -/
def encExt (out : Stream) (cfg : EncCfg) (kind tid n tw : Nat) (first last : Bool) : List Nat :=
  let el := fun (i : Nat) (l : List Nat) => if out.ext.getD i 0 = 0 || l.isEmpty then [] else [(out.ext.getD i 0, l)]
  let mark := Config.encMark [cfg.codec, cfg.tlayers, kind, tid, n, b2n first, b2n last]
  extBytes (el 1 (toNats (trimZeros out.mid)) ++ el 4 (beNats 2 (tw % 65536))
    ++ (if cfg.codec = 1 then (if first then el 5 mark else []) else el 6 mark))

/-- One encoded packet queued for its receiving leg. -/
def encPacket (n : Nat) (out : Stream) (cfg : EncCfg) (kind tid k ts : Nat) (first last : Bool) (body : List Nat) (b : Nat) (s : State) :
    State :=
  let tw := ((tfind s.egr.legs n).map EgrLeg.twNext).getD 0
  let named := decide (out.ext.getD 4 0 ≠ 0)
  let s := match tfind s.egr.legs n with
    | some g => if named then egrLegPut n { g with twNext := tw + 1 } s else s
    | none => s
  egrMedia n 1 ts last (encExt out cfg kind tid k tw first last) body (if named then some (tw % 65536) else none) b s

/-- The payloads of a picture sent to a leg that the fallback serves: its egress changes to the transcoded stream at the first key picture
(R314); the timestamp offset is set at the change (R315). -/
def encSend (id n : Nat) (e : Enc) (q : EncPic) (pays : List (List Nat)) (b : Nat) (s : State) : State :=
  let x := fwdLeg n s
  match x.fall, egrContexts n 1 s with
  | .openAt b0 active, oid :: _ =>
    if x.cur.isSome || (!active && q.kind = 0) then s
    else match tfind s.ctl.streams oid with
      | none => s
      | some out =>
        let ts := 45 * q.tick % 2 ^ 32
        let r := rewriteUnit 1 (stampSub b 1) (2 ^ 32 + id) ts (e.count % 65536, 0, 0) x.rw
        let r := { r with lastOut := some ((ts + r.off) % 2 ^ 32, stampSub b 1), picLast := (e.count + r.picOff) % 65536 }
        let s := fwdLegPut n { x with fall := .openAt b0 true, rw := r } s
        let s := if active then s else layerSwitch n none none true s
        (pays.zip (List.range pays.length)).foldl (fun s p =>
          encPacket n out e.cfg q.kind q.tid e.count (ts + r.off) (decide (p.2 = 0)) (decide (p.2 + 1 = pays.length)) p.1 b s) s
  | _, _ => s

/-- The payloads of a picture's units. -/
def encPayloads (cfg : EncCfg) (units : List (List Nat)) : List (List Nat) :=
  if cfg.codec = 0 then (units.map (nalPackets cfg.pktMax)).flatten
  else ((units.zip (List.range units.length)).map fun p => obuPackets cfg.pktMax (decide (p.2 = 0)) p.1).flatten

/-! ## Completing a picture (R289, R290, R292, R297) -/

/-- The filler in bytes that a deficit of bits takes: the smallest filler unit has two bytes. -/
def fillerBytes (deficit : Nat) : Nat := if deficit = 0 then 0 else max 2 (ceilDiv deficit 8)

/-- The references of a picture of temporal id `tid` (R285, R286): the most recent picture of an id at or below it; for AV1 also the most recent key
picture. A key picture and a switch picture have none. -/
def Enc.refsFor (e : Enc) (kind tid : Nat) : List Nat :=
  if kind ≠ 0 then []
  else (((e.refs.find? fun r => decide (r.1 ≤ tid)).map (·.2)).getD 0) :: if e.cfg.codec = 1 then [e.gold] else []

/-- The references that later pictures have after one of reconstruction `n`: a picture of the top temporal layer is never one (R286). -/
def Enc.refer (e : Enc) (kind tid n : Nat) : Enc :=
  if kind = 1 then { e with
    refs := [(0, n)]
    gold := n }
  else if 1 < e.cfg.tlayers && tid + 1 = e.cfg.tlayers then e
  else { e with refs := (tid, n) :: e.refs.filter fun r => decide (r.1 ≠ tid) }

/-- The settings of a picture as a list: of the session, of its regions. -/
def Enc.code (e : Enc) (kind tid : Nat) : List Nat :=
  e.cfg.code ++ [kind, tid, e.roi.length] ++ (e.roi.map fun r => [r.x, r.y, r.w, r.h, (r.delta + 128).toNat, b2n r.valid]).flatten

/-- The vectors of a picture against each of its references. -/
def Enc.search (e : Enc) (o : EncOut) (pic : Option CPic) (refs : List Nat) : List (List Vec) :=
  match pic with
  | none => []
  | some c => refs.map fun r => (searchOf e.cfg o.base o.qp c r).run e.motion

/-- The session after picture n of `bits` bits, filler included. -/
def Enc.after (e : Enc) (f bits : Nat) (kind : Nat) : Enc :=
  let a := e.e + bits
  { e with
    e := a - e.cfg.drain f e.count
    count := e.count + 1
    since := if kind = 1 then 1 else e.since + 1
    pics := e.pics.drop 1
    sent := true }

/-- The picture on a session's engine completes. -/
def encodeComplete (id : Nat) (e : Enc) (x : Canvas) (q : EncPic) (o : EncOut) (s : State) : State :=
  let c := e.cfg
  let rows := encRows c.codec x.height
  let sRow := if q.kind = 0 then skipRow c.codec x.width else flatRow c.codec x.width
  let head := min (if q.kind = 0 then 512 else 2048) o.header
  let ceil := q.room - 512
  let r := rowRun o.rows o.forced rows sRow ceil head false 0
  let size := min (ceilDiv (r.1 + min 512 o.closing) 8) (q.room / 8)
  let deficit := if c.cbr then c.drain x.fps e.count - (e.e + 8 * size) else 0
  let fill := fillerBytes deficit
  let total := size + fill
  let head' := o.units.foldl (fun (a : List Nat × Nat) n => if n ≤ a.2 then (a.1 ++ [n], a.2 - n) else a) (([] : List Nat), size)
  let sizes := (head'.1 ++ [head'.2] ++ (if fill = 0 then [] else [fill])).filter fun n => decide (0 < n)
  let pic := x.done.find? fun p => decide (p.tick = q.tick)
  let code := (pic.map cpicCode).getD []
  let refs := e.refsFor q.kind q.tid
  let fields := e.search o pic refs
  let cfg := e.code q.kind q.tid ++ [o.qp, o.base, o.header, o.closing, r.2] ++ o.rows ++ o.forced ++ (fields.map fun f => (f.map vecCode).flatten).flatten
  let pays := encPayloads c (unitBytes sizes cfg code refs)
  let recon := Config.encRecon cfg code refs
  let b := stampAdd q.tick (compBlocks x.width x.height + encBlocks x.width x.height)
  let s := match encLeg id s with
    | some n => if 0 < r.2 then degraded n (encSend id n e q pays b s) else encSend id n e q pays b s
    | none => s
  let e1 := (e.after x.fps (8 * total) q.kind).refer q.kind q.tid recon
  let e1 := { e1 with
    motion := fields.headD []
    last := ⟨8 * total, decide (q.kind = 1), decide (q.kind = 2), decide (0 < r.2), false, decide (fill ≠ 0), q.tid, r.2, o.qp⟩ }
  let s := encPut id e1 s
  let s := cadd (encCnt id 8) (8 * total) (cinc (encCnt id 0) s)
  let s := if q.kind = 1 then cinc (encCnt id 0x10) s else if q.kind = 2 then cinc (encCnt id 0x18) s else s
  let s := cadd (encCnt id 0x40) (8 * fill) (cadd (encCnt id 0x28) r.2 s)
  let t := 0x500080 + 0x4000 * e.tile
  let s := cinc (t + 0x18) (cadd (t + 8) (x.width * x.height) (cinc t s))
  let s := if q.kind = 0 then s
    else raiseObj EV_ENC_KEY_SENT e.ring 4 (id % 256) (q.tick + 2 ^ 48 * b2n (decide (q.kind = 2)) + 2 ^ 49 * b2n (decide (q.kind = 1))) s
  let s := if r.2 = 0 then s
    else
      let s := cinc (t + 0x28) (cinc (encCnt id 0x20) s)
      match rateOk (rateKey EV_ENC_TAIL_CLAMPED id) 2000 s with
      | (true, s) => raiseObj EV_ENC_TAIL_CLAMPED e.ring 4 (id % 256) (e1.clamps + 1) (encPut id { e1 with clamps := 0 } s)
      | (false, s) => encPut id { e1 with clamps := e1.clamps + 1 } s
  encFinish id (canvasTrim (id % 256) (tileSync e.tile s))

/-- A repeat picture sent in place of the head picture of a session (R296): `bytes` is its size. The requests that the picture was to serve are
pending again. -/
def repeatPicture (id bytes : Nat) (e0 : Enc) (x : Canvas) (q : EncPic) (s : State) : State :=
  let e := e0.settle q.tick
  let input := x.done.any fun c => decide (c.tick = q.tick)
  let size := min bytes (mSkip e.cfg.codec x.width x.height / 8)
  let fill := fillerBytes (if e.cfg.cbr then e.cfg.drain x.fps e.count - (e.e + 8 * size) else 0)
  let tid := if q.on then q.tid else temporalId e.cfg.tlayers e.since
  let pays := encPayloads e.cfg (unitBytes (size :: if fill = 0 then [] else [fill]) (e.code 3 tid) [] (e.refsFor 0 tid))
  let b := stampAdd q.tick (compBlocks x.width x.height + encBlocks x.width x.height)
  let s := match encLeg id s with
    | some n => degraded n (encSend id n e { q with kind := 0, tid := tid } pays b s)
    | none => s
  let e1 := e.after x.fps (8 * (size + fill)) 0
  let e1 := if q.begun then { e1 with
      reqs := q.served ++ e1.reqs
      lastReq := q.was } else e1
  let s := encPut id { e1 with last := ⟨8 * (size + fill), false, false, false, true, decide (fill ≠ 0), tid, 0, 0⟩ } s
  let s := cadd (encCnt id 0x40) (8 * fill) (cinc (encCnt id 0x48) (cadd (encCnt id 8) (8 * (size + fill)) s))
  let s := if input then tileAdd e.tile 0xA0 1 s else s
  let s := match encLeg id s with
    | some n => (match tfind s.ctl.legs n with
      | some l => determinismLost l.act 4 s
      | none => s)
    | none => s
  let s := raiseObj EV_ENC_PICTURE_MISSED e.ring 4 (id % 256) (q.tick + 2 ^ 48 * b2n input) s
  encFinish id (canvasTrim (id % 256) (tileSync e.tile s))

end Sys2Proof.Machine
end

