-- ==== Sys2Proof/Machine/Fall.lean ====
section
/-! DEFINITION. The transcode fallback (spec/12_layer_forwarding.md R313, R314; spec/13_big_top_composition.md R334) and the
forwarder's block. -/
namespace Sys2Proof.Machine

/-! ## Opening (R314, R334) -/

/-- The largest admissible frame rate at or below `n`. -/
def fallFps (n : Nat) : Nat :=
  (((List.range 61).filter fun f => decide (1 ≤ f) && decide (f ≤ n) && decide (90000 % f = 0)).getLast?).getD 0

/-- The context of a source's highest encoding. -/
def topCtx (src : Nat) (s : State) : Option Nat := (srcCtxs src s).getLast?

/-- The one layer of a fallback canvas. -/
def fallLayout (ctx w h : Nat) : Layout :=
  ⟨[⟨1, true, 255, 0xFF, ctx, [0, 0, 0, 0], 0, 0, w, h, 0, 0, 0, [0, 0, 0]⟩], [], [], []⟩

/-- The settings of the fallback's encode: those R314 names, and free values for the rest. -/
def fallEnc (n b : Nat) (l : Leg) (s : State) : EncCfg :=
  let units := fun (k : Nat) => k * 1000 / 64
  ⟨if l.vcodec = 1 then 0 else 1, Config.fallbackEnc 0 % 3, 8, false, true, Config.fallbackEnc 1 % 64, 1 + Config.fallbackEnc 2 % 3,
    Config.fallbackEnc 3 % 65536, units l.srtpRate, units (min (fwdBudget n b s) l.srtpRate), Config.fallbackEnc 4 % 65536,
    1 + Config.fallbackEnc 5 % 51, 1 + Config.fallbackEnc 6 % 51, 256 + Config.fallbackEnc 7 % 1145⟩

/-- The fallback of a leg opened in block `b`, or the budget that does not fit: decode, then composition, then encode. -/
def fallOpen (n b src : Nat) (sub : Sub) (l : Leg) (s : State) : Except Nat State :=
  match tfind s.ctl.legs src, topCtx src s with
  | some k, some ctx =>
    let w := min k.width l.width / 8 * 8
    let h := min k.height l.height / 8 * 8
    let f := fallFps (min k.fps l.fps)
    let id := sub.canvas
    if w < 64 || h < 64 || f = 0 || (liveCanvas id s).isSome then .error 3
    else match sessUse ctx id b s with
      | .error _ => .error 1
      | .ok s =>
        let colour := (((tfind s.vid.sess ctx).bind fun v => v.outPic b).map (·.colour)).getD 0
        match canvasOpen id l.ring w h f colour (fallbackDefault s) false [64, 512, 512] 1 (some n) b s with
        | .error _ => .error 3
        | .ok s => match tfind s.vid.canvas id with
          | none => .error 3
          | some x => match canvasLayout id x (fallLayout ctx w h) b s with
            | .error _ => .error 1
            | .ok s => match tfind s.vid.canvas id with
              | none => .error 3
              | some x => match encOpen id (fallEnc n b l s) [] x b s with
                | .error _ => .error 2
                | .ok s => .ok (cinc 0x622010 (fwdLegPut n { fwdLeg n s with fall := .openAt b false } s))
  | _, _ => .error 1

/-- Whether the fallback may serve a leg: the subscription allows it, and the codecs can be transcoded (R304). -/
def fallAllowed (src : Nat) (sub : Sub) (l : Leg) (s : State) : Bool :=
  sub.transcode && (match tfind s.ctl.legs src with
    | some k => decide (k.vcodec ≠ 0) && decide (k.vcodec ≠ 3) && (decide (l.vcodec = 1) || decide (l.vcodec = 4))
    | none => false)

/-- An open tried; a refusal changes nothing and is reported (R314). -/
def fallTry (n b src : Nat) (sub : Sub) (l : Leg) (s : State) : State :=
  match fallOpen n b src sub l s with
  | .ok s => s
  | .error k => raiseObj EV_FWD_FALLBACK_REFUSED l.ring 1 n k (fwdLegPut n { fwdLeg n s with fall := .refused b } s)

/-! ## Closing -/

/-- The canvas that serves as a leg's fallback. -/
def fallCanvas (n : Nat) (s : State) : Option Nat := (tkeysWhere s.vid.canvas fun _ x => decide (x.fallback = some n)).head?

/-- A leg's canvas, decode and encode released at boundary `b`. -/
def fallClose (n b : Nat) (s : State) : State :=
  let s := match fallCanvas n s with
    | none => s
    | some id =>
      let s := match tfind s.vid.encs id with
        | some e => encStop id b { e with pics := [] } s
        | none => s
      match tfind s.vid.canvas id with
      | some x => canvasClose id x s
      | none => s
  fwdLegPut n { fwdLeg n s with fall := .none } s

/-- The fallbacks that end at boundary `b`: their leg's egress has changed back, nothing subscribes for it any more, or its source is
another member's, which has none (R455). -/
def fallBoundary (b : Nat) (s : State) : State :=
  (tkeysWhere s.fwd.legs fun _ x => (match x.fall with
    | .openAt _ _ => true
    | _ => false)).foldl (fun s n =>
      let x := fwdLeg n s
      let live := match tfind s.ctl.legs n, x.sub with
        | some l, some sub => decide (l.st = .active) && !(((fwdWanted n b sub l s).map isFar).getD false)
        | some l, none => decide (l.st = .active)
        | none, _ => false
      if live && x.cur.isNone && x.sub.isSome && decide (x.sub.map (·.canvas) = fallCanvas n s) then s else fallClose n b s) s

/-! ## A block -/

/-- The source that an open fallback shows and the estimate its encode follows, brought up to date. -/
def fallFollow (n b src : Nat) (s : State) : State :=
  match fallCanvas n s, topCtx src s with
  | some id, some ctx =>
    let s := match tfind s.vid.encs id with
      | some e =>
          let t := (e.pics.head?.map (·.tick)).getD (((tfind s.vid.canvas id).map fun x => x.tick x.k).getD b)
          encPut id (e.estimate b (1000 * fwdBudget n b s) t) s
      | none => s
    match tfind s.vid.canvas id with
    | none => s
    | some x =>
      if x.layout.streams = [ctx] then s
      else match canvasLayout id x (fallLayout ctx x.width x.height) b s with
        | .ok s => s
        | .error _ => s
  | _, _ => s

/-- The fallback of a leg in block `b`: opened where the choice has become NONE. -/
def fallRun (n b : Nat) (l : Leg) (s : State) : State :=
  let x := fwdLeg n s
  match x.sub with
  | none => s
  | some sub => match fwdWanted n b sub l s with
    | none => s
    | some src => match x.fall with
      | .openAt _ _ => fallFollow n b src s
      | .refused _ => if x.comp.isSome then fwdLegPut n { x with fall := .none } s else s
      | .none => if x.comp.isNone && fallAllowed src sub l s then fallTry n b src sub l s else s

/-- A refused open tried again (R314). -/
def fallRetry (n b : Nat) (l : Leg) (s : State) : State :=
  let x := fwdLeg n s
  match x.fall, x.sub with
  | .refused b0, some sub =>
    if stampSub b b0 < 2000 then s
    else match fwdWanted n b sub l s with
      | some src => if fallAllowed src sub l s then fallTry n b src sub l s else s
      | none => s
  | _, _ => s

/-- Forwarding of block `b` (R27): dependency check, Line Adapter, layer choice, fallback, rewrite. -/
def fwdBlock (b : Nat) (s : State) : State :=
  let u := trackBlock b s
  let legs := fwdLegs u.2
  let run := fun (f : Nat → Leg → State → State) (s : State) => legs.foldl (fun s n => match tfind s.ctl.legs n with
    | some l => f n l s
    | none => s) s
  let s := run (fun n l s => laRun n b l s) u.2
  let s := run (fun n l s => chooseLeg n b l s) s
  let s := run (fun n l s => fallRun n b l s) s
  let s := run (fun n l s => if l.unplaced then s else forwardLeg n b u.1 l s) s
  let s := run pausedLeg s
  (List.range 4).foldl (fun s bay => fset (R.FWD_UNIT_STATUS_legs bay)
    (legs.filter fun n => (fwdLeg n s).cur.isSome && (match tfind s.ctl.legs n with
      | some l => decide (l.bay = bay)
      | none => false)).length s) s

end Sys2Proof.Machine
end

