-- ==== Sys2Proof/Machine/Stage.lean ====
section
/-! DEFINITION. Staged changes (R190, R302, R453): the three groups of staging registers arm one change for each function, which takes
effect at its boundary before that function's commands. -/
namespace Sys2Proof.Machine

/-- The staging registers of a window (1 SRC, 2 FWD, 3 CAS) and function: the fields that every window has. -/
structure StageRegs where
  stamp : Fld
  armed : Fld
  collision : Fld
  late : Fld
  result : Fld
  lateness : Fld
  effect : Fld

/-- The key of a window's armed change of a function. -/
def stageKey (win : Nat) (fn : Fn) : Nat := win * 32 + fnNum fn

/-- A go: the change armed, or collision set where one is armed already (R190). -/
def stageArm (win : Nat) (fn : Fn) (r : StageRegs) (c : Staged) (s : State) : State :=
  if fon r.armed s then fset r.collision 1 s
  else fset r.armed 1 { s with src := { s.src with staged := tset s.src.staged (stageKey win fn) c } }

/-- The changes of a window that are due for a function at block `b`: stamp 0 means the first boundary. -/
def stageDue (win b : Nat) (fn : Fn) (s : State) : Option Staged :=
  match tfind s.src.staged (stageKey win fn) with
  | none => none
  | some c => if c.stamp = 0 || stampGe b c.stamp then some c else none

/-- The blocks by which a change is late (R81); 0 where it is not. -/
def stageLate (b : Nat) (c : Staged) : Nat := if c.stamp = 0 then 0 else stampSub b c.stamp

/-- A change's end: the result registers, its trace record, its event to the issuer (R190, R468). -/
def stageEnd (win b code : Nat) (fn : Fn) (r : StageRegs) (c : Staged) (res kind : Nat) (s : State) : State :=
  let n := stageLate b c
  let s := fset r.armed 0 { s with src := { s.src with staged := terase s.src.staged (stageKey win fn) } }
  let s := fset r.result res (fset r.late (b2n (decide (0 < n))) (fset r.lateness n (fset r.effect b s)))
  let s := if res = 0 then
      traceConfig 0x1182 (fnRing fn) kind c.target b (win + c.op * 256 + crc32c c.bytes * 2 ^ 32) s
    else s
  raiseIssuer fn (ev code 0 (fnRing fn) kind c.target (res + b2n (decide (0 < n)) * 16 + n % 2 ^ 32 * 2 ^ 32) s) s

end Sys2Proof.Machine
end

