-- ==== Sys2Proof/Machine/Tdm.lean ====
section
/-! DEFINITION. TDM highways and staged rate-conversion changes (spec/07_rate_conversion_tdm.md R187 to R204). -/
namespace Sys2Proof.Machine

/-! ## Ports -/

def TdmPort.init : TdmPort := ⟨[], [], [], [], 0, 0, false, false, false, false, false, [], []⟩
def tdmPort (p : Nat) (s : State) : TdmPort := tget TdmPort.init s.src.ports p
def tdmPortPut (p : Nat) (t : TdmPort) (s : State) : State := { s with src := { s.src with ports := tset s.src.ports p t } }

/-- The tdm_mode of a port (R45, R194). -/
def tdmMode (p : Nat) (s : State) : Nat := planTdmMode p s

/-- Frames in a block, slots in a frame. -/
def tdmFrames (mode : Nat) : Nat := if mode = 2 then 24 else 4
def tdmSlots (mode : Nat) : Nat := if mode = 2 then 16 else 128

def tdmRun (p : Nat) (s : State) : Bool := decide (fget (R.SRC_TDM_STATUS_state p) s = 2)

/-- Address of port counter `o`. -/
def tdmCnt (p o : Nat) : Nat := 0x241020 + 0x100 * p + o

/-- The legs bound on a port. -/
def portLegs (p : Nat) (s : State) : List Nat := tkeysWhere s.src.binds fun _ b => decide (b.port = p)

/-- A DMA channel's owner (R388): channels 28 to 31 are the Ringmaster's. -/
def dmaOwner (c : Nat) (s : State) : Nat := if 28 ≤ c then 0xF0 else fget (R.DMA_CH_CFG_owner c) s

/-- Whether a channel serves a peripheral: owned by the Ringmaster and naming it. -/
def dmaServes (c periph : Nat) (s : State) : Bool := decide (dmaOwner c s = 0xF0) && decide (fget (R.DMA_CH_CFG_periph c) s = periph)

/-- The channels a port names and the peripherals they must name: receive 2n, transmit 2n + 1 (R388, R398). -/
def portDma (p : Nat) (s : State) : List (Nat × Nat) :=
  [(fget (R.SRC_TDM_CFG_rx_dma p) s, 2 * p), (fget (R.SRC_TDM_CFG_tx_dma p) s, 2 * p + 1)]

/-- The state a port takes after a change of its settings, its clock, its pins or its DMA channels (R196, R201, R388): a faulted clock pin
is FAULT; a slave waits for its clock; a port whose channels do not serve it stays in WAIT_CLK, and they show cfg_err. -/
def tdmSettle (p : Nat) (s : State) : State :=
  let on := fon (R.SRC_TDM_CFG_enable p) s && decide (tdmMode p s ≠ 0)
  let bad := fon (R.SRC_TDM_STATUS_pin_bclk p) s || fon (R.SRC_TDM_STATUS_pin_fsync p) s
  let wrong := (portDma p s).filter fun q => !dmaServes q.1 q.2 s
  let s := if on then (portDma p s).foldl (fun s q => fset (R.DMA_CH_STATUS_cfg_err q.1) (b2n (wrong.contains q)) s) s else s
  fset (R.SRC_TDM_STATUS_state p)
    (if !on then 0 else if bad then 3 else if !wrong.isEmpty then 1
      else if fon (R.SRC_TDM_CFG_master p) s || (tdmPort p s).clk then 2 else 1) s

/-- Drops or repeats counted for a port and some of its legs, and TDM_SLIP at most once per port in 2,000 blocks (R196). -/
def tdmSlip (p n : Nat) (drop : Bool) (legs : List Nat) (s : State) : State :=
  if n = 0 then s
  else
    let s := cadd (tdmCnt p (if drop then 0x10 else 0x18)) n s
    let s := legs.foldl (fun s l => cadd (legCnt l (if drop then 0x68 else 0x70)) n s) s
    let s := if drop then legs.foldl (fun s l => match tfind s.ctl.legs l with
        | some x => determinismLost x.act 2 s
        | none => s) s
      else s
    let t := tdmPort p s
    let k := t.slips + n
    match rateOk (rateKey EV_TDM_SLIP p) 2000 s with
    | (true, s) => raiseUnit EV_TDM_SLIP (unitTdm p) k (tdmPortPut p { t with slips := 0 } s)
    | (false, s) => tdmPortPut p { t with slips := k } s

/-- A port's slot width in bits. -/
def tdmWidth (mode : Nat) : Nat := if mode = 2 then 32 else 16

/-- A frame on the pins of a port (R195): slot n takes the cycles from n × w on, most significant bit first; FSYNC, of a master, is active in
cycle 0, or with fs_delay in the last cycle of the frame, which announces the next one. -/
def tdmWave (p : Nat) (slots : Tbl Nat) (s : State) : TdmWave :=
  let w := tdmWidth (tdmMode p s)
  let master := fon (R.SRC_TDM_CFG_master p) s
  let dx := (slots.map fun q => (List.range w).map fun i => (q.1 * w + i, bit q.2 (w - 1 - i))).flatten
  let at_ := if fon (R.SRC_TDM_CFG_fs_delay p) s then tdmSlots (tdmMode p s) * w - 1 else 0
  ⟨if fon (R.SRC_TDM_STATUS_pin_dx p) s then [] else dx,
    if master then some (at_, !fon (R.SRC_TDM_CFG_fs_pol p) s) else none,
    master && fon (R.SRC_TDM_CFG_swap_out p) s⟩

/-- What a port sends in a frame: the bound transmit slots with their values: of the frame that DMA brought to the FIFO, else of the mix; where
no frame is ready, a free value in each (log entries 29, 117).  Where DX is faulted they carry zeros, and the pin is not driven (R201). -/
def tdmSend (p : Nat) (s : State) : State :=
  let t := tdmPort p s
  let w := tdmWidth (tdmMode p s)
  let bound := (portLegs p s).filterMap fun l => (tdmBind l s).map TdmBind.tx
  let put := fun (f : Nat → Nat) => bound.foldl (fun (u : Tbl Nat) n => tset u n (f n % 2 ^ w)) []
  let r := match t.fifo, t.txNow with
    | f :: rest, _ => (put fun n => f.getD n 0, tdmPortPut p { t with fifo := rest, txNow := t.txNow.drop 1 } s)
    | [], f :: rest => (f, tdmPortPut p { t with txNow := rest } s)
    | [], [] =>
      let k := takeFree s
      (put fun n => Config.tdmIdle (k.1 * 128 + n), k.2)
  let slots := if fon (R.SRC_TDM_STATUS_pin_dx p) s then r.1.map fun q => (q.1, 0) else r.1
  cinc (tdmCnt p 8) { r.2 with out := .tdm p slots (tdmWave p slots s) :: r.2.out }

/-- A received frame taken: one beyond those of a block is dropped, which a master's clock does not let happen; a frame that a serialiser fault
cost is filled with the previous frame (R196, R203). -/
def tdmTake (p : Nat) (slots : List Nat) (s : State) : State :=
  let t := tdmPort p s
  let full := decide (tdmFrames (tdmMode p s) ≤ t.rx.length)
  if full && fon (R.SRC_TDM_CFG_master p) s then s
  else
    let s := cinc (tdmCnt p 0) s
    if full then tdmSlip p 1 true (portLegs p s) (tdmPortPut p { t with frames := t.frames + 1 } s)
    else if t.takeover then
      let s := fset (R.SRC_TDM_STATUS_dup_active p) (1 - fget (R.SRC_TDM_STATUS_dup_active p) s) s
      let prev := t.rx.getLast?.getD t.last
      tdmSlip p 1 false (portLegs p s)
        (tdmPortPut p { t with rx := t.rx ++ [prev], takeover := false, frames := t.frames + 1, ready := true } s)
    else tdmPortPut p { t with rx := t.rx ++ [slots], frames := t.frames + 1, ready := true } s

/-- A block's end at a running port: missing positions filled with the frame before them, counted where the port is a slave (a master's block
holds exactly its frames), the frames to send moved on, the clock counts shown.  Answers the frames of the block. -/
def tdmBlock (p : Nat) (s : State) : List (List Nat) × State :=
  let t := tdmPort p s
  let mode := tdmMode p s
  let last := t.rx.getLast?.getD t.last
  let miss := if tdmRun p s then tdmFrames mode - t.rx.length else 0
  let frames := t.rx ++ List.replicate miss last
  let bits := t.frames * (if mode = 2 then 512 else 2048)
  let s := fset (R.SRC_TDM_CLKCNT_bclk p) bits (fset (R.SRC_TDM_CLKCNT_fsync p) t.frames s)
  let s := tdmPortPut p { t with rx := [], last := last, txNow := t.txNext, txNext := [], frames := 0 } s
  (frames, if fon (R.SRC_TDM_CFG_master p) s then s else tdmSlip p miss false (portLegs p s) s)

/-- A TDM leg's samples of a block in its input slot for block `b`, its level's sums; zeros where the port does not run or its DR pin is faulted;
the block degraded there, and where its DX pin is faulted (R196, R199, R201). -/
def tdmFeed (b p leg : Nat) (bd : TdmBind) (frames : List (List Nat)) (s : State) : State :=
  if !stampGe (stampSub b 1) bd.since then s
  else
    let mode := tdmMode p s
    let good := tdmRun p s && !fon (R.SRC_TDM_STATUS_pin_dr p) s
    let live := if good then frames.map fun f => tdmDecode mode bd.format (f.getD bd.rx 0)
      else List.replicate (tdmFrames mode) 0
    let act := (tfind s.ctl.legs leg).elim 0 Leg.act
    let xs := match repOf act s with
      | none => live
      | some (_, r) => match r.recs.find? fun x => decide (x.kind = 3) && decide (x.id = leg) && decide (x.stamp = stampSub (stampSub b 1) r.delta) with
        | some x => (List.range (tdmFrames mode)).map fun i => toS 32 (le x.body (4 * i) 4)
        | none => List.replicate (tdmFrames mode) 0
    let x := legAud leg s
    let s := legAudPut leg { x with
      slots := tset x.slots b xs
      sums := (x.sums ++ [(sumSq xs, xs.length)]).drop (x.sums.length + 1 - 40) } s
    let s := match tfind s.ctl.legs leg with
      | some l => capNote l.act ⟨3, leg, stampSub b 1, 0, 0, 0, 0, (xs.map fun v => leBytes 4 (ofS 32 v)).flatten⟩ s
      | none => s
    if good && !fon (R.SRC_TDM_STATUS_pin_dx p) s then s else degraded leg s

/-- Every port's block `b` − 1 closed and its legs fed for block `b`. -/
def tdmBlocks (b : Nat) (s : State) : State :=
  (List.range 4).foldl (fun s p =>
    if tdmMode p s = 0 then s
    else
      let r := tdmBlock p s
      (portLegs p r.2).foldl (fun s l => match tdmBind l s with
        | some bd => tdmFeed b p l bd r.1 s
        | none => s) r.2) s

/-- An egress sample list put in a leg's transmit slot for the frames of the block after this one. -/
def tdmPlace (leg : Nat) (vals : List Nat) (s : State) : State :=
  match tdmBind leg s with
  | none => s
  | some bd =>
    let t := tdmPort bd.port s
    let n := tdmFrames (tdmMode bd.port s)
    let base := t.txNext ++ List.replicate (n - t.txNext.length) []
    tdmPortPut bd.port { t with txNext := (base.zip (List.range n)).map fun f => tset f.1 bd.tx (vals.getD f.2 0) } s

/-! ## Staged changes (R189, R190, R198) -/

def srcStageRegs (fn : Fn) : StageRegs :=
  ⟨R.SRC_STAGE_STAMP_stamp fn, R.SRC_STAGE_STATUS_armed fn, R.SRC_STAGE_STATUS_collision fn, R.SRC_STAGE_STATUS_late fn,
    R.SRC_STAGE_STATUS_result fn, R.SRC_STAGE_STATUS_lateness fn, R.SRC_STAGE_EFFECT_stamp fn⟩

/-- SRC_STAGE_OP and SRC_STAGE_ARG as words. -/
def srcStageOp (fn : Fn) (s : State) : Nat := fget (R.SRC_STAGE_OP_op fn) s + fget (R.SRC_STAGE_OP_target fn) s * 4
def srcStageArg (fn : Fn) (s : State) : Nat :=
  fget (R.SRC_STAGE_ARG_select fn) s + fget (R.SRC_STAGE_ARG_port fn) s * 2 ^ 8 + fget (R.SRC_STAGE_ARG_rx_slot fn) s * 2 ^ 10
    + fget (R.SRC_STAGE_ARG_tx_slot fn) s * 2 ^ 17 + fget (R.SRC_STAGE_ARG_format fn) s * 2 ^ 24

/-- The change the SRC staging registers of a function hold. -/
def srcStaged (fn : Fn) (s : State) : Staged :=
  let st := fget (R.SRC_STAGE_STAMP_stamp fn) s
  ⟨fget (R.SRC_STAGE_OP_op fn) s, fget (R.SRC_STAGE_OP_target fn) s,
    [fget (R.SRC_STAGE_ARG_select fn) s, fget (R.SRC_STAGE_ARG_port fn) s, fget (R.SRC_STAGE_ARG_rx_slot fn) s,
      fget (R.SRC_STAGE_ARG_tx_slot fn) s, fget (R.SRC_STAGE_ARG_format fn) s], st,
    leBytes 4 (srcStageOp fn s) ++ leBytes 4 (srcStageArg fn s) ++ leBytes 8 st⟩

/-- A go of SRC_STAGE_CTRL. -/
def srcGo (fn : Fn) (s : State) : State := stageArm 1 fn (srcStageRegs fn) (srcStaged fn s) s

/-- The converters of an Act at a rate restarted (R191): the ingress ones of its legs and the egress ones of its encodes. -/
def srcRestart (act code : Nat) (s : State) : State :=
  let legs := (actLegs act s).filter fun n =>
    (match tfind s.ctl.legs n, tdmBind n s with
     | _, some bd => decide (tdmMode bd.port s = 1) && decide (code = 0)
     | some l, none => decide (codecRate l.acodec = some code)
     | none, none => false)
  let s := legs.foldl (fun s n => cinc 0x243010 (legAudPut n { legAud n s with conv := Conv.init } s)) s
  let x := actAud act s
  let hit := fun (e : AudEnc) => decide (codecRate e.codec = some code)
  cadd 0x243010 (x.encs.filter hit).length
    (actAudPut act { x with encs := x.encs.map fun e => if hit e then { e with conv := Conv.init } else e } s)

/-- Op 1 at its boundary (R189): the result. -/
def srcSelect (fn : Fn) (act sel : Nat) (s : State) : Nat × State :=
  if !owns fn 1 act s then (1, s)
  else match tfind s.ctl.acts act with
    | none => (5, s)
    | some a =>
      let x := actAud act s
      let put := fun (v : Option Nat) =>
        let t := actAudPut act { x with select := v } s
        let differs := fun (c : Nat) => decide (srcTable act c false s ≠ srcTable act c false t) ||
          decide (srcTable act c true s ≠ srcTable act c true t)
        bankSync ((List.range 5).foldl (fun t c => if differs c then srcRestart act c t else t) t)
      if sel = 0xFF then (0, put none)
      else if sel < 3 then (0, put (some sel))
      else if within8 sel then
        let n := sel - 8
        if bankState n s < 2 then (3, s)
        else if !bit (srcBank n s).cfg (16 + a.ring) then (1, s)
        else (0, put (some sel))
      else (2, s)
where
  within8 (v : Nat) : Bool := decide (8 ≤ v) && decide (v < 16)

/-- Whether a function may bind a slot of a port: its Ring owns it, or, for the PF, no Ring does (R198). -/
def slotOwned (fn : Fn) (p n : Nat) (s : State) : Bool :=
  let o := bits (fget (R.SRC_TDM_OWN_owner p (n / 4)) s) (8 * (n % 4)) 8
  match fn with
  | .pf => decide (15 < o)
  | .vf r => decide (o = r)

/-- The egress converter of a TDM leg's own encode restarted where its binding changes; one that it shares runs on (R191). -/
def egressRestart (act leg : Nat) (s : State) : State :=
  let x := actAud act s
  let own := fun (e : AudEnc) => decide (e.legs = [leg]) && (codecRate e.codec).isSome
  cadd 0x243010 (x.encs.filter own).length
    (actAudPut act { x with encs := x.encs.map fun e => if own e then { e with conv := Conv.init } else e } s)

/-- Op 2 at its boundary (R198). -/
def srcBind (fn : Fn) (b leg port rx tx format : Nat) (s : State) : Nat × State :=
  let mode := tdmMode port s
  if !owns fn 0 leg s then (1, s)
  else match tfind s.ctl.legs leg with
    | none => (5, s)
    | some l =>
      if !isTdm leg s || l.acodec ≠ 0 then (5, s)
      else if mode = 0 || tdmSlots mode ≤ rx || tdmSlots mode ≤ tx || (if mode = 2 then 0 else 2) < format then (2, s)
      else if !slotOwned fn port rx s || !slotOwned fn port tx s then (1, s)
      else if s.src.binds.any fun p => decide (p.2.port = port) && (decide (p.2.rx = rx) || decide (p.2.tx = tx)) then
        (4, s)
      else
        let x := legAud leg s
        let s := legAudPut leg { x with conv := Conv.init, slots := [], sums := [] } s
        let s := egressRestart l.act leg s
        (0, cinc 0x243010 { s with src := { s.src with binds := tset s.src.binds leg ⟨port, rx, tx, format, b⟩ } })

/-- Op 3 at its boundary. -/
def srcUnbind (fn : Fn) (leg : Nat) (s : State) : Nat × State :=
  if !owns fn 0 leg s then (1, s)
  else if (tdmBind leg s).isNone then (5, s)
  else
    let s := legAudPut leg { legAud leg s with slots := [] } s
    (0, { s with src := { s.src with binds := terase s.src.binds leg } })

/-- A due SRC change of a function applied (R190). -/
def srcApply (fn : Fn) (b : Nat) (s : State) : State :=
  match stageDue 1 b fn s with
  | none => s
  | some c =>
    let r := match c.op with
      | 1 => srcSelect fn (c.target % 4096) (c.args.getD 0 0) s
      | 2 => srcBind fn b c.target (c.args.getD 1 0) (c.args.getD 2 0) (c.args.getD 3 0) (c.args.getD 4 0) s
      | 3 => srcUnbind fn c.target s
      | _ => (2, s)
    stageEnd 1 b EV_SRC_STAGE_DONE fn (srcStageRegs fn) c r.1 (if c.op = 1 then 2 else 1) r.2

/-! ## Banks (R186 to R188) -/

/-- A write of SRC_BANK_COEF. -/
def bankCoef (v : Nat) (s : State) : State :=
  let n := fget R.SRC_BANK_SEL_bank s
  let b := srcBank n s
  if bankState n s = 3 then bankPut n { b with result := 1 } s
  else if b.st = 1 then
    if 768 ≤ b.count then s else bankPut n { b with coefs := b.coefs ++ [toS 25 v], count := b.count + 1 } s
  else bankPut n { b with st := 1, coefs := [toS 25 v], count := 1 } s

/-- The result of a commit's checks in R188's order. -/
def bankCheck (n : Nat) (b : SrcBank) (rate d : Nat) (s : State) : Nat :=
  let k := srcN d rate
  if bankState n s = 3 then 1
  else if 4 ≤ rate || d = 0 || 384 < k then 2
  else if b.count ≠ 2 * k then 3
  else if !(sumsOk (srcP rate false) (b.coefs.take k) && sumsOk (srcP rate true) (b.coefs.drop k)) then 4
  else 0

def bankCommit (s : State) : State :=
  let n := fget R.SRC_BANK_SEL_bank s
  let b := srcBank n s
  let rate := fget R.SRC_BANK_CFG_rate s
  let d := fget R.SRC_BANK_CFG_delay s
  match bankCheck n b rate d s with
  | 0 => bankPut n { b with st := 2, rate := rate, delay := d, result := 0 } s
  | 1 => bankPut n { b with result := 1 } s
  | r => if b.st = 1 then bankPut n { SrcBank.init with cfg := b.cfg, result := r } s else bankPut n { b with result := r } s

/-- An abort clears a bank that is LOADING. -/
def bankAbort (s : State) : State :=
  let n := fget R.SRC_BANK_SEL_bank s
  let b := srcBank n s
  if b.st = 1 then bankPut n { SrcBank.init with cfg := b.cfg, result := 0 } s else s

def bankClear (s : State) : State :=
  let n := fget R.SRC_BANK_SEL_bank s
  let b := srcBank n s
  if bankState n s = 3 then bankPut n { b with result := 1 } s
  else if b.st = 1 then s
  else bankPut n { SrcBank.init with cfg := b.cfg, result := 0 } s

end Sys2Proof.Machine
end

