-- ==== Sys2Proof/Machine/Aud.lean ====
section
/-! DEFINITION. Calliope's block (spec/06_calliope_audio.md R144 to R177): the close of a block (filter, meters, gain, mixes, encodes),
the decode of released packets, verification, concealment, and what leg and Act commands do to audio. -/
namespace Sys2Proof.Machine

/-! ## Converters -/

/-- Samples pushed through a converter of an Act at a rate, settling and clipping counted for the legs it serves; each output with whether it
is SETTLING (R182, R192). -/
def audConvert (act code : Nat) (egress : Bool) (x : List Int) (c : Conv) (legs : List Nat) (s : State) :
    List (Int × Bool) × Conv × State :=
  let r := convPush (srcTable act code egress s) (srcP code egress) (srcQ code egress) x c
  let settle := (r.1.filter fun v => v.2.1).length
  let clip := (r.1.filter fun v => v.2.2).length
  let s := cadd 0x243008 settle (cadd 0x243000 clip s)
  let s := legs.foldl (fun s n => cadd (legCnt n 0x58) settle (cadd (legCnt n 0x60) clip s)) s
  (r.1.map fun v => (v.1, v.2.1), r.2, s)

/-- The rate code of a leg's ingress audio; none at 48 kHz. -/
def legRate (leg : Nat) (l : Leg) (s : State) : Option Nat :=
  match tdmBind leg s with
  | some b => if tdmMode b.port s = 2 then none else some 0
  | none => codecRate l.acodec

/-- Input samples of a block of a leg. -/
def legIn (leg : Nat) (l : Leg) (s : State) : Nat :=
  match legRate leg l s with
  | some 0 => 4
  | some _ => 8
  | none => 24

/-! ## The chain of a leg (R145 to R152) -/

/-- A leg's 48 kHz samples of block `b`, converted for an Act, each with whether it is SETTLING; none where it is not decoded in it.  A running
converter is fed zeros across a gap. -/
def legSamples (leg act b : Nat) (l : Leg) (s : State) : Option (List (Int × Bool)) × State :=
  let x := legAud leg s
  let got := tfind x.slots b
  let s := legAudPut leg { x with slots := x.slots.filter fun p => stampAfter p.1 b } s
  match legRate leg l s with
  | none => (got.map fun v => v.map fun i => (i, false), s)
  | some code =>
    if got.isNone && x.conv.nIn = 0 then (none, s)
    else
      let r := audConvert act code false (got.getD (List.replicate (legIn leg l s) 0)) x.conv [leg] s
      (got.map fun _ => r.1, legAudPut leg { legAud leg r.2.2 with conv := r.2.1 } r.2.2)

/-- The parameters of block `b` taken: the filter setting and the gain target (R147, R150). -/
def legParams (r : LegRec) (x : LegAud) : LegAud :=
  let x := if r.hpf = x.hpf then x else { hpfZero x with hpf := r.hpf }
  gainTarget r.gain r.gainRamp x

/-- The chain of a leg of a forwarding Act that still fades out of the Act it was routed from (R175): what it contributes there; its meters
show nothing (R167). -/
def legFading (leg b : Nat) (l : Leg) (s : State) : Option (List Int) × State :=
  match fadingAct leg l.act s with
  | none => (none, legAudPut leg { legAud leg s with
      gPos := (legAud leg s).gPos + 24
      slots := (legAud leg s).slots.filter fun p => stampAfter p.1 b } s)
  | some old =>
    let g := legSamples leg old b l s
    let x := legAud leg g.2
    match g.1 with
    | none => (none, legAudPut leg { x with gPos := x.gPos + 24 } g.2)
    | some xs => (some (chain xs x).2.1, legAudPut leg (chain xs x).2.2 g.2)

/-- A leg's block `b` closed: its contribution before fades and ramps, where it is decoded. -/
def legClose (leg b : Nat) (l : Leg) (s : State) : Option (List Int) × State :=
  let r := legRec l.act leg s
  if !(actTpl l.act s).mixing then
    let x := legParams r (legAud leg s)
    legFading leg b l (legAudPut leg { x with
      rms := -32768
      peak := -32768
      held := -32768
      count := 0 } s)
  else
    let g := legSamples leg l.act b l s
    let x := legParams r (legAud leg g.2)
    match g.1 with
    | none =>
      let x := heldPeak (-32768) r.peakHold r.peakDecay { x with gPos := x.gPos + 24, rms := -32768, peak := -32768 }
      (none, legAudPut leg x g.2)
    | some xs =>
      let c := chain xs x
      let x := { c.2.2 with rms := meterRms c.1, peak := meterPeak c.1 }
      (some c.2.1, legAudPut leg (heldPeak x.peak r.peakHold r.peakDecay x) g.2)

/-! ## Mixes (R157, R162, R163) -/

/-- A member's contribution to an Act in block `b`: the fade-in from its first packet, the fade-out, then the ramps of start and
release. -/
def spkPart (act b : Nat) (p : Spk) (c : List Int) (s : State) : List Int :=
  let n := actRamp act s
  (c.zip (List.range c.length)).map fun v =>
    let y := match p.fin with
      | none => 0
      | some f => rampSig ⟨f, n, true⟩ b v.2 v.1
    let y := match p.out with
      | none => y
      | some w => rampSig ⟨w, n, false⟩ b v.2 y
    (legAud p.leg s).ramps.foldl (fun y r => rampSig r b v.2 y) y

def addLists (a b : List Int) : List Int := a.zipWith (· + ·) b
def subLists (a b : List Int) : List Int := a.zipWith (· - ·) b
def zeros24 : List Int := List.replicate 24 0

/-- The mix output stage: samples saturated, counted, CLIPPING at most once per Act in 2,000 blocks (R163). -/
def mixOut (act : Nat) (v : List Int) (s : State) : List Int × State :=
  let o := v.map (satS 24)
  let n := ((v.zip o).filter fun p => decide (p.1 ≠ p.2)).length
  if n = 0 then (o, s)
  else
    let s := cadd 0x201028 n (cadd (actCnt act 0) n s)
    let x := actAud act s
    let k := x.clipped + n
    match rateOk (rateKey EV_CLIPPING act) 2000 s, tfind s.ctl.acts act with
    | (true, s), some a => (o, raiseObj EV_CLIPPING a.ring 2 act k (actAudPut act { x with clipped := 0 } s))
    | (_, s), _ => (o, actAudPut act { x with clipped := k } s)

/-- An Act's mixes of a block: the common mix and the individual mix of each member or fading leg. -/
structure Mixes where
  common : List Int
  ind : Tbl (List Int)
  deriving DecidableEq, Repr

/-- The contributions of an Act's members and fading legs in block `b`; a member routed away contributes only as it fades. -/
def actParts (act b : Nat) (contrib : Tbl (List Int)) (s : State) : Tbl (List Int) :=
  let x := actAud act s
  let here := x.spk.filter fun p => match tfind s.ctl.legs p.leg with
    | some l => decide (l.act = act)
    | none => false
  (here ++ x.gone).foldl (fun (t : Tbl (List Int)) p =>
    match tfind contrib p.leg with
    | some c => tset t p.leg (addLists (tget zeros24 t p.leg) (spkPart act b p c s))
    | none => t) []

/-- The legs of this part that an individual mix is made for: members and fading legs. -/
def actIds (act : Nat) (s : State) : List Nat :=
  let x := actAud act s
  ((x.spk ++ x.gone).map (·.leg)).filter fun n => !isFar n && (tfind s.ctl.legs n).isSome

/-- An Act's mixes from the contributions of its own legs and the sum of the other members' partials (R162). -/
def mixesOf (act : Nat) (parts : Tbl (List Int)) (ids : List Nat) (remote : List Int) (s : State) : Mixes × State :=
  let m := addLists (parts.foldl (fun m p => addLists m p.2) zeros24) remote
  let c := mixOut act m s
  let r := ids.foldl (fun a n =>
    let o := mixOut act (subLists m (tget zeros24 parts n)) a.2
    (tset a.1 n o.1, o.2)) (([] : Tbl (List Int)), c.2)
  (⟨c.1, r.1⟩, r.2)

/-! ## The combine of a mapped Act (R451 to R454) -/

/-- The CRC-32C of the active Act header and ramp_samples (R451). -/
def actDigest (act : Nat) (s : State) : Nat :=
  let h := actHdr act s
  crc32c (leBytes 1 h.topN ++ leBytes 1 h.hyst ++ leBytes 2 h.hold ++ leBytes 1 h.gate ++ leBytes 1 h.period ++ leBytes 1 h.tol
    ++ leBytes 1 h.strikes ++ leBytes 1 h.flags ++ List.replicate 55 0 ++ leBytes 4 (actRamp act s))

/-- A mapped Act's block `b` after its selection: the level entries of its ACTIVE legs; whether another member's entries were lost for
the block that the selection used (R454). -/
def casNote (act b : Nat) (s : State) : State :=
  match casAct act s with
  | none => s
  | some g =>
    let x := actAud act s
    let legs := (actLegs act s).filter fun n => decide (((tfind s.ctl.legs n).map (·.st)) = some .active)
    let es := legs.foldl (fun (t : Tbl LevEntry) n => tset t n
      ⟨seatOf n s, level n b s, eligible act n b s, x.spk.any fun p => decide (p.leg = n), (legRec act n s).pinned⟩) []
    let s := casOwnPut act b ⟨[], [], ⟨g, actDigest act s, zeros24, es.map (·.2)⟩, es, false⟩ s
    let u := stampSub b (casX s)
    match casOwn act u s with
    | some o => if (casOthers u s).any fun m => farLost m u g s then casOwnPut act u { o with lost := true } s else s
    | none => s

/-- CAS_SEAT_DUP for each seat that two entries of a block name (R452). -/
def casDups (act b : Nat) (s : State) : State :=
  match casAct act s with
  | none => s
  | some g =>
    let u := stampSub b (casX s)
    let seats := ((farIds act u s).map farSeat) ++ (match casOwn act u s with
      | some o => o.legs.map fun p => p.2.seat
      | none => [])
    let dups := (List.range seats.length).filterMap fun i =>
      let v := seats.getD i 0
      if (seats.take i).count v = 1 then some v else none
    dups.foldl (fun s v => raise (ev EV_CAS_SEAT_DUP 0 none 0 0 (v % 65536 + g % 65536 * 65536) s) s) s

/-- A mapped Act's own contributions of block `b` kept until its combine. -/
def casKeep (act b : Nat) (contrib : Tbl (List Int)) (s : State) : State :=
  match casOwn act b s with
  | none => s
  | some o =>
    let parts := actParts act b contrib s
    casOwnPut act b { o with
      parts := parts
      ids := actIds act s
      own := { o.own with part := parts.foldl (fun m p => addLists m p.2) zeros24 } } s

/-- What the other members' partials of stamp `u` add up to; a lost one adds 0. -/
def farSum (u g : Nat) (s : State) : List Int :=
  (casOthers u s).foldl (fun m n => match farRec n u g s with
    | some r => addLists m r.part
    | none => m) zeros24

/-- A mapped Act's losses for stamp `u` reported, its listeners degraded; a record whose digest is not this part's is reported at most
once per Act in 2,000 blocks (R453, R454). -/
def casReport (act u g : Nat) (o : CasOwn) (s : State) : State :=
  let l := casOthers u s
  let s := if o.lost || (l.any fun m => farLost m u g s) then
      (actLegs act s).foldl (fun s n => if ((tfind s.ctl.legs n).map (·.st)) = some .active then degraded n s else s) (determinismLost act 2 s)
    else s
  match l.find? fun m => (match farRec m u g s with
    | some r => decide (r.digest ≠ o.own.digest)
    | none => false) with
  | none => s
  | some m =>
    match rateOk (rateKey EV_CAS_CONFIG_MISMATCH act) 2000 s with
    | (true, s) => raise (ev EV_CAS_CONFIG_MISMATCH 0 none 0 0 (m + g % 65536 * 65536) s) s
    | (false, s) => s

/-- An Act's mixes in the close of block `b`: of that block, or, for a mapped Act, of the block x before it; none before a mapped Act has
one. -/
def actMix (b : Nat) (contrib : Tbl (List Int)) (act : Nat) (s : State) : Option Mixes × State :=
  match casAct act s with
  | none =>
    let parts := actParts act b contrib s
    let s := actAudPut act { actAud act s with partials := parts.foldl (fun m p => addLists m p.2) zeros24 } s
    let r := mixesOf act parts (actIds act s) zeros24 s
    (some r.1, r.2)
  | some g =>
    let s := casKeep act b contrib s
    let u := stampSub b (casX s)
    match casOwn act u s with
    | none => (none, s)
    | some o =>
      let s := casReport act u g o s
      let s := actAudPut act { actAud act s with partials := o.own.part } s
      let r := mixesOf act o.parts (o.ids.filter fun n => (tfind s.ctl.legs n).isSome) (farSum u g s) s
      let left := (tget [] r.2.cas.own act).filter fun (p : Nat × CasOwn) => stampAfter p.1 u
      (some r.1, { r.2 with cas := { r.2.cas with own := tset r.2.cas.own act left } })

/-- What a leg hears of an Act. -/
def heard (leg : Nat) (m : Option Mixes) : List Int :=
  match m with
  | some x => (tfind x.ind leg).getD x.common
  | none => zeros24

/-- A leg's egress signal of block `b` in its Act: the cross-ramp with its old Act, then the ramps of start and release (R175, R176). -/
def legSignal (leg act b : Nat) (mixes : Tbl Mixes) (s : State) : List Int :=
  let x := legAud leg s
  let new := heard leg (tfind mixes act)
  let sig : List Int := match x.cross with
    | none => new
    | some (old, r) =>
      let o := heard leg (tfind mixes old)
      (new.zip (List.range 24)).map fun v => rampVal (o.getD v.2 0) v.1 (rampPos r b v.2) r.len
  (sig.zip (List.range 24)).map fun v => x.ramps.foldl (fun y r => rampSig r b v.2 y) v.1

/-! ## Encodes (R164, R165) -/

/-- A leg's encode setting: codec, rate, flags, complexity; a TDM leg's is its port's mode and format (R164, R198). -/
def encSetting (leg act b : Nat) (l : Leg) (s : State) : Option (Nat × Nat × Nat × Nat) :=
  match tdmBind leg s with
  | some bd =>
    if stampGe b (stampAdd bd.since 1) then some ((if tdmMode bd.port s = 2 then 32 else 16) + bd.format, 0, 0, 0) else none
  | none =>
    if l.acodec = 0 then none
    else
      let r := legRec act leg s
      some (l.acodec, r.encRate, r.encFlags, r.encCx)

/-- Whether an encode has a setting and serves a leg alone or is shared. -/
def AudEnc.is (e : AudEnc) (k : Nat × Nat × Nat × Nat) (own : Option Nat) : Bool :=
  decide ((e.codec, e.rate, e.flags, e.cx) = k) && decide (e.leg = own)

/-- A leg taken out of its encodes; one that serves no leg ends. -/
def encLeave (leg : Nat) (es : List AudEnc) : List AudEnc :=
  (es.map fun e => { e with legs := e.legs.filter fun n => decide (n ≠ leg) }).filter fun e => !e.legs.isEmpty

/-- A leg put in the encode it is to have in block `b`: a new one begins at once with `b` as its anchor; one that runs already is joined
at the start of one of its frames (R165). -/
def encJoin (leg b : Nat) (k : Nat × Nat × Nat × Nat) (own : Option Nat) (x : ActAud) : ActAud :=
  match x.encs.find? fun e => e.is k own with
  | some e =>
    if e.legs.contains leg then x
    else if stampSub b e.anchor % frameBlocks e.codec ≠ 0 then x
    else
      { x with encs := (encLeave leg x.encs).map fun e =>
          if e.is k own then { e with legs := sortBy (fun a c => decide (a < c)) (e.legs ++ [leg]) } else e }
  | none =>
    { x with encs := encLeave leg x.encs ++ [⟨k.1, k.2.1, k.2.2.1, k.2.2.2, own, b, 0, Conv.init, [], [leg]⟩] }

/-- Whether a leg's egress in its Act has not begun at block `b`: it starts later, or a route to it does (a mapped Act's blocks come
late). -/
def encWaits (b : Nat) (x : LegAud) : Bool :=
  (x.ramps.any fun r => r.up && stampAfter r.start b) || (match x.cross with
    | some (_, r) => stampAfter r.start b
    | none => false)

/-- A leg's encode in its Act settled for block `b`: an individual one for a member of S, a fading leg or one whose egress ramps, else
the shared one of its setting. -/
def encSettle (leg b : Nat) (l : Leg) (mixes : Tbl Mixes) (s : State) : State :=
  let x := legAud leg s
  if l.st = .admitted || encWaits b x then s
  else match encSetting leg l.act b l s with
    | none => s
    | some k =>
      let ramping := (match x.cross with
        | some (_, r) => rampRuns r b
        | none => false) || x.ramps.any fun r => rampRuns r b
      let own := ramping || match tfind mixes l.act with
        | some m => (tfind m.ind leg).isSome
        | none => false
      let s := match x.cross with
        | some (old, _) => actAudPut old { actAud old s with encs := encLeave leg (actAud old s).encs } s
        | none => s
      let own := if own then some leg else none
      let begins := (codecRate k.1).isSome && !((actAud l.act s).encs.any fun e => e.is k own)
      let s := if begins then cinc 0x243010 s else s
      actAudPut l.act (encJoin leg b k own (actAud l.act s)) s

/-- The clock of a leg's egress audio context. -/
def legClock (leg : Nat) (s : State) : Nat :=
  match egrContexts leg 0 s with
  | id :: _ => (match tfind s.ctl.streams id with
    | some st => st.clock
    | none => 0)
  | [] => 0

/-- A finished frame whose last block is `b` handed to a leg: to its TDM slot, or to its egress queue for the block after this one. -/
def encDeliver (leg b : Nat) (e : AudEnc) (out : List Int) (payload : List Nat) (s : State) : State :=
  if 16 ≤ e.codec then
    tdmPlace leg (out.map fun v => tdmEncode (if e.codec < 32 then 1 else 2) (e.codec % 16) v) s
  else if payload.isEmpty then s
  else
    let first := stampSub b (frameBlocks e.codec - 1)
    egrMedia leg 0 (Config.audioTs0 leg + first * clockPerBlock (legClock leg s)) false [] payload none (stampAdd s.clk.stamp 1) s

/-- An encode's block `b`: its signal through its egress converter; a frame that ends is encoded and handed over (R165). -/
def encBlock (act b : Nat) (mixes : Tbl Mixes) (e : AudEnc) (s : State) : AudEnc × State :=
  let sig : List Int := match e.leg with
    | some n => legSignal n act b mixes s
    | none => ((tfind mixes act).map (·.common)).getD zeros24
  let r := match codecRate e.codec with
    | none => (sig.map fun (v : Int) => (v, false), e.conv, s)
    | some code => audConvert act code true sig e.conv e.legs s
  let buf := e.buf ++ r.1.map (·.1)
  if (stampSub b e.anchor + 1) % frameBlocks e.codec = 0 then
    let p := if 16 ≤ e.codec then ([], 0) else encodeFrame e buf
    let s := e.legs.foldl (fun s n => encDeliver n b e buf p.1 s) r.2.2
    ({ e with conv := r.2.1, buf := [], state := p.2 }, s)
  else ({ e with conv := r.2.1, buf := buf }, r.2.2)

/-- The encodes of an Act for block `b`. -/
def actEncodes (act b : Nat) (mixes : Tbl Mixes) (s : State) : State :=
  if (tfind mixes act).isNone then s else
  let r := (actAud act s).encs.foldl (fun a e =>
    let q := encBlock act b mixes e a.2
    (a.1 ++ [q.1], q.2)) (([] : List AudEnc), s)
  actAudPut act { actAud act r.2 with encs := r.1 } r.2

/-! ## The close of a block (R27) -/

/-- A leg that a route into a forwarding Act still keeps in its old Act's encode leaves it at the packet boundary (R176); ended ramps
are forgotten once both the leg's contribution and its egress have passed them; the charge of a route ramp is returned at its last block
(R175). -/
def legAfter (leg b : Nat) (s : State) : State :=
  let x := legAud leg s
  let s := match x.hold with
    | some (act, sw) =>
      if stampGe (stampAdd (actBlock act b s) 1) sw then
        let y := actAud act s
        legAudPut leg { x with hold := none } (actAudPut act { y with encs := encLeave leg y.encs } s)
      else s
    | none => s
  let x := legAud leg s
  let u := match tfind s.ctl.legs leg with
    | some l => actBlock l.act b s
    | none => b
  let ended := fun (r : Ramp) => stampGe u r.start && decide (r.len ≤ 24 * (stampSub u r.start + 1)) && r.up
  let x := { x with
    ramps := x.ramps.filter fun r => !ended r
    cross := match x.cross with
      | some (a, r) => if ended r then none else some (a, r)
      | none => none }
  match x.routeCharge with
  | some (ring, bay, last) =>
    if b = last then chargeDown ring bay (chargeOf 0 12) (legAudPut leg { x with routeCharge := none } s) else legAudPut leg x s
  | none => legAudPut leg x s

/-- Every leg's chain of block `b`: what each contributes, and the units' counts of legs. -/
def audHear (b : Nat) (s : State) : Tbl (List Int) × State :=
  let r := (tkeys s.ctl.legs).foldl (fun a n =>
    match tfind a.2.ctl.legs n with
    | none => a
    | some l =>
      let q := legClose n b l a.2
      match q.1 with
      | some c => (tset a.1 n c, q.2)
      | none => (a.1, q.2)) (([] : Tbl (List Int)), s)
  (r.1, (List.range 4).foldl (fun s bay =>
    fset (R.AUD_UNIT_STATUS_legs bay) ((r.1.filter fun p => match tfind s.ctl.legs p.1 with
      | some l => decide (l.bay = bay)
      | none => false).length) s) r.2)

/-- Block `b` mixed and encoded in block b + 1 from what its legs contribute; a mapped Act's mixes and encodes are those of the block x
before. -/
def audMix (b : Nat) (contrib : Tbl (List Int)) (s : State) : State :=
  let legs := tkeys s.ctl.legs
  let acts := (tkeysWhere s.ctl.acts fun _ a => a.tpl.mixing)
  let m := acts.foldl (fun a n =>
    let q := actMix b contrib n a.2
    (match q.1 with
      | some v => tset a.1 n v
      | none => a.1, q.2)) (([] : Tbl Mixes), s)
  let mixes := m.1
  let s := legs.foldl (fun s n => match tfind s.ctl.legs n with
    | some l => if (actTpl l.act s).mixing then encSettle n (actBlock l.act b s) l mixes s else s
    | none => s) m.2
  let s := acts.foldl (fun s n => actEncodes n (actBlock n b s) mixes s) s
  legs.foldl (fun s n => legAfter n b s) s

/-! ## Trust (R159 to R161) -/

/-- The 3 AU of an untrusted leg's decode on its Act's Bay: whether they fit. -/
def trustFits (act : Nat) (s : State) : Bool :=
  match tfind s.ctl.acts act with
  | some a => fits a.ring a.bay (chargeOf 0 3) s
  | none => false

/-- The 3 AU charged or returned. -/
def trustCharge (leg act : Nat) (up : Bool) (s : State) : State :=
  match tfind s.ctl.acts act with
  | none => s
  | some a =>
    let s := if up then chargeUp a.ring a.bay (chargeOf 0 3) s else chargeDown a.ring a.bay (chargeOf 0 3) s
    legAudPut leg { legAud leg s with charged := up } s

/-- The mark cleared and its charge returned. -/
def trustClear (leg act : Nat) (s : State) : State :=
  let s := if (legAud leg s).charged then trustCharge leg act false s else s
  legAudPut leg { legAud leg s with untrusted := false, overCap := false, strikes := 0 } s

/-- A leg marked level untrusted (R160, R161). -/
def trustMark (leg act : Nat) (s : State) : State :=
  match tfind s.ctl.acts act with
  | none => s
  | some a =>
    let fit := trustFits act s
    let x := legAud leg s
    let s := cinc 0x201018 (legAudPut leg { x with untrusted := true, overCap := !fit, window := none } s)
    let s := if fit then trustCharge leg act true s
      else raiseObj EV_AUDIO_OVERCAP a.ring 2 act 3 (determinismLost act 3 s)
    raiseObj EV_LEVEL_UNTRUSTED a.ring 1 leg (x.strikes + b2n (!fit) * 2 ^ 32) s

/-- A window's verdict (R160). -/
def windowEnd (leg act : Nat) (w : Window) (s : State) : State :=
  let x := { legAud leg s with window := none }
  if w.compared < 2 then legAudPut leg x s
  else
    let s := cinc 0x201010 (cinc (legCnt leg 0x40) s)
    if w.compared < 2 * w.bad then
      let s := cinc (legCnt leg 0x48) (legAudPut leg { x with strikes := x.strikes + 1 } s)
      if (actHdr act s).strikes ≤ x.strikes + 1 then trustMark leg act s else s
    else legAudPut leg { x with strikes := 0 } s

/-- A packet of an open window (R159, R160): the first is a warm-up; the fourth ends the window. -/
def windowPacket (leg act : Nat) (m : Option Nat) (s : State) : State :=
  let x := legAud leg s
  match x.window with
  | none => s
  | some w =>
    let l := x.claimed.getD 127
    let cmp := match m with
      | some v => decide (0 < w.pkts) && decide (min l v ≤ 70)
      | none => false
    let bad := cmp && match m with
      | some v => decide ((actHdr act s).tol < max l v - min l v)
      | none => false
    let w : Window := ⟨w.pkts + 1, w.compared + b2n cmp, w.bad + b2n bad⟩
    if w.pkts = 4 then windowEnd leg act w s else legAudPut leg { x with window := some w } s

/-- Verification windows that open at block `b`: of trusted speaking RTP legs neither in S nor entering (R159). -/
def windowsOpen (b : Nat) (s : State) : State :=
  (tkeys s.ctl.legs).foldl (fun s n =>
    match tfind s.ctl.legs n with
    | none => s
    | some l =>
      let b := actStamp l.act b s
      let x := actAud l.act s
      let p := (actHdr l.act s).period
      let inS := (x.spk.any fun m => decide (m.leg = n)) || x.entering.any fun e => decide (e.1 = n)
      if l.st = .active && l.role = 0 && (actTpl l.act s).mixing && !(legAud n s).untrusted && !isTdm n s && !inS
          && b % 160 = 0 && decide (b / 160 % p = n % p) then
        legAudPut n { legAud n s with window := some ⟨0, 0, 0⟩, fresh := true } s
      else s) s

/-! ## Decode and concealment (R154, R157, R168) -/

/-- The fade-in of a leg that waits for its first packet begins at block `b` (R157). -/
def fadeBegin (leg b : Nat) (s : State) : State :=
  { s with aud := { s.aud with acts := tmap s.aud.acts fun _ x => { x with spk := x.spk.map fun p =>
      if p.leg = leg && p.fin.isNone then { p with fin := some b } else p } } }

/-- A released packet decoded into the input slots from block `b` on; in a verification window its output is not kept. -/
def decodePacket (leg b : Nat) (l : Leg) (payload : List Nat) (s : State) : State :=
  let x := legAud leg s
  let mixed := decoding leg s
  match packetBlocks l.acodec payload with
  | none =>
    let s := cinc (legCnt leg 0x28) s
    windowPacket leg l.act none s
  | some d =>
    let st := if x.fresh then 0 else x.dec
    let r := decodeFrame l.acodec st d payload
    let n := codecSamples l.acodec
    let restarts := x.fresh && (codecRate l.acodec).isSome
    let x := { x with
      dec := r.2
      fresh := false
      conv := if restarts then Conv.init else x.conv
      hist := if l.acodec < 4 then r.1 else []
      measured := some (levelOf (sumSq r.1) r.1.length) }
    let s := cinc (legCnt leg 0x20) (if restarts then cinc 0x243010 s else s)
    if !mixed then windowPacket leg l.act x.measured (legAudPut leg x s)
    else
      let keep := x.slots.filter fun p => !stampGe p.1 b
      let put := (List.range d).foldl (fun t i => tset t (stampAdd b i) ((r.1.drop (i * n)).take n)) keep
      let ended := decide (0 < x.concealRun)
      let s' := legAudPut leg { x with
        slots := put
        conc := x.conc.filter fun c => !stampGe c b
        expect := some (stampAdd b d)
        lastDur := d
        concealRun := 0
        concealBlocks := 0
        normal := true } s
      let s' := if ended then raiseObj EV_CONCEAL_END l.ring 1 leg x.concealBlocks s' else s'
      fadeBegin leg b s'

/-- A concealed frame at block `b`. -/
def concealAt (leg b : Nat) (l : Leg) (s : State) : State :=
  let x := legAud leg s
  let r := concealFrame l.acodec x.dec x.concealRun x.lastDur x.hist
  let n := codecSamples l.acodec
  let blocks := (List.range x.lastDur).map fun i => stampAdd b i
  let x' := { x with
    dec := r.2
    slots := (blocks.zip (List.range x.lastDur)).foldl (fun t p => tset t p.1 ((r.1.drop (p.2 * n)).take n)) x.slots
    conc := x.conc ++ blocks
    concealRun := x.concealRun + 1
    expect := some (stampAdd b x.lastDur) }
  let s := legAudPut leg x' s
  if x.concealRun = 0 then concealStart leg l s else s

/-- A leg's concealment in block `b` (R168): where its packet was expected and none was released; at most three frames in a run, then
nothing.  A leg no longer decoded expects none.  Blocks that play concealed samples are counted and degraded. -/
def concealLeg (leg b : Nat) (got : Bool) (l : Leg) (s : State) : State :=
  let x := legAud leg s
  if isTdm leg s then s
  else if !decoding leg s then
    if x.expect.isNone then s
    else legAudPut leg { x with
      expect := none
      slots := x.slots.filter fun p => !stampGe p.1 b
      conc := [] } s
  else
    let s := if x.expect = some b && !got then
        if 3 ≤ x.concealRun then legAudPut leg { x with expect := none } s else concealAt leg b l s
      else s
    let x := legAud leg s
    if x.conc.contains b then
      degraded leg (cinc (legCnt leg 0x30) (legAudPut leg { x with
        concealBlocks := x.concealBlocks + 1
        conc := x.conc.filter fun c => stampAfter c b } s))
    else s

/-! ## Forwarding (R167) -/

/-- A released audio packet of a leg of a forwarding Act sent to the other leg in block b + 1, its payload unchanged; a leg whose egress
has not reached its packet boundary gets none (R176). -/
def forwardAudio (leg b : Nat) (l : Leg) (e : JrEntry) (s : State) : State :=
  ((actLegs l.act s).filter fun n => decide (n ≠ leg)).foldl (fun s n =>
    match tfind s.ctl.legs n with
    | some m =>
      if m.st = .active && (legAud n s).hold.isNone then
        egrMedia n 0 e.ts e.marker [] (toNats (rtpPayload e.packet)) none (stampAdd b 1) s
      else s
    | none => s) s

/-! ## The block's packets -/

/-- The ingress audio packets released at `b`: the leg, its context and the entry, by leg. -/
def audReleased (b : Nat) (s : State) : List (Nat × Nat × JrEntry) :=
  sortBy (fun p q => decide (p.1 < q.1)) ((s.ctl.streams.filter fun p => decide (p.2.dir = 0) && decide (p.2.media = 0) && !p.2.tdm).map
    fun p => (releasedAt b p.2).map fun e => (p.2.leg, p.1, e)).flatten

/-- The level that a packet claims: the low seven bits of its audio-level element, 127 where it carries none (log entry 30). -/
def claimOf (id : Nat) (e : JrEntry) (s : State) : Nat :=
  match tfind s.ctl.streams id with
  | none => 127
  | some st => match extOf st 0 e.packet with
    | some l => b8 l 0 % 128
    | none => 127

/-- A leg whose Act hears it through its packets: each is forwarded, decoded, or passed over; one of a bad duration is counted in any case
(R154). -/
def audPacket (b : Nat) (p : Nat × Nat × JrEntry) (s : State) : State :=
  match tfind s.ctl.legs p.1 with
  | none => s
  | some l =>
    let payload := toNats (rtpPayload p.2.2.packet)
    if !(actTpl l.act s).mixing then
      let s := forwardAudio p.1 b l p.2.2 s
      if l.acodec ≠ 0 && (fadingAct p.1 l.act s).isSome then decodePacket p.1 b l payload s else s
    else if l.acodec = 0 then s
    else if decoding p.1 s || (legAud p.1 s).window.isSome then decodePacket p.1 b l payload s
    else if (packetBlocks l.acodec payload).isNone then cinc (legCnt p.1 0x28) s
    else s

/-- Selection, verification, decode and concealment of block `b` (R155 to R168). -/
def audBlock (b : Nat) (s : State) : State :=
  let rel := (audReleased b s).filter fun p => ((tfind s.ctl.legs p.1).map (·.unplaced)).getD false = false
  let s := rel.foldl (fun s p => legAudPut p.1 { legAud p.1 s with lastRel := some b, claimed := some (claimOf p.2.1 p.2.2 s) } s) s
  let s := (tkeys s.ctl.acts).foldl (fun s a => casNote a b (selRun a b (casDups a b s))) s
  let s := windowsOpen b s
  let s := rel.foldl (fun s p => audPacket b p s) s
  let s := (tkeysWhere s.src.binds fun _ _ => true).foldl (fun s n =>
    if (tfind (legAud n s).slots b).isSome then fadeBegin n b s else s) s
  (tkeys s.ctl.legs).foldl (fun s n =>
    match tfind s.ctl.legs n with
    | none => s
    | some l =>
      let s := concealLeg n b (rel.any fun p => decide (p.1 = n)) l s
      if (legAud n s).overCap then cinc 0x201020 (determinismLost l.act 3 s) else s) s

/-! ## What commands do to audio -/

/-- ACT_ADMIT: both banks with the defaults (R169). -/
def audActAdmit (act : Nat) (t : Template) (s : State) : State :=
  let b : Bank := ⟨ActHdr.dflt t, []⟩
  actAudPut act { ActAud.init with bankA := b, bankB := b } s

/-- ACT_RELEASE: the Act's mapping into the bridge ends with it. -/
def audActFree (act : Nat) (s : State) : State :=
  bankSync { s with
    aud := { s.aud with acts := terase s.aud.acts act }
    cas := { s.cas with
      acts := terase s.cas.acts act
      own := terase s.cas.own act } }

/-- LEG_ADMIT: the record's defaults in both banks, a fresh chain. -/
def audLegAdmit (leg act codec : Nat) (s : State) : State :=
  let r := LegRec.dflt (actTpl act s) codec
  legAudPut leg { LegAud.init with gain := r.gain, gFrom := r.gain, hpf := r.hpf }
    (actAudPut act ((actAud act s).both fun b => b.put leg r) s)

/-- LEG_START at `b`: the ramp in (R176). -/
def audLegStart (leg act b : Nat) (s : State) : State :=
  legAudPut leg { legAud leg s with ramps := [⟨b, actRamp act s, true⟩], fresh := true } s

/-- LEG_RELEASE of an ACTIVE leg at `b`: the ramp out. -/
def audLegRelease (leg act b : Nat) (s : State) : State :=
  let x := legAud leg s
  legAudPut leg { x with ramps := x.ramps ++ [⟨b, actRamp act s, false⟩], window := none } s

/-- A leg freed: its chain, its record, its encodes, its slot binding, its seat, its place in every selection gone; from the S of a mapped
Act it goes with its level entries, as on every other member. -/
def audLegFree (leg act : Nat) (s : State) : State :=
  let s := if (legAud leg s).charged then trustCharge leg act false s else s
  let s := match (legAud leg s).routeCharge with
    | some (ring, bay, _) => chargeDown ring bay (chargeOf 0 12) s
    | none => s
  let mapped := fun (a : Nat) => (casAct a s).isSome
  { s with
    cas := { s.cas with
      seats := terase s.cas.seats leg
      remote := terase s.cas.remote leg }
    aud := {
      acts := tmap s.aud.acts fun a x => { (x.both fun b => b.drop leg) with
        spk := x.spk.filter fun p => mapped a || decide (p.leg ≠ leg)
        gone := x.gone.filter fun p => decide (p.leg ≠ leg)
        entering := x.entering.filter fun e => decide (e.1 ≠ leg)
        encs := encLeave leg x.encs }
      legs := terase s.aud.legs leg }
    src := { s.src with binds := terase s.src.binds leg } }

/-- LEG_ROUTE at `b` (R171, R175, R176): the active record copied to both banks of the new Act; of an ACTIVE leg the cross-ramp and its
individual encode, or, where either Act forwards, the switch at a packet boundary. -/
def audLegRoute (leg old new b : Nat) (active : Bool) (s : State) : State :=
  let r := legRec old leg s
  let s := actAudPut old ((actAud old s).both fun k => k.drop leg) s
  let s := actAudPut new ((actAud new s).both fun k => k.put leg r) s
  if !active then s
  else
    let x := actAud old s
    let mapped := (casAct old s).isSome
    let x' := { x with
      spk := x.spk.filter fun p => mapped || decide (p.leg ≠ leg)
      entering := x.entering.filter fun e => decide (e.1 ≠ leg)
      gone := x.gone ++ ((x.spk.filter fun p => decide (p.leg = leg) && p.fin.isSome).map fun p =>
        { p with out := some (p.out.getD b) }) }
    let left := (x.spk.filter fun p => !mapped && decide (p.leg = leg)).map (·.leg)
    let s := topnChange old [] left (actAudPut old x' s)
    let om := (actTpl old s).mixing
    let nm := (actTpl new s).mixing
    if om && nm then
      let s := if mapped && (casAct new s).isSome then s
        else actAudPut old { actAud old s with encs := encLeave leg (actAud old s).encs } s
      legAudPut leg { legAud leg s with cross := some (old, ⟨b, actRamp new s, true⟩), hold := none, window := none } s
    else
      let s := cinc (legCnt leg 0x50) s
      let y := legAud leg s
      let h := if om then ((actAud old s).encs.find? fun e => e.legs.contains leg).bind fun e =>
          let f := frameBlocks e.codec
          let sw := stampAdd b ((f - stampSub b e.anchor % f) % f)
          if sw = b then none else some (old, sw)
        else none
      let s := if om && h.isNone then actAudPut old { actAud old s with encs := encLeave leg (actAud old s).encs } s else s
      legAudPut leg { y with cross := none, hold := h, window := none, ramps := if nm then y.ramps else [] } s

end Sys2Proof.Machine
end

