-- ==== Sys2Proof/Machine/FwdRows.lean ====
section
/-! DEFINITION. Feedback received, staged subscriptions, and the commands of the forwarder (spec/12_layer_forwarding.md R302, R308, R316
to R322). -/
namespace Sys2Proof.Machine

/-! ## RTCP received (R308, R317) -/

/-- The packets of an RTCP compound: count or format, type, body. -/
def rtcpParts (fuel : Nat) (l : List Nat) : List (Nat × Nat × List Nat) :=
  match fuel with
  | 0 => []
  | f + 1 =>
    if l.length < 4 then []
    else
      let n := 4 * (beVal ((l.drop 2).take 2) + 1)
      (l.getD 0 0 % 32, l.getD 1 0, (l.take n).drop 4) :: rtcpParts f (l.drop n)

/-- The big-endian field of `k` bytes at `o`. -/
def beAt (l : List Nat) (o k : Nat) : Nat := beVal ((l.drop o).take k)

/-- The egress context of a leg with an SSRC. -/
def egrBySsrc (leg ssrc : Nat) (s : State) : Option Nat :=
  (egrAll leg s).find? fun id => (match tfind s.ctl.streams id with
    | some st => decide (st.ssrc = ssrc)
    | none => false)

/-- A feedback input queued for a leg's Line Adapter with its arrival stamp. -/
def fbPush (leg arrival : Nat) (f : Feedback) (s : State) : State :=
  fwdLegPut leg { fwdLeg leg s with fb := (fwdLeg leg s).fb ++ [(arrival, f)] } s

/-- The round trip that a report block gives (R319). -/
def rttOf (id arrival lsr dlsr : Nat) (s : State) : Option Nat :=
  ((egrStr id s).srs.find? fun p => decide (p.1 = lsr)).map fun p =>
    max 1 (stampSub arrival p.2 - dlsr * 2000 / 65536)

/-- The report blocks of an SR or RR: the one for the leg's egress video SSRC is a loss input. -/
def reportsIn (leg arrival : Nat) (l : List Nat) (s : State) : State :=
  (groups (l.length / 24 + 1) 24 l).foldl (fun s b =>
    match egrBySsrc leg (beAt b 0 4) s with
    | some id =>
      if (egrContexts leg 1 s).contains id then
        fbPush leg arrival (.loss (b.getD 4 0) (if beAt b 16 4 = 0 then none else rttOf id arrival (beAt b 16 4) (beAt b 20 4) s)) s
      else s
    | none => s) s

/-- The numbers a generic NACK names. -/
def nackNums (l : List Nat) : List Nat :=
  ((groups (l.length / 4 + 1) 4 l).map fun g =>
    let p := beAt g 0 2
    let m := beAt g 2 2
    p :: ((List.range 16).filter fun i => bit m i).map fun i => (p + i + 1) % 65536).flatten

/-- The status symbols of a transport-wide report's chunks: 0 not received, 1 a small delta, 2 a large one. -/
def twccSymbols (fuel need : Nat) (l : List Nat) : List Nat × List Nat :=
  match fuel with
  | 0 => ([], l)
  | f + 1 =>
    if need = 0 then ([], l)
    else
      let c := beAt l 0 2
      let syms := if !bit c 15 then List.replicate (c % 8192) (c / 8192 % 4)
        else if !bit c 14 then (List.range 14).map fun i => b2n (bit c (13 - i))
        else (List.range 7).map fun i => c / 4 ^ (6 - i) % 4
      let syms := syms.take need
      let r := twccSymbols f (need - syms.length) (l.drop 2)
      (syms ++ r.1, r.2)

/-- The packets a transport-wide report gives as received, with their times in 250 µs. -/
def twccGot (l : List Nat) : List (Nat × Int) :=
  let base := beAt l 8 2
  let n := beAt l 10 2
  let ref : Int := toS 24 (beAt l 12 3) * 256
  let r := twccSymbols (n + 1) n (l.drop 16)
  ((r.1.zip (List.range n)).foldl (fun (a : List (Nat × Int) × Int × List Nat) p =>
    if p.1 = 1 then
      let t := a.2.1 + (a.2.2.headD 0 : Nat)
      (a.1 ++ [((base + p.2) % 65536, t)], t, a.2.2.drop 1)
    else if p.1 = 2 then
      let t := a.2.1 + toS 16 (beAt a.2.2 0 2)
      (a.1 ++ [((base + p.2) % 65536, t)], t, a.2.2.drop 2)
    else a) (([] : List (Nat × Int)), ref, r.2)).1

/-- A cap of mantissa and exponent in kb/s. -/
def capKbps (m e : Nat) : Nat := m * 2 ^ e / 1000

/-- One packet of a compound from a leg; `key leg fir` is what a PLI or FIR asks for. -/
def rtcpPart (leg arrival : Nat) (key : Nat → Bool → State → State) (p : Nat × Nat × List Nat) (s : State) : State :=
  let l := p.2.2
  match p.2.1, p.1 with
  | 200, _ =>
    let s := match findSsrc leg (beAt l 0 4) s with
      | some id => (match tfind s.ctl.streams id with
        | some st => streamPut id { st with rx := { st.rx with lsr := beAt l 6 4, lsrAt := some arrival } } s
        | none => s)
      | none => s
    reportsIn leg arrival (l.drop 24) s
  | 201, _ => reportsIn leg arrival (l.drop 4) s
  | 205, 1 => (match egrBySsrc leg (beAt l 4 4) s with
    | some id => fbPush leg arrival (.nack id (nackNums (l.drop 8))) s
    | none => s)
  | 205, 3 => fbPush leg arrival (.tmmbr (capKbps (beAt l 12 4 / 2 ^ 9 % 2 ^ 17) (beAt l 12 4 / 2 ^ 26))) s
  | 205, 15 => fbPush leg arrival (.twcc (twccGot l)) s
  | 206, 1 => key leg false s
  | 206, 4 => key leg true s
  | 206, 15 =>
    if beAt l 8 4 = 0x52454D42 then fbPush leg arrival (.remb (capKbps (beAt l 13 3 % 2 ^ 18) (beAt l 13 3 / 2 ^ 18))) s else s
  | _, _ => s

/-- A verified compound of a leg. -/
def rtcpReceived (leg arrival : Nat) (key : Nat → Bool → State → State) (l : List Nat) (s : State) : State :=
  (rtcpParts (l.length / 4 + 1) l).foldl (fun s p => rtcpPart leg arrival key p s) s

/-! ## Staged subscriptions (R302 to R304) -/

def fwdStageRegs (fn : Fn) : StageRegs :=
  ⟨R.FWD_STAGE_STAMP_stamp fn, R.FWD_STAGE_STATUS_armed fn, R.FWD_STAGE_STATUS_collision fn, R.FWD_STAGE_STATUS_late fn,
    R.FWD_STAGE_STATUS_result fn, R.FWD_STAGE_STATUS_lateness fn, R.FWD_STAGE_EFFECT_stamp fn⟩

/-- The change the FWD staging registers of a function hold. -/
def fwdStaged (fn : Fn) (s : State) : Staged :=
  let op := fget (R.FWD_STAGE_OP_op fn) s
  let tg := fget (R.FWD_STAGE_OP_target fn) s
  let a := [fget (R.FWD_STAGE_ARG0_source fn) s, fget (R.FWD_STAGE_ARG0_max_spatial fn) s, fget (R.FWD_STAGE_ARG0_max_temporal fn) s,
    fget (R.FWD_STAGE_ARG0_transcode_ok fn) s, fget (R.FWD_STAGE_ARG0_canvas fn) s, fget (R.FWD_STAGE_ARG1_cap fn) s]
  let st := fget (R.FWD_STAGE_STAMP_stamp fn) s
  let w := a.getD 0 0 + a.getD 1 0 * 2 ^ 14 + a.getD 2 0 * 2 ^ 16 + a.getD 3 0 * 2 ^ 18 + a.getD 4 0 * 2 ^ 24
  ⟨op, tg, a, st, leBytes 4 (op + tg * 65536) ++ leBytes 4 w ++ leBytes 4 (a.getD 5 0) ++ leBytes 8 st⟩

/-- A go of FWD_STAGE_CTRL. -/
def fwdGo (fn : Fn) (s : State) : State := stageArm 2 fn (fwdStageRegs fn) (fwdStaged fn s) s

/-- Whether the fallback may serve a source that is not codec-matched (R304). -/
def transcodable (src : Nat) (ok : Bool) (l : Leg) (s : State) : Bool :=
  match tfind s.ctl.legs src with
  | none => ok
  | some k => ok && decide (k.vcodec ≠ 3) && decide (l.vcodec ≠ 2) && decide (l.vcodec ≠ 3)

/-- Op 1's checks in order: 0 where all pass (R302 to R304). -/
def subscribeCheck (fn : Fn) (leg : Nat) (sub : Sub) (s : State) : Nat :=
  let follow := decide (sub.source = 0x3FFF)
  if !owns fn 0 leg s || (!follow && !owns fn 0 sub.source s) || !owns fn 4 sub.canvas s then 1
  else match tfind s.ctl.legs leg with
    | none => 5
    | some l =>
      let t := actTpl l.act s
      if l.st ≠ .active || (egrContexts leg 1 s).isEmpty || l.vcodec = 0 || t.kind = 3 then 5
      else
        let srcOk := match tfind s.ctl.legs sub.source with
          | some k => decide (k.st = .active) && decide (k.act = l.act)
          | none => false
        if sub.maxS = 3 || sub.maxT = 3 then 2
        else if follow then (if t.mixing then 0 else 2)
        else if !srcOk then 2
        else if codecMatched sub.source l s || transcodable sub.source sub.transcode l s then 0
        else 3

/-- A leg's remote source forgotten: its subscription names a source of its own again. -/
def casForget (leg : Nat) (s : State) : State := { s with cas := { s.cas with remote := terase s.cas.remote leg } }

/-- Op 1 at its boundary. -/
def subscribe (fn : Fn) (leg : Nat) (sub : Sub) (s : State) : Nat × State :=
  match subscribeCheck fn leg sub s with
  | 0 => (0, casForget leg (fwdLegPut leg { fwdLeg leg s with sub := some sub } s))
  | r => (r, s)

/-- Op 2 at its boundary: nothing is forwarded to the leg any more. -/
def unsubscribe (fn : Fn) (leg : Nat) (s : State) : Nat × State :=
  if !owns fn 0 leg s then (1, s)
  else match tfind s.ctl.legs leg with
    | none => (5, s)
    | some l =>
      if l.st ≠ .active || (egrContexts leg 1 s).isEmpty || l.vcodec = 0 || (actTpl l.act s).kind = 3 then (5, s)
      else (0, casForget leg (fwdLegPut leg { fwdLeg leg s with
        sub := none
        cur := none
        pend := none
        src := none
        run := none
        comp := none
        sent := [] } s))

/-- Op 3 at its boundary. -/
def legCap (fn : Fn) (leg cap : Nat) (s : State) : Nat × State :=
  if !owns fn 0 leg s then (1, s)
  else match tfind s.ctl.legs leg with
    | none => (5, s)
    | some l =>
      if l.st ≠ .active || (egrContexts leg 1 s).isEmpty || l.vcodec = 0 || (actTpl l.act s).kind = 3 then (5, s)
      else (0, fwdLegPut leg { fwdLeg leg s with cap := cap } s)

/-- A due FWD change of a function applied (R302). -/
def fwdApply (fn : Fn) (b : Nat) (s : State) : State :=
  match stageDue 2 b fn s with
  | none => s
  | some c =>
    let a := fun (i : Nat) => c.args.getD i 0
    let r := match c.op with
      | 1 => subscribe fn c.target ⟨a 0, a 1, a 2, decide (a 3 = 1), a 4⟩ s
      | 2 => unsubscribe fn c.target s
      | 3 => legCap fn c.target (a 5) s
      | _ => (2, s)
    stageEnd 2 b EV_FWD_STAGE_DONE fn (fwdStageRegs fn) c r.1 1 r.2

/-- FWD_SUBSCRIBE: a go with op 1 staged. -/
def execFwdSubscribe (fn : Fn) (s : State) : Out := .next (if fget (R.FWD_STAGE_OP_op fn) s = 1 then fwdGo fn s else s)

/-- FWD_UNSUBSCRIBE: a go with op 2 staged. -/
def execFwdUnsubscribe (fn : Fn) (s : State) : Out := .next (if fget (R.FWD_STAGE_OP_op fn) s = 2 then fwdGo fn s else s)

/-- FWD_SET_LEG_CAP: a go with op 3 staged. -/
def execFwdSetLegCap (fn : Fn) (s : State) : Out := .next (if fget (R.FWD_STAGE_OP_op fn) s = 3 then fwdGo fn s else s)

/-! ## Requests and retransmissions -/

/-- RECEIVER_NACK: the NACKs of a leg that are due are processed (R319). -/
def execReceiverNack (leg : Nat) (s : State) : Out := .next (rtxRun leg s.clk.stamp s)

/-- UPSTREAM_NACK: the missing numbers of a video context requested (R316). -/
def execUpstreamNack (stream : Nat) (s : State) : Out := .next (upstreamNack stream s.clk.stamp s)

/-- FIR_ESCALATION: a switch that has waited 2,000 blocks for a key picture (R316). -/
def execFirEscalation (leg : Nat) (s : State) : Out :=
  .next (match (fwdLeg leg s).pend with
    | none => s
    | some p =>
      if needsKey (fwdLeg leg s) p s && 2000 ≤ stampSub s.clk.stamp p.since then
        match choiceCtx p.src p.s s with
        | some c => fwdFir c s.clk.stamp s
        | none => s
      else s)

/-! ## Rewind rings (R320 to R322) -/

/-- A staged length of a rewind ring: taken at once where nothing has been written. -/
def rwStage (id n : Nat) (s : State) : State :=
  match tfind s.egr.rings id with
  | none => s
  | some r =>
    let s := { s with egr := { s.egr with rings := tset s.egr.rings id { r with staged := some n } } }
    if r.top.isNone then rwResize id s else s

/-- FWD_RW_RESIZE: a write with go stages a length of 6 to 14 for a ring the function owns; others are ignored (R322). -/
def execFwdRwResize (fn : Fn) (v : Nat) (s : State) : Out :=
  let id := v % 65536
  let n := bits v 16 4
  .next (if bit v 31 && within 6 14 n && owns fn 2 id s then rwStage id n s else s)

/-- REWIND_MARK at its boundary (R320): a mark set at the next number to be sent, or cleared. -/
def applyRewindMark (c : Cmd) (_b : Nat) (s : State) : State × Option Rsp :=
  let id := c.target
  if 65536 ≤ id then (s, some (rspErr stBadId))
  else if !owns c.fn 2 id s then (s, some (rspErr stNotOwned))
  else match tfind s.ctl.streams id, tfind s.egr.rings id with
    | some st, some r =>
      let m := carg c 0x18 1
      if st.dir ≠ 1 then (s, some (rspErr stBadState))
      else if 3 < m || 1 < carg c 0x19 1 || !czero c 0x1A then (s, some (rspErr stBadArg))
      else
        let seq := egrIndex st (egrStr id s).count % 2 ^ 32
        if carg c 0x19 1 = 1 then
          ({ s with egr := { s.egr with rings := tset s.egr.rings id { r with marks := terase r.marks m } } }, some rspOk)
        else
          ({ s with egr := { s.egr with rings := tset s.egr.rings id { r with marks := tset r.marks m seq } } }, some (rspRes seq))
    | _, _ => (s, some (rspErr stBadState))

end Sys2Proof.Machine
end

