-- ==== Sys2Proof/Machine/Dram.lean ====
section
/-! DEFINITION. Where device addresses lie in DRAM channels, lost and remapped stripes, poisoned lines (spec/15_dram_ledger.md R368 to
R379). -/
namespace Sys2Proof.Machine

/-! ## The address map (R370) -/

/-- Stripes of a channel of `gib` GiB. -/
def gibStripes (gib : Nat) : Nat := gib * 2 ^ 18

/-- The plan's size of a channel in GiB. -/
def chanGib (c : Nat) (s : State) : Nat := le (devBody s.frm.timbers tyMem) (4 + c) 1

/-- A region's place in the plan with the region, that holds address `a`. -/
def regionAtAddr (a : Nat) (s : State) : Option (Nat × Region) :=
  ((List.range (regions s).length).zip (regions s)).find? fun p => decide (p.2.base ≤ a) && decide (a < p.2.base + p.2.size)

/-- The first address of [a, a + n) that lies in no region that `ok` admits; none where every byte lies in one. -/
def strayAt (ok : Region → Bool) (fuel a n : Nat) (s : State) : Option Nat :=
  match fuel with
  | 0 => if n = 0 then none else some a
  | f + 1 =>
    if n = 0 then none
    else match (regions s).find? fun g => ok g && decide (g.base ≤ a) && decide (a < g.base + g.size) with
      | none => some a
      | some g =>
        let k := min n (g.base + g.size - a)
        strayAt ok f (a + k) (n - k) s

/-- ISOLATION_BLOCK (R21): an access of Ring `r`'s tag to address `a` not performed, counted for the Ring; the region is named by its place in
the plan, 0xFFFF where the address lies in none. -/
def isolationBlock (r a unit : Nat) (s : State) : State :=
  let g := ((regionAtAddr a s).map (·.1)).getD 0xFFFF
  raise (ev EV_ISOLATION_BLOCK unit (some r) 0 0 g s) (cinc (objCnt 6 r 0) s)

/-- The number of the stripe of an interleaved region's address, counting the stripes of all interleaved regions in ascending order. -/
def stripeNo (g : Region) (a : Nat) (s : State) : Nat :=
  (((regions s).filter fun h => decide (h.mirror = 0) && decide (h.base < g.base)).map fun h => h.size / 4096).foldl (· + ·) 0 + (a - g.base) / 4096

/-- The stripes of all interleaved regions. -/
def stripesAll (s : State) : Nat := (((regions s).filter fun h => decide (h.mirror = 0)).map fun h => h.size / 4096).foldl (· + ·) 0

/-! ## Remapping (R378): each stripe goes to the survivor with the most free reserve, the lowest channel on a tie.

A survivor with r free stripes takes stripes at the levels r, r − 1, … 1, and the stripes are taken by falling level, then by rising
channel: so the place of the t-th stripe has a closed form. -/

/-- Stripes taken at levels above `l`. -/
def fillAbove (rs : Tbl Nat) (l : Nat) : Nat := (rs.map fun p => p.2 - l).foldl (· + ·) 0

/-- The level at which the t-th stripe is taken: the least l with at most t stripes taken above it; found by halving. -/
def fillLevel (fuel : Nat) (rs : Tbl Nat) (t lo hi : Nat) : Nat :=
  match fuel with
  | 0 => hi
  | f + 1 =>
    if hi ≤ lo then hi
    else
      let m := (lo + hi) / 2
      if fillAbove rs m ≤ t then fillLevel f rs t lo m else fillLevel f rs t (m + 1) hi

/-- All the free reserve. -/
def fillTotal (rs : Tbl Nat) : Nat := fillAbove rs 0

/-- The level of the t-th stripe. -/
def levelOfStripe (rs : Tbl Nat) (t : Nat) : Nat := fillLevel 40 rs t 0 ((rs.map (·.2)).foldl max 0)

/-- The survivor that takes the t-th stripe: none where no reserve remains. -/
def fillAt (rs : Tbl Nat) (t : Nat) : Option Nat :=
  if fillTotal rs ≤ t then none
  else
    let l := levelOfStripe rs t
    ((rs.filter fun p => decide (l ≤ p.2)).map (·.1))[t - fillAbove rs l]?

/-- How many of the first t stripes a survivor takes. -/
def fillCount (rs : Tbl Nat) (t c : Nat) : Nat :=
  let r := tget 0 rs c
  if fillTotal rs ≤ t then r
  else
    let l := levelOfStripe rs t
    let before := ((rs.filter fun p => decide (l ≤ p.2)).map (·.1)).take (t - fillAbove rs l)
    (r - l) + b2n (before.contains c)

/-- Of the stripes below j, how many lie on channel c after the losses in `l` (last lost first). -/
def stripesOn (pop : List Nat) (l : List ChLoss) (j c : Nat) : Nat :=
  match l with
  | [] =>
    match pop.findIdx? fun k => decide (k = c) with
    | some i => (j + pop.length - 1 - i) / pop.length
    | none => 0
  | x :: r => if c = x.ch then 0 else stripesOn pop r j c + fillCount x.reserve (stripesOn pop r j x.ch) c

/-- The channel of stripe j after the losses in `l` (last lost first): none where no reserve remained for it. -/
def stripeChan (pop : List Nat) (l : List ChLoss) (j : Nat) : Option Nat :=
  match l with
  | [] => pop[j % pop.length]?
  | x :: r =>
    match stripeChan pop r j with
    | none => none
    | some c => if c = x.ch then fillAt x.reserve (stripesOn pop r j x.ch) else some c

/-- Whether a loss in `l` (last lost first) moved stripe j; whether one that moved it is not yet remapped. -/
def stripeMoved (pop : List Nat) (l : List ChLoss) (j : Nat) : Bool :=
  match l with
  | [] => false
  | x :: r => stripeMoved pop r j || decide (stripeChan pop r j = some x.ch)

def stripeAway (pop : List Nat) (l : List ChLoss) (j : Nat) : Bool :=
  match l with
  | [] => false
  | x :: r => stripeAway pop r j || (!x.done && decide (stripeChan pop r j = some x.ch))

/-- The losses, last lost first. -/
def lossesBack (s : State) : List ChLoss := s.ddr.losses.reverse

/-- The channels that hold a whole copy of a mirrored region. -/
def mirrorOn (i : Nat) (g : Region) (s : State) : List Nat := (tfind s.ddr.mirrors i).getD [g.chanA, g.chanB]

/-- Whether the line at 64 × l cannot be read: it holds a poison code, or its stripe was lost and it has not been written since, or its
mirrored region has no copy left. -/
def linePoisoned (l : Nat) (s : State) : Bool :=
  s.mem.poison.contains l ||
    (!s.ddr.losses.isEmpty && match regionAtAddr (64 * l) s with
      | none => false
      | some (i, g) =>
        if g.mirror = 1 then (mirrorOn i g s).isEmpty
        else
          let j := stripeNo g (64 * l) s
          (stripeChan s.ddr.pop (lossesBack s) j).isNone || stripeAway s.ddr.pop (lossesBack s) j
            || (stripeMoved s.ddr.pop (lossesBack s) j && !s.ddr.fresh.contains l))

/-- Whether a line of [a, a + n) cannot be read. -/
def poisoned (a n : Nat) (s : State) : Bool :=
  if s.mem.poison.isEmpty && s.ddr.losses.isEmpty then false
  else (List.range ((a + n + 63) / 64 - a / 64)).any fun i => linePoisoned (a / 64 + i) s

/-- The channels that hold a line. -/
def lineOn (l : Nat) (s : State) : List Nat :=
  match regionAtAddr (64 * l) s with
  | none => []
  | some (i, g) =>
    if g.mirror = 1 then mirrorOn i g s
    else match stripeChan s.ddr.pop (lossesBack s) (stripeNo g (64 * l) s) with
      | some c => [c]
      | none => []

/-! ## Reserve -/

/-- A channel takes requests. -/
def chanUp (c : Nat) (s : State) : Bool := decide (fget (R.DDR_CH_STATUS_state c) s = 2)

/-- Stripes of storage that mirrored regions, and copies under way, take of a channel. -/
def mirrorStripes (c : Nat) (s : State) : Nat :=
  (((List.range (regions s).length).zip (regions s)).map fun p =>
    if p.2.mirror = 1 && ((mirrorOn p.1 p.2 s).contains c || s.ddr.copies.any fun k => decide (k.region = p.1) && decide (k.ch = c))
    then p.2.size / 4096 else 0).foldl (· + ·) 0

/-- The free reserve of a channel in stripes. -/
def chanFree (c : Nat) (s : State) : Nat :=
  gibStripes (chanGib c s) - (stripesOn s.ddr.pop (lossesBack s) (stripesAll s) c + mirrorStripes c s)

/-- The channels that take requests, ascending. -/
def chansUp (s : State) : List Nat := (List.range 12).filter fun c => chanUp c s

/-! ## Whether a plan fits the channels that trained (R368, R370) -/

/-- The plan's regions fit a set of populated channels. -/
def planFits (pop : List Nat) (s : State) : Bool :=
  let body := devBody s.frm.timbers tyMem
  let gs := regionsIn body
  let t := ((gs.filter fun g => decide (g.mirror = 0)).map fun g => g.size / 4096).foldl (· + ·) 0
  !pop.isEmpty && (gs.all fun g => decide (g.mirror = 0) || (pop.contains g.chanA && pop.contains g.chanB)) &&
    ((List.range pop.length).zip pop).all fun p =>
      decide ((t + pop.length - 1 - p.1) / pop.length +
        (((gs.filter fun g => decide (g.mirror = 1) && (decide (g.chanA = p.2) || decide (g.chanB = p.2))).map fun g => g.size / 4096).foldl (· + ·) 0)
        ≤ gibStripes (le body (4 + p.2) 1))

end Sys2Proof.Machine
end

