-- ==== Sys2Proof/Machine/Crsl.lean ====
section
/-! DEFINITION. The Carousel (spec/09_carousel.md): ready queues, barriers, the life of a work item. -/
namespace Sys2Proof.Machine

/-! ## Items and cores -/

def itemFind (h : Nat) (s : State) : Option Item := tfind s.crsl.items h
def itemPut (h : Nat) (i : Item) (s : State) : State := { s with crsl := { s.crsl with items := tset s.crsl.items h i } }

/-- A core that has run nothing. -/
def Core.init : Core := ⟨[], 0, 0, 0, 0, [], 0, [], [], [], 0, none, [], 0, [], none, none, false, false, false⟩
def coreGet (c : Nat) (s : State) : Core := tget Core.init s.crsl.cores c
def corePut (c : Nat) (k : Core) (s : State) : State := { s with crsl := { s.crsl with cores := tset s.crsl.cores c k } }

/-- The cluster and Bay of a core, the Bay of a cluster. -/
def coreCluster (c : Nat) : Nat := c / 17
def clusterBay (cl : Nat) : Nat := cl / 8

/-- TMB_CORE_STATUS.state (R233). -/
def csIdle : Nat := 0
def csRun : Nat := 1
def csSpare : Nat := 2
def csDebug : Nat := 3
def csHalted : Nat := 4
def csRetired : Nat := 5
def coreSt (c : Nat) (s : State) : Nat := fget (R.TMB_CORE_STATUS_state c) s
def coreStPut (c v : Nat) (s : State) : State := fset (R.TMB_CORE_STATUS_state c) v s

/-- Whether a core takes service items: IDLE or RUN, and not under the test of R406. -/
def coreServes (c : Nat) (s : State) : Bool := decide (coreSt c s ≤ 1) && !s.crsl.testing.contains (unitCore c)

/-- Whether a cluster holds a core in service (R237); those of a LOST or QUARANTINED Bay are isolated (R410). -/
def clusterServes (cl : Nat) (s : State) : Bool :=
  !([1, 2].contains (fget (R.FLT_BAY_STATUS_state (clusterBay cl)) s)) && (List.range 17).any fun c => coreServes (17 * cl + c) s

/-- Handles in use on a Bay (R235). -/
def bayItems (b : Nat) (s : State) : Nat := (s.crsl.items.filter fun p => decide (p.2.d.bay = b)).length

/-- The handle counts shown (R251). -/
def flightSync (s : State) : State :=
  let s := fset R.CRSL_STATUS_in_flight s.crsl.items.length s
  (List.range 4).foldl (fun s b =>
    let n := bayItems b s
    fset (R.CRSL_BAY_FLIGHT_in_flight b) n
      { s with crsl := { s.crsl with peak := tset s.crsl.peak b (max n (tget 0 s.crsl.peak b)) } }) s

/-! ## Ready queues (R243 to R247) -/

/-- The depth a ready queue has. -/
def readyDepth (cl : Nat) (s : State) : Nat := (queueDepth 1 cl s).getD readyDefault

def RQueue.init : RQueue := ⟨[], [], 0, readyDefault, none, 0, false, false, false⟩
def rqGet (cl : Nat) (s : State) : RQueue := tget RQueue.init s.crsl.queues cl

/-- The address of a cluster's counter, of a queue's ECC counters, of a core's counter. -/
def clCnt (cl o : Nat) : Nat := 0x290000 + 0x100 * cl + o
def qeccCnt (q o : Nat) : Nat := 0x2A0000 + 0x20 * q + o
def coreCnt (c o : Nat) : Nat := coreBase c + o

/-- A counter of happenings inside the part that no rule places in time (log entry 151): a link's corrected and uncorrected codewords, a
queue's corrected words, a core's corrected errors, a tile's and a compositor's corrected errors, a DRAM channel's bytes
read and written, the Ledger's corrected words. -/
def openCnt (a : Nat) : Bool :=
  (List.range 8).any (fun l => a = 0x101068 + 0x200 * l || a = 0x101070 + 0x200 * l)
    || (decide (0x300000 ≤ a ∧ a < 0x500000) && (List.range 544).any fun c => a = coreCnt c 0x58)
    || (List.range 64).any (fun q => a = qeccCnt q 0) || (List.range 68).any (fun t => a = 0x500078 + 0x4000 * t) || (List.range 4).any (fun k => a = 0x640060 + 0x10000 * k)
    || (List.range 12).any (fun c => a = 0x6C0040 + 0x4000 * c || a = 0x6C0048 + 0x4000 * c) || a = 0x7C0108

/-- An open counter: what each block since reset added to it. -/
def openTotal (a : Nat) (s : State) : Nat :=
  min cntMax ((List.range s.shown.blocks).foldl (fun n k => n + Config.openCount s.shown.draw k a) 0)

/-- A counter as the host sees it: as it stood at the last closed boundary (R460). -/
def cshow (a : Nat) (s : State) : Nat := if openCnt a then openTotal a s else tget 0 s.cntSh a

/-- CRSL_QECC_STATUS.corr of a queue: a word has been corrected since the bit was cleared (R251). -/
def qeccCorr (q : Nat) (s : State) : Bool := decide (tget 0 s.crsl.corrAt q < openTotal (qeccCnt q 0) s)

/-- The bit cleared by a 1 written to it (R10). -/
def qeccClear (q : Nat) (s : State) : State :=
  { s with crsl := { s.crsl with corrAt := tset s.crsl.corrAt q (openTotal (qeccCnt q 0) s) } }

/-- A ready queue replaced, its registers shown. -/
def rqPut (cl : Nat) (q : RQueue) (s : State) : State :=
  let s := { s with crsl := { s.crsl with queues := tset s.crsl.queues cl q } }
  let s := fset (R.CRSL_QDEPTH_depth cl) q.q.length (fset (R.CRSL_QDEPTH_full cl) (b2n (q.q.length = q.cap)) s)
  let s := fset (R.CRSL_QDEPTH_spill cl) (b2n (!q.spill.isEmpty)) s
  fset (R.CRSL_QCAP_capacity cl) q.cap (fset (R.CRSL_QCAP_staged cl) (q.staged.getD q.cap) s)

/-- A handle pushed: stored, counted, the level crossed or not; refused by a full queue, which leaves it in the spill register. Where a pop
of the same cycle came before it, the depth at the cycle's start is one more, and nothing crosses (R244). -/
def rqPush (cl h prio : Nat) (s : State) : State :=
  let q := rqGet cl s
  if q.cap ≤ q.q.length then
    let s := rqPut cl { q with spill := q.spill ++ [(h, prio)], spills := q.spills + 1 } (cinc (clCnt cl 0x50) s)
    match rateOk (rateKey EV_QUEUE_FULL cl) 2000 s with
    | (true, s) => raiseUnit EV_QUEUE_FULL (unitCluster cl) (cl + (q.spills + 1) * 2 ^ 32) (rqPut cl { rqGet cl s with spills := 0 } s)
    | (false, s) => s
  else
    let n := q.q.length + 1
    let w := (q.wptr + 1) % q.cap
    let s := rqPut cl { q with q := q.q ++ [⟨h, prio, q.wptr⟩], wptr := w, used := true, due := q.due || decide (w = 0), popped := false }
      (cinc (clCnt cl 0x40) s)
    let lv := fget (R.CRSL_QTHRESH_level cl) s
    if lv = n && !q.popped then signal .pf (66 + cl) (fset (R.CRSL_QTHRESH_crossed cl) 1 s) else s

/-- Handles of QUEUED items of a cluster pushed again by a rescan of the state table (R246). -/
def rescan (cl : Nat) (s : State) : State :=
  (s.crsl.items.filter fun p => decide (p.2.st = .queued cl)).foldl (fun s p => rqPush cl p.1 p.2.prio s) s

/-- A staged capacity that is due taken (R247, R115); where none is staged nothing is due. -/
def rqSettle (cl : Nat) (s : State) : State :=
  let q := rqGet cl s
  match q.staged with
  | none => s
  | some d =>
    if !q.due then s
    else
      let kept := q.q.filter fun e => decide (e.pos < d)
      let lost := q.q.length - kept.length
      let s := rqPut cl { q with q := kept, cap := d, staged := none, due := false } s
      if lost = 0 then s else rescan cl (cadd (clCnt cl 0x60) lost s)

/-- The ready queues staged to the depths of the structure in force (R44, R247). -/
def readySizes (s : State) : State :=
  (List.range 32).foldl (fun s cl =>
    let q := rqGet cl s
    let d := readyDepth cl s
    if d = q.cap then rqPut cl { q with staged := none } s
    else rqSettle cl (rqPut cl { q with staged := some d, due := !q.used } s)) s

/-! ## Placement (R237, R248) -/

/-- The cluster of least depth among some, the lowest on a tie. -/
def leastDeep (l : List Nat) (s : State) : Option Nat := argMin (l.map fun cl => (cl, ((rqGet cl s).q.length : Int)))

/-- The clusters of a Bay that an item's binding allows and that hold a core in service. -/
def clustersOf (bay mask : Nat) (s : State) : List Nat :=
  (List.range 32).filter fun cl => decide (clusterBay cl = bay) && bit mask cl && clusterServes cl s

/-- The clusters that the runs of an item or of the copies it is compared with hold. -/
def sideClusters (h : Nat) (i : Item) (s : State) : List Nat :=
  let orig := i.copyOf.getD h
  s.crsl.items.filterMap fun p => if p.1 ≠ h && (p.1 = orig || p.2.copyOf = some orig) && p.2.dbg.isNone then p.2.cluster else none

/-- The cluster of least depth among some, one that a re-run has not run on where there is such a one. -/
def leastDeepNew (i : Item) (l : List Nat) (s : State) : Option Nat :=
  match leastDeep (if i.rerun then l.filter fun cl => decide (i.cluster ≠ some cl) else l) s with
  | some cl => some cl
  | none => leastDeep l s

/-- The cluster an item is pushed to. A copy for comparison goes to another cluster of the Bay, else of another Bay; a re-run to another
cluster where its mask allows one. -/
def clusterFor (h : Nat) (i : Item) (s : State) : Option Nat :=
  let own := clustersOf i.d.bay i.clusters s
  if i.copyOf.isSome && i.dbg.isNone then
    let used := sideClusters h i s
    match leastDeepNew i (own.filter fun cl => !used.contains cl) s with
    | some cl => some cl
    | none => leastDeepNew i ((((List.range 4).map fun b => clustersOf b i.clusters s).flatten).filter fun cl => !used.contains cl) s
  else leastDeepNew i own s

/-- An item pushed to a ready queue. Where no cluster can take it, it stays as it is. -/
def itemQueue (h : Nat) (i : Item) (s : State) : State :=
  match clusterFor h i s with
  | none => itemPut h { i with st := .held } s
  | some cl => rqSettle cl (rqPush cl h i.prio (itemPut h { i with st := .queued cl, cluster := some cl } s))

/-! ## Creation (R234 to R236, R242) -/

/-- The structure in force for a stamp (R62, R232): that which the first activation after the stamp replaced, else the present one. -/
def timbersAt (stamp : Nat) (s : State) : List Timber :=
  match s.frm.past.find? fun p => stampAfter p.1 stamp with
  | some p => p.2
  | none => s.frm.timbers

/-- The binding of a kernel for a Ring in a structure (R48): one that names the Ring, else one for every Ring; where several do, the first,
the device's body before the Rings' (log entry 153). -/
def bindingFor (kernel ring : Nat) (t : List Timber) : Option Binding :=
  let l := (bindingsOf t).filter fun b => decide (b.kernel = kernel)
  match l.find? fun b => decide (b.ring = ring) with
  | some b => some b
  | none => l.find? fun b => decide (b.ring = 0xFF)

/-- The kernel image of a binding (R48): of its own scope, or of device scope. -/
def kernelImage (b : Binding) (t : List Timber) : List Byte :=
  let own := if b.scope < 16 then bodyIn t tyKernel 1 b.scope b.image else []
  if own.isEmpty then bodyIn t tyKernel 0 0xFF b.image else own

/-- A free handle: the first from an unstated place up (log entry 41). -/
def freeHandle (s : State) : Option Nat × State :=
  let f := takeFree s
  let start := Config.handleFrom f.1 % 131072
  ((List.range (s.crsl.items.length + 1)).findSome? fun k =>
    let h := (start + k) % 131072
    if (tfind s.crsl.items h).isNone then some h else none, f.2)

/-- Whether a handle may be given on a Bay. -/
def handleRoom (bay : Nat) (s : State) : Bool := decide (bayItems bay s < 32768) && decide (s.crsl.items.length < 131072)

/-- The offset of a stage of the audio path from its release block (R27): decode 0, mix and encode 1, packetise and transmit 2. -/
def stageOffset (stage : Nat) : Nat := min stage 2

/-- The block an item completes by: the end of its stage's block (R27, R234). -/
def itemDue (d : ItemDesc) : Nat := stampAdd d.stamp (stageOffset d.stage)

/-- The block an item may start from: its stage's own, the window of every stage being 0 (R27, R234). -/
def itemStart (d : ItemDesc) : Nat := itemDue d

/-- An item with a new handle: its descriptor written, HELD. -/
def itemNew (i : Item) (s : State) : Option Nat × State :=
  match freeHandle s with
  | (none, s) => (none, s)
  | (some h, s) => (some h, flightSync (itemPut h i s))

/-- An item left to wait for a handle, counted (R235). -/
def handleWait (w : HandleWait) (s : State) : State :=
  cinc 0x2B0028 { s with crsl := { s.crsl with waits := s.crsl.waits ++ [w] } }

/-- A copy for comparison made of an item and pushed (R248): priority 0; `third`: the run that decides between two that differ. -/
def shadowCopy (h : Nat) (third : Bool) (i : Item) (s : State) : State :=
  if !handleRoom i.d.bay s then handleWait ⟨i.d, some h, third, none⟩ s
  else
    let c : Item := { i with
      sel := false
      copyOf := some h
      third := third
      rerun := false
      prio := 0
      ran := none
      cluster := none
      writes := []
      status := 0
      st := .held }
    match itemNew c s with
    | (none, s) => s
    | (some k, s) => itemQueue k c (cinc 0x2B0000 s)

/-- A debug copy of an item for core `c` (R229). -/
def debugCopy (h c : Nat) (i : Item) (s : State) : State :=
  if !handleRoom i.d.bay s then handleWait ⟨i.d, some h, false, some c⟩ s
  else (itemNew { i with
    sel := false
    copyOf := some h
    dbg := some c
    prio := 0
    st := .held } s).2

/-- A debug copy of an item for each core in DEBUG whose kernel it is (R229). -/
def debugCopies (i : Item) (h : Nat) (s : State) : State :=
  ((tkeys s.crsl.cores).filter fun c => (decide (coreSt c s = csDebug) || decide (coreSt c s = csHalted)) &&
      decide (fget (R.TMB_CORE_CTRL_dbg_kernel c) s = i.d.kernel) && decide (clusterBay (coreCluster c) = i.d.bay)).foldl (fun s c => debugCopy h c i s) s

/-- An item whose start window has begun is pushed; its copies are made. -/
def itemRelease (h : Nat) (s : State) : State :=
  match itemFind h s with
  | none => s
  | some i =>
    if i.st ≠ .held || i.dbg.isSome || !stampGe s.clk.stamp (itemStart i.d) then s
    else
      let s := itemQueue h i s
      if i.copyOf.isSome then s
      else
        let s := debugCopies i h s
        match itemFind h s with
        | some i => if i.sel && i.st ≠ .held then shadowCopy h false i s else s
        | none => s

/-- Whether the Bay's counter selects the next item for shadow re-execution (R248). -/
def shadowPick (bay : Nat) (s : State) : Bool × State :=
  let n := tget 0 s.crsl.shadow bay + 1
  let hit := decide (2 ^ shadowLog2 s ≤ n)
  (hit, { s with crsl := { s.crsl with shadow := tset s.crsl.shadow bay (if hit then 0 else n) } })

/-- A barrier's entry. -/
def Barrier.init : Barrier := ⟨0, 0, 0, [], false, false⟩
def barGet (b : Nat) (s : State) : Barrier := tget Barrier.init s.crsl.barriers b
def barPut (b : Nat) (x : Barrier) (s : State) : State := { s with crsl := { s.crsl with barriers := tset s.crsl.barriers b x } }

/-- An item expected at its barrier; a barrier that has closed starts anew. -/
def barExpect (b : Nat) (s : State) : State :=
  let x := if (barGet b s).closed then Barrier.init else barGet b s
  barPut b { x with expected := x.expected + 1 } s

/-- An item created from its descriptor, or left to wait for a handle; its kernel is that of the structure in force for its stamp (R232), its
priority the binding's (R234). A kernel that no binding names has no item. -/
def itemMake (d : ItemDesc) (s : State) : State :=
  let t := timbersAt d.stamp s
  match bindingFor d.kernel d.ring t with
  | none => s
  | some b =>
    if !handleRoom d.bay s then handleWait ⟨d, none, false, none⟩ s
    else match shadowPick d.bay s with
      | (sel, s) =>
        match itemNew ⟨d, false, sel, none, false, none, .held, none, none, b.clusters, b.maxCycles, b.prio, kernelImage b t, [], 0⟩ s with
        | (none, s) => s
        | (some h, s) => itemRelease h s

/-- Items created as their stage's set: each is expected at its barrier. -/
def itemsMake (l : List ItemDesc) (s : State) : State :=
  let l := l.filter fun d => (bindingFor d.kernel d.ring (timbersAt d.stamp s)).isSome
  l.foldl (fun s d => itemMake d s) (l.foldl (fun s d => barExpect d.barrier s) s)

/-! ## The end of an item -/

/-- A handle freed; copies of the item that wait for a handle are wanted no more. -/
def itemFree (h : Nat) (s : State) : State :=
  flightSync { s with crsl := { s.crsl with
    items := terase s.crsl.items h
    waits := s.crsl.waits.filter fun w => decide (w.copyOf ≠ some h) } }

/-- The copies of an item freed; a core that runs one is left to its caller. -/
def copiesOf (h : Nat) (s : State) : List Nat := tkeysWhere s.crsl.items fun _ i => decide (i.copyOf = some h) && i.dbg.isNone

/-- Whether an item has a copy for comparison, or one that waits for a handle. -/
def copied (h : Nat) (s : State) : Bool :=
  !(copiesOf h s).isEmpty || s.crsl.waits.any fun w => decide (w.copyOf = some h) && w.dbg.isNone

/-- Bytes committed to the Truss, in the order in which they were written. -/
def commitWrites (l : List (Nat × List Byte)) (s : State) : State := l.foldl (fun s w => dramWrite w.1 w.2 s) s

/-- An item counted at its barrier, with the bytes of the run that won. -/
def itemCount (h : Nat) (writes : List (Nat × List Byte)) (s : State) : State :=
  match itemFind h s with
  | none => s
  | some i =>
    let x := barGet i.d.barrier s
    itemFree h (barPut i.d.barrier { x with counted := x.counted + 1 } (commitWrites writes s))

/-- What a missed item means for the media (R28): the block of the legs it serves is degraded; the mix conceals the block of a leg whose decode it
was; where a fault is the cause the Act is reported. -/
def missMedia (d : ItemDesc) (fault : Bool) (s : State) : State :=
  let act := if d.act then some d.subject else (tfind s.ctl.legs d.subject).map (·.act)
  let legs := if d.act then tkeysWhere s.ctl.legs fun _ l => decide (l.act = d.subject) && decide (l.st = .active) else [d.subject]
  let s := legs.foldl (fun s n => degraded n s) s
  let s := if !d.act && decide (d.stage = 0) then legMissed d.subject d.stamp s else s
  match act with
  | some a => if fault then determinismLostAt a 4 d.stamp s else s
  | none => s

/-- Causes of ITEM_MISSED (R250). -/
def missDeadline : Nat := 1
def missKernel : Nat := 2
def missHandle : Nat := 3
def missMajority : Nat := 4

/-- The detail of ITEM_MISSED (R250). The handle's bits [16:0] and the kernel's [23:16] meet in bit 16, which is set where either has it set
(log entry 154). -/
def missDetail (h kernel cause : Nat) : Nat := (h % 2 ^ 17 ||| kernel % 256 * 2 ^ 16) + cause * 2 ^ 24

/-- A miss recorded in the barrier, counted and reported. `h` is the handle, 0 where there is none. -/
def missNote (h : Nat) (d : ItemDesc) (cl : Option Nat) (cause : Nat) (fault : Bool) (s : State) : State :=
  let x := barGet d.barrier s
  let s := barPut d.barrier { x with
    missed := x.missed + 1
    missing := x.missing ++ [d.ordinal]
    det := x.det || fault } s
  let s := match cl with
    | some c => cinc (clCnt c 0x68) s
    | none => s
  let s := raiseObj EV_ITEM_MISSED d.ring (if d.act then 2 else 1) d.subject (missDetail h d.kernel cause) s
  missMedia d fault s

/-! ## Barriers (R242) -/

/-- The bytes of a barrier's status block. -/
def barBytes (x : Barrier) : List Byte :=
  leBytes 4 x.expected ++ leBytes 4 x.counted ++ leBytes 4 x.missed ++ leBytes 4 (1 + 2 * b2n x.det) ++ List.replicate 48 0 ++
    (List.range (ceilDiv x.expected 8)).map fun k =>
      BitVec.ofNat 8 (((List.range 8).filter fun i => x.missing.contains (8 * k + i)).foldl (fun m i => m + 2 ^ i) 0)

/-- Where a status block of some bytes lies: in the critical-table region, at a place the spec does not state (log entry 42). -/
def barPlace (b n : Nat) (s : State) : Option Nat :=
  ((regions s).find? fun g => decide (g.kind = 7) && decide (n ≤ g.size)).map fun g =>
    g.base + 128 * (Config.barrierPlace b % ((g.size - n) / 128 + 1))

/-- The debug copies of a barrier's items that have not started dropped (R229): held, in a prefetch slot, or waiting for a handle. -/
def debugDrop (b : Nat) (s : State) : State :=
  let s := { s with crsl := { s.crsl with waits := s.crsl.waits.filter fun w => !(w.dbg.isSome && decide (w.d.barrier = b)) } }
  (s.crsl.items.filter fun p => p.2.dbg.isSome && decide (p.2.d.barrier = b)).foldl (fun s p =>
    match p.2.st with
    | .held => itemFree p.1 s
    | .prefetched c => itemFree p.1 (corePut c { coreGet c s with pre := none } s)
    | _ => s) s

/-- A barrier whose count is complete closed: its status block written, unstarted debug copies dropped, its consumers created. -/
def barClose (b : Nat) (consumers : List ItemDesc) (s : State) : State :=
  let x := barGet b s
  if x.closed || x.expected = 0 || x.counted + x.missed ≠ x.expected then s
  else
    let bytes := barBytes x
    let s := match barPlace b bytes.length s with
      | some a => dramWrite a bytes s
      | none => s
    let s := barPut b { x with closed := true } s
    itemsMake consumers (debugDrop b s)

end Sys2Proof.Machine
end

