-- ==== Sys2Proof/Machine/FrmCheck.lean ====
section
/-! DEFINITION. A framing image's bytes (spec/02_framing_image.md R36 to R56): the header checks, signature, digests, key unwrap, the two
passes, and the consistency checks of the structure it gives. -/
namespace Sys2Proof.Machine

/-! ## Reasons (R69) -/
def frBadHeader : Nat := 1
def frWrongPart : Nat := 2
def frSigFail : Nat := 3
def frDigestFail : Nat := 4
def frUnwrapFail : Nat := 5
def frTagFail : Nat := 6
def frTagFail2 : Nat := 7
def frCheckFail : Nat := 8
def frScope : Nat := 9
def frBootOnly : Nat := 10
def frAllotInUse : Nat := 11
def frBaseMismatch : Nat := 12
def frStampConflict : Nat := 13
def frTooLarge : Nat := 14
def frFetchErr : Nat := 15

/-- The most bytes an image has (R36). -/
def maxImage : Nat := 16 * 2 ^ 20

/-- The header check of stepping: B1 (R37). -/
def stepping : Nat := 0xB1

/-! ## The timber table (R38) -/

/-- A timber table entry. -/
structure Entry where
  type : Nat
  scope : Nat
  ring : Nat
  flags : Nat
  offset : Nat
  stored : Nat
  plain : Nat
  inst : Nat
  iv : List Byte
  tag : List Byte
  rsv : List Byte
  digest : List Byte
  aad : List Byte
  deriving DecidableEq, Repr

def entryPos (i : Nat) : Nat := 128 + 112 * i

def entryAt (img : List Byte) (i : Nat) : Entry :=
  let o := entryPos i
  ⟨le img o 2, le img (o + 2) 1, le img (o + 3) 1, le img (o + 4) 4, le img (o + 8) 4, le img (o + 12) 4, le img (o + 16) 4,
   le img (o + 20) 4, slice img (o + 0x18) 12, slice img (o + 0x24) 16, slice img (o + 0x34) 12, slice img (o + 0x40) 48, slice img o 24⟩

def imgCount (img : List Byte) : Nat := le img 0x28 4
def imgKind (img : List Byte) : Nat := le img 8 1
def imgRing (img : List Byte) : Nat := le img 9 1

/-- The entries of an image with their indices. -/
def entries (img : List Byte) : List (Nat × Entry) := (List.range (min 256 (imgCount img))).map fun i => (i, entryAt img i)

def Entry.enc (e : Entry) : Bool := bit e.flags 0

/-- The ENCRYPTED timbers in table order. -/
def encEntries (img : List Byte) : List (Nat × Entry) := (entries img).filter fun p => p.2.enc

/-- What an image needs of staging (R55). -/
def imgNeed (img : List Byte) : Nat := le img 0x14 4 + ((encEntries img).map fun p => p.2.plain).foldl (· + ·) 0

/-! ## Header checks (R36, R37) -/

/-- Bodies in rising order of place: each a multiple of 16 at or after `pos`, within the image; where the whole image is at hand, the
bytes between are 0. -/
def layoutOk (img : List Byte) (whole : Bool) (size pos : Nat) (l : List Entry) : Bool :=
  match l with
  | [] => !whole || allZero (slice img pos (size - pos))
  | e :: r => decide (e.offset % 16 = 0) && decide (pos ≤ e.offset) && decide (e.offset + e.stored ≤ size) &&
      (!whole || allZero (slice img pos (e.offset - pos))) && layoutOk img whole size (e.offset + e.stored) r

/-- The checks of step 4 of R37: `load` for a FULL image's path, `length` the command's length where there is one. -/
def headerRest (img : List Byte) (whole load : Bool) (length : Nat) : Bool :=
  let kind := imgKind img
  let n := imgCount img
  let size := le img 0x14 4
  let act := le img 0x18 8
  let base := le img 0x20 4
  let res := le img 0x24 4
  let es := (entries img).map (·.2)
  within 0 2 kind && (if kind = 1 then imgRing img < 16 else imgRing img = 0xFF) && le img 0x0A 2 / 4 = 0 && le img 0x0F 1 = 0
    && allZero (slice img 0x40 64) && (if load then kind = 0 else kind ≠ 0) && size = length
    && (if kind = 0 then act = 0 && base = 0 && res = 1 else act < 2 ^ 48 && base < 2 ^ 24 && res = (base + 1) % 2 ^ 24)
    && 1 ≤ n && entryPos n ≤ size && (bit (le img 0x0A 2) 0 == es.any (·.enc))
    && layoutOk img whole size (entryPos n) (sortBy (fun a b => decide (a.offset < b.offset)) es)

/-- The header checks in R37's order; 0 where all pass. -/
def headerCheck (img : List Byte) (whole load : Bool) (length : Nat) : Nat :=
  if !(le img 0 4 = 0x4946515A && le img 4 2 = 0x0100 && le img 6 2 = 128 && le img 0x2C 4 = 128) then frBadHeader
  else if le img 0x0C 2 ≠ 0x1640 || stepping < le img 0x0E 1 then frWrongPart
  else if maxImage < le img 0x14 4 || 256 < imgCount img then frTooLarge
  else if !headerRest img whole load length then frBadHeader
  else 0

/-! ## Signature, digests, key (R51 to R53) -/

/-- Header and timber table, the signature entry's digest taken as zeros: what is signed, and what the identity hashes (R52, R57). -/
def signedPart (img : List Byte) : List Byte :=
  let n := imgCount img
  (img.take (entryPos n - 48)) ++ List.replicate 48 0

def imgIdentity (img : List Byte) : List Byte := sha384 (signedPart img)

/-- A timber's stored body. -/
def storedBody (img : List Byte) (e : Entry) : List Byte := slice img e.offset e.stored

/-- The signature body. -/
def sigBody (img : List Byte) : List Byte := storedBody img (entryAt img (imgCount img - 1))

/-- A signer-0 key is accepted: its hash is in a provisioned slot that is not revoked. -/
def otpAccepts (slot : Nat) (hash : List Byte) (s : State) : Bool :=
  bit (fget R.FRM_SIGNER_provisioned s) slot && !bit (fget R.FRM_SIGNER_revoked s) slot &&
    decide (tfind s.frm.keyHash slot = some hash)

/-- ECDSA of a signature body over a message (R52). -/
def sigVerify (body msg : List Byte) : Bool :=
  decide (le body 4 1 = 4) && ecdsaVerify (beNat (sha384 msg)) (beNat (slice body 0x68 48)) (beNat (slice body 0x98 48))
    (beNat (slice body 5 48)) (beNat (slice body 53 48))

/-- Step 2 of R53. -/
def sigCheck (img : List Byte) (s : State) : Bool :=
  let e := entryAt img (imgCount img - 1)
  let b := sigBody img
  let signer := le b 0 1
  let hash := sha384 (slice b 4 97)
  e.type = tySig && e.scope = 0 && e.ring = 0xFF && e.flags = 0 && e.inst = 0 && e.stored = 200
    && (bit (le img 0x0A 2) 1 == decide (signer = 1))
    && (if signer = 0 then otpAccepts (le b 1 1) hash s
        else signer = 1 && imgKind img = 1 && ringDefinedIn s.frm.timbers (imgRing img) && !allZero (ringKeyHash (imgRing img) s)
          && decide (ringKeyHash (imgRing img) s = hash))
    && sigVerify b (signedPart img)

/-- Step 3: the first body whose digest differs. -/
def digestFail (img : List Byte) : Option Nat :=
  ((entries img).find? fun p => decide (p.1 + 1 ≠ imgCount img) && decide (sha384 (storedBody img p.2) ≠ p.2.digest)).map (·.1)

/-- Step 4: the timber key, empty where the image has no key wrap and needs none; or the failing timber. -/
def unwrapKey (img : List Byte) (s : State) : Except Nat (List Nat) :=
  match (entries img).find? fun p => decide (p.2.type = tyWrap) with
  | none => if (encEntries img).isEmpty then .ok [] else .error 0xFF
  | some (i, e) =>
    let b := storedBody img e
    if b.length = 48 && le b 0 1 = 0 && !e.enc then
      match aesUnwrap s.frm.wrapKey ((slice b 4 40).map (·.toNat)) with
      | some k => .ok k
      | none => .error i
    else .error i

/-- Steps 1 to 4: a reason and the failing timber, or the timber key. -/
def signPhase (img : List Byte) (load : Bool) (length : Nat) (s : State) : Except (Nat × Nat) (List Nat) :=
  let h := headerCheck img true load length
  if h ≠ 0 then .error (h, 0xFF)
  else if !sigCheck img s then .error (frSigFail, imgCount img - 1)
  else match digestFail img with
    | some i => .error (frDigestFail, i)
    | none =>
      match unwrapKey img s with
      | .error i => .error (frUnwrapFail, i)
      | .ok k => .ok k

/-! ## The passes (R54) -/

/-- The tag of an ENCRYPTED timber matches. -/
def tagOk (img : List Byte) (key : List Nat) (e : Entry) : Bool :=
  decide (gcmTag key (e.iv.map (·.toNat)) (e.aad.map (·.toNat)) ((storedBody img e).map (·.toNat)) = e.tag.map (·.toNat))

/-- Its plain body. -/
def plainOf (img : List Byte) (key : List Nat) (e : Entry) : List Byte :=
  ((gcmPlain key (e.iv.map (·.toNat)) ((storedBody img e).map (·.toNat))).take e.plain).map fun n => BitVec.ofNat 8 n

/-- The body of entry `i` as the checks see it. -/
def bodyOf (img : List Byte) (plain : Tbl (List Byte)) (i : Nat) (e : Entry) : List Byte :=
  if e.enc then tget [] plain i else storedBody img e

/-! ## Consistency checks (R56) -/

/-- The scopes a type may have and the number of its instances (R39). -/
def typeRule (ty : Nat) : Option (List Nat × Nat) :=
  match ty with
  | 1 => some ([0], 1)
  | 2 => some ([1], 1)
  | 3 => some ([0, 1], 1)
  | 4 => some ([0], 1)
  | 5 => some ([0], 1)
  | 6 => some ([1], 1)
  | 7 => some ([0, 1], 1)
  | 8 => some ([0], 1)
  | 9 => some ([0], 16)
  | 10 => some ([0, 1], 256)
  | 0xE0 => some ([0, 1], 1)
  | 0xF0 => some ([0], 1)
  | _ => none

def Entry.key (e : Entry) : Nat × Nat × Nat × Nat := (e.type, e.scope, e.ring, e.inst)

/-- Row 1 for one entry, the entries before it at hand: a type that has one instance gives it number 0 (R38), one that has several numbers
them as it likes. -/
def setOk (before : List Entry) (last : Bool) (e : Entry) : Bool :=
  (match typeRule e.type with
    | none => false
    | some (sc, n) => sc.contains e.scope && (n ≠ 1 || decide (e.inst = 0)) &&
        decide ((before.filter fun p => decide (p.type = e.type) && decide (p.scope = e.scope) && decide (p.ring = e.ring)).length < n)) &&
  !(before.any fun p => decide (p.key = e.key)) && (decide (e.type = tySig) == last) &&
  !(decide (e.type = tyWrap) && before.any fun p => decide (p.type = tyWrap))

/-- Row 2 for the table entry itself. -/
def entryOk (e : Entry) : Bool :=
  allZero e.rsv && decide (e.flags < 2) && (if e.scope = 0 then e.ring = 0xFF else e.ring < 16)
    && (if e.enc then decide (e.plain ≤ e.stored) && e.type ≠ tyWrap && e.type ≠ tySig
        else e.plain = e.stored && allZero e.iv && allZero e.tag)
    && (e.type ≠ tySig || allZero e.digest)

/-- Bay allotment (R40). -/
def bayBodyOk (b : List Byte) : Bool :=
  b.length = 1152 && ((List.range 4).all fun i =>
    let o := 32 * i
    let svc := le b (o + 4) 4
    let sp := le b (o + 8) 4
    le b o 1 = i && within 0 1 (le b (o + 1) 1) && le b (o + 2) 2 = 0 && decide (svc < 2 ^ 17) && (List.range 17).any (fun k => decide (sp = 2 ^ k))
      && !((List.range 17).any fun k => bit svc k && bit sp k) && ((List.range 8).all fun k => decide (le b (o + 12 + k) 1 ≤ 16))
      && decide (le b (o + 20) 4 < 16) && le b (o + 24) 8 = 0)
    && ((slice b 128 1024).all fun x => (List.range 4).all fun j => decide (le b (32 * bits x.toNat (2 * j) 2 + 1) 1 = 0))

/-- Ring definition (R42). -/
def ringBodyOk (b : List Byte) (ring : Nat) : Bool :=
  b.length = 256 && le b 0 1 = ring && within 0 1 (le b 1 1) && le b 2 2 = 0 && decide (le b 4 2 + le b 6 2 ≤ 16384)
    && decide (le b 8 2 + le b 10 2 ≤ 4096) && decide (le b 12 4 + le b 16 4 ≤ 65536) && decide (le b 20 4 + le b 24 4 ≤ 65536)
    && le b 0x3C 4 = 0 && ((List.range 4).all fun k => le b (0x40 + 32 * k + 28) 4 = 0) && allZero (slice b 0xF0 16)

/-- A depth within its class's limits (R44, R90, R111, R247, R318). -/
def depthOk (cls d : Nat) : Bool :=
  match cls with
  | 1 => within 1 32768 d
  | 2 => within 16 65535 d
  | 3 => within 16 65535 d
  | _ => (List.range 9).any fun k => decide (d = 2 ^ (6 + k))

/-- Queue sizes (R44). -/
def queueBodyOk (b : List Byte) (scope ring : Nat) : Bool :=
  let n := b.length / 8
  let k := fun i => (le b (8 * i) 1, le b (8 * i + 2) 2)
  b.length % 8 = 0 && ((List.range n).all fun i =>
    let c := (k i).1
    let x := (k i).2
    within 1 5 c && le b (8 * i + 1) 1 = 0 && depthOk c (le b (8 * i + 4) 4)
      && (if c < 3 then scope = 0 && decide (x < (if c = 1 then 32 else 16)) else scope = 1 && x = ring)
      && !((List.range i).any fun j => decide (k j = k i)))

/-- Clock plan (R45). -/
def clockBodyOk (b : List Byte) : Bool :=
  b.length = 32 && within 0 3 (le b 0 1) && within 0 1 (le b 1 1) && within 0 1 (le b 2 1) && within 0 3 (le b 3 1)
    && ((List.range 4).all fun p => within 0 2 (le b (4 + p) 1)) && within 0 1 (le b 8 1) && [8, 10].contains (le b 9 1)
    && le b 10 2 = 0 && [6400, 5600, 4800].contains (le b 12 4) && allZero (slice b 16 16)

/-- The channels a memory plan populates. -/
def planChans (b : List Byte) : List Nat := (List.range 12).filter fun c => bit (le b 0 2) c

/-- 4 KiB stripes of the interleaved regions. -/
def planStripes (b : List Byte) : Nat :=
  (((regionsIn b).filter fun g => decide (g.mirror = 0)).map fun g => g.size / 4096).foldl (· + ·) 0

/-- Bytes of storage that a plan's regions take on a channel (R370). -/
def chanUse (b : List Byte) (c : Nat) : Nat :=
  let pop := planChans b
  let k := (pop.takeWhile fun x => decide (x < c)).length
  (((regionsIn b).filter fun g => decide (g.mirror = 1) && (decide (g.chanA = c) || decide (g.chanB = c))).map (·.size)).foldl (· + ·) 0
    + ceilDiv (planStripes b - k) pop.length * 4096

/-- Memory plan (R46, R370). -/
def memBodyOk (b : List Byte) : Bool :=
  let gs := regionsIn b
  let pop := planChans b
  decide (32 ≤ b.length) && b.length = 32 + 32 * le b 2 2 && decide (le b 0 2 < 4096) && !pop.isEmpty && allZero (slice b 16 16)
    && ((List.range 12).all fun c => if pop.contains c then [16, 24, 32].contains (le b (4 + c) 1) else le b (4 + c) 1 = 0)
    && (((List.range gs.length).zip gs).all fun p =>
      let g := p.2
      g.base % 2 ^ 21 = 0 && g.size % 2 ^ 21 = 0 && decide (0 < g.size) && decide (g.base + g.size ≤ dramBytesIn b)
        && (decide (g.owner < 16) || g.owner = 0xF0 || g.owner = 0xF1) && within 0 9 g.kind && within 0 1 g.page && within 0 1 g.mirror
        && ((g.kind ≠ 7 && g.kind ≠ 8) || g.mirror = 1)
        && (if g.mirror = 1 then g.chanA ≠ g.chanB && pop.contains g.chanA && pop.contains g.chanB
            else g.chanA = 0xFF && g.chanB = 0xFF)
        && (g.kind ≠ 8 || (g.owner = 0xF0 && decide (2 ^ 25 ≤ g.size)))
        && allZero (slice b (32 + 32 * p.1 + 22) 10)
        && ((gs.drop (p.1 + 1)).all fun h => decide (g.base + g.size ≤ h.base) || decide (h.base + h.size ≤ g.base)))
    && (gs.filter fun g => decide (g.kind = 8)).length = 1 && pop.all fun c => decide (chanUse b c ≤ le b (4 + c) 1 * 2 ^ 30)

/-- Route templates (R47, R300). -/
def routeBodyOk (b : List Byte) : Bool :=
  let n := b.length / 32
  b.length % 32 = 0 && decide (n ≤ 256) && ((List.range n).all fun i =>
    let t := templateAt b i
    within 0 4 t.kind && within 1 8 t.topN && within 24 96000 t.ramp && within 0 2 t.preset && within 0 4 t.hpf && within 0 4 t.vcodec
      && within 0 3 t.maxLayers && allZero (slice b (32 * i + 12) 20)
      && !((List.range i).any fun j => decide ((templateAt b j).id = t.id)))

/-- Kernel bindings (R48). -/
def bindBodyOk (b : List Byte) (scope ring : Nat) : Bool :=
  b.length % 16 = 0 && ((List.range (b.length / 16)).all fun i =>
    let x := bindingAt scope b i
    within 0 3 x.prio && le b (16 * i + 13) 3 = 0 && (decide (x.ring < 16) || x.ring = 0xFF)
      && (scope = 0 || (decide (128 ≤ x.kernel) && x.ring = ring)))

/-- Policy (R49). -/
def policyBodyOk (b : List Byte) : Bool :=
  b.length = 32 && ((List.range 7).all fun k => decide (le b k 1 ≤ 128)) && le b 7 1 = 0 && within 8 16 (le b 8 1) && within 0 2 (le b 9 1)
    && le b 10 2 = 0 && allZero (slice b 16 16)

/-- Marquee asset (R50). -/
def marqueeBodyOk (b : List Byte) : Bool :=
  decide (64 ≤ b.length) && within 0 1 (le b 2 2) && decide (le b 8 2 ≤ 3840) && decide (le b 10 2 ≤ 2160)
    && b.length = 64 + 4 * le b 8 2 * le b 10 2 && allZero (slice b 44 20)

/-- Kernel image (R230). -/
def kernelBodyOk (b : List Byte) : Bool :=
  let cs := le b 12 4
  decide (128 ≤ b.length) && le b 0 4 = 0x4C424D54 && le b 4 2 = 0x0100 && within 0 1 (le b 6 2) && within 4 15360 cs && cs % 4 = 0
    && decide (le b 8 4 + cs ≤ b.length) && decide (le b 16 2 < cs / 4) && decide (le b 18 2 < cs / 4)
    && ([20, 28].all fun o => le b o 2 % 4 = 0 && le b (o + 2) 2 % 4 = 0 && le b (o + 4) 4 % 4 = 0
        && decide (le b o 2 + le b (o + 2) 2 ≤ 0x4000) && decide (le b (o + 4) 4 + le b (o + 2) 2 ≤ b.length))
    && (le b 0x24 1 = 0xFF || decide (le b 0x24 1 ≤ 4)) && le b 0x25 3 = 0
    && ((List.range 4).all fun k => within 0 3 (le b (0x28 + 8 * k) 1) && le b (0x29 + 8 * k) 3 = 0) && allZero (slice b 0x48 56)

/-- Key wrap (R51). -/
def wrapBodyOk (b : List Byte) : Bool := b.length = 48 && le b 0 4 = 0 && le b 44 4 = 0

/-- Signature (R52). -/
def sigBodyOk (b : List Byte) : Bool :=
  b.length = 200 && within 0 1 (le b 0 1) && within 0 3 (le b 1 1) && le b 2 2 = 0 && le b 0x65 3 = 0

/-- Row 2 for a body. -/
def bodyOk (e : Entry) (b : List Byte) : Bool :=
  match e.type with
  | 1 => bayBodyOk b
  | 2 => ringBodyOk b e.ring
  | 3 => queueBodyOk b e.scope e.ring
  | 4 => clockBodyOk b
  | 5 => memBodyOk b
  | 6 => routeBodyOk b
  | 7 => bindBodyOk b e.scope e.ring
  | 8 => policyBodyOk b
  | 9 => marqueeBodyOk b
  | 10 => kernelBodyOk b
  | 0xE0 => wrapBodyOk b
  | _ => sigBodyOk b

/-! ## The merged structure -/

/-- Ranges of identifiers disjoint, canvas masks apart (R42). -/
def ringsApart (l : List Timber) : Bool :=
  let rs := (List.range 16).filter fun r => ringDefinedIn l r
  rs.all fun a => rs.all fun b => decide (b ≤ a) ||
    ((List.range 4).all fun k =>
      let x := rangeIn l k a
      let y := rangeIn l k b
      decide (x.2 = 0) || decide (y.2 = 0) || decide (x.1 + x.2 ≤ y.1) || decide (y.1 + y.2 ≤ x.1)) &&
    !((List.range 256).any fun c => inCanvas l a c && inCanvas l b c)

/-- Shares within budgets less reserve (R43). -/
def sharesOk (l : List Timber) : Bool :=
  (List.range 4).all fun b => (List.range 7).all fun k =>
    decide (256 * ((List.range 16).map fun r => shareIn l r b k).foldl (· + ·) 0 ≤ budgetIn l b k * (256 - reserveIn l k))

/-- The capacities of a Bay's eight ready queues (R247), a queue that the body does not list at its default. -/
def readySumOk (l : List Timber) : Bool :=
  let b := devBody l tyQueue
  (List.range 4).all fun y =>
    decide (((List.range 8).map fun i => (depthIn b 1 (8 * y + i)).getD readyDefault).foldl (· + ·) 0 ≤ 32768)

/-- No type of a scope has more instances than R39 gives it. -/
def countsOk (l : List Timber) : Bool :=
  l.all fun t => match typeRule t.type with
    | none => true
    | some (_, n) => decide ((l.filter fun u => decide (u.type = t.type) && decide (u.scope = t.scope) && decide (u.ring = t.ring)).length ≤ n)

/-- Every binding names a kernel image of its scope or of the device (R48). -/
def bindingsOk (l : List Timber) : Bool :=
  let has := fun sc rg i => l.any fun t => decide (t.type = tyKernel) && decide (t.scope = sc) && decide (t.ring = rg) && decide (t.inst = i)
  (l.filter fun t => decide (t.type = tyBind)).all fun t =>
    (bindingsIn t.ring t.body).all fun x => has 0 0xFF x.image || (decide (t.scope = 1) && has 1 t.ring x.image)

/-- At most one visible asset names a canvas (R50). -/
def marqueesOk (l : List Timber) : Bool :=
  let ms := (l.filter fun t => decide (t.type = tyMarquee) && bit (le t.body 2 2) 0).map fun t => le t.body 12 32
  (List.range 256).all fun c => decide ((ms.filter fun m => bit m c).length ≤ 1)

/-- The rows on a merged structure. -/
def mergedOk (l : List Timber) : Bool := countsOk l && ringsApart l && sharesOk l && readySumOk l && marqueesOk l && bindingsOk l

/-- A list of timbers with an image's timbers in place of those they replace (R59). -/
def mergeTimbers (img : List Byte) (plain : Tbl (List Byte)) (l : List Timber) : List Timber :=
  let new := ((entries img).filter fun p => decide (p.2.type ≠ tyWrap) && decide (p.2.type ≠ tySig)).map fun p =>
    (⟨p.2.type, p.2.scope, p.2.ring, p.2.inst, bodyOf img plain p.1 p.2⟩ : Timber)
  (l.filter fun t => !new.any fun n => decide (n.type = t.type) && decide (n.scope = t.scope) && decide (n.ring = t.ring) &&
    decide (n.inst = t.inst)) ++ new

/-- Row 1's failing timber, if any. -/
def setFail (img : List Byte) (before : List Entry) (l : List (Nat × Entry)) : Option Nat :=
  match l with
  | [] => none
  | p :: r => if setOk before (decide (p.1 + 1 = imgCount img)) p.2 then setFail img (p.2 :: before) r else some p.1

/-- Row 1 and 2: the timber set and the layouts. -/
def checkRows12 (img : List Byte) (plain : Tbl (List Byte)) : Option Nat :=
  let es := entries img
  match setFail img [] es with
  | some i => some i
  | none =>
    if imgKind img = 0 && !([1, 3, 4, 5, 7, 8].all fun t => es.any fun p => decide (p.2.type = t) && decide (p.2.scope = 0)) then some 0xFF
    else (es.find? fun p => !entryOk p.2 || !bodyOk p.2 (bodyOf img plain p.1 p.2)).map (·.1)

/-- The CHECK_FAIL rows on an image merged into a structure: the failing timber, or the merged structure. -/
def checkFail (img : List Byte) (plain : Tbl (List Byte)) (l : List Timber) : Except Nat (List Timber) :=
  match checkRows12 img plain with
  | some i => .error i
  | none =>
    let m := mergeTimbers img plain (if imgKind img = 0 then [] else l)
    if mergedOk m then .ok m else .error 0xFF

/-- The SCOPE row (R52, R59): the failing timber. -/
def scopeFail (img : List Byte) (fn : Fn) : Option Nat :=
  let r := imgRing img
  let mine := match fn with
    | .pf => true
    | .vf v => decide (imgKind img = 1) && decide (r = v)
  if !mine then some 0xFF
  else if imgKind img ≠ 1 then none
  else
    let signer := le (sigBody img) 0 1
    ((entries img).find? fun p =>
      !((decide (p.2.scope = 1) && decide (p.2.ring = r)) || decide (p.2.type = tySig) ||
        (decide (p.2.type = tyWrap) && decide (p.2.scope = 0) && decide (signer = 0)))).map (·.1)

/-- The BOOT_ONLY row (R40, R45, R46): the failing timber. -/
def bootOnlyFail (img : List Byte) (plain : Tbl (List Byte)) (l : List Timber) : Option Nat :=
  if imgKind img = 0 then none
  else ((entries img).find? fun p =>
    let b := bodyOf img plain p.1 p.2
    decide (p.2.type = tyClock)
      || (decide (p.2.type = tyBay) && (List.range 4).any fun i => decide (le b (32 * i + 1) 1 ≠ bayState l i))
      || (decide (p.2.type = tyMem) && decide ((b.take 2 ++ slice b 4 12) ≠
        ((devBody l tyMem).take 2 ++ slice (devBody l tyMem) 4 12)))).map (·.1)

/-! ## ALLOT_IN_USE (R64, R141) -/

/-- A range that a new structure leaves to a Ring still holds what is admitted. -/
def idsKept (new : List Timber) (s : State) : Bool :=
  (s.ctl.legs.all fun p => inRange new 0 p.2.ring p.1) && (s.ctl.acts.all fun p => inRange new 1 p.2.ring p.1)
    && (s.ctl.streams.all fun p => match tfind s.ctl.legs p.2.leg with
        | some l => inRange new 2 l.ring p.1
        | none => true)
    && (s.vid.canvas.all fun p => p.2.ends || inCanvas new p.2.ring p.1)
    && (s.key.slots.all fun p => !p.2.valid || match ringOf 3 p.1 s with
        | some r => inRange new 3 r p.1
        | none => true)

/-- No share is lowered below the use charged under it. -/
def sharesKept (new : List Timber) (s : State) : Bool :=
  (List.range 16).all fun r => (List.range 4).all fun b => (List.range 7).all fun k =>
    let n := shareIn new r b k
    let u := used r b k s
    decide (shareIn s.frm.timbers r b k ≤ n) || decide (u ≤ n * budgetScale k)

/-- Every reserved extent still lies in a region of its owner and kind. -/
def regionsKept (new : List Timber) (s : State) : Bool :=
  s.vid.exts.all fun e => (regionsIn (devBody new tyMem)).any fun g =>
    decide (g.owner = e.ring) && decide (g.kind = e.kind) && decide (g.base ≤ e.base) && decide (e.base + e.size ≤ g.base + g.size)

/-- Bytes of a Ring's regions of a kind in a structure. -/
def regionBytes (l : List Timber) (r kind : Nat) : Nat :=
  (((regionsIn (devBody l tyMem)).filter fun g => decide (g.owner = r) && decide (g.kind = kind)).map (·.size)).foldl (· + ·) 0

/-- Bytes of a Ring's jitter rings, which stand in its kind-1 regions (R111), of its rewind rings, which stand in its kind-2 regions (R318). -/
def bufferBytes (r kind : Nat) (s : State) : Nat :=
  let mine := fun (id : Nat) => match (tfind s.ctl.streams id).bind fun st => tfind s.ctl.legs st.leg with
    | some l => decide (l.ring = r)
    | none => false
  if kind = 1 then
    ((s.ctl.streams.filter fun p => decide (p.2.dir = 0) && mine p.1).map fun p =>
      2 ^ p.2.ringLog2 * (if p.2.media = 0 then 512 else 2048)).foldl (· + ·) 0
  else ((s.egr.rings.filter fun p => mine p.1).map fun p => 2 ^ p.2.log2 * 2048).foldl (· + ·) 0

/-- No Ring's regions of jitter or rewind rings are lowered below the rings in use; where in them a ring stands, no rule says (log entry
174). -/
def buffersKept (new : List Timber) (s : State) : Bool :=
  (List.range 16).all fun r => [1, 2].all fun k =>
    decide (regionBytes s.frm.timbers r k ≤ regionBytes new r k) || decide (bufferBytes r k s ≤ regionBytes new r k)

/-- The allotments of a new structure hold the use admitted and charged. -/
def allotOk (new : List Timber) (s : State) : Bool := idsKept new s && sharesKept new s && regionsKept new s && buffersKept new s

/-- The checks of CHECK for an image (R56), but for BASE_MISMATCH: a reason and timber, or the merged structure. The image is merged into the
structure in force at CHECK, without the deltas that are armed (log entry 159). -/
def imageCheck (img : List Byte) (plain : Tbl (List Byte)) (fn : Fn) (s : State) : Except (Nat × Nat) (List Timber) :=
  match checkFail img plain s.frm.timbers with
  | .error i => .error (frCheckFail, i)
  | .ok m =>
    match scopeFail img fn, bootOnlyFail img plain s.frm.timbers with
    | some i, _ => .error (frScope, i)
    | none, some i => .error (frBootOnly, i)
    | none, none => if allotOk m s then .ok m else .error (frAllotInUse, 0xFF)

end Sys2Proof.Machine
end

