-- ==== Sys2Proof/Machine/VidMove.lean ====
section
/-! DEFINITION. Sessions and canvases that move between Bays (R275, R283, R349, R413, R418). -/
namespace Sys2Proof.Machine

/-! ## Moving sessions (R275, R283, R413) -/

/-- A session's Bay and tile by each Bay's whole uncharged capacity (R255 within the reserve). -/
def decPlaceWhole (bay px : Nat) (s : State) : Option (Nat × Nat) :=
  (bayOrder bay).findSome? fun b => if fitsWhole b (chargeOf 1 px) s then (decEngine b px s).map fun t => (b, t) else none

def encPlaceWhole (x : Canvas) (px : Nat) (s : State) : Option (Nat × Nat) :=
  (bayOrder x.comp).findSome? fun b => if fitsWhole b (chargeOf 2 px) s then (encEngine b x s).map fun t => (b, t) else none

/-- A session whose engine failed: its context is its last checkpoint's, and the picture in progress starts again from its start, at the head of the
queue (R275). -/
def Sess.restart (x : Sess) : Sess :=
  let y := x.load
  match x.work with
  | none => y
  | some k => { y with
    work := none
    queue := { k.w with
      began := some k.start
      noted := k.miss } :: y.queue }

def Enc.restart (e : Enc) : Enc := { e with pics := e.pics.map fun q => { q with on := false } }

/-- A decode session taken from its engine and placed again, or left without one; answers whether it has one. -/
def sessRehome (id : Nat) (s : State) : Bool × State :=
  match tfind s.vid.sess id with
  | none => (true, s)
  | some x =>
    let bay := match (tfind s.ctl.streams id).bind fun st => tfind s.ctl.legs st.leg with
      | some l => l.bay
      | none => x.bay
    let y := { x.restart with
      bay := 4
      tile := noTile }
    let s := tileSync x.tile (chargeDown x.ring x.bay (chargeOf 1 x.px) (sessPut id y s))
    match decPlaceWhole bay x.px s with
    | none => (false, s)
    | some (b, t) => (true, tileSync t (chargeUp x.ring b (chargeOf 1 x.px) (sessPut id { y with
        bay := b
        tile := t } s)))

/-- An encode session taken from its engine and placed again, or left without one. -/
def encRehome (id : Nat) (s : State) : Bool × State :=
  match tfind s.vid.encs id with
  | none => (true, s)
  | some e =>
    let y := { e.restart with
      bay := 4
      tile := noTile }
    let s := tileSync e.tile (chargeDown e.ring e.bay (chargeOf 2 e.px) (encPut id y s))
    match (tfind s.vid.canvas (id % 256)).bind fun x => encPlaceWhole x e.px s with
    | none => (false, s)
    | some (b, t) => (true, tileSync t (chargeUp e.ring b (chargeOf 2 e.px) (encPut id { y with
        bay := b
        tile := t } s)))

/-- A frozen session's Act reported (R275). -/
def sessFrozen (id : Nat) (s : State) : State :=
  determinismLost ((tfind s.ctl.streams id).elim 0 fun st => streamAct st s) 4 s

/-- The Act of the leg that an encode serves reported. -/
def encFrozen (id : Nat) (s : State) : State :=
  match (encLeg id s).bind fun n => tfind s.ctl.legs n with
  | some l => determinismLost l.act 4 s
  | none => s

/-- Sessions and encodes placed again, in ascending order; those that do not fit are frozen. -/
def sessRehomeAll (ds es : List Nat) (s : State) : State :=
  let s := ds.foldl (fun s id => match sessRehome id s with
    | (true, s) => s
    | (false, s) => sessFrozen id s) s
  es.foldl (fun s id => match encRehome id s with
    | (true, s) => s
    | (false, s) => encFrozen id s) s

/-- Sessions without an engine tried again at a boundary. -/
def sessRetry (s : State) : State :=
  sessRehomeAll (tkeysWhere s.vid.sess fun _ x => decide (x.tile = noTile))
    (tkeysWhere s.vid.encs fun _ e => decide (e.tile = noTile) && e.stop.isNone) s

/-! ## Planned moves (R418) -/

/-- Kinds of the drained-work list: legs, decode sessions, encodes, canvases, steering buckets, Acts. -/
def drLeg : Nat := 0
def drDec : Nat := 1
def drEnc : Nat := 2
def drCanvas : Nat := 3
def drBucket : Nat := 4
def drAct : Nat := 5

/-- A move recorded. -/
def drainNote (kind id bay : Nat) (s : State) : State := { s with flt := { s.flt with drained := s.flt.drained ++ [⟨kind, id, bay⟩] } }

/-- A Bay whose work is drained from it. -/
def draining (bay : Nat) (s : State) : Bool := decide (bay < 4) && decide (fget (R.FLT_BAY_STATUS_state bay) s = 3)

/-- The home that an entry of the list goes back to now: its Bay is in service again. -/
def drainHome (kind id : Nat) (s : State) : Option Nat :=
  ((s.flt.drained.find? fun e => decide (e.kind = kind) && decide (e.id = id)).map (·.bay)).filter fun b => bayIn b s

/-- A decode session put on a Bay whatever its budget holds, where a tile can take it. -/
def decTo (bay id : Nat) (s : State) : State :=
  match tfind s.vid.sess id with
  | none => s
  | some x =>
    if x.bay = bay then s
    else match decEngine bay x.px s with
      | none => s
      | some t =>
        let s := chargeUp x.ring bay (chargeOf 1 x.px) (chargeDown x.ring x.bay (chargeOf 1 x.px) s)
        tileSync t (tileSync x.tile (sessPut id { x with
          bay := bay
          tile := t } s))

/-- An encode put on a Bay. -/
def encTo (bay id : Nat) (s : State) : State :=
  match tfind s.vid.encs id with
  | none => s
  | some e =>
    if e.bay = bay then s
    else match (tfind s.vid.canvas (id % 256)).bind fun x => encEngine bay x s with
      | none => s
      | some t =>
        let s := chargeUp e.ring bay (chargeOf 2 e.px) (chargeDown e.ring e.bay (chargeOf 2 e.px) s)
        tileSync t (tileSync e.tile (encPut id { e with
          bay := bay
          tile := t } s))

/-- Decode sessions between two pictures: off a Bay that is being drained, and home to a Bay that has returned. -/
def decTurn (s : State) : State :=
  (tkeysWhere s.vid.sess fun _ x => x.work.isNone).foldl (fun s id =>
    match tfind s.vid.sess id with
    | none => s
    | some x =>
      if draining x.bay s then
        match sessRehome id s with
        | (true, s) => drainNote drDec id x.bay s
        | (false, s) => sessFrozen id (drainNote drDec id x.bay s)
      else match drainHome drDec id s with
        | some b => drainForget drDec id (decTo b id s)
        | none => s) s

/-- Encodes between two pictures. -/
def encTurn (s : State) : State :=
  (tkeysWhere s.vid.encs fun _ e => !(e.pics.any (·.on)) && e.stop.isNone).foldl (fun s id =>
    match tfind s.vid.encs id with
    | none => s
    | some e =>
      if draining e.bay s then
        match encRehome id s with
        | (true, s) => drainNote drEnc id e.bay s
        | (false, s) => encFrozen id (drainNote drEnc id e.bay s)
      else match drainHome drEnc id s with
        | some b => drainForget drEnc id (encTo b id s)
        | none => s) s

/-- A canvas at its tick. -/
def canvasTurn (id : Nat) (s : State) : State :=
  match tfind s.vid.canvas id with
  | none => s
  | some x =>
    if !stampGe s.clk.stamp (x.tick x.k) then s
    else if !x.suspended && draining x.comp s then drainNote drCanvas id x.comp (canvasMove false id s)
    else match drainHome drCanvas id s with
      | none => s
      | some b =>
        let s := drainForget drCanvas id s
        if x.comp = b && !x.suspended then s
        else
          let s := if x.suspended then s else compSync x.comp (chargeDown x.ring x.comp (chargeOf 3 x.px) s)
          raiseObj EV_CANVAS_REHOMED x.ring 4 id (id + b * 256) (canvasOn id b x s)

end Sys2Proof.Machine
end

