-- ==== Sys2Proof/Machine/VidRows.lean ====
section
/-! DEFINITION. The commands of decoding, encoding, composition and the confidence output, and what a tile's hardware fault does
(spec/10_codec_tiles_decode.md R254, R274, R275; spec/11_encode_rate_control.md R284, R296, R297; spec/13_big_top_composition.md R327,
R346, R349 to R352). -/
namespace Sys2Proof.Machine

/-! ## Engines -/

/-- What a tile's engines worked on last. -/
def tileRun (t : Nat) (s : State) : TileRun := tget ⟨none, none⟩ s.vid.tiles t

/-- A decode engine turned to a stream: where it worked on another, that one's context is written to its checkpoint, the stream's is loaded
from its own, and the switch is counted (R253). -/
def decSwitch (t id : Nat) (s : State) : State :=
  let r := tileRun t s
  let s := { s with vid := { s.vid with tiles := tset s.vid.tiles t { r with dec := some id } } }
  if r.dec = some id then s
  else
    let s := match r.dec with
      | none => s
      | some k =>
        let s := cinc (0x500050 + 0x4000 * t) s
        match tfind s.vid.sess k with
        | some y => if y.work.isNone then sessMark k y s else s
        | none => s
    match tfind s.vid.sess id with
    | some x => sessLoad id x s
    | none => s

/-- An encode engine turned to a session. -/
def encSwitch (t id : Nat) (s : State) : State :=
  let r := tileRun t s
  let s := { s with vid := { s.vid with tiles := tset s.vid.tiles t { r with enc := some id } } }
  if r.enc.isSome && r.enc ≠ some id then cinc (0x500090 + 0x4000 * t) s else s

/-- The session whose picture a tile's decode engine works on; the encode whose picture its encode engine works on. -/
def decBusy (t : Nat) (s : State) : Option Nat := (tkeysWhere s.vid.sess fun _ x => decide (x.tile = t) && x.work.isSome).head?
def encBusy (t : Nat) (s : State) : Option Nat := (tkeysWhere s.vid.encs fun _ x => decide (x.tile = t) && x.pics.any (·.on)).head?

/-- DECODE_PICTURE_START: a tile's idle decode engine starts the ready picture with the earliest deadline (R254) where its window is not over; `p` is
what its bits say. -/
def execDecodePictureStart (tile : Nat) (p : PicSyn) (s : State) : Out :=
  .next (if !tileIn tile s || (decBusy tile s).isSome then s
    else match nextDecode tile s with
      | none => s
      | some id =>
        let s' := decSwitch tile id s
        match tfind s'.vid.sess id with
        | none => s
        | some x => match x.queue with
          | [] => s
          | w :: _ => if x.late w s.clk.stamp then s else tileSync tile (decodeStart id x w p s'))

/-- DECODE_PICTURE_COMPLETE: the picture on a tile's decode engine is complete (R274), before the end of its window. -/
def execDecodePictureComplete (tile : Nat) (s : State) : Out :=
  .next (match decBusy tile s with
    | none => s
    | some id => match tfind s.vid.sess id with
      | none => s
      | some x => match x.work with
        | none => s
        | some k => if x.late k.w s.clk.stamp then s else decTurn (decodeComplete id x k s))

/-- DECODE_PICTURE_MISSED: the oldest picture of a session is not complete at the end of block b + d − 1 (R274); `p` is what its bits say
where no engine has begun it. -/
def execDecodePictureMissed (stream : Nat) (p : PicSyn) (s : State) : Out :=
  .next (match tfind s.vid.sess stream with
    | none => s
    | some x =>
      match x.work, x.queue with
      | some k, _ => if x.late k.w s.clk.stamp then decTurn (decodeMissed stream { x with work := none } k.w k.p s) else s
      | none, w :: q =>
        if x.late w s.clk.stamp then decodeMissed stream (({ x with queue := q } : Sess).noteId w) w p s else s
      | none, [] => s)

/-- ENCODE_PICTURE_START: a tile's idle encode engine starts the ready picture with the earliest window end (R284). -/
def execEncodePictureStart (tile : Nat) (s : State) : Out :=
  .next (if !tileIn tile s || (encBusy tile s).isSome then s
    else match nextEncode tile s with
      | none => s
      | some id => match tfind s.vid.encs id, tfind s.vid.canvas (id % 256) with
        | some e, some x => match e.pics with
          | [] => s
          | q :: _ => tileSync tile (encodeStart id e x q (encSwitch tile id s))
        | _, _ => s)

/-- ENCODE_PICTURE_COMPLETE: the picture on a tile's encode engine is complete (R297). -/
def execEncodePictureComplete (tile : Nat) (o : EncOut) (s : State) : Out :=
  .next (match encBusy tile s with
    | none => s
    | some id => match tfind s.vid.encs id, tfind s.vid.canvas (id % 256) with
      | some e, some x => match e.pics with
        | [] => s
        | q :: _ => encTurn (encodeComplete id e x q o s)
      | _, _ => s)

/-- REPEAT_PICTURE: a repeat picture in place of the oldest picture of an encode, whose input is unwritten at the start of its window or
which is not complete at its end (R296). -/
def execRepeatPicture (enc bytes : Nat) (s : State) : Out :=
  .next (match tfind s.vid.encs enc, tfind s.vid.canvas (enc % 256) with
    | some e, some x => match e.pics with
      | [] => s
      | q :: _ =>
        let c := compBlocks x.width x.height
        let input := x.done.any fun p => decide (p.tick = q.tick)
        if (!input && stampGe s.clk.stamp (stampAdd q.tick c)) || stampGe s.clk.stamp (stampAdd q.tick (c + encBlocks x.width x.height)) then
          encTurn (repeatPicture enc bytes e x q s)
        else s
    | _, _ => s)

/-! ## Composition -/

/-- CANVAS_TICK: a canvas's tick falls due (R327). -/
def execCanvasTick (canvas : Nat) (s : State) : Out := .next (canvasTick canvas (canvasTurn canvas s))

/-- COMPOSITION_COMPLETE: a compositor completes the composition with the earliest window end; `crcs` are the CRCs its checker computed
wrongly, by region (R346). -/
def execCompositionComplete (comp : Nat) (crcs : List (Nat × Nat)) (s : State) : Out :=
  .next (match nextComp comp s with
    | none => s
    | some id => match tfind s.vid.canvas id with
      | none => s
      | some x => match x.ready with
        | [] => s
        | c :: _ => compDone id x c crcs s)

/-- COMPOSITION_MISSED: a canvas's oldest composition is not complete at the end of block t + c − 1 (R349). -/
def execCompositionMissed (canvas : Nat) (s : State) : Out :=
  .next (match tfind s.vid.canvas canvas with
    | none => s
    | some x => match x.ready with
      | [] => s
      | c :: _ =>
        if stampGe s.clk.stamp (stampAdd c.tick (compBlocks x.width x.height)) then compMissed canvas x c s else s)

/-! ## The confidence output (R350 to R352) -/

/-- DP_STATUS.state codes. -/
def dpDown : Nat := 0
def dpTrain : Nat := 1
def dpUp : Nat := 2
def dpFailed : Nat := 3

def dpPut (d : Dp) (s : State) : State := { s with vid := { s.vid with dp := d } }

/-- Lanes of a lane code; b/s of a lane at a rate code; payload of 8b/10b. -/
def dpLanes (c : Nat) : Nat := if c = 0 then 0 else 2 ^ (c - 1)
def dpLaneRate (r : Nat) : Nat :=
  match r with
  | 0 => 1620000000 | 1 => 2700000000 | 2 => 5400000000
  | _ => 8100000000

/-- The pixel clock of a timing (CTA-861): the same at 60 Hz and at 50 Hz. -/
def dpPixelClock (timing : Nat) : Nat :=
  match timing with
  | 0 => 74250000 | 1 => 148500000
  | _ => 594000000

/-- Whether a link carries the timing of DP_CTRL at dp_bpc in YCbCr 4:4:4. -/
def dpCarries (lanes rate : Nat) (s : State) : Bool :=
  decide (dpPixelClock (fget R.DP_CTRL_timing s) * 3 * planDpBpc s ≤ dpLanes lanes * dpLaneRate rate / 10 * 8)

/-- Training tried at a rate and a number of lanes. -/
def dpTry (lanes rate : Nat) (s : State) : State :=
  let s := dpPut { s.vid.dp with
    lanes := lanes
    rate := rate } s
  cinc 0x680058 (fset R.DP_STATUS_lanes 0 (fset R.DP_STATUS_rate 0 (fset R.DP_STATUS_state dpTrain s)))

/-- Training begun at the highest common rate with the most lanes. -/
def dpStart (s : State) : State := dpTry s.vid.dp.maxLanes s.vid.dp.maxRate s

/-- The link taken down with a reason. -/
def dpLost (reason state : Nat) (s : State) : State :=
  let s := fset R.DP_STATUS_lanes 0 (fset R.DP_STATUS_rate 0 (fset R.DP_STATUS_pol_inv 0 (fset R.DP_STATUS_state state s)))
  raiseUnit EV_DP_LINK_DOWN 0 reason (dpPut { s.vid.dp with failed := s.clk.stamp } s)

/-- DP_STATUS.forced_diag brought up to date (R352). -/
def dpSync (s : State) : State := fset R.DP_STATUS_forced_diag (b2n (!s.clk.running || decide (fget R.FRM_STATUS_state s = 3))) s

/-- DP_HPD_HIGH: HPD has been high for 200 blocks; the capabilities read: lane code in [1:0], rate in [3:2]. -/
def execDpHpdHigh (caps : Nat) (s : State) : Out :=
  .next (
    let s := fset R.DP_STATUS_hpd 1 s
    if planDpEnable s ≠ 1 || fget R.DP_STATUS_state s ≠ dpDown then s
    else dpStart (dpPut { s.vid.dp with
      maxLanes := max 1 (bits caps 0 2)
      maxRate := bits caps 2 2 } s))

/-- DP_TRAIN_PASS: clock recovery and equalisation pass, with a polarity correction a lane; a link that cannot carry the timing fails. -/
def execDpTrainPass (polInv : Nat) (s : State) : Out :=
  .next (
    let d := s.vid.dp
    if fget R.DP_STATUS_state s ≠ dpTrain then s
    else if !dpCarries d.lanes d.rate s then dpLost 2 dpFailed s
    else
      let s := fset R.DP_STATUS_lanes d.lanes (fset R.DP_STATUS_rate d.rate (fset R.DP_STATUS_pol_inv polInv (fset R.DP_STATUS_state dpUp s)))
      raiseUnit EV_DP_LINK_UP 0 (dpLanes d.lanes + d.rate * 8) s)

/-- DP_TRAIN_STEP_FAIL: the next lower rate is tried, then fewer lanes from the highest common rate; RBR with one lane fails the link. -/
def execDpTrainStepFail (s : State) : Out :=
  .next (
    let d := s.vid.dp
    if fget R.DP_STATUS_state s ≠ dpTrain then s
    else if 0 < d.rate then dpTry d.lanes (d.rate - 1) s
    else if 1 < d.lanes then dpTry (d.lanes - 1) d.maxRate s
    else dpLost 1 dpFailed s)

/-- DP_RETRY_TIMER: 2,000 blocks after a failure training starts again. -/
def execDpRetryTimer (s : State) : Out :=
  .next (if fget R.DP_STATUS_state s = dpFailed && 2000 ≤ stampSub s.clk.stamp s.vid.dp.failed then dpStart s else s)

/-- DP_HPD_IRQ: a report of lost lock retrains the link. -/
def execDpHpdIrq (s : State) : Out := .next (if fget R.DP_STATUS_state s = dpUp then dpStart s else s)

/-- DP_HPD_LOW: HPD low for 4 blocks takes the link down. -/
def execDpHpdLow (s : State) : Out :=
  .next (
    let s := fset R.DP_STATUS_hpd 0 s
    if planDpEnable s ≠ 1 then s else dpLost 0 dpDown s)

/-- A write of DP_CTRL: each field takes a value in its range; a canvas that SERVICE may not show sets refused and leaves mode and canvas. A
failed link trains again. -/
def dpCtrlWrite (v : Nat) (s : State) : State :=
  let put := fun (f : Fld) (top n : Nat) (s : State) => if n ≤ top then fset f n s else s
  let mode := if bits v 0 2 ≤ 2 then bits v 0 2 else fget R.DP_CTRL_mode s
  let ok := decide (mode ≠ 2) || (match liveCanvas (bits v 2 8) s with
    | some x => x.dp
    | none => false)
  let s := if ok then fset R.DP_CTRL_mode mode (fset R.DP_CTRL_canvas (bits v 2 8) s) else fset R.DP_STATUS_refused 1 s
  let s := put R.DP_CTRL_pattern 4 (bits v 13 3) (fset R.DP_CTRL_rate (bits v 12 1) (put R.DP_CTRL_timing 2 (bits v 10 2) s))
  if fget R.DP_STATUS_state s = dpFailed then dpStart s else s

/-- DP_CTRL_WRITE. -/
def execDpCtrlWrite (v : Nat) (s : State) : Out := .next (dpCtrlWrite v s)

/-- The settings that DP_CTRL holds at a frame start. -/
def dpLatch (s : State) : State :=
  dpPut { s.vid.dp with
    mode := fget R.DP_CTRL_mode s
    canvas := fget R.DP_CTRL_canvas s
    timing := fget R.DP_CTRL_timing s
    hz50 := fon R.DP_CTRL_rate s
    pattern := fget R.DP_CTRL_pattern s } s

/-- The surface shown let go, and the canvas that held it only for that. -/
def dpClear (s : State) : State :=
  let s' := dpPut { s.vid.dp with shown := none } s
  match s.vid.dp.shown with
  | some p => canvasTrim p.1 s'
  | none => s'

/-- The newest surface of the canvas shown, or the border. -/
def dpService (s : State) : State :=
  let d := s.vid.dp
  let id := d.canvas
  match (liveCanvas id s).bind fun x => if x.dp then x.done.getLast? else none with
  | none => { dpClear s with out := .dp id none :: s.out }
  | some c =>
    let n := cget (cvCnt id 0) s
    let same := decide (d.shown.map (fun p => (p.1, p.2.2)) = some (id, c.surf))
    let s' := if same then cinc 0x680048 s
      else if d.shown.map (·.1) = some id then cadd 0x680050 (n - d.seen - 1) s else dpClear s
    canvasTrim id { dpPut { d with
      shown := some (id, c.tick, c.surf)
      seen := if same then d.seen else n } s' with out := .dp id (some c.tick) :: s.out }

/-- The status page (R352): boot phase, Bay states, the newest fault-log entry. -/
def dpPage (s : State) : List Nat :=
  let n := fget R.LDG_LOG_NEXT_next s
  [fget R.PWR_STATUS_phase s] ++ ((List.range 4).map fun b => fget (R.FLT_BAY_STATUS_state b) s)
    ++ if fget R.LDG_LOG_OLDEST_oldest s < n then toNats (ledgerRead (faultLogAddr (n - 1)) 64 s) else []

/-- Columns and rows of a timing. -/
def dpSize (timing : Nat) : Nat × Nat :=
  match timing with
  | 0 => (1280, 720) | 1 => (1920, 1080)
  | _ => (3840, 2160)

/-- Y, Cb and Cr of a place of a SERVICE frame (R350, R352): the picture 1:1 and centred, its chroma repeated from each cell, within a border; at
8 bits each sample is rounded. -/
def dpSample (bpc timing : Nat) (c : Option CPic) (x y : Nat) : List Nat :=
  let z := dpSize timing
  let v := match c with
    | none => [64, 512, 512]
    | some c =>
      let i := (x : Int) - ((z.1 : Int) - c.width).fdiv 2
      let j := (y : Int) - ((z.2 : Int) - c.height).fdiv 2
      if i < 0 || j < 0 || (c.width : Int) ≤ i || (c.height : Int) ≤ j then [64, 512, 512]
      else ([0, 1, 2] : List Nat).map fun p =>
        (if p = 0 then compSample c 0 i.toNat j.toNat else compSample c p (i.toNat / 2) (j.toNat / 2)).toNat
  if bpc = 8 then v.map fun n => min ((n + 2) / 4) 255 else v

/-- DP_FRAME_START: the frame's source taken (R352); OFF sends no frame. -/
def execDpFrameStart (s : State) : Out :=
  .next (if planDpEnable s ≠ 1 || fget R.DP_STATUS_state s ≠ dpUp then s
    else
      let s := dpSync (dpLatch s)
      if fon R.DP_STATUS_forced_diag s || s.vid.dp.mode = 1 then
        let s := cinc 0x680040 (dpClear s)
        { s with out := .diag s.vid.dp.pattern (if s.vid.dp.pattern = 3 then dpPage s else []) :: s.out }
      else if s.vid.dp.mode = 2 then dpService (cinc 0x680040 s)
      else dpClear s)

/-! ## Fallback -/

/-- FALLBACK_OPEN_RETRY: a refused fallback of a leg tried again (R314). -/
def execFallbackOpenRetry (leg : Nat) (s : State) : Out :=
  .next (match tfind s.ctl.legs leg with
    | none => s
    | some l => fallRetry leg s.clk.stamp l s)

/-! ## A tile's fault (R275) -/

/-- The tile a Bay has spare. -/
def spareTile (bay : Nat) (s : State) : Option Nat := (bayTiles bay).find? fun t => decide (fget (R.VCT_TILE_STATUS_state t) s = 1)

/-- A tile's duty moved to a spare; the pictures in progress start again from their beginnings. `st` is the state the old tile keeps. -/
def tileMove (t u st : Nat) (s : State) : State :=
  let duty := fget (R.VCT_TILE_DUTY_duty_of t) s
  let s := fset (R.VCT_TILE_DUTY_valid t) 0 (fset (R.VCT_TILE_STATUS_state t) st s)
  let s := fset (R.VCT_TILE_DUTY_valid u) 1 (fset (R.VCT_TILE_DUTY_duty_of u) duty (fset (R.VCT_TILE_STATUS_state u) 0 s))
  let s := { s with vid := { s.vid with
    sess := s.vid.sess.map fun p => (p.1, if p.2.tile = t then { p.2.restart with tile := u } else p.2)
    encs := s.vid.encs.map fun p => (p.1, if p.2.tile = t then { p.2.restart with tile := u } else p.2) } }
  tileSync u (tileSync t s)

/-- A tile out of service for good: its duty to its Bay's spare, else its sessions placed elsewhere; `log` writes the fault's entry. -/
def tileFail (log : FaultRec → State → Nat × State) (t : Nat) (s : State) : State :=
  let unit := unitTile t
  let rec_ := fun (action repl n detail : Nat) => (⟨unit, 2, action, 0, repl, n, detail, 0xFF, if action = 2 then 1 else 2, 0⟩ : FaultRec)
  let ds := tkeysWhere s.vid.sess fun _ x => decide (x.tile = t)
  let es := tkeysWhere s.vid.encs fun _ x => decide (x.tile = t)
  if fget (R.VCT_TILE_STATUS_state t) s ≠ 0 then
    let s := (log (rec_ 4 0 0 t) s).2
    unitRetire unit 0 (fset (R.VCT_TILE_STATUS_state t) 2 s)
  else match spareTile (tileBay t) s with
    | some u =>
      let s := (log (rec_ 2 (unitTile u) (ds.length + es.length) (t + u * 256)) s).2
      let s := spareTakeover unit (unitTile u) (tileMove t u 2 s)
      raiseUnit EV_TILE_TAKEOVER unit (t + u * 256) (unitRetire unit (unitTile u) s)
    | none =>
      let s := (log (rec_ 4 0 (ds.length + es.length) t) s).2
      let s := fset (R.VCT_TILE_DUTY_valid t) 0 (fset (R.VCT_TILE_STATUS_state t) 2 s)
      tileSync t (sessRehomeAll ds es (unitRetire unit 0 s))

/-- TILE_HW_FAULT: a hardware fault of a tile that is not retired. -/
def execTileHwFault (tile : Nat) (s : State) : Out :=
  .next (if 68 ≤ tile || fget (R.VCT_TILE_STATUS_state tile) s = 2 then s else tileFail faultDeclare tile s)

end Sys2Proof.Machine
end

