-- ==== Sys2Proof/Machine/Legs.lean ====
section
/-! DEFINITION. Acts, legs, stream contexts, key bindings and safe-loads: what their commands do at their boundary (R85 to R87, R107,
R126, R161, R166, R170 to R176). -/
namespace Sys2Proof.Machine

/-- The refusal of an identifier (R19, R22): out of range, or outside a VF's allotment; the PF may name any. -/
def idRefused (c : Cmd) (kind limit id : Nat) (s : State) : Option Rsp :=
  if limit ≤ id then some (rspErr stBadId)
  else if !owns c.fn kind id s then some (rspErr stNotOwned)
  else none

def legLimit : Nat := 16384
def actLimit : Nat := 4096
def streamLimit : Nat := 65536

/-- The counters of an object put back to 0 (R459). -/
def cntClear (kind id : Nat) (s : State) : State :=
  { s with cnt := teraseRange s.cnt (objCnt kind id 0) (objCnt kind id 512) }

/-! ## Acts (R33, R87) -/

/-- The AU of an Act (R33): for each leg one; a mixing Act N decodes, N individual encodes and the common encode. -/
def actUnits (maxLegs : Nat) (t : Template) : Nat := if t.mixing then maxLegs + 15 * t.topN + 12 else maxLegs

/-- An Act's AU raised or lowered, with the charge of its Ring and Bay. -/
def actCharge (act n : Nat) (up : Bool) (s : State) : State :=
  match tfind s.ctl.acts act with
  | none => s
  | some a =>
    let c := if up then chargeAdd a.charge (chargeOf 0 n) else chargeSub a.charge (chargeOf 0 n)
    let s := if up then chargeUp a.ring a.bay (chargeOf 0 n) s else chargeDown a.ring a.bay (chargeOf 0 n) s
    { s with ctl := { s.ctl with acts := tset s.ctl.acts act { a with charge := c } } }

/-- ACT_ADMIT. -/
def applyActAdmit (c : Cmd) (_b : Nat) (s : State) : State × Option Rsp :=
  let id := c.target
  match idRefused c 1 actLimit id s with
  | some r => (s, some r)
  | none =>
    let ring := (ringOf 1 id s).getD noRing
    let n := carg c 0x1A 2
    match template ring (carg c 0x18 2) s with
    | none => (s, some (rspErr stBadArg))
    | some t =>
      if !within 2 16384 n || (!t.mixing && n ≠ 2) || !czero c 0x1C then (s, some (rspErr stBadArg))
      else if (tfind s.ctl.acts id).isSome then (s, some (rspErr stBadState))
      else
        let ch := chargeOf 0 (actUnits n t)
        match place ring ch s with
        | none => (s, some (rspErr stCapacity))
        | some bay =>
          let s := chargeUp ring bay ch (cntClear 2 id s)
          let s := { s with ctl := { s.ctl with acts := tset s.ctl.acts id ⟨ring, t, n, bay, ch⟩ } }
          (audActAdmit id t s, some rspOk)

/-- ACT_RELEASE. -/
def applyActRelease (c : Cmd) (_b : Nat) (s : State) : State × Option Rsp :=
  let id := c.target
  match idRefused c 1 actLimit id s with
  | some r => (s, some r)
  | none =>
    if !czero c 0x18 then (s, some (rspErr stBadArg))
    else match tfind s.ctl.acts id with
      | none => (s, some (rspErr stBadState))
      | some a =>
        if !(actLegs id s).isEmpty then (s, some (rspErr stBadState))
        else
          let s := chargeDown a.ring a.bay a.charge s
          (drainForget 5 id (audActFree id { s with ctl := { s.ctl with acts := terase s.ctl.acts id } }), some rspOk)

/-! ## Encode settings (R164, R166) -/

/-- The setting of a leg with a record: none for a leg without audio. -/
def recSetting (codec : Nat) (r : LegRec) : List (List Nat) :=
  if codec = 0 then [] else [[codec, r.encRate, r.encFlags, r.encCx]]

/-- The setting of a leg: of its codec and record, or of a TDM leg its port's mode and its format (R164, R198). -/
def legSetting (act leg : Nat) (l : Leg) (s : State) : List (List Nat) :=
  match tdmBind leg s with
  | some bd => [[16, tdmMode bd.port s, bd.format]]
  | none => recSetting l.acodec (legRec act leg s)

/-- The settings of an Act's legs other than `skip`. -/
def actSettings (act skip : Nat) (s : State) : List (List Nat) :=
  ((s.ctl.legs.filter fun p => decide (p.2.act = act) && decide (p.1 ≠ skip)).map fun p => legSetting act p.1 p.2 s).flatten

/-- The AU that an Act's distinct settings are charged beyond the common encode. -/
def settingUnits (act : Nat) (l : List (List Nat)) (s : State) : Nat :=
  if (actTpl act s).mixing then 12 * (l.eraseDups.length - 1) else 0

/-- The AU an Act's settings take now. -/
def settingNow (act : Nat) (s : State) : Nat := settingUnits act (actSettings act legLimit s) s

/-- The Act's charge moved from `old` units of settings to what they take now. -/
def settingSettle (act old : Nat) (s : State) : State :=
  let n := settingNow act s
  if old < n then actCharge act (n - old) true s else actCharge act (old - n) false s

/-- A due SRC change of a function applied; a slot binding changes what its Act's settings take (R166, R198).  No result of R190 says that it does
not fit: it is charged in any case (log entry 184). -/
def srcChange (fn : Fn) (b : Nat) (s : State) : State :=
  let act := ((stageDue 1 b fn s).bind fun c => if c.op = 1 then none else tfind s.ctl.legs c.target).map (·.act)
  match act with
  | some a => settingSettle a (settingNow a s) (srcApply fn b s)
  | none => srcApply fn b s

/-! ## Legs (R85, R86) -/

/-- The charge of a leg's declaration (R29, R32): its packets, and its SRTP rate once for each direction. -/
def legNeed (pkt srtp : Nat) : Charge := chargeAdd (chargeOf 4 pkt) (chargeOf 5 (2 * srtp))

/-- Whether a codec may not join a forwarding Act (R167). -/
def codecClash (act codec : Nat) (s : State) : Bool :=
  !(actTpl act s).mixing && s.ctl.legs.any fun p => decide (p.2.act = act) && decide (p.2.acodec ≠ codec)

/-- Whether an Act has its most legs. -/
def actFull (act : Nat) (a : Act) (s : State) : Bool := decide (a.maxLegs ≤ (actLegs act s).length)

/-- LEG_ADMIT: its checks in the order of log entry 171. -/
def applyLegAdmit (c : Cmd) (_b : Nat) (s : State) : State × Option Rsp :=
  let id := c.target
  let act := carg c 0x18 2
  let ac := carg c 0x1A 1
  let vc := carg c 0x1B 1
  let role := carg c 0x21 1
  let pkt := carg c 0x24 4
  let srtp := carg c 0x28 4
  match idRefused c 0 legLimit id s, idRefused c 1 actLimit act s with
  | some r, _ => (s, some r)
  | none, some r => (s, some r)
  | none, none =>
    let ring := (ringOf 0 id s).getD noRing
    if 7 < ac || 4 < vc || 1 < role || carg c 0x22 2 ≠ 0 || !czero c 0x2C then (s, some (rspErr stBadArg))
    else if (ringOf 1 act s).getD noRing ≠ ring then (s, some (rspFail stBadArg 7))
    else match tfind s.ctl.legs id, tfind s.ctl.acts act with
      | none, some a =>
        if codecClash act ac s then (s, some (rspFail stBadArg 3))
        else if actFull act a s then (s, some (rspErr stCapacity))
        else
          let need := legNeed pkt srtp
          let old := settingNow act s
          let now := settingUnits act (recSetting ac (LegRec.dflt a.tpl ac) ++ actSettings act legLimit s) s
          match place ring need s with
          | none => (s, some (rspErr stCapacity))
          | some bay =>
            if old < now && !fits a.ring a.bay (chargeOf 0 (now - old)) s then (s, some (rspErr stCapacity))
            else
              let s := chargeUp ring bay need (cntClear 0 id s)
              let l : Leg := ⟨.admitted, ring, act, ac, vc, carg c 0x1C 2, carg c 0x1E 2, carg c 0x20 1, role, pkt, srtp, bay, need, 0, 0,
                0, 0, false, false, 0, 0⟩
              let l := { l with
                byteLvl := byteDepth l s
                pktLvl := pktDepth l s
                prevByte := byteDepth l s
                prevPkt := pktDepth l s }
              let s := { s with ctl := { s.ctl with legs := tset s.ctl.legs id l } }
              let s := egrAdmit id l (audLegAdmit id act ac s)
              (settingSettle act old s, some rspOk)
      | _, _ => (s, some (rspErr stBadState))

/-- Whether a context is ready for LEG_START: a valid key, or, of a TDM source, the leg's slot binding (R86, R198). -/
def streamReady (st : Stream) (s : State) : Bool :=
  if st.tdm then (tdmBind st.leg s).isSome
  else match st.key with
    | some k => keyValid k s
    | none => false

/-- A leg of the issuer and what the usual checks refuse. -/
def legOf (c : Cmd) (s : State) : Except Rsp Leg :=
  match idRefused c 0 legLimit c.target s with
  | some r => .error r
  | none =>
    match tfind s.ctl.legs c.target with
    | none => .error (rspErr stBadState)
    | some l => .ok l

/-- LEG_START. -/
def applyLegStart (c : Cmd) (b : Nat) (s : State) : State × Option Rsp :=
  match legOf c s with
  | .error r => (s, some r)
  | .ok l =>
    let strs := s.ctl.streams.filter fun p => decide (p.2.leg = c.target)
    if !czero c 0x18 then (s, some (rspErr stBadArg))
    else if l.st ≠ .admitted || strs.isEmpty || !(strs.all fun p => streamReady p.2 s) then (s, some (rspErr stBadState))
    else
      let s := { s with ctl := { s.ctl with legs := tset s.ctl.legs c.target { l with st := .active, started := b } } }
      (fwdLegStart c.target b (audLegStart c.target l.act b s), some rspOk)

/-- A leg's RTP ingress audio was admitted without an audio-level identifier (R161). -/
def lacksLevel (leg : Nat) (s : State) : Bool :=
  s.ctl.streams.any fun p => decide (p.2.leg = leg) && decide (p.2.dir = 0) && decide (p.2.media = 0) && !p.2.tdm &&
    decide (p.2.ext.getD 0 0 = 0)

/-- A leg untrusted from its admission or its route (R161), with its charge. -/
def trustFrom (leg act : Nat) (s : State) : State :=
  trustCharge leg act true (legAudPut leg { legAud leg s with untrusted := true } s)

/-- The mark of a leg on its way from one Act to another (R161). -/
def trustRoute (leg old new : Nat) (s : State) : State :=
  if (actTpl new s).mixing then
    if (actTpl old s).mixing then
      if (legAud leg s).charged then trustCharge leg new true (trustCharge leg old false s) else s
    else if lacksLevel leg s then trustFrom leg new s else s
  else trustClear leg old s

/-- LEG_ROUTE. A full mixing Act refuses as a full Act refuses LEG_ADMIT (log entry 170). -/
def applyLegRoute (c : Cmd) (b : Nat) (s : State) : State × Option Rsp :=
  let id := c.target
  let act := carg c 0x18 2
  match legOf c s with
  | .error r => (s, some r)
  | .ok l =>
    match idRefused c 1 actLimit act s with
    | some r => (s, some r)
    | none =>
      if !czero c 0x1A then (s, some (rspErr stBadArg))
      else if l.st = .draining then (s, some (rspErr stBadState))
      else if ringOf 1 act s ≠ some l.ring then (s, some (rspFail stBadArg 7))
      else if act = l.act then (s, some rspOk)
      else match tfind s.ctl.acts act, tfind s.ctl.acts l.act with
        | some a, some o =>
          if codecClash act l.acodec s then (s, some (rspFail stBadArg 3))
          else if actFull act a s then (s, some (rspErr stCapacity))
          else
            let both := a.tpl.mixing && o.tpl.mixing
            let ramp := if l.st = .active && both then 12 else 0
            let trust := if a.tpl.mixing && !o.tpl.mixing && lacksLevel id s then 3 else 0
            let oldN := settingNow act s
            let oldO := settingNow l.act s
            let now := settingUnits act (legSetting l.act id l s ++ actSettings act legLimit s) s
            let need := 1 + ramp + trust + (now - oldN)
            if !fits a.ring a.bay (chargeOf 0 need) s then (s, some (rspErr stCapacity))
            else
              let s := actCharge act 1 true (actCharge l.act 1 false s)
              let s := trustRoute id l.act act s
              let s := if ramp = 0 then s
                else
                  let s := match (legAud id s).routeCharge with
                    | some (r, k, _) => chargeDown r k (chargeOf 0 12) s
                    | none => s
                  chargeUp a.ring a.bay (chargeOf 0 12) (legAudPut id { legAud id s with
                    routeCharge := some (a.ring, a.bay, stampSub (stampAdd b (rampBlocks a.tpl.ramp)) 1) } s)
              let s := audLegRoute id l.act act b (decide (l.st = .active)) s
              let s := { s with ctl := { s.ctl with legs := tset s.ctl.legs id { l with act := act } } }
              (settingSettle act oldN (settingSettle l.act oldO s), some rspOk)
        | _, _ => (s, some (rspErr stBadState))

/-! ## Freeing (R86, R107) -/

/-- A stream context freed: its entries, its key, its rewind ring and its track go with it. -/
def streamFree (id : Nat) (s : State) : State :=
  { s with
    ctl := { s.ctl with streams := terase s.ctl.streams id }
    egr := { s.egr with
      strs := terase s.egr.strs id
      rings := terase s.egr.rings id }
    fwd := { s.fwd with tracks := terase s.fwd.tracks id } }

/-- A leg freed at `b`: its contexts, its fallback, its charge, its unit in its Act's encodes. -/
def legFree (id b : Nat) (l : Leg) (s : State) : State :=
  let ids := tkeysWhere s.ctl.streams fun _ st => decide (st.leg = id)
  let s := ids.foldl (fun s n => streamFree n s) s
  let s := if (fallCanvas id s).isSome then fallClose id b s else s
  let old := settingNow l.act s
  let s := chargeDown l.ring (if l.unplaced then 4 else l.bay) l.charge s
  let s := egrFree id (audLegFree id l.act s)
  let s := { s with
    ctl := { s.ctl with legs := terase s.ctl.legs id }
    fwd := { s.fwd with legs := terase s.fwd.legs id } }
  settingSettle l.act old (drainForget 0 id s)

/-- LEG_RELEASE: of an ADMITTED leg at once; an ACTIVE leg drains, and the command completes at LEG_DRAIN_END. -/
def applyLegRelease (c : Cmd) (b : Nat) (s : State) : State × Option Rsp :=
  match legOf c s with
  | .error r => (s, some r)
  | .ok l =>
    if !czero c 0x18 then (s, some (rspErr stBadArg))
    else match l.st with
      | .admitted => (legFree c.target b l s, some rspOk)
      | .active =>
        let e := stampAdd b (rampBlocks (actRamp l.act s) + if (casAct l.act s).isSome then casX s else 0)
        let s := { s with ctl := { s.ctl with legs := tset s.ctl.legs c.target { l with st := .draining, drainEnd := e } } }
        (audLegRelease c.target l.act b s, none)
      | .draining => (s, some (rspErr stBadState))

/-! ## Stream contexts (R107, R318) -/

/-- The length of a new rewind ring: the Ring's default of class 5, or 2^8 (log entry 20). -/
def rwLog2 (ring : Nat) (s : State) : Nat :=
  match queueDepth 5 ring s with
  | some d => Nat.log2 d
  | none => 8

/-- Whether STREAM_ADMIT's arguments are in range. -/
def streamArgs (c : Cmd) (leg : Nat) (s : State) : Bool :=
  let dir := carg c 0x1A 1
  let media := carg c 0x1B 1
  let log2 := carg c 0x22 1
  let rtx := carg c 0x24 2
  let prim := match tfind s.ctl.streams rtx with
    | some p => decide (p.leg = leg) && decide (p.dir = dir) && decide (p.media < 2)
    | none => false
  let tdm := bit (carg c 0x20 2) 1
  within 0 1 dir && within 0 2 media && within 0 3 (carg c 0x20 2) && within 0 2 (carg c 0x38 1) && carg c 0x26 2 = 0
    && (dir = 1 || tdm || ((log2 = 0 || within 6 14 log2) && within 2 255 (carg c 0x23 1))) && (if media = 2 then prim else rtx = 0)

/-- STREAM_ADMIT. -/
def applyStreamAdmit (c : Cmd) (b : Nat) (s : State) : State × Option Rsp :=
  let id := c.target
  let leg := carg c 0x18 2
  match idRefused c 2 streamLimit id s, idRefused c 0 legLimit leg s with
  | some r, _ => (s, some r)
  | none, some r => (s, some r)
  | none, none =>
    if ringOf 2 id s ≠ ringOf 0 leg s then (s, some (rspErr stNotOwned))
    else match tfind s.ctl.legs leg with
      | none => (s, some (rspErr stBadState))
      | some l =>
        let dir := carg c 0x1A 1
        let flags := carg c 0x20 2
        if l.st ≠ .admitted || (tfind s.ctl.streams id).isSome then (s, some (rspErr stBadState))
        else if !streamArgs c leg s then (s, some (rspErr stBadArg))
        else if dir = 0 && 8 ≤ (s.ctl.streams.filter fun p => decide (p.2.leg = leg) && decide (p.2.dir = 0)).length then
          (s, some (rspErr stCapacity))
        else
          let ext := (List.range 7).map fun i => carg c (0x39 + i) 1
          let tdm := bit flags 1
          let untrusted := (actTpl l.act s).mixing && dir = 0 && carg c 0x1B 1 = 0 && !tdm && ext.getD 0 0 = 0
            && !(legAud leg s).untrusted
          if untrusted && !trustFits l.act s then (s, some (rspErr stCapacity))
          else
            let st : Stream := ⟨leg, dir, carg c 0x1B 1, carg c 0x1C 4, bit flags 0, tdm, jrLog2 l.ring (carg c 0x22 1) s,
              carg c 0x23 1, carg c 0x24 2, cargs c 0x28 8, cargs c 0x30 8, carg c 0x38 1, ext, none, none, false, 0, 0,
              ⟨false, 0, 0⟩, ⟨false, 0, 0⟩, ⟨false, 0, 0, none, none⟩, none, 0, false, none, b, [], none, false, 0,
              ⟨false, 0, 0, 0, 0, 0, 0, 0, none⟩, 0, b, none, none, ⟨false, 0, 0⟩⟩
            let s := cntClear 1 id (streamPut id st s)
            let s := if dir = 1 && carg c 0x1B 1 < 2 then
                { s with egr := { s.egr with rings := tset s.egr.rings id ⟨rwLog2 l.ring s, none, false, none, [], [], false⟩ } }
              else s
            (if untrusted then trustFrom leg l.act s else s, some rspOk)

/-- STREAM_RELEASE. -/
def applyStreamRelease (c : Cmd) (_b : Nat) (s : State) : State × Option Rsp :=
  let id := c.target
  match idRefused c 2 streamLimit id s with
  | some r => (s, some r)
  | none =>
    if !czero c 0x18 then (s, some (rspErr stBadArg))
    else if (tfind s.ctl.streams id).isNone || s.ctl.streams.any fun p => decide (p.2.media = 2) && decide (p.2.rtxOf = id) then
      (s, some (rspErr stBadState))
    else (streamFree id s, some rspOk)

/-- KEY_BIND (R126, R127): a DRAINING leg's contexts refuse it (R86). -/
def applyKeyBind (c : Cmd) (b : Nat) (s : State) : State × Option Rsp :=
  let id := c.target
  let slot := carg c 0x18 2
  let unbind := bit (carg c 0x1A 1) 0
  match idRefused c 2 streamLimit id s, (if unbind then none else idRefused c 3 65536 slot s) with
  | some r, _ => (s, some r)
  | none, some r => (s, some r)
  | none, none =>
    if 1 < carg c 0x1A 1 || carg c 0x1B 1 ≠ 0 || 4000 < carg c 0x20 2 || !czero c 0x22 then (s, some (rspErr stBadArg))
    else match tfind s.ctl.streams id with
      | none => (s, some (rspErr stBadState))
      | some st =>
        if ((tfind s.ctl.legs st.leg).map (·.st)).getD .draining = .draining then
          (s, some (rspErr stBadState))
        else if unbind then (streamPut id (unbindStream st) s, some rspOk)
        else
          let r := bindReason id slot st s
          if r ≠ 0 then (s, some (rspFail stBadState r))
          else (streamPut id (bindStream slot (carg c 0x1C 4) (carg c 0x20 2) b st) s, some rspOk)

/-! ## Safe-loads (R169 to R174) -/

/-- An Act header of the parameter set. -/
def hdrOf (t : List Byte) : ActHdr := ⟨le t 0 1, le t 1 1, le t 2 2, le t 4 1, le t 5 1, le t 6 1, le t 7 1, le t 8 1⟩

/-- The header's ranges (R172). -/
def hdrOk (t : List Byte) (tpl : Template) : Bool :=
  let h := hdrOf t
  within 1 tpl.topN h.topN && within 0 40 h.hyst && within 40 65535 h.hold && within 0 127 h.gate && within 4 255 h.period
    && within 3 30 h.tol && within 1 15 h.strikes && within 0 1 h.flags && allZero ((t.take 64).drop 9)

/-- A record of the parameter set: what it stores. -/
def recOf (t : List Byte) : LegRec :=
  ⟨bit (le t 2 1) 0, le t 3 1, le t 4 4, le t 8 4, le t 12 1, le t 13 1, le t 14 2, le t 16 4, le t 20 2⟩

/-- A record's ranges (R173) for the leg's codec. -/
def recOk (t : List Byte) (codec : Nat) : Bool :=
  let r := recOf t
  within 0 7 (le t 2 1) && within 0 4 r.hpf && decide (r.gain < 2 ^ 24) && within 24 96000 r.gainRamp && within 0 3 r.encFlags
    && within 0 10 r.encCx && (if 4 ≤ codec then within 6000 128000 r.encRate else r.encRate = 0) && allZero ((t.take 32).drop 22)

/-- What flags bits 1 and 2 of a record do once. -/
def recOnce (act : Nat) (t : List Byte) (s : State) : State :=
  let leg := le t 0 2
  let f := le t 2 1
  let s := if bit f 1 then trustClear leg act s else s
  if bit f 2 then legAudPut leg { legAud leg s with held := -32768, count := 0 } s else s

/-- A bank with the header and records of a parameter set written over it. -/
def bankLoad (hdr : Option ActHdr) (recs : List (List Byte)) (k : Bank) : Bank :=
  recs.foldl (fun k t => k.put (le t 0 2) (recOf t)) { k with hdr := hdr.getD k.hdr }

/-- AUD_SAFE_LOAD at its boundary `b`; `d` is the parameter set as fetched (R170). -/
def applyAudSafeLoad (c : Cmd) (d : Option (List Byte)) (b : Nat) (s : State) : State × Option Rsp :=
  let id := c.target
  let a := carg c 0x18 8
  let n := carg c 0x20 4
  let cnt := carg c 0x24 2
  let hasHdr := bit (carg c 0x26 1) 0
  let bad (r : Nat) : State × Option Rsp := (s, some (rspFail stBadArg r))
  match idRefused c 1 actLimit id s with
  | some r => (s, some r)
  | none =>
    match tfind s.ctl.acts id with
    | none => (s, some (rspErr stBadState))
    | some act =>
      if n ≠ 64 * b2n hasHdr + 32 * cnt then bad 4
      else if a % 64 ≠ 0 || 16384 < cnt || 1 < carg c 0x26 1 || !czero c 0x27 then bad 2
      else match d with
      | none => (s, some (rspFail stFailed 5))
      | some t =>
        let recs := groups (cnt + 1) 32 (t.drop (64 * b2n hasHdr))
        if !(recs.all fun r => match tfind s.ctl.legs (le r 0 2) with | some l => decide (l.act = id) | none => false) then bad 1
        else if (hasHdr && !hdrOk t act.tpl)
            || !(recs.all fun r => match tfind s.ctl.legs (le r 0 2) with | some l => recOk r l.acodec | none => false) then bad 2
        else
          let x := actAud id s
          let k := bankLoad (if hasHdr then some (hdrOf t) else none) recs x.bank
          if k.hdr.topN < (k.recs.filter fun p => p.2.pinned).length then bad 2
          else
            let old := settingNow id s
            let again := decide (x.swapAt = some b)
            let y := if again then x.setBank k
              else if x.active = 0 then
                { x with
                  bankB := k
                  active := 1
                  gen := (x.gen + 1) % 65536
                  swapAt := some b }
              else
                { x with
                  bankA := k
                  active := 0
                  gen := (x.gen + 1) % 65536
                  swapAt := some b }
            let t' := actAudPut id y s
            if old < settingNow id t' && !fits act.ring act.bay (chargeOf 0 (settingNow id t' - old)) s then
              (s, some (rspErr stCapacity))
            else
              let s := settingSettle id old (if again then t' else cinc 0x201000 (cinc (actCnt id 0x10) t'))
              let s := recs.foldl (fun s r => recOnce id r s) s
              let s := if k.hdr.topN < x.bank.hdr.topN then selLower id b k.hdr.topN s else s
              (s, some (rspRes (y.active + y.gen * 65536)))

end Sys2Proof.Machine
end

