-- ==== Sys2Proof/Machine/FrmOps.lean ====
section
/-! DEFINITION. Framing operations (spec/02_framing_image.md R57 to R70): loads, deltas and rollbacks, their phases, and activation at a
block boundary. -/
namespace Sys2Proof.Machine

/-- An event to a function and to the PF, whatever its ring field (R65). -/
def raiseTo (fn : Fn) (e : Ev) (s : State) : State :=
  let s := if bit (fget R.OBS_TRACE_MASK_mask s) (e.code / 256) then traceAdd 0 e s else s
  let s := match fn with
    | .pf => s
    | .vf r => evqPush (evqVf r) e s
  pushPf e s

/-! ## Phases of boot (PWR_STATUS.phase, R437, R441) -/
def phKeepOn : Nat := 0
def phRom : Nat := 1
def phFw : Nat := 2
def phLedger : Nat := 3
def phImage : Nat := 4
def phClocks : Nat := 5
def phDram : Nat := 6
def phBays : Nat := 7
def phPorts : Nat := 8
def phRun : Nat := 9
def phFwFail : Nat := 10
def phNoImage : Nat := 11
def phStopping : Nat := 12
def phSaving : Nat := 13
def phStopped : Nat := 14
def phRomFail : Nat := 15

/-- The device scope among framing scopes. -/
def devScope : Nat := 16

/-- The Ring a scope is, none for the device. -/
def scopeRing (scope : Nat) : Option Nat := if scope < 16 then some scope else none

/-! ## Registers (R70) -/

/-- A scope's generation. -/
def generation (scope : Nat) (s : State) : Nat :=
  if scope < 16 then fget (R.FRM_RING_GEN_generation scope) s else fget R.FRM_DEV_GEN_generation s

def generationPut (scope g : Nat) (s : State) : State :=
  if scope < 16 then fset (R.FRM_RING_GEN_generation scope) g s else fset R.FRM_DEV_GEN_generation g s

def rollbackOk (scope : Nat) (s : State) : Bool :=
  if scope < 16 then fon (R.FRM_RING_GEN_rollback_ok scope) s else fon R.FRM_DEV_GEN_rollback_ok s

def rollbackPut (scope : Nat) (v : Bool) (s : State) : State :=
  if scope < 16 then fset (R.FRM_RING_GEN_rollback_ok scope) (b2n v) s else fset R.FRM_DEV_GEN_rollback_ok (b2n v) s

/-- The armed operations. -/
def armedOps (s : State) : Tbl FrmOp := s.frm.ops.filter fun p => decide (p.2.phase = .armed)

/-- Armed operations of a scope. -/
def armedOf (scope : Nat) (s : State) : Nat := ((armedOps s).filter fun p => decide (p.2.scope = scope)).length

/-- The armed counts shown. -/
def frmSync (s : State) : State :=
  let s := fset R.FRM_STATUS_armed (armedOps s).length (fset R.FRM_DEV_GEN_armed (armedOf devScope s) s)
  (List.range 16).foldl (fun s r => fset (R.FRM_RING_GEN_armed r) (armedOf r s) s) s

/-! ## The structure in force -/

/-- The depth an event queue has under the structure in force (R90). -/
def evqDepth (k : Nat) (s : State) : Nat := ((if k < 16 then queueDepth 2 k s else queueDepth 3 (k - 16) s)).getD 1024

/-- Every event queue staged to its depth. -/
def evqSizes (s : State) : State :=
  (List.range 32).foldl (fun s k => evqStage k (evqDepth k s) s) s

/-- What a tile is under the image: 0 in service, 1 spare, none held out of use (R40). -/
def tileImage (t : Nat) (s : State) : Option Nat :=
  if bit (tileService (t / 17) s) (t % 17) then some 0 else if bit (tileSpare (t / 17) s) (t % 17) then some 1 else none

/-- A unit the Ledger holds as retired. -/
def isRetired (unit : Nat) (s : State) : Bool := s.flt.retired.contains unit

/-- A fault-log record of R41's substitution. -/
def overrideRec (unit repl : Nat) : FaultRec := ⟨unit, 2, 2, 0, repl, 0, unit + repl * 65536, 0xFF, 1, 0⟩

/-- Whether some tile of the Bay carries tile `t`'s duty. -/
def dutyHeld (t : Nat) (s : State) : Bool :=
  (bayTiles (t / 17)).any fun u => decide (fget (R.VCT_TILE_DUTY_duty_of u) s = t) && fon (R.VCT_TILE_DUTY_valid u) s

/-- A tile given its state (R23, R40, R41): a retired one keeps its state, and where the image places it in service its duty goes to the
Bay's spare, which is logged. -/
def tileSet (t : Nat) (s : State) : State :=
  if isRetired (unitTile t) s then
    let s := fset (R.VCT_TILE_STATUS_state t) 2 s
    if tileImage t s ≠ some 0 || dutyHeld t s then s
    else match (bayTiles (t / 17)).find? fun u => decide (tileImage u s = some 1) && !isRetired (unitTile u) s
        && !fon (R.VCT_TILE_DUTY_valid u) s with
      | none => s
      | some u => (faultLog (overrideRec (unitTile t) (unitTile u)) (fset R.FRM_STATUS_retired_override 1 (tileMove t u 2 s))).2
  else match tileImage t s with
    | some 0 => fset (R.VCT_TILE_STATUS_state t) 0 (if dutyHeld t s then s else fset (R.VCT_TILE_DUTY_valid t) 1 s)
    | some _ => if fon (R.VCT_TILE_DUTY_valid t) s then s else fset (R.VCT_TILE_STATUS_state t) 1 s
    | none => fset (R.VCT_TILE_DUTY_valid t) 0 (fset (R.VCT_TILE_STATUS_state t) 3 s)

/-- The tiles of a Bay given their states: the spare first. -/
def bayTilesSet (bay : Nat) (s : State) : State :=
  let ts := bayTiles bay
  let sp := ts.filter fun t => decide (tileImage t s = some 1)
  let rest := ts.filter fun t => decide (tileImage t s ≠ some 1)
  (sp ++ rest).foldl (fun s t => tileSet t s) s

/-- The spare core of a cluster (R23): the image's, unless it is retired or serves. -/
def clusterSet (cl : Nat) (s : State) : State :=
  let sp := coreSpare cl s
  let s := fset (R.TMB_CL_STATUS_spare cl) sp s
  (List.range 17).foldl (fun s c =>
    let k := 17 * cl + c
    if isRetired (unitCore k) s then
      let s := fset (R.TMB_CORE_STATUS_state k) 5 s
      if c ≠ sp && !fon (R.TMB_CL_STATUS_spare_busy cl) s && !isRetired (unitCore (17 * cl + sp)) s then
        let s := fset R.FRM_STATUS_retired_override 1 (fset (R.TMB_CL_STATUS_spare_busy cl) 1 s)
        let s := fset (R.TMB_CORE_STATUS_state (17 * cl + sp)) 0 s
        (faultLog (overrideRec (unitCore k) (unitCore (17 * cl + sp))) s).2
      else s
    else if c = sp then (if fon (R.TMB_CL_STATUS_spare_busy cl) s then s else fset (R.TMB_CORE_STATUS_state k) 2 s)
    else if fget (R.TMB_CORE_STATUS_state k) s = 2 then fset (R.TMB_CORE_STATUS_state k) 0 s else s) s

/-- Units set to what the Bay allotment says. -/
def unitsSet (s : State) : State :=
  let s := (List.range 4).foldl (fun s b => bayTilesSet b s) s
  (List.range 32).foldl (fun s cl => clusterSet cl s) s

/-- A Bay to which frames can be steered: in service, and its classifier too (R40; log entry 160). -/
def steerable (b : Nat) (s : State) : Bool := bayIn b s && unitIn b 1 s && (unitIn b 2 s || unitIn b 3 s)

/-- Steering buckets that name a Bay out of service given to one in service; which one the spec leaves open (log entry 36). -/
def steerAway (s : State) : State :=
  let ins := (List.range 4).filter fun b => steerable b s
  if ins.isEmpty then s
  else (List.range 4096).foldl (fun s k =>
    if steerable (steerBay k s) s then s
    else
      let f := takeFree s
      let b := ins.getD (Config.steerTo f.1 k % ins.length) 0
      { f.2 with frm := { f.2.frm with steer := tset f.2.frm.steer k b } }) s

/-- The Rings whose canvases a change of the Marquee touches. -/
def marqueeRings (old : List Timber) (s : State) : List Nat :=
  let was := { s with frm := { s.frm with timbers := old } }
  ((s.vid.canvas.filter fun p => !p.2.ends && decide (assetFor p.1 was ≠ assetFor p.1 s)).map fun p => p.2.ring).eraseDups

/-- MARQUEE_APPLIED, and the safe surfaces kept current (R345, R347). -/
def marqueeApply (old : List Timber) (s : State) : State :=
  let part := fun (l : List Timber) => l.filter fun t => decide (t.type = tyMarquee)
  if part old = part s.frm.timbers then s
  else
    let rs := marqueeRings old s
    let e := ev EV_MARQUEE_APPLIED 0 none 0 0 (assets s).length s
    let s := raise e s
    let s := rs.foldl (fun s r => evqPush (evqVf r) e s) s
    (tkeys s.vid.canvas).foldl (fun s id => match tfind s.vid.canvas id with
      | some x => safeKeep id x s
      | none => s) s

/-- The KiB of a cluster's program store of 512 KiB that the images bound to it take (R231); which of them it holds where they take more
affects timing only. -/
def storeKib (cl : Nat) (s : State) : Nat :=
  let l := (((bindings s).filter fun b => bit b.clusters cl).map fun b => (b.scope, b.image)).eraseDups
  let imgs := l.map fun p => (kernelImage ⟨0, 0, p.2, 0, 0, 0, p.1⟩ s.frm.timbers).length
  min 512 ((imgs.foldl (· + ·) 0 + 1023) / 1024)

/-- The registers of the Carousel and the Tumbler that show the structure in force. -/
def crslSync (s : State) : State :=
  let s := fset R.CRSL_STATUS_shadow_log2 (shadowLog2 s) (readySizes s)
  (List.range 32).foldl (fun s cl => fset (R.TMB_CL_STATUS_store_kib cl) (storeKib cl s) s) s

/-- A structure put in force. -/
def configApply (new : List Timber) (s : State) : State :=
  let old := s.frm.timbers
  let s := { s with frm := { s.frm with timbers := new } }
  let s := (List.range 16).foldl (fun s r => fset (R.FRM_RING_GEN_defined r) (b2n (ringDefinedIn new r)) s) s
  let s := crslSync (evqSizes s)
  let s := if devBody old tyBay = devBody new tyBay then s
    else
      let s := unitsSet s
      steerAway { s with frm := { s.frm with steer := s.frm.steer.filter fun (p : Nat × Nat) => !steerable (steerImage new p.1) s } }
  marqueeApply old s

/-- A FULL image in force (R57, R60, R66): every generation 1, nothing to roll back to; the Ledger's header records its identity, version and
build. -/
def fullApply (img : List Byte) (new : List Timber) (s : State) : State :=
  let s := fset R.FRM_IMAGE_VER_image_version (le img 0x10 4) (fset R.FRM_STATUS_state 2 s)
  let s := fset R.FRM_SIGNER_active_slot (le (sigBody img) 1 1) s
  let d := imgIdentity img
  let s := (List.range 12).foldl (fun s n => fset (R.FRM_DIGEST_digest n) (le d (4 * n) 4) s) s
  let s := (List.range 17).foldl (fun s r => rollbackPut r false (generationPut r 1 s)) s
  let s := { s with frm := { s.frm with prev := [], steer := [], past := [] } }
  let s := hdrWrite (fun h => { h with
    ident := d
    version := le img 0x10 4
    build := le img 0x30 16 }) s
  let s := (List.range 4).foldl (fun s b =>
    if bayState new b = 1 then fset (R.FLT_BAY_STATUS_state b) 2 s else s) s
  configApply new s

/-! ## Ends of operations (R65) -/

def frmOp (fn : Fn) (tag : Nat) (s : State) : Option FrmOp := tfind s.frm.ops (lopKey fn tag)

def frmPut (fn : Fn) (tag : Nat) (o : FrmOp) (s : State) : State :=
  { s with frm := { s.frm with ops := tset s.frm.ops (lopKey fn tag) o } }

/-- An operation's staging and key let go (R51); a load that has not ended in force leaves NO_IMAGE, also where one before it is in force by
then (log entry 158). -/
def frmDrop (fn : Fn) (tag : Nat) (s : State) : State :=
  let s := match frmOp fn tag s with
    | some o => if o.kind = 0 && fget R.FRM_STATUS_state s = 1 then fset R.FRM_STATUS_state 3 s else s
    | none => s
  frmSync { s with
    frm := { s.frm with ops := terase s.frm.ops (lopKey fn tag) }
    key := { s.key with kr0 := terase s.key.kr0 (lopKey fn tag) } }

/-- FRM_ERR of a failure. -/
def frmErr (scope reason timber : Nat) (s : State) : State :=
  let r := scopeRing scope
  let s := fset R.FRM_ERR_code reason (fset R.FRM_ERR_timber timber (fset R.FRM_ERR_valid 1 s))
  fset R.FRM_ERR_ring (r.getD 0) (fset R.FRM_ERR_ring_valid (b2n r.isSome) s)

/-- An operation ended FAILED. -/
def frmFail (fn : Fn) (tag reason timber : Nat) (s : State) : State :=
  match frmOp fn tag s with
  | none => s
  | some o =>
    let s := cinc 0x40308 (frmErr o.scope reason timber s)
    let s := raiseTo fn (ev EV_FRAMING_FAILED 0 (scopeRing o.scope) 5 tag (reason + timber * 256 + 6 * 65536) s) s
    lopEnd fn tag .failed stFailed reason 0 false 0 0 (frmDrop fn tag s)

/-- An operation ended CANCELLED. -/
def frmCancel (fn : Fn) (tag : Nat) (s : State) : State :=
  lopEnd fn tag .cancelled stCancelled 0 0 false 0 0 (frmDrop fn tag (cinc 0x40320 s))

/-- An operation applied at `a`. -/
def frmDone (fn : Fn) (tag a gen lateness : Nat) (s : State) : State :=
  match frmOp fn tag s with
  | none => s
  | some o =>
    let late := decide (0 < lateness)
    let s := cinc 0x40300 (fset R.FRM_APPLY_STAMP_stamp a s)
    let s := if late then cadd 0x40318 lateness (cinc 0x40310 s) else s
    let e := ev EV_FRAMING_APPLIED 0 (scopeRing o.scope) 5 tag (gen + b2n late * 2 ^ 24 + o.kind * 2 ^ 25 + lateness % 2 ^ 32 * 2 ^ 32) s
    let s := raiseTo fn { e with stamp := a } s
    lopEnd fn tag .done stOk 0 gen late lateness a (frmDrop fn tag s)

/-- A safe point reached (R88): a pending suspend or cancel takes effect. -/
def lopSafe (fn : Fn) (tag : Nat) (cancel : State → State) (s : State) : State :=
  match lopFind fn tag s with
  | none => s
  | some l =>
    match l.st with
    | .suspending => lopMove fn tag .suspended s
    | .cancelling => cancel s
    | _ => s

/-- A framing operation's safe point. -/
def frmSafe (fn : Fn) (tag : Nat) (s : State) : State := lopSafe fn tag (frmCancel fn tag) s

/-! ## Intake (R58, R59, R66) -/

/-- Whether [a, a + n) lies wholly in the regions of an owner. -/
def inOwned (fuel owner a n : Nat) (s : State) : Bool :=
  match fuel with
  | 0 => n = 0
  | f + 1 =>
    if n = 0 then true
    else match (regions s).find? fun g => decide (g.owner = owner) && decide (g.base ≤ a) && decide (a < g.base + g.size) with
      | none => false
      | some g =>
        let k := min n (g.base + g.size - a)
        inOwned f owner (a + k) (n - k) s

/-- What completes FRAMING_LOAD (`load`) or FRAMING_DELTA at intake. A delta is taken only while an image is ACTIVE: BAD_STATE in NO_IMAGE
(R58), and in RESET and LOADING too (log entry 157). -/
def imageIntake (load : Bool) (c : Cmd) (s : State) : Option Rsp :=
  let a := carg c 0x18 8
  let n := carg c 0x20 4
  let sp := carg c 0x24 1
  let st := fget R.FRM_STATUS_state s
  if c.target ≠ 0 || a % 64 ≠ 0 || !within 128 maxImage n || 1 < sp || !czero c 0x25 then some (rspErr stBadArg)
  else if load then
    if st ≠ 3 then some (rspErr stBadState) else if sp = 1 then some (rspErr stBadArg) else none
  else if st ≠ 2 then some (rspErr stBadState)
  else if sp = 1 && !inOwned ((regions s).length + 1) (match c.fn with | .pf => 0xF1 | .vf r => r) a n s then some (rspErr stNotOwned)
  else none

/-- The scope that FRAMING_ROLLBACK names. -/
def rollScope (c : Cmd) : Nat := if carg c 0x18 1 = 0xFF then devScope else carg c 0x18 1

/-- A VF may roll back its own Ring alone (R66). -/
def rollMine (c : Cmd) : Bool :=
  match c.fn with
  | .pf => true
  | .vf r => decide (rollScope c = r)

/-- What completes FRAMING_ROLLBACK at intake; the states as for a delta (log entry 157). -/
def rollIntake (c : Cmd) (s : State) : Option Rsp :=
  let sel := carg c 0x18 1
  let sc := rollScope c
  if c.target ≠ 0 || !czero c 0x19 || (15 < sel && sel ≠ 0xFF) then some (rspErr stBadArg)
  else if fget R.FRM_STATUS_state s ≠ 2 then some (rspErr stBadState)
  else if !rollMine c then none
  else if !rollbackOk sc s || s.frm.ops.any fun p => decide (p.2.scope = sc) then some (rspErr stBadState)
  else none

/-- Image bytes as an operation reads them. -/
def imgRead (o : FrmOp) (a n : Nat) (s : State) : List Byte := if o.space = 1 then dramRead a n s else hostRead a n s

def imgReach (o : FrmOp) (a n : Nat) (s : State) : Bool := o.space = 1 || hostOk a n s

/-- The scope that an image's header names: the Ring of a RING_DELTA, else the device. -/
def imgScope (img : List Byte) : Nat := if imgKind img = 1 && imgRing img < 16 then imgRing img else devScope

/-- The read-ahead of a queued operation (R61): header and timber table; the first failure ends it. -/
def readAhead (fn : Fn) (tag : Nat) (o : FrmOp) (s : State) : State :=
  if !imgReach o o.addr 128 s then frmFail fn tag frFetchErr 0xFF s
  else
    let n := min o.length (entryPos (min 256 (le (imgRead o o.addr 128 s) 0x28 4)))
    if !imgReach o o.addr n s then frmFail fn tag frFetchErr 0xFF s
    else
      let t := imgRead o o.addr n s
      let s := frmPut fn tag { o with
        need := imgNeed t
        scope := imgScope t } s
      let r := headerCheck t false (o.kind = 0) o.length
      if r ≠ 0 then frmFail fn tag r 0xFF s
      else if stagingSize s < imgNeed t then frmFail fn tag frTooLarge 0xFF s
      else s

/-- A load or delta begun: its record, and the read-ahead. -/
def imageBegin (kind : Nat) (c : Cmd) (s : State) : State :=
  let o : FrmOp := ⟨kind, devScope, carg c 0x18 8, carg c 0x20 4, carg c 0x24 1, .fetch, [], 0, 0, [], 0, 0, 0, 0⟩
  readAhead c.fn c.tag o (frmPut c.fn c.tag o s)

/-- A rollback begun. -/
def rollBegin (c : Cmd) (s : State) : State :=
  let sc := rollScope c
  let o : FrmOp := ⟨2, sc, 0, 0, 0, .check, [], 0, 0, [], c.effectStamp, generation sc s, 0, 0⟩
  let s := frmPut c.fn c.tag o s
  if rollMine c then s else frmFail c.fn c.tag frScope 0xFF s

/-! ## Phases -/

/-- Operations between the start of FETCH and the end of APPLY. -/
def frmStarted (s : State) : List FrmOp :=
  (s.frm.ops.filter fun p => match tfind s.hif.lops p.1 with
    | some l => l.started
    | none => false).map (·.2)

/-- Whether a queued operation may leave QUEUED (R61). -/
def mayDequeue (l : Lop) (o : FrmOp) (s : State) : Bool :=
  let live := frmStarted s
  !(s.frm.ops.any fun p => match tfind s.hif.lops p.1 with
      | some m => decide (m.st = .queued) && decide (m.arrival < l.arrival)
      | none => false)
    && decide ((live.filter fun q => decide (q.scope = o.scope)).length < 4)
    && decide (o.need + (live.map (·.need)).foldl (· + ·) 0 ≤ stagingSize s)

/-- A queued operation begins its first phase. A load shows LOADING, also where one before it is in force by then (log entry 158). -/
def frmDequeue (fn : Fn) (tag : Nat) (s : State) : State :=
  match lopFind fn tag s, frmOp fn tag s with
  | some l, some o =>
    if l.st = .queued && mayDequeue l o s then
      let s := lopBegin fn tag s
      if o.kind = 0 then fset R.FRM_STATUS_state 1 s else s
    else s
  | _, _ => s

/-- An operation that runs in a phase. -/
def frmIn (fn : Fn) (tag : Nat) (ph : FrmPhase) (s : State) : Option FrmOp :=
  match lopFind fn tag s, frmOp fn tag s with
  | some l, some o => if lopActive l && o.phase = ph then some o else none
  | _, _ => none

/-- The bytes of a chunk (R65). -/
def chunk : Nat := 65536

/-- One chunk fetched; from host memory it waits while the link is down (R72). -/
def frmFetch (fn : Fn) (tag : Nat) (s : State) : State :=
  match frmIn fn tag .fetch s with
  | none => s
  | some o =>
    let n := min chunk (o.length - o.img.length)
    let a := o.addr + o.img.length
    if o.space ≠ 1 && !s.mem.linkUp then s
    else if !imgReach o a n s then frmFail fn tag frFetchErr 0xFF s
    else
      let img := o.img ++ imgRead o a n s
      frmSafe fn tag (frmPut fn tag { o with
        img := img
        phase := if img.length = o.length then .sign else .fetch } s)

/-- Header checks, signature, digests and unwrap done. -/
def frmSign (fn : Fn) (tag : Nat) (s : State) : State :=
  match frmIn fn tag .sign s with
  | none => s
  | some o =>
    match signPhase o.img (decide (o.kind = 0)) o.length s with
    | .error (r, t) => frmFail fn tag r t s
    | .ok k =>
      let s := { s with key := { s.key with kr0 := tset s.key.kr0 (lopKey fn tag) k } }
      frmSafe fn tag (frmPut fn tag { o with
        phase := if (encEntries o.img).isEmpty then .check else .pass1 } s)

/-- The timber key in the Ringmaster's private register (R51); a register that was zeroised holds zeros. -/
def timberKey (fn : Fn) (tag : Nat) (s : State) : List Nat := (tfind s.key.kr0 (lopKey fn tag)).getD (List.replicate 32 0)

/-- One timber of pass 1 done: a verify-only request (R134). -/
def frmPass1 (fn : Fn) (tag : Nat) (s : State) : State :=
  match frmIn fn tag .pass1 s with
  | none => s
  | some o =>
    match (encEntries o.img)[o.next]? with
    | none => s
    | some (i, e) =>
      let s := verifyOnly s
      if !tagOk o.img (timberKey fn tag s) e then frmFail fn tag frTagFail i s
      else
        let last := decide (o.next + 1 = (encEntries o.img).length)
        frmSafe fn tag (frmPut fn tag { o with
          next := if last then 0 else o.next + 1
          phase := if last then .pass2 else .pass1 } s)

/-- One timber of pass 2 done: the tag computed again, the plain body in staging. `hit` says that what the pass read does not match, as an
error of the path between the passes leaves it; then the bodies already decrypted are let go with the operation (R54). -/
def frmPass2 (fn : Fn) (tag : Nat) (hit : Bool) (s : State) : State :=
  match frmIn fn tag .pass2 s with
  | none => s
  | some o =>
    match (encEntries o.img)[o.next]? with
    | none => s
    | some (i, e) =>
      if hit || !tagOk o.img (timberKey fn tag s) e then frmFail fn tag frTagFail2 i s
      else
        let last := decide (o.next + 1 = (encEntries o.img).length)
        frmSafe fn tag (frmPut fn tag { o with
          plain := tset o.plain i (plainOf o.img (timberKey fn tag s) e)
          next := o.next + 1
          phase := if last then .check else .pass2 } s)

/-- The group in which an operation activates (R64): device deltas, Ring deltas, rollbacks. -/
def frmGroup (o : FrmOp) : Nat := if o.kind = 2 then 2 else if o.scope = devScope then 0 else 1

/-- The boundary an operation takes effect at, ready or armed now (R63). -/
def frmEff (o : FrmOp) (s : State) : Nat :=
  let n := stampAdd s.clk.stamp 1
  if o.act = 0 || stampGe n o.act then n else o.act

/-- The Rings whose generation a delta advances (R60). -/
def touchedRings (o : FrmOp) : List Nat :=
  if o.kind = 2 then [] else if imgKind o.img = 1 then [imgRing o.img]
  else (((entries o.img).filter fun p => decide (p.2.scope = 1) && decide (p.2.type ≠ tyWrap) && decide (p.2.type ≠ tySig)).map
    fun p => p.2.ring).eraseDups

/-- Whether an operation comes before another at one boundary: by group and Ring (R64), in one scope by stamp (R61; an activation stamp of 0
stands for the boundary after it was ready), then as they were armed. -/
def frmBefore (p q : FrmOp) : Bool :=
  let x := frmGroup p
  let y := frmGroup q
  decide (x < y) || (decide (x = y) && (decide (p.scope < q.scope) || (decide (p.scope = q.scope) &&
    (stampAfter q.due p.due || (decide (q.due = p.due) && decide (p.seq < q.seq))))))

/-- An operation as it is armed: its place in the order of the armed ones. -/
def frmPlaced (o : FrmOp) (s : State) : FrmOp :=
  { o with
    due := if o.act = 0 then frmEff o s else o.act
    seq := ((armedOps s).map fun p => p.2.seq).foldl max 0 + 1 }

/-- The generation a scope will have when an operation activates, armed operations before it counted (R60). -/
def baseAhead (o : FrmOp) (s : State) : Nat :=
  let e := frmEff o s
  let before := (armedOps s).filter fun p =>
    let f := frmEff p.2 s
    (decide (p.2.scope = o.scope) || (touchedRings p.2).contains o.scope) && (stampAfter e f || (decide (e = f) && frmBefore p.2 o))
  (generation o.scope s + before.length) % 2 ^ 24

/-- The timbers of a scope. -/
def scopeTimbers (scope : Nat) (l : List Timber) : List Timber :=
  l.filter fun t => if scope = devScope then decide (t.scope = 0) else decide (t.scope = 1) && decide (t.ring = scope)

/-- The structure that a rollback gives, where it passes the merged checks. -/
def rolled (scope : Nat) (s : State) : Except (Nat × Nat) (List Timber) :=
  let keep := s.frm.timbers.filter fun t => !(scopeTimbers scope [t] == [t])
  let m := keep ++ tget [] s.frm.prev scope
  if mergedOk m then .ok m else .error (frCheckFail, 0xFF)

/-- An operation armed (R60, R61). -/
def frmArm (fn : Fn) (tag : Nat) (o : FrmOp) (s : State) : State :=
  let o := frmPlaced o s
  let bad := if o.kind = 2 then decide (generation o.scope s ≠ o.base) || !rollbackOk o.scope s else decide (baseAhead o s ≠ o.base)
  if bad then frmFail fn tag frBaseMismatch 0xFF s
  else if o.act ≠ 0 && (armedOps s).any fun p => decide (p.2.scope = o.scope) && decide (p.2.act = o.act) then
    frmFail fn tag frStampConflict 0xFF s
  else frmSafe fn tag (frmSync (frmPut fn tag { o with phase := .armed } s))

/-- Whether an operation runs, with neither a suspend nor a cancel pending. -/
def lopRuns (fn : Fn) (tag : Nat) (s : State) : Bool := decide ((lopFind fn tag s).map (·.st) = some .running)

/-- The consistency checks done: at the safe point of CHECK's end (R65) a load is put in force, a delta or rollback armed. A load suspended
there is checked again when it is resumed. -/
def frmCheckDone (fn : Fn) (tag : Nat) (s : State) : State :=
  match frmIn fn tag .check s with
  | none => s
  | some o =>
    if o.kind = 2 then
      match rolled o.scope s with
      | .error (r, t) => frmFail fn tag r t s
      | .ok m => if allotOk m s then frmArm fn tag o s else frmFail fn tag frAllotInUse 0xFF s
    else match imageCheck o.img o.plain fn s with
      | .error (r, t) => frmFail fn tag r t s
      | .ok m =>
        if o.kind = 0 then
          if !lopRuns fn tag s then frmSafe fn tag s
          else
          let s := fset R.PWR_STATUS_phase phClocks (fullApply o.img m s)
          frmDone fn tag s.clk.stamp 1 0 s
        else frmArm fn tag { o with
          act := le o.img 0x18 8
          base := le o.img 0x20 4 } s

/-! ## Activation (R62 to R64, R66) -/

/-- The structure in force kept beside its successor's boundary `b`, for the items stamped before it (R62); none lives 256 blocks. -/
def pastKeep (b : Nat) (s : State) : State :=
  { s with frm := { s.frm with past := (s.frm.past.filter fun p => decide (stampSub b p.1 < 256)) ++ [(b, s.frm.timbers)] } }

/-- A due operation applied at boundary `b`, or failed. -/
def frmActivate (b : Nat) (fn : Fn) (tag : Nat) (o : FrmOp) (s : State) : State :=
  let baseOk := decide (generation o.scope s = o.base) && (o.kind ≠ 2 || rollbackOk o.scope s)
  let m := if o.kind = 2 then rolled o.scope s
    else match checkFail o.img o.plain s.frm.timbers with
      | .error i => .error (frCheckFail, i)
      | .ok m => .ok m
  match m with
  | .error (r, t) => frmFail fn tag r t s
  | .ok m =>
    if !baseOk then frmFail fn tag frBaseMismatch 0xFF s
    else if !allotOk m s then frmFail fn tag frAllotInUse 0xFF s
    else
      let g := (o.base + 1) % 2 ^ 24
      let s := pastKeep b s
      let s := if o.kind = 2 then
          rollbackPut o.scope false { s with frm := { s.frm with prev := terase s.frm.prev o.scope } }
        else
          let s := rollbackPut o.scope true { s with frm := { s.frm with
            prev := tset s.frm.prev o.scope (scopeTimbers o.scope s.frm.timbers) } }
          if o.scope = devScope then
            (touchedRings o).foldl (fun s r => rollbackPut r false (generationPut r ((generation r s + 1) % 2 ^ 24) s)) s
          else s
      let s := generationPut o.scope g (configApply m s)
      let s := traceConfig 0x1180 (scopeRing o.scope) 0 0 b ((if o.scope = devScope then 0xFF else o.scope) + g * 256) s
      frmDone fn tag b g (if o.act ≠ 0 && stampAfter b o.act then stampSub b o.act else 0) s

/-- The armed operations in the order of R64 and R61. -/
def armedOrder (s : State) : List (Nat × FrmOp) := sortBy (fun p q => frmBefore p.2 q.2) (armedOps s)

/-- The framing work of a boundary `b`: pending suspends and cancels of armed operations, then what is due. -/
def frmBoundary (b : Nat) (s : State) : State :=
  let s := (armedOps s).foldl (fun s p => match tfind s.hif.lops p.1 with
    | some l => frmSafe l.fn l.tag s
    | none => s) s
  (armedOrder s).foldl (fun s p =>
    match tfind s.hif.lops p.1, tfind s.frm.ops p.1 with
    | some l, some o => if l.st = .running && (o.act = 0 || stampGe b o.act) then frmActivate b l.fn l.tag o s else s
    | _, _ => s) s

/-! ## Rows -/

/-- A queued framing operation leaves QUEUED where R61 allows. -/
def execFramingDequeue (fn : Fn) (tag : Nat) (s : State) : Out := .next (frmDequeue fn tag s)

/-- A chunk of the image arrives. -/
def execFramingFetchChunk (fn : Fn) (tag : Nat) (s : State) : Out := .next (frmFetch fn tag s)

/-- SIGN ends. -/
def execFramingSignDone (fn : Fn) (tag : Nat) (s : State) : Out := .next (frmSign fn tag s)

/-- A timber of PASS1 ends. -/
def execFramingPass1Timber (fn : Fn) (tag : Nat) (s : State) : Out := .next (frmPass1 fn tag s)

/-- A timber of PASS2 ends. -/
def execFramingPass2Timber (fn : Fn) (tag : Pass2) (s : State) : Out := .next (frmPass2 fn tag.tag tag.hit s)

/-- CHECK ends. -/
def execFramingCheckDone (fn : Fn) (tag : Nat) (s : State) : Out := .next (frmCheckDone fn tag s)

/-- A write of FRM_SIGNER's revoked bits `v`: refused and counted where it names the slot that signed the image in effect or leaves no slot
unrevoked; otherwise permanent (R70). -/
def execFrmSignerRevoke (v : Nat) (s : State) : Out :=
  let old := fget R.FRM_SIGNER_revoked s
  let want := (List.range 4).filter fun k => bit v k && !bit old k
  let left := (List.range 4).filter fun k => bit (fget R.FRM_SIGNER_provisioned s) k && !bit old k && !want.contains k
  .next (if want.isEmpty then s
    else if (fget R.FRM_STATUS_state s = 2 && want.contains (fget R.FRM_SIGNER_active_slot s)) || left.isEmpty then cinc 0x40308 s
    else fset R.FRM_SIGNER_revoked (want.foldl (fun o k => o + 2 ^ k) old) s)

end Sys2Proof.Machine
end

