-- ==== Sys2Proof/Machine/Export.lean ====
section
/-! DEFINITION. REWIND_EXPORT (R321). -/
namespace Sys2Proof.Machine

/-- What completes REWIND_EXPORT at intake. -/
def expIntake (c : Cmd) (s : State) : Option Rsp :=
  match idRefused c 2 streamLimit c.target s with
  | some r => some r
  | none =>
    if carg c 0x18 8 % 64 ≠ 0 || 1 < carg c 0x24 1 || 3 < carg c 0x25 1 || 1 < carg c 0x26 1 || 3 < carg c 0x27 1 || !czero c 0x2C then
      some (rspErr stBadArg)
    else if (tfind s.egr.rings c.target).isNone then some (rspErr stBadState)
    else none

/-- The entry of a number that a ring still holds. -/
def rwHeld (r : Rewind) (q : Nat) : Option RwEntry :=
  match tfind r.ents (q % 2 ^ r.log2) with
  | some e => if e.seq = q then some e else none
  | none => none

/-- The oldest number a ring holds. -/
def rwOldest (r : Rewind) : Nat := (r.ents.map fun p => p.2.seq).foldl min (r.top.getD 0)

/-- A record's bytes. -/
def expRecord (r : Rewind) (e : RwEntry) : List Byte :=
  let n := e.packet.length
  leBytes 2 n ++ leBytes 2 (b2n (r.marks.any fun m => decide (m.2 = e.seq))) ++ leBytes 4 e.seq ++ leBytes 8 e.block
    ++ padTo 0 ((n + 7) / 8 * 8) (ofNats e.packet)

/-- The first and the last number of an export as it starts, none where a mark or number is lost. -/
def expRange (c : Cmd) (r : Rewind) : Option (Nat × Nat) :=
  let a := if carg c 0x24 1 = 0 then tfind r.marks (carg c 0x25 1)
    else (rwHeld r (carg c 0x28 4)).map (·.seq)
  let b := if carg c 0x26 1 = 0 then some (r.top.getD 0) else tfind r.marks (carg c 0x27 1)
  match a, b with
  | some x, some y => some (x, y)
  | _, _ => none

/-- An export ended with a count. -/
def expEnd (fn : Fn) (tag : Nat) (st : LopSt) (status reason : Nat) (e : Exp) (s : State) : State :=
  lopEnd fn tag st status reason (e.first % 2 ^ 32 + e.count % 2 ^ 32 * 2 ^ 32) false 0 0
    { s with egr := { s.egr with exps := terase s.egr.exps (lopKey fn tag) } }

def expPut (fn : Fn) (tag : Nat) (e : Exp) (s : State) : State := { s with egr := { s.egr with exps := tset s.egr.exps (lopKey fn tag) e } }

/-- Records written until a 64 KiB part is full, the export is over, or something ends it; it waits while the link is down (R72). -/
def expRun (fuel : Nat) (fn : Fn) (tag : Nat) (c : Cmd) (part : Nat) (e : Exp) (s : State) : State :=
  match fuel with
  | 0 => expPut fn tag e s
  | f + 1 =>
    match tfind s.egr.rings c.target with
    | none => expEnd fn tag .failed stFailed 3 e s
    | some r =>
      if e.last < e.next || r.top.isNone then expEnd fn tag .done stOk 0 e s
      else match rwHeld r e.next with
        | none => expEnd fn tag .failed stFailed 3 e s
        | some x =>
          let b := expRecord r x
          let a := carg c 0x18 8 + e.used
          if carg c 0x20 4 < e.used + b.length then expEnd fn tag .done stOk 2 e s
          else if !s.mem.linkUp then expPut fn tag e s
          else if !hostOk a b.length s then expEnd fn tag .failed stFailed 5 e s
          else
            let e := { e with
              next := e.next + 1
              used := e.used + b.length
              count := e.count + 1 }
            let s := hostWrite a b s
            if chunk ≤ part + b.length then lopSafe fn tag (expEnd fn tag .cancelled stCancelled 0 e) (expPut fn tag e s)
            else expRun f fn tag c (part + b.length) e s

/-- One part of an export; the first part starts it. -/
def expChunk (fn : Fn) (tag : Nat) (s : State) : State :=
  match lopFind fn tag s with
  | none => s
  | some l =>
    if l.opcode ≠ 0x39 then s
    else
      let s := lopBegin fn tag s
      if l.st ≠ .queued && !lopActive l then s
      else match tfind s.egr.exps (lopKey fn tag) with
        | some e => expRun 65536 fn tag l.cmd 0 e s
        | none =>
          match tfind s.egr.rings l.cmd.target with
          | none => expEnd fn tag .failed stFailed 1 ⟨0, 0, 0, 0, 0⟩ s
          | some r =>
            match expRange l.cmd r with
            | none => expEnd fn tag .failed stFailed 1 ⟨0, 0, 0, 0, rwOldest r⟩ s
            | some (x, y) => expRun 65536 fn tag l.cmd 0 ⟨x, y, 0, 0, x⟩ s

/-- REWIND_EXPORT_CHUNK. -/
def execRewindExportChunk (fn : Fn) (tag : Nat) (s : State) : Out := .next (expChunk fn tag s)

/-- What a cancel leaves of an export: the part written, with its count. -/
def expCancel (fn : Fn) (tag : Nat) (s : State) : State :=
  expEnd fn tag .cancelled stCancelled 0 (tget ⟨0, 0, 0, 0, 0⟩ s.egr.exps (lopKey fn tag)) s

end Sys2Proof.Machine
end

