-- ==== Sys2Proof/Machine/FwSwap.lean ====
section
/-! DEFINITION. The tile firmware swap (R276, R277). -/
namespace Sys2Proof.Machine

/-- The phases of a swap: FETCH, VERIFY, LOAD, ARMED. -/
def fwFetch : Nat := 0
def fwVerify : Nat := 1
def fwLoad : Nat := 2
def fwArmed : Nat := 3

/-- A tile's banks exchanged: the standby version runs. -/
def fwFlip (t : Nat) (s : State) : State :=
  let a := fget (R.VCT_TILE_FW_ACTIVE_version t) s
  let b := fget (R.VCT_TILE_FW_STANDBY_version t) s
  fset (R.VCT_TILE_STATUS_fw_bank t) (1 - fget (R.VCT_TILE_STATUS_fw_bank t) s)
    (fset (R.VCT_TILE_FW_ACTIVE_version t) b (fset (R.VCT_TILE_FW_STANDBY_version t) a s))

/-- What completes TILE_FW_SWAP at intake. -/
def fwIntake (c : Cmd) (_s : State) : Option Rsp :=
  if c.target ≠ 0 || carg c 0x18 8 % 4096 ≠ 0 || !within 328 (4 * 2 ^ 20 + 328) (carg c 0x20 4) || !czero c 0x24 then some (rspErr stBadArg)
  else none

/-- The checks of a package (R276): 0 where all pass, else a code of R69. -/
def fwCheck (magic maxCode : Nat) (p : List Byte) (s : State) : Nat :=
  let n := le p 0x10 4
  let sg := p.drop (128 + n)
  if !(le p 0 4 = magic && le p 4 2 = 0x0100) then frBadHeader
  else if le p 6 2 ≠ 0x1640 || stepping < le p 8 1 then frWrongPart
  else if !(le p 9 3 = 0 && le p 0x0C 4 ≠ 0 && n % 16 = 0 && decide (n ≤ maxCode) && allZero (slice p 0x14 44) && allZero (slice p 0x70 16)
      && p.length = n + 328) then frBadHeader
  else if !(le sg 0 1 = 0 && otpAccepts (le sg 1 1) (sha384 (slice sg 4 97)) s && sigVerify sg (p.take 128)) then frSigFail
  else if sha384 ((p.drop 128).take n) ≠ slice p 0x40 48 then frDigestFail
  else 0

/-- The magic of a tile package and its largest code. -/
def fwTileMagic : Nat := 0x4654515A
def fwTileMax : Nat := 4 * 2 ^ 20

/-- A swap ended without taking effect. -/
def fwEnd (fn : Fn) (tag : Nat) (st : LopSt) (status reason : Nat) (s : State) : State :=
  lopEnd fn tag st status reason 0 false 0 0 { s with vid := { s.vid with fw := terase s.vid.fw (lopKey fn tag) } }

/-- A swap's safe point, which stands between tiles (R89). -/
def fwSafe (fn : Fn) (tag : Nat) (s : State) : State := lopSafe fn tag (fwEnd fn tag .cancelled stCancelled 0) s

/-- The tiles a swap still has to load from tile `t` up: not retired, of a Bay in service, without the version in the standby bank. -/
def fwTiles (t version : Nat) (s : State) : List Nat :=
  (List.range 68).filter fun u => decide (t ≤ u) && decide (fget (R.VCT_TILE_STATUS_state u) s ≠ 2) && bayIn (u / 17) s &&
    decide (fget (R.VCT_TILE_FW_STANDBY_version u) s ≠ version)

def fwPut (fn : Fn) (tag : Nat) (o : FwOp) (s : State) : State := { s with vid := { s.vid with fw := tset s.vid.fw (lopKey fn tag) o } }

/-- LOAD goes to its next tile, or the swap is armed. -/
def fwNext (fn : Fn) (tag : Nat) (o : FwOp) (s : State) : State :=
  match fwTiles o.next o.version s with
  | [] => fwPut fn tag { o with phase := fwArmed } s
  | t :: _ => fwPut fn tag { o with phase := fwLoad, next := t } s

/-- A phase of a swap done, or the load of one tile. -/
def fwPhase (fn : Fn) (tag : Nat) (ok : Bool) (s : State) : State :=
  match lopFind fn tag s with
  | none => s
  | some l =>
    if l.opcode ≠ 0x54 then s
    else
      let s := if l.st = .queued then lopBegin fn tag s else s
      match lopFind fn tag s with
      | none => s
      | some l =>
        if !lopActive l then s
        else
          let o := tget ⟨fwFetch, [], 0, 0⟩ s.vid.fw (lopKey fn tag)
          let a := carg l.cmd 0x18 8
          let n := carg l.cmd 0x20 4
          if o.phase = fwFetch then
            if !s.mem.linkUp then s
            else if !ok || !hostOk a n s then fwEnd fn tag .failed stFailed frFetchErr s
            else fwPut fn tag { o with img := hostRead a n s, phase := fwVerify } s
          else if o.phase = fwVerify then
            let r := fwCheck fwTileMagic fwTileMax o.img s
            if r ≠ 0 then fwEnd fn tag .failed stFailed r s
            else fwSafe fn tag (fwNext fn tag { o with version := le o.img 0x0C 4 } s)
          else if o.phase = fwLoad then
            let s := fset (R.VCT_TILE_FW_STANDBY_version o.next) o.version s
            fwSafe fn tag (fwNext fn tag { o with next := o.next + 1 } s)
          else s

/-- FW_SWAP_PHASE_DONE. -/
def execFwSwapPhaseDone (fn : Fn) (tag : Nat) (ok : Bool) (s : State) : Out := .next (fwPhase fn tag ok s)

/-- A swap applied at boundary `a`: every tile that holds the version in its standby bank changes banks. -/
def fwApply (a : Nat) (fn : Fn) (tag : Nat) (o : FwOp) (act : Nat) (s : State) : State :=
  let s := (List.range 68).foldl (fun s t =>
    if fget (R.VCT_TILE_FW_STANDBY_version t) s = o.version && fget (R.VCT_TILE_STATUS_state t) s ≠ 2 then fwFlip t s else s) s
  let s := traceConfig 0x1183 none 0 0 a o.version s
  let s := raiseUnit EV_FW_APPLIED 0 (o.version + a % 2 ^ 32 * 2 ^ 32) s
  let late := decide (act ≠ 0) && stampAfter a act
  lopEnd fn tag .done stOk 0 0 late (if late then stampSub a act else 0) a
    { s with vid := { s.vid with fw := terase s.vid.fw (lopKey fn tag) } }

/-- Swaps that are armed and due at boundary `b`. -/
def fwBoundary (b : Nat) (s : State) : State :=
  s.vid.fw.foldl (fun s p =>
    match tfind s.hif.lops p.1 with
    | some l =>
      if p.2.phase ≠ fwArmed then s
      else if l.st = .running && (l.cmd.effectStamp = 0 || stampGe b l.cmd.effectStamp) then fwApply b l.fn l.tag p.2 l.cmd.effectStamp s
      else fwSafe l.fn l.tag s
    | none => s) s

/-- The tiles of a returning Bay loaded (R277): with the version that tiles in service run, and in the standby bank with that of each swap that
loads or is armed. Retired tiles are not loaded. -/
def fwReturn (bay : Nat) (s : State) : State :=
  let ts := (bayTiles bay).filter fun u => decide (fget (R.VCT_TILE_STATUS_state u) s ≠ 2)
  let s := match (List.range 68).find? fun t => decide (t / 17 ≠ bay) && bayIn (t / 17) s && decide (fget (R.VCT_TILE_STATUS_state t) s = 0) with
    | none => s
    | some t =>
      let v := fget (R.VCT_TILE_FW_ACTIVE_version t) s
      ts.foldl (fun s u => if fget (R.VCT_TILE_FW_ACTIVE_version u) s = v then s
        else fwFlip u (fset (R.VCT_TILE_FW_STANDBY_version u) v s)) s
  s.vid.fw.foldl (fun s p => if p.2.phase < fwLoad then s
    else ts.foldl (fun s u => if fget (R.VCT_TILE_FW_ACTIVE_version u) s = p.2.version then s
      else fset (R.VCT_TILE_FW_STANDBY_version u) p.2.version s) s) s

end Sys2Proof.Machine
end

