-- ==== Sys2Proof/Machine/Tmb.lean ====
section
/-! DEFINITION. A Tumbler core by itself (spec/08_tumbler_dsp.md R205 to R222): registers and the slots at which writes are seen,
addressing, memories, saturation. -/
namespace Sys2Proof.Machine

/-! ## Writes in flight (R217, R218) -/

/-- Targets of a write in flight: an accumulator as readers outside the MAC format see it, the register mapping, control register n. -/
def tgAcc (k : Nat) : Nat := 32 + k
def tgMap : Nat := 34
def tgCr (n : Nat) : Nat := 64 + n

/-- Writes in flight to a target that the write made now overrides: the later instruction's remains where both take effect together. -/
def Core.settle (tgt : Nat) (k : Core) : Core :=
  { k with pend := k.pend.filter fun w => !(decide (w.tgt = tgt) && decide (w.due ≤ k.issued + 1)) }

/-- A control register set, as a landed write to it acts: a length that is not 0 is staged (R211), SR keeps its mode bit, a number without
a register or a read-only one takes nothing. -/
def Core.crLand (n v : Nat) (k : Core) : Core :=
  let put := fun (n v : Nat) (k : Core) => { k with cr := tset k.cr n v }
  if n < 0x18 then put n (v % 65536) k
  else if n < 0x20 then
    if tget 0 k.cr n = 0 then put n (v % 65536) k else put (n + 0x18) (v % 65536 + 65536) k
  else if n = 0x22 then put n (tget 0 k.cr n / 2 * 2 + v % 2) k
  else if n = 0x23 then put n (v % 2 ^ 32) k
  else if 0x24 ≤ n && n ≤ 0x27 then (if bit (tget 0 k.cr 0x22) 1 then put n (v % 2 ^ 32) k else k)
  else if 0x30 ≤ n && n < 0x38 then put n (v % 2 ^ 17) k
  else k

/-- One write in flight made. -/
def Core.landOne (w : PendW) (k : Core) : Core :=
  if w.tgt < 32 then { k with g := tset k.g w.tgt (BitVec.ofNat 32 w.val) }
  else if w.tgt = 32 then { k with r0 := BitVec.ofNat 40 w.val }
  else if w.tgt = 33 then { k with r1 := BitVec.ofNat 40 w.val }
  else if w.tgt = 34 then { k with rb := w.val }
  else k.crLand (w.tgt - 64) w.val

/-- The writes due at the slot of the next instruction made, in the order of their instructions. -/
def Core.land (k : Core) : Core :=
  (k.pend.filter fun w => decide (w.due ≤ k.issued)).foldl (fun k w => k.landOne w)
    { k with pend := k.pend.filter fun w => !decide (w.due ≤ k.issued) }

/-- Every write in flight made, in the order in which they fall due. -/
def Core.landAll (k : Core) : Core :=
  (sortBy (fun (a b : PendW) => decide (a.due < b.due)) k.pend).foldl (fun k w => k.landOne w) { k with pend := [] }

/-- A write seen from the slot `t` after this instruction's. -/
def Core.later (t tgt v : Nat) (k : Core) : Core := { k with pend := k.pend ++ [⟨k.issued + t, tgt, v⟩] }

/-! ## Registers -/

/-- The physical register of logical Gn (R206). -/
def Core.phys (n : Nat) (k : Core) : Nat := if n < 16 then n else 16 + (n - 16 + k.rb) % 16

/-- Logical Gn read. -/
def Core.rd (n : Nat) (k : Core) : Word32 := tget 0 k.g (k.phys n)

/-- Logical Gn written, seen by the next instruction. -/
def Core.wr (n : Nat) (v : Word32) (k : Core) : Core := { k.settle (k.phys n) with g := tset k.g (k.phys n) v }

/-- Logical Gn written by a load: seen by the instruction after the next. -/
def Core.wrLoad (n : Nat) (v : Word32) (k : Core) : Core := k.later 2 (k.phys n) v.toNat

/-- An accumulator as the MAC format sees it, and as other readers do. -/
def Core.accMac (n : Nat) (k : Core) : Acc40 := if n = 0 then k.a0 else k.a1
def Core.accRd (n : Nat) (k : Core) : Acc40 := if n = 0 then k.r0 else k.r1

/-- An accumulator written by WRA, ADDA, SUBA or CLRA: seen by every next instruction. -/
def Core.wrAcc (n : Nat) (v : Acc40) (k : Core) : Core :=
  let k := k.settle (tgAcc n)
  if n = 0 then { k with a0 := v, r0 := v } else { k with a1 := v, r1 := v }

/-- An accumulator written by the MAC format: seen by the next MAC instruction and by the second next of any kind. -/
def Core.wrMac (n : Nat) (v : Acc40) (k : Core) : Core :=
  let k := k.later 2 (tgAcc n) v.toNat
  if n = 0 then { k with a0 := v } else { k with a1 := v }

/-- A control register as it stands. -/
def Core.c (n : Nat) (k : Core) : Nat := tget 0 k.cr n

/-- A control register set at once. -/
def Core.crSet (n v : Nat) (k : Core) : Core := { k with cr := tset k.cr n v }

/-- Handler mode. -/
def Core.hm (k : Core) : Bool := bit (k.c 0x22) 1

/-- SR.sv set; an MTC to SR that would land with it is the earlier write (R218). -/
def Core.sv (k : Core) : Core := (k.settle (tgCr 0x22)).crSet 0x22 (k.c 0x22 / 2 * 2 + 1)

/-! ## Arithmetic (R212) -/

/-- A result narrowed to 32 bits: wrapped, or clamped where S is set, a clamp that changes it setting SR.sv. -/
def Core.fit32 (s : Bool) (i : Int) (k : Core) : Word32 × Core :=
  if s then (BitVec.ofInt 32 (satS 32 i), if satS 32 i = i then k else k.sv) else (BitVec.ofInt 32 i, k)

/-- A result narrowed to 40 bits. -/
def Core.fit40 (s : Bool) (i : Int) (k : Core) : Acc40 × Core :=
  if s then (BitVec.ofInt 40 (satS 40 i), if satS 40 i = i then k else k.sv) else (BitVec.ofInt 40 i, k)

/-- The 14-bit immediate, sign-extended. -/
def imm14 (n : Nat) : Int := toS 14 n

/-- Leading zeros of a word. -/
def clz32 (v : Word32) : Nat := ((List.range 33).find? fun n => decide (v.toNat < 2 ^ (32 - n)) && !(decide (n < 32) &&
  decide (v.toNat < 2 ^ (31 - n)))).getD 32

/-! ## Address registers (R210, R211) -/

/-- Pn modified by `v`: within its circle where Ln is not 0, a staged length taken at the modification that wraps. -/
def Core.postMod (n : Nat) (v : Int) (k : Core) : Core :=
  let p := k.c n
  let b := k.c (0x10 + n)
  let l := k.c (0x18 + n)
  let lq := k.c (0x30 + n)
  let k := k.settle (tgCr n)
  if l = 0 then k.crSet n (ofS 16 ((p : Int) + v))
  else
    let t := (p : Int) + v
    let k := k.crSet n (ofS 16 ((b : Int) + (t - b) % (l : Int)))
    if (t < b || (b : Int) + l ≤ t) && decide (65536 ≤ lq) then (k.crSet (0x18 + n) (lq % 65536)).crSet (0x30 + n) 0 else k

/-! ## X and Y memory (R208) -/

/-- What one instruction comes to: it stalls, it faults with a cause of R227, or it goes on, perhaps towards the target of a branch. -/
inductive CoreRes
  | stall
  | fault (cause : Nat)
  | ok (k : Core)
  | jump (k : Core) (target : Nat)
  deriving DecidableEq, Repr

def cIllegal : Nat := 0x01
def cAlign : Nat := 0x02
def cAddr : Nat := 0x03
def cXferRange : Nat := 0x04
def cXferKind : Nat := 0x05
def cIssueLimit : Nat := 0x06
def cKfault : Nat := 0x07
def cStatus : Nat := 0x08
def cXferBlocked : Nat := 0x09
def cXferErr : Nat := 0x13

/-- A memory's word. -/
def Core.word (y : Bool) (a : Nat) (k : Core) : Word32 := tget 0 (if y then k.y else k.x) (a / 4)

/-- A memory's word set, its written flag with it. -/
def Core.wordSet (y : Bool) (a : Nat) (v : Word32) (k : Core) : Core :=
  if y then { k with y := tset k.y (a / 4) v } else { k with x := tset k.x (a / 4) v }

/-- The halfword at an even address. -/
def Core.half (y : Bool) (a : Nat) (k : Core) : Nat := (k.word y a).toNat / 2 ^ (8 * (a % 4)) % 65536

/-- The fault of an access of `n` bytes at an address: alignment, then range; the scratch of handler mode lies above X (R208). -/
def accessFault (y : Bool) (a n : Nat) (k : Core) : Option Nat :=
  if a % n ≠ 0 then some cAlign
  else if a < 0x4000 || (!y && k.hm && decide (a < 0x4100)) then none
  else some cAddr

/-- Two ranges that meet. -/
def meets (a n b m : Nat) : Bool := decide (a < b + m) && decide (b < a + n)

/-- Whether a load of `n` bytes stalls: an outstanding XRD writes there (R222). -/
def loadStalls (y : Bool) (a n : Nat) (k : Core) : Bool :=
  k.xfers.any fun t => t.read && decide (t.ymem = y) && decide (some t.handle = k.item) && meets a n t.laddr t.len

/-- Whether a store of `n` bytes stalls: an outstanding transfer writes there or still reads there (R222, R223). -/
def storeStalls (y : Bool) (a n : Nat) (k : Core) : Bool :=
  k.xfers.any fun t => decide (t.ymem = y) && meets a n t.laddr t.len && (!t.read || decide (some t.handle = k.item))

/-- The address of a load or store: Pn, or Pn + imm where Pn is not to be modified. -/
def memAddr (post : Bool) (p imm : Nat) (k : Core) : Nat := if post then k.c p else ofS 16 ((k.c p : Int) + imm14 imm)

/-- Pn after a load or store. -/
def memPost (post : Bool) (p imm : Nat) (k : Core) : Core := if post then k.postMod p (imm14 imm) else k

/-- A load of the immediate format: `n` bytes, and what they make of the word. -/
def loadOp (n : Nat) (ext : Nat → Word32) (d : Nat) (y post : Bool) (p imm : Nat) (k : Core) : CoreRes :=
  let a := memAddr post p imm k
  match accessFault y a n k with
  | some f => .fault f
  | none =>
    if loadStalls y a n k then .stall
    else .ok ((memPost post p imm k).wrLoad d (ext (if n = 4 then (k.word y a).toNat else k.half y a)))

/-- A store of the immediate format. -/
def storeOp (n : Nat) (d : Nat) (y post : Bool) (p imm : Nat) (k : Core) : CoreRes :=
  let a := memAddr post p imm k
  match accessFault y a n k with
  | some f => .fault f
  | none =>
    if storeStalls y a n k then .stall
    else
      let v := k.rd d
      let w := if n = 4 then v else BitVec.ofNat 32 (putBits (k.word y a).toNat (8 * (a % 4)) 16 v.toNat)
      .ok (memPost post p imm (k.wordSet y a w))

/-! ## The MAC format (R215) -/

/-- A parallel load's slot: X through P0 to P3, Y through P4 to P7; a destination of 0 loads nothing. The register modified and by what. -/
def slotMod (p : Nat) (m : Bool) (k : Core) : Int := if m then toS 16 (k.c (8 + p)) else 2

/-- What one slot's access comes to: a fault, a stall, or the halfword. -/
def slotLoad (y : Bool) (d p : Nat) (k : Core) : Except CoreRes Nat :=
  if d = 0 then .ok 0
  else match accessFault y (k.c p) 2 k with
    | some f => .error (.fault f)
    | none => if loadStalls y (k.c p) 2 k then .error .stall else .ok (k.half y (k.c p))

/-- The slot's address register modified, where it loads. -/
def slotP (k0 : Core) (d p : Nat) (m : Bool) (k : Core) : Core := if d = 0 then k else k.postMod p (slotMod p m k0)

/-- The parallel loads after the multiply: they land in order, the Y load's value remaining where both name one register. -/
def parLoads (xd xp : Nat) (xm : Bool) (yd yp : Nat) (ym : Bool) (k0 k : Core) : CoreRes :=
  match slotLoad false xd xp k0, slotLoad true yd (4 + yp) k0 with
  | .error e, _ => e
  | _, .error e => e
  | .ok vx, .ok vy =>
    let px := slotP k0 xd xp xm k
    let py := slotP k0 yd (4 + yp) ym px
    let k := if xd = 0 then py else py.wrLoad xd (BitVec.ofInt 32 (toS 16 vx))
    .ok (if yd = 0 then k else k.wrLoad yd (BitVec.ofInt 32 (toS 16 vy)))

/-- The product of the low halves. -/
def macProduct (a b : Nat) (k : Core) : Int := toS 16 (k.rd a).toNat * toS 16 (k.rd b).toNat

/-- MAC, MSU, MPY: `f` gives the exact result from the accumulator and the product. -/
def macOp (f : Int → Int → Int) (acc : Nat) (s : Bool) (a b xd xp : Nat) (xm : Bool) (yd yp : Nat) (ym : Bool) (k : Core) : CoreRes :=
  let r := k.fit40 s (f (k.accMac acc).toInt (macProduct a b k))
  parLoads xd xp xm yd yp ym k (r.2.wrMac acc r.1)

end Sys2Proof.Machine
end

