-- ==== Sys2Proof/Machine/TmbOps.lean ====
section
/-! DEFINITION. The Tumbler cores at work (spec/08_tumbler_dsp.md R206, R207, R221 to R229; 09_carousel.md R236, R239, R240): items on
cores, issue, transfers, faults, duties and spares, debug interrupts. -/
namespace Sys2Proof.Machine

/-! ## A kernel image (R230) -/

def imgEntry (img : List Byte) : Nat := le img 0x10 2
def imgDbgEntry (img : List Byte) : Nat := le img 0x12 2
def imgHandler (img : List Byte) : Bool := bit (le img 6 2) 0
def ptrKind (img : List Byte) (n : Nat) : Nat := le img (0x28 + 8 * n) 1
def ptrMax (img : List Byte) (n : Nat) : Nat := le img (0x2C + 8 * n) 4

/-- The image's code. -/
def imgCode (img : List Byte) : List Byte := slice img (le img 8 4) (le img 12 4)

/-- The copies of the image's initial data as transfers (R207): address, size and offset fields at 0x14 for X, at 0x1C for Y. -/
def initXfers (h : Nat) (img : List Byte) : List Xfer :=
  ([(false, 0x14), (true, 0x1C)].filter fun p => decide (0 < le img (p.2 + 2) 2)).map fun p =>
    ⟨h, true, true, imgEntry img, p.1, le img p.2 2, le img (p.2 + 2) 2, 0, slice img (le img (p.2 + 4) 4) (le img (p.2 + 2) 2)⟩

/-! ## Program memory (R205, R231) -/

/-- The kernels' pages of 1 KiB of program memory: all but the monitor's. -/
def codePages : Nat := 15

/-- Pages that kernels' code takes. -/
def pagesOf (l : List (List Byte)) : Nat := (l.map fun c => ceilDiv c.length 1024).foldl (· + ·) 0

/-- Program memory as kernels are evicted from it, the least recently dispatched first, until the rest fits. -/
def codeEvict (l : List (List Byte)) : List (List Byte) :=
  match l with
  | [] => []
  | c :: r => (List.range r.length).foldl (fun t _ => if pagesOf t ≤ codePages then t else t.dropLast) (c :: r)

/-- A kernel dispatched: its code resident and the latest; whether it had to be filled from the cluster's program store. -/
def codeDispatch (code : List Byte) (l : List (List Byte)) : Bool × List (List Byte) :=
  (!l.contains code, codeEvict (code :: l.filter fun c => decide (c ≠ code)))

/-- The instruction word at a program counter: four bytes of the running kernel's code, little-endian (R213); none where the code holds no
whole word there. -/
def Core.fetch (k : Core) : Option Nat :=
  match k.code with
  | [] => none
  | c :: _ => if 4 * k.pc + 4 ≤ c.length then some (le c (4 * k.pc) 4) else none

/-- The registers at an item's first instruction (R207). -/
def initRegs (d : ItemDesc) : Tbl Word32 :=
  [(0, BitVec.ofNat 32 d.subject), (1, BitVec.ofNat 32 d.stamp), (2, BitVec.ofNat 32 (d.stamp / 2 ^ 32)), (3, BitVec.ofNat 32 d.kernel),
    (4, BitVec.ofNat 32 d.ring)]

/-! ## Items on cores (R236, R240) -/

/-- An item begun on a core: the state of R207, the initial data copied in by transfers; transfers of items before it still read their
sources. -/
def itemRun (c h : Nat) (i : Item) (s : State) : State :=
  let k := coreGet c s
  let code := codeDispatch (imgCode i.image) k.code
  let s := if code.1 then cinc (coreCnt c 0x68) s else s
  let s := corePut c { Core.init with
    g := initRegs i.d
    code := code.2
    pc := imgEntry i.image
    xfers := k.xfers ++ initXfers h i.image
    item := some h
    halt := k.halt } s
  let s := itemPut h { i with
    st := .running c
    ran := some c
    cluster := some (coreCluster c)
    writes := []
    status := 0 } s
  let s := fset (R.TMB_CORE_STATUS_kernel_id c) i.d.kernel s
  if coreSt c s = csIdle then coreStPut c csRun s else s

/-- The prefetched item of a core begun (R240); one whose item is gone is let go. -/
def startPre (c : Nat) (s : State) : State :=
  let k := coreGet c s
  match k.item, k.pre with
  | none, some h =>
    match itemFind h s with
    | some i => itemRun c h i s
    | none => corePut c { k with pre := none } s
  | _, _ => s

/-- A prefetched item back in its ready queue at its own priority. -/
def preReturn (c : Nat) (s : State) : State :=
  let k := coreGet c s
  match k.pre with
  | none => s
  | some h =>
    let s := corePut c { k with pre := none } s
    match itemFind h s with
    | none => s
    | some i =>
      if i.dbg.isSome then itemFree h s
      else rqSettle (coreCluster c) (rqPush (coreCluster c) h i.prio (itemPut h { i with st := .queued (coreCluster c) } s))

/-! ## Duties and spares (R23, R229, R406) -/

/-- The core that can take another's duty: the cluster's spare, while it carries none. -/
def coreSpareFor (c : Nat) (s : State) : Option Nat :=
  let cl := coreCluster c
  let sp := 17 * cl + fget (R.TMB_CL_STATUS_spare cl) s
  if fon (R.TMB_CL_STATUS_spare_busy cl) s || sp = c || coreSt sp s ≠ csSpare || s.crsl.testing.contains (unitCore sp) then none else some sp

/-- A core's duty moved to the spare; the core keeps the state `st`. -/
def dutyMove (c sp st : Nat) (s : State) : State :=
  fset (R.TMB_CL_STATUS_spare_busy (coreCluster c)) 1 (coreStPut sp csIdle (coreStPut c st s))

/-- The core in DEBUG of a cluster whose debug_en is clear: its duty is to come back. -/
def debugOver (cl : Nat) (s : State) : Option Nat :=
  ((List.range 17).map fun i => 17 * cl + i).find? fun c =>
    (decide (coreSt c s = csDebug) || decide (coreSt c s = csHalted)) && !fon (R.TMB_CORE_CTRL_debug_en c) s

/-- A core's item let go: writes in flight are lost, and transfers of the item too. -/
def coreRelease (c h : Nat) (s : State) : State :=
  let k := coreGet c s
  let s := corePut c { k with
    item := none
    pend := []
    slot := none
    step := false
    halt := false
    xfers := k.xfers.filter fun t => decide (t.handle ≠ h) } s
  let s := fset (R.TMB_CORE_STATUS_kernel_id c) 0 s
  if coreSt c s = csRun then coreStPut c csIdle s else if coreSt c s = csHalted then coreStPut c csDebug s else s

/-- The debug copy a core in DEBUG leaves. -/
def debugLeave (c : Nat) (s : State) : State :=
  let s := match (coreGet c s).item with
    | some h => itemFree h (coreRelease c h s)
    | none => s
  (tkeysWhere s.crsl.items fun _ i => decide (i.dbg = some c)).foldl (fun s h => itemFree h s) (preReturn c s)

/-- A spare gives its duty back to a core whose debug_en was cleared; one that was retired meanwhile stays so (R23). -/
def debugReturn (cl : Nat) (s : State) : State :=
  match debugOver cl s with
  | none => s
  | some c =>
    let sp := 17 * cl + fget (R.TMB_CL_STATUS_spare cl) s
    fset (R.TMB_CL_STATUS_spare_busy cl) 0
      (coreStPut sp (if coreSt sp s = csRetired then csRetired else csSpare) (coreStPut c csIdle (debugLeave c (preReturn sp s))))

/-- DEBUG_REFUSED (R229). -/
def debugRefuse (c : Nat) (s : State) : State :=
  raiseUnit EV_DEBUG_REFUSED (unitCore c) 0 (fset (R.TMB_CORE_STATUS_refused c) 1 (fset (R.TMB_CORE_CTRL_debug_en c) 0 s))

/-- A core between two items: a duty that is to move moves (R229, R406), a prefetched item begins. -/
def coreBoundary (c : Nat) (s : State) : State :=
  let s :=
    if (coreGet c s).item.isSome then s
    else if fon (R.TMB_CORE_CTRL_debug_en c) s && coreSt c s ≤ csRun then
      match coreSpareFor c s with
      | some sp => dutyMove c sp csDebug (preReturn c s)
      | none => debugRefuse c s
    else if s.crsl.testing.contains (unitCore c) && coreSt c s ≤ csRun then
      match coreSpareFor c s with
      | some sp => spareTakeover (unitCore c) (unitCore sp) (dutyMove c sp csSpare (preReturn c s))
      | none => { s with crsl := { s.crsl with testing := s.crsl.testing.filter fun u => decide (u ≠ unitCore c) } }
    else if c = 17 * coreCluster c + fget (R.TMB_CL_STATUS_spare (coreCluster c)) s then debugReturn (coreCluster c) s
    else s
  startPre c s

/-! ## The ends of items on cores -/

/-- An item taken away wherever it stands, its handle freed. -/
def itemDrop (h : Nat) (s : State) : State :=
  match itemFind h s with
  | none => s
  | some i =>
    match i.st with
    | .running c => coreBoundary c (itemFree h (coreRelease c h s))
    | .prefetched c => itemFree h (corePut c { coreGet c s with pre := none } s)
    | .ended c => itemFree h (corePut c { coreGet c s with xfers := (coreGet c s).xfers.filter fun t => decide (t.handle ≠ h) } s)
    | _ => itemFree h s

/-- An item missed (R239): recorded, counted and reported; a copy is only dropped. -/
def itemMiss (h cause : Nat) (fault : Bool) (s : State) : State :=
  match itemFind h s with
  | none => s
  | some i =>
    if i.copyOf.isSome then itemDrop h s
    else
      let s := (copiesOf h s).foldl (fun s k => itemDrop k s) s
      itemDrop h (missNote h i.d i.cluster cause fault s)

/-- An item whose END was OK and whose writes are committed (R224, R236): counted, or held for comparison. -/
def itemDone (c h : Nat) (s : State) : State :=
  match itemFind h s with
  | none => s
  | some i =>
    let s := cinc (coreCnt c 0x40) s
    if i.dbg.isSome then itemFree h s
    else if i.copyOf.isSome || (i.sel && copied h s) then itemPut h { i with st := .compare c } s
    else itemCount h i.writes s

/-- END with G0 = 0 (R224): issue stops, the next item may begin, the item waits for its writes. -/
def itemEnd (c : Nat) (s : State) : State :=
  let k := coreGet c s
  match k.item with
  | none => s
  | some h =>
    let left := k.xfers.filter fun t => decide (t.handle = h) && !t.read
    let s := coreRelease c h s
    let s := corePut c { coreGet c s with xfers := k.xfers.filter fun t => decide (t.handle ≠ h) || !t.read } s
    let s := { s with crsl := { s.crsl with items := tupd s.crsl.items h fun i => { i with st := .ended c } } }
    coreBoundary c (if left.isEmpty then itemDone c h s else s)

/-! ## Faults (R227) -/

/-- The detail of KERNEL_FAULT and CORE_FAULT. -/
def faultDetail (cause kernel pc : Nat) : Nat := cause + kernel * 256 + pc * 65536

/-- TMB_CORE_FAULT written. -/
def faultShow (c cause kernel pc : Nat) (s : State) : State :=
  let s := fset (R.TMB_CORE_FAULT_cause c) cause (fset (R.TMB_CORE_FAULT_epc c) pc (fset (R.TMB_CORE_FAULT_kernel_id c) kernel s))
  fset (R.TMB_CORE_FAULT_valid c) 1 s

/-- TMB_CORE_FAULT written, EPC saved, an item that a fault ends counted. -/
def faultRegs (c cause pc : Nat) (i : Item) (s : State) : State :=
  corePut c ((coreGet c s).crSet 0x24 pc) (cinc (coreCnt c 0x60) (faultShow c cause i.d.kernel pc s))

/-- A fault of the kernel class reported: the log, KERNEL_FAULT to the PF and the Ring. -/
def kernelReport (c cause pc : Nat) (i : Item) (s : State) : State :=
  let d := faultDetail cause i.d.kernel pc
  let s := (faultLog ⟨unitCore c, 1, 0, cause, 0, 0, d, i.d.ring, 2, 0⟩ s).2
  raise (ev EV_KERNEL_FAULT (unitCore c) (some i.d.ring) (if i.d.act then 2 else 1) i.d.subject d s) s

/-- A fault of the kernel class at an instruction's address: the item is missed at once, nothing is retried. -/
def kernelFaultAt (c cause pc : Nat) (s : State) : State :=
  let k := coreGet c s
  match k.item with
  | none => s
  | some h =>
    match itemFind h s with
    | none => s
    | some i =>
      let s := kernelReport c cause pc i (faultRegs c cause pc i s)
      let status := if cause = cStatus then (k.land.rd 0).toNat % 256 else 0
      if i.copyOf.isSome && i.dbg.isNone then
        coreBoundary c (coreRelease c h (itemPut h { i with
          st := .compare c
          status := 256 * cause + status } s))
      else itemMiss h missKernel false s

/-- A fault of the kernel class at the instruction that issues. -/
def kernelFault (c cause : Nat) (s : State) : State := kernelFaultAt c cause (coreGet c s).pc s

/-- An XWR of an item refused after its END (R227): the item is missed; the core, which may run another item, shows the fault and its EPC is
left to that item (log entry 155). -/
def endedFault (c cause : Nat) (t : Xfer) (i : Item) (s : State) : State :=
  let s := kernelReport c cause t.pc i (cinc (coreCnt c 0x60) (faultShow c cause i.d.kernel t.pc s))
  if i.copyOf.isSome && i.dbg.isNone then itemPut t.handle { i with
    st := .compare c
    status := 256 * cause } s
  else itemMiss t.handle missKernel false s

/-- An item to be run again after a hardware fault (R236): RERUN, priority 3, another core. -/
def itemRerun (h : Nat) (s : State) : State :=
  match itemFind h s with
  | none => s
  | some i =>
    if i.dbg.isSome then itemFree h s
    else
      let i := { i with
        rerun := true
        prio := 3
        writes := []
        st := .held }
      itemQueue h i (cinc 0x740100 (itemPut h i s))

/-- A core out of service for good: its duty to the cluster's spare where it has one to give. -/
def coreRetire (c : Nat) (s : State) : State :=
  let sp := coreSpareFor c s
  let s := preReturn c s
  let s := { s with crsl := { s.crsl with testing := s.crsl.testing.filter fun u => decide (u ≠ unitCore c) } }
  if coreSt c s = csRetired then s
  else if coreSt c s ≤ csRun then
    match sp with
    | some sp => unitRetire (unitCore c) (unitCore sp) (spareTakeover (unitCore c) (unitCore sp) (dutyMove c sp csRetired s))
    | none => unitRetire (unitCore c) 0 (coreStPut c csRetired s)
  else unitRetire (unitCore c) 0 (fset (R.TMB_CORE_CTRL_debug_en c) 0 (coreStPut c csRetired s))

/-- A fault of the hardware class, or HUNG (`hung`): logged, the item run again elsewhere, the duty moved. -/
def hardwareFault (c cause : Nat) (hung : Bool) (s : State) : State :=
  let k := coreGet c s
  let repl := if coreSt c s ≤ csRun then (coreSpareFor c s).elim 0 unitCore else 0
  let item := k.item.bind fun h => (itemFind h s).map fun i => (h, i)
  let d := faultDetail cause (item.elim 0 fun p => p.2.d.kernel) k.pc
  let s := (faultDeclare ⟨unitCore c, 2, if repl = 0 then 1 else 2, cause, repl, b2n item.isSome, d, 0xFF, 2, 0⟩ s).2
  let s := match item with
    | none => if hung then s else faultShow c cause 0 k.pc s
    | some p => if hung then s else faultRegs c cause k.pc p.2 s
  let s := if hung then s else raiseUnit EV_CORE_FAULT (unitCore c) d s
  match item with
  | none => coreRetire c s
  | some p => itemRerun p.1 (coreRetire c (coreRelease c p.1 s))

/-! ## Debug interrupts (R228) -/

/-- A debug interrupt taken: every write in flight is made; the image's handler, or the monitor, which halts the core. -/
def debugEnter (c : Nat) (s : State) : State :=
  let k := (coreGet c s).landAll
  let k := { (((k.crSet 0x24 k.pc).crSet 0x25 (k.c 0x22)).crSet 0x22 (k.c 0x22 % 2 + 2)) with
    step := false
    halt := false
    skip := true }
  let img := match k.item.bind fun h => itemFind h s with
    | some i => i.image
    | none => []
  if imgHandler img then corePut c { k with
    pc := imgDbgEntry img
    slot := none } s
  else raiseUnit EV_DEBUG_HALT (unitCore c) (k.c 0x24 % 4096) (coreStPut c csHalted (corePut c k s))

/-- The return: SR restored, the program goes on at EPC. -/
def Core.reti (k : Core) : Core := { (k.landAll.crSet 0x22 (k.landAll.c 0x25 % 4)) with pc := k.landAll.c 0x24 % 4096 }

/-- A breakpoint register names the next instruction (R228). -/
def breakHit (c : Nat) (k : Core) (s : State) : Bool :=
  !k.hm && k.slot.isNone && !k.skip && [0, 1].any fun n => fon (R.TMB_DBG_BP_enable c n) s && decide (fget (R.TMB_DBG_BP_pc c n) s = k.pc)

/-! ## Issue (R217, R220, R225) -/

/-- A core after an instruction: the program goes on at the next one, at the target of a branch after its delay slot. -/
def Core.advance (slot : Option Nat) (k0 k : Core) : Core :=
  { k with
    pc := k0.slot.getD (k0.pc + 1) % 4096
    slot := slot
    issued := k0.issued + 1
    skip := false }

/-- A fault of either class. -/
def coreFault (c cause : Nat) (s : State) : State := if cause < 16 then kernelFault c cause s else hardwareFault c cause false s

/-- The item a core may issue for: it runs one and is not halted. -/
def issuing (c : Nat) (s : State) : Option Item :=
  if coreSt c s = csRun || coreSt c s = csDebug then (coreGet c s).item.bind fun h => itemFind h s else none

/-- What program memory makes of the command of instruction word `w`: it holds that word, or no word of the kernel's, and the instruction
issues; it holds another instruction, and nothing does (log entry 7); or it holds a word that is none, which faults (R214). -/
inductive Fetched
  | here
  | other
  | illegal
  deriving DecidableEq, Repr

def Core.holds (w : Nat) (k : Core) : Fetched :=
  match k.fetch with
  | none => .here
  | some v => if v = w then .here else if tmbLegal v then .other else .illegal

/-- An instruction issued on a core, `w` its word: `f` says what it comes to, `after` what the machine does once it has issued. -/
def issue (c w : Nat) (f : Item → Core → CoreRes) (after : State → State) (s : State) : State :=
  match issuing c s with
  | none => s
  | some i =>
    let k := coreGet c s
    let dbg := decide (coreSt c s = csDebug)
    if k.holds w = .other then s
    else if dbg && breakHit c k s then debugEnter c s
    else if i.maxCycles ≤ k.issued then kernelFault c cIssueLimit s
    else if k.holds w = .illegal then coreFault c cIllegal (cinc (coreCnt c 0x48) s)
    else
      let done := fun (k' : Core) (slot : Option Nat) =>
        let s := after (cinc (coreCnt c 0x48) (corePut c (k.advance slot k') s))
        if dbg && slot.isNone && (k.step || k.halt) && (issuing c s).isSome then debugEnter c s else s
      match f i k.land with
      | .stall => cinc (coreCnt c 0x50) s
      | .fault e => coreFault c e (cinc (coreCnt c 0x48) s)
      | .ok k' => done k' none
      | .jump k' t => if k.slot.isSome then coreFault c cIllegal (cinc (coreCnt c 0x48) s) else done k' (some t)

/-! ## Transfers (R221, R222) -/

/-- The first byte of [a, a + n) outside the regions that Ring `r`'s tag may reach: its own, and the device's shared ones (R21). -/
def trussStray (r a n : Nat) (s : State) : Option Nat :=
  strayAt (fun g => decide (g.owner = r) || decide (g.owner = 0xF1)) 64 a n s

/-- A transfer's descriptor at X[Pn] checked (R221): a fault, or the transfer. -/
def xferAt (read : Bool) (p : Nat) (i : Item) (k : Core) : Except Nat Xfer :=
  let a := k.c p
  let w := fun (o : Nat) => (k.word false (a + o)).toNat
  let off := w 0
  let loc := w 4 % 65536
  let len := w 4 / 65536
  let n := w 8 % 256
  if a % 16 ≠ 0 then .error cAlign
  else if (accessFault false a 16 k).isSome then .error cAddr
  else if off % 4 ≠ 0 || bit loc 14 || loc % 4 ≠ 0 || len % 4 ≠ 0 || len < 4 || 16384 < len || 0x4000 < loc % 0x4000 + len || 3 < n ||
      w 8 / 256 ≠ 0 || w 12 ≠ 0 then .error cIllegal
  else if !(ptrKind i.image n = 3 || ptrKind i.image n = if read then 1 else 2) then .error cXferKind
  else if ptrMax i.image n < off + len then .error cXferRange
  else .ok ⟨k.item.getD 0, read, false, k.pc, bit loc 15, loc % 0x4000, len, i.d.ptrs.getD n 0 * 128 + off,
    if read then [] else ((List.range (len / 4)).map fun j => leBytes 4 (k.word (bit loc 15) (loc % 0x4000 + 4 * j)).toNat).flatten⟩

/-- XRD or XWR. -/
def xferOp (read : Bool) (p : Nat) (i : Item) (k : Core) : CoreRes :=
  if loadStalls false (k.c p) 16 k then .stall
  else match xferAt read p i k with
    | .error e => .fault e
    | .ok t =>
      let clash := if read then storeStalls t.ymem t.laddr t.len k else loadStalls t.ymem t.laddr t.len k
      if 8 ≤ k.xfers.length || clash then .stall
      else .ok { (k.postMod p 16) with xfers := k.xfers ++ [t] }

/-- A memory's words set from bytes. -/
def Core.fill (y : Bool) (a : Nat) (l : List Byte) (k : Core) : Core :=
  (List.range (l.length / 4)).foldl (fun k j => k.wordSet y (a + 4 * j) (BitVec.ofNat 32 (le l (4 * j) 4))) k

/-- Outstanding transfer `n` of a core completes: an XRD's bytes and the initial data arrive, an XWR's are the item's to commit; a refused
access reads zeros or is discarded and faults the item (R21), an uncorrectable line is a hardware fault. -/
def xferDone (c n : Nat) (s : State) : State :=
  let k := coreGet c s
  match k.xfers[n]? with
  | none => s
  | some t =>
    let s := corePut c { k with xfers := k.xfers.eraseIdx n } s
    match itemFind t.handle s with
    | none => s
    | some i =>
      let mine := decide (k.item = some t.handle)
      if t.init then (if mine then corePut c ((coreGet c s).fill t.ymem t.laddr t.data) s else s)
      else match trussStray i.d.ring t.truss t.len s with
      | some a =>
        let s := isolationBlock i.d.ring a (unitCore c) s
        if mine then
          let s := if t.read then corePut c ((coreGet c s).fill t.ymem t.laddr (List.replicate t.len 0)) s else s
          kernelFaultAt c cXferBlocked t.pc s
        else endedFault c cXferBlocked t i s
      | none =>
        if t.read then
          if !mine then s
          else if poisoned t.truss t.len s then hardwareFault c cXferErr false s
          else corePut c ((coreGet c s).fill t.ymem t.laddr (dramRead t.truss t.len s)) s
        else
          let s := itemPut t.handle { i with writes := i.writes ++ [(t.truss, t.data)] } s
          let more := (coreGet c s).xfers.any fun u => decide (u.handle = t.handle)
          if i.st = .ended c && !more then itemDone c t.handle s else s

end Sys2Proof.Machine
end

