-- ==== Sys2Proof/Machine/TmbRows.lean ====
section
/-! DEFINITION. The instructions of a Tumbler core (R214, R215), each issued on a core that runs an item; and the core's debug and fault
rows (R227 to R229). -/
namespace Sys2Proof.Machine

/-- An instruction, `w` its word, that no more than changes its core. -/
def issueOp (c w : Nat) (f : Core → CoreRes) (s : State) : Out := .next (issue c w (fun _ k => f k) id s)

/-- A result written to Gd. -/
def wrOk (d : Nat) (r : Word32 × Core) : CoreRes := .ok (r.2.wr d r.1)

/-! ## The ALU format -/

def execTmbNop (core : Nat) (s : State) : Out := issueOp core (aluWord 0x00 false 0 0 0 0) (fun k => .ok k) s
def execTmbAdd (core : Nat) (sat : Bool) (d a b : Nat) (s : State) : Out :=
  issueOp core (aluWord 0x01 sat d a b 0) (fun k => wrOk d (k.fit32 sat ((k.rd a).toInt + (k.rd b).toInt))) s
def execTmbSub (core : Nat) (sat : Bool) (d a b : Nat) (s : State) : Out :=
  issueOp core (aluWord 0x02 sat d a b 0) (fun k => wrOk d (k.fit32 sat ((k.rd a).toInt - (k.rd b).toInt))) s
def execTmbAnd (core d a b : Nat) (s : State) : Out := issueOp core (aluWord 0x03 false d a b 0) (fun k => .ok (k.wr d (k.rd a &&& k.rd b))) s
def execTmbOr (core d a b : Nat) (s : State) : Out := issueOp core (aluWord 0x04 false d a b 0) (fun k => .ok (k.wr d (k.rd a ||| k.rd b))) s
def execTmbXor (core d a b : Nat) (s : State) : Out := issueOp core (aluWord 0x05 false d a b 0) (fun k => .ok (k.wr d (k.rd a ^^^ k.rd b))) s
def execTmbShl (core : Nat) (sat : Bool) (d a sh : Nat) (s : State) : Out :=
  issueOp core (aluWord 0x06 sat d a 0 sh) (fun k => wrOk d (k.fit32 sat ((k.rd a).toInt * (2 ^ sh : Nat)))) s
def execTmbShr (core d a sh : Nat) (s : State) : Out := issueOp core (aluWord 0x07 false d a 0 sh) (fun k => .ok (k.wr d ((k.rd a).sshiftRight sh))) s
def execTmbShrl (core d a sh : Nat) (s : State) : Out := issueOp core (aluWord 0x08 false d a 0 sh) (fun k => .ok (k.wr d (k.rd a >>> sh))) s
def execTmbShlv (core : Nat) (sat : Bool) (d a b : Nat) (s : State) : Out :=
  issueOp core (aluWord 0x09 sat d a b 0) (fun k => wrOk d (k.fit32 sat ((k.rd a).toInt * (2 ^ ((k.rd b).toNat % 32) : Nat)))) s
def execTmbShrv (core d a b : Nat) (s : State) : Out :=
  issueOp core (aluWord 0x0A false d a b 0) (fun k => .ok (k.wr d ((k.rd a).sshiftRight ((k.rd b).toNat % 32)))) s
def execTmbMin (core d a b : Nat) (s : State) : Out :=
  issueOp core (aluWord 0x0B false d a b 0) (fun k => .ok (k.wr d (if (k.rd b).toInt < (k.rd a).toInt then k.rd b else k.rd a))) s
def execTmbMax (core d a b : Nat) (s : State) : Out :=
  issueOp core (aluWord 0x0C false d a b 0) (fun k => .ok (k.wr d (if (k.rd a).toInt < (k.rd b).toInt then k.rd b else k.rd a))) s
def execTmbAbs (core : Nat) (sat : Bool) (d a : Nat) (s : State) : Out :=
  issueOp core (aluWord 0x0D sat d a 0 0) (fun k => wrOk d (k.fit32 sat (k.rd a).toInt.natAbs)) s
def execTmbNeg (core : Nat) (sat : Bool) (d a : Nat) (s : State) : Out :=
  issueOp core (aluWord 0x0E sat d a 0 0) (fun k => wrOk d (k.fit32 sat (-(k.rd a).toInt))) s
def execTmbMullo (core : Nat) (sat : Bool) (d a b : Nat) (s : State) : Out :=
  issueOp core (aluWord 0x0F sat d a b 0) (fun k => wrOk d (k.fit32 sat ((k.rd a).toInt * (k.rd b).toInt))) s
def execTmbClz (core d a : Nat) (s : State) : Out := issueOp core (aluWord 0x10 false d a 0 0) (fun k => .ok (k.wr d (BitVec.ofNat 32 (clz32 (k.rd a))))) s
def execTmbSext16 (core d a : Nat) (s : State) : Out :=
  issueOp core (aluWord 0x11 false d a 0 0) (fun k => .ok (k.wr d (((k.rd a).setWidth 16).signExtend 32))) s
def execTmbPack (core d a b : Nat) (s : State) : Out :=
  issueOp core (aluWord 0x12 false d a b 0) (fun k => .ok (k.wr d ((k.rd a).setWidth 16 ++ (k.rd b).setWidth 16))) s
def execTmbCmplt (core d a b : Nat) (s : State) : Out :=
  issueOp core (aluWord 0x13 false d a b 0) (fun k => .ok (k.wr d (BitVec.ofNat 32 (b2n (decide ((k.rd a).toInt < (k.rd b).toInt)))))) s
def execTmbCmpeq (core d a b : Nat) (s : State) : Out :=
  issueOp core (aluWord 0x14 false d a b 0) (fun k => .ok (k.wr d (BitVec.ofNat 32 (b2n (decide (k.rd a = k.rd b)))))) s
def execTmbCmpltu (core d a b : Nat) (s : State) : Out :=
  issueOp core (aluWord 0x15 false d a b 0) (fun k => .ok (k.wr d (BitVec.ofNat 32 (b2n (decide ((k.rd a).toNat < (k.rd b).toNat)))))) s

/-- RDA: an accumulator, rounded where `rnd` is set and sh > 0, shifted right; a shift of 40 or more is no encoding. -/
def execTmbRda (core : Nat) (sat : Bool) (d acc : Nat) (rnd : Bool) (sh : Nat) (s : State) : Out :=
  issueOp core (aluWord 0x16 sat d acc (flag rnd) sh) (fun k =>
    if 1 < acc || 39 < sh then .fault cIllegal
    else wrOk d (k.fit32 sat (if rnd then rshr (k.accRd acc).toInt sh else asr (k.accRd acc).toInt sh))) s
def execTmbRdah (core d acc : Nat) (s : State) : Out :=
  issueOp core (aluWord 0x17 false d acc 0 0) (fun k =>
    if 1 < acc then .fault cIllegal else .ok (k.wr d (((k.accRd acc).extractLsb' 32 8).signExtend 32))) s
def execTmbWra (core : Nat) (sat : Bool) (acc a sh : Nat) (s : State) : Out :=
  issueOp core (aluWord 0x18 sat acc a 0 sh) (fun k =>
    if 1 < acc then .fault cIllegal
    else
      let r := k.fit40 sat ((k.rd a).toInt * (2 ^ sh : Nat))
      .ok (r.2.wrAcc acc r.1)) s
def execTmbAdda (core : Nat) (sat : Bool) (acc a sh : Nat) (s : State) : Out :=
  issueOp core (aluWord 0x19 sat acc a 0 sh) (fun k =>
    if 1 < acc then .fault cIllegal
    else
      let r := k.fit40 sat ((k.accRd acc).toInt + (k.rd a).toInt * (2 ^ sh : Nat))
      .ok (r.2.wrAcc acc r.1)) s
def execTmbSuba (core : Nat) (sat : Bool) (acc a sh : Nat) (s : State) : Out :=
  issueOp core (aluWord 0x1A sat acc a 0 sh) (fun k =>
    if 1 < acc then .fault cIllegal
    else
      let r := k.fit40 sat ((k.accRd acc).toInt - (k.rd a).toInt * (2 ^ sh : Nat))
      .ok (r.2.wrAcc acc r.1)) s
def execTmbClra (core acc : Nat) (s : State) : Out :=
  issueOp core (aluWord 0x1B false acc 0 0 0) (fun k => if 1 < acc then .fault cIllegal else .ok (k.wrAcc acc 0)) s
def execTmbSat24 (core d a : Nat) (s : State) : Out :=
  issueOp core (aluWord 0x1C false d a 0 0) (fun k =>
    let v := satS 24 (k.rd a).toInt
    .ok ((if v = (k.rd a).toInt then k else k.sv).wr d (BitVec.ofInt 32 v))) s

/-! ## The immediate format -/

def execTmbAddi (core : Nat) (sat : Bool) (d src imm : Nat) (s : State) : Out :=
  issueOp core (immWord 0x00 sat d src imm) (fun k => wrOk d (k.fit32 sat ((k.rd src).toInt + imm14 imm))) s
def execTmbAndi (core d src imm : Nat) (s : State) : Out :=
  issueOp core (immWord 0x01 false d src imm) (fun k => .ok (k.wr d (k.rd src &&& BitVec.ofInt 32 (imm14 imm)))) s
def execTmbOri (core d src imm : Nat) (s : State) : Out :=
  issueOp core (immWord 0x02 false d src imm) (fun k => .ok (k.wr d (k.rd src ||| BitVec.ofInt 32 (imm14 imm)))) s
def execTmbXori (core d src imm : Nat) (s : State) : Out :=
  issueOp core (immWord 0x03 false d src imm) (fun k => .ok (k.wr d (k.rd src ^^^ BitVec.ofInt 32 (imm14 imm)))) s
def execTmbMovi (core d imm : Nat) (s : State) : Out := issueOp core (immWord 0x04 false d 0 imm) (fun k => .ok (k.wr d (BitVec.ofInt 32 (imm14 imm)))) s
def execTmbMovhi (core d imm : Nat) (s : State) : Out :=
  issueOp core (immWord 0x05 false d 0 imm) (fun k => .ok (k.wr d (BitVec.ofNat 16 imm ++ (k.rd d).setWidth 16))) s
def execTmbCmplti (core d src imm : Nat) (s : State) : Out :=
  issueOp core (immWord 0x06 false d src imm) (fun k => .ok (k.wr d (BitVec.ofNat 32 (b2n (decide ((k.rd src).toInt < imm14 imm)))))) s
def execTmbCmpeqi (core d src imm : Nat) (s : State) : Out :=
  issueOp core (immWord 0x07 false d src imm) (fun k => .ok (k.wr d (BitVec.ofNat 32 (b2n (decide ((k.rd src).toInt = imm14 imm)))))) s
def execTmbLdw (core d : Nat) (y post : Bool) (p imm : Nat) (s : State) : Out :=
  issueOp core (immWord 0x08 false d (memSrc y post p) imm) (loadOp 4 (fun n => BitVec.ofNat 32 n) d y post p imm) s
def execTmbLdh (core d : Nat) (y post : Bool) (p imm : Nat) (s : State) : Out :=
  issueOp core (immWord 0x09 false d (memSrc y post p) imm) (loadOp 2 (fun n => BitVec.ofInt 32 (toS 16 n)) d y post p imm) s
def execTmbLdhu (core d : Nat) (y post : Bool) (p imm : Nat) (s : State) : Out :=
  issueOp core (immWord 0x0A false d (memSrc y post p) imm) (loadOp 2 (fun n => BitVec.ofNat 32 n) d y post p imm) s
def execTmbStw (core d : Nat) (y post : Bool) (p imm : Nat) (s : State) : Out := issueOp core (immWord 0x0B false d (memSrc y post p) imm) (storeOp 4 d y post p imm) s
def execTmbSth (core d : Nat) (y post : Bool) (p imm : Nat) (s : State) : Out := issueOp core (immWord 0x0C false d (memSrc y post p) imm) (storeOp 2 d y post p imm) s

/-- A branch's target: its own address plus the immediate; where it is not taken, the instruction after the delay slot. -/
def branchTo (taken : Bool) (imm : Nat) (k : Core) : Nat :=
  if taken then (((k.pc : Int) + imm14 imm) % 4096).toNat else (k.pc + 2) % 4096

def execTmbBeqz (core r imm : Nat) (s : State) : Out := issueOp core (immWord 0x10 false r 0 imm) (fun k => .jump k (branchTo (decide (k.rd r = 0)) imm k)) s
def execTmbBnez (core r imm : Nat) (s : State) : Out := issueOp core (immWord 0x11 false r 0 imm) (fun k => .jump k (branchTo (decide (k.rd r ≠ 0)) imm k)) s
def execTmbBltz (core r imm : Nat) (s : State) : Out :=
  issueOp core (immWord 0x12 false r 0 imm) (fun k => .jump k (branchTo (decide ((k.rd r).toInt < 0)) imm k)) s
def execTmbBgez (core r imm : Nat) (s : State) : Out :=
  issueOp core (immWord 0x13 false r 0 imm) (fun k => .jump k (branchTo (decide (0 ≤ (k.rd r).toInt)) imm k)) s
def execTmbBr (core imm : Nat) (s : State) : Out := issueOp core (immWord 0x14 false 0 0 imm) (fun k => .jump k (branchTo true imm k)) s

/-- BLC (R220): LC and RB read interlocked; the mapping turns from the first instruction after the delay slot. -/
def blcOp (imm : Nat) (k : Core) : CoreRes :=
  let lc := k.c 0x21
  let rb := (k.c 0x20 + 15) % 16
  .jump (((k.crSet 0x21 (lc - 1)).crSet 0x20 rb).later 2 tgMap rb) (branchTo (decide (1 < lc)) imm k)
def execTmbBlc (core imm : Nat) (s : State) : Out := issueOp core (immWord 0x15 false 0 0 imm) (blcOp imm) s

def execTmbCall (core imm : Nat) (s : State) : Out :=
  issueOp core (immWord 0x16 false 0 0 imm) (fun k => .jump ((k.settle (tgCr 0x23)).crSet 0x23 ((k.pc + 2) % 4096)) (branchTo true imm k)) s
def execTmbRet (core : Nat) (s : State) : Out := issueOp core (immWord 0x17 false 0 0 0) (fun k => .jump k (k.c 0x23 % 4096)) s

/-! ## The control format -/

/-- MTC: seen from the third slot on, but that BLC and MFC see LC and RB at once (R217, R218). -/
def mtcOp (creg reg : Nat) (k : Core) : CoreRes :=
  let v := (k.rd reg).toNat
  if !cregOk creg then .fault cIllegal
  else if creg = 0x20 then .ok ((k.crSet 0x20 (v % 16)).later 3 tgMap (v % 16))
  else if creg = 0x21 then .ok (k.crSet 0x21 (v % 65536))
  else .ok (k.later 3 (tgCr creg) v)
def execTmbMtc (core creg reg : Nat) (s : State) : Out := issueOp core (ctlWord 0x00 creg reg 0) (mtcOp creg reg) s

/-- What MFC reads: a register that tells of timing or placement reads 0 in item mode (R216); N is signed; `f` is a free value. -/
def mfcVal (creg f : Nat) (k : Core) : Nat :=
  if 0x24 ≤ creg && creg ≤ 0x2A && !k.hm then 0
  else if creg = 0x28 then Config.cycles f
  else if creg = 0x29 then k.xfers.length
  else if creg = 0x2A then k.item.getD 0
  else if 8 ≤ creg && creg < 0x10 then ofS 32 (toS 16 (k.c creg))
  else k.c creg
def execTmbMfc (core creg reg : Nat) (s : State) : Out :=
  let r := if creg = 0x28 && (coreGet core s).hm then takeFree s else (0, s)
  issueOp core (ctlWord 0x01 creg reg 0) (fun k => if !cregOk creg then .fault cIllegal else .ok (k.wr reg (BitVec.ofNat 32 (mfcVal creg r.1 k)))) r.2

def execTmbXrd (core p : Nat) (s : State) : Out := .next (issue core (ctlWord 0x02 0 0 p) (xferOp true p) id s)
def execTmbXwr (core p : Nat) (s : State) : Out := .next (issue core (ctlWord 0x03 0 0 p) (xferOp false p) id s)

/-- TRANSFER_COMPLETE: outstanding transfer `n` of the core. -/
def execTransferComplete (core n : Nat) (s : State) : Out := .next (xferDone core n s)

def execTmbWaitx (core n : Nat) (s : State) : Out := issueOp core (ctlWord 0x04 0 0 n) (fun k => if n < k.xfers.length then .stall else .ok k) s

/-- END: the item ends OK where G0 is 0, FAILED otherwise (R224). -/
def execTmbEnd (core : Nat) (s : State) : Out :=
  .next (issue core (ctlWord 0x05 0 0 0) (fun _ k => if k.rd 0 = 0 then .ok k else .fault cStatus) (itemEnd core) s)

/-- RETI: only in handler mode. -/
def execTmbReti (core : Nat) (s : State) : Out :=
  .next (issue core (ctlWord 0x06 0 0 0) (fun _ k => if k.hm then .ok k else .fault cIllegal) (fun s => corePut core (coreGet core s).reti s) s)

/-- BKPT: a debug interrupt in DEBUG state, a NOP elsewhere. -/
def execTmbBkpt (core code : Nat) (s : State) : Out :=
  .next (issue core (ctlWord 0x07 0 0 code) (fun _ k => .ok k) (fun s =>
    if coreSt core s ≠ csDebug then s
    else if (coreGet core s).slot.isSome then s
    else debugEnter core s) s)

def execTmbFault (core code : Nat) (s : State) : Out := issueOp core (ctlWord 0x08 0 0 code) (fun _ => .fault cKfault) s

/-! ## The MAC format -/

def execTmbMac (core acc : Nat) (sat : Bool) (a b xd xp : Nat) (xm : Bool) (yd yp : Nat) (ym : Bool) (s : State) : Out :=
  issueOp core (macWord 0 acc sat a b xd xp xm yd yp ym) (macOp (fun x p => x + p) acc sat a b xd xp xm yd yp ym) s
def execTmbMsu (core acc : Nat) (sat : Bool) (a b xd xp : Nat) (xm : Bool) (yd yp : Nat) (ym : Bool) (s : State) : Out :=
  issueOp core (macWord 1 acc sat a b xd xp xm yd yp ym) (macOp (fun x p => x - p) acc sat a b xd xp xm yd yp ym) s
def execTmbMpy (core acc : Nat) (sat : Bool) (a b xd xp : Nat) (xm : Bool) (yd yp : Nat) (ym : Bool) (s : State) : Out :=
  issueOp core (macWord 2 acc sat a b xd xp xm yd yp ym) (macOp (fun _ p => p) acc sat a b xd xp xm yd yp ym) s
def execTmbLdp (core xd xp : Nat) (xm : Bool) (yd yp : Nat) (ym : Bool) (s : State) : Out :=
  issueOp core (macWord 3 0 false 0 0 xd xp xm yd yp ym) (fun k => parLoads xd xp xm yd yp ym k k) s

/-! ## Faults and debug -/

/-- CORE_HW_FAULT: an uncorrectable error of a core's memories or registers, or a Truss error (causes 0x10 to 0x13). -/
def execCoreHwFault (core cause : Nat) (s : State) : Out :=
  .next (if 544 ≤ core || !within 0x10 0x13 cause || coreSt core s = csRetired then s else hardwareFault core cause false s)

/-- DEBUG_ENABLE: a write of debug_en; refused where the cluster has no spare to take the duty, or the core holds none (R229; log entry
156). -/
def debugEnable (core v : Nat) (s : State) : State :=
  if 544 ≤ core then s
  else if v % 2 = 1 then
    if fon (R.TMB_CORE_CTRL_debug_en core) s then s
    else if csRun < coreSt core s || (coreSpareFor core s).isNone then debugRefuse core s
    else coreBoundary core (fset (R.TMB_CORE_CTRL_debug_en core) 1 s)
  else
    let s := fset (R.TMB_CORE_CTRL_debug_en core) 0 s
    let cl := coreCluster core
    let sp := 17 * cl + fget (R.TMB_CL_STATUS_spare cl) s
    if (coreGet sp s).item.isSome then s else startPre core (debugReturn cl s)
def execDebugEnable (core v : Nat) (s : State) : Out := .next (debugEnable core v s)

/-- DEBUG_HALT_REQUEST: a debug interrupt at the next boundary of instructions, in DEBUG only. -/
def execDebugHaltRequest (core : Nat) (s : State) : Out :=
  .next (if coreSt core s ≠ csDebug then s
    else if (coreGet core s).item.isSome && (coreGet core s).slot.isNone then debugEnter core s
    else corePut core { coreGet core s with halt := true } s)

/-- DEBUG_STEP: one instruction from HALTED. -/
def execDebugStep (core : Nat) (s : State) : Out :=
  .next (if coreSt core s ≠ csHalted then s
    else coreStPut core csDebug (corePut core { (coreGet core s).reti with step := true } s))

/-- DEBUG_RESUME: HALTED is left. -/
def execDebugResume (core : Nat) (s : State) : Out :=
  .next (if coreSt core s ≠ csHalted then s else coreStPut core csDebug (corePut core (coreGet core s).reti s))

/-- DEBUG_INTERRUPT: a breakpoint register names the next instruction of a core in DEBUG. -/
def execDebugInterrupt (core : Nat) (s : State) : Out :=
  .next (if coreSt core s = csDebug && (coreGet core s).item.isSome && breakHit core (coreGet core s) s then debugEnter core s else s)

end Sys2Proof.Machine
end

