-- ==== Sys2Proof/Machine/CrslRows.lean ====
section
/-! DEFINITION. The Carousel's rows (R235 to R249), suspects (R406), items at a block boundary and at the loss of a Bay (R241). -/
namespace Sys2Proof.Machine

/-! ## Suspect cores (R406) -/

/-- A core that becomes its cluster's spare, carrying no duty. -/
def spareBecome (c : Nat) (s : State) : State :=
  let s := { s with crsl := { s.crsl with testing := s.crsl.testing.filter fun u => decide (u ≠ unitCore c) } }
  fset (R.TMB_CL_STATUS_spare (coreCluster c)) (c % 17) (fset (R.TMB_CL_STATUS_spare_busy (coreCluster c)) 0 (coreStPut c csSpare s))

/-- A core between items, one whose duty has gone to the spare without a test to come being the spare from then on. -/
def suspectSettle (c : Nat) (s : State) : State :=
  let s := coreBoundary c s
  if s.crsl.testing.contains (unitCore c) && decide (coreSt c s = csSpare) && !fon R.FLT_CFG_suspect_test s then spareBecome c s else s

/-- A core reported suspect: the first report moves its duty to the spare and has it tested, a second within 2,000,000 blocks retires it. -/
def coreSuspect (c source : Nat) (s : State) : State :=
  match suspectReport (unitCore c) source s with
  | (again, s) =>
    let repl := (coreSpareFor c s).elim 0 unitCore
    let rec_ : FaultRec := ⟨unitCore c, 2, if again then 4 else 2, source, repl, 0, unitCore c + source * 65536, 0xFF, 2, 0⟩
    if again then
      let s := (faultDeclare rec_ s).2
      match (coreGet c s).item with
      | some h => itemRerun h (coreRetire c (coreRelease c h s))
      | none => coreRetire c s
    else if csRun < coreSt c s || repl = 0 then s
    else
      let s := (faultDeclare rec_ s).2
      let s := { s with crsl := { s.crsl with testing := s.crsl.testing ++ [unitCore c] } }
      suspectSettle c s

/-- The test of a suspect core over: it becomes the spare, or is retired. -/
def suspectTested (c : Nat) (failed : Bool) (s : State) : State :=
  if !(s.crsl.testing.contains (unitCore c)) || coreSt c s ≠ csSpare then s
  else if failed then
    let s := (faultLog ⟨unitCore c, 2, 4, 0, 0, 0, unitCore c, 0xFF, 2, 0⟩ s).2
    unitRetire (unitCore c) 0 (coreStPut c csRetired
      { s with crsl := { s.crsl with testing := s.crsl.testing.filter fun u => decide (u ≠ unitCore c) } })
  else spareBecome c s

/-! ## Prefetch (R240) -/

/-- The places of a queue's entries that a core may be given: of the highest priority among those that are not re-runs of its own. -/
def popChoices (c : Nat) (q : RQueue) (s : State) : List Nat :=
  let ok := (List.range q.q.length).filter fun j => match (q.q[j]?).bind fun e => itemFind e.h s with
    | some i => !(i.rerun && decide (i.ran = some c))
    | none => true
  let top := (ok.filterMap fun j => (q.q[j]?).map (·.prio)).foldl max 0
  ok.filter fun j => decide ((q.q[j]?).map (·.prio) = some top)

/-- An empty prefetch slot filled: `pick` says which of the entries of the highest priority the queue returns (R238), `same` that the next
push to the queue falls in the cycle of this pop (R244). -/
def prefetch (c pick : Nat) (same : Bool) (s : State) : State :=
  let cl := coreCluster c
  let k := coreGet c s
  let down := [1, 2].contains (fget (R.FLT_BAY_STATUS_state (clusterBay cl)) s)
  if 544 ≤ c || down || k.pre.isSome then s
  else if coreSt c s = csDebug || coreSt c s = csHalted then
    match tkeysWhere s.crsl.items fun _ i => decide (i.dbg = some c) && decide (i.st = .held) with
    | [] => s
    | h :: _ =>
      let s := { s with crsl := { s.crsl with items := tupd s.crsl.items h fun i => { i with st := .prefetched c } } }
      startPre c (corePut c { k with pre := some h } s)
  else if !coreServes c s then s
  else
    let q := rqGet cl s
    let l := popChoices c q s
    match (l[pick % l.length]?).bind fun j => (q.q[j]?).map fun e => (j, e.h) with
    | none => s
    | some (j, h) =>
      let s := rqPut cl { q with q := q.q.eraseIdx j, popped := same } (cinc (clCnt cl 0x48) s)
      match itemFind h s with
      | none => cinc (clCnt cl 0x58) s
      | some i =>
        if i.st ≠ .queued cl then cinc (clCnt cl 0x58) s
        else startPre c (corePut c { coreGet c s with pre := some h } (itemPut h { i with st := .prefetched c } s))

/-- CORE_PREFETCH. -/
def execCorePrefetch (core : Nat) (pick : Pick) (s : State) : Out := .next (prefetch core pick.entry pick.same s)

/-! ## Handles, deadlines (R235, R239) -/

/-- An item that waited for a handle created: an item of its own, or a copy of one that is there still. -/
def waitMake (w : HandleWait) (s : State) : State :=
  match w.copyOf with
  | none => itemMake w.d s
  | some h => match itemFind h s with
    | none => s
    | some i => match w.dbg with
      | some c => debugCopy h c i s
      | none => shadowCopy h w.third i s

/-- ITEM_HANDLE_RETRY: items that found no free handle are created where one is free now. -/
def execItemHandleRetry (s : State) : Out :=
  .next (s.crsl.waits.foldl (fun s w =>
    if handleRoom w.d.bay s then
      waitMake w { s with crsl := { s.crsl with waits := s.crsl.waits.erase w } }
    else s) s)

/-- DEADLINE_MISS: an item not counted by the end of its deadline block. -/
def execDeadlineMiss (handle : Nat) (s : State) : Out :=
  .next (match itemFind handle s with
    | none => s
    | some i =>
      if stampAfter s.clk.stamp (itemDue i.d) || (decide (s.clk.stamp = itemDue i.d) && decide (23 ≤ s.clk.offset)) then
        itemMiss handle missDeadline i.rerun s
      else s)

/-- ITEM_HUNG: an item that has run 4 × max_cycles + 65,536 cycles; its core is treated as faulty. -/
def execItemHung (core : Nat) (s : State) : Out :=
  .next (match (coreGet core s).item with
    | none => s
    | some h => hardwareFault core 0 true (raiseUnit EV_ITEM_HUNG (unitCore core) (h + core * 2 ^ 32) (cinc 0x2B0020 s)))

/-- BARRIER_CLOSE: with the consumer items that the barrier's closing creates. -/
def execBarrierClose (barrier : Nat) (items : List ItemDesc) (s : State) : Out := .next (barClose barrier items s)

/-! ## Shadow re-execution (R248, R249) -/

/-- Whether two runs agree: status and every written byte with its address and length. -/
def sameRun (a b : Item) : Bool :=
  let key := fun (l : List (Nat × List Byte)) => sortBy (fun (x y : Nat × List Byte) => decide (x.1 < y.1)) l
  decide (a.status = b.status) && decide (key a.writes = key b.writes)

/-- An item and its copies ended with the run that won. -/
def shadowWin (h : Nat) (w : Item) (s : State) : State :=
  let s := (copiesOf h s).foldl (fun s k => itemDrop k s) s
  if w.status = 0 then itemCount h w.writes s else itemMiss h missKernel false s

/-- SHADOW_MISMATCH with its outcome: 1 the original outvoted, 2 the shadow outvoted, 3 no majority. -/
def shadowEvent (h outcome : Nat) (a b : Item) (s : State) : State :=
  raiseUnit EV_SHADOW_MISMATCH 0 (h + outcome * 2 ^ 17 + a.ran.getD 0 * 2 ^ 32 + b.ran.getD 0 * 2 ^ 48) s

/-- A run that waits for its comparison. -/
def Item.compared (i : Item) : Bool :=
  match i.st with
  | .compare _ => true
  | _ => false

/-- The comparison of an item with its copies, once all have ended: with the first copy, then with the third run. -/
def shadowCompare (h : Nat) (s : State) : State :=
  match itemFind h s with
  | none => s
  | some a =>
    let cs := (copiesOf h s).filterMap fun k => itemFind k s
    if !a.compared || !cs.all Item.compared || s.crsl.waits.any (fun w => decide (w.copyOf = some h) && w.dbg.isNone) then s
    else match cs.find? (fun i => !i.third), cs.find? (fun i => i.third) with
      | some b, none =>
        if sameRun a b then shadowWin h a (cinc 0x2B0008 s)
        else shadowCopy h true a (cinc 0x2B0010 s)
      | some b, some c =>
        if sameRun a c then coreSuspect (b.ran.getD 0) 1 (shadowEvent h 2 a b (shadowWin h a s))
        else if sameRun b c then coreSuspect (a.ran.getD 0) 1 (shadowEvent h 1 a b (shadowWin h b s))
        else itemMiss h missMajority true (shadowEvent h 3 a b s)
      | none, _ => s

/-- SHADOW_COMPARE: the original's handle. -/
def execShadowCompare (handle : Nat) (s : State) : Out := .next (shadowCompare handle s)

/-- SHADOW_ABANDON: a comparison not decided when offset 22 of the deadline block begins. -/
def execShadowAbandon (handle : Nat) (s : State) : Out :=
  .next (match itemFind handle s with
    | none => s
    | some i =>
      match i.st with
      | .compare _ =>
        if i.copyOf.isNone && decide (s.clk.stamp = itemDue i.d) && decide (22 ≤ s.clk.offset) then shadowWin handle i (cinc 0x2B0018 s)
        else s
      | _ => s)

/-! ## Queues (R245, R246) -/

/-- QUEUE_SPILL_REPUSH: the handle in a cluster's spill register pushed where the queue has room. -/
def execQueueSpillRepush (cl : Nat) (s : State) : Out :=
  .next (match (rqGet cl s).spill with
    | [] => s
    | e :: r =>
      if (rqGet cl s).cap ≤ (rqGet cl s).q.length then s
      else rqSettle cl (rqPush cl e.1 e.2 (rqPut cl { rqGet cl s with spill := r } s)))

/-- The event queue of a queue index of R251. -/
def qeccEvq (q : Nat) : Nat := if q < 48 then evqPf (q - 32) else evqVf (q - 48)

/-- An uncorrectable entry counted and reported. -/
def qeccNote (q : Nat) (s : State) : State :=
  let s := (faultDeclare ⟨if q < 32 then unitCluster q else 0, 2, 0, 0, 0, 0, q + 256, 0xFF, severity EV_QUEUE_ECC (q + 256), 0⟩ s).2
  raiseUnit EV_QUEUE_ECC (if q < 32 then unitCluster q else 0) (q + 256)
    (fset (R.CRSL_QECC_STATUS_uncorr q) 1 (cinc (qeccCnt q 8) s))

/-- QUEUE_ECC_RESCAN: an uncorrectable error in entry `pick` of queue `q`. -/
def execQueueEccRescan (q pick : Nat) (s : State) : Out :=
  .next (if 64 ≤ q then s
    else if q < 32 then
      let r := rqGet q s
      if r.q.isEmpty then s else rescan q (qeccNote q (rqPut q { r with q := r.q.eraseIdx (pick % r.q.length) } s))
    else
      let k := qeccEvq q
      let e := evqGet k s
      if e.items.isEmpty then s
      else qeccNote q (evqLose k 1 (evqPut k { e with items := e.items.eraseIdx (pick % e.items.length) } s)))

/-! ## At a block boundary, and at the loss of a Bay -/

/-- Items past their deadline missed, those without a handle too. -/
def itemsOverdue (b : Nat) (s : State) : State :=
  let s := (tkeysWhere s.crsl.items fun _ i => i.copyOf.isNone && stampAfter b (itemDue i.d)).foldl (fun s h =>
    match itemFind h s with
    | some i => itemMiss h missDeadline i.rerun s
    | none => s) s
  let late := s.crsl.waits.filter fun w => stampAfter b (itemDue w.d)
  let s := { s with crsl := { s.crsl with waits := s.crsl.waits.filter fun w => !stampAfter b (itemDue w.d) } }
  late.foldl (fun s w => if w.copyOf.isNone then missNote 0 w.d none missHandle false s else s) s

/-- Block `b` begun: the greatest handle counts of the block before shown, HELD items whose window begins pushed, first-stage items
created. -/
def crslBlock (b : Nat) (items : List ItemDesc) (s : State) : State :=
  let s := itemsOverdue b s
  let s := (List.range 4).foldl (fun s k => fset (R.CRSL_BAY_FLIGHT_peak k) (min 65535 (tget 0 s.crsl.peak k)) s) s
  let s := flightSync { s with crsl := { s.crsl with peak := [] } }
  let s := (tkeysWhere s.crsl.items fun _ i => decide (i.st = .held)).foldl (fun s h => itemRelease h s) s
  itemsMake items s

/-- Where an item's subject is placed now, if it is. -/
def subjectBay (d : ItemDesc) (s : State) : Option Nat :=
  let b := if d.act then (tfind s.ctl.acts d.subject).map (·.bay) else (tfind s.ctl.legs d.subject).map fun l => if l.unplaced then 4 else l.bay
  b.filter fun b => bayIn b s

/-- Whether an item stands on a Bay's clusters. -/
def onBay (bay : Nat) (i : Item) : Bool :=
  match i.st with
  | .queued cl => decide (clusterBay cl = bay)
  | .prefetched c => decide (clusterBay (coreCluster c) = bay)
  | .running c => decide (clusterBay (coreCluster c) = bay)
  | .ended c => decide (clusterBay (coreCluster c) = bay)
  | _ => false

/-- The items of a lost Bay queued again where their subjects now are (R241): by deadline; those whose subject has no place wait for it. -/
def crslRehome (bay : Nat) (s : State) : State :=
  let due := sortBy (fun (a b : Nat × Item) => stampAfter (itemDue b.2.d) (itemDue a.2.d))
    (s.crsl.items.filter fun p => onBay bay p.2 || decide (p.2.d.bay = bay))
  let s := (List.range 136).foldl (fun s j =>
    let c := 136 * bay + j
    match tfind s.crsl.cores c with
    | none => s
    | some k =>
      let s := corePut c { k with item := none, pre := none, pend := [], xfers := [] } s
      if coreSt c s = csRun then coreStPut c csIdle s else s) s
  let s := (List.range 8).foldl (fun s j =>
    let cl := 8 * bay + j
    if (rqGet cl s).q.isEmpty && (rqGet cl s).spill.isEmpty then s else rqPut cl { rqGet cl s with q := [], spill := [] } s) s
  due.foldl (fun s p =>
    match itemFind p.1 s with
    | none => s
    | some i =>
      if i.dbg.isSome then itemFree p.1 s
      else
        let dst := subjectBay i.d s
        let i' := { i with d := { i.d with bay := dst.getD i.d.bay } }
        if onBay bay i then
          let s := itemPut p.1 { i' with
            rerun := true
            prio := 3
            writes := []
            st := .held } (cinc 0x740100 s)
          match dst, itemFind p.1 s with
          | some _, some j => itemQueue p.1 j s
          | _, _ => s
        else itemPut p.1 i' s) s

end Sys2Proof.Machine
end

