-- ==== Sys2Proof/Machine/SafetyNet.lean ====
section
/-! DEFINITION. The Safety Net's recovery: loss of a Bay and its re-home, self-test, quarantine and return (R404 to R419), the Ringmaster's
lockstep (R408). -/
namespace Sys2Proof.Machine

/-! ## Bay states (R410, R421, R422) -/

def bsIn : Nat := 0
def bsLost : Nat := 1
def bsQuar : Nat := 2
def bsDrain : Nat := 3
def bsTest : Nat := 4
def bsRestore : Nat := 5
def baySt (b : Nat) (s : State) : Nat := fget (R.FLT_BAY_STATUS_state b) s

/-- Causes of BAY_STATE. -/
def bcHeartbeat : Nat := 1
def bcClock : Nat := 2
def bcPower : Nat := 3
def bcMesh : Nat := 4
def bcAdmin : Nat := 5
def bcUnit : Nat := 6

/-- The state that units of a Bay show: 0 in service, 1 lost, 2 quarantined; a quarantined Bay's tiles show it too (R279). -/
def unitsShow (b : Nat) (s : State) : State :=
  let v := if baySt b s ≤ bsQuar then baySt b s else 0
  let s := fset (R.AUD_UNIT_STATUS_state b) v (fset (R.FWD_UNIT_STATUS_state b) v (fset (R.CMP_STATUS_state b) v s))
  let s := fset (R.CIPH_ENG_STATUS_state (2 * b)) v (fset (R.CIPH_ENG_STATUS_state (2 * b + 1)) v s)
  (bayTiles b).foldl (fun s t =>
    let st := fget (R.VCT_TILE_STATUS_state t) s
    if st = 2 then s
    else if v = 2 then fset (R.VCT_TILE_STATUS_state t) 3 s
    else if st ≠ 3 then s
    else if fon (R.VCT_TILE_DUTY_valid t) s then fset (R.VCT_TILE_STATUS_state t) 0 s
    else if (tileImage t s).isSome then fset (R.VCT_TILE_STATUS_state t) 1 s
    else s) s

/-- The detail of BAY_STATE. -/
def bayDetail (b st cause idx : Nat) : Nat := b + st * 16 + cause * 256 + idx * 2 ^ 32

/-- A Bay's state changed: shown, and BAY_STATE queued. -/
def baySet (b st cause idx : Nat) (s : State) : State :=
  let s := coverSync (unitsShow b (fset (R.FLT_BAY_STATUS_state b) st s))
  raiseUnit EV_BAY_STATE (unitBay b) (bayDetail b st cause idx) s

/-! ## Moving legs, Acts and buckets (R413, R418) -/

/-- A leg placed on a Bay, charged to it, LEG_REHOMED. -/
def legMove (n bay : Nat) (planned : Bool) (l : Leg) (s : State) : State :=
  let s := chargeUp l.ring bay l.charge (chargeDown l.ring l.bay l.charge s)
  let s := { s with ctl := { s.ctl with legs := tset s.ctl.legs n { l with
    bay := bay
    unplaced := false } } }
  let s := cinc 0x740110 (cinc (legCnt n 0x110) s)
  raiseObj EV_LEG_REHOMED l.ring 1 n (l.bay % 4 + bay * 4 + b2n planned * 16) s

/-- A leg without a Bay: its block degraded, its Act reported (R411). -/
def legUnserved (n : Nat) (l : Leg) (s : State) : State := determinismLost l.act 4 (degraded n s)

/-- A leg re-placed by the rule of R413; one that fits nowhere is unplaced, its charge returned. -/
def legPlace (n : Nat) (planned : Bool) (s : State) : State :=
  match tfind s.ctl.legs n with
  | none => s
  | some l =>
    match placeWhole l.charge s with
    | some b => legMove n b planned l s
    | none =>
      let s := chargeDown l.ring l.bay l.charge s
      legUnserved n l { s with ctl := { s.ctl with legs := tset s.ctl.legs n { l with
        bay := 4 + l.bay % 4
        unplaced := true } } }

/-- What an Act has charged on its Bay: its own charge and 3 AU for each leg of it that is not trusted. -/
def actLoad (a : Nat) (x : Act) (s : State) : Charge :=
  chargeAdd x.charge (chargeOf 0 (3 * (s.ctl.legs.filter fun p => decide (p.2.act = a) && (legAud p.1 s).charged).length))

/-- An Act's charges moved to a Bay, the charges of route ramps into it with them (R412). -/
def actMove (a bay : Nat) (x : Act) (s : State) : State :=
  let c := actLoad a x s
  let s := chargeUp x.ring bay c (chargeDown x.ring x.bay c s)
  let s := (s.ctl.legs.filter fun p => decide (p.2.act = a)).foldl (fun s p =>
    match (legAud p.1 s).routeCharge with
    | some (r, b, last) =>
      if b ≠ x.bay then s
      else chargeUp r bay (chargeOf 0 12) (chargeDown r b (chargeOf 0 12)
        (legAudPut p.1 { legAud p.1 s with routeCharge := some (r, bay, last) } s))
    | none => s) s
  { s with ctl := { s.ctl with acts := tset s.ctl.acts a { x with bay := bay } } }

/-- An Act's charges re-placed, or left without a Bay. -/
def actPlace (a : Nat) (s : State) : State :=
  match tfind s.ctl.acts a with
  | none => s
  | some x =>
    match placeWhole (actLoad a x s) s with
    | some b => actMove a b x s
    | none => determinismLost a 4 (actMove a (4 + x.bay % 4) x s)

/-- Frames of a Bay that are not yet committed taken again by the pipeline that their bucket names now (R116). -/
def framesAgain (bay : Nat) (s : State) : State :=
  holdSync { s with ctl := { s.ctl with held := s.ctl.held.map fun (h : Held) =>
    if h.frame.bay ≠ bay then h
    else
      let b := steerBay (steerBucket (parseFrame h.frame.bytes)) s
      { h with
        frame := { h.frame with bay := b }
        eng := engineFor b h.eng s
        answered := false } } }

/-- Legs and Acts of a Bay re-placed, legs first, each in ascending order; planned moves are recorded. -/
def ctlRehome (bay : Nat) (planned : Bool) (s : State) : State :=
  let note := fun (kind id : Nat) (s : State) => if planned then drainNote kind id bay s else s
  let s := (tkeysWhere s.ctl.legs fun _ l => decide (l.bay = bay)).foldl (fun s n => note drLeg n (legPlace n planned s)) s
  (tkeysWhere s.ctl.acts fun _ a => decide (a.bay = bay)).foldl (fun s a => note drAct a (actPlace a s)) s

/-- Legs and Acts without a Bay tried again at a boundary, before admission; those that still have none are reported. -/
def unplacedRetry (s : State) : State :=
  let s := (tkeysWhere s.ctl.legs fun _ l => l.unplaced).foldl (fun s n => legPlace n false s) s
  (tkeysWhere s.ctl.acts fun _ a => decide (4 ≤ a.bay)).foldl (fun s a => actPlace a s) s

/-! ## The self-test's operation (R417 to R419) -/

/-- The live self-test's result: passed and failed masks. -/
def testResult (t : SelfTest) : Nat := t.passed + t.failed * 65536

def testPut (t : Option SelfTest) (s : State) : State := { s with flt := { s.flt with test := t } }

/-- Drained work of a Bay that stays where it is. -/
def drainKeep (bay : Nat) (s : State) : State :=
  { s with flt := { s.flt with drained := s.flt.drained.filter fun e => decide (e.bay ≠ bay) } }

/-- The operation ended. -/
def testEnd (t : SelfTest) (st : LopSt) (status reason effect : Nat) (s : State) : State :=
  lopEnd t.fn t.tag st status reason (testResult t) false 0 effect (testPut none s)

/-- A cancel that reaches a safe point: the Bay goes back where the test found it. -/
def testCancel (t : SelfTest) (s : State) : State :=
  let s := testEnd t .cancelled stCancelled 0 0 s
  if t.restored then s else baySet t.bay (if t.fromQ then bsQuar else bsRestore) bcAdmin 0 s

/-- The safe point after the Bay is restored (R89), its Bay in service, or quarantined as the test found it: a pending suspend or cancel takes
effect, else the test is done. -/
def testRestored (t : SelfTest) (effect : Nat) (s : State) : State :=
  let s := lopSafe t.fn t.tag (testEnd t .cancelled stCancelled 0 0) (testPut (some { t with restored := true }) s)
  if (lopFind t.fn t.tag s).elim false fun l => decide (l.st = .running) then testEnd t .done stOk 0 effect s else s

/-- A cancel asked for by the loss of another Bay (R410): it takes effect at the next safe point. -/
def testStop (s : State) : State :=
  match s.flt.test with
  | none => s
  | some t =>
    match lopFind t.fn t.tag s with
    | none => s
    | some l => if l.st = .suspended then testCancel t s else if lopActive l then lopPut { l with st := .cancelling } s else s

/-! ## Loss and quarantine (R407, R410, R413) -/

/-- Everything of a Bay re-homed, in the order of R413. -/
def rehome (bay : Nat) (s : State) : State :=
  let s := framesAgain bay (steerAway s)
  let s := ctlRehome bay false s
  let s := sessRehomeAll (tkeysWhere s.vid.sess fun _ x => decide (x.bay = bay)) (tkeysWhere s.vid.encs fun _ e => decide (e.bay = bay)) s
  let s := (tkeysWhere s.vid.canvas fun _ x => decide (x.comp = bay) && !(x.suspended && !x.ends)).foldl (fun s id => canvasMove true id s) s
  crslRehome bay s

/-- The self-test under way when a Bay goes out. -/
def testMeets (bay : Nat) (admin : Bool) (s : State) : State :=
  match s.flt.test with
  | none => s
  | some t =>
    if t.bay ≠ bay then testStop s
    else if admin then testEnd t .cancelled stCancelled 0 0 s
    else testEnd t .failed stFailed 2 0 s

/-- A Bay out of service: logged, its state shown, everything on it re-homed. `unit` is the unit logged, `cls` its class. -/
def bayOut (bay cause unit cls : Nat) (s : State) : State :=
  let admin := decide (cause = bcAdmin)
  let st := if admin then bsQuar else bsLost
  let n := (s.ctl.legs.filter fun p => decide (p.2.bay = bay)).length
  let idx := fget R.LDG_LOG_NEXT_next s
  let s := (faultDeclare ⟨unit, cls, if admin then 5 else 3, cause, 0, n, bayDetail bay st cause idx, 0xFF, if admin then 1 else 3, 0⟩ s).2
  let s := passRestart bay (drainKeep bay (testMeets bay admin s))
  let s := if admin then s else cinc 0x740118 s
  rehome bay (baySet bay st cause idx s)

/-- The loss of a Bay declared; nothing where it is out already. -/
def bayLost (bay cause unit cls : Nat) (s : State) : State :=
  if 4 ≤ bay || baySt bay s = bsLost || baySt bay s = bsQuar then s else bayOut bay cause unit cls s

/-- BAY_HEARTBEAT_MISS: two consecutive toggles of a Bay's heartbeat are missing. -/
def execBayHeartbeatMiss (bay : Nat) (s : State) : Out := .next (bayLost bay bcHeartbeat (unitBay bay) 3 s)

/-- BAY_LOSS_DECLARED: on the heartbeat, the PLL, power-good or mesh parity (cause 1 to 4). -/
def execBayLossDeclared (bay cause : Nat) (s : State) : Out :=
  .next (if within 1 4 cause then bayLost bay cause (unitBay bay) 3 s else s)

/-- UNIT_FAILED: a unit of the Bay without a spare fails. -/
def execUnitFailed (bay unit : Nat) (s : State) : Out := .next (bayLost bay bcUnit unit 2 s)

/-- BAY_QUARANTINE's effect (R410). -/
def bayQuarantine (bay : Nat) (s : State) : State := bayLost bay bcAdmin (unitBay bay) 8 s

/-- BAY_WARM_RESET's effect on a quarantined Bay: its units reset, `tested` cleared. -/
def bayWarmReset (bay : Nat) (s : State) : State :=
  let s := fset (R.FLT_BAY_STATUS_tested bay) 0 s
  let s := { s with
    crsl := { s.crsl with cores := teraseRange s.crsl.cores (136 * bay) (136 * bay + 136) }
    vid := { s.vid with tiles := teraseRange s.vid.tiles (17 * bay) (17 * bay + 17) } }
  (List.range 136).foldl (fun s j =>
    let c := 136 * bay + j
    let s := fset (R.TMB_CORE_CTRL_debug_en c) 0 (fset (R.TMB_CORE_CTRL_dbg_kernel c) 0 s)
    let s := fset (R.TMB_DBG_BP_enable c 0) 0 (fset (R.TMB_DBG_BP_enable c 1) 0 s)
    if coreSt c s = csRun || coreSt c s = csDebug || coreSt c s = csHalted then coreStPut c csIdle s else s) s

/-- What both always-on Bay operations check. -/
def bayArgs (c : Cmd) : Option Rsp :=
  if 4 ≤ c.target then some (rspErr stBadId) else if !czero c 0x18 then some (rspErr stBadArg) else none

def applyBayQuarantine (c : Cmd) (s : State) : State × Rsp :=
  match bayArgs c with
  | some r => (s, r)
  | none => (bayQuarantine c.target s, rspOk)

def applyBayWarmReset (c : Cmd) (s : State) : State × Rsp :=
  match bayArgs c with
  | some r => (s, r)
  | none => if baySt c.target s = bsQuar then (bayWarmReset c.target s, rspOk) else (s, rspErr stBadState)

/-- BAY_RETURN: a tested quarantined Bay joins at the boundary; no work is moved. -/
def applyBayReturn (c : Cmd) (_b : Nat) (s : State) : State × Option Rsp :=
  match bayArgs c with
  | some r => (s, some r)
  | none =>
    if baySt c.target s ≠ bsQuar || !fon (R.FLT_BAY_STATUS_tested c.target) s then (s, some (rspErr stBadState))
    else (fwReturn c.target (baySet c.target bsIn bcAdmin 0 s), some rspOk)

/-! ## Self-test (R410, R417 to R419) -/

/-- What completes BAY_SELFTEST at intake. -/
def testIntake (c : Cmd) (s : State) : Option Rsp :=
  if 4 ≤ c.target then some (rspErr stBadId)
  else if 256 ≤ carg c 0x18 2 || !czero c 0x1A then some (rspErr stBadArg)
  else if s.hif.lops.any fun p => decide (p.2.opcode = 0x52) && !p.2.st.terminal then some (rspErr stBusy)
  else none

/-- Whether a Bay's charged use fits the others' uncharged capacity, reserve included, in every budget. -/
def fitsOthers (bay : Nat) (s : State) : Bool :=
  (List.range 7).all fun k =>
    decide (bayUsed bay k s ≤ (((List.range 4).filter fun b => decide (b ≠ bay) && bayIn b s).map fun b => bayFree b k s).foldl (· + ·) 0)

/-- The planned drain at its effect boundary (R418): legs, Acts and buckets move now; sessions and canvases at their own boundaries. -/
def drainStart (bay : Nat) (s : State) : State :=
  let s := baySet bay bsDrain bcAdmin 0 s
  let own := (List.range 4096).filter fun k => decide (steerBay k s = bay)
  let s := own.foldl (fun s k => drainNote drBucket k bay s) (steerAway s)
  encTurn (decTurn (ctlRehome bay true s))

/-- A self-test whose effect boundary has come begins, or is refused. -/
def testStart (b : Nat) (l : Lop) (s : State) : State :=
  let bay := l.cmd.target
  let others := (List.range 4).all fun k => decide (k = bay) || bayIn k s
  let refuse := fun (st : Nat) => lopEnd l.fn l.tag .failed st 0 0 false 0 b s
  if !others || !(baySt bay s = bsIn || baySt bay s = bsQuar) then refuse stBadState
  else if baySt bay s = bsIn && !fitsOthers bay s then refuse stCapacity
  else
    let q := decide (baySt bay s = bsQuar)
    let s := traceCommand 0x52 none 0 0 b l.cmd.args (lopBegin l.fn l.tag s)
    let s := fset (R.FLT_BAY_STATUS_failed bay) 0
      (testPut (some ⟨bay, carg l.cmd 0x18 2, l.fn, l.tag, q, q, false, 0, 0, 0, b⟩) s)
    if q then baySet bay bsTest bcAdmin 0 s else drainStart bay s

/-- A self-test that was suspended after its Bay was restored, done where it runs again. -/
def testResumed (b : Nat) (s : State) : State :=
  match s.flt.test with
  | some t => if t.restored then testRestored t b s else s
  | none => s

/-- Self-tests due at a boundary. -/
def testBoundary (b : Nat) (s : State) : State :=
  let s := testResumed b s
  s.hif.lops.foldl (fun s p =>
    match tfind s.hif.lops p.1 with
    | some l =>
      if l.opcode = 0x52 && l.st = .queued && (l.cmd.effectStamp = 0 || stampGe b l.cmd.effectStamp) then testStart b l s else s
    | none => s) s

/-- Whether nothing is left on a Bay that drains: no leg or Act, session, encode, canvas or item. -/
def drained (bay : Nat) (s : State) : Bool :=
  !(s.ctl.legs.any (fun p => decide (p.2.bay = bay)) || s.vid.sess.any (fun p => decide (p.2.bay = bay)) ||
    s.vid.encs.any (fun p => decide (p.2.bay = bay)) || s.vid.canvas.any (fun p => decide (p.2.comp = bay) && !p.2.suspended) ||
    s.crsl.items.any (fun p => onBay bay p.2))

/-- BAY_DRAIN_COMPLETE. -/
def execBayDrainComplete (bay : Nat) (s : State) : Out :=
  .next (match s.flt.test with
    | none => s
    | some t =>
      if t.bay = bay && baySt bay s = bsDrain && drained bay s then baySet bay bsTest bcAdmin 0 (testPut (some { t with drained := true }) s)
      else s)

/-- The next segment of a test, from segment `n` up. -/
def nextSeg (mask n : Nat) : Option Nat := (List.range 8).find? fun k => decide (n ≤ k) && (mask = 0 || bit mask k)

/-- A unit that failed its segment (R410): a core or tile is retired and its spare takes the role, which is logged (R405, R420); answers
whether that was so. -/
def unitFails (bay seg unit : Nat) (s : State) : Bool × State :=
  let i := unit % 2048
  if seg = 0 && unit / 2048 = 4 && coreCluster i / 8 = bay then
    let spare := decide (coreSt i s = csSpare) || coreSt i s = csRetired || (coreSpareFor i s).isSome
    let repl := if coreSt i s ≤ csRun then (coreSpareFor i s).elim 0 unitCore else 0
    let f : FaultRec := ⟨unitCore i, 2, if repl = 0 then 4 else 2, 0, repl, 0, unitCore i + repl * 65536, 0xFF, if repl = 0 then 2 else 1, 0⟩
    (spare, if spare && coreSt i s ≠ csRetired then coreRetire i (faultLog f s).2 else s)
  else if seg = 1 && unit / 2048 = 2 && tileBay i = bay then
    let st := fget (R.VCT_TILE_STATUS_state i) s
    let spare := decide (st ≠ 0) || (spareTile bay s).isSome
    (spare, if spare && st ≠ 2 then tileFail faultLog i s else s)
  else (false, s)

/-- A segment of the live test done. -/
def testSegment (seg : Nat) (failed : List Nat) (t : SelfTest) (s : State) : State :=
  let r := failed.foldl (fun (a : Bool × State) u => let q := unitFails t.bay seg u a.2; (a.1 && q.1, q.2)) (true, s)
  let ok := failed.isEmpty
  let t := { t with
    passed := if ok then t.passed + 2 ^ seg else t.passed
    failed := if ok then t.failed else t.failed + 2 ^ seg
    next := seg + 1 }
  let s := fset (R.FLT_BAY_STATUS_failed t.bay) t.failed (testPut (some t) r.2)
  if !r.1 then
    baySet t.bay bsQuar bcUnit 0 (drainKeep t.bay (testEnd t .failed stFailed 1 0 s))
  else match nextSeg t.mask (seg + 1) with
    | some _ => lopSafe t.fn t.tag (testCancel t) s
    | none =>
      if t.fromQ then
        let s := if t.mask = 0 then fset (R.FLT_BAY_STATUS_tested t.bay) 1 s else s
        testRestored t t.since (baySet t.bay bsQuar bcAdmin 0 s)
      else baySet t.bay bsRestore bcAdmin 0 s

/-- SELFTEST_SEGMENT_DONE: of the live self-test, or the core segment that suspect cores of the Bay run (R406); `failed` names the units
that failed it. -/
def execSelftestSegmentDone (bay seg : Nat) (failed : List Nat) (s : State) : Out :=
  .next (match s.flt.test with
    | some t =>
      if t.bay = bay && baySt bay s = bsTest && nextSeg t.mask t.next = some seg &&
          (match lopFind t.fn t.tag s with
           | some l => lopActive l
           | none => false) then testSegment seg failed t s
      else s
    | none =>
      if seg ≠ 0 then s
      else (s.crsl.testing.filter fun u => decide (coreCluster (u % 2048) / 8 = bay)).foldl (fun s u =>
        suspectTested (u % 2048) (failed.contains u) s) s)

/-- A Bay back in service at its return boundary: what was drained from it goes home (R418). -/
def bayReturns (b bay : Nat) (s : State) : State :=
  let s := baySet bay bsIn bcAdmin 0 s
  let mine := s.flt.drained.filter fun e => decide (e.bay = bay)
  let s := mine.foldl (fun s e =>
    if e.kind = drLeg then
      match tfind s.ctl.legs e.id with
      | some l => if l.bay = bay then s else drainForget drLeg e.id (legMove e.id bay true l s)
      | none => s
    else if e.kind = drAct then
      match tfind s.ctl.acts e.id with
      | some a => if a.bay = bay then s else drainForget drAct e.id (actMove e.id bay a s)
      | none => s
    else if e.kind = drBucket then drainForget drBucket e.id { s with frm := { s.frm with steer := tset s.frm.steer e.id bay } }
    else s) s
  let s := encTurn (decTurn s)
  match s.flt.test with
  | some t => if t.bay = bay then testRestored t b s else s
  | none => s

/-- The boundary's own changes of Bay states: a lost Bay whose re-home is complete is quarantined, a restored one returns. -/
def bayBoundary (b : Nat) (s : State) : State :=
  (List.range 4).foldl (fun s k =>
    if baySt k s = bsLost then baySet k bsQuar 0 0 s
    else if baySt k s = bsRestore then bayReturns b k s
    else s) s

/-! ## The Ringmaster's lockstep (R408) -/

/-- LOCKSTEP_MISMATCH: `same` says that a repeat of the work since the checkpoint mismatches where the last one did. The repeat reproduces
what was done, so that nothing else of the state changes (R415). -/
def execLockstepMismatch (same : Bool) (s : State) : Out :=
  .next (if fon R.FLT_RM_STATUS_single s || 3 ≤ s.flt.rolls then s
    else
      let n := if same then s.flt.rolls + 1 else 0
      let s := { s with flt := { s.flt with rolls := n } }
      if 3 ≤ n then s
      else
        let k := s.flt.rollsBlock + 1
        let s := (faultDeclare ⟨unitRm, 5, 7, 0, 0, 0, k, 0xFF, 1, 0⟩ { s with flt := { s.flt with rollsBlock := k } }).2
        raiseUnit EV_RM_ROLLBACK unitRm k (cinc 0x740120 s))

/-- RM_SELFTEST_DONE: the ROM self-tests of both cores after three consecutive rollbacks that mismatch at one point. -/
def execRmSelftestDone (pass0 pass1 : Bool) (s : State) : Out :=
  .next (if s.flt.rolls < 3 then s
    else if pass0 && pass1 then { s with flt := { s.flt with rolls := 0 } }
    else if !pass0 && !pass1 then s
    else
      let core := if pass0 then 0 else 1
      let s := (faultDeclare ⟨unitRm, 5, 8, 0, 0, 0, core, 0xFF, 3, 0⟩ { s with flt := { s.flt with
        rolls := 0
        rmFailed := [1 - core] } }).2
      raiseUnit EV_RM_SINGLE unitRm core (fset R.FLT_RM_STATUS_core core (fset R.FLT_RM_STATUS_single 1 s)))

/-! ## FAULTLOG_READ (R420) -/

/-- The bytes of the entry of an index; none where it is not retained (R383), or where a word of
it is uncorrectable (R381, R384). -/
def logEntry (i : Nat) (s : State) : Option (List Byte) :=
  if fget R.LDG_LOG_OLDEST_oldest s ≤ i && i < fget R.LDG_LOG_NEXT_next s && !s.ldg.bad.contains (faultLogAddr i / 64) then some (ledgerRead (faultLogAddr i) 64 s) else none

/-- FAULTLOG_READ: entries from an index up written to the host. -/
def applyFaultlogRead (c : Cmd) (s : State) : State × Rsp :=
  let a := carg c 0x18 8
  let n := carg c 0x20 4
  if a % 64 ≠ 0 || !within 1 64 n || !czero c 0x24 || (logEntry c.target s).isNone then (s, rspErr stBadArg)
  else
    let k := min n (fget R.LDG_LOG_NEXT_next s - c.target)
    if !hostOk a (64 * k) s then (s, rspErr stFailed)
    else
      let l := (List.range k).filterMap fun j => logEntry (c.target + j) s
      (hostWrite a l.flatten s, rspRes (l.length + fget R.LDG_LOG_OLDEST_oldest s * 2 ^ 32))

end Sys2Proof.Machine
end

