-- ==== Sys2Proof/Machine/Ddr.lean ====
section
/-! DEFINITION. The DRAM controllers' commands and their part of a block boundary (spec/15_dram_ledger.md R371 to R379), an uncorrectable
word of the Ledger, and the stamp floor (R382, R384). -/
namespace Sys2Proof.Machine

def chanCnt (c off : Nat) : Nat := 0x6C0000 + 0x4000 * c + off

/-! ## What is lost with a line or a channel -/

/-- A reference buffer that cannot be read (R267): a missing reference; its marks are cleared and it is free. -/
def bufLost (id i : Nat) (s : State) : State :=
  match tfind s.vid.sess id with
  | none => s
  | some x =>
    if (x.work.map (·.buf)) = some i || (x.bufs.getD i none).isNone || x.lost.contains i then s
    else
      let y := { x with lost := x.lost ++ [i] }
      match x.work with
      | none => sessMark id y.forget s
      | some k =>
        let hit := k.p.refs.filter fun j => decide (x.ref k.w k.p j = some i)
        if hit.isEmpty then sessPut id y s
        else
          let s := if k.miss then s else missingRef id x k.w k.p.sid k.start s
          sessPut id { y with work := some { k with
            refs := k.p.refs.map fun j => y.refShot k.w k.p j
            taint := true
            miss := true } } s

/-- Reference slots of a session that hold a buffer. -/
def slotsOf (x : Sess) (i : Nat) : List Nat := (x.slots.filter fun p => decide (p.2 = some i)).map (·.1)

/-- The buffers of sessions of which `hit` meets a byte range: the stream, the buffer. -/
def bufsHit (hit : Nat → Nat → Bool) (s : State) : List (Nat × Nat) :=
  (s.vid.sess.map fun p =>
    (((List.range p.2.bases.length).zip p.2.bases).filter fun q =>
      hit q.2 (bufferSize (codedDim p.2.codec p.2.maxW) (codedDim p.2.codec p.2.maxH))).map fun q => (p.1, q.1)).flatten

/-- An entry of a jitter ring that cannot be read: as a packet that never came. -/
def jrLost (id k : Nat) (s : State) : State :=
  match tfind s.ctl.streams id with
  | none => s
  | some st => streamPut id { st with jr := terase st.jr k } s

/-- An entry of a rewind ring that cannot be read. -/
def rwLost (id k : Nat) (s : State) : State :=
  match tfind s.egr.rings id with
  | none => s
  | some r => { s with egr := { s.egr with rings := tset s.egr.rings id { r with ents := terase r.ents k } } }

/-- What an Act is owed a report for: entries as they stand. -/
def owedOf (jr rw refs : List (Nat × Nat)) (s : State) : List Owed :=
  (jr.filterMap fun p => (tfind s.ctl.streams p.1).bind fun st => (tfind st.jr p.2).map fun e => ⟨streamAct st s, 0, p.1, p.2, e.release⟩) ++
  (rw.filterMap fun p => match tfind s.ctl.streams p.1, tfind s.egr.rings p.1 with
    | some st, some r => (tfind r.ents p.2).map fun _ => ⟨streamAct st s, 1, p.1, p.2, none⟩
    | _, _ => none) ++
  (refs.map fun p => match tfind s.ctl.streams p.1, tfind s.vid.sess p.1 with
    | some st, some x => (slotsOf x p.2).map fun k => (⟨streamAct st s, 2, p.1, k, none⟩ : Owed)
    | _, _ => []).flatten

/-- Whether an entry is still lost at block `b`: not rewritten, not released. -/
def owedStill (b : Nat) (o : Owed) (s : State) : Bool :=
  match o.kind with
  | 0 => (match tfind s.ctl.streams o.id with
    | none => false
    | some st => (tfind st.jr o.key).isNone && (match o.release with
      | none => true
      | some r => stampAfter r b))
  | 1 => (match tfind s.egr.rings o.id with
    | none => false
    | some r => (tfind r.ents o.key).isNone)
  | _ => (match tfind s.vid.sess o.id with
    | none => false
    | some x => decide (tfind x.slots o.key = some none))

/-- Everything named lost. -/
def dataLost (jr rw refs : List (Nat × Nat)) (s : State) : State :=
  let s := jr.foldl (fun s p => jrLost p.1 p.2 s) s
  let s := rw.foldl (fun s p => rwLost p.1 p.2 s) s
  refs.foldl (fun s p => bufLost p.1 p.2 s) s

/-- The Acts that are owed a report reported (R379). -/
def owedReport (s : State) : State :=
  (s.ddr.owed.foldl (fun (l : List Nat) o => if l.contains o.act then l else l ++ [o.act]) []).foldl (fun s a => determinismLost a 4 s) s

/-! ## ECC (R371, R373) -/

/-- A table's entries whose block lies within the last `n` blocks. -/
def within_ (n : Nat) (t : Tbl Nat) (s : State) : Tbl Nat := t.filter fun p => decide (stampSub s.clk.stamp p.2 < n)

/-- DDR_ECC_CORRECTED: a corrected error of a row of a device of a subchannel. -/
def execDdrEccCorrected (ch sub dev row : Nat) (s : State) : Out :=
  if !chanUp ch s then .next s
  else
    let s := cinc (chanCnt ch 0x50) s
    let k := ch * 32 + sub * 16 + dev
    let t := tset (within_ 2000000 (tget [] s.ddr.rows k) s) row s.clk.stamp
    if t.length < 16 then .next { s with ddr := { s.ddr with rows := tset s.ddr.rows k t } }
    else
      let s := { s with ddr := { s.ddr with rows := terase s.ddr.rows k } }
      let s := raiseUnit EV_DDR_DEVICE_SUSPECT (unitDdr ch) (ch + sub * 16 + dev * 256) (fset (R.DDR_CH_STATUS_device_suspect ch) 1 s)
      .next (suspectReport (unitDdr ch) 3 s).2

/-- DDR_ECC_UNCORRECTABLE: line `line` (device address / 64) cannot be corrected on a channel that holds it; `both` that the other copy of a
mirrored region cannot either; `jr` and `rw` the ring entries that the line held. -/
def execDdrEccUncorrectable (ch line : Nat) (both : Bool) (jr rw : List (Nat × Nat)) (s : State) : Out :=
  let on := lineOn line s
  if !chanUp ch s || !on.contains ch then .next s
  else
    let s := cinc (chanCnt ch 0x58) s
    let s := match rateOk (rateKey EV_DDR_UNCORR ch) 2000 s with
      | (true, s) => raiseUnit EV_DDR_UNCORR (unitDdr ch) (ch + line * 256) s
      | (false, s) => s
    let t := tset (within_ 2000 (tget [] s.ddr.lines ch) s) line s.clk.stamp
    let s := { s with ddr := { s.ddr with lines := tset s.ddr.lines ch t } }
    let s := if 64 < t.length && !s.ddr.due.contains (ch, 2) then { s with ddr := { s.ddr with due := s.ddr.due ++ [(ch, 2)] } } else s
    if 1 < on.length && !both then .next s
    else
      let s := { s with mem := { s.mem with poison := if s.mem.poison.contains line then s.mem.poison else s.mem.poison ++ [line] } }
      .next (dataLost jr rw (bufsHit (fun a n => decide (64 * line < a + n) && decide (a < 64 * line + 64)) s) s)

/-! ## Parity (R377) -/

/-- DDR_CA_PARITY_ALERT: an alert; `same` that it came in the replay of the command that the last one came for.  Three replays in a row of
one command that each raise an alert lose the channel. -/
def execDdrCaParityAlert (ch : Nat) (same : Bool) (s : State) : Out :=
  if !chanUp ch s then .next s
  else
    let k := if same then tget 0 s.ddr.alerts ch + 1 else 0
    if k = 3 then
      .next (cinc (chanCnt ch 0x68) { s with ddr := { s.ddr with
        alerts := terase s.ddr.alerts ch
        due := s.ddr.due ++ [(ch, 1)] } })
    else .next (cinc (chanCnt ch 0x60) { s with ddr := { s.ddr with alerts := tset s.ddr.alerts ch k } })

/-! ## Loss (R378, R379) -/

/-- Mirrored regions with a copy on a channel: their places. -/
def mirroredOn (ch : Nat) (s : State) : List Nat :=
  (((List.range (regions s).length).zip (regions s)).filter fun p => decide (p.2.mirror = 1) && (mirrorOn p.1 p.2 s).contains ch).map (·.1)

/-- Whether a byte range holds a stripe of an interleaved region on a channel. -/
def rangeOn (ch a n : Nat) (s : State) : Bool :=
  match regionAtAddr a s with
  | none => false
  | some (_, g) =>
    decide (g.mirror = 0) &&
      (List.range ((a + n + 4095) / 4096 - a / 4096)).any fun i =>
        decide (stripeChan s.ddr.pop (lossesBack s) (stripeNo g a s + i) = some ch)

/-- A channel declared LOST with a cause. -/
def channelLost (ch cause : Nat) (jr rw : List (Nat × Nat)) (s : State) : State :=
  let refs := bufsHit (fun a n => rangeOn ch a n s) s
  let owed := owedOf jr rw refs s
  let reserve : Tbl Nat := ((chansUp s).filter fun c => decide (c ≠ ch)).map fun c => (c, chanFree c s)
  let moved := stripesOn s.ddr.pop (lossesBack s) (stripesAll s) ch
  let detail := ch + cause * 16
  let s := (faultDeclare ⟨unitDdr ch, 4, 6, cause, 0, min moved (fillTotal reserve), detail, 0xFF, severity EV_DDR_CHANNEL_LOST detail, 0⟩ s).2
  let mir := mirroredOn ch s
  let s := fset (R.DDR_CH_STATUS_state ch) 3 { s with ddr := { s.ddr with
    losses := s.ddr.losses ++ [⟨ch, reserve, false⟩]
    mirrors := mir.foldl (fun t i => match (regions s)[i]? with
      | some g => tset t i ((mirrorOn i g s).filter fun c => decide (c ≠ ch))
      | none => t) s.ddr.mirrors
    copies := s.ddr.copies.filter fun k => decide (k.ch ≠ ch)
    due := s.ddr.due.filter fun d => decide (d.1 ≠ ch)
    lines := terase s.ddr.lines ch
    alerts := terase s.ddr.alerts ch
    owed := s.ddr.owed ++ owed } }
  let s := raiseUnit EV_DDR_CHANNEL_LOST (unitDdr ch) detail s
  let s := mir.foldl (fun s i => raiseUnit EV_DDR_MIRROR_DEGRADED (unitDdr ch) i s) s
  owedReport (dataLost jr rw refs s)

/-- DDR_CHANNEL_LOSS: the Safety Net declares a channel LOST for a cause that is due, or for a failed training; `jr` and `rw` are the ring
entries whose stripes it held. -/
def execDdrChannelLoss (ch cause : Nat) (jr rw : List (Nat × Nat)) (s : State) : Out :=
  if chanUp ch s && (s.ddr.due.contains (ch, cause) || cause = 3) then .next (channelLost ch cause jr rw s) else .next s

/-! ## The block boundary -/

/-- The stripes of a lost channel remapped (R378). -/
def stripeRemap (before : List ChLoss) (x : ChLoss) (s : State) : State :=
  let moved := stripesOn s.ddr.pop before (stripesAll s) x.ch
  let n := min moved (fillTotal x.reserve)
  let gone := fun (l : Nat) => match regionAtAddr (64 * l) s with
    | some (_, g) => decide (g.mirror = 0) && decide (stripeChan s.ddr.pop before (stripeNo g (64 * l) s) = some x.ch)
    | none => false
  let s := { s with ddr := { s.ddr with fresh := s.ddr.fresh.filter fun l => !gone l } }
  let s := fset (R.DDR_CH_REMAP_remapped x.ch) n (fset (R.DDR_CH_REMAP_poisoned x.ch) (moved - n) s)
  raiseUnit EV_DDR_REMAP_DONE (unitDdr x.ch) (n + (moved - n) * 2 ^ 32) s

/-- The losses not yet remapped, remapped in the order they came. -/
def remapRun (l before : List ChLoss) (s : State) : State :=
  match l with
  | [] => s
  | x :: r => remapRun r (x :: before) (if x.done then s else stripeRemap before x s)

/-- The survivor that a mirrored region's new copy goes to: the most free reserve, the lowest channel on a tie. -/
def copyTarget (need : Nat) (holders : List Nat) (s : State) : Option Nat :=
  argMax (((chansUp s).filter fun c => !holders.contains c && decide (need ≤ chanFree c s)).map fun c => (c, (chanFree c s : Int)))

/-- A degraded region without a copy under way begins one. -/
def copyStart (p : Nat × Region) (s : State) : State :=
  let on := mirrorOn p.1 p.2 s
  if p.2.mirror ≠ 1 || on.length ≠ 1 || s.ddr.copies.any (fun k => decide (k.region = p.1)) then s
  else match copyTarget (p.2.size / 4096) on s with
    | some c => { s with ddr := { s.ddr with copies := s.ddr.copies ++ [⟨p.1, c, 0⟩] } }
    | none => s

/-- One granule of a region's copy; the copy's end. -/
def copyStep (k : MirCopy) (s : State) : State :=
  match (regions s)[k.region]? with
  | none => { s with ddr := { s.ddr with copies := s.ddr.copies.filter fun c => decide (c ≠ k) } }
  | some g =>
    let others := s.ddr.copies.filter fun c => decide (c ≠ k)
    if g.size ≤ (k.next + 1) * 2 ^ 21 then
      raiseUnit EV_DDR_MIRROR_RESTORED (unitDdr k.ch) (k.region + k.ch * 65536)
        { s with ddr := { s.ddr with
          copies := others
          mirrors := tset s.ddr.mirrors k.region (mirrorOn k.region g s ++ [k.ch]) } }
    else { s with ddr := { s.ddr with copies := others ++ [{ k with next := k.next + 1 }] } }

/-- The patrol scrubber of a channel (R374). -/
def scrubRun (c : Nat) (s : State) : State :=
  let n := fget (R.DDR_CH_CFG_scrub_lines c) s
  let size := fget (R.DDR_CH_STATUS_gib c) s * 2 ^ 24
  cadd (chanCnt c 0x70) n { s with ddr := { s.ddr with scrub := tset s.ddr.scrub c ((tget 0 s.ddr.scrub c + n) % size) } }

/-- The controllers at boundary `b`: remapping, copies, scrubbing, reports of lost data. -/
def ddrBoundary (b : Nat) (s : State) : State :=
  let s := if s.ddr.losses.all (·.done) then s
    else
      let s := remapRun s.ddr.losses [] s
      { s with ddr := { s.ddr with losses := s.ddr.losses.map fun x => { x with done := true } } }
  let s := if s.ddr.losses.isEmpty then s
    else
      let s := ((List.range (regions s).length).zip (regions s)).foldl (fun s p => copyStart p s) s
      s.ddr.copies.foldl (fun s k => copyStep k s) s
  let s := (chansUp s).foldl (fun s c => scrubRun c s) s
  owedReport { s with ddr := { s.ddr with owed := s.ddr.owed.filter fun o => owedStill b o s } }

/-- DDR_RETRAIN_PAUSE (R376): a pause of `ns` on a channel in the block whose turn it is. -/
def execDdrRetrainPause (ch ns : Nat) (s : State) : Out :=
  if chanUp ch s && s.clk.stamp % 64 = 5 * ch % 64 then
    .next (cinc (chanCnt ch 0x78) (fset (R.DDR_CH_RETRAIN_ns ch) ns (fset (R.DDR_CH_RETRAIN_stamp ch) s.clk.stamp s)))
  else .next s

/-! ## The Ledger's rows (R382, R384) -/

/-- Whether 65,536 blocks have passed since the stamp floor in force was written. -/
def floorDue (s : State) : Bool :=
  match (hdrNow s).floor with
  | some f => stampGe s.clk.stamp f
  | none => true

/-- STAMP_FLOOR_WRITE (R382): every 65,536 blocks the floor is written as the current stamp + 65,536. -/
def execStampFloorWrite (s : State) : Out :=
  if s.clk.running && floorDue s then .next (hdrWrite (fun h => { h with floor := some (stampAdd s.clk.stamp 65536) }) s) else .next s

/-- LEDGER_ECC (R384): the word at a Ledger address is uncorrectable; the record that holds it is ignored (R381).  Where the address lies in
the headers, `copy` says which record (0 A, 1 B). -/
def execLedgerEcc (addr copy : Nat) (s : State) : Out :=
  let s := raiseUnit EV_LDG_ECC unitRm addr (cinc 0x7C0110 s)
  let l := s.ldg
  let l := if addr < 0x10000 then (if copy = 0 then { l with hdrA := { l.hdrA with ok := false } } else { l with hdrB := { l.hdrB with ok := false } })
    else if addr < 0x820000 then { l with bad := if l.bad.contains (addr / 64) then l.bad else l.bad ++ [addr / 64] }
    else if addr < 0xE20000 then { l with bankA := { l.bankA with ok := false } }
    else if addr < 0x1420000 then { l with bankB := { l.bankB with ok := false } }
    else l
  .next (ldgSync { s with ldg := l })

end Sys2Proof.Machine
end

