-- ==== Sys2Proof/Machine/Pwr.lean ====
section
/-! DEFINITION. The keeper: boot, stops and saves, resets, supply, hold-up, clocks, temperature, watchdog, SPI NOR
(spec/18_power_clocks_boot.md). -/
namespace Sys2Proof.Machine

/-! ## Phases (R437) -/

def phase (s : State) : Nat := fget R.PWR_STATUS_phase s
def phaseTo (p : Nat) (s : State) : State := fset R.PWR_STATUS_phase p s
def inPhase (p : Nat) (f : State → State) (s : State) : Out := .next (if phase s = p then f s else s)

/-- Phases in which a stop has no effect (R430, R437). -/
def phaseDead (s : State) : Bool := [phKeepOn, phRomFail, phStopping, phSaving, phStopped].contains (phase s)

/-- Causes of a stop in last_stop's code (R442). -/
def lsSagSaved : Nat := 1
def lsSagUnsaved : Nat := 2
def lsReset : Nat := 3
def lsThermal : Nat := 4
def lsWatchdog : Nat := 5
def lsKeeper : Nat := 6

/-! ## The save area and the main domains -/

/-- Each scope's generation. -/
def gensNow (s : State) : Tbl Nat := (List.range 17).map fun k => (k, generation k s)

/-- The counters that a save holds (R463): by address. -/
def savedCnt (s : State) : Tbl Nat :=
  let legOffs := [0x000, 0x008, 0x020, 0x030, 0x078, 0x080, 0x088, 0x0A0, 0x0C0, 0x0C8, 0x0D0, 0x0D8, 0x0E0, 0x0E8, 0x108, 0x110]
  s.cnt.filter fun p =>
    if p.1 < 2 ^ 44 then decide (p.1 < 2 ^ 32)
    else
      let k := (p.1 - 2 ^ 44) / 512 / 2 ^ 20
      let o := (p.1 - 2 ^ 44) % 512
      if k = 0 then legOffs.contains o else if k = 2 then true else decide (k = 1) && decide (o = 0xD8)

/-- The block stamp that the Ledger holds as saved (R382): the greater of the newest save's and the newest floor; none where there is
neither. -/
def stampSaved (s : State) : Option Nat :=
  let a := (bankNewest s).map fun _ => (bankNow s).stamp
  match a, (hdrNow s).floor with
  | some x, some y => some (if stampAfter y x then y else x)
  | some x, none => some x
  | none, y => y

/-- What a save would hold now (R429, R430): before RUN the stamp is the saved one, and the tables are left out. -/
def saveNow (stop : Nat) (s : State) : LdgSave :=
  let run := decide (phase s = phRun)
  ⟨0, true, if s.clk.running then s.clk.stamp else (stampSaved s).getD 0, gensNow s, stop, fget R.PWR_BOOT_FW_slot s, s.pwr.imgSlot, run,
    if run then tkeys s.ctl.legs else [], if run then tkeys s.ctl.acts else [], if run then savedCnt s else [], 0⟩

/-- Whether a register is held in the keeper domain or in one-time storage: GLB_AON_CFG, KEY_ZEROISE_STATUS, FRM_SIGNER's provisioned and
revoked slots, the PWR and LDG windows (R143, R434, R442). -/
def keeperAddr (a : Nat) : Bool :=
  decide (a = R.GLB_AON_CFG_smb_ctl.addr) || decide (a = R.KEY_ZEROISE_STATUS_cause.addr) || decide (a = R.FRM_SIGNER_provisioned.addr)
    || decide (a = R.FRM_SIGNER_revoked.addr) || (decide (0x780000 ≤ a) && decide (a < 0x800000))

/-- The main domains and the Ringmaster at reset (R434): the Ledger, SPI NOR, the keeper's registers and counters, one-time storage, the
slots' generations, the host's side and what the part has shown stay. -/
def mainReset (s : State) : State :=
  { State.reset with
    mem := { State.reset.mem with
      host := s.mem.host
      ledger := s.mem.ledger
      spi := s.mem.spi
      hostFail := s.mem.hostFail
      linkUp := s.mem.linkUp }
    regs := s.regs.filter fun p => keeperAddr (p.1 / 64)
    cnt := s.cnt.filter fun p => keeperAddr p.1
    cntSh := s.cntSh.filter fun p => keeperAddr p.1
    frm := { State.reset.frm with
      keyHash := s.frm.keyHash
      wrapKey := s.frm.wrapKey }
    key := { State.reset.key with
      slots := tmap s.key.slots fun _ k => { KeySlot.empty with gen := k.gen }
      zreq := s.key.zreq }
    flt := { State.reset.flt with
      boots := s.flt.boots
      retired := s.flt.retired }
    ldg := s.ldg
    pwr := s.pwr
    out := s.out
    free := s.free
    pending := s.pending }

/-! ## SPI NOR (R436, R439) -/

/-- Bytes of SPI NOR set to what nothing defines. -/
def spiUndefined (a n : Nat) (s : State) : State :=
  let f := takeFree s
  spiWrite a ((List.range n).map fun i => BitVec.ofNat 8 (Config.spiLeft f.1 i)) f.2

/-- An SPI operation in progress at a stop (R430): an erase or program is aborted, its sector's contents undefined. -/
def spiAbort (s : State) : State :=
  match s.pwr.spi with
  | none => s
  | some (op, a) =>
    let s := fset R.PWR_SPI_STATUS_busy 0 (fset R.PWR_SPI_STATUS_result 3 { s with pwr := { s.pwr with spi := none } })
    if op = 1 || op = 2 then spiUndefined (a / 65536 * 65536) 65536 s else s

/-- A go with an operation: ignored with collision while busy. -/
def spiGo (op : Nat) (s : State) : State :=
  if fon R.PWR_SPI_STATUS_busy s then fset R.PWR_SPI_STATUS_collision 1 s
  else fset R.PWR_SPI_STATUS_busy 1 { s with pwr := { s.pwr with spi := some (op, fget R.PWR_SPI_ADDR_addr s) } }

def execSpiErase (s : State) : Out := .next (spiGo 1 s)
def execSpiProgram (s : State) : Out := .next (spiGo 2 s)
def execSpiRead (s : State) : Out := .next (spiGo 3 s)
def execSpiVerifyFw (s : State) : Out := .next (spiGo 4 s)
def execSpiVerifyImage (s : State) : Out := .next (spiGo 5 s)

/-- The magic of a firmware package and its largest code (R436). -/
def fwRmMagic : Nat := 0x4652515A
def fwRmMax : Nat := 2096816

/-- The R69 code of firmware slot 0 (A) or 1 (B). -/
def fwSlotCode (slot : Nat) (s : State) : Nat :=
  let base := slot * 0x200000
  let n := le (spiRead base 128 s) 0x10 4
  fwCheck fwRmMagic fwRmMax (spiRead base (min n fwRmMax + 328) s) s

/-- The image in image slot 0 (A) or 1 (B). -/
def imgSlotBytes (slot : Nat) (s : State) : List Byte :=
  let base := 0x400000 + slot * 0x1000000
  spiRead base (max 128 (min maxImage (le (spiRead base 128 s) 0x14 4))) s

/-- The plain bodies of an image's ENCRYPTED timbers. -/
def imgPlain (img : List Byte) (key : List Nat) : Tbl (List Byte) :=
  (encEntries img).foldl (fun t p => tset t p.1 (plainOf img key p.2)) []

/-- Steps 1 to 5 of R53 on an image: a reason and the timber, or the key and plain bodies. -/
def imgVerify (img : List Byte) (s : State) : Except (Nat × Nat) (Tbl (List Byte)) :=
  match signPhase img true img.length s with
  | .error e => .error e
  | .ok key =>
    if 32 * 2 ^ 20 < imgNeed img then .error (frTooLarge, 0xFF)
    else match (encEntries img).find? fun p => !tagOk img key p.2 with
      | some (i, _) => .error (frTagFail, i)
      | none => .ok (imgPlain img key)

/-- SPI_OP_DONE: the operation in progress ends; `err` that the part failed it. -/
def execSpiOpDone (err : Bool) (s : State) : Out :=
  .next (match s.pwr.spi with
    | none => s
    | some (op, a) =>
      let s := fset R.PWR_SPI_STATUS_busy 0 (fset R.PWR_SPI_STATUS_reason 0 { s with pwr := { s.pwr with spi := none } })
      let fin := fun (r : Nat) (s : State) => fset R.PWR_SPI_STATUS_result r s
      let align := if op = 1 then 65536 else if op = 2 || op = 3 then 256 else 1
      if 0x2400000 ≤ a || a % align ≠ 0 then fin 1 s
      else if err then fin 2 (if op = 1 then spiUndefined a 65536 s else if op = 2 then spiUndefined a 256 s else s)
      else match op with
        | 1 => fin 0 (spiWrite a (List.replicate 65536 0xFF) s)
        | 2 => fin 0 (spiWrite a ((List.range 64).map fun n => leBytes 4 (fget (R.PWR_SPI_BUF_word n) s)).flatten s)
        | 3 =>
          let p := spiRead a 256 s
          fin 0 ((List.range 64).foldl (fun s n => fset (R.PWR_SPI_BUF_word n) (le p (4 * n) 4) s) s)
        | 4 => fin 0 (fset R.PWR_SPI_STATUS_reason (fwSlotCode (a % 2) s) s)
        | _ => fin 0 (fset R.PWR_SPI_STATUS_reason (match imgVerify (imgSlotBytes (a % 2) s) s with
            | .error (r, _) => r
            | .ok _ => 0) s))

/-! ## Stops (R428 to R430, R434) -/

/-- A device-scope stop with a cause: keys zeroised, what a save holds kept, the main domains stopped; phase STOPPING. -/
def stopDevice (cause : Nat) (save : Bool) (s : State) : State :=
  let zc := if cause = lsSagSaved || cause = lsSagUnsaved then 5 else if cause = lsThermal then 6 else if cause = lsReset then 7 else 8
  let s := spiAbort (zeroise .device zc s)
  let rec_ := if save then some (saveNow cause s) else none
  let s := { s with pwr := { s.pwr with
    stop := some cause
    save := rec_
    pulsed := false
    single := none
    kicks := 0 } }
  let s := if cause = lsSagUnsaved then cinc 0x780210 s else s
  fset R.PWR_STATUS_last_stop cause (phaseTo phStopping (mainReset s))

/-- SUPPLY_SAG (R428): PWR_GOOD low for 1 µs, or the monitors of `rails` tripped.  In ROM_FAIL it only waits for power (R437). -/
def execSupplySag (rails : Nat) (s : State) : Out :=
  .next (if phase s = phRomFail then { s with pwr := { s.pwr with pulsed := true } }
    else if phaseDead s then s
    else
      let armed := fon R.PWR_HOLDUP_STATUS_armed s
      stopDevice (if armed then lsSagSaved else lsSagUnsaved) armed (fset R.PWR_RAIL_tripped rails s))

/-- The acknowledge of a stop's zeroisation ends STOPPING (R437). -/
def stopAck (s : State) : State :=
  if phase s ≠ phStopping then s
  else if s.pwr.save.isSome then phaseTo phSaving s
  else phaseTo phStopped (fset R.LDG_STATUS_saved_last_off 0 s)

/-- ZEROISE_ACK (R139): the key store acknowledges the request. -/
def execZeroiseAck (s : State) : Out :=
  .next (if s.key.zreq then stopAck { s with key := { s.key with zreq := false } } else s)

/-- SAVE_COMPLETE (R381, R429): the save written to the bank that does not hold the newest, the header with the stop's cause and the floor. -/
def execSaveComplete (s : State) : Out :=
  .next (match s.pwr.save with
    | none => s
    | some v =>
      if phase s ≠ phSaving then s
      else
        let toA := decide (bankNewest s ≠ some true)
        let w := (if toA then s.ldg.bankA.writes else s.ldg.bankB.writes) + 1
        let v := { v with
          seq := ((bankNow s).seq + 1) % 2 ^ 32
          writes := w }
        let s := { s with ldg := if toA then { s.ldg with bankA := v } else { s.ldg with bankB := v } }
        let s := wearCheck w (if toA then 0x820000 else 0xE20000) (cinc 0x7C0100 (cinc 0x780208 s))
        let s := hdrWrite (fun h => { h with
          lastStop := v.lastStop
          gens := v.gens
          saves := h.saves + 1
          tripped := fget R.PWR_RAIL_tripped s
          floor := some (stampAdd v.stamp 65536) }) s
        phaseTo phStopped (fset R.LDG_STATUS_saved_last_off 1 { s with pwr := { s.pwr with save := none } }))

/-- SYS_RESET: SYS_RST_N low for 1 µs (R434); in FW_FAIL and ROM_FAIL its pulse begins a boot; in STOPPED it is noted (R437). -/
def execSysReset (s : State) : Out :=
  .next (if phase s = phFwFail then phaseTo phRom s
    else if phase s = phRomFail then phaseTo phRom (mainReset (zeroise .device 7 s))
    else if phase s = phStopped then { s with pwr := { s.pwr with pulsed := true } }
    else if phaseDead s then s
    else stopDevice lsReset true s)

/-- STOPPED_RELEASE: PWR_GOOD high for 100 ms and SYS_RST_N high; after a thermal trip every sensor cool and a pulse of SYS_RST_N too.
ROM_FAIL leaves by it after PWR_GOOD was low (R437). -/
def execStoppedRelease (s : State) : Out :=
  .next (if phase s = phRomFail then (if s.pwr.pulsed then phaseTo phRom (mainReset (zeroise .device 5 s)) else s)
    else if phase s ≠ phStopped then s
    else if s.pwr.stop = some lsThermal && !(s.pwr.cool && s.pwr.pulsed) then s
    else phaseTo phRom s)

/-- The LDG registers that show what the Ledger itself holds (LDG_STATUS, the log's indices, the stamps of R387). -/
def ledgerOwn (a : Nat) : Bool := decide (0x7C0000 ≤ a) && decide (a < 0x7C0020)

/-- KEEPER_RESET: KEEP_RST_N low or brown-out (R434): the whole part but the Ledger, SPI NOR and one-time storage.  After a finished stop
the Ledger's header still says what stopped the part.  SMB_ADDR_SEL is sampled (R94). -/
def execKeeperReset (s : State) : Out :=
  let dead := decide (phase s = phStopped) || decide (phase s = phKeepOn)
  let t := mainReset s
  let t := { t with
    regs := s.regs.filter fun p => decide (p.1 / 64 = R.FRM_SIGNER_provisioned.addr) || decide (p.1 / 64 = R.FRM_SIGNER_revoked.addr)
      || ledgerOwn (p.1 / 64)
    cnt := []
    cntSh := []
    key := State.reset.key
    pwr := { State.reset.pwr with
      stop := if dead then none else some lsKeeper
      strap := Config.smbStrap % 4 } }
  .next (if dead then t else fset R.LDG_STATUS_saved_last_off 0 (fset R.PWR_STATUS_last_stop lsKeeper t))

/-! ## Boot (R437, R438) -/

/-- BOOT_START. -/
def execBootStart (s : State) : Out := inPhase phKeepOn (phaseTo phRom) s

/-- ROM_SELFTEST_DONE: which cores pass (R408, R437). -/
def execRomSelftestDone (pass0 pass1 : Bool) (s : State) : Out :=
  inPhase phRom (fun s =>
    if !pass0 && !pass1 then phaseTo phRomFail { s with pwr := { s.pwr with
      held := true
      pulsed := false } }
    else if pass0 && pass1 then phaseTo phFw { s with pwr := { s.pwr with single := none } }
    else
      let core := if pass0 then 0 else 1
      phaseTo phFw (fset R.FLT_RM_STATUS_core core (fset R.FLT_RM_STATUS_single 1 { s with
        pwr := { s.pwr with single := some core }
        flt := { s.flt with rmFailed := [1 - core] } }))) s

/-- FW_VERIFY_DONE: slot A, and slot B where A fails (R436, R437). -/
def execFwVerifyDone (s : State) : Out :=
  inPhase phFw (fun s =>
    let a := fwSlotCode 0 s
    let b := if a = 0 then 0 else fwSlotCode 1 s
    let s := fset R.PWR_BOOT_FW_slot_a a (fset R.PWR_BOOT_FW_slot_b b s)
    if a ≠ 0 && b ≠ 0 then phaseTo phFwFail s
    else phaseTo phLedger (fset R.PWR_BOOT_FW_slot (b2n (decide (a ≠ 0))) s)) s

/-- Retired units as the Ledger's table gives them: entries of uncorrectable words are ignored. -/
def retiredRead (s : State) : List Nat :=
  ((List.range s.flt.retired.length).zip s.flt.retired).filterMap fun p => if s.ldg.bad.contains ((0x10000 + 2 * p.1) / 64) then none else some p.2

/-- LEDGER_READ_DONE: the headers read, the boot count advanced, tables loaded, an entry that ROM_FAIL held written. -/
def execLedgerReadDone (s : State) : Out :=
  inPhase phLedger (fun s =>
    let h := hdrNow s
    let n := h.boots + 1
    let unsaved := min cntMax (max h.unsaved (cget 0x780210 s))
    let s := hdrWrite (fun h => { h with
      boots := n
      unsaved := unsaved }) { s with flt := { s.flt with
      boots := n
      retired := retiredRead s } }
    let s := { s with cnt := tset (tset (tset s.cnt 0x780200 (min cntMax n)) 0x780208 (min cntMax h.saves)) 0x780210 unsaved }
    let last := s.pwr.stop.getD h.lastStop
    let s := fset R.PWR_STATUS_last_stop last (fset R.PWR_RAIL_tripped h.tripped s)
    let s := if s.pwr.held then (faultLog ⟨unitRm, 5, 0, 0, 0, 0, 0, 0xFF, 3, 0⟩ { s with pwr := { s.pwr with held := false } }).2 else s
    phaseTo phImage (fset R.FRM_STATUS_state 1 s)) s

/-- An image slot at boot (R53, R56, R57): a reason, or the image and its structure. -/
def imgBoot (slot : Nat) (s : State) : Except Nat (List Byte × List Timber) :=
  let img := imgSlotBytes slot s
  match imgVerify img s with
  | .error (r, _) => .error r
  | .ok plain => match checkFail img plain [] with
    | .error _ => .error frCheckFail
    | .ok m => .ok (img, m)

/-- An image put in force at boot. -/
def imgTake (slot : Nat) (img : List Byte) (m : List Timber) (s : State) : State :=
  let s := fullApply img m (fset R.FRM_STATUS_boot_slot slot (fset R.FRM_STATUS_fallback slot s))
  phaseTo phClocks { s with pwr := { s.pwr with imgSlot := slot } }

/-- IMAGE_LOAD_DONE: slot A, and slot B where A fails; both failing, NO_IMAGE (R57, R58). -/
def execImageLoadDone (s : State) : Out :=
  inPhase phImage (fun s =>
    match imgBoot 0 s with
    | .ok (img, m) => imgTake 0 img m (fset R.FRM_BOOT_INFO_slot_a_code 0 (fset R.FRM_BOOT_INFO_slot_b_code 0 s))
    | .error a =>
      let s := fset R.FRM_BOOT_INFO_slot_a_code a s
      match imgBoot 1 s with
      | .ok (img, m) => imgTake 1 img m (fset R.FRM_BOOT_INFO_slot_b_code 0 s)
      | .error b => phaseTo phNoImage (fset R.FRM_STATUS_state 3 (fset R.FRM_BOOT_INFO_slot_b_code b s))) s

/-- The reference goodness bits. -/
def refGood (r : Nat) (s : State) : Bool := if r = 0 then fon R.PWR_CLK_STATUS_a_good s else fon R.PWR_CLK_STATUS_b_good s
def refGoodPut (r : Nat) (v : Bool) (s : State) : State :=
  if r = 0 then fset R.PWR_CLK_STATUS_a_good (b2n v) s else fset R.PWR_CLK_STATUS_b_good (b2n v) s

/-- CLOCKS_LOCKED: the PLLs lock to the clock plan's primary reference, or to the other where that one is not good (R431, R433); `a` and
`b` say which references are good. -/
def execClocksLocked (a b : Bool) (s : State) : Out :=
  inPhase phClocks (fun s =>
    let p := planRefclk s
    let s := refGoodPut 0 a (refGoodPut 1 b s)
    let r := if refGood p s then p else 1 - p
    let s := fset R.PWR_CLK_STATUS_ref r s
    let good := refGood r s
    phaseTo phDram (fset R.PWR_CLK_STATUS_keeper_osc (b2n !good) (fset R.PWR_CLK_STATUS_holdover (b2n !good) s))) s

/-- The code of a DRAM rate. -/
def rateCode (r : Nat) : Nat := if r = 6400 then 0 else if r = 5600 then 1 else 2

/-- DRAM_TRAIN_DONE: `chans` trained with an RDIMM of the plan's size (R368, R370); kind-7 regions are zeroed. -/
def execDramTrainDone (chans : List Nat) (s : State) : Out :=
  inPhase phDram (fun s =>
    let plan := planChans (devBody s.frm.timbers tyMem)
    let pop := plan.filter fun c => chans.contains c
    let s := plan.foldl (fun s c =>
      fset (R.DDR_CH_STATUS_state c) (if chans.contains c then 2 else 0)
        (fset (R.DDR_CH_STATUS_gib c) (chanGib c s) (fset (R.DDR_CH_STATUS_rate c) (rateCode (planDdrRate s)) s))) s
    if !planFits pop s then phaseTo phNoImage (fset R.FRM_STATUS_state 3 s)
    else
      let z := (regions s).filter fun g => decide (g.kind = 7)
      phaseTo phBays { s with
        ddr := { s.ddr with pop := pop }
        mem := { s.mem with dram := s.mem.dram.filter fun c => !z.any fun g => decide (g.base ≤ c.1) && decide (c.1 < g.base + g.size) } }) s

/-- BAYS_UP_DONE: a Bay that fails is QUARANTINED (R437). -/
def execBaysUpDone (failed : List Nat) (s : State) : Out :=
  inPhase phBays (fun s =>
    phaseTo phPorts ((List.range 4).foldl (fun s b =>
      if failed.contains b then
        let r := faultLog ⟨unitBay b, 3, 5, bcUnit, 0, 0, bayDetail b bsQuar bcUnit 0, 0xFF, 1, 0⟩ s
        baySet b bsQuar bcUnit r.1 r.2
      else s) s)) s

/-- PORTS_STARTED: Ethernet in the plan's mode, TDM ports settled; `ms` milliseconds since PWR_GOOD. The part waits for its first block. -/
def execPortsStarted (ms : Nat) (s : State) : Out :=
  inPhase phPorts (fun s =>
    let s := fset R.ETH_MODE_eth_mode (planEthMode s) (fset R.PWR_BOOT_MS_ms (min 65535 ms) s)
    let s := (List.range 8).foldl (fun s l => if fon (R.ETH_LINK_CFG_enable l) s then linkEnable l s else s) s
    let s := (List.range 4).foldl (fun s p => tdmSettle p s) s
    { s with pwr := { s.pwr with ms := min 65535 ms } }) s

/-- The first block's stamp (R100). -/
def firstStamp (s : State) : Nat :=
  let saved := stampSaved s
  let n := match saved with
    | some v => stampAdd v 1
    | none => 1
  let d := ptpStamp s % 2 ^ 48
  if planPtpMode s = 1 && fon R.ETH_PTP_STATUS_time_valid s && (match saved with
    | some v => stampAfter d v
    | none => true) then d else n

/-- In ptp_mode 1 with valid time the first block begins at the next 500,000 ns boundary of PTP time (R100): PTP time then. -/
def firstAlign (s : State) : State :=
  if ptpFollows s then
    { s with clk := { s.clk with ptp := (s.clk.ptp + (500000 * 65536 - 1)) / (500000 * 65536) * (500000 * 65536) } }
  else s

/-- The first block begins (R437, R438): phase RUN, BOOT_COMPLETE. -/
def firstBlock (s : State) : State :=
  let d := fget R.PWR_STATUS_last_stop s + fget R.PWR_BOOT_FW_slot s * 16 + s.pwr.imgSlot * 32 + s.pwr.ms * 65536
  raiseUnit EV_BOOT_COMPLETE 0 d (phaseTo phRun s)

/-! ## Supply and hold-up (R425, R427) -/

/-- RAIL_WARN: rails below nominal − 4 %. -/
def execRailWarn (rails : Nat) (s : State) : Out :=
  let old := fget R.PWR_RAIL_warn s
  .next (raiseUnit EV_RAIL_WARN 0 (rails % 128) (fset R.PWR_RAIL_warn (Nat.lor old (rails % 128)) s))

/-- States of the capacitor (R442). -/
def huUnknown : Nat := 0
def huCharging : Nat := 1
def huGood : Nat := 2
def huLow : Nat := 3
def huOpen : Nat := 4
def huShort : Nat := 5
def huReversed : Nat := 6

/-- VKEEP_SNS shown. -/
def senseShow (v : Int) (s : State) : State := fset R.PWR_HOLDUP_STATUS_sense (ofS 16 v) s

/-- Whether hold-up is armed: the capacitor is GOOD and not disabled. -/
def armSync (s : State) : State :=
  fset R.PWR_HOLDUP_STATUS_armed (b2n (decide (fget R.PWR_HOLDUP_STATUS_state s = huGood) && !fon R.PWR_HOLDUP_CTRL_disable s)) s

/-- The capacitor classified: HOLDUP_STATE where the state changes. -/
def holdTo (st : Nat) (s : State) : State :=
  if fget R.PWR_HOLDUP_STATUS_state s = st then armSync s
  else
    let s := armSync (fset R.PWR_HOLDUP_STATUS_state st s)
    raiseUnit EV_HOLDUP_STATE 0 (st + fget R.PWR_HOLDUP_STATUS_armed s * 8 + fget R.PWR_HOLDUP_MEAS_c s * 65536
      + fget R.PWR_HOLDUP_MEAS_esr s * 2 ^ 32) s

/-- The capacitor test (R427): voltages in mV.  Below 3.10 V it does not run, and the voltage alone classifies. -/
def capTest (sense v0 v10 v1000 : Int) (s : State) : State :=
  let s := senseShow sense s
  if sense ≤ -200 then holdTo huReversed s
  else if sense < 3100 then
    (if 500 ≤ sense && fget R.PWR_HOLDUP_STATUS_state s ≠ huLow then holdTo huCharging s else s)
  else
    let d := v10 - v1000
    let f := takeFree s
    let c := if 0 < d then (4950 / d).toNat else Config.capOpen f.1
    let s := if 0 < d then s else f.2
    let esr := (2 * (v0 - v10)).toNat
    let s := fset R.PWR_HOLDUP_MEAS_c (min 65535 c) (fset R.PWR_HOLDUP_MEAS_esr (min 65535 esr) s)
    let low := if 0 < d then decide (4950 < 150 * d) else decide (c < 150)
    holdTo (if 300 < v0 - v1000 then huOpen else if low || 50 < esr then huLow else huGood) s

/-- HOLDUP_TEST_PERIODIC: at the first block, and every 7,200,000 blocks after that. -/
def execHoldupTestPeriodic (sense v0 v10 v1000 : Int) (s : State) : Out :=
  let due := s.clk.running && match s.pwr.tested with
    | none => true
    | some b => decide (7200000 ≤ stampSub s.clk.stamp b)
  .next (if due then capTest sense v0 v10 v1000 { s with pwr := { s.pwr with tested := some s.clk.stamp } } else s)

/-- HOLDUP_TEST_REQUEST: a write of PWR_HOLDUP_CTRL.test. -/
def execHoldupTestRequest (sense v0 v10 v1000 : Int) (s : State) : Out := .next (capTest sense v0 v10 v1000 s)

/-- HOLDUP_DISABLE: the disable bit written. -/
def execHoldupDisable (on : Bool) (s : State) : Out := .next (armSync (fset R.PWR_HOLDUP_CTRL_disable (b2n on) s))

/-- HOLDUP_SENSE_TIMEOUT: after 20 s with PWR_GOOD high. -/
def execHoldupSenseTimeout (sense : Int) (s : State) : Out :=
  let s := senseShow sense s
  .next (if sense ≤ -200 then holdTo huReversed s else if sense < 500 then holdTo huShort s else if sense < 3100 then holdTo huLow s else s)

/-- HOLDUP_REVERSE_DETECT. -/
def execHoldupReverseDetect (sense : Int) (s : State) : Out :=
  .next (if sense ≤ -200 then holdTo huReversed (senseShow sense s) else senseShow sense s)

/-! ## Clocks (R433) -/

/-- REFCLK_LOSS: reference 0 (A) or 1 (B) is lost. -/
def execRefclkLoss (ref : Nat) (s : State) : Out :=
  let ref := ref % 2
  let s := refGoodPut ref false s
  .next (if fget R.PWR_CLK_STATUS_ref s ≠ ref then s
    else if refGood (1 - ref) s then
      raiseUnit EV_REFCLK_FAILOVER 0 (1 - ref) (cinc 0x780218 (fset R.PWR_CLK_STATUS_ref (1 - ref) s))
    else raiseUnit EV_REFCLK_LOST 0 0 (fset R.PWR_CLK_STATUS_holdover 1 (fset R.PWR_CLK_STATUS_keeper_osc 1 s)))

/-- REFCLK_REVERT: a write of revert; `good` says that the primary reference has been good for 2,000 blocks. -/
def execRefclkRevert (good : Bool) (s : State) : Out :=
  .next (if good then { s with pwr := { s.pwr with revert := true } } else s)

/-- The switch back at a block boundary. -/
def clockBoundary (s : State) : State :=
  if !s.pwr.revert then s
  else
    let p := planRefclk s
    let s := refGoodPut p true { s with pwr := { s.pwr with revert := false } }
    fset R.PWR_CLK_STATUS_ref p (fset R.PWR_CLK_STATUS_holdover 0 (fset R.PWR_CLK_STATUS_keeper_osc 0 s))

/-! ## Temperature (R440): in units of 0.125 °C, 16 bits signed -/

/-- THERMAL_WARN: a sensor's temperature at or above warn. -/
def execThermalWarn (sensor temp : Nat) (s : State) : Out :=
  let s := fset (R.PWR_THERM_temp sensor) temp s
  .next (if toS 16 (temp % 65536) < 8 * (fget R.PWR_THERM_CFG_warn s : Int) then s
    else
      let s := { s with pwr := { s.pwr with cool := false } }
      if fon (R.PWR_THERM_warn sensor) s then s
      else raiseUnit EV_THERMAL_WARN 0 (sensor % 8 + temp % 65536 * 65536) (cinc 0x780220 (fset (R.PWR_THERM_warn sensor) 1 s)))

/-- THERMAL_CLEAR: every sensor is below warn − hyst. -/
def execThermalClear (s : State) : Out :=
  let any := (List.range 8).any fun n => fon (R.PWR_THERM_warn n) s
  let s := (List.range 8).foldl (fun s n => fset (R.PWR_THERM_warn n) 0 s) { s with pwr := { s.pwr with cool := true } }
  .next (if any then raiseUnit EV_THERMAL_CLEAR 0 0 s else s)

/-- THERMAL_TRIP: a sensor at or above 115 °C. -/
def execThermalTrip (sensor temp : Nat) (s : State) : Out :=
  let s := fset (R.PWR_THERM_temp sensor) temp s
  .next (if toS 16 (temp % 65536) < 920 || phaseDead s then s
    else stopDevice lsThermal true { s with pwr := { s.pwr with cool := false } })

/-! ## The watchdog (R435) -/

/-- The watchdog restarted with the timeout configured. -/
def wdtKick (s : State) : State := { s with pwr := { s.pwr with
  kicks := 0
  wdt := fget R.PWR_WDT_CFG_timeout s } }

/-- PWR_WDT_KICK: a write of the register. -/
def execPwrWdtKick (s : State) : Out := .next (wdtKick s)

/-- WATCHDOG_EXPIRY: logged, reported, restarted; with action 1 a second expiry without a kick resets the device. -/
def execWatchdogExpiry (s : State) : Out :=
  .next (if !fon R.GLB_AON_CFG_wdt_en s || phaseDead s then s
    else
      let n := s.pwr.kicks + 1
      let s := (faultLog ⟨unitRm, 5, 0, 0, 0, 0, n, 0xFF, severity EV_WDT_EXPIRED n, 0⟩ s).2
      let s := raiseUnit EV_WDT_EXPIRED 0 n (cinc 0x780228 { s with pwr := { s.pwr with
        kicks := n
        wdt := fget R.PWR_WDT_CFG_timeout s } })
      if fon R.PWR_WDT_CFG_action s && 2 ≤ n then stopDevice lsWatchdog true s else s)

end Sys2Proof.Machine
end

