-- ==== Sys2Proof/Machine/Verdict.lean ====
section
/-! DEFINITION. Cipher verdicts and what they commit (spec/05_cipher_keys.md R127 to R131; spec/04_packet_ingress.md R104, R110 to R114). -/
namespace Sys2Proof.Machine

/-! ## Keys -/

/-- The slots tried for a packet of arrival stamp `b`: from the bind on, the current one and the previous one within its grace; before it, the
one that was current then (R99, R127). -/
def verdictKeys (st : Stream) (b : Nat) : List Nat :=
  if st.bound && stampAfter st.keyFrom b then st.former.toList
  else match st.key with
  | none => []
  | some k => k :: (match st.prev with
    | some (p, fin) => if stampAfter fin b then [p] else []
    | none => [])

/-- The first of some slots that opens a packet. -/
def openWith (f : KeySlot → Option (List Nat)) (ks : List Nat) (s : State) : Option (List Nat) :=
  ks.findSome? fun k => if keyValid k s then f (keySlot k s) else none

/-- A packet refused: counted for the stream and the engine. -/
def verdictDrop (id o eng eo : Nat) (s : State) : State := cinc (strCnt id o) (cinc (ciphCnt eng eo) s)

/-- A packet that fails verification (R128, R130). -/
def authFail (id eng : Nat) (s : State) : State :=
  let s := verdictDrop id 0x38 eng 0x10 s
  match tfind s.ctl.streams id with
  | none => s
  | some st =>
    match rateOk (rateKey EV_AUTH_FAIL id) 2000 s with
    | (true, s) => raiseObj EV_AUTH_FAIL (streamRing st s) 3 id (st.sinceFail + 1) (streamPut id { st with sinceFail := 0 } s)
    | (false, s) => streamPut id { st with sinceFail := st.sinceFail + 1 } s

/-! ## Requests of receivers (R317) -/

/-- A PLI or FIR of a receiving leg, accepted at most once in 100 blocks. -/
def receiverRequest (leg : Nat) (fir : Bool) (s : State) : State :=
  let x := fwdLeg leg s
  let b := s.clk.stamp
  let held := match x.reqAt with
    | some a => decide (stampSub b a < 100)
    | none => false
  if held then cinc (legCnt leg 0xB8) s
  else
    let s := fwdLegPut leg { x with reqAt := some b } s
    match x.cur, x.fall, fallCanvas leg s with
    | some c, _, _ => if fir then fwdFir c.ctx b s else fwdPli c.ctx b s
    | none, .openAt _ _, some id => keyRequest id b fir s
    | none, _, _ => s

/-! ## Placing a packet (R111 to R113) -/

/-- RFC 3550's statistics of a received stream after a packet. -/
def rxAfter (st : Stream) (seq ts : Nat) (f : Frame) : RxStat :=
  let c := clockPerBlock st.clock
  let x := st.rx
  let transit : Int := ((f.arrival * c + f.offset * c / 24 : Nat) : Int) - ts
  let d := ((transit - x.transit) % 2 ^ 32).toNat
  let d := min d (2 ^ 32 - d)
  { x with
    any := true
    base := if x.any then x.base else seq
    count := x.count + 1
    jitter := if x.any then x.jitter + d - (x.jitter + 8) / 16 else x.jitter
    transit := transit }

/-- An RTX packet as its original: number, SSRC and payload (RFC 4588). -/
def rtxOriginal (ssrc : Nat) (p : List Byte) : Option (Nat × List Byte) :=
  let h := (rtpHdrLen (toNats p)).getD 12
  let body := p.drop h
  if body.length < 2 then none
  else some (be body 0 2, p.take 2 ++ body.take 2 ++ slice p 4 4 ++ beBytes 4 ssrc ++ (p.take h).drop 12 ++ body.drop 2)

/-- A verified packet's entry placed in a context's ring, or dropped as too long for it; `rtx` says whether an RTX packet brought it. -/
def placeEntry (id seq : Nat) (rtx : Bool) (p : List Byte) (f : Frame) (s : State) : State :=
  let s := jrSettle id s
  match tfind s.ctl.streams id with
  | none => s
  | some st =>
    if entryBytes st.media - 32 < p.length then cinc (strCnt id 0) s
    else
      let e : JrEntry := ⟨seq, be p 4 4, f.arrival, none, false, decide (128 ≤ b8 p 1), false, p, f.sec, f.ns, false, false, (rtpPayload p).length, rtx⟩
      if st.media = 0 then jrAudio id e st s else jrVideo id e st s

/-- A verified RTP packet of extended number `seq` placed: an RTX packet in its primary context's ring. -/
def placeRtp (id seq : Nat) (st : Stream) (p : List Byte) (f : Frame) (s : State) : State :=
  if st.media ≠ 2 then placeEntry id seq false p f s
  else
    let s := streamPut id { st with seq := { st.seq with top := some (max (st.seq.top.getD 0) seq) } } s
    match tfind s.ctl.streams st.rtxOf with
    | none => s
    | some pr => match rtxOriginal pr.ssrc p with
      | none => s
      | some (q, orig) => placeEntry st.rtxOf (nearTop (some (pr.seq.top.getD (65536 + q))) q) true orig f s

/-! ## Verdicts (R128, R131) -/

/-- A verified RTP packet committed (R128 step 4). -/
def commitRtp (h : Held) (st : Stream) (seq idx : Nat) (x : SeqState) (p : List Byte) (s : State) : State :=
  let id := h.stream
  let st1 : Stream := { st with
    seq := x
    srtp := idxCommit st.srtp idx
    win := idxCommit st.win seq
    rx := rxAfter st seq (be p 4 4) h.frame }
  let st1 := if h.bind then { st1 with
    ssrc := be p 8 4
    known := true } else st1
  let s := cadd (strCnt id 0xE0) p.length (cinc (strCnt id 0xD8) (cinc (ciphCnt h.eng 0) (streamPut id st1 s)))
  let s := if h.bind then raiseObj EV_SSRC_BOUND (streamRing st s) 3 id (be p 8 4) s else s
  let s := capNote (streamAct st s) ⟨1, id, h.frame.arrival, h.frame.offset, h.frame.sec, h.frame.ns, h.frame.link, p⟩ s
  placeRtp id seq st1 p h.frame s

/-- The verdict of an RTP packet: the window is checked with the extended number of R111, the tag with the index that RFC 3711's estimate gives
(R119, R128; log entry 180). -/
def verdictRtp (h : Held) (st : Stream) (s : State) : State :=
  let id := h.stream
  let q := be h.payload 2 2
  match seqExtend st.seq q with
  | (none, x) => cinc (strCnt id 0xE8) (streamPut id { st with seq := x } s)
  | (some seq, x) =>
    if h.bind && st.known && decide (st.ssrc ≠ be h.payload 8 4) then excDeliver (.vf (streamRing st s)) 3 (some h.leg) h.frame s
    else if !((verdictKeys st h.frame.arrival).any fun k => keyValid k s) then verdictDrop id 0x48 h.eng 0x28 s
    else if !idxOk st.win seq then verdictDrop id 0x40 h.eng 0x18 s
    else match srtpIndex st.srtp st.roc q with
      | none => verdictDrop id 0x40 h.eng 0x18 s
      | some idx => match openWith (fun k => srtpOpen k idx (toNats h.payload)) (verdictKeys st h.frame.arrival) s with
        | none => authFail id h.eng s
        | some p => commitRtp h st seq idx x (ofNats p) s

/-- The SRTCP index that a slot's profile finds in a packet. -/
def srtcpIndex (k : Nat) (p : List Nat) (s : State) : Nat := srtcpWord (keySlot k s) p % 2 ^ 31

/-- The verdict of an RTCP compound: each slot is tried with the index that its own profile finds. -/
def verdictRtcp (h : Held) (st : Stream) (s : State) : State :=
  let id := h.stream
  let p := toNats h.payload
  let ks := (verdictKeys st h.frame.arrival).filter fun k => keyValid k s
  let fresh := ks.filter fun k => idxOk st.srtcp (srtcpIndex k p s)
  if ks.isEmpty then verdictDrop id 0x48 h.eng 0x28 s
  else if fresh.isEmpty then verdictDrop id 0x40 h.eng 0x18 s
  else match fresh.findSome? fun k => (srtcpOpen (keySlot k s) p).map fun l => (k, l) with
        | none => authFail id h.eng s
        | some (k, l) =>
          let s := cinc (ciphCnt h.eng 0) (streamPut id { st with srtcp := idxCommit st.srtcp (srtcpIndex k p s) } s)
          let s := capNote (streamAct st s)
            ⟨2, id, h.frame.arrival, h.frame.offset, h.frame.sec, h.frame.ns, h.frame.link, ofNats l⟩ s
          rtcpReceived h.leg h.frame.arrival receiverRequest l s

/-- A held packet leaves its engine: its bytes of the hold buffer are free. -/
def unhold (h : Held) (s : State) : State :=
  holdSync { s with ctl := { s.ctl with held := s.ctl.held.filter fun x => decide (x.id ≠ h.id) } }

/-- A held packet committed or refused; one whose context is gone leaves nothing. -/
def verdict (h : Held) (s : State) : State :=
  let s := unhold h s
  match tfind s.ctl.streams h.stream with
  | none => s
  | some st => if h.rtcp then verdictRtcp h st s else verdictRtp h st s

/-- The packets of a stream that have their answers, in arrival order, up to the first that has none. -/
def verdictRun (fuel stream : Nat) (s : State) : State :=
  match fuel with
  | 0 => s
  | n + 1 => match s.ctl.held.find? fun h => decide (h.stream = stream) with
    | none => s
    | some h => if h.answered then verdictRun n stream (verdict h s) else s

/-- CIPHER_VERDICT: the engine of a held packet that is in its hold buffer answers; the stream's verdicts commit in arrival order (R131). -/
def execCipherVerdict (hold : Nat) (s : State) : Out :=
  .next (match s.ctl.held.find? fun h => decide (h.id = hold) with
    | none => s
    | some h =>
      if !(holdIn h.eng s).contains h then s
      else
      let s := { s with ctl := { s.ctl with held := s.ctl.held.map fun x => if x.id = hold then { x with answered := true } else x } }
      verdictRun s.ctl.held.length h.stream s)

end Sys2Proof.Machine
end

