-- ==== Sys2Proof/Machine/Cas.lean ====
section
/-! DEFINITION. The Abajor cascade (spec/19_abajor_cascade.md): messages received, joining and leaving, the exchange of a block, staged
changes, the cascade key. -/
namespace Sys2Proof.Machine

/-! ## Joining (R449) -/

/-- The body of a HELLO (R446). -/
def helloBody (j : CasJoin) (s : State) : List Byte :=
  let b := s.clk.stamp
  leBytes 8 (stampAdd b 200) ++ leBytes 8 b ++ leBytes 2 (if bit j.mask (casMe s) then j.mask else j.mask + 2 ^ casMe s)
    ++ leBytes 1 (casX s) ++ List.replicate 5 0

/-- The members a mask names. -/
def maskMembers (m : Nat) : List Nat := (List.range 16).filter fun i => bit m i

/-- A HELLO sent to each expected peer. -/
def helloSend (j : CasJoin) (s : State) : State :=
  let s := { s with cas := { s.cas with join := some { j with hello := some s.clk.stamp } } }
  (maskMembers j.mask).foldl (fun s m => casSend m 1 0 s.clk.stamp false (helloBody j s) s) s

/-- The end of a join: its record gone, CAS_STATUS brought up to date. -/
def joinOver (s : State) : State := casSync s.clk.stamp { s with cas := { s.cas with join := none } }

/-- A join failed: membership is as it was. -/
def joinFail (j : CasJoin) (reason : Nat) (s : State) : State :=
  lopEnd j.fn j.tag .failed stFailed reason 0 false 0 s.clk.stamp (joinOver { s with cas := { s.cas with members := j.was } })

/-- A join cancelled: LEAVE to each peer that has acknowledged, membership as it was (R89, R449). -/
def joinCancel (j : CasJoin) (s : State) : State :=
  let b := s.clk.stamp
  let s := (tkeys j.acks).foldl (fun s m => casSend m 3 0 b false (leBytes 8 b) s) s
  lopEnd j.fn j.tag .cancelled stCancelled 0 0 false 0 b (joinOver { s with cas := { s.cas with members := j.was } })

/-- Whether every expected peer has acknowledged. -/
def joinAcked (j : CasJoin) : Bool := (maskMembers j.mask).all fun m => (tfind j.acks m).isSome

/-- AGREE where the HELLO phase has ended: the greatest accepted stamp is the start; a pending suspend or cancel comes first. -/
def joinAgree (j : CasJoin) (s : State) : State :=
  match lopFind j.fn j.tag s with
  | none => s
  | some l =>
    if !joinAcked j || j.start.isSome then s
    else if l.st = .running then
      let a := j.acks.foldl (fun (a : Nat) p => if stampAfter p.2 a then p.2 else a) ((j.acks.map (·.2)).headD 0)
      { s with cas := { s.cas with join := some { j with start := some a } } }
    else lopSafe j.fn j.tag (joinCancel j) s

/-- A member added at a stamp. -/
def memberAdd (m a : Nat) (s : State) : State :=
  let s := casPeerPut m { casPeer m s with
    leave := none
    missed := 0
    acts := [] } s
  { s with cas := { s.cas with members := tset s.cas.members m a } }

/-- MEMBER_JOINED of a member (R457). -/
def memberJoined (m a : Nat) (s : State) : State := raise (ev EV_MEMBER_JOINED 0 none 0 0 (m + a * 2 ^ 16) s) s

/-- A member dropped. -/
def memberDrop (m : Nat) (s : State) : State := casSync s.clk.stamp { s with cas := { s.cas with members := terase s.cas.members m } }

/-- JOIN_START at boundary `b`: members whose start stamp has come are in force; the join of this part is done, or, where its cancel is
pending, cancelled (R449). -/
def joinBoundary (b : Nat) (s : State) : State :=
  let s := match s.cas.join with
    | none => s
    | some j => joinAgree j s
  let s := s.cas.members.foldl (fun s p => if p.2 = b then memberJoined p.1 b s else s) s
  let s := match s.cas.join with
    | none => s
    | some j =>
      match j.start, lopFind j.fn j.tag s with
      | some a, some l =>
        if l.st = .cancelling then joinCancel j s
        else if !lopActive l || !stampGe b a then s
        else
          let fresh := (maskMembers j.mask).filter fun m => !inForce m b s
          let s := fresh.foldl (fun s m => memberJoined m a (memberAdd m a s)) s
          lopEnd j.fn j.tag .done stOk 0 0 false 0 b (joinOver s)
      | _, _ => s
  casSync b s

/-- CASCADE_JOIN's check at intake. -/
def joinIntake (c : Cmd) (s : State) : Option Rsp :=
  let mask := carg c 0x18 2
  if !czero c 0x1A || bit mask (casMe s) || mask = 0 then some (rspErr stBadArg)
  else if fget R.CAS_STATUS_state s ≠ 0 then some (rspErr stBadState)
  else none

/-- CASCADE_JOIN's first phase. -/
def joinBegin (c : Cmd) (s : State) : State :=
  let j : CasJoin := ⟨c.fn, c.tag, carg c 0x18 2, s.clk.stamp, none, [], none, s.cas.members⟩
  let s := lopBegin c.fn c.tag s
  helloSend j (casSync s.clk.stamp { s with cas := { s.cas with join := some j } })

/-! ## Leaving (R450) -/

/-- CASCADE_LEAVE's check at intake. -/
def leaveIntake (c : Cmd) (s : State) : Option Rsp :=
  if !czero c 0x18 then some (rspErr stBadArg)
  else if fget R.CAS_STATUS_state s ≠ 2 then some (rspErr stBadState)
  else none

/-- CASCADE_LEAVE begun: LEAVE to every member. -/
def leaveBegin (c : Cmd) (s : State) : State :=
  let b := s.clk.stamp
  let w := stampAdd b 200
  let s := lopBegin c.fn c.tag s
  let s := (tkeys s.cas.members).foldl (fun s m => casSend m 3 0 b false (leBytes 8 w) s) s
  casSync b { s with cas := { s.cas with leave := some (c.fn, c.tag, w) } }

/-- A leave cancelled: membership is what it was before the command (R89). -/
def leaveCancel (fn : Fn) (tag : Nat) (s : State) : State :=
  lopEnd fn tag .cancelled stCancelled 0 0 false 0 0 (casSync s.clk.stamp { s with cas := { s.cas with leave := none } })

/-- LEAVE_STAMP_REACHED at boundary `b`: a pending suspend or cancel takes effect, since the handshake's one message is sent; else this part is
ALONE; members whose leave stamp has come are dropped (R450). -/
def leaveBoundary (b : Nat) (s : State) : State :=
  let s := match s.cas.leave with
    | none => s
    | some (fn, tag, _) => lopSafe fn tag (leaveCancel fn tag) s
  let s := match s.cas.leave with
    | none => s
    | some (fn, tag, w) =>
      if stampGe b w && ((lopFind fn tag s).elim false fun l => lopActive l) then
        lopEnd fn tag .done stOk 0 0 false 0 b (casSync b { s with cas := { s.cas with
          leave := none
          members := [] } })
      else s
  (tkeys s.cas.members).foldl (fun s m =>
    match (casPeer m s).leave with
    | some w =>
      if stampGe b w then
        raise (ev EV_MEMBER_LEFT 0 none 0 0 (m + w * 2 ^ 16) s) (memberDrop m (casPeerPut m { casPeer m s with leave := none } s))
      else s
    | none => s) s

/-! ## Messages received (R444 to R447) -/

/-- A message as received: its header's fields and its body, the tag included. -/
structure CasMsg where
  typ : Nat
  src : Nat
  dst : Nat
  flags : Nat
  subject : Nat
  seq : Nat
  stamp : Nat
  body : List Byte
  head : List Byte
  deriving DecidableEq, Repr

/-- The types of R446. -/
def casTypes : List Nat := [0x01, 0x02, 0x03, 0x10, 0x20, 0x21]

/-- A UDP payload as a message; none where its version, type or length is wrong (R445, R446). -/
def casParse (p : List Byte) : Option CasMsg :=
  if p.length < 16 || le p 0 1 ≠ 1 || !casTypes.contains (le p 1 1) || le p 14 2 + 16 ≠ p.length then none
  else some ⟨le p 1 1, le p 2 1 % 16, le p 2 1 / 16, le p 3 1, le p 4 2, le p 6 2, le p 8 6, p.drop 16, p.take 16⟩

/-- The counter of a peer at an offset. -/
def peerCnt (m off : Nat) : Nat := 0x801000 + 0x40 * m + off

/-- A control message refused (R447). -/
def casAuthFail (m : Nat) (s : State) : State :=
  let s := cinc (peerCnt m 0x30) s
  let p := casPeer m s
  match rateOk (rateKey EV_CAS_AUTH_FAIL m) 2000 s with
  | (true, s) => raise (ev EV_CAS_AUTH_FAIL 0 none 0 0 (m + (p.fails + 1) % 2 ^ 32 * 2 ^ 32) s) (casPeerPut m { p with fails := 0 } s)
  | (false, s) => casPeerPut m { p with fails := p.fails + 1 } s

/-- Whether a control message's tag holds under KR1. -/
def casVerified (m : CasMsg) (s : State) : Bool :=
  bit m.flags 0 && !s.key.kr1.isEmpty && decide (16 ≤ m.body.length) &&
    decide (casTag s.key.kr1 m.head (m.body.take (m.body.length - 16)) = m.body.drop (m.body.length - 16))

/-- A message noted as seen; those of its type more than half the sequence space behind it are forgotten. -/
def casSeen (m : CasMsg) (p : CasPeer) : CasPeer :=
  { p with seen := (m.typ * 65536 + m.seq) :: p.seen.filter fun k =>
      decide (k / 65536 ≠ m.typ) || decide ((m.seq + 65536 - k % 65536) % 65536 < 32768) }

/-- A HELLO answered (R449). -/
def helloIn (m : CasMsg) (s : State) : State :=
  let b := s.clk.stamp
  let lag := stampSub b (le m.body 8 6)
  let res := if 1 < lag then 1
    else if le m.body 18 1 ≠ casX s then 2
    else if m.src = casMe s || inForce m.src b s then 3
    else 0
  let a := if stampAfter (le m.body 0 6) (stampAdd b 200) then le m.body 0 6 else stampAdd b 200
  let s := if res = 0 then memberAdd m.src a s else s
  let mask := (casOthers b s).foldl (fun n i => n + 2 ^ i) (2 ^ casMe s)
  casSend m.src 2 0 b false (leBytes 8 (if res = 0 then a else 0) ++ leBytes 2 mask ++ leBytes 1 res ++ List.replicate 5 0) s

/-- A JOIN_ACK of an expected peer in the HELLO phase (R449). -/
def ackIn (m : CasMsg) (s : State) : State :=
  match s.cas.join with
  | none => s
  | some j =>
    if j.start.isSome || !bit j.mask m.src then s
    else if le m.body 10 1 ≠ 0 then
      (match (lopFind j.fn j.tag s).map Lop.st with
       | some .cancelling => joinCancel j s
       | _ => joinFail j (2 + le m.body 10 1) s)
    else
      let j := { j with acks := tset j.acks m.src (le m.body 0 6) }
      joinAgree j { s with cas := { s.cas with join := some j } }

/-- A LEAVE: the sender is dropped from its stamp on (R450). -/
def leaveIn (m : CasMsg) (s : State) : State :=
  if (tfind s.cas.members m.src).isNone then s
  else leaveBoundary s.clk.stamp (casPeerPut m.src { casPeer m.src s with leave := some (le m.body 0 6) } s)

/-- The records of an AUDIO body (R451). -/
def casRecs (fuel : Nat) (l : List Byte) : List CasRec :=
  match fuel with
  | 0 => []
  | f + 1 =>
    if l.length < 152 then []
    else
      let n := le l 2 2
      ⟨le l 0 2, le l 4 4, (List.range 24).map fun i => toS 48 (le l (8 + 6 * i) 6),
        (List.range n).map fun i =>
          let k := le l (155 + 4 * i) 1
          ⟨le l (152 + 4 * i) 2, le l (154 + 4 * i) 1, bit k 0, bit k 1, bit k 2⟩⟩ :: casRecs f (l.drop (152 + 4 * n))

/-- A record's bytes. -/
def recBytes (r : CasRec) : List Byte :=
  leBytes 2 r.act ++ leBytes 2 r.levels.length ++ leBytes 4 r.digest ++ (r.part.map fun v => leBytes 6 (ofS 48 v)).flatten
    ++ (r.levels.map fun e => leBytes 2 e.seat ++ leBytes 1 e.level ++ leBytes 1 (b2n e.elig + 2 * b2n e.inS + 4 * b2n e.pinned)).flatten

/-- The local Act that a bridge Act is mapped from. -/
def mappedAct (bridge : Nat) (s : State) : Option Nat := (s.cas.acts.find? fun p => decide (p.2 = bridge)).map (·.1)

/-- What an Act's captures record of a message (R470): its header and `body`; the source member stands for the context (log entry 189). -/
def casCap (m : CasMsg) (act : Nat) (body : List Byte) (s : State) : State :=
  capNote act ⟨4, m.src, s.clk.stamp, s.clk.offset, 0, 0, 0, m.head ++ body⟩ s

/-- Records of a member's stream of a stamp taken; `ended` that its last message has come. -/
def farTake (src stamp : Nat) (recs : List CasRec) (ended : Bool) (s : State) : State :=
  let p := casPeer src s
  let i := tget ⟨[], false⟩ p.ins stamp
  casPeerPut src { p with ins := tset p.ins stamp ⟨i.recs ++ recs, i.ended || ended⟩ } s

/-- Records that come after the start of the block that combines their stamp (R454). -/
def casLate (m n : Nat) (s : State) : State :=
  if n = 0 then s
  else
    let s := cadd (peerCnt m 0x28) n s
    let p := casPeer m s
    match rateOk (rateKey EV_CAS_LATE m) 2000 s with
    | (true, s) => raise (ev EV_CAS_LATE 0 none 0 0 (m + (p.late + n) % 2 ^ 32 * 2 ^ 32) s) (casPeerPut m { p with late := 0 } s)
    | (false, s) => casPeerPut m { p with late := p.late + n } s

/-- An AUDIO message of a member (R451); a record for an Act that a replay runs is dropped (R471). -/
def audioIn (m : CasMsg) (s : State) : State :=
  let recs := casRecs (m.body.length / 152 + 1) m.body
  if (tfind s.cas.members m.src).isNone then s
  else if stampGe s.clk.stamp (stampAdd m.stamp (1 + casX s)) then casLate m.src recs.length s
  else
    let live := recs.filter fun r => ((mappedAct r.act s).bind fun a => repOf a s).isNone
    let s := live.foldl (fun s r => match mappedAct r.act s with
      | some a => casCap m a (recBytes r) s
      | none => s) s
    farTake m.src m.stamp live (!bit m.flags 1) s

/-- The bridge streams that an ACTIVE leg has a use for in block `b` (R455): of the seat it is subscribed to by op 4, or, for a
follow-the-speaker subscriber, of the remote members of S of its Act. -/
def farUsesOf (b n : Nat) (s : State) : List Nat :=
  let seats : List Nat := match tfind s.ctl.legs n, (fwdLeg n s).sub with
    | some (l : Leg), some sub =>
      if l.st ≠ .active || (casAct l.act s).isNone then []
      else match tfind s.cas.remote n with
        | some seat => ((seatSource l.act b seat s).toList).filter isFar
        | none => if sub.source = 0x3FFF then ((actAud l.act s).spk.map (·.leg)).filter isFar else []
    | _, _ => []
  (seats.map fun n => (srcCtxs n s).map fun c => c - 0x20000).flatten

/-- The Acts with a leg that uses a bridge stream. -/
def farActs (b num : Nat) (s : State) : List Nat :=
  (s.ctl.legs.filterMap fun p => if (farUsesOf b p.1 s).contains num then some p.2.act else none).eraseDups

/-- A VIDEO message of a wanted bridge stream: its packet waits for its release at b + x; one that comes later is lost (R455). -/
def videoIn (m : CasMsg) (s : State) : State :=
  let due := stampAdd m.stamp (casX s)
  if !inForce m.src m.stamp s || (tfind s.cas.wants m.subject).isNone || m.subject / 4096 % 16 ≠ m.src || stampGe s.clk.stamp due then s
  else
    let st := tget (farStream m.subject) s.cas.streams m.subject
    let seq := nearTop st.lastRel (be m.body 2 2)
    let s := (farActs s.clk.stamp m.subject s).foldl (fun s a => casCap m a m.body s) s
    let e : JrEntry := ⟨seq, be m.body 4 4, s.clk.stamp, some due, false, decide (128 ≤ b8 m.body 1), false, m.body, 0, 0, false, false, m.body.length, false⟩
    { s with cas := { s.cas with streams := tset s.cas.streams m.subject { st with
      jr := tset st.jr seq e
      lastRel := some (max seq (st.lastRel.getD 0)) } } }

/-- The local context that a bridge number names. -/
def bridgeCtx (num : Nat) (s : State) : Option Nat :=
  (tkeysWhere s.ctl.streams fun id st => decide (st.dir = 0) && decide (st.media = 1) && decide (id % 4096 = num % 4096)).head?

/-- A VIDEO_REQ for a bridge stream of this part (R455). -/
def requestIn (m : CasMsg) (s : State) : State :=
  if m.subject / 4096 % 16 ≠ casMe s then s
  else
    let l := tget [] s.cas.wanted m.subject
    let b := s.clk.stamp
    match le m.body 0 1 with
    | 0 => { s with cas := { s.cas with wanted := tset s.cas.wanted m.subject (if l.contains m.src then l else l ++ [m.src]) } }
    | 1 => { s with cas := { s.cas with wanted := tset s.cas.wanted m.subject (l.filter fun n => decide (n ≠ m.src)) } }
    | 2 => (match bridgeCtx m.subject s with
      | some c => fwdPli c b s
      | none => s)
    | 3 => (match bridgeCtx m.subject s with
      | some c => fwdFir c b s
      | none => s)
    | _ => s

/-- What a message does. -/
def casDo (m : CasMsg) (s : State) : State :=
  match m.typ with
  | 0x01 => helloIn m s
  | 0x02 => ackIn m s
  | 0x03 => leaveIn m s
  | 0x10 => audioIn m s
  | 0x20 => videoIn m s
  | _ => requestIn m s

/-- A UDP payload that has reached the cascade unit: checked, authenticated where it is a control message, taken once. -/
def casIn (p : List Byte) (s : State) : State :=
  match casParse p with
  | none => cinc 0x800040 s
  | some m =>
    if m.dst ≠ casMe s then s
    else
      let control := decide (m.typ < 0x10)
      let s := if control && bit m.flags 0 && !s.key.kr1.isEmpty then verifyOnly s else s
      if control && !casVerified m s then casAuthFail m.src s
      else if (casPeer m.src s).seen.contains (m.typ * 65536 + m.seq) then cinc (peerCnt m.src 0x38) s
      else casDo m (cinc (peerCnt m.src 0x20) (casPeerPut m.src (casSeen m (casPeer m.src s)) s))

/-- A message of one type; a payload of another is not this command's. -/
def casInType (typ : Nat) (p : List Byte) (s : State) : State := if le p 1 1 = typ then casIn p s else s

/-! ## The exchange of a block (R451, R454 to R456) -/

/-- A record cut into records whose level entries fit one message; those after the first carry a partial of 0. -/
def recSplit (r : CasRec) : List CasRec :=
  match groups (r.levels.length / 2208 + 1) 2208 r.levels with
  | [] => [r]
  | l :: t => { r with levels := l } :: t.map fun l => { r with
      part := List.replicate 24 0
      levels := l }

/-- Records packed into bodies of at most 8,984 bytes; at least one body. -/
def recPack (l : List CasRec) : List (List Byte) :=
  ((l.map recBytes).foldl (fun (a : List (List Byte)) r =>
    match a with
    | [] => [r]
    | x :: t => if x.length + r.length ≤ 8984 then (x ++ r) :: t else r :: x :: t) [[]]).reverse

/-- The records of block `b`: of each bridge Act with an ACTIVE leg here, ascending. -/
def casRecords (b : Nat) (s : State) : List CasRec :=
  sortBy (fun p q => decide (p.act < q.act)) (s.cas.acts.filterMap fun p =>
    match casOwn p.1 b s with
    | some o => if o.legs.isEmpty then none else some o.own
    | none => none)

/-- AUDIO_EXCHANGE_SEND of block `b` in block b + 1: the stream to each other member, the last message without MORE. -/
def audioSend (b : Nat) (s : State) : State :=
  let ms := recPack ((casRecords b s).map recSplit).flatten
  (casOthers b s).foldl (fun s m =>
    (ms.zip (List.range ms.length)).foldl (fun s p => casSend m 0x10 0 b (decide (p.2 + 1 < ms.length)) p.1 s) s) s

/-- The streams due at the start of block `b`, of stamp b − 1 − x, after its combine: the last one that ended, stamps missed, the Acts
that records came for; what is past is forgotten. -/
def audioDueEnd (b : Nat) (s : State) : State :=
  let u := stampSub b (1 + casX s)
  (tkeys s.cas.peers).foldl (fun s m =>
    let p := casPeer m s
    let i := tget ⟨[], false⟩ p.ins u
    let keep := p.ins.filter fun (q : Nat × CasIn) => stampAfter q.1 u
    if !inForce m u s then casPeerPut m { p with ins := keep } s
    else casPeerPut m { p with
      ins := keep
      last := if i.ended then some u else p.last
      missed := if i.ended then 0 else p.missed + 1
      acts := if i.ended then (i.recs.map (·.act)) else p.acts ++ (i.recs.map (·.act)).filter fun a => !p.acts.contains a } s) s

/-- The packets of wanted streams released in block `b` sent to the members that want them (R455). -/
def videoSend (b : Nat) (s : State) : State :=
  s.cas.wanted.foldl (fun s w =>
    match (bridgeCtx w.1 s).bind fun c => tfind s.ctl.streams c with
    | none => s
    | some st =>
      let ms := w.2.filter fun m => inForce m b s
      (releasedAt b st).foldl (fun s e => ms.foldl (fun s m => casSend m 0x20 w.1 b false e.packet s) s) s) s

/-- Whether a unit of a bridge stream is incomplete: numbers missing within it or before a packet that begins no frame, or no marker. -/
def unitCut (num : Nat) (st : Stream) (es : List JrEntry) : Bool :=
  let gaps := (es.zip (es.drop 1)).any fun p => decide (p.2.seq ≠ p.1.seq + 1)
  let head := match es.head? with
    | some e => !jrHas st (e.seq - 1) && !((packetDesc (1 + Config.bridgeCodec num % 4) st none e.packet).map (·.first)).getD true
    | none => false
  gaps || head || !((es.getLast?.map (·.marker)).getD false)

/-- The packets of bridge streams due at block `b` released; older ones are forgotten. -/
def videoDue (b : Nat) (s : State) : State :=
  let one := fun (num : Nat) (st : Stream) =>
    let due := sortBy (fun a c => decide (a.seq < c.seq)) ((st.jr.filter fun p => decide (p.2.release = some b)).map (·.2))
    let units := (unitsOf (due.length + 1) due).map fun u => (u, unitCut num st u)
    let kept := st.jr.filter fun p => match p.2.release with
      | some r => stampGe (stampAdd r 4) b
      | none => false
    { st with jr := units.foldl (fun t u => u.1.foldl (fun t e => tset t e.seq { e with
        released := true
        incomplete := u.2 }) t) kept }
  { s with cas := { s.cas with streams := tmap s.cas.streams one } }

/-- The bridge streams this part has a use for in block `b` (R455). -/
def farUses (b : Nat) (s : State) : List Nat := ((tkeys s.ctl.legs).map fun n => farUsesOf b n s).flatten

/-- Wants of block `b`: a use that begins is asked for; one that has ended is noted. -/
def wantsBlock (b : Nat) (s : State) : State :=
  let uses := farUses b s
  let s := uses.foldl (fun s k =>
    match tfind s.cas.wants k with
    | none => casRequest k 0 { s with cas := { s.cas with wants := tset s.cas.wants k none } }
    | some (some _) => { s with cas := { s.cas with wants := tset s.cas.wants k none } }
    | some none => s) s
  let next := fun (k : Nat) (w : Option Nat) => if uses.contains k then w else some (w.getD b)
  { s with cas := { s.cas with wants := tmap s.cas.wants next } }

/-! ## Staged changes (R453, R455) -/

def casStageRegs : StageRegs :=
  ⟨R.CAS_STAGE_STAMP_stamp, R.CAS_STAGE_STATUS_armed, R.CAS_STAGE_STATUS_collision, R.CAS_STAGE_STATUS_late, R.CAS_STAGE_STATUS_result,
    R.CAS_STAGE_STATUS_lateness, R.CAS_STAGE_STAMP_stamp⟩

/-- The change that the CAS staging registers hold. -/
def casStaged (s : State) : Staged :=
  let op := fget R.CAS_STAGE_OP_op s
  let tg := fget R.CAS_STAGE_OP_target s
  let a := fget R.CAS_STAGE_ARG_arg s
  let st := fget R.CAS_STAGE_STAMP_stamp s
  ⟨op, tg, [a], st, leBytes 4 (op + tg * 65536) ++ leBytes 4 a ++ leBytes 8 st⟩

/-- A go of CAS_STAGE_CTRL. -/
def casGo (s : State) : State := stageArm 3 .pf casStageRegs (casStaged s) s

/-- Whether an Act has an ACTIVE leg. -/
def actLive (act : Nat) (s : State) : Bool := s.ctl.legs.any fun p => decide (p.2.act = act) && decide (p.2.st = .active)

/-- An operation at its boundary: its result and the state. -/
def casStageDo (c : Staged) (s : State) : Nat × State :=
  let a := c.args.getD 0 0
  match c.op with
  | 1 =>
    if (tfind s.ctl.acts c.target).isNone || actLive c.target s || (s.cas.acts.any fun p => decide (p.2 = a)) then (5, s)
    else (0, { s with cas := { s.cas with
      acts := tset s.cas.acts c.target a
      own := terase s.cas.own c.target } })
  | 2 =>
    if (tfind s.ctl.acts c.target).isNone || actLive c.target s then (5, s)
    else (0, { s with cas := { s.cas with
      acts := terase s.cas.acts c.target
      own := terase s.cas.own c.target } })
  | 3 =>
    (match tfind s.ctl.legs c.target with
     | some l => if (casAct l.act s).isSome then (0, { s with cas := { s.cas with seats := tset s.cas.seats c.target a } }) else (5, s)
     | none => (5, s))
  | 4 =>
    if (tfind s.ctl.legs c.target).isNone || (fwdLeg c.target s).sub.isNone then (5, s)
    else (0, { s with cas := { s.cas with remote := tset s.cas.remote c.target a } })
  | _ => (2, s)

/-- A due CAS change applied at boundary `b`: its result registers, its trace record. -/
def casApply (b : Nat) (s : State) : State :=
  match stageDue 3 b .pf s with
  | none => s
  | some c =>
    let r := casStageDo c s
    let n := stageLate b c
    let s := { r.2 with src := { r.2.src with staged := terase r.2.src.staged (stageKey 3 .pf) } }
    let s := fset R.CAS_STAGE_STATUS_armed 0 (fset R.CAS_STAGE_STATUS_result r.1 (fset R.CAS_STAGE_STATUS_late (b2n (decide (0 < n)))
      (fset R.CAS_STAGE_STATUS_lateness n s)))
    if r.1 = 0 then
      traceConfig 0x1182 none (if c.op ≤ 2 then 2 else 1) c.target b (3 + c.op * 256 + crc32c c.bytes * 2 ^ 32) s
    else s

/-- CAS_MAP_ACT: a go with op 1 staged. -/
def execCasMapAct (s : State) : Out := .next (if fget R.CAS_STAGE_OP_op s = 1 then casGo s else s)

/-- CAS_UNMAP_ACT: a go with op 2 staged. -/
def execCasUnmapAct (s : State) : Out := .next (if fget R.CAS_STAGE_OP_op s = 2 then casGo s else s)

/-- CAS_SET_SEAT: a go with op 3 staged. -/
def execCasSetSeat (s : State) : Out := .next (if fget R.CAS_STAGE_OP_op s = 3 then casGo s else s)

/-- CAS_REMOTE_SOURCE: a go with op 4 staged. -/
def execCasRemoteSource (s : State) : Out := .next (if fget R.CAS_STAGE_OP_op s = 4 then casGo s else s)

/-! ## The cascade key (R448) -/

/-- The staged key discarded (R123). -/
def casKeyDiscard (s : State) : State := { s with cas := { s.cas with words := [] } }

/-- CAS_KEY_LOAD: KR1 filled from the eight staged words; refused while it is valid or a word is missing. -/
def execCasKeyLoad (s : State) : Out :=
  .next (casKeyDiscard (if s.key.kr1.isEmpty && decide (s.cas.words.length = 8) then
    kr1Put ((List.range 8).map fun i => (leBytes 4 (tget 0 s.cas.words i)).map (·.toNat)).flatten s else s))

/-- CAS_KEY_ERASE. -/
def execCasKeyErase (s : State) : Out := .next (casKeyDiscard (kr1Put [] s))

/-- CAS_KEY_ABORT. -/
def execCasKeyAbort (s : State) : Out := .next (casKeyDiscard s)

/-! ## The commands -/

/-- FRAME_RECEIVE: a frame that its port passes is classified, or goes to the cascade unit (R443). -/
def execFrameReceive (link : Nat) (frame : List Byte) (fcsOk : Bool) (sec ns eng : Nat) (s : State) : Out :=
  let p := parseFrame frame
  let t := frameIn link frame fcsOk sec ns eng s
  .next (if frameGood link frame fcsOk s && casAddressed p s then casIn p.payload t else t)

/-- HELLO: the UDP payload of a message received, of that type. -/
def execCasHello (payload : List Byte) (s : State) : Out := .next (casInType 0x01 payload s)
/-- JOIN_ACK. -/
def execCasJoinAck (payload : List Byte) (s : State) : Out := .next (casInType 0x02 payload s)
/-- LEAVE. -/
def execCasLeave (payload : List Byte) (s : State) : Out := .next (casInType 0x03 payload s)
/-- AUDIO. -/
def execCasAudio (payload : List Byte) (s : State) : Out := .next (casInType 0x10 payload s)
/-- VIDEO. -/
def execCasVideo (payload : List Byte) (s : State) : Out := .next (casInType 0x20 payload s)
/-- VIDEO_REQ. -/
def execCasVideoReq (payload : List Byte) (s : State) : Out := .next (casInType 0x21 payload s)

/-- HELLO_RESEND: twenty blocks after the last HELLO of a join's HELLO phase. -/
def execHelloResend (s : State) : Out :=
  .next (match s.cas.join with
    | none => s
    | some j =>
      let due := match j.hello with
        | some h => decide (20 ≤ stampSub s.clk.stamp h)
        | none => true
      let live := match lopFind j.fn j.tag s with
        | some l => lopActive l
        | none => false
      if j.start.isNone && due && live then helloSend j s else s)

/-- JOIN_TIMEOUT: 2,000 blocks without every acknowledgement (reason 1); a pending cancel takes effect. -/
def execJoinTimeout (s : State) : Out :=
  .next (match s.cas.join with
    | none => s
    | some j =>
      if j.start.isSome || joinAcked j || stampSub s.clk.stamp j.began < 2000 then s
      else match (lopFind j.fn j.tag s).map Lop.st with
        | some .cancelling => joinCancel j s
        | some .suspended => s
        | _ => joinFail j 1 s)

/-- MEMBER_LOSS: a member whose streams of four consecutive stamps have not ended is LOST (R456). -/
def execMemberLoss (m : Nat) (s : State) : Out :=
  let p := casPeer m s
  .next (if (tfind s.cas.members m).isSome && 4 ≤ p.missed then
      raise (ev EV_MEMBER_LOST 0 none 0 0 (m % 16 + p.last.getD 0 * 2 ^ 16) s) (memberDrop m (casPeerPut m { p with missed := 0 } s))
    else s)

/-- VIDEO_REQ_STOP: a bridge stream that nothing has wanted for 2,000 blocks (R455). -/
def execVideoReqStop (stream : Nat) (s : State) : Out :=
  .next (match tfind s.cas.wants stream with
    | some (some a) =>
      if 2000 ≤ stampSub s.clk.stamp a then
        casRequest stream 1 { s with cas := { s.cas with
          wants := terase s.cas.wants stream
          streams := terase s.cas.streams stream } }
      else s
    | _ => s)

end Sys2Proof.Machine
end

