-- ==== Sys2Proof/Machine/Pcie.lean ====
section
/-! DEFINITION. The PCIe endpoint's configuration space (spec/03_host_commands.md R71, R94): its identity, its BARs, its virtual functions'
routing, and the header of the mailbox capability.  Registers that PCIe defines and the spec gives no value read 0 (log entry 165). -/
namespace Sys2Proof.Machine

/-- Device ID of a function. -/
def fnDeviceId (fn : Fn) : Nat :=
  match fn with
  | .pf => 0x1640
  | .vf _ => 0x1641

/-- The class code of every function. -/
def classCode : Nat := 0x048000

/-- Bytes of a function's BAR0. -/
def fnBarSize (fn : Fn) : Nat :=
  match fn with
  | .pf => 2 ^ 26
  | .vf _ => 2 ^ 20

/-- The SR-IOV capability's fields: virtual functions, First VF Offset, VF Stride. -/
def totalVfs : Nat := 16
def firstVfOffset : Nat := 1
def vfStride : Nat := 1

/-- The routing ID of a function where the PF has `pf`. -/
def fnRouting (fn : Fn) (pf : Nat) : Nat :=
  match fn with
  | .pf => pf
  | .vf r => pf + firstVfOffset + r * vfStride

/-- The number by which the SR-IOV capability names VF r. -/
def sriovNumber (r : Nat) : Nat := r + 1

/-- Max payload sizes; the largest read request; the bits of a tag. -/
def maxPayloads : List Nat := [128, 256, 512]
def maxReadRequest : Nat := 4096
def tagBits : Nat := 10

/-- Whether a register access names a place of a function: in its BAR0, or in its configuration space. -/
def reaches (fn : Fn) (off : Nat) : Bool := decide (off < fnBarSize fn) || (decide (cfgAddr ≤ off) && decide (off < cfgAddr + 4096))

/-- A word of a function's configuration space that no register table gives: Device ID, class code, the type of BAR0 (64-bit,
non-prefetchable), and, of the PF, the mailbox's extended capability header (PCIe's vendor-specific capability, version 1) and its
vendor-specific header (VSEC ID, revision, length). -/
def cfgWord (fn : Fn) (o : Nat) : Nat :=
  if o = 0 then fnDeviceId fn * 2 ^ 16 + Config.pcieVendor % 2 ^ 16
  else if o = 8 then classCode * 2 ^ 8 + Config.pcieRevision % 2 ^ 8
  else if o = 0x10 then 4
  else if fn = .pf && o = 0x800 then 0x000B + 2 ^ 16 + Config.pcieNext % 2 ^ 12 * 2 ^ 20
  else if fn = .pf && o = 0x804 then 0x0051 + 2 ^ 16 + 0x64 * 2 ^ 20
  else 0

end Sys2Proof.Machine
end

