-- ==== Sys2Proof/Machine/Window.lean ====
section
/-! DEFINITION. Reading registers (spec/03_host_commands.md R73 to R75): a register's place in a function's BAR0, its value, the query
windows and the counter windows (R143, R180, R279, R299, R325, R354, R367, R387, R460, R461). -/
namespace Sys2Proof.Machine

/-! ## Places -/

/-- The place of a register among the model's register addresses. -/
def fnAbs (fn : Fn) (off : Nat) : Nat :=
  match fn with
  | .pf => off
  | .vf r => vfBase r + off

/-- Whether an array of registers with two strides holds one at `off`. -/
def strideAt (b s1 c1 s2 c2 off : Nat) : Bool :=
  let r := off - b
  let i := if s1 = 0 then 0 else r / s1
  let q := r - i * s1
  let j := if s2 = 0 then 0 else q / s2
  decide (b ≤ off) && decide (i < c1) && decide (j < c2) && decide (q = j * s2)

/-- How many copies of a register a VF has where that is fewer than the PF's: one event queue, five counter selects. -/
def vfCount (d : RegDesc) : Nat :=
  if 0x30000 ≤ d.base ∧ d.base < 0x38000 then 1 else if d.base = 0x850000 then 5 else d.c1

/-- The PF offset that names a function's register at `off`: its own copy's, none where the descriptor has none there. -/
def pfPlace (fn : Fn) (d : RegDesc) (off : Nat) : Option Nat :=
  match fn with
  | .pf => if strideAt d.base d.s1 d.c1 d.s2 d.c2 off then some off else none
  | .vf _ => match d.vf with
    | some v => if strideAt v d.s1 (vfCount d) d.s2 d.c2 off then some (off - v + d.base) else none
    | none => none

/-- Registers of the PF windows that a VF sees at a place of its own: its generation, the block stamp (R74), its pool (R279), its Line
Adapter settings (R325), the DMA channels it owns (R402). -/
def vfAlias (r off : Nat) (s : State) : Option Nat :=
  if off = 0x3000 then some (0x40100 + 4 * r)
  else if off = 0x3008 then some 8
  else if off = 0x3600 then some (0x501100 + 4 * r)
  else if off = 0x37C0 then some (0x621000 + 16 * r)
  else if off = 0x37C4 then some (0x621004 + 16 * r)
  else if 0x3A00 ≤ off ∧ off < 0x3B00 ∧ off % 4 = 0 then
    let c := (off - 0x3A00) / 8
    let owner := if 28 ≤ c then 0xF0 else fget (R.DMA_CH_CFG_owner c) s
    if owner = r then some (0x700000 + 256 * c + (if off % 8 = 0 then 0x18 else 0x1C)) else none
  else none

/-- A register found: its descriptor, the PF offset that names it, the address that holds it. -/
structure RegRef where
  d : RegDesc
  pf : Nat
  addr : Nat

/-- The register of a function at an offset. -/
def regAt (fn : Fn) (off : Nat) (s : State) : Option RegRef :=
  let own := regTable.findSome? fun d => (pfPlace fn d off).map fun p => (⟨d, p, fnAbs fn off⟩ : RegRef)
  match own, fn with
  | some r, _ => some r
  | none, .vf r => (vfAlias r off s).bind fun p =>
    regTable.findSome? fun d => (pfPlace .pf d p).map fun q => (⟨d, q, q⟩ : RegRef)
  | none, .pf => none

/-- A field placed in a register's value. -/
def put (lo w v : Nat) : Nat := v % 2 ^ w * 2 ^ lo

def putB (lo : Nat) (b : Bool) : Nat := b2n b * 2 ^ lo

/-- A register's stored value. -/
def regStored (d : RegDesc) (addr : Nat) (s : State) : Nat :=
  (d.fields.map fun f => if f.ty = .wo then 0 else put f.lo f.w (tget f.rst s.regs (addr * 64 + f.lo))).foldl (· + ·) 0

/-- GLB_ID: part, grade fuse, stepping. -/
def glbId : Nat := 0x1640 + Config.grade % 2 * 2 ^ 16 + 0xB1 * 2 ^ 20

/-! ## Query windows -/

/-- The units' state as the query registers show it. -/
def seen (s : State) : State := { s with
  ctl := s.shown.ctl
  aud := s.shown.aud
  egr := s.shown.egr
  fwd := s.shown.fwd
  vid := s.shown.vid }

/-- The object a select field names, where the function may query it. -/
def selected (fn : Fn) (f : Fld) (kind m : Nat) (s : State) : Option Nat :=
  if owns fn kind (fget f s % m) s then some (fget f s) else none

/-- AUD_ACT_STATUS. -/
def actWord (a : Nat) (q : State) : Nat :=
  match tfind q.ctl.acts a with
  | none => 0
  | some t =>
    let x := actAud a q
    put 0 1 x.active + putB 1 (decide (t.tpl.kind = 1)) + put 2 4 x.bank.hdr.topN + put 6 4 x.spk.length + putB 10 x.swapActive
      + put 16 16 x.gen

/-- AUD_ACT_SPK_n. -/
def spkWord (a n : Nat) (q : State) : Nat :=
  match (actAud a q).spk[n]? with
  | none => 0
  | some m =>
    let b := stampSub q.clk.stamp 1
    put 0 14 m.leg + putB 14 true + putB 15 m.out.isSome + put 16 7 (selLevel a m.leg b q) + putB 23 (selPinned a m.leg b q)

/-- AUD_LEG_STATUS. -/
def legWord (n : Nat) (q : State) : Nat :=
  match tfind q.ctl.legs n with
  | none => 0
  | some l =>
    let x := legAud n q
    let a := actAud l.act q
    let m := a.spk.find? fun p => decide (p.leg = n)
    putB 0 m.isSome + putB 1 (a.entering.any fun e => decide (e.1 = n))
      + putB 2 (((m.map fun p => p.out.isSome).getD false) || a.gone.any fun p => decide (p.leg = n))
      + putB 3 x.untrusted + putB 4 (decide (x.concealRun ≠ 0)) + putB 5 (decide ((actTpl l.act q).kind = 1)) + putB 6 x.window.isSome
      + put 7 7 (x.claimed.getD 0) + put 14 7 (x.measured.getD 0) + put 21 4 x.strikes

/-- AUD_LEG_METER. -/
def meterWord (n : Nat) (q : State) : Nat := put 0 16 (ofS 16 (legAud n q).rms) + put 16 16 (ofS 16 (legAud n q).peak)

/-- The held peak that a read of AUD_LEG_METER latched for the next read of AUD_LEG_HOLD of the same leg (R180; log entry 57). -/
def holdLatch (fn : Fn) (n : Nat) (s : State) : Option Nat :=
  match tfind s.hif.latch (64 + fnNum fn) with
  | some (m, v) => if m = n then some v else none
  | none => none

/-- VCT_SESS_STATUS, VCT_SESS_POOL and VCT_SESS_OUT. -/
def sessWord (i n : Nat) (q : State) : Nat :=
  match tfind q.vid.sess n with
  | none => 0
  | some x =>
    let slots := x.slots.filterMap fun p => p.2
    let held := x.holds.map (·.1)
    let used := (List.range x.bufs.length).filter fun k => x.marked k
    match i with
    | 0 => put 0 3 x.st + put 3 7 x.tile + put 10 4 x.sid + put 14 3 x.tid + put 17 8 x.reason
    | 1 => put 0 5 x.bufs.length + put 8 5 used.length + put 16 5 slots.eraseDups.length + put 24 5 held.eraseDups.length
    | _ => match x.lastOut with
      | some (r, f) => put 0 48 r + put 48 8 f
      | none => 0

/-- VCT_ENC_STATUS, VCT_ENC_MODEL, VCT_ENC_LAST and VCT_ENC_RATE. -/
def encWord (i n : Nat) (q : State) : Nat :=
  match tfind q.vid.encs n with
  | none => 0
  | some e =>
    let z := e.last
    match i with
    | 0 => put 0 2 (if e.sent then 2 else 1) + put 2 7 e.tile + putB 9 (!e.reqs.isEmpty) + putB 10 (decide (e.deferred ≠ 0))
        + put 11 2 (e.since % (if e.cfg.tlayers = 1 then 1 else if e.cfg.tlayers = 2 then 2 else 4)) + putB 13 e.cfg.adapt
    | 1 => put 0 32 e.e + put 32 32 e.cfg.bm
    | 2 => put 0 32 z.bits + putB 32 z.key + putB 33 z.switch + putB 34 z.clamped + putB 35 z.repeated + putB 36 z.filler + put 37 2 z.tid
        + put 40 8 z.rows + put 48 8 z.qp
    | _ => put 0 32 (e.steer q.clk.stamp / 64)

/-- FWD_LEG_STATUS, FWD_LEG_EST and FWD_LEG_RATE. -/
def fwdWord (i n : Nat) (q : State) : Nat :=
  if (tfind q.fwd.legs n).isNone then 0
  else
    let x := fwdLeg n q
    let b := stampSub q.clk.stamp 1
    let open_ := match x.fall with
      | .openAt _ _ => true
      | _ => false
    match i with
    | 0 => put 0 14 (x.src.getD 0) + (match x.cur with
          | some c => put 14 2 c.s + put 16 2 c.t
          | none => 0) + (match x.pend with
          | some p => put 18 2 p.s + put 20 2 p.t + putB 22 true
          | none => 0) + putB 23 (x.sub.isSome && x.cur.isNone && !open_) + putB 24 open_ + putB 25 x.broken
    | 1 => put 0 32 x.a + put 32 32 (fwdCap n b q)
    | _ => put 0 32 x.rr + put 32 32 (fwdBudget n b q)

/-- FWD_RW_STATUS, FWD_RW_WPTR and FWD_RW_MARK_m. -/
def rwWord (i n : Nat) (q : State) : Nat :=
  match tfind q.egr.rings n with
  | none => 0
  | some r =>
    match i with
    | 0 => put 0 4 r.log2 + put 4 4 (r.staged.getD r.log2)
        + ((List.range 4).map fun m => putB (8 + m) (tfind r.marks m).isSome).foldl (· + ·) 0 + putB 12 r.lost
    | 1 => put 0 32 (r.top.getD 0)
    | k => put 0 32 (tget 0 r.marks (k - 2))

/-- CMP_CV_STATUS, CMP_CV_TICK and CMP_CV_SIG_n. -/
def cvWord (i n : Nat) (q : State) : Nat :=
  match liveCanvas n q with
  | none => 0
  | some x =>
    match i with
    | 0 => put 0 2 (if x.suspended then 2 else 1) + put 2 2 x.comp + putB 4 x.fallback.isSome
        + putB 5 (decide (q.vid.dp.shown.map (·.1) = some n)) + put 6 2 x.policy + putB 8 x.sigFail + putB 9 (assetFor n q).isSome
        + put 10 6 (x.layout.layers.filter (·.visible)).length + put 16 16 x.gen
    | 1 => put 0 48 (x.tick x.k)
    | k =>
      let want := if k = 10 then (x.safe.bind fun c => marqueeCrc false c).getD 0
        else match x.layout.regions[k - 2]? with
          | some g => if g.learn then tget 0 x.learnt (x.gen * 16 + (k - 2)) else g.crc
          | none => 0
      put 0 32 (x.crcs.getD (k - 2) 0) + put 32 32 want

/-- EGR_LEG_STATUS, EGR_LEG_LEVEL, EGR_LEG_DC and EGR_LEG_WMAX. -/
def egrWord (i n : Nat) (q : State) : Nat :=
  match tfind q.egr.legs n, tfind q.ctl.legs n with
  | some e, some l =>
    (match i with
     | 0 => put 0 2 e.sh.queue + putB 2 e.path.isSome + put 3 10 e.q.length + putB 13 (decide (e.lv ≤ 0))
     | 1 => ofS 64 e.lv
     | 2 => put 0 32 e.dc
     | _ => put 0 32 (shWmax e.sh l))
  | _, _ => 0

/-- KEY_SLOT_QINFO and KEY_SLOT_QKCV. -/
def keyWord (i n : Nat) (s : State) : Nat :=
  let k := keySlot n s
  if i = 0 then putB 0 k.valid + putB 1 (keyBound n s) + put 8 8 k.profile + put 16 16 k.gen else if k.valid then put 0 24 k.kcv else 0

/-- A query register's value by the PF offset that names it; none where the register is no query register. -/
def queryValue (fn : Fn) (p : Nat) (s : State) : Option Nat :=
  let q := seen s
  let one := fun (f : Fld) (kind m : Nat) (g : Nat → Nat) => some (match selected fn f kind m s with
    | some n => g n
    | none => 0)
  let sel := fun (f : Fld) (kind m : Nat) => some (fget f s + putB 16 (selected fn f kind m s).isSome)
  let act := R.AUD_ACT_SEL_act fn
  let leg := R.AUD_LEG_SEL_leg fn
  let ses := R.VCT_SESS_SEL_stream fn
  let enc := R.VCT_ENC_SEL_encode fn
  let fwl := R.FWD_LEG_SEL_leg fn
  let rws := R.FWD_RW_SEL_stream fn
  let cvs := R.CMP_CV_SEL_canvas fn
  let egl := R.EGR_LEG_SEL_leg fn
  let key := R.KEY_SLOT_QSEL_slot fn
  if p = 0 then some glbId
  else if p = 8 then some (s.clk.stamp + s.clk.offset * 2 ^ 48)
  else if 0x141000 ≤ p ∧ p < 0x141400 then some (((List.range 16).map fun k => steerBay (4 * (p - 0x141000) + k) s * 4 ^ k).foldl (· + ·) 0)
  else if p = 0x80100 then sel key 3 65536
  else if p = 0x80104 then one key 3 65536 fun n => keyWord 0 n s
  else if p = 0x80108 then one key 3 65536 fun n => keyWord 1 n s
  else if p = 0x200000 then sel act 1 4096
  else if p = 0x200004 then one act 1 4096 fun n => actWord n q
  else if 0x200010 ≤ p ∧ p < 0x200030 then one act 1 4096 fun n => spkWord n ((p - 0x200010) / 4) q
  else if p = 0x200040 then sel leg 0 16384
  else if p = 0x200044 then one leg 0 16384 fun n => legWord n q
  else if p = 0x200048 then one leg 0 16384 fun n => meterWord n q
  else if p = 0x20004C then one leg 0 16384 fun n => (holdLatch fn n s).getD (ofS 16 (legAud n q).held)
  else if p = 0x501000 then sel ses 2 65536
  else if p = 0x501004 then one ses 2 65536 fun n => sessWord 0 n q
  else if p = 0x501008 then one ses 2 65536 fun n => sessWord 1 n q
  else if p = 0x501010 then one ses 2 65536 fun n => sessWord 2 n q
  else if p = 0x501040 then sel enc 4 256
  else if p = 0x501044 then one enc 4 256 fun n => encWord 0 n q
  else if p = 0x501048 then one enc 4 256 fun n => encWord 1 n q
  else if p = 0x501050 then one enc 4 256 fun n => encWord 2 n q
  else if p = 0x501058 then one enc 4 256 fun n => encWord 3 n q
  else if p = 0x620040 then sel fwl 0 16384
  else if p = 0x620044 then one fwl 0 16384 fun n => fwdWord 0 n q
  else if p = 0x620048 then one fwl 0 16384 fun n => fwdWord 1 n q
  else if p = 0x620050 then one fwl 0 16384 fun n => fwdWord 2 n q
  else if p = 0x620060 then sel rws 2 65536
  else if p = 0x620064 then one rws 2 65536 fun n => rwWord 0 n q
  else if p = 0x620068 then one rws 2 65536 fun n => rwWord 1 n q
  else if 0x620070 ≤ p ∧ p < 0x620080 then one rws 2 65536 fun n => rwWord (2 + (p - 0x620070) / 4) n q
  else if p = 0x648000 then sel cvs 4 256
  else if p = 0x648004 then one cvs 4 256 fun n => cvWord 0 n q
  else if p = 0x648008 then one cvs 4 256 fun n => cvWord 1 n q
  else if 0x648010 ≤ p ∧ p < 0x648058 then one cvs 4 256 fun n => cvWord (2 + (p - 0x648010) / 8) n q
  else if p = 0x182000 then sel egl 0 16384
  else if p = 0x182004 then one egl 0 16384 fun n => egrWord 0 n q
  else if p = 0x182008 then one egl 0 16384 fun n => egrWord 1 n q
  else if p = 0x182010 then one egl 0 16384 fun n => egrWord 2 n q
  else if p = 0x182014 then one egl 0 16384 fun n => egrWord 3 n q
  else none

/-- A core's register or word that TMB_DBG_DATA shows, while the core is HALTED (R228). -/
def debugWord (c : Nat) (s : State) : Nat :=
  if coreSt c s ≠ csHalted then 0
  else
    let k := coreGet c s
    let i := fget (R.TMB_DBG_SEL_index c) s
    match fget (R.TMB_DBG_SEL_space c) s with
    | 0 => (k.rd (i % 32)).toNat
    | 1 => if 0x3C ≤ i && i ≤ 0x3F then (k.accRd ((i - 0x3C) / 2)).toNat / 2 ^ (32 * (i % 2)) % 2 ^ 32 else mfcVal (i % 64) s.free k
    | 2 => (tget 0 k.x (i % 16384)).toNat
    | _ => (tget 0 k.y (i % 16384)).toNat

/-- The core of a TMB register. -/
def coreOfPlace (p : Nat) : Nat := (p - 0x300000) / 0x10000 * 17 + ((p - 0x300000) % 0x10000 - 0x1000) / 0x100

/-- The kind and number of the objects that counter select register `k` names (R461). -/
def cselKind (k : Nat) : Nat × Nat :=
  match k with
  | 0 => (0, 16384)
  | 1 => (2, 65536)
  | 2 => (1, 4096)
  | _ => (4, 256)

/-- A counter select register as it reads: the index, and whether the function may query it; OBS_CSEL_RING is the PF's alone. -/
def cselValue (fn : Fn) (k : Nat) (s : State) : Nat :=
  let f := R.OBS_CSEL_id fn k
  if k = 5 then (match fn with
    | .pf => fget f s + putB 16 (decide (fget f s < 16))
    | .vf _ => 0)
  else fget f s + putB 16 (selected fn f (cselKind k).1 (cselKind k).2 s).isSome

/-- The tile and core registers with a value of their own: a tile's duty at reset is its own (R23), a channel of the Ringmaster reads its
owner (R388), a queue's corr bit follows its count of corrected words (R251), a core's pending halt and step show (R233), the compositor that draws DIAG reads 3 (R352, R354), TMB_DBG_DATA shows the core's state, PTP's registers the time. -/
def regValue (fn : Fn) (r : RegRef) (s : State) : Nat :=
  match queryValue fn r.pf s with
  | some v => v
  | none =>
    let v := regStored r.d r.addr s
    if r.d.base = 0x500004 then
      let t := (r.pf - 0x500004) / 0x4000
      put 0 7 (fget (R.VCT_TILE_DUTY_duty_of t) s) + v / 128 * 128
    else if r.d.base = 0x700000 && 0x1C ≤ (r.pf - 0x700000) / 256 then v / 256 * 256 + 0xF0
    else if r.d.base = 0x640000 && v % 4 = 0 && (fon R.DP_STATUS_forced_diag s || s.vid.dp.mode = 1)
        && (baysIn s).head? = some ((r.pf - 0x640000) / 65536) then v + 3
    else if r.d.base = 0x850000 then cselValue fn ((r.pf - 0x850000) / 4) s
    else if r.d.base = 0x30101C then debugWord (coreOfPlace r.pf) s
    else if r.d.base = 0x301004 then
      let k := coreGet (coreOfPlace r.pf) s
      putBits (putBits v 1 1 (b2n k.halt)) 2 1 (b2n k.step)
    else if r.d.base = 0x103004 then (s.clk.ptp / 65536 + s.clk.offset * 500000 / 24) % 1000000000
    else if r.d.base = 0x103008 then s.clk.latchSec
    else if r.d.base = 0x2A0010 then v / 2 * 2 + b2n (qeccCorr ((r.pf - 0x2A0010) / 0x20) s)
    else v

/-! ## Counter windows -/

/-- The object counter of a function's window at an offset within its counter space (R461, R462). -/
def objValue (fn : Fn) (o : Nat) (s : State) : Nat :=
  let at_ := fun (k : Nat) =>
    match selected fn (R.OBS_CSEL_id fn k) (cselKind k).1 (cselKind k).2 s with
    | some n => tget 0 s.cntSh (objCnt k (n % 2 ^ 20) (o % 0x400))
    | none => 0
  if o < 0x1000 ∨ 0x2800 ≤ o ∨ o % 8 ≠ 0 ∨ 512 ≤ o % 0x400 then 0
  else match (o - 0x1000) / 0x400 with
    | 0 => at_ 0
    | 1 => at_ 1
    | 2 => at_ 2
    | 3 => at_ 3
    | 4 => at_ 4
    | _ => match fn with
      | .pf => if fget (R.OBS_CSEL_id fn 5) s < 16 then tget 0 s.cntSh (ringCnt (fget (R.OBS_CSEL_id fn 5) s) (o % 0x400)) else 0
      | .vf r => tget 0 s.cntSh (ringCnt r (o % 0x400))

/-- A byte of the Ledger as its window shows it (R380, R387): the fault log and the retired-unit table as they stand; a header record or
save bank at the model's free places (log entry 47); 0 in the reserved area. -/
def ledgerShown (a : Nat) (s : State) : Nat :=
  if a < 0x10000 then Config.ledgerByte (if a < 0x8000 then s.ldg.hdrA.seq else s.ldg.hdrB.seq) a % 256
  else if a < 0x820000 then (Memory.read s.mem.ledger a).toNat
  else if a < 0xE20000 then Config.ledgerByte s.ldg.bankA.seq a % 256
  else if a < 0x1420000 then Config.ledgerByte s.ldg.bankB.seq a % 256
  else 0

/-- The base of a function's MSI-X table, the number of its vectors, its pending bits (R71, R73, R74; log entry 6). -/
def msixTable (fn : Fn) : Nat :=
  match fn with
  | .pf => 0x20000
  | .vf _ => 0x2000
def msixCount (fn : Fn) : Nat :=
  match fn with
  | .pf => 2048
  | .vf _ => 64
def msixPba (fn : Fn) : Nat :=
  match fn with
  | .pf => 0x28000
  | .vf _ => 0x2800

/-- The base of a function's result slots. -/
def slotBase (fn : Fn) : Nat :=
  match fn with
  | .pf => 0x11000
  | .vf _ => 0x1000

/-- The bytes of a result slot: its completion, or NOT_READY (R84). -/
def slotBytes (fn : Fn) (n : Nat) (s : State) : List Byte :=
  match (tfind s.hif.slots (slotKey fn n)).bind (·.ready) with
  | some l => l
  | none => setAt (List.replicate 32 0) 6 0x07

/-- The mailbox's response (R94): NOT_READY while done is 0. -/
def mbxBytes (s : State) : List Byte :=
  if fon R.MBX_CTRL_done s then s.hif.mbx.rsp else (0x07 : Byte) :: List.replicate 71 0

/-- Words outside the register table: object counters, 64-bit counters, result slots, MSI-X table and pending bits, the Ledger's window,
the mailbox's request and response. -/
def otherWord (fn : Fn) (off : Nat) (s : State) : Nat :=
  let cs := cselBase fn - (match fn with
    | .pf => 0
    | .vf r => vfBase r)
  let half := fun (v : Nat) => if off % 8 = 0 then v % 2 ^ 32 else v / 2 ^ 32
  if cs ≤ off ∧ off < cs + 0x10000 then half (objValue fn (off / 8 * 8 - cs) s)
  else if slotBase fn ≤ off ∧ off < slotBase fn + 2048 then
    le (slotBytes fn ((off - slotBase fn) / 32) s) ((off - slotBase fn) % 32) 4
  else if msixTable fn ≤ off ∧ off < msixTable fn + 16 * msixCount fn then
    let e := tget Msix.init s.hif.msix (msixKey fn ((off - msixTable fn) / 16))
    match off % 16 / 4 with
    | 0 => e.addr % 2 ^ 32
    | 1 => e.addr / 2 ^ 32
    | 2 => e.data
    | _ => b2n e.mask
  else if msixPba fn ≤ off ∧ off < msixPba fn + msixCount fn / 8 then
    ((List.range 32).map fun i => putB i (tget Msix.init s.hif.msix (msixKey fn (8 * (off - msixPba fn) + i))).pending).foldl (· + ·) 0
  else if fn = .pf ∧ 0x7C1000 ≤ off ∧ off < 0x7C2000 then
    let a := fget R.LDG_WIN_SEL_page s * 4096 + (off - 0x7C1000)
    ((List.range 4).map fun i => ledgerShown (a + i) s * 256 ^ i).foldl (· + ·) 0
  else if fn = .pf ∧ mbxAddr + 4 ≤ off ∧ off < mbxAddr + 0x14 then le s.hif.mbx.req (off - mbxAddr - 4) 4
  else if fn = .pf ∧ mbxAddr + 0x14 ≤ off ∧ off < mbxAddr + 0x5C then le (mbxBytes s) (off - mbxAddr - 0x14) 4
  else if cfgAddr ≤ off then cfgWord fn (off - cfgAddr)
  else half (cshow (fnAbs fn (off / 8 * 8)) s)

/-- The 64-bit register or counter whose low half stands at an offset; none where there is none. -/
def wideAt (fn : Fn) (off : Nat) (s : State) : Option Nat :=
  if off % 8 ≠ 0 || !reaches fn off then none
  else match regAt fn off s with
    | some r => if r.d.wide then some (regValue fn r s) else none
    | none =>
      if (regAt fn (off + 4) s).isSome then none
      else
        let v := otherWord fn off s + otherWord fn (off + 4) s * 2 ^ 32
        if (slotBase fn ≤ off ∧ off < slotBase fn + 2048) ∨ (msixTable fn ≤ off ∧ off < msixPba fn + 256) ∨ cfgAddr ≤ off then none else some v

/-- A 32-bit word of a function's BAR0, or of its configuration space, as it stands; 0 outside both (R73). -/
def wordAt (fn : Fn) (off : Nat) (s : State) : Nat :=
  if !reaches fn off then 0
  else match regAt fn off s with
  | some r => regValue fn r s % 2 ^ 32
  | none => match wideAt fn (off - 4) s with
    | some v => if off % 8 = 4 then v / 2 ^ 32 else otherWord fn off s
    | none => otherWord fn off s

end Sys2Proof.Machine
end

