-- ==== Sys2Proof/Machine/Mbx.lean ====
section
/-! DEFINITION. The always-on path: the configuration mailbox and SMBus (spec/03_host_commands.md R93, R94; spec/18_power_clocks_boot.md
R434; spec/21_package_electrical.md R487). -/
namespace Sys2Proof.Machine

/-- An outcome of a mailbox operation: status and data. -/
def mbxOk (data : List Byte) : Nat × List Byte := (stOk, data)
def mbxErr (st : Nat) : Nat × List Byte := (st, [])

/-- The 72 bytes of a response: status, sequence number, length, five reserved bytes, 64 data bytes. -/
def mbxRsp (seq : Nat) (r : Nat × List Byte) : List Byte :=
  leBytes 1 r.1 ++ leBytes 1 seq ++ leBytes 1 r.2.length ++ List.replicate 5 0 ++ padTo 0 64 r.2

/-- The operations that the boot ROM, or the keeper's responder, serves in a phase (R434, R437; log entry 53). -/
def mbxServed (op : Nat) (s : State) : Bool :=
  let p := phase s
  if p = phRomFail then [1, 2, 4].contains op
  else if [phRom, phFw, phFwFail, phStopping, phSaving, phStopped].contains p then within 1 4 op
  else true

/-! ## The operations (R93) -/

/-- IDENTITY: GLB_ID, the serial number, the image identity, image_version. -/
def mbxIdentity (s : State) : State × (Nat × List Byte) :=
  (s, mbxOk (leBytes 4 glbId ++ leBytes 8 Config.serial ++ ((List.range 12).map fun n => leBytes 4 (fget (R.FRM_DIGEST_digest n) s)).flatten
    ++ leBytes 4 (fget R.FRM_IMAGE_VER_image_version s)))

/-- STATUS: block stamp, FRM_STATUS, Bay states, die temperature, in a layout of the model's (log entry 49). -/
def mbxStatus (s : State) : State × (Nat × List Byte) :=
  (s, mbxOk (leBytes 8 s.clk.stamp ++ leBytes 4 (wordAt .pf 0x40000 s) ++ ((List.range 4).map fun b => leBytes 1 (baySt b s)).flatten
    ++ leBytes 2 (fget (R.PWR_THERM_temp 0) s)))

/-- FAULTLOG_READ: one entry; of an index that is not retained, the oldest that is. -/
def mbxFaultlog (index : Nat) (s : State) : State × (Nat × List Byte) :=
  (s, match logEntry index s with
    | some e => mbxOk e
    | none => (stBadArg, leBytes 4 (fget R.LDG_LOG_OLDEST_oldest s)))

/-- KEY_ZEROISE: all slots, or those of Ring `ringArg` − 1. -/
def mbxZeroise (ringArg : Nat) (s : State) : State × (Nat × List Byte) :=
  if 16 < ringArg then (s, mbxErr stBadId) else (zeroise (if ringArg = 0 then .device else .ring (ringArg - 1)) 3 s, mbxOk [])

/-- BAY_QUARANTINE. -/
def mbxQuarantine (bay : Nat) (s : State) : State × (Nat × List Byte) :=
  if 4 ≤ bay then (s, mbxErr stBadId) else (bayQuarantine bay s, mbxOk [])

/-- BAY_WARM_RESET: of a quarantined Bay. -/
def mbxWarmReset (bay : Nat) (s : State) : State × (Nat × List Byte) :=
  if 4 ≤ bay then (s, mbxErr stBadId)
  else if baySt bay s = bsQuar then (bayWarmReset bay s, mbxOk []) else (s, mbxErr stBadState)

/-- An operation carried out. One that the table does not list answers BAD_OPCODE (log entry 166). -/
def mbxOp (op arg : Nat) (s : State) : State × (Nat × List Byte) :=
  if 1 ≤ op && op ≤ 7 && !mbxServed op s then (s, mbxErr stBadState)
  else match op with
    | 1 => mbxIdentity s
    | 2 => mbxStatus s
    | 3 => mbxFaultlog arg s
    | 4 => mbxZeroise arg s
    | 5 => mbxQuarantine arg s
    | 6 => mbxWarmReset arg s
    | 7 => (wdtKick s, mbxOk [])
    | _ => (s, mbxErr stBadOpcode)

/-! ## The two paths (R94) -/

/-- A request in MBX_REQ: op, sequence number, two reserved bytes, the argument. -/
def mbxReqOf (op seq arg : Nat) : List Byte := leBytes 1 op ++ leBytes 1 seq ++ leBytes 2 0 ++ leBytes 12 arg

/-- A request written to MBX_REQ. -/
def mbxReqPut (op seq arg : Nat) (s : State) : State := { s with hif := { s.hif with mbx := { s.hif.mbx with req := mbxReqOf op seq arg } } }

/-- go written: the request in MBX_REQ is in progress, or, while one is, nothing starts and collision is set. -/
def mbxGo (s : State) : State := if fon R.MBX_CTRL_busy s then fset R.MBX_CTRL_collision 1 s else fset R.MBX_CTRL_busy 1 s

/-- The request in progress carried out: its response, done, and no request in progress. -/
def mbxRun (s : State) : State :=
  if !fon R.MBX_CTRL_busy s then s
  else
    let q := s.hif.mbx.req
    let r := mbxOp (le q 0 1) (le q 4 4) s
    let s := { r.1 with hif := { r.1.hif with mbx := { r.1.hif.mbx with rsp := mbxRsp (le q 1 1) r.2 } } }
    fset R.MBX_CTRL_done 1 (fset R.MBX_CTRL_busy 0 s)

/-- The 7-bit SMBus address: 0x5C plus the strap. -/
def smbAddress (s : State) : Nat := 0x5C + s.pwr.strap

/-- An operation that a row names on one of the two paths. In the mailbox it carries out the request in progress where that is this one;
with none in progress it stands for the whole request, MBX_REQ and go with it; any other go sets collision. Over SMBus a request with a
wrong PEC or another address is ignored, a control operation needs smb_ctl, and a request in the mailbox that came before is carried out
first (R93). -/
def mbxRequest (op : Nat) (p : MbxPath) (seq arg : Nat) (pec : Bool) (s : State) : State :=
  match p with
  | .config =>
    if fon R.MBX_CTRL_busy s then (if s.hif.mbx.req = mbxReqOf op seq arg then mbxRun s else mbxGo s)
    else mbxRun (mbxGo (mbxReqPut op seq arg s))
  | .smbus addr =>
    if !pec || addr ≠ smbAddress s then s
    else
      let s := mbxRun s
      let r := if 5 ≤ op && !fon R.GLB_AON_CFG_smb_ctl s then (s, mbxErr stDenied) else mbxOp op arg s
      { r.1 with hif := { r.1.hif with mbx := { r.1.hif.mbx with smb := mbxRsp seq r.2 } } }

/-! ## Rows -/

/-- MBX_IDENTITY. -/
def execMbxIdentity (p : MbxPath) (seq : Nat) (pec : Bool) (s : State) : Out := .next (mbxRequest 1 p seq 0 pec s)

/-- MBX_STATUS. -/
def execMbxStatus (p : MbxPath) (seq : Nat) (pec : Bool) (s : State) : Out := .next (mbxRequest 2 p seq 0 pec s)

/-- MBX_FAULTLOG_READ. -/
def execMbxFaultlogRead (p : MbxPath) (seq : Nat) (pec : Bool) (index : Nat) (s : State) : Out := .next (mbxRequest 3 p seq index pec s)

/-- MBX_KEY_ZEROISE. -/
def execMbxKeyZeroise (p : MbxPath) (seq : Nat) (pec : Bool) (ringArg : Nat) (s : State) : Out := .next (mbxRequest 4 p seq ringArg pec s)

/-- MBX_BAY_QUARANTINE. -/
def execMbxBayQuarantine (p : MbxPath) (seq : Nat) (pec : Bool) (bay : Nat) (s : State) : Out := .next (mbxRequest 5 p seq bay pec s)

/-- MBX_BAY_WARM_RESET. -/
def execMbxBayWarmReset (p : MbxPath) (seq : Nat) (pec : Bool) (bay : Nat) (s : State) : Out := .next (mbxRequest 6 p seq bay pec s)

/-- WDT_KICK (R435). -/
def execWdtKick (p : MbxPath) (seq : Nat) (pec : Bool) (s : State) : Out := .next (mbxRequest 7 p seq 0 pec s)

/-- SMBUS_RESPONSE_READ: the response of the last SMBus request, or NOT_READY. -/
def execSmbusResponseRead (s : State) : Out :=
  .next { s with out := .smbus (if s.hif.mbx.smb.isEmpty then (0x07 : Byte) :: List.replicate 71 0 else s.hif.mbx.smb) :: s.out }

/-- SMBUS_BUS_RECOVERY (R487): no response is formed, the interface is reset, the fault log has an entry of class 7. -/
def execSmbusBusRecovery (s : State) : Out :=
  .next (faultLog ⟨0, 7, 0, Config.wiringLog 0, 0, 0, 0, 0xFF, Config.wiringLog 1, 0⟩
    { s with hif := { s.hif with mbx := { s.hif.mbx with smb := [] } } }).2

end Sys2Proof.Machine
end

