-- ==== Sys2Proof/Machine/ObsOps.lean ====
section
/-! DEFINITION. Captures, replays and telemetry streams (spec/20_observability.md R465, R466, R470, R471). -/
namespace Sys2Proof.Machine

/-! ## Captures (R470) -/

/-- What completes CAPTURE at intake. -/
def capIntake (c : Cmd) (s : State) : Option Rsp :=
  match idRefused c 1 actLimit c.target s with
  | some r => some r
  | none =>
    if carg c 0x18 8 % 4096 ≠ 0 || !within 16 34 (carg c 0x20 1) || 3 < carg c 0x21 1 || carg c 0x22 6 ≠ 0 || 2 ^ 48 ≤ carg c 0x28 8
        || 2 ^ 48 ≤ carg c 0x30 8 || !czero c 0x38 then some (rspErr stBadArg)
    else if (tfind s.ctl.acts c.target).isNone then some (rspErr stBadState)
    else if (tfind s.obs.caps (fnNum c.fn)).isSome then some (rspErr stBusy)
    else none

def capPut (fn : Fn) (x : Cap) (s : State) : State := { s with obs := { s.obs with caps := tset s.obs.caps (fnNum fn) x } }

/-- A capture taken; it begins at a boundary. -/
def capBegin (c : Cmd) (s : State) : State :=
  capPut c.fn ⟨c.tag, c.target, carg c 0x21 1, carg c 0x18 8, carg c 0x20 1, carg c 0x28 8, carg c 0x30 8, false, false, none, [], 0⟩ s

/-- A capture ended. -/
def capEnd (fn : Fn) (tag : Nat) (st : LopSt) (status reason : Nat) (s : State) : State :=
  lopEnd fn tag st status reason 0 false 0 0 { s with obs := { s.obs with caps := terase s.obs.caps (fnNum fn) } }

/-- Bytes written into the host's byte ring at its tail, wrapping at its size (log entry 37). -/
def capRing (a size tail : Nat) (l : List Byte) (s : State) : State :=
  let n := size - tail % size
  hostWrite (a + tail % size) (l.take n) (hostWrite a (l.drop n) s)

/-- The records of the closed block written, with its BLOCK_END, where they fit between tail and head; else OVERRUN. While the link is down
they wait (R72). -/
def capWrite (fn : Fn) (b : Nat) (x : Cap) (s : State) : State :=
  let l := x.buf ++ if x.on then capBytes ⟨9, 0, b, 0, 0, 0, 0, []⟩ else []
  let size := 2 ^ x.log2
  let tail := fget (R.OBS_CAP_TAIL_tail fn) s
  let used := (tail + 2 ^ 35 - fget (R.OBS_CAP_HEAD_head fn) s) % 2 ^ 35
  let n := x.count + b2n x.on
  if size < used + l.length || (s.mem.linkUp && !hostOk x.addr size s) then capEnd fn x.tag .failed stFailed 2 s
  else if !s.mem.linkUp then capPut fn { x with buf := l, count := n } s
  else
    let s := cadd 0x840128 n (capRing x.addr size tail l s)
    capPut fn { x with
      buf := []
      count := 0 } (fset (R.OBS_CAP_TAIL_tail fn) ((tail + l.length) % 2 ^ 35) s)

/-- A capture that records no more: it ends once what it recorded is written. -/
def capClose (fn : Fn) (x : Cap) (st : LopSt) (status : Nat) (s : State) : State :=
  if x.buf.isEmpty then capEnd fn x.tag st status 0 s else capPut fn { x with on := false } s

/-- The HEADER record of a capture: identity, generations, Act and Ring (R470; log entry 38). -/
def capHeader (b : Nat) (x : Cap) (s : State) : List Byte :=
  let d := ((List.range 12).map fun n => leBytes 4 (fget (R.FRM_DIGEST_digest n) s)).flatten
  let g := ((List.range 17).map fun k => leBytes 4 (generation k s)).flatten
  let r := ((tfind s.ctl.acts x.act).map (·.ring)).getD 0
  capBytes ⟨8, 0, b, 0, 0, 0, 0, d ++ g ++ leBytes 2 x.act ++ leBytes 1 r⟩

/-- A capture at boundary `b`, before the boundary's work: the closed block is written; a pending suspend or cancel, the stop block, the
start block and a resume take effect. -/
def capBoundary (b : Nat) (fn : Fn) (s : State) : State :=
  match tfind s.obs.caps (fnNum fn) with
  | none => s
  | some x =>
    let s := if x.on || !x.buf.isEmpty then capWrite fn (stampSub b 1) x s else s
    match tfind s.obs.caps (fnNum fn), lopFind fn x.tag s with
    | some x, some l =>
      match l.st with
      | .queued => if x.start = 0 || stampGe b x.start then
            if x.stop ≠ 0 && stampGe b x.stop then capEnd fn x.tag .done stOk 0 s
            else
              let s := lopBegin fn x.tag s
              capPut fn { x with
                on := true
                begun := true
                buf := capHeader b x s
                count := 1 } s
          else s
      | .running =>
        if x.stop ≠ 0 && stampGe b x.stop then capClose fn x .done stOk s
        else if x.on then s
        else
          let g := x.gap.getD b
          let s := capPut fn { x with
            on := true
            gap := none
            buf := x.buf ++ capBytes ⟨10, 0, g, 0, 0, 0, 0, leBytes 8 g⟩
            count := x.count + 1 } s
          raise (ev EV_CAPTURE_GAP 0 (fnRing fn) 2 x.act g s) s
      | .suspending => lopMove fn x.tag .suspended (capPut fn { x with
            on := false
            gap := some b } s)
      | .cancelling => capClose fn x .cancelled stCancelled s
      | _ => s
    | _, _ => s

/-! ## Replays (R471) -/

/-- What completes REPLAY at intake. -/
def repIntake (c : Cmd) (s : State) : Option Rsp :=
  match idRefused c 1 actLimit c.target s with
  | some r => some r
  | none =>
    if !czero c 0x28 then some (rspErr stBadArg)
    else if (tfind s.ctl.acts c.target).isNone then some (rspErr stBadState)
    else if (tfind s.obs.reps (fnNum c.fn)).isSome then some (rspErr stBusy)
    else none

def repBegin (c : Cmd) (s : State) : State :=
  repPut (fnNum c.fn) ⟨c.tag, c.target, carg c 0x18 8, carg c 0x20 8, false, 0, [], false, 0, 0⟩ s

/-- A replay ended: payloads compared and mismatches in the result. -/
def repEnd (fn : Fn) (tag : Nat) (st : LopSt) (status reason : Nat) (s : State) : State :=
  let r := (tfind s.obs.reps (fnNum fn)).map fun x => x.compared % 2 ^ 32 + x.bad % 2 ^ 32 * 2 ^ 32
  lopEnd fn tag st status reason (r.getD 0) false 0 0 { s with obs := { s.obs with reps := terase s.obs.reps (fnNum fn) } }

/-- The records of a capture's bytes. -/
def capParse (fuel : Nat) (l : List Byte) : List CapRec :=
  match fuel with
  | 0 => []
  | f + 1 =>
    if l.length < 32 then []
    else
      let n := le l 0 2
      let r : CapRec := ⟨le l 2 1, le l 4 2, le l 8 8 % 2 ^ 48, bits (le l 8 8) 48 5, le l 16 6, le l 22 4, le l 26 1, (l.drop 32).take n⟩
      r :: capParse f (l.drop (32 + (n + 7) / 8 * 8))

/-- The header of a capture agrees with the image and generations in force. -/
def headerAgrees (h : CapRec) (s : State) : Bool :=
  decide (h.kind = 8) && ((List.range 12).all fun n => decide (le h.body (4 * n) 4 = fget (R.FRM_DIGEST_digest n) s)) &&
    (List.range 17).all fun k => decide (le h.body (48 + 4 * k) 4 = generation k s)

/-- Every stream context and leg that the capture's records name belongs to the Act (log entry 39). -/
def contextsAgree (act : Nat) (l : List CapRec) (s : State) : Bool :=
  l.all fun r =>
    if r.kind = 1 || r.kind = 2 || r.kind = 5 then match tfind s.ctl.streams r.id with
      | some st => decide (streamAct st s = act)
      | none => false
    else if r.kind = 3 then match tfind s.ctl.legs r.id with
      | some x => decide (x.act = act)
      | none => false
    else true

/-- A replay started at boundary `b`, or refused. -/
def repStart (b : Nat) (fn : Fn) (x : Rep) (s : State) : State :=
  if !s.mem.linkUp then s
  else if !hostOk x.addr x.length s then repEnd fn x.tag .failed stFailed 4 s
  else match capParse (x.length / 32 + 1) (hostRead x.addr x.length s) with
    | [] => repEnd fn x.tag .failed stFailed 1 s
    | h :: rs =>
      if !headerAgrees h s then repEnd fn x.tag .failed stFailed 1 s
      else if !contextsAgree x.act rs s then repEnd fn x.tag .failed stFailed 3 s
      else
        let s := lopBegin fn x.tag s
        repPut (fnNum fn) { x with
          started := true
          delta := stampSub b h.stamp
          recs := rs } s

/-- A captured cascade record taken again: an AUDIO record at its stamp on the replay's time base, a VIDEO packet for its release. -/
def repCas (delta : Nat) (r : CapRec) (s : State) : State :=
  let h := r.body.take 16
  let m : CasMsg := ⟨le h 1 1, r.id, casMe s, le h 3 1, le h 4 2, le h 6 2, stampAdd (le h 8 6) delta, r.body.drop 16, h⟩
  if m.typ = 0x20 then videoIn m s else farTake m.src m.stamp (casRecs 1 m.body) false s

/-- A captured ingress record injected past the Turnstile and the engines. -/
def repInject (delta : Nat) (r : CapRec) (s : State) : State :=
  let f : Frame := ⟨[], stampAdd r.stamp delta, r.offset, r.sec, r.ns, r.link, 0⟩
  match if r.kind = 4 then none else tfind s.ctl.streams r.id with
  | none => if r.kind = 4 then repCas delta r s else s
  | some st =>
    if r.kind = 1 then
      let p := r.body
      match seqExtend st.seq (be p 2 2) with
      | (none, x) => streamPut r.id { st with seq := x } s
      | (some q, x) =>
        let st1 : Stream := { st with
          seq := x
          rx := rxAfter st q (be p 4 4) f
          ssrc := if st.known then st.ssrc else be p 8 4
          known := true }
        let s := cadd (strCnt r.id 0xE0) p.length (cinc (strCnt r.id 0xD8) (streamPut r.id st1 s))
        placeRtp r.id q st1 p f s
    else rtcpReceived st.leg f.arrival receiverRequest (toNats r.body) s

/-- The records of the block that ends, `b` less one, injected in order. -/
def repFeed (b : Nat) (s : State) : State :=
  s.obs.reps.foldl (fun s p =>
    if !p.2.started then s
    else
      let due := p.2.recs.filter fun r => (r.kind = 1 || r.kind = 2 || r.kind = 4) && r.stamp = stampSub (stampSub b 1) p.2.delta
      let s := due.foldl (fun s r => repInject p.2.delta r s) s
      match tfind s.obs.reps p.1 with
      | none => s
      | some x => repPut p.1 { x with recs := x.recs.filter fun r => !due.contains r } s) s

/-- A configuration change of the capture that nothing has matched by the end of its block. -/
def repMissed (b : Nat) (x : Rep) : Option CapRec :=
  x.recs.find? fun r => decide (r.kind = 6) && stampAfter (stampSub b x.delta) r.stamp

/-- A replay at boundary `b`. -/
def repBoundary (b : Nat) (fn : Fn) (s : State) : State :=
  match tfind s.obs.reps (fnNum fn) with
  | none => s
  | some x =>
    match lopFind fn x.tag s with
    | none => s
    | some l =>
      match l.st with
      | .queued => repStart b fn x s
      | .suspended => if x.started then repPut (fnNum fn) { x with delta := x.delta + 1 } s else s
      | .suspending => lopMove fn x.tag .suspended (repPut (fnNum fn) { x with delta := x.delta + 1 } s)
      | .cancelling => repEnd fn x.tag .cancelled stCancelled 0 s
      | .running =>
        let now := stampSub b x.delta
        match repMissed b x with
        | some r =>
          let ring := (tfind s.ctl.acts x.act).map (·.ring)
          let s := raise (ev EV_REPLAY_DIVERGED 0 ring 2 x.act (le r.body 4 2 + r.stamp * 65536) s) s
          repEnd fn x.tag .failed stFailed 3 s
        | none =>
          let next := x.recs.head?
          if (x.recs.any fun r => decide (r.kind = 10) && stampGe now r.stamp) then repEnd fn x.tag .failed stFailed 5 s
          else if !hostOk x.addr x.length s then repEnd fn x.tag .failed stFailed 4 s
          else
            let lost := x.recs.any fun r => decide (r.kind = 7) && stampGe now r.stamp
            let x := { x with
              stopped := x.stopped || lost
              recs := x.recs.filter fun r => !((r.kind = 9 || r.kind = 7 || r.kind = 5 || r.kind = 3 || r.kind = 4) && stampAfter now r.stamp) }
            let s := repPut (fnNum fn) x s
            if next.isNone || x.recs.isEmpty then repEnd fn x.tag .done stOk 0 s else s
      | _ => s

/-! ## Telemetry (R465, R466) -/

/-- TELEMETRY_SET at its boundary. -/
def applyTelemetrySet (c : Cmd) (_b : Nat) (s : State) : State × Option Rsp :=
  let fn := c.fn
  let mask := carg c 0x25 1
  let size := carg c 0x20 4
  let p := if carg c 0x28 4 = 0 then telemetryPeriod s else carg c 0x28 4
  let off := { s with obs := { s.obs with tels := terase s.obs.tels (fnNum fn) } }
  if carg c 0x26 2 ≠ 0 || !czero c 0x30 then (s, some (rspErr stBadArg))
  else if mask = 0 then (off, some rspOk)
  else if carg c 0x18 8 % 4096 ≠ 0 || size % 4096 ≠ 0 || !within 4096 (16 * 2 ^ 20) size || !within 1 8 (carg c 0x24 1)
      || 128 ≤ mask || (bit mask 6 && fn != .pf) || 2000000 < carg c 0x28 4 || (p ≠ 0 && p ≤ carg c 0x2C 4) then (s, some (rspErr stBadArg))
  else if p = 0 then (off, some rspOk)
  else
    let s := fset (R.OBS_TEL_HEAD_head fn) 0 (fset (R.OBS_TEL_HEAD_next fn) 0 (fset (R.OBS_TEL_HEAD_phase fn) 1 s))
    ({ s with obs := { s.obs with
        tels := tset s.obs.tels (fnNum fn) ⟨carg c 0x18 8, size, carg c 0x24 1, mask, p, carg c 0x2C 4, 0, 0, 0⟩ } }, some rspOk)

/-- A record of a snapshot: kind, number of counters, object, their values. -/
def telRecord (kind id : Nat) (addrs : List Nat) (s : State) : List Byte :=
  leBytes 1 kind ++ leBytes 1 addrs.length ++ leBytes 2 0 ++ leBytes 4 id ++ (addrs.map fun a => leBytes 8 (cshow a s)).flatten

/-- `n` counters at 8-byte steps. -/
def cntRun (a n : Nat) : List Nat := (List.range n).map fun i => a + 8 * i

/-- The units that a snapshot records, with their counters. -/
def unitCnts (s : State) : List (Nat × List Nat) :=
  (List.range 68).map (fun t => (unitTile t, cntRun (0x500040 + 0x4000 * t) 14)) ++
  (List.range 32).map (fun c => (unitCluster c, cntRun (0x290040 + 0x100 * c) 6)) ++
  (List.range 544).map (fun c => (unitCore c, cntRun (coreBase c + 0x40) 6)) ++
  (List.range 4).map (fun b => (unitCmp b, cntRun (0x640040 + 0x10000 * b) 5)) ++
  (List.range 4).map (fun b => (unitPipe b, cntRun (ingCnt b 0) 6)) ++
  (List.range 8).map (fun e => (unitCipher e, cntRun (ciphCnt e 0) 8)) ++
  (List.range 12).map (fun c => (unitDdr c, cntRun (0x6C0040 + 0x4000 * c) 8)) ++
  (List.range 4).map (fun p => (unitEth p, (((List.range 8).filter fun l => decide (l < linkCount (fget R.ETH_MODE_eth_mode s)) &&
    decide (linkPort l s = p)).map fun l => cntRun (ethCnt l 0) 9).flatten)) ++
  (List.range 4).map (fun p => (unitTdm p, cntRun (tdmCnt p 0) 6)) ++
  (List.range 32).map (fun c => (unitDma c, cntRun (0x700040 + 0x100 * c) 6))

/-- An object that a function's snapshot records. -/
def telOwned (fn : Fn) (ring : Nat) : Bool :=
  match fn with
  | .pf => true
  | .vf r => decide (r = ring)

/-- The records of a snapshot in order. -/
def telRecords (fn : Fn) (mask : Nat) (s : State) : List (List Byte) :=
  let sel := fun (k : Nat) (l : List (List Byte)) => if bit mask k then l else []
  sel 0 ((s.ctl.legs.filter fun p => telOwned fn p.2.ring).map fun p => telRecord 1 p.1 (cntRun (legCnt p.1 0) 35) s) ++
  sel 1 ((s.ctl.streams.filter fun p => telOwned fn (streamRing p.2 s)).map fun p => telRecord 2 p.1 (cntRun (strCnt p.1 0) 30) s) ++
  sel 2 ((s.ctl.acts.filter fun p => telOwned fn p.2.ring).map fun p => telRecord 3 p.1 (cntRun (actCnt p.1 0) 4) s) ++
  sel 3 ((s.vid.encs.filter fun p => telOwned fn p.2.ring).map fun p => telRecord 4 p.1 (cntRun (encCnt p.1 0) 10) s) ++
  sel 4 ((s.vid.canvas.filter fun p => telOwned fn p.2.ring && !p.2.ends).map fun p => telRecord 5 p.1 (cntRun (cvCnt p.1 0) 7) s) ++
  sel 5 (((List.range 16).filter fun r => ringDefined r s && telOwned fn r).map fun r => telRecord 6 r (cntRun (ringCnt r 0) 3) s) ++
  sel 6 ((unitCnts s).map fun p => telRecord 7 p.1 p.2 s)

/-- The records that fit in `room` bytes, how many, and whether one was left out. -/
def telFit (room : Nat) (l : List (List Byte)) : List Byte × Nat × Bool :=
  match l with
  | [] => ([], 0, false)
  | r :: t =>
    if room < r.length then ([], 0, true)
    else
      let x := telFit (room - r.length) t
      (r ++ x.1, x.2.1 + 1, x.2.2)

def telPut (fn : Fn) (t : Tel) (s : State) : State := { s with obs := { s.obs with tels := tset s.obs.tels (fnNum fn) t } }

/-- A snapshot dropped. -/
def telDrop (fn : Fn) (t : Tel) (s : State) : State :=
  let s := cinc 0x840120 s
  let t := { t with
    dropped := t.dropped + 1
    unreported := t.unreported + 1 }
  let r := rateOk (rateKey EV_TEL_DROPPED (fnNum fn)) 2000 s
  if r.1 then raise (ev EV_TEL_DROPPED 0 (fnRing fn) 0 0 t.unreported r.2) (telPut fn { t with unreported := 0 } r.2)
  else telPut fn t r.2

/-- A snapshot due at boundary `b` written into the next slot, or dropped. -/
def telSnap (b : Nat) (fn : Fn) (s : State) : State :=
  match tfind s.obs.tels (fnNum fn) with
  | none => s
  | some t =>
    let n := 2 ^ t.slots
    let next := fget (R.OBS_TEL_HEAD_next fn) s
    let ph := fget (R.OBS_TEL_HEAD_phase fn) s
    let a := t.addr + next * t.size
    if (next + 1) % n = fget (R.OBS_TEL_HEAD_head fn) s % n || !hostOk a t.size s then telDrop fn t s
    else
      let x := telFit (t.size - 64) (telRecords fn t.mask s)
      let gen := match fn with
        | .pf => generation devScope s
        | .vf r => generation r s
      let h := leBytes 4 0x4D4C4554 ++ leBytes 2 0x0100 ++ leBytes 1 (ph + 2 * b2n x.2.2)
        ++ leBytes 1 (match fn with | .pf => 0xFF | .vf r => r) ++ leBytes 8 (stampSub b 1) ++ leBytes 4 t.seq ++ leBytes 4 x.2.1
        ++ leBytes 4 (64 + x.1.length) ++ leBytes 4 t.dropped ++ leBytes 4 gen ++ List.replicate 28 0
      let s := hostWrite a (h ++ x.1) s
      let s := cinc 0x840118 (fset (R.OBS_TEL_HEAD_next fn) ((next + 1) % n) s)
      let s := if next + 1 = n then fset (R.OBS_TEL_HEAD_phase fn) (1 - ph) s else s
      telPut fn { t with
        seq := (t.seq + 1) % 2 ^ 32
        dropped := 0 } s

/-- A snapshot of a function falls due: its stream is on and the block is one of its period. -/
def execTelemetrySnapshot (fn : Fn) (s : State) : Out :=
  .next (match tfind s.obs.tels (fnNum fn) with
    | none => s
    | some t => if s.clk.stamp % t.period = t.phase then telSnap s.clk.stamp fn s else s)

end Sys2Proof.Machine
end

