-- ==== Sys2Proof/Machine/Cmd.lean ====
section
/-! DEFINITION. Command intake and the meaning of every host command by its opcode (spec/03_host_commands.md R76 to R89). -/
namespace Sys2Proof.Machine

/-! ## Intake (R17, R76, R79, R82 to R84) -/

/-- The kinds of R83. -/
inductive OpKind
  | query | config | long | always
  deriving DecidableEq, Repr

/-- The kind of an opcode; none for an opcode that the table does not list. -/
def opKind (op : Nat) : Option OpKind :=
  if [0x00, 0x01, 0x02, 0x08, 0x09, 0x0A, 0x0B].contains op then some .query
  else if within 0x20 0x2C op || within 0x30 0x33 op || op = 0x38 || op = 0x42 || op = 0x53 then some .config
  else if [0x10, 0x11, 0x12, 0x39, 0x40, 0x41, 0x52, 0x54, 0x58, 0x59].contains op then some .long
  else if [0x48, 0x50, 0x51, 0x60].contains op then some .always
  else none

/-- The opcodes that only the PF may issue (R83). -/
def pfOnly (op : Nat) : Bool := op = 0x10 || within 0x50 0x54 op || op = 0x58 || op = 0x59 || op = 0x60

/-- What refuses a command entry before its own checks: an undefined Ring, an unknown opcode, a PF opcode from a VF, a reserved field. -/
def intakeCheck (op : Nat) (c : Cmd) (s : State) : Option Rsp :=
  let noRing := match c.fn with
    | .pf => false
    | .vf r => !ringDefined r s
  if noRing then some (rspErr stNoRing)
  else match opKind op with
    | none => some (rspErr stBadOpcode)
    | some k =>
      if c.fn ≠ .pf && pfOnly op then some (rspErr stDenied)
      else if 1 < c.flags || c.reserved ≠ 0 || (k ≠ .query && 2 ^ 48 ≤ c.effectStamp) then some (rspErr stBadArg)
      else none

/-- Whether a function's rings let a command in (R78 to R80): they are enabled, intake runs, the link is up, fewer than 256 commands are in
flight, and the CQ has an entry to reserve. -/
def intakeOpen (fn : Fn) (s : State) : Bool :=
  let n := fget (R.CMD_STATUS_in_flight fn) s
  fon (R.CMD_CTRL_enable fn) s && !fon (R.CMD_STATUS_sq_halted fn) s && s.mem.linkUp && decide (n < 256) &&
    ringRoom (fget (R.CMD_CQ_HEAD_head fn) s) (fget (R.CMD_CQ_TAIL_tail fn) s) (cqSize fn s) n

/-- A command taken in: the result slot it claimed, what refuses it, the state with its place reserved. -/
structure Taken where
  slot : Option Nat
  refuse : Option Rsp
  s : State

/-- A command taken in: its place in flight reserved, its result slot claimed. A slot that is taken comes before every other check, and those
in the order of `intakeCheck` (log entry 162). -/
def takeIn (op : Nat) (c : Cmd) (s : State) : Taken :=
  let s := fset (R.CMD_STATUS_in_flight c.fn) (fget (R.CMD_STATUS_in_flight c.fn) s + 1) s
  let n := c.tag % 64
  if !bit c.flags 0 then ⟨none, intakeCheck op c s, s⟩
  else if (tfind s.hif.slots (slotKey c.fn n)).isSome then ⟨none, some (rspErr stSlotBusy), s⟩
  else ⟨some n, intakeCheck op c s, { s with hif := { s.hif with slots := tset s.hif.slots (slotKey c.fn n) ⟨none, none⟩ } }⟩

/-- A command that a row names, run by `f` once it is in: the device fetches it where the function's rings let it (R79). Elsewhere it waits in
host memory and nothing happens. The row stands for the entry; the ring's pointers are COMMAND_FETCH's (log entry 51). -/
def commandRow (op : Nat) (c : Cmd) (f : Option Nat → State → State) (s : State) : State :=
  if !intakeOpen c.fn s then s
  else
    let t := takeIn op c s
    match t.refuse with
    | some r => queryEnd op c t.slot (complOf c.tag op r) t.s
    | none => f t.slot t.s

/-! ## Queries (R83, R88, R464) -/

/-- A query run: its completion is posted at once. -/
def queryRun (op : Nat) (f : Cmd → State → State × Compl) (c : Cmd) (slot : Option Nat) (s : State) : State :=
  let r := f c s
  queryEnd op c slot r.2 r.1

def answer (op : Nat) (c : Cmd) (r : Rsp) : Compl := complOf c.tag op r

/-- NOP. -/
def doNop (c : Cmd) (s : State) : State × Compl := (s, answer 0x00 c (if czero c 0x18 then rspOk else rspErr stBadArg))

/-- IDENTIFY: GLB_ID, the issuing Ring, 1 in bit 36 for the PF. -/
def doIdentify (c : Cmd) (s : State) : State × Compl :=
  let who := match c.fn with
    | .pf => 2 ^ 36
    | .vf r => r * 2 ^ 32
  (s, answer 0x01 c (if czero c 0x18 then rspRes (glbId + who) else rspErr stBadArg))

/-- The result of RING_STATUS for Ring `r`. -/
def ringStatus (r : Nat) (s : State) : Nat :=
  let legs := (s.ctl.legs.filter fun p => decide (p.2.ring = r) && decide (p.2.st = .active)).length
  let acts := (s.ctl.acts.filter fun p => decide (p.2.ring = r)).length
  put 0 15 legs + put 16 13 acts + put 32 24 (generation r s) + put 56 3 (armedOf r s) + putB 59 (rollbackOk r s)

/-- RING_STATUS: of the issuing VF's Ring, or of the Ring that the PF names. -/
def doRingStatus (c : Cmd) (s : State) : State × Compl :=
  let r := match c.fn with
    | .pf => c.target
    | .vf r => r
  (s, answer 0x02 c (if 16 ≤ r then rspErr stBadId else if czero c 0x18 then rspRes (ringStatus r s) else rspErr stBadArg))

/-- Clean-up of a long operation that a cancel ends, and its final completion (R89). -/
def lopCleanup (l : Lop) (s : State) : State :=
  let plain := lopEnd l.fn l.tag .cancelled stCancelled 0 0 false 0 0 s
  if within 0x10 0x12 l.opcode then frmCancel l.fn l.tag s
  else if l.opcode = 0x39 then expCancel l.fn l.tag s
  else if l.opcode = 0x40 then capEnd l.fn l.tag .cancelled stCancelled 0 s
  else if l.opcode = 0x41 then repEnd l.fn l.tag .cancelled stCancelled 0 s
  else if l.opcode = 0x52 then match s.flt.test with
    | some t => if t.fn = l.fn && t.tag = l.tag then testCancel t s else plain
    | none => plain
  else if l.opcode = 0x54 then fwEnd l.fn l.tag .cancelled stCancelled 0 s
  else if l.opcode = 0x58 then match s.cas.join with
    | some j => if j.fn = l.fn && j.tag = l.tag then joinCancel j s else plain
    | none => plain
  else if l.opcode = 0x59 then leaveCancel l.fn l.tag s
  else plain

/-- LOP_QUERY, LOP_SUSPEND, LOP_RESUME and LOP_CANCEL on an operation that is not terminal. -/
def lopApply (op : Nat) (l : Lop) (s : State) : State × Rsp :=
  let go := fun (st : LopSt) => (lopMove l.fn l.tag st s, rspOk)
  let same := (s, rspOk)
  if op = 0x09 then match l.st with
    | .queued => go .suspended
    | .running => go .suspending
    | .cancelling => (s, rspErr stBadState)
    | _ => same
  else if op = 0x0A then match l.st with
    | .suspending => go .running
    | .suspended => go (if l.started then .running else .queued)
    | .cancelling => (s, rspErr stBadState)
    | _ => same
  else if op = 0x0B then match l.st with
    | .queued => (lopCleanup l s, rspOk)
    | .suspended => (lopCleanup l s, rspOk)
    | .cancelling => same
    | _ => go .cancelling
  else same

/-- The four LOP commands (R88): the operation of the tag in target, of the issuer or, for the PF, of the function that byte 0x18 names;
a VF that sets that byte gets BAD_ARG (log entry 168). -/
def doLop (op : Nat) (c : Cmd) (s : State) : State × Compl :=
  let sel := carg c 0x18 1
  let fn := if sel = 0 then c.fn else .vf (sel - 1)
  if !czero c 0x19 || 16 < sel || (sel ≠ 0 && c.fn ≠ .pf) then (s, answer op c (rspErr stBadArg))
  else match lopFind fn c.target s with
    | none => (s, answer op c (rspErr stNoOp))
    | some l =>
      if l.st.terminal then (s, { answer op c rspOk with
        already := true
        lopState := l.st.code })
      else
        let r := lopApply op l s
        let st := match lopFind fn c.target r.1 with
          | some x => x.st.code
          | none => LopSt.cancelled.code
        (r.1, { answer op c r.2 with lopState := st })

/-- A query's effect by its opcode. -/
def queryOf (op : Nat) : Cmd → State → State × Compl :=
  match op with
  | 0x00 => doNop
  | 0x01 => doIdentify
  | 0x02 => doRingStatus
  | _ => doLop op

/-! ## The always-on commands (R83, R93) -/

/-- An always-on command run: it completes at once, in the current block, after a request in the mailbox that came before (R93). -/
def aonRun (op : Nat) (f : Cmd → State → State × Rsp) (c : Cmd) (slot : Option Nat) (s : State) : State :=
  let r := f c (mbxRun s)
  queryEnd op c slot { complOf c.tag op r.2 with effect := s.clk.stamp } r.1

/-- KEY_ZEROISE's scope (R140): what refuses it, or the scope. -/
def zeroScope (c : Cmd) : Except Rsp ZScope :=
  let k := carg c 0x18 1
  let own : ZScope := match c.fn with
    | .pf => .device
    | .vf r => .ring r
  if 2 < k || !czero c 0x1A || (k ≠ 2 && carg c 0x19 1 ≠ 0) then .error (rspErr stBadArg)
  else if k = 0 then .ok own
  else if c.fn ≠ .pf then .error (rspErr stDenied)
  else if k = 1 then .ok .device
  else if 16 ≤ carg c 0x19 1 then .error (rspErr stBadId)
  else .ok (.ring (carg c 0x19 1))

/-- KEY_ZEROISE. -/
def applyKeyZeroise (c : Cmd) (s : State) : State × Rsp :=
  match zeroScope c with
  | .error r => (s, r)
  | .ok sc =>
    let cause := match sc with
      | .device => 1
      | .ring _ => 2
    (zeroise sc cause s, rspOk)

/-- An always-on command's effect by its opcode. -/
def aonOf (op : Nat) : Cmd → State → State × Rsp :=
  match op with
  | 0x48 => applyKeyZeroise
  | 0x50 => applyBayQuarantine
  | 0x51 => applyBayWarmReset
  | _ => applyFaultlogRead

/-! ## Configuration commands (R63, R81, R86) -/

/-- A configuration command's effect at its boundary by its opcode: the state and the outcome, none where the command completes later. `d` is what it fetched. -/
def applyOf (op : Nat) (d : Option (List Byte)) : Cmd → Nat → State → State × Option Rsp :=
  match op with
  | 0x20 => applyActAdmit
  | 0x21 => applyActRelease
  | 0x22 => applyLegAdmit
  | 0x23 => applyLegStart
  | 0x24 => applyLegRoute
  | 0x25 => applyLegRelease
  | 0x26 => applyStreamAdmit
  | 0x27 => applyStreamRelease
  | 0x28 => applyKeyBind
  | 0x29 => applyCanvasAdmit
  | 0x2A => applyCanvasRelease
  | 0x2B => fun c => applyEncodeAdmit c d
  | 0x2C => applyEncodeRelease
  | 0x30 => fun c => applyAudSafeLoad c d
  | 0x31 => fun c => applyLayoutSet c d
  | 0x32 => applyKeypicRequest
  | 0x33 => applyShaperSet
  | 0x38 => applyRewindMark
  | 0x42 => applyTelemetrySet
  | _ => applyBayReturn

/-- The CONFIG record of a command applied (R416, R468): of KEY_BIND, LAYOUT_SET with its table, KEYPIC_REQUEST. -/
def configTrace (op : Nat) (c : Cmd) (d : Option (List Byte)) (b : Nat) (s : State) : State :=
  if op = 0x28 then traceCommand op (ringOf 2 c.target s) 3 c.target b c.args s
  else if op = 0x31 then traceCommand op (ringOf 4 c.target s) 4 c.target b (c.args ++ d.getD []) s
  else if op = 0x32 then traceCommand op (ringOf 4 (c.target % 256) s) 4 (c.target % 256) b c.args s
  else s

/-- A command in flight whose effect boundary `b` has come: its effect, LATE where its stamp has passed (R63), its completion. -/
def applyFlight (f : Flight) (b : Nat) (s : State) : State :=
  let want := f.cmd.effectStamp % 2 ^ 48
  let late := decide (want ≠ 0) && stampAfter b want
  let f := { f with
    effective := true
    effect := b
    late := late
    lateness := if late then stampSub b want else 0 }
  match applyOf f.opcode f.data f.cmd b s with
  | (t, none) => { t with hif := { t.hif with flight := t.hif.flight ++ [f] } }
  | (t, some r) => flightEnd f r (if r.status = stOk then configTrace f.opcode f.cmd f.data b t else t)

/-- Whether a command in flight is due at boundary `b`. -/
def flightDue (b : Nat) (f : Flight) : Bool := !f.effective && (f.cmd.effectStamp = 0 || stampGe b f.cmd.effectStamp)

/-- The table that a command names, fetched from its issuer's memory when it is processed (R170, R288, R330): none where that ends in an
error. One longer than any the command takes is not fetched, since its length is refused first. -/
def cmdFetch (op : Nat) (c : Cmd) (s : State) : Option (List Byte) :=
  let get := fun (a n : Nat) => if n ≤ 524352 then (if hostOk a n s then some (hostRead a n s) else none) else some []
  if op = 0x2B then (if bit (carg c 0x1B 1) 2 then get (carg c 0x30 8) 128 else some [])
  else if op = 0x30 || op = 0x31 then get (carg c 0x18 8) (carg c 0x20 4)
  else some []

/-- A configuration command taken in, in flight until its boundary. -/
def flightOf (op : Nat) (c : Cmd) (slot : Option Nat) (s : State) : Flight := ⟨op, c, cmdFetch op c s, slot, false, 0, false, 0, false⟩

/-- A configuration command waits for its effect boundary (R81). -/
def configRun (op : Nat) (c : Cmd) (slot : Option Nat) (s : State) : State :=
  { s with hif := { s.hif with flight := s.hif.flight ++ [flightOf op c slot s] } }

/-- At most `n` due commands of a function taken at boundary `b`, in SQ order (R81). -/
def flightsDue (fn : Fn) (n b : Nat) (l : List Flight) : List Flight × List Flight :=
  match l with
  | [] => ([], [])
  | f :: t =>
    if n ≠ 0 && f.cmd.fn = fn && flightDue b f then
      let r := flightsDue fn (n - 1) b t
      (f :: r.1, r.2)
    else
      let r := flightsDue fn n b t
      (r.1, f :: r.2)

/-- The due commands of a function at boundary `b`. -/
def configBoundary (b : Nat) (fn : Fn) (s : State) : State :=
  let r := flightsDue fn 512 b s.hif.flight
  r.1.foldl (fun s f => applyFlight f b s) { s with hif := { s.hif with flight := r.2 } }

/-! ## Long operations (R88) -/

/-- What completes a long command at intake, by its opcode. -/
def longCheck (op : Nat) (c : Cmd) (s : State) : Option Rsp :=
  match op with
  | 0x10 => imageIntake true c s
  | 0x11 => imageIntake false c s
  | 0x12 => rollIntake c s
  | 0x39 => expIntake c s
  | 0x40 => capIntake c s
  | 0x41 => repIntake c s
  | 0x52 => testIntake c s
  | 0x54 => fwIntake c s
  | 0x58 => joinIntake c s
  | _ => leaveIntake c s

/-- The begin of a long operation, by its opcode. -/
def longBegin (op : Nat) (c : Cmd) (s : State) : State :=
  match op with
  | 0x10 => imageBegin 0 c s
  | 0x11 => imageBegin 1 c s
  | 0x12 => rollBegin c s
  | 0x40 => capBegin c s
  | 0x41 => repBegin c s
  | 0x58 => joinBegin c s
  | 0x59 => leaveBegin c s
  | _ => s

/-- A long command: BUSY where eight operations are live or its tag is in use, what its own check says, or its record in QUEUED. -/
def longRun (op : Nat) (check : Cmd → State → Option Rsp) (begin_ : Cmd → State → State) (c : Cmd) (slot : Option Nat) (s : State) : State :=
  let busy := decide (8 ≤ lopLive c.fn s) || (lopFind c.fn c.tag s).isSome
  match if busy then some (rspErr stBusy) else check c s with
  | some r => queryEnd op c slot (complOf c.tag op r) s
  | none => begin_ c (lopStart op c slot s)

/-! ## The rows of the queries -/

/-- NOP. -/
def execNop (c : Cmd) (s : State) : Out := .next (commandRow 0x00 c (queryRun 0x00 doNop c) s)

/-- IDENTIFY. -/
def execIdentify (c : Cmd) (s : State) : Out := .next (commandRow 0x01 c (queryRun 0x01 doIdentify c) s)

/-- RING_STATUS. -/
def execRingStatus (c : Cmd) (s : State) : Out := .next (commandRow 0x02 c (queryRun 0x02 doRingStatus c) s)

/-- LOP_QUERY. -/
def execLopQuery (c : Cmd) (s : State) : Out := .next (commandRow 0x08 c (queryRun 0x08 (doLop 0x08) c) s)

/-- LOP_SUSPEND. -/
def execLopSuspend (c : Cmd) (s : State) : Out := .next (commandRow 0x09 c (queryRun 0x09 (doLop 0x09) c) s)

/-- LOP_RESUME. -/
def execLopResume (c : Cmd) (s : State) : Out := .next (commandRow 0x0A c (queryRun 0x0A (doLop 0x0A) c) s)

/-- LOP_CANCEL. -/
def execLopCancel (c : Cmd) (s : State) : Out := .next (commandRow 0x0B c (queryRun 0x0B (doLop 0x0B) c) s)

/-! ## The rows of the long operations -/

/-- FRAMING_LOAD (R58). -/
def execFramingLoad (c : Cmd) (s : State) : Out := .next (commandRow 0x10 c (longRun 0x10 (imageIntake true) (imageBegin 0) c) s)

/-- FRAMING_DELTA (R59). -/
def execFramingDelta (c : Cmd) (s : State) : Out := .next (commandRow 0x11 c (longRun 0x11 (imageIntake false) (imageBegin 1) c) s)

/-- FRAMING_ROLLBACK (R66). -/
def execFramingRollback (c : Cmd) (s : State) : Out := .next (commandRow 0x12 c (longRun 0x12 rollIntake rollBegin c) s)

/-- REWIND_EXPORT (R321). -/
def execRewindExport (c : Cmd) (s : State) : Out := .next (commandRow 0x39 c (longRun 0x39 expIntake (fun _ s => s) c) s)

/-- CAPTURE (R470). -/
def execCapture (c : Cmd) (s : State) : Out := .next (commandRow 0x40 c (longRun 0x40 capIntake capBegin c) s)

/-- REPLAY (R471). -/
def execReplay (c : Cmd) (s : State) : Out := .next (commandRow 0x41 c (longRun 0x41 repIntake repBegin c) s)

/-- BAY_SELFTEST (R417). -/
def execBaySelftest (c : Cmd) (s : State) : Out := .next (commandRow 0x52 c (longRun 0x52 testIntake (fun _ s => s) c) s)

/-- TILE_FW_SWAP (R276). -/
def execTileFwSwap (c : Cmd) (s : State) : Out := .next (commandRow 0x54 c (longRun 0x54 fwIntake (fun _ s => s) c) s)

/-- CASCADE_JOIN (R449). -/
def execCascadeJoin (c : Cmd) (s : State) : Out := .next (commandRow 0x58 c (longRun 0x58 joinIntake joinBegin c) s)

/-- CASCADE_LEAVE (R450). -/
def execCascadeLeave (c : Cmd) (s : State) : Out := .next (commandRow 0x59 c (longRun 0x59 leaveIntake leaveBegin c) s)

/-! ## The rows of the always-on commands -/

/-- KEY_ZEROISE (R140). -/
def execKeyZeroise (c : Cmd) (s : State) : Out := .next (commandRow 0x48 c (aonRun 0x48 applyKeyZeroise c) s)

/-- BAY_QUARANTINE (R410). -/
def execBayQuarantine (c : Cmd) (s : State) : Out := .next (commandRow 0x50 c (aonRun 0x50 applyBayQuarantine c) s)

/-- BAY_WARM_RESET (R93). -/
def execBayWarmReset (c : Cmd) (s : State) : Out := .next (commandRow 0x51 c (aonRun 0x51 applyBayWarmReset c) s)

/-- FAULTLOG_READ (R420). -/
def execFaultlogRead (c : Cmd) (s : State) : Out := .next (commandRow 0x60 c (aonRun 0x60 applyFaultlogRead c) s)

/-! ## The rows of the configuration commands -/

/-- ACT_ADMIT (R87). -/
def execActAdmit (c : Cmd) (s : State) : Out := .next (commandRow 0x20 c (configRun 0x20 c) s)

/-- ACT_RELEASE (R87). -/
def execActRelease (c : Cmd) (s : State) : Out := .next (commandRow 0x21 c (configRun 0x21 c) s)

/-- LEG_ADMIT (R85, R86). -/
def execLegAdmit (c : Cmd) (s : State) : Out := .next (commandRow 0x22 c (configRun 0x22 c) s)

/-- LEG_START (R86). -/
def execLegStart (c : Cmd) (s : State) : Out := .next (commandRow 0x23 c (configRun 0x23 c) s)

/-- LEG_ROUTE (R86). -/
def execLegRoute (c : Cmd) (s : State) : Out := .next (commandRow 0x24 c (configRun 0x24 c) s)

/-- LEG_RELEASE (R86). -/
def execLegRelease (c : Cmd) (s : State) : Out := .next (commandRow 0x25 c (configRun 0x25 c) s)

/-- STREAM_ADMIT (R107). -/
def execStreamAdmit (c : Cmd) (s : State) : Out := .next (commandRow 0x26 c (configRun 0x26 c) s)

/-- STREAM_RELEASE (R107). -/
def execStreamRelease (c : Cmd) (s : State) : Out := .next (commandRow 0x27 c (configRun 0x27 c) s)

/-- KEY_BIND (R126). -/
def execKeyBind (c : Cmd) (s : State) : Out := .next (commandRow 0x28 c (configRun 0x28 c) s)

/-- CANVAS_ADMIT (R326). -/
def execCanvasAdmit (c : Cmd) (s : State) : Out := .next (commandRow 0x29 c (configRun 0x29 c) s)

/-- CANVAS_RELEASE (R329). -/
def execCanvasRelease (c : Cmd) (s : State) : Out := .next (commandRow 0x2A c (configRun 0x2A c) s)

/-- ENCODE_ADMIT (R280). -/
def execEncodeAdmit (c : Cmd) (s : State) : Out := .next (commandRow 0x2B c (configRun 0x2B c) s)

/-- ENCODE_RELEASE (R280). -/
def execEncodeRelease (c : Cmd) (s : State) : Out := .next (commandRow 0x2C c (configRun 0x2C c) s)

/-- AUD_SAFE_LOAD (R170). -/
def execAudSafeLoad (c : Cmd) (s : State) : Out := .next (commandRow 0x30 c (configRun 0x30 c) s)

/-- LAYOUT_SET (R330 to R333). -/
def execLayoutSet (c : Cmd) (s : State) : Out := .next (commandRow 0x31 c (configRun 0x31 c) s)

/-- KEYPIC_REQUEST (R294). -/
def execKeypicRequest (c : Cmd) (s : State) : Out := .next (commandRow 0x32 c (configRun 0x32 c) s)

/-- SHAPER_SET (R355). -/
def execShaperSet (c : Cmd) (s : State) : Out := .next (commandRow 0x33 c (configRun 0x33 c) s)

/-- REWIND_MARK (R320). -/
def execRewindMark (c : Cmd) (s : State) : Out := .next (commandRow 0x38 c (configRun 0x38 c) s)

/-- TELEMETRY_SET (R465). -/
def execTelemetrySet (c : Cmd) (s : State) : Out := .next (commandRow 0x42 c (configRun 0x42 c) s)

/-- BAY_RETURN (R410). -/
def execBayReturn (c : Cmd) (s : State) : Out := .next (commandRow 0x53 c (configRun 0x53 c) s)

end Sys2Proof.Machine
end

