-- ==== Sys2Proof/Machine/Dma.lean ====
section
/-! DEFINITION. The DMA engine (spec/16_dma.md). -/
namespace Sys2Proof.Machine

/-! ## Channels -/

def dmaCnt (c off : Nat) : Nat := 0x700000 + 0x100 * c + off

/-- States of a channel. -/
def dmDisabled : Nat := 0
def dmIdle : Nat := 1
def dmRun : Nat := 2
def dmOwnWait : Nat := 3
def dmStopped : Nat := 4
def dmHalted : Nat := 5
def dmaSt (c : Nat) (s : State) : Nat := fget (R.DMA_CH_STATUS_state c) s
def dmaTo (c st : Nat) (s : State) : State := fset (R.DMA_CH_STATUS_state c) st s

/-- Status codes of R389. -/
def dcBadDesc : Nat := 1
def dcNotOwned : Nat := 2
def dcPcieErr : Nat := 3
def dcPoison : Nat := 4
def dcAborted : Nat := 5

def dmaCount (c : Nat) (s : State) : Nat := fget (R.DMA_CH_COUNT_count c) s
def dmaHead (c : Nat) (s : State) : Nat := fget (R.DMA_CH_STATUS_head c) s
def dmaRingDev (c : Nat) (s : State) : Bool := fon (R.DMA_CH_CFG_ring_dev c) s

/-- The Ring that owns a channel, none for the Ringmaster's and the PF's. -/
def dmaRing (c : Nat) (s : State) : Option Nat := if dmaOwner c s < 16 then some (dmaOwner c s) else none

/-- Whether an owner may address a region (R388). -/
def dmaMayRegion (owner : Nat) (g : Region) : Bool :=
  if owner < 16 then decide (g.owner = owner)
  else if owner = 0xF0 then decide (g.owner = 0xF0) || decide (g.owner = 0xF1)
  else decide (owner = 0xFF) && decide (g.owner = 0xF1)

/-- The first byte of [a, a + n) outside the regions that a channel's owner may address. -/
def dmaStray (c a n : Nat) (s : State) : Option Nat := strayAt (dmaMayRegion (dmaOwner c s)) 64 a n s

/-! ## Descriptors (R389) -/

/-- The address of a channel's descriptor. -/
def descAddr (c i : Nat) (s : State) : Nat := fget (R.DMA_CH_BASE_base c) s * 4096 + 32 * i

/-- The descriptor at a channel's head as its bytes stand: or the code for what keeps the engine from it. -/
def descRead (c : Nat) (s : State) : Except Nat (List Byte) :=
  let a := descAddr c (dmaHead c s) s
  if dmaRingDev c s then
    if (dmaStray c a 32 s).isSome then .error dcNotOwned
    else if poisoned a 32 s then .error dcPoison
    else .ok (dramRead a 32 s)
  else if hostOk a 32 s then .ok (hostRead a 32 s)
  else .error dcPcieErr

def DmaDesc.kind (d : DmaDesc) : Nat := d.ctrl / 2 % 4
def DmaDesc.srcDev (d : DmaDesc) : Bool := bit d.ctrl 3
def DmaDesc.dstDev (d : DmaDesc) : Bool := bit d.ctrl 4

/-- A descriptor's fields. -/
def descOf (b : List Byte) : DmaDesc := ⟨le b 0 2, le b 4 4, le b 8 8, le b 16 8, le b 28 4, 0, 0⟩

/-- The 32 bytes of a completed descriptor: own clear. -/
def descBytes (d : DmaDesc) (status done : Nat) : List Byte :=
  leBytes 2 (d.ctrl / 2 * 2) ++ leBytes 2 (status + d.withdrawals % 256 * 256) ++ leBytes 4 d.length ++ leBytes 8 d.src ++ leBytes 8 d.dst
    ++ leBytes 4 done ++ leBytes 4 d.cookie

/-- Whether source and destination are in one space and meet (R397). -/
def DmaDesc.overlap (d : DmaDesc) : Bool :=
  d.kind = 0 && d.srcDev == d.dstDev && decide (d.src < d.dst + d.length) && decide (d.dst < d.src + d.length)

/-- The bytes of one request of a port: a frame (R200). -/
def frameBytes (p : Nat) (s : State) : Nat := if tdmMode p s = 2 then 64 else 256

/-- The bytes that a descriptor reads, that it writes: space (device?), address, length. -/
def DmaDesc.reads (d : DmaDesc) (periph : Nat) : Option (Bool × Nat × Nat) :=
  match d.kind with
  | 0 => some (d.srcDev, d.src, d.length)
  | 1 => some (d.dstDev, d.dst, 4)
  | 2 => if periph % 2 = 1 then some (d.srcDev, d.src, d.length) else none
  | _ => none
def DmaDesc.writes (d : DmaDesc) (periph : Nat) : Option (Bool × Nat × Nat) :=
  match d.kind with
  | 0 => some (d.dstDev, d.dst, d.length)
  | 2 => if periph % 2 = 0 then some (d.dstDev, d.dst, d.length) else none
  | _ => none

/-- The descriptor's form (R391's first check). -/
def descForm (c : Nat) (d : DmaDesc) (s : State) : Bool :=
  let periph := fget (R.DMA_CH_CFG_periph c) s
  decide (d.ctrl / 32 = 0) && match d.kind with
    | 0 => decide (1 ≤ d.length) && decide (d.length ≤ 16777216)
    | 1 => decide (d.length = 0) && decide (d.dst % 4 = 0)
    | 2 => decide (periph < 8) && decide (d.length = frameBytes (periph / 2) s)
    | _ => decide (d.length = 0)

/-- The first byte of a device range outside a channel's rights; a host range needs none. -/
def rangeStray (c : Nat) (r : Option (Bool × Nat × Nat)) (s : State) : Option Nat :=
  match r with
  | some (true, a, n) => dmaStray c a n s
  | _ => none

/-- The first byte that a descriptor reads or writes outside its channel's rights. -/
def descStray (c : Nat) (d : DmaDesc) (s : State) : Option Nat :=
  let periph := fget (R.DMA_CH_CFG_periph c) s
  (rangeStray c (d.reads periph) s).or (rangeStray c (d.writes periph) s)

/-- Whether a host range ends in a PCIe error. -/
def rangeFails (r : Option (Bool × Nat × Nat)) (s : State) : Bool :=
  match r with
  | some (false, a, n) => !hostOk a n s
  | _ => false

/-- The checks of R391 in order: 0 where all pass. -/
def descCheck (c : Nat) (d : DmaDesc) (s : State) : Nat :=
  let periph := fget (R.DMA_CH_CFG_periph c) s
  let rd := d.reads periph
  let wr := d.writes periph
  if !descForm c d s then dcBadDesc
  else if (descStray c d s).isSome then dcNotOwned
  else if rangeFails rd s || rangeFails wr s then dcPcieErr
  else match rd with
    | some (true, a, n) => if poisoned a n s then dcPoison else 0
    | _ => 0

/-- Whether a descriptor needs the host while the PCIe link is down: DMA to the host pauses (R72). -/
def descPaused (c : Nat) (d : DmaDesc) (s : State) : Bool :=
  let periph := fget (R.DMA_CH_CFG_periph c) s
  let host := fun (r : Option (Bool × Nat × Nat)) => match r with
    | some (false, _, _) => true
    | _ => false
  !s.mem.linkUp && (host (d.reads periph) || host (d.writes periph) || !dmaRingDev c s)

/-- Bytes read and written in a space. -/
def spaceRead (dev : Bool) (a n : Nat) (s : State) : List Byte := if dev then dramRead a n s else hostRead a n s
def spaceWrite (dev : Bool) (a : Nat) (l : List Byte) (s : State) : State := if dev then dramWrite a l s else hostWrite a l s

/-! ## Fetching (R390) -/

/-- A Ring's access outside its regions is blocked: counted for the Ring, ISOLATION_BLOCK (R21); the Ringmaster's and the PF's channels carry no
Ring tag. -/
def dmaBlock (c : Nat) (a : Option Nat) (s : State) : State :=
  match dmaRing c s, a with
  | some r, some a => isolationBlock r a (unitDma c) s
  | _, _ => s

/-- A channel halted with a code: DMA_HALTED and the channel's vector (R391). -/
def dmaHalt (c code i : Nat) (s : State) : State :=
  let s := fset (R.DMA_CH_STATUS_code c) code (dmaTo c dmHalted s)
  signal .pf (34 + c) (raise (ev EV_DMA_HALTED (unitDma c) (dmaRing c s) 0 0 (c + code * 256 + i * 65536) s) s)

/-- The descriptor at the head fetched: one with own clear waits; one that cannot be read halts the channel; while the link is down a
ring in host memory is not fetched. -/
def dmaFetch (c : Nat) (s : State) : State :=
  if !dmaRingDev c s && !s.mem.linkUp then dmaTo c dmRun s
  else match descRead c s with
    | .error code =>
      dmaHalt c code (dmaHead c s) (if code = dcNotOwned then dmaBlock c (dmaStray c (descAddr c (dmaHead c s) s) 32 s) s else s)
    | .ok b =>
      let d := descOf b
      if bit d.ctrl 0 then dmaTo c dmRun { s with dma := { s.dma with cur := tset s.dma.cur c d } }
      else cinc (dmaCnt c 0x68) (dmaTo c dmOwnWait s)

/-- A channel at a descriptor boundary: stopped, idle, or at its next descriptor. -/
def dmaNext (c : Nat) (s : State) : State :=
  if s.dma.stopping.contains c || !fon (R.DMA_CH_CTRL_enable c) s then
    dmaTo c dmStopped { s with dma := { s.dma with stopping := s.dma.stopping.filter fun k => decide (k ≠ c) } }
  else if dmaCount c s = 0 then dmaTo c dmIdle s
  else dmaFetch c s

/-! ## Completion (R391, R392) -/

/-- The descriptor in progress completed: written back with own clear, then the count and the head moved; end of count; a failure halts
the channel, an abort stops it. -/
def dmaEnd (c : Nat) (d : DmaDesc) (code flags done : Nat) (s : State) : State :=
  let s := if code = dcNotOwned then dmaBlock c (descStray c d s) s else s
  let i := dmaHead c s
  let a := descAddr c i s
  let s := if dmaRingDev c s then dramWrite a (descBytes d (code + flags) done) s
    else if hostOk a 32 s then hostWrite a (descBytes d (code + flags) done) s else s
  let s := cadd (dmaCnt c 0x48) done (cinc (dmaCnt c 0x40) { s with dma := { s.dma with cur := terase s.dma.cur c } })
  let n := dmaCount c s - 1
  let s := fset (R.DMA_CH_COUNT_count c) n (fset (R.DMA_CH_STATUS_head c) ((i + 1) % 2 ^ fget (R.DMA_CH_CFG_ring_log2 c) s) s)
  let fails := decide (code ≠ 0) && decide (code ≠ dcAborted)
  let s := if n = 0 then
      let s := fset (R.DMA_CH_STATUS_end_of_count c) 1 s
      if fails then s else signal .pf (34 + c) s
    else s
  if fails then dmaHalt c code i s
  else if code = dcAborted then
    dmaTo c dmStopped { s with dma := { s.dma with stopping := s.dma.stopping.filter fun k => decide (k ≠ c) } }
  else dmaNext c s

/-- A COPY's bytes moved with move semantics: the first `n` of an ascending copy, the last `n` of a descending one (R396, R397). -/
def dmaMove (d : DmaDesc) (n : Nat) (s : State) : State :=
  if d.overlap && d.src = d.dst then s
  else
    let o := if d.overlap && d.src < d.dst then d.length - n else 0
    spaceWrite d.dstDev (d.dst + o) (spaceRead d.srcDev (d.src + o) n s) s

/-- Whether a port's request is asserted. -/
def portReq (periph : Nat) (s : State) : Bool :=
  let t := tdmPort (periph / 2) s
  if periph % 2 = 1 then t.reqTx else t.reqRx

/-- A port's request taken back or served. -/
def portReqPut (p : Nat) (tx on : Bool) (s : State) : State :=
  let t := tdmPort p s
  tdmPortPut p (if tx then { t with reqTx := on } else { t with reqRx := on }) s

/-- The bytes of a port's last received frame: samples of two bytes, of four in the 48 kHz mode. -/
def portFrame (p : Nat) (s : State) : List Byte :=
  let t := tdmPort p s
  let w := if tdmMode p s = 2 then 4 else 2
  padTo 0 (frameBytes p s) (((t.rx.getLast?.getD t.last).map fun v => leBytes w v).flatten.take (frameBytes p s))

/-- A frame's bytes as the values of its slots. -/
def frameSlots (p : Nat) (l : List Byte) (s : State) : List Nat :=
  let w := if tdmMode p s = 2 then 4 else 2
  (List.range (frameBytes p s / w)).map fun n => le l (w * n) w

/-- A frame moved between a port and memory: one received is written, one to send goes to the FIFO. -/
def portMove (p : Nat) (tx : Bool) (d : DmaDesc) (s : State) : State :=
  let t := tdmPort p s
  if tx then tdmPortPut p { t with fifo := (t.fifo ++ [frameSlots p (spaceRead d.srcDev d.src (frameBytes p s) s) s]).take 4 } s
  else tdmPortPut p { t with ready := false } (spaceWrite d.dstDev d.dst (portFrame p s) s)

/-- DMA_DESCRIPTOR_COMPLETE: the COPY, PERIPH or NOP in progress on a channel completes, or fails its checks. -/
def execDmaDescriptorComplete (c : Nat) (s : State) : Out :=
  .next (match tfind s.dma.cur c with
    | none => s
    | some d =>
      if dmaSt c s ≠ dmRun || descPaused c d s then s
      else
        let code := descCheck c d s
        let periph := fget (R.DMA_CH_CFG_periph c) s
        if code ≠ 0 then dmaEnd c d code 0 0 s
        else match d.kind with
          | 0 =>
            let s := if d.overlap then cinc (dmaCnt c 0x50) s else s
            dmaEnd c d 0 (if d.overlap then 16 else 0) d.length (dmaMove d d.length s)
          | 1 => s
          | 2 =>
            if !portReq periph s then s
            else
              let p := periph / 2
              let s := portReqPut p (decide (periph % 2 = 1)) false s
              let s := portMove p (decide (periph % 2 = 1)) d s
              dmaEnd c d 0 (if d.withdrawals = 0 then 0 else 32) d.length s
          | _ => dmaEnd c d 0 0 0 s)

/-- DMA_FENCE_COMPLETE: the read of the FENCE in progress returns, all earlier writes of the channel having arrived (R394). -/
def execDmaFenceComplete (c : Nat) (s : State) : Out :=
  .next (match tfind s.dma.cur c with
    | none => s
    | some d =>
      if dmaSt c s ≠ dmRun || descPaused c d s || d.kind ≠ 1 then s
      else
        let code := descCheck c d s
        if code ≠ 0 then dmaEnd c d code 0 0 s
        else dmaEnd c d 0 64 0 (cinc (dmaCnt c 0x58) s))

/-! ## Additions, stop, abort, enable (R390, R392, R399) -/

/-- DMA_CH_ADD: by the PF, or by the VF of the Ring that owns the channel; another VF's write is ignored (R402). -/
def execDmaChAdd (fn : Fn) (c v : Nat) (s : State) : Out :=
  let mine := match fn with
    | .pf => true
    | .vf r => decide (dmaOwner c s = r)
  .next (if 32 ≤ c || !mine then s
    else
      let n := dmaCount c s + v % 65536
      if 65535 < n then fset (R.DMA_CH_STATUS_add_overflow c) 1 s
      else
        let s := fset (R.DMA_CH_COUNT_count c) n s
        if (dmaSt c s = dmIdle && 0 < n) || dmaSt c s = dmOwnWait then dmaFetch c s else s)

/-- DMA_STOP. -/
def dmaStop (c : Nat) (s : State) : State :=
  if dmaSt c s = dmRun && (tfind s.dma.cur c).isNone then dmaTo c dmStopped s
  else if dmaSt c s = dmRun then { s with dma := { s.dma with stopping := if s.dma.stopping.contains c then s.dma.stopping else s.dma.stopping ++ [c] } }
  else if dmaSt c s = dmIdle || dmaSt c s = dmOwnWait then dmaTo c dmStopped s
  else s

def execDmaStop (c : Nat) (s : State) : Out := .next (dmaStop c s)

/-- DMA_ABORT: the descriptor in progress ends at a line boundary of its destination, `done` bytes having been written (R399). -/
def execDmaAbort (c done : Nat) (s : State) : Out :=
  .next (if dmaSt c s ≠ dmRun then dmaStop c s
    else match tfind s.dma.cur c with
      | none => dmaTo c dmStopped { s with dma := { s.dma with stopping := s.dma.stopping.filter fun k => decide (k ≠ c) } }
      | some d =>
        if d.kind ≠ 0 || descCheck c d s ≠ 0 || descPaused c d s then dmaEnd c d dcAborted 0 0 s
        else
          let down := d.overlap && decide (d.src < d.dst)
          let n := if d.length ≤ done then d.length
            else if down then d.length - (((d.dst + d.length - done) + 63) / 64 * 64 - d.dst)
            else (d.dst + done) / 64 * 64 - d.dst
          dmaEnd c d dcAborted (if d.overlap then 16 else 0) n (dmaMove d n s))

/-- DMA_RESUME: a halted channel goes on with its next descriptor (R391). -/
def execDmaResume (c : Nat) (s : State) : Out := .next (if dmaSt c s = dmHalted then dmaNext c s else s)

/-- DMA_ENABLE: the enable bit written. -/
def execDmaEnable (c : Nat) (on : Bool) (s : State) : Out :=
  .next (if 32 ≤ c then s
    else
      let was := fon (R.DMA_CH_CTRL_enable c) s
      let s := fset (R.DMA_CH_CTRL_enable c) (b2n on) s
      if on then
        if dmaSt c s = dmDisabled || dmaSt c s = dmStopped then dmaNext c s else s
      else if !was then s
      else if dmaSt c s = dmRun then dmaStop c s
      else dmaTo c dmDisabled s)

/-! ## Peripherals (R200, R398) -/

/-- The channel that serves a port's direction. -/
def portChannel (p : Nat) (tx : Bool) (s : State) : Nat := if tx then fget (R.SRC_TDM_CFG_tx_dma p) s else fget (R.SRC_TDM_CFG_rx_dma p) s

/-- TDM_DMA_REQUEST: a running port asserts its request for one frame: to receive where a frame is complete, to transmit where its FIFO of four
frames has room (R200). -/
def execTdmDmaRequest (port : Nat) (tx : Bool) (s : State) : Out :=
  let t := tdmPort port s
  .next (if port < 4 && tdmRun port s && (if tx then decide (t.fifo.length < 4) else t.ready) then portReqPut port tx true s else s)

/-- The last received frame from byte `k` on invalid: the slots beyond are filled with the frame before it, and counted as a missing frame is for
the port and the legs that they belong to (R196, R200). -/
def frameInvalid (p k : Nat) (s : State) : State :=
  let t := tdmPort p s
  let w := if tdmMode p s = 2 then 4 else 2
  let good := k / w
  let prev := (t.rx.dropLast).getLast?.getD t.last
  let cut := (t.rx.getLast?.getD []).take good ++ prev.drop good
  let legs := (portLegs p s).filter fun l => (tdmBind l s).elim false fun b => decide (good ≤ b.rx)
  let rx := if t.rx.isEmpty then [] else t.rx.dropLast ++ [cut]
  tdmSlip p 1 false legs (tdmPortPut p { t with rx := rx, ready := false } s)

/-- PERIPH_WITHDRAW: a port that has left RUN takes its request back, `consumed` words of the burst having been consumed. -/
def execPeriphWithdraw (port : Nat) (tx : Bool) (consumed : Nat) (s : State) : Out :=
  let periph := 2 * port + b2n tx
  .next (if 4 ≤ port || tdmRun port s || !portReq periph s then s
    else
      let s := portReqPut port tx false s
      let c := portChannel port tx s
      match tfind s.dma.cur c with
      | none => s
      | some d =>
        if d.kind ≠ 2 || fget (R.DMA_CH_CFG_periph c) s ≠ periph || dmaSt c s ≠ dmRun || descCheck c d s ≠ 0 then s
        else
          let s := cinc (dmaCnt c 0x60) (cinc (tdmCnt port 0x28) s)
          let d := { d with withdrawals := d.withdrawals + 1 }
          if tx then
            let k := min d.length (d.consumed + 4 * consumed)
            if k = d.length then dmaEnd c d 0 32 d.length (portMove port true d s)
            else { s with dma := { s.dma with cur := tset s.dma.cur c { d with consumed := k } } }
          else
            let k := min d.length (4 * consumed)
            let f := takeFree s
            let l := (portFrame port s).take k ++ (List.range (d.length - k)).map fun i => BitVec.ofNat 8 (Config.dmaBeyond f.1 i)
            let s := if k < d.length then frameInvalid port k f.2 else f.2
            dmaEnd c d 0 32 k (spaceWrite d.dstDev d.dst l s))

/-! ## The two instances, the boundary (R390, R400) -/

/-- DMA_TAKEOVER: the standby instance takes over and resumes each descriptor; a transmit burst counts as withdrawn. A framing
operation in FETCH begins it again (R68). -/
def execDmaTakeover (s : State) : Out :=
  let mask := (tkeys s.dma.cur).foldl (fun m c => m + 2 ^ c) 0
  let s := (faultDeclare ⟨unitDma 0, 2, 2, 0, 0, s.dma.cur.length, mask, 0xFF, severity EV_DMA_TAKEOVER mask, 0⟩ s).2
  let s := (tkeys s.dma.cur).foldl (fun s c => match tfind s.dma.cur c with
    | none => s
    | some d =>
      let periph := fget (R.DMA_CH_CFG_periph c) s
      if d.kind = 2 && periph % 2 = 1 && portReq periph s then
        cinc (dmaCnt c 0x60) { s with dma := { s.dma with cur := tset s.dma.cur c { d with withdrawals := d.withdrawals + 1 } } }
      else s) s
  .next (fetchRestart (raiseUnit EV_DMA_TAKEOVER (unitDma 0) mask { s with dma := { s.dma with active := 1 - s.dma.active } }))

/-- Every channel in OWN_WAIT fetches its descriptor again at a block boundary; one that the link's return lets fetch does. -/
def dmaBoundary (s : State) : State :=
  (List.range 32).foldl (fun s c =>
    if dmaSt c s = dmOwnWait || (dmaSt c s = dmRun && (tfind s.dma.cur c).isNone) then dmaFetch c s else s) s

end Sys2Proof.Machine
end

