-- ==== Sys2Proof/Machine/HostRows.lean ====
section
/-! DEFINITION. The rows of the host interface: rings, events, function-level reset, the PCIe link, mailbox and SMBus
(spec/03_host_commands.md R72, R77 to R80, R84, R90 to R94). -/
namespace Sys2Proof.Machine

/-! ## The command ring (R78 to R80, R84) -/

/-- The command of an opcode taken in by a fetch. -/
def fetchedRun (op : Nat) (c : Cmd) (slot : Option Nat) (s : State) : State :=
  match opKind op with
  | some .query => queryRun op (queryOf op) c slot s
  | some .always => aonRun op (aonOf op) c slot s
  | some .config => configRun op c slot s
  | some .long => longRun op (longCheck op) (longBegin op) c slot s
  | none => s

/-- The command of an entry's 64 bytes (R76). -/
def cmdOf (fn : Fn) (l : List Byte) : Cmd := ⟨fn, le l 2 2, le l 4 4, le l 8 8, le l 0x10 4, le l 0x14 4, l.drop 0x18⟩

/-- COMMAND_FETCH: the entry at the head, where intake is open; a PCIe error halts intake. -/
def execCommandFetch (fn : Fn) (s : State) : Out :=
  let head := fget (R.CMD_SQ_HEAD_head fn) s
  let a := fget (R.CMD_SQ_BASE_base fn) s * 4096 + 64 * head
  .next (if head = fget (R.CMD_SQ_TAIL_tail fn) s || !intakeOpen fn s then s
    else if !hostOk a 64 s then haltSq fn 2 s
    else
      let l := hostRead a 64 s
      let op := le l 0 2
      let c := cmdOf fn l
      let t := takeIn op c (fset (R.CMD_SQ_HEAD_head fn) ((head + 1) % sqSize fn s) s)
      match t.refuse with
      | some r => queryEnd op c t.slot (complOf c.tag op r) t.s
      | none => fetchedRun op c t.slot t.s)

/-- The doorbell.  On BAD_TAIL the register keeps its value (log entry 169). -/
def sqTailWrite (fn : Fn) (v : Nat) (s : State) : State :=
  let v := v % 4096
  if v = fget (R.CMD_SQ_TAIL_tail fn) s then s
  else if sqSize fn s ≤ v then haltSq fn 1 s
  else fset (R.CMD_SQ_TAIL_tail fn) v s

/-- CMD_SQ_TAIL_WRITE. -/
def execCmdSqTailWrite (fn : Fn) (v : Nat) (s : State) : Out := .next (sqTailWrite fn v s)

/-- Whether a CQ index lies, in ring order, from the old head up to the new one. -/
def retires (size old v i : Nat) : Bool := decide ((i + size - old) % size < (v + size - old) % size)

/-- CMD_CQ_HEAD written: result slots and records of long operations of the entries passed are freed, or the write is ignored (R78). -/
def cqHeadWrite (fn : Fn) (v : Nat) (s : State) : State :=
  let v := v % 4096
  let size := cqSize fn s
  let old := fget (R.CMD_CQ_HEAD_head fn) s
  if !headTaken old (fget (R.CMD_CQ_TAIL_tail fn) s) size v then fset (R.CMD_STATUS_bad_head fn) 1 s
  else
    let gone := fun (i : Option Nat) => match i with
      | some n => retires size old v n
      | none => false
    let mine := fun (k : Nat) => decide (fnNum fn * 64 ≤ k) && decide (k < fnNum fn * 64 + 64)
    let s := { s with hif := { s.hif with
      slots := s.hif.slots.filter fun p => !(mine p.1 && gone p.2.index)
      lops := s.hif.lops.filter fun p => !(decide (p.2.fn = fn) && p.2.st.terminal && gone p.2.index) } }
    lopSync fn (fset (R.CMD_CQ_HEAD_head fn) v s)

/-- CMD_CQ_HEAD_WRITE. -/
def execCmdCqHeadWrite (fn : Fn) (v : Nat) (s : State) : Out := .next (cqHeadWrite fn v s)

/-- CMD_RESULT_ACK written: a ready slot is retired (R84). -/
def resultAck (fn : Fn) (v : Nat) (s : State) : State :=
  let k := slotKey fn (v % 64)
  match tfind s.hif.slots k with
  | some x => if x.ready.isSome then { s with hif := { s.hif with slots := terase s.hif.slots k } } else s
  | none => s

/-- CMD_RESULT_ACK. -/
def execCmdResultAck (fn : Fn) (v : Nat) (s : State) : Out := .next (resultAck fn v s)

/-- CMD_CTRL written (R78; log entry 52): enable with both rings at entry 0 and phase 1; disable where nothing is in flight. -/
def cmdEnable (fn : Fn) (v : Nat) (s : State) : State :=
  let on := fon (R.CMD_CTRL_enable fn) s
  if v % 2 = 1 then
    if on then s
    else if fget (R.CMD_RING_SIZE_cq_log2 fn) s < fget (R.CMD_RING_SIZE_sq_log2 fn) s then fset (R.CMD_STATUS_enable_refused fn) 1 s
    else
      let s := fset (R.CMD_SQ_HEAD_head fn) 0 (fset (R.CMD_SQ_TAIL_tail fn) 0 s)
      let s := fset (R.CMD_CQ_HEAD_head fn) 0 (fset (R.CMD_CQ_TAIL_tail fn) 0 (fset (R.CMD_CQ_TAIL_phase fn) 1 s))
      fset (R.CMD_STATUS_running fn) (b2n (!fon (R.CMD_STATUS_sq_halted fn) s)) (fset (R.CMD_CTRL_enable fn) 1 s)
  else if !on || fget (R.CMD_STATUS_in_flight fn) s ≠ 0 then s
  else
    let s := { s with hif := { s.hif with lops := s.hif.lops.filter fun p => !(decide (p.2.fn = fn) && p.2.st.terminal) } }
    lopSync fn (fset (R.CMD_STATUS_running fn) 0 (fset (R.CMD_CTRL_enable fn) 0 s))

/-- CMD_ENABLE. -/
def execCmdEnable (fn : Fn) (v : Nat) (s : State) : Out := .next (cmdEnable fn v s)

/-- halt_cause once a halt is cleared: 0 where neither ring is halted. -/
def haltCauseSync (fn : Fn) (s : State) : State :=
  if fon (R.CMD_STATUS_sq_halted fn) s then s
  else fset (R.CMD_STATUS_halt_cause fn) (if fon (R.CMD_STATUS_cq_halted fn) s then 3 else 0) s

/-- sq_halted cleared: intake goes on at the head (R80). -/
def sqResume (fn : Fn) (s : State) : State :=
  if !fon (R.CMD_STATUS_sq_halted fn) s then s
  else haltCauseSync fn (fset (R.CMD_STATUS_running fn) (fget (R.CMD_CTRL_enable fn) s) (fset (R.CMD_STATUS_sq_halted fn) 0 s))

/-- SQ_HALTED_CLEAR. -/
def execSqHaltedClear (fn : Fn) (s : State) : Out := .next (sqResume fn s)

/-- cq_halted cleared: the held entry is written again (R80). -/
def cqResume (fn : Fn) (s : State) : State :=
  if !fon (R.CMD_STATUS_cq_halted fn) s then s else cqFlush fn (haltCauseSync fn (fset (R.CMD_STATUS_cq_halted fn) 0 s))

/-- CQ_HALTED_CLEAR. -/
def execCqHaltedClear (fn : Fn) (s : State) : Out := .next (cqResume fn s)

/-! ## Event rings (R78, R90) -/

/-- The key of a function's event queue `q`; none where it has none. -/
def evqKey (fn : Fn) (q : Nat) : Option Nat :=
  match fn with
  | .pf => if q < 16 then some (evqPf q) else none
  | .vf r => if q = 0 then some (evqVf r) else none

def evqSize (fn : Fn) (q : Nat) (s : State) : Nat := 2 ^ fget (R.INT_EVQ_CFG_log2 fn q) s

/-- INT_EVQ_HEAD written: taken, or ignored (R78). -/
def evqHeadWrite (fn : Fn) (q v : Nat) (s : State) : State :=
  let v := v % 2 ^ 14
  if (evqKey fn q).isSome && headTaken (fget (R.INT_EVQ_HEAD_head fn q) s) (fget (R.INT_EVQ_TAIL_tail fn q) s) (evqSize fn q s) v then
    fset (R.INT_EVQ_HEAD_head fn q) v s
  else s

/-- INT_EVQ_HEAD_WRITE. -/
def execIntEvqHeadWrite (fn : Fn) (q v : Nat) (s : State) : Out := .next (evqHeadWrite fn q v s)

/-- The bytes of an entry of an event ring (R90). -/
def evBytes (e : EvEntry) (phase ovf : Nat) : List Byte :=
  leBytes 2 e.ev.code ++ leBytes 1 e.sev ++ leBytes 1 (phase + 2 * ovf) ++ leBytes 4 e.seq
    ++ leBytes 8 (e.ev.stamp + e.ev.offset * 2 ^ 48) ++ leBytes 2 e.ev.unit ++ leBytes 1 (e.ev.ring.getD 0xFF) ++ leBytes 1 e.ev.kind
    ++ leBytes 4 e.ev.subj ++ leBytes 8 e.ev.detail

/-- The entry that leaves an event queue next: of the highest severity; `pick` says which of those, whose order R90 leaves open. -/
def evqPick (l : List EvEntry) (pick : Nat) : Option EvEntry :=
  let top := (l.map (·.sev)).foldl max 0
  let best := l.filter fun e => decide (e.sev = top)
  best[pick % best.length]?

/-- EVENT_DELIVER: one entry into the host ring, where it has room (R78, R90, R92). -/
def evDeliver (fn : Fn) (q pick : Nat) (s : State) : State :=
  match evqKey fn q with
  | none => s
  | some k =>
    let x := evqGet k s
    let head := fget (R.INT_EVQ_HEAD_head fn q) s
    let tail := fget (R.INT_EVQ_TAIL_tail fn q) s
    let size := evqSize fn q s
    let a := fget (R.INT_EVQ_BASE_base fn q) s * 4096 + 32 * tail
    match evqPick x.items pick with
    | none => s
    | some e =>
      if !fon (R.INT_EVQ_CFG_enable fn q) s || !ringRoom head tail size 0 || !hostOk a 32 s then s
      else
        let phase := fget (R.INT_EVQ_TAIL_phase fn q) s
        let s := hostWrite a (evBytes e phase (b2n x.ovf)) s
        let s := evqPut k { x with
          items := x.items.erase e
          ovf := false } s
        let s := fset (R.INT_EVQ_TAIL_tail fn q) ((tail + 1) % size) s
        let s := if tail + 1 = size then fset (R.INT_EVQ_TAIL_phase fn q) (1 - phase) s else s
        if head = tail then signal fn (evqVec k) s else s

/-- EVENT_DELIVER. -/
def execEventDeliver (fn : Fn) (q pick : Nat) (s : State) : Out := .next (evDeliver fn q pick s)

/-! ## Function-level reset and the link (R72, R434) -/

/-- The event queue registers of a function at their reset values; its on-chip queues stand, and the depths shown with them. -/
def evqReset (fn : Fn) (s : State) : State :=
  (List.range (match fn with
    | .pf => 16
    | .vf _ => 1)).foldl (fun s q =>
      let s := resetRange (evqBase fn q) (evqBase fn q + 0x18) s
      match evqKey fn q with
      | some k => evqPut k (evqGet k s) s
      | none => s) s

/-- A function-level reset (R72). -/
def fnReset (fn : Fn) (s : State) : State :=
  let flight := (s.hif.flight.filter fun f => !(decide (f.cmd.fn = fn) && !f.effective)).map fun f =>
    if f.cmd.fn = fn then { f with orphan := true } else f
  let lops := (s.hif.lops.filter fun p => !(decide (p.2.fn = fn) && p.2.st.terminal)).map fun (p : Nat × Lop) =>
    if p.2.fn = fn then (p.1, { p.2 with orphan := true }) else p
  let s := { s with
    hif := { s.hif with
      flight := flight
      lops := lops
      slots := teraseRange s.hif.slots (fnNum fn * 64) (fnNum fn * 64 + 64)
      cqWait := terase s.hif.cqWait (fnNum fn)
      msix := teraseRange s.hif.msix (fnNum fn * 2048) (fnNum fn * 2048 + 2048) }
    obs := { s.obs with tels := terase s.obs.tels (fnNum fn) } }
  let s := resetRange (cmdBase fn) (cmdBase fn + 0x30) s
  let s := evqReset fn s
  let s := resetRange (htxBase fn) (htxBase fn + 0x10) (resetRange (excBase fn) (excBase fn + 0x14) s)
  lopSync fn (keyDiscard fn s)

/-- FUNCTION_LEVEL_RESET. -/
def execFunctionLevelReset (fn : Fn) (s : State) : Out := .next (fnReset fn s)

def linkSet (up : Bool) (s : State) : State := { s with mem := { s.mem with linkUp := up } }

/-- PCIE_LINK_DOWN: media goes on, DMA to the host pauses. -/
def execPcieLinkDown (s : State) : Out := .next (linkSet false s)

/-- PCIE_LINK_UP: DMA to the host goes on, waiting completions and exception frames are written. -/
def execPcieLinkUp (s : State) : Out := .next (dmaBoundary (excFlush (allFns.foldl (fun s fn => cqFlush fn s) (linkSet true s))))

/-- PCIE_PERST: the host interface alone is reset, every function's; media goes on. -/
def execPciePerst (s : State) : Out := .next (linkSet false (allFns.foldl (fun s fn => fnReset fn s) s))

/-! ## Legs that drain (R86) -/

/-- Whether an item of a leg stamped up to block `e` has not ended. -/
def legItems (leg e : Nat) (s : State) : Bool :=
  s.crsl.items.any fun p => !p.2.d.act && decide (p.2.d.subject = leg) && !stampAfter p.2.d.stamp e && !p.2.ended

/-- A DRAINING leg whose block b + ramp has ended and whose items have completed becomes FREE, and its LEG_RELEASE completes. -/
def legDrainEnd (leg : Nat) (s : State) : State :=
  match tfind s.ctl.legs leg with
  | none => s
  | some l =>
    if l.st ≠ .draining || !stampAfter s.clk.stamp l.drainEnd || legItems leg l.drainEnd s then s
    else
      let mine := fun (f : Flight) => f.effective && decide (f.opcode = 0x25) && decide (f.cmd.target = leg)
      let ends := s.hif.flight.filter mine
      let s := legFree leg s.clk.stamp l { s with hif := { s.hif with flight := s.hif.flight.filter fun f => !mine f } }
      ends.foldl (fun s f => flightEnd f rspOk s) s

/-- LEG_DRAIN_END: between blocks it ends the drain of a leg whose last item has completed since the boundary. -/
def execLegDrainEnd (leg : Nat) (s : State) : Out := .next (legDrainEnd leg s)

/-- The drains that end with the block before. -/
def drainsEnd (s : State) : State := (tkeysWhere s.ctl.legs fun _ l => decide (l.st = .draining)).foldl (fun s n => legDrainEnd n s) s

/-! ## The trace buffer and staged lengths (R115, R467) -/

/-- Whether a trace buffer of 2^n records at a base lies in a kind-9 region of the device's own. -/
def traceFits (base n : Nat) (s : State) : Bool :=
  (regionsOf 0xF1 9 s).any fun g => decide (g.base ≤ base * 4096) && decide (base * 4096 + 32 * 2 ^ n ≤ g.base + g.size)

/-- The trace buffer enabled, or refused. -/
def traceOn (s : State) : State :=
  if fon R.OBS_TRACE_CFG_enable s then s
  else if traceFits (fget R.OBS_TRACE_BASE_base s) (fget R.OBS_TRACE_CFG_n s) s then fset R.OBS_TRACE_CFG_enable 1 s
  else fset R.OBS_TRACE_CFG_refused 1 s

/-- TRACE_ENABLE. -/
def execTraceEnable (s : State) : Out := .next (traceOn s)

/-- BUFFER_RESIZE_EFFECT: a staged length whose moment has come: of a jitter ring (kind 0), an event queue (1), a rewind ring (2), a
cluster's ready queue (3). -/
def execBufferResizeEffect (kind id : Nat) (s : State) : Out :=
  .next (match kind with
    | 0 => jrSettle id s
    | 1 => evqResize id s
    | 2 => rwSettle id s
    | 3 => rqSettle id s
    | _ => s)

/-- AUD_LEG_METER_READ (R180): the meter read, and AUD_LEG_HOLD latched from the same block. -/
def execAudLegMeterRead (fn : Fn) (s : State) : Out :=
  let q := seen s
  .next (match selected fn (R.AUD_LEG_SEL_leg fn) 0 16384 s with
    | none => { s with hif := { s.hif with readData := 0 } }
    | some n => { s with hif := { s.hif with
        readData := meterWord n q
        latch := tset s.hif.latch (64 + fnNum fn) (n, ofS 16 (legAud n q).held) } })

end Sys2Proof.Machine
end

