-- ==== Sys2Proof/Machine/KeyRows.lean ====
section
/-! DEFINITION. The commands of the key store and the cipher engines that host registers and faults bring
(spec/05_cipher_keys.md). -/
namespace Sys2Proof.Machine

/-- A go with op 1 (R123 to R125). -/
def execKeyLoad (fn : Fn) (s : State) : Out := .next (keyGo fn 1 s)

/-- A go with op 2. -/
def execKeyErase (fn : Fn) (s : State) : Out := .next (keyGo fn 2 s)

/-- A go with op 0. -/
def execKeyAbort (fn : Fn) (s : State) : Out := .next (keyGo fn 0 s)

/-- A write of KEY_LOAD_DATA_n: the word is staged and its written bit set; there are twelve words. -/
def execKeyLoadDataWrite (fn : Fn) (n v : Nat) (s : State) : Out :=
  if n < 12 then
    let k := keyStage fn s
    let w := fget (R.KEY_LOAD_STATUS_written fn) s
    .next (fset (R.KEY_LOAD_STATUS_written fn) (if bit w n then w else w + 2 ^ n)
      (keyStagePut fn { k with words := tset k.words n (v % 2 ^ 32) } s))
  else .next s

/-- The key store completes the request at the head of its queue. -/
def execKeyOpComplete (s : State) : Out := .next (keyComplete s)

/-- A parity or ECC error of a slot: that slot alone is emptied and its references cleared (R142). -/
def execKeySlotError (slot : Nat) (s : State) : Out :=
  let s := keyUnref slot (keyEmpty slot s)
  let s := cinc 0x80310 (fset R.KEY_ZEROISE_STATUS_cause 4 s)
  .next (raise (ev EV_KEY_ZEROISED 0 (ringOf 3 slot s) 0 0 (2 + 4 * 16 + slot % 65536 * 65536) s) s)

/-- A write of CIPH_SCA_CFG: clearing a measure while a slot is valid is ignored, counted and reported (R137). -/
def execScaCfgWrite (v : Nat) (s : State) : Out :=
  if keyCount s ≠ 0 && !(bit v 0 && bit v 1) then .next (raiseUnit EV_SCA_REFUSED 0 0 (cinc 0xC0010 s))
  else .next (fset R.CIPH_SCA_CFG_dummy_en (v % 2) (fset R.CIPH_SCA_CFG_shuffle_en (v / 2 % 2) s))

/-- An entropy health test fails: reported; the measures stay active (R138). -/
def execEntropyHealthFail (s : State) : Out :=
  .next (raiseUnit EV_RNG_FAIL 0 0 (fset R.CIPH_RNG_STATUS_fail 1 (fset R.CIPH_RNG_STATUS_healthy 0 s)))

/-- The grace interval of a context's previous slot ends (R127). -/
def execRekeyGraceEnd (stream : Nat) (s : State) : Out :=
  .next (match tfind s.ctl.streams stream with
    | none => s
    | some st =>
      match st.prev with
      | none => s
      | some p => if stampGe s.clk.stamp p.2 then streamPut stream { st with prev := none } s else s)

end Sys2Proof.Machine
end

