-- ==== Sys2Proof/Machine/TdmRows.lean ====
section
/-! DEFINITION. The commands of rate conversion and TDM (spec/07_rate_conversion_tdm.md). -/
namespace Sys2Proof.Machine

/-! ## Staged changes: a go with the operation that the row names staged (R190) -/

/-- SRC_SELECT_FILTER. -/
def execSrcSelectFilter (fn : Fn) (s : State) : Out := .next (if fget (R.SRC_STAGE_OP_op fn) s = 1 then srcGo fn s else s)

/-- SRC_BIND_SLOT. -/
def execSrcBindSlot (fn : Fn) (s : State) : Out := .next (if fget (R.SRC_STAGE_OP_op fn) s = 2 then srcGo fn s else s)

/-- SRC_UNBIND_SLOT. -/
def execSrcUnbindSlot (fn : Fn) (s : State) : Out := .next (if fget (R.SRC_STAGE_OP_op fn) s = 3 then srcGo fn s else s)

/-! ## Banks -/

def execSrcBankCoefWrite (v : Nat) (s : State) : Out := .next (bankCoef v s)
def execSrcBankCommit (s : State) : Out := .next (bankCommit s)
def execSrcBankAbort (s : State) : Out := .next (bankAbort s)
def execSrcBankClear (s : State) : Out := .next (bankClear s)

/-! ## Frames and clocks (R196) -/

/-- A frame at a running port: one received, one sent. -/
def execTdmFrame (port : Nat) (slots : List Nat) (s : State) : Out :=
  .next (if tdmRun port s then tdmTake port slots (tdmSend port s) else s)

/-- A slave port that has no BCLK for a block waits for its clock. -/
def execTdmClockLoss (port : Nat) (s : State) : Out :=
  .next (if tdmRun port s && !fon (R.SRC_TDM_CFG_master port) s then
      raiseUnit EV_TDM_CLOCK_LOST (unitTdm port) port
        (fset (R.SRC_TDM_STATUS_state port) 1 (tdmPortPut port { tdmPort port s with clk := false } s))
    else s)

/-- BCLK returns. -/
def execTdmClockRestored (port : Nat) (s : State) : Out :=
  .next (if fget (R.SRC_TDM_STATUS_state port) s = 1 then tdmSettle port (tdmPortPut port { tdmPort port s with clk := true } s) else s)

/-! ## Pins (R201): 0 BCLK, 1 FSYNC, 2 DX, 3 DR -/

/-- The status field of a pin. -/
def pinFld (port pin : Nat) : Fld :=
  match pin with
  | 0 => R.SRC_TDM_STATUS_pin_bclk port
  | 1 => R.SRC_TDM_STATUS_pin_fsync port
  | 2 => R.SRC_TDM_STATUS_pin_dx port
  | _ => R.SRC_TDM_STATUS_pin_dr port

/-- Whether a port drives a pin: DX, and a master its clocks. -/
def pinDriven (port pin : Nat) (s : State) : Bool := decide (pin = 2) || (decide (pin < 2) && fon (R.SRC_TDM_CFG_master port) s)

/-- A pin tested in this block. -/
def pinTested (port pin : Nat) (s : State) : State :=
  let t := tdmPort port s
  tdmPortPut port { t with tested := tset t.tested pin s.clk.stamp } s

/-- A pin's code changed: the status, the port's state, the event and counter. -/
def pinSet (port pin code : Nat) (s : State) : State :=
  if fget (pinFld port pin) s = code then s
  else
    let old := fget (pinFld port pin) s
    let s := fset (pinFld port pin) code (pinTested port pin s)
    let s := if pin < 2 then tdmSettle port s else s
    if code = 0 then raiseUnit EV_TDM_PIN_CLEAR (unitTdm port) (port + pin * 4 + old * 16) s
    else raiseUnit EV_TDM_PIN_FAULT (unitTdm port) (port + pin * 4 + code * 16) (cinc (tdmCnt port 0x20) s)

/-- Sixteen driven cycles read back opposite: `high` where the pin read 1 and drove 0. -/
def execTdmPinShort (port pin : Nat) (high : Bool) (s : State) : Out :=
  .next (if pinDriven port pin s then pinSet port pin (if high then 2 else 3) s else s)

/-- An input pin without a transition for a block tested: `up` is its level under the pull-up, `down` its level under the pull-down.
A pin that follows both is OPEN, one that stays high or low is stuck; DR is tested for OPEN alone. -/
def execTdmPinTest (port pin : Nat) (up down : Bool) (s : State) : Out :=
  .next (if pinDriven port pin s || 3 < pin then s
    else pinSet port pin (if up && !down then 1 else if pin = 3 then 0 else if up then 2 else 3) s)

/-- A faulted pin tested again, 2,000 blocks after its fault or its last test; it is cleared when it passes. -/
def execTdmPinRetest (port pin : Nat) (pass : Bool) (s : State) : Out :=
  let due := match tfind (tdmPort port s).tested pin with
    | some a => decide (2000 ≤ stampSub s.clk.stamp a)
    | none => true
  .next (if 3 < pin || !fon (pinFld port pin) s || !due then s
    else if pass then pinSet port pin 0 s else pinTested port pin s)

/-! ## Swap and takeover (R202, R203) -/

/-- A count within 1 % of what is expected. -/
def nearCount (n want : Nat) : Bool := decide (100 * n ≤ 101 * want) && decide (99 * want ≤ 100 * n)

/-- Whether the counts of a block on the pins wired as BCLK and as FSYNC are each what the other's pin should show (R194, R202). -/
def countsSwapped (mode : Nat) (c : Nat × Nat) : Bool :=
  nearCount c.1 (tdmFrames mode) && nearCount c.2 (tdmFrames mode * tdmSlots mode * tdmWidth mode)

/-- A slave with auto_swap set exchanges its clock pins where the counts of two consecutive blocks are swapped. -/
def execTdmAutoSwap (port : ClockCounts) (s : State) : Out :=
  let seen := (port.bclk.zip port.fsync).take 2
  let port := port.port
  let wrong := decide (seen.length = 2) && seen.all (countsSwapped (tdmMode port s))
  .next (if wrong && !fon (R.SRC_TDM_CFG_master port) s && fon (R.SRC_TDM_CFG_auto_swap port) s && !fon (R.SRC_TDM_STATUS_swapped port) s then
      raiseUnit EV_TDM_SWAPPED (unitTdm port) port (fset (R.SRC_TDM_STATUS_swapped port) 1 s)
    else s)

/-- The other serialiser takes over at the next frame boundary; the frame in progress is lost. -/
def execTdmDupTakeover (port : Nat) (s : State) : Out :=
  let s := (faultDeclare ⟨unitTdm port, 2, 2, 0, 0, 0, port, 0xFF, severity EV_TDM_DUP_TAKEOVER port, 0⟩ s).2
  .next (raiseUnit EV_TDM_DUP_TAKEOVER (unitTdm port) port (tdmPortPut port { tdmPort port s with takeover := true } s))

end Sys2Proof.Machine
end

