-- ==== Sys2Proof/Machine/RegWrite.lean ====
section
/-! DEFINITION. Reads and writes of registers (spec/00_scope.md R9 to R11, R491; spec/03_host_commands.md R73 to R75): the write of a
register by its fields, and what the registers do whose write is an action. -/
namespace Sys2Proof.Machine

/-- The state after a row whose effect a register write has. -/
def ran (o : Out) (s : State) : State :=
  match o with
  | .next t => t
  | _ => s

/-! ## Fields (R10, R491) -/

/-- A field written: an RW field takes a value in its range, a W1C field clears the bits that are 1, a W1S field sets them. -/
def fieldWrite (addr v : Nat) (f : FDesc) (s : State) : State :=
  let x := bits v f.lo f.w
  let fld : Fld := ⟨addr, f.lo, f.w, f.rst⟩
  let old := fget fld s
  match f.ty with
  | .rw => if within f.min f.max x then fset fld x s else s
  | .w1c => fset fld (old - (old &&& x)) s
  | .w1s => fset fld (old ||| x) s
  | _ => s

/-- A register's fields written. -/
def fieldsWrite (r : RegRef) (v : Nat) (s : State) : State := r.d.fields.foldl (fun s f => fieldWrite r.addr v f s) s

/-! ## Registers whose write acts -/

/-- The index of a register in its array. -/
def RegRef.idx (r : RegRef) : Nat := if r.d.s1 = 0 then 0 else (r.pf - r.d.base) / r.d.s1

/-- CMD_STATUS written. -/
def cmdStatusWrite (fn : Fn) (v : Nat) (s : State) : State :=
  let s := if bit v 3 then fset (R.CMD_STATUS_enable_refused fn) 0 s else s
  let s := if bit v 21 then fset (R.CMD_STATUS_bad_head fn) 0 s else s
  let s := if bit v 1 then sqResume fn s else s
  if bit v 2 then cqResume fn s else s

/-- INT_EVQ_CFG or ING_EXC_CFG written: an enable starts the ring at entry 0 with phase 1 (R78; log entry 52). -/
def ringCfgWrite (r : RegRef) (v : Nat) (on head tail phase : Fld) (s : State) : State :=
  let was := fon on s
  let s := fieldsWrite r v s
  if !was && fon on s then fset head 0 (fset tail 0 (fset phase 1 s)) else s

/-- ETH_LINK_CFG written. -/
def linkCfgWrite (link : Nat) (r : RegRef) (v : Nat) (s : State) : State :=
  let was := fon (R.ETH_LINK_CFG_enable link) s
  let s := fset (R.ETH_LINK_CFG_enable link) (b2n was) (fieldsWrite r v s)
  if bit v 0 = was then s else if was then linkDisable link s else linkEnable link s

/-- KEY_LOAD_CTRL written. -/
def keyCtrlWrite (fn : Fn) (v : Nat) (s : State) : State := if bit v 0 && bits v 1 2 ≠ 3 then keyGo fn (bits v 1 2) s else s

/-- SRC_BANK_CFG written: the settings of the bank that SRC_BANK_SEL names. -/
def bankCfgWrite (v : Nat) (s : State) : State :=
  let n := fget R.SRC_BANK_SEL_bank s
  bankPut n { srcBank n s with cfg := bits v 0 2 + bits v 4 8 * 16 + bits v 16 16 * 65536 } s

/-- SRC_BANK_CTRL written. -/
def bankCtrlWrite (v : Nat) (s : State) : State :=
  if !bit v 0 then s
  else match bits v 1 2 with
    | 0 => bankAbort s
    | 1 => bankCommit s
    | 2 => bankClear s
    | _ => s

/-- Every TDM port brought to the state of its settings and channels. -/
def portsSettle (s : State) : State := (List.range 4).foldl (fun s p => tdmSettle p s) s

/-- SRC_TDM_CFG written; enable is ignored where the port's mode is 0. -/
def tdmCfgWrite (p : Nat) (r : RegRef) (v : Nat) (s : State) : State :=
  let was := fget (R.SRC_TDM_CFG_enable p) s
  let s := fieldsWrite r v s
  portsSettle (if tdmMode p s = 0 then fset (R.SRC_TDM_CFG_enable p) was s else s)

/-- TMB_CORE_CTRL written (R228, R229). -/
def coreCtrlWrite (c v : Nat) (s : State) : State :=
  let s := fset (R.TMB_CORE_CTRL_dbg_kernel c) (bits v 8 8) s
  let s := if bit v 0 = fon (R.TMB_CORE_CTRL_debug_en c) s then s else debugEnable c v s
  let s := if bit v 1 then ran (execDebugHaltRequest c s) s else s
  let s := if bit v 2 then ran (execDebugStep c s) s else s
  if bit v 3 then ran (execDebugResume c s) s else s

/-- TMB_DBG_DATA written: the selected register or word of a HALTED core. -/
def debugDataWrite (c v : Nat) (s : State) : State :=
  if coreSt c s ≠ csHalted then s
  else
    let k := coreGet c s
    let i := fget (R.TMB_DBG_SEL_index c) s
    let w := BitVec.ofNat 32 v
    corePut c (match fget (R.TMB_DBG_SEL_space c) s with
      | 0 => k.wr (i % 32) w
      | 1 =>
        let j := i % 64
        if 0x3C ≤ j then
          let a := (k.accRd ((j - 0x3C) / 2)).toNat
          k.wrAcc ((j - 0x3C) / 2) (BitVec.ofNat 40 (if j % 2 = 0 then a / 2 ^ 32 * 2 ^ 32 + v % 2 ^ 32 else a % 2 ^ 32 + v % 256 * 2 ^ 32))
        else if j = 0x20 then { k.crSet 0x20 (v % 16) with rb := v % 16 }
        else if j = 0x21 then k.crSet 0x21 (v % 65536)
        else k.crLand j v
      | 2 => if i < 4160 then k.wordSet false (4 * i) w else k
      | _ => if i < 4096 then k.wordSet true (4 * i) w else k) s

/-- VCT_RING_POOL written (R264): a sum of the two fields over 15 ignores the write whole. -/
def ringPoolWrite (r : RegRef) (v : Nat) (s : State) : State :=
  let t := fieldsWrite r v s
  if 15 < fget ⟨r.addr, 0, 4, 4⟩ t + fget ⟨r.addr, 4, 2, 2⟩ t then s else t

/-- FWD_RW_STATUS written: the selected ring's RWND_MARK_LOST bit cleared. -/
def rwStatusWrite (fn : Fn) (v : Nat) (s : State) : State :=
  match selected fn (R.FWD_RW_SEL_stream fn) 2 65536 s with
  | none => s
  | some n => match tfind s.egr.rings n with
    | some x => if bit v 12 then { s with egr := { s.egr with rings := tset s.egr.rings n { x with lost := false } } } else s
    | none => s

/-- EGR_LINK_CFG written: an overhead below −64 is ignored. -/
def linkOverheadWrite (r : RegRef) (v : Nat) (s : State) : State := if within 128 191 (v % 256) then s else fieldsWrite r v s

/-- DMA_CH_CFG written: the owner of a disabled channel 0 to 27 (R388). -/
def dmaCfgWrite (c : Nat) (r : RegRef) (v : Nat) (s : State) : State :=
  let was := fget (R.DMA_CH_CFG_owner c) s
  let known := decide (v % 256 < 16) || decide (v % 256 = 0xF0) || decide (v % 256 = 0xFF)
  let fixed := decide (28 ≤ c) || fon (R.DMA_CH_CTRL_enable c) s || !known
  let s := fieldsWrite r v s
  portsSettle (if fixed then fset (R.DMA_CH_CFG_owner c) was s else s)

/-- SRC_TDM_OWN written: its field takes a word whose four owners are each a Ring or 0xFF, and else keeps its value (R198, R491; log entry
181). -/
def tdmOwnWrite (r : RegRef) (v : Nat) (s : State) : State :=
  if (List.range 4).all fun i => decide (bits v (8 * i) 8 < 16) || decide (bits v (8 * i) 8 = 0xFF) then fieldsWrite r v s else s

/-- DMA_CH_CTRL written; how far an abort finds the descriptor is a free value. -/
def dmaCtrlWrite (c v : Nat) (s : State) : State :=
  let s := if bit v 0 = fon (R.DMA_CH_CTRL_enable c) s && !(bit v 0 && dmaSt c s = dmStopped) then s else ran (execDmaEnable c (bit v 0) s) s
  let s := if bit v 1 then dmaStop c s else s
  let s := if bit v 2 then
      let f := takeFree s
      ran (execDmaAbort c (Config.abortDone f.1) f.2) f.2
    else s
  if bit v 3 then ran (execDmaResume c s) s else s

/-- GLB_AON_CFG written: a watchdog that is enabled starts with its configured timeout. -/
def aonCfgWrite (r : RegRef) (v : Nat) (s : State) : State :=
  let t := fieldsWrite r v s
  if !fon R.GLB_AON_CFG_wdt_en s && fon R.GLB_AON_CFG_wdt_en t then wdtKick t else t

/-- PWR_SPI_CTRL written. -/
def spiCtrlWrite (v : Nat) (s : State) : State := if bit v 0 && within 1 5 (bits v 1 3) then spiGo (bits v 1 3) s else s

/-- CAS_KEY_CTRL written. -/
def casKeyWrite (v : Nat) (s : State) : State :=
  if !bit v 0 then s
  else match bits v 1 2 with
    | 0 => ran (execCasKeyAbort s) s
    | 1 => ran (execCasKeyLoad s) s
    | 2 => ran (execCasKeyErase s) s
    | _ => s

/-- OBS_TRACE_BASE written; while the buffer is on a base that does not fit sets refused (log entry 50). -/
def traceBaseWrite (v : Nat) (s : State) : State :=
  let b := v / 4096 % 2 ^ 52
  if fon R.OBS_TRACE_CFG_enable s && !traceFits b (fget R.OBS_TRACE_CFG_n s) s then fset R.OBS_TRACE_CFG_refused 1 s
  else fset R.OBS_TRACE_BASE_base b s

/-- OBS_TRACE_CFG written. -/
def traceCfgWrite (v : Nat) (s : State) : State :=
  let n := bits v 0 5
  let s := if bit v 8 then fset R.OBS_TRACE_CFG_refused 0 s else s
  let s := fset R.OBS_TRACE_CFG_stop (b2n (bit v 6)) (fset R.OBS_TRACE_CFG_freeze (b2n (bit v 7)) s)
  let s := if !bit v 5 then fset R.OBS_TRACE_CFG_enable 0 s else s
  let s := if !within 10 20 n then s
    else if fon R.OBS_TRACE_CFG_enable s && !traceFits (fget R.OBS_TRACE_BASE_base s) n s then fset R.OBS_TRACE_CFG_refused 1 s
    else fset R.OBS_TRACE_CFG_n n s
  if bit v 5 then traceOn s else s

/-- SRC_STAGE_ARG written: a select that is no preset, no bank and not the template's value keeps the old one (R491). -/
def srcArgWrite (fn : Fn) (r : RegRef) (v : Nat) (s : State) : State :=
  let old := fget (R.SRC_STAGE_ARG_select fn) s
  let x := v % 256
  let t := fieldsWrite r v s
  if x ≤ 2 || within 8 15 x || x = 255 then t else fset (R.SRC_STAGE_ARG_select fn) old t

/-- MBX_CTRL written (R94). -/
def mbxCtrlWrite (v : Nat) (s : State) : State :=
  let s := if bit v 3 then fset R.MBX_CTRL_collision 0 s else s
  let s := if bit v 2 then fset R.MBX_CTRL_done 0 { s with hif := { s.hif with mbx := { s.hif.mbx with rsp := [] } } } else s
  if bit v 0 then mbxGo s else s

/-! ## A register written -/

/-- Register writes that act, by the PF offset of the register's first copy; none for a register that its fields alone describe. -/
def actWrite (fn : Fn) (r : RegRef) (v : Nat) (s : State) : Option State :=
  let i := r.idx
  let b := r.d.base
  let enabled := fon (R.CMD_CTRL_enable fn) s
  if b = 0x10 then some (aonCfgWrite r v s)
  else if b = 0x40200 then some (ran (execFrmSignerRevoke (bits v 4 4) s) s)
  else if b = mbxAddr then some (mbxCtrlWrite v s)
  else if b < 0x20000 then match b with
    | 0x10000 => some (if enabled then s else fieldsWrite r v s)
    | 0x10008 => some (if enabled then s else fieldsWrite r v s)
    | 0x10010 => some (if enabled then s else fieldsWrite r v s)
    | 0x10014 => some (cmdEnable fn v s)
    | 0x10018 => some (cmdStatusWrite fn v s)
    | 0x1001C => some (sqTailWrite fn v s)
    | 0x10024 => some (cqHeadWrite fn v s)
    | 0x1002C => some (resultAck fn v s)
    | _ => none
  else if b < 0x200000 then match b with
    | 0x30008 => some (ringCfgWrite r v (R.INT_EVQ_CFG_enable fn i) (R.INT_EVQ_HEAD_head fn i) (R.INT_EVQ_TAIL_tail fn i)
        (R.INT_EVQ_TAIL_phase fn i) s)
    | 0x3000C => some (evqHeadWrite fn i v s)
    | 0x101000 => some (linkCfgWrite i r v s)
    | 0x103004 => some { s with clk := { s.clk with heldNs := v % 2 ^ 30 } }
    | 0x103008 => some (ran (execPtpTimeSet v s) s)
    | 0x103010 => some (ran (execPtpStep v s) s)
    | 0x140010 => some (let s := fieldsWrite r v s
        if 49152 < bits v 16 16 then fset (R.ING_LOCAL_valid i) 0 s else s)
    | 0x140210 => some (ringCfgWrite r v (R.ING_EXC_CFG_enable fn) (R.ING_EXC_HEAD_head fn) (R.ING_EXC_TAIL_tail fn)
        (R.ING_EXC_TAIL_phase fn) s)
    | 0x140214 => some (ran (execIngExcHeadWrite fn v s) s)
    | 0x140220 => some (ran (execIngJrResize v s) s)
    | 0x80000 => some (keyCtrlWrite fn v s)
    | 0x80010 => some (ran (execKeyLoadDataWrite fn i v s) s)
    | 0xC0000 => some (ran (execScaCfgWrite v s) s)
    | 0x180000 => some (linkOverheadWrite r v s)
    | 0x181018 => some (htxCfgWrite fn (fieldsWrite r v) s)
    | 0x18101C => some (ran (execHtxFrameSubmit fn v s) s)
    | _ => none
  else if b < 0x400000 then match b with
    | 0x240004 => some (srcArgWrite fn r v s)
    | 0x240010 => some (if bit v 0 then srcGo fn s else s)
    | 0x240100 => some (bankSync (fieldsWrite r v s))
    | 0x240104 => some (bankCfgWrite v s)
    | 0x240108 => some (bankCoef (v % 2 ^ 25) s)
    | 0x24010C => some (bankCtrlWrite v s)
    | 0x241000 => some (tdmCfgWrite i r v s)
    | 0x242000 => some (tdmOwnWrite r v s)
    | 0x2A0010 => some (let s := fieldsWrite r v s; if bit v 0 then qeccClear ((r.pf - 0x2A0010) / 0x20) s else s)
    | 0x301004 => some (coreCtrlWrite (coreOfPlace r.pf) v s)
    | 0x30101C => some (debugDataWrite (coreOfPlace r.pf) v s)
    | _ => none
  else match b with
    | 0x501100 => some (ringPoolWrite r v s)
    | 0x620018 => some (if bit v 0 then fwdGo fn s else s)
    | 0x620064 => some (rwStatusWrite fn v s)
    | 0x620080 => some (ran (execFwdRwResize fn v s) s)
    | 0x680000 => some (dpCtrlWrite v s)
    | 0x700000 => some (dmaCfgWrite i r v s)
    | 0x700008 => some (if fon (R.DMA_CH_CTRL_enable i) s then s else fieldsWrite r v s)
    | 0x700010 => some (dmaCtrlWrite i v s)
    | 0x700018 => some (ran (execDmaChAdd fn i v s) s)
    | 0x780018 => some (ran (execHoldupDisable (bit v 1) s) s)
    | 0x780024 => some s
    | 0x780054 => some (wdtKick s)
    | 0x780104 => some (spiCtrlWrite v s)
    | 0x800000 => some (if fget R.CAS_STATUS_state s = 0 then fieldsWrite r v s else s)
    | 0x800010 => some (casKeyWrite v s)
    | 0x800020 => some { s with cas := { s.cas with words := tset s.cas.words i (v % 2 ^ 32) } }
    | 0x800110 => some (if bit v 0 then casGo s else s)
    | 0x840000 => some (traceBaseWrite v s)
    | 0x840008 => some (traceCfgWrite v s)
    | _ => none

/-- A register written whole. -/
def writeReg (fn : Fn) (r : RegRef) (v : Nat) (s : State) : State := (actWrite fn r v s).getD (fieldsWrite r v s)

/-- A word of an MSI-X table entry written; an entry unmasked with a pending bit is sent. -/
def msixWrite (fn : Fn) (k word v : Nat) (s : State) : State :=
  let e := tget Msix.init s.hif.msix (msixKey fn k)
  let e := match word with
    | 0 => { e with addr := e.addr / 2 ^ 32 * 2 ^ 32 + v % 2 ^ 32 }
    | 1 => { e with addr := e.addr % 2 ^ 32 + v % 2 ^ 32 * 2 ^ 32 }
    | 2 => { e with data := v % 2 ^ 32 }
    | _ => { e with mask := bit v 0 }
  let go := !e.mask && e.pending
  let s := { s with hif := { s.hif with msix := tset s.hif.msix (msixKey fn k) { e with pending := if go then false else e.pending } } }
  if go then signal fn k s else s

/-- A word outside the register table written: of the MSI-X table, of MBX_REQ. -/
def otherWrite (fn : Fn) (off v : Nat) (s : State) : State :=
  if msixTable fn ≤ off ∧ off < msixTable fn + 16 * msixCount fn then
    msixWrite fn ((off - msixTable fn) / 16) (off % 16 / 4) v s
  else if fn = .pf ∧ mbxAddr + 4 ≤ off ∧ off < mbxAddr + 0x14 then
    let i := off - mbxAddr - 4
    let q := s.hif.mbx.req
    { s with hif := { s.hif with mbx := { s.hif.mbx with req := q.take i ++ leBytes 4 v ++ q.drop (i + 4) } } }
  else s

/-! ## Accesses of a half (R75) -/

/-- The low half that a high half completes: the staged one of the same register, else the register's own, 0 for a WO register. -/
def lowHalf (fn : Fn) (off : Nat) (r : RegRef) (s : State) : Nat :=
  match tfind s.hif.stage (fnNum fn) with
  | some (a, v) => if a = off then v else if r.d.fields.all fun f => decide (f.ty = .wo) then 0 else regValue fn r s % 2 ^ 32
  | none => if r.d.fields.all fun f => decide (f.ty = .wo) then 0 else regValue fn r s % 2 ^ 32

/-- A 32-bit write: of a 32-bit register, of the low half or of the high half of a 64-bit one. -/
def write32 (fn : Fn) (off v : Nat) (s : State) : State :=
  let v := v % 2 ^ 32
  if !reaches fn off then s
  else match regAt fn off s with
  | some r =>
    if r.d.wide then { s with hif := { s.hif with stage := tset s.hif.stage (fnNum fn) (off, v) } } else writeReg fn r v s
  | none =>
    match if off % 8 = 4 then regAt fn (off - 4) s else none with
    | some r =>
      if r.d.wide then
        let lo := lowHalf fn (off - 4) r s
        writeReg fn r (lo + v * 2 ^ 32) { s with hif := { s.hif with stage := terase s.hif.stage (fnNum fn) } }
      else otherWrite fn off v s
    | none => otherWrite fn off v s

/-- A 64-bit write: of a 64-bit register at once, elsewhere of two words, the lower first. -/
def write64 (fn : Fn) (off v : Nat) (s : State) : State :=
  if !reaches fn off then s
  else match regAt fn off s with
  | some r => if r.d.wide then writeReg fn r (v % 2 ^ 64) s else write32 fn (off + 4) (v / 2 ^ 32) (write32 fn off v s)
  | none => write32 fn (off + 4) (v / 2 ^ 32) (write32 fn off v s)

/-- A 32-bit read through the latch of R75. -/
def read32 (fn : Fn) (off : Nat) (s : State) : Nat × State :=
  let k := fnNum fn
  match wideAt fn off s, wideAt fn (off - 4) s with
  | some v, _ => (v % 2 ^ 32, { s with hif := { s.hif with latch := tset s.hif.latch k (off, v / 2 ^ 32) } })
  | none, some v =>
    if off % 8 ≠ 4 then (wordAt fn off s, s)
    else match tfind s.hif.latch k with
      | some (a, h) => if a = off - 4 then (h, { s with hif := { s.hif with latch := terase s.hif.latch k } }) else (v / 2 ^ 32, s)
      | none => (v / 2 ^ 32, s)
  | none, none => (wordAt fn off s, s)

/-- REG64_HALF_READ: a 32-bit read. A read of ETH_PTP_NS latches the seconds (R101), one of AUD_LEG_METER the held peak (R180). -/
def execReg64HalfRead (fn : Fn) (off : Nat) (s : State) : Out :=
  let pf := (regAt fn off s).map (·.pf)
  .next (if pf = some 0x103004 then ran (execPtpNsRead s) s
    else if pf = some 0x200048 then ran (execAudLegMeterRead fn s) s
    else
      let r := read32 fn off s
      { r.2 with hif := { r.2.hif with
        readData := r.1
        latch := if pf = some 0x20004C then terase r.2.hif.latch (64 + fnNum fn) else r.2.hif.latch } })

/-- REG64_HALF_WRITE: a 32-bit write. -/
def execReg64HalfWrite (fn : Fn) (off v : Nat) (s : State) : Out := .next (write32 fn off v s)

/-- REGISTER_WRITE: a write of a register, of 64 bits where `wide`. -/
def execRegisterWrite (fn : Fn) (off : Nat) (wide : Bool) (v : Nat) (s : State) : Out :=
  .next (if wide then write64 fn off v s else write32 fn off v s)

end Sys2Proof.Machine
end

