-- ==== Sys2Proof/Machine/Block.lean ====
section
/-! DEFINITION. BLOCK_START (R25 to R27, R64): what happens at a block boundary, in order. -/
namespace Sys2Proof.Machine

/-- The stamp of the block that begins: the first one's after boot (R100), else the next. -/
def nextStamp (s : State) : Nat := if phase s = phPorts then firstStamp s else stampAdd s.clk.stamp 1

/-- The block that ends (R460, R470, R471): replayed ingress of it injected, captures of it written; then the audio of the block before
closed in it. -/
def blockEnds (b : Nat) (s : State) : State := allFns.foldl (fun s fn => capBoundary b fn s) (repFeed b s)

/-- The block clock moved to block `b` (R7, R8, R101); no leg's block is degraded yet (R5). -/
def clockTo (b : Nat) (s : State) : State :=
  let s := if s.clk.running then ptpAdvance s else s
  ptpSync { s with
    clk := { s.clk with
      stamp := b % 2 ^ 48
      offset := 0
      running := true }
    ctl := { s.ctl with legs := tmap s.ctl.legs fun _ l => if l.degraded then { l with degraded := false } else l } }

/-- Whether a function's SQ waits only for what R79 lacks. -/
def intakeStalled (fn : Fn) (s : State) : Bool :=
  fon (R.CMD_CTRL_enable fn) s && !fon (R.CMD_STATUS_sq_halted fn) s && s.mem.linkUp &&
    decide (fget (R.CMD_SQ_HEAD_head fn) s ≠ fget (R.CMD_SQ_TAIL_tail fn) s) && !intakeOpen fn s

/-- The stalls of a block's intakes counted (R79). -/
def stallsCount (s : State) : State := allFns.foldl (fun s fn => if intakeStalled fn s then cinc (cmdBase fn + 0x50) s else s) s

/-- Block b − 1 closed in block `b`: stalls of intake, TDM and the decoded samples of its legs, which belong to block b − 1; the counters as they then
stand, which the host sees from now on (R460); then the mixes, encodes and the cascade's exchange, which are block b's (R27, R155, R451). -/
def blockClose (b : Nat) (s : State) : State :=
  let r := audHear (stampSub b 1) (tdmBlocks b (stallsCount s))
  let s := { r.2 with cntSh := r.2.cnt }
  audioDueEnd b (audioSend (stampSub b 1) (audMix (stampSub b 1) r.1 s))

/-- What the query registers show from now on (R180): the last block whose barriers have closed. The open counters have counted one block
more, from the first since reset under a free number of their own. -/
def blockShow (s : State) : State :=
  let f := if s.shown.blocks = 0 then takeFree s else (s.shown.draw, s)
  { f.2 with shown := ⟨s.ctl, s.aud, s.egr, s.fwd, s.vid, f.1, s.shown.blocks + 1⟩ }

/-- Re-homing at the boundary (R64 step 1): Bays' own changes, legs and sessions without a place tried again. -/
def blockRehome (b : Nat) (s : State) : State := sessRetry (unplacedRetry (bayBoundary b s))

/-- Structure at the boundary (R64 steps 2 to 4): deltas and rollbacks, self-tests, firmware, cascade membership. -/
def blockStructure (b : Nat) (s : State) : State :=
  leaveBoundary b (joinBoundary b (fwBoundary b (testBoundary b (frmBoundary b s))))

/-- A function's staged changes, then its commands, PF and Rings ascending (R64 step 5, R81, R190). -/
def blockCommands (b : Nat) (s : State) : State :=
  allFns.foldl (fun s fn =>
    let s := fwdApply fn b (srcChange fn b s)
    let s := if fn = .pf then casApply b s else s
    configBoundary b fn s) s

/-- Work moved between pictures, fallbacks that end. -/
def blockTurns (b : Nat) (s : State) : State := encTurn (decTurn (fallBoundary b s))

/-- Buckets, releases and items of the new block (R109, R114, R236, R357). -/
def blockReleases (b : Nat) (items : List ItemDesc) (s : State) : State :=
  crslBlock b items (shaperRefill (videoSend b (videoDue b (releaseAll b (refillAll s)))))

/-- The block's own work: sessions, degraded pictures shown, forwarding, selection, what other members' streams are wanted for (R27, R156, R309, R455). -/
def blockWork (b : Nat) (s : State) : State := wantsBlock b (audBlock b (fwdBlock b (shownBlock b (sessBlock b s))))

/-- The units' own boundary work (R349, R374, R378, R390, R411). -/
def blockUnits (b : Nat) (s : State) : State :=
  let s := dmaBoundary (ddrBoundary b (dpSync (canvasResume (coverageCheck s))))
  { s with flt := { s.flt with rollsBlock := 0 } }

/-- A block boundary. A mailbox request in progress has been carried out by then (R93; log entry 137). -/
def blockBegin (b : Nat) (items : List ItemDesc) (s : State) : State :=
  let s := mbxRun s
  let first := decide (phase s = phPorts)
  let s := clockTo b (if first then s else blockEnds b s)
  let s := if first then firstBlock { s with cntSh := s.cnt } else drainsEnd (blockClose b s)
  let s := allFns.foldl (fun s fn => repBoundary b fn s) (clockBoundary (blockShow s))
  let s := blockCommands b (blockStructure b (blockRehome b s))
  blockUnits b (blockWork b (blockReleases b items (blockTurns b s)))

/-- BLOCK_START: while the part runs, or to begin its first block. `items` are the first-stage items whose release stamp is this block. -/
def execBlockStart (items : List ItemDesc) (s : State) : Out :=
  let s := if phase s = phPorts then firstAlign s else s
  .next (if phase s = phPorts || phase s = phRun then blockBegin (nextStamp s) items s else s)

end Sys2Proof.Machine
end

