-- ==== Sys2Proof/Machine/Dispatch.lean ====
section
/-! DEFINITION. The meaning of every command: one arm per constructor of Instr. -/
namespace Sys2Proof.Machine

def exec (i : Instr) (s : State) : Host.Outcome State Fault Refusal :=
  match i with
  | .blockStart items => Sys2Proof.Machine.execBlockStart items s
  | .telemetrySnapshot fn => Sys2Proof.Machine.execTelemetrySnapshot fn s
  | .rtcpReportSend leg => Sys2Proof.Machine.execRtcpReportSend leg s
  | .stampFloorWrite => Sys2Proof.Machine.execStampFloorWrite s
  | .ddrRetrainPause ch ns => Sys2Proof.Machine.execDdrRetrainPause ch ns s
  | .ptpPps => Sys2Proof.Machine.execPtpPps s
  | .commandFetch fn => Sys2Proof.Machine.execCommandFetch fn s
  | .nop c => Sys2Proof.Machine.execNop c s
  | .identify c => Sys2Proof.Machine.execIdentify c s
  | .ringStatus c => Sys2Proof.Machine.execRingStatus c s
  | .lopQuery c => Sys2Proof.Machine.execLopQuery c s
  | .lopSuspend c => Sys2Proof.Machine.execLopSuspend c s
  | .lopResume c => Sys2Proof.Machine.execLopResume c s
  | .lopCancel c => Sys2Proof.Machine.execLopCancel c s
  | .framingLoad c => Sys2Proof.Machine.execFramingLoad c s
  | .framingDelta c => Sys2Proof.Machine.execFramingDelta c s
  | .framingRollback c => Sys2Proof.Machine.execFramingRollback c s
  | .framingDequeue fn tag => Sys2Proof.Machine.execFramingDequeue fn tag s
  | .framingFetchChunk fn tag => Sys2Proof.Machine.execFramingFetchChunk fn tag s
  | .framingSignDone fn tag => Sys2Proof.Machine.execFramingSignDone fn tag s
  | .framingPass1Timber fn tag => Sys2Proof.Machine.execFramingPass1Timber fn tag s
  | .framingPass2Timber fn tag => Sys2Proof.Machine.execFramingPass2Timber fn tag s
  | .framingCheckDone fn tag => Sys2Proof.Machine.execFramingCheckDone fn tag s
  | .actAdmit c => Sys2Proof.Machine.execActAdmit c s
  | .actRelease c => Sys2Proof.Machine.execActRelease c s
  | .legAdmit c => Sys2Proof.Machine.execLegAdmit c s
  | .legStart c => Sys2Proof.Machine.execLegStart c s
  | .legRoute c => Sys2Proof.Machine.execLegRoute c s
  | .legRelease c => Sys2Proof.Machine.execLegRelease c s
  | .legDrainEnd leg => Sys2Proof.Machine.execLegDrainEnd leg s
  | .streamAdmit c => Sys2Proof.Machine.execStreamAdmit c s
  | .streamRelease c => Sys2Proof.Machine.execStreamRelease c s
  | .keyBind c => Sys2Proof.Machine.execKeyBind c s
  | .rekeyGraceEnd stream => Sys2Proof.Machine.execRekeyGraceEnd stream s
  | .canvasAdmit c => Sys2Proof.Machine.execCanvasAdmit c s
  | .canvasRelease c => Sys2Proof.Machine.execCanvasRelease c s
  | .encodeAdmit c => Sys2Proof.Machine.execEncodeAdmit c s
  | .encodeRelease c => Sys2Proof.Machine.execEncodeRelease c s
  | .audSafeLoad c => Sys2Proof.Machine.execAudSafeLoad c s
  | .layoutSet c => Sys2Proof.Machine.execLayoutSet c s
  | .keypicRequest c => Sys2Proof.Machine.execKeypicRequest c s
  | .shaperSet c => Sys2Proof.Machine.execShaperSet c s
  | .rewindMark c => Sys2Proof.Machine.execRewindMark c s
  | .rewindExport c => Sys2Proof.Machine.execRewindExport c s
  | .rewindExportChunk fn tag => Sys2Proof.Machine.execRewindExportChunk fn tag s
  | .capture c => Sys2Proof.Machine.execCapture c s
  | .replay c => Sys2Proof.Machine.execReplay c s
  | .telemetrySet c => Sys2Proof.Machine.execTelemetrySet c s
  | .keyZeroise c => Sys2Proof.Machine.execKeyZeroise c s
  | .zeroiseAck => Sys2Proof.Machine.execZeroiseAck s
  | .bayQuarantine c => Sys2Proof.Machine.execBayQuarantine c s
  | .bayWarmReset c => Sys2Proof.Machine.execBayWarmReset c s
  | .baySelftest c => Sys2Proof.Machine.execBaySelftest c s
  | .bayReturn c => Sys2Proof.Machine.execBayReturn c s
  | .bayDrainComplete bay => Sys2Proof.Machine.execBayDrainComplete bay s
  | .selftestSegmentDone bay seg failed => Sys2Proof.Machine.execSelftestSegmentDone bay seg failed s
  | .tileFwSwap c => Sys2Proof.Machine.execTileFwSwap c s
  | .fwSwapPhaseDone fn tag ok => Sys2Proof.Machine.execFwSwapPhaseDone fn tag ok s
  | .cascadeJoin c => Sys2Proof.Machine.execCascadeJoin c s
  | .cascadeLeave c => Sys2Proof.Machine.execCascadeLeave c s
  | .faultlogRead c => Sys2Proof.Machine.execFaultlogRead c s
  | .mbxIdentity p seq pec => Sys2Proof.Machine.execMbxIdentity p seq pec s
  | .mbxStatus p seq pec => Sys2Proof.Machine.execMbxStatus p seq pec s
  | .mbxFaultlogRead p seq pec index => Sys2Proof.Machine.execMbxFaultlogRead p seq pec index s
  | .mbxKeyZeroise p seq pec ringArg => Sys2Proof.Machine.execMbxKeyZeroise p seq pec ringArg s
  | .mbxBayQuarantine p seq pec bay => Sys2Proof.Machine.execMbxBayQuarantine p seq pec bay s
  | .mbxBayWarmReset p seq pec bay => Sys2Proof.Machine.execMbxBayWarmReset p seq pec bay s
  | .wdtKick p seq pec => Sys2Proof.Machine.execWdtKick p seq pec s
  | .smbusResponseRead => Sys2Proof.Machine.execSmbusResponseRead s
  | .smbusBusRecovery => Sys2Proof.Machine.execSmbusBusRecovery s
  | .cmdSqTailWrite fn v => Sys2Proof.Machine.execCmdSqTailWrite fn v s
  | .cmdCqHeadWrite fn v => Sys2Proof.Machine.execCmdCqHeadWrite fn v s
  | .cmdResultAck fn v => Sys2Proof.Machine.execCmdResultAck fn v s
  | .cmdEnable fn v => Sys2Proof.Machine.execCmdEnable fn v s
  | .sqHaltedClear fn => Sys2Proof.Machine.execSqHaltedClear fn s
  | .cqHaltedClear fn => Sys2Proof.Machine.execCqHaltedClear fn s
  | .intEvqHeadWrite fn q v => Sys2Proof.Machine.execIntEvqHeadWrite fn q v s
  | .eventDeliver fn q pick => Sys2Proof.Machine.execEventDeliver fn q pick s
  | .reg64HalfRead fn off => Sys2Proof.Machine.execReg64HalfRead fn off s
  | .reg64HalfWrite fn off v => Sys2Proof.Machine.execReg64HalfWrite fn off v s
  | .registerWrite fn off wide v => Sys2Proof.Machine.execRegisterWrite fn off wide v s
  | .functionLevelReset fn => Sys2Proof.Machine.execFunctionLevelReset fn s
  | .pcieLinkDown => Sys2Proof.Machine.execPcieLinkDown s
  | .frameReceive link frame fcsOk sec ns eng => Sys2Proof.Machine.execFrameReceive link frame fcsOk sec ns eng s
  | .cipherVerdict hold => Sys2Proof.Machine.execCipherVerdict hold s
  | .videoFrameTimeout stream seq => Sys2Proof.Machine.execVideoFrameTimeout stream seq s
  | .bufferResizeEffect kind id => Sys2Proof.Machine.execBufferResizeEffect kind id s
  | .ingJrResize v => Sys2Proof.Machine.execIngJrResize v s
  | .ingExcHeadWrite fn v => Sys2Proof.Machine.execIngExcHeadWrite fn v s
  | .ethLinkEnable link => Sys2Proof.Machine.execEthLinkEnable link s
  | .ethLinkDisable link => Sys2Proof.Machine.execEthLinkDisable link s
  | .linkSignalDetect link => Sys2Proof.Machine.execLinkSignalDetect link s
  | .linkAcquireTimeout link => Sys2Proof.Machine.execLinkAcquireTimeout link s
  | .linkTrainDone link => Sys2Proof.Machine.execLinkTrainDone link s
  | .linkTrainTimeout link => Sys2Proof.Machine.execLinkTrainTimeout link s
  | .linkLock link polInv reversed => Sys2Proof.Machine.execLinkLock link polInv reversed s
  | .linkLockTimeout link => Sys2Proof.Machine.execLinkLockTimeout link s
  | .fecCodewordLock link => Sys2Proof.Machine.execFecCodewordLock link s
  | .linkFault link cause => Sys2Proof.Machine.execLinkFault link cause s
  | .linkDegradeDetect link n => Sys2Proof.Machine.execLinkDegradeDetect link n s
  | .ptpTimeSet v => Sys2Proof.Machine.execPtpTimeSet v s
  | .ptpNsRead => Sys2Proof.Machine.execPtpNsRead s
  | .ptpStep v => Sys2Proof.Machine.execPtpStep v s
  | .keyLoad fn => Sys2Proof.Machine.execKeyLoad fn s
  | .keyErase fn => Sys2Proof.Machine.execKeyErase fn s
  | .keyAbort fn => Sys2Proof.Machine.execKeyAbort fn s
  | .keyLoadDataWrite fn n v => Sys2Proof.Machine.execKeyLoadDataWrite fn n v s
  | .keyOpComplete => Sys2Proof.Machine.execKeyOpComplete s
  | .keySlotError slot => Sys2Proof.Machine.execKeySlotError slot s
  | .scaCfgWrite v => Sys2Proof.Machine.execScaCfgWrite v s
  | .entropyHealthFail => Sys2Proof.Machine.execEntropyHealthFail s
  | .srcSelectFilter fn => Sys2Proof.Machine.execSrcSelectFilter fn s
  | .srcBindSlot fn => Sys2Proof.Machine.execSrcBindSlot fn s
  | .srcUnbindSlot fn => Sys2Proof.Machine.execSrcUnbindSlot fn s
  | .srcBankCoefWrite v => Sys2Proof.Machine.execSrcBankCoefWrite v s
  | .srcBankCommit => Sys2Proof.Machine.execSrcBankCommit s
  | .srcBankAbort => Sys2Proof.Machine.execSrcBankAbort s
  | .srcBankClear => Sys2Proof.Machine.execSrcBankClear s
  | .tdmFrame port slots => Sys2Proof.Machine.execTdmFrame port slots s
  | .tdmClockLoss port => Sys2Proof.Machine.execTdmClockLoss port s
  | .tdmDmaRequest port tx => Sys2Proof.Machine.execTdmDmaRequest port tx s
  | .periphWithdraw port tx consumed => Sys2Proof.Machine.execPeriphWithdraw port tx consumed s
  | .tdmPinShort port pin high => Sys2Proof.Machine.execTdmPinShort port pin high s
  | .tdmPinTest port pin up down => Sys2Proof.Machine.execTdmPinTest port pin up down s
  | .tdmPinRetest port pin pass => Sys2Proof.Machine.execTdmPinRetest port pin pass s
  | .tdmAutoSwap port => Sys2Proof.Machine.execTdmAutoSwap port s
  | .tdmDupTakeover port => Sys2Proof.Machine.execTdmDupTakeover port s
  | .debugEnable core v => Sys2Proof.Machine.execDebugEnable core v s
  | .debugHaltRequest core => Sys2Proof.Machine.execDebugHaltRequest core s
  | .debugStep core => Sys2Proof.Machine.execDebugStep core s
  | .debugResume core => Sys2Proof.Machine.execDebugResume core s
  | .debugInterrupt core => Sys2Proof.Machine.execDebugInterrupt core s
  | .coreHwFault core cause => Sys2Proof.Machine.execCoreHwFault core cause s
  | .tmbNop core => Sys2Proof.Machine.execTmbNop core s
  | .tmbAdd core sat d a b => Sys2Proof.Machine.execTmbAdd core sat d a b s
  | .tmbSub core sat d a b => Sys2Proof.Machine.execTmbSub core sat d a b s
  | .tmbAnd core d a b => Sys2Proof.Machine.execTmbAnd core d a b s
  | .tmbOr core d a b => Sys2Proof.Machine.execTmbOr core d a b s
  | .tmbXor core d a b => Sys2Proof.Machine.execTmbXor core d a b s
  | .tmbShl core sat d a sh => Sys2Proof.Machine.execTmbShl core sat d a sh s
  | .tmbShr core d a sh => Sys2Proof.Machine.execTmbShr core d a sh s
  | .tmbShrl core d a sh => Sys2Proof.Machine.execTmbShrl core d a sh s
  | .tmbShlv core sat d a b => Sys2Proof.Machine.execTmbShlv core sat d a b s
  | .tmbShrv core d a b => Sys2Proof.Machine.execTmbShrv core d a b s
  | .tmbMin core d a b => Sys2Proof.Machine.execTmbMin core d a b s
  | .tmbMax core d a b => Sys2Proof.Machine.execTmbMax core d a b s
  | .tmbAbs core sat d a => Sys2Proof.Machine.execTmbAbs core sat d a s
  | .tmbNeg core sat d a => Sys2Proof.Machine.execTmbNeg core sat d a s
  | .tmbMullo core sat d a b => Sys2Proof.Machine.execTmbMullo core sat d a b s
  | .tmbClz core d a => Sys2Proof.Machine.execTmbClz core d a s
  | .tmbSext16 core d a => Sys2Proof.Machine.execTmbSext16 core d a s
  | .tmbPack core d a b => Sys2Proof.Machine.execTmbPack core d a b s
  | .tmbCmplt core d a b => Sys2Proof.Machine.execTmbCmplt core d a b s
  | .tmbCmpeq core d a b => Sys2Proof.Machine.execTmbCmpeq core d a b s
  | .tmbCmpltu core d a b => Sys2Proof.Machine.execTmbCmpltu core d a b s
  | .tmbRda core sat d acc rnd sh => Sys2Proof.Machine.execTmbRda core sat d acc rnd sh s
  | .tmbRdah core d acc => Sys2Proof.Machine.execTmbRdah core d acc s
  | .tmbWra core sat acc a sh => Sys2Proof.Machine.execTmbWra core sat acc a sh s
  | .tmbAdda core sat acc a sh => Sys2Proof.Machine.execTmbAdda core sat acc a sh s
  | .tmbSuba core sat acc a sh => Sys2Proof.Machine.execTmbSuba core sat acc a sh s
  | .tmbClra core acc => Sys2Proof.Machine.execTmbClra core acc s
  | .tmbSat24 core d a => Sys2Proof.Machine.execTmbSat24 core d a s
  | .tmbAddi core sat d src imm => Sys2Proof.Machine.execTmbAddi core sat d src imm s
  | .tmbAndi core d src imm => Sys2Proof.Machine.execTmbAndi core d src imm s
  | .tmbOri core d src imm => Sys2Proof.Machine.execTmbOri core d src imm s
  | .tmbXori core d src imm => Sys2Proof.Machine.execTmbXori core d src imm s
  | .tmbMovi core d imm => Sys2Proof.Machine.execTmbMovi core d imm s
  | .tmbMovhi core d imm => Sys2Proof.Machine.execTmbMovhi core d imm s
  | .tmbCmplti core d src imm => Sys2Proof.Machine.execTmbCmplti core d src imm s
  | .tmbCmpeqi core d src imm => Sys2Proof.Machine.execTmbCmpeqi core d src imm s
  | .tmbLdw core d y post p imm => Sys2Proof.Machine.execTmbLdw core d y post p imm s
  | .tmbLdh core d y post p imm => Sys2Proof.Machine.execTmbLdh core d y post p imm s
  | .tmbLdhu core d y post p imm => Sys2Proof.Machine.execTmbLdhu core d y post p imm s
  | .tmbStw core d y post p imm => Sys2Proof.Machine.execTmbStw core d y post p imm s
  | .tmbSth core d y post p imm => Sys2Proof.Machine.execTmbSth core d y post p imm s
  | .tmbBeqz core r imm => Sys2Proof.Machine.execTmbBeqz core r imm s
  | .tmbBnez core r imm => Sys2Proof.Machine.execTmbBnez core r imm s
  | .tmbBltz core r imm => Sys2Proof.Machine.execTmbBltz core r imm s
  | .tmbBgez core r imm => Sys2Proof.Machine.execTmbBgez core r imm s
  | .tmbBr core imm => Sys2Proof.Machine.execTmbBr core imm s
  | .tmbBlc core imm => Sys2Proof.Machine.execTmbBlc core imm s
  | .tmbCall core imm => Sys2Proof.Machine.execTmbCall core imm s
  | .tmbRet core => Sys2Proof.Machine.execTmbRet core s
  | .tmbMtc core creg reg => Sys2Proof.Machine.execTmbMtc core creg reg s
  | .tmbMfc core creg reg => Sys2Proof.Machine.execTmbMfc core creg reg s
  | .tmbXrd core p => Sys2Proof.Machine.execTmbXrd core p s
  | .tmbXwr core p => Sys2Proof.Machine.execTmbXwr core p s
  | .transferComplete core n => Sys2Proof.Machine.execTransferComplete core n s
  | .tmbWaitx core n => Sys2Proof.Machine.execTmbWaitx core n s
  | .tmbEnd core => Sys2Proof.Machine.execTmbEnd core s
  | .tmbReti core => Sys2Proof.Machine.execTmbReti core s
  | .tmbBkpt core code => Sys2Proof.Machine.execTmbBkpt core code s
  | .tmbFault core code => Sys2Proof.Machine.execTmbFault core code s
  | .tmbMac core acc sat a b xd xp xm yd yp ym => Sys2Proof.Machine.execTmbMac core acc sat a b xd xp xm yd yp ym s
  | .tmbMsu core acc sat a b xd xp xm yd yp ym => Sys2Proof.Machine.execTmbMsu core acc sat a b xd xp xm yd yp ym s
  | .tmbMpy core acc sat a b xd xp xm yd yp ym => Sys2Proof.Machine.execTmbMpy core acc sat a b xd xp xm yd yp ym s
  | .tmbLdp core xd xp xm yd yp ym => Sys2Proof.Machine.execTmbLdp core xd xp xm yd yp ym s
  | .corePrefetch core pick => Sys2Proof.Machine.execCorePrefetch core pick s
  | .itemHandleRetry => Sys2Proof.Machine.execItemHandleRetry s
  | .deadlineMiss handle => Sys2Proof.Machine.execDeadlineMiss handle s
  | .itemHung core => Sys2Proof.Machine.execItemHung core s
  | .barrierClose barrier items => Sys2Proof.Machine.execBarrierClose barrier items s
  | .shadowCompare handle => Sys2Proof.Machine.execShadowCompare handle s
  | .shadowAbandon handle => Sys2Proof.Machine.execShadowAbandon handle s
  | .queueSpillRepush cl => Sys2Proof.Machine.execQueueSpillRepush cl s
  | .queueEccRescan q pick => Sys2Proof.Machine.execQueueEccRescan q pick s
  | .decodePictureStart tile p => Sys2Proof.Machine.execDecodePictureStart tile p s
  | .decodePictureComplete tile => Sys2Proof.Machine.execDecodePictureComplete tile s
  | .decodePictureMissed stream p => Sys2Proof.Machine.execDecodePictureMissed stream p s
  | .tileHwFault tile => Sys2Proof.Machine.execTileHwFault tile s
  | .encodePictureStart tile => Sys2Proof.Machine.execEncodePictureStart tile s
  | .encodePictureComplete tile o => Sys2Proof.Machine.execEncodePictureComplete tile o s
  | .repeatPicture enc bytes => Sys2Proof.Machine.execRepeatPicture enc bytes s
  | .canvasTick canvas => Sys2Proof.Machine.execCanvasTick canvas s
  | .compositionComplete comp crcs => Sys2Proof.Machine.execCompositionComplete comp crcs s
  | .compositionMissed canvas => Sys2Proof.Machine.execCompositionMissed canvas s
  | .dpFrameStart => Sys2Proof.Machine.execDpFrameStart s
  | .dpCtrlWrite v => Sys2Proof.Machine.execDpCtrlWrite v s
  | .dpHpdHigh caps => Sys2Proof.Machine.execDpHpdHigh caps s
  | .dpTrainPass polInv => Sys2Proof.Machine.execDpTrainPass polInv s
  | .dpTrainStepFail => Sys2Proof.Machine.execDpTrainStepFail s
  | .dpRetryTimer => Sys2Proof.Machine.execDpRetryTimer s
  | .dpHpdIrq => Sys2Proof.Machine.execDpHpdIrq s
  | .dpHpdLow => Sys2Proof.Machine.execDpHpdLow s
  | .receiverNack leg => Sys2Proof.Machine.execReceiverNack leg s
  | .upstreamNack stream => Sys2Proof.Machine.execUpstreamNack stream s
  | .firEscalation leg => Sys2Proof.Machine.execFirEscalation leg s
  | .fallbackOpenRetry leg => Sys2Proof.Machine.execFallbackOpenRetry leg s
  | .fwdSubscribe fn => Sys2Proof.Machine.execFwdSubscribe fn s
  | .fwdUnsubscribe fn => Sys2Proof.Machine.execFwdUnsubscribe fn s
  | .fwdSetLegCap fn => Sys2Proof.Machine.execFwdSetLegCap fn s
  | .fwdRwResize fn v => Sys2Proof.Machine.execFwdRwResize fn v s
  | .transmitWindow link => Sys2Proof.Machine.execTransmitWindow link s
  | .htxFrameSubmit fn v => Sys2Proof.Machine.execHtxFrameSubmit fn v s
  | .schedulerTakeover link => Sys2Proof.Machine.execSchedulerTakeover link s
  | .ddrEccCorrected ch sub dev row => Sys2Proof.Machine.execDdrEccCorrected ch sub dev row s
  | .ddrEccUncorrectable ch line both jr rw => Sys2Proof.Machine.execDdrEccUncorrectable ch line both jr rw s
  | .ddrCaParityAlert ch same => Sys2Proof.Machine.execDdrCaParityAlert ch same s
  | .ddrChannelLoss ch cause jr rw => Sys2Proof.Machine.execDdrChannelLoss ch cause jr rw s
  | .ledgerEcc addr copy => Sys2Proof.Machine.execLedgerEcc addr copy s
  | .dmaChAdd fn c v => Sys2Proof.Machine.execDmaChAdd fn c v s
  | .dmaDescriptorComplete c => Sys2Proof.Machine.execDmaDescriptorComplete c s
  | .dmaFenceComplete c => Sys2Proof.Machine.execDmaFenceComplete c s
  | .dmaStop c => Sys2Proof.Machine.execDmaStop c s
  | .dmaAbort c done => Sys2Proof.Machine.execDmaAbort c done s
  | .dmaResume c => Sys2Proof.Machine.execDmaResume c s
  | .dmaEnable c on => Sys2Proof.Machine.execDmaEnable c on s
  | .dmaTakeover => Sys2Proof.Machine.execDmaTakeover s
  | .bayHeartbeatMiss bay => Sys2Proof.Machine.execBayHeartbeatMiss bay s
  | .bayLossDeclared bay cause => Sys2Proof.Machine.execBayLossDeclared bay cause s
  | .lockstepMismatch same => Sys2Proof.Machine.execLockstepMismatch same s
  | .rmSelftestDone pass0 pass1 => Sys2Proof.Machine.execRmSelftestDone pass0 pass1 s
  | .casHello payload => Sys2Proof.Machine.execCasHello payload s
  | .casJoinAck payload => Sys2Proof.Machine.execCasJoinAck payload s
  | .casLeave payload => Sys2Proof.Machine.execCasLeave payload s
  | .casAudio payload => Sys2Proof.Machine.execCasAudio payload s
  | .casVideo payload => Sys2Proof.Machine.execCasVideo payload s
  | .casVideoReq payload => Sys2Proof.Machine.execCasVideoReq payload s
  | .helloResend => Sys2Proof.Machine.execHelloResend s
  | .joinTimeout => Sys2Proof.Machine.execJoinTimeout s
  | .memberLoss m => Sys2Proof.Machine.execMemberLoss m s
  | .casMapAct => Sys2Proof.Machine.execCasMapAct s
  | .casUnmapAct => Sys2Proof.Machine.execCasUnmapAct s
  | .casSetSeat => Sys2Proof.Machine.execCasSetSeat s
  | .casRemoteSource => Sys2Proof.Machine.execCasRemoteSource s
  | .casKeyLoad => Sys2Proof.Machine.execCasKeyLoad s
  | .casKeyErase => Sys2Proof.Machine.execCasKeyErase s
  | .casKeyAbort => Sys2Proof.Machine.execCasKeyAbort s
  | .traceEnable => Sys2Proof.Machine.execTraceEnable s
  | .frmSignerRevoke v => Sys2Proof.Machine.execFrmSignerRevoke v s
  | .bootStart => Sys2Proof.Machine.execBootStart s
  | .romSelftestDone pass0 pass1 => Sys2Proof.Machine.execRomSelftestDone pass0 pass1 s
  | .fwVerifyDone => Sys2Proof.Machine.execFwVerifyDone s
  | .ledgerReadDone => Sys2Proof.Machine.execLedgerReadDone s
  | .imageLoadDone => Sys2Proof.Machine.execImageLoadDone s
  | .clocksLocked a b => Sys2Proof.Machine.execClocksLocked a b s
  | .dramTrainDone chans => Sys2Proof.Machine.execDramTrainDone chans s
  | .baysUpDone failed => Sys2Proof.Machine.execBaysUpDone failed s
  | .portsStarted ms => Sys2Proof.Machine.execPortsStarted ms s
  | .stoppedRelease => Sys2Proof.Machine.execStoppedRelease s
  | .supplySag rails => Sys2Proof.Machine.execSupplySag rails s
  | .saveComplete => Sys2Proof.Machine.execSaveComplete s
  | .railWarn rails => Sys2Proof.Machine.execRailWarn rails s
  | .keeperReset => Sys2Proof.Machine.execKeeperReset s
  | .sysReset => Sys2Proof.Machine.execSysReset s
  | .pciePerst => Sys2Proof.Machine.execPciePerst s
  | .thermalWarn sensor temp => Sys2Proof.Machine.execThermalWarn sensor temp s
  | .thermalClear => Sys2Proof.Machine.execThermalClear s
  | .thermalTrip sensor temp => Sys2Proof.Machine.execThermalTrip sensor temp s
  | .refclkLoss ref => Sys2Proof.Machine.execRefclkLoss ref s
  | .refclkRevert good => Sys2Proof.Machine.execRefclkRevert good s
  | .holdupTestPeriodic sense v0 v10 v1000 => Sys2Proof.Machine.execHoldupTestPeriodic sense v0 v10 v1000 s
  | .holdupTestRequest sense v0 v10 v1000 => Sys2Proof.Machine.execHoldupTestRequest sense v0 v10 v1000 s
  | .holdupDisable on => Sys2Proof.Machine.execHoldupDisable on s
  | .holdupSenseTimeout sense => Sys2Proof.Machine.execHoldupSenseTimeout sense s
  | .holdupReverseDetect sense => Sys2Proof.Machine.execHoldupReverseDetect sense s
  | .watchdogExpiry => Sys2Proof.Machine.execWatchdogExpiry s
  | .pwrWdtKick => Sys2Proof.Machine.execPwrWdtKick s
  | .spiErase => Sys2Proof.Machine.execSpiErase s
  | .spiProgram => Sys2Proof.Machine.execSpiProgram s
  | .spiRead => Sys2Proof.Machine.execSpiRead s
  | .spiVerifyFw => Sys2Proof.Machine.execSpiVerifyFw s
  | .spiVerifyImage => Sys2Proof.Machine.execSpiVerifyImage s
  | .spiOpDone err => Sys2Proof.Machine.execSpiOpDone err s
  | .ptpLockChange => Sys2Proof.Machine.execPtpLockChange s
  | .unitFailed bay unit => Sys2Proof.Machine.execUnitFailed bay unit s
  | .pcieLinkUp => Sys2Proof.Machine.execPcieLinkUp s
  | .tdmClockRestored port => Sys2Proof.Machine.execTdmClockRestored port s
  | .videoReqStop stream => Sys2Proof.Machine.execVideoReqStop stream s
  | .audLegMeterRead fn => Sys2Proof.Machine.execAudLegMeterRead fn s

end Sys2Proof.Machine
end

