-- ==== Sys2Proof/Machine/Parts.lean ====
section
/-! DEFINITION. The parts of State, what it means that a command or an operation changes no other part than those named (the terms in which
frames are stated), and the invariant of the machine. -/
namespace Sys2Proof.Machine

/-- The parts of State, one for each of its fields. -/
inductive Part
  | clk | mem | regs | cnt | cntSh | hif | frm | ctl | key | aud | egr | src | fwd | vid | flt | obs | crsl | ddr | ldg | dma | pwr | cas | shown | out | free | pending
  deriving DecidableEq, Repr

/-- Two states hold the same part. -/
def Part.same (p : Part) (s t : State) : Prop :=
  match p with
  | .clk => t.clk = s.clk
  | .mem => t.mem = s.mem
  | .regs => t.regs = s.regs
  | .cnt => t.cnt = s.cnt
  | .cntSh => t.cntSh = s.cntSh
  | .hif => t.hif = s.hif
  | .frm => t.frm = s.frm
  | .ctl => t.ctl = s.ctl
  | .key => t.key = s.key
  | .aud => t.aud = s.aud
  | .egr => t.egr = s.egr
  | .src => t.src = s.src
  | .fwd => t.fwd = s.fwd
  | .vid => t.vid = s.vid
  | .flt => t.flt = s.flt
  | .obs => t.obs = s.obs
  | .crsl => t.crsl = s.crsl
  | .ddr => t.ddr = s.ddr
  | .ldg => t.ldg = s.ldg
  | .dma => t.dma = s.dma
  | .pwr => t.pwr = s.pwr
  | .cas => t.cas = s.cas
  | .shown => t.shown = s.shown
  | .out => t.out = s.out
  | .free => t.free = s.free
  | .pending => t.pending = s.pending

/-- From `s` to `t` no part changes but those of `ps`. -/
structure Changes (ps : List Part) (s t : State) : Prop where
  same : ∀ p, p ∉ ps → p.same s t

/-- The outcome is a next state, and no part changes but those of `ps`. -/
def Answers (ps : List Part) (s : State) (o : Host.Outcome State Fault Refusal) : Prop := ∃ t, o = .next t ∧ Changes ps s t

/-! ## The invariant -/

/-- The memories in canonical form. -/
def memOk (m : Mem) : Prop :=
  Memory.wf m.host = true ∧ Memory.wf m.dram = true ∧ Memory.wf m.ledger = true ∧ Memory.wf m.spi = true

/-- Register keys strictly rising: a register field has one value. -/
def regsOk (t : Tbl Nat) : Prop := tsorted t = true

/-- A counter has one value, below 2^64: counters are 64 bits wide (R460). -/
def cntOk (t : Tbl Nat) : Prop := tsorted t = true ∧ ∀ p ∈ t, p.2 < 2 ^ 64

/-- The block stamp is 48 bits (R7), the offset names one of a block's 24 samples (R8), the latches of R101 are as wide as their registers. -/
def clkOk (c : Clk) : Prop := c.stamp < 2 ^ 48 ∧ c.offset < 24 ∧ c.heldNs < 2 ^ 30 ∧ c.latchSec < 2 ^ 48

/-- The invariant: what holds of every state that commands lead to from reset. -/
structure Sound (s : State) : Prop where
  mem : memOk s.mem
  regs : regsOk s.regs
  cnt : cntOk s.cnt
  shadow : cntOk s.cntSh
  clk : clkOk s.clk

end Sys2Proof.Machine
end

