-- ==== Sys2Proof/Safety.lean ====
section
/-! DEFINITION. What counts as a safe run: a step that ends neither in a fault nor in a refusal. -/
namespace Sys2Proof.Machine

/-- The outcome is a next state. -/
def isNext (o : Host.Outcome State Fault Refusal) : Bool :=
  match o with
  | .next _ => true
  | .fault _ => false
  | .refused _ => false

/-- A step from `s` is safe. -/
def SafeStep (s : State) : Prop := isNext (step s) = true

end Sys2Proof.Machine
end

