-- ==== Sys2Proof/WellFormed.lean ====
section
/-! DEFINITION. Well-formed commands: every operand within the width that the spec gives it (identifiers spec/01_bays_and_rings.md R22,
command entries spec/03_host_commands.md R76, instruction fields spec/08_tumbler_dsp.md R213 to R216, descriptors spec/09_carousel.md
R234).  A command whose operand is out of range has a meaning all the same: what the spec says of such an identifier. -/
namespace Sys2Proof

/-- A function: the PF or the VF of a Ring (R71). -/
def fnOk (fn : Fn) : Bool :=
  match fn with
  | .pf => true
  | .vf r => decide (r < 16)

/-- A place that a register access names: within the function's BAR0, or in its PCIe configuration space from 2^40 up (R71, R73, R74, R94). -/
def offOk (fn : Fn) (off : Nat) : Bool :=
  let bar := match fn with
    | .pf => 2 ^ 26
    | .vf _ => 2 ^ 20
  decide (off < bar) || (decide (2 ^ 40 ≤ off) && decide (off < 2 ^ 40 + 4096))

/-- A path of an always-on request: an SMBus address has 7 bits (R94). -/
def MbxPath.ok (p : MbxPath) : Bool :=
  match p with
  | .config => true
  | .smbus a => decide (a < 128)

/-- A command entry (R76): its fields within their widths, 40 bytes of arguments, the reserved field and the unused bits 0. -/
def cmdOk (c : Cmd) : Bool :=
  fnOk c.fn && decide (c.flags < 2) && decide (c.tag < 2 ^ 32) && decide (c.effectStamp < 2 ^ 48) && decide (c.target < 2 ^ 32)
    && decide (c.reserved = 0) && decide (c.args.length = 40)

/-- A work-item descriptor (R234). -/
def itemOk (d : ItemDesc) : Bool :=
  decide (d.kernel < 256) && decide (d.subject < 16384) && decide (d.stamp < 2 ^ 48) && decide (d.stage < 3)
    && decide (d.ring < 16) && decide (d.barrier < 2 ^ 17) && decide (d.ordinal < 2 ^ 15)
    && decide (d.ptrs.length = 4) && (d.ptrs.all fun p => decide (p < 2 ^ 32)) && decide (d.bay < 4)

/-- A picture's syntax: its layer within a stream's (R300), the four numbers of each rectangle, partitions in an error that names one. -/
def picOk (p : PicSyn) : Bool :=
  decide (p.sid < 8) && decide (p.tid < 8) && decide (p.vis.length = 4) && (p.seqs.all fun q => decide (q.2.vis.length = 4))
    && p.errors.all fun e => decide (e.rect.length = 4) && decide (e.part < e.parts)

/-- A voltage of the capacitor in millivolts, within the keeper's range (R427). -/
def voltOk (v : Int) : Bool := decide (-3600 ≤ v) && decide (v ≤ 3600)

/-- Whether every operand of a command is within its width. -/
def Instr.wf (i : Instr) : Bool :=
  match i with
  | .blockStart items => items.all itemOk
  | .telemetrySnapshot fn => fnOk fn
  | .rtcpReportSend leg => decide (leg < 16384)
  | .stampFloorWrite => true
  | .ddrRetrainPause ch ns => decide (ch < 12) && decide (ns < 2 ^ 30)
  | .ptpPps => true
  | .commandFetch fn => fnOk fn
  | .nop c => cmdOk c
  | .identify c => cmdOk c
  | .ringStatus c => cmdOk c
  | .lopQuery c => cmdOk c
  | .lopSuspend c => cmdOk c
  | .lopResume c => cmdOk c
  | .lopCancel c => cmdOk c
  | .framingLoad c => cmdOk c
  | .framingDelta c => cmdOk c
  | .framingRollback c => cmdOk c
  | .framingDequeue fn tag => fnOk fn && decide (tag < 2 ^ 32)
  | .framingFetchChunk fn tag => fnOk fn && decide (tag < 2 ^ 32)
  | .framingSignDone fn tag => fnOk fn && decide (tag < 2 ^ 32)
  | .framingPass1Timber fn tag => fnOk fn && decide (tag < 2 ^ 32)
  | .framingPass2Timber fn tag => fnOk fn && decide (tag.tag < 2 ^ 32)
  | .framingCheckDone fn tag => fnOk fn && decide (tag < 2 ^ 32)
  | .actAdmit c => cmdOk c
  | .actRelease c => cmdOk c
  | .legAdmit c => cmdOk c
  | .legStart c => cmdOk c
  | .legRoute c => cmdOk c
  | .legRelease c => cmdOk c
  | .legDrainEnd leg => decide (leg < 16384)
  | .streamAdmit c => cmdOk c
  | .streamRelease c => cmdOk c
  | .keyBind c => cmdOk c
  | .rekeyGraceEnd stream => decide (stream < 2 ^ 18)
  | .canvasAdmit c => cmdOk c
  | .canvasRelease c => cmdOk c
  | .encodeAdmit c => cmdOk c
  | .encodeRelease c => cmdOk c
  | .audSafeLoad c => cmdOk c
  | .layoutSet c => cmdOk c
  | .keypicRequest c => cmdOk c
  | .shaperSet c => cmdOk c
  | .rewindMark c => cmdOk c
  | .rewindExport c => cmdOk c
  | .rewindExportChunk fn tag => fnOk fn && decide (tag < 2 ^ 32)
  | .capture c => cmdOk c
  | .replay c => cmdOk c
  | .telemetrySet c => cmdOk c
  | .keyZeroise c => cmdOk c
  | .zeroiseAck => true
  | .bayQuarantine c => cmdOk c
  | .bayWarmReset c => cmdOk c
  | .baySelftest c => cmdOk c
  | .bayReturn c => cmdOk c
  | .bayDrainComplete bay => decide (bay < 4)
  | .selftestSegmentDone bay seg failed => decide (bay < 4) && decide (seg < 8) && (failed.all fun x => decide (x < 65536))
  | .tileFwSwap c => cmdOk c
  | .fwSwapPhaseDone fn tag _ => fnOk fn && decide (tag < 2 ^ 32)
  | .cascadeJoin c => cmdOk c
  | .cascadeLeave c => cmdOk c
  | .faultlogRead c => cmdOk c
  | .mbxIdentity p seq _ => p.ok && decide (seq < 256)
  | .mbxStatus p seq _ => p.ok && decide (seq < 256)
  | .mbxFaultlogRead p seq _ index => p.ok && decide (seq < 256) && decide (index < 2 ^ 32)
  | .mbxKeyZeroise p seq _ ringArg => p.ok && decide (seq < 256) && decide (ringArg < 256)
  | .mbxBayQuarantine p seq _ bay => p.ok && decide (seq < 256) && decide (bay < 256)
  | .mbxBayWarmReset p seq _ bay => p.ok && decide (seq < 256) && decide (bay < 256)
  | .wdtKick p seq _ => p.ok && decide (seq < 256)
  | .smbusResponseRead => true
  | .smbusBusRecovery => true
  | .cmdSqTailWrite fn v => fnOk fn && decide (v < 2 ^ 64)
  | .cmdCqHeadWrite fn v => fnOk fn && decide (v < 2 ^ 64)
  | .cmdResultAck fn v => fnOk fn && decide (v < 2 ^ 64)
  | .cmdEnable fn v => fnOk fn && decide (v < 2 ^ 64)
  | .sqHaltedClear fn => fnOk fn
  | .cqHaltedClear fn => fnOk fn
  | .intEvqHeadWrite fn q v => fnOk fn && decide (q < 17) && decide (v < 2 ^ 64)
  | .eventDeliver fn q _ => fnOk fn && decide (q < 17)
  | .reg64HalfRead fn off => fnOk fn && offOk fn off
  | .reg64HalfWrite fn off v => fnOk fn && offOk fn off && decide (v < 2 ^ 64)
  | .registerWrite fn off _ v => fnOk fn && offOk fn off && decide (v < 2 ^ 64)
  | .functionLevelReset fn => fnOk fn
  | .pcieLinkDown => true
  | .frameReceive link frame _ sec ns eng => decide (link < 8) && decide (frame.length ≤ 16384) && decide (sec < 2 ^ 48) && decide (ns < 2 ^ 30) && decide (eng < 8)
  | .cipherVerdict _ => true
  | .videoFrameTimeout stream seq => decide (stream < 2 ^ 18) && decide (seq < 65536)
  | .bufferResizeEffect _ id => decide (id < 2 ^ 18)
  | .ingJrResize v => decide (v < 2 ^ 64)
  | .ingExcHeadWrite fn v => fnOk fn && decide (v < 2 ^ 64)
  | .ethLinkEnable link => decide (link < 8)
  | .ethLinkDisable link => decide (link < 8)
  | .linkSignalDetect link => decide (link < 8)
  | .linkAcquireTimeout link => decide (link < 8)
  | .linkTrainDone link => decide (link < 8)
  | .linkTrainTimeout link => decide (link < 8)
  | .linkLock link _ _ => decide (link < 8)
  | .linkLockTimeout link => decide (link < 8)
  | .fecCodewordLock link => decide (link < 8)
  | .linkFault link _ => decide (link < 8)
  | .linkDegradeDetect link _ => decide (link < 8)
  | .ptpTimeSet v => decide (v < 2 ^ 64)
  | .ptpNsRead => true
  | .ptpStep v => decide (v < 2 ^ 64)
  | .keyLoad fn => fnOk fn
  | .keyErase fn => fnOk fn
  | .keyAbort fn => fnOk fn
  | .keyLoadDataWrite fn n v => fnOk fn && decide (n < 64) && decide (v < 2 ^ 64)
  | .keyOpComplete => true
  | .keySlotError slot => decide (slot < 65536)
  | .scaCfgWrite v => decide (v < 2 ^ 64)
  | .entropyHealthFail => true
  | .srcSelectFilter fn => fnOk fn
  | .srcBindSlot fn => fnOk fn
  | .srcUnbindSlot fn => fnOk fn
  | .srcBankCoefWrite v => decide (v < 2 ^ 64)
  | .srcBankCommit => true
  | .srcBankAbort => true
  | .srcBankClear => true
  | .tdmFrame port slots => decide (port < 4) && (slots.all fun x => decide (x < 2 ^ 32))
  | .tdmClockLoss port => decide (port < 4)
  | .tdmDmaRequest port _ => decide (port < 4)
  | .periphWithdraw port _ _ => decide (port < 4)
  | .tdmPinShort port _ _ => decide (port < 4)
  | .tdmPinTest port _ _ _ => decide (port < 4)
  | .tdmPinRetest port _ _ => decide (port < 4)
  | .tdmAutoSwap port => decide (port.port < 4)
  | .tdmDupTakeover port => decide (port < 4)
  | .debugEnable core v => decide (core < 544) && decide (v < 2 ^ 64)
  | .debugHaltRequest core => decide (core < 544)
  | .debugStep core => decide (core < 544)
  | .debugResume core => decide (core < 544)
  | .debugInterrupt core => decide (core < 544)
  | .coreHwFault core _ => decide (core < 544)
  | .tmbNop core => decide (core < 544)
  | .tmbAdd core _ d a b => decide (core < 544) && decide (d < 32) && decide (a < 32) && decide (b < 32)
  | .tmbSub core _ d a b => decide (core < 544) && decide (d < 32) && decide (a < 32) && decide (b < 32)
  | .tmbAnd core d a b => decide (core < 544) && decide (d < 32) && decide (a < 32) && decide (b < 32)
  | .tmbOr core d a b => decide (core < 544) && decide (d < 32) && decide (a < 32) && decide (b < 32)
  | .tmbXor core d a b => decide (core < 544) && decide (d < 32) && decide (a < 32) && decide (b < 32)
  | .tmbShl core _ d a sh => decide (core < 544) && decide (d < 32) && decide (a < 32) && decide (sh < 64)
  | .tmbShr core d a sh => decide (core < 544) && decide (d < 32) && decide (a < 32) && decide (sh < 64)
  | .tmbShrl core d a sh => decide (core < 544) && decide (d < 32) && decide (a < 32) && decide (sh < 64)
  | .tmbShlv core _ d a b => decide (core < 544) && decide (d < 32) && decide (a < 32) && decide (b < 32)
  | .tmbShrv core d a b => decide (core < 544) && decide (d < 32) && decide (a < 32) && decide (b < 32)
  | .tmbMin core d a b => decide (core < 544) && decide (d < 32) && decide (a < 32) && decide (b < 32)
  | .tmbMax core d a b => decide (core < 544) && decide (d < 32) && decide (a < 32) && decide (b < 32)
  | .tmbAbs core _ d a => decide (core < 544) && decide (d < 32) && decide (a < 32)
  | .tmbNeg core _ d a => decide (core < 544) && decide (d < 32) && decide (a < 32)
  | .tmbMullo core _ d a b => decide (core < 544) && decide (d < 32) && decide (a < 32) && decide (b < 32)
  | .tmbClz core d a => decide (core < 544) && decide (d < 32) && decide (a < 32)
  | .tmbSext16 core d a => decide (core < 544) && decide (d < 32) && decide (a < 32)
  | .tmbPack core d a b => decide (core < 544) && decide (d < 32) && decide (a < 32) && decide (b < 32)
  | .tmbCmplt core d a b => decide (core < 544) && decide (d < 32) && decide (a < 32) && decide (b < 32)
  | .tmbCmpeq core d a b => decide (core < 544) && decide (d < 32) && decide (a < 32) && decide (b < 32)
  | .tmbCmpltu core d a b => decide (core < 544) && decide (d < 32) && decide (a < 32) && decide (b < 32)
  | .tmbRda core _ d acc _ sh => decide (core < 544) && decide (d < 32) && decide (acc < 32) && decide (sh < 64)
  | .tmbRdah core d acc => decide (core < 544) && decide (d < 32) && decide (acc < 32)
  | .tmbWra core _ acc a sh => decide (core < 544) && decide (acc < 32) && decide (a < 32) && decide (sh < 64)
  | .tmbAdda core _ acc a sh => decide (core < 544) && decide (acc < 32) && decide (a < 32) && decide (sh < 64)
  | .tmbSuba core _ acc a sh => decide (core < 544) && decide (acc < 32) && decide (a < 32) && decide (sh < 64)
  | .tmbClra core acc => decide (core < 544) && decide (acc < 32)
  | .tmbSat24 core d a => decide (core < 544) && decide (d < 32) && decide (a < 32)
  | .tmbAddi core _ d src imm => decide (core < 544) && decide (d < 32) && decide (src < 32) && decide (imm < 2 ^ 14)
  | .tmbAndi core d src imm => decide (core < 544) && decide (d < 32) && decide (src < 32) && decide (imm < 2 ^ 14)
  | .tmbOri core d src imm => decide (core < 544) && decide (d < 32) && decide (src < 32) && decide (imm < 2 ^ 14)
  | .tmbXori core d src imm => decide (core < 544) && decide (d < 32) && decide (src < 32) && decide (imm < 2 ^ 14)
  | .tmbMovi core d imm => decide (core < 544) && decide (d < 32) && decide (imm < 2 ^ 14)
  | .tmbMovhi core d imm => decide (core < 544) && decide (d < 32) && decide (imm < 2 ^ 16)
  | .tmbCmplti core d src imm => decide (core < 544) && decide (d < 32) && decide (src < 32) && decide (imm < 2 ^ 14)
  | .tmbCmpeqi core d src imm => decide (core < 544) && decide (d < 32) && decide (src < 32) && decide (imm < 2 ^ 14)
  | .tmbLdw core d _ _ p imm => decide (core < 544) && decide (d < 32) && decide (p < 8) && decide (imm < 2 ^ 14)
  | .tmbLdh core d _ _ p imm => decide (core < 544) && decide (d < 32) && decide (p < 8) && decide (imm < 2 ^ 14)
  | .tmbLdhu core d _ _ p imm => decide (core < 544) && decide (d < 32) && decide (p < 8) && decide (imm < 2 ^ 14)
  | .tmbStw core d _ _ p imm => decide (core < 544) && decide (d < 32) && decide (p < 8) && decide (imm < 2 ^ 14)
  | .tmbSth core d _ _ p imm => decide (core < 544) && decide (d < 32) && decide (p < 8) && decide (imm < 2 ^ 14)
  | .tmbBeqz core r imm => decide (core < 544) && decide (r < 32) && decide (imm < 2 ^ 14)
  | .tmbBnez core r imm => decide (core < 544) && decide (r < 32) && decide (imm < 2 ^ 14)
  | .tmbBltz core r imm => decide (core < 544) && decide (r < 32) && decide (imm < 2 ^ 14)
  | .tmbBgez core r imm => decide (core < 544) && decide (r < 32) && decide (imm < 2 ^ 14)
  | .tmbBr core imm => decide (core < 544) && decide (imm < 2 ^ 14)
  | .tmbBlc core imm => decide (core < 544) && decide (imm < 2 ^ 14)
  | .tmbCall core imm => decide (core < 544) && decide (imm < 2 ^ 14)
  | .tmbRet core => decide (core < 544)
  | .tmbMtc core creg reg => decide (core < 544) && decide (creg < 64) && decide (reg < 32)
  | .tmbMfc core creg reg => decide (core < 544) && decide (creg < 64) && decide (reg < 32)
  | .tmbXrd core p => decide (core < 544) && decide (p < 8)
  | .tmbXwr core p => decide (core < 544) && decide (p < 8)
  | .transferComplete core _ => decide (core < 544)
  | .tmbWaitx core n => decide (core < 544) && decide (n < 16)
  | .tmbEnd core => decide (core < 544)
  | .tmbReti core => decide (core < 544)
  | .tmbBkpt core code => decide (core < 544) && decide (code < 2 ^ 13)
  | .tmbFault core code => decide (core < 544) && decide (code < 2 ^ 13)
  | .tmbMac core acc _ a b xd xp _ yd yp _ => decide (core < 544) && decide (acc < 2) && decide (a < 32) && decide (b < 32) && decide (xd < 32) && decide (xp < 4) && decide (yd < 32) && decide (yp < 4)
  | .tmbMsu core acc _ a b xd xp _ yd yp _ => decide (core < 544) && decide (acc < 2) && decide (a < 32) && decide (b < 32) && decide (xd < 32) && decide (xp < 4) && decide (yd < 32) && decide (yp < 4)
  | .tmbMpy core acc _ a b xd xp _ yd yp _ => decide (core < 544) && decide (acc < 2) && decide (a < 32) && decide (b < 32) && decide (xd < 32) && decide (xp < 4) && decide (yd < 32) && decide (yp < 4)
  | .tmbLdp core xd xp _ yd yp _ => decide (core < 544) && decide (xd < 32) && decide (xp < 4) && decide (yd < 32) && decide (yp < 4)
  | .corePrefetch core _ => decide (core < 544)
  | .itemHandleRetry => true
  | .deadlineMiss handle => decide (handle < 131072)
  | .itemHung core => decide (core < 544)
  | .barrierClose barrier items => decide (barrier < 2 ^ 17) && items.all itemOk
  | .shadowCompare handle => decide (handle < 131072)
  | .shadowAbandon handle => decide (handle < 131072)
  | .queueSpillRepush cl => decide (cl < 32)
  | .queueEccRescan q _ => decide (q < 64)
  | .decodePictureStart tile p => decide (tile < 68) && picOk p
  | .decodePictureComplete tile => decide (tile < 68)
  | .decodePictureMissed stream p => decide (stream < 2 ^ 18) && picOk p
  | .tileHwFault tile => decide (tile < 68)
  | .encodePictureStart tile => decide (tile < 68)
  | .encodePictureComplete tile _ => decide (tile < 68)
  | .repeatPicture enc _ => decide (enc < 1024)
  | .canvasTick canvas => decide (canvas < 256)
  | .compositionComplete comp _ => decide (comp < 4)
  | .compositionMissed canvas => decide (canvas < 256)
  | .dpFrameStart => true
  | .dpCtrlWrite v => decide (v < 2 ^ 64)
  | .dpHpdHigh _ => true
  | .dpTrainPass _ => true
  | .dpTrainStepFail => true
  | .dpRetryTimer => true
  | .dpHpdIrq => true
  | .dpHpdLow => true
  | .receiverNack leg => decide (leg < 16384)
  | .upstreamNack stream => decide (stream < 2 ^ 18)
  | .firEscalation leg => decide (leg < 16384)
  | .fallbackOpenRetry leg => decide (leg < 16384)
  | .fwdSubscribe fn => fnOk fn
  | .fwdUnsubscribe fn => fnOk fn
  | .fwdSetLegCap fn => fnOk fn
  | .fwdRwResize fn v => fnOk fn && decide (v < 2 ^ 64)
  | .transmitWindow link => decide (link < 8)
  | .htxFrameSubmit fn v => fnOk fn && decide (v < 2 ^ 64)
  | .schedulerTakeover link => decide (link < 8)
  | .ddrEccCorrected ch _ _ _ => decide (ch < 12)
  | .ddrEccUncorrectable ch line _ _ _ => decide (ch < 12) && decide (line < 2 ^ 35)
  | .ddrCaParityAlert ch _ => decide (ch < 12)
  | .ddrChannelLoss ch _ _ _ => decide (ch < 12)
  | .ledgerEcc addr copy => decide (addr < 2 ^ 25) && decide (copy < 2)
  | .dmaChAdd fn c v => fnOk fn && decide (c < 32) && decide (v < 2 ^ 64)
  | .dmaDescriptorComplete c => decide (c < 32)
  | .dmaFenceComplete c => decide (c < 32)
  | .dmaStop c => decide (c < 32)
  | .dmaAbort c _ => decide (c < 32)
  | .dmaResume c => decide (c < 32)
  | .dmaEnable c _ => decide (c < 32)
  | .dmaTakeover => true
  | .bayHeartbeatMiss bay => decide (bay < 4)
  | .bayLossDeclared bay _ => decide (bay < 4)
  | .lockstepMismatch _ => true
  | .rmSelftestDone _ _ => true
  | .casHello payload => decide (payload.length ≤ 16384)
  | .casJoinAck payload => decide (payload.length ≤ 16384)
  | .casLeave payload => decide (payload.length ≤ 16384)
  | .casAudio payload => decide (payload.length ≤ 16384)
  | .casVideo payload => decide (payload.length ≤ 16384)
  | .casVideoReq payload => decide (payload.length ≤ 16384)
  | .helloResend => true
  | .joinTimeout => true
  | .memberLoss m => decide (m < 16)
  | .casMapAct => true
  | .casUnmapAct => true
  | .casSetSeat => true
  | .casRemoteSource => true
  | .casKeyLoad => true
  | .casKeyErase => true
  | .casKeyAbort => true
  | .traceEnable => true
  | .frmSignerRevoke v => decide (v < 2 ^ 64)
  | .bootStart => true
  | .romSelftestDone _ _ => true
  | .fwVerifyDone => true
  | .ledgerReadDone => true
  | .imageLoadDone => true
  | .clocksLocked _ _ => true
  | .dramTrainDone chans => (chans.all fun x => decide (x < 12))
  | .baysUpDone failed => (failed.all fun x => decide (x < 4))
  | .portsStarted _ => true
  | .stoppedRelease => true
  | .supplySag _ => true
  | .saveComplete => true
  | .railWarn _ => true
  | .keeperReset => true
  | .sysReset => true
  | .pciePerst => true
  | .thermalWarn sensor _ => decide (sensor < 8)
  | .thermalClear => true
  | .thermalTrip sensor _ => decide (sensor < 8)
  | .refclkLoss ref => decide (ref < 2)
  | .refclkRevert _ => true
  | .holdupTestPeriodic sense v0 v10 v1000 => voltOk sense && voltOk v0 && voltOk v10 && voltOk v1000
  | .holdupTestRequest sense v0 v10 v1000 => voltOk sense && voltOk v0 && voltOk v10 && voltOk v1000
  | .holdupDisable _ => true
  | .holdupSenseTimeout sense => voltOk sense
  | .holdupReverseDetect sense => voltOk sense
  | .watchdogExpiry => true
  | .pwrWdtKick => true
  | .spiErase => true
  | .spiProgram => true
  | .spiRead => true
  | .spiVerifyFw => true
  | .spiVerifyImage => true
  | .spiOpDone _ => true
  | .ptpLockChange => true
  | .unitFailed bay unit => decide (bay < 4) && decide (unit < 65536)
  | .pcieLinkUp => true
  | .tdmClockRestored port => decide (port < 4)
  | .videoReqStop stream => decide (stream < 2 ^ 18)
  | .audLegMeterRead fn => fnOk fn

end Sys2Proof
end

