-- ==== Sys2Proof/Certificates/Slice0/Obligations.lean ====
section
/-! DEFINITION. The statements for the provers, and the terms they are stated in. -/

/-! ## Tumbler cores (spec/08_tumbler_dsp.md) -/

namespace Sys2Proof.Claims
open Sys2Proof.Machine

/-- Core `c` issues for item `i`: it runs it, has issue slots left, and no debug event stands before or behind the next instruction. -/
def Ready (c : Nat) (i : Item) (s : State) : Prop :=
  issuing c s = some i ∧ (coreGet c s).issued < i.maxCycles ∧
    (coreSt c s = csDebug → breakHit c (coreGet c s) s = false ∧ (coreGet c s).step = false ∧ (coreGet c s).halt = false)

/-- Program memory at the core's pc holds the word of instruction `i`, or, at a pc beyond the kernel's code, no word (R205, R213). -/
def Holds (c : Nat) (i : Instr) (s : State) : Prop := ∀ w, tmbEncode i = some w → (coreGet c s).holds w = .here

/-- The core as the instruction at its next issue slot sees it (R217). -/
def atIssue (c : Nat) (s : State) : Core := (coreGet c s).land

/-- An instruction has issued and left the core as `k`: one more slot used and counted, the program goes on. -/
def issued (c : Nat) (k : Core) (s : State) : State := cinc (coreCnt c 0x48) (corePut c ((coreGet c s).advance none k) s)

/-- The same for a branch: its delay slot is next, then `target`. -/
def branched (c : Nat) (k : Core) (target : Nat) (s : State) : State :=
  cinc (coreCnt c 0x48) (corePut c ((coreGet c s).advance (some target) k) s)

/-- An exact result that no signed number of `w` bits holds. -/
abbrev tooWide (w : Nat) (v : Int) : Prop := v < -(2 ^ (w - 1) : Nat) ∨ ((2 ^ (w - 1) : Nat) : Int) ≤ v

/-- An exact result narrowed to `w` bits: clamped where S is set, wrapped otherwise (R212). -/
def narrowed (w : Nat) (sat : Bool) (v : Int) : BitVec w :=
  if sat = true ∧ v < -(2 ^ (w - 1) : Nat) then BitVec.ofInt w (-(2 ^ (w - 1) : Nat))
  else if sat = true ∧ ((2 ^ (w - 1) : Nat) : Int) ≤ v then BitVec.ofInt w ((2 ^ (w - 1) : Nat) - 1)
  else BitVec.ofInt w v

/-- SR.sv set where a clamp changed the result (R212). -/
def markedSv (w : Nat) (sat : Bool) (v : Int) (k : Core) : Core := if sat = true ∧ tooWide w v then k.sv else k

/-- The exact result `v` narrowed to 32 bits, in Gd for the next instruction. -/
def arith (c d : Nat) (sat : Bool) (v : Int) (s : State) : State :=
  issued c ((markedSv 32 sat v (atIssue c s)).wr d (narrowed 32 sat v)) s

/-- The word `v` in Gd for the next instruction. -/
def plain (c d : Nat) (v : Word32) (s : State) : State := issued c ((atIssue c s).wr d v) s

/-- The exact result `v` narrowed to 40 bits, in accumulator `acc` for every next instruction. -/
def accum (c acc : Nat) (sat : Bool) (v : Int) (s : State) : State :=
  issued c ((markedSv 40 sat v (atIssue c s)).wrAcc acc (narrowed 40 sat v)) s

/-- A signed and an unsigned reading of Gn, its truth values as words. -/
def sgn (c n : Nat) (s : State) : Int := ((atIssue c s).rd n).toInt
def uns (c n : Nat) (s : State) : Nat := ((atIssue c s).rd n).toNat
def asWord (b : Bool) : Word32 := if b then 1 else 0

/-- The effect of both parallel loads of the MAC format on a core `k`, with operands and addresses as `k0` had them (R215). -/
def loaded (xd xp : Nat) (xm : Bool) (yd yp : Nat) (ym : Bool) (k0 k : Core) : Core :=
  let px := if xd = 0 then k else k.postMod xp (if xm then toS 16 (k0.c (8 + xp)) else 2)
  let py := if yd = 0 then px else px.postMod (4 + yp) (if ym then toS 16 (k0.c (12 + yp)) else 2)
  let kx := if xd = 0 then py else py.wrLoad xd (BitVec.ofInt 32 (toS 16 (k0.half false (k0.c xp))))
  if yd = 0 then kx else kx.wrLoad yd (BitVec.ofInt 32 (toS 16 (k0.half true (k0.c (4 + yp)))))

/-- Both slots of a MAC-format instruction may load: no fault, no stall. -/
def SlotsOk (xd xp yd yp : Nat) (k : Core) : Prop :=
  (xd ≠ 0 → accessFault false (k.c xp) 2 k = none ∧ loadStalls false (k.c xp) 2 k = false) ∧
    (yd ≠ 0 → accessFault true (k.c (4 + yp)) 2 k = none ∧ loadStalls true (k.c (4 + yp)) 2 k = false)

end Sys2Proof.Claims

open Sys2Proof Sys2Proof.Machine Sys2Proof.Claims

/-- R214 with R212: the exact result, clamped or wrapped, is written and SR.sv marks a clamp. -/
def Obligations.TumblerArithmetic : Prop :=
  ∀ (c : Nat) (i : Item) (s : State) (sat : Bool) (d a b sh imm : Nat), Ready c i s →
    (Holds c (.tmbAdd c sat d a b) s →
      exec (.tmbAdd c sat d a b) s = .next (arith c d sat (sgn c a s + sgn c b s) s)) ∧
    (Holds c (.tmbSub c sat d a b) s →
      exec (.tmbSub c sat d a b) s = .next (arith c d sat (sgn c a s - sgn c b s) s)) ∧
    (Holds c (.tmbShl c sat d a sh) s →
      exec (.tmbShl c sat d a sh) s = .next (arith c d sat (sgn c a s * (2 ^ sh : Nat)) s)) ∧
    (Holds c (.tmbShlv c sat d a b) s →
      exec (.tmbShlv c sat d a b) s = .next (arith c d sat (sgn c a s * (2 ^ (uns c b s % 32) : Nat)) s)) ∧
    (Holds c (.tmbAbs c sat d a) s →
      exec (.tmbAbs c sat d a) s = .next (arith c d sat (if sgn c a s < 0 then -sgn c a s else sgn c a s) s)) ∧
    (Holds c (.tmbNeg c sat d a) s →
      exec (.tmbNeg c sat d a) s = .next (arith c d sat (-sgn c a s) s)) ∧
    (Holds c (.tmbMullo c sat d a b) s →
      exec (.tmbMullo c sat d a b) s = .next (arith c d sat (sgn c a s * sgn c b s) s)) ∧
    (Holds c (.tmbAddi c sat d a imm) s →
      exec (.tmbAddi c sat d a imm) s = .next (arith c d sat (sgn c a s + imm14 imm) s))

/-- R214: the operations whose result always fits, S having no effect. -/
def Sys2Proof.Claims.TumblerLogic : Prop :=
  ∀ (c : Nat) (i : Item) (s : State) (d a b sh : Nat), Ready c i s →
    (Holds c (.tmbNop c) s →
      exec (.tmbNop c) s = .next (issued c (atIssue c s) s)) ∧
    (Holds c (.tmbAnd c d a b) s →
      exec (.tmbAnd c d a b) s = .next (plain c d ((atIssue c s).rd a &&& (atIssue c s).rd b) s)) ∧
    (Holds c (.tmbOr c d a b) s →
      exec (.tmbOr c d a b) s = .next (plain c d ((atIssue c s).rd a ||| (atIssue c s).rd b) s)) ∧
    (Holds c (.tmbXor c d a b) s →
      exec (.tmbXor c d a b) s = .next (plain c d ((atIssue c s).rd a ^^^ (atIssue c s).rd b) s)) ∧
    (Holds c (.tmbShr c d a sh) s →
      exec (.tmbShr c d a sh) s = .next (plain c d (((atIssue c s).rd a).sshiftRight sh) s)) ∧
    (Holds c (.tmbShrl c d a sh) s →
      exec (.tmbShrl c d a sh) s = .next (plain c d (BitVec.ofNat 32 (uns c a s / 2 ^ sh)) s)) ∧
    (Holds c (.tmbShrv c d a b) s →
      exec (.tmbShrv c d a b) s = .next (plain c d (((atIssue c s).rd a).sshiftRight (uns c b s % 32)) s)) ∧
    (Holds c (.tmbMin c d a b) s →
      exec (.tmbMin c d a b) s = .next (plain c d (BitVec.ofInt 32 (min (sgn c a s) (sgn c b s))) s)) ∧
    (Holds c (.tmbMax c d a b) s →
      exec (.tmbMax c d a b) s = .next (plain c d (BitVec.ofInt 32 (max (sgn c a s) (sgn c b s))) s)) ∧
    (Holds c (.tmbSext16 c d a) s →
      exec (.tmbSext16 c d a) s = .next (plain c d (BitVec.ofInt 32 (toS 16 (uns c a s))) s)) ∧
    (Holds c (.tmbPack c d a b) s →
      exec (.tmbPack c d a b) s = .next (plain c d (BitVec.ofNat 32 (uns c a s % 65536 * 65536 + uns c b s % 65536)) s)) ∧
    (Holds c (.tmbCmplt c d a b) s →
      exec (.tmbCmplt c d a b) s = .next (plain c d (asWord (decide (sgn c a s < sgn c b s))) s)) ∧
    (Holds c (.tmbCmpeq c d a b) s →
      exec (.tmbCmpeq c d a b) s = .next (plain c d (asWord (decide (sgn c a s = sgn c b s))) s)) ∧
    (Holds c (.tmbCmpltu c d a b) s →
      exec (.tmbCmpltu c d a b) s = .next (plain c d (asWord (decide (uns c a s < uns c b s))) s)) ∧
    (∃ n ≤ 32, (n < 32 → 2 ^ (31 - n) ≤ uns c a s) ∧ uns c a s < 2 ^ (32 - n) ∧
      (Holds c (.tmbClz c d a) s →
      exec (.tmbClz c d a) s = .next (plain c d (BitVec.ofNat 32 n) s)))

/-- R214: the immediate format's operations, the immediate sign-extended. -/
def Sys2Proof.Claims.TumblerImmediates : Prop :=
  ∀ (c : Nat) (i : Item) (s : State) (d a imm : Nat), Ready c i s →
    (Holds c (.tmbAndi c d a imm) s →
      exec (.tmbAndi c d a imm) s = .next (plain c d ((atIssue c s).rd a &&& BitVec.ofInt 32 (toS 14 imm)) s)) ∧
    (Holds c (.tmbOri c d a imm) s →
      exec (.tmbOri c d a imm) s = .next (plain c d ((atIssue c s).rd a ||| BitVec.ofInt 32 (toS 14 imm)) s)) ∧
    (Holds c (.tmbXori c d a imm) s →
      exec (.tmbXori c d a imm) s = .next (plain c d ((atIssue c s).rd a ^^^ BitVec.ofInt 32 (toS 14 imm)) s)) ∧
    (Holds c (.tmbMovi c d imm) s →
      exec (.tmbMovi c d imm) s = .next (plain c d (BitVec.ofInt 32 (toS 14 imm)) s)) ∧
    (Holds c (.tmbMovhi c d imm) s →
      exec (.tmbMovhi c d imm) s = .next (plain c d (BitVec.ofNat 32 (imm % 65536 * 65536 + uns c d s % 65536)) s)) ∧
    (Holds c (.tmbCmplti c d a imm) s →
      exec (.tmbCmplti c d a imm) s = .next (plain c d (asWord (decide (sgn c a s < toS 14 imm))) s)) ∧
    (Holds c (.tmbCmpeqi c d a imm) s →
      exec (.tmbCmpeqi c d a imm) s = .next (plain c d (asWord (decide (sgn c a s = toS 14 imm))) s))

/-- R214: the results of the register and immediate forms that are no arithmetic. -/
def Obligations.TumblerLogicResults : Prop := Claims.TumblerLogic ∧ Claims.TumblerImmediates


/-- R212, R214: the accumulators, and SAT24, which always clamps. -/
def Sys2Proof.Claims.TumblerAccumulators : Prop :=
  ∀ (c : Nat) (i : Item) (s : State) (sat rnd : Bool) (d acc a sh : Nat), Ready c i s → acc ≤ 1 →
    (sh ≤ 39 →
      (Holds c (.tmbRda c sat d acc rnd sh) s →
      exec (.tmbRda c sat d acc rnd sh) s = .next (arith c d sat ((((atIssue c s).accRd acc).toInt + if rnd = true ∧ 0 < sh then ((2 ^ (sh - 1) : Nat) : Int) else 0) / (2 ^ sh : Nat)) s))) ∧
    (Holds c (.tmbRdah c d acc) s →
      exec (.tmbRdah c d acc) s = .next (plain c d (BitVec.ofInt 32 (((atIssue c s).accRd acc).toInt / (2 ^ 32 : Nat))) s)) ∧
    (Holds c (.tmbWra c sat acc a sh) s →
      exec (.tmbWra c sat acc a sh) s = .next (accum c acc sat (sgn c a s * (2 ^ sh : Nat)) s)) ∧
    (Holds c (.tmbAdda c sat acc a sh) s →
      exec (.tmbAdda c sat acc a sh) s = .next (accum c acc sat (((atIssue c s).accRd acc).toInt + sgn c a s * (2 ^ sh : Nat)) s)) ∧
    (Holds c (.tmbSuba c sat acc a sh) s →
      exec (.tmbSuba c sat acc a sh) s = .next (accum c acc sat (((atIssue c s).accRd acc).toInt - sgn c a s * (2 ^ sh : Nat)) s)) ∧
    (Holds c (.tmbClra c acc) s →
      exec (.tmbClra c acc) s = .next (issued c ((atIssue c s).wrAcc acc 0) s)) ∧
    (Holds c (.tmbSat24 c d a) s →
      exec (.tmbSat24 c d a) s = .next (issued c ((markedSv 24 true (sgn c a s) (atIssue c s)).wr d
      (BitVec.ofInt 32 (max (-(2 ^ 23 : Nat)) (min ((2 ^ 23 : Nat) - 1) (sgn c a s))))) s))

/-- R208, R214: loads and stores whose address is aligned and in range, where no outstanding transfer holds them up. -/
def Obligations.TumblerMemory : Prop :=
  ∀ (c : Nat) (i : Item) (s : State) (d : Nat) (y post : Bool) (p imm : Nat), Ready c i s →
    let k := atIssue c s
    let a := memAddr post p imm k
    (accessFault y a 4 k = none → loadStalls y a 4 k = false →
      (Holds c (.tmbLdw c d y post p imm) s →
      exec (.tmbLdw c d y post p imm) s = .next (issued c ((memPost post p imm k).wrLoad d (k.word y a)) s))) ∧
    (accessFault y a 2 k = none → loadStalls y a 2 k = false →
      (Holds c (.tmbLdh c d y post p imm) s →
      exec (.tmbLdh c d y post p imm) s = .next (issued c ((memPost post p imm k).wrLoad d (BitVec.ofInt 32 (toS 16 (k.half y a)))) s))) ∧
    (accessFault y a 2 k = none → loadStalls y a 2 k = false →
      (Holds c (.tmbLdhu c d y post p imm) s →
      exec (.tmbLdhu c d y post p imm) s = .next (issued c ((memPost post p imm k).wrLoad d (BitVec.ofNat 32 (k.half y a))) s))) ∧
    (accessFault y a 4 k = none → storeStalls y a 4 k = false →
      (Holds c (.tmbStw c d y post p imm) s →
      exec (.tmbStw c d y post p imm) s = .next (issued c (memPost post p imm (k.wordSet y a (k.rd d))) s))) ∧
    (accessFault y a 2 k = none → storeStalls y a 2 k = false →
      (Holds c (.tmbSth c d y post p imm) s →
      exec (.tmbSth c d y post p imm) s = .next (issued c (memPost post p imm (k.wordSet y a
        (BitVec.ofNat 32 (putBits (k.word y a).toNat (8 * (a % 4)) 16 (k.rd d).toNat)))) s)))

/-- R214, R220: branches with one delay slot, taken or not. -/
def Sys2Proof.Claims.TumblerBranches : Prop :=
  ∀ (c : Nat) (i : Item) (s : State) (r imm : Nat), Ready c i s → (coreGet c s).slot = none →
    let k := atIssue c s
    let taken := (((k.pc : Int) + toS 14 imm) % 4096).toNat
    let fall := (k.pc + 2) % 4096
    (Holds c (.tmbBeqz c r imm) s →
      exec (.tmbBeqz c r imm) s = .next (branched c k (if sgn c r s = 0 then taken else fall) s)) ∧
    (Holds c (.tmbBnez c r imm) s →
      exec (.tmbBnez c r imm) s = .next (branched c k (if sgn c r s = 0 then fall else taken) s)) ∧
    (Holds c (.tmbBltz c r imm) s →
      exec (.tmbBltz c r imm) s = .next (branched c k (if sgn c r s < 0 then taken else fall) s)) ∧
    (Holds c (.tmbBgez c r imm) s →
      exec (.tmbBgez c r imm) s = .next (branched c k (if sgn c r s < 0 then fall else taken) s)) ∧
    (Holds c (.tmbBr c imm) s →
      exec (.tmbBr c imm) s = .next (branched c k taken s)) ∧
    (Holds c (.tmbCall c imm) s →
      exec (.tmbCall c imm) s = .next (branched c ((k.settle (tgCr 0x23)).crSet 0x23 fall) taken s)) ∧
    (Holds c (.tmbRet c) s →
      exec (.tmbRet c) s = .next (branched c k (k.c 0x23 % 4096) s)) ∧
    (Holds c (.tmbBlc c imm) s →
      exec (.tmbBlc c imm) s = .next (branched c
      (((k.crSet 0x21 (if 1 < k.c 0x21 then k.c 0x21 - 1 else 0)).crSet 0x20 ((k.c 0x20 + 15) % 16)).later 2 tgMap ((k.c 0x20 + 15) % 16))
      (if 1 < k.c 0x21 then taken else fall) s))

/-- R214, R216, R217, R221, R224, R228: the control format. -/
def Sys2Proof.Claims.TumblerControl : Prop :=
  ∀ (c : Nat) (i : Item) (s : State), Ready c i s →
    let k := atIssue c s
    (∀ creg reg, cregOk creg = true →
      (Holds c (.tmbMtc c creg reg) s →
      exec (.tmbMtc c creg reg) s = .next (issued c
      (if creg = 0x20 then (k.crSet 0x20 (uns c reg s % 16)).later 3 tgMap (uns c reg s % 16)
       else if creg = 0x21 then k.crSet 0x21 (uns c reg s % 65536)
       else k.later 3 (tgCr creg) (uns c reg s)) s))) ∧
    (∀ creg reg, cregOk creg = true → k.hm = false → (coreGet c s).hm = false →
      (Holds c (.tmbMfc c creg reg) s →
      exec (.tmbMfc c creg reg) s = .next (plain c reg
      (if 0x24 ≤ creg ∧ creg ≤ 0x2A then 0
       else if 8 ≤ creg ∧ creg < 0x10 then BitVec.ofInt 32 (toS 16 (k.c creg))
       else BitVec.ofNat 32 (k.c creg)) s))) ∧
    (∀ p t, loadStalls false (k.c p) 16 k = false → xferAt true p i k = .ok t → k.xfers.length < 8 →
      storeStalls t.ymem t.laddr t.len k = false →
      (Holds c (.tmbXrd c p) s →
      exec (.tmbXrd c p) s = .next (issued c { k.postMod p 16 with xfers := k.xfers ++ [t] } s))) ∧
    (∀ p t, loadStalls false (k.c p) 16 k = false → xferAt false p i k = .ok t → k.xfers.length < 8 →
      loadStalls t.ymem t.laddr t.len k = false →
      (Holds c (.tmbXwr c p) s →
      exec (.tmbXwr c p) s = .next (issued c { k.postMod p 16 with xfers := k.xfers ++ [t] } s))) ∧
    (∀ n, k.xfers.length ≤ n →
      (Holds c (.tmbWaitx c n) s →
      exec (.tmbWaitx c n) s = .next (issued c k s))) ∧
    (k.hm = true →
      (Holds c (.tmbReti c) s →
      exec (.tmbReti c) s = .next (corePut c (coreGet c (issued c k s)).reti (issued c k s)))) ∧
    (∀ code, coreSt c s = csRun →
      (Holds c (.tmbBkpt c code) s →
      exec (.tmbBkpt c code) s = .next (issued c k s))) ∧
    (∀ code, coreSt c s = csDebug → (coreGet c s).slot = none →
      (Holds c (.tmbBkpt c code) s →
      exec (.tmbBkpt c code) s = .next (debugEnter c (issued c k s)))) ∧
    (∀ code, (Holds c (.tmbFault c code) s →
      exec (.tmbFault c code) s = .next (kernelFault c 0x07 (cinc (coreCnt c 0x48) s))))

/-- R214, R216, R217, R220, R221, R224, R228: branches, the loop counter, the control registers. -/
def Obligations.TumblerFlow : Prop := Claims.TumblerBranches ∧ Claims.TumblerControl


/-- R213, R214: where program memory holds a word that is no instruction, or one whose unused fields are not 0, the core faults with ILLEGAL
at it, its issue slot counted; where it holds another instruction than a command's, that command does nothing (log entry 7). -/
def Sys2Proof.Claims.TumblerIllegal : Prop :=
  (∀ (c w v : Nat) (i : Instr) (it : Item) (s : State), Ready c it s → w < 2 ^ 32 → tmbDecode c w = some i →
    (coreGet c s).fetch = some v → v ≠ w → ∃ n : Nat,
      let s' := { s with free := s.free + n }
      (tmbDecode 0 v = none → exec i s = .next (kernelFault c 0x01 (cinc (coreCnt c 0x48) s'))) ∧
      ((tmbDecode 0 v).isSome = true → exec i s = .next s')) ∧
  (∀ (c : Nat) (i : Instr) (it : Item) (s : State), Ready c it s → Holds c i s →
    ((∃ creg reg, cregOk creg = false ∧ (i = .tmbMtc c creg reg ∨ i = .tmbMfc c creg reg)) ∨
      (∃ sat d acc rnd sh, i = .tmbRda c sat d acc rnd sh ∧ (1 < acc ∨ 39 < sh)) ∨
      (∃ acc d, 1 < acc ∧ (i = .tmbRdah c d acc ∨ i = .tmbClra c acc)) ∨
      (∃ sat acc a sh, 1 < acc ∧ (i = .tmbWra c sat acc a sh ∨ i = .tmbAdda c sat acc a sh ∨ i = .tmbSuba c sat acc a sh)) ∨
      (i = .tmbReti c ∧ (atIssue c s).hm = false) ∨
      ((coreGet c s).slot ≠ none ∧ ((∃ r imm, i = .tmbBeqz c r imm ∨ i = .tmbBnez c r imm ∨ i = .tmbBltz c r imm ∨ i = .tmbBgez c r imm) ∨
        (∃ imm, i = .tmbBr c imm ∨ i = .tmbBlc c imm ∨ i = .tmbCall c imm) ∨ i = .tmbRet c))) →
    exec i s = .next (kernelFault c 0x01 (cinc (coreCnt c 0x48) s)))

/-- What the fields of an instruction must hold beside their widths to be an encoding (R214, R216). -/
def Sys2Proof.Claims.Encodable (i : Instr) : Prop :=
  match i with
  | .tmbRda _ _ _ acc _ sh => acc < 2 ∧ sh < 40
  | .tmbRdah _ _ acc => acc < 2
  | .tmbWra _ _ acc _ _ => acc < 2
  | .tmbAdda _ _ acc _ _ => acc < 2
  | .tmbSuba _ _ acc _ _ => acc < 2
  | .tmbClra _ acc => acc < 2
  | .tmbMtc _ creg _ => cregOk creg = true
  | .tmbMfc _ creg _ => cregOk creg = true
  | _ => True

/-- R213 to R216: the word of every instruction, at every value its operands may have, decodes to it; every 32-bit word that decodes is the
word of what it decodes to; and an instruction has a word of 32 bits. -/
def Obligations.TumblerEncoding : Prop :=
  (∀ (i : Instr) (w : Nat), i.wf = true → Encodable i → tmbEncode i = some w → w < 2 ^ 32 ∧ ∃ c, tmbDecode c w = some i) ∧
  (∀ (c w : Nat) (i : Instr), w < 2 ^ 32 → tmbDecode c w = some i → tmbEncode i = some w)

/-- R224, R236: END with G0 = 0 stops issue; where every XWR of the item is committed the item is done, and where none stands behind
it the core's next item may begin. -/
def Sys2Proof.Claims.TumblerEnd : Prop :=
  ∀ (c : Nat) (i : Item) (s : State) (h : Nat), Ready c i s → (atIssue c s).rd 0 = 0 → (coreGet c s).item = some h →
    let s1 := issued c (atIssue c s) s
    let left := (coreGet c s1).xfers.filter fun t => decide (t.handle = h) && !t.read
    let s2 := coreRelease c h s1
    let s3 := corePut c { coreGet c s2 with xfers := (coreGet c s1).xfers.filter fun t => decide (t.handle ≠ h) || !t.read } s2
    let s4 := { s3 with crsl := { s3.crsl with items := tupd s3.crsl.items h fun x => { x with st := .ended c } } }
    (atIssue c s).item = some h →
      (Holds c (.tmbEnd c) s →
      exec (.tmbEnd c) s = .next (coreBoundary c (if left.isEmpty then itemDone c h s4 else s4)))

/-- R21, R207, R221: an outstanding transfer of the running item completes and is outstanding no more: an XRD's bytes, or the image's
initial data, arrive in local memory, an XWR's bytes become the item's writes; an access that the Ring's regions do not admit is counted
and reported, an XRD of it brings zeros, and the item faults at the instruction that asked for it. -/
def Sys2Proof.Claims.TransferCompletes : Prop :=
  ∀ (c n h : Nat) (i : Item) (t : Xfer) (s : State), (coreGet c s).xfers[n]? = some t → (coreGet c s).item = some h → t.handle = h →
    itemFind h s = some i → i.st = .running c →
    let k := { coreGet c s with xfers := (coreGet c s).xfers.eraseIdx n }
    let s1 := corePut c k s
    (t.init = true → exec (.transferComplete c n) s = .next (corePut c (k.fill t.ymem t.laddr t.data) s1)) ∧
    (t.init = false → trussStray i.d.ring t.truss t.len s1 = none → t.read = true → poisoned t.truss t.len s1 = false →
      exec (.transferComplete c n) s = .next (corePut c (k.fill t.ymem t.laddr (dramRead t.truss t.len s)) s1)) ∧
    (t.init = false → trussStray i.d.ring t.truss t.len s1 = none → t.read = false →
      exec (.transferComplete c n) s = .next (itemPut h { i with writes := i.writes ++ [(t.truss, t.data)] } s1)) ∧
    (∀ a, t.init = false → trussStray i.d.ring t.truss t.len s1 = some a →
      let s2 := isolationBlock i.d.ring a (unitCore c) s1
      exec (.transferComplete c n) s = .next (kernelFaultAt c cXferBlocked t.pc
        (if t.read = true then corePut c ((coreGet c s2).fill t.ymem t.laddr (List.replicate t.len 0)) s2 else s2)))

/-- R221, R224, R236: the end of an item, and the end of a transfer. -/
def Obligations.TumblerEnds : Prop := Claims.TumblerEnd ∧ Claims.TransferCompletes


/-- R215: multiply, accumulate, then the parallel loads. -/
def Sys2Proof.Claims.TumblerMac : Prop :=
  ∀ (c : Nat) (i : Item) (s : State) (acc : Nat) (sat : Bool) (a b xd xp : Nat) (xm : Bool) (yd yp : Nat) (ym : Bool), Ready c i s →
    let k := atIssue c s
    let p : Int := toS 16 (uns c a s) * toS 16 (uns c b s)
    let A := (k.accMac acc).toInt
    let mac := fun (v : Int) =>
      issued c (loaded xd xp xm yd yp ym k ((markedSv 40 sat v k).wrMac acc (narrowed 40 sat v))) s
    SlotsOk xd xp yd yp k →
      (Holds c (.tmbMac c acc sat a b xd xp xm yd yp ym) s →
      exec (.tmbMac c acc sat a b xd xp xm yd yp ym) s = .next (mac (A + p))) ∧
    (Holds c (.tmbMsu c acc sat a b xd xp xm yd yp ym) s →
      exec (.tmbMsu c acc sat a b xd xp xm yd yp ym) s = .next (mac (A - p))) ∧
    (Holds c (.tmbMpy c acc sat a b xd xp xm yd yp ym) s →
      exec (.tmbMpy c acc sat a b xd xp xm yd yp ym) s = .next (mac p)) ∧
    (Holds c (.tmbLdp c xd xp xm yd yp ym) s →
      exec (.tmbLdp c xd xp xm yd yp ym) s = .next (issued c (loaded xd xp xm yd yp ym k k) s))

/-- R212, R214, R215: the accumulators and the multiply formats. -/
def Obligations.TumblerMultiply : Prop := Claims.TumblerAccumulators ∧ Claims.TumblerMac


/-- R228, R229: debug_en moves the duty to the cluster's spare, and back; halt, step, resume and breakpoints enter and leave the debug
handler. -/
def Sys2Proof.Claims.TumblerDebug : Prop :=
  (∀ (c sp : Nat) (s : State), c < 544 → fon (R.TMB_CORE_CTRL_debug_en c) s = false → coreSt c s ≤ csRun → coreSpareFor c s = some sp →
    exec (.debugEnable c 1) s = .next (coreBoundary c (fset (R.TMB_CORE_CTRL_debug_en c) 1 s))) ∧
  (∀ (c : Nat) (s : State), c < 544 → fon (R.TMB_CORE_CTRL_debug_en c) s = false → csRun < coreSt c s ∨ coreSpareFor c s = none →
    exec (.debugEnable c 1) s = .next (raiseUnit EV_DEBUG_REFUSED (unitCore c) 0
      (fset (R.TMB_CORE_STATUS_refused c) 1 (fset (R.TMB_CORE_CTRL_debug_en c) 0 s)))) ∧
  (∀ (c : Nat) (s : State), coreSt c s = csDebug → ((coreGet c s).item = none ∨ (coreGet c s).slot ≠ none) →
    exec (.debugHaltRequest c) s = .next (corePut c { coreGet c s with halt := true } s)) ∧
  (∀ (c h : Nat) (s : State), coreSt c s = csDebug → (coreGet c s).item = some h → (coreGet c s).slot = none →
    exec (.debugHaltRequest c) s = .next (debugEnter c s)) ∧
  (∀ (c : Nat) (s : State), coreSt c s = csHalted →
    exec (.debugStep c) s = .next (coreStPut c csDebug (corePut c { (coreGet c s).reti with step := true } s)) ∧
    exec (.debugResume c) s = .next (coreStPut c csDebug (corePut c (coreGet c s).reti s))) ∧
  (∀ (c h : Nat) (s : State), coreSt c s = csDebug → (coreGet c s).item = some h → breakHit c (coreGet c s) s = true →
    exec (.debugInterrupt c) s = .next (debugEnter c s))

/-- R228: taking a debug interrupt: every write in flight is made, PC and SR are saved, SR.hm is set, and the program goes on at the
image's debug entry. -/
def Sys2Proof.Claims.DebugEntry : Prop :=
  ∀ (c h : Nat) (i : Item) (s : State), (coreGet c s).item = some h → itemFind h s = some i → imgHandler i.image = true →
    let k := coreGet c (debugEnter c s)
    k.pend = [] ∧ k.c 0x24 = (coreGet c s).pc ∧ k.c 0x25 = (coreGet c s).landAll.c 0x22 ∧ k.hm = true ∧
      k.pc = imgDbgEntry i.image ∧ k.g = (coreGet c s).landAll.g ∧ k.slot = none

/-- R227: a fault saves the faulting PC and fills TMB_CORE_FAULT; a kernel fault's item is missed, a hardware fault's item runs again
elsewhere and the core is retired. -/
def Sys2Proof.Claims.TumblerFaults : Prop :=
  (∀ (c cause : Nat) (i : Item) (s : State), cause < 256 → (coreGet c s).pc < 4096 →
    let t := faultRegs c cause (coreGet c s).pc i s
    fget (R.TMB_CORE_FAULT_valid c) t = 1 ∧ fget (R.TMB_CORE_FAULT_cause c) t = cause ∧
      fget (R.TMB_CORE_FAULT_epc c) t = (coreGet c s).pc ∧ (coreGet c t).c 0x24 = (coreGet c s).pc) ∧
  (∀ (c cause h : Nat) (i : Item) (s : State), (coreGet c s).item = some h → itemFind h s = some i → i.copyOf = none →
    let d := cause + i.d.kernel * 256 + (coreGet c s).pc * 65536
    let s2 := (faultLog ⟨unitCore c, 1, 0, cause, 0, 0, d, i.d.ring, 2, 0⟩ (faultRegs c cause (coreGet c s).pc i s)).2
    kernelFault c cause s = itemMiss h missKernel false
      (raise (ev EV_KERNEL_FAULT (unitCore c) (some i.d.ring) (if i.d.act then 2 else 1) i.d.subject d s2) s2)) ∧
  (∀ (c cause h : Nat) (i : Item) (s : State), c < 544 → 0x10 ≤ cause → cause ≤ 0x13 → coreSt c s ≠ csRetired →
    (coreGet c s).item = some h → itemFind h s = some i →
    let d := cause + i.d.kernel * 256 + (coreGet c s).pc * 65536
    let repl := if coreSt c s ≤ csRun then (coreSpareFor c s).elim 0 unitCore else 0
    let s2 := faultRegs c cause (coreGet c s).pc i (faultDeclare ⟨unitCore c, 2, if repl = 0 then 1 else 2, cause, repl, 1, d, 0xFF, 2, 0⟩ s).2
    exec (.coreHwFault c cause) s =
      .next (itemRerun h (coreRetire c (coreRelease c h (raiseUnit EV_CORE_FAULT (unitCore c) d s2)))))

/-- R227 to R229: debug requests and entry, and the faults of an instruction. -/
def Obligations.TumblerDebugging : Prop := Claims.TumblerIllegal ∧ Claims.TumblerDebug ∧ Claims.DebugEntry ∧ Claims.TumblerFaults


/-! ## Host commands: intake, queries, long and always-on commands (spec/03_host_commands.md) -/

namespace Sys2Proof.Claims
open Sys2Proof.Machine

/-- A command is taken in, its function's rings enabled and open (R79), and nothing refuses its entry. -/
def Enters (op : Nat) (c : Cmd) (s : State) : Prop := intakeOpen c.fn s = true ∧ (takeIn op c s).refuse = none

/-- The state once the command is in: its place in flight reserved, its result slot claimed. -/
def entered (op : Nat) (c : Cmd) (s : State) : State := (takeIn op c s).s

/-- The function's latest completion is that of command `c`: status, reason, result and effect stamp. -/
def Completes (op : Nat) (c : Cmd) (r : Rsp) (effect : Nat) (t : State) : Prop :=
  tfind t.hif.last (fnNum c.fn) = some { complOf c.tag op r with effect := effect }

/-- The same once a request in the mailbox that came before is carried out (R93): what an always-on command meets. -/
def settled (op : Nat) (c : Cmd) (s : State) : State := mbxRun (entered op c s)

/-- A query or an always-on command ended with a completion. -/
def answered (op : Nat) (c : Cmd) (s : State) (cp : Compl) (t : State) : State := queryEnd op c (takeIn op c s).slot cp t

/-- The record of a long operation just taken. -/
def queuedLop (op : Nat) (c : Cmd) (s : State) : Lop :=
  ⟨c.fn, c.tag, op, c, (takeIn op c s).slot, .queued, false, false, none, 0, (entered op c s).hif.lopCount⟩

/-- The rows of the host commands and their opcodes (R83). -/
def commandRows (c : Cmd) : List (Nat × Instr) :=
  [(0x00, .nop c), (0x01, .identify c), (0x02, .ringStatus c), (0x08, .lopQuery c), (0x09, .lopSuspend c), (0x0A, .lopResume c),
   (0x0B, .lopCancel c), (0x10, .framingLoad c), (0x11, .framingDelta c), (0x12, .framingRollback c), (0x20, .actAdmit c),
   (0x21, .actRelease c), (0x22, .legAdmit c), (0x23, .legStart c), (0x24, .legRoute c), (0x25, .legRelease c), (0x26, .streamAdmit c),
   (0x27, .streamRelease c), (0x28, .keyBind c), (0x29, .canvasAdmit c), (0x2A, .canvasRelease c), (0x2B, .encodeAdmit c),
   (0x2C, .encodeRelease c), (0x30, .audSafeLoad c), (0x31, .layoutSet c), (0x32, .keypicRequest c), (0x33, .shaperSet c),
   (0x38, .rewindMark c), (0x39, .rewindExport c), (0x40, .capture c), (0x41, .replay c), (0x42, .telemetrySet c), (0x48, .keyZeroise c),
   (0x50, .bayQuarantine c), (0x51, .bayWarmReset c), (0x52, .baySelftest c), (0x53, .bayReturn c), (0x54, .tileFwSwap c),
   (0x58, .cascadeJoin c), (0x59, .cascadeLeave c), (0x60, .faultlogRead c)]

/-- A long command may be taken: fewer than eight operations live, its tag unused, its own check passed. -/
def MayQueue (op : Nat) (check : Cmd → State → Option Rsp) (c : Cmd) (s : State) : Prop :=
  Enters op c s ∧ lopLive c.fn (entered op c s) < 8 ∧ lopFind c.fn c.tag (entered op c s) = none ∧ check c (entered op c s) = none

/-- Its operation queued. -/
def queued (op : Nat) (c : Cmd) (s : State) : State := lopStart op c (takeIn op c s).slot (entered op c s)

/-- The operation that a LOP command of the issuer's own names. -/
def OwnLop (op : Nat) (c : Cmd) (l : Lop) (s : State) : Prop :=
  Enters op c s ∧ czero c 0x18 = true ∧ lopFind c.fn c.target (entered op c s) = some l ∧ l.fn = c.fn ∧ l.tag = c.target

end Sys2Proof.Claims

open Sys2Proof Sys2Proof.Machine Sys2Proof.Claims

/-- R83, R464: the three plain queries complete at once, with what they answer, and change nothing else. -/
def Sys2Proof.Claims.PlainQueries : Prop :=
  ∀ (c : Cmd) (s : State), czero c 0x18 = true →
    (Enters 0x00 c s → ∃ t, exec (.nop c) s = .next t ∧ Completes 0x00 c ⟨0, 0, 0⟩ 0 t ∧
      Changes [.mem, .regs, .cnt, .hif, .ddr, .out] s t) ∧
    (Enters 0x01 c s → ∃ t, exec (.identify c) s = .next t ∧ Completes 0x01 c ⟨0, 0, glbId + (match c.fn with
        | .pf => 2 ^ 36
        | .vf r => r * 2 ^ 32)⟩ 0 t ∧ Changes [.mem, .regs, .cnt, .hif, .ddr, .out] s t) ∧
    (∀ r, (c.fn = .pf ∧ c.target = r ∨ c.fn = .vf r) → r < 16 → Enters 0x02 c s →
      ∃ t, exec (.ringStatus c) s = .next t ∧ Completes 0x02 c ⟨0, 0, Machine.ringStatus r (entered 0x02 c s)⟩ 0 t ∧
        Changes [.mem, .regs, .cnt, .hif, .ddr, .out] s t)

/-- R17, R82 to R84: a command that an entry's checks refuse completes with that status, and nothing else of it happens; while intake is not
open it is not taken. -/
def Sys2Proof.Claims.RefusedEntries : Prop :=
  ∀ (c : Cmd) (s : State) (op : Nat) (i : Instr), (op, i) ∈ commandRows c →
    (intakeOpen c.fn s = false → exec i s = .next s) ∧
    (∀ r, intakeOpen c.fn s = true → (takeIn op c s).refuse = some r →
      exec i s = .next (answered op c s (complOf c.tag op r) (entered op c s))) ∧
    (bit c.flags 0 = true → (tfind s.hif.slots (slotKey c.fn (c.tag % 64))).isSome = true → (takeIn op c s).refuse = some ⟨13, 0, 0⟩) ∧
    (bit c.flags 0 = false → ∀ r, c.fn = .vf r → ringDefined r s = false → (takeIn op c s).refuse = some ⟨5, 0, 0⟩) ∧
    (bit c.flags 0 = false → ∀ r, c.fn = .vf r → ringDefined r s = true → pfOnly op = true → (takeIn op c s).refuse = some ⟨10, 0, 0⟩)

/-- R88: what a LOP command does to an operation of its issuer that is not terminal; the completion carries the state after it. -/
def Sys2Proof.Claims.LopCommands : Prop :=
  ∀ (c : Cmd) (l : Lop) (s : State), l.st.terminal = false →
    (OwnLop 0x08 c l s → exec (.lopQuery c) s =
      .next (answered 0x08 c s { complOf c.tag 0x08 rspOk with lopState := l.st.code } (entered 0x08 c s))) ∧
    (∀ st, (l.st = .queued ∧ st = LopSt.suspended ∨ l.st = .running ∧ st = LopSt.suspending) → OwnLop 0x09 c l s →
      exec (.lopSuspend c) s = .next (answered 0x09 c s { complOf c.tag 0x09 rspOk with lopState := st.code }
        (lopMove c.fn c.target st (entered 0x09 c s)))) ∧
    ((l.st = .suspending ∨ l.st = .suspended) → OwnLop 0x09 c l s → exec (.lopSuspend c) s =
      .next (answered 0x09 c s { complOf c.tag 0x09 rspOk with lopState := l.st.code } (entered 0x09 c s))) ∧
    (∀ st, (l.st = .suspending ∧ st = LopSt.running ∨ l.st = .suspended ∧ l.started = true ∧ st = LopSt.running ∨
        l.st = .suspended ∧ l.started = false ∧ st = LopSt.queued) → OwnLop 0x0A c l s →
      exec (.lopResume c) s = .next (answered 0x0A c s { complOf c.tag 0x0A rspOk with lopState := st.code }
        (lopMove c.fn c.target st (entered 0x0A c s)))) ∧
    ((l.st = .running ∨ l.st = .suspending) → OwnLop 0x0B c l s →
      exec (.lopCancel c) s = .next (answered 0x0B c s { complOf c.tag 0x0B rspOk with lopState := LopSt.cancelling.code }
        (lopMove c.fn c.target .cancelling (entered 0x0B c s)))) ∧
    ((l.st = .queued ∨ l.st = .suspended) → OwnLop 0x0B c l s →
      exec (.lopCancel c) s = .next (answered 0x0B c s { complOf c.tag 0x0B rspOk with
          lopState := match lopFind c.fn c.target (lopCleanup l (entered 0x0B c s)) with
            | some x => x.st.code
            | none => LopSt.cancelled.code } (lopCleanup l (entered 0x0B c s)))) ∧
    (l.st = .cancelling → OwnLop 0x09 c l s → exec (.lopSuspend c) s =
      .next (answered 0x09 c s { complOf c.tag 0x09 (rspErr stBadState) with lopState := LopSt.cancelling.code } (entered 0x09 c s))) ∧
    (l.st = .cancelling → OwnLop 0x0A c l s → exec (.lopResume c) s =
      .next (answered 0x0A c s { complOf c.tag 0x0A (rspErr stBadState) with lopState := LopSt.cancelling.code } (entered 0x0A c s)))

/-- R88: an operation moved by a LOP command has its new state, and no operation but it changes. -/
def Sys2Proof.Claims.LopMoves : Prop :=
  ∀ (fn : Fn) (tag : Nat) (st : LopSt) (l : Lop) (s : State), lopFind fn tag s = some l → l.fn = fn → l.tag = tag →
    lopFind fn tag (lopMove fn tag st s) = some { l with st := st } ∧
    ∀ k, k ≠ lopKey fn tag → tfind (lopMove fn tag st s).hif.lops k = tfind s.hif.lops k

/-- R88: what the LOP commands do to a long operation, state by state. -/
def Obligations.LongOperations : Prop := Claims.LopCommands ∧ Claims.LopMoves


/-- R88: a long command that may be taken leaves its operation QUEUED, and begins what its own rule begins at once. -/
def Sys2Proof.Claims.LongCommandsQueue : Prop :=
  ∀ (c : Cmd) (s : State),
    (MayQueue 0x10 (imageIntake true) c s → exec (.framingLoad c) s = .next (imageBegin 0 c (queued 0x10 c s))) ∧
    (MayQueue 0x11 (imageIntake false) c s → exec (.framingDelta c) s = .next (imageBegin 1 c (queued 0x11 c s))) ∧
    (MayQueue 0x12 rollIntake c s → exec (.framingRollback c) s = .next (rollBegin c (queued 0x12 c s))) ∧
    (MayQueue 0x39 expIntake c s → exec (.rewindExport c) s = .next (queued 0x39 c s)) ∧
    (MayQueue 0x40 capIntake c s → exec (.capture c) s = .next (capBegin c (queued 0x40 c s))) ∧
    (MayQueue 0x41 repIntake c s → exec (.replay c) s = .next (repBegin c (queued 0x41 c s))) ∧
    (MayQueue 0x52 testIntake c s → exec (.baySelftest c) s = .next (queued 0x52 c s)) ∧
    (MayQueue 0x54 fwIntake c s → exec (.tileFwSwap c) s = .next (queued 0x54 c s)) ∧
    (MayQueue 0x58 joinIntake c s → exec (.cascadeJoin c) s = .next (joinBegin c (queued 0x58 c s))) ∧
    (MayQueue 0x59 leaveIntake c s → exec (.cascadeLeave c) s = .next (leaveBegin c (queued 0x59 c s))) ∧
    (∀ op, Enters op c s → lopLive c.fn (entered op c s) < 8 → lopFind c.fn c.tag (entered op c s) = none →
      lopFind c.fn c.tag (queued op c s) = some (queuedLop op c s))

/-- R88: a long command beyond the eighth live operation, or of a tag in use, completes BUSY. -/
def Sys2Proof.Claims.LongCommandsBusy : Prop :=
  ∀ (c : Cmd) (s : State),
    (∀ op i, (op, i) ∈ [(0x10, Instr.framingLoad c), (0x11, .framingDelta c), (0x12, .framingRollback c), (0x39, .rewindExport c),
        (0x40, .capture c), (0x41, .replay c), (0x52, .baySelftest c), (0x54, .tileFwSwap c), (0x58, .cascadeJoin c),
        (0x59, .cascadeLeave c)] →
      Enters op c s → (8 ≤ lopLive c.fn (entered op c s) ∨ (lopFind c.fn c.tag (entered op c s)).isSome = true) →
      ∃ t, exec i s = .next t ∧ Completes op c ⟨9, 0, 0⟩ 0 t)

/-- R88: a long command queued, and one turned away. -/
def Obligations.LongCommands : Prop := Claims.LongCommandsQueue ∧ Claims.LongCommandsBusy


/-- R83, R93, R140, R410, R420: the always-on commands take effect in the current block, after a request that the mailbox holds. -/
def Sys2Proof.Claims.AlwaysOnCommands : Prop :=
  ∀ (c : Cmd) (s : State),
    (∀ sc, Enters 0x48 c s → zeroScope c = .ok sc → exec (.keyZeroise c) s =
      .next (answered 0x48 c s { complOf c.tag 0x48 rspOk with effect := s.clk.stamp } (zeroise sc (match sc with
        | .device => 1
        | .ring _ => 2) (settled 0x48 c s)))) ∧
    (Enters 0x50 c s → c.target < 4 → czero c 0x18 = true → baySt c.target (settled 0x50 c s) ≠ bsLost →
      baySt c.target (settled 0x50 c s) ≠ bsQuar → exec (.bayQuarantine c) s =
        .next (answered 0x50 c s { complOf c.tag 0x50 rspOk with effect := s.clk.stamp }
          (bayOut c.target bcAdmin (unitBay c.target) 8 (settled 0x50 c s)))) ∧
    (Enters 0x51 c s → c.target < 4 → czero c 0x18 = true → baySt c.target (settled 0x51 c s) = bsQuar →
      exec (.bayWarmReset c) s = .next (answered 0x51 c s { complOf c.tag 0x51 rspOk with effect := s.clk.stamp }
        (Machine.bayWarmReset c.target (settled 0x51 c s)))) ∧
    (Enters 0x60 c s → carg c 0x18 8 % 64 = 0 → 1 ≤ carg c 0x20 4 → carg c 0x20 4 ≤ 64 → czero c 0x24 = true →
      (logEntry c.target (settled 0x60 c s)).isSome = true →
      let k := min (carg c 0x20 4) (fget R.LDG_LOG_NEXT_next (settled 0x60 c s) - c.target)
      hostOk (carg c 0x18 8) (64 * k) (settled 0x60 c s) = true →
      exec (.faultlogRead c) s = .next (answered 0x60 c s
        { complOf c.tag 0x60 ⟨0, 0, k + fget R.LDG_LOG_OLDEST_oldest (settled 0x60 c s) * 2 ^ 32⟩ with effect := s.clk.stamp }
        (hostWrite (carg c 0x18 8)
          ((List.range k).map fun j => (logEntry (c.target + j) (settled 0x60 c s)).getD []).flatten (settled 0x60 c s))))

/-- R17, R82 to R84, R93, R140, R410, R420, R464: the queries entries refused, and the operations that are always on. -/
def Obligations.QueriesAndAlwaysOn : Prop := Claims.PlainQueries ∧ Claims.RefusedEntries ∧ Claims.AlwaysOnCommands


/-- R120, R122, R140: zeroisation leaves every slot of its scope empty, its generation alone kept, and every slot out of scope as it
was. -/
def Sys2Proof.Claims.ZeroisationEmptiesSlots : Prop :=
  ∀ (sc : ZScope) (cause n : Nat) (s : State),
    keySlot n (zeroise sc cause s) =
      if inScope sc n s = true then ⟨false, 0, (keySlot n s).gen, 0, [], [], []⟩ else keySlot n s

/-- R140: after a zeroisation no stream context references a slot of its scope, whether as its current or its previous key; what it
referenced outside stays. -/
def Sys2Proof.Claims.ZeroisationClearsReferences : Prop :=
  ∀ (sc : ZScope) (cause id n : Nat) (st : Stream) (s : State), tfind (zeroise sc cause s).ctl.streams id = some st →
    ∃ st0, tfind s.ctl.streams id = some st0 ∧
      (inScope sc n s = true → (keySlot n s).valid = true → st.uses n = false) ∧
      (inScope sc n s = false → st.uses n = st0.uses n)

/-- R120, R122, R140: what a zeroisation empties, and the references it clears. -/
def Obligations.Zeroisation : Prop := Claims.ZeroisationEmptiesSlots ∧ Claims.ZeroisationClearsReferences


/-! ## Configuration commands: Acts, legs, stream contexts, keys (spec/03_host_commands.md R81 to R87, R107, R126) -/

namespace Sys2Proof.Claims
open Sys2Proof.Machine

/-- A configuration command as its intake leaves it: in flight, with the table that it names. -/
def inFlight (op : Nat) (c : Cmd) (s : State) : Flight := flightOf op c (takeIn op c s).slot (entered op c s)

/-- The state once it waits for its boundary (R81). -/
def held (op : Nat) (c : Cmd) (s : State) : State := configRun op c (takeIn op c s).slot (entered op c s)

/-- A configuration command `i` taken in at state `s` is held, and at its boundary `b`, met in state `s1`, does what `P` says. -/
def AtBoundary (op : Nat) (c : Cmd) (i : Instr) (b : Nat) (s s1 : State) (P : State → Prop) : Prop :=
  exec i s = .next (held op c s) ∧ ∃ u, applyFlight (inFlight op c s) b s1 = u ∧ P u

/-- The command ended at boundary `b` with response `r`, its effect being `t`. -/
def ended (op : Nat) (c : Cmd) (b : Nat) (s : State) (r : Rsp) (t : State) : State :=
  flightEnd { inFlight op c s with effective := true, effect := b } r t

/-- A configuration command without an effect stamp is in. -/
def EntersNow (op : Nat) (c : Cmd) (s : State) : Prop := Enters op c s ∧ c.effectStamp = 0

/-- The command names an object of the issuer's. -/
def Mine (c : Cmd) (kind limit id ring : Nat) (s : State) : Prop := idRefused c kind limit id s = none ∧ ringOf kind id s = some ring

/-- The rows of the configuration commands and their opcodes (R83). -/
def configRows (c : Cmd) : List (Nat × Instr) :=
  [(0x20, .actAdmit c), (0x21, .actRelease c), (0x22, .legAdmit c), (0x23, .legStart c), (0x24, .legRoute c), (0x25, .legRelease c),
   (0x26, .streamAdmit c), (0x27, .streamRelease c), (0x28, .keyBind c), (0x29, .canvasAdmit c), (0x2A, .canvasRelease c),
   (0x2B, .encodeAdmit c), (0x2C, .encodeRelease c), (0x30, .audSafeLoad c), (0x31, .layoutSet c), (0x32, .keypicRequest c),
   (0x33, .shaperSet c), (0x38, .rewindMark c), (0x42, .telemetrySet c), (0x53, .bayReturn c)]

end Sys2Proof.Claims

open Sys2Proof Sys2Proof.Machine Sys2Proof.Claims

/-- R81: a configuration command waits; at a block's boundary the due commands of its function, those of no effect stamp and those whose
stamp has come, are applied in the order of the SQ, at most 512 of them. A table that a command names is fetched when the command is processed. -/
def Sys2Proof.Claims.ConfigCommandsWait : Prop :=
  (∀ (c : Cmd) (s : State) (op : Nat) (i : Instr), (op, i) ∈ configRows c → Enters op c s → exec i s = .next (held op c s)) ∧
  (∀ (f : Flight) (l r : List Flight) (b : Nat) (s : State), s.hif.flight = l ++ f :: r → flightDue b f = true →
    (∀ x ∈ l ++ r, x.cmd.fn ≠ f.cmd.fn ∨ flightDue b x = false) →
    configBoundary b f.cmd.fn s = applyFlight f b { s with hif := { s.hif with flight := l ++ r } }) ∧
  (∀ (f : Flight) (b : Nat), f.effective = false → (flightDue b f = true ↔ f.cmd.effectStamp = 0 ∨ stampGe b f.cmd.effectStamp = true)) ∧
  (∀ (c : Cmd) (s : State) (op : Nat), op = 0x30 ∨ op = 0x31 → carg c 0x20 4 ≤ 524352 → let s1 := entered op c s
    (inFlight op c s).data =
      if hostOk (carg c 0x18 8) (carg c 0x20 4) s1 = true then some (hostRead (carg c 0x18 8) (carg c 0x20 4) s1) else none) ∧
  (∀ (fn : Fn) (b n : Nat) (l : List Flight), (flightsDue fn n b l).1.length ≤ n ∧
    (flightsDue fn n b l).1.Sublist (l.filter fun f => decide (f.cmd.fn = fn) && flightDue b f) ∧ (flightsDue fn n b l).2.Sublist l ∧
    ((l.filter fun f => decide (f.cmd.fn = fn) && flightDue b f).length ≤ n →
      (flightsDue fn n b l).1 = l.filter fun f => decide (f.cmd.fn = fn) && flightDue b f))

/-- R63, R81: a configuration command's completion carries its effect boundary; where that is after its effect stamp it says LATE, with the
lateness in blocks. -/
def Sys2Proof.Claims.ConfigCommandsLate : Prop :=
  ∀ (c : Cmd) (s s1 t : State) (op b : Nat) (i : Instr) (r : Rsp), (op, i) ∈ configRows c → Enters op c s → c.effectStamp < 2 ^ 48 →
    applyOf op (inFlight op c s).data c b s1 = (t, some r) →
    AtBoundary op c i b s s1 fun u =>
      let late := decide (c.effectStamp ≠ 0) && stampAfter b c.effectStamp
      tfind u.hif.last (fnNum c.fn) = some { complOf c.tag op r with
        late := late
        lateness := if late then stampSub b c.effectStamp else 0
        effect := b }

/-- R63, R81: a command that takes effect at a boundary waits for it, and one that comes late. -/
def Obligations.ConfigTiming : Prop := Claims.ConfigCommandsWait ∧ Claims.ConfigCommandsLate


/-- R87, R33: an Act is admitted with its template where its charge fits, and released where no leg is left in it. -/
def Obligations.ActCommands : Prop :=
  (∀ (c : Cmd) (s s1 : State) (b ring bay : Nat) (t : Template), EntersNow 0x20 c s →
    let n := carg c 0x1A 2
    Mine c 1 actLimit c.target ring s1 → template ring (carg c 0x18 2) s1 = some t → 2 ≤ n → n ≤ 16384 → (t.mixing = true ∨ n = 2) →
    czero c 0x1C = true → tfind s1.ctl.acts c.target = none → place ring (chargeOf 0 (actUnits n t)) s1 = some bay →
    AtBoundary 0x20 c (.actAdmit c) b s s1 fun u => Completes 0x20 c ⟨0, 0, 0⟩ b u ∧
      tfind u.ctl.acts c.target = some ⟨ring, t, n, bay, chargeOf 0 (actUnits n t)⟩ ∧
      (∀ k, k ≠ c.target → tfind u.ctl.acts k = tfind s1.ctl.acts k)) ∧
  (∀ (c : Cmd) (s s1 : State) (b ring : Nat) (a : Act), EntersNow 0x21 c s →
    Mine c 1 actLimit c.target ring s1 → czero c 0x18 = true → tfind s1.ctl.acts c.target = some a → actLegs c.target s1 = [] →
    AtBoundary 0x21 c (.actRelease c) b s s1 fun u => Completes 0x21 c ⟨0, 0, 0⟩ b u ∧ tfind u.ctl.acts c.target = none ∧
      (∀ k, k ≠ c.target → tfind u.ctl.acts k = tfind s1.ctl.acts k))

/-- R85, R86: a leg is admitted to an admitted Act of its Ring where its charge fits. -/
def Sys2Proof.Claims.LegAdmit : Prop :=
  ∀ (c : Cmd) (s s1 : State) (b ring bay : Nat) (a : Act), EntersNow 0x22 c s →
    let id := c.target
    let act := carg c 0x18 2
    let ac := carg c 0x1A 1
    let need := legNeed (carg c 0x24 4) (carg c 0x28 4)
    let old := settingNow act s1
    let now := settingUnits act (recSetting ac (LegRec.dflt a.tpl ac) ++ actSettings act legLimit s1) s1
    Mine c 0 legLimit id ring s1 → Mine c 1 actLimit act ring s1 → ac ≤ 7 → carg c 0x1B 1 ≤ 4 → carg c 0x21 1 ≤ 1 →
    carg c 0x22 2 = 0 → czero c 0x2C = true → tfind s1.ctl.legs id = none → tfind s1.ctl.acts act = some a → codecClash act ac s1 = false →
    actFull act a s1 = false → place ring need s1 = some bay → (old < now → fits a.ring a.bay (chargeOf 0 (now - old)) s1 = true) →
    AtBoundary 0x22 c (.legAdmit c) b s s1 fun u => ∃ l, Completes 0x22 c ⟨0, 0, 0⟩ b u ∧ tfind u.ctl.legs id = some l ∧
      l.st = .admitted ∧ l.ring = ring ∧ l.act = act ∧ l.acodec = ac ∧ l.vcodec = carg c 0x1B 1 ∧ l.width = carg c 0x1C 2 ∧
      l.height = carg c 0x1E 2 ∧ l.fps = carg c 0x20 1 ∧ l.role = carg c 0x21 1 ∧ l.pktRate = carg c 0x24 4 ∧
      l.srtpRate = carg c 0x28 4 ∧ l.bay = bay ∧ l.charge = need ∧ (∀ k, k ≠ id → tfind u.ctl.legs k = tfind s1.ctl.legs k)

/-- R86: a leg with its contexts keyed starts; an active leg that is released drains and the command waits; an admitted leg is freed at
once; a drain that has ended frees the leg and completes the command. -/
def Sys2Proof.Claims.LegLifecycle : Prop :=
  (∀ (c : Cmd) (s s1 : State) (b : Nat) (l : Leg), EntersNow 0x23 c s →
    let strs := s1.ctl.streams.filter fun p => decide (p.2.leg = c.target)
    legOf c s1 = .ok l → czero c 0x18 = true → l.st = .admitted → strs ≠ [] → (∀ p ∈ strs, streamReady p.2 s1 = true) →
    AtBoundary 0x23 c (.legStart c) b s s1 fun u => Completes 0x23 c ⟨0, 0, 0⟩ b u ∧
      tfind u.ctl.legs c.target = some { l with st := .active, started := b }) ∧
  (∀ (c : Cmd) (s s1 : State) (b : Nat) (l : Leg), EntersNow 0x25 c s →
    legOf c s1 = .ok l → czero c 0x18 = true → l.st = .active →
    AtBoundary 0x25 c (.legRelease c) b s s1 fun u => ∃ f, tfind u.ctl.legs c.target = some { l with
        st := .draining
        drainEnd := stampAdd b (rampBlocks (actRamp l.act s1) + if (casAct l.act s1).isSome then casX s1 else 0) } ∧
      f ∈ u.hif.flight ∧ f.cmd = c ∧ f.opcode = 0x25 ∧ f.effective = true ∧ f.effect = b) ∧
  (∀ (c : Cmd) (s s1 : State) (b : Nat) (l : Leg), EntersNow 0x25 c s →
    legOf c s1 = .ok l → czero c 0x18 = true → l.st = .admitted →
    AtBoundary 0x25 c (.legRelease c) b s s1 fun u => Completes 0x25 c ⟨0, 0, 0⟩ b u ∧ tfind u.ctl.legs c.target = none) ∧
  (∀ (leg : Nat) (s : State) (l : Leg), tfind s.ctl.legs leg = some l → l.st = .draining → stampAfter s.clk.stamp l.drainEnd = true →
    legItems leg l.drainEnd s = false →
    ∃ u, exec (.legDrainEnd leg) s = .next u ∧ tfind u.ctl.legs leg = none ∧
      (∀ f ∈ u.hif.flight, ¬ (f.effective = true ∧ f.opcode = 0x25 ∧ f.cmd.target = leg)))

/-- R86, R166: a leg moves to another Act of its Ring whose codec and size admit it, where the units it takes there fit. -/
def Sys2Proof.Claims.LegRoute : Prop :=
  ∀ (c : Cmd) (s s1 : State) (b : Nat) (l : Leg), EntersNow 0x24 c s →
    let act := carg c 0x18 2
    legOf c s1 = .ok l → czero c 0x1A = true → l.st ≠ .draining → Mine c 1 actLimit act l.ring s1 →
    (act = l.act → AtBoundary 0x24 c (.legRoute c) b s s1 fun u => Completes 0x24 c ⟨0, 0, 0⟩ b u ∧ u.ctl = s1.ctl ∧ u.aud = s1.aud) ∧
    (∀ a o : Act, act ≠ l.act → tfind s1.ctl.acts act = some a → tfind s1.ctl.acts l.act = some o →
      codecClash act l.acodec s1 = false → actFull act a s1 = false →
      let ramp := if l.st = .active ∧ a.tpl.mixing = true ∧ o.tpl.mixing = true then 12 else 0
      let trust := if a.tpl.mixing = true ∧ o.tpl.mixing = false ∧ lacksLevel c.target s1 = true then 3 else 0
      let now := settingUnits act (legSetting l.act c.target l s1 ++ actSettings act legLimit s1) s1
      fits a.ring a.bay (chargeOf 0 (1 + ramp + trust + (now - settingNow act s1))) s1 = true →
      AtBoundary 0x24 c (.legRoute c) b s s1 fun u => Completes 0x24 c ⟨0, 0, 0⟩ b u ∧
        tfind u.ctl.legs c.target = some { l with act := act })

/-- R85, R86, R166: legs admitted, started, released and routed. -/
def Obligations.Legs : Prop := Claims.LegAdmit ∧ Claims.LegLifecycle ∧ Claims.LegRoute


/-- R107, R126, R127: a stream context is attached to an admitted leg, bound to a valid slot, unbound, released. -/
def Obligations.StreamContexts : Prop :=
  (∀ (c : Cmd) (s s1 : State) (b : Nat) (l : Leg) (ring : Nat), EntersNow 0x26 c s →
    let leg := carg c 0x18 2
    Mine c 2 streamLimit c.target ring s1 → Mine c 0 legLimit leg ring s1 → tfind s1.ctl.legs leg = some l → l.st = .admitted →
    tfind s1.ctl.streams c.target = none → streamArgs c leg s1 = true →
    (carg c 0x1A 1 = 0 → (s1.ctl.streams.filter fun p => decide (p.2.leg = leg) && decide (p.2.dir = 0)).length < 8) →
    ((actTpl l.act s1).mixing = false ∨ trustFits l.act s1 = true) →
    AtBoundary 0x26 c (.streamAdmit c) b s s1 fun u => ∃ st, Completes 0x26 c ⟨0, 0, 0⟩ b u ∧
      tfind u.ctl.streams c.target = some st ∧ st.leg = leg ∧ st.dir = carg c 0x1A 1 ∧ st.media = carg c 0x1B 1 ∧
      st.ssrc = carg c 0x1C 4 ∧ st.known = bit (carg c 0x20 2) 0 ∧ st.tdm = bit (carg c 0x20 2) 1 ∧ st.delay = carg c 0x23 1 ∧
      st.rtxOf = carg c 0x24 2 ∧ st.mid = cargs c 0x28 8 ∧ st.rid = cargs c 0x30 8 ∧ st.clock = carg c 0x38 1 ∧
      st.ext = (List.range 7).map (fun i => carg c (0x39 + i) 1) ∧ st.key = none ∧ st.prev = none) ∧
  (∀ (c : Cmd) (s s1 : State) (b ring : Nat) (st : Stream), EntersNow 0x27 c s →
    Mine c 2 streamLimit c.target ring s1 → czero c 0x18 = true → tfind s1.ctl.streams c.target = some st →
    (∀ p ∈ s1.ctl.streams, ¬ (p.2.media = 2 ∧ p.2.rtxOf = c.target)) →
    AtBoundary 0x27 c (.streamRelease c) b s s1 fun u => Completes 0x27 c ⟨0, 0, 0⟩ b u ∧ tfind u.ctl.streams c.target = none ∧
      tfind u.egr.strs c.target = none ∧ tfind u.egr.rings c.target = none ∧ tfind u.fwd.tracks c.target = none ∧
      (∀ k, k ≠ c.target → tfind u.ctl.streams k = tfind s1.ctl.streams k)) ∧
  (∀ (c : Cmd) (s s1 : State) (b ring : Nat) (l : Leg) (st : Stream), EntersNow 0x28 c s →
    let slot := carg c 0x18 2
    Mine c 2 streamLimit c.target ring s1 → carg c 0x1B 1 = 0 → carg c 0x20 2 ≤ 4000 → czero c 0x22 = true →
    tfind s1.ctl.streams c.target = some st → tfind s1.ctl.legs st.leg = some l → l.st ≠ .draining →
    (carg c 0x1A 1 = 1 → AtBoundary 0x28 c (.keyBind c) b s s1 fun u => Completes 0x28 c ⟨0, 0, 0⟩ b u ∧
      tfind u.ctl.streams c.target = some { st with key := none, prev := none, former := none }) ∧
    (carg c 0x1A 1 = 0 → idRefused c 3 65536 slot s1 = none → bindReason c.target slot st s1 = 0 →
      AtBoundary 0x28 c (.keyBind c) b s s1 fun u => Completes 0x28 c ⟨0, 0, 0⟩ b u ∧
        tfind u.ctl.streams c.target = some { st with
          key := some slot
          former := st.key
          prev := if st.dir = 0 ∧ 0 < carg c 0x20 2 then st.key.map fun k => (k, stampAdd b (carg c 0x20 2)) else none
          bound := true
          keyFrom := b
          roc := if st.bound then st.roc else carg c 0x1C 4 })) ∧
  (∀ (id k e : Nat) (st : Stream) (s : State), tfind s.ctl.streams id = some st → st.prev = some (k, e) → stampGe s.clk.stamp e = true →
    ∃ u, exec (.rekeyGraceEnd id) s = .next u ∧ tfind u.ctl.streams id = some { st with prev := none } ∧ u.key = s.key)

/-! ## Rings, events, function-level reset, the link, mailbox and SMBus (spec/03_host_commands.md R72 to R94) -/

namespace Sys2Proof.Claims
open Sys2Proof.Machine

/-- The state that a mailbox operation meets: over the configuration space, the request in MBX_REQ and in progress; over SMBus, a request
that the mailbox held carried out (R93). -/
def mbxStart (op : Nat) (p : MbxPath) (seq arg : Nat) (s : State) : State :=
  match p with
  | .config => if fon R.MBX_CTRL_busy s then s else fset R.MBX_CTRL_busy 1 (mbxReqPut op seq arg s)
  | .smbus _ => mbxRun s

/-- A mailbox operation is served: over the configuration space where no other request is in progress, over SMBus to this device's address
with a right PEC and, for a control operation, with smb_ctl set. -/
def MbxOpen (op : Nat) (p : MbxPath) (seq arg : Nat) (pec : Bool) (s : State) : Prop :=
  mbxServed op (mbxStart op p seq arg s) = true ∧ arg < 2 ^ 32 ∧
    (p = .config ∧ (fon R.MBX_CTRL_busy s = false ∨ s.hif.mbx.req = mbxReqOf op seq arg) ∨
      p = .smbus (smbAddress s) ∧ pec = true ∧ (5 ≤ op → fon R.GLB_AON_CFG_smb_ctl (mbxRun s) = true))

/-- The response of status `st` and data given on the path, `t` being what the operation left. -/
def mbxReply (p : MbxPath) (seq st : Nat) (data : List Byte) (t : State) : State :=
  let b := leBytes 1 st ++ leBytes 1 seq ++ leBytes 1 data.length ++ List.replicate 5 0 ++ padTo 0 64 data
  match p with
  | .config => fset R.MBX_CTRL_done 1 (fset R.MBX_CTRL_busy 0 { t with hif := { t.hif with mbx := { t.hif.mbx with rsp := b } } })
  | .smbus _ => { t with hif := { t.hif with mbx := { t.hif.mbx with smb := b } } }

/-- The rows of the mailbox operations, with their numbers and arguments (R93). -/
def mbxRows (p : MbxPath) (seq : Nat) (pec : Bool) (arg : Nat) : List (Nat × Nat × Instr) :=
  [(1, 0, .mbxIdentity p seq pec), (2, 0, .mbxStatus p seq pec), (3, arg, .mbxFaultlogRead p seq pec arg),
   (4, arg, .mbxKeyZeroise p seq pec arg), (5, arg, .mbxBayQuarantine p seq pec arg), (6, arg, .mbxBayWarmReset p seq pec arg),
   (7, 0, .wdtKick p seq pec)]

end Sys2Proof.Claims

open Sys2Proof Sys2Proof.Machine Sys2Proof.Claims

/-- R79, R80: a fetch takes the entry at the head where intake is open; a PCIe error halts intake at it. -/
def Sys2Proof.Claims.CommandFetch : Prop :=
  ∀ (fn : Fn) (s : State), fget (R.CMD_SQ_HEAD_head fn) s ≠ fget (R.CMD_SQ_TAIL_tail fn) s →
    intakeOpen fn s = true →
    let head := fget (R.CMD_SQ_HEAD_head fn) s
    let a := fget (R.CMD_SQ_BASE_base fn) s * 4096 + 64 * head
    let l := hostRead a 64 s
    let op := le l 0 2
    let c : Cmd := ⟨fn, le l 2 2, le l 4 4, le l 8 8, le l 0x10 4, le l 0x14 4, l.drop 0x18⟩
    let s1 := fset (R.CMD_SQ_HEAD_head fn) ((head + 1) % sqSize fn s) s
    (hostOk a 64 s = false → exec (.commandFetch fn) s = .next (haltSq fn 2 s)) ∧
    (hostOk a 64 s = true → ∀ r, (takeIn op c s1).refuse = some r → ∃ t, exec (.commandFetch fn) s = .next t ∧
      Completes op c r 0 t) ∧
    (hostOk a 64 s = true → (takeIn op c s1).refuse = none → let k := takeIn op c s1
      fget (R.CMD_SQ_HEAD_head fn) k.s = (head + 1) % sqSize fn s % 4096 ∧
      (opKind op = some .config → exec (.commandFetch fn) s = .next (configRun op c k.slot k.s)) ∧
      (opKind op = some .query → exec (.commandFetch fn) s = .next (queryRun op (queryOf op) c k.slot k.s)) ∧
      (opKind op = some .always → exec (.commandFetch fn) s = .next (aonRun op (aonOf op) c k.slot k.s)) ∧
      (opKind op = some .long → exec (.commandFetch fn) s = .next (longRun op (longCheck op) (longBegin op) c k.slot k.s)))

/-- R77, R78, R92: an entry written to a CQ: its 32 bytes at the tail, the phase of the pass, the tail moved in ring order, vector 0 where
the ring was empty. -/
def Sys2Proof.Claims.CompletionEntry : Prop :=
  ∀ (fn : Fn) (p : Posted) (s : State), fget (R.CMD_CQ_TAIL_tail fn) s < cqSize fn s → fget (R.CMD_RING_SIZE_cq_log2 fn) s ≤ 12 →
    fget (R.CMD_CQ_TAIL_phase fn) s ≤ 1 →
    let tail := fget (R.CMD_CQ_TAIL_tail fn) s
    let phase := fget (R.CMD_CQ_TAIL_phase fn) s
    let a := fget (R.CMD_CQ_BASE_base fn) s * 4096 + 32 * tail
    let t := cqWrite fn p s
    hostRead a 32 t = complBytes p.c (fget (R.CMD_SQ_HEAD_head fn) s) phase ∧
      (∀ x, x < a ∨ a + 32 ≤ x → Memory.read t.mem.host x = Memory.read s.mem.host x) ∧
      fget (R.CMD_CQ_TAIL_tail fn) t = (tail + 1) % cqSize fn s ∧
      fget (R.CMD_CQ_TAIL_phase fn) t = (if tail + 1 = cqSize fn s then 1 - phase else phase) ∧
      (∀ n, p.slot = some n → ∃ x, tfind t.hif.slots (slotKey fn n) = some x ∧ x.index = some tail ∧ x.ready.isSome = true)

/-- R77 to R80, R92: commands fetched and completions written. -/
def Obligations.CommandRings : Prop := Claims.CommandFetch ∧ Claims.CompletionEntry


/-- R78, R80, R84: the doorbells, the result acknowledge, enable and disable, and the clearing of a halt. -/
def Sys2Proof.Claims.RingRegisters : Prop :=
  ∀ (fn : Fn) (v : Nat) (s : State),
    (v < 4096 → v ≠ fget (R.CMD_SQ_TAIL_tail fn) s → v < sqSize fn s → ∃ t, exec (.cmdSqTailWrite fn v) s = .next t ∧
      fget (R.CMD_SQ_TAIL_tail fn) t = v ∧ Changes [.regs] s t) ∧
    (v < 4096 → v ≠ fget (R.CMD_SQ_TAIL_tail fn) s → sqSize fn s ≤ v → exec (.cmdSqTailWrite fn v) s = .next (haltSq fn 1 s)) ∧
    (v < 4096 → headTaken (fget (R.CMD_CQ_HEAD_head fn) s) (fget (R.CMD_CQ_TAIL_tail fn) s) (cqSize fn s) v = true →
      ∃ t, exec (.cmdCqHeadWrite fn v) s = .next t ∧ fget (R.CMD_CQ_HEAD_head fn) t = v ∧
        (∀ n x i, n < 64 → tfind s.hif.slots (slotKey fn n) = some x → x.index = some i →
          retires (cqSize fn s) (fget (R.CMD_CQ_HEAD_head fn) s) v i = false → tfind t.hif.slots (slotKey fn n) = some x)) ∧
    (v < 4096 → headTaken (fget (R.CMD_CQ_HEAD_head fn) s) (fget (R.CMD_CQ_TAIL_tail fn) s) (cqSize fn s) v = false →
      ∃ t, exec (.cmdCqHeadWrite fn v) s = .next t ∧ fget (R.CMD_STATUS_bad_head fn) t = 1 ∧ t.hif = s.hif ∧
        fget (R.CMD_CQ_HEAD_head fn) t = fget (R.CMD_CQ_HEAD_head fn) s) ∧
    (∀ x, v < 64 → tfind s.hif.slots (slotKey fn v) = some x → x.ready.isSome = true → ∃ t, exec (.cmdResultAck fn v) s = .next t ∧
      tfind t.hif.slots (slotKey fn v) = none ∧ Changes [.hif] s t) ∧
    (v % 2 = 1 → fon (R.CMD_CTRL_enable fn) s = false → fget (R.CMD_RING_SIZE_sq_log2 fn) s ≤ fget (R.CMD_RING_SIZE_cq_log2 fn) s →
      ∃ t, exec (.cmdEnable fn v) s = .next t ∧ fget (R.CMD_CTRL_enable fn) t = 1 ∧ fget (R.CMD_SQ_HEAD_head fn) t = 0 ∧
        fget (R.CMD_SQ_TAIL_tail fn) t = 0 ∧ fget (R.CMD_CQ_HEAD_head fn) t = 0 ∧ fget (R.CMD_CQ_TAIL_tail fn) t = 0 ∧
        fget (R.CMD_CQ_TAIL_phase fn) t = 1 ∧ fget (R.CMD_STATUS_running fn) t = b2n (!fon (R.CMD_STATUS_sq_halted fn) s)) ∧
    (v % 2 = 1 → fon (R.CMD_CTRL_enable fn) s = false → fget (R.CMD_RING_SIZE_cq_log2 fn) s < fget (R.CMD_RING_SIZE_sq_log2 fn) s →
      ∃ t, exec (.cmdEnable fn v) s = .next t ∧ fget (R.CMD_STATUS_enable_refused fn) t = 1 ∧ fon (R.CMD_CTRL_enable fn) t = false) ∧
    (v % 2 = 0 → fon (R.CMD_CTRL_enable fn) s = true → fget (R.CMD_STATUS_in_flight fn) s = 0 →
      ∃ t, exec (.cmdEnable fn v) s = .next t ∧ fget (R.CMD_CTRL_enable fn) t = 0 ∧ fget (R.CMD_STATUS_running fn) t = 0) ∧
    (fon (R.CMD_STATUS_sq_halted fn) s = true → fget (R.CMD_CTRL_enable fn) s ≤ 1 → ∃ t, exec (.sqHaltedClear fn) s = .next t ∧
      fget (R.CMD_STATUS_sq_halted fn) t = 0 ∧ fget (R.CMD_STATUS_running fn) t = fget (R.CMD_CTRL_enable fn) s ∧
      fget (R.CMD_STATUS_halt_cause fn) t = if fon (R.CMD_STATUS_cq_halted fn) s then 3 else 0) ∧
    (fon (R.CMD_STATUS_cq_halted fn) s = true → exec (.cqHaltedClear fn) s =
      .next (cqFlush fn (haltCauseSync fn (fset (R.CMD_STATUS_cq_halted fn) 0 s))))

/-- R78, R90: an event leaves its queue for the host ring where the ring has room: the 32 bytes of R90 at the tail, the tail in ring
order, OVERFLOW carried once; and the host's head is taken in ring order, or ignored. -/
def Sys2Proof.Claims.EventRings : Prop :=
  ∀ (fn : Fn) (q pick k : Nat) (e : EvEntry) (s : State), evqKey fn q = some k → evqPick (evqGet k s).items pick = some e →
    fon (R.INT_EVQ_CFG_enable fn q) s = true → fget (R.INT_EVQ_CFG_log2 fn q) s ≤ 14 →
    let head := fget (R.INT_EVQ_HEAD_head fn q) s
    let tail := fget (R.INT_EVQ_TAIL_tail fn q) s
    let a := fget (R.INT_EVQ_BASE_base fn q) s * 4096 + 32 * tail
    (ringRoom head tail (evqSize fn q s) 0 = true → hostOk a 32 s = true → ∃ t, exec (.eventDeliver fn q pick) s = .next t ∧
      hostRead a 32 t = evBytes e (fget (R.INT_EVQ_TAIL_phase fn q) s) (b2n (evqGet k s).ovf) ∧
      (evqGet k t).items = (evqGet k s).items.erase e ∧ (evqGet k t).ovf = false ∧
      fget (R.INT_EVQ_TAIL_tail fn q) t = (tail + 1) % evqSize fn q s) ∧
    (∀ v, v < 2 ^ 14 → headTaken head tail (evqSize fn q s) v = true → ∃ t, exec (.intEvqHeadWrite fn q v) s = .next t ∧
      fget (R.INT_EVQ_HEAD_head fn q) t = v ∧ Changes [.regs] s t) ∧
    (∀ v, v < 2 ^ 14 → headTaken head tail (evqSize fn q s) v = false → exec (.intEvqHeadWrite fn q v) s = .next s)

/-- R78, R80, R84, R90: the registers of the rings, and the event rings. -/
def Obligations.HostRings : Prop := Claims.RingRegisters ∧ Claims.EventRings


/-- R72, R434: a function-level reset disables the function's rings, empties its slots and MSI-X table and drops its commands that are not
yet effective; media and the link are as before.  PERST_N does it for every function and takes the link down; the link alone pauses DMA. -/
def Sys2Proof.Claims.FunctionResets : Prop :=
  (∀ (fn : Fn) (s : State), ∃ t, exec (.functionLevelReset fn) s = .next t ∧ fget (R.CMD_CTRL_enable fn) t = 0 ∧
    (∀ n < 64, tfind t.hif.slots (slotKey fn n) = none) ∧ (∀ n < 2048, tfind t.hif.msix (msixKey fn n) = none) ∧
    (∀ f ∈ t.hif.flight, f.cmd.fn = fn → f.effective = true ∧ f.orphan = true) ∧
    (∀ f ∈ s.hif.flight, f.cmd.fn ≠ fn → f ∈ t.hif.flight) ∧ Changes [.regs, .hif, .key, .obs] s t) ∧
  (∀ s, exec .pcieLinkDown s = .next { s with mem := { s.mem with linkUp := false } }) ∧
  (∀ s, exec .pcieLinkUp s =
    .next (dmaBoundary (excFlush (allFns.foldl (fun s fn => cqFlush fn s) { s with mem := { s.mem with linkUp := true } })))) ∧
  (∀ s, ∃ t, exec .pciePerst s = .next t ∧ t.mem.linkUp = false ∧ Changes [.mem, .regs, .hif, .key, .obs] s t)

/-- R93: what each mailbox operation answers on either path, and what it does. -/
def Sys2Proof.Claims.MailboxOperations : Prop :=
  ∀ (p : MbxPath) (seq : Nat) (pec : Bool) (s : State),
    (MbxOpen 1 p seq 0 pec s → let s1 := mbxStart 1 p seq 0 s
      exec (.mbxIdentity p seq pec) s = .next (mbxReply p seq 0 (leBytes 4 glbId ++ leBytes 8 Config.serial
        ++ ((List.range 12).map fun n => leBytes 4 (fget (R.FRM_DIGEST_digest n) s1)).flatten
        ++ leBytes 4 (fget R.FRM_IMAGE_VER_image_version s1)) s1)) ∧
    (MbxOpen 2 p seq 0 pec s → let s1 := mbxStart 2 p seq 0 s
      exec (.mbxStatus p seq pec) s = .next (mbxReply p seq 0 (leBytes 8 s1.clk.stamp ++ leBytes 4 (wordAt .pf 0x40000 s1)
        ++ ((List.range 4).map fun b => leBytes 1 (baySt b s1)).flatten ++ leBytes 2 (fget (R.PWR_THERM_temp 0) s1)) s1)) ∧
    (∀ i, MbxOpen 3 p seq i pec s → let s1 := mbxStart 3 p seq i s
      (∀ e, logEntry i s1 = some e → exec (.mbxFaultlogRead p seq pec i) s = .next (mbxReply p seq 0 e s1)) ∧
      (logEntry i s1 = none → exec (.mbxFaultlogRead p seq pec i) s =
        .next (mbxReply p seq 2 (leBytes 4 (fget R.LDG_LOG_OLDEST_oldest s1)) s1))) ∧
    (MbxOpen 4 p seq 0 pec s →
      exec (.mbxKeyZeroise p seq pec 0) s = .next (mbxReply p seq 0 [] (zeroise .device 3 (mbxStart 4 p seq 0 s)))) ∧
    (∀ r < 16, MbxOpen 4 p seq (r + 1) pec s →
      exec (.mbxKeyZeroise p seq pec (r + 1)) s = .next (mbxReply p seq 0 [] (zeroise (.ring r) 3 (mbxStart 4 p seq (r + 1) s)))) ∧
    (∀ b < 4, MbxOpen 5 p seq b pec s →
      exec (.mbxBayQuarantine p seq pec b) s = .next (mbxReply p seq 0 [] (Machine.bayQuarantine b (mbxStart 5 p seq b s)))) ∧
    (∀ b < 4, MbxOpen 6 p seq b pec s → baySt b (mbxStart 6 p seq b s) = bsQuar →
      exec (.mbxBayWarmReset p seq pec b) s = .next (mbxReply p seq 0 [] (Machine.bayWarmReset b (mbxStart 6 p seq b s)))) ∧
    (MbxOpen 7 p seq 0 pec s → let s1 := mbxStart 7 p seq 0 s
      exec (.wdtKick p seq pec) s = .next (mbxReply p seq 0 [] { s1 with pwr := { s1.pwr with
        kicks := 0
        wdt := fget R.PWR_WDT_CFG_timeout s1 } }))

/-- R93, R94: over SMBus a request with a wrong PEC, or to another address, is ignored, and a control operation without smb_ctl is DENIED; a
go while another request is in progress collides. -/
def Sys2Proof.Claims.MailboxRefusals : Prop :=
  ∀ (seq arg op a : Nat) (pec : Bool) (p : MbxPath) (i : Instr) (s : State), (op, a, i) ∈ mbxRows p seq pec arg →
    (∀ addr, p = .smbus addr → pec = false ∨ addr ≠ smbAddress s → exec i s = .next s) ∧
    (p = .smbus (smbAddress s) → pec = true → 5 ≤ op → fon R.GLB_AON_CFG_smb_ctl (mbxRun s) = false →
      exec i s = .next (mbxReply p seq 10 [] (mbxRun s))) ∧
    (p = .config → fon R.MBX_CTRL_busy s = true → s.hif.mbx.req ≠ mbxReqOf op seq a → exec i s = .next (fset R.MBX_CTRL_collision 1 s))

/-- R93, R94: mailbox operations served and refused. -/
def Obligations.Mailbox : Prop := Claims.MailboxOperations ∧ Claims.MailboxRefusals


/-- R94, R487, R467, R115, R180: the SMBus response and recovery, the trace buffer's enable, staged lengths, the meter read. -/
def Sys2Proof.Claims.HostSideRows : Prop :=
  (∀ s, s.hif.mbx.smb ≠ [] → exec .smbusResponseRead s = .next { s with out := .smbus s.hif.mbx.smb :: s.out }) ∧
  (∀ s, s.hif.mbx.smb = [] → exec .smbusResponseRead s = .next { s with out := .smbus ((0x07 : Byte) :: List.replicate 71 0) :: s.out }) ∧
  (∀ s, exec .smbusBusRecovery s = .next (faultLog ⟨0, 7, 0, Config.wiringLog 0, 0, 0, 0, 0xFF, Config.wiringLog 1, 0⟩
    { s with hif := { s.hif with mbx := { s.hif.mbx with smb := [] } } }).2) ∧
  (∀ s, fon R.OBS_TRACE_CFG_enable s = false → traceFits (fget R.OBS_TRACE_BASE_base s) (fget R.OBS_TRACE_CFG_n s) s = true →
    exec .traceEnable s = .next (fset R.OBS_TRACE_CFG_enable 1 s)) ∧
  (∀ s, fon R.OBS_TRACE_CFG_enable s = false → traceFits (fget R.OBS_TRACE_BASE_base s) (fget R.OBS_TRACE_CFG_n s) s = false →
    exec .traceEnable s = .next (fset R.OBS_TRACE_CFG_refused 1 s)) ∧
  (∀ k d s, (evqGet k s).staged = some d → (evqGet k s).due = true → ∃ t, exec (.bufferResizeEffect 1 k) s = .next t ∧
    (evqGet k t).depth = d ∧ (evqGet k t).staged = none ∧ (evqGet k t).items = (evqGet k s).items.filter (fun e => decide (e.pos < d))) ∧
  (∀ id st s, tfind s.ctl.streams id = some st → st.due = true → exec (.bufferResizeEffect 0 id) s = .next (jrResize id s)) ∧
  (∀ id r s, tfind s.egr.rings id = some r → r.due = true → exec (.bufferResizeEffect 2 id) s = .next (rwResize id s)) ∧
  (∀ cl d s, (rqGet cl s).staged = some d → (rqGet cl s).due = true → (∀ e ∈ (rqGet cl s).q, e.pos < d) →
    exec (.bufferResizeEffect 3 cl) s = .next (rqPut cl { rqGet cl s with
      cap := d
      staged := none
      due := false } s)) ∧
  (∀ cl d s, (rqGet cl s).staged = some d → (rqGet cl s).due = true → (∃ e ∈ (rqGet cl s).q, d ≤ e.pos) →
    let kept := (rqGet cl s).q.filter fun e => decide (e.pos < d)
    exec (.bufferResizeEffect 3 cl) s = .next (rescan cl (cadd (clCnt cl 0x60) ((rqGet cl s).q.length - kept.length)
      (rqPut cl { rqGet cl s with
        q := kept
        cap := d
        staged := none
        due := false } s)))) ∧
  (∀ fn n s, selected fn (R.AUD_LEG_SEL_leg fn) 0 16384 s = some n → ∃ t, exec (.audLegMeterRead fn) s = .next t ∧
    t.hif.readData = meterWord n (Machine.seen s) ∧ holdLatch fn n t = some (ofS 16 (legAud n (Machine.seen s)).held))

/-- R72, R434, R94, R487, R467, R115, R180: resets of functions and what else the host does. -/
def Obligations.HostSide : Prop := Claims.FunctionResets ∧ Claims.HostSideRows


/-- R75, R491, R10: halves of 64-bit registers, and the write of a register by its fields. -/
def Obligations.RegisterAccesses : Prop :=
  (∀ (fn : Fn) (off v : Nat) (s : State), wideAt fn off s = some v → (regAt fn off s).map (·.pf) ≠ some 0x103004 →
    (regAt fn off s).map (·.pf) ≠ some 0x200048 → (regAt fn off s).map (·.pf) ≠ some 0x20004C →
    ∃ t, exec (.reg64HalfRead fn off) s = .next t ∧ t.hif.readData = v % 2 ^ 32 ∧
      tfind t.hif.latch (fnNum fn) = some (off, v / 2 ^ 32)) ∧
  (∀ (fn : Fn) (off v h : Nat) (s : State), off % 8 = 0 → wideAt fn (off + 4) s = none → wideAt fn off s = some v →
    (regAt fn (off + 4) s) = none → tfind s.hif.latch (fnNum fn) = some (off, h) →
    ∃ t, exec (.reg64HalfRead fn (off + 4)) s = .next t ∧ t.hif.readData = h ∧ tfind t.hif.latch (fnNum fn) = none) ∧
  (∀ (fn : Fn) (off v : Nat) (r : RegRef) (s : State), v < 2 ^ 32 → reaches fn off = true → regAt fn off s = some r → r.d.wide = true →
    ∃ t, exec (.reg64HalfWrite fn off v) s = .next t ∧ tfind t.hif.stage (fnNum fn) = some (off, v) ∧ Changes [.hif] s t) ∧
  (∀ (fn : Fn) (off lo v : Nat) (r : RegRef) (s : State), v < 2 ^ 32 → off % 8 = 0 → reaches fn (off + 4) = true → regAt fn (off + 4) s = none →
    regAt fn off s = some r → r.d.wide = true → tfind s.hif.stage (fnNum fn) = some (off, lo) →
    exec (.reg64HalfWrite fn (off + 4) v) s = .next (writeReg fn r (lo + v * 2 ^ 32)
      { s with hif := { s.hif with stage := terase s.hif.stage (fnNum fn) } })) ∧
  (∀ (fn : Fn) (off v : Nat) (r : RegRef) (s : State), v < 2 ^ 32 → reaches fn off = true → regAt fn off s = some r → r.d.wide = false →
    exec (.registerWrite fn off false v) s = .next (writeReg fn r v s)) ∧
  (∀ (fn : Fn) (off v : Nat) (r : RegRef) (s : State), v < 2 ^ 64 → reaches fn off = true → regAt fn off s = some r → r.d.wide = true →
    exec (.registerWrite fn off true v) s = .next (writeReg fn r v s)) ∧
  (∀ (addr v : Nat) (f : FDesc) (s : State), let fld : Fld := ⟨addr, f.lo, f.w, f.rst⟩
    let x := v / 2 ^ f.lo % 2 ^ f.w
    (f.ty = .rw → f.min ≤ x → x ≤ f.max → fget fld (fieldWrite addr v f s) = x) ∧
    (f.ty = .rw → (x < f.min ∨ f.max < x) → fieldWrite addr v f s = s) ∧
    (f.ty = .ro → fieldWrite addr v f s = s) ∧
    (f.ty = .w1c → fget fld s < 2 ^ f.w → ∀ i, (fget fld (fieldWrite addr v f s)).testBit i = ((fget fld s).testBit i && !x.testBit i)))

/-! ## Configuration commands: canvases, encodes, audio parameters, shapers, marks, telemetry, Bays (R160, R281, R326, R355, R464, R411) -/

namespace Sys2Proof.Claims
open Sys2Proof.Machine

/-- The command names a canvas identifier `id` of Ring `r` that its issuer may use. -/
def Canv (c : Cmd) (id r : Nat) (s : State) : Prop := id < 256 ∧ owns c.fn 4 id s = true ∧ ringOf 4 id s = some r

/-- The field ranges of CANVAS_ADMIT (R326). -/
def canvasOk (c : Cmd) : Prop :=
  (64 ≤ carg c 0x18 2 ∧ carg c 0x18 2 ≤ 3840 ∧ carg c 0x18 2 % 8 = 0) ∧ (64 ≤ carg c 0x1A 2 ∧ carg c 0x1A 2 ≤ 2160 ∧ carg c 0x1A 2 % 8 = 0) ∧
    (1 ≤ carg c 0x1C 1 ∧ carg c 0x1C 1 ≤ 60 ∧ 90000 % carg c 0x1C 1 = 0) ∧ (carg c 0x1D 1 < 8 ∧ carg c 0x1D 1 / 2 ≠ 3) ∧
    (carg c 0x1E 1 ≤ 2 ∨ carg c 0x1E 1 = 0xFF) ∧ carg c 0x1F 1 ≤ 1 ∧
    (carg c 0x20 2 < 1024 ∧ carg c 0x22 2 < 1024 ∧ carg c 0x24 2 < 1024) ∧ (1 ≤ carg c 0x26 1 ∧ carg c 0x26 1 ≤ 64) ∧ czero c 0x27 = true

/-- The entries of the ROI table that an ENCODE_ADMIT brings, `tab` the bytes it fetched. -/
def roiTable (tab : List Byte) : List (List Byte) := (List.range (tab.length / 16)).map fun i => slice tab (16 * i) 16

/-- What it makes of the ROI table in force: cleared, replaced, or kept. -/
def roiNow (c : Cmd) (tab : List Byte) : Option (List Roi) :=
  if bit (carg c 0x1B 1) 3 = true then some []
  else if bit (carg c 0x1B 1) 2 = true then some ((roiTable tab).map roiOf) else none

/-- The records of the parameter set `tab` that an AUD_SAFE_LOAD brings, and the bank it makes. -/
def safeRecs (c : Cmd) (tab : List Byte) : List (List Byte) :=
  groups (carg c 0x24 2 + 1) 32 (tab.drop (64 * b2n (bit (carg c 0x26 1) 0)))
def safeBank (c : Cmd) (x : ActAud) (tab : List Byte) : Bank :=
  bankLoad (if bit (carg c 0x26 1) 0 = true then some (hdrOf tab) else none) (safeRecs c tab) x.bank

end Sys2Proof.Claims

open Sys2Proof Sys2Proof.Machine Sys2Proof.Claims

/-- R326, R329, R330, R280, R281, R294: canvases admitted, laid out and released, encodes admitted, modified and released, key pictures. -/
def Sys2Proof.Claims.PictureCommands : Prop :=
  ∀ (c : Cmd) (s s1 : State) (b : Nat) (r : Nat),
    (∀ t, EntersNow 0x29 c s →
      Canv c c.target r s1 → liveCanvas c.target s1 = none → canvasOk c →
      canvasOpen c.target r (carg c 0x18 2) (carg c 0x1A 2) (carg c 0x1C 1) (carg c 0x1D 1)
        (if carg c 0x1E 1 = 0xFF then fallbackDefault s1 else carg c 0x1E 1) (decide (carg c 0x1F 1 = 1))
        [carg c 0x20 2, carg c 0x22 2, carg c 0x24 2] (carg c 0x26 1) none b s1 = .ok t →
      AtBoundary 0x29 c (.canvasAdmit c) b s s1 fun u => u = ended 0x29 c b s rspOk t) ∧
    (∀ x, EntersNow 0x2A c s →
      Canv c c.target r s1 → liveCanvas c.target s1 = some x → czero c 0x18 = true → canvasEncs c.target s1 = [] → x.fallback = none →
      AtBoundary 0x2A c (.canvasRelease c) b s s1 fun u => u = ended 0x2A c b s rspOk (canvasClose c.target x s1)) ∧
    (∀ x t tab, EntersNow 0x31 c s →
      let nl := carg c 0x24 1
      let nr := carg c 0x25 1
      let nc := carg c 0x26 1
      Canv c c.target r s1 → liveCanvas c.target s1 = some x → carg c 0x18 8 % 64 = 0 → nl ≤ 32 → nr ≤ 8 → nc ≤ 4 →
      czero c 0x27 = true → carg c 0x20 4 ≤ x.area64 * granule → (inFlight 0x31 c s).data = some tab →
      layoutCheck x tab nl nr nc s1 = none → canvasLayout c.target x (layoutOf tab nl nr nc) b s1 = .ok t →
      AtBoundary 0x31 c (.layoutSet c) b s s1 fun u => Completes 0x31 c ⟨0, 0, (x.gen + 1) % 65536⟩ b u ∧ u.vid = t.vid ∧ u.ctl = t.ctl) ∧
    (∀ x t tab, EntersNow 0x2B c s →
      let a := encArgs c
      c.target < 1024 → Canv c (c.target % 256) r s1 → liveCanvas (c.target % 256) s1 = some x → tfind s1.vid.encs c.target = none →
      bit (carg c 0x1B 1) 0 = false → encRange c = true → 90000 % x.fps = 0 → x.px ≤ 250000000 → levelOk a x.width x.height x.fps = true →
      modelOk a x.width x.height x.fps = true → (inFlight 0x2B c s).data = some tab →
      (roiTable tab).all roiOk = true → encOpen c.target a ((roiNow c tab).getD []) x b s1 = .ok t →
      AtBoundary 0x2B c (.encodeAdmit c) b s s1 fun u => Completes 0x2B c ⟨0, 0, 0⟩ b u ∧ u.vid = t.vid ∧ u.ctl = t.ctl) ∧
    (∀ x e tab, EntersNow 0x2B c s →
      let a := encArgs c
      c.target < 1024 → Canv c (c.target % 256) r s1 → liveCanvas (c.target % 256) s1 = some x → tfind s1.vid.encs c.target = some e →
      e.stop = none → bit (carg c 0x1B 1) 0 = true → encRange c = true → encFixed e.cfg a = true → 90000 % x.fps = 0 →
      (inFlight 0x2B c s).data = some tab → (roiTable tab).all roiOk = true →
      AtBoundary 0x2B c (.encodeAdmit c) b s s1 fun u => u = ended 0x2B c b s rspOk
        (encPut c.target { e with next := e.next ++ [(b, a, roiNow c tab)] } s1)) ∧
    (∀ e, EntersNow 0x2C c s →
      c.target < 1024 → Canv c (c.target % 256) r s1 → tfind s1.vid.encs c.target = some e → e.stop = none → czero c 0x18 = true →
      AtBoundary 0x2C c (.encodeRelease c) b s s1 fun u => u = ended 0x2C c b s rspOk (encStop c.target b e s1)) ∧
    (∀ e, EntersNow 0x32 c s →
      c.target < 1024 → Canv c (c.target % 256) r s1 → tfind s1.vid.encs c.target = some e → e.stop = none → carg c 0x18 1 ≤ 1 →
      czero c 0x19 = true → AtBoundary 0x32 c (.keypicRequest c) b s s1 fun u => Completes 0x32 c ⟨0, 0, 0⟩ b u ∧
        u.vid = (keyRequest c.target b (decide (carg c 0x18 1 = 1)) s1).vid)

/-- R169 to R171: a parameter set loaded into an Act's idle bank, which becomes the active one; a second load at the same boundary goes
into the bank that the first made active. -/
def Sys2Proof.Claims.AudioParameters : Prop :=
  ∀ (c : Cmd) (s s1 : State) (b ring : Nat) (a : Act) (tab : List Byte), EntersNow 0x30 c s →
    let id := c.target
    let x := actAud id s1
    let k := safeBank c x tab
    let again := decide (x.swapAt = some b)
    let active := if again = true then x.active else if x.active = 0 then 1 else 0
    let gen := if again = true then x.gen else (x.gen + 1) % 65536
    let y : ActAud := { x with
      bankA := if active = 0 then k else x.bankA
      bankB := if active = 0 then x.bankB else k
      active := active
      gen := gen
      swapAt := some b }
    Mine c 1 actLimit id ring s1 → tfind s1.ctl.acts id = some a → carg c 0x20 4 = 64 * b2n (bit (carg c 0x26 1) 0) + 32 * carg c 0x24 2 →
    carg c 0x18 8 % 64 = 0 → carg c 0x24 2 ≤ 16384 → carg c 0x26 1 ≤ 1 → czero c 0x27 = true →
    (inFlight 0x30 c s).data = some tab →
    (∀ t ∈ safeRecs c tab, ∃ l, tfind s1.ctl.legs (le t 0 2) = some l ∧ l.act = id ∧ recOk t l.acodec = true) →
    (bit (carg c 0x26 1) 0 = true → hdrOk tab a.tpl = true) → (k.recs.filter fun p => p.2.pinned).length ≤ k.hdr.topN →
    (settingNow id s1 < settingNow id (actAudPut id y s1) →
      fits a.ring a.bay (chargeOf 0 (settingNow id (actAudPut id y s1) - settingNow id s1)) s1 = true) →
    AtBoundary 0x30 c (.audSafeLoad c) b s s1 fun u => Completes 0x30 c ⟨0, 0, active + gen * 65536⟩ b u ∧
      (actAud id u).bankA = y.bankA ∧ (actAud id u).bankB = y.bankB ∧ (actAud id u).active = active ∧ (actAud id u).gen = gen

/-- R355, R320, R465, R410, R139: shapers and paths, rewind marks, telemetry, the return of a Bay, the acknowledge of a zeroisation. -/
def Sys2Proof.Claims.OtherConfigCommands : Prop :=
  ∀ (c : Cmd) (s s1 : State) (b : Nat),
    (∀ l e, EntersNow 0x33 c s →
      c.target < 16384 → owns c.fn 0 c.target s1 = true → tfind s1.ctl.legs c.target = some l → tfind s1.egr.legs c.target = some e →
      (∀ sh, carg c 0x18 1 = 0 → shaperArgs c l = some sh →
        AtBoundary 0x33 c (.shaperSet c) b s s1 fun u => u = ended 0x33 c b s rspOk (egrLegPut c.target { e with sh := sh } s1)) ∧
      (∀ p, carg c 0x18 1 = 1 → pathArgs c s1 = some p →
        AtBoundary 0x33 c (.shaperSet c) b s s1 fun u => u = ended 0x33 c b s rspOk (egrLegPut c.target { e with path := some p } s1)) ∧
      (∀ st, carg c 0x18 1 = 2 → tfind s1.ctl.streams (carg c 0x1A 2) = some st → st.leg = c.target → st.dir = 1 → carg c 0x1C 1 < 128 →
        ¬ (64 ≤ carg c 0x1C 1 ∧ carg c 0x1C 1 ≤ 95) → carg c 0x19 1 = 0 → czero c 0x1D = true →
        AtBoundary 0x33 c (.shaperSet c) b s s1 fun u => u = ended 0x33 c b s rspOk
          (egrStrPut (carg c 0x1A 2) { egrStr (carg c 0x1A 2) s1 with pt := carg c 0x1C 1 } s1)) ∧
      (∀ n, carg c 0x18 1 = 3 → carg c 0x19 1 = n → 1 ≤ n → n ≤ 32 → czero c (0x1A + n) = true →
        AtBoundary 0x33 c (.shaperSet c) b s s1 fun u => u = ended 0x33 c b s rspOk (egrLegPut c.target { e with cname := cargs c 0x1A n } s1))) ∧
    (∀ st r, EntersNow 0x38 c s →
      let m := carg c 0x18 1
      let seq := egrIndex st (egrStr c.target s1).count % 2 ^ 32
      c.target < 65536 → owns c.fn 2 c.target s1 = true → tfind s1.ctl.streams c.target = some st → tfind s1.egr.rings c.target = some r →
      st.dir = 1 → m ≤ 3 → czero c 0x1A = true →
      (carg c 0x19 1 = 0 → AtBoundary 0x38 c (.rewindMark c) b s s1 fun u => Completes 0x38 c ⟨0, 0, seq⟩ b u ∧
        tfind u.egr.rings c.target = some { r with marks := tset r.marks m seq }) ∧
      (carg c 0x19 1 = 1 → AtBoundary 0x38 c (.rewindMark c) b s s1 fun u => Completes 0x38 c ⟨0, 0, 0⟩ b u ∧
        tfind u.egr.rings c.target = some { r with marks := terase r.marks m })) ∧
    (EntersNow 0x42 c s →
      let p := if carg c 0x28 4 = 0 then telemetryPeriod s1 else carg c 0x28 4
      let fn := c.fn
      carg c 0x26 2 = 0 → czero c 0x30 = true →
      (carg c 0x25 1 = 0 → AtBoundary 0x42 c (.telemetrySet c) b s s1 fun u => u = ended 0x42 c b s rspOk { s1 with obs := { s1.obs with tels := terase s1.obs.tels (fnNum fn) } }) ∧
      (carg c 0x25 1 ≠ 0 → carg c 0x18 8 % 4096 = 0 → carg c 0x20 4 % 4096 = 0 → 4096 ≤ carg c 0x20 4 → carg c 0x20 4 ≤ 2 ^ 24 →
        1 ≤ carg c 0x24 1 → carg c 0x24 1 ≤ 8 → carg c 0x25 1 < 128 → (bit (carg c 0x25 1) 6 = true → fn = .pf) → carg c 0x28 4 ≤ 2000000 →
        0 < p → carg c 0x2C 4 < p →
        let tel : Tel := ⟨carg c 0x18 8, carg c 0x20 4, carg c 0x24 1, carg c 0x25 1, p, carg c 0x2C 4, 0, 0, 0⟩
        let s2 := fset (R.OBS_TEL_HEAD_head fn) 0 (fset (R.OBS_TEL_HEAD_next fn) 0 (fset (R.OBS_TEL_HEAD_phase fn) 1 s1))
        AtBoundary 0x42 c (.telemetrySet c) b s s1 fun u => u = ended 0x42 c b s rspOk { s2 with obs := { s1.obs with tels := tset s1.obs.tels (fnNum fn) tel } })) ∧
    (EntersNow 0x53 c s →
      c.target < 4 → czero c 0x18 = true → baySt c.target s1 = bsQuar → fon (R.FLT_BAY_STATUS_tested c.target) s1 = true →
      AtBoundary 0x53 c (.bayReturn c) b s s1 fun u => u = ended 0x53 c b s rspOk (fwReturn c.target (baySet c.target bsIn bcAdmin 0 s1))) ∧
    (s.key.zreq = true → phase s ≠ phStopping → exec .zeroiseAck s = .next { s with key := { s.key with zreq := false } }) ∧
    (s.key.zreq = true → phase s = phStopping → s.pwr.save.isSome = true →
      exec .zeroiseAck s = .next (phaseTo phSaving { s with key := { s.key with zreq := false } })) ∧
    (s.key.zreq = true → phase s = phStopping → s.pwr.save = none →
      exec .zeroiseAck s = .next (phaseTo phStopped (fset R.LDG_STATUS_saved_last_off 0 { s with key := { s.key with zreq := false } })))

/-- R81 and the rules of each command: those that set parameters of pictures, audio and the rest. -/
def Obligations.ParameterCommands : Prop := Claims.PictureCommands ∧ Claims.AudioParameters ∧ Claims.OtherConfigCommands


/-! ## The key store and the side-channel measures (spec/05_cipher_keys.md) -/

namespace Sys2Proof.Claims
open Sys2Proof.Machine

/-- The request a go of KEY_LOAD_CTRL queues: op, slot and profile, and the staged words as they stand; the staging is discarded. -/
def keyAsked (fn : Fn) (op : Nat) (s t : State) : Prop :=
  t.key.queue = s.key.queue ++ [fn] ∧
    keyStage fn t = ⟨[], some ⟨op, fget (R.KEY_LOAD_SLOT_slot fn) s, fget (R.KEY_LOAD_SLOT_profile fn) s, (keyStage fn s).words⟩,
      (keyStage fn s).res⟩ ∧
    fget (R.KEY_LOAD_STATUS_written fn) t = 0 ∧ fget (R.KEY_LOAD_STATUS_busy fn) t = 1 ∧ t.key.slots = s.key.slots ∧
    Changes [.regs, .key] s t

/-- The key store's request ended with a result: it left the queue, busy is clear; what the function has staged meanwhile stays. -/
def keyEnded (fn : Fn) (rest : List Fn) (res : Nat) (s t : State) : Prop :=
  t.key.queue = rest ∧ (keyStage fn t).req = none ∧ (keyStage fn t).words = (keyStage fn s).words ∧
    fget (R.KEY_LOAD_STATUS_written fn) t = fget (R.KEY_LOAD_STATUS_written fn) s ∧ fget (R.KEY_LOAD_STATUS_busy fn) t = 0 ∧
    fget (R.KEY_LOAD_STATUS_result fn) t = res ∧ t.key.kr0 = s.key.kr0 ∧ t.key.kr1 = s.key.kr1

/-- What the staged words of a load carry: the master key and salt of lengths `kl` and `sl`, the rest of the words zero. -/
def stagedKey (k : KeyReq) (kl : Nat) : List Nat := (stageBytes k 0 8).take kl
def stagedSalt (k : KeyReq) (sl : Nat) : List Nat := (stageBytes k 8 12).take sl
def stagedClean (k : KeyReq) (kl sl : Nat) : Prop :=
  (∀ b ∈ (stageBytes k 0 8).drop kl, b = 0) ∧ ∀ b ∈ (stageBytes k 8 12).drop sl, b = 0

end Sys2Proof.Claims

open Sys2Proof Sys2Proof.Machine Sys2Proof.Claims

/-- R123, R125: words staged; a go takes them and queues its request or, while the function is busy, is ignored with collision; abort
discards. -/
def Sys2Proof.Claims.KeyStaging : Prop :=
  ∀ (fn : Fn) (s : State),
    (∀ n v, n < 12 → v < 2 ^ 32 → fget (R.KEY_LOAD_STATUS_written fn) s < 2 ^ 12 → ∃ t, exec (.keyLoadDataWrite fn n v) s = .next t ∧
      tfind (keyStage fn t).words n = some v ∧ (∀ m, m ≠ n → tfind (keyStage fn t).words m = tfind (keyStage fn s).words m) ∧
      (∀ m, (fget (R.KEY_LOAD_STATUS_written fn) t).testBit m = ((fget (R.KEY_LOAD_STATUS_written fn) s).testBit m || decide (m = n))) ∧
      t.key.slots = s.key.slots ∧ Changes [.regs, .key] s t) ∧
    (fon (R.KEY_LOAD_STATUS_busy fn) s = false →
      (∃ t, exec (.keyLoad fn) s = .next t ∧ keyAsked fn 1 s t) ∧ (∃ t, exec (.keyErase fn) s = .next t ∧ keyAsked fn 2 s t) ∧
      (∃ t, exec (.keyAbort fn) s = .next t ∧ (keyStage fn t).words = [] ∧ fget (R.KEY_LOAD_STATUS_written fn) t = 0 ∧
        t.key.queue = s.key.queue ∧ t.key.slots = s.key.slots)) ∧
    (fon (R.KEY_LOAD_STATUS_busy fn) s = true →
      ∀ i ∈ [Instr.keyLoad fn, .keyErase fn, .keyAbort fn], exec i s = .next (fset (R.KEY_LOAD_STATUS_collision fn) 1 s))

/-- R118 to R122, R124, R125: a load that passes its checks fills the slot, its generation one more; an erase empties an unbound one; a
request that fails a check changes no slot. -/
def Sys2Proof.Claims.KeyOperations : Prop :=
  ∀ (fn : Fn) (rest : List Fn) (op slot profile : Nat) (words : Tbl Nat) (s : State), s.key.queue = fn :: rest →
    let k : KeyReq := ⟨op, slot, profile, words⟩
    (keyStage fn s).req = some k →
    (∀ kl sl, op = 1 → owns fn 3 slot s = true → profileLens profile = some (kl, sl) → 12 ≤ words.length →
      stagedClean k kl sl → keyValid slot s = false →
      ∃ t, exec .keyOpComplete s = .next t ∧ keyEnded fn rest 0 s t ∧
        keySlot slot t = ⟨true, profile, ((keySlot slot s).gen + 1) % 65536, kcvOf (stagedKey k kl), stagedKey k kl, stagedSalt k sl,
          sessionKeys profile (stagedKey k kl) (stagedSalt k sl)⟩ ∧
        fget (R.KEY_LOAD_KCV_kcv fn) t = kcvOf (stagedKey k kl) % 2 ^ 24 ∧ fget R.CIPH_SCA_CFG_dummy_en t = 1 ∧
        fget R.CIPH_SCA_CFG_shuffle_en t = 1 ∧ (∀ m, m ≠ slot → keySlot m t = keySlot m s)) ∧
    (op = 2 → owns fn 3 slot s = true → keyBound slot s = false → keyValid slot s = true →
      ∃ t, exec .keyOpComplete s = .next t ∧ keyEnded fn rest 0 s t ∧ keySlot slot t = ⟨false, 0, (keySlot slot s).gen, 0, [], [], []⟩ ∧
        (∀ m, m ≠ slot → keySlot m t = keySlot m s)) ∧
    (∀ res, (op = 1 ∧ res = keyLoadCheck fn k slot profile s ∨ op = 2 ∧ res = keyEraseCheck fn slot s) → res ≠ 0 →
      ∃ t, exec .keyOpComplete s = .next t ∧ keyEnded fn rest res s t ∧ t.key.slots = s.key.slots ∧ cget 0x80308 t = min (2 ^ 64 - 1) (cget 0x80308 s + 1))

/-- R137, R138, R142: a slot in error is emptied and unreferenced, alone; clearing a measure while a slot is valid is ignored and reported;
an entropy failure is reported and the measures stay. -/
def Sys2Proof.Claims.KeyFaults : Prop :=
  ∀ (s : State),
    (∀ slot, ∃ u, exec (.keySlotError slot) s =
        .next (raise (ev EV_KEY_ZEROISED 0 (ringOf 3 slot s) 0 0 (2 + 4 * 16 + slot % 65536 * 65536) u) u) ∧
      fget R.KEY_ZEROISE_STATUS_cause u = 4 ∧ keySlot slot u = ⟨false, 0, (keySlot slot s).gen, 0, [], [], []⟩ ∧
      (∀ m, m ≠ slot → keySlot m u = keySlot m s) ∧
      ∀ id st, tfind u.ctl.streams id = some st → st.uses slot = false ∧
        ∃ st0, tfind s.ctl.streams id = some st0 ∧ ∀ m, m ≠ slot → st.uses m = st0.uses m) ∧
    (∀ v, keyCount s ≠ 0 → (v.testBit 0 = false ∨ v.testBit 1 = false) →
      exec (.scaCfgWrite v) s = .next (raiseUnit EV_SCA_REFUSED 0 0 (cinc 0xC0010 s))) ∧
    (∀ v, (keyCount s = 0 ∨ v.testBit 0 = true ∧ v.testBit 1 = true) → ∃ t, exec (.scaCfgWrite v) s = .next t ∧
      fon R.CIPH_SCA_CFG_dummy_en t = v.testBit 0 ∧ fon R.CIPH_SCA_CFG_shuffle_en t = v.testBit 1 ∧ Changes [.regs] s t) ∧
    (∃ u, exec .entropyHealthFail s = .next (raiseUnit EV_RNG_FAIL 0 0 u) ∧ fget R.CIPH_RNG_STATUS_fail u = 1 ∧
      fget R.CIPH_RNG_STATUS_healthy u = 0 ∧ fget R.CIPH_SCA_CFG_dummy_en u = fget R.CIPH_SCA_CFG_dummy_en s ∧
      fget R.CIPH_SCA_CFG_shuffle_en u = fget R.CIPH_SCA_CFG_shuffle_en s ∧ u.key = s.key)

/-- R118 to R125, R137, R138, R142: keys staged, loaded and erased; faults of the key store. -/
def Obligations.KeyStore : Prop := Claims.KeyStaging ∧ Claims.KeyOperations ∧ Claims.KeyFaults


/-! ## Time: blocks, PTP, periodic rows (R7, R8, R98 to R101, R363, R376, R382, R464 to R466) -/

/-- R7, R8, R25, R100: a block boundary begins the next block, at its first sample; the first block after boot has the stamp R100 gives. -/
def Sys2Proof.Claims.BlockBoundaries : Prop :=
  ∀ (items : List ItemDesc) (s : State),
    (phase s = phRun → ∃ t, exec (.blockStart items) s = .next t ∧ t.clk.stamp = stampAdd s.clk.stamp 1 ∧ t.clk.offset = 0 ∧
      t.clk.running = true ∧ t.pending = s.pending) ∧
    (phase s = phPorts → ∃ t, exec (.blockStart items) s = .next t ∧ t.clk.stamp = firstStamp (firstAlign s) % 2 ^ 48 ∧ t.clk.offset = 0 ∧
      t.clk.running = true)

/-- R98 to R101: PTP time set, stepped, read; its pulse; the change of lock. -/
def Sys2Proof.Claims.PtpTime : Prop :=
  ∀ (s : State),
    (∀ v, v < 2 ^ 48 → s.clk.heldNs < 1000000000 → s.clk.offset = 0 → ∃ t, exec (.ptpTimeSet v) s = .next t ∧
      ptpNs t = v * 1000000000 + s.clk.heldNs ∧ fget R.ETH_PTP_STATUS_time_valid t = 1 ∧ t.clk.stamp = s.clk.stamp) ∧
    (∀ v, 0 ≤ (s.clk.ptp : Int) + toS 64 v * 65536 → ∃ t, exec (.ptpStep v) s = .next t ∧
      (t.clk.ptp : Int) = s.clk.ptp + toS 64 v * 65536 ∧ t.clk.stamp = s.clk.stamp ∧ Changes [.clk, .regs] s t) ∧
    (∃ t, exec .ptpNsRead s = .next t ∧ t.hif.readData = ptpNs s % 1000000000 ∧ t.clk.latchSec = ptpNs s / 1000000000 % 2 ^ 48 ∧
      Changes [.clk, .hif] s t) ∧
    (fon R.ETH_PTP_CFG_pps_en s = true → exec .ptpPps s = .next { s with out := .pps (ptpNs s / 1000000000) :: s.out }) ∧
    (fon R.ETH_PTP_CFG_pps_en s = false → exec .ptpPps s = .next s) ∧
    (fon R.ETH_PTP_STATUS_locked s = false → ptpFollows s = true → (ptpPhase s).natAbs < 1000 → exec .ptpLockChange s =
      .next (raiseUnit EV_PTP_LOCKED 0 (ofS 32 (ptpPhase s)) (fset R.ETH_PTP_STATUS_locked 1 s))) ∧
    (fon R.ETH_PTP_STATUS_locked s = true → (ptpFollows s = false ∨ 1000 ≤ (ptpPhase s).natAbs) → exec .ptpLockChange s =
      .next (raiseUnit EV_PTP_UNLOCKED 0 (ofS 32 (ptpPhase s)) (fset R.ETH_PTP_STATUS_locked 0 s)))

/-- R363, R376, R382, R465, R466: what falls due at its time: a telemetry snapshot written or dropped, a leg's report, the stamp floor, a
channel's pause. -/
def Sys2Proof.Claims.PeriodicRows : Prop :=
  ∀ (s : State),
    (∀ fn t, tfind s.obs.tels (fnNum fn) = some t → s.clk.stamp % t.period = t.phase → t.slots ≤ 8 →
      let next := fget (R.OBS_TEL_HEAD_next fn) s
      let n := 2 ^ t.slots
      let a := t.addr + next * t.size
      (((next + 1) % n = fget (R.OBS_TEL_HEAD_head fn) s % n ∨ hostOk a t.size s = false) →
        exec (.telemetrySnapshot fn) s = .next (telDrop fn t s)) ∧
      ((next + 1) % n ≠ fget (R.OBS_TEL_HEAD_head fn) s % n → hostOk a t.size s = true → ∃ u, exec (.telemetrySnapshot fn) s = .next u ∧
        hostRead a 6 u = leBytes 4 0x4D4C4554 ++ leBytes 2 0x0100 ∧ fget (R.OBS_TEL_HEAD_next fn) u = (next + 1) % n ∧
        tfind u.obs.tels (fnNum fn) = some { t with
          seq := (t.seq + 1) % 2 ^ 32
          dropped := 0 })) ∧
    (∀ leg e l, tfind s.egr.legs leg = some e → tfind s.ctl.legs leg = some l → l.st = .active → e.path.isSome = true →
      s.clk.stamp % e.sh.rtcp = leg % e.sh.rtcp → e.rtcpAt ≠ some s.clk.stamp →
      exec (.rtcpReportSend leg) s = .next (rtcpReport leg e s)) ∧
    (s.clk.running = true → floorDue s = true → ∃ u h, exec .stampFloorWrite s = .next u ∧ (hdrNewest s = some true ∧ u.ldg.hdrB = h ∧ u.ldg.hdrA = s.ldg.hdrA ∨
        hdrNewest s ≠ some true ∧ u.ldg.hdrA = h ∧ u.ldg.hdrB = s.ldg.hdrB) ∧ h.ok = true ∧
      h.floor = some ((s.clk.stamp + 65536) % 2 ^ 48) ∧ h.seq = ((hdrNow s).seq + 1) % 2 ^ 32) ∧
    (floorDue s = false → exec .stampFloorWrite s = .next s) ∧
    (∀ ch ns, ch < 12 → ns ≤ 250 → chanUp ch s = true → s.clk.stamp < 2 ^ 48 → s.clk.stamp % 64 = 5 * ch % 64 → ∃ t,
      exec (.ddrRetrainPause ch ns) s = .next t ∧ fget (R.DDR_CH_RETRAIN_ns ch) t = ns ∧
      fget (R.DDR_CH_RETRAIN_stamp ch) t = s.clk.stamp ∧ cget (chanCnt ch 0x78) t = min (2 ^ 64 - 1) (cget (chanCnt ch 0x78) s + 1) ∧
      Changes [.regs, .cnt] s t)

/-- R7, R8, R25, R98 to R101, R363, R376, R382, R465, R466: blocks, PTP time, what recurs. -/
def Obligations.Clockwork : Prop := Claims.BlockBoundaries ∧ Claims.PtpTime ∧ Claims.PeriodicRows


/-! ## Ethernet links and packet ingress (spec/04_packet_ingress.md, spec/05_cipher_keys.md R127 to R131) -/

namespace Sys2Proof.Claims
open Sys2Proof.Machine

/-- The state of a link (R97): 0 disabled, 1 acquire, 2 train, 3 lock, 4 aligned, 5 up. -/
def linkSt (link : Nat) (s : State) : Nat := fget (R.ETH_LINK_STATUS_state link) s

/-- A frame counted as received by its port. -/
def counted (link : Nat) (bytes : List Byte) (s : State) : State := cadd (ethCnt link 8) (bytes.length + 4) (cinc (ethCnt link 0) s)

/-- The frame as the units behind its port see it: the block and sample of its receive timestamp, its link, the Bay it is steered to (R99,
R102). -/
def arrived (link : Nat) (bytes : List Byte) (sec ns : Nat) (s : State) : Frame :=
  ⟨bytes, (arrivalOf sec ns s).1, (arrivalOf sec ns s).2, sec, ns, link, steerBay (steerBucket (parseFrame bytes)) s⟩

/-- A leg with a packet's bytes and one packet taken from its buckets (R108), and a leg put in its place. -/
def paid (plen : Nat) (l : Leg) : Leg := { l with
  byteLvl := l.byteLvl - 16 * plen
  pktLvl := l.pktLvl - 2000 }
def putLeg (leg : Nat) (l : Leg) (s : State) : State := { s with ctl := { s.ctl with legs := tset s.ctl.legs leg l } }

/-- A held packet, the first of its stream. -/
def Foremost (n : Nat) (h : Held) (s : State) : Prop :=
  s.ctl.held.find? (fun x => decide (x.id = n)) = some h ∧ s.ctl.held.find? (fun x => decide (x.stream = h.stream)) = some h

/-- The answer of packet `n` noted. -/
def noted (n : Nat) (s : State) : State := { s with ctl := { s.ctl with held := s.ctl.held.map fun x => if x.id = n then { x with
  answered := true } else x } }

end Sys2Proof.Claims

open Sys2Proof Sys2Proof.Machine Sys2Proof.Claims

/-- R97: the bring-up of a link, its timeouts, its faults, its disabling. -/
def Obligations.LinkStates : Prop :=
  ∀ (link : Nat) (s : State), link < 8 →
    (linkSt link s = 0 → link < linkCount (fget R.ETH_MODE_eth_mode s) → ∃ t, exec (.ethLinkEnable link) s = .next t ∧ linkSt link t = 1 ∧
      fget (R.ETH_LINK_CFG_enable link) t = 1 ∧ Changes [.regs] s t) ∧
    (cget (ethCnt link 0x40) s < 2 ^ 64 → ∃ t, exec (.ethLinkDisable link) s = .next t ∧ linkSt link t = 0 ∧
      fget (R.ETH_LINK_CFG_enable link) t = 0 ∧ Changes [.regs, .cnt] s t ∧
      cget (ethCnt link 0x40) t = min (2 ^ 64 - 1) (cget (ethCnt link 0x40) s + b2n (linkUp link s))) ∧
    (linkSt link s = 1 → exec (.linkSignalDetect link) s = .next (linkTo link 2 s) ∧
      exec (.linkAcquireTimeout link) s = .next (cinc (ethCnt link 0x40) s)) ∧
    (linkSt link s = 2 → exec (.linkTrainDone link) s = .next (linkTo link 3 s) ∧
      exec (.linkTrainTimeout link) s = .next (linkTo link 1 s)) ∧
    (linkSt link s = 3 → exec (.linkLockTimeout link) s = .next (linkTo link 1 s) ∧
      ∀ pol rev, pol < 2 ^ linkLanes (fget R.ETH_MODE_eth_mode s) → ∃ t, exec (.linkLock link pol rev) s = .next t ∧
        linkSt link t = 4 ∧ fget (R.ETH_LINK_STATUS_pol_inv link) t = pol ∧ fon (R.ETH_LINK_STATUS_reversed link) t = rev ∧
        Changes [.regs] s t) ∧
    (linkSt link s = 4 → ∃ u, exec (.fecCodewordLock link) s = .next (raiseUnit EV_LINK_UP (linkUnit link u) (link % 8 + linkFec link u * 16
        + fget (R.ETH_LINK_STATUS_reversed link) u * 64 + fget (R.ETH_LINK_STATUS_pol_inv link) u * 256) u) ∧
      linkSt link u = 5 ∧ fget (R.ETH_LINK_STATUS_remote_fault link) u = 0 ∧ Changes [.regs] s u) ∧
    (∀ cause, linkSt link s = 5 → cause ≤ 2 → ∃ u, exec (.linkFault link cause) s =
        .next (raiseUnit EV_LINK_DOWN (linkUnit link u) (link % 8 + cause % 4 * 16) u) ∧
      linkSt link u = 1 ∧ fget (R.ETH_LINK_STATUS_remote_fault link) u = b2n (decide (cause = 1)) ∧
      cget (ethCnt link 0x40) u = min (2 ^ 64 - 1) (cget (ethCnt link 0x40) s + 1) ∧ Changes [.regs, .cnt] s u) ∧
    (∀ n, linkSt link s = 5 → fget (R.ETH_LINK_CFG_ser_thresh link) s < n → ∃ u, exec (.linkDegradeDetect link n) s =
        .next (raiseUnit EV_LINK_DEGRADED (linkUnit link s) (link % 8 + n * 2 ^ 32) u) ∧
      fget (R.ETH_LINK_STATUS_degraded link) u = 1 ∧ linkSt link u = 5 ∧ Changes [.regs] s u)

/-- R96 to R103, R116, R443: what a port does with a frame: dropped by cause and counted, given to the cascade, lost to a full replay store, or
classified. -/
def Sys2Proof.Claims.FramesReceived : Prop :=
  ∀ (link : Nat) (bytes : List Byte) (sec ns eng : Nat) (s : State), linkUp link s = true →
    exec (.frameReceive link bytes false sec ns eng) s = .next (cinc (ethCnt link 0x10) s) ∧
    (9728 < bytes.length → exec (.frameReceive link bytes true sec ns eng) s = .next (cinc (ethCnt link 0x18) s)) ∧
    (bytes.length < 60 → exec (.frameReceive link bytes true sec ns eng) s = .next (cinc (ethCnt link 0x20) s)) ∧
    (60 ≤ bytes.length → bytes.length ≤ 9728 → be bytes 12 2 = 0x8808 → (be bytes 14 2 = 1 ∨ be bytes 14 2 = 0x101) →
      exec (.frameReceive link bytes true sec ns eng) s = .next (cinc (ethCnt link 0x38) s)) ∧
    (60 ≤ bytes.length → bytes.length ≤ 9728 → ¬(be bytes 12 2 = 0x8808 ∧ (be bytes 14 2 = 1 ∨ be bytes 14 2 = 0x101)) →
      let p := parseFrame bytes
      let u := counted link bytes s
      let f := arrived link bytes sec ns u
      let full := 1572864 < replayUsed (linkPort link s) s + bytes.length
      (casAddressed p s = true → exec (.frameReceive link bytes true sec ns eng) s = .next (casIn p.payload u)) ∧
      (casAddressed p s = false → full → exec (.frameReceive link bytes true sec ns eng) s = .next (replayDrop f.bay p u)) ∧
      (casAddressed p s = false → ¬full → p.kind = .bad → exec (.frameReceive link bytes true sec ns eng) s = .next (cinc (ingCnt f.bay 0x20) u)) ∧
      (casAddressed p s = false → ¬full → p.kind = .nonIp → exec (.frameReceive link bytes true sec ns eng) s = .next (excDeliver .pf 6 none f u)) ∧
      (casAddressed p s = false → ¬full → p.kind = .frag → exec (.frameReceive link bytes true sec ns eng) s = .next (excDeliver .pf 7 none f u)) ∧
      (casAddressed p s = false → ¬full → p.kind = .ptp → exec (.frameReceive link bytes true sec ns eng) s = .next (excDeliver .pf 8 none f u)) ∧
      (∀ leg, casAddressed p s = false → ¬full → p.kind = .udp → localLeg p s = some leg →
        exec (.frameReceive link bytes true sec ns eng) s = .next (mediaIn leg p.payload f eng u)))

/-- R103 to R105, R108 to R110, R128, R129: a frame of a leg is charged to its buckets as they stand in its arrival block; then a STUN or DTLS
packet goes to the leg's Ring, an RTP or RTCP packet of an active leg and a bound SSRC is held for its verdict. -/
def Sys2Proof.Claims.MediaPackets : Prop :=
  (∀ (leg plen flen arrival : Nat) (l : Leg) (s : State), tfind s.ctl.legs leg = some l →
    (l.asOf arrival s = none → 16 * plen ≤ l.byteLvl → 2000 ≤ l.pktLvl →
      charge leg plen flen arrival s = (true, putLeg leg (paid plen l) s)) ∧
    (∀ x, l.asOf arrival s = some x → 16 * plen ≤ x.byteLvl → 2000 ≤ x.pktLvl →
      charge leg plen flen arrival s = (true, putLeg leg ((paid plen x).refill s) s)) ∧
    (((l.asOf arrival s).getD l).byteLvl < 16 * plen ∨ ((l.asOf arrival s).getD l).pktLvl < 2000 →
      charge leg plen flen arrival s = (false, policed leg flen l s))) ∧
  (∀ (leg : Nat) (p : List Byte) (f : Frame) (eng : Nat) (l : Leg) (s u : State), tfind s.ctl.legs leg = some l → 12 ≤ p.length →
    (l.st ≠ .draining → charge leg p.length f.bytes.length f.arrival s = (true, u) →
      (b8 p 0 < 4 → mediaIn leg p f eng s = excDeliver (.vf l.ring) 1 (some leg) f u) ∧
      (20 ≤ b8 p 0 → b8 p 0 < 64 → mediaIn leg p f eng s = excDeliver (.vf l.ring) 2 (some leg) f u)) ∧
    (b8 p 0 / 64 = 2 → ∀ rtcp, rtcp = decide (192 ≤ b8 p 1 ∧ b8 p 1 ≤ 223) →
      let s1 := cinc (ingCnt f.bay (if rtcp then 8 else 0)) s
      ((l.st ≠ .active ∨ repOf l.act s ≠ none) → mediaIn leg p f eng s = cinc (legCnt leg 0x10) s1) ∧
      (l.st = .active → repOf l.act s = none →
        (charge leg p.length f.bytes.length f.arrival s1 = (false, u) → mediaIn leg p f eng s = u) ∧
        (∀ id, rtcp = true → charge leg p.length f.bytes.length f.arrival s1 = (true, u) → findSsrc leg (be p 4 4) u = some id →
          mediaIn leg p f eng s = hold id leg true false p f eng u) ∧
        (∀ id st seq x, rtcp = false → charge leg p.length f.bytes.length f.arrival s1 = (true, u) → (rtpHdrLen (toNats p)).isSome = true →
          isCryptex p = false → findSsrc leg (be p 8 4) u = some id → tfind u.ctl.streams id = some st →
          ((u.ctl.held.any fun h => decide (h.stream = id)) = true ∨ seqExtend st.seq (be p 2 2) = (some seq, x)) →
          mediaIn leg p f eng s = hold id leg false false p f eng u)))) ∧
  (∀ (id leg : Nat) (rtcp bind : Bool) (p : List Byte) (f : Frame) (eng : Nat) (s : State), let e := engineFor f.bay eng s
    (p.length ≤ 9728 → (hold id leg rtcp bind p f eng s).ctl.held =
      heldAdd ⟨s.ctl.nextHeld, id, leg, rtcp, bind, p, f, e, false⟩ s.ctl.held s) ∧
    (9728 < p.length → hold id leg rtcp bind p f eng s = cinc (ciphCnt e 0x20) s))

/-- R96 to R105, R128, R443: frames received, and media packets taken. -/
def Obligations.PacketIngress : Prop := Claims.FramesReceived ∧ Claims.MediaPackets


/-- R127, R128, R131: a verdict waits for those before it in its stream; then the packet is committed where a slot of its context opens
it, and counted in AUTH_FAIL where none does. -/
def Obligations.CipherVerdicts : Prop :=
  (∀ (n : Nat) (h : Held) (s : State), Foremost n h s → (holdIn h.eng s).contains h = true → exec (.cipherVerdict n) s =
    .next (verdictRun (s.ctl.held.length - 1) h.stream (verdict { h with answered := true } (noted n s)))) ∧
  (∀ (n : Nat) (h g : Held) (s : State), s.ctl.held.find? (fun x => decide (x.id = n)) = some h →
    s.ctl.held.find? (fun x => decide (x.stream = h.stream)) = some g → g.id ≠ n → g.answered = false → (holdIn h.eng s).contains h = true →
    exec (.cipherVerdict n) s = .next (noted n s)) ∧
  (∀ (h : Held) (st : Stream) (seq : Nat) (x : SeqState) (idx : Nat) (s : State), let u := unhold h s
    h.rtcp = false → h.bind = false → tfind s.ctl.streams h.stream = some st → seqExtend st.seq (be h.payload 2 2) = (some seq, x) →
    ((verdictKeys st h.frame.arrival).any fun k => keyValid k s) = true → idxOk st.win seq = true →
    srtpIndex st.srtp st.roc (be h.payload 2 2) = some idx →
    (∀ p, openWith (fun k => srtpOpen k idx (toNats h.payload)) (verdictKeys st h.frame.arrival) s = some p →
      verdict h s = commitRtp h st seq idx x (ofNats p) u) ∧
    (openWith (fun k => srtpOpen k idx (toNats h.payload)) (verdictKeys st h.frame.arrival) s = none → verdict h s = authFail h.stream h.eng u))

/-- R78, R106, R113, R115: exception frames delivered and their ring's head taken; incomplete frames released at their timeout; jitter
rings staged to a new length. -/
def Obligations.IngressRings : Prop :=
  ∀ (s : State),
    (∀ fn v, v < 4096 → headTaken (fget (R.ING_EXC_HEAD_head fn) s) (fget (R.ING_EXC_TAIL_tail fn) s) (2 ^ fget (R.ING_EXC_CFG_log2 fn) s) v = true →
      ∃ t, exec (.ingExcHeadWrite fn v) s = .next t ∧ fget (R.ING_EXC_HEAD_head fn) t = v ∧ Changes [.regs] s t) ∧
    (∀ fn v, v < 4096 → headTaken (fget (R.ING_EXC_HEAD_head fn) s) (fget (R.ING_EXC_TAIL_tail fn) s) (2 ^ fget (R.ING_EXC_CFG_log2 fn) s) v = false →
      exec (.ingExcHeadWrite fn v) s = .next s) ∧
    (∀ id seq st, tfind s.ctl.streams id = some st → st.media = 1 → (∃ e ∈ frameFirst st, e.seq = 65536 + seq) →
      exec (.videoFrameTimeout id seq) s = .next (streamPut id (framesDue (st.jr.length + 1) s.clk.stamp st) s)) ∧
    (∀ id n st, id < 65536 → 6 ≤ n → n ≤ 14 → tfind s.ctl.streams id = some st → st.dir = 0 → st.seq.top ≠ none →
      ∃ t, exec (.ingJrResize (id + n * 2 ^ 16 + 2 ^ 31)) s = .next t ∧ tfind t.ctl.streams id = some { st with staged := some n }) ∧
    (∀ id n st, id < 65536 → 6 ≤ n → n ≤ 14 → tfind s.ctl.streams id = some st → st.dir = 0 → st.seq.top = none →
      exec (.ingJrResize (id + n * 2 ^ 16 + 2 ^ 31)) s = .next (jrResize id (streamPut id { st with staged := some n } s))) ∧
    (∀ r reason leg f, let fn := Fn.vf r
      let slot := 2 ^ fget (R.ING_EXC_CFG_slot_log2 fn) s
      let tail := fget (R.ING_EXC_TAIL_tail fn) s
      let a := fget (R.ING_EXC_BASE_base fn) s * 4096 + tail * slot
      (s.mem.linkUp = false → excDeliver fn reason (some leg) f s = { s with ctl := { s.ctl with excWait := s.ctl.excWait ++ [⟨fn, reason, some leg, f⟩] } }) ∧
      (s.mem.linkUp = true → fon (R.ING_EXC_CFG_enable fn) s = true → ringRoom (fget (R.ING_EXC_HEAD_head fn) s) tail (2 ^ fget (R.ING_EXC_CFG_log2 fn) s) 0 = true →
      hostOk a slot s = true → 64 ≤ slot → f.bytes.length + 32 ≤ slot →
      hostRead (a + 32) f.bytes.length (excDeliver fn reason (some leg) f s) = f.bytes ∧
        hostRead a 3 (excDeliver fn reason (some leg) f s) = leBytes 2 f.bytes.length ++ leBytes 1 reason))

/-! ## Staged changes, the forwarder, egress (spec/07 R190, spec/12, spec/14, spec/18 R453) -/

open Sys2Proof Sys2Proof.Machine Sys2Proof.Claims

/-- R190, R302, R453: a go with its operation staged arms the change of its window and function, or sets collision where one is armed. -/
def Sys2Proof.Claims.StagedChanges : Prop :=
  ∀ (fn : Fn) (s : State),
    (∀ k i, (k, i) ∈ [(1, Instr.srcSelectFilter fn), (2, .srcBindSlot fn), (3, .srcUnbindSlot fn)] → fget (R.SRC_STAGE_OP_op fn) s = k →
      (fon (R.SRC_STAGE_STATUS_armed fn) s = false → exec i s = .next (fset (R.SRC_STAGE_STATUS_armed fn) 1
        { s with src := { s.src with staged := tset s.src.staged (stageKey 1 fn) (srcStaged fn s) } })) ∧
      (fon (R.SRC_STAGE_STATUS_armed fn) s = true → exec i s = .next (fset (R.SRC_STAGE_STATUS_collision fn) 1 s))) ∧
    (∀ k i, (k, i) ∈ [(1, Instr.fwdSubscribe fn), (2, .fwdUnsubscribe fn), (3, .fwdSetLegCap fn)] → fget (R.FWD_STAGE_OP_op fn) s = k →
      (fon (R.FWD_STAGE_STATUS_armed fn) s = false → exec i s = .next (fset (R.FWD_STAGE_STATUS_armed fn) 1
        { s with src := { s.src with staged := tset s.src.staged (stageKey 2 fn) (fwdStaged fn s) } })) ∧
      (fon (R.FWD_STAGE_STATUS_armed fn) s = true → exec i s = .next (fset (R.FWD_STAGE_STATUS_collision fn) 1 s))) ∧
    (∀ k i, (k, i) ∈ [(1, Instr.casMapAct), (2, .casUnmapAct), (3, .casSetSeat), (4, .casRemoteSource)] → fget R.CAS_STAGE_OP_op s = k →
      (fon R.CAS_STAGE_STATUS_armed s = false → exec i s = .next (fset R.CAS_STAGE_STATUS_armed 1
        { s with src := { s.src with staged := tset s.src.staged (stageKey 3 .pf) (casStaged s) } })) ∧
      (fon R.CAS_STAGE_STATUS_armed s = true → exec i s = .next (fset R.CAS_STAGE_STATUS_collision 1 s)))

/-- R189, R198, R302 to R304: what a staged change does at its boundary, where its checks pass. -/
def Sys2Proof.Claims.StagedEffects : Prop :=
  (∀ (fn : Fn) (leg : Nat) (sub : Sub) (s : State), subscribeCheck fn leg sub s = 0 → (subscribe fn leg sub s).1 = 0 ∧
    (fwdLeg leg (subscribe fn leg sub s).2).sub = some sub ∧ tfind (subscribe fn leg sub s).2.cas.remote leg = none) ∧
  (∀ (fn : Fn) (leg : Nat) (l : Leg) (s : State), owns fn 0 leg s = true → tfind s.ctl.legs leg = some l → l.st = .active →
    egrContexts leg 1 s ≠ [] → l.vcodec ≠ 0 →
    (unsubscribe fn leg s).1 = 0 ∧ (fwdLeg leg (unsubscribe fn leg s).2).sub = none ∧ (fwdLeg leg (unsubscribe fn leg s).2).cur = none ∧
      tfind (unsubscribe fn leg s).2.cas.remote leg = none ∧
      ∀ cap, legCap fn leg cap s = (0, fwdLegPut leg { fwdLeg leg s with cap := cap } s)) ∧
  (∀ (fn : Fn) (b leg port rx tx format : Nat) (l : Leg) (s : State), owns fn 0 leg s = true → tfind s.ctl.legs leg = some l →
    isTdm leg s = true → l.acodec = 0 → tdmMode port s ≠ 0 → rx < tdmSlots (tdmMode port s) → tx < tdmSlots (tdmMode port s) →
    format ≤ (if tdmMode port s = 2 then 0 else 2) → slotOwned fn port rx s = true → slotOwned fn port tx s = true →
    (∀ p ∈ s.src.binds, ¬ (p.2.port = port ∧ (p.2.rx = rx ∨ p.2.tx = tx))) →
    (srcBind fn b leg port rx tx format s).1 = 0 ∧
      tfind (srcBind fn b leg port rx tx format s).2.src.binds leg = some ⟨port, rx, tx, format, b⟩) ∧
  (∀ (fn : Fn) (leg : Nat) (s : State), owns fn 0 leg s = true → (tdmBind leg s).isSome = true →
    (srcUnbind fn leg s).1 = 0 ∧ tfind (srcUnbind fn leg s).2.src.binds leg = none)

/-- R189, R190, R198, R302 to R304, R453: changes staged by a go, and their effect. -/
def Obligations.StagedOperations : Prop := Claims.StagedChanges ∧ Claims.StagedEffects


/-- R314, R316, R318, R319, R322: requests upstream, retransmissions to a receiver, a fallback tried again, a rewind ring resized. -/
def Sys2Proof.Claims.ForwarderRows : Prop :=
  ∀ (s : State),
    (∀ leg id q t, let x := fwdLeg leg s
      x.nacks = [(t, id, q)] → stampGe s.clk.stamp (stampAdd t 2) = true →
      exec (.receiverNack leg) s = .next (rtxOne leg s.clk.stamp id q (fwdLegPut leg { x with nacks := [] } s))) ∧
    (∀ leg, (∀ p ∈ (fwdLeg leg s).nacks, stampGe s.clk.stamp (stampAdd p.1 2) = false) →
      ∃ t, exec (.receiverNack leg) s = .next t ∧ (fwdLeg leg t).nacks = (fwdLeg leg s).nacks ∧ Changes [.fwd] s t) ∧
    (∀ n b id q rid r w, (egrContexts n 2 s).find? (fun r => match tfind s.ctl.streams r with
        | some st => decide (st.rtxOf = id)
        | none => false) = some rid →
      tfind s.egr.rings id = some r → let e := rwExtend r q
      tfind r.ents (e % 2 ^ r.log2) = some w → w.seq = e → w.count < 3 →
      (∀ a, w.last = some a → max ((fwdLeg n s).rtt.getD 10) 10 ≤ stampSub b a) → w.packet.length ≤ (fwdLeg n s).credit →
      let t := rtxOne n b id q s
      (fwdLeg n t).credit = (fwdLeg n s).credit - w.packet.length ∧
        (∃ r1, tfind t.egr.rings id = some r1 ∧ tfind r1.ents (e % 2 ^ r.log2) = some { w with
          count := w.count + 1
          last := some b })) ∧
    (∀ id st, tfind s.ctl.streams id = some st → st.media = 1 →
      (∃ p ∈ s.ctl.streams, p.2.dir = 0 ∧ p.2.media = 2 ∧ p.2.rtxOf = id) → frameFirst st ≠ [] →
      stampAfter (frameDue st (frameFirst st)) s.clk.stamp = true →
      let ask := (missingSeqs s.clk.stamp st).filter fun q =>
        let m := tget (0, 0) (track id s).miss q
        decide (m.1 = 0) || (decide (m.1 < 2) && decide (20 ≤ stampSub s.clk.stamp m.2))
      ask ≠ [] → ∃ u, exec (.upstreamNack id) s = .next (rtcpFeedback st.leg (fbPacket 1 205 (legSsrc st.leg u).1 st.ssrc
          ((ask.map fun q => beNats 2 (q % 65536) ++ [0, 0]).flatten)) s.clk.stamp u) ∧ Changes [.cnt, .fwd] s u) ∧
    (∀ leg p c, (fwdLeg leg s).pend = some p → needsKey (fwdLeg leg s) p s = true → 2000 ≤ stampSub s.clk.stamp p.since →
      choiceCtx p.src p.s s = some c → exec (.firEscalation leg) s = .next (fwdFir c s.clk.stamp s)) ∧
    (∀ leg l b0 sub src, tfind s.ctl.legs leg = some l → (fwdLeg leg s).fall = .refused b0 → (fwdLeg leg s).sub = some sub →
      2000 ≤ stampSub s.clk.stamp b0 → fwdWanted leg s.clk.stamp sub l s = some src → fallAllowed src sub l s = true →
      exec (.fallbackOpenRetry leg) s = .next (fallTry leg s.clk.stamp src sub l s)) ∧
    (∀ fn id n r, id < 65536 → 6 ≤ n → n ≤ 14 → owns fn 2 id s = true → tfind s.egr.rings id = some r →
      let s1 := { s with egr := { s.egr with rings := tset s.egr.rings id { r with staged := some n } } }
      (r.top.isSome = true → exec (.fwdRwResize fn (id + n * 2 ^ 16 + 2 ^ 31)) s = .next s1) ∧
      (r.top = none → exec (.fwdRwResize fn (id + n * 2 ^ 16 + 2 ^ 31)) s = .next (rwResize id s1)))

/-- R361, R364, R365: a link's window opens; host frames are taken from their ring, checked against their leg, or refused; the standby
scheduler takes over. -/
def Sys2Proof.Claims.EgressRows : Prop :=
  ∀ (s : State),
    (∀ link, link < linkCount (fget R.ETH_MODE_eth_mode s) → exec (.transmitWindow link) s = .next (window link s)) ∧
    (∀ fn v, v < 4096 → v < 2 ^ fget (R.EGR_HTX_CFG_log2 fn) s → fon (R.EGR_HTX_CFG_enable fn) s = true →
      exec (.htxFrameSubmit fn v) s = .next (htxDrain 4096 fn (fset (R.EGR_HTX_TAIL_tail fn) v s))) ∧
    (∀ fn v, v < 4096 → 2 ^ fget (R.EGR_HTX_CFG_log2 fn) s ≤ v → exec (.htxFrameSubmit fn v) s = .next s) ∧
    (∀ fn a size leg e p, let h := hostRead a 32 s
      let frame := hostRead (a + 32) (min (le h 0 2) (size - 32)) s
      le h 4 2 = leg → leg ≠ 0xFFFF → tfind s.egr.legs leg = some e → e.path = some p → owns fn 0 leg s = true →
      htxSource leg p frame s = true → (e.q.filter fun i => i.wire.isSome).length < 512 → ∃ x, htxTake fn a size s = egrPush leg x s ∧
        x.wire = some frame ∧ x.cls = 0 ∧ x.made = s.clk.stamp) ∧
    (∀ r a size, le (hostRead a 32 s) 4 2 = 0xFFFF → htxTake (.vf r) a size s = htxDenied (.vf r) 0xFFFF s) ∧
    (∀ link, ∃ u, exec (.schedulerTakeover link) s = .next (raiseUnit EV_SCHED_TAKEOVER (linkUnit link u) (link % 8) u) ∧
      tget false u.egr.standby link = !tget false s.egr.standby link ∧ u.egr.legs = s.egr.legs)

/-! ## Rate conversion banks and TDM ports (spec/07) -/

/-- R186 to R188: a bank's coefficients, its commit, its abort, its clearing. -/
def Sys2Proof.Claims.CoefficientBanks : Prop :=
  ∀ (s : State), let n := fget R.SRC_BANK_SEL_bank s
    let b := srcBank n s
    let rate := fget R.SRC_BANK_CFG_rate s
    let d := fget R.SRC_BANK_CFG_delay s
    (∀ v, bankState n s ≠ 3 → b.st = 1 → b.count < 768 → ∃ t, exec (.srcBankCoefWrite v) s = .next t ∧
      srcBank n t = { b with
        coefs := b.coefs ++ [toS 25 v]
        count := b.count + 1 } ∧ Changes [.regs, .src] s t) ∧
    (∀ v, bankState n s ≠ 3 → b.st ≠ 1 → ∃ t, exec (.srcBankCoefWrite v) s = .next t ∧
      srcBank n t = { b with
        st := 1
        coefs := [toS 25 v]
        count := 1 } ∧ Changes [.regs, .src] s t) ∧
    (rate < 4 → d ≠ 0 → srcN d rate ≤ 384 → bankState n s ≠ 3 → b.count = 2 * srcN d rate →
      sumsOk (srcP rate false) (b.coefs.take (srcN d rate)) = true → sumsOk (srcP rate true) (b.coefs.drop (srcN d rate)) = true →
      ∃ t, exec .srcBankCommit s = .next t ∧ srcBank n t = { b with
        st := 2
        rate := rate
        delay := d
        result := 0 }) ∧
    (b.st = 1 → bankState n s ≠ 3 → bankCheck n b rate d s ≠ 0 → bankCheck n b rate d s ≠ 1 → ∃ t, exec .srcBankCommit s = .next t ∧
      srcBank n t = ⟨b.cfg, 0, 0, 0, [], 0, bankCheck n b rate d s⟩) ∧
    (b.st = 1 → ∃ t, exec .srcBankAbort s = .next t ∧ srcBank n t = ⟨b.cfg, 0, 0, 0, [], 0, 0⟩) ∧
    (bankState n s ≠ 3 → b.st ≠ 1 → ∃ t, exec .srcBankClear s = .next t ∧ srcBank n t = ⟨b.cfg, 0, 0, 0, [], 0, 0⟩) ∧
    (bankState n s = 3 → ∀ i ∈ [Instr.srcBankCoefWrite 0, .srcBankCommit, .srcBankClear], ∃ t, exec i s = .next t ∧
      srcBank n t = { b with result := 1 })

/-- R196, R201 to R203, R200, R398: frames, clocks and pins of a TDM port, its swap, its serialiser's takeover, its DMA requests. -/
def Sys2Proof.Claims.TdmPorts : Prop :=
  ∀ (port : Nat) (s : State), port < 4 → let t := tdmPort port s
    (∀ slots f rest, tdmRun port s = true → t.fifo = [] → t.txNow = f :: rest → fon (R.SRC_TDM_STATUS_pin_dx port) s = false →
      t.rx.length < tdmFrames (tdmMode port s) → t.takeover = false → ∃ u, exec (.tdmFrame port slots) s = .next u ∧
        u.out = .tdm port f (tdmWave port f s) :: s.out ∧ tdmPort port u = { t with
          rx := t.rx ++ [slots]
          txNow := rest
          frames := t.frames + 1
          ready := true }) ∧
    (∀ slots g rest, tdmRun port s = true → t.fifo = g :: rest → fon (R.SRC_TDM_STATUS_pin_dx port) s = false →
      t.rx.length < tdmFrames (tdmMode port s) → t.takeover = false → ∃ u sent, exec (.tdmFrame port slots) s = .next u ∧
        u.out = .tdm port sent (tdmWave port sent s) :: s.out ∧ (tdmPort port u).fifo = rest ∧ (tdmPort port u).rx = t.rx ++ [slots] ∧
        (∀ leg b, tdmBind leg s = some b → b.port = port → tfind sent b.tx = some (g.getD b.tx 0 % 2 ^ tdmWidth (tdmMode port s)))) ∧
    (∀ slots sent, tdmRun port s = true → fon (R.SRC_TDM_STATUS_pin_dx port) s = true → t.fifo = [] → t.txNow = [sent] →
      t.rx.length < tdmFrames (tdmMode port s) → t.takeover = false → ∃ u,
      exec (.tdmFrame port slots) s = .next u ∧ u.out = .tdm port (sent.map fun q => (q.1, 0)) (tdmWave port (sent.map fun q => (q.1, 0)) s) :: s.out ∧
        (tdmWave port sent s).dx = []) ∧
    (∀ slots, tdmRun port s = true → tdmFrames (tdmMode port s) ≤ t.rx.length → ∃ u, exec (.tdmFrame port slots) s = .next u ∧
      (tdmPort port u).rx = t.rx) ∧
    (tdmRun port s = true → fon (R.SRC_TDM_CFG_master port) s = false → ∃ u, exec (.tdmClockLoss port) s =
        .next (raiseUnit EV_TDM_CLOCK_LOST (unitTdm port) port u) ∧
      fget (R.SRC_TDM_STATUS_state port) u = 1 ∧ (tdmPort port u).clk = false ∧ Changes [.regs, .src] s u) ∧
    (fget (R.SRC_TDM_STATUS_state port) s = 1 → exec (.tdmClockRestored port) s =
      .next (tdmSettle port (tdmPortPut port { t with clk := true } s))) ∧
    (∀ pin high, pinDriven port pin s = true → fget (pinFld port pin) s ≠ (if high = true then 2 else 3) → ∃ u,
      exec (.tdmPinShort port pin high) s = .next (raiseUnit EV_TDM_PIN_FAULT (unitTdm port)
        (port + pin * 4 + (if high = true then 2 else 3) * 16) u) ∧ fget (pinFld port pin) u = if high = true then 2 else 3) ∧
    (∀ pin up down code, pin ≤ 3 → pinDriven port pin s = false →
      (code = 1 ∧ up = true ∧ down = false ∨ code = 2 ∧ pin ≠ 3 ∧ up = true ∧ down = true ∨ code = 3 ∧ pin ≠ 3 ∧ up = false) →
      fget (pinFld port pin) s ≠ code → ∃ u, exec (.tdmPinTest port pin up down) s =
        .next (raiseUnit EV_TDM_PIN_FAULT (unitTdm port) (port + pin * 4 + code * 16) u) ∧ fget (pinFld port pin) u = code) ∧
    (∀ pin, pin ≤ 3 → fget (pinFld port pin) s ≠ 0 → (∀ a, tfind t.tested pin = some a → 2000 ≤ stampSub s.clk.stamp a) →
      (∃ u, exec (.tdmPinRetest port pin true) s =
        .next (raiseUnit EV_TDM_PIN_CLEAR (unitTdm port) (port + pin * 4 + fget (pinFld port pin) s * 16) u) ∧ fget (pinFld port pin) u = 0) ∧
      exec (.tdmPinRetest port pin false) s = .next (tdmPortPut port { t with tested := tset t.tested pin s.clk.stamp } s)) ∧
    (∀ pin pass a, tfind t.tested pin = some a → stampSub s.clk.stamp a < 2000 → exec (.tdmPinRetest port pin pass) s = .next s) ∧
    (∀ b0 b1 f0 f1, fon (R.SRC_TDM_CFG_master port) s = false → fon (R.SRC_TDM_CFG_auto_swap port) s = true →
      fon (R.SRC_TDM_STATUS_swapped port) s = false → countsSwapped (tdmMode port s) (b0, f0) = true → countsSwapped (tdmMode port s) (b1, f1) = true →
      exec (.tdmAutoSwap ⟨port, [b0, b1], [f0, f1]⟩) s =
        .next (raiseUnit EV_TDM_SWAPPED (unitTdm port) port (fset (R.SRC_TDM_STATUS_swapped port) 1 s))) ∧
    (∃ u, exec (.tdmDupTakeover port) s = .next (raiseUnit EV_TDM_DUP_TAKEOVER (unitTdm port) port u) ∧
      tdmPort port u = { t with takeover := true } ∧ u.flt.recov ≠ []) ∧
    (∀ tx, tdmRun port s = true → (tx = true ∧ t.fifo.length < 4 ∨ tx = false ∧ t.ready = true) →
      exec (.tdmDmaRequest port tx) s = .next (portReqPut port tx true s)) ∧
    (∀ tx n, tdmRun port s = false → portReq (2 * port + b2n tx) s = true → tfind s.dma.cur (portChannel port tx s) = none →
      exec (.periphWithdraw port tx n) s = .next (portReqPut port tx false s)) ∧
    (∀ n d, let c := portChannel port true s
      tdmRun port s = false → portReq (2 * port + 1) s = true → tfind s.dma.cur c = some d → d.kind = 2 →
      fget (R.DMA_CH_CFG_periph c) s = 2 * port + 1 → dmaSt c s = dmRun → descCheck c d (portReqPut port true false s) = 0 →
      d.consumed + 4 * n < d.length → ∃ u, exec (.periphWithdraw port true n) s = .next u ∧
        portReq (2 * port + 1) u = false ∧ tfind u.dma.cur c = some { d with
          withdrawals := d.withdrawals + 1
          consumed := d.consumed + 4 * n } ∧ dmaSt c u = dmRun)

/-- R186 to R188, R196, R200 to R203, R398: coefficient banks and TDM ports. -/
def Obligations.Conversion : Prop := Claims.CoefficientBanks ∧ Claims.TdmPorts


/-! ## DMA (spec/16_dma.md) -/

/-- R389 to R399: a descriptor completes: what it moves, what is written back; a check that fails ends it with its code; an abort ends it at
a line boundary. -/
def Sys2Proof.Claims.DmaDescriptors : Prop :=
  (∀ (c code flags done : Nat) (d : DmaDesc) (s : State), let a := descAddr c (dmaHead c s) s
    (dmaRingDev c s = false → hostOk a 32 s = true → hostRead a 32 (dmaEnd c d code flags done s) = descBytes d (code + flags) done)) ∧
  (∀ (c : Nat) (d : DmaDesc) (s : State), tfind s.dma.cur c = some d → dmaSt c s = dmRun → descPaused c d s = false →
    (descCheck c d s ≠ 0 → d.kind ≠ 1 → exec (.dmaDescriptorComplete c) s = .next (dmaEnd c d (descCheck c d s) 0 0 s)) ∧
    (descCheck c d s = 0 → d.kind = 0 → d.overlap = false → exec (.dmaDescriptorComplete c) s =
      .next (dmaEnd c d 0 0 d.length (spaceWrite d.dstDev d.dst (spaceRead d.srcDev d.src d.length s) s))) ∧
    (descCheck c d s = 0 → d.kind = 0 → d.overlap = true → d.src ≠ d.dst → exec (.dmaDescriptorComplete c) s =
      .next (dmaEnd c d 0 16 d.length (spaceWrite d.dstDev d.dst (spaceRead d.srcDev d.src d.length s) (cinc (dmaCnt c 0x50) s)))) ∧
    (descCheck c d s = 0 → d.kind = 0 → d.overlap = true → d.src = d.dst → exec (.dmaDescriptorComplete c) s =
      .next (dmaEnd c d 0 16 d.length (cinc (dmaCnt c 0x50) s))) ∧
    (descCheck c d s = 0 → d.kind = 3 → exec (.dmaDescriptorComplete c) s = .next (dmaEnd c d 0 0 0 s)) ∧
    (∀ p, descCheck c d s = 0 → d.kind = 2 → d.withdrawals = 0 → fget (R.DMA_CH_CFG_periph c) s = 2 * p → portReq (2 * p) s = true →
      let u := portReqPut p false false s
      exec (.dmaDescriptorComplete c) s = .next (dmaEnd c d 0 0 d.length
        (tdmPortPut p { tdmPort p u with ready := false } (spaceWrite d.dstDev d.dst (portFrame p u) u)))) ∧
    (∀ p, descCheck c d s = 0 → d.kind = 2 → d.withdrawals = 0 → fget (R.DMA_CH_CFG_periph c) s = 2 * p + 1 → portReq (2 * p + 1) s = true →
      let u := portReqPut p true false s
      exec (.dmaDescriptorComplete c) s = .next (dmaEnd c d 0 0 d.length (tdmPortPut p { tdmPort p u with
        fifo := ((tdmPort p s).fifo ++ [frameSlots p (spaceRead d.srcDev d.src (frameBytes p s) s) s]).take 4 } u))) ∧
    (d.kind = 1 → descCheck c d s = 0 → exec (.dmaFenceComplete c) s = .next (dmaEnd c d 0 64 0 (cinc (dmaCnt c 0x58) s))) ∧
    (d.kind = 1 → descCheck c d s ≠ 0 → exec (.dmaFenceComplete c) s = .next (dmaEnd c d (descCheck c d s) 0 0 s)) ∧
    (∀ done n, d.kind = 0 → descCheck c d s = 0 → d.overlap = false → n = (if d.length ≤ done then d.length else (d.dst + done) / 64 * 64 - d.dst) →
      exec (.dmaAbort c done) s =
        .next (dmaEnd c d 5 0 n (spaceWrite d.dstDev d.dst (spaceRead d.srcDev d.src n s) s))) ∧
    (∀ done n, d.kind = 0 → descCheck c d s = 0 → d.overlap = true → d.src < d.dst →
      n = (if d.length ≤ done then d.length else d.length - (((d.dst + d.length - done) + 63) / 64 * 64 - d.dst)) →
      exec (.dmaAbort c done) s = .next (dmaEnd c d 5 16 n
        (spaceWrite d.dstDev (d.dst + (d.length - n)) (spaceRead d.srcDev (d.src + (d.length - n)) n s) s))) ∧
    (∀ done, d.kind ≠ 0 → exec (.dmaAbort c done) s = .next (dmaEnd c d 5 0 0 s)))

/-- R390 to R392, R399, R400, R402: additions to a channel, its stop, its enabling, its going on after a halt, the standby's takeover. -/
def Sys2Proof.Claims.DmaChannels : Prop :=
  ∀ (c : Nat) (s : State), c < 32 →
    (∀ fn v, v < 65536 → (fn = .pf ∨ fn = .vf (dmaOwner c s)) → let n := dmaCount c s + v
      (n < 65536 → dmaSt c s = dmRun → exec (.dmaChAdd fn c v) s = .next (fset (R.DMA_CH_COUNT_count c) n s)) ∧
      (n < 65536 → (dmaSt c s = dmIdle ∧ 0 < n ∨ dmaSt c s = dmOwnWait) →
        exec (.dmaChAdd fn c v) s = .next (dmaFetch c (fset (R.DMA_CH_COUNT_count c) n s))) ∧
      (65536 ≤ n → exec (.dmaChAdd fn c v) s = .next (fset (R.DMA_CH_STATUS_add_overflow c) 1 s))) ∧
    (∀ r v, dmaOwner c s ≠ r → exec (.dmaChAdd (.vf r) c v) s = .next s) ∧
    (dmaSt c s = dmRun → ∃ t, exec (.dmaStop c) s = .next t ∧ c ∈ t.dma.stopping ∧ t.dma.cur = s.dma.cur ∧ Changes [.dma] s t) ∧
    ((dmaSt c s = dmIdle ∨ dmaSt c s = dmOwnWait) → exec (.dmaStop c) s = .next (dmaTo c dmStopped s)) ∧
    (dmaSt c s = dmHalted → exec (.dmaResume c) s = .next (dmaNext c s)) ∧
    ((dmaSt c s = dmDisabled ∨ dmaSt c s = dmStopped) →
      exec (.dmaEnable c true) s = .next (dmaNext c (fset (R.DMA_CH_CTRL_enable c) 1 s))) ∧
    (fon (R.DMA_CH_CTRL_enable c) s = true → dmaSt c s ≠ dmRun →
      exec (.dmaEnable c false) s = .next (dmaTo c dmDisabled (fset (R.DMA_CH_CTRL_enable c) 0 s))) ∧
    (∃ u, exec .dmaTakeover s =
        .next (fetchRestart (raiseUnit EV_DMA_TAKEOVER (unitDma 0) ((tkeys s.dma.cur).foldl (fun m k => m + 2 ^ k) 0) u)) ∧
      u.dma.active = 1 - s.dma.active ∧ u.flt.recov ≠ [])

/-- R389 to R400, R402: descriptors, fences and channels. -/
def Obligations.DmaEngines : Prop := Claims.DmaDescriptors ∧ Claims.DmaChannels


/-! ## The Carousel (spec/09_carousel.md) -/

namespace Sys2Proof.Claims
open Sys2Proof.Machine

/-- A core takes service items: its Bay is up, it serves, its prefetch slot is empty. -/
def TakesItems (c : Nat) (s : State) : Prop :=
  c < 544 ∧ fget (R.FLT_BAY_STATUS_state (clusterBay (coreCluster c))) s ≠ 1 ∧ fget (R.FLT_BAY_STATUS_state (clusterBay (coreCluster c))) s ≠ 2 ∧
    (coreGet c s).pre = none ∧ coreServes c s = true

/-- An entry of a queue that core `c` may be given: no re-run of an item that it ran before (R238). -/
def MayGive (c : Nat) (e : RqEntry) (s : State) : Prop := ∀ i, itemFind e.h s = some i → ¬ (i.rerun = true ∧ i.ran = some c)

/-- An item that waits for its comparison. -/
def Compares (i : Item) : Prop := ∃ k, i.st = .compare k

end Sys2Proof.Claims

open Sys2Proof Sys2Proof.Machine Sys2Proof.Claims

/-- R238, R240: a prefetch takes, from the core's ready queue, an entry of the highest priority among those it may be given. -/
def Sys2Proof.Claims.Prefetch : Prop :=
  ∀ (c pick : Nat) (s : State), TakesItems c s →
    let q := rqGet (coreCluster c) s
    (∀ j ∈ popChoices c q s, ∃ e, q.q[j]? = some e ∧ MayGive c e s ∧ ∀ e2 ∈ q.q, MayGive c e2 s → e2.prio ≤ e.prio) ∧
    ((∃ e ∈ q.q, MayGive c e s) → popChoices c q s ≠ []) ∧
    (∀ j e i same, (popChoices c q s)[pick % (popChoices c q s).length]? = some j → q.q[j]? = some e → itemFind e.h s = some i →
      i.st = .queued (coreCluster c) →
      let s1 := rqPut (coreCluster c) { q with
        q := q.q.eraseIdx j
        popped := same } (cinc (clCnt (coreCluster c) 0x48) s)
      exec (.corePrefetch c ⟨pick, same⟩) s =
        .next (startPre c (corePut c { coreGet c s with pre := some e.h } (itemPut e.h { i with st := .prefetched c } s1)))) ∧
    (popChoices c q s = [] → ∀ same, exec (.corePrefetch c ⟨pick, same⟩) s = .next s)

/-- R235, R239, R242, R250: handles tried again, deadlines missed, a hung core, a barrier closed. -/
def Sys2Proof.Claims.ItemLife : Prop :=
  ∀ (s : State),
    (∀ w, s.crsl.waits = [w] → handleRoom w.d.bay s = true → w.copyOf = none → exec .itemHandleRetry s =
      .next (itemMake w.d { s with crsl := { s.crsl with waits := [] } })) ∧
    (∀ w h i, s.crsl.waits = [w] → handleRoom w.d.bay s = true → w.copyOf = some h → itemFind h s = some i → w.dbg = none →
      exec .itemHandleRetry s = .next (shadowCopy h w.third i { s with crsl := { s.crsl with waits := [] } })) ∧
    ((∀ w ∈ s.crsl.waits, handleRoom w.d.bay s = false) → exec .itemHandleRetry s = .next s) ∧
    (∀ h i, itemFind h s = some i → (stampAfter s.clk.stamp (itemDue i.d) = true ∨ s.clk.stamp = itemDue i.d ∧ 23 ≤ s.clk.offset) →
      exec (.deadlineMiss h) s = .next (itemMiss h 1 i.rerun s)) ∧
    (∀ c h, (coreGet c s).item = some h → exec (.itemHung c) s =
      .next (hardwareFault c 0 true (raiseUnit EV_ITEM_HUNG (unitCore c) (h + c * 2 ^ 32) (cinc 0x2B0020 s)))) ∧
    (∀ b items, let x := barGet b s
      let bytes := barBytes x
      x.closed = false → x.expected ≠ 0 → x.counted + x.missed = x.expected → ∃ u, exec (.barrierClose b items) s = .next (itemsMake items (debugDrop b u)) ∧
        barGet b u = { x with closed := true } ∧ ∀ a, barPlace b bytes.length s = some a → dramRead a bytes.length u = bytes) ∧
    (∀ b items, (barGet b s).counted + (barGet b s).missed ≠ (barGet b s).expected → exec (.barrierClose b items) s = .next s)

/-- R235, R238 to R240, R242, R250: service items given to cores, and their ends. -/
def Obligations.Items : Prop := Claims.Prefetch ∧ Claims.ItemLife


/-- R248, R249: shadow re-execution: two runs that agree end the item; two that differ bring a third; the majority of three wins and the
core outvoted is suspect; without a decision in time the original's run counts. -/
def Sys2Proof.Claims.ShadowRuns : Prop :=
  ∀ (h : Nat) (a : Item) (s : State), itemFind h s = some a → Compares a →
    (∀ w ∈ s.crsl.waits, ¬ (w.copyOf = some h ∧ w.dbg = none)) →
    let cs := (copiesOf h s).filterMap fun k => itemFind k s
    (∀ b, cs = [b] → Compares b → b.third = false →
      exec (.shadowCompare h) s = .next (if sameRun a b = true then shadowWin h a (cinc 0x2B0008 s) else shadowCopy h true a (cinc 0x2B0010 s))) ∧
    (∀ b d, (cs = [b, d] ∨ cs = [d, b]) → Compares b → Compares d → b.third = false → d.third = true →
      (sameRun a d = true → exec (.shadowCompare h) s = .next (coreSuspect (b.ran.getD 0) 1 (shadowEvent h 2 a b (shadowWin h a s)))) ∧
      (sameRun a d = false → sameRun b d = true →
        exec (.shadowCompare h) s = .next (coreSuspect (a.ran.getD 0) 1 (shadowEvent h 1 a b (shadowWin h b s)))) ∧
      (sameRun a d = false → sameRun b d = false → exec (.shadowCompare h) s = .next (itemMiss h 4 true (shadowEvent h 3 a b s)))) ∧
    (a.copyOf = none → s.clk.stamp = itemDue a.d → 22 ≤ s.clk.offset →
      exec (.shadowAbandon h) s = .next (shadowWin h a (cinc 0x2B0018 s)))

/-- R243 to R246: a handle pushed, the level crossed by it alone; a spilled handle pushed again, an uncorrectable queue entry lost and reported, its queue rescanned. -/
def Sys2Proof.Claims.ReadyQueues : Prop :=
  ∀ (s : State),
    (∀ cl e r, (rqGet cl s).spill = e :: r → (rqGet cl s).q.length < (rqGet cl s).cap → exec (.queueSpillRepush cl) s =
      .next (rqSettle cl (rqPush cl e.1 e.2 (rqPut cl { rqGet cl s with spill := r } s)))) ∧
    (∀ cl h prio, let q := rqGet cl s
      q.q.length < q.cap → (rqGet cl (rqPush cl h prio s)).q = q.q ++ [⟨h, prio, q.wptr⟩]) ∧
    (∀ cl h prio, let q := rqGet cl s
      cl < 32 → q.q.length < q.cap → fget (R.CRSL_QTHRESH_crossed cl) (rqPush cl h prio s) =
        if fget (R.CRSL_QTHRESH_level cl) s = q.q.length + 1 ∧ q.popped = false then 1 else fget (R.CRSL_QTHRESH_crossed cl) s) ∧
    (∀ q pick, q < 32 → (rqGet q s).q ≠ [] → exec (.queueEccRescan q pick) s = .next (rescan q (qeccNote q
      (rqPut q { rqGet q s with q := (rqGet q s).q.eraseIdx (pick % (rqGet q s).q.length) } s)))) ∧
    (∀ q pick, 32 ≤ q → q < 64 → (evqGet (qeccEvq q) s).items ≠ [] → ∃ u, exec (.queueEccRescan q pick) s = .next (qeccNote q u) ∧
      (evqGet (qeccEvq q) u).items = (evqGet (qeccEvq q) s).items.eraseIdx (pick % (evqGet (qeccEvq q) s).items.length) ∧
      (evqGet (qeccEvq q) u).ovf = true ∧ Changes [.regs, .cnt, .hif] s u)

/-- R244 to R246, R248, R249: shadow runs, and the ready queues in error. -/
def Obligations.ItemRecovery : Prop := Claims.ShadowRuns ∧ Claims.ReadyQueues


/-! ## Decoding, encoding, composition, the confidence output (spec/10, 11 and 13) -/

namespace Sys2Proof.Claims
open Sys2Proof.Machine

/-- DP_STATUS.state (R351): 0 down, 1 training, 2 up, 3 failed. -/
def dpSt (s : State) : Nat := fget R.DP_STATUS_state s

/-- Training tried at a rate with a number of lanes (R351): what a command that begins it leaves. -/
def Training (lanes rate : Nat) (s t : State) : Prop :=
  dpSt t = 1 ∧ t.vid.dp.lanes = lanes ∧ t.vid.dp.rate = rate ∧ Changes [.regs, .cnt, .vid] s t

/-- The block at whose start the window of a canvas's composition and of its encode is over. -/
def encEnd (x : Canvas) (tick : Nat) : Nat := stampAdd tick (compBlocks x.width x.height + encBlocks x.width x.height)

end Sys2Proof.Claims

open Sys2Proof Sys2Proof.Machine Sys2Proof.Claims

/-- R253, R254, R274: a tile's idle decode engine starts the ready picture, its context from its checkpoint where another stream's went before;
a picture completes within its window; one not complete by then is missed. -/
def Sys2Proof.Claims.PictureDecoding : Prop :=
  ∀ (tile id : Nat) (x : Sess) (s : State), tfind s.vid.sess id = some x →
    (∀ p y w q, tileIn tile s = true → decBusy tile s = none → nextDecode tile s = some id →
      tfind (decSwitch tile id s).vid.sess id = some y → y.queue = w :: q →
      (stampGe s.clk.stamp (stampAdd w.release y.d) = false →
        exec (.decodePictureStart tile p) s = .next (tileSync tile (decodeStart id y w p (decSwitch tile id s)))) ∧
      (stampGe s.clk.stamp (stampAdd w.release y.d) = true → exec (.decodePictureStart tile p) s = .next s)) ∧
    (∀ p, decBusy tile s ≠ none → exec (.decodePictureStart tile p) s = .next s) ∧
    (∀ r, tile < 68 → (tileRun tile s).dec = some r → cget (0x500050 + 0x4000 * tile) s < 2 ^ 64 - 1 → let t := decSwitch tile id s
      cget (0x500050 + 0x4000 * tile) t = cget (0x500050 + 0x4000 * tile) s + b2n (decide (r ≠ id)) ∧ (tileRun tile t).dec = some id ∧
        (r = id → t.vid.sess = s.vid.sess) ∧ (r ≠ id → tfind t.vid.sess id = some x.load) ∧
        (∀ y, r ≠ id → tfind s.vid.sess r = some y → y.work = none →
          tfind t.vid.sess r = some { y with ckpt := y.context (pliTimer r s) })) ∧
    (∀ k, decBusy tile s = some id → x.work = some k →
      (stampGe s.clk.stamp (stampAdd k.w.release x.d) = false →
        exec (.decodePictureComplete tile) s = .next (decTurn (decodeComplete id x k s))) ∧
      (stampGe s.clk.stamp (stampAdd k.w.release x.d) = true → exec (.decodePictureComplete tile) s = .next s)) ∧
    (∀ p w q, x.work = none → x.queue = w :: q → stampGe s.clk.stamp (stampAdd w.release x.d) = true →
      ∃ t, exec (.decodePictureMissed id p) s = .next t ∧
        (let y := ((({ x with queue := q } : Sess).noteId w).lose w p).forget;
          tfind t.vid.sess id = some { y with ckpt := y.context (pliTimer id s) }) ∧
        Changes [.mem, .regs, .cnt, .hif, .ctl, .vid, .flt, .obs, .ddr, .out] s t) ∧
    (∀ p k, x.work = some k → stampGe s.clk.stamp (stampAdd k.w.release x.d) = true →
      ∃ u, exec (.decodePictureMissed id p) s = .next (decTurn u) ∧
        (let y := (({ x with work := none } : Sess).lose k.w k.p).forget;
          tfind u.vid.sess id = some { y with ckpt := y.context (pliTimer id s) }) ∧
        Changes [.mem, .regs, .cnt, .hif, .ctl, .vid, .flt, .obs, .ddr, .out] s u) ∧
    (∀ p w q, x.work = none → x.queue = w :: q → stampGe s.clk.stamp (stampAdd w.release x.d) = false →
      exec (.decodePictureMissed id p) s = .next s)

/-- R284, R296, R297: a tile's idle encode engine starts the ready picture; a picture completes; a repeat picture goes in place of one whose
input is unwritten at the start of its window, or which is not complete at its end. -/
def Sys2Proof.Claims.PictureEncoding : Prop :=
  ∀ (tile id : Nat) (e : Enc) (x : Canvas) (q : EncPic) (l : List EncPic) (s : State), tfind s.vid.encs id = some e →
    tfind s.vid.canvas (id % 256) = some x → e.pics = q :: l →
    (tileIn tile s = true → encBusy tile s = none → nextEncode tile s = some id →
      ∃ t e', exec (.encodePictureStart tile) s = .next t ∧ tfind t.vid.encs id = some e' ∧ (∃ p, e'.pics = p :: l ∧ p.on = true ∧ p.tick = q.tick) ∧
        Changes [.mem, .regs, .cnt, .hif, .vid, .ddr, .out] s t) ∧
    (encBusy tile s ≠ none → exec (.encodePictureStart tile) s = .next s) ∧
    (∀ o, encBusy tile s = some id → exec (.encodePictureComplete tile o) s = .next (encTurn (encodeComplete id e x q o s))) ∧
    (∀ n, (∀ p ∈ x.done, p.tick ≠ q.tick) → stampGe s.clk.stamp (stampAdd q.tick (compBlocks x.width x.height)) = true →
      exec (.repeatPicture id n) s = .next (encTurn (repeatPicture id n e x q s))) ∧
    (∀ n, stampGe s.clk.stamp (encEnd x q.tick) = true → exec (.repeatPicture id n) s = .next (encTurn (repeatPicture id n e x q s))) ∧
    (∀ n, (∃ p ∈ x.done, p.tick = q.tick) → stampGe s.clk.stamp (encEnd x q.tick) = false → exec (.repeatPicture id n) s = .next s)

/-- R327, R346, R349: a canvas's tick queues its composition; a composition completes, or is missed when it is not complete in its window. -/
def Sys2Proof.Claims.Composition : Prop :=
  ∀ (id : Nat) (x : Canvas) (s : State), tfind s.vid.canvas id = some x →
    (x.ends = false → stampGe s.clk.stamp (x.tick x.k) = true → x.suspended = false → draining x.comp s = false → drainHome drCanvas id s = none →
      exec (.canvasTick id) s = .next (compSync x.comp (holdPics x (x.tick x.k) (canvasPut id { x with
        k := x.k + 1
        ready := x.ready ++ [cpicAt id x (x.tick x.k) (tickEncs id (x.tick x.k) s)] } (tickEncs id (x.tick x.k) s))))) ∧
    (x.ends = false → stampGe s.clk.stamp (x.tick x.k) = true → x.suspended = true → drainHome drCanvas id s = none →
      exec (.canvasTick id) s = .next (canvasPut id { x with k := x.k + 1 } (tickEncs id (x.tick x.k) s))) ∧
    ((x.ends = true ∧ x.suspended = true ∧ drainHome drCanvas id s = none ∨ stampGe s.clk.stamp (x.tick x.k) = false) →
      exec (.canvasTick id) s = .next s) ∧
    (∀ comp crcs c l, nextComp comp s = some id → x.ready = c :: l → exec (.compositionComplete comp crcs) s = .next (compDone id x c crcs s)) ∧
    (∀ c l, x.ready = c :: l → stampGe s.clk.stamp (stampAdd c.tick (compBlocks x.width x.height)) = true →
      x.ends = false → ∃ t done, exec (.compositionMissed id) s = .next t ∧ tfind t.vid.canvas id = some { x with
          ready := l
          done := done
          stale := true } ∧ done.getLast? = x.done.getLast? ∧ (∀ p ∈ done, p ∈ x.done) ∧
        Changes [.mem, .regs, .cnt, .hif, .ctl, .vid, .ddr, .out] s t) ∧
    (∀ c l, x.ready = c :: l → stampGe s.clk.stamp (stampAdd c.tick (compBlocks x.width x.height)) = false →
      exec (.compositionMissed id) s = .next s)

/-- R350 to R352: the confidence output's link, its control register, its frames. -/
def Sys2Proof.Claims.ConfidenceOutput : Prop :=
  ∀ (s : State), let d := s.vid.dp
    (∀ caps, planDpEnable s = 1 → dpSt s = 0 → ∃ t, exec (.dpHpdHigh caps) s = .next t ∧ fget R.DP_STATUS_hpd t = 1 ∧
      Training (max 1 (bits caps 0 2)) (bits caps 2 2) s t) ∧
    (∀ pol, dpSt s = 1 → dpCarries d.lanes d.rate s = true → d.lanes < 4 → d.rate < 4 → pol < 16 → ∃ u,
      exec (.dpTrainPass pol) s = .next (raiseUnit EV_DP_LINK_UP 0 (dpLanes d.lanes + d.rate * 8) u) ∧ dpSt u = 2 ∧
      fget R.DP_STATUS_lanes u = d.lanes ∧ fget R.DP_STATUS_rate u = d.rate ∧ fget R.DP_STATUS_pol_inv u = pol ∧ Changes [.regs] s u) ∧
    (∀ pol, dpSt s = 1 → dpCarries d.lanes d.rate s = false → exec (.dpTrainPass pol) s = .next (dpLost 2 3 s)) ∧
    (dpSt s = 1 → 0 < d.rate → ∃ t, exec .dpTrainStepFail s = .next t ∧ Training d.lanes (d.rate - 1) s t) ∧
    (dpSt s = 1 → d.rate = 0 → 1 < d.lanes → ∃ t, exec .dpTrainStepFail s = .next t ∧ Training (d.lanes - 1) d.maxRate s t) ∧
    (dpSt s = 1 → d.rate = 0 → d.lanes ≤ 1 → exec .dpTrainStepFail s = .next (dpLost 1 3 s)) ∧
    (dpSt s = 3 → 2000 ≤ stampSub s.clk.stamp d.failed → ∃ t, exec .dpRetryTimer s = .next t ∧ Training d.maxLanes d.maxRate s t) ∧
    (dpSt s = 2 → ∃ t, exec .dpHpdIrq s = .next t ∧ Training d.maxLanes d.maxRate s t) ∧
    (planDpEnable s = 1 → exec .dpHpdLow s = .next (dpLost 0 0 (fset R.DP_STATUS_hpd 0 s))) ∧
    (∀ reason st, st < 4 → ∃ u, dpLost reason st s = raiseUnit EV_DP_LINK_DOWN 0 reason u ∧ dpSt u = st ∧ fget R.DP_STATUS_lanes u = 0 ∧
      u.vid.dp.failed = s.clk.stamp ∧ Changes [.regs, .vid] s u) ∧
    (∀ v, bits v 0 2 < 2 → bits v 10 2 ≤ 2 → bits v 13 3 ≤ 4 → dpSt s ≠ 3 → ∃ t, exec (.dpCtrlWrite v) s = .next t ∧
      fget R.DP_CTRL_mode t = bits v 0 2 ∧ fget R.DP_CTRL_canvas t = bits v 2 8 ∧ fget R.DP_CTRL_timing t = bits v 10 2 ∧
      fget R.DP_CTRL_rate t = bits v 12 1 ∧ fget R.DP_CTRL_pattern t = bits v 13 3 ∧ Changes [.regs] s t) ∧
    (∀ v, bits v 0 2 = 2 → (∀ x, liveCanvas (bits v 2 8) s = some x → x.dp = false) → dpSt s ≠ 3 → ∃ t, exec (.dpCtrlWrite v) s = .next t ∧
      fget R.DP_STATUS_refused t = 1 ∧ fget R.DP_CTRL_mode t = fget R.DP_CTRL_mode s ∧ fget R.DP_CTRL_canvas t = fget R.DP_CTRL_canvas s ∧
      Changes [.regs] s t) ∧
    (planDpEnable s = 1 → dpSt s = 2 → (s.clk.running = false ∨ fget R.FRM_STATUS_state s = 3 ∨ fget R.DP_CTRL_mode s = 1) →
      ∃ t, exec .dpFrameStart s = .next t ∧ t.vid.dp.shown = none ∧
        t.out = .diag (fget R.DP_CTRL_pattern s) (if fget R.DP_CTRL_pattern s = 3 then dpPage s else []) :: s.out ∧
        Changes [.regs, .cnt, .vid, .out] s t) ∧
    (planDpEnable s = 1 → dpSt s = 2 → s.clk.running = true → fget R.FRM_STATUS_state s ≠ 3 → fget R.DP_CTRL_mode s = 2 →
      exec .dpFrameStart s = .next (dpService (cinc 0x680040 (dpSync (dpLatch s)))))

/-- R327, R346, R349 to R352: pictures composed, and the confidence output. -/
def Obligations.PictureOutput : Prop := Claims.Composition ∧ Claims.ConfidenceOutput


/-- R275: a tile's hardware fault moves its duty to its Bay's spare; a retired tile's has no effect. -/
def Sys2Proof.Claims.TileFaults : Prop :=
  ∀ (t : Nat) (s : State), t < 68 →
    (fget (R.VCT_TILE_STATUS_state t) s ≠ 2 → exec (.tileHwFault t) s = .next (tileFail faultDeclare t s)) ∧
    (fget (R.VCT_TILE_STATUS_state t) s = 2 → exec (.tileHwFault t) s = .next s) ∧
    (∀ u, u < 68 → u ≠ t → let y := tileMove t u 2 s
      fget (R.VCT_TILE_STATUS_state t) y = 2 ∧ fget (R.VCT_TILE_STATUS_state u) y = 0 ∧ fget (R.VCT_TILE_DUTY_valid t) y = 0 ∧
        fget (R.VCT_TILE_DUTY_valid u) y = 1 ∧ fget (R.VCT_TILE_DUTY_duty_of u) y = fget (R.VCT_TILE_DUTY_duty_of t) s % 128 ∧
        (∀ p ∈ y.vid.sess, p.2.tile ≠ t) ∧ (∀ p ∈ y.vid.encs, p.2.tile ≠ t) ∧ Changes [.regs, .vid] s y)

/-! ## DRAM, the Ledger, framing (spec/15_dram_ledger.md, spec/02_framing.md R56 to R70, spec/12 R321) -/

namespace Sys2Proof.Claims
open Sys2Proof.Machine

/-- The rows of a device of a subchannel that have shown corrected errors within 2,000,000 blocks, this one among them (R373). -/
def rowsSeen (ch sub dev row : Nat) (s : State) : Tbl Nat :=
  tset (within_ 2000000 (tget [] s.ddr.rows (ch * 32 + sub * 16 + dev)) s) row s.clk.stamp

/-- The lines of a channel found uncorrectable within 2,000 blocks, this one among them (R373). -/
def linesSeen (ch line : Nat) (s : State) : Tbl Nat := tset (within_ 2000 (tget [] s.ddr.lines ch) s) line s.clk.stamp

/-- An uncorrectable line counted and reported, where no report of the channel stands within 2,000 blocks (R373). -/
def lineReported (ch line : Nat) (s : State) : State :=
  let r := rateOk (rateKey EV_DDR_UNCORR ch) 2000 (cinc (chanCnt ch 0x58) s)
  if r.1 = true then raiseUnit EV_DDR_UNCORR (unitDdr ch) (ch + line * 256) r.2 else r.2

/-- A running operation of framing in a phase. -/
def FramingIn (fn : Fn) (tag : Nat) (ph : FrmPhase) (l : Lop) (o : FrmOp) (s : State) : Prop :=
  lopFind fn tag s = some l ∧ l.st = .running ∧ frmOp fn tag s = some o ∧ o.phase = ph

end Sys2Proof.Claims

open Sys2Proof Sys2Proof.Machine Sys2Proof.Claims

/-- R371, R373, R377: corrected and uncorrectable errors, parity alerts, the loss of a channel. -/
def Sys2Proof.Claims.DramErrors : Prop :=
  ∀ (ch : Nat) (s : State), chanUp ch s = true →
    (∀ sub dev row, (rowsSeen ch sub dev row s).length < 16 → ∃ t, exec (.ddrEccCorrected ch sub dev row) s = .next t ∧
      tget [] t.ddr.rows (ch * 32 + sub * 16 + dev) = rowsSeen ch sub dev row s ∧ Changes [.cnt, .ddr] s t) ∧
    (∀ sub dev row, 16 ≤ (rowsSeen ch sub dev row s).length → ∃ u, exec (.ddrEccCorrected ch sub dev row) s =
        .next (suspectReport (unitDdr ch) 3 (raiseUnit EV_DDR_DEVICE_SUSPECT (unitDdr ch) (ch + sub * 16 + dev * 256) u)).2 ∧
      fget (R.DDR_CH_STATUS_device_suspect ch) u = 1 ∧ Changes [.regs, .cnt, .ddr] s u) ∧
    (∀ line jr rw, (lineOn line s).contains ch = true → 1 < (lineOn line s).length → ∃ t, exec (.ddrEccUncorrectable ch line false jr rw) s = .next t ∧
      (let m := linesSeen ch line (lineReported ch line s); tget [] t.ddr.lines ch = m ∧ (64 < m.length → (ch, 2) ∈ t.ddr.due)) ∧
      t.ctl = s.ctl ∧ t.egr = s.egr ∧ t.vid = s.vid) ∧
    (∀ line jr rw, (lineOn line s).contains ch = true → ∃ u, exec (.ddrEccUncorrectable ch line true jr rw) s =
        .next (dataLost jr rw (bufsHit (fun a n => decide (64 * line < a + n) && decide (a < 64 * line + 64)) u) u) ∧
      line ∈ u.mem.poison ∧ (let m := linesSeen ch line (lineReported ch line s); tget [] u.ddr.lines ch = m ∧ (64 < m.length → (ch, 2) ∈ u.ddr.due))) ∧
    (∃ t, exec (.ddrCaParityAlert ch false) s = .next t ∧ tget 0 t.ddr.alerts ch = 0 ∧ t.ddr.due = s.ddr.due ∧ Changes [.cnt, .ddr] s t) ∧
    (tget 0 s.ddr.alerts ch < 2 → ∃ t, exec (.ddrCaParityAlert ch true) s = .next t ∧ tget 0 t.ddr.alerts ch = tget 0 s.ddr.alerts ch + 1 ∧
      t.ddr.due = s.ddr.due ∧ Changes [.cnt, .ddr] s t) ∧
    (tget 0 s.ddr.alerts ch = 2 → ∃ t, exec (.ddrCaParityAlert ch true) s = .next t ∧ t.ddr.due = s.ddr.due ++ [(ch, 1)] ∧ Changes [.cnt, .ddr] s t) ∧
    (∀ cause jr rw, (ch, cause) ∈ s.ddr.due ∨ cause = 3 → exec (.ddrChannelLoss ch cause jr rw) s = .next (channelLost ch cause jr rw s)) ∧
    (∀ cause jr rw, (ch, cause) ∉ s.ddr.due → cause ≠ 3 → exec (.ddrChannelLoss ch cause jr rw) s = .next s)

/-- R381, R384: an uncorrectable word of the Ledger is reported, and the record that holds it is ignored. -/
def Sys2Proof.Claims.LedgerErrors : Prop :=
  ∀ (addr copy : Nat) (s : State), ∃ u, exec (.ledgerEcc addr copy) s = .next (ldgSync u) ∧
    Changes [.mem, .regs, .cnt, .hif, .ddr, .ldg, .out] s u ∧
    (addr < 0x10000 → copy = 0 → u.ldg.hdrA.ok = false ∧ u.ldg.hdrB = s.ldg.hdrB) ∧
    (addr < 0x10000 → copy ≠ 0 → u.ldg.hdrB.ok = false ∧ u.ldg.hdrA = s.ldg.hdrA) ∧
    (0x10000 ≤ addr → u.ldg.hdrA = s.ldg.hdrA ∧ u.ldg.hdrB = s.ldg.hdrB) ∧
    (0x10000 ≤ addr → addr < 0x820000 → addr / 64 ∈ u.ldg.bad) ∧
    (0x820000 ≤ addr → addr < 0xE20000 → u.ldg.bankA.ok = false ∧ u.ldg.bankB = s.ldg.bankB) ∧
    (0xE20000 ≤ addr → addr < 0x1420000 → u.ldg.bankB.ok = false ∧ u.ldg.bankA = s.ldg.bankA)

/-- R371, R373, R377, R381, R384: errors of DRAM and of the Ledger. -/
def Obligations.DramAndLedger : Prop := Claims.DramErrors ∧ Claims.LedgerErrors


/-- R56 to R61, R65: an operation of framing leaves the queue, and goes through FETCH, SIGN, PASS1, PASS2 and CHECK; what fails ends it. -/
def Sys2Proof.Claims.FramingPhases : Prop :=
  ∀ (fn : Fn) (tag : Nat) (l : Lop) (o : FrmOp) (s : State),
    (lopFind fn tag s = some l → frmOp fn tag s = some o → l.fn = fn → l.tag = tag → l.st = .queued → mayDequeue l o s = true →
      ∃ t, exec (.framingDequeue fn tag) s = .next t ∧ lopFind fn tag t = some { l with
        st := .running
        started := true } ∧ (o.kind = 0 → fget R.FRM_STATUS_state t = 1) ∧ (o.kind ≠ 0 → t.regs = s.regs) ∧ Changes [.regs, .hif] s t) ∧
    (lopFind fn tag s = some l → frmOp fn tag s = some o → l.st = .queued → mayDequeue l o s = false →
      exec (.framingDequeue fn tag) s = .next s) ∧
    (FramingIn fn tag .fetch l o s → o.space ≠ 1 → s.mem.linkUp = false → exec (.framingFetchChunk fn tag) s = .next s) ∧
    (FramingIn fn tag .fetch l o s → (o.space = 1 ∨ s.mem.linkUp = true) → let n := min 65536 (o.length - o.img.length)
      (imgReach o (o.addr + o.img.length) n s = true → exec (.framingFetchChunk fn tag) s = .next (frmPut fn tag { o with
        img := o.img ++ imgRead o (o.addr + o.img.length) n s
        phase := if (o.img ++ imgRead o (o.addr + o.img.length) n s).length = o.length then .sign else .fetch } s)) ∧
      (imgReach o (o.addr + o.img.length) n s = false → exec (.framingFetchChunk fn tag) s = .next (frmFail fn tag frFetchErr 0xFF s))) ∧
    (FramingIn fn tag .sign l o s →
      (∀ k, signPhase o.img (decide (o.kind = 0)) o.length s = .ok k → exec (.framingSignDone fn tag) s = .next (frmPut fn tag { o with
        phase := if (encEntries o.img).isEmpty then .check else .pass1 } { s with key := { s.key with
          kr0 := tset s.key.kr0 (lopKey fn tag) k } })) ∧
      (∀ r i, signPhase o.img (decide (o.kind = 0)) o.length s = .error (r, i) → exec (.framingSignDone fn tag) s = .next (frmFail fn tag r i s))) ∧
    (∀ i e, (encEntries o.img)[o.next]? = some (i, e) →
      (FramingIn fn tag .pass1 l o s →
        (tagOk o.img (timberKey fn tag s) e = false →
          exec (.framingPass1Timber fn tag) s = .next (frmFail fn tag frTagFail i (verifyOnly s))) ∧
        (tagOk o.img (timberKey fn tag s) e = true → o.next + 1 < (encEntries o.img).length →
          exec (.framingPass1Timber fn tag) s = .next (frmPut fn tag { o with next := o.next + 1 } (verifyOnly s))) ∧
        (tagOk o.img (timberKey fn tag s) e = true → o.next + 1 = (encEntries o.img).length →
          exec (.framingPass1Timber fn tag) s = .next (frmPut fn tag { o with
            next := 0
            phase := .pass2 } (verifyOnly s)))) ∧
      (FramingIn fn tag .pass2 l o s → ∀ hit,
        ((hit = true ∨ tagOk o.img (timberKey fn tag s) e = false) →
          exec (.framingPass2Timber fn ⟨tag, hit⟩) s = .next (frmFail fn tag frTagFail2 i s)) ∧
        (hit = false → tagOk o.img (timberKey fn tag s) e = true → exec (.framingPass2Timber fn ⟨tag, hit⟩) s = .next (frmPut fn tag { o with
          plain := tset o.plain i (plainOf o.img (timberKey fn tag s) e)
          next := o.next + 1
          phase := if o.next + 1 = (encEntries o.img).length then .check else .pass2 } s)))) ∧
    (FramingIn fn tag .check l o s → o.kind = 2 →
      (∀ m, rolled o.scope s = .ok m → allotOk m s = true → exec (.framingCheckDone fn tag) s = .next (frmArm fn tag o s)) ∧
      (∀ m, rolled o.scope s = .ok m → allotOk m s = false → exec (.framingCheckDone fn tag) s = .next (frmFail fn tag frAllotInUse 0xFF s)) ∧
      (∀ r i, rolled o.scope s = .error (r, i) → exec (.framingCheckDone fn tag) s = .next (frmFail fn tag r i s))) ∧
    (FramingIn fn tag .check l o s → o.kind ≠ 2 →
      (∀ m, imageCheck o.img o.plain fn s = .ok m → o.kind = 0 → exec (.framingCheckDone fn tag) s =
        .next (frmDone fn tag s.clk.stamp 1 0 (fset R.PWR_STATUS_phase phClocks (fullApply o.img m s)))) ∧
      (∀ m, imageCheck o.img o.plain fn s = .ok m → o.kind ≠ 0 → exec (.framingCheckDone fn tag) s = .next (frmArm fn tag { o with
        act := le o.img 0x18 8
        base := le o.img 0x20 4 } s)) ∧
      (∀ r i, imageCheck o.img o.plain fn s = .error (r, i) → exec (.framingCheckDone fn tag) s = .next (frmFail fn tag r i s)))

/-- R70: a write of the revoked bits of FRM_SIGNER: permanent; refused and counted where it names the slot that signed the image in effect,
or leaves no provisioned slot unrevoked. -/
def Sys2Proof.Claims.SignerRevocation : Prop :=
  ∀ (v : Nat) (s : State), let old := fget R.FRM_SIGNER_revoked s
    let Fresh := fun (k : Nat) => k < 4 ∧ bit v k = true ∧ bit old k = false
    ((∀ k, ¬ Fresh k) → exec (.frmSignerRevoke v) s = .next s) ∧
    ((∃ k, Fresh k) → (fget R.FRM_STATUS_state s = 2 ∧ Fresh (fget R.FRM_SIGNER_active_slot s)) →
      exec (.frmSignerRevoke v) s = .next (cinc 0x40308 s)) ∧
    ((∃ k, Fresh k) → (∀ k, k < 4 → bit (fget R.FRM_SIGNER_provisioned s) k = true → bit old k = true ∨ bit v k = true) →
      exec (.frmSignerRevoke v) s = .next (cinc 0x40308 s)) ∧
    ((∃ k, Fresh k) → ¬ (fget R.FRM_STATUS_state s = 2 ∧ Fresh (fget R.FRM_SIGNER_active_slot s)) →
      (∃ k, k < 4 ∧ bit (fget R.FRM_SIGNER_provisioned s) k = true ∧ bit old k = false ∧ bit v k = false) →
      ∃ t, exec (.frmSignerRevoke v) s = .next t ∧ Changes [.regs] s t ∧
        ∀ k, k < 4 → bit (fget R.FRM_SIGNER_revoked t) k = (bit old k || bit v k))

/-- R56 to R61, R65, R70: the phases of a framing operation, and the revocation of a signer. -/
def Obligations.Framing : Prop := Claims.FramingPhases ∧ Claims.SignerRevocation


/-- R321: an export of a rewind ring begins at its first number and goes on part by part; without its marks it fails with the oldest number. -/
def Sys2Proof.Claims.RewindExport : Prop :=
  ∀ (fn : Fn) (tag : Nat) (l : Lop) (s : State), lopFind fn tag s = some l → l.opcode = 0x39 → (l.st = .queued ∨ lopActive l = true) →
    (∀ e, tfind s.egr.exps (lopKey fn tag) = some e →
      exec (.rewindExportChunk fn tag) s = .next (expRun 65536 fn tag l.cmd 0 e (lopBegin fn tag s))) ∧
    (∀ r x y, tfind s.egr.exps (lopKey fn tag) = none → tfind s.egr.rings l.cmd.target = some r → expRange l.cmd r = some (x, y) →
      exec (.rewindExportChunk fn tag) s = .next (expRun 65536 fn tag l.cmd 0 ⟨x, y, 0, 0, x⟩ (lopBegin fn tag s))) ∧
    (∀ r, tfind s.egr.exps (lopKey fn tag) = none → tfind s.egr.rings l.cmd.target = some r → expRange l.cmd r = none →
      exec (.rewindExportChunk fn tag) s = .next (expEnd fn tag .failed stFailed 1 ⟨0, 0, 0, 0, rwOldest r⟩ (lopBegin fn tag s)))

/-- R314, R316, R318, R319, R321, R322, R361, R364, R365: forwarding, egress, the export of a rewind ring. -/
def Obligations.Sending : Prop := Claims.ForwarderRows ∧ Claims.EgressRows ∧ Claims.RewindExport


/-! ## The Safety Net, the firmware swap (spec/17_safety_net.md; spec/10_codec_tiles_decode.md R276, R277) -/

namespace Sys2Proof.Claims
open Sys2Proof.Machine

/-- A Bay that is neither lost nor quarantined: its loss may be declared (R407, R410). -/
def MayLose (bay : Nat) (s : State) : Prop := bay < 4 ∧ baySt bay s ≠ 1 ∧ baySt bay s ≠ 2

/-- The live self-test of a Bay, whose next segment is `seg`, its operation at work. -/
def TestAt (bay seg : Nat) (t : SelfTest) (l : Lop) (s : State) : Prop :=
  s.flt.test = some t ∧ t.bay = bay ∧ baySt bay s = 4 ∧ nextSeg t.mask t.next = some seg ∧ lopFind t.fn t.tag s = some l ∧ lopActive l = true

/-- A running firmware swap in a phase. -/
def SwapIn (fn : Fn) (tag ph : Nat) (l : Lop) (o : FwOp) (s : State) : Prop :=
  lopFind fn tag s = some l ∧ l.opcode = 0x54 ∧ l.st = .running ∧ tget ⟨0, [], 0, 0⟩ s.vid.fw (lopKey fn tag) = o ∧ o.phase = ph

end Sys2Proof.Claims

open Sys2Proof Sys2Proof.Machine Sys2Proof.Claims

/-- R407, R410, R413: the loss of a Bay declared on a missed heartbeat, on another cause, or on a unit that has no spare; nothing where it is
out of service already. -/
def Sys2Proof.Claims.BayLoss : Prop :=
  ∀ (bay : Nat) (s : State), bay < 4 →
    (MayLose bay s → exec (.bayHeartbeatMiss bay) s = .next (bayOut bay 1 (unitBay bay) 3 s) ∧
      (∀ cause, 1 ≤ cause → cause ≤ 4 → exec (.bayLossDeclared bay cause) s = .next (bayOut bay cause (unitBay bay) 3 s)) ∧
      (∀ unit, exec (.unitFailed bay unit) s = .next (bayOut bay 6 unit 2 s)) ∧ Machine.bayQuarantine bay s = bayOut bay 5 (unitBay bay) 8 s) ∧
    (¬ MayLose bay s → exec (.bayHeartbeatMiss bay) s = .next s ∧ (∀ cause, exec (.bayLossDeclared bay cause) s = .next s) ∧
      (∀ unit, exec (.unitFailed bay unit) s = .next s) ∧ Machine.bayQuarantine bay s = s) ∧
    (∀ st cause idx, st < 8 → ∃ u, baySet bay st cause idx s = raiseUnit EV_BAY_STATE (unitBay bay) (bayDetail bay st cause idx) u ∧
      baySt bay u = st ∧ Changes [.regs] s u)

/-- R410, R417 to R419: the drain of a self-test over; a segment of it over; the cores that suspects' own test found. -/
def Sys2Proof.Claims.SelfTests : Prop :=
  ∀ (bay seg : Nat) (failed : List Nat) (s : State),
    (∀ t, s.flt.test = some t → t.bay = bay → baySt bay s = 3 → drained bay s = true →
      exec (.bayDrainComplete bay) s = .next (baySet bay 4 5 0 { s with flt := { s.flt with test := some { t with drained := true } } })) ∧
    (∀ t, s.flt.test = some t → drained bay s = false → exec (.bayDrainComplete bay) s = .next s) ∧
    (∀ t l, TestAt bay seg t l s → exec (.selftestSegmentDone bay seg failed) s = .next (testSegment seg failed t s)) ∧
    (∀ t l n, TestAt bay seg t l s → l.st = .running → nextSeg t.mask (seg + 1) = some n → ∃ u, exec (.selftestSegmentDone bay seg []) s = .next u ∧
      u.flt.test = some { t with
        passed := t.passed + 2 ^ seg
        next := seg + 1 } ∧ Changes [.regs, .flt] s u) ∧
    (s.flt.test = none → exec (.selftestSegmentDone bay 0 failed) s =
      .next ((s.crsl.testing.filter fun u => decide (coreCluster (u % 2048) / 8 = bay)).foldl (fun s u =>
        suspectTested (u % 2048) (failed.contains u) s) s))

/-- R407, R410, R413, R417 to R419: Bays lost, and self-tests. -/
def Obligations.BayLossAndTests : Prop := Claims.BayLoss ∧ Claims.SelfTests


/-- R408, R415: a mismatch of the Ringmaster's lockstep rolls back and is reported; the third in a row at one point stops for the cores' own
tests; one core that passes alone runs single. -/
def Obligations.Lockstep : Prop :=
  ∀ (s : State), let next := fun (same : Bool) => if same then s.flt.rolls + 1 else 0
    let rolled := fun (same : Bool) => { s with flt := { s.flt with
      rolls := next same
      rollsBlock := s.flt.rollsBlock + 1 } }
    let rec_ : FaultRec := ⟨unitRm, 5, 7, 0, 0, 0, s.flt.rollsBlock + 1, 0xFF, 1, 0⟩
    (∀ same, fon R.FLT_RM_STATUS_single s = false → s.flt.rolls < 3 → next same < 3 → exec (.lockstepMismatch same) s =
      .next (raiseUnit EV_RM_ROLLBACK unitRm (s.flt.rollsBlock + 1) (cinc 0x740120 (faultDeclare rec_ (rolled same)).2))) ∧
    (fon R.FLT_RM_STATUS_single s = false → s.flt.rolls = 2 → exec (.lockstepMismatch true) s = .next { s with flt := { s.flt with rolls := 3 } }) ∧
    (∀ same, fon R.FLT_RM_STATUS_single s = true → exec (.lockstepMismatch same) s = .next s) ∧
    (3 ≤ s.flt.rolls → exec (.rmSelftestDone true true) s = .next { s with flt := { s.flt with rolls := 0 } } ∧
      exec (.rmSelftestDone false false) s = .next s ∧
      ∀ pass0, ∃ u, exec (.rmSelftestDone pass0 !pass0) s = .next (raiseUnit EV_RM_SINGLE unitRm (b2n (!pass0)) u) ∧
        fget R.FLT_RM_STATUS_single u = 1 ∧ fget R.FLT_RM_STATUS_core u = b2n (!pass0) ∧ u.flt.rmFailed = [b2n pass0] ∧ u.flt.rolls = 0) ∧
    (s.flt.rolls < 3 → ∀ a b, exec (.rmSelftestDone a b) s = .next s)

/-- R276, R277: the phases of a firmware swap: the package fetched, verified, loaded tile by tile; armed, it waits for its boundary. -/
def Sys2Proof.Claims.FirmwareSwap : Prop :=
  ∀ (fn : Fn) (tag : Nat) (l : Lop) (o : FwOp) (s : State),
    (lopFind fn tag s = some l → l.opcode = 0x54 → l.st = .queued → l.fn = fn → l.tag = tag →
      ∀ ok, exec (.fwSwapPhaseDone fn tag ok) s = exec (.fwSwapPhaseDone fn tag ok) (lopBegin fn tag s) ∧
        lopFind fn tag (lopBegin fn tag s) = some { l with
          st := .running
          started := true }) ∧
    (SwapIn fn tag 0 l o s → s.mem.linkUp = false → ∀ ok, exec (.fwSwapPhaseDone fn tag ok) s = .next s) ∧
    (SwapIn fn tag 0 l o s → s.mem.linkUp = true → let a := carg l.cmd 0x18 8
      let n := carg l.cmd 0x20 4
      (hostOk a n s = true → exec (.fwSwapPhaseDone fn tag true) s = .next (fwPut fn tag { o with
        img := hostRead a n s
        phase := 1 } s)) ∧
      (hostOk a n s = false → exec (.fwSwapPhaseDone fn tag true) s = .next (fwEnd fn tag .failed stFailed frFetchErr s)) ∧
      exec (.fwSwapPhaseDone fn tag false) s = .next (fwEnd fn tag .failed stFailed frFetchErr s)) ∧
    (SwapIn fn tag 1 l o s → ∀ ok,
      (fwCheck fwTileMagic fwTileMax o.img s = 0 → exec (.fwSwapPhaseDone fn tag ok) s =
        .next (fwNext fn tag { o with version := le o.img 0x0C 4 } s)) ∧
      (fwCheck fwTileMagic fwTileMax o.img s ≠ 0 → exec (.fwSwapPhaseDone fn tag ok) s =
        .next (fwEnd fn tag .failed stFailed (fwCheck fwTileMagic fwTileMax o.img s) s))) ∧
    (SwapIn fn tag 2 l o s → ∀ ok, exec (.fwSwapPhaseDone fn tag ok) s =
      .next (fwNext fn tag { o with next := o.next + 1 } (fset (R.VCT_TILE_FW_STANDBY_version o.next) o.version s))) ∧
    (SwapIn fn tag 3 l o s → ∀ ok, exec (.fwSwapPhaseDone fn tag ok) s = .next s)

/-- R275 to R277: a tile in fault, and a swap of the tiles' firmware. -/
def Obligations.Tiles : Prop := Claims.TileFaults ∧ Claims.FirmwareSwap


/-! ## The cascade (spec/19_abajor_cascade.md) -/

namespace Sys2Proof.Claims
open Sys2Proof.Machine

/-- `i` is the command of a message of type `k` (R446). -/
def MsgRow (p : List Byte) (k : Nat) (i : Instr) : Prop :=
  k = 0x01 ∧ i = .casHello p ∨ k = 0x02 ∧ i = .casJoinAck p ∨ k = 0x03 ∧ i = .casLeave p ∨ k = 0x10 ∧ i = .casAudio p ∨
    k = 0x20 ∧ i = .casVideo p ∨ k = 0x21 ∧ i = .casVideoReq p

/-- A control message with a tag is a request for a verification to the cipher engines, and counted there (R134, R447). -/
def tagCounted (m : CasMsg) (s : State) : State :=
  if m.typ < 0x10 ∧ bit m.flags 0 = true ∧ s.key.kr1 ≠ [] then verifyOnly s else s

/-- A message that may be taken: not a control message, or one whose tag holds. -/
def Authentic (m : CasMsg) (s : State) : Prop := 0x10 ≤ m.typ ∨ casVerified m (tagCounted m s) = true

/-- The sequence number of a message's type was seen before. -/
def Repeated (m : CasMsg) (s : State) : Prop := m.typ * 65536 + m.seq ∈ (casPeer m.src s).seen

/-- The start stamp that a HELLO is accepted with: the one it proposes, or the least that this part takes. -/
def helloStart (m : CasMsg) (s : State) : Nat :=
  if stampAfter (le m.body 0 6) (stampAdd s.clk.stamp 200) then le m.body 0 6 else stampAdd s.clk.stamp 200

end Sys2Proof.Claims

open Sys2Proof Sys2Proof.Machine Sys2Proof.Claims

/-- R444 to R447: a message of the cascade: malformed, of another part, not authentic, seen before, or taken. -/
def Sys2Proof.Claims.CascadeMessages : Prop :=
  ∀ (p : List Byte) (k : Nat) (i : Instr) (s : State), MsgRow p k i → le p 1 1 = k →
    (casParse p = none → exec i s = .next (cinc 0x800040 s)) ∧
    (∀ m, casParse p = some m → m.dst ≠ casMe s → exec i s = .next s) ∧
    (∀ m, casParse p = some m → m.dst = casMe s → ¬ Authentic m s → exec i s = .next (casAuthFail m.src (tagCounted m s))) ∧
    (∀ m, casParse p = some m → m.dst = casMe s → Authentic m s → Repeated m s → exec i s = .next (cinc (peerCnt m.src 0x38) (tagCounted m s))) ∧
    (∀ m, casParse p = some m → m.dst = casMe s → Authentic m s → ¬ Repeated m s → exec i s = .next (casDo m (cinc (peerCnt m.src 0x20)
      (casPeerPut m.src (casSeen m (casPeer m.src s)) (tagCounted m s)))))

/-- R449 to R455: what a message that is taken does: a HELLO is answered, a member's LEAVE, AUDIO and VIDEO are noted, a VIDEO_REQ is served. -/
def Sys2Proof.Claims.CascadeEffects : Prop :=
  ∀ (m : CasMsg) (s : State),
    (m.typ = 1 → (let res := if 1 < stampSub s.clk.stamp (le m.body 8 6) then 1 else if le m.body 18 1 ≠ casX s then 2
        else if m.src = casMe s ∨ inForce m.src s.clk.stamp s = true then 3 else 0
      ∃ t body, casDo m s = casSend m.src 2 0 s.clk.stamp false body t ∧ le body 10 1 = res ∧
        (res = 0 → le body 0 8 = helloStart m s % 2 ^ 64 ∧ tfind t.cas.members m.src = some (helloStart m s)) ∧
        (res ≠ 0 → le body 0 8 = 0 ∧ t = s))) ∧
    (m.typ = 2 → ∀ j, s.cas.join = some j → j.start = none → bit j.mask m.src = true → le m.body 10 1 = 0 →
      casDo m s = joinAgree { j with acks := tset j.acks m.src (le m.body 0 6) } { s with cas := { s.cas with
        join := some { j with acks := tset j.acks m.src (le m.body 0 6) } } }) ∧
    (m.typ = 3 → tfind s.cas.members m.src = none → casDo m s = s) ∧
    (m.typ = 3 → tfind s.cas.members m.src ≠ none →
      casDo m s = leaveBoundary s.clk.stamp (casPeerPut m.src { casPeer m.src s with leave := some (le m.body 0 6) } s)) ∧
    (m.typ = 0x10 → tfind s.cas.members m.src ≠ none → stampGe s.clk.stamp (stampAdd m.stamp (1 + casX s)) = false →
      let i := tget ⟨[], false⟩ (casPeer m.src s).ins m.stamp
      let live := (casRecs (m.body.length / 152 + 1) m.body).filter fun r => ((mappedAct r.act s).bind fun a => repOf a s).isNone
      tget ⟨[], false⟩ (casPeer m.src (casDo m s)).ins m.stamp = ⟨i.recs ++ live, i.ended || !bit m.flags 1⟩) ∧
    (m.typ = 0x10 → tfind s.cas.members m.src ≠ none → stampGe s.clk.stamp (stampAdd m.stamp (1 + casX s)) = true →
      casDo m s = casLate m.src (casRecs (m.body.length / 152 + 1) m.body).length s) ∧
    (m.typ = 0x21 → m.subject / 4096 % 16 = casMe s → le m.body 0 1 = 0 → m.src ∈ tget [] (casDo m s).cas.wanted m.subject) ∧
    (m.typ = 0x21 → m.subject / 4096 % 16 = casMe s → le m.body 0 1 = 1 → m.src ∉ tget [] (casDo m s).cas.wanted m.subject) ∧
    (m.typ = 0x21 → m.subject / 4096 % 16 = casMe s → ∀ c, bridgeCtx m.subject s = some c →
      (le m.body 0 1 = 2 → casDo m s = fwdPli c s.clk.stamp s) ∧ (le m.body 0 1 = 3 → casDo m s = fwdFir c s.clk.stamp s))

/-- R448 to R450, R455, R456: HELLOs sent again, a join timed out, a member lost, a stream no longer wanted, the cascade key's register. -/
def Sys2Proof.Claims.CascadeTimers : Prop :=
  ∀ (s : State),
    (∀ j l h, s.cas.join = some j → j.start = none → j.hello = some h → 20 ≤ stampSub s.clk.stamp h → lopFind j.fn j.tag s = some l →
      lopActive l = true → exec .helloResend s = .next (helloSend j s)) ∧
    (∀ j h, s.cas.join = some j → j.hello = some h → stampSub s.clk.stamp h < 20 → exec .helloResend s = .next s) ∧
    (∀ j l, s.cas.join = some j → j.start = none → joinAcked j = false → 2000 ≤ stampSub s.clk.stamp j.began → lopFind j.fn j.tag s = some l →
      (l.st = .running → exec .joinTimeout s = .next (joinFail j 1 s)) ∧ (l.st = .cancelling → exec .joinTimeout s = .next (joinCancel j s))) ∧
    (∀ j, s.cas.join = some j → (joinAcked j = true ∨ stampSub s.clk.stamp j.began < 2000) → exec .joinTimeout s = .next s) ∧
    (∀ m, tfind s.cas.members m ≠ none → 4 ≤ (casPeer m s).missed → ∃ u, exec (.memberLoss m) s = .next (raise (ev EV_MEMBER_LOST 0 none 0 0
        (m % 16 + (casPeer m s).last.getD 0 * 2 ^ 16) s) u) ∧ tfind u.cas.members m = none ∧ Changes [.regs, .cas] s u) ∧
    (∀ m, (casPeer m s).missed < 4 → exec (.memberLoss m) s = .next s) ∧
    (∀ k a, tfind s.cas.wants k = some (some a) → 2000 ≤ stampSub s.clk.stamp a → ∃ u, exec (.videoReqStop k) s = .next (casRequest k 1 u) ∧
      tfind u.cas.wants k = none ∧ tfind u.cas.streams k = none ∧ Changes [.cas] s u) ∧
    (s.key.kr1 = [] → s.cas.words.length = 8 → ∃ t, exec .casKeyLoad s = .next t ∧
      t.key.kr1 = ((List.range 8).map fun i => (leBytes 4 (tget 0 s.cas.words i)).map (·.toNat)).flatten ∧ fget R.CAS_KEY_STATUS_valid t = 1 ∧
      fget R.CAS_KEY_STATUS_kcv t = kcvOf t.key.kr1 % 2 ^ R.CAS_KEY_STATUS_kcv.w ∧ t.cas.words = [] ∧ Changes [.regs, .key, .cas] s t) ∧
    (s.key.kr1 ≠ [] ∨ s.cas.words.length ≠ 8 → ∃ t, exec .casKeyLoad s = .next t ∧ t.cas.words = [] ∧ Changes [.cas] s t) ∧
    (∃ t, exec .casKeyErase s = .next t ∧ t.key.kr1 = [] ∧ fget R.CAS_KEY_STATUS_valid t = 0 ∧ t.cas.words = [] ∧ Changes [.regs, .key, .cas] s t) ∧
    (∃ t, exec .casKeyAbort s = .next t ∧ t.cas.words = [] ∧ Changes [.cas] s t)

/-- R444 to R456: messages of the cascade taken, what they do, timers and the key of the cascade. -/
def Obligations.Cascade : Prop := Claims.CascadeMessages ∧ Claims.CascadeEffects ∧ Claims.CascadeTimers


/-! ## Power, clocks, boot, stops (spec/18_power_clocks_boot.md) -/

namespace Sys2Proof.Claims
open Sys2Proof.Machine

/-- `i` is a command that ends a phase of boot, `k` that phase (R437). -/
def BootRow (k : Nat) (i : Instr) : Prop :=
  k = 0 ∧ i = .bootStart ∨ k = 1 ∧ (∃ a b, i = .romSelftestDone a b) ∨ k = 2 ∧ i = .fwVerifyDone ∨ k = 3 ∧ i = .ledgerReadDone ∨
    k = 4 ∧ i = .imageLoadDone ∨ k = 5 ∧ (∃ a b, i = .clocksLocked a b) ∨ k = 6 ∧ (∃ l, i = .dramTrainDone l) ∨
    k = 7 ∧ (∃ l, i = .baysUpDone l) ∨ k = 8 ∧ (∃ n, i = .portsStarted n)

/-- A stop can begin: the keeper is not in KEEP_ON, STOPPING, SAVING, STOPPED or ROM_FAIL (R430, R437). -/
def MayStop (s : State) : Prop := phase s ≠ 0 ∧ phase s ≠ 12 ∧ phase s ≠ 13 ∧ phase s ≠ 14 ∧ phase s ≠ 15

/-- What a stop leaves (R428 to R430, R434): phase STOPPING with its cause, a save asked for where `save`, the zeroisation's acknowledge
awaited, no key held, nothing running; the Ledger as it was. -/
def Stopped (cause : Nat) (save : Bool) (s t : State) : Prop :=
  phase t = 12 ∧ fget R.PWR_STATUS_last_stop t = cause ∧ t.pwr.stop = some cause ∧ t.pwr.save.isSome = save ∧ t.key.zreq = true ∧
    (∀ p ∈ t.key.slots, p.2.key = []) ∧ t.clk = State.reset.clk ∧ t.ctl = State.reset.ctl ∧ t.vid = State.reset.vid ∧ t.ldg = s.ldg ∧
    t.pending = s.pending

/-- The temperature of a sensor's register, in units of 0.125 °C (R440). -/
def eighths (temp : Nat) : Int := toS 16 (temp % 65536)

/-- What a read of an SPI operation starts (R439). -/
def spiRows (op : Nat) (i : Instr) : Prop :=
  op = 1 ∧ i = .spiErase ∨ op = 2 ∧ i = .spiProgram ∨ op = 3 ∧ i = .spiRead ∨ op = 4 ∧ i = .spiVerifyFw ∨ op = 5 ∧ i = .spiVerifyImage

/-- An SPI operation over with a result (R439): not busy, none in progress. -/
def SpiOver (result : Nat) (t : State) : Prop :=
  fget R.PWR_SPI_STATUS_busy t = 0 ∧ fget R.PWR_SPI_STATUS_result t = result ∧ t.pwr.spi = none

end Sys2Proof.Claims

open Sys2Proof Sys2Proof.Machine Sys2Proof.Claims

/-- R437, R438: the phases of boot, from KEEP_ON to PORTS; each phase's end is taken in that phase alone. -/
def Obligations.BootPhases : Prop :=
  (∀ k i s, BootRow k i → phase s ≠ k → exec i s = .next s) ∧
  ∀ (s : State),
    (phase s = 0 → ∃ t, exec .bootStart s = .next t ∧ phase t = 1 ∧ Changes [.regs] s t) ∧
    (phase s = 1 → (∃ t, exec (.romSelftestDone true true) s = .next t ∧ phase t = 2 ∧ t.pwr.single = none ∧ Changes [.regs, .pwr] s t) ∧
      (∃ t, exec (.romSelftestDone false false) s = .next t ∧ phase t = 15 ∧ t.pwr.held = true ∧ Changes [.regs, .pwr] s t) ∧
      ∀ a, ∃ t, exec (.romSelftestDone a !a) s = .next t ∧ phase t = 2 ∧ fget R.FLT_RM_STATUS_single t = 1 ∧
        fget R.FLT_RM_STATUS_core t = b2n (!a) ∧ t.flt.rmFailed = [b2n a] ∧ Changes [.regs, .flt, .pwr] s t) ∧
    (phase s = 2 → ∃ t, exec .fwVerifyDone s = .next t ∧ Changes [.regs] s t ∧
      (fwSlotCode 0 s = 0 → phase t = 3 ∧ fget R.PWR_BOOT_FW_slot t = 0) ∧
      (fwSlotCode 0 s ≠ 0 → fwSlotCode 1 s = 0 → phase t = 3 ∧ fget R.PWR_BOOT_FW_slot t = 1) ∧
      (fwSlotCode 0 s ≠ 0 → fwSlotCode 1 s ≠ 0 → phase t = 10)) ∧
    (phase s = 3 → ∃ t, exec .ledgerReadDone s = .next t ∧ phase t = 4 ∧ t.flt.boots = (hdrNow s).boots + 1 ∧ t.flt.retired = retiredRead s) ∧
    (phase s = 4 → (∀ img m, imgBoot 0 s = .ok (img, m) → ∃ t, exec .imageLoadDone s = .next t ∧ phase t = 5 ∧ t.pwr.imgSlot = 0) ∧
      (∀ a img m, imgBoot 0 s = .error a → imgBoot 1 (fset R.FRM_BOOT_INFO_slot_a_code a s) = .ok (img, m) →
        ∃ t, exec .imageLoadDone s = .next t ∧ phase t = 5 ∧ t.pwr.imgSlot = 1) ∧
      (∀ a b, imgBoot 0 s = .error a → imgBoot 1 (fset R.FRM_BOOT_INFO_slot_a_code a s) = .error b →
        ∃ t, exec .imageLoadDone s = .next t ∧ phase t = 11 ∧ fget R.FRM_STATUS_state t = 3 ∧ Changes [.regs] s t)) ∧
    (phase s = 5 → planRefclk s < 2 → ∀ a b, ∃ t, exec (.clocksLocked a b) s = .next t ∧ phase t = 6 ∧ Changes [.regs] s t ∧
      fget R.PWR_CLK_STATUS_ref t = (if (planRefclk s = 0 ∧ a = true) ∨ (planRefclk s = 1 ∧ b = true) then planRefclk s else 1 - planRefclk s) ∧
      fget R.PWR_CLK_STATUS_holdover t = b2n (!(a || b)) ∧ fget R.PWR_CLK_STATUS_keeper_osc t = b2n (!(a || b))) ∧
    (phase s = 6 → ∀ chans, let pop := (planChans (devBody s.frm.timbers tyMem)).filter fun c => chans.contains c
      (planFits pop s = true → ∃ t, exec (.dramTrainDone chans) s = .next t ∧ phase t = 7 ∧ t.ddr.pop = pop) ∧
      (planFits pop s = false → ∃ t, exec (.dramTrainDone chans) s = .next t ∧ phase t = 11 ∧ fget R.FRM_STATUS_state t = 3)) ∧
    (phase s = 7 → ∀ failed, ∃ t, exec (.baysUpDone failed) s = .next t ∧ phase t = 8 ∧ Changes [.mem, .regs, .cnt, .hif, .ddr, .ldg, .out] s t ∧
      (failed = [] → Changes [.regs] s t)) ∧
    (phase s = 8 → ∀ ms, ∃ t, exec (.portsStarted ms) s = .next t ∧ t.pwr.ms = min 65535 ms ∧ Changes [.regs, .pwr] s t)

/-- R428 to R430, R434, R437, R440: what stops the part, what a stop leaves, the save, the release, the keeper's reset. -/
def Obligations.Stops : Prop :=
  ∀ (s : State),
    (∀ cause save, cause < 16 → Stopped cause save s (stopDevice cause save s)) ∧
    (∀ rails, MayStop s → exec (.supplySag rails) s = .next (stopDevice (if fon R.PWR_HOLDUP_STATUS_armed s = true then 1 else 2)
      (fon R.PWR_HOLDUP_STATUS_armed s) (fset R.PWR_RAIL_tripped rails s))) ∧
    (MayStop s → phase s ≠ 10 → exec .sysReset s = .next (stopDevice 3 true s)) ∧
    (phase s = 10 → ∃ t, exec .sysReset s = .next t ∧ phase t = 1 ∧ Changes [.regs] s t) ∧
    (phase s = 14 → exec .sysReset s = .next { s with pwr := { s.pwr with pulsed := true } }) ∧
    (∀ n temp, MayStop s → 920 ≤ eighths temp → exec (.thermalTrip n temp) s =
      .next (stopDevice 4 true { fset (R.PWR_THERM_temp n) temp s with pwr := { s.pwr with cool := false } })) ∧
    (∀ n temp, eighths temp < 920 → exec (.thermalTrip n temp) s = .next (fset (R.PWR_THERM_temp n) temp s)) ∧
    (∀ v, phase s = 13 → s.pwr.save = some v → ∃ t, exec .saveComplete s = .next t ∧ phase t = 14 ∧ fget R.LDG_STATUS_saved_last_off t = 1 ∧
      t.pwr.save = none ∧ (∃ w, let b := { v with
          seq := ((bankNow s).seq + 1) % 2 ^ 32
          writes := w }
        (bankNewest s = some true → t.ldg.bankB = b ∧ t.ldg.bankA = s.ldg.bankA) ∧
        (bankNewest s ≠ some true → t.ldg.bankA = b ∧ t.ldg.bankB = s.ldg.bankB))) ∧
    (phase s ≠ 13 → exec .saveComplete s = .next s) ∧
    (phase s = 14 → (s.pwr.stop = some 4 → s.pwr.cool = true ∧ s.pwr.pulsed = true) → ∃ t, exec .stoppedRelease s = .next t ∧ phase t = 1 ∧
      Changes [.regs] s t) ∧
    (phase s = 14 → s.pwr.stop = some 4 → (s.pwr.cool = false ∨ s.pwr.pulsed = false) → exec .stoppedRelease s = .next s) ∧
    (∃ t, exec .keeperReset s = .next t ∧ phase t = 0 ∧ t.pwr.strap = Config.smbStrap % 4 ∧ t.ldg = s.ldg ∧ t.mem.ledger = s.mem.ledger ∧ t.mem.spi = s.mem.spi ∧
      t.key = State.reset.key ∧ t.clk = State.reset.clk ∧ t.cnt = [] ∧ t.pending = s.pending)

/-- R425, R427: rails that sag, the hold-up capacitor's tests and what they find. -/
def Sys2Proof.Claims.HoldUp : Prop :=
  ∀ (s : State),
    (∀ rails, ∃ u, exec (.railWarn rails) s = .next (raiseUnit EV_RAIL_WARN 0 (rails % 128) u) ∧
      fget R.PWR_RAIL_warn u = Nat.lor (fget R.PWR_RAIL_warn s) (rails % 128) % 128 ∧ Changes [.regs] s u) ∧
    (∀ on, ∃ t, exec (.holdupDisable on) s = .next t ∧ fget R.PWR_HOLDUP_CTRL_disable t = b2n on ∧
      fget R.PWR_HOLDUP_STATUS_armed t = b2n (decide (fget R.PWR_HOLDUP_STATUS_state s = 2) && !on) ∧ Changes [.regs] s t) ∧
    (∀ v a b c, exec (.holdupTestRequest v a b c) s = .next (capTest v a b c s)) ∧
    (∀ v a b c, s.clk.running = true → (∀ k, s.pwr.tested = some k → 7200000 ≤ stampSub s.clk.stamp k) →
      exec (.holdupTestPeriodic v a b c) s = .next (capTest v a b c { s with pwr := { s.pwr with tested := some s.clk.stamp } })) ∧
    (∀ v a b c k, s.pwr.tested = some k → stampSub s.clk.stamp k < 7200000 → exec (.holdupTestPeriodic v a b c) s = .next s) ∧
    (∀ v a b c, v ≤ -200 → capTest v a b c s = holdTo 6 (senseShow v s)) ∧
    (∀ v a b c, 500 ≤ v → v < 3100 → fget R.PWR_HOLDUP_STATUS_state s ≠ 3 → capTest v a b c s = holdTo 1 (senseShow v s)) ∧
    (∀ v v0 v10 v1000, 3100 ≤ v → v1000 < v10 → v10 ≤ v0 → ∃ u, let c := 4950 / (v10 - v1000)
      let esr := 2 * (v0 - v10)
      capTest v v0 v10 v1000 s = holdTo (if 300 < v0 - v1000 then 4 else if 4950 < 150 * (v10 - v1000) ∨ 50 < esr then 3 else 2) u ∧
        (fget R.PWR_HOLDUP_MEAS_c u : Int) = min 65535 c ∧ (fget R.PWR_HOLDUP_MEAS_esr u : Int) = min 65535 esr ∧ Changes [.regs] s u) ∧
    (∀ st, st < 8 → fget R.PWR_HOLDUP_STATUS_state s ≠ st → ∃ u d, holdTo st s = raiseUnit EV_HOLDUP_STATE 0 d u ∧
      fget R.PWR_HOLDUP_STATUS_state u = st ∧ fget R.PWR_HOLDUP_STATUS_armed u = b2n (decide (st = 2) && !fon R.PWR_HOLDUP_CTRL_disable s) ∧
      Changes [.regs] s u) ∧
    (∀ v, exec (.holdupSenseTimeout v) s = .next (if v ≤ -200 then holdTo 6 (senseShow v s) else if v < 500 then holdTo 5 (senseShow v s)
      else if v < 3100 then holdTo 3 (senseShow v s) else senseShow v s)) ∧
    (∀ v, exec (.holdupReverseDetect v) s = .next (if v ≤ -200 then holdTo 6 (senseShow v s) else senseShow v s))

/-- R433, R440: the loss of a reference and the switch back; temperature warnings. -/
def Sys2Proof.Claims.KeeperWatch : Prop :=
  ∀ (s : State),
    (∀ r, r < 2 → fget R.PWR_CLK_STATUS_ref s ≠ r → ∃ t, exec (.refclkLoss r) s = .next t ∧ refGood r t = false ∧
      fget R.PWR_CLK_STATUS_ref t = fget R.PWR_CLK_STATUS_ref s ∧ Changes [.regs] s t) ∧
    (∀ r, r < 2 → fget R.PWR_CLK_STATUS_ref s = r → refGood (1 - r) s = true → ∃ u, exec (.refclkLoss r) s =
        .next (raiseUnit EV_REFCLK_FAILOVER 0 (1 - r) u) ∧ fget R.PWR_CLK_STATUS_ref u = 1 - r ∧ refGood r u = false ∧ Changes [.regs, .cnt] s u) ∧
    (∀ r, r < 2 → fget R.PWR_CLK_STATUS_ref s = r → refGood (1 - r) s = false → ∃ u, exec (.refclkLoss r) s =
        .next (raiseUnit EV_REFCLK_LOST 0 0 u) ∧ fget R.PWR_CLK_STATUS_holdover u = 1 ∧ fget R.PWR_CLK_STATUS_keeper_osc u = 1 ∧ Changes [.regs] s u) ∧
    (exec (.refclkRevert true) s = .next { s with pwr := { s.pwr with revert := true } }) ∧ (exec (.refclkRevert false) s = .next s) ∧
    (∀ n temp, eighths temp < 8 * fget R.PWR_THERM_CFG_warn s → exec (.thermalWarn n temp) s = .next (fset (R.PWR_THERM_temp n) temp s)) ∧
    (∀ n temp, n < 8 → temp < 65536 → 8 * fget R.PWR_THERM_CFG_warn s ≤ eighths temp → fon (R.PWR_THERM_warn n) s = false →
      ∃ u, exec (.thermalWarn n temp) s = .next (raiseUnit EV_THERMAL_WARN 0 (n + temp * 65536) u) ∧ fget (R.PWR_THERM_warn n) u = 1 ∧
        fget (R.PWR_THERM_temp n) u = temp ∧ u.pwr.cool = false ∧ Changes [.regs, .cnt, .pwr] s u) ∧
    ((∃ n, n < 8 ∧ fon (R.PWR_THERM_warn n) s = true) → ∃ u, exec .thermalClear s = .next (raiseUnit EV_THERMAL_CLEAR 0 0 u) ∧ u.pwr.cool = true ∧
      (∀ n, n < 8 → fon (R.PWR_THERM_warn n) u = false) ∧ Changes [.regs, .pwr] s u) ∧
    ((∀ n, n < 8 → fon (R.PWR_THERM_warn n) s = false) → ∃ t, exec .thermalClear s = .next t ∧ t.pwr.cool = true ∧ Changes [.regs, .pwr] s t)

/-- R425, R427, R433, R440: the hold-up capacitor, references and temperature. -/
def Obligations.KeeperMonitors : Prop := Claims.HoldUp ∧ Claims.KeeperWatch


/-- R436, R439: a go with an operation on SPI NOR, ignored while busy; what an operation that is over leaves. -/
def Obligations.SpiNor : Prop :=
  (∀ op i s, spiRows op i → (fon R.PWR_SPI_STATUS_busy s = false → ∃ t, exec i s = .next t ∧ fget R.PWR_SPI_STATUS_busy t = 1 ∧
      t.pwr.spi = some (op, fget R.PWR_SPI_ADDR_addr s) ∧ Changes [.regs, .pwr] s t) ∧
    (fon R.PWR_SPI_STATUS_busy s = true → ∃ t, exec i s = .next t ∧ fget R.PWR_SPI_STATUS_collision t = 1 ∧ Changes [.regs] s t)) ∧
  ∀ (op a : Nat) (s : State), s.pwr.spi = some (op, a) → a < 0x2400000 →
    (∀ err, op = 1 → a % 65536 ≠ 0 → ∃ t, exec (.spiOpDone err) s = .next t ∧ SpiOver 1 t ∧ Changes [.regs, .pwr] s t) ∧
    (∀ err, op = 2 ∨ op = 3 → a % 256 ≠ 0 → ∃ t, exec (.spiOpDone err) s = .next t ∧ SpiOver 1 t ∧ Changes [.regs, .pwr] s t) ∧
    (op = 1 → a % 65536 = 0 → ∃ t, exec (.spiOpDone false) s = .next t ∧ SpiOver 0 t ∧ spiRead a 65536 t = List.replicate 65536 0xFF ∧
      (∀ x, x < a ∨ a + 65536 ≤ x → Memory.read t.mem.spi x = Memory.read s.mem.spi x) ∧ Changes [.mem, .regs, .pwr] s t) ∧
    (op = 2 → a % 256 = 0 → ∃ t, exec (.spiOpDone false) s = .next t ∧ SpiOver 0 t ∧
      spiRead a 256 t = ((List.range 64).map fun n => leBytes 4 (fget (R.PWR_SPI_BUF_word n) s)).flatten ∧
      (∀ x, x < a ∨ a + 256 ≤ x → Memory.read t.mem.spi x = Memory.read s.mem.spi x) ∧ Changes [.mem, .regs, .pwr] s t) ∧
    (op = 3 → a % 256 = 0 → ∃ t, exec (.spiOpDone false) s = .next t ∧ SpiOver 0 t ∧ Changes [.regs, .pwr] s t ∧
      ∀ n, n < 64 → fget (R.PWR_SPI_BUF_word n) t = le (spiRead a 256 s) (4 * n) 4 % 2 ^ 32) ∧
    (op = 1 → a % 65536 = 0 → ∃ t, exec (.spiOpDone true) s = .next t ∧ SpiOver 2 t ∧
      (∀ x, x < a ∨ a + 65536 ≤ x → Memory.read t.mem.spi x = Memory.read s.mem.spi x)) ∧
    (op = 4 ∨ op = 5 → ∃ t, exec (.spiOpDone false) s = .next t ∧ SpiOver 0 t ∧ Changes [.regs, .pwr] s t) ∧
    (op = 4 ∨ op = 5 → ∃ t, exec (.spiOpDone true) s = .next t ∧ SpiOver 2 t ∧ Changes [.regs, .pwr] s t)

/-! ## Every command -/

namespace Sys2Proof.Claims
open Sys2Proof.Machine

/-- What queues an event, or ends a command: the host's memory, rings, counters, trace and its DRAM, the vectors signalled. -/
def evParts : List Part := [.mem, .regs, .cnt, .hif, .ddr, .out]

/-- What an instruction of a Tumbler core may change: the Carousel, and what a fault of the core reports and retires. -/
def coreParts : List Part := [.mem, .regs, .cnt, .hif, .ctl, .aud, .flt, .obs, .crsl, .ddr, .ldg, .out]

/-- What a command that takes effect at its boundary may change. -/
def objectParts : List Part := [.mem, .regs, .cnt, .hif, .ctl, .aud, .egr, .src, .fwd, .vid, .flt, .obs, .ddr, .cas, .out]

/-- The parts of the state that a command may change. -/
def touched (i : Instr) : List Part :=
  match i with
  | .blockStart _ => evParts ++ [.clk, .cntSh, .frm, .ctl, .key, .aud, .egr, .src, .fwd, .vid, .flt, .obs, .crsl, .ldg, .dma, .pwr, .cas, .shown, .free]
  | .telemetrySnapshot _ => evParts ++ [.obs]
  | .rtcpReportSend _ => [.ctl, .egr]
  | .stampFloorWrite => evParts ++ [.ldg]
  | .ddrRetrainPause _ _ => [.regs, .cnt]
  | .ptpPps => [.out]
  | .commandFetch _ => evParts ++ [.frm, .ctl, .key, .aud, .egr, .fwd, .vid, .flt, .obs, .crsl, .ldg, .pwr, .cas, .free]
  | .nop _ => evParts
  | .identify _ => evParts
  | .ringStatus _ => evParts
  | .lopQuery _ => evParts ++ [.frm, .key, .egr, .vid, .flt, .obs, .cas, .free]
  | .lopSuspend _ => evParts ++ [.frm, .key, .egr, .vid, .flt, .obs, .cas, .free]
  | .lopResume _ => evParts ++ [.frm, .key, .egr, .vid, .flt, .obs, .cas, .free]
  | .lopCancel _ => evParts ++ [.frm, .key, .egr, .vid, .flt, .obs, .cas, .free]
  | .framingLoad _ => evParts ++ [.frm, .key]
  | .framingDelta _ => evParts ++ [.frm, .key]
  | .framingRollback _ => evParts ++ [.frm, .key]
  | .framingDequeue _ _ => [.regs, .hif]
  | .framingFetchChunk _ _ => evParts ++ [.frm, .key]
  | .framingSignDone _ _ => evParts ++ [.frm, .key]
  | .framingPass1Timber _ _ => evParts ++ [.frm, .key]
  | .framingPass2Timber _ _ => evParts ++ [.frm, .key]
  | .framingCheckDone _ _ => evParts ++ [.frm, .key, .vid, .crsl, .ldg, .free]
  | .actAdmit _ => objectParts
  | .actRelease _ => objectParts
  | .legAdmit _ => objectParts
  | .legStart _ => objectParts
  | .legRoute _ => objectParts
  | .legRelease _ => objectParts
  | .legDrainEnd _ => evParts ++ [.ctl, .aud, .egr, .src, .fwd, .vid, .flt, .cas]
  | .streamAdmit _ => objectParts
  | .streamRelease _ => objectParts
  | .keyBind _ => objectParts
  | .rekeyGraceEnd _ => [.ctl]
  | .canvasAdmit _ => objectParts
  | .canvasRelease _ => objectParts
  | .encodeAdmit _ => objectParts
  | .encodeRelease _ => objectParts
  | .audSafeLoad _ => objectParts
  | .layoutSet _ => objectParts
  | .keypicRequest _ => objectParts
  | .shaperSet _ => objectParts
  | .rewindMark _ => objectParts
  | .rewindExport _ => evParts
  | .rewindExportChunk _ _ => evParts ++ [.egr]
  | .capture _ => evParts ++ [.obs]
  | .replay _ => evParts ++ [.obs]
  | .telemetrySet _ => objectParts
  | .keyZeroise _ => evParts ++ [.frm, .ctl, .key, .aud, .egr, .fwd, .vid, .flt, .obs, .crsl, .ldg, .pwr, .cas, .free]
  | .zeroiseAck => [.regs, .key]
  | .bayQuarantine _ => evParts ++ [.frm, .ctl, .key, .aud, .egr, .fwd, .vid, .flt, .obs, .crsl, .ldg, .pwr, .cas, .free]
  | .bayWarmReset _ => evParts ++ [.frm, .ctl, .key, .aud, .egr, .fwd, .vid, .flt, .obs, .crsl, .ldg, .pwr, .cas, .free]
  | .baySelftest _ => evParts
  | .bayReturn _ => objectParts
  | .bayDrainComplete _ => evParts ++ [.flt]
  | .selftestSegmentDone _ _ _ => evParts ++ [.ctl, .vid, .flt, .obs, .crsl, .ldg]
  | .tileFwSwap _ => evParts
  | .fwSwapPhaseDone _ _ _ => evParts ++ [.vid]
  | .cascadeJoin _ => evParts ++ [.cas, .free]
  | .cascadeLeave _ => evParts ++ [.cas, .free]
  | .faultlogRead _ => evParts ++ [.frm, .ctl, .key, .aud, .egr, .fwd, .vid, .flt, .obs, .crsl, .ldg, .pwr, .cas, .free]
  | .mbxIdentity _ _ _ => evParts ++ [.frm, .ctl, .key, .aud, .egr, .fwd, .vid, .flt, .obs, .crsl, .ldg, .pwr, .cas, .free]
  | .mbxStatus _ _ _ => evParts ++ [.frm, .ctl, .key, .aud, .egr, .fwd, .vid, .flt, .obs, .crsl, .ldg, .pwr, .cas, .free]
  | .mbxFaultlogRead _ _ _ _ => evParts ++ [.frm, .ctl, .key, .aud, .egr, .fwd, .vid, .flt, .obs, .crsl, .ldg, .pwr, .cas, .free]
  | .mbxKeyZeroise _ _ _ _ => evParts ++ [.frm, .ctl, .key, .aud, .egr, .fwd, .vid, .flt, .obs, .crsl, .ldg, .pwr, .cas, .free]
  | .mbxBayQuarantine _ _ _ _ => evParts ++ [.frm, .ctl, .key, .aud, .egr, .fwd, .vid, .flt, .obs, .crsl, .ldg, .pwr, .cas, .free]
  | .mbxBayWarmReset _ _ _ _ => evParts ++ [.frm, .ctl, .key, .aud, .egr, .fwd, .vid, .flt, .obs, .crsl, .ldg, .pwr, .cas, .free]
  | .wdtKick _ _ _ => evParts ++ [.frm, .ctl, .key, .aud, .egr, .fwd, .vid, .flt, .obs, .crsl, .ldg, .pwr, .cas, .free]
  | .smbusResponseRead => [.out]
  | .smbusBusRecovery => evParts ++ [.ldg]
  | .cmdSqTailWrite _ _ => evParts
  | .cmdCqHeadWrite _ _ => [.regs, .hif]
  | .cmdResultAck _ _ => [.hif]
  | .cmdEnable _ _ => [.regs, .hif]
  | .sqHaltedClear _ => [.regs]
  | .cqHaltedClear _ => evParts
  | .intEvqHeadWrite _ _ _ => [.regs]
  | .eventDeliver _ _ _ => [.mem, .regs, .hif, .out]
  | .reg64HalfRead _ _ => [.clk, .hif, .ctl, .aud, .egr, .fwd, .vid]
  | .reg64HalfWrite _ _ _ => evParts ++ [.clk, .ctl, .key, .aud, .egr, .src, .fwd, .vid, .obs, .crsl, .dma, .pwr, .cas, .free]
  | .registerWrite _ _ _ _ => evParts ++ [.clk, .ctl, .key, .aud, .egr, .src, .fwd, .vid, .obs, .crsl, .dma, .pwr, .cas, .free]
  | .functionLevelReset _ => [.regs, .hif, .key, .obs]
  | .pcieLinkDown => [.mem]
  | .frameReceive _ _ _ _ _ _ => evParts ++ [.ctl, .egr, .fwd, .obs, .cas, .free]
  | .cipherVerdict _ => evParts ++ [.ctl, .egr, .fwd, .vid, .obs, .cas, .free]
  | .videoFrameTimeout _ _ => [.ctl]
  | .bufferResizeEffect _ _ => evParts ++ [.ctl, .egr, .obs, .crsl]
  | .ingJrResize _ => evParts ++ [.ctl, .obs]
  | .ingExcHeadWrite _ _ => [.regs]
  | .ethLinkEnable _ => [.regs]
  | .ethLinkDisable _ => [.regs, .cnt]
  | .linkSignalDetect _ => [.regs]
  | .linkAcquireTimeout _ => [.cnt]
  | .linkTrainDone _ => [.regs]
  | .linkTrainTimeout _ => [.regs]
  | .linkLock _ _ _ => [.regs]
  | .linkLockTimeout _ => [.regs]
  | .fecCodewordLock _ => evParts
  | .linkFault _ _ => evParts
  | .linkDegradeDetect _ _ => evParts
  | .ptpTimeSet _ => [.clk, .regs]
  | .ptpNsRead => [.clk, .hif]
  | .ptpStep _ => [.clk, .regs]
  | .keyLoad _ => [.regs, .key]
  | .keyErase _ => [.regs, .key]
  | .keyAbort _ => [.regs, .key]
  | .keyLoadDataWrite _ _ _ => [.regs, .key]
  | .keyOpComplete => [.regs, .cnt, .key]
  | .keySlotError _ => evParts ++ [.ctl, .key]
  | .scaCfgWrite _ => evParts
  | .entropyHealthFail => evParts
  | .srcSelectFilter _ => [.regs, .src]
  | .srcBindSlot _ => [.regs, .src]
  | .srcUnbindSlot _ => [.regs, .src]
  | .srcBankCoefWrite _ => [.regs, .src]
  | .srcBankCommit => [.regs, .src]
  | .srcBankAbort => [.regs, .src]
  | .srcBankClear => [.regs, .src]
  | .tdmFrame _ _ => evParts ++ [.src, .obs, .free]
  | .tdmClockLoss _ => evParts ++ [.src]
  | .tdmDmaRequest _ _ => [.src]
  | .periphWithdraw _ _ _ => evParts ++ [.src, .obs, .dma, .free]
  | .tdmPinShort _ _ _ => evParts ++ [.src]
  | .tdmPinTest _ _ _ _ => evParts ++ [.src]
  | .tdmPinRetest _ _ _ => evParts ++ [.src]
  | .tdmAutoSwap _ => evParts
  | .tdmDupTakeover _ => evParts ++ [.src, .flt, .ldg]
  | .debugEnable _ _ => evParts ++ [.crsl]
  | .debugHaltRequest _ => evParts ++ [.crsl]
  | .debugStep _ => [.regs, .crsl]
  | .debugResume _ => [.regs, .crsl]
  | .debugInterrupt _ => evParts ++ [.crsl]
  | .coreHwFault _ _ => evParts ++ [.flt, .crsl, .ldg]
  | .tmbNop _ => coreParts
  | .tmbAdd _ _ _ _ _ => coreParts
  | .tmbSub _ _ _ _ _ => coreParts
  | .tmbAnd _ _ _ _ => coreParts
  | .tmbOr _ _ _ _ => coreParts
  | .tmbXor _ _ _ _ => coreParts
  | .tmbShl _ _ _ _ _ => coreParts
  | .tmbShr _ _ _ _ => coreParts
  | .tmbShrl _ _ _ _ => coreParts
  | .tmbShlv _ _ _ _ _ => coreParts
  | .tmbShrv _ _ _ _ => coreParts
  | .tmbMin _ _ _ _ => coreParts
  | .tmbMax _ _ _ _ => coreParts
  | .tmbAbs _ _ _ _ => coreParts
  | .tmbNeg _ _ _ _ => coreParts
  | .tmbMullo _ _ _ _ _ => coreParts
  | .tmbClz _ _ _ => coreParts
  | .tmbSext16 _ _ _ => coreParts
  | .tmbPack _ _ _ _ => coreParts
  | .tmbCmplt _ _ _ _ => coreParts
  | .tmbCmpeq _ _ _ _ => coreParts
  | .tmbCmpltu _ _ _ _ => coreParts
  | .tmbRda _ _ _ _ _ _ => coreParts
  | .tmbRdah _ _ _ => coreParts
  | .tmbWra _ _ _ _ _ => coreParts
  | .tmbAdda _ _ _ _ _ => coreParts
  | .tmbSuba _ _ _ _ _ => coreParts
  | .tmbClra _ _ => coreParts
  | .tmbSat24 _ _ _ => coreParts
  | .tmbAddi _ _ _ _ _ => coreParts
  | .tmbAndi _ _ _ _ => coreParts
  | .tmbOri _ _ _ _ => coreParts
  | .tmbXori _ _ _ _ => coreParts
  | .tmbMovi _ _ _ => coreParts
  | .tmbMovhi _ _ _ => coreParts
  | .tmbCmplti _ _ _ _ => coreParts
  | .tmbCmpeqi _ _ _ _ => coreParts
  | .tmbLdw _ _ _ _ _ _ => coreParts
  | .tmbLdh _ _ _ _ _ _ => coreParts
  | .tmbLdhu _ _ _ _ _ _ => coreParts
  | .tmbStw _ _ _ _ _ _ => coreParts
  | .tmbSth _ _ _ _ _ _ => coreParts
  | .tmbBeqz _ _ _ => coreParts
  | .tmbBnez _ _ _ => coreParts
  | .tmbBltz _ _ _ => coreParts
  | .tmbBgez _ _ _ => coreParts
  | .tmbBr _ _ => coreParts
  | .tmbBlc _ _ => coreParts
  | .tmbCall _ _ => coreParts
  | .tmbRet _ => coreParts
  | .tmbMtc _ _ _ => coreParts
  | .tmbMfc _ _ _ => evParts ++ [.ctl, .aud, .flt, .obs, .crsl, .ldg, .free]
  | .tmbXrd _ _ => coreParts
  | .tmbXwr _ _ => coreParts
  | .transferComplete _ _ => coreParts
  | .tmbWaitx _ _ => coreParts
  | .tmbEnd _ => coreParts
  | .tmbReti _ => coreParts
  | .tmbBkpt _ _ => coreParts
  | .tmbFault _ _ => coreParts
  | .tmbMac _ _ _ _ _ _ _ _ _ _ _ => coreParts
  | .tmbMsu _ _ _ _ _ _ _ _ _ _ _ => coreParts
  | .tmbMpy _ _ _ _ _ _ _ _ _ _ _ => coreParts
  | .tmbLdp _ _ _ _ _ _ _ => coreParts
  | .corePrefetch _ _ => [.regs, .cnt, .crsl]
  | .itemHandleRetry => evParts ++ [.crsl, .free]
  | .deadlineMiss _ => evParts ++ [.ctl, .aud, .obs, .crsl]
  | .itemHung _ => evParts ++ [.flt, .crsl, .ldg]
  | .barrierClose _ _ => evParts ++ [.crsl, .free]
  | .shadowCompare _ => evParts ++ [.ctl, .aud, .flt, .obs, .crsl, .ldg, .free]
  | .shadowAbandon _ => evParts ++ [.ctl, .aud, .obs, .crsl]
  | .queueSpillRepush _ => evParts ++ [.crsl]
  | .queueEccRescan _ _ => evParts ++ [.flt, .crsl, .ldg]
  | .decodePictureStart _ _ => evParts ++ [.egr, .fwd, .vid, .obs]
  | .decodePictureComplete _ => evParts ++ [.ctl, .egr, .fwd, .vid, .flt, .obs]
  | .decodePictureMissed _ _ => evParts ++ [.ctl, .vid, .flt, .obs]
  | .tileHwFault _ => evParts ++ [.ctl, .vid, .flt, .obs, .ldg]
  | .encodePictureStart _ => evParts ++ [.vid]
  | .encodePictureComplete _ _ => evParts ++ [.ctl, .egr, .fwd, .vid, .flt, .obs]
  | .repeatPicture _ _ => evParts ++ [.ctl, .egr, .fwd, .vid, .flt, .obs]
  | .canvasTick _ => evParts ++ [.ctl, .vid, .flt, .obs]
  | .compositionComplete _ _ => evParts ++ [.ctl, .vid, .flt]
  | .compositionMissed _ => evParts ++ [.ctl, .vid]
  | .dpFrameStart => [.regs, .cnt, .vid, .out]
  | .dpCtrlWrite _ => [.regs, .cnt, .vid]
  | .dpHpdHigh _ => [.regs, .cnt, .vid]
  | .dpTrainPass _ => evParts ++ [.vid]
  | .dpTrainStepFail => evParts ++ [.vid]
  | .dpRetryTimer => [.regs, .cnt, .vid]
  | .dpHpdIrq => [.regs, .cnt, .vid]
  | .dpHpdLow => evParts ++ [.vid]
  | .receiverNack _ => [.cnt, .egr, .fwd]
  | .upstreamNack _ => [.cnt, .egr, .fwd]
  | .firEscalation _ => [.cnt, .egr, .fwd, .cas, .free]
  | .fallbackOpenRetry _ => evParts ++ [.ctl, .egr, .fwd, .vid, .flt]
  | .fwdSubscribe _ => [.regs, .src]
  | .fwdUnsubscribe _ => [.regs, .src]
  | .fwdSetLegCap _ => [.regs, .src]
  | .fwdRwResize _ _ => evParts ++ [.egr]
  | .transmitWindow _ => evParts ++ [.ctl, .egr, .obs, .cas, .free]
  | .htxFrameSubmit _ _ => evParts ++ [.ctl, .egr]
  | .schedulerTakeover _ => evParts ++ [.egr, .flt, .ldg]
  | .ddrEccCorrected _ _ _ _ => evParts ++ [.flt]
  | .ddrEccUncorrectable _ _ _ _ _ => evParts ++ [.ctl, .egr, .fwd, .vid]
  | .ddrCaParityAlert _ _ => [.cnt, .ddr]
  | .ddrChannelLoss _ _ _ _ => evParts ++ [.ctl, .egr, .fwd, .vid, .flt, .obs, .ldg]
  | .ledgerEcc _ _ => evParts ++ [.ldg]
  | .dmaChAdd _ _ _ => evParts ++ [.dma]
  | .dmaDescriptorComplete _ => evParts ++ [.src, .dma]
  | .dmaFenceComplete _ => evParts ++ [.dma]
  | .dmaStop _ => [.regs, .dma]
  | .dmaAbort _ _ => evParts ++ [.dma]
  | .dmaResume _ => evParts ++ [.dma]
  | .dmaEnable _ _ => evParts ++ [.dma]
  | .dmaTakeover => evParts ++ [.frm, .flt, .ldg, .dma]
  | .bayHeartbeatMiss _ => evParts ++ [.frm, .ctl, .aud, .vid, .flt, .obs, .crsl, .ldg, .free]
  | .bayLossDeclared _ _ => evParts ++ [.frm, .ctl, .aud, .vid, .flt, .obs, .crsl, .ldg, .free]
  | .lockstepMismatch _ => evParts ++ [.flt, .ldg]
  | .rmSelftestDone _ _ => evParts ++ [.flt, .ldg]
  | .casHello _ => evParts ++ [.egr, .fwd, .obs, .cas, .free]
  | .casJoinAck _ => evParts ++ [.egr, .fwd, .obs, .cas, .free]
  | .casLeave _ => evParts ++ [.egr, .fwd, .obs, .cas, .free]
  | .casAudio _ => evParts ++ [.egr, .fwd, .obs, .cas, .free]
  | .casVideo _ => evParts ++ [.egr, .fwd, .obs, .cas, .free]
  | .casVideoReq _ => evParts ++ [.egr, .fwd, .obs, .cas, .free]
  | .helloResend => [.cnt, .cas, .free]
  | .joinTimeout => evParts ++ [.cas, .free]
  | .memberLoss _ => evParts ++ [.cas]
  | .casMapAct => [.regs, .src]
  | .casUnmapAct => [.regs, .src]
  | .casSetSeat => [.regs, .src]
  | .casRemoteSource => [.regs, .src]
  | .casKeyLoad => [.regs, .key, .cas]
  | .casKeyErase => [.regs, .key, .cas]
  | .casKeyAbort => [.cas]
  | .traceEnable => [.regs]
  | .frmSignerRevoke _ => [.regs, .cnt]
  | .bootStart => [.regs]
  | .romSelftestDone _ _ => [.regs, .flt, .pwr]
  | .fwVerifyDone => [.regs]
  | .ledgerReadDone => evParts ++ [.flt, .ldg, .pwr]
  | .imageLoadDone => evParts ++ [.frm, .vid, .crsl, .ldg, .pwr, .free]
  | .clocksLocked _ _ => [.regs]
  | .dramTrainDone _ => [.mem, .regs, .ddr]
  | .baysUpDone _ => evParts ++ [.ldg]
  | .portsStarted _ => [.regs, .pwr]
  | .stoppedRelease => evParts ++ [.clk, .cntSh, .frm, .ctl, .key, .aud, .egr, .src, .fwd, .vid, .flt, .obs, .crsl, .dma, .cas, .shown]
  | .supplySag _ => evParts ++ [.clk, .cntSh, .frm, .ctl, .key, .aud, .egr, .src, .fwd, .vid, .flt, .obs, .crsl, .dma, .pwr, .cas, .shown, .free]
  | .saveComplete => evParts ++ [.ldg, .pwr]
  | .railWarn _ => evParts
  | .keeperReset => [.clk, .mem, .regs, .cnt, .cntSh, .hif, .frm, .ctl, .key, .aud, .egr, .src, .fwd, .vid, .flt, .obs, .crsl, .ddr, .dma, .pwr, .cas, .shown]
  | .sysReset => evParts ++ [.clk, .cntSh, .frm, .ctl, .key, .aud, .egr, .src, .fwd, .vid, .flt, .obs, .crsl, .dma, .pwr, .cas, .shown, .free]
  | .pciePerst => [.mem, .regs, .hif, .key, .obs]
  | .thermalWarn _ _ => evParts ++ [.pwr]
  | .thermalClear => evParts ++ [.pwr]
  | .thermalTrip _ _ => evParts ++ [.clk, .cntSh, .frm, .ctl, .key, .aud, .egr, .src, .fwd, .vid, .flt, .obs, .crsl, .dma, .pwr, .cas, .shown, .free]
  | .refclkLoss _ => evParts
  | .refclkRevert _ => [.pwr]
  | .holdupTestPeriodic _ _ _ _ => evParts ++ [.pwr, .free]
  | .holdupTestRequest _ _ _ _ => evParts ++ [.free]
  | .holdupDisable _ => [.regs]
  | .holdupSenseTimeout _ => evParts
  | .holdupReverseDetect _ => evParts
  | .watchdogExpiry => evParts ++ [.clk, .cntSh, .frm, .ctl, .key, .aud, .egr, .src, .fwd, .vid, .flt, .obs, .crsl, .ldg, .dma, .pwr, .cas, .shown, .free]
  | .pwrWdtKick => [.pwr]
  | .spiErase => [.regs, .pwr]
  | .spiProgram => [.regs, .pwr]
  | .spiRead => [.regs, .pwr]
  | .spiVerifyFw => [.regs, .pwr]
  | .spiVerifyImage => [.regs, .pwr]
  | .spiOpDone _ => [.mem, .regs, .pwr, .free]
  | .ptpLockChange => evParts
  | .unitFailed _ _ => evParts ++ [.frm, .ctl, .aud, .vid, .flt, .obs, .crsl, .ldg, .free]
  | .pcieLinkUp => evParts ++ [.ctl, .dma]
  | .tdmClockRestored _ => [.regs, .src]
  | .videoReqStop _ => [.cnt, .cas, .free]
  | .audLegMeterRead _ => [.hif, .ctl, .aud, .egr, .fwd, .vid]

/-- A core one slot on with no instruction issued between: the writes due by then have taken effect (R217). -/
def nextSlot (k : Core) : Core := ({ k with issued := k.issued + 1 } : Core).land

end Sys2Proof.Claims

open Sys2Proof Sys2Proof.Machine Sys2Proof.Claims

/-- A step takes the command at the front of the queue and runs it on the state with the queue's rest. -/
def Obligations.StepRunsCommand : Prop :=
  ∀ (c : Instr) (rest : List Instr) (s : State), s.pending = c :: rest → step s = exec c { s with pending := rest }

/-- Log entry 1 (DESIGN CHOICE): on an empty queue a step is one tick of the sample clock: the offset rises by one up to 23, and nothing else
changes. -/
def Obligations.EmptyQueueTicks : Prop :=
  ∀ (s : State), s.pending = [] → ∃ t, step s = .next t ∧ Changes [.clk] s t ∧ t.clk.stamp = s.clk.stamp ∧
    (s.clk.offset < 23 → t.clk.offset = s.clk.offset + 1) ∧ (23 ≤ s.clk.offset → t = s)

/-- Every command answers a next state, leaves the queue of waiting commands as it is, and changes no part of the state but those it may. -/
def Obligations.EveryCommandsFrame : Prop :=
  ∀ (c : Instr) (s : State), ∃ t, exec c s = .next t ∧ Changes (touched c) s t ∧ t.pending = s.pending

/-- The machine's invariant is kept by every step, whatever the state: the memories stay in canonical form, a register field and a counter
have one value, no counter goes beyond 64 bits, the block stamp stays below 2^48 and the sample offset below 24. -/
def Obligations.InvariantKept : Prop := ∀ (s t : State), Sound s → step s = .next t → Sound t

/-- The invariant holds at reset. -/
def Obligations.InvariantAtReset : Prop := Sound State.reset

/-- R438 and the reset columns of the register tables: what reset leaves: phase KEEP_ON, no image, no key, no leg or Act, memories that list
nothing, links down, both protections of the cipher engines on; no command waits. -/
def Obligations.ResetState : Prop :=
  let s := State.reset
  phase s = 0 ∧ fget R.FRM_STATUS_state s = 0 ∧ s.frm.timbers = [] ∧ s.key.slots = [] ∧ s.key.kr0 = [] ∧ s.key.kr1 = [] ∧ keyCount s = 0 ∧
    s.ctl.legs = [] ∧ s.ctl.acts = [] ∧ s.ctl.streams = [] ∧ s.mem.host = [] ∧ s.mem.dram = [] ∧ s.mem.ledger = [] ∧ s.mem.spi = [] ∧
    s.clk.running = false ∧ (∀ l, linkSt l s = 0) ∧ fon R.CIPH_SCA_CFG_dummy_en s = true ∧ fon R.CIPH_SCA_CFG_shuffle_en s = true ∧
    fget R.PWR_CLK_STATUS_keeper_osc s = 1 ∧ fget R.PWR_THERM_CFG_warn s = 100 ∧ fget R.PWR_WDT_CFG_timeout s = 1000 ∧ s.pending = []

/-- R206: the register that a logical number names, and that a load in flight keeps the register it named when it was issued. -/
def Obligations.RegisterRotation : Prop :=
  ∀ (k : Core), (∀ n, n < 16 → k.phys n = n ∧ k.rd n = tget 0 k.g n) ∧
    (∀ n, 16 ≤ n → n < 32 → k.phys n = 16 + (n - 16 + k.rb) % 16 ∧ k.rd n = tget 0 k.g (16 + (n - 16 + k.rb) % 16)) ∧
    ∀ n v rb, n < 32 → tget 0 (nextSlot (nextSlot { k.wrLoad n v with rb := rb })).g (k.phys n) = v

/-- R217: how many slots after an instruction its result is seen: an ALU result by the next instruction, a load's by the second next, a
MAC's by the next of its format and by the second next of another, a control register's by the third next, a store's by the next. -/
def Obligations.ResultLatencies : Prop :=
  ∀ (k : Core),
    (∀ n v, n < 32 → tget 0 (nextSlot (k.wr n v)).g (k.phys n) = v) ∧
    (∀ n v, n < 32 → tget 0 (nextSlot (k.wrLoad n v)).g (k.phys n) = tget 0 (nextSlot k).g (k.phys n) ∧
      tget 0 (nextSlot (nextSlot (k.wrLoad n v))).g (k.phys n) = v) ∧
    (∀ n v, n < 2 → (nextSlot (k.wrMac n v)).accMac n = v ∧ (nextSlot (k.wrMac n v)).accRd n = (nextSlot k).accRd n ∧
      (nextSlot (nextSlot (k.wrMac n v))).accRd n = v) ∧
    (∀ n v, n < 2 → (nextSlot (k.wrAcc n v)).accMac n = v ∧ (nextSlot (k.wrAcc n v)).accRd n = v) ∧
    (∀ n v, n < 0x18 → let j := k.later 3 (tgCr n) v
      (nextSlot j).c n = (nextSlot k).c n ∧ (nextSlot (nextSlot j)).c n = (nextSlot (nextSlot k)).c n ∧
        (nextSlot (nextSlot (nextSlot j))).c n = v % 65536) ∧
    (∀ n d, n < 8 → k.c (0x18 + n) = 0 → (∀ w ∈ k.pend, w.tgt < 35 ∨ 64 ≤ w.tgt) → (nextSlot (k.postMod n d)).c n = ofS 16 ((k.c n : Int) + d)) ∧
    (∀ y a v, (nextSlot (k.wordSet y a v)).word y a = v)

/-- R464: RING_STATUS: the Ring of the issuing VF or the one that the PF names, and the fields of its result. -/
def Obligations.RingStatusResult : Prop :=
  ∀ (c : Cmd) (r : Nat) (s : State), (c.fn = .pf ∧ c.target = r ∨ c.fn = .vf r) → r < 16 → czero c 0x18 = true → Enters 0x02 c s →
    ∃ t v, exec (.ringStatus c) s = .next t ∧ Completes 0x02 c ⟨0, 0, v⟩ 0 t ∧ let e := entered 0x02 c s
      bits v 0 15 = (s.ctl.legs.filter fun p => decide (p.2.ring = r) && decide (p.2.st = .active)).length % 2 ^ 15 ∧ bits v 15 1 = 0 ∧
      bits v 16 13 = (s.ctl.acts.filter fun p => decide (p.2.ring = r)).length % 2 ^ 13 ∧ bits v 29 3 = 0 ∧
      bits v 32 24 = generation r e % 2 ^ 24 ∧ bits v 56 3 = armedOf r e % 8 ∧ bits v 59 1 = b2n (rollbackOk r e) ∧ v < 2 ^ 60

/-- R137: the measures against side channels: on at reset; a write that clears one while a slot is valid is ignored, counted and reported; a
load that makes a slot valid turns both on. -/
def Obligations.ScaMeasures : Prop :=
  fon R.CIPH_SCA_CFG_dummy_en State.reset = true ∧ fon R.CIPH_SCA_CFG_shuffle_en State.reset = true ∧
  ∀ (s : State),
    (∀ v, keyCount s ≠ 0 → (v.testBit 0 = false ∨ v.testBit 1 = false) →
      exec (.scaCfgWrite v) s = .next (raiseUnit EV_SCA_REFUSED 0 0 (cinc 0xC0010 s))) ∧
    (∀ v, (keyCount s = 0 ∨ v.testBit 0 = true ∧ v.testBit 1 = true) → ∃ t, exec (.scaCfgWrite v) s = .next t ∧
      fon R.CIPH_SCA_CFG_dummy_en t = v.testBit 0 ∧ fon R.CIPH_SCA_CFG_shuffle_en t = v.testBit 1 ∧ Changes [.regs] s t) ∧
    (∀ t slot, exec .keyOpComplete s = .next t → keyValid slot s = false → keyValid slot t = true →
      fon R.CIPH_SCA_CFG_dummy_en t = true ∧ fon R.CIPH_SCA_CFG_shuffle_en t = true)

/-- R121: the key check value: the first three bytes of the encryption of a zero block, the first the most significant; of an all-zero
16-byte key 0x66E94B. -/
def Obligations.KeyCheckValue : Prop :=
  (∀ k a b c r, aesEnc k (List.replicate 16 0) = a :: b :: c :: r → kcvOf k = a * 2 ^ 16 + b * 2 ^ 8 + c) ∧ kcvOf (List.replicate 16 0) = 0x66E94B

/-- R266: the picture of a session that is OUT for a block: the last in output order whose own release and window are over by then, and that was
put out by the decoding of a picture of which the same holds (log entry 62). -/
def Obligations.OutPicture : Prop :=
  ∀ (x : Sess) (t : Nat), let due := fun (o : OutPic) => stampGe t (stampAdd o.release x.d) = true ∧ stampGe t (stampAdd o.at_ x.d) = true
    (∀ o, x.outAt t = some o → ∃ a b, x.outs = a ++ o :: b ∧ due o ∧ ∀ q ∈ b, ¬ due q) ∧
    (x.outAt t = none ↔ ∀ q ∈ x.outs, ¬ due q)


/-- R435: the watchdog restarts on either kick, with the timeout configured then; an expiry is logged, reported and restarts it; with action 1
a second without a kick between resets the device; a change of the timeout waits for the restart. -/
def Obligations.Watchdog : Prop :=
  ∀ (s : State),
    (∃ t, exec .pwrWdtKick s = .next t ∧ t.pwr.kicks = 0 ∧ t.pwr.wdt = fget R.PWR_WDT_CFG_timeout s ∧ Changes [.pwr] s t) ∧
    (∀ p seq pec, MbxOpen 7 p seq 0 pec s → ∃ t, exec (.wdtKick p seq pec) s = .next t ∧ t.pwr.kicks = 0 ∧
      t.pwr.wdt = fget R.PWR_WDT_CFG_timeout (mbxStart 7 p seq 0 s)) ∧
    (fon R.GLB_AON_CFG_wdt_en s = false → exec .watchdogExpiry s = .next s) ∧
    (let n := s.pwr.kicks + 1
      let logged := (faultLog ⟨unitRm, 5, 0, 0, 0, 0, n, 0xFF, severity EV_WDT_EXPIRED n, 0⟩ s).2
      let x := raiseUnit EV_WDT_EXPIRED 0 n (cinc 0x780228 { logged with pwr := { logged.pwr with
        kicks := n
        wdt := fget R.PWR_WDT_CFG_timeout logged } })
      MayStop s → fon R.GLB_AON_CFG_wdt_en s = true → (fon R.PWR_WDT_CFG_action x = false ∨ n < 2 → exec .watchdogExpiry s = .next x) ∧
        (fon R.PWR_WDT_CFG_action x = true → 2 ≤ n → exec .watchdogExpiry s = .next (stopDevice 5 true x))) ∧
    (∀ v, (fset R.PWR_WDT_CFG_timeout v s).pwr = s.pwr)

/-- R263: a picture beyond the rate that its session's layer is admitted for is not decoded: counted, reported as OVER_CAPACITY, and what
refers to it later finds a missing reference. -/
def Sys2Proof.Claims.DecodeRate : Prop :=
  ∀ (id : Nat) (x : Sess) (w : Wait) (p : PicSyn) (s : State), 
    let y := ((({ x with queue := x.queue.drop 1 } : Sess).takeSets p).aim (track id s).av1 w p).noteId w
    let z := y.lose w p
    p.sid ≤ y.sid → p.tid ≤ y.tid → y.fps ≤ (y.acc.filter fun a => decide (a.1 = p.sid) && decide (stampSub w.release a.2 < 2000)).length →
      decodeStart id x w p s = determinismLost ((tfind s.ctl.streams id).elim 0 fun st => streamAct st s) 3
        (cinc (strCnt id 0x98) (sessSave id z s)) ∧
      (∀ i ∈ p.refresh, tfind z.slots i = some none) ∧
      tfind (decodeStart id x w p s).vid.sess id = some { z with ckpt := z.context (pliTimer id s) }

/-- R253, R263, R254, R274, R284, R296, R297: pictures decoded and encoded. -/
def Obligations.PictureCoding : Prop := Claims.PictureDecoding ∧ Claims.PictureEncoding ∧ Claims.DecodeRate


/-- R130: a packet that fails verification: AUTH_FAIL to its stream's Ring and the PF at most once in 2,000 blocks, with the count since the
last; no block is degraded for it and no Act reported. -/
def Obligations.AuthFailures : Prop :=
  ∀ (id eng : Nat) (st : Stream) (s : State), tfind s.ctl.streams id = some st →
    let d := verdictDrop id 0x38 eng 0x10 s
    let soon := ∃ b, tfind s.hif.rate (rateKey EV_AUTH_FAIL id) = some b ∧ stampSub s.clk.stamp b < 2000
    (soon → authFail id eng s = streamPut id { st with sinceFail := st.sinceFail + 1 } d) ∧
    (¬ soon → ∃ u, authFail id eng s = raiseObj EV_AUTH_FAIL (streamRing st s) 3 id (st.sinceFail + 1) u ∧
      tfind u.ctl.streams id = some { st with sinceFail := 0 } ∧ tfind u.hif.rate (rateKey EV_AUTH_FAIL id) = some s.clk.stamp ∧
      Changes [.cnt, .hif, .ctl] s u) ∧
    (authFail id eng s).obs = s.obs ∧ (authFail id eng s).ctl.legs = s.ctl.legs
end

