-- ==== Sys2Proof/Laws/Table.lean ====
section
/-! SUPPORT. Laws of the sparse tables: what a key reads as after an update, and that every update keeps the keys strictly rising. -/

set_option Elab.async false

namespace Sys2Proof.Machine

/-! ## The keys stay strictly rising -/

/-- Every key of the table is above `k`. -/
def tabove {α : Type} (k : Nat) (t : Tbl α) : Prop := ∀ p ∈ t, k < p.1

theorem tsorted_cons {α : Type} (p : Nat × α) (t : Tbl α) :
    tsorted (p :: t) = true ↔ tabove p.1 t ∧ tsorted t = true := by
  induction t generalizing p with
  | nil => simp [tsorted, tabove]
  | cons q r ih =>
    obtain ⟨j, v⟩ := p
    obtain ⟨k, w⟩ := q
    constructor
    · intro h
      simp only [tsorted, Bool.and_eq_true, decide_eq_true_eq] at h
      refine ⟨?_, h.2⟩
      intro x hx
      rcases List.mem_cons.mp hx with rfl | hx
      · exact h.1
      · exact Nat.lt_trans h.1 (((ih (k, w)).mp h.2).1 x hx)
    · intro h
      simp only [tsorted, Bool.and_eq_true, decide_eq_true_eq]
      exact ⟨h.1 (k, w) List.mem_cons_self, h.2⟩

theorem tabove_tset {α : Type} (t : Tbl α) (j k : Nat) (v : α) (h : tabove j t) (hk : j < k) : tabove j (tset t k v) := by
  induction t with
  | nil =>
    intro p hp
    rw [tset, List.mem_singleton] at hp
    simpa [hp] using hk
  | cons q r ih =>
    obtain ⟨i, w⟩ := q
    have hq : j < i := h (i, w) List.mem_cons_self
    have hr : tabove j r := fun p hp => h p (List.mem_cons_of_mem _ hp)
    intro p hp
    simp only [tset] at hp
    split at hp
    · rcases List.mem_cons.mp hp with rfl | hp
      · exact hk
      · exact h p hp
    · split at hp
      · rcases List.mem_cons.mp hp with rfl | hp
        · exact hk
        · exact hr p hp
      · rcases List.mem_cons.mp hp with rfl | hp
        · exact hq
        · exact ih hr p hp

/-- Setting a key keeps the table's form. -/
theorem tsorted_tset {α : Type} (t : Tbl α) (k : Nat) (v : α) (h : tsorted t = true) : tsorted (tset t k v) = true := by
  induction t with
  | nil => simp [tset, tsorted]
  | cons q r ih =>
    obtain ⟨i, w⟩ := q
    obtain ⟨ha, hr⟩ := (tsorted_cons _ _).mp h
    simp only [tset]
    split
    · rename_i hlt
      refine (tsorted_cons _ _).mpr ⟨?_, h⟩
      intro p hp
      rcases List.mem_cons.mp hp with rfl | hp
      · exact hlt
      · exact Nat.lt_trans hlt (ha p hp)
    · split
      · rename_i _ heq
        exact (tsorted_cons _ _).mpr ⟨heq ▸ ha, hr⟩
      · exact (tsorted_cons _ _).mpr ⟨tabove_tset r i k v ha (by omega), ih hr⟩

theorem mem_terase {α : Type} (t : Tbl α) (k : Nat) (p : Nat × α) (h : p ∈ terase t k) : p ∈ t ∧ p.1 ≠ k := by
  induction t with
  | nil => simp [terase] at h
  | cons q r ih =>
    obtain ⟨i, w⟩ := q
    simp only [terase] at h
    split at h
    · exact ⟨List.mem_cons_of_mem _ (ih h).1, (ih h).2⟩
    · rcases List.mem_cons.mp h with rfl | h
      · exact ⟨List.mem_cons_self, by assumption⟩
      · exact ⟨List.mem_cons_of_mem _ (ih h).1, (ih h).2⟩

/-- Erasing a key keeps the table's form. -/
theorem tsorted_terase {α : Type} (t : Tbl α) (k : Nat) (h : tsorted t = true) : tsorted (terase t k) = true := by
  induction t with
  | nil => rfl
  | cons q r ih =>
    obtain ⟨i, w⟩ := q
    obtain ⟨ha, hr⟩ := (tsorted_cons _ _).mp h
    simp only [terase]
    split
    · exact ih hr
    · exact (tsorted_cons _ _).mpr ⟨fun p hp => ha p (mem_terase r k p hp).1, ih hr⟩

/-- Filtering entries keeps the table's form. -/
theorem tsorted_filter {α : Type} (t : Tbl α) (f : Nat × α → Bool) (h : tsorted t = true) : tsorted (t.filter f) = true := by
  induction t with
  | nil => rfl
  | cons q r ih =>
    obtain ⟨ha, hr⟩ := (tsorted_cons _ _).mp h
    rw [List.filter_cons]
    split
    · exact (tsorted_cons _ _).mpr ⟨fun p hp => ha p (List.mem_filter.mp hp).1, ih hr⟩
    · exact ih hr

/-- Two tables, every key of the first below every key of the second, one after the other. -/
theorem tsorted_append {α : Type} (t u : Tbl α) (ht : tsorted t = true) (hu : tsorted u = true)
    (h : ∀ p ∈ t, ∀ q ∈ u, p.1 < q.1) : tsorted (t ++ u) = true := by
  induction t with
  | nil => exact hu
  | cons q r ih =>
    obtain ⟨ha, hr⟩ := (tsorted_cons _ _).mp ht
    refine (tsorted_cons q (r ++ u)).mpr ⟨?_, ih hr fun p hp => h p (List.mem_cons_of_mem _ hp)⟩
    intro p hp
    rcases List.mem_append.mp hp with hp | hp
    · exact ha p hp
    · exact h q List.mem_cons_self p hp

/-- Consecutive keys with values. -/
theorem tsorted_run {α : Type} (a : Nat) (l : List α) : tsorted (((List.range l.length).map fun i => a + i).zip l) = true := by
  induction l generalizing a with
  | nil => rfl
  | cons b r ih =>
    have e : ((List.range (r.length + 1)).map fun i => a + i) = a :: (List.range r.length).map fun i => a + 1 + i := by
      rw [List.range_succ_eq_map, List.map_cons, List.map_map]
      refine congrArg (a :: ·) (List.map_congr_left fun i _ => ?_)
      simp only [Function.comp_apply]
      omega
    rw [List.length_cons, e, List.zip_cons_cons]
    refine (tsorted_cons _ _).mpr ⟨?_, ih (a + 1)⟩
    intro p hp
    obtain ⟨i, _, hi⟩ := List.mem_map.mp (List.of_mem_zip hp).1
    simp only
    omega

/-- Erasing a range of keys keeps the table's form. -/
theorem tsorted_teraseRange {α : Type} (t : Tbl α) (lo hi : Nat) (h : tsorted t = true) :
    tsorted (teraseRange t lo hi) = true := tsorted_filter t _ h

/-- Changing the entries keeps the table's form. -/
theorem tsorted_tmap {α : Type} (t : Tbl α) (f : Nat → α → α) (h : tsorted t = true) : tsorted (tmap t f) = true := by
  induction t with
  | nil => rfl
  | cons q r ih =>
    obtain ⟨ha, hr⟩ := (tsorted_cons _ _).mp h
    refine (tsorted_cons (q.1, f q.1 q.2) (tmap r f)).mpr ⟨?_, ih hr⟩
    intro p hp
    obtain ⟨x, hx, rfl⟩ := List.mem_map.mp hp
    exact ha x hx

/-! ## What a key reads as -/

theorem tget_tset_same {α : Type} (d : α) (t : Tbl α) (k : Nat) (v : α) : tget d (tset t k v) k = v := by
  induction t with
  | nil => simp [tset, tget]
  | cons q r ih =>
    obtain ⟨i, w⟩ := q
    simp only [tset]
    split
    · simp [tget]
    · split
      · simp [tget]
      · rename_i h1 h2
        simp [tget, Ne.symm h2, ih]

theorem tget_tset_other {α : Type} (d : α) (t : Tbl α) (j k : Nat) (v : α) (h : j ≠ k) : tget d (tset t k v) j = tget d t j := by
  induction t with
  | nil => simp [tset, tget, Ne.symm h]
  | cons q r ih =>
    obtain ⟨i, w⟩ := q
    simp only [tset]
    split
    · simp [tget, Ne.symm h]
    · split
      · rename_i _ heq
        subst heq
        simp [tget, Ne.symm h]
      · simp only [tget, ih]

theorem tfind_tset_same {α : Type} (t : Tbl α) (k : Nat) (v : α) : tfind (tset t k v) k = some v := by
  induction t with
  | nil => simp [tset, tfind]
  | cons q r ih =>
    obtain ⟨i, w⟩ := q
    simp only [tset]
    split
    · simp [tfind]
    · split
      · simp [tfind]
      · rename_i h1 h2
        simp [tfind, Ne.symm h2, ih]

theorem tfind_tset_other {α : Type} (t : Tbl α) (j k : Nat) (v : α) (h : j ≠ k) : tfind (tset t k v) j = tfind t j := by
  induction t with
  | nil => simp [tset, tfind, Ne.symm h]
  | cons q r ih =>
    obtain ⟨i, w⟩ := q
    simp only [tset]
    split
    · simp [tfind, Ne.symm h]
    · split
      · rename_i _ heq
        subst heq
        simp [tfind, Ne.symm h]
      · simp only [tfind, ih]

theorem tget_terase_same {α : Type} (d : α) (t : Tbl α) (k : Nat) : tget d (terase t k) k = d := by
  induction t with
  | nil => rfl
  | cons q r ih =>
    obtain ⟨i, w⟩ := q
    simp only [terase]
    split
    · exact ih
    · rename_i h
      simp [tget, h, ih]

theorem tget_terase_other {α : Type} (d : α) (t : Tbl α) (j k : Nat) (h : j ≠ k) : tget d (terase t k) j = tget d t j := by
  induction t with
  | nil => rfl
  | cons q r ih =>
    obtain ⟨i, w⟩ := q
    simp only [terase]
    split
    · rename_i heq
      subst heq
      simp [tget, Ne.symm h, ih]
    · simp only [tget, ih]

theorem tfind_terase_same {α : Type} (t : Tbl α) (k : Nat) : tfind (terase t k) k = none := by
  induction t with
  | nil => rfl
  | cons q r ih =>
    obtain ⟨i, w⟩ := q
    simp only [terase]
    split
    · exact ih
    · rename_i h
      simp [tfind, h, ih]

theorem tfind_terase_other {α : Type} (t : Tbl α) (j k : Nat) (h : j ≠ k) : tfind (terase t k) j = tfind t j := by
  induction t with
  | nil => rfl
  | cons q r ih =>
    obtain ⟨i, w⟩ := q
    simp only [terase]
    split
    · rename_i heq
      subst heq
      simp [tfind, Ne.symm h, ih]
    · simp only [tfind, ih]

/-- Setting a key twice leaves the second value. -/
theorem tset_tset {α : Type} (t : Tbl α) (k : Nat) (v w : α) : tset (tset t k v) k w = tset t k w := by
  induction t with
  | nil => simp [tset]
  | cons q r ih =>
    obtain ⟨i, x⟩ := q
    simp only [tset]
    split
    · simp [tset]
    · split
      · simp [tset]
      · simp only [tset, *, if_false]

end Sys2Proof.Machine
end

