-- ==== Sys2Proof/Laws/Memory.lean ====
section
/-! SUPPORT. Laws of the memories: a byte written reads back, every other byte is as before, and every memory operation keeps the
canonical form. -/

set_option Elab.async false

namespace Sys2Proof.Machine

theorem Memory.wf_iff (m : List Host.Cell) :
    Memory.wf m = true ↔ tsorted m = true ∧ ∀ c ∈ m, c.2 ≠ Memory.unlisted := by
  simp [Memory.wf, List.all_eq_true]

theorem Memory.wf_nil : Memory.wf [] = true := rfl

theorem mem_tset {α : Type} (t : Tbl α) (k : Nat) (v : α) (p : Nat × α) (h : p ∈ tset t k v) : p = (k, v) ∨ p ∈ t := by
  induction t with
  | nil => simpa [tset] using h
  | cons q r ih =>
    obtain ⟨i, w⟩ := q
    simp only [tset] at h
    split at h
    · exact (List.mem_cons.mp h)
    · split at h
      · rcases List.mem_cons.mp h with h | h
        · exact .inl h
        · exact .inr (List.mem_cons_of_mem _ h)
      · rcases List.mem_cons.mp h with h | h
        · exact .inr (h ▸ List.mem_cons_self)
        · exact (ih h).imp id (List.mem_cons_of_mem _)

/-- A byte written keeps the canonical form. -/
theorem Memory.wf_write (m : List Host.Cell) (a : Nat) (b : Byte) (h : Memory.wf m = true) :
    Memory.wf (Memory.write m a b) = true := by
  obtain ⟨hs, hz⟩ := (Memory.wf_iff m).mp h
  unfold Memory.write
  split
  · exact (Memory.wf_iff _).mpr ⟨tsorted_terase m a hs, fun c hc => hz c (mem_terase m a c hc).1⟩
  · rename_i hb
    refine (Memory.wf_iff _).mpr ⟨tsorted_tset m a b hs, fun c hc => ?_⟩
    rcases mem_tset m a b c hc with rfl | hc
    · exact hb
    · exact hz c hc

/-- Bytes written keep the canonical form. -/
theorem Memory.wf_writeN (m : List Host.Cell) (a : Nat) (l : List Byte) (h : Memory.wf m = true) :
    Memory.wf (Memory.writeN m a l) = true := by
  induction l generalizing m a with
  | nil => exact h
  | cons b r ih => exact ih _ _ (Memory.wf_write m a b h)

/-- A byte written reads back. -/
theorem Memory.read_write_same (m : List Host.Cell) (a : Nat) (b : Byte) : Memory.read (Memory.write m a b) a = b := by
  unfold Memory.write Memory.read
  split
  · rename_i h
    rw [tget_terase_same, h]
  · exact tget_tset_same _ m a b

/-- Every other byte is as before. -/
theorem Memory.read_write_other (m : List Host.Cell) (a x : Nat) (b : Byte) (h : x ≠ a) :
    Memory.read (Memory.write m a b) x = Memory.read m x := by
  unfold Memory.write Memory.read
  split
  · exact tget_terase_other _ m x a h
  · exact tget_tset_other _ m x a b h

/-- A byte outside the written range is as before. -/
theorem Memory.read_writeN_outside (m : List Host.Cell) (a x : Nat) (l : List Byte) (h : x < a ∨ a + l.length ≤ x) :
    Memory.read (Memory.writeN m a l) x = Memory.read m x := by
  induction l generalizing m a with
  | nil => rfl
  | cons b r ih =>
    rw [List.length_cons] at h
    rw [Memory.writeN, ih _ _ (by omega), Memory.read_write_other _ _ _ _ (by omega)]

/-- A byte of the written range is the byte written there. -/
theorem Memory.read_writeN_inside (m : List Host.Cell) (a i : Nat) (l : List Byte) (h : i < l.length) :
    Memory.read (Memory.writeN m a l) (a + i) = l[i] := by
  induction l generalizing m a i with
  | nil => exact absurd h (Nat.not_lt_zero i)
  | cons b r ih =>
    rw [Memory.writeN]
    cases i with
    | zero =>
      rw [Memory.read_writeN_outside _ _ _ _ (by omega)]
      exact Memory.read_write_same m a b
    | succ j =>
      have := ih (Memory.write m a b) (a + 1) j (by simpa using h)
      rw [show a + (j + 1) = a + 1 + j by omega, this]
      simp

/-- Bytes written read back. -/
theorem Memory.readN_writeN (m : List Host.Cell) (a : Nat) (l : List Byte) :
    Memory.readN (Memory.writeN m a l) a l.length = l := by
  refine List.ext_getElem (by simp [Memory.readN]) fun i h1 h2 => ?_
  simp [Memory.readN, Memory.read_writeN_inside m a i l h2]

/-- Filtering cells keeps the canonical form. -/
theorem Memory.wf_filter (m : List Host.Cell) (f : Host.Cell → Bool) (h : Memory.wf m = true) : Memory.wf (m.filter f) = true := by
  obtain ⟨hs, hz⟩ := (Memory.wf_iff m).mp h
  exact (Memory.wf_iff _).mpr ⟨tsorted_filter m f hs, fun c hc => hz c (List.mem_filter.mp hc).1⟩

/-- A block written at once keeps the canonical form. -/
theorem Memory.wf_writeRun (m : List Host.Cell) (a : Nat) (l : List Byte) (h : Memory.wf m = true) :
    Memory.wf (Memory.writeRun m a l) = true := by
  obtain ⟨hs, hz⟩ := (Memory.wf_iff m).mp h
  have key : ∀ p ∈ ((List.range l.length).map fun i => a + i).zip l, a ≤ p.1 ∧ p.1 < a + l.length := by
    intro p hp
    obtain ⟨i, hi, e⟩ := List.mem_map.mp (List.of_mem_zip hp).1
    rw [List.mem_range] at hi
    omega
  refine (Memory.wf_iff _).mpr ⟨?_, ?_⟩
  · refine tsorted_append _ _ (tsorted_append _ _ (tsorted_filter m _ hs) (tsorted_filter _ _ (tsorted_run a l)) ?_)
      (tsorted_filter m _ hs) ?_
    · intro p hp q hq
      have hp := (List.mem_filter.mp hp).2
      have hq := key q (List.mem_filter.mp hq).1
      simp only [decide_eq_true_eq] at hp
      omega
    · intro p hp q hq
      have hq := (List.mem_filter.mp hq).2
      simp only [decide_eq_true_eq] at hq
      rcases List.mem_append.mp hp with hp | hp
      · have hp := (List.mem_filter.mp hp).2
        simp only [decide_eq_true_eq] at hp
        omega
      · have hp := key p (List.mem_filter.mp hp).1
        omega
  · intro c hc
    rcases List.mem_append.mp hc with hc | hc
    · rcases List.mem_append.mp hc with hc | hc
      · exact hz c (List.mem_filter.mp hc).1
      · simpa using (List.mem_filter.mp hc).2
    · exact hz c (List.mem_filter.mp hc).1

end Sys2Proof.Machine
end

