-- ==== Sys2Proof/Laws/Change.lean ====
section
/-! SUPPORT. How frames compose, and the invariant with them: the lemmas by which what an operation may change, and that it keeps the
machine's invariant, follows from that of the operations it is made of. -/

set_option Elab.async false

namespace Sys2Proof.Machine

/-- From `s` to `t` no part changes but those of `ps`, and the invariant is kept. -/
structure Moves (ps : List Part) (s t : State) : Prop extends Changes ps s t where
  keeps : Sound s → Sound t

/-- The outcome is a next state, reached so. -/
def Runs (ps : List Part) (s : State) (o : Host.Outcome State Fault Refusal) : Prop := ∃ t, o = .next t ∧ Moves ps s t

theorem Runs.answers {ps : List Part} {s : State} {o : Host.Outcome State Fault Refusal} (h : Runs ps s o) : Answers ps s o := by
  obtain ⟨t, e, m⟩ := h
  exact ⟨t, e, m.toChanges⟩

theorem Runs.keeps {ps : List Part} {s t : State} {o : Host.Outcome State Fault Refusal} (h : Runs ps s o) (e : o = .next t)
    (k : Sound s) : Sound t := by
  obtain ⟨u, e', m⟩ := h
  cases e.symm.trans e'
  exact m.keeps k

/-! ## The invariant's parts -/

theorem cntOk_tset {t : Tbl Nat} {k v : Nat} (h : cntOk t) (b : v < 2 ^ 64) : cntOk (tset t k v) := by
  refine ⟨tsorted_tset t k v h.1, fun p hp => ?_⟩
  rcases mem_tset t k v p hp with rfl | hp
  · exact b
  · exact h.2 p hp

theorem cntOk_filter {t : Tbl Nat} (f : Nat × Nat → Bool) (h : cntOk t) : cntOk (t.filter f) :=
  ⟨tsorted_filter t f h.1, fun p hp => h.2 p (List.mem_filter.mp hp).1⟩

theorem cntOk_terase {t : Tbl Nat} (k : Nat) (h : cntOk t) : cntOk (terase t k) :=
  ⟨tsorted_terase t k h.1, fun p hp => h.2 p (mem_terase t k p hp).1⟩

theorem cntOk_nil : cntOk [] := ⟨rfl, fun _ h => absurd h List.not_mem_nil⟩

theorem memOk_host {m : Mem} (a : Nat) (l : List Byte) (h : memOk m) : memOk { m with host := Memory.writeN m.host a l } :=
  ⟨Memory.wf_writeN _ _ _ h.1, h.2⟩

theorem memOk_dram {m : Mem} (a : Nat) (l : List Byte) (h : memOk m) : memOk { m with dram := Memory.writeN m.dram a l } :=
  ⟨h.1, Memory.wf_writeN _ _ _ h.2.1, h.2.2⟩

theorem memOk_dramRun {m : Mem} (a : Nat) (l : List Byte) (h : memOk m) : memOk { m with dram := Memory.writeRun m.dram a l } :=
  ⟨h.1, Memory.wf_writeRun _ _ _ h.2.1, h.2.2⟩

theorem memOk_ledger {m : Mem} (a : Nat) (l : List Byte) (h : memOk m) : memOk { m with ledger := Memory.writeN m.ledger a l } :=
  ⟨h.1, h.2.1, Memory.wf_writeN _ _ _ h.2.2.1, h.2.2.2⟩

theorem memOk_spi {m : Mem} (a : Nat) (l : List Byte) (h : memOk m) : memOk { m with spi := Memory.writeN m.spi a l } :=
  ⟨h.1, h.2.1, h.2.2.1, Memory.wf_writeN _ _ _ h.2.2.2⟩

theorem memOk_filter {m : Mem} (f : Host.Cell → Bool) (h : memOk m) : memOk { m with dram := m.dram.filter f } :=
  ⟨h.1, Memory.wf_filter _ _ h.2.1, h.2.2⟩

/-! ## Composition -/

theorem Moves.refl (ps : List Part) (s : State) : Moves ps s s := ⟨⟨fun p _ => by cases p <;> rfl⟩, id⟩

theorem Part.same_trans {p : Part} {s t u : State} (h : p.same s t) (k : p.same t u) : p.same s u := by
  cases p <;> exact Eq.trans k h

theorem Moves.trans {ps : List Part} {s t u : State} (h : Moves ps s t) (k : Moves ps t u) : Moves ps s u :=
  ⟨⟨fun p hp => Part.same_trans (h.same p hp) (k.same p hp)⟩, fun a => k.keeps (h.keeps a)⟩

theorem Moves.mono {ps qs : List Part} {s t : State} (h : Moves ps s t) (k : ∀ p ∈ ps, p ∈ qs) : Moves qs s t :=
  ⟨⟨fun p hp => h.same p fun m => hp (k p m)⟩, h.keeps⟩

/-- An operation after others: what it changes is among what may change. -/
theorem Moves.seq {ps qs : List Part} {s x t : State} (h : Moves qs x t) (k : ∀ p ∈ qs, p ∈ ps) (b : Moves ps s x) :
    Moves ps s t := b.trans (h.mono k)

theorem Moves.foldl {α : Type} {ps : List Part} {s x : State} {g : State → α → State} {l : List α}
    (h : ∀ a y, Moves ps y (g y a)) (b : Moves ps s x) : Moves ps s (l.foldl g x) := by
  induction l generalizing x with
  | nil => exact b
  | cons a l ih => exact ih (b.trans (h a x))

/-- A fold that carries a value beside the state. -/
theorem Moves.foldl_snd {α β : Type} {ps : List Part} {s : State} {g : β × State → α → β × State} {l : List α} {x : β × State}
    (h : ∀ a b y, Moves ps y (g (b, y) a).2) (b : Moves ps s x.2) : Moves ps s (l.foldl g x).2 := by
  induction l generalizing x with
  | nil => exact b
  | cons a l ih => exact ih (b.trans (h a x.1 x.2))

/-- A fold that carries a value computed beside the state, step by step. -/
theorem Moves.foldl_pair {α β γ : Type} {ps : List Part} {s : State} {f : α → State → γ × State} {g : β → α → γ → β} {l : List α}
    {x : β × State} (h : ∀ a y, Moves ps y (f a y).2) (b : Moves ps s x.2) :
    Moves ps s (l.foldl (fun a e => let q := f e a.2; (g a.1 e q.1, q.2)) x).2 :=
  Moves.foldl_snd (fun a _ y => h a y) b

theorem Moves.ite {c : Prop} [Decidable c] {ps : List Part} {s x y : State} (h : Moves ps s x) (k : Moves ps s y) :
    Moves ps s (if c then x else y) := by split <;> assumption

theorem Runs.next {ps : List Part} {s t : State} (h : Moves ps s t) : Runs ps s (.next t) := ⟨t, rfl, h⟩

theorem Runs.mono {ps qs : List Part} {s : State} {o : Host.Outcome State Fault Refusal} (h : Runs ps s o)
    (k : ∀ p ∈ ps, p ∈ qs) : Runs qs s o := by
  obtain ⟨t, e, c⟩ := h
  exact ⟨t, e, c.mono k⟩

theorem Moves.clk_with {ps : List Part} {s x : State} {v}
    (h : Part.clk ∈ ps)
    (b : Moves ps s x)
    (kclk : Sound x → clkOk v := by
      first
      | exact fun h => ⟨h.clk.1, h.clk.2.1, h.clk.2.2.1, h.clk.2.2.2⟩
      | exact fun h => ⟨h.clk.1, h.clk.2.1, Nat.mod_lt _ (by decide), h.clk.2.2.2⟩
      | exact fun h => ⟨h.clk.1, h.clk.2.1, h.clk.2.2.1, Nat.mod_lt _ (by decide)⟩
      | exact fun h => ⟨Nat.mod_lt _ (by decide), Nat.succ_pos 23, h.clk.2.2⟩)
    : Moves ps s { x with
      clk := v } := by
  refine ⟨⟨fun p hp => ?_⟩, fun h => ⟨(b.keeps h).mem, (b.keeps h).regs, (b.keeps h).cnt, (b.keeps h).shadow, kclk (b.keeps h)⟩⟩
  cases p <;> first | exact b.same _ hp | exact absurd h hp

theorem Moves.mem_with {ps : List Part} {s x : State} {v}
    (h : Part.mem ∈ ps)
    (b : Moves ps s x)
    (kmem : Sound x → memOk v := by
      first
      | exact fun h => ⟨h.mem.1, h.mem.2.1, h.mem.2.2.1, h.mem.2.2.2⟩
      | exact fun h => memOk_host _ _ h.mem
      | exact fun h => memOk_dram _ _ h.mem
      | exact fun h => memOk_dramRun _ _ h.mem
      | exact fun h => memOk_ledger _ _ h.mem
      | exact fun h => memOk_spi _ _ h.mem
      | exact fun h => memOk_filter _ h.mem)
    : Moves ps s { x with
      mem := v } := by
  refine ⟨⟨fun p hp => ?_⟩, fun h => ⟨kmem (b.keeps h), (b.keeps h).regs, (b.keeps h).cnt, (b.keeps h).shadow, (b.keeps h).clk⟩⟩
  cases p <;> first | exact b.same _ hp | exact absurd h hp

theorem Moves.regs_with {ps : List Part} {s x : State} {v}
    (h : Part.regs ∈ ps)
    (b : Moves ps s x)
    (kregs : Sound x → regsOk v := by
      first
      | exact fun h => tsorted_tset _ _ _ h.regs
      | exact fun h => tsorted_filter _ _ h.regs)
    : Moves ps s { x with
      regs := v } := by
  refine ⟨⟨fun p hp => ?_⟩, fun h => ⟨(b.keeps h).mem, kregs (b.keeps h), (b.keeps h).cnt, (b.keeps h).shadow, (b.keeps h).clk⟩⟩
  cases p <;> first | exact b.same _ hp | exact absurd h hp

theorem Moves.cnt_with {ps : List Part} {s x : State} {v}
    (h : Part.cnt ∈ ps)
    (b : Moves ps s x)
    (kcnt : Sound x → cntOk v := by
      first
      | exact fun h => cntOk_filter _ h.cnt
      | exact fun h => cntOk_terase _ h.cnt
      | exact fun h => cntOk_nil)
    : Moves ps s { x with
      cnt := v } := by
  refine ⟨⟨fun p hp => ?_⟩, fun h => ⟨(b.keeps h).mem, (b.keeps h).regs, kcnt (b.keeps h), (b.keeps h).shadow, (b.keeps h).clk⟩⟩
  cases p <;> first | exact b.same _ hp | exact absurd h hp

theorem Moves.cntSh_with {ps : List Part} {s x : State} {v}
    (h : Part.cntSh ∈ ps)
    (b : Moves ps s x)
    (kcntSh : Sound x → cntOk v := by
      first
      | exact fun h => h.cnt
      | exact fun h => cntOk_filter _ h.shadow
      | exact fun h => cntOk_nil)
    : Moves ps s { x with
      cntSh := v } := by
  refine ⟨⟨fun p hp => ?_⟩, fun h => ⟨(b.keeps h).mem, (b.keeps h).regs, (b.keeps h).cnt, kcntSh (b.keeps h), (b.keeps h).clk⟩⟩
  cases p <;> first | exact b.same _ hp | exact absurd h hp

theorem Moves.hif_with {ps : List Part} {s x : State} {v}
    (h : Part.hif ∈ ps)
    (b : Moves ps s x)
    : Moves ps s { x with
      hif := v } := by
  refine ⟨⟨fun p hp => ?_⟩, fun h => ⟨(b.keeps h).mem, (b.keeps h).regs, (b.keeps h).cnt, (b.keeps h).shadow, (b.keeps h).clk⟩⟩
  cases p <;> first | exact b.same _ hp | exact absurd h hp

theorem Moves.frm_with {ps : List Part} {s x : State} {v}
    (h : Part.frm ∈ ps)
    (b : Moves ps s x)
    : Moves ps s { x with
      frm := v } := by
  refine ⟨⟨fun p hp => ?_⟩, fun h => ⟨(b.keeps h).mem, (b.keeps h).regs, (b.keeps h).cnt, (b.keeps h).shadow, (b.keeps h).clk⟩⟩
  cases p <;> first | exact b.same _ hp | exact absurd h hp

theorem Moves.ctl_with {ps : List Part} {s x : State} {v}
    (h : Part.ctl ∈ ps)
    (b : Moves ps s x)
    : Moves ps s { x with
      ctl := v } := by
  refine ⟨⟨fun p hp => ?_⟩, fun h => ⟨(b.keeps h).mem, (b.keeps h).regs, (b.keeps h).cnt, (b.keeps h).shadow, (b.keeps h).clk⟩⟩
  cases p <;> first | exact b.same _ hp | exact absurd h hp

theorem Moves.key_with {ps : List Part} {s x : State} {v}
    (h : Part.key ∈ ps)
    (b : Moves ps s x)
    : Moves ps s { x with
      key := v } := by
  refine ⟨⟨fun p hp => ?_⟩, fun h => ⟨(b.keeps h).mem, (b.keeps h).regs, (b.keeps h).cnt, (b.keeps h).shadow, (b.keeps h).clk⟩⟩
  cases p <;> first | exact b.same _ hp | exact absurd h hp

theorem Moves.aud_with {ps : List Part} {s x : State} {v}
    (h : Part.aud ∈ ps)
    (b : Moves ps s x)
    : Moves ps s { x with
      aud := v } := by
  refine ⟨⟨fun p hp => ?_⟩, fun h => ⟨(b.keeps h).mem, (b.keeps h).regs, (b.keeps h).cnt, (b.keeps h).shadow, (b.keeps h).clk⟩⟩
  cases p <;> first | exact b.same _ hp | exact absurd h hp

theorem Moves.egr_with {ps : List Part} {s x : State} {v}
    (h : Part.egr ∈ ps)
    (b : Moves ps s x)
    : Moves ps s { x with
      egr := v } := by
  refine ⟨⟨fun p hp => ?_⟩, fun h => ⟨(b.keeps h).mem, (b.keeps h).regs, (b.keeps h).cnt, (b.keeps h).shadow, (b.keeps h).clk⟩⟩
  cases p <;> first | exact b.same _ hp | exact absurd h hp

theorem Moves.src_with {ps : List Part} {s x : State} {v}
    (h : Part.src ∈ ps)
    (b : Moves ps s x)
    : Moves ps s { x with
      src := v } := by
  refine ⟨⟨fun p hp => ?_⟩, fun h => ⟨(b.keeps h).mem, (b.keeps h).regs, (b.keeps h).cnt, (b.keeps h).shadow, (b.keeps h).clk⟩⟩
  cases p <;> first | exact b.same _ hp | exact absurd h hp

theorem Moves.fwd_with {ps : List Part} {s x : State} {v}
    (h : Part.fwd ∈ ps)
    (b : Moves ps s x)
    : Moves ps s { x with
      fwd := v } := by
  refine ⟨⟨fun p hp => ?_⟩, fun h => ⟨(b.keeps h).mem, (b.keeps h).regs, (b.keeps h).cnt, (b.keeps h).shadow, (b.keeps h).clk⟩⟩
  cases p <;> first | exact b.same _ hp | exact absurd h hp

theorem Moves.vid_with {ps : List Part} {s x : State} {v}
    (h : Part.vid ∈ ps)
    (b : Moves ps s x)
    : Moves ps s { x with
      vid := v } := by
  refine ⟨⟨fun p hp => ?_⟩, fun h => ⟨(b.keeps h).mem, (b.keeps h).regs, (b.keeps h).cnt, (b.keeps h).shadow, (b.keeps h).clk⟩⟩
  cases p <;> first | exact b.same _ hp | exact absurd h hp

theorem Moves.flt_with {ps : List Part} {s x : State} {v}
    (h : Part.flt ∈ ps)
    (b : Moves ps s x)
    : Moves ps s { x with
      flt := v } := by
  refine ⟨⟨fun p hp => ?_⟩, fun h => ⟨(b.keeps h).mem, (b.keeps h).regs, (b.keeps h).cnt, (b.keeps h).shadow, (b.keeps h).clk⟩⟩
  cases p <;> first | exact b.same _ hp | exact absurd h hp

theorem Moves.obs_with {ps : List Part} {s x : State} {v}
    (h : Part.obs ∈ ps)
    (b : Moves ps s x)
    : Moves ps s { x with
      obs := v } := by
  refine ⟨⟨fun p hp => ?_⟩, fun h => ⟨(b.keeps h).mem, (b.keeps h).regs, (b.keeps h).cnt, (b.keeps h).shadow, (b.keeps h).clk⟩⟩
  cases p <;> first | exact b.same _ hp | exact absurd h hp

theorem Moves.crsl_with {ps : List Part} {s x : State} {v}
    (h : Part.crsl ∈ ps)
    (b : Moves ps s x)
    : Moves ps s { x with
      crsl := v } := by
  refine ⟨⟨fun p hp => ?_⟩, fun h => ⟨(b.keeps h).mem, (b.keeps h).regs, (b.keeps h).cnt, (b.keeps h).shadow, (b.keeps h).clk⟩⟩
  cases p <;> first | exact b.same _ hp | exact absurd h hp

theorem Moves.ddr_with {ps : List Part} {s x : State} {v}
    (h : Part.ddr ∈ ps)
    (b : Moves ps s x)
    : Moves ps s { x with
      ddr := v } := by
  refine ⟨⟨fun p hp => ?_⟩, fun h => ⟨(b.keeps h).mem, (b.keeps h).regs, (b.keeps h).cnt, (b.keeps h).shadow, (b.keeps h).clk⟩⟩
  cases p <;> first | exact b.same _ hp | exact absurd h hp

theorem Moves.ldg_with {ps : List Part} {s x : State} {v}
    (h : Part.ldg ∈ ps)
    (b : Moves ps s x)
    : Moves ps s { x with
      ldg := v } := by
  refine ⟨⟨fun p hp => ?_⟩, fun h => ⟨(b.keeps h).mem, (b.keeps h).regs, (b.keeps h).cnt, (b.keeps h).shadow, (b.keeps h).clk⟩⟩
  cases p <;> first | exact b.same _ hp | exact absurd h hp

theorem Moves.dma_with {ps : List Part} {s x : State} {v}
    (h : Part.dma ∈ ps)
    (b : Moves ps s x)
    : Moves ps s { x with
      dma := v } := by
  refine ⟨⟨fun p hp => ?_⟩, fun h => ⟨(b.keeps h).mem, (b.keeps h).regs, (b.keeps h).cnt, (b.keeps h).shadow, (b.keeps h).clk⟩⟩
  cases p <;> first | exact b.same _ hp | exact absurd h hp

theorem Moves.pwr_with {ps : List Part} {s x : State} {v}
    (h : Part.pwr ∈ ps)
    (b : Moves ps s x)
    : Moves ps s { x with
      pwr := v } := by
  refine ⟨⟨fun p hp => ?_⟩, fun h => ⟨(b.keeps h).mem, (b.keeps h).regs, (b.keeps h).cnt, (b.keeps h).shadow, (b.keeps h).clk⟩⟩
  cases p <;> first | exact b.same _ hp | exact absurd h hp

theorem Moves.cas_with {ps : List Part} {s x : State} {v}
    (h : Part.cas ∈ ps)
    (b : Moves ps s x)
    : Moves ps s { x with
      cas := v } := by
  refine ⟨⟨fun p hp => ?_⟩, fun h => ⟨(b.keeps h).mem, (b.keeps h).regs, (b.keeps h).cnt, (b.keeps h).shadow, (b.keeps h).clk⟩⟩
  cases p <;> first | exact b.same _ hp | exact absurd h hp

theorem Moves.shown_with {ps : List Part} {s x : State} {v}
    (h : Part.shown ∈ ps)
    (b : Moves ps s x)
    : Moves ps s { x with
      shown := v } := by
  refine ⟨⟨fun p hp => ?_⟩, fun h => ⟨(b.keeps h).mem, (b.keeps h).regs, (b.keeps h).cnt, (b.keeps h).shadow, (b.keeps h).clk⟩⟩
  cases p <;> first | exact b.same _ hp | exact absurd h hp

theorem Moves.out_with {ps : List Part} {s x : State} {v}
    (h : Part.out ∈ ps)
    (b : Moves ps s x)
    : Moves ps s { x with
      out := v } := by
  refine ⟨⟨fun p hp => ?_⟩, fun h => ⟨(b.keeps h).mem, (b.keeps h).regs, (b.keeps h).cnt, (b.keeps h).shadow, (b.keeps h).clk⟩⟩
  cases p <;> first | exact b.same _ hp | exact absurd h hp

theorem Moves.free_with {ps : List Part} {s x : State} {v}
    (h : Part.free ∈ ps)
    (b : Moves ps s x)
    : Moves ps s { x with
      free := v } := by
  refine ⟨⟨fun p hp => ?_⟩, fun h => ⟨(b.keeps h).mem, (b.keeps h).regs, (b.keeps h).cnt, (b.keeps h).shadow, (b.keeps h).clk⟩⟩
  cases p <;> first | exact b.same _ hp | exact absurd h hp

theorem Moves.aud_cas_with {ps : List Part} {s x : State} {v0} {v1}
    (h0 : Part.aud ∈ ps) (h1 : Part.cas ∈ ps)
    (b : Moves ps s x)
    : Moves ps s { x with
      aud := v0
      cas := v1 } := by
  refine ⟨⟨fun p hp => ?_⟩, fun h => ⟨(b.keeps h).mem, (b.keeps h).regs, (b.keeps h).cnt, (b.keeps h).shadow, (b.keeps h).clk⟩⟩
  cases p <;> first | exact b.same _ hp | exact absurd h0 hp | exact absurd h1 hp

theorem Moves.aud_src_cas_with {ps : List Part} {s x : State} {v0} {v1} {v2}
    (h0 : Part.aud ∈ ps) (h1 : Part.src ∈ ps) (h2 : Part.cas ∈ ps)
    (b : Moves ps s x)
    : Moves ps s { x with
      aud := v0
      src := v1
      cas := v2 } := by
  refine ⟨⟨fun p hp => ?_⟩, fun h => ⟨(b.keeps h).mem, (b.keeps h).regs, (b.keeps h).cnt, (b.keeps h).shadow, (b.keeps h).clk⟩⟩
  cases p <;> first | exact b.same _ hp | exact absurd h0 hp | exact absurd h1 hp | exact absurd h2 hp

theorem Moves.cas_out_with {ps : List Part} {s x : State} {v0} {v1}
    (h0 : Part.cas ∈ ps) (h1 : Part.out ∈ ps)
    (b : Moves ps s x)
    : Moves ps s { x with
      cas := v0
      out := v1 } := by
  refine ⟨⟨fun p hp => ?_⟩, fun h => ⟨(b.keeps h).mem, (b.keeps h).regs, (b.keeps h).cnt, (b.keeps h).shadow, (b.keeps h).clk⟩⟩
  cases p <;> first | exact b.same _ hp | exact absurd h0 hp | exact absurd h1 hp

theorem Moves.clk_ctl_with {ps : List Part} {s x : State} {v0} {v1}
    (h0 : Part.clk ∈ ps) (h1 : Part.ctl ∈ ps)
    (b : Moves ps s x)
    (kclk : Sound x → clkOk v0 := by
      first
      | exact fun h => ⟨h.clk.1, h.clk.2.1, h.clk.2.2.1, h.clk.2.2.2⟩
      | exact fun h => ⟨h.clk.1, h.clk.2.1, Nat.mod_lt _ (by decide), h.clk.2.2.2⟩
      | exact fun h => ⟨h.clk.1, h.clk.2.1, h.clk.2.2.1, Nat.mod_lt _ (by decide)⟩
      | exact fun h => ⟨Nat.mod_lt _ (by decide), Nat.succ_pos 23, h.clk.2.2⟩)
    : Moves ps s { x with
      clk := v0
      ctl := v1 } := by
  refine ⟨⟨fun p hp => ?_⟩, fun h => ⟨(b.keeps h).mem, (b.keeps h).regs, (b.keeps h).cnt, (b.keeps h).shadow, kclk (b.keeps h)⟩⟩
  cases p <;> first | exact b.same _ hp | exact absurd h0 hp | exact absurd h1 hp

theorem Moves.clk_hif_with {ps : List Part} {s x : State} {v0} {v1}
    (h0 : Part.clk ∈ ps) (h1 : Part.hif ∈ ps)
    (b : Moves ps s x)
    (kclk : Sound x → clkOk v0 := by
      first
      | exact fun h => ⟨h.clk.1, h.clk.2.1, h.clk.2.2.1, h.clk.2.2.2⟩
      | exact fun h => ⟨h.clk.1, h.clk.2.1, Nat.mod_lt _ (by decide), h.clk.2.2.2⟩
      | exact fun h => ⟨h.clk.1, h.clk.2.1, h.clk.2.2.1, Nat.mod_lt _ (by decide)⟩
      | exact fun h => ⟨Nat.mod_lt _ (by decide), Nat.succ_pos 23, h.clk.2.2⟩)
    : Moves ps s { x with
      clk := v0
      hif := v1 } := by
  refine ⟨⟨fun p hp => ?_⟩, fun h => ⟨(b.keeps h).mem, (b.keeps h).regs, (b.keeps h).cnt, (b.keeps h).shadow, kclk (b.keeps h)⟩⟩
  cases p <;> first | exact b.same _ hp | exact absurd h0 hp | exact absurd h1 hp

theorem Moves.ctl_aud_egr_fwd_vid_with {ps : List Part} {s x : State} {v0} {v1} {v2} {v3} {v4}
    (h0 : Part.ctl ∈ ps) (h1 : Part.aud ∈ ps) (h2 : Part.egr ∈ ps) (h3 : Part.fwd ∈ ps) (h4 : Part.vid ∈ ps)
    (b : Moves ps s x)
    : Moves ps s { x with
      ctl := v0
      aud := v1
      egr := v2
      fwd := v3
      vid := v4 } := by
  refine ⟨⟨fun p hp => ?_⟩, fun h => ⟨(b.keeps h).mem, (b.keeps h).regs, (b.keeps h).cnt, (b.keeps h).shadow, (b.keeps h).clk⟩⟩
  cases p <;> first | exact b.same _ hp | exact absurd h0 hp | exact absurd h1 hp | exact absurd h2 hp | exact absurd h3 hp | exact absurd h4 hp

theorem Moves.ctl_egr_fwd_with {ps : List Part} {s x : State} {v0} {v1} {v2}
    (h0 : Part.ctl ∈ ps) (h1 : Part.egr ∈ ps) (h2 : Part.fwd ∈ ps)
    (b : Moves ps s x)
    : Moves ps s { x with
      ctl := v0
      egr := v1
      fwd := v2 } := by
  refine ⟨⟨fun p hp => ?_⟩, fun h => ⟨(b.keeps h).mem, (b.keeps h).regs, (b.keeps h).cnt, (b.keeps h).shadow, (b.keeps h).clk⟩⟩
  cases p <;> first | exact b.same _ hp | exact absurd h0 hp | exact absurd h1 hp | exact absurd h2 hp

theorem Moves.ctl_fwd_with {ps : List Part} {s x : State} {v0} {v1}
    (h0 : Part.ctl ∈ ps) (h1 : Part.fwd ∈ ps)
    (b : Moves ps s x)
    : Moves ps s { x with
      ctl := v0
      fwd := v1 } := by
  refine ⟨⟨fun p hp => ?_⟩, fun h => ⟨(b.keeps h).mem, (b.keeps h).regs, (b.keeps h).cnt, (b.keeps h).shadow, (b.keeps h).clk⟩⟩
  cases p <;> first | exact b.same _ hp | exact absurd h0 hp | exact absurd h1 hp

theorem Moves.egr_out_with {ps : List Part} {s x : State} {v0} {v1}
    (h0 : Part.egr ∈ ps) (h1 : Part.out ∈ ps)
    (b : Moves ps s x)
    : Moves ps s { x with
      egr := v0
      out := v1 } := by
  refine ⟨⟨fun p hp => ?_⟩, fun h => ⟨(b.keeps h).mem, (b.keeps h).regs, (b.keeps h).cnt, (b.keeps h).shadow, (b.keeps h).clk⟩⟩
  cases p <;> first | exact b.same _ hp | exact absurd h0 hp | exact absurd h1 hp

theorem Moves.flt_pwr_with {ps : List Part} {s x : State} {v0} {v1}
    (h0 : Part.flt ∈ ps) (h1 : Part.pwr ∈ ps)
    (b : Moves ps s x)
    : Moves ps s { x with
      flt := v0
      pwr := v1 } := by
  refine ⟨⟨fun p hp => ?_⟩, fun h => ⟨(b.keeps h).mem, (b.keeps h).regs, (b.keeps h).cnt, (b.keeps h).shadow, (b.keeps h).clk⟩⟩
  cases p <;> first | exact b.same _ hp | exact absurd h0 hp | exact absurd h1 hp

theorem Moves.frm_key_with {ps : List Part} {s x : State} {v0} {v1}
    (h0 : Part.frm ∈ ps) (h1 : Part.key ∈ ps)
    (b : Moves ps s x)
    : Moves ps s { x with
      frm := v0
      key := v1 } := by
  refine ⟨⟨fun p hp => ?_⟩, fun h => ⟨(b.keeps h).mem, (b.keeps h).regs, (b.keeps h).cnt, (b.keeps h).shadow, (b.keeps h).clk⟩⟩
  cases p <;> first | exact b.same _ hp | exact absurd h0 hp | exact absurd h1 hp

theorem Moves.hif_obs_with {ps : List Part} {s x : State} {v0} {v1}
    (h0 : Part.hif ∈ ps) (h1 : Part.obs ∈ ps)
    (b : Moves ps s x)
    : Moves ps s { x with
      hif := v0
      obs := v1 } := by
  refine ⟨⟨fun p hp => ?_⟩, fun h => ⟨(b.keeps h).mem, (b.keeps h).regs, (b.keeps h).cnt, (b.keeps h).shadow, (b.keeps h).clk⟩⟩
  cases p <;> first | exact b.same _ hp | exact absurd h0 hp | exact absurd h1 hp

theorem Moves.mem_ddr_with {ps : List Part} {s x : State} {v0} {v1}
    (h0 : Part.mem ∈ ps) (h1 : Part.ddr ∈ ps)
    (b : Moves ps s x)
    (kmem : Sound x → memOk v0 := by
      first
      | exact fun h => ⟨h.mem.1, h.mem.2.1, h.mem.2.2.1, h.mem.2.2.2⟩
      | exact fun h => memOk_host _ _ h.mem
      | exact fun h => memOk_dram _ _ h.mem
      | exact fun h => memOk_dramRun _ _ h.mem
      | exact fun h => memOk_ledger _ _ h.mem
      | exact fun h => memOk_spi _ _ h.mem
      | exact fun h => memOk_filter _ h.mem)
    : Moves ps s { x with
      mem := v0
      ddr := v1 } := by
  refine ⟨⟨fun p hp => ?_⟩, fun h => ⟨kmem (b.keeps h), (b.keeps h).regs, (b.keeps h).cnt, (b.keeps h).shadow, (b.keeps h).clk⟩⟩
  cases p <;> first | exact b.same _ hp | exact absurd h0 hp | exact absurd h1 hp

theorem Moves.vid_crsl_with {ps : List Part} {s x : State} {v0} {v1}
    (h0 : Part.vid ∈ ps) (h1 : Part.crsl ∈ ps)
    (b : Moves ps s x)
    : Moves ps s { x with
      vid := v0
      crsl := v1 } := by
  refine ⟨⟨fun p hp => ?_⟩, fun h => ⟨(b.keeps h).mem, (b.keeps h).regs, (b.keeps h).cnt, (b.keeps h).shadow, (b.keeps h).clk⟩⟩
  cases p <;> first | exact b.same _ hp | exact absurd h0 hp | exact absurd h1 hp

theorem Moves.mk_snd {α : Type} {ps : List Part} {s t : State} {a : α} (h : Moves ps s t) : Moves ps s (a, t).2 := h

theorem Moves.mk_fst {α : Type} {ps : List Part} {s t : State} {a : α} (h : Moves ps s t) : Moves ps s (t, a).1 := h

theorem Moves.ite_fst {α : Type} {c : Prop} [Decidable c] {ps : List Part} {s : State} {x y : State × α} (h : Moves ps s x.1)
    (k : Moves ps s y.1) : Moves ps s (if c then x else y).1 := by split <;> assumption

theorem Moves.ite_snd {α : Type} {c : Prop} [Decidable c] {ps : List Part} {s : State} {x y : α × State} (h : Moves ps s x.2)
    (k : Moves ps s y.2) : Moves ps s (if c then x else y).2 := by split <;> assumption

theorem Runs.ite {c : Prop} [Decidable c] {ps : List Part} {s : State} {x y : Host.Outcome State Fault Refusal} (h : Runs ps s x)
    (k : Runs ps s y) : Runs ps s (if c then x else y) := by split <;> assumption

theorem Runs.seq {ps qs : List Part} {s x : State} {o : Host.Outcome State Fault Refusal} (h : Runs qs x o)
    (k : ∀ p ∈ qs, p ∈ ps) (b : Moves ps s x) : Runs ps s o := by
  obtain ⟨t, e, c⟩ := h
  exact ⟨t, e, b.trans (c.mono k)⟩

/-- The state of a pair that an operation answers. -/
theorem Moves.of_snd {α : Type} {ps : List Part} {s t : State} {a : α} {p : α × State} (e : p = (a, t)) (h : Moves ps s p.2) :
    Moves ps s t := by subst e; exact h

theorem Moves.of_fst {α : Type} {ps : List Part} {s t : State} {a : α} {p : State × α} (e : p = (t, a)) (h : Moves ps s p.1) :
    Moves ps s t := by subst e; exact h

end Sys2Proof.Machine
end

