-- ==== Sys2Proof/Laws/ChMem.lean ====
section
/-! SUPPORT. What each operation of Machine/Mem.lean may change: one lemma for each, which says every part of State that it
can alter, and that it keeps the invariant. -/

set_option Elab.async false

namespace Sys2Proof.Machine

theorem hostWrite_moves (a0 a1 s) : Moves [.mem] s (hostWrite a0 a1 s) := by
  unfold hostWrite
  refine Moves.mem_with (by decide) ?_
  exact Moves.refl _ _

theorem linesWritten_moves (a0 a1 s) : Moves [.mem, .ddr] s (linesWritten a0 a1 s) := by
  unfold linesWritten
  extract_lets v0 v1 v2 v3 v4 v5
  have h200 : Moves [.mem, .ddr] s v4 := by
    refine Moves.mem_with (by decide) ?_
    exact Moves.refl _ _
  refine Moves.ite ?_ ?_
  · exact h200
  · refine Moves.ddr_with (by decide) ?_
    exact h200

theorem dramWrite_moves (a0 a1 s) : Moves [.mem, .ddr] s (dramWrite a0 a1 s) := by
  unfold dramWrite
  refine Moves.seq (linesWritten_moves ..) (by decide) ?_
  refine Moves.mem_with (by decide) ?_
  exact Moves.refl _ _

theorem dramWriteRun_moves (a0 a1 s) : Moves [.mem, .ddr] s (dramWriteRun a0 a1 s) := by
  unfold dramWriteRun
  refine Moves.seq (linesWritten_moves ..) (by decide) ?_
  refine Moves.mem_with (by decide) ?_
  exact Moves.refl _ _

theorem ledgerWrite_moves (a0 a1 s) : Moves [.mem] s (ledgerWrite a0 a1 s) := by
  unfold ledgerWrite
  refine Moves.mem_with (by decide) ?_
  exact Moves.refl _ _

theorem spiWrite_moves (a0 a1 s) : Moves [.mem] s (spiWrite a0 a1 s) := by
  unfold spiWrite
  refine Moves.mem_with (by decide) ?_
  exact Moves.refl _ _

end Sys2Proof.Machine
end

