-- ==== Sys2Proof/Laws/ChOps.lean ====
section
/-! SUPPORT. What each operation of Machine/Ops.lean may change: one lemma for each, which says every part of State that it
can alter, and that it keeps the invariant. -/

set_option Elab.async false

namespace Sys2Proof.Machine

theorem fset_moves (a0 a1 s) : Moves [.regs] s (fset a0 a1 s) := by
  unfold fset
  refine Moves.regs_with (by decide) ?_
  exact Moves.refl _ _

theorem freset_moves (a0 s) : Moves [.regs] s (freset a0 s) := by
  unfold freset
  refine Moves.seq (fset_moves ..) (by decide) ?_
  exact Moves.refl _ _

theorem resetRange_moves (a0 a1 s) : Moves [.regs] s (resetRange a0 a1 s) := by
  unfold resetRange
  refine Moves.regs_with (by decide) ?_
  exact Moves.refl _ _

theorem cadd_moves (a0 a1 s) : Moves [.cnt] s (cadd a0 a1 s) := by
  unfold cadd
  refine Moves.cnt_with (by decide) ?_ (fun h => cntOk_tset h.cnt ?_)
  · exact Moves.refl _ _
  · unfold cntMax
    omega

theorem cinc_moves (a0 s) : Moves [.cnt] s (cinc a0 s) := by
  unfold cinc
  refine Moves.seq (cadd_moves ..) (by decide) ?_
  exact Moves.refl _ _

theorem takeFree_moves (s) : Moves [.free] s (takeFree s).2 := by
  unfold takeFree
  refine Moves.mk_snd ?_
  refine Moves.free_with (by decide) ?_
  exact Moves.refl _ _

theorem rateOk_moves (a0 a1 s) : Moves [.hif] s (rateOk a0 a1 s).2 := by
  unfold rateOk
  split
  · refine Moves.ite_snd ?_ ?_
    · refine Moves.mk_snd ?_
      exact Moves.refl _ _
    · refine Moves.mk_snd ?_
      refine Moves.hif_with (by decide) ?_
      exact Moves.refl _ _
  · refine Moves.mk_snd ?_
    refine Moves.hif_with (by decide) ?_
    exact Moves.refl _ _

theorem signal_moves (a0 a1 s) : Moves [.hif, .out] s (signal a0 a1 s) := by
  unfold signal
  extract_lets v0 v1
  refine Moves.ite ?_ ?_
  · refine Moves.hif_with (by decide) ?_
    exact Moves.refl _ _
  · refine Moves.out_with (by decide) ?_
    exact Moves.refl _ _

theorem evqPut_moves (a0 a1 s) : Moves [.regs, .hif] s (evqPut a0 a1 s) := by
  unfold evqPut
  refine Moves.seq (fset_moves ..) (by decide) ?_
  refine Moves.hif_with (by decide) ?_
  exact Moves.refl _ _

theorem evqLose_moves (a0 a1 s) : Moves [.regs, .cnt, .hif] s (evqLose a0 a1 s) := by
  unfold evqLose
  refine Moves.seq (fset_moves ..) (by decide) ?_
  refine Moves.seq (cadd_moves ..) (by decide) ?_
  refine Moves.seq (evqPut_moves ..) (by decide) ?_
  exact Moves.refl _ _

theorem evqResize_moves (a0 s) : Moves [.regs, .cnt, .hif] s (evqResize a0 s) := by
  unfold evqResize
  extract_lets v0
  split
  · exact Moves.refl _ _
  · refine Moves.ite ?_ ?_
    · extract_lets v200 v201 v202
      have h400 : Moves [.regs, .cnt, .hif] s v202 := by
        refine Moves.seq (evqPut_moves ..) (by decide) ?_
        exact Moves.refl _ _
      refine Moves.ite ?_ ?_
      · exact h400
      · refine Moves.seq (evqLose_moves ..) (by decide) ?_
        exact h400
    · exact Moves.refl _ _

theorem evqStage_moves (a0 a1 s) : Moves [.regs, .cnt, .hif] s (evqStage a0 a1 s) := by
  unfold evqStage
  extract_lets v0
  refine Moves.ite ?_ ?_
  · exact Moves.refl _ _
  · refine Moves.seq (evqResize_moves ..) (by decide) ?_
    refine Moves.seq (evqPut_moves ..) (by decide) ?_
    exact Moves.refl _ _

theorem evqPush_moves (a0 a1 s) : Moves [.regs, .cnt, .hif, .out] s (evqPush a0 a1 s) := by
  unfold evqPush
  extract_lets v0 v1 v2 v3 v4 v5
  have h200 : Moves [.regs, .cnt, .hif, .out] s v4 := by
    refine Moves.seq (evqPut_moves ..) (by decide) ?_
    exact Moves.refl _ _
  have h201 : Moves [.regs, .cnt, .hif, .out] s v5 := by
    refine Moves.seq (evqResize_moves ..) (by decide) ?_
    exact h200
  refine Moves.ite ?_ ?_
  · refine Moves.seq (evqLose_moves ..) (by decide) ?_
    exact Moves.refl _ _
  · refine Moves.ite ?_ ?_
    · refine Moves.seq (signal_moves ..) (by decide) ?_
      exact h201
    · exact h201

theorem pushPf_moves (a0 s) : Moves [.regs, .cnt, .hif, .out] s (pushPf a0 s) := by
  unfold pushPf
  refine Moves.seq (evqPush_moves ..) (by decide) ?_
  exact Moves.refl _ _

theorem traceAdd_moves (a0 a1 s) : Moves [.mem, .regs, .cnt, .hif, .ddr, .out] s (traceAdd a0 a1 s) := by
  unfold traceAdd
  refine Moves.ite ?_ ?_
  · exact Moves.refl _ _
  · extract_lets v0 v1 v2 v3 v4 v5
    have h200 : Moves [.mem, .regs, .cnt, .hif, .ddr, .out] s v3 := by
      refine Moves.seq (dramWrite_moves ..) (by decide) ?_
      exact Moves.refl _ _
    have h201 : Moves [.mem, .regs, .cnt, .hif, .ddr, .out] s v4 := by
      refine Moves.seq (cinc_moves ..) (by decide) ?_
      refine Moves.seq (fset_moves ..) (by decide) ?_
      exact h200
    have h202 : Moves [.mem, .regs, .cnt, .hif, .ddr, .out] s v5 := by
      refine Moves.seq (cinc_moves ..) (by decide) ?_
      exact h201
    refine Moves.ite ?_ ?_
    · refine Moves.seq (cinc_moves ..) (by decide) ?_
      exact Moves.refl _ _
    · refine Moves.ite ?_ ?_
      · refine Moves.ite ?_ ?_
        · refine Moves.seq (pushPf_moves ..) (by decide) ?_
          exact h202
        · exact h202
      · exact h201

theorem raise_moves (a0 s) : Moves [.mem, .regs, .cnt, .hif, .ddr, .out] s (raise a0 s) := by
  unfold raise
  extract_lets v0 v1
  have h200 : Moves [.mem, .regs, .cnt, .hif, .ddr, .out] s v0 := by
    refine Moves.ite ?_ ?_
    · refine Moves.seq (traceAdd_moves ..) (by decide) ?_
      exact Moves.refl _ _
    · exact Moves.refl _ _
  have h201 : Moves [.mem, .regs, .cnt, .hif, .ddr, .out] s v1 := by
    unfold v1
    split
    · exact h200
    · refine Moves.ite ?_ ?_
      · exact h200
      · refine Moves.seq (evqPush_moves ..) (by decide) ?_
        exact h200
  refine Moves.seq (pushPf_moves ..) (by decide) ?_
  exact h201

theorem raisePf_moves (a0 s) : Moves [.mem, .regs, .cnt, .hif, .ddr, .out] s (raisePf a0 s) := by
  unfold raisePf
  extract_lets v0
  have h200 : Moves [.mem, .regs, .cnt, .hif, .ddr, .out] s v0 := by
    refine Moves.ite ?_ ?_
    · refine Moves.seq (traceAdd_moves ..) (by decide) ?_
      exact Moves.refl _ _
    · exact Moves.refl _ _
  refine Moves.seq (pushPf_moves ..) (by decide) ?_
  exact h200

theorem raiseIssuer_moves (a0 a1 s) : Moves [.mem, .regs, .cnt, .hif, .ddr, .out] s (raiseIssuer a0 a1 s) := by
  unfold raiseIssuer
  extract_lets v0
  have h200 : Moves [.mem, .regs, .cnt, .hif, .ddr, .out] s v0 := by
    refine Moves.ite ?_ ?_
    · refine Moves.seq (traceAdd_moves ..) (by decide) ?_
      exact Moves.refl _ _
    · exact Moves.refl _ _
  split
  · refine Moves.seq (pushPf_moves ..) (by decide) ?_
    exact h200
  · refine Moves.seq (evqPush_moves ..) (by decide) ?_
    exact h200

theorem raiseUnit_moves (a0 a1 a2 s) : Moves [.mem, .regs, .cnt, .hif, .ddr, .out] s (raiseUnit a0 a1 a2 s) := by
  unfold raiseUnit
  refine Moves.seq (raise_moves ..) (by decide) ?_
  exact Moves.refl _ _

theorem raiseObj_moves (a0 a1 a2 a3 a4 s) : Moves [.mem, .regs, .cnt, .hif, .ddr, .out] s (raiseObj a0 a1 a2 a3 a4 s) := by
  unfold raiseObj
  refine Moves.seq (raise_moves ..) (by decide) ?_
  exact Moves.refl _ _

theorem capNote_moves (a0 a1 s) : Moves [.obs] s (capNote a0 a1 s) := by
  unfold capNote
  refine Moves.ite ?_ ?_
  · exact Moves.refl _ _
  · refine Moves.obs_with (by decide) ?_
    exact Moves.refl _ _

theorem repPut_moves (a0 a1 s) : Moves [.obs] s (repPut a0 a1 s) := by
  unfold repPut
  refine Moves.obs_with (by decide) ?_
  exact Moves.refl _ _

theorem configNote_moves (a0 s) : Moves [.obs] s (configNote a0 s) := by
  unfold configNote
  extract_lets v0 v1 v2 v3
  have h200 : Moves [.obs] s v2 := by
    refine Moves.obs_with (by decide) ?_
    exact Moves.refl _ _
  refine Moves.obs_with (by decide) ?_
  exact h200

theorem traceConfig_moves (a0 a1 a2 a3 a4 a5 s) : Moves [.mem, .regs, .cnt, .hif, .obs, .ddr, .out] s (traceConfig a0 a1 a2 a3 a4 a5 s) := by
  unfold traceConfig
  extract_lets v0
  refine Moves.seq (traceAdd_moves ..) (by decide) ?_
  refine Moves.ite ?_ ?_
  · exact Moves.refl _ _
  · refine Moves.seq (configNote_moves ..) (by decide) ?_
    exact Moves.refl _ _

theorem idle_moves (s) : Moves [.clk] s (idle s) := by
  unfold idle
  split
  · rename_i h
    exact Moves.clk_with (by decide) (Moves.refl _ _) fun k => ⟨k.clk.1, Nat.succ_lt_succ h, k.clk.2.2⟩
  · exact Moves.refl _ _

end Sys2Proof.Machine
end

