-- ==== Sys2Proof/Laws/ChHostOps.lean ====
section
/-! SUPPORT. What each operation of Machine/HostOps.lean may change: one lemma for each, which says every part of State that it
can alter, and that it keeps the invariant. -/

set_option Elab.async false

namespace Sys2Proof.Machine

theorem haltSq_moves (a0 a1 s) : Moves [.mem, .regs, .cnt, .hif, .ddr, .out] s (haltSq a0 a1 s) := by
  unfold haltSq
  extract_lets v0 v1 v2
  have h200 : Moves [.mem, .regs, .cnt, .hif, .ddr, .out] s v0 := by
    refine Moves.seq (fset_moves ..) (by decide) ?_
    refine Moves.seq (fset_moves ..) (by decide) ?_
    refine Moves.seq (fset_moves ..) (by decide) ?_
    exact Moves.refl _ _
  have h201 : Moves [.mem, .regs, .cnt, .hif, .ddr, .out] s v1 := by
    refine Moves.seq (cinc_moves ..) (by decide) ?_
    exact h200
  have h202 : Moves [.mem, .regs, .cnt, .hif, .ddr, .out] s v2 := by
    refine Moves.seq (raise_moves ..) (by decide) ?_
    exact h201
  refine Moves.seq (signal_moves ..) (by decide) ?_
  exact h202

theorem haltCq_moves (a0 s) : Moves [.mem, .regs, .cnt, .hif, .ddr, .out] s (haltCq a0 s) := by
  unfold haltCq
  extract_lets v0 v1 v2
  have h200 : Moves [.mem, .regs, .cnt, .hif, .ddr, .out] s v0 := by
    refine Moves.seq (fset_moves ..) (by decide) ?_
    refine Moves.seq (fset_moves ..) (by decide) ?_
    exact Moves.refl _ _
  have h201 : Moves [.mem, .regs, .cnt, .hif, .ddr, .out] s v1 := by
    refine Moves.seq (cinc_moves ..) (by decide) ?_
    exact h200
  have h202 : Moves [.mem, .regs, .cnt, .hif, .ddr, .out] s v2 := by
    refine Moves.seq (raise_moves ..) (by decide) ?_
    exact h201
  refine Moves.seq (signal_moves ..) (by decide) ?_
  exact h202

theorem cqWrite_moves (a0 a1 s) : Moves [.mem, .regs, .cnt, .hif, .out] s (cqWrite a0 a1 s) := by
  unfold cqWrite
  extract_lets v0 v1 v2 v3 v4 v5 v6 v7 v8 v9 v10 v11 v12
  have h200 : Moves [.mem, .regs, .cnt, .hif, .out] s v4 := by
    refine Moves.seq (hostWrite_moves ..) (by decide) ?_
    exact Moves.refl _ _
  have h201 : Moves [.mem, .regs, .cnt, .hif, .out] s v6 := by
    unfold v6
    split
    · exact h200
    · refine Moves.hif_with (by decide) ?_
      exact h200
  have h202 : Moves [.mem, .regs, .cnt, .hif, .out] s v8 := by
    refine Moves.ite ?_ ?_
    · refine Moves.hif_with (by decide) ?_
      exact h201
    · exact h201
  have h203 : Moves [.mem, .regs, .cnt, .hif, .out] s v10 := by
    refine Moves.seq (fset_moves ..) (by decide) ?_
    exact h202
  have h204 : Moves [.mem, .regs, .cnt, .hif, .out] s v11 := by
    refine Moves.ite ?_ ?_
    · refine Moves.seq (fset_moves ..) (by decide) ?_
      exact h203
    · exact h203
  have h205 : Moves [.mem, .regs, .cnt, .hif, .out] s v12 := by
    refine Moves.seq (fset_moves ..) (by decide) ?_
    refine Moves.seq (cinc_moves ..) (by decide) ?_
    exact h204
  refine Moves.ite ?_ ?_
  · refine Moves.seq (signal_moves ..) (by decide) ?_
    exact h205
  · exact h205

theorem cqFlushList_moves (fn l s) : Moves [.mem, .regs, .cnt, .hif, .ddr, .out] s (cqFlushList fn l s) := by
  induction l generalizing s with
  | nil => exact Moves.hif_with (by decide) (Moves.refl _ _)
  | cons p r ih =>
    unfold cqFlushList
    refine Moves.ite (Moves.hif_with (by decide) (Moves.refl _ _)) (Moves.ite ?_ ?_)
    · exact Moves.trans (Moves.seq (cqWrite_moves ..) (by decide) (Moves.refl _ _)) (ih _)
    · exact Moves.seq (haltCq_moves ..) (by decide) (Moves.hif_with (by decide) (Moves.refl _ _))

theorem cqFlush_moves (a0 s) : Moves [.mem, .regs, .cnt, .hif, .ddr, .out] s (cqFlush a0 s) := by
  unfold cqFlush
  refine Moves.seq (cqFlushList_moves ..) (by decide) ?_
  exact Moves.refl _ _

theorem post_moves (a0 a1 s) : Moves [.mem, .regs, .cnt, .hif, .ddr, .out] s (post a0 a1 s) := by
  unfold post
  extract_lets v0 v1 v2
  have h200 : Moves [.mem, .regs, .cnt, .hif, .ddr, .out] s v1 := by
    refine Moves.hif_with (by decide) ?_
    exact Moves.refl _ _
  refine Moves.ite ?_ ?_
  · refine Moves.seq (cqFlush_moves ..) (by decide) ?_
    refine Moves.hif_with (by decide) ?_
    exact h200
  · exact h200

theorem countForeign_moves (a0 a1 s) : Moves [.cnt] s (countForeign a0 a1 s) := by
  unfold countForeign
  split
  · exact Moves.refl _ _
  · refine Moves.ite ?_ ?_
    · refine Moves.seq (cinc_moves ..) (by decide) ?_
      exact Moves.refl _ _
    · exact Moves.refl _ _

theorem flightEnd_moves (a0 a1 s) : Moves [.mem, .regs, .cnt, .hif, .ddr, .out] s (flightEnd a0 a1 s) := by
  unfold flightEnd
  extract_lets v0 v1
  have h200 : Moves [.mem, .regs, .cnt, .hif, .ddr, .out] s v0 := by
    refine Moves.seq (countForeign_moves ..) (by decide) ?_
    exact Moves.refl _ _
  refine Moves.ite ?_ ?_
  · refine Moves.seq (raisePf_moves ..) (by decide) ?_
    exact h200
  · refine Moves.seq (post_moves ..) (by decide) ?_
    exact h200

theorem queryEnd_moves (a0 a1 a2 a3 s) : Moves [.mem, .regs, .cnt, .hif, .ddr, .out] s (queryEnd a0 a1 a2 a3 s) := by
  unfold queryEnd
  extract_lets v0
  have h200 : Moves [.mem, .regs, .cnt, .hif, .ddr, .out] s v0 := by
    refine Moves.seq (countForeign_moves ..) (by decide) ?_
    exact Moves.refl _ _
  refine Moves.seq (post_moves ..) (by decide) ?_
  exact h200

theorem lopSync_moves (a0 s) : Moves [.regs] s (lopSync a0 s) := by
  unfold lopSync
  refine Moves.seq (fset_moves ..) (by decide) ?_
  exact Moves.refl _ _

theorem lopEvent_moves (a0 s) : Moves [.mem, .regs, .cnt, .hif, .ddr, .out] s (lopEvent a0 s) := by
  unfold lopEvent
  extract_lets v0
  refine Moves.ite ?_ ?_
  · refine Moves.seq (raisePf_moves ..) (by decide) ?_
    exact Moves.refl _ _
  · refine Moves.seq (raise_moves ..) (by decide) ?_
    exact Moves.refl _ _

theorem lopPut_moves (a0 s) : Moves [.hif] s (lopPut a0 s) := by
  unfold lopPut
  refine Moves.hif_with (by decide) ?_
  exact Moves.refl _ _

theorem lopMove_moves (a0 a1 a2 s) : Moves [.mem, .regs, .cnt, .hif, .ddr, .out] s (lopMove a0 a1 a2 s) := by
  unfold lopMove
  split
  · exact Moves.refl _ _
  · extract_lets v0 v1
    have h200 : Moves [.mem, .regs, .cnt, .hif, .ddr, .out] s v1 := by
      refine Moves.seq (lopPut_moves ..) (by decide) ?_
      exact Moves.refl _ _
    refine Moves.ite ?_ ?_
    · refine Moves.seq (lopEvent_moves ..) (by decide) ?_
      exact h200
    · exact h200

theorem lopEnd_moves (a0 a1 a2 a3 a4 a5 a6 a7 a8 s) : Moves [.mem, .regs, .cnt, .hif, .ddr, .out] s (lopEnd a0 a1 a2 a3 a4 a5 a6 a7 a8 s) := by
  unfold lopEnd
  split
  · exact Moves.refl _ _
  · extract_lets v0 v1 v2 v3 v4
    have h200 : Moves [.mem, .regs, .cnt, .hif, .ddr, .out] s v1 := by
      refine Moves.seq (lopPut_moves ..) (by decide) ?_
      exact Moves.refl _ _
    have h201 : Moves [.mem, .regs, .cnt, .hif, .ddr, .out] s v2 := by
      refine Moves.ite ?_ ?_
      · exact h200
      · refine Moves.seq (post_moves ..) (by decide) ?_
        exact h200
    have h202 : Moves [.mem, .regs, .cnt, .hif, .ddr, .out] s v3 := by
      refine Moves.seq (lopEvent_moves ..) (by decide) ?_
      exact h201
    refine Moves.seq (lopSync_moves ..) (by decide) ?_
    refine Moves.ite ?_ ?_
    · refine Moves.hif_with (by decide) ?_
      exact h202
    · exact h202

theorem lopStart_moves (a0 a1 a2 s) : Moves [.mem, .regs, .cnt, .hif, .ddr, .out] s (lopStart a0 a1 a2 s) := by
  unfold lopStart
  refine Moves.ite ?_ ?_
  · refine Moves.seq (queryEnd_moves ..) (by decide) ?_
    exact Moves.refl _ _
  · extract_lets v0 v1
    refine Moves.seq (lopSync_moves ..) (by decide) ?_
    refine Moves.seq (lopPut_moves ..) (by decide) ?_
    refine Moves.hif_with (by decide) ?_
    exact Moves.refl _ _

theorem lopBegin_moves (a0 a1 s) : Moves [.hif] s (lopBegin a0 a1 s) := by
  unfold lopBegin
  split
  · exact Moves.refl _ _
  · refine Moves.ite ?_ ?_
    · refine Moves.seq (lopPut_moves ..) (by decide) ?_
      exact Moves.refl _ _
    · exact Moves.refl _ _

end Sys2Proof.Machine
end

