-- ==== Sys2Proof/Laws/ChFrm.lean ====
section
/-! SUPPORT. What each operation of Machine/Frm.lean may change: one lemma for each, which says every part of State that it
can alter, and that it keeps the invariant. -/

set_option Elab.async false

namespace Sys2Proof.Machine

theorem verifyOnly_moves (s) : Moves [.cnt] s (verifyOnly s) := by
  unfold verifyOnly
  refine Moves.seq (cinc_moves ..) (by decide) ?_
  exact Moves.refl _ _

theorem tagServed_moves (s) : Moves [.cnt] s (tagServed s) := by
  unfold tagServed
  refine Moves.seq (cinc_moves ..) (by decide) ?_
  exact Moves.refl _ _

theorem fetchRestart_moves (s) : Moves [.frm] s (fetchRestart s) := by
  unfold fetchRestart
  refine Moves.frm_with (by decide) ?_
  exact Moves.refl _ _

theorem passRestart_moves (a0 s) : Moves [.frm] s (passRestart a0 s) := by
  unfold passRestart
  refine Moves.ite ?_ ?_
  · exact Moves.refl _ _
  · refine Moves.frm_with (by decide) ?_
    exact Moves.refl _ _

theorem chargeUp_moves (a0 a1 a2 s) : Moves [.ctl] s (chargeUp a0 a1 a2 s) := by
  unfold chargeUp
  refine Moves.ite ?_ ?_
  · exact Moves.refl _ _
  · refine Moves.ctl_with (by decide) ?_
    exact Moves.refl _ _

theorem chargeDown_moves (a0 a1 a2 s) : Moves [.ctl] s (chargeDown a0 a1 a2 s) := by
  unfold chargeDown
  refine Moves.ite ?_ ?_
  · exact Moves.refl _ _
  · refine Moves.ctl_with (by decide) ?_
    exact Moves.refl _ _

theorem drainForget_moves (a0 a1 s) : Moves [.flt] s (drainForget a0 a1 s) := by
  unfold drainForget
  refine Moves.flt_with (by decide) ?_
  exact Moves.refl _ _

theorem determinismLostAt_moves (a0 a1 a2 s) : Moves [.mem, .regs, .cnt, .hif, .obs, .ddr, .out] s (determinismLostAt a0 a1 a2 s) := by
  unfold determinismLostAt
  split
  · exact Moves.refl _ _
  · extract_lets v0 v1 v2 v3 v4 v5 v6
    have h200 : Moves [.mem, .regs, .cnt, .hif, .obs, .ddr, .out] s v3 := by
      refine Moves.hif_with (by decide) ?_
      exact Moves.refl _ _
    have h201 : Moves [.mem, .regs, .cnt, .hif, .obs, .ddr, .out] s v5 := by
      refine Moves.seq (capNote_moves ..) (by decide) ?_
      exact h200
    have h202 : Moves [.mem, .regs, .cnt, .hif, .obs, .ddr, .out] s v6 := by
      unfold v6
      split
      · refine Moves.seq (repPut_moves ..) (by decide) ?_
        exact h201
      · exact h201
    refine Moves.ite ?_ ?_
    · exact h200
    · refine Moves.seq (raise_moves ..) (by decide) ?_
      refine Moves.seq (cinc_moves ..) (by decide) ?_
      refine Moves.seq (cinc_moves ..) (by decide) ?_
      exact h202

theorem determinismLost_moves (a0 a1 s) : Moves [.mem, .regs, .cnt, .hif, .obs, .ddr, .out] s (determinismLost a0 a1 s) := by
  unfold determinismLost
  refine Moves.seq (determinismLostAt_moves ..) (by decide) ?_
  exact Moves.refl _ _

theorem degraded_moves (a0 s) : Moves [.cnt, .ctl] s (degraded a0 s) := by
  unfold degraded
  split
  · exact Moves.refl _ _
  · refine Moves.ite ?_ ?_
    · exact Moves.refl _ _
    · refine Moves.seq (cinc_moves ..) (by decide) ?_
      refine Moves.seq (cinc_moves ..) (by decide) ?_
      refine Moves.ctl_with (by decide) ?_
      exact Moves.refl _ _

end Sys2Proof.Machine
end

