-- ==== Sys2Proof/Laws/ChKeyOps.lean ====
section
/-! SUPPORT. What each operation of Machine/KeyOps.lean may change: one lemma for each, which says every part of State that it
can alter, and that it keeps the invariant. -/

set_option Elab.async false

namespace Sys2Proof.Machine

theorem keySlotPut_moves (a0 a1 s) : Moves [.key] s (keySlotPut a0 a1 s) := by
  unfold keySlotPut
  refine Moves.key_with (by decide) ?_
  exact Moves.refl _ _

theorem keySync_moves (s) : Moves [.regs] s (keySync s) := by
  unfold keySync
  refine Moves.seq (fset_moves ..) (by decide) ?_
  exact Moves.refl _ _

theorem keyEmpty_moves (a0 s) : Moves [.regs, .key] s (keyEmpty a0 s) := by
  unfold keyEmpty
  refine Moves.seq (keySync_moves ..) (by decide) ?_
  refine Moves.seq (keySlotPut_moves ..) (by decide) ?_
  exact Moves.refl _ _

theorem keyUnref_moves (a0 s) : Moves [.ctl] s (keyUnref a0 s) := by
  unfold keyUnref
  refine Moves.ctl_with (by decide) ?_
  exact Moves.refl _ _

theorem keyStagePut_moves (a0 a1 s) : Moves [.key] s (keyStagePut a0 a1 s) := by
  unfold keyStagePut
  refine Moves.key_with (by decide) ?_
  exact Moves.refl _ _

theorem keyDiscard_moves (a0 s) : Moves [.regs, .key] s (keyDiscard a0 s) := by
  unfold keyDiscard
  refine Moves.seq (fset_moves ..) (by decide) ?_
  refine Moves.seq (keyStagePut_moves ..) (by decide) ?_
  exact Moves.refl _ _

theorem keyGo_moves (a0 a1 s) : Moves [.regs, .key] s (keyGo a0 a1 s) := by
  unfold keyGo
  refine Moves.ite ?_ ?_
  · refine Moves.seq (fset_moves ..) (by decide) ?_
    exact Moves.refl _ _
  · extract_lets v0 v1 v2 v3 v4 v5
    have h200 : Moves [.regs, .key] s v2 := by
      refine Moves.seq (keyDiscard_moves ..) (by decide) ?_
      exact Moves.refl _ _
    have h201 : Moves [.regs, .key] s v4 := by
      refine Moves.seq (keyStagePut_moves ..) (by decide) ?_
      exact h200
    refine Moves.ite ?_ ?_
    · exact h200
    · refine Moves.seq (fset_moves ..) (by decide) ?_
      refine Moves.key_with (by decide) ?_
      exact h201

theorem keyDone_moves (a0 a1 a2 s) : Moves [.regs, .cnt, .key] s (keyDone a0 a1 a2 s) := by
  unfold keyDone
  extract_lets v0 v1 v2 v3
  have h200 : Moves [.regs, .cnt, .key] s v1 := by
    refine Moves.seq (keyStagePut_moves ..) (by decide) ?_
    exact Moves.refl _ _
  have h201 : Moves [.regs, .cnt, .key] s v2 := by
    refine Moves.seq (fset_moves ..) (by decide) ?_
    refine Moves.seq (fset_moves ..) (by decide) ?_
    exact h200
  have h202 : Moves [.regs, .cnt, .key] s v3 := by
    refine Moves.seq (fset_moves ..) (by decide) ?_
    exact h201
  refine Moves.ite ?_ ?_
  · exact h202
  · refine Moves.seq (cinc_moves ..) (by decide) ?_
    exact h202

theorem keyComplete_moves (s) : Moves [.regs, .cnt, .key] s (keyComplete s) := by
  unfold keyComplete
  split
  · exact Moves.refl _ _
  · extract_lets v0 v1 v2
    have h200 : Moves [.regs, .cnt, .key] s v1 := by
      refine Moves.key_with (by decide) ?_
      exact Moves.refl _ _
    have h201 : Moves [.regs, .cnt, .key] s v2 := by
      refine Moves.seq (fset_moves ..) (by decide) ?_
      refine Moves.seq (fset_moves ..) (by decide) ?_
      exact h200
    split
    · exact h200
    · extract_lets v202 v203 v204 v205 v206 v207 v208 v209
      have h402 : Moves [.regs, .cnt, .key] s v208 := by
        refine Moves.seq (keySync_moves ..) (by decide) ?_
        refine Moves.seq (keySlotPut_moves ..) (by decide) ?_
        exact h201
      refine Moves.ite ?_ ?_
      · refine Moves.ite ?_ ?_
        · refine Moves.seq (keyDone_moves ..) (by decide) ?_
          refine Moves.seq (cinc_moves ..) (by decide) ?_
          exact h402
        · refine Moves.seq (keyDone_moves ..) (by decide) ?_
          exact h200
      · refine Moves.ite ?_ ?_
        · refine Moves.seq (keyDone_moves ..) (by decide) ?_
          refine Moves.ite ?_ ?_
          · refine Moves.seq (keyEmpty_moves ..) (by decide) ?_
            exact h200
          · exact h200
        · refine Moves.seq (keyDone_moves ..) (by decide) ?_
          exact h200

theorem zeroSlots_moves (a0 s) : Moves [.regs, .ctl, .key] s (zeroSlots a0 s) := by
  unfold zeroSlots
  extract_lets v0
  refine Moves.seq (keySync_moves ..) (by decide) ?_
  refine Moves.foldl (fun _ y200 => ?_) ?_
  · refine Moves.seq (keyUnref_moves ..) (by decide) ?_
    refine Moves.seq (keyEmpty_moves ..) (by decide) ?_
    exact Moves.refl _ _
  · exact Moves.refl _ _

theorem zeroStages_moves (a0 s) : Moves [.regs, .cnt, .key, .cas] s (zeroStages a0 s) := by
  unfold zeroStages
  extract_lets v0 v1
  have h200 : Moves [.regs, .cnt, .key, .cas] s v1 := by
    refine Moves.cas_with (by decide) ?_
    exact Moves.refl _ _
  refine Moves.foldl (fun _ y201 => ?_) ?_
  · extract_lets v202 v203
    have h402 : Moves [.regs, .cnt, .key, .cas] y201 v202 := by
      refine Moves.seq (keyDiscard_moves ..) (by decide) ?_
      exact Moves.refl _ _
    split
    · refine Moves.ite ?_ ?_
      · refine Moves.seq (keyDone_moves ..) (by decide) ?_
        refine Moves.key_with (by decide) ?_
        exact h402
      · exact h402
    · exact h402
  · exact h200

theorem kr1Put_moves (a0 s) : Moves [.regs, .key] s (kr1Put a0 s) := by
  unfold kr1Put
  refine Moves.seq (fset_moves ..) (by decide) ?_
  refine Moves.seq (fset_moves ..) (by decide) ?_
  refine Moves.key_with (by decide) ?_
  exact Moves.refl _ _

theorem zeroise_moves (a0 a1 s) : Moves [.mem, .regs, .cnt, .hif, .ctl, .key, .ddr, .cas, .out] s (zeroise a0 a1 s) := by
  unfold zeroise
  extract_lets v0 v1 v2 v3 v4 v5 v6 v7
  have h200 : Moves [.mem, .regs, .cnt, .hif, .ctl, .key, .ddr, .cas, .out] s v0 := by
    refine Moves.seq (zeroStages_moves ..) (by decide) ?_
    refine Moves.seq (zeroSlots_moves ..) (by decide) ?_
    exact Moves.refl _ _
  have h201 : Moves [.mem, .regs, .cnt, .hif, .ctl, .key, .ddr, .cas, .out] s v2 := by
    unfold v2
    split
    · refine Moves.seq (kr1Put_moves ..) (by decide) ?_
      refine Moves.key_with (by decide) ?_
      exact h200
    · exact h200
  have h202 : Moves [.mem, .regs, .cnt, .hif, .ctl, .key, .ddr, .cas, .out] s v3 := by
    refine Moves.seq (cinc_moves ..) (by decide) ?_
    refine Moves.seq (fset_moves ..) (by decide) ?_
    exact h201
  have h203 : Moves [.mem, .regs, .cnt, .hif, .ctl, .key, .ddr, .cas, .out] s v5 := by
    refine Moves.key_with (by decide) ?_
    exact h202
  have h204 : Moves [.mem, .regs, .cnt, .hif, .ctl, .key, .ddr, .cas, .out] s v7 := by
    refine Moves.seq (raise_moves ..) (by decide) ?_
    exact h203
  split
  · refine Moves.seq (raise_moves ..) (by decide) ?_
    refine Moves.seq (fset_moves ..) (by decide) ?_
    exact h203
  · refine Moves.foldl (fun _ y205 => ?_) ?_
    · refine Moves.ite ?_ ?_
      · refine Moves.seq (evqPush_moves ..) (by decide) ?_
        exact Moves.refl _ _
      · exact Moves.refl _ _
    · exact h204

end Sys2Proof.Machine
end

