-- ==== Sys2Proof/Laws/ChIngress.lean ====
section
/-! SUPPORT. What each operation of Machine/Ingress.lean may change: one lemma for each, which says every part of State that it
can alter, and that it keeps the invariant. -/

set_option Elab.async false

namespace Sys2Proof.Machine

theorem refillAll_moves (s) : Moves [.ctl] s (refillAll s) := by
  unfold refillAll
  refine Moves.ctl_with (by decide) ?_
  exact Moves.refl _ _

theorem policed_moves (a0 a1 a2 s) : Moves [.mem, .regs, .cnt, .hif, .ctl, .obs, .ddr, .out] s (policed a0 a1 a2 s) := by
  unfold policed
  extract_lets v0 v1
  have h200 : Moves [.mem, .regs, .cnt, .hif, .ctl, .obs, .ddr, .out] s v0 := by
    refine Moves.seq (determinismLost_moves ..) (by decide) ?_
    refine Moves.seq (cadd_moves ..) (by decide) ?_
    refine Moves.seq (cinc_moves ..) (by decide) ?_
    exact Moves.refl _ _
  split
  · rename_i x201 e202
    have h203 : Moves [.mem, .regs, .cnt, .hif, .ctl, .obs, .ddr, .out] s x201 := by
      refine Moves.of_snd e202 ?_
      refine Moves.seq (rateOk_moves ..) (by decide) ?_
      exact h200
    refine Moves.seq (raiseObj_moves ..) (by decide) ?_
    refine Moves.ctl_with (by decide) ?_
    exact h203
  · rename_i x204 e205
    have h206 : Moves [.mem, .regs, .cnt, .hif, .ctl, .obs, .ddr, .out] s x204 := by
      refine Moves.of_snd e205 ?_
      refine Moves.seq (rateOk_moves ..) (by decide) ?_
      exact h200
    refine Moves.ctl_with (by decide) ?_
    exact h206

theorem charge_moves (a0 a1 a2 a3 s) : Moves [.mem, .regs, .cnt, .hif, .ctl, .obs, .ddr, .out] s (charge a0 a1 a2 a3 s).2 := by
  unfold charge
  split
  · refine Moves.mk_snd ?_
    exact Moves.refl _ _
  · extract_lets v0 v1 v2 v3
    refine Moves.ite_snd ?_ ?_
    · refine Moves.mk_snd ?_
      refine Moves.ctl_with (by decide) ?_
      exact Moves.refl _ _
    · refine Moves.mk_snd ?_
      refine Moves.seq (policed_moves ..) (by decide) ?_
      exact Moves.refl _ _

theorem excWrite_moves (a0 a1 a2 a3 s) : Moves [.mem, .regs, .cnt] s (excWrite a0 a1 a2 a3 s) := by
  unfold excWrite
  extract_lets v0 v1 v2 v3 v4 v5 v6 v7 v8
  have h200 : Moves [.mem, .regs, .cnt] s v6 := by
    refine Moves.seq (hostWrite_moves ..) (by decide) ?_
    exact Moves.refl _ _
  have h201 : Moves [.mem, .regs, .cnt] s v8 := by
    refine Moves.seq (fset_moves ..) (by decide) ?_
    exact h200
  refine Moves.ite ?_ ?_
  · refine Moves.seq (cinc_moves ..) (by decide) ?_
    exact Moves.refl _ _
  · refine Moves.seq (cinc_moves ..) (by decide) ?_
    refine Moves.ite ?_ ?_
    · refine Moves.seq (fset_moves ..) (by decide) ?_
      exact h201
    · exact h201

theorem excDeliver_moves (a0 a1 a2 a3 s) : Moves [.mem, .regs, .cnt, .ctl] s (excDeliver a0 a1 a2 a3 s) := by
  unfold excDeliver
  extract_lets v0 v1 v2 v3
  have h200 : Moves [.mem, .regs, .cnt, .ctl] s v2 := by
    refine Moves.ite ?_ ?_
    · refine Moves.ctl_with (by decide) ?_
      exact Moves.refl _ _
    · exact Moves.refl _ _
  refine Moves.ite ?_ ?_
  · refine Moves.seq (cinc_moves ..) (by decide) ?_
    exact h200
  · refine Moves.ite ?_ ?_
    · refine Moves.ctl_with (by decide) ?_
      exact h200
    · refine Moves.seq (excWrite_moves ..) (by decide) ?_
      exact h200

theorem excFlush_moves (s) : Moves [.mem, .regs, .cnt, .ctl] s (excFlush s) := by
  unfold excFlush
  refine Moves.foldl (fun _ y0 => ?_) ?_
  · refine Moves.seq (excWrite_moves ..) (by decide) ?_
    exact Moves.refl _ _
  · refine Moves.ctl_with (by decide) ?_
    exact Moves.refl _ _

theorem excLeg_moves (a0 a1 a2 a3 s) : Moves [.mem, .regs, .cnt, .hif, .ctl, .obs, .ddr, .out] s (excLeg a0 a1 a2 a3 s) := by
  unfold excLeg
  split
  · refine Moves.seq (excDeliver_moves ..) (by decide) ?_
    exact Moves.refl _ _
  · refine Moves.ite ?_ ?_
    · refine Moves.seq (cinc_moves ..) (by decide) ?_
      exact Moves.refl _ _
    · split
      · rename_i x0 e1
        have h2 : Moves [.mem, .regs, .cnt, .hif, .ctl, .obs, .ddr, .out] s x0 := by
          refine Moves.of_snd e1 ?_
          refine Moves.seq (charge_moves ..) (by decide) ?_
          exact Moves.refl _ _
        refine Moves.seq (excDeliver_moves ..) (by decide) ?_
        exact h2
      · rename_i x3 e4
        have h5 : Moves [.mem, .regs, .cnt, .hif, .ctl, .obs, .ddr, .out] s x3 := by
          refine Moves.of_snd e4 ?_
          refine Moves.seq (charge_moves ..) (by decide) ?_
          exact Moves.refl _ _
        exact h5

theorem streamPut_moves (a0 a1 s) : Moves [.ctl] s (streamPut a0 a1 s) := by
  unfold streamPut
  refine Moves.ctl_with (by decide) ?_
  exact Moves.refl _ _

theorem jrResize_moves (a0 s) : Moves [.mem, .regs, .cnt, .hif, .ctl, .obs, .ddr, .out] s (jrResize a0 s) := by
  unfold jrResize
  split
  · exact Moves.refl _ _
  · split
    · exact Moves.refl _ _
    · extract_lets v0 v1 v2
      have h200 : Moves [.mem, .regs, .cnt, .hif, .ctl, .obs, .ddr, .out] s v1 := by
        refine Moves.seq (streamPut_moves ..) (by decide) ?_
        exact Moves.refl _ _
      have h201 : Moves [.mem, .regs, .cnt, .hif, .ctl, .obs, .ddr, .out] s v2 := by
        refine Moves.seq (raiseObj_moves ..) (by decide) ?_
        exact h200
      refine Moves.ite ?_ ?_
      · exact h201
      · refine Moves.seq (determinismLost_moves ..) (by decide) ?_
        refine Moves.seq (cadd_moves ..) (by decide) ?_
        exact h201

theorem jrSettle_moves (a0 s) : Moves [.mem, .regs, .cnt, .hif, .ctl, .obs, .ddr, .out] s (jrSettle a0 s) := by
  unfold jrSettle
  split
  · refine Moves.ite ?_ ?_
    · refine Moves.seq (jrResize_moves ..) (by decide) ?_
      exact Moves.refl _ _
    · exact Moves.refl _ _
  · exact Moves.refl _ _

theorem jrStage_moves (a0 a1 s) : Moves [.mem, .regs, .cnt, .hif, .ctl, .obs, .ddr, .out] s (jrStage a0 a1 s) := by
  unfold jrStage
  split
  · exact Moves.refl _ _
  · extract_lets v0
    have h200 : Moves [.mem, .regs, .cnt, .hif, .ctl, .obs, .ddr, .out] s v0 := by
      refine Moves.seq (streamPut_moves ..) (by decide) ?_
      exact Moves.refl _ _
    refine Moves.ite ?_ ?_
    · refine Moves.seq (jrResize_moves ..) (by decide) ?_
      exact h200
    · exact h200

theorem jrDup_moves (a0 a1 a2 s) : Moves [.cnt, .ctl] s (jrDup a0 a1 a2 s) := by
  unfold jrDup
  extract_lets v0 v1
  refine Moves.seq (cinc_moves ..) (by decide) ?_
  refine Moves.seq (streamPut_moves ..) (by decide) ?_
  exact Moves.refl _ _

theorem jrMissed_moves (a0 a1 s) : Moves [.mem, .regs, .cnt, .hif, .obs, .ddr, .out] s (jrMissed a0 a1 s) := by
  unfold jrMissed
  refine Moves.seq (determinismLost_moves ..) (by decide) ?_
  refine Moves.seq (cinc_moves ..) (by decide) ?_
  exact Moves.refl _ _

theorem jrOverflow_moves (a0 a1 a2 s) : Moves [.mem, .regs, .cnt, .hif, .obs, .ddr, .out] s (jrOverflow a0 a1 a2 s) := by
  unfold jrOverflow
  refine Moves.seq (raiseObj_moves ..) (by decide) ?_
  refine Moves.seq (determinismLost_moves ..) (by decide) ?_
  refine Moves.seq (cinc_moves ..) (by decide) ?_
  exact Moves.refl _ _

theorem jrAudio_moves (a0 a1 a2 s) : Moves [.mem, .regs, .cnt, .hif, .ctl, .obs, .ddr, .out] s (jrAudio a0 a1 a2 s) := by
  unfold jrAudio
  extract_lets v0 v1 v2 v3 v4 v5 v6 v7
  have h200 : Moves [.mem, .regs, .cnt, .hif, .ctl, .obs, .ddr, .out] s v7 := by
    refine Moves.seq (streamPut_moves ..) (by decide) ?_
    exact Moves.refl _ _
  refine Moves.ite ?_ ?_
  · refine Moves.seq (jrDup_moves ..) (by decide) ?_
    exact Moves.refl _ _
  · refine Moves.ite ?_ ?_
    · refine Moves.seq (cinc_moves ..) (by decide) ?_
      exact Moves.refl _ _
    · refine Moves.ite ?_ ?_
      · refine Moves.seq (cinc_moves ..) (by decide) ?_
        refine Moves.seq (streamPut_moves ..) (by decide) ?_
        exact Moves.refl _ _
      · refine Moves.ite ?_ ?_
        · refine Moves.seq (jrOverflow_moves ..) (by decide) ?_
          exact Moves.refl _ _
        · refine Moves.ite ?_ ?_
          · refine Moves.seq (jrMissed_moves ..) (by decide) ?_
            exact Moves.refl _ _
          · refine Moves.ite ?_ ?_
            · refine Moves.seq (raiseObj_moves ..) (by decide) ?_
              refine Moves.seq (cinc_moves ..) (by decide) ?_
              exact h200
            · exact h200

theorem releaseAll_moves (a0 s) : Moves [.ctl] s (releaseAll a0 s) := by
  unfold releaseAll
  extract_lets v0 v1
  refine Moves.ctl_with (by decide) ?_
  exact Moves.refl _ _

theorem jrVideo_moves (a0 a1 a2 s) : Moves [.mem, .regs, .cnt, .hif, .ctl, .obs, .ddr, .out] s (jrVideo a0 a1 a2 s) := by
  unfold jrVideo
  refine Moves.ite ?_ ?_
  · refine Moves.seq (jrDup_moves ..) (by decide) ?_
    exact Moves.refl _ _
  · refine Moves.ite ?_ ?_
    · refine Moves.seq (cinc_moves ..) (by decide) ?_
      exact Moves.refl _ _
    · refine Moves.ite ?_ ?_
      · refine Moves.seq (jrOverflow_moves ..) (by decide) ?_
        exact Moves.refl _ _
      · refine Moves.ite ?_ ?_
        · refine Moves.seq (jrMissed_moves ..) (by decide) ?_
          exact Moves.refl _ _
        · refine Moves.seq (streamPut_moves ..) (by decide) ?_
          exact Moves.refl _ _

theorem holdSync_moves (s) : Moves [.regs] s (holdSync s) := by
  unfold holdSync
  refine Moves.foldl (fun _ y0 => ?_) ?_
  · refine Moves.seq (fset_moves ..) (by decide) ?_
    exact Moves.refl _ _
  · exact Moves.refl _ _

theorem hold_moves (a0 a1 a2 a3 a4 a5 a6 s) : Moves [.regs, .cnt, .ctl] s (hold a0 a1 a2 a3 a4 a5 a6 s) := by
  unfold hold
  extract_lets v0 v1 v2
  refine Moves.ite ?_ ?_
  · refine Moves.seq (cinc_moves ..) (by decide) ?_
    exact Moves.refl _ _
  · refine Moves.seq (holdSync_moves ..) (by decide) ?_
    refine Moves.ctl_with (by decide) ?_
    exact Moves.refl _ _

theorem seqRefused_moves {id seq : Nat} {s t : State} (e : seqRefused id seq s = some t) : Moves [.cnt, .ctl] s t := by
  unfold seqRefused at e
  split at e
  · cases e
  · split at e
    · cases e
      exact Moves.seq (cinc_moves ..) (by decide) ((streamPut_moves ..).mono (by decide))
    · cases e

theorem rtpIn_moves (leg p f eng l s) : Moves [.mem, .regs, .cnt, .ctl] s (rtpIn leg p f eng l s) := by
  have hh : ∀ st bd y, Moves [.mem, .regs, .cnt, .ctl] y (hold st leg false bd p f eng y) := fun _ _ _ => (hold_moves ..).mono (by decide)
  have hx : ∀ r, Moves [.mem, .regs, .cnt, .ctl] s (excDeliver (.vf l.ring) r (some leg) f s) := fun _ => (excDeliver_moves ..).mono (by decide)
  unfold rtpIn
  extract_lets go
  have hg : ∀ id bd, Moves [.mem, .regs, .cnt, .ctl] s (go id bd) := by
    intro id bd
    unfold go
    refine Moves.ite (hh ..) ?_
    split
    · next e => exact (seqRefused_moves e).mono (by decide)
    · exact hh ..
  refine Moves.ite (hx _) (Moves.ite ((cinc_moves ..).mono (by decide)) ?_)
  split
  · exact hg ..
  · split
    · exact hg ..
    · exact hx _

theorem mediaIn_moves (a0 a1 a2 a3 s) : Moves [.mem, .regs, .cnt, .hif, .ctl, .obs, .ddr, .out] s (mediaIn a0 a1 a2 a3 s) := by
  unfold mediaIn
  extract_lets v0 v1 v2 v3 v4 v5
  have h200 : Moves [.mem, .regs, .cnt, .hif, .ctl, .obs, .ddr, .out] s v5 := by
    refine Moves.seq (cinc_moves ..) (by decide) ?_
    exact Moves.refl _ _
  refine Moves.ite ?_ ?_
  · refine Moves.seq (excLeg_moves ..) (by decide) ?_
    exact Moves.refl _ _
  · refine Moves.ite ?_ ?_
    · refine Moves.seq (excLeg_moves ..) (by decide) ?_
      exact Moves.refl _ _
    · refine Moves.ite ?_ ?_
      · refine Moves.seq (excLeg_moves ..) (by decide) ?_
        exact Moves.refl _ _
      · refine Moves.ite ?_ ?_
        · refine Moves.seq (excLeg_moves ..) (by decide) ?_
          exact Moves.refl _ _
        · split
          · refine Moves.seq (cinc_moves ..) (by decide) ?_
            exact h200
          · refine Moves.ite ?_ ?_
            · refine Moves.seq (cinc_moves ..) (by decide) ?_
              exact h200
            · split
              · rename_i x201 e202
                have h203 : Moves [.mem, .regs, .cnt, .hif, .ctl, .obs, .ddr, .out] s x201 := by
                  refine Moves.of_snd e202 ?_
                  refine Moves.seq (charge_moves ..) (by decide) ?_
                  exact h200
                exact h203
              · rename_i x204 e205
                have h206 : Moves [.mem, .regs, .cnt, .hif, .ctl, .obs, .ddr, .out] s x204 := by
                  refine Moves.of_snd e205 ?_
                  refine Moves.seq (charge_moves ..) (by decide) ?_
                  exact h200
                refine Moves.ite ?_ ?_
                · split
                  · refine Moves.seq (hold_moves ..) (by decide) ?_
                    exact h206
                  · refine Moves.seq (excDeliver_moves ..) (by decide) ?_
                    exact h206
                · refine Moves.seq (rtpIn_moves ..) (by decide) ?_
                  exact h206

theorem classify_moves (a0 a1 a2 s) : Moves [.mem, .regs, .cnt, .hif, .ctl, .obs, .ddr, .out] s (classify a0 a1 a2 s) := by
  unfold classify
  split
  · refine Moves.seq (cinc_moves ..) (by decide) ?_
    exact Moves.refl _ _
  · refine Moves.seq (excDeliver_moves ..) (by decide) ?_
    exact Moves.refl _ _
  · refine Moves.seq (excDeliver_moves ..) (by decide) ?_
    exact Moves.refl _ _
  · refine Moves.seq (excDeliver_moves ..) (by decide) ?_
    exact Moves.refl _ _
  · refine Moves.seq (excDeliver_moves ..) (by decide) ?_
    exact Moves.refl _ _
  · split
    · refine Moves.seq (mediaIn_moves ..) (by decide) ?_
      exact Moves.refl _ _
    · refine Moves.seq (excDeliver_moves ..) (by decide) ?_
      exact Moves.refl _ _

theorem replayDrop_moves (a0 a1 s) : Moves [.mem, .regs, .cnt, .hif, .obs, .ddr, .out] s (replayDrop a0 a1 s) := by
  unfold replayDrop
  extract_lets v0
  have h200 : Moves [.mem, .regs, .cnt, .hif, .obs, .ddr, .out] s v0 := by
    refine Moves.seq (cinc_moves ..) (by decide) ?_
    exact Moves.refl _ _
  split
  · refine Moves.seq (determinismLost_moves ..) (by decide) ?_
    exact h200
  · exact h200

theorem frameIn_moves (a0 a1 a2 a3 a4 a5 s) : Moves [.mem, .regs, .cnt, .hif, .ctl, .obs, .ddr, .out] s (frameIn a0 a1 a2 a3 a4 a5 s) := by
  unfold frameIn
  refine Moves.ite ?_ ?_
  · exact Moves.refl _ _
  · refine Moves.ite ?_ ?_
    · refine Moves.seq (cinc_moves ..) (by decide) ?_
      exact Moves.refl _ _
    · refine Moves.ite ?_ ?_
      · refine Moves.seq (cinc_moves ..) (by decide) ?_
        exact Moves.refl _ _
      · refine Moves.ite ?_ ?_
        · refine Moves.seq (cinc_moves ..) (by decide) ?_
          exact Moves.refl _ _
        · refine Moves.ite ?_ ?_
          · refine Moves.seq (cinc_moves ..) (by decide) ?_
            exact Moves.refl _ _
          · extract_lets v0 v1 v2 v3
            have h200 : Moves [.mem, .regs, .cnt, .hif, .ctl, .obs, .ddr, .out] s v0 := by
              refine Moves.seq (cadd_moves ..) (by decide) ?_
              refine Moves.seq (cinc_moves ..) (by decide) ?_
              exact Moves.refl _ _
            refine Moves.ite ?_ ?_
            · exact h200
            · refine Moves.ite ?_ ?_
              · refine Moves.seq (replayDrop_moves ..) (by decide) ?_
                exact h200
              · refine Moves.seq (classify_moves ..) (by decide) ?_
                exact h200

end Sys2Proof.Machine
end

