-- ==== Sys2Proof/Laws/ChEthRows.lean ====
section
/-! SUPPORT. What each operation of Machine/EthRows.lean may change: one lemma for each, which says every part of State that it
can alter, and that it keeps the invariant. -/

set_option Elab.async false

namespace Sys2Proof.Machine

/-- What `linkIn` changes is what its operation changes. -/
theorem linkIn_moves {ps : List Part} {s x : State} {link a : Nat} {f : State → State} (hf : ∀ y, Moves ps y (f y))
    (_ : ∀ p ∈ ([] : List Part), p ∈ ps) (b : Moves ps s x) : Moves ps s (linkIn link a f x) := by
  unfold linkIn
  exact Moves.ite (b.trans (hf x)) b

theorem linkTo_moves (a0 a1 s) : Moves [.regs] s (linkTo a0 a1 s) := by
  unfold linkTo
  refine Moves.seq (fset_moves ..) (by decide) ?_
  exact Moves.refl _ _

theorem linkDownCount_moves (a0 s) : Moves [.cnt] s (linkDownCount a0 s) := by
  unfold linkDownCount
  refine Moves.seq (cinc_moves ..) (by decide) ?_
  exact Moves.refl _ _

theorem linkDisable_moves (a0 s) : Moves [.regs, .cnt] s (linkDisable a0 s) := by
  unfold linkDisable
  extract_lets v0
  have h200 : Moves [.regs, .cnt] s v0 := by
    refine Moves.seq (fset_moves ..) (by decide) ?_
    exact Moves.refl _ _
  refine Moves.seq (linkTo_moves ..) (by decide) ?_
  refine Moves.ite ?_ ?_
  · refine Moves.seq (linkDownCount_moves ..) (by decide) ?_
    exact h200
  · exact h200

theorem linkEnable_moves (a0 s) : Moves [.regs] s (linkEnable a0 s) := by
  unfold linkEnable
  extract_lets v0
  have h200 : Moves [.regs] s v0 := by
    refine Moves.seq (fset_moves ..) (by decide) ?_
    exact Moves.refl _ _
  refine Moves.ite ?_ ?_
  · refine linkIn_moves (fun y201 => ?_) (by decide) ?_
    · refine Moves.seq (linkTo_moves ..) (by decide) ?_
      exact Moves.refl _ _
    · exact h200
  · exact h200

theorem execEthLinkEnable_runs (a0 s) : Runs [.regs] s (execEthLinkEnable a0 s) := by
  unfold execEthLinkEnable
  refine Runs.next ?_
  refine Moves.seq (linkEnable_moves ..) (by decide) ?_
  exact Moves.refl _ _

theorem execEthLinkDisable_runs (a0 s) : Runs [.regs, .cnt] s (execEthLinkDisable a0 s) := by
  unfold execEthLinkDisable
  refine Runs.next ?_
  refine Moves.seq (linkDisable_moves ..) (by decide) ?_
  exact Moves.refl _ _

theorem execLinkSignalDetect_runs (a0 s) : Runs [.regs] s (execLinkSignalDetect a0 s) := by
  unfold execLinkSignalDetect
  refine Runs.next ?_
  refine linkIn_moves (fun y0 => ?_) (by decide) ?_
  · refine Moves.seq (linkTo_moves ..) (by decide) ?_
    exact Moves.refl _ _
  · exact Moves.refl _ _

theorem execLinkAcquireTimeout_runs (a0 s) : Runs [.cnt] s (execLinkAcquireTimeout a0 s) := by
  unfold execLinkAcquireTimeout
  refine Runs.next ?_
  refine linkIn_moves (fun y0 => ?_) (by decide) ?_
  · refine Moves.seq (linkDownCount_moves ..) (by decide) ?_
    exact Moves.refl _ _
  · exact Moves.refl _ _

theorem execLinkTrainDone_runs (a0 s) : Runs [.regs] s (execLinkTrainDone a0 s) := by
  unfold execLinkTrainDone
  refine Runs.next ?_
  refine linkIn_moves (fun y0 => ?_) (by decide) ?_
  · refine Moves.seq (linkTo_moves ..) (by decide) ?_
    exact Moves.refl _ _
  · exact Moves.refl _ _

theorem execLinkTrainTimeout_runs (a0 s) : Runs [.regs] s (execLinkTrainTimeout a0 s) := by
  unfold execLinkTrainTimeout
  refine Runs.next ?_
  refine linkIn_moves (fun y0 => ?_) (by decide) ?_
  · refine Moves.seq (linkTo_moves ..) (by decide) ?_
    exact Moves.refl _ _
  · exact Moves.refl _ _

theorem execLinkLock_runs (a0 a1 a2 s) : Runs [.regs] s (execLinkLock a0 a1 a2 s) := by
  unfold execLinkLock
  refine Runs.next ?_
  refine linkIn_moves (fun y0 => ?_) (by decide) ?_
  · refine Moves.seq (fset_moves ..) (by decide) ?_
    refine Moves.seq (fset_moves ..) (by decide) ?_
    refine Moves.seq (linkTo_moves ..) (by decide) ?_
    exact Moves.refl _ _
  · exact Moves.refl _ _

theorem execLinkLockTimeout_runs (a0 s) : Runs [.regs] s (execLinkLockTimeout a0 s) := by
  unfold execLinkLockTimeout
  refine Runs.next ?_
  refine linkIn_moves (fun y0 => ?_) (by decide) ?_
  · refine Moves.seq (linkTo_moves ..) (by decide) ?_
    exact Moves.refl _ _
  · exact Moves.refl _ _

theorem execFecCodewordLock_runs (a0 s) : Runs [.mem, .regs, .cnt, .hif, .ddr, .out] s (execFecCodewordLock a0 s) := by
  unfold execFecCodewordLock
  refine Runs.next ?_
  refine linkIn_moves (fun y0 => ?_) (by decide) ?_
  · extract_lets v1
    have h201 : Moves [.mem, .regs, .cnt, .hif, .ddr, .out] y0 v1 := by
      refine Moves.seq (fset_moves ..) (by decide) ?_
      refine Moves.seq (linkTo_moves ..) (by decide) ?_
      exact Moves.refl _ _
    refine Moves.seq (raiseUnit_moves ..) (by decide) ?_
    exact h201
  · exact Moves.refl _ _

theorem execLinkFault_runs (a0 a1 s) : Runs [.mem, .regs, .cnt, .hif, .ddr, .out] s (execLinkFault a0 a1 s) := by
  unfold execLinkFault
  refine Runs.next ?_
  refine linkIn_moves (fun y0 => ?_) (by decide) ?_
  · extract_lets v1
    have h201 : Moves [.mem, .regs, .cnt, .hif, .ddr, .out] y0 v1 := by
      refine Moves.seq (fset_moves ..) (by decide) ?_
      refine Moves.seq (linkTo_moves ..) (by decide) ?_
      refine Moves.seq (linkDownCount_moves ..) (by decide) ?_
      exact Moves.refl _ _
    refine Moves.seq (raiseUnit_moves ..) (by decide) ?_
    exact h201
  · exact Moves.refl _ _

theorem execLinkDegradeDetect_runs (a0 a1 s) : Runs [.mem, .regs, .cnt, .hif, .ddr, .out] s (execLinkDegradeDetect a0 a1 s) := by
  unfold execLinkDegradeDetect
  refine Runs.next ?_
  refine linkIn_moves (fun y0 => ?_) (by decide) ?_
  · refine Moves.ite ?_ ?_
    · refine Moves.seq (raiseUnit_moves ..) (by decide) ?_
      refine Moves.seq (fset_moves ..) (by decide) ?_
      exact Moves.refl _ _
    · exact Moves.refl _ _
  · exact Moves.refl _ _

theorem ptpSync_moves (s) : Moves [.regs] s (ptpSync s) := by
  unfold ptpSync
  refine Moves.ite ?_ ?_
  · refine Moves.seq (fset_moves ..) (by decide) ?_
    refine Moves.seq (fset_moves ..) (by decide) ?_
    exact Moves.refl _ _
  · exact Moves.refl _ _

theorem ptpAdvance_moves (s) : Moves [.clk] s (ptpAdvance s) := by
  unfold ptpAdvance
  extract_lets v0 v1 v2
  refine Moves.clk_with (by decide) ?_
  exact Moves.refl _ _

theorem execPtpTimeSet_runs (a0 s) : Runs [.clk, .regs] s (execPtpTimeSet a0 s) := by
  unfold execPtpTimeSet
  extract_lets v0 v1 v2
  have h200 : Moves [.clk, .regs] s v2 := by
    refine Moves.clk_with (by decide) ?_
    exact Moves.refl _ _
  refine Runs.next ?_
  refine Moves.seq (ptpSync_moves ..) (by decide) ?_
  refine Moves.seq (fset_moves ..) (by decide) ?_
  exact h200

theorem execPtpNsRead_runs (s) : Runs [.clk, .hif] s (execPtpNsRead s) := by
  unfold execPtpNsRead
  extract_lets v0 v1 v2
  refine Runs.next ?_
  refine Moves.clk_hif_with (by decide) (by decide) ?_
  exact Moves.refl _ _

theorem execPtpStep_runs (a0 s) : Runs [.clk, .regs] s (execPtpStep a0 s) := by
  unfold execPtpStep
  refine Runs.next ?_
  refine Moves.seq (ptpSync_moves ..) (by decide) ?_
  refine Moves.clk_with (by decide) ?_
  exact Moves.refl _ _

theorem execPtpPps_runs (s) : Runs [.out] s (execPtpPps s) := by
  unfold execPtpPps
  refine Runs.next ?_
  refine Moves.ite ?_ ?_
  · refine Moves.out_with (by decide) ?_
    exact Moves.refl _ _
  · exact Moves.refl _ _

theorem execPtpLockChange_runs (s) : Runs [.mem, .regs, .cnt, .hif, .ddr, .out] s (execPtpLockChange s) := by
  unfold execPtpLockChange
  extract_lets v0 v1
  have h200 : Moves [.mem, .regs, .cnt, .hif, .ddr, .out] s v1 := by
    refine Moves.seq (fset_moves ..) (by decide) ?_
    exact Moves.refl _ _
  refine Runs.next ?_
  refine Moves.ite ?_ ?_
  · exact Moves.refl _ _
  · refine Moves.seq (raiseUnit_moves ..) (by decide) ?_
    exact h200

theorem execVideoFrameTimeout_runs (a0 a1 s) : Runs [.ctl] s (execVideoFrameTimeout a0 a1 s) := by
  unfold execVideoFrameTimeout
  refine Runs.next ?_
  split
  · exact Moves.refl _ _
  · refine Moves.ite ?_ ?_
    · refine Moves.seq (streamPut_moves ..) (by decide) ?_
      exact Moves.refl _ _
    · exact Moves.refl _ _

theorem execIngJrResize_runs (a0 s) : Runs [.mem, .regs, .cnt, .hif, .ctl, .obs, .ddr, .out] s (execIngJrResize a0 s) := by
  unfold execIngJrResize
  extract_lets v0 v1
  refine Runs.next ?_
  split
  · exact Moves.refl _ _
  · refine Moves.ite ?_ ?_
    · refine Moves.seq (jrStage_moves ..) (by decide) ?_
      exact Moves.refl _ _
    · exact Moves.refl _ _

theorem execIngExcHeadWrite_runs (a0 a1 s) : Runs [.regs] s (execIngExcHeadWrite a0 a1 s) := by
  unfold execIngExcHeadWrite
  extract_lets v0
  refine Runs.next ?_
  refine Moves.ite ?_ ?_
  · refine Moves.seq (fset_moves ..) (by decide) ?_
    exact Moves.refl _ _
  · exact Moves.refl _ _

end Sys2Proof.Machine
end

