-- ==== Sys2Proof/Laws/ChEgr.lean ====
section
/-! SUPPORT. What each operation of Machine/Egr.lean may change: one lemma for each, which says every part of State that it
can alter, and that it keeps the invariant. -/

set_option Elab.async false

namespace Sys2Proof.Machine

theorem egrStrPut_moves (a0 a1 s) : Moves [.egr] s (egrStrPut a0 a1 s) := by
  unfold egrStrPut
  refine Moves.egr_with (by decide) ?_
  exact Moves.refl _ _

theorem egrLegPut_moves (a0 a1 s) : Moves [.egr] s (egrLegPut a0 a1 s) := by
  unfold egrLegPut
  refine Moves.egr_with (by decide) ?_
  exact Moves.refl _ _

theorem egrAdmit_moves (a0 a1 s) : Moves [.egr] s (egrAdmit a0 a1 s) := by
  unfold egrAdmit
  refine Moves.seq (egrLegPut_moves ..) (by decide) ?_
  exact Moves.refl _ _

theorem egrFree_moves (a0 s) : Moves [.egr] s (egrFree a0 s) := by
  unfold egrFree
  refine Moves.egr_with (by decide) ?_
  exact Moves.refl _ _

theorem egrPush_moves (a0 a1 s) : Moves [.egr] s (egrPush a0 a1 s) := by
  unfold egrPush
  split
  · exact Moves.refl _ _
  · refine Moves.seq (egrLegPut_moves ..) (by decide) ?_
    exact Moves.refl _ _

theorem egrMedia_moves (a0 a1 a2 a3 a4 a5 a6 a7 s) : Moves [.egr] s (egrMedia a0 a1 a2 a3 a4 a5 a6 a7 s) := by
  unfold egrMedia
  split
  · exact Moves.refl _ _
  · refine Moves.seq (egrPush_moves ..) (by decide) ?_
    exact Moves.refl _ _

theorem markLost_moves (a0 a1 a2 s) : Moves [.mem, .regs, .cnt, .hif, .ddr, .out] s (markLost a0 a1 a2 s) := by
  unfold markLost
  split
  · exact Moves.refl _ _
  · refine Moves.seq (cinc_moves ..) (by decide) ?_
    refine Moves.seq (raiseObj_moves ..) (by decide) ?_
    exact Moves.refl _ _

theorem rwWrite_moves (a0 a1 a2 a3 s) : Moves [.mem, .regs, .cnt, .hif, .egr, .ddr, .out] s (rwWrite a0 a1 a2 a3 s) := by
  unfold rwWrite
  split
  · exact Moves.refl _ _
  · extract_lets v0 v1 v2 v3 v4
    refine Moves.foldl (fun _ y200 => ?_) ?_
    · refine Moves.seq (markLost_moves ..) (by decide) ?_
      exact Moves.refl _ _
    · refine Moves.egr_with (by decide) ?_
      exact Moves.refl _ _

theorem rwResize_moves (a0 s) : Moves [.mem, .regs, .cnt, .hif, .egr, .ddr, .out] s (rwResize a0 s) := by
  unfold rwResize
  split
  · exact Moves.refl _ _
  · split
    · exact Moves.refl _ _
    · extract_lets v0 v1 v2 v3 v4 v5
      have h200 : Moves [.mem, .regs, .cnt, .hif, .egr, .ddr, .out] s v5 := by
        refine Moves.egr_with (by decide) ?_
        exact Moves.refl _ _
      refine Moves.foldl (fun _ y201 => ?_) ?_
      · refine Moves.seq (markLost_moves ..) (by decide) ?_
        exact Moves.refl _ _
      · refine Moves.ite ?_ ?_
        · exact h200
        · refine Moves.seq (cadd_moves ..) (by decide) ?_
          exact h200

theorem rwSettle_moves (a0 s) : Moves [.mem, .regs, .cnt, .hif, .egr, .ddr, .out] s (rwSettle a0 s) := by
  unfold rwSettle
  split
  · refine Moves.ite ?_ ?_
    · refine Moves.seq (rwResize_moves ..) (by decide) ?_
      exact Moves.refl _ _
    · exact Moves.refl _ _
  · exact Moves.refl _ _

theorem egrDrop_moves (a0 a1 s) : Moves [.mem, .regs, .cnt, .hif, .ctl, .egr, .ddr, .out] s (egrDrop a0 a1 s) := by
  unfold egrDrop
  extract_lets v0 v1 v2
  have h200 : Moves [.mem, .regs, .cnt, .hif, .ctl, .egr, .ddr, .out] s v1 := by
    unfold v1
    unfold v0
    split
    · refine Moves.seq (cinc_moves ..) (by decide) ?_
      exact Moves.refl _ _
    · exact Moves.refl _ _
  have h201 : Moves [.mem, .regs, .cnt, .hif, .ctl, .egr, .ddr, .out] s v2 := by
    refine Moves.seq (degraded_moves ..) (by decide) ?_
    exact h200
  split
  · split
    · rename_i x202 e203
      have h204 : Moves [.mem, .regs, .cnt, .hif, .ctl, .egr, .ddr, .out] s x202 := by
        refine Moves.of_snd e203 ?_
        refine Moves.seq (rateOk_moves ..) (by decide) ?_
        exact h201
      refine Moves.seq (raiseObj_moves ..) (by decide) ?_
      refine Moves.seq (egrLegPut_moves ..) (by decide) ?_
      exact h204
    · rename_i x205 e206
      have h207 : Moves [.mem, .regs, .cnt, .hif, .ctl, .egr, .ddr, .out] s x205 := by
        refine Moves.of_snd e206 ?_
        refine Moves.seq (rateOk_moves ..) (by decide) ?_
        exact h201
      refine Moves.seq (egrLegPut_moves ..) (by decide) ?_
      exact h207
  · exact h201

theorem keyExhaust_moves (a0 a1 s) : Moves [.mem, .regs, .cnt, .hif, .ddr, .out] s (keyExhaust a0 a1 s) := by
  unfold keyExhaust
  refine Moves.seq (raiseObj_moves ..) (by decide) ?_
  exact Moves.refl _ _

theorem egrNoKey_moves (a0 a1 a2 a3 s) : Moves [.mem, .regs, .cnt, .hif, .ctl, .egr, .ddr, .out] s (egrNoKey a0 a1 a2 a3 s) := by
  unfold egrNoKey
  refine Moves.seq (egrDrop_moves ..) (by decide) ?_
  refine Moves.ite ?_ ?_
  · refine Moves.seq (cinc_moves ..) (by decide) ?_
    exact Moves.refl _ _
  · refine Moves.seq (cinc_moves ..) (by decide) ?_
    refine Moves.seq (cinc_moves ..) (by decide) ?_
    exact Moves.refl _ _

theorem repEgress_moves (a0 a1 a2 a3 a4 s) : Moves [.mem, .regs, .cnt, .hif, .obs, .ddr, .out] s (repEgress a0 a1 a2 a3 a4 s) := by
  unfold repEgress
  extract_lets v0 v1 v2 v3 v4
  have h200 : Moves [.mem, .regs, .cnt, .hif, .obs, .ddr, .out] s v3 := by
    refine Moves.seq (repPut_moves ..) (by decide) ?_
    exact Moves.refl _ _
  have h201 : Moves [.mem, .regs, .cnt, .hif, .obs, .ddr, .out] s v4 := by
    refine Moves.seq (cinc_moves ..) (by decide) ?_
    exact h200
  refine Moves.ite ?_ ?_
  · refine Moves.seq (repPut_moves ..) (by decide) ?_
    exact Moves.refl _ _
  · refine Moves.ite ?_ ?_
    · exact h200
    · refine Moves.ite ?_ ?_
      · refine Moves.seq (raiseObj_moves ..) (by decide) ?_
        exact h201
      · exact h201

theorem buildRtp_moves (a0 a1 a2 a3 a4 a5 s) : Moves [.mem, .regs, .cnt, .hif, .ctl, .egr, .obs, .ddr, .out, .free] s (buildRtp a0 a1 a2 a3 a4 a5 s).2 := by
  unfold buildRtp
  extract_lets v0 v1 v2 v3 v4 v5 v6 v7 v8 v9
  have h200 : Moves [.mem, .regs, .cnt, .hif, .ctl, .egr, .obs, .ddr, .out, .free] s v2 := by
    refine Moves.seq (rwSettle_moves ..) (by decide) ?_
    exact Moves.refl _ _
  have h201 : Moves [.mem, .regs, .cnt, .hif, .ctl, .egr, .obs, .ddr, .out, .free] s v5 := by
    refine Moves.ite ?_ ?_
    · exact h200
    · refine Moves.seq (rwWrite_moves ..) (by decide) ?_
      exact h200
  have h202 : Moves [.mem, .regs, .cnt, .hif, .ctl, .egr, .obs, .ddr, .out, .free] s v7 := by
    refine Moves.seq (egrStrPut_moves ..) (by decide) ?_
    exact h201
  have h203 : Moves [.mem, .regs, .cnt, .hif, .ctl, .egr, .obs, .ddr, .out, .free] s v8 := by
    refine Moves.ite ?_ ?_
    · refine Moves.seq (keyExhaust_moves ..) (by decide) ?_
      exact h202
    · exact h202
  have h204 : Moves [.mem, .regs, .cnt, .hif, .ctl, .egr, .obs, .ddr, .out, .free] s v9 := by
    refine Moves.seq (capNote_moves ..) (by decide) ?_
    exact h203
  split
  · refine Moves.mk_snd ?_
    refine Moves.seq (repEgress_moves ..) (by decide) ?_
    exact h204
  · split
    · refine Moves.mk_snd ?_
      refine Moves.seq (egrDrop_moves ..) (by decide) ?_
      exact h204
    · split
      · refine Moves.mk_snd ?_
        refine Moves.seq (egrNoKey_moves ..) (by decide) ?_
        exact h204
      · refine Moves.ite_snd ?_ ?_
        · refine Moves.mk_snd ?_
          refine Moves.seq (egrNoKey_moves ..) (by decide) ?_
          exact h204
        · refine Moves.ite_snd ?_ ?_
          · refine Moves.mk_snd ?_
            refine Moves.seq (egrNoKey_moves ..) (by decide) ?_
            exact h204
          · split
            · rename_i x205 x206 e207
              have h208 : Moves [.mem, .regs, .cnt, .hif, .ctl, .egr, .obs, .ddr, .out, .free] s x206 := by
                refine Moves.of_snd e207 ?_
                refine Moves.seq (takeFree_moves ..) (by decide) ?_
                exact h204
              split
              · refine Moves.mk_snd ?_
                refine Moves.seq (egrDrop_moves ..) (by decide) ?_
                exact h208
              · refine Moves.mk_snd ?_
                refine Moves.seq (cinc_moves ..) (by decide) ?_
                exact h208

theorem buildRtcp_moves (a0 a1 a2 a3 s) : Moves [.mem, .regs, .cnt, .hif, .ctl, .egr, .ddr, .out, .free] s (buildRtcp a0 a1 a2 a3 s).2 := by
  unfold buildRtcp
  refine Moves.ite_snd ?_ ?_
  · refine Moves.mk_snd ?_
    exact Moves.refl _ _
  · split
    · refine Moves.mk_snd ?_
      refine Moves.seq (egrDrop_moves ..) (by decide) ?_
      exact Moves.refl _ _
    · refine Moves.mk_snd ?_
      refine Moves.seq (egrDrop_moves ..) (by decide) ?_
      exact Moves.refl _ _
    · split
      · refine Moves.mk_snd ?_
        refine Moves.seq (egrDrop_moves ..) (by decide) ?_
        exact Moves.refl _ _
      · extract_lets v0 v1 v2 v3
        have h200 : Moves [.mem, .regs, .cnt, .hif, .ctl, .egr, .ddr, .out, .free] s v2 := by
          refine Moves.seq (egrStrPut_moves ..) (by decide) ?_
          exact Moves.refl _ _
        have h201 : Moves [.mem, .regs, .cnt, .hif, .ctl, .egr, .ddr, .out, .free] s v3 := by
          refine Moves.ite ?_ ?_
          · refine Moves.seq (keyExhaust_moves ..) (by decide) ?_
            exact h200
          · exact h200
        split
        · refine Moves.mk_snd ?_
          refine Moves.seq (egrNoKey_moves ..) (by decide) ?_
          exact h201
        · refine Moves.ite_snd ?_ ?_
          · refine Moves.mk_snd ?_
            refine Moves.seq (egrNoKey_moves ..) (by decide) ?_
            exact h201
          · refine Moves.ite_snd ?_ ?_
            · refine Moves.mk_snd ?_
              refine Moves.seq (egrNoKey_moves ..) (by decide) ?_
              exact h201
            · split
              · rename_i x202 x203 e204
                have h205 : Moves [.mem, .regs, .cnt, .hif, .ctl, .egr, .ddr, .out, .free] s x203 := by
                  refine Moves.of_snd e204 ?_
                  refine Moves.seq (takeFree_moves ..) (by decide) ?_
                  exact h201
                split
                · refine Moves.mk_snd ?_
                  refine Moves.seq (egrDrop_moves ..) (by decide) ?_
                  exact h205
                · refine Moves.mk_snd ?_
                  refine Moves.seq (cinc_moves ..) (by decide) ?_
                  exact h205

theorem buildItem_moves (a0 a1 a2 a3 s) : Moves [.mem, .regs, .cnt, .hif, .ctl, .egr, .obs, .ddr, .out, .free] s (buildItem a0 a1 a2 a3 s).2 := by
  unfold buildItem
  refine Moves.ite_snd ?_ ?_
  · refine Moves.mk_snd ?_
    exact Moves.refl _ _
  · refine Moves.ite_snd ?_ ?_
    · refine Moves.seq (buildRtcp_moves ..) (by decide) ?_
      exact Moves.refl _ _
    · split
      · refine Moves.mk_snd ?_
        exact Moves.refl _ _
      · split
        · refine Moves.mk_snd ?_
          exact Moves.refl _ _
        · refine Moves.seq (buildRtp_moves ..) (by decide) ?_
          exact Moves.refl _ _

theorem buildItems_moves (leg b l e items acc s) : Moves [.mem, .regs, .cnt, .hif, .ctl, .egr, .obs, .ddr, .out, .free] s (buildItems leg b l e items acc s).2 := by
  induction items generalizing s acc with
  | nil => exact Moves.refl _ _
  | cons i r ih =>
    unfold buildItems
    refine Moves.ite_snd (ih ..) ?_
    extract_lets fresh
    have hb := buildItem_moves leg i l e s
    split
    · next h => rw [h] at hb; exact (hb.mono (by decide)).trans (ih ..)
    · next h =>
      rw [h] at hb
      refine Moves.ite_snd ?_ (Moves.ite_snd ?_ ?_)
      · exact ((hb.mono (by decide)).trans ((egrDrop_moves ..).mono (by decide))).trans (ih ..)
      · exact ((hb.mono (by decide)).trans ((egrDrop_moves ..).mono (by decide))).trans (ih ..)
      · exact (hb.mono (by decide)).trans (ih ..)

theorem buildLeg_moves (a0 a1 s) : Moves [.mem, .regs, .cnt, .hif, .ctl, .egr, .obs, .ddr, .out, .free] s (buildLeg a0 a1 s) := by
  unfold buildLeg
  split
  · extract_lets v0
    split
    · refine Moves.seq (egrLegPut_moves ..) (by decide) ?_
      refine Moves.seq (buildItems_moves ..) (by decide) ?_
      exact Moves.refl _ _
    · refine Moves.seq (buildItems_moves ..) (by decide) ?_
      exact Moves.refl _ _
  · exact Moves.refl _ _

theorem htxDone_moves (a0 s) : Moves [.mem] s (htxDone a0 s) := by
  unfold htxDone
  split
  · exact Moves.refl _ _
  · extract_lets v0 v1
    have h200 : Moves [.mem] s v1 := by
      refine Moves.seq (hostWrite_moves ..) (by decide) ?_
      exact Moves.refl _ _
    refine Moves.ite ?_ ?_
    · refine Moves.seq (hostWrite_moves ..) (by decide) ?_
      exact h200
    · exact h200

theorem egrSend_moves (a0 a1 a2 a3 a4 s) : Moves [.mem, .cnt, .egr, .out] s (egrSend a0 a1 a2 a3 a4 s) := by
  unfold egrSend
  extract_lets v0 v1 v2 v3 v4 v5 v6 v7 v8
  have h200 : Moves [.mem, .cnt, .egr, .out] s v3 := by
    refine Moves.seq (egrLegPut_moves ..) (by decide) ?_
    exact Moves.refl _ _
  have h201 : Moves [.mem, .cnt, .egr, .out] s v4 := by
    refine Moves.seq (cadd_moves ..) (by decide) ?_
    refine Moves.seq (cinc_moves ..) (by decide) ?_
    exact h200
  have h202 : Moves [.mem, .cnt, .egr, .out] s v5 := by
    refine Moves.seq (cadd_moves ..) (by decide) ?_
    refine Moves.seq (cinc_moves ..) (by decide) ?_
    exact h201
  have h203 : Moves [.mem, .cnt, .egr, .out] s v6 := by
    refine Moves.seq (cadd_moves ..) (by decide) ?_
    refine Moves.seq (cadd_moves ..) (by decide) ?_
    exact h202
  have h204 : Moves [.mem, .cnt, .egr, .out] s v7 := by
    unfold v7
    split
    · refine Moves.seq (htxDone_moves ..) (by decide) ?_
      refine Moves.seq (cinc_moves ..) (by decide) ?_
      exact h203
    · exact h203
  have h205 : Moves [.mem, .cnt, .egr, .out] s v8 := by
    unfold v8
    split
    · exact h204
    · refine Moves.ite ?_ ?_
      · exact h204
      · extract_lets v206
        refine Moves.seq (cadd_moves ..) (by decide) ?_
        refine Moves.seq (cinc_moves ..) (by decide) ?_
        refine Moves.seq (egrStrPut_moves ..) (by decide) ?_
        exact h204
  refine Moves.out_with (by decide) ?_
  exact h205

theorem egrVisit_moves (fuel leg link b cap sent s) : Moves [.mem, .cnt, .egr, .out] s (egrVisit fuel leg link b cap sent s).2.2.2 := by
  induction fuel generalizing s cap sent with
  | zero => exact Moves.refl _ _
  | succ f ih =>
    unfold egrVisit
    split
    · split
      · exact Moves.seq (egrLegPut_moves ..) (by decide) (Moves.refl _ _)
      · extract_lets x
        split
        · exact Moves.seq (egrLegPut_moves ..) (by decide) (Moves.refl _ _)
        · split
          · exact Moves.refl _ _
          · split
            · exact Moves.refl _ _
            · exact Moves.trans ((egrSend_moves ..).mono (by decide)) (ih ..)
    · exact Moves.refl _ _

theorem egrRound_moves (legs link queue b cap stay s) : Moves [.mem, .cnt, .egr, .out] s (egrRound legs link queue b cap stay s).2.2 := by
  induction legs generalizing s cap stay with
  | nil => exact Moves.refl _ _
  | cons n r ih =>
    unfold egrRound
    extract_lets t
    have ht : Moves [.mem, .cnt, .egr, .out] s t := by
      unfold t
      split
      · exact (egrLegPut_moves ..).mono (by decide)
      · exact Moves.refl _ _
    have hv := egrVisit_moves 513 n link b cap false t
    split
    next c keep sent u e =>
    rw [e] at hv
    extract_lets g v
    have hu : Moves [.mem, .cnt, .egr, .out] s v := by
      unfold v
      exact Moves.ite (Moves.egr_with (by decide) (ht.trans (hv.mono (by decide)))) (ht.trans (hv.mono (by decide)))
    split
    · exact hu
    · exact hu.trans (ih ..)

theorem egrRounds_moves (fuel legs link queue b cap s) : Moves [.mem, .cnt, .egr, .out] s (egrRounds fuel legs link queue b cap s).2 := by
  induction fuel generalizing s cap legs with
  | zero => unfold egrRounds; exact Moves.refl _ _
  | succ f ih =>
    cases legs with
    | nil => unfold egrRounds; exact Moves.refl _ _
    | cons a l =>
      unfold egrRounds
      have hr := egrRound_moves (roundOrder (a :: l) (tfind s.egr.pos (link * 4 + queue))) link queue b cap [] s
      split
      · next e => rw [e] at hr; exact hr.mono (by decide)
      · next e => rw [e] at hr; exact (hr.mono (by decide)).trans (ih ..)

theorem egrLive_moves (link queue s) : Moves [.egr] s (egrLive link queue s).2 := by
  unfold egrLive
  refine Moves.foldl_snd (fun n l y => ?_) (Moves.refl _ _)
  split
  · split
    · exact Moves.refl _ _
    · split
      · exact Moves.seq (egrLegPut_moves ..) (by decide) (Moves.refl _ _)
      · split
        · exact Moves.refl _ _
        · split
          · exact Moves.refl _ _
          · exact Moves.seq (egrLegPut_moves ..) (by decide) (Moves.refl _ _)
  · exact Moves.refl _ _

theorem egrQueues_moves (qs link b cap s) : Moves [.mem, .cnt, .egr, .out] s (egrQueues qs link b cap s).2 := by
  induction qs generalizing s cap with
  | nil => exact Moves.refl _ _
  | cons q r ih =>
    unfold egrQueues
    extract_lets l
    have hl : Moves [.mem, .cnt, .egr, .out] s l.2 := (egrLive_moves ..).mono (by decide)
    have hr := egrRounds_moves 200000 l.1 link q b cap l.2
    split
    · next e => rw [e] at hr; exact hl.trans (hr.mono (by decide))
    · next e => rw [e] at hr; exact (hl.trans (hr.mono (by decide))).trans (ih ..)

theorem egrCarry_moves (a0 s) : Moves [.mem, .regs, .cnt, .hif, .egr, .ddr, .out] s (egrCarry a0 s) := by
  unfold egrCarry
  extract_lets v0 v1 v2
  have h200 : Moves [.mem, .regs, .cnt, .hif, .egr, .ddr, .out] s v1 := by
    refine Moves.seq (cadd_moves ..) (by decide) ?_
    exact Moves.refl _ _
  split
  · rename_i x201 e202
    have h203 : Moves [.mem, .regs, .cnt, .hif, .egr, .ddr, .out] s x201 := by
      refine Moves.of_snd e202 ?_
      refine Moves.seq (rateOk_moves ..) (by decide) ?_
      exact h200
    refine Moves.seq (raiseUnit_moves ..) (by decide) ?_
    refine Moves.egr_with (by decide) ?_
    exact h203
  · rename_i x204 e205
    have h206 : Moves [.mem, .regs, .cnt, .hif, .egr, .ddr, .out] s x204 := by
      refine Moves.of_snd e205 ?_
      refine Moves.seq (rateOk_moves ..) (by decide) ?_
      exact h200
    refine Moves.egr_with (by decide) ?_
    exact h206

theorem egrPf_moves (l link cap s) : Moves [.mem, .cnt, .egr, .out] s (egrPf l link cap s).2 := by
  induction l generalizing s cap with
  | nil => exact Moves.refl _ _
  | cons p r ih =>
    unfold egrPf
    refine Moves.ite_snd (ih ..) ?_
    extract_lets x g t u
    refine Moves.ite_snd (Moves.refl _ _) (Moves.trans ?_ (ih ..))
    refine Moves.seq (htxDone_moves ..) (by decide) ?_
    have ht : Moves [.mem, .cnt, .egr, .out] s t := Moves.egr_out_with (by decide) (by decide) (Moves.refl _ _)
    exact Moves.seq (cadd_moves ..) (by decide) (Moves.seq (cinc_moves ..) (by decide) (Moves.seq (cinc_moves ..) (by decide) ht))

theorem egrCas_moves (l link cap s) : Moves [.cnt, .cas, .out] s (egrCas l link cap s).2 := by
  induction l generalizing s cap with
  | nil => exact Moves.refl _ _
  | cons p r ih =>
    unfold egrCas
    refine Moves.ite_snd (ih ..) ?_
    extract_lets x t
    refine Moves.ite_snd (Moves.refl _ _) (Moves.trans ?_ (ih ..))
    refine Moves.cas_out_with (by decide) (by decide) ?_
    exact Moves.seq (cadd_moves ..) (by decide) (Moves.seq (cinc_moves ..) (by decide) (Moves.refl _ _))

theorem window_moves (a0 s) : Moves [.mem, .regs, .cnt, .hif, .ctl, .egr, .obs, .ddr, .cas, .out, .free] s (window a0 s) := by
  unfold window
  extract_lets v0 v1 v2 v3
  have h200 : Moves [.mem, .regs, .cnt, .hif, .ctl, .egr, .obs, .ddr, .cas, .out, .free] s v2 := by
    refine Moves.foldl (fun _ y201 => ?_) ?_
    · refine Moves.seq (buildLeg_moves ..) (by decide) ?_
      exact Moves.refl _ _
    · exact Moves.refl _ _
  have h202 : Moves [.mem, .regs, .cnt, .hif, .ctl, .egr, .obs, .ddr, .cas, .out, .free] s v3 := by
    refine Moves.ite ?_ ?_
    · exact h200
    · split
      · rename_i x203 e204
        have h205 : Moves [.mem, .regs, .cnt, .hif, .ctl, .egr, .obs, .ddr, .cas, .out, .free] s x203 := by
          refine Moves.of_snd e204 ?_
          refine Moves.seq (egrPf_moves ..) (by decide) ?_
          exact h200
        refine Moves.seq (egrCarry_moves ..) (by decide) ?_
        exact h205
      · rename_i x206 x207 e208
        have h209 : Moves [.mem, .regs, .cnt, .hif, .ctl, .egr, .obs, .ddr, .cas, .out, .free] s x207 := by
          refine Moves.of_snd e208 ?_
          refine Moves.seq (egrPf_moves ..) (by decide) ?_
          exact h200
        split
        · rename_i x210 e211
          have h212 : Moves [.mem, .regs, .cnt, .hif, .ctl, .egr, .obs, .ddr, .cas, .out, .free] s x210 := by
            refine Moves.of_snd e211 ?_
            refine Moves.seq (egrCas_moves ..) (by decide) ?_
            exact h209
          refine Moves.seq (egrCarry_moves ..) (by decide) ?_
          exact h212
        · rename_i x213 x214 e215
          have h216 : Moves [.mem, .regs, .cnt, .hif, .ctl, .egr, .obs, .ddr, .cas, .out, .free] s x214 := by
            refine Moves.of_snd e215 ?_
            refine Moves.seq (egrCas_moves ..) (by decide) ?_
            exact h209
          split
          · rename_i x217 e218
            have h219 : Moves [.mem, .regs, .cnt, .hif, .ctl, .egr, .obs, .ddr, .cas, .out, .free] s x217 := by
              refine Moves.of_snd e218 ?_
              refine Moves.seq (egrQueues_moves ..) (by decide) ?_
              exact h216
            refine Moves.seq (egrCarry_moves ..) (by decide) ?_
            exact h219
          · rename_i x220 x221 e222
            have h223 : Moves [.mem, .regs, .cnt, .hif, .ctl, .egr, .obs, .ddr, .cas, .out, .free] s x221 := by
              refine Moves.of_snd e222 ?_
              refine Moves.seq (egrQueues_moves ..) (by decide) ?_
              exact h216
            exact h223
  refine Moves.foldl (fun _ y224 => ?_) ?_
  · split
    · refine Moves.ite ?_ ?_
      · refine Moves.seq (cinc_moves ..) (by decide) ?_
        exact Moves.refl _ _
      · exact Moves.refl _ _
    · exact Moves.refl _ _
  · exact h202

theorem shaperRefill_moves (s) : Moves [.cnt, .egr] s (shaperRefill s) := by
  unfold shaperRefill
  refine Moves.foldl (fun _ y0 => ?_) ?_
  · split
    · extract_lets v1 v2 v3
      have h201 : Moves [.cnt, .egr] y0 v3 := by
        refine Moves.seq (egrLegPut_moves ..) (by decide) ?_
        exact Moves.refl _ _
      refine Moves.ite ?_ ?_
      · refine Moves.seq (cinc_moves ..) (by decide) ?_
        exact h201
      · exact h201
    · exact Moves.refl _ _
  · refine Moves.egr_with (by decide) ?_
    exact Moves.refl _ _

theorem reportBlocks_moves (leg b s) : Moves [.ctl] s (reportBlocks leg b s).2 := by
  unfold reportBlocks
  refine Moves.foldl_snd (fun n l y => ?_) (Moves.refl _ _)
  split
  · exact Moves.seq (streamPut_moves ..) (by decide) (Moves.refl _ _)
  · exact Moves.refl _ _

theorem egrRtcp_moves (a0 a1 a2 a3 a4 a5 s) : Moves [.egr] s (egrRtcp a0 a1 a2 a3 a4 a5 s) := by
  unfold egrRtcp
  refine Moves.seq (egrPush_moves ..) (by decide) ?_
  exact Moves.refl _ _

theorem rtcpReport_moves (a0 a1 s) : Moves [.ctl, .egr] s (rtcpReport a0 a1 s) := by
  unfold rtcpReport
  extract_lets v0 v1 v2 v3 v4 v5 v6
  have h200 : Moves [.ctl, .egr] s v1 := by
    refine Moves.seq (egrLegPut_moves ..) (by decide) ?_
    exact Moves.refl _ _
  have h201 : Moves [.ctl, .egr] s v3 := by
    unfold v3
    refine Moves.seq (reportBlocks_moves ..) (by decide) ?_
    exact h200
  have h202 : Moves [.ctl, .egr] s v6 := by
    refine Moves.foldl (fun _ y203 => ?_) ?_
    · refine Moves.seq (egrStrPut_moves ..) (by decide) ?_
      exact Moves.refl _ _
    · exact h201
  unfold v4
  split
  · refine Moves.seq (egrRtcp_moves ..) (by decide) ?_
    exact h201
  · extract_lets v204 v205
    refine Moves.seq (egrRtcp_moves ..) (by decide) ?_
    exact h202

theorem rtcpFeedback_moves (a0 a1 a2 s) : Moves [.egr] s (rtcpFeedback a0 a1 a2 s) := by
  unfold rtcpFeedback
  split
  · exact Moves.refl _ _
  · extract_lets v0
    refine Moves.ite ?_ ?_
    · refine Moves.seq (egrRtcp_moves ..) (by decide) ?_
      exact Moves.refl _ _
    · refine Moves.seq (egrRtcp_moves ..) (by decide) ?_
      exact Moves.refl _ _

end Sys2Proof.Machine
end

