-- ==== Sys2Proof/Laws/ChCasNet.lean ====
section
/-! SUPPORT. What each operation of Machine/CasNet.lean may change: one lemma for each, which says every part of State that it
can alter, and that it keeps the invariant. -/

set_option Elab.async false

namespace Sys2Proof.Machine

theorem casPeerPut_moves (a0 a1 s) : Moves [.cas] s (casPeerPut a0 a1 s) := by
  unfold casPeerPut
  refine Moves.cas_with (by decide) ?_
  exact Moves.refl _ _

theorem casSync_moves (a0 s) : Moves [.regs] s (casSync a0 s) := by
  unfold casSync
  extract_lets v0 v1 v2
  refine Moves.seq (fset_moves ..) (by decide) ?_
  refine Moves.seq (fset_moves ..) (by decide) ?_
  exact Moves.refl _ _

theorem casOwnPut_moves (a0 a1 a2 s) : Moves [.cas] s (casOwnPut a0 a1 a2 s) := by
  unfold casOwnPut
  refine Moves.cas_with (by decide) ?_
  exact Moves.refl _ _

theorem casFrame_moves (a0 a1 a2 s) : Moves [.cas, .free] s (casFrame a0 a1 a2 s) := by
  unfold casFrame
  extract_lets v0 v1 v2
  split
  · rename_i x200 x201 e202
    have h203 : Moves [.cas, .free] s x201 := by
      refine Moves.of_snd e202 ?_
      refine Moves.seq (takeFree_moves ..) (by decide) ?_
      exact Moves.refl _ _
    split
    · exact h203
    · refine Moves.cas_with (by decide) ?_
      exact h203

theorem casSend_moves (a0 a1 a2 a3 a4 a5 s) : Moves [.cnt, .cas, .free] s (casSend a0 a1 a2 a3 a4 a5 s) := by
  unfold casSend
  extract_lets v0 v1 v2 v3 v4 v5 v6 v7
  have h4 : Moves [.cnt, .cas, .free] s v4 := Moves.cas_with (by decide) (Moves.refl _ _)
  have h6 : ∀ n l y, Moves [.cnt, .cas, .free] s y → Moves [.cnt, .cas, .free] s (v6 n l y) := fun n l y hy =>
    Moves.seq (casFrame_moves ..) (by decide) (Moves.ite (Moves.seq (tagServed_moves ..) (by decide) hy) hy)
  have h7 : Moves [.cnt, .cas, .free] s v7 := h6 _ _ _ h4
  exact Moves.ite (Moves.refl _ _) (Moves.ite (h6 _ _ _ h7) h7)

theorem casRequest_moves (a0 a1 s) : Moves [.cnt, .cas, .free] s (casRequest a0 a1 s) := by
  unfold casRequest
  refine Moves.seq (casSend_moves ..) (by decide) ?_
  exact Moves.refl _ _

end Sys2Proof.Machine
end

