-- ==== Sys2Proof/Laws/ChSrc.lean ====
section
/-! SUPPORT. What each operation of Machine/Src.lean may change: one lemma for each, which says every part of State that it
can alter, and that it keeps the invariant. -/

set_option Elab.async false

namespace Sys2Proof.Machine

theorem bankSync_moves (s) : Moves [.regs] s (bankSync s) := by
  unfold bankSync
  extract_lets v0 v1 v2
  have h200 : Moves [.regs] s v2 := by
    refine Moves.seq (fset_moves ..) (by decide) ?_
    refine Moves.seq (fset_moves ..) (by decide) ?_
    refine Moves.seq (fset_moves ..) (by decide) ?_
    exact Moves.refl _ _
  refine Moves.seq (fset_moves ..) (by decide) ?_
  refine Moves.seq (fset_moves ..) (by decide) ?_
  refine Moves.seq (fset_moves ..) (by decide) ?_
  refine Moves.seq (fset_moves ..) (by decide) ?_
  exact h200

theorem bankPut_moves (a0 a1 s) : Moves [.regs, .src] s (bankPut a0 a1 s) := by
  unfold bankPut
  refine Moves.seq (bankSync_moves ..) (by decide) ?_
  refine Moves.src_with (by decide) ?_
  exact Moves.refl _ _

end Sys2Proof.Machine
end

