-- ==== Sys2Proof/Laws/ChAudSel.lean ====
section
/-! SUPPORT. What each operation of Machine/AudSel.lean may change: one lemma for each, which says every part of State that it
can alter, and that it keeps the invariant. -/

set_option Elab.async false

namespace Sys2Proof.Machine

theorem actAudPut_moves (a0 a1 s) : Moves [.aud] s (actAudPut a0 a1 s) := by
  unfold actAudPut
  refine Moves.aud_with (by decide) ?_
  exact Moves.refl _ _

theorem legAudPut_moves (a0 a1 s) : Moves [.aud] s (legAudPut a0 a1 s) := by
  unfold legAudPut
  refine Moves.aud_with (by decide) ?_
  exact Moves.refl _ _

theorem topnChange_moves (a0 a1 a2 s) : Moves [.mem, .regs, .cnt, .hif, .ddr, .out] s (topnChange a0 a1 a2 s) := by
  unfold topnChange
  split
  · exact Moves.refl _ _
  · extract_lets v0 v1
    refine Moves.ite ?_ ?_
    · exact Moves.refl _ _
    · refine Moves.foldl (fun _ y200 => ?_) ?_
      · refine Moves.seq (raiseObj_moves ..) (by decide) ?_
        exact Moves.refl _ _
      · exact Moves.refl _ _

theorem legFresh_moves (a0 s) : Moves [.aud] s (legFresh a0 s) := by
  unfold legFresh
  refine Moves.ite ?_ ?_
  · exact Moves.refl _ _
  · refine Moves.seq (legAudPut_moves ..) (by decide) ?_
    exact Moves.refl _ _

theorem selJoin_moves (a0 a1 a2 s) : Moves [.aud] s (selJoin a0 a1 a2 s) := by
  unfold selJoin
  extract_lets v0
  refine Moves.seq (legFresh_moves ..) (by decide) ?_
  refine Moves.seq (actAudPut_moves ..) (by decide) ?_
  exact Moves.refl _ _

theorem selPurge_moves (a0 a1 s) : Moves [.mem, .regs, .cnt, .hif, .aud, .ddr, .out] s (selPurge a0 a1 s) := by
  unfold selPurge
  extract_lets v0 v1 v2
  refine Moves.seq (topnChange_moves ..) (by decide) ?_
  refine Moves.seq (actAudPut_moves ..) (by decide) ?_
  exact Moves.refl _ _

theorem selAdvance_moves (a0 a1 s) : Moves [.mem, .regs, .cnt, .hif, .aud, .ddr, .out] s (selAdvance a0 a1 s) := by
  unfold selAdvance
  extract_lets v0 v1 v2 v3 v4 v5 v6
  have h200 : Moves [.mem, .regs, .cnt, .hif, .aud, .ddr, .out] s v5 := by
    refine Moves.seq (actAudPut_moves ..) (by decide) ?_
    exact Moves.refl _ _
  have h201 : Moves [.mem, .regs, .cnt, .hif, .aud, .ddr, .out] s v6 := by
    refine Moves.foldl (fun _ y202 => ?_) ?_
    · refine Moves.seq (selJoin_moves ..) (by decide) ?_
      exact Moves.refl _ _
    · exact h200
  refine Moves.seq (topnChange_moves ..) (by decide) ?_
  exact h201

theorem selFade_moves (a0 a1 a2 s) : Moves [.aud] s (selFade a0 a1 a2 s) := by
  unfold selFade
  extract_lets v0
  refine Moves.seq (actAudPut_moves ..) (by decide) ?_
  exact Moves.refl _ _

theorem selCands_moves (act b cs s) : Moves [.mem, .regs, .cnt, .hif, .aud, .ddr, .out] s (selCands act b cs s) := by
  induction cs generalizing s with
  | nil => exact Moves.refl _ _
  | cons c r ih =>
    unfold selCands
    extract_lets x h
    refine Moves.ite (Moves.trans ?_ (ih _)) (Moves.ite (Moves.refl _ _) ?_)
    · exact Moves.seq (topnChange_moves ..) (by decide) ((selJoin_moves ..).mono (by decide))
    · split
      · exact Moves.refl _ _
      · refine Moves.ite ?_ (Moves.refl _ _)
        extract_lets t y
        have ht : Moves [.mem, .regs, .cnt, .hif, .aud, .ddr, .out] s t := (selFade_moves ..).mono (by decide)
        exact (Moves.seq (cinc_moves ..) (by decide) (Moves.seq (cinc_moves ..) (by decide)
          (Moves.seq (actAudPut_moves ..) (by decide) ht)))

theorem selRun_moves (a0 a1 s) : Moves [.mem, .regs, .cnt, .hif, .aud, .ddr, .out] s (selRun a0 a1 s) := by
  unfold selRun
  refine Moves.ite ?_ ?_
  · exact Moves.refl _ _
  · extract_lets v0 v1 v2 v3 v4 v5
    have h200 : Moves [.mem, .regs, .cnt, .hif, .aud, .ddr, .out] s v0 := by
      refine Moves.seq (selPurge_moves ..) (by decide) ?_
      refine Moves.seq (selAdvance_moves ..) (by decide) ?_
      exact Moves.refl _ _
    have h201 : Moves [.mem, .regs, .cnt, .hif, .aud, .ddr, .out] s v2 := by
      refine Moves.ite ?_ ?_
      · refine Moves.seq (actAudPut_moves ..) (by decide) ?_
        exact h200
      · exact h200
    have h202 : Moves [.mem, .regs, .cnt, .hif, .aud, .ddr, .out] s v5 := by
      refine Moves.seq (selCands_moves ..) (by decide) ?_
      exact h201
    refine Moves.foldl (fun _ y203 => ?_) ?_
    · refine Moves.ite ?_ ?_
      · exact Moves.refl _ _
      · refine Moves.seq (cinc_moves ..) (by decide) ?_
        exact Moves.refl _ _
    · exact h202

theorem selLower_moves (a0 a1 a2 s) : Moves [.aud] s (selLower a0 a1 a2 s) := by
  unfold selLower
  extract_lets v0 v1 v2
  refine Moves.foldl (fun _ y200 => ?_) ?_
  · extract_lets v201
    refine Moves.ite ?_ ?_
    · refine Moves.seq (actAudPut_moves ..) (by decide) ?_
      exact Moves.refl _ _
    · refine Moves.seq (selFade_moves ..) (by decide) ?_
      exact Moves.refl _ _
  · exact Moves.refl _ _

theorem concealStart_moves (a0 a1 s) : Moves [.mem, .regs, .cnt, .hif, .aud, .ddr, .out] s (concealStart a0 a1 s) := by
  unfold concealStart
  extract_lets v0 v1
  refine Moves.ite ?_ ?_
  · exact Moves.refl _ _
  · split
    · rename_i x200 e201
      have h202 : Moves [.mem, .regs, .cnt, .hif, .aud, .ddr, .out] s x200 := by
        refine Moves.of_snd e201 ?_
        refine Moves.seq (rateOk_moves ..) (by decide) ?_
        exact Moves.refl _ _
      refine Moves.seq (raiseObj_moves ..) (by decide) ?_
      refine Moves.seq (legAudPut_moves ..) (by decide) ?_
      exact h202
    · rename_i x203 e204
      have h205 : Moves [.mem, .regs, .cnt, .hif, .aud, .ddr, .out] s x203 := by
        refine Moves.of_snd e204 ?_
        refine Moves.seq (rateOk_moves ..) (by decide) ?_
        exact Moves.refl _ _
      refine Moves.seq (legAudPut_moves ..) (by decide) ?_
      exact h205

theorem legMissed_moves (a0 a1 s) : Moves [.mem, .regs, .cnt, .hif, .aud, .ddr, .out] s (legMissed a0 a1 s) := by
  unfold legMissed
  split
  · exact Moves.refl _ _
  · extract_lets v0 v1 v2 v3
    have h200 : Moves [.mem, .regs, .cnt, .hif, .aud, .ddr, .out] s v3 := by
      refine Moves.seq (legAudPut_moves ..) (by decide) ?_
      exact Moves.refl _ _
    refine Moves.ite ?_ ?_
    · exact Moves.refl _ _
    · refine Moves.seq (cinc_moves ..) (by decide) ?_
      refine Moves.ite ?_ ?_
      · refine Moves.seq (concealStart_moves ..) (by decide) ?_
        exact h200
      · exact h200

end Sys2Proof.Machine
end

