-- ==== Sys2Proof/Laws/ChStage.lean ====
section
/-! SUPPORT. What each operation of Machine/Stage.lean may change: one lemma for each, which says every part of State that it
can alter, and that it keeps the invariant. -/

set_option Elab.async false

namespace Sys2Proof.Machine

theorem stageArm_moves (a0 a1 a2 a3 s) : Moves [.regs, .src] s (stageArm a0 a1 a2 a3 s) := by
  unfold stageArm
  refine Moves.ite ?_ ?_
  · refine Moves.seq (fset_moves ..) (by decide) ?_
    exact Moves.refl _ _
  · refine Moves.seq (fset_moves ..) (by decide) ?_
    refine Moves.src_with (by decide) ?_
    exact Moves.refl _ _

theorem stageEnd_moves (a0 a1 a2 a3 a4 a5 a6 a7 s) : Moves [.mem, .regs, .cnt, .hif, .src, .obs, .ddr, .out] s (stageEnd a0 a1 a2 a3 a4 a5 a6 a7 s) := by
  unfold stageEnd
  extract_lets v0 v1 v2 v3 v4
  have h200 : Moves [.mem, .regs, .cnt, .hif, .src, .obs, .ddr, .out] s v2 := by
    refine Moves.seq (fset_moves ..) (by decide) ?_
    refine Moves.src_with (by decide) ?_
    exact Moves.refl _ _
  have h201 : Moves [.mem, .regs, .cnt, .hif, .src, .obs, .ddr, .out] s v3 := by
    refine Moves.seq (fset_moves ..) (by decide) ?_
    refine Moves.seq (fset_moves ..) (by decide) ?_
    refine Moves.seq (fset_moves ..) (by decide) ?_
    refine Moves.seq (fset_moves ..) (by decide) ?_
    exact h200
  have h202 : Moves [.mem, .regs, .cnt, .hif, .src, .obs, .ddr, .out] s v4 := by
    refine Moves.ite ?_ ?_
    · refine Moves.seq (traceConfig_moves ..) (by decide) ?_
      exact h201
    · exact h201
  refine Moves.seq (raiseIssuer_moves ..) (by decide) ?_
  exact h202

end Sys2Proof.Machine
end

