-- ==== Sys2Proof/Laws/ChTdm.lean ====
section
/-! SUPPORT. What each operation of Machine/Tdm.lean may change: one lemma for each, which says every part of State that it
can alter, and that it keeps the invariant. -/

set_option Elab.async false

namespace Sys2Proof.Machine

theorem tdmPortPut_moves (a0 a1 s) : Moves [.src] s (tdmPortPut a0 a1 s) := by
  unfold tdmPortPut
  refine Moves.src_with (by decide) ?_
  exact Moves.refl _ _

theorem tdmSettle_moves (a0 s) : Moves [.regs] s (tdmSettle a0 s) := by
  unfold tdmSettle
  extract_lets v0 v1 v2 v3
  have h200 : Moves [.regs] s v3 := by
    refine Moves.ite ?_ ?_
    · refine Moves.foldl (fun _ y201 => ?_) ?_
      · refine Moves.seq (fset_moves ..) (by decide) ?_
        exact Moves.refl _ _
      · exact Moves.refl _ _
    · exact Moves.refl _ _
  refine Moves.seq (fset_moves ..) (by decide) ?_
  exact h200

theorem tdmSlip_moves (a0 a1 a2 a3 s) : Moves [.mem, .regs, .cnt, .hif, .src, .obs, .ddr, .out] s (tdmSlip a0 a1 a2 a3 s) := by
  unfold tdmSlip
  refine Moves.ite ?_ ?_
  · exact Moves.refl _ _
  · extract_lets v0 v1 v2 v3 v4
    have h200 : Moves [.mem, .regs, .cnt, .hif, .src, .obs, .ddr, .out] s v0 := by
      refine Moves.seq (cadd_moves ..) (by decide) ?_
      exact Moves.refl _ _
    have h201 : Moves [.mem, .regs, .cnt, .hif, .src, .obs, .ddr, .out] s v1 := by
      refine Moves.foldl (fun _ y202 => ?_) ?_
      · refine Moves.seq (cadd_moves ..) (by decide) ?_
        exact Moves.refl _ _
      · exact h200
    have h203 : Moves [.mem, .regs, .cnt, .hif, .src, .obs, .ddr, .out] s v2 := by
      refine Moves.ite ?_ ?_
      · refine Moves.foldl (fun _ y204 => ?_) ?_
        · split
          · refine Moves.seq (determinismLost_moves ..) (by decide) ?_
            exact Moves.refl _ _
          · exact Moves.refl _ _
        · exact h201
      · exact h201
    split
    · rename_i x205 e206
      have h207 : Moves [.mem, .regs, .cnt, .hif, .src, .obs, .ddr, .out] s x205 := by
        refine Moves.of_snd e206 ?_
        refine Moves.seq (rateOk_moves ..) (by decide) ?_
        exact h203
      refine Moves.seq (raiseUnit_moves ..) (by decide) ?_
      refine Moves.seq (tdmPortPut_moves ..) (by decide) ?_
      exact h207
    · rename_i x208 e209
      have h210 : Moves [.mem, .regs, .cnt, .hif, .src, .obs, .ddr, .out] s x208 := by
        refine Moves.of_snd e209 ?_
        refine Moves.seq (rateOk_moves ..) (by decide) ?_
        exact h203
      refine Moves.seq (tdmPortPut_moves ..) (by decide) ?_
      exact h210

theorem tdmSend_moves (a0 s) : Moves [.cnt, .src, .out, .free] s (tdmSend a0 s) := by
  unfold tdmSend
  extract_lets v0 v1 v2 v3 v4 v5 v6 v7
  have h200 : Moves [.cnt, .src, .out, .free] s v7 := by
    unfold v7
    unfold v5
    split
    · refine Moves.mk_snd ?_
      refine Moves.seq (tdmPortPut_moves ..) (by decide) ?_
      exact Moves.refl _ _
    · refine Moves.mk_snd ?_
      refine Moves.seq (tdmPortPut_moves ..) (by decide) ?_
      exact Moves.refl _ _
    · refine Moves.mk_snd ?_
      refine Moves.seq (takeFree_moves ..) (by decide) ?_
      exact Moves.refl _ _
  refine Moves.seq (cinc_moves ..) (by decide) ?_
  refine Moves.out_with (by decide) ?_
  exact h200

theorem tdmTake_moves (a0 a1 s) : Moves [.mem, .regs, .cnt, .hif, .src, .obs, .ddr, .out] s (tdmTake a0 a1 s) := by
  unfold tdmTake
  extract_lets v0 v1 v2 v3 v4
  have h200 : Moves [.mem, .regs, .cnt, .hif, .src, .obs, .ddr, .out] s v2 := by
    refine Moves.seq (cinc_moves ..) (by decide) ?_
    exact Moves.refl _ _
  have h201 : Moves [.mem, .regs, .cnt, .hif, .src, .obs, .ddr, .out] s v3 := by
    refine Moves.seq (fset_moves ..) (by decide) ?_
    exact h200
  refine Moves.ite ?_ ?_
  · exact Moves.refl _ _
  · refine Moves.ite ?_ ?_
    · refine Moves.seq (tdmSlip_moves ..) (by decide) ?_
      refine Moves.seq (tdmPortPut_moves ..) (by decide) ?_
      exact h200
    · refine Moves.ite ?_ ?_
      · refine Moves.seq (tdmSlip_moves ..) (by decide) ?_
        refine Moves.seq (tdmPortPut_moves ..) (by decide) ?_
        exact h201
      · refine Moves.seq (tdmPortPut_moves ..) (by decide) ?_
        exact h200

theorem tdmBlock_moves (a0 s) : Moves [.mem, .regs, .cnt, .hif, .src, .obs, .ddr, .out] s (tdmBlock a0 s).2 := by
  unfold tdmBlock
  extract_lets v0 v1 v2 v3 v4 v5 v6 v7
  have h200 : Moves [.mem, .regs, .cnt, .hif, .src, .obs, .ddr, .out] s v6 := by
    refine Moves.seq (fset_moves ..) (by decide) ?_
    refine Moves.seq (fset_moves ..) (by decide) ?_
    exact Moves.refl _ _
  have h201 : Moves [.mem, .regs, .cnt, .hif, .src, .obs, .ddr, .out] s v7 := by
    refine Moves.seq (tdmPortPut_moves ..) (by decide) ?_
    exact h200
  refine Moves.mk_snd ?_
  refine Moves.ite ?_ ?_
  · exact h201
  · refine Moves.seq (tdmSlip_moves ..) (by decide) ?_
    exact h201

theorem tdmFeed_moves (a0 a1 a2 a3 a4 s) : Moves [.cnt, .ctl, .aud, .obs] s (tdmFeed a0 a1 a2 a3 a4 s) := by
  unfold tdmFeed
  refine Moves.ite ?_ ?_
  · exact Moves.refl _ _
  · extract_lets v0 v1 v2 v3 v4 v5 v6 v7
    have h200 : Moves [.cnt, .ctl, .aud, .obs] s v6 := by
      refine Moves.seq (legAudPut_moves ..) (by decide) ?_
      exact Moves.refl _ _
    have h201 : Moves [.cnt, .ctl, .aud, .obs] s v7 := by
      unfold v7
      split
      · refine Moves.seq (capNote_moves ..) (by decide) ?_
        exact h200
      · exact h200
    refine Moves.ite ?_ ?_
    · exact h201
    · refine Moves.seq (degraded_moves ..) (by decide) ?_
      exact h201

theorem tdmBlocks_moves (a0 s) : Moves [.mem, .regs, .cnt, .hif, .ctl, .aud, .src, .obs, .ddr, .out] s (tdmBlocks a0 s) := by
  unfold tdmBlocks
  refine Moves.foldl (fun _ y0 => ?_) ?_
  · refine Moves.ite ?_ ?_
    · exact Moves.refl _ _
    · extract_lets v1
      refine Moves.foldl (fun _ y201 => ?_) ?_
      · split
        · refine Moves.seq (tdmFeed_moves ..) (by decide) ?_
          exact Moves.refl _ _
        · exact Moves.refl _ _
      · refine Moves.seq (tdmBlock_moves ..) (by decide) ?_
        exact Moves.refl _ _
  · exact Moves.refl _ _

theorem tdmPlace_moves (a0 a1 s) : Moves [.src] s (tdmPlace a0 a1 s) := by
  unfold tdmPlace
  split
  · exact Moves.refl _ _
  · extract_lets v0 v1 v2
    refine Moves.seq (tdmPortPut_moves ..) (by decide) ?_
    exact Moves.refl _ _

theorem srcGo_moves (a0 s) : Moves [.regs, .src] s (srcGo a0 s) := by
  unfold srcGo
  refine Moves.seq (stageArm_moves ..) (by decide) ?_
  exact Moves.refl _ _

theorem srcRestart_moves (a0 a1 s) : Moves [.cnt, .aud] s (srcRestart a0 a1 s) := by
  unfold srcRestart
  extract_lets v0 v1 v2 v3
  have h200 : Moves [.cnt, .aud] s v1 := by
    refine Moves.foldl (fun _ y201 => ?_) ?_
    · refine Moves.seq (cinc_moves ..) (by decide) ?_
      refine Moves.seq (legAudPut_moves ..) (by decide) ?_
      exact Moves.refl _ _
    · exact Moves.refl _ _
  refine Moves.seq (cadd_moves ..) (by decide) ?_
  refine Moves.seq (actAudPut_moves ..) (by decide) ?_
  exact h200

theorem srcSelect_moves (fn act sel s) : Moves [.regs, .cnt, .aud] s (srcSelect fn act sel s).2 := by
  unfold srcSelect
  refine Moves.ite_snd (Moves.refl _ _) ?_
  split
  · exact Moves.refl _ _
  · extract_lets x put n
    have hp : ∀ v, Moves [.regs, .cnt, .aud] s (put v) := by
      intro v
      unfold put
      extract_lets t
      have ht : Moves [.regs, .cnt, .aud] s t := (actAudPut_moves ..).mono (by decide)
      refine Moves.seq (bankSync_moves ..) (by decide) (Moves.foldl (fun _ _ => ?_) ht)
      exact Moves.ite ((srcRestart_moves ..).mono (by decide)) (Moves.refl _ _)
    refine Moves.ite_snd (hp _) (Moves.ite_snd (hp _) (Moves.ite_snd ?_ (Moves.refl _ _)))
    exact Moves.ite_snd (Moves.refl _ _) (Moves.ite_snd (Moves.refl _ _) (hp _))

theorem egressRestart_moves (a0 a1 s) : Moves [.cnt, .aud] s (egressRestart a0 a1 s) := by
  unfold egressRestart
  extract_lets v0 v1
  refine Moves.seq (cadd_moves ..) (by decide) ?_
  refine Moves.seq (actAudPut_moves ..) (by decide) ?_
  exact Moves.refl _ _

theorem srcBind_moves (a0 a1 a2 a3 a4 a5 a6 s) : Moves [.cnt, .aud, .src] s (srcBind a0 a1 a2 a3 a4 a5 a6 s).2 := by
  unfold srcBind
  extract_lets v0 v1 v2
  have h200 : Moves [.cnt, .aud, .src] s v2 := by
    refine Moves.seq (legAudPut_moves ..) (by decide) ?_
    exact Moves.refl _ _
  refine Moves.ite_snd ?_ ?_
  · refine Moves.mk_snd ?_
    exact Moves.refl _ _
  · split
    · refine Moves.mk_snd ?_
      exact Moves.refl _ _
    · refine Moves.ite_snd ?_ ?_
      · refine Moves.mk_snd ?_
        exact Moves.refl _ _
      · refine Moves.ite_snd ?_ ?_
        · refine Moves.mk_snd ?_
          exact Moves.refl _ _
        · refine Moves.ite_snd ?_ ?_
          · refine Moves.mk_snd ?_
            exact Moves.refl _ _
          · refine Moves.ite_snd ?_ ?_
            · refine Moves.mk_snd ?_
              exact Moves.refl _ _
            · extract_lets v201 v202
              have h401 : Moves [.cnt, .aud, .src] s v201 := by
                refine Moves.seq (egressRestart_moves ..) (by decide) ?_
                exact h200
              refine Moves.mk_snd ?_
              refine Moves.seq (cinc_moves ..) (by decide) ?_
              refine Moves.src_with (by decide) ?_
              exact h401

theorem srcUnbind_moves (a0 a1 s) : Moves [.aud, .src] s (srcUnbind a0 a1 s).2 := by
  unfold srcUnbind
  refine Moves.ite_snd ?_ ?_
  · refine Moves.mk_snd ?_
    exact Moves.refl _ _
  · refine Moves.ite_snd ?_ ?_
    · refine Moves.mk_snd ?_
      exact Moves.refl _ _
    · extract_lets v0 v1 v2
      have h200 : Moves [.aud, .src] s v1 := by
        refine Moves.seq (legAudPut_moves ..) (by decide) ?_
        exact Moves.refl _ _
      refine Moves.mk_snd ?_
      refine Moves.src_with (by decide) ?_
      exact h200

theorem srcApply_moves (a0 a1 s) : Moves [.mem, .regs, .cnt, .hif, .aud, .src, .obs, .ddr, .out] s (srcApply a0 a1 s) := by
  unfold srcApply
  split
  · exact Moves.refl _ _
  · extract_lets v0
    refine Moves.seq (stageEnd_moves ..) (by decide) ?_
    unfold v0
    split
    · refine Moves.seq (srcSelect_moves ..) (by decide) ?_
      exact Moves.refl _ _
    · refine Moves.seq (srcBind_moves ..) (by decide) ?_
      exact Moves.refl _ _
    · refine Moves.seq (srcUnbind_moves ..) (by decide) ?_
      exact Moves.refl _ _
    · refine Moves.mk_snd ?_
      exact Moves.refl _ _

theorem bankCoef_moves (a0 s) : Moves [.regs, .src] s (bankCoef a0 s) := by
  unfold bankCoef
  extract_lets v0 v1
  refine Moves.ite ?_ ?_
  · refine Moves.seq (bankPut_moves ..) (by decide) ?_
    exact Moves.refl _ _
  · refine Moves.ite ?_ ?_
    · refine Moves.ite ?_ ?_
      · exact Moves.refl _ _
      · refine Moves.seq (bankPut_moves ..) (by decide) ?_
        exact Moves.refl _ _
    · refine Moves.seq (bankPut_moves ..) (by decide) ?_
      exact Moves.refl _ _

theorem bankCommit_moves (s) : Moves [.regs, .src] s (bankCommit s) := by
  unfold bankCommit
  extract_lets v0 v1 v2 v3 v4
  split
  · refine Moves.seq (bankPut_moves ..) (by decide) ?_
    exact Moves.refl _ _
  · refine Moves.seq (bankPut_moves ..) (by decide) ?_
    exact Moves.refl _ _
  · refine Moves.ite ?_ ?_
    · refine Moves.seq (bankPut_moves ..) (by decide) ?_
      exact Moves.refl _ _
    · refine Moves.seq (bankPut_moves ..) (by decide) ?_
      exact Moves.refl _ _

theorem bankAbort_moves (s) : Moves [.regs, .src] s (bankAbort s) := by
  unfold bankAbort
  extract_lets v0 v1 v2
  refine Moves.ite ?_ ?_
  · refine Moves.seq (bankPut_moves ..) (by decide) ?_
    exact Moves.refl _ _
  · exact Moves.refl _ _

theorem bankClear_moves (s) : Moves [.regs, .src] s (bankClear s) := by
  unfold bankClear
  extract_lets v0 v1 v2
  refine Moves.ite ?_ ?_
  · refine Moves.seq (bankPut_moves ..) (by decide) ?_
    exact Moves.refl _ _
  · refine Moves.ite ?_ ?_
    · exact Moves.refl _ _
    · refine Moves.seq (bankPut_moves ..) (by decide) ?_
      exact Moves.refl _ _

end Sys2Proof.Machine
end

