-- ==== Sys2Proof/Laws/ChAud.lean ====
section
/-! SUPPORT. What each operation of Machine/Aud.lean may change: one lemma for each, which says every part of State that it
can alter, and that it keeps the invariant. -/

set_option Elab.async false

namespace Sys2Proof.Machine

theorem audConvert_moves (act code egress x c legs s) : Moves [.cnt] s (audConvert act code egress x c legs s).2.2 := by
  unfold audConvert
  extract_lets r settle clip t u
  have h1 : ∀ a n s, Moves [.cnt] s (cadd a n s) := fun _ _ _ => (cadd_moves ..).mono (by decide)
  have ht : Moves [.cnt] s t := (h1 ..).trans (h1 ..)
  exact Moves.foldl (fun _ _ => (h1 ..).trans (h1 ..)) ht

theorem legSamples_moves (leg act b l s) : Moves [.cnt, .aud] s (legSamples leg act b l s).2 := by
  have hp : ∀ x s, Moves [.cnt, .aud] s (legAudPut leg x s) := fun _ _ => (legAudPut_moves ..).mono (by decide)
  unfold legSamples
  extract_lets x got t
  have ht : Moves [.cnt, .aud] s t := hp ..
  split
  · exact ht
  · refine Moves.ite_snd ht ?_
    extract_lets r
    exact (ht.trans ((audConvert_moves ..).mono (by decide))).trans (hp ..)

theorem legFading_moves (a0 a1 a2 s) : Moves [.cnt, .aud] s (legFading a0 a1 a2 s).2 := by
  unfold legFading
  split
  · refine Moves.mk_snd ?_
    refine Moves.seq (legAudPut_moves ..) (by decide) ?_
    exact Moves.refl _ _
  · extract_lets v0 v1
    split
    · refine Moves.mk_snd ?_
      refine Moves.seq (legAudPut_moves ..) (by decide) ?_
      refine Moves.seq (legSamples_moves ..) (by decide) ?_
      exact Moves.refl _ _
    · refine Moves.mk_snd ?_
      refine Moves.seq (legAudPut_moves ..) (by decide) ?_
      refine Moves.seq (legSamples_moves ..) (by decide) ?_
      exact Moves.refl _ _

theorem legClose_moves (a0 a1 a2 s) : Moves [.cnt, .aud] s (legClose a0 a1 a2 s).2 := by
  unfold legClose
  extract_lets v0 v1 v2 v3 v4
  refine Moves.ite_snd ?_ ?_
  · refine Moves.seq (legFading_moves ..) (by decide) ?_
    refine Moves.seq (legAudPut_moves ..) (by decide) ?_
    exact Moves.refl _ _
  · split
    · refine Moves.mk_snd ?_
      refine Moves.seq (legAudPut_moves ..) (by decide) ?_
      refine Moves.seq (legSamples_moves ..) (by decide) ?_
      exact Moves.refl _ _
    · extract_lets v200 v201 v202
      refine Moves.mk_snd ?_
      refine Moves.seq (legAudPut_moves ..) (by decide) ?_
      refine Moves.seq (legSamples_moves ..) (by decide) ?_
      exact Moves.refl _ _

theorem mixOut_moves (act v s) : Moves [.mem, .regs, .cnt, .hif, .aud, .ddr, .out] s (mixOut act v s).2 := by
  unfold mixOut
  extract_lets o n t x k
  have ht : Moves [.mem, .regs, .cnt, .hif, .aud, .ddr, .out] s t := Moves.seq (cadd_moves ..) (by decide) ((cadd_moves ..).mono (by decide))
  have hr : Moves [.mem, .regs, .cnt, .hif, .aud, .ddr, .out] s (rateOk (rateKey EV_CLIPPING act) 2000 t).2 := Moves.seq (rateOk_moves ..) (by decide) ht
  refine Moves.ite_snd (Moves.refl _ _) ?_
  split
  · next h _ =>
    rw [h] at hr
    exact Moves.seq (raiseObj_moves ..) (by decide) (Moves.seq (actAudPut_moves ..) (by decide) hr)
  · next h _ =>
    rw [h] at hr
    exact Moves.seq (actAudPut_moves ..) (by decide) hr

theorem mixesOf_moves (act parts ids remote s) : Moves [.mem, .regs, .cnt, .hif, .aud, .ddr, .out] s (mixesOf act parts ids remote s).2 := by
  unfold mixesOf
  extract_lets m c r
  exact Moves.foldl_pair (f := fun n y => mixOut act (subLists m (tget zeros24 parts n)) y) (g := fun t n q => tset t n q)
    (fun n y => mixOut_moves act _ y) (mixOut_moves ..)

theorem casNote_moves (a0 a1 s) : Moves [.cas] s (casNote a0 a1 s) := by
  unfold casNote
  split
  · exact Moves.refl _ _
  · extract_lets v0 v1 v2 v3 v4
    have h200 : Moves [.cas] s v3 := by
      refine Moves.seq (casOwnPut_moves ..) (by decide) ?_
      exact Moves.refl _ _
    split
    · refine Moves.ite ?_ ?_
      · refine Moves.seq (casOwnPut_moves ..) (by decide) ?_
        exact h200
      · exact h200
    · exact h200

theorem casDups_moves (a0 a1 s) : Moves [.mem, .regs, .cnt, .hif, .ddr, .out] s (casDups a0 a1 s) := by
  unfold casDups
  split
  · exact Moves.refl _ _
  · extract_lets v0 v1 v2
    refine Moves.foldl (fun _ y200 => ?_) ?_
    · refine Moves.seq (raise_moves ..) (by decide) ?_
      exact Moves.refl _ _
    · exact Moves.refl _ _

theorem casKeep_moves (a0 a1 a2 s) : Moves [.cas] s (casKeep a0 a1 a2 s) := by
  unfold casKeep
  split
  · exact Moves.refl _ _
  · extract_lets v0 v1
    refine Moves.seq (casOwnPut_moves ..) (by decide) ?_
    exact Moves.refl _ _

theorem casReport_moves (a0 a1 a2 a3 s) : Moves [.mem, .regs, .cnt, .hif, .ctl, .obs, .ddr, .out] s (casReport a0 a1 a2 a3 s) := by
  unfold casReport
  extract_lets v0 v1
  have h200 : Moves [.mem, .regs, .cnt, .hif, .ctl, .obs, .ddr, .out] s v1 := by
    refine Moves.ite ?_ ?_
    · refine Moves.foldl (fun _ y201 => ?_) ?_
      · refine Moves.ite ?_ ?_
        · refine Moves.seq (degraded_moves ..) (by decide) ?_
          exact Moves.refl _ _
        · exact Moves.refl _ _
      · refine Moves.seq (determinismLost_moves ..) (by decide) ?_
        exact Moves.refl _ _
    · exact Moves.refl _ _
  split
  · exact h200
  · split
    · rename_i x202 e203
      have h204 : Moves [.mem, .regs, .cnt, .hif, .ctl, .obs, .ddr, .out] s x202 := by
        refine Moves.of_snd e203 ?_
        refine Moves.seq (rateOk_moves ..) (by decide) ?_
        exact h200
      refine Moves.seq (raise_moves ..) (by decide) ?_
      exact h204
    · rename_i x205 e206
      have h207 : Moves [.mem, .regs, .cnt, .hif, .ctl, .obs, .ddr, .out] s x205 := by
        refine Moves.of_snd e206 ?_
        refine Moves.seq (rateOk_moves ..) (by decide) ?_
        exact h200
      exact h207

theorem actMix_moves (a0 a1 a2 s) : Moves [.mem, .regs, .cnt, .hif, .ctl, .aud, .obs, .ddr, .cas, .out] s (actMix a0 a1 a2 s).2 := by
  unfold actMix
  split
  · extract_lets v0 v1 v2 v3
    have h200 : Moves [.mem, .regs, .cnt, .hif, .ctl, .aud, .obs, .ddr, .cas, .out] s v2 := by
      refine Moves.seq (actAudPut_moves ..) (by decide) ?_
      exact Moves.refl _ _
    refine Moves.mk_snd ?_
    refine Moves.seq (mixesOf_moves ..) (by decide) ?_
    exact h200
  · extract_lets v201 v202
    have h401 : Moves [.mem, .regs, .cnt, .hif, .ctl, .aud, .obs, .ddr, .cas, .out] s v201 := by
      refine Moves.seq (casKeep_moves ..) (by decide) ?_
      exact Moves.refl _ _
    split
    · refine Moves.mk_snd ?_
      exact h401
    · extract_lets v402 v403 v404 v405 v406 v407 v408
      have h602 : Moves [.mem, .regs, .cnt, .hif, .ctl, .aud, .obs, .ddr, .cas, .out] s v402 := by
        refine Moves.seq (casReport_moves ..) (by decide) ?_
        exact h401
      have h603 : Moves [.mem, .regs, .cnt, .hif, .ctl, .aud, .obs, .ddr, .cas, .out] s v404 := by
        refine Moves.seq (actAudPut_moves ..) (by decide) ?_
        exact h602
      have h604 : Moves [.mem, .regs, .cnt, .hif, .ctl, .aud, .obs, .ddr, .cas, .out] s v407 := by
        unfold v407
        refine Moves.seq (mixesOf_moves ..) (by decide) ?_
        exact h603
      refine Moves.mk_snd ?_
      refine Moves.cas_with (by decide) ?_
      exact h604

theorem encSettle_moves (a0 a1 a2 a3 s) : Moves [.cnt, .aud] s (encSettle a0 a1 a2 a3 s) := by
  unfold encSettle
  extract_lets v0 v1 v2 v3 v4
  have h200 : Moves [.cnt, .aud] s v3 := by
    unfold v3
    split
    · refine Moves.seq (actAudPut_moves ..) (by decide) ?_
      exact Moves.refl _ _
    · exact Moves.refl _ _
  refine Moves.ite ?_ ?_
  · exact Moves.refl _ _
  · split
    · exact Moves.refl _ _
    · extract_lets v201 v202
      have h401 : Moves [.cnt, .aud] s v202 := by
        refine Moves.ite ?_ ?_
        · refine Moves.seq (cinc_moves ..) (by decide) ?_
          exact h200
        · exact h200
      refine Moves.seq (actAudPut_moves ..) (by decide) ?_
      exact h401

theorem encDeliver_moves (a0 a1 a2 a3 a4 s) : Moves [.egr, .src] s (encDeliver a0 a1 a2 a3 a4 s) := by
  unfold encDeliver
  refine Moves.ite ?_ ?_
  · refine Moves.seq (tdmPlace_moves ..) (by decide) ?_
    exact Moves.refl _ _
  · refine Moves.ite ?_ ?_
    · exact Moves.refl _ _
    · extract_lets v0
      refine Moves.seq (egrMedia_moves ..) (by decide) ?_
      exact Moves.refl _ _

theorem encBlock_moves (act b mixes e s) : Moves [.cnt, .egr, .src] s (encBlock act b mixes e s).2 := by
  unfold encBlock
  extract_lets sig r buf p t
  have hr : Moves [.cnt, .egr, .src] s r.2.2 := by
    unfold r
    split
    · exact Moves.refl _ _
    · exact (audConvert_moves ..).mono (by decide)
  have ht : Moves [.cnt, .egr, .src] s t := by
    unfold t
    refine Moves.foldl (fun n y => ?_) hr
    exact (encDeliver_moves n b e buf p.1 y).mono (by decide)
  refine Moves.ite_snd ?_ ?_
  · exact Moves.mk_snd ht
  · exact Moves.mk_snd hr

theorem actEncodes_moves (act b mixes s) : Moves [.cnt, .aud, .egr, .src] s (actEncodes act b mixes s) := by
  unfold actEncodes
  refine Moves.ite (Moves.refl _ _) ?_
  extract_lets r
  refine Moves.seq (actAudPut_moves ..) (by decide) ?_
  exact Moves.foldl_pair (f := encBlock act b mixes) (g := fun l _ q => l ++ [q])
    (fun e y => (encBlock_moves act b mixes e y).mono (by decide)) (Moves.refl _ _)

theorem legAfter_moves (a0 a1 s) : Moves [.ctl, .aud] s (legAfter a0 a1 s) := by
  unfold legAfter
  extract_lets v0 v1 v2 v3 v4 v5
  have h200 : Moves [.ctl, .aud] s v1 := by
    unfold v1
    split
    · refine Moves.ite ?_ ?_
      · extract_lets v201
        refine Moves.seq (legAudPut_moves ..) (by decide) ?_
        refine Moves.seq (actAudPut_moves ..) (by decide) ?_
        exact Moves.refl _ _
      · exact Moves.refl _ _
    · exact Moves.refl _ _
  split
  · refine Moves.ite ?_ ?_
    · refine Moves.seq (chargeDown_moves ..) (by decide) ?_
      refine Moves.seq (legAudPut_moves ..) (by decide) ?_
      exact h200
    · refine Moves.seq (legAudPut_moves ..) (by decide) ?_
      exact h200
  · refine Moves.seq (legAudPut_moves ..) (by decide) ?_
    exact h200

theorem audHear_moves (b s) : Moves [.regs, .cnt, .aud] s (audHear b s).2 := by
  unfold audHear
  extract_lets r
  refine Moves.foldl (fun _ _ => (fset_moves ..).mono (by decide)) (Moves.foldl_snd (fun n _ y => ?_) (Moves.refl _ _))
  split
  · exact Moves.refl _ _
  · next l _ =>
    have h : Moves [.regs, .cnt, .aud] y (legClose n b l y).2 := (legClose_moves ..).mono (by decide)
    extract_lets q
    split <;> exact h

theorem audMix_moves (b contrib s) : Moves [.mem, .regs, .cnt, .hif, .ctl, .aud, .egr, .src, .obs, .ddr, .cas, .out] s (audMix b contrib s) := by
  unfold audMix
  extract_lets legs acts m mixes t u
  have hm : Moves [.mem, .regs, .cnt, .hif, .ctl, .aud, .egr, .src, .obs, .ddr, .cas, .out] s m.2 := Moves.foldl_pair (f := actMix b contrib)
    (g := fun (t : Tbl Mixes) n (q : Option Mixes) => match q with
      | some v => tset t n v
      | none => t) (fun n y => (actMix_moves b contrib n y).mono (by decide)) (Moves.refl [.mem, .regs, .cnt, .hif, .ctl, .aud, .egr, .src, .obs, .ddr, .cas, .out] s)
  have ht : Moves [.mem, .regs, .cnt, .hif, .ctl, .aud, .egr, .src, .obs, .ddr, .cas, .out] s t := Moves.foldl (fun _ y => by
    split
    · exact Moves.ite ((encSettle_moves ..).mono (by decide)) (Moves.refl _ _)
    · exact Moves.refl _ _) hm
  have hu : Moves [.mem, .regs, .cnt, .hif, .ctl, .aud, .egr, .src, .obs, .ddr, .cas, .out] s u := Moves.foldl (fun _ y => (actEncodes_moves ..).mono (by decide)) ht
  exact Moves.foldl (fun _ y => (legAfter_moves ..).mono (by decide)) hu

theorem trustCharge_moves (a0 a1 a2 s) : Moves [.ctl, .aud] s (trustCharge a0 a1 a2 s) := by
  unfold trustCharge
  split
  · exact Moves.refl _ _
  · extract_lets v0 v1
    have h200 : Moves [.ctl, .aud] s v0 := by
      refine Moves.ite ?_ ?_
      · refine Moves.seq (chargeUp_moves ..) (by decide) ?_
        exact Moves.refl _ _
      · refine Moves.seq (chargeDown_moves ..) (by decide) ?_
        exact Moves.refl _ _
    refine Moves.seq (legAudPut_moves ..) (by decide) ?_
    exact h200

theorem trustClear_moves (a0 a1 s) : Moves [.ctl, .aud] s (trustClear a0 a1 s) := by
  unfold trustClear
  extract_lets v0 v1
  have h200 : Moves [.ctl, .aud] s v0 := by
    refine Moves.ite ?_ ?_
    · refine Moves.seq (trustCharge_moves ..) (by decide) ?_
      exact Moves.refl _ _
    · exact Moves.refl _ _
  refine Moves.seq (legAudPut_moves ..) (by decide) ?_
  exact h200

theorem trustMark_moves (a0 a1 s) : Moves [.mem, .regs, .cnt, .hif, .ctl, .aud, .obs, .ddr, .out] s (trustMark a0 a1 s) := by
  unfold trustMark
  split
  · exact Moves.refl _ _
  · extract_lets v0 v1 v2 v3
    have h200 : Moves [.mem, .regs, .cnt, .hif, .ctl, .aud, .obs, .ddr, .out] s v2 := by
      refine Moves.seq (cinc_moves ..) (by decide) ?_
      refine Moves.seq (legAudPut_moves ..) (by decide) ?_
      exact Moves.refl _ _
    have h201 : Moves [.mem, .regs, .cnt, .hif, .ctl, .aud, .obs, .ddr, .out] s v3 := by
      refine Moves.ite ?_ ?_
      · refine Moves.seq (trustCharge_moves ..) (by decide) ?_
        exact h200
      · refine Moves.seq (raiseObj_moves ..) (by decide) ?_
        refine Moves.seq (determinismLost_moves ..) (by decide) ?_
        exact h200
    refine Moves.seq (raiseObj_moves ..) (by decide) ?_
    exact h201

theorem windowEnd_moves (a0 a1 a2 s) : Moves [.mem, .regs, .cnt, .hif, .ctl, .aud, .obs, .ddr, .out] s (windowEnd a0 a1 a2 s) := by
  unfold windowEnd
  extract_lets v0 v1 v2 v3
  have h200 : Moves [.mem, .regs, .cnt, .hif, .ctl, .aud, .obs, .ddr, .out] s v2 := by
    refine Moves.seq (cinc_moves ..) (by decide) ?_
    refine Moves.seq (cinc_moves ..) (by decide) ?_
    exact Moves.refl _ _
  have h201 : Moves [.mem, .regs, .cnt, .hif, .ctl, .aud, .obs, .ddr, .out] s v3 := by
    refine Moves.seq (cinc_moves ..) (by decide) ?_
    refine Moves.seq (legAudPut_moves ..) (by decide) ?_
    exact h200
  refine Moves.ite ?_ ?_
  · refine Moves.seq (legAudPut_moves ..) (by decide) ?_
    exact Moves.refl _ _
  · refine Moves.ite ?_ ?_
    · refine Moves.ite ?_ ?_
      · refine Moves.seq (trustMark_moves ..) (by decide) ?_
        exact h201
      · exact h201
    · refine Moves.seq (legAudPut_moves ..) (by decide) ?_
      exact h200

theorem windowPacket_moves (a0 a1 a2 s) : Moves [.mem, .regs, .cnt, .hif, .ctl, .aud, .obs, .ddr, .out] s (windowPacket a0 a1 a2 s) := by
  unfold windowPacket
  extract_lets v0 v1
  split
  · exact Moves.refl _ _
  · extract_lets v200 v201 v202
    refine Moves.ite ?_ ?_
    · refine Moves.seq (windowEnd_moves ..) (by decide) ?_
      exact Moves.refl _ _
    · refine Moves.seq (legAudPut_moves ..) (by decide) ?_
      exact Moves.refl _ _

theorem windowsOpen_moves (a0 s) : Moves [.aud] s (windowsOpen a0 s) := by
  unfold windowsOpen
  refine Moves.foldl (fun _ y0 => ?_) ?_
  · split
    · exact Moves.refl _ _
    · extract_lets v1 v2 v3 v4 v5
      refine Moves.ite ?_ ?_
      · refine Moves.seq (legAudPut_moves ..) (by decide) ?_
        exact Moves.refl _ _
      · exact Moves.refl _ _
  · exact Moves.refl _ _

theorem fadeBegin_moves (a0 a1 s) : Moves [.aud] s (fadeBegin a0 a1 s) := by
  unfold fadeBegin
  refine Moves.aud_with (by decide) ?_
  exact Moves.refl _ _

theorem decodePacket_moves (a0 a1 a2 a3 s) : Moves [.mem, .regs, .cnt, .hif, .ctl, .aud, .obs, .ddr, .out] s (decodePacket a0 a1 a2 a3 s) := by
  unfold decodePacket
  extract_lets v0 v1 v2 v3 v4 v5 v6
  have h200 : Moves [.mem, .regs, .cnt, .hif, .ctl, .aud, .obs, .ddr, .out] s v2 := by
    refine Moves.seq (cinc_moves ..) (by decide) ?_
    exact Moves.refl _ _
  have h201 : Moves [.mem, .regs, .cnt, .hif, .ctl, .aud, .obs, .ddr, .out] s v6 := by
    refine Moves.seq (cinc_moves ..) (by decide) ?_
    refine Moves.ite ?_ ?_
    · refine Moves.seq (cinc_moves ..) (by decide) ?_
      exact Moves.refl _ _
    · exact Moves.refl _ _
  split
  · refine Moves.seq (windowPacket_moves ..) (by decide) ?_
    exact h200
  · extract_lets v202 v203 v204 v205 v206 v207 v208
    have h402 : Moves [.mem, .regs, .cnt, .hif, .ctl, .aud, .obs, .ddr, .out] s v207 := by
      refine Moves.seq (legAudPut_moves ..) (by decide) ?_
      exact h201
    have h403 : Moves [.mem, .regs, .cnt, .hif, .ctl, .aud, .obs, .ddr, .out] s v208 := by
      refine Moves.ite ?_ ?_
      · refine Moves.seq (raiseObj_moves ..) (by decide) ?_
        exact h402
      · exact h402
    refine Moves.ite ?_ ?_
    · refine Moves.seq (windowPacket_moves ..) (by decide) ?_
      refine Moves.seq (legAudPut_moves ..) (by decide) ?_
      exact h201
    · refine Moves.seq (fadeBegin_moves ..) (by decide) ?_
      exact h403

theorem concealAt_moves (a0 a1 a2 s) : Moves [.mem, .regs, .cnt, .hif, .aud, .ddr, .out] s (concealAt a0 a1 a2 s) := by
  unfold concealAt
  extract_lets v0 v1 v2 v3 v4 v5
  have h200 : Moves [.mem, .regs, .cnt, .hif, .aud, .ddr, .out] s v5 := by
    refine Moves.seq (legAudPut_moves ..) (by decide) ?_
    exact Moves.refl _ _
  refine Moves.ite ?_ ?_
  · refine Moves.seq (concealStart_moves ..) (by decide) ?_
    exact h200
  · exact h200

theorem concealLeg_moves (a0 a1 a2 a3 s) : Moves [.mem, .regs, .cnt, .hif, .ctl, .aud, .ddr, .out] s (concealLeg a0 a1 a2 a3 s) := by
  unfold concealLeg
  extract_lets v0 v1 v2
  have h200 : Moves [.mem, .regs, .cnt, .hif, .ctl, .aud, .ddr, .out] s v1 := by
    refine Moves.ite ?_ ?_
    · refine Moves.ite ?_ ?_
      · refine Moves.seq (legAudPut_moves ..) (by decide) ?_
        exact Moves.refl _ _
      · refine Moves.seq (concealAt_moves ..) (by decide) ?_
        exact Moves.refl _ _
    · exact Moves.refl _ _
  refine Moves.ite ?_ ?_
  · exact Moves.refl _ _
  · refine Moves.ite ?_ ?_
    · refine Moves.ite ?_ ?_
      · exact Moves.refl _ _
      · refine Moves.seq (legAudPut_moves ..) (by decide) ?_
        exact Moves.refl _ _
    · refine Moves.ite ?_ ?_
      · refine Moves.seq (degraded_moves ..) (by decide) ?_
        refine Moves.seq (cinc_moves ..) (by decide) ?_
        refine Moves.seq (legAudPut_moves ..) (by decide) ?_
        exact h200
      · exact h200

theorem forwardAudio_moves (a0 a1 a2 a3 s) : Moves [.egr] s (forwardAudio a0 a1 a2 a3 s) := by
  unfold forwardAudio
  refine Moves.foldl (fun _ y0 => ?_) ?_
  · split
    · refine Moves.ite ?_ ?_
      · refine Moves.seq (egrMedia_moves ..) (by decide) ?_
        exact Moves.refl _ _
      · exact Moves.refl _ _
    · exact Moves.refl _ _
  · exact Moves.refl _ _

theorem audPacket_moves (a0 a1 s) : Moves [.mem, .regs, .cnt, .hif, .ctl, .aud, .egr, .obs, .ddr, .out] s (audPacket a0 a1 s) := by
  unfold audPacket
  split
  · exact Moves.refl _ _
  · extract_lets v0 v1
    have h200 : Moves [.mem, .regs, .cnt, .hif, .ctl, .aud, .egr, .obs, .ddr, .out] s v1 := by
      refine Moves.seq (forwardAudio_moves ..) (by decide) ?_
      exact Moves.refl _ _
    refine Moves.ite ?_ ?_
    · refine Moves.ite ?_ ?_
      · refine Moves.seq (decodePacket_moves ..) (by decide) ?_
        exact h200
      · exact h200
    · refine Moves.ite ?_ ?_
      · exact Moves.refl _ _
      · refine Moves.ite ?_ ?_
        · refine Moves.seq (decodePacket_moves ..) (by decide) ?_
          exact Moves.refl _ _
        · refine Moves.ite ?_ ?_
          · refine Moves.seq (cinc_moves ..) (by decide) ?_
            exact Moves.refl _ _
          · exact Moves.refl _ _

theorem audBlock_moves (a0 s) : Moves [.mem, .regs, .cnt, .hif, .ctl, .aud, .egr, .obs, .ddr, .cas, .out] s (audBlock a0 s) := by
  unfold audBlock
  extract_lets v0 v1 v2 v3 v4 v5
  have h200 : Moves [.mem, .regs, .cnt, .hif, .ctl, .aud, .egr, .obs, .ddr, .cas, .out] s v1 := by
    refine Moves.foldl (fun _ y201 => ?_) ?_
    · refine Moves.seq (legAudPut_moves ..) (by decide) ?_
      exact Moves.refl _ _
    · exact Moves.refl _ _
  have h202 : Moves [.mem, .regs, .cnt, .hif, .ctl, .aud, .egr, .obs, .ddr, .cas, .out] s v2 := by
    refine Moves.foldl (fun _ y203 => ?_) ?_
    · refine Moves.seq (casNote_moves ..) (by decide) ?_
      refine Moves.seq (selRun_moves ..) (by decide) ?_
      refine Moves.seq (casDups_moves ..) (by decide) ?_
      exact Moves.refl _ _
    · exact h200
  have h204 : Moves [.mem, .regs, .cnt, .hif, .ctl, .aud, .egr, .obs, .ddr, .cas, .out] s v3 := by
    refine Moves.seq (windowsOpen_moves ..) (by decide) ?_
    exact h202
  have h205 : Moves [.mem, .regs, .cnt, .hif, .ctl, .aud, .egr, .obs, .ddr, .cas, .out] s v4 := by
    refine Moves.foldl (fun _ y206 => ?_) ?_
    · refine Moves.seq (audPacket_moves ..) (by decide) ?_
      exact Moves.refl _ _
    · exact h204
  have h207 : Moves [.mem, .regs, .cnt, .hif, .ctl, .aud, .egr, .obs, .ddr, .cas, .out] s v5 := by
    refine Moves.foldl (fun _ y208 => ?_) ?_
    · refine Moves.ite ?_ ?_
      · refine Moves.seq (fadeBegin_moves ..) (by decide) ?_
        exact Moves.refl _ _
      · exact Moves.refl _ _
    · exact h205
  refine Moves.foldl (fun _ y209 => ?_) ?_
  · split
    · exact Moves.refl _ _
    · extract_lets v210
      have h410 : Moves [.mem, .regs, .cnt, .hif, .ctl, .aud, .egr, .obs, .ddr, .cas, .out] y209 v210 := by
        refine Moves.seq (concealLeg_moves ..) (by decide) ?_
        exact Moves.refl _ _
      refine Moves.ite ?_ ?_
      · refine Moves.seq (cinc_moves ..) (by decide) ?_
        refine Moves.seq (determinismLost_moves ..) (by decide) ?_
        exact h410
      · exact h410
  · exact h207

theorem audActAdmit_moves (a0 a1 s) : Moves [.aud] s (audActAdmit a0 a1 s) := by
  unfold audActAdmit
  extract_lets v0 v1
  refine Moves.seq (actAudPut_moves ..) (by decide) ?_
  exact Moves.refl _ _

theorem audActFree_moves (a0 s) : Moves [.regs, .aud, .cas] s (audActFree a0 s) := by
  unfold audActFree
  refine Moves.seq (bankSync_moves ..) (by decide) ?_
  refine Moves.aud_cas_with (by decide) (by decide) ?_
  exact Moves.refl _ _

theorem audLegAdmit_moves (a0 a1 a2 s) : Moves [.aud] s (audLegAdmit a0 a1 a2 s) := by
  unfold audLegAdmit
  extract_lets v0 v1
  refine Moves.seq (legAudPut_moves ..) (by decide) ?_
  refine Moves.seq (actAudPut_moves ..) (by decide) ?_
  exact Moves.refl _ _

theorem audLegStart_moves (a0 a1 a2 s) : Moves [.aud] s (audLegStart a0 a1 a2 s) := by
  unfold audLegStart
  refine Moves.seq (legAudPut_moves ..) (by decide) ?_
  exact Moves.refl _ _

theorem audLegRelease_moves (a0 a1 a2 s) : Moves [.aud] s (audLegRelease a0 a1 a2 s) := by
  unfold audLegRelease
  extract_lets v0
  refine Moves.seq (legAudPut_moves ..) (by decide) ?_
  exact Moves.refl _ _

theorem audLegFree_moves (a0 a1 s) : Moves [.ctl, .aud, .src, .cas] s (audLegFree a0 a1 s) := by
  unfold audLegFree
  extract_lets v0 v1 v2 v3 v4
  have h200 : Moves [.ctl, .aud, .src, .cas] s v0 := by
    refine Moves.ite ?_ ?_
    · refine Moves.seq (trustCharge_moves ..) (by decide) ?_
      exact Moves.refl _ _
    · exact Moves.refl _ _
  have h201 : Moves [.ctl, .aud, .src, .cas] s v1 := by
    unfold v1
    split
    · refine Moves.seq (chargeDown_moves ..) (by decide) ?_
      exact h200
    · exact h200
  refine Moves.aud_src_cas_with (by decide) (by decide) (by decide) ?_
  exact h201

theorem audLegRoute_moves (a0 a1 a2 a3 a4 s) : Moves [.mem, .regs, .cnt, .hif, .aud, .ddr, .out] s (audLegRoute a0 a1 a2 a3 a4 s) := by
  unfold audLegRoute
  extract_lets v0 v1 v2 v3 v4 v5 v6 v7 v8 v9 v10 v11 v12 v13 v14 v15 v16 v17
  have h200 : Moves [.mem, .regs, .cnt, .hif, .aud, .ddr, .out] s v1 := by
    refine Moves.seq (actAudPut_moves ..) (by decide) ?_
    exact Moves.refl _ _
  have h201 : Moves [.mem, .regs, .cnt, .hif, .aud, .ddr, .out] s v2 := by
    refine Moves.seq (actAudPut_moves ..) (by decide) ?_
    exact h200
  have h202 : Moves [.mem, .regs, .cnt, .hif, .aud, .ddr, .out] s v7 := by
    refine Moves.seq (topnChange_moves ..) (by decide) ?_
    refine Moves.seq (actAudPut_moves ..) (by decide) ?_
    exact h201
  have h203 : Moves [.mem, .regs, .cnt, .hif, .aud, .ddr, .out] s v11 := by
    refine Moves.ite ?_ ?_
    · exact h202
    · refine Moves.seq (actAudPut_moves ..) (by decide) ?_
      exact h202
  have h204 : Moves [.mem, .regs, .cnt, .hif, .aud, .ddr, .out] s v13 := by
    refine Moves.seq (cinc_moves ..) (by decide) ?_
    exact h202
  have h205 : Moves [.mem, .regs, .cnt, .hif, .aud, .ddr, .out] s v17 := by
    refine Moves.ite ?_ ?_
    · refine Moves.seq (actAudPut_moves ..) (by decide) ?_
      exact h204
    · exact h204
  refine Moves.ite ?_ ?_
  · exact h201
  · refine Moves.ite ?_ ?_
    · refine Moves.seq (legAudPut_moves ..) (by decide) ?_
      exact h203
    · refine Moves.seq (legAudPut_moves ..) (by decide) ?_
      exact h205

end Sys2Proof.Machine
end

