-- ==== Sys2Proof/Laws/ChFault.lean ====
section
/-! SUPPORT. What each operation of Machine/Fault.lean may change: one lemma for each, which says every part of State that it
can alter, and that it keeps the invariant. -/

set_option Elab.async false

namespace Sys2Proof.Machine

theorem faultLog_moves (a0 s) : Moves [.mem, .regs, .cnt, .hif, .ddr, .ldg, .out] s (faultLog a0 s).2 := by
  unfold faultLog
  extract_lets v0 v1 v2 v3 v4 v5 v6
  have h200 : Moves [.mem, .regs, .cnt, .hif, .ddr, .ldg, .out] s v4 := by
    refine Moves.ldg_with (by decide) ?_
    exact Moves.refl _ _
  have h201 : Moves [.mem, .regs, .cnt, .hif, .ddr, .ldg, .out] s v5 := by
    refine Moves.seq (ledgerWrite_moves ..) (by decide) ?_
    refine Moves.seq (cinc_moves ..) (by decide) ?_
    refine Moves.seq (fset_moves ..) (by decide) ?_
    exact h200
  have h202 : Moves [.mem, .regs, .cnt, .hif, .ddr, .ldg, .out] s v6 := by
    refine Moves.seq (cinc_moves ..) (by decide) ?_
    refine Moves.seq (fset_moves ..) (by decide) ?_
    exact h201
  refine Moves.ite_snd ?_ ?_
  · refine Moves.mk_snd ?_
    exact h201
  · split
    · rename_i x203 e204
      have h205 : Moves [.mem, .regs, .cnt, .hif, .ddr, .ldg, .out] s x203 := by
        refine Moves.of_snd e204 ?_
        refine Moves.seq (rateOk_moves ..) (by decide) ?_
        exact h202
      refine Moves.mk_snd ?_
      refine Moves.seq (raiseUnit_moves ..) (by decide) ?_
      exact h205
    · rename_i x206 e207
      have h208 : Moves [.mem, .regs, .cnt, .hif, .ddr, .ldg, .out] s x206 := by
        refine Moves.of_snd e207 ?_
        refine Moves.seq (rateOk_moves ..) (by decide) ?_
        exact h202
      refine Moves.mk_snd ?_
      exact h208

theorem ldgSync_moves (s) : Moves [.regs] s (ldgSync s) := by
  unfold ldgSync
  extract_lets v0 v1 v2
  have h200 : Moves [.regs] s v0 := by
    refine Moves.seq (fset_moves ..) (by decide) ?_
    exact Moves.refl _ _
  have h201 : Moves [.regs] s v1 := by
    refine Moves.seq (fset_moves ..) (by decide) ?_
    refine Moves.seq (fset_moves ..) (by decide) ?_
    exact h200
  have h202 : Moves [.regs] s v2 := by
    refine Moves.seq (fset_moves ..) (by decide) ?_
    exact h201
  refine Moves.seq (fset_moves ..) (by decide) ?_
  refine Moves.seq (fset_moves ..) (by decide) ?_
  exact h202

theorem wearCheck_moves (a0 a1 s) : Moves [.mem, .regs, .cnt, .hif, .ddr, .out] s (wearCheck a0 a1 s) := by
  unfold wearCheck
  refine Moves.ite ?_ ?_
  · exact Moves.refl _ _
  · refine Moves.seq (raiseUnit_moves ..) (by decide) ?_
    refine Moves.seq (fset_moves ..) (by decide) ?_
    exact Moves.refl _ _

theorem hdrWrite_moves (a0 s) : Moves [.mem, .regs, .cnt, .hif, .ddr, .ldg, .out] s (hdrWrite a0 s) := by
  unfold hdrWrite
  extract_lets v0 v1 v2 v3 v4 v5 v6
  have h200 : Moves [.mem, .regs, .cnt, .hif, .ddr, .ldg, .out] s v6 := by
    refine Moves.seq (cinc_moves ..) (by decide) ?_
    refine Moves.ldg_with (by decide) ?_
    exact Moves.refl _ _
  refine Moves.seq (wearCheck_moves ..) (by decide) ?_
  refine Moves.seq (ldgSync_moves ..) (by decide) ?_
  exact h200

theorem unitRetire_moves (a0 a1 s) : Moves [.mem, .regs, .cnt, .hif, .flt, .ddr, .out] s (unitRetire a0 a1 s) := by
  unfold unitRetire
  refine Moves.ite ?_ ?_
  · exact Moves.refl _ _
  · extract_lets v0 v1 v2
    have h200 : Moves [.mem, .regs, .cnt, .hif, .flt, .ddr, .out] s v0 := by
      refine Moves.seq (ledgerWrite_moves ..) (by decide) ?_
      refine Moves.seq (cinc_moves ..) (by decide) ?_
      exact Moves.refl _ _
    have h201 : Moves [.mem, .regs, .cnt, .hif, .flt, .ddr, .out] s v2 := by
      refine Moves.flt_with (by decide) ?_
      exact h200
    refine Moves.seq (raiseUnit_moves ..) (by decide) ?_
    refine Moves.seq (cinc_moves ..) (by decide) ?_
    exact h201

theorem spareTakeover_moves (a0 a1 s) : Moves [.mem, .regs, .cnt, .hif, .ddr, .out] s (spareTakeover a0 a1 s) := by
  unfold spareTakeover
  refine Moves.seq (raiseUnit_moves ..) (by decide) ?_
  refine Moves.seq (cinc_moves ..) (by decide) ?_
  exact Moves.refl _ _

theorem suspectReport_moves (a0 a1 s) : Moves [.mem, .regs, .cnt, .hif, .flt, .ddr, .out] s (suspectReport a0 a1 s).2 := by
  unfold suspectReport
  extract_lets v0 v1 v2
  have h200 : Moves [.mem, .regs, .cnt, .hif, .flt, .ddr, .out] s v2 := by
    refine Moves.flt_with (by decide) ?_
    exact Moves.refl _ _
  refine Moves.mk_snd ?_
  refine Moves.seq (raiseUnit_moves ..) (by decide) ?_
  refine Moves.seq (cinc_moves ..) (by decide) ?_
  exact h200

theorem coverSync_moves (s) : Moves [.regs] s (coverSync s) := by
  unfold coverSync
  extract_lets v0 v1
  have h200 : Moves [.regs] s v0 := by
    refine Moves.seq (fset_moves ..) (by decide) ?_
    exact Moves.refl _ _
  have h201 : Moves [.regs] s v1 := by
    refine Moves.seq (fset_moves ..) (by decide) ?_
    exact h200
  refine Moves.foldl (fun _ y202 => ?_) ?_
  · refine Moves.seq (fset_moves ..) (by decide) ?_
    exact Moves.refl _ _
  · exact h201

theorem faultDeclare_moves (a0 s) : Moves [.mem, .regs, .cnt, .hif, .flt, .ddr, .ldg, .out] s (faultDeclare a0 s).2 := by
  unfold faultDeclare
  extract_lets v0 v1 v2
  have h200 : Moves [.mem, .regs, .cnt, .hif, .flt, .ddr, .ldg, .out] s v1 := by
    unfold v1
    refine Moves.seq (faultLog_moves ..) (by decide) ?_
    exact Moves.refl _ _
  refine Moves.mk_snd ?_
  refine Moves.seq (fset_moves ..) (by decide) ?_
  refine Moves.flt_with (by decide) ?_
  exact h200

theorem coverageCheck_moves (s) : Moves [.mem, .regs, .cnt, .hif, .flt, .ddr, .out] s (coverageCheck s) := by
  unfold coverageCheck
  extract_lets v0 v1 v2 v3 v4
  have h200 : Moves [.mem, .regs, .cnt, .hif, .flt, .ddr, .out] s v0 := by
    refine Moves.seq (coverSync_moves ..) (by decide) ?_
    exact Moves.refl _ _
  have h201 : Moves [.mem, .regs, .cnt, .hif, .flt, .ddr, .out] s v3 := by
    refine Moves.foldl (fun _ y202 => ?_) ?_
    · refine Moves.seq (raiseUnit_moves ..) (by decide) ?_
      exact Moves.refl _ _
    · refine Moves.flt_with (by decide) ?_
      exact h200
  refine Moves.ite ?_ ?_
  · refine Moves.ite ?_ ?_
    · refine Moves.seq (fset_moves ..) (by decide) ?_
      exact h201
    · refine Moves.seq (fset_moves ..) (by decide) ?_
      refine Moves.seq (raiseUnit_moves ..) (by decide) ?_
      exact h201
  · refine Moves.ite ?_ ?_
    · refine Moves.seq (fset_moves ..) (by decide) ?_
      refine Moves.seq (raiseUnit_moves ..) (by decide) ?_
      exact h201
    · exact h201

end Sys2Proof.Machine
end

