-- ==== Sys2Proof/Laws/ChDram.lean ====
section
/-! SUPPORT. What each operation of Machine/Dram.lean may change: one lemma for each, which says every part of State that it
can alter, and that it keeps the invariant. -/

set_option Elab.async false

namespace Sys2Proof.Machine

theorem isolationBlock_moves (a0 a1 a2 s) : Moves [.mem, .regs, .cnt, .hif, .ddr, .out] s (isolationBlock a0 a1 a2 s) := by
  unfold isolationBlock
  extract_lets v0
  refine Moves.seq (raise_moves ..) (by decide) ?_
  refine Moves.seq (cinc_moves ..) (by decide) ?_
  exact Moves.refl _ _

end Sys2Proof.Machine
end

