-- ==== Sys2Proof/Laws/ChCrsl.lean ====
section
/-! SUPPORT. What each operation of Machine/Crsl.lean may change: one lemma for each, which says every part of State that it
can alter, and that it keeps the invariant. -/

set_option Elab.async false

namespace Sys2Proof.Machine

theorem itemPut_moves (a0 a1 s) : Moves [.crsl] s (itemPut a0 a1 s) := by
  unfold itemPut
  refine Moves.crsl_with (by decide) ?_
  exact Moves.refl _ _

theorem corePut_moves (a0 a1 s) : Moves [.crsl] s (corePut a0 a1 s) := by
  unfold corePut
  refine Moves.crsl_with (by decide) ?_
  exact Moves.refl _ _

theorem coreStPut_moves (a0 a1 s) : Moves [.regs] s (coreStPut a0 a1 s) := by
  unfold coreStPut
  refine Moves.seq (fset_moves ..) (by decide) ?_
  exact Moves.refl _ _

theorem flightSync_moves (s) : Moves [.regs, .crsl] s (flightSync s) := by
  unfold flightSync
  extract_lets v0
  have h200 : Moves [.regs, .crsl] s v0 := by
    refine Moves.seq (fset_moves ..) (by decide) ?_
    exact Moves.refl _ _
  refine Moves.foldl (fun _ y201 => ?_) ?_
  · extract_lets v202 v203
    refine Moves.seq (fset_moves ..) (by decide) ?_
    refine Moves.crsl_with (by decide) ?_
    exact Moves.refl _ _
  · exact h200

theorem qeccClear_moves (a0 s) : Moves [.crsl] s (qeccClear a0 s) := by
  unfold qeccClear
  refine Moves.crsl_with (by decide) ?_
  exact Moves.refl _ _

theorem rqPut_moves (a0 a1 s) : Moves [.regs, .crsl] s (rqPut a0 a1 s) := by
  unfold rqPut
  extract_lets v0 v1 v2 v3
  have h200 : Moves [.regs, .crsl] s v1 := by
    refine Moves.crsl_with (by decide) ?_
    exact Moves.refl _ _
  have h201 : Moves [.regs, .crsl] s v2 := by
    refine Moves.seq (fset_moves ..) (by decide) ?_
    refine Moves.seq (fset_moves ..) (by decide) ?_
    exact h200
  have h202 : Moves [.regs, .crsl] s v3 := by
    refine Moves.seq (fset_moves ..) (by decide) ?_
    exact h201
  refine Moves.seq (fset_moves ..) (by decide) ?_
  refine Moves.seq (fset_moves ..) (by decide) ?_
  exact h202

theorem rqPush_moves (a0 a1 a2 s) : Moves [.mem, .regs, .cnt, .hif, .crsl, .ddr, .out] s (rqPush a0 a1 a2 s) := by
  unfold rqPush
  extract_lets v0 v1 v2 v3 v4 v5
  have h200 : Moves [.mem, .regs, .cnt, .hif, .crsl, .ddr, .out] s v1 := by
    refine Moves.seq (rqPut_moves ..) (by decide) ?_
    refine Moves.seq (cinc_moves ..) (by decide) ?_
    exact Moves.refl _ _
  have h201 : Moves [.mem, .regs, .cnt, .hif, .crsl, .ddr, .out] s v4 := by
    refine Moves.seq (rqPut_moves ..) (by decide) ?_
    refine Moves.seq (cinc_moves ..) (by decide) ?_
    exact Moves.refl _ _
  refine Moves.ite ?_ ?_
  · split
    · rename_i x202 e203
      have h204 : Moves [.mem, .regs, .cnt, .hif, .crsl, .ddr, .out] s x202 := by
        refine Moves.of_snd e203 ?_
        refine Moves.seq (rateOk_moves ..) (by decide) ?_
        exact h200
      refine Moves.seq (raiseUnit_moves ..) (by decide) ?_
      refine Moves.seq (rqPut_moves ..) (by decide) ?_
      exact h204
    · rename_i x205 e206
      have h207 : Moves [.mem, .regs, .cnt, .hif, .crsl, .ddr, .out] s x205 := by
        refine Moves.of_snd e206 ?_
        refine Moves.seq (rateOk_moves ..) (by decide) ?_
        exact h200
      exact h207
  · refine Moves.ite ?_ ?_
    · refine Moves.seq (signal_moves ..) (by decide) ?_
      refine Moves.seq (fset_moves ..) (by decide) ?_
      exact h201
    · exact h201

theorem rescan_moves (a0 s) : Moves [.mem, .regs, .cnt, .hif, .crsl, .ddr, .out] s (rescan a0 s) := by
  unfold rescan
  refine Moves.foldl (fun _ y0 => ?_) ?_
  · refine Moves.seq (rqPush_moves ..) (by decide) ?_
    exact Moves.refl _ _
  · exact Moves.refl _ _

theorem rqSettle_moves (a0 s) : Moves [.mem, .regs, .cnt, .hif, .crsl, .ddr, .out] s (rqSettle a0 s) := by
  unfold rqSettle
  extract_lets v0
  split
  · exact Moves.refl _ _
  · refine Moves.ite ?_ ?_
    · exact Moves.refl _ _
    · extract_lets v200 v201 v202
      have h400 : Moves [.mem, .regs, .cnt, .hif, .crsl, .ddr, .out] s v202 := by
        refine Moves.seq (rqPut_moves ..) (by decide) ?_
        exact Moves.refl _ _
      refine Moves.ite ?_ ?_
      · exact h400
      · refine Moves.seq (rescan_moves ..) (by decide) ?_
        refine Moves.seq (cadd_moves ..) (by decide) ?_
        exact h400

theorem readySizes_moves (s) : Moves [.mem, .regs, .cnt, .hif, .crsl, .ddr, .out] s (readySizes s) := by
  unfold readySizes
  refine Moves.foldl (fun _ y0 => ?_) ?_
  · extract_lets v1 v2
    refine Moves.ite ?_ ?_
    · refine Moves.seq (rqPut_moves ..) (by decide) ?_
      exact Moves.refl _ _
    · refine Moves.seq (rqSettle_moves ..) (by decide) ?_
      refine Moves.seq (rqPut_moves ..) (by decide) ?_
      exact Moves.refl _ _
  · exact Moves.refl _ _

theorem itemQueue_moves (a0 a1 s) : Moves [.mem, .regs, .cnt, .hif, .crsl, .ddr, .out] s (itemQueue a0 a1 s) := by
  unfold itemQueue
  split
  · refine Moves.seq (itemPut_moves ..) (by decide) ?_
    exact Moves.refl _ _
  · refine Moves.seq (rqSettle_moves ..) (by decide) ?_
    refine Moves.seq (rqPush_moves ..) (by decide) ?_
    refine Moves.seq (itemPut_moves ..) (by decide) ?_
    exact Moves.refl _ _

theorem freeHandle_moves (s) : Moves [.free] s (freeHandle s).2 := by
  unfold freeHandle
  exact (takeFree_moves ..).mono (by decide)

theorem itemNew_moves (i s) : Moves [.regs, .crsl, .free] s (itemNew i s).2 := by
  have h := freeHandle_moves s
  unfold itemNew
  split
  · next e => rw [e] at h; exact h.mono (by decide)
  · next e =>
    rw [e] at h
    exact Moves.seq (flightSync_moves ..) (by decide) (Moves.seq (itemPut_moves ..) (by decide) (h.mono (by decide)))

theorem handleWait_moves (a0 s) : Moves [.cnt, .crsl] s (handleWait a0 s) := by
  unfold handleWait
  refine Moves.seq (cinc_moves ..) (by decide) ?_
  refine Moves.crsl_with (by decide) ?_
  exact Moves.refl _ _

theorem shadowCopy_moves (a0 a1 a2 s) : Moves [.mem, .regs, .cnt, .hif, .crsl, .ddr, .out, .free] s (shadowCopy a0 a1 a2 s) := by
  unfold shadowCopy
  refine Moves.ite ?_ ?_
  · refine Moves.seq (handleWait_moves ..) (by decide) ?_
    exact Moves.refl _ _
  · extract_lets v0
    split
    · rename_i x200 e201
      have h202 : Moves [.mem, .regs, .cnt, .hif, .crsl, .ddr, .out, .free] s x200 := by
        refine Moves.of_snd e201 ?_
        refine Moves.seq (itemNew_moves ..) (by decide) ?_
        exact Moves.refl _ _
      exact h202
    · rename_i x203 x204 e205
      have h206 : Moves [.mem, .regs, .cnt, .hif, .crsl, .ddr, .out, .free] s x204 := by
        refine Moves.of_snd e205 ?_
        refine Moves.seq (itemNew_moves ..) (by decide) ?_
        exact Moves.refl _ _
      refine Moves.seq (itemQueue_moves ..) (by decide) ?_
      refine Moves.seq (cinc_moves ..) (by decide) ?_
      exact h206

theorem debugCopy_moves (a0 a1 a2 s) : Moves [.regs, .cnt, .crsl, .free] s (debugCopy a0 a1 a2 s) := by
  unfold debugCopy
  refine Moves.ite ?_ ?_
  · refine Moves.seq (handleWait_moves ..) (by decide) ?_
    exact Moves.refl _ _
  · refine Moves.seq (itemNew_moves ..) (by decide) ?_
    exact Moves.refl _ _

theorem debugCopies_moves (a0 a1 s) : Moves [.regs, .cnt, .crsl, .free] s (debugCopies a0 a1 s) := by
  unfold debugCopies
  refine Moves.foldl (fun _ y0 => ?_) ?_
  · refine Moves.seq (debugCopy_moves ..) (by decide) ?_
    exact Moves.refl _ _
  · exact Moves.refl _ _

theorem itemRelease_moves (a0 s) : Moves [.mem, .regs, .cnt, .hif, .crsl, .ddr, .out, .free] s (itemRelease a0 s) := by
  unfold itemRelease
  split
  · exact Moves.refl _ _
  · refine Moves.ite ?_ ?_
    · exact Moves.refl _ _
    · extract_lets v0 v1
      have h200 : Moves [.mem, .regs, .cnt, .hif, .crsl, .ddr, .out, .free] s v0 := by
        refine Moves.seq (itemQueue_moves ..) (by decide) ?_
        exact Moves.refl _ _
      have h201 : Moves [.mem, .regs, .cnt, .hif, .crsl, .ddr, .out, .free] s v1 := by
        refine Moves.seq (debugCopies_moves ..) (by decide) ?_
        exact h200
      refine Moves.ite ?_ ?_
      · exact h200
      · split
        · refine Moves.ite ?_ ?_
          · refine Moves.seq (shadowCopy_moves ..) (by decide) ?_
            exact h201
          · exact h201
        · exact h201

theorem shadowPick_moves (a0 s) : Moves [.crsl] s (shadowPick a0 s).2 := by
  unfold shadowPick
  extract_lets v0 v1 v2
  refine Moves.mk_snd ?_
  refine Moves.crsl_with (by decide) ?_
  exact Moves.refl _ _

theorem barPut_moves (a0 a1 s) : Moves [.crsl] s (barPut a0 a1 s) := by
  unfold barPut
  refine Moves.crsl_with (by decide) ?_
  exact Moves.refl _ _

theorem barExpect_moves (a0 s) : Moves [.crsl] s (barExpect a0 s) := by
  unfold barExpect
  extract_lets v0
  refine Moves.seq (barPut_moves ..) (by decide) ?_
  exact Moves.refl _ _

theorem itemMake_moves (a0 s) : Moves [.mem, .regs, .cnt, .hif, .crsl, .ddr, .out, .free] s (itemMake a0 s) := by
  unfold itemMake
  extract_lets v0
  split
  · exact Moves.refl _ _
  · refine Moves.ite ?_ ?_
    · refine Moves.seq (handleWait_moves ..) (by decide) ?_
      exact Moves.refl _ _
    · split
      · rename_i x200 x201 e202
        have h203 : Moves [.mem, .regs, .cnt, .hif, .crsl, .ddr, .out, .free] s x201 := by
          refine Moves.of_snd e202 ?_
          refine Moves.seq (shadowPick_moves ..) (by decide) ?_
          exact Moves.refl _ _
        split
        · rename_i x204 e205
          have h206 : Moves [.mem, .regs, .cnt, .hif, .crsl, .ddr, .out, .free] s x204 := by
            refine Moves.of_snd e205 ?_
            refine Moves.seq (itemNew_moves ..) (by decide) ?_
            exact h203
          exact h206
        · rename_i x207 x208 e209
          have h210 : Moves [.mem, .regs, .cnt, .hif, .crsl, .ddr, .out, .free] s x208 := by
            refine Moves.of_snd e209 ?_
            refine Moves.seq (itemNew_moves ..) (by decide) ?_
            exact h203
          refine Moves.seq (itemRelease_moves ..) (by decide) ?_
          exact h210

theorem itemsMake_moves (a0 s) : Moves [.mem, .regs, .cnt, .hif, .crsl, .ddr, .out, .free] s (itemsMake a0 s) := by
  unfold itemsMake
  extract_lets v0
  refine Moves.foldl (fun _ y200 => ?_) ?_
  · refine Moves.seq (itemMake_moves ..) (by decide) ?_
    exact Moves.refl _ _
  · refine Moves.foldl (fun _ y201 => ?_) ?_
    · refine Moves.seq (barExpect_moves ..) (by decide) ?_
      exact Moves.refl _ _
    · exact Moves.refl _ _

theorem itemFree_moves (a0 s) : Moves [.regs, .crsl] s (itemFree a0 s) := by
  unfold itemFree
  refine Moves.seq (flightSync_moves ..) (by decide) ?_
  refine Moves.crsl_with (by decide) ?_
  exact Moves.refl _ _

theorem commitWrites_moves (a0 s) : Moves [.mem, .ddr] s (commitWrites a0 s) := by
  unfold commitWrites
  refine Moves.foldl (fun _ y0 => ?_) ?_
  · refine Moves.seq (dramWrite_moves ..) (by decide) ?_
    exact Moves.refl _ _
  · exact Moves.refl _ _

theorem itemCount_moves (a0 a1 s) : Moves [.mem, .regs, .crsl, .ddr] s (itemCount a0 a1 s) := by
  unfold itemCount
  split
  · exact Moves.refl _ _
  · extract_lets v0
    refine Moves.seq (itemFree_moves ..) (by decide) ?_
    refine Moves.seq (barPut_moves ..) (by decide) ?_
    refine Moves.seq (commitWrites_moves ..) (by decide) ?_
    exact Moves.refl _ _

theorem missMedia_moves (a0 a1 s) : Moves [.mem, .regs, .cnt, .hif, .ctl, .aud, .obs, .ddr, .out] s (missMedia a0 a1 s) := by
  unfold missMedia
  extract_lets v0 v1 v2 v3
  have h200 : Moves [.mem, .regs, .cnt, .hif, .ctl, .aud, .obs, .ddr, .out] s v2 := by
    refine Moves.foldl (fun _ y201 => ?_) ?_
    · refine Moves.seq (degraded_moves ..) (by decide) ?_
      exact Moves.refl _ _
    · exact Moves.refl _ _
  have h202 : Moves [.mem, .regs, .cnt, .hif, .ctl, .aud, .obs, .ddr, .out] s v3 := by
    refine Moves.ite ?_ ?_
    · refine Moves.seq (legMissed_moves ..) (by decide) ?_
      exact h200
    · exact h200
  unfold v0
  split
  · refine Moves.ite ?_ ?_
    · refine Moves.seq (determinismLostAt_moves ..) (by decide) ?_
      exact h202
    · exact h202
  · exact h202

theorem missNote_moves (a0 a1 a2 a3 a4 s) : Moves [.mem, .regs, .cnt, .hif, .ctl, .aud, .obs, .crsl, .ddr, .out] s (missNote a0 a1 a2 a3 a4 s) := by
  unfold missNote
  extract_lets v0 v1 v2 v3
  have h200 : Moves [.mem, .regs, .cnt, .hif, .ctl, .aud, .obs, .crsl, .ddr, .out] s v1 := by
    refine Moves.seq (barPut_moves ..) (by decide) ?_
    exact Moves.refl _ _
  have h201 : Moves [.mem, .regs, .cnt, .hif, .ctl, .aud, .obs, .crsl, .ddr, .out] s v2 := by
    unfold v2
    split
    · refine Moves.seq (cinc_moves ..) (by decide) ?_
      exact h200
    · exact h200
  have h202 : Moves [.mem, .regs, .cnt, .hif, .ctl, .aud, .obs, .crsl, .ddr, .out] s v3 := by
    refine Moves.seq (raiseObj_moves ..) (by decide) ?_
    exact h201
  refine Moves.seq (missMedia_moves ..) (by decide) ?_
  exact h202

theorem debugDrop_moves (a0 s) : Moves [.regs, .crsl] s (debugDrop a0 s) := by
  unfold debugDrop
  extract_lets v0 v1
  have h200 : Moves [.regs, .crsl] s v1 := by
    refine Moves.crsl_with (by decide) ?_
    exact Moves.refl _ _
  refine Moves.foldl (fun _ y201 => ?_) ?_
  · split
    · refine Moves.seq (itemFree_moves ..) (by decide) ?_
      exact Moves.refl _ _
    · refine Moves.seq (itemFree_moves ..) (by decide) ?_
      refine Moves.seq (corePut_moves ..) (by decide) ?_
      exact Moves.refl _ _
    · exact Moves.refl _ _
  · exact h200

theorem barClose_moves (a0 a1 s) : Moves [.mem, .regs, .cnt, .hif, .crsl, .ddr, .out, .free] s (barClose a0 a1 s) := by
  unfold barClose
  extract_lets v0 v1 v2 v3
  have h200 : Moves [.mem, .regs, .cnt, .hif, .crsl, .ddr, .out, .free] s v2 := by
    unfold v2
    split
    · refine Moves.seq (dramWrite_moves ..) (by decide) ?_
      exact Moves.refl _ _
    · exact Moves.refl _ _
  have h201 : Moves [.mem, .regs, .cnt, .hif, .crsl, .ddr, .out, .free] s v3 := by
    refine Moves.seq (barPut_moves ..) (by decide) ?_
    exact h200
  refine Moves.ite ?_ ?_
  · exact Moves.refl _ _
  · refine Moves.seq (itemsMake_moves ..) (by decide) ?_
    refine Moves.seq (debugDrop_moves ..) (by decide) ?_
    exact h201

end Sys2Proof.Machine
end

