-- ==== Sys2Proof/Laws/ChFwdTrack.lean ====
section
/-! SUPPORT. What each operation of Machine/FwdTrack.lean may change: one lemma for each, which says every part of State that it
can alter, and that it keeps the invariant. -/

set_option Elab.async false

namespace Sys2Proof.Machine

theorem trackPut_moves (a0 a1 s) : Moves [.fwd] s (trackPut a0 a1 s) := by
  unfold trackPut
  refine Moves.fwd_with (by decide) ?_
  exact Moves.refl _ _

theorem fwdLegPut_moves (a0 a1 s) : Moves [.fwd] s (fwdLegPut a0 a1 s) := by
  unfold fwdLegPut
  refine Moves.fwd_with (by decide) ?_
  exact Moves.refl _ _

theorem pliRequest_moves (a0 a1 a2 a3 s) : Moves [.cnt, .egr, .fwd] s (pliRequest a0 a1 a2 a3 s) := by
  unfold pliRequest
  split
  · exact Moves.refl _ _
  · extract_lets v0 v1 v2
    have h200 : Moves [.cnt, .egr, .fwd] s v2 := by
      refine Moves.seq (cinc_moves ..) (by decide) ?_
      refine Moves.seq (trackPut_moves ..) (by decide) ?_
      exact Moves.refl _ _
    refine Moves.ite ?_ ?_
    · refine Moves.seq (cinc_moves ..) (by decide) ?_
      exact Moves.refl _ _
    · refine Moves.seq (rtcpFeedback_moves ..) (by decide) ?_
      exact h200

theorem fwdPli_moves (a0 a1 s) : Moves [.cnt, .egr, .fwd, .cas, .free] s (fwdPli a0 a1 s) := by
  unfold fwdPli
  refine Moves.ite ?_ ?_
  · refine Moves.seq (casRequest_moves ..) (by decide) ?_
    exact Moves.refl _ _
  · refine Moves.seq (pliRequest_moves ..) (by decide) ?_
    exact Moves.refl _ _

theorem fwdFir_moves (a0 a1 s) : Moves [.cnt, .egr, .fwd, .cas, .free] s (fwdFir a0 a1 s) := by
  unfold fwdFir
  refine Moves.ite ?_ ?_
  · refine Moves.seq (casRequest_moves ..) (by decide) ?_
    exact Moves.refl _ _
  · split
    · exact Moves.refl _ _
    · extract_lets v0 v1 v2
      have h200 : Moves [.cnt, .egr, .fwd, .cas, .free] s v2 := by
        refine Moves.seq (cinc_moves ..) (by decide) ?_
        refine Moves.seq (fwdLegPut_moves ..) (by decide) ?_
        exact Moves.refl _ _
      refine Moves.ite ?_ ?_
      · refine Moves.seq (cinc_moves ..) (by decide) ?_
        exact Moves.refl _ _
      · refine Moves.seq (rtcpFeedback_moves ..) (by decide) ?_
        exact h200

theorem upstreamNack_moves (a0 a1 s) : Moves [.cnt, .egr, .fwd] s (upstreamNack a0 a1 s) := by
  unfold upstreamNack
  split
  · exact Moves.refl _ _
  · extract_lets v0 v1 v2 v3 v4 v5 v6
    have h200 : Moves [.cnt, .egr, .fwd] s v6 := by
      refine Moves.seq (cinc_moves ..) (by decide) ?_
      refine Moves.seq (trackPut_moves ..) (by decide) ?_
      exact Moves.refl _ _
    refine Moves.ite ?_ ?_
    · exact Moves.refl _ _
    · refine Moves.seq (rtcpFeedback_moves ..) (by decide) ?_
      exact h200

theorem trackBlock_moves (b s) : Moves [.cnt, .egr, .fwd, .cas, .free] s (trackBlock b s).2 := by
  unfold trackBlock
  refine Moves.foldl_snd (fun id l y => ?_) (Moves.refl _ _)
  split
  · exact Moves.refl _ _
  · extract_lets es codec r t broken used
    have ht : Moves [.cnt, .egr, .fwd, .cas, .free] y t := (trackPut_moves ..).mono (by decide)
    refine Moves.ite_snd (Moves.refl _ _) (Moves.ite (Moves.seq (fwdPli_moves ..) (by decide) ht) ht)

end Sys2Proof.Machine
end

