-- ==== Sys2Proof/Laws/ChFwd.lean ====
section
/-! SUPPORT. What each operation of Machine/Fwd.lean may change: one lemma for each, which says every part of State that it
can alter, and that it keeps the invariant. -/

set_option Elab.async false

namespace Sys2Proof.Machine

theorem fwdLegStart_moves (a0 a1 s) : Moves [.fwd] s (fwdLegStart a0 a1 s) := by
  unfold fwdLegStart
  extract_lets v0 v1
  refine Moves.seq (fwdLegPut_moves ..) (by decide) ?_
  exact Moves.refl _ _

theorem laTwcc_moves (a0 a1 a2 a3 s) : Moves [.fwd] s (laTwcc a0 a1 a2 a3 s) := by
  unfold laTwcc
  extract_lets v0 v1 v2 v3 v4 v5 v6
  refine Moves.seq (fwdLegPut_moves ..) (by decide) ?_
  exact Moves.refl _ _

theorem laLoss_moves (a0 a1 a2 s) : Moves [.fwd] s (laLoss a0 a1 a2 s) := by
  unfold laLoss
  extract_lets v0
  refine Moves.ite ?_ ?_
  · refine Moves.seq (fwdLegPut_moves ..) (by decide) ?_
    exact Moves.refl _ _
  · refine Moves.ite ?_ ?_
    · refine Moves.seq (fwdLegPut_moves ..) (by decide) ?_
      exact Moves.refl _ _
    · exact Moves.refl _ _

theorem laOther_moves (a0 a1 a2 s) : Moves [.egr, .fwd] s (laOther a0 a1 a2 s) := by
  unfold laOther
  extract_lets v0
  split
  · refine Moves.seq (laLoss_moves ..) (by decide) ?_
    refine Moves.seq (fwdLegPut_moves ..) (by decide) ?_
    exact Moves.refl _ _
  · extract_lets v200
    have h400 : Moves [.egr, .fwd] s v200 := by
      refine Moves.seq (fwdLegPut_moves ..) (by decide) ?_
      exact Moves.refl _ _
    split
    · refine Moves.seq (laLoss_moves ..) (by decide) ?_
      exact h400
    · exact h400
  · extract_lets v401 v402
    have h601 : Moves [.egr, .fwd] s v401 := by
      refine Moves.seq (fwdLegPut_moves ..) (by decide) ?_
      exact Moves.refl _ _
    refine Moves.seq (rtcpFeedback_moves ..) (by decide) ?_
    exact h601
  · refine Moves.seq (fwdLegPut_moves ..) (by decide) ?_
    exact Moves.refl _ _
  · exact Moves.refl _ _

theorem laRun_moves (a0 a1 a2 s) : Moves [.egr, .fwd] s (laRun a0 a1 a2 s) := by
  unfold laRun
  extract_lets v0 v1 v2 v3 v4 v5 v6 v7 v8
  have h200 : Moves [.egr, .fwd] s v2 := by
    refine Moves.seq (fwdLegPut_moves ..) (by decide) ?_
    exact Moves.refl _ _
  have h201 : Moves [.egr, .fwd] s v4 := by
    refine Moves.foldl (fun _ y202 => ?_) ?_
    · split
      · refine Moves.seq (laTwcc_moves ..) (by decide) ?_
        exact Moves.refl _ _
      · exact Moves.refl _ _
    · exact h200
  have h203 : Moves [.egr, .fwd] s v5 := by
    refine Moves.foldl (fun _ y204 => ?_) ?_
    · refine Moves.seq (laOther_moves ..) (by decide) ?_
      exact Moves.refl _ _
    · exact h201
  refine Moves.seq (fwdLegPut_moves ..) (by decide) ?_
  exact h203

theorem layerSwitch_moves (a0 a1 a2 a3 s) : Moves [.mem, .regs, .cnt, .hif, .ddr, .out] s (layerSwitch a0 a1 a2 a3 s) := by
  unfold layerSwitch
  split
  · exact Moves.refl _ _
  · refine Moves.seq (raiseObj_moves ..) (by decide) ?_
    refine Moves.seq (cinc_moves ..) (by decide) ?_
    exact Moves.refl _ _

theorem pendSet.go_moves (a0 a1 a2 a3 a4 s) : Moves [.cnt, .egr, .fwd, .cas, .free] s (pendSet.go a0 a1 a2 a3 a4 s) := by
  unfold pendSet.go
  extract_lets v0
  have h200 : Moves [.cnt, .egr, .fwd, .cas, .free] s v0 := by
    refine Moves.seq (fwdLegPut_moves ..) (by decide) ?_
    exact Moves.refl _ _
  refine Moves.ite ?_ ?_
  · split
    · refine Moves.seq (fwdPli_moves ..) (by decide) ?_
      exact h200
    · exact h200
  · exact h200

theorem pendSet_moves (a0 a1 a2 a3 s) : Moves [.cnt, .egr, .fwd, .cas, .free] s (pendSet a0 a1 a2 a3 s) := by
  unfold pendSet
  extract_lets v0 v1
  split
  · refine Moves.ite ?_ ?_
    · exact Moves.refl _ _
    · refine Moves.seq (pendSet.go_moves ..) (by decide) ?_
      exact Moves.refl _ _
  · refine Moves.seq (pendSet.go_moves ..) (by decide) ?_
    exact Moves.refl _ _

theorem chooseLeg_moves (a0 a1 a2 s) : Moves [.mem, .regs, .cnt, .hif, .egr, .fwd, .ddr, .cas, .out, .free] s (chooseLeg a0 a1 a2 s) := by
  unfold chooseLeg
  extract_lets v0
  split
  · exact Moves.refl _ _
  · split
    · exact Moves.refl _ _
    · extract_lets v200 v201 v202 v203 v204 v205 v206
      have h400 : Moves [.mem, .regs, .cnt, .hif, .egr, .fwd, .ddr, .cas, .out, .free] s v202 := by
        refine Moves.seq (fwdLegPut_moves ..) (by decide) ?_
        exact Moves.refl _ _
      have h401 : Moves [.mem, .regs, .cnt, .hif, .egr, .fwd, .ddr, .cas, .out, .free] s v205 := by
        refine Moves.seq (fwdLegPut_moves ..) (by decide) ?_
        exact h400
      unfold v200
      split
      · refine Moves.ite ?_ ?_
        · refine Moves.seq (layerSwitch_moves ..) (by decide) ?_
          exact h401
        · exact h401
      · split
        · refine Moves.ite ?_ ?_
          · refine Moves.seq (pendSet_moves ..) (by decide) ?_
            exact h400
          · exact h400
        · refine Moves.ite ?_ ?_
          · refine Moves.seq (pendSet_moves ..) (by decide) ?_
            exact h400
          · refine Moves.ite ?_ ?_
            · refine Moves.seq (fwdLegPut_moves ..) (by decide) ?_
              exact h400
            · refine Moves.ite ?_ ?_
              · refine Moves.seq (pendSet_moves ..) (by decide) ?_
                exact h400
              · refine Moves.ite ?_ ?_
                · refine Moves.seq (pendSet_moves ..) (by decide) ?_
                  exact h400
                · exact h400

theorem switchTake_moves (a0 a1 a2 a3 s) : Moves [.mem, .regs, .cnt, .hif, .fwd, .ddr, .out] s (switchTake a0 a1 a2 a3 s) := by
  unfold switchTake
  extract_lets v0 v1 v2 v3 v4 v5
  have h200 : Moves [.mem, .regs, .cnt, .hif, .fwd, .ddr, .out] s v4 := by
    refine Moves.seq (fwdLegPut_moves ..) (by decide) ?_
    exact Moves.refl _ _
  have h201 : Moves [.mem, .regs, .cnt, .hif, .fwd, .ddr, .out] s v5 := by
    refine Moves.seq (layerSwitch_moves ..) (by decide) ?_
    exact h200
  split
  · refine Moves.ite ?_ ?_
    · refine Moves.seq (raiseObj_moves ..) (by decide) ?_
      exact h201
    · exact h201
  · exact h201

theorem sendPacket_moves (a0 a1 a2 a3 a4 a5 a6 a7 a8 a9 a10 s) : Moves [.cnt, .egr, .fwd] s (sendPacket a0 a1 a2 a3 a4 a5 a6 a7 a8 a9 a10 s) := by
  unfold sendPacket
  extract_lets v0 v1 v2 v3 v4 v5 v6 v7 v8 v9 v10 v11 v12 v13
  have h200 : Moves [.cnt, .egr, .fwd] s v10 := by
    refine Moves.seq (fwdLegPut_moves ..) (by decide) ?_
    exact Moves.refl _ _
  have h201 : Moves [.cnt, .egr, .fwd] s v11 := by
    unfold v11
    split
    · refine Moves.ite ?_ ?_
      · refine Moves.seq (egrLegPut_moves ..) (by decide) ?_
        exact h200
      · exact h200
    · exact h200
  have h202 : Moves [.cnt, .egr, .fwd] s v12 := by
    refine Moves.seq (cadd_moves ..) (by decide) ?_
    exact h201
  refine Moves.seq (egrMedia_moves ..) (by decide) ?_
  exact h202

theorem offerFrames_moves (n ctx codec fs s) : Moves [.mem, .regs, .cnt, .hif, .fwd, .ddr, .out] s (offerFrames n ctx codec fs s).2 := by
  unfold offerFrames
  refine Moves.foldl_snd (fun p l y => ?_) (Moves.refl _ _)
  extract_lets f s0 x t x'
  have ht : Moves [.mem, .regs, .cnt, .hif, .fwd, .ddr, .out] y t := by
    unfold t
    split
    · exact Moves.refl _ _
    · split
      · exact (switchTake_moves ..).mono (by decide)
      · exact Moves.refl _ _
  have hp : ∀ z, Moves [.mem, .regs, .cnt, .hif, .fwd, .ddr, .out] y (fwdLegPut n z t) := fun _ => Moves.seq (fwdLegPut_moves ..) (by decide) ht
  split
  · exact ht
  · refine Moves.ite_snd ht (Moves.ite_snd (Moves.seq (cinc_moves ..) (by decide) (hp _)) (Moves.ite_snd (hp _) ht))

theorem sendUnit_moves (a0 a1 a2 a3 a4 a5 a6 s) : Moves [.cnt, .egr, .fwd] s (sendUnit a0 a1 a2 a3 a4 a5 a6 s) := by
  unfold sendUnit
  extract_lets v0 v1
  unfold v0
  split
  · exact Moves.refl _ _
  · split
    · exact Moves.refl _ _
    · extract_lets v200 v201 v202
      have h400 : Moves [.cnt, .egr, .fwd] s v202 := by
        refine Moves.seq (cinc_moves ..) (by decide) ?_
        refine Moves.seq (cinc_moves ..) (by decide) ?_
        refine Moves.seq (fwdLegPut_moves ..) (by decide) ?_
        exact Moves.refl _ _
      refine Moves.foldl (fun _ y401 => ?_) ?_
      · refine Moves.seq (sendPacket_moves ..) (by decide) ?_
        exact Moves.refl _ _
      · exact h400

theorem forwardLeg_moves (a0 a1 a2 a3 s) : Moves [.mem, .regs, .cnt, .hif, .egr, .fwd, .ddr, .out] s (forwardLeg a0 a1 a2 a3 s) := by
  unfold forwardLeg
  split
  · exact Moves.refl _ _
  · refine Moves.foldl (fun _ y0 => ?_) ?_
    · split
      · extract_lets v1
        refine Moves.seq (sendUnit_moves ..) (by decide) ?_
        refine Moves.seq (offerFrames_moves ..) (by decide) ?_
        exact Moves.refl _ _
      · exact Moves.refl _ _
    · exact Moves.refl _ _

theorem pausedLeg_moves (a0 a1 s) : Moves [.mem, .regs, .cnt, .hif, .ctl, .fwd, .ddr, .out] s (pausedLeg a0 a1 s) := by
  unfold pausedLeg
  extract_lets v0 v1 v2 v3
  have h200 : Moves [.mem, .regs, .cnt, .hif, .ctl, .fwd, .ddr, .out] s v2 := by
    refine Moves.seq (degraded_moves ..) (by decide) ?_
    refine Moves.seq (cinc_moves ..) (by decide) ?_
    exact Moves.refl _ _
  refine Moves.ite ?_ ?_
  · exact Moves.refl _ _
  · split
    · rename_i x201 e202
      have h203 : Moves [.mem, .regs, .cnt, .hif, .ctl, .fwd, .ddr, .out] s x201 := by
        refine Moves.of_snd e202 ?_
        refine Moves.seq (rateOk_moves ..) (by decide) ?_
        exact h200
      refine Moves.seq (raiseObj_moves ..) (by decide) ?_
      refine Moves.seq (fwdLegPut_moves ..) (by decide) ?_
      exact h203
    · rename_i x204 e205
      have h206 : Moves [.mem, .regs, .cnt, .hif, .ctl, .fwd, .ddr, .out] s x204 := by
        refine Moves.of_snd e205 ?_
        refine Moves.seq (rateOk_moves ..) (by decide) ?_
        exact h200
      refine Moves.seq (fwdLegPut_moves ..) (by decide) ?_
      exact h206

theorem rtxOne_moves (a0 a1 a2 a3 s) : Moves [.cnt, .egr, .fwd] s (rtxOne a0 a1 a2 a3 s) := by
  unfold rtxOne
  extract_lets v0 v1 v2
  have h200 : Moves [.cnt, .egr, .fwd] s v1 := by
    refine Moves.seq (cinc_moves ..) (by decide) ?_
    exact Moves.refl _ _
  split
  · split
    · extract_lets v201
      split
      · exact h200
      · extract_lets v401 v402 v403 v404 v405 v406
        have h601 : Moves [.cnt, .egr, .fwd] s v403 := by
          refine Moves.seq (fwdLegPut_moves ..) (by decide) ?_
          exact Moves.refl _ _
        have h602 : Moves [.cnt, .egr, .fwd] s v405 := by
          refine Moves.egr_with (by decide) ?_
          exact h601
        have h603 : Moves [.cnt, .egr, .fwd] s v406 := by
          refine Moves.seq (cinc_moves ..) (by decide) ?_
          refine Moves.seq (cinc_moves ..) (by decide) ?_
          exact h602
        refine Moves.ite ?_ ?_
        · exact h200
        · refine Moves.ite ?_ ?_
          · refine Moves.seq (cinc_moves ..) (by decide) ?_
            exact Moves.refl _ _
          · refine Moves.seq (egrPush_moves ..) (by decide) ?_
            exact h603
    · exact h200
  · exact h200

theorem rtxRun_moves (a0 a1 s) : Moves [.cnt, .egr, .fwd] s (rtxRun a0 a1 s) := by
  unfold rtxRun
  extract_lets v0 v1 v2
  have h200 : Moves [.cnt, .egr, .fwd] s v2 := by
    refine Moves.seq (fwdLegPut_moves ..) (by decide) ?_
    exact Moves.refl _ _
  refine Moves.foldl (fun _ y201 => ?_) ?_
  · refine Moves.seq (rtxOne_moves ..) (by decide) ?_
    exact Moves.refl _ _
  · exact h200

end Sys2Proof.Machine
end

