-- ==== Sys2Proof/Laws/ChDec.lean ====
section
/-! SUPPORT. What each operation of Machine/Dec.lean may change: one lemma for each, which says every part of State that it
can alter, and that it keeps the invariant. -/

set_option Elab.async false

namespace Sys2Proof.Machine

theorem surfaceWrite_moves (a0 a1 a2 a3 a4 a5 a6 s) : Moves [.mem, .ddr] s (surfaceWrite a0 a1 a2 a3 a4 a5 a6 s) := by
  unfold surfaceWrite
  extract_lets v0 v1
  have h200 : Moves [.mem, .ddr] s v1 := by
    refine Moves.seq (dramWriteRun_moves ..) (by decide) ?_
    exact Moves.refl _ _
  refine Moves.seq (dramWriteRun_moves ..) (by decide) ?_
  exact h200

theorem poolTake_moves {r kind n a : Nat} {s t : State} (e : poolTake r kind n s = some (a, t)) : Moves [.vid] s t := by
  unfold poolTake at e
  split at e
  · cases e
  · cases e
    exact Moves.vid_with (by decide) (Moves.refl _ _)

theorem poolTakeN_moves {k r kind n : Nat} {l : List Nat} {s t : State} (e : poolTakeN k r kind n s = some (l, t)) :
    Moves [.vid] s t := by
  induction k generalizing s l t with
  | zero => cases e; exact Moves.refl _ _
  | succ k ih =>
    unfold poolTakeN at e
    split at e
    · cases e
    · next a u h =>
      split at e
      · cases e
      · next m v g =>
        cases e
        exact (poolTake_moves h).trans (ih g)

theorem poolFree_moves (a0 a1 s) : Moves [.vid] s (poolFree a0 a1 s) := by
  unfold poolFree
  split
  · refine Moves.vid_with (by decide) ?_
    exact Moves.refl _ _
  · refine Moves.vid_with (by decide) ?_
    exact Moves.refl _ _

theorem poolExpire_moves (a0 s) : Moves [.vid] s (poolExpire a0 s) := by
  unfold poolExpire
  refine Moves.vid_with (by decide) ?_
  exact Moves.refl _ _

theorem tileSync_moves (a0 s) : Moves [.regs] s (tileSync a0 s) := by
  unfold tileSync
  refine Moves.ite ?_ ?_
  · exact Moves.refl _ _
  · extract_lets v0 v1 v2 v3 v4
    have h200 : Moves [.regs] s v2 := by
      refine Moves.seq (fset_moves ..) (by decide) ?_
      refine Moves.seq (fset_moves ..) (by decide) ?_
      exact Moves.refl _ _
    have h201 : Moves [.regs] s v3 := by
      refine Moves.seq (fset_moves ..) (by decide) ?_
      exact h200
    have h202 : Moves [.regs] s v4 := by
      refine Moves.seq (fset_moves ..) (by decide) ?_
      exact h201
    refine Moves.seq (fset_moves ..) (by decide) ?_
    refine Moves.seq (fset_moves ..) (by decide) ?_
    exact h202

theorem sessPut_moves (a0 a1 s) : Moves [.vid] s (sessPut a0 a1 s) := by
  unfold sessPut
  refine Moves.vid_with (by decide) ?_
  exact Moves.refl _ _

theorem decPli_moves (a0 a1 s) : Moves [.cnt, .egr, .fwd] s (decPli a0 a1 s) := by
  unfold decPli
  refine Moves.seq (pliRequest_moves ..) (by decide) ?_
  exact Moves.refl _ _

theorem tileAdd_moves (a0 a1 a2 s) : Moves [.cnt] s (tileAdd a0 a1 a2 s) := by
  unfold tileAdd
  refine Moves.ite ?_ ?_
  · refine Moves.seq (cadd_moves ..) (by decide) ?_
    exact Moves.refl _ _
  · exact Moves.refl _ _

theorem sessMark_moves (a0 a1 s) : Moves [.vid] s (sessMark a0 a1 s) := by
  unfold sessMark
  refine Moves.seq (sessPut_moves ..) (by decide) ?_
  exact Moves.refl _ _

theorem sessSave_moves (a0 a1 s) : Moves [.cnt, .vid] s (sessSave a0 a1 s) := by
  unfold sessSave
  refine Moves.seq (tileAdd_moves ..) (by decide) ?_
  refine Moves.seq (sessMark_moves ..) (by decide) ?_
  exact Moves.refl _ _

theorem sessLoad_moves (a0 a1 s) : Moves [.fwd, .vid] s (sessLoad a0 a1 s) := by
  unfold sessLoad
  extract_lets v0 v1
  have h200 : Moves [.fwd, .vid] s v0 := by
    refine Moves.seq (sessPut_moves ..) (by decide) ?_
    exact Moves.refl _ _
  split
  · exact h200
  · refine Moves.seq (trackPut_moves ..) (by decide) ?_
    exact h200

theorem sessOpen_moves {id user b : Nat} {s t : State} (e : sessOpen id user b s = .ok t) : Moves [.regs, .cnt, .ctl, .egr, .fwd, .vid] s t := by
  unfold sessOpen at e
  split at e
  · cases e
  · split at e
    · cases e
    · dsimp only at e
      split at e
      · cases e
      · split at e
        · cases e
        · next h1 =>
          split at e
          · cases e
          · next h2 =>
            cases e
            refine Moves.seq (decPli_moves ..) (by decide) (Moves.seq (tileSync_moves ..) (by decide)
              (Moves.seq (chargeUp_moves ..) (by decide) (Moves.seq (sessPut_moves ..) (by decide) ?_)))
            exact Moves.seq (poolTake_moves h2) (by decide) ((poolTakeN_moves h1).mono (by decide))

theorem sessUse_moves {id user b : Nat} {s t : State} (e : sessUse id user b s = .ok t) : Moves [.regs, .cnt, .ctl, .egr, .fwd, .vid] s t := by
  unfold sessUse at e
  split at e
  · cases e; exact (sessPut_moves ..).mono (by decide)
  · exact (sessOpen_moves e).mono (by decide)

theorem sessClose_moves (a0 a1 s) : Moves [.regs, .ctl, .vid, .flt] s (sessClose a0 a1 s) := by
  unfold sessClose
  extract_lets v0 v1 v2 v3
  have h200 : Moves [.regs, .ctl, .vid, .flt] s v1 := by
    refine Moves.seq (drainForget_moves ..) (by decide) ?_
    refine Moves.vid_with (by decide) ?_
    exact Moves.refl _ _
  have h201 : Moves [.regs, .ctl, .vid, .flt] s v2 := by
    refine Moves.seq (tileSync_moves ..) (by decide) ?_
    refine Moves.seq (chargeDown_moves ..) (by decide) ?_
    exact h200
  have h202 : Moves [.regs, .ctl, .vid, .flt] s v3 := by
    refine Moves.foldl (fun _ y203 => ?_) ?_
    · extract_lets v204
      refine Moves.seq (poolFree_moves ..) (by decide) ?_
      exact Moves.refl _ _
    · exact h201
  refine Moves.seq (poolFree_moves ..) (by decide) ?_
  exact h202

theorem sessDrop_moves (a0 a1 s) : Moves [.regs, .ctl, .vid, .flt] s (sessDrop a0 a1 s) := by
  unfold sessDrop
  split
  · exact Moves.refl _ _
  · extract_lets v0
    refine Moves.ite ?_ ?_
    · refine Moves.seq (sessClose_moves ..) (by decide) ?_
      exact Moves.refl _ _
    · refine Moves.seq (sessPut_moves ..) (by decide) ?_
      exact Moves.refl _ _

theorem sessQueue_moves (a0 a1 s) : Moves [.vid] s (sessQueue a0 a1 s) := by
  unfold sessQueue
  split
  · extract_lets v0 v1
    refine Moves.seq (sessPut_moves ..) (by decide) ?_
    exact Moves.refl _ _
  · exact Moves.refl _ _

theorem sessBlock_moves (a0 s) : Moves [.vid] s (sessBlock a0 s) := by
  unfold sessBlock
  extract_lets v0
  have h200 : Moves [.vid] s v0 := by
    refine Moves.seq (poolExpire_moves ..) (by decide) ?_
    exact Moves.refl _ _
  refine Moves.foldl (fun _ y201 => ?_) ?_
  · split
    · refine Moves.seq (sessQueue_moves ..) (by decide) ?_
      refine Moves.seq (sessPut_moves ..) (by decide) ?_
      exact Moves.refl _ _
    · exact Moves.refl _ _
  · exact h200

theorem poolStall_moves (a0 a1 s) : Moves [.mem, .regs, .cnt, .hif, .vid, .ddr, .out] s (poolStall a0 a1 s) := by
  unfold poolStall
  extract_lets v0
  have h200 : Moves [.mem, .regs, .cnt, .hif, .vid, .ddr, .out] s v0 := by
    refine Moves.seq (cinc_moves ..) (by decide) ?_
    exact Moves.refl _ _
  split
  · rename_i x201 e202
    have h203 : Moves [.mem, .regs, .cnt, .hif, .vid, .ddr, .out] s x201 := by
      refine Moves.of_snd e202 ?_
      refine Moves.seq (rateOk_moves ..) (by decide) ?_
      exact h200
    refine Moves.seq (raiseObj_moves ..) (by decide) ?_
    refine Moves.seq (sessSave_moves ..) (by decide) ?_
    exact h203
  · rename_i x204 e205
    have h206 : Moves [.mem, .regs, .cnt, .hif, .vid, .ddr, .out] s x204 := by
      refine Moves.of_snd e205 ?_
      refine Moves.seq (rateOk_moves ..) (by decide) ?_
      exact h200
    refine Moves.seq (sessSave_moves ..) (by decide) ?_
    exact h206

theorem trackBreak_moves (a0 a1 a2 a3 s) : Moves [.fwd] s (trackBreak a0 a1 a2 a3 s) := by
  unfold trackBreak
  extract_lets v0
  refine Moves.seq (trackPut_moves ..) (by decide) ?_
  exact Moves.refl _ _

theorem missingRef_moves (a0 a1 a2 a3 a4 s) : Moves [.mem, .regs, .cnt, .hif, .egr, .fwd, .ddr, .out] s (missingRef a0 a1 a2 a3 a4 s) := by
  unfold missingRef
  extract_lets v0 v1
  have h200 : Moves [.mem, .regs, .cnt, .hif, .egr, .fwd, .ddr, .out] s v0 := by
    refine Moves.seq (cinc_moves ..) (by decide) ?_
    exact Moves.refl _ _
  have h201 : Moves [.mem, .regs, .cnt, .hif, .egr, .fwd, .ddr, .out] s v1 := by
    refine Moves.seq (raiseObj_moves ..) (by decide) ?_
    exact h200
  refine Moves.seq (trackBreak_moves ..) (by decide) ?_
  refine Moves.seq (decPli_moves ..) (by decide) ?_
  exact h201

theorem decodeGo_moves (a0 a1 a2 a3 a4 s) : Moves [.mem, .regs, .cnt, .hif, .egr, .fwd, .vid, .ddr, .out] s (decodeGo a0 a1 a2 a3 a4 s) := by
  unfold decodeGo
  extract_lets v0 v1 v2 v3 v4 v5
  have h200 : Moves [.mem, .regs, .cnt, .hif, .egr, .fwd, .vid, .ddr, .out] s v4 := by
    refine Moves.ite ?_ ?_
    · refine Moves.seq (missingRef_moves ..) (by decide) ?_
      exact Moves.refl _ _
    · exact Moves.refl _ _
  unfold v5
  split
  · refine Moves.ite ?_ ?_
    · refine Moves.seq (sessSave_moves ..) (by decide) ?_
      exact h200
    · refine Moves.seq (poolStall_moves ..) (by decide) ?_
      exact h200
  · refine Moves.seq (sessPut_moves ..) (by decide) ?_
    exact h200

theorem decodeStart_moves (a0 a1 a2 a3 s) : Moves [.mem, .regs, .cnt, .hif, .egr, .fwd, .vid, .obs, .ddr, .out] s (decodeStart a0 a1 a2 a3 s) := by
  unfold decodeStart
  extract_lets b x near y bad
  have hb : ∀ r, Moves [.mem, .regs, .cnt, .hif, .egr, .fwd, .vid, .obs, .ddr, .out] s (bad r s) := by
    intro r
    unfold bad
    extract_lets t
    have ht : Moves [.mem, .regs, .cnt, .hif, .egr, .fwd, .vid, .obs, .ddr, .out] s t := Moves.seq (sessSave_moves ..) (by decide) (Moves.refl _ _)
    exact Moves.ite ht (Moves.seq (decPli_moves ..) (by decide) (Moves.seq (raiseObj_moves ..) (by decide) ht))
  have hs : ∀ y, Moves [.mem, .regs, .cnt, .hif, .egr, .fwd, .vid, .obs, .ddr, .out] s (sessSave a0 y s) := fun y => Moves.seq (sessSave_moves ..) (by decide) (Moves.refl _ _)
  refine Moves.ite (hs _) (Moves.ite ?_ (Moves.ite (hb _) ?_))
  · exact Moves.seq (determinismLost_moves ..) (by decide) (Moves.seq (cinc_moves ..) (by decide) (hs _))
  · split
    · exact Moves.seq (decPli_moves ..) (by decide) (Moves.seq (cinc_moves ..) (by decide) (hs _))
    · exact Moves.ite (hb _) (Moves.ite (hs _) (Moves.seq (decodeGo_moves ..) (by decide) (Moves.refl _ _)))

theorem decError_moves (a0 a1 a2 s) : Moves [.mem, .regs, .cnt, .hif, .vid, .ddr, .out] s (decError a0 a1 a2 s) := by
  unfold decError
  refine Moves.ite ?_ ?_
  · exact Moves.refl _ _
  · extract_lets v0
    have h200 : Moves [.mem, .regs, .cnt, .hif, .vid, .ddr, .out] s v0 := by
      refine Moves.seq (cadd_moves ..) (by decide) ?_
      refine Moves.seq (cinc_moves ..) (by decide) ?_
      refine Moves.seq (tileAdd_moves ..) (by decide) ?_
      exact Moves.refl _ _
    split
    · exact h200
    · split
      · rename_i x201 e202
        have h203 : Moves [.mem, .regs, .cnt, .hif, .vid, .ddr, .out] s x201 := by
          refine Moves.of_snd e202 ?_
          refine Moves.seq (rateOk_moves ..) (by decide) ?_
          exact h200
        refine Moves.seq (raiseObj_moves ..) (by decide) ?_
        refine Moves.seq (sessPut_moves ..) (by decide) ?_
        exact h203
      · rename_i x204 e205
        have h206 : Moves [.mem, .regs, .cnt, .hif, .vid, .ddr, .out] s x204 := by
          refine Moves.of_snd e205 ?_
          refine Moves.seq (rateOk_moves ..) (by decide) ?_
          exact h200
        refine Moves.seq (sessPut_moves ..) (by decide) ?_
        exact h206

theorem outSerials_moves (a0 a1 s) : Moves [.mem, .ddr] s (outSerials a0 a1 s) := by
  unfold outSerials
  refine Moves.foldl (fun _ y0 => ?_) ?_
  · refine Moves.seq (dramWrite_moves ..) (by decide) ?_
    exact Moves.refl _ _
  · exact Moves.refl _ _

theorem decodeComplete_moves (a0 a1 a2 s) : Moves [.mem, .regs, .cnt, .hif, .egr, .fwd, .vid, .ddr, .out] s (decodeComplete a0 a1 a2 s) := by
  unfold decodeComplete
  extract_lets v0 v1 v2 v3 v4 v5 v6 v7 v8 v9 v10 v11 v12 v13 v14 v15 v16 v17
  have h200 : Moves [.mem, .regs, .cnt, .hif, .egr, .fwd, .vid, .ddr, .out] s v9 := by
    refine Moves.ite ?_ ?_
    · exact Moves.refl _ _
    · refine Moves.seq (surfaceWrite_moves ..) (by decide) ?_
      exact Moves.refl _ _
  have h201 : Moves [.mem, .regs, .cnt, .hif, .egr, .fwd, .vid, .ddr, .out] s v10 := by
    refine Moves.seq (outSerials_moves ..) (by decide) ?_
    refine Moves.seq (sessPut_moves ..) (by decide) ?_
    exact h200
  have h202 : Moves [.mem, .regs, .cnt, .hif, .egr, .fwd, .vid, .ddr, .out] s v11 := by
    refine Moves.seq (tileAdd_moves ..) (by decide) ?_
    refine Moves.seq (tileAdd_moves ..) (by decide) ?_
    refine Moves.seq (tileAdd_moves ..) (by decide) ?_
    exact h201
  have h203 : Moves [.mem, .regs, .cnt, .hif, .egr, .fwd, .vid, .ddr, .out] s v12 := by
    refine Moves.seq (cinc_moves ..) (by decide) ?_
    exact h202
  have h204 : Moves [.mem, .regs, .cnt, .hif, .egr, .fwd, .vid, .ddr, .out] s v13 := by
    refine Moves.ite ?_ ?_
    · refine Moves.seq (cinc_moves ..) (by decide) ?_
      exact h203
    · exact h203
  have h205 : Moves [.mem, .regs, .cnt, .hif, .egr, .fwd, .vid, .ddr, .out] s v14 := by
    refine Moves.seq (decError_moves ..) (by decide) ?_
    exact h204
  have h206 : Moves [.mem, .regs, .cnt, .hif, .egr, .fwd, .vid, .ddr, .out] s v15 := by
    refine Moves.ite ?_ ?_
    · refine Moves.seq (raiseObj_moves ..) (by decide) ?_
      exact h205
    · exact h205
  have h207 : Moves [.mem, .regs, .cnt, .hif, .egr, .fwd, .vid, .ddr, .out] s v16 := by
    refine Moves.ite ?_ ?_
    · refine Moves.seq (decPli_moves ..) (by decide) ?_
      exact h206
    · exact h206
  have h208 : Moves [.mem, .regs, .cnt, .hif, .egr, .fwd, .vid, .ddr, .out] s v17 := by
    unfold v17
    split
    · refine Moves.seq (sessSave_moves ..) (by decide) ?_
      exact h207
    · exact h207
  refine Moves.seq (tileSync_moves ..) (by decide) ?_
  exact h208

theorem decodeMissed_moves (a0 a1 a2 a3 s) : Moves [.mem, .regs, .cnt, .hif, .vid, .obs, .ddr, .out] s (decodeMissed a0 a1 a2 a3 s) := by
  unfold decodeMissed
  extract_lets v0 v1 v2
  have h200 : Moves [.mem, .regs, .cnt, .hif, .vid, .obs, .ddr, .out] s v0 := by
    refine Moves.seq (sessSave_moves ..) (by decide) ?_
    exact Moves.refl _ _
  have h201 : Moves [.mem, .regs, .cnt, .hif, .vid, .obs, .ddr, .out] s v1 := by
    refine Moves.seq (tileAdd_moves ..) (by decide) ?_
    refine Moves.seq (cinc_moves ..) (by decide) ?_
    exact h200
  have h202 : Moves [.mem, .regs, .cnt, .hif, .vid, .obs, .ddr, .out] s v2 := by
    refine Moves.seq (determinismLost_moves ..) (by decide) ?_
    exact h201
  refine Moves.seq (tileSync_moves ..) (by decide) ?_
  refine Moves.seq (raiseObj_moves ..) (by decide) ?_
  exact h202

end Sys2Proof.Machine
end

