-- ==== Sys2Proof/Laws/ChEgrRows.lean ====
section
/-! SUPPORT. What each operation of Machine/EgrRows.lean may change: one lemma for each, which says every part of State that it
can alter, and that it keeps the invariant. -/

set_option Elab.async false

namespace Sys2Proof.Machine

theorem applyShaperSet_moves (a0 a1 s) : Moves [.egr] s (applyShaperSet a0 a1 s).1 := by
  unfold applyShaperSet
  extract_lets v0 v1 v2 v3 v4 v5
  refine Moves.ite_fst ?_ ?_
  · refine Moves.mk_fst ?_
    exact Moves.refl _ _
  · refine Moves.ite_fst ?_ ?_
    · refine Moves.mk_fst ?_
      exact Moves.refl _ _
    · split
      · split
        · split
          · refine Moves.mk_fst ?_
            refine Moves.seq (egrLegPut_moves ..) (by decide) ?_
            exact Moves.refl _ _
          · refine Moves.mk_fst ?_
            exact Moves.refl _ _
        · split
          · refine Moves.mk_fst ?_
            refine Moves.seq (egrLegPut_moves ..) (by decide) ?_
            exact Moves.refl _ _
          · refine Moves.mk_fst ?_
            exact Moves.refl _ _
        · split
          · refine Moves.ite_fst ?_ ?_
            · refine Moves.mk_fst ?_
              refine Moves.seq (egrStrPut_moves ..) (by decide) ?_
              exact Moves.refl _ _
            · refine Moves.mk_fst ?_
              exact Moves.refl _ _
          · refine Moves.mk_fst ?_
            exact Moves.refl _ _
        · refine Moves.ite_fst ?_ ?_
          · refine Moves.mk_fst ?_
            refine Moves.seq (egrLegPut_moves ..) (by decide) ?_
            exact Moves.refl _ _
          · refine Moves.mk_fst ?_
            exact Moves.refl _ _
        · refine Moves.mk_fst ?_
          exact Moves.refl _ _
      · refine Moves.mk_fst ?_
        exact Moves.refl _ _

theorem execTransmitWindow_runs (a0 s) : Runs [.mem, .regs, .cnt, .hif, .ctl, .egr, .obs, .ddr, .cas, .out, .free] s (execTransmitWindow a0 s) := by
  unfold execTransmitWindow
  refine Runs.next ?_
  refine Moves.ite ?_ ?_
  · refine Moves.seq (window_moves ..) (by decide) ?_
    exact Moves.refl _ _
  · exact Moves.refl _ _

theorem execRtcpReportSend_runs (a0 s) : Runs [.ctl, .egr] s (execRtcpReportSend a0 s) := by
  unfold execRtcpReportSend
  refine Runs.next ?_
  split
  · refine Moves.ite ?_ ?_
    · refine Moves.seq (rtcpReport_moves ..) (by decide) ?_
      exact Moves.refl _ _
    · exact Moves.refl _ _
  · exact Moves.refl _ _

theorem execSchedulerTakeover_runs (a0 s) : Runs [.mem, .regs, .cnt, .hif, .egr, .flt, .ddr, .ldg, .out] s (execSchedulerTakeover a0 s) := by
  unfold execSchedulerTakeover
  extract_lets v0 v1
  have h200 : Moves [.mem, .regs, .cnt, .hif, .egr, .flt, .ddr, .ldg, .out] s v0 := by
    unfold v0
    refine Moves.seq (faultDeclare_moves ..) (by decide) ?_
    exact Moves.refl _ _
  refine Runs.next ?_
  refine Moves.seq (raiseUnit_moves ..) (by decide) ?_
  refine Moves.egr_with (by decide) ?_
  exact h200

theorem htxDenied_moves (a0 a1 s) : Moves [.mem, .regs, .cnt, .hif, .ctl, .egr, .ddr, .out] s (htxDenied a0 a1 s) := by
  unfold htxDenied
  extract_lets v0
  have h200 : Moves [.mem, .regs, .cnt, .hif, .ctl, .egr, .ddr, .out] s v0 := by
    refine Moves.ite ?_ ?_
    · refine Moves.seq (egrDrop_moves ..) (by decide) ?_
      exact Moves.refl _ _
    · exact Moves.refl _ _
  refine Moves.seq (raisePf_moves ..) (by decide) ?_
  exact h200

theorem htxTake_moves (a0 a1 a2 s) : Moves [.mem, .regs, .cnt, .hif, .ctl, .egr, .ddr, .out] s (htxTake a0 a1 a2 s) := by
  unfold htxTake
  extract_lets v0 v1 v2 v3 v4 v5 v6 v7
  refine Moves.ite ?_ ?_
  · split
    · refine Moves.seq (htxDenied_moves ..) (by decide) ?_
      exact Moves.refl _ _
    · refine Moves.ite ?_ ?_
      · refine Moves.seq (raisePf_moves ..) (by decide) ?_
        exact Moves.refl _ _
      · refine Moves.egr_with (by decide) ?_
        exact Moves.refl _ _
  · split
    · refine Moves.seq (htxDenied_moves ..) (by decide) ?_
      exact Moves.refl _ _
    · split
      · refine Moves.seq (htxDenied_moves ..) (by decide) ?_
        exact Moves.refl _ _
      · refine Moves.ite ?_ ?_
        · refine Moves.seq (htxDenied_moves ..) (by decide) ?_
          exact Moves.refl _ _
        · refine Moves.ite ?_ ?_
          · refine Moves.seq (egrDrop_moves ..) (by decide) ?_
            exact Moves.refl _ _
          · refine Moves.seq (egrPush_moves ..) (by decide) ?_
            exact Moves.refl _ _

theorem htxDrain_moves (fuel fn s) : Moves [.mem, .regs, .cnt, .hif, .ctl, .egr, .ddr, .out] s (htxDrain fuel fn s) := by
  induction fuel generalizing s with
  | zero => exact Moves.refl _ _
  | succ f ih =>
    unfold htxDrain
    extract_lets head n size a
    refine Moves.ite (Moves.refl _ _) (Moves.trans ?_ (ih _))
    exact Moves.seq (fset_moves ..) (by decide) (Moves.seq (htxTake_moves ..) (by decide) (Moves.refl _ _))

theorem htxCfgWrite_moves {ps : List Part} {s x : State} {fn : Fn} {write : State → State} (hf : ∀ y, Moves ps y (write y))
    (hm : ∀ p ∈ [.mem, .regs, .cnt, .hif, .ctl, .egr, .ddr, .out], p ∈ ps) (b : Moves ps s x) : Moves ps s (htxCfgWrite fn write x) := by
  have h : Moves ps s (write x) := b.trans (hf x)
  unfold htxCfgWrite
  exact Moves.ite (Moves.seq (htxDrain_moves ..) hm h) h

theorem execHtxFrameSubmit_runs (a0 a1 s) : Runs [.mem, .regs, .cnt, .hif, .ctl, .egr, .ddr, .out] s (execHtxFrameSubmit a0 a1 s) := by
  unfold execHtxFrameSubmit
  extract_lets v0 v1
  have h200 : Moves [.mem, .regs, .cnt, .hif, .ctl, .egr, .ddr, .out] s v1 := by
    refine Moves.seq (fset_moves ..) (by decide) ?_
    exact Moves.refl _ _
  refine Runs.next ?_
  refine Moves.ite ?_ ?_
  · exact Moves.refl _ _
  · refine Moves.ite ?_ ?_
    · refine Moves.seq (htxDrain_moves ..) (by decide) ?_
      exact h200
    · exact h200

end Sys2Proof.Machine
end

