-- ==== Sys2Proof/Laws/ChCanvas.lean ====
section
/-! SUPPORT. What each operation of Machine/Canvas.lean may change: one lemma for each, which says every part of State that it
can alter, and that it keeps the invariant. -/

set_option Elab.async false

namespace Sys2Proof.Machine

theorem canvasPut_moves (a0 a1 s) : Moves [.vid] s (canvasPut a0 a1 s) := by
  unfold canvasPut
  refine Moves.vid_with (by decide) ?_
  exact Moves.refl _ _

theorem compSync_moves (a0 s) : Moves [.regs] s (compSync a0 s) := by
  unfold compSync
  extract_lets v0 v1 v2
  have h200 : Moves [.regs] s v1 := by
    refine Moves.seq (fset_moves ..) (by decide) ?_
    exact Moves.refl _ _
  have h201 : Moves [.regs] s v2 := by
    refine Moves.seq (fset_moves ..) (by decide) ?_
    exact h200
  refine Moves.seq (fset_moves ..) (by decide) ?_
  exact h201

theorem traceCommand_moves (a0 a1 a2 a3 a4 a5 s) : Moves [.mem, .regs, .cnt, .hif, .obs, .ddr, .out] s (traceCommand a0 a1 a2 a3 a4 a5 s) := by
  unfold traceCommand
  refine Moves.seq (traceConfig_moves ..) (by decide) ?_
  exact Moves.refl _ _

theorem compWrite_moves (a0 a1 s) : Moves [.mem, .ddr] s (compWrite a0 a1 s) := by
  unfold compWrite
  refine Moves.seq (surfaceWrite_moves ..) (by decide) ?_
  exact Moves.refl _ _

theorem safeKeep_moves (a0 a1 s) : Moves [.mem, .vid, .ddr] s (safeKeep a0 a1 s) := by
  unfold safeKeep
  extract_lets v0
  refine Moves.seq (compWrite_moves ..) (by decide) ?_
  refine Moves.seq (canvasPut_moves ..) (by decide) ?_
  exact Moves.refl _ _

theorem canvasGone_moves (a0 a1 s) : Moves [.vid] s (canvasGone a0 a1 s) := by
  unfold canvasGone
  refine Moves.foldl (fun _ y0 => ?_) ?_
  · refine Moves.seq (poolFree_moves ..) (by decide) ?_
    exact Moves.refl _ _
  · refine Moves.vid_with (by decide) ?_
    exact Moves.refl _ _

theorem canvasTaken_moves (a0 s) : Moves [.vid] s (canvasTaken a0 s) := by
  unfold canvasTaken
  split
  · exact Moves.refl _ _
  · extract_lets v0 v1
    have h200 : Moves [.vid] s v1 := by
      refine Moves.foldl (fun _ y201 => ?_) ?_
      · refine Moves.foldl (fun _ y202 => ?_) ?_
        · refine Moves.seq (poolFree_moves ..) (by decide) ?_
          exact Moves.refl _ _
        · refine Moves.vid_with (by decide) ?_
          exact Moves.refl _ _
      · exact Moves.refl _ _
    refine Moves.seq (canvasGone_moves ..) (by decide) ?_
    exact h200

theorem canvasOpen_moves {id ring w h f colour policy : Nat} {dp : Bool} {bg : List Nat} {area64 : Nat} {fallback : Option Nat} {b : Nat}
    {s t : State} (e : canvasOpen id ring w h f colour policy dp bg area64 fallback b s = .ok t) : Moves [.mem, .regs, .ctl, .vid, .ddr] s t := by
  unfold canvasOpen at e
  extract_lets home y x at e
  have hy : Moves [.mem, .regs, .ctl, .vid, .ddr] s y := Moves.seq (canvasTaken_moves ..) (by decide) (Moves.refl _ _)
  split at e
  · cases e
  · split at e
    · cases e
    · split at e
      · cases e
      · next h1 =>
        split at e
        · cases e
        · next h2 =>
          cases e
          refine Moves.seq (compSync_moves ..) (by decide) (Moves.seq (chargeUp_moves ..) (by decide)
            (Moves.seq (safeKeep_moves ..) (by decide) ?_))
          exact Moves.seq (poolTakeN_moves h2) (by decide) (Moves.seq (poolTakeN_moves h1) (by decide) hy)

theorem applyCanvasAdmit_moves (a0 a1 s) : Moves [.mem, .regs, .ctl, .vid, .ddr] s (applyCanvasAdmit a0 a1 s).1 := by
  unfold applyCanvasAdmit
  extract_lets v0 v1 v2 v3 v4 v5 v6 v7
  refine Moves.ite_fst ?_ ?_
  · refine Moves.mk_fst ?_
    exact Moves.refl _ _
  · refine Moves.ite_fst ?_ ?_
    · refine Moves.mk_fst ?_
      exact Moves.refl _ _
    · refine Moves.ite_fst ?_ ?_
      · refine Moves.mk_fst ?_
        exact Moves.refl _ _
      · refine Moves.ite_fst ?_ ?_
        · refine Moves.mk_fst ?_
          exact Moves.refl _ _
        · split
          · refine Moves.mk_fst ?_
            exact Moves.refl _ _
          · rename_i x200 e201
            have h202 : Moves [.mem, .regs, .ctl, .vid, .ddr] s x200 := by
              refine Moves.seq (canvasOpen_moves e201) (by decide) ?_
              exact Moves.refl _ _
            refine Moves.mk_fst ?_
            exact h202

theorem canvasTrim_moves (a0 s) : Moves [.vid] s (canvasTrim a0 s) := by
  unfold canvasTrim
  split
  · exact Moves.refl _ _
  · extract_lets v0 v1
    refine Moves.ite ?_ ?_
    · refine Moves.seq (canvasGone_moves ..) (by decide) ?_
      exact Moves.refl _ _
    · refine Moves.seq (canvasPut_moves ..) (by decide) ?_
      exact Moves.refl _ _

theorem canvasClose_moves (a0 a1 s) : Moves [.regs, .ctl, .vid, .flt] s (canvasClose a0 a1 s) := by
  unfold canvasClose
  extract_lets v0 v1 v2 v3 v4
  have h200 : Moves [.regs, .ctl, .vid, .flt] s v0 := by
    refine Moves.foldl (fun _ y201 => ?_) ?_
    · refine Moves.seq (sessDrop_moves ..) (by decide) ?_
      exact Moves.refl _ _
    · refine Moves.seq (drainForget_moves ..) (by decide) ?_
      refine Moves.seq (canvasPut_moves ..) (by decide) ?_
      exact Moves.refl _ _
  have h202 : Moves [.regs, .ctl, .vid, .flt] s v1 := by
    refine Moves.ite ?_ ?_
    · exact h200
    · refine Moves.seq (chargeDown_moves ..) (by decide) ?_
      exact h200
  have h203 : Moves [.regs, .ctl, .vid, .flt] s v4 := by
    refine Moves.ite ?_ ?_
    · refine Moves.vid_with (by decide) ?_
      exact h202
    · exact h202
  refine Moves.seq (compSync_moves ..) (by decide) ?_
  refine Moves.seq (canvasTrim_moves ..) (by decide) ?_
  exact h203

theorem applyCanvasRelease_moves (a0 a1 s) : Moves [.regs, .ctl, .vid, .flt] s (applyCanvasRelease a0 a1 s).1 := by
  unfold applyCanvasRelease
  extract_lets v0
  refine Moves.ite_fst ?_ ?_
  · refine Moves.mk_fst ?_
    exact Moves.refl _ _
  · refine Moves.ite_fst ?_ ?_
    · refine Moves.mk_fst ?_
      exact Moves.refl _ _
    · split
      · refine Moves.mk_fst ?_
        exact Moves.refl _ _
      · refine Moves.ite_fst ?_ ?_
        · refine Moves.mk_fst ?_
          exact Moves.refl _ _
        · refine Moves.ite_fst ?_ ?_
          · refine Moves.mk_fst ?_
            exact Moves.refl _ _
          · refine Moves.mk_fst ?_
            refine Moves.seq (canvasClose_moves ..) (by decide) ?_
            exact Moves.refl _ _

theorem sessUseAll_moves {ns : List Nat} {user b : Nat} {s t : State} (e : sessUseAll ns user b s = .ok t) : Moves [.regs, .cnt, .ctl, .egr, .fwd, .vid] s t := by
  have key : ∀ (f : Except Nat State → Nat → Except Nat State)
      (_ : ∀ r n t, f r n = .ok t → ∃ u, r = .ok u ∧ Moves [.regs, .cnt, .ctl, .egr, .fwd, .vid] u t) (l : List Nat) (r : Except Nat State),
      l.foldl f r = .ok t → ∃ u, r = .ok u ∧ Moves [.regs, .cnt, .ctl, .egr, .fwd, .vid] u t := by
    intro f hf l
    induction l with
    | nil => exact fun r h => ⟨t, h, Moves.refl _ _⟩
    | cons n l ih =>
      intro r h
      obtain ⟨u, hu, c⟩ := ih _ h
      obtain ⟨v, hv, d⟩ := hf _ _ _ hu
      exact ⟨v, hv, d.trans c⟩
  obtain ⟨u, hu, c⟩ := key _ (fun r n t h => by
    cases r with
    | error k => cases h
    | ok u => exact ⟨u, rfl, (sessUse_moves h).mono (by decide)⟩) _ _ e
  cases hu
  exact c

theorem canvasLayout_moves {id : Nat} {x : Canvas} {l : Layout} {b : Nat} {s t : State} (e : canvasLayout id x l b s = .ok t) :
    Moves [.regs, .cnt, .ctl, .egr, .fwd, .vid, .flt] s t := by
  unfold canvasLayout at e
  split at e
  · cases e
  · next u h =>
    cases e
    refine Moves.seq (canvasPut_moves ..) (by decide) (Moves.foldl (fun _ y => ?_) ?_)
    · exact (sessDrop_moves ..).mono (by decide)
    · exact (sessUseAll_moves h).mono (by decide)

theorem applyLayoutSet_moves (a0 a1 a2 s) : Moves [.mem, .regs, .cnt, .ctl, .egr, .fwd, .vid, .flt, .ddr] s (applyLayoutSet a0 a1 a2 s).1 := by
  unfold applyLayoutSet
  extract_lets v0 v1 v2 v3 v4 v5
  refine Moves.ite_fst ?_ ?_
  · refine Moves.mk_fst ?_
    exact Moves.refl _ _
  · refine Moves.ite_fst ?_ ?_
    · refine Moves.mk_fst ?_
      exact Moves.refl _ _
    · split
      · refine Moves.mk_fst ?_
        exact Moves.refl _ _
      · refine Moves.ite_fst ?_ ?_
        · refine Moves.mk_fst ?_
          exact Moves.refl _ _
        · refine Moves.ite_fst ?_ ?_
          · refine Moves.mk_fst ?_
            exact Moves.refl _ _
          · split
            · refine Moves.mk_fst ?_
              exact Moves.refl _ _
            · split
              · refine Moves.mk_fst ?_
                exact Moves.refl _ _
              · extract_lets v200
                split
                · refine Moves.mk_fst ?_
                  exact Moves.refl _ _
                · rename_i x400 e401
                  have h402 : Moves [.mem, .regs, .cnt, .ctl, .egr, .fwd, .vid, .flt, .ddr] s x400 := by
                    refine Moves.seq (canvasLayout_moves e401) (by decide) ?_
                    exact Moves.refl _ _
                  extract_lets v403
                  have h603 : Moves [.mem, .regs, .cnt, .ctl, .egr, .fwd, .vid, .flt, .ddr] s v403 := by
                    refine Moves.seq (dramWrite_moves ..) (by decide) ?_
                    exact h402
                  refine Moves.mk_fst ?_
                  exact h603

theorem holdPics_moves (a0 a1 s) : Moves [.vid] s (holdPics a0 a1 s) := by
  unfold holdPics
  extract_lets v0
  refine Moves.foldl (fun _ y200 => ?_) ?_
  · split
    · exact Moves.refl _ _
    · split
      · exact Moves.refl _ _
      · refine Moves.seq (sessPut_moves ..) (by decide) ?_
        exact Moves.refl _ _
  · exact Moves.refl _ _

theorem tickEncs_moves (a0 a1 s) : Moves [.vid] s (tickEncs a0 a1 s) := by
  unfold tickEncs
  refine Moves.foldl (fun _ y0 => ?_) ?_
  · extract_lets v1 v2 v3
    refine Moves.ite ?_ ?_
    · exact Moves.refl _ _
    · refine Moves.vid_with (by decide) ?_
      exact Moves.refl _ _
  · exact Moves.refl _ _

theorem canvasTick_moves (a0 s) : Moves [.regs, .vid] s (canvasTick a0 s) := by
  unfold canvasTick
  split
  · exact Moves.refl _ _
  · extract_lets v0 v1
    have h200 : Moves [.regs, .vid] s v1 := by
      refine Moves.seq (tickEncs_moves ..) (by decide) ?_
      exact Moves.refl _ _
    refine Moves.ite ?_ ?_
    · exact Moves.refl _ _
    · refine Moves.ite ?_ ?_
      · refine Moves.seq (canvasPut_moves ..) (by decide) ?_
        exact h200
      · refine Moves.seq (compSync_moves ..) (by decide) ?_
        refine Moves.seq (holdPics_moves ..) (by decide) ?_
        refine Moves.seq (canvasPut_moves ..) (by decide) ?_
        exact h200

theorem compDone_moves (a0 a1 a2 a3 s) : Moves [.mem, .regs, .cnt, .hif, .ctl, .vid, .flt, .ddr, .out] s (compDone a0 a1 a2 a3 s) := by
  unfold compDone
  extract_lets v0 v1 v2 v3 v4 v5 v6 v7 v8 v9 v10 v11 v12 v13 v14 v15 v16
  have h200 : Moves [.mem, .regs, .cnt, .hif, .ctl, .vid, .flt, .ddr, .out] s v7 := by
    refine Moves.seq (canvasPut_moves ..) (by decide) ?_
    exact Moves.refl _ _
  have h201 : Moves [.mem, .regs, .cnt, .hif, .ctl, .vid, .flt, .ddr, .out] s v8 := by
    refine Moves.seq (compWrite_moves ..) (by decide) ?_
    exact h200
  have h202 : Moves [.mem, .regs, .cnt, .hif, .ctl, .vid, .flt, .ddr, .out] s v10 := by
    refine Moves.seq (cadd_moves ..) (by decide) ?_
    refine Moves.seq (cinc_moves ..) (by decide) ?_
    refine Moves.seq (cinc_moves ..) (by decide) ?_
    exact h201
  have h203 : Moves [.mem, .regs, .cnt, .hif, .ctl, .vid, .flt, .ddr, .out] s v11 := by
    refine Moves.ite ?_ ?_
    · refine Moves.seq (cinc_moves ..) (by decide) ?_
      exact h202
    · exact h202
  have h204 : Moves [.mem, .regs, .cnt, .hif, .ctl, .vid, .flt, .ddr, .out] s v12 := by
    refine Moves.ite ?_ ?_
    · refine Moves.seq (cinc_moves ..) (by decide) ?_
      exact h203
    · exact h203
  have h205 : Moves [.mem, .regs, .cnt, .hif, .ctl, .vid, .flt, .ddr, .out] s v13 := by
    refine Moves.seq (cinc_moves ..) (by decide) ?_
    refine Moves.seq (cinc_moves ..) (by decide) ?_
    exact h204
  have h206 : Moves [.mem, .regs, .cnt, .hif, .ctl, .vid, .flt, .ddr, .out] s v14 := by
    unfold v14
    unfold v2
    split
    · refine Moves.seq (cinc_moves ..) (by decide) ?_
      exact h205
    · refine Moves.seq (cinc_moves ..) (by decide) ?_
      exact h205
    · exact h205
  have h207 : Moves [.mem, .regs, .cnt, .hif, .ctl, .vid, .flt, .ddr, .out] s v15 := by
    unfold v15
    unfold v1
    split
    · exact h204
    · extract_lets v208
      have h408 : Moves [.mem, .regs, .cnt, .hif, .ctl, .vid, .flt, .ddr, .out] s v208 := by
        refine Moves.seq (raiseObj_moves ..) (by decide) ?_
        exact h206
      refine Moves.seq (suspectReport_moves ..) (by decide) ?_
      exact h408
  have h409 : Moves [.mem, .regs, .cnt, .hif, .ctl, .vid, .flt, .ddr, .out] s v16 := by
    unfold v16
    split
    · refine Moves.ite ?_ ?_
      · refine Moves.seq (degraded_moves ..) (by decide) ?_
        exact h207
      · exact h207
    · exact h207
  refine Moves.seq (canvasTrim_moves ..) (by decide) ?_
  refine Moves.seq (compSync_moves ..) (by decide) ?_
  exact h409

theorem compMissed_moves (a0 a1 a2 s) : Moves [.mem, .regs, .cnt, .hif, .ctl, .vid, .ddr, .out] s (compMissed a0 a1 a2 s) := by
  unfold compMissed
  extract_lets v0 v1 v2
  have h200 : Moves [.mem, .regs, .cnt, .hif, .ctl, .vid, .ddr, .out] s v0 := by
    refine Moves.seq (canvasPut_moves ..) (by decide) ?_
    exact Moves.refl _ _
  have h201 : Moves [.mem, .regs, .cnt, .hif, .ctl, .vid, .ddr, .out] s v1 := by
    refine Moves.seq (cinc_moves ..) (by decide) ?_
    refine Moves.seq (cinc_moves ..) (by decide) ?_
    exact h200
  have h202 : Moves [.mem, .regs, .cnt, .hif, .ctl, .vid, .ddr, .out] s v2 := by
    unfold v2
    split
    · refine Moves.seq (degraded_moves ..) (by decide) ?_
      exact h201
    · exact h201
  refine Moves.seq (canvasTrim_moves ..) (by decide) ?_
  refine Moves.seq (compSync_moves ..) (by decide) ?_
  refine Moves.seq (raiseObj_moves ..) (by decide) ?_
  exact h202

theorem shownBlock_moves (a0 s) : Moves [.cnt, .ctl] s (shownBlock a0 s) := by
  unfold shownBlock
  refine Moves.foldl (fun _ y0 => ?_) ?_
  · split
    · exact Moves.refl _ _
    · split
      · refine Moves.ite ?_ ?_
        · refine Moves.seq (degraded_moves ..) (by decide) ?_
          exact Moves.refl _ _
        · exact Moves.refl _ _
      · exact Moves.refl _ _
  · exact Moves.refl _ _

theorem canvasUnserved_moves (a0 s) : Moves [.mem, .regs, .cnt, .hif, .obs, .ddr, .out] s (canvasUnserved a0 s) := by
  unfold canvasUnserved
  split
  · refine Moves.seq (determinismLost_moves ..) (by decide) ?_
    exact Moves.refl _ _
  · exact Moves.refl _ _

theorem canvasOn_moves (a0 a1 a2 s) : Moves [.regs, .ctl, .vid] s (canvasOn a0 a1 a2 s) := by
  unfold canvasOn
  refine Moves.seq (compSync_moves ..) (by decide) ?_
  refine Moves.seq (chargeUp_moves ..) (by decide) ?_
  refine Moves.seq (canvasPut_moves ..) (by decide) ?_
  exact Moves.refl _ _

theorem canvasMove_moves (a0 a1 s) : Moves [.mem, .regs, .cnt, .hif, .ctl, .vid, .obs, .ddr, .out] s (canvasMove a0 a1 s) := by
  unfold canvasMove
  split
  · exact Moves.refl _ _
  · extract_lets v0 v1
    have h200 : Moves [.mem, .regs, .cnt, .hif, .ctl, .vid, .obs, .ddr, .out] s v1 := by
      refine Moves.ite ?_ ?_
      · refine Moves.foldl (fun _ y201 => ?_) ?_
        · split
          · refine Moves.seq (compMissed_moves ..) (by decide) ?_
            exact Moves.refl _ _
          · exact Moves.refl _ _
        · exact Moves.refl _ _
      · exact Moves.refl _ _
    split
    · exact h200
    · extract_lets v202
      have h402 : Moves [.mem, .regs, .cnt, .hif, .ctl, .vid, .obs, .ddr, .out] s v202 := by
        refine Moves.seq (compSync_moves ..) (by decide) ?_
        refine Moves.seq (chargeDown_moves ..) (by decide) ?_
        refine Moves.seq (canvasPut_moves ..) (by decide) ?_
        exact h200
      split
      · refine Moves.seq (raiseObj_moves ..) (by decide) ?_
        refine Moves.seq (canvasOn_moves ..) (by decide) ?_
        exact h402
      · refine Moves.seq (canvasUnserved_moves ..) (by decide) ?_
        refine Moves.seq (raiseObj_moves ..) (by decide) ?_
        exact h402

theorem canvasResume_moves (s) : Moves [.mem, .regs, .cnt, .hif, .ctl, .vid, .obs, .ddr, .out] s (canvasResume s) := by
  unfold canvasResume
  refine Moves.foldl (fun _ y0 => ?_) ?_
  · split
    · exact Moves.refl _ _
    · split
      · refine Moves.seq (raiseObj_moves ..) (by decide) ?_
        refine Moves.seq (canvasOn_moves ..) (by decide) ?_
        exact Moves.refl _ _
      · refine Moves.seq (canvasUnserved_moves ..) (by decide) ?_
        exact Moves.refl _ _
  · exact Moves.refl _ _

end Sys2Proof.Machine
end

