-- ==== Sys2Proof/Laws/ChEnc.lean ====
section
/-! SUPPORT. What each operation of Machine/Enc.lean may change: one lemma for each, which says every part of State that it
can alter, and that it keeps the invariant. -/

set_option Elab.async false

namespace Sys2Proof.Machine

theorem encPut_moves (a0 a1 s) : Moves [.vid] s (encPut a0 a1 s) := by
  unfold encPut
  refine Moves.vid_with (by decide) ?_
  exact Moves.refl _ _

theorem encOpen_moves {id : Nat} {cfg : EncCfg} {roi : List Roi} {x : Canvas} {b : Nat} {s t : State}
    (e : encOpen id cfg roi x b s = .ok t) : Moves [.regs, .ctl, .vid] s t := by
  unfold encOpen at e
  split at e
  · cases e
  · split at e
    · cases e
    · next h1 =>
      split at e
      · cases e
      · next h2 =>
        cases e
        refine Moves.seq (tileSync_moves ..) (by decide) (Moves.seq (chargeUp_moves ..) (by decide)
          (Moves.seq (encPut_moves ..) (by decide) ?_))
        exact Moves.seq (poolTake_moves h2) (by decide) ((poolTakeN_moves h1).mono (by decide))

theorem applyEncodeAdmit_moves (c d b s) : Moves [.regs, .cnt, .ctl, .vid] s (applyEncodeAdmit c d b s).1 := by
  have hr : ∀ (x : Option Rsp), Moves [.regs, .cnt, .ctl, .vid] s (s, x).1 := fun _ => Moves.refl _ _
  unfold applyEncodeAdmit
  extract_lets id a fl bad cur live
  refine Moves.ite_fst (hr _) (Moves.ite_fst (hr _) ?_)
  split
  · exact hr _
  · refine Moves.ite_fst (hr _) (Moves.ite_fst (hr _) (Moves.ite_fst (hr _) (Moves.ite_fst (hr _)
      (Moves.ite_fst (hr _) (Moves.ite_fst (hr _) ?_)))))
    split
    · exact hr _
    · extract_lets es roi
      refine Moves.ite_fst (hr _) ?_
      unfold cur
      split
      · exact (encPut_moves ..).mono (by decide)
      · split
        · exact hr _
        · next e =>
          exact Moves.foldl (fun _ _ => Moves.cnt_with (by decide) (Moves.refl _ _)) ((encOpen_moves e).mono (by decide))

theorem encFinish_moves (a0 s) : Moves [.regs, .vid, .flt] s (encFinish a0 s) := by
  unfold encFinish
  split
  · exact Moves.refl _ _
  · refine Moves.ite ?_ ?_
    · refine Moves.seq (tileSync_moves ..) (by decide) ?_
      refine Moves.foldl (fun _ y0 => ?_) ?_
      · refine Moves.seq (poolFree_moves ..) (by decide) ?_
        exact Moves.refl _ _
      · refine Moves.seq (drainForget_moves ..) (by decide) ?_
        refine Moves.vid_with (by decide) ?_
        exact Moves.refl _ _
    · exact Moves.refl _ _

theorem encStop_moves (a0 a1 a2 s) : Moves [.regs, .ctl, .vid, .flt] s (encStop a0 a1 a2 s) := by
  unfold encStop
  extract_lets v0
  have h200 : Moves [.regs, .ctl, .vid, .flt] s v0 := by
    refine Moves.seq (chargeDown_moves ..) (by decide) ?_
    refine Moves.seq (encPut_moves ..) (by decide) ?_
    exact Moves.refl _ _
  refine Moves.seq (encFinish_moves ..) (by decide) ?_
  refine Moves.seq (tileSync_moves ..) (by decide) ?_
  exact h200

theorem applyEncodeRelease_moves (a0 a1 s) : Moves [.regs, .ctl, .vid, .flt] s (applyEncodeRelease a0 a1 s).1 := by
  unfold applyEncodeRelease
  extract_lets v0
  refine Moves.ite_fst ?_ ?_
  · refine Moves.mk_fst ?_
    exact Moves.refl _ _
  · refine Moves.ite_fst ?_ ?_
    · refine Moves.mk_fst ?_
      exact Moves.refl _ _
    · split
      · refine Moves.mk_fst ?_
        exact Moves.refl _ _
      · refine Moves.ite_fst ?_ ?_
        · refine Moves.mk_fst ?_
          exact Moves.refl _ _
        · refine Moves.ite_fst ?_ ?_
          · refine Moves.mk_fst ?_
            exact Moves.refl _ _
          · refine Moves.mk_fst ?_
            refine Moves.seq (encStop_moves ..) (by decide) ?_
            exact Moves.refl _ _

theorem keyRequest_moves (a0 a1 a2 s) : Moves [.cnt, .vid] s (keyRequest a0 a1 a2 s) := by
  unfold keyRequest
  split
  · exact Moves.refl _ _
  · extract_lets v0 v1 v2
    have h200 : Moves [.cnt, .vid] s v2 := by
      refine Moves.seq (encPut_moves ..) (by decide) ?_
      exact Moves.refl _ _
    refine Moves.ite ?_ ?_
    · refine Moves.seq (cinc_moves ..) (by decide) ?_
      exact h200
    · exact h200

theorem applyKeypicRequest_moves (a0 a1 s) : Moves [.cnt, .vid] s (applyKeypicRequest a0 a1 s).1 := by
  unfold applyKeypicRequest
  extract_lets v0
  refine Moves.ite_fst ?_ ?_
  · refine Moves.mk_fst ?_
    exact Moves.refl _ _
  · refine Moves.ite_fst ?_ ?_
    · refine Moves.mk_fst ?_
      exact Moves.refl _ _
    · split
      · refine Moves.mk_fst ?_
        exact Moves.refl _ _
      · refine Moves.ite_fst ?_ ?_
        · refine Moves.mk_fst ?_
          exact Moves.refl _ _
        · refine Moves.ite_fst ?_ ?_
          · refine Moves.mk_fst ?_
            exact Moves.refl _ _
          · refine Moves.mk_fst ?_
            refine Moves.seq (keyRequest_moves ..) (by decide) ?_
            exact Moves.refl _ _

theorem encodeStart_moves (a0 a1 a2 a3 s) : Moves [.mem, .regs, .cnt, .hif, .vid, .ddr, .out] s (encodeStart a0 a1 a2 a3 s) := by
  unfold encodeStart
  refine Moves.ite ?_ ?_
  · refine Moves.seq (encPut_moves ..) (by decide) ?_
    exact Moves.refl _ _
  · extract_lets v0 v1 v2 v3 v4 v5 v6 v7 v8 v9
    have h200 : Moves [.mem, .regs, .cnt, .hif, .vid, .ddr, .out] s v9 := by
      refine Moves.seq (encPut_moves ..) (by decide) ?_
      exact Moves.refl _ _
    refine Moves.ite ?_ ?_
    · refine Moves.seq (raiseObj_moves ..) (by decide) ?_
      refine Moves.seq (cinc_moves ..) (by decide) ?_
      exact h200
    · exact h200

theorem encPacket_moves (a0 a1 a2 a3 a4 a5 a6 a7 a8 a9 a10 s) : Moves [.egr] s (encPacket a0 a1 a2 a3 a4 a5 a6 a7 a8 a9 a10 s) := by
  unfold encPacket
  extract_lets v0 v1 v2
  have h200 : Moves [.egr] s v2 := by
    unfold v2
    split
    · refine Moves.ite ?_ ?_
      · refine Moves.seq (egrLegPut_moves ..) (by decide) ?_
        exact Moves.refl _ _
      · exact Moves.refl _ _
    · exact Moves.refl _ _
  refine Moves.seq (egrMedia_moves ..) (by decide) ?_
  exact h200

theorem encSend_moves (a0 a1 a2 a3 a4 a5 s) : Moves [.mem, .regs, .cnt, .hif, .egr, .fwd, .ddr, .out] s (encSend a0 a1 a2 a3 a4 a5 s) := by
  unfold encSend
  extract_lets v0 v1 v2 v3
  split
  · refine Moves.ite ?_ ?_
    · exact Moves.refl _ _
    · split
      · exact Moves.refl _ _
      · extract_lets v200 v201
        have h400 : Moves [.mem, .regs, .cnt, .hif, .egr, .fwd, .ddr, .out] s v200 := by
          refine Moves.seq (fwdLegPut_moves ..) (by decide) ?_
          exact Moves.refl _ _
        have h401 : Moves [.mem, .regs, .cnt, .hif, .egr, .fwd, .ddr, .out] s v201 := by
          refine Moves.ite ?_ ?_
          · exact h400
          · refine Moves.seq (layerSwitch_moves ..) (by decide) ?_
            exact h400
        refine Moves.foldl (fun _ y402 => ?_) ?_
        · refine Moves.seq (encPacket_moves ..) (by decide) ?_
          exact Moves.refl _ _
        · exact h401
  · exact Moves.refl _ _

theorem encodeComplete_moves (a0 a1 a2 a3 a4 s) : Moves [.mem, .regs, .cnt, .hif, .ctl, .egr, .fwd, .vid, .flt, .ddr, .out] s (encodeComplete a0 a1 a2 a3 a4 s) := by
  unfold encodeComplete
  extract_lets v0 v1 v2 v3 v4 v5 v6 v7 v8 v9 v10 v11 v12 v13 v14 v15 v16 v17 v18 v19 v20 v21 v22 v23 v24 v25 v26 v27 v28 v29 v30 v31
  have h200 : Moves [.mem, .regs, .cnt, .hif, .ctl, .egr, .fwd, .vid, .flt, .ddr, .out] s v20 := by
    unfold v20
    split
    · refine Moves.ite ?_ ?_
      · refine Moves.seq (degraded_moves ..) (by decide) ?_
        refine Moves.seq (encSend_moves ..) (by decide) ?_
        exact Moves.refl _ _
      · refine Moves.seq (encSend_moves ..) (by decide) ?_
        exact Moves.refl _ _
    · exact Moves.refl _ _
  have h201 : Moves [.mem, .regs, .cnt, .hif, .ctl, .egr, .fwd, .vid, .flt, .ddr, .out] s v23 := by
    refine Moves.seq (encPut_moves ..) (by decide) ?_
    exact h200
  have h202 : Moves [.mem, .regs, .cnt, .hif, .ctl, .egr, .fwd, .vid, .flt, .ddr, .out] s v24 := by
    refine Moves.seq (cadd_moves ..) (by decide) ?_
    refine Moves.seq (cinc_moves ..) (by decide) ?_
    exact h201
  have h203 : Moves [.mem, .regs, .cnt, .hif, .ctl, .egr, .fwd, .vid, .flt, .ddr, .out] s v25 := by
    refine Moves.ite ?_ ?_
    · refine Moves.seq (cinc_moves ..) (by decide) ?_
      exact h202
    · refine Moves.ite ?_ ?_
      · refine Moves.seq (cinc_moves ..) (by decide) ?_
        exact h202
      · exact h202
  have h204 : Moves [.mem, .regs, .cnt, .hif, .ctl, .egr, .fwd, .vid, .flt, .ddr, .out] s v26 := by
    refine Moves.seq (cadd_moves ..) (by decide) ?_
    refine Moves.seq (cadd_moves ..) (by decide) ?_
    exact h203
  have h205 : Moves [.mem, .regs, .cnt, .hif, .ctl, .egr, .fwd, .vid, .flt, .ddr, .out] s v28 := by
    refine Moves.seq (cinc_moves ..) (by decide) ?_
    refine Moves.seq (cadd_moves ..) (by decide) ?_
    refine Moves.seq (cinc_moves ..) (by decide) ?_
    exact h204
  have h206 : Moves [.mem, .regs, .cnt, .hif, .ctl, .egr, .fwd, .vid, .flt, .ddr, .out] s v29 := by
    refine Moves.ite ?_ ?_
    · exact h205
    · refine Moves.seq (raiseObj_moves ..) (by decide) ?_
      exact h205
  have h207 : Moves [.mem, .regs, .cnt, .hif, .ctl, .egr, .fwd, .vid, .flt, .ddr, .out] s v30 := by
    refine Moves.seq (cinc_moves ..) (by decide) ?_
    refine Moves.seq (cinc_moves ..) (by decide) ?_
    exact h206
  have h208 : Moves [.mem, .regs, .cnt, .hif, .ctl, .egr, .fwd, .vid, .flt, .ddr, .out] s v31 := by
    refine Moves.ite ?_ ?_
    · exact h206
    · split
      · rename_i x209 e210
        have h211 : Moves [.mem, .regs, .cnt, .hif, .ctl, .egr, .fwd, .vid, .flt, .ddr, .out] s x209 := by
          refine Moves.of_snd e210 ?_
          refine Moves.seq (rateOk_moves ..) (by decide) ?_
          exact h207
        refine Moves.seq (raiseObj_moves ..) (by decide) ?_
        refine Moves.seq (encPut_moves ..) (by decide) ?_
        exact h211
      · rename_i x212 e213
        have h214 : Moves [.mem, .regs, .cnt, .hif, .ctl, .egr, .fwd, .vid, .flt, .ddr, .out] s x212 := by
          refine Moves.of_snd e213 ?_
          refine Moves.seq (rateOk_moves ..) (by decide) ?_
          exact h207
        refine Moves.seq (encPut_moves ..) (by decide) ?_
        exact h214
  refine Moves.seq (encFinish_moves ..) (by decide) ?_
  refine Moves.seq (canvasTrim_moves ..) (by decide) ?_
  refine Moves.seq (tileSync_moves ..) (by decide) ?_
  exact h208

theorem repeatPicture_moves (a0 a1 a2 a3 a4 s) : Moves [.mem, .regs, .cnt, .hif, .ctl, .egr, .fwd, .vid, .flt, .obs, .ddr, .out] s (repeatPicture a0 a1 a2 a3 a4 s) := by
  unfold repeatPicture
  extract_lets v0 v1 v2 v3 v4 v5 v6 v7 v8 v9 v10 v11 v12 v13 v14
  have h200 : Moves [.mem, .regs, .cnt, .hif, .ctl, .egr, .fwd, .vid, .flt, .obs, .ddr, .out] s v7 := by
    unfold v7
    split
    · refine Moves.seq (degraded_moves ..) (by decide) ?_
      refine Moves.seq (encSend_moves ..) (by decide) ?_
      exact Moves.refl _ _
    · exact Moves.refl _ _
  have h201 : Moves [.mem, .regs, .cnt, .hif, .ctl, .egr, .fwd, .vid, .flt, .obs, .ddr, .out] s v10 := by
    refine Moves.seq (encPut_moves ..) (by decide) ?_
    exact h200
  have h202 : Moves [.mem, .regs, .cnt, .hif, .ctl, .egr, .fwd, .vid, .flt, .obs, .ddr, .out] s v11 := by
    refine Moves.seq (cadd_moves ..) (by decide) ?_
    refine Moves.seq (cinc_moves ..) (by decide) ?_
    refine Moves.seq (cadd_moves ..) (by decide) ?_
    exact h201
  have h203 : Moves [.mem, .regs, .cnt, .hif, .ctl, .egr, .fwd, .vid, .flt, .obs, .ddr, .out] s v12 := by
    refine Moves.ite ?_ ?_
    · refine Moves.seq (tileAdd_moves ..) (by decide) ?_
      exact h202
    · exact h202
  have h204 : Moves [.mem, .regs, .cnt, .hif, .ctl, .egr, .fwd, .vid, .flt, .obs, .ddr, .out] s v13 := by
    unfold v13
    split
    · split
      · refine Moves.seq (determinismLost_moves ..) (by decide) ?_
        exact h203
      · exact h203
    · exact h203
  have h205 : Moves [.mem, .regs, .cnt, .hif, .ctl, .egr, .fwd, .vid, .flt, .obs, .ddr, .out] s v14 := by
    refine Moves.seq (raiseObj_moves ..) (by decide) ?_
    exact h204
  refine Moves.seq (encFinish_moves ..) (by decide) ?_
  refine Moves.seq (canvasTrim_moves ..) (by decide) ?_
  refine Moves.seq (tileSync_moves ..) (by decide) ?_
  exact h205

end Sys2Proof.Machine
end

