-- ==== Sys2Proof/Laws/ChFall.lean ====
section
/-! SUPPORT. What each operation of Machine/Fall.lean may change: one lemma for each, which says every part of State that it
can alter, and that it keeps the invariant. -/

set_option Elab.async false

namespace Sys2Proof.Machine

theorem fallOpen_moves {n b src : Nat} {sub : Sub} {l : Leg} {s t : State} (e : fallOpen n b src sub l s = .ok t) :
    Moves [.mem, .regs, .cnt, .ctl, .egr, .fwd, .vid, .flt, .ddr] s t := by
  unfold fallOpen at e
  split at e
  · dsimp only at e
    split at e
    · cases e
    · split at e
      · cases e
      · next h1 =>
        split at e
        · cases e
        · next h2 =>
          split at e
          · cases e
          · split at e
            · cases e
            · next h3 =>
              split at e
              · cases e
              · split at e
                · cases e
                · next h4 =>
                  cases e
                  refine Moves.seq (cinc_moves ..) (by decide)
                    (Moves.seq (fwdLegPut_moves ..) (by decide) (Moves.trans ?_ ((encOpen_moves h4).mono (by decide))))
                  refine Moves.trans ?_ ((canvasLayout_moves h3).mono (by decide))
                  exact ((sessUse_moves h1).mono (by decide)).trans ((canvasOpen_moves h2).mono (by decide))
  · cases e

theorem fallTry_moves (a0 a1 a2 a3 a4 s) : Moves [.mem, .regs, .cnt, .hif, .ctl, .egr, .fwd, .vid, .flt, .ddr, .out] s (fallTry a0 a1 a2 a3 a4 s) := by
  unfold fallTry
  split
  · rename_i x0 e1
    have h2 : Moves [.mem, .regs, .cnt, .hif, .ctl, .egr, .fwd, .vid, .flt, .ddr, .out] s x0 := by
      refine Moves.seq (fallOpen_moves e1) (by decide) ?_
      exact Moves.refl _ _
    exact h2
  · refine Moves.seq (raiseObj_moves ..) (by decide) ?_
    refine Moves.seq (fwdLegPut_moves ..) (by decide) ?_
    exact Moves.refl _ _

theorem fallClose_moves (a0 a1 s) : Moves [.regs, .ctl, .fwd, .vid, .flt] s (fallClose a0 a1 s) := by
  unfold fallClose
  extract_lets v0 v1
  have h200 : Moves [.regs, .ctl, .fwd, .vid, .flt] s v0 := by
    unfold v0
    split
    · exact Moves.refl _ _
    · extract_lets v201
      have h401 : Moves [.regs, .ctl, .fwd, .vid, .flt] s v201 := by
        unfold v201
        split
        · refine Moves.seq (encStop_moves ..) (by decide) ?_
          exact Moves.refl _ _
        · exact Moves.refl _ _
      split
      · refine Moves.seq (canvasClose_moves ..) (by decide) ?_
        exact h401
      · exact h401
  refine Moves.seq (fwdLegPut_moves ..) (by decide) ?_
  exact h200

theorem fallBoundary_moves (a0 s) : Moves [.regs, .ctl, .fwd, .vid, .flt] s (fallBoundary a0 s) := by
  unfold fallBoundary
  refine Moves.foldl (fun _ y0 => ?_) ?_
  · extract_lets v1 v2
    refine Moves.ite ?_ ?_
    · exact Moves.refl _ _
    · refine Moves.seq (fallClose_moves ..) (by decide) ?_
      exact Moves.refl _ _
  · exact Moves.refl _ _

theorem fallFollow_moves (a0 a1 a2 s) : Moves [.regs, .cnt, .ctl, .egr, .fwd, .vid, .flt] s (fallFollow a0 a1 a2 s) := by
  unfold fallFollow
  split
  · extract_lets v0
    have h200 : Moves [.regs, .cnt, .ctl, .egr, .fwd, .vid, .flt] s v0 := by
      unfold v0
      split
      · extract_lets v201
        refine Moves.seq (encPut_moves ..) (by decide) ?_
        exact Moves.refl _ _
      · exact Moves.refl _ _
    split
    · exact h200
    · refine Moves.ite ?_ ?_
      · exact h200
      · split
        · rename_i x401 e402
          have h403 : Moves [.regs, .cnt, .ctl, .egr, .fwd, .vid, .flt] s x401 := by
            refine Moves.seq (canvasLayout_moves e402) (by decide) ?_
            exact h200
          exact h403
        · exact h200
  · exact Moves.refl _ _

theorem fallRun_moves (a0 a1 a2 s) : Moves [.mem, .regs, .cnt, .hif, .ctl, .egr, .fwd, .vid, .flt, .ddr, .out] s (fallRun a0 a1 a2 s) := by
  unfold fallRun
  extract_lets v0
  split
  · exact Moves.refl _ _
  · split
    · exact Moves.refl _ _
    · split
      · refine Moves.seq (fallFollow_moves ..) (by decide) ?_
        exact Moves.refl _ _
      · refine Moves.ite ?_ ?_
        · refine Moves.seq (fwdLegPut_moves ..) (by decide) ?_
          exact Moves.refl _ _
        · exact Moves.refl _ _
      · refine Moves.ite ?_ ?_
        · refine Moves.seq (fallTry_moves ..) (by decide) ?_
          exact Moves.refl _ _
        · exact Moves.refl _ _

theorem fallRetry_moves (a0 a1 a2 s) : Moves [.mem, .regs, .cnt, .hif, .ctl, .egr, .fwd, .vid, .flt, .ddr, .out] s (fallRetry a0 a1 a2 s) := by
  unfold fallRetry
  extract_lets v0
  split
  · refine Moves.ite ?_ ?_
    · exact Moves.refl _ _
    · split
      · refine Moves.ite ?_ ?_
        · refine Moves.seq (fallTry_moves ..) (by decide) ?_
          exact Moves.refl _ _
        · exact Moves.refl _ _
      · exact Moves.refl _ _
  · exact Moves.refl _ _

theorem fwdBlock_moves (b s) : Moves [.mem, .regs, .cnt, .hif, .ctl, .egr, .fwd, .vid, .flt, .ddr, .cas, .out, .free] s (fwdBlock b s) := by
  unfold fwdBlock
  extract_lets u legs run t1 t2 t3 t4 t5
  have hrun : ∀ (f : Nat → Leg → State → State) (_ : ∀ n l y, Moves [.mem, .regs, .cnt, .hif, .ctl, .egr, .fwd, .vid, .flt, .ddr, .cas, .out, .free] y (f n l y)) y, Moves [.mem, .regs, .cnt, .hif, .ctl, .egr, .fwd, .vid, .flt, .ddr, .cas, .out, .free] y (run f y) := by
    intro f hf y
    refine Moves.foldl (fun n z => ?_) (Moves.refl _ _)
    split
    · exact hf ..
    · exact Moves.refl _ _
  have h0 : Moves [.mem, .regs, .cnt, .hif, .ctl, .egr, .fwd, .vid, .flt, .ddr, .cas, .out, .free] s u.2 := (trackBlock_moves ..).mono (by decide)
  have h1 : Moves [.mem, .regs, .cnt, .hif, .ctl, .egr, .fwd, .vid, .flt, .ddr, .cas, .out, .free] s t1 := h0.trans (hrun _ (fun _ _ _ => (laRun_moves ..).mono (by decide)) _)
  have h2 : Moves [.mem, .regs, .cnt, .hif, .ctl, .egr, .fwd, .vid, .flt, .ddr, .cas, .out, .free] s t2 := h1.trans (hrun _ (fun _ _ _ => (chooseLeg_moves ..).mono (by decide)) _)
  have h3 : Moves [.mem, .regs, .cnt, .hif, .ctl, .egr, .fwd, .vid, .flt, .ddr, .cas, .out, .free] s t3 := h2.trans (hrun _ (fun _ _ _ => (fallRun_moves ..).mono (by decide)) _)
  have h4 : Moves [.mem, .regs, .cnt, .hif, .ctl, .egr, .fwd, .vid, .flt, .ddr, .cas, .out, .free] s t4 := h3.trans (hrun _ (fun _ _ _ =>
    Moves.ite (Moves.refl _ _) ((forwardLeg_moves ..).mono (by decide))) _)
  have h5 : Moves [.mem, .regs, .cnt, .hif, .ctl, .egr, .fwd, .vid, .flt, .ddr, .cas, .out, .free] s t5 := h4.trans (hrun _ (fun _ _ _ => (pausedLeg_moves ..).mono (by decide)) _)
  exact Moves.foldl (fun _ _ => (fset_moves ..).mono (by decide)) h5

end Sys2Proof.Machine
end

