-- ==== Sys2Proof/Laws/ChVidMove.lean ====
section
/-! SUPPORT. What each operation of Machine/VidMove.lean may change: one lemma for each, which says every part of State that it
can alter, and that it keeps the invariant. -/

set_option Elab.async false

namespace Sys2Proof.Machine

theorem sessRehome_moves (a0 s) : Moves [.regs, .ctl, .vid] s (sessRehome a0 s).2 := by
  unfold sessRehome
  split
  · refine Moves.mk_snd ?_
    exact Moves.refl _ _
  · extract_lets v0 v1 v2 v3
    have h200 : Moves [.regs, .ctl, .vid] s v3 := by
      refine Moves.seq (tileSync_moves ..) (by decide) ?_
      refine Moves.seq (chargeDown_moves ..) (by decide) ?_
      refine Moves.seq (sessPut_moves ..) (by decide) ?_
      exact Moves.refl _ _
    split
    · refine Moves.mk_snd ?_
      exact h200
    · refine Moves.mk_snd ?_
      refine Moves.seq (tileSync_moves ..) (by decide) ?_
      refine Moves.seq (chargeUp_moves ..) (by decide) ?_
      refine Moves.seq (sessPut_moves ..) (by decide) ?_
      exact h200

theorem encRehome_moves (a0 s) : Moves [.regs, .ctl, .vid] s (encRehome a0 s).2 := by
  unfold encRehome
  split
  · refine Moves.mk_snd ?_
    exact Moves.refl _ _
  · extract_lets v0 v1 v2
    have h200 : Moves [.regs, .ctl, .vid] s v2 := by
      refine Moves.seq (tileSync_moves ..) (by decide) ?_
      refine Moves.seq (chargeDown_moves ..) (by decide) ?_
      refine Moves.seq (encPut_moves ..) (by decide) ?_
      exact Moves.refl _ _
    split
    · refine Moves.mk_snd ?_
      exact h200
    · refine Moves.mk_snd ?_
      refine Moves.seq (tileSync_moves ..) (by decide) ?_
      refine Moves.seq (chargeUp_moves ..) (by decide) ?_
      refine Moves.seq (encPut_moves ..) (by decide) ?_
      exact h200

theorem sessFrozen_moves (a0 s) : Moves [.mem, .regs, .cnt, .hif, .obs, .ddr, .out] s (sessFrozen a0 s) := by
  unfold sessFrozen
  refine Moves.seq (determinismLost_moves ..) (by decide) ?_
  exact Moves.refl _ _

theorem encFrozen_moves (a0 s) : Moves [.mem, .regs, .cnt, .hif, .obs, .ddr, .out] s (encFrozen a0 s) := by
  unfold encFrozen
  split
  · refine Moves.seq (determinismLost_moves ..) (by decide) ?_
    exact Moves.refl _ _
  · exact Moves.refl _ _

theorem sessRehomeAll_moves (a0 a1 s) : Moves [.mem, .regs, .cnt, .hif, .ctl, .vid, .obs, .ddr, .out] s (sessRehomeAll a0 a1 s) := by
  unfold sessRehomeAll
  extract_lets v0
  have h200 : Moves [.mem, .regs, .cnt, .hif, .ctl, .vid, .obs, .ddr, .out] s v0 := by
    refine Moves.foldl (fun _ y201 => ?_) ?_
    · split
      · rename_i x202 e203
        have h204 : Moves [.mem, .regs, .cnt, .hif, .ctl, .vid, .obs, .ddr, .out] y201 x202 := by
          refine Moves.of_snd e203 ?_
          refine Moves.seq (sessRehome_moves ..) (by decide) ?_
          exact Moves.refl _ _
        exact h204
      · rename_i x205 e206
        have h207 : Moves [.mem, .regs, .cnt, .hif, .ctl, .vid, .obs, .ddr, .out] y201 x205 := by
          refine Moves.of_snd e206 ?_
          refine Moves.seq (sessRehome_moves ..) (by decide) ?_
          exact Moves.refl _ _
        refine Moves.seq (sessFrozen_moves ..) (by decide) ?_
        exact h207
    · exact Moves.refl _ _
  refine Moves.foldl (fun _ y208 => ?_) ?_
  · split
    · rename_i x209 e210
      have h211 : Moves [.mem, .regs, .cnt, .hif, .ctl, .vid, .obs, .ddr, .out] y208 x209 := by
        refine Moves.of_snd e210 ?_
        refine Moves.seq (encRehome_moves ..) (by decide) ?_
        exact Moves.refl _ _
      exact h211
    · rename_i x212 e213
      have h214 : Moves [.mem, .regs, .cnt, .hif, .ctl, .vid, .obs, .ddr, .out] y208 x212 := by
        refine Moves.of_snd e213 ?_
        refine Moves.seq (encRehome_moves ..) (by decide) ?_
        exact Moves.refl _ _
      refine Moves.seq (encFrozen_moves ..) (by decide) ?_
      exact h214
  · exact h200

theorem sessRetry_moves (s) : Moves [.mem, .regs, .cnt, .hif, .ctl, .vid, .obs, .ddr, .out] s (sessRetry s) := by
  unfold sessRetry
  refine Moves.seq (sessRehomeAll_moves ..) (by decide) ?_
  exact Moves.refl _ _

theorem drainNote_moves (a0 a1 a2 s) : Moves [.flt] s (drainNote a0 a1 a2 s) := by
  unfold drainNote
  refine Moves.flt_with (by decide) ?_
  exact Moves.refl _ _

theorem decTo_moves (a0 a1 s) : Moves [.regs, .ctl, .vid] s (decTo a0 a1 s) := by
  unfold decTo
  split
  · exact Moves.refl _ _
  · refine Moves.ite ?_ ?_
    · exact Moves.refl _ _
    · split
      · exact Moves.refl _ _
      · extract_lets v0
        have h200 : Moves [.regs, .ctl, .vid] s v0 := by
          refine Moves.seq (chargeUp_moves ..) (by decide) ?_
          refine Moves.seq (chargeDown_moves ..) (by decide) ?_
          exact Moves.refl _ _
        refine Moves.seq (tileSync_moves ..) (by decide) ?_
        refine Moves.seq (tileSync_moves ..) (by decide) ?_
        refine Moves.seq (sessPut_moves ..) (by decide) ?_
        exact h200

theorem encTo_moves (a0 a1 s) : Moves [.regs, .ctl, .vid] s (encTo a0 a1 s) := by
  unfold encTo
  split
  · exact Moves.refl _ _
  · refine Moves.ite ?_ ?_
    · exact Moves.refl _ _
    · split
      · exact Moves.refl _ _
      · extract_lets v0
        have h200 : Moves [.regs, .ctl, .vid] s v0 := by
          refine Moves.seq (chargeUp_moves ..) (by decide) ?_
          refine Moves.seq (chargeDown_moves ..) (by decide) ?_
          exact Moves.refl _ _
        refine Moves.seq (tileSync_moves ..) (by decide) ?_
        refine Moves.seq (tileSync_moves ..) (by decide) ?_
        refine Moves.seq (encPut_moves ..) (by decide) ?_
        exact h200

theorem decTurn_moves (s) : Moves [.mem, .regs, .cnt, .hif, .ctl, .vid, .flt, .obs, .ddr, .out] s (decTurn s) := by
  unfold decTurn
  refine Moves.foldl (fun _ y0 => ?_) ?_
  · split
    · exact Moves.refl _ _
    · refine Moves.ite ?_ ?_
      · split
        · rename_i x1 e2
          have h3 : Moves [.mem, .regs, .cnt, .hif, .ctl, .vid, .flt, .obs, .ddr, .out] y0 x1 := by
            refine Moves.of_snd e2 ?_
            refine Moves.seq (sessRehome_moves ..) (by decide) ?_
            exact Moves.refl _ _
          refine Moves.seq (drainNote_moves ..) (by decide) ?_
          exact h3
        · rename_i x4 e5
          have h6 : Moves [.mem, .regs, .cnt, .hif, .ctl, .vid, .flt, .obs, .ddr, .out] y0 x4 := by
            refine Moves.of_snd e5 ?_
            refine Moves.seq (sessRehome_moves ..) (by decide) ?_
            exact Moves.refl _ _
          refine Moves.seq (sessFrozen_moves ..) (by decide) ?_
          refine Moves.seq (drainNote_moves ..) (by decide) ?_
          exact h6
      · split
        · refine Moves.seq (drainForget_moves ..) (by decide) ?_
          refine Moves.seq (decTo_moves ..) (by decide) ?_
          exact Moves.refl _ _
        · exact Moves.refl _ _
  · exact Moves.refl _ _

theorem encTurn_moves (s) : Moves [.mem, .regs, .cnt, .hif, .ctl, .vid, .flt, .obs, .ddr, .out] s (encTurn s) := by
  unfold encTurn
  refine Moves.foldl (fun _ y0 => ?_) ?_
  · split
    · exact Moves.refl _ _
    · refine Moves.ite ?_ ?_
      · split
        · rename_i x1 e2
          have h3 : Moves [.mem, .regs, .cnt, .hif, .ctl, .vid, .flt, .obs, .ddr, .out] y0 x1 := by
            refine Moves.of_snd e2 ?_
            refine Moves.seq (encRehome_moves ..) (by decide) ?_
            exact Moves.refl _ _
          refine Moves.seq (drainNote_moves ..) (by decide) ?_
          exact h3
        · rename_i x4 e5
          have h6 : Moves [.mem, .regs, .cnt, .hif, .ctl, .vid, .flt, .obs, .ddr, .out] y0 x4 := by
            refine Moves.of_snd e5 ?_
            refine Moves.seq (encRehome_moves ..) (by decide) ?_
            exact Moves.refl _ _
          refine Moves.seq (encFrozen_moves ..) (by decide) ?_
          refine Moves.seq (drainNote_moves ..) (by decide) ?_
          exact h6
      · split
        · refine Moves.seq (drainForget_moves ..) (by decide) ?_
          refine Moves.seq (encTo_moves ..) (by decide) ?_
          exact Moves.refl _ _
        · exact Moves.refl _ _
  · exact Moves.refl _ _

theorem canvasTurn_moves (a0 s) : Moves [.mem, .regs, .cnt, .hif, .ctl, .vid, .flt, .obs, .ddr, .out] s (canvasTurn a0 s) := by
  unfold canvasTurn
  split
  · exact Moves.refl _ _
  · refine Moves.ite ?_ ?_
    · exact Moves.refl _ _
    · refine Moves.ite ?_ ?_
      · refine Moves.seq (drainNote_moves ..) (by decide) ?_
        refine Moves.seq (canvasMove_moves ..) (by decide) ?_
        exact Moves.refl _ _
      · split
        · exact Moves.refl _ _
        · extract_lets v0 v1
          have h200 : Moves [.mem, .regs, .cnt, .hif, .ctl, .vid, .flt, .obs, .ddr, .out] s v0 := by
            refine Moves.seq (drainForget_moves ..) (by decide) ?_
            exact Moves.refl _ _
          have h201 : Moves [.mem, .regs, .cnt, .hif, .ctl, .vid, .flt, .obs, .ddr, .out] s v1 := by
            refine Moves.ite ?_ ?_
            · exact h200
            · refine Moves.seq (compSync_moves ..) (by decide) ?_
              refine Moves.seq (chargeDown_moves ..) (by decide) ?_
              exact h200
          refine Moves.ite ?_ ?_
          · exact h200
          · refine Moves.seq (raiseObj_moves ..) (by decide) ?_
            refine Moves.seq (canvasOn_moves ..) (by decide) ?_
            exact h201

end Sys2Proof.Machine
end

