-- ==== Sys2Proof/Laws/ChVidRows.lean ====
section
/-! SUPPORT. What each operation of Machine/VidRows.lean may change: one lemma for each, which says every part of State that it
can alter, and that it keeps the invariant. -/

set_option Elab.async false

namespace Sys2Proof.Machine

theorem decSwitch_moves (a0 a1 s) : Moves [.cnt, .fwd, .vid] s (decSwitch a0 a1 s) := by
  unfold decSwitch
  extract_lets v0 v1 v2 v3 v4
  have h200 : Moves [.cnt, .fwd, .vid] s v2 := by
    refine Moves.vid_with (by decide) ?_
    exact Moves.refl _ _
  have h201 : Moves [.cnt, .fwd, .vid] s v3 := by
    refine Moves.seq (cinc_moves ..) (by decide) ?_
    exact h200
  have h202 : Moves [.cnt, .fwd, .vid] s v4 := by
    unfold v4
    split
    · exact h200
    · split
      · refine Moves.ite ?_ ?_
        · refine Moves.seq (sessMark_moves ..) (by decide) ?_
          exact h201
        · exact h201
      · exact h201
  refine Moves.ite ?_ ?_
  · exact h200
  · split
    · refine Moves.seq (sessLoad_moves ..) (by decide) ?_
      exact h202
    · exact h202

theorem encSwitch_moves (a0 a1 s) : Moves [.cnt, .vid] s (encSwitch a0 a1 s) := by
  unfold encSwitch
  extract_lets v0 v1 v2
  have h200 : Moves [.cnt, .vid] s v2 := by
    refine Moves.vid_with (by decide) ?_
    exact Moves.refl _ _
  refine Moves.ite ?_ ?_
  · refine Moves.seq (cinc_moves ..) (by decide) ?_
    exact h200
  · exact h200

theorem execDecodePictureStart_runs (a0 a1 s) : Runs [.mem, .regs, .cnt, .hif, .egr, .fwd, .vid, .obs, .ddr, .out] s (execDecodePictureStart a0 a1 s) := by
  unfold execDecodePictureStart
  refine Runs.next ?_
  refine Moves.ite ?_ ?_
  · exact Moves.refl _ _
  · split
    · exact Moves.refl _ _
    · extract_lets v0
      have h200 : Moves [.mem, .regs, .cnt, .hif, .egr, .fwd, .vid, .obs, .ddr, .out] s v0 := by
        refine Moves.seq (decSwitch_moves ..) (by decide) ?_
        exact Moves.refl _ _
      split
      · exact Moves.refl _ _
      · split
        · exact Moves.refl _ _
        · refine Moves.ite ?_ ?_
          · exact Moves.refl _ _
          · refine Moves.seq (tileSync_moves ..) (by decide) ?_
            refine Moves.seq (decodeStart_moves ..) (by decide) ?_
            exact h200

theorem execDecodePictureComplete_runs (a0 s) : Runs [.mem, .regs, .cnt, .hif, .ctl, .egr, .fwd, .vid, .flt, .obs, .ddr, .out] s (execDecodePictureComplete a0 s) := by
  unfold execDecodePictureComplete
  refine Runs.next ?_
  split
  · exact Moves.refl _ _
  · split
    · exact Moves.refl _ _
    · split
      · exact Moves.refl _ _
      · refine Moves.ite ?_ ?_
        · exact Moves.refl _ _
        · refine Moves.seq (decTurn_moves ..) (by decide) ?_
          refine Moves.seq (decodeComplete_moves ..) (by decide) ?_
          exact Moves.refl _ _

theorem execDecodePictureMissed_runs (a0 a1 s) : Runs [.mem, .regs, .cnt, .hif, .ctl, .vid, .flt, .obs, .ddr, .out] s (execDecodePictureMissed a0 a1 s) := by
  unfold execDecodePictureMissed
  refine Runs.next ?_
  split
  · exact Moves.refl _ _
  · split
    · refine Moves.ite ?_ ?_
      · refine Moves.seq (decTurn_moves ..) (by decide) ?_
        refine Moves.seq (decodeMissed_moves ..) (by decide) ?_
        exact Moves.refl _ _
      · exact Moves.refl _ _
    · refine Moves.ite ?_ ?_
      · refine Moves.seq (decodeMissed_moves ..) (by decide) ?_
        exact Moves.refl _ _
      · exact Moves.refl _ _
    · exact Moves.refl _ _

theorem execEncodePictureStart_runs (a0 s) : Runs [.mem, .regs, .cnt, .hif, .vid, .ddr, .out] s (execEncodePictureStart a0 s) := by
  unfold execEncodePictureStart
  refine Runs.next ?_
  refine Moves.ite ?_ ?_
  · exact Moves.refl _ _
  · split
    · exact Moves.refl _ _
    · split
      · split
        · exact Moves.refl _ _
        · refine Moves.seq (tileSync_moves ..) (by decide) ?_
          refine Moves.seq (encodeStart_moves ..) (by decide) ?_
          refine Moves.seq (encSwitch_moves ..) (by decide) ?_
          exact Moves.refl _ _
      · exact Moves.refl _ _

theorem execEncodePictureComplete_runs (a0 a1 s) : Runs [.mem, .regs, .cnt, .hif, .ctl, .egr, .fwd, .vid, .flt, .obs, .ddr, .out] s (execEncodePictureComplete a0 a1 s) := by
  unfold execEncodePictureComplete
  refine Runs.next ?_
  split
  · exact Moves.refl _ _
  · split
    · split
      · exact Moves.refl _ _
      · refine Moves.seq (encTurn_moves ..) (by decide) ?_
        refine Moves.seq (encodeComplete_moves ..) (by decide) ?_
        exact Moves.refl _ _
    · exact Moves.refl _ _

theorem execRepeatPicture_runs (a0 a1 s) : Runs [.mem, .regs, .cnt, .hif, .ctl, .egr, .fwd, .vid, .flt, .obs, .ddr, .out] s (execRepeatPicture a0 a1 s) := by
  unfold execRepeatPicture
  refine Runs.next ?_
  split
  · split
    · exact Moves.refl _ _
    · extract_lets v0 v1
      refine Moves.ite ?_ ?_
      · refine Moves.seq (encTurn_moves ..) (by decide) ?_
        refine Moves.seq (repeatPicture_moves ..) (by decide) ?_
        exact Moves.refl _ _
      · exact Moves.refl _ _
  · exact Moves.refl _ _

theorem execCanvasTick_runs (a0 s) : Runs [.mem, .regs, .cnt, .hif, .ctl, .vid, .flt, .obs, .ddr, .out] s (execCanvasTick a0 s) := by
  unfold execCanvasTick
  refine Runs.next ?_
  refine Moves.seq (canvasTick_moves ..) (by decide) ?_
  refine Moves.seq (canvasTurn_moves ..) (by decide) ?_
  exact Moves.refl _ _

theorem execCompositionComplete_runs (a0 a1 s) : Runs [.mem, .regs, .cnt, .hif, .ctl, .vid, .flt, .ddr, .out] s (execCompositionComplete a0 a1 s) := by
  unfold execCompositionComplete
  refine Runs.next ?_
  split
  · exact Moves.refl _ _
  · split
    · exact Moves.refl _ _
    · split
      · exact Moves.refl _ _
      · refine Moves.seq (compDone_moves ..) (by decide) ?_
        exact Moves.refl _ _

theorem execCompositionMissed_runs (a0 s) : Runs [.mem, .regs, .cnt, .hif, .ctl, .vid, .ddr, .out] s (execCompositionMissed a0 s) := by
  unfold execCompositionMissed
  refine Runs.next ?_
  split
  · exact Moves.refl _ _
  · split
    · exact Moves.refl _ _
    · refine Moves.ite ?_ ?_
      · refine Moves.seq (compMissed_moves ..) (by decide) ?_
        exact Moves.refl _ _
      · exact Moves.refl _ _

theorem dpPut_moves (a0 s) : Moves [.vid] s (dpPut a0 s) := by
  unfold dpPut
  refine Moves.vid_with (by decide) ?_
  exact Moves.refl _ _

theorem dpTry_moves (a0 a1 s) : Moves [.regs, .cnt, .vid] s (dpTry a0 a1 s) := by
  unfold dpTry
  extract_lets v0 v1
  have h200 : Moves [.regs, .cnt, .vid] s v1 := by
    refine Moves.seq (dpPut_moves ..) (by decide) ?_
    exact Moves.refl _ _
  refine Moves.seq (cinc_moves ..) (by decide) ?_
  refine Moves.seq (fset_moves ..) (by decide) ?_
  refine Moves.seq (fset_moves ..) (by decide) ?_
  refine Moves.seq (fset_moves ..) (by decide) ?_
  exact h200

theorem dpStart_moves (s) : Moves [.regs, .cnt, .vid] s (dpStart s) := by
  unfold dpStart
  refine Moves.seq (dpTry_moves ..) (by decide) ?_
  exact Moves.refl _ _

theorem dpLost_moves (a0 a1 s) : Moves [.mem, .regs, .cnt, .hif, .vid, .ddr, .out] s (dpLost a0 a1 s) := by
  unfold dpLost
  extract_lets v0 v1
  have h200 : Moves [.mem, .regs, .cnt, .hif, .vid, .ddr, .out] s v0 := by
    refine Moves.seq (fset_moves ..) (by decide) ?_
    refine Moves.seq (fset_moves ..) (by decide) ?_
    refine Moves.seq (fset_moves ..) (by decide) ?_
    refine Moves.seq (fset_moves ..) (by decide) ?_
    exact Moves.refl _ _
  refine Moves.seq (raiseUnit_moves ..) (by decide) ?_
  refine Moves.seq (dpPut_moves ..) (by decide) ?_
  exact h200

theorem dpSync_moves (s) : Moves [.regs] s (dpSync s) := by
  unfold dpSync
  refine Moves.seq (fset_moves ..) (by decide) ?_
  exact Moves.refl _ _

theorem execDpHpdHigh_runs (a0 s) : Runs [.regs, .cnt, .vid] s (execDpHpdHigh a0 s) := by
  unfold execDpHpdHigh
  refine Runs.next ?_
  extract_lets v0 v1
  have h200 : Moves [.regs, .cnt, .vid] s v0 := by
    refine Moves.seq (fset_moves ..) (by decide) ?_
    exact Moves.refl _ _
  refine Moves.ite ?_ ?_
  · exact h200
  · refine Moves.seq (dpStart_moves ..) (by decide) ?_
    refine Moves.seq (dpPut_moves ..) (by decide) ?_
    exact h200

theorem execDpTrainPass_runs (a0 s) : Runs [.mem, .regs, .cnt, .hif, .vid, .ddr, .out] s (execDpTrainPass a0 s) := by
  unfold execDpTrainPass
  refine Runs.next ?_
  extract_lets v0 v1
  have h200 : Moves [.mem, .regs, .cnt, .hif, .vid, .ddr, .out] s v1 := by
    refine Moves.seq (fset_moves ..) (by decide) ?_
    refine Moves.seq (fset_moves ..) (by decide) ?_
    refine Moves.seq (fset_moves ..) (by decide) ?_
    refine Moves.seq (fset_moves ..) (by decide) ?_
    exact Moves.refl _ _
  refine Moves.ite ?_ ?_
  · exact Moves.refl _ _
  · refine Moves.ite ?_ ?_
    · refine Moves.seq (dpLost_moves ..) (by decide) ?_
      exact Moves.refl _ _
    · refine Moves.seq (raiseUnit_moves ..) (by decide) ?_
      exact h200

theorem execDpTrainStepFail_runs (s) : Runs [.mem, .regs, .cnt, .hif, .vid, .ddr, .out] s (execDpTrainStepFail s) := by
  unfold execDpTrainStepFail
  refine Runs.next ?_
  extract_lets v0
  refine Moves.ite ?_ ?_
  · exact Moves.refl _ _
  · refine Moves.ite ?_ ?_
    · refine Moves.seq (dpTry_moves ..) (by decide) ?_
      exact Moves.refl _ _
    · refine Moves.ite ?_ ?_
      · refine Moves.seq (dpTry_moves ..) (by decide) ?_
        exact Moves.refl _ _
      · refine Moves.seq (dpLost_moves ..) (by decide) ?_
        exact Moves.refl _ _

theorem execDpRetryTimer_runs (s) : Runs [.regs, .cnt, .vid] s (execDpRetryTimer s) := by
  unfold execDpRetryTimer
  refine Runs.next ?_
  refine Moves.ite ?_ ?_
  · refine Moves.seq (dpStart_moves ..) (by decide) ?_
    exact Moves.refl _ _
  · exact Moves.refl _ _

theorem execDpHpdIrq_runs (s) : Runs [.regs, .cnt, .vid] s (execDpHpdIrq s) := by
  unfold execDpHpdIrq
  refine Runs.next ?_
  refine Moves.ite ?_ ?_
  · refine Moves.seq (dpStart_moves ..) (by decide) ?_
    exact Moves.refl _ _
  · exact Moves.refl _ _

theorem execDpHpdLow_runs (s) : Runs [.mem, .regs, .cnt, .hif, .vid, .ddr, .out] s (execDpHpdLow s) := by
  unfold execDpHpdLow
  refine Runs.next ?_
  extract_lets v0
  have h200 : Moves [.mem, .regs, .cnt, .hif, .vid, .ddr, .out] s v0 := by
    refine Moves.seq (fset_moves ..) (by decide) ?_
    exact Moves.refl _ _
  refine Moves.ite ?_ ?_
  · exact h200
  · refine Moves.seq (dpLost_moves ..) (by decide) ?_
    exact h200

theorem dpCtrlWrite_moves (v s) : Moves [.regs, .cnt, .vid] s (dpCtrlWrite v s) := by
  have hs : ∀ f n y, Moves [.regs, .cnt, .vid] s y → Moves [.regs, .cnt, .vid] s (fset f n y) := fun _ _ _ h => Moves.seq (fset_moves ..) (by decide) h
  unfold dpCtrlWrite
  extract_lets put mode ok t u
  have hp : ∀ f top n y, Moves [.regs, .cnt, .vid] s y → Moves [.regs, .cnt, .vid] s (put f top n y) := fun _ _ _ _ h => Moves.ite (hs _ _ _ h) h
  have ht : Moves [.regs, .cnt, .vid] s t := Moves.ite (hs _ _ _ (hs _ _ _ (Moves.refl _ _))) (hs _ _ _ (Moves.refl _ _))
  have hu : Moves [.regs, .cnt, .vid] s u := hp _ _ _ _ (hs _ _ _ (hp _ _ _ _ ht))
  exact Moves.ite (Moves.seq (dpStart_moves ..) (by decide) hu) hu

theorem execDpCtrlWrite_runs (a0 s) : Runs [.regs, .cnt, .vid] s (execDpCtrlWrite a0 s) := by
  unfold execDpCtrlWrite
  refine Runs.next ?_
  refine Moves.seq (dpCtrlWrite_moves ..) (by decide) ?_
  exact Moves.refl _ _

theorem dpLatch_moves (s) : Moves [.vid] s (dpLatch s) := by
  unfold dpLatch
  refine Moves.seq (dpPut_moves ..) (by decide) ?_
  exact Moves.refl _ _

theorem dpClear_moves (s) : Moves [.vid] s (dpClear s) := by
  unfold dpClear
  extract_lets v0 v1
  have h200 : Moves [.vid] s v1 := by
    refine Moves.seq (dpPut_moves ..) (by decide) ?_
    exact Moves.refl _ _
  split
  · refine Moves.seq (canvasTrim_moves ..) (by decide) ?_
    exact h200
  · exact h200

theorem dpService_moves (s) : Moves [.cnt, .vid, .out] s (dpService s) := by
  unfold dpService
  extract_lets v0 v1 v2 v3
  have h200 : Moves [.cnt, .vid, .out] s v2 := by
    refine Moves.seq (dpClear_moves ..) (by decide) ?_
    exact Moves.refl _ _
  split
  · refine Moves.out_with (by decide) ?_
    exact h200
  · extract_lets v201 v202 v203
    have h401 : Moves [.cnt, .vid, .out] s v202 := by
      refine Moves.ite ?_ ?_
      · refine Moves.seq (cinc_moves ..) (by decide) ?_
        exact Moves.refl _ _
      · refine Moves.ite ?_ ?_
        · refine Moves.seq (cadd_moves ..) (by decide) ?_
          exact Moves.refl _ _
        · refine Moves.seq (dpClear_moves ..) (by decide) ?_
          exact Moves.refl _ _
    have h402 : Moves [.cnt, .vid, .out] s v203 := by
      refine Moves.seq (dpPut_moves ..) (by decide) ?_
      exact h401
    refine Moves.seq (canvasTrim_moves ..) (by decide) ?_
    refine Moves.out_with (by decide) ?_
    exact h402

theorem execDpFrameStart_runs (s) : Runs [.regs, .cnt, .vid, .out] s (execDpFrameStart s) := by
  unfold execDpFrameStart
  refine Runs.next ?_
  refine Moves.ite ?_ ?_
  · exact Moves.refl _ _
  · extract_lets v0 v1
    have h200 : Moves [.regs, .cnt, .vid, .out] s v0 := by
      refine Moves.seq (dpSync_moves ..) (by decide) ?_
      refine Moves.seq (dpLatch_moves ..) (by decide) ?_
      exact Moves.refl _ _
    have h201 : Moves [.regs, .cnt, .vid, .out] s v1 := by
      refine Moves.seq (cinc_moves ..) (by decide) ?_
      refine Moves.seq (dpClear_moves ..) (by decide) ?_
      exact h200
    refine Moves.ite ?_ ?_
    · refine Moves.out_with (by decide) ?_
      exact h201
    · refine Moves.ite ?_ ?_
      · refine Moves.seq (dpService_moves ..) (by decide) ?_
        refine Moves.seq (cinc_moves ..) (by decide) ?_
        exact h200
      · refine Moves.seq (dpClear_moves ..) (by decide) ?_
        exact h200

theorem execFallbackOpenRetry_runs (a0 s) : Runs [.mem, .regs, .cnt, .hif, .ctl, .egr, .fwd, .vid, .flt, .ddr, .out] s (execFallbackOpenRetry a0 s) := by
  unfold execFallbackOpenRetry
  refine Runs.next ?_
  split
  · exact Moves.refl _ _
  · refine Moves.seq (fallRetry_moves ..) (by decide) ?_
    exact Moves.refl _ _

theorem tileMove_moves (a0 a1 a2 s) : Moves [.regs, .vid] s (tileMove a0 a1 a2 s) := by
  unfold tileMove
  extract_lets v0 v1 v2 v3 v4
  have h200 : Moves [.regs, .vid] s v1 := by
    refine Moves.seq (fset_moves ..) (by decide) ?_
    refine Moves.seq (fset_moves ..) (by decide) ?_
    exact Moves.refl _ _
  have h201 : Moves [.regs, .vid] s v2 := by
    refine Moves.seq (fset_moves ..) (by decide) ?_
    refine Moves.seq (fset_moves ..) (by decide) ?_
    refine Moves.seq (fset_moves ..) (by decide) ?_
    exact h200
  have h202 : Moves [.regs, .vid] s v4 := by
    refine Moves.vid_with (by decide) ?_
    exact h201
  refine Moves.seq (tileSync_moves ..) (by decide) ?_
  refine Moves.seq (tileSync_moves ..) (by decide) ?_
  exact h202

theorem tileFail_moves {ps : List Part} {s x : State} {log : FaultRec → State → Nat × State} {t : Nat}
    (hf : ∀ r y, Moves ps y (log r y).2) (hm : ∀ p ∈ [.mem, .regs, .cnt, .hif, .ctl, .vid, .flt, .obs, .ddr, .out], p ∈ ps) (b : Moves ps s x) : Moves ps s (tileFail log t x) := by
  have hs : ∀ f v y, Moves ps s y → Moves ps s (fset f v y) := fun f v y h =>
    Moves.seq (fset_moves ..) (fun p h => hm p (by revert p; decide)) h
  have hu : ∀ u r y, Moves ps s y → Moves ps s (unitRetire u r y) := fun u r y h =>
    Moves.seq (unitRetire_moves ..) (fun p h => hm p (by revert p; decide)) h
  unfold tileFail
  extract_lets unit rec_ ds es
  refine Moves.ite ?_ ?_
  · extract_lets
    exact hu _ _ _ (hs _ _ _ (b.trans (hf ..)))
  · split
    · extract_lets y z
      have hz : Moves ps s z := by
        refine Moves.seq (spareTakeover_moves ..) (fun p h => hm p (by revert p; decide)) ?_
        exact Moves.seq (tileMove_moves ..) (fun p h => hm p (by revert p; decide)) (b.trans (hf ..))
      exact Moves.seq (raiseUnit_moves ..) (fun p h => hm p (by revert p; decide)) (hu _ _ _ hz)
    · have hz := hs (R.VCT_TILE_DUTY_valid t) 0 _ (hs (R.VCT_TILE_STATUS_state t) 2 _ (b.trans (hf (rec_ 4 0 (ds.length + es.length) t) x)))
      refine Moves.seq (tileSync_moves ..) (fun p h => hm p (by revert p; decide)) ?_
      exact Moves.seq (sessRehomeAll_moves ..) (fun p h => hm p (by revert p; decide)) (hu _ _ _ hz)

theorem execTileHwFault_runs (a0 s) : Runs [.mem, .regs, .cnt, .hif, .ctl, .vid, .flt, .obs, .ddr, .ldg, .out] s (execTileHwFault a0 s) := by
  unfold execTileHwFault
  refine Runs.next ?_
  refine Moves.ite ?_ ?_
  · exact Moves.refl _ _
  · refine tileFail_moves (fun _ y0 => ?_) (by decide) ?_
    · refine Moves.seq (faultDeclare_moves ..) (by decide) ?_
      exact Moves.refl _ _
    · exact Moves.refl _ _

end Sys2Proof.Machine
end

