-- ==== Sys2Proof/Laws/ChLegs.lean ====
section
/-! SUPPORT. What each operation of Machine/Legs.lean may change: one lemma for each, which says every part of State that it
can alter, and that it keeps the invariant. -/

set_option Elab.async false

namespace Sys2Proof.Machine

theorem cntClear_moves (a0 a1 s) : Moves [.cnt] s (cntClear a0 a1 s) := by
  unfold cntClear
  refine Moves.cnt_with (by decide) ?_
  exact Moves.refl _ _

theorem actCharge_moves (a0 a1 a2 s) : Moves [.ctl] s (actCharge a0 a1 a2 s) := by
  unfold actCharge
  split
  · exact Moves.refl _ _
  · extract_lets v0 v1 v2
    have h200 : Moves [.ctl] s v1 := by
      refine Moves.ite ?_ ?_
      · refine Moves.seq (chargeUp_moves ..) (by decide) ?_
        exact Moves.refl _ _
      · refine Moves.seq (chargeDown_moves ..) (by decide) ?_
        exact Moves.refl _ _
    refine Moves.ctl_with (by decide) ?_
    exact h200

theorem applyActAdmit_moves (a0 a1 s) : Moves [.cnt, .ctl, .aud] s (applyActAdmit a0 a1 s).1 := by
  unfold applyActAdmit
  extract_lets v0 v1 v2
  split
  · refine Moves.mk_fst ?_
    exact Moves.refl _ _
  · split
    · refine Moves.mk_fst ?_
      exact Moves.refl _ _
    · refine Moves.ite_fst ?_ ?_
      · refine Moves.mk_fst ?_
        exact Moves.refl _ _
      · refine Moves.ite_fst ?_ ?_
        · refine Moves.mk_fst ?_
          exact Moves.refl _ _
        · extract_lets v200
          split
          · refine Moves.mk_fst ?_
            exact Moves.refl _ _
          · extract_lets v400 v401 v402
            have h600 : Moves [.cnt, .ctl, .aud] s v400 := by
              refine Moves.seq (chargeUp_moves ..) (by decide) ?_
              refine Moves.seq (cntClear_moves ..) (by decide) ?_
              exact Moves.refl _ _
            have h601 : Moves [.cnt, .ctl, .aud] s v402 := by
              refine Moves.ctl_with (by decide) ?_
              exact h600
            refine Moves.mk_fst ?_
            refine Moves.seq (audActAdmit_moves ..) (by decide) ?_
            exact h601

theorem applyActRelease_moves (a0 a1 s) : Moves [.regs, .ctl, .aud, .flt, .cas] s (applyActRelease a0 a1 s).1 := by
  unfold applyActRelease
  extract_lets v0
  split
  · refine Moves.mk_fst ?_
    exact Moves.refl _ _
  · refine Moves.ite_fst ?_ ?_
    · refine Moves.mk_fst ?_
      exact Moves.refl _ _
    · split
      · refine Moves.mk_fst ?_
        exact Moves.refl _ _
      · refine Moves.ite_fst ?_ ?_
        · refine Moves.mk_fst ?_
          exact Moves.refl _ _
        · extract_lets v200 v201
          have h400 : Moves [.regs, .ctl, .aud, .flt, .cas] s v200 := by
            refine Moves.seq (chargeDown_moves ..) (by decide) ?_
            exact Moves.refl _ _
          refine Moves.mk_fst ?_
          refine Moves.seq (drainForget_moves ..) (by decide) ?_
          refine Moves.seq (audActFree_moves ..) (by decide) ?_
          refine Moves.ctl_with (by decide) ?_
          exact h400

theorem settingSettle_moves (a0 a1 s) : Moves [.ctl] s (settingSettle a0 a1 s) := by
  unfold settingSettle
  extract_lets v0
  refine Moves.ite ?_ ?_
  · refine Moves.seq (actCharge_moves ..) (by decide) ?_
    exact Moves.refl _ _
  · refine Moves.seq (actCharge_moves ..) (by decide) ?_
    exact Moves.refl _ _

theorem srcChange_moves (a0 a1 s) : Moves [.mem, .regs, .cnt, .hif, .ctl, .aud, .src, .obs, .ddr, .out] s (srcChange a0 a1 s) := by
  unfold srcChange
  extract_lets v0
  unfold v0
  split
  · refine Moves.seq (settingSettle_moves ..) (by decide) ?_
    refine Moves.seq (srcApply_moves ..) (by decide) ?_
    exact Moves.refl _ _
  · refine Moves.seq (srcApply_moves ..) (by decide) ?_
    exact Moves.refl _ _

theorem applyLegAdmit_moves (a0 a1 s) : Moves [.cnt, .ctl, .aud, .egr] s (applyLegAdmit a0 a1 s).1 := by
  unfold applyLegAdmit
  extract_lets v0 v1 v2 v3 v4 v5 v6 v7 v8 v9
  split
  · refine Moves.mk_fst ?_
    exact Moves.refl _ _
  · refine Moves.mk_fst ?_
    exact Moves.refl _ _
  · refine Moves.ite_fst ?_ ?_
    · refine Moves.mk_fst ?_
      exact Moves.refl _ _
    · refine Moves.ite_fst ?_ ?_
      · refine Moves.mk_fst ?_
        exact Moves.refl _ _
      · split
        · refine Moves.ite_fst ?_ ?_
          · refine Moves.mk_fst ?_
            exact Moves.refl _ _
          · refine Moves.ite_fst ?_ ?_
            · refine Moves.mk_fst ?_
              exact Moves.refl _ _
            · extract_lets v200
              split
              · refine Moves.mk_fst ?_
                exact Moves.refl _ _
              · refine Moves.ite_fst ?_ ?_
                · refine Moves.mk_fst ?_
                  exact Moves.refl _ _
                · extract_lets v400 v401 v402 v403 v404 v405
                  have h600 : Moves [.cnt, .ctl, .aud, .egr] s v400 := by
                    refine Moves.seq (chargeUp_moves ..) (by decide) ?_
                    refine Moves.seq (cntClear_moves ..) (by decide) ?_
                    exact Moves.refl _ _
                  have h601 : Moves [.cnt, .ctl, .aud, .egr] s v404 := by
                    refine Moves.ctl_with (by decide) ?_
                    exact h600
                  have h602 : Moves [.cnt, .ctl, .aud, .egr] s v405 := by
                    refine Moves.seq (egrAdmit_moves ..) (by decide) ?_
                    refine Moves.seq (audLegAdmit_moves ..) (by decide) ?_
                    exact h601
                  refine Moves.mk_fst ?_
                  refine Moves.seq (settingSettle_moves ..) (by decide) ?_
                  exact h602
        · refine Moves.mk_fst ?_
          exact Moves.refl _ _

theorem applyLegStart_moves (a0 a1 s) : Moves [.ctl, .aud, .fwd] s (applyLegStart a0 a1 s).1 := by
  unfold applyLegStart
  split
  · refine Moves.mk_fst ?_
    exact Moves.refl _ _
  · extract_lets v0 v1 v2
    have h200 : Moves [.ctl, .aud, .fwd] s v2 := by
      refine Moves.ctl_with (by decide) ?_
      exact Moves.refl _ _
    refine Moves.ite_fst ?_ ?_
    · refine Moves.mk_fst ?_
      exact Moves.refl _ _
    · refine Moves.ite_fst ?_ ?_
      · refine Moves.mk_fst ?_
        exact Moves.refl _ _
      · refine Moves.mk_fst ?_
        refine Moves.seq (fwdLegStart_moves ..) (by decide) ?_
        refine Moves.seq (audLegStart_moves ..) (by decide) ?_
        exact h200

theorem trustFrom_moves (a0 a1 s) : Moves [.ctl, .aud] s (trustFrom a0 a1 s) := by
  unfold trustFrom
  refine Moves.seq (trustCharge_moves ..) (by decide) ?_
  refine Moves.seq (legAudPut_moves ..) (by decide) ?_
  exact Moves.refl _ _

theorem trustRoute_moves (a0 a1 a2 s) : Moves [.ctl, .aud] s (trustRoute a0 a1 a2 s) := by
  unfold trustRoute
  refine Moves.ite ?_ ?_
  · refine Moves.ite ?_ ?_
    · refine Moves.ite ?_ ?_
      · refine Moves.seq (trustCharge_moves ..) (by decide) ?_
        refine Moves.seq (trustCharge_moves ..) (by decide) ?_
        exact Moves.refl _ _
      · exact Moves.refl _ _
    · refine Moves.ite ?_ ?_
      · refine Moves.seq (trustFrom_moves ..) (by decide) ?_
        exact Moves.refl _ _
      · exact Moves.refl _ _
  · refine Moves.seq (trustClear_moves ..) (by decide) ?_
    exact Moves.refl _ _

theorem applyLegRoute_moves (a0 a1 s) : Moves [.mem, .regs, .cnt, .hif, .ctl, .aud, .ddr, .out] s (applyLegRoute a0 a1 s).1 := by
  unfold applyLegRoute
  extract_lets v0 v1 v2
  split
  · refine Moves.mk_fst ?_
    exact Moves.refl _ _
  · split
    · refine Moves.mk_fst ?_
      exact Moves.refl _ _
    · refine Moves.ite_fst ?_ ?_
      · refine Moves.mk_fst ?_
        exact Moves.refl _ _
      · refine Moves.ite_fst ?_ ?_
        · refine Moves.mk_fst ?_
          exact Moves.refl _ _
        · refine Moves.ite_fst ?_ ?_
          · refine Moves.mk_fst ?_
            exact Moves.refl _ _
          · refine Moves.ite_fst ?_ ?_
            · refine Moves.mk_fst ?_
              exact Moves.refl _ _
            · split
              · refine Moves.ite_fst ?_ ?_
                · refine Moves.mk_fst ?_
                  exact Moves.refl _ _
                · refine Moves.ite_fst ?_ ?_
                  · refine Moves.mk_fst ?_
                    exact Moves.refl _ _
                  · extract_lets v200 v201 v202 v203 v204 v205 v206 v207 v208 v209 v210 v211 v212 v213
                    have h400 : Moves [.mem, .regs, .cnt, .hif, .ctl, .aud, .ddr, .out] s v206 := by
                      refine Moves.seq (actCharge_moves ..) (by decide) ?_
                      refine Moves.seq (actCharge_moves ..) (by decide) ?_
                      exact Moves.refl _ _
                    have h401 : Moves [.mem, .regs, .cnt, .hif, .ctl, .aud, .ddr, .out] s v207 := by
                      refine Moves.seq (trustRoute_moves ..) (by decide) ?_
                      exact h400
                    have h402 : Moves [.mem, .regs, .cnt, .hif, .ctl, .aud, .ddr, .out] s v208 := by
                      unfold v208
                      split
                      · refine Moves.seq (chargeDown_moves ..) (by decide) ?_
                        exact h401
                      · exact h401
                    have h403 : Moves [.mem, .regs, .cnt, .hif, .ctl, .aud, .ddr, .out] s v210 := by
                      refine Moves.ite ?_ ?_
                      · exact h401
                      · refine Moves.seq (chargeUp_moves ..) (by decide) ?_
                        refine Moves.seq (legAudPut_moves ..) (by decide) ?_
                        exact h402
                    have h404 : Moves [.mem, .regs, .cnt, .hif, .ctl, .aud, .ddr, .out] s v211 := by
                      refine Moves.seq (audLegRoute_moves ..) (by decide) ?_
                      exact h403
                    have h405 : Moves [.mem, .regs, .cnt, .hif, .ctl, .aud, .ddr, .out] s v213 := by
                      refine Moves.ctl_with (by decide) ?_
                      exact h404
                    refine Moves.ite_fst ?_ ?_
                    · refine Moves.mk_fst ?_
                      exact Moves.refl _ _
                    · refine Moves.mk_fst ?_
                      refine Moves.seq (settingSettle_moves ..) (by decide) ?_
                      refine Moves.seq (settingSettle_moves ..) (by decide) ?_
                      exact h405
              · refine Moves.mk_fst ?_
                exact Moves.refl _ _

theorem streamFree_moves (a0 s) : Moves [.ctl, .egr, .fwd] s (streamFree a0 s) := by
  unfold streamFree
  refine Moves.ctl_egr_fwd_with (by decide) (by decide) (by decide) ?_
  exact Moves.refl _ _

theorem legFree_moves (a0 a1 a2 s) : Moves [.regs, .ctl, .aud, .egr, .src, .fwd, .vid, .flt, .cas] s (legFree a0 a1 a2 s) := by
  unfold legFree
  extract_lets v0 v1 v2 v3 v4 v5 v6 v7 v8
  have h200 : Moves [.regs, .ctl, .aud, .egr, .src, .fwd, .vid, .flt, .cas] s v1 := by
    refine Moves.foldl (fun _ y201 => ?_) ?_
    · refine Moves.seq (streamFree_moves ..) (by decide) ?_
      exact Moves.refl _ _
    · exact Moves.refl _ _
  have h202 : Moves [.regs, .ctl, .aud, .egr, .src, .fwd, .vid, .flt, .cas] s v2 := by
    refine Moves.ite ?_ ?_
    · refine Moves.seq (fallClose_moves ..) (by decide) ?_
      exact h200
    · exact h200
  have h203 : Moves [.regs, .ctl, .aud, .egr, .src, .fwd, .vid, .flt, .cas] s v4 := by
    refine Moves.seq (chargeDown_moves ..) (by decide) ?_
    exact h202
  have h204 : Moves [.regs, .ctl, .aud, .egr, .src, .fwd, .vid, .flt, .cas] s v5 := by
    refine Moves.seq (egrFree_moves ..) (by decide) ?_
    refine Moves.seq (audLegFree_moves ..) (by decide) ?_
    exact h203
  have h205 : Moves [.regs, .ctl, .aud, .egr, .src, .fwd, .vid, .flt, .cas] s v8 := by
    refine Moves.ctl_fwd_with (by decide) (by decide) ?_
    exact h204
  refine Moves.seq (settingSettle_moves ..) (by decide) ?_
  refine Moves.seq (drainForget_moves ..) (by decide) ?_
  exact h205

theorem applyLegRelease_moves (a0 a1 s) : Moves [.regs, .ctl, .aud, .egr, .src, .fwd, .vid, .flt, .cas] s (applyLegRelease a0 a1 s).1 := by
  unfold applyLegRelease
  split
  · refine Moves.mk_fst ?_
    exact Moves.refl _ _
  · refine Moves.ite_fst ?_ ?_
    · refine Moves.mk_fst ?_
      exact Moves.refl _ _
    · split
      · refine Moves.mk_fst ?_
        refine Moves.seq (legFree_moves ..) (by decide) ?_
        exact Moves.refl _ _
      · extract_lets v0 v1 v2
        have h200 : Moves [.regs, .ctl, .aud, .egr, .src, .fwd, .vid, .flt, .cas] s v2 := by
          refine Moves.ctl_with (by decide) ?_
          exact Moves.refl _ _
        refine Moves.mk_fst ?_
        refine Moves.seq (audLegRelease_moves ..) (by decide) ?_
        exact h200
      · refine Moves.mk_fst ?_
        exact Moves.refl _ _

theorem applyStreamAdmit_moves (a0 a1 s) : Moves [.cnt, .ctl, .aud, .egr] s (applyStreamAdmit a0 a1 s).1 := by
  unfold applyStreamAdmit
  extract_lets v0 v1 v2 v3 v4 v5
  split
  · refine Moves.mk_fst ?_
    exact Moves.refl _ _
  · refine Moves.mk_fst ?_
    exact Moves.refl _ _
  · refine Moves.ite_fst ?_ ?_
    · refine Moves.mk_fst ?_
      exact Moves.refl _ _
    · split
      · refine Moves.mk_fst ?_
        exact Moves.refl _ _
      · refine Moves.ite_fst ?_ ?_
        · refine Moves.mk_fst ?_
          exact Moves.refl _ _
        · refine Moves.ite_fst ?_ ?_
          · refine Moves.mk_fst ?_
            exact Moves.refl _ _
          · refine Moves.ite_fst ?_ ?_
            · refine Moves.mk_fst ?_
              exact Moves.refl _ _
            · extract_lets v200 v201 v202 v203 v204
              have h400 : Moves [.cnt, .ctl, .aud, .egr] s v202 := by
                refine Moves.seq (cntClear_moves ..) (by decide) ?_
                refine Moves.seq (streamPut_moves ..) (by decide) ?_
                exact Moves.refl _ _
              have h401 : Moves [.cnt, .ctl, .aud, .egr] s v204 := by
                refine Moves.ite ?_ ?_
                · refine Moves.egr_with (by decide) ?_
                  exact h400
                · exact h400
              refine Moves.ite_fst ?_ ?_
              · refine Moves.mk_fst ?_
                exact Moves.refl _ _
              · refine Moves.mk_fst ?_
                refine Moves.ite ?_ ?_
                · refine Moves.seq (trustFrom_moves ..) (by decide) ?_
                  exact h401
                · exact h401

theorem applyStreamRelease_moves (a0 a1 s) : Moves [.ctl, .egr, .fwd] s (applyStreamRelease a0 a1 s).1 := by
  unfold applyStreamRelease
  extract_lets v0
  split
  · refine Moves.mk_fst ?_
    exact Moves.refl _ _
  · refine Moves.ite_fst ?_ ?_
    · refine Moves.mk_fst ?_
      exact Moves.refl _ _
    · refine Moves.ite_fst ?_ ?_
      · refine Moves.mk_fst ?_
        exact Moves.refl _ _
      · refine Moves.mk_fst ?_
        refine Moves.seq (streamFree_moves ..) (by decide) ?_
        exact Moves.refl _ _

theorem applyKeyBind_moves (a0 a1 s) : Moves [.ctl] s (applyKeyBind a0 a1 s).1 := by
  unfold applyKeyBind
  extract_lets v0 v1 v2
  split
  · refine Moves.mk_fst ?_
    exact Moves.refl _ _
  · refine Moves.mk_fst ?_
    exact Moves.refl _ _
  · refine Moves.ite_fst ?_ ?_
    · refine Moves.mk_fst ?_
      exact Moves.refl _ _
    · split
      · refine Moves.mk_fst ?_
        exact Moves.refl _ _
      · refine Moves.ite_fst ?_ ?_
        · refine Moves.mk_fst ?_
          exact Moves.refl _ _
        · refine Moves.ite_fst ?_ ?_
          · refine Moves.mk_fst ?_
            refine Moves.seq (streamPut_moves ..) (by decide) ?_
            exact Moves.refl _ _
          · extract_lets v200
            refine Moves.ite_fst ?_ ?_
            · refine Moves.mk_fst ?_
              exact Moves.refl _ _
            · refine Moves.mk_fst ?_
              refine Moves.seq (streamPut_moves ..) (by decide) ?_
              exact Moves.refl _ _

theorem recOnce_moves (a0 a1 s) : Moves [.ctl, .aud] s (recOnce a0 a1 s) := by
  unfold recOnce
  extract_lets v0 v1 v2 v3
  have h200 : Moves [.ctl, .aud] s v2 := by
    refine Moves.ite ?_ ?_
    · refine Moves.seq (trustClear_moves ..) (by decide) ?_
      exact Moves.refl _ _
    · exact Moves.refl _ _
  refine Moves.ite ?_ ?_
  · refine Moves.seq (legAudPut_moves ..) (by decide) ?_
    exact h200
  · exact h200

theorem applyAudSafeLoad_moves (c d b s) : Moves [.cnt, .ctl, .aud] s (applyAudSafeLoad c d b s).1 := by
  have hr : ∀ (x : Option Rsp), Moves [.cnt, .ctl, .aud] s (s, x).1 := fun _ => Moves.refl _ _
  unfold applyAudSafeLoad
  extract_lets id a n cnt hasHdr bad x old again
  split
  · exact hr _
  · split
    · exact hr _
    · refine Moves.ite_fst (hr _) (Moves.ite_fst (hr _) ?_)
      split
      · exact hr _
      · extract_lets recs k y t' u v w
        have h1 : Moves [.cnt, .ctl, .aud] s t' := (actAudPut_moves ..).mono (by decide)
        have h2 : Moves [.cnt, .ctl, .aud] s u := Moves.seq (settingSettle_moves ..) (by decide) (Moves.ite h1
          (Moves.seq (cinc_moves ..) (by decide) (Moves.seq (cinc_moves ..) (by decide) h1)))
        have h3 : Moves [.cnt, .ctl, .aud] s v := Moves.foldl (fun _ _ => (recOnce_moves ..).mono (by decide)) h2
        have h4 : Moves [.cnt, .ctl, .aud] s w := Moves.ite (Moves.seq (selLower_moves ..) (by decide) h3) h3
        exact Moves.ite_fst (hr _) (Moves.ite_fst (hr _) (Moves.ite_fst (hr _) (Moves.ite_fst (hr _) h4)))

end Sys2Proof.Machine
end

