-- ==== Sys2Proof/Laws/ChFrmOps.lean ====
section
/-! SUPPORT. What each operation of Machine/FrmOps.lean may change: one lemma for each, which says every part of State that it
can alter, and that it keeps the invariant. -/

set_option Elab.async false

namespace Sys2Proof.Machine

theorem raiseTo_moves (a0 a1 s) : Moves [.mem, .regs, .cnt, .hif, .ddr, .out] s (raiseTo a0 a1 s) := by
  unfold raiseTo
  extract_lets v0 v1
  have h200 : Moves [.mem, .regs, .cnt, .hif, .ddr, .out] s v0 := by
    refine Moves.ite ?_ ?_
    · refine Moves.seq (traceAdd_moves ..) (by decide) ?_
      exact Moves.refl _ _
    · exact Moves.refl _ _
  have h201 : Moves [.mem, .regs, .cnt, .hif, .ddr, .out] s v1 := by
    unfold v1
    split
    · exact h200
    · refine Moves.seq (evqPush_moves ..) (by decide) ?_
      exact h200
  refine Moves.seq (pushPf_moves ..) (by decide) ?_
  exact h201

theorem generationPut_moves (a0 a1 s) : Moves [.regs] s (generationPut a0 a1 s) := by
  unfold generationPut
  refine Moves.ite ?_ ?_
  · refine Moves.seq (fset_moves ..) (by decide) ?_
    exact Moves.refl _ _
  · refine Moves.seq (fset_moves ..) (by decide) ?_
    exact Moves.refl _ _

theorem rollbackPut_moves (a0 a1 s) : Moves [.regs] s (rollbackPut a0 a1 s) := by
  unfold rollbackPut
  refine Moves.ite ?_ ?_
  · refine Moves.seq (fset_moves ..) (by decide) ?_
    exact Moves.refl _ _
  · refine Moves.seq (fset_moves ..) (by decide) ?_
    exact Moves.refl _ _

theorem frmSync_moves (s) : Moves [.regs] s (frmSync s) := by
  unfold frmSync
  extract_lets v0
  have h200 : Moves [.regs] s v0 := by
    refine Moves.seq (fset_moves ..) (by decide) ?_
    refine Moves.seq (fset_moves ..) (by decide) ?_
    exact Moves.refl _ _
  refine Moves.foldl (fun _ y201 => ?_) ?_
  · refine Moves.seq (fset_moves ..) (by decide) ?_
    exact Moves.refl _ _
  · exact h200

theorem evqSizes_moves (s) : Moves [.regs, .cnt, .hif] s (evqSizes s) := by
  unfold evqSizes
  refine Moves.foldl (fun _ y0 => ?_) ?_
  · refine Moves.seq (evqStage_moves ..) (by decide) ?_
    exact Moves.refl _ _
  · exact Moves.refl _ _

theorem tileSet_moves (a0 s) : Moves [.mem, .regs, .cnt, .hif, .vid, .ddr, .ldg, .out] s (tileSet a0 s) := by
  unfold tileSet
  refine Moves.ite ?_ ?_
  · extract_lets v0
    have h200 : Moves [.mem, .regs, .cnt, .hif, .vid, .ddr, .ldg, .out] s v0 := by
      refine Moves.seq (fset_moves ..) (by decide) ?_
      exact Moves.refl _ _
    refine Moves.ite ?_ ?_
    · exact h200
    · split
      · exact h200
      · refine Moves.seq (faultLog_moves ..) (by decide) ?_
        refine Moves.seq (fset_moves ..) (by decide) ?_
        refine Moves.seq (tileMove_moves ..) (by decide) ?_
        exact h200
  · split
    · refine Moves.seq (fset_moves ..) (by decide) ?_
      refine Moves.ite ?_ ?_
      · exact Moves.refl _ _
      · refine Moves.seq (fset_moves ..) (by decide) ?_
        exact Moves.refl _ _
    · refine Moves.ite ?_ ?_
      · exact Moves.refl _ _
      · refine Moves.seq (fset_moves ..) (by decide) ?_
        exact Moves.refl _ _
    · refine Moves.seq (fset_moves ..) (by decide) ?_
      refine Moves.seq (fset_moves ..) (by decide) ?_
      exact Moves.refl _ _

theorem bayTilesSet_moves (a0 s) : Moves [.mem, .regs, .cnt, .hif, .vid, .ddr, .ldg, .out] s (bayTilesSet a0 s) := by
  unfold bayTilesSet
  extract_lets v0 v1 v2
  refine Moves.foldl (fun _ y200 => ?_) ?_
  · refine Moves.seq (tileSet_moves ..) (by decide) ?_
    exact Moves.refl _ _
  · exact Moves.refl _ _

theorem clusterSet_moves (a0 s) : Moves [.mem, .regs, .cnt, .hif, .ddr, .ldg, .out] s (clusterSet a0 s) := by
  unfold clusterSet
  extract_lets v0 v1
  have h200 : Moves [.mem, .regs, .cnt, .hif, .ddr, .ldg, .out] s v1 := by
    refine Moves.seq (fset_moves ..) (by decide) ?_
    exact Moves.refl _ _
  refine Moves.foldl (fun _ y201 => ?_) ?_
  · extract_lets v202 v203 v204 v205
    have h402 : Moves [.mem, .regs, .cnt, .hif, .ddr, .ldg, .out] y201 v203 := by
      refine Moves.seq (fset_moves ..) (by decide) ?_
      exact Moves.refl _ _
    have h403 : Moves [.mem, .regs, .cnt, .hif, .ddr, .ldg, .out] y201 v204 := by
      refine Moves.seq (fset_moves ..) (by decide) ?_
      refine Moves.seq (fset_moves ..) (by decide) ?_
      exact h402
    have h404 : Moves [.mem, .regs, .cnt, .hif, .ddr, .ldg, .out] y201 v205 := by
      refine Moves.seq (fset_moves ..) (by decide) ?_
      exact h403
    refine Moves.ite ?_ ?_
    · refine Moves.ite ?_ ?_
      · refine Moves.seq (faultLog_moves ..) (by decide) ?_
        exact h404
      · exact h402
    · refine Moves.ite ?_ ?_
      · refine Moves.ite ?_ ?_
        · exact Moves.refl _ _
        · refine Moves.seq (fset_moves ..) (by decide) ?_
          exact Moves.refl _ _
      · refine Moves.ite ?_ ?_
        · refine Moves.seq (fset_moves ..) (by decide) ?_
          exact Moves.refl _ _
        · exact Moves.refl _ _
  · exact h200

theorem unitsSet_moves (s) : Moves [.mem, .regs, .cnt, .hif, .vid, .ddr, .ldg, .out] s (unitsSet s) := by
  unfold unitsSet
  extract_lets v0
  have h200 : Moves [.mem, .regs, .cnt, .hif, .vid, .ddr, .ldg, .out] s v0 := by
    refine Moves.foldl (fun _ y201 => ?_) ?_
    · refine Moves.seq (bayTilesSet_moves ..) (by decide) ?_
      exact Moves.refl _ _
    · exact Moves.refl _ _
  refine Moves.foldl (fun _ y202 => ?_) ?_
  · refine Moves.seq (clusterSet_moves ..) (by decide) ?_
    exact Moves.refl _ _
  · exact h200

theorem steerAway_moves (s) : Moves [.frm, .free] s (steerAway s) := by
  unfold steerAway
  extract_lets v0
  refine Moves.ite ?_ ?_
  · exact Moves.refl _ _
  · refine Moves.foldl (fun _ y200 => ?_) ?_
    · refine Moves.ite ?_ ?_
      · exact Moves.refl _ _
      · extract_lets v201 v202 v203 v204
        have h401 : Moves [.frm, .free] y200 v203 := by
          unfold v203
          refine Moves.seq (takeFree_moves ..) (by decide) ?_
          exact Moves.refl _ _
        refine Moves.frm_with (by decide) ?_
        exact h401
    · exact Moves.refl _ _

theorem marqueeApply_moves (a0 s) : Moves [.mem, .regs, .cnt, .hif, .frm, .vid, .ddr, .out] s (marqueeApply a0 s) := by
  unfold marqueeApply
  extract_lets v0 v1 v2 v3 v4
  have h200 : Moves [.mem, .regs, .cnt, .hif, .frm, .vid, .ddr, .out] s v3 := by
    refine Moves.seq (raise_moves ..) (by decide) ?_
    exact Moves.refl _ _
  have h201 : Moves [.mem, .regs, .cnt, .hif, .frm, .vid, .ddr, .out] s v4 := by
    refine Moves.foldl (fun _ y202 => ?_) ?_
    · refine Moves.seq (evqPush_moves ..) (by decide) ?_
      exact Moves.refl _ _
    · exact h200
  refine Moves.ite ?_ ?_
  · exact Moves.refl _ _
  · refine Moves.foldl (fun _ y203 => ?_) ?_
    · split
      · refine Moves.seq (safeKeep_moves ..) (by decide) ?_
        exact Moves.refl _ _
      · exact Moves.refl _ _
    · exact h201

theorem crslSync_moves (s) : Moves [.mem, .regs, .cnt, .hif, .crsl, .ddr, .out] s (crslSync s) := by
  unfold crslSync
  extract_lets v0
  have h200 : Moves [.mem, .regs, .cnt, .hif, .crsl, .ddr, .out] s v0 := by
    refine Moves.seq (fset_moves ..) (by decide) ?_
    refine Moves.seq (readySizes_moves ..) (by decide) ?_
    exact Moves.refl _ _
  refine Moves.foldl (fun _ y201 => ?_) ?_
  · refine Moves.seq (fset_moves ..) (by decide) ?_
    exact Moves.refl _ _
  · exact h200

theorem configApply_moves (a0 s) : Moves [.mem, .regs, .cnt, .hif, .frm, .vid, .crsl, .ddr, .ldg, .out, .free] s (configApply a0 s) := by
  unfold configApply
  extract_lets v0 v1 v2 v3 v4 v5 v6 v7
  have h200 : Moves [.mem, .regs, .cnt, .hif, .frm, .vid, .crsl, .ddr, .ldg, .out, .free] s v2 := by
    refine Moves.frm_with (by decide) ?_
    exact Moves.refl _ _
  have h201 : Moves [.mem, .regs, .cnt, .hif, .frm, .vid, .crsl, .ddr, .ldg, .out, .free] s v3 := by
    refine Moves.foldl (fun _ y202 => ?_) ?_
    · refine Moves.seq (fset_moves ..) (by decide) ?_
      exact Moves.refl _ _
    · exact h200
  have h203 : Moves [.mem, .regs, .cnt, .hif, .frm, .vid, .crsl, .ddr, .ldg, .out, .free] s v4 := by
    refine Moves.seq (crslSync_moves ..) (by decide) ?_
    refine Moves.seq (evqSizes_moves ..) (by decide) ?_
    exact h201
  have h204 : Moves [.mem, .regs, .cnt, .hif, .frm, .vid, .crsl, .ddr, .ldg, .out, .free] s v5 := by
    refine Moves.seq (unitsSet_moves ..) (by decide) ?_
    exact h203
  have h205 : Moves [.mem, .regs, .cnt, .hif, .frm, .vid, .crsl, .ddr, .ldg, .out, .free] s v7 := by
    refine Moves.ite ?_ ?_
    · exact h203
    · refine Moves.seq (steerAway_moves ..) (by decide) ?_
      refine Moves.frm_with (by decide) ?_
      exact h204
  refine Moves.seq (marqueeApply_moves ..) (by decide) ?_
  exact h205

theorem fullApply_moves (a0 a1 s) : Moves [.mem, .regs, .cnt, .hif, .frm, .vid, .crsl, .ddr, .ldg, .out, .free] s (fullApply a0 a1 s) := by
  unfold fullApply
  extract_lets v0 v1 v2 v3 v4 v5 v6 v7 v8
  have h200 : Moves [.mem, .regs, .cnt, .hif, .frm, .vid, .crsl, .ddr, .ldg, .out, .free] s v0 := by
    refine Moves.seq (fset_moves ..) (by decide) ?_
    refine Moves.seq (fset_moves ..) (by decide) ?_
    exact Moves.refl _ _
  have h201 : Moves [.mem, .regs, .cnt, .hif, .frm, .vid, .crsl, .ddr, .ldg, .out, .free] s v1 := by
    refine Moves.seq (fset_moves ..) (by decide) ?_
    exact h200
  have h202 : Moves [.mem, .regs, .cnt, .hif, .frm, .vid, .crsl, .ddr, .ldg, .out, .free] s v3 := by
    refine Moves.foldl (fun _ y203 => ?_) ?_
    · refine Moves.seq (fset_moves ..) (by decide) ?_
      exact Moves.refl _ _
    · exact h201
  have h204 : Moves [.mem, .regs, .cnt, .hif, .frm, .vid, .crsl, .ddr, .ldg, .out, .free] s v4 := by
    refine Moves.foldl (fun _ y205 => ?_) ?_
    · refine Moves.seq (rollbackPut_moves ..) (by decide) ?_
      refine Moves.seq (generationPut_moves ..) (by decide) ?_
      exact Moves.refl _ _
    · exact h202
  have h206 : Moves [.mem, .regs, .cnt, .hif, .frm, .vid, .crsl, .ddr, .ldg, .out, .free] s v6 := by
    refine Moves.frm_with (by decide) ?_
    exact h204
  have h207 : Moves [.mem, .regs, .cnt, .hif, .frm, .vid, .crsl, .ddr, .ldg, .out, .free] s v7 := by
    refine Moves.seq (hdrWrite_moves ..) (by decide) ?_
    exact h206
  have h208 : Moves [.mem, .regs, .cnt, .hif, .frm, .vid, .crsl, .ddr, .ldg, .out, .free] s v8 := by
    refine Moves.foldl (fun _ y209 => ?_) ?_
    · refine Moves.ite ?_ ?_
      · refine Moves.seq (fset_moves ..) (by decide) ?_
        exact Moves.refl _ _
      · exact Moves.refl _ _
    · exact h207
  refine Moves.seq (configApply_moves ..) (by decide) ?_
  exact h208

theorem frmPut_moves (a0 a1 a2 s) : Moves [.frm] s (frmPut a0 a1 a2 s) := by
  unfold frmPut
  refine Moves.frm_with (by decide) ?_
  exact Moves.refl _ _

theorem frmDrop_moves (a0 a1 s) : Moves [.regs, .frm, .key] s (frmDrop a0 a1 s) := by
  unfold frmDrop
  extract_lets v0 v1 v2
  have h200 : Moves [.regs, .frm, .key] s v0 := by
    unfold v0
    split
    · refine Moves.ite ?_ ?_
      · refine Moves.seq (fset_moves ..) (by decide) ?_
        exact Moves.refl _ _
      · exact Moves.refl _ _
    · exact Moves.refl _ _
  refine Moves.seq (frmSync_moves ..) (by decide) ?_
  refine Moves.frm_key_with (by decide) (by decide) ?_
  exact h200

theorem frmErr_moves (a0 a1 a2 s) : Moves [.regs] s (frmErr a0 a1 a2 s) := by
  unfold frmErr
  extract_lets v0 v1
  have h200 : Moves [.regs] s v1 := by
    refine Moves.seq (fset_moves ..) (by decide) ?_
    refine Moves.seq (fset_moves ..) (by decide) ?_
    refine Moves.seq (fset_moves ..) (by decide) ?_
    exact Moves.refl _ _
  refine Moves.seq (fset_moves ..) (by decide) ?_
  refine Moves.seq (fset_moves ..) (by decide) ?_
  exact h200

theorem frmFail_moves (a0 a1 a2 a3 s) : Moves [.mem, .regs, .cnt, .hif, .frm, .key, .ddr, .out] s (frmFail a0 a1 a2 a3 s) := by
  unfold frmFail
  split
  · exact Moves.refl _ _
  · extract_lets v0 v1
    have h200 : Moves [.mem, .regs, .cnt, .hif, .frm, .key, .ddr, .out] s v0 := by
      refine Moves.seq (cinc_moves ..) (by decide) ?_
      refine Moves.seq (frmErr_moves ..) (by decide) ?_
      exact Moves.refl _ _
    have h201 : Moves [.mem, .regs, .cnt, .hif, .frm, .key, .ddr, .out] s v1 := by
      refine Moves.seq (raiseTo_moves ..) (by decide) ?_
      exact h200
    refine Moves.seq (lopEnd_moves ..) (by decide) ?_
    refine Moves.seq (frmDrop_moves ..) (by decide) ?_
    exact h201

theorem frmCancel_moves (a0 a1 s) : Moves [.mem, .regs, .cnt, .hif, .frm, .key, .ddr, .out] s (frmCancel a0 a1 s) := by
  unfold frmCancel
  refine Moves.seq (lopEnd_moves ..) (by decide) ?_
  refine Moves.seq (frmDrop_moves ..) (by decide) ?_
  refine Moves.seq (cinc_moves ..) (by decide) ?_
  exact Moves.refl _ _

theorem frmDone_moves (a0 a1 a2 a3 a4 s) : Moves [.mem, .regs, .cnt, .hif, .frm, .key, .ddr, .out] s (frmDone a0 a1 a2 a3 a4 s) := by
  unfold frmDone
  split
  · exact Moves.refl _ _
  · extract_lets v0 v1 v2 v3 v4
    have h200 : Moves [.mem, .regs, .cnt, .hif, .frm, .key, .ddr, .out] s v1 := by
      refine Moves.seq (cinc_moves ..) (by decide) ?_
      refine Moves.seq (fset_moves ..) (by decide) ?_
      exact Moves.refl _ _
    have h201 : Moves [.mem, .regs, .cnt, .hif, .frm, .key, .ddr, .out] s v2 := by
      refine Moves.ite ?_ ?_
      · refine Moves.seq (cadd_moves ..) (by decide) ?_
        refine Moves.seq (cinc_moves ..) (by decide) ?_
        exact h200
      · exact h200
    have h202 : Moves [.mem, .regs, .cnt, .hif, .frm, .key, .ddr, .out] s v4 := by
      refine Moves.seq (raiseTo_moves ..) (by decide) ?_
      exact h201
    refine Moves.seq (lopEnd_moves ..) (by decide) ?_
    refine Moves.seq (frmDrop_moves ..) (by decide) ?_
    exact h202

theorem lopSafe_moves {ps : List Part} {s x : State} {fn : Fn} {tag : Nat} {cancel : State → State}
    (hf : ∀ y, Moves ps y (cancel y)) (hm : ∀ p ∈ [.mem, .regs, .cnt, .hif, .ddr, .out], p ∈ ps) (b : Moves ps s x) :
    Moves ps s (lopSafe fn tag cancel x) := by
  unfold lopSafe
  split
  · exact b
  · split
    · exact Moves.seq (lopMove_moves ..) hm b
    · exact b.trans (hf x)
    · exact b

theorem frmSafe_moves (a0 a1 s) : Moves [.mem, .regs, .cnt, .hif, .frm, .key, .ddr, .out] s (frmSafe a0 a1 s) := by
  unfold frmSafe
  refine lopSafe_moves (fun y0 => ?_) (by decide) ?_
  · refine Moves.seq (frmCancel_moves ..) (by decide) ?_
    exact Moves.refl _ _
  · exact Moves.refl _ _

theorem readAhead_moves (a0 a1 a2 s) : Moves [.mem, .regs, .cnt, .hif, .frm, .key, .ddr, .out] s (readAhead a0 a1 a2 s) := by
  unfold readAhead
  refine Moves.ite ?_ ?_
  · refine Moves.seq (frmFail_moves ..) (by decide) ?_
    exact Moves.refl _ _
  · extract_lets v0 v1 v2 v3
    have h200 : Moves [.mem, .regs, .cnt, .hif, .frm, .key, .ddr, .out] s v2 := by
      refine Moves.seq (frmPut_moves ..) (by decide) ?_
      exact Moves.refl _ _
    refine Moves.ite ?_ ?_
    · refine Moves.seq (frmFail_moves ..) (by decide) ?_
      exact Moves.refl _ _
    · refine Moves.ite ?_ ?_
      · refine Moves.seq (frmFail_moves ..) (by decide) ?_
        exact h200
      · refine Moves.ite ?_ ?_
        · refine Moves.seq (frmFail_moves ..) (by decide) ?_
          exact h200
        · exact h200

theorem imageBegin_moves (a0 a1 s) : Moves [.mem, .regs, .cnt, .hif, .frm, .key, .ddr, .out] s (imageBegin a0 a1 s) := by
  unfold imageBegin
  extract_lets v0
  refine Moves.seq (readAhead_moves ..) (by decide) ?_
  refine Moves.seq (frmPut_moves ..) (by decide) ?_
  exact Moves.refl _ _

theorem rollBegin_moves (a0 s) : Moves [.mem, .regs, .cnt, .hif, .frm, .key, .ddr, .out] s (rollBegin a0 s) := by
  unfold rollBegin
  extract_lets v0 v1 v2
  have h200 : Moves [.mem, .regs, .cnt, .hif, .frm, .key, .ddr, .out] s v2 := by
    refine Moves.seq (frmPut_moves ..) (by decide) ?_
    exact Moves.refl _ _
  refine Moves.ite ?_ ?_
  · exact h200
  · refine Moves.seq (frmFail_moves ..) (by decide) ?_
    exact h200

theorem frmDequeue_moves (a0 a1 s) : Moves [.regs, .hif] s (frmDequeue a0 a1 s) := by
  unfold frmDequeue
  split
  · refine Moves.ite ?_ ?_
    · extract_lets v0
      have h200 : Moves [.regs, .hif] s v0 := by
        refine Moves.seq (lopBegin_moves ..) (by decide) ?_
        exact Moves.refl _ _
      refine Moves.ite ?_ ?_
      · refine Moves.seq (fset_moves ..) (by decide) ?_
        exact h200
      · exact h200
    · exact Moves.refl _ _
  · exact Moves.refl _ _

theorem frmFetch_moves (a0 a1 s) : Moves [.mem, .regs, .cnt, .hif, .frm, .key, .ddr, .out] s (frmFetch a0 a1 s) := by
  unfold frmFetch
  split
  · exact Moves.refl _ _
  · extract_lets v0 v1 v2
    refine Moves.ite ?_ ?_
    · exact Moves.refl _ _
    · refine Moves.ite ?_ ?_
      · refine Moves.seq (frmFail_moves ..) (by decide) ?_
        exact Moves.refl _ _
      · refine Moves.seq (frmSafe_moves ..) (by decide) ?_
        refine Moves.seq (frmPut_moves ..) (by decide) ?_
        exact Moves.refl _ _

theorem frmSign_moves (a0 a1 s) : Moves [.mem, .regs, .cnt, .hif, .frm, .key, .ddr, .out] s (frmSign a0 a1 s) := by
  unfold frmSign
  split
  · exact Moves.refl _ _
  · split
    · refine Moves.seq (frmFail_moves ..) (by decide) ?_
      exact Moves.refl _ _
    · extract_lets v0 v1
      have h200 : Moves [.mem, .regs, .cnt, .hif, .frm, .key, .ddr, .out] s v1 := by
        refine Moves.key_with (by decide) ?_
        exact Moves.refl _ _
      refine Moves.seq (frmSafe_moves ..) (by decide) ?_
      refine Moves.seq (frmPut_moves ..) (by decide) ?_
      exact h200

theorem frmPass1_moves (a0 a1 s) : Moves [.mem, .regs, .cnt, .hif, .frm, .key, .ddr, .out] s (frmPass1 a0 a1 s) := by
  unfold frmPass1
  split
  · exact Moves.refl _ _
  · split
    · exact Moves.refl _ _
    · extract_lets v0 v1
      have h200 : Moves [.mem, .regs, .cnt, .hif, .frm, .key, .ddr, .out] s v0 := by
        refine Moves.seq (verifyOnly_moves ..) (by decide) ?_
        exact Moves.refl _ _
      refine Moves.ite ?_ ?_
      · refine Moves.seq (frmFail_moves ..) (by decide) ?_
        exact h200
      · refine Moves.seq (frmSafe_moves ..) (by decide) ?_
        refine Moves.seq (frmPut_moves ..) (by decide) ?_
        exact h200

theorem frmPass2_moves (a0 a1 a2 s) : Moves [.mem, .regs, .cnt, .hif, .frm, .key, .ddr, .out] s (frmPass2 a0 a1 a2 s) := by
  unfold frmPass2
  split
  · exact Moves.refl _ _
  · split
    · exact Moves.refl _ _
    · refine Moves.ite ?_ ?_
      · refine Moves.seq (frmFail_moves ..) (by decide) ?_
        exact Moves.refl _ _
      · extract_lets v0
        refine Moves.seq (frmSafe_moves ..) (by decide) ?_
        refine Moves.seq (frmPut_moves ..) (by decide) ?_
        exact Moves.refl _ _

theorem frmArm_moves (a0 a1 a2 s) : Moves [.mem, .regs, .cnt, .hif, .frm, .key, .ddr, .out] s (frmArm a0 a1 a2 s) := by
  unfold frmArm
  extract_lets v0 v1
  refine Moves.ite ?_ ?_
  · refine Moves.seq (frmFail_moves ..) (by decide) ?_
    exact Moves.refl _ _
  · refine Moves.ite ?_ ?_
    · refine Moves.seq (frmFail_moves ..) (by decide) ?_
      exact Moves.refl _ _
    · refine Moves.seq (frmSafe_moves ..) (by decide) ?_
      refine Moves.seq (frmSync_moves ..) (by decide) ?_
      refine Moves.seq (frmPut_moves ..) (by decide) ?_
      exact Moves.refl _ _

theorem frmCheckDone_moves (a0 a1 s) : Moves [.mem, .regs, .cnt, .hif, .frm, .key, .vid, .crsl, .ddr, .ldg, .out, .free] s (frmCheckDone a0 a1 s) := by
  unfold frmCheckDone
  split
  · exact Moves.refl _ _
  · refine Moves.ite ?_ ?_
    · split
      · refine Moves.seq (frmFail_moves ..) (by decide) ?_
        exact Moves.refl _ _
      · refine Moves.ite ?_ ?_
        · refine Moves.seq (frmArm_moves ..) (by decide) ?_
          exact Moves.refl _ _
        · refine Moves.seq (frmFail_moves ..) (by decide) ?_
          exact Moves.refl _ _
    · split
      · refine Moves.seq (frmFail_moves ..) (by decide) ?_
        exact Moves.refl _ _
      · refine Moves.ite ?_ ?_
        · refine Moves.ite ?_ ?_
          · refine Moves.seq (frmSafe_moves ..) (by decide) ?_
            exact Moves.refl _ _
          · extract_lets v0
            have h200 : Moves [.mem, .regs, .cnt, .hif, .frm, .key, .vid, .crsl, .ddr, .ldg, .out, .free] s v0 := by
              refine Moves.seq (fset_moves ..) (by decide) ?_
              refine Moves.seq (fullApply_moves ..) (by decide) ?_
              exact Moves.refl _ _
            refine Moves.seq (frmDone_moves ..) (by decide) ?_
            exact h200
        · refine Moves.seq (frmArm_moves ..) (by decide) ?_
          exact Moves.refl _ _

theorem pastKeep_moves (a0 s) : Moves [.frm] s (pastKeep a0 s) := by
  unfold pastKeep
  refine Moves.frm_with (by decide) ?_
  exact Moves.refl _ _

theorem frmActivate_moves (a0 a1 a2 a3 s) : Moves [.mem, .regs, .cnt, .hif, .frm, .key, .vid, .obs, .crsl, .ddr, .ldg, .out, .free] s (frmActivate a0 a1 a2 a3 s) := by
  unfold frmActivate
  extract_lets v0 v1 v2 v3 v4 v5 v6
  have h200 : Moves [.mem, .regs, .cnt, .hif, .frm, .key, .vid, .obs, .crsl, .ddr, .ldg, .out, .free] s v3 := by
    refine Moves.seq (pastKeep_moves ..) (by decide) ?_
    exact Moves.refl _ _
  have h201 : Moves [.mem, .regs, .cnt, .hif, .frm, .key, .vid, .obs, .crsl, .ddr, .ldg, .out, .free] s v5 := by
    refine Moves.seq (rollbackPut_moves ..) (by decide) ?_
    refine Moves.frm_with (by decide) ?_
    exact h200
  have h202 : Moves [.mem, .regs, .cnt, .hif, .frm, .key, .vid, .obs, .crsl, .ddr, .ldg, .out, .free] s v6 := by
    refine Moves.ite ?_ ?_
    · refine Moves.seq (rollbackPut_moves ..) (by decide) ?_
      refine Moves.frm_with (by decide) ?_
      exact h200
    · refine Moves.ite ?_ ?_
      · refine Moves.foldl (fun _ y203 => ?_) ?_
        · refine Moves.seq (rollbackPut_moves ..) (by decide) ?_
          refine Moves.seq (generationPut_moves ..) (by decide) ?_
          exact Moves.refl _ _
        · exact h201
      · exact h201
  unfold v1
  split
  · refine Moves.seq (frmFail_moves ..) (by decide) ?_
    exact Moves.refl _ _
  · refine Moves.ite ?_ ?_
    · refine Moves.seq (frmFail_moves ..) (by decide) ?_
      exact Moves.refl _ _
    · refine Moves.ite ?_ ?_
      · refine Moves.seq (frmFail_moves ..) (by decide) ?_
        exact Moves.refl _ _
      · extract_lets v204 v205
        have h404 : Moves [.mem, .regs, .cnt, .hif, .frm, .key, .vid, .obs, .crsl, .ddr, .ldg, .out, .free] s v204 := by
          refine Moves.seq (generationPut_moves ..) (by decide) ?_
          refine Moves.seq (configApply_moves ..) (by decide) ?_
          exact h202
        have h405 : Moves [.mem, .regs, .cnt, .hif, .frm, .key, .vid, .obs, .crsl, .ddr, .ldg, .out, .free] s v205 := by
          refine Moves.seq (traceConfig_moves ..) (by decide) ?_
          exact h404
        refine Moves.seq (frmDone_moves ..) (by decide) ?_
        exact h405

theorem frmBoundary_moves (a0 s) : Moves [.mem, .regs, .cnt, .hif, .frm, .key, .vid, .obs, .crsl, .ddr, .ldg, .out, .free] s (frmBoundary a0 s) := by
  unfold frmBoundary
  extract_lets v0
  have h200 : Moves [.mem, .regs, .cnt, .hif, .frm, .key, .vid, .obs, .crsl, .ddr, .ldg, .out, .free] s v0 := by
    refine Moves.foldl (fun _ y201 => ?_) ?_
    · split
      · refine Moves.seq (frmSafe_moves ..) (by decide) ?_
        exact Moves.refl _ _
      · exact Moves.refl _ _
    · exact Moves.refl _ _
  refine Moves.foldl (fun _ y202 => ?_) ?_
  · split
    · refine Moves.ite ?_ ?_
      · refine Moves.seq (frmActivate_moves ..) (by decide) ?_
        exact Moves.refl _ _
      · exact Moves.refl _ _
    · exact Moves.refl _ _
  · exact h200

theorem execFramingDequeue_runs (a0 a1 s) : Runs [.regs, .hif] s (execFramingDequeue a0 a1 s) := by
  unfold execFramingDequeue
  refine Runs.next ?_
  refine Moves.seq (frmDequeue_moves ..) (by decide) ?_
  exact Moves.refl _ _

theorem execFramingFetchChunk_runs (a0 a1 s) : Runs [.mem, .regs, .cnt, .hif, .frm, .key, .ddr, .out] s (execFramingFetchChunk a0 a1 s) := by
  unfold execFramingFetchChunk
  refine Runs.next ?_
  refine Moves.seq (frmFetch_moves ..) (by decide) ?_
  exact Moves.refl _ _

theorem execFramingSignDone_runs (a0 a1 s) : Runs [.mem, .regs, .cnt, .hif, .frm, .key, .ddr, .out] s (execFramingSignDone a0 a1 s) := by
  unfold execFramingSignDone
  refine Runs.next ?_
  refine Moves.seq (frmSign_moves ..) (by decide) ?_
  exact Moves.refl _ _

theorem execFramingPass1Timber_runs (a0 a1 s) : Runs [.mem, .regs, .cnt, .hif, .frm, .key, .ddr, .out] s (execFramingPass1Timber a0 a1 s) := by
  unfold execFramingPass1Timber
  refine Runs.next ?_
  refine Moves.seq (frmPass1_moves ..) (by decide) ?_
  exact Moves.refl _ _

theorem execFramingPass2Timber_runs (a0 a1 s) : Runs [.mem, .regs, .cnt, .hif, .frm, .key, .ddr, .out] s (execFramingPass2Timber a0 a1 s) := by
  unfold execFramingPass2Timber
  refine Runs.next ?_
  refine Moves.seq (frmPass2_moves ..) (by decide) ?_
  exact Moves.refl _ _

theorem execFramingCheckDone_runs (a0 a1 s) : Runs [.mem, .regs, .cnt, .hif, .frm, .key, .vid, .crsl, .ddr, .ldg, .out, .free] s (execFramingCheckDone a0 a1 s) := by
  unfold execFramingCheckDone
  refine Runs.next ?_
  refine Moves.seq (frmCheckDone_moves ..) (by decide) ?_
  exact Moves.refl _ _

theorem execFrmSignerRevoke_runs (a0 s) : Runs [.regs, .cnt] s (execFrmSignerRevoke a0 s) := by
  unfold execFrmSignerRevoke
  extract_lets v0 v1 v2
  refine Runs.next ?_
  refine Moves.ite ?_ ?_
  · exact Moves.refl _ _
  · refine Moves.ite ?_ ?_
    · refine Moves.seq (cinc_moves ..) (by decide) ?_
      exact Moves.refl _ _
    · refine Moves.seq (fset_moves ..) (by decide) ?_
      exact Moves.refl _ _

end Sys2Proof.Machine
end

