-- ==== Sys2Proof/Laws/ChExport.lean ====
section
/-! SUPPORT. What each operation of Machine/Export.lean may change: one lemma for each, which says every part of State that it
can alter, and that it keeps the invariant. -/

set_option Elab.async false

namespace Sys2Proof.Machine

theorem expEnd_moves (a0 a1 a2 a3 a4 a5 s) : Moves [.mem, .regs, .cnt, .hif, .egr, .ddr, .out] s (expEnd a0 a1 a2 a3 a4 a5 s) := by
  unfold expEnd
  refine Moves.seq (lopEnd_moves ..) (by decide) ?_
  refine Moves.egr_with (by decide) ?_
  exact Moves.refl _ _

theorem expPut_moves (a0 a1 a2 s) : Moves [.egr] s (expPut a0 a1 a2 s) := by
  unfold expPut
  refine Moves.egr_with (by decide) ?_
  exact Moves.refl _ _

theorem expRun_moves (fuel fn tag c part e s) : Moves [.mem, .regs, .cnt, .hif, .egr, .ddr, .out] s (expRun fuel fn tag c part e s) := by
  have he : ∀ st code r e s, Moves [.mem, .regs, .cnt, .hif, .egr, .ddr, .out] s (expEnd fn tag st code r e s) := fun _ _ _ _ _ => (expEnd_moves ..).mono (by decide)
  have hp : ∀ e s, Moves [.mem, .regs, .cnt, .hif, .egr, .ddr, .out] s (expPut fn tag e s) := fun _ _ => (expPut_moves ..).mono (by decide)
  induction fuel generalizing s part e with
  | zero => exact hp ..
  | succ f ih =>
    unfold expRun
    split
    · exact he ..
    · split
      · exact he ..
      · split
        · exact he ..
        · extract_lets x a e' t
          have ht : Moves [.mem, .regs, .cnt, .hif, .egr, .ddr, .out] s t := (hostWrite_moves ..).mono (by decide)
          refine Moves.ite (he ..) (Moves.ite (hp ..) (Moves.ite (he ..) (Moves.ite ?_ (ht.trans (ih ..)))))
          exact lopSafe_moves (fun _ => he ..) (by decide) (ht.trans (hp ..))

theorem expChunk_moves (a0 a1 s) : Moves [.mem, .regs, .cnt, .hif, .egr, .ddr, .out] s (expChunk a0 a1 s) := by
  unfold expChunk
  split
  · exact Moves.refl _ _
  · refine Moves.ite ?_ ?_
    · exact Moves.refl _ _
    · extract_lets v0
      have h200 : Moves [.mem, .regs, .cnt, .hif, .egr, .ddr, .out] s v0 := by
        refine Moves.seq (lopBegin_moves ..) (by decide) ?_
        exact Moves.refl _ _
      refine Moves.ite ?_ ?_
      · exact h200
      · split
        · refine Moves.seq (expRun_moves ..) (by decide) ?_
          exact h200
        · split
          · refine Moves.seq (expEnd_moves ..) (by decide) ?_
            exact h200
          · split
            · refine Moves.seq (expEnd_moves ..) (by decide) ?_
              exact h200
            · refine Moves.seq (expRun_moves ..) (by decide) ?_
              exact h200

theorem execRewindExportChunk_runs (a0 a1 s) : Runs [.mem, .regs, .cnt, .hif, .egr, .ddr, .out] s (execRewindExportChunk a0 a1 s) := by
  unfold execRewindExportChunk
  refine Runs.next ?_
  refine Moves.seq (expChunk_moves ..) (by decide) ?_
  exact Moves.refl _ _

theorem expCancel_moves (a0 a1 s) : Moves [.mem, .regs, .cnt, .hif, .egr, .ddr, .out] s (expCancel a0 a1 s) := by
  unfold expCancel
  refine Moves.seq (expEnd_moves ..) (by decide) ?_
  exact Moves.refl _ _

end Sys2Proof.Machine
end

