-- ==== Sys2Proof/Laws/ChTmbOps.lean ====
section
/-! SUPPORT. What each operation of Machine/TmbOps.lean may change: one lemma for each, which says every part of State that it
can alter, and that it keeps the invariant. -/

set_option Elab.async false

namespace Sys2Proof.Machine

theorem itemRun_moves (a0 a1 a2 s) : Moves [.regs, .cnt, .crsl] s (itemRun a0 a1 a2 s) := by
  unfold itemRun
  extract_lets v0 v1 v2 v3 v4 v5 v6
  have h200 : Moves [.regs, .cnt, .crsl] s v2 := by
    refine Moves.ite ?_ ?_
    · refine Moves.seq (cinc_moves ..) (by decide) ?_
      exact Moves.refl _ _
    · exact Moves.refl _ _
  have h201 : Moves [.regs, .cnt, .crsl] s v4 := by
    refine Moves.seq (corePut_moves ..) (by decide) ?_
    exact h200
  have h202 : Moves [.regs, .cnt, .crsl] s v5 := by
    refine Moves.seq (itemPut_moves ..) (by decide) ?_
    exact h201
  have h203 : Moves [.regs, .cnt, .crsl] s v6 := by
    refine Moves.seq (fset_moves ..) (by decide) ?_
    exact h202
  refine Moves.ite ?_ ?_
  · refine Moves.seq (coreStPut_moves ..) (by decide) ?_
    exact h203
  · exact h203

theorem startPre_moves (a0 s) : Moves [.regs, .cnt, .crsl] s (startPre a0 s) := by
  unfold startPre
  extract_lets v0
  split
  · split
    · refine Moves.seq (itemRun_moves ..) (by decide) ?_
      exact Moves.refl _ _
    · refine Moves.seq (corePut_moves ..) (by decide) ?_
      exact Moves.refl _ _
  · exact Moves.refl _ _

theorem preReturn_moves (a0 s) : Moves [.mem, .regs, .cnt, .hif, .crsl, .ddr, .out] s (preReturn a0 s) := by
  unfold preReturn
  extract_lets v0 v1
  have h200 : Moves [.mem, .regs, .cnt, .hif, .crsl, .ddr, .out] s v1 := by
    refine Moves.seq (corePut_moves ..) (by decide) ?_
    exact Moves.refl _ _
  split
  · exact Moves.refl _ _
  · split
    · exact h200
    · refine Moves.ite ?_ ?_
      · refine Moves.seq (itemFree_moves ..) (by decide) ?_
        exact h200
      · refine Moves.seq (rqSettle_moves ..) (by decide) ?_
        refine Moves.seq (rqPush_moves ..) (by decide) ?_
        refine Moves.seq (itemPut_moves ..) (by decide) ?_
        exact h200

theorem dutyMove_moves (a0 a1 a2 s) : Moves [.regs] s (dutyMove a0 a1 a2 s) := by
  unfold dutyMove
  refine Moves.seq (fset_moves ..) (by decide) ?_
  refine Moves.seq (coreStPut_moves ..) (by decide) ?_
  refine Moves.seq (coreStPut_moves ..) (by decide) ?_
  exact Moves.refl _ _

theorem coreRelease_moves (a0 a1 s) : Moves [.regs, .crsl] s (coreRelease a0 a1 s) := by
  unfold coreRelease
  extract_lets v0 v1 v2
  have h200 : Moves [.regs, .crsl] s v1 := by
    refine Moves.seq (corePut_moves ..) (by decide) ?_
    exact Moves.refl _ _
  have h201 : Moves [.regs, .crsl] s v2 := by
    refine Moves.seq (fset_moves ..) (by decide) ?_
    exact h200
  refine Moves.ite ?_ ?_
  · refine Moves.seq (coreStPut_moves ..) (by decide) ?_
    exact h201
  · refine Moves.ite ?_ ?_
    · refine Moves.seq (coreStPut_moves ..) (by decide) ?_
      exact h201
    · exact h201

theorem debugLeave_moves (a0 s) : Moves [.mem, .regs, .cnt, .hif, .crsl, .ddr, .out] s (debugLeave a0 s) := by
  unfold debugLeave
  extract_lets v0
  have h200 : Moves [.mem, .regs, .cnt, .hif, .crsl, .ddr, .out] s v0 := by
    unfold v0
    split
    · refine Moves.seq (itemFree_moves ..) (by decide) ?_
      refine Moves.seq (coreRelease_moves ..) (by decide) ?_
      exact Moves.refl _ _
    · exact Moves.refl _ _
  refine Moves.foldl (fun _ y201 => ?_) ?_
  · refine Moves.seq (itemFree_moves ..) (by decide) ?_
    exact Moves.refl _ _
  · refine Moves.seq (preReturn_moves ..) (by decide) ?_
    exact h200

theorem debugReturn_moves (a0 s) : Moves [.mem, .regs, .cnt, .hif, .crsl, .ddr, .out] s (debugReturn a0 s) := by
  unfold debugReturn
  split
  · exact Moves.refl _ _
  · extract_lets v0
    refine Moves.seq (fset_moves ..) (by decide) ?_
    refine Moves.seq (coreStPut_moves ..) (by decide) ?_
    refine Moves.seq (coreStPut_moves ..) (by decide) ?_
    refine Moves.seq (debugLeave_moves ..) (by decide) ?_
    refine Moves.seq (preReturn_moves ..) (by decide) ?_
    exact Moves.refl _ _

theorem debugRefuse_moves (a0 s) : Moves [.mem, .regs, .cnt, .hif, .ddr, .out] s (debugRefuse a0 s) := by
  unfold debugRefuse
  refine Moves.seq (raiseUnit_moves ..) (by decide) ?_
  refine Moves.seq (fset_moves ..) (by decide) ?_
  refine Moves.seq (fset_moves ..) (by decide) ?_
  exact Moves.refl _ _

theorem coreBoundary_moves (a0 s) : Moves [.mem, .regs, .cnt, .hif, .crsl, .ddr, .out] s (coreBoundary a0 s) := by
  unfold coreBoundary
  extract_lets v0 v1
  have h200 : Moves [.mem, .regs, .cnt, .hif, .crsl, .ddr, .out] s v1 := by
    refine Moves.ite ?_ ?_
    · exact Moves.refl _ _
    · refine Moves.ite ?_ ?_
      · split
        · refine Moves.seq (dutyMove_moves ..) (by decide) ?_
          refine Moves.seq (preReturn_moves ..) (by decide) ?_
          exact Moves.refl _ _
        · refine Moves.seq (debugRefuse_moves ..) (by decide) ?_
          exact Moves.refl _ _
      · refine Moves.ite ?_ ?_
        · split
          · refine Moves.seq (spareTakeover_moves ..) (by decide) ?_
            refine Moves.seq (dutyMove_moves ..) (by decide) ?_
            refine Moves.seq (preReturn_moves ..) (by decide) ?_
            exact Moves.refl _ _
          · refine Moves.crsl_with (by decide) ?_
            exact Moves.refl _ _
        · refine Moves.ite ?_ ?_
          · refine Moves.seq (debugReturn_moves ..) (by decide) ?_
            exact Moves.refl _ _
          · exact Moves.refl _ _
  refine Moves.seq (startPre_moves ..) (by decide) ?_
  exact h200

theorem itemDrop_moves (a0 s) : Moves [.mem, .regs, .cnt, .hif, .crsl, .ddr, .out] s (itemDrop a0 s) := by
  unfold itemDrop
  split
  · exact Moves.refl _ _
  · split
    · refine Moves.seq (coreBoundary_moves ..) (by decide) ?_
      refine Moves.seq (itemFree_moves ..) (by decide) ?_
      refine Moves.seq (coreRelease_moves ..) (by decide) ?_
      exact Moves.refl _ _
    · refine Moves.seq (itemFree_moves ..) (by decide) ?_
      refine Moves.seq (corePut_moves ..) (by decide) ?_
      exact Moves.refl _ _
    · refine Moves.seq (itemFree_moves ..) (by decide) ?_
      refine Moves.seq (corePut_moves ..) (by decide) ?_
      exact Moves.refl _ _
    · refine Moves.seq (itemFree_moves ..) (by decide) ?_
      exact Moves.refl _ _

theorem itemMiss_moves (a0 a1 a2 s) : Moves [.mem, .regs, .cnt, .hif, .ctl, .aud, .obs, .crsl, .ddr, .out] s (itemMiss a0 a1 a2 s) := by
  unfold itemMiss
  split
  · exact Moves.refl _ _
  · refine Moves.ite ?_ ?_
    · refine Moves.seq (itemDrop_moves ..) (by decide) ?_
      exact Moves.refl _ _
    · extract_lets v0
      have h200 : Moves [.mem, .regs, .cnt, .hif, .ctl, .aud, .obs, .crsl, .ddr, .out] s v0 := by
        refine Moves.foldl (fun _ y201 => ?_) ?_
        · refine Moves.seq (itemDrop_moves ..) (by decide) ?_
          exact Moves.refl _ _
        · exact Moves.refl _ _
      refine Moves.seq (itemDrop_moves ..) (by decide) ?_
      refine Moves.seq (missNote_moves ..) (by decide) ?_
      exact h200

theorem itemDone_moves (a0 a1 s) : Moves [.mem, .regs, .cnt, .crsl, .ddr] s (itemDone a0 a1 s) := by
  unfold itemDone
  split
  · exact Moves.refl _ _
  · extract_lets v0
    have h200 : Moves [.mem, .regs, .cnt, .crsl, .ddr] s v0 := by
      refine Moves.seq (cinc_moves ..) (by decide) ?_
      exact Moves.refl _ _
    refine Moves.ite ?_ ?_
    · refine Moves.seq (itemFree_moves ..) (by decide) ?_
      exact h200
    · refine Moves.ite ?_ ?_
      · refine Moves.seq (itemPut_moves ..) (by decide) ?_
        exact h200
      · refine Moves.seq (itemCount_moves ..) (by decide) ?_
        exact h200

theorem itemEnd_moves (a0 s) : Moves [.mem, .regs, .cnt, .hif, .crsl, .ddr, .out] s (itemEnd a0 s) := by
  unfold itemEnd
  extract_lets v0
  split
  · exact Moves.refl _ _
  · extract_lets v200 v201 v202 v203 v204 v205
    have h400 : Moves [.mem, .regs, .cnt, .hif, .crsl, .ddr, .out] s v201 := by
      refine Moves.seq (coreRelease_moves ..) (by decide) ?_
      exact Moves.refl _ _
    have h401 : Moves [.mem, .regs, .cnt, .hif, .crsl, .ddr, .out] s v203 := by
      refine Moves.seq (corePut_moves ..) (by decide) ?_
      exact h400
    have h402 : Moves [.mem, .regs, .cnt, .hif, .crsl, .ddr, .out] s v205 := by
      refine Moves.crsl_with (by decide) ?_
      exact h401
    refine Moves.seq (coreBoundary_moves ..) (by decide) ?_
    refine Moves.ite ?_ ?_
    · refine Moves.seq (itemDone_moves ..) (by decide) ?_
      exact h402
    · exact h402

theorem faultShow_moves (a0 a1 a2 a3 s) : Moves [.regs] s (faultShow a0 a1 a2 a3 s) := by
  unfold faultShow
  extract_lets v0
  have h200 : Moves [.regs] s v0 := by
    refine Moves.seq (fset_moves ..) (by decide) ?_
    refine Moves.seq (fset_moves ..) (by decide) ?_
    refine Moves.seq (fset_moves ..) (by decide) ?_
    exact Moves.refl _ _
  refine Moves.seq (fset_moves ..) (by decide) ?_
  exact h200

theorem faultRegs_moves (a0 a1 a2 a3 s) : Moves [.regs, .cnt, .crsl] s (faultRegs a0 a1 a2 a3 s) := by
  unfold faultRegs
  refine Moves.seq (corePut_moves ..) (by decide) ?_
  refine Moves.seq (cinc_moves ..) (by decide) ?_
  refine Moves.seq (faultShow_moves ..) (by decide) ?_
  exact Moves.refl _ _

theorem kernelReport_moves (a0 a1 a2 a3 s) : Moves [.mem, .regs, .cnt, .hif, .ddr, .ldg, .out] s (kernelReport a0 a1 a2 a3 s) := by
  unfold kernelReport
  extract_lets v0 v1
  have h200 : Moves [.mem, .regs, .cnt, .hif, .ddr, .ldg, .out] s v1 := by
    unfold v1
    refine Moves.seq (faultLog_moves ..) (by decide) ?_
    exact Moves.refl _ _
  refine Moves.seq (raise_moves ..) (by decide) ?_
  exact h200

theorem kernelFaultAt_moves (a0 a1 a2 s) : Moves [.mem, .regs, .cnt, .hif, .ctl, .aud, .obs, .crsl, .ddr, .ldg, .out] s (kernelFaultAt a0 a1 a2 s) := by
  unfold kernelFaultAt
  extract_lets v0 v1
  split
  · exact Moves.refl _ _
  · split
    · exact Moves.refl _ _
    · extract_lets v200
      have h400 : Moves [.mem, .regs, .cnt, .hif, .ctl, .aud, .obs, .crsl, .ddr, .ldg, .out] s v200 := by
        refine Moves.seq (kernelReport_moves ..) (by decide) ?_
        refine Moves.seq (faultRegs_moves ..) (by decide) ?_
        exact Moves.refl _ _
      refine Moves.ite ?_ ?_
      · refine Moves.seq (coreBoundary_moves ..) (by decide) ?_
        refine Moves.seq (coreRelease_moves ..) (by decide) ?_
        refine Moves.seq (itemPut_moves ..) (by decide) ?_
        exact h400
      · refine Moves.seq (itemMiss_moves ..) (by decide) ?_
        exact h400

theorem kernelFault_moves (a0 a1 s) : Moves [.mem, .regs, .cnt, .hif, .ctl, .aud, .obs, .crsl, .ddr, .ldg, .out] s (kernelFault a0 a1 s) := by
  unfold kernelFault
  refine Moves.seq (kernelFaultAt_moves ..) (by decide) ?_
  exact Moves.refl _ _

theorem endedFault_moves (a0 a1 a2 a3 s) : Moves [.mem, .regs, .cnt, .hif, .ctl, .aud, .obs, .crsl, .ddr, .ldg, .out] s (endedFault a0 a1 a2 a3 s) := by
  unfold endedFault
  extract_lets v0
  have h200 : Moves [.mem, .regs, .cnt, .hif, .ctl, .aud, .obs, .crsl, .ddr, .ldg, .out] s v0 := by
    refine Moves.seq (kernelReport_moves ..) (by decide) ?_
    refine Moves.seq (cinc_moves ..) (by decide) ?_
    refine Moves.seq (faultShow_moves ..) (by decide) ?_
    exact Moves.refl _ _
  refine Moves.ite ?_ ?_
  · refine Moves.seq (itemPut_moves ..) (by decide) ?_
    exact h200
  · refine Moves.seq (itemMiss_moves ..) (by decide) ?_
    exact h200

theorem itemRerun_moves (a0 s) : Moves [.mem, .regs, .cnt, .hif, .crsl, .ddr, .out] s (itemRerun a0 s) := by
  unfold itemRerun
  split
  · exact Moves.refl _ _
  · refine Moves.ite ?_ ?_
    · refine Moves.seq (itemFree_moves ..) (by decide) ?_
      exact Moves.refl _ _
    · extract_lets v0
      refine Moves.seq (itemQueue_moves ..) (by decide) ?_
      refine Moves.seq (cinc_moves ..) (by decide) ?_
      refine Moves.seq (itemPut_moves ..) (by decide) ?_
      exact Moves.refl _ _

theorem coreRetire_moves (a0 s) : Moves [.mem, .regs, .cnt, .hif, .flt, .crsl, .ddr, .out] s (coreRetire a0 s) := by
  unfold coreRetire
  extract_lets v0 v1 v2 v3
  have h200 : Moves [.mem, .regs, .cnt, .hif, .flt, .crsl, .ddr, .out] s v1 := by
    refine Moves.seq (preReturn_moves ..) (by decide) ?_
    exact Moves.refl _ _
  have h201 : Moves [.mem, .regs, .cnt, .hif, .flt, .crsl, .ddr, .out] s v3 := by
    refine Moves.crsl_with (by decide) ?_
    exact h200
  refine Moves.ite ?_ ?_
  · exact h201
  · refine Moves.ite ?_ ?_
    · unfold v0
      split
      · refine Moves.seq (unitRetire_moves ..) (by decide) ?_
        refine Moves.seq (spareTakeover_moves ..) (by decide) ?_
        refine Moves.seq (dutyMove_moves ..) (by decide) ?_
        exact h201
      · refine Moves.seq (unitRetire_moves ..) (by decide) ?_
        refine Moves.seq (coreStPut_moves ..) (by decide) ?_
        exact h201
    · refine Moves.seq (unitRetire_moves ..) (by decide) ?_
      refine Moves.seq (fset_moves ..) (by decide) ?_
      refine Moves.seq (coreStPut_moves ..) (by decide) ?_
      exact h201

theorem hardwareFault_moves (a0 a1 a2 s) : Moves [.mem, .regs, .cnt, .hif, .flt, .crsl, .ddr, .ldg, .out] s (hardwareFault a0 a1 a2 s) := by
  unfold hardwareFault
  extract_lets v0 v1 v2 v3 v4 v5 v6
  have h200 : Moves [.mem, .regs, .cnt, .hif, .flt, .crsl, .ddr, .ldg, .out] s v4 := by
    unfold v4
    refine Moves.seq (faultDeclare_moves ..) (by decide) ?_
    exact Moves.refl _ _
  have h201 : Moves [.mem, .regs, .cnt, .hif, .flt, .crsl, .ddr, .ldg, .out] s v5 := by
    unfold v5
    unfold v2
    split
    · refine Moves.ite ?_ ?_
      · exact h200
      · refine Moves.seq (faultShow_moves ..) (by decide) ?_
        exact h200
    · refine Moves.ite ?_ ?_
      · exact h200
      · refine Moves.seq (faultRegs_moves ..) (by decide) ?_
        exact h200
  have h202 : Moves [.mem, .regs, .cnt, .hif, .flt, .crsl, .ddr, .ldg, .out] s v6 := by
    refine Moves.ite ?_ ?_
    · exact h201
    · refine Moves.seq (raiseUnit_moves ..) (by decide) ?_
      exact h201
  unfold v2
  split
  · refine Moves.seq (coreRetire_moves ..) (by decide) ?_
    exact h202
  · refine Moves.seq (itemRerun_moves ..) (by decide) ?_
    refine Moves.seq (coreRetire_moves ..) (by decide) ?_
    refine Moves.seq (coreRelease_moves ..) (by decide) ?_
    exact h202

theorem debugEnter_moves (a0 s) : Moves [.mem, .regs, .cnt, .hif, .crsl, .ddr, .out] s (debugEnter a0 s) := by
  unfold debugEnter
  extract_lets v0 v1 v2 v3
  refine Moves.ite ?_ ?_
  · refine Moves.seq (corePut_moves ..) (by decide) ?_
    exact Moves.refl _ _
  · refine Moves.seq (raiseUnit_moves ..) (by decide) ?_
    refine Moves.seq (coreStPut_moves ..) (by decide) ?_
    refine Moves.seq (corePut_moves ..) (by decide) ?_
    exact Moves.refl _ _

theorem coreFault_moves (a0 a1 s) : Moves [.mem, .regs, .cnt, .hif, .ctl, .aud, .flt, .obs, .crsl, .ddr, .ldg, .out] s (coreFault a0 a1 s) := by
  unfold coreFault
  refine Moves.ite ?_ ?_
  · refine Moves.seq (kernelFault_moves ..) (by decide) ?_
    exact Moves.refl _ _
  · refine Moves.seq (hardwareFault_moves ..) (by decide) ?_
    exact Moves.refl _ _

theorem issue_moves {ps : List Part} {s x : State} {c w : Nat} {f : Item → Core → CoreRes} {after : State → State}
    (hf : ∀ y, Moves ps y (after y)) (hm : ∀ p ∈ [.mem, .regs, .cnt, .hif, .ctl, .aud, .flt, .obs, .crsl, .ddr, .ldg, .out], p ∈ ps) (b : Moves ps s x) :
    Moves ps s (issue c w f after x) := by
  have h1 : ∀ y, Moves ps s y → Moves ps s (debugEnter c y) := fun y h =>
    Moves.seq (debugEnter_moves ..) (fun p h => hm p (by revert p; decide)) h
  have h2 : ∀ e y, Moves ps s y → Moves ps s (coreFault c e y) := fun e y h =>
    Moves.seq (coreFault_moves ..) (fun p h => hm p (by revert p; decide)) h
  have h3 : ∀ a y, Moves ps s y → Moves ps s (cinc a y) := fun e y h =>
    Moves.seq (cinc_moves ..) (fun p h => hm p (by revert p; decide)) h
  have h4 : ∀ k y, Moves ps s y → Moves ps s (corePut c k y) := fun e y h =>
    Moves.seq (corePut_moves ..) (fun p h => hm p (by revert p; decide)) h
  have h5 : Moves ps s (kernelFault c cIssueLimit x) :=
    Moves.seq (kernelFault_moves ..) (fun p h => hm p (by revert p; decide)) b
  unfold issue
  split
  · exact b
  · extract_lets k dbg done
    have hd : ∀ k t, Moves ps s (done k t) := by
      intro k t
      unfold done
      extract_lets y
      have hy : Moves ps s y := (h3 _ _ (h4 _ _ b)).trans (hf _)
      exact Moves.ite (h1 _ hy) hy
    refine Moves.ite b (Moves.ite (h1 _ b) (Moves.ite h5 (Moves.ite (h2 _ _ (h3 _ _ b)) ?_)))
    split
    · exact h3 _ _ b
    · exact h2 _ _ (h3 _ _ b)
    · exact hd ..
    · exact Moves.ite (h2 _ _ (h3 _ _ b)) (hd ..)

theorem xferDone_moves (a0 a1 s) : Moves [.mem, .regs, .cnt, .hif, .ctl, .aud, .flt, .obs, .crsl, .ddr, .ldg, .out] s (xferDone a0 a1 s) := by
  unfold xferDone
  extract_lets v0 v1
  have h200 : Moves [.mem, .regs, .cnt, .hif, .ctl, .aud, .flt, .obs, .crsl, .ddr, .ldg, .out] s v1 := by
    refine Moves.seq (corePut_moves ..) (by decide) ?_
    exact Moves.refl _ _
  split
  · exact Moves.refl _ _
  · split
    · exact h200
    · extract_lets v201 v202 v203
      have h401 : Moves [.mem, .regs, .cnt, .hif, .ctl, .aud, .flt, .obs, .crsl, .ddr, .ldg, .out] s v202 := by
        refine Moves.seq (itemPut_moves ..) (by decide) ?_
        exact h200
      refine Moves.ite ?_ ?_
      · refine Moves.ite ?_ ?_
        · refine Moves.seq (corePut_moves ..) (by decide) ?_
          exact h200
        · exact h200
      · split
        · extract_lets v402 v403
          have h602 : Moves [.mem, .regs, .cnt, .hif, .ctl, .aud, .flt, .obs, .crsl, .ddr, .ldg, .out] s v402 := by
            refine Moves.seq (isolationBlock_moves ..) (by decide) ?_
            exact h200
          have h603 : Moves [.mem, .regs, .cnt, .hif, .ctl, .aud, .flt, .obs, .crsl, .ddr, .ldg, .out] s v403 := by
            refine Moves.ite ?_ ?_
            · refine Moves.seq (corePut_moves ..) (by decide) ?_
              exact h602
            · exact h602
          refine Moves.ite ?_ ?_
          · refine Moves.seq (kernelFaultAt_moves ..) (by decide) ?_
            exact h603
          · refine Moves.seq (endedFault_moves ..) (by decide) ?_
            exact h602
        · refine Moves.ite ?_ ?_
          · refine Moves.ite ?_ ?_
            · exact h200
            · refine Moves.ite ?_ ?_
              · refine Moves.seq (hardwareFault_moves ..) (by decide) ?_
                exact h200
              · refine Moves.seq (corePut_moves ..) (by decide) ?_
                exact h200
          · refine Moves.ite ?_ ?_
            · refine Moves.seq (itemDone_moves ..) (by decide) ?_
              exact h401
            · exact h401

end Sys2Proof.Machine
end

