-- ==== Sys2Proof/Laws/ChTmbRows.lean ====
section
/-! SUPPORT. What each operation of Machine/TmbRows.lean may change: one lemma for each, which says every part of State that it
can alter, and that it keeps the invariant. -/

set_option Elab.async false

namespace Sys2Proof.Machine

theorem issueOp_runs (a0 a1 a2 s) : Runs [.mem, .regs, .cnt, .hif, .ctl, .aud, .flt, .obs, .crsl, .ddr, .ldg, .out] s (issueOp a0 a1 a2 s) := by
  unfold issueOp
  refine Runs.next ?_
  refine issue_moves (fun y0 => ?_) (by decide) ?_
  · unfold id
    exact Moves.refl _ _
  · exact Moves.refl _ _

theorem execTmbNop_runs (a0 s) : Runs [.mem, .regs, .cnt, .hif, .ctl, .aud, .flt, .obs, .crsl, .ddr, .ldg, .out] s (execTmbNop a0 s) := by
  unfold execTmbNop
  refine Runs.seq (issueOp_runs ..) (by decide) ?_
  exact Moves.refl _ _

theorem execTmbAdd_runs (a0 a1 a2 a3 a4 s) : Runs [.mem, .regs, .cnt, .hif, .ctl, .aud, .flt, .obs, .crsl, .ddr, .ldg, .out] s (execTmbAdd a0 a1 a2 a3 a4 s) := by
  unfold execTmbAdd
  refine Runs.seq (issueOp_runs ..) (by decide) ?_
  exact Moves.refl _ _

theorem execTmbSub_runs (a0 a1 a2 a3 a4 s) : Runs [.mem, .regs, .cnt, .hif, .ctl, .aud, .flt, .obs, .crsl, .ddr, .ldg, .out] s (execTmbSub a0 a1 a2 a3 a4 s) := by
  unfold execTmbSub
  refine Runs.seq (issueOp_runs ..) (by decide) ?_
  exact Moves.refl _ _

theorem execTmbAnd_runs (a0 a1 a2 a3 s) : Runs [.mem, .regs, .cnt, .hif, .ctl, .aud, .flt, .obs, .crsl, .ddr, .ldg, .out] s (execTmbAnd a0 a1 a2 a3 s) := by
  unfold execTmbAnd
  refine Runs.seq (issueOp_runs ..) (by decide) ?_
  exact Moves.refl _ _

theorem execTmbOr_runs (a0 a1 a2 a3 s) : Runs [.mem, .regs, .cnt, .hif, .ctl, .aud, .flt, .obs, .crsl, .ddr, .ldg, .out] s (execTmbOr a0 a1 a2 a3 s) := by
  unfold execTmbOr
  refine Runs.seq (issueOp_runs ..) (by decide) ?_
  exact Moves.refl _ _

theorem execTmbXor_runs (a0 a1 a2 a3 s) : Runs [.mem, .regs, .cnt, .hif, .ctl, .aud, .flt, .obs, .crsl, .ddr, .ldg, .out] s (execTmbXor a0 a1 a2 a3 s) := by
  unfold execTmbXor
  refine Runs.seq (issueOp_runs ..) (by decide) ?_
  exact Moves.refl _ _

theorem execTmbShl_runs (a0 a1 a2 a3 a4 s) : Runs [.mem, .regs, .cnt, .hif, .ctl, .aud, .flt, .obs, .crsl, .ddr, .ldg, .out] s (execTmbShl a0 a1 a2 a3 a4 s) := by
  unfold execTmbShl
  refine Runs.seq (issueOp_runs ..) (by decide) ?_
  exact Moves.refl _ _

theorem execTmbShr_runs (a0 a1 a2 a3 s) : Runs [.mem, .regs, .cnt, .hif, .ctl, .aud, .flt, .obs, .crsl, .ddr, .ldg, .out] s (execTmbShr a0 a1 a2 a3 s) := by
  unfold execTmbShr
  refine Runs.seq (issueOp_runs ..) (by decide) ?_
  exact Moves.refl _ _

theorem execTmbShrl_runs (a0 a1 a2 a3 s) : Runs [.mem, .regs, .cnt, .hif, .ctl, .aud, .flt, .obs, .crsl, .ddr, .ldg, .out] s (execTmbShrl a0 a1 a2 a3 s) := by
  unfold execTmbShrl
  refine Runs.seq (issueOp_runs ..) (by decide) ?_
  exact Moves.refl _ _

theorem execTmbShlv_runs (a0 a1 a2 a3 a4 s) : Runs [.mem, .regs, .cnt, .hif, .ctl, .aud, .flt, .obs, .crsl, .ddr, .ldg, .out] s (execTmbShlv a0 a1 a2 a3 a4 s) := by
  unfold execTmbShlv
  refine Runs.seq (issueOp_runs ..) (by decide) ?_
  exact Moves.refl _ _

theorem execTmbShrv_runs (a0 a1 a2 a3 s) : Runs [.mem, .regs, .cnt, .hif, .ctl, .aud, .flt, .obs, .crsl, .ddr, .ldg, .out] s (execTmbShrv a0 a1 a2 a3 s) := by
  unfold execTmbShrv
  refine Runs.seq (issueOp_runs ..) (by decide) ?_
  exact Moves.refl _ _

theorem execTmbMin_runs (a0 a1 a2 a3 s) : Runs [.mem, .regs, .cnt, .hif, .ctl, .aud, .flt, .obs, .crsl, .ddr, .ldg, .out] s (execTmbMin a0 a1 a2 a3 s) := by
  unfold execTmbMin
  refine Runs.seq (issueOp_runs ..) (by decide) ?_
  exact Moves.refl _ _

theorem execTmbMax_runs (a0 a1 a2 a3 s) : Runs [.mem, .regs, .cnt, .hif, .ctl, .aud, .flt, .obs, .crsl, .ddr, .ldg, .out] s (execTmbMax a0 a1 a2 a3 s) := by
  unfold execTmbMax
  refine Runs.seq (issueOp_runs ..) (by decide) ?_
  exact Moves.refl _ _

theorem execTmbAbs_runs (a0 a1 a2 a3 s) : Runs [.mem, .regs, .cnt, .hif, .ctl, .aud, .flt, .obs, .crsl, .ddr, .ldg, .out] s (execTmbAbs a0 a1 a2 a3 s) := by
  unfold execTmbAbs
  refine Runs.seq (issueOp_runs ..) (by decide) ?_
  exact Moves.refl _ _

theorem execTmbNeg_runs (a0 a1 a2 a3 s) : Runs [.mem, .regs, .cnt, .hif, .ctl, .aud, .flt, .obs, .crsl, .ddr, .ldg, .out] s (execTmbNeg a0 a1 a2 a3 s) := by
  unfold execTmbNeg
  refine Runs.seq (issueOp_runs ..) (by decide) ?_
  exact Moves.refl _ _

theorem execTmbMullo_runs (a0 a1 a2 a3 a4 s) : Runs [.mem, .regs, .cnt, .hif, .ctl, .aud, .flt, .obs, .crsl, .ddr, .ldg, .out] s (execTmbMullo a0 a1 a2 a3 a4 s) := by
  unfold execTmbMullo
  refine Runs.seq (issueOp_runs ..) (by decide) ?_
  exact Moves.refl _ _

theorem execTmbClz_runs (a0 a1 a2 s) : Runs [.mem, .regs, .cnt, .hif, .ctl, .aud, .flt, .obs, .crsl, .ddr, .ldg, .out] s (execTmbClz a0 a1 a2 s) := by
  unfold execTmbClz
  refine Runs.seq (issueOp_runs ..) (by decide) ?_
  exact Moves.refl _ _

theorem execTmbSext16_runs (a0 a1 a2 s) : Runs [.mem, .regs, .cnt, .hif, .ctl, .aud, .flt, .obs, .crsl, .ddr, .ldg, .out] s (execTmbSext16 a0 a1 a2 s) := by
  unfold execTmbSext16
  refine Runs.seq (issueOp_runs ..) (by decide) ?_
  exact Moves.refl _ _

theorem execTmbPack_runs (a0 a1 a2 a3 s) : Runs [.mem, .regs, .cnt, .hif, .ctl, .aud, .flt, .obs, .crsl, .ddr, .ldg, .out] s (execTmbPack a0 a1 a2 a3 s) := by
  unfold execTmbPack
  refine Runs.seq (issueOp_runs ..) (by decide) ?_
  exact Moves.refl _ _

theorem execTmbCmplt_runs (a0 a1 a2 a3 s) : Runs [.mem, .regs, .cnt, .hif, .ctl, .aud, .flt, .obs, .crsl, .ddr, .ldg, .out] s (execTmbCmplt a0 a1 a2 a3 s) := by
  unfold execTmbCmplt
  refine Runs.seq (issueOp_runs ..) (by decide) ?_
  exact Moves.refl _ _

theorem execTmbCmpeq_runs (a0 a1 a2 a3 s) : Runs [.mem, .regs, .cnt, .hif, .ctl, .aud, .flt, .obs, .crsl, .ddr, .ldg, .out] s (execTmbCmpeq a0 a1 a2 a3 s) := by
  unfold execTmbCmpeq
  refine Runs.seq (issueOp_runs ..) (by decide) ?_
  exact Moves.refl _ _

theorem execTmbCmpltu_runs (a0 a1 a2 a3 s) : Runs [.mem, .regs, .cnt, .hif, .ctl, .aud, .flt, .obs, .crsl, .ddr, .ldg, .out] s (execTmbCmpltu a0 a1 a2 a3 s) := by
  unfold execTmbCmpltu
  refine Runs.seq (issueOp_runs ..) (by decide) ?_
  exact Moves.refl _ _

theorem execTmbRda_runs (a0 a1 a2 a3 a4 a5 s) : Runs [.mem, .regs, .cnt, .hif, .ctl, .aud, .flt, .obs, .crsl, .ddr, .ldg, .out] s (execTmbRda a0 a1 a2 a3 a4 a5 s) := by
  unfold execTmbRda
  refine Runs.seq (issueOp_runs ..) (by decide) ?_
  exact Moves.refl _ _

theorem execTmbRdah_runs (a0 a1 a2 s) : Runs [.mem, .regs, .cnt, .hif, .ctl, .aud, .flt, .obs, .crsl, .ddr, .ldg, .out] s (execTmbRdah a0 a1 a2 s) := by
  unfold execTmbRdah
  refine Runs.seq (issueOp_runs ..) (by decide) ?_
  exact Moves.refl _ _

theorem execTmbWra_runs (a0 a1 a2 a3 a4 s) : Runs [.mem, .regs, .cnt, .hif, .ctl, .aud, .flt, .obs, .crsl, .ddr, .ldg, .out] s (execTmbWra a0 a1 a2 a3 a4 s) := by
  unfold execTmbWra
  refine Runs.seq (issueOp_runs ..) (by decide) ?_
  exact Moves.refl _ _

theorem execTmbAdda_runs (a0 a1 a2 a3 a4 s) : Runs [.mem, .regs, .cnt, .hif, .ctl, .aud, .flt, .obs, .crsl, .ddr, .ldg, .out] s (execTmbAdda a0 a1 a2 a3 a4 s) := by
  unfold execTmbAdda
  refine Runs.seq (issueOp_runs ..) (by decide) ?_
  exact Moves.refl _ _

theorem execTmbSuba_runs (a0 a1 a2 a3 a4 s) : Runs [.mem, .regs, .cnt, .hif, .ctl, .aud, .flt, .obs, .crsl, .ddr, .ldg, .out] s (execTmbSuba a0 a1 a2 a3 a4 s) := by
  unfold execTmbSuba
  refine Runs.seq (issueOp_runs ..) (by decide) ?_
  exact Moves.refl _ _

theorem execTmbClra_runs (a0 a1 s) : Runs [.mem, .regs, .cnt, .hif, .ctl, .aud, .flt, .obs, .crsl, .ddr, .ldg, .out] s (execTmbClra a0 a1 s) := by
  unfold execTmbClra
  refine Runs.seq (issueOp_runs ..) (by decide) ?_
  exact Moves.refl _ _

theorem execTmbSat24_runs (a0 a1 a2 s) : Runs [.mem, .regs, .cnt, .hif, .ctl, .aud, .flt, .obs, .crsl, .ddr, .ldg, .out] s (execTmbSat24 a0 a1 a2 s) := by
  unfold execTmbSat24
  refine Runs.seq (issueOp_runs ..) (by decide) ?_
  exact Moves.refl _ _

theorem execTmbAddi_runs (a0 a1 a2 a3 a4 s) : Runs [.mem, .regs, .cnt, .hif, .ctl, .aud, .flt, .obs, .crsl, .ddr, .ldg, .out] s (execTmbAddi a0 a1 a2 a3 a4 s) := by
  unfold execTmbAddi
  refine Runs.seq (issueOp_runs ..) (by decide) ?_
  exact Moves.refl _ _

theorem execTmbAndi_runs (a0 a1 a2 a3 s) : Runs [.mem, .regs, .cnt, .hif, .ctl, .aud, .flt, .obs, .crsl, .ddr, .ldg, .out] s (execTmbAndi a0 a1 a2 a3 s) := by
  unfold execTmbAndi
  refine Runs.seq (issueOp_runs ..) (by decide) ?_
  exact Moves.refl _ _

theorem execTmbOri_runs (a0 a1 a2 a3 s) : Runs [.mem, .regs, .cnt, .hif, .ctl, .aud, .flt, .obs, .crsl, .ddr, .ldg, .out] s (execTmbOri a0 a1 a2 a3 s) := by
  unfold execTmbOri
  refine Runs.seq (issueOp_runs ..) (by decide) ?_
  exact Moves.refl _ _

theorem execTmbXori_runs (a0 a1 a2 a3 s) : Runs [.mem, .regs, .cnt, .hif, .ctl, .aud, .flt, .obs, .crsl, .ddr, .ldg, .out] s (execTmbXori a0 a1 a2 a3 s) := by
  unfold execTmbXori
  refine Runs.seq (issueOp_runs ..) (by decide) ?_
  exact Moves.refl _ _

theorem execTmbMovi_runs (a0 a1 a2 s) : Runs [.mem, .regs, .cnt, .hif, .ctl, .aud, .flt, .obs, .crsl, .ddr, .ldg, .out] s (execTmbMovi a0 a1 a2 s) := by
  unfold execTmbMovi
  refine Runs.seq (issueOp_runs ..) (by decide) ?_
  exact Moves.refl _ _

theorem execTmbMovhi_runs (a0 a1 a2 s) : Runs [.mem, .regs, .cnt, .hif, .ctl, .aud, .flt, .obs, .crsl, .ddr, .ldg, .out] s (execTmbMovhi a0 a1 a2 s) := by
  unfold execTmbMovhi
  refine Runs.seq (issueOp_runs ..) (by decide) ?_
  exact Moves.refl _ _

theorem execTmbCmplti_runs (a0 a1 a2 a3 s) : Runs [.mem, .regs, .cnt, .hif, .ctl, .aud, .flt, .obs, .crsl, .ddr, .ldg, .out] s (execTmbCmplti a0 a1 a2 a3 s) := by
  unfold execTmbCmplti
  refine Runs.seq (issueOp_runs ..) (by decide) ?_
  exact Moves.refl _ _

theorem execTmbCmpeqi_runs (a0 a1 a2 a3 s) : Runs [.mem, .regs, .cnt, .hif, .ctl, .aud, .flt, .obs, .crsl, .ddr, .ldg, .out] s (execTmbCmpeqi a0 a1 a2 a3 s) := by
  unfold execTmbCmpeqi
  refine Runs.seq (issueOp_runs ..) (by decide) ?_
  exact Moves.refl _ _

theorem execTmbLdw_runs (a0 a1 a2 a3 a4 a5 s) : Runs [.mem, .regs, .cnt, .hif, .ctl, .aud, .flt, .obs, .crsl, .ddr, .ldg, .out] s (execTmbLdw a0 a1 a2 a3 a4 a5 s) := by
  unfold execTmbLdw
  refine Runs.seq (issueOp_runs ..) (by decide) ?_
  exact Moves.refl _ _

theorem execTmbLdh_runs (a0 a1 a2 a3 a4 a5 s) : Runs [.mem, .regs, .cnt, .hif, .ctl, .aud, .flt, .obs, .crsl, .ddr, .ldg, .out] s (execTmbLdh a0 a1 a2 a3 a4 a5 s) := by
  unfold execTmbLdh
  refine Runs.seq (issueOp_runs ..) (by decide) ?_
  exact Moves.refl _ _

theorem execTmbLdhu_runs (a0 a1 a2 a3 a4 a5 s) : Runs [.mem, .regs, .cnt, .hif, .ctl, .aud, .flt, .obs, .crsl, .ddr, .ldg, .out] s (execTmbLdhu a0 a1 a2 a3 a4 a5 s) := by
  unfold execTmbLdhu
  refine Runs.seq (issueOp_runs ..) (by decide) ?_
  exact Moves.refl _ _

theorem execTmbStw_runs (a0 a1 a2 a3 a4 a5 s) : Runs [.mem, .regs, .cnt, .hif, .ctl, .aud, .flt, .obs, .crsl, .ddr, .ldg, .out] s (execTmbStw a0 a1 a2 a3 a4 a5 s) := by
  unfold execTmbStw
  refine Runs.seq (issueOp_runs ..) (by decide) ?_
  exact Moves.refl _ _

theorem execTmbSth_runs (a0 a1 a2 a3 a4 a5 s) : Runs [.mem, .regs, .cnt, .hif, .ctl, .aud, .flt, .obs, .crsl, .ddr, .ldg, .out] s (execTmbSth a0 a1 a2 a3 a4 a5 s) := by
  unfold execTmbSth
  refine Runs.seq (issueOp_runs ..) (by decide) ?_
  exact Moves.refl _ _

theorem execTmbBeqz_runs (a0 a1 a2 s) : Runs [.mem, .regs, .cnt, .hif, .ctl, .aud, .flt, .obs, .crsl, .ddr, .ldg, .out] s (execTmbBeqz a0 a1 a2 s) := by
  unfold execTmbBeqz
  refine Runs.seq (issueOp_runs ..) (by decide) ?_
  exact Moves.refl _ _

theorem execTmbBnez_runs (a0 a1 a2 s) : Runs [.mem, .regs, .cnt, .hif, .ctl, .aud, .flt, .obs, .crsl, .ddr, .ldg, .out] s (execTmbBnez a0 a1 a2 s) := by
  unfold execTmbBnez
  refine Runs.seq (issueOp_runs ..) (by decide) ?_
  exact Moves.refl _ _

theorem execTmbBltz_runs (a0 a1 a2 s) : Runs [.mem, .regs, .cnt, .hif, .ctl, .aud, .flt, .obs, .crsl, .ddr, .ldg, .out] s (execTmbBltz a0 a1 a2 s) := by
  unfold execTmbBltz
  refine Runs.seq (issueOp_runs ..) (by decide) ?_
  exact Moves.refl _ _

theorem execTmbBgez_runs (a0 a1 a2 s) : Runs [.mem, .regs, .cnt, .hif, .ctl, .aud, .flt, .obs, .crsl, .ddr, .ldg, .out] s (execTmbBgez a0 a1 a2 s) := by
  unfold execTmbBgez
  refine Runs.seq (issueOp_runs ..) (by decide) ?_
  exact Moves.refl _ _

theorem execTmbBr_runs (a0 a1 s) : Runs [.mem, .regs, .cnt, .hif, .ctl, .aud, .flt, .obs, .crsl, .ddr, .ldg, .out] s (execTmbBr a0 a1 s) := by
  unfold execTmbBr
  refine Runs.seq (issueOp_runs ..) (by decide) ?_
  exact Moves.refl _ _

theorem execTmbBlc_runs (a0 a1 s) : Runs [.mem, .regs, .cnt, .hif, .ctl, .aud, .flt, .obs, .crsl, .ddr, .ldg, .out] s (execTmbBlc a0 a1 s) := by
  unfold execTmbBlc
  refine Runs.seq (issueOp_runs ..) (by decide) ?_
  exact Moves.refl _ _

theorem execTmbCall_runs (a0 a1 s) : Runs [.mem, .regs, .cnt, .hif, .ctl, .aud, .flt, .obs, .crsl, .ddr, .ldg, .out] s (execTmbCall a0 a1 s) := by
  unfold execTmbCall
  refine Runs.seq (issueOp_runs ..) (by decide) ?_
  exact Moves.refl _ _

theorem execTmbRet_runs (a0 s) : Runs [.mem, .regs, .cnt, .hif, .ctl, .aud, .flt, .obs, .crsl, .ddr, .ldg, .out] s (execTmbRet a0 s) := by
  unfold execTmbRet
  refine Runs.seq (issueOp_runs ..) (by decide) ?_
  exact Moves.refl _ _

theorem execTmbMtc_runs (a0 a1 a2 s) : Runs [.mem, .regs, .cnt, .hif, .ctl, .aud, .flt, .obs, .crsl, .ddr, .ldg, .out] s (execTmbMtc a0 a1 a2 s) := by
  unfold execTmbMtc
  refine Runs.seq (issueOp_runs ..) (by decide) ?_
  exact Moves.refl _ _

theorem execTmbMfc_runs (a0 a1 a2 s) : Runs [.mem, .regs, .cnt, .hif, .ctl, .aud, .flt, .obs, .crsl, .ddr, .ldg, .out, .free] s (execTmbMfc a0 a1 a2 s) := by
  unfold execTmbMfc
  extract_lets v0
  refine Runs.seq (issueOp_runs ..) (by decide) ?_
  refine Moves.ite_snd ?_ ?_
  · refine Moves.seq (takeFree_moves ..) (by decide) ?_
    exact Moves.refl _ _
  · refine Moves.mk_snd ?_
    exact Moves.refl _ _

theorem execTmbXrd_runs (a0 a1 s) : Runs [.mem, .regs, .cnt, .hif, .ctl, .aud, .flt, .obs, .crsl, .ddr, .ldg, .out] s (execTmbXrd a0 a1 s) := by
  unfold execTmbXrd
  refine Runs.next ?_
  refine issue_moves (fun y0 => ?_) (by decide) ?_
  · unfold id
    exact Moves.refl _ _
  · exact Moves.refl _ _

theorem execTmbXwr_runs (a0 a1 s) : Runs [.mem, .regs, .cnt, .hif, .ctl, .aud, .flt, .obs, .crsl, .ddr, .ldg, .out] s (execTmbXwr a0 a1 s) := by
  unfold execTmbXwr
  refine Runs.next ?_
  refine issue_moves (fun y0 => ?_) (by decide) ?_
  · unfold id
    exact Moves.refl _ _
  · exact Moves.refl _ _

theorem execTransferComplete_runs (a0 a1 s) : Runs [.mem, .regs, .cnt, .hif, .ctl, .aud, .flt, .obs, .crsl, .ddr, .ldg, .out] s (execTransferComplete a0 a1 s) := by
  unfold execTransferComplete
  refine Runs.next ?_
  refine Moves.seq (xferDone_moves ..) (by decide) ?_
  exact Moves.refl _ _

theorem execTmbWaitx_runs (a0 a1 s) : Runs [.mem, .regs, .cnt, .hif, .ctl, .aud, .flt, .obs, .crsl, .ddr, .ldg, .out] s (execTmbWaitx a0 a1 s) := by
  unfold execTmbWaitx
  refine Runs.seq (issueOp_runs ..) (by decide) ?_
  exact Moves.refl _ _

theorem execTmbEnd_runs (a0 s) : Runs [.mem, .regs, .cnt, .hif, .ctl, .aud, .flt, .obs, .crsl, .ddr, .ldg, .out] s (execTmbEnd a0 s) := by
  unfold execTmbEnd
  refine Runs.next ?_
  refine issue_moves (fun y0 => ?_) (by decide) ?_
  · refine Moves.seq (itemEnd_moves ..) (by decide) ?_
    exact Moves.refl _ _
  · exact Moves.refl _ _

theorem execTmbReti_runs (a0 s) : Runs [.mem, .regs, .cnt, .hif, .ctl, .aud, .flt, .obs, .crsl, .ddr, .ldg, .out] s (execTmbReti a0 s) := by
  unfold execTmbReti
  refine Runs.next ?_
  refine issue_moves (fun y0 => ?_) (by decide) ?_
  · refine Moves.seq (corePut_moves ..) (by decide) ?_
    exact Moves.refl _ _
  · exact Moves.refl _ _

theorem execTmbBkpt_runs (a0 a1 s) : Runs [.mem, .regs, .cnt, .hif, .ctl, .aud, .flt, .obs, .crsl, .ddr, .ldg, .out] s (execTmbBkpt a0 a1 s) := by
  unfold execTmbBkpt
  refine Runs.next ?_
  refine issue_moves (fun y0 => ?_) (by decide) ?_
  · refine Moves.ite ?_ ?_
    · exact Moves.refl _ _
    · refine Moves.ite ?_ ?_
      · exact Moves.refl _ _
      · refine Moves.seq (debugEnter_moves ..) (by decide) ?_
        exact Moves.refl _ _
  · exact Moves.refl _ _

theorem execTmbFault_runs (a0 a1 s) : Runs [.mem, .regs, .cnt, .hif, .ctl, .aud, .flt, .obs, .crsl, .ddr, .ldg, .out] s (execTmbFault a0 a1 s) := by
  unfold execTmbFault
  refine Runs.seq (issueOp_runs ..) (by decide) ?_
  exact Moves.refl _ _

theorem execTmbMac_runs (a0 a1 a2 a3 a4 a5 a6 a7 a8 a9 a10 s) : Runs [.mem, .regs, .cnt, .hif, .ctl, .aud, .flt, .obs, .crsl, .ddr, .ldg, .out] s (execTmbMac a0 a1 a2 a3 a4 a5 a6 a7 a8 a9 a10 s) := by
  unfold execTmbMac
  refine Runs.seq (issueOp_runs ..) (by decide) ?_
  exact Moves.refl _ _

theorem execTmbMsu_runs (a0 a1 a2 a3 a4 a5 a6 a7 a8 a9 a10 s) : Runs [.mem, .regs, .cnt, .hif, .ctl, .aud, .flt, .obs, .crsl, .ddr, .ldg, .out] s (execTmbMsu a0 a1 a2 a3 a4 a5 a6 a7 a8 a9 a10 s) := by
  unfold execTmbMsu
  refine Runs.seq (issueOp_runs ..) (by decide) ?_
  exact Moves.refl _ _

theorem execTmbMpy_runs (a0 a1 a2 a3 a4 a5 a6 a7 a8 a9 a10 s) : Runs [.mem, .regs, .cnt, .hif, .ctl, .aud, .flt, .obs, .crsl, .ddr, .ldg, .out] s (execTmbMpy a0 a1 a2 a3 a4 a5 a6 a7 a8 a9 a10 s) := by
  unfold execTmbMpy
  refine Runs.seq (issueOp_runs ..) (by decide) ?_
  exact Moves.refl _ _

theorem execTmbLdp_runs (a0 a1 a2 a3 a4 a5 a6 s) : Runs [.mem, .regs, .cnt, .hif, .ctl, .aud, .flt, .obs, .crsl, .ddr, .ldg, .out] s (execTmbLdp a0 a1 a2 a3 a4 a5 a6 s) := by
  unfold execTmbLdp
  refine Runs.seq (issueOp_runs ..) (by decide) ?_
  exact Moves.refl _ _

theorem execCoreHwFault_runs (a0 a1 s) : Runs [.mem, .regs, .cnt, .hif, .flt, .crsl, .ddr, .ldg, .out] s (execCoreHwFault a0 a1 s) := by
  unfold execCoreHwFault
  refine Runs.next ?_
  refine Moves.ite ?_ ?_
  · exact Moves.refl _ _
  · refine Moves.seq (hardwareFault_moves ..) (by decide) ?_
    exact Moves.refl _ _

theorem debugEnable_moves (a0 a1 s) : Moves [.mem, .regs, .cnt, .hif, .crsl, .ddr, .out] s (debugEnable a0 a1 s) := by
  unfold debugEnable
  refine Moves.ite ?_ ?_
  · exact Moves.refl _ _
  · refine Moves.ite ?_ ?_
    · refine Moves.ite ?_ ?_
      · exact Moves.refl _ _
      · refine Moves.ite ?_ ?_
        · refine Moves.seq (debugRefuse_moves ..) (by decide) ?_
          exact Moves.refl _ _
        · refine Moves.seq (coreBoundary_moves ..) (by decide) ?_
          refine Moves.seq (fset_moves ..) (by decide) ?_
          exact Moves.refl _ _
    · extract_lets v0 v1 v2
      have h200 : Moves [.mem, .regs, .cnt, .hif, .crsl, .ddr, .out] s v0 := by
        refine Moves.seq (fset_moves ..) (by decide) ?_
        exact Moves.refl _ _
      refine Moves.ite ?_ ?_
      · exact h200
      · refine Moves.seq (startPre_moves ..) (by decide) ?_
        refine Moves.seq (debugReturn_moves ..) (by decide) ?_
        exact h200

theorem execDebugEnable_runs (a0 a1 s) : Runs [.mem, .regs, .cnt, .hif, .crsl, .ddr, .out] s (execDebugEnable a0 a1 s) := by
  unfold execDebugEnable
  refine Runs.next ?_
  refine Moves.seq (debugEnable_moves ..) (by decide) ?_
  exact Moves.refl _ _

theorem execDebugHaltRequest_runs (a0 s) : Runs [.mem, .regs, .cnt, .hif, .crsl, .ddr, .out] s (execDebugHaltRequest a0 s) := by
  unfold execDebugHaltRequest
  refine Runs.next ?_
  refine Moves.ite ?_ ?_
  · exact Moves.refl _ _
  · refine Moves.ite ?_ ?_
    · refine Moves.seq (debugEnter_moves ..) (by decide) ?_
      exact Moves.refl _ _
    · refine Moves.seq (corePut_moves ..) (by decide) ?_
      exact Moves.refl _ _

theorem execDebugStep_runs (a0 s) : Runs [.regs, .crsl] s (execDebugStep a0 s) := by
  unfold execDebugStep
  refine Runs.next ?_
  refine Moves.ite ?_ ?_
  · exact Moves.refl _ _
  · refine Moves.seq (coreStPut_moves ..) (by decide) ?_
    refine Moves.seq (corePut_moves ..) (by decide) ?_
    exact Moves.refl _ _

theorem execDebugResume_runs (a0 s) : Runs [.regs, .crsl] s (execDebugResume a0 s) := by
  unfold execDebugResume
  refine Runs.next ?_
  refine Moves.ite ?_ ?_
  · exact Moves.refl _ _
  · refine Moves.seq (coreStPut_moves ..) (by decide) ?_
    refine Moves.seq (corePut_moves ..) (by decide) ?_
    exact Moves.refl _ _

theorem execDebugInterrupt_runs (a0 s) : Runs [.mem, .regs, .cnt, .hif, .crsl, .ddr, .out] s (execDebugInterrupt a0 s) := by
  unfold execDebugInterrupt
  refine Runs.next ?_
  refine Moves.ite ?_ ?_
  · refine Moves.seq (debugEnter_moves ..) (by decide) ?_
    exact Moves.refl _ _
  · exact Moves.refl _ _

end Sys2Proof.Machine
end

