-- ==== Sys2Proof/Laws/ChCrslRows.lean ====
section
/-! SUPPORT. What each operation of Machine/CrslRows.lean may change: one lemma for each, which says every part of State that it
can alter, and that it keeps the invariant. -/

set_option Elab.async false

namespace Sys2Proof.Machine

theorem spareBecome_moves (a0 s) : Moves [.regs, .crsl] s (spareBecome a0 s) := by
  unfold spareBecome
  extract_lets v0 v1
  have h200 : Moves [.regs, .crsl] s v1 := by
    refine Moves.crsl_with (by decide) ?_
    exact Moves.refl _ _
  refine Moves.seq (fset_moves ..) (by decide) ?_
  refine Moves.seq (fset_moves ..) (by decide) ?_
  refine Moves.seq (coreStPut_moves ..) (by decide) ?_
  exact h200

theorem suspectSettle_moves (a0 s) : Moves [.mem, .regs, .cnt, .hif, .crsl, .ddr, .out] s (suspectSettle a0 s) := by
  unfold suspectSettle
  extract_lets v0
  have h200 : Moves [.mem, .regs, .cnt, .hif, .crsl, .ddr, .out] s v0 := by
    refine Moves.seq (coreBoundary_moves ..) (by decide) ?_
    exact Moves.refl _ _
  refine Moves.ite ?_ ?_
  · refine Moves.seq (spareBecome_moves ..) (by decide) ?_
    exact h200
  · exact h200

theorem coreSuspect_moves (a0 a1 s) : Moves [.mem, .regs, .cnt, .hif, .flt, .crsl, .ddr, .ldg, .out] s (coreSuspect a0 a1 s) := by
  unfold coreSuspect
  split
  · rename_i x0 x1 e2
    have h3 : Moves [.mem, .regs, .cnt, .hif, .flt, .crsl, .ddr, .ldg, .out] s x1 := by
      refine Moves.of_snd e2 ?_
      refine Moves.seq (suspectReport_moves ..) (by decide) ?_
      exact Moves.refl _ _
    extract_lets v4 v5 v6 v7 v8
    have h204 : Moves [.mem, .regs, .cnt, .hif, .flt, .crsl, .ddr, .ldg, .out] s v6 := by
      unfold v6
      refine Moves.seq (faultDeclare_moves ..) (by decide) ?_
      exact h3
    have h205 : Moves [.mem, .regs, .cnt, .hif, .flt, .crsl, .ddr, .ldg, .out] s v8 := by
      refine Moves.crsl_with (by decide) ?_
      exact h204
    refine Moves.ite ?_ ?_
    · split
      · refine Moves.seq (itemRerun_moves ..) (by decide) ?_
        refine Moves.seq (coreRetire_moves ..) (by decide) ?_
        refine Moves.seq (coreRelease_moves ..) (by decide) ?_
        exact h204
      · refine Moves.seq (coreRetire_moves ..) (by decide) ?_
        exact h204
    · refine Moves.ite ?_ ?_
      · exact h3
      · refine Moves.seq (suspectSettle_moves ..) (by decide) ?_
        exact h205

theorem suspectTested_moves (a0 a1 s) : Moves [.mem, .regs, .cnt, .hif, .flt, .crsl, .ddr, .ldg, .out] s (suspectTested a0 a1 s) := by
  unfold suspectTested
  refine Moves.ite ?_ ?_
  · exact Moves.refl _ _
  · refine Moves.ite ?_ ?_
    · extract_lets v0 v1
      have h200 : Moves [.mem, .regs, .cnt, .hif, .flt, .crsl, .ddr, .ldg, .out] s v0 := by
        unfold v0
        refine Moves.seq (faultLog_moves ..) (by decide) ?_
        exact Moves.refl _ _
      refine Moves.seq (unitRetire_moves ..) (by decide) ?_
      refine Moves.seq (coreStPut_moves ..) (by decide) ?_
      refine Moves.crsl_with (by decide) ?_
      exact h200
    · refine Moves.seq (spareBecome_moves ..) (by decide) ?_
      exact Moves.refl _ _

theorem prefetch_moves (a0 a1 a2 s) : Moves [.regs, .cnt, .crsl] s (prefetch a0 a1 a2 s) := by
  unfold prefetch
  extract_lets v0 v1 v2 v3 v4 v5
  refine Moves.ite ?_ ?_
  · exact Moves.refl _ _
  · refine Moves.ite ?_ ?_
    · split
      · exact Moves.refl _ _
      · extract_lets v200
        have h400 : Moves [.regs, .cnt, .crsl] s v200 := by
          refine Moves.crsl_with (by decide) ?_
          exact Moves.refl _ _
        refine Moves.seq (startPre_moves ..) (by decide) ?_
        refine Moves.seq (corePut_moves ..) (by decide) ?_
        exact h400
    · refine Moves.ite ?_ ?_
      · exact Moves.refl _ _
      · split
        · exact Moves.refl _ _
        · extract_lets v401 v402
          have h601 : Moves [.regs, .cnt, .crsl] s v401 := by
            refine Moves.seq (rqPut_moves ..) (by decide) ?_
            refine Moves.seq (cinc_moves ..) (by decide) ?_
            exact Moves.refl _ _
          split
          · refine Moves.seq (cinc_moves ..) (by decide) ?_
            exact h601
          · refine Moves.ite ?_ ?_
            · refine Moves.seq (cinc_moves ..) (by decide) ?_
              exact h601
            · refine Moves.seq (startPre_moves ..) (by decide) ?_
              refine Moves.seq (corePut_moves ..) (by decide) ?_
              refine Moves.seq (itemPut_moves ..) (by decide) ?_
              exact h601

theorem execCorePrefetch_runs (a0 a1 s) : Runs [.regs, .cnt, .crsl] s (execCorePrefetch a0 a1 s) := by
  unfold execCorePrefetch
  refine Runs.next ?_
  refine Moves.seq (prefetch_moves ..) (by decide) ?_
  exact Moves.refl _ _

theorem waitMake_moves (a0 s) : Moves [.mem, .regs, .cnt, .hif, .crsl, .ddr, .out, .free] s (waitMake a0 s) := by
  unfold waitMake
  split
  · refine Moves.seq (itemMake_moves ..) (by decide) ?_
    exact Moves.refl _ _
  · split
    · exact Moves.refl _ _
    · split
      · refine Moves.seq (debugCopy_moves ..) (by decide) ?_
        exact Moves.refl _ _
      · refine Moves.seq (shadowCopy_moves ..) (by decide) ?_
        exact Moves.refl _ _

theorem execItemHandleRetry_runs (s) : Runs [.mem, .regs, .cnt, .hif, .crsl, .ddr, .out, .free] s (execItemHandleRetry s) := by
  unfold execItemHandleRetry
  refine Runs.next ?_
  refine Moves.foldl (fun _ y0 => ?_) ?_
  · refine Moves.ite ?_ ?_
    · refine Moves.seq (waitMake_moves ..) (by decide) ?_
      refine Moves.crsl_with (by decide) ?_
      exact Moves.refl _ _
    · exact Moves.refl _ _
  · exact Moves.refl _ _

theorem execDeadlineMiss_runs (a0 s) : Runs [.mem, .regs, .cnt, .hif, .ctl, .aud, .obs, .crsl, .ddr, .out] s (execDeadlineMiss a0 s) := by
  unfold execDeadlineMiss
  refine Runs.next ?_
  split
  · exact Moves.refl _ _
  · refine Moves.ite ?_ ?_
    · refine Moves.seq (itemMiss_moves ..) (by decide) ?_
      exact Moves.refl _ _
    · exact Moves.refl _ _

theorem execItemHung_runs (a0 s) : Runs [.mem, .regs, .cnt, .hif, .flt, .crsl, .ddr, .ldg, .out] s (execItemHung a0 s) := by
  unfold execItemHung
  refine Runs.next ?_
  split
  · exact Moves.refl _ _
  · refine Moves.seq (hardwareFault_moves ..) (by decide) ?_
    refine Moves.seq (raiseUnit_moves ..) (by decide) ?_
    refine Moves.seq (cinc_moves ..) (by decide) ?_
    exact Moves.refl _ _

theorem execBarrierClose_runs (a0 a1 s) : Runs [.mem, .regs, .cnt, .hif, .crsl, .ddr, .out, .free] s (execBarrierClose a0 a1 s) := by
  unfold execBarrierClose
  refine Runs.next ?_
  refine Moves.seq (barClose_moves ..) (by decide) ?_
  exact Moves.refl _ _

theorem shadowWin_moves (a0 a1 s) : Moves [.mem, .regs, .cnt, .hif, .ctl, .aud, .obs, .crsl, .ddr, .out] s (shadowWin a0 a1 s) := by
  unfold shadowWin
  extract_lets v0
  have h200 : Moves [.mem, .regs, .cnt, .hif, .ctl, .aud, .obs, .crsl, .ddr, .out] s v0 := by
    refine Moves.foldl (fun _ y201 => ?_) ?_
    · refine Moves.seq (itemDrop_moves ..) (by decide) ?_
      exact Moves.refl _ _
    · exact Moves.refl _ _
  refine Moves.ite ?_ ?_
  · refine Moves.seq (itemCount_moves ..) (by decide) ?_
    exact h200
  · refine Moves.seq (itemMiss_moves ..) (by decide) ?_
    exact h200

theorem shadowEvent_moves (a0 a1 a2 a3 s) : Moves [.mem, .regs, .cnt, .hif, .ddr, .out] s (shadowEvent a0 a1 a2 a3 s) := by
  unfold shadowEvent
  refine Moves.seq (raiseUnit_moves ..) (by decide) ?_
  exact Moves.refl _ _

theorem shadowCompare_moves (a0 s) : Moves [.mem, .regs, .cnt, .hif, .ctl, .aud, .flt, .obs, .crsl, .ddr, .ldg, .out, .free] s (shadowCompare a0 s) := by
  unfold shadowCompare
  split
  · exact Moves.refl _ _
  · extract_lets v0
    refine Moves.ite ?_ ?_
    · exact Moves.refl _ _
    · split
      · refine Moves.ite ?_ ?_
        · refine Moves.seq (shadowWin_moves ..) (by decide) ?_
          refine Moves.seq (cinc_moves ..) (by decide) ?_
          exact Moves.refl _ _
        · refine Moves.seq (shadowCopy_moves ..) (by decide) ?_
          refine Moves.seq (cinc_moves ..) (by decide) ?_
          exact Moves.refl _ _
      · refine Moves.ite ?_ ?_
        · refine Moves.seq (coreSuspect_moves ..) (by decide) ?_
          refine Moves.seq (shadowEvent_moves ..) (by decide) ?_
          refine Moves.seq (shadowWin_moves ..) (by decide) ?_
          exact Moves.refl _ _
        · refine Moves.ite ?_ ?_
          · refine Moves.seq (coreSuspect_moves ..) (by decide) ?_
            refine Moves.seq (shadowEvent_moves ..) (by decide) ?_
            refine Moves.seq (shadowWin_moves ..) (by decide) ?_
            exact Moves.refl _ _
          · refine Moves.seq (itemMiss_moves ..) (by decide) ?_
            refine Moves.seq (shadowEvent_moves ..) (by decide) ?_
            exact Moves.refl _ _
      · exact Moves.refl _ _

theorem execShadowCompare_runs (a0 s) : Runs [.mem, .regs, .cnt, .hif, .ctl, .aud, .flt, .obs, .crsl, .ddr, .ldg, .out, .free] s (execShadowCompare a0 s) := by
  unfold execShadowCompare
  refine Runs.next ?_
  refine Moves.seq (shadowCompare_moves ..) (by decide) ?_
  exact Moves.refl _ _

theorem execShadowAbandon_runs (a0 s) : Runs [.mem, .regs, .cnt, .hif, .ctl, .aud, .obs, .crsl, .ddr, .out] s (execShadowAbandon a0 s) := by
  unfold execShadowAbandon
  refine Runs.next ?_
  split
  · exact Moves.refl _ _
  · split
    · refine Moves.ite ?_ ?_
      · refine Moves.seq (shadowWin_moves ..) (by decide) ?_
        refine Moves.seq (cinc_moves ..) (by decide) ?_
        exact Moves.refl _ _
      · exact Moves.refl _ _
    · exact Moves.refl _ _

theorem execQueueSpillRepush_runs (a0 s) : Runs [.mem, .regs, .cnt, .hif, .crsl, .ddr, .out] s (execQueueSpillRepush a0 s) := by
  unfold execQueueSpillRepush
  refine Runs.next ?_
  split
  · exact Moves.refl _ _
  · refine Moves.ite ?_ ?_
    · exact Moves.refl _ _
    · refine Moves.seq (rqSettle_moves ..) (by decide) ?_
      refine Moves.seq (rqPush_moves ..) (by decide) ?_
      refine Moves.seq (rqPut_moves ..) (by decide) ?_
      exact Moves.refl _ _

theorem qeccNote_moves (a0 s) : Moves [.mem, .regs, .cnt, .hif, .flt, .ddr, .ldg, .out] s (qeccNote a0 s) := by
  unfold qeccNote
  extract_lets v0
  have h200 : Moves [.mem, .regs, .cnt, .hif, .flt, .ddr, .ldg, .out] s v0 := by
    unfold v0
    refine Moves.seq (faultDeclare_moves ..) (by decide) ?_
    exact Moves.refl _ _
  refine Moves.seq (raiseUnit_moves ..) (by decide) ?_
  refine Moves.seq (fset_moves ..) (by decide) ?_
  refine Moves.seq (cinc_moves ..) (by decide) ?_
  exact h200

theorem execQueueEccRescan_runs (a0 a1 s) : Runs [.mem, .regs, .cnt, .hif, .flt, .crsl, .ddr, .ldg, .out] s (execQueueEccRescan a0 a1 s) := by
  unfold execQueueEccRescan
  refine Runs.next ?_
  refine Moves.ite ?_ ?_
  · exact Moves.refl _ _
  · refine Moves.ite ?_ ?_
    · extract_lets v0
      refine Moves.ite ?_ ?_
      · exact Moves.refl _ _
      · refine Moves.seq (rescan_moves ..) (by decide) ?_
        refine Moves.seq (qeccNote_moves ..) (by decide) ?_
        refine Moves.seq (rqPut_moves ..) (by decide) ?_
        exact Moves.refl _ _
    · extract_lets v200 v201
      refine Moves.ite ?_ ?_
      · exact Moves.refl _ _
      · refine Moves.seq (qeccNote_moves ..) (by decide) ?_
        refine Moves.seq (evqLose_moves ..) (by decide) ?_
        refine Moves.seq (evqPut_moves ..) (by decide) ?_
        exact Moves.refl _ _

theorem itemsOverdue_moves (a0 s) : Moves [.mem, .regs, .cnt, .hif, .ctl, .aud, .obs, .crsl, .ddr, .out] s (itemsOverdue a0 s) := by
  unfold itemsOverdue
  extract_lets v0 v1 v2 v3
  have h200 : Moves [.mem, .regs, .cnt, .hif, .ctl, .aud, .obs, .crsl, .ddr, .out] s v0 := by
    refine Moves.foldl (fun _ y201 => ?_) ?_
    · split
      · refine Moves.seq (itemMiss_moves ..) (by decide) ?_
        exact Moves.refl _ _
      · exact Moves.refl _ _
    · exact Moves.refl _ _
  have h202 : Moves [.mem, .regs, .cnt, .hif, .ctl, .aud, .obs, .crsl, .ddr, .out] s v3 := by
    refine Moves.crsl_with (by decide) ?_
    exact h200
  refine Moves.foldl (fun _ y203 => ?_) ?_
  · refine Moves.ite ?_ ?_
    · refine Moves.seq (missNote_moves ..) (by decide) ?_
      exact Moves.refl _ _
    · exact Moves.refl _ _
  · exact h202

theorem crslBlock_moves (a0 a1 s) : Moves [.mem, .regs, .cnt, .hif, .ctl, .aud, .obs, .crsl, .ddr, .out, .free] s (crslBlock a0 a1 s) := by
  unfold crslBlock
  extract_lets v0 v1 v2 v3 v4
  have h200 : Moves [.mem, .regs, .cnt, .hif, .ctl, .aud, .obs, .crsl, .ddr, .out, .free] s v0 := by
    refine Moves.seq (itemsOverdue_moves ..) (by decide) ?_
    exact Moves.refl _ _
  have h201 : Moves [.mem, .regs, .cnt, .hif, .ctl, .aud, .obs, .crsl, .ddr, .out, .free] s v1 := by
    refine Moves.foldl (fun _ y202 => ?_) ?_
    · refine Moves.seq (fset_moves ..) (by decide) ?_
      exact Moves.refl _ _
    · exact h200
  have h203 : Moves [.mem, .regs, .cnt, .hif, .ctl, .aud, .obs, .crsl, .ddr, .out, .free] s v3 := by
    refine Moves.seq (flightSync_moves ..) (by decide) ?_
    refine Moves.crsl_with (by decide) ?_
    exact h201
  have h204 : Moves [.mem, .regs, .cnt, .hif, .ctl, .aud, .obs, .crsl, .ddr, .out, .free] s v4 := by
    refine Moves.foldl (fun _ y205 => ?_) ?_
    · refine Moves.seq (itemRelease_moves ..) (by decide) ?_
      exact Moves.refl _ _
    · exact h203
  refine Moves.seq (itemsMake_moves ..) (by decide) ?_
  exact h204

theorem crslRehome_moves (a0 s) : Moves [.mem, .regs, .cnt, .hif, .crsl, .ddr, .out] s (crslRehome a0 s) := by
  unfold crslRehome
  extract_lets v0 v1 v2
  have h200 : Moves [.mem, .regs, .cnt, .hif, .crsl, .ddr, .out] s v1 := by
    refine Moves.foldl (fun _ y201 => ?_) ?_
    · extract_lets v202
      split
      · exact Moves.refl _ _
      · extract_lets v402
        have h602 : Moves [.mem, .regs, .cnt, .hif, .crsl, .ddr, .out] y201 v402 := by
          refine Moves.seq (corePut_moves ..) (by decide) ?_
          exact Moves.refl _ _
        refine Moves.ite ?_ ?_
        · refine Moves.seq (coreStPut_moves ..) (by decide) ?_
          exact h602
        · exact h602
    · exact Moves.refl _ _
  have h603 : Moves [.mem, .regs, .cnt, .hif, .crsl, .ddr, .out] s v2 := by
    refine Moves.foldl (fun _ y604 => ?_) ?_
    · extract_lets v605 v606
      refine Moves.ite ?_ ?_
      · exact Moves.refl _ _
      · refine Moves.seq (rqPut_moves ..) (by decide) ?_
        exact Moves.refl _ _
    · exact h200
  refine Moves.foldl (fun _ y805 => ?_) ?_
  · split
    · exact Moves.refl _ _
    · refine Moves.ite ?_ ?_
      · refine Moves.seq (itemFree_moves ..) (by decide) ?_
        exact Moves.refl _ _
      · extract_lets v806 v807 v808 v809
        have h1006 : Moves [.mem, .regs, .cnt, .hif, .crsl, .ddr, .out] y805 v809 := by
          refine Moves.seq (itemPut_moves ..) (by decide) ?_
          refine Moves.seq (cinc_moves ..) (by decide) ?_
          exact Moves.refl _ _
        refine Moves.ite ?_ ?_
        · unfold v806
          split
          · refine Moves.seq (itemQueue_moves ..) (by decide) ?_
            exact h1006
          · exact h1006
        · refine Moves.seq (itemPut_moves ..) (by decide) ?_
          exact Moves.refl _ _
  · exact h603

end Sys2Proof.Machine
end

