-- ==== Sys2Proof/Laws/ChFwSwap.lean ====
section
/-! SUPPORT. What each operation of Machine/FwSwap.lean may change: one lemma for each, which says every part of State that it
can alter, and that it keeps the invariant. -/

set_option Elab.async false

namespace Sys2Proof.Machine

theorem fwFlip_moves (a0 s) : Moves [.regs] s (fwFlip a0 s) := by
  unfold fwFlip
  extract_lets v0 v1
  refine Moves.seq (fset_moves ..) (by decide) ?_
  refine Moves.seq (fset_moves ..) (by decide) ?_
  refine Moves.seq (fset_moves ..) (by decide) ?_
  exact Moves.refl _ _

theorem fwEnd_moves (a0 a1 a2 a3 a4 s) : Moves [.mem, .regs, .cnt, .hif, .vid, .ddr, .out] s (fwEnd a0 a1 a2 a3 a4 s) := by
  unfold fwEnd
  refine Moves.seq (lopEnd_moves ..) (by decide) ?_
  refine Moves.vid_with (by decide) ?_
  exact Moves.refl _ _

theorem fwSafe_moves (a0 a1 s) : Moves [.mem, .regs, .cnt, .hif, .vid, .ddr, .out] s (fwSafe a0 a1 s) := by
  unfold fwSafe
  refine lopSafe_moves (fun y0 => ?_) (by decide) ?_
  · refine Moves.seq (fwEnd_moves ..) (by decide) ?_
    exact Moves.refl _ _
  · exact Moves.refl _ _

theorem fwPut_moves (a0 a1 a2 s) : Moves [.vid] s (fwPut a0 a1 a2 s) := by
  unfold fwPut
  refine Moves.vid_with (by decide) ?_
  exact Moves.refl _ _

theorem fwNext_moves (a0 a1 a2 s) : Moves [.vid] s (fwNext a0 a1 a2 s) := by
  unfold fwNext
  split
  · refine Moves.seq (fwPut_moves ..) (by decide) ?_
    exact Moves.refl _ _
  · refine Moves.seq (fwPut_moves ..) (by decide) ?_
    exact Moves.refl _ _

theorem fwPhase_moves (a0 a1 a2 s) : Moves [.mem, .regs, .cnt, .hif, .vid, .ddr, .out] s (fwPhase a0 a1 a2 s) := by
  unfold fwPhase
  split
  · exact Moves.refl _ _
  · refine Moves.ite ?_ ?_
    · exact Moves.refl _ _
    · extract_lets v0 v1 v2 v3
      have h200 : Moves [.mem, .regs, .cnt, .hif, .vid, .ddr, .out] s v0 := by
        refine Moves.ite ?_ ?_
        · refine Moves.seq (lopBegin_moves ..) (by decide) ?_
          exact Moves.refl _ _
        · exact Moves.refl _ _
      have h201 : Moves [.mem, .regs, .cnt, .hif, .vid, .ddr, .out] s v3 := by
        refine Moves.seq (fset_moves ..) (by decide) ?_
        exact h200
      split
      · exact h200
      · refine Moves.ite ?_ ?_
        · exact h200
        · extract_lets v202 v203
          refine Moves.ite ?_ ?_
          · refine Moves.ite ?_ ?_
            · exact h200
            · refine Moves.ite ?_ ?_
              · refine Moves.seq (fwEnd_moves ..) (by decide) ?_
                exact h200
              · refine Moves.seq (fwPut_moves ..) (by decide) ?_
                exact h200
          · refine Moves.ite ?_ ?_
            · refine Moves.ite ?_ ?_
              · refine Moves.seq (fwEnd_moves ..) (by decide) ?_
                exact h200
              · refine Moves.seq (fwSafe_moves ..) (by decide) ?_
                refine Moves.seq (fwNext_moves ..) (by decide) ?_
                exact h200
            · refine Moves.ite ?_ ?_
              · refine Moves.seq (fwSafe_moves ..) (by decide) ?_
                refine Moves.seq (fwNext_moves ..) (by decide) ?_
                exact h201
              · exact h200

theorem execFwSwapPhaseDone_runs (a0 a1 a2 s) : Runs [.mem, .regs, .cnt, .hif, .vid, .ddr, .out] s (execFwSwapPhaseDone a0 a1 a2 s) := by
  unfold execFwSwapPhaseDone
  refine Runs.next ?_
  refine Moves.seq (fwPhase_moves ..) (by decide) ?_
  exact Moves.refl _ _

theorem fwApply_moves (a0 a1 a2 a3 a4 s) : Moves [.mem, .regs, .cnt, .hif, .vid, .obs, .ddr, .out] s (fwApply a0 a1 a2 a3 a4 s) := by
  unfold fwApply
  extract_lets v0 v1 v2 v3 v4
  have h200 : Moves [.mem, .regs, .cnt, .hif, .vid, .obs, .ddr, .out] s v0 := by
    refine Moves.foldl (fun _ y201 => ?_) ?_
    · refine Moves.ite ?_ ?_
      · refine Moves.seq (fwFlip_moves ..) (by decide) ?_
        exact Moves.refl _ _
      · exact Moves.refl _ _
    · exact Moves.refl _ _
  have h202 : Moves [.mem, .regs, .cnt, .hif, .vid, .obs, .ddr, .out] s v1 := by
    refine Moves.seq (traceConfig_moves ..) (by decide) ?_
    exact h200
  have h203 : Moves [.mem, .regs, .cnt, .hif, .vid, .obs, .ddr, .out] s v2 := by
    refine Moves.seq (raiseUnit_moves ..) (by decide) ?_
    exact h202
  refine Moves.seq (lopEnd_moves ..) (by decide) ?_
  refine Moves.vid_with (by decide) ?_
  exact h203

theorem fwBoundary_moves (a0 s) : Moves [.mem, .regs, .cnt, .hif, .vid, .obs, .ddr, .out] s (fwBoundary a0 s) := by
  unfold fwBoundary
  refine Moves.foldl (fun _ y0 => ?_) ?_
  · split
    · refine Moves.ite ?_ ?_
      · exact Moves.refl _ _
      · refine Moves.ite ?_ ?_
        · refine Moves.seq (fwApply_moves ..) (by decide) ?_
          exact Moves.refl _ _
        · refine Moves.seq (fwSafe_moves ..) (by decide) ?_
          exact Moves.refl _ _
    · exact Moves.refl _ _
  · exact Moves.refl _ _

theorem fwReturn_moves (a0 s) : Moves [.regs] s (fwReturn a0 s) := by
  unfold fwReturn
  extract_lets v0 v1
  have h200 : Moves [.regs] s v1 := by
    unfold v1
    split
    · exact Moves.refl _ _
    · extract_lets v201
      refine Moves.foldl (fun _ y401 => ?_) ?_
      · refine Moves.ite ?_ ?_
        · exact Moves.refl _ _
        · refine Moves.seq (fwFlip_moves ..) (by decide) ?_
          refine Moves.seq (fset_moves ..) (by decide) ?_
          exact Moves.refl _ _
      · exact Moves.refl _ _
  refine Moves.foldl (fun _ y402 => ?_) ?_
  · refine Moves.ite ?_ ?_
    · exact Moves.refl _ _
    · refine Moves.foldl (fun _ y403 => ?_) ?_
      · refine Moves.ite ?_ ?_
        · exact Moves.refl _ _
        · refine Moves.seq (fset_moves ..) (by decide) ?_
          exact Moves.refl _ _
      · exact Moves.refl _ _
  · exact h200

end Sys2Proof.Machine
end

