-- ==== Sys2Proof/Laws/ChSafetyNet.lean ====
section
/-! SUPPORT. What each operation of Machine/SafetyNet.lean may change: one lemma for each, which says every part of State that it
can alter, and that it keeps the invariant. -/

set_option Elab.async false

namespace Sys2Proof.Machine

theorem unitsShow_moves (a0 s) : Moves [.regs] s (unitsShow a0 s) := by
  unfold unitsShow
  extract_lets v0 v1 v2
  have h200 : Moves [.regs] s v1 := by
    refine Moves.seq (fset_moves ..) (by decide) ?_
    refine Moves.seq (fset_moves ..) (by decide) ?_
    refine Moves.seq (fset_moves ..) (by decide) ?_
    exact Moves.refl _ _
  have h201 : Moves [.regs] s v2 := by
    refine Moves.seq (fset_moves ..) (by decide) ?_
    refine Moves.seq (fset_moves ..) (by decide) ?_
    exact h200
  refine Moves.foldl (fun _ y202 => ?_) ?_
  · extract_lets v203
    refine Moves.ite ?_ ?_
    · exact Moves.refl _ _
    · refine Moves.ite ?_ ?_
      · refine Moves.seq (fset_moves ..) (by decide) ?_
        exact Moves.refl _ _
      · refine Moves.ite ?_ ?_
        · exact Moves.refl _ _
        · refine Moves.ite ?_ ?_
          · refine Moves.seq (fset_moves ..) (by decide) ?_
            exact Moves.refl _ _
          · refine Moves.ite ?_ ?_
            · refine Moves.seq (fset_moves ..) (by decide) ?_
              exact Moves.refl _ _
            · exact Moves.refl _ _
  · exact h201

theorem baySet_moves (a0 a1 a2 a3 s) : Moves [.mem, .regs, .cnt, .hif, .ddr, .out] s (baySet a0 a1 a2 a3 s) := by
  unfold baySet
  extract_lets v0
  have h200 : Moves [.mem, .regs, .cnt, .hif, .ddr, .out] s v0 := by
    refine Moves.seq (coverSync_moves ..) (by decide) ?_
    refine Moves.seq (unitsShow_moves ..) (by decide) ?_
    refine Moves.seq (fset_moves ..) (by decide) ?_
    exact Moves.refl _ _
  refine Moves.seq (raiseUnit_moves ..) (by decide) ?_
  exact h200

theorem legMove_moves (a0 a1 a2 a3 s) : Moves [.mem, .regs, .cnt, .hif, .ctl, .ddr, .out] s (legMove a0 a1 a2 a3 s) := by
  unfold legMove
  extract_lets v0 v1 v2 v3
  have h200 : Moves [.mem, .regs, .cnt, .hif, .ctl, .ddr, .out] s v0 := by
    refine Moves.seq (chargeUp_moves ..) (by decide) ?_
    refine Moves.seq (chargeDown_moves ..) (by decide) ?_
    exact Moves.refl _ _
  have h201 : Moves [.mem, .regs, .cnt, .hif, .ctl, .ddr, .out] s v2 := by
    refine Moves.ctl_with (by decide) ?_
    exact h200
  have h202 : Moves [.mem, .regs, .cnt, .hif, .ctl, .ddr, .out] s v3 := by
    refine Moves.seq (cinc_moves ..) (by decide) ?_
    refine Moves.seq (cinc_moves ..) (by decide) ?_
    exact h201
  refine Moves.seq (raiseObj_moves ..) (by decide) ?_
  exact h202

theorem legUnserved_moves (a0 a1 s) : Moves [.mem, .regs, .cnt, .hif, .ctl, .obs, .ddr, .out] s (legUnserved a0 a1 s) := by
  unfold legUnserved
  refine Moves.seq (determinismLost_moves ..) (by decide) ?_
  refine Moves.seq (degraded_moves ..) (by decide) ?_
  exact Moves.refl _ _

theorem legPlace_moves (a0 a1 s) : Moves [.mem, .regs, .cnt, .hif, .ctl, .obs, .ddr, .out] s (legPlace a0 a1 s) := by
  unfold legPlace
  split
  · exact Moves.refl _ _
  · split
    · refine Moves.seq (legMove_moves ..) (by decide) ?_
      exact Moves.refl _ _
    · extract_lets v0 v1
      have h200 : Moves [.mem, .regs, .cnt, .hif, .ctl, .obs, .ddr, .out] s v0 := by
        refine Moves.seq (chargeDown_moves ..) (by decide) ?_
        exact Moves.refl _ _
      refine Moves.seq (legUnserved_moves ..) (by decide) ?_
      refine Moves.ctl_with (by decide) ?_
      exact h200

theorem actMove_moves (a0 a1 a2 s) : Moves [.ctl, .aud] s (actMove a0 a1 a2 s) := by
  unfold actMove
  extract_lets v0 v1 v2 v3
  have h200 : Moves [.ctl, .aud] s v1 := by
    refine Moves.seq (chargeUp_moves ..) (by decide) ?_
    refine Moves.seq (chargeDown_moves ..) (by decide) ?_
    exact Moves.refl _ _
  have h201 : Moves [.ctl, .aud] s v2 := by
    refine Moves.foldl (fun _ y202 => ?_) ?_
    · split
      · refine Moves.ite ?_ ?_
        · exact Moves.refl _ _
        · refine Moves.seq (chargeUp_moves ..) (by decide) ?_
          refine Moves.seq (chargeDown_moves ..) (by decide) ?_
          refine Moves.seq (legAudPut_moves ..) (by decide) ?_
          exact Moves.refl _ _
      · exact Moves.refl _ _
    · exact h200
  refine Moves.ctl_with (by decide) ?_
  exact h201

theorem actPlace_moves (a0 s) : Moves [.mem, .regs, .cnt, .hif, .ctl, .aud, .obs, .ddr, .out] s (actPlace a0 s) := by
  unfold actPlace
  split
  · exact Moves.refl _ _
  · split
    · refine Moves.seq (actMove_moves ..) (by decide) ?_
      exact Moves.refl _ _
    · refine Moves.seq (determinismLost_moves ..) (by decide) ?_
      refine Moves.seq (actMove_moves ..) (by decide) ?_
      exact Moves.refl _ _

theorem framesAgain_moves (a0 s) : Moves [.regs, .ctl] s (framesAgain a0 s) := by
  unfold framesAgain
  refine Moves.seq (holdSync_moves ..) (by decide) ?_
  refine Moves.ctl_with (by decide) ?_
  exact Moves.refl _ _

theorem ctlRehome_moves (bay planned s) : Moves [.mem, .regs, .cnt, .hif, .ctl, .aud, .flt, .obs, .ddr, .out] s (ctlRehome bay planned s) := by
  unfold ctlRehome
  extract_lets note t
  have hn : ∀ k id y, Moves [.mem, .regs, .cnt, .hif, .ctl, .aud, .flt, .obs, .ddr, .out] s y → Moves [.mem, .regs, .cnt, .hif, .ctl, .aud, .flt, .obs, .ddr, .out] s (note k id y) := fun _ _ y h =>
    Moves.ite (Moves.seq (drainNote_moves ..) (by decide) h) h
  have hn' : ∀ k id y, Moves [.mem, .regs, .cnt, .hif, .ctl, .aud, .flt, .obs, .ddr, .out] y (note k id y) := fun _ _ y =>
    Moves.ite ((drainNote_moves ..).mono (by decide)) (Moves.refl _ _)
  have ht : Moves [.mem, .regs, .cnt, .hif, .ctl, .aud, .flt, .obs, .ddr, .out] s t := Moves.foldl (fun _ y =>
    Moves.trans ((legPlace_moves ..).mono (by decide)) (hn' ..)) (Moves.refl _ _)
  exact Moves.foldl (fun _ y => Moves.trans ((actPlace_moves ..).mono (by decide)) (hn' ..)) ht

theorem unplacedRetry_moves (s) : Moves [.mem, .regs, .cnt, .hif, .ctl, .aud, .obs, .ddr, .out] s (unplacedRetry s) := by
  unfold unplacedRetry
  extract_lets v0
  have h200 : Moves [.mem, .regs, .cnt, .hif, .ctl, .aud, .obs, .ddr, .out] s v0 := by
    refine Moves.foldl (fun _ y201 => ?_) ?_
    · refine Moves.seq (legPlace_moves ..) (by decide) ?_
      exact Moves.refl _ _
    · exact Moves.refl _ _
  refine Moves.foldl (fun _ y202 => ?_) ?_
  · refine Moves.seq (actPlace_moves ..) (by decide) ?_
    exact Moves.refl _ _
  · exact h200

theorem testPut_moves (a0 s) : Moves [.flt] s (testPut a0 s) := by
  unfold testPut
  refine Moves.flt_with (by decide) ?_
  exact Moves.refl _ _

theorem drainKeep_moves (a0 s) : Moves [.flt] s (drainKeep a0 s) := by
  unfold drainKeep
  refine Moves.flt_with (by decide) ?_
  exact Moves.refl _ _

theorem testEnd_moves (a0 a1 a2 a3 a4 s) : Moves [.mem, .regs, .cnt, .hif, .flt, .ddr, .out] s (testEnd a0 a1 a2 a3 a4 s) := by
  unfold testEnd
  refine Moves.seq (lopEnd_moves ..) (by decide) ?_
  refine Moves.seq (testPut_moves ..) (by decide) ?_
  exact Moves.refl _ _

theorem testCancel_moves (a0 s) : Moves [.mem, .regs, .cnt, .hif, .flt, .ddr, .out] s (testCancel a0 s) := by
  unfold testCancel
  extract_lets v0
  have h200 : Moves [.mem, .regs, .cnt, .hif, .flt, .ddr, .out] s v0 := by
    refine Moves.seq (testEnd_moves ..) (by decide) ?_
    exact Moves.refl _ _
  refine Moves.ite ?_ ?_
  · exact h200
  · refine Moves.seq (baySet_moves ..) (by decide) ?_
    exact h200

theorem testRestored_moves (a0 a1 s) : Moves [.mem, .regs, .cnt, .hif, .flt, .ddr, .out] s (testRestored a0 a1 s) := by
  unfold testRestored
  extract_lets v0
  have h200 : Moves [.mem, .regs, .cnt, .hif, .flt, .ddr, .out] s v0 := by
    refine lopSafe_moves (fun y201 => ?_) (by decide) ?_
    · refine Moves.seq (testEnd_moves ..) (by decide) ?_
      exact Moves.refl _ _
    · refine Moves.seq (testPut_moves ..) (by decide) ?_
      exact Moves.refl _ _
  refine Moves.ite ?_ ?_
  · refine Moves.seq (testEnd_moves ..) (by decide) ?_
    exact h200
  · exact h200

theorem testStop_moves (s) : Moves [.mem, .regs, .cnt, .hif, .flt, .ddr, .out] s (testStop s) := by
  unfold testStop
  split
  · exact Moves.refl _ _
  · split
    · exact Moves.refl _ _
    · refine Moves.ite ?_ ?_
      · refine Moves.seq (testCancel_moves ..) (by decide) ?_
        exact Moves.refl _ _
      · refine Moves.ite ?_ ?_
        · refine Moves.seq (lopPut_moves ..) (by decide) ?_
          exact Moves.refl _ _
        · exact Moves.refl _ _

theorem rehome_moves (a0 s) : Moves [.mem, .regs, .cnt, .hif, .frm, .ctl, .aud, .vid, .flt, .obs, .crsl, .ddr, .out, .free] s (rehome a0 s) := by
  unfold rehome
  extract_lets v0 v1 v2 v3
  have h200 : Moves [.mem, .regs, .cnt, .hif, .frm, .ctl, .aud, .vid, .flt, .obs, .crsl, .ddr, .out, .free] s v0 := by
    refine Moves.seq (framesAgain_moves ..) (by decide) ?_
    refine Moves.seq (steerAway_moves ..) (by decide) ?_
    exact Moves.refl _ _
  have h201 : Moves [.mem, .regs, .cnt, .hif, .frm, .ctl, .aud, .vid, .flt, .obs, .crsl, .ddr, .out, .free] s v1 := by
    refine Moves.seq (ctlRehome_moves ..) (by decide) ?_
    exact h200
  have h202 : Moves [.mem, .regs, .cnt, .hif, .frm, .ctl, .aud, .vid, .flt, .obs, .crsl, .ddr, .out, .free] s v2 := by
    refine Moves.seq (sessRehomeAll_moves ..) (by decide) ?_
    exact h201
  have h203 : Moves [.mem, .regs, .cnt, .hif, .frm, .ctl, .aud, .vid, .flt, .obs, .crsl, .ddr, .out, .free] s v3 := by
    refine Moves.foldl (fun _ y204 => ?_) ?_
    · refine Moves.seq (canvasMove_moves ..) (by decide) ?_
      exact Moves.refl _ _
    · exact h202
  refine Moves.seq (crslRehome_moves ..) (by decide) ?_
  exact h203

theorem testMeets_moves (a0 a1 s) : Moves [.mem, .regs, .cnt, .hif, .flt, .ddr, .out] s (testMeets a0 a1 s) := by
  unfold testMeets
  split
  · exact Moves.refl _ _
  · refine Moves.ite ?_ ?_
    · refine Moves.seq (testStop_moves ..) (by decide) ?_
      exact Moves.refl _ _
    · refine Moves.ite ?_ ?_
      · refine Moves.seq (testEnd_moves ..) (by decide) ?_
        exact Moves.refl _ _
      · refine Moves.seq (testEnd_moves ..) (by decide) ?_
        exact Moves.refl _ _

theorem bayOut_moves (a0 a1 a2 a3 s) : Moves [.mem, .regs, .cnt, .hif, .frm, .ctl, .aud, .vid, .flt, .obs, .crsl, .ddr, .ldg, .out, .free] s (bayOut a0 a1 a2 a3 s) := by
  unfold bayOut
  extract_lets v0 v1 v2 v3 v4 v5 v6
  have h200 : Moves [.mem, .regs, .cnt, .hif, .frm, .ctl, .aud, .vid, .flt, .obs, .crsl, .ddr, .ldg, .out, .free] s v4 := by
    unfold v4
    refine Moves.seq (faultDeclare_moves ..) (by decide) ?_
    exact Moves.refl _ _
  have h201 : Moves [.mem, .regs, .cnt, .hif, .frm, .ctl, .aud, .vid, .flt, .obs, .crsl, .ddr, .ldg, .out, .free] s v5 := by
    refine Moves.seq (passRestart_moves ..) (by decide) ?_
    refine Moves.seq (drainKeep_moves ..) (by decide) ?_
    refine Moves.seq (testMeets_moves ..) (by decide) ?_
    exact h200
  have h202 : Moves [.mem, .regs, .cnt, .hif, .frm, .ctl, .aud, .vid, .flt, .obs, .crsl, .ddr, .ldg, .out, .free] s v6 := by
    refine Moves.ite ?_ ?_
    · exact h201
    · refine Moves.seq (cinc_moves ..) (by decide) ?_
      exact h201
  refine Moves.seq (rehome_moves ..) (by decide) ?_
  refine Moves.seq (baySet_moves ..) (by decide) ?_
  exact h202

theorem bayLost_moves (a0 a1 a2 a3 s) : Moves [.mem, .regs, .cnt, .hif, .frm, .ctl, .aud, .vid, .flt, .obs, .crsl, .ddr, .ldg, .out, .free] s (bayLost a0 a1 a2 a3 s) := by
  unfold bayLost
  refine Moves.ite ?_ ?_
  · exact Moves.refl _ _
  · refine Moves.seq (bayOut_moves ..) (by decide) ?_
    exact Moves.refl _ _

theorem execBayHeartbeatMiss_runs (a0 s) : Runs [.mem, .regs, .cnt, .hif, .frm, .ctl, .aud, .vid, .flt, .obs, .crsl, .ddr, .ldg, .out, .free] s (execBayHeartbeatMiss a0 s) := by
  unfold execBayHeartbeatMiss
  refine Runs.next ?_
  refine Moves.seq (bayLost_moves ..) (by decide) ?_
  exact Moves.refl _ _

theorem execBayLossDeclared_runs (a0 a1 s) : Runs [.mem, .regs, .cnt, .hif, .frm, .ctl, .aud, .vid, .flt, .obs, .crsl, .ddr, .ldg, .out, .free] s (execBayLossDeclared a0 a1 s) := by
  unfold execBayLossDeclared
  refine Runs.next ?_
  refine Moves.ite ?_ ?_
  · refine Moves.seq (bayLost_moves ..) (by decide) ?_
    exact Moves.refl _ _
  · exact Moves.refl _ _

theorem execUnitFailed_runs (a0 a1 s) : Runs [.mem, .regs, .cnt, .hif, .frm, .ctl, .aud, .vid, .flt, .obs, .crsl, .ddr, .ldg, .out, .free] s (execUnitFailed a0 a1 s) := by
  unfold execUnitFailed
  refine Runs.next ?_
  refine Moves.seq (bayLost_moves ..) (by decide) ?_
  exact Moves.refl _ _

theorem bayQuarantine_moves (a0 s) : Moves [.mem, .regs, .cnt, .hif, .frm, .ctl, .aud, .vid, .flt, .obs, .crsl, .ddr, .ldg, .out, .free] s (bayQuarantine a0 s) := by
  unfold bayQuarantine
  refine Moves.seq (bayLost_moves ..) (by decide) ?_
  exact Moves.refl _ _

theorem bayWarmReset_moves (a0 s) : Moves [.regs, .vid, .crsl] s (bayWarmReset a0 s) := by
  unfold bayWarmReset
  extract_lets v0 v1 v2 v3
  have h200 : Moves [.regs, .vid, .crsl] s v0 := by
    refine Moves.seq (fset_moves ..) (by decide) ?_
    exact Moves.refl _ _
  have h201 : Moves [.regs, .vid, .crsl] s v3 := by
    refine Moves.vid_crsl_with (by decide) (by decide) ?_
    exact h200
  refine Moves.foldl (fun _ y202 => ?_) ?_
  · extract_lets v203 v204 v205
    have h403 : Moves [.regs, .vid, .crsl] y202 v204 := by
      refine Moves.seq (fset_moves ..) (by decide) ?_
      refine Moves.seq (fset_moves ..) (by decide) ?_
      exact Moves.refl _ _
    have h404 : Moves [.regs, .vid, .crsl] y202 v205 := by
      refine Moves.seq (fset_moves ..) (by decide) ?_
      refine Moves.seq (fset_moves ..) (by decide) ?_
      exact h403
    refine Moves.ite ?_ ?_
    · refine Moves.seq (coreStPut_moves ..) (by decide) ?_
      exact h404
    · exact h404
  · exact h201

theorem applyBayQuarantine_moves (a0 s) : Moves [.mem, .regs, .cnt, .hif, .frm, .ctl, .aud, .vid, .flt, .obs, .crsl, .ddr, .ldg, .out, .free] s (applyBayQuarantine a0 s).1 := by
  unfold applyBayQuarantine
  split
  · refine Moves.mk_fst ?_
    exact Moves.refl _ _
  · refine Moves.mk_fst ?_
    refine Moves.seq (bayQuarantine_moves ..) (by decide) ?_
    exact Moves.refl _ _

theorem applyBayWarmReset_moves (a0 s) : Moves [.regs, .vid, .crsl] s (applyBayWarmReset a0 s).1 := by
  unfold applyBayWarmReset
  split
  · refine Moves.mk_fst ?_
    exact Moves.refl _ _
  · refine Moves.ite_fst ?_ ?_
    · refine Moves.mk_fst ?_
      refine Moves.seq (bayWarmReset_moves ..) (by decide) ?_
      exact Moves.refl _ _
    · refine Moves.mk_fst ?_
      exact Moves.refl _ _

theorem applyBayReturn_moves (a0 a1 s) : Moves [.mem, .regs, .cnt, .hif, .ddr, .out] s (applyBayReturn a0 a1 s).1 := by
  unfold applyBayReturn
  split
  · refine Moves.mk_fst ?_
    exact Moves.refl _ _
  · refine Moves.ite_fst ?_ ?_
    · refine Moves.mk_fst ?_
      exact Moves.refl _ _
    · refine Moves.mk_fst ?_
      refine Moves.seq (fwReturn_moves ..) (by decide) ?_
      refine Moves.seq (baySet_moves ..) (by decide) ?_
      exact Moves.refl _ _

theorem drainStart_moves (a0 s) : Moves [.mem, .regs, .cnt, .hif, .frm, .ctl, .aud, .vid, .flt, .obs, .ddr, .out, .free] s (drainStart a0 s) := by
  unfold drainStart
  extract_lets v0 v1 v2
  have h200 : Moves [.mem, .regs, .cnt, .hif, .frm, .ctl, .aud, .vid, .flt, .obs, .ddr, .out, .free] s v0 := by
    refine Moves.seq (baySet_moves ..) (by decide) ?_
    exact Moves.refl _ _
  have h201 : Moves [.mem, .regs, .cnt, .hif, .frm, .ctl, .aud, .vid, .flt, .obs, .ddr, .out, .free] s v2 := by
    refine Moves.foldl (fun _ y202 => ?_) ?_
    · refine Moves.seq (drainNote_moves ..) (by decide) ?_
      exact Moves.refl _ _
    · refine Moves.seq (steerAway_moves ..) (by decide) ?_
      exact h200
  refine Moves.seq (encTurn_moves ..) (by decide) ?_
  refine Moves.seq (decTurn_moves ..) (by decide) ?_
  refine Moves.seq (ctlRehome_moves ..) (by decide) ?_
  exact h201

theorem testStart_moves (b l s) : Moves [.mem, .regs, .cnt, .hif, .frm, .ctl, .aud, .vid, .flt, .obs, .ddr, .out, .free] s (testStart b l s) := by
  have hr : ∀ st, Moves [.mem, .regs, .cnt, .hif, .frm, .ctl, .aud, .vid, .flt, .obs, .ddr, .out, .free] s (lopEnd l.fn l.tag .failed st 0 0 false 0 b s) := fun _ => (lopEnd_moves ..).mono (by decide)
  unfold testStart
  extract_lets bay others refuse q t u
  have ht : Moves [.mem, .regs, .cnt, .hif, .frm, .ctl, .aud, .vid, .flt, .obs, .ddr, .out, .free] s t := Moves.seq (traceCommand_moves ..) (by decide) ((lopBegin_moves ..).mono (by decide))
  have hu : Moves [.mem, .regs, .cnt, .hif, .frm, .ctl, .aud, .vid, .flt, .obs, .ddr, .out, .free] s u := Moves.seq (fset_moves ..) (by decide) (Moves.seq (testPut_moves ..) (by decide) ht)
  refine Moves.ite (hr _) (Moves.ite (hr _) (Moves.ite ?_ ?_))
  · exact Moves.seq (baySet_moves ..) (by decide) hu
  · exact Moves.seq (drainStart_moves ..) (by decide) hu

theorem testResumed_moves (a0 s) : Moves [.mem, .regs, .cnt, .hif, .flt, .ddr, .out] s (testResumed a0 s) := by
  unfold testResumed
  split
  · refine Moves.ite ?_ ?_
    · refine Moves.seq (testRestored_moves ..) (by decide) ?_
      exact Moves.refl _ _
    · exact Moves.refl _ _
  · exact Moves.refl _ _

theorem testBoundary_moves (a0 s) : Moves [.mem, .regs, .cnt, .hif, .frm, .ctl, .aud, .vid, .flt, .obs, .ddr, .out, .free] s (testBoundary a0 s) := by
  unfold testBoundary
  extract_lets v0
  have h200 : Moves [.mem, .regs, .cnt, .hif, .frm, .ctl, .aud, .vid, .flt, .obs, .ddr, .out, .free] s v0 := by
    refine Moves.seq (testResumed_moves ..) (by decide) ?_
    exact Moves.refl _ _
  refine Moves.foldl (fun _ y201 => ?_) ?_
  · split
    · refine Moves.ite ?_ ?_
      · refine Moves.seq (testStart_moves ..) (by decide) ?_
        exact Moves.refl _ _
      · exact Moves.refl _ _
    · exact Moves.refl _ _
  · exact h200

theorem execBayDrainComplete_runs (a0 s) : Runs [.mem, .regs, .cnt, .hif, .flt, .ddr, .out] s (execBayDrainComplete a0 s) := by
  unfold execBayDrainComplete
  refine Runs.next ?_
  split
  · exact Moves.refl _ _
  · refine Moves.ite ?_ ?_
    · refine Moves.seq (baySet_moves ..) (by decide) ?_
      refine Moves.seq (testPut_moves ..) (by decide) ?_
      exact Moves.refl _ _
    · exact Moves.refl _ _

theorem unitFails_moves (a0 a1 a2 s) : Moves [.mem, .regs, .cnt, .hif, .ctl, .vid, .flt, .obs, .crsl, .ddr, .ldg, .out] s (unitFails a0 a1 a2 s).2 := by
  unfold unitFails
  extract_lets v0 v1 v2 v3 v4 v5
  refine Moves.ite_snd ?_ ?_
  · refine Moves.mk_snd ?_
    refine Moves.ite ?_ ?_
    · refine Moves.seq (coreRetire_moves ..) (by decide) ?_
      refine Moves.seq (faultLog_moves ..) (by decide) ?_
      exact Moves.refl _ _
    · exact Moves.refl _ _
  · refine Moves.ite_snd ?_ ?_
    · refine Moves.mk_snd ?_
      refine Moves.ite ?_ ?_
      · refine tileFail_moves (fun _ y200 => ?_) (by decide) ?_
        · refine Moves.seq (faultLog_moves ..) (by decide) ?_
          exact Moves.refl _ _
        · exact Moves.refl _ _
      · exact Moves.refl _ _
    · refine Moves.mk_snd ?_
      exact Moves.refl _ _

theorem testSegment_moves (seg failed t s) : Moves [.mem, .regs, .cnt, .hif, .ctl, .vid, .flt, .obs, .crsl, .ddr, .ldg, .out] s (testSegment seg failed t s) := by
  have he : ∀ t st code r x y, Moves [.mem, .regs, .cnt, .hif, .ctl, .vid, .flt, .obs, .crsl, .ddr, .ldg, .out] s y → Moves [.mem, .regs, .cnt, .hif, .ctl, .vid, .flt, .obs, .crsl, .ddr, .ldg, .out] s (testEnd t st code r x y) := fun _ _ _ _ _ _ h =>
    Moves.seq (testEnd_moves ..) (by decide) h
  have hb : ∀ a c d e y, Moves [.mem, .regs, .cnt, .hif, .ctl, .vid, .flt, .obs, .crsl, .ddr, .ldg, .out] s y → Moves [.mem, .regs, .cnt, .hif, .ctl, .vid, .flt, .obs, .crsl, .ddr, .ldg, .out] s (baySet a c d e y) := fun _ _ _ _ _ h =>
    Moves.seq (baySet_moves ..) (by decide) h
  unfold testSegment
  extract_lets r ok t' u v
  have hr : Moves [.mem, .regs, .cnt, .hif, .ctl, .vid, .flt, .obs, .crsl, .ddr, .ldg, .out] s r.2 := by
    refine Moves.foldl_snd (fun _ _ _ => ?_) (Moves.refl _ _)
    dsimp only
    exact (unitFails_moves ..).mono (by decide)
  have hu : Moves [.mem, .regs, .cnt, .hif, .ctl, .vid, .flt, .obs, .crsl, .ddr, .ldg, .out] s u := Moves.seq (fset_moves ..) (by decide) (Moves.seq (testPut_moves ..) (by decide) hr)
  refine Moves.ite ?_ ?_
  · exact hb _ _ _ _ _ (Moves.seq (drainKeep_moves ..) (by decide) (he _ _ _ _ _ _ hu))
  · split
    · exact lopSafe_moves (fun _ => (testCancel_moves ..).mono (by decide)) (by decide) hu
    · refine Moves.ite ?_ (hb _ _ _ _ _ hu)
      have hv : Moves [.mem, .regs, .cnt, .hif, .ctl, .vid, .flt, .obs, .crsl, .ddr, .ldg, .out] s v := Moves.ite (Moves.seq (fset_moves ..) (by decide) hu) hu
      exact Moves.seq (testRestored_moves ..) (by decide) (hb _ _ _ _ _ hv)

theorem execSelftestSegmentDone_runs (a0 a1 a2 s) : Runs [.mem, .regs, .cnt, .hif, .ctl, .vid, .flt, .obs, .crsl, .ddr, .ldg, .out] s (execSelftestSegmentDone a0 a1 a2 s) := by
  unfold execSelftestSegmentDone
  refine Runs.next ?_
  split
  · refine Moves.ite ?_ ?_
    · refine Moves.seq (testSegment_moves ..) (by decide) ?_
      exact Moves.refl _ _
    · exact Moves.refl _ _
  · refine Moves.ite ?_ ?_
    · exact Moves.refl _ _
    · refine Moves.foldl (fun _ y0 => ?_) ?_
      · refine Moves.seq (suspectTested_moves ..) (by decide) ?_
        exact Moves.refl _ _
      · exact Moves.refl _ _

theorem bayReturns_moves (a0 a1 s) : Moves [.mem, .regs, .cnt, .hif, .frm, .ctl, .aud, .vid, .flt, .obs, .ddr, .out] s (bayReturns a0 a1 s) := by
  unfold bayReturns
  extract_lets v0 v1 v2 v3
  have h200 : Moves [.mem, .regs, .cnt, .hif, .frm, .ctl, .aud, .vid, .flt, .obs, .ddr, .out] s v0 := by
    refine Moves.seq (baySet_moves ..) (by decide) ?_
    exact Moves.refl _ _
  have h201 : Moves [.mem, .regs, .cnt, .hif, .frm, .ctl, .aud, .vid, .flt, .obs, .ddr, .out] s v2 := by
    refine Moves.foldl (fun _ y202 => ?_) ?_
    · refine Moves.ite ?_ ?_
      · split
        · refine Moves.ite ?_ ?_
          · exact Moves.refl _ _
          · refine Moves.seq (drainForget_moves ..) (by decide) ?_
            refine Moves.seq (legMove_moves ..) (by decide) ?_
            exact Moves.refl _ _
        · exact Moves.refl _ _
      · refine Moves.ite ?_ ?_
        · split
          · refine Moves.ite ?_ ?_
            · exact Moves.refl _ _
            · refine Moves.seq (drainForget_moves ..) (by decide) ?_
              refine Moves.seq (actMove_moves ..) (by decide) ?_
              exact Moves.refl _ _
          · exact Moves.refl _ _
        · refine Moves.ite ?_ ?_
          · refine Moves.seq (drainForget_moves ..) (by decide) ?_
            refine Moves.frm_with (by decide) ?_
            exact Moves.refl _ _
          · exact Moves.refl _ _
    · exact h200
  have h203 : Moves [.mem, .regs, .cnt, .hif, .frm, .ctl, .aud, .vid, .flt, .obs, .ddr, .out] s v3 := by
    refine Moves.seq (encTurn_moves ..) (by decide) ?_
    refine Moves.seq (decTurn_moves ..) (by decide) ?_
    exact h201
  split
  · refine Moves.ite ?_ ?_
    · refine Moves.seq (testRestored_moves ..) (by decide) ?_
      exact h203
    · exact h203
  · exact h203

theorem bayBoundary_moves (a0 s) : Moves [.mem, .regs, .cnt, .hif, .frm, .ctl, .aud, .vid, .flt, .obs, .ddr, .out] s (bayBoundary a0 s) := by
  unfold bayBoundary
  refine Moves.foldl (fun _ y0 => ?_) ?_
  · refine Moves.ite ?_ ?_
    · refine Moves.seq (baySet_moves ..) (by decide) ?_
      exact Moves.refl _ _
    · refine Moves.ite ?_ ?_
      · refine Moves.seq (bayReturns_moves ..) (by decide) ?_
        exact Moves.refl _ _
      · exact Moves.refl _ _
  · exact Moves.refl _ _

theorem execLockstepMismatch_runs (a0 s) : Runs [.mem, .regs, .cnt, .hif, .flt, .ddr, .ldg, .out] s (execLockstepMismatch a0 s) := by
  unfold execLockstepMismatch
  refine Runs.next ?_
  refine Moves.ite ?_ ?_
  · exact Moves.refl _ _
  · extract_lets v0 v1 v2 v3 v4 v5
    have h200 : Moves [.mem, .regs, .cnt, .hif, .flt, .ddr, .ldg, .out] s v2 := by
      refine Moves.flt_with (by decide) ?_
      exact Moves.refl _ _
    have h201 : Moves [.mem, .regs, .cnt, .hif, .flt, .ddr, .ldg, .out] s v5 := by
      unfold v5
      refine Moves.seq (faultDeclare_moves ..) (by decide) ?_
      refine Moves.flt_with (by decide) ?_
      exact h200
    refine Moves.ite ?_ ?_
    · exact h200
    · refine Moves.seq (raiseUnit_moves ..) (by decide) ?_
      refine Moves.seq (cinc_moves ..) (by decide) ?_
      exact h201

theorem execRmSelftestDone_runs (a0 a1 s) : Runs [.mem, .regs, .cnt, .hif, .flt, .ddr, .ldg, .out] s (execRmSelftestDone a0 a1 s) := by
  unfold execRmSelftestDone
  refine Runs.next ?_
  refine Moves.ite ?_ ?_
  · exact Moves.refl _ _
  · refine Moves.ite ?_ ?_
    · refine Moves.flt_with (by decide) ?_
      exact Moves.refl _ _
    · refine Moves.ite ?_ ?_
      · exact Moves.refl _ _
      · extract_lets v0 v1 v2
        have h200 : Moves [.mem, .regs, .cnt, .hif, .flt, .ddr, .ldg, .out] s v2 := by
          unfold v2
          refine Moves.seq (faultDeclare_moves ..) (by decide) ?_
          refine Moves.flt_with (by decide) ?_
          exact Moves.refl _ _
        refine Moves.seq (raiseUnit_moves ..) (by decide) ?_
        refine Moves.seq (fset_moves ..) (by decide) ?_
        refine Moves.seq (fset_moves ..) (by decide) ?_
        exact h200

theorem applyFaultlogRead_moves (a0 s) : Moves [.mem] s (applyFaultlogRead a0 s).1 := by
  unfold applyFaultlogRead
  extract_lets v0 v1 v2 v3
  refine Moves.ite_fst ?_ ?_
  · refine Moves.mk_fst ?_
    exact Moves.refl _ _
  · refine Moves.ite_fst ?_ ?_
    · refine Moves.mk_fst ?_
      exact Moves.refl _ _
    · refine Moves.mk_fst ?_
      refine Moves.seq (hostWrite_moves ..) (by decide) ?_
      exact Moves.refl _ _

end Sys2Proof.Machine
end

