-- ==== Sys2Proof/Laws/ChDdr.lean ====
section
/-! SUPPORT. What each operation of Machine/Ddr.lean may change: one lemma for each, which says every part of State that it
can alter, and that it keeps the invariant. -/

set_option Elab.async false

namespace Sys2Proof.Machine

theorem bufLost_moves (a0 a1 s) : Moves [.mem, .regs, .cnt, .hif, .egr, .fwd, .vid, .ddr, .out] s (bufLost a0 a1 s) := by
  unfold bufLost
  split
  · exact Moves.refl _ _
  · refine Moves.ite ?_ ?_
    · exact Moves.refl _ _
    · extract_lets v0
      split
      · refine Moves.seq (sessMark_moves ..) (by decide) ?_
        exact Moves.refl _ _
      · extract_lets v200 v201
        have h400 : Moves [.mem, .regs, .cnt, .hif, .egr, .fwd, .vid, .ddr, .out] s v201 := by
          refine Moves.ite ?_ ?_
          · exact Moves.refl _ _
          · refine Moves.seq (missingRef_moves ..) (by decide) ?_
            exact Moves.refl _ _
        refine Moves.ite ?_ ?_
        · refine Moves.seq (sessPut_moves ..) (by decide) ?_
          exact Moves.refl _ _
        · refine Moves.seq (sessPut_moves ..) (by decide) ?_
          exact h400

theorem jrLost_moves (a0 a1 s) : Moves [.ctl] s (jrLost a0 a1 s) := by
  unfold jrLost
  split
  · exact Moves.refl _ _
  · refine Moves.seq (streamPut_moves ..) (by decide) ?_
    exact Moves.refl _ _

theorem rwLost_moves (a0 a1 s) : Moves [.egr] s (rwLost a0 a1 s) := by
  unfold rwLost
  split
  · exact Moves.refl _ _
  · refine Moves.egr_with (by decide) ?_
    exact Moves.refl _ _

theorem dataLost_moves (a0 a1 a2 s) : Moves [.mem, .regs, .cnt, .hif, .ctl, .egr, .fwd, .vid, .ddr, .out] s (dataLost a0 a1 a2 s) := by
  unfold dataLost
  extract_lets v0 v1
  have h200 : Moves [.mem, .regs, .cnt, .hif, .ctl, .egr, .fwd, .vid, .ddr, .out] s v0 := by
    refine Moves.foldl (fun _ y201 => ?_) ?_
    · refine Moves.seq (jrLost_moves ..) (by decide) ?_
      exact Moves.refl _ _
    · exact Moves.refl _ _
  have h202 : Moves [.mem, .regs, .cnt, .hif, .ctl, .egr, .fwd, .vid, .ddr, .out] s v1 := by
    refine Moves.foldl (fun _ y203 => ?_) ?_
    · refine Moves.seq (rwLost_moves ..) (by decide) ?_
      exact Moves.refl _ _
    · exact h200
  refine Moves.foldl (fun _ y204 => ?_) ?_
  · refine Moves.seq (bufLost_moves ..) (by decide) ?_
    exact Moves.refl _ _
  · exact h202

theorem owedReport_moves (s) : Moves [.mem, .regs, .cnt, .hif, .obs, .ddr, .out] s (owedReport s) := by
  unfold owedReport
  refine Moves.foldl (fun _ y0 => ?_) ?_
  · refine Moves.seq (determinismLost_moves ..) (by decide) ?_
    exact Moves.refl _ _
  · exact Moves.refl _ _

theorem execDdrEccCorrected_runs (a0 a1 a2 a3 s) : Runs [.mem, .regs, .cnt, .hif, .flt, .ddr, .out] s (execDdrEccCorrected a0 a1 a2 a3 s) := by
  unfold execDdrEccCorrected
  refine Runs.ite ?_ ?_
  · refine Runs.next ?_
    exact Moves.refl _ _
  · extract_lets v0 v1 v2 v3 v4 v5
    have h200 : Moves [.mem, .regs, .cnt, .hif, .flt, .ddr, .out] s v0 := by
      refine Moves.seq (cinc_moves ..) (by decide) ?_
      exact Moves.refl _ _
    have h201 : Moves [.mem, .regs, .cnt, .hif, .flt, .ddr, .out] s v4 := by
      refine Moves.ddr_with (by decide) ?_
      exact h200
    have h202 : Moves [.mem, .regs, .cnt, .hif, .flt, .ddr, .out] s v5 := by
      refine Moves.seq (raiseUnit_moves ..) (by decide) ?_
      refine Moves.seq (fset_moves ..) (by decide) ?_
      exact h201
    refine Runs.ite ?_ ?_
    · refine Runs.next ?_
      refine Moves.ddr_with (by decide) ?_
      exact h200
    · refine Runs.next ?_
      refine Moves.seq (suspectReport_moves ..) (by decide) ?_
      exact h202

theorem execDdrEccUncorrectable_runs (a0 a1 a2 a3 a4 s) : Runs [.mem, .regs, .cnt, .hif, .ctl, .egr, .fwd, .vid, .ddr, .out] s (execDdrEccUncorrectable a0 a1 a2 a3 a4 s) := by
  unfold execDdrEccUncorrectable
  extract_lets v0 v1 v2 v3 v4 v5 v6 v7 v8 v9
  have h200 : Moves [.mem, .regs, .cnt, .hif, .ctl, .egr, .fwd, .vid, .ddr, .out] s v1 := by
    refine Moves.seq (cinc_moves ..) (by decide) ?_
    exact Moves.refl _ _
  have h201 : Moves [.mem, .regs, .cnt, .hif, .ctl, .egr, .fwd, .vid, .ddr, .out] s v2 := by
    unfold v2
    split
    · rename_i x202 e203
      have h204 : Moves [.mem, .regs, .cnt, .hif, .ctl, .egr, .fwd, .vid, .ddr, .out] s x202 := by
        refine Moves.of_snd e203 ?_
        refine Moves.seq (rateOk_moves ..) (by decide) ?_
        exact h200
      refine Moves.seq (raiseUnit_moves ..) (by decide) ?_
      exact h204
    · rename_i x205 e206
      have h207 : Moves [.mem, .regs, .cnt, .hif, .ctl, .egr, .fwd, .vid, .ddr, .out] s x205 := by
        refine Moves.of_snd e206 ?_
        refine Moves.seq (rateOk_moves ..) (by decide) ?_
        exact h200
      exact h207
  have h208 : Moves [.mem, .regs, .cnt, .hif, .ctl, .egr, .fwd, .vid, .ddr, .out] s v5 := by
    refine Moves.ddr_with (by decide) ?_
    exact h201
  have h209 : Moves [.mem, .regs, .cnt, .hif, .ctl, .egr, .fwd, .vid, .ddr, .out] s v7 := by
    refine Moves.ite ?_ ?_
    · refine Moves.ddr_with (by decide) ?_
      exact h208
    · exact h208
  have h210 : Moves [.mem, .regs, .cnt, .hif, .ctl, .egr, .fwd, .vid, .ddr, .out] s v9 := by
    refine Moves.mem_with (by decide) ?_
    exact h209
  refine Runs.ite ?_ ?_
  · refine Runs.next ?_
    exact Moves.refl _ _
  · refine Runs.ite ?_ ?_
    · refine Runs.next ?_
      exact h209
    · refine Runs.next ?_
      refine Moves.seq (dataLost_moves ..) (by decide) ?_
      exact h210

theorem execDdrCaParityAlert_runs (a0 a1 s) : Runs [.cnt, .ddr] s (execDdrCaParityAlert a0 a1 s) := by
  unfold execDdrCaParityAlert
  refine Runs.ite ?_ ?_
  · refine Runs.next ?_
    exact Moves.refl _ _
  · extract_lets v0 v1
    refine Runs.ite ?_ ?_
    · refine Runs.next ?_
      refine Moves.seq (cinc_moves ..) (by decide) ?_
      refine Moves.ddr_with (by decide) ?_
      exact Moves.refl _ _
    · refine Runs.next ?_
      refine Moves.seq (cinc_moves ..) (by decide) ?_
      refine Moves.ddr_with (by decide) ?_
      exact Moves.refl _ _

theorem channelLost_moves (a0 a1 a2 a3 s) : Moves [.mem, .regs, .cnt, .hif, .ctl, .egr, .fwd, .vid, .flt, .obs, .ddr, .ldg, .out] s (channelLost a0 a1 a2 a3 s) := by
  unfold channelLost
  extract_lets v0 v1 v2 v3 v4 v5 v6 v7 v8 v9 v10
  have h200 : Moves [.mem, .regs, .cnt, .hif, .ctl, .egr, .fwd, .vid, .flt, .obs, .ddr, .ldg, .out] s v5 := by
    unfold v5
    refine Moves.seq (faultDeclare_moves ..) (by decide) ?_
    exact Moves.refl _ _
  have h201 : Moves [.mem, .regs, .cnt, .hif, .ctl, .egr, .fwd, .vid, .flt, .obs, .ddr, .ldg, .out] s v8 := by
    refine Moves.seq (fset_moves ..) (by decide) ?_
    refine Moves.ddr_with (by decide) ?_
    exact h200
  have h202 : Moves [.mem, .regs, .cnt, .hif, .ctl, .egr, .fwd, .vid, .flt, .obs, .ddr, .ldg, .out] s v9 := by
    refine Moves.seq (raiseUnit_moves ..) (by decide) ?_
    exact h201
  have h203 : Moves [.mem, .regs, .cnt, .hif, .ctl, .egr, .fwd, .vid, .flt, .obs, .ddr, .ldg, .out] s v10 := by
    refine Moves.foldl (fun _ y204 => ?_) ?_
    · refine Moves.seq (raiseUnit_moves ..) (by decide) ?_
      exact Moves.refl _ _
    · exact h202
  refine Moves.seq (owedReport_moves ..) (by decide) ?_
  refine Moves.seq (dataLost_moves ..) (by decide) ?_
  exact h203

theorem execDdrChannelLoss_runs (a0 a1 a2 a3 s) : Runs [.mem, .regs, .cnt, .hif, .ctl, .egr, .fwd, .vid, .flt, .obs, .ddr, .ldg, .out] s (execDdrChannelLoss a0 a1 a2 a3 s) := by
  unfold execDdrChannelLoss
  refine Runs.ite ?_ ?_
  · refine Runs.next ?_
    refine Moves.seq (channelLost_moves ..) (by decide) ?_
    exact Moves.refl _ _
  · refine Runs.next ?_
    exact Moves.refl _ _

theorem stripeRemap_moves (a0 a1 s) : Moves [.mem, .regs, .cnt, .hif, .ddr, .out] s (stripeRemap a0 a1 s) := by
  unfold stripeRemap
  extract_lets v0 v1 v2 v3 v4 v5
  have h200 : Moves [.mem, .regs, .cnt, .hif, .ddr, .out] s v4 := by
    refine Moves.ddr_with (by decide) ?_
    exact Moves.refl _ _
  have h201 : Moves [.mem, .regs, .cnt, .hif, .ddr, .out] s v5 := by
    refine Moves.seq (fset_moves ..) (by decide) ?_
    refine Moves.seq (fset_moves ..) (by decide) ?_
    exact h200
  refine Moves.seq (raiseUnit_moves ..) (by decide) ?_
  exact h201

theorem remapRun_moves (l before s) : Moves [.mem, .regs, .cnt, .hif, .ddr, .out] s (remapRun l before s) := by
  induction l generalizing s before with
  | nil => exact Moves.refl _ _
  | cons x r ih =>
    unfold remapRun
    exact Moves.trans (Moves.ite (Moves.refl _ _) ((stripeRemap_moves ..).mono (by decide))) (ih ..)

theorem copyStart_moves (a0 s) : Moves [.ddr] s (copyStart a0 s) := by
  unfold copyStart
  extract_lets v0 v1
  refine Moves.ite ?_ ?_
  · exact Moves.refl _ _
  · split
    · refine Moves.ddr_with (by decide) ?_
      exact Moves.refl _ _
    · exact Moves.refl _ _

theorem copyStep_moves (a0 s) : Moves [.mem, .regs, .cnt, .hif, .ddr, .out] s (copyStep a0 s) := by
  unfold copyStep
  split
  · refine Moves.ddr_with (by decide) ?_
    exact Moves.refl _ _
  · extract_lets v0 v1
    refine Moves.ite ?_ ?_
    · refine Moves.seq (raiseUnit_moves ..) (by decide) ?_
      refine Moves.ddr_with (by decide) ?_
      exact Moves.refl _ _
    · refine Moves.ddr_with (by decide) ?_
      exact Moves.refl _ _

theorem scrubRun_moves (a0 s) : Moves [.cnt, .ddr] s (scrubRun a0 s) := by
  unfold scrubRun
  extract_lets v0 v1 v2
  refine Moves.seq (cadd_moves ..) (by decide) ?_
  refine Moves.ddr_with (by decide) ?_
  exact Moves.refl _ _

theorem ddrBoundary_moves (a0 s) : Moves [.mem, .regs, .cnt, .hif, .obs, .ddr, .out] s (ddrBoundary a0 s) := by
  unfold ddrBoundary
  extract_lets v0 v1 v2 v3 v4 v5 v6
  have h200 : Moves [.mem, .regs, .cnt, .hif, .obs, .ddr, .out] s v0 := by
    refine Moves.seq (remapRun_moves ..) (by decide) ?_
    exact Moves.refl _ _
  have h201 : Moves [.mem, .regs, .cnt, .hif, .obs, .ddr, .out] s v2 := by
    refine Moves.ite ?_ ?_
    · exact Moves.refl _ _
    · refine Moves.ddr_with (by decide) ?_
      exact h200
  have h202 : Moves [.mem, .regs, .cnt, .hif, .obs, .ddr, .out] s v3 := by
    refine Moves.foldl (fun _ y203 => ?_) ?_
    · refine Moves.seq (copyStart_moves ..) (by decide) ?_
      exact Moves.refl _ _
    · exact h201
  have h204 : Moves [.mem, .regs, .cnt, .hif, .obs, .ddr, .out] s v4 := by
    refine Moves.ite ?_ ?_
    · exact h201
    · refine Moves.foldl (fun _ y205 => ?_) ?_
      · refine Moves.seq (copyStep_moves ..) (by decide) ?_
        exact Moves.refl _ _
      · exact h202
  have h206 : Moves [.mem, .regs, .cnt, .hif, .obs, .ddr, .out] s v5 := by
    refine Moves.foldl (fun _ y207 => ?_) ?_
    · refine Moves.seq (scrubRun_moves ..) (by decide) ?_
      exact Moves.refl _ _
    · exact h204
  refine Moves.seq (owedReport_moves ..) (by decide) ?_
  refine Moves.ddr_with (by decide) ?_
  exact h206

theorem execDdrRetrainPause_runs (a0 a1 s) : Runs [.regs, .cnt] s (execDdrRetrainPause a0 a1 s) := by
  unfold execDdrRetrainPause
  refine Runs.ite ?_ ?_
  · refine Runs.next ?_
    refine Moves.seq (cinc_moves ..) (by decide) ?_
    refine Moves.seq (fset_moves ..) (by decide) ?_
    refine Moves.seq (fset_moves ..) (by decide) ?_
    exact Moves.refl _ _
  · refine Runs.next ?_
    exact Moves.refl _ _

theorem execStampFloorWrite_runs (s) : Runs [.mem, .regs, .cnt, .hif, .ddr, .ldg, .out] s (execStampFloorWrite s) := by
  unfold execStampFloorWrite
  refine Runs.ite ?_ ?_
  · refine Runs.next ?_
    refine Moves.seq (hdrWrite_moves ..) (by decide) ?_
    exact Moves.refl _ _
  · refine Runs.next ?_
    exact Moves.refl _ _

theorem execLedgerEcc_runs (a0 a1 s) : Runs [.mem, .regs, .cnt, .hif, .ddr, .ldg, .out] s (execLedgerEcc a0 a1 s) := by
  unfold execLedgerEcc
  extract_lets v0 v1 v2 v3 v4 v5 v6
  have h200 : Moves [.mem, .regs, .cnt, .hif, .ddr, .ldg, .out] s v0 := by
    refine Moves.seq (raiseUnit_moves ..) (by decide) ?_
    refine Moves.seq (cinc_moves ..) (by decide) ?_
    exact Moves.refl _ _
  refine Runs.next ?_
  refine Moves.seq (ldgSync_moves ..) (by decide) ?_
  refine Moves.ldg_with (by decide) ?_
  exact h200

end Sys2Proof.Machine
end

