-- ==== Sys2Proof/Laws/ChPwr.lean ====
section
/-! SUPPORT. What each operation of Machine/Pwr.lean may change: one lemma for each, which says every part of State that it
can alter, and that it keeps the invariant. -/

set_option Elab.async false

namespace Sys2Proof.Machine

/-- What a row of one phase changes is what its operation changes. -/
theorem inPhase_runs {ps : List Part} {s x : State} {p : Nat} {f : State → State} (hf : ∀ y, Moves ps y (f y))
    (_ : ∀ p ∈ ([] : List Part), p ∈ ps) (b : Moves ps s x) : Runs ps s (inPhase p f x) := by
  unfold inPhase
  exact Runs.next (Moves.ite (b.trans (hf x)) b)

theorem phaseTo_moves (a0 s) : Moves [.regs] s (phaseTo a0 s) := by
  unfold phaseTo
  refine Moves.seq (fset_moves ..) (by decide) ?_
  exact Moves.refl _ _

theorem mainReset_moves (s) : Moves [.clk, .mem, .regs, .cnt, .cntSh, .hif, .frm, .ctl, .key, .aud, .egr, .src, .fwd, .vid, .flt, .obs, .crsl, .ddr, .dma, .cas, .shown] s (mainReset s) := by
  refine ⟨⟨fun p hp => ?_⟩, fun h => ⟨⟨h.mem.1, rfl, h.mem.2.2.1, h.mem.2.2.2⟩, tsorted_filter _ _ h.regs, cntOk_filter _ h.cnt,
    cntOk_filter _ h.shadow, (⟨by decide, by decide, by decide, by decide⟩ : clkOk State.reset.clk)⟩⟩
  cases p <;> first | exact absurd (by decide) hp | rfl

theorem spiUndefined_moves (a0 a1 s) : Moves [.mem, .free] s (spiUndefined a0 a1 s) := by
  unfold spiUndefined
  extract_lets v0
  refine Moves.seq (spiWrite_moves ..) (by decide) ?_
  refine Moves.seq (takeFree_moves ..) (by decide) ?_
  exact Moves.refl _ _

theorem spiAbort_moves (s) : Moves [.mem, .regs, .pwr, .free] s (spiAbort s) := by
  unfold spiAbort
  split
  · exact Moves.refl _ _
  · extract_lets v0 v1
    have h200 : Moves [.mem, .regs, .pwr, .free] s v1 := by
      refine Moves.seq (fset_moves ..) (by decide) ?_
      refine Moves.seq (fset_moves ..) (by decide) ?_
      refine Moves.pwr_with (by decide) ?_
      exact Moves.refl _ _
    refine Moves.ite ?_ ?_
    · refine Moves.seq (spiUndefined_moves ..) (by decide) ?_
      exact h200
    · exact h200

theorem spiGo_moves (a0 s) : Moves [.regs, .pwr] s (spiGo a0 s) := by
  unfold spiGo
  refine Moves.ite ?_ ?_
  · refine Moves.seq (fset_moves ..) (by decide) ?_
    exact Moves.refl _ _
  · refine Moves.seq (fset_moves ..) (by decide) ?_
    refine Moves.pwr_with (by decide) ?_
    exact Moves.refl _ _

theorem execSpiErase_runs (s) : Runs [.regs, .pwr] s (execSpiErase s) := by
  unfold execSpiErase
  refine Runs.next ?_
  refine Moves.seq (spiGo_moves ..) (by decide) ?_
  exact Moves.refl _ _

theorem execSpiProgram_runs (s) : Runs [.regs, .pwr] s (execSpiProgram s) := by
  unfold execSpiProgram
  refine Runs.next ?_
  refine Moves.seq (spiGo_moves ..) (by decide) ?_
  exact Moves.refl _ _

theorem execSpiRead_runs (s) : Runs [.regs, .pwr] s (execSpiRead s) := by
  unfold execSpiRead
  refine Runs.next ?_
  refine Moves.seq (spiGo_moves ..) (by decide) ?_
  exact Moves.refl _ _

theorem execSpiVerifyFw_runs (s) : Runs [.regs, .pwr] s (execSpiVerifyFw s) := by
  unfold execSpiVerifyFw
  refine Runs.next ?_
  refine Moves.seq (spiGo_moves ..) (by decide) ?_
  exact Moves.refl _ _

theorem execSpiVerifyImage_runs (s) : Runs [.regs, .pwr] s (execSpiVerifyImage s) := by
  unfold execSpiVerifyImage
  refine Runs.next ?_
  refine Moves.seq (spiGo_moves ..) (by decide) ?_
  exact Moves.refl _ _

theorem execSpiOpDone_runs (err s) : Runs [.mem, .regs, .pwr, .free] s (execSpiOpDone err s) := by
  unfold execSpiOpDone
  refine Runs.next ?_
  split
  · exact Moves.refl _ _
  · extract_lets g t fin align
    have ht : Moves [.mem, .regs, .pwr, .free] s t := Moves.seq (fset_moves ..) (by decide) (Moves.seq (fset_moves ..) (by decide)
      (Moves.pwr_with (by decide) (Moves.refl _ _)))
    have hf : ∀ n y, Moves [.mem, .regs, .pwr, .free] s y → Moves [.mem, .regs, .pwr, .free] s (fin n y) := fun n y h => Moves.seq (fset_moves ..) (by decide) h
    refine Moves.ite (hf _ _ ht) (Moves.ite (hf _ _ ?_) ?_)
    · exact Moves.ite (Moves.seq (spiUndefined_moves ..) (by decide) ht)
        (Moves.ite (Moves.seq (spiUndefined_moves ..) (by decide) ht) ht)
    · split
      · exact hf _ _ (Moves.seq (spiWrite_moves ..) (by decide) ht)
      · exact hf _ _ (Moves.seq (spiWrite_moves ..) (by decide) ht)
      · exact hf _ _ (Moves.foldl (fun _ _ => (fset_moves ..).mono (by decide)) ht)
      · exact hf _ _ (Moves.seq (fset_moves ..) (by decide) ht)
      · exact hf _ _ (Moves.seq (fset_moves ..) (by decide) ht)

theorem stopDevice_moves (a0 a1 s) : Moves [.clk, .mem, .regs, .cnt, .cntSh, .hif, .frm, .ctl, .key, .aud, .egr, .src, .fwd, .vid, .flt, .obs, .crsl, .ddr, .dma, .pwr, .cas, .shown, .out, .free] s (stopDevice a0 a1 s) := by
  unfold stopDevice
  extract_lets v0 v1 v2 v3 v4 v5
  have h200 : Moves [.clk, .mem, .regs, .cnt, .cntSh, .hif, .frm, .ctl, .key, .aud, .egr, .src, .fwd, .vid, .flt, .obs, .crsl, .ddr, .dma, .pwr, .cas, .shown, .out, .free] s v1 := by
    refine Moves.seq (spiAbort_moves ..) (by decide) ?_
    refine Moves.seq (zeroise_moves ..) (by decide) ?_
    exact Moves.refl _ _
  have h201 : Moves [.clk, .mem, .regs, .cnt, .cntSh, .hif, .frm, .ctl, .key, .aud, .egr, .src, .fwd, .vid, .flt, .obs, .crsl, .ddr, .dma, .pwr, .cas, .shown, .out, .free] s v4 := by
    refine Moves.pwr_with (by decide) ?_
    exact h200
  have h202 : Moves [.clk, .mem, .regs, .cnt, .cntSh, .hif, .frm, .ctl, .key, .aud, .egr, .src, .fwd, .vid, .flt, .obs, .crsl, .ddr, .dma, .pwr, .cas, .shown, .out, .free] s v5 := by
    refine Moves.ite ?_ ?_
    · refine Moves.seq (cinc_moves ..) (by decide) ?_
      exact h201
    · exact h201
  refine Moves.seq (fset_moves ..) (by decide) ?_
  refine Moves.seq (phaseTo_moves ..) (by decide) ?_
  refine Moves.seq (mainReset_moves ..) (by decide) ?_
  exact h202

theorem execSupplySag_runs (a0 s) : Runs [.clk, .mem, .regs, .cnt, .cntSh, .hif, .frm, .ctl, .key, .aud, .egr, .src, .fwd, .vid, .flt, .obs, .crsl, .ddr, .dma, .pwr, .cas, .shown, .out, .free] s (execSupplySag a0 s) := by
  unfold execSupplySag
  refine Runs.next ?_
  refine Moves.ite ?_ ?_
  · refine Moves.pwr_with (by decide) ?_
    exact Moves.refl _ _
  · refine Moves.ite ?_ ?_
    · exact Moves.refl _ _
    · extract_lets v0
      refine Moves.seq (stopDevice_moves ..) (by decide) ?_
      refine Moves.seq (fset_moves ..) (by decide) ?_
      exact Moves.refl _ _

theorem stopAck_moves (s) : Moves [.regs] s (stopAck s) := by
  unfold stopAck
  refine Moves.ite ?_ ?_
  · exact Moves.refl _ _
  · refine Moves.ite ?_ ?_
    · refine Moves.seq (phaseTo_moves ..) (by decide) ?_
      exact Moves.refl _ _
    · refine Moves.seq (phaseTo_moves ..) (by decide) ?_
      refine Moves.seq (fset_moves ..) (by decide) ?_
      exact Moves.refl _ _

theorem execZeroiseAck_runs (s) : Runs [.regs, .key] s (execZeroiseAck s) := by
  unfold execZeroiseAck
  refine Runs.next ?_
  refine Moves.ite ?_ ?_
  · refine Moves.seq (stopAck_moves ..) (by decide) ?_
    refine Moves.key_with (by decide) ?_
    exact Moves.refl _ _
  · exact Moves.refl _ _

theorem execSaveComplete_runs (s) : Runs [.mem, .regs, .cnt, .hif, .ddr, .ldg, .pwr, .out] s (execSaveComplete s) := by
  unfold execSaveComplete
  refine Runs.next ?_
  split
  · exact Moves.refl _ _
  · refine Moves.ite ?_ ?_
    · exact Moves.refl _ _
    · extract_lets v0 v1 v2 v3 v4 v5 v6 v7
      have h200 : Moves [.mem, .regs, .cnt, .hif, .ddr, .ldg, .pwr, .out] s v4 := by
        refine Moves.ldg_with (by decide) ?_
        exact Moves.refl _ _
      have h201 : Moves [.mem, .regs, .cnt, .hif, .ddr, .ldg, .pwr, .out] s v5 := by
        refine Moves.seq (wearCheck_moves ..) (by decide) ?_
        refine Moves.seq (cinc_moves ..) (by decide) ?_
        refine Moves.seq (cinc_moves ..) (by decide) ?_
        exact h200
      have h202 : Moves [.mem, .regs, .cnt, .hif, .ddr, .ldg, .pwr, .out] s v6 := by
        refine Moves.seq (hdrWrite_moves ..) (by decide) ?_
        exact h201
      refine Moves.seq (phaseTo_moves ..) (by decide) ?_
      refine Moves.seq (fset_moves ..) (by decide) ?_
      refine Moves.pwr_with (by decide) ?_
      exact h202

theorem execSysReset_runs (s) : Runs [.clk, .mem, .regs, .cnt, .cntSh, .hif, .frm, .ctl, .key, .aud, .egr, .src, .fwd, .vid, .flt, .obs, .crsl, .ddr, .dma, .pwr, .cas, .shown, .out, .free] s (execSysReset s) := by
  unfold execSysReset
  refine Runs.next ?_
  refine Moves.ite ?_ ?_
  · refine Moves.seq (phaseTo_moves ..) (by decide) ?_
    exact Moves.refl _ _
  · refine Moves.ite ?_ ?_
    · refine Moves.seq (phaseTo_moves ..) (by decide) ?_
      refine Moves.seq (mainReset_moves ..) (by decide) ?_
      refine Moves.seq (zeroise_moves ..) (by decide) ?_
      exact Moves.refl _ _
    · refine Moves.ite ?_ ?_
      · refine Moves.pwr_with (by decide) ?_
        exact Moves.refl _ _
      · refine Moves.ite ?_ ?_
        · exact Moves.refl _ _
        · refine Moves.seq (stopDevice_moves ..) (by decide) ?_
          exact Moves.refl _ _

theorem execStoppedRelease_runs (s) : Runs [.clk, .mem, .regs, .cnt, .cntSh, .hif, .frm, .ctl, .key, .aud, .egr, .src, .fwd, .vid, .flt, .obs, .crsl, .ddr, .dma, .cas, .shown, .out] s (execStoppedRelease s) := by
  unfold execStoppedRelease
  refine Runs.next ?_
  refine Moves.ite ?_ ?_
  · refine Moves.ite ?_ ?_
    · refine Moves.seq (phaseTo_moves ..) (by decide) ?_
      refine Moves.seq (mainReset_moves ..) (by decide) ?_
      refine Moves.seq (zeroise_moves ..) (by decide) ?_
      exact Moves.refl _ _
    · exact Moves.refl _ _
  · refine Moves.ite ?_ ?_
    · exact Moves.refl _ _
    · refine Moves.ite ?_ ?_
      · exact Moves.refl _ _
      · refine Moves.seq (phaseTo_moves ..) (by decide) ?_
        exact Moves.refl _ _

theorem execKeeperReset_runs (s) : Runs [.clk, .mem, .regs, .cnt, .cntSh, .hif, .frm, .ctl, .key, .aud, .egr, .src, .fwd, .vid, .flt, .obs, .crsl, .ddr, .dma, .pwr, .cas, .shown] s (execKeeperReset s) := by
  unfold execKeeperReset
  extract_lets v0 v1 v2 v3
  have h1 : Moves [.clk, .mem, .regs, .cnt, .cntSh, .hif, .frm, .ctl, .key, .aud, .egr, .src, .fwd, .vid, .flt, .obs, .crsl, .ddr, .dma, .pwr, .cas, .shown] s v1 := (mainReset_moves s).mono (by decide)
  have h3 : Moves [.clk, .mem, .regs, .cnt, .cntSh, .hif, .frm, .ctl, .key, .aud, .egr, .src, .fwd, .vid, .flt, .obs, .crsl, .ddr, .dma, .pwr, .cas, .shown] s v3 := by
    refine ⟨⟨fun p hp => ?_⟩, fun h => ⟨(h1.keeps h).mem, tsorted_filter _ _ h.regs, cntOk_nil, cntOk_nil, (h1.keeps h).clk⟩⟩
    cases p <;> first | exact absurd (by decide) hp | rfl
  exact Runs.next (Moves.ite h3 (Moves.seq (fset_moves ..) (by decide) (Moves.seq (fset_moves ..) (by decide) h3)))

theorem execBootStart_runs (s) : Runs [.regs] s (execBootStart s) := by
  unfold execBootStart
  refine inPhase_runs (fun y0 => ?_) (by decide) ?_
  · refine Moves.seq (phaseTo_moves ..) (by decide) ?_
    exact Moves.refl _ _
  · exact Moves.refl _ _

theorem execRomSelftestDone_runs (a0 a1 s) : Runs [.regs, .flt, .pwr] s (execRomSelftestDone a0 a1 s) := by
  unfold execRomSelftestDone
  refine inPhase_runs (fun y0 => ?_) (by decide) ?_
  · refine Moves.ite ?_ ?_
    · refine Moves.seq (phaseTo_moves ..) (by decide) ?_
      refine Moves.pwr_with (by decide) ?_
      exact Moves.refl _ _
    · refine Moves.ite ?_ ?_
      · refine Moves.seq (phaseTo_moves ..) (by decide) ?_
        refine Moves.pwr_with (by decide) ?_
        exact Moves.refl _ _
      · extract_lets v1 v2 v3
        refine Moves.seq (phaseTo_moves ..) (by decide) ?_
        refine Moves.seq (fset_moves ..) (by decide) ?_
        refine Moves.seq (fset_moves ..) (by decide) ?_
        refine Moves.flt_pwr_with (by decide) (by decide) ?_
        exact Moves.refl _ _
  · exact Moves.refl _ _

theorem execFwVerifyDone_runs (s) : Runs [.regs] s (execFwVerifyDone s) := by
  unfold execFwVerifyDone
  refine inPhase_runs (fun y0 => ?_) (by decide) ?_
  · extract_lets v1 v2 v3
    have h201 : Moves [.regs] y0 v3 := by
      refine Moves.seq (fset_moves ..) (by decide) ?_
      refine Moves.seq (fset_moves ..) (by decide) ?_
      exact Moves.refl _ _
    refine Moves.ite ?_ ?_
    · refine Moves.seq (phaseTo_moves ..) (by decide) ?_
      exact h201
    · refine Moves.seq (phaseTo_moves ..) (by decide) ?_
      refine Moves.seq (fset_moves ..) (by decide) ?_
      exact h201
  · exact Moves.refl _ _

theorem execLedgerReadDone_runs (s) : Runs [.mem, .regs, .cnt, .hif, .flt, .ddr, .ldg, .pwr, .out] s (execLedgerReadDone s) := by
  unfold execLedgerReadDone
  refine inPhase_runs (fun y0 => ?_) (by decide) ?_
  · extract_lets v1 v2 v3 v4 v5 v6 v7 v8 v9 v10
    have hb : ∀ n, min cntMax n < 2 ^ 64 := fun n => by unfold cntMax; omega
    have h4 : Moves [.mem, .regs, .cnt, .hif, .flt, .ddr, .ldg, .pwr, .out] y0 v5 := Moves.seq (hdrWrite_moves ..) (by decide) (Moves.flt_with (by decide) (Moves.refl _ _))
    have h6 : Moves [.mem, .regs, .cnt, .hif, .flt, .ddr, .ldg, .pwr, .out] y0 v6 :=
      Moves.cnt_with (by decide) h4 fun h => cntOk_tset (cntOk_tset (cntOk_tset h.cnt (hb _)) (hb _)) (show v3 < 2 ^ 64 from hb _)
    have h8 : Moves [.mem, .regs, .cnt, .hif, .flt, .ddr, .ldg, .pwr, .out] y0 v8 := Moves.seq (fset_moves ..) (by decide) (Moves.seq (fset_moves ..) (by decide) h6)
    have h10 : Moves [.mem, .regs, .cnt, .hif, .flt, .ddr, .ldg, .pwr, .out] y0 v10 := Moves.ite (Moves.seq (faultLog_moves ..) (by decide) (Moves.pwr_with (by decide) h8)) h8
    exact Moves.seq (phaseTo_moves ..) (by decide) (Moves.seq (fset_moves ..) (by decide) h10)
  · exact Moves.refl _ _

theorem imgTake_moves (a0 a1 a2 s) : Moves [.mem, .regs, .cnt, .hif, .frm, .vid, .crsl, .ddr, .ldg, .pwr, .out, .free] s (imgTake a0 a1 a2 s) := by
  unfold imgTake
  extract_lets v0 v1
  have h200 : Moves [.mem, .regs, .cnt, .hif, .frm, .vid, .crsl, .ddr, .ldg, .pwr, .out, .free] s v0 := by
    refine Moves.seq (fullApply_moves ..) (by decide) ?_
    refine Moves.seq (fset_moves ..) (by decide) ?_
    refine Moves.seq (fset_moves ..) (by decide) ?_
    exact Moves.refl _ _
  refine Moves.seq (phaseTo_moves ..) (by decide) ?_
  refine Moves.pwr_with (by decide) ?_
  exact h200

theorem execImageLoadDone_runs (s) : Runs [.mem, .regs, .cnt, .hif, .frm, .vid, .crsl, .ddr, .ldg, .pwr, .out, .free] s (execImageLoadDone s) := by
  unfold execImageLoadDone
  refine inPhase_runs (fun y0 => ?_) (by decide) ?_
  · split
    · refine Moves.seq (imgTake_moves ..) (by decide) ?_
      refine Moves.seq (fset_moves ..) (by decide) ?_
      refine Moves.seq (fset_moves ..) (by decide) ?_
      exact Moves.refl _ _
    · extract_lets v1
      have h201 : Moves [.mem, .regs, .cnt, .hif, .frm, .vid, .crsl, .ddr, .ldg, .pwr, .out, .free] y0 v1 := by
        refine Moves.seq (fset_moves ..) (by decide) ?_
        exact Moves.refl _ _
      split
      · refine Moves.seq (imgTake_moves ..) (by decide) ?_
        refine Moves.seq (fset_moves ..) (by decide) ?_
        exact h201
      · refine Moves.seq (phaseTo_moves ..) (by decide) ?_
        refine Moves.seq (fset_moves ..) (by decide) ?_
        refine Moves.seq (fset_moves ..) (by decide) ?_
        exact h201
  · exact Moves.refl _ _

theorem refGoodPut_moves (a0 a1 s) : Moves [.regs] s (refGoodPut a0 a1 s) := by
  unfold refGoodPut
  refine Moves.ite ?_ ?_
  · refine Moves.seq (fset_moves ..) (by decide) ?_
    exact Moves.refl _ _
  · refine Moves.seq (fset_moves ..) (by decide) ?_
    exact Moves.refl _ _

theorem execClocksLocked_runs (a0 a1 s) : Runs [.regs] s (execClocksLocked a0 a1 s) := by
  unfold execClocksLocked
  refine inPhase_runs (fun y0 => ?_) (by decide) ?_
  · extract_lets v1 v2 v3 v4 v5
    have h201 : Moves [.regs] y0 v2 := by
      refine Moves.seq (refGoodPut_moves ..) (by decide) ?_
      refine Moves.seq (refGoodPut_moves ..) (by decide) ?_
      exact Moves.refl _ _
    have h202 : Moves [.regs] y0 v4 := by
      refine Moves.seq (fset_moves ..) (by decide) ?_
      exact h201
    refine Moves.seq (phaseTo_moves ..) (by decide) ?_
    refine Moves.seq (fset_moves ..) (by decide) ?_
    refine Moves.seq (fset_moves ..) (by decide) ?_
    exact h202
  · exact Moves.refl _ _

theorem execDramTrainDone_runs (a0 s) : Runs [.mem, .regs, .ddr] s (execDramTrainDone a0 s) := by
  unfold execDramTrainDone
  refine inPhase_runs (fun y0 => ?_) (by decide) ?_
  · extract_lets v1 v2 v3 v4 v5 v6
    have h201 : Moves [.mem, .regs, .ddr] y0 v3 := by
      refine Moves.foldl (fun _ y202 => ?_) ?_
      · refine Moves.seq (fset_moves ..) (by decide) ?_
        refine Moves.seq (fset_moves ..) (by decide) ?_
        refine Moves.seq (fset_moves ..) (by decide) ?_
        exact Moves.refl _ _
      · exact Moves.refl _ _
    refine Moves.ite ?_ ?_
    · refine Moves.seq (phaseTo_moves ..) (by decide) ?_
      refine Moves.seq (fset_moves ..) (by decide) ?_
      exact h201
    · refine Moves.seq (phaseTo_moves ..) (by decide) ?_
      refine Moves.mem_ddr_with (by decide) (by decide) ?_
      exact h201
  · exact Moves.refl _ _

theorem execBaysUpDone_runs (a0 s) : Runs [.mem, .regs, .cnt, .hif, .ddr, .ldg, .out] s (execBaysUpDone a0 s) := by
  unfold execBaysUpDone
  refine inPhase_runs (fun y0 => ?_) (by decide) ?_
  · refine Moves.seq (phaseTo_moves ..) (by decide) ?_
    refine Moves.foldl (fun _ y1 => ?_) ?_
    · refine Moves.ite ?_ ?_
      · extract_lets v2
        refine Moves.seq (baySet_moves ..) (by decide) ?_
        refine Moves.seq (faultLog_moves ..) (by decide) ?_
        exact Moves.refl _ _
      · exact Moves.refl _ _
    · exact Moves.refl _ _
  · exact Moves.refl _ _

theorem execPortsStarted_runs (a0 s) : Runs [.regs, .pwr] s (execPortsStarted a0 s) := by
  unfold execPortsStarted
  refine inPhase_runs (fun y0 => ?_) (by decide) ?_
  · extract_lets v1 v2 v3 v4
    have h201 : Moves [.regs, .pwr] y0 v1 := by
      refine Moves.seq (fset_moves ..) (by decide) ?_
      refine Moves.seq (fset_moves ..) (by decide) ?_
      exact Moves.refl _ _
    have h202 : Moves [.regs, .pwr] y0 v2 := by
      refine Moves.foldl (fun _ y203 => ?_) ?_
      · refine Moves.ite ?_ ?_
        · refine Moves.seq (linkEnable_moves ..) (by decide) ?_
          exact Moves.refl _ _
        · exact Moves.refl _ _
      · exact h201
    have h204 : Moves [.regs, .pwr] y0 v3 := by
      refine Moves.foldl (fun _ y205 => ?_) ?_
      · refine Moves.seq (tdmSettle_moves ..) (by decide) ?_
        exact Moves.refl _ _
      · exact h202
    refine Moves.pwr_with (by decide) ?_
    exact h204
  · exact Moves.refl _ _

theorem firstAlign_moves (s) : Moves [.clk] s (firstAlign s) := by
  unfold firstAlign
  refine Moves.ite ?_ ?_
  · refine Moves.clk_with (by decide) ?_
    exact Moves.refl _ _
  · exact Moves.refl _ _

theorem firstBlock_moves (s) : Moves [.mem, .regs, .cnt, .hif, .ddr, .out] s (firstBlock s) := by
  unfold firstBlock
  extract_lets v0
  refine Moves.seq (raiseUnit_moves ..) (by decide) ?_
  refine Moves.seq (phaseTo_moves ..) (by decide) ?_
  exact Moves.refl _ _

theorem execRailWarn_runs (a0 s) : Runs [.mem, .regs, .cnt, .hif, .ddr, .out] s (execRailWarn a0 s) := by
  unfold execRailWarn
  extract_lets v0
  refine Runs.next ?_
  refine Moves.seq (raiseUnit_moves ..) (by decide) ?_
  refine Moves.seq (fset_moves ..) (by decide) ?_
  exact Moves.refl _ _

theorem senseShow_moves (a0 s) : Moves [.regs] s (senseShow a0 s) := by
  unfold senseShow
  refine Moves.seq (fset_moves ..) (by decide) ?_
  exact Moves.refl _ _

theorem armSync_moves (s) : Moves [.regs] s (armSync s) := by
  unfold armSync
  refine Moves.seq (fset_moves ..) (by decide) ?_
  exact Moves.refl _ _

theorem holdTo_moves (a0 s) : Moves [.mem, .regs, .cnt, .hif, .ddr, .out] s (holdTo a0 s) := by
  unfold holdTo
  refine Moves.ite ?_ ?_
  · refine Moves.seq (armSync_moves ..) (by decide) ?_
    exact Moves.refl _ _
  · extract_lets v0
    have h200 : Moves [.mem, .regs, .cnt, .hif, .ddr, .out] s v0 := by
      refine Moves.seq (armSync_moves ..) (by decide) ?_
      refine Moves.seq (fset_moves ..) (by decide) ?_
      exact Moves.refl _ _
    refine Moves.seq (raiseUnit_moves ..) (by decide) ?_
    exact h200

theorem capTest_moves (a0 a1 a2 a3 s) : Moves [.mem, .regs, .cnt, .hif, .ddr, .out, .free] s (capTest a0 a1 a2 a3 s) := by
  unfold capTest
  extract_lets v0 v1 v2 v3 v4 v5 v6 v7
  have h200 : Moves [.mem, .regs, .cnt, .hif, .ddr, .out, .free] s v0 := by
    refine Moves.seq (senseShow_moves ..) (by decide) ?_
    exact Moves.refl _ _
  have h201 : Moves [.mem, .regs, .cnt, .hif, .ddr, .out, .free] s v4 := by
    refine Moves.ite ?_ ?_
    · exact h200
    · refine Moves.seq (takeFree_moves ..) (by decide) ?_
      exact h200
  have h202 : Moves [.mem, .regs, .cnt, .hif, .ddr, .out, .free] s v6 := by
    refine Moves.seq (fset_moves ..) (by decide) ?_
    refine Moves.seq (fset_moves ..) (by decide) ?_
    exact h201
  refine Moves.ite ?_ ?_
  · refine Moves.seq (holdTo_moves ..) (by decide) ?_
    exact h200
  · refine Moves.ite ?_ ?_
    · refine Moves.ite ?_ ?_
      · refine Moves.seq (holdTo_moves ..) (by decide) ?_
        exact h200
      · exact h200
    · refine Moves.seq (holdTo_moves ..) (by decide) ?_
      exact h202

theorem execHoldupTestPeriodic_runs (a0 a1 a2 a3 s) : Runs [.mem, .regs, .cnt, .hif, .ddr, .pwr, .out, .free] s (execHoldupTestPeriodic a0 a1 a2 a3 s) := by
  unfold execHoldupTestPeriodic
  extract_lets v0 v1
  refine Runs.next ?_
  refine Moves.ite ?_ ?_
  · refine Moves.seq (capTest_moves ..) (by decide) ?_
    refine Moves.pwr_with (by decide) ?_
    exact Moves.refl _ _
  · exact Moves.refl _ _

theorem execHoldupTestRequest_runs (a0 a1 a2 a3 s) : Runs [.mem, .regs, .cnt, .hif, .ddr, .out, .free] s (execHoldupTestRequest a0 a1 a2 a3 s) := by
  unfold execHoldupTestRequest
  refine Runs.next ?_
  refine Moves.seq (capTest_moves ..) (by decide) ?_
  exact Moves.refl _ _

theorem execHoldupDisable_runs (a0 s) : Runs [.regs] s (execHoldupDisable a0 s) := by
  unfold execHoldupDisable
  refine Runs.next ?_
  refine Moves.seq (armSync_moves ..) (by decide) ?_
  refine Moves.seq (fset_moves ..) (by decide) ?_
  exact Moves.refl _ _

theorem execHoldupSenseTimeout_runs (a0 s) : Runs [.mem, .regs, .cnt, .hif, .ddr, .out] s (execHoldupSenseTimeout a0 s) := by
  unfold execHoldupSenseTimeout
  extract_lets v0
  have h200 : Moves [.mem, .regs, .cnt, .hif, .ddr, .out] s v0 := by
    refine Moves.seq (senseShow_moves ..) (by decide) ?_
    exact Moves.refl _ _
  refine Runs.next ?_
  refine Moves.ite ?_ ?_
  · refine Moves.seq (holdTo_moves ..) (by decide) ?_
    exact h200
  · refine Moves.ite ?_ ?_
    · refine Moves.seq (holdTo_moves ..) (by decide) ?_
      exact h200
    · refine Moves.ite ?_ ?_
      · refine Moves.seq (holdTo_moves ..) (by decide) ?_
        exact h200
      · exact h200

theorem execHoldupReverseDetect_runs (a0 s) : Runs [.mem, .regs, .cnt, .hif, .ddr, .out] s (execHoldupReverseDetect a0 s) := by
  unfold execHoldupReverseDetect
  refine Runs.next ?_
  refine Moves.ite ?_ ?_
  · refine Moves.seq (holdTo_moves ..) (by decide) ?_
    refine Moves.seq (senseShow_moves ..) (by decide) ?_
    exact Moves.refl _ _
  · refine Moves.seq (senseShow_moves ..) (by decide) ?_
    exact Moves.refl _ _

theorem execRefclkLoss_runs (a0 s) : Runs [.mem, .regs, .cnt, .hif, .ddr, .out] s (execRefclkLoss a0 s) := by
  unfold execRefclkLoss
  extract_lets v0 v1
  have h200 : Moves [.mem, .regs, .cnt, .hif, .ddr, .out] s v1 := by
    refine Moves.seq (refGoodPut_moves ..) (by decide) ?_
    exact Moves.refl _ _
  refine Runs.next ?_
  refine Moves.ite ?_ ?_
  · exact h200
  · refine Moves.ite ?_ ?_
    · refine Moves.seq (raiseUnit_moves ..) (by decide) ?_
      refine Moves.seq (cinc_moves ..) (by decide) ?_
      refine Moves.seq (fset_moves ..) (by decide) ?_
      exact h200
    · refine Moves.seq (raiseUnit_moves ..) (by decide) ?_
      refine Moves.seq (fset_moves ..) (by decide) ?_
      refine Moves.seq (fset_moves ..) (by decide) ?_
      exact h200

theorem execRefclkRevert_runs (a0 s) : Runs [.pwr] s (execRefclkRevert a0 s) := by
  unfold execRefclkRevert
  refine Runs.next ?_
  refine Moves.ite ?_ ?_
  · refine Moves.pwr_with (by decide) ?_
    exact Moves.refl _ _
  · exact Moves.refl _ _

theorem clockBoundary_moves (s) : Moves [.regs, .pwr] s (clockBoundary s) := by
  unfold clockBoundary
  refine Moves.ite ?_ ?_
  · exact Moves.refl _ _
  · extract_lets v0 v1 v2
    have h200 : Moves [.regs, .pwr] s v2 := by
      refine Moves.seq (refGoodPut_moves ..) (by decide) ?_
      refine Moves.pwr_with (by decide) ?_
      exact Moves.refl _ _
    refine Moves.seq (fset_moves ..) (by decide) ?_
    refine Moves.seq (fset_moves ..) (by decide) ?_
    refine Moves.seq (fset_moves ..) (by decide) ?_
    exact h200

theorem execThermalWarn_runs (a0 a1 s) : Runs [.mem, .regs, .cnt, .hif, .ddr, .pwr, .out] s (execThermalWarn a0 a1 s) := by
  unfold execThermalWarn
  extract_lets v0 v1 v2
  have h200 : Moves [.mem, .regs, .cnt, .hif, .ddr, .pwr, .out] s v0 := by
    refine Moves.seq (fset_moves ..) (by decide) ?_
    exact Moves.refl _ _
  have h201 : Moves [.mem, .regs, .cnt, .hif, .ddr, .pwr, .out] s v2 := by
    refine Moves.pwr_with (by decide) ?_
    exact h200
  refine Runs.next ?_
  refine Moves.ite ?_ ?_
  · exact h200
  · refine Moves.ite ?_ ?_
    · exact h201
    · refine Moves.seq (raiseUnit_moves ..) (by decide) ?_
      refine Moves.seq (cinc_moves ..) (by decide) ?_
      refine Moves.seq (fset_moves ..) (by decide) ?_
      exact h201

theorem execThermalClear_runs (s) : Runs [.mem, .regs, .cnt, .hif, .ddr, .pwr, .out] s (execThermalClear s) := by
  unfold execThermalClear
  extract_lets v0 v1 v2
  have h200 : Moves [.mem, .regs, .cnt, .hif, .ddr, .pwr, .out] s v2 := by
    refine Moves.foldl (fun _ y201 => ?_) ?_
    · refine Moves.seq (fset_moves ..) (by decide) ?_
      exact Moves.refl _ _
    · refine Moves.pwr_with (by decide) ?_
      exact Moves.refl _ _
  refine Runs.next ?_
  refine Moves.ite ?_ ?_
  · refine Moves.seq (raiseUnit_moves ..) (by decide) ?_
    exact h200
  · exact h200

theorem execThermalTrip_runs (a0 a1 s) : Runs [.clk, .mem, .regs, .cnt, .cntSh, .hif, .frm, .ctl, .key, .aud, .egr, .src, .fwd, .vid, .flt, .obs, .crsl, .ddr, .dma, .pwr, .cas, .shown, .out, .free] s (execThermalTrip a0 a1 s) := by
  unfold execThermalTrip
  extract_lets v0 v1
  have h200 : Moves [.clk, .mem, .regs, .cnt, .cntSh, .hif, .frm, .ctl, .key, .aud, .egr, .src, .fwd, .vid, .flt, .obs, .crsl, .ddr, .dma, .pwr, .cas, .shown, .out, .free] s v0 := by
    refine Moves.seq (fset_moves ..) (by decide) ?_
    exact Moves.refl _ _
  refine Runs.next ?_
  refine Moves.ite ?_ ?_
  · exact h200
  · refine Moves.seq (stopDevice_moves ..) (by decide) ?_
    refine Moves.pwr_with (by decide) ?_
    exact h200

theorem wdtKick_moves (s) : Moves [.pwr] s (wdtKick s) := by
  unfold wdtKick
  refine Moves.pwr_with (by decide) ?_
  exact Moves.refl _ _

theorem execPwrWdtKick_runs (s) : Runs [.pwr] s (execPwrWdtKick s) := by
  unfold execPwrWdtKick
  refine Runs.next ?_
  refine Moves.seq (wdtKick_moves ..) (by decide) ?_
  exact Moves.refl _ _

theorem execWatchdogExpiry_runs (s) : Runs [.clk, .mem, .regs, .cnt, .cntSh, .hif, .frm, .ctl, .key, .aud, .egr, .src, .fwd, .vid, .flt, .obs, .crsl, .ddr, .ldg, .dma, .pwr, .cas, .shown, .out, .free] s (execWatchdogExpiry s) := by
  unfold execWatchdogExpiry
  refine Runs.next ?_
  refine Moves.ite ?_ ?_
  · exact Moves.refl _ _
  · extract_lets v0 v1 v2 v3
    have h200 : Moves [.clk, .mem, .regs, .cnt, .cntSh, .hif, .frm, .ctl, .key, .aud, .egr, .src, .fwd, .vid, .flt, .obs, .crsl, .ddr, .ldg, .dma, .pwr, .cas, .shown, .out, .free] s v1 := by
      unfold v1
      refine Moves.seq (faultLog_moves ..) (by decide) ?_
      exact Moves.refl _ _
    have h201 : Moves [.clk, .mem, .regs, .cnt, .cntSh, .hif, .frm, .ctl, .key, .aud, .egr, .src, .fwd, .vid, .flt, .obs, .crsl, .ddr, .ldg, .dma, .pwr, .cas, .shown, .out, .free] s v3 := by
      refine Moves.seq (raiseUnit_moves ..) (by decide) ?_
      refine Moves.seq (cinc_moves ..) (by decide) ?_
      refine Moves.pwr_with (by decide) ?_
      exact h200
    refine Moves.ite ?_ ?_
    · refine Moves.seq (stopDevice_moves ..) (by decide) ?_
      exact h201
    · exact h201

end Sys2Proof.Machine
end

