-- ==== Sys2Proof/Laws/ChFwdRows.lean ====
section
/-! SUPPORT. What each operation of Machine/FwdRows.lean may change: one lemma for each, which says every part of State that it
can alter, and that it keeps the invariant. -/

set_option Elab.async false

namespace Sys2Proof.Machine

theorem fbPush_moves (a0 a1 a2 s) : Moves [.fwd] s (fbPush a0 a1 a2 s) := by
  unfold fbPush
  refine Moves.seq (fwdLegPut_moves ..) (by decide) ?_
  exact Moves.refl _ _

theorem reportsIn_moves (a0 a1 a2 s) : Moves [.fwd] s (reportsIn a0 a1 a2 s) := by
  unfold reportsIn
  refine Moves.foldl (fun _ y0 => ?_) ?_
  · split
    · refine Moves.ite ?_ ?_
      · refine Moves.seq (fbPush_moves ..) (by decide) ?_
        exact Moves.refl _ _
      · exact Moves.refl _ _
    · exact Moves.refl _ _
  · exact Moves.refl _ _

theorem rtcpPart_moves {ps : List Part} {s x : State} {leg arrival : Nat} {key : Nat → Bool → State → State} {p : Nat × Nat × List Nat}
    (hf : ∀ l f y, Moves ps y (key l f y)) (hm : ∀ p ∈ [.ctl, .fwd], p ∈ ps) (b : Moves ps s x) :
    Moves ps s (rtcpPart leg arrival key p x) := by
  have hctl : Part.ctl ∈ ps := hm _ (by decide)
  have hfwd : Part.fwd ∈ ps := hm _ (by decide)
  have fb : ∀ m y, Moves ps s y → Moves ps s (fbPush leg arrival m y) := fun m y h =>
    Moves.seq (fbPush_moves ..) (by simp [hfwd]) h
  have rp : ∀ m y, Moves ps s y → Moves ps s (reportsIn leg arrival m y) := fun m y h =>
    Moves.seq (reportsIn_moves ..) (by simp [hfwd]) h
  unfold rtcpPart
  extract_lets l
  split
  · rename_i t _ _ _
    refine rp _ _ ?_
    unfold t
    split
    · split
      · exact Moves.seq (streamPut_moves ..) (by simp [hctl]) b
      · exact b
    · exact b
  · exact rp _ _ b
  · split
    · exact fb _ _ b
    · exact b
  · exact fb _ _ b
  · exact fb _ _ b
  · exact b.trans (hf ..)
  · exact b.trans (hf ..)
  · exact Moves.ite (fb _ _ b) b
  · exact b

theorem rtcpReceived_moves {ps : List Part} {s x : State} {leg arrival : Nat} {key : Nat → Bool → State → State} {l : List Nat}
    (hf : ∀ l f y, Moves ps y (key l f y)) (hm : ∀ p ∈ [.ctl, .fwd], p ∈ ps) (b : Moves ps s x) :
    Moves ps s (rtcpReceived leg arrival key l x) :=
  Moves.foldl (fun _ y => rtcpPart_moves hf hm (Moves.refl _ y)) b

theorem fwdGo_moves (a0 s) : Moves [.regs, .src] s (fwdGo a0 s) := by
  unfold fwdGo
  refine Moves.seq (stageArm_moves ..) (by decide) ?_
  exact Moves.refl _ _

theorem casForget_moves (a0 s) : Moves [.cas] s (casForget a0 s) := by
  unfold casForget
  refine Moves.cas_with (by decide) ?_
  exact Moves.refl _ _

theorem subscribe_moves (a0 a1 a2 s) : Moves [.fwd, .cas] s (subscribe a0 a1 a2 s).2 := by
  unfold subscribe
  split
  · refine Moves.mk_snd ?_
    refine Moves.seq (casForget_moves ..) (by decide) ?_
    refine Moves.seq (fwdLegPut_moves ..) (by decide) ?_
    exact Moves.refl _ _
  · refine Moves.mk_snd ?_
    exact Moves.refl _ _

theorem unsubscribe_moves (a0 a1 s) : Moves [.fwd, .cas] s (unsubscribe a0 a1 s).2 := by
  unfold unsubscribe
  refine Moves.ite_snd ?_ ?_
  · refine Moves.mk_snd ?_
    exact Moves.refl _ _
  · split
    · refine Moves.mk_snd ?_
      exact Moves.refl _ _
    · refine Moves.ite_snd ?_ ?_
      · refine Moves.mk_snd ?_
        exact Moves.refl _ _
      · refine Moves.mk_snd ?_
        refine Moves.seq (casForget_moves ..) (by decide) ?_
        refine Moves.seq (fwdLegPut_moves ..) (by decide) ?_
        exact Moves.refl _ _

theorem legCap_moves (a0 a1 a2 s) : Moves [.fwd] s (legCap a0 a1 a2 s).2 := by
  unfold legCap
  refine Moves.ite_snd ?_ ?_
  · refine Moves.mk_snd ?_
    exact Moves.refl _ _
  · split
    · refine Moves.mk_snd ?_
      exact Moves.refl _ _
    · refine Moves.ite_snd ?_ ?_
      · refine Moves.mk_snd ?_
        exact Moves.refl _ _
      · refine Moves.mk_snd ?_
        refine Moves.seq (fwdLegPut_moves ..) (by decide) ?_
        exact Moves.refl _ _

theorem fwdApply_moves (a0 a1 s) : Moves [.mem, .regs, .cnt, .hif, .src, .fwd, .obs, .ddr, .cas, .out] s (fwdApply a0 a1 s) := by
  unfold fwdApply
  split
  · exact Moves.refl _ _
  · extract_lets v0 v1
    refine Moves.seq (stageEnd_moves ..) (by decide) ?_
    unfold v1
    split
    · refine Moves.seq (subscribe_moves ..) (by decide) ?_
      exact Moves.refl _ _
    · refine Moves.seq (unsubscribe_moves ..) (by decide) ?_
      exact Moves.refl _ _
    · refine Moves.seq (legCap_moves ..) (by decide) ?_
      exact Moves.refl _ _
    · refine Moves.mk_snd ?_
      exact Moves.refl _ _

theorem execFwdSubscribe_runs (a0 s) : Runs [.regs, .src] s (execFwdSubscribe a0 s) := by
  unfold execFwdSubscribe
  refine Runs.next ?_
  refine Moves.ite ?_ ?_
  · refine Moves.seq (fwdGo_moves ..) (by decide) ?_
    exact Moves.refl _ _
  · exact Moves.refl _ _

theorem execFwdUnsubscribe_runs (a0 s) : Runs [.regs, .src] s (execFwdUnsubscribe a0 s) := by
  unfold execFwdUnsubscribe
  refine Runs.next ?_
  refine Moves.ite ?_ ?_
  · refine Moves.seq (fwdGo_moves ..) (by decide) ?_
    exact Moves.refl _ _
  · exact Moves.refl _ _

theorem execFwdSetLegCap_runs (a0 s) : Runs [.regs, .src] s (execFwdSetLegCap a0 s) := by
  unfold execFwdSetLegCap
  refine Runs.next ?_
  refine Moves.ite ?_ ?_
  · refine Moves.seq (fwdGo_moves ..) (by decide) ?_
    exact Moves.refl _ _
  · exact Moves.refl _ _

theorem execReceiverNack_runs (a0 s) : Runs [.cnt, .egr, .fwd] s (execReceiverNack a0 s) := by
  unfold execReceiverNack
  refine Runs.next ?_
  refine Moves.seq (rtxRun_moves ..) (by decide) ?_
  exact Moves.refl _ _

theorem execUpstreamNack_runs (a0 s) : Runs [.cnt, .egr, .fwd] s (execUpstreamNack a0 s) := by
  unfold execUpstreamNack
  refine Runs.next ?_
  refine Moves.seq (upstreamNack_moves ..) (by decide) ?_
  exact Moves.refl _ _

theorem execFirEscalation_runs (a0 s) : Runs [.cnt, .egr, .fwd, .cas, .free] s (execFirEscalation a0 s) := by
  unfold execFirEscalation
  refine Runs.next ?_
  split
  · exact Moves.refl _ _
  · refine Moves.ite ?_ ?_
    · split
      · refine Moves.seq (fwdFir_moves ..) (by decide) ?_
        exact Moves.refl _ _
      · exact Moves.refl _ _
    · exact Moves.refl _ _

theorem rwStage_moves (a0 a1 s) : Moves [.mem, .regs, .cnt, .hif, .egr, .ddr, .out] s (rwStage a0 a1 s) := by
  unfold rwStage
  split
  · exact Moves.refl _ _
  · extract_lets v0 v1
    have h200 : Moves [.mem, .regs, .cnt, .hif, .egr, .ddr, .out] s v1 := by
      refine Moves.egr_with (by decide) ?_
      exact Moves.refl _ _
    refine Moves.ite ?_ ?_
    · refine Moves.seq (rwResize_moves ..) (by decide) ?_
      exact h200
    · exact h200

theorem execFwdRwResize_runs (a0 a1 s) : Runs [.mem, .regs, .cnt, .hif, .egr, .ddr, .out] s (execFwdRwResize a0 a1 s) := by
  unfold execFwdRwResize
  extract_lets v0 v1
  refine Runs.next ?_
  refine Moves.ite ?_ ?_
  · refine Moves.seq (rwStage_moves ..) (by decide) ?_
    exact Moves.refl _ _
  · exact Moves.refl _ _

theorem applyRewindMark_moves (a0 a1 s) : Moves [.egr] s (applyRewindMark a0 a1 s).1 := by
  unfold applyRewindMark
  extract_lets v0 v1 v2
  refine Moves.ite_fst ?_ ?_
  · refine Moves.mk_fst ?_
    exact Moves.refl _ _
  · refine Moves.ite_fst ?_ ?_
    · refine Moves.mk_fst ?_
      exact Moves.refl _ _
    · split
      · refine Moves.ite_fst ?_ ?_
        · refine Moves.mk_fst ?_
          exact Moves.refl _ _
        · refine Moves.ite_fst ?_ ?_
          · refine Moves.mk_fst ?_
            exact Moves.refl _ _
          · extract_lets v200
            refine Moves.ite_fst ?_ ?_
            · refine Moves.mk_fst ?_
              refine Moves.egr_with (by decide) ?_
              exact Moves.refl _ _
            · refine Moves.mk_fst ?_
              refine Moves.egr_with (by decide) ?_
              exact Moves.refl _ _
      · refine Moves.mk_fst ?_
        exact Moves.refl _ _

end Sys2Proof.Machine
end

