-- ==== Sys2Proof/Laws/ChVerdict.lean ====
section
/-! SUPPORT. What each operation of Machine/Verdict.lean may change: one lemma for each, which says every part of State that it
can alter, and that it keeps the invariant. -/

set_option Elab.async false

namespace Sys2Proof.Machine

theorem verdictDrop_moves (a0 a1 a2 a3 s) : Moves [.cnt] s (verdictDrop a0 a1 a2 a3 s) := by
  unfold verdictDrop
  refine Moves.seq (cinc_moves ..) (by decide) ?_
  refine Moves.seq (cinc_moves ..) (by decide) ?_
  exact Moves.refl _ _

theorem authFail_moves (a0 a1 s) : Moves [.mem, .regs, .cnt, .hif, .ctl, .ddr, .out] s (authFail a0 a1 s) := by
  unfold authFail
  extract_lets v0
  have h200 : Moves [.mem, .regs, .cnt, .hif, .ctl, .ddr, .out] s v0 := by
    refine Moves.seq (verdictDrop_moves ..) (by decide) ?_
    exact Moves.refl _ _
  split
  · exact h200
  · split
    · rename_i x201 e202
      have h203 : Moves [.mem, .regs, .cnt, .hif, .ctl, .ddr, .out] s x201 := by
        refine Moves.of_snd e202 ?_
        refine Moves.seq (rateOk_moves ..) (by decide) ?_
        exact h200
      refine Moves.seq (raiseObj_moves ..) (by decide) ?_
      refine Moves.seq (streamPut_moves ..) (by decide) ?_
      exact h203
    · rename_i x204 e205
      have h206 : Moves [.mem, .regs, .cnt, .hif, .ctl, .ddr, .out] s x204 := by
        refine Moves.of_snd e205 ?_
        refine Moves.seq (rateOk_moves ..) (by decide) ?_
        exact h200
      refine Moves.seq (streamPut_moves ..) (by decide) ?_
      exact h206

theorem receiverRequest_moves (a0 a1 s) : Moves [.cnt, .egr, .fwd, .vid, .cas, .free] s (receiverRequest a0 a1 s) := by
  unfold receiverRequest
  extract_lets v0 v1 v2 v3
  have h200 : Moves [.cnt, .egr, .fwd, .vid, .cas, .free] s v3 := by
    refine Moves.seq (fwdLegPut_moves ..) (by decide) ?_
    exact Moves.refl _ _
  refine Moves.ite ?_ ?_
  · refine Moves.seq (cinc_moves ..) (by decide) ?_
    exact Moves.refl _ _
  · split
    · refine Moves.ite ?_ ?_
      · refine Moves.seq (fwdFir_moves ..) (by decide) ?_
        exact h200
      · refine Moves.seq (fwdPli_moves ..) (by decide) ?_
        exact h200
    · refine Moves.seq (keyRequest_moves ..) (by decide) ?_
      exact h200
    · exact h200

theorem placeEntry_moves (a0 a1 a2 a3 a4 s) : Moves [.mem, .regs, .cnt, .hif, .ctl, .obs, .ddr, .out] s (placeEntry a0 a1 a2 a3 a4 s) := by
  unfold placeEntry
  extract_lets v0 v1
  have h200 : Moves [.mem, .regs, .cnt, .hif, .ctl, .obs, .ddr, .out] s v0 := by
    refine Moves.seq (jrSettle_moves ..) (by decide) ?_
    exact Moves.refl _ _
  split
  · exact h200
  · refine Moves.ite ?_ ?_
    · refine Moves.seq (cinc_moves ..) (by decide) ?_
      exact h200
    · refine Moves.ite ?_ ?_
      · refine Moves.seq (jrAudio_moves ..) (by decide) ?_
        exact h200
      · refine Moves.seq (jrVideo_moves ..) (by decide) ?_
        exact h200

theorem placeRtp_moves (a0 a1 a2 a3 a4 s) : Moves [.mem, .regs, .cnt, .hif, .ctl, .obs, .ddr, .out] s (placeRtp a0 a1 a2 a3 a4 s) := by
  unfold placeRtp
  refine Moves.ite ?_ ?_
  · refine Moves.seq (placeEntry_moves ..) (by decide) ?_
    exact Moves.refl _ _
  · extract_lets v0 v1
    have h200 : Moves [.mem, .regs, .cnt, .hif, .ctl, .obs, .ddr, .out] s v1 := by
      refine Moves.seq (streamPut_moves ..) (by decide) ?_
      exact Moves.refl _ _
    split
    · exact h200
    · split
      · exact h200
      · refine Moves.seq (placeEntry_moves ..) (by decide) ?_
        exact h200

theorem commitRtp_moves (a0 a1 a2 a3 a4 a5 s) : Moves [.mem, .regs, .cnt, .hif, .ctl, .obs, .ddr, .out] s (commitRtp a0 a1 a2 a3 a4 a5 s) := by
  unfold commitRtp
  extract_lets v0 v1 v2 v3 v4 v5
  have h200 : Moves [.mem, .regs, .cnt, .hif, .ctl, .obs, .ddr, .out] s v3 := by
    refine Moves.seq (cadd_moves ..) (by decide) ?_
    refine Moves.seq (cinc_moves ..) (by decide) ?_
    refine Moves.seq (cinc_moves ..) (by decide) ?_
    refine Moves.seq (streamPut_moves ..) (by decide) ?_
    exact Moves.refl _ _
  have h201 : Moves [.mem, .regs, .cnt, .hif, .ctl, .obs, .ddr, .out] s v4 := by
    refine Moves.ite ?_ ?_
    · refine Moves.seq (raiseObj_moves ..) (by decide) ?_
      exact h200
    · exact h200
  have h202 : Moves [.mem, .regs, .cnt, .hif, .ctl, .obs, .ddr, .out] s v5 := by
    refine Moves.seq (capNote_moves ..) (by decide) ?_
    exact h201
  refine Moves.seq (placeRtp_moves ..) (by decide) ?_
  exact h202

theorem verdictRtp_moves (a0 a1 s) : Moves [.mem, .regs, .cnt, .hif, .ctl, .obs, .ddr, .out] s (verdictRtp a0 a1 s) := by
  unfold verdictRtp
  extract_lets v0 v1
  split
  · refine Moves.seq (cinc_moves ..) (by decide) ?_
    refine Moves.seq (streamPut_moves ..) (by decide) ?_
    exact Moves.refl _ _
  · refine Moves.ite ?_ ?_
    · refine Moves.seq (excDeliver_moves ..) (by decide) ?_
      exact Moves.refl _ _
    · refine Moves.ite ?_ ?_
      · refine Moves.seq (verdictDrop_moves ..) (by decide) ?_
        exact Moves.refl _ _
      · refine Moves.ite ?_ ?_
        · refine Moves.seq (verdictDrop_moves ..) (by decide) ?_
          exact Moves.refl _ _
        · split
          · refine Moves.seq (verdictDrop_moves ..) (by decide) ?_
            exact Moves.refl _ _
          · split
            · refine Moves.seq (authFail_moves ..) (by decide) ?_
              exact Moves.refl _ _
            · refine Moves.seq (commitRtp_moves ..) (by decide) ?_
              exact Moves.refl _ _

theorem verdictRtcp_moves (a0 a1 s) : Moves [.mem, .regs, .cnt, .hif, .ctl, .egr, .fwd, .vid, .obs, .ddr, .cas, .out, .free] s (verdictRtcp a0 a1 s) := by
  unfold verdictRtcp
  extract_lets v0 v1 v2 v3
  refine Moves.ite ?_ ?_
  · refine Moves.seq (verdictDrop_moves ..) (by decide) ?_
    exact Moves.refl _ _
  · refine Moves.ite ?_ ?_
    · refine Moves.seq (verdictDrop_moves ..) (by decide) ?_
      exact Moves.refl _ _
    · split
      · refine Moves.seq (authFail_moves ..) (by decide) ?_
        exact Moves.refl _ _
      · extract_lets v200 v201
        have h400 : Moves [.mem, .regs, .cnt, .hif, .ctl, .egr, .fwd, .vid, .obs, .ddr, .cas, .out, .free] s v200 := by
          refine Moves.seq (cinc_moves ..) (by decide) ?_
          refine Moves.seq (streamPut_moves ..) (by decide) ?_
          exact Moves.refl _ _
        have h401 : Moves [.mem, .regs, .cnt, .hif, .ctl, .egr, .fwd, .vid, .obs, .ddr, .cas, .out, .free] s v201 := by
          refine Moves.seq (capNote_moves ..) (by decide) ?_
          exact h400
        refine rtcpReceived_moves (fun _ _ y402 => ?_) (by decide) ?_
        · refine Moves.seq (receiverRequest_moves ..) (by decide) ?_
          exact Moves.refl _ _
        · exact h401

theorem unhold_moves (a0 s) : Moves [.regs, .ctl] s (unhold a0 s) := by
  unfold unhold
  refine Moves.seq (holdSync_moves ..) (by decide) ?_
  refine Moves.ctl_with (by decide) ?_
  exact Moves.refl _ _

theorem verdict_moves (a0 s) : Moves [.mem, .regs, .cnt, .hif, .ctl, .egr, .fwd, .vid, .obs, .ddr, .cas, .out, .free] s (verdict a0 s) := by
  unfold verdict
  extract_lets v0
  have h200 : Moves [.mem, .regs, .cnt, .hif, .ctl, .egr, .fwd, .vid, .obs, .ddr, .cas, .out, .free] s v0 := by
    refine Moves.seq (unhold_moves ..) (by decide) ?_
    exact Moves.refl _ _
  split
  · exact h200
  · refine Moves.ite ?_ ?_
    · refine Moves.seq (verdictRtcp_moves ..) (by decide) ?_
      exact h200
    · refine Moves.seq (verdictRtp_moves ..) (by decide) ?_
      exact h200

theorem verdictRun_moves (fuel stream s) : Moves [.mem, .regs, .cnt, .hif, .ctl, .egr, .fwd, .vid, .obs, .ddr, .cas, .out, .free] s (verdictRun fuel stream s) := by
  induction fuel generalizing s with
  | zero => exact Moves.refl _ _
  | succ n ih =>
    unfold verdictRun
    split
    · exact Moves.refl _ _
    · exact Moves.ite (((verdict_moves ..).mono (by decide)).trans (ih _)) (Moves.refl _ _)

theorem execCipherVerdict_runs (a0 s) : Runs [.mem, .regs, .cnt, .hif, .ctl, .egr, .fwd, .vid, .obs, .ddr, .cas, .out, .free] s (execCipherVerdict a0 s) := by
  unfold execCipherVerdict
  refine Runs.next ?_
  split
  · exact Moves.refl _ _
  · refine Moves.ite ?_ ?_
    · exact Moves.refl _ _
    · extract_lets v0 v1
      have h200 : Moves [.mem, .regs, .cnt, .hif, .ctl, .egr, .fwd, .vid, .obs, .ddr, .cas, .out, .free] s v1 := by
        refine Moves.ctl_with (by decide) ?_
        exact Moves.refl _ _
      refine Moves.seq (verdictRun_moves ..) (by decide) ?_
      exact h200

end Sys2Proof.Machine
end

