-- ==== Sys2Proof/Laws/ChCas.lean ====
section
/-! SUPPORT. What each operation of Machine/Cas.lean may change: one lemma for each, which says every part of State that it
can alter, and that it keeps the invariant. -/

set_option Elab.async false

namespace Sys2Proof.Machine

theorem helloSend_moves (a0 s) : Moves [.cnt, .cas, .free] s (helloSend a0 s) := by
  unfold helloSend
  extract_lets v0 v1
  have h200 : Moves [.cnt, .cas, .free] s v1 := by
    refine Moves.cas_with (by decide) ?_
    exact Moves.refl _ _
  refine Moves.foldl (fun _ y201 => ?_) ?_
  · refine Moves.seq (casSend_moves ..) (by decide) ?_
    exact Moves.refl _ _
  · exact h200

theorem joinOver_moves (s) : Moves [.regs, .cas] s (joinOver s) := by
  unfold joinOver
  refine Moves.seq (casSync_moves ..) (by decide) ?_
  refine Moves.cas_with (by decide) ?_
  exact Moves.refl _ _

theorem joinFail_moves (a0 a1 s) : Moves [.mem, .regs, .cnt, .hif, .ddr, .cas, .out] s (joinFail a0 a1 s) := by
  unfold joinFail
  refine Moves.seq (lopEnd_moves ..) (by decide) ?_
  refine Moves.seq (joinOver_moves ..) (by decide) ?_
  refine Moves.cas_with (by decide) ?_
  exact Moves.refl _ _

theorem joinCancel_moves (a0 s) : Moves [.mem, .regs, .cnt, .hif, .ddr, .cas, .out, .free] s (joinCancel a0 s) := by
  unfold joinCancel
  extract_lets v0 v1 v2
  have h200 : Moves [.mem, .regs, .cnt, .hif, .ddr, .cas, .out, .free] s v1 := by
    refine Moves.foldl (fun _ y201 => ?_) ?_
    · refine Moves.seq (casSend_moves ..) (by decide) ?_
      exact Moves.refl _ _
    · exact Moves.refl _ _
  refine Moves.seq (lopEnd_moves ..) (by decide) ?_
  refine Moves.seq (joinOver_moves ..) (by decide) ?_
  refine Moves.cas_with (by decide) ?_
  exact h200

theorem joinAgree_moves (a0 s) : Moves [.mem, .regs, .cnt, .hif, .ddr, .cas, .out, .free] s (joinAgree a0 s) := by
  unfold joinAgree
  split
  · exact Moves.refl _ _
  · refine Moves.ite ?_ ?_
    · exact Moves.refl _ _
    · refine Moves.ite ?_ ?_
      · extract_lets v0 v1
        refine Moves.cas_with (by decide) ?_
        exact Moves.refl _ _
      · refine lopSafe_moves (fun y200 => ?_) (by decide) ?_
        · refine Moves.seq (joinCancel_moves ..) (by decide) ?_
          exact Moves.refl _ _
        · exact Moves.refl _ _

theorem memberAdd_moves (a0 a1 s) : Moves [.cas] s (memberAdd a0 a1 s) := by
  unfold memberAdd
  extract_lets v0 v1 v2
  have h200 : Moves [.cas] s v1 := by
    refine Moves.seq (casPeerPut_moves ..) (by decide) ?_
    exact Moves.refl _ _
  refine Moves.cas_with (by decide) ?_
  exact h200

theorem memberJoined_moves (a0 a1 s) : Moves [.mem, .regs, .cnt, .hif, .ddr, .out] s (memberJoined a0 a1 s) := by
  unfold memberJoined
  refine Moves.seq (raise_moves ..) (by decide) ?_
  exact Moves.refl _ _

theorem memberDrop_moves (a0 s) : Moves [.regs, .cas] s (memberDrop a0 s) := by
  unfold memberDrop
  refine Moves.seq (casSync_moves ..) (by decide) ?_
  refine Moves.cas_with (by decide) ?_
  exact Moves.refl _ _

theorem joinBoundary_moves (a0 s) : Moves [.mem, .regs, .cnt, .hif, .ddr, .cas, .out, .free] s (joinBoundary a0 s) := by
  unfold joinBoundary
  extract_lets v0 v1 v2
  have h200 : Moves [.mem, .regs, .cnt, .hif, .ddr, .cas, .out, .free] s v0 := by
    unfold v0
    split
    · exact Moves.refl _ _
    · refine Moves.seq (joinAgree_moves ..) (by decide) ?_
      exact Moves.refl _ _
  have h201 : Moves [.mem, .regs, .cnt, .hif, .ddr, .cas, .out, .free] s v1 := by
    refine Moves.foldl (fun _ y202 => ?_) ?_
    · refine Moves.ite ?_ ?_
      · refine Moves.seq (memberJoined_moves ..) (by decide) ?_
        exact Moves.refl _ _
      · exact Moves.refl _ _
    · exact h200
  have h203 : Moves [.mem, .regs, .cnt, .hif, .ddr, .cas, .out, .free] s v2 := by
    unfold v2
    split
    · exact h201
    · split
      · refine Moves.ite ?_ ?_
        · refine Moves.seq (joinCancel_moves ..) (by decide) ?_
          exact h201
        · refine Moves.ite ?_ ?_
          · exact h201
          · extract_lets v204 v205
            have h404 : Moves [.mem, .regs, .cnt, .hif, .ddr, .cas, .out, .free] s v205 := by
              refine Moves.foldl (fun _ y405 => ?_) ?_
              · refine Moves.seq (memberJoined_moves ..) (by decide) ?_
                refine Moves.seq (memberAdd_moves ..) (by decide) ?_
                exact Moves.refl _ _
              · exact h201
            refine Moves.seq (lopEnd_moves ..) (by decide) ?_
            refine Moves.seq (joinOver_moves ..) (by decide) ?_
            exact h404
      · exact h201
  refine Moves.seq (casSync_moves ..) (by decide) ?_
  exact h203

theorem joinBegin_moves (a0 s) : Moves [.regs, .cnt, .hif, .cas, .free] s (joinBegin a0 s) := by
  unfold joinBegin
  extract_lets v0 v1 v2
  have h200 : Moves [.regs, .cnt, .hif, .cas, .free] s v1 := by
    refine Moves.seq (lopBegin_moves ..) (by decide) ?_
    exact Moves.refl _ _
  refine Moves.seq (helloSend_moves ..) (by decide) ?_
  refine Moves.seq (casSync_moves ..) (by decide) ?_
  refine Moves.cas_with (by decide) ?_
  exact h200

theorem leaveBegin_moves (a0 s) : Moves [.regs, .cnt, .hif, .cas, .free] s (leaveBegin a0 s) := by
  unfold leaveBegin
  extract_lets v0 v1 v2 v3 v4
  have h200 : Moves [.regs, .cnt, .hif, .cas, .free] s v2 := by
    refine Moves.seq (lopBegin_moves ..) (by decide) ?_
    exact Moves.refl _ _
  have h201 : Moves [.regs, .cnt, .hif, .cas, .free] s v3 := by
    refine Moves.foldl (fun _ y202 => ?_) ?_
    · refine Moves.seq (casSend_moves ..) (by decide) ?_
      exact Moves.refl _ _
    · exact h200
  refine Moves.seq (casSync_moves ..) (by decide) ?_
  refine Moves.cas_with (by decide) ?_
  exact h201

theorem leaveCancel_moves (a0 a1 s) : Moves [.mem, .regs, .cnt, .hif, .ddr, .cas, .out] s (leaveCancel a0 a1 s) := by
  unfold leaveCancel
  refine Moves.seq (lopEnd_moves ..) (by decide) ?_
  refine Moves.seq (casSync_moves ..) (by decide) ?_
  refine Moves.cas_with (by decide) ?_
  exact Moves.refl _ _

theorem leaveBoundary_moves (a0 s) : Moves [.mem, .regs, .cnt, .hif, .ddr, .cas, .out] s (leaveBoundary a0 s) := by
  unfold leaveBoundary
  extract_lets v0 v1 v2
  have h200 : Moves [.mem, .regs, .cnt, .hif, .ddr, .cas, .out] s v0 := by
    unfold v0
    split
    · exact Moves.refl _ _
    · refine lopSafe_moves (fun y201 => ?_) (by decide) ?_
      · refine Moves.seq (leaveCancel_moves ..) (by decide) ?_
        exact Moves.refl _ _
      · exact Moves.refl _ _
  have h202 : Moves [.mem, .regs, .cnt, .hif, .ddr, .cas, .out] s v2 := by
    unfold v2
    split
    · exact h200
    · refine Moves.ite ?_ ?_
      · refine Moves.seq (lopEnd_moves ..) (by decide) ?_
        refine Moves.seq (casSync_moves ..) (by decide) ?_
        refine Moves.cas_with (by decide) ?_
        exact h200
      · exact h200
  refine Moves.foldl (fun _ y203 => ?_) ?_
  · split
    · refine Moves.ite ?_ ?_
      · refine Moves.seq (raise_moves ..) (by decide) ?_
        refine Moves.seq (memberDrop_moves ..) (by decide) ?_
        refine Moves.seq (casPeerPut_moves ..) (by decide) ?_
        exact Moves.refl _ _
      · exact Moves.refl _ _
    · exact Moves.refl _ _
  · exact h202

theorem casAuthFail_moves (a0 s) : Moves [.mem, .regs, .cnt, .hif, .ddr, .cas, .out] s (casAuthFail a0 s) := by
  unfold casAuthFail
  extract_lets v0 v1
  have h200 : Moves [.mem, .regs, .cnt, .hif, .ddr, .cas, .out] s v0 := by
    refine Moves.seq (cinc_moves ..) (by decide) ?_
    exact Moves.refl _ _
  split
  · rename_i x201 e202
    have h203 : Moves [.mem, .regs, .cnt, .hif, .ddr, .cas, .out] s x201 := by
      refine Moves.of_snd e202 ?_
      refine Moves.seq (rateOk_moves ..) (by decide) ?_
      exact h200
    refine Moves.seq (raise_moves ..) (by decide) ?_
    refine Moves.seq (casPeerPut_moves ..) (by decide) ?_
    exact h203
  · rename_i x204 e205
    have h206 : Moves [.mem, .regs, .cnt, .hif, .ddr, .cas, .out] s x204 := by
      refine Moves.of_snd e205 ?_
      refine Moves.seq (rateOk_moves ..) (by decide) ?_
      exact h200
    refine Moves.seq (casPeerPut_moves ..) (by decide) ?_
    exact h206

theorem helloIn_moves (a0 s) : Moves [.cnt, .cas, .free] s (helloIn a0 s) := by
  unfold helloIn
  extract_lets v0 v1 v2 v3 v4 v5
  have h200 : Moves [.cnt, .cas, .free] s v4 := by
    refine Moves.ite ?_ ?_
    · refine Moves.seq (memberAdd_moves ..) (by decide) ?_
      exact Moves.refl _ _
    · exact Moves.refl _ _
  refine Moves.seq (casSend_moves ..) (by decide) ?_
  exact h200

theorem ackIn_moves (a0 s) : Moves [.mem, .regs, .cnt, .hif, .ddr, .cas, .out, .free] s (ackIn a0 s) := by
  unfold ackIn
  split
  · exact Moves.refl _ _
  · refine Moves.ite ?_ ?_
    · exact Moves.refl _ _
    · refine Moves.ite ?_ ?_
      · split
        · refine Moves.seq (joinCancel_moves ..) (by decide) ?_
          exact Moves.refl _ _
        · refine Moves.seq (joinFail_moves ..) (by decide) ?_
          exact Moves.refl _ _
      · extract_lets v0 v1
        refine Moves.seq (joinAgree_moves ..) (by decide) ?_
        refine Moves.cas_with (by decide) ?_
        exact Moves.refl _ _

theorem leaveIn_moves (a0 s) : Moves [.mem, .regs, .cnt, .hif, .ddr, .cas, .out] s (leaveIn a0 s) := by
  unfold leaveIn
  refine Moves.ite ?_ ?_
  · exact Moves.refl _ _
  · refine Moves.seq (leaveBoundary_moves ..) (by decide) ?_
    refine Moves.seq (casPeerPut_moves ..) (by decide) ?_
    exact Moves.refl _ _

theorem casCap_moves (a0 a1 a2 s) : Moves [.obs] s (casCap a0 a1 a2 s) := by
  unfold casCap
  refine Moves.seq (capNote_moves ..) (by decide) ?_
  exact Moves.refl _ _

theorem farTake_moves (a0 a1 a2 a3 s) : Moves [.cas] s (farTake a0 a1 a2 a3 s) := by
  unfold farTake
  extract_lets v0 v1
  refine Moves.seq (casPeerPut_moves ..) (by decide) ?_
  exact Moves.refl _ _

theorem casLate_moves (a0 a1 s) : Moves [.mem, .regs, .cnt, .hif, .ddr, .cas, .out] s (casLate a0 a1 s) := by
  unfold casLate
  refine Moves.ite ?_ ?_
  · exact Moves.refl _ _
  · extract_lets v0 v1
    have h200 : Moves [.mem, .regs, .cnt, .hif, .ddr, .cas, .out] s v0 := by
      refine Moves.seq (cadd_moves ..) (by decide) ?_
      exact Moves.refl _ _
    split
    · rename_i x201 e202
      have h203 : Moves [.mem, .regs, .cnt, .hif, .ddr, .cas, .out] s x201 := by
        refine Moves.of_snd e202 ?_
        refine Moves.seq (rateOk_moves ..) (by decide) ?_
        exact h200
      refine Moves.seq (raise_moves ..) (by decide) ?_
      refine Moves.seq (casPeerPut_moves ..) (by decide) ?_
      exact h203
    · rename_i x204 e205
      have h206 : Moves [.mem, .regs, .cnt, .hif, .ddr, .cas, .out] s x204 := by
        refine Moves.of_snd e205 ?_
        refine Moves.seq (rateOk_moves ..) (by decide) ?_
        exact h200
      refine Moves.seq (casPeerPut_moves ..) (by decide) ?_
      exact h206

theorem audioIn_moves (a0 s) : Moves [.mem, .regs, .cnt, .hif, .obs, .ddr, .cas, .out] s (audioIn a0 s) := by
  unfold audioIn
  extract_lets v0 v1 v2
  have h200 : Moves [.mem, .regs, .cnt, .hif, .obs, .ddr, .cas, .out] s v2 := by
    refine Moves.foldl (fun _ y201 => ?_) ?_
    · split
      · refine Moves.seq (casCap_moves ..) (by decide) ?_
        exact Moves.refl _ _
      · exact Moves.refl _ _
    · exact Moves.refl _ _
  refine Moves.ite ?_ ?_
  · exact Moves.refl _ _
  · refine Moves.ite ?_ ?_
    · refine Moves.seq (casLate_moves ..) (by decide) ?_
      exact Moves.refl _ _
    · refine Moves.seq (farTake_moves ..) (by decide) ?_
      exact h200

theorem videoIn_moves (a0 s) : Moves [.obs, .cas] s (videoIn a0 s) := by
  unfold videoIn
  extract_lets v0 v1 v2 v3 v4 v5
  have h200 : Moves [.obs, .cas] s v3 := by
    refine Moves.foldl (fun _ y201 => ?_) ?_
    · refine Moves.seq (casCap_moves ..) (by decide) ?_
      exact Moves.refl _ _
    · exact Moves.refl _ _
  refine Moves.ite ?_ ?_
  · exact Moves.refl _ _
  · refine Moves.cas_with (by decide) ?_
    exact h200

theorem requestIn_moves (a0 s) : Moves [.cnt, .egr, .fwd, .cas, .free] s (requestIn a0 s) := by
  unfold requestIn
  refine Moves.ite ?_ ?_
  · exact Moves.refl _ _
  · extract_lets v0 v1 v2
    split
    · refine Moves.cas_with (by decide) ?_
      exact Moves.refl _ _
    · refine Moves.cas_with (by decide) ?_
      exact Moves.refl _ _
    · split
      · refine Moves.seq (fwdPli_moves ..) (by decide) ?_
        exact Moves.refl _ _
      · exact Moves.refl _ _
    · split
      · refine Moves.seq (fwdFir_moves ..) (by decide) ?_
        exact Moves.refl _ _
      · exact Moves.refl _ _
    · exact Moves.refl _ _

theorem casDo_moves (a0 s) : Moves [.mem, .regs, .cnt, .hif, .egr, .fwd, .obs, .ddr, .cas, .out, .free] s (casDo a0 s) := by
  unfold casDo
  split
  · refine Moves.seq (helloIn_moves ..) (by decide) ?_
    exact Moves.refl _ _
  · refine Moves.seq (ackIn_moves ..) (by decide) ?_
    exact Moves.refl _ _
  · refine Moves.seq (leaveIn_moves ..) (by decide) ?_
    exact Moves.refl _ _
  · refine Moves.seq (audioIn_moves ..) (by decide) ?_
    exact Moves.refl _ _
  · refine Moves.seq (videoIn_moves ..) (by decide) ?_
    exact Moves.refl _ _
  · refine Moves.seq (requestIn_moves ..) (by decide) ?_
    exact Moves.refl _ _

theorem casIn_moves (a0 s) : Moves [.mem, .regs, .cnt, .hif, .egr, .fwd, .obs, .ddr, .cas, .out, .free] s (casIn a0 s) := by
  unfold casIn
  split
  · refine Moves.seq (cinc_moves ..) (by decide) ?_
    exact Moves.refl _ _
  · refine Moves.ite ?_ ?_
    · exact Moves.refl _ _
    · extract_lets v0 v1
      have h200 : Moves [.mem, .regs, .cnt, .hif, .egr, .fwd, .obs, .ddr, .cas, .out, .free] s v1 := by
        refine Moves.ite ?_ ?_
        · refine Moves.seq (verifyOnly_moves ..) (by decide) ?_
          exact Moves.refl _ _
        · exact Moves.refl _ _
      refine Moves.ite ?_ ?_
      · refine Moves.seq (casAuthFail_moves ..) (by decide) ?_
        exact h200
      · refine Moves.ite ?_ ?_
        · refine Moves.seq (cinc_moves ..) (by decide) ?_
          exact h200
        · refine Moves.seq (casDo_moves ..) (by decide) ?_
          refine Moves.seq (cinc_moves ..) (by decide) ?_
          refine Moves.seq (casPeerPut_moves ..) (by decide) ?_
          exact h200

theorem casInType_moves (a0 a1 s) : Moves [.mem, .regs, .cnt, .hif, .egr, .fwd, .obs, .ddr, .cas, .out, .free] s (casInType a0 a1 s) := by
  unfold casInType
  refine Moves.ite ?_ ?_
  · refine Moves.seq (casIn_moves ..) (by decide) ?_
    exact Moves.refl _ _
  · exact Moves.refl _ _

theorem audioSend_moves (a0 s) : Moves [.cnt, .cas, .free] s (audioSend a0 s) := by
  unfold audioSend
  extract_lets v0
  refine Moves.foldl (fun _ y200 => ?_) ?_
  · refine Moves.foldl (fun _ y201 => ?_) ?_
    · refine Moves.seq (casSend_moves ..) (by decide) ?_
      exact Moves.refl _ _
    · exact Moves.refl _ _
  · exact Moves.refl _ _

theorem audioDueEnd_moves (a0 s) : Moves [.cas] s (audioDueEnd a0 s) := by
  unfold audioDueEnd
  extract_lets v0
  refine Moves.foldl (fun _ y200 => ?_) ?_
  · extract_lets v201 v202 v203
    refine Moves.ite ?_ ?_
    · refine Moves.seq (casPeerPut_moves ..) (by decide) ?_
      exact Moves.refl _ _
    · refine Moves.seq (casPeerPut_moves ..) (by decide) ?_
      exact Moves.refl _ _
  · exact Moves.refl _ _

theorem videoSend_moves (a0 s) : Moves [.cnt, .cas, .free] s (videoSend a0 s) := by
  unfold videoSend
  refine Moves.foldl (fun _ y0 => ?_) ?_
  · split
    · exact Moves.refl _ _
    · extract_lets v1
      refine Moves.foldl (fun _ y201 => ?_) ?_
      · refine Moves.foldl (fun _ y202 => ?_) ?_
        · refine Moves.seq (casSend_moves ..) (by decide) ?_
          exact Moves.refl _ _
        · exact Moves.refl _ _
      · exact Moves.refl _ _
  · exact Moves.refl _ _

theorem videoDue_moves (a0 s) : Moves [.cas] s (videoDue a0 s) := by
  unfold videoDue
  extract_lets v0 v1
  refine Moves.cas_with (by decide) ?_
  exact Moves.refl _ _

theorem wantsBlock_moves (a0 s) : Moves [.cnt, .cas, .free] s (wantsBlock a0 s) := by
  unfold wantsBlock
  extract_lets v0 v1 v2 v3
  have h200 : Moves [.cnt, .cas, .free] s v1 := by
    refine Moves.foldl (fun _ y201 => ?_) ?_
    · split
      · refine Moves.seq (casRequest_moves ..) (by decide) ?_
        refine Moves.cas_with (by decide) ?_
        exact Moves.refl _ _
      · refine Moves.cas_with (by decide) ?_
        exact Moves.refl _ _
      · exact Moves.refl _ _
    · exact Moves.refl _ _
  refine Moves.cas_with (by decide) ?_
  exact h200

theorem casGo_moves (s) : Moves [.regs, .src] s (casGo s) := by
  unfold casGo
  refine Moves.seq (stageArm_moves ..) (by decide) ?_
  exact Moves.refl _ _

theorem casStageDo_moves (a0 s) : Moves [.cas] s (casStageDo a0 s).2 := by
  unfold casStageDo
  extract_lets v0 v1
  split
  · refine Moves.ite_snd ?_ ?_
    · refine Moves.mk_snd ?_
      exact Moves.refl _ _
    · refine Moves.mk_snd ?_
      refine Moves.cas_with (by decide) ?_
      exact Moves.refl _ _
  · refine Moves.ite_snd ?_ ?_
    · refine Moves.mk_snd ?_
      exact Moves.refl _ _
    · refine Moves.mk_snd ?_
      refine Moves.cas_with (by decide) ?_
      exact Moves.refl _ _
  · split
    · refine Moves.ite_snd ?_ ?_
      · refine Moves.mk_snd ?_
        refine Moves.cas_with (by decide) ?_
        exact Moves.refl _ _
      · refine Moves.mk_snd ?_
        exact Moves.refl _ _
    · refine Moves.mk_snd ?_
      exact Moves.refl _ _
  · refine Moves.ite_snd ?_ ?_
    · refine Moves.mk_snd ?_
      exact Moves.refl _ _
    · refine Moves.mk_snd ?_
      refine Moves.cas_with (by decide) ?_
      exact Moves.refl _ _
  · refine Moves.mk_snd ?_
    exact Moves.refl _ _

theorem casApply_moves (a0 s) : Moves [.mem, .regs, .cnt, .hif, .src, .obs, .ddr, .cas, .out] s (casApply a0 s) := by
  unfold casApply
  split
  · exact Moves.refl _ _
  · extract_lets v0 v1 v2 v3 v4 v5
    have h200 : Moves [.mem, .regs, .cnt, .hif, .src, .obs, .ddr, .cas, .out] s v2 := by
      unfold v2
      refine Moves.seq (casStageDo_moves ..) (by decide) ?_
      exact Moves.refl _ _
    have h201 : Moves [.mem, .regs, .cnt, .hif, .src, .obs, .ddr, .cas, .out] s v4 := by
      refine Moves.src_with (by decide) ?_
      exact h200
    have h202 : Moves [.mem, .regs, .cnt, .hif, .src, .obs, .ddr, .cas, .out] s v5 := by
      refine Moves.seq (fset_moves ..) (by decide) ?_
      refine Moves.seq (fset_moves ..) (by decide) ?_
      refine Moves.seq (fset_moves ..) (by decide) ?_
      refine Moves.seq (fset_moves ..) (by decide) ?_
      exact h201
    refine Moves.ite ?_ ?_
    · refine Moves.seq (traceConfig_moves ..) (by decide) ?_
      exact h202
    · exact h202

theorem execCasMapAct_runs (s) : Runs [.regs, .src] s (execCasMapAct s) := by
  unfold execCasMapAct
  refine Runs.next ?_
  refine Moves.ite ?_ ?_
  · refine Moves.seq (casGo_moves ..) (by decide) ?_
    exact Moves.refl _ _
  · exact Moves.refl _ _

theorem execCasUnmapAct_runs (s) : Runs [.regs, .src] s (execCasUnmapAct s) := by
  unfold execCasUnmapAct
  refine Runs.next ?_
  refine Moves.ite ?_ ?_
  · refine Moves.seq (casGo_moves ..) (by decide) ?_
    exact Moves.refl _ _
  · exact Moves.refl _ _

theorem execCasSetSeat_runs (s) : Runs [.regs, .src] s (execCasSetSeat s) := by
  unfold execCasSetSeat
  refine Runs.next ?_
  refine Moves.ite ?_ ?_
  · refine Moves.seq (casGo_moves ..) (by decide) ?_
    exact Moves.refl _ _
  · exact Moves.refl _ _

theorem execCasRemoteSource_runs (s) : Runs [.regs, .src] s (execCasRemoteSource s) := by
  unfold execCasRemoteSource
  refine Runs.next ?_
  refine Moves.ite ?_ ?_
  · refine Moves.seq (casGo_moves ..) (by decide) ?_
    exact Moves.refl _ _
  · exact Moves.refl _ _

theorem casKeyDiscard_moves (s) : Moves [.cas] s (casKeyDiscard s) := by
  unfold casKeyDiscard
  refine Moves.cas_with (by decide) ?_
  exact Moves.refl _ _

theorem execCasKeyLoad_runs (s) : Runs [.regs, .key, .cas] s (execCasKeyLoad s) := by
  unfold execCasKeyLoad
  refine Runs.next ?_
  refine Moves.seq (casKeyDiscard_moves ..) (by decide) ?_
  refine Moves.ite ?_ ?_
  · refine Moves.seq (kr1Put_moves ..) (by decide) ?_
    exact Moves.refl _ _
  · exact Moves.refl _ _

theorem execCasKeyErase_runs (s) : Runs [.regs, .key, .cas] s (execCasKeyErase s) := by
  unfold execCasKeyErase
  refine Runs.next ?_
  refine Moves.seq (casKeyDiscard_moves ..) (by decide) ?_
  refine Moves.seq (kr1Put_moves ..) (by decide) ?_
  exact Moves.refl _ _

theorem execCasKeyAbort_runs (s) : Runs [.cas] s (execCasKeyAbort s) := by
  unfold execCasKeyAbort
  refine Runs.next ?_
  refine Moves.seq (casKeyDiscard_moves ..) (by decide) ?_
  exact Moves.refl _ _

theorem execFrameReceive_runs (a0 a1 a2 a3 a4 a5 s) : Runs [.mem, .regs, .cnt, .hif, .ctl, .egr, .fwd, .obs, .ddr, .cas, .out, .free] s (execFrameReceive a0 a1 a2 a3 a4 a5 s) := by
  unfold execFrameReceive
  extract_lets v0 v1
  have h200 : Moves [.mem, .regs, .cnt, .hif, .ctl, .egr, .fwd, .obs, .ddr, .cas, .out, .free] s v1 := by
    refine Moves.seq (frameIn_moves ..) (by decide) ?_
    exact Moves.refl _ _
  refine Runs.next ?_
  refine Moves.ite ?_ ?_
  · refine Moves.seq (casIn_moves ..) (by decide) ?_
    exact h200
  · exact h200

theorem execCasHello_runs (a0 s) : Runs [.mem, .regs, .cnt, .hif, .egr, .fwd, .obs, .ddr, .cas, .out, .free] s (execCasHello a0 s) := by
  unfold execCasHello
  refine Runs.next ?_
  refine Moves.seq (casInType_moves ..) (by decide) ?_
  exact Moves.refl _ _

theorem execCasJoinAck_runs (a0 s) : Runs [.mem, .regs, .cnt, .hif, .egr, .fwd, .obs, .ddr, .cas, .out, .free] s (execCasJoinAck a0 s) := by
  unfold execCasJoinAck
  refine Runs.next ?_
  refine Moves.seq (casInType_moves ..) (by decide) ?_
  exact Moves.refl _ _

theorem execCasLeave_runs (a0 s) : Runs [.mem, .regs, .cnt, .hif, .egr, .fwd, .obs, .ddr, .cas, .out, .free] s (execCasLeave a0 s) := by
  unfold execCasLeave
  refine Runs.next ?_
  refine Moves.seq (casInType_moves ..) (by decide) ?_
  exact Moves.refl _ _

theorem execCasAudio_runs (a0 s) : Runs [.mem, .regs, .cnt, .hif, .egr, .fwd, .obs, .ddr, .cas, .out, .free] s (execCasAudio a0 s) := by
  unfold execCasAudio
  refine Runs.next ?_
  refine Moves.seq (casInType_moves ..) (by decide) ?_
  exact Moves.refl _ _

theorem execCasVideo_runs (a0 s) : Runs [.mem, .regs, .cnt, .hif, .egr, .fwd, .obs, .ddr, .cas, .out, .free] s (execCasVideo a0 s) := by
  unfold execCasVideo
  refine Runs.next ?_
  refine Moves.seq (casInType_moves ..) (by decide) ?_
  exact Moves.refl _ _

theorem execCasVideoReq_runs (a0 s) : Runs [.mem, .regs, .cnt, .hif, .egr, .fwd, .obs, .ddr, .cas, .out, .free] s (execCasVideoReq a0 s) := by
  unfold execCasVideoReq
  refine Runs.next ?_
  refine Moves.seq (casInType_moves ..) (by decide) ?_
  exact Moves.refl _ _

theorem execHelloResend_runs (s) : Runs [.cnt, .cas, .free] s (execHelloResend s) := by
  unfold execHelloResend
  refine Runs.next ?_
  split
  · exact Moves.refl _ _
  · extract_lets v0 v1
    refine Moves.ite ?_ ?_
    · refine Moves.seq (helloSend_moves ..) (by decide) ?_
      exact Moves.refl _ _
    · exact Moves.refl _ _

theorem execJoinTimeout_runs (s) : Runs [.mem, .regs, .cnt, .hif, .ddr, .cas, .out, .free] s (execJoinTimeout s) := by
  unfold execJoinTimeout
  refine Runs.next ?_
  split
  · exact Moves.refl _ _
  · refine Moves.ite ?_ ?_
    · exact Moves.refl _ _
    · split
      · refine Moves.seq (joinCancel_moves ..) (by decide) ?_
        exact Moves.refl _ _
      · exact Moves.refl _ _
      · refine Moves.seq (joinFail_moves ..) (by decide) ?_
        exact Moves.refl _ _

theorem execMemberLoss_runs (a0 s) : Runs [.mem, .regs, .cnt, .hif, .ddr, .cas, .out] s (execMemberLoss a0 s) := by
  unfold execMemberLoss
  extract_lets v0
  refine Runs.next ?_
  refine Moves.ite ?_ ?_
  · refine Moves.seq (raise_moves ..) (by decide) ?_
    refine Moves.seq (memberDrop_moves ..) (by decide) ?_
    refine Moves.seq (casPeerPut_moves ..) (by decide) ?_
    exact Moves.refl _ _
  · exact Moves.refl _ _

theorem execVideoReqStop_runs (a0 s) : Runs [.cnt, .cas, .free] s (execVideoReqStop a0 s) := by
  unfold execVideoReqStop
  refine Runs.next ?_
  split
  · refine Moves.ite ?_ ?_
    · refine Moves.seq (casRequest_moves ..) (by decide) ?_
      refine Moves.cas_with (by decide) ?_
      exact Moves.refl _ _
    · exact Moves.refl _ _
  · exact Moves.refl _ _

end Sys2Proof.Machine
end

