-- ==== Sys2Proof/Laws/ChWindow.lean ====
section
/-! SUPPORT. What each operation of Machine/Window.lean may change: one lemma for each, which says every part of State that it
can alter, and that it keeps the invariant. -/

set_option Elab.async false

namespace Sys2Proof.Machine

theorem seen_moves (s) : Moves [.ctl, .aud, .egr, .fwd, .vid] s (seen s) := by
  unfold seen
  refine Moves.ctl_aud_egr_fwd_vid_with (by decide) (by decide) (by decide) (by decide) (by decide) ?_
  exact Moves.refl _ _

end Sys2Proof.Machine
end

