-- ==== Sys2Proof/Laws/ChMbx.lean ====
section
/-! SUPPORT. What each operation of Machine/Mbx.lean may change: one lemma for each, which says every part of State that it
can alter, and that it keeps the invariant. -/

set_option Elab.async false

namespace Sys2Proof.Machine

theorem mbxStatus_moves (s) : Moves [.ctl, .aud, .egr, .fwd, .vid] s (mbxStatus s).1 := by
  unfold mbxStatus
  refine Moves.mk_fst ?_
  exact Moves.refl _ _

theorem mbxZeroise_moves (a0 s) : Moves [.mem, .regs, .cnt, .hif, .ctl, .key, .ddr, .cas, .out] s (mbxZeroise a0 s).1 := by
  unfold mbxZeroise
  refine Moves.ite_fst ?_ ?_
  · refine Moves.mk_fst ?_
    exact Moves.refl _ _
  · refine Moves.mk_fst ?_
    refine Moves.seq (zeroise_moves ..) (by decide) ?_
    exact Moves.refl _ _

theorem mbxQuarantine_moves (a0 s) : Moves [.mem, .regs, .cnt, .hif, .frm, .ctl, .aud, .vid, .flt, .obs, .crsl, .ddr, .ldg, .out, .free] s (mbxQuarantine a0 s).1 := by
  unfold mbxQuarantine
  refine Moves.ite_fst ?_ ?_
  · refine Moves.mk_fst ?_
    exact Moves.refl _ _
  · refine Moves.mk_fst ?_
    refine Moves.seq (bayQuarantine_moves ..) (by decide) ?_
    exact Moves.refl _ _

theorem mbxWarmReset_moves (a0 s) : Moves [.regs, .vid, .crsl] s (mbxWarmReset a0 s).1 := by
  unfold mbxWarmReset
  refine Moves.ite_fst ?_ ?_
  · refine Moves.mk_fst ?_
    exact Moves.refl _ _
  · refine Moves.ite_fst ?_ ?_
    · refine Moves.mk_fst ?_
      refine Moves.seq (bayWarmReset_moves ..) (by decide) ?_
      exact Moves.refl _ _
    · refine Moves.mk_fst ?_
      exact Moves.refl _ _

theorem mbxOp_moves (a0 a1 s) : Moves [.mem, .regs, .cnt, .hif, .frm, .ctl, .key, .aud, .egr, .fwd, .vid, .flt, .obs, .crsl, .ddr, .ldg, .pwr, .cas, .out, .free] s (mbxOp a0 a1 s).1 := by
  unfold mbxOp
  refine Moves.ite_fst (Moves.refl _ _) ?_
  split
  · exact Moves.refl _ _
  · exact Moves.refl _ _
  · exact Moves.refl _ _
  · exact (mbxZeroise_moves ..).mono (by decide)
  · exact (mbxQuarantine_moves ..).mono (by decide)
  · exact (mbxWarmReset_moves ..).mono (by decide)
  · exact (wdtKick_moves ..).mono (by decide)
  · exact Moves.refl _ _

theorem mbxReqPut_moves (a0 a1 a2 s) : Moves [.hif] s (mbxReqPut a0 a1 a2 s) := by
  unfold mbxReqPut
  refine Moves.hif_with (by decide) ?_
  exact Moves.refl _ _

theorem mbxGo_moves (s) : Moves [.regs] s (mbxGo s) := by
  unfold mbxGo
  refine Moves.ite ?_ ?_
  · refine Moves.seq (fset_moves ..) (by decide) ?_
    exact Moves.refl _ _
  · refine Moves.seq (fset_moves ..) (by decide) ?_
    exact Moves.refl _ _

theorem mbxRun_moves (s) : Moves [.mem, .regs, .cnt, .hif, .frm, .ctl, .key, .aud, .egr, .fwd, .vid, .flt, .obs, .crsl, .ddr, .ldg, .pwr, .cas, .out, .free] s (mbxRun s) := by
  unfold mbxRun
  refine Moves.ite ?_ ?_
  · exact Moves.refl _ _
  · extract_lets v0 v1 v2 v3 v4 v5
    have h200 : Moves [.mem, .regs, .cnt, .hif, .frm, .ctl, .key, .aud, .egr, .fwd, .vid, .flt, .obs, .crsl, .ddr, .ldg, .pwr, .cas, .out, .free] s v2 := by
      unfold v2
      refine Moves.seq (mbxOp_moves ..) (by decide) ?_
      exact Moves.refl _ _
    have h201 : Moves [.mem, .regs, .cnt, .hif, .frm, .ctl, .key, .aud, .egr, .fwd, .vid, .flt, .obs, .crsl, .ddr, .ldg, .pwr, .cas, .out, .free] s v5 := by
      refine Moves.hif_with (by decide) ?_
      exact h200
    refine Moves.seq (fset_moves ..) (by decide) ?_
    refine Moves.seq (fset_moves ..) (by decide) ?_
    exact h201

theorem mbxRequest_moves (a0 a1 a2 a3 a4 s) : Moves [.mem, .regs, .cnt, .hif, .frm, .ctl, .key, .aud, .egr, .fwd, .vid, .flt, .obs, .crsl, .ddr, .ldg, .pwr, .cas, .out, .free] s (mbxRequest a0 a1 a2 a3 a4 s) := by
  have hrun : ∀ y, Moves [.mem, .regs, .cnt, .hif, .frm, .ctl, .key, .aud, .egr, .fwd, .vid, .flt, .obs, .crsl, .ddr, .ldg, .pwr, .cas, .out, .free] s y → Moves [.mem, .regs, .cnt, .hif, .frm, .ctl, .key, .aud, .egr, .fwd, .vid, .flt, .obs, .crsl, .ddr, .ldg, .pwr, .cas, .out, .free] s (mbxRun y) := fun _ h => Moves.seq (mbxRun_moves ..) (by decide) h
  have hgo : ∀ y, Moves [.mem, .regs, .cnt, .hif, .frm, .ctl, .key, .aud, .egr, .fwd, .vid, .flt, .obs, .crsl, .ddr, .ldg, .pwr, .cas, .out, .free] s y → Moves [.mem, .regs, .cnt, .hif, .frm, .ctl, .key, .aud, .egr, .fwd, .vid, .flt, .obs, .crsl, .ddr, .ldg, .pwr, .cas, .out, .free] s (mbxGo y) := fun _ h => Moves.seq (mbxGo_moves ..) (by decide) h
  unfold mbxRequest
  split
  · refine Moves.ite (Moves.ite (hrun _ (Moves.refl _ _)) (hgo _ (Moves.refl _ _))) (hrun _ (hgo _ ?_))
    exact (mbxReqPut_moves ..).mono (by decide)
  · refine Moves.ite (Moves.refl _ _) ?_
    extract_lets t r
    have ht : Moves [.mem, .regs, .cnt, .hif, .frm, .ctl, .key, .aud, .egr, .fwd, .vid, .flt, .obs, .crsl, .ddr, .ldg, .pwr, .cas, .out, .free] s t := hrun _ (Moves.refl _ _)
    have hr : Moves [.mem, .regs, .cnt, .hif, .frm, .ctl, .key, .aud, .egr, .fwd, .vid, .flt, .obs, .crsl, .ddr, .ldg, .pwr, .cas, .out, .free] s r.1 := Moves.ite_fst ht (ht.trans ((mbxOp_moves ..).mono (by decide)))
    exact Moves.hif_with (by decide) hr

theorem execMbxIdentity_runs (a0 a1 a2 s) : Runs [.mem, .regs, .cnt, .hif, .frm, .ctl, .key, .aud, .egr, .fwd, .vid, .flt, .obs, .crsl, .ddr, .ldg, .pwr, .cas, .out, .free] s (execMbxIdentity a0 a1 a2 s) := by
  unfold execMbxIdentity
  refine Runs.next ?_
  refine Moves.seq (mbxRequest_moves ..) (by decide) ?_
  exact Moves.refl _ _

theorem execMbxStatus_runs (a0 a1 a2 s) : Runs [.mem, .regs, .cnt, .hif, .frm, .ctl, .key, .aud, .egr, .fwd, .vid, .flt, .obs, .crsl, .ddr, .ldg, .pwr, .cas, .out, .free] s (execMbxStatus a0 a1 a2 s) := by
  unfold execMbxStatus
  refine Runs.next ?_
  refine Moves.seq (mbxRequest_moves ..) (by decide) ?_
  exact Moves.refl _ _

theorem execMbxFaultlogRead_runs (a0 a1 a2 a3 s) : Runs [.mem, .regs, .cnt, .hif, .frm, .ctl, .key, .aud, .egr, .fwd, .vid, .flt, .obs, .crsl, .ddr, .ldg, .pwr, .cas, .out, .free] s (execMbxFaultlogRead a0 a1 a2 a3 s) := by
  unfold execMbxFaultlogRead
  refine Runs.next ?_
  refine Moves.seq (mbxRequest_moves ..) (by decide) ?_
  exact Moves.refl _ _

theorem execMbxKeyZeroise_runs (a0 a1 a2 a3 s) : Runs [.mem, .regs, .cnt, .hif, .frm, .ctl, .key, .aud, .egr, .fwd, .vid, .flt, .obs, .crsl, .ddr, .ldg, .pwr, .cas, .out, .free] s (execMbxKeyZeroise a0 a1 a2 a3 s) := by
  unfold execMbxKeyZeroise
  refine Runs.next ?_
  refine Moves.seq (mbxRequest_moves ..) (by decide) ?_
  exact Moves.refl _ _

theorem execMbxBayQuarantine_runs (a0 a1 a2 a3 s) : Runs [.mem, .regs, .cnt, .hif, .frm, .ctl, .key, .aud, .egr, .fwd, .vid, .flt, .obs, .crsl, .ddr, .ldg, .pwr, .cas, .out, .free] s (execMbxBayQuarantine a0 a1 a2 a3 s) := by
  unfold execMbxBayQuarantine
  refine Runs.next ?_
  refine Moves.seq (mbxRequest_moves ..) (by decide) ?_
  exact Moves.refl _ _

theorem execMbxBayWarmReset_runs (a0 a1 a2 a3 s) : Runs [.mem, .regs, .cnt, .hif, .frm, .ctl, .key, .aud, .egr, .fwd, .vid, .flt, .obs, .crsl, .ddr, .ldg, .pwr, .cas, .out, .free] s (execMbxBayWarmReset a0 a1 a2 a3 s) := by
  unfold execMbxBayWarmReset
  refine Runs.next ?_
  refine Moves.seq (mbxRequest_moves ..) (by decide) ?_
  exact Moves.refl _ _

theorem execWdtKick_runs (a0 a1 a2 s) : Runs [.mem, .regs, .cnt, .hif, .frm, .ctl, .key, .aud, .egr, .fwd, .vid, .flt, .obs, .crsl, .ddr, .ldg, .pwr, .cas, .out, .free] s (execWdtKick a0 a1 a2 s) := by
  unfold execWdtKick
  refine Runs.next ?_
  refine Moves.seq (mbxRequest_moves ..) (by decide) ?_
  exact Moves.refl _ _

theorem execSmbusResponseRead_runs (s) : Runs [.out] s (execSmbusResponseRead s) := by
  unfold execSmbusResponseRead
  exact Runs.next (Moves.out_with (by decide) (Moves.refl _ _))

theorem execSmbusBusRecovery_runs (s) : Runs [.mem, .regs, .cnt, .hif, .ddr, .ldg, .out] s (execSmbusBusRecovery s) := by
  unfold execSmbusBusRecovery
  refine Runs.next ?_
  refine Moves.seq (faultLog_moves ..) (by decide) ?_
  refine Moves.hif_with (by decide) ?_
  exact Moves.refl _ _

end Sys2Proof.Machine
end

