-- ==== Sys2Proof/Laws/ChObsOps.lean ====
section
/-! SUPPORT. What each operation of Machine/ObsOps.lean may change: one lemma for each, which says every part of State that it
can alter, and that it keeps the invariant. -/

set_option Elab.async false

namespace Sys2Proof.Machine

theorem capPut_moves (a0 a1 s) : Moves [.obs] s (capPut a0 a1 s) := by
  unfold capPut
  refine Moves.obs_with (by decide) ?_
  exact Moves.refl _ _

theorem capBegin_moves (a0 s) : Moves [.obs] s (capBegin a0 s) := by
  unfold capBegin
  refine Moves.seq (capPut_moves ..) (by decide) ?_
  exact Moves.refl _ _

theorem capEnd_moves (a0 a1 a2 a3 a4 s) : Moves [.mem, .regs, .cnt, .hif, .obs, .ddr, .out] s (capEnd a0 a1 a2 a3 a4 s) := by
  unfold capEnd
  refine Moves.seq (lopEnd_moves ..) (by decide) ?_
  refine Moves.obs_with (by decide) ?_
  exact Moves.refl _ _

theorem capRing_moves (a0 a1 a2 a3 s) : Moves [.mem] s (capRing a0 a1 a2 a3 s) := by
  unfold capRing
  extract_lets v0
  refine Moves.seq (hostWrite_moves ..) (by decide) ?_
  refine Moves.seq (hostWrite_moves ..) (by decide) ?_
  exact Moves.refl _ _

theorem capWrite_moves (a0 a1 a2 s) : Moves [.mem, .regs, .cnt, .hif, .obs, .ddr, .out] s (capWrite a0 a1 a2 s) := by
  unfold capWrite
  extract_lets v0 v1 v2 v3 v4 v5
  have h200 : Moves [.mem, .regs, .cnt, .hif, .obs, .ddr, .out] s v5 := by
    refine Moves.seq (cadd_moves ..) (by decide) ?_
    refine Moves.seq (capRing_moves ..) (by decide) ?_
    exact Moves.refl _ _
  refine Moves.ite ?_ ?_
  · refine Moves.seq (capEnd_moves ..) (by decide) ?_
    exact Moves.refl _ _
  · refine Moves.ite ?_ ?_
    · refine Moves.seq (capPut_moves ..) (by decide) ?_
      exact Moves.refl _ _
    · refine Moves.seq (capPut_moves ..) (by decide) ?_
      refine Moves.seq (fset_moves ..) (by decide) ?_
      exact h200

theorem capClose_moves (a0 a1 a2 a3 s) : Moves [.mem, .regs, .cnt, .hif, .obs, .ddr, .out] s (capClose a0 a1 a2 a3 s) := by
  unfold capClose
  refine Moves.ite ?_ ?_
  · refine Moves.seq (capEnd_moves ..) (by decide) ?_
    exact Moves.refl _ _
  · refine Moves.seq (capPut_moves ..) (by decide) ?_
    exact Moves.refl _ _

theorem capBoundary_moves (a0 a1 s) : Moves [.mem, .regs, .cnt, .hif, .obs, .ddr, .out] s (capBoundary a0 a1 s) := by
  unfold capBoundary
  split
  · exact Moves.refl _ _
  · extract_lets v0
    have h200 : Moves [.mem, .regs, .cnt, .hif, .obs, .ddr, .out] s v0 := by
      refine Moves.ite ?_ ?_
      · refine Moves.seq (capWrite_moves ..) (by decide) ?_
        exact Moves.refl _ _
      · exact Moves.refl _ _
    split
    · split
      · refine Moves.ite ?_ ?_
        · refine Moves.ite ?_ ?_
          · refine Moves.seq (capEnd_moves ..) (by decide) ?_
            exact h200
          · extract_lets v201
            have h401 : Moves [.mem, .regs, .cnt, .hif, .obs, .ddr, .out] s v201 := by
              refine Moves.seq (lopBegin_moves ..) (by decide) ?_
              exact h200
            refine Moves.seq (capPut_moves ..) (by decide) ?_
            exact h401
        · exact h200
      · refine Moves.ite ?_ ?_
        · refine Moves.seq (capClose_moves ..) (by decide) ?_
          exact h200
        · refine Moves.ite ?_ ?_
          · exact h200
          · extract_lets v402 v403
            have h602 : Moves [.mem, .regs, .cnt, .hif, .obs, .ddr, .out] s v403 := by
              refine Moves.seq (capPut_moves ..) (by decide) ?_
              exact h200
            refine Moves.seq (raise_moves ..) (by decide) ?_
            exact h602
      · refine Moves.seq (lopMove_moves ..) (by decide) ?_
        refine Moves.seq (capPut_moves ..) (by decide) ?_
        exact h200
      · refine Moves.seq (capClose_moves ..) (by decide) ?_
        exact h200
      · exact h200
    · exact h200

theorem repBegin_moves (a0 s) : Moves [.obs] s (repBegin a0 s) := by
  unfold repBegin
  refine Moves.seq (repPut_moves ..) (by decide) ?_
  exact Moves.refl _ _

theorem repEnd_moves (a0 a1 a2 a3 a4 s) : Moves [.mem, .regs, .cnt, .hif, .obs, .ddr, .out] s (repEnd a0 a1 a2 a3 a4 s) := by
  unfold repEnd
  extract_lets v0 v1
  refine Moves.seq (lopEnd_moves ..) (by decide) ?_
  refine Moves.obs_with (by decide) ?_
  exact Moves.refl _ _

theorem repStart_moves (a0 a1 a2 s) : Moves [.mem, .regs, .cnt, .hif, .obs, .ddr, .out] s (repStart a0 a1 a2 s) := by
  unfold repStart
  refine Moves.ite ?_ ?_
  · exact Moves.refl _ _
  · refine Moves.ite ?_ ?_
    · refine Moves.seq (repEnd_moves ..) (by decide) ?_
      exact Moves.refl _ _
    · split
      · refine Moves.seq (repEnd_moves ..) (by decide) ?_
        exact Moves.refl _ _
      · refine Moves.ite ?_ ?_
        · refine Moves.seq (repEnd_moves ..) (by decide) ?_
          exact Moves.refl _ _
        · refine Moves.ite ?_ ?_
          · refine Moves.seq (repEnd_moves ..) (by decide) ?_
            exact Moves.refl _ _
          · extract_lets v0
            have h200 : Moves [.mem, .regs, .cnt, .hif, .obs, .ddr, .out] s v0 := by
              refine Moves.seq (lopBegin_moves ..) (by decide) ?_
              exact Moves.refl _ _
            refine Moves.seq (repPut_moves ..) (by decide) ?_
            exact h200

theorem repCas_moves (a0 a1 s) : Moves [.obs, .cas] s (repCas a0 a1 s) := by
  unfold repCas
  extract_lets v0 v1
  refine Moves.ite ?_ ?_
  · refine Moves.seq (videoIn_moves ..) (by decide) ?_
    exact Moves.refl _ _
  · refine Moves.seq (farTake_moves ..) (by decide) ?_
    exact Moves.refl _ _

theorem repInject_moves (a0 a1 s) : Moves [.mem, .regs, .cnt, .hif, .ctl, .egr, .fwd, .vid, .obs, .ddr, .cas, .out, .free] s (repInject a0 a1 s) := by
  unfold repInject
  extract_lets v0 v1
  split
  · refine Moves.ite ?_ ?_
    · refine Moves.seq (repCas_moves ..) (by decide) ?_
      exact Moves.refl _ _
    · exact Moves.refl _ _
  · refine Moves.ite ?_ ?_
    · split
      · refine Moves.seq (streamPut_moves ..) (by decide) ?_
        exact Moves.refl _ _
      · extract_lets v200 v201
        have h400 : Moves [.mem, .regs, .cnt, .hif, .ctl, .egr, .fwd, .vid, .obs, .ddr, .cas, .out, .free] s v201 := by
          refine Moves.seq (cadd_moves ..) (by decide) ?_
          refine Moves.seq (cinc_moves ..) (by decide) ?_
          refine Moves.seq (streamPut_moves ..) (by decide) ?_
          exact Moves.refl _ _
        refine Moves.seq (placeRtp_moves ..) (by decide) ?_
        exact h400
    · refine rtcpReceived_moves (fun _ _ y401 => ?_) (by decide) ?_
      · refine Moves.seq (receiverRequest_moves ..) (by decide) ?_
        exact Moves.refl _ _
      · exact Moves.refl _ _

theorem repFeed_moves (a0 s) : Moves [.mem, .regs, .cnt, .hif, .ctl, .egr, .fwd, .vid, .obs, .ddr, .cas, .out, .free] s (repFeed a0 s) := by
  unfold repFeed
  refine Moves.foldl (fun _ y0 => ?_) ?_
  · refine Moves.ite ?_ ?_
    · exact Moves.refl _ _
    · extract_lets v1 v2
      have h201 : Moves [.mem, .regs, .cnt, .hif, .ctl, .egr, .fwd, .vid, .obs, .ddr, .cas, .out, .free] y0 v2 := by
        refine Moves.foldl (fun _ y202 => ?_) ?_
        · refine Moves.seq (repInject_moves ..) (by decide) ?_
          exact Moves.refl _ _
        · exact Moves.refl _ _
      split
      · exact h201
      · refine Moves.seq (repPut_moves ..) (by decide) ?_
        exact h201
  · exact Moves.refl _ _

theorem repBoundary_moves (a0 a1 s) : Moves [.mem, .regs, .cnt, .hif, .obs, .ddr, .out] s (repBoundary a0 a1 s) := by
  unfold repBoundary
  split
  · exact Moves.refl _ _
  · split
    · exact Moves.refl _ _
    · split
      · refine Moves.seq (repStart_moves ..) (by decide) ?_
        exact Moves.refl _ _
      · refine Moves.ite ?_ ?_
        · refine Moves.seq (repPut_moves ..) (by decide) ?_
          exact Moves.refl _ _
        · exact Moves.refl _ _
      · refine Moves.seq (lopMove_moves ..) (by decide) ?_
        refine Moves.seq (repPut_moves ..) (by decide) ?_
        exact Moves.refl _ _
      · refine Moves.seq (repEnd_moves ..) (by decide) ?_
        exact Moves.refl _ _
      · extract_lets v0 v1 v2 v3 v4 v5
        have h200 : Moves [.mem, .regs, .cnt, .hif, .obs, .ddr, .out] s v5 := by
          refine Moves.seq (repPut_moves ..) (by decide) ?_
          exact Moves.refl _ _
        split
        · extract_lets v201
          have h401 : Moves [.mem, .regs, .cnt, .hif, .obs, .ddr, .out] s v201 := by
            refine Moves.seq (raise_moves ..) (by decide) ?_
            exact Moves.refl _ _
          refine Moves.seq (repEnd_moves ..) (by decide) ?_
          exact h401
        · refine Moves.ite ?_ ?_
          · refine Moves.seq (repEnd_moves ..) (by decide) ?_
            exact Moves.refl _ _
          · refine Moves.ite ?_ ?_
            · refine Moves.seq (repEnd_moves ..) (by decide) ?_
              exact Moves.refl _ _
            · refine Moves.ite ?_ ?_
              · refine Moves.seq (repEnd_moves ..) (by decide) ?_
                exact h200
              · exact h200
      · exact Moves.refl _ _

theorem applyTelemetrySet_moves (a0 a1 s) : Moves [.regs, .obs] s (applyTelemetrySet a0 a1 s).1 := by
  unfold applyTelemetrySet
  extract_lets v0 v1 v2 v3 v4 v5 v6 v7
  have h200 : Moves [.regs, .obs] s v5 := by
    refine Moves.obs_with (by decide) ?_
    exact Moves.refl _ _
  have h201 : Moves [.regs, .obs] s v6 := by
    refine Moves.seq (fset_moves ..) (by decide) ?_
    refine Moves.seq (fset_moves ..) (by decide) ?_
    refine Moves.seq (fset_moves ..) (by decide) ?_
    exact Moves.refl _ _
  refine Moves.ite_fst ?_ ?_
  · refine Moves.mk_fst ?_
    exact Moves.refl _ _
  · refine Moves.ite_fst ?_ ?_
    · refine Moves.mk_fst ?_
      exact h200
    · refine Moves.ite_fst ?_ ?_
      · refine Moves.mk_fst ?_
        exact Moves.refl _ _
      · refine Moves.ite_fst ?_ ?_
        · refine Moves.mk_fst ?_
          exact h200
        · refine Moves.mk_fst ?_
          refine Moves.obs_with (by decide) ?_
          exact h201

theorem telPut_moves (a0 a1 s) : Moves [.obs] s (telPut a0 a1 s) := by
  unfold telPut
  refine Moves.obs_with (by decide) ?_
  exact Moves.refl _ _

theorem telDrop_moves (a0 a1 s) : Moves [.mem, .regs, .cnt, .hif, .obs, .ddr, .out] s (telDrop a0 a1 s) := by
  unfold telDrop
  extract_lets v0 v1 v2
  have h200 : Moves [.mem, .regs, .cnt, .hif, .obs, .ddr, .out] s v0 := by
    refine Moves.seq (cinc_moves ..) (by decide) ?_
    exact Moves.refl _ _
  refine Moves.ite ?_ ?_
  · refine Moves.seq (raise_moves ..) (by decide) ?_
    refine Moves.seq (telPut_moves ..) (by decide) ?_
    refine Moves.seq (rateOk_moves ..) (by decide) ?_
    exact h200
  · refine Moves.seq (telPut_moves ..) (by decide) ?_
    refine Moves.seq (rateOk_moves ..) (by decide) ?_
    exact h200

theorem telSnap_moves (a0 a1 s) : Moves [.mem, .regs, .cnt, .hif, .obs, .ddr, .out] s (telSnap a0 a1 s) := by
  unfold telSnap
  split
  · exact Moves.refl _ _
  · extract_lets v0 v1 v2 v3 v4 v5 v6 v7 v8 v9
    have h200 : Moves [.mem, .regs, .cnt, .hif, .obs, .ddr, .out] s v7 := by
      refine Moves.seq (hostWrite_moves ..) (by decide) ?_
      exact Moves.refl _ _
    have h201 : Moves [.mem, .regs, .cnt, .hif, .obs, .ddr, .out] s v8 := by
      refine Moves.seq (cinc_moves ..) (by decide) ?_
      refine Moves.seq (fset_moves ..) (by decide) ?_
      exact h200
    have h202 : Moves [.mem, .regs, .cnt, .hif, .obs, .ddr, .out] s v9 := by
      refine Moves.ite ?_ ?_
      · refine Moves.seq (fset_moves ..) (by decide) ?_
        exact h201
      · exact h201
    refine Moves.ite ?_ ?_
    · refine Moves.seq (telDrop_moves ..) (by decide) ?_
      exact Moves.refl _ _
    · refine Moves.seq (telPut_moves ..) (by decide) ?_
      exact h202

theorem execTelemetrySnapshot_runs (a0 s) : Runs [.mem, .regs, .cnt, .hif, .obs, .ddr, .out] s (execTelemetrySnapshot a0 s) := by
  unfold execTelemetrySnapshot
  refine Runs.next ?_
  split
  · exact Moves.refl _ _
  · refine Moves.ite ?_ ?_
    · refine Moves.seq (telSnap_moves ..) (by decide) ?_
      exact Moves.refl _ _
    · exact Moves.refl _ _

end Sys2Proof.Machine
end

