-- ==== Sys2Proof/Laws/ChCmd.lean ====
section
/-! SUPPORT. What each operation of Machine/Cmd.lean may change: one lemma for each, which says every part of State that it
can alter, and that it keeps the invariant. -/

set_option Elab.async false

namespace Sys2Proof.Machine

theorem doNop_moves (c s) : Moves [] s (doNop c s).1 := Moves.refl _ _

theorem doIdentify_moves (c s) : Moves [] s (doIdentify c s).1 := Moves.refl _ _

theorem doRingStatus_moves (c s) : Moves [] s (doRingStatus c s).1 := Moves.refl _ _

theorem takeIn_moves (op : Nat) (c : Cmd) (s : State) : Moves [.regs, .hif] s (takeIn op c s).s := by
  unfold takeIn
  extract_lets u n
  have h : Moves [.regs, .hif] s u := Moves.seq (fset_moves ..) (by decide) (Moves.refl _ _)
  split
  · exact h
  · split
    · exact h
    · exact Moves.hif_with (by decide) h

theorem commandRow_moves {ps : List Part} {s x : State} {op : Nat} {c : Cmd} {f : Option Nat → State → State}
    (hf : ∀ o y, Moves ps y (f o y)) (hm : ∀ p ∈ [.mem, .regs, .cnt, .hif, .ddr, .out], p ∈ ps) (b : Moves ps s x) :
    Moves ps s (commandRow op c f x) := by
  unfold commandRow
  refine Moves.ite b ?_
  extract_lets t
  have ht : Moves ps s t.s := Moves.seq (takeIn_moves ..) (fun p h => hm p (by revert p; decide)) b
  split
  · exact Moves.seq (queryEnd_moves ..) (fun p h => hm p (by revert p; decide)) ht
  · exact ht.trans (hf ..)

theorem queryRun_moves {ps : List Part} {s x : State} {op : Nat} {f : Cmd → State → State × Compl}
    {c : Cmd} {slot : Option Nat} (hf : ∀ d y, Moves ps y (f d y).1) (hm : ∀ p ∈ [.mem, .regs, .cnt, .hif, .ddr, .out], p ∈ ps) (b : Moves ps s x) :
    Moves ps s (queryRun op f c slot x) := by
  unfold queryRun
  exact Moves.seq (queryEnd_moves ..) (fun p h => hm p (by revert p; decide)) (b.trans (hf ..))

theorem lopCleanup_moves (a0 s) : Moves [.mem, .regs, .cnt, .hif, .frm, .key, .egr, .vid, .flt, .obs, .ddr, .cas, .out, .free] s (lopCleanup a0 s) := by
  unfold lopCleanup
  extract_lets v0
  have h200 : Moves [.mem, .regs, .cnt, .hif, .frm, .key, .egr, .vid, .flt, .obs, .ddr, .cas, .out, .free] s v0 := by
    refine Moves.seq (lopEnd_moves ..) (by decide) ?_
    exact Moves.refl _ _
  refine Moves.ite ?_ ?_
  · refine Moves.seq (frmCancel_moves ..) (by decide) ?_
    exact Moves.refl _ _
  · refine Moves.ite ?_ ?_
    · refine Moves.seq (expCancel_moves ..) (by decide) ?_
      exact Moves.refl _ _
    · refine Moves.ite ?_ ?_
      · refine Moves.seq (capEnd_moves ..) (by decide) ?_
        exact Moves.refl _ _
      · refine Moves.ite ?_ ?_
        · refine Moves.seq (repEnd_moves ..) (by decide) ?_
          exact Moves.refl _ _
        · refine Moves.ite ?_ ?_
          · split
            · refine Moves.ite ?_ ?_
              · refine Moves.seq (testCancel_moves ..) (by decide) ?_
                exact Moves.refl _ _
              · exact h200
            · exact h200
          · refine Moves.ite ?_ ?_
            · refine Moves.seq (fwEnd_moves ..) (by decide) ?_
              exact Moves.refl _ _
            · refine Moves.ite ?_ ?_
              · split
                · refine Moves.ite ?_ ?_
                  · refine Moves.seq (joinCancel_moves ..) (by decide) ?_
                    exact Moves.refl _ _
                  · exact h200
                · exact h200
              · refine Moves.ite ?_ ?_
                · refine Moves.seq (leaveCancel_moves ..) (by decide) ?_
                  exact Moves.refl _ _
                · exact h200

theorem lopApply_moves (op l s) : Moves [.mem, .regs, .cnt, .hif, .frm, .key, .egr, .vid, .flt, .obs, .ddr, .cas, .out, .free] s (lopApply op l s).1 := by
  have hs : ∀ (x : Rsp), Moves [.mem, .regs, .cnt, .hif, .frm, .key, .egr, .vid, .flt, .obs, .ddr, .cas, .out, .free] s (s, x).1 := fun _ => Moves.refl _ _
  have hc : ∀ (x : Rsp), Moves [.mem, .regs, .cnt, .hif, .frm, .key, .egr, .vid, .flt, .obs, .ddr, .cas, .out, .free] s (lopCleanup l s, x).1 := fun _ => (lopCleanup_moves ..).mono (by decide)
  have ht : ∀ st (x : Rsp), Moves [.mem, .regs, .cnt, .hif, .frm, .key, .egr, .vid, .flt, .obs, .ddr, .cas, .out, .free] s (lopMove l.fn l.tag st s, x).1 := fun _ _ => (lopMove_moves ..).mono (by decide)
  unfold lopApply
  extract_lets go same
  refine Moves.ite_fst ?_ (Moves.ite_fst ?_ (Moves.ite_fst ?_ (hs _)))
  · split
    · exact ht _ _
    · exact ht _ _
    · exact hs _
    · exact hs _
  · split
    · exact ht _ _
    · exact ht _ _
    · exact hs _
    · exact hs _
  · split
    · exact hc _
    · exact hc _
    · exact hs _
    · exact ht _ _

theorem doLop_moves (a0 a1 s) : Moves [.mem, .regs, .cnt, .hif, .frm, .key, .egr, .vid, .flt, .obs, .ddr, .cas, .out, .free] s (doLop a0 a1 s).1 := by
  unfold doLop
  extract_lets v0 v1 v2
  refine Moves.ite_fst ?_ ?_
  · refine Moves.mk_fst ?_
    exact Moves.refl _ _
  · split
    · refine Moves.mk_fst ?_
      exact Moves.refl _ _
    · refine Moves.ite_fst ?_ ?_
      · refine Moves.mk_fst ?_
        exact Moves.refl _ _
      · extract_lets v200 v201 v202
        refine Moves.mk_fst ?_
        refine Moves.seq (lopApply_moves ..) (by decide) ?_
        exact Moves.refl _ _

theorem queryOf_moves (op c s) : Moves [.mem, .regs, .cnt, .hif, .frm, .key, .egr, .vid, .flt, .obs, .ddr, .cas, .out, .free] s (queryOf op c s).1 := by
  unfold queryOf
  split
  · exact (doNop_moves ..).mono (by decide)
  · exact (doIdentify_moves ..).mono (by decide)
  · exact (doRingStatus_moves ..).mono (by decide)
  · exact (doLop_moves ..).mono (by decide)

theorem aonRun_moves {ps : List Part} {s x : State} {op : Nat} {f : Cmd → State → State × Rsp}
    {c : Cmd} {slot : Option Nat} (hf : ∀ d y, Moves ps y (f d y).1) (hm : ∀ p ∈ [.mem, .regs, .cnt, .hif, .frm, .ctl, .key, .aud, .egr, .fwd, .vid, .flt, .obs, .crsl, .ddr, .ldg, .pwr, .cas, .out, .free], p ∈ ps) (b : Moves ps s x) :
    Moves ps s (aonRun op f c slot x) := by
  unfold aonRun
  exact Moves.seq (queryEnd_moves ..) (fun p h => hm p (by revert p; decide))
    ((Moves.seq (mbxRun_moves ..) (fun p h => hm p (by revert p; decide)) b).trans (hf ..))

theorem applyKeyZeroise_moves (a0 s) : Moves [.mem, .regs, .cnt, .hif, .ctl, .key, .ddr, .cas, .out] s (applyKeyZeroise a0 s).1 := by
  unfold applyKeyZeroise
  split
  · refine Moves.mk_fst ?_
    exact Moves.refl _ _
  · extract_lets v0
    refine Moves.mk_fst ?_
    refine Moves.seq (zeroise_moves ..) (by decide) ?_
    exact Moves.refl _ _

theorem aonOf_moves (op c s) : Moves [.mem, .regs, .cnt, .hif, .frm, .ctl, .key, .aud, .vid, .flt, .obs, .crsl, .ddr, .ldg, .cas, .out, .free] s (aonOf op c s).1 := by
  unfold aonOf
  split
  · exact (applyKeyZeroise_moves ..).mono (by decide)
  · exact (applyBayQuarantine_moves ..).mono (by decide)
  · exact (applyBayWarmReset_moves ..).mono (by decide)
  · exact (applyFaultlogRead_moves ..).mono (by decide)

theorem applyOf_moves (op d c b s) : Moves [.mem, .regs, .cnt, .hif, .ctl, .aud, .egr, .src, .fwd, .vid, .flt, .obs, .ddr, .cas, .out] s (applyOf op d c b s).1 := by
  unfold applyOf
  split
  · exact (applyActAdmit_moves ..).mono (by decide)
  · exact (applyActRelease_moves ..).mono (by decide)
  · exact (applyLegAdmit_moves ..).mono (by decide)
  · exact (applyLegStart_moves ..).mono (by decide)
  · exact (applyLegRoute_moves ..).mono (by decide)
  · exact (applyLegRelease_moves ..).mono (by decide)
  · exact (applyStreamAdmit_moves ..).mono (by decide)
  · exact (applyStreamRelease_moves ..).mono (by decide)
  · exact (applyKeyBind_moves ..).mono (by decide)
  · exact (applyCanvasAdmit_moves ..).mono (by decide)
  · exact (applyCanvasRelease_moves ..).mono (by decide)
  · exact (applyEncodeAdmit_moves ..).mono (by decide)
  · exact (applyEncodeRelease_moves ..).mono (by decide)
  · exact (applyAudSafeLoad_moves ..).mono (by decide)
  · exact (applyLayoutSet_moves ..).mono (by decide)
  · exact (applyKeypicRequest_moves ..).mono (by decide)
  · exact (applyShaperSet_moves ..).mono (by decide)
  · exact (applyRewindMark_moves ..).mono (by decide)
  · exact (applyTelemetrySet_moves ..).mono (by decide)
  · exact (applyBayReturn_moves ..).mono (by decide)

theorem configTrace_moves (a0 a1 a2 a3 s) : Moves [.mem, .regs, .cnt, .hif, .obs, .ddr, .out] s (configTrace a0 a1 a2 a3 s) := by
  unfold configTrace
  refine Moves.ite ?_ ?_
  · refine Moves.seq (traceCommand_moves ..) (by decide) ?_
    exact Moves.refl _ _
  · refine Moves.ite ?_ ?_
    · refine Moves.seq (traceCommand_moves ..) (by decide) ?_
      exact Moves.refl _ _
    · refine Moves.ite ?_ ?_
      · refine Moves.seq (traceCommand_moves ..) (by decide) ?_
        exact Moves.refl _ _
      · exact Moves.refl _ _

theorem applyFlight_moves (a0 a1 s) : Moves [.mem, .regs, .cnt, .hif, .ctl, .aud, .egr, .src, .fwd, .vid, .flt, .obs, .ddr, .cas, .out] s (applyFlight a0 a1 s) := by
  unfold applyFlight
  extract_lets v0 v1 v2
  split
  · rename_i x200 e201
    have h202 : Moves [.mem, .regs, .cnt, .hif, .ctl, .aud, .egr, .src, .fwd, .vid, .flt, .obs, .ddr, .cas, .out] s x200 := by
      refine Moves.of_fst e201 ?_
      refine Moves.seq (applyOf_moves ..) (by decide) ?_
      exact Moves.refl _ _
    refine Moves.hif_with (by decide) ?_
    exact h202
  · rename_i x203 x204 e205
    have h206 : Moves [.mem, .regs, .cnt, .hif, .ctl, .aud, .egr, .src, .fwd, .vid, .flt, .obs, .ddr, .cas, .out] s x203 := by
      refine Moves.of_fst e205 ?_
      refine Moves.seq (applyOf_moves ..) (by decide) ?_
      exact Moves.refl _ _
    refine Moves.seq (flightEnd_moves ..) (by decide) ?_
    refine Moves.ite ?_ ?_
    · refine Moves.seq (configTrace_moves ..) (by decide) ?_
      exact h206
    · exact h206

theorem configRun_moves (a0 a1 a2 s) : Moves [.hif] s (configRun a0 a1 a2 s) := by
  unfold configRun
  refine Moves.hif_with (by decide) ?_
  exact Moves.refl _ _

theorem configBoundary_moves (a0 a1 s) : Moves [.mem, .regs, .cnt, .hif, .ctl, .aud, .egr, .src, .fwd, .vid, .flt, .obs, .ddr, .cas, .out] s (configBoundary a0 a1 s) := by
  unfold configBoundary
  extract_lets v0 v1
  refine Moves.foldl (fun _ y200 => ?_) ?_
  · refine Moves.seq (applyFlight_moves ..) (by decide) ?_
    exact Moves.refl _ _
  · refine Moves.hif_with (by decide) ?_
    exact Moves.refl _ _

theorem longBegin_moves (a0 a1 s) : Moves [.mem, .regs, .cnt, .hif, .frm, .key, .obs, .ddr, .cas, .out, .free] s (longBegin a0 a1 s) := by
  unfold longBegin
  split
  · refine Moves.seq (imageBegin_moves ..) (by decide) ?_
    exact Moves.refl _ _
  · refine Moves.seq (imageBegin_moves ..) (by decide) ?_
    exact Moves.refl _ _
  · refine Moves.seq (rollBegin_moves ..) (by decide) ?_
    exact Moves.refl _ _
  · refine Moves.seq (capBegin_moves ..) (by decide) ?_
    exact Moves.refl _ _
  · refine Moves.seq (repBegin_moves ..) (by decide) ?_
    exact Moves.refl _ _
  · refine Moves.seq (joinBegin_moves ..) (by decide) ?_
    exact Moves.refl _ _
  · refine Moves.seq (leaveBegin_moves ..) (by decide) ?_
    exact Moves.refl _ _
  · exact Moves.refl _ _

theorem longRun_moves {ps : List Part} {s x : State} {op : Nat} {check : Cmd → State → Option Rsp} {begin_ : Cmd → State → State}
    {c : Cmd} {slot : Option Nat} (hf : ∀ d y, Moves ps y (begin_ d y)) (hm : ∀ p ∈ [.mem, .regs, .cnt, .hif, .ddr, .out], p ∈ ps) (b : Moves ps s x) :
    Moves ps s (longRun op check begin_ c slot x) := by
  unfold longRun
  extract_lets busy
  split
  · exact Moves.seq (queryEnd_moves ..) (fun p h => hm p (by revert p; decide)) b
  · exact (Moves.seq (lopStart_moves ..) (fun p h => hm p (by revert p; decide)) b).trans (hf ..)

theorem execNop_runs (a0 s) : Runs [.mem, .regs, .cnt, .hif, .ddr, .out] s (execNop a0 s) := by
  unfold execNop
  refine Runs.next ?_
  refine commandRow_moves (fun _ y0 => ?_) (by decide) ?_
  · refine queryRun_moves (fun _ y1 => ?_) (by decide) ?_
    · refine Moves.seq (doNop_moves ..) (by decide) ?_
      exact Moves.refl _ _
    · exact Moves.refl _ _
  · exact Moves.refl _ _

theorem execIdentify_runs (a0 s) : Runs [.mem, .regs, .cnt, .hif, .ddr, .out] s (execIdentify a0 s) := by
  unfold execIdentify
  refine Runs.next ?_
  refine commandRow_moves (fun _ y0 => ?_) (by decide) ?_
  · refine queryRun_moves (fun _ y1 => ?_) (by decide) ?_
    · refine Moves.seq (doIdentify_moves ..) (by decide) ?_
      exact Moves.refl _ _
    · exact Moves.refl _ _
  · exact Moves.refl _ _

theorem execRingStatus_runs (a0 s) : Runs [.mem, .regs, .cnt, .hif, .ddr, .out] s (execRingStatus a0 s) := by
  unfold execRingStatus
  refine Runs.next ?_
  refine commandRow_moves (fun _ y0 => ?_) (by decide) ?_
  · refine queryRun_moves (fun _ y1 => ?_) (by decide) ?_
    · refine Moves.seq (doRingStatus_moves ..) (by decide) ?_
      exact Moves.refl _ _
    · exact Moves.refl _ _
  · exact Moves.refl _ _

theorem execLopQuery_runs (a0 s) : Runs [.mem, .regs, .cnt, .hif, .frm, .key, .egr, .vid, .flt, .obs, .ddr, .cas, .out, .free] s (execLopQuery a0 s) := by
  unfold execLopQuery
  refine Runs.next ?_
  refine commandRow_moves (fun _ y0 => ?_) (by decide) ?_
  · refine queryRun_moves (fun _ y1 => ?_) (by decide) ?_
    · refine Moves.seq (doLop_moves ..) (by decide) ?_
      exact Moves.refl _ _
    · exact Moves.refl _ _
  · exact Moves.refl _ _

theorem execLopSuspend_runs (a0 s) : Runs [.mem, .regs, .cnt, .hif, .frm, .key, .egr, .vid, .flt, .obs, .ddr, .cas, .out, .free] s (execLopSuspend a0 s) := by
  unfold execLopSuspend
  refine Runs.next ?_
  refine commandRow_moves (fun _ y0 => ?_) (by decide) ?_
  · refine queryRun_moves (fun _ y1 => ?_) (by decide) ?_
    · refine Moves.seq (doLop_moves ..) (by decide) ?_
      exact Moves.refl _ _
    · exact Moves.refl _ _
  · exact Moves.refl _ _

theorem execLopResume_runs (a0 s) : Runs [.mem, .regs, .cnt, .hif, .frm, .key, .egr, .vid, .flt, .obs, .ddr, .cas, .out, .free] s (execLopResume a0 s) := by
  unfold execLopResume
  refine Runs.next ?_
  refine commandRow_moves (fun _ y0 => ?_) (by decide) ?_
  · refine queryRun_moves (fun _ y1 => ?_) (by decide) ?_
    · refine Moves.seq (doLop_moves ..) (by decide) ?_
      exact Moves.refl _ _
    · exact Moves.refl _ _
  · exact Moves.refl _ _

theorem execLopCancel_runs (a0 s) : Runs [.mem, .regs, .cnt, .hif, .frm, .key, .egr, .vid, .flt, .obs, .ddr, .cas, .out, .free] s (execLopCancel a0 s) := by
  unfold execLopCancel
  refine Runs.next ?_
  refine commandRow_moves (fun _ y0 => ?_) (by decide) ?_
  · refine queryRun_moves (fun _ y1 => ?_) (by decide) ?_
    · refine Moves.seq (doLop_moves ..) (by decide) ?_
      exact Moves.refl _ _
    · exact Moves.refl _ _
  · exact Moves.refl _ _

theorem execFramingLoad_runs (a0 s) : Runs [.mem, .regs, .cnt, .hif, .frm, .key, .ddr, .out] s (execFramingLoad a0 s) := by
  unfold execFramingLoad
  refine Runs.next ?_
  refine commandRow_moves (fun _ y0 => ?_) (by decide) ?_
  · refine longRun_moves (fun _ y1 => ?_) (by decide) ?_
    · refine Moves.seq (imageBegin_moves ..) (by decide) ?_
      exact Moves.refl _ _
    · exact Moves.refl _ _
  · exact Moves.refl _ _

theorem execFramingDelta_runs (a0 s) : Runs [.mem, .regs, .cnt, .hif, .frm, .key, .ddr, .out] s (execFramingDelta a0 s) := by
  unfold execFramingDelta
  refine Runs.next ?_
  refine commandRow_moves (fun _ y0 => ?_) (by decide) ?_
  · refine longRun_moves (fun _ y1 => ?_) (by decide) ?_
    · refine Moves.seq (imageBegin_moves ..) (by decide) ?_
      exact Moves.refl _ _
    · exact Moves.refl _ _
  · exact Moves.refl _ _

theorem execFramingRollback_runs (a0 s) : Runs [.mem, .regs, .cnt, .hif, .frm, .key, .ddr, .out] s (execFramingRollback a0 s) := by
  unfold execFramingRollback
  refine Runs.next ?_
  refine commandRow_moves (fun _ y0 => ?_) (by decide) ?_
  · refine longRun_moves (fun _ y1 => ?_) (by decide) ?_
    · refine Moves.seq (rollBegin_moves ..) (by decide) ?_
      exact Moves.refl _ _
    · exact Moves.refl _ _
  · exact Moves.refl _ _

theorem execRewindExport_runs (a0 s) : Runs [.mem, .regs, .cnt, .hif, .ddr, .out] s (execRewindExport a0 s) := by
  unfold execRewindExport
  refine Runs.next ?_
  refine commandRow_moves (fun _ y0 => ?_) (by decide) ?_
  · refine longRun_moves (fun _ y1 => ?_) (by decide) ?_
    · exact Moves.refl _ _
    · exact Moves.refl _ _
  · exact Moves.refl _ _

theorem execCapture_runs (a0 s) : Runs [.mem, .regs, .cnt, .hif, .obs, .ddr, .out] s (execCapture a0 s) := by
  unfold execCapture
  refine Runs.next ?_
  refine commandRow_moves (fun _ y0 => ?_) (by decide) ?_
  · refine longRun_moves (fun _ y1 => ?_) (by decide) ?_
    · refine Moves.seq (capBegin_moves ..) (by decide) ?_
      exact Moves.refl _ _
    · exact Moves.refl _ _
  · exact Moves.refl _ _

theorem execReplay_runs (a0 s) : Runs [.mem, .regs, .cnt, .hif, .obs, .ddr, .out] s (execReplay a0 s) := by
  unfold execReplay
  refine Runs.next ?_
  refine commandRow_moves (fun _ y0 => ?_) (by decide) ?_
  · refine longRun_moves (fun _ y1 => ?_) (by decide) ?_
    · refine Moves.seq (repBegin_moves ..) (by decide) ?_
      exact Moves.refl _ _
    · exact Moves.refl _ _
  · exact Moves.refl _ _

theorem execBaySelftest_runs (a0 s) : Runs [.mem, .regs, .cnt, .hif, .ddr, .out] s (execBaySelftest a0 s) := by
  unfold execBaySelftest
  refine Runs.next ?_
  refine commandRow_moves (fun _ y0 => ?_) (by decide) ?_
  · refine longRun_moves (fun _ y1 => ?_) (by decide) ?_
    · exact Moves.refl _ _
    · exact Moves.refl _ _
  · exact Moves.refl _ _

theorem execTileFwSwap_runs (a0 s) : Runs [.mem, .regs, .cnt, .hif, .ddr, .out] s (execTileFwSwap a0 s) := by
  unfold execTileFwSwap
  refine Runs.next ?_
  refine commandRow_moves (fun _ y0 => ?_) (by decide) ?_
  · refine longRun_moves (fun _ y1 => ?_) (by decide) ?_
    · exact Moves.refl _ _
    · exact Moves.refl _ _
  · exact Moves.refl _ _

theorem execCascadeJoin_runs (a0 s) : Runs [.mem, .regs, .cnt, .hif, .ddr, .cas, .out, .free] s (execCascadeJoin a0 s) := by
  unfold execCascadeJoin
  refine Runs.next ?_
  refine commandRow_moves (fun _ y0 => ?_) (by decide) ?_
  · refine longRun_moves (fun _ y1 => ?_) (by decide) ?_
    · refine Moves.seq (joinBegin_moves ..) (by decide) ?_
      exact Moves.refl _ _
    · exact Moves.refl _ _
  · exact Moves.refl _ _

theorem execCascadeLeave_runs (a0 s) : Runs [.mem, .regs, .cnt, .hif, .ddr, .cas, .out, .free] s (execCascadeLeave a0 s) := by
  unfold execCascadeLeave
  refine Runs.next ?_
  refine commandRow_moves (fun _ y0 => ?_) (by decide) ?_
  · refine longRun_moves (fun _ y1 => ?_) (by decide) ?_
    · refine Moves.seq (leaveBegin_moves ..) (by decide) ?_
      exact Moves.refl _ _
    · exact Moves.refl _ _
  · exact Moves.refl _ _

theorem execKeyZeroise_runs (a0 s) : Runs [.mem, .regs, .cnt, .hif, .frm, .ctl, .key, .aud, .egr, .fwd, .vid, .flt, .obs, .crsl, .ddr, .ldg, .pwr, .cas, .out, .free] s (execKeyZeroise a0 s) := by
  unfold execKeyZeroise
  refine Runs.next ?_
  refine commandRow_moves (fun _ y0 => ?_) (by decide) ?_
  · refine aonRun_moves (fun _ y1 => ?_) (by decide) ?_
    · refine Moves.seq (applyKeyZeroise_moves ..) (by decide) ?_
      exact Moves.refl _ _
    · exact Moves.refl _ _
  · exact Moves.refl _ _

theorem execBayQuarantine_runs (a0 s) : Runs [.mem, .regs, .cnt, .hif, .frm, .ctl, .key, .aud, .egr, .fwd, .vid, .flt, .obs, .crsl, .ddr, .ldg, .pwr, .cas, .out, .free] s (execBayQuarantine a0 s) := by
  unfold execBayQuarantine
  refine Runs.next ?_
  refine commandRow_moves (fun _ y0 => ?_) (by decide) ?_
  · refine aonRun_moves (fun _ y1 => ?_) (by decide) ?_
    · refine Moves.seq (applyBayQuarantine_moves ..) (by decide) ?_
      exact Moves.refl _ _
    · exact Moves.refl _ _
  · exact Moves.refl _ _

theorem execBayWarmReset_runs (a0 s) : Runs [.mem, .regs, .cnt, .hif, .frm, .ctl, .key, .aud, .egr, .fwd, .vid, .flt, .obs, .crsl, .ddr, .ldg, .pwr, .cas, .out, .free] s (execBayWarmReset a0 s) := by
  unfold execBayWarmReset
  refine Runs.next ?_
  refine commandRow_moves (fun _ y0 => ?_) (by decide) ?_
  · refine aonRun_moves (fun _ y1 => ?_) (by decide) ?_
    · refine Moves.seq (applyBayWarmReset_moves ..) (by decide) ?_
      exact Moves.refl _ _
    · exact Moves.refl _ _
  · exact Moves.refl _ _

theorem execFaultlogRead_runs (a0 s) : Runs [.mem, .regs, .cnt, .hif, .frm, .ctl, .key, .aud, .egr, .fwd, .vid, .flt, .obs, .crsl, .ddr, .ldg, .pwr, .cas, .out, .free] s (execFaultlogRead a0 s) := by
  unfold execFaultlogRead
  refine Runs.next ?_
  refine commandRow_moves (fun _ y0 => ?_) (by decide) ?_
  · refine aonRun_moves (fun _ y1 => ?_) (by decide) ?_
    · refine Moves.seq (applyFaultlogRead_moves ..) (by decide) ?_
      exact Moves.refl _ _
    · exact Moves.refl _ _
  · exact Moves.refl _ _

theorem execActAdmit_runs (a0 s) : Runs [.mem, .regs, .cnt, .hif, .ddr, .out] s (execActAdmit a0 s) := by
  unfold execActAdmit
  refine Runs.next ?_
  refine commandRow_moves (fun _ y0 => ?_) (by decide) ?_
  · refine Moves.seq (configRun_moves ..) (by decide) ?_
    exact Moves.refl _ _
  · exact Moves.refl _ _

theorem execActRelease_runs (a0 s) : Runs [.mem, .regs, .cnt, .hif, .ddr, .out] s (execActRelease a0 s) := by
  unfold execActRelease
  refine Runs.next ?_
  refine commandRow_moves (fun _ y0 => ?_) (by decide) ?_
  · refine Moves.seq (configRun_moves ..) (by decide) ?_
    exact Moves.refl _ _
  · exact Moves.refl _ _

theorem execLegAdmit_runs (a0 s) : Runs [.mem, .regs, .cnt, .hif, .ddr, .out] s (execLegAdmit a0 s) := by
  unfold execLegAdmit
  refine Runs.next ?_
  refine commandRow_moves (fun _ y0 => ?_) (by decide) ?_
  · refine Moves.seq (configRun_moves ..) (by decide) ?_
    exact Moves.refl _ _
  · exact Moves.refl _ _

theorem execLegStart_runs (a0 s) : Runs [.mem, .regs, .cnt, .hif, .ddr, .out] s (execLegStart a0 s) := by
  unfold execLegStart
  refine Runs.next ?_
  refine commandRow_moves (fun _ y0 => ?_) (by decide) ?_
  · refine Moves.seq (configRun_moves ..) (by decide) ?_
    exact Moves.refl _ _
  · exact Moves.refl _ _

theorem execLegRoute_runs (a0 s) : Runs [.mem, .regs, .cnt, .hif, .ddr, .out] s (execLegRoute a0 s) := by
  unfold execLegRoute
  refine Runs.next ?_
  refine commandRow_moves (fun _ y0 => ?_) (by decide) ?_
  · refine Moves.seq (configRun_moves ..) (by decide) ?_
    exact Moves.refl _ _
  · exact Moves.refl _ _

theorem execLegRelease_runs (a0 s) : Runs [.mem, .regs, .cnt, .hif, .ddr, .out] s (execLegRelease a0 s) := by
  unfold execLegRelease
  refine Runs.next ?_
  refine commandRow_moves (fun _ y0 => ?_) (by decide) ?_
  · refine Moves.seq (configRun_moves ..) (by decide) ?_
    exact Moves.refl _ _
  · exact Moves.refl _ _

theorem execStreamAdmit_runs (a0 s) : Runs [.mem, .regs, .cnt, .hif, .ddr, .out] s (execStreamAdmit a0 s) := by
  unfold execStreamAdmit
  refine Runs.next ?_
  refine commandRow_moves (fun _ y0 => ?_) (by decide) ?_
  · refine Moves.seq (configRun_moves ..) (by decide) ?_
    exact Moves.refl _ _
  · exact Moves.refl _ _

theorem execStreamRelease_runs (a0 s) : Runs [.mem, .regs, .cnt, .hif, .ddr, .out] s (execStreamRelease a0 s) := by
  unfold execStreamRelease
  refine Runs.next ?_
  refine commandRow_moves (fun _ y0 => ?_) (by decide) ?_
  · refine Moves.seq (configRun_moves ..) (by decide) ?_
    exact Moves.refl _ _
  · exact Moves.refl _ _

theorem execKeyBind_runs (a0 s) : Runs [.mem, .regs, .cnt, .hif, .ddr, .out] s (execKeyBind a0 s) := by
  unfold execKeyBind
  refine Runs.next ?_
  refine commandRow_moves (fun _ y0 => ?_) (by decide) ?_
  · refine Moves.seq (configRun_moves ..) (by decide) ?_
    exact Moves.refl _ _
  · exact Moves.refl _ _

theorem execCanvasAdmit_runs (a0 s) : Runs [.mem, .regs, .cnt, .hif, .ddr, .out] s (execCanvasAdmit a0 s) := by
  unfold execCanvasAdmit
  refine Runs.next ?_
  refine commandRow_moves (fun _ y0 => ?_) (by decide) ?_
  · refine Moves.seq (configRun_moves ..) (by decide) ?_
    exact Moves.refl _ _
  · exact Moves.refl _ _

theorem execCanvasRelease_runs (a0 s) : Runs [.mem, .regs, .cnt, .hif, .ddr, .out] s (execCanvasRelease a0 s) := by
  unfold execCanvasRelease
  refine Runs.next ?_
  refine commandRow_moves (fun _ y0 => ?_) (by decide) ?_
  · refine Moves.seq (configRun_moves ..) (by decide) ?_
    exact Moves.refl _ _
  · exact Moves.refl _ _

theorem execEncodeAdmit_runs (a0 s) : Runs [.mem, .regs, .cnt, .hif, .ddr, .out] s (execEncodeAdmit a0 s) := by
  unfold execEncodeAdmit
  refine Runs.next ?_
  refine commandRow_moves (fun _ y0 => ?_) (by decide) ?_
  · refine Moves.seq (configRun_moves ..) (by decide) ?_
    exact Moves.refl _ _
  · exact Moves.refl _ _

theorem execEncodeRelease_runs (a0 s) : Runs [.mem, .regs, .cnt, .hif, .ddr, .out] s (execEncodeRelease a0 s) := by
  unfold execEncodeRelease
  refine Runs.next ?_
  refine commandRow_moves (fun _ y0 => ?_) (by decide) ?_
  · refine Moves.seq (configRun_moves ..) (by decide) ?_
    exact Moves.refl _ _
  · exact Moves.refl _ _

theorem execAudSafeLoad_runs (a0 s) : Runs [.mem, .regs, .cnt, .hif, .ddr, .out] s (execAudSafeLoad a0 s) := by
  unfold execAudSafeLoad
  refine Runs.next ?_
  refine commandRow_moves (fun _ y0 => ?_) (by decide) ?_
  · refine Moves.seq (configRun_moves ..) (by decide) ?_
    exact Moves.refl _ _
  · exact Moves.refl _ _

theorem execLayoutSet_runs (a0 s) : Runs [.mem, .regs, .cnt, .hif, .ddr, .out] s (execLayoutSet a0 s) := by
  unfold execLayoutSet
  refine Runs.next ?_
  refine commandRow_moves (fun _ y0 => ?_) (by decide) ?_
  · refine Moves.seq (configRun_moves ..) (by decide) ?_
    exact Moves.refl _ _
  · exact Moves.refl _ _

theorem execKeypicRequest_runs (a0 s) : Runs [.mem, .regs, .cnt, .hif, .ddr, .out] s (execKeypicRequest a0 s) := by
  unfold execKeypicRequest
  refine Runs.next ?_
  refine commandRow_moves (fun _ y0 => ?_) (by decide) ?_
  · refine Moves.seq (configRun_moves ..) (by decide) ?_
    exact Moves.refl _ _
  · exact Moves.refl _ _

theorem execShaperSet_runs (a0 s) : Runs [.mem, .regs, .cnt, .hif, .ddr, .out] s (execShaperSet a0 s) := by
  unfold execShaperSet
  refine Runs.next ?_
  refine commandRow_moves (fun _ y0 => ?_) (by decide) ?_
  · refine Moves.seq (configRun_moves ..) (by decide) ?_
    exact Moves.refl _ _
  · exact Moves.refl _ _

theorem execRewindMark_runs (a0 s) : Runs [.mem, .regs, .cnt, .hif, .ddr, .out] s (execRewindMark a0 s) := by
  unfold execRewindMark
  refine Runs.next ?_
  refine commandRow_moves (fun _ y0 => ?_) (by decide) ?_
  · refine Moves.seq (configRun_moves ..) (by decide) ?_
    exact Moves.refl _ _
  · exact Moves.refl _ _

theorem execTelemetrySet_runs (a0 s) : Runs [.mem, .regs, .cnt, .hif, .ddr, .out] s (execTelemetrySet a0 s) := by
  unfold execTelemetrySet
  refine Runs.next ?_
  refine commandRow_moves (fun _ y0 => ?_) (by decide) ?_
  · refine Moves.seq (configRun_moves ..) (by decide) ?_
    exact Moves.refl _ _
  · exact Moves.refl _ _

theorem execBayReturn_runs (a0 s) : Runs [.mem, .regs, .cnt, .hif, .ddr, .out] s (execBayReturn a0 s) := by
  unfold execBayReturn
  refine Runs.next ?_
  refine commandRow_moves (fun _ y0 => ?_) (by decide) ?_
  · refine Moves.seq (configRun_moves ..) (by decide) ?_
    exact Moves.refl _ _
  · exact Moves.refl _ _

end Sys2Proof.Machine
end

