-- ==== Sys2Proof/Laws/ChDma.lean ====
section
/-! SUPPORT. What each operation of Machine/Dma.lean may change: one lemma for each, which says every part of State that it
can alter, and that it keeps the invariant. -/

set_option Elab.async false

namespace Sys2Proof.Machine

theorem dmaTo_moves (a0 a1 s) : Moves [.regs] s (dmaTo a0 a1 s) := by
  unfold dmaTo
  refine Moves.seq (fset_moves ..) (by decide) ?_
  exact Moves.refl _ _

theorem spaceWrite_moves (a0 a1 a2 s) : Moves [.mem, .ddr] s (spaceWrite a0 a1 a2 s) := by
  unfold spaceWrite
  refine Moves.ite ?_ ?_
  · refine Moves.seq (dramWrite_moves ..) (by decide) ?_
    exact Moves.refl _ _
  · refine Moves.seq (hostWrite_moves ..) (by decide) ?_
    exact Moves.refl _ _

theorem dmaBlock_moves (a0 a1 s) : Moves [.mem, .regs, .cnt, .hif, .ddr, .out] s (dmaBlock a0 a1 s) := by
  unfold dmaBlock
  split
  · refine Moves.seq (isolationBlock_moves ..) (by decide) ?_
    exact Moves.refl _ _
  · exact Moves.refl _ _

theorem dmaHalt_moves (a0 a1 a2 s) : Moves [.mem, .regs, .cnt, .hif, .ddr, .out] s (dmaHalt a0 a1 a2 s) := by
  unfold dmaHalt
  extract_lets v0
  have h200 : Moves [.mem, .regs, .cnt, .hif, .ddr, .out] s v0 := by
    refine Moves.seq (fset_moves ..) (by decide) ?_
    refine Moves.seq (dmaTo_moves ..) (by decide) ?_
    exact Moves.refl _ _
  refine Moves.seq (signal_moves ..) (by decide) ?_
  refine Moves.seq (raise_moves ..) (by decide) ?_
  exact h200

theorem dmaFetch_moves (a0 s) : Moves [.mem, .regs, .cnt, .hif, .ddr, .dma, .out] s (dmaFetch a0 s) := by
  unfold dmaFetch
  refine Moves.ite ?_ ?_
  · refine Moves.seq (dmaTo_moves ..) (by decide) ?_
    exact Moves.refl _ _
  · split
    · refine Moves.seq (dmaHalt_moves ..) (by decide) ?_
      refine Moves.ite ?_ ?_
      · refine Moves.seq (dmaBlock_moves ..) (by decide) ?_
        exact Moves.refl _ _
      · exact Moves.refl _ _
    · extract_lets v0 v1
      refine Moves.ite ?_ ?_
      · refine Moves.seq (dmaTo_moves ..) (by decide) ?_
        refine Moves.dma_with (by decide) ?_
        exact Moves.refl _ _
      · refine Moves.seq (cinc_moves ..) (by decide) ?_
        refine Moves.seq (dmaTo_moves ..) (by decide) ?_
        exact Moves.refl _ _

theorem dmaNext_moves (a0 s) : Moves [.mem, .regs, .cnt, .hif, .ddr, .dma, .out] s (dmaNext a0 s) := by
  unfold dmaNext
  refine Moves.ite ?_ ?_
  · refine Moves.seq (dmaTo_moves ..) (by decide) ?_
    refine Moves.dma_with (by decide) ?_
    exact Moves.refl _ _
  · refine Moves.ite ?_ ?_
    · refine Moves.seq (dmaTo_moves ..) (by decide) ?_
      exact Moves.refl _ _
    · refine Moves.seq (dmaFetch_moves ..) (by decide) ?_
      exact Moves.refl _ _

theorem dmaEnd_moves (a0 a1 a2 a3 a4 s) : Moves [.mem, .regs, .cnt, .hif, .ddr, .dma, .out] s (dmaEnd a0 a1 a2 a3 a4 s) := by
  unfold dmaEnd
  extract_lets v0 v1 v2 v3 v4 v5 v6 v7 v8 v9 v10 v11
  have h200 : Moves [.mem, .regs, .cnt, .hif, .ddr, .dma, .out] s v0 := by
    refine Moves.ite ?_ ?_
    · refine Moves.seq (dmaBlock_moves ..) (by decide) ?_
      exact Moves.refl _ _
    · exact Moves.refl _ _
  have h201 : Moves [.mem, .regs, .cnt, .hif, .ddr, .dma, .out] s v3 := by
    refine Moves.ite ?_ ?_
    · refine Moves.seq (dramWrite_moves ..) (by decide) ?_
      exact h200
    · refine Moves.ite ?_ ?_
      · refine Moves.seq (hostWrite_moves ..) (by decide) ?_
        exact h200
      · exact h200
  have h202 : Moves [.mem, .regs, .cnt, .hif, .ddr, .dma, .out] s v5 := by
    refine Moves.seq (cadd_moves ..) (by decide) ?_
    refine Moves.seq (cinc_moves ..) (by decide) ?_
    refine Moves.dma_with (by decide) ?_
    exact h201
  have h203 : Moves [.mem, .regs, .cnt, .hif, .ddr, .dma, .out] s v7 := by
    refine Moves.seq (fset_moves ..) (by decide) ?_
    refine Moves.seq (fset_moves ..) (by decide) ?_
    exact h202
  have h204 : Moves [.mem, .regs, .cnt, .hif, .ddr, .dma, .out] s v9 := by
    refine Moves.seq (fset_moves ..) (by decide) ?_
    exact h203
  have h205 : Moves [.mem, .regs, .cnt, .hif, .ddr, .dma, .out] s v10 := by
    refine Moves.ite ?_ ?_
    · refine Moves.ite ?_ ?_
      · exact h204
      · refine Moves.seq (signal_moves ..) (by decide) ?_
        exact h204
    · exact h203
  refine Moves.ite ?_ ?_
  · refine Moves.seq (dmaHalt_moves ..) (by decide) ?_
    exact h205
  · refine Moves.ite ?_ ?_
    · refine Moves.seq (dmaTo_moves ..) (by decide) ?_
      refine Moves.dma_with (by decide) ?_
      exact h205
    · refine Moves.seq (dmaNext_moves ..) (by decide) ?_
      exact h205

theorem dmaMove_moves (a0 a1 s) : Moves [.mem, .ddr] s (dmaMove a0 a1 s) := by
  unfold dmaMove
  refine Moves.ite ?_ ?_
  · exact Moves.refl _ _
  · extract_lets v0
    refine Moves.seq (spaceWrite_moves ..) (by decide) ?_
    exact Moves.refl _ _

theorem portReqPut_moves (a0 a1 a2 s) : Moves [.src] s (portReqPut a0 a1 a2 s) := by
  unfold portReqPut
  extract_lets v0
  refine Moves.seq (tdmPortPut_moves ..) (by decide) ?_
  exact Moves.refl _ _

theorem portMove_moves (a0 a1 a2 s) : Moves [.mem, .src, .ddr] s (portMove a0 a1 a2 s) := by
  unfold portMove
  extract_lets v0
  refine Moves.ite ?_ ?_
  · refine Moves.seq (tdmPortPut_moves ..) (by decide) ?_
    exact Moves.refl _ _
  · refine Moves.seq (tdmPortPut_moves ..) (by decide) ?_
    refine Moves.seq (spaceWrite_moves ..) (by decide) ?_
    exact Moves.refl _ _

theorem execDmaDescriptorComplete_runs (a0 s) : Runs [.mem, .regs, .cnt, .hif, .src, .ddr, .dma, .out] s (execDmaDescriptorComplete a0 s) := by
  unfold execDmaDescriptorComplete
  refine Runs.next ?_
  split
  · exact Moves.refl _ _
  · refine Moves.ite ?_ ?_
    · exact Moves.refl _ _
    · extract_lets v0 v1 v2 v3 v4 v5
      have h200 : Moves [.mem, .regs, .cnt, .hif, .src, .ddr, .dma, .out] s v2 := by
        refine Moves.ite ?_ ?_
        · refine Moves.seq (cinc_moves ..) (by decide) ?_
          exact Moves.refl _ _
        · exact Moves.refl _ _
      have h201 : Moves [.mem, .regs, .cnt, .hif, .src, .ddr, .dma, .out] s v4 := by
        refine Moves.seq (portReqPut_moves ..) (by decide) ?_
        exact Moves.refl _ _
      have h202 : Moves [.mem, .regs, .cnt, .hif, .src, .ddr, .dma, .out] s v5 := by
        refine Moves.seq (portMove_moves ..) (by decide) ?_
        exact h201
      refine Moves.ite ?_ ?_
      · refine Moves.seq (dmaEnd_moves ..) (by decide) ?_
        exact Moves.refl _ _
      · split
        · refine Moves.seq (dmaEnd_moves ..) (by decide) ?_
          refine Moves.seq (dmaMove_moves ..) (by decide) ?_
          exact h200
        · exact Moves.refl _ _
        · refine Moves.ite ?_ ?_
          · exact Moves.refl _ _
          · refine Moves.seq (dmaEnd_moves ..) (by decide) ?_
            exact h202
        · refine Moves.seq (dmaEnd_moves ..) (by decide) ?_
          exact Moves.refl _ _

theorem execDmaFenceComplete_runs (a0 s) : Runs [.mem, .regs, .cnt, .hif, .ddr, .dma, .out] s (execDmaFenceComplete a0 s) := by
  unfold execDmaFenceComplete
  refine Runs.next ?_
  split
  · exact Moves.refl _ _
  · refine Moves.ite ?_ ?_
    · exact Moves.refl _ _
    · extract_lets v0
      refine Moves.ite ?_ ?_
      · refine Moves.seq (dmaEnd_moves ..) (by decide) ?_
        exact Moves.refl _ _
      · refine Moves.seq (dmaEnd_moves ..) (by decide) ?_
        refine Moves.seq (cinc_moves ..) (by decide) ?_
        exact Moves.refl _ _

theorem execDmaChAdd_runs (a0 a1 a2 s) : Runs [.mem, .regs, .cnt, .hif, .ddr, .dma, .out] s (execDmaChAdd a0 a1 a2 s) := by
  unfold execDmaChAdd
  extract_lets v0 v1 v2
  have h200 : Moves [.mem, .regs, .cnt, .hif, .ddr, .dma, .out] s v2 := by
    refine Moves.seq (fset_moves ..) (by decide) ?_
    exact Moves.refl _ _
  refine Runs.next ?_
  refine Moves.ite ?_ ?_
  · exact Moves.refl _ _
  · refine Moves.ite ?_ ?_
    · refine Moves.seq (fset_moves ..) (by decide) ?_
      exact Moves.refl _ _
    · refine Moves.ite ?_ ?_
      · refine Moves.seq (dmaFetch_moves ..) (by decide) ?_
        exact h200
      · exact h200

theorem dmaStop_moves (a0 s) : Moves [.regs, .dma] s (dmaStop a0 s) := by
  unfold dmaStop
  refine Moves.ite ?_ ?_
  · refine Moves.seq (dmaTo_moves ..) (by decide) ?_
    exact Moves.refl _ _
  · refine Moves.ite ?_ ?_
    · refine Moves.dma_with (by decide) ?_
      exact Moves.refl _ _
    · refine Moves.ite ?_ ?_
      · refine Moves.seq (dmaTo_moves ..) (by decide) ?_
        exact Moves.refl _ _
      · exact Moves.refl _ _

theorem execDmaStop_runs (a0 s) : Runs [.regs, .dma] s (execDmaStop a0 s) := by
  unfold execDmaStop
  refine Runs.next ?_
  refine Moves.seq (dmaStop_moves ..) (by decide) ?_
  exact Moves.refl _ _

theorem execDmaAbort_runs (a0 a1 s) : Runs [.mem, .regs, .cnt, .hif, .ddr, .dma, .out] s (execDmaAbort a0 a1 s) := by
  unfold execDmaAbort
  refine Runs.next ?_
  refine Moves.ite ?_ ?_
  · refine Moves.seq (dmaStop_moves ..) (by decide) ?_
    exact Moves.refl _ _
  · split
    · refine Moves.seq (dmaTo_moves ..) (by decide) ?_
      refine Moves.dma_with (by decide) ?_
      exact Moves.refl _ _
    · refine Moves.ite ?_ ?_
      · refine Moves.seq (dmaEnd_moves ..) (by decide) ?_
        exact Moves.refl _ _
      · extract_lets v0 v1
        refine Moves.seq (dmaEnd_moves ..) (by decide) ?_
        refine Moves.seq (dmaMove_moves ..) (by decide) ?_
        exact Moves.refl _ _

theorem execDmaResume_runs (a0 s) : Runs [.mem, .regs, .cnt, .hif, .ddr, .dma, .out] s (execDmaResume a0 s) := by
  unfold execDmaResume
  refine Runs.next ?_
  refine Moves.ite ?_ ?_
  · refine Moves.seq (dmaNext_moves ..) (by decide) ?_
    exact Moves.refl _ _
  · exact Moves.refl _ _

theorem execDmaEnable_runs (a0 a1 s) : Runs [.mem, .regs, .cnt, .hif, .ddr, .dma, .out] s (execDmaEnable a0 a1 s) := by
  unfold execDmaEnable
  refine Runs.next ?_
  refine Moves.ite ?_ ?_
  · exact Moves.refl _ _
  · extract_lets v0 v1
    have h200 : Moves [.mem, .regs, .cnt, .hif, .ddr, .dma, .out] s v1 := by
      refine Moves.seq (fset_moves ..) (by decide) ?_
      exact Moves.refl _ _
    refine Moves.ite ?_ ?_
    · refine Moves.ite ?_ ?_
      · refine Moves.seq (dmaNext_moves ..) (by decide) ?_
        exact h200
      · exact h200
    · refine Moves.ite ?_ ?_
      · exact h200
      · refine Moves.ite ?_ ?_
        · refine Moves.seq (dmaStop_moves ..) (by decide) ?_
          exact h200
        · refine Moves.seq (dmaTo_moves ..) (by decide) ?_
          exact h200

theorem execTdmDmaRequest_runs (a0 a1 s) : Runs [.src] s (execTdmDmaRequest a0 a1 s) := by
  unfold execTdmDmaRequest
  extract_lets v0
  refine Runs.next ?_
  refine Moves.ite ?_ ?_
  · refine Moves.seq (portReqPut_moves ..) (by decide) ?_
    exact Moves.refl _ _
  · exact Moves.refl _ _

theorem frameInvalid_moves (a0 a1 s) : Moves [.mem, .regs, .cnt, .hif, .src, .obs, .ddr, .out] s (frameInvalid a0 a1 s) := by
  unfold frameInvalid
  extract_lets v0 v1 v2 v3 v4 v5 v6
  refine Moves.seq (tdmSlip_moves ..) (by decide) ?_
  refine Moves.seq (tdmPortPut_moves ..) (by decide) ?_
  exact Moves.refl _ _

theorem execPeriphWithdraw_runs (a0 a1 a2 s) : Runs [.mem, .regs, .cnt, .hif, .src, .obs, .ddr, .dma, .out, .free] s (execPeriphWithdraw a0 a1 a2 s) := by
  unfold execPeriphWithdraw
  extract_lets v0 v1 v2 v3 v4 v5
  have h200 : Moves [.mem, .regs, .cnt, .hif, .src, .obs, .ddr, .dma, .out, .free] s v1 := by
    refine Moves.seq (portReqPut_moves ..) (by decide) ?_
    exact Moves.refl _ _
  have h201 : Moves [.mem, .regs, .cnt, .hif, .src, .obs, .ddr, .dma, .out, .free] s v3 := by
    refine Moves.seq (cinc_moves ..) (by decide) ?_
    refine Moves.seq (cinc_moves ..) (by decide) ?_
    exact h200
  refine Runs.next ?_
  refine Moves.ite ?_ ?_
  · exact Moves.refl _ _
  · split
    · exact h200
    · refine Moves.ite ?_ ?_
      · exact h200
      · extract_lets v202 v203 v204 v205 v206
        have h402 : Moves [.mem, .regs, .cnt, .hif, .src, .obs, .ddr, .dma, .out, .free] s v206 := by
          refine Moves.ite ?_ ?_
          · refine Moves.seq (frameInvalid_moves ..) (by decide) ?_
            refine Moves.seq (takeFree_moves ..) (by decide) ?_
            exact h201
          · refine Moves.seq (takeFree_moves ..) (by decide) ?_
            exact h201
        refine Moves.ite ?_ ?_
        · refine Moves.ite ?_ ?_
          · refine Moves.seq (dmaEnd_moves ..) (by decide) ?_
            refine Moves.seq (portMove_moves ..) (by decide) ?_
            exact h201
          · refine Moves.dma_with (by decide) ?_
            exact h201
        · refine Moves.seq (dmaEnd_moves ..) (by decide) ?_
          refine Moves.seq (spaceWrite_moves ..) (by decide) ?_
          exact h402

theorem execDmaTakeover_runs (s) : Runs [.mem, .regs, .cnt, .hif, .frm, .flt, .ddr, .ldg, .dma, .out] s (execDmaTakeover s) := by
  unfold execDmaTakeover
  extract_lets v0 v1 v2 v3
  have h200 : Moves [.mem, .regs, .cnt, .hif, .frm, .flt, .ddr, .ldg, .dma, .out] s v1 := by
    unfold v1
    refine Moves.seq (faultDeclare_moves ..) (by decide) ?_
    exact Moves.refl _ _
  have h201 : Moves [.mem, .regs, .cnt, .hif, .frm, .flt, .ddr, .ldg, .dma, .out] s v2 := by
    refine Moves.foldl (fun _ y202 => ?_) ?_
    · split
      · exact Moves.refl _ _
      · extract_lets v203 v204
        refine Moves.ite ?_ ?_
        · refine Moves.seq (cinc_moves ..) (by decide) ?_
          refine Moves.dma_with (by decide) ?_
          exact Moves.refl _ _
        · exact Moves.refl _ _
    · exact h200
  refine Runs.next ?_
  refine Moves.seq (fetchRestart_moves ..) (by decide) ?_
  refine Moves.seq (raiseUnit_moves ..) (by decide) ?_
  refine Moves.dma_with (by decide) ?_
  exact h201

theorem dmaBoundary_moves (s) : Moves [.mem, .regs, .cnt, .hif, .ddr, .dma, .out] s (dmaBoundary s) := by
  unfold dmaBoundary
  refine Moves.foldl (fun _ y0 => ?_) ?_
  · refine Moves.ite ?_ ?_
    · refine Moves.seq (dmaFetch_moves ..) (by decide) ?_
      exact Moves.refl _ _
    · exact Moves.refl _ _
  · exact Moves.refl _ _

end Sys2Proof.Machine
end

