-- ==== Sys2Proof/Laws/ChHostRows.lean ====
section
/-! SUPPORT. What each operation of Machine/HostRows.lean may change: one lemma for each, which says every part of State that it
can alter, and that it keeps the invariant. -/

set_option Elab.async false

namespace Sys2Proof.Machine

theorem fetchedRun_moves (a0 a1 a2 s) : Moves [.mem, .regs, .cnt, .hif, .frm, .ctl, .key, .aud, .egr, .fwd, .vid, .flt, .obs, .crsl, .ddr, .ldg, .pwr, .cas, .out, .free] s (fetchedRun a0 a1 a2 s) := by
  unfold fetchedRun
  split
  · refine queryRun_moves (fun _ y0 => ?_) (by decide) ?_
    · refine Moves.seq (queryOf_moves ..) (by decide) ?_
      exact Moves.refl _ _
    · exact Moves.refl _ _
  · refine aonRun_moves (fun _ y1 => ?_) (by decide) ?_
    · refine Moves.seq (aonOf_moves ..) (by decide) ?_
      exact Moves.refl _ _
    · exact Moves.refl _ _
  · refine Moves.seq (configRun_moves ..) (by decide) ?_
    exact Moves.refl _ _
  · refine longRun_moves (fun _ y2 => ?_) (by decide) ?_
    · refine Moves.seq (longBegin_moves ..) (by decide) ?_
      exact Moves.refl _ _
    · exact Moves.refl _ _
  · exact Moves.refl _ _

theorem execCommandFetch_runs (fn s) : Runs [.mem, .regs, .cnt, .hif, .frm, .ctl, .key, .aud, .egr, .fwd, .vid, .flt, .obs, .crsl, .ddr, .ldg, .pwr, .cas, .out, .free] s (execCommandFetch fn s) := by
  unfold execCommandFetch
  extract_lets head a l op c t
  have ht : Moves [.mem, .regs, .cnt, .hif, .frm, .ctl, .key, .aud, .egr, .fwd, .vid, .flt, .obs, .crsl, .ddr, .ldg, .pwr, .cas, .out, .free] s t.s := Moves.trans ((fset_moves ..).mono (by decide)) ((takeIn_moves ..).mono (by decide))
  refine Runs.next (Moves.ite (Moves.refl _ _) (Moves.ite ((haltSq_moves ..).mono (by decide)) ?_))
  split
  · exact Moves.seq (queryEnd_moves ..) (by decide) ht
  · exact Moves.seq (fetchedRun_moves ..) (by decide) ht

theorem sqTailWrite_moves (a0 a1 s) : Moves [.mem, .regs, .cnt, .hif, .ddr, .out] s (sqTailWrite a0 a1 s) := by
  unfold sqTailWrite
  extract_lets v0
  refine Moves.ite ?_ ?_
  · exact Moves.refl _ _
  · refine Moves.ite ?_ ?_
    · refine Moves.seq (haltSq_moves ..) (by decide) ?_
      exact Moves.refl _ _
    · refine Moves.seq (fset_moves ..) (by decide) ?_
      exact Moves.refl _ _

theorem execCmdSqTailWrite_runs (a0 a1 s) : Runs [.mem, .regs, .cnt, .hif, .ddr, .out] s (execCmdSqTailWrite a0 a1 s) := by
  unfold execCmdSqTailWrite
  refine Runs.next ?_
  refine Moves.seq (sqTailWrite_moves ..) (by decide) ?_
  exact Moves.refl _ _

theorem cqHeadWrite_moves (a0 a1 s) : Moves [.regs, .hif] s (cqHeadWrite a0 a1 s) := by
  unfold cqHeadWrite
  extract_lets v0 v1 v2 v3 v4 v5 v6
  have h200 : Moves [.regs, .hif] s v6 := by
    refine Moves.hif_with (by decide) ?_
    exact Moves.refl _ _
  refine Moves.ite ?_ ?_
  · refine Moves.seq (fset_moves ..) (by decide) ?_
    exact Moves.refl _ _
  · refine Moves.seq (lopSync_moves ..) (by decide) ?_
    refine Moves.seq (fset_moves ..) (by decide) ?_
    exact h200

theorem execCmdCqHeadWrite_runs (a0 a1 s) : Runs [.regs, .hif] s (execCmdCqHeadWrite a0 a1 s) := by
  unfold execCmdCqHeadWrite
  refine Runs.next ?_
  refine Moves.seq (cqHeadWrite_moves ..) (by decide) ?_
  exact Moves.refl _ _

theorem resultAck_moves (a0 a1 s) : Moves [.hif] s (resultAck a0 a1 s) := by
  unfold resultAck
  extract_lets v0 v1
  split
  · refine Moves.ite ?_ ?_
    · refine Moves.hif_with (by decide) ?_
      exact Moves.refl _ _
    · exact Moves.refl _ _
  · exact Moves.refl _ _

theorem execCmdResultAck_runs (a0 a1 s) : Runs [.hif] s (execCmdResultAck a0 a1 s) := by
  unfold execCmdResultAck
  refine Runs.next ?_
  refine Moves.seq (resultAck_moves ..) (by decide) ?_
  exact Moves.refl _ _

theorem cmdEnable_moves (a0 a1 s) : Moves [.regs, .hif] s (cmdEnable a0 a1 s) := by
  unfold cmdEnable
  extract_lets v0 v1 v2 v3 v4
  have h200 : Moves [.regs, .hif] s v1 := by
    refine Moves.seq (fset_moves ..) (by decide) ?_
    refine Moves.seq (fset_moves ..) (by decide) ?_
    exact Moves.refl _ _
  have h201 : Moves [.regs, .hif] s v2 := by
    refine Moves.seq (fset_moves ..) (by decide) ?_
    refine Moves.seq (fset_moves ..) (by decide) ?_
    refine Moves.seq (fset_moves ..) (by decide) ?_
    exact h200
  have h202 : Moves [.regs, .hif] s v4 := by
    refine Moves.hif_with (by decide) ?_
    exact Moves.refl _ _
  refine Moves.ite ?_ ?_
  · refine Moves.ite ?_ ?_
    · exact Moves.refl _ _
    · refine Moves.ite ?_ ?_
      · refine Moves.seq (fset_moves ..) (by decide) ?_
        exact Moves.refl _ _
      · refine Moves.seq (fset_moves ..) (by decide) ?_
        refine Moves.seq (fset_moves ..) (by decide) ?_
        exact h201
  · refine Moves.ite ?_ ?_
    · exact Moves.refl _ _
    · refine Moves.seq (lopSync_moves ..) (by decide) ?_
      refine Moves.seq (fset_moves ..) (by decide) ?_
      refine Moves.seq (fset_moves ..) (by decide) ?_
      exact h202

theorem execCmdEnable_runs (a0 a1 s) : Runs [.regs, .hif] s (execCmdEnable a0 a1 s) := by
  unfold execCmdEnable
  refine Runs.next ?_
  refine Moves.seq (cmdEnable_moves ..) (by decide) ?_
  exact Moves.refl _ _

theorem haltCauseSync_moves (a0 s) : Moves [.regs] s (haltCauseSync a0 s) := by
  unfold haltCauseSync
  refine Moves.ite ?_ ?_
  · exact Moves.refl _ _
  · refine Moves.seq (fset_moves ..) (by decide) ?_
    exact Moves.refl _ _

theorem sqResume_moves (a0 s) : Moves [.regs] s (sqResume a0 s) := by
  unfold sqResume
  refine Moves.ite ?_ ?_
  · exact Moves.refl _ _
  · refine Moves.seq (haltCauseSync_moves ..) (by decide) ?_
    refine Moves.seq (fset_moves ..) (by decide) ?_
    refine Moves.seq (fset_moves ..) (by decide) ?_
    exact Moves.refl _ _

theorem execSqHaltedClear_runs (a0 s) : Runs [.regs] s (execSqHaltedClear a0 s) := by
  unfold execSqHaltedClear
  refine Runs.next ?_
  refine Moves.seq (sqResume_moves ..) (by decide) ?_
  exact Moves.refl _ _

theorem cqResume_moves (a0 s) : Moves [.mem, .regs, .cnt, .hif, .ddr, .out] s (cqResume a0 s) := by
  unfold cqResume
  refine Moves.ite ?_ ?_
  · exact Moves.refl _ _
  · refine Moves.seq (cqFlush_moves ..) (by decide) ?_
    refine Moves.seq (haltCauseSync_moves ..) (by decide) ?_
    refine Moves.seq (fset_moves ..) (by decide) ?_
    exact Moves.refl _ _

theorem execCqHaltedClear_runs (a0 s) : Runs [.mem, .regs, .cnt, .hif, .ddr, .out] s (execCqHaltedClear a0 s) := by
  unfold execCqHaltedClear
  refine Runs.next ?_
  refine Moves.seq (cqResume_moves ..) (by decide) ?_
  exact Moves.refl _ _

theorem evqHeadWrite_moves (a0 a1 a2 s) : Moves [.regs] s (evqHeadWrite a0 a1 a2 s) := by
  unfold evqHeadWrite
  extract_lets v0
  refine Moves.ite ?_ ?_
  · refine Moves.seq (fset_moves ..) (by decide) ?_
    exact Moves.refl _ _
  · exact Moves.refl _ _

theorem execIntEvqHeadWrite_runs (a0 a1 a2 s) : Runs [.regs] s (execIntEvqHeadWrite a0 a1 a2 s) := by
  unfold execIntEvqHeadWrite
  refine Runs.next ?_
  refine Moves.seq (evqHeadWrite_moves ..) (by decide) ?_
  exact Moves.refl _ _

theorem evDeliver_moves (a0 a1 a2 s) : Moves [.mem, .regs, .hif, .out] s (evDeliver a0 a1 a2 s) := by
  unfold evDeliver
  split
  · exact Moves.refl _ _
  · extract_lets v0 v1 v2 v3 v4 v5
    split
    · exact Moves.refl _ _
    · refine Moves.ite ?_ ?_
      · exact Moves.refl _ _
      · extract_lets v200 v201 v202 v203
        have h400 : Moves [.mem, .regs, .hif, .out] s v200 := by
          refine Moves.seq (hostWrite_moves ..) (by decide) ?_
          exact Moves.refl _ _
        have h401 : Moves [.mem, .regs, .hif, .out] s v201 := by
          refine Moves.seq (evqPut_moves ..) (by decide) ?_
          exact h400
        have h402 : Moves [.mem, .regs, .hif, .out] s v202 := by
          refine Moves.seq (fset_moves ..) (by decide) ?_
          exact h401
        have h403 : Moves [.mem, .regs, .hif, .out] s v203 := by
          refine Moves.ite ?_ ?_
          · refine Moves.seq (fset_moves ..) (by decide) ?_
            exact h402
          · exact h402
        refine Moves.ite ?_ ?_
        · refine Moves.seq (signal_moves ..) (by decide) ?_
          exact h403
        · exact h403

theorem execEventDeliver_runs (a0 a1 a2 s) : Runs [.mem, .regs, .hif, .out] s (execEventDeliver a0 a1 a2 s) := by
  unfold execEventDeliver
  refine Runs.next ?_
  refine Moves.seq (evDeliver_moves ..) (by decide) ?_
  exact Moves.refl _ _

theorem evqReset_moves (a0 s) : Moves [.regs, .hif] s (evqReset a0 s) := by
  unfold evqReset
  refine Moves.foldl (fun _ y0 => ?_) ?_
  · extract_lets v1
    have h201 : Moves [.regs, .hif] y0 v1 := by
      refine Moves.seq (resetRange_moves ..) (by decide) ?_
      exact Moves.refl _ _
    split
    · refine Moves.seq (evqPut_moves ..) (by decide) ?_
      exact h201
    · exact h201
  · exact Moves.refl _ _

theorem fnReset_moves (a0 s) : Moves [.regs, .hif, .key, .obs] s (fnReset a0 s) := by
  unfold fnReset
  extract_lets v0 v1 v2 v3 v4 v5 v6 v7
  have h200 : Moves [.regs, .hif, .key, .obs] s v4 := by
    refine Moves.hif_obs_with (by decide) (by decide) ?_
    exact Moves.refl _ _
  have h201 : Moves [.regs, .hif, .key, .obs] s v5 := by
    refine Moves.seq (resetRange_moves ..) (by decide) ?_
    exact h200
  have h202 : Moves [.regs, .hif, .key, .obs] s v6 := by
    refine Moves.seq (evqReset_moves ..) (by decide) ?_
    exact h201
  have h203 : Moves [.regs, .hif, .key, .obs] s v7 := by
    refine Moves.seq (resetRange_moves ..) (by decide) ?_
    refine Moves.seq (resetRange_moves ..) (by decide) ?_
    exact h202
  refine Moves.seq (lopSync_moves ..) (by decide) ?_
  refine Moves.seq (keyDiscard_moves ..) (by decide) ?_
  exact h203

theorem execFunctionLevelReset_runs (a0 s) : Runs [.regs, .hif, .key, .obs] s (execFunctionLevelReset a0 s) := by
  unfold execFunctionLevelReset
  refine Runs.next ?_
  refine Moves.seq (fnReset_moves ..) (by decide) ?_
  exact Moves.refl _ _

theorem linkSet_moves (a0 s) : Moves [.mem] s (linkSet a0 s) := by
  unfold linkSet
  refine Moves.mem_with (by decide) ?_
  exact Moves.refl _ _

theorem execPcieLinkDown_runs (s) : Runs [.mem] s (execPcieLinkDown s) := by
  unfold execPcieLinkDown
  refine Runs.next ?_
  refine Moves.seq (linkSet_moves ..) (by decide) ?_
  exact Moves.refl _ _

theorem execPcieLinkUp_runs (s) : Runs [.mem, .regs, .cnt, .hif, .ctl, .ddr, .dma, .out] s (execPcieLinkUp s) := by
  unfold execPcieLinkUp
  refine Runs.next ?_
  refine Moves.seq (dmaBoundary_moves ..) (by decide) ?_
  refine Moves.seq (excFlush_moves ..) (by decide) ?_
  refine Moves.foldl (fun _ y0 => ?_) ?_
  · refine Moves.seq (cqFlush_moves ..) (by decide) ?_
    exact Moves.refl _ _
  · refine Moves.seq (linkSet_moves ..) (by decide) ?_
    exact Moves.refl _ _

theorem execPciePerst_runs (s) : Runs [.mem, .regs, .hif, .key, .obs] s (execPciePerst s) := by
  unfold execPciePerst
  refine Runs.next ?_
  refine Moves.seq (linkSet_moves ..) (by decide) ?_
  refine Moves.foldl (fun _ y0 => ?_) ?_
  · refine Moves.seq (fnReset_moves ..) (by decide) ?_
    exact Moves.refl _ _
  · exact Moves.refl _ _

theorem legDrainEnd_moves (a0 s) : Moves [.mem, .regs, .cnt, .hif, .ctl, .aud, .egr, .src, .fwd, .vid, .flt, .ddr, .cas, .out] s (legDrainEnd a0 s) := by
  unfold legDrainEnd
  split
  · exact Moves.refl _ _
  · refine Moves.ite ?_ ?_
    · exact Moves.refl _ _
    · extract_lets v0 v1 v2 v3
      have h200 : Moves [.mem, .regs, .cnt, .hif, .ctl, .aud, .egr, .src, .fwd, .vid, .flt, .ddr, .cas, .out] s v3 := by
        refine Moves.seq (legFree_moves ..) (by decide) ?_
        refine Moves.hif_with (by decide) ?_
        exact Moves.refl _ _
      refine Moves.foldl (fun _ y201 => ?_) ?_
      · refine Moves.seq (flightEnd_moves ..) (by decide) ?_
        exact Moves.refl _ _
      · exact h200

theorem execLegDrainEnd_runs (a0 s) : Runs [.mem, .regs, .cnt, .hif, .ctl, .aud, .egr, .src, .fwd, .vid, .flt, .ddr, .cas, .out] s (execLegDrainEnd a0 s) := by
  unfold execLegDrainEnd
  refine Runs.next ?_
  refine Moves.seq (legDrainEnd_moves ..) (by decide) ?_
  exact Moves.refl _ _

theorem drainsEnd_moves (s) : Moves [.mem, .regs, .cnt, .hif, .ctl, .aud, .egr, .src, .fwd, .vid, .flt, .ddr, .cas, .out] s (drainsEnd s) := by
  unfold drainsEnd
  refine Moves.foldl (fun _ y0 => ?_) ?_
  · refine Moves.seq (legDrainEnd_moves ..) (by decide) ?_
    exact Moves.refl _ _
  · exact Moves.refl _ _

theorem traceOn_moves (s) : Moves [.regs] s (traceOn s) := by
  unfold traceOn
  refine Moves.ite ?_ ?_
  · exact Moves.refl _ _
  · refine Moves.ite ?_ ?_
    · refine Moves.seq (fset_moves ..) (by decide) ?_
      exact Moves.refl _ _
    · refine Moves.seq (fset_moves ..) (by decide) ?_
      exact Moves.refl _ _

theorem execTraceEnable_runs (s) : Runs [.regs] s (execTraceEnable s) := by
  unfold execTraceEnable
  refine Runs.next ?_
  refine Moves.seq (traceOn_moves ..) (by decide) ?_
  exact Moves.refl _ _

theorem execBufferResizeEffect_runs (a0 a1 s) : Runs [.mem, .regs, .cnt, .hif, .ctl, .egr, .obs, .crsl, .ddr, .out] s (execBufferResizeEffect a0 a1 s) := by
  unfold execBufferResizeEffect
  refine Runs.next ?_
  split
  · refine Moves.seq (jrSettle_moves ..) (by decide) ?_
    exact Moves.refl _ _
  · refine Moves.seq (evqResize_moves ..) (by decide) ?_
    exact Moves.refl _ _
  · refine Moves.seq (rwSettle_moves ..) (by decide) ?_
    exact Moves.refl _ _
  · refine Moves.seq (rqSettle_moves ..) (by decide) ?_
    exact Moves.refl _ _
  · exact Moves.refl _ _

theorem execAudLegMeterRead_runs (a0 s) : Runs [.hif, .ctl, .aud, .egr, .fwd, .vid] s (execAudLegMeterRead a0 s) := by
  unfold execAudLegMeterRead
  extract_lets v0 v1
  have h200 : Moves [.hif, .ctl, .aud, .egr, .fwd, .vid] s v0 := by
    refine Moves.seq (seen_moves ..) (by decide) ?_
    exact Moves.refl _ _
  refine Runs.next ?_
  split
  · refine Moves.hif_with (by decide) ?_
    exact Moves.refl _ _
  · refine Moves.hif_with (by decide) ?_
    exact Moves.refl _ _

end Sys2Proof.Machine
end

