-- ==== Sys2Proof/Laws/ChKeyRows.lean ====
section
/-! SUPPORT. What each operation of Machine/KeyRows.lean may change: one lemma for each, which says every part of State that it
can alter, and that it keeps the invariant. -/

set_option Elab.async false

namespace Sys2Proof.Machine

theorem execKeyLoad_runs (a0 s) : Runs [.regs, .key] s (execKeyLoad a0 s) := by
  unfold execKeyLoad
  refine Runs.next ?_
  refine Moves.seq (keyGo_moves ..) (by decide) ?_
  exact Moves.refl _ _

theorem execKeyErase_runs (a0 s) : Runs [.regs, .key] s (execKeyErase a0 s) := by
  unfold execKeyErase
  refine Runs.next ?_
  refine Moves.seq (keyGo_moves ..) (by decide) ?_
  exact Moves.refl _ _

theorem execKeyAbort_runs (a0 s) : Runs [.regs, .key] s (execKeyAbort a0 s) := by
  unfold execKeyAbort
  refine Runs.next ?_
  refine Moves.seq (keyGo_moves ..) (by decide) ?_
  exact Moves.refl _ _

theorem execKeyLoadDataWrite_runs (a0 a1 a2 s) : Runs [.regs, .key] s (execKeyLoadDataWrite a0 a1 a2 s) := by
  unfold execKeyLoadDataWrite
  refine Runs.ite ?_ ?_
  · extract_lets v0 v1
    refine Runs.next ?_
    refine Moves.seq (fset_moves ..) (by decide) ?_
    refine Moves.seq (keyStagePut_moves ..) (by decide) ?_
    exact Moves.refl _ _
  · refine Runs.next ?_
    exact Moves.refl _ _

theorem execKeyOpComplete_runs (s) : Runs [.regs, .cnt, .key] s (execKeyOpComplete s) := by
  unfold execKeyOpComplete
  refine Runs.next ?_
  refine Moves.seq (keyComplete_moves ..) (by decide) ?_
  exact Moves.refl _ _

theorem execKeySlotError_runs (a0 s) : Runs [.mem, .regs, .cnt, .hif, .ctl, .key, .ddr, .out] s (execKeySlotError a0 s) := by
  unfold execKeySlotError
  extract_lets v0 v1
  have h200 : Moves [.mem, .regs, .cnt, .hif, .ctl, .key, .ddr, .out] s v0 := by
    refine Moves.seq (keyUnref_moves ..) (by decide) ?_
    refine Moves.seq (keyEmpty_moves ..) (by decide) ?_
    exact Moves.refl _ _
  have h201 : Moves [.mem, .regs, .cnt, .hif, .ctl, .key, .ddr, .out] s v1 := by
    refine Moves.seq (cinc_moves ..) (by decide) ?_
    refine Moves.seq (fset_moves ..) (by decide) ?_
    exact h200
  refine Runs.next ?_
  refine Moves.seq (raise_moves ..) (by decide) ?_
  exact h201

theorem execScaCfgWrite_runs (a0 s) : Runs [.mem, .regs, .cnt, .hif, .ddr, .out] s (execScaCfgWrite a0 s) := by
  unfold execScaCfgWrite
  refine Runs.ite ?_ ?_
  · refine Runs.next ?_
    refine Moves.seq (raiseUnit_moves ..) (by decide) ?_
    refine Moves.seq (cinc_moves ..) (by decide) ?_
    exact Moves.refl _ _
  · refine Runs.next ?_
    refine Moves.seq (fset_moves ..) (by decide) ?_
    refine Moves.seq (fset_moves ..) (by decide) ?_
    exact Moves.refl _ _

theorem execEntropyHealthFail_runs (s) : Runs [.mem, .regs, .cnt, .hif, .ddr, .out] s (execEntropyHealthFail s) := by
  unfold execEntropyHealthFail
  refine Runs.next ?_
  refine Moves.seq (raiseUnit_moves ..) (by decide) ?_
  refine Moves.seq (fset_moves ..) (by decide) ?_
  refine Moves.seq (fset_moves ..) (by decide) ?_
  exact Moves.refl _ _

theorem execRekeyGraceEnd_runs (a0 s) : Runs [.ctl] s (execRekeyGraceEnd a0 s) := by
  unfold execRekeyGraceEnd
  refine Runs.next ?_
  split
  · exact Moves.refl _ _
  · split
    · exact Moves.refl _ _
    · refine Moves.ite ?_ ?_
      · refine Moves.seq (streamPut_moves ..) (by decide) ?_
        exact Moves.refl _ _
      · exact Moves.refl _ _

end Sys2Proof.Machine
end

