-- ==== Sys2Proof/Laws/ChTdmRows.lean ====
section
/-! SUPPORT. What each operation of Machine/TdmRows.lean may change: one lemma for each, which says every part of State that it
can alter, and that it keeps the invariant. -/

set_option Elab.async false

namespace Sys2Proof.Machine

theorem execSrcSelectFilter_runs (a0 s) : Runs [.regs, .src] s (execSrcSelectFilter a0 s) := by
  unfold execSrcSelectFilter
  refine Runs.next ?_
  refine Moves.ite ?_ ?_
  · refine Moves.seq (srcGo_moves ..) (by decide) ?_
    exact Moves.refl _ _
  · exact Moves.refl _ _

theorem execSrcBindSlot_runs (a0 s) : Runs [.regs, .src] s (execSrcBindSlot a0 s) := by
  unfold execSrcBindSlot
  refine Runs.next ?_
  refine Moves.ite ?_ ?_
  · refine Moves.seq (srcGo_moves ..) (by decide) ?_
    exact Moves.refl _ _
  · exact Moves.refl _ _

theorem execSrcUnbindSlot_runs (a0 s) : Runs [.regs, .src] s (execSrcUnbindSlot a0 s) := by
  unfold execSrcUnbindSlot
  refine Runs.next ?_
  refine Moves.ite ?_ ?_
  · refine Moves.seq (srcGo_moves ..) (by decide) ?_
    exact Moves.refl _ _
  · exact Moves.refl _ _

theorem execSrcBankCoefWrite_runs (a0 s) : Runs [.regs, .src] s (execSrcBankCoefWrite a0 s) := by
  unfold execSrcBankCoefWrite
  refine Runs.next ?_
  refine Moves.seq (bankCoef_moves ..) (by decide) ?_
  exact Moves.refl _ _

theorem execSrcBankCommit_runs (s) : Runs [.regs, .src] s (execSrcBankCommit s) := by
  unfold execSrcBankCommit
  refine Runs.next ?_
  refine Moves.seq (bankCommit_moves ..) (by decide) ?_
  exact Moves.refl _ _

theorem execSrcBankAbort_runs (s) : Runs [.regs, .src] s (execSrcBankAbort s) := by
  unfold execSrcBankAbort
  refine Runs.next ?_
  refine Moves.seq (bankAbort_moves ..) (by decide) ?_
  exact Moves.refl _ _

theorem execSrcBankClear_runs (s) : Runs [.regs, .src] s (execSrcBankClear s) := by
  unfold execSrcBankClear
  refine Runs.next ?_
  refine Moves.seq (bankClear_moves ..) (by decide) ?_
  exact Moves.refl _ _

theorem execTdmFrame_runs (a0 a1 s) : Runs [.mem, .regs, .cnt, .hif, .src, .obs, .ddr, .out, .free] s (execTdmFrame a0 a1 s) := by
  unfold execTdmFrame
  refine Runs.next ?_
  refine Moves.ite ?_ ?_
  · refine Moves.seq (tdmTake_moves ..) (by decide) ?_
    refine Moves.seq (tdmSend_moves ..) (by decide) ?_
    exact Moves.refl _ _
  · exact Moves.refl _ _

theorem execTdmClockLoss_runs (a0 s) : Runs [.mem, .regs, .cnt, .hif, .src, .ddr, .out] s (execTdmClockLoss a0 s) := by
  unfold execTdmClockLoss
  refine Runs.next ?_
  refine Moves.ite ?_ ?_
  · refine Moves.seq (raiseUnit_moves ..) (by decide) ?_
    refine Moves.seq (fset_moves ..) (by decide) ?_
    refine Moves.seq (tdmPortPut_moves ..) (by decide) ?_
    exact Moves.refl _ _
  · exact Moves.refl _ _

theorem execTdmClockRestored_runs (a0 s) : Runs [.regs, .src] s (execTdmClockRestored a0 s) := by
  unfold execTdmClockRestored
  refine Runs.next ?_
  refine Moves.ite ?_ ?_
  · refine Moves.seq (tdmSettle_moves ..) (by decide) ?_
    refine Moves.seq (tdmPortPut_moves ..) (by decide) ?_
    exact Moves.refl _ _
  · exact Moves.refl _ _

theorem pinTested_moves (a0 a1 s) : Moves [.src] s (pinTested a0 a1 s) := by
  unfold pinTested
  extract_lets v0
  refine Moves.seq (tdmPortPut_moves ..) (by decide) ?_
  exact Moves.refl _ _

theorem pinSet_moves (a0 a1 a2 s) : Moves [.mem, .regs, .cnt, .hif, .src, .ddr, .out] s (pinSet a0 a1 a2 s) := by
  unfold pinSet
  refine Moves.ite ?_ ?_
  · exact Moves.refl _ _
  · extract_lets v0 v1 v2
    have h200 : Moves [.mem, .regs, .cnt, .hif, .src, .ddr, .out] s v1 := by
      refine Moves.seq (fset_moves ..) (by decide) ?_
      refine Moves.seq (pinTested_moves ..) (by decide) ?_
      exact Moves.refl _ _
    have h201 : Moves [.mem, .regs, .cnt, .hif, .src, .ddr, .out] s v2 := by
      refine Moves.ite ?_ ?_
      · refine Moves.seq (tdmSettle_moves ..) (by decide) ?_
        exact h200
      · exact h200
    refine Moves.ite ?_ ?_
    · refine Moves.seq (raiseUnit_moves ..) (by decide) ?_
      exact h201
    · refine Moves.seq (raiseUnit_moves ..) (by decide) ?_
      refine Moves.seq (cinc_moves ..) (by decide) ?_
      exact h201

theorem execTdmPinShort_runs (a0 a1 a2 s) : Runs [.mem, .regs, .cnt, .hif, .src, .ddr, .out] s (execTdmPinShort a0 a1 a2 s) := by
  unfold execTdmPinShort
  refine Runs.next ?_
  refine Moves.ite ?_ ?_
  · refine Moves.seq (pinSet_moves ..) (by decide) ?_
    exact Moves.refl _ _
  · exact Moves.refl _ _

theorem execTdmPinTest_runs (a0 a1 a2 a3 s) : Runs [.mem, .regs, .cnt, .hif, .src, .ddr, .out] s (execTdmPinTest a0 a1 a2 a3 s) := by
  unfold execTdmPinTest
  refine Runs.next ?_
  refine Moves.ite ?_ ?_
  · exact Moves.refl _ _
  · refine Moves.seq (pinSet_moves ..) (by decide) ?_
    exact Moves.refl _ _

theorem execTdmPinRetest_runs (a0 a1 a2 s) : Runs [.mem, .regs, .cnt, .hif, .src, .ddr, .out] s (execTdmPinRetest a0 a1 a2 s) := by
  unfold execTdmPinRetest
  extract_lets v0
  refine Runs.next ?_
  refine Moves.ite ?_ ?_
  · exact Moves.refl _ _
  · refine Moves.ite ?_ ?_
    · refine Moves.seq (pinSet_moves ..) (by decide) ?_
      exact Moves.refl _ _
    · refine Moves.seq (pinTested_moves ..) (by decide) ?_
      exact Moves.refl _ _

theorem execTdmAutoSwap_runs (a0 s) : Runs [.mem, .regs, .cnt, .hif, .ddr, .out] s (execTdmAutoSwap a0 s) := by
  unfold execTdmAutoSwap
  extract_lets v0 v1 v2
  refine Runs.next ?_
  refine Moves.ite ?_ ?_
  · refine Moves.seq (raiseUnit_moves ..) (by decide) ?_
    refine Moves.seq (fset_moves ..) (by decide) ?_
    exact Moves.refl _ _
  · exact Moves.refl _ _

theorem execTdmDupTakeover_runs (a0 s) : Runs [.mem, .regs, .cnt, .hif, .src, .flt, .ddr, .ldg, .out] s (execTdmDupTakeover a0 s) := by
  unfold execTdmDupTakeover
  extract_lets v0 v1
  have h200 : Moves [.mem, .regs, .cnt, .hif, .src, .flt, .ddr, .ldg, .out] s v0 := by
    unfold v0
    refine Moves.seq (faultDeclare_moves ..) (by decide) ?_
    exact Moves.refl _ _
  refine Runs.next ?_
  refine Moves.seq (raiseUnit_moves ..) (by decide) ?_
  refine Moves.seq (tdmPortPut_moves ..) (by decide) ?_
  exact h200

end Sys2Proof.Machine
end

