-- ==== Sys2Proof/Laws/ChRegWrite.lean ====
section
/-! SUPPORT. What each operation of Machine/RegWrite.lean may change: one lemma for each, which says every part of State that it
can alter, and that it keeps the invariant. -/

set_option Elab.async false

namespace Sys2Proof.Machine

theorem ran_moves {ps : List Part} {s : State} {o : Out} (h : Runs ps s o) : Moves ps s (ran o s) := by
  obtain ⟨t, e, c⟩ := h
  subst e
  exact c

theorem fieldWrite_moves (a0 a1 a2 s) : Moves [.regs] s (fieldWrite a0 a1 a2 s) := by
  unfold fieldWrite
  extract_lets v0 v1 v2
  split
  · refine Moves.ite ?_ ?_
    · refine Moves.seq (fset_moves ..) (by decide) ?_
      exact Moves.refl _ _
    · exact Moves.refl _ _
  · refine Moves.seq (fset_moves ..) (by decide) ?_
    exact Moves.refl _ _
  · refine Moves.seq (fset_moves ..) (by decide) ?_
    exact Moves.refl _ _
  · exact Moves.refl _ _

theorem fieldsWrite_moves (a0 a1 s) : Moves [.regs] s (fieldsWrite a0 a1 s) := by
  unfold fieldsWrite
  refine Moves.foldl (fun _ y0 => ?_) ?_
  · refine Moves.seq (fieldWrite_moves ..) (by decide) ?_
    exact Moves.refl _ _
  · exact Moves.refl _ _

theorem cmdStatusWrite_moves (a0 a1 s) : Moves [.mem, .regs, .cnt, .hif, .ddr, .out] s (cmdStatusWrite a0 a1 s) := by
  unfold cmdStatusWrite
  extract_lets v0 v1 v2
  have h200 : Moves [.mem, .regs, .cnt, .hif, .ddr, .out] s v0 := by
    refine Moves.ite ?_ ?_
    · refine Moves.seq (fset_moves ..) (by decide) ?_
      exact Moves.refl _ _
    · exact Moves.refl _ _
  have h201 : Moves [.mem, .regs, .cnt, .hif, .ddr, .out] s v1 := by
    refine Moves.ite ?_ ?_
    · refine Moves.seq (fset_moves ..) (by decide) ?_
      exact h200
    · exact h200
  have h202 : Moves [.mem, .regs, .cnt, .hif, .ddr, .out] s v2 := by
    refine Moves.ite ?_ ?_
    · refine Moves.seq (sqResume_moves ..) (by decide) ?_
      exact h201
    · exact h201
  refine Moves.ite ?_ ?_
  · refine Moves.seq (cqResume_moves ..) (by decide) ?_
    exact h202
  · exact h202

theorem ringCfgWrite_moves (a0 a1 a2 a3 a4 a5 s) : Moves [.regs] s (ringCfgWrite a0 a1 a2 a3 a4 a5 s) := by
  unfold ringCfgWrite
  extract_lets v0 v1
  have h200 : Moves [.regs] s v1 := by
    refine Moves.seq (fieldsWrite_moves ..) (by decide) ?_
    exact Moves.refl _ _
  refine Moves.ite ?_ ?_
  · refine Moves.seq (fset_moves ..) (by decide) ?_
    refine Moves.seq (fset_moves ..) (by decide) ?_
    refine Moves.seq (fset_moves ..) (by decide) ?_
    exact h200
  · exact h200

theorem linkCfgWrite_moves (a0 a1 a2 s) : Moves [.regs, .cnt] s (linkCfgWrite a0 a1 a2 s) := by
  unfold linkCfgWrite
  extract_lets v0 v1
  have h200 : Moves [.regs, .cnt] s v1 := by
    refine Moves.seq (fset_moves ..) (by decide) ?_
    refine Moves.seq (fieldsWrite_moves ..) (by decide) ?_
    exact Moves.refl _ _
  refine Moves.ite ?_ ?_
  · exact h200
  · refine Moves.ite ?_ ?_
    · refine Moves.seq (linkDisable_moves ..) (by decide) ?_
      exact h200
    · refine Moves.seq (linkEnable_moves ..) (by decide) ?_
      exact h200

theorem keyCtrlWrite_moves (a0 a1 s) : Moves [.regs, .key] s (keyCtrlWrite a0 a1 s) := by
  unfold keyCtrlWrite
  refine Moves.ite ?_ ?_
  · refine Moves.seq (keyGo_moves ..) (by decide) ?_
    exact Moves.refl _ _
  · exact Moves.refl _ _

theorem bankCfgWrite_moves (a0 s) : Moves [.regs, .src] s (bankCfgWrite a0 s) := by
  unfold bankCfgWrite
  extract_lets v0 v1
  refine Moves.seq (bankPut_moves ..) (by decide) ?_
  exact Moves.refl _ _

theorem bankCtrlWrite_moves (a0 s) : Moves [.regs, .src] s (bankCtrlWrite a0 s) := by
  unfold bankCtrlWrite
  refine Moves.ite ?_ ?_
  · exact Moves.refl _ _
  · split
    · refine Moves.seq (bankAbort_moves ..) (by decide) ?_
      exact Moves.refl _ _
    · refine Moves.seq (bankCommit_moves ..) (by decide) ?_
      exact Moves.refl _ _
    · refine Moves.seq (bankClear_moves ..) (by decide) ?_
      exact Moves.refl _ _
    · exact Moves.refl _ _

theorem portsSettle_moves (s) : Moves [.regs] s (portsSettle s) := by
  unfold portsSettle
  refine Moves.foldl (fun _ y0 => ?_) ?_
  · refine Moves.seq (tdmSettle_moves ..) (by decide) ?_
    exact Moves.refl _ _
  · exact Moves.refl _ _

theorem tdmCfgWrite_moves (a0 a1 a2 s) : Moves [.regs] s (tdmCfgWrite a0 a1 a2 s) := by
  unfold tdmCfgWrite
  extract_lets v0 v1
  have h200 : Moves [.regs] s v1 := by
    refine Moves.seq (fieldsWrite_moves ..) (by decide) ?_
    exact Moves.refl _ _
  refine Moves.seq (portsSettle_moves ..) (by decide) ?_
  refine Moves.ite ?_ ?_
  · refine Moves.seq (fset_moves ..) (by decide) ?_
    exact h200
  · exact h200

theorem coreCtrlWrite_moves (a0 a1 s) : Moves [.mem, .regs, .cnt, .hif, .crsl, .ddr, .out] s (coreCtrlWrite a0 a1 s) := by
  unfold coreCtrlWrite
  extract_lets v0 v1 v2 v3
  have h200 : Moves [.mem, .regs, .cnt, .hif, .crsl, .ddr, .out] s v0 := by
    refine Moves.seq (fset_moves ..) (by decide) ?_
    exact Moves.refl _ _
  have h201 : Moves [.mem, .regs, .cnt, .hif, .crsl, .ddr, .out] s v1 := by
    refine Moves.ite ?_ ?_
    · exact h200
    · refine Moves.seq (debugEnable_moves ..) (by decide) ?_
      exact h200
  have h202 : Moves [.mem, .regs, .cnt, .hif, .crsl, .ddr, .out] s v2 := by
    refine Moves.ite ?_ ?_
    · refine Moves.seq (ran_moves (execDebugHaltRequest_runs ..)) (by decide) ?_
      exact h201
    · exact h201
  have h203 : Moves [.mem, .regs, .cnt, .hif, .crsl, .ddr, .out] s v3 := by
    refine Moves.ite ?_ ?_
    · refine Moves.seq (ran_moves (execDebugStep_runs ..)) (by decide) ?_
      exact h202
    · exact h202
  refine Moves.ite ?_ ?_
  · refine Moves.seq (ran_moves (execDebugResume_runs ..)) (by decide) ?_
    exact h203
  · exact h203

theorem debugDataWrite_moves (a0 a1 s) : Moves [.crsl] s (debugDataWrite a0 a1 s) := by
  unfold debugDataWrite
  refine Moves.ite ?_ ?_
  · exact Moves.refl _ _
  · extract_lets v0 v1 v2 v3 v4 v5
    refine Moves.seq (corePut_moves ..) (by decide) ?_
    exact Moves.refl _ _

theorem ringPoolWrite_moves (a0 a1 s) : Moves [.regs] s (ringPoolWrite a0 a1 s) := by
  unfold ringPoolWrite
  extract_lets v0
  have h200 : Moves [.regs] s v0 := by
    refine Moves.seq (fieldsWrite_moves ..) (by decide) ?_
    exact Moves.refl _ _
  refine Moves.ite ?_ ?_
  · exact Moves.refl _ _
  · exact h200

theorem rwStatusWrite_moves (a0 a1 s) : Moves [.egr] s (rwStatusWrite a0 a1 s) := by
  unfold rwStatusWrite
  split
  · exact Moves.refl _ _
  · split
    · refine Moves.ite ?_ ?_
      · refine Moves.egr_with (by decide) ?_
        exact Moves.refl _ _
      · exact Moves.refl _ _
    · exact Moves.refl _ _

theorem linkOverheadWrite_moves (a0 a1 s) : Moves [.regs] s (linkOverheadWrite a0 a1 s) := by
  unfold linkOverheadWrite
  refine Moves.ite ?_ ?_
  · exact Moves.refl _ _
  · refine Moves.seq (fieldsWrite_moves ..) (by decide) ?_
    exact Moves.refl _ _

theorem dmaCfgWrite_moves (a0 a1 a2 s) : Moves [.regs] s (dmaCfgWrite a0 a1 a2 s) := by
  unfold dmaCfgWrite
  extract_lets v0 v1 v2 v3
  have h200 : Moves [.regs] s v3 := by
    refine Moves.seq (fieldsWrite_moves ..) (by decide) ?_
    exact Moves.refl _ _
  refine Moves.seq (portsSettle_moves ..) (by decide) ?_
  refine Moves.ite ?_ ?_
  · refine Moves.seq (fset_moves ..) (by decide) ?_
    exact h200
  · exact h200

theorem tdmOwnWrite_moves (a0 a1 s) : Moves [.regs] s (tdmOwnWrite a0 a1 s) := by
  unfold tdmOwnWrite
  refine Moves.ite ?_ ?_
  · refine Moves.seq (fieldsWrite_moves ..) (by decide) ?_
    exact Moves.refl _ _
  · exact Moves.refl _ _

theorem dmaCtrlWrite_moves (a0 a1 s) : Moves [.mem, .regs, .cnt, .hif, .ddr, .dma, .out, .free] s (dmaCtrlWrite a0 a1 s) := by
  unfold dmaCtrlWrite
  extract_lets v0 v1 v2 v3
  have h200 : Moves [.mem, .regs, .cnt, .hif, .ddr, .dma, .out, .free] s v0 := by
    refine Moves.ite ?_ ?_
    · exact Moves.refl _ _
    · refine Moves.seq (ran_moves (execDmaEnable_runs ..)) (by decide) ?_
      exact Moves.refl _ _
  have h201 : Moves [.mem, .regs, .cnt, .hif, .ddr, .dma, .out, .free] s v1 := by
    refine Moves.ite ?_ ?_
    · refine Moves.seq (dmaStop_moves ..) (by decide) ?_
      exact h200
    · exact h200
  have h202 : Moves [.mem, .regs, .cnt, .hif, .ddr, .dma, .out, .free] s v3 := by
    refine Moves.ite ?_ ?_
    · refine Moves.seq (ran_moves (execDmaAbort_runs ..)) (by decide) ?_
      refine Moves.seq (takeFree_moves ..) (by decide) ?_
      exact h201
    · exact h201
  refine Moves.ite ?_ ?_
  · refine Moves.seq (ran_moves (execDmaResume_runs ..)) (by decide) ?_
    exact h202
  · exact h202

theorem aonCfgWrite_moves (a0 a1 s) : Moves [.regs, .pwr] s (aonCfgWrite a0 a1 s) := by
  unfold aonCfgWrite
  extract_lets v0
  have h200 : Moves [.regs, .pwr] s v0 := by
    refine Moves.seq (fieldsWrite_moves ..) (by decide) ?_
    exact Moves.refl _ _
  refine Moves.ite ?_ ?_
  · refine Moves.seq (wdtKick_moves ..) (by decide) ?_
    exact h200
  · exact h200

theorem spiCtrlWrite_moves (a0 s) : Moves [.regs, .pwr] s (spiCtrlWrite a0 s) := by
  unfold spiCtrlWrite
  refine Moves.ite ?_ ?_
  · refine Moves.seq (spiGo_moves ..) (by decide) ?_
    exact Moves.refl _ _
  · exact Moves.refl _ _

theorem casKeyWrite_moves (a0 s) : Moves [.regs, .key, .cas] s (casKeyWrite a0 s) := by
  unfold casKeyWrite
  refine Moves.ite ?_ ?_
  · exact Moves.refl _ _
  · split
    · refine Moves.seq (ran_moves (execCasKeyAbort_runs ..)) (by decide) ?_
      exact Moves.refl _ _
    · refine Moves.seq (ran_moves (execCasKeyLoad_runs ..)) (by decide) ?_
      exact Moves.refl _ _
    · refine Moves.seq (ran_moves (execCasKeyErase_runs ..)) (by decide) ?_
      exact Moves.refl _ _
    · exact Moves.refl _ _

theorem traceBaseWrite_moves (a0 s) : Moves [.regs] s (traceBaseWrite a0 s) := by
  unfold traceBaseWrite
  extract_lets v0
  refine Moves.ite ?_ ?_
  · refine Moves.seq (fset_moves ..) (by decide) ?_
    exact Moves.refl _ _
  · refine Moves.seq (fset_moves ..) (by decide) ?_
    exact Moves.refl _ _

theorem traceCfgWrite_moves (a0 s) : Moves [.regs] s (traceCfgWrite a0 s) := by
  unfold traceCfgWrite
  extract_lets v0 v1 v2 v3 v4
  have h200 : Moves [.regs] s v1 := by
    refine Moves.ite ?_ ?_
    · refine Moves.seq (fset_moves ..) (by decide) ?_
      exact Moves.refl _ _
    · exact Moves.refl _ _
  have h201 : Moves [.regs] s v2 := by
    refine Moves.seq (fset_moves ..) (by decide) ?_
    refine Moves.seq (fset_moves ..) (by decide) ?_
    exact h200
  have h202 : Moves [.regs] s v3 := by
    refine Moves.ite ?_ ?_
    · refine Moves.seq (fset_moves ..) (by decide) ?_
      exact h201
    · exact h201
  have h203 : Moves [.regs] s v4 := by
    refine Moves.ite ?_ ?_
    · exact h202
    · refine Moves.ite ?_ ?_
      · refine Moves.seq (fset_moves ..) (by decide) ?_
        exact h202
      · refine Moves.seq (fset_moves ..) (by decide) ?_
        exact h202
  refine Moves.ite ?_ ?_
  · refine Moves.seq (traceOn_moves ..) (by decide) ?_
    exact h203
  · exact h203

theorem srcArgWrite_moves (a0 a1 a2 s) : Moves [.regs] s (srcArgWrite a0 a1 a2 s) := by
  unfold srcArgWrite
  extract_lets v0 v1 v2
  have h200 : Moves [.regs] s v2 := by
    refine Moves.seq (fieldsWrite_moves ..) (by decide) ?_
    exact Moves.refl _ _
  refine Moves.ite ?_ ?_
  · exact h200
  · refine Moves.seq (fset_moves ..) (by decide) ?_
    exact h200

theorem mbxCtrlWrite_moves (a0 s) : Moves [.regs, .hif] s (mbxCtrlWrite a0 s) := by
  unfold mbxCtrlWrite
  extract_lets v0 v1 v2 v3
  have h200 : Moves [.regs, .hif] s v0 := by
    refine Moves.ite ?_ ?_
    · refine Moves.seq (fset_moves ..) (by decide) ?_
      exact Moves.refl _ _
    · exact Moves.refl _ _
  have h201 : Moves [.regs, .hif] s v3 := by
    refine Moves.ite ?_ ?_
    · refine Moves.seq (fset_moves ..) (by decide) ?_
      refine Moves.hif_with (by decide) ?_
      exact h200
    · exact h200
  refine Moves.ite ?_ ?_
  · refine Moves.seq (mbxGo_moves ..) (by decide) ?_
    exact h201
  · exact h201

theorem actWrite_moves {fn : Fn} {r : RegRef} {v : Nat} {s t : State} (e : actWrite fn r v s = some t) : Moves [.clk, .mem, .regs, .cnt, .hif, .ctl, .key, .egr, .src, .vid, .obs, .crsl, .ddr, .dma, .pwr, .cas, .out, .free] s t := by
  revert e
  have hs : ∀ {u : State}, Moves [.clk, .mem, .regs, .cnt, .hif, .ctl, .key, .egr, .src, .vid, .obs, .crsl, .ddr, .dma, .pwr, .cas, .out, .free] s u → (some u = some t → Moves [.clk, .mem, .regs, .cnt, .hif, .ctl, .key, .egr, .src, .vid, .obs, .crsl, .ddr, .dma, .pwr, .cas, .out, .free] s t) := fun h e => by cases e; exact h
  have hn : (none : Option State) = some t → Moves [.clk, .mem, .regs, .cnt, .hif, .ctl, .key, .egr, .src, .vid, .obs, .crsl, .ddr, .dma, .pwr, .cas, .out, .free] s t := fun e => by cases e
  unfold actWrite
  extract_lets i b enabled
  clear_value b enabled i
  split
  · exact hs ((aonCfgWrite_moves ..).mono (by decide))
  split
  · exact hs ((ran_moves (execFrmSignerRevoke_runs ..)).mono (by decide))
  split
  · exact hs ((mbxCtrlWrite_moves ..).mono (by decide))
  split
  · split
    · exact hs (Moves.ite (Moves.refl _ _) ((fieldsWrite_moves ..).mono (by decide)))
    · exact hs (Moves.ite (Moves.refl _ _) ((fieldsWrite_moves ..).mono (by decide)))
    · exact hs (Moves.ite (Moves.refl _ _) ((fieldsWrite_moves ..).mono (by decide)))
    · exact hs ((cmdEnable_moves ..).mono (by decide))
    · exact hs ((cmdStatusWrite_moves ..).mono (by decide))
    · exact hs ((sqTailWrite_moves ..).mono (by decide))
    · exact hs ((cqHeadWrite_moves ..).mono (by decide))
    · exact hs ((resultAck_moves ..).mono (by decide))
    · exact hn
  split
  · split
    · exact hs ((ringCfgWrite_moves ..).mono (by decide))
    · exact hs ((evqHeadWrite_moves ..).mono (by decide))
    · exact hs ((linkCfgWrite_moves ..).mono (by decide))
    · exact hs (Moves.clk_with (by decide) (Moves.refl _ _))
    · exact hs ((ran_moves (execPtpTimeSet_runs ..)).mono (by decide))
    · exact hs ((ran_moves (execPtpStep_runs ..)).mono (by decide))
    · exact hs (Moves.ite (Moves.seq (fset_moves ..) (by decide) ((fieldsWrite_moves ..).mono (by decide)))
        ((fieldsWrite_moves ..).mono (by decide)))
    · exact hs ((ringCfgWrite_moves ..).mono (by decide))
    · exact hs ((ran_moves (execIngExcHeadWrite_runs ..)).mono (by decide))
    · exact hs ((ran_moves (execIngJrResize_runs ..)).mono (by decide))
    · exact hs ((keyCtrlWrite_moves ..).mono (by decide))
    · exact hs ((ran_moves (execKeyLoadDataWrite_runs ..)).mono (by decide))
    · exact hs ((ran_moves (execScaCfgWrite_runs ..)).mono (by decide))
    · exact hs ((linkOverheadWrite_moves ..).mono (by decide))
    · exact hs (htxCfgWrite_moves (fun _ => (fieldsWrite_moves ..).mono (by decide)) (by decide) (Moves.refl _ _))
    · exact hs ((ran_moves (execHtxFrameSubmit_runs ..)).mono (by decide))
    · exact hn
  split
  · split
    · exact hs ((srcArgWrite_moves ..).mono (by decide))
    · exact hs (Moves.ite ((srcGo_moves ..).mono (by decide)) (Moves.refl _ _))
    · exact hs (Moves.seq (bankSync_moves ..) (by decide) ((fieldsWrite_moves ..).mono (by decide)))
    · exact hs ((bankCfgWrite_moves ..).mono (by decide))
    · exact hs ((bankCoef_moves ..).mono (by decide))
    · exact hs ((bankCtrlWrite_moves ..).mono (by decide))
    · exact hs ((tdmCfgWrite_moves ..).mono (by decide))
    · exact hs ((tdmOwnWrite_moves ..).mono (by decide))
    · exact hs (Moves.ite (Moves.seq (qeccClear_moves ..) (by decide) ((fieldsWrite_moves ..).mono (by decide)))
        ((fieldsWrite_moves ..).mono (by decide)))
    · exact hs ((coreCtrlWrite_moves ..).mono (by decide))
    · exact hs ((debugDataWrite_moves ..).mono (by decide))
    · exact hn
  · split
    · exact hs ((ringPoolWrite_moves ..).mono (by decide))
    · exact hs (Moves.ite ((fwdGo_moves ..).mono (by decide)) (Moves.refl _ _))
    · exact hs ((rwStatusWrite_moves ..).mono (by decide))
    · exact hs ((ran_moves (execFwdRwResize_runs ..)).mono (by decide))
    · exact hs ((dpCtrlWrite_moves ..).mono (by decide))
    · exact hs ((dmaCfgWrite_moves ..).mono (by decide))
    · exact hs (Moves.ite (Moves.refl _ _) ((fieldsWrite_moves ..).mono (by decide)))
    · exact hs ((dmaCtrlWrite_moves ..).mono (by decide))
    · exact hs ((ran_moves (execDmaChAdd_runs ..)).mono (by decide))
    · exact hs ((ran_moves (execHoldupDisable_runs ..)).mono (by decide))
    · exact hs (Moves.refl _ _)
    · exact hs ((wdtKick_moves ..).mono (by decide))
    · exact hs ((spiCtrlWrite_moves ..).mono (by decide))
    · exact hs (Moves.ite ((fieldsWrite_moves ..).mono (by decide)) (Moves.refl _ _))
    · exact hs ((casKeyWrite_moves ..).mono (by decide))
    · exact hs (Moves.cas_with (by decide) (Moves.refl _ _))
    · exact hs (Moves.ite ((casGo_moves ..).mono (by decide)) (Moves.refl _ _))
    · exact hs ((traceBaseWrite_moves ..).mono (by decide))
    · exact hs ((traceCfgWrite_moves ..).mono (by decide))
    · exact hn

theorem writeReg_moves (fn r v s) : Moves [.clk, .mem, .regs, .cnt, .hif, .ctl, .key, .egr, .src, .vid, .obs, .crsl, .ddr, .dma, .pwr, .cas, .out, .free] s (writeReg fn r v s) := by
  unfold writeReg
  cases h : actWrite fn r v s with
  | none => exact (fieldsWrite_moves ..).mono (by decide)
  | some t => exact (actWrite_moves h).mono (by decide)

theorem msixWrite_moves (a0 a1 a2 a3 s) : Moves [.hif, .out] s (msixWrite a0 a1 a2 a3 s) := by
  unfold msixWrite
  extract_lets v0 v1 v2 v3 v4
  have h200 : Moves [.hif, .out] s v4 := by
    refine Moves.hif_with (by decide) ?_
    exact Moves.refl _ _
  refine Moves.ite ?_ ?_
  · refine Moves.seq (signal_moves ..) (by decide) ?_
    exact h200
  · exact h200

theorem otherWrite_moves (a0 a1 a2 s) : Moves [.hif, .out] s (otherWrite a0 a1 a2 s) := by
  unfold otherWrite
  refine Moves.ite ?_ ?_
  · refine Moves.seq (msixWrite_moves ..) (by decide) ?_
    exact Moves.refl _ _
  · refine Moves.ite ?_ ?_
    · extract_lets v0 v1 v2 v3
      refine Moves.hif_with (by decide) ?_
      exact Moves.refl _ _
    · exact Moves.refl _ _

theorem write32_moves (a0 a1 a2 s) : Moves [.clk, .mem, .regs, .cnt, .hif, .ctl, .key, .aud, .egr, .src, .fwd, .vid, .obs, .crsl, .ddr, .dma, .pwr, .cas, .out, .free] s (write32 a0 a1 a2 s) := by
  unfold write32
  extract_lets v0 v1
  refine Moves.ite ?_ ?_
  · exact Moves.refl _ _
  · split
    · refine Moves.ite ?_ ?_
      · refine Moves.hif_with (by decide) ?_
        exact Moves.refl _ _
      · refine Moves.seq (writeReg_moves ..) (by decide) ?_
        exact Moves.refl _ _
    · split
      · refine Moves.ite ?_ ?_
        · extract_lets v200
          refine Moves.seq (writeReg_moves ..) (by decide) ?_
          refine Moves.hif_with (by decide) ?_
          exact Moves.refl _ _
        · refine Moves.seq (otherWrite_moves ..) (by decide) ?_
          exact Moves.refl _ _
      · refine Moves.seq (otherWrite_moves ..) (by decide) ?_
        exact Moves.refl _ _

theorem write64_moves (a0 a1 a2 s) : Moves [.clk, .mem, .regs, .cnt, .hif, .ctl, .key, .aud, .egr, .src, .fwd, .vid, .obs, .crsl, .ddr, .dma, .pwr, .cas, .out, .free] s (write64 a0 a1 a2 s) := by
  unfold write64
  refine Moves.ite ?_ ?_
  · exact Moves.refl _ _
  · split
    · refine Moves.ite ?_ ?_
      · refine Moves.seq (writeReg_moves ..) (by decide) ?_
        exact Moves.refl _ _
      · refine Moves.seq (write32_moves ..) (by decide) ?_
        refine Moves.seq (write32_moves ..) (by decide) ?_
        exact Moves.refl _ _
    · refine Moves.seq (write32_moves ..) (by decide) ?_
      refine Moves.seq (write32_moves ..) (by decide) ?_
      exact Moves.refl _ _

theorem read32_moves (a0 a1 s) : Moves [.hif, .ctl, .aud, .egr, .fwd, .vid] s (read32 a0 a1 s).2 := by
  unfold read32
  extract_lets v0 v1
  split
  · refine Moves.mk_snd ?_
    refine Moves.hif_with (by decide) ?_
    exact Moves.refl _ _
  · refine Moves.ite_snd ?_ ?_
    · refine Moves.mk_snd ?_
      exact Moves.refl _ _
    · split
      · refine Moves.ite_snd ?_ ?_
        · refine Moves.mk_snd ?_
          refine Moves.hif_with (by decide) ?_
          exact Moves.refl _ _
        · refine Moves.mk_snd ?_
          exact Moves.refl _ _
      · refine Moves.mk_snd ?_
        exact Moves.refl _ _
  · refine Moves.mk_snd ?_
    exact Moves.refl _ _

theorem execReg64HalfRead_runs (a0 a1 s) : Runs [.clk, .hif, .ctl, .aud, .egr, .fwd, .vid] s (execReg64HalfRead a0 a1 s) := by
  unfold execReg64HalfRead
  extract_lets v0 v1 v2 v3
  have h200 : Moves [.clk, .hif, .ctl, .aud, .egr, .fwd, .vid] s v2 := by
    unfold v2
    refine Moves.seq (read32_moves ..) (by decide) ?_
    exact Moves.refl _ _
  refine Runs.next ?_
  refine Moves.ite ?_ ?_
  · refine Moves.seq (ran_moves (execPtpNsRead_runs ..)) (by decide) ?_
    exact Moves.refl _ _
  · refine Moves.ite ?_ ?_
    · refine Moves.seq (ran_moves (execAudLegMeterRead_runs ..)) (by decide) ?_
      exact Moves.refl _ _
    · refine Moves.hif_with (by decide) ?_
      exact h200

theorem execReg64HalfWrite_runs (a0 a1 a2 s) : Runs [.clk, .mem, .regs, .cnt, .hif, .ctl, .key, .aud, .egr, .src, .fwd, .vid, .obs, .crsl, .ddr, .dma, .pwr, .cas, .out, .free] s (execReg64HalfWrite a0 a1 a2 s) := by
  unfold execReg64HalfWrite
  refine Runs.next ?_
  refine Moves.seq (write32_moves ..) (by decide) ?_
  exact Moves.refl _ _

theorem execRegisterWrite_runs (a0 a1 a2 a3 s) : Runs [.clk, .mem, .regs, .cnt, .hif, .ctl, .key, .aud, .egr, .src, .fwd, .vid, .obs, .crsl, .ddr, .dma, .pwr, .cas, .out, .free] s (execRegisterWrite a0 a1 a2 a3 s) := by
  unfold execRegisterWrite
  refine Runs.next ?_
  refine Moves.ite ?_ ?_
  · refine Moves.seq (write64_moves ..) (by decide) ?_
    exact Moves.refl _ _
  · refine Moves.seq (write32_moves ..) (by decide) ?_
    exact Moves.refl _ _

end Sys2Proof.Machine
end

