-- ==== Sys2Proof/Laws/ChBlock.lean ====
section
/-! SUPPORT. What each operation of Machine/Block.lean may change: one lemma for each, which says every part of State that it
can alter, and that it keeps the invariant. -/

set_option Elab.async false

namespace Sys2Proof.Machine

theorem blockEnds_moves (a0 s) : Moves [.mem, .regs, .cnt, .hif, .ctl, .egr, .fwd, .vid, .obs, .ddr, .cas, .out, .free] s (blockEnds a0 s) := by
  unfold blockEnds
  refine Moves.foldl (fun _ y0 => ?_) ?_
  · refine Moves.seq (capBoundary_moves ..) (by decide) ?_
    exact Moves.refl _ _
  · refine Moves.seq (repFeed_moves ..) (by decide) ?_
    exact Moves.refl _ _

theorem clockTo_moves (a0 s) : Moves [.clk, .regs, .ctl] s (clockTo a0 s) := by
  unfold clockTo
  extract_lets v0 v1 v2
  have h200 : Moves [.clk, .regs, .ctl] s v0 := by
    refine Moves.ite ?_ ?_
    · refine Moves.seq (ptpAdvance_moves ..) (by decide) ?_
      exact Moves.refl _ _
    · exact Moves.refl _ _
  refine Moves.seq (ptpSync_moves ..) (by decide) ?_
  refine Moves.clk_ctl_with (by decide) (by decide) ?_
  exact h200

theorem stallsCount_moves (s) : Moves [.cnt] s (stallsCount s) := by
  unfold stallsCount
  refine Moves.foldl (fun _ y0 => ?_) ?_
  · refine Moves.ite ?_ ?_
    · refine Moves.seq (cinc_moves ..) (by decide) ?_
      exact Moves.refl _ _
    · exact Moves.refl _ _
  · exact Moves.refl _ _

theorem blockClose_moves (a0 s) : Moves [.mem, .regs, .cnt, .cntSh, .hif, .ctl, .aud, .egr, .src, .obs, .ddr, .cas, .out, .free] s (blockClose a0 s) := by
  unfold blockClose
  extract_lets v0 v1 v2
  have h200 : Moves [.mem, .regs, .cnt, .cntSh, .hif, .ctl, .aud, .egr, .src, .obs, .ddr, .cas, .out, .free] s v1 := by
    unfold v1
    refine Moves.seq (audHear_moves ..) (by decide) ?_
    refine Moves.seq (tdmBlocks_moves ..) (by decide) ?_
    refine Moves.seq (stallsCount_moves ..) (by decide) ?_
    exact Moves.refl _ _
  have h201 : Moves [.mem, .regs, .cnt, .cntSh, .hif, .ctl, .aud, .egr, .src, .obs, .ddr, .cas, .out, .free] s v2 := by
    refine Moves.cntSh_with (by decide) ?_
    exact h200
  refine Moves.seq (audioDueEnd_moves ..) (by decide) ?_
  refine Moves.seq (audioSend_moves ..) (by decide) ?_
  refine Moves.seq (audMix_moves ..) (by decide) ?_
  exact h201

theorem blockShow_moves (s) : Moves [.shown, .free] s (blockShow s) := by
  unfold blockShow
  extract_lets v0 v1
  have h200 : Moves [.shown, .free] s v1 := by
    unfold v1
    refine Moves.ite_snd ?_ ?_
    · refine Moves.seq (takeFree_moves ..) (by decide) ?_
      exact Moves.refl _ _
    · refine Moves.mk_snd ?_
      exact Moves.refl _ _
  refine Moves.shown_with (by decide) ?_
  exact h200

theorem blockRehome_moves (a0 s) : Moves [.mem, .regs, .cnt, .hif, .frm, .ctl, .aud, .vid, .flt, .obs, .ddr, .out] s (blockRehome a0 s) := by
  unfold blockRehome
  refine Moves.seq (sessRetry_moves ..) (by decide) ?_
  refine Moves.seq (unplacedRetry_moves ..) (by decide) ?_
  refine Moves.seq (bayBoundary_moves ..) (by decide) ?_
  exact Moves.refl _ _

theorem blockStructure_moves (a0 s) : Moves [.mem, .regs, .cnt, .hif, .frm, .ctl, .key, .aud, .vid, .flt, .obs, .crsl, .ddr, .ldg, .cas, .out, .free] s (blockStructure a0 s) := by
  unfold blockStructure
  refine Moves.seq (leaveBoundary_moves ..) (by decide) ?_
  refine Moves.seq (joinBoundary_moves ..) (by decide) ?_
  refine Moves.seq (fwBoundary_moves ..) (by decide) ?_
  refine Moves.seq (testBoundary_moves ..) (by decide) ?_
  refine Moves.seq (frmBoundary_moves ..) (by decide) ?_
  exact Moves.refl _ _

theorem blockCommands_moves (a0 s) : Moves [.mem, .regs, .cnt, .hif, .ctl, .aud, .egr, .src, .fwd, .vid, .flt, .obs, .ddr, .cas, .out] s (blockCommands a0 s) := by
  unfold blockCommands
  refine Moves.foldl (fun _ y0 => ?_) ?_
  · extract_lets v1 v2
    have h201 : Moves [.mem, .regs, .cnt, .hif, .ctl, .aud, .egr, .src, .fwd, .vid, .flt, .obs, .ddr, .cas, .out] y0 v1 := by
      refine Moves.seq (fwdApply_moves ..) (by decide) ?_
      refine Moves.seq (srcChange_moves ..) (by decide) ?_
      exact Moves.refl _ _
    have h202 : Moves [.mem, .regs, .cnt, .hif, .ctl, .aud, .egr, .src, .fwd, .vid, .flt, .obs, .ddr, .cas, .out] y0 v2 := by
      refine Moves.ite ?_ ?_
      · refine Moves.seq (casApply_moves ..) (by decide) ?_
        exact h201
      · exact h201
    refine Moves.seq (configBoundary_moves ..) (by decide) ?_
    exact h202
  · exact Moves.refl _ _

theorem blockTurns_moves (a0 s) : Moves [.mem, .regs, .cnt, .hif, .ctl, .fwd, .vid, .flt, .obs, .ddr, .out] s (blockTurns a0 s) := by
  unfold blockTurns
  refine Moves.seq (encTurn_moves ..) (by decide) ?_
  refine Moves.seq (decTurn_moves ..) (by decide) ?_
  refine Moves.seq (fallBoundary_moves ..) (by decide) ?_
  exact Moves.refl _ _

theorem blockReleases_moves (a0 a1 s) : Moves [.mem, .regs, .cnt, .hif, .ctl, .aud, .egr, .obs, .crsl, .ddr, .cas, .out, .free] s (blockReleases a0 a1 s) := by
  unfold blockReleases
  refine Moves.seq (crslBlock_moves ..) (by decide) ?_
  refine Moves.seq (shaperRefill_moves ..) (by decide) ?_
  refine Moves.seq (videoSend_moves ..) (by decide) ?_
  refine Moves.seq (videoDue_moves ..) (by decide) ?_
  refine Moves.seq (releaseAll_moves ..) (by decide) ?_
  refine Moves.seq (refillAll_moves ..) (by decide) ?_
  exact Moves.refl _ _

theorem blockWork_moves (a0 s) : Moves [.mem, .regs, .cnt, .hif, .ctl, .aud, .egr, .fwd, .vid, .flt, .obs, .ddr, .cas, .out, .free] s (blockWork a0 s) := by
  unfold blockWork
  refine Moves.seq (wantsBlock_moves ..) (by decide) ?_
  refine Moves.seq (audBlock_moves ..) (by decide) ?_
  refine Moves.seq (fwdBlock_moves ..) (by decide) ?_
  refine Moves.seq (shownBlock_moves ..) (by decide) ?_
  refine Moves.seq (sessBlock_moves ..) (by decide) ?_
  exact Moves.refl _ _

theorem blockUnits_moves (a0 s) : Moves [.mem, .regs, .cnt, .hif, .ctl, .vid, .flt, .obs, .ddr, .dma, .out] s (blockUnits a0 s) := by
  unfold blockUnits
  extract_lets v0 v1
  have h200 : Moves [.mem, .regs, .cnt, .hif, .ctl, .vid, .flt, .obs, .ddr, .dma, .out] s v0 := by
    refine Moves.seq (dmaBoundary_moves ..) (by decide) ?_
    refine Moves.seq (ddrBoundary_moves ..) (by decide) ?_
    refine Moves.seq (dpSync_moves ..) (by decide) ?_
    refine Moves.seq (canvasResume_moves ..) (by decide) ?_
    refine Moves.seq (coverageCheck_moves ..) (by decide) ?_
    exact Moves.refl _ _
  refine Moves.flt_with (by decide) ?_
  exact h200

theorem blockBegin_moves (a0 a1 s) : Moves [.clk, .mem, .regs, .cnt, .cntSh, .hif, .frm, .ctl, .key, .aud, .egr, .src, .fwd, .vid, .flt, .obs, .crsl, .ddr, .ldg, .dma, .pwr, .cas, .shown, .out, .free] s (blockBegin a0 a1 s) := by
  unfold blockBegin
  extract_lets v0 v1 v2 v3 v4 v5
  have h200 : Moves [.clk, .mem, .regs, .cnt, .cntSh, .hif, .frm, .ctl, .key, .aud, .egr, .src, .fwd, .vid, .flt, .obs, .crsl, .ddr, .ldg, .dma, .pwr, .cas, .shown, .out, .free] s v0 := by
    refine Moves.seq (mbxRun_moves ..) (by decide) ?_
    exact Moves.refl _ _
  have h201 : Moves [.clk, .mem, .regs, .cnt, .cntSh, .hif, .frm, .ctl, .key, .aud, .egr, .src, .fwd, .vid, .flt, .obs, .crsl, .ddr, .ldg, .dma, .pwr, .cas, .shown, .out, .free] s v2 := by
    refine Moves.seq (clockTo_moves ..) (by decide) ?_
    refine Moves.ite ?_ ?_
    · exact h200
    · refine Moves.seq (blockEnds_moves ..) (by decide) ?_
      exact h200
  have h202 : Moves [.clk, .mem, .regs, .cnt, .cntSh, .hif, .frm, .ctl, .key, .aud, .egr, .src, .fwd, .vid, .flt, .obs, .crsl, .ddr, .ldg, .dma, .pwr, .cas, .shown, .out, .free] s v3 := by
    refine Moves.ite ?_ ?_
    · refine Moves.seq (firstBlock_moves ..) (by decide) ?_
      refine Moves.cntSh_with (by decide) ?_
      exact h201
    · refine Moves.seq (drainsEnd_moves ..) (by decide) ?_
      refine Moves.seq (blockClose_moves ..) (by decide) ?_
      exact h201
  have h203 : Moves [.clk, .mem, .regs, .cnt, .cntSh, .hif, .frm, .ctl, .key, .aud, .egr, .src, .fwd, .vid, .flt, .obs, .crsl, .ddr, .ldg, .dma, .pwr, .cas, .shown, .out, .free] s v4 := by
    refine Moves.foldl (fun _ y204 => ?_) ?_
    · refine Moves.seq (repBoundary_moves ..) (by decide) ?_
      exact Moves.refl _ _
    · refine Moves.seq (clockBoundary_moves ..) (by decide) ?_
      refine Moves.seq (blockShow_moves ..) (by decide) ?_
      exact h202
  have h205 : Moves [.clk, .mem, .regs, .cnt, .cntSh, .hif, .frm, .ctl, .key, .aud, .egr, .src, .fwd, .vid, .flt, .obs, .crsl, .ddr, .ldg, .dma, .pwr, .cas, .shown, .out, .free] s v5 := by
    refine Moves.seq (blockCommands_moves ..) (by decide) ?_
    refine Moves.seq (blockStructure_moves ..) (by decide) ?_
    refine Moves.seq (blockRehome_moves ..) (by decide) ?_
    exact h203
  refine Moves.seq (blockUnits_moves ..) (by decide) ?_
  refine Moves.seq (blockWork_moves ..) (by decide) ?_
  refine Moves.seq (blockReleases_moves ..) (by decide) ?_
  refine Moves.seq (blockTurns_moves ..) (by decide) ?_
  exact h205

theorem execBlockStart_runs (a0 s) : Runs [.clk, .mem, .regs, .cnt, .cntSh, .hif, .frm, .ctl, .key, .aud, .egr, .src, .fwd, .vid, .flt, .obs, .crsl, .ddr, .ldg, .dma, .pwr, .cas, .shown, .out, .free] s (execBlockStart a0 s) := by
  unfold execBlockStart
  extract_lets v0
  have h200 : Moves [.clk, .mem, .regs, .cnt, .cntSh, .hif, .frm, .ctl, .key, .aud, .egr, .src, .fwd, .vid, .flt, .obs, .crsl, .ddr, .ldg, .dma, .pwr, .cas, .shown, .out, .free] s v0 := by
    refine Moves.ite ?_ ?_
    · refine Moves.seq (firstAlign_moves ..) (by decide) ?_
      exact Moves.refl _ _
    · exact Moves.refl _ _
  refine Runs.next ?_
  refine Moves.ite ?_ ?_
  · refine Moves.seq (blockBegin_moves ..) (by decide) ?_
    exact h200
  · exact h200

end Sys2Proof.Machine
end

