-- ==== Sys2Proof/Laws/Completion.lean ====
section
/-! SUPPORT. The completion of a command: what a function's latest completion is once the command has ended, whatever the writing of its
entry raises or halts on the way (R77, R80, R84). -/

set_option Elab.async false

namespace Sys2Proof.Machine

/-- What neither an event raised nor a vector signalled nor an entry written to a CQ alters of the host interface. -/
def Hif.calm (h : Hif) : List Flight × Nat × Mbx × Tbl (Nat × Nat) × Tbl (Nat × Nat) × Nat × Tbl Nat × Tbl Compl :=
  (h.flight, h.lopCount, h.mbx, h.latch, h.stage, h.readData, h.rate, h.last)

theorem Hif.calm_flight {g h : Hif} (e : g.calm = h.calm) : g.flight = h.flight := (Prod.ext_iff.mp e).1

theorem Hif.calm_last {g h : Hif} (e : g.calm = h.calm) : g.last = h.last := by
  simp only [Hif.calm, Prod.mk.injEq] at e
  exact e.2.2.2.2.2.2.2

theorem signal_calm (fn : Fn) (v : Nat) (s : State) : (signal fn v s).hif.calm = s.hif.calm := by
  unfold signal
  dsimp only
  split <;> rfl

theorem evqLose_calm (k n : Nat) (s : State) : (evqLose k n s).hif.calm = s.hif.calm := rfl

theorem evqResize_calm (k : Nat) (s : State) : (evqResize k s).hif.calm = s.hif.calm := by
  unfold evqResize
  dsimp only
  split
  · rfl
  · split
    · split <;> rfl
    · rfl

theorem evqPush_calm (k : Nat) (e : Ev) (s : State) : (evqPush k e s).hif.calm = s.hif.calm := by
  unfold evqPush
  dsimp only
  split
  · rfl
  · split
    · rw [signal_calm, evqResize_calm]
      rfl
    · rw [evqResize_calm]
      rfl

theorem pushPf_calm (e : Ev) (s : State) : (pushPf e s).hif.calm = s.hif.calm := evqPush_calm _ e s

theorem dramWrite_hif (a : Nat) (l : List Byte) (s : State) : (dramWrite a l s).hif = s.hif := by
  unfold dramWrite linesWritten
  dsimp only
  split <;> rfl

theorem traceAdd_calm (f : Nat) (e : Ev) (s : State) : (traceAdd f e s).hif.calm = s.hif.calm := by
  unfold traceAdd
  dsimp only
  split
  · rfl
  · split
    · rfl
    · split
      · split
        · rw [pushPf_calm]
          exact congrArg Hif.calm (dramWrite_hif _ _ s)
        · exact congrArg Hif.calm (dramWrite_hif _ _ s)
      · exact congrArg Hif.calm (dramWrite_hif _ _ s)

theorem raise_calm (e : Ev) (s : State) : (raise e s).hif.calm = s.hif.calm := by
  have h : (if bit (fget R.OBS_TRACE_MASK_mask s) (e.code / 256) then traceAdd 0 e s else s).hif.calm = s.hif.calm := by
    split
    · exact traceAdd_calm 0 e s
    · rfl
  unfold raise
  dsimp only
  rw [pushPf_calm]
  split
  · exact h
  · split
    · exact h
    · rw [evqPush_calm, h]

theorem raisePf_calm (e : Ev) (s : State) : (raisePf e s).hif.calm = s.hif.calm := by
  unfold raisePf
  dsimp only
  rw [pushPf_calm]
  split
  · exact traceAdd_calm 0 e s
  · rfl

theorem haltCq_calm (fn : Fn) (s : State) : (haltCq fn s).hif.calm = s.hif.calm := by
  unfold haltCq
  dsimp only
  rw [signal_calm, raise_calm]
  rfl

theorem cqWrite_calm (fn : Fn) (p : Posted) (s : State) : (cqWrite fn p s).hif.calm = s.hif.calm := by
  unfold cqWrite
  extract_lets tail phase sqh wasEmpty s1 g1 s2 g2 s3 wrap s4 s5 s6
  have h2 : s2.hif.calm = s.hif.calm := by
    unfold s2
    split <;> rfl
  have h3 : s3.hif.calm = s.hif.calm := by
    unfold s3
    split <;> exact h2
  have h5 : s5.hif.calm = s.hif.calm := by
    unfold s5
    split <;> exact h3
  split
  · rw [signal_calm]
    exact h5
  · exact h5

theorem cqFlushList_calm (fn : Fn) (l : List Posted) (s : State) : (cqFlushList fn l s).hif.calm = s.hif.calm := by
  induction l generalizing s with
  | nil => rfl
  | cons p r ih =>
    unfold cqFlushList
    split
    · rfl
    · split
      · rw [ih, cqWrite_calm]
      · rw [haltCq_calm]
        rfl

theorem cqFlush_calm (fn : Fn) (s : State) : (cqFlush fn s).hif.calm = s.hif.calm := cqFlushList_calm fn _ s

theorem post_last (fn : Fn) (p : Posted) (s : State) : tfind (post fn p s).hif.last (fnNum fn) = some p.c := by
  unfold post
  dsimp only
  split
  · rw [Hif.calm_last (cqFlush_calm _ _)]
    exact tfind_tset_same _ _ _
  · exact tfind_tset_same _ _ _

theorem post_flight (fn : Fn) (p : Posted) (s : State) : (post fn p s).hif.flight = s.hif.flight := by
  unfold post
  dsimp only
  split
  · rw [Hif.calm_flight (cqFlush_calm _ _)]
  · rfl

theorem countForeign_hif (fn : Fn) (n : Nat) (s : State) : (countForeign fn n s).hif = s.hif := by
  unfold countForeign
  split
  · rfl
  · split <;> rfl

theorem flightEnd_flight (f : Flight) (r : Rsp) (s : State) : (flightEnd f r s).hif.flight = s.hif.flight := by
  unfold flightEnd
  dsimp only
  split
  · rw [Hif.calm_flight (raisePf_calm _ _), countForeign_hif]
  · rw [post_flight, countForeign_hif]

theorem queryEnd_flight (op : Nat) (c : Cmd) (slot : Option Nat) (cp : Compl) (s : State) :
    (queryEnd op c slot cp s).hif.flight = s.hif.flight := by
  rw [queryEnd, post_flight, countForeign_hif]

/-- A command that ends is completed with its response, its effect stamp and its lateness. -/
theorem flightEnd_last (f : Flight) (r : Rsp) (s : State) (h : f.orphan = false) :
    tfind (flightEnd f r s).hif.last (fnNum f.cmd.fn) =
      some { complOf f.cmd.tag f.opcode r with late := f.late, lateness := f.lateness, effect := f.effect } := by
  unfold flightEnd
  simp only [h]
  exact post_last ..

/-- A query or an always-on command is completed with what it answers. -/
theorem queryEnd_last (op : Nat) (c : Cmd) (slot : Option Nat) (cp : Compl) (s : State) :
    tfind (queryEnd op c slot cp s).hif.last (fnNum c.fn) = some { cp with tag := c.tag, opcode := op } :=
  post_last ..

end Sys2Proof.Machine
end

