-- ==== Sys2Proof/Laws/State.lean ====
section
/-! SUPPORT. What the updates of the state leave unchanged, field by field, and what a register, a counter and an object read as after an
update of one. -/

set_option Elab.async false

namespace Sys2Proof.Machine

/-! ## Reading back -/

@[simp] theorem fget_fset (f : Fld) (v : Nat) (s : State) : fget f (fset f v s) = v % 2 ^ f.w := tget_tset_same _ _ _ _

theorem fget_fset_other (f g : Fld) (v : Nat) (s : State) (h : fkey f ≠ fkey g) : fget f (fset g v s) = fget f s :=
  tget_tset_other _ _ _ _ _ h

@[simp] theorem fget_cadd (f : Fld) (a n : Nat) (s : State) : fget f (cadd a n s) = fget f s := rfl

@[simp] theorem cget_fset (a : Nat) (f : Fld) (v : Nat) (s : State) : cget a (fset f v s) = cget a s := rfl

@[simp] theorem coreGet_corePut (c : Nat) (k : Core) (s : State) : coreGet c (corePut c k s) = k := tget_tset_same _ _ _ _

theorem coreGet_corePut_other (c d : Nat) (k : Core) (s : State) (h : d ≠ c) : coreGet d (corePut c k s) = coreGet d s :=
  tget_tset_other _ _ _ _ _ h

@[simp] theorem keySlot_keySlotPut (n : Nat) (k : KeySlot) (s : State) : keySlot n (keySlotPut n k s) = k := tget_tset_same _ _ _ _

@[simp] theorem itemFind_itemPut (h : Nat) (i : Item) (s : State) : itemFind h (itemPut h i s) = some i := tfind_tset_same _ _ _

/-! ## Frames, field by field -/

/-! ### fset -/

@[simp] theorem fset_clk (f : Fld) (v : Nat) (s : State) : (fset f v s).clk = s.clk := rfl
@[simp] theorem fset_mem (f : Fld) (v : Nat) (s : State) : (fset f v s).mem = s.mem := rfl
@[simp] theorem fset_cnt (f : Fld) (v : Nat) (s : State) : (fset f v s).cnt = s.cnt := rfl
@[simp] theorem fset_cntSh (f : Fld) (v : Nat) (s : State) : (fset f v s).cntSh = s.cntSh := rfl
@[simp] theorem fset_hif (f : Fld) (v : Nat) (s : State) : (fset f v s).hif = s.hif := rfl
@[simp] theorem fset_frm (f : Fld) (v : Nat) (s : State) : (fset f v s).frm = s.frm := rfl
@[simp] theorem fset_ctl (f : Fld) (v : Nat) (s : State) : (fset f v s).ctl = s.ctl := rfl
@[simp] theorem fset_key (f : Fld) (v : Nat) (s : State) : (fset f v s).key = s.key := rfl
@[simp] theorem fset_aud (f : Fld) (v : Nat) (s : State) : (fset f v s).aud = s.aud := rfl
@[simp] theorem fset_egr (f : Fld) (v : Nat) (s : State) : (fset f v s).egr = s.egr := rfl
@[simp] theorem fset_src (f : Fld) (v : Nat) (s : State) : (fset f v s).src = s.src := rfl
@[simp] theorem fset_fwd (f : Fld) (v : Nat) (s : State) : (fset f v s).fwd = s.fwd := rfl
@[simp] theorem fset_vid (f : Fld) (v : Nat) (s : State) : (fset f v s).vid = s.vid := rfl
@[simp] theorem fset_flt (f : Fld) (v : Nat) (s : State) : (fset f v s).flt = s.flt := rfl
@[simp] theorem fset_obs (f : Fld) (v : Nat) (s : State) : (fset f v s).obs = s.obs := rfl
@[simp] theorem fset_crsl (f : Fld) (v : Nat) (s : State) : (fset f v s).crsl = s.crsl := rfl
@[simp] theorem fset_ddr (f : Fld) (v : Nat) (s : State) : (fset f v s).ddr = s.ddr := rfl
@[simp] theorem fset_ldg (f : Fld) (v : Nat) (s : State) : (fset f v s).ldg = s.ldg := rfl
@[simp] theorem fset_dma (f : Fld) (v : Nat) (s : State) : (fset f v s).dma = s.dma := rfl
@[simp] theorem fset_pwr (f : Fld) (v : Nat) (s : State) : (fset f v s).pwr = s.pwr := rfl
@[simp] theorem fset_cas (f : Fld) (v : Nat) (s : State) : (fset f v s).cas = s.cas := rfl
@[simp] theorem fset_shown (f : Fld) (v : Nat) (s : State) : (fset f v s).shown = s.shown := rfl
@[simp] theorem fset_out (f : Fld) (v : Nat) (s : State) : (fset f v s).out = s.out := rfl
@[simp] theorem fset_free (f : Fld) (v : Nat) (s : State) : (fset f v s).free = s.free := rfl
@[simp] theorem fset_pending (f : Fld) (v : Nat) (s : State) : (fset f v s).pending = s.pending := rfl

/-! ### cadd -/

@[simp] theorem cadd_clk (a n : Nat) (s : State) : (cadd a n s).clk = s.clk := rfl
@[simp] theorem cadd_mem (a n : Nat) (s : State) : (cadd a n s).mem = s.mem := rfl
@[simp] theorem cadd_regs (a n : Nat) (s : State) : (cadd a n s).regs = s.regs := rfl
@[simp] theorem cadd_cntSh (a n : Nat) (s : State) : (cadd a n s).cntSh = s.cntSh := rfl
@[simp] theorem cadd_hif (a n : Nat) (s : State) : (cadd a n s).hif = s.hif := rfl
@[simp] theorem cadd_frm (a n : Nat) (s : State) : (cadd a n s).frm = s.frm := rfl
@[simp] theorem cadd_ctl (a n : Nat) (s : State) : (cadd a n s).ctl = s.ctl := rfl
@[simp] theorem cadd_key (a n : Nat) (s : State) : (cadd a n s).key = s.key := rfl
@[simp] theorem cadd_aud (a n : Nat) (s : State) : (cadd a n s).aud = s.aud := rfl
@[simp] theorem cadd_egr (a n : Nat) (s : State) : (cadd a n s).egr = s.egr := rfl
@[simp] theorem cadd_src (a n : Nat) (s : State) : (cadd a n s).src = s.src := rfl
@[simp] theorem cadd_fwd (a n : Nat) (s : State) : (cadd a n s).fwd = s.fwd := rfl
@[simp] theorem cadd_vid (a n : Nat) (s : State) : (cadd a n s).vid = s.vid := rfl
@[simp] theorem cadd_flt (a n : Nat) (s : State) : (cadd a n s).flt = s.flt := rfl
@[simp] theorem cadd_obs (a n : Nat) (s : State) : (cadd a n s).obs = s.obs := rfl
@[simp] theorem cadd_crsl (a n : Nat) (s : State) : (cadd a n s).crsl = s.crsl := rfl
@[simp] theorem cadd_ddr (a n : Nat) (s : State) : (cadd a n s).ddr = s.ddr := rfl
@[simp] theorem cadd_ldg (a n : Nat) (s : State) : (cadd a n s).ldg = s.ldg := rfl
@[simp] theorem cadd_dma (a n : Nat) (s : State) : (cadd a n s).dma = s.dma := rfl
@[simp] theorem cadd_pwr (a n : Nat) (s : State) : (cadd a n s).pwr = s.pwr := rfl
@[simp] theorem cadd_cas (a n : Nat) (s : State) : (cadd a n s).cas = s.cas := rfl
@[simp] theorem cadd_shown (a n : Nat) (s : State) : (cadd a n s).shown = s.shown := rfl
@[simp] theorem cadd_out (a n : Nat) (s : State) : (cadd a n s).out = s.out := rfl
@[simp] theorem cadd_free (a n : Nat) (s : State) : (cadd a n s).free = s.free := rfl
@[simp] theorem cadd_pending (a n : Nat) (s : State) : (cadd a n s).pending = s.pending := rfl

/-! ### cinc -/

@[simp] theorem cinc_clk (a : Nat) (s : State) : (cinc a s).clk = s.clk := rfl
@[simp] theorem cinc_mem (a : Nat) (s : State) : (cinc a s).mem = s.mem := rfl
@[simp] theorem cinc_regs (a : Nat) (s : State) : (cinc a s).regs = s.regs := rfl
@[simp] theorem cinc_cntSh (a : Nat) (s : State) : (cinc a s).cntSh = s.cntSh := rfl
@[simp] theorem cinc_hif (a : Nat) (s : State) : (cinc a s).hif = s.hif := rfl
@[simp] theorem cinc_frm (a : Nat) (s : State) : (cinc a s).frm = s.frm := rfl
@[simp] theorem cinc_ctl (a : Nat) (s : State) : (cinc a s).ctl = s.ctl := rfl
@[simp] theorem cinc_key (a : Nat) (s : State) : (cinc a s).key = s.key := rfl
@[simp] theorem cinc_aud (a : Nat) (s : State) : (cinc a s).aud = s.aud := rfl
@[simp] theorem cinc_egr (a : Nat) (s : State) : (cinc a s).egr = s.egr := rfl
@[simp] theorem cinc_src (a : Nat) (s : State) : (cinc a s).src = s.src := rfl
@[simp] theorem cinc_fwd (a : Nat) (s : State) : (cinc a s).fwd = s.fwd := rfl
@[simp] theorem cinc_vid (a : Nat) (s : State) : (cinc a s).vid = s.vid := rfl
@[simp] theorem cinc_flt (a : Nat) (s : State) : (cinc a s).flt = s.flt := rfl
@[simp] theorem cinc_obs (a : Nat) (s : State) : (cinc a s).obs = s.obs := rfl
@[simp] theorem cinc_crsl (a : Nat) (s : State) : (cinc a s).crsl = s.crsl := rfl
@[simp] theorem cinc_ddr (a : Nat) (s : State) : (cinc a s).ddr = s.ddr := rfl
@[simp] theorem cinc_ldg (a : Nat) (s : State) : (cinc a s).ldg = s.ldg := rfl
@[simp] theorem cinc_dma (a : Nat) (s : State) : (cinc a s).dma = s.dma := rfl
@[simp] theorem cinc_pwr (a : Nat) (s : State) : (cinc a s).pwr = s.pwr := rfl
@[simp] theorem cinc_cas (a : Nat) (s : State) : (cinc a s).cas = s.cas := rfl
@[simp] theorem cinc_shown (a : Nat) (s : State) : (cinc a s).shown = s.shown := rfl
@[simp] theorem cinc_out (a : Nat) (s : State) : (cinc a s).out = s.out := rfl
@[simp] theorem cinc_free (a : Nat) (s : State) : (cinc a s).free = s.free := rfl
@[simp] theorem cinc_pending (a : Nat) (s : State) : (cinc a s).pending = s.pending := rfl

/-! ### corePut -/

@[simp] theorem corePut_clk (c : Nat) (k : Core) (s : State) : (corePut c k s).clk = s.clk := rfl
@[simp] theorem corePut_mem (c : Nat) (k : Core) (s : State) : (corePut c k s).mem = s.mem := rfl
@[simp] theorem corePut_regs (c : Nat) (k : Core) (s : State) : (corePut c k s).regs = s.regs := rfl
@[simp] theorem corePut_cnt (c : Nat) (k : Core) (s : State) : (corePut c k s).cnt = s.cnt := rfl
@[simp] theorem corePut_cntSh (c : Nat) (k : Core) (s : State) : (corePut c k s).cntSh = s.cntSh := rfl
@[simp] theorem corePut_hif (c : Nat) (k : Core) (s : State) : (corePut c k s).hif = s.hif := rfl
@[simp] theorem corePut_frm (c : Nat) (k : Core) (s : State) : (corePut c k s).frm = s.frm := rfl
@[simp] theorem corePut_ctl (c : Nat) (k : Core) (s : State) : (corePut c k s).ctl = s.ctl := rfl
@[simp] theorem corePut_key (c : Nat) (k : Core) (s : State) : (corePut c k s).key = s.key := rfl
@[simp] theorem corePut_aud (c : Nat) (k : Core) (s : State) : (corePut c k s).aud = s.aud := rfl
@[simp] theorem corePut_egr (c : Nat) (k : Core) (s : State) : (corePut c k s).egr = s.egr := rfl
@[simp] theorem corePut_src (c : Nat) (k : Core) (s : State) : (corePut c k s).src = s.src := rfl
@[simp] theorem corePut_fwd (c : Nat) (k : Core) (s : State) : (corePut c k s).fwd = s.fwd := rfl
@[simp] theorem corePut_vid (c : Nat) (k : Core) (s : State) : (corePut c k s).vid = s.vid := rfl
@[simp] theorem corePut_flt (c : Nat) (k : Core) (s : State) : (corePut c k s).flt = s.flt := rfl
@[simp] theorem corePut_obs (c : Nat) (k : Core) (s : State) : (corePut c k s).obs = s.obs := rfl
@[simp] theorem corePut_ddr (c : Nat) (k : Core) (s : State) : (corePut c k s).ddr = s.ddr := rfl
@[simp] theorem corePut_ldg (c : Nat) (k : Core) (s : State) : (corePut c k s).ldg = s.ldg := rfl
@[simp] theorem corePut_dma (c : Nat) (k : Core) (s : State) : (corePut c k s).dma = s.dma := rfl
@[simp] theorem corePut_pwr (c : Nat) (k : Core) (s : State) : (corePut c k s).pwr = s.pwr := rfl
@[simp] theorem corePut_cas (c : Nat) (k : Core) (s : State) : (corePut c k s).cas = s.cas := rfl
@[simp] theorem corePut_shown (c : Nat) (k : Core) (s : State) : (corePut c k s).shown = s.shown := rfl
@[simp] theorem corePut_out (c : Nat) (k : Core) (s : State) : (corePut c k s).out = s.out := rfl
@[simp] theorem corePut_free (c : Nat) (k : Core) (s : State) : (corePut c k s).free = s.free := rfl
@[simp] theorem corePut_pending (c : Nat) (k : Core) (s : State) : (corePut c k s).pending = s.pending := rfl

/-! ### itemPut -/

@[simp] theorem itemPut_clk (h : Nat) (i : Item) (s : State) : (itemPut h i s).clk = s.clk := rfl
@[simp] theorem itemPut_mem (h : Nat) (i : Item) (s : State) : (itemPut h i s).mem = s.mem := rfl
@[simp] theorem itemPut_regs (h : Nat) (i : Item) (s : State) : (itemPut h i s).regs = s.regs := rfl
@[simp] theorem itemPut_cnt (h : Nat) (i : Item) (s : State) : (itemPut h i s).cnt = s.cnt := rfl
@[simp] theorem itemPut_cntSh (h : Nat) (i : Item) (s : State) : (itemPut h i s).cntSh = s.cntSh := rfl
@[simp] theorem itemPut_hif (h : Nat) (i : Item) (s : State) : (itemPut h i s).hif = s.hif := rfl
@[simp] theorem itemPut_frm (h : Nat) (i : Item) (s : State) : (itemPut h i s).frm = s.frm := rfl
@[simp] theorem itemPut_ctl (h : Nat) (i : Item) (s : State) : (itemPut h i s).ctl = s.ctl := rfl
@[simp] theorem itemPut_key (h : Nat) (i : Item) (s : State) : (itemPut h i s).key = s.key := rfl
@[simp] theorem itemPut_aud (h : Nat) (i : Item) (s : State) : (itemPut h i s).aud = s.aud := rfl
@[simp] theorem itemPut_egr (h : Nat) (i : Item) (s : State) : (itemPut h i s).egr = s.egr := rfl
@[simp] theorem itemPut_src (h : Nat) (i : Item) (s : State) : (itemPut h i s).src = s.src := rfl
@[simp] theorem itemPut_fwd (h : Nat) (i : Item) (s : State) : (itemPut h i s).fwd = s.fwd := rfl
@[simp] theorem itemPut_vid (h : Nat) (i : Item) (s : State) : (itemPut h i s).vid = s.vid := rfl
@[simp] theorem itemPut_flt (h : Nat) (i : Item) (s : State) : (itemPut h i s).flt = s.flt := rfl
@[simp] theorem itemPut_obs (h : Nat) (i : Item) (s : State) : (itemPut h i s).obs = s.obs := rfl
@[simp] theorem itemPut_ddr (h : Nat) (i : Item) (s : State) : (itemPut h i s).ddr = s.ddr := rfl
@[simp] theorem itemPut_ldg (h : Nat) (i : Item) (s : State) : (itemPut h i s).ldg = s.ldg := rfl
@[simp] theorem itemPut_dma (h : Nat) (i : Item) (s : State) : (itemPut h i s).dma = s.dma := rfl
@[simp] theorem itemPut_pwr (h : Nat) (i : Item) (s : State) : (itemPut h i s).pwr = s.pwr := rfl
@[simp] theorem itemPut_cas (h : Nat) (i : Item) (s : State) : (itemPut h i s).cas = s.cas := rfl
@[simp] theorem itemPut_shown (h : Nat) (i : Item) (s : State) : (itemPut h i s).shown = s.shown := rfl
@[simp] theorem itemPut_out (h : Nat) (i : Item) (s : State) : (itemPut h i s).out = s.out := rfl
@[simp] theorem itemPut_free (h : Nat) (i : Item) (s : State) : (itemPut h i s).free = s.free := rfl
@[simp] theorem itemPut_pending (h : Nat) (i : Item) (s : State) : (itemPut h i s).pending = s.pending := rfl

/-! ### barPut -/

@[simp] theorem barPut_clk (b : Nat) (x : Barrier) (s : State) : (barPut b x s).clk = s.clk := rfl
@[simp] theorem barPut_mem (b : Nat) (x : Barrier) (s : State) : (barPut b x s).mem = s.mem := rfl
@[simp] theorem barPut_regs (b : Nat) (x : Barrier) (s : State) : (barPut b x s).regs = s.regs := rfl
@[simp] theorem barPut_cnt (b : Nat) (x : Barrier) (s : State) : (barPut b x s).cnt = s.cnt := rfl
@[simp] theorem barPut_cntSh (b : Nat) (x : Barrier) (s : State) : (barPut b x s).cntSh = s.cntSh := rfl
@[simp] theorem barPut_hif (b : Nat) (x : Barrier) (s : State) : (barPut b x s).hif = s.hif := rfl
@[simp] theorem barPut_frm (b : Nat) (x : Barrier) (s : State) : (barPut b x s).frm = s.frm := rfl
@[simp] theorem barPut_ctl (b : Nat) (x : Barrier) (s : State) : (barPut b x s).ctl = s.ctl := rfl
@[simp] theorem barPut_key (b : Nat) (x : Barrier) (s : State) : (barPut b x s).key = s.key := rfl
@[simp] theorem barPut_aud (b : Nat) (x : Barrier) (s : State) : (barPut b x s).aud = s.aud := rfl
@[simp] theorem barPut_egr (b : Nat) (x : Barrier) (s : State) : (barPut b x s).egr = s.egr := rfl
@[simp] theorem barPut_src (b : Nat) (x : Barrier) (s : State) : (barPut b x s).src = s.src := rfl
@[simp] theorem barPut_fwd (b : Nat) (x : Barrier) (s : State) : (barPut b x s).fwd = s.fwd := rfl
@[simp] theorem barPut_vid (b : Nat) (x : Barrier) (s : State) : (barPut b x s).vid = s.vid := rfl
@[simp] theorem barPut_flt (b : Nat) (x : Barrier) (s : State) : (barPut b x s).flt = s.flt := rfl
@[simp] theorem barPut_obs (b : Nat) (x : Barrier) (s : State) : (barPut b x s).obs = s.obs := rfl
@[simp] theorem barPut_ddr (b : Nat) (x : Barrier) (s : State) : (barPut b x s).ddr = s.ddr := rfl
@[simp] theorem barPut_ldg (b : Nat) (x : Barrier) (s : State) : (barPut b x s).ldg = s.ldg := rfl
@[simp] theorem barPut_dma (b : Nat) (x : Barrier) (s : State) : (barPut b x s).dma = s.dma := rfl
@[simp] theorem barPut_pwr (b : Nat) (x : Barrier) (s : State) : (barPut b x s).pwr = s.pwr := rfl
@[simp] theorem barPut_cas (b : Nat) (x : Barrier) (s : State) : (barPut b x s).cas = s.cas := rfl
@[simp] theorem barPut_shown (b : Nat) (x : Barrier) (s : State) : (barPut b x s).shown = s.shown := rfl
@[simp] theorem barPut_out (b : Nat) (x : Barrier) (s : State) : (barPut b x s).out = s.out := rfl
@[simp] theorem barPut_free (b : Nat) (x : Barrier) (s : State) : (barPut b x s).free = s.free := rfl
@[simp] theorem barPut_pending (b : Nat) (x : Barrier) (s : State) : (barPut b x s).pending = s.pending := rfl

/-! ### keySlotPut -/

@[simp] theorem keySlotPut_clk (n : Nat) (k : KeySlot) (s : State) : (keySlotPut n k s).clk = s.clk := rfl
@[simp] theorem keySlotPut_mem (n : Nat) (k : KeySlot) (s : State) : (keySlotPut n k s).mem = s.mem := rfl
@[simp] theorem keySlotPut_regs (n : Nat) (k : KeySlot) (s : State) : (keySlotPut n k s).regs = s.regs := rfl
@[simp] theorem keySlotPut_cnt (n : Nat) (k : KeySlot) (s : State) : (keySlotPut n k s).cnt = s.cnt := rfl
@[simp] theorem keySlotPut_cntSh (n : Nat) (k : KeySlot) (s : State) : (keySlotPut n k s).cntSh = s.cntSh := rfl
@[simp] theorem keySlotPut_hif (n : Nat) (k : KeySlot) (s : State) : (keySlotPut n k s).hif = s.hif := rfl
@[simp] theorem keySlotPut_frm (n : Nat) (k : KeySlot) (s : State) : (keySlotPut n k s).frm = s.frm := rfl
@[simp] theorem keySlotPut_ctl (n : Nat) (k : KeySlot) (s : State) : (keySlotPut n k s).ctl = s.ctl := rfl
@[simp] theorem keySlotPut_aud (n : Nat) (k : KeySlot) (s : State) : (keySlotPut n k s).aud = s.aud := rfl
@[simp] theorem keySlotPut_egr (n : Nat) (k : KeySlot) (s : State) : (keySlotPut n k s).egr = s.egr := rfl
@[simp] theorem keySlotPut_src (n : Nat) (k : KeySlot) (s : State) : (keySlotPut n k s).src = s.src := rfl
@[simp] theorem keySlotPut_fwd (n : Nat) (k : KeySlot) (s : State) : (keySlotPut n k s).fwd = s.fwd := rfl
@[simp] theorem keySlotPut_vid (n : Nat) (k : KeySlot) (s : State) : (keySlotPut n k s).vid = s.vid := rfl
@[simp] theorem keySlotPut_flt (n : Nat) (k : KeySlot) (s : State) : (keySlotPut n k s).flt = s.flt := rfl
@[simp] theorem keySlotPut_obs (n : Nat) (k : KeySlot) (s : State) : (keySlotPut n k s).obs = s.obs := rfl
@[simp] theorem keySlotPut_crsl (n : Nat) (k : KeySlot) (s : State) : (keySlotPut n k s).crsl = s.crsl := rfl
@[simp] theorem keySlotPut_ddr (n : Nat) (k : KeySlot) (s : State) : (keySlotPut n k s).ddr = s.ddr := rfl
@[simp] theorem keySlotPut_ldg (n : Nat) (k : KeySlot) (s : State) : (keySlotPut n k s).ldg = s.ldg := rfl
@[simp] theorem keySlotPut_dma (n : Nat) (k : KeySlot) (s : State) : (keySlotPut n k s).dma = s.dma := rfl
@[simp] theorem keySlotPut_pwr (n : Nat) (k : KeySlot) (s : State) : (keySlotPut n k s).pwr = s.pwr := rfl
@[simp] theorem keySlotPut_cas (n : Nat) (k : KeySlot) (s : State) : (keySlotPut n k s).cas = s.cas := rfl
@[simp] theorem keySlotPut_shown (n : Nat) (k : KeySlot) (s : State) : (keySlotPut n k s).shown = s.shown := rfl
@[simp] theorem keySlotPut_out (n : Nat) (k : KeySlot) (s : State) : (keySlotPut n k s).out = s.out := rfl
@[simp] theorem keySlotPut_free (n : Nat) (k : KeySlot) (s : State) : (keySlotPut n k s).free = s.free := rfl
@[simp] theorem keySlotPut_pending (n : Nat) (k : KeySlot) (s : State) : (keySlotPut n k s).pending = s.pending := rfl

/-! ### actAudPut -/

@[simp] theorem actAudPut_clk (a : Nat) (x : ActAud) (s : State) : (actAudPut a x s).clk = s.clk := rfl
@[simp] theorem actAudPut_mem (a : Nat) (x : ActAud) (s : State) : (actAudPut a x s).mem = s.mem := rfl
@[simp] theorem actAudPut_regs (a : Nat) (x : ActAud) (s : State) : (actAudPut a x s).regs = s.regs := rfl
@[simp] theorem actAudPut_cnt (a : Nat) (x : ActAud) (s : State) : (actAudPut a x s).cnt = s.cnt := rfl
@[simp] theorem actAudPut_cntSh (a : Nat) (x : ActAud) (s : State) : (actAudPut a x s).cntSh = s.cntSh := rfl
@[simp] theorem actAudPut_hif (a : Nat) (x : ActAud) (s : State) : (actAudPut a x s).hif = s.hif := rfl
@[simp] theorem actAudPut_frm (a : Nat) (x : ActAud) (s : State) : (actAudPut a x s).frm = s.frm := rfl
@[simp] theorem actAudPut_ctl (a : Nat) (x : ActAud) (s : State) : (actAudPut a x s).ctl = s.ctl := rfl
@[simp] theorem actAudPut_key (a : Nat) (x : ActAud) (s : State) : (actAudPut a x s).key = s.key := rfl
@[simp] theorem actAudPut_egr (a : Nat) (x : ActAud) (s : State) : (actAudPut a x s).egr = s.egr := rfl
@[simp] theorem actAudPut_src (a : Nat) (x : ActAud) (s : State) : (actAudPut a x s).src = s.src := rfl
@[simp] theorem actAudPut_fwd (a : Nat) (x : ActAud) (s : State) : (actAudPut a x s).fwd = s.fwd := rfl
@[simp] theorem actAudPut_vid (a : Nat) (x : ActAud) (s : State) : (actAudPut a x s).vid = s.vid := rfl
@[simp] theorem actAudPut_flt (a : Nat) (x : ActAud) (s : State) : (actAudPut a x s).flt = s.flt := rfl
@[simp] theorem actAudPut_obs (a : Nat) (x : ActAud) (s : State) : (actAudPut a x s).obs = s.obs := rfl
@[simp] theorem actAudPut_crsl (a : Nat) (x : ActAud) (s : State) : (actAudPut a x s).crsl = s.crsl := rfl
@[simp] theorem actAudPut_ddr (a : Nat) (x : ActAud) (s : State) : (actAudPut a x s).ddr = s.ddr := rfl
@[simp] theorem actAudPut_ldg (a : Nat) (x : ActAud) (s : State) : (actAudPut a x s).ldg = s.ldg := rfl
@[simp] theorem actAudPut_dma (a : Nat) (x : ActAud) (s : State) : (actAudPut a x s).dma = s.dma := rfl
@[simp] theorem actAudPut_pwr (a : Nat) (x : ActAud) (s : State) : (actAudPut a x s).pwr = s.pwr := rfl
@[simp] theorem actAudPut_cas (a : Nat) (x : ActAud) (s : State) : (actAudPut a x s).cas = s.cas := rfl
@[simp] theorem actAudPut_shown (a : Nat) (x : ActAud) (s : State) : (actAudPut a x s).shown = s.shown := rfl
@[simp] theorem actAudPut_out (a : Nat) (x : ActAud) (s : State) : (actAudPut a x s).out = s.out := rfl
@[simp] theorem actAudPut_free (a : Nat) (x : ActAud) (s : State) : (actAudPut a x s).free = s.free := rfl
@[simp] theorem actAudPut_pending (a : Nat) (x : ActAud) (s : State) : (actAudPut a x s).pending = s.pending := rfl

/-! ### legAudPut -/

@[simp] theorem legAudPut_clk (n : Nat) (x : LegAud) (s : State) : (legAudPut n x s).clk = s.clk := rfl
@[simp] theorem legAudPut_mem (n : Nat) (x : LegAud) (s : State) : (legAudPut n x s).mem = s.mem := rfl
@[simp] theorem legAudPut_regs (n : Nat) (x : LegAud) (s : State) : (legAudPut n x s).regs = s.regs := rfl
@[simp] theorem legAudPut_cnt (n : Nat) (x : LegAud) (s : State) : (legAudPut n x s).cnt = s.cnt := rfl
@[simp] theorem legAudPut_cntSh (n : Nat) (x : LegAud) (s : State) : (legAudPut n x s).cntSh = s.cntSh := rfl
@[simp] theorem legAudPut_hif (n : Nat) (x : LegAud) (s : State) : (legAudPut n x s).hif = s.hif := rfl
@[simp] theorem legAudPut_frm (n : Nat) (x : LegAud) (s : State) : (legAudPut n x s).frm = s.frm := rfl
@[simp] theorem legAudPut_ctl (n : Nat) (x : LegAud) (s : State) : (legAudPut n x s).ctl = s.ctl := rfl
@[simp] theorem legAudPut_key (n : Nat) (x : LegAud) (s : State) : (legAudPut n x s).key = s.key := rfl
@[simp] theorem legAudPut_egr (n : Nat) (x : LegAud) (s : State) : (legAudPut n x s).egr = s.egr := rfl
@[simp] theorem legAudPut_src (n : Nat) (x : LegAud) (s : State) : (legAudPut n x s).src = s.src := rfl
@[simp] theorem legAudPut_fwd (n : Nat) (x : LegAud) (s : State) : (legAudPut n x s).fwd = s.fwd := rfl
@[simp] theorem legAudPut_vid (n : Nat) (x : LegAud) (s : State) : (legAudPut n x s).vid = s.vid := rfl
@[simp] theorem legAudPut_flt (n : Nat) (x : LegAud) (s : State) : (legAudPut n x s).flt = s.flt := rfl
@[simp] theorem legAudPut_obs (n : Nat) (x : LegAud) (s : State) : (legAudPut n x s).obs = s.obs := rfl
@[simp] theorem legAudPut_crsl (n : Nat) (x : LegAud) (s : State) : (legAudPut n x s).crsl = s.crsl := rfl
@[simp] theorem legAudPut_ddr (n : Nat) (x : LegAud) (s : State) : (legAudPut n x s).ddr = s.ddr := rfl
@[simp] theorem legAudPut_ldg (n : Nat) (x : LegAud) (s : State) : (legAudPut n x s).ldg = s.ldg := rfl
@[simp] theorem legAudPut_dma (n : Nat) (x : LegAud) (s : State) : (legAudPut n x s).dma = s.dma := rfl
@[simp] theorem legAudPut_pwr (n : Nat) (x : LegAud) (s : State) : (legAudPut n x s).pwr = s.pwr := rfl
@[simp] theorem legAudPut_cas (n : Nat) (x : LegAud) (s : State) : (legAudPut n x s).cas = s.cas := rfl
@[simp] theorem legAudPut_shown (n : Nat) (x : LegAud) (s : State) : (legAudPut n x s).shown = s.shown := rfl
@[simp] theorem legAudPut_out (n : Nat) (x : LegAud) (s : State) : (legAudPut n x s).out = s.out := rfl
@[simp] theorem legAudPut_free (n : Nat) (x : LegAud) (s : State) : (legAudPut n x s).free = s.free := rfl
@[simp] theorem legAudPut_pending (n : Nat) (x : LegAud) (s : State) : (legAudPut n x s).pending = s.pending := rfl

/-! ### egrStrPut -/

@[simp] theorem egrStrPut_clk (id : Nat) (e : EgrStr) (s : State) : (egrStrPut id e s).clk = s.clk := rfl
@[simp] theorem egrStrPut_mem (id : Nat) (e : EgrStr) (s : State) : (egrStrPut id e s).mem = s.mem := rfl
@[simp] theorem egrStrPut_regs (id : Nat) (e : EgrStr) (s : State) : (egrStrPut id e s).regs = s.regs := rfl
@[simp] theorem egrStrPut_cnt (id : Nat) (e : EgrStr) (s : State) : (egrStrPut id e s).cnt = s.cnt := rfl
@[simp] theorem egrStrPut_cntSh (id : Nat) (e : EgrStr) (s : State) : (egrStrPut id e s).cntSh = s.cntSh := rfl
@[simp] theorem egrStrPut_hif (id : Nat) (e : EgrStr) (s : State) : (egrStrPut id e s).hif = s.hif := rfl
@[simp] theorem egrStrPut_frm (id : Nat) (e : EgrStr) (s : State) : (egrStrPut id e s).frm = s.frm := rfl
@[simp] theorem egrStrPut_ctl (id : Nat) (e : EgrStr) (s : State) : (egrStrPut id e s).ctl = s.ctl := rfl
@[simp] theorem egrStrPut_key (id : Nat) (e : EgrStr) (s : State) : (egrStrPut id e s).key = s.key := rfl
@[simp] theorem egrStrPut_aud (id : Nat) (e : EgrStr) (s : State) : (egrStrPut id e s).aud = s.aud := rfl
@[simp] theorem egrStrPut_src (id : Nat) (e : EgrStr) (s : State) : (egrStrPut id e s).src = s.src := rfl
@[simp] theorem egrStrPut_fwd (id : Nat) (e : EgrStr) (s : State) : (egrStrPut id e s).fwd = s.fwd := rfl
@[simp] theorem egrStrPut_vid (id : Nat) (e : EgrStr) (s : State) : (egrStrPut id e s).vid = s.vid := rfl
@[simp] theorem egrStrPut_flt (id : Nat) (e : EgrStr) (s : State) : (egrStrPut id e s).flt = s.flt := rfl
@[simp] theorem egrStrPut_obs (id : Nat) (e : EgrStr) (s : State) : (egrStrPut id e s).obs = s.obs := rfl
@[simp] theorem egrStrPut_crsl (id : Nat) (e : EgrStr) (s : State) : (egrStrPut id e s).crsl = s.crsl := rfl
@[simp] theorem egrStrPut_ddr (id : Nat) (e : EgrStr) (s : State) : (egrStrPut id e s).ddr = s.ddr := rfl
@[simp] theorem egrStrPut_ldg (id : Nat) (e : EgrStr) (s : State) : (egrStrPut id e s).ldg = s.ldg := rfl
@[simp] theorem egrStrPut_dma (id : Nat) (e : EgrStr) (s : State) : (egrStrPut id e s).dma = s.dma := rfl
@[simp] theorem egrStrPut_pwr (id : Nat) (e : EgrStr) (s : State) : (egrStrPut id e s).pwr = s.pwr := rfl
@[simp] theorem egrStrPut_cas (id : Nat) (e : EgrStr) (s : State) : (egrStrPut id e s).cas = s.cas := rfl
@[simp] theorem egrStrPut_shown (id : Nat) (e : EgrStr) (s : State) : (egrStrPut id e s).shown = s.shown := rfl
@[simp] theorem egrStrPut_out (id : Nat) (e : EgrStr) (s : State) : (egrStrPut id e s).out = s.out := rfl
@[simp] theorem egrStrPut_free (id : Nat) (e : EgrStr) (s : State) : (egrStrPut id e s).free = s.free := rfl
@[simp] theorem egrStrPut_pending (id : Nat) (e : EgrStr) (s : State) : (egrStrPut id e s).pending = s.pending := rfl

/-! ### egrLegPut -/

@[simp] theorem egrLegPut_clk (leg : Nat) (e : EgrLeg) (s : State) : (egrLegPut leg e s).clk = s.clk := rfl
@[simp] theorem egrLegPut_mem (leg : Nat) (e : EgrLeg) (s : State) : (egrLegPut leg e s).mem = s.mem := rfl
@[simp] theorem egrLegPut_regs (leg : Nat) (e : EgrLeg) (s : State) : (egrLegPut leg e s).regs = s.regs := rfl
@[simp] theorem egrLegPut_cnt (leg : Nat) (e : EgrLeg) (s : State) : (egrLegPut leg e s).cnt = s.cnt := rfl
@[simp] theorem egrLegPut_cntSh (leg : Nat) (e : EgrLeg) (s : State) : (egrLegPut leg e s).cntSh = s.cntSh := rfl
@[simp] theorem egrLegPut_hif (leg : Nat) (e : EgrLeg) (s : State) : (egrLegPut leg e s).hif = s.hif := rfl
@[simp] theorem egrLegPut_frm (leg : Nat) (e : EgrLeg) (s : State) : (egrLegPut leg e s).frm = s.frm := rfl
@[simp] theorem egrLegPut_ctl (leg : Nat) (e : EgrLeg) (s : State) : (egrLegPut leg e s).ctl = s.ctl := rfl
@[simp] theorem egrLegPut_key (leg : Nat) (e : EgrLeg) (s : State) : (egrLegPut leg e s).key = s.key := rfl
@[simp] theorem egrLegPut_aud (leg : Nat) (e : EgrLeg) (s : State) : (egrLegPut leg e s).aud = s.aud := rfl
@[simp] theorem egrLegPut_src (leg : Nat) (e : EgrLeg) (s : State) : (egrLegPut leg e s).src = s.src := rfl
@[simp] theorem egrLegPut_fwd (leg : Nat) (e : EgrLeg) (s : State) : (egrLegPut leg e s).fwd = s.fwd := rfl
@[simp] theorem egrLegPut_vid (leg : Nat) (e : EgrLeg) (s : State) : (egrLegPut leg e s).vid = s.vid := rfl
@[simp] theorem egrLegPut_flt (leg : Nat) (e : EgrLeg) (s : State) : (egrLegPut leg e s).flt = s.flt := rfl
@[simp] theorem egrLegPut_obs (leg : Nat) (e : EgrLeg) (s : State) : (egrLegPut leg e s).obs = s.obs := rfl
@[simp] theorem egrLegPut_crsl (leg : Nat) (e : EgrLeg) (s : State) : (egrLegPut leg e s).crsl = s.crsl := rfl
@[simp] theorem egrLegPut_ddr (leg : Nat) (e : EgrLeg) (s : State) : (egrLegPut leg e s).ddr = s.ddr := rfl
@[simp] theorem egrLegPut_ldg (leg : Nat) (e : EgrLeg) (s : State) : (egrLegPut leg e s).ldg = s.ldg := rfl
@[simp] theorem egrLegPut_dma (leg : Nat) (e : EgrLeg) (s : State) : (egrLegPut leg e s).dma = s.dma := rfl
@[simp] theorem egrLegPut_pwr (leg : Nat) (e : EgrLeg) (s : State) : (egrLegPut leg e s).pwr = s.pwr := rfl
@[simp] theorem egrLegPut_cas (leg : Nat) (e : EgrLeg) (s : State) : (egrLegPut leg e s).cas = s.cas := rfl
@[simp] theorem egrLegPut_shown (leg : Nat) (e : EgrLeg) (s : State) : (egrLegPut leg e s).shown = s.shown := rfl
@[simp] theorem egrLegPut_out (leg : Nat) (e : EgrLeg) (s : State) : (egrLegPut leg e s).out = s.out := rfl
@[simp] theorem egrLegPut_free (leg : Nat) (e : EgrLeg) (s : State) : (egrLegPut leg e s).free = s.free := rfl
@[simp] theorem egrLegPut_pending (leg : Nat) (e : EgrLeg) (s : State) : (egrLegPut leg e s).pending = s.pending := rfl

/-! ### trackPut -/

@[simp] theorem trackPut_clk (id : Nat) (t : Track) (s : State) : (trackPut id t s).clk = s.clk := rfl
@[simp] theorem trackPut_mem (id : Nat) (t : Track) (s : State) : (trackPut id t s).mem = s.mem := rfl
@[simp] theorem trackPut_regs (id : Nat) (t : Track) (s : State) : (trackPut id t s).regs = s.regs := rfl
@[simp] theorem trackPut_cnt (id : Nat) (t : Track) (s : State) : (trackPut id t s).cnt = s.cnt := rfl
@[simp] theorem trackPut_cntSh (id : Nat) (t : Track) (s : State) : (trackPut id t s).cntSh = s.cntSh := rfl
@[simp] theorem trackPut_hif (id : Nat) (t : Track) (s : State) : (trackPut id t s).hif = s.hif := rfl
@[simp] theorem trackPut_frm (id : Nat) (t : Track) (s : State) : (trackPut id t s).frm = s.frm := rfl
@[simp] theorem trackPut_ctl (id : Nat) (t : Track) (s : State) : (trackPut id t s).ctl = s.ctl := rfl
@[simp] theorem trackPut_key (id : Nat) (t : Track) (s : State) : (trackPut id t s).key = s.key := rfl
@[simp] theorem trackPut_aud (id : Nat) (t : Track) (s : State) : (trackPut id t s).aud = s.aud := rfl
@[simp] theorem trackPut_egr (id : Nat) (t : Track) (s : State) : (trackPut id t s).egr = s.egr := rfl
@[simp] theorem trackPut_src (id : Nat) (t : Track) (s : State) : (trackPut id t s).src = s.src := rfl
@[simp] theorem trackPut_vid (id : Nat) (t : Track) (s : State) : (trackPut id t s).vid = s.vid := rfl
@[simp] theorem trackPut_flt (id : Nat) (t : Track) (s : State) : (trackPut id t s).flt = s.flt := rfl
@[simp] theorem trackPut_obs (id : Nat) (t : Track) (s : State) : (trackPut id t s).obs = s.obs := rfl
@[simp] theorem trackPut_crsl (id : Nat) (t : Track) (s : State) : (trackPut id t s).crsl = s.crsl := rfl
@[simp] theorem trackPut_ddr (id : Nat) (t : Track) (s : State) : (trackPut id t s).ddr = s.ddr := rfl
@[simp] theorem trackPut_ldg (id : Nat) (t : Track) (s : State) : (trackPut id t s).ldg = s.ldg := rfl
@[simp] theorem trackPut_dma (id : Nat) (t : Track) (s : State) : (trackPut id t s).dma = s.dma := rfl
@[simp] theorem trackPut_pwr (id : Nat) (t : Track) (s : State) : (trackPut id t s).pwr = s.pwr := rfl
@[simp] theorem trackPut_cas (id : Nat) (t : Track) (s : State) : (trackPut id t s).cas = s.cas := rfl
@[simp] theorem trackPut_shown (id : Nat) (t : Track) (s : State) : (trackPut id t s).shown = s.shown := rfl
@[simp] theorem trackPut_out (id : Nat) (t : Track) (s : State) : (trackPut id t s).out = s.out := rfl
@[simp] theorem trackPut_free (id : Nat) (t : Track) (s : State) : (trackPut id t s).free = s.free := rfl
@[simp] theorem trackPut_pending (id : Nat) (t : Track) (s : State) : (trackPut id t s).pending = s.pending := rfl

/-! ### fwdLegPut -/

@[simp] theorem fwdLegPut_clk (n : Nat) (x : FwdLeg) (s : State) : (fwdLegPut n x s).clk = s.clk := rfl
@[simp] theorem fwdLegPut_mem (n : Nat) (x : FwdLeg) (s : State) : (fwdLegPut n x s).mem = s.mem := rfl
@[simp] theorem fwdLegPut_regs (n : Nat) (x : FwdLeg) (s : State) : (fwdLegPut n x s).regs = s.regs := rfl
@[simp] theorem fwdLegPut_cnt (n : Nat) (x : FwdLeg) (s : State) : (fwdLegPut n x s).cnt = s.cnt := rfl
@[simp] theorem fwdLegPut_cntSh (n : Nat) (x : FwdLeg) (s : State) : (fwdLegPut n x s).cntSh = s.cntSh := rfl
@[simp] theorem fwdLegPut_hif (n : Nat) (x : FwdLeg) (s : State) : (fwdLegPut n x s).hif = s.hif := rfl
@[simp] theorem fwdLegPut_frm (n : Nat) (x : FwdLeg) (s : State) : (fwdLegPut n x s).frm = s.frm := rfl
@[simp] theorem fwdLegPut_ctl (n : Nat) (x : FwdLeg) (s : State) : (fwdLegPut n x s).ctl = s.ctl := rfl
@[simp] theorem fwdLegPut_key (n : Nat) (x : FwdLeg) (s : State) : (fwdLegPut n x s).key = s.key := rfl
@[simp] theorem fwdLegPut_aud (n : Nat) (x : FwdLeg) (s : State) : (fwdLegPut n x s).aud = s.aud := rfl
@[simp] theorem fwdLegPut_egr (n : Nat) (x : FwdLeg) (s : State) : (fwdLegPut n x s).egr = s.egr := rfl
@[simp] theorem fwdLegPut_src (n : Nat) (x : FwdLeg) (s : State) : (fwdLegPut n x s).src = s.src := rfl
@[simp] theorem fwdLegPut_vid (n : Nat) (x : FwdLeg) (s : State) : (fwdLegPut n x s).vid = s.vid := rfl
@[simp] theorem fwdLegPut_flt (n : Nat) (x : FwdLeg) (s : State) : (fwdLegPut n x s).flt = s.flt := rfl
@[simp] theorem fwdLegPut_obs (n : Nat) (x : FwdLeg) (s : State) : (fwdLegPut n x s).obs = s.obs := rfl
@[simp] theorem fwdLegPut_crsl (n : Nat) (x : FwdLeg) (s : State) : (fwdLegPut n x s).crsl = s.crsl := rfl
@[simp] theorem fwdLegPut_ddr (n : Nat) (x : FwdLeg) (s : State) : (fwdLegPut n x s).ddr = s.ddr := rfl
@[simp] theorem fwdLegPut_ldg (n : Nat) (x : FwdLeg) (s : State) : (fwdLegPut n x s).ldg = s.ldg := rfl
@[simp] theorem fwdLegPut_dma (n : Nat) (x : FwdLeg) (s : State) : (fwdLegPut n x s).dma = s.dma := rfl
@[simp] theorem fwdLegPut_pwr (n : Nat) (x : FwdLeg) (s : State) : (fwdLegPut n x s).pwr = s.pwr := rfl
@[simp] theorem fwdLegPut_cas (n : Nat) (x : FwdLeg) (s : State) : (fwdLegPut n x s).cas = s.cas := rfl
@[simp] theorem fwdLegPut_shown (n : Nat) (x : FwdLeg) (s : State) : (fwdLegPut n x s).shown = s.shown := rfl
@[simp] theorem fwdLegPut_out (n : Nat) (x : FwdLeg) (s : State) : (fwdLegPut n x s).out = s.out := rfl
@[simp] theorem fwdLegPut_free (n : Nat) (x : FwdLeg) (s : State) : (fwdLegPut n x s).free = s.free := rfl
@[simp] theorem fwdLegPut_pending (n : Nat) (x : FwdLeg) (s : State) : (fwdLegPut n x s).pending = s.pending := rfl

/-! ### canvasPut -/

@[simp] theorem canvasPut_clk (id : Nat) (x : Canvas) (s : State) : (canvasPut id x s).clk = s.clk := rfl
@[simp] theorem canvasPut_mem (id : Nat) (x : Canvas) (s : State) : (canvasPut id x s).mem = s.mem := rfl
@[simp] theorem canvasPut_regs (id : Nat) (x : Canvas) (s : State) : (canvasPut id x s).regs = s.regs := rfl
@[simp] theorem canvasPut_cnt (id : Nat) (x : Canvas) (s : State) : (canvasPut id x s).cnt = s.cnt := rfl
@[simp] theorem canvasPut_cntSh (id : Nat) (x : Canvas) (s : State) : (canvasPut id x s).cntSh = s.cntSh := rfl
@[simp] theorem canvasPut_hif (id : Nat) (x : Canvas) (s : State) : (canvasPut id x s).hif = s.hif := rfl
@[simp] theorem canvasPut_frm (id : Nat) (x : Canvas) (s : State) : (canvasPut id x s).frm = s.frm := rfl
@[simp] theorem canvasPut_ctl (id : Nat) (x : Canvas) (s : State) : (canvasPut id x s).ctl = s.ctl := rfl
@[simp] theorem canvasPut_key (id : Nat) (x : Canvas) (s : State) : (canvasPut id x s).key = s.key := rfl
@[simp] theorem canvasPut_aud (id : Nat) (x : Canvas) (s : State) : (canvasPut id x s).aud = s.aud := rfl
@[simp] theorem canvasPut_egr (id : Nat) (x : Canvas) (s : State) : (canvasPut id x s).egr = s.egr := rfl
@[simp] theorem canvasPut_src (id : Nat) (x : Canvas) (s : State) : (canvasPut id x s).src = s.src := rfl
@[simp] theorem canvasPut_fwd (id : Nat) (x : Canvas) (s : State) : (canvasPut id x s).fwd = s.fwd := rfl
@[simp] theorem canvasPut_flt (id : Nat) (x : Canvas) (s : State) : (canvasPut id x s).flt = s.flt := rfl
@[simp] theorem canvasPut_obs (id : Nat) (x : Canvas) (s : State) : (canvasPut id x s).obs = s.obs := rfl
@[simp] theorem canvasPut_crsl (id : Nat) (x : Canvas) (s : State) : (canvasPut id x s).crsl = s.crsl := rfl
@[simp] theorem canvasPut_ddr (id : Nat) (x : Canvas) (s : State) : (canvasPut id x s).ddr = s.ddr := rfl
@[simp] theorem canvasPut_ldg (id : Nat) (x : Canvas) (s : State) : (canvasPut id x s).ldg = s.ldg := rfl
@[simp] theorem canvasPut_dma (id : Nat) (x : Canvas) (s : State) : (canvasPut id x s).dma = s.dma := rfl
@[simp] theorem canvasPut_pwr (id : Nat) (x : Canvas) (s : State) : (canvasPut id x s).pwr = s.pwr := rfl
@[simp] theorem canvasPut_cas (id : Nat) (x : Canvas) (s : State) : (canvasPut id x s).cas = s.cas := rfl
@[simp] theorem canvasPut_shown (id : Nat) (x : Canvas) (s : State) : (canvasPut id x s).shown = s.shown := rfl
@[simp] theorem canvasPut_out (id : Nat) (x : Canvas) (s : State) : (canvasPut id x s).out = s.out := rfl
@[simp] theorem canvasPut_free (id : Nat) (x : Canvas) (s : State) : (canvasPut id x s).free = s.free := rfl
@[simp] theorem canvasPut_pending (id : Nat) (x : Canvas) (s : State) : (canvasPut id x s).pending = s.pending := rfl

/-! ### sessPut -/

@[simp] theorem sessPut_clk (id : Nat) (x : Sess) (s : State) : (sessPut id x s).clk = s.clk := rfl
@[simp] theorem sessPut_mem (id : Nat) (x : Sess) (s : State) : (sessPut id x s).mem = s.mem := rfl
@[simp] theorem sessPut_regs (id : Nat) (x : Sess) (s : State) : (sessPut id x s).regs = s.regs := rfl
@[simp] theorem sessPut_cnt (id : Nat) (x : Sess) (s : State) : (sessPut id x s).cnt = s.cnt := rfl
@[simp] theorem sessPut_cntSh (id : Nat) (x : Sess) (s : State) : (sessPut id x s).cntSh = s.cntSh := rfl
@[simp] theorem sessPut_hif (id : Nat) (x : Sess) (s : State) : (sessPut id x s).hif = s.hif := rfl
@[simp] theorem sessPut_frm (id : Nat) (x : Sess) (s : State) : (sessPut id x s).frm = s.frm := rfl
@[simp] theorem sessPut_ctl (id : Nat) (x : Sess) (s : State) : (sessPut id x s).ctl = s.ctl := rfl
@[simp] theorem sessPut_key (id : Nat) (x : Sess) (s : State) : (sessPut id x s).key = s.key := rfl
@[simp] theorem sessPut_aud (id : Nat) (x : Sess) (s : State) : (sessPut id x s).aud = s.aud := rfl
@[simp] theorem sessPut_egr (id : Nat) (x : Sess) (s : State) : (sessPut id x s).egr = s.egr := rfl
@[simp] theorem sessPut_src (id : Nat) (x : Sess) (s : State) : (sessPut id x s).src = s.src := rfl
@[simp] theorem sessPut_fwd (id : Nat) (x : Sess) (s : State) : (sessPut id x s).fwd = s.fwd := rfl
@[simp] theorem sessPut_flt (id : Nat) (x : Sess) (s : State) : (sessPut id x s).flt = s.flt := rfl
@[simp] theorem sessPut_obs (id : Nat) (x : Sess) (s : State) : (sessPut id x s).obs = s.obs := rfl
@[simp] theorem sessPut_crsl (id : Nat) (x : Sess) (s : State) : (sessPut id x s).crsl = s.crsl := rfl
@[simp] theorem sessPut_ddr (id : Nat) (x : Sess) (s : State) : (sessPut id x s).ddr = s.ddr := rfl
@[simp] theorem sessPut_ldg (id : Nat) (x : Sess) (s : State) : (sessPut id x s).ldg = s.ldg := rfl
@[simp] theorem sessPut_dma (id : Nat) (x : Sess) (s : State) : (sessPut id x s).dma = s.dma := rfl
@[simp] theorem sessPut_pwr (id : Nat) (x : Sess) (s : State) : (sessPut id x s).pwr = s.pwr := rfl
@[simp] theorem sessPut_cas (id : Nat) (x : Sess) (s : State) : (sessPut id x s).cas = s.cas := rfl
@[simp] theorem sessPut_shown (id : Nat) (x : Sess) (s : State) : (sessPut id x s).shown = s.shown := rfl
@[simp] theorem sessPut_out (id : Nat) (x : Sess) (s : State) : (sessPut id x s).out = s.out := rfl
@[simp] theorem sessPut_free (id : Nat) (x : Sess) (s : State) : (sessPut id x s).free = s.free := rfl
@[simp] theorem sessPut_pending (id : Nat) (x : Sess) (s : State) : (sessPut id x s).pending = s.pending := rfl

/-! ### encPut -/

@[simp] theorem encPut_clk (id : Nat) (x : Enc) (s : State) : (encPut id x s).clk = s.clk := rfl
@[simp] theorem encPut_mem (id : Nat) (x : Enc) (s : State) : (encPut id x s).mem = s.mem := rfl
@[simp] theorem encPut_regs (id : Nat) (x : Enc) (s : State) : (encPut id x s).regs = s.regs := rfl
@[simp] theorem encPut_cnt (id : Nat) (x : Enc) (s : State) : (encPut id x s).cnt = s.cnt := rfl
@[simp] theorem encPut_cntSh (id : Nat) (x : Enc) (s : State) : (encPut id x s).cntSh = s.cntSh := rfl
@[simp] theorem encPut_hif (id : Nat) (x : Enc) (s : State) : (encPut id x s).hif = s.hif := rfl
@[simp] theorem encPut_frm (id : Nat) (x : Enc) (s : State) : (encPut id x s).frm = s.frm := rfl
@[simp] theorem encPut_ctl (id : Nat) (x : Enc) (s : State) : (encPut id x s).ctl = s.ctl := rfl
@[simp] theorem encPut_key (id : Nat) (x : Enc) (s : State) : (encPut id x s).key = s.key := rfl
@[simp] theorem encPut_aud (id : Nat) (x : Enc) (s : State) : (encPut id x s).aud = s.aud := rfl
@[simp] theorem encPut_egr (id : Nat) (x : Enc) (s : State) : (encPut id x s).egr = s.egr := rfl
@[simp] theorem encPut_src (id : Nat) (x : Enc) (s : State) : (encPut id x s).src = s.src := rfl
@[simp] theorem encPut_fwd (id : Nat) (x : Enc) (s : State) : (encPut id x s).fwd = s.fwd := rfl
@[simp] theorem encPut_flt (id : Nat) (x : Enc) (s : State) : (encPut id x s).flt = s.flt := rfl
@[simp] theorem encPut_obs (id : Nat) (x : Enc) (s : State) : (encPut id x s).obs = s.obs := rfl
@[simp] theorem encPut_crsl (id : Nat) (x : Enc) (s : State) : (encPut id x s).crsl = s.crsl := rfl
@[simp] theorem encPut_ddr (id : Nat) (x : Enc) (s : State) : (encPut id x s).ddr = s.ddr := rfl
@[simp] theorem encPut_ldg (id : Nat) (x : Enc) (s : State) : (encPut id x s).ldg = s.ldg := rfl
@[simp] theorem encPut_dma (id : Nat) (x : Enc) (s : State) : (encPut id x s).dma = s.dma := rfl
@[simp] theorem encPut_pwr (id : Nat) (x : Enc) (s : State) : (encPut id x s).pwr = s.pwr := rfl
@[simp] theorem encPut_cas (id : Nat) (x : Enc) (s : State) : (encPut id x s).cas = s.cas := rfl
@[simp] theorem encPut_shown (id : Nat) (x : Enc) (s : State) : (encPut id x s).shown = s.shown := rfl
@[simp] theorem encPut_out (id : Nat) (x : Enc) (s : State) : (encPut id x s).out = s.out := rfl
@[simp] theorem encPut_free (id : Nat) (x : Enc) (s : State) : (encPut id x s).free = s.free := rfl
@[simp] theorem encPut_pending (id : Nat) (x : Enc) (s : State) : (encPut id x s).pending = s.pending := rfl

/-! ### dpPut -/

@[simp] theorem dpPut_clk (d : Dp) (s : State) : (dpPut d s).clk = s.clk := rfl
@[simp] theorem dpPut_mem (d : Dp) (s : State) : (dpPut d s).mem = s.mem := rfl
@[simp] theorem dpPut_regs (d : Dp) (s : State) : (dpPut d s).regs = s.regs := rfl
@[simp] theorem dpPut_cnt (d : Dp) (s : State) : (dpPut d s).cnt = s.cnt := rfl
@[simp] theorem dpPut_cntSh (d : Dp) (s : State) : (dpPut d s).cntSh = s.cntSh := rfl
@[simp] theorem dpPut_hif (d : Dp) (s : State) : (dpPut d s).hif = s.hif := rfl
@[simp] theorem dpPut_frm (d : Dp) (s : State) : (dpPut d s).frm = s.frm := rfl
@[simp] theorem dpPut_ctl (d : Dp) (s : State) : (dpPut d s).ctl = s.ctl := rfl
@[simp] theorem dpPut_key (d : Dp) (s : State) : (dpPut d s).key = s.key := rfl
@[simp] theorem dpPut_aud (d : Dp) (s : State) : (dpPut d s).aud = s.aud := rfl
@[simp] theorem dpPut_egr (d : Dp) (s : State) : (dpPut d s).egr = s.egr := rfl
@[simp] theorem dpPut_src (d : Dp) (s : State) : (dpPut d s).src = s.src := rfl
@[simp] theorem dpPut_fwd (d : Dp) (s : State) : (dpPut d s).fwd = s.fwd := rfl
@[simp] theorem dpPut_flt (d : Dp) (s : State) : (dpPut d s).flt = s.flt := rfl
@[simp] theorem dpPut_obs (d : Dp) (s : State) : (dpPut d s).obs = s.obs := rfl
@[simp] theorem dpPut_crsl (d : Dp) (s : State) : (dpPut d s).crsl = s.crsl := rfl
@[simp] theorem dpPut_ddr (d : Dp) (s : State) : (dpPut d s).ddr = s.ddr := rfl
@[simp] theorem dpPut_ldg (d : Dp) (s : State) : (dpPut d s).ldg = s.ldg := rfl
@[simp] theorem dpPut_dma (d : Dp) (s : State) : (dpPut d s).dma = s.dma := rfl
@[simp] theorem dpPut_pwr (d : Dp) (s : State) : (dpPut d s).pwr = s.pwr := rfl
@[simp] theorem dpPut_cas (d : Dp) (s : State) : (dpPut d s).cas = s.cas := rfl
@[simp] theorem dpPut_shown (d : Dp) (s : State) : (dpPut d s).shown = s.shown := rfl
@[simp] theorem dpPut_out (d : Dp) (s : State) : (dpPut d s).out = s.out := rfl
@[simp] theorem dpPut_free (d : Dp) (s : State) : (dpPut d s).free = s.free := rfl
@[simp] theorem dpPut_pending (d : Dp) (s : State) : (dpPut d s).pending = s.pending := rfl

/-! ### tdmPortPut -/

@[simp] theorem tdmPortPut_clk (p : Nat) (t : TdmPort) (s : State) : (tdmPortPut p t s).clk = s.clk := rfl
@[simp] theorem tdmPortPut_mem (p : Nat) (t : TdmPort) (s : State) : (tdmPortPut p t s).mem = s.mem := rfl
@[simp] theorem tdmPortPut_regs (p : Nat) (t : TdmPort) (s : State) : (tdmPortPut p t s).regs = s.regs := rfl
@[simp] theorem tdmPortPut_cnt (p : Nat) (t : TdmPort) (s : State) : (tdmPortPut p t s).cnt = s.cnt := rfl
@[simp] theorem tdmPortPut_cntSh (p : Nat) (t : TdmPort) (s : State) : (tdmPortPut p t s).cntSh = s.cntSh := rfl
@[simp] theorem tdmPortPut_hif (p : Nat) (t : TdmPort) (s : State) : (tdmPortPut p t s).hif = s.hif := rfl
@[simp] theorem tdmPortPut_frm (p : Nat) (t : TdmPort) (s : State) : (tdmPortPut p t s).frm = s.frm := rfl
@[simp] theorem tdmPortPut_ctl (p : Nat) (t : TdmPort) (s : State) : (tdmPortPut p t s).ctl = s.ctl := rfl
@[simp] theorem tdmPortPut_key (p : Nat) (t : TdmPort) (s : State) : (tdmPortPut p t s).key = s.key := rfl
@[simp] theorem tdmPortPut_aud (p : Nat) (t : TdmPort) (s : State) : (tdmPortPut p t s).aud = s.aud := rfl
@[simp] theorem tdmPortPut_egr (p : Nat) (t : TdmPort) (s : State) : (tdmPortPut p t s).egr = s.egr := rfl
@[simp] theorem tdmPortPut_fwd (p : Nat) (t : TdmPort) (s : State) : (tdmPortPut p t s).fwd = s.fwd := rfl
@[simp] theorem tdmPortPut_vid (p : Nat) (t : TdmPort) (s : State) : (tdmPortPut p t s).vid = s.vid := rfl
@[simp] theorem tdmPortPut_flt (p : Nat) (t : TdmPort) (s : State) : (tdmPortPut p t s).flt = s.flt := rfl
@[simp] theorem tdmPortPut_obs (p : Nat) (t : TdmPort) (s : State) : (tdmPortPut p t s).obs = s.obs := rfl
@[simp] theorem tdmPortPut_crsl (p : Nat) (t : TdmPort) (s : State) : (tdmPortPut p t s).crsl = s.crsl := rfl
@[simp] theorem tdmPortPut_ddr (p : Nat) (t : TdmPort) (s : State) : (tdmPortPut p t s).ddr = s.ddr := rfl
@[simp] theorem tdmPortPut_ldg (p : Nat) (t : TdmPort) (s : State) : (tdmPortPut p t s).ldg = s.ldg := rfl
@[simp] theorem tdmPortPut_dma (p : Nat) (t : TdmPort) (s : State) : (tdmPortPut p t s).dma = s.dma := rfl
@[simp] theorem tdmPortPut_pwr (p : Nat) (t : TdmPort) (s : State) : (tdmPortPut p t s).pwr = s.pwr := rfl
@[simp] theorem tdmPortPut_cas (p : Nat) (t : TdmPort) (s : State) : (tdmPortPut p t s).cas = s.cas := rfl
@[simp] theorem tdmPortPut_shown (p : Nat) (t : TdmPort) (s : State) : (tdmPortPut p t s).shown = s.shown := rfl
@[simp] theorem tdmPortPut_out (p : Nat) (t : TdmPort) (s : State) : (tdmPortPut p t s).out = s.out := rfl
@[simp] theorem tdmPortPut_free (p : Nat) (t : TdmPort) (s : State) : (tdmPortPut p t s).free = s.free := rfl
@[simp] theorem tdmPortPut_pending (p : Nat) (t : TdmPort) (s : State) : (tdmPortPut p t s).pending = s.pending := rfl

/-! ### capPut -/

@[simp] theorem capPut_clk (fn : Fn) (x : Cap) (s : State) : (capPut fn x s).clk = s.clk := rfl
@[simp] theorem capPut_mem (fn : Fn) (x : Cap) (s : State) : (capPut fn x s).mem = s.mem := rfl
@[simp] theorem capPut_regs (fn : Fn) (x : Cap) (s : State) : (capPut fn x s).regs = s.regs := rfl
@[simp] theorem capPut_cnt (fn : Fn) (x : Cap) (s : State) : (capPut fn x s).cnt = s.cnt := rfl
@[simp] theorem capPut_cntSh (fn : Fn) (x : Cap) (s : State) : (capPut fn x s).cntSh = s.cntSh := rfl
@[simp] theorem capPut_hif (fn : Fn) (x : Cap) (s : State) : (capPut fn x s).hif = s.hif := rfl
@[simp] theorem capPut_frm (fn : Fn) (x : Cap) (s : State) : (capPut fn x s).frm = s.frm := rfl
@[simp] theorem capPut_ctl (fn : Fn) (x : Cap) (s : State) : (capPut fn x s).ctl = s.ctl := rfl
@[simp] theorem capPut_key (fn : Fn) (x : Cap) (s : State) : (capPut fn x s).key = s.key := rfl
@[simp] theorem capPut_aud (fn : Fn) (x : Cap) (s : State) : (capPut fn x s).aud = s.aud := rfl
@[simp] theorem capPut_egr (fn : Fn) (x : Cap) (s : State) : (capPut fn x s).egr = s.egr := rfl
@[simp] theorem capPut_src (fn : Fn) (x : Cap) (s : State) : (capPut fn x s).src = s.src := rfl
@[simp] theorem capPut_fwd (fn : Fn) (x : Cap) (s : State) : (capPut fn x s).fwd = s.fwd := rfl
@[simp] theorem capPut_vid (fn : Fn) (x : Cap) (s : State) : (capPut fn x s).vid = s.vid := rfl
@[simp] theorem capPut_flt (fn : Fn) (x : Cap) (s : State) : (capPut fn x s).flt = s.flt := rfl
@[simp] theorem capPut_crsl (fn : Fn) (x : Cap) (s : State) : (capPut fn x s).crsl = s.crsl := rfl
@[simp] theorem capPut_ddr (fn : Fn) (x : Cap) (s : State) : (capPut fn x s).ddr = s.ddr := rfl
@[simp] theorem capPut_ldg (fn : Fn) (x : Cap) (s : State) : (capPut fn x s).ldg = s.ldg := rfl
@[simp] theorem capPut_dma (fn : Fn) (x : Cap) (s : State) : (capPut fn x s).dma = s.dma := rfl
@[simp] theorem capPut_pwr (fn : Fn) (x : Cap) (s : State) : (capPut fn x s).pwr = s.pwr := rfl
@[simp] theorem capPut_cas (fn : Fn) (x : Cap) (s : State) : (capPut fn x s).cas = s.cas := rfl
@[simp] theorem capPut_shown (fn : Fn) (x : Cap) (s : State) : (capPut fn x s).shown = s.shown := rfl
@[simp] theorem capPut_out (fn : Fn) (x : Cap) (s : State) : (capPut fn x s).out = s.out := rfl
@[simp] theorem capPut_free (fn : Fn) (x : Cap) (s : State) : (capPut fn x s).free = s.free := rfl
@[simp] theorem capPut_pending (fn : Fn) (x : Cap) (s : State) : (capPut fn x s).pending = s.pending := rfl

/-! ### telPut -/

@[simp] theorem telPut_clk (fn : Fn) (t : Tel) (s : State) : (telPut fn t s).clk = s.clk := rfl
@[simp] theorem telPut_mem (fn : Fn) (t : Tel) (s : State) : (telPut fn t s).mem = s.mem := rfl
@[simp] theorem telPut_regs (fn : Fn) (t : Tel) (s : State) : (telPut fn t s).regs = s.regs := rfl
@[simp] theorem telPut_cnt (fn : Fn) (t : Tel) (s : State) : (telPut fn t s).cnt = s.cnt := rfl
@[simp] theorem telPut_cntSh (fn : Fn) (t : Tel) (s : State) : (telPut fn t s).cntSh = s.cntSh := rfl
@[simp] theorem telPut_hif (fn : Fn) (t : Tel) (s : State) : (telPut fn t s).hif = s.hif := rfl
@[simp] theorem telPut_frm (fn : Fn) (t : Tel) (s : State) : (telPut fn t s).frm = s.frm := rfl
@[simp] theorem telPut_ctl (fn : Fn) (t : Tel) (s : State) : (telPut fn t s).ctl = s.ctl := rfl
@[simp] theorem telPut_key (fn : Fn) (t : Tel) (s : State) : (telPut fn t s).key = s.key := rfl
@[simp] theorem telPut_aud (fn : Fn) (t : Tel) (s : State) : (telPut fn t s).aud = s.aud := rfl
@[simp] theorem telPut_egr (fn : Fn) (t : Tel) (s : State) : (telPut fn t s).egr = s.egr := rfl
@[simp] theorem telPut_src (fn : Fn) (t : Tel) (s : State) : (telPut fn t s).src = s.src := rfl
@[simp] theorem telPut_fwd (fn : Fn) (t : Tel) (s : State) : (telPut fn t s).fwd = s.fwd := rfl
@[simp] theorem telPut_vid (fn : Fn) (t : Tel) (s : State) : (telPut fn t s).vid = s.vid := rfl
@[simp] theorem telPut_flt (fn : Fn) (t : Tel) (s : State) : (telPut fn t s).flt = s.flt := rfl
@[simp] theorem telPut_crsl (fn : Fn) (t : Tel) (s : State) : (telPut fn t s).crsl = s.crsl := rfl
@[simp] theorem telPut_ddr (fn : Fn) (t : Tel) (s : State) : (telPut fn t s).ddr = s.ddr := rfl
@[simp] theorem telPut_ldg (fn : Fn) (t : Tel) (s : State) : (telPut fn t s).ldg = s.ldg := rfl
@[simp] theorem telPut_dma (fn : Fn) (t : Tel) (s : State) : (telPut fn t s).dma = s.dma := rfl
@[simp] theorem telPut_pwr (fn : Fn) (t : Tel) (s : State) : (telPut fn t s).pwr = s.pwr := rfl
@[simp] theorem telPut_cas (fn : Fn) (t : Tel) (s : State) : (telPut fn t s).cas = s.cas := rfl
@[simp] theorem telPut_shown (fn : Fn) (t : Tel) (s : State) : (telPut fn t s).shown = s.shown := rfl
@[simp] theorem telPut_out (fn : Fn) (t : Tel) (s : State) : (telPut fn t s).out = s.out := rfl
@[simp] theorem telPut_free (fn : Fn) (t : Tel) (s : State) : (telPut fn t s).free = s.free := rfl
@[simp] theorem telPut_pending (fn : Fn) (t : Tel) (s : State) : (telPut fn t s).pending = s.pending := rfl

/-! ### casPeerPut -/

@[simp] theorem casPeerPut_clk (m : Nat) (p : CasPeer) (s : State) : (casPeerPut m p s).clk = s.clk := rfl
@[simp] theorem casPeerPut_mem (m : Nat) (p : CasPeer) (s : State) : (casPeerPut m p s).mem = s.mem := rfl
@[simp] theorem casPeerPut_regs (m : Nat) (p : CasPeer) (s : State) : (casPeerPut m p s).regs = s.regs := rfl
@[simp] theorem casPeerPut_cnt (m : Nat) (p : CasPeer) (s : State) : (casPeerPut m p s).cnt = s.cnt := rfl
@[simp] theorem casPeerPut_cntSh (m : Nat) (p : CasPeer) (s : State) : (casPeerPut m p s).cntSh = s.cntSh := rfl
@[simp] theorem casPeerPut_hif (m : Nat) (p : CasPeer) (s : State) : (casPeerPut m p s).hif = s.hif := rfl
@[simp] theorem casPeerPut_frm (m : Nat) (p : CasPeer) (s : State) : (casPeerPut m p s).frm = s.frm := rfl
@[simp] theorem casPeerPut_ctl (m : Nat) (p : CasPeer) (s : State) : (casPeerPut m p s).ctl = s.ctl := rfl
@[simp] theorem casPeerPut_key (m : Nat) (p : CasPeer) (s : State) : (casPeerPut m p s).key = s.key := rfl
@[simp] theorem casPeerPut_aud (m : Nat) (p : CasPeer) (s : State) : (casPeerPut m p s).aud = s.aud := rfl
@[simp] theorem casPeerPut_egr (m : Nat) (p : CasPeer) (s : State) : (casPeerPut m p s).egr = s.egr := rfl
@[simp] theorem casPeerPut_src (m : Nat) (p : CasPeer) (s : State) : (casPeerPut m p s).src = s.src := rfl
@[simp] theorem casPeerPut_fwd (m : Nat) (p : CasPeer) (s : State) : (casPeerPut m p s).fwd = s.fwd := rfl
@[simp] theorem casPeerPut_vid (m : Nat) (p : CasPeer) (s : State) : (casPeerPut m p s).vid = s.vid := rfl
@[simp] theorem casPeerPut_flt (m : Nat) (p : CasPeer) (s : State) : (casPeerPut m p s).flt = s.flt := rfl
@[simp] theorem casPeerPut_obs (m : Nat) (p : CasPeer) (s : State) : (casPeerPut m p s).obs = s.obs := rfl
@[simp] theorem casPeerPut_crsl (m : Nat) (p : CasPeer) (s : State) : (casPeerPut m p s).crsl = s.crsl := rfl
@[simp] theorem casPeerPut_ddr (m : Nat) (p : CasPeer) (s : State) : (casPeerPut m p s).ddr = s.ddr := rfl
@[simp] theorem casPeerPut_ldg (m : Nat) (p : CasPeer) (s : State) : (casPeerPut m p s).ldg = s.ldg := rfl
@[simp] theorem casPeerPut_dma (m : Nat) (p : CasPeer) (s : State) : (casPeerPut m p s).dma = s.dma := rfl
@[simp] theorem casPeerPut_pwr (m : Nat) (p : CasPeer) (s : State) : (casPeerPut m p s).pwr = s.pwr := rfl
@[simp] theorem casPeerPut_shown (m : Nat) (p : CasPeer) (s : State) : (casPeerPut m p s).shown = s.shown := rfl
@[simp] theorem casPeerPut_out (m : Nat) (p : CasPeer) (s : State) : (casPeerPut m p s).out = s.out := rfl
@[simp] theorem casPeerPut_free (m : Nat) (p : CasPeer) (s : State) : (casPeerPut m p s).free = s.free := rfl
@[simp] theorem casPeerPut_pending (m : Nat) (p : CasPeer) (s : State) : (casPeerPut m p s).pending = s.pending := rfl

/-! ### testPut -/

@[simp] theorem testPut_clk (t : Option SelfTest) (s : State) : (testPut t s).clk = s.clk := rfl
@[simp] theorem testPut_mem (t : Option SelfTest) (s : State) : (testPut t s).mem = s.mem := rfl
@[simp] theorem testPut_regs (t : Option SelfTest) (s : State) : (testPut t s).regs = s.regs := rfl
@[simp] theorem testPut_cnt (t : Option SelfTest) (s : State) : (testPut t s).cnt = s.cnt := rfl
@[simp] theorem testPut_cntSh (t : Option SelfTest) (s : State) : (testPut t s).cntSh = s.cntSh := rfl
@[simp] theorem testPut_hif (t : Option SelfTest) (s : State) : (testPut t s).hif = s.hif := rfl
@[simp] theorem testPut_frm (t : Option SelfTest) (s : State) : (testPut t s).frm = s.frm := rfl
@[simp] theorem testPut_ctl (t : Option SelfTest) (s : State) : (testPut t s).ctl = s.ctl := rfl
@[simp] theorem testPut_key (t : Option SelfTest) (s : State) : (testPut t s).key = s.key := rfl
@[simp] theorem testPut_aud (t : Option SelfTest) (s : State) : (testPut t s).aud = s.aud := rfl
@[simp] theorem testPut_egr (t : Option SelfTest) (s : State) : (testPut t s).egr = s.egr := rfl
@[simp] theorem testPut_src (t : Option SelfTest) (s : State) : (testPut t s).src = s.src := rfl
@[simp] theorem testPut_fwd (t : Option SelfTest) (s : State) : (testPut t s).fwd = s.fwd := rfl
@[simp] theorem testPut_vid (t : Option SelfTest) (s : State) : (testPut t s).vid = s.vid := rfl
@[simp] theorem testPut_obs (t : Option SelfTest) (s : State) : (testPut t s).obs = s.obs := rfl
@[simp] theorem testPut_crsl (t : Option SelfTest) (s : State) : (testPut t s).crsl = s.crsl := rfl
@[simp] theorem testPut_ddr (t : Option SelfTest) (s : State) : (testPut t s).ddr = s.ddr := rfl
@[simp] theorem testPut_ldg (t : Option SelfTest) (s : State) : (testPut t s).ldg = s.ldg := rfl
@[simp] theorem testPut_dma (t : Option SelfTest) (s : State) : (testPut t s).dma = s.dma := rfl
@[simp] theorem testPut_pwr (t : Option SelfTest) (s : State) : (testPut t s).pwr = s.pwr := rfl
@[simp] theorem testPut_cas (t : Option SelfTest) (s : State) : (testPut t s).cas = s.cas := rfl
@[simp] theorem testPut_shown (t : Option SelfTest) (s : State) : (testPut t s).shown = s.shown := rfl
@[simp] theorem testPut_out (t : Option SelfTest) (s : State) : (testPut t s).out = s.out := rfl
@[simp] theorem testPut_free (t : Option SelfTest) (s : State) : (testPut t s).free = s.free := rfl
@[simp] theorem testPut_pending (t : Option SelfTest) (s : State) : (testPut t s).pending = s.pending := rfl

/-! ### evqPut -/

@[simp] theorem evqPut_clk (k : Nat) (q : EvQueue) (s : State) : (evqPut k q s).clk = s.clk := rfl
@[simp] theorem evqPut_mem (k : Nat) (q : EvQueue) (s : State) : (evqPut k q s).mem = s.mem := rfl
@[simp] theorem evqPut_cnt (k : Nat) (q : EvQueue) (s : State) : (evqPut k q s).cnt = s.cnt := rfl
@[simp] theorem evqPut_cntSh (k : Nat) (q : EvQueue) (s : State) : (evqPut k q s).cntSh = s.cntSh := rfl
@[simp] theorem evqPut_frm (k : Nat) (q : EvQueue) (s : State) : (evqPut k q s).frm = s.frm := rfl
@[simp] theorem evqPut_ctl (k : Nat) (q : EvQueue) (s : State) : (evqPut k q s).ctl = s.ctl := rfl
@[simp] theorem evqPut_key (k : Nat) (q : EvQueue) (s : State) : (evqPut k q s).key = s.key := rfl
@[simp] theorem evqPut_aud (k : Nat) (q : EvQueue) (s : State) : (evqPut k q s).aud = s.aud := rfl
@[simp] theorem evqPut_egr (k : Nat) (q : EvQueue) (s : State) : (evqPut k q s).egr = s.egr := rfl
@[simp] theorem evqPut_src (k : Nat) (q : EvQueue) (s : State) : (evqPut k q s).src = s.src := rfl
@[simp] theorem evqPut_fwd (k : Nat) (q : EvQueue) (s : State) : (evqPut k q s).fwd = s.fwd := rfl
@[simp] theorem evqPut_vid (k : Nat) (q : EvQueue) (s : State) : (evqPut k q s).vid = s.vid := rfl
@[simp] theorem evqPut_flt (k : Nat) (q : EvQueue) (s : State) : (evqPut k q s).flt = s.flt := rfl
@[simp] theorem evqPut_obs (k : Nat) (q : EvQueue) (s : State) : (evqPut k q s).obs = s.obs := rfl
@[simp] theorem evqPut_crsl (k : Nat) (q : EvQueue) (s : State) : (evqPut k q s).crsl = s.crsl := rfl
@[simp] theorem evqPut_ddr (k : Nat) (q : EvQueue) (s : State) : (evqPut k q s).ddr = s.ddr := rfl
@[simp] theorem evqPut_ldg (k : Nat) (q : EvQueue) (s : State) : (evqPut k q s).ldg = s.ldg := rfl
@[simp] theorem evqPut_dma (k : Nat) (q : EvQueue) (s : State) : (evqPut k q s).dma = s.dma := rfl
@[simp] theorem evqPut_pwr (k : Nat) (q : EvQueue) (s : State) : (evqPut k q s).pwr = s.pwr := rfl
@[simp] theorem evqPut_cas (k : Nat) (q : EvQueue) (s : State) : (evqPut k q s).cas = s.cas := rfl
@[simp] theorem evqPut_shown (k : Nat) (q : EvQueue) (s : State) : (evqPut k q s).shown = s.shown := rfl
@[simp] theorem evqPut_out (k : Nat) (q : EvQueue) (s : State) : (evqPut k q s).out = s.out := rfl
@[simp] theorem evqPut_free (k : Nat) (q : EvQueue) (s : State) : (evqPut k q s).free = s.free := rfl
@[simp] theorem evqPut_pending (k : Nat) (q : EvQueue) (s : State) : (evqPut k q s).pending = s.pending := rfl

/-! ### streamPut -/

@[simp] theorem streamPut_clk (id : Nat) (st : Stream) (s : State) : (streamPut id st s).clk = s.clk := rfl
@[simp] theorem streamPut_mem (id : Nat) (st : Stream) (s : State) : (streamPut id st s).mem = s.mem := rfl
@[simp] theorem streamPut_regs (id : Nat) (st : Stream) (s : State) : (streamPut id st s).regs = s.regs := rfl
@[simp] theorem streamPut_cnt (id : Nat) (st : Stream) (s : State) : (streamPut id st s).cnt = s.cnt := rfl
@[simp] theorem streamPut_cntSh (id : Nat) (st : Stream) (s : State) : (streamPut id st s).cntSh = s.cntSh := rfl
@[simp] theorem streamPut_hif (id : Nat) (st : Stream) (s : State) : (streamPut id st s).hif = s.hif := rfl
@[simp] theorem streamPut_frm (id : Nat) (st : Stream) (s : State) : (streamPut id st s).frm = s.frm := rfl
@[simp] theorem streamPut_key (id : Nat) (st : Stream) (s : State) : (streamPut id st s).key = s.key := rfl
@[simp] theorem streamPut_aud (id : Nat) (st : Stream) (s : State) : (streamPut id st s).aud = s.aud := rfl
@[simp] theorem streamPut_egr (id : Nat) (st : Stream) (s : State) : (streamPut id st s).egr = s.egr := rfl
@[simp] theorem streamPut_src (id : Nat) (st : Stream) (s : State) : (streamPut id st s).src = s.src := rfl
@[simp] theorem streamPut_fwd (id : Nat) (st : Stream) (s : State) : (streamPut id st s).fwd = s.fwd := rfl
@[simp] theorem streamPut_vid (id : Nat) (st : Stream) (s : State) : (streamPut id st s).vid = s.vid := rfl
@[simp] theorem streamPut_flt (id : Nat) (st : Stream) (s : State) : (streamPut id st s).flt = s.flt := rfl
@[simp] theorem streamPut_obs (id : Nat) (st : Stream) (s : State) : (streamPut id st s).obs = s.obs := rfl
@[simp] theorem streamPut_crsl (id : Nat) (st : Stream) (s : State) : (streamPut id st s).crsl = s.crsl := rfl
@[simp] theorem streamPut_ddr (id : Nat) (st : Stream) (s : State) : (streamPut id st s).ddr = s.ddr := rfl
@[simp] theorem streamPut_ldg (id : Nat) (st : Stream) (s : State) : (streamPut id st s).ldg = s.ldg := rfl
@[simp] theorem streamPut_dma (id : Nat) (st : Stream) (s : State) : (streamPut id st s).dma = s.dma := rfl
@[simp] theorem streamPut_pwr (id : Nat) (st : Stream) (s : State) : (streamPut id st s).pwr = s.pwr := rfl
@[simp] theorem streamPut_cas (id : Nat) (st : Stream) (s : State) : (streamPut id st s).cas = s.cas := rfl
@[simp] theorem streamPut_shown (id : Nat) (st : Stream) (s : State) : (streamPut id st s).shown = s.shown := rfl
@[simp] theorem streamPut_out (id : Nat) (st : Stream) (s : State) : (streamPut id st s).out = s.out := rfl
@[simp] theorem streamPut_free (id : Nat) (st : Stream) (s : State) : (streamPut id st s).free = s.free := rfl
@[simp] theorem streamPut_pending (id : Nat) (st : Stream) (s : State) : (streamPut id st s).pending = s.pending := rfl

end Sys2Proof.Machine
end

