-- ==== Sys2Proof/Tests/Slice0.lean ====
section
/-! SUPPORT. Small tests: well-formedness refuses each ill-formed operand; results taken from the spec's examples and tables; for every
statement that has hypotheses, a state and operands that meet them. -/
namespace Sys2Proof.Tests
open Sys2Proof Sys2Proof.Machine Sys2Proof.Claims

set_option Elab.async false

/-! ## Helpers -/

/-- A body of `n` bytes: zeros, but for the fields given as offset, size and value. -/
def mk (n : Nat) (l : List (Nat × Nat × Nat)) : List Byte :=
  l.foldl (fun b f => b.take f.1 ++ leBytes f.2.1 f.2.2 ++ b.drop (f.1 + f.2.1)) (List.replicate n 0)

/-- A command entry: its arguments as fields at entry offsets, the first at 0x18. -/
def cmd (fn : Fn) (target : Nat) (l : List (Nat × Nat × Nat)) : Cmd := ⟨fn, 0, 7, 0, target, 0, mk 40 (l.map fun f => (f.1 - 0x18, f.2))⟩

/-- Register fields set. -/
def regs (l : List (Fld × Nat)) (s : State) : State := l.foldl (fun s p => fset p.1 p.2 s) s

/-- A function that a Ring 1 serves, and a PF. -/
def vf1 : Fn := .vf 1

/-- Ring 1's definition (R42): 16 legs, Acts and key slots and 64 stream contexts from 0, canvases 0 to 15, a share of every budget of Bay 0. -/
def ring1 : List Byte := mk 0xF0 ([(1, 1, 1), (4, 2, 0), (6, 2, 16), (8, 2, 0), (10, 2, 16), (12, 4, 0), (16, 4, 64), (20, 4, 0), (24, 4, 16),
  (0x1C, 2, 0xFFFF)] ++ (List.range 7).map fun k => (0x40 + 4 * k, 4, 1000))

/-- Two route templates (R47): 0 mixes, 1 forwards. -/
def routes : List Byte := mk 64 [(0, 2, 0), (2, 1, 0), (3, 1, 4), (4, 4, 96), (32, 2, 1), (34, 1, 1), (42, 1, 1)]

/-- A memory plan (R46): channels 0 and 1, and a region of each kind for the device, four for Ring 1. -/
def memRow (base owner kind : Nat) : List Byte := leBytes 8 (2 ^ 28 * base) ++ leBytes 8 (2 ^ 28) ++ leBytes 1 owner ++ leBytes 1 kind ++ List.replicate 14 0
def memPlan : List Byte := leBytes 2 3 ++ leBytes 2 14 ++ leBytes 1 16 ++ leBytes 1 16 ++ List.replicate 26 0 ++
  ((List.range 10).map fun k => memRow k 0xF1 k).flatten ++ ((List.range 4).map fun k => memRow (10 + k) 1 (2 + k)).flatten

/-- A Bay allotment (R40): every Bay in service with 16 tiles and all its units, every bucket steered to Bay 0. -/
def bays : List Byte := mk 128 (((List.range 4).map fun b =>
  [(32 * b, 1, b), (32 * b + 4, 4, 0xFFFF), (32 * b + 8, 4, 0x10000), (32 * b + 12, 8, 0x1010101010101010), (32 * b + 20, 4, 15)]).flatten)

/-- A function's command rings enabled: 64 entries each. -/
def ringsOn (fn : Fn) (s : State) : State :=
  regs [(R.CMD_CTRL_enable fn, 1), (R.CMD_STATUS_running fn, 1), (R.CMD_RING_SIZE_sq_log2 fn, 6), (R.CMD_RING_SIZE_cq_log2 fn, 6),
    (R.CMD_CQ_BASE_base fn, 16), (R.CMD_SQ_BASE_base fn, 8)] s

/-- The part runs, at block 1000, an image with Ring 1 defined; the PF and Ring 1's VF may give commands. -/
def framed : State := { ringsOn vf1 (ringsOn .pf (regs [(R.FRM_STATUS_state, 2), (R.PWR_STATUS_phase, 9)] State.reset)) with
  clk := ⟨1000, 0, 0, 0, 0, true⟩
  frm := { State.reset.frm with timbers := [⟨tyBay, 0, 0xFF, 0, bays⟩, ⟨tyRing, 1, 1, 0, ring1⟩, ⟨tyRoute, 1, 1, 0, routes⟩, ⟨tyMem, 0, 0xFF, 0, memPlan⟩] } }

theorem framed_ring1 : ringDefined 1 framed = true ∧ owns vf1 1 3 framed = true ∧ place 1 (chargeOf 0 100) framed = some 0 := by decide +kernel

/-! ## Tumbler cores (spec/08_tumbler_dsp.md) -/

/-- A kernel image whose pointer 0 may be read and written, with a debug handler at instruction 7. -/
def image : List Byte := mk 72 [(6, 2, 1), (0x12, 2, 7), (0x28, 1, 3), (0x2C, 4, 4096)]
/-- A descriptor of an item of leg 3 of Ring 1, in Bay 0, its pointers at the start of the DRAM. -/
def desc : ItemDesc := ⟨1, false, 3, 1000, 2, 1, 0, 0, [0, 0, 0, 0], 0⟩
/-- An item in a state. -/
def item (st : ItemSt) : Item := ⟨desc, false, false, none, false, none, st, none, some 0, 1, 100, 0, image, [], 0⟩
/-- Core 0 in state `st` runs item 5, with `k` as its registers. -/
def onCore (st : Nat) (k : Core) (s : State) : State :=
  corePut 0 { k with item := some 5 } (itemPut 5 (item (.running 0)) (fset (R.TMB_CORE_STATUS_state 0) st s))
/-- A core whose X memory holds a transfer descriptor at 0: 16 bytes at offset 0 of pointer 0, to or from X 64. -/
def kx : Core := ((Core.init.wordSet false 4 (BitVec.ofNat 32 (64 + 16 * 65536))))
def run0 : State := onCore csRun kx framed

theorem ready_run0 : Ready 0 (item (.running 0)) run0 := ⟨rfl, by decide, fun h => absurd h (by decide)⟩

/-- A core whose program memory holds the word `w` at its program counter. -/
def coded (w : Nat) : Core := { kx with code := [leBytes 4 w] }

theorem coreGet_onCore (st : Nat) (k : Core) (s : State) : coreGet 0 (onCore st k s) = { k with item := some 5 } := tget_tset_same _ _ _ _

/-- Every statement about an instruction: its word stands at the program counter of a core that is ready for it. -/
theorem witness_Holds : ∀ i w, tmbEncode i = some w → w < 2 ^ 32 → ∃ it s, Ready 0 it s ∧ Holds 0 i s := by
  intro i w h hw
  refine ⟨item (.running 0), onCore csRun (coded w) framed, ⟨rfl, ?_, fun h => absurd (show coreSt 0 run0 = csDebug from h) (by decide)⟩, fun v e => ?_⟩
  · rw [coreGet_onCore]
    exact (by decide : (0 : Nat) < 100)
  · obtain rfl : w = v := Option.some.inj (h.symm.trans e)
    have hl : le (leBytes 4 w) 0 4 = w := by simp [le, leBytes, slice, leNat]; omega
    rw [coreGet_onCore]
    simp [coded, Core.holds, Core.fetch, kx, Core.wordSet, Core.init, hl, show (leBytes 4 w).length = 4 from rfl]

theorem witness_Holds_forms : (tmbEncode (.tmbAdd 0 true 31 0 31)).isSome = true ∧ (tmbEncode (.tmbReti 0)).isSome = true ∧
    (tmbEncode (.tmbMac 0 1 true 31 31 31 3 true 31 3 true)).isSome = true := by decide +kernel

/-- TumblerArithmetic, TumblerLogicResults, TumblerMultiply: at every operand; the accumulator and shift at their bounds. -/
theorem witness_ready : ∃ c i s, Ready c i s ∧ (1 : Nat) ≤ 1 ∧ (39 : Nat) ≤ 39 := ⟨_, _, _, ready_run0, by decide, by decide⟩

theorem witness_TumblerMemory : ∃ c i s, Ready c i s ∧ ∀ y post, ∀ a ∈ [0, 0x1FFC],
    let k := atIssue c s
    (accessFault y (memAddr post 0 a k) 4 k = none ∧ loadStalls y (memAddr post 0 a k) 4 k = false ∧
      storeStalls y (memAddr post 0 a k) 4 k = false) ∧
    (accessFault y (memAddr post 0 (a + 2) k) 2 k = none ∧ loadStalls y (memAddr post 0 (a + 2) k) 2 k = false ∧
      storeStalls y (memAddr post 0 (a + 2) k) 2 k = false) :=
  ⟨_, _, _, ready_run0, by decide +kernel⟩

theorem witness_TumblerMac : ∃ c i s, Ready c i s ∧ SlotsOk 0 0 0 0 (atIssue c s) ∧ SlotsOk 3 1 4 1 (atIssue c s) :=
  ⟨_, _, _, ready_run0, by unfold SlotsOk; decide +kernel, by unfold SlotsOk; decide +kernel⟩

theorem witness_TumblerBranches : ∃ c i s, Ready c i s ∧ (coreGet c s).slot = none := ⟨_, _, _, ready_run0, rfl⟩

theorem witness_TumblerControl_registers : ∃ c i s, Ready c i s ∧
    (∀ r ∈ [0x00, 0x1F, 0x20, 0x21, 0x22, 0x23, 0x24, 0x2A, 0x08, 0x0F], cregOk r = true) ∧ (atIssue c s).hm = false ∧ (coreGet c s).hm = false :=
  ⟨_, _, _, ready_run0, by decide +kernel, rfl, rfl⟩

theorem witness_TumblerControl_xrd : ∃ c i s t, Ready c i s ∧ let k := atIssue c s
    loadStalls false (k.c 0) 16 k = false ∧ xferAt true 0 i k = .ok t ∧ k.xfers.length < 8 ∧ storeStalls t.ymem t.laddr t.len k = false :=
  ⟨_, _, _, _, ready_run0, rfl, rfl, by decide, rfl⟩

theorem witness_TumblerControl_xwr : ∃ c i s t, Ready c i s ∧ let k := atIssue c s
    loadStalls false (k.c 0) 16 k = false ∧ xferAt false 0 i k = .ok t ∧ k.xfers.length < 8 ∧ loadStalls t.ymem t.laddr t.len k = false :=
  ⟨_, _, _, _, ready_run0, rfl, rfl, by decide, rfl⟩

theorem witness_TumblerControl_waitx : ∃ c i s, Ready c i s ∧ (atIssue c s).xfers.length ≤ 0 ∧ coreSt c s = csRun :=
  ⟨_, _, _, ready_run0, by decide, rfl⟩

/-- A core in a debug handler. -/
def handler : State := onCore csDebug (kx.crSet 0x22 2) framed

theorem witness_TumblerControl_reti : ∃ c i s, Ready c i s ∧ (atIssue c s).hm = true :=
  ⟨0, _, handler, ⟨rfl, by decide, fun _ => ⟨rfl, rfl, rfl⟩⟩, rfl⟩

theorem witness_TumblerControl_bkpt : ∃ c i s, Ready c i s ∧ coreSt c s = csDebug ∧ (coreGet c s).slot = none :=
  ⟨0, _, handler, ⟨rfl, by decide, fun _ => ⟨rfl, rfl, rfl⟩⟩, rfl, rfl⟩

theorem witness_TumblerEnd : ∃ c i s h, Ready c i s ∧ (atIssue c s).rd 0 = 0 ∧ (coreGet c s).item = some h ∧ (atIssue c s).item = some h :=
  ⟨_, _, _, 5, ready_run0, rfl, rfl, rfl⟩

/-- The same core with one transfer outstanding: reading or writing DRAM at `a`, or bringing initial data. -/
def xfer (read init : Bool) (a : Nat) : Xfer := ⟨5, read, init, 3, false, 64, 16, a, if read && !init then [] else List.replicate 16 0xAB⟩
def moving (t : Xfer) : State := onCore csRun { kx with xfers := [t] } framed

theorem witness_TransferCompletes : ∀ t ∈ [xfer true false 64, xfer false false 64, xfer true true 0, xfer true false (2 ^ 36), xfer false false (2 ^ 36)],
    ∃ (c n h : Nat) (i : Item), let s := moving t
    (coreGet c s).xfers[n]? = some t ∧ (coreGet c s).item = some h ∧ t.handle = h ∧ itemFind h s = some i ∧ i.st = .running c := by
  intro t h
  refine ⟨0, 0, 5, item (.running 0), ?_⟩
  rcases h with _ | ⟨_, _ | ⟨_, _ | ⟨_, _ | ⟨_, _ | ⟨_, h⟩⟩⟩⟩⟩ <;> first | exact ⟨rfl, rfl, rfl, rfl, rfl⟩ | cases h

theorem witness_TransferCompletes_cases :
    (let t := xfer true false 64; let s := moving t
     trussStray 1 t.truss t.len (corePut 0 { coreGet 0 s with xfers := [] } s) = none ∧ poisoned t.truss t.len (corePut 0 { coreGet 0 s with xfers := [] } s) = false) ∧
    (let t := xfer false false 64; let s := moving t
     trussStray 1 t.truss t.len (corePut 0 { coreGet 0 s with xfers := [] } s) = none) ∧ (xfer true true 0).init = true ∧
    (let t := xfer true false (2 ^ 36); let s := moving t
     (trussStray 1 t.truss t.len (corePut 0 { coreGet 0 s with xfers := [] } s)).isSome = true) := by decide +kernel

theorem witness_TumblerDebug_enable : ∃ c sp s, c < 544 ∧ fon (R.TMB_CORE_CTRL_debug_en c) s = false ∧ coreSt c s ≤ csRun ∧
    coreSpareFor c s = some sp := ⟨0, 16, regs [(R.TMB_CORE_STATUS_state 16, 2), (R.TMB_CL_STATUS_spare 0, 16)] framed, by decide +kernel⟩

theorem witness_TumblerDebug_refused : ∃ c s, c < 544 ∧ fon (R.TMB_CORE_CTRL_debug_en c) s = false ∧ coreSt c s ≤ csRun ∧
    coreSpareFor c s = none := ⟨543, framed, by decide +kernel⟩

theorem witness_TumblerDebug_halt : ∃ c s, coreSt c s = csDebug ∧ ((coreGet c s).item = none ∨ (coreGet c s).slot ≠ none) :=
  ⟨0, fset (R.TMB_CORE_STATUS_state 0) 3 framed, rfl, .inl rfl⟩

theorem witness_TumblerDebug_interrupt : ∃ c h s, coreSt c s = csDebug ∧ (coreGet c s).item = some h ∧ (coreGet c s).slot = none ∧
    breakHit c (coreGet c s) s = true :=
  ⟨0, 5, regs [(R.TMB_DBG_BP_enable 0 1, 1), (R.TMB_DBG_BP_pc 0 1, 9)] (onCore csDebug { kx with pc := 9 } framed), by decide +kernel⟩

theorem witness_TumblerDebug_halted : ∃ c s, coreSt c s = csHalted := ⟨0, fset (R.TMB_CORE_STATUS_state 0) 4 framed, rfl⟩

theorem witness_DebugEntry : ∃ c h i s, (coreGet c s).item = some h ∧ itemFind h s = some i ∧ imgHandler i.image = true :=
  ⟨0, 5, _, handler, rfl, rfl, rfl⟩

theorem witness_TumblerFaults : ∃ c cause h i s, cause < 256 ∧ (coreGet c s).pc < 4096 ∧ (coreGet c s).item = some h ∧ itemFind h s = some i ∧
    i.copyOf = none ∧ c < 544 ∧ 0x10 ≤ cause ∧ cause ≤ 0x13 ∧ coreSt c s ≠ csRetired := ⟨0, 0x10, 5, _, run0, by decide, by decide, rfl, rfl, rfl, by decide⟩


theorem witness_TumblerIllegal_word : ∀ v ∈ [0x3F000000, 0x00000001, (0x02000000 : Nat)], ∃ i s, Ready 0 (item (.running 0)) s ∧ tmbDecode 0 0x6A000000 = some i ∧
    (coreGet 0 s).fetch = some v ∧ v ≠ 0x6A000000 := by
  intro v h
  refine ⟨.tmbBlc 0 0, onCore csRun (coded v) framed, ?_⟩
  rcases h with _ | ⟨_, _ | ⟨_, _ | ⟨_, h⟩⟩⟩ <;>
    first | exact ⟨⟨rfl, by rw [coreGet_onCore]; decide, fun h => absurd (show coreSt 0 run0 = csDebug from h) (by decide)⟩, by decide +kernel, by decide +kernel, by decide⟩ | cases h

/-- A core in the delay slot of a branch. -/
theorem witness_TumblerIllegal_slot : ∃ i s, Ready 0 i s ∧ Holds 0 (.tmbRet 0) s ∧ (coreGet 0 s).slot ≠ none :=
  ⟨_, onCore csRun { kx with slot := some 9 } framed, ⟨rfl, by decide, fun h => absurd h (by decide)⟩, fun _ _ => rfl, by decide⟩

theorem witness_TumblerIllegal_field : ∃ i s, Ready 0 i s ∧ Holds 0 (.tmbMtc 0 0x2B 1) s ∧ cregOk 0x2B = false ∧ Holds 0 (.tmbRda 0 false 1 2 false 40) s ∧
    Holds 0 (.tmbReti 0) s ∧ (atIssue 0 s).hm = false :=
  ⟨_, _, ready_run0, fun _ _ => rfl, by decide, fun _ _ => rfl, fun _ _ => rfl, rfl⟩

/-- R213, R214: words written out from the formats: BLC with displacement 0 (op 0x6A), MAC with two parallel loads, and what is no instruction. -/
theorem test_tumbler_words : tmbDecode 0 0x6A000000 = some (.tmbBlc 0 0) ∧ tmbDecode 0 0xC23981C0 = some (.tmbMac 0 0 false 17 25 16 0 true 24 0 false) ∧
    tmbEncode (.tmbBlc 0 0) = some 0x6A000000 ∧ tmbDecode 0 0x3F000000 = none := by decide +kernel

theorem witness_TumblerEncoding : (tmbEncode (.tmbClra 0 1)).isSome = true ∧ (Instr.tmbClra 0 1).wf = true ∧ Encodable (.tmbClra 0 1) ∧
    (tmbEncode (.tmbRda 0 true 31 1 true 39)).isSome = true ∧ (Instr.tmbRda 0 true 31 1 true 39).wf = true ∧ Encodable (.tmbRda 0 true 31 1 true 39) ∧
    (tmbEncode (.tmbMfc 0 0x2A 31)).isSome = true ∧ (Instr.tmbMfc 0 0x2A 31).wf = true ∧ Encodable (.tmbMfc 0 0x2A 31) := by
  unfold Sys2Proof.Claims.Encodable; decide +kernel
/-! ## Host commands (spec/03_host_commands.md) -/

/-- The state after some commands, each at once at its boundary. -/
def after (s : State) (l : List Instr) : State := l.foldl (fun s i => match exec i s with
  | .next t => configBoundary t.clk.stamp vf1 (configBoundary t.clk.stamp .pf t)
  | _ => s) s

/-- Act 0 mixes for at most 8 legs, Act 1 forwards; leg 0 is admitted to Act 0, legs 1 and 2 to Act 1; stream contexts 0 (ingress audio)
and 1 (egress video) of leg 0. -/
def equipped : State := after framed [
  .actAdmit (cmd vf1 0 [(0x1A, 2, 8)]), .actAdmit (cmd vf1 1 [(0x18, 2, 1), (0x1A, 2, 2)]),
  .legAdmit (cmd vf1 0 [(0x24, 4, 100), (0x28, 4, 100)]), .legAdmit (cmd vf1 1 [(0x18, 2, 1), (0x1B, 1, 1), (0x24, 4, 100), (0x28, 4, 100)]),
  .streamAdmit (cmd vf1 0 [(0x1C, 4, 77), (0x20, 2, 1), (0x23, 1, 8)]), .streamAdmit (cmd vf1 1 [(0x1A, 1, 1), (0x1B, 1, 1), (0x1C, 4, 78)])]

theorem equipped_ok : (tfind equipped.ctl.acts 1).isSome = true ∧ (tfind equipped.ctl.legs 1).isSome = true ∧
    (tfind equipped.ctl.streams 1).isSome = true := by decide +kernel

/-- `Enters`, `MayQueue` and `OwnLop` decided. -/
def entersB (op : Nat) (c : Cmd) (s : State) : Bool := intakeOpen c.fn s && (takeIn op c s).refuse.isNone
def mayQueueB (op : Nat) (check : Cmd → State → Option Rsp) (c : Cmd) (s : State) : Bool :=
  entersB op c s && decide (lopLive c.fn (entered op c s) < 8) && (lopFind c.fn c.tag (entered op c s)).isNone && (check c (entered op c s)).isNone

theorem enters_of {op : Nat} {c : Cmd} {s : State} (h : entersB op c s = true) : Enters op c s := by
  simp only [entersB, Bool.and_eq_true, Option.isNone_iff_eq_none] at h
  exact h

theorem mayQueue_of {op : Nat} {check : Cmd → State → Option Rsp} {c : Cmd} {s : State} (h : mayQueueB op check c s = true) :
    MayQueue op check c s := by
  simp only [mayQueueB, Bool.and_eq_true, decide_eq_true_eq, Option.isNone_iff_eq_none] at h
  exact ⟨enters_of h.1.1.1, h.1.1.2, h.1.2, h.2⟩

theorem witness_PlainQueries : ∀ op ∈ [0x00, 0x01, 0x02], czero (cmd vf1 0 []) 0x18 = true ∧ Enters op (cmd vf1 0 []) framed := by
  unfold Enters
  decide +kernel

/-- Entries refused: a command of the PF, a Ring that no image defines, a slot in use. -/
theorem witness_RefusedEntries : ∃ c c' : Cmd, c.fn = vf1 ∧ bit c.flags 0 = false ∧ intakeOpen c.fn framed = true ∧
    (takeIn 0x52 c framed).refuse = some ⟨10, 0, 0⟩ ∧ ringDefined 1 framed = true ∧ pfOnly 0x52 = true ∧ intakeOpen vf1 State.reset = false ∧
    ringDefined 2 framed = false ∧ bit c'.flags 0 = true ∧
    (tfind (tset framed.hif.slots (slotKey vf1 5) ⟨none, none⟩) (slotKey c'.fn (c'.tag % 64))).isSome = true :=
  ⟨cmd vf1 0 [], { cmd vf1 0 [] with
    flags := 1
    tag := 5 }, by decide +kernel⟩

theorem witness_PlainQueries_pf : Enters 0x02 (cmd .pf 15 []) framed ∧ czero (cmd .pf 15 []) 0x18 = true := by
  unfold Enters
  decide +kernel

/-- Operation 9 of Ring 1's VF in a state. -/
def lop (op : Nat) (c : Cmd) (st : LopSt) : Lop := ⟨vf1, 9, op, c, none, st, decide (st ≠ .queued), false, none, 0, 0⟩

theorem witness_LopCommands : ∀ st ∈ [LopSt.queued, .running, .suspending, .suspended, .cancelling], ∀ op ∈ [0x08, 0x09, 0x0A, 0x0B],
    let c := cmd vf1 9 []
    let l := lop 0x39 (cmd vf1 0 []) st
    let s := lopPut l framed
    st.terminal = false ∧ entersB op c s = true ∧ czero c 0x18 = true ∧ lopFind c.fn c.target (entered op c s) = some l := by decide +kernel

theorem witness_LopMoves : ∃ fn tag l s, lopFind fn tag s = some l ∧ l.fn = fn ∧ l.tag = tag :=
  ⟨vf1, 9, lop 0x39 (cmd vf1 0 []) .running, lopPut (lop 0x39 (cmd vf1 0 []) .running) framed, by decide +kernel⟩

theorem witness_LongCommandsQueue :
    MayQueue 0x10 (imageIntake true) (cmd .pf 0 [(0x20, 4, 4096)]) (fset R.FRM_STATUS_state 3 framed) ∧
    MayQueue 0x11 (imageIntake false) (cmd .pf 0 [(0x20, 4, 4096)]) framed ∧
    MayQueue 0x12 rollIntake (cmd vf1 0 [(0x18, 1, 1)]) (fset (R.FRM_RING_GEN_rollback_ok 1) 1 framed) ∧
    MayQueue 0x39 expIntake (cmd vf1 1 []) equipped ∧ MayQueue 0x40 capIntake (cmd vf1 0 [(0x20, 1, 16)]) equipped ∧
    MayQueue 0x41 repIntake (cmd vf1 0 []) equipped ∧ MayQueue 0x52 testIntake (cmd .pf 3 []) framed ∧
    MayQueue 0x54 fwIntake (cmd .pf 0 [(0x20, 4, 328)]) framed ∧ MayQueue 0x58 joinIntake (cmd .pf 0 [(0x18, 2, 2)]) framed ∧
    MayQueue 0x59 leaveIntake (cmd .pf 0 []) (fset R.CAS_STATUS_state 2 framed) := by
  refine ⟨mayQueue_of ?_, mayQueue_of ?_, mayQueue_of ?_, mayQueue_of ?_, mayQueue_of ?_, mayQueue_of ?_, mayQueue_of ?_, mayQueue_of ?_,
    mayQueue_of ?_, mayQueue_of ?_⟩ <;> decide +kernel

/-- Eight operations of Ring 1's VF live, one of them of tag 7. -/
def busy : State := (List.range 8).foldl (fun s n => lopPut { lop 0x39 (cmd vf1 0 []) .queued with tag := n } s) framed

theorem witness_LongCommandsBusy : ∃ c s, Enters 0x39 c s ∧ 8 ≤ lopLive c.fn (entered 0x39 c s) ∧ (lopFind c.fn c.tag (entered 0x39 c s)).isSome = true :=
  ⟨cmd vf1 0 [], busy, enters_of (by decide +kernel), by decide +kernel⟩

theorem witness_AlwaysOnCommands_zeroise : ∃ c sc, Enters 0x48 c framed ∧ zeroScope c = .ok sc := ⟨cmd vf1 0 [], .ring 1, enters_of (by decide +kernel), rfl⟩

theorem witness_AlwaysOnCommands_quarantine : ∃ c s, Enters 0x50 c s ∧ c.target < 4 ∧ czero c 0x18 = true ∧ baySt c.target (settled 0x50 c s) ≠ bsLost ∧
    baySt c.target (settled 0x50 c s) ≠ bsQuar := ⟨cmd .pf 3 [], framed, enters_of (by decide +kernel), by decide +kernel⟩

theorem witness_AlwaysOnCommands_warmReset : ∃ c s, Enters 0x51 c s ∧ c.target < 4 ∧ czero c 0x18 = true ∧ baySt c.target (settled 0x51 c s) = bsQuar :=
  ⟨cmd .pf 3 [], fset (R.FLT_BAY_STATUS_state 3) 2 framed, enters_of (by decide +kernel), by decide +kernel⟩

theorem witness_AlwaysOnCommands_faultlog : ∃ c s, Enters 0x60 c s ∧ carg c 0x18 8 % 64 = 0 ∧ 1 ≤ carg c 0x20 4 ∧ carg c 0x20 4 ≤ 64 ∧ czero c 0x24 = true ∧
    (logEntry c.target (settled 0x60 c s)).isSome = true ∧
    hostOk (carg c 0x18 8) (64 * min (carg c 0x20 4) (fget R.LDG_LOG_NEXT_next (settled 0x60 c s) - c.target)) (settled 0x60 c s) = true :=
  ⟨cmd .pf 0 [(0x20, 4, 64)], (faultLog ⟨0, 7, 0, 0, 0, 0, 0, 0xFF, 0, 0⟩ framed).2, enters_of (by decide +kernel), by decide +kernel⟩

/-- Slot 0 valid, as a load leaves it. -/
def keyed (s : State) : State := keySlotPut 0 ⟨true, 1, 1, 0, List.replicate 16 0, List.replicate 14 0, []⟩ s

theorem witness_Zeroisation : inScope (.ring 1) 0 (keyed equipped) = true ∧ (keySlot 0 (keyed equipped)).valid = true ∧
    (tfind (zeroise (.ring 1) 2 (keyed equipped)).ctl.streams 0).isSome = true ∧ inScope (.ring 1) 65535 equipped = false := by decide +kernel

theorem witness_ConfigCommandsWait : ∃ c s, Enters 0x20 c s ∧ c.effectStamp ≠ 0 ∧ stampGe s.clk.stamp c.effectStamp = false :=
  ⟨{ cmd vf1 0 [] with effectStamp := 1001 }, framed, enters_of (by decide +kernel), by decide +kernel⟩

theorem witness_ConfigCommandsWait_boundary : ∃ (f : Flight) (b : Nat) (s : State), s.hif.flight = [] ++ f :: [] ∧ flightDue b f = true ∧
    f.effective = false ∧ f.cmd.effectStamp = 1001 := by
  refine ⟨flightOf 0x20 { cmd vf1 0 [] with effectStamp := 1001 } none framed, 1001, { framed with hif := { framed.hif with
    flight := [flightOf 0x20 { cmd vf1 0 [] with effectStamp := 1001 } none framed] } }, rfl, ?_⟩
  decide +kernel

/-- The table of an AUD_SAFE_LOAD of 528 bytes is fetched. -/
theorem witness_ConfigCommandsWait_fetch : ∃ c : Cmd, carg c 0x20 4 ≤ 524352 ∧ hostOk (carg c 0x18 8) (carg c 0x20 4) (entered 0x30 c framed) = true :=
  ⟨cmd vf1 0 [(0x20, 4, 528)], by decide +kernel⟩

theorem witness_ConfigCommandsLate : ∃ c s t r, Enters 0x20 c s ∧ c.effectStamp < 2 ^ 48 ∧ c.effectStamp ≠ 0 ∧
    stampAfter s.clk.stamp c.effectStamp = true ∧ applyOf 0x20 (inFlight 0x20 c s).data c s.clk.stamp (entered 0x20 c s) = (t, some r) :=
  ⟨{ cmd vf1 0 [] with effectStamp := 999 }, framed, _, _, enters_of (by decide +kernel), by decide, by decide, by decide +kernel, rfl⟩

/-- What an optional object that is there meets. -/
theorem some_of {α : Type} {o : Option α} {P : α → Prop} [DecidablePred P] (h : o.any (fun a => decide (P a)) = true) : ∃ a, o = some a ∧ P a := by
  cases o with
  | none => cases h
  | some a => exact ⟨a, rfl, of_decide_eq_true h⟩

theorem now_of {op : Nat} {c : Cmd} {s : State} (h : (entersB op c s && decide (c.effectStamp = 0)) = true) : EntersNow op c s := by
  simp only [Bool.and_eq_true, decide_eq_true_eq] at h
  exact ⟨enters_of h.1, h.2⟩

theorem witness_ActCommands_admit : ∃ c s ring bay t, EntersNow 0x20 c s ∧ template ring (carg c 0x18 2) (entered 0x20 c s) = some t ∧
    (idRefused c 1 actLimit c.target (entered 0x20 c s) = none ∧ ringOf 1 c.target (entered 0x20 c s) = some ring ∧ 2 ≤ carg c 0x1A 2 ∧
      carg c 0x1A 2 ≤ 16384 ∧ (t.mixing = true ∨ carg c 0x1A 2 = 2) ∧ czero c 0x1C = true ∧ tfind (entered 0x20 c s).ctl.acts c.target = none ∧
      place ring (chargeOf 0 (actUnits (carg c 0x1A 2) t)) (entered 0x20 c s) = some bay) :=
  ⟨cmd vf1 0 [(0x1A, 2, 8)], framed, 1, 0, ⟨0, 0, 4, 96, 0, 0, 0, 0⟩, now_of (by decide +kernel), by decide +kernel⟩

theorem witness_ActCommands_release : ∃ c s ring a, EntersNow 0x21 c s ∧ tfind (entered 0x21 c s).ctl.acts c.target = some a ∧
    (idRefused c 1 actLimit c.target (entered 0x21 c s) = none ∧ ringOf 1 c.target (entered 0x21 c s) = some ring ∧ czero c 0x18 = true ∧
      actLegs c.target (entered 0x21 c s) = []) := by
  obtain ⟨a, h, k⟩ := some_of (o := tfind (entered 0x21 (cmd vf1 2 []) (after framed [.actAdmit (cmd vf1 2 [(0x1A, 2, 8)])])).ctl.acts 2)
    (P := fun _ => True) (by decide +kernel)
  exact ⟨cmd vf1 2 [], after framed [.actAdmit (cmd vf1 2 [(0x1A, 2, 8)])], 1, a, now_of (by decide +kernel), h, by decide +kernel⟩

/-- The hypotheses of LEG_ADMIT of leg `id`, decided. -/
def legAdmitB (c : Cmd) (s : State) (ring bay : Nat) (a : Act) : Bool :=
  let s1 := entered 0x22 c s
  let act := carg c 0x18 2
  let ac := carg c 0x1A 1
  let need := legNeed (carg c 0x24 4) (carg c 0x28 4)
  let old := settingNow act s1
  let now := settingUnits act (recSetting ac (LegRec.dflt a.tpl ac) ++ actSettings act legLimit s1) s1
  decide (idRefused c 0 legLimit c.target s1 = none ∧ ringOf 0 c.target s1 = some ring ∧ idRefused c 1 actLimit act s1 = none ∧ ringOf 1 act s1 = some ring ∧
    ac ≤ 7 ∧ carg c 0x1B 1 ≤ 4 ∧ carg c 0x21 1 ≤ 1 ∧ carg c 0x22 2 = 0 ∧ czero c 0x2C = true ∧ tfind s1.ctl.legs c.target = none ∧
    codecClash act ac s1 = false ∧ actFull act a s1 = false ∧ place ring need s1 = some bay ∧
    (old < now → fits a.ring a.bay (chargeOf 0 (now - old)) s1 = true))

theorem witness_LegAdmit : ∃ c s ring bay a, EntersNow 0x22 c s ∧ tfind (entered 0x22 c s).ctl.acts (carg c 0x18 2) = some a ∧
    legAdmitB c s ring bay a = true := by
  obtain ⟨a, h, k⟩ := some_of (o := tfind (entered 0x22 (cmd vf1 3 [(0x1A, 1, 7), (0x1B, 1, 4), (0x21, 1, 1), (0x24, 4, 10), (0x28, 4, 10)]) equipped).ctl.acts 0)
    (P := fun a => legAdmitB (cmd vf1 3 [(0x1A, 1, 7), (0x1B, 1, 4), (0x21, 1, 1), (0x24, 4, 10), (0x28, 4, 10)]) equipped 1 0 a = true) (by decide +kernel)
  exact ⟨_, equipped, 1, 0, a, now_of (by decide +kernel), h, k⟩

theorem ok_of {α β : Type} {o : Except β α} {P : α → Prop} [DecidablePred P] (h : o.toOption.any (fun a => decide (P a)) = true) :
    ∃ a, o = .ok a ∧ P a := by
  cases o with
  | error e => cases h
  | ok a => exact ⟨a, rfl, of_decide_eq_true h⟩

/-- Leg 0's contexts keyed; leg 0 active; leg 0 drained. -/
def bound : State := let s := keySlotPut 1 ⟨true, 1, 1, 0, List.replicate 16 1, List.replicate 14 0, []⟩ (keyed equipped)
  { s with ctl := { s.ctl with streams := tmap s.ctl.streams fun id st => { st with
    key := some id
    bound := true } } }
def active : State := { bound with ctl := { bound.ctl with legs := tupd bound.ctl.legs 0 fun l => { l with
  st := .active
  started := 1000
  byteLvl := 1000000
  pktLvl := 1000000 } } }
def drainOver : State := { active with
  clk := ⟨1100, 0, 0, 0, 0, true⟩
  ctl := { active.ctl with legs := tupd active.ctl.legs 0 fun l => { l with
    st := .draining
    drainEnd := 1050 } } }

theorem witness_LegLifecycle_start : ∃ c s l, EntersNow 0x23 c s ∧ legOf c (entered 0x23 c s) = .ok l ∧ (czero c 0x18 = true ∧ l.st = .admitted ∧
    ((entered 0x23 c s).ctl.streams.filter fun p => decide (p.2.leg = c.target)) ≠ [] ∧
    ∀ p ∈ (entered 0x23 c s).ctl.streams.filter (fun p => decide (p.2.leg = c.target)), streamReady p.2 (entered 0x23 c s) = true) := by
  obtain ⟨l, h, k⟩ := ok_of (o := legOf (cmd vf1 0 []) (entered 0x23 (cmd vf1 0 []) bound)) (P := fun l => l.st = .admitted) (by decide +kernel)
  exact ⟨_, bound, l, now_of (by decide +kernel), h, by decide +kernel, k, by decide +kernel, by decide +kernel⟩

theorem witness_LegLifecycle_release : (∃ c s l, EntersNow 0x25 c s ∧ legOf c (entered 0x25 c s) = .ok l ∧ l.st = .active ∧ czero c 0x18 = true) ∧
    ∃ c s l, EntersNow 0x25 c s ∧ legOf c (entered 0x25 c s) = .ok l ∧ l.st = .admitted ∧ czero c 0x18 = true := by
  constructor
  · obtain ⟨l, h, k⟩ := ok_of (o := legOf (cmd vf1 0 []) (entered 0x25 (cmd vf1 0 []) active)) (P := fun l => l.st = .active) (by decide +kernel)
    exact ⟨_, active, l, now_of (by decide +kernel), h, k, by decide +kernel⟩
  · obtain ⟨l, h, k⟩ := ok_of (o := legOf (cmd vf1 1 []) (entered 0x25 (cmd vf1 1 []) active)) (P := fun l => l.st = .admitted) (by decide +kernel)
    exact ⟨_, active, l, now_of (by decide +kernel), h, k, by decide +kernel⟩

theorem witness_LegLifecycle_drainEnd : ∃ leg s l, tfind s.ctl.legs leg = some l ∧ (l.st = .draining ∧ stampAfter s.clk.stamp l.drainEnd = true ∧
    legItems leg l.drainEnd s = false) := ⟨0, drainOver, some_of (by decide +kernel)⟩

theorem witness_LegRoute_same : ∃ c s l, EntersNow 0x24 c s ∧ legOf c (entered 0x24 c s) = .ok l ∧ czero c 0x1A = true ∧ (l.st ≠ .draining ∧
    idRefused c 1 actLimit (carg c 0x18 2) (entered 0x24 c s) = none ∧ ringOf 1 (carg c 0x18 2) (entered 0x24 c s) = some l.ring ∧ carg c 0x18 2 = l.act) := by
  obtain ⟨l, h, k⟩ := ok_of (o := legOf (cmd vf1 0 []) (entered 0x24 (cmd vf1 0 []) equipped)) (P := fun l => l.st ≠ .draining ∧
    idRefused (cmd vf1 0 []) 1 actLimit 0 (entered 0x24 (cmd vf1 0 []) equipped) = none ∧ ringOf 1 0 (entered 0x24 (cmd vf1 0 []) equipped) = some l.ring ∧
    0 = l.act) (by decide +kernel)
  exact ⟨cmd vf1 0 [], equipped, l, now_of (by decide +kernel), h, by decide +kernel, k.1, by decide +kernel, k.2.2⟩

/-- Leg 1 may move from Act 1 to Act 3, which forwards too. -/
def routing : State := after equipped [.actAdmit (cmd vf1 3 [(0x18, 2, 1), (0x1A, 2, 2)])]

theorem witness_LegRoute : ∃ c s l a o, EntersNow 0x24 c s ∧ legOf c (entered 0x24 c s) = .ok l ∧ tfind (entered 0x24 c s).ctl.acts (carg c 0x18 2) = some a ∧
    tfind (entered 0x24 c s).ctl.acts l.act = some o ∧ czero c 0x1A = true ∧ l.st ≠ .draining ∧ carg c 0x18 2 ≠ l.act ∧ a.tpl.mixing = false ∧
    o.tpl.mixing = false ∧ codecClash (carg c 0x18 2) l.acodec (entered 0x24 c s) = false ∧ actFull (carg c 0x18 2) a (entered 0x24 c s) = false ∧
    fits a.ring a.bay (chargeOf 0 (1 + (settingUnits (carg c 0x18 2) (legSetting l.act c.target l (entered 0x24 c s) ++
      actSettings (carg c 0x18 2) legLimit (entered 0x24 c s)) (entered 0x24 c s) - settingNow (carg c 0x18 2) (entered 0x24 c s)))) (entered 0x24 c s) = true := by
  obtain ⟨l, h, l1, l2, l3, l4⟩ := ok_of (o := legOf (cmd vf1 1 [(0x18, 2, 3)]) (entered 0x24 (cmd vf1 1 [(0x18, 2, 3)]) routing))
    (P := fun l => l.st = .admitted ∧ l.act = 1 ∧ l.acodec = 0 ∧
      settingUnits 3 (legSetting 1 1 l (entered 0x24 (cmd vf1 1 [(0x18, 2, 3)]) routing) ++
        actSettings 3 legLimit (entered 0x24 (cmd vf1 1 [(0x18, 2, 3)]) routing)) (entered 0x24 (cmd vf1 1 [(0x18, 2, 3)]) routing)
        - settingNow 3 (entered 0x24 (cmd vf1 1 [(0x18, 2, 3)]) routing) = 0) (by decide +kernel)
  obtain ⟨o, k, o1⟩ := some_of (o := tfind (entered 0x24 (cmd vf1 1 [(0x18, 2, 3)]) routing).ctl.acts 1) (P := fun o => o.tpl.mixing = false)
    (by decide +kernel)
  obtain ⟨a, m, a1, a2, a3, a4⟩ := some_of (o := tfind (entered 0x24 (cmd vf1 1 [(0x18, 2, 3)]) routing).ctl.acts 3)
    (P := fun a => a.tpl.mixing = false ∧ a.ring = 1 ∧ a.bay = 0 ∧ a.maxLegs = 2) (by decide +kernel)
  refine ⟨cmd vf1 1 [(0x18, 2, 3)], routing, l, a, o, now_of (by decide +kernel), h, m, ?_, by decide +kernel, ?_, ?_, a1, o1, ?_, ?_, ?_⟩
  · rw [l2]
    exact k
  · rw [l1]
    decide
  · rw [l2]
    decide +kernel
  · rw [l3]
    decide +kernel
  · unfold actFull
    rw [a4]
    decide +kernel
  · rw [a2, a3, l2, show carg (cmd vf1 1 [(0x18, 2, 3)]) 0x18 2 = 3 from by decide +kernel, show (cmd vf1 1 [(0x18, 2, 3)]).target = 1 from rfl, l4]
    decide +kernel

theorem witness_StreamContexts_admit : let c := cmd vf1 2 [(0x18, 2, 1), (0x1C, 4, 9), (0x22, 1, 6), (0x23, 1, 2)]
    let s1 := entered 0x26 c equipped
    entersB 0x26 c equipped = true ∧ c.effectStamp = 0 ∧ idRefused c 2 streamLimit 2 s1 = none ∧ ringOf 2 2 s1 = some 1 ∧
    idRefused c 0 legLimit (carg c 0x18 2) s1 = none ∧ ringOf 0 (carg c 0x18 2) s1 = some 1 ∧ streamArgs c (carg c 0x18 2) s1 = true ∧
    (tfind s1.ctl.streams 2).isNone = true ∧ (s1.ctl.streams.filter fun p => decide (p.2.leg = 1) && decide (p.2.dir = 0)).length < 8 ∧
    (tfind s1.ctl.legs (carg c 0x18 2)).any (fun l => decide (l.st = .admitted) && (!(actTpl l.act s1).mixing || trustFits l.act s1)) = true := by
  decide +kernel

theorem witness_StreamContexts_release : let c := cmd vf1 1 []
    let s1 := entered 0x27 c equipped
    entersB 0x27 c equipped = true ∧ c.effectStamp = 0 ∧ idRefused c 2 streamLimit 1 s1 = none ∧ ringOf 2 1 s1 = some 1 ∧ czero c 0x18 = true ∧
    (tfind s1.ctl.streams 1).isSome = true ∧ ∀ p ∈ s1.ctl.streams, ¬ (p.2.media = 2 ∧ p.2.rtxOf = c.target) := by decide +kernel

/-- A bind of slot 0 to context 0 with a grace of 4000 blocks, and an unbind. -/
theorem witness_StreamContexts_bind : ∀ c ∈ [cmd vf1 0 [(0x20, 2, 4000)], cmd vf1 0 [(0x1A, 1, 1)]], let s := keyed equipped
    let s1 := entered 0x28 c s
    entersB 0x28 c s = true ∧ c.effectStamp = 0 ∧ idRefused c 2 streamLimit 0 s1 = none ∧ ringOf 2 0 s1 = some 1 ∧ carg c 0x1B 1 = 0 ∧
    carg c 0x20 2 ≤ 4000 ∧ czero c 0x22 = true ∧ idRefused c 3 65536 (carg c 0x18 2) s1 = none ∧
    (tfind s1.ctl.streams 0).any (fun st => decide (bindReason 0 (carg c 0x18 2) st s1 = 0) &&
      (tfind s1.ctl.legs st.leg).any fun l => decide (l.st ≠ .draining)) = true := by decide +kernel

/-- Context 0 with the former slot 1 until block 1000. -/
def grace : State := { equipped with ctl := { equipped.ctl with streams := tupd equipped.ctl.streams 0 fun st => { st with prev := some (1, 1000) } } }

theorem witness_StreamContexts_grace : (tfind grace.ctl.streams 0).any (fun st => decide (st.prev = some (1, 1000))) = true ∧
    stampGe grace.clk.stamp 1000 = true := by decide +kernel

/-- A command entry of opcode `op` in host memory, where Ring 1's VF's SQ begins. -/
def sqWith (op : Nat) (s : State) : State := hostWrite 32768 (mk 64 [(0, 2, op), (4, 4, 7), (0x18, 2, 0), (0x1A, 2, 2)])
  (regs [(R.CMD_SQ_TAIL_tail vf1, 1)] (ringsOn vf1 s))

/-- The entry at the head of a queue. -/
def headEntry (s : State) : Nat × Cmd := let l := hostRead 32768 64 s
  (le l 0 2, ⟨vf1, le l 2 2, le l 4 4, le l 8 8, le l 0x10 4, le l 0x14 4, l.drop 0x18⟩)

/-- A configuration command, a query, a refused opcode; and a PCIe error. -/
theorem witness_CommandFetch : (∀ op ∈ [0x00, 0x20, 0x1F], let s := sqWith op framed
    fon (R.CMD_CTRL_enable vf1) s = true ∧ fget (R.CMD_SQ_HEAD_head vf1) s = 0 ∧ fget (R.CMD_SQ_TAIL_tail vf1) s = 1 ∧ intakeOpen vf1 s = true ∧
    hostOk 32768 64 s = true ∧ fget (R.CMD_SQ_BASE_base vf1) s * 4096 = 32768 ∧ (headEntry s).1 = op ∧
    (let t := takeIn op (headEntry s).2 (fset (R.CMD_SQ_HEAD_head vf1) 1 s)
     t.refuse.isSome = decide (op = 0x1F) ∧ opKind op = if op = 0x00 then some .query else if op = 0x20 then some .config else none)) ∧
    hostOk 32768 64 { sqWith 0 framed with mem := { (sqWith 0 framed).mem with hostFail := [(32768 + 63, 2 ^ 63)] } } = false := by decide +kernel

/-- The last entry of a CQ of 64: the phase changes behind it. -/
theorem witness_CompletionEntry : let s := regs [(R.CMD_CQ_TAIL_tail vf1, 63), (R.CMD_CQ_TAIL_phase vf1, 1)] (ringsOn vf1 framed)
    fget (R.CMD_CQ_TAIL_tail vf1) s + 1 = cqSize vf1 s ∧ fget (R.CMD_RING_SIZE_cq_log2 vf1) s ≤ 12 ∧ fget (R.CMD_CQ_TAIL_phase vf1) s ≤ 1 ∧
    ∃ p : Posted, p.slot = some 5 := ⟨by decide +kernel, by decide +kernel, by decide +kernel, ⟨complOf 7 0 rspOk, some 5, false⟩, rfl⟩

/-- Rings of 64 entries, three completions unread, result slots 0, 2 and 63 filled. -/
def ringed : State := let s := regs [(R.CMD_CQ_TAIL_tail vf1, 3), (R.CMD_STATUS_sq_halted vf1, 1), (R.CMD_STATUS_cq_halted vf1, 1)] (ringsOn vf1 framed)
  { s with hif := { s.hif with slots := [(slotKey vf1 0, ⟨some [], some 0⟩), (slotKey vf1 2, ⟨some [], some 2⟩), (slotKey vf1 63, ⟨some [], some 1⟩)] } }

theorem witness_RingRegisters : (63 < 4096 ∧ 63 ≠ fget (R.CMD_SQ_TAIL_tail vf1) ringed ∧ 63 < sqSize vf1 ringed) ∧ sqSize vf1 ringed ≤ 64 ∧
    (∀ v ∈ [0, 3], headTaken (fget (R.CMD_CQ_HEAD_head vf1) ringed) (fget (R.CMD_CQ_TAIL_tail vf1) ringed) (cqSize vf1 ringed) v = true) ∧
    (∀ v ∈ [4, 64, 4095], headTaken (fget (R.CMD_CQ_HEAD_head vf1) ringed) (fget (R.CMD_CQ_TAIL_tail vf1) ringed) (cqSize vf1 ringed) v = false) ∧
    retires (cqSize vf1 ringed) 0 2 2 = false ∧
    (tfind ringed.hif.slots (slotKey vf1 63)).any (fun x => x.ready.isSome) = true ∧ fon (R.CMD_STATUS_sq_halted vf1) ringed = true ∧
    fget (R.CMD_CTRL_enable vf1) ringed = 1 ∧ fon (R.CMD_STATUS_cq_halted vf1) ringed = true ∧ fget (R.CMD_STATUS_in_flight vf1) ringed = 0 ∧
    (let s := fset (R.CMD_CTRL_enable vf1) 0 ringed
     fon (R.CMD_CTRL_enable vf1) s = false ∧ fget (R.CMD_RING_SIZE_sq_log2 vf1) s ≤ fget (R.CMD_RING_SIZE_cq_log2 vf1) s) ∧
    (let s := regs [(R.CMD_CTRL_enable vf1, 0), (R.CMD_RING_SIZE_cq_log2 vf1, 5)] ringed
     fon (R.CMD_CTRL_enable vf1) s = false ∧ fget (R.CMD_RING_SIZE_cq_log2 vf1) s < fget (R.CMD_RING_SIZE_sq_log2 vf1) s) := by decide +kernel

/-- Two events wait for Ring 1's event ring of 64 entries, which has two unread. -/
def evs : State :=
  let s := regs [(R.INT_EVQ_CFG_enable vf1 0, 1), (R.INT_EVQ_CFG_log2 vf1 0, 6), (R.INT_EVQ_BASE_base vf1 0, 4), (R.INT_EVQ_TAIL_tail vf1 0, 2)] framed
  evqPut (evqVf 1) { EvQueue.init with
    items := [⟨ev EV_KEY_ZEROISED 0 (some 1) 0 0 0 s, 2, 0, 0⟩, ⟨ev EV_KEY_ZEROISED 0 (some 1) 0 0 1 s, 2, 1, 1⟩]
    staged := some 512
    due := true } s

theorem witness_EventRings : evqKey vf1 0 = some (evqVf 1) ∧ (evqPick (evqGet (evqVf 1) evs).items 1).isSome = true ∧
    fon (R.INT_EVQ_CFG_enable vf1 0) evs = true ∧ fget (R.INT_EVQ_CFG_log2 vf1 0) evs ≤ 14 ∧
    ringRoom (fget (R.INT_EVQ_HEAD_head vf1 0) evs) (fget (R.INT_EVQ_TAIL_tail vf1 0) evs) (evqSize vf1 0 evs) 0 = true ∧
    hostOk (fget (R.INT_EVQ_BASE_base vf1 0) evs * 4096 + 64) 32 evs = true ∧
    (∀ v ∈ [0, 2], headTaken (fget (R.INT_EVQ_HEAD_head vf1 0) evs) (fget (R.INT_EVQ_TAIL_tail vf1 0) evs) (evqSize vf1 0 evs) v = true) ∧
    (∀ v ∈ [3, 16383], headTaken (fget (R.INT_EVQ_HEAD_head vf1 0) evs) (fget (R.INT_EVQ_TAIL_tail vf1 0) evs) (evqSize vf1 0 evs) v = false) := by
  decide +kernel

/-- smb_ctl set, Bay 3 quarantined, one entry in the fault log. -/
def mail : State := regs [(R.GLB_AON_CFG_smb_ctl, 1), (R.FLT_BAY_STATUS_state 3, 2)] (faultLog ⟨0, 7, 0, 0, 0, 0, 0, 0xFF, 0, 0⟩ framed).2

theorem witness_MailboxOperations : (∀ op ∈ [1, 2, 3, 4, 5, 6, 7], MbxOpen op .config 9 0 false mail ∧ MbxOpen op (.smbus (smbAddress mail)) 9 0 true mail) ∧
    (logEntry 0 mail).isSome = true ∧ (logEntry 1 mail).isNone = true ∧ baySt 3 mail = bsQuar := by
  unfold MbxOpen
  decide +kernel

theorem witness_MailboxRefusals : fon R.GLB_AON_CFG_smb_ctl State.reset = false ∧ fon R.MBX_CTRL_busy (fset R.MBX_CTRL_busy 1 State.reset) = true := by
  decide +kernel

theorem witness_FunctionResets : ∃ f : Flight, f.cmd.fn = vf1 ∧ f.cmd.fn ≠ .pf := ⟨⟨0x20, cmd vf1 0 [], none, none, false, 0, false, 0, false⟩, rfl, by decide⟩

/-- Staged lengths that are due: context 0's jitter ring, Ring 1's event queue, context 1's rewind ring, the ready queue of cluster 3. -/
def resized : State := { evs with
  ctl := { equipped.ctl with streams := tupd equipped.ctl.streams 0 fun st => { st with due := true } }
  egr := { equipped.egr with rings := tupd equipped.egr.rings 1 fun r => { r with due := true } }
  crsl := { evs.crsl with queues := tset evs.crsl.queues 3 { RQueue.init with
    staged := some 1024
    due := true } } }

theorem witness_HostSideRows : { framed.hif.mbx with smb := [1] }.smb ≠ [] ∧ framed.hif.mbx.smb = [] ∧
    fon R.OBS_TRACE_CFG_enable framed = false ∧
    (∃ b, traceFits (fget R.OBS_TRACE_BASE_base (regs [(R.OBS_TRACE_BASE_base, b), (R.OBS_TRACE_CFG_n, 10)] framed)) 10 framed = true) ∧
    traceFits 0 10 framed = false ∧ (evqGet (evqVf 1) resized).staged = some 512 ∧ (evqGet (evqVf 1) resized).due = true ∧
    (tfind resized.ctl.streams 0).any (·.due) = true ∧ (tfind resized.egr.rings 1).any (·.due) = true ∧ (rqGet 3 resized).staged = some 1024 ∧
    (rqGet 3 resized).due = true ∧ (∀ e ∈ (rqGet 3 resized).q, e.pos < 1024) ∧
    selected vf1 (R.AUD_LEG_SEL_leg vf1) 0 16384 (fset (R.AUD_LEG_SEL_leg vf1) 15 framed) = some 15 := by
  refine ⟨by decide, by decide +kernel, by decide +kernel, ⟨2 ^ 16 * 9, by decide +kernel⟩, by decide +kernel, by decide +kernel,
    by decide +kernel, by decide +kernel, by decide +kernel, by decide +kernel, by decide +kernel, by decide +kernel, by decide +kernel⟩

/-- INT_EVQ_BASE of Ring 1's VF is a 64-bit register, INT_EVQ_CFG one of 32 bits. -/
def halves : State := { framed with hif := { framed.hif with
  latch := [(fnNum vf1, (6144, 9))]
  stage := [(fnNum vf1, (6144, 8192))] } }

theorem witness_RegisterAccesses : (wideAt vf1 6144 halves).isSome = true ∧ 6144 % 8 = 0 ∧ (wideAt vf1 6148 halves).isNone = true ∧
    (regAt vf1 6148 halves).isNone = true ∧ tfind halves.hif.latch (fnNum vf1) = some (6144, 9) ∧ tfind halves.hif.stage (fnNum vf1) = some (6144, 8192) ∧
    (regAt vf1 6144 halves).any (fun r => r.d.wide && decide (r.pf ≠ 0x103004 ∧ r.pf ≠ 0x200048 ∧ r.pf ≠ 0x20004C)) = true ∧
    (regAt vf1 6152 halves).any (fun r => !r.d.wide) = true := by decide +kernel

theorem witness_RegisterAccesses_fields : let f : FDesc := ⟨0, 4, .rw, 6, 6, 14⟩
    (∀ v ∈ [6, 14], f.min ≤ v / 2 ^ f.lo % 2 ^ f.w ∧ v / 2 ^ f.lo % 2 ^ f.w ≤ f.max) ∧ (5 / 2 ^ f.lo % 2 ^ f.w < f.min) ∧ f.max < 15 / 2 ^ f.lo % 2 ^ f.w ∧
    fget ⟨0x10018, 0, 1, 0⟩ framed < 2 ^ 1 := by decide +kernel

/-! ## Pictures, audio parameters, other configuration commands -/

/-- A canvas of `w` by `h` at one picture a second; an encode, its change. -/
def canvasCmd (n w h : Nat) : Cmd := cmd vf1 n [(0x18, 2, w), (0x1A, 2, h), (0x1C, 1, 1), (0x26, 1, 1)]
def encodeCmd (flags : Nat) : Cmd := cmd vf1 0 [(0x1A, 1, 8), (0x1B, 1, flags), (0x1C, 1, 31), (0x1D, 1, 1), (0x20, 4, 3125), (0x24, 4, 3125),
  (0x28, 2, 1000), (0x2B, 1, 51), (0x2C, 2, 1200)]

/-- Canvas 0 as its admission leaves it; encode 0 of it. -/
def canvas0 : Canvas := ⟨1, 64, 64, 1, 0, 0, false, [0, 0, 0], 1, 1000, 0, 0, false, none, 0, emptyLayout,
  [3221225472, 3221291008, 3221356544, 3221422080, 3221487616, 3221553152], [], [], none, none, [], [], false, false, false, false⟩
def staged : State := { framed with vid := { framed.vid with canvas := [(0, canvas0)] } }
def encoding : State := { staged with vid := { staged.vid with
  encs := [(0, ⟨1, 0, 0, 4096, encArgs (encodeCmd 0), [], [], 0, 0, 0, [], none, 0, [], [], none, [], EncLast.init, false, 0, [], 0, [], 1000⟩)] } }

theorem witness_PictureCommands_canvas : (∀ p ∈ [(15, 64, 64), (0, 64, 128)], let c := canvasCmd p.1 p.2.1 p.2.2
      let s1 := entered 0x29 c framed
      entersB 0x29 c framed = true ∧ c.effectStamp = 0 ∧ p.1 < 256 ∧ owns vf1 4 p.1 s1 = true ∧ ringOf 4 p.1 s1 = some 1 ∧ (liveCanvas p.1 s1).isNone = true ∧
      (64 ≤ p.2.1 ∧ p.2.1 ≤ 3840 ∧ p.2.1 % 8 = 0 ∧ 64 ≤ p.2.2 ∧ p.2.2 ≤ 2160 ∧ p.2.2 % 8 = 0) ∧ 90000 % carg c 0x1C 1 = 0 ∧ czero c 0x27 = true ∧
      (canvasOpen p.1 1 p.2.1 p.2.2 1 0 0 false [0, 0, 0] 1 none 1000 s1).toOption.isSome = true) ∧
    (let c := cmd vf1 0 []
     let s1 := entered 0x2A c staged
     entersB 0x2A c staged = true ∧ czero c 0x18 = true ∧ canvasEncs 0 s1 = [] ∧ (liveCanvas 0 s1).any (fun x => x.fallback.isNone) = true) ∧
    (let c := cmd vf1 0 []
     let s1 := entered 0x31 c staged
     entersB 0x31 c staged = true ∧ czero c 0x27 = true ∧ (inFlight 0x31 c staged).data = some [] ∧ (liveCanvas 0 s1).any (fun x =>
       (layoutCheck x [] 0 0 0 s1).isNone && (canvasLayout 0 x (layoutOf [] 0 0 0) 1000 s1).toOption.isSome) = true) := by
  decide +kernel

theorem witness_PictureCommands_encode : (let c := encodeCmd 0
      let s1 := entered 0x2B c staged
      entersB 0x2B c staged = true ∧ (tfind s1.vid.encs 0).isNone = true ∧ encRange c = true ∧ roiNow c [] = none ∧ (inFlight 0x2B c staged).data = some [] ∧ (roiTable []).all roiOk = true ∧
      (liveCanvas 0 s1).any (fun x => decide (90000 % x.fps = 0) && decide (x.px ≤ 250000000) && levelOk (encArgs c) x.width x.height x.fps &&
        modelOk (encArgs c) x.width x.height x.fps && (encOpen 0 (encArgs c) [] x 1000 s1).toOption.isSome) = true) ∧
    (let c := encodeCmd 9
     let s1 := entered 0x2B c encoding
     entersB 0x2B c encoding = true ∧ bit (carg c 0x1B 1) 0 = true ∧ encRange c = true ∧ roiNow c [] = some [] ∧ (inFlight 0x2B c encoding).data = some [] ∧
     (tfind s1.vid.encs 0).any (fun e => e.stop.isNone && encFixed e.cfg (encArgs c)) = true) ∧
    (∀ p ∈ [(0x2C, cmd vf1 0 []), (0x32, cmd vf1 0 [(0x18, 1, 1)])], entersB p.1 p.2 encoding = true ∧ czero p.2 0x19 = true ∧ carg p.2 0x18 1 ≤ 1 ∧
      owns vf1 4 0 encoding = true ∧ ringOf 4 0 encoding = some 1) := by decide +kernel

/-- A header and one record, of leg 0, in host memory. -/
def audioSet : State := hostWrite 64 (mk 96 [(0, 1, 3), (1, 1, 6), (2, 2, 40), (4, 1, 40), (5, 1, 4), (6, 1, 3), (7, 1, 1), (64, 2, 0), (68, 4, 2 ^ 20), (72, 4, 24)]) equipped

theorem witness_AudioParameters : let c := cmd vf1 0 [(0x18, 8, 64), (0x20, 4, 96), (0x24, 2, 1), (0x26, 1, 1)]
    let s1 := entered 0x30 c audioSet
    let tab := hostRead 64 96 s1
    entersB 0x30 c audioSet = true ∧ c.effectStamp = 0 ∧ idRefused c 1 actLimit 0 s1 = none ∧ ringOf 1 0 s1 = some 1 ∧
    carg c 0x20 4 = 64 * b2n (bit (carg c 0x26 1) 0) + 32 * carg c 0x24 2 ∧ carg c 0x18 8 % 64 = 0 ∧ carg c 0x24 2 ≤ 16384 ∧ czero c 0x27 = true ∧
    (inFlight 0x30 c audioSet).data = some tab ∧
    (safeRecs c tab).all (fun t => (tfind s1.ctl.legs (le t 0 2)).any fun l => decide (l.act = 0) && recOk t l.acodec) = true ∧
    (tfind s1.ctl.acts 0).any (fun a => hdrOk tab a.tpl && (let x := actAud 0 s1
      let y := { x with
        bankB := safeBank c x tab
        active := 1 }
      decide (x.active = 0) && decide (settingNow 0 (actAudPut 0 y s1) ≤ settingNow 0 s1))) = true ∧
    (((safeBank c (actAud 0 s1) tab).recs.filter fun p => p.2.pinned).length ≤ (safeBank c (actAud 0 s1) tab).hdr.topN) := by decide +kernel

/-- SHAPER_SET's four operations on leg 0: the greatest shaper values, a path over link 3, a payload type, a CNAME of 32 bytes. -/
theorem witness_OtherConfigCommands_shaper : let s := equipped
    (∀ c ∈ [cmd vf1 0 [], cmd vf1 0 [(0x18, 1, 1), (0x1A, 1, 15), (0x19, 1, 3)], cmd vf1 0 [(0x18, 1, 2), (0x1A, 2, 1), (0x1C, 1, 127)],
        cmd vf1 0 [(0x18, 1, 3), (0x19, 1, 32)]], entersB 0x33 c s = true ∧ owns vf1 0 0 s = true) ∧
    (tfind s.ctl.legs 0).any (fun l => (shaperArgs (cmd vf1 0 [(0x19, 1, 3), (0x1A, 2, 400), (0x1C, 4, 100), (0x20, 2, 2000), (0x22, 2, 65535),
      (0x28, 2, 10000), (0x2A, 1, 1)]) l).isSome) = true ∧ (tfind s.egr.legs 0).isSome = true ∧
    (pathArgs (cmd vf1 0 [(0x18, 1, 1), (0x1A, 1, 15), (0x19, 1, 3)]) s).isSome = true ∧
    (tfind s.ctl.streams 1).any (fun st => decide (st.leg = 0 ∧ st.dir = 1)) = true ∧ czero (cmd vf1 0 [(0x18, 1, 3), (0x19, 1, 32)]) 0x3A = true := by
  decide +kernel

theorem witness_OtherConfigCommands_mark : (∀ p ∈ [(3, 0), (0, 1)], let c := cmd vf1 1 [(0x18, 1, p.1), (0x19, 1, p.2)]
      entersB 0x38 c equipped = true ∧ owns vf1 2 1 equipped = true ∧ carg c 0x18 1 ≤ 3 ∧ carg c 0x19 1 ≤ 1 ∧ czero c 0x1A = true) ∧
    (tfind equipped.ctl.streams 1).any (fun st => decide (st.dir = 1)) = true ∧ (tfind equipped.egr.rings 1).isSome = true := by decide +kernel

theorem witness_OtherConfigCommands_telemetry : ∀ c ∈ [cmd vf1 0 [], cmd vf1 0 [(0x20, 4, 4096), (0x24, 1, 1), (0x25, 1, 63), (0x28, 4, 1)],
      cmd .pf 0 [(0x18, 8, 4096), (0x20, 4, 2 ^ 24), (0x24, 1, 8), (0x25, 1, 127), (0x28, 4, 2000000), (0x2C, 4, 1999999)]],
    let s1 := entered 0x42 c framed
    let p := if carg c 0x28 4 = 0 then telemetryPeriod s1 else carg c 0x28 4
    entersB 0x42 c framed = true ∧ carg c 0x26 2 = 0 ∧ czero c 0x30 = true ∧ (carg c 0x25 1 = 0 ∨ (carg c 0x18 8 % 4096 = 0 ∧ carg c 0x20 4 % 4096 = 0 ∧
      4096 ≤ carg c 0x20 4 ∧ carg c 0x20 4 ≤ 2 ^ 24 ∧ 1 ≤ carg c 0x24 1 ∧ carg c 0x24 1 ≤ 8 ∧ carg c 0x25 1 < 128 ∧
      (bit (carg c 0x25 1) 6 = true → c.fn = .pf) ∧ carg c 0x28 4 ≤ 2000000 ∧ 0 < p ∧ carg c 0x2C 4 < p)) := by decide +kernel

theorem witness_OtherConfigCommands_return : let c := cmd .pf 3 []
    let s := regs [(R.FLT_BAY_STATUS_state 3, 2), (R.FLT_BAY_STATUS_tested 3, 1)] framed
    entersB 0x53 c s = true ∧ czero c 0x18 = true ∧ baySt 3 (entered 0x53 c s) = bsQuar ∧ fon (R.FLT_BAY_STATUS_tested 3) (entered 0x53 c s) = true := by
  decide +kernel

/-- A zeroisation waits for its acknowledge: in the run, in a stop without and with a save. -/
def zwait (p : Nat) (sv : Option LdgSave) : State := { fset R.PWR_STATUS_phase p framed with
  key := { framed.key with zreq := true }
  pwr := { framed.pwr with save := sv } }

theorem witness_OtherConfigCommands_ack : ∀ v : LdgSave, (zwait phRun none).key.zreq = true ∧ phase (zwait phRun none) ≠ phStopping ∧
    phase (zwait phStopping none) = phStopping ∧ (zwait phStopping none).pwr.save = none ∧ phase (zwait phStopping (some v)) = phStopping ∧
    (zwait phStopping (some v)).pwr.save.isSome = true := fun _ => ⟨rfl, by decide +kernel, by decide +kernel, rfl,
    (by decide +kernel : fget R.PWR_STATUS_phase (fset R.PWR_STATUS_phase phStopping framed) = phStopping), rfl⟩

/-! ## Keys, time, links, packets -/

theorem witness_KeyStaging : fget (R.KEY_LOAD_STATUS_written vf1) framed < 2 ^ 12 ∧ (11 : Nat) < 12 ∧ fon (R.KEY_LOAD_STATUS_busy vf1) framed = false ∧
    fon (R.KEY_LOAD_STATUS_busy vf1) (fset (R.KEY_LOAD_STATUS_busy vf1) 1 framed) = true := by decide +kernel

/-- A request of twelve words, the first four non-zero, waits; the staging is empty. -/
def req12 (words op slot profile : Nat) : KeyReq := ⟨op, slot, profile, (List.range words).map fun n => (n, if n < 4 then n + 1 else 0)⟩
def keyQueued (q : KeyReq) (s : State) : State :=
  { s with key := { s.key with
    queue := [vf1]
    stage := [(fnNum vf1, ⟨[], some q, 0⟩)] } }

/-- The three profiles; an erase of a valid and unbound slot; a load short of a word; an erase of a slot of another Ring. -/
theorem witness_KeyOperations : (∀ p ∈ [(1, 16, 14), (7, 16, 12), (8, 32, 12)], let k := req12 12 1 3 p.1
      let s := keyQueued k framed
      s.key.queue = [vf1] ∧ (keyStage vf1 s).req = some k ∧ owns vf1 3 3 s = true ∧ profileLens p.1 = some (p.2.1, p.2.2) ∧ 12 ≤ k.words.length ∧
        ((∀ b ∈ (stageBytes k 0 8).drop p.2.1, b = 0) ∧ ∀ b ∈ (stageBytes k 8 12).drop p.2.2, b = 0) ∧ keyValid 3 s = false) ∧
    (let s := keyQueued (req12 0 2 0 0) (keyed framed)
     (keyStage vf1 s).req = some (req12 0 2 0 0) ∧ owns vf1 3 0 s = true ∧ keyBound 0 s = false ∧ keyValid 0 s = true) ∧
    keyLoadCheck vf1 (req12 11 1 3 1) 3 1 framed ≠ 0 ∧ keyEraseCheck vf1 16 framed ≠ 0 := by
  decide +kernel

theorem witness_KeyFaults : keyCount (keyed framed) ≠ 0 ∧ keyCount framed = 0 ∧ Nat.testBit 2 0 = false ∧ Nat.testBit 3 0 = true ∧ Nat.testBit 3 1 = true ∧
    (tfind bound.ctl.streams 0).any (fun st => st.uses 0 && !st.uses 1) = true := by decide +kernel

/-- The clock plan names PTP as the reference; PTP time is valid, a second and 999 ns after a block. -/
def timed : State := { fset R.ETH_PTP_STATUS_time_valid 1 framed with
  clk := ⟨1000, 0, (1000000000 + 999) * 65536, 0, 0, true⟩
  frm := { framed.frm with timbers := framed.frm.timbers ++ [⟨tyClock, 0, 0xFF, 0, mk 64 [(2, 1, 1)]⟩] } }

theorem witness_BlockBoundaries : phase framed = phRun ∧ phase (fset R.PWR_STATUS_phase 8 framed) = phPorts := by decide +kernel

theorem witness_PtpTime : framed.clk.heldNs < 1000000000 ∧ framed.clk.offset = 0 ∧ 0 ≤ (timed.clk.ptp : Int) + toS 64 (2 ^ 64 - 1000000000) * 65536 ∧
    fon R.ETH_PTP_CFG_pps_en (fset R.ETH_PTP_CFG_pps_en 1 framed) = true ∧ fon R.ETH_PTP_CFG_pps_en (fset R.ETH_PTP_CFG_pps_en 0 framed) = false ∧
    fon R.ETH_PTP_STATUS_locked timed = false ∧ ptpFollows timed = true ∧ (ptpPhase timed).natAbs < 1000 ∧
    (let s := fset R.ETH_PTP_STATUS_locked 1 framed
     fon R.ETH_PTP_STATUS_locked s = true ∧ ptpFollows s = false) ∧ 1000 ≤ (ptpPhase { timed with clk := { timed.clk with ptp := 1000 * 65536 } }).natAbs := by
  decide +kernel

/-- Telemetry every 1000 blocks into 8 slots; leg 0 reports every 1000 blocks. -/
def periodic : State := let e := equipped
  { e with
    obs := { e.obs with tels := [(fnNum vf1, ⟨4096, 4096, 3, 1, 1000, 0, 0, 0, 0⟩)] }
    ctl := { e.ctl with legs := tupd e.ctl.legs 0 fun l => { l with st := .active } }
    egr := { e.egr with legs := tupd e.egr.legs 0 fun x => { x with
      path := some ⟨0, 0, 0, 0, 5000, List.replicate 16 0, List.replicate 6 0⟩
      sh := { x.sh with rtcp := 1000 } } } }

theorem witness_PeriodicRows : (tfind periodic.obs.tels (fnNum vf1)).any (fun t => decide (periodic.clk.stamp % t.period = t.phase ∧ t.slots ≤ 8)) = true ∧
    (0 + 1) % 2 ^ 3 ≠ fget (R.OBS_TEL_HEAD_head vf1) periodic % 2 ^ 3 ∧ hostOk 4096 4096 periodic = true ∧
    (let s := fset (R.OBS_TEL_HEAD_head vf1) 1 periodic
     (fget (R.OBS_TEL_HEAD_next vf1) s + 1) % 2 ^ 3 = fget (R.OBS_TEL_HEAD_head vf1) s % 2 ^ 3) ∧
    (tfind periodic.egr.legs 0).any (fun e => e.path.isSome && decide (periodic.clk.stamp % e.sh.rtcp = 0 % e.sh.rtcp ∧ e.rtcpAt ≠ some 1000)) = true ∧
    (tfind periodic.ctl.legs 0).any (fun l => decide (l.st = .active)) = true ∧ periodic.clk.running = true ∧ floorDue periodic = true ∧
    floorDue { periodic with ldg := { periodic.ldg with hdrA := { periodic.ldg.hdrA with floor := some 5000, ok := true } } } = false ∧
    (let s := { fset (R.DDR_CH_STATUS_state 11) 2 framed with clk := ⟨2 ^ 48 - 9, 0, 0, 0, 0, true⟩ }
     chanUp 11 s = true ∧ s.clk.stamp < 2 ^ 48 ∧ s.clk.stamp % 64 = 5 * 11 % 64) := by decide +kernel

theorem witness_LinkStates : (∀ st ≤ 5, linkSt 7 (fset (R.ETH_LINK_STATUS_state 7) st framed) = st) ∧ 0 < linkCount (fget R.ETH_MODE_eth_mode framed) ∧
    cget (ethCnt 7 0x40) framed < 2 ^ 64 ∧ 255 < 2 ^ linkLanes 2 ∧ fget (R.ETH_LINK_CFG_ser_thresh 7) framed < 17 := by decide +kernel

/-- An IPv4 frame from 0.0.0.0 to 0.0.0.0, whose header's checksum is `sum`, with a UDP datagram of checksum 0 to a port. -/
def udp4 (ver sum port : Nat) (l : List Byte) : List Byte := List.replicate 12 0 ++ beBytes 2 0x800 ++ beBytes 1 ver ++ [0] ++ beBytes 2 (28 + l.length) ++
  List.replicate 4 0 ++ [0x40, 17] ++ beBytes 2 sum ++ List.replicate 8 0 ++ beBytes 2 0 ++ beBytes 2 port ++ beBytes 2 (8 + l.length) ++ [0, 0] ++ l

/-- Local address 0 is ::ffff:0.0.0.0 with ports from 5000; link 0 is up. -/
def local0 (s : State) : State := regs [(R.ETH_LINK_STATUS_state 0, 5), (R.ING_LOCAL_ADDR2_addr 0, 0xFFFF0000), (R.ING_LOCAL_valid 0, 1),
  (R.ING_LOCAL_port_base 0, 5000), (R.CAS_CFG_udp_port, 4999)] s

/-- An RTP packet of SSRC 77 and number `n`. -/
def rtp77 (n : Nat) : List Byte := [0x80, 0x60] ++ beBytes 2 n ++ List.replicate 4 0 ++ beBytes 4 77 ++ [1, 2, 3, 4]
def frame0 (n : Nat) : Frame := ⟨udp4 0x45 0x7AC0 5000 (rtp77 n ++ [0, 0]), 1000, 0, 0, 0, 0, 0⟩

/-- A frame of every kind: the cascade's, a bad checksum, no IP, a fragment, PTP, leg 3's; of the shortest and the greatest length. -/
theorem witness_FramesReceived : linkUp 0 (local0 framed) = true ∧
    (∀ p ∈ [(udp4 0x45 0x7AC0 4999 (List.replicate 18 0), FrameKind.udp, true), (udp4 0x45 0x7AC1 4999 (List.replicate 18 0), .bad, false),
        (List.replicate 9728 0, .nonIp, false), (List.replicate 12 0 ++ [0x88, 0xF7] ++ List.replicate 46 0, .ptp, false),
        (udp4 0x45 0x7AC0 5003 (List.replicate 18 0), .udp, false)],
      60 ≤ p.1.length ∧ p.1.length ≤ 9728 ∧ be p.1 12 2 ≠ 0x8808 ∧ (parseFrame p.1).kind = p.2.1 ∧ casAddressed (parseFrame p.1) (local0 framed) = p.2.2) ∧
    localLeg (parseFrame (udp4 0x45 0x7AC0 5003 (List.replicate 18 0))) (local0 framed) = some 3 ∧
    (let f := List.replicate 12 0 ++ [0x08, 0x00, 0x45, 0, 0, 20, 0, 0, 0x20, 0, 0x40, 17, 0x5A, 0xDA] ++ List.replicate 34 0
     (parseFrame f).kind = .frag ∧ f.length = 60) ∧
    (∀ op ∈ [1, 0x101, 2], let f := List.replicate 12 0 ++ [0x88, 0x08] ++ beBytes 2 op ++ List.replicate 44 0
      be f 12 2 = 0x8808 ∧ be f 14 2 = op ∧ f.length = 60) ∧
    (let f := frame0 9
     let s := { framed with ctl := { framed.ctl with held := (List.range 200).map fun n => ⟨n, 0, 0, false, false, [], { f with bytes := List.replicate 9000 0 }, 0, false⟩ } }
     1572864 < replayUsed (linkPort 0 s) s + 60) := by decide +kernel

/-- The buckets of a leg that have just been refilled, as they stood in the block before. -/
def chargeEarly (l : Leg) : Option Leg :=
  let x : Leg := { l with
    byteLvl := 500000
    pktLvl := 500000 }
  (x.refill active).asOf 999 active

theorem witness_MediaPackets : (tfind active.ctl.legs 0).any (fun l => decide (l.st = .active ∧ 16 * (rtp77 9).length ≤ l.byteLvl ∧ 2000 ≤ l.pktLvl) &&
      (repOf l.act active).isNone) = true ∧
    12 ≤ (rtp77 9).length ∧ b8 (rtp77 9) 0 / 64 = 2 ∧ b8 (rtp77 9) 1 < 192 ∧ (rtpHdrLen (toNats (rtp77 9))).isSome = true ∧ isCryptex (rtp77 9) = false ∧
    be (rtp77 9) 8 4 = 77 ∧ findSsrc 0 77 (cinc (ingCnt 0 0) active) = some 0 ∧
    (tfind active.ctl.streams 0).any (fun st => (seqExtend st.seq 9).1.isSome) = true ∧
    (tfind active.ctl.legs 0).any (fun l => decide (l.asOf 1000 active = none) &&
      (chargeEarly l).any fun x => decide (16 * (rtp77 9).length ≤ x.byteLvl ∧ 2000 ≤ x.pktLvl)) = true ∧
    (tfind active.ctl.legs 0).any (fun l => let l : Leg := { l with pktLvl := 1999 }
      decide (((l.asOf 1000 active).getD l).pktLvl < 2000)) = true ∧ (rtp77 9).length ≤ 9728 ∧ 9728 < (List.replicate 9729 (0 : Byte)).length := by decide +kernel

/-- A slot with session keys of its own: profile 1, all zero. -/
def slot1 : KeySlot := ⟨true, 1, 1, 0, List.replicate 16 0, List.replicate 14 0, [List.replicate 16 0, List.replicate 20 0, List.replicate 14 0]⟩

/-- Packets 0 and 1 of context 0 are held, the first sealed under its slot. -/
def holding (p : List Byte) : State := let s := { keySlotPut 0 slot1 active with ctl := { active.ctl with
    held := [⟨0, 0, 0, false, false, p, frame0 9, 0, false⟩, ⟨1, 0, 0, false, false, rtp77 10, frame0 10, 0, false⟩] } }
  s

theorem witness_CipherVerdicts : let s := holding (ofNats (srtpProtect slot1 9 (toNats (rtp77 9))))
    (tfind s.ctl.streams 0).any (fun st => decide (verdictKeys st 1000 = [0]) && keyValid 0 s && decide (srtpIndex st.srtp st.roc 9 = some 9) &&
      idxOk st.win 9 && (seqExtend st.seq 9).1.isSome) = true ∧
    (s.ctl.held.find? (fun x => decide (x.id = 0))).any (fun h => decide (h.stream = 0 ∧ h.rtcp = false ∧ h.bind = false) &&
      (openWith (fun k => srtpOpen k 9 (toNats h.payload)) [0] s).isSome) = true ∧
    openWith (fun k => srtpOpen k 9 (toNats (rtp77 9))) [0] s = none ∧
    (s.ctl.held.find? (fun x => decide (x.stream = 0))).any (fun g => decide (g.id ≠ 1) && !g.answered) = true ∧
    (∀ h ∈ s.ctl.held, (holdIn h.eng s).contains h = true) := by decide +kernel

/-- A stream context of a leg, as an admission leaves it. -/
def strm (id leg dir media rtx : Nat) : Stream := ⟨leg, dir, media, 100 + id, true, false, 6, 8, rtx, [], [], 0, [], none, none, false, 0, 0,
  ⟨false, 0, 0⟩, ⟨false, 0, 0⟩, ⟨false, 0, 0, none, none⟩, none, 0, false, none, 0, [], none, false, 0, ⟨false, 0, 0, 0, 0, 0, 0, 0, none⟩, 0, 0, none, none, ⟨false, 0, 0⟩⟩

/-- Leg 1 forwards leg 2's video: an ingress video context 2 with its RTX context 3, egress context 1 with its RTX context 4; a frame of
context 2 waits with numbers 6 and 7 missing before it. -/
def video : State := let e := equipped
  let l1 : Leg := ⟨.active, 1, 1, 0, 1, 0, 0, 0, 0, 100, 100, 0, chargeOf 0 0, 1000000, 1000000, 1000, 0, false, false, 1000000, 1000000⟩
  let st := fun (id leg dir media rtx : Nat) => (id, strm id leg dir media rtx)
  { e with
    clk := ⟨5000, 0, 0, 0, 0, true⟩
    ctl := { e.ctl with
      legs := [(0, l1), (1, l1), (2, l1)]
      streams := [st 1 1 1 1 0, (2, { (st 2 2 0 1 0).2 with
        lastRel := some 65541
        jr := [(8, ⟨65544, 3000, 4999, none, false, false, false, [], 0, 0, false, false, 0, false⟩)] }), st 3 2 0 2 2, st 4 1 1 2 1, st 5 2 0 1 0] }
    egr := { e.egr with rings := [(1, ⟨6, none, false, some 5, [(5, ⟨5, 4000, [1, 2], 2, some 4990⟩)], [], false⟩)] }
    fwd := { e.fwd with legs := tset e.fwd.legs 1 { FwdLeg.init 1 with
      sub := some ⟨2, 2, 2, true, 15⟩
      src := some 2
      pend := some ⟨2, 0, 0, 3000⟩
      fall := .refused 3000
      credit := 2
      nacks := [(4998, 1, 5)] } } }

theorem witness_IngressRings : (∀ v ∈ [0, 3], headTaken 0 3 64 v = true) ∧ (∀ v ∈ [4, 64, 4095], headTaken 0 3 64 v = false) ∧
    (let s := regs [(R.ING_EXC_TAIL_tail vf1, 3), (R.ING_EXC_CFG_enable vf1, 1)] framed
     fget (R.ING_EXC_HEAD_head vf1) s = 0 ∧ fget (R.ING_EXC_TAIL_tail vf1) s = 3 ∧ 2 ^ fget (R.ING_EXC_CFG_log2 vf1) s = 64 ∧
       fon (R.ING_EXC_CFG_enable vf1) s = true ∧ ringRoom 0 3 64 0 = true ∧ 2 ^ fget (R.ING_EXC_CFG_slot_log2 vf1) s = 2048 ∧
       hostOk (fget (R.ING_EXC_BASE_base vf1) s * 4096 + 3 * 2048) 2048 s = true ∧ s.mem.linkUp = true ∧ ({ s.mem with linkUp := false } : Mem).linkUp = false ∧ (frame0 9).bytes.length + 32 ≤ 2048) ∧
    (tfind video.ctl.streams 2).any (fun st => decide (st.media = 1 ∧ st.dir = 0 ∧ st.seq.top = none ∧ (frameFirst st).map (·.seq) = [65536 + 8])) = true ∧
    { any := false, high := 0, window := 0 : IdxState }.high = 0 ∧ (SeqState.mk true 9 0 none (some 9)).top ≠ none := by decide +kernel

/-- A go of each window with its operation staged, not armed and armed. -/
theorem witness_StagedChanges : ∀ k ∈ [1, 2, 3, 4], let s := regs [(R.SRC_STAGE_OP_op vf1, k), (R.FWD_STAGE_OP_op vf1, k), (R.CAS_STAGE_OP_op, k)] framed
    (k < 4 → fget (R.SRC_STAGE_OP_op vf1) s = k ∧ fget (R.FWD_STAGE_OP_op vf1) s = k) ∧ fget R.CAS_STAGE_OP_op s = k ∧
    fon (R.SRC_STAGE_STATUS_armed vf1) s = false ∧ fon (R.FWD_STAGE_STATUS_armed vf1) s = false ∧ fon R.CAS_STAGE_STATUS_armed s = false ∧
    fon (R.SRC_STAGE_STATUS_armed vf1) (fset (R.SRC_STAGE_STATUS_armed vf1) 1 s) = true ∧
    fon (R.FWD_STAGE_STATUS_armed vf1) (fset (R.FWD_STAGE_STATUS_armed vf1) 1 s) = true ∧
    fon R.CAS_STAGE_STATUS_armed (fset R.CAS_STAGE_STATUS_armed 1 s) = true := by decide +kernel

/-- Leg 0 has a TDM source; port 3 has mode 1 and its slots belong to Ring 1. -/
def tdmState : State := { regs [(R.SRC_TDM_OWN_owner 3 0, 0x01010101), (R.SRC_TDM_OWN_owner 3 31, 0x01010101), (R.SRC_TDM_STATUS_state 3, 2),
    (R.SRC_TDM_CFG_auto_swap 3, 1)] video with
  frm := { video.frm with timbers := video.frm.timbers ++ [⟨tyClock, 0, 0xFF, 0, mk 64 [(7, 1, 1)]⟩] }
  ctl := { video.ctl with streams := tupd video.ctl.streams 3 fun st => { st with
    leg := 0
    tdm := true } } }

theorem witness_StagedEffects : subscribeCheck vf1 1 ⟨2, 2, 2, true, 15⟩ video = 0 ∧ owns vf1 0 1 video = true ∧
    (tfind video.ctl.legs 1).any (fun l => decide (l.st = .active ∧ l.vcodec ≠ 0)) = true ∧ egrContexts 1 1 video ≠ [] ∧
    (owns vf1 0 0 tdmState = true ∧ (tfind tdmState.ctl.legs 0).any (fun l => decide (l.acodec = 0)) = true ∧ isTdm 0 tdmState = true ∧
      tdmMode 3 tdmState = 1 ∧ tdmSlots 1 = 128 ∧ slotOwned vf1 3 127 tdmState = true ∧ slotOwned vf1 3 0 tdmState = true ∧ tdmState.src.binds = []) ∧
    (let s := { tdmState with src := { tdmState.src with binds := [(0, ⟨3, 127, 0, 2, 1000⟩)] } }
     (tdmBind 0 s).isSome = true) := by decide +kernel

theorem witness_ForwarderRows : (let x := fwdLeg 1 video
      x.nacks = [(4998, 1, 5)] ∧ stampGe 5000 (stampAdd 4998 2) = true ∧ stampGe 5000 (stampAdd 4999 2) = false ∧ 2 ≤ x.credit) ∧
    (egrContexts 1 2 video).find? (fun r => match tfind video.ctl.streams r with
      | some st => decide (st.rtxOf = 1)
      | none => false) = some 4 ∧
    (tfind video.egr.rings 1).any (fun r => decide (rwExtend r 5 = 5) && (tfind r.ents (5 % 2 ^ r.log2)).any fun w =>
      decide (w.seq = 5 ∧ w.count < 3 ∧ w.last = some 4990 ∧ max ((fwdLeg 1 video).rtt.getD 10) 10 ≤ stampSub 5000 4990)) = true ∧
    (tfind video.ctl.streams 2).any (fun st => decide (stampAfter (frameDue st (frameFirst st)) 5000 = true ∧ missingSeqs 5000 st = [65542, 65543]) &&
      (missingSeqs 5000 st).any fun q => decide ((tget (0, 0) (track 2 video).miss q).1 = 0)) = true ∧
    (video.ctl.streams.any fun p => decide (p.2.dir = 0 ∧ p.2.media = 2 ∧ p.2.rtxOf = 2)) = true ∧
    (let p : Pend := ⟨2, 0, 0, 3000⟩
     needsKey (fwdLeg 1 video) p video = true ∧ 2000 ≤ stampSub 5000 p.since ∧ choiceCtx 2 0 video = some 2) ∧
    (tfind video.ctl.legs 1).any (fun l => decide (fwdWanted 1 5000 ⟨2, 2, 2, true, 15⟩ l video = some 2) && fallAllowed 2 ⟨2, 2, 2, true, 15⟩ l video) = true ∧
    (fwdLeg 1 video).fall = .refused 3000 ∧ owns vf1 2 1 video = true ∧
    (tfind video.egr.rings 1).any (fun r => r.top.isSome) = true ∧ (tfind equipped.egr.rings 1).any (fun r => r.top.isNone) = true := by decide +kernel

/-- A path over link 0 from local address 0, and host frames of the leg in the HTX ring. -/
def htx : State := let s := local0 active
  hostWrite 0 (leBytes 2 (frame0 9).bytes.length ++ List.replicate 30 0 ++ ((frame0 9).bytes.take 34 ++ beBytes 2 5000 ++ (frame0 9).bytes.drop 36))
    { s with egr := { s.egr with legs := tupd s.egr.legs 0 fun e => { e with path := some ⟨0, 0, 0, 0, 0, [], []⟩ } } }

theorem witness_EgressRows : 3 < linkCount (fget R.ETH_MODE_eth_mode framed) ∧ 63 < 2 ^ fget (R.EGR_HTX_CFG_log2 vf1) framed ∧
    2 ^ fget (R.EGR_HTX_CFG_log2 vf1) framed ≤ 64 ∧ fon (R.EGR_HTX_CFG_enable vf1) (fset (R.EGR_HTX_CFG_enable vf1) 1 framed) = true ∧
    le (hostRead 0 32 htx) 4 2 = 0 ∧ (tfind htx.egr.legs 0).any (fun e => decide ((e.q.filter fun i => i.wire.isSome).length < 512) && e.path.isSome) = true ∧
    owns vf1 0 0 htx = true ∧ htxSource 0 ⟨0, 0, 0, 0, 0, [], []⟩ (hostRead 32 (min (le (hostRead 0 32 htx) 0 2) (2048 - 32)) htx) htx = true ∧
    le (hostRead 8192 32 (hostWrite 8196 [0xFF, 0xFF] framed)) 4 2 = 0xFFFF := by decide +kernel

/-- The taps of a bank of ratio 3/2 and delay 1, and a bank with them, filling. -/
def taps : List Int := [8388608, 8388608, 8388608, 0, 0, 8388608, 8388608, 0, 0, 0]
def bank (st : Nat) (l : List Int) : State := let s := regs [(R.SRC_BANK_SEL_bank, 7), (R.SRC_BANK_CFG_rate, 3), (R.SRC_BANK_CFG_delay, 1)] equipped
  { s with src := { s.src with banks := [(7, ⟨0, st, 3, 1, l, l.length, 0⟩)] } }
/-- A READY bank that an Act selects. -/
def bankInUse : State := { bank 2 taps with aud := { (bank 2 taps).aud with acts := tmap (bank 2 taps).aud.acts fun _ x => { x with select := some 15 } } }

theorem witness_CoefficientBanks : (let s := bank 1 taps
      let b := srcBank 7 s
      fget R.SRC_BANK_SEL_bank s = 7 ∧ bankState 7 s ≠ 3 ∧ b.st = 1 ∧ b.count < 768 ∧ fget R.SRC_BANK_CFG_rate s < 4 ∧ fget R.SRC_BANK_CFG_delay s ≠ 0 ∧
        srcN 1 3 ≤ 384 ∧ b.count = 2 * srcN 1 3 ∧ sumsOk (srcP 3 false) (b.coefs.take (srcN 1 3)) = true ∧
        sumsOk (srcP 3 true) (b.coefs.drop (srcN 1 3)) = true) ∧
    (let s := bank 1 [1]
     bankCheck 7 (srcBank 7 s) 3 1 s ≠ 0 ∧ bankCheck 7 (srcBank 7 s) 3 1 s ≠ 1) ∧
    (bankState 7 (bank 2 taps) ≠ 3 ∧ (srcBank 7 (bank 2 taps)).st ≠ 1) ∧ bankState 7 bankInUse = 3 := by decide +kernel

/-- Port 3 runs with a frame to send, a request of each kind, its DMA channels 0 and 1. -/
def port (run : Nat) (rx : Nat) : State := let s := regs [(R.SRC_TDM_STATUS_state 3, run), (R.SRC_TDM_CFG_tx_dma 3, 1), (R.DMA_CH_CFG_periph 1, 7),
    (R.DMA_CH_CFG_owner 1, 0xF0), (R.DMA_CH_STATUS_state 1, 2), (R.SRC_TDM_CFG_master 3, 0)] tdmState
  { s with
    src := { s.src with ports := [(3, ⟨List.replicate rx [], [], [[(5, 9)]], [], 0, 0, false, true, true, true, true, [], []⟩)] }
    dma := { s.dma with cur := [(1, ⟨2 * 2 + 1 + 8, 256, 0, 0, 0, 0, 0⟩)] } }

theorem witness_TdmPorts : (let s := port 2 3
      let t := tdmPort 3 s
      tdmRun 3 s = true ∧ t.txNow ≠ [] ∧ fon (R.SRC_TDM_STATUS_pin_dx 3) s = false ∧ t.rx.length < tdmFrames (tdmMode 3 s) ∧ t.takeover = false ∧
        fon (R.SRC_TDM_CFG_master 3) s = false ∧ fon (R.SRC_TDM_CFG_auto_swap 3) s = true ∧ pinDriven 3 2 s = true ∧ pinDriven 3 1 s = false ∧
        pinDriven 3 3 s = false ∧ (∀ pin ≤ 3, fget (pinFld 3 pin) s = 0) ∧ t.fifo = [] ∧ t.ready = true ∧
        fon (R.SRC_TDM_STATUS_swapped 3) s = false ∧
        countsSwapped (tdmMode 3 s) (4, 8192) = true ∧ countsSwapped (tdmMode 3 s) (4, 8130) = true) ∧
    (let s := tdmPortPut 3 { tdmPort 3 (port 2 3) with
       fifo := [List.replicate 128 7]
       tested := [(1, 1000)] } (fset (R.SRC_TDM_STATUS_pin_dx 3) 1 (port 2 3))
     (tdmPort 3 s).fifo ≠ [] ∧ (tdmPort 3 s).fifo.length < 4 ∧ fon (R.SRC_TDM_STATUS_pin_dx 3) s = true ∧
       tfind (tdmPort 3 s).tested 1 = some 1000 ∧ stampSub 2999 1000 < 2000 ∧ 2000 ≤ stampSub 3000 1000) ∧
    tdmFrames (tdmMode 3 (port 2 4)) ≤ (tdmPort 3 (port 2 4)).rx.length ∧ fget (R.SRC_TDM_STATUS_state 3) (port 1 0) = 1 ∧
    fget (pinFld 3 3) (fset (pinFld 3 3) 1 framed) ≠ 0 ∧
    (let s := port 1 0
     tdmRun 3 s = false ∧ portReq 7 s = true ∧ portReq 6 s = true ∧ portChannel 3 true s = 1 ∧ (tfind s.dma.cur (portChannel 3 false s)).isNone = decide (portChannel 3 false s ≠ 1) ∧
       (tfind s.dma.cur 1).any (fun d => decide (d.kind = 2 ∧ descCheck 1 d (portReqPut 3 true false s) = 0 ∧ d.consumed + 4 * 63 < d.length)) = true ∧
       fget (R.DMA_CH_CFG_periph 1) s = 7 ∧ dmaSt 1 s = dmRun ∧ portChannel 3 false s ≠ 1) := by decide +kernel

/-- Channel 31 is running a descriptor, with a peripheral. -/
def dmaAt (periph : Nat) (d : DmaDesc) : State := let s := regs [(R.DMA_CH_STATUS_state 31, 2), (R.DMA_CH_CFG_periph 31, periph), (R.DMA_CH_CTRL_enable 31, 1)] (port 2 1)
  { s with dma := { s.dma with cur := [(31, d)] } }

/-- A copy within the DRAM, one that overlaps, a no-operation, a port's frame received and sent, a fence, a descriptor of bad form, a bad fence. -/
theorem witness_DmaDescriptors : (∀ p ∈ [(31, (⟨1 + 8 + 16, 64, 2 ^ 28, 4096, 0, 0, 0⟩ : DmaDesc), 0, false, 0), (31, ⟨1 + 8 + 16, 64, 32, 0, 0, 0, 0⟩, 0, true, 0),
        (31, ⟨1 + 8 + 16, 64, 32, 32, 0, 0, 0⟩, 0, true, 0),
        (31, ⟨1 + 8 + 16, 64, 0, 32, 0, 0, 0⟩, 0, true, 0), (31, ⟨7, 0, 0, 0, 0, 0, 0⟩, 3, false, 0), (6, ⟨5 + 16, 256, 0, 0, 0, 0, 0⟩, 2, false, 0), (7, ⟨5 + 8, 256, 0, 0, 0, 0, 0⟩, 2, false, 0),
        (31, ⟨3 + 16, 0, 0, 4, 0, 0, 0⟩, 1, false, 0), (31, ⟨1, 16777217, 0, 0, 0, 0, 0⟩, 0, true, 1), (31, ⟨3, 0, 0, 2, 0, 0, 0⟩, 1, false, 1)],
      let s := dmaAt p.1 p.2.1
      dmaSt 31 s = dmRun ∧ descPaused 31 p.2.1 s = false ∧ p.2.1.kind = p.2.2.1 ∧ p.2.1.overlap = p.2.2.2.1 ∧
        decide (descCheck 31 p.2.1 s = 0) = decide (p.2.2.2.2 = 0)) ∧
    portReq 6 (dmaAt 6 ⟨5 + 16, 256, 0, 0, 0, 0, 0⟩) = true ∧ portReq 7 (dmaAt 7 ⟨5 + 8, 256, 0, 0, 0, 0, 0⟩) = true ∧
    dmaRingDev 31 framed = false ∧ hostOk (descAddr 31 (dmaHead 31 framed) framed) 32 framed = true := by decide +kernel

theorem witness_DmaChannels : (∀ st ≤ 5, dmaSt 31 (fset (R.DMA_CH_STATUS_state 31) st framed) = st) ∧ dmaCount 31 framed = 0 ∧
    dmaCount 31 (fset (R.DMA_CH_COUNT_count 31) 65535 framed) = 65535 ∧ dmaOwner 31 framed = 0xF0 ∧
    dmaOwner 0 (fset (R.DMA_CH_CFG_owner 0) 1 framed) = 1 ∧ fon (R.DMA_CH_CTRL_enable 31) (fset (R.DMA_CH_CTRL_enable 31) 1 framed) = true := by
  decide +kernel

/-! ## The Carousel -/

/-- Core 0's queue holds item 5 and, of a higher priority, item 6, a re-run that core 0 ran before. -/
def queue0 : State := itemPut 6 { item (.queued 0) with
  rerun := true
  ran := some 0 } (itemPut 5 (item (.queued 0)) { framed with crsl := { framed.crsl with queues := [(0, { RQueue.init with
    q := [⟨5, 3, 0⟩, ⟨6, 9, 1⟩]
    spill := [(7, 2)] })] } })

theorem witness_Prefetch : (TakesItems 0 queue0 ∧ popChoices 0 (rqGet 0 queue0) queue0 = [0] ∧ itemFind 5 queue0 = some (item (.queued 0))) ∧
    ∃ e ∈ (rqGet 0 queue0).q, MayGive 0 e queue0 := by
  refine ⟨?_, ⟨5, 3, 0⟩, by decide +kernel, fun i h => ?_⟩
  · unfold TakesItems
    decide +kernel
  · rw [show itemFind 5 queue0 = some (item (.queued 0)) by decide +kernel] at h
    cases h
    decide

theorem witness_Prefetch_none : popChoices 1 (rqGet 0 framed) framed = [] := by decide +kernel

theorem witness_ItemLife : (let s := { framed with crsl := { framed.crsl with waits := [⟨desc, none, false, none⟩] } }
      s.crsl.waits = [⟨desc, none, false, none⟩] ∧ handleRoom desc.bay s = true) ∧
    (let s : State := { run0 with crsl := { run0.crsl with waits := [⟨desc, some 5, true, none⟩] } }
     handleRoom desc.bay s = true ∧ (itemFind 5 s).isSome = true) ∧
    (itemDue desc = 1002 ∧ stampAfter 1003 1002 = true ∧ 23 ≤ (⟨1002, 23, 0, 0, 0, true⟩ : Clk).offset) ∧ (coreGet 0 run0).item = some 5 ∧
    (let s := { framed with crsl := { framed.crsl with barriers := [(3, ⟨2, 1, 1, [1], false, false⟩), (4, ⟨2, 1, 0, [], false, false⟩)] } }
     (barGet 3 s).closed = false ∧ (barGet 3 s).expected ≠ 0 ∧ (barGet 3 s).counted + (barGet 3 s).missed = (barGet 3 s).expected ∧
       (barPlace 4 0 framed).isSome = true ∧ (barGet 4 s).counted + (barGet 4 s).missed ≠ (barGet 4 s).expected) := by
  refine ⟨?_, ?_, ?_, rfl, ?_⟩
  · decide +kernel
  · decide +kernel
  · decide +kernel
  · refine ⟨by decide +kernel, by decide +kernel, by decide +kernel, ?_, by decide +kernel⟩
    unfold barPlace
    rw [Option.isSome_map]
    decide +kernel

/-- Item 5 has run, and a copy or two of it. -/
def shadows (l : List Nat) : State := (l.zip (List.range l.length)).foldl (fun s p => itemPut (6 + p.2) { item (.compare p.2) with
    copyOf := some 5
    status := p.1
    third := decide (p.2 = 1)
    ran := some (p.2 + 1) } s) (itemPut 5 { item (.compare 0) with ran := some 0 } { framed with clk := ⟨1002, 22, 0, 0, 0, true⟩ })

theorem witness_ShadowRuns : (∀ l ∈ [[0], [1], [1, 0], [1, 1], [1, 2]], let s := shadows l
      let c := (copiesOf 5 s).filterMap fun k => itemFind k s
      (itemFind 5 s).any (fun a => decide (a.st = .compare 0 ∧ a.copyOf = none ∧ s.clk.stamp = itemDue a.d ∧ 22 ≤ s.clk.offset)) = true ∧
        c.length = l.length ∧ c.all (fun b => match b.st with
          | .compare _ => true
          | _ => false) = true ∧ (c.map (·.third)) = [false, true].take l.length ∧ s.crsl.waits = []) ∧
    (let a := item (.compare 0)
     sameRun a { a with status := 1 } = false ∧ sameRun a a = true ∧ sameRun { a with status := 1 } { a with status := 2 } = false) := by decide +kernel

theorem witness_ReadyQueues : (rqGet 0 queue0).spill = [(7, 2)] ∧ (rqGet 0 queue0).q.length < (rqGet 0 queue0).cap ∧ (rqGet 0 queue0).q ≠ [] ∧ (rqGet 0 queue0).popped = false ∧
    fget (R.CRSL_QTHRESH_level 0) (fset (R.CRSL_QTHRESH_level 0) 3 queue0) = (rqGet 0 queue0).q.length + 1 ∧
    qeccEvq 63 = evqVf 15 ∧ qeccEvq 49 = evqVf 1 ∧ (evqGet (qeccEvq 49) evs).items ≠ [] := by decide +kernel

/-! ## Pictures decoded, encoded, composed, shown -/

/-- Stream 3's session on tile 67: a picture waits, or is on the engine. -/
def ckpt0 : Ckpt := ⟨1, 0, ⟨[], []⟩, 0, 7, (0, 7), none, [], [], [], 0, 0, 0, none, false, [], none, []⟩
def sess (q : List Wait) (w : Option Work) : Sess := ⟨2, 1, 3, 67, 1000, 0, 64, 64, 30, 4, 2, 2, [], [], 0, [], 0, 0, q, w, [], [], [], [], [], [], 0, 0, 0, 0, 0, 0, none,
  ⟨[], []⟩, (0, 7), none, none, false, [], [], ckpt0⟩
def waiting (r : Nat) : Wait := ⟨r, 0, 0, 0, false, [], none, false, [], none, false⟩
def decoding (q : List Wait) (w : Option Work) (last : Option Nat) : State :=
  { fset (R.VCT_TILE_STATUS_state 67) 0 framed with vid := { framed.vid with
    sess := [(3, sess q w)]
    tiles := [(67, ⟨last, none⟩)] } }

theorem witness_PictureDecoding : ∀ (p : PicSyn) (q : SeqSyn), (∀ r ∈ [996, 997], let s := decoding [waiting r] none (some 4)
      tileIn 67 s = true ∧ decBusy 67 s = none ∧ nextDecode 67 s = some 3 ∧
        (tfind (decSwitch 67 3 s).vid.sess 3).any (fun y => decide (y.queue = [waiting r] ∧ stampGe s.clk.stamp (stampAdd r y.d) = decide (r = 996))) = true ∧
        (tfind s.vid.sess 3).any (fun x => x.work.isNone && decide (x.queue = [waiting r])) = true ∧
        (tileRun 67 s).dec = some 4 ∧ cget (0x500050 + 0x4000 * 67) s < 2 ^ 64 - 1) ∧
    (let s := { decoding [] none (some 4) with vid := { (decoding [] none (some 4)).vid with sess := [(3, sess [] none), (4, sess [] none)] } }
     (tfind s.vid.sess 4).any (fun y => y.work.isNone) = true ∧ (tfind s.vid.sess 3).isSome = true) ∧
    (∀ r, decBusy 67 (decoding [] (some ⟨waiting r, p, q, 0, [], false, false, 996⟩) none) = some 3) := fun _ _ =>
  ⟨by decide +kernel, by decide +kernel, fun _ => rfl⟩

/-- Encode 0 on tile 0, its picture of tick 1000 waiting or on the engine, composed or not. -/
def encState (on done : Bool) : State := let s := encoding
  { fset (R.VCT_TILE_STATUS_state 0) 0 s with
    clk := ⟨1002, 0, 0, 0, 0, true⟩
    vid := { s.vid with
      canvas := [(0, { canvas0 with done := if done then [⟨1000, 0, 64, 64, 0, [0, 0, 0], emptyLayout, [], none, false, false, 0, 0, 0⟩] else [] })]
      encs := tmap s.vid.encs fun _ e => { e with pics := [⟨1000, on, on, 1, 0, 0, 0, [], none⟩] } } }

theorem witness_PictureEncoding : (tfind (encState false true).vid.encs 0).any (fun e => decide (e.pics.length = 1)) = true ∧
    (tfind (encState false true).vid.canvas 0).isSome = true ∧
    tileIn 0 (encState false true) = true ∧ encBusy 0 (encState false true) = none ∧ nextEncode 0 (encState false true) = some 0 ∧
    encBusy 0 (encState true true) = some 0 ∧ stampGe 1002 (stampAdd 1000 (compBlocks 64 64)) = true ∧ (encState true false).clk.stamp = 1002 ∧
    stampGe 1002 (encEnd canvas0 1000) = true ∧ stampGe 1002 (encEnd canvas0 1001) = false := by decide +kernel

/-- Canvas 0 with a composition ready. -/
def composing : State := { staged with vid := { staged.vid with
  canvas := [(0, { canvas0 with ready := [⟨999, 0, 64, 64, 0, [0, 0, 0], emptyLayout, [], none, false, false, 0, 0, 0⟩] })] } }

theorem witness_Composition : (tfind staged.vid.canvas 0).any (fun x => stampGe staged.clk.stamp (x.tick x.k) && !x.suspended && !draining x.comp staged) = true ∧
    drainHome drCanvas 0 staged = none ∧ stampGe 1000 (({ canvas0 with k := 1 } : Canvas).tick 1) = false ∧ nextComp 0 composing = some 0 ∧
    stampGe 1000 (stampAdd 999 (compBlocks 64 64)) = true ∧ stampGe 1000 (stampAdd 1000 (compBlocks 64 64)) = false := by decide +kernel

/-- The confidence output planned, its link in a state, at a rate with a number of lanes. -/
def dp (st lanes rate : Nat) : State := { regs [(R.DP_STATUS_state, st)] framed with
  clk := ⟨5000, 0, 0, 0, 0, true⟩
  frm := { framed.frm with timbers := framed.frm.timbers ++ [⟨tyClock, 0, 0xFF, 0, mk 64 [(8, 1, 1), (9, 1, 8)]⟩] }
  vid := { framed.vid with
    canvas := [(3, canvas0)]
    dp := { framed.vid.dp with
      lanes := lanes
      rate := rate
      failed := 3000 } } }

theorem witness_ConfidenceOutput : planDpEnable (dp 0 0 0) = 1 ∧ (∀ st ≤ 3, dpSt (dp st 3 3) = st) ∧ dpCarries 3 3 (dp 1 3 3) = true ∧
    dpCarries 0 0 (dp 1 0 0) = false ∧ (dp 1 3 1).vid.dp.rate = 1 ∧ 2000 ≤ stampSub (dp 3 0 0).clk.stamp (dp 3 0 0).vid.dp.failed ∧
    (bits (1 + 2 * 1024 + 4 * 8192) 0 2 < 2 ∧ bits (1 + 2 * 1024 + 4 * 8192) 10 2 ≤ 2 ∧ bits (1 + 2 * 1024 + 4 * 8192) 13 3 ≤ 4) ∧
    (bits (2 + 3 * 4) 0 2 = 2 ∧ (tfind (dp 2 3 3).vid.canvas (bits (2 + 3 * 4) 2 8)).any (fun x => !x.dp) = true) ∧
    fget R.DP_CTRL_mode (dp 2 3 3) = 1 ∧ fget R.DP_CTRL_mode (fset R.DP_CTRL_mode 2 (dp 2 3 3)) = 2 ∧ fget R.FRM_STATUS_state (dp 2 3 3) ≠ 3 ∧
    fget R.FRM_STATUS_state (fset R.FRM_STATUS_state 3 (dp 2 3 3)) = 3 ∧ (dp 2 3 3).clk.running = true := by decide +kernel

theorem witness_TileFaults : fget (R.VCT_TILE_STATUS_state 67) framed ≠ 2 ∧ fget (R.VCT_TILE_STATUS_state 67) (fset (R.VCT_TILE_STATUS_state 67) 2 framed) = 2 ∧
    (66 : Nat) ≠ 67 := by decide +kernel

/-! ## DRAM, framing, exports -/

/-- Two channels, of which the one region is mirrored; 15 rows of a device in error; channel 0's loss is due, its third alert may come. -/
def mirrored : State := { regs [(R.DDR_CH_STATUS_state 0, 2), (R.DDR_CH_STATUS_state 1, 2)] framed with
  frm := { framed.frm with timbers := [⟨tyMem, 0, 0xFF, 0, leBytes 2 3 ++ leBytes 2 1 ++ leBytes 2 0x1010 ++ List.replicate 26 0 ++ leBytes 8 0 ++ leBytes 8 (2 ^ 28) ++
    [0xF1, 0, 0, 1, 0, 1] ++ List.replicate 10 0⟩] }
  ddr := { framed.ddr with
    pop := [0, 1]
    rows := [(31, (List.range 15).map fun r => (r, 999))]
    alerts := [(0, 2)]
    due := [(0, 2)] } }

theorem witness_DramErrors : chanUp 0 mirrored = true ∧ (rowsSeen 0 1 15 14 mirrored).length < 16 ∧ 16 ≤ (rowsSeen 0 1 15 15 mirrored).length ∧
    lineOn 4194303 mirrored = [0, 1] ∧ tget 0 mirrored.ddr.alerts 0 = 2 ∧ tget 0 mirrored.ddr.alerts 1 < 2 ∧ (0, 2) ∈ mirrored.ddr.due ∧
    (0, 1) ∉ mirrored.ddr.due := by decide +kernel

/-- Operation 9 of the PF, of an image in the host's memory at 4096, in a phase. -/
def framing (kind : Nat) (st : LopSt) (ph : FrmPhase) (img : List Byte) (s : State) : State :=
  { lopPut ⟨.pf, 9, 0x11, cmd .pf 9 [], none, st, decide (st ≠ .queued), false, none, 0, 0⟩ s with
    frm := { s.frm with ops := [(lopKey .pf 9, ⟨kind, 16, 4096, 440, 0, ph, img, 440, 0, [], 0, 0, 0, 0⟩)] } }

theorem framingIn_of {fn : Fn} {tag : Nat} {ph : FrmPhase} {s : State} (h : ((lopFind fn tag s).any fun l => decide (l.st = .running)) = true)
    (k : ((frmOp fn tag s).any fun o => decide (o.phase = ph)) = true) : ∃ l o, FramingIn fn tag ph l o s := by
  obtain ⟨l, h1, h2⟩ := some_of h
  obtain ⟨o, k1, k2⟩ := some_of k
  exact ⟨l, o, h1, h2, k1, k2⟩

theorem witness_FramingPhases_dequeue : (let s := framing 1 .queued .fetch [] framed
      (lopFind .pf 9 s).any (fun l => decide (l.fn = .pf ∧ l.tag = 9 ∧ l.st = .queued) && (frmOp .pf 9 s).any fun o => mayDequeue l o s) = true) ∧
    (let s := framing 1 .queued .fetch [] State.reset
     (lopFind .pf 9 s).any (fun l => (frmOp .pf 9 s).any fun o => !mayDequeue l { o with need := 2 ^ 26 } s) = true) := by decide +kernel

theorem witness_FramingPhases_fetch : (∃ l o, FramingIn .pf 9 .fetch l o (framing 1 .running .fetch [] framed)) ∧
    (frmOp .pf 9 (framing 1 .running .fetch [] framed)).any (fun o => imgReach o (o.addr + o.img.length) 440 framed &&
      !imgReach o (o.addr + o.img.length) 440 { framed with mem := { framed.mem with linkUp := false } }) = true :=
  ⟨framingIn_of (by decide +kernel) (by decide +kernel), by decide +kernel⟩

/-- A DEVICE delta that holds its signature alone: the digest of header and table is the number below, the signature's r and s. -/
def sigR : Nat := 0x5ca65bc8056dfd5e85bb1451dae738b34eeabf6fb394b5a857aa3bed23948b7a23040323cef539316c68879b7eb9c191
def deltaHead : List Byte := leBytes 4 0x4946515A ++ leBytes 2 0x100 ++ leBytes 2 128 ++ leBytes 1 2 ++ leBytes 1 0xFF ++ leBytes 2 0 ++ leBytes 2 0x1640 ++
  leBytes 2 0xB1 ++ leBytes 4 0 ++ leBytes 4 440 ++ leBytes 8 0 ++ leBytes 4 0 ++ leBytes 4 1 ++ leBytes 4 1 ++ leBytes 4 128 ++ List.replicate 80 0
def sigEntry : List Byte := leBytes 2 0xF0 ++ leBytes 1 0 ++ leBytes 1 0xFF ++ leBytes 4 0 ++ leBytes 4 240 ++ leBytes 4 200 ++ leBytes 4 200 ++ List.replicate 92 0
def pubKey : List Byte := leBytes 1 4 ++ beBytes 48 0xbc093a88b89a14b6617590379e7cb786b37d6c0306b59b3236627f0e601ec6247c1f65ad71e9fc4fa99a4b75de52e5ac ++
  beBytes 48 0x160355685d28884492e6ccd13fac9e62ee6a79d7cfdc873e2ad3ef53b8570404826549924a02e681245f06275ea33111
def delta : List Byte := deltaHead ++ sigEntry ++ leBytes 4 0 ++ pubKey ++ leBytes 3 0 ++ beBytes 48 sigR ++ beBytes 48 sigR

/-- The key is provisioned in slot 0. -/
def signed (s : State) : State := { fset R.FRM_SIGNER_provisioned 1 s with frm := { s.frm with keyHash := [(0, sha384 pubKey)] } }


theorem witness_FramingPhases_sign : (∃ l o, FramingIn .pf 9 .sign l o (framing 1 .running .sign delta (signed framed))) ∧
    (signPhase delta (decide (1 = 0)) 440 (signed framed)).toOption = some [] ∧ (signPhase delta (decide (1 = 0)) 440 framed).toOption = none :=
  ⟨framingIn_of (by decide +kernel) (by decide +kernel), by decide +kernel, by decide +kernel⟩

/-- An image whose `n` timbers are encrypted: their tags under the zero key, or wrong ones. -/
def encImage (n : Nat) (good : Bool) : List Byte :=
  let aad := leBytes 2 10 ++ leBytes 1 0 ++ leBytes 1 0xFF ++ leBytes 4 1 ++ leBytes 4 (128 + 112 * n) ++
    leBytes 4 16 ++ leBytes 4 16 ++ leBytes 4 0
  let entry := aad ++ List.replicate 12 0 ++
    (if good then ofNats (gcmTag (List.replicate 32 0) (List.replicate 12 0) (toNats aad) (List.replicate 16 0)) else List.replicate 16 0) ++ List.replicate 60 0
  List.replicate 40 0 ++ leBytes 4 n ++ List.replicate 84 0 ++ (List.replicate n entry).flatten ++ List.replicate 16 0

/-- The timber key of the operation stands in KR0. -/
def timberKeyed (s : State) : State := { s with key := { s.key with kr0 := [(lopKey .pf 9, List.replicate 32 0)] } }

theorem witness_FramingPhases_passes : (∀ n ∈ [1, 2], (∃ l o, FramingIn .pf 9 .pass1 l o (framing 1 .running .pass1 (encImage n true) (timberKeyed framed))) ∧
      (∃ l o, FramingIn .pf 9 .pass2 l o (framing 1 .running .pass2 (encImage n true) (timberKeyed framed)))) ∧
    (∀ n ∈ [1, 2], ∀ good ∈ [true, false], ((encEntries (encImage n good))[0]?).any
      (fun p => decide (tagOk (encImage n good) (timberKey .pf 9 (timberKeyed framed)) p.2 = good)) = true ∧ (encEntries (encImage n good)).length = n) := by
  refine ⟨?_, by decide +kernel⟩
  intro n hn
  simp only [List.mem_cons, List.not_mem_nil, or_false] at hn
  obtain rfl | rfl := hn <;> exact ⟨framingIn_of (by decide +kernel) (by decide +kernel), framingIn_of (by decide +kernel) (by decide +kernel)⟩

theorem witness_FramingPhases_check : (∃ l o, FramingIn .pf 9 .check l o (framing 2 .running .check delta State.reset)) ∧
    (imageCheck delta [] .pf State.reset).toOption = some [] ∧ (imageCheck (encImage 1 true) [] .pf State.reset).toOption = none ∧
    (rolled 16 State.reset).toOption = some [] ∧ allotOk [] State.reset = true ∧ allotOk [] equipped = false ∧
    (rolled 16 { framed with frm := { framed.frm with prev := [(16, [⟨tyRing, 1, 2, 0, ring1⟩])] } }).toOption.isNone = true :=
  ⟨framingIn_of (by decide +kernel) (by decide +kernel), by decide +kernel, by decide +kernel, by decide +kernel, by decide +kernel, by decide +kernel, by decide +kernel⟩

theorem witness_SignerRevocation : (∀ k < 4, ¬ (bit 0 k = true)) ∧ (let s := regs [(R.FRM_SIGNER_provisioned, 3), (R.FRM_SIGNER_active_slot, 0)] framed
      fget R.FRM_SIGNER_revoked s = 0 ∧ bit 1 0 = true ∧ fget R.FRM_STATUS_state s = 2 ∧ fget R.FRM_SIGNER_active_slot s = 0 ∧ bit 2 1 = true ∧ bit 2 0 = false ∧
        (∀ k < 4, bit (fget R.FRM_SIGNER_provisioned s) k = true → bit 15 k = true) ∧ bit (fget R.FRM_SIGNER_provisioned s) 0 = true) := by decide +kernel

/-- An export of context 1's ring, with marks 0 and 1, without them, and under way. -/
def exporting (marks : Tbl Nat) (exps : Tbl Exp) : State := let s := video
  lopPut ⟨vf1, 9, 0x39, cmd vf1 1 [(0x25, 1, 0), (0x26, 1, 1), (0x27, 1, 1)], none, .queued, false, false, none, 0, 0⟩
    { s with egr := { s.egr with
      rings := tmap s.egr.rings fun _ r => { r with marks := marks }
      exps := exps } }

theorem witness_RewindExport : (∀ p ∈ [([(0, 4), (1, 5)], true), ([], false)], let s := exporting p.1 []
      (lopFind vf1 9 s).any (fun l => decide (l.opcode = 0x39 ∧ l.st = .queued) && (tfind s.egr.exps (lopKey vf1 9)).isNone &&
        (tfind s.egr.rings l.cmd.target).any fun r => decide ((expRange l.cmd r).isSome = p.2)) = true) ∧
    (tfind (exporting [] [(lopKey vf1 9, ⟨4, 5, 0, 0, 4⟩)]).egr.exps (lopKey vf1 9)).isSome = true := by decide +kernel

/-! ## The Safety Net -/

/-- A Bay in a state, a self-test of Bay 3 by the PF's operation 9. -/
def testing (st : Nat) : State := { regs [(R.FLT_BAY_STATUS_state 3, st)] (lopPut ⟨.pf, 9, 0x52, cmd .pf 3 [], none, .running, true, false, none, 0, 0⟩ framed) with
  flt := { framed.flt with test := some ⟨3, 0x81, .pf, 9, false, false, false, 0, 0, 0, 1000⟩ } }

theorem witness_BayLoss : MayLose 3 framed ∧ ¬ MayLose 3 (fset (R.FLT_BAY_STATUS_state 3) 1 framed) ∧
    Machine.bayQuarantine 3 (fset (R.FLT_BAY_STATUS_state 3) 2 framed) = fset (R.FLT_BAY_STATUS_state 3) 2 framed := by
  unfold MayLose
  decide +kernel

theorem witness_SelfTests : (baySt 3 (testing 3) = 3 ∧ drained 3 (testing 3) = true ∧ drained 0 equipped = false) ∧
    (baySt 3 (testing 4) = 4 ∧ nextSeg 0x81 0 = some 0 ∧ nextSeg 0x81 1 = some 7 ∧ (testing 4).flt.test.any (fun t => decide (t.bay = 3 ∧ t.mask = 0x81 ∧ t.next = 0)) = true ∧
      (lopFind .pf 9 (testing 4)).any (fun l => decide (l.st = .running) && lopActive l) = true) ∧ framed.flt.test = none := by decide +kernel

theorem witness_Lockstep : fon R.FLT_RM_STATUS_single framed = false ∧ framed.flt.rolls < 2 ∧ { framed.flt with rolls := 2 : Flt }.rolls = 2 ∧
    fon R.FLT_RM_STATUS_single (fset R.FLT_RM_STATUS_single 1 framed) = true ∧ 3 ≤ ({ framed.flt with rolls := 3 } : Flt).rolls := by decide +kernel

/-- A tile package without code, its signature of the same kind as that of the delta above. -/
def fwR : Nat := 0xd6608bf7a7cfedd53241ff6c3ac6eee3bab6e55dd175f97976bff5c0de8907ef86cf535a660572cf2559a0896e2ec76f
def fwKey : List Byte := leBytes 1 4 ++ beBytes 48 0xf2519d6f151a4ae4b8ae8577efc94dfbed9b94a9b9ccfa6f7787ea86e1183b98a6a0334d48ef9048dd92241e628342aa ++
  beBytes 48 0x59b349b774fee497433da5b7d2e26ce36edbc8ff5519647977702c7f607fdaaeef74d88fa8a3cd7c67e4dd7c76143ffc
def package : List Byte := leBytes 4 0x4654515A ++ leBytes 2 0x100 ++ leBytes 2 0x1640 ++ leBytes 4 0xB1 ++ leBytes 4 1 ++ leBytes 4 0 ++ List.replicate 44 0 ++
  beBytes 48 0x38b060a751ac96384cd9327eb1b1e36a21fdb71114be07434c0cc7bf63f6e1da274edebfe76f65fbd51ad2f14898b95b ++ List.replicate 16 0 ++
  leBytes 4 0 ++ fwKey ++ leBytes 3 0 ++ beBytes 48 fwR ++ beBytes 48 fwR

/-- A firmware swap of the PF in a phase. -/
def swap (st : LopSt) (ph : Nat) (img : List Byte) : State := { regs [(R.FRM_SIGNER_provisioned, 1)]
    (lopPut ⟨.pf, 9, 0x54, cmd .pf 0 [(0x20, 4, 328)], none, st, false, false, none, 0, 0⟩ framed) with
  frm := { framed.frm with keyHash := [(0, sha384 fwKey)] }
  vid := { framed.vid with fw := [(lopKey .pf 9, ⟨ph, img, 0, 0⟩)] } }

theorem witness_FirmwareSwap : (∀ p ∈ [(LopSt.queued, 0), (.running, 0), (.running, 1), (.running, 2), (.running, 3)], let s := swap p.1 p.2 package
      (lopFind .pf 9 s).any (fun l => decide (l.opcode = 0x54 ∧ l.st = p.1 ∧ l.fn = .pf ∧ l.tag = 9)) = true ∧
        (tget ⟨0, [], 0, 0⟩ s.vid.fw (lopKey .pf 9)).phase = p.2) ∧
    hostOk 0 328 framed = true ∧ framed.mem.linkUp = true ∧ hostOk 0 328 { framed with mem := { framed.mem with hostFail := [(0, 64)] } } = false ∧
    fwCheck fwTileMagic fwTileMax package (swap .running 1 package) = 0 ∧ fwCheck fwTileMagic fwTileMax [] framed ≠ 0 := by decide +kernel

/-! ## The cascade -/

/-- A message without a tag: member 2 to member 1. -/
def msg (ty seq : Nat) (body : List Byte) : List Byte := leBytes 1 1 ++ leBytes 1 ty ++ leBytes 1 0x12 ++ leBytes 1 0 ++ leBytes 2 0x1007 ++ leBytes 2 seq ++
  leBytes 6 999 ++ leBytes 2 body.length ++ body
def msgOf (ty : Nat) (body : List Byte) : CasMsg := ⟨ty, 2, 1, 0, 0x1007, 9, 999, body, []⟩

/-- Member 1 of a cascade with member 2; a join under way that has sent its HELLO. -/
def member (hello : Nat) (acks : Tbl Nat) (st : LopSt) : State :=
  let s := regs [(R.CAS_CFG_member, 1), (R.CAS_CFG_exch_blocks, 2)] (lopPut ⟨.pf, 9, 0x58, cmd .pf 0 [], none, st, true, false, none, 0, 0⟩ equipped)
  { s with
    clk := ⟨5000, 0, 0, 0, 0, true⟩
    ctl := { s.ctl with streams := [(7, strm 7 1 0 1 0)] }
    cas := { s.cas with
      members := [(2, 100)]
      peers := [(2, ⟨[], some 4990, 4, [0x10 * 65536 + 8], 0, 0, none, []⟩)]
      join := some ⟨.pf, 9, 4, 3000, some hello, acks, none, []⟩
      wants := [(0x2003, some 3000)] } }

theorem witness_CascadeMessages : (∀ p ∈ [(1, Instr.casHello (msg 1 9 [])), (2, .casJoinAck (msg 2 9 [])), (3, .casLeave (msg 3 9 [])), (0x10, .casAudio (msg 0x10 9 [])),
      (0x20, .casVideo (msg 0x20 9 [])), (0x21, .casVideoReq (msg 0x21 9 []))], MsgRow (msg p.1 9 []) p.1 p.2 ∧ le (msg p.1 9 []) 1 1 = p.1) ∧
    casParse [1, 1] = none ∧ (casParse (msg 1 9 [])).any (fun m => decide (m.dst = 1 ∧ m.src = 2 ∧ m.typ < 0x10) && !casVerified m (member 0 [] .running)) = true ∧
    casMe (member 0 [] .running) = 1 ∧ casMe framed ≠ 1 ∧ (∀ q ∈ [8, 9], (casParse (msg 0x10 q [])).any (fun m => decide (0x10 ≤ m.typ) &&
      decide (((casPeer 2 (member 0 [] .running)).seen.contains (m.typ * 65536 + m.seq)) = decide (q = 8))) = true) := by
  unfold MsgRow
  decide +kernel

/-- A message whose tag holds under the cascade's key. -/
theorem witness_CascadeMessages_authentic : let h : List Byte := leBytes 1 1 ++ leBytes 1 3 ++ leBytes 1 0x12 ++ leBytes 1 1 ++ leBytes 2 0 ++ leBytes 2 9 ++ leBytes 6 999 ++ leBytes 2 22
    let b : List Byte := leBytes 6 6000
    let s := { framed with key := { framed.key with kr1 := List.replicate 32 0 } }
    (casParse (h ++ b ++ casTag (List.replicate 32 0) h b)).any (fun m => decide (m.typ = 3) && casVerified m s) = true := by decide +kernel

theorem witness_CascadeEffects : (let m := msgOf 1 (leBytes 8 0 ++ leBytes 8 5000 ++ leBytes 4 (2 * 65536))
      let s := member 4980 [] .running
      m.typ = 1 ∧ stampSub s.clk.stamp (le m.body 8 6) ≤ 1 ∧ le m.body 18 1 = casX s ∧ m.src ≠ casMe s ∧ inForce m.src s.clk.stamp s = true ∧
        inForce 3 s.clk.stamp s = false) ∧
    (let m := msgOf 2 (leBytes 16 6000)
     (member 4980 [] .running).cas.join.any (fun j => j.start.isNone && bit j.mask m.src && decide (le m.body 10 1 = 0)) = true) ∧
    tfind (member 4980 [] .running).cas.members 3 = none ∧ tfind (member 4980 [] .running).cas.members 2 ≠ none ∧
    stampGe 5000 (stampAdd 4998 3) = false ∧ stampGe 5000 (stampAdd 4997 3) = true ∧ casX (member 4980 [] .running) = 2 ∧
    (∀ k ≤ 3, let m := msgOf 0x21 (leBytes 1 k); m.subject / 4096 % 16 = casMe (member 4980 [] .running) ∧ le m.body 0 1 = k ∧
      bridgeCtx m.subject (member 4980 [] .running) = some 7) := by decide +kernel

theorem witness_CascadeTimers : (∀ st ∈ [LopSt.running, .cancelling], let s := member 4980 [] st
      s.cas.join.any (fun j => j.start.isNone && j.hello.any (fun h => decide (20 ≤ stampSub s.clk.stamp h)) && !joinAcked j &&
        decide (2000 ≤ stampSub s.clk.stamp j.began) && (lopFind j.fn j.tag s).any fun l => lopActive l && decide (l.st = st)) = true) ∧
    (member 4981 [(2, 6000)] .running).cas.join.any (fun j => joinAcked j && j.hello.any fun h => decide (stampSub 5000 h < 20)) = true ∧
    (let s := member 4980 [] .running
     tfind s.cas.members 2 ≠ none ∧ 4 ≤ (casPeer 2 s).missed ∧ (casPeer 3 s).missed < 4 ∧ tfind s.cas.wants 0x2003 = some (some 3000) ∧
       2000 ≤ stampSub s.clk.stamp 3000) ∧
    framed.key.kr1 = [] ∧ ((List.range 8).map fun i => (i, i)).length = 8 ∧ framed.cas.words.length ≠ 8 := by decide +kernel

/-! ## Boot, power, SPI -/

def inPhase (n : Nat) : State := fset R.PWR_STATUS_phase n framed

/-- Slots whose headers give size 0. -/
def blank : State := [0x10, 0x200010, 0x400014, 0x1400014].foldl (fun s a => spiWrite a (leBytes 4 0) s) framed

theorem witness_BootPhases : BootRow 8 (.portsStarted 0) ∧ (∀ n ≤ 8, phase (inPhase n) = n) ∧ phase framed ≠ 8 ∧ fwSlotCode 0 blank ≠ 0 ∧ fwSlotCode 1 blank ≠ 0 ∧
    (imgBoot 0 blank).toOption.isNone = true ∧ (imgBoot 1 blank).toOption.isNone = true ∧ planRefclk framed < 2 ∧ planFits [0, 1] mirrored = true ∧
    planFits [] mirrored = false := by
  refine ⟨by simp [BootRow], by decide +kernel⟩

theorem witness_Stops : MayStop framed ∧ phase framed ≠ 10 ∧ phase (inPhase 10) = 10 ∧ phase (inPhase 14) = 14 ∧ phase (inPhase 13) = 13 ∧ 920 ≤ eighths 920 ∧
    eighths 919 < 920 ∧ eighths 0xFFFF < 920 ∧ (15 : Nat) < 16 := by
  unfold MayStop
  decide +kernel

/-- What holds a STOPPED part: a thermal stop not yet cool; one that is cool and was pulsed; a save that waits. -/
theorem witness_Stops_held : ∀ v : LdgSave, ({ framed.pwr with stop := some 4, cool := false } : Pwr).stop = some 4 ∧ ({ framed.pwr with stop := some 4, cool := false } : Pwr).cool = false ∧
    ({ framed.pwr with stop := some 4, cool := true, pulsed := true } : Pwr).pulsed = true ∧ ({ framed.pwr with save := some v } : Pwr).save = some v :=
  fun _ => ⟨rfl, rfl, rfl, rfl⟩

theorem witness_HoldUp : framed.clk.running = true ∧ framed.pwr.tested = none ∧ 7200000 ≤ stampSub 7201000 1000 ∧ stampSub 7200999 1000 < 7200000 ∧
    (-200 : Int) ≤ -200 ∧ (500 : Int) ≤ 500 ∧ (3099 : Int) < 3100 ∧ (3100 : Int) ≤ 3100 ∧ (3099 : Int) < 3100 ∧ fget R.PWR_HOLDUP_STATUS_state framed ≠ 3 := by decide +kernel

theorem witness_KeeperWatch : fget R.PWR_CLK_STATUS_ref framed = 0 ∧ fget R.PWR_CLK_STATUS_ref framed ≠ 1 ∧ refGood 1 (fset R.PWR_CLK_STATUS_b_good 1 framed) = true ∧
    refGood 1 (fset R.PWR_CLK_STATUS_b_good 0 framed) = false ∧ fget R.PWR_THERM_CFG_warn framed = 100 ∧ eighths 799 < 800 ∧ 800 ≤ eighths 800 ∧
    fon (R.PWR_THERM_warn 7) framed = false ∧ fon (R.PWR_THERM_warn 7) (fset (R.PWR_THERM_warn 7) 1 framed) = true ∧ (∀ n < 8, fon (R.PWR_THERM_warn n) framed = false) := by
  decide +kernel

theorem witness_SpiNor : (∀ p ∈ [(1, Instr.spiErase), (2, .spiProgram), (3, .spiRead), (4, .spiVerifyFw), (5, .spiVerifyImage)], spiRows p.1 p.2) ∧
    fon R.PWR_SPI_STATUS_busy framed = false ∧ fon R.PWR_SPI_STATUS_busy (fset R.PWR_SPI_STATUS_busy 1 framed) = true ∧
    (∀ op a, ({ framed with pwr := { framed.pwr with spi := some (op, a) } } : State).pwr.spi = some (op, a)) ∧ 0x2400000 - 65536 < 0x2400000 ∧
    (0x2400000 - 65536) % 65536 = 0 ∧ (0x2400000 - 1) % 256 ≠ 0 ∧ (0x2400000 - 1) % 65536 ≠ 0 := by
  refine ⟨?_, by decide +kernel, by decide +kernel, fun _ _ => rfl, by decide, by decide, by decide, by decide⟩
  unfold spiRows
  decide +kernel

/-! ## Every command, the invariant, single rules -/

theorem witness_StepRunsCommand : ∃ c rest s, (s : State).pending = c :: rest := ⟨.pcieLinkDown, [.pcieLinkUp], { State.reset with pending := [.pcieLinkDown, .pcieLinkUp] }, rfl⟩

theorem witness_EmptyQueueTicks : State.reset.pending = [] ∧ State.reset.clk.offset < 23 ∧ 23 ≤ (⟨0, 23, 0, 0, 0, false⟩ : Clk).offset := by decide +kernel

theorem witness_EveryCommandsFrame : ∃ (c : Instr) (s : State), s.pending = [] ∧ c = .pciePerst := ⟨.pciePerst, framed, rfl, rfl⟩

/-- Registers and latencies (R206, R217): at every register of each kind, on a core at reset. -/
theorem witness_ResultLatencies : Core.init.c (0x18 + 7) = 0 ∧ (∀ w ∈ Core.init.pend, w.tgt < 35 ∨ 64 ≤ w.tgt) ∧ (31 : Nat) < 32 := by decide +kernel

theorem witness_RingStatusResult : ∃ c s, czero c 0x18 = true ∧ Enters 0x02 c s ∧ c.fn = .vf 1 := ⟨cmd vf1 0 [], framed, by decide +kernel, enters_of (by decide +kernel), rfl⟩

theorem witness_ScaMeasures : keyCount (keyed framed) ≠ 0 ∧ keyValid 3 framed = false ∧ (match exec .keyOpComplete (keyQueued (req12 12 1 3 1) framed) with
    | .next t => keyValid 3 t
    | _ => false) = true := by decide +kernel

theorem witness_KeyCheckValue : (aesEnc (List.replicate 16 0) (List.replicate 16 0)).length = 16 := by decide +kernel

theorem witness_OutPicture : let x : Sess := { sess [] none with outs := [⟨995, 996, 0, 1⟩, ⟨996, 997, 1, 2⟩] }
    x.outAt 1000 = some ⟨995, 996, 0, 1⟩ ∧ x.outAt 999 = none := by decide +kernel

theorem witness_Watchdog : MayStop framed ∧ fon R.GLB_AON_CFG_wdt_en (fset R.GLB_AON_CFG_wdt_en 1 framed) = true ∧
    fon R.GLB_AON_CFG_wdt_en (fset R.GLB_AON_CFG_wdt_en 0 framed) = false ∧ fon R.PWR_WDT_CFG_action (fset R.PWR_WDT_CFG_action 1 framed) = true := by
  unfold MayStop
  decide +kernel

theorem witness_AuthFailures : let s := { active with hif := { active.hif with rate := [(rateKey EV_AUTH_FAIL 0, 999)] } }
    (tfind s.ctl.streams 0).isSome = true ∧ (tfind s.hif.rate (rateKey EV_AUTH_FAIL 0)).any (fun b => decide (stampSub s.clk.stamp b < 2000)) = true ∧
    (tfind active.hif.rate (rateKey EV_AUTH_FAIL 0)).isNone = true := by decide +kernel

theorem witness_InvariantKept : Sound framed ∧ ∃ t, step framed = .next t :=
  ⟨⟨by unfold memOk; decide +kernel, by unfold regsOk; decide +kernel, by unfold cntOk; decide +kernel, by unfold cntOk; decide +kernel,
    by unfold clkOk; decide +kernel⟩, idle framed, by
    have h : framed.pending = [] := by decide +kernel
    simp only [step, h]⟩

/-- A shown key picture of layer 0, without sequence parameters of its own. -/
def intra : PicSyn := ⟨[], [], 0, 64, 64, [], false, 0, 0, 1, [], [], [], 0, [0], [], true, none, 0, false, false, [], 0⟩

theorem witness_DecodeRate : let x : Sess := { sess [waiting 996] none with acc := List.replicate 30 (0, 990) }
    let y := ((({ x with queue := x.queue.drop 1 } : Sess).takeSets intra).aim (track 3 framed).av1 (waiting 996) intra).noteId (waiting 996)
    intra.sid ≤ y.sid ∧ intra.tid ≤ y.tid ∧ y.fps ≤ (y.acc.filter fun a => decide (a.1 = intra.sid) && decide (stampSub (waiting 996).release a.2 < 2000)).length := by
  decide +kernel

/-! ## A full image -/

def entry (ty off n d : Nat) : List Byte := leBytes 2 ty ++ leBytes 1 0 ++ leBytes 1 0xFF ++ leBytes 4 0 ++ leBytes 4 off ++ leBytes 4 n ++ leBytes 4 n ++
  List.replicate 44 0 ++ beBytes 48 d
def imgBays : List Byte := ((List.range 4).map fun i => leBytes 4 i ++ leBytes 4 0 ++ leBytes 4 1 ++ List.replicate 20 0).flatten ++ List.replicate 1024 0
def clocks : List Byte := mk 32 [(9, 1, 8), (12, 4, 6400)]
def oneRegion : List Byte := mk 64 [(0, 2, 3), (2, 2, 1), (4, 2, 0x1010), (40, 8, 2 ^ 25), (48, 6, 0x100010008f0)]
def policy : List Byte := mk 32 [(8, 1, 8)]
def fullR : Nat := 0xb4af5a62a8e7175c3516fbe97c94303745df612e3e5a8e97f0e13d24c491e13a7b70f3baffcf509ba6e151595b08e752
def fullKey : List Byte := leBytes 1 4 ++ beBytes 48 0x5d7f0785f9daddef74712c86cc98c15fa6c4c275de616e82c5b19f85e0393bf1487e1c6be425daa03e76dfb18adf484 ++
  beBytes 48 0xe5a5f7250fa20284f31d6462828ab6a92e60279fdbf5d040f215ac08973c580e87f32cfe73be73f22032fc5326d70651

/-- The device's timbers with no Ring, no kernel and the least memory plan, its signature of the same kind as the delta's. -/
def fullImg : List Byte := leBytes 4 0x4946515A ++ leBytes 2 0x100 ++ leBytes 2 128 ++ leBytes 1 0 ++ leBytes 1 0xFF ++ leBytes 2 0 ++ leBytes 2 0x1640 ++
  leBytes 2 0xB1 ++ leBytes 4 2 ++ leBytes 4 2408 ++ leBytes 8 0 ++ leBytes 4 0 ++ leBytes 4 1 ++ leBytes 4 7 ++ leBytes 4 128 ++ List.replicate 80 0 ++
  entry 1 912 1152 0x92942dcb0b8aaadff9b62692de413b8cd86aeac6ef2712179554886116bd328c4141ba7ab3b27872523f5123caa50194 ++
  entry 4 2064 32 0xe62accf94ea91a54fd9df6d31017f0332a80617c5045c3d2a02fc4f1324bc562a2455a244a1d2e4fab0702d2e69e89b0 ++
  entry 5 2096 64 0xdb775cda38052eef2b8b927f352acf7d86a76df86899ce7ab920dc310cd08e24388d726ebcb48787f07eab21fd7e350c ++
  entry 8 2160 32 0x6565026554a8e49c678ac74ddaaa7993d045fb5c533af49133ae1a4d490d0ac23f7c7bdeaa888108276ca0904f01978a ++
  entry 3 2192 0 0x38b060a751ac96384cd9327eb1b1e36a21fdb71114be07434c0cc7bf63f6e1da274edebfe76f65fbd51ad2f14898b95b ++
  entry 7 2192 0 0x38b060a751ac96384cd9327eb1b1e36a21fdb71114be07434c0cc7bf63f6e1da274edebfe76f65fbd51ad2f14898b95b ++
  entry 0xF0 2208 200 0 ++ imgBays ++ clocks ++ oneRegion ++ policy ++ List.replicate 16 0 ++ leBytes 4 0 ++ fullKey ++ leBytes 3 0 ++ beBytes 48 fullR ++ beBytes 48 fullR


def provisioned (k : List Byte) : State := regs [(R.FRM_SIGNER_provisioned, 1)] { State.reset with frm := { State.reset.frm with keyHash := [(0, sha384 k)] } }

/-- An empty firmware of the same kind. -/
def rmR : Nat := 0xc5c1798268912f410f54eb8001a6b8c7221b0332d3580ad0ae156c455396bac489c52a382dbb4c2f0f10e7a0d7ad141c
def rmKey : List Byte := leBytes 1 4 ++ beBytes 48 0xa5abcd6fe4301fda6f3df43bdf848950e2cf5c229c4ad389f89a856991071d25b07020b53777548a35c1c421b6043dbb ++
  beBytes 48 0x18ebe59cdf9f4636172072469d53c4870bd2b7069999e46f84017c18e36d763839c00fbf09daaf76e733cc981edb7244
def rmCode : List Byte := leBytes 4 0x4652515A ++ leBytes 2 0x100 ++ leBytes 2 0x1640 ++ leBytes 4 0xB1 ++ leBytes 4 1 ++ leBytes 4 0 ++ List.replicate 44 0 ++
  beBytes 48 0x38b060a751ac96384cd9327eb1b1e36a21fdb71114be07434c0cc7bf63f6e1da274edebfe76f65fbd51ad2f14898b95b ++ List.replicate 16 0 ++
  leBytes 4 0 ++ rmKey ++ leBytes 3 0 ++ beBytes 48 rmR ++ beBytes 48 rmR

theorem spiRead_spiWrite (s : State) (a n : Nat) (l : List Byte) (h : n ≤ l.length) : spiRead a n (spiWrite a l s) = l.take n := by
  apply List.ext_getElem?
  intro i
  have hi := fun k => Memory.read_writeN_inside s.mem.spi a k (l.map fun b => ~~~b)
  simp only [spiRead, spiWrite, Memory.readN, List.map_map, List.getElem?_map, List.getElem?_take]
  by_cases c : i < n
  · have hl : i < (l.map fun b => ~~~b).length := by simp; omega
    have hl' : i < l.length := by omega
    simp [c, hi i hl, hl']
  · simp [c]

theorem witness_BootPhases_firmware : fwSlotCode 0 (spiWrite 0 rmCode (provisioned rmKey)) = 0 ∧ fwSlotCode 1 (spiWrite 0x200000 rmCode (provisioned rmKey)) = 0 := by
  have hl : rmCode.length = 328 := by decide +kernel
  have h0 : le (rmCode.take 128) 0x10 4 = 0 := by decide +kernel
  have hc : fwCheck fwRmMagic fwRmMax rmCode (provisioned rmKey) = 0 := by decide +kernel
  have hs : ∀ a l, fwCheck fwRmMagic fwRmMax rmCode (spiWrite a l (provisioned rmKey)) = fwCheck fwRmMagic fwRmMax rmCode (provisioned rmKey) := fun _ _ => rfl
  have ht : rmCode.take 328 = rmCode := List.take_of_length_le (by omega)
  constructor <;> simp only [fwSlotCode, Nat.zero_mul, Nat.one_mul] <;>
    rw [spiRead_spiWrite _ _ 128 _ (by omega), h0, Nat.zero_min, Nat.zero_add, spiRead_spiWrite _ _ 328 _ (by omega), ht, hs, hc]

theorem imgBoot_isSome (n : Nat) (s : State) (img : List Byte) (p : Tbl (List Byte)) (hb : imgSlotBytes n s = img) (hv : (imgVerify img s).toOption = some p)
    (hk : (checkFail img p []).toOption.isSome = true) : (imgBoot n s).toOption.isSome = true := by
  unfold imgBoot
  rw [hb]
  cases e : imgVerify img s with
  | error x => rw [e] at hv; cases hv
  | ok q =>
    rw [e] at hv
    cases hv
    cases f : checkFail img p [] with
    | error x => rw [f] at hk; cases hk
    | ok m => simp [e, f, Except.toOption]

theorem full_verified : (imgVerify fullImg (provisioned fullKey)).toOption = some [] := by decide +kernel

theorem full_checked : (checkFail fullImg [] []).toOption.isSome = true := by decide +kernel

theorem full_read (s : State) : imgSlotBytes 0 (spiWrite 0x400000 fullImg s) = fullImg := by
  have hl : fullImg.length = 2408 := by decide +kernel
  have h0 : le (fullImg.take 128) 0x14 4 = 2408 := by decide +kernel
  have hm : max 128 (min maxImage 2408) = 2408 := by decide
  have ht : fullImg.take 2408 = fullImg := List.take_of_length_le (by omega)
  simp only [imgSlotBytes, Nat.zero_mul, Nat.add_zero]
  rw [spiRead_spiWrite _ _ 128 _ (by omega), h0, hm, spiRead_spiWrite _ _ _ _ (by omega), ht]

theorem imgVerify_spiWrite (i l : List Byte) (a : Nat) (s : State) : imgVerify i (spiWrite a l s) = imgVerify i s := rfl

theorem witness_BootPhases_image : (imgBoot 0 (spiWrite 0x400000 fullImg (provisioned fullKey))).toOption.isSome = true :=
  imgBoot_isSome 0 _ fullImg [] (full_read _) ((congrArg Except.toOption (imgVerify_spiWrite _ _ _ _)).trans full_verified) full_checked

theorem full_read_b (s : State) : imgSlotBytes 1 (spiWrite 0x1400000 fullImg s) = fullImg := by
  have hl : fullImg.length = 2408 := by decide +kernel
  have h0 : le (fullImg.take 128) 0x14 4 = 2408 := by decide +kernel
  have hm : max 128 (min maxImage 2408) = 2408 := by decide
  have ht : fullImg.take 2408 = fullImg := List.take_of_length_le (by omega)
  have ha : 0x400000 + 1 * 0x1000000 = 0x1400000 := by decide
  simp only [imgSlotBytes, ha]
  rw [spiRead_spiWrite _ _ 128 _ (by omega), h0, hm, spiRead_spiWrite _ _ _ _ (by omega), ht]

theorem spiRead_outside (s : State) (a b n : Nat) (l : List Byte) (h : a + n ≤ b) : spiRead a n (spiWrite b l s) = spiRead a n s := by
  simp only [spiRead, spiWrite, Memory.readN, List.map_map]
  refine List.map_congr_left fun i hi => ?_
  have hi := List.mem_range.1 hi
  simp only [Function.comp]
  rw [Memory.read_writeN_outside _ _ _ _ (.inl (by omega))]

/-- Slot A's header gives size 0. -/
def noA : State := spiWrite 0x400014 (leBytes 4 0) (provisioned fullKey)

theorem noA_bytes (s : State) (h : spiRead 0x400000 128 s = spiRead 0x400000 128 noA) : imgSlotBytes 0 s = imgSlotBytes 0 noA := by
  have h0 : le (spiRead 0x400000 128 noA) 0x14 4 = 0 := by decide +kernel
  have hm : max 128 (min maxImage 0) = 128 := by decide
  simp only [imgSlotBytes, Nat.zero_mul, Nat.add_zero]
  rw [h, h0, hm, h]

theorem imgBoot_isNone (n : Nat) (s t : State) (l : List Byte) (a : Nat) (hb : imgSlotBytes n (spiWrite a l s) = imgSlotBytes n t)
    (hv : (imgVerify (imgSlotBytes n t) s).toOption = none) : (imgBoot n (spiWrite a l s)).toOption = none := by
  unfold imgBoot
  simp only [hb, imgVerify_spiWrite]
  cases e : imgVerify (imgSlotBytes n t) s with
  | error x => rfl
  | ok q => rw [e] at hv; cases hv

theorem witness_BootPhases_slot_b : let s := spiWrite 0x1400000 fullImg noA
    (imgBoot 0 s).toOption = none ∧ (imgBoot 1 s).toOption.isSome = true :=
  ⟨imgBoot_isNone 0 noA noA fullImg 0x1400000 (noA_bytes _ (spiRead_outside _ _ _ _ _ (by decide))) (by decide +kernel),
    imgBoot_isSome 1 _ fullImg [] (full_read_b _) ((congrArg Except.toOption ((imgVerify_spiWrite _ _ _ _).trans (imgVerify_spiWrite _ _ _ _))).trans full_verified)
      full_checked⟩

/-! ## Well-formedness -/

def good : Cmd := cmd .pf 0 []
def short : Cmd := { good with args := [] }
def layer8 : PicSyn := { intra with sid := 8 }
def itemDesc : ItemDesc := ⟨0, false, 0, 0, 0, 0, 0, 0, [0, 0, 0, 0], 0⟩

/-- Each check of a command entry, of a descriptor, of a picture's syntax, of a voltage refuses what it should. -/
theorem test_wf_parts : cmdOk good = true ∧ ([{ good with fn := .vf 16 }, { good with flags := 2 }, { good with tag := 2 ^ 32 }, { good with effectStamp := 2 ^ 48 },
      { good with target := 2 ^ 32 }, { good with reserved := 1 }, short].all fun c => !cmdOk c) = true ∧
    itemOk itemDesc = true ∧ ([{ itemDesc with kernel := 256 }, { itemDesc with subject := 16384 }, { itemDesc with stamp := 2 ^ 48 },
      { itemDesc with stage := 3 }, { itemDesc with ring := 16 }, { itemDesc with barrier := 2 ^ 17 }, { itemDesc with ordinal := 2 ^ 15 },
      { itemDesc with ptrs := [] }, { itemDesc with ptrs := [0, 0, 0, 2 ^ 32] }, { itemDesc with bay := 4 }].all fun d => !itemOk d) = true ∧
    offOk .pf (2 ^ 26 - 1) = true ∧ offOk .pf (2 ^ 26) = false ∧ offOk (.vf 3) (2 ^ 20) = false ∧ offOk (.vf 3) (2 ^ 40 + 4095) = true ∧
    MbxPath.ok (.smbus 127) = true ∧ MbxPath.ok (.smbus 128) = false ∧
    picOk { intra with vis := [0, 0, 64, 64] } = true ∧ ([layer8, { intra with vis := [0, 0, 64, 64], sid := 8 }, { intra with vis := [0, 0, 64, 64], tid := 8 }, intra,
      { intra with vis := [0, 0, 64, 64], errors := [⟨false, 0, 0, [0, 0, 1, 1], 1, 1⟩] }, { intra with vis := [0, 0, 64, 64], seqs := [(0, ⟨0, false, 0, 64, 64, 8, 1, false, 0, none, false, none, []⟩)] }].all fun p => !picOk p) = true ∧
    voltOk (-3600) = true ∧ voltOk 3600 = true ∧ voltOk (-3601) = false ∧ voltOk 3601 = false ∧ fnOk (.vf 15) = true ∧ fnOk (.vf 16) = false := by decide +kernel

/-- Every command with its least operands is well formed. -/
theorem test_wf_a : (([.blockStart [], .telemetrySnapshot .pf, .rtcpReportSend 0, .stampFloorWrite,
    .ddrRetrainPause 0 0, .ptpPps, .commandFetch .pf, .nop good,
    .identify good, .ringStatus good, .lopQuery good, .lopSuspend good,
    .lopResume good, .lopCancel good, .framingLoad good, .framingDelta good,
    .framingRollback good, .framingDequeue .pf 0, .framingFetchChunk .pf 0, .framingSignDone .pf 0,
    .framingPass1Timber .pf 0, .framingPass2Timber .pf ⟨0, false⟩, .framingCheckDone .pf 0, .actAdmit good,
    .actRelease good, .legAdmit good, .legStart good, .legRoute good,
    .legRelease good, .legDrainEnd 0, .streamAdmit good, .streamRelease good,
    .keyBind good, .rekeyGraceEnd 0, .canvasAdmit good, .canvasRelease good,
    .encodeAdmit good, .encodeRelease good, .audSafeLoad good, .layoutSet good,
    .keypicRequest good, .shaperSet good, .rewindMark good, .rewindExport good,
    .rewindExportChunk .pf 0, .capture good, .replay good, .telemetrySet good,
    .keyZeroise good, .zeroiseAck, .bayQuarantine good, .bayWarmReset good,
    .baySelftest good, .bayReturn good, .bayDrainComplete 0, .selftestSegmentDone 0 0 [],
    .tileFwSwap good, .fwSwapPhaseDone .pf 0 false, .cascadeJoin good, .cascadeLeave good,
    .faultlogRead good, .mbxIdentity .config 0 false, .mbxStatus .config 0 false, .mbxFaultlogRead .config 0 false 0,
    .mbxKeyZeroise .config 0 false 0, .mbxBayQuarantine .config 0 false 0, .mbxBayWarmReset .config 0 false 0, .wdtKick .config 0 false,
    .smbusResponseRead, .smbusBusRecovery, .cmdSqTailWrite .pf 0, .cmdCqHeadWrite .pf 0,
    .cmdResultAck .pf 0, .cmdEnable .pf 0, .sqHaltedClear .pf, .cqHaltedClear .pf,
    .intEvqHeadWrite .pf 0 0, .eventDeliver .pf 0 0, .reg64HalfRead .pf 0, .reg64HalfWrite .pf 0 0] : List Instr).all fun i => i.wf) = true := by
  decide +kernel

/-- Every command with its least operands is well formed. -/
theorem test_wf_b : (([.registerWrite .pf 0 false 0, .functionLevelReset .pf, .pcieLinkDown, .frameReceive 0 [] false 0 0 0,
    .cipherVerdict 0, .videoFrameTimeout 0 0, .bufferResizeEffect 0 0, .ingJrResize 0,
    .ingExcHeadWrite .pf 0, .ethLinkEnable 0, .ethLinkDisable 0, .linkSignalDetect 0,
    .linkAcquireTimeout 0, .linkTrainDone 0, .linkTrainTimeout 0, .linkLock 0 0 false,
    .linkLockTimeout 0, .fecCodewordLock 0, .linkFault 0 0, .linkDegradeDetect 0 0,
    .ptpTimeSet 0, .ptpNsRead, .ptpStep 0, .keyLoad .pf,
    .keyErase .pf, .keyAbort .pf, .keyLoadDataWrite .pf 0 0, .keyOpComplete,
    .keySlotError 0, .scaCfgWrite 0, .entropyHealthFail, .srcSelectFilter .pf,
    .srcBindSlot .pf, .srcUnbindSlot .pf, .srcBankCoefWrite 0, .srcBankCommit,
    .srcBankAbort, .srcBankClear, .tdmFrame 0 [], .tdmClockLoss 0,
    .tdmDmaRequest 0 false, .periphWithdraw 0 false 0, .tdmPinShort 0 0 false, .tdmPinTest 0 0 false false,
    .tdmPinRetest 0 0 false, .tdmAutoSwap ⟨0, [], []⟩, .tdmDupTakeover 0, .debugEnable 0 0,
    .debugHaltRequest 0, .debugStep 0, .debugResume 0, .debugInterrupt 0,
    .coreHwFault 0 0, .tmbNop 0, .tmbAdd 0 false 0 0 0, .tmbSub 0 false 0 0 0,
    .tmbAnd 0 0 0 0, .tmbOr 0 0 0 0, .tmbXor 0 0 0 0, .tmbShl 0 false 0 0 0,
    .tmbShr 0 0 0 0, .tmbShrl 0 0 0 0, .tmbShlv 0 false 0 0 0, .tmbShrv 0 0 0 0,
    .tmbMin 0 0 0 0, .tmbMax 0 0 0 0, .tmbAbs 0 false 0 0, .tmbNeg 0 false 0 0,
    .tmbMullo 0 false 0 0 0, .tmbClz 0 0 0, .tmbSext16 0 0 0, .tmbPack 0 0 0 0,
    .tmbCmplt 0 0 0 0, .tmbCmpeq 0 0 0 0, .tmbCmpltu 0 0 0 0, .tmbRda 0 false 0 0 false 0,
    .tmbRdah 0 0 0, .tmbWra 0 false 0 0 0, .tmbAdda 0 false 0 0 0, .tmbSuba 0 false 0 0 0] : List Instr).all fun i => i.wf) = true := by
  decide +kernel

/-- Every command with its least operands is well formed. -/
theorem test_wf_c : (([.tmbClra 0 0, .tmbSat24 0 0 0, .tmbAddi 0 false 0 0 0, .tmbAndi 0 0 0 0,
    .tmbOri 0 0 0 0, .tmbXori 0 0 0 0, .tmbMovi 0 0 0, .tmbMovhi 0 0 0,
    .tmbCmplti 0 0 0 0, .tmbCmpeqi 0 0 0 0, .tmbLdw 0 0 false false 0 0, .tmbLdh 0 0 false false 0 0,
    .tmbLdhu 0 0 false false 0 0, .tmbStw 0 0 false false 0 0, .tmbSth 0 0 false false 0 0, .tmbBeqz 0 0 0,
    .tmbBnez 0 0 0, .tmbBltz 0 0 0, .tmbBgez 0 0 0, .tmbBr 0 0,
    .tmbBlc 0 0, .tmbCall 0 0, .tmbRet 0, .tmbMtc 0 0 0,
    .tmbMfc 0 0 0, .tmbXrd 0 0, .tmbXwr 0 0, .transferComplete 0 0,
    .tmbWaitx 0 0, .tmbEnd 0, .tmbReti 0, .tmbBkpt 0 0,
    .tmbFault 0 0, .tmbMac 0 0 false 0 0 0 0 false 0 0 false, .tmbMsu 0 0 false 0 0 0 0 false 0 0 false, .tmbMpy 0 0 false 0 0 0 0 false 0 0 false,
    .tmbLdp 0 0 0 false 0 0 false, .corePrefetch 0 ⟨0, false⟩, .itemHandleRetry, .deadlineMiss 0,
    .itemHung 0, .barrierClose 0 [], .shadowCompare 0, .shadowAbandon 0,
    .queueSpillRepush 0, .queueEccRescan 0 0, .decodePictureStart 0 { intra with vis := [0, 0, 64, 64] }, .decodePictureComplete 0,
    .decodePictureMissed 0 { intra with vis := [0, 0, 64, 64] }, .tileHwFault 0, .encodePictureStart 0, .encodePictureComplete 0 ⟨0, [], [], 0, [], 0, 0⟩,
    .repeatPicture 0 0, .canvasTick 0, .compositionComplete 0 [], .compositionMissed 0,
    .dpFrameStart, .dpCtrlWrite 0, .dpHpdHigh 0, .dpTrainPass 0,
    .dpTrainStepFail, .dpRetryTimer, .dpHpdIrq, .dpHpdLow,
    .receiverNack 0, .upstreamNack 0, .firEscalation 0, .fallbackOpenRetry 0,
    .fwdSubscribe .pf, .fwdUnsubscribe .pf, .fwdSetLegCap .pf, .fwdRwResize .pf 0,
    .transmitWindow 0, .htxFrameSubmit .pf 0, .schedulerTakeover 0, .ddrEccCorrected 0 0 0 0,
    .ddrEccUncorrectable 0 0 false [] [], .ddrCaParityAlert 0 false, .ddrChannelLoss 0 0 [] [], .ledgerEcc 0 0] : List Instr).all fun i => i.wf) = true := by
  decide +kernel

/-- Every command with its least operands is well formed. -/
theorem test_wf_d : (([.dmaChAdd .pf 0 0, .dmaDescriptorComplete 0, .dmaFenceComplete 0, .dmaStop 0,
    .dmaAbort 0 0, .dmaResume 0, .dmaEnable 0 false, .dmaTakeover,
    .bayHeartbeatMiss 0, .bayLossDeclared 0 0, .lockstepMismatch false, .rmSelftestDone false false,
    .casHello [], .casJoinAck [], .casLeave [], .casAudio [],
    .casVideo [], .casVideoReq [], .helloResend, .joinTimeout,
    .memberLoss 0, .casMapAct, .casUnmapAct, .casSetSeat,
    .casRemoteSource, .casKeyLoad, .casKeyErase, .casKeyAbort,
    .traceEnable, .frmSignerRevoke 0, .bootStart, .romSelftestDone false false,
    .fwVerifyDone, .ledgerReadDone, .imageLoadDone, .clocksLocked false false,
    .dramTrainDone [], .baysUpDone [], .portsStarted 0, .stoppedRelease,
    .supplySag 0, .saveComplete, .railWarn 0, .keeperReset,
    .sysReset, .pciePerst, .thermalWarn 0 0, .thermalClear,
    .thermalTrip 0 0, .refclkLoss 0, .refclkRevert false, .holdupTestPeriodic 0 0 0 0,
    .holdupTestRequest 0 0 0 0, .holdupDisable false, .holdupSenseTimeout 0, .holdupReverseDetect 0,
    .watchdogExpiry, .pwrWdtKick, .spiErase, .spiProgram,
    .spiRead, .spiVerifyFw, .spiVerifyImage, .spiOpDone false,
    .ptpLockChange, .unitFailed 0 0, .pcieLinkUp, .tdmClockRestored 0,
    .videoReqStop 0, .audLegMeterRead .pf] : List Instr).all fun i => i.wf) = true := by
  decide +kernel

/-- One operand out of its range: refused. -/
theorem test_ill_formed_a : (([.blockStart [itemDesc, { itemDesc with bay := 4 }], .telemetrySnapshot (.vf 16), .rtcpReportSend 16384, .ddrRetrainPause 12 0,
    .ddrRetrainPause 0 1073741824, .commandFetch (.vf 16), .nop short, .identify short,
    .ringStatus short, .lopQuery short, .lopSuspend short, .lopResume short,
    .lopCancel short, .framingLoad short, .framingDelta short, .framingRollback short,
    .framingDequeue (.vf 16) 0, .framingDequeue .pf 4294967296, .framingFetchChunk (.vf 16) 0, .framingFetchChunk .pf 4294967296,
    .framingSignDone (.vf 16) 0, .framingSignDone .pf 4294967296, .framingPass1Timber (.vf 16) 0, .framingPass1Timber .pf 4294967296,
    .framingPass2Timber (.vf 16) ⟨0, false⟩, .framingPass2Timber .pf ⟨4294967296, false⟩, .framingCheckDone (.vf 16) 0, .framingCheckDone .pf 4294967296,
    .actAdmit short, .actRelease short, .legAdmit short, .legStart short,
    .legRoute short, .legRelease short, .legDrainEnd 16384, .streamAdmit short,
    .streamRelease short, .keyBind short, .rekeyGraceEnd 262144, .canvasAdmit short,
    .canvasRelease short, .encodeAdmit short, .encodeRelease short, .audSafeLoad short,
    .layoutSet short, .keypicRequest short, .shaperSet short, .rewindMark short,
    .rewindExport short, .rewindExportChunk (.vf 16) 0, .rewindExportChunk .pf 4294967296, .capture short,
    .replay short, .telemetrySet short, .keyZeroise short, .bayQuarantine short,
    .bayWarmReset short, .baySelftest short, .bayReturn short, .bayDrainComplete 4,
    .selftestSegmentDone 4 0 [], .selftestSegmentDone 0 8 [], .selftestSegmentDone 0 0 [0, 65536], .tileFwSwap short,
    .fwSwapPhaseDone (.vf 16) 0 false, .fwSwapPhaseDone .pf 4294967296 false, .cascadeJoin short, .cascadeLeave short,
    .faultlogRead short, .mbxIdentity (.smbus 128) 0 false, .mbxIdentity .config 256 false, .mbxStatus (.smbus 128) 0 false,
    .mbxStatus .config 256 false, .mbxFaultlogRead (.smbus 128) 0 false 0, .mbxFaultlogRead .config 256 false 0, .mbxFaultlogRead .config 0 false 4294967296,
    .mbxKeyZeroise (.smbus 128) 0 false 0, .mbxKeyZeroise .config 256 false 0, .mbxKeyZeroise .config 0 false 256, .mbxBayQuarantine (.smbus 128) 0 false 0] : List Instr).all fun i => !i.wf) = true := by
  decide +kernel

/-- One operand out of its range: refused. -/
theorem test_ill_formed_b : (([.mbxBayQuarantine .config 256 false 0, .mbxBayQuarantine .config 0 false 256, .mbxBayWarmReset (.smbus 128) 0 false 0, .mbxBayWarmReset .config 256 false 0,
    .mbxBayWarmReset .config 0 false 256, .wdtKick (.smbus 128) 0 false, .wdtKick .config 256 false, .cmdSqTailWrite (.vf 16) 0,
    .cmdSqTailWrite .pf 18446744073709551616, .cmdCqHeadWrite (.vf 16) 0, .cmdCqHeadWrite .pf 18446744073709551616, .cmdResultAck (.vf 16) 0,
    .cmdResultAck .pf 18446744073709551616, .cmdEnable (.vf 16) 0, .cmdEnable .pf 18446744073709551616, .sqHaltedClear (.vf 16),
    .cqHaltedClear (.vf 16), .intEvqHeadWrite (.vf 16) 0 0, .intEvqHeadWrite .pf 17 0, .intEvqHeadWrite .pf 0 18446744073709551616,
    .eventDeliver (.vf 16) 0 0, .eventDeliver .pf 17 0, .reg64HalfRead (.vf 16) 0, .reg64HalfRead .pf 67108864,
    .reg64HalfWrite (.vf 16) 0 0, .reg64HalfWrite .pf 67108864 0, .reg64HalfWrite .pf 0 18446744073709551616, .registerWrite (.vf 16) 0 false 0,
    .registerWrite .pf 67108864 false 0, .registerWrite .pf 0 false 18446744073709551616, .functionLevelReset (.vf 16), .frameReceive 8 [] false 0 0 0,
    .frameReceive 0 (List.replicate 16385 0) false 0 0 0, .frameReceive 0 [] false 281474976710656 0 0, .frameReceive 0 [] false 0 1073741824 0, .frameReceive 0 [] false 0 0 8,
    .videoFrameTimeout 262144 0, .videoFrameTimeout 0 65536, .bufferResizeEffect 0 262144, .ingJrResize 18446744073709551616,
    .ingExcHeadWrite (.vf 16) 0, .ingExcHeadWrite .pf 18446744073709551616, .ethLinkEnable 8, .ethLinkDisable 8,
    .linkSignalDetect 8, .linkAcquireTimeout 8, .linkTrainDone 8, .linkTrainTimeout 8,
    .linkLock 8 0 false, .linkLockTimeout 8, .fecCodewordLock 8, .linkFault 8 0,
    .linkDegradeDetect 8 0, .ptpTimeSet 18446744073709551616, .ptpStep 18446744073709551616, .keyLoad (.vf 16),
    .keyErase (.vf 16), .keyAbort (.vf 16), .keyLoadDataWrite (.vf 16) 0 0, .keyLoadDataWrite .pf 64 0,
    .keyLoadDataWrite .pf 0 18446744073709551616, .keySlotError 65536, .scaCfgWrite 18446744073709551616, .srcSelectFilter (.vf 16),
    .srcBindSlot (.vf 16), .srcUnbindSlot (.vf 16), .srcBankCoefWrite 18446744073709551616, .tdmFrame 4 [],
    .tdmFrame 0 [0, 4294967296], .tdmClockLoss 4, .tdmDmaRequest 4 false, .periphWithdraw 4 false 0,
    .tdmPinShort 4 0 false, .tdmPinTest 4 0 false false, .tdmPinRetest 4 0 false, .tdmAutoSwap ⟨4, [], []⟩,
    .tdmDupTakeover 4, .debugEnable 544 0, .debugEnable 0 18446744073709551616, .debugHaltRequest 544] : List Instr).all fun i => !i.wf) = true := by
  decide +kernel

/-- One operand out of its range: refused. -/
theorem test_ill_formed_c : (([.debugStep 544, .debugResume 544, .debugInterrupt 544, .coreHwFault 544 0,
    .tmbNop 544, .tmbAdd 544 false 0 0 0, .tmbAdd 0 false 32 0 0, .tmbAdd 0 false 0 32 0,
    .tmbAdd 0 false 0 0 32, .tmbSub 544 false 0 0 0, .tmbSub 0 false 32 0 0, .tmbSub 0 false 0 32 0,
    .tmbSub 0 false 0 0 32, .tmbAnd 544 0 0 0, .tmbAnd 0 32 0 0, .tmbAnd 0 0 32 0,
    .tmbAnd 0 0 0 32, .tmbOr 544 0 0 0, .tmbOr 0 32 0 0, .tmbOr 0 0 32 0,
    .tmbOr 0 0 0 32, .tmbXor 544 0 0 0, .tmbXor 0 32 0 0, .tmbXor 0 0 32 0,
    .tmbXor 0 0 0 32, .tmbShl 544 false 0 0 0, .tmbShl 0 false 32 0 0, .tmbShl 0 false 0 32 0,
    .tmbShl 0 false 0 0 64, .tmbShr 544 0 0 0, .tmbShr 0 32 0 0, .tmbShr 0 0 32 0,
    .tmbShr 0 0 0 64, .tmbShrl 544 0 0 0, .tmbShrl 0 32 0 0, .tmbShrl 0 0 32 0,
    .tmbShrl 0 0 0 64, .tmbShlv 544 false 0 0 0, .tmbShlv 0 false 32 0 0, .tmbShlv 0 false 0 32 0,
    .tmbShlv 0 false 0 0 32, .tmbShrv 544 0 0 0, .tmbShrv 0 32 0 0, .tmbShrv 0 0 32 0,
    .tmbShrv 0 0 0 32, .tmbMin 544 0 0 0, .tmbMin 0 32 0 0, .tmbMin 0 0 32 0,
    .tmbMin 0 0 0 32, .tmbMax 544 0 0 0, .tmbMax 0 32 0 0, .tmbMax 0 0 32 0,
    .tmbMax 0 0 0 32, .tmbAbs 544 false 0 0, .tmbAbs 0 false 32 0, .tmbAbs 0 false 0 32,
    .tmbNeg 544 false 0 0, .tmbNeg 0 false 32 0, .tmbNeg 0 false 0 32, .tmbMullo 544 false 0 0 0,
    .tmbMullo 0 false 32 0 0, .tmbMullo 0 false 0 32 0, .tmbMullo 0 false 0 0 32, .tmbClz 544 0 0,
    .tmbClz 0 32 0, .tmbClz 0 0 32, .tmbSext16 544 0 0, .tmbSext16 0 32 0,
    .tmbSext16 0 0 32, .tmbPack 544 0 0 0, .tmbPack 0 32 0 0, .tmbPack 0 0 32 0,
    .tmbPack 0 0 0 32, .tmbCmplt 544 0 0 0, .tmbCmplt 0 32 0 0, .tmbCmplt 0 0 32 0,
    .tmbCmplt 0 0 0 32, .tmbCmpeq 544 0 0 0, .tmbCmpeq 0 32 0 0, .tmbCmpeq 0 0 32 0] : List Instr).all fun i => !i.wf) = true := by
  decide +kernel

/-- One operand out of its range: refused. -/
theorem test_ill_formed_d : (([.tmbCmpeq 0 0 0 32, .tmbCmpltu 544 0 0 0, .tmbCmpltu 0 32 0 0, .tmbCmpltu 0 0 32 0,
    .tmbCmpltu 0 0 0 32, .tmbRda 544 false 0 0 false 0, .tmbRda 0 false 32 0 false 0, .tmbRda 0 false 0 32 false 0,
    .tmbRda 0 false 0 0 false 64, .tmbRdah 544 0 0, .tmbRdah 0 32 0, .tmbRdah 0 0 32,
    .tmbWra 544 false 0 0 0, .tmbWra 0 false 32 0 0, .tmbWra 0 false 0 32 0, .tmbWra 0 false 0 0 64,
    .tmbAdda 544 false 0 0 0, .tmbAdda 0 false 32 0 0, .tmbAdda 0 false 0 32 0, .tmbAdda 0 false 0 0 64,
    .tmbSuba 544 false 0 0 0, .tmbSuba 0 false 32 0 0, .tmbSuba 0 false 0 32 0, .tmbSuba 0 false 0 0 64,
    .tmbClra 544 0, .tmbClra 0 32, .tmbSat24 544 0 0, .tmbSat24 0 32 0,
    .tmbSat24 0 0 32, .tmbAddi 544 false 0 0 0, .tmbAddi 0 false 32 0 0, .tmbAddi 0 false 0 32 0,
    .tmbAddi 0 false 0 0 16384, .tmbAndi 544 0 0 0, .tmbAndi 0 32 0 0, .tmbAndi 0 0 32 0,
    .tmbAndi 0 0 0 16384, .tmbOri 544 0 0 0, .tmbOri 0 32 0 0, .tmbOri 0 0 32 0,
    .tmbOri 0 0 0 16384, .tmbXori 544 0 0 0, .tmbXori 0 32 0 0, .tmbXori 0 0 32 0,
    .tmbXori 0 0 0 16384, .tmbMovi 544 0 0, .tmbMovi 0 32 0, .tmbMovi 0 0 16384,
    .tmbMovhi 544 0 0, .tmbMovhi 0 32 0, .tmbMovhi 0 0 65536, .tmbCmplti 544 0 0 0,
    .tmbCmplti 0 32 0 0, .tmbCmplti 0 0 32 0, .tmbCmplti 0 0 0 16384, .tmbCmpeqi 544 0 0 0,
    .tmbCmpeqi 0 32 0 0, .tmbCmpeqi 0 0 32 0, .tmbCmpeqi 0 0 0 16384, .tmbLdw 544 0 false false 0 0,
    .tmbLdw 0 32 false false 0 0, .tmbLdw 0 0 false false 8 0, .tmbLdw 0 0 false false 0 16384, .tmbLdh 544 0 false false 0 0,
    .tmbLdh 0 32 false false 0 0, .tmbLdh 0 0 false false 8 0, .tmbLdh 0 0 false false 0 16384, .tmbLdhu 544 0 false false 0 0,
    .tmbLdhu 0 32 false false 0 0, .tmbLdhu 0 0 false false 8 0, .tmbLdhu 0 0 false false 0 16384, .tmbStw 544 0 false false 0 0,
    .tmbStw 0 32 false false 0 0, .tmbStw 0 0 false false 8 0, .tmbStw 0 0 false false 0 16384, .tmbSth 544 0 false false 0 0,
    .tmbSth 0 32 false false 0 0, .tmbSth 0 0 false false 8 0, .tmbSth 0 0 false false 0 16384, .tmbBeqz 544 0 0] : List Instr).all fun i => !i.wf) = true := by
  decide +kernel

/-- One operand out of its range: refused. -/
theorem test_ill_formed_e : (([.tmbBeqz 0 32 0, .tmbBeqz 0 0 16384, .tmbBnez 544 0 0, .tmbBnez 0 32 0,
    .tmbBnez 0 0 16384, .tmbBltz 544 0 0, .tmbBltz 0 32 0, .tmbBltz 0 0 16384,
    .tmbBgez 544 0 0, .tmbBgez 0 32 0, .tmbBgez 0 0 16384, .tmbBr 544 0,
    .tmbBr 0 16384, .tmbBlc 544 0, .tmbBlc 0 16384, .tmbCall 544 0,
    .tmbCall 0 16384, .tmbRet 544, .tmbMtc 544 0 0, .tmbMtc 0 64 0,
    .tmbMtc 0 0 32, .tmbMfc 544 0 0, .tmbMfc 0 64 0, .tmbMfc 0 0 32,
    .tmbXrd 544 0, .tmbXrd 0 8, .tmbXwr 544 0, .tmbXwr 0 8,
    .transferComplete 544 0, .tmbWaitx 544 0, .tmbWaitx 0 16, .tmbEnd 544,
    .tmbReti 544, .tmbBkpt 544 0, .tmbBkpt 0 8192, .tmbFault 544 0,
    .tmbFault 0 8192, .tmbMac 544 0 false 0 0 0 0 false 0 0 false, .tmbMac 0 2 false 0 0 0 0 false 0 0 false, .tmbMac 0 0 false 32 0 0 0 false 0 0 false,
    .tmbMac 0 0 false 0 32 0 0 false 0 0 false, .tmbMac 0 0 false 0 0 32 0 false 0 0 false, .tmbMac 0 0 false 0 0 0 4 false 0 0 false, .tmbMac 0 0 false 0 0 0 0 false 32 0 false,
    .tmbMac 0 0 false 0 0 0 0 false 0 4 false, .tmbMsu 544 0 false 0 0 0 0 false 0 0 false, .tmbMsu 0 2 false 0 0 0 0 false 0 0 false, .tmbMsu 0 0 false 32 0 0 0 false 0 0 false,
    .tmbMsu 0 0 false 0 32 0 0 false 0 0 false, .tmbMsu 0 0 false 0 0 32 0 false 0 0 false, .tmbMsu 0 0 false 0 0 0 4 false 0 0 false, .tmbMsu 0 0 false 0 0 0 0 false 32 0 false,
    .tmbMsu 0 0 false 0 0 0 0 false 0 4 false, .tmbMpy 544 0 false 0 0 0 0 false 0 0 false, .tmbMpy 0 2 false 0 0 0 0 false 0 0 false, .tmbMpy 0 0 false 32 0 0 0 false 0 0 false,
    .tmbMpy 0 0 false 0 32 0 0 false 0 0 false, .tmbMpy 0 0 false 0 0 32 0 false 0 0 false, .tmbMpy 0 0 false 0 0 0 4 false 0 0 false, .tmbMpy 0 0 false 0 0 0 0 false 32 0 false,
    .tmbMpy 0 0 false 0 0 0 0 false 0 4 false, .tmbLdp 544 0 0 false 0 0 false, .tmbLdp 0 32 0 false 0 0 false, .tmbLdp 0 0 4 false 0 0 false,
    .tmbLdp 0 0 0 false 32 0 false, .tmbLdp 0 0 0 false 0 4 false, .corePrefetch 544 ⟨0, false⟩, .deadlineMiss 131072,
    .itemHung 544, .barrierClose 131072 [], .barrierClose 0 [itemDesc, { itemDesc with bay := 4 }], .shadowCompare 131072,
    .shadowAbandon 131072, .queueSpillRepush 32, .queueEccRescan 64 0, .decodePictureStart 68 { intra with vis := [0, 0, 64, 64] },
    .decodePictureStart 0 layer8, .decodePictureComplete 68, .decodePictureMissed 262144 { intra with vis := [0, 0, 64, 64] }, .decodePictureMissed 0 layer8] : List Instr).all fun i => !i.wf) = true := by
  decide +kernel

/-- One operand out of its range: refused. -/
theorem test_ill_formed_f : (([.tileHwFault 68, .encodePictureStart 68, .encodePictureComplete 68 ⟨0, [], [], 0, [], 0, 0⟩, .repeatPicture 1024 0,
    .canvasTick 256, .compositionComplete 4 [], .compositionMissed 256, .dpCtrlWrite 18446744073709551616,
    .receiverNack 16384, .upstreamNack 262144, .firEscalation 16384, .fallbackOpenRetry 16384,
    .fwdSubscribe (.vf 16), .fwdUnsubscribe (.vf 16), .fwdSetLegCap (.vf 16), .fwdRwResize (.vf 16) 0,
    .fwdRwResize .pf 18446744073709551616, .transmitWindow 8, .htxFrameSubmit (.vf 16) 0, .htxFrameSubmit .pf 18446744073709551616,
    .schedulerTakeover 8, .ddrEccCorrected 12 0 0 0, .ddrEccUncorrectable 12 0 false [] [], .ddrEccUncorrectable 0 34359738368 false [] [],
    .ddrCaParityAlert 12 false, .ddrChannelLoss 12 0 [] [], .ledgerEcc 33554432 0, .ledgerEcc 0 2,
    .dmaChAdd (.vf 16) 0 0, .dmaChAdd .pf 32 0, .dmaChAdd .pf 0 18446744073709551616, .dmaDescriptorComplete 32,
    .dmaFenceComplete 32, .dmaStop 32, .dmaAbort 32 0, .dmaResume 32,
    .dmaEnable 32 false, .bayHeartbeatMiss 4, .bayLossDeclared 4 0, .casHello (List.replicate 16385 0),
    .casJoinAck (List.replicate 16385 0), .casLeave (List.replicate 16385 0), .casAudio (List.replicate 16385 0), .casVideo (List.replicate 16385 0),
    .casVideoReq (List.replicate 16385 0), .memberLoss 16, .frmSignerRevoke 18446744073709551616, .dramTrainDone [0, 12],
    .baysUpDone [0, 4], .thermalWarn 8 0, .thermalTrip 8 0, .refclkLoss 2,
    .holdupTestPeriodic 3601 0 0 0, .holdupTestPeriodic 0 3601 0 0, .holdupTestPeriodic 0 0 3601 0, .holdupTestPeriodic 0 0 0 3601,
    .holdupTestRequest 3601 0 0 0, .holdupTestRequest 0 3601 0 0, .holdupTestRequest 0 0 3601 0, .holdupTestRequest 0 0 0 3601,
    .holdupSenseTimeout 3601, .holdupReverseDetect 3601, .unitFailed 4 0, .unitFailed 0 65536,
    .tdmClockRestored 4, .videoReqStop 262144, .audLegMeterRead (.vf 16)] : List Instr).all fun i => !i.wf) = true := by
  decide +kernel


/-! ## The spec's examples -/

/-- spec/05_cipher_keys.md: a load of the all-zero 16-byte key reports 0x66E94B. -/
theorem test_kcv_of_zero_key : kcvOf (List.replicate 16 0) = 0x66E94B := by decide +kernel

/-- spec/06_calliope_audio.md R146: the 80 Hz setting, states zero, input 1,000,000. -/
theorem test_hpf_first_sample : let r := hpfStep 1000000 { LegAud.init with hpf := 3 }
    r.1 = 992623 ∧ r.2.y1 = 254111371 ∧ r.2.x1 = 1000000 := by decide +kernel

/-- spec/10_codec_tiles_decode.md: the buffer of a 1920×1080 AV1 picture. -/
theorem test_decode_buffer : plankCols 1920 = 30 ∧ plankRows 1080 = 270 ∧ planks 1920 1080 = 8100 ∧ dataOffset 1920 1080 = 20480 ∧
    surfaceSize 1920 1080 = 4194304 ∧ bufferSize 1920 1080 = 4521984 := by decide +kernel

/-- spec/13_big_top_composition.md: P[19] = 30,000, P[20] = 31,500, u = 40,000. -/
theorem test_tone_curve : curveAt ((List.range 33).map fun i => if i = 19 then 30000 else if i = 20 then 31500 else 0) 40000 = 30797 := by decide +kernel

/-- spec/01_bays_and_rings.md R23: core 5 of cluster 30. -/
theorem test_unit_id : unitId 4 (30 * 17 + 5) = 0x2203 := by decide +kernel

/-- spec/opcode_table.json gives no row any bits: no word spells a command. -/
theorem test_no_word_spells : decodeTableWord 8 0 = none ∧ (State.reset.withFetchWord 32 5).pending = [] := ⟨rfl, rfl⟩

/-- LedgerErrors: an address of each part at its edges falls under one clause. -/
theorem witness_LedgerErrors : ∀ a ∈ [0, 0xFFFF, 0x10000, 0x81FFFF, 0x820000, 0xE1FFFF, 0xE20000, 0x141FFFF], (a < 0x10000 ∨ 0x10000 ≤ a ∧ a < 0x820000 ∨
    0x820000 ≤ a ∧ a < 0xE20000 ∨ 0xE20000 ≤ a ∧ a < 0x1420000) ∧ ¬ (a < 0x820000 ∧ 0x820000 ≤ a) := by decide
end Sys2Proof.Tests
end

section
/-! PROOFS. Registers read and written: halves of 64-bit registers (R75), fields by their types (R10, R491). -/

namespace Sys2Proof.Machine

/-! ## The bits a mask clears -/

theorem and_mod_two (a b : Nat) : (a &&& b) % 2 = a % 2 &&& b % 2 := by
  simpa using Nat.and_mod_two_pow (a := a) (b := b) (n := 1)

/-- What a mask takes from a number it takes from each of its bits alone: no bit borrows from the next. -/
theorem sub_and_div_two (a b : Nat) : (a - (a &&& b)) / 2 = a / 2 - (a / 2 &&& b / 2) := by
  have half : (a &&& b) / 2 = a / 2 &&& b / 2 := Nat.and_div_two
  have le : a &&& b ≤ a := Nat.and_le_left
  have low : (a &&& b) % 2 ≤ a % 2 := and_mod_two a b ▸ Nat.and_le_left
  omega

theorem sub_and_mod_two (a b : Nat) : (a - (a &&& b)) % 2 = a % 2 - (a % 2 &&& b % 2) := by
  have le : a &&& b ≤ a := Nat.and_le_left
  have low : a % 2 &&& b % 2 ≤ a % 2 := Nat.and_le_left
  have mod := and_mod_two a b
  omega

theorem testBit_sub_and (a b i : Nat) : (a - (a &&& b)).testBit i = (a.testBit i && !b.testBit i) := by
  induction i generalizing a b with
  | zero =>
    rw [Nat.testBit_zero, Nat.testBit_zero, Nat.testBit_zero, sub_and_mod_two]
    rcases Nat.mod_two_eq_zero_or_one a with ha | ha <;> rcases Nat.mod_two_eq_zero_or_one b with hb | hb <;> rw [ha, hb] <;> rfl
  | succ i ih => rw [Nat.testBit_succ, sub_and_div_two, ih, Nat.testBit_succ, Nat.testBit_succ]

/-! ## A field written (R10, R491) -/

theorem fieldWrite_rw_within (addr v : Nat) (f : FDesc) (s : State) (ty : f.ty = .rw) (lo : f.min ≤ bits v f.lo f.w)
    (hi : bits v f.lo f.w ≤ f.max) : fieldWrite addr v f s = fset ⟨addr, f.lo, f.w, f.rst⟩ (bits v f.lo f.w) s := by
  simp [fieldWrite, ty, within, lo, hi]

theorem fieldWrite_rw_outside (addr v : Nat) (f : FDesc) (s : State) (ty : f.ty = .rw)
    (out : bits v f.lo f.w < f.min ∨ f.max < bits v f.lo f.w) : fieldWrite addr v f s = s := by
  have : within f.min f.max (bits v f.lo f.w) = false := by
    rcases out with h | h <;> simp [within, Nat.not_le.mpr h]
  simp [fieldWrite, ty, this]

theorem fieldWrite_ro (addr v : Nat) (f : FDesc) (s : State) (ty : f.ty = .ro) : fieldWrite addr v f s = s := by
  simp [fieldWrite, ty]

theorem fieldWrite_w1c (addr v : Nat) (f : FDesc) (s : State) (ty : f.ty = .w1c) :
    let fld : Fld := ⟨addr, f.lo, f.w, f.rst⟩
    fieldWrite addr v f s = fset fld (fget fld s - (fget fld s &&& bits v f.lo f.w)) s := by
  simp [fieldWrite, ty]

theorem bits_lt (v lo w : Nat) : bits v lo w < 2 ^ w := Nat.mod_lt _ (Nat.two_pow_pos w)

theorem fget_fieldWrite_rw (addr v : Nat) (f : FDesc) (s : State) (ty : f.ty = .rw) (lo : f.min ≤ bits v f.lo f.w)
    (hi : bits v f.lo f.w ≤ f.max) : fget ⟨addr, f.lo, f.w, f.rst⟩ (fieldWrite addr v f s) = bits v f.lo f.w := by
  rw [fieldWrite_rw_within addr v f s ty lo hi, fget_fset]
  exact Nat.mod_eq_of_lt (bits_lt ..)

theorem testBit_fieldWrite_w1c (addr v i : Nat) (f : FDesc) (s : State) (ty : f.ty = .w1c)
    (held : fget ⟨addr, f.lo, f.w, f.rst⟩ s < 2 ^ f.w) :
    (fget ⟨addr, f.lo, f.w, f.rst⟩ (fieldWrite addr v f s)).testBit i =
      ((fget ⟨addr, f.lo, f.w, f.rst⟩ s).testBit i && !(bits v f.lo f.w).testBit i) := by
  rw [fieldWrite_w1c addr v f s ty, fget_fset]
  simp only
  rw [Nat.mod_eq_of_lt (Nat.lt_of_le_of_lt (Nat.sub_le ..) held), testBit_sub_and]

/-! ## Accesses of a half (R75) -/

/-- A read of a low half answers it and holds the high half. -/
theorem read32_low {fn : Fn} {off v : Nat} {s : State} (h : wideAt fn off s = some v) : read32 fn off s =
    (v % 2 ^ 32, { s with hif := { s.hif with latch := tset s.hif.latch (fnNum fn) (off, v / 2 ^ 32) } }) := by
  simp [read32, h]

/-- A read of the high half that the function's latch holds answers and empties it. -/
theorem read32_high {fn : Fn} {off v h : Nat} {s : State} (aligned : off % 8 = 0) (high : wideAt fn (off + 4) s = none)
    (low : wideAt fn off s = some v) (held : tfind s.hif.latch (fnNum fn) = some (off, h)) :
    read32 fn (off + 4) s = (h, { s with hif := { s.hif with latch := terase s.hif.latch (fnNum fn) } }) := by
  have place : (off + 4) % 8 = 4 := by omega
  simp [read32, high, low, place, held]

/-- A read that neither the seconds' latch nor the meter's takes part in (R101, R180) answers as read32 does. -/
theorem exec_reg64HalfRead {fn : Fn} {off : Nat} {s : State} (ns : (regAt fn off s).map (·.pf) ≠ some 0x103004)
    (meter : (regAt fn off s).map (·.pf) ≠ some 0x200048) (count : (regAt fn off s).map (·.pf) ≠ some 0x20004C) :
    exec (.reg64HalfRead fn off) s =
      .next { (read32 fn off s).2 with hif := { (read32 fn off s).2.hif with readData := (read32 fn off s).1 } } := by
  change execReg64HalfRead fn off s = _
  simp only [execReg64HalfRead, if_neg ns, if_neg meter, if_neg count]

/-- A low half written waits for its high half. -/
theorem write32_low {fn : Fn} {off v : Nat} {r : RegRef} {s : State} (small : v < 2 ^ 32) (reached : reaches fn off = true)
    (reg : regAt fn off s = some r) (wide : r.d.wide = true) :
    write32 fn off v s = { s with hif := { s.hif with stage := tset s.hif.stage (fnNum fn) (off, v) } } := by
  simp [write32, reached, reg, wide, Nat.mod_eq_of_lt small, -Nat.reducePow]

/-- A high half written completes the low half that waits for it. -/
theorem write32_high {fn : Fn} {off lo v : Nat} {r : RegRef} {s : State} (small : v < 2 ^ 32) (aligned : off % 8 = 0)
    (reached : reaches fn (off + 4) = true) (noReg : regAt fn (off + 4) s = none) (reg : regAt fn off s = some r) (wide : r.d.wide = true)
    (staged : tfind s.hif.stage (fnNum fn) = some (off, lo)) :
    write32 fn (off + 4) v s =
      writeReg fn r (lo + v * 2 ^ 32) { s with hif := { s.hif with stage := terase s.hif.stage (fnNum fn) } } := by
  have place : (off + 4) % 8 = 4 := by omega
  simp [write32, reached, noReg, place, reg, wide, lowHalf, staged, Nat.mod_eq_of_lt small, -Nat.reducePow]

theorem write32_whole {fn : Fn} {off v : Nat} {r : RegRef} {s : State} (small : v < 2 ^ 32) (reached : reaches fn off = true)
    (reg : regAt fn off s = some r) (narrow : r.d.wide = false) : write32 fn off v s = writeReg fn r v s := by
  simp [write32, reached, reg, narrow, Nat.mod_eq_of_lt small, -Nat.reducePow]

theorem write64_whole {fn : Fn} {off v : Nat} {r : RegRef} {s : State} (small : v < 2 ^ 64) (reached : reaches fn off = true)
    (reg : regAt fn off s = some r) (wide : r.d.wide = true) : write64 fn off v s = writeReg fn r v s := by
  simp [write64, reached, reg, wide, Nat.mod_eq_of_lt small, -Nat.reducePow]

theorem exec_reg64HalfWrite (fn : Fn) (off v : Nat) (s : State) : exec (.reg64HalfWrite fn off v) s = .next (write32 fn off v s) := rfl

theorem exec_registerWrite_narrow (fn : Fn) (off v : Nat) (s : State) :
    exec (.registerWrite fn off false v) s = .next (write32 fn off v s) := rfl

theorem exec_registerWrite_wide (fn : Fn) (off v : Nat) (s : State) :
    exec (.registerWrite fn off true v) s = .next (write64 fn off v s) := rfl

theorem changes_hif (s : State) (h : Hif) : Changes [.hif] s { s with hif := h } :=
  (Moves.hif_with (by decide) (Moves.refl _ s)).toChanges

/-- Settles O21, by the outcome of each access: the latch and the staged half of R75, then the field's type of R10. -/
theorem registerAccesses : Obligations.RegisterAccesses := by
  unfold Obligations.RegisterAccesses
  refine ⟨?lowRead, ?highRead, ?lowWrite, ?highWrite, ?narrowWrite, ?wideWrite, ?fields⟩
  case lowRead =>
    intro fn off v s wide ns meter count
    rw [exec_reg64HalfRead ns meter count, read32_low wide]
    exact ⟨_, rfl, rfl, tfind_tset_same ..⟩
  case highRead =>
    intro fn off v h s aligned high low reg held
    rw [exec_reg64HalfRead (by simp [reg]) (by simp [reg]) (by simp [reg]), read32_high aligned high low held]
    exact ⟨_, rfl, rfl, tfind_terase_same ..⟩
  case lowWrite =>
    intro fn off v r s small reached reg wide
    rw [exec_reg64HalfWrite, write32_low small reached reg wide]
    exact ⟨_, rfl, tfind_tset_same .., changes_hif ..⟩
  case highWrite =>
    intro fn off lo v r s small aligned reached noReg reg wide staged
    rw [exec_reg64HalfWrite, write32_high small aligned reached noReg reg wide staged]
  case narrowWrite =>
    intro fn off v r s small reached reg narrow
    rw [exec_registerWrite_narrow, write32_whole small reached reg narrow]
  case wideWrite =>
    intro fn off v r s small reached reg wide
    rw [exec_registerWrite_wide, write64_whole small reached reg wide]
  case fields =>
    intro addr v f s
    exact ⟨fget_fieldWrite_rw addr v f s, fieldWrite_rw_outside addr v f s, fieldWrite_ro addr v f s,
      fun ty held i => testBit_fieldWrite_w1c addr v i f s ty held⟩

end Sys2Proof.Machine
end

section
/-! PROOFS. Time: block boundaries, PTP time, what recurs (R7, R8, R25, R98 to R101, R363, R376, R382, R465, R466). -/

namespace Sys2Proof.Machine

/-! ## What a frame says of one part -/

theorem Moves.clk_eq {ps : List Part} {s t : State} (h : Moves ps s t) (n : Part.clk ∉ ps := by decide) : t.clk = s.clk :=
  h.same .clk n

theorem Moves.ldg_eq {ps : List Part} {s t : State} (h : Moves ps s t) (n : Part.ldg ∉ ps := by decide) : t.ldg = s.ldg :=
  h.same .ldg n

/-! ## Block boundaries (R7, R8, R25, R100) -/

/-- From the clock's move to the end of a block boundary nothing alters the clock. -/
theorem blockBegin_clk (b : Nat) (items : List ItemDesc) (s : State) : ∃ x, (blockBegin b items s).clk = (clockTo b x).clk := by
  unfold blockBegin
  extract_lets run first clocked closed repeated staged
  refine ⟨if first then run else blockEnds b run, ?_⟩
  have atClose : closed.clk = clocked.clk := by
    unfold closed
    split
    · exact (firstBlock_moves _).clk_eq
    · exact ((drainsEnd_moves _).clk_eq).trans (blockClose_moves ..).clk_eq
  have atRepeat : repeated.clk = closed.clk := by
    have fold : Moves [.mem, .regs, .cnt, .hif, .obs, .ddr, .out] (clockBoundary (blockShow closed)) repeated :=
      Moves.foldl (fun fn y => repBoundary_moves b fn y) (Moves.refl ..)
    exact fold.clk_eq.trans ((clockBoundary_moves _).clk_eq.trans (blockShow_moves _).clk_eq)
  have atCommands : staged.clk = repeated.clk :=
    (blockCommands_moves ..).clk_eq.trans ((blockStructure_moves ..).clk_eq.trans (blockRehome_moves ..).clk_eq)
  calc
    _ = staged.clk := (blockUnits_moves ..).clk_eq.trans ((blockWork_moves ..).clk_eq.trans
          ((blockReleases_moves ..).clk_eq.trans (blockTurns_moves ..).clk_eq))
    _ = clocked.clk := atCommands.trans (atRepeat.trans atClose)

theorem clockTo_clk (b : Nat) (s : State) :
    (clockTo b s).clk.stamp = b % 2 ^ 48 ∧ (clockTo b s).clk.offset = 0 ∧ (clockTo b s).clk.running = true := by
  unfold clockTo
  rw [(ptpSync_moves _).clk_eq]
  exact ⟨rfl, rfl, rfl⟩

/-- A block boundary leaves the block's stamp, its first sample, and the clock running. -/
theorem blockBegin_at (b : Nat) (items : List ItemDesc) (s : State) : (blockBegin b items s).clk.stamp = b % 2 ^ 48 ∧
    (blockBegin b items s).clk.offset = 0 ∧ (blockBegin b items s).clk.running = true := by
  obtain ⟨x, e⟩ := blockBegin_clk b items s
  rw [e]
  exact clockTo_clk b x

theorem phase_firstAlign (s : State) : phase (firstAlign s) = phase s := by
  have e : (firstAlign s).regs = s.regs := (firstAlign_moves s).same .regs (by decide)
  simp only [phase, fget, e]

theorem exec_blockStart_run (items : List ItemDesc) (s : State) (h : phase s = phRun) :
    exec (.blockStart items) s = .next (blockBegin (stampAdd s.clk.stamp 1) items s) := by
  change execBlockStart items s = _
  have apart : phRun ≠ phPorts := by decide
  simp [execBlockStart, nextStamp, h, apart]

theorem exec_blockStart_ports (items : List ItemDesc) (s : State) (h : phase s = phPorts) :
    exec (.blockStart items) s = .next (blockBegin (firstStamp (firstAlign s)) items (firstAlign s)) := by
  change execBlockStart items s = _
  simp [execBlockStart, nextStamp, h, phase_firstAlign]

theorem stampAdd_mod (a n : Nat) : stampAdd a n % 2 ^ 48 = stampAdd a n := Nat.mod_mod ..

theorem blockBoundaries : Claims.BlockBoundaries := by
  intro items s
  constructor
  · intro h
    obtain ⟨stamp, offset, running⟩ := blockBegin_at (stampAdd s.clk.stamp 1) items s
    exact ⟨_, exec_blockStart_run items s h, stamp.trans (stampAdd_mod ..), offset, running,
      (blockBegin_moves ..).same .pending (by decide)⟩
  · intro h
    exact ⟨_, exec_blockStart_ports items s h, blockBegin_at ..⟩

/-! ## PTP time (R98 to R101) -/

/-- The readings that follow PTP time are other fields than the status. -/
theorem fget_ptpSync (f : Fld) (s : State) (phase : fkey f ≠ fkey R.ETH_PTP_PHASE_phase)
    (diff : fkey f ≠ fkey R.ETH_PTP_STAMP_OFFSET_diff) : fget f (ptpSync s) = fget f s := by
  unfold ptpSync
  split
  · rw [fget_fset_other _ _ _ _ phase, fget_fset_other _ _ _ _ diff]
  · rfl

theorem ptpPhase_fset (f : Fld) (v : Nat) (s : State) : ptpPhase (fset f v s) = ptpPhase s := rfl

/-- A write of PTP time at a block's first sample sets what is read from then on. -/
theorem exec_ptpTimeSet (v : Nat) (s : State) (small : v < 2 ^ 48) (first : s.clk.offset = 0) : ∃ t, exec (.ptpTimeSet v) s = .next t ∧
    ptpNs t = v * 1000000000 + s.clk.heldNs ∧ fget R.ETH_PTP_STATUS_time_valid t = 1 ∧ t.clk.stamp = s.clk.stamp := by
  obtain ⟨t, e, -⟩ := execPtpTimeSet_runs v s
  have clk : t.clk = { s.clk with ptp := (v % 2 ^ 48 * 1000000000 + s.clk.heldNs - s.clk.offset * 500000 / 24) * 65536 } := by
    cases e
    exact (ptpSync_moves _).clk_eq
  refine ⟨t, e, ?_, ?_, by rw [clk]⟩
  · simp only [ptpNs, clk, first, Nat.mod_eq_of_lt small]
    omega
  · cases e
    rw [fget_ptpSync _ _ (by decide) (by decide), fget_fset]
    rfl

/-- A step moves PTP time by signed nanoseconds and leaves the stamp. -/
theorem exec_ptpStep (v : Nat) (s : State) (low : 0 ≤ (s.clk.ptp : Int) + toS 64 v * 65536) : ∃ t, exec (.ptpStep v) s = .next t ∧
    (t.clk.ptp : Int) = s.clk.ptp + toS 64 v * 65536 ∧ t.clk.stamp = s.clk.stamp ∧ Changes [.clk, .regs] s t := by
  obtain ⟨t, e, m⟩ := execPtpStep_runs v s
  have clk : t.clk = { s.clk with ptp := ((s.clk.ptp : Int) + toS 64 v * 65536).toNat } := by
    cases e
    exact (ptpSync_moves _).clk_eq
  exact ⟨t, e, by rw [clk]; exact Int.toNat_of_nonneg low, by rw [clk], m.toChanges⟩

theorem exec_ptpNsRead (s : State) : ∃ t, exec .ptpNsRead s = .next t ∧ t.hif.readData = ptpNs s % 1000000000 ∧
    t.clk.latchSec = ptpNs s / 1000000000 % 2 ^ 48 ∧ Changes [.clk, .hif] s t := by
  obtain ⟨t, e, m⟩ := execPtpNsRead_runs s
  refine ⟨t, e, ?_⟩
  cases e
  exact ⟨rfl, rfl, m.toChanges⟩

theorem exec_ptpPps (s : State) : exec .ptpPps s =
    .next (if fon R.ETH_PTP_CFG_pps_en s then { s with out := .pps (ptpNs s / 1000000000) :: s.out } else s) := rfl

/-- The lock changes where it is not what the phase error says. -/
theorem exec_ptpLockChange (lock : Bool) (s : State) (was : fon R.ETH_PTP_STATUS_locked s = !lock)
    (is : (ptpFollows s && decide ((ptpPhase s).natAbs < 1000)) = lock) : exec .ptpLockChange s =
      .next (raiseUnit (if lock then EV_PTP_LOCKED else EV_PTP_UNLOCKED) 0 (ofS 32 (ptpPhase s))
        (fset R.ETH_PTP_STATUS_locked (b2n lock) s)) := by
  change execPtpLockChange s = _
  simp [execPtpLockChange, is, was, ptpPhase_fset]

theorem ptpTime : Claims.PtpTime := by
  intro s
  refine ⟨fun v small _ first => exec_ptpTimeSet v s small first, fun v => exec_ptpStep v s, exec_ptpNsRead s, ?pulse, ?still,
    ?locks, ?unlocks⟩
  case pulse =>
    intro on
    rw [exec_ptpPps, if_pos on]
  case still =>
    intro off
    rw [exec_ptpPps, off]
    rfl
  case locks =>
    intro was follows near
    exact exec_ptpLockChange true s was (by simp [follows, near])
  case unlocks =>
    intro was away
    refine exec_ptpLockChange false s was ?_
    rcases away with alone | far
    · simp [alone]
    · simp [Nat.not_lt.mpr far]

/-! ## Telemetry (R465) -/

/-- The first bytes of a block written read back. -/
theorem Memory.readN_writeN_take (m : List Host.Cell) (a : Nat) (l r : List Byte) :
    Memory.readN (Memory.writeN m a (l ++ r)) a l.length = l := by
  refine List.ext_getElem (by simp [Memory.readN]) fun i h1 h2 => ?_
  simp [Memory.readN, Memory.read_writeN_inside m a i (l ++ r) (by simp; omega), List.getElem_append_left h2]

/-- A snapshot's first bytes: TELM, version 1.0. -/
def telMagic : List Byte := leBytes 4 0x4D4C4554 ++ leBytes 2 0x0100

theorem fget_telPut (f : Fld) (fn : Fn) (t : Tel) (s : State) : fget f (telPut fn t s) = fget f s := rfl

/-- The slot that a function's next snapshot is due in, and the index of the slot after it. -/
def telSlot (fn : Fn) (t : Tel) (s : State) : Nat := t.addr + fget (R.OBS_TEL_HEAD_next fn) s * t.size
def telAfter (fn : Fn) (t : Tel) (s : State) : Nat := (fget (R.OBS_TEL_HEAD_next fn) s + 1) % 2 ^ t.slots

/-- A snapshot without room, or whose slot the host does not take, is dropped. -/
theorem telSnap_full {fn : Fn} {t : Tel} {s : State} (b : Nat) (on : tfind s.obs.tels (fnNum fn) = some t)
    (full : telAfter fn t s = fget (R.OBS_TEL_HEAD_head fn) s % 2 ^ t.slots ∨
      hostOk (telSlot fn t s) t.size s = false) : telSnap b fn s = telDrop fn t s := by
  simp only [telSnap, on]
  rw [if_pos]
  simpa [telAfter, telSlot] using full

/-- A snapshot that has room: its slot in host memory, the next slot's index, the stream's sequence number. -/
theorem telSnap_room {fn : Fn} {t : Tel} {s : State} (b : Nat) (on : tfind s.obs.tels (fnNum fn) = some t) (few : t.slots ≤ 8)
    (room : telAfter fn t s ≠ fget (R.OBS_TEL_HEAD_head fn) s % 2 ^ t.slots)
    (ok : hostOk (telSlot fn t s) t.size s = true) :
    hostRead (telSlot fn t s) 6 (telSnap b fn s) = telMagic ∧
      fget (R.OBS_TEL_HEAD_next fn) (telSnap b fn s) = telAfter fn t s ∧
      tfind (telSnap b fn s).obs.tels (fnNum fn) = some { t with
        seq := (t.seq + 1) % 2 ^ 32
        dropped := 0 } := by
  have fits : telAfter fn t s < 2 ^ 8 :=
    Nat.lt_of_lt_of_le (Nat.mod_lt _ (Nat.two_pow_pos _)) (Nat.pow_le_pow_right (by decide) few)
  have other : fkey (R.OBS_TEL_HEAD_next fn) ≠ fkey (R.OBS_TEL_HEAD_phase fn) := by
    simp [fkey, R.OBS_TEL_HEAD_next, R.OBS_TEL_HEAD_phase]
  simp only [telSnap, on]
  rw [if_neg (by simpa [telAfter, telSlot, ok] using ⟨room, ok⟩)]
  refine ⟨?written, ?next, tfind_tset_same ..⟩
  case written =>
    simp only [hostRead, telSlot, telPut_mem, apply_ite State.mem, fset_mem, cinc_mem, ite_self, hostWrite, List.append_assoc]
    rw [← List.append_assoc (leBytes 4 _) (leBytes 2 _)]
    exact Memory.readN_writeN_take _ _ telMagic _
  case next =>
    rw [fget_telPut]
    split
    · rw [fget_fset_other _ _ _ _ other, cinc, fget_cadd, fget_fset]
      exact Nat.mod_eq_of_lt fits
    · rw [cinc, fget_cadd, fget_fset]
      exact Nat.mod_eq_of_lt fits

theorem exec_telemetrySnapshot {fn : Fn} {t : Tel} {s : State} (on : tfind s.obs.tels (fnNum fn) = some t)
    (due : s.clk.stamp % t.period = t.phase) : exec (.telemetrySnapshot fn) s = .next (telSnap s.clk.stamp fn s) := by
  change execTelemetrySnapshot fn s = _
  simp [execTelemetrySnapshot, on, due]

/-! ## The other rows that recur (R363, R376, R382) -/

theorem exec_rtcpReportSend {leg : Nat} {e : EgrLeg} {l : Leg} {s : State} (egr : tfind s.egr.legs leg = some e)
    (ctl : tfind s.ctl.legs leg = some l) (active : l.st = .active) (path : e.path.isSome = true)
    (due : s.clk.stamp % e.sh.rtcp = leg % e.sh.rtcp) (once : e.rtcpAt ≠ some s.clk.stamp) :
    exec (.rtcpReportSend leg) s = .next (rtcpReport leg e s) := by
  change execRtcpReportSend leg s = _
  simp [execRtcpReportSend, egr, ctl, active, path, due, once]

/-- The header record that a write leaves. -/
def hdrNext (f : LdgHdr → LdgHdr) (s : State) : LdgHdr :=
  { f (hdrNow s) with
    seq := ((hdrNow s).seq + 1) % 2 ^ 32
    ok := true
    writes := (if hdrNewest s ≠ some true then s.ldg.hdrA.writes else s.ldg.hdrB.writes) + 1 }

/-- A header write leaves the copy that holds the newest and replaces the other (R381). -/
theorem hdrWrite_ldg (f : LdgHdr → LdgHdr) (s : State) : (hdrWrite f s).ldg =
    if hdrNewest s ≠ some true then { s.ldg with hdrA := hdrNext f s } else { s.ldg with hdrB := hdrNext f s } := by
  unfold hdrWrite
  dsimp only
  rw [(wearCheck_moves ..).ldg_eq, (ldgSync_moves _).ldg_eq, cinc_ldg]
  by_cases newest : hdrNewest s = some true
  · simp [newest, hdrNext]
  · simp [newest, hdrNext]

theorem exec_stampFloorWrite {s : State} (running : s.clk.running = true) (due : floorDue s = true) : exec .stampFloorWrite s =
    .next (hdrWrite (fun h => { h with floor := some (stampAdd s.clk.stamp 65536) }) s) := by
  change execStampFloorWrite s = _
  simp [execStampFloorWrite, running, due]

theorem exec_stampFloorWrite_early {s : State} (early : floorDue s = false) : exec .stampFloorWrite s = .next s := by
  change execStampFloorWrite s = _
  simp [execStampFloorWrite, early]

theorem exec_ddrRetrainPause {ch ns : Nat} {s : State} (up : chanUp ch s = true) (turn : s.clk.stamp % 64 = 5 * ch % 64) :
    exec (.ddrRetrainPause ch ns) s =
      .next (cinc (chanCnt ch 0x78) (fset (R.DDR_CH_RETRAIN_ns ch) ns (fset (R.DDR_CH_RETRAIN_stamp ch) s.clk.stamp s))) := by
  change execDdrRetrainPause ch ns s = _
  simp [execDdrRetrainPause, up, turn]

theorem periodicRows : Claims.PeriodicRows := by
  intro s
  refine ⟨?telemetry, ?report, ?floor, fun early => exec_stampFloorWrite_early early, ?pause⟩
  case telemetry =>
    intro fn t on due few
    rw [exec_telemetrySnapshot on due]
    refine ⟨fun full => ?_, fun room ok => ⟨_, rfl, telSnap_room _ on few room ok⟩⟩
    rw [telSnap_full _ on full]
  case report =>
    intro leg e l egr ctl active path due once
    exact exec_rtcpReportSend egr ctl active path due once
  case floor =>
    intro running due
    refine ⟨_, hdrNext (fun h => { h with floor := some (stampAdd s.clk.stamp 65536) }) s, exec_stampFloorWrite running due,
      ?_, rfl, rfl, rfl⟩
    rw [hdrWrite_ldg]
    by_cases newest : hdrNewest s = some true
    · have second : ¬ hdrNewest s ≠ some true := fun h => h newest
      exact .inl ⟨newest, by rw [if_neg second], by rw [if_neg second]⟩
    · exact .inr ⟨newest, by rw [if_pos newest], by rw [if_pos newest]⟩
  case pause =>
    intro ch ns _ short up low turn
    obtain ⟨t, e, m⟩ := execDdrRetrainPause_runs ch ns s
    have other : fkey (R.DDR_CH_RETRAIN_stamp ch) ≠ fkey (R.DDR_CH_RETRAIN_ns ch) := by
      simp [fkey, R.DDR_CH_RETRAIN_stamp, R.DDR_CH_RETRAIN_ns]
    have paused := e.symm.trans (exec_ddrRetrainPause (ns := ns) up turn)
    refine ⟨t, e, ?_, ?_, ?_, m.toChanges⟩ <;> cases paused
    · rw [cinc, fget_cadd, fget_fset]
      exact Nat.mod_eq_of_lt (b := 2 ^ 10) (by omega)
    · rw [cinc, fget_cadd, fget_fset_other _ _ _ _ other, fget_fset]
      exact Nat.mod_eq_of_lt low
    · exact tget_tset_same ..

/-- Settles O24, from block boundaries, PTP time and the rows that recur. -/
theorem clockwork : Obligations.Clockwork := ⟨blockBoundaries, ptpTime, periodicRows⟩

end Sys2Proof.Machine
end

section
/-! PROOFS. The end of a work item on a Tumbler core, and of an outstanding transfer (R21, R207, R221, R224, R236). -/

namespace Sys2Proof.Machine
open Sys2Proof.Claims

/-! ## The end of an item (R224, R236) -/

/-- An instruction that its core takes without a stall, a fault or a branch has issued. -/
theorem issue_ok {c w : Nat} {i : Item} {f : Item → Core → CoreRes} {after : State → State} {s : State} {k : Core} (ready : Ready c i s)
    (here : (coreGet c s).holds w = .here) (goes : f i (atIssue c s) = .ok k) : issue c w f after s = after (issued c k s) := by
  obtain ⟨runs, slots, quiet⟩ := ready
  have goes : f i (coreGet c s).land = .ok k := goes
  have few : ¬ i.maxCycles ≤ (coreGet c s).issued := Nat.not_le.mpr slots
  by_cases dbg : coreSt c s = csDebug
  · obtain ⟨noBreak, noStep, noHalt⟩ := quiet dbg
    simp [issue, runs, here, few, goes, noBreak, noStep, noHalt, issued]
  · simp [issue, runs, here, few, goes, dbg, issued]

theorem exec_tmbEnd {c : Nat} {i : Item} {s : State} (ready : Ready c i s) (held : Holds c (.tmbEnd c) s) (ok : (atIssue c s).rd 0 = 0) :
    exec (.tmbEnd c) s = .next (itemEnd c (issued c (atIssue c s) s)) := by
  change execTmbEnd c s = _
  rw [execTmbEnd, issue_ok ready (held _ rfl) (if_pos ok)]

theorem coreGet_issued (c : Nat) (k : Core) (s : State) : coreGet c (issued c k s) = (coreGet c s).advance none k :=
  coreGet_corePut ..

theorem tumblerEnd : Claims.TumblerEnd := by
  intro c i s h ready ok _ s1 left s2 s3 s4 item held
  have runs : (coreGet c s1).item = some h := by rw [coreGet_issued]; exact item
  rw [exec_tmbEnd ready held ok, itemEnd]
  simp only [runs, s1, left, s2, s3, s4]

/-! ## The end of a transfer (R21, R207, R221) -/

theorem exec_transferComplete (c n : Nat) (s : State) : exec (.transferComplete c n) s = .next (xferDone c n s) := rfl

/-- The state once outstanding transfer `n` of core `c` is outstanding no more. -/
def xferTaken (c n : Nat) (s : State) : State := corePut c { coreGet c s with xfers := (coreGet c s).xfers.eraseIdx n } s

theorem corePut_eraseIdx (c n : Nat) (s : State) :
    corePut c { coreGet c s with xfers := (coreGet c s).xfers.eraseIdx n } s = xferTaken c n s := rfl

@[simp] theorem coreGet_xferTaken (c n : Nat) (s : State) :
    coreGet c (xferTaken c n s) = { coreGet c s with xfers := (coreGet c s).xfers.eraseIdx n } := coreGet_corePut ..

@[simp] theorem itemFind_xferTaken (h c n : Nat) (s : State) : itemFind h (xferTaken c n s) = itemFind h s := rfl

@[simp] theorem dramRead_xferTaken (a m c n : Nat) (s : State) : dramRead a m (xferTaken c n s) = dramRead a m s := rfl

/-- Outstanding transfer `n` of core `c` is `t`, of the item `i` that the core runs. -/
structure OwnXfer (c n : Nat) (i : Item) (t : Xfer) (s : State) : Prop where
  out : (coreGet c s).xfers[n]? = some t
  runs : (coreGet c s).item = some t.handle
  found : itemFind t.handle s = some i

section
variable {c n : Nat} {i : Item} {t : Xfer} {s : State}

theorem xferDone_initial (own : OwnXfer c n i t s) (init : t.init = true) :
    xferDone c n s = corePut c ((coreGet c (xferTaken c n s)).fill t.ymem t.laddr t.data) (xferTaken c n s) := by
  obtain ⟨out, runs, found⟩ := own
  simp only [xferDone, out, corePut_eraseIdx]
  simp [found, runs, init]

theorem xferDone_read (own : OwnXfer c n i t s) (init : t.init = false) (inside : trussStray i.d.ring t.truss t.len (xferTaken c n s) = none)
    (read : t.read = true) (clean : poisoned t.truss t.len (xferTaken c n s) = false) : xferDone c n s =
      corePut c ((coreGet c (xferTaken c n s)).fill t.ymem t.laddr (dramRead t.truss t.len s)) (xferTaken c n s) := by
  obtain ⟨out, runs, found⟩ := own
  simp only [xferDone, out, corePut_eraseIdx]
  simp [found, runs, init, inside, read, clean]

theorem xferDone_write (own : OwnXfer c n i t s) (live : i.st ≠ .ended c) (init : t.init = false)
    (inside : trussStray i.d.ring t.truss t.len (xferTaken c n s) = none) (write : t.read = false) : xferDone c n s =
      itemPut t.handle { i with writes := i.writes ++ [(t.truss, t.data)] } (xferTaken c n s) := by
  obtain ⟨out, runs, found⟩ := own
  simp only [xferDone, out, corePut_eraseIdx]
  simp [found, live, init, inside, write]

/-- A blocked access is counted and reported; its read brings zeros, and its item faults at the instruction that asked for it. -/
theorem xferDone_stray {a : Nat} (own : OwnXfer c n i t s) (init : t.init = false)
    (outside : trussStray i.d.ring t.truss t.len (xferTaken c n s) = some a) :
    let s2 := isolationBlock i.d.ring a (unitCore c) (xferTaken c n s)
    xferDone c n s = kernelFaultAt c cXferBlocked t.pc
      (if t.read = true then corePut c ((coreGet c s2).fill t.ymem t.laddr (List.replicate t.len 0)) s2 else s2) := by
  obtain ⟨out, runs, found⟩ := own
  simp only [xferDone, out, corePut_eraseIdx]
  simp [found, runs, init, outside]

end

theorem transferCompletes : Claims.TransferCompletes := by
  intro c n h i t s out runs owns found running k s1
  subst owns
  have own : OwnXfer c n i t s := ⟨out, runs, found⟩
  have live : i.st ≠ .ended c := by simp [running]
  have core : coreGet c (xferTaken c n s) = k := coreGet_xferTaken ..
  refine ⟨fun init => ?_, fun init inside read clean => ?_, fun init inside write => ?_, fun a init outside => ?_⟩ <;>
    rw [exec_transferComplete]
  · rw [xferDone_initial own init, core]
    rfl
  · rw [xferDone_read own init inside read clean, core]
    rfl
  · rw [xferDone_write own live init inside write]
    rfl
  · rw [xferDone_stray own init outside]
    rfl

/-- Settles O6, from the issue of END and the four outcomes of a transfer of the running item. -/
theorem tumblerEnds : Obligations.TumblerEnds := ⟨tumblerEnd, transferCompletes⟩

end Sys2Proof.Machine
end

section
/-! PROOFS. Host commands at their entry (R17, R79, R82 to R84), the plain queries (R83, R464) and the always-on commands (R83, R93, R140,
R410, R420). -/

namespace Sys2Proof.Machine
open Sys2Proof.Claims

/-! ## A command's entry (R17, R79, R82 to R84) -/

/-- Every row of a host command runs what its command does once it is in. -/
theorem exec_commandRows (c : Cmd) (s : State) : ∀ p ∈ commandRows c, ∃ f, exec p.2 s = .next (commandRow p.1 c f s) := by
  unfold commandRows
  repeat' refine List.forall_mem_cons.mpr ⟨⟨_, rfl⟩, ?_⟩
  exact List.forall_mem_nil _

theorem opKind_commandRows (c : Cmd) : ∀ p ∈ commandRows c, ∃ k, opKind p.1 = some k := by
  unfold commandRows
  repeat' refine List.forall_mem_cons.mpr ⟨⟨_, rfl⟩, ?_⟩
  exact List.forall_mem_nil _

section
variable {op : Nat} {c : Cmd} {f : Option Nat → State → State} {s : State}

theorem commandRow_closed (closed : intakeOpen c.fn s = false) : commandRow op c f s = s := by
  simp [commandRow, closed]

theorem commandRow_refused {r : Rsp} (intake : intakeOpen c.fn s = true) (refused : (takeIn op c s).refuse = some r) :
    commandRow op c f s = answered op c s (complOf c.tag op r) (entered op c s) := by
  simp [commandRow, intake, refused, answered, entered]

theorem commandRow_enters (enters : Enters op c s) : commandRow op c f s = f (takeIn op c s).slot (entered op c s) := by
  obtain ⟨intake, taken⟩ := enters
  simp [commandRow, intake, taken, entered]

theorem takeIn_slotBusy (result : bit c.flags 0 = true) (busy : (tfind s.hif.slots (slotKey c.fn (c.tag % 64))).isSome = true) :
    (takeIn op c s).refuse = some (rspErr stSlotBusy) := by
  simp [takeIn, result, busy]

/-- The place in flight is another field than the image's state. -/
theorem ringDefined_inFlight (r : Nat) (fn : Fn) (n : Nat) (s : State) :
    ringDefined r (fset (R.CMD_STATUS_in_flight fn) n s) = ringDefined r s := by
  have other : fkey R.FRM_STATUS_state ≠ fkey (R.CMD_STATUS_in_flight fn) := by
    simp only [fkey, R.FRM_STATUS_state, R.CMD_STATUS_in_flight]
    omega
  simp [ringDefined, imgActive, fget_fset_other _ _ _ _ other]

/-- A VF's command whose slot is not asked for meets the checks of its entry. -/
theorem takeIn_vf {r : Nat} (plain : bit c.flags 0 = false) (vf : c.fn = .vf r) (undefined : ringDefined r s = false) :
    (takeIn op c s).refuse = some (rspErr stNoRing) := by
  simp [takeIn, plain, intakeCheck, vf, ringDefined_inFlight, undefined]

theorem takeIn_denied {r : Nat} {k : OpKind} (plain : bit c.flags 0 = false) (vf : c.fn = .vf r) (defined : ringDefined r s = true)
    (known : opKind op = some k) (pf : pfOnly op = true) : (takeIn op c s).refuse = some (rspErr stDenied) := by
  simp [takeIn, plain, intakeCheck, vf, ringDefined_inFlight, defined, known, pf]

end

theorem refusedEntries : Claims.RefusedEntries := by
  intro c s op i row
  obtain ⟨f, runs⟩ := exec_commandRows c s _ row
  obtain ⟨k, known⟩ := opKind_commandRows c _ row
  simp only at runs known
  refine ⟨fun closed => ?_, fun r intake refused => ?_, takeIn_slotBusy, fun plain r => takeIn_vf plain, fun plain r vf defined pf =>
    takeIn_denied plain vf defined known pf⟩
  · rw [runs, commandRow_closed closed]
  · rw [runs, commandRow_refused intake refused]

/-! ## The plain queries (R83, R464) -/

theorem completes_answered (op e : Nat) (c : Cmd) (s t : State) (r : Rsp) :
    Completes op c r e (answered op c s { complOf c.tag op r with effect := e } t) := queryEnd_last ..

/-- A query that is answered as it enters. -/
theorem changes_answered (op : Nat) (c : Cmd) (s : State) (cp : Compl) :
    Changes [.mem, .regs, .cnt, .hif, .ddr, .out] s (answered op c s cp (entered op c s)) :=
  (Moves.seq (queryEnd_moves ..) (by decide) ((takeIn_moves op c s).mono (by decide))).toChanges

/-- A completion carries one result. -/
theorem completes_result {op e : Nat} {c : Cmd} {r q : Rsp} {t : State} (h : Completes op c r e t) (k : Completes op c q e t) :
    r.result = q.result := congrArg Compl.result (Option.some.inj (h.symm.trans k))

theorem exec_nop {c : Cmd} {s : State} (enters : Enters 0x00 c s) (rest : czero c 0x18 = true) :
    exec (.nop c) s = .next (answered 0x00 c s (complOf c.tag 0x00 rspOk) (entered 0x00 c s)) := by
  change execNop c s = _
  simp [execNop, commandRow_enters enters, queryRun, doNop, answer, rest, answered]

theorem exec_identify {c : Cmd} {s : State} (enters : Enters 0x01 c s) (rest : czero c 0x18 = true) :
    exec (.identify c) s = .next (answered 0x01 c s (complOf c.tag 0x01 (rspRes (glbId + (match c.fn with
      | .pf => 2 ^ 36
      | .vf r => r * 2 ^ 32)))) (entered 0x01 c s)) := by
  change execIdentify c s = _
  simp only [execIdentify, commandRow_enters enters, queryRun, doIdentify, answer, rest, if_true]
  rfl

theorem exec_ringStatus {c : Cmd} {s : State} {r : Nat} (enters : Enters 0x02 c s) (rest : czero c 0x18 = true)
    (names : c.fn = .pf ∧ c.target = r ∨ c.fn = .vf r) (known : r < 16) : exec (.ringStatus c) s =
      .next (answered 0x02 c s (complOf c.tag 0x02 (rspRes (ringStatus r (entered 0x02 c s)))) (entered 0x02 c s)) := by
  change execRingStatus c s = _
  have low : ¬ 16 ≤ r := Nat.not_le.mpr known
  rcases names with ⟨pf, rfl⟩ | vf
  · simp [execRingStatus, commandRow_enters enters, queryRun, doRingStatus, answer, rest, answered, pf, low]
  · simp [execRingStatus, commandRow_enters enters, queryRun, doRingStatus, answer, rest, answered, vf, low]

theorem plainQueries : Claims.PlainQueries := by
  intro c s rest
  refine ⟨fun enters => ⟨_, exec_nop enters rest, ?_, changes_answered ..⟩,
    fun enters => ⟨_, exec_identify enters rest, ?_, changes_answered ..⟩,
    fun r names known enters => ⟨_, exec_ringStatus enters rest names known, ?_, changes_answered ..⟩⟩
  all_goals exact completes_answered ..

/-! ## The always-on commands (R83, R93, R140, R410, R420) -/

theorem entered_clk (op : Nat) (c : Cmd) (s : State) : (entered op c s).clk = s.clk := (takeIn_moves op c s).clk_eq

/-- An always-on command that enters meets the state that the mailbox leaves and completes in the current block. -/
theorem commandRow_alwaysOn {op : Nat} {f : Cmd → State → State × Rsp} {c : Cmd} {s t : State} {r : Rsp} (enters : Enters op c s)
    (runs : f c (settled op c s) = (t, r)) :
    commandRow op c (aonRun op f c) s = answered op c s { complOf c.tag op r with effect := s.clk.stamp } t := by
  have runs : f c (mbxRun (entered op c s)) = (t, r) := runs
  rw [commandRow_enters enters, aonRun, runs, entered_clk]
  rfl

theorem applyKeyZeroise_ok {c : Cmd} {sc : ZScope} (s : State) : zeroScope c = .ok sc →
    applyKeyZeroise c s = (zeroise sc (match sc with
      | .device => 1
      | .ring _ => 2) s, rspOk) := by
  intro scope
  cases sc <;> simp [applyKeyZeroise, scope]

theorem exec_keyZeroise {c : Cmd} {s : State} {sc : ZScope} (enters : Enters 0x48 c s) : zeroScope c = .ok sc →
    exec (.keyZeroise c) s = .next (answered 0x48 c s { complOf c.tag 0x48 rspOk with effect := s.clk.stamp } (zeroise sc (match sc with
      | .device => 1
      | .ring _ => 2) (settled 0x48 c s))) := by
  intro scope
  exact congrArg Host.Outcome.next (commandRow_alwaysOn enters (applyKeyZeroise_ok _ scope))

theorem exec_bayQuarantine {c : Cmd} {s : State} (enters : Enters 0x50 c s) (bay : c.target < 4) (rest : czero c 0x18 = true)
    (present : baySt c.target (settled 0x50 c s) ≠ bsLost) (serves : baySt c.target (settled 0x50 c s) ≠ bsQuar) :
    exec (.bayQuarantine c) s = .next (answered 0x50 c s { complOf c.tag 0x50 rspOk with effect := s.clk.stamp }
      (bayOut c.target bcAdmin (unitBay c.target) 8 (settled 0x50 c s))) := by
  change execBayQuarantine c s = _
  rw [execBayQuarantine, commandRow_alwaysOn enters]
  simp [applyBayQuarantine, bayArgs, bayQuarantine, bayLost, Nat.not_le.mpr bay, rest, present, serves]

theorem exec_bayWarmReset {c : Cmd} {s : State} (enters : Enters 0x51 c s) (bay : c.target < 4) (rest : czero c 0x18 = true)
    (out : baySt c.target (settled 0x51 c s) = bsQuar) :
    exec (.bayWarmReset c) s = .next (answered 0x51 c s { complOf c.tag 0x51 rspOk with effect := s.clk.stamp }
      (bayWarmReset c.target (settled 0x51 c s))) := by
  change execBayWarmReset c s = _
  rw [execBayWarmReset, commandRow_alwaysOn enters]
  simp [applyBayWarmReset, bayArgs, Nat.not_le.mpr bay, rest, out]

/-- The entries of the fault log from index `first` up that can be read, of `n`. -/
def readableEntries (first n : Nat) (s : State) : List (List Byte) := (List.range n).filterMap fun j => logEntry (first + j) s

/-- FAULTLOG_READ counts the entries it has read: one with an uncorrectable word is left out (log entry 111). -/
theorem exec_faultlogRead {c : Cmd} {s : State} (enters : Enters 0x60 c s) (aligned : carg c 0x18 8 % 64 = 0) (least : 1 ≤ carg c 0x20 4)
    (few : carg c 0x20 4 ≤ 64) (rest : czero c 0x24 = true) (first : (logEntry c.target (settled 0x60 c s)).isSome = true)
    (reached : hostOk (carg c 0x18 8) (64 * min (carg c 0x20 4) (fget R.LDG_LOG_NEXT_next (settled 0x60 c s) - c.target))
      (settled 0x60 c s) = true) :
    let k := min (carg c 0x20 4) (fget R.LDG_LOG_NEXT_next (settled 0x60 c s) - c.target)
    let l := readableEntries c.target k (settled 0x60 c s)
    exec (.faultlogRead c) s = .next (answered 0x60 c s
      { complOf c.tag 0x60 (rspRes (l.length + fget R.LDG_LOG_OLDEST_oldest (settled 0x60 c s) * 2 ^ 32)) with effect := s.clk.stamp }
      (hostWrite (carg c 0x18 8) l.flatten (settled 0x60 c s))) := by
  intro k l
  change execFaultlogRead c s = _
  rw [execFaultlogRead, commandRow_alwaysOn enters]
  simp [applyFaultlogRead, within, aligned, least, few, rest, Option.isSome_iff_ne_none.mp first, reached, k, l, readableEntries]

/-- The PF's rings open, two entries in the fault log, the second with an uncorrectable word. -/
def spoiltLog : State :=
  let s := fset R.LDG_LOG_NEXT_next 2 (fset (R.CMD_RING_SIZE_cq_log2 .pf) 6 (fset (R.CMD_CTRL_enable .pf) 1 State.reset))
  { s with ldg := { s.ldg with bad := [faultLogAddr 1 / 64] } }

/-- FAULTLOG_READ of two entries from index 0, to host address 0. -/
def readBoth : Cmd := ⟨.pf, 0, 0, 0, 0, 0, List.replicate 8 0 ++ [2] ++ List.replicate 31 0⟩

theorem readBoth_enters : Enters 0x60 readBoth spoiltLog := ⟨by decide, by decide⟩

/-- Refutes O11: FAULTLOG_READ of two entries, the second with an uncorrectable word, completes with a count of 1, where AlwaysOnCommands
says 2. The plain queries, the refused entries and the other always-on commands are as stated (the theorems above). -/
theorem not_queriesAndAlwaysOn : ¬ Obligations.QueriesAndAlwaysOn := by
  rintro ⟨_, _, alwaysOn⟩
  obtain ⟨_, _, _, faultlogRead⟩ := alwaysOn readBoth spoiltLog
  have aligned : carg readBoth 0x18 8 % 64 = 0 := by decide
  have two : carg readBoth 0x20 4 = 2 := by decide
  have rest : czero readBoth 0x24 = true := by decide
  have first : (logEntry readBoth.target (settled 0x60 readBoth spoiltLog)).isSome = true := by decide
  have reached : hostOk (carg readBoth 0x18 8) (64 * min (carg readBoth 0x20 4)
      (fget R.LDG_LOG_NEXT_next (settled 0x60 readBoth spoiltLog) - readBoth.target)) (settled 0x60 readBoth spoiltLog) = true := by decide
  have stated := faultlogRead readBoth_enters aligned (by omega) (by omega) rest first reached
  have runs := exec_faultlogRead readBoth_enters aligned (by omega) (by omega) rest first reached
  have same := Host.Outcome.next.inj (runs.symm.trans stated)
  have counts : 2 = 1 := completes_result (completes_answered 0x60 _ readBoth spoiltLog _ _) (same ▸ completes_answered ..)
  exact absurd counts (by decide)

end Sys2Proof.Machine
end

section
/-! PROOFS. Acts admitted and released at their boundary (R33, R87). -/

namespace Sys2Proof.Machine
open Sys2Proof.Claims

theorem Moves.ctl_eq {ps : List Part} {s t : State} (h : Moves ps s t) (n : Part.ctl ∉ ps := by decide) : t.ctl = s.ctl :=
  h.same .ctl n

/-! ## A command without an effect stamp at its boundary (R81) -/

/-- A command of no effect stamp is applied and ends at boundary `b`, without lateness and without a record of the configuration. -/
theorem applyFlight_now {op b : Nat} {c : Cmd} {s s1 t : State} {r : Rsp} (now : c.effectStamp = 0)
    (runs : applyOf op (inFlight op c s).data c b s1 = (t, some r)) (plain : configTrace op c (inFlight op c s).data b t = t) :
    applyFlight (inFlight op c s) b s1 = ended op c b s r t := by
  have runs : applyOf (inFlight op c s).opcode (inFlight op c s).data (inFlight op c s).cmd b s1 = (t, some r) := runs
  have plain : configTrace (inFlight op c s).opcode (inFlight op c s).cmd (inFlight op c s).data b t = t := plain
  have stamp : (inFlight op c s).cmd.effectStamp = 0 := now
  simp only [applyFlight, stamp, runs, plain]
  simp [ended, inFlight, flightOf]

theorem completes_ended (op b : Nat) (c : Cmd) (s t : State) (r : Rsp) : Completes op c r b (ended op c b s r t) :=
  flightEnd_last _ _ _ rfl

theorem ended_ctl (op b : Nat) (c : Cmd) (s t : State) (r : Rsp) : (ended op c b s r t).ctl = t.ctl :=
  (flightEnd_moves ..).ctl_eq

/-! ## Acts (R33, R87) -/

theorem exec_actAdmit {c : Cmd} {s : State} (enters : Enters 0x20 c s) : exec (.actAdmit c) s = .next (held 0x20 c s) := by
  change execActAdmit c s = _
  rw [execActAdmit, commandRow_enters enters]
  rfl

theorem exec_actRelease {c : Cmd} {s : State} (enters : Enters 0x21 c s) : exec (.actRelease c) s = .next (held 0x21 c s) := by
  change execActRelease c s = _
  rw [execActRelease, commandRow_enters enters]
  rfl

theorem chargeUp_acts (r bay : Nat) (ch : Charge) (s : State) : (chargeUp r bay ch s).ctl.acts = s.ctl.acts := by
  unfold chargeUp
  split <;> rfl

theorem chargeDown_acts (r bay : Nat) (ch : Charge) (s : State) : (chargeDown r bay ch s).ctl.acts = s.ctl.acts := by
  unfold chargeDown
  split <;> rfl

/-- An Act that may be admitted is, with its template and its charge. -/
theorem applyActAdmit_ok {c : Cmd} {ring bay : Nat} {t : Template} {s : State} (b : Nat) (mine : Mine c 1 actLimit c.target ring s)
    (named : template ring (carg c 0x18 2) s = some t) (least : 2 ≤ carg c 0x1A 2) (most : carg c 0x1A 2 ≤ 16384)
    (pair : t.mixing = true ∨ carg c 0x1A 2 = 2) (rest : czero c 0x1C = true) (new : tfind s.ctl.acts c.target = none)
    (placed : place ring (chargeOf 0 (actUnits (carg c 0x1A 2) t)) s = some bay) :
    ∃ u, applyActAdmit c b s = (u, some rspOk) ∧ u.ctl.acts = tset s.ctl.acts c.target
      ⟨ring, t, carg c 0x1A 2, bay, chargeOf 0 (actUnits (carg c 0x1A 2) t)⟩ := by
  obtain ⟨owned, ringed⟩ := mine
  have legs : (!t.mixing && decide (carg c 0x1A 2 ≠ 2)) = false := by
    rcases pair with mixing | two
    · simp [mixing]
    · simp [two]
  refine ⟨_, by simp only [applyActAdmit, owned, ringed, Option.getD_some, named, within, least, most, legs, rest, new, placed]; rfl, ?_⟩
  rw [(audActAdmit_moves ..).ctl_eq]
  exact congrArg (tset · _ _) ((chargeUp_acts ..).trans (congrArg Ctl.acts (cntClear_moves ..).ctl_eq))

/-- An Act without legs is released, its charge returned. -/
theorem applyActRelease_ok {c : Cmd} {ring : Nat} {a : Act} {s : State} (b : Nat) (mine : Mine c 1 actLimit c.target ring s)
    (rest : czero c 0x18 = true) (admitted : tfind s.ctl.acts c.target = some a) (empty : actLegs c.target s = []) :
    ∃ u, applyActRelease c b s = (u, some rspOk) ∧ u.ctl.acts = terase s.ctl.acts c.target := by
  obtain ⟨owned, _⟩ := mine
  refine ⟨_, by simp only [applyActRelease, owned, rest, admitted, empty]; rfl, ?_⟩
  rw [(drainForget_moves ..).ctl_eq, (audActFree_moves ..).ctl_eq]
  exact congrArg (terase · _) (chargeDown_acts ..)

/-- Settles O14, from the effect of each command at its boundary. -/
theorem actCommands : Obligations.ActCommands := by
  constructor
  · intro c s s1 b ring bay t ⟨enters, now⟩ n mine named least most pair rest new placed
    obtain ⟨u, runs, acts⟩ := applyActAdmit_ok b mine named least most pair rest new placed
    refine ⟨exec_actAdmit enters, _, applyFlight_now (op := 0x20) now runs rfl, completes_ended .., ?_, fun k other => ?_⟩
    · rw [ended_ctl, acts, tfind_tset_same]
    · rw [ended_ctl, acts, tfind_tset_other _ _ _ _ other]
  · intro c s s1 b ring a ⟨enters, now⟩ mine rest admitted empty
    obtain ⟨u, runs, acts⟩ := applyActRelease_ok b mine rest admitted empty
    refine ⟨exec_actRelease enters, _, applyFlight_now (op := 0x21) now runs rfl, completes_ended .., ?_, fun k other => ?_⟩
    · rw [ended_ctl, acts, tfind_terase_same]
    · rw [ended_ctl, acts, tfind_terase_other _ _ _ other]

end Sys2Proof.Machine
end

section
/-! PROOFS. Configuration commands: held until their boundary, taken there in the order of the SQ, and how late (R63, R81). -/

namespace Sys2Proof.Machine
open Sys2Proof.Claims

/-! ## Held until the boundary (R81) -/

theorem exec_configRows (c : Cmd) (s : State) : ∀ p ∈ configRows c, exec p.2 s = .next (commandRow p.1 c (configRun p.1 c) s) := by
  unfold configRows
  repeat' refine List.forall_mem_cons.mpr ⟨rfl, ?_⟩
  exact List.forall_mem_nil _

theorem exec_configRow {c : Cmd} {s : State} {op : Nat} {i : Instr} (row : (op, i) ∈ configRows c) (enters : Enters op c s) :
    exec i s = .next (held op c s) := by
  have runs : exec i s = .next (commandRow op c (configRun op c) s) := exec_configRows c s _ row
  rw [runs, commandRow_enters enters]
  rfl

/-- AUD_SAFE_LOAD and LAYOUT_SET fetch their table as they are taken in. -/
theorem inFlight_table {op : Nat} {c : Cmd} {s : State} (takes : op = 0x30 ∨ op = 0x31) (short : carg c 0x20 4 ≤ 524352) :
    (inFlight op c s).data =
      if hostOk (carg c 0x18 8) (carg c 0x20 4) (entered op c s) = true then
        some (hostRead (carg c 0x18 8) (carg c 0x20 4) (entered op c s))
      else none := by
  change cmdFetch op c (entered op c s) = _
  rcases takes with rfl | rfl <;> simp [cmdFetch, short]

/-! ## What is taken at a boundary (R81) -/

/-- A command in flight of function `fn` that is due at boundary `b`. -/
def dueFor (fn : Fn) (b : Nat) (f : Flight) : Bool := decide (f.cmd.fn = fn) && flightDue b f

theorem flightDue_iff {f : Flight} (b : Nat) (waits : f.effective = false) :
    flightDue b f = true ↔ f.cmd.effectStamp = 0 ∨ stampGe b f.cmd.effectStamp = true := by
  simp [flightDue, waits]

section
variable {fn : Fn} {b n : Nat} {f : Flight} (l : List Flight)

theorem flightsDue_take (due : dueFor fn b f = true) : flightsDue fn (n + 1) b (f :: l) =
    (f :: (flightsDue fn n b l).1, (flightsDue fn n b l).2) := by
  obtain ⟨mine, due⟩ : f.cmd.fn = fn ∧ flightDue b f = true := by simpa [dueFor] using due
  simp [flightsDue, mine, due]

theorem flightsDue_full : flightsDue fn 0 b (f :: l) = ((flightsDue fn 0 b l).1, f :: (flightsDue fn 0 b l).2) := by
  simp [flightsDue]

theorem flightsDue_leave (waits : dueFor fn b f = false) : flightsDue fn n b (f :: l) =
    ((flightsDue fn n b l).1, f :: (flightsDue fn n b l).2) := by
  have waits : f.cmd.fn = fn → flightDue b f = false := by simpa [dueFor] using waits
  simp only [flightsDue, ite_eq_right_iff]
  intro taken
  simp only [Bool.and_eq_true, decide_eq_true_eq] at taken
  exact absurd taken.2 (by simp [waits taken.1.2])

end

/-- The first `n` due commands are taken, in their order. -/
theorem flightsDue_fst (fn : Fn) (n b : Nat) (l : List Flight) : (flightsDue fn n b l).1 = (l.filter (dueFor fn b)).take n := by
  induction l generalizing n with
  | nil => simp [flightsDue]
  | cons f l ih =>
    cases due : dueFor fn b f with
    | false => rw [flightsDue_leave l due, ih, List.filter_cons_of_neg (by simp [due])]
    | true =>
      rw [List.filter_cons_of_pos due]
      cases n with
      | zero => rw [flightsDue_full, ih, List.take_zero, List.take_zero]
      | succ n => rw [flightsDue_take l due, ih, List.take_succ_cons]

theorem flightsDue_snd_sublist (fn : Fn) (n b : Nat) (l : List Flight) : (flightsDue fn n b l).2.Sublist l := by
  induction l generalizing n with
  | nil => exact List.Sublist.refl _
  | cons f l ih =>
    cases due : dueFor fn b f with
    | false => exact flightsDue_leave l due ▸ (ih n).cons_cons f
    | true =>
      cases n with
      | zero => exact flightsDue_full l ▸ (ih 0).cons_cons f
      | succ n => exact flightsDue_take l due ▸ (ih n).cons f

/-- Where the due commands are few enough, those that are not due are what is left. -/
theorem flightsDue_snd {fn : Fn} {n b : Nat} {l : List Flight} (few : (l.filter (dueFor fn b)).length ≤ n) :
    (flightsDue fn n b l).2 = l.filter fun f => !dueFor fn b f := by
  induction l generalizing n with
  | nil => rfl
  | cons f l ih =>
    cases due : dueFor fn b f with
    | false =>
      rw [List.filter_cons_of_neg (by simp [due])] at few
      rw [flightsDue_leave l due, ih few, List.filter_cons_of_pos (by simp [due])]
    | true =>
      rw [List.filter_cons_of_pos due, List.length_cons] at few
      obtain ⟨m, rfl⟩ : ∃ m, n = m + 1 := ⟨n - 1, by omega⟩
      rw [flightsDue_take l due, ih (by omega), List.filter_cons_of_neg (by simp [due])]

/-- The only due command of a function is applied, and the others wait on. -/
theorem configBoundary_one {f : Flight} {l r : List Flight} {b : Nat} {s : State} (flight : s.hif.flight = l ++ f :: r)
    (due : flightDue b f = true) (others : ∀ x ∈ l ++ r, dueFor f.cmd.fn b x = false) :
    configBoundary b f.cmd.fn s = applyFlight f b { s with hif := { s.hif with flight := l ++ r } } := by
  have mine : dueFor f.cmd.fn b f = true := by simp [dueFor, due]
  have before : l.filter (dueFor f.cmd.fn b) = [] := List.filter_eq_nil_iff.mpr fun x mem => by
    simp [others x (List.mem_append_left r mem)]
  have after : r.filter (dueFor f.cmd.fn b) = [] := List.filter_eq_nil_iff.mpr fun x mem => by
    simp [others x (List.mem_append_right l mem)]
  have taken : (l ++ f :: r).filter (dueFor f.cmd.fn b) = [f] := by
    rw [List.filter_append, before, List.filter_cons_of_pos mine, after, List.nil_append]
  have left : (l ++ f :: r).filter (fun x => !dueFor f.cmd.fn b x) = l ++ r := by
    rw [List.filter_append, List.filter_cons_of_neg (by simp [mine]), ← List.filter_append]
    exact List.filter_eq_self.mpr fun x mem => by simp [others x mem]
  have fst : (flightsDue f.cmd.fn 512 b (l ++ f :: r)).1 = [f] := by rw [flightsDue_fst, taken]; rfl
  have snd : (flightsDue f.cmd.fn 512 b (l ++ f :: r)).2 = l ++ r := by rw [flightsDue_snd (by simp [taken]), left]
  rw [configBoundary, flight]
  simp only [fst, snd, List.foldl_cons, List.foldl_nil]

theorem configCommandsWait : Claims.ConfigCommandsWait := by
  refine ⟨fun c s op i => exec_configRow, fun f l r b s flight due others => ?_, fun f b => flightDue_iff b,
    fun c s op => inFlight_table, fun fn b n l => ⟨?_, ?_, flightsDue_snd_sublist fn n b l, fun few => ?_⟩⟩
  · refine configBoundary_one flight due fun x mem => ?_
    rcases others x mem with foreign | waits
    · simp [dueFor, foreign]
    · simp [dueFor, waits]
  · rw [flightsDue_fst]
    exact List.length_take_le ..
  · rw [flightsDue_fst]
    exact List.take_sublist ..
  · rw [flightsDue_fst]
    exact List.take_of_length_le few

/-! ## Late commands (R63) -/

/-- A command that ends at its boundary carries the boundary and, where its stamp has passed, its lateness. -/
theorem applyFlight_ends {f : Flight} {b : Nat} {r : Rsp} {s t : State} (stamp : f.cmd.effectStamp < 2 ^ 48)
    (runs : applyOf f.opcode f.data f.cmd b s = (t, some r)) :
    let late := decide (f.cmd.effectStamp ≠ 0) && stampAfter b f.cmd.effectStamp
    ∃ x, applyFlight f b s = flightEnd { f with
      effective := true
      effect := b
      late := late
      lateness := if late then stampSub b f.cmd.effectStamp else 0 } r x := by
  refine ⟨if r.status = stOk then configTrace f.opcode f.cmd f.data b t else t, ?_⟩
  simp only [applyFlight, runs, Nat.mod_eq_of_lt stamp]

theorem configCommandsLate : Claims.ConfigCommandsLate := by
  intro c s s1 t op b i r row enters stamp runs
  refine ⟨exec_configRow row enters, _, rfl, ?_⟩
  obtain ⟨x, ends⟩ := applyFlight_ends (f := inFlight op c s) stamp runs
  rw [ends]
  exact flightEnd_last _ _ _ rfl

/-- Settles O13, from the commands that a boundary takes, the first 512 due in the order of the SQ, and from the end of one of them. -/
theorem configTiming : Obligations.ConfigTiming := ⟨configCommandsWait, configCommandsLate⟩

end Sys2Proof.Machine
end

section
/-! PROOFS. Framing operations phase by phase, and the revocation of a signer (R56 to R61, R65, R70). -/

namespace Sys2Proof.Machine
open Sys2Proof.Claims

/-! ## The records of an operation -/

@[simp] theorem lopFind_lopPut (l : Lop) (s : State) : lopFind l.fn l.tag (lopPut l s) = some l := tfind_tset_same _ _ _

@[simp] theorem timberKey_verifyOnly (fn : Fn) (tag : Nat) (s : State) : timberKey fn tag (verifyOnly s) = timberKey fn tag s := rfl

/-- An operation that runs goes on past a safe point. -/
theorem frmSafe_running {fn : Fn} {tag : Nat} {l : Lop} {s : State} (found : lopFind fn tag s = some l) (running : l.st = .running) :
    frmSafe fn tag s = s := by
  simp [frmSafe, lopSafe, found, running]

/-! ## The queue left (R61) -/

section
variable {fn : Fn} {tag : Nat} {l : Lop} {o : FrmOp} {s : State}

theorem lopBegin_queued (found : lopFind fn tag s = some l) (queued : l.st = .queued) :
    lopBegin fn tag s = lopPut { l with st := .running, started := true } s := by
  simp [lopBegin, found, queued]

theorem frmDequeue_begins (found : lopFind fn tag s = some l) (op : frmOp fn tag s = some o) (queued : l.st = .queued)
    (may : mayDequeue l o s = true) : frmDequeue fn tag s =
      if o.kind = 0 then fset R.FRM_STATUS_state 1 (lopBegin fn tag s) else lopBegin fn tag s := by
  simp [frmDequeue, found, op, queued, may]

theorem exec_framingDequeue_begins (found : lopFind fn tag s = some l) (op : frmOp fn tag s = some o) (owner : l.fn = fn)
    (tagged : l.tag = tag) (queued : l.st = .queued) (may : mayDequeue l o s = true) :
    ∃ t, exec (.framingDequeue fn tag) s = .next t ∧ lopFind fn tag t = some { l with
      st := .running
      started := true } ∧ (o.kind = 0 → fget R.FRM_STATUS_state t = 1) ∧ (o.kind ≠ 0 → t.regs = s.regs) ∧ Changes [.regs, .hif] s t := by
  refine ⟨frmDequeue fn tag s, rfl, ?_, ?_, ?_, (frmDequeue_moves fn tag s).toChanges⟩ <;>
    rw [frmDequeue_begins found op queued may, lopBegin_queued found queued]
  · subst owner tagged
    split <;> exact lopFind_lopPut { l with st := .running, started := true } s
  · intro load
    rw [if_pos load, fget_fset]
    rfl
  · intro other
    rw [if_neg other]
    rfl

theorem exec_framingDequeue_waits (found : lopFind fn tag s = some l) (op : frmOp fn tag s = some o)
    (waits : mayDequeue l o s = false) : exec (.framingDequeue fn tag) s = .next s := by
  change Host.Outcome.next (frmDequeue fn tag s) = _
  simp [frmDequeue, found, op, waits]

/-! ## The phases (R56 to R60, R65) -/

theorem frmIn_of {ph : FrmPhase} (runs : FramingIn fn tag ph l o s) : frmIn fn tag ph s = some o := by
  obtain ⟨found, running, op, phase⟩ := runs
  simp [frmIn, found, running, op, phase, lopActive]

theorem frmSafe_frmPut {ph : FrmPhase} (runs : FramingIn fn tag ph l o s) (p : FrmOp) :
    frmSafe fn tag (frmPut fn tag p s) = frmPut fn tag p s := by
  obtain ⟨found, running, -, -⟩ := runs
  exact frmSafe_running (s := frmPut fn tag p s) found running

theorem exec_framingFetchChunk_down (runs : FramingIn fn tag .fetch l o s) (host : o.space ≠ 1) (down : s.mem.linkUp = false) :
    exec (.framingFetchChunk fn tag) s = .next s := by
  change Host.Outcome.next (frmFetch fn tag s) = _
  simp [frmFetch, frmIn_of runs, host, down]

/-- The image is read from DRAM, or from host memory over the link. -/
theorem fetch_goes (up : o.space = 1 ∨ s.mem.linkUp = true) : (decide (o.space ≠ 1) && !s.mem.linkUp) = false := by
  rcases up with dram | link
  · simp [dram]
  · simp [link]

section
variable (runs : FramingIn fn tag .fetch l o s) (up : o.space = 1 ∨ s.mem.linkUp = true)
include runs up

theorem exec_framingFetchChunk_reached (reached : imgReach o (o.addr + o.img.length) (min 65536 (o.length - o.img.length)) s = true) :
    let img := o.img ++ imgRead o (o.addr + o.img.length) (min 65536 (o.length - o.img.length)) s
    exec (.framingFetchChunk fn tag) s = .next (frmPut fn tag { o with
      img := img
      phase := if img.length = o.length then .sign else .fetch } s) := by
  intro img
  change Host.Outcome.next (frmFetch fn tag s) = _
  simp only [frmFetch, frmIn_of runs, chunk, fetch_goes up, reached, frmSafe_frmPut runs]
  rfl

theorem exec_framingFetchChunk_failed (failed : imgReach o (o.addr + o.img.length) (min 65536 (o.length - o.img.length)) s = false) :
    exec (.framingFetchChunk fn tag) s = .next (frmFail fn tag frFetchErr 0xFF s) := by
  change Host.Outcome.next (frmFetch fn tag s) = _
  simp only [frmFetch, frmIn_of runs, chunk, fetch_goes up, failed]
  rfl

end

section
variable (runs : FramingIn fn tag .sign l o s)
include runs

theorem exec_framingSignDone_ok {k : List Nat} (signed : signPhase o.img (decide (o.kind = 0)) o.length s = .ok k) :
    exec (.framingSignDone fn tag) s = .next (frmPut fn tag { o with
      phase := if (encEntries o.img).isEmpty then .check else .pass1 } { s with key := { s.key with
        kr0 := tset s.key.kr0 (lopKey fn tag) k } }) := by
  have keyed : FramingIn fn tag .sign l o { s with key := { s.key with kr0 := tset s.key.kr0 (lopKey fn tag) k } } := runs
  change Host.Outcome.next (frmSign fn tag s) = _
  simp only [frmSign, frmIn_of runs, signed, frmSafe_frmPut keyed]

theorem exec_framingSignDone_error {r i : Nat} (refused : signPhase o.img (decide (o.kind = 0)) o.length s = .error (r, i)) :
    exec (.framingSignDone fn tag) s = .next (frmFail fn tag r i s) := by
  change Host.Outcome.next (frmSign fn tag s) = _
  simp only [frmSign, frmIn_of runs, refused]

end

section
variable {i : Nat} {e : Entry} (entry : (encEntries o.img)[o.next]? = some (i, e)) (runs : FramingIn fn tag .pass1 l o s)
include entry runs

theorem exec_framingPass1Timber_bad (bad : tagOk o.img (timberKey fn tag s) e = false) :
    exec (.framingPass1Timber fn tag) s = .next (frmFail fn tag frTagFail i (verifyOnly s)) := by
  change Host.Outcome.next (frmPass1 fn tag s) = _
  simp [frmPass1, frmIn_of runs, entry, bad]

theorem exec_framingPass1Timber_good (good : tagOk o.img (timberKey fn tag s) e = true) :
    let last := decide (o.next + 1 = (encEntries o.img).length)
    exec (.framingPass1Timber fn tag) s = .next (frmPut fn tag { o with
      next := if last then 0 else o.next + 1
      phase := if last then .pass2 else .pass1 } (verifyOnly s)) := by
  have counted : FramingIn fn tag .pass1 l o (verifyOnly s) := runs
  change Host.Outcome.next (frmPass1 fn tag s) = _
  simp [frmPass1, frmIn_of runs, entry, good, frmSafe_frmPut counted]

theorem exec_framingPass1Timber_next (good : tagOk o.img (timberKey fn tag s) e = true) (more : o.next + 1 < (encEntries o.img).length) :
    exec (.framingPass1Timber fn tag) s = .next (frmPut fn tag { o with next := o.next + 1 } (verifyOnly s)) := by
  obtain ⟨-, -, -, phase⟩ := id runs
  rw [exec_framingPass1Timber_good entry runs good]
  simp [Nat.ne_of_lt more, ← phase]

theorem exec_framingPass1Timber_last (good : tagOk o.img (timberKey fn tag s) e = true) (last : o.next + 1 = (encEntries o.img).length) :
    exec (.framingPass1Timber fn tag) s = .next (frmPut fn tag { o with
      next := 0
      phase := .pass2 } (verifyOnly s)) := by
  rw [exec_framingPass1Timber_good entry runs good]
  simp [last]

end

section
variable {i : Nat} {e : Entry} (entry : (encEntries o.img)[o.next]? = some (i, e)) (runs : FramingIn fn tag .pass2 l o s)
include entry runs

theorem exec_framingPass2Timber_bad {hit : Bool} (bad : hit = true ∨ tagOk o.img (timberKey fn tag s) e = false) :
    exec (.framingPass2Timber fn ⟨tag, hit⟩) s = .next (frmFail fn tag frTagFail2 i s) := by
  change Host.Outcome.next (frmPass2 fn tag hit s) = _
  simp [frmPass2, frmIn_of runs, entry, bad]

theorem exec_framingPass2Timber_good {hit : Bool} (clean : hit = false) (good : tagOk o.img (timberKey fn tag s) e = true) :
    exec (.framingPass2Timber fn ⟨tag, hit⟩) s = .next (frmPut fn tag { o with
      plain := tset o.plain i (plainOf o.img (timberKey fn tag s) e)
      next := o.next + 1
      phase := if o.next + 1 = (encEntries o.img).length then .check else .pass2 } s) := by
  change Host.Outcome.next (frmPass2 fn tag hit s) = _
  simp [frmPass2, frmIn_of runs, entry, clean, good, frmSafe_frmPut runs]

end

section
variable (runs : FramingIn fn tag .check l o s)
include runs

theorem exec_framingCheckDone_rolled {m : List Timber} (roll : o.kind = 2) (merged : rolled o.scope s = .ok m) :
    exec (.framingCheckDone fn tag) s = .next
      (if allotOk m s = true then frmArm fn tag o s else frmFail fn tag frAllotInUse 0xFF s) := by
  change Host.Outcome.next (frmCheckDone fn tag s) = _
  simp only [frmCheckDone, frmIn_of runs, if_pos roll, merged]

theorem exec_framingCheckDone_unrolled {r i : Nat} (roll : o.kind = 2) (refused : rolled o.scope s = .error (r, i)) :
    exec (.framingCheckDone fn tag) s = .next (frmFail fn tag r i s) := by
  change Host.Outcome.next (frmCheckDone fn tag s) = _
  simp only [frmCheckDone, frmIn_of runs, if_pos roll, refused]

/-- A load checked is put in force in the block in which its check ends. -/
theorem exec_framingCheckDone_load {m : List Timber} (merged : imageCheck o.img o.plain fn s = .ok m) (load : o.kind = 0) :
    exec (.framingCheckDone fn tag) s =
      .next (frmDone fn tag s.clk.stamp 1 0 (fset R.PWR_STATUS_phase phClocks (fullApply o.img m s))) := by
  obtain ⟨found, running, -, -⟩ := id runs
  have goes : lopRuns fn tag s = true := by simp [lopRuns, found, running]
  have clk : (fullApply o.img m s).clk = s.clk := (fullApply_moves ..).clk_eq
  change Host.Outcome.next (frmCheckDone fn tag s) = _
  simp [frmCheckDone, frmIn_of runs, load, merged, goes, clk]

theorem exec_framingCheckDone_delta {m : List Timber} (image : o.kind ≠ 2) (merged : imageCheck o.img o.plain fn s = .ok m)
    (delta : o.kind ≠ 0) : exec (.framingCheckDone fn tag) s = .next (frmArm fn tag { o with
      act := le o.img 0x18 8
      base := le o.img 0x20 4 } s) := by
  change Host.Outcome.next (frmCheckDone fn tag s) = _
  simp only [frmCheckDone, frmIn_of runs, if_neg image, merged, if_neg delta]

theorem exec_framingCheckDone_error {r i : Nat} (image : o.kind ≠ 2) (refused : imageCheck o.img o.plain fn s = .error (r, i)) :
    exec (.framingCheckDone fn tag) s = .next (frmFail fn tag r i s) := by
  change Host.Outcome.next (frmCheckDone fn tag s) = _
  simp only [frmCheckDone, frmIn_of runs, if_neg image, refused]

end

end

theorem framingPhases : Claims.FramingPhases := by
  intro fn tag l o s
  refine ⟨exec_framingDequeue_begins, fun found op _ => exec_framingDequeue_waits found op, exec_framingFetchChunk_down,
    fun runs up => ⟨exec_framingFetchChunk_reached runs up, exec_framingFetchChunk_failed runs up⟩,
    fun runs => ⟨fun k => exec_framingSignDone_ok runs, fun r i => exec_framingSignDone_error runs⟩,
    fun i e entry => ⟨fun runs => ⟨exec_framingPass1Timber_bad entry runs, exec_framingPass1Timber_next entry runs,
        exec_framingPass1Timber_last entry runs⟩,
      fun runs hit => ⟨exec_framingPass2Timber_bad entry runs, exec_framingPass2Timber_good entry runs⟩⟩,
    fun runs roll => ⟨fun m merged allotted => ?_, fun m merged spills => ?_, fun r i => exec_framingCheckDone_unrolled runs roll⟩,
    fun runs image => ⟨fun m => exec_framingCheckDone_load runs, fun m => exec_framingCheckDone_delta runs image,
      fun r i => exec_framingCheckDone_error runs image⟩⟩
  · rw [exec_framingCheckDone_rolled runs roll merged, if_pos allotted]
  · rw [exec_framingCheckDone_rolled runs roll merged, spills]
    rfl

/-! ## Signers revoked (R70) -/

theorem bit_eq_testBit (n i : Nat) : bit n i = n.testBit i := Nat.testBit_eq_decide_div_mod_eq.symm

/-- A power of two added at a bit that is 0 sets that bit alone. -/
theorem testBit_add_two_pow {n j : Nat} (clear : n.testBit j = false) (i : Nat) :
    (n + 2 ^ j).testBit i = (n.testBit i || decide (i = j)) := by
  induction j generalizing n i with
  | zero =>
    have even : n % 2 = 0 := by simpa using clear
    cases i with
    | zero => simp [even, Nat.add_mod]
    | succ i => simp [Nat.testBit_succ, show (n + 1) / 2 = n / 2 by omega]
  | succ j ih =>
    rw [Nat.testBit_succ] at clear
    cases i with
    | zero => simp [Nat.pow_succ]
    | succ i =>
      have half : (n + 2 ^ (j + 1)) / 2 = n / 2 + 2 ^ j := by
        rw [Nat.pow_succ]
        omega
      rw [Nat.testBit_succ, half, ih clear, Nat.testBit_succ]
      simp

/-- Distinct bits that are 0, each set in turn, are set, and no other bit changes. -/
theorem testBit_foldl_two_pow {l : List Nat} {n : Nat} (distinct : l.Nodup) (clear : ∀ k ∈ l, n.testBit k = false) (i : Nat) :
    (l.foldl (fun o k => o + 2 ^ k) n).testBit i = (n.testBit i || decide (i ∈ l)) := by
  induction l generalizing n with
  | nil => simp
  | cons j l ih =>
    obtain ⟨fresh, distinct⟩ := List.nodup_cons.mp distinct
    have here : n.testBit j = false := clear j List.mem_cons_self
    have later : ∀ k ∈ l, (n + 2 ^ j).testBit k = false := fun k mem => by
      have apart : k ≠ j := fun same => fresh (same ▸ mem)
      simp [testBit_add_two_pow here, clear k (List.mem_cons_of_mem j mem), apart]
    rw [List.foldl_cons, ih distinct later, testBit_add_two_pow here, Bool.or_assoc]
    simp

/-- The slots that a write of FRM_SIGNER asks to revoke and that are not yet. -/
def freshSlots (v : Nat) (s : State) : List Nat :=
  (List.range 4).filter fun k => bit v k && !bit (fget R.FRM_SIGNER_revoked s) k

/-- The provisioned slots that would stay unrevoked. -/
def slotsLeft (v : Nat) (s : State) : List Nat :=
  (List.range 4).filter fun k =>
    bit (fget R.FRM_SIGNER_provisioned s) k && !bit (fget R.FRM_SIGNER_revoked s) k && !(freshSlots v s).contains k

section
variable {v k : Nat} {s : State}

theorem exec_frmSignerRevoke (v : Nat) (s : State) : exec (.frmSignerRevoke v) s = .next
    (if (freshSlots v s).isEmpty then s
     else if (fget R.FRM_STATUS_state s = 2 && (freshSlots v s).contains (fget R.FRM_SIGNER_active_slot s)) || (slotsLeft v s).isEmpty
      then cinc 0x40308 s
     else fset R.FRM_SIGNER_revoked ((freshSlots v s).foldl (fun o k => o + 2 ^ k) (fget R.FRM_SIGNER_revoked s)) s) := rfl

theorem mem_freshSlots : k ∈ freshSlots v s ↔ k < 4 ∧ bit v k = true ∧ bit (fget R.FRM_SIGNER_revoked s) k = false := by
  simp [freshSlots]

theorem mem_slotsLeft : k ∈ slotsLeft v s ↔ k < 4 ∧ bit (fget R.FRM_SIGNER_provisioned s) k = true ∧
    bit (fget R.FRM_SIGNER_revoked s) k = false ∧ bit v k = false := by
  simp only [slotsLeft, List.mem_filter, List.mem_range, Bool.and_eq_true, Bool.not_eq_true', List.contains_eq_mem,
    decide_eq_false_iff_not, mem_freshSlots]
  constructor
  · rintro ⟨low, ⟨provisioned, unrevoked⟩, stays⟩
    exact ⟨low, provisioned, unrevoked, Bool.eq_false_iff.mpr fun asked => stays ⟨low, asked, unrevoked⟩⟩
  · rintro ⟨low, provisioned, unrevoked, unasked⟩
    exact ⟨low, ⟨provisioned, unrevoked⟩, fun ⟨_, asked, _⟩ => by simp [unasked] at asked⟩

/-- What the revoked bits become. -/
theorem bit_revoked_fold (low : k < 4) :
    bit (fget R.FRM_SIGNER_revoked (fset R.FRM_SIGNER_revoked
      ((freshSlots v s).foldl (fun o k => o + 2 ^ k) (fget R.FRM_SIGNER_revoked s)) s)) k =
        (bit (fget R.FRM_SIGNER_revoked s) k || bit v k) := by
  have distinct : (freshSlots v s).Nodup := List.nodup_range.filter _
  have clear : ∀ j ∈ freshSlots v s, (fget R.FRM_SIGNER_revoked s).testBit j = false := fun j mem =>
    bit_eq_testBit .. ▸ (mem_freshSlots.mp mem).2.2
  have width : k < R.FRM_SIGNER_revoked.w := low
  rw [fget_fset, bit_eq_testBit, Nat.testBit_mod_two_pow, testBit_foldl_two_pow distinct clear, ← bit_eq_testBit]
  cases revoked : bit (fget R.FRM_SIGNER_revoked s) k <;> simp [mem_freshSlots, width, low, revoked]

theorem exec_frmSignerRevoke_stale (stale : ∀ k, k ∉ freshSlots v s) : exec (.frmSignerRevoke v) s = .next s := by
  rw [exec_frmSignerRevoke, List.eq_nil_iff_forall_not_mem.mpr stale]
  rfl

theorem exec_frmSignerRevoke_refused (fresh : k ∈ freshSlots v s) (bad : (fget R.FRM_STATUS_state s = 2 ∧
    fget R.FRM_SIGNER_active_slot s ∈ freshSlots v s) ∨ slotsLeft v s = []) : exec (.frmSignerRevoke v) s = .next (cinc 0x40308 s) := by
  have asked : (freshSlots v s).isEmpty = false := List.isEmpty_eq_false_iff.mpr (List.ne_nil_of_mem fresh)
  rw [exec_frmSignerRevoke, asked]
  simp [bad]

theorem exec_frmSignerRevoke_taken {j : Nat} (fresh : k ∈ freshSlots v s) (other : ¬ (fget R.FRM_STATUS_state s = 2 ∧
    fget R.FRM_SIGNER_active_slot s ∈ freshSlots v s)) (left : j ∈ slotsLeft v s) : exec (.frmSignerRevoke v) s = .next
      (fset R.FRM_SIGNER_revoked ((freshSlots v s).foldl (fun o k => o + 2 ^ k) (fget R.FRM_SIGNER_revoked s)) s) := by
  have asked : (freshSlots v s).isEmpty = false := List.isEmpty_eq_false_iff.mpr (List.ne_nil_of_mem fresh)
  have stays : (slotsLeft v s).isEmpty = false := List.isEmpty_eq_false_iff.mpr (List.ne_nil_of_mem left)
  rw [exec_frmSignerRevoke, asked, stays]
  simp [other]

end

theorem signerRevocation : Claims.SignerRevocation := by
  intro v s old Fresh
  have fresh_iff (k : Nat) : Fresh k ↔ k ∈ freshSlots v s := mem_freshSlots.symm
  simp only [fresh_iff]
  refine ⟨exec_frmSignerRevoke_stale, fun ⟨k, fresh⟩ signed => exec_frmSignerRevoke_refused fresh (.inl signed),
    fun ⟨k, fresh⟩ spent => exec_frmSignerRevoke_refused fresh (.inr ?_), fun ⟨k, fresh⟩ other ⟨j, left⟩ =>
      ⟨_, exec_frmSignerRevoke_taken fresh other (mem_slotsLeft.mpr left), (fset_moves ..).toChanges, fun k low => bit_revoked_fold low⟩⟩
  refine List.eq_nil_iff_forall_not_mem.mpr fun j mem => ?_
  obtain ⟨low, provisioned, unrevoked, unasked⟩ := mem_slotsLeft.mp mem
  rcases spent j low provisioned with revoked | asked
  · exact absurd revoked (by simp [old, unrevoked])
  · exact absurd asked (by simp [unasked])

/-- Settles O36, from what each phase leaves of an operation that runs, and from the slots that a revocation asks for and leaves. -/
theorem framing : Obligations.Framing := ⟨framingPhases, signerRevocation⟩

end Sys2Proof.Machine
end

section
/-! PROOFS. Long operations: the LOP commands by the state of the operation, long commands queued or turned away (R88). -/

namespace Sys2Proof.Machine
open Sys2Proof.Claims

/-! ## What an event raised leaves of the host interface (R90, R92) -/

/-- The host interface beside its event queues and MSI-X tables: what neither an event raised nor a vector signalled alters. -/
def Hif.still (h : Hif) : Hif := { h with
  evq := []
  msix := [] }

theorem Hif.still_lops {g h : Hif} (e : g.still = h.still) : g.lops = h.lops := (Hif.mk.inj e).2.1

theorem Hif.still_slots {g h : Hif} (e : g.still = h.still) : g.slots = h.slots := (Hif.mk.inj e).2.2.2.1

theorem signal_still (fn : Fn) (v : Nat) (s : State) : (signal fn v s).hif.still = s.hif.still := by
  unfold signal
  dsimp only
  split <;> rfl

theorem evqPut_still (k : Nat) (q : EvQueue) (s : State) : (evqPut k q s).hif.still = s.hif.still := rfl

theorem evqLose_still (k n : Nat) (s : State) : (evqLose k n s).hif.still = s.hif.still := rfl

theorem evqResize_still (k : Nat) (s : State) : (evqResize k s).hif.still = s.hif.still := by
  unfold evqResize
  dsimp only
  split
  · rfl
  · split
    · split <;> rfl
    · rfl

theorem evqPush_still (k : Nat) (e : Ev) (s : State) : (evqPush k e s).hif.still = s.hif.still := by
  unfold evqPush
  extract_lets q n th w s1 s2
  have resized : s2.hif.still = s.hif.still := evqResize_still k s1
  split
  · rfl
  · split
    · rw [signal_still, resized]
    · exact resized

theorem traceAdd_still (flags : Nat) (e : Ev) (s : State) : (traceAdd flags e s).hif.still = s.hif.still := by
  unfold traceAdd
  extract_lets idx n full s1 s2 s3
  have written : s1.hif = s.hif := dramWrite_hif ..
  have counted : s2.hif.still = s.hif.still := congrArg Hif.still written
  split
  · rfl
  · split
    · rfl
    · split
      · split
        · rw [pushPf, evqPush_still]
          exact counted
        · exact counted
      · exact counted

theorem raisePf_still (e : Ev) (s : State) : (raisePf e s).hif.still = s.hif.still := by
  unfold raisePf pushPf
  dsimp only
  rw [evqPush_still]
  split
  · exact traceAdd_still ..
  · rfl

theorem raise_still (e : Ev) (s : State) : (raise e s).hif.still = s.hif.still := by
  unfold raise pushPf
  extract_lets s1 s2
  have traced : s1.hif.still = s.hif.still := by
    unfold s1
    split
    · exact traceAdd_still ..
    · rfl
  rw [evqPush_still]
  unfold s2
  split
  · exact traced
  · split
    · exact traced
    · rw [evqPush_still, traced]

theorem lopEvent_lops (l : Lop) (s : State) : (lopEvent l s).hif.lops = s.hif.lops := by
  unfold lopEvent
  dsimp only
  split
  · exact Hif.still_lops (raisePf_still ..)
  · exact Hif.still_lops (raise_still ..)

/-! ## An operation moved (R88) -/

theorem lopMove_lops {fn : Fn} {tag : Nat} {l : Lop} {s : State} (st : LopSt) (found : lopFind fn tag s = some l) :
    (lopMove fn tag st s).hif.lops = tset s.hif.lops (lopKey l.fn l.tag) { l with st := st } := by
  simp only [lopMove, found]
  split
  · rw [lopEvent_lops]
    rfl
  · rfl

theorem lopMoves : Claims.LopMoves := by
  rintro _ _ st l s found rfl rfl
  have moved := lopMove_lops st found
  refine ⟨?_, fun k other => ?_⟩
  · rw [lopFind, moved, tfind_tset_same]
  · rw [moved, tfind_tset_other _ _ _ _ other]

/-! ## The LOP commands (R88) -/

/-- The state of an operation that a LOP command's completion carries: of one that is gone, CANCELLED. -/
def lopShown (fn : Fn) (tag : Nat) (s : State) : Nat :=
  match lopFind fn tag s with
  | some x => x.st.code
  | none => LopSt.cancelled.code

theorem lopShown_found {fn : Fn} {tag : Nat} {l : Lop} {s : State} (found : lopFind fn tag s = some l) : lopShown fn tag s = l.st.code := by
  simp [lopShown, found]

/-- Arguments that are 0 from offset 0x18 up name the issuer's own operation. -/
theorem czero_own {c : Cmd} (rest : czero c 0x18 = true) : carg c 0x18 1 = 0 ∧ czero c 0x19 = true := by
  cases args : c.args with
  | nil => simp [carg, czero, args, le, slice, leNat, allZero]
  | cons b r =>
    have zero : b = 0 ∧ ∀ x ∈ r, x = 0 := by simpa [czero, args, allZero] using rest
    simpa [carg, czero, args, le, slice, leNat, allZero, zero.1] using zero.2

section
variable {op : Nat} {c : Cmd} {l : Lop} {s : State} (own : OwnLop op c l s) (live : l.st.terminal = false)
include own live

/-- A LOP command of an operation that is not terminal applies itself to it and answers with the state it has then. -/
theorem commandRow_lop : commandRow op c (queryRun op (doLop op) c) s =
    answered op c s { complOf c.tag op (lopApply op l (entered op c s)).2 with
      lopState := lopShown c.fn c.target (lopApply op l (entered op c s)).1 } (lopApply op l (entered op c s)).1 := by
  obtain ⟨enters, rest, found, _, _⟩ := own
  obtain ⟨self, reserved⟩ := czero_own rest
  rw [commandRow_enters enters]
  simp only [queryRun, doLop, self, reserved, found, live, Bool.not_true, ne_eq, not_true, decide_false, Bool.false_and,
    Bool.false_eq_true, if_true, if_false]
  rfl

theorem commandRow_lop_stays {r : Rsp} (stays : lopApply op l (entered op c s) = (entered op c s, r)) :
    commandRow op c (queryRun op (doLop op) c) s =
      answered op c s { complOf c.tag op r with lopState := l.st.code } (entered op c s) := by
  rw [commandRow_lop own live, stays]
  obtain ⟨_, _, found, _, _⟩ := own
  simp only [lopShown_found found]

theorem commandRow_lop_moves {st : LopSt} (moves : lopApply op l (entered op c s) = (lopMove l.fn l.tag st (entered op c s), rspOk)) :
    commandRow op c (queryRun op (doLop op) c) s =
      answered op c s { complOf c.tag op rspOk with lopState := st.code } (lopMove c.fn c.target st (entered op c s)) := by
  rw [commandRow_lop own live, moves]
  obtain ⟨_, _, found, issuer, tag⟩ := own
  obtain ⟨moved, _⟩ := lopMoves c.fn c.target st l _ found issuer tag
  rw [issuer, tag, lopShown_found moved]

theorem commandRow_lop_ends (ends : lopApply op l (entered op c s) = (lopCleanup l (entered op c s), rspOk)) :
    commandRow op c (queryRun op (doLop op) c) s = answered op c s { complOf c.tag op rspOk with
      lopState := lopShown c.fn c.target (lopCleanup l (entered op c s)) } (lopCleanup l (entered op c s)) := by
  rw [commandRow_lop own live, ends]

end

theorem lopCommands : Claims.LopCommands := by
  intro c l s live
  refine ⟨fun own => congrArg Host.Outcome.next (commandRow_lop_stays own live rfl), fun st change own => ?suspend, fun held own => ?suspended,
    fun st change own => ?resume, fun runs own => ?cancel, fun waits own => ?cancelled, fun ends own => ?noSuspend, fun ends own => ?noResume⟩
  case suspend =>
    refine congrArg Host.Outcome.next (commandRow_lop_moves own live ?_)
    rcases change with ⟨was, rfl⟩ | ⟨was, rfl⟩ <;> simp [lopApply, was]
  case suspended =>
    refine congrArg Host.Outcome.next (commandRow_lop_stays own live ?_)
    rcases held with was | was <;> simp [lopApply, was]
  case resume =>
    refine congrArg Host.Outcome.next (commandRow_lop_moves own live ?_)
    rcases change with ⟨was, rfl⟩ | ⟨was, begun, rfl⟩ | ⟨was, begun, rfl⟩
    · simp [lopApply, was]
    · simp [lopApply, was, begun]
    · simp [lopApply, was, begun]
  case cancel =>
    refine congrArg Host.Outcome.next (commandRow_lop_moves own live ?_)
    rcases runs with was | was <;> simp [lopApply, was]
  case cancelled =>
    refine congrArg Host.Outcome.next (commandRow_lop_ends own live ?_)
    rcases waits with was | was <;> simp [lopApply, was]
  case noSuspend =>
    rw [← ends]
    exact congrArg Host.Outcome.next (commandRow_lop_stays own live (by simp [lopApply, ends]))
  case noResume =>
    rw [← ends]
    exact congrArg Host.Outcome.next (commandRow_lop_stays own live (by simp [lopApply, ends]))

/-- Settles O9, from what each LOP command does to an operation that is not terminal, by the operation's state. -/
theorem longOperations : Obligations.LongOperations := ⟨lopCommands, lopMoves⟩

/-! ## Long commands (R88) -/

/-- The rows of the long commands and their opcodes (R83). -/
def longRows (c : Cmd) : List (Nat × Instr) :=
  [(0x10, .framingLoad c), (0x11, .framingDelta c), (0x12, .framingRollback c), (0x39, .rewindExport c), (0x40, .capture c),
   (0x41, .replay c), (0x52, .baySelftest c), (0x54, .tileFwSwap c), (0x58, .cascadeJoin c), (0x59, .cascadeLeave c)]

theorem exec_longRows (c : Cmd) (s : State) : ∀ p ∈ longRows c, ∃ check start,
    exec p.2 s = .next (commandRow p.1 c (longRun p.1 check start c) s) := by
  unfold longRows
  repeat' refine List.forall_mem_cons.mpr ⟨⟨_, _, rfl⟩, ?_⟩
  exact List.forall_mem_nil _

section
variable {op : Nat} {check : Cmd → State → Option Rsp} {c : Cmd} {s : State} (start : Cmd → State → State)

theorem commandRow_long (may : MayQueue op check c s) :
    commandRow op c (longRun op check start c) s = start c (queued op c s) := by
  obtain ⟨enters, few, unused, passed⟩ := may
  rw [commandRow_enters enters]
  simp [longRun, Nat.not_le.mpr few, unused, passed, queued]

theorem commandRow_long_busy (enters : Enters op c s)
    (busy : 8 ≤ lopLive c.fn (entered op c s) ∨ (lopFind c.fn c.tag (entered op c s)).isSome = true) :
    commandRow op c (longRun op check start c) s = answered op c s (complOf c.tag op (rspErr stBusy)) (entered op c s) := by
  rw [commandRow_enters enters]
  simp [longRun, busy, answered]

end

theorem lopFind_queued {op : Nat} {c : Cmd} {s : State} (few : lopLive c.fn (entered op c s) < 8)
    (unused : lopFind c.fn c.tag (entered op c s) = none) : lopFind c.fn c.tag (queued op c s) = some (queuedLop op c s) := by
  simp only [queued, lopStart, Nat.not_le.mpr few, unused, Option.isSome_none]
  exact tfind_tset_same ..

theorem longCommandsQueue : Claims.LongCommandsQueue := by
  intro c s
  refine ⟨?_, ?_, ?_, ?_, ?_, ?_, ?_, ?_, ?_, ?_, fun op _ => lopFind_queued⟩
  all_goals exact fun may => congrArg Host.Outcome.next (commandRow_long _ may)

theorem longCommandsBusy : Claims.LongCommandsBusy := by
  intro c s op i row enters busy
  obtain ⟨check, start, runs⟩ := exec_longRows c s (op, i) row
  exact ⟨_, runs.trans (congrArg Host.Outcome.next (commandRow_long_busy start enters busy)), completes_answered ..⟩

/-- Settles O10, from what a long command does once it is in: its operation QUEUED and its own begin, or BUSY. -/
theorem longCommands : Obligations.LongCommands := ⟨longCommandsQueue, longCommandsBusy⟩

end Sys2Proof.Machine
end

section
/-! PROOFS. Legs: admitted, started, routed, released, and freed where their drain ends (R85, R86, R166). -/

namespace Sys2Proof.Machine
open Sys2Proof.Claims

/-! ## What charges leave of the legs (R29, R164) -/

theorem chargeUp_legs (r bay : Nat) (ch : Charge) (s : State) : (chargeUp r bay ch s).ctl.legs = s.ctl.legs := by
  unfold chargeUp
  split <;> rfl

theorem chargeDown_legs (r bay : Nat) (ch : Charge) (s : State) : (chargeDown r bay ch s).ctl.legs = s.ctl.legs := by
  unfold chargeDown
  split <;> rfl

theorem actCharge_legs (act n : Nat) (up : Bool) (s : State) : (actCharge act n up s).ctl.legs = s.ctl.legs := by
  unfold actCharge
  split
  · rfl
  · cases up
    · exact chargeDown_legs ..
    · exact chargeUp_legs ..

theorem settingSettle_legs (act old : Nat) (s : State) : (settingSettle act old s).ctl.legs = s.ctl.legs := by
  unfold settingSettle
  dsimp only
  split
  · exact actCharge_legs ..
  · exact actCharge_legs ..

/-! ## A leg admitted (R85, R86) -/

/-- The leg that LEG_ADMIT makes, of an Act's Ring and on a Bay, before its buckets are filled. -/
def legDeclared (c : Cmd) (ring bay : Nat) : Leg :=
  ⟨.admitted, ring, carg c 0x18 2, carg c 0x1A 1, carg c 0x1B 1, carg c 0x1C 2, carg c 0x1E 2, carg c 0x20 1, carg c 0x21 1,
    carg c 0x24 4, carg c 0x28 4, bay, legNeed (carg c 0x24 4) (carg c 0x28 4), 0, 0, 0, 0, false, false, 0, 0⟩

/-- The leg with both its buckets full (R108). -/
def legFilled (l : Leg) (s : State) : Leg := { l with
  byteLvl := byteDepth l s
  pktLvl := pktDepth l s
  prevByte := byteDepth l s
  prevPkt := pktDepth l s }

section
variable {c : Cmd} {ring : Nat} {s : State}

theorem applyLegAdmit_ok {bay : Nat} {a : Act} (b : Nat) (mine : Mine c 0 legLimit c.target ring s)
    (act : Mine c 1 actLimit (carg c 0x18 2) ring s) (audio : carg c 0x1A 1 ≤ 7) (video : carg c 0x1B 1 ≤ 4) (role : carg c 0x21 1 ≤ 1)
    (reserved : carg c 0x22 2 = 0) (rest : czero c 0x2C = true) (new : tfind s.ctl.legs c.target = none)
    (admitted : tfind s.ctl.acts (carg c 0x18 2) = some a) (joins : codecClash (carg c 0x18 2) (carg c 0x1A 1) s = false)
    (room : actFull (carg c 0x18 2) a s = false) (placed : place ring (legNeed (carg c 0x24 4) (carg c 0x28 4)) s = some bay)
    (settles : let old := settingNow (carg c 0x18 2) s
      let now := settingUnits (carg c 0x18 2) (recSetting (carg c 0x1A 1) (LegRec.dflt a.tpl (carg c 0x1A 1)) ++
        actSettings (carg c 0x18 2) legLimit s) s
      old < now → fits a.ring a.bay (chargeOf 0 (now - old)) s = true) :
    ∃ u t, applyLegAdmit c b s = (u, some rspOk) ∧
      u.ctl.legs = tset s.ctl.legs c.target (legFilled (legDeclared c ring bay) t) := by
  obtain ⟨owned, ringed⟩ := mine
  obtain ⟨actOwned, actRinged⟩ := act
  have fit : (decide (settingNow (carg c 0x18 2) s < settingUnits (carg c 0x18 2) (recSetting (carg c 0x1A 1)
      (LegRec.dflt a.tpl (carg c 0x1A 1)) ++ actSettings (carg c 0x18 2) legLimit s) s) && !fits a.ring a.bay (chargeOf 0
        (settingUnits (carg c 0x18 2) (recSetting (carg c 0x1A 1) (LegRec.dflt a.tpl (carg c 0x1A 1)) ++
          actSettings (carg c 0x18 2) legLimit s) s - settingNow (carg c 0x18 2) s)) s) = false := by
    simpa using settles
  have args : (decide (7 < carg c 0x1A 1) || decide (4 < carg c 0x1B 1) || decide (1 < carg c 0x21 1) || decide (carg c 0x22 2 ≠ 0) ||
      !czero c 0x2C) = false := by
    simp [Nat.not_lt.mpr audio, Nat.not_lt.mpr video, Nat.not_lt.mpr role, reserved, rest]
  refine ⟨_, chargeUp ring bay (legNeed (carg c 0x24 4) (carg c 0x28 4)) (cntClear 0 c.target s),
    by simp only [applyLegAdmit, owned, actOwned, ringed, actRinged, Option.getD_some, args, new, admitted, joins, room, placed, fit,
      ne_eq, not_true_eq_false, if_false]; rfl, ?_⟩
  rw [settingSettle_legs, (egrAdmit_moves ..).ctl_eq, (audLegAdmit_moves ..).ctl_eq]
  exact congrArg (tset · _ _) ((chargeUp_legs ..).trans (congrArg Ctl.legs (cntClear_moves ..).ctl_eq))

end

theorem legAdmit : Claims.LegAdmit := by
  intro c s s1 b ring bay a ⟨enters, now⟩ id act ac need old units mine actMine audio video role reserved rest new admitted joins room
    placed settles
  obtain ⟨u, t, runs, legs⟩ := applyLegAdmit_ok b mine actMine audio video role reserved rest new admitted joins room placed settles
  refine ⟨exec_configRow (by simp [configRows]) enters, _, applyFlight_now (op := 0x22) now runs rfl,
    legFilled (legDeclared c ring bay) t, completes_ended .., ?_, rfl, rfl, rfl, rfl, rfl, rfl, rfl, rfl, rfl, rfl, rfl, rfl, rfl,
    fun k other => ?_⟩
  · rw [ended_ctl, legs, tfind_tset_same]
  · rw [ended_ctl, legs, tfind_tset_other _ _ _ _ other]

/-! ## A leg started and released (R86) -/

section
variable {c : Cmd} {l : Leg} {s : State} (b : Nat) (named : legOf c s = .ok l) (rest : czero c 0x18 = true)
include named rest

theorem applyLegStart_ok (waits : l.st = .admitted) (some_ : (s.ctl.streams.filter fun p => decide (p.2.leg = c.target)) ≠ [])
    (ready : ∀ p ∈ s.ctl.streams.filter fun p => decide (p.2.leg = c.target), streamReady p.2 s = true) :
    ∃ u, applyLegStart c b s = (u, some rspOk) ∧ u.ctl.legs = tset s.ctl.legs c.target { l with
      st := .active
      started := b } := by
  have keyed : ((s.ctl.streams.filter fun p => decide (p.2.leg = c.target)).all fun p => streamReady p.2 s) = true :=
    List.all_eq_true.mpr ready
  have present := List.isEmpty_eq_false_iff.mpr some_
  refine ⟨_, by simp only [applyLegStart, named, rest, waits, present, keyed]; rfl, ?_⟩
  rw [(fwdLegStart_moves ..).ctl_eq, (audLegStart_moves ..).ctl_eq]

/-- An active leg that is released drains until its ramp has ended, and the exchange of the cascade where its Act is mapped. -/
theorem applyLegRelease_active (active : l.st = .active) :
    ∃ u, applyLegRelease c b s = (u, none) ∧ u.ctl.legs = tset s.ctl.legs c.target { l with
      st := .draining
      drainEnd := stampAdd b (rampBlocks (actRamp l.act s) + if (casAct l.act s).isSome then casX s else 0) } := by
  refine ⟨_, by simp only [applyLegRelease, named, rest, active]; rfl, ?_⟩
  rw [(audLegRelease_moves ..).ctl_eq]

theorem applyLegRelease_admitted (waits : l.st = .admitted) : applyLegRelease c b s = (legFree c.target b l s, some rspOk) := by
  simp only [applyLegRelease, named, rest, waits]
  rfl

end

theorem tfind_legFree (id b : Nat) (l : Leg) (s : State) : tfind (legFree id b l s).ctl.legs id = none := by
  rw [legFree, settingSettle_legs, (drainForget_moves ..).ctl_eq]
  exact tfind_terase_same ..

/-- A command that completes later stays in flight, its effect made at boundary `b`. -/
theorem applyFlight_waits {op b : Nat} {c : Cmd} {s s1 t : State} (now : c.effectStamp = 0)
    (runs : applyOf op (inFlight op c s).data c b s1 = (t, none)) :
    applyFlight (inFlight op c s) b s1 = { t with hif := { t.hif with flight := t.hif.flight ++ [{ inFlight op c s with
      effective := true
      effect := b }] } } := by
  have runs : applyOf (inFlight op c s).opcode (inFlight op c s).data (inFlight op c s).cmd b s1 = (t, none) := runs
  have stamp : (inFlight op c s).cmd.effectStamp = 0 := now
  simp only [applyFlight, stamp, runs]
  simp [inFlight, flightOf]

/-! ## The end of a drain (R86) -/

/-- Completions posted change neither the commands in flight nor the legs. -/
theorem foldl_flightEnd (l : List Flight) (r : Rsp) (s : State) :
    (l.foldl (fun s f => flightEnd f r s) s).hif.flight = s.hif.flight ∧ (l.foldl (fun s f => flightEnd f r s) s).ctl = s.ctl := by
  induction l generalizing s with
  | nil => exact ⟨rfl, rfl⟩
  | cons f l ih =>
    obtain ⟨flight, ctl⟩ := ih (flightEnd f r s)
    exact ⟨flight.trans (flightEnd_flight ..), ctl.trans (flightEnd_moves ..).ctl_eq⟩

/-- A LEG_RELEASE in flight that waits for the end of a leg's drain. -/
def releases (leg : Nat) (f : Flight) : Bool := f.effective && decide (f.opcode = 0x25) && decide (f.cmd.target = leg)

theorem legDrainEnd_ends {leg : Nat} {l : Leg} {s : State} (found : tfind s.ctl.legs leg = some l) (drains : l.st = .draining)
    (past : stampAfter s.clk.stamp l.drainEnd = true) (idle : legItems leg l.drainEnd s = false) :
    tfind (legDrainEnd leg s).ctl.legs leg = none ∧
      (legDrainEnd leg s).hif.flight = s.hif.flight.filter fun f => !releases leg f := by
  have runs : legDrainEnd leg s = (s.hif.flight.filter (releases leg)).foldl (fun s f => flightEnd f rspOk s)
      (legFree leg s.clk.stamp l { s with hif := { s.hif with flight := s.hif.flight.filter fun f => !releases leg f } }) := by
    simp only [legDrainEnd, found, drains, past, idle]
    rfl
  rw [runs]
  obtain ⟨flight, ctl⟩ := foldl_flightEnd (s.hif.flight.filter (releases leg)) rspOk
    (legFree leg s.clk.stamp l { s with hif := { s.hif with flight := s.hif.flight.filter fun f => !releases leg f } })
  refine ⟨?_, ?_⟩
  · rw [ctl, tfind_legFree]
  · rw [flight, (legFree_moves ..).same .hif (by decide)]

theorem legLifecycle : Claims.LegLifecycle := by
  refine ⟨?start, ?release, ?free, ?drained⟩
  case start =>
    intro c s s1 b l ⟨enters, now⟩ strs named rest waits some_ ready
    obtain ⟨u, runs, legs⟩ := applyLegStart_ok b named rest waits some_ ready
    refine ⟨exec_configRow (by simp [configRows]) enters, _, applyFlight_now (op := 0x23) now runs rfl, completes_ended .., ?_⟩
    rw [ended_ctl, legs, tfind_tset_same]
  case release =>
    intro c s s1 b l ⟨enters, now⟩ named rest active
    obtain ⟨u, runs, legs⟩ := applyLegRelease_active b named rest active
    refine ⟨exec_configRow (by simp [configRows]) enters, _, applyFlight_waits (op := 0x25) now runs, { inFlight 0x25 c s with
      effective := true
      effect := b }, ?_, List.mem_append_right _ (List.mem_singleton_self _), rfl, rfl, rfl, rfl⟩
    simp only [legs, tfind_tset_same]
  case free =>
    intro c s s1 b l ⟨enters, now⟩ named rest waits
    refine ⟨exec_configRow (by simp [configRows]) enters, _, applyFlight_now (op := 0x25) now (applyLegRelease_admitted b named rest waits)
      rfl, completes_ended .., ?_⟩
    rw [ended_ctl, tfind_legFree]
  case drained =>
    intro leg s l found drains past idle
    obtain ⟨freed, flight⟩ := legDrainEnd_ends found drains past idle
    refine ⟨_, rfl, freed, fun f mem => ?_⟩
    have left : f ∈ s.hif.flight.filter fun f => !releases leg f := flight ▸ mem
    have other : releases leg f = false := by simpa using (List.mem_filter.mp left).2
    rintro ⟨effective, opcode, target⟩
    simp [releases, effective, opcode, target] at other

/-! ## A leg routed (R86, R166) -/

/-- The units that a leg takes in an Act that it moves to: its own, a ramp between mixing Acts, a check of its level, its setting. -/
def routeUnits (c : Cmd) (l : Leg) (a o : Act) (s : State) : Nat :=
  let act := carg c 0x18 2
  let ramp := if l.st = .active ∧ a.tpl.mixing = true ∧ o.tpl.mixing = true then 12 else 0
  let trust := if a.tpl.mixing = true ∧ o.tpl.mixing = false ∧ lacksLevel c.target s = true then 3 else 0
  let now := settingUnits act (legSetting l.act c.target l s ++ actSettings act legLimit s) s
  1 + ramp + trust + (now - settingNow act s)

section
variable {c : Cmd} {l : Leg} {s : State} (b : Nat) (named : legOf c s = .ok l) (rest : czero c 0x1A = true) (stays : l.st ≠ .draining)
  (mine : Mine c 1 actLimit (carg c 0x18 2) l.ring s)
include named rest stays mine

theorem applyLegRoute_same (same : carg c 0x18 2 = l.act) : applyLegRoute c b s = (s, some rspOk) := by
  obtain ⟨owned, ringed⟩ := same ▸ mine
  simp only [applyLegRoute, named, owned, rest, stays, ringed, same, ne_eq, not_true_eq_false, if_true, if_false]
  rfl

theorem applyLegRoute_moves_leg {a o : Act} (other : carg c 0x18 2 ≠ l.act) (dest : tfind s.ctl.acts (carg c 0x18 2) = some a)
    (source : tfind s.ctl.acts l.act = some o) (joins : codecClash (carg c 0x18 2) l.acodec s = false)
    (room : actFull (carg c 0x18 2) a s = false) (fit : fits a.ring a.bay (chargeOf 0 (routeUnits c l a o s)) s = true) :
    ∃ u, applyLegRoute c b s = (u, some rspOk) ∧ tfind u.ctl.legs c.target = some { l with act := carg c 0x18 2 } := by
  obtain ⟨owned, ringed⟩ := mine
  simp only [routeUnits] at fit
  refine ⟨_, by simp only [applyLegRoute, named, owned, rest, stays, ringed, other, dest, source, joins, room, ne_eq, not_true_eq_false,
    if_false, Bool.and_eq_true, decide_eq_true_eq, Bool.not_eq_true', and_assoc, fit]; rfl, ?_⟩
  rw [settingSettle_legs, settingSettle_legs]
  exact tfind_tset_same ..

end

theorem legRoute : Claims.LegRoute := by
  intro c s s1 b l ⟨enters, now⟩ act named rest stays mine
  constructor
  · intro same
    refine ⟨exec_configRow (by simp [configRows]) enters, _, applyFlight_now (op := 0x24) now
      (applyLegRoute_same b named rest stays mine same) rfl, completes_ended .., ended_ctl .., (flightEnd_moves ..).same .aud (by decide)⟩
  · intro a o other dest source joins room ramp trust units fit
    obtain ⟨u, runs, routed⟩ := applyLegRoute_moves_leg b named rest stays mine other dest source joins room fit
    refine ⟨exec_configRow (by simp [configRows]) enters, _, applyFlight_now (op := 0x24) now runs rfl, completes_ended .., ?_⟩
    rw [ended_ctl, routed]

/-- Settles O15, from the effect of each command of a leg at its boundary and from the end of a drain. -/
theorem legs : Obligations.Legs := ⟨legAdmit, legLifecycle, legRoute⟩

end Sys2Proof.Machine
end

section
/-! PROOFS. The rings of the host interface: commands fetched and completions written (R77 to R80, R92), the rings' registers (R78, R80,
R84), event rings (R78, R90). -/

namespace Sys2Proof.Machine
open Sys2Proof.Claims

/-! ## Bytes and host memory -/

@[simp] theorem length_leBytes (k n : Nat) : (leBytes k n).length = k := by
  induction k generalizing n with
  | zero => rfl
  | succ k ih => rw [leBytes, List.length_cons, ih]

theorem length_complBytes (c : Compl) (head phase : Nat) : (complBytes c head phase).length = 32 := by simp [complBytes]

theorem length_evBytes (e : EvEntry) (phase ovf : Nat) : (evBytes e phase ovf).length = 32 := by simp [evBytes]

theorem hostRead_hostWrite {a n : Nat} {l : List Byte} (s : State) (len : l.length = n) : hostRead a n (hostWrite a l s) = l :=
  len ▸ Memory.readN_writeN s.mem.host a l

/-- A place in a ring moves to the next one, from the last to the first. -/
theorem ring_next {i size : Nat} (inside : i < size) : (if i + 1 = size then 0 else i + 1) = (i + 1) % size := by
  split
  · rename_i last
    rw [last, Nat.mod_self]
  · rw [Nat.mod_eq_of_lt (by omega)]

/-! ## The fields of one block of registers -/

/-- A field of a block of registers, such as a function's command block, keeps its value where another field of the block is written. -/
theorem fget_fset_block {base o lo w r p l v q : Nat} (other : o * 64 + lo ≠ p * 64 + l) (n : Nat) (s : State) :
    fget ⟨base + o, lo, w, r⟩ (fset ⟨base + p, l, v, q⟩ n s) = fget ⟨base + o, lo, w, r⟩ s :=
  fget_fset_other _ _ _ _ (by simp only [fkey]; omega)

theorem fget_regs {s t : State} (f : Fld) (same : t.regs = s.regs) : fget f t = fget f s := congrArg (tget f.rst · (fkey f)) same

theorem fset_regs {s t : State} (f : Fld) (v : Nat) (same : t.regs = s.regs) : (fset f v t).regs = (fset f v s).regs :=
  congrArg (tset · _ _) same

/-! ## Commands fetched (R79, R80) -/

theorem completes_answered_now (op : Nat) (c : Cmd) (s t : State) (r : Rsp) :
    Completes op c r 0 (answered op c s (complOf c.tag op r) t) := completes_answered ..

/-- A command keeps the registers of its ring as it is taken in, but for the count in flight. -/
theorem fget_takeIn (f : Fld) (op : Nat) (c : Cmd) (s : State) (other : fkey f ≠ fkey (R.CMD_STATUS_in_flight c.fn)) :
    fget f (takeIn op c s).s = fget f s := by
  have counted := fget_fset_other f _ (fget (R.CMD_STATUS_in_flight c.fn) s + 1) s other
  unfold takeIn
  dsimp only
  split
  · exact counted
  · split <;> exact counted

section
variable {fn : Fn} {s : State} (more : fget (R.CMD_SQ_HEAD_head fn) s ≠ fget (R.CMD_SQ_TAIL_tail fn) s) (intake : intakeOpen fn s = true)
include more intake

theorem exec_commandFetch_failed
    (failed : hostOk (fget (R.CMD_SQ_BASE_base fn) s * 4096 + 64 * fget (R.CMD_SQ_HEAD_head fn) s) 64 s = false) :
    exec (.commandFetch fn) s = .next (haltSq fn 2 s) := by
  change execCommandFetch fn s = _
  simp [execCommandFetch, more, intake, failed]

/-- The entry at the head, once it is read: refused, or run. -/
theorem exec_commandFetch_reached
    (reached : hostOk (fget (R.CMD_SQ_BASE_base fn) s * 4096 + 64 * fget (R.CMD_SQ_HEAD_head fn) s) 64 s = true) :
    let l := hostRead (fget (R.CMD_SQ_BASE_base fn) s * 4096 + 64 * fget (R.CMD_SQ_HEAD_head fn) s) 64 s
    let op := le l 0 2
    let c := cmdOf fn l
    let s1 := fset (R.CMD_SQ_HEAD_head fn) ((fget (R.CMD_SQ_HEAD_head fn) s + 1) % sqSize fn s) s
    (∀ r, (takeIn op c s1).refuse = some r →
      exec (.commandFetch fn) s = .next (answered op c s1 (complOf c.tag op r) (entered op c s1))) ∧
    ((takeIn op c s1).refuse = none → exec (.commandFetch fn) s = .next (fetchedRun op c (takeIn op c s1).slot (entered op c s1))) := by
  intro l op c s1
  refine ⟨fun r refused => ?_, fun taken => ?_⟩
  all_goals change execCommandFetch fn s = _
  · simp only [execCommandFetch, more, intake, reached]
    simp [l, op, c, s1, refused, answered, entered]
  · simp [execCommandFetch, more, intake, reached, l, op, c, s1, taken, entered]

end

theorem commandFetch : Claims.CommandFetch := by
  intro fn s more intake head a l op c s1
  refine ⟨exec_commandFetch_failed more intake, fun reached r refused => ?_, fun reached taken => ⟨?_, ?_⟩⟩
  · exact ⟨_, (exec_commandFetch_reached more intake reached).1 r refused, completes_answered_now ..⟩
  · have other : fkey (R.CMD_SQ_HEAD_head fn) ≠ fkey (R.CMD_STATUS_in_flight fn) := by
      simp only [fkey, R.CMD_SQ_HEAD_head, R.CMD_STATUS_in_flight]
      omega
    exact (fget_takeIn _ op c s1 other).trans (fget_fset ..)
  · have runs := (exec_commandFetch_reached more intake reached).2 taken
    refine ⟨fun kind => ?_, fun kind => ?_, fun kind => ?_, fun kind => ?_⟩
    all_goals
      rw [runs, fetchedRun, kind]
      rfl

/-! ## Completions written (R77, R78, R92) -/

/-- The bytes of the entry that a completion makes, under a phase. -/
def cqEntry (fn : Fn) (p : Posted) (phase : Nat) (s : State) : List Byte := complBytes p.c (fget (R.CMD_SQ_HEAD_head fn) s) phase

/-- The tail of a CQ moved by one entry in ring order, its phase with it at the end of a pass. -/
def cqMoved (fn : Fn) (s : State) : State :=
  if fget (R.CMD_CQ_TAIL_tail fn) s + 1 = cqSize fn s then
    fset (R.CMD_CQ_TAIL_phase fn) (1 - fget (R.CMD_CQ_TAIL_phase fn) s) (fset (R.CMD_CQ_TAIL_tail fn) 0 s)
  else fset (R.CMD_CQ_TAIL_tail fn) (fget (R.CMD_CQ_TAIL_tail fn) s + 1) s

theorem signal_mem (fn : Fn) (v : Nat) (s : State) : (signal fn v s).mem = s.mem := (signal_moves ..).same .mem (by decide)

theorem signal_regs (fn : Fn) (v : Nat) (s : State) : (signal fn v s).regs = s.regs := (signal_moves ..).same .regs (by decide)

/-- What the writing of an entry changes: host memory at the tail, the ring's registers, the result slot. -/
theorem cqWrite_parts (fn : Fn) (p : Posted) (s : State) :
    (cqWrite fn p s).mem = (hostWrite (fget (R.CMD_CQ_BASE_base fn) s * 4096 + 32 * fget (R.CMD_CQ_TAIL_tail fn) s)
      (cqEntry fn p (fget (R.CMD_CQ_TAIL_phase fn) s) s) s).mem ∧
    (cqWrite fn p s).regs = (fset (R.CMD_STATUS_in_flight fn) (fget (R.CMD_STATUS_in_flight fn) (cqMoved fn s) - 1) (cqMoved fn s)).regs ∧
    (cqWrite fn p s).hif.slots = p.slot.elim s.hif.slots fun n =>
      tset s.hif.slots (slotKey fn n) ⟨some (cqEntry fn p 0 s), some (fget (R.CMD_CQ_TAIL_tail fn) s)⟩ := by
  unfold cqWrite
  extract_lets tail phase head wasEmpty s1 entry s2 indexed s3 wrap s4 s5 s6
  have claimed : s2.mem = s1.mem ∧ s2.regs = s.regs ∧ s2.hif.slots = p.slot.elim s.hif.slots fun n =>
      tset s.hif.slots (slotKey fn n) ⟨some (cqEntry fn p 0 s), some tail⟩ := by
    unfold s2
    split
    · rename_i none_
      exact ⟨rfl, rfl, by rw [none_]; rfl⟩
    · rename_i n some_
      exact ⟨rfl, rfl, by rw [some_]; rfl⟩
  obtain ⟨mem, regs, slots⟩ : s3.mem = s1.mem ∧ s3.regs = s.regs ∧ s3.hif.slots = p.slot.elim s.hif.slots fun n =>
      tset s.hif.slots (slotKey fn n) ⟨some (cqEntry fn p 0 s), some tail⟩ := by
    unfold s3
    split <;> exact claimed
  have size : cqSize fn s3 = cqSize fn s := congrArg (2 ^ ·) (fget_regs _ regs)
  have moved : s5.regs = (cqMoved fn s).regs := by
    unfold s5 s4 wrap cqMoved
    rw [size]
    by_cases last : tail + 1 = cqSize fn s
    · simp only [last, decide_true, if_true]
      rw [if_pos last]
      exact fset_regs _ _ (fset_regs _ _ regs)
    · simp only [last, decide_false, if_false, Bool.false_eq_true]
      rw [if_neg last]
      exact fset_regs _ _ regs
  have counted : s6.regs = (fset (R.CMD_STATUS_in_flight fn) (fget (R.CMD_STATUS_in_flight fn) (cqMoved fn s) - 1) (cqMoved fn s)).regs := by
    unfold s6
    rw [fget_regs _ moved]
    exact fset_regs _ _ moved
  have kept : s6.mem = s1.mem ∧ s6.hif.slots = s3.hif.slots := by
    unfold s6 s5
    split
    · exact ⟨mem, rfl⟩
    · exact ⟨mem, rfl⟩
  obtain ⟨memKept, slotsKept⟩ := kept
  split
  · rw [signal_mem, signal_regs, Hif.still_slots (signal_still ..)]
    exact ⟨memKept, counted, slotsKept.trans slots⟩
  · exact ⟨memKept, counted, slotsKept.trans slots⟩

theorem completionEntry : Claims.CompletionEntry := by
  intro fn p s inside small parity tail phase a t
  obtain ⟨mem, regs, slots⟩ := cqWrite_parts fn p s
  have size : cqSize fn s ≤ 2 ^ 12 := Nat.pow_le_pow_right (by decide) small
  have length : (cqEntry fn p phase s).length = 32 := length_complBytes ..
  refine ⟨?entry, fun x outside => ?rest, ?tail, ?phase, fun n takes => ?slot⟩
  case entry =>
    rw [hostRead, mem]
    exact hostRead_hostWrite s length
  case rest =>
    rw [mem]
    exact Memory.read_writeN_outside _ _ _ _ (length ▸ outside)
  case tail =>
    have moved : fget (R.CMD_CQ_TAIL_tail fn) (cqMoved fn s) = (tail + 1) % cqSize fn s := by
      rw [← Nat.mod_eq_of_lt (Nat.lt_of_lt_of_le (Nat.mod_lt (tail + 1) (Nat.zero_lt_of_lt inside)) size), ← ring_next inside]
      unfold cqMoved
      split
      · exact (fget_fset_block (by decide) ..).trans (fget_fset ..)
      · exact fget_fset ..
    rw [fget_regs _ regs]
    exact (fget_fset_block (by decide) ..).trans moved
  case phase =>
    have moved : fget (R.CMD_CQ_TAIL_phase fn) (cqMoved fn s) = (if tail + 1 = cqSize fn s then 1 - phase else phase) := by
      unfold cqMoved
      split
      · exact (fget_fset ..).trans (Nat.mod_eq_of_lt (Nat.lt_succ_of_le (Nat.sub_le 1 phase)))
      · exact fget_fset_block (by decide) ..
    rw [fget_regs _ regs]
    exact (fget_fset_block (by decide) ..).trans moved
  case slot =>
    rw [slots, takes]
    exact ⟨_, tfind_tset_same .., rfl, rfl⟩

/-- Settles O17, from the entry that a fetch takes and from what the writing of a completion changes. -/
theorem commandRings : Obligations.CommandRings := ⟨commandFetch, completionEntry⟩

/-! ## The rings' registers (R78, R80, R84) -/

section
variable {fn : Fn} {v : Nat} {s : State}

theorem sqTailWrite_moved (word : v < 4096) (other : v ≠ fget (R.CMD_SQ_TAIL_tail fn) s) (inside : v < sqSize fn s) :
    sqTailWrite fn v s = fset (R.CMD_SQ_TAIL_tail fn) v s := by
  simp [sqTailWrite, Nat.mod_eq_of_lt word, other, Nat.not_le.mpr inside]

theorem sqTailWrite_bad (word : v < 4096) (other : v ≠ fget (R.CMD_SQ_TAIL_tail fn) s) (outside : sqSize fn s ≤ v) :
    sqTailWrite fn v s = haltSq fn 1 s := by
  simp [sqTailWrite, Nat.mod_eq_of_lt word, other, outside]

theorem tfind_filter {α : Type} {t : Tbl α} {k : Nat} {x : α} {f : Nat × α → Bool} (found : tfind t k = some x) (stays : f (k, x) = true) :
    tfind (t.filter f) k = some x := by
  induction t with
  | nil => exact absurd found (by simp [tfind])
  | cons q r ih =>
    obtain ⟨j, w⟩ := q
    by_cases here : j = k
    · subst here
      obtain rfl : w = x := by simpa [tfind] using found
      rw [List.filter_cons_of_pos stays, tfind, if_pos rfl]
    · have later : tfind r k = some x := by simpa [tfind, here] using found
      rw [List.filter_cons]
      split
      · rw [tfind, if_neg here, ih later]
      · exact ih later

/-- The host's head taken: the slots of the entries that it does not pass stand. -/
theorem cqHeadWrite_taken (word : v < 4096)
    (taken : headTaken (fget (R.CMD_CQ_HEAD_head fn) s) (fget (R.CMD_CQ_TAIL_tail fn) s) (cqSize fn s) v = true) :
    fget (R.CMD_CQ_HEAD_head fn) (cqHeadWrite fn v s) = v ∧
    ∀ n x i, tfind s.hif.slots (slotKey fn n) = some x → x.index = some i →
      retires (cqSize fn s) (fget (R.CMD_CQ_HEAD_head fn) s) v i = false → tfind (cqHeadWrite fn v s).hif.slots (slotKey fn n) = some x := by
  simp only [cqHeadWrite, Nat.mod_eq_of_lt word, taken, Bool.not_true, Bool.false_eq_true, if_false]
  refine ⟨?_, fun n x i found index stays => tfind_filter found ?_⟩
  · exact (fget_fset_block (by decide) ..).trans ((fget_fset ..).trans (Nat.mod_eq_of_lt word))
  · simp [index, stays]

theorem cqHeadWrite_bad (word : v < 4096)
    (bad : headTaken (fget (R.CMD_CQ_HEAD_head fn) s) (fget (R.CMD_CQ_TAIL_tail fn) s) (cqSize fn s) v = false) :
    cqHeadWrite fn v s = fset (R.CMD_STATUS_bad_head fn) 1 s := by
  simp [cqHeadWrite, Nat.mod_eq_of_lt word, bad]

theorem resultAck_ready {x : Slot} (word : v < 64) (found : tfind s.hif.slots (slotKey fn v) = some x) (ready : x.ready.isSome = true) :
    resultAck fn v s = { s with hif := { s.hif with slots := terase s.hif.slots (slotKey fn v) } } := by
  simp [resultAck, Nat.mod_eq_of_lt word, found, ready]

end

section
variable {fn : Fn} {v : Nat} {s : State}

theorem b2n_mod_two (b : Bool) : b2n b % 2 = b2n b := by cases b <;> rfl

theorem cmdEnable_refused (on : v % 2 = 1) (off : fon (R.CMD_CTRL_enable fn) s = false)
    (short : fget (R.CMD_RING_SIZE_cq_log2 fn) s < fget (R.CMD_RING_SIZE_sq_log2 fn) s) :
    cmdEnable fn v s = fset (R.CMD_STATUS_enable_refused fn) 1 s := by
  simp [cmdEnable, on, off, short]

/-- Enabled, both rings stand at entry 0 and at phase 1, and intake runs where it is not halted. -/
theorem cmdEnable_on (on : v % 2 = 1) (off : fon (R.CMD_CTRL_enable fn) s = false)
    (enough : fget (R.CMD_RING_SIZE_sq_log2 fn) s ≤ fget (R.CMD_RING_SIZE_cq_log2 fn) s) :
    let t := cmdEnable fn v s
    fget (R.CMD_CTRL_enable fn) t = 1 ∧ fget (R.CMD_SQ_HEAD_head fn) t = 0 ∧ fget (R.CMD_SQ_TAIL_tail fn) t = 0 ∧
      fget (R.CMD_CQ_HEAD_head fn) t = 0 ∧ fget (R.CMD_CQ_TAIL_tail fn) t = 0 ∧ fget (R.CMD_CQ_TAIL_phase fn) t = 1 ∧
      fget (R.CMD_STATUS_running fn) t = b2n (!fon (R.CMD_STATUS_sq_halted fn) s) := by
  simp only [cmdEnable, on, off, Nat.not_lt.mpr enough, if_true, if_false, Bool.false_eq_true]
  simp only [fon, R.CMD_CTRL_enable, R.CMD_SQ_HEAD_head, R.CMD_SQ_TAIL_tail, R.CMD_CQ_HEAD_head, R.CMD_CQ_TAIL_tail,
    R.CMD_CQ_TAIL_phase, R.CMD_STATUS_running, R.CMD_STATUS_sq_halted]
  simp [fget_fset_block, b2n_mod_two]

theorem cmdEnable_off (on : v % 2 = 0) (was : fon (R.CMD_CTRL_enable fn) s = true) (drained : fget (R.CMD_STATUS_in_flight fn) s = 0) :
    fget (R.CMD_CTRL_enable fn) (cmdEnable fn v s) = 0 ∧ fget (R.CMD_STATUS_running fn) (cmdEnable fn v s) = 0 := by
  simp only [cmdEnable, on, was, drained, ne_eq, not_true_eq_false, decide_false, Bool.not_true, Bool.or_self, Bool.false_eq_true,
    Nat.zero_ne_one, if_false]
  refine ⟨?_, (fget_fset_block (by decide) ..).trans (fget_fset ..)⟩
  exact (fget_fset_block (by decide) ..).trans ((fget_fset_block (by decide) ..).trans (fget_fset ..))

/-- Intake goes on where its halt is cleared, with the halt of the CQ as the cause that stands. -/
theorem sqResume_halted (halted : fon (R.CMD_STATUS_sq_halted fn) s = true) (oneBit : fget (R.CMD_CTRL_enable fn) s ≤ 1) :
    fget (R.CMD_STATUS_sq_halted fn) (sqResume fn s) = 0 ∧
    fget (R.CMD_STATUS_running fn) (sqResume fn s) = fget (R.CMD_CTRL_enable fn) s ∧
    fget (R.CMD_STATUS_halt_cause fn) (sqResume fn s) = if fon (R.CMD_STATUS_cq_halted fn) s then 3 else 0 := by
  simp only [sqResume, haltCauseSync, halted]
  have bit : fget (R.CMD_CTRL_enable fn) s % 2 = fget (R.CMD_CTRL_enable fn) s := by omega
  simp only [R.CMD_CTRL_enable] at bit
  simp only [fon, R.CMD_CTRL_enable, R.CMD_STATUS_running, R.CMD_STATUS_sq_halted, R.CMD_STATUS_cq_halted, R.CMD_STATUS_halt_cause]
  simp [fget_fset_block, bit]
  split <;> decide

theorem cqResume_halted (halted : fon (R.CMD_STATUS_cq_halted fn) s = true) :
    cqResume fn s = cqFlush fn (haltCauseSync fn (fset (R.CMD_STATUS_cq_halted fn) 0 s)) := by
  simp [cqResume, halted]

end

theorem ringRegisters : Claims.RingRegisters := by
  intro fn v s
  refine ⟨fun word other inside => ?tail, fun word other outside => ?badTail, fun word taken => ?head, fun word bad => ?badHead,
    fun x word found ready => ?ack, fun on off enough => ?enable, fun on off short => ?refuse, fun on was drained => ?disable,
    fun halted oneBit => ?sq, fun halted => ?cq⟩
  case tail =>
    exact ⟨_, congrArg Host.Outcome.next (sqTailWrite_moved word other inside), (fget_fset ..).trans (Nat.mod_eq_of_lt word),
      (fset_moves ..).toChanges⟩
  case badTail => exact congrArg Host.Outcome.next (sqTailWrite_bad word other outside)
  case head =>
    obtain ⟨head, slots⟩ := cqHeadWrite_taken word taken
    exact ⟨_, rfl, head, fun n x i _ => slots n x i⟩
  case badHead =>
    exact ⟨_, congrArg Host.Outcome.next (cqHeadWrite_bad word bad), fget_fset .., rfl, fget_fset_block (by decide) ..⟩
  case ack =>
    exact ⟨_, congrArg Host.Outcome.next (resultAck_ready word found ready), tfind_terase_same .., changes_hif ..⟩
  case enable => exact ⟨_, rfl, cmdEnable_on on off enough⟩
  case refuse =>
    refine ⟨_, congrArg Host.Outcome.next (cmdEnable_refused on off short), fget_fset .., ?_⟩
    rw [← off, fon, fon]
    exact congrArg (· != 0) (fget_fset_block (by decide) ..)
  case disable => exact ⟨_, rfl, cmdEnable_off on was drained⟩
  case sq => exact ⟨_, rfl, sqResume_halted halted oneBit⟩
  case cq => exact congrArg Host.Outcome.next (cqResume_halted halted)

/-! ## Event rings (R78, R90) -/

theorem signal_evqGet (k : Nat) (fn : Fn) (v : Nat) (s : State) : evqGet k (signal fn v s) = evqGet k s := by
  unfold signal
  dsimp only
  split <;> rfl

/-- The address of the next entry of a function's event ring. -/
def evqAt (fn : Fn) (q : Nat) (s : State) : Nat := fget (R.INT_EVQ_BASE_base fn q) s * 4096 + 32 * fget (R.INT_EVQ_TAIL_tail fn q) s

/-- An entry moved from its queue to the host ring, before the ring's vector is signalled. -/
def evqMoved (fn : Fn) (q k : Nat) (e : EvEntry) (s : State) : State :=
  let tail := fget (R.INT_EVQ_TAIL_tail fn q) s
  let size := evqSize fn q s
  let phase := fget (R.INT_EVQ_TAIL_phase fn q) s
  let t := fset (R.INT_EVQ_TAIL_tail fn q) ((tail + 1) % size) (evqPut k { evqGet k s with
    items := (evqGet k s).items.erase e
    ovf := false } (hostWrite (evqAt fn q s) (evBytes e phase (b2n (evqGet k s).ovf)) s))
  if tail + 1 = size then fset (R.INT_EVQ_TAIL_phase fn q) (1 - phase) t else t

section
variable {fn : Fn} {q k : Nat} {e : EvEntry} {s : State}

theorem evDeliver_room {pick : Nat} (key : evqKey fn q = some k) (picked : evqPick (evqGet k s).items pick = some e)
    (on : fon (R.INT_EVQ_CFG_enable fn q) s = true)
    (room : ringRoom (fget (R.INT_EVQ_HEAD_head fn q) s) (fget (R.INT_EVQ_TAIL_tail fn q) s) (evqSize fn q s) 0 = true)
    (reached : hostOk (evqAt fn q s) 32 s = true) : evDeliver fn q pick s =
      if fget (R.INT_EVQ_HEAD_head fn q) s = fget (R.INT_EVQ_TAIL_tail fn q) s then signal fn (evqVec k) (evqMoved fn q k e s)
      else evqMoved fn q k e s := by
  unfold evqAt at reached
  simp only [evDeliver, key, picked, on, room, reached]
  rfl

theorem evqMoved_parts : (evqMoved fn q k e s).mem =
      (hostWrite (evqAt fn q s) (evBytes e (fget (R.INT_EVQ_TAIL_phase fn q) s) (b2n (evqGet k s).ovf)) s).mem ∧
    evqGet k (evqMoved fn q k e s) = { evqGet k s with
      items := (evqGet k s).items.erase e
      ovf := false } ∧
    fget (R.INT_EVQ_TAIL_tail fn q) (evqMoved fn q k e s) = (fget (R.INT_EVQ_TAIL_tail fn q) s + 1) % evqSize fn q s % 2 ^ 14 := by
  unfold evqMoved
  dsimp only
  split
  · exact ⟨rfl, tget_tset_same .., (fget_fset_block (by decide) ..).trans (fget_fset ..)⟩
  · exact ⟨rfl, tget_tset_same .., fget_fset ..⟩

theorem evqHeadWrite_taken {v : Nat} (key : evqKey fn q = some k) (word : v < 2 ^ 14) (taken : headTaken (fget (R.INT_EVQ_HEAD_head fn q) s)
    (fget (R.INT_EVQ_TAIL_tail fn q) s) (evqSize fn q s) v = true) : evqHeadWrite fn q v s = fset (R.INT_EVQ_HEAD_head fn q) v s := by
  simp only [evqHeadWrite, Nat.mod_eq_of_lt word, key, taken, Option.isSome_some, Bool.and_self, if_true]

theorem evqHeadWrite_ignored {v : Nat} (word : v < 2 ^ 14) (bad : headTaken (fget (R.INT_EVQ_HEAD_head fn q) s)
    (fget (R.INT_EVQ_TAIL_tail fn q) s) (evqSize fn q s) v = false) : evqHeadWrite fn q v s = s := by
  simp only [evqHeadWrite, Nat.mod_eq_of_lt word, bad, Bool.and_false, Bool.false_eq_true, if_false]

end

theorem eventRings : Claims.EventRings := by
  intro fn q pick k e s key picked on small head tail a
  have size : evqSize fn q s ≤ 2 ^ 14 := Nat.pow_le_pow_right (by decide) small
  have moved : (tail + 1) % evqSize fn q s % 2 ^ 14 = (tail + 1) % evqSize fn q s :=
    Nat.mod_eq_of_lt (Nat.lt_of_lt_of_le (Nat.mod_lt _ (Nat.two_pow_pos _)) size)
  refine ⟨fun room reached => ?deliver, fun v word taken => ?head, fun v word bad => ?ignored⟩
  case deliver =>
    obtain ⟨mem, queue, tailMoved⟩ := evqMoved_parts (fn := fn) (q := q) (k := k) (e := e) (s := s)
    have written : hostRead a 32 (evqMoved fn q k e s) = evBytes e (fget (R.INT_EVQ_TAIL_phase fn q) s) (b2n (evqGet k s).ovf) := by
      rw [hostRead, mem]
      exact hostRead_hostWrite s (length_evBytes ..)
    refine ⟨_, congrArg Host.Outcome.next (evDeliver_room key picked on room reached), ?_⟩
    split
    · rw [hostRead, signal_mem, signal_evqGet, fget_regs _ (signal_regs ..), queue, tailMoved]
      exact ⟨written, rfl, rfl, moved⟩
    · rw [queue, tailMoved]
      exact ⟨written, rfl, rfl, moved⟩
  case head =>
    exact ⟨_, congrArg Host.Outcome.next (evqHeadWrite_taken key word taken), (fget_fset ..).trans (Nat.mod_eq_of_lt word),
      (fset_moves ..).toChanges⟩
  case ignored => exact congrArg Host.Outcome.next (evqHeadWrite_ignored word bad)

/-- Settles O18, from what each write of a ring's register does and from the entry that an event ring takes. -/
theorem hostRings : Obligations.HostRings := ⟨ringRegisters, eventRings⟩

end Sys2Proof.Machine
end

section
/-! PROOFS. The mailbox and SMBus (R93, R94); functions reset, the link, staged lengths and what else the host does (R72, R94, R115, R180,
R434, R467, R487). -/

namespace Sys2Proof.Machine
open Sys2Proof.Claims

/-! ## Mailbox operations (R93, R94) -/

/-- The response over a path from an operation's outcome. -/
def mbxAnswer (p : MbxPath) (seq : Nat) (r : State × (Nat × List Byte)) : State := mbxReply p seq r.2.1 r.2.2 r.1

theorem mbxRsp_mod (seq : Nat) (r : Nat × List Byte) : mbxRsp (seq % 256) r = mbxRsp seq r := by
  have byte : BitVec.ofNat 8 (seq % 256) = BitVec.ofNat 8 seq := BitVec.eq_of_toNat_eq (by simp)
  simp [mbxRsp, leBytes, byte]

theorem le_mbxReqOf {op seq arg : Nat} (small : op < 256) (word : arg < 2 ^ 32) : le (mbxReqOf op seq arg) 0 1 = op ∧
    le (mbxReqOf op seq arg) 1 1 = seq % 256 ∧ le (mbxReqOf op seq arg) 4 4 = arg := by
  simp only [le, slice, mbxReqOf, leBytes]
  refine ⟨?_, ?_, ?_⟩
  · simp [leNat]
    omega
  · simp [leNat]
  · simp [leNat]
    omega

section
variable {op seq arg : Nat} {pec : Bool} {p : MbxPath} {s : State}

/-- The request in progress is carried out and answered. -/
theorem mbxRun_request (busy : fon R.MBX_CTRL_busy s = true) (request : s.hif.mbx.req = mbxReqOf op seq arg) (small : op < 256)
    (word : arg < 2 ^ 32) : mbxRun s = mbxAnswer .config seq (mbxOp op arg s) := by
  obtain ⟨code, number, argument⟩ := le_mbxReqOf (seq := seq) small word
  simp only [mbxRun, busy, request, code, number, argument, mbxRsp_mod]
  rfl

/-- An operation that is served is carried out on what it meets, and answered. -/
theorem mbxRequest_open (served : MbxOpen op p seq arg pec s) (small : op < 256) :
    mbxRequest op p seq arg pec s = mbxAnswer p seq (mbxOp op arg (mbxStart op p seq arg s)) := by
  obtain ⟨_, word, path⟩ := served
  rcases path with ⟨rfl, own⟩ | ⟨rfl, rfl, control⟩
  · cases busy : fon R.MBX_CTRL_busy s with
    | true =>
      have request : s.hif.mbx.req = mbxReqOf op seq arg := own.resolve_left (by simp [busy])
      simp only [mbxRequest, mbxStart, busy, request, if_true]
      exact mbxRun_request busy request small word
    | false =>
      have idle : fon R.MBX_CTRL_busy (mbxReqPut op seq arg s) = false := busy
      have begun : fon R.MBX_CTRL_busy (fset R.MBX_CTRL_busy 1 (mbxReqPut op seq arg s)) = true := by simp [fon, R.MBX_CTRL_busy]
      simp only [mbxRequest, mbxStart, mbxGo, busy, idle, Bool.false_eq_true, if_false]
      exact mbxRun_request begun rfl small word
  · have allowed : (decide (5 ≤ op) && !fon R.GLB_AON_CFG_smb_ctl (mbxRun s)) = false := by simpa using control
    have own : (!true || decide (smbAddress s ≠ smbAddress s)) = false := by simp
    simp only [mbxRequest, mbxStart, own, allowed]
    rfl

/-- The answer of an operation by its outcome. -/
theorem mbxRequest_answers {st : Nat} {data : List Byte} {t : State} (served : MbxOpen op p seq arg pec s) (small : op < 256)
    (runs : mbxOp op arg (mbxStart op p seq arg s) = (t, st, data)) : mbxRequest op p seq arg pec s = mbxReply p seq st data t := by
  rw [mbxRequest_open served small, runs]
  rfl

end

theorem mailboxOperations : Claims.MailboxOperations := by
  intro p seq pec s
  refine ⟨fun served => ?identity, fun served => ?status, fun i served => ⟨fun e kept => ?entry, fun none_ => ?noEntry⟩, fun served => ?device,
    fun r ring served => ?ring, fun b bay served => ?quarantine, fun b bay served out => ?reset, fun served => ?kick⟩
  all_goals
    have serves := served.1
    refine congrArg Host.Outcome.next (mbxRequest_answers served (by decide) ?_)
  case identity => simp [mbxOp, serves, mbxIdentity, mbxOk, stOk]
  case status => simp [mbxOp, serves, mbxStatus, mbxOk, stOk]
  case entry => simp [mbxOp, serves, mbxFaultlog, kept, mbxOk, stOk]
  case noEntry => simp [mbxOp, serves, mbxFaultlog, none_, stBadArg]
  case device => simp [mbxOp, serves, mbxZeroise, mbxOk, stOk]
  case ring => simp [mbxOp, serves, mbxZeroise, mbxOk, stOk, Nat.not_lt.mpr (Nat.succ_le_of_lt ring)]
  case quarantine => simp [mbxOp, serves, mbxQuarantine, mbxOk, stOk, Nat.not_le.mpr bay]
  case reset => simp [mbxOp, serves, mbxWarmReset, mbxOk, stOk, Nat.not_le.mpr bay, out]
  case kick => simp [mbxOp, serves, wdtKick, mbxOk, stOk]

/-! ## Mailbox requests refused (R93, R94) -/

theorem exec_mbxRows (p : MbxPath) (seq : Nat) (pec : Bool) (arg : Nat) (s : State) : ∀ r ∈ mbxRows p seq pec arg,
    exec r.2.2 s = .next (mbxRequest r.1 p seq r.2.1 pec s) := by
  unfold mbxRows
  repeat' refine List.forall_mem_cons.mpr ⟨rfl, ?_⟩
  exact List.forall_mem_nil _

section
variable {op seq arg addr : Nat} {pec : Bool} {s : State}

theorem mbxRequest_ignored (wrong : pec = false ∨ addr ≠ smbAddress s) : mbxRequest op (.smbus addr) seq arg pec s = s := by
  have other : (!pec || decide (addr ≠ smbAddress s)) = true := by simpa using wrong
  simp only [mbxRequest, other, if_true]

theorem mbxRequest_denied (control : 5 ≤ op) (off : fon R.GLB_AON_CFG_smb_ctl (mbxRun s) = false) :
    mbxRequest op (.smbus (smbAddress s)) seq arg true s = mbxReply (.smbus (smbAddress s)) seq 10 [] (mbxRun s) := by
  simp [mbxRequest, control, off, mbxReply, mbxRsp, mbxErr, stDenied]

theorem mbxRequest_collides (busy : fon R.MBX_CTRL_busy s = true) (other : s.hif.mbx.req ≠ mbxReqOf op seq arg) :
    mbxRequest op .config seq arg pec s = fset R.MBX_CTRL_collision 1 s := by
  simp [mbxRequest, mbxGo, busy, other]

end

theorem mailboxRefusals : Claims.MailboxRefusals := by
  intro seq arg op a pec p i s row
  have runs : exec i s = .next (mbxRequest op p seq a pec s) := exec_mbxRows p seq pec arg s _ row
  refine ⟨fun addr path wrong => ?_, fun path right control off => ?_, fun path busy other => ?_⟩
  · rw [runs, path, mbxRequest_ignored wrong]
  · rw [runs, path, right, mbxRequest_denied control off]
  · rw [runs, path, mbxRequest_collides busy other]

/-- Settles O19, from the state that a request meets on each path and from what each operation answers there. -/
theorem mailbox : Obligations.Mailbox := ⟨mailboxOperations, mailboxRefusals⟩

/-! ## A function reset (R72, R434) -/

theorem mem_teraseRange {α : Type} {t : Tbl α} {lo hi : Nat} {p : Nat × α} :
    p ∈ teraseRange t lo hi ↔ p ∈ t ∧ (p.1 < lo ∨ hi ≤ p.1) := by
  simp [teraseRange]

/-- A key that no entry has reads as none. -/
theorem tfind_none {α : Type} {t : Tbl α} {k : Nat} (absent : ∀ p ∈ t, p.1 ≠ k) : tfind t k = none := by
  induction t with
  | nil => rfl
  | cons q r ih =>
    rw [tfind, if_neg (absent q List.mem_cons_self), ih fun p mem => absent p (List.mem_cons_of_mem _ mem)]

theorem tfind_teraseRange {α : Type} (t : Tbl α) {lo hi k : Nat} (low : lo ≤ k) (high : k < hi) :
    tfind (teraseRange t lo hi) k = none :=
  tfind_none fun p mem => by
    obtain ⟨_, outside⟩ := mem_teraseRange.mp mem
    omega

/-- A key reads in a range erased as it did, or as its default. -/
theorem tget_teraseRange {α : Type} (d : α) (t : Tbl α) (lo hi k : Nat) :
    tget d (teraseRange t lo hi) k = if lo ≤ k ∧ k < hi then d else tget d t k := by
  induction t with
  | nil => simp [teraseRange, tget]
  | cons q r ih =>
    obtain ⟨j, w⟩ := q
    have step : teraseRange ((j, w) :: r) lo hi =
        if j < lo ∨ hi ≤ j then (j, w) :: teraseRange r lo hi else teraseRange r lo hi := by
      simp [teraseRange, List.filter_cons]
    rw [step]
    by_cases here : j = k
    · subst here
      split
      · rw [tget, if_pos rfl, if_neg (by omega), tget, if_pos rfl]
      · rw [ih, if_pos (by omega), if_pos (by omega)]
    · rw [tget, if_neg here, ← ih]
      split
      · rw [tget, if_neg here]
      · rfl

theorem fget_resetRange (f : Fld) (lo hi : Nat) (s : State) :
    fget f (resetRange lo hi s) = if lo * 64 ≤ fkey f ∧ fkey f < hi * 64 then f.rst else fget f s := tget_teraseRange ..

/-- A field at its reset value keeps it where registers are reset. -/
theorem fget_resetRange_rst {f : Fld} (lo hi : Nat) {s : State} (fresh : fget f s = f.rst) : fget f (resetRange lo hi s) = f.rst := by
  rw [fget_resetRange, fresh, ite_self]

theorem evqKey_place {fn : Fn} {q k : Nat} (key : evqKey fn q = some k) : evqFn k = fn ∧ evqNo k = q := by
  cases fn with
  | pf =>
    obtain ⟨small, rfl⟩ : q < 16 ∧ evqPf q = k := by simpa [evqKey] using key
    simp [evqFn, evqNo, evqPf, small]
  | vf r =>
    obtain ⟨rfl, rfl⟩ : q = 0 ∧ evqVf r = k := by simpa [evqKey] using key
    have beyond : ¬ 16 + r < 16 := by omega
    exact ⟨(if_neg beyond).trans (congrArg Fn.vf (Nat.add_sub_cancel_left ..)), if_neg beyond⟩

/-- The reset of one event queue's registers (R72). -/
def evqReset1 (fn : Fn) (s : State) (q : Nat) : State :=
  let t := resetRange (evqBase fn q) (evqBase fn q + 0x18) s
  match evqKey fn q with
  | some k => evqPut k (evqGet k t) t
  | none => t

/-- An event queue's registers reset leave a command block enabled or not as it was. -/
theorem fget_enable_evqReset1 {fn : Fn} {s : State} (q : Nat) (off : fget (R.CMD_CTRL_enable fn) s = 0) :
    fget (R.CMD_CTRL_enable fn) (evqReset1 fn s q) = 0 := by
  have reset : fget (R.CMD_CTRL_enable fn) (resetRange (evqBase fn q) (evqBase fn q + 0x18) s) = 0 := fget_resetRange_rst _ _ off
  unfold evqReset1
  dsimp only
  split
  · rename_i k key
    obtain ⟨same, number⟩ := evqKey_place key
    have other : fkey (R.CMD_CTRL_enable fn) ≠ fkey (R.INT_EVQ_STATUS_depth fn q) := by
      cases fn <;> simp only [fkey, R.CMD_CTRL_enable, R.INT_EVQ_STATUS_depth, cmdBase, fnBase, evqBase] <;> omega
    rw [evqPut, same, number]
    exact (fget_fset_other _ _ _ _ other).trans reset
  · exact reset

theorem evqReset1_hif (fn : Fn) (s : State) (q : Nat) : ∃ e, (evqReset1 fn s q).hif = { s.hif with evq := e } := by
  unfold evqReset1
  dsimp only
  split
  · exact ⟨_, rfl⟩
  · exact ⟨s.hif.evq, rfl⟩

/-- The event queue registers of a function reset: its rings stay disabled, and nothing of the host interface changes but the queues. -/
theorem evqReset_leaves {fn : Fn} {s : State} (off : fget (R.CMD_CTRL_enable fn) s = 0) :
    fget (R.CMD_CTRL_enable fn) (evqReset fn s) = 0 ∧ ∃ e, (evqReset fn s).hif = { s.hif with evq := e } := by
  have steps (l : List Nat) (t : State) (before : fget (R.CMD_CTRL_enable fn) t = 0) :
      fget (R.CMD_CTRL_enable fn) (l.foldl (evqReset1 fn) t) = 0 ∧ ∃ e, (l.foldl (evqReset1 fn) t).hif = { t.hif with evq := e } := by
    induction l generalizing t with
    | nil => exact ⟨before, t.hif.evq, rfl⟩
    | cons q l ih =>
      obtain ⟨still, e, rest⟩ := ih _ (fget_enable_evqReset1 q before)
      obtain ⟨_, first⟩ := evqReset1_hif fn t q
      exact ⟨still, e, by rw [List.foldl_cons, rest, first]⟩
  exact steps _ s off

/-- The commands of a function in flight once it is reset: those yet to take effect are dropped, the others complete unseen. -/
def orphaned (fn : Fn) (l : List Flight) : List Flight :=
  (l.filter fun f => !(decide (f.cmd.fn = fn) && !f.effective)).map fun f => if f.cmd.fn = fn then { f with orphan := true } else f

theorem mem_orphaned {fn : Fn} {l : List Flight} {f : Flight} : f ∈ orphaned fn l → f.cmd.fn = fn → f.effective = true ∧ f.orphan = true := by
  intro mem own
  obtain ⟨g, left, rfl⟩ := List.mem_map.mp mem
  obtain ⟨_, stays⟩ := List.mem_filter.mp left
  by_cases mine : g.cmd.fn = fn
  · rw [if_pos mine]
    exact ⟨by simpa [mine] using stays, rfl⟩
  · rw [if_neg mine] at own
    exact absurd own mine

theorem foreign_mem_orphaned {fn : Fn} {l : List Flight} {f : Flight} (mem : f ∈ l) (foreign : f.cmd.fn ≠ fn) : f ∈ orphaned fn l :=
  List.mem_map.mpr ⟨f, List.mem_filter.mpr ⟨mem, by simp [foreign]⟩, by simp [foreign]⟩

/-- What a function-level reset leaves of the function's rings, slots, vectors and commands (R72). -/
theorem fnReset_leaves (fn : Fn) (s : State) : fget (R.CMD_CTRL_enable fn) (fnReset fn s) = 0 ∧
    (fnReset fn s).hif.slots = teraseRange s.hif.slots (fnNum fn * 64) (fnNum fn * 64 + 64) ∧
    (fnReset fn s).hif.msix = teraseRange s.hif.msix (fnNum fn * 2048) (fnNum fn * 2048 + 2048) ∧
    (fnReset fn s).hif.flight = orphaned fn s.hif.flight := by
  unfold fnReset
  extract_lets flight lops hif obs s1 s2 s3 s4
  have disabled : fget (R.CMD_CTRL_enable fn) s2 = 0 := by
    refine (fget_resetRange ..).trans (if_pos ?_)
    simp only [fkey, R.CMD_CTRL_enable]
    omega
  obtain ⟨off, e, hif3⟩ := evqReset_leaves disabled
  have off4 : fget (R.CMD_CTRL_enable fn) s4 = 0 := fget_resetRange_rst _ _ (fget_resetRange_rst _ _ off)
  have other : fkey (R.CMD_CTRL_enable fn) ≠ fkey (R.KEY_LOAD_STATUS_written fn) := by
    cases fn <;> simp only [fkey, R.CMD_CTRL_enable, R.KEY_LOAD_STATUS_written, cmdBase, fnBase, keyBase] <;> omega
  have hif4 : (lopSync fn (keyDiscard fn s4)).hif = { s1.hif with evq := e } := hif3
  exact ⟨(fget_fset_block (by decide) ..).trans ((fget_fset_other _ _ _ _ other).trans off4), congrArg Hif.slots hif4,
    congrArg Hif.msix hif4, congrArg Hif.flight hif4⟩

theorem functionResets : Claims.FunctionResets := by
  refine ⟨fun fn s => ?reset, fun s => rfl, fun s => rfl, fun s => ?perst⟩
  case reset =>
    obtain ⟨off, slots, msix, flight⟩ := fnReset_leaves fn s
    refine ⟨_, rfl, off, fun n small => ?_, fun n small => ?_, fun f mem => ?_, fun f mem foreign => ?_, (fnReset_moves ..).toChanges⟩
    · rw [slots]
      exact tfind_teraseRange _ (Nat.le_add_right ..) (Nat.add_lt_add_left small _)
    · rw [msix]
      exact tfind_teraseRange _ (Nat.le_add_right ..) (Nat.add_lt_add_left small _)
    · exact mem_orphaned (flight ▸ mem)
    · exact flight ▸ foreign_mem_orphaned mem foreign
  case perst =>
    obtain ⟨t, runs, moves⟩ := execPciePerst_runs s
    obtain rfl := Host.Outcome.next.inj runs
    exact ⟨_, rfl, rfl, moves.toChanges⟩

/-! ## SMBus, the trace buffer, the meter (R94, R180, R467) -/

theorem exec_smbusResponseRead (s : State) : exec .smbusResponseRead s = .next { s with
    out := .smbus (if s.hif.mbx.smb.isEmpty then (0x07 : Byte) :: List.replicate 71 0 else s.hif.mbx.smb) :: s.out } := rfl

theorem traceOn_fits {s : State} (off : fon R.OBS_TRACE_CFG_enable s = false)
    (fit : traceFits (fget R.OBS_TRACE_BASE_base s) (fget R.OBS_TRACE_CFG_n s) s = true) : traceOn s = fset R.OBS_TRACE_CFG_enable 1 s := by
  simp [traceOn, off, fit]

theorem traceOn_refused {s : State} (off : fon R.OBS_TRACE_CFG_enable s = false)
    (outside : traceFits (fget R.OBS_TRACE_BASE_base s) (fget R.OBS_TRACE_CFG_n s) s = false) :
    traceOn s = fset R.OBS_TRACE_CFG_refused 1 s := by
  simp [traceOn, off, outside]

theorem exec_audLegMeterRead {fn : Fn} {n : Nat} {s : State} (named : selected fn (R.AUD_LEG_SEL_leg fn) 0 16384 s = some n) :
    exec (.audLegMeterRead fn) s = .next { s with hif := { s.hif with
      readData := meterWord n (seen s)
      latch := tset s.hif.latch (64 + fnNum fn) (n, ofS 16 (legAud n (seen s)).held) } } := by
  change execAudLegMeterRead fn s = _
  simp only [execAudLegMeterRead, named]

/-! ## Staged lengths taken (R115) -/

@[simp] theorem evqGet_evqPut (k : Nat) (q : EvQueue) (s : State) : evqGet k (evqPut k q s) = q := tget_tset_same ..

theorem evqGet_evqLose (k n : Nat) (s : State) : evqGet k (evqLose k n s) = { evqGet k s with ovf := true } := by
  change evqGet k (evqPut k { evqGet k s with ovf := true } s) = _
  rw [evqGet_evqPut]

/-- A due depth of an event queue taken: the entries before it are kept, the others lost. -/
theorem evqResize_due {k d : Nat} {s : State} (staged : (evqGet k s).staged = some d) (due : (evqGet k s).due = true) :
    (evqGet k (evqResize k s)).depth = d ∧ (evqGet k (evqResize k s)).staged = none ∧
      (evqGet k (evqResize k s)).items = (evqGet k s).items.filter fun e => decide (e.pos < d) := by
  unfold evqResize
  extract_lets q
  simp only [q, staged, due, if_true]
  split
  · rw [evqGet_evqPut]
    exact ⟨rfl, rfl, rfl⟩
  · rw [evqGet_evqLose, evqGet_evqPut]
    exact ⟨rfl, rfl, rfl⟩

section
variable {id : Nat} {s : State}

theorem jrSettle_due {st : Stream} (found : tfind s.ctl.streams id = some st) (due : st.due = true) : jrSettle id s = jrResize id s := by
  simp [jrSettle, found, due]

theorem rwSettle_due {r : Rewind} (found : tfind s.egr.rings id = some r) (due : r.due = true) : rwSettle id s = rwResize id s := by
  simp [rwSettle, found, due]

end

section
variable {cl d : Nat} {s : State} (staged : (rqGet cl s).staged = some d) (due : (rqGet cl s).due = true)
include staged due

/-- A due capacity that all handles of a ready queue lie below. -/
theorem rqSettle_keeps (below : ∀ e ∈ (rqGet cl s).q, e.pos < d) : rqSettle cl s = rqPut cl { rqGet cl s with
    cap := d
    staged := none
    due := false } s := by
  have kept : ((rqGet cl s).q.filter fun e => decide (e.pos < d)) = (rqGet cl s).q := List.filter_eq_self.mpr (by simpa using below)
  simp only [rqSettle, staged, due, kept, Nat.sub_self]
  rfl

/-- A due capacity that some handle of a ready queue lies beyond: it is lost, counted, and found again by a rescan. -/
theorem rqSettle_loses (beyond : ∃ e ∈ (rqGet cl s).q, d ≤ e.pos) :
    let kept := (rqGet cl s).q.filter fun e => decide (e.pos < d)
    rqSettle cl s = rescan cl (cadd (clCnt cl 0x60) ((rqGet cl s).q.length - kept.length) (rqPut cl { rqGet cl s with
      q := kept
      cap := d
      staged := none
      due := false } s)) := by
  intro kept
  obtain ⟨e, mem, far⟩ := beyond
  have fewer : kept.length < (rqGet cl s).q.length := List.length_filter_lt_length_iff_exists.mpr ⟨e, mem, by simp [far]⟩
  have lost : (rqGet cl s).q.length - kept.length ≠ 0 := Nat.sub_ne_zero_of_lt fewer
  simp only [rqSettle, staged, due]
  exact if_neg lost

end

theorem hostSideRows : Claims.HostSideRows := by
  refine ⟨fun s held => ?response, fun s none_ => ?notReady, fun s => rfl, fun s off fit => ?trace, fun s off outside => ?refused,
    fun k d s staged due => ?events, fun id st s found due => ?jitter, fun id r s found due => ?rewind,
    fun cl d s staged due below => ?queue, fun cl d s staged due beyond => ?queueLoses, fun fn n s named => ?meter⟩
  case response => rw [exec_smbusResponseRead, if_neg (by simpa using held)]
  case notReady => rw [exec_smbusResponseRead, if_pos (by simp [none_])]
  case trace => exact congrArg Host.Outcome.next (traceOn_fits off fit)
  case refused => exact congrArg Host.Outcome.next (traceOn_refused off outside)
  case events => exact ⟨_, rfl, evqResize_due staged due⟩
  case jitter => exact congrArg Host.Outcome.next (jrSettle_due found due)
  case rewind => exact congrArg Host.Outcome.next (rwSettle_due found due)
  case queue => exact congrArg Host.Outcome.next (rqSettle_keeps staged due below)
  case queueLoses => exact congrArg Host.Outcome.next (rqSettle_loses staged due beyond)
  case meter =>
    refine ⟨_, exec_audLegMeterRead named, rfl, ?_⟩
    simp [holdLatch, tfind_tset_same]

/-- Settles O20, from what a function-level reset leaves and from what each other row of the host interface does. -/
theorem hostSide : Obligations.HostSide := ⟨functionResets, hostSideRows⟩

end Sys2Proof.Machine
end

section
/-! PROOFS. Ingress rings: exception frames and the head of their ring, incomplete video frames, staged jitter rings (R78, R106, R113,
R115). -/

namespace Sys2Proof.Machine
open Sys2Proof.Claims

/-! ## The head of an exception ring (R78) -/

section
variable {fn : Fn} {v : Nat} {s : State} (word : v < 4096)
include word

theorem exec_ingExcHeadWrite_taken (taken : headTaken (fget (R.ING_EXC_HEAD_head fn) s) (fget (R.ING_EXC_TAIL_tail fn) s)
    (2 ^ fget (R.ING_EXC_CFG_log2 fn) s) v = true) : exec (.ingExcHeadWrite fn v) s = .next (fset (R.ING_EXC_HEAD_head fn) v s) := by
  change execIngExcHeadWrite fn v s = _
  simp only [execIngExcHeadWrite, Nat.mod_eq_of_lt word, taken, if_true]

theorem exec_ingExcHeadWrite_ignored (bad : headTaken (fget (R.ING_EXC_HEAD_head fn) s) (fget (R.ING_EXC_TAIL_tail fn) s)
    (2 ^ fget (R.ING_EXC_CFG_log2 fn) s) v = false) : exec (.ingExcHeadWrite fn v) s = .next s := by
  change execIngExcHeadWrite fn v s = _
  simp only [execIngExcHeadWrite, Nat.mod_eq_of_lt word, bad, Bool.false_eq_true, if_false]

end

/-! ## Video frames and jitter rings (R113, R115) -/

theorem exec_videoFrameTimeout {id seq : Nat} {st : Stream} {s : State} (found : tfind s.ctl.streams id = some st) (video : st.media = 1)
    (first : ∃ e ∈ frameFirst st, e.seq = 65536 + seq) :
    exec (.videoFrameTimeout id seq) s = .next (streamPut id (framesDue (st.jr.length + 1) s.clk.stamp st) s) := by
  change execVideoFrameTimeout id seq s = _
  have waits : ((frameFirst st).any fun e => decide (e.seq = 65536 + seq)) = true := by simpa using first
  simp [execVideoFrameTimeout, found, video, waits]

/-- The fields of a write of ING_JR_RESIZE with go. -/
theorem bits_jrResize {id n : Nat} (small : id < 65536) (most : n ≤ 14) : bits (id + n * 2 ^ 16 + 2 ^ 31) 0 16 = id ∧
    bits (id + n * 2 ^ 16 + 2 ^ 31) 16 4 = n ∧ bit (id + n * 2 ^ 16 + 2 ^ 31) 31 = true := by
  simp only [bits, bit, decide_eq_true_eq]
  omega

theorem tfind_streamPut (id : Nat) (st : Stream) (s : State) : tfind (streamPut id st s).ctl.streams id = some st := tfind_tset_same ..

section
variable {id n : Nat} {st : Stream} {s : State} (found : tfind s.ctl.streams id = some st)
include found

theorem exec_ingJrResize (small : id < 65536) (least : 6 ≤ n) (most : n ≤ 14) (ingress : st.dir = 0) :
    exec (.ingJrResize (id + n * 2 ^ 16 + 2 ^ 31)) s = .next (jrStage id n s) := by
  obtain ⟨stream, length, go⟩ := bits_jrResize small most
  change execIngJrResize (id + n * 2 ^ 16 + 2 ^ 31) s = _
  simp only [execIngJrResize, stream, length, go, found, least, most, ingress]
  rfl

theorem jrStage_waits (written : st.seq.top ≠ none) : jrStage id n s = streamPut id { st with staged := some n } s := by
  simp only [jrStage, found, if_neg written]

theorem jrStage_fresh (fresh : st.seq.top = none) : jrStage id n s = jrResize id (streamPut id { st with staged := some n } s) := by
  simp only [jrStage, found, if_pos fresh]

end

/-! ## Exception frames (R106) -/

theorem Memory.writeN_append (m : List Host.Cell) (a : Nat) (l r : List Byte) :
    Memory.writeN m a (l ++ r) = Memory.writeN (Memory.writeN m a l) (a + l.length) r := by
  induction l generalizing m a with
  | nil => rfl
  | cons b l ih =>
    rw [List.cons_append, Memory.writeN, ih, Memory.writeN, List.length_cons]
    congr 1
    omega

theorem length_excHeader (len reason phase : Nat) (trunc : Bool) (leg : Option Nat) (f : Frame) :
    (excHeader len reason phase trunc leg f).length = 32 := by simp [excHeader]

/-- The address of the next slot of a function's exception ring. -/
def excAt (fn : Fn) (s : State) : Nat :=
  fget (R.ING_EXC_BASE_base fn) s * 4096 + fget (R.ING_EXC_TAIL_tail fn) s * 2 ^ fget (R.ING_EXC_CFG_slot_log2 fn) s

section
variable {r reason leg : Nat} {f : Frame} {s : State}

theorem excDeliver_down (down : s.mem.linkUp = false) : excDeliver (.vf r) reason (some leg) f s =
    { s with ctl := { s.ctl with excWait := s.ctl.excWait ++ [⟨.vf r, reason, some leg, f⟩] } } := by
  simp [excDeliver, down]

variable (up : s.mem.linkUp = true) (on : fon (R.ING_EXC_CFG_enable (.vf r)) s = true)
    (room : ringRoom (fget (R.ING_EXC_HEAD_head (.vf r)) s) (fget (R.ING_EXC_TAIL_tail (.vf r)) s) (2 ^ fget (R.ING_EXC_CFG_log2 (.vf r)) s) 0 = true)
    (reached : hostOk (excAt (.vf r) s) (2 ^ fget (R.ING_EXC_CFG_slot_log2 (.vf r)) s) s = true)
    (whole : f.bytes.length + 32 ≤ 2 ^ fget (R.ING_EXC_CFG_slot_log2 (.vf r)) s)
include up on room reached whole

/-- A frame that fits its slot is written whole, behind its header. -/
theorem excDeliver_written :
    (excDeliver (.vf r) reason (some leg) f s).mem.host = Memory.writeN s.mem.host (excAt (.vf r) s)
      (excHeader f.bytes.length reason (fget (R.ING_EXC_TAIL_phase (.vf r)) s) false (some leg) f ++ f.bytes) := by
  have body : f.bytes.take (2 ^ fget (R.ING_EXC_CFG_slot_log2 (.vf r)) s - 32) = f.bytes := List.take_of_length_le (by omega)
  have fits : decide (2 ^ fget (R.ING_EXC_CFG_slot_log2 (.vf r)) s - 32 < f.bytes.length) = false := by simp; omega
  have written : excDeliver (.vf r) reason (some leg) f s = excWrite (.vf r) reason (some leg) f s := by simp [excDeliver, up]
  unfold excAt at reached
  rw [written]
  simp only [excWrite, on, room, reached, body, fits, apply_ite State.mem, fset_mem, cinc_mem, ite_self, hostWrite]
  rfl

/-- What the host reads of it: the frame after the 32 bytes of the header, which begins with the frame's length and the reason. -/
theorem hostRead_excDeliver :
    hostRead (excAt (.vf r) s + 32) f.bytes.length (excDeliver (.vf r) reason (some leg) f s) = f.bytes ∧
      hostRead (excAt (.vf r) s) 3 (excDeliver (.vf r) reason (some leg) f s) = leBytes 2 f.bytes.length ++ leBytes 1 reason := by
  unfold hostRead
  rw [excDeliver_written up on room reached whole]
  constructor
  · rw [Memory.writeN_append, length_excHeader]
    exact Memory.readN_writeN ..
  · simp only [excHeader, List.append_assoc]
    rw [← List.append_assoc (leBytes 2 _) (leBytes 1 _)]
    exact Memory.readN_writeN_take _ _ (leBytes 2 f.bytes.length ++ leBytes 1 reason) _

end

/-- Settles O28: each command's own lemma, and what the host reads of an exception frame written. -/
theorem ingressRings : Obligations.IngressRings := by
  intro s
  refine ⟨fun fn v word taken => ?taken, fun fn v word bad => exec_ingExcHeadWrite_ignored word bad,
    fun id seq st found video first => exec_videoFrameTimeout found video first, fun id n st small least most found ingress written => ?staged,
    fun id n st small least most found ingress fresh => ?fresh, ?exc⟩
  case taken =>
    exact ⟨_, exec_ingExcHeadWrite_taken word taken, (fget_fset ..).trans (Nat.mod_eq_of_lt word), (fset_moves ..).toChanges⟩
  case staged =>
    exact ⟨_, (exec_ingJrResize found small least most ingress).trans (congrArg Host.Outcome.next (jrStage_waits found written)),
      tfind_streamPut ..⟩
  case fresh =>
    exact (exec_ingJrResize found small least most ingress).trans (congrArg Host.Outcome.next (jrStage_fresh found fresh))
  case exc =>
    intro r reason leg f fn slot tail a
    refine ⟨excDeliver_down, fun up on room reached _ whole => ?_⟩
    exact hostRead_excDeliver up on room reached whole

end Sys2Proof.Machine
end

section
/-! PROOFS. Stream contexts: attached, bound to a key slot, unbound, released, and the end of a grace interval (R107, R126, R127). -/

namespace Sys2Proof.Machine
open Sys2Proof.Claims

/-! ## Admission and release (R107) -/

theorem chargeUp_streams (r bay : Nat) (ch : Charge) (s : State) : (chargeUp r bay ch s).ctl.streams = s.ctl.streams := by
  unfold chargeUp
  split <;> rfl

/-- An untrusted leg's charge leaves the contexts as they are. -/
theorem trustFrom_streams (leg act : Nat) (s : State) : (trustFrom leg act s).ctl.streams = s.ctl.streams := by
  unfold trustFrom trustCharge
  split
  · rfl
  · exact chargeUp_streams ..

/-- The context that STREAM_ADMIT makes at boundary `b`, for a leg of a Ring, without a key. -/
def streamDeclared (c : Cmd) (b ring : Nat) (s : State) : Stream :=
  ⟨carg c 0x18 2, carg c 0x1A 1, carg c 0x1B 1, carg c 0x1C 4, bit (carg c 0x20 2) 0, bit (carg c 0x20 2) 1,
    jrLog2 ring (carg c 0x22 1) s, carg c 0x23 1, carg c 0x24 2, cargs c 0x28 8, cargs c 0x30 8, carg c 0x38 1,
    (List.range 7).map (fun i => carg c (0x39 + i) 1), none, none, false, 0, 0,
    ⟨false, 0, 0⟩, ⟨false, 0, 0⟩, ⟨false, 0, 0, none, none⟩, none, 0, false, none, b, [], none, false, 0,
    ⟨false, 0, 0, 0, 0, 0, 0, 0, none⟩, 0, b, none, none, ⟨false, 0, 0⟩⟩

theorem applyStreamAdmit_ok {c : Cmd} {l : Leg} {ring : Nat} {s : State} (b : Nat) (mine : Mine c 2 streamLimit c.target ring s)
    (leg : Mine c 0 legLimit (carg c 0x18 2) ring s) (found : tfind s.ctl.legs (carg c 0x18 2) = some l) (waits : l.st = .admitted)
    (new : tfind s.ctl.streams c.target = none) (args : streamArgs c (carg c 0x18 2) s = true)
    (few : carg c 0x1A 1 = 0 →
      (s.ctl.streams.filter fun p => decide (p.2.leg = carg c 0x18 2) && decide (p.2.dir = 0)).length < 8)
    (trust : (actTpl l.act s).mixing = false ∨ trustFits l.act s = true) :
    ∃ u, applyStreamAdmit c b s = (u, some rspOk) ∧
      u.ctl.streams = tset s.ctl.streams c.target (streamDeclared c b l.ring s) := by
  obtain ⟨owned, ringed⟩ := mine
  obtain ⟨legOwned, legRinged⟩ := leg
  have room : (decide (carg c 0x1A 1 = 0) && decide (8 ≤ (s.ctl.streams.filter fun p => decide (p.2.leg = carg c 0x18 2) &&
      decide (p.2.dir = 0)).length)) = false := by
    simpa using few
  have state : (decide (l.st ≠ .admitted) || (tfind s.ctl.streams c.target).isSome) = false := by simp [waits, new]
  generalize untrusted : ((actTpl l.act s).mixing && decide (carg c 0x1A 1 = 0) && decide (carg c 0x1B 1 = 0) &&
    !bit (carg c 0x20 2) 1 && decide (((List.range 7).map fun i => carg c (0x39 + i) 1).getD 0 0 = 0) &&
    !(legAud (carg c 0x18 2) s).untrusted) = mark
  have fit : (mark && !trustFits l.act s) = false := by
    rcases trust with pair | fits
    · simp [← untrusted, pair]
    · simp [fits]
  refine ⟨_, by simp only [applyStreamAdmit, owned, legOwned, ringed, legRinged, found, state, args, room, untrusted, fit, ne_eq,
    not_true_eq_false, if_false]; rfl, ?_⟩
  have trusted : ∀ x, (if mark = true then trustFrom (carg c 0x18 2) l.act x else x).ctl.streams = x.ctl.streams := by
    intro x
    split
    · exact trustFrom_streams ..
    · rfl
  refine (trusted _).trans ?_
  split
  · rfl
  · rfl

theorem applyStreamRelease_ok {c : Cmd} {st : Stream} {s : State} (b : Nat) (owned : idRefused c 2 streamLimit c.target s = none)
    (rest : czero c 0x18 = true) (found : tfind s.ctl.streams c.target = some st)
    (alone : ∀ p ∈ s.ctl.streams, ¬ (p.2.media = 2 ∧ p.2.rtxOf = c.target)) :
    applyStreamRelease c b s = (streamFree c.target s, some rspOk) := by
  have noRtx : (s.ctl.streams.any fun p => decide (p.2.media = 2) && decide (p.2.rtxOf = c.target)) = false := by
    rw [List.any_eq_false]
    intro p mem
    simpa using alone p mem
  simp only [applyStreamRelease, owned, rest, found, noRtx]
  rfl

/-! ## Keys bound and unbound (R126, R127) -/

section
variable {c : Cmd} {st : Stream} {l : Leg} {s : State} (b : Nat) (owned : idRefused c 2 streamLimit c.target s = none)
  (reserved : carg c 0x1B 1 = 0) (grace : carg c 0x20 2 ≤ 4000) (rest : czero c 0x22 = true)
  (found : tfind s.ctl.streams c.target = some st) (leg : tfind s.ctl.legs st.leg = some l) (stays : l.st ≠ .draining)
include owned reserved grace rest found leg stays

theorem applyKeyBind_unbind (unbind : carg c 0x1A 1 = 1) :
    applyKeyBind c b s = (streamPut c.target (unbindStream st) s, some rspOk) := by
  have set : bit (1 : Nat) 0 = true := rfl
  have args : (decide (1 < 1) || decide (carg c 0x1B 1 ≠ 0) || decide (4000 < carg c 0x20 2) || !czero c 0x22) = false := by
    simp [reserved, grace, rest]
  simp only [applyKeyBind, owned, unbind, set, args, found, leg, stays, if_true, Option.map_some, Option.getD_some, if_false]
  rfl

theorem applyKeyBind_bind (bind : carg c 0x1A 1 = 0) (slot : idRefused c 3 65536 (carg c 0x18 2) s = none)
    (may : bindReason c.target (carg c 0x18 2) st s = 0) : applyKeyBind c b s =
      (streamPut c.target (bindStream (carg c 0x18 2) (carg c 0x1C 4) (carg c 0x20 2) b st) s, some rspOk) := by
  have clear : bit (0 : Nat) 0 = false := rfl
  have args : (decide (1 < 0) || decide (carg c 0x1B 1 ≠ 0) || decide (4000 < carg c 0x20 2) || !czero c 0x22) = false := by
    simp [reserved, grace, rest]
  simp only [applyKeyBind, owned, slot, bind, clear, args, found, leg, stays, may, Bool.false_eq_true, Option.map_some, Option.getD_some,
    ne_eq, not_true_eq_false, if_false]

end

/-- A context bound anew: an ingress context's former slot stays its previous one for the grace blocks. -/
theorem bindStream_eq (slot roc grace b : Nat) (st : Stream) : bindStream slot roc grace b st = { st with
    key := some slot
    former := st.key
    prev := if st.dir = 0 ∧ 0 < grace then st.key.map fun k => (k, stampAdd b grace) else none
    bound := true
    keyFrom := b
    roc := if st.bound then st.roc else roc } := by
  have prev : (bindStream slot roc grace b st).prev =
      if st.dir = 0 ∧ 0 < grace then st.key.map fun k => (k, stampAdd b grace) else none := by
    unfold bindStream
    split
    · rename_i k ingress bound
      simp [ingress, bound]
    · rename_i other
      cases bound : st.key with
      | none => simp
      | some k => exact (if_neg fun ingress => other k ingress.1 bound).symm
  rw [← prev]
  rfl

/-- A command of no effect stamp that succeeds ends at its boundary, its record of the configuration made (R468). -/
theorem applyFlight_traced {op b : Nat} {c : Cmd} {s s1 t : State} (now : c.effectStamp = 0)
    (runs : applyOf op (inFlight op c s).data c b s1 = (t, some rspOk)) :
    applyFlight (inFlight op c s) b s1 = ended op c b s rspOk (configTrace op c (inFlight op c s).data b t) := by
  have runs : applyOf (inFlight op c s).opcode (inFlight op c s).data (inFlight op c s).cmd b s1 = (t, some rspOk) := runs
  have stamp : (inFlight op c s).cmd.effectStamp = 0 := now
  simp only [applyFlight, stamp, runs]
  simp [ended, inFlight, flightOf, rspOk]

theorem exec_rekeyGraceEnd {id k e : Nat} {st : Stream} {s : State} (found : tfind s.ctl.streams id = some st)
    (held : st.prev = some (k, e)) (past : stampGe s.clk.stamp e = true) :
    exec (.rekeyGraceEnd id) s = .next (streamPut id { st with prev := none } s) := by
  change execRekeyGraceEnd id s = _
  simp only [execRekeyGraceEnd, found, held, past, if_true]

/-- What a command that succeeds has put in place of a context stands once it has ended. -/
theorem tfind_ended_streamPut (op b id : Nat) (c : Cmd) (d : Option (List Byte)) (st : Stream) (s s1 : State) :
    tfind (ended op c b s rspOk (configTrace op c d b (streamPut id st s1))).ctl.streams id = some st := by
  rw [ended_ctl, (configTrace_moves ..).ctl_eq, tfind_streamPut]

/-- Settles O16, from the effect of each command of a context at its boundary and from the end of a grace interval. -/
theorem streamContexts : Obligations.StreamContexts := by
  refine ⟨?attach, ?release, ?bind, ?grace⟩
  case attach =>
    intro c s s1 b l ring ⟨enters, now⟩ leg mine legMine found waits new args few trust
    obtain ⟨u, runs, streams⟩ := applyStreamAdmit_ok b mine legMine found waits new args few trust
    refine ⟨exec_configRow (by simp [configRows]) enters, _, applyFlight_now (op := 0x26) now runs rfl, streamDeclared c b l.ring s1,
      completes_ended .., ?_, rfl, rfl, rfl, rfl, rfl, rfl, rfl, rfl, rfl, rfl, rfl, rfl, rfl, rfl⟩
    rw [ended_ctl, streams, tfind_tset_same]
  case release =>
    intro c s s1 b ring st ⟨enters, now⟩ mine rest found alone
    obtain ⟨owned, _⟩ := mine
    have ends := flightEnd_moves { inFlight 0x27 c s with
      effective := true
      effect := b } rspOk (streamFree c.target s1)
    refine ⟨exec_configRow (by simp [configRows]) enters, _, applyFlight_now (op := 0x27) now (applyStreamRelease_ok b owned rest found alone)
      rfl, completes_ended .., ?_, ?_, ?_, ?_, fun k other => ?_⟩
    · rw [ended_ctl]
      exact tfind_terase_same ..
    · rw [ended, ends.same .egr (by decide)]
      exact tfind_terase_same ..
    · rw [ended, ends.same .egr (by decide)]
      exact tfind_terase_same ..
    · rw [ended, ends.same .fwd (by decide)]
      exact tfind_terase_same ..
    · rw [ended_ctl]
      exact tfind_terase_other _ _ _ other
  case bind =>
    intro c s s1 b ring l st ⟨enters, now⟩ slot mine reserved grace rest found leg stays
    obtain ⟨owned, _⟩ := mine
    refine ⟨fun unbind => ?_, fun bind slotOwned may => ?_⟩
    · have runs := applyKeyBind_unbind b owned reserved grace rest found leg stays unbind
      exact ⟨exec_configRow (by simp [configRows]) enters, _, applyFlight_traced (op := 0x28) now runs, completes_ended ..,
        tfind_ended_streamPut ..⟩
    · have runs := applyKeyBind_bind b owned reserved grace rest found leg stays bind slotOwned may
      rw [bindStream_eq] at runs
      exact ⟨exec_configRow (by simp [configRows]) enters, _, applyFlight_traced (op := 0x28) now runs, completes_ended ..,
        tfind_ended_streamPut ..⟩
  case grace =>
    intro id k e st s found held past
    exact ⟨_, exec_rekeyGraceEnd found held past, tfind_streamPut .., rfl⟩

end Sys2Proof.Machine
end

section
/-! PROOFS. The states of an Ethernet link: its bring-up, its timeouts, its faults, its disabling (R97). -/

namespace Sys2Proof.Machine
open Sys2Proof.Claims

/-! ## The registers of a link (R117) -/

section
variable (link v : Nat) (s : State)

theorem linkSt_linkTo (st : Nat) (small : st < 8) : linkSt link (linkTo link st s) = st :=
  (fget_fset ..).trans (Nat.mod_eq_of_lt small)

theorem linkSt_fset {link : Nat} {f : Fld} (other : fkey (R.ETH_LINK_STATUS_state link) ≠ fkey f) :
    linkSt link (fset f v s) = linkSt link s := fget_fset_other _ _ _ _ other

theorem linkSt_fset_enable : linkSt link (fset (R.ETH_LINK_CFG_enable link) v s) = linkSt link s :=
  linkSt_fset v s (by simp only [fkey, R.ETH_LINK_STATUS_state, R.ETH_LINK_CFG_enable]; omega)

theorem linkSt_fset_degraded : linkSt link (fset (R.ETH_LINK_STATUS_degraded link) v s) = linkSt link s :=
  linkSt_fset v s (by simp [fkey, R.ETH_LINK_STATUS_state, R.ETH_LINK_STATUS_degraded])

theorem linkSt_fset_reversed : linkSt link (fset (R.ETH_LINK_STATUS_reversed link) v s) = linkSt link s :=
  linkSt_fset v s (by simp [fkey, R.ETH_LINK_STATUS_state, R.ETH_LINK_STATUS_reversed])

theorem linkSt_fset_pol : linkSt link (fset (R.ETH_LINK_STATUS_pol_inv link) v s) = linkSt link s :=
  linkSt_fset v s (by simp [fkey, R.ETH_LINK_STATUS_state, R.ETH_LINK_STATUS_pol_inv])

theorem linkSt_fset_fault : linkSt link (fset (R.ETH_LINK_STATUS_remote_fault link) v s) = linkSt link s :=
  linkSt_fset v s (by simp [fkey, R.ETH_LINK_STATUS_state, R.ETH_LINK_STATUS_remote_fault])

theorem fget_enable_linkTo (st : Nat) :
    fget (R.ETH_LINK_CFG_enable link) (linkTo link st s) = fget (R.ETH_LINK_CFG_enable link) s :=
  fget_fset_other _ _ _ _ (by simp only [fkey, R.ETH_LINK_STATUS_state, R.ETH_LINK_CFG_enable]; omega)

theorem fget_reversed_fset_pol : fget (R.ETH_LINK_STATUS_reversed link) (fset (R.ETH_LINK_STATUS_pol_inv link) v s) =
    fget (R.ETH_LINK_STATUS_reversed link) s :=
  fget_fset_other _ _ _ _ (by simp [fkey, R.ETH_LINK_STATUS_reversed, R.ETH_LINK_STATUS_pol_inv])

/-- The port mode stands below the registers of the links. -/
theorem fget_mode_fset_enable : fget R.ETH_MODE_eth_mode (fset (R.ETH_LINK_CFG_enable link) v s) = fget R.ETH_MODE_eth_mode s :=
  fget_fset_other _ _ _ _ (by simp only [fkey, R.ETH_MODE_eth_mode, R.ETH_LINK_CFG_enable]; omega)

end

theorem b2n_lt_two (b : Bool) : b2n b < 2 := by cases b <;> decide

/-- A port mode gives a link at most eight lanes. -/
theorem linkLanes_le_eight (mode : Nat) : linkLanes mode ≤ 8 := by
  unfold linkLanes
  split <;> decide

/-! ## A link enabled and disabled -/

section
variable {link : Nat} {s : State}

theorem linkIn_of {a : Nat} {f : State → State} (stands : linkSt link s = a) : linkIn link a f s = f s := if_pos stands

theorem linkEnable_off (off : linkSt link s = 0) (there : link < linkCount (fget R.ETH_MODE_eth_mode s)) :
    linkEnable link s = linkTo link 1 (fset (R.ETH_LINK_CFG_enable link) 1 s) := by
  have off : linkSt link (fset (R.ETH_LINK_CFG_enable link) 1 s) = 0 := (linkSt_fset_enable ..).trans off
  simp only [linkEnable, fget_mode_fset_enable, there, if_true, linkIn_of off]

/-- A link that is disabled while it is UP is counted as gone down. -/
theorem cget_linkDisable (counter : cget (ethCnt link 0x40) s < 2 ^ 64) :
    cget (ethCnt link 0x40) (linkDisable link s) = min (2 ^ 64 - 1) (cget (ethCnt link 0x40) s + b2n (linkUp link s)) := by
  have same : linkUp link (fset (R.ETH_LINK_CFG_enable link) 0 s) = linkUp link s :=
    congrArg (fun st => decide (st = 5)) (linkSt_fset_enable link 0 s)
  cases up : linkUp link s with
  | true =>
    simp only [linkDisable, linkTo, same, up, if_true, cget_fset]
    exact tget_tset_same ..
  | false =>
    simp only [linkDisable, linkTo, same, up, Bool.false_eq_true, if_false, cget_fset]
    simp only [b2n, Bool.false_eq_true, if_false]
    omega

theorem fget_enable_linkDisable : fget (R.ETH_LINK_CFG_enable link) (linkDisable link s) = 0 := by
  rw [linkDisable, fget_enable_linkTo]
  split
  · exact fget_fset ..
  · exact fget_fset ..

/-! ## The bring-up and the faults -/

/-- The link's lanes as lock finds them: their polarity and their order. -/
def linkLocked (link pol : Nat) (rev : Bool) (s : State) : State :=
  fset (R.ETH_LINK_STATUS_pol_inv link) pol (fset (R.ETH_LINK_STATUS_reversed link) (b2n rev) (linkTo link 4 s))

theorem exec_linkLock {pol : Nat} (rev : Bool) (stands : linkSt link s = 3) (lanes : pol < 2 ^ linkLanes (fget R.ETH_MODE_eth_mode s)) :
    exec (.linkLock link pol rev) s = .next (linkLocked link pol rev s) := by
  change execLinkLock link pol rev s = _
  simp only [execLinkLock, linkIn_of stands, Nat.mod_eq_of_lt lanes, linkLocked]

theorem linkSt_linkLocked (pol : Nat) (rev : Bool) : linkSt link (linkLocked link pol rev s) = 4 := by
  rw [linkLocked, linkSt_fset_pol, linkSt_fset_reversed, linkSt_linkTo _ _ _ (by decide)]

theorem fon_reversed_linkLocked (pol : Nat) (rev : Bool) : fon (R.ETH_LINK_STATUS_reversed link) (linkLocked link pol rev s) = rev := by
  rw [fon, linkLocked, fget_reversed_fset_pol, fget_fset]
  cases rev <;> rfl

theorem linkLocked_moves (pol : Nat) (rev : Bool) : Moves [.regs] s (linkLocked link pol rev s) :=
  (linkTo_moves ..).trans ((fset_moves ..).trans (fset_moves ..))

theorem exec_fecCodewordLock (stands : linkSt link s = 4) :
    let u := fset (R.ETH_LINK_STATUS_remote_fault link) 0 (linkTo link 5 s)
    exec (.fecCodewordLock link) s = .next (raiseUnit EV_LINK_UP (linkUnit link u) (link % 8 + linkFec link u * 16
      + fget (R.ETH_LINK_STATUS_reversed link) u * 64 + fget (R.ETH_LINK_STATUS_pol_inv link) u * 256) u) := by
  change execFecCodewordLock link s = _
  simp only [execFecCodewordLock, linkIn_of stands]

/-- A link that a fault takes out of UP, counted, with the fault noted. -/
def linkFaulted (link cause : Nat) (s : State) : State :=
  fset (R.ETH_LINK_STATUS_remote_fault link) (b2n (decide (cause = 1))) (linkTo link 1 (linkDownCount link s))

theorem exec_linkFault {cause : Nat} (up : linkSt link s = 5) : exec (.linkFault link cause) s =
    .next (raiseUnit EV_LINK_DOWN (linkUnit link (linkFaulted link cause s)) (link % 8 + cause % 4 * 16) (linkFaulted link cause s)) := by
  change execLinkFault link cause s = _
  simp only [execLinkFault, linkIn_of up, linkFaulted]

theorem linkSt_linkFaulted (cause : Nat) : linkSt link (linkFaulted link cause s) = 1 := by
  rw [linkFaulted, linkSt_fset_fault, linkSt_linkTo _ _ _ (by decide)]

theorem linkFaulted_moves (cause : Nat) : Moves [.regs, .cnt] s (linkFaulted link cause s) :=
  Moves.seq (fset_moves ..) (by decide) (Moves.seq (linkTo_moves ..) (by decide) ((linkDownCount_moves ..).mono (by decide)))

theorem exec_linkDegradeDetect {n : Nat} (up : linkSt link s = 5) (above : fget (R.ETH_LINK_CFG_ser_thresh link) s < n) :
    exec (.linkDegradeDetect link n) s = .next (raiseUnit EV_LINK_DEGRADED (linkUnit link s) (link % 8 + n * 2 ^ 32)
      (fset (R.ETH_LINK_STATUS_degraded link) 1 s)) := by
  change execLinkDegradeDetect link n s = _
  simp only [execLinkDegradeDetect, linkIn_of up, above, if_true]

end

/-- Settles O25, by the state that each event of a link meets and what the event makes of it. -/
theorem linkStates : Obligations.LinkStates := by
  intro link s _
  refine ⟨?enable, ?disable, ?acquire, ?train, ?lock, ?aligned, ?fault, ?degrade⟩
  case enable =>
    intro off there
    have enabled := linkEnable_off off there
    refine ⟨_, rfl, ?_, ?_, (linkEnable_moves ..).toChanges⟩
    · rw [enabled, linkSt_linkTo _ _ _ (by decide)]
    · rw [enabled, fget_enable_linkTo, fget_fset]
      rfl
  case disable =>
    intro counter
    exact ⟨_, rfl, linkSt_linkTo _ _ _ (by decide), fget_enable_linkDisable, (linkDisable_moves ..).toChanges, cget_linkDisable counter⟩
  case acquire => exact fun stands => ⟨congrArg Host.Outcome.next (linkIn_of stands), congrArg Host.Outcome.next (linkIn_of stands)⟩
  case train => exact fun stands => ⟨congrArg Host.Outcome.next (linkIn_of stands), congrArg Host.Outcome.next (linkIn_of stands)⟩
  case lock =>
    intro stands
    refine ⟨congrArg Host.Outcome.next (linkIn_of stands), fun pol rev lanes => ⟨_, exec_linkLock rev stands lanes, linkSt_linkLocked pol rev,
      ?_, fon_reversed_linkLocked pol rev, (linkLocked_moves pol rev).toChanges⟩⟩
    have small : pol < 2 ^ 8 := Nat.lt_of_lt_of_le lanes (Nat.pow_le_pow_right (by decide) (linkLanes_le_eight _))
    exact (fget_fset ..).trans (Nat.mod_eq_of_lt small)
  case aligned =>
    intro stands
    refine ⟨_, exec_fecCodewordLock stands, ?_, fget_fset .., ((linkTo_moves ..).trans (fset_moves ..)).toChanges⟩
    rw [linkSt_fset_fault, linkSt_linkTo _ _ _ (by decide)]
  case fault =>
    intro cause up _
    exact ⟨_, exec_linkFault up, linkSt_linkFaulted cause, (fget_fset ..).trans (Nat.mod_eq_of_lt (b2n_lt_two _)), tget_tset_same ..,
      (linkFaulted_moves cause).toChanges⟩
  case degrade =>
    intro n up above
    exact ⟨_, exec_linkDegradeDetect up above, fget_fset .., (linkSt_fset_degraded ..).trans up, (fset_moves ..).toChanges⟩

end Sys2Proof.Machine
end

section
/-! PROOFS. Packet ingress: frames dropped by cause, counted and classified (R96 to R103, R116, R443), a leg's buckets charged, and media
packets dispatched and held for their verdicts (R103 to R105, R108 to R110, R128, R129). -/

namespace Sys2Proof.Machine
open Sys2Proof.Claims

/-! ## Frames at their port (R96) -/

section
variable {link : Nat} {bytes : List Byte} {s : State} (sec ns eng : Nat)

theorem isPause_iff : isPause bytes = true ↔ be bytes 12 2 = 0x8808 ∧ (be bytes 14 2 = 1 ∨ be bytes 14 2 = 0x101) := by
  simp [isPause]

/-- A frame that its port does not pass ends there. -/
theorem exec_frameReceive_bad {fcsOk : Bool} (bad : frameGood link bytes fcsOk s = false) :
    exec (.frameReceive link bytes fcsOk sec ns eng) s = .next (frameIn link bytes fcsOk sec ns eng s) := by
  change execFrameReceive link bytes fcsOk sec ns eng s = _
  simp [execFrameReceive, bad]

variable (up : linkUp link s = true)
include up

theorem exec_frameReceive_fcs :
    exec (.frameReceive link bytes false sec ns eng) s = .next (cinc (ethCnt link 0x10) s) := by
  rw [exec_frameReceive_bad _ _ _ (by simp [frameGood])]
  simp [frameIn, up]

theorem exec_frameReceive_long (long : 9728 < bytes.length) :
    exec (.frameReceive link bytes true sec ns eng) s = .next (cinc (ethCnt link 0x18) s) := by
  rw [exec_frameReceive_bad _ _ _ (by simp [frameGood, Nat.not_le.mpr long])]
  simp [frameIn, up, long]

theorem exec_frameReceive_short (short : bytes.length < 60) :
    exec (.frameReceive link bytes true sec ns eng) s = .next (cinc (ethCnt link 0x20) s) := by
  have notLong : ¬ 9728 < bytes.length := by omega
  have withFcs : bytes.length + fcsLen < 64 := Nat.add_lt_add_right short 4
  rw [exec_frameReceive_bad _ _ _ (by simp [frameGood, Nat.not_le.mpr withFcs])]
  simp [frameIn, up, notLong, withFcs]

section
variable (least : 60 ≤ bytes.length) (most : bytes.length ≤ 9728)
include least most

theorem exec_frameReceive_pause (pause : isPause bytes = true) :
    exec (.frameReceive link bytes true sec ns eng) s = .next (cinc (ethCnt link 0x38) s) := by
  have withFcs : ¬ bytes.length + fcsLen < 64 := Nat.not_lt.mpr (Nat.add_le_add_right least 4)
  rw [exec_frameReceive_bad _ _ _ (by simp [frameGood, pause])]
  simp [frameIn, up, Nat.not_lt.mpr most, withFcs, pause]

/-! ## Frames past their port (R98 to R103, R116, R443) -/

variable (data : isPause bytes = false)
include data

/-- A frame that its port passes is counted, and goes to the cascade, is lost to a full replay store, or is classified. -/
theorem exec_frameReceive_good :
    let p := parseFrame bytes
    let u := counted link bytes s
    let f := arrived link bytes sec ns u
    exec (.frameReceive link bytes true sec ns eng) s = .next
      (if casAddressed p s = true then casIn p.payload u
      else if 1572864 < replayUsed (linkPort link s) s + bytes.length then replayDrop f.bay p u
      else classify f p eng u) := by
  have withFcs : ¬ bytes.length + fcsLen < 64 := Nat.not_lt.mpr (Nat.add_le_add_right least 4)
  have good : frameGood link bytes true s = true := by simp [frameGood, up, most, data, Nat.not_lt.mp withFcs]
  have same : casAddressed (parseFrame bytes) (counted link bytes s) = casAddressed (parseFrame bytes) s := rfl
  have taken : frameIn link bytes true sec ns eng s =
      let u := counted link bytes s
      if casAddressed (parseFrame bytes) s = true then u
      else if 1572864 < replayUsed (linkPort link s) s + bytes.length then
        replayDrop (arrived link bytes sec ns u).bay (parseFrame bytes) u
      else classify (arrived link bytes sec ns u) (parseFrame bytes) eng u := by
    simp only [frameIn, up, Nat.not_lt.mpr most, withFcs, data]
    rfl
  change execFrameReceive link bytes true sec ns eng s = _
  cases cas : casAddressed (parseFrame bytes) s with
  | true => simp [execFrameReceive, good, taken, cas]
  | false => simp [execFrameReceive, good, taken, cas]

variable (other : casAddressed (parseFrame bytes) s = false)
include other

theorem exec_frameReceive_replay (full : 1572864 < replayUsed (linkPort link s) s + bytes.length) :
    exec (.frameReceive link bytes true sec ns eng) s = .next
      (replayDrop (arrived link bytes sec ns (counted link bytes s)).bay (parseFrame bytes) (counted link bytes s)) := by
  rw [exec_frameReceive_good sec ns eng up least most data]
  simp [other, full]

theorem exec_frameReceive_classified (room : ¬ 1572864 < replayUsed (linkPort link s) s + bytes.length) :
    exec (.frameReceive link bytes true sec ns eng) s = .next
      (classify (arrived link bytes sec ns (counted link bytes s)) (parseFrame bytes) eng (counted link bytes s)) := by
  rw [exec_frameReceive_good sec ns eng up least most data]
  simp [other, room]

end
end

section
variable {f : Frame} {p : Parsed} {eng : Nat} {s : State}

theorem classify_bad (kind : p.kind = .bad) : classify f p eng s = cinc (ingCnt f.bay 0x20) s := by simp only [classify, kind]

theorem classify_nonIp (kind : p.kind = .nonIp) : classify f p eng s = excDeliver .pf 6 none f s := by simp only [classify, kind]

theorem classify_frag (kind : p.kind = .frag) : classify f p eng s = excDeliver .pf 7 none f s := by simp only [classify, kind]

theorem classify_ptp (kind : p.kind = .ptp) : classify f p eng s = excDeliver .pf 8 none f s := by simp only [classify, kind]

theorem classify_leg {leg : Nat} (kind : p.kind = .udp) (known : localLeg p s = some leg) :
    classify f p eng s = mediaIn leg p.payload f eng s := by
  simp only [classify, kind, known]

end

theorem framesReceived : Claims.FramesReceived := by
  intro link bytes sec ns eng s up
  refine ⟨exec_frameReceive_fcs sec ns eng up, exec_frameReceive_long sec ns eng up, exec_frameReceive_short sec ns eng up,
    fun least most mac opcode => exec_frameReceive_pause sec ns eng up least most (isPause_iff.mpr ⟨mac, opcode⟩),
    fun least most plain => ?_⟩
  have data : isPause bytes = false := Bool.eq_false_iff.mpr (plain ∘ isPause_iff.mp)
  have classified := @exec_frameReceive_classified link bytes s sec ns eng up least most data
  refine ⟨fun cas => ?cascade, exec_frameReceive_replay sec ns eng up least most data, fun other room kind => ?bad,
    fun other room kind => ?nonIp, fun other room kind => ?frag, fun other room kind => ?ptp, fun leg other room kind known => ?udp⟩
  case cascade => exact (exec_frameReceive_good sec ns eng up least most data).trans (congrArg Host.Outcome.next (if_pos cas))
  case bad => exact (classified other room).trans (congrArg Host.Outcome.next (classify_bad kind))
  case nonIp => exact (classified other room).trans (congrArg Host.Outcome.next (classify_nonIp kind))
  case frag => exact (classified other room).trans (congrArg Host.Outcome.next (classify_frag kind))
  case ptp => exact (classified other room).trans (congrArg Host.Outcome.next (classify_ptp kind))
  case udp => exact (classified other room).trans (congrArg Host.Outcome.next (classify_leg kind known))

/-! ## A leg's buckets (R99, R108, R109) -/

section
variable {leg plen arrival : Nat} {l : Leg} {s : State} (flen : Nat) (found : tfind s.ctl.legs leg = some l)
include found

theorem charge_now (now : l.asOf arrival s = none) (bytes : 16 * plen ≤ l.byteLvl) (packets : 2000 ≤ l.pktLvl) :
    charge leg plen flen arrival s = (true, putLeg leg (paid plen l) s) := by
  simp only [charge, found, now, Option.getD_none, bytes, packets]
  rfl

/-- A frame of the block before is charged to the buckets of that block, which are refilled after it. -/
theorem charge_before {x : Leg} (before : l.asOf arrival s = some x) (bytes : 16 * plen ≤ x.byteLvl) (packets : 2000 ≤ x.pktLvl) :
    charge leg plen flen arrival s = (true, putLeg leg ((paid plen x).refill s) s) := by
  simp only [charge, found, before, Option.getD_some, bytes, packets]
  rfl

theorem charge_policed
    (short : ((l.asOf arrival s).getD l).byteLvl < 16 * plen ∨ ((l.asOf arrival s).getD l).pktLvl < 2000) :
    charge leg plen flen arrival s = (false, policed leg flen l s) := by
  have lacks : (decide (16 * plen ≤ ((l.asOf arrival s).getD l).byteLvl) && decide (2000 ≤ ((l.asOf arrival s).getD l).pktLvl)) = false := by
    rcases short with bytes | packets
    · simp [Nat.not_le.mpr bytes]
    · simp [Nat.not_le.mpr packets]
  simp only [charge, found, lacks, Bool.false_eq_true, if_false]

end

/-! ## Media packets by their first byte (R103) -/

section
variable {leg : Nat} {p : List Byte} {f : Frame} {l : Leg} {s u : State} (eng : Nat)

/-- An exception of a leg that does not drain goes to its Ring once it is charged. -/
theorem excLeg_charged {plen : Nat} (reason : Nat) (found : tfind s.ctl.legs leg = some l) (stays : l.st ≠ .draining)
    (charged : charge leg plen f.bytes.length f.arrival s = (true, u)) :
    excLeg reason leg f plen s = excDeliver (.vf l.ring) reason (some leg) f u := by
  simp only [excLeg, found, stays, charged, if_false]

theorem mediaIn_stun (long : 12 ≤ p.length) (first : b8 p 0 < 4) : mediaIn leg p f eng s = excLeg 1 leg f p.length s := by
  have nonempty : p.length ≠ 0 := by omega
  simp only [mediaIn, nonempty, first, if_true, if_false]

theorem mediaIn_dtls (long : 12 ≤ p.length) (least : 20 ≤ b8 p 0) (most : b8 p 0 < 64) :
    mediaIn leg p f eng s = excLeg 2 leg f p.length s := by
  have nonempty : p.length ≠ 0 := by omega
  have notStun : ¬ b8 p 0 < 4 := by omega
  simp [mediaIn, nonempty, notStun, least, most]

/-- What becomes of a packet of an active leg that its buckets let through: an RTCP packet by the SSRC of its sender, an RTP packet by its own. -/
def mediaTaken (leg : Nat) (rtcp : Bool) (p : List Byte) (f : Frame) (eng : Nat) (l : Leg) (s : State) : State :=
  if rtcp then
    match findSsrc leg (be p 4 4) s with
    | some id => hold id leg true false p f eng s
    | none => excDeliver (.vf l.ring) 3 (some leg) f s
  else rtpIn leg p f eng l s

/-- A packet of RTP's version is counted as RTCP or as RTP by its second byte. -/
theorem mediaIn_version (long : 12 ≤ p.length) (version : b8 p 0 / 64 = 2) {rtcp : Bool}
    (second : rtcp = decide (192 ≤ b8 p 1 ∧ b8 p 1 ≤ 223)) (found : tfind s.ctl.legs leg = some l) : mediaIn leg p f eng s =
      let s1 := cinc (ingCnt f.bay (if rtcp then 8 else 0)) s
      if l.st ≠ .active || (repOf l.act s).isSome then cinc (legCnt leg 0x10) s1
      else match charge leg p.length f.bytes.length f.arrival s1 with
        | (false, u) => u
        | (true, u) => mediaTaken leg rtcp p f eng l u := by
  have v2 : (decide (b8 p 0 / 64 = 2) && decide (8 ≤ p.length)) = true := by
    simp only [version, Bool.and_eq_true, decide_eq_true_eq, true_and]
    omega
  have isRtcp : (true && decide (192 ≤ b8 p 1) && decide (b8 p 1 ≤ 223)) = rtcp := by simp [second]
  have isRtp : (true && !rtcp && decide (12 ≤ p.length)) = !rtcp := by simp [long]
  have nonempty : p.length ≠ 0 := by omega
  have notStun : ¬ b8 p 0 < 4 := by omega
  have notDtls : (decide (20 ≤ b8 p 0) && decide (b8 p 0 < 64)) = false := by
    simp only [Bool.and_eq_false_iff, decide_eq_false_iff_not]
    omega
  have kinds : (!rtcp && !!rtcp) = false := by cases rtcp <;> rfl
  simp only [mediaIn, v2, isRtcp, isRtp, nonempty, notStun, notDtls, kinds, cinc_ctl, found, mediaTaken, Bool.false_eq_true, if_false]
  rfl

theorem mediaTaken_rtcp {id : Nat} (ssrc : findSsrc leg (be p 4 4) s = some id) :
    mediaTaken leg true p f eng l s = hold id leg true false p f eng s := by
  simp only [mediaTaken, ssrc, if_true]

/-- An RTP packet of a bound context is held behind those of its context that are, or where its number is valid (R104, R105, R111). -/
theorem mediaTaken_rtp {id seq : Nat} {st : Stream} {x : SeqState} (header : (rtpHdrLen (toNats p)).isSome = true)
    (plain : isCryptex p = false) (ssrc : findSsrc leg (be p 8 4) s = some id) (found : tfind s.ctl.streams id = some st)
    (valid : (s.ctl.held.any fun h => decide (h.stream = id)) = true ∨ seqExtend st.seq (be p 2 2) = (some seq, x)) :
    mediaTaken leg false p f eng l s = hold id leg false false p f eng s := by
  have parsed : (rtpHdrLen (toNats p)).isNone = false := by simpa [Option.isSome_iff_ne_none] using header
  simp only [mediaTaken, rtpIn, parsed, plain, ssrc, Bool.false_eq_true, if_false]
  rcases valid with waiting | next
  · rw [if_pos waiting]
  · have accepted : seqRefused id (be p 2 2) s = none := by simp only [seqRefused, found, next]
    simp only [accepted, ite_self]

end

/-! ## Packets held for their verdict (R128, R129) -/

theorem hold_short {p : List Byte} (id leg : Nat) (rtcp bind : Bool) (f : Frame) (eng : Nat) (s : State) (short : p.length ≤ 9728) :
    (hold id leg rtcp bind p f eng s).ctl.held =
      heldAdd ⟨s.ctl.nextHeld, id, leg, rtcp, bind, p, f, engineFor f.bay eng s, false⟩ s.ctl.held s := by
  simp only [hold, Nat.not_lt.mpr short, if_false, (holdSync_moves _).ctl_eq]

theorem hold_long {p : List Byte} (id leg : Nat) (rtcp bind : Bool) (f : Frame) (eng : Nat) (s : State) (long : 9728 < p.length) :
    hold id leg rtcp bind p f eng s = cinc (ciphCnt (engineFor f.bay eng s) 0x20) s := if_pos long

theorem mediaPackets : Claims.MediaPackets := by
  refine ⟨?buckets, ?dispatch, fun id leg rtcp bind p f eng s => ⟨hold_short id leg rtcp bind f eng s, hold_long id leg rtcp bind f eng s⟩⟩
  case buckets =>
    intro leg plen flen arrival l s found
    exact ⟨charge_now flen found, fun x => charge_before flen found, charge_policed flen found⟩
  case dispatch =>
    intro leg p f eng l s u found long
    refine ⟨fun stays charged => ⟨fun first => ?stun, fun least most => ?dtls⟩, fun version rtcp second => ?media⟩
    case stun => rw [mediaIn_stun eng long first, excLeg_charged 1 found stays charged]
    case dtls => rw [mediaIn_dtls eng long least most, excLeg_charged 2 found stays charged]
    case media =>
      have media := mediaIn_version (f := f) eng long version second found
      refine ⟨fun idle => ?_, fun active live => ?_⟩
      · have drops : (decide (l.st ≠ .active) || (repOf l.act s).isSome) = true := by
          simpa [Option.isSome_iff_ne_none] using idle
        exact media.trans (if_pos drops)
      · have takes : (decide (l.st ≠ .active) || (repOf l.act s).isSome) = false := by simp [active, live]
        simp only [takes, Bool.false_eq_true, if_false] at media
        refine ⟨fun charged => ?policed, fun id isRtcp charged ssrc => ?rtcp,
          fun id st seq x isRtp charged header plain ssrc bound valid => ?rtp⟩
        case policed => rw [media, charged]
        case rtcp =>
          subst isRtcp
          rw [media, charged]
          exact mediaTaken_rtcp eng ssrc
        case rtp =>
          subst isRtp
          rw [media, charged]
          exact mediaTaken_rtp eng header plain ssrc bound valid

/-- Settles O26, from what a port does with a frame, and from what a leg's buckets and its contexts do with a media packet. -/
theorem packetIngress : Obligations.PacketIngress := ⟨framesReceived, mediaPackets⟩

end Sys2Proof.Machine
end

section
/-! PROOFS. Keys checked and destroyed: the key check value, slots emptied, references cleared, zeroisation (R120 to R122, R140). -/

namespace Sys2Proof.Machine
open Sys2Proof.Claims

/-- Neither a key slot nor a context is altered. -/
structure KeepsKeys (s t : State) : Prop where
  slots : t.key.slots = s.key.slots
  ctl : t.ctl = s.ctl

theorem KeepsKeys.trans {s t u : State} (first : KeepsKeys s t) (second : KeepsKeys t u) : KeepsKeys s u :=
  ⟨second.slots.trans first.slots, second.ctl.trans first.ctl⟩

/-! ## The key check value (R121) -/

theorem kcvOf_of_first_three {key rest : List Nat} {a b c : Nat} (cipher : aesEnc key (List.replicate 16 0) = a :: b :: c :: rest) :
    kcvOf key = a * 2 ^ 16 + b * 2 ^ 8 + c := by
  simp only [kcvOf, cipher, List.take_succ_cons, List.take_zero, beVal, List.foldl_cons, List.foldl_nil]
  omega

/-- Settles O56, from the first three bytes of the cipher and, for the all-zero key, by evaluation. -/
theorem keyCheckValue : Obligations.KeyCheckValue := ⟨fun _ _ _ _ _ => kcvOf_of_first_three, by decide +kernel⟩

/-! ## Slots emptied (R120, R122) -/

/-- A slot's content overwritten with zeros, its generation kept. -/
def KeySlot.emptied (k : KeySlot) : KeySlot := { KeySlot.empty with gen := k.gen }

/-- A slot that has no entry reads as one emptied. -/
@[simp] theorem KeySlot.emptied_empty : KeySlot.empty.emptied = KeySlot.empty := rfl

@[simp] theorem KeySlot.emptied_emptied (k : KeySlot) : k.emptied.emptied = k.emptied := rfl

@[simp] theorem KeySlot.emptied_valid (k : KeySlot) : k.emptied.valid = false := rfl

theorem keySlot_keySlotPut_other {m n : Nat} (k : KeySlot) (s : State) (other : m ≠ n) : keySlot m (keySlotPut n k s) = keySlot m s :=
  tget_tset_other _ _ _ _ _ other

@[simp] theorem keySlot_keySync (n : Nat) (s : State) : keySlot n (keySync s) = keySlot n s := rfl

theorem keySlot_keyEmpty (m n : Nat) (s : State) : keySlot m (keyEmpty n s) = if m = n then (keySlot m s).emptied else keySlot m s := by
  split
  · next same =>
    subst same
    exact keySlot_keySlotPut ..
  · next other => exact keySlot_keySlotPut_other _ _ other

@[simp] theorem keySlot_keyUnref (m n : Nat) (s : State) : keySlot m (keyUnref n s) = keySlot m s := rfl

theorem keySlot_absent {n : Nat} {s : State} (absent : n ∉ tkeys s.key.slots) : keySlot n s = KeySlot.empty := by
  have none : ∀ t : Tbl KeySlot, n ∉ tkeys t → tget KeySlot.empty t n = KeySlot.empty := by
    intro t
    induction t with
    | nil => exact fun _ => rfl
    | cons p r ih =>
      intro absent
      obtain ⟨other, rest⟩ := not_or.mp (mt List.mem_cons.mpr absent)
      rw [tget, if_neg (Ne.symm other), ih rest]
  exact none _ absent

/-! ## References cleared (R140) -/

/-- A context with every reference to slot `n` cleared. -/
def Stream.without (n : Nat) (st : Stream) : Stream :=
  { st with
    key := if st.key = some n then none else st.key
    former := if st.former = some n then none else st.former
    prev := match st.prev with
      | some p => if p.1 = n then none else some p
      | none => none }

theorem Stream.uses_without (m n : Nat) (st : Stream) : (st.without n).uses m = (st.uses m && decide (m ≠ n)) := by
  have current : decide ((if st.key = some n then none else st.key) = some m) = (decide (st.key = some m) && decide (m ≠ n)) := by
    by_cases key : st.key = some n <;> by_cases same : m = n <;> simp_all [eq_comm]
  unfold Stream.uses Stream.without
  simp only [current]
  cases st.prev with
  | none => simp
  | some p =>
    by_cases before : p.1 = n
    · by_cases same : m = n <;> simp [before, same, eq_comm]
    · by_cases same : m = n <;> simp [before, same]

theorem tfind_tmap {α : Type} (t : Tbl α) (f : Nat → α → α) (k : Nat) : tfind (tmap t f) k = (tfind t k).map (f k) := by
  induction t with
  | nil => rfl
  | cons p r ih =>
    obtain ⟨j, v⟩ := p
    change tfind ((j, f j v) :: tmap r f) k = _
    simp only [tfind]
    split
    · next same => simp [same]
    · exact ih

theorem tfind_keyUnref (id n : Nat) (s : State) : tfind (keyUnref n s).ctl.streams id = (tfind s.ctl.streams id).map (·.without n) :=
  tfind_tmap s.ctl.streams (fun _ => Stream.without n) id

@[simp] theorem keyEmpty_ctl (n : Nat) (s : State) : (keyEmpty n s).ctl = s.ctl := rfl

/-! ## Zeroisation (R120, R122, R140) -/

/-- The slots `ns` emptied and unreferenced one after the other. -/
def slotsCleared (ns : List Nat) (s : State) : State := ns.foldl (fun s n => keyUnref n (keyEmpty n s)) s

theorem keySlot_slotsCleared (m : Nat) (ns : List Nat) (s : State) :
    keySlot m (slotsCleared ns s) = if m ∈ ns then (keySlot m s).emptied else keySlot m s := by
  induction ns generalizing s with
  | nil => rfl
  | cons n ns ih =>
    have step := ih (keyUnref n (keyEmpty n s))
    rw [keySlot_keyUnref, keySlot_keyEmpty] at step
    refine step.trans ?_
    by_cases here : m = n <;> by_cases later : m ∈ ns <;> simp [here, later]

theorem uses_slotsCleared {id : Nat} {ns : List Nat} {s : State} {st : Stream} (found : tfind (slotsCleared ns s).ctl.streams id = some st) :
    ∃ st0, tfind s.ctl.streams id = some st0 ∧ ∀ m, st.uses m = (st0.uses m && decide (m ∉ ns)) := by
  induction ns generalizing s with
  | nil => exact ⟨st, found, by simp⟩
  | cons n ns ih =>
    obtain ⟨st1, before, uses⟩ := ih (s := keyUnref n (keyEmpty n s)) found
    rw [tfind_keyUnref, keyEmpty_ctl] at before
    obtain ⟨st0, first, rfl⟩ := Option.map_eq_some_iff.mp before
    refine ⟨st0, first, fun m => ?_⟩
    rw [uses, Stream.uses_without]
    by_cases here : m = n <;> by_cases later : m ∈ ns <;> simp [here, later]

/-- The slots of a scope that have an entry. -/
def scopeSlots (sc : ZScope) (s : State) : List Nat := (tkeys s.key.slots).filter fun n => inScope sc n s

theorem zeroSlots_eq (sc : ZScope) (s : State) : zeroSlots sc s = keySync (slotsCleared (scopeSlots sc s) s) := rfl

theorem mem_scopeSlots {sc : ZScope} {n : Nat} {s : State} : n ∈ scopeSlots sc s ↔ n ∈ tkeys s.key.slots ∧ inScope sc n s = true :=
  List.mem_filter

/-- A slot of the scope without an entry is empty already. -/
theorem keySlot_zeroSlots (sc : ZScope) (n : Nat) (s : State) :
    keySlot n (zeroSlots sc s) = if inScope sc n s = true then (keySlot n s).emptied else keySlot n s := by
  rw [zeroSlots_eq, keySlot_keySync, keySlot_slotsCleared]
  by_cases scope : inScope sc n s = true
  · by_cases entry : n ∈ tkeys s.key.slots
    · rw [if_pos (mem_scopeSlots.mpr ⟨entry, scope⟩), if_pos scope]
    · rw [if_neg fun mem => entry (mem_scopeSlots.mp mem).1, if_pos scope, keySlot_absent entry, KeySlot.emptied_empty]
  · rw [if_neg fun mem => scope (mem_scopeSlots.mp mem).2, if_neg scope]

theorem Moves.key_eq {ps : List Part} {s t : State} (h : Moves ps s t) (n : Part.key ∉ ps := by decide) : t.key = s.key :=
  h.same .key n

@[simp] theorem keyStagePut_slots (fn : Fn) (k : KeyStage) (s : State) : (keyStagePut fn k s).key.slots = s.key.slots := rfl

@[simp] theorem keyDiscard_slots (fn : Fn) (s : State) : (keyDiscard fn s).key.slots = s.key.slots := rfl

@[simp] theorem keyDone_slots (fn : Fn) (res kcv : Nat) (s : State) : (keyDone fn res kcv s).key.slots = s.key.slots := by
  unfold keyDone
  dsimp only
  split <;> rfl

@[simp] theorem zeroStages_slots (sc : ZScope) (s : State) : (zeroStages sc s).key.slots = s.key.slots := by
  unfold zeroStages
  dsimp only
  generalize allFns = fns
  rw [show s.key.slots = ({ s with cas := { s.cas with words := [] } } : State).key.slots from rfl]
  generalize ({ s with cas := { s.cas with words := [] } } : State) = u
  induction fns generalizing u with
  | nil => rfl
  | cons fn fns ih =>
    rw [List.foldl_cons, ih]
    split
    · split
      · rw [keyDone_slots]
        rfl
      · rfl
    · rfl

/-- What a zeroisation does once its slots and staging areas are cleared alters neither a slot nor a context. -/
theorem zeroise_keeps (sc : ZScope) (cause : Nat) (s : State) : KeepsKeys (zeroSlots sc s) (zeroise sc cause s) := by
  refine KeepsKeys.trans ⟨zeroStages_slots sc (zeroSlots sc s), (zeroStages_moves sc (zeroSlots sc s)).ctl_eq⟩ ?_
  unfold zeroise
  generalize zeroStages sc (zeroSlots sc s) = cleared
  extract_lets first keys wiped counted counts awaited e raised
  have kept : KeepsKeys cleared awaited := by cases sc <;> exact ⟨rfl, rfl⟩
  refine kept.trans ?_
  clear_value awaited
  split
  · exact ⟨congrArg Keys.slots (raise_moves ..).key_eq, (raise_moves ..).ctl_eq⟩
  · have pushed : Moves [.mem, .regs, .cnt, .hif, .ddr, .out] awaited ((List.range 16).foldl (fun y r =>
        if ringDefinedIn y.frm.timbers r then evqPush (evqVf r) e y else y) raised) :=
      Moves.foldl (fun _ y => Moves.ite ((evqPush_moves ..).mono (by decide)) (Moves.refl ..)) (raise_moves ..)
    exact ⟨congrArg Keys.slots pushed.key_eq, pushed.ctl_eq⟩

theorem keySlot_zeroise (sc : ZScope) (cause n : Nat) (s : State) : keySlot n (zeroise sc cause s) = keySlot n (zeroSlots sc s) :=
  congrArg (tget KeySlot.empty · n) (zeroise_keeps sc cause s).slots

/-- Settles O12, from what the clearing of a list of slots leaves of each slot and of each context. -/
theorem zeroisation : Obligations.Zeroisation := by
  refine ⟨fun sc cause n s => ?_, fun sc cause id n st s found => ?_⟩
  · rw [keySlot_zeroise, keySlot_zeroSlots]
    rfl
  · rw [(zeroise_keeps sc cause s).ctl] at found
    obtain ⟨st0, before, uses⟩ := uses_slotsCleared (s := s) (ns := scopeSlots sc s) found
    refine ⟨st0, before, fun scope valid => ?_, fun foreign => ?_⟩
    · have entry : n ∈ tkeys s.key.slots := by
        refine Classical.byContradiction fun absent => ?_
        rw [keySlot_absent absent] at valid
        exact absurd valid (by decide)
      simp [uses, mem_scopeSlots, entry, scope]
    · simp [uses, mem_scopeSlots, foreign]

end Sys2Proof.Machine
end

section
/-! PROOFS. The requests of the key store and its faults, the measures against side channels (R118 to R125, R137, R138, R142). -/

namespace Sys2Proof.Machine
open Sys2Proof.Claims

/-! ## Registers -/

@[simp] theorem fget_cinc (f : Fld) (a : Nat) (s : State) : fget f (cinc a s) = fget f s := rfl

@[simp] theorem fget_keySlotPut (f : Fld) (n : Nat) (k : KeySlot) (s : State) : fget f (keySlotPut n k s) = fget f s := rfl

@[simp] theorem fget_keyStagePut (f : Fld) (fn : Fn) (k : KeyStage) (s : State) : fget f (keyStagePut fn k s) = fget f s := rfl

/-- The key-load registers of the PF stand in the cipher block, those of a VF in its own BAR0. -/
theorem keyBase_place (fn : Fn) : keyBase fn = 0x80000 ∨ 2 ^ 32 ≤ keyBase fn := by
  cases fn with
  | pf => exact .inl rfl
  | vf r =>
    right
    simp only [keyBase, fnBase, vfBase]
    omega

/-! ## The staging area of a function (R123) -/

@[simp] theorem keyStage_keyStagePut (fn : Fn) (k : KeyStage) (s : State) : keyStage fn (keyStagePut fn k s) = k := tget_tset_same ..

@[simp] theorem keyStage_fset (fn : Fn) (f : Fld) (v : Nat) (s : State) : keyStage fn (fset f v s) = keyStage fn s := rfl

@[simp] theorem keyStage_cinc (fn : Fn) (a : Nat) (s : State) : keyStage fn (cinc a s) = keyStage fn s := rfl

@[simp] theorem keyStage_keyDiscard (fn : Fn) (s : State) : keyStage fn (keyDiscard fn s) = { keyStage fn s with words := [] } :=
  keyStage_keyStagePut ..

@[simp] theorem fget_written_keyDiscard (fn : Fn) (s : State) : fget (R.KEY_LOAD_STATUS_written fn) (keyDiscard fn s) = 0 := fget_fset ..

/-- The written mask with the bit of word `n`. -/
def withWritten (n w : Nat) : Nat := if bit w n then w else w + 2 ^ n

theorem testBit_withWritten (n w m : Nat) : (withWritten n w).testBit m = (w.testBit m || decide (m = n)) := by
  unfold withWritten
  rw [bit_eq_testBit]
  split
  · next set =>
    by_cases same : m = n
    · simp [same, set]
    · simp [same]
  · next clear => exact testBit_add_two_pow (Bool.eq_false_iff.mpr clear) m

theorem testBit_withWritten_mod {n w : Nat} (word : n < 12) (mask : w < 2 ^ 12) (m : Nat) :
    (withWritten n w % 2 ^ 12).testBit m = (w.testBit m || decide (m = n)) := by
  rw [Nat.testBit_mod_two_pow, testBit_withWritten]
  by_cases inside : m < 12
  · simp [inside]
  · have above : w.testBit m = false := Nat.testBit_lt_two_pow (Nat.lt_of_lt_of_le mask (Nat.pow_le_pow_right (by decide) (by omega)))
    have other : m ≠ n := by omega
    simp [inside, above, other]

theorem exec_keyLoadDataWrite (fn : Fn) {n v : Nat} (s : State) (index : n < 12) (word : v < 2 ^ 32) :
    exec (.keyLoadDataWrite fn n v) s = .next (fset (R.KEY_LOAD_STATUS_written fn)
      (withWritten n (fget (R.KEY_LOAD_STATUS_written fn) s))
      (keyStagePut fn { keyStage fn s with words := tset (keyStage fn s).words n v } s)) := by
  change execKeyLoadDataWrite fn n v s = _
  simp only [execKeyLoadDataWrite, index, if_true, Nat.mod_eq_of_lt word]
  rfl

section
variable {fn : Fn} {s : State}

theorem keyGo_busy (op : Nat) (busy : fon (R.KEY_LOAD_STATUS_busy fn) s = true) :
    keyGo fn op s = fset (R.KEY_LOAD_STATUS_collision fn) 1 s := if_pos busy

theorem keyGo_abort (idle : fon (R.KEY_LOAD_STATUS_busy fn) s = false) : keyGo fn 0 s = keyDiscard fn s := by
  simp [keyGo, idle]

/-- A go of an idle function queues its request and takes the staged words. -/
theorem keyGo_asked {op : Nat} (idle : fon (R.KEY_LOAD_STATUS_busy fn) s = false) (asks : op ≠ 0) : keyAsked fn op s (keyGo fn op s) := by
  have written : fkey (R.KEY_LOAD_STATUS_written fn) ≠ fkey (R.KEY_LOAD_STATUS_busy fn) := by
    simp only [fkey, R.KEY_LOAD_STATUS_written, R.KEY_LOAD_STATUS_busy]
    omega
  have go : keyGo fn op s = fset (R.KEY_LOAD_STATUS_busy fn) 1
      (let t := keyStagePut fn { keyStage fn (keyDiscard fn s) with req := some ⟨op, fget (R.KEY_LOAD_SLOT_slot fn) s,
        fget (R.KEY_LOAD_SLOT_profile fn) s, (keyStage fn s).words⟩ } (keyDiscard fn s)
      { t with key := { t.key with queue := t.key.queue ++ [fn] } }) := by
    simp only [keyGo, idle, Bool.false_eq_true, asks, if_false]
  refine ⟨?_, ?_, ?_, ?_, ?_, (keyGo_moves fn op s).toChanges⟩
  · rw [go]
    rfl
  · rw [go, keyStage_fset]
    exact (keyStage_keyStagePut ..).trans (by rw [keyStage_keyDiscard])
  · rw [go, fget_fset_other _ _ _ _ written]
    exact fget_written_keyDiscard fn s
  · rw [go, fget_fset]
    rfl
  · rw [go]
    rfl

end

theorem keyStaging : Claims.KeyStaging := by
  intro fn s
  refine ⟨fun n v index word mask => ?_, fun idle => ⟨?_, ?_, ?_⟩, fun busy i go => ?_⟩
  · refine ⟨_, exec_keyLoadDataWrite fn s index word, ?_, fun m other => ?_, fun m => ?_, rfl,
      (Moves.seq (fset_moves ..) (by decide) ((keyStagePut_moves ..).mono (by decide))).toChanges⟩
    · rw [keyStage_fset, keyStage_keyStagePut]
      exact tfind_tset_same ..
    · rw [keyStage_fset, keyStage_keyStagePut]
      exact tfind_tset_other _ _ _ _ other
    · rw [fget_fset]
      exact testBit_withWritten_mod index mask m
  · exact ⟨_, rfl, keyGo_asked idle (by decide)⟩
  · exact ⟨_, rfl, keyGo_asked idle (by decide)⟩
  · refine ⟨keyDiscard fn s, congrArg Host.Outcome.next (keyGo_abort idle), ?_, fget_written_keyDiscard fn s, rfl, rfl⟩
    rw [keyStage_keyDiscard]
  · simp only [List.mem_cons, List.not_mem_nil, or_false] at go
    rcases go with rfl | rfl | rfl <;> exact congrArg Host.Outcome.next (keyGo_busy _ busy)

/-! ## The end of a request (R123, R143) -/

section
variable (fn : Fn) (res kcv : Nat) (s : State)

/-- A request's end as its function's registers show it. -/
def keyAnswered : State := fset (R.KEY_LOAD_KCV_kcv fn) kcv (fset (R.KEY_LOAD_STATUS_busy fn) 0 (fset (R.KEY_LOAD_STATUS_result fn) res s))

@[simp] theorem fget_keyDone (f : Fld) : fget f (keyDone fn res kcv s) = fget f (keyAnswered fn res kcv s) := by
  unfold keyDone
  dsimp only
  split <;> rfl

theorem keyDone_key : (keyDone fn res kcv s).key = (keyStagePut fn { keyStage fn s with req := none } s).key := by
  unfold keyDone
  dsimp only
  split <;> rfl

theorem keyStage_keyDone : keyStage fn (keyDone fn res kcv s) = { keyStage fn s with req := none } :=
  (congrArg (fun k : Keys => tget KeyStage.empty k.stage (fnNum fn)) (keyDone_key ..)).trans (keyStage_keyStagePut ..)

theorem keySlot_keyDone (n : Nat) : keySlot n (keyDone fn res kcv s) = keySlot n s :=
  congrArg (tget KeySlot.empty · n) (keyDone_slots ..)

/-- A field of none of the three registers' fields that a request's end writes. -/
theorem fget_keyAnswered_other {f : Fld} (busy : fkey f ≠ fkey (R.KEY_LOAD_STATUS_busy fn))
    (result : fkey f ≠ fkey (R.KEY_LOAD_STATUS_result fn)) (check : fkey f ≠ fkey (R.KEY_LOAD_KCV_kcv fn)) :
    fget f (keyAnswered fn res kcv s) = fget f s := by
  rw [keyAnswered, fget_fset_other _ _ _ _ check, fget_fset_other _ _ _ _ busy, fget_fset_other _ _ _ _ result]

theorem fget_kcv_keyAnswered : fget (R.KEY_LOAD_KCV_kcv fn) (keyAnswered fn res kcv s) = kcv % 2 ^ 24 := fget_fset ..

theorem fget_busy_keyAnswered : fget (R.KEY_LOAD_STATUS_busy fn) (keyAnswered fn res kcv s) = 0 := by
  have kcvApart : fkey (R.KEY_LOAD_STATUS_busy fn) ≠ fkey (R.KEY_LOAD_KCV_kcv fn) := by
    simp only [fkey, R.KEY_LOAD_STATUS_busy, R.KEY_LOAD_KCV_kcv]
    omega
  rw [keyAnswered, fget_fset_other _ _ _ _ kcvApart]
  exact fget_fset ..

theorem fget_result_keyAnswered {res : Nat} (small : res < 16) :
    fget (R.KEY_LOAD_STATUS_result fn) (keyAnswered fn res kcv s) = res := by
  have kcvApart : fkey (R.KEY_LOAD_STATUS_result fn) ≠ fkey (R.KEY_LOAD_KCV_kcv fn) := by
    simp only [fkey, R.KEY_LOAD_STATUS_result, R.KEY_LOAD_KCV_kcv]
    omega
  have busyApart : fkey (R.KEY_LOAD_STATUS_result fn) ≠ fkey (R.KEY_LOAD_STATUS_busy fn) := by
    simp only [fkey, R.KEY_LOAD_STATUS_result, R.KEY_LOAD_STATUS_busy]
    omega
  rw [keyAnswered, fget_fset_other _ _ _ _ kcvApart, fget_fset_other _ _ _ _ busyApart, fget_fset]
  exact Nat.mod_eq_of_lt small

theorem fget_written_keyAnswered :
    fget (R.KEY_LOAD_STATUS_written fn) (keyAnswered fn res kcv s) = fget (R.KEY_LOAD_STATUS_written fn) s := by
  refine fget_keyAnswered_other fn res kcv s ?_ ?_ ?_
  all_goals
    simp only [fkey, R.KEY_LOAD_STATUS_written, R.KEY_LOAD_STATUS_busy, R.KEY_LOAD_STATUS_result, R.KEY_LOAD_KCV_kcv]
    omega

/-- The measures against side channels stand apart from every function's key-load registers. -/
theorem fget_measures_keyAnswered : fget R.CIPH_SCA_CFG_dummy_en (keyAnswered fn res kcv s) = fget R.CIPH_SCA_CFG_dummy_en s ∧
    fget R.CIPH_SCA_CFG_shuffle_en (keyAnswered fn res kcv s) = fget R.CIPH_SCA_CFG_shuffle_en s := by
  have place := keyBase_place fn
  constructor
  all_goals
    refine fget_keyAnswered_other fn res kcv s ?_ ?_ ?_
    all_goals
      simp only [fkey, R.CIPH_SCA_CFG_dummy_en, R.CIPH_SCA_CFG_shuffle_en, R.KEY_LOAD_STATUS_busy, R.KEY_LOAD_STATUS_result,
        R.KEY_LOAD_KCV_kcv]
      omega

end

/-- A request ends so where what it did left the rest of the store and what the function has staged as it was. -/
theorem keyEnded_keyDone {fn : Fn} {rest : List Fn} {res : Nat} {s x : State} (kcv : Nat) (small : res < 16)
    (queue : x.key.queue = rest) (stage : x.key.stage = s.key.stage)
    (written : fget (R.KEY_LOAD_STATUS_written fn) x = fget (R.KEY_LOAD_STATUS_written fn) s) (kr0 : x.key.kr0 = s.key.kr0)
    (kr1 : x.key.kr1 = s.key.kr1) : keyEnded fn rest res s (keyDone fn res kcv x) := by
  have staged : keyStage fn x = keyStage fn s := congrArg (tget KeyStage.empty · (fnNum fn)) stage
  refine ⟨?_, ?_, ?_, ?_, ?_, ?_, ?_, ?_⟩
  · rw [keyDone_key]
    exact queue
  · rw [keyStage_keyDone]
  · rw [keyStage_keyDone, staged]
  · rw [fget_keyDone, fget_written_keyAnswered, written]
  · rw [fget_keyDone, fget_busy_keyAnswered]
  · rw [fget_keyDone, fget_result_keyAnswered _ _ _ small]
  · rw [keyDone_key]
    exact kr0
  · rw [keyDone_key]
    exact kr1

/-! ## The request at the head of the queue (R122, R124, R125) -/

/-- The store once the request at the head of its queue is taken. -/
def dequeued (rest : List Fn) (s : State) : State := { s with key := { s.key with queue := rest } }

/-- A slot filled by a load, both measures turned on (R120, R137). -/
def keyLoaded (slot profile : Nat) (key salt : List Nat) (s : State) : State :=
  keySync (keySlotPut slot ⟨true, profile, ((keySlot slot s).gen + 1) % 65536, kcvOf key, key, salt, sessionKeys profile key salt⟩
    (fset R.CIPH_SCA_CFG_dummy_en 1 (fset R.CIPH_SCA_CFG_shuffle_en 1 s)))

section
variable {fn : Fn} {rest : List Fn} {k : KeyReq} {s : State} (queue : s.key.queue = fn :: rest) (asked : (keyStage fn s).req = some k)
include queue asked

theorem keyComplete_loads (load : k.op = 1) (passes : keyLoadCheck fn k k.slot k.profile s = krOk) :
    let lens := (profileLens k.profile).getD (16, 14)
    keyComplete s = keyDone fn krOk (kcvOf (stagedKey k lens.1))
      (cinc 0x80300 (keyLoaded k.slot k.profile (stagedKey k lens.1) (stagedSalt k lens.2) (dequeued rest s))) := by
  have asked : (keyStage fn (dequeued rest s)).req = some k := asked
  have passes : keyLoadCheck fn k k.slot k.profile (dequeued rest s) = krOk := passes
  unfold dequeued at asked passes
  simp only [keyComplete, queue, asked, load, passes, if_true]
  rfl

theorem keyComplete_refusesLoad (load : k.op = 1) (fails : keyLoadCheck fn k k.slot k.profile s ≠ krOk) :
    keyComplete s = keyDone fn (keyLoadCheck fn k k.slot k.profile s) 0 (dequeued rest s) := by
  have asked : (keyStage fn (dequeued rest s)).req = some k := asked
  have fails : keyLoadCheck fn k k.slot k.profile (dequeued rest s) ≠ krOk := fails
  unfold dequeued at asked fails
  simp only [keyComplete, queue, asked, load, fails, if_true, if_false]
  rfl

theorem keyComplete_erases (erase : k.op ≠ 1) (passes : keyEraseCheck fn k.slot s = krOk) : keyComplete s = keyDone fn krOk 0
    (if keyValid k.slot s = true then keyEmpty k.slot (dequeued rest s) else dequeued rest s) := by
  have asked : (keyStage fn (dequeued rest s)).req = some k := asked
  have passes : keyEraseCheck fn k.slot (dequeued rest s) = krOk := passes
  unfold dequeued at asked passes
  simp only [keyComplete, queue, asked, erase, passes, if_true, if_false]
  rfl

theorem keyComplete_refusesErase (erase : k.op ≠ 1) (fails : keyEraseCheck fn k.slot s ≠ krOk) :
    keyComplete s = keyDone fn (keyEraseCheck fn k.slot s) 0 (dequeued rest s) := by
  have asked : (keyStage fn (dequeued rest s)).req = some k := asked
  have fails : keyEraseCheck fn k.slot (dequeued rest s) ≠ krOk := fails
  unfold dequeued at asked fails
  simp only [keyComplete, queue, asked, erase, fails, if_false]
  rfl

end

theorem keySlot_dequeued (n : Nat) (rest : List Fn) (s : State) : keySlot n (dequeued rest s) = keySlot n s := rfl

section
variable (slot profile : Nat) (key salt : List Nat) (s : State)

theorem keySlot_keyLoaded_same : keySlot slot (keyLoaded slot profile key salt s) =
    ⟨true, profile, ((keySlot slot s).gen + 1) % 65536, kcvOf key, key, salt, sessionKeys profile key salt⟩ :=
  keySlot_keySlotPut ..

theorem keySlot_keyLoaded_other {m : Nat} (other : m ≠ slot) : keySlot m (keyLoaded slot profile key salt s) = keySlot m s :=
  keySlot_keySlotPut_other _ _ other

theorem fget_measures_keyLoaded : fget R.CIPH_SCA_CFG_dummy_en (keyLoaded slot profile key salt s) = 1 ∧
    fget R.CIPH_SCA_CFG_shuffle_en (keyLoaded slot profile key salt s) = 1 := by
  unfold keyLoaded keySync
  constructor
  · rw [fget_fset_other _ _ _ _ (by decide), fget_keySlotPut, fget_fset]
    rfl
  · rw [fget_fset_other _ _ _ _ (by decide), fget_keySlotPut, fget_fset_other _ _ _ _ (by decide), fget_fset]
    rfl

theorem fget_written_keyLoaded (fn : Fn) : fget (R.KEY_LOAD_STATUS_written fn) (keyLoaded slot profile key salt s) =
    fget (R.KEY_LOAD_STATUS_written fn) s := by
  have place := keyBase_place fn
  unfold keyLoaded keySync
  rw [fget_fset_other, fget_keySlotPut, fget_fset_other, fget_fset_other]
  all_goals
    simp only [fkey, R.KEY_LOAD_STATUS_written, R.KEY_COUNT_VALID_count, R.CIPH_SCA_CFG_dummy_en, R.CIPH_SCA_CFG_shuffle_en]
    omega

theorem fget_written_keyEmpty (n : Nat) (fn : Fn) : fget (R.KEY_LOAD_STATUS_written fn) (keyEmpty n s) =
    fget (R.KEY_LOAD_STATUS_written fn) s := by
  have place := keyBase_place fn
  unfold keyEmpty keySync
  rw [fget_fset_other, fget_keySlotPut]
  simp only [fkey, R.KEY_LOAD_STATUS_written, R.KEY_COUNT_VALID_count]
  omega

end

/-! ## The checks of a request (R124) -/

theorem keyLoadCheck_lt (fn : Fn) (k : KeyReq) (slot profile : Nat) (s : State) : keyLoadCheck fn k slot profile s < 16 := by
  unfold keyLoadCheck
  split
  · decide
  · split
    · decide
    · repeat' split
      all_goals decide

theorem keyEraseCheck_lt (fn : Fn) (slot : Nat) (s : State) : keyEraseCheck fn slot s < 16 := by
  unfold keyEraseCheck
  repeat' split
  all_goals decide

theorem keyLoadCheck_passes {fn : Fn} {k : KeyReq} {slot profile kl sl : Nat} {s : State} (owned : owns fn 3 slot s = true)
    (lens : profileLens profile = some (kl, sl)) (complete : 12 ≤ k.words.length) (clean : stagedClean k kl sl)
    (vacant : keyValid slot s = false) : keyLoadCheck fn k slot profile s = krOk := by
  obtain ⟨keyClean, saltClean⟩ := clean
  have padded : (!((stageBytes k 0 8).drop kl).all (· = 0) || !((stageBytes k 8 12).drop sl).all (· = 0)) = false := by
    simpa using ⟨keyClean, saltClean⟩
  simp only [keyLoadCheck, owned, lens, Nat.not_lt.mpr complete, padded, vacant, Bool.not_true, Bool.false_eq_true, if_false]

theorem keyEraseCheck_passes {fn : Fn} {slot : Nat} {s : State} (owned : owns fn 3 slot s = true) (free : keyBound slot s = false) :
    keyEraseCheck fn slot s = krOk := by
  simp [keyEraseCheck, owned, free]

theorem keyEnded_dequeued {fn : Fn} {rest : List Fn} {res : Nat} (s : State) (small : res < 16) :
    keyEnded fn rest res s (keyDone fn res 0 (dequeued rest s)) := keyEnded_keyDone 0 small rfl rfl rfl rfl rfl

theorem cget_keyDone_refused {fn : Fn} {res : Nat} (kcv : Nat) (s : State) (refused : res ≠ krOk) :
    cget 0x80308 (keyDone fn res kcv s) = min (2 ^ 64 - 1) (cget 0x80308 s + 1) := by
  simp only [keyDone, refused, if_false]
  exact tget_tset_same ..

theorem keyOperations : Claims.KeyOperations := by
  intro fn rest op slot profile words s queue k asked
  refine ⟨fun kl sl load owned lens complete clean vacant => ?_, fun erase owned free valid => ?_, fun res request refused => ?_⟩
  · have runs := keyComplete_loads queue asked load (keyLoadCheck_passes owned lens complete clean vacant)
    simp only [k, lens, Option.getD_some] at runs
    obtain ⟨dummies, shuffles⟩ := fget_measures_keyAnswered fn krOk (kcvOf (stagedKey k kl))
      (cinc 0x80300 (keyLoaded slot profile (stagedKey k kl) (stagedSalt k sl) (dequeued rest s)))
    obtain ⟨dummy, shuffle⟩ := fget_measures_keyLoaded slot profile (stagedKey k kl) (stagedSalt k sl) (dequeued rest s)
    refine ⟨_, congrArg Host.Outcome.next runs, keyEnded_keyDone _ (by decide) rfl rfl (fget_written_keyLoaded ..) rfl rfl, ?_, ?_, ?_, ?_,
      fun m other => ?_⟩
    · rw [keySlot_keyDone]
      exact keySlot_keyLoaded_same ..
    · rw [fget_keyDone, fget_kcv_keyAnswered]
    · rw [fget_keyDone, dummies]
      exact dummy
    · rw [fget_keyDone, shuffles]
      exact shuffle
    · rw [keySlot_keyDone]
      exact keySlot_keyLoaded_other _ _ _ _ _ other
  · have other : k.op ≠ 1 := by simp [k, erase]
    have runs := keyComplete_erases queue asked other (keyEraseCheck_passes owned free)
    rw [if_pos (show keyValid k.slot s = true from valid)] at runs
    refine ⟨_, congrArg Host.Outcome.next runs, keyEnded_keyDone _ (by decide) rfl rfl (fget_written_keyEmpty ..) rfl rfl, ?_,
      fun m foreign => ?_⟩
    · rw [keySlot_keyDone, keySlot_keyEmpty, if_pos rfl]
      rfl
    · rw [keySlot_keyDone, keySlot_keyEmpty, if_neg foreign]
      rfl
  · rcases request with ⟨load, rfl⟩ | ⟨erase, rfl⟩
    · have runs := keyComplete_refusesLoad queue asked load refused
      exact ⟨_, congrArg Host.Outcome.next runs, keyEnded_dequeued s (keyLoadCheck_lt ..), keyDone_slots .., cget_keyDone_refused _ _ refused⟩
    · have other : k.op ≠ 1 := by simp [k, erase]
      have runs := keyComplete_refusesErase queue asked other refused
      exact ⟨_, congrArg Host.Outcome.next runs, keyEnded_dequeued s (keyEraseCheck_lt ..), keyDone_slots .., cget_keyDone_refused _ _ refused⟩

/-! ## Faults of the key store (R137, R138, R142) -/

/-- A slot in error emptied and unreferenced, noted as the cause of a zeroisation and counted. -/
def slotErred (slot : Nat) (s : State) : State := cinc 0x80310 (fset R.KEY_ZEROISE_STATUS_cause 4 (keyUnref slot (keyEmpty slot s)))

theorem exec_keySlotError (slot : Nat) (s : State) : let u := slotErred slot s
    exec (.keySlotError slot) s = .next (raise (ev EV_KEY_ZEROISED 0 (ringOf 3 slot u) 0 0 (2 + 4 * 16 + slot % 65536 * 65536) u) u) := rfl

theorem keySlot_slotErred (m slot : Nat) (s : State) :
    keySlot m (slotErred slot s) = if m = slot then (keySlot m s).emptied else keySlot m s := keySlot_keyEmpty m slot s

theorem uses_slotErred {id slot : Nat} {st : Stream} {s : State} (found : tfind (slotErred slot s).ctl.streams id = some st) :
    ∃ st0, tfind s.ctl.streams id = some st0 ∧ ∀ m, st.uses m = (st0.uses m && decide (m ≠ slot)) := by
  have cleared : tfind (keyUnref slot (keyEmpty slot s)).ctl.streams id = some st := found
  rw [tfind_keyUnref, keyEmpty_ctl] at cleared
  obtain ⟨st0, before, rfl⟩ := Option.map_eq_some_iff.mp cleared
  exact ⟨st0, before, fun m => Stream.uses_without m slot st0⟩

section
variable {v : Nat} {s : State}

/-- A write that would clear a measure while a slot is valid is ignored, counted and reported. -/
theorem exec_scaCfgWrite_refused (held : keyCount s ≠ 0) (clears : v.testBit 0 = false ∨ v.testBit 1 = false) :
    exec (.scaCfgWrite v) s = .next (raiseUnit EV_SCA_REFUSED 0 0 (cinc 0xC0010 s)) := by
  have both : (bit v 0 && bit v 1) = false := by
    rw [bit_eq_testBit, bit_eq_testBit]
    rcases clears with dummy | shuffle
    · simp [dummy]
    · simp [shuffle]
  change execScaCfgWrite v s = _
  simp [execScaCfgWrite, held, both]

theorem exec_scaCfgWrite_taken (may : keyCount s = 0 ∨ v.testBit 0 = true ∧ v.testBit 1 = true) : exec (.scaCfgWrite v) s =
    .next (fset R.CIPH_SCA_CFG_dummy_en (v % 2) (fset R.CIPH_SCA_CFG_shuffle_en (v / 2 % 2) s)) := by
  have taken : (decide (keyCount s ≠ 0) && !(bit v 0 && bit v 1)) = false := by
    rw [bit_eq_testBit, bit_eq_testBit]
    rcases may with none | ⟨dummy, shuffle⟩
    · simp [none]
    · simp [dummy, shuffle]
  change execScaCfgWrite v s = _
  simp only [execScaCfgWrite, taken, Bool.false_eq_true, if_false]

theorem mod_two_bne_zero (n : Nat) : (n % 2 != 0) = n.testBit 0 := by
  rw [Nat.testBit_zero]
  rcases Nat.mod_two_eq_zero_or_one n with even | odd
  · simp [even]
  · simp [odd]

theorem scaCfgWrite_takes (may : keyCount s = 0 ∨ v.testBit 0 = true ∧ v.testBit 1 = true) : ∃ t, exec (.scaCfgWrite v) s = .next t ∧
    fon R.CIPH_SCA_CFG_dummy_en t = v.testBit 0 ∧ fon R.CIPH_SCA_CFG_shuffle_en t = v.testBit 1 ∧ Changes [.regs] s t := by
  refine ⟨_, exec_scaCfgWrite_taken may, ?_, ?_, ((fset_moves ..).trans (fset_moves ..)).toChanges⟩
  · rw [fon, fget_fset]
    exact (congrArg (· != 0) (Nat.mod_mod v 2)).trans (mod_two_bne_zero v)
  · rw [fon, fget_fset_other _ _ _ _ (by decide), fget_fset, Nat.testBit_succ]
    exact (congrArg (· != 0) (Nat.mod_mod (v / 2) 2)).trans (mod_two_bne_zero (v / 2))

end

theorem keyFaults : Claims.KeyFaults := by
  intro s
  refine ⟨fun slot => ⟨slotErred slot s, exec_keySlotError slot s, ?_, ?_, fun m other => ?_, fun id st found => ?_⟩,
    fun v => exec_scaCfgWrite_refused, fun v => scaCfgWrite_takes, ?_⟩
  · exact fget_fset ..
  · rw [keySlot_slotErred, if_pos rfl]
    rfl
  · rw [keySlot_slotErred, if_neg other]
  · obtain ⟨st0, before, uses⟩ := uses_slotErred found
    exact ⟨by simp [uses], st0, before, fun m other => by simp [uses, other]⟩
  · refine ⟨fset R.CIPH_RNG_STATUS_fail 1 (fset R.CIPH_RNG_STATUS_healthy 0 s), rfl, fget_fset .., ?_, ?_, ?_, rfl⟩
    · rw [fget_fset_other _ _ _ _ (by decide)]
      exact fget_fset ..
    all_goals rw [fget_fset_other _ _ _ _ (by decide), fget_fset_other _ _ _ _ (by decide)]

/-- Settles O23, from the staging of words and requests, the end of the request at the head of the queue, and the faults. -/
theorem keyStore : Obligations.KeyStore := ⟨keyStaging, keyOperations, keyFaults⟩

/-! ## The measures against side channels (R137) -/

/-- What the end of a request leaves of a slot: its content, an empty slot, or both measures on beside what a load made of it. -/
theorem keyComplete_slot (n : Nat) (s : State) : keySlot n (keyComplete s) = keySlot n s ∨
    keySlot n (keyComplete s) = (keySlot n s).emptied ∨
    fget R.CIPH_SCA_CFG_dummy_en (keyComplete s) = 1 ∧ fget R.CIPH_SCA_CFG_shuffle_en (keyComplete s) = 1 := by
  cases queue : s.key.queue with
  | nil =>
    left
    simp only [keyComplete, queue]
  | cons fn rest =>
    cases asked : (keyStage fn s).req with
    | none =>
      left
      have asked : (keyStage fn (dequeued rest s)).req = none := asked
      unfold dequeued at asked
      simp only [keyComplete, queue, asked]
      rfl
    | some k =>
      by_cases load : k.op = 1
      · by_cases passes : keyLoadCheck fn k k.slot k.profile s = krOk
        · right; right
          rw [keyComplete_loads queue asked load passes, fget_keyDone, fget_keyDone, (fget_measures_keyAnswered ..).1,
            (fget_measures_keyAnswered ..).2]
          exact fget_measures_keyLoaded ..
        · left
          rw [keyComplete_refusesLoad queue asked load passes, keySlot_keyDone]
          rfl
      · by_cases passes : keyEraseCheck fn k.slot s = krOk
        · rw [keyComplete_erases queue asked load passes, keySlot_keyDone]
          split
          · rw [keySlot_keyEmpty]
            split
            · exact .inr (.inl rfl)
            · exact .inl rfl
          · exact .inl rfl
        · left
          rw [keyComplete_refusesErase queue asked load passes, keySlot_keyDone]
          rfl

/-- A request whose end makes a slot valid is a load that passes: both measures are on. -/
theorem keyComplete_measured {n : Nat} {s : State} (vacant : keyValid n s = false) (filled : keyValid n (keyComplete s) = true) :
    fget R.CIPH_SCA_CFG_dummy_en (keyComplete s) = 1 ∧ fget R.CIPH_SCA_CFG_shuffle_en (keyComplete s) = 1 := by
  rcases keyComplete_slot n s with same | emptied | measured
  · rw [keyValid, same, ← keyValid, vacant] at filled
    cases filled
  · rw [keyValid, emptied, KeySlot.emptied_valid] at filled
    cases filled
  · exact measured

/-- Settles O55, from the write of CIPH_SCA_CFG and from what the end of a request leaves of slots and measures. -/
theorem scaMeasures : Obligations.ScaMeasures := by
  refine ⟨rfl, rfl, fun s => ⟨fun v => exec_scaCfgWrite_refused, fun v => scaCfgWrite_takes, fun t slot runs vacant filled => ?_⟩⟩
  obtain rfl : keyComplete s = t := Host.Outcome.next.inj runs
  obtain ⟨dummy, shuffle⟩ := keyComplete_measured vacant filled
  exact ⟨by rw [fon, dummy]; rfl, by rw [fon, shuffle]; rfl⟩

end Sys2Proof.Machine
end

section
/-! PROOFS. Cipher verdicts in the order of their stream, and the report of packets that fail verification (R127, R128, R130, R131). -/

namespace Sys2Proof.Machine
open Sys2Proof.Claims

/-! ## Packets that fail verification (R130) -/

/-- A report of a key noted in the current block. -/
def rateNoted (key : Nat) (s : State) : State := { s with hif := { s.hif with rate := tset s.hif.rate key s.clk.stamp } }

/-- The last report of a key is less than `n` blocks old. -/
def ReportedWithin (key n : Nat) (s : State) : Prop := ∃ b, tfind s.hif.rate key = some b ∧ stampSub s.clk.stamp b < n

theorem rateOk_soon {key n : Nat} {s : State} (soon : ReportedWithin key n s) : rateOk key n s = (false, s) := by
  obtain ⟨b, reported, near⟩ := soon
  simp only [rateOk, reported, near, if_true]

theorem rateOk_due {key n : Nat} {s : State} (due : ¬ ReportedWithin key n s) : rateOk key n s = (true, rateNoted key s) := by
  unfold rateOk
  split
  · next b reported => exact if_neg fun near => due ⟨b, reported, near⟩
  · rfl

section
variable {id eng : Nat} {st : Stream} {s : State} (found : tfind s.ctl.streams id = some st)
include found

theorem authFail_soon (soon : ReportedWithin (rateKey EV_AUTH_FAIL id) 2000 s) :
    authFail id eng s = streamPut id { st with sinceFail := st.sinceFail + 1 } (verdictDrop id 0x38 eng 0x10 s) := by
  have found : tfind (verdictDrop id 0x38 eng 0x10 s).ctl.streams id = some st := found
  have held : rateOk (rateKey EV_AUTH_FAIL id) 2000 (verdictDrop id 0x38 eng 0x10 s) = (false, verdictDrop id 0x38 eng 0x10 s) :=
    rateOk_soon soon
  simp only [authFail, found, held]

theorem authFail_due (due : ¬ ReportedWithin (rateKey EV_AUTH_FAIL id) 2000 s) : authFail id eng s =
    raiseObj EV_AUTH_FAIL (streamRing st s) 3 id (st.sinceFail + 1)
      (streamPut id { st with sinceFail := 0 } (rateNoted (rateKey EV_AUTH_FAIL id) (verdictDrop id 0x38 eng 0x10 s))) := by
  have found : tfind (verdictDrop id 0x38 eng 0x10 s).ctl.streams id = some st := found
  have sent : rateOk (rateKey EV_AUTH_FAIL id) 2000 (verdictDrop id 0x38 eng 0x10 s) =
    (true, rateNoted (rateKey EV_AUTH_FAIL id) (verdictDrop id 0x38 eng 0x10 s)) := rateOk_due due
  simp only [authFail, found, sent]
  rfl

theorem authFail_legs : (authFail id eng s).ctl.legs = s.ctl.legs := by
  by_cases soon : ReportedWithin (rateKey EV_AUTH_FAIL id) 2000 s
  · rw [authFail_soon found soon]
    rfl
  · rw [authFail_due found soon, (raiseObj_moves ..).ctl_eq]
    rfl

end

theorem rateNoted_moves (key : Nat) (s : State) : Moves [.hif] s (rateNoted key s) := Moves.hif_with (by decide) (Moves.refl ..)

/-- Settles O60, by the age of the stream's last report. -/
theorem authFailures : Obligations.AuthFailures := by
  intro id eng st s found d soon
  refine ⟨authFail_soon found, fun due => ⟨_, authFail_due found due, tfind_streamPut .., tfind_tset_same .., ?_⟩,
    (authFail_moves id eng s).same .obs (by decide), authFail_legs found⟩
  exact (Moves.seq (streamPut_moves ..) (by decide) (Moves.seq (rateNoted_moves ..) (by decide)
    ((verdictDrop_moves ..).mono (by decide)))).toChanges

/-! ## Answers noted, verdicts in the order of the stream (R131) -/

/-- A held packet with the answer to `n` noted. -/
def Held.noting (n : Nat) (h : Held) : Held := if h.id = n then { h with answered := true } else h

theorem Held.noting_stream (n : Nat) (h : Held) : (h.noting n).stream = h.stream := by
  unfold Held.noting
  split <;> rfl

/-- The first packet of a stream stays the first once an answer is noted. -/
theorem find_noted (n stream : Nat) (s : State) : (noted n s).ctl.held.find? (fun x => decide (x.stream = stream)) =
    (s.ctl.held.find? fun x => decide (x.stream = stream)).map (Held.noting n) := by
  change (s.ctl.held.map (Held.noting n)).find? _ = _
  rw [List.find?_map]
  congr 2
  funext x
  simp [Held.noting_stream]

theorem length_noted (n : Nat) (s : State) : (noted n s).ctl.held.length = s.ctl.held.length := List.length_map ..

/-- The engine of a packet in its hold buffer answers: the answer is noted, and the verdicts of its stream run. -/
theorem exec_cipherVerdict {n : Nat} {h : Held} {s : State} (named : s.ctl.held.find? (fun x => decide (x.id = n)) = some h)
    (buffered : (holdIn h.eng s).contains h = true) :
    exec (.cipherVerdict n) s = .next (verdictRun s.ctl.held.length h.stream (noted n s)) := by
  change execCipherVerdict n s = _
  simp only [execCipherVerdict, named, buffered, Bool.not_true, Bool.false_eq_true, if_false]
  rw [← length_noted n s]
  rfl

theorem verdictRun_waits {fuel stream : Nat} {h : Held} {s : State}
    (first : s.ctl.held.find? (fun x => decide (x.stream = stream)) = some h) (waits : h.answered = false) :
    verdictRun fuel stream s = s := by
  cases fuel with
  | zero => rfl
  | succ fuel => simp [verdictRun, first, waits]

theorem verdictRun_answered {fuel stream : Nat} {h : Held} {s : State}
    (first : s.ctl.held.find? (fun x => decide (x.stream = stream)) = some h) (answered : h.answered = true) :
    verdictRun (fuel + 1) stream s = verdictRun fuel stream (verdict h s) := by
  simp [verdictRun, first, answered]

theorem exec_cipherVerdict_foremost {n : Nat} {h : Held} {s : State} (foremost : Foremost n h s)
    (buffered : (holdIn h.eng s).contains h = true) : exec (.cipherVerdict n) s =
      .next (verdictRun (s.ctl.held.length - 1) h.stream (verdict { h with answered := true } (noted n s))) := by
  obtain ⟨named, first⟩ := foremost
  have itself : h.id = n := by simpa using List.find?_some named
  have firstNoted : (noted n s).ctl.held.find? (fun x => decide (x.stream = h.stream)) = some { h with answered := true } := by
    rw [find_noted, first, Option.map_some, Held.noting, if_pos itself]
  have someHeld : s.ctl.held.length - 1 + 1 = s.ctl.held.length :=
    Nat.sub_add_cancel (List.length_pos_of_mem (List.mem_of_find?_eq_some named))
  rw [exec_cipherVerdict named buffered, ← someHeld, verdictRun_answered firstNoted rfl, Nat.add_sub_cancel]

theorem exec_cipherVerdict_behind {n : Nat} {h g : Held} {s : State} (named : s.ctl.held.find? (fun x => decide (x.id = n)) = some h)
    (first : s.ctl.held.find? (fun x => decide (x.stream = h.stream)) = some g) (other : g.id ≠ n) (waits : g.answered = false)
    (buffered : (holdIn h.eng s).contains h = true) : exec (.cipherVerdict n) s = .next (noted n s) := by
  have firstNoted : (noted n s).ctl.held.find? (fun x => decide (x.stream = h.stream)) = some g := by
    rw [find_noted, first, Option.map_some, Held.noting, if_neg other]
  rw [exec_cipherVerdict named buffered, verdictRun_waits firstNoted waits]

/-! ## A packet opened or refused (R128) -/

theorem unhold_key (h : Held) (s : State) : (unhold h s).key = s.key := (unhold_moves h s).key_eq

theorem unhold_streams (h : Held) (s : State) : (unhold h s).ctl.streams = s.ctl.streams := by
  rw [unhold, (holdSync_moves _).ctl_eq]

theorem keySlot_unhold (h : Held) (n : Nat) (s : State) : keySlot n (unhold h s) = keySlot n s :=
  congrArg (fun k : Keys => tget KeySlot.empty k.slots n) (unhold_key h s)

theorem keyValid_unhold (h : Held) (n : Nat) (s : State) : keyValid n (unhold h s) = keyValid n s :=
  congrArg KeySlot.valid (keySlot_unhold h n s)

theorem openWith_unhold (f : KeySlot → Option (List Nat)) (ks : List Nat) (h : Held) (s : State) :
    openWith f ks (unhold h s) = openWith f ks s := by
  simp only [openWith, keyValid_unhold, keySlot_unhold]

theorem verdict_rtp {h : Held} {st : Stream} {s : State} (rtp : h.rtcp = false) (found : tfind s.ctl.streams h.stream = some st) :
    verdict h s = verdictRtp h st (unhold h s) := by
  rw [← unhold_streams h s] at found
  simp only [verdict, found, rtp, Bool.false_eq_true, if_false]

section
variable {h : Held} {st : Stream} {seq idx : Nat} {x : SeqState} {s : State} (plain : h.bind = false)
  (valid : seqExtend st.seq (be h.payload 2 2) = (some seq, x))
  (keyed : ((verdictKeys st h.frame.arrival).any fun k => keyValid k s) = true) (fresh : idxOk st.win seq = true)
  (index : srtpIndex st.srtp st.roc (be h.payload 2 2) = some idx)
include plain valid keyed fresh index

theorem verdictRtp_opened {p : List Nat}
    (opened : openWith (fun k => srtpOpen k idx (toNats h.payload)) (verdictKeys st h.frame.arrival) s = some p) :
    verdictRtp h st s = commitRtp h st seq idx x (ofNats p) s := by
  simp only [verdictRtp, valid, plain, keyed, fresh, index, opened, Bool.false_and, Bool.not_true, Bool.false_eq_true, if_false]

theorem verdictRtp_refused
    (closed : openWith (fun k => srtpOpen k idx (toNats h.payload)) (verdictKeys st h.frame.arrival) s = none) :
    verdictRtp h st s = authFail h.stream h.eng s := by
  simp only [verdictRtp, valid, plain, keyed, fresh, index, closed, Bool.false_and, Bool.not_true, Bool.false_eq_true, if_false]

end

/-- Settles O27, from the first packet of a stream and from what opens an RTP packet. -/
theorem cipherVerdicts : Obligations.CipherVerdicts := by
  refine ⟨fun n h s => exec_cipherVerdict_foremost, fun n h g s => exec_cipherVerdict_behind, ?_⟩
  intro h st seq x idx s u rtp plain found valid keyed fresh index
  have keyed : ((verdictKeys st h.frame.arrival).any fun k => keyValid k u) = true := by simpa only [u, keyValid_unhold] using keyed
  rw [verdict_rtp rtp found, ← openWith_unhold _ _ h]
  exact ⟨fun p => verdictRtp_opened plain valid keyed fresh index, verdictRtp_refused plain valid keyed fresh index⟩

end Sys2Proof.Machine
end

section
/-! PROOFS. Configuration commands of pictures: canvases, layouts, encodes, key pictures (R280, R281, R294, R326, R329, R330). -/

namespace Sys2Proof.Machine
open Sys2Proof.Claims

/-! ## A configuration command at its boundary (R81, R468) -/

section
variable {op b : Nat} {c : Cmd} {i : Instr} {s s1 t : State} {r : Rsp} {P : State → Prop} (row : (op, i) ∈ configRows c)
  (enters : EntersNow op c s) (runs : applyOf op (inFlight op c s).data c b s1 = (t, some r))
include row enters runs

/-- A command whose effect leaves no record of the configuration ends with its effect alone. -/
theorem atBoundary_plain (plain : configTrace op c (inFlight op c s).data b t = t) (outcome : P (ended op c b s r t)) :
    AtBoundary op c i b s s1 P :=
  ⟨exec_configRow row enters.1, _, applyFlight_now enters.2 runs plain, outcome⟩

/-- A command that succeeds ends with its effect and the record that it leaves of the configuration. -/
theorem atBoundary_traced (ok : r.status = stOk) (outcome : P (ended op c b s r (configTrace op c (inFlight op c s).data b t))) :
    AtBoundary op c i b s s1 P := by
  obtain ⟨enters, now⟩ := enters
  have runs : applyOf (inFlight op c s).opcode (inFlight op c s).data (inFlight op c s).cmd b s1 = (t, some r) := runs
  have stamp : (inFlight op c s).cmd.effectStamp = 0 := now
  refine ⟨exec_configRow row enters, _, ?_, outcome⟩
  simp only [applyFlight, stamp, runs, ok, if_true]
  simp [ended, inFlight, flightOf]

end

/-- The end of a command and its record leave the pictures and the control state as its effect left them. -/
theorem ended_traced_vid (op b : Nat) (c : Cmd) (d : Option (List Byte)) (s t : State) (r : Rsp) :
    (ended op c b s r (configTrace op c d b t)).vid = t.vid :=
  ((flightEnd_moves ..).same .vid (by decide)).trans ((configTrace_moves ..).same .vid (by decide))

theorem ended_traced_ctl (op b : Nat) (c : Cmd) (d : Option (List Byte)) (s t : State) (r : Rsp) :
    (ended op c b s r (configTrace op c d b t)).ctl = t.ctl :=
  (ended_ctl ..).trans (configTrace_moves ..).ctl_eq

theorem ended_vid (op b : Nat) (c : Cmd) (s t : State) (r : Rsp) : (ended op c b s r t).vid = t.vid :=
  (flightEnd_moves ..).same .vid (by decide)

/-! ## Canvases (R326, R329, R330) -/

/-- What CANVAS_ADMIT asks of the Big Top at boundary `b`. -/
def canvasAsked (c : Cmd) (r b : Nat) (s : State) : Except Nat State :=
  canvasOpen c.target r (carg c 0x18 2) (carg c 0x1A 2) (carg c 0x1C 1) (carg c 0x1D 1)
    (if carg c 0x1E 1 = 0xFF then fallbackDefault s else carg c 0x1E 1) (decide (carg c 0x1F 1 = 1))
    [carg c 0x20 2, carg c 0x22 2, carg c 0x24 2] (carg c 0x26 1) none b s

section
variable {c : Cmd} {r : Nat} {s : State} (b : Nat) (mine : Canv c c.target r s)
include mine

theorem applyCanvasAdmit_ok {t : State} (new : liveCanvas c.target s = none) (fields : canvasOk c) (opens : canvasAsked c r b s = .ok t) :
    applyCanvasAdmit c b s = (t, some rspOk) := by
  obtain ⟨small, owned, ringed⟩ := mine
  obtain ⟨⟨wLeast, wMost, w8⟩, ⟨hLeast, hMost, h8⟩, ⟨fLeast, fMost, fps⟩, ⟨colour, matrix⟩, policy, dp, ⟨bg0, bg1, bg2⟩, ⟨aLeast, aMost⟩,
    rest⟩ := fields
  unfold canvasAsked at opens
  have policy : (decide (carg c 0x1E 1 ≤ 2) || decide (carg c 0x1E 1 = 0xFF)) = true := by simpa using policy
  simp only [applyCanvasAdmit, Nat.not_le.mpr small, owned, new, ringed, within, wLeast, wMost, w8, hLeast, hMost, h8, fLeast, fMost, fps,
    colour, policy, dp, bg0, bg1, bg2, aLeast, aMost, rest, opens, List.all_cons, List.all_nil, Option.getD_some]
  simp [matrix]

theorem applyCanvasRelease_ok {x : Canvas} (live : liveCanvas c.target s = some x) (rest : czero c 0x18 = true)
    (idle : canvasEncs c.target s = []) (own : x.fallback = none) :
    applyCanvasRelease c b s = (canvasClose c.target x s, some rspOk) := by
  obtain ⟨small, owned, _⟩ := mine
  simp [applyCanvasRelease, Nat.not_le.mpr small, owned, live, rest, idle, own]

theorem applyLayoutSet_ok {x : Canvas} {t : State} {tab : List Byte} (live : liveCanvas c.target s = some x)
    (aligned : carg c 0x18 8 % 64 = 0) (layers : carg c 0x24 1 ≤ 32) (regions : carg c 0x25 1 ≤ 8) (curves : carg c 0x26 1 ≤ 4)
    (rest : czero c 0x27 = true) (fits : carg c 0x20 4 ≤ x.area64 * granule)
    (passes : layoutCheck x tab (carg c 0x24 1) (carg c 0x25 1) (carg c 0x26 1) s = none)
    (laid : canvasLayout c.target x (layoutOf tab (carg c 0x24 1) (carg c 0x25 1) (carg c 0x26 1)) b s = .ok t) :
    ∃ a, applyLayoutSet c (some tab) b s = (dramWrite a tab t, some (rspRes ((x.gen + 1) % 65536))) := by
  obtain ⟨small, owned, _⟩ := mine
  refine ⟨x.bases.getD (x.bases.length - (if x.areaB then 2 else 1)) 0, ?_⟩
  simp only [applyLayoutSet, Nat.not_le.mpr small, Nat.not_lt.mpr layers, Nat.not_lt.mpr regions, Nat.not_lt.mpr curves, Nat.not_lt.mpr fits,
    owned, live, aligned, rest, passes, laid]
  rfl

end

/-! ## Encodes (R280, R281, R294) -/

section
variable {c : Cmd} {r : Nat} {s : State} (b : Nat) (known : c.target < 1024) (mine : Canv c (c.target % 256) r s)
include known mine

theorem applyEncodeAdmit_new {x : Canvas} {t : State} {tab : List Byte} (live : liveCanvas (c.target % 256) s = some x)
    (new : tfind s.vid.encs c.target = none) (admits : bit (carg c 0x1B 1) 0 = false) (range : encRange c = true)
    (rate : 90000 % x.fps = 0) (pixels : x.px ≤ 250000000) (level : levelOk (encArgs c) x.width x.height x.fps = true)
    (model : modelOk (encArgs c) x.width x.height x.fps = true) (rois : (roiTable tab).all roiOk = true)
    (opens : encOpen c.target (encArgs c) ((roiNow c tab).getD []) x b s = .ok t) :
    ∃ u, applyEncodeAdmit c (some tab) b s = (u, some rspOk) ∧ u.vid = t.vid ∧ u.ctl = t.ctl := by
  obtain ⟨small, owned, _⟩ := mine
  unfold roiTable at rois
  unfold roiNow roiTable at opens
  refine ⟨_, by
    simp only [applyEncodeAdmit, Nat.not_le.mpr known, owned, live, new, admits, range, rate, Nat.not_lt.mpr pixels, level, model, rois,
      opens]
    rfl, ?_⟩
  have clears (l : List Nat) (x : State) : Moves [.cnt] x (l.foldl (fun s i => { s with cnt := terase s.cnt (encCnt c.target (8 * i)) }) x) :=
    Moves.foldl (fun _ _ => Moves.cnt_with (by decide) (Moves.refl ..)) (Moves.refl ..)
  exact ⟨(clears _ t).same .vid (by decide), (clears _ t).ctl_eq⟩

theorem applyEncodeAdmit_modify {x : Canvas} {e : Enc} {tab : List Byte} (live : liveCanvas (c.target % 256) s = some x)
    (found : tfind s.vid.encs c.target = some e) (goes : e.stop = none) (modifies : bit (carg c 0x1B 1) 0 = true)
    (range : encRange c = true) (fixed : encFixed e.cfg (encArgs c) = true) (rate : 90000 % x.fps = 0)
    (rois : (roiTable tab).all roiOk = true) : applyEncodeAdmit c (some tab) b s =
      (encPut c.target { e with next := e.next ++ [(b, encArgs c, roiNow c tab)] } s, some rspOk) := by
  obtain ⟨small, owned, _⟩ := mine
  unfold roiTable at rois
  simp only [applyEncodeAdmit, Nat.not_le.mpr known, owned, live, found, goes, modifies, range, fixed, rate, rois, Option.any_some]
  rfl

theorem applyEncodeRelease_ok {e : Enc} (found : tfind s.vid.encs c.target = some e) (goes : e.stop = none) (rest : czero c 0x18 = true) :
    applyEncodeRelease c b s = (encStop c.target b e s, some rspOk) := by
  obtain ⟨small, owned, _⟩ := mine
  simp [applyEncodeRelease, Nat.not_le.mpr known, owned, found, goes, rest]

theorem applyKeypicRequest_ok {e : Enc} (found : tfind s.vid.encs c.target = some e) (goes : e.stop = none) (kind : carg c 0x18 1 ≤ 1)
    (rest : czero c 0x19 = true) :
    applyKeypicRequest c b s = (keyRequest c.target b (decide (carg c 0x18 1 = 1)) s, some rspOk) := by
  obtain ⟨small, owned, _⟩ := mine
  simp [applyKeypicRequest, Nat.not_le.mpr known, owned, found, goes, Nat.not_lt.mpr kind, rest]

end

theorem pictureCommands : Claims.PictureCommands := by
  intro c s s1 b r
  refine ⟨?opening, ?release, ?layout, ?encode, ?modify, ?stop, ?keypic⟩
  case opening =>
    intro t enters mine new fields opens
    exact atBoundary_plain (by simp [configRows]) enters (applyCanvasAdmit_ok b mine new fields opens) rfl rfl
  case release =>
    intro x enters mine live rest idle own
    exact atBoundary_plain (by simp [configRows]) enters (applyCanvasRelease_ok b mine live rest idle own) rfl rfl
  case layout =>
    intro x t tab enters nl nr nc mine live aligned layers regions curves rest fits fetched passes laid
    obtain ⟨a, runs⟩ := applyLayoutSet_ok b mine live aligned layers regions curves rest fits passes laid
    rw [← fetched] at runs
    exact atBoundary_traced (by simp [configRows]) enters runs rfl ⟨completes_ended .., (ended_traced_vid ..).trans
      ((dramWrite_moves ..).same .vid (by decide)), (ended_traced_ctl ..).trans (dramWrite_moves ..).ctl_eq⟩
  case encode =>
    intro x t tab enters a known mine live new admits range rate pixels level model fetched rois opens
    obtain ⟨u, runs, vid, ctl⟩ := applyEncodeAdmit_new b known mine live new admits range rate pixels level model rois opens
    rw [← fetched] at runs
    exact atBoundary_plain (by simp [configRows]) enters runs rfl ⟨completes_ended .., (ended_vid ..).trans vid, (ended_ctl ..).trans ctl⟩
  case modify =>
    intro x e tab enters a known mine live found goes modifies range fixed rate fetched rois
    have runs := applyEncodeAdmit_modify b known mine live found goes modifies range fixed rate rois
    rw [← fetched] at runs
    exact atBoundary_plain (by simp [configRows]) enters runs rfl rfl
  case stop =>
    intro e enters known mine found goes rest
    exact atBoundary_plain (by simp [configRows]) enters (applyEncodeRelease_ok b known mine found goes rest) rfl rfl
  case keypic =>
    intro e enters known mine found goes kind rest
    exact atBoundary_traced (by simp [configRows]) enters (applyKeypicRequest_ok b known mine found goes kind rest) rfl
      ⟨completes_ended .., ended_traced_vid ..⟩

end Sys2Proof.Machine
end

section
/-! PROOFS. Parameter sets of audio: what an AUD_SAFE_LOAD makes of an Act's banks at its boundary (R169 to R171). -/

namespace Sys2Proof.Machine
open Sys2Proof.Claims

/-! ## The parameters of an Act's audio -/

/-- What a parameter set changes of an Act's audio: both banks, the active one, the generation. -/
def ActAud.params (x : ActAud) : Bank × Bank × Nat × Nat := (x.bankA, x.bankB, x.active, x.gen)

/-- An Act's audio with a bank loaded at boundary `b`: the idle one, which becomes the active one; the active one where that boundary has
swapped them already (R170, R171). -/
def ActAud.loaded (k : Bank) (b : Nat) (x : ActAud) : ActAud :=
  let again := decide (x.swapAt = some b)
  let active := if again = true then x.active else if x.active = 0 then 1 else 0
  { x with
    bankA := if active = 0 then k else x.bankA
    bankB := if active = 0 then x.bankB else k
    active := active
    gen := if again = true then x.gen else (x.gen + 1) % 65536
    swapAt := some b }

theorem ActAud.loaded_eq (k : Bank) (b : Nat) (x : ActAud) : (if decide (x.swapAt = some b) = true then x.setBank k
    else if x.active = 0 then
      { x with
        bankB := k
        active := 1
        gen := (x.gen + 1) % 65536
        swapAt := some b }
    else
      { x with
        bankA := k
        active := 0
        gen := (x.gen + 1) % 65536
        swapAt := some b }) = x.loaded k b := by
  by_cases again : x.swapAt = some b
  · obtain ⟨bankA, bankB, active, gen, swapAt, spk, entering, gone, swapActive, swapEntry, select, clipped, encs, partials⟩ := x
    obtain rfl : swapAt = some b := again
    by_cases first : active = 0 <;> simp [ActAud.loaded, ActAud.setBank, first]
  · by_cases first : x.active = 0 <;> simp [ActAud.loaded, again, first]

/-! ## What keeps the parameters -/

@[simp] theorem actAud_actAudPut (a : Nat) (x : ActAud) (s : State) : actAud a (actAudPut a x s) = x := tget_tset_same ..

theorem actAud_of_acts {s t : State} (a : Nat) (acts : t.aud.acts = s.aud.acts) : actAud a t = actAud a s :=
  congrArg (tget ActAud.init · a) acts

theorem Moves.aud_eq {ps : List Part} {s t : State} (h : Moves ps s t) (n : Part.aud ∉ ps := by decide) : t.aud = s.aud :=
  h.same .aud n

theorem trustCharge_acts (leg act : Nat) (up : Bool) (s : State) : (trustCharge leg act up s).aud.acts = s.aud.acts := by
  unfold trustCharge
  split
  · rfl
  · change (State.aud (if up = true then _ else _)).acts = _
    split
    · rw [(chargeUp_moves ..).aud_eq]
    · rw [(chargeDown_moves ..).aud_eq]

theorem trustClear_acts (leg act : Nat) (s : State) : (trustClear leg act s).aud.acts = s.aud.acts := by
  unfold trustClear
  dsimp only
  split
  · exact trustCharge_acts ..
  · rfl

theorem recOnce_acts (act : Nat) (t : List Byte) (s : State) : (recOnce act t s).aud.acts = s.aud.acts := by
  unfold recOnce
  dsimp only
  split
  · change (State.aud (if _ then _ else _)).acts = _
    split
    · exact trustClear_acts ..
    · rfl
  · split
    · exact trustClear_acts ..
    · rfl

theorem recsOnce_acts (act : Nat) (l : List (List Byte)) (s : State) : (l.foldl (fun s r => recOnce act r s) s).aud.acts = s.aud.acts := by
  induction l generalizing s with
  | nil => rfl
  | cons r l ih => rw [List.foldl_cons, ih, recOnce_acts]

theorem selFade_params (act leg b : Nat) (s : State) : (actAud act (selFade act leg b s)).params = (actAud act s).params := by
  rw [selFade, actAud_actAudPut]
  rfl

/-- Members fade and entering legs are dropped, the banks stay. -/
theorem selLower_params (act b n : Nat) (s : State) : (actAud act (selLower act b n s)).params = (actAud act s).params := by
  unfold selLower
  extract_lets x live beyond
  clear_value beyond
  clear live x
  induction beyond generalizing s with
  | nil => rfl
  | cons m beyond ih =>
    refine (ih _).trans ?_
    dsimp only
    split
    · rw [actAud_actAudPut]
      rfl
    · exact selFade_params ..

/-! ## AUD_SAFE_LOAD at its boundary (R170, R171) -/

theorem safeRecs_eq (c : Cmd) (tab : List Byte) :
    groups (carg c 0x24 2 + 1) 32 (tab.drop (64 * b2n (bit (carg c 0x26 1) 0))) = safeRecs c tab := rfl

theorem safeBank_eq (c : Cmd) (x : ActAud) (tab : List Byte) :
    bankLoad (if bit (carg c 0x26 1) 0 = true then some (hdrOf tab) else none) (safeRecs c tab) x.bank = safeBank c x tab := rfl

/-- The Act's audio with the parameter set loaded. -/
def safeLoaded (c : Cmd) (b : Nat) (tab : List Byte) (s : State) : ActAud :=
  (actAud c.target s).loaded (safeBank c (actAud c.target s) tab) b

theorem safeLoaded_eq (c : Cmd) (b : Nat) (tab : List Byte) (s : State) :
    (actAud c.target s).loaded (safeBank c (actAud c.target s) tab) b = safeLoaded c b tab s := rfl

/-- The state that the load leaves: the charge settled, what the records ask for once done, the members beyond a lower top_n faded out. -/
def safeEffect (c : Cmd) (b : Nat) (tab : List Byte) (s : State) : State :=
  let x := actAud c.target s
  let k := safeBank c x tab
  let t := actAudPut c.target (safeLoaded c b tab s) s
  let settled := settingSettle c.target (settingNow c.target s) (if decide (x.swapAt = some b) = true then t
    else cinc 0x201000 (cinc (actCnt c.target 0x10) t))
  let once := (safeRecs c tab).foldl (fun s r => recOnce c.target r s) settled
  if k.hdr.topN < x.bank.hdr.topN then selLower c.target b k.hdr.topN once else once

theorem safeEffect_params (c : Cmd) (b : Nat) (tab : List Byte) (s : State) :
    (actAud c.target (safeEffect c b tab s)).params = (safeLoaded c b tab s).params := by
  have once (old : Nat) (t : State) (put : t.aud = (actAudPut c.target (safeLoaded c b tab s) s).aud) :
      actAud c.target ((safeRecs c tab).foldl (fun s r => recOnce c.target r s) (settingSettle c.target old t)) = safeLoaded c b tab s := by
    have acts := (recsOnce_acts c.target (safeRecs c tab) (settingSettle c.target old t)).trans
      (congrArg Aud.acts ((settingSettle_moves ..).aud_eq.trans put))
    exact (actAud_of_acts _ acts).trans (actAud_actAudPut ..)
  have counted : (if decide ((actAud c.target s).swapAt = some b) = true then actAudPut c.target (safeLoaded c b tab s) s
      else cinc 0x201000 (cinc (actCnt c.target 0x10) (actAudPut c.target (safeLoaded c b tab s) s))).aud =
      (actAudPut c.target (safeLoaded c b tab s) s).aud := by
    split <;> rfl
  unfold safeEffect
  dsimp only
  split
  · rw [selLower_params, once _ _ counted]
  · rw [once _ _ counted]

section
variable {c : Cmd} {a : Act} {tab : List Byte} {s : State} (b : Nat)

theorem applyAudSafeLoad_ok (owned : idRefused c 1 actLimit c.target s = none) (admitted : tfind s.ctl.acts c.target = some a)
    (size : carg c 0x20 4 = 64 * b2n (bit (carg c 0x26 1) 0) + 32 * carg c 0x24 2) (aligned : carg c 0x18 8 % 64 = 0)
    (few : carg c 0x24 2 ≤ 16384) (flags : carg c 0x26 1 ≤ 1) (rest : czero c 0x27 = true)
    (recs : ∀ t ∈ safeRecs c tab, ∃ l, tfind s.ctl.legs (le t 0 2) = some l ∧ l.act = c.target ∧ recOk t l.acodec = true)
    (hdr : bit (carg c 0x26 1) 0 = true → hdrOk tab a.tpl = true)
    (pins : ((safeBank c (actAud c.target s) tab).recs.filter fun p => p.2.pinned).length ≤ (safeBank c (actAud c.target s) tab).hdr.topN)
    (may : let now := settingNow c.target (actAudPut c.target (safeLoaded c b tab s) s)
      settingNow c.target s < now → fits a.ring a.bay (chargeOf 0 (now - settingNow c.target s)) s = true) :
    applyAudSafeLoad c (some tab) b s =
      (safeEffect c b tab s, some (rspRes ((safeLoaded c b tab s).active + (safeLoaded c b tab s).gen * 65536))) := by
  simp only [applyAudSafeLoad, owned, admitted, size, aligned, Nat.not_lt.mpr few, Nat.not_lt.mpr flags, rest, ne_eq,
    not_true_eq_false, if_false, safeRecs_eq, safeBank_eq, ActAud.loaded_eq, safeLoaded_eq]
  refine (if_neg ?args).trans ((if_neg ?legs).trans ((if_neg ?ranges).trans ((if_neg ?pinned).trans (if_neg ?charge))))
  case args => simp
  case legs =>
    simp only [Bool.not_eq_true', Bool.not_eq_false, List.all_eq_true]
    intro t mem
    obtain ⟨l, found, here, _⟩ := recs t mem
    simp [found, here]
  case ranges =>
    intro outside
    rcases Bool.or_eq_true_iff.mp outside with header | record
    · obtain ⟨has, wrong⟩ := Bool.and_eq_true_iff.mp header
      simp [hdr has] at wrong
    · refine absurd record ?_
      simp only [Bool.not_eq_true', Bool.not_eq_false, List.all_eq_true]
      intro t mem
      obtain ⟨l, found, _, inRange⟩ := recs t mem
      simp [found, inRange]
  case pinned => exact Nat.not_lt.mpr pins
  case charge =>
    intro excess
    obtain ⟨more, full⟩ := Bool.and_eq_true_iff.mp excess
    simp [may (of_decide_eq_true more)] at full

end

theorem audioParameters : Claims.AudioParameters := by
  intro c s s1 b ring a tab enters id x k again active gen y mine admitted size aligned few flags rest fetched recs hdr pins may
  have runs := applyAudSafeLoad_ok b mine.1 admitted size aligned few flags rest recs hdr pins may
  rw [← fetched] at runs
  have aud : actAud id (ended 0x30 c b s (rspRes ((safeLoaded c b tab s1).active + (safeLoaded c b tab s1).gen * 65536))
      (safeEffect c b tab s1)) = actAud id (safeEffect c b tab s1) :=
    actAud_of_acts id (congrArg Aud.acts (flightEnd_moves ..).aud_eq)
  have params := safeEffect_params c b tab s1
  simp only [ActAud.params, Prod.mk.injEq] at params
  obtain ⟨bankA, bankB, now, turn⟩ := params
  refine atBoundary_plain (by simp [configRows]) enters runs rfl ⟨completes_ended .., ?_, ?_, ?_, ?_⟩
  · exact (congrArg ActAud.bankA aud).trans bankA
  · exact (congrArg ActAud.bankB aud).trans bankB
  · exact (congrArg ActAud.active aud).trans now
  · exact (congrArg ActAud.gen aud).trans turn

end Sys2Proof.Machine
end

section
/-! PROOFS. The other commands of O22: shapers, rewind marks, telemetry, the return of a Bay, the acknowledge of a zeroisation. -/

namespace Sys2Proof.Machine
open Sys2Proof.Claims

/-! ## SHAPER_SET (R355) -/

section
variable {c : Cmd} {l : Leg} {e : EgrLeg} {s : State} (b : Nat) (small : c.target < 16384) (owned : owns c.fn 0 c.target s = true)
  (leg : tfind s.ctl.legs c.target = some l) (egress : tfind s.egr.legs c.target = some e)
include small owned leg egress

theorem applyShaperSet_shaper {sh : Shaper} (op : carg c 0x18 1 = 0) (args : shaperArgs c l = some sh) :
    applyShaperSet c b s = (egrLegPut c.target { e with sh := sh } s, some rspOk) := by
  simp [applyShaperSet, Nat.not_le.mpr small, owned, leg, egress, op, args]

theorem applyShaperSet_path {p : Path} (op : carg c 0x18 1 = 1) (args : pathArgs c s = some p) :
    applyShaperSet c b s = (egrLegPut c.target { e with path := some p } s, some rspOk) := by
  simp [applyShaperSet, Nat.not_le.mpr small, owned, leg, egress, op, args]

theorem applyShaperSet_payloadType {st : Stream} (op : carg c 0x18 1 = 2) (found : tfind s.ctl.streams (carg c 0x1A 2) = some st)
    (here : st.leg = c.target) (out : st.dir = 1) (few : carg c 0x1C 1 < 128) (rtp : ¬ (64 ≤ carg c 0x1C 1 ∧ carg c 0x1C 1 ≤ 95))
    (zero : carg c 0x19 1 = 0) (rest : czero c 0x1D = true) : applyShaperSet c b s =
      (egrStrPut (carg c 0x1A 2) { egrStr (carg c 0x1A 2) s with pt := carg c 0x1C 1 } s, some rspOk) := by
  have rtp : within 64 95 (carg c 0x1C 1) = false := by simpa [within] using rtp
  simp [applyShaperSet, Nat.not_le.mpr small, owned, leg, egress, op, found, here, out, few, rtp, zero, rest]

theorem applyShaperSet_cname {n : Nat} (op : carg c 0x18 1 = 3) (length : carg c 0x19 1 = n) (least : 1 ≤ n) (most : n ≤ 32)
    (rest : czero c (0x1A + n) = true) :
    applyShaperSet c b s = (egrLegPut c.target { e with cname := cargs c 0x1A n } s, some rspOk) := by
  simp [applyShaperSet, Nat.not_le.mpr small, owned, leg, egress, op, length, within, least, most, rest]

end

/-! ## REWIND_MARK (R320) -/

section
variable {c : Cmd} {st : Stream} {r : Rewind} {s : State} (b : Nat) (small : c.target < 65536) (owned : owns c.fn 2 c.target s = true)
  (stream : tfind s.ctl.streams c.target = some st) (ring : tfind s.egr.rings c.target = some r) (out : st.dir = 1)
  (mark : carg c 0x18 1 ≤ 3) (rest : czero c 0x1A = true)
include small owned stream ring out mark rest

theorem applyRewindMark_set (op : carg c 0x19 1 = 0) :
    let seq := egrIndex st (egrStr c.target s).count % 2 ^ 32
    applyRewindMark c b s = ({ s with egr := { s.egr with
      rings := tset s.egr.rings c.target { r with marks := tset r.marks (carg c 0x18 1) seq } } }, some (rspRes seq)) := by
  simp [applyRewindMark, Nat.not_le.mpr small, owned, stream, ring, out, Nat.not_lt.mpr mark, op, rest]

theorem applyRewindMark_clear (op : carg c 0x19 1 = 1) : applyRewindMark c b s = ({ s with egr := { s.egr with
    rings := tset s.egr.rings c.target { r with marks := terase r.marks (carg c 0x18 1) } } }, some rspOk) := by
  simp [applyRewindMark, Nat.not_le.mpr small, owned, stream, ring, out, Nat.not_lt.mpr mark, op, rest]

end

/-- The end of a command leaves egress as its effect left it. -/
theorem ended_egr (op b : Nat) (c : Cmd) (s t : State) (r : Rsp) : (ended op c b s r t).egr = t.egr :=
  (flightEnd_moves ..).same .egr (by decide)

/-! ## TELEMETRY_SET (R465) -/

section
variable {c : Cmd} {s : State} (b : Nat) (zero : carg c 0x26 2 = 0) (rest : czero c 0x30 = true)
include zero rest

theorem applyTelemetrySet_off (mask : carg c 0x25 1 = 0) :
    applyTelemetrySet c b s = ({ s with obs := { s.obs with tels := terase s.obs.tels (fnNum c.fn) } }, some rspOk) := by
  simp [applyTelemetrySet, zero, rest, mask]

theorem applyTelemetrySet_on {p : Nat} (period : (if carg c 0x28 4 = 0 then telemetryPeriod s else carg c 0x28 4) = p)
    (mask : carg c 0x25 1 ≠ 0) (page : carg c 0x18 8 % 4096 = 0) (pages : carg c 0x20 4 % 4096 = 0) (least : 4096 ≤ carg c 0x20 4)
    (most : carg c 0x20 4 ≤ 2 ^ 24) (slots : 1 ≤ carg c 0x24 1) (few : carg c 0x24 1 ≤ 8) (kinds : carg c 0x25 1 < 128)
    (pf : bit (carg c 0x25 1) 6 = true → c.fn = .pf) (short : carg c 0x28 4 ≤ 2000000) (positive : 0 < p) (phase : carg c 0x2C 4 < p) :
    let tel : Tel := ⟨carg c 0x18 8, carg c 0x20 4, carg c 0x24 1, carg c 0x25 1, p, carg c 0x2C 4, 0, 0, 0⟩
    let s2 := fset (R.OBS_TEL_HEAD_head c.fn) 0 (fset (R.OBS_TEL_HEAD_next c.fn) 0 (fset (R.OBS_TEL_HEAD_phase c.fn) 1 s))
    applyTelemetrySet c b s = ({ s2 with obs := { s.obs with tels := tset s.obs.tels (fnNum c.fn) tel } }, some rspOk) := by
  have device : (bit (carg c 0x25 1) 6 && c.fn != .pf) = false := by
    by_cases sixth : bit (carg c 0x25 1) 6 = true
    · simp [pf sixth]
    · simp [sixth]
  have sized : within 4096 (16 * 2 ^ 20) (carg c 0x20 4) = true := Bool.and_eq_true_iff.mpr ⟨decide_eq_true least, decide_eq_true most⟩
  simp only [applyTelemetrySet, period]
  refine (if_neg ?reserved).trans ((if_neg mask).trans ((if_neg ?fields).trans ((if_neg (Nat.ne_of_gt positive)).trans rfl)))
  case reserved => simp [zero, rest]
  case fields =>
    simp only [sized, page, pages]
    simp [within, slots, few, Nat.not_le.mpr kinds, device, Nat.not_lt.mpr short, Nat.not_le.mpr phase]

end

/-! ## BAY_RETURN (R410) -/

theorem applyBayReturn_ok {c : Cmd} {s : State} (b : Nat) (small : c.target < 4) (rest : czero c 0x18 = true)
    (quarantined : baySt c.target s = bsQuar) (tested : fon (R.FLT_BAY_STATUS_tested c.target) s = true) :
    applyBayReturn c b s = (fwReturn c.target (baySet c.target bsIn bcAdmin 0 s), some rspOk) := by
  simp [applyBayReturn, bayArgs, Nat.not_le.mpr small, rest, quarantined, tested]

/-! ## The acknowledge of a zeroisation (R139, R437) -/

/-- The request to the key store taken back. -/
def zeroiseAcked (s : State) : State := { s with key := { s.key with zreq := false } }

theorem execZeroiseAck_eq {s : State} (asked : s.key.zreq = true) : exec .zeroiseAck s = .next (stopAck (zeroiseAcked s)) := by
  change execZeroiseAck s = _
  rw [execZeroiseAck, if_pos asked, zeroiseAcked]

theorem stopAck_of_running {s : State} (running : phase s ≠ phStopping) : stopAck s = s := by
  rw [stopAck, if_pos running]

theorem stopAck_of_save {s : State} (stopping : phase s = phStopping) (save : s.pwr.save.isSome = true) :
    stopAck s = phaseTo phSaving s := by
  simp [stopAck, stopping, save]

theorem stopAck_of_no_save {s : State} (stopping : phase s = phStopping) (save : s.pwr.save = none) :
    stopAck s = phaseTo phStopped (fset R.LDG_STATUS_saved_last_off 0 s) := by
  simp [stopAck, stopping, save]

/-! ## The claim and the obligation -/

theorem otherConfigCommands : Claims.OtherConfigCommands := by
  intro c s s1 b
  refine ⟨?shaper, ?mark, ?telemetry, ?bay, ?running, ?saving, ?stopped⟩
  case shaper =>
    intro l e enters small owned leg egress
    refine ⟨?_, ?_, ?_, ?_⟩
    · intro sh op args
      exact atBoundary_plain (by simp [configRows]) enters (applyShaperSet_shaper b small owned leg egress op args) rfl rfl
    · intro p op args
      exact atBoundary_plain (by simp [configRows]) enters (applyShaperSet_path b small owned leg egress op args) rfl rfl
    · intro st op found here out few rtp zero rest
      exact atBoundary_plain (by simp [configRows]) enters
        (applyShaperSet_payloadType b small owned leg egress op found here out few rtp zero rest) rfl rfl
    · intro n op length least most rest
      exact atBoundary_plain (by simp [configRows]) enters (applyShaperSet_cname b small owned leg egress op length least most rest) rfl rfl
  case mark =>
    intro st r enters m seq small owned stream ring out mark rest
    refine ⟨fun op => ?_, fun op => ?_⟩
    · exact atBoundary_plain (by simp [configRows]) enters (applyRewindMark_set b small owned stream ring out mark rest op) rfl
        ⟨completes_ended .., by rw [ended_egr]; exact tfind_tset_same ..⟩
    · exact atBoundary_plain (by simp [configRows]) enters (applyRewindMark_clear b small owned stream ring out mark rest op) rfl
        ⟨completes_ended .., by rw [ended_egr]; exact tfind_tset_same ..⟩
  case telemetry =>
    intro enters p fn zero rest
    refine ⟨fun mask => ?_, ?_⟩
    · exact atBoundary_plain (by simp [configRows]) enters (applyTelemetrySet_off b zero rest mask) rfl rfl
    · intro mask page pages least most slots few kinds pf short positive phase tel s2
      exact atBoundary_plain (by simp [configRows]) enters
        (applyTelemetrySet_on b zero rest rfl mask page pages least most slots few kinds pf short positive phase) rfl rfl
  case bay =>
    intro enters small rest quarantined tested
    exact atBoundary_plain (by simp [configRows]) enters (applyBayReturn_ok b small rest quarantined tested) rfl rfl
  case running =>
    intro asked running
    have acked : stopAck (zeroiseAcked s) = zeroiseAcked s := stopAck_of_running (s := zeroiseAcked s) running
    rw [execZeroiseAck_eq asked, acked, zeroiseAcked]
  case saving =>
    intro asked stopping save
    have acked := stopAck_of_save (s := zeroiseAcked s) stopping save
    rw [execZeroiseAck_eq asked, acked, zeroiseAcked]
  case stopped =>
    intro asked stopping save
    have acked := stopAck_of_no_save (s := zeroiseAcked s) stopping save
    rw [execZeroiseAck_eq asked, acked, zeroiseAcked]

/-- Settles O22: at its boundary each command runs its effect and ends with the answer of that effect. -/
theorem parameterCommands : Obligations.ParameterCommands := ⟨pictureCommands, audioParameters, otherConfigCommands⟩

end Sys2Proof.Machine
end

section
/-! PROOFS. Staged changes (R190, R302, R453): what a go makes of them, and an unsubscription that R302 refuses. -/

namespace Sys2Proof.Machine
open Sys2Proof.Claims

/-! ## A go (R190) -/

/-- A command that is a go of a window: its change armed, or a collision where one is armed. -/
theorem exec_stageArm {i : Instr} {win : Nat} {fn : Fn} {r : StageRegs} {c : Staged} {s : State}
    (go : exec i s = .next (stageArm win fn r c s)) :
    (fon r.armed s = false → exec i s =
      .next (fset r.armed 1 { s with src := { s.src with staged := tset s.src.staged (stageKey win fn) c } })) ∧
    (fon r.armed s = true → exec i s = .next (fset r.collision 1 s)) :=
  ⟨fun free => go.trans (congrArg _ (if_neg (by simp [free]))), fun armed => go.trans (congrArg _ (if_pos armed))⟩

theorem stagedChanges : Claims.StagedChanges := by
  intro fn s
  refine ⟨fun k i row staged => exec_stageArm (r := srcStageRegs fn) ?src, fun k i row staged => exec_stageArm (r := fwdStageRegs fn) ?fwd,
    fun k i row staged => exec_stageArm (r := casStageRegs) ?cas⟩ <;> simp only [List.mem_cons, Prod.mk.injEq, List.not_mem_nil, or_false] at row
  case src => obtain ⟨rfl, rfl⟩ | ⟨rfl, rfl⟩ | ⟨rfl, rfl⟩ := row <;> exact congrArg Host.Outcome.next (if_pos staged)
  case fwd => obtain ⟨rfl, rfl⟩ | ⟨rfl, rfl⟩ | ⟨rfl, rfl⟩ := row <;> exact congrArg Host.Outcome.next (if_pos staged)
  case cas => obtain ⟨rfl, rfl⟩ | ⟨rfl, rfl⟩ | ⟨rfl, rfl⟩ | ⟨rfl, rfl⟩ := row <;> exact congrArg Host.Outcome.next (if_pos staged)

/-! ## Unsubscribing (R302) -/

/-- An Act whose template composes video (kind 3) has no subscriptions: R302 refuses the change with BAD_STATE. -/
theorem unsubscribe_composing {fn : Fn} {leg : Nat} {l : Leg} {s : State} (owned : owns fn 0 leg s = true)
    (found : tfind s.ctl.legs leg = some l) (composes : (actTpl l.act s).kind = 3) : unsubscribe fn leg s = (5, s) := by
  simp [unsubscribe, owned, found, composes]

/-- Leg 0 of Act 0, which composes video: ACTIVE, with a video codec and the video egress context 0. -/
def composing : State := { State.reset with ctl := { State.reset.ctl with
  acts := [(0, ⟨0, { Template.zero with kind := 3 }, 8, 0, []⟩)]
  legs := [(0, ⟨.active, 0, 0, 0, 1, 640, 360, 30, 0, 0, 0, 0, [], 0, 0, 0, 0, false, false, 0, 0⟩)]
  streams := [(0, { farStream 0 with
    leg := 0
    dir := 1
    media := 1 })] } }

/-- Refutes O29: unsubscribing leg 0 of `composing` fails with BAD_STATE, where StagedEffects says that it succeeds: its conditions
leave out R302's check that the Act's template is not of kind 3.  The other half, StagedChanges, is as stated (`stagedChanges`). -/
theorem not_stagedOperations : ¬ Obligations.StagedOperations := by
  rintro ⟨_, _, unsubscribes, _⟩
  have context : egrContexts 0 1 composing ≠ [] := by decide
  obtain ⟨succeeds, _⟩ := unsubscribes .pf 0 _ composing rfl rfl rfl context (by decide)
  rw [unsubscribe_composing (s := composing) rfl rfl rfl] at succeeds
  exact absurd succeeds (by decide)

end Sys2Proof.Machine
end

section
/-! PROOFS. The coefficient banks of rate conversion (R186 to R188): what each command leaves of the bank that SRC_BANK_SEL names. -/

namespace Sys2Proof.Machine
open Sys2Proof.Claims

theorem srcBank_bankPut (n : Nat) (b : SrcBank) (s : State) : srcBank n (bankPut n b s) = b := tget_tset_same ..

section
variable {n v : Nat} {b : SrcBank} {s : State} (sel : fget R.SRC_BANK_SEL_bank s = n) (bank : srcBank n s = b)
include sel bank

theorem bankCoef_inUse (used : bankState n s = 3) : bankCoef v s = bankPut n { b with result := 1 } s := by
  simp only [bankCoef, sel, bank]
  exact if_pos used

theorem bankCoef_next (free : bankState n s ≠ 3) (loading : b.st = 1) (room : b.count < 768) :
    bankCoef v s = bankPut n { b with coefs := b.coefs ++ [toS 25 v], count := b.count + 1 } s := by
  simp only [bankCoef, sel, bank]
  exact (if_neg free).trans ((if_pos loading).trans (if_neg (Nat.not_le.mpr room)))

theorem bankCoef_first (free : bankState n s ≠ 3) (idle : b.st ≠ 1) :
    bankCoef v s = bankPut n { b with st := 1, coefs := [toS 25 v], count := 1 } s := by
  simp only [bankCoef, sel, bank]
  exact (if_neg free).trans (if_neg idle)

theorem bankCommit_ready {rate d : Nat} (rates : fget R.SRC_BANK_CFG_rate s = rate) (delay : fget R.SRC_BANK_CFG_delay s = d)
    (passes : bankCheck n b rate d s = 0) : bankCommit s = bankPut n { b with st := 2, rate := rate, delay := d, result := 0 } s := by
  simp only [bankCommit, sel, bank, rates, delay, passes]

theorem bankCommit_refused {rate d : Nat} (rates : fget R.SRC_BANK_CFG_rate s = rate) (delay : fget R.SRC_BANK_CFG_delay s = d)
    (loading : b.st = 1) (fails : bankCheck n b rate d s ≠ 0) (free : bankCheck n b rate d s ≠ 1) :
    bankCommit s = bankPut n ⟨b.cfg, 0, 0, 0, [], 0, bankCheck n b rate d s⟩ s := by
  simp only [bankCommit, sel, bank, rates, delay]
  generalize bankCheck n b rate d s = result at fails free ⊢
  match result with
  | 0 => exact absurd rfl fails
  | 1 => exact absurd rfl free
  | _ + 2 => exact if_pos loading

theorem bankCommit_inUse (used : bankState n s = 3) : bankCommit s = bankPut n { b with result := 1 } s := by
  have check (rate d : Nat) : bankCheck n b rate d s = 1 := if_pos used
  simp only [bankCommit, sel, bank, check]

theorem bankAbort_loading (loading : b.st = 1) : bankAbort s = bankPut n ⟨b.cfg, 0, 0, 0, [], 0, 0⟩ s := by
  simp only [bankAbort, sel, bank]
  exact if_pos loading

theorem bankClear_inUse (used : bankState n s = 3) : bankClear s = bankPut n { b with result := 1 } s := by
  simp only [bankClear, sel, bank]
  exact if_pos used

theorem bankClear_idle (free : bankState n s ≠ 3) (idle : b.st ≠ 1) : bankClear s = bankPut n ⟨b.cfg, 0, 0, 0, [], 0, 0⟩ s := by
  simp only [bankClear, sel, bank]
  exact (if_neg free).trans (if_neg idle)

end

/-- R188's checks in order: the bank is not in use, the rate and the delay are legal, the count is the tables', each phase sums to 2^23. -/
theorem bankCheck_passes {n rate d : Nat} {b : SrcBank} {s : State} (free : bankState n s ≠ 3) (rates : rate < 4) (delay : d ≠ 0)
    (short : srcN d rate ≤ 384) (count : b.count = 2 * srcN d rate) (ingress : sumsOk (srcP rate false) (b.coefs.take (srcN d rate)) = true)
    (egress : sumsOk (srcP rate true) (b.coefs.drop (srcN d rate)) = true) : bankCheck n b rate d s = 0 := by
  simp [bankCheck, free, Nat.not_le.mpr rates, delay, Nat.not_lt.mpr short, count, ingress, egress]

/-- A command whose effect is to put a bank answers a next state with that bank. -/
theorem next_bankPut {i : Instr} {n : Nat} {b : SrcBank} {s t : State} (run : exec i s = .next t) (puts : t = bankPut n b s) :
    ∃ t, exec i s = .next t ∧ srcBank n t = b := ⟨t, run, puts ▸ srcBank_bankPut ..⟩

theorem coefficientBanks : Claims.CoefficientBanks := by
  intro s n b rate d
  refine ⟨fun v free loading room => ?next, fun v free idle => ?first, fun rates delay short free count ingress egress => ?ready,
    fun loading free fails other => ?refused, fun loading => ?abort, fun free idle => ?clear, fun used i row => ?inUse⟩
  case next =>
    have puts : bankCoef v s = bankPut n _ s := bankCoef_next rfl rfl free loading room
    exact ⟨bankCoef v s, rfl, by rw [puts, srcBank_bankPut], (bankCoef_moves v s).toChanges⟩
  case first =>
    have puts : bankCoef v s = bankPut n _ s := bankCoef_first rfl rfl free idle
    exact ⟨bankCoef v s, rfl, by rw [puts, srcBank_bankPut], (bankCoef_moves v s).toChanges⟩
  case ready => exact next_bankPut rfl (bankCommit_ready rfl rfl rfl rfl (bankCheck_passes free rates delay short count ingress egress))
  case refused => exact next_bankPut rfl (bankCommit_refused rfl rfl rfl rfl loading fails other)
  case abort => exact next_bankPut rfl (bankAbort_loading rfl rfl loading)
  case clear => exact next_bankPut rfl (bankClear_idle rfl rfl free idle)
  case inUse =>
    simp only [List.mem_cons, List.not_mem_nil, or_false] at row
    obtain rfl | rfl | rfl := row
    · exact next_bankPut rfl (bankCoef_inUse rfl rfl used)
    · exact next_bankPut rfl (bankCommit_inUse rfl rfl used)
    · exact next_bankPut rfl (bankClear_inUse rfl rfl used)

end Sys2Proof.Machine
end

section
/-! PROOFS. TDM ports (R196, R200 to R203, R398): frames, clocks, pins, the serialiser, DMA requests. -/

namespace Sys2Proof.Machine
open Sys2Proof.Claims

/-! ## A port read back -/

@[simp] theorem tdmPort_tdmPortPut (p : Nat) (t : TdmPort) (s : State) : tdmPort p (tdmPortPut p t s) = t := tget_tset_same ..

theorem tdmPort_of_src {s t : State} (p : Nat) (same : t.src = s.src) : tdmPort p t = tdmPort p s := by rw [tdmPort, same, tdmPort]

theorem Moves.src_eq {ps : List Part} {s t : State} (h : Moves ps s t) (n : Part.src ∉ ps := by decide) : t.src = s.src :=
  h.same .src n

theorem Moves.frm_eq {ps : List Part} {s t : State} (h : Moves ps s t) (n : Part.frm ∉ ps := by decide) : t.frm = s.frm :=
  h.same .frm n

theorem tdmMode_of_frm {s t : State} (p : Nat) (same : t.frm = s.frm) : tdmMode p t = tdmMode p s := by
  rw [tdmMode, planTdmMode, same, tdmMode, planTdmMode]

/-! ## A frame sent (R195, R201) -/

/-- Every table entry of a list of keys set from its key. -/
theorem tfind_foldl_tset {α : Type} (f : Nat → α) (l : List Nat) (t : Tbl α) (k : Nat) :
    tfind (l.foldl (fun u n => tset u n (f n)) t) k = if k ∈ l then some (f k) else tfind t k := by
  induction l generalizing t with
  | nil => simp
  | cons n l ih =>
    rw [List.foldl_cons, ih]
    by_cases later : k ∈ l
    · simp [later]
    · by_cases now : k = n
      · simp [now, tfind_tset_same]
      · simp [later, now, tfind_tset_other _ _ _ _ now]

theorem mem_of_tfind {α : Type} {t : Tbl α} {k : Nat} {v : α} (found : tfind t k = some v) : (k, v) ∈ t := by
  induction t with
  | nil => cases found
  | cons e r ih =>
    obtain ⟨j, w⟩ := e
    rw [tfind] at found
    split at found
    · cases found
      exact ‹j = k› ▸ List.mem_cons_self
    · exact List.mem_cons_of_mem _ (ih found)

/-- The transmit slots bound on a port. -/
def boundSlots (p : Nat) (s : State) : List Nat := (portLegs p s).filterMap fun l => (tdmBind l s).map TdmBind.tx

theorem mem_boundSlots {p leg : Nat} {b : TdmBind} {s : State} (bound : tdmBind leg s = some b) (port : b.port = p) :
    b.tx ∈ boundSlots p s := by
  have here : leg ∈ portLegs p s :=
    List.mem_map.mpr ⟨(leg, b), List.mem_filter.mpr ⟨mem_of_tfind bound, decide_eq_true port⟩, rfl⟩
  exact List.mem_filterMap.mpr ⟨leg, here, by rw [bound]; rfl⟩

/-- The bound slots with what a frame of the FIFO holds for them. -/
def fifoSlots (p : Nat) (g : List Nat) (s : State) : Tbl Nat :=
  (boundSlots p s).foldl (fun u n => tset u n (g.getD n 0 % 2 ^ tdmWidth (tdmMode p s))) []

theorem tfind_fifoSlots {p leg : Nat} {b : TdmBind} {s : State} (g : List Nat) (bound : tdmBind leg s = some b) (port : b.port = p) :
    tfind (fifoSlots p g s) b.tx = some (g.getD b.tx 0 % 2 ^ tdmWidth (tdmMode p s)) := by
  rw [fifoSlots, tfind_foldl_tset fun n => g.getD n 0 % 2 ^ tdmWidth (tdmMode p s), if_pos (mem_boundSlots bound port)]

/-- The state after a frame is sent: its slots on the pins, what is left of the port. -/
def tdmSentAs (p : Nat) (sent : Tbl Nat) (t : TdmPort) (s : State) : State :=
  cinc (tdmCnt p 8) { tdmPortPut p t s with out := .tdm p sent (tdmWave p sent s) :: s.out }

section
variable {p : Nat} {s : State}

theorem tdmSend_fifo {g : List Nat} {rest : List (List Nat)} (fifo : (tdmPort p s).fifo = g :: rest)
    (dx : fon (R.SRC_TDM_STATUS_pin_dx p) s = false) : tdmSend p s =
      tdmSentAs p (fifoSlots p g s) { tdmPort p s with fifo := rest, txNow := (tdmPort p s).txNow.drop 1 } s := by
  simp only [tdmSend, fifo, dx]
  rfl

theorem tdmSend_mix {f : Tbl Nat} {rest : List (Tbl Nat)} (fifo : (tdmPort p s).fifo = []) (mix : (tdmPort p s).txNow = f :: rest) :
    tdmSend p s = tdmSentAs p (if fon (R.SRC_TDM_STATUS_pin_dx p) s = true then f.map fun q => (q.1, 0) else f)
      { tdmPort p s with txNow := rest } s := by
  simp only [tdmSend, fifo, mix]
  rfl

theorem tdmWave_faulted (sent : Tbl Nat) (dx : fon (R.SRC_TDM_STATUS_pin_dx p) s = true) : (tdmWave p sent s).dx = [] := by
  simp only [tdmWave, dx]
  rfl

/-- Sending leaves the frames received. -/
theorem tdmSend_rx : (tdmPort p (tdmSend p s)).rx = (tdmPort p s).rx := by
  have port (t : State) (o : List Output) : tdmPort p (cinc (tdmCnt p 8) { t with out := o }) = tdmPort p t := rfl
  rw [tdmSend, port]
  split
  · rw [tdmPort_tdmPortPut]
  · rw [tdmPort_tdmPortPut]
  · rfl

end

/-! ## A frame received (R196) -/

section
variable {p : Nat} {slots : List Nat} {s : State}

theorem tdmTake_room (room : (tdmPort p s).rx.length < tdmFrames (tdmMode p s)) (takeover : (tdmPort p s).takeover = false) :
    tdmTake p slots s = tdmPortPut p { tdmPort p s with
      rx := (tdmPort p s).rx ++ [slots]
      frames := (tdmPort p s).frames + 1
      ready := true } (cinc (tdmCnt p 0) s) := by
  simp [tdmTake, Nat.not_le.mpr room, takeover]

theorem tdmSlip_rx (n : Nat) (drop : Bool) (legs : List Nat) : (tdmPort p (tdmSlip p n drop legs s)).rx = (tdmPort p s).rx := by
  unfold tdmSlip
  split
  · rfl
  · extract_lets s1 s2 s3 t k
    have cleared : Moves [.cnt] s s2 := Moves.foldl (fun _ _ => cadd_moves ..) (cadd_moves ..)
    have counted : s3.src = s.src := by
      refine Moves.src_eq (ps := [.mem, .regs, .cnt, .hif, .obs, .ddr, .out]) (Moves.ite (Moves.foldl (fun _ _ => ?_)
        (cleared.mono (by decide))) (cleared.mono (by decide)))
      split
      · exact determinismLost_moves ..
      · exact Moves.refl ..
    have received : t.rx = (tdmPort p s).rx := congrArg TdmPort.rx (tdmPort_of_src p counted)
    split
    · rw [tdmPort_of_src p (raiseUnit_moves ..).src_eq, tdmPort_tdmPortPut]
      exact received
    · rw [tdmPort_tdmPortPut]
      exact received

/-- A frame beyond a block's is dropped. -/
theorem tdmTake_full (full : tdmFrames (tdmMode p s) ≤ (tdmPort p s).rx.length) :
    (tdmPort p (tdmTake p slots s)).rx = (tdmPort p s).rx := by
  simp only [tdmTake, decide_eq_true full]
  split
  · rfl
  · rw [if_pos trivial, tdmSlip_rx, tdmPort_tdmPortPut]

theorem exec_tdmFrame (run : tdmRun p s = true) : exec (.tdmFrame p slots) s = .next (tdmTake p slots (tdmSend p s)) :=
  congrArg Host.Outcome.next (if_pos run)

theorem exec_tdmFrame_room {sent : Tbl Nat} {t : TdmPort} (run : tdmRun p s = true) (sends : tdmSend p s = tdmSentAs p sent t s)
    (room : t.rx.length < tdmFrames (tdmMode p s)) (takeover : t.takeover = false) : ∃ u, exec (.tdmFrame p slots) s = .next u ∧
      u.out = .tdm p sent (tdmWave p sent s) :: s.out ∧ tdmPort p u = { t with
        rx := t.rx ++ [slots]
        frames := t.frames + 1
        ready := true } := by
  have port : tdmPort p (tdmSentAs p sent t s) = t := tdmPort_tdmPortPut ..
  have takes := tdmTake_room (slots := slots) (s := tdmSentAs p sent t s) (by rw [port]; exact room) (by rw [port]; exact takeover)
  refine ⟨_, exec_tdmFrame run, ?_, ?_⟩
  · rw [sends, takes]
    rfl
  · rw [sends, takes, tdmPort_tdmPortPut, port]

theorem exec_tdmFrame_full (run : tdmRun p s = true) (full : tdmFrames (tdmMode p s) ≤ (tdmPort p s).rx.length) :
    ∃ u, exec (.tdmFrame p slots) s = .next u ∧ (tdmPort p u).rx = (tdmPort p s).rx := by
  refine ⟨_, exec_tdmFrame run, ?_⟩
  rw [tdmTake_full, tdmSend_rx]
  rw [tdmMode_of_frm p (tdmSend_moves ..).frm_eq, tdmSend_rx]
  exact full

end

/-! ## Clocks -/

theorem exec_tdmClockLoss {p : Nat} {s : State} (run : tdmRun p s = true) (slave : fon (R.SRC_TDM_CFG_master p) s = false) :
    exec (.tdmClockLoss p) s = .next (raiseUnit EV_TDM_CLOCK_LOST (unitTdm p) p
      (fset (R.SRC_TDM_STATUS_state p) 1 (tdmPortPut p { tdmPort p s with clk := false } s))) :=
  congrArg Host.Outcome.next (if_pos (by simp [run, slave]))

theorem exec_tdmClockRestored {p : Nat} {s : State} (waits : fget (R.SRC_TDM_STATUS_state p) s = 1) :
    exec (.tdmClockRestored p) s = .next (tdmSettle p (tdmPortPut p { tdmPort p s with clk := true } s)) :=
  congrArg Host.Outcome.next (if_pos waits)

/-! ## Pins (R201) -/

/-- The pin fields stand in their port's status register, behind the port's state. -/
theorem pinFld_place (p pin : Nat) : ∃ lo, 8 ≤ lo ∧ lo < 16 ∧ pinFld p pin = ⟨0x241004 + 256 * p, lo, 2, 0⟩ := by
  unfold pinFld
  split
  · exact ⟨8, by decide, by decide, rfl⟩
  · exact ⟨10, by decide, by decide, rfl⟩
  · exact ⟨12, by decide, by decide, rfl⟩
  · exact ⟨14, by decide, by decide, rfl⟩

/-- A port's settling writes its own state, and whether its DMA channels serve it (R196, R388); no other field. -/
theorem fget_tdmSettle_other {f : Fld} {p : Nat} {s : State} (state : fkey f ≠ fkey (R.SRC_TDM_STATUS_state p))
    (channel : ∀ c, fkey f ≠ fkey (R.DMA_CH_STATUS_cfg_err c)) : fget f (tdmSettle p s) = fget f s := by
  unfold tdmSettle
  extract_lets on bad wrong s1
  rw [fget_fset_other _ _ _ _ state]
  have shown (l : List (Nat × Nat)) (x : State) :
      fget f (l.foldl (fun s q => fset (R.DMA_CH_STATUS_cfg_err q.1) (b2n (wrong.contains q)) s) x) = fget f x := by
    induction l generalizing x with
    | nil => rfl
    | cons q l ih => rw [List.foldl_cons, ih, fget_fset_other _ _ _ _ (channel q.1)]
  unfold s1
  split
  · exact shown ..
  · rfl

theorem fget_pinFld_tdmSettle {p : Nat} (pin : Nat) (s : State) (port : p < 4) :
    fget (pinFld p pin) (tdmSettle p s) = fget (pinFld p pin) s := by
  have below : p ≤ 3 := Nat.le_of_lt_succ port
  obtain ⟨lo, least, most, place⟩ := pinFld_place p pin
  rw [place]
  refine fget_tdmSettle_other ?_ fun c => ?_
  · simp only [fkey, R.SRC_TDM_STATUS_state]
    omega
  · simp only [fkey, R.DMA_CH_STATUS_cfg_err]
    omega

/-- A pin's code set, its test noted, and, of a clock pin, the port brought to the state that follows. -/
def pinCoded (p pin code : Nat) (s : State) : State :=
  let u := fset (pinFld p pin) code (pinTested p pin s)
  if pin < 2 then tdmSettle p u else u

section
variable {p pin code : Nat} {s : State}

theorem fget_pinCoded (port : p < 4) (small : code < 4) : fget (pinFld p pin) (pinCoded p pin code s) = code := by
  have width : (pinFld p pin).w = 2 := by
    obtain ⟨lo, -, -, place⟩ := pinFld_place p pin
    rw [place]
  have coded : fget (pinFld p pin) (fset (pinFld p pin) code (pinTested p pin s)) = code := by
    rw [fget_fset, width]
    exact Nat.mod_eq_of_lt small
  unfold pinCoded
  extract_lets u
  split
  · rw [fget_pinFld_tdmSettle pin u port, coded]
  · exact coded

theorem pinSet_fault (changes : fget (pinFld p pin) s ≠ code) (fault : code ≠ 0) : pinSet p pin code s =
    raiseUnit EV_TDM_PIN_FAULT (unitTdm p) (p + pin * 4 + code * 16) (cinc (tdmCnt p 0x20) (pinCoded p pin code s)) :=
  (if_neg changes).trans (if_neg fault)

theorem pinSet_clear (faulted : fget (pinFld p pin) s ≠ 0) : pinSet p pin 0 s =
    raiseUnit EV_TDM_PIN_CLEAR (unitTdm p) (p + pin * 4 + fget (pinFld p pin) s * 16) (pinCoded p pin 0 s) :=
  (if_neg faulted).trans (if_pos rfl)

/-- A pin found faulted: its event, raised over a state that shows its code. -/
theorem pinSet_reports {i : Instr} (run : exec i s = .next (pinSet p pin code s)) (port : p < 4) (fault : code ≠ 0) (small : code < 4)
    (changes : fget (pinFld p pin) s ≠ code) : ∃ u, exec i s =
      .next (raiseUnit EV_TDM_PIN_FAULT (unitTdm p) (p + pin * 4 + code * 16) u) ∧ fget (pinFld p pin) u = code :=
  ⟨_, run.trans (congrArg _ (pinSet_fault changes fault)), (fget_cinc ..).trans (fget_pinCoded port small)⟩

theorem exec_tdmPinShort {high : Bool} (driven : pinDriven p pin s = true) :
    exec (.tdmPinShort p pin high) s = .next (pinSet p pin (if high then 2 else 3) s) := congrArg Host.Outcome.next (if_pos driven)

theorem exec_tdmPinTest {up down : Bool} (known : pin ≤ 3) (undriven : pinDriven p pin s = false) :
    exec (.tdmPinTest p pin up down) s =
      .next (pinSet p pin (if up && !down then 1 else if pin = 3 then 0 else if up then 2 else 3) s) :=
  congrArg Host.Outcome.next (if_neg (by simp [undriven, Nat.not_lt.mpr known]))

theorem exec_tdmPinRetest {pass : Bool} (known : pin ≤ 3) (faulted : fget (pinFld p pin) s ≠ 0)
    (due : ∀ a, tfind (tdmPort p s).tested pin = some a → 2000 ≤ stampSub s.clk.stamp a) :
    exec (.tdmPinRetest p pin pass) s = .next (if pass then pinSet p pin 0 s else pinTested p pin s) := by
  change execTdmPinRetest p pin pass s = _
  have pins : ¬ 3 < pin := Nat.not_lt.mpr known
  cases last : tfind (tdmPort p s).tested pin with
  | none => simp [execTdmPinRetest, fon, pins, faulted, last]
  | some a => simp [execTdmPinRetest, fon, pins, faulted, last, due a last]

theorem exec_tdmPinRetest_early {pass : Bool} {a : Nat} (last : tfind (tdmPort p s).tested pin = some a)
    (early : stampSub s.clk.stamp a < 2000) : exec (.tdmPinRetest p pin pass) s = .next s := by
  change execTdmPinRetest p pin pass s = _
  simp [execTdmPinRetest, last, Nat.not_le.mpr early]

end

/-! ## Swap and takeover (R202, R203) -/

theorem exec_tdmAutoSwap {p b0 b1 f0 f1 : Nat} {s : State} (slave : fon (R.SRC_TDM_CFG_master p) s = false)
    (may : fon (R.SRC_TDM_CFG_auto_swap p) s = true) (straight : fon (R.SRC_TDM_STATUS_swapped p) s = false)
    (first : countsSwapped (tdmMode p s) (b0, f0) = true) (second : countsSwapped (tdmMode p s) (b1, f1) = true) :
    exec (.tdmAutoSwap ⟨p, [b0, b1], [f0, f1]⟩) s =
      .next (raiseUnit EV_TDM_SWAPPED (unitTdm p) p (fset (R.SRC_TDM_STATUS_swapped p) 1 s)) :=
  congrArg Host.Outcome.next (if_pos (by simp [slave, may, straight, first, second]))

/-- A declared fault waits among the recoveries. -/
theorem faultDeclare_recov (f : FaultRec) (s : State) : (faultDeclare f s).2.flt.recov ≠ [] := List.append_ne_nil_of_right_ne_nil _ (by simp)

/-- The serialiser's fault declared. -/
def dupDeclared (p : Nat) (s : State) : State :=
  (faultDeclare ⟨unitTdm p, 2, 2, 0, 0, 0, p, 0xFF, severity EV_TDM_DUP_TAKEOVER p, 0⟩ s).2

theorem exec_tdmDupTakeover (p : Nat) (s : State) : exec (.tdmDupTakeover p) s = .next (raiseUnit EV_TDM_DUP_TAKEOVER (unitTdm p) p
    (tdmPortPut p { tdmPort p s with takeover := true } (dupDeclared p s))) := by
  rw [← tdmPort_of_src p (show (dupDeclared p s).src = s.src from (faultDeclare_moves ..).src_eq)]
  rfl

/-! ## DMA requests (R200, R398) -/

section
variable {p : Nat} {s : State}

theorem exec_tdmDmaRequest {tx : Bool} (port : p < 4) (run : tdmRun p s = true)
    (wants : tx = true ∧ (tdmPort p s).fifo.length < 4 ∨ tx = false ∧ (tdmPort p s).ready = true) :
    exec (.tdmDmaRequest p tx) s = .next (portReqPut p tx true s) := by
  refine congrArg Host.Outcome.next (if_pos ?_)
  obtain ⟨rfl, room⟩ | ⟨rfl, ready⟩ := wants
  · simp [port, run, room]
  · simp [port, run, ready]

theorem portReq_portReqPut_tx : portReq (2 * p + 1) (portReqPut p true false s) = false := by
  have half : (2 * p + 1) / 2 = p := by omega
  have odd : (2 * p + 1) % 2 = 1 := by omega
  simp only [portReq, portReqPut, half, odd, tdmPort_tdmPortPut]
  rfl

theorem exec_periphWithdraw_alone {tx : Bool} {n : Nat} (port : p < 4) (stopped : tdmRun p s = false)
    (asks : portReq (2 * p + b2n tx) s = true) (alone : tfind s.dma.cur (portChannel p tx s) = none) :
    exec (.periphWithdraw p tx n) s = .next (portReqPut p tx false s) := by
  have still : tfind (portReqPut p tx false s).dma.cur (portChannel p tx (portReqPut p tx false s)) = none := alone
  change execPeriphWithdraw p tx n s = _
  simp only [execPeriphWithdraw, still]
  rw [if_neg (by simp [port, stopped, asks])]

/-- A transmit burst withdrawn before its end: the words it has consumed stay consumed (R398). -/
theorem exec_periphWithdraw_burst {n c : Nat} {d : DmaDesc} (channel : portChannel p true s = c) (port : p < 4)
    (stopped : tdmRun p s = false) (asks : portReq (2 * p + 1) s = true) (running : tfind s.dma.cur c = some d) (kind : d.kind = 2)
    (serves : fget (R.DMA_CH_CFG_periph c) s = 2 * p + 1) (busy : dmaSt c s = dmRun)
    (passes : descCheck c d (portReqPut p true false s) = 0) (less : d.consumed + 4 * n < d.length) :
    let u := cinc (dmaCnt c 0x60) (cinc (tdmCnt p 0x28) (portReqPut p true false s))
    exec (.periphWithdraw p true n) s = .next { u with dma := { u.dma with cur := tset u.dma.cur c { d with
      withdrawals := d.withdrawals + 1
      consumed := d.consumed + 4 * n } } } := by
  intro u
  have channel : portChannel p true (portReqPut p true false s) = c := channel
  have running : tfind (portReqPut p true false s).dma.cur c = some d := running
  have serves : fget (R.DMA_CH_CFG_periph c) (portReqPut p true false s) = 2 * p + 1 := serves
  have busy : dmaSt c (portReqPut p true false s) = dmRun := busy
  change execPeriphWithdraw p true n s = _
  simp only [execPeriphWithdraw, channel, running]
  rw [if_neg (by simp [port, stopped, asks, b2n]), if_neg (by simp [kind, serves, busy, passes, b2n]), if_pos trivial,
    Nat.min_eq_right (Nat.le_of_lt less), if_neg (Nat.ne_of_lt less)]

end

theorem tdmPorts : Claims.TdmPorts := by
  intro p s port t
  refine ⟨?mix, ?fifo, ?faulted, ?full, ?loss, ?restored, ?short, ?test, ?retest, ?early, ?swap, ?takeover, ?request, ?withdraw, ?burst⟩
  case mix =>
    intro slots f rest run fifo mix dx room takeover
    have sends := tdmSend_mix fifo mix
    rw [if_neg (by simp [dx])] at sends
    exact exec_tdmFrame_room run sends room takeover
  case fifo =>
    intro slots g rest run fifo dx room takeover
    obtain ⟨u, runs, out, after⟩ := exec_tdmFrame_room (slots := slots) run (tdmSend_fifo fifo dx) room takeover
    exact ⟨u, _, runs, out, by rw [after], by rw [after], fun leg b bound here => tfind_fifoSlots g bound here⟩
  case faulted =>
    intro slots sent run dx fifo mix room takeover
    have sends := tdmSend_mix fifo mix
    rw [if_pos dx] at sends
    obtain ⟨u, runs, out, -⟩ := exec_tdmFrame_room (slots := slots) run sends room takeover
    exact ⟨u, runs, out, tdmWave_faulted sent dx⟩
  case full => exact fun slots run full => exec_tdmFrame_full run full
  case loss =>
    intro run slave
    exact ⟨_, exec_tdmClockLoss run slave, fget_fset .., congrArg TdmPort.clk (tdmPort_tdmPortPut ..),
      (Moves.seq (fset_moves ..) (by decide) ((tdmPortPut_moves ..).mono (by decide))).toChanges⟩
  case restored => exact fun waits => exec_tdmClockRestored waits
  case short =>
    intro pin high driven changes
    exact pinSet_reports (exec_tdmPinShort driven) port (by cases high <;> decide) (by cases high <;> decide) changes
  case test =>
    intro pin up down code known undriven level changes
    have reads : (if up && !down then 1 else if pin = 3 then 0 else if up then 2 else 3) = code := by
      obtain ⟨rfl, rfl, rfl⟩ | ⟨rfl, input, rfl, rfl⟩ | ⟨rfl, input, rfl⟩ := level
      · rfl
      · simp [input]
      · simp [input]
    exact pinSet_reports (reads ▸ exec_tdmPinTest known undriven) port (by omega) (by omega) changes
  case retest =>
    intro pin known faulted due
    exact ⟨⟨_, (exec_tdmPinRetest known faulted due).trans (congrArg _ (pinSet_clear faulted)), fget_pinCoded port (by decide)⟩,
      exec_tdmPinRetest known faulted due⟩
  case early => exact fun pin pass a last early => exec_tdmPinRetest_early last early
  case swap => exact fun b0 b1 f0 f1 slave may straight first second => exec_tdmAutoSwap slave may straight first second
  case takeover => exact ⟨_, exec_tdmDupTakeover p s, tdmPort_tdmPortPut .., faultDeclare_recov _ _⟩
  case request => exact fun tx run wants => exec_tdmDmaRequest port run wants
  case withdraw => exact fun tx n stopped asks alone => exec_periphWithdraw_alone port stopped asks alone
  case burst =>
    intro n d c stopped asks running kind serves busy passes less
    exact ⟨_, exec_periphWithdraw_burst rfl port stopped asks running kind serves busy passes less, portReq_portReqPut_tx,
      tfind_tset_same .., busy⟩

/-- Settles O30, from what each command leaves of its bank and from what each event leaves of its port. -/
theorem conversion : Obligations.Conversion := ⟨coefficientBanks, tdmPorts⟩

end Sys2Proof.Machine
end

section
/-! PROOFS. The 32-bit words of the Tumbler's instructions: the fields of each format, and that encoding and decoding agree (R213 to R216). -/

namespace Sys2Proof.Machine
open Sys2Proof.Claims

/-! ## Fields -/

theorem flag_lt (b : Bool) : flag b < 2 := by cases b <;> decide

@[simp] theorem flag_eq_one (b : Bool) : flag b = 1 ↔ b = true := by cases b <;> decide

@[simp] theorem flag_false : flag false = 0 := rfl

theorem flag_decide {n : Nat} (h : n < 2) : flag (decide (n = 1)) = n := by
  obtain rfl | rfl : n = 0 ∨ n = 1 := by omega
  · rfl
  · rfl

theorem field_lt (w lo n : Nat) : field w lo n < 2 ^ n := Nat.mod_lt _ (Nat.two_pow_pos n)

@[simp] theorem flag_field (w lo : Nat) : flag (decide (field w lo 1 = 1)) = field w lo 1 := flag_decide (field_lt w lo 1)

theorem field_two_eq_three {w lo : Nat} (no0 : field w lo 2 ≠ 0) (no1 : field w lo 2 ≠ 1) (no2 : field w lo 2 ≠ 2) : field w lo 2 = 3 := by
  have := field_lt w lo 2
  omega

/-- Two fields beside each other are one. -/
theorem field_split (w lo n m : Nat) : field w lo (n + m) = field w lo n + 2 ^ n * field w (lo + n) m := by
  simp only [field, Nat.pow_add, Nat.mod_mul, Nat.div_div_eq_div_mul]

theorem field_whole {w : Nat} (fits : w < 2 ^ 32) : field w 0 32 = w := by
  rw [field, Nat.pow_zero, Nat.div_one, Nat.mod_eq_of_lt fits]

theorem field_zero (w lo : Nat) : field w lo 0 = 0 := Nat.mod_one _

/-! ## The ALU format -/

section
variable {op d a b sh : Nat} (s : Bool) (hop : op < 64) (hd : d < 32) (ha : a < 32) (hb : b < 32) (hsh : sh < 64)
include hop hd ha hb hsh

theorem aluWord_lt : aluWord op s d a b sh < 4294967296 := by
  have := flag_lt s
  simp only [aluWord]
  omega

theorem field_aluWord : let w := aluWord op s d a b sh
    field w 30 2 = 0 ∧ field w 24 6 = op ∧ field w 23 1 = flag s ∧ field w 18 5 = d ∧ field w 13 5 = a ∧ field w 8 5 = b ∧
      field w 2 6 = sh ∧ field w 0 2 = 0 := by
  have := flag_lt s
  simp only [field, aluWord]
  omega

end

/-- A word of the ALU format is its fields put together. -/
theorem aluWord_field {w : Nat} (fits : w < 2 ^ 32) (fmt : field w 30 2 = 0) (low : field w 0 2 = 0) :
    aluWord (field w 24 6) (decide (field w 23 1 = 1)) (field w 18 5) (field w 13 5) (field w 8 5) (field w 2 6) = w := by
  have := field_whole fits
  have := field_split w 0 2 30
  have := field_split w 2 6 24
  have := field_split w 8 5 19
  have := field_split w 13 5 14
  have := field_split w 18 5 9
  have := field_split w 23 1 8
  have := field_split w 24 6 2
  simp only [Nat.reduceAdd] at *
  simp only [aluWord, flag_field]
  omega

theorem tmbEncode_decodeAlu {c w : Nat} {i : Instr} (fits : w < 2 ^ 32) (fmt : field w 30 2 = 0) (dec : decodeAlu c w = some i) :
    tmbEncode i = some w := by
  simp only [decodeAlu] at dec
  split at dec
  case isTrue => cases dec
  case isFalse low =>
    have word := aluWord_field fits fmt (Decidable.not_not.mp low)
    split at dec
    case h_30 => cases dec
    all_goals
      obtain ⟨unused, ⟨⟩⟩ := Option.ite_none_right_eq_some.mp dec
      refine congrArg some (Eq.trans ?_ word)
    case h_1 op =>
      have := field_split w 2 6 16
      have := field_split w 8 5 11
      have := field_split w 13 5 6
      have := field_split w 18 5 1
      simp only [Nat.reduceAdd] at *
      have rest : field w 23 1 = 0 ∧ field w 18 5 = 0 ∧ field w 13 5 = 0 ∧ field w 8 5 = 0 ∧ field w 2 6 = 0 := by omega
      simp [op, rest]
    case h_23 op =>
      obtain ⟨-, rnd, -⟩ := unused
      simp [op, flag_decide rnd]
    all_goals simp [*]

/-! ## The immediate format -/

section
variable {op d src imm : Nat} (s : Bool) (hop : op < 32) (hd : d < 32) (hsrc : src < 32) (himm : imm < 16384)
include hop hd hsrc himm

theorem immWord_lt : immWord op s d src imm < 4294967296 := by
  have := flag_lt s
  simp only [immWord]
  omega

theorem field_immWord : let w := immWord op s d src imm
    field w 30 2 = 1 ∧ field w 25 5 = op ∧ field w 24 1 = flag s ∧ field w 19 5 = d ∧ field w 14 5 = src ∧ field w 0 14 = imm := by
  have := flag_lt s
  simp only [field, immWord]
  omega

end

theorem memSrc_lt (y post : Bool) {p : Nat} (hp : p < 8) : memSrc y post p < 32 := by
  have := flag_lt y
  have := flag_lt post
  simp only [memSrc]
  omega

/-- The src field of a load or store holds the memory, the post-modification and Pn. -/
theorem field_memWord {op d p imm : Nat} (y post : Bool) (hp : p < 8) (himm : imm < 16384) :
    let w := immWord op false d (memSrc y post p) imm
    field w 18 1 = flag y ∧ field w 17 1 = flag post ∧ field w 14 3 = p := by
  have := flag_lt y
  have := flag_lt post
  simp only [field, immWord, memSrc, flag_false]
  omega

theorem memSrc_field (w : Nat) : memSrc (decide (field w 18 1 = 1)) (decide (field w 17 1 = 1)) (field w 14 3) = field w 14 5 := by
  simp only [memSrc, flag_field]
  simp only [field]
  omega

/-- MOVHI's immediate takes the src field's low bits as well. -/
theorem field_immWord_wide {op d imm : Nat} (hop : op < 32) (hd : d < 32) (himm : imm < 65536) : let w := immWord op false d 0 imm
    w < 4294967296 ∧ field w 30 2 = 1 ∧ field w 25 5 = op ∧ field w 24 1 = 0 ∧ field w 19 5 = d ∧ field w 16 3 = 0 ∧
      field w 0 16 = imm := by
  simp only [field, immWord, flag_false]
  omega

/-- A word of the immediate format is its fields put together. -/
theorem immWord_field {w : Nat} (fits : w < 2 ^ 32) (fmt : field w 30 2 = 1) :
    immWord (field w 25 5) (decide (field w 24 1 = 1)) (field w 19 5) (field w 14 5) (field w 0 14) = w := by
  have := field_whole fits
  have := field_split w 0 14 18
  have := field_split w 14 5 13
  have := field_split w 19 5 8
  have := field_split w 24 1 7
  have := field_split w 25 5 2
  simp only [Nat.reduceAdd] at *
  simp only [immWord, flag_field]
  omega

theorem immWord_field_wide {w : Nat} (high : field w 16 3 = 0) (op : Nat) (s : Bool) :
    immWord op s (field w 19 5) 0 (field w 0 16) = immWord op s (field w 19 5) (field w 14 5) (field w 0 14) := by
  simp only [immWord, field] at *
  omega

theorem tmbEncode_decodeImm {c w : Nat} {i : Instr} (fits : w < 2 ^ 32) (fmt : field w 30 2 = 1) (dec : decodeImm c w = some i) :
    tmbEncode i = some w := by
  simp only [decodeImm] at dec
  have word := immWord_field fits fmt
  split at dec
  case h_1 op =>
    obtain rfl := Option.some.inj dec
    exact congrArg some (Eq.trans (by rw [op]) word)
  case h_22 => cases dec
  all_goals
    obtain ⟨unused, ⟨⟩⟩ := Option.ite_none_right_eq_some.mp dec
    refine congrArg some (Eq.trans ?_ word)
  case h_6 op =>
    obtain ⟨plain, high⟩ := unused
    simp [op, plain, immWord_field_wide high]
  all_goals simp [memSrc_field, *]

/-! ## The control format -/

section
variable {op creg reg low : Nat} (hop : op < 64) (hcreg : creg < 64) (hreg : reg < 32) (hlow : low < 8192)
include hop hcreg hreg hlow

theorem ctlWord_lt : ctlWord op creg reg low < 4294967296 := by
  simp only [ctlWord]
  omega

theorem field_ctlWord : let w := ctlWord op creg reg low
    field w 30 2 = 2 ∧ field w 24 6 = op ∧ field w 18 6 = creg ∧ field w 13 5 = reg ∧ field w 0 13 = low := by
  simp only [field, ctlWord]
  omega

end

/-- A word of the control format whose fields but the low one are 0: its other bits are 0 from any bit on above its operand. -/
theorem field_lowWord {op low : Nat} (hop : op < 64) (hlow : low < 8192) : let w := ctlWord op 0 0 low
    w < 4294967296 ∧ field w 30 2 = 2 ∧ field w 24 6 = op ∧ field w 0 13 = low ∧ field w 13 11 = 0 ∧
      (low < 16 → field w 4 20 = 0 ∧ field w 0 4 = low) ∧ (low < 8 → field w 3 21 = 0 ∧ field w 0 3 = low) ∧
      (low = 0 → field w 0 24 = 0) := by
  simp only [field, ctlWord]
  omega

/-- A word of the control format is its fields put together. -/
theorem ctlWord_field {w : Nat} (fits : w < 2 ^ 32) (fmt : field w 30 2 = 2) :
    ctlWord (field w 24 6) (field w 18 6) (field w 13 5) (field w 0 13) = w := by
  have := field_whole fits
  have := field_split w 0 13 19
  have := field_split w 13 5 14
  have := field_split w 18 6 8
  have := field_split w 24 6 2
  simp only [Nat.reduceAdd] at *
  simp only [ctlWord]
  omega

/-- Where all bits above the low `n` are 0, so are the fields there, and the low 13 bits are the low `n`. -/
theorem field_of_low {w n : Nat} (place : n = 0 ∨ n = 3 ∨ n = 4 ∨ n = 13) (high : field w n (24 - n) = 0) :
    field w 18 6 = 0 ∧ field w 13 5 = 0 ∧ field w 0 13 = field w 0 n := by
  obtain rfl | rfl | rfl | rfl := place <;>
  · simp only [field, and_true] at *
    omega

theorem tmbEncode_decodeCtl {c w : Nat} {i : Instr} (fits : w < 2 ^ 32) (fmt : field w 30 2 = 2) (dec : decodeCtl c w = some i) :
    tmbEncode i = some w := by
  simp only [decodeCtl] at dec
  have word := ctlWord_field fits fmt
  split at dec
  case h_10 => cases dec
  all_goals
    obtain ⟨unused, ⟨⟩⟩ := Option.ite_none_right_eq_some.mp dec
    refine congrArg some (Eq.trans ?_ word)
  case h_1 op | h_2 op => simp [op, unused]
  case h_3 op | h_4 op => simp [op, field_of_low (n := 3) (by decide) unused]
  case h_5 op => simp [op, field_of_low (n := 4) (by decide) unused]
  case h_6 op | h_7 op => simp [op, field_of_low (n := 0) (by decide) unused, field_zero]
  case h_8 op | h_9 op => simp [op, field_of_low (n := 13) (by decide) unused]

/-! ## The MAC format -/

section
variable {mop acc a b xd xp yd yp : Nat} (s xm ym : Bool) (hmop : mop < 4) (hacc : acc < 2) (ha : a < 32) (hb : b < 32) (hxd : xd < 32)
  (hxp : xp < 4) (hyd : yd < 32) (hyp : yp < 4)
include hmop hacc ha hb hxd hxp hyd hyp

theorem macWord_lt : macWord mop acc s a b xd xp xm yd yp ym < 4294967296 := by
  have := flag_lt s
  have := flag_lt xm
  have := flag_lt ym
  simp only [macWord]
  omega

theorem field_macWord : let w := macWord mop acc s a b xd xp xm yd yp ym
    field w 30 2 = 3 ∧ field w 28 2 = mop ∧ field w 27 1 = acc ∧ field w 26 1 = flag s ∧ field w 21 5 = a ∧ field w 16 5 = b ∧
      field w 11 5 = xd ∧ field w 9 2 = xp ∧ field w 8 1 = flag xm ∧ field w 3 5 = yd ∧ field w 1 2 = yp ∧ field w 0 1 = flag ym := by
  have := flag_lt s
  have := flag_lt xm
  have := flag_lt ym
  simp only [field, macWord]
  omega

end

theorem field_ldpWord {xd xp yd yp : Nat} (xm ym : Bool) (hxd : xd < 32) (hxp : xp < 4) (hyd : yd < 32) (hyp : yp < 4) :
    field (macWord 3 0 false 0 0 xd xp xm yd yp ym) 16 12 = 0 := by
  have := flag_lt xm
  have := flag_lt ym
  simp only [field, macWord, flag_false]
  omega

/-- A word of the MAC format is its fields put together. -/
theorem macWord_field {w : Nat} (fits : w < 2 ^ 32) (fmt : field w 30 2 = 3) :
    macWord (field w 28 2) (field w 27 1) (decide (field w 26 1 = 1)) (field w 21 5) (field w 16 5) (field w 11 5) (field w 9 2)
      (decide (field w 8 1 = 1)) (field w 3 5) (field w 1 2) (decide (field w 0 1 = 1)) = w := by
  have := field_whole fits
  have := field_split w 0 1 31
  have := field_split w 1 2 29
  have := field_split w 3 5 24
  have := field_split w 8 1 23
  have := field_split w 9 2 21
  have := field_split w 11 5 16
  have := field_split w 16 5 11
  have := field_split w 21 5 6
  have := field_split w 26 1 5
  have := field_split w 27 1 4
  have := field_split w 28 2 2
  simp only [Nat.reduceAdd] at *
  simp only [macWord, flag_field]
  omega

theorem tmbEncode_decodeMac {c w : Nat} {i : Instr} (fits : w < 2 ^ 32) (fmt : field w 30 2 = 3) (dec : decodeMac c w = some i) :
    tmbEncode i = some w := by
  simp only [decodeMac] at dec
  have word := macWord_field fits fmt
  split at dec
  case h_4 no0 no1 no2 =>
    obtain ⟨unused, ⟨⟩⟩ := Option.ite_none_right_eq_some.mp dec
    refine congrArg some (Eq.trans ?_ word)
    have mop : field w 28 2 = 3 := field_two_eq_three no0 no1 no2
    have := field_split w 16 5 7
    have := field_split w 21 5 2
    have := field_split w 26 1 1
    simp only [Nat.reduceAdd] at *
    have rest : field w 27 1 = 0 ∧ field w 26 1 = 0 ∧ field w 21 5 = 0 ∧ field w 16 5 = 0 := by omega
    simp [mop, rest]
  all_goals
    rename_i mop
    obtain rfl := Option.some.inj dec
    exact congrArg some (Eq.trans (by rw [mop]) word)

/-! ## Encoding and decoding -/

/-- A word that decodes is the word of what it decodes to. -/
theorem tmbEncode_tmbDecode {c w : Nat} {i : Instr} (fits : w < 2 ^ 32) (dec : tmbDecode c w = some i) : tmbEncode i = some w := by
  unfold tmbDecode at dec
  split at dec
  case h_1 fmt => exact tmbEncode_decodeAlu fits fmt dec
  case h_2 fmt => exact tmbEncode_decodeImm fits fmt dec
  case h_3 fmt => exact tmbEncode_decodeCtl fits fmt dec
  case h_4 no0 no1 no2 => exact tmbEncode_decodeMac fits (field_two_eq_three no0 no1 no2) dec

/-- An instruction's word has 32 bits and decodes to it, on the instruction's own core. -/
theorem tmbDecode_tmbEncode {i : Instr} {w : Nat} (ok : i.wf = true) (fits : Claims.Encodable i) (word : tmbEncode i = some w) :
    w < 2 ^ 32 ∧ ∃ c, tmbDecode c w = some i := by
  cases i
  case tmbNop c =>
    obtain rfl := Option.some.inj word
    exact ⟨by decide, c, by simp [tmbDecode, decodeAlu, aluWord, field]⟩
  case tmbAdd | tmbSub | tmbAnd | tmbOr | tmbXor | tmbShl | tmbShr | tmbShrl | tmbShlv | tmbShrv | tmbMin | tmbMax | tmbAbs | tmbNeg |
      tmbMullo | tmbClz | tmbSext16 | tmbPack | tmbCmplt | tmbCmpeq | tmbCmpltu | tmbRdah | tmbWra | tmbAdda | tmbSuba | tmbClra |
      tmbSat24 =>
    obtain rfl := Option.some.inj word
    simp only [Instr.wf, Bool.and_eq_true, decide_eq_true_eq] at ok
    simp only [Claims.Encodable] at fits
    simp [aluWord_lt, tmbDecode, decodeAlu, field_aluWord, fits, ok]
  case tmbRda c s d acc rnd sh =>
    obtain rfl := Option.some.inj word
    simp only [Instr.wf, Bool.and_eq_true, decide_eq_true_eq] at ok
    simp only [Claims.Encodable] at fits
    have bit := flag_lt rnd
    have wide : flag rnd < 32 := Nat.lt_trans bit (by decide)
    simp [aluWord_lt, tmbDecode, decodeAlu, field_aluWord, wide, bit, fits, ok]
  case tmbAddi | tmbAndi | tmbOri | tmbXori | tmbMovi | tmbCmplti | tmbCmpeqi | tmbBeqz | tmbBnez | tmbBltz | tmbBgez | tmbBr | tmbBlc |
      tmbCall | tmbRet =>
    obtain rfl := Option.some.inj word
    simp only [Instr.wf, Bool.and_eq_true, decide_eq_true_eq, Nat.reducePow] at ok
    simp [immWord_lt, tmbDecode, decodeImm, field_immWord, ok]
  case tmbMovhi c d imm =>
    obtain rfl := Option.some.inj word
    simp only [Instr.wf, Bool.and_eq_true, decide_eq_true_eq, Nat.reducePow] at ok
    simp [tmbDecode, decodeImm, field_immWord_wide, ok]
  case tmbLdw c d y post p imm | tmbLdh c d y post p imm | tmbLdhu c d y post p imm | tmbStw c d y post p imm | tmbSth c d y post p imm =>
    obtain rfl := Option.some.inj word
    simp only [Instr.wf, Bool.and_eq_true, decide_eq_true_eq, Nat.reducePow] at ok
    simp [immWord_lt, tmbDecode, decodeImm, field_immWord, field_memWord, memSrc_lt, ok]
  case tmbMtc | tmbMfc =>
    obtain rfl := Option.some.inj word
    simp only [Instr.wf, Bool.and_eq_true, decide_eq_true_eq] at ok
    simp only [Claims.Encodable] at fits
    simp [ctlWord_lt, tmbDecode, decodeCtl, field_ctlWord, fits, ok]
  case tmbXrd | tmbXwr | tmbWaitx =>
    obtain rfl := Option.some.inj word
    simp only [Instr.wf, Bool.and_eq_true, decide_eq_true_eq] at ok
    have low := Nat.lt_trans ok.2 (show _ < 8192 by decide)
    simp [field_lowWord, tmbDecode, decodeCtl, low, ok]
  case tmbEnd | tmbReti | tmbBkpt | tmbFault =>
    obtain rfl := Option.some.inj word
    simp only [Instr.wf, Bool.and_eq_true, decide_eq_true_eq, Nat.reducePow] at ok
    simp [field_lowWord, tmbDecode, decodeCtl, ok]
  case tmbMac | tmbMsu | tmbMpy =>
    obtain rfl := Option.some.inj word
    simp only [Instr.wf, Bool.and_eq_true, decide_eq_true_eq] at ok
    simp [macWord_lt, tmbDecode, decodeMac, field_macWord, ok]
  case tmbLdp c xd xp xm yd yp ym =>
    obtain rfl := Option.some.inj word
    simp only [Instr.wf, Bool.and_eq_true, decide_eq_true_eq] at ok
    simp [macWord_lt, tmbDecode, decodeMac, field_macWord, field_ldpWord, ok]
  all_goals cases word

/-- Settles O5, from the fields of each format, read and put together. -/
theorem tumblerEncoding : Obligations.TumblerEncoding :=
  ⟨fun _ _ ok fits word => tmbDecode_tmbEncode ok fits word, fun _ _ _ fits dec => tmbEncode_tmbDecode fits dec⟩

end Sys2Proof.Machine
end

section
/-! PROOFS. The instructions of a Tumbler core: arithmetic, logic, accumulators, the multiply formats, loads and stores, branches, the control
format (R208, R212, R214 to R216, R220). -/

namespace Sys2Proof.Machine
open Sys2Proof.Claims

/-! ## Issue (R217, R220, R227) -/

/-- What an instruction that its core takes leaves, by what it comes to: a stall is counted; a fault has used and counted its slot, as has
a branch in a delay slot, which is no instruction there; any other has issued. -/
def comesTo (c : Nat) (after : State → State) (s : State) (r : CoreRes) : State :=
  match r with
  | .stall => cinc (coreCnt c 0x50) s
  | .fault e => coreFault c e (cinc (coreCnt c 0x48) s)
  | .ok k => after (issued c k s)
  | .jump k target => if (coreGet c s).slot.isSome then coreFault c cIllegal (cinc (coreCnt c 0x48) s) else after (branched c k target s)

section
variable {c w : Nat} {i : Item} {s : State}

theorem issue_here {f : Item → Core → CoreRes} {after : State → State} (ready : Ready c i s) (here : (coreGet c s).holds w = .here) :
    issue c w f after s = comesTo c after s (f i (atIssue c s)) := by
  obtain ⟨runs, slots, quiet⟩ := ready
  have few : ¬ i.maxCycles ≤ (coreGet c s).issued := Nat.not_le.mpr slots
  by_cases dbg : coreSt c s = csDebug
  · obtain ⟨noBreak, noStep, noHalt⟩ := quiet dbg
    cases goes : f i (coreGet c s).land <;>
      simp [issue, atIssue, comesTo, runs, here, few, goes, noBreak, noStep, noHalt, issued, branched]
  · cases goes : f i (coreGet c s).land <;> simp [issue, atIssue, comesTo, runs, here, few, goes, dbg, issued, branched]

theorem issueOp_here {f : Core → CoreRes} (ready : Ready c i s) (here : (coreGet c s).holds w = .here) :
    issueOp c w f s = .next (comesTo c id s (f (atIssue c s))) := congrArg _ (issue_here ready here)

theorem issueOp_ok {f : Core → CoreRes} {k : Core} (ready : Ready c i s) (here : (coreGet c s).holds w = .here)
    (goes : f (atIssue c s) = .ok k) : issueOp c w f s = .next (issued c k s) := by
  rw [issueOp_here ready here, goes]
  rfl

/-- A branch outside a delay slot has issued: its delay slot is next, then its target. -/
theorem issueOp_jump {f : Core → CoreRes} {k : Core} {target : Nat} (ready : Ready c i s) (here : (coreGet c s).holds w = .here)
    (outside : (coreGet c s).slot = none) (goes : f (atIssue c s) = .jump k target) : issueOp c w f s = .next (branched c k target s) := by
  rw [issueOp_here ready here, goes, comesTo, if_neg (by simp [outside])]
  rfl

end

/-! ## Results narrowed (R212) -/

theorem satS_eq (w : Nat) (v : Int) : satS w v = if v < -(2 ^ (w - 1) : Nat) then -((2 ^ (w - 1) : Nat) : Int)
    else if ((2 ^ (w - 1) : Nat) : Int) ≤ v then ((2 ^ (w - 1) : Nat) : Int) - 1 else v := by
  simp only [satS, Int.sub_one_lt_iff]

theorem narrowed_satS (w : Nat) (v : Int) : narrowed w true v = BitVec.ofInt w (satS w v) := by
  simp only [narrowed, satS_eq, true_and]
  rw [apply_ite (BitVec.ofInt w), apply_ite (BitVec.ofInt w)]

theorem satS_eq_self (w : Nat) (v : Int) : satS w v = v ↔ ¬ tooWide w v := by
  simp only [satS_eq, tooWide]
  repeat' split
  all_goals omega

theorem markedSv_satS (w : Nat) (v : Int) (k : Core) : markedSv w true v k = if satS w v = v then k else k.sv := by
  simp only [markedSv, satS_eq_self, true_and, ite_not]

theorem fit32_eq (sat : Bool) (v : Int) (k : Core) : k.fit32 sat v = (narrowed 32 sat v, markedSv 32 sat v k) := by
  cases sat
  · simp [Core.fit32, narrowed, markedSv]
  · rw [narrowed_satS, markedSv_satS]; rfl

theorem fit40_eq (sat : Bool) (v : Int) (k : Core) : k.fit40 sat v = (narrowed 40 sat v, markedSv 40 sat v k) := by
  cases sat
  · simp [Core.fit40, narrowed, markedSv]
  · rw [narrowed_satS, markedSv_satS]; rfl

/-! ## Arithmetic and logic (R212, R214) -/

theorem issueOp_arith {c w d : Nat} {i : Item} {s : State} {sat : Bool} {v : Core → Int} (ready : Ready c i s)
    (here : (coreGet c s).holds w = .here) :
    issueOp c w (fun k => wrOk d (k.fit32 sat (v k))) s = .next (arith c d sat (v (atIssue c s)) s) :=
  issueOp_ok ready here (by rw [fit32_eq]; rfl)

/-- Settles O1: each result is the exact one, narrowed. -/
theorem tumblerArithmetic : Obligations.TumblerArithmetic := by
  intro c i s sat d a b sh imm ready
  refine ⟨?add, ?sub, ?shl, ?shlv, ?abs, ?neg, ?mullo, ?addi⟩ <;> intro held <;> have here := held _ rfl
  case abs =>
    rw [show (if sgn c a s < 0 then -sgn c a s else sgn c a s) = (sgn c a s).natAbs by split <;> omega]
    exact issueOp_arith ready here
  all_goals exact issueOp_arith ready here

/-! ## Words -/

theorem toInt_eq_toS {w : Nat} (x : BitVec w) (hw : 0 < w) : x.toInt = toS w x.toNat := by
  have half : 2 ^ w = 2 * 2 ^ (w - 1) := by rw [Nat.mul_comm, Nat.two_pow_pred_mul_two hw]
  rw [BitVec.toInt_eq_toNat_cond, toS, Nat.mod_eq_of_lt x.isLt]
  split <;> split <;> omega

theorem ofNat_b2n (b : Bool) : BitVec.ofNat 32 (b2n b) = asWord b := by cases b <;> rfl

theorem ofInt_min (x y : Word32) : BitVec.ofInt 32 (min x.toInt y.toInt) = if y.toInt < x.toInt then y else x := by
  split
  · rw [Int.min_eq_right (by omega), BitVec.ofInt_toInt]
  · rw [Int.min_eq_left (by omega), BitVec.ofInt_toInt]

theorem ofInt_max (x y : Word32) : BitVec.ofInt 32 (max x.toInt y.toInt) = if x.toInt < y.toInt then y else x := by
  split
  · rw [Int.max_eq_right (by omega), BitVec.ofInt_toInt]
  · rw [Int.max_eq_left (by omega), BitVec.ofInt_toInt]

theorem ofNat_div_two_pow (x : Word32) (n : Nat) : BitVec.ofNat 32 (x.toNat / 2 ^ n) = x >>> n := by
  apply BitVec.eq_of_toNat_eq
  rw [BitVec.toNat_ofNat, BitVec.toNat_ushiftRight, Nat.shiftRight_eq_div_pow, Nat.mod_eq_of_lt (Nat.lt_of_le_of_lt (Nat.div_le_self ..) x.isLt)]

theorem ofNat_append (x y : BitVec 16) : BitVec.ofNat 32 (x.toNat * 65536 + y.toNat) = x ++ y := by
  apply BitVec.eq_of_toNat_eq
  rw [BitVec.toNat_append, ← Nat.shiftLeft_add_eq_or_of_lt y.isLt, Nat.shiftLeft_eq, BitVec.toNat_ofNat, Nat.mod_eq_of_lt]
  have := x.isLt
  have := y.isLt
  omega

theorem ofInt_toS_half (x : Word32) : BitVec.ofInt 32 (toS 16 x.toNat) = (x.setWidth 16).signExtend 32 := by
  rw [BitVec.signExtend, toInt_eq_toS _ (by decide), BitVec.toNat_setWidth, toS, toS, Nat.mod_mod]

/-- What CLZ looks for: the word's highest bit that is set stands below its `n` highest. -/
def leads (x n : Nat) : Bool := decide (x < 2 ^ (32 - n)) && !(decide (n < 32) && decide (x < 2 ^ (31 - n)))

theorem clz32_eq (x : Word32) : clz32 x = ((List.range 33).find? (leads x.toNat)).getD 32 := rfl

theorem below_of_not_leads {x n : Nat} (high : x < 2 ^ (32 - n)) (no : leads x n = false) : n < 32 ∧ x < 2 ^ (31 - n) := by
  rw [leads, decide_eq_true high] at no
  simpa using no

theorem below_of_none_leads {x : Nat} (bound : x < 2 ^ 32) {n : Nat} (no : ∀ m ≤ n, leads x m = false) : n < 32 ∧ x < 2 ^ (31 - n) := by
  induction n with
  | zero => exact below_of_not_leads bound (no 0 (Nat.le_refl 0))
  | succ n ih =>
    obtain ⟨few, below⟩ := ih fun m le => no m (Nat.le_succ_of_le le)
    exact below_of_not_leads (by rwa [show 32 - (n + 1) = 31 - n by omega]) (no (n + 1) (Nat.le_refl _))

theorem leads_clz32 (x : Word32) : clz32 x ≤ 32 ∧ leads x.toNat (clz32 x) = true := by
  rw [clz32_eq]
  cases found : (List.range 33).find? (leads x.toNat) with
  | some n => exact ⟨Nat.le_of_lt_succ (List.mem_range.mp (List.mem_of_find?_eq_some found)), List.find?_some found⟩
  | none =>
    have no := List.find?_eq_none.mp found
    have := below_of_none_leads x.isLt (n := 32) fun m le => by simpa using no m (List.mem_range.mpr (Nat.lt_succ_of_le le))
    omega

/-- The number of leading zeros that CLZ finds is where the word's highest bit stands (R214). -/
theorem clz32_bounds (x : Word32) : clz32 x ≤ 32 ∧ (clz32 x < 32 → 2 ^ (31 - clz32 x) ≤ x.toNat) ∧ x.toNat < 2 ^ (32 - clz32 x) := by
  obtain ⟨le, first⟩ := leads_clz32 x
  simp only [leads, Bool.and_eq_true, Bool.not_eq_true', Bool.and_eq_false_iff, decide_eq_true_eq, decide_eq_false_iff_not,
    Nat.not_lt] at first
  obtain ⟨high, low⟩ := first
  exact ⟨le, fun few => low.resolve_left (Nat.not_le.mpr few), high⟩

section
variable {c w d : Nat} {i : Item} {s : State}

theorem issueOp_plain {v : Core → Word32} {r : Word32} (ready : Ready c i s) (here : (coreGet c s).holds w = .here)
    (is : v (atIssue c s) = r) :
    issueOp c w (fun k => .ok (k.wr d (v k))) s = .next (plain c d r s) :=
  is ▸ issueOp_ok ready here rfl

end

theorem tumblerLogic : Claims.TumblerLogic := by
  intro c i s d a b sh ready
  refine ⟨?nop, ?and, ?or, ?xor, ?shr, ?shrl, ?shrv, ?min, ?max, ?sext, ?pack, ?cmplt, ?cmpeq, ?cmpltu, ?clz⟩
  case nop => exact fun held => issueOp_ok ready (held _ rfl) rfl
  case and | or | xor | shr | shrv => exact fun held => issueOp_plain ready (held _ rfl) rfl
  case shrl => exact fun held => issueOp_plain ready (held _ rfl) (ofNat_div_two_pow ..).symm
  case min => exact fun held => issueOp_plain ready (held _ rfl) (ofInt_min ..).symm
  case max => exact fun held => issueOp_plain ready (held _ rfl) (ofInt_max ..).symm
  case sext => exact fun held => issueOp_plain ready (held _ rfl) (ofInt_toS_half _).symm
  case pack => exact fun held => issueOp_plain ready (held _ rfl) (ofNat_append ..).symm
  case cmplt | cmpltu => exact fun held => issueOp_plain ready (held _ rfl) (ofNat_b2n _)
  case cmpeq => exact fun held => issueOp_plain ready (held _ rfl) ((ofNat_b2n _).trans (by simp only [sgn, BitVec.toInt_inj]))
  case clz =>
    obtain ⟨le, low, high⟩ := clz32_bounds ((atIssue c s).rd a)
    exact ⟨_, le, low, high, fun held => issueOp_plain ready (held _ rfl) rfl⟩

theorem tumblerImmediates : Claims.TumblerImmediates := by
  intro c i s d a imm ready
  refine ⟨?andi, ?ori, ?xori, ?movi, ?movhi, ?cmplti, ?cmpeqi⟩
  case andi | ori | xori | movi => exact fun held => issueOp_plain ready (held _ rfl) rfl
  case movhi =>
    refine fun held => issueOp_plain ready (held _ rfl) ?_
    rw [← ofNat_append, BitVec.toNat_ofNat, BitVec.toNat_setWidth]
    rfl
  case cmplti | cmpeqi => exact fun held => issueOp_plain ready (held _ rfl) (ofNat_b2n _)

/-- Settles O2, from the register forms and the immediate forms. -/
theorem tumblerLogicResults : Obligations.TumblerLogicResults := ⟨tumblerLogic, tumblerImmediates⟩

/-! ## Accumulators (R212, R214) -/

theorem rounded_shift (rnd : Bool) (x : Int) (sh : Nat) : (if rnd then rshr x sh else asr x sh) =
    (x + if rnd = true ∧ 0 < sh then ((2 ^ (sh - 1) : Nat) : Int) else 0) / (2 ^ sh : Nat) := by
  have floor (y : Int) : y.fdiv (2 ^ sh : Nat) = y / (2 ^ sh : Nat) := Int.fdiv_eq_ediv_of_nonneg _ (Int.natCast_nonneg _)
  cases rnd with
  | false => simp only [asr, floor, Bool.false_eq_true, false_and, if_false, Int.add_zero]
  | true =>
    obtain rfl | pos := Nat.eq_zero_or_pos sh
    · simp [rshr]
    · simp only [rshr, pos, Nat.ne_of_gt pos, floor, if_true, if_false, true_and]

theorem ofInt_div_high (x : Acc40) : BitVec.ofInt 32 (x.toInt / (2 ^ 32 : Nat)) = (x.extractLsb' 32 8).signExtend 32 := by
  have high : (x.extractLsb' 32 8).toNat = x.toNat / 2 ^ 32 := by
    rw [BitVec.extractLsb'_toNat, Nat.shiftRight_eq_div_pow]
    have := x.isLt
    omega
  rw [BitVec.signExtend]
  congr 1
  simp only [BitVec.toInt_eq_toNat_cond, high]
  have := x.isLt
  split <;> split <;> omega

theorem satS_eq_max_min (w : Nat) (v : Int) : satS w v = max (-((2 ^ (w - 1) : Nat) : Int)) (min (((2 ^ (w - 1) : Nat) : Int) - 1) v) := by
  have : 0 < 2 ^ (w - 1) := Nat.two_pow_pos _
  simp only [satS]
  repeat' split
  all_goals omega

section
variable {c w acc : Nat} {i : Item} {s : State} {v : Core → Int} {sat : Bool}

theorem issueOp_accum (ready : Ready c i s) (here : (coreGet c s).holds w = .here) (two : acc ≤ 1) :
    issueOp c w (fun k => if 1 < acc then .fault cIllegal else
      let r := k.fit40 sat (v k)
      .ok (r.2.wrAcc acc r.1)) s = .next (accum c acc sat (v (atIssue c s)) s) :=
  issueOp_ok ready here (by rw [if_neg (Nat.not_lt.mpr two), fit40_eq])

end

theorem tumblerAccumulators : Claims.TumblerAccumulators := by
  intro c i s sat rnd d acc a sh ready two
  have one : ¬ 1 < acc := Nat.not_lt.mpr two
  refine ⟨?rda, ?rdah, ?wra, ?adda, ?suba, ?clra, ?sat24⟩
  case rda =>
    intro few held
    rw [← rounded_shift]
    refine issueOp_ok ready (held _ rfl) ?_
    rw [if_neg (by simp [one, few]), fit32_eq]
    rfl
  case rdah =>
    intro held
    rw [ofInt_div_high]
    exact issueOp_ok ready (held _ rfl) (if_neg one)
  case wra | adda | suba => exact fun held => issueOp_accum ready (held _ rfl) two
  case clra => exact fun held => issueOp_ok ready (held _ rfl) (if_neg one)
  case sat24 =>
    intro held
    have clamped : satS 24 (sgn c a s) = max (-((2 ^ 23 : Nat) : Int)) (min (((2 ^ 23 : Nat) : Int) - 1) (sgn c a s)) := satS_eq_max_min 24 _
    rw [markedSv_satS, ← clamped]
    exact issueOp_ok ready (held _ rfl) rfl

/-! ## The multiply formats (R215) -/

theorem slotLoad_ok {y : Bool} {d p : Nat} {k : Core} (ok : d ≠ 0 → accessFault y (k.c p) 2 k = none ∧ loadStalls y (k.c p) 2 k = false) :
    slotLoad y d p k = .ok (if d = 0 then 0 else k.half y (k.c p)) := by
  by_cases none_ : d = 0
  · rw [slotLoad, if_pos none_, if_pos none_]
  · obtain ⟨inside, free⟩ := ok none_
    simp [slotLoad, none_, inside, free]

/-- Where both slots may load, the parallel loads are R215's. -/
theorem parLoads_ok {xd xp yd yp : Nat} {k0 : Core} (ok : SlotsOk xd xp yd yp k0) (xm ym : Bool) (k : Core) :
    parLoads xd xp xm yd yp ym k0 k = .ok (loaded xd xp xm yd yp ym k0 k) := by
  obtain ⟨okX, okY⟩ := ok
  rw [parLoads, slotLoad_ok okX, slotLoad_ok okY]
  by_cases noX : xd = 0 <;> by_cases noY : yd = 0 <;> simp [loaded, slotP, slotMod, noX, noY, ← Nat.add_assoc]

theorem macOp_ok {acc a b xd xp yd yp : Nat} {sat xm ym : Bool} {f : Int → Int → Int} {k : Core} (ok : SlotsOk xd xp yd yp k) :
    macOp f acc sat a b xd xp xm yd yp ym k = .ok (loaded xd xp xm yd yp ym k
      ((markedSv 40 sat (f (k.accMac acc).toInt (macProduct a b k)) k).wrMac acc
        (narrowed 40 sat (f (k.accMac acc).toInt (macProduct a b k))))) := by
  rw [macOp, fit40_eq, parLoads_ok ok]

theorem tumblerMac : Claims.TumblerMac := by
  intro c i s acc sat a b xd xp xm yd yp ym ready k p A mac ok
  refine ⟨?mac, ?msu, ?mpy, ?ldp⟩
  case mac | msu | mpy => exact fun held => issueOp_ok ready (held _ rfl) (macOp_ok ok)
  case ldp => exact fun held => issueOp_ok ready (held _ rfl) (parLoads_ok ok ..)

/-- Settles O7, from the accumulators and the multiply formats. -/
theorem tumblerMultiply : Obligations.TumblerMultiply := ⟨tumblerAccumulators, tumblerMac⟩

/-! ## Loads and stores (R208, R214) -/

section
variable {n d p imm : Nat} {y post : Bool} {k : Core}

theorem loadOp_ok (ext : Nat → Word32) (inside : accessFault y (memAddr post p imm k) n k = none)
    (free : loadStalls y (memAddr post p imm k) n k = false) :
    loadOp n ext d y post p imm k = .ok ((memPost post p imm k).wrLoad d
      (ext (if n = 4 then (k.word y (memAddr post p imm k)).toNat else k.half y (memAddr post p imm k)))) := by
  simp [loadOp, inside, free]

theorem storeOp_ok (inside : accessFault y (memAddr post p imm k) n k = none) (free : storeStalls y (memAddr post p imm k) n k = false) :
    storeOp n d y post p imm k = .ok (memPost post p imm (k.wordSet y (memAddr post p imm k) (if n = 4 then k.rd d else
      BitVec.ofNat 32 (putBits (k.word y (memAddr post p imm k)).toNat (8 * (memAddr post p imm k % 4)) 16 (k.rd d).toNat)))) := by
  simp [storeOp, inside, free]

end

/-- Settles O3, from what a load and a store come to where they neither fault nor stall. -/
theorem tumblerMemory : Obligations.TumblerMemory := by
  intro c i s d y post p imm ready k a
  refine ⟨?ldw, ?ldh, ?ldhu, ?stw, ?sth⟩ <;> intro inside free held
  case ldw =>
    refine issueOp_ok ready (held _ rfl) ((loadOp_ok _ inside free).trans ?_)
    rw [if_pos rfl, BitVec.ofNat_toNat, BitVec.setWidth_eq]
  case ldh | ldhu => exact issueOp_ok ready (held _ rfl) (loadOp_ok _ inside free)
  case stw | sth => exact issueOp_ok ready (held _ rfl) (storeOp_ok inside free)

/-! ## Branches (R220) -/

theorem word_eq_zero (x : Word32) : x = 0 ↔ x.toInt = 0 := by
  rw [← BitVec.toInt_inj]
  rfl

/-- BLC's loop count, one less where it is not yet 0 (R220). -/
theorem loop_count (n : Nat) : n - 1 = if 1 < n then n - 1 else 0 := by split <;> omega

section
variable {c w imm : Nat} {i : Item} {s : State} {f : Core → Bool} {p : Prop} [Decidable p]

/-- A conditional branch goes on at its target where its condition holds, at the instruction after its delay slot otherwise. -/
theorem issueOp_branch (ready : Ready c i s) (here : (coreGet c s).holds w = .here) (outside : (coreGet c s).slot = none)
    (is : f (atIssue c s) = true ↔ p) : issueOp c w (fun k => .jump k (branchTo (f k) imm k)) s = .next (branched c (atIssue c s)
      (if p then ((((atIssue c s).pc : Int) + toS 14 imm) % 4096).toNat else ((atIssue c s).pc + 2) % 4096) s) :=
  issueOp_jump ready here outside (by simp only [branchTo, is, imm14])

end

theorem tumblerBranches : Claims.TumblerBranches := by
  intro c i s r imm ready outside k taken fall
  refine ⟨?beqz, ?bnez, ?bltz, ?bgez, ?br, ?call, ?ret, ?blc⟩ <;> intro held <;> have here := held _ rfl
  case beqz => exact issueOp_branch ready here outside (decide_eq_true_iff.trans (word_eq_zero _))
  case bnez =>
    rw [← ite_not]
    exact issueOp_branch ready here outside (decide_eq_true_iff.trans (not_congr (word_eq_zero _)))
  case bltz => exact issueOp_branch ready here outside decide_eq_true_iff
  case bgez =>
    rw [← ite_not]
    exact issueOp_branch ready here outside (decide_eq_true_iff.trans Int.not_lt.symm)
  case br | call | ret => exact issueOp_jump ready here outside rfl
  case blc =>
    rw [← loop_count]
    exact issueOp_jump ready here outside (by simp only [blcOp, branchTo, decide_eq_true_eq]; rfl)

/-! ## The control format (R214, R216, R221, R224, R228) -/

theorem ofNat_ofS (v : Int) : BitVec.ofNat 32 (ofS 32 v) = BitVec.ofInt 32 v := by
  apply BitVec.eq_of_toNat_eq
  rw [BitVec.toNat_ofNat, BitVec.toNat_ofInt, ofS]
  omega

/-- What MFC reads in item mode (R216): registers that tell of timing or placement read 0, N is signed. -/
theorem ofNat_mfcVal {creg f : Nat} {k : Core} (item : k.hm = false) : BitVec.ofNat 32 (mfcVal creg f k) =
    if 0x24 ≤ creg ∧ creg ≤ 0x2A then 0
    else if 8 ≤ creg ∧ creg < 0x10 then BitVec.ofInt 32 (toS 16 (k.c creg)) else BitVec.ofNat 32 (k.c creg) := by
  by_cases hidden : 0x24 ≤ creg ∧ creg ≤ 0x2A
  · simp [mfcVal, item, hidden]
  · have shown : creg ≠ 0x28 ∧ creg ≠ 0x29 ∧ creg ≠ 0x2A := by omega
    by_cases signed : 8 ≤ creg ∧ creg < 0x10
    · simp [mfcVal, item, hidden, shown, signed, ofNat_ofS]
    · simp [mfcVal, item, hidden, shown, signed]

/-- MFC of any register but the cycle counter in handler mode takes no free value. -/
theorem exec_tmbMfc {c creg reg : Nat} {s : State} (fixed : ¬ (creg = 0x28 ∧ (coreGet c s).hm = true)) : exec (.tmbMfc c creg reg) s =
    issueOp c (ctlWord 0x01 creg reg 0)
      (fun k => if !cregOk creg then .fault cIllegal else .ok (k.wr reg (BitVec.ofNat 32 (mfcVal creg 0 k)))) s := by
  change execTmbMfc c creg reg s = _
  rw [execTmbMfc, if_neg (by simpa using fixed)]

section
variable {read : Bool} {p : Nat} {i : Item} {k : Core} {t : Xfer}

/-- A transfer whose descriptor stands, with a place free and its local bytes free, is outstanding (R221, R222). -/
theorem xferOp_ok (free : loadStalls false (k.c p) 16 k = false) (stands : xferAt read p i k = .ok t) (few : k.xfers.length < 8)
    (clear : (if read then storeStalls t.ymem t.laddr t.len k else loadStalls t.ymem t.laddr t.len k) = false) :
    xferOp read p i k = .ok { k.postMod p 16 with xfers := k.xfers ++ [t] } := by
  simp [xferOp, free, stands, clear, Nat.not_le.mpr few]

end

@[simp] theorem coreSt_issued (c d : Nat) (k : Core) (s : State) : coreSt d (issued c k s) = coreSt d s := rfl

@[simp] theorem slot_issued (c : Nat) (k : Core) (s : State) : (coreGet c (issued c k s)).slot = none := by rw [coreGet_issued]; rfl

theorem tumblerControl : Claims.TumblerControl := by
  intro c i s ready k
  refine ⟨?mtc, ?mfc, ?xrd, ?xwr, ?waitx, ?reti, ?bkptRun, ?bkptDebug, ?fault⟩
  case mtc =>
    intro creg reg ok held
    refine issueOp_ok ready (held _ rfl) ?_
    simp only [mtcOp, ok, Bool.not_true, Bool.false_eq_true, if_false]
    repeat' split
    all_goals rfl
  case mfc =>
    intro creg reg ok item item0 held
    rw [exec_tmbMfc (by simp [item0]), ← ofNat_mfcVal (f := 0) item]
    exact issueOp_ok ready (held _ rfl) (by simp only [ok]; rfl)
  case xrd | xwr =>
    intro p t free stands few clear held
    exact congrArg _ (issue_ok ready (held _ rfl) (xferOp_ok free stands few clear))
  case waitx =>
    intro n le held
    exact issueOp_ok ready (held _ rfl) (if_neg (Nat.not_lt.mpr le))
  case reti =>
    intro handler held
    exact congrArg _ (issue_ok ready (held _ rfl) (if_pos handler))
  case bkptRun =>
    intro code run held
    refine congrArg _ ((issue_ok ready (held _ rfl) rfl).trans ?_)
    simp [run, csRun, csDebug, k]
  case bkptDebug =>
    intro code debug outside held
    refine congrArg _ ((issue_ok ready (held _ rfl) rfl).trans ?_)
    simp [debug, k]
  case fault =>
    intro code held
    exact issueOp_here (f := fun _ => .fault cKfault) ready (held _ rfl)

/-- Settles O4, from branches and the control format. -/
theorem tumblerFlow : Obligations.TumblerFlow := ⟨tumblerBranches, tumblerControl⟩

end Sys2Proof.Machine
end

section
/-! PROOFS. Writes in flight: what one of them changes when it lands, and the instruction at which each kind of result is seen (R206, R217,
R218). -/

namespace Sys2Proof.Machine
open Sys2Proof.Claims

/-! ## One write landed -/

theorem crLand_frame (n v : Nat) (k : Core) : ∃ cr, k.crLand n v = { k with cr := cr } := by
  simp only [Core.crLand]
  repeat' split
  all_goals exact ⟨_, rfl⟩

/-- A write that lands changes registers, accumulators as readers outside the MAC format see them, the mapping: nothing else. -/
theorem landOne_frame (w : PendW) (k : Core) : ∃ g r0 r1 rb cr, k.landOne w = { k with
    g := g
    r0 := r0
    r1 := r1
    rb := rb
    cr := cr } := by
  obtain ⟨cr, landed⟩ := crLand_frame (w.tgt - 64) w.val k
  simp only [Core.landOne, landed]
  repeat' split
  all_goals exact ⟨_, _, _, _, _, rfl⟩

@[simp] theorem issued_landOne (w : PendW) (k : Core) : (k.landOne w).issued = k.issued := by
  obtain ⟨_, _, _, _, _, landed⟩ := landOne_frame w k
  rw [landed]

@[simp] theorem pend_landOne (w : PendW) (k : Core) : (k.landOne w).pend = k.pend := by
  obtain ⟨_, _, _, _, _, landed⟩ := landOne_frame w k
  rw [landed]

@[simp] theorem word_landOne (y : Bool) (a : Nat) (w : PendW) (k : Core) : (k.landOne w).word y a = k.word y a := by
  obtain ⟨_, _, _, _, _, landed⟩ := landOne_frame w k
  rw [landed]
  rfl

@[simp] theorem accMac_landOne (n : Nat) (w : PendW) (k : Core) : (k.landOne w).accMac n = k.accMac n := by
  obtain ⟨_, _, _, _, _, landed⟩ := landOne_frame w k
  rw [landed]
  rfl

theorem g_landOne {p : Nat} (w : PendW) (k : Core) (phys : p < 32) :
    tget 0 (k.landOne w).g p = if w.tgt = p then BitVec.ofNat 32 w.val else tget 0 k.g p := by
  by_cases is : w.tgt = p
  · subst is
    simp [Core.landOne, phys, tget_tset_same]
  · obtain ⟨cr, landed⟩ := crLand_frame (w.tgt - 64) w.val k
    rw [if_neg is]
    simp only [Core.landOne, landed]
    repeat' split
    any_goals rfl
    exact tget_tset_other _ _ _ _ _ (Ne.symm is)

theorem accRd_landOne {n : Nat} (w : PendW) (k : Core) (two : n < 2) :
    (k.landOne w).accRd n = if w.tgt = tgAcc n then BitVec.ofNat 40 w.val else k.accRd n := by
  by_cases is : w.tgt = tgAcc n
  · rw [if_pos is]
    simp only [tgAcc] at is
    obtain rfl | rfl : n = 0 ∨ n = 1 := by omega
    · simp [Core.landOne, Core.accRd, is]
    · simp [Core.landOne, Core.accRd, is]
  · obtain ⟨cr, landed⟩ := crLand_frame (w.tgt - 64) w.val k
    rw [if_neg is]
    simp only [tgAcc] at is
    simp only [Core.landOne, landed]
    repeat' split
    any_goals rfl
    · simp [Core.accRd, show n ≠ 0 by omega]
    · simp [Core.accRd, show n = 0 by omega]

/-- A control register below 0x18 takes the low 16 bits of a write to it, and nothing of a write to another. -/
theorem c_crLand {n : Nat} (m v : Nat) (k : Core) (low : n < 0x18) : (k.crLand m v).c n = if m = n then v % 65536 else k.c n := by
  have other {j u : Nat} (ne : j ≠ n) : tget 0 (tset k.cr j u) n = tget 0 k.cr n := tget_tset_other _ _ _ _ _ ne.symm
  by_cases is : m = n
  · subst is
    simp [Core.crLand, Core.c, low, tget_tset_same]
  · rw [if_neg is]
    simp only [Core.crLand, Core.c]
    repeat' split
    any_goals rfl
    all_goals exact other (by omega)

theorem landOne_crLand {w : PendW} (known : 64 ≤ w.tgt) (k : Core) : k.landOne w = k.crLand (w.tgt - 64) w.val := by
  simp only [Core.landOne]
  rw [if_neg (by omega), if_neg (by omega), if_neg (by omega), if_neg (by omega)]

theorem c_landOne {n : Nat} (w : PendW) (k : Core) (low : n < 0x18) (known : w.tgt < 35 ∨ 64 ≤ w.tgt) :
    (k.landOne w).c n = if w.tgt = tgCr n then w.val % 65536 else k.c n := by
  obtain small | large := known
  · have ne : w.tgt ≠ tgCr n := by
      simp only [tgCr]
      omega
    rw [if_neg ne]
    simp only [Core.landOne]
    repeat' split
    any_goals rfl
    omega
  · have same : w.tgt - 64 = n ↔ w.tgt = tgCr n := by
      simp only [tgCr]
      omega
    rw [landOne_crLand large, c_crLand _ _ _ low]
    simp only [same]

/-! ## The writes of one issue slot -/

theorem crLand_pend (n v : Nat) (l : List PendW) (k : Core) : ({ k with pend := l } : Core).crLand n v = { k.crLand n v with pend := l } := by
  simp only [Core.crLand]
  repeat' split
  all_goals rfl

theorem landOne_pend (w : PendW) (l : List PendW) (k : Core) : ({ k with pend := l } : Core).landOne w = { k.landOne w with pend := l } := by
  simp only [Core.landOne, crLand_pend]
  repeat' split
  all_goals rfl

/-- Writes landed, in their order. -/
def Core.landList (ws : List PendW) (k : Core) : Core := ws.foldl (fun k w => k.landOne w) k

@[simp] theorem landList_nil (k : Core) : k.landList [] = k := rfl

@[simp] theorem landList_cons (w : PendW) (ws : List PendW) (k : Core) : k.landList (w :: ws) = (k.landOne w).landList ws := rfl

theorem landList_append (ws vs : List PendW) (k : Core) : k.landList (ws ++ vs) = (k.landList ws).landList vs := List.foldl_append ..

theorem landList_pend (ws l : List PendW) (k : Core) : ({ k with pend := l } : Core).landList ws = { k.landList ws with pend := l } := by
  induction ws generalizing k with
  | nil => rfl
  | cons w ws ih => rw [landList_cons, landList_cons, landOne_pend, ih]

/-- What no landing write of a list changes, the list does not change. -/
theorem landList_keeps {α : Type} (R : Core → α) {ws : List PendW} (k : Core) (each : ∀ w ∈ ws, ∀ j : Core, R (j.landOne w) = R j) :
    R (k.landList ws) = R k := by
  induction ws generalizing k with
  | nil => rfl
  | cons w ws ih => rw [landList_cons, ih _ fun v mem => each v (List.mem_cons_of_mem _ mem), each w List.mem_cons_self]

theorem issued_landList (ws : List PendW) (k : Core) : (k.landList ws).issued = k.issued :=
  landList_keeps Core.issued k fun w _ j => issued_landOne w j

theorem accRd_landList_congr {n : Nat} (two : n < 2) (ws : List PendW) {j k : Core} (same : j.accRd n = k.accRd n) :
    (j.landList ws).accRd n = (k.landList ws).accRd n := by
  induction ws generalizing j k with
  | nil => exact same
  | cons w ws ih => exact ih (by rw [accRd_landOne _ _ two, accRd_landOne _ _ two, same])

/-! ## From one issue slot to the next -/

/-- A core one issue slot on, none of its writes in flight landed. -/
def Core.slotOn (k : Core) : Core := { k with
  issued := k.issued + 1
  pend := [] }

/-- The writes in flight that land at the next issue slot, and those that do not. -/
def Core.due (k : Core) : List PendW := k.pend.filter fun w => decide (w.due ≤ k.issued + 1)
def Core.undue (k : Core) : List PendW := k.pend.filter fun w => !decide (w.due ≤ k.issued + 1)

theorem nextSlot_eq (k : Core) : nextSlot k = { k.slotOn.landList k.due with pend := k.undue } := landList_pend k.due k.undue k.slotOn

@[simp] theorem issued_nextSlot (k : Core) : (nextSlot k).issued = k.issued + 1 := by
  rw [nextSlot_eq]
  exact issued_landList ..

theorem due_later (t tgt v : Nat) (k : Core) : (k.later t tgt v).due = k.due ++ if t ≤ 1 then [⟨k.issued + t, tgt, v⟩] else [] := by
  refine (List.filter_append ..).trans (congrArg (k.due ++ ·) ?_)
  simp [List.filter_cons, Core.later]

theorem undue_later (t tgt v : Nat) (k : Core) : (k.later t tgt v).undue = k.undue ++ if t ≤ 1 then [] else [⟨k.issued + t, tgt, v⟩] := by
  refine (List.filter_append ..).trans (congrArg (k.undue ++ ·) ?_)
  by_cases soon : t ≤ 1 <;> simp [Core.later, soon]

/-- A write seen from a later slot than the next is still in flight there. -/
theorem nextSlot_later (t tgt v : Nat) (k : Core) : nextSlot (k.later (t + 2) tgt v) = (nextSlot k).later (t + 1) tgt v := by
  have late : ¬ t + 2 ≤ 1 := by omega
  have at_ : k.issued + (t + 2) = (nextSlot k).issued + (t + 1) := by
    rw [issued_nextSlot]
    omega
  rw [nextSlot_eq, due_later, undue_later, if_neg late, if_neg late, List.append_nil, at_, Core.later, nextSlot_eq]
  rfl

/-- A write seen from the next slot is the last that lands there. -/
theorem nextSlot_later_one (tgt v : Nat) (k : Core) : nextSlot (k.later 1 tgt v) = (nextSlot k).landOne ⟨k.issued + 1, tgt, v⟩ := by
  rw [nextSlot_eq, due_later, undue_later, if_pos (Nat.le_refl 1), if_pos (Nat.le_refl 1), List.append_nil, landList_append, nextSlot_eq, landOne_pend]
  rfl

/-- What no write in flight that falls due changes is at the next slot as it was. -/
theorem nextSlot_keeps {α : Type} (R : Core → α) (k : Core) (free : ∀ j : Core, ∀ n l, R { j with
    issued := n
    pend := l } = R j) (each : ∀ w ∈ k.pend, w.due ≤ k.issued + 1 → ∀ j : Core, R (j.landOne w) = R j) : R (nextSlot k) = R k := by
  have lands : ∀ w ∈ k.due, ∀ j : Core, R (j.landOne w) = R j := fun w mem =>
    each w (List.mem_filter.mp mem).1 (of_decide_eq_true (List.mem_filter.mp mem).2)
  calc R (nextSlot k) = R (k.slotOn.landList k.due) := (congrArg R (nextSlot_eq k)).trans (free ..)
    _ = R k.slotOn := landList_keeps R _ lands
    _ = R k := free ..

/-! ## Where each kind of result is seen (R206, R217) -/

theorem phys_lt {n : Nat} (logical : n < 32) (k : Core) : k.phys n < 32 := by
  simp only [Core.phys]
  split
  · omega
  · have := Nat.mod_lt (n - 16 + k.rb) (show 0 < 16 by decide)
    omega

/-- Of the writes settled none to the target falls due at the next slot. -/
theorem tgt_ne_of_settle {tgt : Nat} {k : Core} {w : PendW} (mem : w ∈ (k.settle tgt).pend) (due : w.due ≤ k.issued + 1) : w.tgt ≠ tgt := by
  have stays := (List.mem_filter.mp mem).2
  simpa [due] using stays

theorem g_nextSlot_wr {n : Nat} (v : Word32) (k : Core) (logical : n < 32) : tget 0 (nextSlot (k.wr n v)).g (k.phys n) = v := by
  have keeps := nextSlot_keeps (fun j => tget 0 j.g (k.phys n)) (k.wr n v) (fun _ _ _ => rfl) fun w mem due j => by
    rw [g_landOne _ _ (phys_lt logical k), if_neg (tgt_ne_of_settle mem due)]
  exact keeps.trans (tget_tset_same ..)

/-- A load in flight lands in the register that it named when it was issued, at the second slot after it. -/
theorem g_nextSlot_load {p : Nat} (v : Word32) (k : Core) (phys : p < 32) : tget 0 (nextSlot (nextSlot (k.later 2 p v.toNat))).g p = v := by
  rw [nextSlot_later, nextSlot_later_one, g_landOne _ _ phys, if_pos rfl, BitVec.ofNat_toNat, BitVec.setWidth_eq]

theorem accMac_nextSlot (n : Nat) (k : Core) : (nextSlot k).accMac n = k.accMac n :=
  nextSlot_keeps (Core.accMac n) k (fun _ _ _ => rfl) fun w _ _ j => accMac_landOne n w j

theorem accRd_nextSlot_congr {n : Nat} (two : n < 2) {j k : Core} (due : j.due = k.due) (same : j.accRd n = k.accRd n) :
    (nextSlot j).accRd n = (nextSlot k).accRd n := by
  rw [nextSlot_eq, nextSlot_eq, due]
  exact accRd_landList_congr two _ same

/-- An accumulator set as the MAC format sees it. -/
def Core.setMac (n : Nat) (v : Acc40) (k : Core) : Core := if n = 0 then { k with a0 := v } else { k with a1 := v }

theorem accMac_setMac (n : Nat) (v : Acc40) (k : Core) : (k.setMac n v).accMac n = v := by
  by_cases zero : n = 0 <;> simp [Core.setMac, Core.accMac, zero]

theorem setMac_frame (n : Nat) (v : Acc40) (k : Core) : (k.setMac n v).due = k.due ∧ ∀ m, (k.setMac n v).accRd m = k.accRd m := by
  by_cases zero : n = 0
  · rw [Core.setMac, if_pos zero]
    exact ⟨rfl, fun _ => rfl⟩
  · rw [Core.setMac, if_neg zero]
    exact ⟨rfl, fun _ => rfl⟩

theorem wrMac_eq (n : Nat) (v : Acc40) (k : Core) : k.wrMac n v = (k.setMac n v).later 2 (tgAcc n) v.toNat := by
  by_cases zero : n = 0 <;> simp [Core.wrMac, Core.setMac, Core.later, zero]

theorem acc_nextSlot_wrMac {n : Nat} (v : Acc40) (k : Core) (two : n < 2) : (nextSlot (k.wrMac n v)).accMac n = v ∧
    (nextSlot (k.wrMac n v)).accRd n = (nextSlot k).accRd n ∧ (nextSlot (nextSlot (k.wrMac n v))).accRd n = v := by
  obtain ⟨due, same⟩ := setMac_frame n v k
  rw [wrMac_eq]
  refine ⟨?_, ?_, ?_⟩
  · rw [accMac_nextSlot]
    exact accMac_setMac n v k
  · rw [nextSlot_later]
    exact accRd_nextSlot_congr two due (same n)
  · rw [nextSlot_later, nextSlot_later_one, accRd_landOne _ _ two, if_pos rfl, BitVec.ofNat_toNat, BitVec.setWidth_eq]

theorem acc_wrAcc (n : Nat) (v : Acc40) (k : Core) : (k.wrAcc n v).accMac n = v ∧ (k.wrAcc n v).accRd n = v := by
  by_cases zero : n = 0 <;> simp [Core.wrAcc, Core.accMac, Core.accRd, zero]

theorem wrAcc_frame (n : Nat) (v : Acc40) (k : Core) : (k.wrAcc n v).pend = (k.settle (tgAcc n)).pend ∧ (k.wrAcc n v).issued = k.issued := by
  by_cases zero : n = 0 <;> simp [Core.wrAcc, Core.settle, zero]

theorem acc_nextSlot_wrAcc {n : Nat} (v : Acc40) (k : Core) (two : n < 2) :
    (nextSlot (k.wrAcc n v)).accMac n = v ∧ (nextSlot (k.wrAcc n v)).accRd n = v := by
  obtain ⟨mac, rd⟩ := acc_wrAcc n v k
  obtain ⟨pend, at_⟩ := wrAcc_frame n v k
  rw [accMac_nextSlot, nextSlot_keeps (Core.accRd n) _ (fun _ _ _ => rfl) fun w mem due j => by
    rw [accRd_landOne _ _ two, if_neg (tgt_ne_of_settle (pend ▸ mem) (at_ ▸ due))]]
  exact ⟨mac, rd⟩

theorem c_nextSlot_later_three {n : Nat} (v : Nat) (k : Core) (low : n < 0x18) : let j := k.later 3 (tgCr n) v
    (nextSlot j).c n = (nextSlot k).c n ∧ (nextSlot (nextSlot j)).c n = (nextSlot (nextSlot k)).c n ∧
      (nextSlot (nextSlot (nextSlot j))).c n = v % 65536 := by
  intro j
  have one : nextSlot j = (nextSlot k).later 2 (tgCr n) v := nextSlot_later 1 ..
  have two : nextSlot (nextSlot j) = (nextSlot (nextSlot k)).later 1 (tgCr n) v := one ▸ nextSlot_later 0 ..
  refine ⟨?_, ?_, ?_⟩
  · rw [one]
    rfl
  · rw [two]
    rfl
  · rw [two, nextSlot_later_one, c_landOne _ _ low (.inr (Nat.le_add_right ..)), if_pos rfl]

theorem postMod_linear {n : Nat} (d : Int) (k : Core) (linear : k.c (0x18 + n) = 0) :
    k.postMod n d = (k.settle (tgCr n)).crSet n (ofS 16 ((k.c n : Int) + d)) := by
  simp [Core.postMod, linear]

theorem c_nextSlot_postMod {n : Nat} (d : Int) (k : Core) (address : n < 8) (linear : k.c (0x18 + n) = 0)
    (known : ∀ w ∈ k.pend, w.tgt < 35 ∨ 64 ≤ w.tgt) : (nextSlot (k.postMod n d)).c n = ofS 16 ((k.c n : Int) + d) := by
  have low : n < 0x18 := by omega
  rw [postMod_linear d k linear, nextSlot_keeps (Core.c n) _ (fun _ _ _ => rfl) fun w mem due j => by
    rw [c_landOne _ _ low (known w (List.mem_filter.mp mem).1), if_neg (tgt_ne_of_settle mem due)]]
  exact tget_tset_same ..

theorem word_wordSet (y : Bool) (a : Nat) (v : Word32) (k : Core) : (k.wordSet y a v).word y a = v := by
  cases y <;> exact tget_tset_same ..

theorem word_nextSlot (y : Bool) (a : Nat) (k : Core) : (nextSlot k).word y a = k.word y a :=
  nextSlot_keeps (Core.word y a) k (fun _ _ _ => rfl) fun w _ _ j => word_landOne y a w j

/-- Settles O53, from what the writes in flight that land at a slot change and from the slot at which each kind lands. -/
theorem resultLatencies : Obligations.ResultLatencies := by
  intro k
  refine ⟨fun n v logical => g_nextSlot_wr v k logical, fun n v logical => ⟨?_, g_nextSlot_load v k (phys_lt logical k)⟩,
    fun n v two => acc_nextSlot_wrMac v k two, fun n v two => acc_nextSlot_wrAcc v k two, fun n v low => c_nextSlot_later_three v k low,
    fun n d address linear known => c_nextSlot_postMod d k address linear known, fun y a v => (word_nextSlot ..).trans (word_wordSet ..)⟩
  rw [Core.wrLoad, nextSlot_later]
  rfl

/-- Settles O52, from the register that a logical number names and from where a load in flight lands. -/
theorem registerRotation : Obligations.RegisterRotation := by
  intro k
  refine ⟨fun n low => ?_, fun n high logical => ?_, fun n v rb logical => ?_⟩
  · have named : k.phys n = n := if_pos low
    exact ⟨named, by rw [Core.rd, named]⟩
  · have named : k.phys n = 16 + (n - 16 + k.rb) % 16 := if_neg (Nat.not_lt.mpr high)
    exact ⟨named, by rw [Core.rd, named]⟩
  · exact g_nextSlot_load v { k with rb := rb } (phys_lt logical k)

end Sys2Proof.Machine
end

section
/-! PROOFS. Faults of an instruction and of a core, debug requests and the debug interrupt (R213, R214, R227 to R229). -/

namespace Sys2Proof.Machine
open Sys2Proof.Claims

/-! ## What program memory holds (R213, R214) -/

/-- The command issues an instruction of core `c` whose word is `w`; MFC of the cycle counter may take a free value first. -/
def Issues (c w : Nat) (i : Instr) : Prop :=
  ∀ s, ∃ n f after, exec i s = .next (issue c w f after { s with free := s.free + n })

theorem issues_tmbMfc (c creg reg : Nat) : Issues c (ctlWord 0x01 creg reg 0) (.tmbMfc c creg reg) := by
  intro s
  by_cases counts : creg = 0x28 ∧ (coreGet c s).hm = true
  · refine ⟨1, fun _ k => if !cregOk creg then .fault cIllegal else .ok (k.wr reg (BitVec.ofNat 32 (mfcVal creg s.free k))), id, ?_⟩
    change execTmbMfc c creg reg s = _
    rw [execTmbMfc, if_pos (by simpa using counts)]
    rfl
  · exact ⟨0, _, _, exec_tmbMfc counts⟩

theorem issues_decodeAlu {c w : Nat} {i : Instr} (dec : decodeAlu c w = some i) : ∃ v, tmbEncode i = some v ∧ Issues c v i := by
  simp only [decodeAlu] at dec
  split at dec
  case isTrue => cases dec
  case isFalse =>
    split at dec
    case h_30 => cases dec
    all_goals
      obtain ⟨-, ⟨⟩⟩ := Option.ite_none_right_eq_some.mp dec
      exact ⟨_, rfl, fun _ => ⟨0, _, _, rfl⟩⟩

theorem issues_decodeImm {c w : Nat} {i : Instr} (dec : decodeImm c w = some i) : ∃ v, tmbEncode i = some v ∧ Issues c v i := by
  simp only [decodeImm] at dec
  split at dec
  case h_1 =>
    obtain rfl := Option.some.inj dec
    exact ⟨_, rfl, fun _ => ⟨0, _, _, rfl⟩⟩
  case h_22 => cases dec
  all_goals
    obtain ⟨-, ⟨⟩⟩ := Option.ite_none_right_eq_some.mp dec
    exact ⟨_, rfl, fun _ => ⟨0, _, _, rfl⟩⟩

theorem issues_decodeCtl {c w : Nat} {i : Instr} (dec : decodeCtl c w = some i) : ∃ v, tmbEncode i = some v ∧ Issues c v i := by
  simp only [decodeCtl] at dec
  split at dec
  case h_10 => cases dec
  all_goals obtain ⟨-, ⟨⟩⟩ := Option.ite_none_right_eq_some.mp dec
  case h_2 => exact ⟨_, rfl, issues_tmbMfc _ _ _⟩
  all_goals exact ⟨_, rfl, fun _ => ⟨0, _, _, rfl⟩⟩

theorem issues_decodeMac {c w : Nat} {i : Instr} (dec : decodeMac c w = some i) : ∃ v, tmbEncode i = some v ∧ Issues c v i := by
  simp only [decodeMac] at dec
  split at dec
  case h_4 =>
    obtain ⟨-, ⟨⟩⟩ := Option.ite_none_right_eq_some.mp dec
    exact ⟨_, rfl, fun _ => ⟨0, _, _, rfl⟩⟩
  all_goals
    obtain rfl := Option.some.inj dec
    exact ⟨_, rfl, fun _ => ⟨0, _, _, rfl⟩⟩

/-- What a word decodes to, on a core, issues that word on that core. -/
theorem issues_of_tmbDecode {c w : Nat} {i : Instr} (fits : w < 2 ^ 32) (dec : tmbDecode c w = some i) : Issues c w i := by
  have some_word : ∃ v, tmbEncode i = some v ∧ Issues c v i := by
    unfold tmbDecode at dec
    split at dec
    · exact issues_decodeAlu dec
    · exact issues_decodeImm dec
    · exact issues_decodeCtl dec
    · exact issues_decodeMac dec
  obtain ⟨v, word, issues⟩ := some_word
  obtain rfl := Option.some.inj ((tmbEncode_tmbDecode fits dec).symm.trans word)
  exact issues

section
variable {c w v : Nat} {i : Item} {f : Item → Core → CoreRes} {after : State → State} {s : State}

/-- Where program memory holds a word that is no instruction, the core faults with ILLEGAL at it (R214). -/
theorem issue_illegal (ready : Ready c i s) (illegal : (coreGet c s).holds w = .illegal) :
    issue c w f after s = kernelFault c 0x01 (cinc (coreCnt c 0x48) s) := by
  obtain ⟨runs, slots, quiet⟩ := ready
  have few : ¬ i.maxCycles ≤ (coreGet c s).issued := Nat.not_le.mpr slots
  by_cases dbg : coreSt c s = csDebug
  · obtain ⟨noBreak, -, -⟩ := quiet dbg
    simp [issue, runs, illegal, few, noBreak, coreFault, cIllegal]
  · simp [issue, runs, illegal, few, dbg, coreFault, cIllegal]

/-- Where it holds another instruction, the command does nothing. -/
theorem issue_other (ready : Ready c i s) (other : (coreGet c s).holds w = .other) : issue c w f after s = s := by
  simp [issue, ready.1, other]

theorem holds_other_word {k : Core} (fetched : k.fetch = some v) (ne : v ≠ w) :
    k.holds w = if (tmbDecode 0 v).isSome then .other else .illegal := by
  rw [Core.holds, fetched]
  exact if_neg ne

theorem issueOp_illegal {f : Core → CoreRes} (ready : Ready c i s) (here : (coreGet c s).holds w = .here)
    (faults : f (atIssue c s) = .fault cIllegal) : issueOp c w f s = .next (kernelFault c 0x01 (cinc (coreCnt c 0x48) s)) := by
  rw [issueOp_here ready here, faults]
  rfl

/-- A branch in a delay slot is no instruction there (R220). -/
theorem issueOp_jump_slot {f : Core → CoreRes} {k : Core} {target : Nat} (ready : Ready c i s) (here : (coreGet c s).holds w = .here)
    (inside : (coreGet c s).slot ≠ none) (goes : f (atIssue c s) = .jump k target) :
    issueOp c w f s = .next (kernelFault c 0x01 (cinc (coreCnt c 0x48) s)) := by
  rw [issueOp_here ready here, goes, comesTo, if_pos (Option.isSome_iff_ne_none.mpr inside)]
  rfl

end

theorem tumblerIllegal : Claims.TumblerIllegal := by
  refine ⟨fun c w v i it s ready fits dec fetched ne => ?_, fun c i it s ready held form => ?_⟩
  · obtain ⟨n, f, after, runs⟩ := issues_of_tmbDecode fits dec s
    have ready' : Ready c it { s with free := s.free + n } := ready
    have holds := holds_other_word (k := coreGet c { s with free := s.free + n }) fetched ne
    refine ⟨n, fun none_ => ?_, fun some_ => ?_⟩
    · rw [runs, issue_illegal ready' (holds.trans (by simp [none_]))]
    · rw [runs, issue_other ready' (holds.trans (if_pos some_))]
  · obtain ⟨creg, reg, bad, which⟩ | ⟨sat, d, acc, rnd, sh, rfl, bad⟩ | ⟨acc, d, bad, which⟩ | ⟨sat, acc, a, sh, bad, which⟩ |
      ⟨rfl, item⟩ | ⟨inside, which⟩ := form
    · obtain rfl | rfl := which
      · exact issueOp_illegal ready (held _ rfl) (by simp [mtcOp, bad])
      · have fixed : creg ≠ 0x28 := fun is => absurd bad (by simp [is, cregOk])
        rw [exec_tmbMfc fun counts => fixed counts.1]
        exact issueOp_illegal ready (held _ rfl) (by simp [bad])
    · exact issueOp_illegal ready (held _ rfl) (if_pos (by simpa using bad))
    · obtain rfl | rfl := which <;> exact issueOp_illegal ready (held _ rfl) (if_pos bad)
    · obtain rfl | rfl | rfl := which <;> exact issueOp_illegal ready (held _ rfl) (if_pos bad)
    · refine congrArg _ ((issue_here ready (held _ rfl)).trans ?_)
      simp [item, comesTo, coreFault, cIllegal]
    · obtain ⟨r, imm, rfl | rfl | rfl | rfl⟩ | ⟨imm, rfl | rfl | rfl⟩ | rfl := which <;>
        exact issueOp_jump_slot ready (held _ rfl) inside rfl

/-! ## Debug requests (R228, R229) -/

theorem tumblerDebug : Claims.TumblerDebug := by
  refine ⟨fun c sp s core off serves spare => ?_, fun c s core off refused => ?_, fun c s debug waits => ?_,
    fun c h s debug runs outside => ?_, fun c s halted => ⟨?_, ?_⟩, fun c h s debug runs hit => ?_⟩
  · change execDebugEnable c 1 s = _
    simp [execDebugEnable, debugEnable, Nat.not_le.mpr core, off, Nat.not_lt.mpr serves, spare]
  · change execDebugEnable c 1 s = _
    obtain above | none_ := refused
    · simp [execDebugEnable, debugEnable, Nat.not_le.mpr core, off, above, debugRefuse]
    · simp [execDebugEnable, debugEnable, Nat.not_le.mpr core, off, none_, debugRefuse]
  · change execDebugHaltRequest c s = _
    have later : ((coreGet c s).item.isSome && (coreGet c s).slot.isNone) = false := by
      obtain none_ | inside := waits
      · simp [none_]
      · simp [Option.isNone_eq_false_iff.mpr (Option.isSome_iff_ne_none.mpr inside)]
    simp [execDebugHaltRequest, debug, later]
  · change execDebugHaltRequest c s = _
    simp [execDebugHaltRequest, debug, runs, outside]
  · exact congrArg _ (if_neg (Decidable.not_not.mpr halted))
  · exact congrArg _ (if_neg (Decidable.not_not.mpr halted))
  · exact congrArg _ (if_pos (by simp [debug, runs, hit]))

/-! ## The debug interrupt (R228) -/

theorem c_crSet_same (n v : Nat) (k : Core) : (k.crSet n v).c n = v := tget_tset_same ..

theorem c_crSet_other {n m : Nat} (v : Nat) (k : Core) (ne : n ≠ m) : (k.crSet m v).c n = k.c n := tget_tset_other _ _ _ _ _ ne

/-- What no landing write changes is as it was once every write in flight is made. -/
theorem landAll_keeps {α : Type} (R : Core → α) (k : Core) (free : ∀ l, R { k with pend := l } = R k)
    (each : ∀ (w : PendW) (j : Core), R (j.landOne w) = R j) : R k.landAll = R k :=
  (landList_keeps R _ fun w _ j => each w j).trans (free [])

theorem landAll_frame (k : Core) : k.landAll.pc = k.pc ∧ k.landAll.item = k.item ∧ k.landAll.pend = [] := by
  refine ⟨landAll_keeps Core.pc k (fun _ => rfl) fun w j => ?_, landAll_keeps Core.item k (fun _ => rfl) fun w j => ?_,
    landList_keeps Core.pend { k with pend := [] } fun w _ j => ?_⟩ <;>
  · obtain ⟨_, _, _, _, _, landed⟩ := landOne_frame w j
    rw [landed]

/-- The core that has taken a debug interrupt to the image's handler at `entry`. -/
def Core.interrupted (entry : Nat) (k : Core) : Core :=
  let j := k.landAll
  { ((j.crSet 0x24 j.pc).crSet 0x25 (j.c 0x22)).crSet 0x22 (j.c 0x22 % 2 + 2) with
    step := false
    halt := false
    skip := true
    pc := entry
    slot := none }

theorem debugEnter_handler {c h : Nat} {i : Item} {s : State} (runs : (coreGet c s).item = some h) (found : itemFind h s = some i)
    (handler : imgHandler i.image = true) : debugEnter c s = corePut c ((coreGet c s).interrupted (imgDbgEntry i.image)) s := by
  obtain ⟨-, item, -⟩ := landAll_frame (coreGet c s)
  have image : ((coreGet c s).landAll.item.bind fun h => itemFind h s) = some i := by
    rw [item, runs]
    exact found
  have kept (n v : Nat) (k : Core) : (k.crSet n v).item = k.item := rfl
  simp only [debugEnter, kept, image, handler, if_true]
  rfl

theorem hm_crSet (v : Nat) (k : Core) : (k.crSet 0x22 (v % 2 + 2)).hm = true := by
  rw [Core.hm, c_crSet_same, bit]
  simp only [decide_eq_true_eq]
  omega

theorem debugEntry : Claims.DebugEntry := by
  intro c h i s runs found handler k
  obtain ⟨pc, -, pend⟩ := landAll_frame (coreGet c s)
  have entered : k = (coreGet c s).interrupted (imgDbgEntry i.image) := by
    simp only [k, debugEnter_handler runs found handler, coreGet_corePut]
  rw [entered]
  refine ⟨pend, ?_, ?_, hm_crSet .., rfl, rfl, rfl⟩
  · exact ((c_crSet_other _ _ (by decide)).trans ((c_crSet_other _ _ (by decide)).trans (c_crSet_same ..))).trans pc
  · exact (c_crSet_other _ _ (by decide)).trans (c_crSet_same ..)

/-! ## Faults (R227) -/

theorem faultRegs_fields (c cause : Nat) (i : Item) (s : State) (fits : cause < 256) (inside : (coreGet c s).pc < 4096) :
    let t := faultRegs c cause (coreGet c s).pc i s
    fget (R.TMB_CORE_FAULT_valid c) t = 1 ∧ fget (R.TMB_CORE_FAULT_cause c) t = cause ∧
      fget (R.TMB_CORE_FAULT_epc c) t = (coreGet c s).pc ∧ (coreGet c t).c 0x24 = (coreGet c s).pc := by
  have valid {f : Fld} (v : Nat) (t : State) (ne : fkey f ≠ fkey (R.TMB_CORE_FAULT_valid c)) :
      fget f (fset (R.TMB_CORE_FAULT_valid c) v t) = fget f t := fget_fset_other _ _ _ _ ne
  refine ⟨fget_fset .., ?_, ?_, ?_⟩
  · calc _ = cause % 2 ^ 8 := (valid _ _ (by simp [fkey, R.TMB_CORE_FAULT_cause, R.TMB_CORE_FAULT_valid])).trans (fget_fset ..)
      _ = cause := Nat.mod_eq_of_lt fits
  · calc _ = (coreGet c s).pc % 2 ^ 12 := (valid _ _ (by simp [fkey, R.TMB_CORE_FAULT_epc, R.TMB_CORE_FAULT_valid])).trans
          ((fget_fset_other _ _ _ _ (by simp [fkey, R.TMB_CORE_FAULT_epc, R.TMB_CORE_FAULT_cause])).trans (fget_fset ..))
      _ = (coreGet c s).pc := Nat.mod_eq_of_lt inside
  · exact (congrArg (Core.c 0x24) (coreGet_corePut ..)).trans (c_crSet_same ..)

theorem tumblerFaults : Claims.TumblerFaults := by
  refine ⟨fun c cause i s fits inside => faultRegs_fields c cause i s fits inside, fun c cause h i s runs found own => ?_,
    fun c cause h i s core low high live runs found => ?_⟩
  · intro d s2
    have original : (i.copyOf.isSome && i.dbg.isNone) = false := by simp [own]
    simp only [kernelFault, kernelFaultAt, runs, found, original]
    rfl
  · intro d repl s2
    change execCoreHwFault c cause s = _
    have hard : ¬ (544 ≤ c || !within 0x10 0x13 cause || coreSt c s = csRetired) = true := by
      simp [within, Nat.not_le.mpr core, low, high, live]
    rw [execCoreHwFault, if_neg hard]
    have item : ((coreGet c s).item.bind fun h => (itemFind h s).map fun i => (h, i)) = some (h, i) := by simp [runs, found]
    simp only [hardwareFault, item]
    rfl

/-- Settles O8, from what program memory makes of a command, the debug requests and interrupt, and the faults of both classes. -/
theorem tumblerDebugging : Obligations.TumblerDebugging := ⟨tumblerIllegal, tumblerDebug, debugEntry, tumblerFaults⟩

end Sys2Proof.Machine
end

section
/-! PROOFS. Service items of the Carousel: taken from a ready queue by priority, tried again, missed, hung, and their barriers closed (R235,
R238 to R240, R242). -/

namespace Sys2Proof.Machine
open Sys2Proof.Claims

/-! ## Reading back -/

@[simp] theorem rqGet_rqPut (cl : Nat) (q : RQueue) (s : State) : rqGet cl (rqPut cl q s) = q := tget_tset_same ..

@[simp] theorem coreGet_rqPut (c cl : Nat) (q : RQueue) (s : State) : coreGet c (rqPut cl q s) = coreGet c s := rfl

@[simp] theorem itemFind_rqPut (h cl : Nat) (q : RQueue) (s : State) : itemFind h (rqPut cl q s) = itemFind h s := rfl

@[simp] theorem coreGet_cinc (c a : Nat) (s : State) : coreGet c (cinc a s) = coreGet c s := rfl

@[simp] theorem itemFind_cinc (h a : Nat) (s : State) : itemFind h (cinc a s) = itemFind h s := rfl

@[simp] theorem barGet_barPut (b : Nat) (x : Barrier) (s : State) : barGet b (barPut b x s) = x := tget_tset_same ..

@[simp] theorem linesWritten_dram (a n : Nat) (s : State) : (linesWritten a n s).mem.dram = s.mem.dram := by
  unfold linesWritten
  dsimp only
  split <;> rfl

theorem dramRead_dramWrite (a : Nat) (l : List Byte) (s : State) : dramRead a l.length (dramWrite a l s) = l := by
  rw [dramRead, dramWrite, linesWritten_dram]
  exact Memory.readN_writeN ..

@[simp] theorem dramRead_barPut (a n b : Nat) (x : Barrier) (s : State) : dramRead a n (barPut b x s) = dramRead a n s := rfl

/-! ## The entries a core may be given (R238) -/

/-- A member of a list of numbers is the value that folding `max` gives exactly where no other is greater. -/
theorem eq_foldl_max_iff {n : Nat} {l : List Nat} (mem : n ∈ l) : n = l.foldl max 0 ↔ ∀ m ∈ l, m ≤ n := by
  obtain ⟨top, le⟩ := List.max?_eq_some_iff.mp (List.max?_cons' : (0 :: l).max? = some (l.foldl max 0))
  constructor
  · rintro rfl m other
    exact le m (List.mem_cons_of_mem _ other)
  · intro greatest
    refine Nat.le_antisymm (le n (List.mem_cons_of_mem _ mem)) ?_
    rcases List.mem_cons.mp top with zero | inside
    · exact Nat.le_trans (Nat.le_of_eq zero) (Nat.zero_le n)
    · exact greatest _ inside

theorem exists_greatest {α : Type} (f : α → Nat) {P : α → Prop} {l : List α} (given : ∃ e ∈ l, P e) :
    ∃ e ∈ l, P e ∧ ∀ e2 ∈ l, P e2 → f e2 ≤ f e := by
  classical
  obtain ⟨e, mem, holds⟩ := given
  have value (a : α) (inside : a ∈ l) (meets : P a) : f a ∈ (l.filter fun x => decide (P x)).map f :=
    List.mem_map_of_mem (List.mem_filter.mpr ⟨inside, decide_eq_true meets⟩)
  cases top : ((l.filter fun x => decide (P x)).map f).max? with
  | none => exact absurd (List.max?_eq_none_iff.mp top) (List.ne_nil_of_mem (value e mem holds))
  | some n =>
    obtain ⟨first, le⟩ := List.max?_eq_some_iff.mp top
    obtain ⟨a, chosen, rfl⟩ := List.mem_map.mp first
    obtain ⟨inside, meets⟩ := List.mem_filter.mp chosen
    exact ⟨a, inside, of_decide_eq_true meets, fun e2 mem2 holds2 => le _ (value e2 mem2 holds2)⟩

theorem mem_popChoices {c j : Nat} {q : RQueue} {s : State} : j ∈ popChoices c q s ↔
    ∃ e, q.q[j]? = some e ∧ MayGive c e s ∧ ∀ e2 ∈ q.q, MayGive c e2 s → e2.prio ≤ e.prio := by
  unfold popChoices
  extract_lets ok top
  have mem_ok (k : Nat) : k ∈ ok ↔ ∃ e, q.q[k]? = some e ∧ MayGive c e s := by
    rw [List.mem_filter, List.mem_range]
    cases place : q.q[k]? with
    | none => simp [List.getElem?_eq_none_iff.mp place]
    | some e =>
      obtain ⟨inside, -⟩ := List.getElem?_eq_some_iff.mp place
      cases found : itemFind e.h s with
      | none => simp [MayGive, inside, found]
      | some i => cases again : i.rerun <;> simp [MayGive, inside, found, again]
  have mem_prios (n : Nat) : (n ∈ ok.filterMap fun k => (q.q[k]?).map (·.prio)) ↔ ∃ e ∈ q.q, MayGive c e s ∧ e.prio = n := by
    rw [List.mem_filterMap]
    constructor
    · rintro ⟨k, given, prio⟩
      obtain ⟨e, place, may⟩ := (mem_ok k).mp given
      rw [place] at prio
      exact ⟨e, List.mem_of_getElem? place, may, Option.some.inj prio⟩
    · rintro ⟨e, mem, may, rfl⟩
      obtain ⟨k, place⟩ := List.mem_iff_getElem?.mp mem
      exact ⟨k, (mem_ok k).mpr ⟨e, place, may⟩, by rw [place]; rfl⟩
  have greatest {e : RqEntry} (mem : e ∈ q.q) (may : MayGive c e s) : e.prio = top ↔ ∀ e2 ∈ q.q, MayGive c e2 s → e2.prio ≤ e.prio := by
    rw [eq_foldl_max_iff ((mem_prios e.prio).mpr ⟨e, mem, may, rfl⟩)]
    exact ⟨fun le e2 mem2 may2 => le _ ((mem_prios _).mpr ⟨e2, mem2, may2, rfl⟩), fun le n other =>
      let ⟨e2, mem2, may2, prio⟩ := (mem_prios n).mp other
      prio ▸ le e2 mem2 may2⟩
  rw [List.mem_filter, mem_ok]
  constructor
  · rintro ⟨⟨e, place, may⟩, prio⟩
    refine ⟨e, place, may, (greatest (List.mem_of_getElem? place) may).mp ?_⟩
    simpa [place] using prio
  · rintro ⟨e, place, may, le⟩
    exact ⟨⟨e, place, may⟩, by simpa [place] using (greatest (List.mem_of_getElem? place) may).mpr le⟩

theorem popChoices_ne_nil {c : Nat} {q : RQueue} {s : State} (given : ∃ e ∈ q.q, MayGive c e s) : popChoices c q s ≠ [] := by
  obtain ⟨e, mem, may, le⟩ := exists_greatest (·.prio) given
  obtain ⟨j, place⟩ := List.mem_iff_getElem?.mp mem
  exact List.ne_nil_of_mem (mem_popChoices.mpr ⟨e, place, may, le⟩)

/-! ## A prefetch slot filled (R240) -/

section
variable {c : Nat} {s : State} (takes : TakesItems c s)
include takes

/-- None of the tests that turn a prefetch away from the ready queue holds of a core that takes items. -/
theorem prefetch_open : ¬ (544 ≤ c || [1, 2].contains (fget (R.FLT_BAY_STATUS_state (clusterBay (coreCluster c))) s) ||
      (coreGet c s).pre.isSome) = true ∧
    ¬ (coreSt c s = csDebug || coreSt c s = csHalted) = true ∧ ¬ (!coreServes c s) = true := by
  obtain ⟨core, notLost, notQuar, empty, serves⟩ := takes
  have low : coreSt c s ≤ 1 := by simpa using (Bool.and_eq_true_iff.mp serves).1
  refine ⟨by simp [Nat.not_le.mpr core, notLost, notQuar, empty], ?_, by simp [serves]⟩
  have : coreSt c s ≠ 3 ∧ coreSt c s ≠ 4 := by omega
  simp [csDebug, csHalted, this]

theorem prefetch_given {pick j : Nat} {e : RqEntry} {i : Item} (same : Bool)
    (picked : (popChoices c (rqGet (coreCluster c) s) s)[pick % (popChoices c (rqGet (coreCluster c) s) s).length]? = some j)
    (place : (rqGet (coreCluster c) s).q[j]? = some e) (found : itemFind e.h s = some i) (queued : i.st = .queued (coreCluster c)) :
    prefetch c pick same s = startPre c (corePut c { coreGet c s with pre := some e.h } (itemPut e.h { i with st := .prefetched c }
      (rqPut (coreCluster c) { rqGet (coreCluster c) s with
        q := (rqGet (coreCluster c) s).q.eraseIdx j
        popped := same } (cinc (clCnt (coreCluster c) 0x48) s)))) := by
  obtain ⟨up, running, serves⟩ := prefetch_open takes
  simp only [prefetch, if_neg up, if_neg running, if_neg serves, picked, place, Option.bind_some, Option.map_some, itemFind_rqPut,
    itemFind_cinc, found, queued, ne_eq, not_true_eq_false, if_false]
  rfl

theorem prefetch_nothing {pick : Nat} (same : Bool) (empty : popChoices c (rqGet (coreCluster c) s) s = []) : prefetch c pick same s = s := by
  obtain ⟨up, running, serves⟩ := prefetch_open takes
  simp only [prefetch, if_neg up, if_neg running, if_neg serves, empty]
  rfl

end

theorem carouselPrefetch : Claims.Prefetch := by
  intro c pick s takes q
  refine ⟨fun j => mem_popChoices.mp, popChoices_ne_nil, fun j e i same picked place found queued => ?_, fun empty same => ?_⟩
  · exact congrArg Host.Outcome.next (prefetch_given takes same picked place found queued)
  · exact congrArg Host.Outcome.next (prefetch_nothing takes same empty)

/-! ## Handles tried again (R235) -/

theorem execItemHandleRetry_one {w : HandleWait} {s : State} (waits : s.crsl.waits = [w]) (room : handleRoom w.d.bay s = true) :
    execItemHandleRetry s = .next (waitMake w { s with crsl := { s.crsl with waits := [] } }) := by
  simp [execItemHandleRetry, waits, room]

theorem execItemHandleRetry_full {s : State} (full : ∀ w ∈ s.crsl.waits, handleRoom w.d.bay s = false) : execItemHandleRetry s = .next s := by
  have kept (l : List HandleWait) (sub : ∀ w ∈ l, handleRoom w.d.bay s = false) : l.foldl (fun s w =>
      if handleRoom w.d.bay s then waitMake w { s with crsl := { s.crsl with waits := s.crsl.waits.erase w } } else s) s = s := by
    induction l with
    | nil => rfl
    | cons w r ih =>
      obtain ⟨first, rest⟩ := List.forall_mem_cons.mp sub
      rw [List.foldl_cons, if_neg (by simp [first]), ih rest]
  exact congrArg Host.Outcome.next (kept _ full)

/-! ## A barrier closed (R242) -/

/-- What a barrier whose count is complete leaves before its debug copies are dropped: its status block written, the barrier closed. -/
def barWritten (b : Nat) (s : State) : State :=
  let bytes := barBytes (barGet b s)
  barPut b { barGet b s with closed := true } (match barPlace b bytes.length s with
    | some a => dramWrite a bytes s
    | none => s)

section
variable {b : Nat} {s : State}

theorem barClose_complete (items : List ItemDesc) (opened : (barGet b s).closed = false) (expects : (barGet b s).expected ≠ 0)
    (complete : (barGet b s).counted + (barGet b s).missed = (barGet b s).expected) :
    barClose b items s = itemsMake items (debugDrop b (barWritten b s)) := by
  unfold barClose
  extract_lets x
  rw [if_neg (by simp [x, opened, expects, complete])]
  rfl

theorem barClose_incomplete (items : List ItemDesc) (short : (barGet b s).counted + (barGet b s).missed ≠ (barGet b s).expected) :
    barClose b items s = s := by
  simp [barClose, short]

@[simp] theorem barGet_barWritten : barGet b (barWritten b s) = { barGet b s with closed := true } := barGet_barPut ..

theorem dramRead_barWritten {a : Nat} (place : barPlace b (barBytes (barGet b s)).length s = some a) :
    dramRead a (barBytes (barGet b s)).length (barWritten b s) = barBytes (barGet b s) := by
  rw [barWritten, place]
  exact dramRead_dramWrite ..

end

theorem itemLife : Claims.ItemLife := by
  intro s
  refine ⟨fun w waits room own => ?again, fun w h i waits room copy found shadow => ?copyAgain, fun full => ?full,
    fun h i found late => ?miss, fun c h runs => ?hung, fun b items opened expects complete => ?close, fun b items short => ?short⟩
  case again =>
    refine (execItemHandleRetry_one waits room).trans ?_
    simp only [waitMake, own]
  case copyAgain =>
    have kept : itemFind h { s with crsl := { s.crsl with waits := [] } } = some i := found
    refine (execItemHandleRetry_one waits room).trans ?_
    simp only [waitMake, copy, kept, shadow]
  case full => exact execItemHandleRetry_full full
  case miss =>
    change execDeadlineMiss h s = _
    simp only [execDeadlineMiss, found]
    rw [if_pos (by simpa using late)]
    rfl
  case hung =>
    change execItemHung c s = _
    simp only [execItemHung, runs]
  case close =>
    exact ⟨barWritten b s, congrArg Host.Outcome.next (barClose_complete items opened expects complete), barGet_barWritten,
      fun a place => dramRead_barWritten place⟩
  case short => exact congrArg Host.Outcome.next (barClose_incomplete items short)

/-- Settles O32: a prefetch takes one of the entries of the highest priority that its core may be given; the rest by the cases of each
command. -/
theorem items : Obligations.Items := ⟨carouselPrefetch, itemLife⟩

end Sys2Proof.Machine
end

section
/-! PROOFS. Shadow re-execution decided (R248, R249), and the ready queues: pushes and their level (R244, R245), spills (R245), entries lost to an
uncorrectable error (R246). -/

namespace Sys2Proof.Machine
open Sys2Proof.Claims

/-! ## Runs compared (R248) -/

theorem compared_iff {i : Item} : i.compared = true ↔ Compares i := by
  unfold Item.compared Compares
  split
  · rename_i c st
    exact ⟨fun _ => ⟨c, st⟩, fun _ => rfl⟩
  · rename_i other
    exact ⟨nofun, fun ⟨c, st⟩ => absurd st (other c)⟩

section
variable {h : Nat} {a : Item} {s : State} (held : Compares a)
  (made : ∀ w ∈ s.crsl.waits, ¬ (w.copyOf = some h ∧ w.dbg = none))
  (copies : ∀ i ∈ (copiesOf h s).filterMap fun k => itemFind k s, Compares i)
include held made copies

/-- Nothing is left to wait for before an item is compared: it and its copies have ended, and no copy is still to be made. -/
theorem shadowCompare_ready : ¬ (!a.compared || !((copiesOf h s).filterMap fun k => itemFind k s).all Item.compared ||
    s.crsl.waits.any (fun w => decide (w.copyOf = some h) && w.dbg.isNone)) = true := by
  have all : ((copiesOf h s).filterMap fun k => itemFind k s).all Item.compared = true :=
    List.all_eq_true.mpr fun i mem => compared_iff.mpr (copies i mem)
  have waits : s.crsl.waits.any (fun w => decide (w.copyOf = some h) && w.dbg.isNone) = false :=
    List.any_eq_false.mpr fun w mem => by simpa using made w mem
  simp [compared_iff.mpr held, all, waits]

variable (found : itemFind h s = some a)
include found

/-- Two runs: the original and its first copy. -/
theorem shadowCompare_two {b : Item} (first : ((copiesOf h s).filterMap fun k => itemFind k s).find? (fun i => !i.third) = some b)
    (third : ((copiesOf h s).filterMap fun k => itemFind k s).find? (fun i => i.third) = none) : shadowCompare h s =
      if sameRun a b = true then shadowWin h a (cinc 0x2B0008 s) else shadowCopy h true a (cinc 0x2B0010 s) := by
  simp only [shadowCompare, found, if_neg (shadowCompare_ready held made copies), first, third]

/-- Three runs: the third decides between the original and the first copy. -/
theorem shadowCompare_three {b d : Item} (first : ((copiesOf h s).filterMap fun k => itemFind k s).find? (fun i => !i.third) = some b)
    (third : ((copiesOf h s).filterMap fun k => itemFind k s).find? (fun i => i.third) = some d) : shadowCompare h s =
      if sameRun a d = true then coreSuspect (b.ran.getD 0) 1 (shadowEvent h 2 a b (shadowWin h a s))
      else if sameRun b d = true then coreSuspect (a.ran.getD 0) 1 (shadowEvent h 1 a b (shadowWin h b s))
      else itemMiss h missMajority true (shadowEvent h 3 a b s) := by
  simp only [shadowCompare, found, if_neg (shadowCompare_ready held made copies), first, third]

end

/-- R249: without a decision by offset 22 of the deadline block, the original's run counts. -/
theorem execShadowAbandon_due {h : Nat} {i : Item} {s : State} (found : itemFind h s = some i) (held : Compares i) (own : i.copyOf = none)
    (due : s.clk.stamp = itemDue i.d) (late : 22 ≤ s.clk.offset) : execShadowAbandon h s = .next (shadowWin h i (cinc 0x2B0018 s)) := by
  obtain ⟨c, st⟩ := held
  simp [execShadowAbandon, found, st, own, due, late]

theorem shadowRuns : Claims.ShadowRuns := by
  intro h a s found held made cs
  refine ⟨fun b two heldB first => ?two, fun b d three heldB heldD first third => ?three, fun own due late => ?abandon⟩
  case two =>
    have copies : ∀ i ∈ cs, Compares i := by simpa [two] using heldB
    exact congrArg Host.Outcome.next (shadowCompare_two held made copies found (show cs.find? _ = _ by simp [two, first])
      (show cs.find? _ = _ by simp [two, first]))
  case three =>
    have copies : ∀ i ∈ cs, Compares i := by
      rcases three with order | order <;> simp [order, heldB, heldD]
    have found_first : cs.find? (fun i => !i.third) = some b := by
      rcases three with order | order <;> simp [order, first, third]
    have found_third : cs.find? (fun i => i.third) = some d := by
      rcases three with order | order <;> simp [order, first, third]
    have decided := shadowCompare_three held made copies found found_first found_third
    refine ⟨fun ad => ?_, fun ad bd => ?_, fun ad bd => ?_⟩
    · exact congrArg Host.Outcome.next (decided.trans (if_pos ad))
    · exact congrArg Host.Outcome.next (decided.trans ((if_neg (by simp [ad])).trans (if_pos bd)))
    · exact congrArg Host.Outcome.next (decided.trans ((if_neg (by simp [ad])).trans (if_neg (by simp [bd]))))
  case abandon => exact execShadowAbandon_due found held own due late

/-! ## Pushes (R244, R245) -/

theorem rqGet_signal (cl : Nat) (fn : Fn) (v : Nat) (s : State) : rqGet cl (signal fn v s) = rqGet cl s :=
  congrArg (fun c : Crsl => tget RQueue.init c.queues cl) ((signal_moves ..).same .crsl (by decide))

theorem fget_signal (f : Fld) (fn : Fn) (v : Nat) (s : State) : fget f (signal fn v s) = fget f s := fget_regs f (signal_regs fn v s)

/-- What a queue's registers show of it leaves the fields of its level register as they are. -/
theorem fget_rqPut {cl : Nat} {f : Fld} (level : f.addr = 0x290008 + 256 * cl) (q : RQueue) (s : State) : fget f (rqPut cl q s) = fget f s := by
  have other {g : Fld} (v : Nat) (t : State) (lower : fkey g < 0x290008 * 64 + 256 * cl * 64) : fget f (fset g v t) = fget f t :=
    fget_fset_other _ _ _ _ (by simp only [fkey] at lower ⊢; omega)
  unfold rqPut
  rw [other, other, other, other, other]
  · rfl
  all_goals
    simp only [fkey, R.CRSL_QDEPTH_depth, R.CRSL_QDEPTH_full, R.CRSL_QDEPTH_spill, R.CRSL_QCAP_capacity, R.CRSL_QCAP_staged]
    omega

/-- A handle stored in a ready queue and counted, before the queue's level is looked at. -/
def rqStored (cl h prio : Nat) (s : State) : State :=
  let q := rqGet cl s
  let w := (q.wptr + 1) % q.cap
  rqPut cl { q with
    q := q.q ++ [⟨h, prio, q.wptr⟩]
    wptr := w
    used := true
    due := q.due || decide (w = 0)
    popped := false } (cinc (clCnt cl 0x40) s)

section
variable {cl h prio : Nat} {s : State}

theorem fget_rqStored {f : Fld} (level : f.addr = 0x290008 + 256 * cl) : fget f (rqStored cl h prio s) = fget f s := fget_rqPut level ..

variable (room : (rqGet cl s).q.length < (rqGet cl s).cap)
include room

theorem rqPush_room : rqPush cl h prio s =
    if fget (R.CRSL_QTHRESH_level cl) s = (rqGet cl s).q.length + 1 ∧ (rqGet cl s).popped = false then
      signal .pf (66 + cl) (fset (R.CRSL_QTHRESH_crossed cl) 1 (rqStored cl h prio s))
    else rqStored cl h prio s := by
  have level : fget (R.CRSL_QTHRESH_level cl) (rqStored cl h prio s) = fget (R.CRSL_QTHRESH_level cl) s := fget_rqStored rfl
  unfold rqPush
  extract_lets q
  rw [if_neg (Nat.not_le.mpr room)]
  change (if (fget (R.CRSL_QTHRESH_level cl) (rqStored cl h prio s) = q.q.length + 1 && !q.popped) = true then _ else _) = _
  simp only [level, Bool.and_eq_true, decide_eq_true_eq, Bool.not_eq_true']
  rfl

theorem q_rqPush : (rqGet cl (rqPush cl h prio s)).q = (rqGet cl s).q ++ [⟨h, prio, (rqGet cl s).wptr⟩] := by
  have stored : (rqGet cl (rqStored cl h prio s)).q = (rqGet cl s).q ++ [⟨h, prio, (rqGet cl s).wptr⟩] := by
    rw [rqStored, rqGet_rqPut]
  rw [rqPush_room room]
  split
  · rw [rqGet_signal]
    exact stored
  · exact stored

theorem crossed_rqPush : fget (R.CRSL_QTHRESH_crossed cl) (rqPush cl h prio s) =
    if fget (R.CRSL_QTHRESH_level cl) s = (rqGet cl s).q.length + 1 ∧ (rqGet cl s).popped = false then 1
    else fget (R.CRSL_QTHRESH_crossed cl) s := by
  rw [rqPush_room room]
  split
  · rw [fget_signal, fget_fset]
    rfl
  · exact fget_rqStored rfl

end

/-! ## Spills and uncorrectable entries (R245, R246) -/

theorem execQueueSpillRepush_room {cl : Nat} {e : Nat × Nat} {r : List (Nat × Nat)} {s : State} (spilled : (rqGet cl s).spill = e :: r)
    (room : (rqGet cl s).q.length < (rqGet cl s).cap) : execQueueSpillRepush cl s =
      .next (rqSettle cl (rqPush cl e.1 e.2 (rqPut cl { rqGet cl s with spill := r } s))) := by
  simp only [execQueueSpillRepush, spilled, if_neg (Nat.not_le.mpr room)]

section
variable {q : Nat} {s : State} (pick : Nat)

theorem execQueueEccRescan_ready (ready : q < 32) (entries : (rqGet q s).q ≠ []) : execQueueEccRescan q pick s =
    .next (rescan q (qeccNote q (rqPut q { rqGet q s with q := (rqGet q s).q.eraseIdx (pick % (rqGet q s).q.length) } s))) := by
  have inside : ¬ 64 ≤ q := by omega
  simp only [execQueueEccRescan, if_neg inside, if_pos ready, List.isEmpty_eq_false_iff.mpr entries]
  rfl

/-- An event queue without the entry that a pick names; the next one that it delivers carries OVERFLOW. -/
def evqDropped (k pick : Nat) (s : State) : State :=
  evqLose k 1 (evqPut k { evqGet k s with items := (evqGet k s).items.eraseIdx (pick % (evqGet k s).items.length) } s)

theorem execQueueEccRescan_event (event : 32 ≤ q) (inside : q < 64) (entries : (evqGet (qeccEvq q) s).items ≠ []) :
    execQueueEccRescan q pick s = .next (qeccNote q (evqDropped (qeccEvq q) pick s)) := by
  simp only [execQueueEccRescan, if_neg (Nat.not_le.mpr inside), if_neg (Nat.not_lt.mpr event), List.isEmpty_eq_false_iff.mpr entries]
  rfl

theorem evqGet_evqDropped (k pick : Nat) (s : State) : evqGet k (evqDropped k pick s) = { evqGet k s with
    items := (evqGet k s).items.eraseIdx (pick % (evqGet k s).items.length)
    ovf := true } := by
  rw [evqDropped, evqGet_evqLose, evqGet_evqPut]

theorem evqDropped_moves (k pick : Nat) (s : State) : Moves [.regs, .cnt, .hif] s (evqDropped k pick s) :=
  Moves.seq (evqLose_moves ..) (by decide) ((evqPut_moves ..).mono (by decide))

end

theorem readyQueues : Claims.ReadyQueues := by
  intro s
  refine ⟨fun cl e r spilled room => execQueueSpillRepush_room spilled room, fun cl h prio room => q_rqPush room,
    fun cl h prio _ room => crossed_rqPush room, fun q pick ready entries => execQueueEccRescan_ready pick ready entries,
    fun q pick event inside entries => ⟨evqDropped (qeccEvq q) pick s, execQueueEccRescan_event pick event inside entries, ?_, ?_,
      (evqDropped_moves ..).toChanges⟩⟩
  all_goals rw [evqGet_evqDropped]

/-- Settles O33: the runs compared two by two and then three by three, a handle stored with its queue's level, and the entries that a queue
loses. -/
theorem itemRecovery : Obligations.ItemRecovery := ⟨shadowRuns, readyQueues⟩

end Sys2Proof.Machine
end

section
/-! PROOFS. Pictures on the engines of a tile (R253, R254, R263, R266, R274, R284, R296, R297): the picture of a session that is OUT for a
block, the checkpoint that a picture's end leaves, an engine turned to another stream, pictures started, completed, missed and repeated. -/

set_option Elab.async false

namespace Sys2Proof.Machine
open Sys2Proof.Claims

theorem Moves.vid_eq {ps : List Part} {s t : State} (h : Moves ps s t) (n : Part.vid ∉ ps := by decide) : t.vid = s.vid :=
  h.same .vid n

@[simp] theorem tfind_sessPut (id : Nat) (x : Sess) (s : State) : tfind (sessPut id x s).vid.sess id = some x := tfind_tset_same ..

theorem tfind_sessPut_other {id k : Nat} (x : Sess) (s : State) (other : k ≠ id) :
    tfind (sessPut id x s).vid.sess k = tfind s.vid.sess k := tfind_tset_other _ _ _ _ other

@[simp] theorem tfind_encPut (id : Nat) (e : Enc) (s : State) : tfind (encPut id e s).vid.encs id = some e := tfind_tset_same ..

/-! ## The OUT picture (R266) -/

/-- A picture put out whose own window, and that of the picture whose decoding put it out, are over by block `t`. -/
def Sess.outDue (x : Sess) (t : Nat) (o : OutPic) : Bool := stampGe t (stampAdd o.release x.d) && stampGe t (stampAdd o.at_ x.d)

theorem Sess.outDue_iff {x : Sess} {t : Nat} {o : OutPic} :
    x.outDue t o = true ↔ stampGe t (stampAdd o.release x.d) = true ∧ stampGe t (stampAdd o.at_ x.d) = true := Bool.and_eq_true_iff

/-- The OUT picture is the first due picture against the output order. -/
theorem Sess.outAt_eq_find? (x : Sess) (t : Nat) : x.outAt t = x.outs.reverse.find? (x.outDue t) := by
  change (x.outs.filter (x.outDue t)).getLast? = _
  rw [List.getLast?_eq_head?_reverse, ← List.filter_reverse, List.head?_filter]

/-- Settles O57: the first due picture against the output order has no due picture after it in that order, and there is none exactly where no
picture is due. -/
theorem outPicture : Obligations.OutPicture := by
  intro x t
  simp only [← Sess.outDue_iff, Sess.outAt_eq_find?]
  constructor
  · intro o out
    obtain ⟨due, later, earlier, split, none_later⟩ := List.find?_eq_some_iff_append.mp out
    refine ⟨earlier.reverse, later.reverse, ?_, due, fun q hq => ?_⟩
    · simpa using congrArg List.reverse split
    · simpa using none_later q (List.mem_reverse.mp hq)
  · simp [List.find?_eq_none]

/-! ## The checkpoint after a picture (R274) -/

theorem tfind_sessMark (id : Nat) (x : Sess) (s : State) :
    tfind (sessMark id x s).vid.sess id = some { x with ckpt := x.context (pliTimer id s) } := tfind_sessPut ..

theorem tfind_sessSave (id : Nat) (x : Sess) (s : State) :
    tfind (sessSave id x s).vid.sess id = some { x with ckpt := x.context (pliTimer id s) } := by
  unfold sessSave
  rw [(tileAdd_moves ..).vid_eq, tfind_sessMark]

/-- The reports of a missed picture leave its session as its checkpoint was written. -/
theorem tfind_decodeMissed (id : Nat) (x : Sess) (w : Wait) (p : PicSyn) (s : State) :
    tfind (decodeMissed id x w p s).vid.sess id =
      some { (x.lose w p).forget with ckpt := (x.lose w p).forget.context (pliTimer id s) } := by
  unfold decodeMissed
  rw [(tileSync_moves ..).vid_eq, (raiseObj_moves ..).vid_eq, (determinismLost_moves ..).vid_eq, (tileAdd_moves ..).vid_eq,
    (cinc_moves ..).vid_eq, tfind_sessSave]

/-! ## An engine turned to another stream (R253) -/

/-- The stream that a tile's decode engine works on noted. -/
def decTurned (tile id : Nat) (s : State) : State :=
  { s with vid := { s.vid with tiles := tset s.vid.tiles tile { tileRun tile s with dec := some id } } }

/-- The context of the stream that an engine leaves written to its checkpoint, where no picture of it is in work. -/
def decLeave (r : Nat) (s : State) : State :=
  match tfind s.vid.sess r with
  | some y => if y.work.isNone then sessMark r y s else s
  | none => s

theorem decLeave_idle {r : Nat} {y : Sess} {s : State} (found : tfind s.vid.sess r = some y) (idle : y.work = none) :
    decLeave r s = sessMark r y s := by
  unfold decLeave
  rw [found]
  exact if_pos (congrArg Option.isNone idle)

/-- Leaving a stream writes to no other session, no counter and no tile. -/
theorem decLeave_frame (r : Nat) (s : State) : (decLeave r s).cnt = s.cnt ∧ (decLeave r s).vid.tiles = s.vid.tiles ∧
    ∀ id ≠ r, tfind (decLeave r s).vid.sess id = tfind s.vid.sess id := by
  unfold decLeave
  split
  · split
    · exact ⟨rfl, rfl, fun _ other => tfind_sessPut_other _ _ other⟩
    · exact ⟨rfl, rfl, fun _ _ => rfl⟩
  · exact ⟨rfl, rfl, fun _ _ => rfl⟩

/-- The PLI timer that comes with a checkpoint stands with the forwarder: of the session its load changes the context alone. -/
theorem sessLoad_frame (id : Nat) (x : Sess) (s : State) :
    (sessLoad id x s).vid = (sessPut id x.load s).vid ∧ (sessLoad id x s).cnt = s.cnt := by
  unfold sessLoad
  extract_lets loaded
  split <;> exact ⟨rfl, rfl⟩

section
variable {tile id r : Nat} {x : Sess} {s : State}

theorem decSwitch_same (last : (tileRun tile s).dec = some id) : decSwitch tile id s = decTurned tile id s := if_pos last

theorem decSwitch_other (last : (tileRun tile s).dec = some r) (other : r ≠ id) (found : tfind s.vid.sess id = some x) :
    decSwitch tile id s = sessLoad id x (decLeave r (cinc (0x500050 + 0x4000 * tile) (decTurned tile id s))) := by
  have kept := (decLeave_frame r (cinc (0x500050 + 0x4000 * tile) (decTurned tile id s))).2.2 id other.symm
  have there : tfind (decLeave r (cinc (0x500050 + 0x4000 * tile) (decTurned tile id s))).vid.sess id = some x := kept.trans found
  unfold decSwitch
  simp only [last, Option.some.injEq, other, if_false]
  change (match tfind (decLeave r (cinc (0x500050 + 0x4000 * tile) (decTurned tile id s))).vid.sess id with
    | some x => _
    | none => _) = _
  rw [there]
  rfl

theorem tileRun_decTurned (tile id : Nat) (s : State) : (tileRun tile (decTurned tile id s)).dec = some id :=
  congrArg TileRun.dec (tget_tset_same ..)

theorem cget_cinc {a : Nat} {s : State} (room : cget a s < 2 ^ 64 - 1) : cget a (cinc a s) = cget a s + 1 := by
  have raised : cget a (cinc a s) = min cntMax (cget a s + 1) := tget_tset_same ..
  exact raised.trans (Nat.min_eq_right room)

/-- An engine that worked on another stream counts the switch, takes the stream's context and leaves the other's in its checkpoint. -/
theorem decSwitch_other_leaves (last : (tileRun tile s).dec = some r) (other : r ≠ id) (found : tfind s.vid.sess id = some x)
    (room : cget (0x500050 + 0x4000 * tile) s < 2 ^ 64 - 1) :
    cget (0x500050 + 0x4000 * tile) (decSwitch tile id s) = cget (0x500050 + 0x4000 * tile) s + 1 ∧
      (tileRun tile (decSwitch tile id s)).dec = some id ∧ tfind (decSwitch tile id s).vid.sess id = some x.load ∧
      ∀ y, tfind s.vid.sess r = some y → y.work = none →
        tfind (decSwitch tile id s).vid.sess r = some { y with ckpt := y.context (pliTimer r s) } := by
  rw [decSwitch_other last other found]
  obtain ⟨loaded_vid, loaded_cnt⟩ := sessLoad_frame id x (decLeave r (cinc (0x500050 + 0x4000 * tile) (decTurned tile id s)))
  obtain ⟨left_cnt, left_tiles, -⟩ := decLeave_frame r (cinc (0x500050 + 0x4000 * tile) (decTurned tile id s))
  refine ⟨?_, ?_, ?_, fun y there idle => ?_⟩
  · exact (congrArg (tget 0 · _) (loaded_cnt.trans left_cnt)).trans (cget_cinc room)
  · have tiles := (congrArg Vid.tiles loaded_vid).trans left_tiles
    exact (congrArg (fun l => (tget ⟨none, none⟩ l tile).dec) tiles).trans (tileRun_decTurned tile id s)
  · rw [loaded_vid, tfind_sessPut]
  · rw [loaded_vid, tfind_sessPut_other _ _ other, decLeave_idle (s := cinc _ (decTurned tile id s)) there idle]
    exact tfind_sessMark ..

/-- Whatever stream an engine worked on, what its turn to another leaves. -/
theorem decSwitch_leaves (last : (tileRun tile s).dec = some r) (found : tfind s.vid.sess id = some x)
    (room : cget (0x500050 + 0x4000 * tile) s < 2 ^ 64 - 1) : let t := decSwitch tile id s
    cget (0x500050 + 0x4000 * tile) t = cget (0x500050 + 0x4000 * tile) s + b2n (decide (r ≠ id)) ∧ (tileRun tile t).dec = some id ∧
      (r = id → t.vid.sess = s.vid.sess) ∧ (r ≠ id → tfind t.vid.sess id = some x.load) ∧
      ∀ y, r ≠ id → tfind s.vid.sess r = some y → y.work = none →
        tfind t.vid.sess r = some { y with ckpt := y.context (pliTimer r s) } := by
  by_cases same : r = id
  · subst same
    rw [decSwitch_same last]
    refine ⟨?_, tileRun_decTurned .., fun _ => rfl, fun other => absurd rfl other, fun _ other => absurd rfl other⟩
    rw [decide_eq_false (not_not_intro rfl)]
    rfl
  · obtain ⟨counted, noted, loaded, left⟩ := decSwitch_other_leaves last same found room
    exact ⟨by rw [counted, decide_eq_true same]; rfl, noted, fun e => absurd e same, fun _ => loaded, fun y _ => left y⟩

end

/-! ## Decoding (R253, R254, R274) -/

section
variable {tile id : Nat} {p : PicSyn} {x y : Sess} {w : Wait} {q : List Wait} {k : Work} {s : State}

theorem exec_decodePictureStart (inService : tileIn tile s = true) (idle : decBusy tile s = none) (next : nextDecode tile s = some id)
    (found : tfind (decSwitch tile id s).vid.sess id = some y) (queued : y.queue = w :: q) : exec (.decodePictureStart tile p) s =
      .next (if y.late w s.clk.stamp then s else tileSync tile (decodeStart id y w p (decSwitch tile id s))) := by
  change execDecodePictureStart tile p s = _
  unfold execDecodePictureStart
  simp [inService, idle, next, found, queued]

theorem exec_decodePictureStart_busy (busy : decBusy tile s ≠ none) : exec (.decodePictureStart tile p) s = .next s := by
  change execDecodePictureStart tile p s = _
  unfold execDecodePictureStart
  simp [Option.isSome_iff_ne_none.mpr busy]

theorem exec_decodePictureComplete (busy : decBusy tile s = some id) (found : tfind s.vid.sess id = some x) (work : x.work = some k) :
    exec (.decodePictureComplete tile) s = .next (if x.late k.w s.clk.stamp then s else decTurn (decodeComplete id x k s)) := by
  change execDecodePictureComplete tile s = _
  unfold execDecodePictureComplete
  simp [busy, found, work]

theorem exec_decodePictureMissed_waiting (found : tfind s.vid.sess id = some x) (idle : x.work = none) (queued : x.queue = w :: q) :
    exec (.decodePictureMissed id p) s = .next (if x.late w s.clk.stamp then
      decodeMissed id (({ x with queue := q } : Sess).noteId w) w p s else s) := by
  change execDecodePictureMissed id p s = _
  unfold execDecodePictureMissed
  simp [found, idle, queued]

theorem exec_decodePictureMissed_working (found : tfind s.vid.sess id = some x) (work : x.work = some k) :
    exec (.decodePictureMissed id p) s = .next (if x.late k.w s.clk.stamp then
      decTurn (decodeMissed id { x with work := none } k.w k.p s) else s) := by
  change execDecodePictureMissed id p s = _
  unfold execDecodePictureMissed
  simp [found, work]

end

theorem pictureDecoding : Claims.PictureDecoding := by
  intro tile id x s found
  refine ⟨fun p y w q inService idle next switched queued => ⟨fun early => ?_, fun late => ?_⟩,
    fun p busy => exec_decodePictureStart_busy busy, fun r _ last room => decSwitch_leaves last found room,
    fun k busy work => ⟨fun early => ?_, fun late => ?_⟩, fun p w q idle queued late => ?_, fun p k work late => ?_,
    fun p w q idle queued early => ?_⟩
  · rw [exec_decodePictureStart inService idle next switched queued, show y.late w _ = false from early]
    rfl
  · rw [exec_decodePictureStart inService idle next switched queued, show y.late w _ = true from late]
    rfl
  · rw [exec_decodePictureComplete busy found work, show x.late k.w _ = false from early]
    rfl
  · rw [exec_decodePictureComplete busy found work, show x.late k.w _ = true from late]
    rfl
  · refine ⟨decodeMissed id (({ x with queue := q } : Sess).noteId w) w p s, ?_, tfind_decodeMissed .., ?_⟩
    · rw [exec_decodePictureMissed_waiting found idle queued, show x.late w _ = true from late]
      rfl
    · exact ((decodeMissed_moves ..).mono (by decide)).toChanges
  · refine ⟨decodeMissed id { x with work := none } k.w k.p s, ?_, tfind_decodeMissed .., ?_⟩
    · rw [exec_decodePictureMissed_working found work, show x.late k.w _ = true from late]
      rfl
    · exact ((decodeMissed_moves ..).mono (by decide)).toChanges
  · rw [exec_decodePictureMissed_waiting found idle queued, show x.late w _ = false from early]
    rfl

/-! ## Pictures beyond the admitted rate (R263) -/

/-- What a picture lost would have held is missing. -/
theorem tfind_lose_refresh {i : Nat} {p : PicSyn} (x : Sess) (w : Wait) (held : i ∈ p.refresh) : tfind (x.lose w p).slots i = some none := by
  exact (tfind_foldl_tset (fun _ => none) ..).trans (if_pos held)

theorem decodeRate : Claims.DecodeRate := by
  intro id x w p s y z spatial temporal full
  have beyond : decodeStart id x w p s = determinismLost ((tfind s.ctl.streams id).elim 0 fun st => streamAct st s) 3
      (cinc (strCnt id 0x98) (sessSave id z s)) := by
    have within : ¬ (decide (y.sid < p.sid) || decide (y.tid < p.tid)) = true := by
      simp only [Bool.or_eq_true, decide_eq_true_eq]
      omega
    exact (if_neg within).trans (if_pos full)
  refine ⟨beyond, fun i held => tfind_lose_refresh y w held, ?_⟩
  rw [beyond, (determinismLost_moves ..).vid_eq, (cinc_moves ..).vid_eq, tfind_sessSave]

/-! ## Encoding (R284, R296, R297) -/

/-- One change of an encode's settings, taken where it was made at or before tick `t` (R281). -/
def Enc.settleStep (t : Nat) (e : Enc) (n : Nat × EncCfg × Option (List Roi)) : Enc :=
  if stampGe t n.1 then { e with cfg := n.2.1, roi := n.2.2.getD e.roi, next := e.next.drop 1 } else e

theorem Enc.settle_eq_foldl (e : Enc) (t : Nat) : e.settle t = e.next.foldl (Enc.settleStep t) e := rfl

theorem Enc.settleStep_pics (t : Nat) (e : Enc) (n : Nat × EncCfg × Option (List Roi)) : (Enc.settleStep t e n).pics = e.pics := by
  rw [Enc.settleStep]
  split <;> rfl

/-- The settings that a picture takes leave the pictures. -/
theorem Enc.settle_pics (e : Enc) (t : Nat) : (e.settle t).pics = e.pics := by
  have taken (l : List (Nat × EncCfg × Option (List Roi))) (a : Enc) : (l.foldl (Enc.settleStep t) a).pics = a.pics := by
    induction l generalizing a with
    | nil => rfl
    | cons n l ih => rw [List.foldl_cons, ih, Enc.settleStep_pics]
  rw [Enc.settle_eq_foldl, taken]

/-- The head picture of an encode started is on its engine, with its tick; the pictures behind it stay. -/
theorem tfind_encodeStart {id : Nat} {e : Enc} {q : EncPic} {l : List EncPic} (x : Canvas) (s : State) (head : e.pics = q :: l) :
    ∃ e' p, tfind (encodeStart id e x q s).vid.encs id = some e' ∧ e'.pics = p :: l ∧ p.on = true ∧ p.tick = q.tick := by
  unfold encodeStart
  split
  · refine ⟨_, { q with on := true }, tfind_encPut .., ?_, rfl, rfl⟩
    change _ :: e.pics.drop 1 = _
    rw [head]
    rfl
  · extract_lets e1 due room defer kind tid target served started noted
    have put : tfind noted.vid.encs id = some started := tfind_encPut ..
    refine ⟨started, ⟨q.tick, true, true, kind, tid, target, room, served, e1.lastReq⟩, ?_, ?_, rfl, rfl⟩
    · split
      · rw [(raiseObj_moves ..).vid_eq, (cinc_moves ..).vid_eq, put]
      · exact put
    · change _ :: e1.pics.drop 1 = _
      rw [Enc.settle_pics, head]
      rfl

section
variable {tile id n : Nat} {e : Enc} {x : Canvas} {q : EncPic} {l : List EncPic} {s : State}

theorem exec_encodePictureStart (inService : tileIn tile s = true) (idle : encBusy tile s = none) (next : nextEncode tile s = some id)
    (found : tfind s.vid.encs id = some e) (canvas : tfind s.vid.canvas (id % 256) = some x) (head : e.pics = q :: l) :
    exec (.encodePictureStart tile) s = .next (tileSync tile (encodeStart id e x q (encSwitch tile id s))) := by
  change execEncodePictureStart tile s = _
  unfold execEncodePictureStart
  simp [inService, idle, next, found, canvas, head]

theorem exec_encodePictureStart_busy (busy : encBusy tile s ≠ none) : exec (.encodePictureStart tile) s = .next s := by
  change execEncodePictureStart tile s = _
  unfold execEncodePictureStart
  simp [Option.isSome_iff_ne_none.mpr busy]

theorem exec_encodePictureComplete (o : EncOut) (busy : encBusy tile s = some id) (found : tfind s.vid.encs id = some e)
    (canvas : tfind s.vid.canvas (id % 256) = some x) (head : e.pics = q :: l) :
    exec (.encodePictureComplete tile o) s = .next (encTurn (encodeComplete id e x q o s)) := by
  change execEncodePictureComplete tile o s = _
  unfold execEncodePictureComplete
  simp [busy, found, canvas, head]

theorem exec_repeatPicture (found : tfind s.vid.encs id = some e) (canvas : tfind s.vid.canvas (id % 256) = some x)
    (head : e.pics = q :: l) : exec (.repeatPicture id n) s =
      .next (if (!(x.done.any fun p => decide (p.tick = q.tick)) && stampGe s.clk.stamp (stampAdd q.tick (compBlocks x.width x.height))) ||
        stampGe s.clk.stamp (encEnd x q.tick) then encTurn (repeatPicture id n e x q s) else s) := by
  change execRepeatPicture id n s = _
  unfold execRepeatPicture
  simp only [found, canvas, head]
  rfl

end

theorem pictureEncoding : Claims.PictureEncoding := by
  intro tile id e x q l s found canvas head
  refine ⟨fun inService idle next => ?_, exec_encodePictureStart_busy, fun o busy => exec_encodePictureComplete o busy found canvas head,
    fun n unwritten begun => ?_, fun n ended => ?_, fun n written within => ?_⟩
  · obtain ⟨e', p, put, pics, on, tick⟩ := tfind_encodeStart (id := id) x (encSwitch tile id s) head
    refine ⟨_, e', exec_encodePictureStart inService idle next found canvas head, ?_, ⟨p, pics, on, tick⟩, ?_⟩
    · rw [(tileSync_moves ..).vid_eq, put]
    · exact (Moves.seq (tileSync_moves ..) (by decide) (Moves.seq (encodeStart_moves ..) (by decide)
        ((encSwitch_moves ..).mono (by decide)))).toChanges
  · have input : (x.done.any fun p => decide (p.tick = q.tick)) = false := by simpa using unwritten
    rw [exec_repeatPicture found canvas head, input, begun]
    rfl
  · rw [exec_repeatPicture found canvas head, ended, Bool.or_true]
    rfl
  · have input : (x.done.any fun p => decide (p.tick = q.tick)) = true := by simpa using written
    rw [exec_repeatPicture found canvas head, input, within]
    rfl

/-- Settles O59: each command by the branch of its row that its conditions choose; a start and a miss by what they leave of the session; a picture
beyond the admitted rate by the checks before it. -/
theorem pictureCoding : Obligations.PictureCoding := ⟨pictureDecoding, pictureEncoding, decodeRate⟩

end Sys2Proof.Machine
end

section
/-! PROOFS. Tiles (R275 to R277): a hardware fault, the duty of one tile moved to another, the phases of a firmware swap. -/

set_option Elab.async false

namespace Sys2Proof.Machine
open Sys2Proof.Claims

/-! ## The registers of a tile (R279) -/

/-- The place of a field within its tile's block of 16384 bytes, in the units of the register table's keys. -/
def tilePlace (f : Fld) : Nat := fkey f % 2 ^ 20

theorem tilePlace_field (a lo w r t : Nat) : tilePlace ⟨a + 16384 * t, lo, w, r⟩ = (a * 64 + lo) % 2 ^ 20 := by
  change ((a + 16384 * t) * 64 + lo) % 2 ^ 20 = _
  omega

theorem fget_fset_place {f g : Fld} (apart : tilePlace f ≠ tilePlace g) (v : Nat) (s : State) : fget f (fset g v s) = fget f s :=
  fget_fset_other _ _ _ _ fun e => apart (congrArg (· % 2 ^ 20) e)

/-- The places of a tile's state, of the tile whose duty it has, and of that duty's being valid. -/
def dutyPlaces : List Nat := [0, 256, 263]

/-- The places of a tile's sessions and engines at work, and of its loads. -/
def loadPlaces : List Nat := [3, 4, 8, 16, 512, 528]

theorem state_place (t : Nat) : tilePlace (R.VCT_TILE_STATUS_state t) = 0 := tilePlace_field ..
theorem dutyOf_place (t : Nat) : tilePlace (R.VCT_TILE_DUTY_duty_of t) = 256 := tilePlace_field ..
theorem valid_place (t : Nat) : tilePlace (R.VCT_TILE_DUTY_valid t) = 263 := tilePlace_field ..

theorem fget_fset_load {f : Fld} (duty : tilePlace f ∈ dutyPlaces) {a lo : Nat} (load : (a * 64 + lo) % 2 ^ 20 ∈ loadPlaces)
    (w r t v : Nat) (s : State) : fget f (fset ⟨a + 16384 * t, lo, w, r⟩ v s) = fget f s := by
  have disjoint : ∀ n ∈ dutyPlaces, n ∉ loadPlaces := by decide
  refine fget_fset_place (fun e => disjoint _ duty ?_) v s
  rw [e, tilePlace_field]
  exact load

/-- Showing a tile's sessions and load alters no tile's state and no tile's duty. -/
theorem fget_tileSync {f : Fld} (duty : tilePlace f ∈ dutyPlaces) (t : Nat) (s : State) : fget f (tileSync t s) = fget f s := by
  unfold tileSync
  split
  · rfl
  · have shown {a lo : Nat} := fget_fset_load duty (a := a) (lo := lo)
    calc
      _ = _ := shown (a := 0x500008) (lo := 0) (by decide) ..
      _ = _ := shown (a := 0x500008) (lo := 16) (by decide) ..
      _ = _ := shown (a := 0x500000) (lo := 4) (by decide) ..
      _ = _ := shown (a := 0x500000) (lo := 3) (by decide) ..
      _ = _ := shown (a := 0x500000) (lo := 8) (by decide) ..
      _ = _ := shown (a := 0x500000) (lo := 16) (by decide) ..

/-! ## A duty moved (R275) -/

section
variable {t u : Nat} {s : State}

/-- The registers by which tile `u` takes the duty of tile `t`, which keeps the state `st`. -/
def dutyMoved (t u st : Nat) (s : State) : State :=
  fset (R.VCT_TILE_DUTY_valid u) 1 (fset (R.VCT_TILE_DUTY_duty_of u) (fget (R.VCT_TILE_DUTY_duty_of t) s) (fset (R.VCT_TILE_STATUS_state u) 0
    (fset (R.VCT_TILE_DUTY_valid t) 0 (fset (R.VCT_TILE_STATUS_state t) st s))))

theorem fget_tileMove {f : Fld} (duty : tilePlace f ∈ dutyPlaces) (t u st : Nat) (s : State) :
    fget f (tileMove t u st s) = fget f (dutyMoved t u st s) :=
  (fget_tileSync duty u _).trans (fget_tileSync duty t _)

theorem state_duty (t : Nat) : tilePlace (R.VCT_TILE_STATUS_state t) ∈ dutyPlaces := by rw [state_place]; decide
theorem dutyOf_duty (t : Nat) : tilePlace (R.VCT_TILE_DUTY_duty_of t) ∈ dutyPlaces := by rw [dutyOf_place]; decide
theorem valid_duty (t : Nat) : tilePlace (R.VCT_TILE_DUTY_valid t) ∈ dutyPlaces := by rw [valid_place]; decide

theorem state_apart_valid (t u : Nat) : tilePlace (R.VCT_TILE_STATUS_state t) ≠ tilePlace (R.VCT_TILE_DUTY_valid u) := by
  rw [state_place, valid_place]
  decide

theorem state_apart_dutyOf (t u : Nat) : tilePlace (R.VCT_TILE_STATUS_state t) ≠ tilePlace (R.VCT_TILE_DUTY_duty_of u) := by
  rw [state_place, dutyOf_place]
  decide

theorem valid_apart_dutyOf (t u : Nat) : tilePlace (R.VCT_TILE_DUTY_valid t) ≠ tilePlace (R.VCT_TILE_DUTY_duty_of u) := by
  rw [valid_place, dutyOf_place]
  decide

/-- Fields of one place in different tiles are different fields. -/
theorem fkey_tile_apart (a lo w r : Nat) (other : u ≠ t) : fkey ⟨a + 16384 * t, lo, w, r⟩ ≠ fkey ⟨a + 16384 * u, lo, w, r⟩ := by
  change (a + 16384 * t) * 64 + lo ≠ (a + 16384 * u) * 64 + lo
  omega

theorem fget_state_tileMove_old (other : u ≠ t) : fget (R.VCT_TILE_STATUS_state t) (tileMove t u 2 s) = 2 :=
  (fget_tileMove (state_duty t) t u 2 s).trans <| calc
    _ = _ := fget_fset_place (state_apart_valid t u) _ _
    _ = _ := fget_fset_place (state_apart_dutyOf t u) _ _
    _ = _ := fget_fset_other _ _ _ _ (fkey_tile_apart 0x500000 0 3 0 other)
    _ = _ := fget_fset_place (state_apart_valid t t) _ _
    _ = 2 := fget_fset ..

theorem fget_state_tileMove_new (t u st : Nat) (s : State) : fget (R.VCT_TILE_STATUS_state u) (tileMove t u st s) = 0 :=
  (fget_tileMove (state_duty u) t u st s).trans <| calc
    _ = _ := fget_fset_place (state_apart_valid u u) _ _
    _ = _ := fget_fset_place (state_apart_dutyOf u u) _ _
    _ = 0 := fget_fset ..

theorem fget_valid_tileMove_old (other : u ≠ t) (st : Nat) : fget (R.VCT_TILE_DUTY_valid t) (tileMove t u st s) = 0 :=
  (fget_tileMove (valid_duty t) t u st s).trans <| calc
    _ = _ := fget_fset_other _ _ _ _ (fkey_tile_apart 0x500004 7 1 0 other)
    _ = _ := fget_fset_place (valid_apart_dutyOf t u) _ _
    _ = _ := fget_fset_place (state_apart_valid u t).symm _ _
    _ = 0 := fget_fset ..

theorem fget_valid_tileMove_new (t u st : Nat) (s : State) : fget (R.VCT_TILE_DUTY_valid u) (tileMove t u st s) = 1 :=
  (fget_tileMove (valid_duty u) t u st s).trans (fget_fset ..)

theorem fget_dutyOf_tileMove_new (t u st : Nat) (s : State) :
    fget (R.VCT_TILE_DUTY_duty_of u) (tileMove t u st s) = fget (R.VCT_TILE_DUTY_duty_of t) s % 128 :=
  (fget_tileMove (dutyOf_duty u) t u st s).trans ((fget_fset_place (valid_apart_dutyOf u u).symm _ _).trans (fget_fset ..))

/-- Where every entry of tile `t` is put elsewhere, none of that tile is left. -/
theorem none_of_tile {α : Type} {tile : α → Nat} {away : α → α} (moved : ∀ a, tile (away a) ≠ t) (l : Tbl α) :
    ∀ p ∈ l.map (fun p => (p.1, if tile p.2 = t then away p.2 else p.2)), tile p.2 ≠ t := by
  intro p hp
  obtain ⟨q, -, rfl⟩ := List.mem_map.mp hp
  change tile (if tile q.2 = t then away q.2 else q.2) ≠ t
  split
  · exact moved q.2
  · assumption

/-- The sessions and encodes of tile `t` put on tile `u`, their pictures in work to start again. -/
theorem tileMove_vid (t u st : Nat) (s : State) : (tileMove t u st s).vid = { s.vid with
    sess := s.vid.sess.map fun p => (p.1, if p.2.tile = t then { p.2.restart with tile := u } else p.2)
    encs := s.vid.encs.map fun p => (p.1, if p.2.tile = t then { p.2.restart with tile := u } else p.2) } :=
  (tileSync_moves ..).vid_eq.trans (tileSync_moves ..).vid_eq

theorem tileMove_sess (other : u ≠ t) (st : Nat) (s : State) : ∀ p ∈ (tileMove t u st s).vid.sess, p.2.tile ≠ t := by
  rw [tileMove_vid]
  exact none_of_tile (tile := Sess.tile) (away := fun x => { x.restart with tile := u }) (fun _ => other) s.vid.sess

theorem tileMove_encs (other : u ≠ t) (st : Nat) (s : State) : ∀ p ∈ (tileMove t u st s).vid.encs, p.2.tile ≠ t := by
  rw [tileMove_vid]
  exact none_of_tile (tile := Enc.tile) (away := fun e => { e.restart with tile := u }) (fun _ => other) s.vid.encs

theorem exec_tileHwFault (there : t < 68) : exec (.tileHwFault t) s =
    .next (if fget (R.VCT_TILE_STATUS_state t) s = 2 then s else tileFail faultDeclare t s) := by
  change execTileHwFault t s = _
  unfold execTileHwFault
  simp [Nat.not_le.mpr there]

end

theorem tileFaults : Claims.TileFaults := by
  intro t s there
  refine ⟨fun serves => ?_, fun retired => ?_, fun u _ other => ?_⟩
  · rw [exec_tileHwFault there, if_neg serves]
  · rw [exec_tileHwFault there, if_pos retired]
  · exact ⟨fget_state_tileMove_old other, fget_state_tileMove_new .., fget_valid_tileMove_old other 2, fget_valid_tileMove_new ..,
      fget_dutyOf_tileMove_new .., tileMove_sess other 2 s, tileMove_encs other 2 s, (tileMove_moves ..).toChanges⟩

/-! ## The phases of a firmware swap (R276, R277) -/

section
variable {fn : Fn} {tag ph : Nat} {l : Lop} {o : FwOp} {s : State}

theorem lopFind_of_hif {t : State} (same : t.hif = s.hif) : lopFind fn tag t = lopFind fn tag s :=
  congrArg (fun h : Hif => tfind h.lops (lopKey fn tag)) same

/-- A swap that runs goes on past a safe point. -/
theorem fwSafe_running (found : lopFind fn tag s = some l) (running : l.st = .running) : fwSafe fn tag s = s := by
  unfold fwSafe lopSafe
  simp [found, running]

theorem fwSafe_fwNext (found : lopFind fn tag s = some l) (running : l.st = .running) (o : FwOp) :
    fwSafe fn tag (fwNext fn tag o s) = fwNext fn tag o s :=
  fwSafe_running ((lopFind_of_hif ((fwNext_moves fn tag o s).same .hif (by decide))).trans found) running

/-- What completes a queued swap's first phase begins the swap, and goes on as of a swap that runs. -/
theorem exec_fwSwapPhaseDone_queued (found : lopFind fn tag s = some l) (op : l.opcode = 0x54) (queued : l.st = .queued) (owner : l.fn = fn)
    (tagged : l.tag = tag) (ok : Bool) : exec (.fwSwapPhaseDone fn tag ok) s = exec (.fwSwapPhaseDone fn tag ok) (lopBegin fn tag s) ∧
      lopFind fn tag (lopBegin fn tag s) = some { l with
        st := .running
        started := true } := by
  have begun : lopFind fn tag (lopBegin fn tag s) = some { l with st := .running, started := true } := by
    rw [lopBegin_queued found queued]
    subst owner tagged
    exact lopFind_lopPut { l with st := .running, started := true } s
  refine ⟨congrArg Host.Outcome.next ?_, begun⟩
  unfold fwPhase
  simp [found, begun, op, queued]

/-- A swap that runs may work on, in its phase. -/
theorem swapIn_at_work (swap : SwapIn fn tag ph l o s) : lopFind fn tag s = some l ∧ l.opcode = 0x54 ∧ l.st = .running ∧
    lopActive l = true ∧ tget ⟨fwFetch, [], 0, 0⟩ s.vid.fw (lopKey fn tag) = o ∧ o.phase = ph := by
  obtain ⟨found, op, running, held, phase⟩ := swap
  refine ⟨found, op, running, ?_, held, phase⟩
  unfold lopActive
  rw [running]

/-- The phases are apart. -/
theorem fwPhases_apart : fwVerify ≠ fwFetch ∧ fwLoad ≠ fwFetch ∧ fwLoad ≠ fwVerify ∧ fwArmed ≠ fwFetch ∧ fwArmed ≠ fwVerify ∧
    fwArmed ≠ fwLoad := by decide

theorem exec_fwSwapPhaseDone_fetch (swap : SwapIn fn tag fwFetch l o s) (ok : Bool) : exec (.fwSwapPhaseDone fn tag ok) s =
    .next (if !s.mem.linkUp then s
      else if !ok || !hostOk (carg l.cmd 0x18 8) (carg l.cmd 0x20 4) s then fwEnd fn tag .failed stFailed frFetchErr s
      else fwPut fn tag { o with img := hostRead (carg l.cmd 0x18 8) (carg l.cmd 0x20 4) s, phase := fwVerify } s) := by
  obtain ⟨found, op, running, active, held, phase⟩ := swapIn_at_work swap
  change Host.Outcome.next (fwPhase fn tag ok s) = _
  unfold fwPhase
  simp [found, op, running, active, held, phase]

theorem exec_fwSwapPhaseDone_verify (swap : SwapIn fn tag fwVerify l o s) (ok : Bool) : exec (.fwSwapPhaseDone fn tag ok) s =
    .next (if fwCheck fwTileMagic fwTileMax o.img s ≠ 0 then
        fwEnd fn tag .failed stFailed (fwCheck fwTileMagic fwTileMax o.img s) s
      else fwNext fn tag { o with version := le o.img 0x0C 4 } s) := by
  obtain ⟨found, op, running, active, held, phase⟩ := swapIn_at_work swap
  change Host.Outcome.next (fwPhase fn tag ok s) = _
  unfold fwPhase
  simp [found, op, running, active, held, phase, fwPhases_apart, fwSafe_fwNext found running]

theorem exec_fwSwapPhaseDone_load (swap : SwapIn fn tag fwLoad l o s) (ok : Bool) : exec (.fwSwapPhaseDone fn tag ok) s =
    .next (fwNext fn tag { o with next := o.next + 1 } (fset (R.VCT_TILE_FW_STANDBY_version o.next) o.version s)) := by
  obtain ⟨found, op, running, active, held, phase⟩ := swapIn_at_work swap
  have safe := fwSafe_fwNext (s := fset (R.VCT_TILE_FW_STANDBY_version o.next) o.version s) found running
  change Host.Outcome.next (fwPhase fn tag ok s) = _
  unfold fwPhase
  simp [found, op, running, active, held, phase, fwPhases_apart, safe]

theorem exec_fwSwapPhaseDone_armed (swap : SwapIn fn tag fwArmed l o s) (ok : Bool) : exec (.fwSwapPhaseDone fn tag ok) s = .next s := by
  obtain ⟨found, op, running, active, held, phase⟩ := swapIn_at_work swap
  change Host.Outcome.next (fwPhase fn tag ok s) = _
  unfold fwPhase
  simp [found, op, running, active, held, phase, fwPhases_apart]

end

theorem firmwareSwap : Claims.FirmwareSwap := by
  intro fn tag l o s
  refine ⟨fun found op queued owner tagged => exec_fwSwapPhaseDone_queued found op queued owner tagged, fun swap down ok => ?_,
    fun swap up => ⟨fun reached => ?_, fun unreached => ?_, ?_⟩, fun swap ok => ⟨fun good => ?_, fun bad => ?_⟩,
    exec_fwSwapPhaseDone_load, exec_fwSwapPhaseDone_armed⟩
  · rw [exec_fwSwapPhaseDone_fetch swap, down]
    rfl
  · rw [exec_fwSwapPhaseDone_fetch swap, up, reached]
    rfl
  · rw [exec_fwSwapPhaseDone_fetch swap, up, unreached]
    rfl
  · rw [exec_fwSwapPhaseDone_fetch swap, up]
    rfl
  · rw [exec_fwSwapPhaseDone_verify swap, if_neg (not_not_intro good)]
  · rw [exec_fwSwapPhaseDone_verify swap, if_pos bad]

/-- Settles O40: a fault by the tile's state, the duty moved register by register, the swap phase by phase. -/
theorem tiles : Obligations.Tiles := ⟨tileFaults, firmwareSwap⟩

end Sys2Proof.Machine
end

section
/-! PROOFS. Sending (R314, R316, R318, R319, R321, R322, R361, R364, R365): retransmissions and requests upstream, a fallback tried again, a
rewind ring resized and exported, transmit windows, host frames, the standby scheduler. -/

set_option Elab.async false

namespace Sys2Proof.Machine
open Sys2Proof.Claims

theorem Moves.egr_eq {ps : List Part} {s t : State} (h : Moves ps s t) (n : Part.egr ∉ ps := by decide) : t.egr = s.egr :=
  h.same .egr n

@[simp] theorem fwdLeg_fwdLegPut (n : Nat) (x : FwdLeg) (s : State) : fwdLeg n (fwdLegPut n x s) = x := tget_tset_same ..

@[simp] theorem fwdLeg_cinc (n a : Nat) (s : State) : fwdLeg n (cinc a s) = fwdLeg n s := rfl

/-- A frame put on a queue leaves the forwarder. -/
@[simp] theorem fwdLeg_egrPush (n leg : Nat) (i : EgrItem) (s : State) : fwdLeg n (egrPush leg i s) = fwdLeg n s := by
  unfold egrPush
  split <;> rfl

/-- A frame put on a queue leaves the rewind rings. -/
@[simp] theorem egrPush_rings (leg : Nat) (i : EgrItem) (s : State) : (egrPush leg i s).egr.rings = s.egr.rings := by
  unfold egrPush
  split <;> rfl

/-! ## Retransmissions to a receiver (R318, R319) -/

section
variable {n b id q rid leg t : Nat} {r : Rewind} {w : RwEntry} {s : State}

/-- One NACK waits and is due: it is processed, and none waits on. -/
theorem rtxRun_one (one : (fwdLeg n s).nacks = [(t, id, q)]) (due : stampGe b (stampAdd t 2) = true) :
    rtxRun n b s = rtxOne n b id q (fwdLegPut n { fwdLeg n s with nacks := [] } s) := by
  simp [rtxRun, one, due]

/-- No NACK is due: all wait on. -/
theorem rtxRun_early (early : ∀ p ∈ (fwdLeg n s).nacks, stampGe b (stampAdd p.1 2) = false) : rtxRun n b s = fwdLegPut n (fwdLeg n s) s := by
  have due : ((fwdLeg n s).nacks.filter fun p => stampGe b (stampAdd p.1 2)) = [] :=
    List.filter_eq_nil_iff.mpr fun p waits => by simp [early p waits]
  have kept : ((fwdLeg n s).nacks.filter fun p => !stampGe b (stampAdd p.1 2)) = (fwdLeg n s).nacks :=
    List.filter_eq_self.mpr fun p waits => by simp [early p waits]
  simp only [rtxRun, due, kept]
  rfl

/-- Whether an entry was sent again less than `wait` blocks before block `b`. -/
def RwEntry.recent (w : RwEntry) (b wait : Nat) : Bool :=
  match w.last with
  | some a => decide (stampSub b a < wait)
  | none => false

theorem RwEntry.recent_eq_false {wait : Nat} (rested : ∀ a, w.last = some a → wait ≤ stampSub b a) : w.recent b wait = false := by
  unfold RwEntry.recent
  split
  · next a again => exact decide_eq_false (Nat.not_lt.mpr (rested a again))
  · rfl

/-- Ring `id` and the credit of leg `n` after entry `w` of index `k` is retransmitted at block `b`. -/
def rtxCharged (n b id k : Nat) (r : Rewind) (w : RwEntry) (s : State) : State :=
  let t := fwdLegPut n { fwdLeg n s with credit := (fwdLeg n s).credit - w.packet.length } s
  { t with egr := { t.egr with rings := tset t.egr.rings id { r with
    ents := tset r.ents k { w with count := w.count + 1, last := some b } } } }

theorem credit_rtxCharged (n b id k : Nat) (r : Rewind) (w : RwEntry) (s : State) :
    (fwdLeg n (rtxCharged n b id k r w s)).credit = (fwdLeg n s).credit - w.packet.length :=
  congrArg FwdLeg.credit (fwdLeg_fwdLegPut n _ s)

theorem tfind_rtxCharged (n b id k : Nat) (r : Rewind) (w : RwEntry) (s : State) : tfind (rtxCharged n b id k r w s).egr.rings id =
    some { r with ents := tset r.ents k { w with count := w.count + 1, last := some b } } := tfind_tset_same ..

/-- A number that an RTX context serves, held, sent fewer than three times and not within the round trip, and within the credit, is charged to
both and its packet queued. -/
theorem rtxOne_sends (context : (egrContexts n 2 s).find? (fun r => match tfind s.ctl.streams r with
      | some st => decide (st.rtxOf = id)
      | none => false) = some rid)
    (ring : tfind s.egr.rings id = some r) (held : tfind r.ents (rwExtend r q % 2 ^ r.log2) = some w) (seq : w.seq = rwExtend r q)
    (few : w.count < 3) (rested : ∀ a, w.last = some a → max ((fwdLeg n s).rtt.getD 10) 10 ≤ stampSub b a)
    (credit : w.packet.length ≤ (fwdLeg n s).credit) : ∃ i, rtxOne n b id q s =
      egrPush n i (cinc 0x622008 (cinc (legCnt n 0xA0) (rtxCharged n b id (rwExtend r q % 2 ^ r.log2) r w s))) := by
  unfold rtxOne
  split
  · next rid' first =>
    obtain rfl : rid' = rid := Option.some.inj (first.symm.trans context)
    simp only [ring, held]
    refine ⟨_, (if_neg ?_).trans (if_neg (Nat.not_lt.mpr credit))⟩
    change ¬ (decide (w.seq ≠ rwExtend r q) || decide (3 ≤ w.count) || w.recent b (max ((fwdLeg n s).rtt.getD 10) 10)) = true
    simp [seq, few, RwEntry.recent_eq_false rested]
  · next without => exact nomatch without.symm.trans context

end

/-! ## Requests upstream (R316) -/

section
variable {id b leg : Nat} {st : Stream} {s : State}

/-- The missing numbers of a context that may be requested at block `b`: each at most twice, 20 blocks apart. -/
def nackAsk (id b : Nat) (st : Stream) (s : State) : List Nat :=
  (missingSeqs b st).filter fun q =>
    let m := tget (0, 0) (track id s).miss q
    decide (m.1 = 0) || (decide (m.1 < 2) && decide (20 ≤ stampSub b m.2))

theorem upstreamNack_asks (found : tfind s.ctl.streams id = some st) (video : st.media = 1)
    (rtx : ∃ p ∈ s.ctl.streams, p.2.dir = 0 ∧ p.2.media = 2 ∧ p.2.rtxOf = id) (waiting : frameFirst st ≠ [])
    (soon : stampAfter (frameDue st (frameFirst st)) b = true) (ask : nackAsk id b st s ≠ []) :
    ∃ u, upstreamNack id b s = rtcpFeedback st.leg (fbPacket 1 205 (legSsrc st.leg u).1 st.ssrc
      (((nackAsk id b st s).map fun q => beNats 2 (q % 65536) ++ [0, 0]).flatten)) b u ∧ Changes [.cnt, .fwd] s u := by
  have served : (s.ctl.streams.any fun p => decide (p.2.dir = 0) && decide (p.2.media = 2) && decide (p.2.rtxOf = id)) = true := by
    simpa [and_assoc] using rtx
  have asked : (nackAsk id b st s).isEmpty = false := List.isEmpty_eq_false_iff.mpr ask
  unfold upstreamNack
  simp only [found]
  refine ⟨_, if_neg ?_, (Moves.seq (cinc_moves ..) (by decide) ((trackPut_moves ..).mono (by decide))).toChanges⟩
  change ¬ (decide (st.media ≠ 1) || !_ || !_ || (nackAsk id b st s).isEmpty) = true
  simp [video, served, waiting, soon, asked]

theorem exec_firEscalation {p : Pend} {c : Nat} (pending : (fwdLeg leg s).pend = some p) (key : needsKey (fwdLeg leg s) p s = true)
    (long : 2000 ≤ stampSub s.clk.stamp p.since) (ctx : choiceCtx p.src p.s s = some c) :
    exec (.firEscalation leg) s = .next (fwdFir c s.clk.stamp s) := by
  change execFirEscalation leg s = _
  unfold execFirEscalation
  simp [pending, key, long, ctx]

end

/-! ## A refused fallback tried again (R314) -/

theorem exec_fallbackOpenRetry {leg b0 src : Nat} {l : Leg} {sub : Sub} {s : State} (found : tfind s.ctl.legs leg = some l)
    (refused : (fwdLeg leg s).fall = .refused b0) (subscribed : (fwdLeg leg s).sub = some sub)
    (rested : 2000 ≤ stampSub s.clk.stamp b0) (wanted : fwdWanted leg s.clk.stamp sub l s = some src)
    (allowed : fallAllowed src sub l s = true) :
    exec (.fallbackOpenRetry leg) s = .next (fallTry leg s.clk.stamp src sub l s) := by
  change execFallbackOpenRetry leg s = _
  unfold execFallbackOpenRetry fallRetry
  simp [found, refused, subscribed, Nat.not_lt.mpr rested, wanted, allowed]

/-! ## A rewind ring resized (R322) -/

section
variable {fn : Fn} {id n : Nat} {r : Rewind} {s : State}

theorem exec_fwdRwResize (small : id < 65536) (least : 6 ≤ n) (most : n ≤ 14) (owned : owns fn 2 id s = true) :
    exec (.fwdRwResize fn (id + n * 2 ^ 16 + 2 ^ 31)) s = .next (rwStage id n s) := by
  obtain ⟨-, length, go⟩ := bits_jrResize small most
  have low : (id + n * 2 ^ 16 + 2 ^ 31) % 65536 = id := by omega
  change execFwdRwResize fn (id + n * 2 ^ 16 + 2 ^ 31) s = _
  simp only [execFwdRwResize, low, length, go, owned, within, least, most]
  rfl

theorem rwStage_found (found : tfind s.egr.rings id = some r) :
    let s1 := { s with egr := { s.egr with rings := tset s.egr.rings id { r with staged := some n } } }
    rwStage id n s = if r.top.isNone then rwResize id s1 else s1 := by
  simp only [rwStage, found]

end

theorem forwarderRows : Claims.ForwarderRows := by
  intro s
  refine ⟨fun leg id q t one due => ?_, fun leg early => ?_, fun n b id q rid r w context ring held seq few rested credit => ?_,
    fun id st found video rtx waiting soon ask => ?_, fun leg p c pending key long ctx => exec_firEscalation pending key long ctx,
    fun leg l b0 sub src found refused subscribed rested wanted allowed =>
      exec_fallbackOpenRetry found refused subscribed rested wanted allowed,
    fun fn id n r small least most owned found => ⟨fun written => ?_, fun empty => ?_⟩⟩
  · exact congrArg Host.Outcome.next (rtxRun_one one due)
  · refine ⟨_, congrArg Host.Outcome.next (rtxRun_early early), ?_, (fwdLegPut_moves ..).toChanges⟩
    rw [fwdLeg_fwdLegPut]
  · obtain ⟨i, sent⟩ := rtxOne_sends context ring held seq few rested credit
    simp only [sent, fwdLeg_egrPush, fwdLeg_cinc, credit_rtxCharged, egrPush_rings, cinc_egr, tfind_rtxCharged]
    exact ⟨trivial, _, rfl, tfind_tset_same ..⟩
  · obtain ⟨u, sent, changes⟩ := upstreamNack_asks found video rtx waiting soon ask
    exact ⟨u, congrArg Host.Outcome.next sent, changes⟩
  · rw [exec_fwdRwResize small least most owned, rwStage_found found, if_neg (by simpa [Option.isSome_iff_ne_none] using written)]
  · rw [exec_fwdRwResize small least most owned, rwStage_found found, if_pos (by simp [empty])]

/-! ## Host frames (R364) -/

section
variable {fn : Fn} {v a size leg : Nat} {s : State}

theorem exec_htxFrameSubmit (small : v < 4096) : exec (.htxFrameSubmit fn v) s =
    .next (if 2 ^ fget (R.EGR_HTX_CFG_log2 fn) s ≤ v then s
      else if fon (R.EGR_HTX_CFG_enable fn) s then htxDrain 4096 fn (fset (R.EGR_HTX_TAIL_tail fn) v s)
      else fset (R.EGR_HTX_TAIL_tail fn) v s) := by
  have enable : fon (R.EGR_HTX_CFG_enable fn) (fset (R.EGR_HTX_TAIL_tail fn) v s) = fon (R.EGR_HTX_CFG_enable fn) s :=
    congrArg (· != 0) (fget_fset_other _ _ _ _ (by simp only [fkey, R.EGR_HTX_CFG_enable, R.EGR_HTX_TAIL_tail]; omega))
  change execHtxFrameSubmit fn v s = _
  simp only [execHtxFrameSubmit, Nat.mod_eq_of_lt small, enable]

/-- A slot that names a leg of the function, its frame from the leg's source, is queued in the leg's class 0. -/
theorem htxTake_queues {e : EgrLeg} {p : Path} {frame : List Byte}
    (bytes : hostRead (a + 32) (min (le (hostRead a 32 s) 0 2) (size - 32)) s = frame) (named : le (hostRead a 32 s) 4 2 = leg)
    (real : leg ≠ 0xFFFF) (found : tfind s.egr.legs leg = some e) (path : e.path = some p) (owned : owns fn 0 leg s = true)
    (source : htxSource leg p frame s = true) (room : (e.q.filter fun i => i.wire.isSome).length < 512) :
    ∃ x, htxTake fn a size s = egrPush leg x s ∧ x.wire = some frame ∧ x.cls = 0 ∧ x.made = s.clk.stamp := by
  unfold htxTake
  simp only [bytes, named, if_neg real, found, path, owned, source]
  exact ⟨_, if_neg (Nat.not_le.mpr room), rfl, rfl, rfl⟩

/-- A VF's slot that names no leg is refused. -/
theorem htxTake_legless {r : Nat} (named : le (hostRead a 32 s) 4 2 = 0xFFFF) :
    htxTake (.vf r) a size s = htxDenied (.vf r) 0xFFFF s := by
  unfold htxTake
  simp only [named]
  rfl

end

/-! ## The standby scheduler (R365) -/

/-- The scheduler's fault declared. -/
def schedulerDeclared (link : Nat) (s : State) : State :=
  (faultDeclare ⟨linkUnit link s, 2, 2, 0, 0, 0, link % 8, 0xFF, severity EV_SCHED_TAKEOVER 0, 0⟩ s).2

theorem schedulerDeclared_egr (link : Nat) (s : State) : (schedulerDeclared link s).egr = s.egr := (faultDeclare_moves ..).egr_eq

/-- A link's other scheduler in charge. -/
def schedulerSwapped (link : Nat) (s : State) : State :=
  { s with egr := { s.egr with standby := tset s.egr.standby link (!tget false s.egr.standby link) } }

theorem exec_schedulerTakeover (link : Nat) (s : State) : let u := schedulerSwapped link (schedulerDeclared link s)
    exec (.schedulerTakeover link) s = .next (raiseUnit EV_SCHED_TAKEOVER (linkUnit link u) (link % 8) u) := rfl

theorem egressRows : Claims.EgressRows := by
  intro s
  refine ⟨fun link there => ?_, fun fn v small inside enabled => ?_, fun fn v small beyond => ?_,
    fun fn a size leg e p named real found path owned source room => htxTake_queues rfl named real found path owned source room,
    fun r a size named => htxTake_legless named, fun link => ⟨_, exec_schedulerTakeover link s, ?_, ?_⟩⟩
  · exact congrArg Host.Outcome.next (if_pos there)
  · rw [exec_htxFrameSubmit small, if_neg (Nat.not_le.mpr inside), if_pos enabled]
  · rw [exec_htxFrameSubmit small, if_pos beyond]
  · rw [← schedulerDeclared_egr link s]
    exact tget_tset_same ..
  · change (schedulerDeclared link s).egr.legs = _
    rw [schedulerDeclared_egr]

/-! ## A rewind ring exported (R321) -/

theorem rewindExport : Claims.RewindExport := by
  intro fn tag l s found op atWork
  have works : (decide (l.st ≠ .queued) && !lopActive l) = false := by
    rcases atWork with queued | active
    · simp [queued]
    · simp [active]
  have same : (lopBegin fn tag s).egr = s.egr := (lopBegin_moves ..).egr_eq
  refine ⟨fun e begun => congrArg Host.Outcome.next ?_, fun r x y fresh ring range => congrArg Host.Outcome.next ?_,
    fun r fresh ring lost => congrArg Host.Outcome.next ?_⟩
  · simp only [expChunk, found, op, works, same, begun]
    rfl
  · simp only [expChunk, found, op, works, same, fresh, ring, range]
    rfl
  · simp only [expChunk, found, op, works, same, fresh, ring, lost]
    rfl

/-- Settles O37: each command by the branch of its row that its conditions choose; a retransmission by its charge to ring and credit, which
queueing its packet leaves. -/
theorem sending : Obligations.Sending := ⟨forwarderRows, egressRows, rewindExport⟩

end Sys2Proof.Machine
end

section
/-! PROOFS. What every command may change, and that every step keeps the machine's invariant (spec/95_what_each_step_holds.md). -/

namespace Sys2Proof.Machine
open Sys2Proof.Claims

/-! ## Every command -/

/-- A frame widened: the parts that an operation changes are among those that may change. -/
theorem Runs.within {ps qs : List Part} {s : State} {o : Host.Outcome State Fault Refusal} (h : Runs ps s o)
    (sub : (ps.all fun p => qs.contains p) = true) : Runs qs s o :=
  h.mono fun p hp => List.contains_iff_mem.mp (List.all_eq_true.mp sub p hp)

/-- Every command answers a next state, changes the parts listed for it alone, and keeps the invariant: each by the frame of its row. -/
theorem exec_runs (c : Instr) (s : State) : Runs (touched c) s (exec c s) := by
  cases c with
  | blockStart _ => exact (execBlockStart_runs ..).within rfl
  | telemetrySnapshot _ => exact (execTelemetrySnapshot_runs ..).within rfl
  | rtcpReportSend _ => exact (execRtcpReportSend_runs ..).within rfl
  | stampFloorWrite => exact (execStampFloorWrite_runs ..).within rfl
  | ddrRetrainPause _ _ => exact (execDdrRetrainPause_runs ..).within rfl
  | ptpPps => exact (execPtpPps_runs ..).within rfl
  | commandFetch _ => exact (execCommandFetch_runs ..).within rfl
  | nop _ => exact (execNop_runs ..).within rfl
  | identify _ => exact (execIdentify_runs ..).within rfl
  | ringStatus _ => exact (execRingStatus_runs ..).within rfl
  | lopQuery _ => exact (execLopQuery_runs ..).within rfl
  | lopSuspend _ => exact (execLopSuspend_runs ..).within rfl
  | lopResume _ => exact (execLopResume_runs ..).within rfl
  | lopCancel _ => exact (execLopCancel_runs ..).within rfl
  | framingLoad _ => exact (execFramingLoad_runs ..).within rfl
  | framingDelta _ => exact (execFramingDelta_runs ..).within rfl
  | framingRollback _ => exact (execFramingRollback_runs ..).within rfl
  | framingDequeue _ _ => exact (execFramingDequeue_runs ..).within rfl
  | framingFetchChunk _ _ => exact (execFramingFetchChunk_runs ..).within rfl
  | framingSignDone _ _ => exact (execFramingSignDone_runs ..).within rfl
  | framingPass1Timber _ _ => exact (execFramingPass1Timber_runs ..).within rfl
  | framingPass2Timber _ _ => exact (execFramingPass2Timber_runs ..).within rfl
  | framingCheckDone _ _ => exact (execFramingCheckDone_runs ..).within rfl
  | actAdmit _ => exact (execActAdmit_runs ..).within rfl
  | actRelease _ => exact (execActRelease_runs ..).within rfl
  | legAdmit _ => exact (execLegAdmit_runs ..).within rfl
  | legStart _ => exact (execLegStart_runs ..).within rfl
  | legRoute _ => exact (execLegRoute_runs ..).within rfl
  | legRelease _ => exact (execLegRelease_runs ..).within rfl
  | legDrainEnd _ => exact (execLegDrainEnd_runs ..).within rfl
  | streamAdmit _ => exact (execStreamAdmit_runs ..).within rfl
  | streamRelease _ => exact (execStreamRelease_runs ..).within rfl
  | keyBind _ => exact (execKeyBind_runs ..).within rfl
  | rekeyGraceEnd _ => exact (execRekeyGraceEnd_runs ..).within rfl
  | canvasAdmit _ => exact (execCanvasAdmit_runs ..).within rfl
  | canvasRelease _ => exact (execCanvasRelease_runs ..).within rfl
  | encodeAdmit _ => exact (execEncodeAdmit_runs ..).within rfl
  | encodeRelease _ => exact (execEncodeRelease_runs ..).within rfl
  | audSafeLoad _ => exact (execAudSafeLoad_runs ..).within rfl
  | layoutSet _ => exact (execLayoutSet_runs ..).within rfl
  | keypicRequest _ => exact (execKeypicRequest_runs ..).within rfl
  | shaperSet _ => exact (execShaperSet_runs ..).within rfl
  | rewindMark _ => exact (execRewindMark_runs ..).within rfl
  | rewindExport _ => exact (execRewindExport_runs ..).within rfl
  | rewindExportChunk _ _ => exact (execRewindExportChunk_runs ..).within rfl
  | capture _ => exact (execCapture_runs ..).within rfl
  | replay _ => exact (execReplay_runs ..).within rfl
  | telemetrySet _ => exact (execTelemetrySet_runs ..).within rfl
  | keyZeroise _ => exact (execKeyZeroise_runs ..).within rfl
  | zeroiseAck => exact (execZeroiseAck_runs ..).within rfl
  | bayQuarantine _ => exact (execBayQuarantine_runs ..).within rfl
  | bayWarmReset _ => exact (execBayWarmReset_runs ..).within rfl
  | baySelftest _ => exact (execBaySelftest_runs ..).within rfl
  | bayReturn _ => exact (execBayReturn_runs ..).within rfl
  | bayDrainComplete _ => exact (execBayDrainComplete_runs ..).within rfl
  | selftestSegmentDone _ _ _ => exact (execSelftestSegmentDone_runs ..).within rfl
  | tileFwSwap _ => exact (execTileFwSwap_runs ..).within rfl
  | fwSwapPhaseDone _ _ _ => exact (execFwSwapPhaseDone_runs ..).within rfl
  | cascadeJoin _ => exact (execCascadeJoin_runs ..).within rfl
  | cascadeLeave _ => exact (execCascadeLeave_runs ..).within rfl
  | faultlogRead _ => exact (execFaultlogRead_runs ..).within rfl
  | mbxIdentity _ _ _ => exact (execMbxIdentity_runs ..).within rfl
  | mbxStatus _ _ _ => exact (execMbxStatus_runs ..).within rfl
  | mbxFaultlogRead _ _ _ _ => exact (execMbxFaultlogRead_runs ..).within rfl
  | mbxKeyZeroise _ _ _ _ => exact (execMbxKeyZeroise_runs ..).within rfl
  | mbxBayQuarantine _ _ _ _ => exact (execMbxBayQuarantine_runs ..).within rfl
  | mbxBayWarmReset _ _ _ _ => exact (execMbxBayWarmReset_runs ..).within rfl
  | wdtKick _ _ _ => exact (execWdtKick_runs ..).within rfl
  | smbusResponseRead => exact (execSmbusResponseRead_runs ..).within rfl
  | smbusBusRecovery => exact (execSmbusBusRecovery_runs ..).within rfl
  | cmdSqTailWrite _ _ => exact (execCmdSqTailWrite_runs ..).within rfl
  | cmdCqHeadWrite _ _ => exact (execCmdCqHeadWrite_runs ..).within rfl
  | cmdResultAck _ _ => exact (execCmdResultAck_runs ..).within rfl
  | cmdEnable _ _ => exact (execCmdEnable_runs ..).within rfl
  | sqHaltedClear _ => exact (execSqHaltedClear_runs ..).within rfl
  | cqHaltedClear _ => exact (execCqHaltedClear_runs ..).within rfl
  | intEvqHeadWrite _ _ _ => exact (execIntEvqHeadWrite_runs ..).within rfl
  | eventDeliver _ _ _ => exact (execEventDeliver_runs ..).within rfl
  | reg64HalfRead _ _ => exact (execReg64HalfRead_runs ..).within rfl
  | reg64HalfWrite _ _ _ => exact (execReg64HalfWrite_runs ..).within rfl
  | registerWrite _ _ _ _ => exact (execRegisterWrite_runs ..).within rfl
  | functionLevelReset _ => exact (execFunctionLevelReset_runs ..).within rfl
  | pcieLinkDown => exact (execPcieLinkDown_runs ..).within rfl
  | frameReceive _ _ _ _ _ _ => exact (execFrameReceive_runs ..).within rfl
  | cipherVerdict _ => exact (execCipherVerdict_runs ..).within rfl
  | videoFrameTimeout _ _ => exact (execVideoFrameTimeout_runs ..).within rfl
  | bufferResizeEffect _ _ => exact (execBufferResizeEffect_runs ..).within rfl
  | ingJrResize _ => exact (execIngJrResize_runs ..).within rfl
  | ingExcHeadWrite _ _ => exact (execIngExcHeadWrite_runs ..).within rfl
  | ethLinkEnable _ => exact (execEthLinkEnable_runs ..).within rfl
  | ethLinkDisable _ => exact (execEthLinkDisable_runs ..).within rfl
  | linkSignalDetect _ => exact (execLinkSignalDetect_runs ..).within rfl
  | linkAcquireTimeout _ => exact (execLinkAcquireTimeout_runs ..).within rfl
  | linkTrainDone _ => exact (execLinkTrainDone_runs ..).within rfl
  | linkTrainTimeout _ => exact (execLinkTrainTimeout_runs ..).within rfl
  | linkLock _ _ _ => exact (execLinkLock_runs ..).within rfl
  | linkLockTimeout _ => exact (execLinkLockTimeout_runs ..).within rfl
  | fecCodewordLock _ => exact (execFecCodewordLock_runs ..).within rfl
  | linkFault _ _ => exact (execLinkFault_runs ..).within rfl
  | linkDegradeDetect _ _ => exact (execLinkDegradeDetect_runs ..).within rfl
  | ptpTimeSet _ => exact (execPtpTimeSet_runs ..).within rfl
  | ptpNsRead => exact (execPtpNsRead_runs ..).within rfl
  | ptpStep _ => exact (execPtpStep_runs ..).within rfl
  | keyLoad _ => exact (execKeyLoad_runs ..).within rfl
  | keyErase _ => exact (execKeyErase_runs ..).within rfl
  | keyAbort _ => exact (execKeyAbort_runs ..).within rfl
  | keyLoadDataWrite _ _ _ => exact (execKeyLoadDataWrite_runs ..).within rfl
  | keyOpComplete => exact (execKeyOpComplete_runs ..).within rfl
  | keySlotError _ => exact (execKeySlotError_runs ..).within rfl
  | scaCfgWrite _ => exact (execScaCfgWrite_runs ..).within rfl
  | entropyHealthFail => exact (execEntropyHealthFail_runs ..).within rfl
  | srcSelectFilter _ => exact (execSrcSelectFilter_runs ..).within rfl
  | srcBindSlot _ => exact (execSrcBindSlot_runs ..).within rfl
  | srcUnbindSlot _ => exact (execSrcUnbindSlot_runs ..).within rfl
  | srcBankCoefWrite _ => exact (execSrcBankCoefWrite_runs ..).within rfl
  | srcBankCommit => exact (execSrcBankCommit_runs ..).within rfl
  | srcBankAbort => exact (execSrcBankAbort_runs ..).within rfl
  | srcBankClear => exact (execSrcBankClear_runs ..).within rfl
  | tdmFrame _ _ => exact (execTdmFrame_runs ..).within rfl
  | tdmClockLoss _ => exact (execTdmClockLoss_runs ..).within rfl
  | tdmDmaRequest _ _ => exact (execTdmDmaRequest_runs ..).within rfl
  | periphWithdraw _ _ _ => exact (execPeriphWithdraw_runs ..).within rfl
  | tdmPinShort _ _ _ => exact (execTdmPinShort_runs ..).within rfl
  | tdmPinTest _ _ _ _ => exact (execTdmPinTest_runs ..).within rfl
  | tdmPinRetest _ _ _ => exact (execTdmPinRetest_runs ..).within rfl
  | tdmAutoSwap _ => exact (execTdmAutoSwap_runs ..).within rfl
  | tdmDupTakeover _ => exact (execTdmDupTakeover_runs ..).within rfl
  | debugEnable _ _ => exact (execDebugEnable_runs ..).within rfl
  | debugHaltRequest _ => exact (execDebugHaltRequest_runs ..).within rfl
  | debugStep _ => exact (execDebugStep_runs ..).within rfl
  | debugResume _ => exact (execDebugResume_runs ..).within rfl
  | debugInterrupt _ => exact (execDebugInterrupt_runs ..).within rfl
  | coreHwFault _ _ => exact (execCoreHwFault_runs ..).within rfl
  | tmbNop _ => exact (execTmbNop_runs ..).within rfl
  | tmbAdd _ _ _ _ _ => exact (execTmbAdd_runs ..).within rfl
  | tmbSub _ _ _ _ _ => exact (execTmbSub_runs ..).within rfl
  | tmbAnd _ _ _ _ => exact (execTmbAnd_runs ..).within rfl
  | tmbOr _ _ _ _ => exact (execTmbOr_runs ..).within rfl
  | tmbXor _ _ _ _ => exact (execTmbXor_runs ..).within rfl
  | tmbShl _ _ _ _ _ => exact (execTmbShl_runs ..).within rfl
  | tmbShr _ _ _ _ => exact (execTmbShr_runs ..).within rfl
  | tmbShrl _ _ _ _ => exact (execTmbShrl_runs ..).within rfl
  | tmbShlv _ _ _ _ _ => exact (execTmbShlv_runs ..).within rfl
  | tmbShrv _ _ _ _ => exact (execTmbShrv_runs ..).within rfl
  | tmbMin _ _ _ _ => exact (execTmbMin_runs ..).within rfl
  | tmbMax _ _ _ _ => exact (execTmbMax_runs ..).within rfl
  | tmbAbs _ _ _ _ => exact (execTmbAbs_runs ..).within rfl
  | tmbNeg _ _ _ _ => exact (execTmbNeg_runs ..).within rfl
  | tmbMullo _ _ _ _ _ => exact (execTmbMullo_runs ..).within rfl
  | tmbClz _ _ _ => exact (execTmbClz_runs ..).within rfl
  | tmbSext16 _ _ _ => exact (execTmbSext16_runs ..).within rfl
  | tmbPack _ _ _ _ => exact (execTmbPack_runs ..).within rfl
  | tmbCmplt _ _ _ _ => exact (execTmbCmplt_runs ..).within rfl
  | tmbCmpeq _ _ _ _ => exact (execTmbCmpeq_runs ..).within rfl
  | tmbCmpltu _ _ _ _ => exact (execTmbCmpltu_runs ..).within rfl
  | tmbRda _ _ _ _ _ _ => exact (execTmbRda_runs ..).within rfl
  | tmbRdah _ _ _ => exact (execTmbRdah_runs ..).within rfl
  | tmbWra _ _ _ _ _ => exact (execTmbWra_runs ..).within rfl
  | tmbAdda _ _ _ _ _ => exact (execTmbAdda_runs ..).within rfl
  | tmbSuba _ _ _ _ _ => exact (execTmbSuba_runs ..).within rfl
  | tmbClra _ _ => exact (execTmbClra_runs ..).within rfl
  | tmbSat24 _ _ _ => exact (execTmbSat24_runs ..).within rfl
  | tmbAddi _ _ _ _ _ => exact (execTmbAddi_runs ..).within rfl
  | tmbAndi _ _ _ _ => exact (execTmbAndi_runs ..).within rfl
  | tmbOri _ _ _ _ => exact (execTmbOri_runs ..).within rfl
  | tmbXori _ _ _ _ => exact (execTmbXori_runs ..).within rfl
  | tmbMovi _ _ _ => exact (execTmbMovi_runs ..).within rfl
  | tmbMovhi _ _ _ => exact (execTmbMovhi_runs ..).within rfl
  | tmbCmplti _ _ _ _ => exact (execTmbCmplti_runs ..).within rfl
  | tmbCmpeqi _ _ _ _ => exact (execTmbCmpeqi_runs ..).within rfl
  | tmbLdw _ _ _ _ _ _ => exact (execTmbLdw_runs ..).within rfl
  | tmbLdh _ _ _ _ _ _ => exact (execTmbLdh_runs ..).within rfl
  | tmbLdhu _ _ _ _ _ _ => exact (execTmbLdhu_runs ..).within rfl
  | tmbStw _ _ _ _ _ _ => exact (execTmbStw_runs ..).within rfl
  | tmbSth _ _ _ _ _ _ => exact (execTmbSth_runs ..).within rfl
  | tmbBeqz _ _ _ => exact (execTmbBeqz_runs ..).within rfl
  | tmbBnez _ _ _ => exact (execTmbBnez_runs ..).within rfl
  | tmbBltz _ _ _ => exact (execTmbBltz_runs ..).within rfl
  | tmbBgez _ _ _ => exact (execTmbBgez_runs ..).within rfl
  | tmbBr _ _ => exact (execTmbBr_runs ..).within rfl
  | tmbBlc _ _ => exact (execTmbBlc_runs ..).within rfl
  | tmbCall _ _ => exact (execTmbCall_runs ..).within rfl
  | tmbRet _ => exact (execTmbRet_runs ..).within rfl
  | tmbMtc _ _ _ => exact (execTmbMtc_runs ..).within rfl
  | tmbMfc _ _ _ => exact (execTmbMfc_runs ..).within rfl
  | tmbXrd _ _ => exact (execTmbXrd_runs ..).within rfl
  | tmbXwr _ _ => exact (execTmbXwr_runs ..).within rfl
  | transferComplete _ _ => exact (execTransferComplete_runs ..).within rfl
  | tmbWaitx _ _ => exact (execTmbWaitx_runs ..).within rfl
  | tmbEnd _ => exact (execTmbEnd_runs ..).within rfl
  | tmbReti _ => exact (execTmbReti_runs ..).within rfl
  | tmbBkpt _ _ => exact (execTmbBkpt_runs ..).within rfl
  | tmbFault _ _ => exact (execTmbFault_runs ..).within rfl
  | tmbMac _ _ _ _ _ _ _ _ _ _ _ => exact (execTmbMac_runs ..).within rfl
  | tmbMsu _ _ _ _ _ _ _ _ _ _ _ => exact (execTmbMsu_runs ..).within rfl
  | tmbMpy _ _ _ _ _ _ _ _ _ _ _ => exact (execTmbMpy_runs ..).within rfl
  | tmbLdp _ _ _ _ _ _ _ => exact (execTmbLdp_runs ..).within rfl
  | corePrefetch _ _ => exact (execCorePrefetch_runs ..).within rfl
  | itemHandleRetry => exact (execItemHandleRetry_runs ..).within rfl
  | deadlineMiss _ => exact (execDeadlineMiss_runs ..).within rfl
  | itemHung _ => exact (execItemHung_runs ..).within rfl
  | barrierClose _ _ => exact (execBarrierClose_runs ..).within rfl
  | shadowCompare _ => exact (execShadowCompare_runs ..).within rfl
  | shadowAbandon _ => exact (execShadowAbandon_runs ..).within rfl
  | queueSpillRepush _ => exact (execQueueSpillRepush_runs ..).within rfl
  | queueEccRescan _ _ => exact (execQueueEccRescan_runs ..).within rfl
  | decodePictureStart _ _ => exact (execDecodePictureStart_runs ..).within rfl
  | decodePictureComplete _ => exact (execDecodePictureComplete_runs ..).within rfl
  | decodePictureMissed _ _ => exact (execDecodePictureMissed_runs ..).within rfl
  | tileHwFault _ => exact (execTileHwFault_runs ..).within rfl
  | encodePictureStart _ => exact (execEncodePictureStart_runs ..).within rfl
  | encodePictureComplete _ _ => exact (execEncodePictureComplete_runs ..).within rfl
  | repeatPicture _ _ => exact (execRepeatPicture_runs ..).within rfl
  | canvasTick _ => exact (execCanvasTick_runs ..).within rfl
  | compositionComplete _ _ => exact (execCompositionComplete_runs ..).within rfl
  | compositionMissed _ => exact (execCompositionMissed_runs ..).within rfl
  | dpFrameStart => exact (execDpFrameStart_runs ..).within rfl
  | dpCtrlWrite _ => exact (execDpCtrlWrite_runs ..).within rfl
  | dpHpdHigh _ => exact (execDpHpdHigh_runs ..).within rfl
  | dpTrainPass _ => exact (execDpTrainPass_runs ..).within rfl
  | dpTrainStepFail => exact (execDpTrainStepFail_runs ..).within rfl
  | dpRetryTimer => exact (execDpRetryTimer_runs ..).within rfl
  | dpHpdIrq => exact (execDpHpdIrq_runs ..).within rfl
  | dpHpdLow => exact (execDpHpdLow_runs ..).within rfl
  | receiverNack _ => exact (execReceiverNack_runs ..).within rfl
  | upstreamNack _ => exact (execUpstreamNack_runs ..).within rfl
  | firEscalation _ => exact (execFirEscalation_runs ..).within rfl
  | fallbackOpenRetry _ => exact (execFallbackOpenRetry_runs ..).within rfl
  | fwdSubscribe _ => exact (execFwdSubscribe_runs ..).within rfl
  | fwdUnsubscribe _ => exact (execFwdUnsubscribe_runs ..).within rfl
  | fwdSetLegCap _ => exact (execFwdSetLegCap_runs ..).within rfl
  | fwdRwResize _ _ => exact (execFwdRwResize_runs ..).within rfl
  | transmitWindow _ => exact (execTransmitWindow_runs ..).within rfl
  | htxFrameSubmit _ _ => exact (execHtxFrameSubmit_runs ..).within rfl
  | schedulerTakeover _ => exact (execSchedulerTakeover_runs ..).within rfl
  | ddrEccCorrected _ _ _ _ => exact (execDdrEccCorrected_runs ..).within rfl
  | ddrEccUncorrectable _ _ _ _ _ => exact (execDdrEccUncorrectable_runs ..).within rfl
  | ddrCaParityAlert _ _ => exact (execDdrCaParityAlert_runs ..).within rfl
  | ddrChannelLoss _ _ _ _ => exact (execDdrChannelLoss_runs ..).within rfl
  | ledgerEcc _ _ => exact (execLedgerEcc_runs ..).within rfl
  | dmaChAdd _ _ _ => exact (execDmaChAdd_runs ..).within rfl
  | dmaDescriptorComplete _ => exact (execDmaDescriptorComplete_runs ..).within rfl
  | dmaFenceComplete _ => exact (execDmaFenceComplete_runs ..).within rfl
  | dmaStop _ => exact (execDmaStop_runs ..).within rfl
  | dmaAbort _ _ => exact (execDmaAbort_runs ..).within rfl
  | dmaResume _ => exact (execDmaResume_runs ..).within rfl
  | dmaEnable _ _ => exact (execDmaEnable_runs ..).within rfl
  | dmaTakeover => exact (execDmaTakeover_runs ..).within rfl
  | bayHeartbeatMiss _ => exact (execBayHeartbeatMiss_runs ..).within rfl
  | bayLossDeclared _ _ => exact (execBayLossDeclared_runs ..).within rfl
  | lockstepMismatch _ => exact (execLockstepMismatch_runs ..).within rfl
  | rmSelftestDone _ _ => exact (execRmSelftestDone_runs ..).within rfl
  | casHello _ => exact (execCasHello_runs ..).within rfl
  | casJoinAck _ => exact (execCasJoinAck_runs ..).within rfl
  | casLeave _ => exact (execCasLeave_runs ..).within rfl
  | casAudio _ => exact (execCasAudio_runs ..).within rfl
  | casVideo _ => exact (execCasVideo_runs ..).within rfl
  | casVideoReq _ => exact (execCasVideoReq_runs ..).within rfl
  | helloResend => exact (execHelloResend_runs ..).within rfl
  | joinTimeout => exact (execJoinTimeout_runs ..).within rfl
  | memberLoss _ => exact (execMemberLoss_runs ..).within rfl
  | casMapAct => exact (execCasMapAct_runs ..).within rfl
  | casUnmapAct => exact (execCasUnmapAct_runs ..).within rfl
  | casSetSeat => exact (execCasSetSeat_runs ..).within rfl
  | casRemoteSource => exact (execCasRemoteSource_runs ..).within rfl
  | casKeyLoad => exact (execCasKeyLoad_runs ..).within rfl
  | casKeyErase => exact (execCasKeyErase_runs ..).within rfl
  | casKeyAbort => exact (execCasKeyAbort_runs ..).within rfl
  | traceEnable => exact (execTraceEnable_runs ..).within rfl
  | frmSignerRevoke _ => exact (execFrmSignerRevoke_runs ..).within rfl
  | bootStart => exact (execBootStart_runs ..).within rfl
  | romSelftestDone _ _ => exact (execRomSelftestDone_runs ..).within rfl
  | fwVerifyDone => exact (execFwVerifyDone_runs ..).within rfl
  | ledgerReadDone => exact (execLedgerReadDone_runs ..).within rfl
  | imageLoadDone => exact (execImageLoadDone_runs ..).within rfl
  | clocksLocked _ _ => exact (execClocksLocked_runs ..).within rfl
  | dramTrainDone _ => exact (execDramTrainDone_runs ..).within rfl
  | baysUpDone _ => exact (execBaysUpDone_runs ..).within rfl
  | portsStarted _ => exact (execPortsStarted_runs ..).within rfl
  | stoppedRelease => exact (execStoppedRelease_runs ..).within rfl
  | supplySag _ => exact (execSupplySag_runs ..).within rfl
  | saveComplete => exact (execSaveComplete_runs ..).within rfl
  | railWarn _ => exact (execRailWarn_runs ..).within rfl
  | keeperReset => exact (execKeeperReset_runs ..).within rfl
  | sysReset => exact (execSysReset_runs ..).within rfl
  | pciePerst => exact (execPciePerst_runs ..).within rfl
  | thermalWarn _ _ => exact (execThermalWarn_runs ..).within rfl
  | thermalClear => exact (execThermalClear_runs ..).within rfl
  | thermalTrip _ _ => exact (execThermalTrip_runs ..).within rfl
  | refclkLoss _ => exact (execRefclkLoss_runs ..).within rfl
  | refclkRevert _ => exact (execRefclkRevert_runs ..).within rfl
  | holdupTestPeriodic _ _ _ _ => exact (execHoldupTestPeriodic_runs ..).within rfl
  | holdupTestRequest _ _ _ _ => exact (execHoldupTestRequest_runs ..).within rfl
  | holdupDisable _ => exact (execHoldupDisable_runs ..).within rfl
  | holdupSenseTimeout _ => exact (execHoldupSenseTimeout_runs ..).within rfl
  | holdupReverseDetect _ => exact (execHoldupReverseDetect_runs ..).within rfl
  | watchdogExpiry => exact (execWatchdogExpiry_runs ..).within rfl
  | pwrWdtKick => exact (execPwrWdtKick_runs ..).within rfl
  | spiErase => exact (execSpiErase_runs ..).within rfl
  | spiProgram => exact (execSpiProgram_runs ..).within rfl
  | spiRead => exact (execSpiRead_runs ..).within rfl
  | spiVerifyFw => exact (execSpiVerifyFw_runs ..).within rfl
  | spiVerifyImage => exact (execSpiVerifyImage_runs ..).within rfl
  | spiOpDone _ => exact (execSpiOpDone_runs ..).within rfl
  | ptpLockChange => exact (execPtpLockChange_runs ..).within rfl
  | unitFailed _ _ => exact (execUnitFailed_runs ..).within rfl
  | pcieLinkUp => exact (execPcieLinkUp_runs ..).within rfl
  | tdmClockRestored _ => exact (execTdmClockRestored_runs ..).within rfl
  | videoReqStop _ => exact (execVideoReqStop_runs ..).within rfl
  | audLegMeterRead _ => exact (execAudLegMeterRead_runs ..).within rfl

/-- No command may change the queue of waiting commands. -/
theorem pending_notMem_touched (c : Instr) : Part.pending ∉ touched c := by
  intro listed
  have contains : (touched c).contains .pending = true := List.contains_iff_mem.mpr listed
  cases c <;> cases contains

/-- Settles O48, from the frames of the rows: what leaves the part `pending` out leaves the queue as it is. -/
theorem everyCommandsFrame : Obligations.EveryCommandsFrame := by
  intro c s
  obtain ⟨t, run, moves⟩ := exec_runs c s
  exact ⟨t, run, moves.toChanges, moves.same .pending (pending_notMem_touched c)⟩

/-! ## A step -/

theorem step_cons {c : Instr} {rest : List Instr} {s : State} (waits : s.pending = c :: rest) :
    step s = exec c { s with pending := rest } := by
  simp [step, waits]

theorem step_nil {s : State} (empty : s.pending = []) : step s = .next (idle s) := by
  simp [step, empty]

/-- Settles O46: the definition of a step where a command waits. -/
theorem stepRunsCommand : Obligations.StepRunsCommand := fun _ _ _ waits => step_cons waits

/-! ## The tick of an empty queue (log entry 1) -/

theorem idle_tick {s : State} (before : s.clk.offset < 23) : idle s = { s with clk := { s.clk with offset := s.clk.offset + 1 } } :=
  if_pos before

theorem idle_end {s : State} (last : 23 ≤ s.clk.offset) : idle s = s := if_neg (Nat.not_lt.mpr last)

theorem idle_stamp (s : State) : (idle s).clk.stamp = s.clk.stamp := by
  unfold idle
  split <;> rfl

/-- Settles O47, by the two cases of a tick: before the block's last sample and at it. -/
theorem emptyQueueTicks : Obligations.EmptyQueueTicks := by
  intro s empty
  refine ⟨_, step_nil empty, (idle_moves s).toChanges, idle_stamp s, fun before => ?_, idle_end⟩
  rw [idle_tick before]

/-! ## The invariant -/

/-- The queue of waiting commands is no part of the invariant. -/
theorem Sound.of_pending {s : State} (sound : Sound s) (l : List Instr) : Sound { s with pending := l } :=
  ⟨sound.mem, sound.regs, sound.cnt, sound.shadow, sound.clk⟩

/-- Settles O49: a step is a command's run on the state without it in the queue, or a tick; each keeps the invariant. -/
theorem invariantKept : Obligations.InvariantKept := by
  intro s t sound run
  rcases waits : s.pending with _ | ⟨c, rest⟩
  · cases (step_nil waits).symm.trans run
    exact (idle_moves s).keeps sound
  · exact (exec_runs c _).keeps ((step_cons waits).symm.trans run) (sound.of_pending rest)

/-! ## Reset (R438) -/

/-- Settles O50: at reset no memory, register or counter is listed, and the clocks stand at 0. -/
theorem invariantAtReset : Obligations.InvariantAtReset :=
  ⟨⟨rfl, rfl, rfl, rfl⟩, rfl, cntOk_nil, cntOk_nil, (⟨by decide, by decide, by decide, by decide⟩ : clkOk State.reset.clk)⟩

/-- Settles O51: each group's reset value, read off the state after reset. -/
theorem resetState : Obligations.ResetState := by
  refine ⟨rfl, rfl, rfl, rfl, rfl, rfl, rfl, rfl, rfl, rfl, rfl, rfl, rfl, rfl, rfl, fun l => rfl, rfl, rfl, rfl, rfl, rfl, rfl⟩

end Sys2Proof.Machine
end

section
/-! PROOFS. Rules about frames, register fields and table folds that the rows of the keeper, the Bays and the cascade share. -/

namespace Sys2Proof.Machine
open Sys2Proof.Claims

/-- The frame of a row, said of the state that it answers. -/
theorem Runs.changes {ps : List Part} {s t : State} {o : Host.Outcome State Fault Refusal} (h : Runs ps s o) (e : o = .next t) :
    Changes ps s t := by
  obtain ⟨u, run, moves⟩ := h
  cases e.symm.trans run
  exact moves.toChanges

theorem Moves.flt_eq {ps : List Part} {s t : State} (h : Moves ps s t) (n : Part.flt ∉ ps := by decide) : t.flt = s.flt :=
  h.same .flt n

/-- A field that each step of a fold leaves keeps its value. -/
theorem fget_foldl {α : Type} {f : Fld} {g : State → α → State} (keeps : ∀ s a, fget f (g s a) = fget f s) (l : List α) (s : State) :
    fget f (l.foldl g s) = fget f s := by
  induction l generalizing s with
  | nil => rfl
  | cons a l ih => exact (ih (g s a)).trans (keeps s a)

theorem fget_ite {c : Prop} [Decidable c] {f : Fld} {s x y : State} (h : fget f x = fget f s) (k : fget f y = fget f s) :
    fget f (if c then x else y) = fget f s := by
  split
  · exact h
  · exact k

/-! ## Numbered fields set in their order -/

section
variable {f : Nat → Fld} {v : Nat → Nat} {s : State}

/-- Each numbered field holds its own value. -/
theorem fget_foldl_fset {k n : Nat} (apart : ∀ m, m ≠ n → fkey (f n) ≠ fkey (f m)) (below : n < k) :
    fget (f n) ((List.range k).foldl (fun s n => fset (f n) (v n) s) s) = v n % 2 ^ (f n).w := by
  induction k with
  | zero => exact absurd below (Nat.not_lt_zero n)
  | succ k ih =>
    rw [List.range_succ, List.foldl_append, List.foldl_cons, List.foldl_nil]
    rcases Nat.lt_succ_iff_lt_or_eq.mp below with earlier | rfl
    · rw [fget_fset_other _ _ _ _ (apart k (Nat.ne_of_gt earlier)), ih earlier]
    · exact fget_fset ..

end

end Sys2Proof.Machine
end

section
/-! PROOFS. The phases of boot, from KEEP_ON to PORTS (R437, R438). -/

namespace Sys2Proof.Machine
open Sys2Proof.Claims

/-! ## Phases (R437) -/

theorem inPhase_at {p : Nat} {f : State → State} {s : State} (here : phase s = p) : inPhase p f s = .next (f s) :=
  congrArg Host.Outcome.next (if_pos here)

theorem inPhase_other {p : Nat} {f : State → State} {s : State} (other : phase s ≠ p) : inPhase p f s = .next s :=
  congrArg Host.Outcome.next (if_neg other)

theorem phase_phaseTo {p : Nat} (small : p < 16) (s : State) : phase (phaseTo p s) = p := by
  rw [phase, phaseTo, fget_fset]
  exact Nat.mod_eq_of_lt small

theorem fget_phaseTo {f : Fld} (other : fkey f ≠ fkey R.PWR_STATUS_phase) (p : Nat) (s : State) : fget f (phaseTo p s) = fget f s :=
  fget_fset_other _ _ _ _ other

/-- A command that ends a phase of boot does nothing in any other phase. -/
theorem exec_bootRow_other {k : Nat} {i : Instr} {s : State} (row : BootRow k i) (other : phase s ≠ k) : exec i s = .next s := by
  rcases row with ⟨rfl, rfl⟩ | ⟨rfl, a, b, rfl⟩ | ⟨rfl, rfl⟩ | ⟨rfl, rfl⟩ | ⟨rfl, rfl⟩ | ⟨rfl, a, b, rfl⟩ | ⟨rfl, l, rfl⟩ | ⟨rfl, l, rfl⟩ |
    ⟨rfl, n, rfl⟩
  · show execBootStart s = _
    exact inPhase_other other
  · show execRomSelftestDone a b s = _
    exact inPhase_other other
  · show execFwVerifyDone s = _
    exact inPhase_other other
  · show execLedgerReadDone s = _
    exact inPhase_other other
  · show execImageLoadDone s = _
    exact inPhase_other other
  · show execClocksLocked a b s = _
    exact inPhase_other other
  · show execDramTrainDone l s = _
    exact inPhase_other other
  · show execBaysUpDone l s = _
    exact inPhase_other other
  · show execPortsStarted n s = _
    exact inPhase_other other

section
variable {s : State}

/-! ## KEEP_ON and ROM -/

theorem bootStart_rom (keepOn : phase s = 0) : ∃ t, exec .bootStart s = .next t ∧ phase t = 1 ∧ Changes [.regs] s t := by
  show ∃ t, execBootStart s = .next t ∧ _
  exact ⟨_, inPhase_at keepOn, phase_phaseTo (by decide) s, (phaseTo_moves ..).toChanges⟩

theorem romSelftestDone_both (rom : phase s = 1) : ∃ t, exec (.romSelftestDone true true) s = .next t ∧ phase t = 2 ∧
    t.pwr.single = none ∧ Changes [.regs, .pwr] s t := by
  show ∃ t, execRomSelftestDone true true s = .next t ∧ _
  refine ⟨_, inPhase_at rom, phase_phaseTo (by decide) _, rfl, ?_⟩
  exact (Moves.seq (phaseTo_moves ..) (by decide) (Moves.pwr_with (by decide) (Moves.refl _ _))).toChanges

theorem romSelftestDone_neither (rom : phase s = 1) : ∃ t, exec (.romSelftestDone false false) s = .next t ∧ phase t = 15 ∧
    t.pwr.held = true ∧ Changes [.regs, .pwr] s t := by
  show ∃ t, execRomSelftestDone false false s = .next t ∧ _
  refine ⟨_, inPhase_at rom, phase_phaseTo (by decide) _, rfl, ?_⟩
  exact (Moves.seq (phaseTo_moves ..) (by decide) (Moves.pwr_with (by decide) (Moves.refl _ _))).toChanges

/-- The Ringmaster on the one core that passes, `core`; the other is noted as failed. -/
def rmSingle (core : Nat) (s : State) : State :=
  fset R.FLT_RM_STATUS_core core (fset R.FLT_RM_STATUS_single 1 { s with
    pwr := { s.pwr with single := some core }
    flt := { s.flt with rmFailed := [1 - core] } })

theorem execRomSelftestDone_one (rom : phase s = 1) (a : Bool) :
    execRomSelftestDone a (!a) s = .next (phaseTo phFw (rmSingle (b2n !a) s)) := by
  cases a <;> exact inPhase_at rom

theorem romSelftestDone_one (rom : phase s = 1) (a : Bool) : ∃ t, exec (.romSelftestDone a !a) s = .next t ∧ phase t = 2 ∧
    fget R.FLT_RM_STATUS_single t = 1 ∧ fget R.FLT_RM_STATUS_core t = b2n (!a) ∧ t.flt.rmFailed = [b2n a] ∧
    Changes [.regs, .flt, .pwr] s t := by
  show ∃ t, execRomSelftestDone a (!a) s = .next t ∧ _
  have run := execRomSelftestDone_one rom a
  refine ⟨_, run, phase_phaseTo (by decide) _, ?_, ?_, ?_, (execRomSelftestDone_runs ..).changes run⟩
  · simp (disch := decide) only [fget_phaseTo, rmSingle, fget_fset_other, fget_fset]
    rfl
  · simp (disch := decide) only [fget_phaseTo, rmSingle, fget_fset]
    exact b2n_mod_two _
  · cases a <;> rfl

/-! ## FW -/

theorem fwVerifyDone_phases (fw : phase s = 2) : ∃ t, exec .fwVerifyDone s = .next t ∧ Changes [.regs] s t ∧
    (fwSlotCode 0 s = 0 → phase t = 3 ∧ fget R.PWR_BOOT_FW_slot t = 0) ∧
    (fwSlotCode 0 s ≠ 0 → fwSlotCode 1 s = 0 → phase t = 3 ∧ fget R.PWR_BOOT_FW_slot t = 1) ∧
    (fwSlotCode 0 s ≠ 0 → fwSlotCode 1 s ≠ 0 → phase t = 10) := by
  show ∃ t, execFwVerifyDone s = .next t ∧ _
  have run : execFwVerifyDone s = _ := inPhase_at fw
  refine ⟨_, run, (execFwVerifyDone_runs s).changes run, fun a => ?_, fun a b => ?_, fun a b => ?_⟩
  · rw [if_neg (by simp [a]), a]
    exact ⟨phase_phaseTo (by decide) _, (fget_phaseTo (by decide) ..).trans (fget_fset ..)⟩
  · rw [if_neg (by simp [b]), decide_eq_true a]
    exact ⟨phase_phaseTo (by decide) _, (fget_phaseTo (by decide) ..).trans (fget_fset ..)⟩
  · rw [if_pos (by simp [a, b])]
    exact phase_phaseTo (by decide) _

/-! ## LEDGER -/

/-- LEDGER's end: one more boot, the retired units as the Ledger's table gives them; the entry that ROM_FAIL held changes neither. -/
theorem ledgerReadDone_image (ledger : phase s = 3) : ∃ t, exec .ledgerReadDone s = .next t ∧ phase t = 4 ∧
    t.flt.boots = (hdrNow s).boots + 1 ∧ t.flt.retired = retiredRead s := by
  show ∃ t, execLedgerReadDone s = .next t ∧ _
  refine ⟨_, inPhase_at ledger, phase_phaseTo (by decide) _, ?_⟩
  extract_lets h n unsaved units written counted last shown keeper logged
  have kept : logged.flt = { s.flt with
      boots := n
      retired := retiredRead s } := by
    have hdr : written.flt = _ := (hdrWrite_moves ..).flt_eq
    unfold logged
    split
    · exact (faultLog_moves ..).flt_eq.trans hdr
    · exact hdr
  exact ⟨(congrArg Flt.boots kept :), (congrArg Flt.retired kept :)⟩

/-! ## IMAGE -/

theorem imageLoadDone_a {img : List Byte} {m : List Timber} (image : phase s = 4) (a : imgBoot 0 s = .ok (img, m)) :
    ∃ t, exec .imageLoadDone s = .next t ∧ phase t = 5 ∧ t.pwr.imgSlot = 0 := by
  show ∃ t, execImageLoadDone s = .next t ∧ _
  refine ⟨_, inPhase_at image, ?_⟩
  simp only [a]
  exact ⟨phase_phaseTo (by decide) _, rfl⟩

theorem imageLoadDone_b {a : Nat} {img : List Byte} {m : List Timber} (image : phase s = 4) (bad : imgBoot 0 s = .error a)
    (b : imgBoot 1 (fset R.FRM_BOOT_INFO_slot_a_code a s) = .ok (img, m)) :
    ∃ t, exec .imageLoadDone s = .next t ∧ phase t = 5 ∧ t.pwr.imgSlot = 1 := by
  show ∃ t, execImageLoadDone s = .next t ∧ _
  refine ⟨_, inPhase_at image, ?_⟩
  simp only [bad, b]
  exact ⟨phase_phaseTo (by decide) _, rfl⟩

theorem imageLoadDone_none {a b : Nat} (image : phase s = 4) (badA : imgBoot 0 s = .error a)
    (badB : imgBoot 1 (fset R.FRM_BOOT_INFO_slot_a_code a s) = .error b) :
    ∃ t, exec .imageLoadDone s = .next t ∧ phase t = 11 ∧ fget R.FRM_STATUS_state t = 3 ∧ Changes [.regs] s t := by
  show ∃ t, execImageLoadDone s = .next t ∧ _
  refine ⟨_, inPhase_at image, ?_⟩
  simp only [badA, badB]
  refine ⟨phase_phaseTo (by decide) _, (fget_phaseTo (by decide) ..).trans (fget_fset ..), ?_⟩
  exact (Moves.seq (phaseTo_moves ..) (by decide) (Moves.seq (fset_moves ..) (by decide) (Moves.seq (fset_moves ..) (by decide)
    (fset_moves ..)))).toChanges

/-! ## CLOCKS (R431, R433) -/

theorem fon_fset_b2n (f : Fld) (v : Bool) (s : State) (wide : 0 < f.w) : fon f (fset f (b2n v) s) = v := by
  rw [fon, fget_fset, Nat.mod_eq_of_lt (Nat.lt_of_lt_of_le (b2n_lt_two v) (Nat.le_self_pow (Nat.ne_of_gt wide) 2))]
  cases v <;> rfl

/-- The references' bits once both are shown. -/
theorem refGood_both (a b : Bool) (s : State) :
    refGood 0 (refGoodPut 0 a (refGoodPut 1 b s)) = a ∧ refGood 1 (refGoodPut 0 a (refGoodPut 1 b s)) = b := by
  refine ⟨fon_fset_b2n _ a _ (by decide), ?_⟩
  show fon R.PWR_CLK_STATUS_b_good (fset R.PWR_CLK_STATUS_a_good (b2n a) (fset R.PWR_CLK_STATUS_b_good (b2n b) s)) = b
  rw [fon, fget_fset_other _ _ _ _ (by decide)]
  exact fon_fset_b2n _ b _ (by decide)

theorem refGood_fset_ref (r v : Nat) (s : State) : refGood r (fset R.PWR_CLK_STATUS_ref v s) = refGood r s := by
  simp (disch := decide) only [refGood, fon, fget_fset_other]

/-- The reference that the PLLs lock to, and whether it is good, as the plan's reference `p` and the two references' goodness give them. -/
theorem lockRef_cases {p : Nat} (two : p < 2) (a b : Bool) {s : State} (goodA : refGood 0 s = a) (goodB : refGood 1 s = b) :
    let r := if refGood p s then p else 1 - p
    r = (if (p = 0 ∧ a = true) ∨ (p = 1 ∧ b = true) then p else 1 - p) ∧ r < 2 ∧ refGood r s = (a || b) := by
  have either : p = 0 ∨ p = 1 := by omega
  rcases either with rfl | rfl
  · cases a <;> simp [goodA, goodB]
  · cases b <;> simp [goodA, goodB]

theorem clocksLocked_dram (clocks : phase s = 5) (two : planRefclk s < 2) (a b : Bool) :
    ∃ t, exec (.clocksLocked a b) s = .next t ∧ phase t = 6 ∧ Changes [.regs] s t ∧
      fget R.PWR_CLK_STATUS_ref t = (if (planRefclk s = 0 ∧ a = true) ∨ (planRefclk s = 1 ∧ b = true) then planRefclk s else 1 - planRefclk s) ∧
      fget R.PWR_CLK_STATUS_holdover t = b2n (!(a || b)) ∧ fget R.PWR_CLK_STATUS_keeper_osc t = b2n (!(a || b)) := by
  show ∃ t, execClocksLocked a b s = .next t ∧ _
  have run : execClocksLocked a b s = _ := inPhase_at clocks
  refine ⟨_, run, phase_phaseTo (by decide) _, (execClocksLocked_runs ..).changes run, ?_⟩
  obtain ⟨goodA, goodB⟩ := refGood_both a b s
  obtain ⟨ref, small, good⟩ := lockRef_cases two a b goodA goodB
  dsimp only
  rw [refGood_fset_ref, good, ref]
  rw [ref] at small
  simp (disch := decide) only [fget_phaseTo, fget_fset_other, fget_fset]
  exact ⟨Nat.mod_eq_of_lt small, b2n_mod_two _, b2n_mod_two _⟩

/-! ## DRAM -/

theorem planFits_of_frm {t : State} (pop : List Nat) (same : t.frm = s.frm) : planFits pop t = planFits pop s := by
  rw [planFits, same, planFits]

/-- The channels of a plan shown as training leaves them. -/
def trainShow (chans : List Nat) (s : State) : State :=
  (planChans (devBody s.frm.timbers tyMem)).foldl (fun s c =>
    fset (R.DDR_CH_STATUS_state c) (if chans.contains c then 2 else 0)
      (fset (R.DDR_CH_STATUS_gib c) (chanGib c s) (fset (R.DDR_CH_STATUS_rate c) (rateCode (planDdrRate s)) s))) s

theorem trainShow_moves (chans : List Nat) (s : State) : Moves [.regs] s (trainShow chans s) :=
  Moves.foldl (fun _ _ => Moves.seq (fset_moves ..) (by decide) (Moves.seq (fset_moves ..) (by decide) (fset_moves ..))) (Moves.refl _ _)

theorem dramTrainDone_fits (dram : phase s = 6) {chans : List Nat} {pop : List Nat}
    (trained : pop = (planChans (devBody s.frm.timbers tyMem)).filter fun c => chans.contains c) (fits : planFits pop s = true) :
    ∃ t, exec (.dramTrainDone chans) s = .next t ∧ phase t = 7 ∧ t.ddr.pop = pop := by
  show ∃ t, execDramTrainDone chans s = .next t ∧ _
  refine ⟨_, inPhase_at dram, ?_⟩
  subst trained
  have shown : (!planFits _ (trainShow chans s)) = false := congrArg not ((planFits_of_frm _ (trainShow_moves chans s).frm_eq).trans fits)
  refine (if_neg (Bool.eq_false_iff.mp shown)).symm ▸ ?_
  exact ⟨phase_phaseTo (by decide) _, rfl⟩

theorem dramTrainDone_unfit (dram : phase s = 6) {chans : List Nat} {pop : List Nat}
    (trained : pop = (planChans (devBody s.frm.timbers tyMem)).filter fun c => chans.contains c) (fits : planFits pop s = false) :
    ∃ t, exec (.dramTrainDone chans) s = .next t ∧ phase t = 11 ∧ fget R.FRM_STATUS_state t = 3 := by
  show ∃ t, execDramTrainDone chans s = .next t ∧ _
  refine ⟨_, inPhase_at dram, ?_⟩
  subst trained
  have shown : (!planFits _ (trainShow chans s)) = true := congrArg not ((planFits_of_frm _ (trainShow_moves chans s).frm_eq).trans fits)
  refine (if_pos shown).symm ▸ ?_
  exact ⟨phase_phaseTo (by decide) _, (fget_phaseTo (by decide) ..).trans (fget_fset ..)⟩

/-! ## BAYS and PORTS -/

theorem baysUpDone_ports (bays : phase s = 7) (failed : List Nat) : ∃ t, exec (.baysUpDone failed) s = .next t ∧ phase t = 8 ∧
    Changes [.mem, .regs, .cnt, .hif, .ddr, .ldg, .out] s t ∧ (failed = [] → Changes [.regs] s t) := by
  show ∃ t, execBaysUpDone failed s = .next t ∧ _
  have run : execBaysUpDone failed s = _ := inPhase_at bays
  refine ⟨_, run, phase_phaseTo (by decide) _, (execBaysUpDone_runs ..).changes run, ?_⟩
  rintro rfl
  exact (phaseTo_moves ..).toChanges

theorem portsStarted_ms (ports : phase s = 8) (ms : Nat) : ∃ t, exec (.portsStarted ms) s = .next t ∧ t.pwr.ms = min 65535 ms ∧
    Changes [.regs, .pwr] s t := by
  show ∃ t, execPortsStarted ms s = .next t ∧ _
  have run : execPortsStarted ms s = _ := inPhase_at ports
  exact ⟨_, run, rfl, (execPortsStarted_runs ..).changes run⟩

end

/-- Settles O42: each phase's end by its row, in its phase and in any other. -/
theorem bootPhases : Obligations.BootPhases := by
  refine ⟨fun _ _ _ => exec_bootRow_other, fun s => ⟨bootStart_rom, fun rom => ⟨romSelftestDone_both rom, romSelftestDone_neither rom,
    romSelftestDone_one rom⟩, fwVerifyDone_phases, ledgerReadDone_image, fun image => ⟨fun _ _ => imageLoadDone_a image,
    fun _ _ _ => imageLoadDone_b image, fun _ _ => imageLoadDone_none image⟩, clocksLocked_dram,
    fun dram _ => ⟨dramTrainDone_fits dram rfl, dramTrainDone_unfit dram rfl⟩, baysUpDone_ports, portsStarted_ms⟩⟩

end Sys2Proof.Machine
end

section
/-! PROOFS. The watchdog (R435) and the operations of SPI NOR (R436, R439). -/

namespace Sys2Proof.Machine
open Sys2Proof.Claims

/-! ## Kicks and expiries of the watchdog (R435) -/

theorem phaseDead_false {s : State} (may : MayStop s) : phaseDead s = false := by
  obtain ⟨keepOn, stopping, saving, stopped, romFail⟩ := may
  simp [phaseDead, phKeepOn, phRomFail, phStopping, phSaving, phStopped, keepOn, stopping, saving, stopped, romFail]

theorem mbxReply_pwr (p : MbxPath) (seq st : Nat) (data : List Byte) (t : State) : (mbxReply p seq st data t).pwr = t.pwr := by
  cases p <;> rfl

/-- The kick that the mailbox takes. -/
theorem wdtKick_answers {p : MbxPath} {seq : Nat} {pec : Bool} {s : State} (served : MbxOpen 7 p seq 0 pec s) :
    ∃ t, exec (.wdtKick p seq pec) s = .next t ∧ t.pwr.kicks = 0 ∧ t.pwr.wdt = fget R.PWR_WDT_CFG_timeout (mbxStart 7 p seq 0 s) := by
  obtain ⟨_, _, _, _, _, _, _, kick⟩ := mailboxOperations p seq pec s
  exact ⟨_, kick served, congrArg Pwr.kicks (mbxReply_pwr ..), congrArg Pwr.wdt (mbxReply_pwr ..)⟩

section
variable {s : State}

/-- The part once an expiry is logged, counted and reported, the watchdog restarted. -/
def wdtExpired (s : State) : State :=
  let n := s.pwr.kicks + 1
  let logged := (faultLog ⟨unitRm, 5, 0, 0, 0, 0, n, 0xFF, severity EV_WDT_EXPIRED n, 0⟩ s).2
  raiseUnit EV_WDT_EXPIRED 0 n (cinc 0x780228 { logged with pwr := { logged.pwr with
    kicks := n
    wdt := fget R.PWR_WDT_CFG_timeout logged } })

theorem execWatchdogExpiry_off (off : fon R.GLB_AON_CFG_wdt_en s = false) : execWatchdogExpiry s = .next s := by
  simp only [execWatchdogExpiry, off, Bool.not_false, Bool.true_or, if_true]

theorem execWatchdogExpiry_on (may : MayStop s) (on : fon R.GLB_AON_CFG_wdt_en s = true) : execWatchdogExpiry s =
    .next (if fon R.PWR_WDT_CFG_action (wdtExpired s) && decide (2 ≤ s.pwr.kicks + 1) then stopDevice 5 true (wdtExpired s) else wdtExpired s) := by
  simp only [execWatchdogExpiry, on, phaseDead_false may]
  rfl

end

/-- Settles O58: the kicks by their rows; an expiry by whether the watchdog is on, its action and the expiries since the last kick. -/
theorem watchdog : Obligations.Watchdog := by
  intro s
  refine ⟨⟨_, rfl, rfl, rfl, (execPwrWdtKick_runs s).changes rfl⟩, fun p seq pec => wdtKick_answers, fun off => ?_,
    fun may on => ⟨fun waits => ?_, fun resets second => ?_⟩, fun v => rfl⟩
  · show execWatchdogExpiry s = _
    exact execWatchdogExpiry_off off
  · have stays : ¬ (fon R.PWR_WDT_CFG_action (wdtExpired s) && decide (2 ≤ s.pwr.kicks + 1)) = true := by
      rcases waits with quiet | first
      · exact fun both => absurd ((Bool.and_eq_true_iff.mp both).1.symm.trans quiet) (by decide)
      · exact fun both => absurd (of_decide_eq_true (Bool.and_eq_true_iff.mp both).2) (Nat.not_le.mpr first)
    exact (execWatchdogExpiry_on may on).trans (congrArg _ (if_neg stays))
  · exact (execWatchdogExpiry_on may on).trans (congrArg _ (if_pos (Bool.and_eq_true_iff.mpr ⟨resets, decide_eq_true second⟩)))

/-! ## A go with an operation on SPI NOR (R439) -/

section
variable {op : Nat} {s : State}

theorem exec_spiRows {i : Instr} (row : spiRows op i) : exec i s = .next (spiGo op s) := by
  rcases row with ⟨rfl, rfl⟩ | ⟨rfl, rfl⟩ | ⟨rfl, rfl⟩ | ⟨rfl, rfl⟩ | ⟨rfl, rfl⟩ <;> rfl

theorem spiGo_idle (idle : fon R.PWR_SPI_STATUS_busy s = false) :
    spiGo op s = fset R.PWR_SPI_STATUS_busy 1 { s with pwr := { s.pwr with spi := some (op, fget R.PWR_SPI_ADDR_addr s) } } :=
  if_neg (Bool.eq_false_iff.mp idle)

theorem spiGo_busy (busy : fon R.PWR_SPI_STATUS_busy s = true) : spiGo op s = fset R.PWR_SPI_STATUS_collision 1 s := if_pos busy

end

/-! ## An operation on SPI NOR over (R439) -/

/-- An operation's end noted, its result still to come. -/
def spiDone (s : State) : State :=
  fset R.PWR_SPI_STATUS_busy 0 (fset R.PWR_SPI_STATUS_reason 0 { s with pwr := { s.pwr with spi := none } })

theorem spiDone_moves (s : State) : Moves [.regs, .pwr] s (spiDone s) :=
  Moves.seq (fset_moves ..) (by decide) (Moves.seq (fset_moves ..) (by decide) (Moves.pwr_with (by decide) (Moves.refl _ _)))

/-- The boundary that an operation's address keeps to. -/
def spiAlign (op : Nat) : Nat := if op = 1 then 65536 else if op = 2 || op = 3 then 256 else 1

section
variable {op a : Nat} {err : Bool} {s t : State}

/-- An operation's end with result `r`, whatever it does between. -/
theorem spiOver_result {r : Nat} (small : r < 16) (idle : fget R.PWR_SPI_STATUS_busy t = 0) (none_ : t.pwr.spi = none) :
    SpiOver r (fset R.PWR_SPI_STATUS_result r t) :=
  ⟨(fget_fset_other _ _ _ _ (by decide)).trans idle, (fget_fset ..).trans (Nat.mod_eq_of_lt small), none_⟩

theorem busy_spiDone (s : State) : fget R.PWR_SPI_STATUS_busy (spiDone s) = 0 := fget_fset ..

/-- The conditions of a bad address do not hold. -/
theorem spiAddr_good (inside : a < 0x2400000) (aligned : a % spiAlign op = 0) :
    ¬ (decide (0x2400000 ≤ a) || decide (a % spiAlign op ≠ 0)) = true := by
  simp [Nat.not_le.mpr inside, aligned]

theorem execSpiOpDone_bad (op_ : s.pwr.spi = some (op, a)) (bad : a % spiAlign op ≠ 0) :
    execSpiOpDone err s = .next (fset R.PWR_SPI_STATUS_result 1 (spiDone s)) := by
  rw [execSpiOpDone, op_]
  exact congrArg Host.Outcome.next (if_pos (Bool.or_eq_true_iff.mpr (.inr (decide_eq_true bad))))

theorem execSpiOpDone_failed (op_ : s.pwr.spi = some (op, a)) (inside : a < 0x2400000) (aligned : a % spiAlign op = 0) :
    execSpiOpDone true s = .next (fset R.PWR_SPI_STATUS_result 2 (if op = 1 then spiUndefined a 65536 (spiDone s)
      else if op = 2 then spiUndefined a 256 (spiDone s) else spiDone s)) := by
  rw [execSpiOpDone, op_]
  exact congrArg Host.Outcome.next ((if_neg (spiAddr_good inside aligned)).trans (if_pos rfl))

theorem execSpiOpDone_erased (op_ : s.pwr.spi = some (1, a)) (inside : a < 0x2400000) (aligned : a % 65536 = 0) :
    execSpiOpDone false s = .next (fset R.PWR_SPI_STATUS_result 0 (spiWrite a (List.replicate 65536 0xFF) (spiDone s))) := by
  rw [execSpiOpDone, op_]
  exact congrArg Host.Outcome.next ((if_neg (spiAddr_good (op := 1) inside aligned)).trans (if_neg Bool.false_ne_true))

/-- The bytes of the buffer's words. -/
def spiPage (s : State) : List Byte := ((List.range 64).map fun n => leBytes 4 (fget (R.PWR_SPI_BUF_word n) s)).flatten

theorem execSpiOpDone_programmed (op_ : s.pwr.spi = some (2, a)) (inside : a < 0x2400000) (aligned : a % 256 = 0) :
    execSpiOpDone false s = .next (fset R.PWR_SPI_STATUS_result 0 (spiWrite a (spiPage (spiDone s)) (spiDone s))) := by
  rw [execSpiOpDone, op_]
  exact congrArg Host.Outcome.next ((if_neg (spiAddr_good (op := 2) inside aligned)).trans (if_neg Bool.false_ne_true))

/-- The buffer filled with a page that was read. -/
def spiFill (p : List Byte) (s : State) : State := (List.range 64).foldl (fun s n => fset (R.PWR_SPI_BUF_word n) (le p (4 * n) 4) s) s

theorem execSpiOpDone_read (op_ : s.pwr.spi = some (3, a)) (inside : a < 0x2400000) (aligned : a % 256 = 0) :
    execSpiOpDone false s = .next (fset R.PWR_SPI_STATUS_result 0 (spiFill (spiRead a 256 (spiDone s)) (spiDone s))) := by
  rw [execSpiOpDone, op_]
  exact congrArg Host.Outcome.next ((if_neg (spiAddr_good (op := 3) inside aligned)).trans (if_neg Bool.false_ne_true))

theorem execSpiOpDone_verified (op_ : s.pwr.spi = some (op, a)) (verify : op = 4 ∨ op = 5) (inside : a < 0x2400000) :
    ∃ r, execSpiOpDone false s = .next (fset R.PWR_SPI_STATUS_result 0 (fset R.PWR_SPI_STATUS_reason r (spiDone s))) := by
  rw [execSpiOpDone, op_]
  rcases verify with rfl | rfl
  · exact ⟨_, congrArg Host.Outcome.next ((if_neg (spiAddr_good (op := 4) inside (Nat.mod_one a))).trans (if_neg Bool.false_ne_true))⟩
  · exact ⟨_, congrArg Host.Outcome.next ((if_neg (spiAddr_good (op := 5) inside (Nat.mod_one a))).trans (if_neg Bool.false_ne_true))⟩

/-! ### What the part holds then -/

theorem spiRead_spiWrite_same (a : Nat) (l : List Byte) (s : State) : spiRead a l.length (spiWrite a l s) = l := by
  have bytes := Memory.readN_writeN s.mem.spi a (l.map fun b => ~~~b)
  rw [List.length_map] at bytes
  simp [spiRead, spiWrite, bytes, Function.comp_def, BitVec.not_not]

theorem fget_spiWrite (f : Fld) (a : Nat) (l : List Byte) (s : State) : fget f (spiWrite a l s) = fget f s := rfl

theorem fget_spiUndefined (f : Fld) (a n : Nat) (s : State) : fget f (spiUndefined a n s) = fget f s := fget_spiWrite ..

theorem read_spiWrite_outside {x : Nat} {l : List Byte} (outside : x < a ∨ a + l.length ≤ x) :
    Memory.read (spiWrite a l s).mem.spi x = Memory.read s.mem.spi x :=
  Memory.read_writeN_outside _ _ _ _ (by rwa [List.length_map])

theorem read_spiUndefined_outside {x n : Nat} (outside : x < a ∨ a + n ≤ x) :
    Memory.read (spiUndefined a n s).mem.spi x = Memory.read s.mem.spi x := by
  rw [spiUndefined]
  exact read_spiWrite_outside (by rwa [List.length_map, List.length_range])

theorem length_spiPage (s : State) : (spiPage s).length = 256 := by
  simp [spiPage, List.length_flatten, Function.comp_def]

theorem spiPage_spiDone (s : State) : spiPage (spiDone s) = spiPage s := by
  refine congrArg List.flatten (List.map_congr_left fun n _ => congrArg (leBytes 4) ?_)
  have status : fkey (R.PWR_SPI_BUF_word n) ≠ fkey R.PWR_SPI_STATUS_busy ∧ fkey (R.PWR_SPI_BUF_word n) ≠ fkey R.PWR_SPI_STATUS_reason := by
    simp only [fkey, R.PWR_SPI_BUF_word, R.PWR_SPI_STATUS_busy, R.PWR_SPI_STATUS_reason]
    omega
  exact (fget_fset_other _ _ _ _ status.1).trans (fget_fset_other _ _ _ _ status.2)

theorem word_spiFill {n : Nat} (p : List Byte) (below : n < 64) : fget (R.PWR_SPI_BUF_word n) (spiFill p s) = le p (4 * n) 4 % 2 ^ 32 := by
  refine fget_foldl_fset (fun m other => ?_) below
  simp only [fkey, R.PWR_SPI_BUF_word]
  omega

theorem busy_spiFill (p : List Byte) (s : State) : fget R.PWR_SPI_STATUS_busy (spiFill p s) = fget R.PWR_SPI_STATUS_busy s := by
  refine fget_foldl (fun s n => fget_fset_other _ _ _ _ ?_) _ s
  simp only [fkey, R.PWR_SPI_BUF_word, R.PWR_SPI_STATUS_busy]
  omega

theorem spiFill_moves (p : List Byte) (s : State) : Moves [.regs] s (spiFill p s) :=
  Moves.foldl (fun _ _ => fset_moves ..) (Moves.refl _ _)

end

theorem spiResult_changes {ps : List Part} {r : Nat} {s t : State} (moves : Moves ps s t) (regs : Part.regs ∈ ps) :
    Changes ps s (fset R.PWR_SPI_STATUS_result r t) :=
  (Moves.seq (fset_moves ..) (by simpa using regs) moves).toChanges

/-- Settles O45: a go by whether an operation is in progress; an end by the operation, its address and whether the part failed it. -/
theorem spiNor : Obligations.SpiNor := by
  refine ⟨fun op i s row => ⟨fun idle => ?_, fun busy => ?_⟩, fun op a s op_ inside => ⟨fun err erase bad => ?_, fun err page bad => ?_,
    fun erase good => ?_, fun program good => ?_, fun read good => ?_, fun erase good => ?_, fun verify => ?_, fun verify => ?_⟩⟩
  · refine ⟨_, (exec_spiRows row).trans (congrArg _ (spiGo_idle idle)), fget_fset .., rfl, ?_⟩
    exact (Moves.seq (fset_moves ..) (by decide) (Moves.pwr_with (by decide) (Moves.refl _ _))).toChanges
  · exact ⟨_, (exec_spiRows row).trans (congrArg _ (spiGo_busy busy)), fget_fset .., (fset_moves ..).toChanges⟩
  · subst erase
    show ∃ t, execSpiOpDone err s = .next t ∧ _
    exact ⟨_, execSpiOpDone_bad op_ bad, spiOver_result (by decide) (busy_spiDone s) rfl, spiResult_changes (spiDone_moves s) (by decide)⟩
  · show ∃ t, execSpiOpDone err s = .next t ∧ _
    have bad : a % spiAlign op ≠ 0 := by rcases page with rfl | rfl <;> exact bad
    exact ⟨_, execSpiOpDone_bad op_ bad, spiOver_result (by decide) (busy_spiDone s) rfl, spiResult_changes (spiDone_moves s) (by decide)⟩
  · subst erase
    show ∃ t, execSpiOpDone false s = .next t ∧ _
    refine ⟨_, execSpiOpDone_erased op_ inside good, spiOver_result (by decide) ((fget_spiWrite ..).trans (busy_spiDone s)) rfl, ?_, fun x outside => ?_, ?_⟩
    · have bytes := spiRead_spiWrite_same a (List.replicate 65536 0xFF) (spiDone s)
      rw [List.length_replicate] at bytes
      exact bytes
    · exact read_spiWrite_outside (s := spiDone s) (by rwa [List.length_replicate])
    · exact spiResult_changes (Moves.seq (spiWrite_moves ..) (by decide) ((spiDone_moves s).mono (by decide))) (by decide)
  · subst program
    show ∃ t, execSpiOpDone false s = .next t ∧ _
    refine ⟨_, execSpiOpDone_programmed op_ inside good, spiOver_result (by decide) (busy_spiDone s) rfl, ?_, fun x outside => ?_, ?_⟩
    · have bytes := spiRead_spiWrite_same a (spiPage (spiDone s)) (spiDone s)
      rw [length_spiPage] at bytes
      exact bytes.trans (spiPage_spiDone s)
    · exact read_spiWrite_outside (s := spiDone s) (by rwa [length_spiPage])
    · exact spiResult_changes (Moves.seq (spiWrite_moves ..) (by decide) ((spiDone_moves s).mono (by decide))) (by decide)
  · subst read
    show ∃ t, execSpiOpDone false s = .next t ∧ _
    have moves : Moves [.regs, .pwr] s (spiFill (spiRead a 256 (spiDone s)) (spiDone s)) :=
      Moves.seq (spiFill_moves ..) (by decide) (spiDone_moves s)
    refine ⟨_, execSpiOpDone_read op_ inside good, spiOver_result (by decide) ((busy_spiFill ..).trans (busy_spiDone s)) ?_,
      spiResult_changes moves (by decide), fun n below => ?_⟩
    · exact congrArg Pwr.spi ((spiFill_moves ..).same .pwr (by decide))
    · refine (fget_fset_other _ _ _ _ ?_).trans (word_spiFill _ below)
      simp only [fkey, R.PWR_SPI_BUF_word, R.PWR_SPI_STATUS_result]
      omega
  · subst erase
    show ∃ t, execSpiOpDone true s = .next t ∧ _
    refine ⟨_, execSpiOpDone_failed op_ inside good, spiOver_result (by decide) ((fget_spiUndefined ..).trans (busy_spiDone s)) rfl, fun x outside => ?_⟩
    exact read_spiUndefined_outside (s := spiDone s) outside
  · show ∃ t, execSpiOpDone false s = .next t ∧ _
    obtain ⟨r, run⟩ := execSpiOpDone_verified op_ verify inside
    refine ⟨_, run, spiOver_result (by decide) ((fget_fset_other _ _ _ _ (by decide)).trans (busy_spiDone s)) rfl, ?_⟩
    exact spiResult_changes (Moves.seq (fset_moves ..) (by decide) (spiDone_moves s)) (by decide)
  · show ∃ t, execSpiOpDone true s = .next t ∧ _
    have plain : a % spiAlign op = 0 ∧ op ≠ 1 ∧ op ≠ 2 := by
      rcases verify with rfl | rfl
      · exact ⟨Nat.mod_one a, by decide, by decide⟩
      · exact ⟨Nat.mod_one a, by decide, by decide⟩
    obtain ⟨good, notErase, notProgram⟩ := plain
    have run := execSpiOpDone_failed op_ inside good
    rw [if_neg notErase, if_neg notProgram] at run
    exact ⟨_, run, spiOver_result (by decide) (busy_spiDone s) rfl, spiResult_changes (spiDone_moves s) (by decide)⟩

end Sys2Proof.Machine
end

section
/-! PROOFS. The keeper's monitors: rails and the hold-up capacitor (R425, R427), reference clocks (R433), temperature (R440). -/

namespace Sys2Proof.Machine
open Sys2Proof.Claims

/-! ## The hold-up capacitor's registers (R427) -/

section
variable {s : State}

theorem fget_senseShow {f : Fld} (other : fkey f ≠ fkey R.PWR_HOLDUP_STATUS_sense) (v : Int) (s : State) :
    fget f (senseShow v s) = fget f s := fget_fset_other _ _ _ _ other

theorem fget_armSync {f : Fld} (other : fkey f ≠ fkey R.PWR_HOLDUP_STATUS_armed) (s : State) : fget f (armSync s) = fget f s :=
  fget_fset_other _ _ _ _ other

theorem armed_armSync (s : State) : fget R.PWR_HOLDUP_STATUS_armed (armSync s) =
    b2n (decide (fget R.PWR_HOLDUP_STATUS_state s = 2) && !fon R.PWR_HOLDUP_CTRL_disable s) :=
  (fget_fset ..).trans (b2n_mod_two _)

theorem holdupDisable_armed (on : Bool) (s : State) : ∃ t, exec (.holdupDisable on) s = .next t ∧
    fget R.PWR_HOLDUP_CTRL_disable t = b2n on ∧
    fget R.PWR_HOLDUP_STATUS_armed t = b2n (decide (fget R.PWR_HOLDUP_STATUS_state s = 2) && !on) ∧ Changes [.regs] s t := by
  have run : execHoldupDisable on s = .next _ := rfl
  refine ⟨_, run, ?_, ?_, (execHoldupDisable_runs ..).changes run⟩
  · exact (fget_armSync (by decide) _).trans ((fget_fset ..).trans (b2n_mod_two on))
  · rw [armed_armSync, fget_fset_other _ _ _ _ (by decide), fon_fset_b2n _ _ _ (by decide)]

/-- A state of the capacitor that is new is shown, and reported. -/
theorem holdTo_new {st : Nat} (small : st < 8) (new : fget R.PWR_HOLDUP_STATUS_state s ≠ st) : ∃ u d,
    holdTo st s = raiseUnit EV_HOLDUP_STATE 0 d u ∧ fget R.PWR_HOLDUP_STATUS_state u = st ∧
    fget R.PWR_HOLDUP_STATUS_armed u = b2n (decide (st = 2) && !fon R.PWR_HOLDUP_CTRL_disable s) ∧ Changes [.regs] s u := by
  have shown : fget R.PWR_HOLDUP_STATUS_state (fset R.PWR_HOLDUP_STATUS_state st s) = st := (fget_fset ..).trans (Nat.mod_eq_of_lt small)
  refine ⟨armSync (fset R.PWR_HOLDUP_STATUS_state st s), _, if_neg new, (fget_armSync (by decide) _).trans shown, ?_, ?_⟩
  · rw [armed_armSync, shown, fon, fget_fset_other _ _ _ _ (by decide), ← fon]
  · exact (Moves.seq (armSync_moves ..) (by decide) (fset_moves ..)).toChanges

/-! ## The capacitor's test (R427) -/

theorem capTest_reversed {v a b c : Int} (low : v ≤ -200) : capTest v a b c s = holdTo 6 (senseShow v s) := if_pos low

theorem capTest_charging {v a b c : Int} (least : 500 ≤ v) (below : v < 3100) (up : fget R.PWR_HOLDUP_STATUS_state s ≠ 3) :
    capTest v a b c s = holdTo 1 (senseShow v s) := by
  have notLow : fget R.PWR_HOLDUP_STATUS_state (senseShow v s) ≠ huLow := by rwa [fget_senseShow (by decide)]
  have charging : (decide (500 ≤ v) && decide (fget R.PWR_HOLDUP_STATUS_state (senseShow v s) ≠ huLow)) = true := by simp [least, notLow]
  exact (if_neg (by omega)).trans ((if_pos below).trans (if_pos charging))

/-- The capacitance and the series resistance that a test measured. -/
def capMeasured (v v0 v10 v1000 : Int) (s : State) : State :=
  fset R.PWR_HOLDUP_MEAS_c (min 65535 (4950 / (v10 - v1000)).toNat) (fset R.PWR_HOLDUP_MEAS_esr (min 65535 (2 * (v0 - v10)).toNat) (senseShow v s))

theorem capTest_measured {v v0 v10 v1000 : Int} (full : 3100 ≤ v) (falls : v1000 < v10) : capTest v v0 v10 v1000 s =
    holdTo (if 300 < v0 - v1000 then 4
      else if decide (4950 < 150 * (v10 - v1000)) || decide (50 < (2 * (v0 - v10)).toNat) then 3 else 2) (capMeasured v v0 v10 v1000 s) := by
  have drop : 0 < v10 - v1000 := by omega
  refine (if_neg (by omega)).trans ((if_neg (by omega)).trans ?_)
  simp only [drop, if_true]
  rfl

theorem capMeasured_moves (v v0 v10 v1000 : Int) (s : State) : Moves [.regs] s (capMeasured v v0 v10 v1000 s) :=
  Moves.seq (fset_moves ..) (by decide) (Moves.seq (fset_moves ..) (by decide) (senseShow_moves ..))

/-- A measure held to the 16 bits of its field. -/
theorem shown_measure {x : Int} (nonneg : 0 ≤ x) : ((min 65535 x.toNat % 2 ^ 16 : Nat) : Int) = min 65535 x := by omega

theorem measures_capMeasured {v v0 v10 v1000 : Int} (falls : v1000 < v10) (below : v10 ≤ v0) :
    (fget R.PWR_HOLDUP_MEAS_c (capMeasured v v0 v10 v1000 s) : Int) = min 65535 (4950 / (v10 - v1000)) ∧
    (fget R.PWR_HOLDUP_MEAS_esr (capMeasured v v0 v10 v1000 s) : Int) = min 65535 (2 * (v0 - v10)) := by
  refine ⟨?_, ?_⟩
  · rw [capMeasured, fget_fset]
    exact shown_measure (Int.ediv_nonneg (by decide) (by omega))
  · rw [capMeasured, fget_fset_other _ _ _ _ (by decide), fget_fset]
    exact shown_measure (by omega)

theorem execHoldupTestPeriodic_due {v a b c : Int} (runs : s.clk.running = true)
    (due : ∀ k, s.pwr.tested = some k → 7200000 ≤ stampSub s.clk.stamp k) :
    execHoldupTestPeriodic v a b c s = .next (capTest v a b c { s with pwr := { s.pwr with tested := some s.clk.stamp } }) := by
  cases tested : s.pwr.tested with
  | none => simp only [execHoldupTestPeriodic, runs, tested, Bool.and_self, if_true]
  | some k => simp only [execHoldupTestPeriodic, runs, tested, due k tested, decide_true, Bool.and_self, if_true]

theorem execHoldupTestPeriodic_soon {v a b c : Int} {k : Nat} (tested : s.pwr.tested = some k) (soon : stampSub s.clk.stamp k < 7200000) :
    execHoldupTestPeriodic v a b c s = .next s := by
  simp only [execHoldupTestPeriodic, tested, Nat.not_le.mpr soon, decide_false, Bool.and_false, Bool.false_eq_true, if_false]

theorem holdUp : Claims.HoldUp := by
  intro s
  refine ⟨fun rails => ⟨_, rfl, fget_fset .., (fset_moves ..).toChanges⟩, fun on => holdupDisable_armed on s, fun v a b c => rfl,
    fun v a b c => execHoldupTestPeriodic_due,
    fun v a b c k => execHoldupTestPeriodic_soon, fun v a b c => capTest_reversed, fun v a b c => capTest_charging,
    fun v v0 v10 v1000 full falls below => ?_, fun st => holdTo_new, fun v => rfl, fun v => rfl⟩
  · obtain ⟨capacitance, resistance⟩ := measures_capMeasured (v := v) (s := s) falls below
    refine ⟨capMeasured v v0 v10 v1000 s, ?_, capacitance, resistance, (capMeasured_moves ..).toChanges⟩
    have condition : (decide (4950 < 150 * (v10 - v1000)) || decide (50 < (2 * (v0 - v10)).toNat)) = true ↔
        4950 < 150 * (v10 - v1000) ∨ 50 < 2 * (v0 - v10) := by
      rw [Bool.or_eq_true_iff, decide_eq_true_iff, decide_eq_true_iff]
      omega
    rw [capTest_measured full falls]
    simp only [condition]

end

/-! ## Reference clocks (R433) -/

section
variable {r : Nat} {s : State}

theorem refGood_refGoodPut (v : Bool) (s : State) : refGood r (refGoodPut r v s) = v := by
  unfold refGood refGoodPut
  split
  · exact fon_fset_b2n _ v s (by decide)
  · exact fon_fset_b2n _ v s (by decide)

theorem refGood_other_refGoodPut (two : r < 2) (v : Bool) (s : State) : refGood (1 - r) (refGoodPut r v s) = refGood (1 - r) s := by
  have either : r = 0 ∨ r = 1 := by omega
  rcases either with rfl | rfl
  · exact congrArg (· != 0) (fget_fset_other _ _ _ _ (by decide))
  · exact congrArg (· != 0) (fget_fset_other _ _ _ _ (by decide))

theorem ref_refGoodPut (v : Bool) (s : State) : fget R.PWR_CLK_STATUS_ref (refGoodPut r v s) = fget R.PWR_CLK_STATUS_ref s := by
  unfold refGoodPut
  split
  · exact fget_fset_other _ _ _ _ (by decide)
  · exact fget_fset_other _ _ _ _ (by decide)

theorem execRefclkLoss_other (two : r < 2) (other : fget R.PWR_CLK_STATUS_ref s ≠ r) : execRefclkLoss r s = .next (refGoodPut r false s) := by
  rw [execRefclkLoss, Nat.mod_eq_of_lt two]
  exact congrArg Host.Outcome.next (if_pos (by rwa [ref_refGoodPut]))

theorem execRefclkLoss_failover (two : r < 2) (used : fget R.PWR_CLK_STATUS_ref s = r) (good : refGood (1 - r) s = true) :
    execRefclkLoss r s = .next (raiseUnit EV_REFCLK_FAILOVER 0 (1 - r)
      (cinc 0x780218 (fset R.PWR_CLK_STATUS_ref (1 - r) (refGoodPut r false s)))) := by
  rw [execRefclkLoss, Nat.mod_eq_of_lt two]
  refine congrArg Host.Outcome.next ((if_neg ?_).trans (if_pos ?_))
  · rwa [ref_refGoodPut, not_not]
  · rwa [refGood_other_refGoodPut two]

theorem execRefclkLoss_lost (two : r < 2) (used : fget R.PWR_CLK_STATUS_ref s = r) (bad : refGood (1 - r) s = false) :
    execRefclkLoss r s = .next (raiseUnit EV_REFCLK_LOST 0 0
      (fset R.PWR_CLK_STATUS_holdover 1 (fset R.PWR_CLK_STATUS_keeper_osc 1 (refGoodPut r false s)))) := by
  rw [execRefclkLoss, Nat.mod_eq_of_lt two]
  refine congrArg Host.Outcome.next ((if_neg ?_).trans (if_neg ?_))
  · rwa [ref_refGoodPut, not_not]
  · rw [refGood_other_refGoodPut two, bad]
    exact Bool.false_ne_true

/-! ## Temperature (R440) -/

/-- A sensor's register is none of the keeper's registers below the sensors'. -/
theorem fget_below_therm {f : Fld} (below : fkey f < fkey (R.PWR_THERM_temp 0)) (n v : Nat) (s : State) :
    fget f (fset (R.PWR_THERM_temp n) v s) = fget f s := by
  refine fget_fset_other _ _ _ _ ?_
  simp only [fkey, R.PWR_THERM_temp] at below ⊢
  omega

theorem fget_warn_temp (m n v : Nat) (s : State) : fget (R.PWR_THERM_warn m) (fset (R.PWR_THERM_temp n) v s) = fget (R.PWR_THERM_warn m) s := by
  refine fget_fset_other _ _ _ _ ?_
  simp only [fkey, R.PWR_THERM_temp, R.PWR_THERM_warn]
  omega

theorem fget_temp_warn (m n v : Nat) (s : State) : fget (R.PWR_THERM_temp m) (fset (R.PWR_THERM_warn n) v s) = fget (R.PWR_THERM_temp m) s := by
  refine fget_fset_other _ _ _ _ ?_
  simp only [fkey, R.PWR_THERM_temp, R.PWR_THERM_warn]
  omega

theorem execThermalWarn_below {n temp : Nat} (below : eighths temp < 8 * fget R.PWR_THERM_CFG_warn s) :
    execThermalWarn n temp s = .next (fset (R.PWR_THERM_temp n) temp s) := by
  refine congrArg Host.Outcome.next (if_pos ?_)
  rwa [fget_below_therm (by decide)]

/-- A sensor's first reading at or above the warning threshold, shown. -/
def thermWarned (n temp : Nat) (s : State) : State :=
  let shown := fset (R.PWR_THERM_temp n) temp s
  cinc 0x780220 (fset (R.PWR_THERM_warn n) 1 { shown with pwr := { shown.pwr with cool := false } })

theorem execThermalWarn_first {n temp : Nat} (sensor : n < 8) (word : temp < 65536)
    (warm : 8 * fget R.PWR_THERM_CFG_warn s ≤ eighths temp) (first : fon (R.PWR_THERM_warn n) s = false) :
    execThermalWarn n temp s = .next (raiseUnit EV_THERMAL_WARN 0 (n + temp * 65536) (thermWarned n temp s)) := by
  have event : n % 8 + temp % 65536 * 65536 = n + temp * 65536 := by rw [Nat.mod_eq_of_lt sensor, Nat.mod_eq_of_lt word]
  rw [execThermalWarn, event]
  refine congrArg Host.Outcome.next ((if_neg ?_).trans (if_neg ?_))
  · rw [fget_below_therm (by decide)]
    exact Int.not_lt.mpr warm
  · show ¬ (fget (R.PWR_THERM_warn n) (fset (R.PWR_THERM_temp n) temp s) != 0) = true
    rw [fget_warn_temp]
    exact Bool.eq_false_iff.mp first

theorem temp_thermWarned {n temp : Nat} (word : temp < 65536) : fget (R.PWR_THERM_temp n) (thermWarned n temp s) = temp := by
  rw [thermWarned, fget_cinc, fget_temp_warn]
  exact (fget_fset ..).trans (Nat.mod_eq_of_lt word)

theorem thermWarned_moves (n temp : Nat) (s : State) : Moves [.regs, .cnt, .pwr] s (thermWarned n temp s) :=
  Moves.seq (cinc_moves ..) (by decide) (Moves.seq (fset_moves ..) (by decide) (Moves.pwr_with (by decide)
    (Moves.seq (fset_moves ..) (by decide) (Moves.refl _ _))))

/-- Every sensor cool. -/
def thermCleared (s : State) : State :=
  (List.range 8).foldl (fun s n => fset (R.PWR_THERM_warn n) 0 s) { s with pwr := { s.pwr with cool := true } }

theorem thermCleared_moves (s : State) : Moves [.regs, .pwr] s (thermCleared s) :=
  Moves.foldl (fun _ _ => Moves.seq (fset_moves ..) (by decide) (Moves.refl _ _)) (Moves.pwr_with (by decide) (Moves.refl _ _))

theorem thermCleared_cool (s : State) : (thermCleared s).pwr.cool = true :=
  congrArg Pwr.cool ((Moves.foldl (ps := [.regs]) (fun _ _ => fset_moves ..) (Moves.refl _ _)).same .pwr (by decide))

theorem warn_thermCleared {n : Nat} (sensor : n < 8) (s : State) : fon (R.PWR_THERM_warn n) (thermCleared s) = false := by
  have zero : fget (R.PWR_THERM_warn n) (thermCleared s) = 0 := by
    refine fget_foldl_fset (fun m other => ?_) sensor
    simp only [fkey, R.PWR_THERM_warn]
    omega
  rw [fon, zero]
  rfl

theorem execThermalClear_eq (s : State) : execThermalClear s = .next (if (List.range 8).any (fun n => fon (R.PWR_THERM_warn n) s) then
    raiseUnit EV_THERMAL_CLEAR 0 0 (thermCleared s) else thermCleared s) := rfl

end

theorem keeperWatch : Claims.KeeperWatch := by
  intro s
  refine ⟨fun r two other => ?_, fun r two used good => ?_, fun r two used bad => ?_, rfl, rfl, fun n temp below => execThermalWarn_below below,
    fun n temp sensor word warm first => ?_, fun warm => ?_, fun cool => ?_⟩
  · exact ⟨_, execRefclkLoss_other two other, refGood_refGoodPut .., ref_refGoodPut .., (refGoodPut_moves ..).toChanges⟩
  · refine ⟨_, execRefclkLoss_failover two used good, ?_, ?_, ?_⟩
    · rw [fget_cinc, fget_fset]
      exact Nat.mod_eq_of_lt (Nat.lt_succ_of_le (Nat.sub_le 1 r))
    · exact (refGood_fset_ref ..).trans (refGood_refGoodPut ..)
    · exact (Moves.seq (cinc_moves ..) (by decide) (Moves.seq (fset_moves ..) (by decide)
        (Moves.seq (refGoodPut_moves ..) (by decide) (Moves.refl _ _)))).toChanges
  · refine ⟨_, execRefclkLoss_lost two used bad, fget_fset .., ?_, ?_⟩
    · rw [fget_fset_other _ _ _ _ (by decide), fget_fset]
      rfl
    · exact (Moves.seq (fset_moves ..) (by decide) (Moves.seq (fset_moves ..) (by decide) (refGoodPut_moves ..))).toChanges
  · exact ⟨_, execThermalWarn_first sensor word warm first, fget_fset .., temp_thermWarned word, rfl, (thermWarned_moves ..).toChanges⟩
  · obtain ⟨n, sensor, on⟩ := warm
    have any : (List.range 8).any (fun n => fon (R.PWR_THERM_warn n) s) = true := List.any_eq_true.mpr ⟨n, List.mem_range.mpr sensor, on⟩
    exact ⟨_, (execThermalClear_eq s).trans (congrArg Host.Outcome.next (if_pos any)), thermCleared_cool s,
      fun n sensor => warn_thermCleared sensor s, (thermCleared_moves s).toChanges⟩
  · have none_ : ¬ (List.range 8).any (fun n => fon (R.PWR_THERM_warn n) s) = true := by
      simpa using fun n sensor => cool n sensor
    exact ⟨_, (execThermalClear_eq s).trans (congrArg Host.Outcome.next (if_neg none_)), thermCleared_cool s, (thermCleared_moves s).toChanges⟩

/-- Settles O44, from what a test shows and classifies, and from each monitor's row. -/
theorem keeperMonitors : Obligations.KeeperMonitors := ⟨holdUp, keeperWatch⟩

end Sys2Proof.Machine
end

section
/-! PROOFS. What stops the part, what a stop leaves, the save, the release and the keeper's reset (R428 to R430, R434, R437, R440). -/

namespace Sys2Proof.Machine
open Sys2Proof.Claims

/-! ## A stop (R428 to R430, R434) -/

theorem Moves.pending_eq {ps : List Part} {s t : State} (h : Moves ps s t) (n : Part.pending ∉ ps := by decide) : t.pending = s.pending :=
  h.same .pending n

/-- The event to every Ring in scope changes no key. -/
theorem zeroiseEvents_key (e : Ev) (s : State) :
    ((List.range 16).foldl (fun s r => if ringDefinedIn s.frm.timbers r then evqPush (evqVf r) e s else s) s).key = s.key :=
  (Moves.foldl (ps := [.regs, .cnt, .hif, .out]) (fun _ _ => Moves.ite (evqPush_moves ..) (Moves.refl _ _)) (Moves.refl _ s)).key_eq

/-- A device's zeroisation awaits its acknowledge. -/
theorem zeroise_device_zreq (cause : Nat) (s : State) : (zeroise .device cause s).key.zreq = true := by
  unfold zeroise
  generalize zeroStages .device (zeroSlots .device s) = cleared
  extract_lets staged wiped erased counted keys awaited e raised
  have kept : raised.key = awaited.key := (raise_moves ..).key_eq
  clear_value raised
  dsimp only
  rw [zeroiseEvents_key, kept]

section
variable {cause : Nat} {save : Bool} {s : State}

/-- What a stop has done when it resets the main domains. -/
def stopBegun (cause : Nat) (save : Bool) (s : State) : State :=
  let zc := if cause = lsSagSaved || cause = lsSagUnsaved then 5 else if cause = lsThermal then 6 else if cause = lsReset then 7 else 8
  let s := spiAbort (zeroise .device zc s)
  let rec_ := if save then some (saveNow cause s) else none
  let s := { s with pwr := { s.pwr with
    stop := some cause
    save := rec_
    pulsed := false
    single := none
    kicks := 0 } }
  if cause = lsSagUnsaved then cinc 0x780210 s else s

theorem stopDevice_eq : stopDevice cause save s = fset R.PWR_STATUS_last_stop cause (phaseTo phStopping (mainReset (stopBegun cause save s))) := by
  rw [stopDevice, stopBegun]

theorem stopBegun_moves (cause : Nat) (save : Bool) (s : State) :
    Moves [.mem, .regs, .cnt, .hif, .ctl, .key, .ddr, .cas, .out, .pwr, .free] s (stopBegun cause save s) := by
  unfold stopBegun
  extract_lets zc zeroed rec_ keeper stopped
  have moves : Moves [.mem, .regs, .cnt, .hif, .ctl, .key, .ddr, .cas, .out, .pwr, .free] s stopped :=
    Moves.pwr_with (by decide) (Moves.seq (spiAbort_moves ..) (by decide) (Moves.seq (zeroise_moves ..) (by decide) (Moves.refl _ s)))
  exact Moves.ite (Moves.seq (cinc_moves ..) (by decide) moves) moves

theorem stopBegun_pwr : (stopBegun cause save s).pwr.stop = some cause ∧ (stopBegun cause save s).pwr.save.isSome = save := by
  unfold stopBegun
  extract_lets zc zeroed rec_ keeper stopped
  have kept : (if cause = lsSagUnsaved then cinc 0x780210 stopped else stopped).pwr = stopped.pwr := by split <;> rfl
  rw [kept]
  refine ⟨rfl, ?_⟩
  show (if save then some (saveNow cause zeroed) else none).isSome = save
  cases save <;> rfl

theorem stopBegun_zreq : (stopBegun cause save s).key.zreq = true := by
  unfold stopBegun
  extract_lets zc zeroed rec_ keeper stopped
  have begun : zeroed.key.zreq = true := by
    rw [(spiAbort_moves ..).key_eq]
    exact zeroise_device_zreq ..
  clear_value zeroed
  split <;> exact begun

/-- The main domains' reset leaves no key. -/
theorem mainReset_slots (s : State) : ∀ p ∈ (mainReset s).key.slots, p.2.key = [] := by
  intro p listed
  obtain ⟨q, _, rfl⟩ := List.mem_map.mp listed
  rfl

/-- The part that a stop with what it asks for leaves, whatever it met before the main domains' reset. -/
theorem stopped_mainReset {x : State} (small : cause < 16) (stop : x.pwr.stop = some cause) (saved : x.pwr.save.isSome = save)
    (asked : x.key.zreq = true) (ldg : x.ldg = s.ldg) (pending : x.pending = s.pending) :
    Stopped cause save s (fset R.PWR_STATUS_last_stop cause (phaseTo phStopping (mainReset x))) :=
  ⟨(fget_fset_other _ _ _ _ (by decide)).trans (phase_phaseTo (by decide) _), (fget_fset ..).trans (Nat.mod_eq_of_lt small), stop, saved,
    asked, mainReset_slots x, rfl, rfl, rfl, ldg, pending⟩

theorem stopDevice_stopped (small : cause < 16) : Stopped cause save s (stopDevice cause save s) := by
  have moves := stopBegun_moves cause save s
  rw [stopDevice_eq]
  exact stopped_mainReset small stopBegun_pwr.1 stopBegun_pwr.2 stopBegun_zreq moves.ldg_eq moves.pending_eq

end

/-! ## What stops the part -/

section
variable {s : State}

theorem execSupplySag_stops (rails : Nat) (may : MayStop s) : execSupplySag rails s =
    .next (stopDevice (if fon R.PWR_HOLDUP_STATUS_armed s = true then 1 else 2) (fon R.PWR_HOLDUP_STATUS_armed s)
      (fset R.PWR_RAIL_tripped rails s)) := by
  have dead := phaseDead_false may
  obtain ⟨_, _, _, _, romFail⟩ := may
  exact congrArg Host.Outcome.next ((if_neg romFail).trans (if_neg (Bool.eq_false_iff.mp dead)))

theorem execSysReset_stops (may : MayStop s) (noFail : phase s ≠ 10) : execSysReset s = .next (stopDevice 3 true s) := by
  have dead := phaseDead_false may
  obtain ⟨_, _, _, stopped, romFail⟩ := may
  exact congrArg Host.Outcome.next ((if_neg noFail).trans ((if_neg romFail).trans ((if_neg stopped).trans (if_neg (Bool.eq_false_iff.mp dead)))))

theorem sysReset_fwFail (fwFail : phase s = 10) : ∃ t, exec .sysReset s = .next t ∧ phase t = 1 ∧ Changes [.regs] s t := by
  show ∃ t, execSysReset s = .next t ∧ _
  exact ⟨phaseTo 1 s, congrArg Host.Outcome.next (if_pos fwFail), phase_phaseTo (by decide) s, (phaseTo_moves ..).toChanges⟩

theorem execSysReset_noted (stopped : phase s = 14) : execSysReset s = .next { s with pwr := { s.pwr with pulsed := true } } := by
  refine congrArg Host.Outcome.next ((if_neg ?_).trans ((if_neg ?_).trans (if_pos stopped)))
  · rw [stopped]
    decide
  · rw [stopped]
    decide

theorem execThermalTrip_stops {temp : Nat} (n : Nat) (may : MayStop s) (hot : 920 ≤ eighths temp) : execThermalTrip n temp s =
    .next (stopDevice 4 true { fset (R.PWR_THERM_temp n) temp s with pwr := { s.pwr with cool := false } }) := by
  have dead : phaseDead (fset (R.PWR_THERM_temp n) temp s) = false := by
    rw [phaseDead, phase, fget_below_therm (by decide)]
    exact phaseDead_false may
  refine congrArg Host.Outcome.next (if_neg ?_)
  rw [dead, Bool.or_false, decide_eq_true_iff]
  exact Int.not_lt.mpr hot

theorem execThermalTrip_cool {temp : Nat} (n : Nat) (cool : eighths temp < 920) :
    execThermalTrip n temp s = .next (fset (R.PWR_THERM_temp n) temp s) :=
  congrArg Host.Outcome.next (if_pos (Bool.or_eq_true_iff.mpr (.inl (decide_eq_true cool))))

/-! ## The save (R381, R429) -/

theorem bank_hdrWrite (f : LdgHdr → LdgHdr) (s : State) :
    (hdrWrite f s).ldg.bankA = s.ldg.bankA ∧ (hdrWrite f s).ldg.bankB = s.ldg.bankB := by
  rw [hdrWrite_ldg]
  split <;> exact ⟨rfl, rfl⟩

/-- The writes of the bank that takes the next save, with it. -/
def bankWrites (s : State) : Nat := (if decide (bankNewest s ≠ some true) then s.ldg.bankA.writes else s.ldg.bankB.writes) + 1

/-- A save as its bank takes it. -/
def bankNext (v : LdgSave) (s : State) : LdgSave :=
  { v with
    seq := ((bankNow s).seq + 1) % 2 ^ 32
    writes := bankWrites s }

theorem saveComplete_stopped {v : LdgSave} (saving : phase s = 13) (waits : s.pwr.save = some v) : ∃ t, exec .saveComplete s = .next t ∧
    phase t = 14 ∧ fget R.LDG_STATUS_saved_last_off t = 1 ∧ t.pwr.save = none ∧
    (bankNewest s = some true → t.ldg.bankB = bankNext v s ∧ t.ldg.bankA = s.ldg.bankA) ∧
    (bankNewest s ≠ some true → t.ldg.bankA = bankNext v s ∧ t.ldg.bankB = s.ldg.bankB) := by
  show ∃ t, execSaveComplete s = .next t ∧ _
  rw [execSaveComplete, waits]
  refine ⟨_, congrArg Host.Outcome.next (if_neg (not_not.mpr saving)), phase_phaseTo (by decide) _,
    (fget_phaseTo (by decide) ..).trans (fget_fset ..), rfl, ?_⟩
  extract_lets toA w saved ledger banked worn written
  obtain ⟨keptA, keptB⟩ : written.ldg.bankA = worn.ldg.bankA ∧ written.ldg.bankB = worn.ldg.bankB := bank_hdrWrite _ worn
  have put : worn.ldg = banked.ldg := (wearCheck_moves ..).ldg_eq
  rw [put] at keptA keptB
  refine ⟨fun newest => ?_, fun other => ?_⟩
  · have bank : banked.ldg = { s.ldg with bankB := saved } := if_neg (by simp [toA, newest])
    exact ⟨keptB.trans (congrArg Ldg.bankB bank :), keptA.trans (congrArg Ldg.bankA bank :)⟩
  · have bank : banked.ldg = { s.ldg with bankA := saved } := if_pos (by simp [toA, other])
    exact ⟨keptA.trans (congrArg Ldg.bankA bank :), keptB.trans (congrArg Ldg.bankB bank :)⟩

theorem execSaveComplete_other (other : phase s ≠ 13) : execSaveComplete s = .next s := by
  rw [execSaveComplete]
  cases s.pwr.save with
  | none => rfl
  | some v => exact congrArg Host.Outcome.next (if_pos other)

/-! ## The release (R437) -/

theorem stoppedRelease_rom (stopped : phase s = 14) (free : s.pwr.stop = some 4 → s.pwr.cool = true ∧ s.pwr.pulsed = true) :
    ∃ t, exec .stoppedRelease s = .next t ∧ phase t = 1 ∧ Changes [.regs] s t := by
  show ∃ t, execStoppedRelease s = .next t ∧ _
  refine ⟨phaseTo 1 s, congrArg Host.Outcome.next ((if_neg ?_).trans ((if_neg ?_).trans (if_neg ?_))), phase_phaseTo (by decide) s,
    (phaseTo_moves ..).toChanges⟩
  · rw [stopped]
    decide
  · exact not_not.mpr stopped
  · intro held
    obtain ⟨thermal, hot⟩ := Bool.and_eq_true_iff.mp held
    obtain ⟨cool, pulsed⟩ := free (of_decide_eq_true thermal)
    rw [cool, pulsed] at hot
    exact absurd hot (by decide)

theorem execStoppedRelease_held (stopped : phase s = 14) (thermal : s.pwr.stop = some 4)
    (held : s.pwr.cool = false ∨ s.pwr.pulsed = false) : execStoppedRelease s = .next s := by
  have hot : (s.pwr.cool && s.pwr.pulsed) = false := Bool.and_eq_false_iff.mpr held
  refine congrArg Host.Outcome.next ((if_neg ?_).trans ((if_neg ?_).trans (if_pos ?_)))
  · rw [stopped]
    decide
  · exact not_not.mpr stopped
  · rw [thermal, hot]
    rfl

/-! ## The keeper's reset (R434) -/

/-- A key that a filter drops reads as the default. -/
theorem tget_filter_dropped {α : Type} (d : α) (t : Tbl α) {k : Nat} {f : Nat × α → Bool} (drops : ∀ v, f (k, v) = false) :
    tget d (t.filter f) k = d := by
  induction t with
  | nil => rfl
  | cons p t ih =>
    obtain ⟨j, v⟩ := p
    by_cases same : j = k
    · subst same
      rw [List.filter_cons_of_neg (by simp [drops])]
      exact ih
    · by_cases kept : f (j, v) = true
      · rw [List.filter_cons_of_pos kept, tget, if_neg same]
        exact ih
      · rw [List.filter_cons_of_neg kept]
        exact ih

/-- A field's key is of one-time storage or of what the Ledger itself holds. -/
def oneTimeKey (k : Nat) : Bool :=
  decide (k / 64 = R.FRM_SIGNER_provisioned.addr) || decide (k / 64 = R.FRM_SIGNER_revoked.addr) || ledgerOwn (k / 64)

/-- The whole part at reset but the Ledger, SPI NOR and one-time storage; `dead` where it had stopped. -/
def keeperCleared (dead : Bool) (s : State) : State :=
  { mainReset s with
    regs := s.regs.filter fun p => oneTimeKey p.1
    cnt := []
    cntSh := []
    key := State.reset.key
    pwr := { State.reset.pwr with
      stop := if dead then none else some lsKeeper
      strap := Config.smbStrap % 4 } }

theorem phase_keeperCleared (dead : Bool) (s : State) : phase (keeperCleared dead s) = 0 :=
  tget_filter_dropped _ _ fun _ => (by decide : oneTimeKey (fkey R.PWR_STATUS_phase) = false)

theorem execKeeperReset_eq (s : State) : ∃ dead : Bool, execKeeperReset s = .next (if dead then keeperCleared dead s
    else fset R.LDG_STATUS_saved_last_off 0 (fset R.PWR_STATUS_last_stop lsKeeper (keeperCleared dead s))) := ⟨_, rfl⟩

theorem keeperReset_keepOn (s : State) : ∃ t, exec .keeperReset s = .next t ∧ phase t = 0 ∧ t.pwr.strap = Config.smbStrap % 4 ∧
    t.ldg = s.ldg ∧ t.mem.ledger = s.mem.ledger ∧ t.mem.spi = s.mem.spi ∧ t.key = State.reset.key ∧ t.clk = State.reset.clk ∧ t.cnt = [] ∧
    t.pending = s.pending := by
  show ∃ t, execKeeperReset s = .next t ∧ _
  obtain ⟨dead, run⟩ := execKeeperReset_eq s
  cases dead with
  | true => exact ⟨_, run, phase_keeperCleared true s, rfl, rfl, rfl, rfl, rfl, rfl, rfl, rfl⟩
  | false =>
    refine ⟨_, run, ?_, rfl, rfl, rfl, rfl, rfl, rfl, rfl, rfl⟩
    rw [phase]
    simp (disch := decide) only [fget_fset_other, Bool.false_eq_true, if_false]
    exact phase_keeperCleared false s

end

/-- Settles O43: what a stop leaves, then each command by the phase that it meets. -/
theorem stops : Obligations.Stops := by
  intro s
  refine ⟨fun cause save => stopDevice_stopped, fun rails => execSupplySag_stops rails, execSysReset_stops, sysReset_fwFail,
    execSysReset_noted, fun n temp => execThermalTrip_stops n, fun n temp => execThermalTrip_cool n, fun v saving waits => ?_,
    execSaveComplete_other, stoppedRelease_rom, execStoppedRelease_held, keeperReset_keepOn s⟩
  obtain ⟨t, run, stopped, last, none_, banks⟩ := saveComplete_stopped saving waits
  exact ⟨t, run, stopped, last, none_, bankWrites s, banks⟩

end Sys2Proof.Machine
end

section
/-! PROOFS. A channel's stop (R399); the fields of RING_STATUS (R464); the Ringmaster's lockstep (R408, R415). -/

namespace Sys2Proof.Machine
open Sys2Proof.Claims

/-! ## A stop of a channel that runs without a descriptor (R399) -/

/-- Channel 0 in RUN with no descriptor in progress: it waits to read its ring, which host memory holds while the link is down. -/
def runWaiting : State := dmaTo 0 dmRun State.reset

/-- Such a stop ends at once: the channel is STOPPED, and none waits to stop. -/
theorem dmaStop_runWaiting : dmaStop 0 runWaiting = dmaTo 0 dmStopped runWaiting := by decide +kernel

/-- Refutes O31: where a channel is in RUN with no descriptor in progress, DMA_STOP stops it at once and adds it to no list of channels that
stop at a descriptor's end. -/
theorem not_dmaEngines : ¬ Obligations.DmaEngines := by
  rintro ⟨_, channels⟩
  obtain ⟨_, _, stop, _⟩ := channels 0 runWaiting (by decide)
  obtain ⟨t, run, listed, _⟩ := stop (by decide)
  have here : t = dmaStop 0 runWaiting := by injection run.symm
  rw [here, dmaStop_runWaiting] at listed
  exact absurd listed (by decide)

/-! ## RING_STATUS (R464) -/

/-- The fields of a RING_STATUS result, each in its place. -/
theorem bits_ringStatus (r : Nat) (s : State) : let v := ringStatus r s
    bits v 0 15 = (s.ctl.legs.filter fun p => decide (p.2.ring = r) && decide (p.2.st = .active)).length % 2 ^ 15 ∧ bits v 15 1 = 0 ∧
    bits v 16 13 = (s.ctl.acts.filter fun p => decide (p.2.ring = r)).length % 2 ^ 13 ∧ bits v 29 3 = 0 ∧
    bits v 32 24 = generation r s % 2 ^ 24 ∧ bits v 56 3 = armedOf r s % 8 ∧ bits v 59 1 = b2n (rollbackOk r s) ∧ v < 2 ^ 60 := by
  have flag := b2n_lt_two (rollbackOk r s)
  simp only [ringStatus, put, putB, bits]
  omega

/-- Settles O54: the result's fields, read in the state in which the command entered. -/
theorem ringStatusResult : Obligations.RingStatusResult := by
  intro c r s names known rest enters
  refine ⟨_, _, exec_ringStatus enters rest names known, completes_answered .., ?_⟩
  have legs : (entered 0x02 c s).ctl = s.ctl := (takeIn_moves 0x02 c s).ctl_eq
  rw [← legs]
  exact bits_ringStatus r (entered 0x02 c s)

/-! ## The Ringmaster's lockstep (R408, R415) -/

section
variable {s : State}

/-- The rollbacks in a row at one point, with one more mismatch. -/
def rollsNext (same : Bool) (s : State) : Nat := if same then s.flt.rolls + 1 else 0

theorem execLockstepMismatch_rolls {same : Bool} (pair : fon R.FLT_RM_STATUS_single s = false) (few : s.flt.rolls < 3)
    (again : rollsNext same s < 3) : execLockstepMismatch same s = .next (raiseUnit EV_RM_ROLLBACK unitRm (s.flt.rollsBlock + 1)
      (cinc 0x740120 (faultDeclare ⟨unitRm, 5, 7, 0, 0, 0, s.flt.rollsBlock + 1, 0xFF, 1, 0⟩ { s with flt := { s.flt with
        rolls := rollsNext same s
        rollsBlock := s.flt.rollsBlock + 1 } }).2)) := by
  refine congrArg Host.Outcome.next ((if_neg ?_).trans (if_neg (Nat.not_le.mpr again)))
  rw [pair, Bool.false_or, decide_eq_true_iff]
  exact Nat.not_le.mpr few

theorem execLockstepMismatch_third (pair : fon R.FLT_RM_STATUS_single s = false) (two : s.flt.rolls = 2) :
    execLockstepMismatch true s = .next { s with flt := { s.flt with rolls := 3 } } := by
  simp [execLockstepMismatch, pair, two]

theorem execLockstepMismatch_single {same : Bool} (single : fon R.FLT_RM_STATUS_single s = true) : execLockstepMismatch same s = .next s :=
  congrArg Host.Outcome.next (if_pos (Bool.or_eq_true_iff.mpr (.inl single)))

/-- What a declared fault leaves of the Ringmaster's cores. -/
theorem faultDeclare_rm (f : FaultRec) (s : State) :
    (faultDeclare f s).2.flt.rmFailed = s.flt.rmFailed ∧ (faultDeclare f s).2.flt.rolls = s.flt.rolls := by
  have logged : (faultLog f s).2.flt = s.flt := (faultLog_moves f s).flt_eq
  exact ⟨(congrArg Flt.rmFailed logged :), (congrArg Flt.rolls logged :)⟩

/-- The Ringmaster on one core after the cores' own tests: the fault declared, the other core noted as failed. -/
def rmAlone (core : Nat) (s : State) : State :=
  (faultDeclare ⟨unitRm, 5, 8, 0, 0, 0, core, 0xFF, 3, 0⟩ { s with flt := { s.flt with
    rolls := 0
    rmFailed := [1 - core] } }).2

theorem flt_rmAlone (core : Nat) (s : State) : (rmAlone core s).flt.rmFailed = [1 - core] ∧ (rmAlone core s).flt.rolls = 0 :=
  faultDeclare_rm ..

theorem rmSelftestDone_one (third : 3 ≤ s.flt.rolls) (pass0 : Bool) : ∃ u, exec (.rmSelftestDone pass0 !pass0) s =
    .next (raiseUnit EV_RM_SINGLE unitRm (b2n (!pass0)) u) ∧ fget R.FLT_RM_STATUS_single u = 1 ∧
    fget R.FLT_RM_STATUS_core u = b2n (!pass0) ∧ u.flt.rmFailed = [b2n pass0] ∧ u.flt.rolls = 0 := by
  show ∃ u, execRmSelftestDone pass0 (!pass0) s = .next _ ∧ _
  obtain ⟨failed, rolls⟩ := flt_rmAlone (b2n !pass0) s
  refine ⟨fset R.FLT_RM_STATUS_core (b2n !pass0) (fset R.FLT_RM_STATUS_single 1 (rmAlone (b2n !pass0) s)), ?_, ?_,
    (fget_fset ..).trans (b2n_mod_two _), failed.trans ?_, rolls⟩
  · cases pass0 <;> exact congrArg Host.Outcome.next (if_neg (Nat.not_lt.mpr third))
  · exact (fget_fset_other _ _ _ _ (by decide)).trans (fget_fset ..)
  · cases pass0 <;> rfl

end

/-- Settles O39: a mismatch by the rollbacks before it, the cores' own tests by which of them pass. -/
theorem lockstep : Obligations.Lockstep := by
  intro s next rolled rec_
  refine ⟨fun same pair few again => execLockstepMismatch_rolls pair few again, execLockstepMismatch_third,
    fun same => execLockstepMismatch_single, fun third => ⟨?_, ?_, rmSelftestDone_one third⟩, fun few a b => congrArg Host.Outcome.next (if_pos few)⟩
  · exact congrArg Host.Outcome.next (if_neg (Nat.not_lt.mpr third))
  · exact congrArg Host.Outcome.next (if_neg (Nat.not_lt.mpr third))

end Sys2Proof.Machine
end

section
/-! PROOFS. Errors of DRAM and of the Ledger (R371, R373, R377, R381, R384). -/

namespace Sys2Proof.Machine
open Sys2Proof.Claims

/-! ## Corrected errors (R373) -/

section
variable {ch : Nat} {s : State}

theorem execDdrEccCorrected_few {sub dev row : Nat} (up : chanUp ch s = true) (few : (rowsSeen ch sub dev row s).length < 16) :
    execDdrEccCorrected ch sub dev row s = .next { cinc (chanCnt ch 0x50) s with ddr := { s.ddr with
      rows := tset s.ddr.rows (ch * 32 + sub * 16 + dev) (rowsSeen ch sub dev row s) } } :=
  (if_neg (by simp [up])).trans (if_pos few)

theorem execDdrEccCorrected_many {sub dev row : Nat} (up : chanUp ch s = true) (many : 16 ≤ (rowsSeen ch sub dev row s).length) :
    execDdrEccCorrected ch sub dev row s = .next (suspectReport (unitDdr ch) 3 (raiseUnit EV_DDR_DEVICE_SUSPECT (unitDdr ch)
      (ch + sub * 16 + dev * 256) (fset (R.DDR_CH_STATUS_device_suspect ch) 1 { cinc (chanCnt ch 0x50) s with ddr := { s.ddr with
        rows := terase s.ddr.rows (ch * 32 + sub * 16 + dev) } }))).2 :=
  (if_neg (by simp [up])).trans (if_neg (Nat.not_lt.mpr many))

/-! ## Uncorrectable lines (R373) -/

theorem lineReported_moves (ch line : Nat) (s : State) : Moves [.mem, .regs, .cnt, .hif, .ddr, .out] s (lineReported ch line s) := by
  have noted : Moves [.mem, .regs, .cnt, .hif, .ddr, .out] s (rateOk (rateKey EV_DDR_UNCORR ch) 2000 (cinc (chanCnt ch 0x58) s)).2 :=
    Moves.seq (rateOk_moves ..) (by decide) (Moves.seq (cinc_moves ..) (by decide) (Moves.refl _ s))
  exact Moves.ite (Moves.seq (raiseUnit_moves ..) (by decide) noted) noted

/-- The lines that a channel has shown uncorrectable noted; with more than 64 of them the channel's loss is due. -/
def linesNoted (ch : Nat) (lines : Tbl Nat) (s : State) : State :=
  let s := { s with ddr := { s.ddr with lines := tset s.ddr.lines ch lines } }
  if 64 < lines.length && !s.ddr.due.contains (ch, 2) then { s with ddr := { s.ddr with due := s.ddr.due ++ [(ch, 2)] } } else s

theorem lines_linesNoted (ch : Nat) (lines : Tbl Nat) (s : State) : tget [] (linesNoted ch lines s).ddr.lines ch = lines := by
  unfold linesNoted
  dsimp only
  split <;> exact tget_tset_same ..

theorem due_linesNoted {lines : Tbl Nat} (many : 64 < lines.length) : (ch, 2) ∈ (linesNoted ch lines s).ddr.due := by
  unfold linesNoted
  dsimp only
  split
  · exact List.mem_append_right _ (List.mem_singleton_self _)
  · next kept =>
    rw [decide_eq_true many, Bool.true_and, Bool.not_eq_true, Bool.not_eq_false'] at kept
    exact List.contains_iff_mem.mp kept

theorem linesNoted_moves (ch : Nat) (lines : Tbl Nat) (s : State) : Moves [.ddr] s (linesNoted ch lines s) := by
  have noted : Moves [.ddr] s { s with ddr := { s.ddr with lines := tset s.ddr.lines ch lines } } := Moves.ddr_with (by decide) (Moves.refl _ _)
  exact Moves.ite (Moves.ddr_with (by decide) noted) noted

/-- A line found uncorrectable: reported, noted among its channel's. -/
def lineNoted (ch line : Nat) (s : State) : State :=
  linesNoted ch (linesSeen ch line (lineReported ch line s)) (lineReported ch line s)

theorem lineNoted_moves (ch line : Nat) (s : State) : Moves [.mem, .regs, .cnt, .hif, .ddr, .out] s (lineNoted ch line s) :=
  Moves.seq (linesNoted_moves ..) (by decide) (lineReported_moves ..)

/-- A list holds what is put at its end where it did not hold it. -/
theorem mem_ifNew (a : Nat) (l : List Nat) : a ∈ (if l.contains a = true then l else l ++ [a]) := by
  split
  · next known => exact List.contains_iff_mem.mp known
  · exact List.mem_append_right _ (List.mem_singleton_self _)

/-- A line whose contents are lost is poisoned. -/
def poisonNoted (line : Nat) (s : State) : State :=
  { s with mem := { s.mem with poison := if s.mem.poison.contains line then s.mem.poison else s.mem.poison ++ [line] } }

theorem mem_poisonNoted (line : Nat) (s : State) : line ∈ (poisonNoted line s).mem.poison := mem_ifNew line s.mem.poison

theorem execDdrEccUncorrectable_eq {line : Nat} (both : Bool) (jr rw : List (Nat × Nat)) (up : chanUp ch s = true)
    (holds : (lineOn line s).contains ch = true) : execDdrEccUncorrectable ch line both jr rw s =
      if 1 < (lineOn line s).length && !both then .next (lineNoted ch line s)
      else .next (dataLost jr rw (bufsHit (fun a n => decide (64 * line < a + n) && decide (a < 64 * line + 64))
        (poisonNoted line (lineNoted ch line s))) (poisonNoted line (lineNoted ch line s))) := by
  rw [execDdrEccUncorrectable]
  refine (if_neg (by rw [up, holds]; decide)).trans ?_
  dsimp only
  unfold lineNoted lineReported
  generalize rateOk (rateKey EV_DDR_UNCORR ch) 2000 (cinc (chanCnt ch 0x58) s) = reported
  obtain ⟨due, noted⟩ := reported
  cases due <;> rfl

end

theorem dramErrors : Claims.DramErrors := by
  intro ch s up
  refine ⟨fun sub dev row few => ?_, fun sub dev row many => ?_, fun line jr rw holds mirrored => ?_, fun line jr rw holds => ?_, ?_,
    fun few => ?_, fun third => ?_, fun cause jr rw due => ?_, fun cause jr rw absent declared => ?_⟩
  · refine ⟨_, execDdrEccCorrected_few up few, tget_tset_same .., ?_⟩
    exact (Moves.ddr_with (by decide) (Moves.seq (cinc_moves ..) (by decide) (Moves.refl _ _))).toChanges
  · refine ⟨_, execDdrEccCorrected_many up many, fget_fset .., ?_⟩
    exact (Moves.seq (fset_moves ..) (by decide) (Moves.ddr_with (by decide) (Moves.seq (cinc_moves ..) (by decide) (Moves.refl _ _)))).toChanges
  · show ∃ t, execDdrEccUncorrectable ch line false jr rw s = .next t ∧ _
    have moves := lineNoted_moves ch line s
    exact ⟨_, (execDdrEccUncorrectable_eq false jr rw up holds).trans (if_pos (by simp [mirrored])),
      ⟨lines_linesNoted .., due_linesNoted⟩, moves.ctl_eq, moves.egr_eq, moves.vid_eq⟩
  · show ∃ u, execDdrEccUncorrectable ch line true jr rw s = .next _ ∧ _
    exact ⟨_, (execDdrEccUncorrectable_eq true jr rw up holds).trans (if_neg (by simp)), mem_poisonNoted .., lines_linesNoted .., due_linesNoted⟩
  · show ∃ t, execDdrCaParityAlert ch false s = .next t ∧ _
    refine ⟨_, (if_neg (by simp [up])).trans (if_neg (by decide : (0 : Nat) ≠ 3)), tget_tset_same .., rfl, ?_⟩
    exact (Moves.seq (cinc_moves ..) (by decide) (Moves.ddr_with (by decide) (Moves.refl _ _))).toChanges
  · show ∃ t, execDdrCaParityAlert ch true s = .next t ∧ _
    refine ⟨_, (if_neg (by simp [up])).trans (if_neg ?_), tget_tset_same .., rfl, ?_⟩
    · exact fun last => absurd few (Nat.not_lt.mpr (Nat.le_of_eq (Nat.succ.inj last).symm))
    · exact (Moves.seq (cinc_moves ..) (by decide) (Moves.ddr_with (by decide) (Moves.refl _ _))).toChanges
  · show ∃ t, execDdrCaParityAlert ch true s = .next t ∧ _
    refine ⟨_, (if_neg (by simp [up])).trans (if_pos (congrArg (· + 1) third)), rfl, ?_⟩
    exact (Moves.seq (cinc_moves ..) (by decide) (Moves.ddr_with (by decide) (Moves.refl _ _))).toChanges
  · show execDdrChannelLoss ch cause jr rw s = _
    refine if_pos ?_
    rw [up, Bool.true_and, Bool.or_eq_true_iff, decide_eq_true_iff, List.contains_iff_mem]
    exact due
  · show execDdrChannelLoss ch cause jr rw s = _
    refine if_neg ?_
    rw [up, Bool.true_and, Bool.or_eq_true_iff, decide_eq_true_iff, List.contains_iff_mem]
    exact fun either => either.elim absent declared

/-! ## Uncorrectable words of the Ledger (R381, R384) -/

/-- The Ledger without the record that holds a word. -/
def ldgIgnored (addr copy : Nat) (l : Ldg) : Ldg :=
  if addr < 0x10000 then (if copy = 0 then { l with hdrA := { l.hdrA with ok := false } } else { l with hdrB := { l.hdrB with ok := false } })
  else if addr < 0x820000 then { l with bad := if l.bad.contains (addr / 64) then l.bad else l.bad ++ [addr / 64] }
  else if addr < 0xE20000 then { l with bankA := { l.bankA with ok := false } }
  else if addr < 0x1420000 then { l with bankB := { l.bankB with ok := false } }
  else l

/-- The error counted and reported, the record ignored. -/
def ldgWordLost (addr copy : Nat) (s : State) : State :=
  let reported := raiseUnit EV_LDG_ECC unitRm addr (cinc 0x7C0110 s)
  { reported with ldg := ldgIgnored addr copy reported.ldg }

theorem ldg_ldgWordLost (addr copy : Nat) (s : State) : (ldgWordLost addr copy s).ldg = ldgIgnored addr copy s.ldg :=
  congrArg (ldgIgnored addr copy) (raiseUnit_moves ..).ldg_eq

theorem ldgWordLost_moves (addr copy : Nat) (s : State) : Moves [.mem, .regs, .cnt, .hif, .ddr, .ldg, .out] s (ldgWordLost addr copy s) :=
  Moves.ldg_with (by decide) (Moves.seq (raiseUnit_moves ..) (by decide) (Moves.seq (cinc_moves ..) (by decide) (Moves.refl _ s)))

section
variable {addr copy : Nat} {l : Ldg}

theorem ldgIgnored_header (header : addr < 0x10000) : ldgIgnored addr copy l =
    if copy = 0 then { l with hdrA := { l.hdrA with ok := false } } else { l with hdrB := { l.hdrB with ok := false } } := if_pos header

theorem ldgIgnored_log (low : 0x10000 ≤ addr) (high : addr < 0x820000) : ldgIgnored addr copy l =
    { l with bad := if l.bad.contains (addr / 64) then l.bad else l.bad ++ [addr / 64] } :=
  (if_neg (Nat.not_lt.mpr low)).trans (if_pos high)

theorem ldgIgnored_bankA (low : 0x820000 ≤ addr) (high : addr < 0xE20000) : ldgIgnored addr copy l =
    { l with bankA := { l.bankA with ok := false } } :=
  (if_neg (by omega)).trans ((if_neg (Nat.not_lt.mpr low)).trans (if_pos high))

theorem ldgIgnored_bankB (low : 0xE20000 ≤ addr) (high : addr < 0x1420000) : ldgIgnored addr copy l =
    { l with bankB := { l.bankB with ok := false } } :=
  (if_neg (by omega)).trans ((if_neg (by omega)).trans ((if_neg (Nat.not_lt.mpr low)).trans (if_pos high)))

/-- A word beyond the headers leaves both of them. -/
theorem headers_ldgIgnored (low : 0x10000 ≤ addr) : (ldgIgnored addr copy l).hdrA = l.hdrA ∧ (ldgIgnored addr copy l).hdrB = l.hdrB := by
  rw [ldgIgnored, if_neg (Nat.not_lt.mpr low)]
  split
  · exact ⟨rfl, rfl⟩
  · split
    · exact ⟨rfl, rfl⟩
    · split <;> exact ⟨rfl, rfl⟩

end

theorem ledgerErrors : Claims.LedgerErrors := by
  intro addr copy s
  refine ⟨ldgWordLost addr copy s, rfl, (ldgWordLost_moves ..).toChanges, ?_⟩
  rw [ldg_ldgWordLost]
  refine ⟨fun header first => ?_, fun header second => ?_, headers_ldgIgnored, fun low high => ?_, fun low high => ?_, fun low high => ?_⟩
  · rw [ldgIgnored_header header, if_pos first]
    exact ⟨rfl, rfl⟩
  · rw [ldgIgnored_header header, if_neg second]
    exact ⟨rfl, rfl⟩
  · rw [ldgIgnored_log low high]
    exact mem_ifNew (addr / 64) s.ldg.bad
  · rw [ldgIgnored_bankA low high]
    exact ⟨rfl, rfl⟩
  · rw [ldgIgnored_bankB low high]
    exact ⟨rfl, rfl⟩

/-- Settles O35: an error of DRAM by what its channel has shown before, one of the Ledger by the record that its address lies in. -/
theorem dramAndLedger : Obligations.DramAndLedger := ⟨dramErrors, ledgerErrors⟩

end Sys2Proof.Machine
end

section
/-! PROOFS. Bays lost or not (R407, R410, R413); self-tests of Bays and of suspect cores (R410, R417 to R419). -/

namespace Sys2Proof.Machine
open Sys2Proof.Claims

/-! ## The loss of a Bay (R407, R410, R413) -/

section
variable {bay : Nat} {s : State}

theorem bayLost_may {cause unit cls : Nat} (may : MayLose bay s) : bayLost bay cause unit cls s = bayOut bay cause unit cls s := by
  obtain ⟨bay4, lost, quarantined⟩ := may
  refine if_neg ?_
  simpa [Nat.not_le.mpr bay4] using ⟨lost, quarantined⟩

theorem bayLost_out {cause unit cls : Nat} (bay4 : bay < 4) (out : ¬ MayLose bay s) : bayLost bay cause unit cls s = s := by
  refine if_pos ?_
  have either : baySt bay s = bsLost ∨ baySt bay s = bsQuar :=
    Classical.byContradiction fun neither => out ⟨bay4, fun lost => neither (.inl lost), fun quarantined => neither (.inr quarantined)⟩
  simpa [Nat.not_le.mpr bay4] using either

theorem execBayLossDeclared_cause {cause : Nat} (least : 1 ≤ cause) (most : cause ≤ 4) :
    execBayLossDeclared bay cause s = .next (bayLost bay cause (unitBay bay) 3 s) :=
  congrArg Host.Outcome.next (if_pos (by simp [within, least, most]))

theorem execBayLossDeclared_out (bay4 : bay < 4) (out : ¬ MayLose bay s) (cause : Nat) : execBayLossDeclared bay cause s = .next s := by
  refine congrArg Host.Outcome.next ?_
  split
  · exact bayLost_out bay4 out
  · rfl

/-! ## A Bay's state shown (R410, R413) -/

theorem baySt_fset_other {f : Fld} (other : fkey (R.FLT_BAY_STATUS_state bay) ≠ fkey f) (v : Nat) (s : State) :
    baySt bay (fset f v s) = baySt bay s := fget_fset_other _ _ _ _ other

theorem baySt_tile (bay4 : bay < 4) (t v : Nat) (s : State) : baySt bay (fset (R.VCT_TILE_STATUS_state t) v s) = baySt bay s := by
  refine baySt_fset_other ?_ v s
  simp only [fkey, R.FLT_BAY_STATUS_state, R.VCT_TILE_STATUS_state]
  omega

/-- The states that a Bay's units show leave every Bay's own state. -/
theorem baySt_unitsShow (bay4 : bay < 4) (b : Nat) (s : State) : baySt bay (unitsShow b s) = baySt bay s := by
  refine (fget_foldl (fun s t => ?_) ..).trans ?_
  · have tile := fun v => baySt_tile bay4 t v s
    exact fget_ite rfl (fget_ite (tile 3) (fget_ite rfl (fget_ite (tile 0) (fget_ite (tile 1) rfl))))
  · show baySt bay _ = _
    iterate 5 rw [baySt_fset_other (by
      simp only [fkey, R.FLT_BAY_STATUS_state, R.AUD_UNIT_STATUS_state, R.FWD_UNIT_STATUS_state, R.CMP_STATUS_state, R.CIPH_ENG_STATUS_state]
      omega)]

theorem baySt_coverSync (bay4 : bay < 4) (s : State) : baySt bay (coverSync s) = baySt bay s := by
  refine (fget_foldl (fun s k => ?_) ..).trans ?_
  · refine fget_fset_other _ _ _ _ ?_
    simp only [fkey, R.FLT_BAY_STATUS_state, R.FLT_HEADROOM_headroom]
    omega
  · show baySt bay _ = _
    iterate 2 rw [baySt_fset_other (by
      simp only [fkey, R.FLT_BAY_STATUS_state, R.FLT_STATUS_cover, R.FLT_STATUS_bay_out]
      omega)]

theorem baySet_shown {st : Nat} (bay4 : bay < 4) (small : st < 8) (cause idx : Nat) : ∃ u,
    baySet bay st cause idx s = raiseUnit EV_BAY_STATE (unitBay bay) (bayDetail bay st cause idx) u ∧ baySt bay u = st ∧
    Changes [.regs] s u := by
  refine ⟨_, rfl, ?_, ?_⟩
  · rw [baySt_coverSync bay4, baySt_unitsShow bay4]
    exact (fget_fset ..).trans (Nat.mod_eq_of_lt small)
  · exact (Moves.seq (coverSync_moves ..) (by decide) (Moves.seq (unitsShow_moves ..) (by decide) (fset_moves ..))).toChanges

theorem bayLoss : Claims.BayLoss := by
  intro bay s bay4
  refine ⟨fun may => ⟨congrArg Host.Outcome.next (bayLost_may may), fun cause least most => ?_, fun unit => ?_, bayLost_may may⟩,
    fun out => ⟨congrArg Host.Outcome.next (bayLost_out bay4 out), execBayLossDeclared_out bay4 out, fun unit => ?_, bayLost_out bay4 out⟩,
    fun st cause idx small => baySet_shown bay4 small cause idx⟩
  · exact (execBayLossDeclared_cause least most).trans (congrArg Host.Outcome.next (bayLost_may may))
  · exact congrArg Host.Outcome.next (bayLost_may may)
  · exact congrArg Host.Outcome.next (bayLost_out bay4 out)

/-! ## Self-tests (R410, R417 to R419) -/

variable {t : SelfTest} {l : Lop} {seg : Nat} {failed : List Nat}

theorem execBayDrainComplete_over (test : s.flt.test = some t) (own : t.bay = bay) (draining : baySt bay s = 3)
    (finished : drained bay s = true) : execBayDrainComplete bay s = .next (baySet bay 4 5 0 (testPut (some { t with drained := true }) s)) := by
  rw [execBayDrainComplete, test]
  refine congrArg Host.Outcome.next (if_pos ?_)
  rw [finished, decide_eq_true own, decide_eq_true (show baySt bay s = bsDrain from draining)]
  rfl

theorem execBayDrainComplete_wait (test : s.flt.test = some t) (more : drained bay s = false) : execBayDrainComplete bay s = .next s := by
  rw [execBayDrainComplete, test]
  refine congrArg Host.Outcome.next (if_neg ?_)
  rw [more, Bool.and_false]
  exact Bool.false_ne_true

theorem execSelftestSegmentDone_live (live : TestAt bay seg t l s) :
    execSelftestSegmentDone bay seg failed s = .next (testSegment seg failed t s) := by
  obtain ⟨test, own, testing, next, found, active⟩ := live
  rw [execSelftestSegmentDone, test]
  refine congrArg Host.Outcome.next (if_pos ?_)
  simp only [found, next, active, own, show baySt bay s = bsTest from testing, decide_true, Bool.and_self]

/-- A running operation's safe point changes nothing. -/
theorem lopSafe_running {fn : Fn} {tag : Nat} {cancel : State → State} (found : lopFind fn tag s = some l) (running : l.st = .running) :
    lopSafe fn tag cancel s = s := by
  rw [lopSafe, found]
  dsimp only
  rw [running]

/-- A test with segment `seg` passed. -/
def testPassed (seg : Nat) (t : SelfTest) : SelfTest :=
  { t with
    passed := t.passed + 2 ^ seg
    next := seg + 1 }

theorem testSegment_passed {n : Nat} (more : nextSeg t.mask (seg + 1) = some n) (found : lopFind t.fn t.tag s = some l)
    (running : l.st = .running) :
    testSegment seg [] t s = fset (R.FLT_BAY_STATUS_failed t.bay) t.failed (testPut (some (testPassed seg t)) s) := by
  rw [testSegment]
  simp only [List.foldl_nil, List.isEmpty_nil, Bool.not_true, Bool.false_eq_true, if_false, if_true, more]
  exact lopSafe_running found running

end

theorem selfTests : Claims.SelfTests := by
  intro bay seg failed s
  refine ⟨fun t test own draining finished => execBayDrainComplete_over test own draining finished,
    fun t test more => execBayDrainComplete_wait test more, fun t l live => execSelftestSegmentDone_live live,
    fun t l n live running more => ?_, fun none_ => ?_⟩
  · obtain ⟨_, _, _, _, found, _⟩ := id live
    refine ⟨_, (execSelftestSegmentDone_live live).trans (congrArg Host.Outcome.next (testSegment_passed more found running)), rfl, ?_⟩
    exact (Moves.seq (fset_moves ..) (by decide) (Moves.seq (testPut_moves ..) (by decide) (Moves.refl _ s))).toChanges
  · show execSelftestSegmentDone bay 0 failed s = _
    rw [execSelftestSegmentDone, none_]
    rfl

/-- Settles O38: a loss by whether the Bay is still in service, a self-test by the state of its Bay and of its operation. -/
theorem bayLossAndTests : Obligations.BayLossAndTests := ⟨bayLoss, selfTests⟩

end Sys2Proof.Machine
end

section
/-! PROOFS. The cascade: its messages (R444 to R447), what they do (R449 to R455), its timers and its key (R448 to R450, R455, R456). -/

namespace Sys2Proof.Machine
open Sys2Proof.Claims

/-! ## Messages checked (R444 to R447) -/

section
variable {p : List Byte} {k : Nat} {i : Instr} {m : CasMsg} {s : State}

theorem exec_msgRow (row : MsgRow p k i) (typ : le p 1 1 = k) : exec i s = .next (casIn p s) := by
  have own : ∀ n, le p 1 1 = n → casInType n p s = casIn p s := fun n same => if_pos same
  rcases row with ⟨rfl, rfl⟩ | ⟨rfl, rfl⟩ | ⟨rfl, rfl⟩ | ⟨rfl, rfl⟩ | ⟨rfl, rfl⟩ | ⟨rfl, rfl⟩
  · exact congrArg Host.Outcome.next (own 0x01 typ)
  · exact congrArg Host.Outcome.next (own 0x02 typ)
  · exact congrArg Host.Outcome.next (own 0x03 typ)
  · exact congrArg Host.Outcome.next (own 0x10 typ)
  · exact congrArg Host.Outcome.next (own 0x20 typ)
  · exact congrArg Host.Outcome.next (own 0x21 typ)

theorem casIn_malformed (bad : casParse p = none) : casIn p s = cinc 0x800040 s := by
  rw [casIn, bad]

theorem casIn_other (parsed : casParse p = some m) (other : m.dst ≠ casMe s) : casIn p s = s := by
  rw [casIn, parsed]
  exact if_pos other

theorem tagCounted_eq (m : CasMsg) (s : State) : (if decide (m.typ < 0x10) && bit m.flags 0 && !s.key.kr1.isEmpty then verifyOnly s else s) =
    tagCounted m s := by
  have condition : (decide (m.typ < 0x10) && bit m.flags 0 && !s.key.kr1.isEmpty) = true ↔
      m.typ < 0x10 ∧ bit m.flags 0 = true ∧ s.key.kr1 ≠ [] := by simp [and_assoc]
  simp only [condition]
  rfl

theorem tagCounted_cas (m : CasMsg) (s : State) : (tagCounted m s).cas = s.cas := by
  unfold tagCounted
  split <;> rfl

theorem casPeer_tagCounted (m : CasMsg) (n : Nat) (s : State) : casPeer n (tagCounted m s) = casPeer n s :=
  congrArg (fun c : Cas => tget CasPeer.init c.peers n) (tagCounted_cas m s)

/-- A message for this part, by its tag and by whether it was seen before. -/
theorem casIn_own (parsed : casParse p = some m) (own : m.dst = casMe s) : casIn p s =
    if decide (m.typ < 0x10) && !casVerified m (tagCounted m s) then casAuthFail m.src (tagCounted m s)
    else if (casPeer m.src s).seen.contains (m.typ * 65536 + m.seq) then cinc (peerCnt m.src 0x38) (tagCounted m s)
    else casDo m (cinc (peerCnt m.src 0x20) (casPeerPut m.src (casSeen m (casPeer m.src s)) (tagCounted m s))) := by
  rw [casIn, parsed]
  refine (if_neg (not_not.mpr own)).trans ?_
  dsimp only
  rw [tagCounted_eq, casPeer_tagCounted]

theorem control_refused : (decide (m.typ < 0x10) && !casVerified m (tagCounted m s)) = true ↔ ¬ Authentic m s := by
  simp [Authentic]

theorem seen_iff : (casPeer m.src s).seen.contains (m.typ * 65536 + m.seq) = true ↔ Repeated m s := List.contains_iff_mem

end

theorem cascadeMessages : Claims.CascadeMessages := by
  intro p k i s row typ
  rw [exec_msgRow row typ]
  refine ⟨fun bad => ?_, fun m parsed other => ?_, fun m parsed own refused => ?_, fun m parsed own authentic seen => ?_,
    fun m parsed own authentic unseen => ?_⟩
  · rw [casIn_malformed bad]
  · rw [casIn_other parsed other]
  · rw [casIn_own parsed own, if_pos (control_refused.mpr refused)]
  · rw [casIn_own parsed own, if_neg (mt control_refused.mp (not_not.mpr authentic)), if_pos (seen_iff.mpr seen)]
  · rw [casIn_own parsed own, if_neg (mt control_refused.mp (not_not.mpr authentic)), if_neg (mt seen_iff.mp unseen)]

/-! ## Fields of a body -/

theorem leNat_leBytes (k n : Nat) : leNat (leBytes k n) = n % 256 ^ k := by
  induction k generalizing n with
  | zero => simp [leBytes, leNat, Nat.mod_one]
  | succ k ih =>
    have byte : (BitVec.ofNat 8 n).toNat = n % 256 := BitVec.toNat_ofNat ..
    rw [leBytes, leNat, ih, byte, Nat.pow_succ', Nat.mod_mul]

/-- The field of a list that its middle part fills. -/
theorem le_middle {a b c : List Byte} {o k : Nat} (before : a.length = o) (wide : b.length = k) : le (a ++ b ++ c) o k = leNat b := by
  subst before wide
  simp [le, slice, List.append_assoc]

/-! ## What a message does (R449 to R455) -/

section
variable {m : CasMsg} {s : State}

/-- What a HELLO is answered with (R449). -/
def helloRes (m : CasMsg) (s : State) : Nat :=
  if 1 < stampSub s.clk.stamp (le m.body 8 6) then 1 else if le m.body 18 1 ≠ casX s then 2
    else if m.src = casMe s ∨ inForce m.src s.clk.stamp s = true then 3 else 0

theorem helloRes_byte (m : CasMsg) (s : State) : helloRes m s % 256 = helloRes m s := by
  unfold helloRes
  repeat' split
  all_goals rfl

/-- The state that answers a HELLO: with the sender a member from its start stamp on, where it is accepted. -/
def helloTaken (m : CasMsg) (s : State) : State := if helloRes m s = 0 then memberAdd m.src (helloStart m s) s else s

/-- The answer's body. -/
def ackBody (m : CasMsg) (s : State) : List Byte :=
  leBytes 8 (if helloRes m s = 0 then helloStart m s else 0) ++
    leBytes 2 ((casOthers s.clk.stamp (helloTaken m s)).foldl (fun n i => n + 2 ^ i) (2 ^ casMe (helloTaken m s))) ++
    leBytes 1 (helloRes m s) ++ List.replicate 5 0

theorem helloIn_answers (m : CasMsg) (s : State) : helloIn m s = casSend m.src 2 0 s.clk.stamp false (ackBody m s) (helloTaken m s) := by
  have force : (decide (m.src = casMe s) || inForce m.src s.clk.stamp s) = true ↔ m.src = casMe s ∨ inForce m.src s.clk.stamp s = true := by
    simp
  simp only [helloIn, force]
  rfl

theorem le_ackBody_stamp (m : CasMsg) (s : State) :
    le (ackBody m s) 0 8 = (if helloRes m s = 0 then helloStart m s else 0) % 2 ^ 64 := by
  rw [ackBody, List.append_assoc, List.append_assoc, ← List.nil_append (leBytes 8 _), List.append_assoc, ← List.append_assoc []]
  exact (le_middle rfl (length_leBytes ..)).trans (leNat_leBytes ..)

theorem le_ackBody_res (m : CasMsg) (s : State) : le (ackBody m s) 10 1 = helloRes m s :=
  (le_middle (by simp) (length_leBytes ..)).trans ((leNat_leBytes ..).trans (helloRes_byte m s))

theorem casDo_hello (typ : m.typ = 1) : casDo m s = helloIn m s := by simp only [casDo, typ]

theorem casDo_ack (typ : m.typ = 2) : casDo m s = ackIn m s := by simp only [casDo, typ]

theorem casDo_leave (typ : m.typ = 3) : casDo m s = leaveIn m s := by simp only [casDo, typ]

theorem casDo_audio (typ : m.typ = 0x10) : casDo m s = audioIn m s := by simp only [casDo, typ]

theorem casDo_request (typ : m.typ = 0x21) : casDo m s = requestIn m s := by simp only [casDo, typ]

theorem ackIn_agrees {j : CasJoin} (join : s.cas.join = some j) (phase : j.start = none) (expected : bit j.mask m.src = true)
    (accepted : le m.body 10 1 = 0) : ackIn m s = joinAgree { j with acks := tset j.acks m.src (le m.body 0 6) } { s with cas := { s.cas with
      join := some { j with acks := tset j.acks m.src (le m.body 0 6) } } } := by
  rw [ackIn, join]
  exact (if_neg (by simp [phase, expected])).trans (if_neg (not_not.mpr accepted))

theorem leaveIn_stranger (stranger : tfind s.cas.members m.src = none) : leaveIn m s = s := by
  rw [leaveIn, stranger]
  rfl

theorem leaveIn_member (member : tfind s.cas.members m.src ≠ none) : leaveIn m s =
    leaveBoundary s.clk.stamp (casPeerPut m.src { casPeer m.src s with leave := some (le m.body 0 6) } s) :=
  if_neg (by simpa using member)

/-! ### AUDIO (R451, R454, R471) -/

/-- The records of an AUDIO message for Acts that no replay runs. -/
def liveRecs (m : CasMsg) (s : State) : List CasRec :=
  (casRecs (m.body.length / 152 + 1) m.body).filter fun r => ((mappedAct r.act s).bind fun a => repOf a s).isNone

/-- Records noted by the captures of their Acts. -/
def recsCaptured (m : CasMsg) (recs : List CasRec) (s : State) : State :=
  recs.foldl (fun s r => match mappedAct r.act s with
    | some a => casCap m a (recBytes r) s
    | none => s) s

theorem recsCaptured_cas (m : CasMsg) (recs : List CasRec) (s : State) : (recsCaptured m recs s).cas = s.cas := by
  have moves : Moves [.obs] s (recsCaptured m recs s) := by
    refine Moves.foldl (fun r y => ?_) (Moves.refl _ _)
    split
    · exact casCap_moves ..
    · exact Moves.refl _ _
  exact moves.same .cas (by decide)

theorem audioIn_live (member : tfind s.cas.members m.src ≠ none) (timely : stampGe s.clk.stamp (stampAdd m.stamp (1 + casX s)) = false) :
    audioIn m s = farTake m.src m.stamp (liveRecs m s) (!bit m.flags 1) (recsCaptured m (liveRecs m s) s) :=
  (if_neg (by simpa using member)).trans (if_neg (Bool.eq_false_iff.mp timely))

theorem audioIn_late (member : tfind s.cas.members m.src ≠ none) (late : stampGe s.clk.stamp (stampAdd m.stamp (1 + casX s)) = true) :
    audioIn m s = casLate m.src (casRecs (m.body.length / 152 + 1) m.body).length s :=
  (if_neg (by simpa using member)).trans (if_pos late)

/-- The stream of a stamp that a member's records extend. -/
theorem ins_farTake (src stamp : Nat) (recs : List CasRec) (ended : Bool) (s : State) :
    tget ⟨[], false⟩ (casPeer src (farTake src stamp recs ended s)).ins stamp =
      ⟨(tget ⟨[], false⟩ (casPeer src s).ins stamp).recs ++ recs, (tget ⟨[], false⟩ (casPeer src s).ins stamp).ended || ended⟩ := by
  have peer : casPeer src (farTake src stamp recs ended s) = { casPeer src s with
      ins := tset (casPeer src s).ins stamp ⟨(tget ⟨[], false⟩ (casPeer src s).ins stamp).recs ++ recs,
        (tget ⟨[], false⟩ (casPeer src s).ins stamp).ended || ended⟩ } := tget_tset_same ..
  rw [peer]
  exact tget_tset_same ..

/-! ### VIDEO_REQ (R455) -/

/-- The members that want a bridge stream of this part put. -/
def wantedPut (k : Nat) (members : List Nat) (s : State) : State :=
  { s with cas := { s.cas with wanted := tset s.cas.wanted k members } }

theorem tget_wantedPut (k : Nat) (members : List Nat) (s : State) : tget [] (wantedPut k members s).cas.wanted k = members := tget_tset_same ..

/-- A request for a bridge stream of this part, by what it asks for. -/
theorem requestIn_own (own : m.subject / 4096 % 16 = casMe s) : let wanted := tget [] s.cas.wanted m.subject
    (le m.body 0 1 = 0 → requestIn m s = wantedPut m.subject (if wanted.contains m.src then wanted else wanted ++ [m.src]) s) ∧
    (le m.body 0 1 = 1 → requestIn m s = wantedPut m.subject (wanted.filter fun n => decide (n ≠ m.src)) s) ∧
    (∀ c, bridgeCtx m.subject s = some c →
      (le m.body 0 1 = 2 → requestIn m s = fwdPli c s.clk.stamp s) ∧ (le m.body 0 1 = 3 → requestIn m s = fwdFir c s.clk.stamp s)) := by
  intro wanted
  rw [requestIn, if_neg (not_not.mpr own)]
  refine ⟨fun wants => ?_, fun stops => ?_, fun c found => ⟨fun picture => ?_, fun full => ?_⟩⟩
  · simp only [wants]
    rfl
  · simp only [stops]
    rfl
  · simp only [picture, found]
  · simp only [full, found]

end

theorem cascadeEffects : Claims.CascadeEffects := by
  intro m s
  refine ⟨fun hello => ?_, fun ack j join phase expected accepted => ?_, fun leave stranger => ?_, fun leave member => ?_,
    fun audio member timely => ?_, fun audio member late => ?_, fun request own wants => ?_, fun request own stops => ?_,
    fun request own c found => ?_⟩
  · refine ⟨helloTaken m s, ackBody m s, ?_, le_ackBody_res m s, fun accepted => ⟨?_, ?_⟩, fun refused => ⟨?_, if_neg refused⟩⟩
    · rw [casDo_hello hello, helloIn_answers]
    · rw [le_ackBody_stamp]
      exact congrArg (· % 2 ^ 64) (if_pos accepted)
    · exact (congrArg (fun x : State => tfind x.cas.members m.src) (if_pos accepted)).trans (tfind_tset_same ..)
    · rw [le_ackBody_stamp]
      exact congrArg (· % 2 ^ 64) (if_neg refused)
  · rw [casDo_ack ack, ackIn_agrees join phase expected accepted]
  · rw [casDo_leave leave, leaveIn_stranger stranger]
  · rw [casDo_leave leave, leaveIn_member member]
  · rw [casDo_audio audio, audioIn_live member timely, ins_farTake]
    have peer : casPeer m.src (recsCaptured m (liveRecs m s) s) = casPeer m.src s :=
      congrArg (fun c : Cas => tget CasPeer.init c.peers m.src) (recsCaptured_cas ..)
    rw [peer]
    rfl
  · rw [casDo_audio audio, audioIn_late member late]
  · obtain ⟨add, _, _⟩ := requestIn_own own
    rw [casDo_request request, add wants, tget_wantedPut]
    exact mem_ifNew ..
  · obtain ⟨_, drop, _⟩ := requestIn_own own
    rw [casDo_request request, drop stops, tget_wantedPut]
    simp
  · obtain ⟨_, _, pictures⟩ := requestIn_own own
    rw [casDo_request request]
    exact pictures c found

/-! ## Timers and the key (R448 to R450, R455, R456) -/

section
variable {s : State}

theorem execHelloResend_due {j : CasJoin} {l : Lop} {h : Nat} (join : s.cas.join = some j) (phase : j.start = none) (sent : j.hello = some h)
    (due : 20 ≤ stampSub s.clk.stamp h) (found : lopFind j.fn j.tag s = some l) (active : lopActive l = true) :
    execHelloResend s = .next (helloSend j s) := by
  rw [execHelloResend, join]
  refine congrArg Host.Outcome.next (if_pos ?_)
  rw [phase, sent, found]
  dsimp only
  rw [active, decide_eq_true due]
  rfl

theorem execHelloResend_soon {j : CasJoin} {h : Nat} (join : s.cas.join = some j) (sent : j.hello = some h)
    (soon : stampSub s.clk.stamp h < 20) : execHelloResend s = .next s := by
  rw [execHelloResend, join]
  refine congrArg Host.Outcome.next (if_neg ?_)
  rw [sent]
  dsimp only
  rw [decide_eq_false (Nat.not_le.mpr soon), Bool.and_false, Bool.false_and]
  exact Bool.false_ne_true

theorem execJoinTimeout_due {j : CasJoin} {l : Lop} (join : s.cas.join = some j) (phase : j.start = none) (waits : joinAcked j = false)
    (due : 2000 ≤ stampSub s.clk.stamp j.began) (found : lopFind j.fn j.tag s = some l) :
    (l.st = .running → execJoinTimeout s = .next (joinFail j 1 s)) ∧ (l.st = .cancelling → execJoinTimeout s = .next (joinCancel j s)) := by
  rw [execJoinTimeout, join]
  have expired : ¬ (j.start.isSome || joinAcked j || decide (stampSub s.clk.stamp j.began < 2000)) = true := by
    rw [phase, waits, decide_eq_false (Nat.not_lt.mpr due)]
    decide
  refine ⟨fun running => congrArg Host.Outcome.next ((if_neg expired).trans ?_),
    fun cancelling => congrArg Host.Outcome.next ((if_neg expired).trans ?_)⟩
  · rw [found, Option.map_some, running]
  · rw [found, Option.map_some, cancelling]

theorem execJoinTimeout_soon {j : CasJoin} (join : s.cas.join = some j) (soon : joinAcked j = true ∨ stampSub s.clk.stamp j.began < 2000) :
    execJoinTimeout s = .next s := by
  rw [execJoinTimeout, join]
  refine congrArg Host.Outcome.next (if_pos ?_)
  rcases soon with acked | early
  · rw [acked, Bool.or_true, Bool.true_or]
  · rw [decide_eq_true early, Bool.or_true]

theorem memberLoss_lost {m : Nat} (member : tfind s.cas.members m ≠ none) (missed : 4 ≤ (casPeer m s).missed) :
    ∃ u, exec (.memberLoss m) s = .next (raise (ev EV_MEMBER_LOST 0 none 0 0 (m % 16 + (casPeer m s).last.getD 0 * 2 ^ 16) s) u) ∧
      tfind u.cas.members m = none ∧ Changes [.regs, .cas] s u := by
  show ∃ u, execMemberLoss m s = .next _ ∧ _
  refine ⟨memberDrop m (casPeerPut m { casPeer m s with missed := 0 } s), congrArg Host.Outcome.next (if_pos ?_), tfind_terase_same .., ?_⟩
  · rw [Option.isSome_iff_ne_none.mpr member, decide_eq_true missed]
    rfl
  · exact (Moves.seq (memberDrop_moves ..) (by decide) (Moves.seq (casPeerPut_moves ..) (by decide) (Moves.refl _ s))).toChanges

theorem execMemberLoss_few {m : Nat} (few : (casPeer m s).missed < 4) : execMemberLoss m s = .next s := by
  refine congrArg Host.Outcome.next (if_neg ?_)
  rw [decide_eq_false (Nat.not_le.mpr few), Bool.and_false]
  exact Bool.false_ne_true

theorem videoReqStop_stops {k a : Nat} (unwanted : tfind s.cas.wants k = some (some a)) (due : 2000 ≤ stampSub s.clk.stamp a) :
    ∃ u, exec (.videoReqStop k) s = .next (casRequest k 1 u) ∧ tfind u.cas.wants k = none ∧ tfind u.cas.streams k = none ∧
      Changes [.cas] s u := by
  show ∃ u, execVideoReqStop k s = .next _ ∧ _
  rw [execVideoReqStop, unwanted]
  exact ⟨_, congrArg Host.Outcome.next (if_pos due), tfind_terase_same .., tfind_terase_same ..,
    (Moves.cas_with (by decide) (Moves.refl _ _)).toChanges⟩

/-- KR1 put, with what its register shows. -/
theorem kr1Put_shown (k : List Nat) (s : State) : (kr1Put k s).key.kr1 = k ∧ fget R.CAS_KEY_STATUS_valid (kr1Put k s) = b2n (!k.isEmpty) ∧
    fget R.CAS_KEY_STATUS_kcv (kr1Put k s) = (if k.isEmpty then 0 else kcvOf k) % 2 ^ R.CAS_KEY_STATUS_kcv.w :=
  ⟨rfl, (fget_fset ..).trans (b2n_mod_two _), (fget_fset_other _ _ _ _ (by decide)).trans (fget_fset ..)⟩

theorem kr1Put_discard_moves (k : List Nat) (s : State) : Moves [.regs, .key, .cas] s (casKeyDiscard (kr1Put k s)) :=
  Moves.cas_with (by decide) (Moves.seq (fset_moves ..) (by decide) (Moves.seq (fset_moves ..) (by decide)
    (Moves.key_with (by decide) (Moves.refl _ _))))

theorem casKeyDiscard_changes (s : State) : Changes [.cas] s (casKeyDiscard s) := (Moves.cas_with (by decide) (Moves.refl _ _)).toChanges

/-- The key that the staged words hold. -/
def stagedKey (s : State) : List Nat := ((List.range 8).map fun i => (leBytes 4 (tget 0 s.cas.words i)).map (·.toNat)).flatten

theorem stagedKey_nonempty (s : State) : (stagedKey s).isEmpty = false := rfl

theorem execCasKeyLoad_takes (absent : s.key.kr1 = []) (full : s.cas.words.length = 8) :
    execCasKeyLoad s = .next (casKeyDiscard (kr1Put (stagedKey s) s)) := by
  refine congrArg (fun x => Host.Outcome.next (casKeyDiscard x)) (if_pos ?_)
  rw [absent, full]
  rfl

theorem execCasKeyLoad_refused (refused : s.key.kr1 ≠ [] ∨ s.cas.words.length ≠ 8) : execCasKeyLoad s = .next (casKeyDiscard s) := by
  refine congrArg (fun x => Host.Outcome.next (casKeyDiscard x)) (if_neg ?_)
  rw [Bool.and_eq_true_iff, List.isEmpty_iff, decide_eq_true_iff]
  exact fun both => refused.elim (absurd both.1) (absurd both.2)

end

theorem cascadeTimers : Claims.CascadeTimers := by
  intro s
  refine ⟨fun j l h join phase sent due found active => execHelloResend_due join phase sent due found active,
    fun j h join sent soon => execHelloResend_soon join sent soon, fun j l join phase waits due found => execJoinTimeout_due join phase waits due found,
    fun j join soon => execJoinTimeout_soon join soon, fun m => memberLoss_lost, fun m => execMemberLoss_few, fun k a => videoReqStop_stops,
    fun absent full => ?_, fun refused => ?_, ?_, ⟨casKeyDiscard s, rfl, rfl, casKeyDiscard_changes s⟩⟩
  · obtain ⟨key, valid, kcv⟩ := kr1Put_shown (stagedKey s) s
    refine ⟨_, execCasKeyLoad_takes absent full, key, valid, ?_, rfl, (kr1Put_discard_moves ..).toChanges⟩
    rw [stagedKey_nonempty] at kcv
    exact kcv
  · exact ⟨_, execCasKeyLoad_refused refused, rfl, casKeyDiscard_changes s⟩
  · obtain ⟨key, valid, _⟩ := kr1Put_shown [] s
    exact ⟨casKeyDiscard (kr1Put [] s), rfl, key, valid, rfl, (kr1Put_discard_moves ..).toChanges⟩

/-- Settles O41: a message by its checks in their order, then by its type; a timer by what it finds; the key's commands by KR1 and the staged
words. -/
theorem cascade : Obligations.Cascade := ⟨cascadeMessages, cascadeEffects, cascadeTimers⟩

end Sys2Proof.Machine
end

section
/-! PROOFS. Canvas ticks and compositions (R327, R346, R349); the confidence output's link, control register and frames (R350 to R352). -/

namespace Sys2Proof.Machine
open Sys2Proof.Claims

/-! ## A canvas's tick (R327) -/

section
variable {id : Nat} {x : Canvas} {s : State}

theorem liveCanvas_some (found : tfind s.vid.canvas id = some x) (goes : x.ends = false) : liveCanvas id s = some x := by
  simp [liveCanvas, found, goes]

theorem liveCanvas_ended (found : tfind s.vid.canvas id = some x) (ends : x.ends = true) : liveCanvas id s = none := by
  simp [liveCanvas, found, ends]

/-- A canvas stays on its compositor where that one does not drain, or it is suspended, and none that drained takes it home. -/
theorem canvasTurn_stays (found : tfind s.vid.canvas id = some x) (stays : (!x.suspended && draining x.comp s) = false)
    (home : drainHome drCanvas id s = none) : canvasTurn id s = s := by
  rw [canvasTurn, found]
  dsimp only
  split
  · rfl
  · rw [stays, home]
    rfl

theorem canvasTurn_early (found : tfind s.vid.canvas id = some x) (early : stampGe s.clk.stamp (x.tick x.k) = false) : canvasTurn id s = s := by
  rw [canvasTurn, found]
  exact if_pos (by rw [early]; rfl)

theorem canvasTick_composes (found : tfind s.vid.canvas id = some x) (goes : x.ends = false) (due : stampGe s.clk.stamp (x.tick x.k) = true)
    (works : x.suspended = false) : canvasTick id s = compSync x.comp (holdPics x (x.tick x.k) (canvasPut id { x with
      k := x.k + 1
      ready := x.ready ++ [cpicAt id x (x.tick x.k) (tickEncs id (x.tick x.k) s)] } (tickEncs id (x.tick x.k) s))) := by
  rw [canvasTick, liveCanvas_some found goes]
  exact (if_neg (by rw [due]; decide)).trans (if_neg (by rw [works]; decide))

theorem canvasTick_suspended (found : tfind s.vid.canvas id = some x) (goes : x.ends = false) (due : stampGe s.clk.stamp (x.tick x.k) = true)
    (rests : x.suspended = true) : canvasTick id s = canvasPut id { x with k := x.k + 1 } (tickEncs id (x.tick x.k) s) := by
  rw [canvasTick, liveCanvas_some found goes]
  exact (if_neg (by rw [due]; decide)).trans (if_pos rests)

theorem canvasTick_ended (found : tfind s.vid.canvas id = some x) (ends : x.ends = true) : canvasTick id s = s := by
  rw [canvasTick, liveCanvas_ended found ends]

theorem canvasTick_early (found : tfind s.vid.canvas id = some x) (early : stampGe s.clk.stamp (x.tick x.k) = false) : canvasTick id s = s := by
  cases ends : x.ends with
  | true => exact canvasTick_ended found ends
  | false =>
    rw [canvasTick, liveCanvas_some found ends]
    exact if_pos (by rw [early]; rfl)

/-! ## A composition missed (R349) -/

/-- Where the last entry of a list stays, a filter keeps it last. -/
theorem getLast?_filter_kept {α : Type} (l : List α) (p : α → Bool) (kept : ∀ a, l.getLast? = some a → p a = true) :
    (l.filter p).getLast? = l.getLast? := by
  rcases List.eq_nil_or_concat l with rfl | ⟨start, last, rfl⟩
  · rfl
  · have stays : p last = true := kept last (by simp)
    simp [List.filter_append, stays]

/-- The composed pictures of a canvas that are kept: the newest, and those that an encode still needs. -/
def doneKept (id : Nat) (x : Canvas) (s : State) : List CPic :=
  x.done.filter fun c => (decide (c.tick = (x.done.getLast?.map (·.tick)).getD 0) && !x.ends) || tickNeeded id c.tick s

theorem canvasTrim_live (found : tfind s.vid.canvas id = some x) (goes : x.ends = false) :
    canvasTrim id s = canvasPut id { x with done := doneKept id x s } s := by
  rw [canvasTrim, found]
  exact if_neg (by rw [goes]; exact Bool.false_ne_true)

theorem getLast?_doneKept (goes : x.ends = false) (s : State) : (doneKept id x s).getLast? = x.done.getLast? := by
  refine getLast?_filter_kept _ _ fun a last => ?_
  rw [last, goes]
  simp

/-- A canvas whose oldest composition is missed, before its pictures are trimmed. -/
def canvasStale (x : Canvas) : Canvas :=
  { x with
    ready := x.ready.drop 1
    stale := true }

/-- The part with a composition missed: counted, its fallback leg degraded, reported. -/
def missNoted (id : Nat) (x : Canvas) (c : CPic) (s : State) : State :=
  let s := cinc (0x640050 + 0x10000 * x.comp) (cinc (cvCnt id 8) (canvasPut id (canvasStale x) s))
  let s := match x.fallback with
    | some leg => degraded leg s
    | none => s
  compSync x.comp (raiseObj EV_CANVAS_MISSED x.ring 4 id c.tick s)

theorem compMissed_eq (c : CPic) : compMissed id x c s = canvasTrim id (missNoted id x c s) := rfl

theorem canvas_missNoted (c : CPic) : tfind (missNoted id x c s).vid.canvas id = some (canvasStale x) := by
  have put : tfind (canvasPut id (canvasStale x) s).vid.canvas id = some (canvasStale x) := tfind_tset_same ..
  unfold missNoted
  extract_lets counted noted
  have shown : (compSync x.comp (raiseObj EV_CANVAS_MISSED x.ring 4 id c.tick noted)).vid = noted.vid :=
    (compSync_moves ..).vid_eq.trans (raiseObj_moves ..).vid_eq
  have kept : noted.vid = counted.vid := by
    unfold noted
    split
    · exact (degraded_moves ..).vid_eq
    · rfl
  rw [shown, kept]
  exact put

theorem compMissed_canvas (c : CPic) (goes : x.ends = false) : ∃ done, tfind (compMissed id x c s).vid.canvas id = some { x with
    ready := x.ready.drop 1
    done := done
    stale := true } ∧ done.getLast? = x.done.getLast? ∧ ∀ p ∈ done, p ∈ x.done := by
  refine ⟨doneKept id (canvasStale x) (missNoted id x c s), ?_, getLast?_doneKept (x := canvasStale x) goes _, fun p kept => List.mem_of_mem_filter kept⟩
  rw [compMissed_eq, canvasTrim_live (canvas_missNoted c) goes]
  exact tfind_tset_same ..

end

theorem composition : Claims.Composition := by
  intro id x s found
  refine ⟨fun goes due works stays home => ?_, fun goes due rests home => ?_, fun idle => ?_, fun comp crcs c l next ready => ?_,
    fun c l ready over_ goes => ?_, fun c l ready early => ?_⟩
  · show execCanvasTick id s = _
    rw [execCanvasTick, canvasTurn_stays found (by rw [stays, Bool.and_false]) home, canvasTick_composes found goes due works]
  · show execCanvasTick id s = _
    rw [execCanvasTick, canvasTurn_stays found (by rw [rests]; rfl) home, canvasTick_suspended found goes due rests]
  · show execCanvasTick id s = _
    rw [execCanvasTick]
    rcases idle with ⟨ends, rests, home⟩ | early
    · rw [canvasTurn_stays found (by rw [rests]; rfl) home, canvasTick_ended found ends]
    · rw [canvasTurn_early found early, canvasTick_early found early]
  · show execCompositionComplete comp crcs s = _
    simp only [execCompositionComplete, next, found, ready]
  · have run : execCompositionMissed id s = .next (compMissed id x c s) := by
      simp only [execCompositionMissed, found, ready]
      exact congrArg Host.Outcome.next (if_pos over_)
    obtain ⟨done, canvas, last, kept⟩ := compMissed_canvas (id := id) (s := s) c goes
    rw [ready] at canvas
    exact ⟨_, done, run, canvas, last, kept, (execCompositionMissed_runs ..).changes run⟩
  · show execCompositionMissed id s = _
    simp only [execCompositionMissed, found, ready]
    exact congrArg Host.Outcome.next (if_neg (by rw [early]; exact Bool.false_ne_true))

/-! ## The link of the confidence output (R351) -/

section
variable {s : State}

theorem dpTry_training (lanes rate : Nat) (s : State) : Training lanes rate s (dpTry lanes rate s) := by
  refine ⟨?_, rfl, rfl, (dpTry_moves ..).toChanges⟩
  rw [dpSt, dpTry, fget_cinc]
  simp (disch := decide) only [fget_fset_other, fget_fset]
  rfl

theorem dpStart_training (s : State) : Training s.vid.dp.maxLanes s.vid.dp.maxRate s (dpStart s) := dpTry_training ..

theorem dpHpdHigh_trains (caps : Nat) (planned : planDpEnable s = 1) (down : dpSt s = 0) : ∃ t, exec (.dpHpdHigh caps) s = .next t ∧
    fget R.DP_STATUS_hpd t = 1 ∧ Training (max 1 (bits caps 0 2)) (bits caps 2 2) s t := by
  show ∃ t, execDpHpdHigh caps s = .next t ∧ _
  have stays : ¬ (decide (planDpEnable (fset R.DP_STATUS_hpd 1 s) ≠ 1) || decide (fget R.DP_STATUS_state (fset R.DP_STATUS_hpd 1 s) ≠ dpDown)) = true := by
    have kept : fget R.DP_STATUS_state (fset R.DP_STATUS_hpd 1 s) = dpDown := (fget_fset_other _ _ _ _ (by decide)).trans down
    have plan : planDpEnable (fset R.DP_STATUS_hpd 1 s) = 1 := planned
    simp [kept, plan]
  have run : execDpHpdHigh caps s = .next _ := congrArg Host.Outcome.next (if_neg stays)
  obtain ⟨state, lanes, rate, _⟩ := dpStart_training (dpPut { (fset R.DP_STATUS_hpd 1 s).vid.dp with
    maxLanes := max 1 (bits caps 0 2)
    maxRate := bits caps 2 2 } (fset R.DP_STATUS_hpd 1 s))
  refine ⟨_, run, ?_, state, lanes, rate, (execDpHpdHigh_runs ..).changes run⟩
  rw [dpStart, dpTry, fget_cinc]
  simp (disch := decide) only [fget_fset_other]
  exact fget_fset ..

/-- The link up with its lanes, rate and polarity shown. -/
def dpLinked (pol : Nat) (s : State) : State :=
  fset R.DP_STATUS_lanes s.vid.dp.lanes (fset R.DP_STATUS_rate s.vid.dp.rate (fset R.DP_STATUS_pol_inv pol (fset R.DP_STATUS_state dpUp s)))

theorem execDpTrainPass_up (pol : Nat) (training : dpSt s = 1) (carries : dpCarries s.vid.dp.lanes s.vid.dp.rate s = true) :
    execDpTrainPass pol s = .next (raiseUnit EV_DP_LINK_UP 0 (dpLanes s.vid.dp.lanes + s.vid.dp.rate * 8) (dpLinked pol s)) := by
  refine congrArg Host.Outcome.next ((if_neg (not_not.mpr training)).trans (if_neg ?_))
  rw [carries]
  decide

theorem execDpTrainPass_short (pol : Nat) (training : dpSt s = 1) (short : dpCarries s.vid.dp.lanes s.vid.dp.rate s = false) :
    execDpTrainPass pol s = .next (dpLost 2 3 s) := by
  refine congrArg Host.Outcome.next ((if_neg (not_not.mpr training)).trans (if_pos ?_))
  rw [short]
  rfl

theorem dpLinked_shown {pol : Nat} (lanes4 : s.vid.dp.lanes < 4) (rate4 : s.vid.dp.rate < 4) (pol16 : pol < 16) : dpSt (dpLinked pol s) = 2 ∧
    fget R.DP_STATUS_lanes (dpLinked pol s) = s.vid.dp.lanes ∧ fget R.DP_STATUS_rate (dpLinked pol s) = s.vid.dp.rate ∧
    fget R.DP_STATUS_pol_inv (dpLinked pol s) = pol := by
  simp (disch := decide) only [dpSt, dpLinked, fget_fset_other, fget_fset]
  exact ⟨rfl, Nat.mod_eq_of_lt lanes4, Nat.mod_eq_of_lt rate4, Nat.mod_eq_of_lt pol16⟩

theorem dpLinked_moves (pol : Nat) (s : State) : Moves [.regs] s (dpLinked pol s) :=
  Moves.seq (fset_moves ..) (by decide) (Moves.seq (fset_moves ..) (by decide) (Moves.seq (fset_moves ..) (by decide) (fset_moves ..)))

theorem execDpTrainStepFail_rate (training : dpSt s = 1) (lower : 0 < s.vid.dp.rate) :
    execDpTrainStepFail s = .next (dpTry s.vid.dp.lanes (s.vid.dp.rate - 1) s) :=
  congrArg Host.Outcome.next ((if_neg (not_not.mpr training)).trans (if_pos lower))

theorem execDpTrainStepFail_lanes (training : dpSt s = 1) (lowest : s.vid.dp.rate = 0) (fewer : 1 < s.vid.dp.lanes) :
    execDpTrainStepFail s = .next (dpTry (s.vid.dp.lanes - 1) s.vid.dp.maxRate s) :=
  congrArg Host.Outcome.next ((if_neg (not_not.mpr training)).trans ((if_neg (by rw [lowest]; decide)).trans (if_pos fewer)))

theorem execDpTrainStepFail_last (training : dpSt s = 1) (lowest : s.vid.dp.rate = 0) (one : s.vid.dp.lanes ≤ 1) :
    execDpTrainStepFail s = .next (dpLost 1 3 s) :=
  congrArg Host.Outcome.next ((if_neg (not_not.mpr training)).trans ((if_neg (by rw [lowest]; decide)).trans (if_neg (Nat.not_lt.mpr one))))

theorem execDpRetryTimer_due (failed : dpSt s = 3) (due : 2000 ≤ stampSub s.clk.stamp s.vid.dp.failed) : execDpRetryTimer s = .next (dpStart s) := by
  refine congrArg Host.Outcome.next (if_pos ?_)
  rw [decide_eq_true due, decide_eq_true (show fget R.DP_STATUS_state s = dpFailed from failed)]
  rfl

theorem execDpHpdLow_planned (planned : planDpEnable s = 1) : execDpHpdLow s = .next (dpLost 0 0 (fset R.DP_STATUS_hpd 0 s)) :=
  congrArg Host.Outcome.next (if_neg (not_not.mpr planned))

/-- The link down with a state, its lanes none, the time noted. -/
def dpDowned (st : Nat) (s : State) : State :=
  let shown := fset R.DP_STATUS_lanes 0 (fset R.DP_STATUS_rate 0 (fset R.DP_STATUS_pol_inv 0 (fset R.DP_STATUS_state st s)))
  dpPut { shown.vid.dp with failed := shown.clk.stamp } shown

theorem dpLost_shown (reason : Nat) {st : Nat} (small : st < 4) : ∃ u, dpLost reason st s = raiseUnit EV_DP_LINK_DOWN 0 reason u ∧ dpSt u = st ∧
    fget R.DP_STATUS_lanes u = 0 ∧ u.vid.dp.failed = s.clk.stamp ∧ Changes [.regs, .vid] s u := by
  refine ⟨dpDowned st s, rfl, ?_, fget_fset .., rfl, ?_⟩
  · refine (fget_regs R.DP_STATUS_state (s := fset R.DP_STATUS_lanes 0 (fset R.DP_STATUS_rate 0 (fset R.DP_STATUS_pol_inv 0
      (fset R.DP_STATUS_state st s)))) rfl).trans ?_
    simp (disch := decide) only [fget_fset_other, fget_fset]
    exact Nat.mod_eq_of_lt (Nat.lt_trans small (by decide))
  · exact (Moves.vid_with (by decide) (Moves.seq (fset_moves ..) (by decide) (Moves.seq (fset_moves ..) (by decide)
      (Moves.seq (fset_moves ..) (by decide) (Moves.seq (fset_moves ..) (by decide) (Moves.refl _ s)))))).toChanges

/-! ## The control register of the confidence output (R350) -/

/-- A field of DP_CTRL that takes a value in its range. -/
def dpField (f : Fld) (top n : Nat) (s : State) : State := if n ≤ top then fset f n s else s

/-- Pattern, rate and timing as a write of DP_CTRL puts them. -/
def dpShape (v : Nat) (s : State) : State :=
  dpField R.DP_CTRL_pattern 4 (bits v 13 3) (fset R.DP_CTRL_rate (bits v 12 1) (dpField R.DP_CTRL_timing 2 (bits v 10 2) s))

theorem dpField_moves (f : Fld) (top n : Nat) (s : State) : Moves [.regs] s (dpField f top n s) :=
  Moves.ite (fset_moves ..) (Moves.refl _ _)

theorem dpShape_moves (v : Nat) (s : State) : Moves [.regs] s (dpShape v s) :=
  (dpField_moves ..).trans ((fset_moves ..).trans (dpField_moves ..))

theorem fget_dpField {f g : Fld} (other : fkey f ≠ fkey g) (top n : Nat) (s : State) : fget f (dpField g top n s) = fget f s :=
  fget_ite (fget_fset_other _ _ _ _ other) rfl

theorem fget_dpShape {f : Fld} (pattern : fkey f ≠ fkey R.DP_CTRL_pattern) (rate : fkey f ≠ fkey R.DP_CTRL_rate)
    (timing : fkey f ≠ fkey R.DP_CTRL_timing) (v : Nat) (s : State) : fget f (dpShape v s) = fget f s :=
  (fget_dpField pattern ..).trans ((fget_fset_other _ _ _ _ rate).trans (fget_dpField timing ..))

theorem dpShape_fields {v : Nat} (timing : bits v 10 2 ≤ 2) (pattern : bits v 13 3 ≤ 4) (s : State) :
    fget R.DP_CTRL_timing (dpShape v s) = bits v 10 2 ∧ fget R.DP_CTRL_rate (dpShape v s) = bits v 12 1 ∧
    fget R.DP_CTRL_pattern (dpShape v s) = bits v 13 3 := by
  rw [dpShape, dpField, if_pos pattern, dpField, if_pos timing]
  simp (disch := decide) only [fget_fset_other, fget_fset]
  exact ⟨Nat.mod_eq_of_lt (bits_lt ..), Nat.mod_eq_of_lt (bits_lt ..), Nat.mod_eq_of_lt (bits_lt ..)⟩

/-- A write of DP_CTRL with a mode that needs no canvas. -/
theorem dpCtrlWrite_plain {v : Nat} (mode : bits v 0 2 < 2) (live : dpSt s ≠ 3) :
    dpCtrlWrite v s = dpShape v (fset R.DP_CTRL_mode (bits v 0 2) (fset R.DP_CTRL_canvas (bits v 2 8) s)) := by
  have small : bits v 0 2 ≤ 2 := Nat.le_of_lt mode
  have other : bits v 0 2 ≠ 2 := Nat.ne_of_lt mode
  simp only [dpCtrlWrite, if_pos small, decide_eq_true other, Bool.true_or, if_true]
  refine if_neg ?_
  change fget R.DP_STATUS_state (dpShape v _) ≠ dpFailed
  rw [fget_dpShape (by decide) (by decide) (by decide), fget_fset_other _ _ _ _ (by decide), fget_fset_other _ _ _ _ (by decide)]
  exact live

/-- A write of DP_CTRL with SERVICE of a canvas that it may not show. -/
theorem dpCtrlWrite_refused {v : Nat} (service : bits v 0 2 = 2) (hidden : ∀ x, liveCanvas (bits v 2 8) s = some x → x.dp = false)
    (live : dpSt s ≠ 3) : dpCtrlWrite v s = dpShape v (fset R.DP_STATUS_refused 1 s) := by
  have refused : ¬ (decide ((if bits v 0 2 ≤ 2 then bits v 0 2 else fget R.DP_CTRL_mode s) ≠ 2) || (match liveCanvas (bits v 2 8) s with
      | some x => x.dp
      | none => false)) = true := by
    rw [service]
    cases canvas : liveCanvas (bits v 2 8) s with
    | none => simp
    | some x => simp [hidden x canvas]
  refine (if_neg ?_).trans (congrArg (dpShape v) (if_neg refused))
  refine (congrArg (fun u => fget R.DP_STATUS_state (dpShape v u)) (if_neg refused)).symm ▸ ?_
  rw [fget_dpShape (by decide) (by decide) (by decide), fget_fset_other _ _ _ _ (by decide)]
  exact live

/-! ## Frames of the confidence output (R352) -/

theorem canvasTrim_dp (id : Nat) (s : State) : (canvasTrim id s).vid.dp = s.vid.dp := by
  have freed : ∀ (bases : List Nat) (y : State), (bases.foldl (fun s a => poolFree a none s) y).vid.dp = y.vid.dp := fun bases => by
    induction bases with
    | nil => exact fun _ => rfl
    | cons a bases ih => exact fun y => ih (poolFree a none y)
  unfold canvasTrim
  split
  · rfl
  · dsimp only
    split
    · exact freed ..
    · rfl

theorem dpClear_dp (s : State) : (dpClear s).vid.dp = { s.vid.dp with shown := none } := by
  unfold dpClear
  dsimp only
  split
  · exact canvasTrim_dp ..
  · rfl

/-- What a frame start finds: the settings latched, forced_diag brought up to date. -/
def dpLatched (s : State) : State := dpSync (dpLatch s)

theorem fget_dpLatched {f : Fld} (other : fkey f ≠ fkey R.DP_STATUS_forced_diag) (s : State) : fget f (dpLatched s) = fget f s :=
  fget_fset_other _ _ _ _ other

theorem forced_dpLatched (s : State) :
    fon R.DP_STATUS_forced_diag (dpLatched s) = (!s.clk.running || decide (fget R.FRM_STATUS_state s = 3)) :=
  fon_fset_b2n _ _ _ (by decide)

/-- The status page depends on no register of the confidence output. -/
theorem dpPage_of_same {t : State} (mem : t.mem = s.mem) (regs : t.regs = (dpLatched s).regs) : dpPage t = dpPage s := by
  have field : ∀ f, fkey f ≠ fkey R.DP_STATUS_forced_diag → fget f t = fget f s := fun f other =>
    (fget_regs f regs).trans (fget_dpLatched other s)
  have bays : (List.range 4).map (fun b => fget (R.FLT_BAY_STATUS_state b) t) = (List.range 4).map fun b => fget (R.FLT_BAY_STATUS_state b) s := by
    refine List.map_congr_left fun b listed => field _ ?_
    simp only [fkey, R.FLT_BAY_STATUS_state, R.DP_STATUS_forced_diag]
    omega
  have entry : ∀ a n, ledgerRead a n t = ledgerRead a n s := fun a n => by rw [ledgerRead, mem, ledgerRead]
  rw [dpPage, bays, field R.LDG_LOG_NEXT_next (by decide), field R.PWR_STATUS_phase (by decide), field R.LDG_LOG_OLDEST_oldest (by decide)]
  simp only [entry]
  rfl

/-- A diagnostic frame sent: pattern 3 is the status page. -/
def dpDiagFrame (s : State) : State :=
  { s with out := .diag s.vid.dp.pattern (if s.vid.dp.pattern = 3 then dpPage s else []) :: s.out }

theorem dpDiagFrame_out (s : State) :
    (dpDiagFrame s).out = .diag s.vid.dp.pattern (if s.vid.dp.pattern = 3 then dpPage s else []) :: s.out := rfl

theorem dpFrame_on (planned : planDpEnable s = 1) (up : dpSt s = 2) :
    ¬ (decide (planDpEnable s ≠ 1) || decide (fget R.DP_STATUS_state s ≠ dpUp)) = true := by
  have state : fget R.DP_STATUS_state s = dpUp := up
  simp [planned, state]

theorem dpFrameStart_diag (planned : planDpEnable s = 1) (up : dpSt s = 2)
    (diag : s.clk.running = false ∨ fget R.FRM_STATUS_state s = 3 ∨ fget R.DP_CTRL_mode s = 1) :
    ∃ t, exec .dpFrameStart s = .next t ∧ t.vid.dp.shown = none ∧
      t.out = .diag (fget R.DP_CTRL_pattern s) (if fget R.DP_CTRL_pattern s = 3 then dpPage s else []) :: s.out ∧
      Changes [.regs, .cnt, .vid, .out] s t := by
  show ∃ t, execDpFrameStart s = .next t ∧ _
  have forced : (fon R.DP_STATUS_forced_diag (dpLatched s) || decide ((dpLatched s).vid.dp.mode = 1)) = true := by
    have mode : (dpLatched s).vid.dp.mode = fget R.DP_CTRL_mode s := rfl
    rw [forced_dpLatched, mode]
    simpa [or_assoc] using diag
  have run : execDpFrameStart s = .next _ := congrArg Host.Outcome.next ((if_neg (dpFrame_on planned up)).trans (if_pos forced))
  have dp := dpClear_dp (dpLatched s)
  have clear := dpClear_moves (dpLatched s)
  have pattern : (cinc 0x680040 (dpClear (dpLatched s))).vid.dp.pattern = fget R.DP_CTRL_pattern s := congrArg Dp.pattern dp
  have page : dpPage (cinc 0x680040 (dpClear (dpLatched s))) = dpPage s :=
    dpPage_of_same (clear.same .mem (by decide)) (clear.same .regs (by decide))
  have out : (cinc 0x680040 (dpClear (dpLatched s))).out = s.out := clear.same .out (by decide)
  refine ⟨dpDiagFrame (cinc 0x680040 (dpClear (dpLatched s))), run, congrArg Dp.shown dp, ?_, (execDpFrameStart_runs s).changes run⟩
  rw [dpDiagFrame_out, pattern, page, out]

theorem execDpFrameStart_service (planned : planDpEnable s = 1) (up : dpSt s = 2) (running : s.clk.running = true)
    (image : fget R.FRM_STATUS_state s ≠ 3) (service : fget R.DP_CTRL_mode s = 2) :
    execDpFrameStart s = .next (dpService (cinc 0x680040 (dpLatched s))) := by
  have mode : (dpLatched s).vid.dp.mode = 2 := service
  refine congrArg Host.Outcome.next ((if_neg (dpFrame_on planned up)).trans ((if_neg ?_).trans (if_pos mode)))
  have forced := forced_dpLatched s
  rw [running, decide_eq_false image] at forced
  change ¬ (fon R.DP_STATUS_forced_diag (dpLatched s) || decide ((dpLatched s).vid.dp.mode = 1)) = true
  rw [forced, mode]
  decide

end

theorem confidenceOutput : Claims.ConfidenceOutput := by
  intro s d
  refine ⟨fun caps => dpHpdHigh_trains caps, fun pol training carries lanes4 rate4 pol16 => ?_, fun pol => execDpTrainPass_short pol,
    fun training lower => ⟨_, execDpTrainStepFail_rate training lower, dpTry_training ..⟩,
    fun training lowest fewer => ⟨_, execDpTrainStepFail_lanes training lowest fewer, dpTry_training ..⟩, execDpTrainStepFail_last,
    fun failed due => ⟨_, execDpRetryTimer_due failed due, dpStart_training s⟩,
    fun up => ⟨_, congrArg Host.Outcome.next (if_pos up), dpStart_training s⟩, execDpHpdLow_planned, fun reason st => dpLost_shown reason,
    fun v mode timing pattern live => ?_, fun v service hidden live => ?_, dpFrameStart_diag, execDpFrameStart_service⟩
  · obtain ⟨state, lanes, rate, inverted⟩ := dpLinked_shown lanes4 rate4 pol16
    exact ⟨_, execDpTrainPass_up pol training carries, state, lanes, rate, inverted, (dpLinked_moves ..).toChanges⟩
  · obtain ⟨timed, rated, patterned⟩ := dpShape_fields timing pattern (fset R.DP_CTRL_mode (bits v 0 2) (fset R.DP_CTRL_canvas (bits v 2 8) s))
    refine ⟨_, congrArg Host.Outcome.next (dpCtrlWrite_plain mode live), ?_, ?_, timed, rated, patterned, ?_⟩
    · rw [fget_dpShape (by decide) (by decide) (by decide), fget_fset]
      exact Nat.mod_eq_of_lt (bits_lt ..)
    · rw [fget_dpShape (by decide) (by decide) (by decide), fget_fset_other _ _ _ _ (by decide), fget_fset]
      exact Nat.mod_eq_of_lt (bits_lt ..)
    · exact ((fset_moves ..).trans ((fset_moves ..).trans (dpShape_moves ..))).toChanges
  · refine ⟨_, congrArg Host.Outcome.next (dpCtrlWrite_refused service hidden live), ?_, ?_, ?_, ((fset_moves ..).trans (dpShape_moves ..)).toChanges⟩
    · exact (fget_dpShape (by decide) (by decide) (by decide) ..).trans (fget_fset ..)
    · exact (fget_dpShape (by decide) (by decide) (by decide) ..).trans (fget_fset_other _ _ _ _ (by decide))
    · exact (fget_dpShape (by decide) (by decide) (by decide) ..).trans (fget_fset_other _ _ _ _ (by decide))

/-- Settles O34: a canvas's rows by what its tick and its window find; the confidence output's by the state of its link. -/
theorem pictureOutput : Obligations.PictureOutput := ⟨composition, confidenceOutput⟩

end Sys2Proof.Machine
end
